-- ==== Sys2Proof/Word.lean ====
section
/-! DEFINITION. The words of the module: 32-bit register words, bytes, the widths of the Control Law Engine and of
program memory. -/

namespace Sys2Proof

/-- A register word or a cell payload (R7, R8). -/
abbrev Word := BitVec 32

/-- A byte. -/
abbrev Byte := BitVec 8

/-- A program-memory word (chapter 14). -/
abbrev PWord := BitVec 14

/-- A microword of the CLE store (R122). -/
abbrev MWord := BitVec 144

end Sys2Proof
end

