-- ==== Sys2Proof/Types.lean ====
section
/-! DEFINITION. The types of the commands' operands: slices, pairs, engines, functions, masters, cells, the records of the
links and the responses of the monitor. -/

namespace Sys2Proof

/-- A slice number; slices above those of the part are absent (R2, R4). -/
abbrev Slice := Fin 12

/-- A core pair: slice pair n for n < 12, the system pair for 12. -/
abbrev Pair := Fin 13

/-- A DMA engine, watchdog or perturbation unit: slice n for n < 12, the system's for 12. -/
abbrev Engine := Fin 13

/-- A PCIe function: PF0 for 0, VF1 to VF15 for 1 to 15. -/
abbrev Func := Fin 16

/-- The masters that reach registers and memories (R45, R291, R338). -/
inductive Master where
  /-- The system pair. -/
  | sys
  /-- The core pair of a slice. -/
  | core (n : Slice)
  /-- A PCIe function through its BARs or a descriptor. -/
  | fn (f : Func)
  /-- A DMA engine of a slice, or the system engine, working for function `owner` when one set it going (R324). -/
  | dma (e : Engine)
  /-- The Colbel monitor. -/
  | mon
  deriving DecidableEq, Repr

/-- The authority behind a register access: the master, and the WARDEN and TEST permissions of the capability or session
it uses (R191, R252). -/
structure Access where
  m : Master
  warden : Bool
  test : Bool
  deriving DecidableEq, Repr

/-- A tagged cell: 32-bit payload and 4-bit tag (R7). -/
structure Cell where
  v : Word
  tag : BitVec 4
  deriving DecidableEq, Repr

/-- A value of a twin record, with the record's STREAM number (R395). -/
structure Streamed (α : Type) where
  val : α
  stream : BitVec 16
  deriving DecidableEq, Repr

/-- The loop state that a COMMIT or SNAP record carries (R395), bytes 2 to 43. -/
structure LoopImage where
  bank : Bool
  mode : Bool
  autoFirst : Bool
  ptb : Bool
  seq : BitVec 8
  time : BitVec 64
  ref : BitVec 16
  inp : BitVec 16
  e1 : BitVec 16
  e2 : BitVec 16
  e3 : BitVec 16
  y1 : BitVec 16
  y2 : BitVec 16
  y3 : BitVec 16
  u : BitVec 16
  y : BitVec 16
  man : BitVec 16
  clampHi : Bool
  clampLo : Bool
  value : Word
  tgt : Word
  deriving DecidableEq, Repr

/-- An unequal comparison at one comparison point (R271, R272): the leading core's address or source number, the differences
of payload (or level), tag and byte enables, and whether the addresses differed. -/
structure DivRec where
  addr : Word
  xor : Word
  tagXor : BitVec 4
  beXor : BitVec 4
  addrDiff : Bool
  deriving DecidableEq, Repr

/-- The records of a comparison point differ (R271): 1 MEM_WRITE, 2 REG_WRITE, 3 EVENT_ACK, which has a source and a level. -/
def DivRec.differs (d : DivRec) (point : Nat) : Bool :=
  d.addrDiff || (if point == 3 then (d.xor &&& 0x1F) != 0 else d.xor != 0 || d.beXor != 0 || (point == 1 && d.tagXor != 0))

/-- A feature that a function's configuration space reports as present or absent (R327). -/
inductive PcieCap where
  | aer
  | ari
  | sriov
  | msix
  | tag10
  | flr
  | d3hot
  | serial
  | intx
  | msi
  | ats
  | pasid
  | resizableBar
  | aspm
  deriving DecidableEq, Repr

/-- A field of a function's configuration space, by name, since the spec gives no offsets (log 165): its header (R328), its
base address registers in 32-bit halves (R337), SR-IOV (R333), MSI-X (R343), device control (R342), AER and the serial
number (R327). -/
inductive CfgReg where
  | vendorId
  | deviceId
  | revisionId
  | classCode
  | bar (k : Fin 6)
  | totalVfs
  | numVfs
  | vfEnable
  | firstVfOffset
  | vfStride
  | msixTableSize
  | msixEnable
  | functionMask
  | busMaster
  | d3hot
  | maxPayload
  | maxReadRequest
  | tag10Enable
  | aerStatus
  | serialLo
  | serialHi
  | capability (c : PcieCap)
  deriving DecidableEq, Repr

/-- A configuration request (R327, R333, R337, R342, R343): it sets Bus Master Enable, VF Enable with NumVFs, MSI-X Enable with
Function Mask, power state D0, half k of the base address registers, or the device control (Max_Payload_Size and
Max_Read_Request_Size as the power of two above 128 B, and 10-Bit Tag Requester Enable); it clears AER bits; or it reads. -/
inductive CfgSet where
  | busMaster
  | vfs (num : Fin 16)
  | msix (enable mask : Bool)
  | d0
  | bar (k : Fin 6) (v : Word)
  | devCtl (mps mrrs : Fin 6) (tag10 : Bool)
  | aerClear (v : Word)
  | read (r : CfgReg)
  deriving DecidableEq, Repr

/-- How a read that the module issued failed (R342). -/
inductive ReqFail where
  | timeout
  | unsupported
  | abort
  deriving DecidableEq, Repr

/-- A run of difference injection (R276): of each point, whether its equal pair was reported, and how many of its unequal
pairs were missed or reported at the wrong point, of the 72, 68 and 14 presented. -/
structure InjRun where
  mwEq : Bool
  mwMissed : Fin 73
  rwEq : Bool
  rwMissed : Fin 69
  eaEq : Bool
  eaMissed : Fin 15
  deriving DecidableEq, Repr

/-- The first point at which a presentation failed, encoded as POINT; 0 for none (R277). -/
def InjRun.failPoint (r : InjRun) : Nat :=
  if r.mwEq || r.mwMissed.val != 0 then 1
  else if r.rwEq || r.rwMissed.val != 0 then 2
  else if r.eaEq || r.eaMissed.val != 0 then 3
  else 0

/-- An equal pair was reported (R277). -/
def InjRun.falseDet (r : InjRun) : Bool := r.mwEq || r.rwEq || r.eaEq

/-- Unequal presentations missed, or reported at the wrong point (R277). -/
def InjRun.missed (r : InjRun) : Nat := r.mwMissed.val + r.rwMissed.val + r.eaMissed.val

/-- The run passed (R277). -/
def InjRun.pass (r : InjRun) : Bool := r.failPoint == 0

/-- How an erase ended: the verify passed, and its duration in ms (R412). -/
structure EraseEnd where
  pass : Bool
  ms : BitVec 16
  deriving DecidableEq, Repr

/-- How a step of a scrub rewrite ended: an erase, or the verify retries of the programming (R418). -/
structure StepEnd where
  erase : EraseEnd
  retries : Fin 9
  deriving DecidableEq, Repr

/-- A HELLO message: its transport, the client's nonce and its ephemeral public key (R462). -/
structure HelloMsg where
  tr : Fin 3
  nonce : BitVec 256
  key : BitVec 512
  deriving DecidableEq, Repr

/-- Byte 0 of a CAN FD segment but its index, and the LENGTH that the header of its message carries (R460, R461). -/
structure SegHead where
  /-- From the module. -/
  dir : Bool
  last : Bool
  length : BitVec 16
  deriving DecidableEq, Repr

/-- The envelope of a sealed request: session, SEQ, and whether its tag verifies (R461). -/
structure ColbelReq where
  sess : Fin 4
  seq : BitVec 64
  tagOk : Bool
  /-- The transport on which it arrives (R460). -/
  tr : Fin 3
  deriving DecidableEq, Repr

/-- How a run of the march engine ended: the failing cells, the bank of the first of them and its address (R297). -/
structure MarchRes where
  fails : Nat
  bank : Fin 16
  addr : Word
  deriving DecidableEq, Repr

/-- What start-up finds outside the module's digital state (R21, R25 to R28, R428): the straps, the input in units of
10 mV, the measured hold-up in units of 0.1 ms, how the erase of an interrupted rewrite ends (R419), march outcomes of Plain and of each slice, comparator injection of the system pair and of each slice, and the slice self-tests. -/
structure BootTests where
  strap : Fin 8
  vin : BitVec 16
  holdup : BitVec 16
  rewrite : EraseEnd
  sysMarch : MarchRes
  sliceMarch : Vector MarchRes 12
  sysInj : InjRun
  sliceInj : Vector InjRun 12
  selftest : BitVec 12
  deriving DecidableEq, Repr

/-- A conversion's result as the metering converter delivers it (R195). -/
structure RawResult where
  raw : Int
  ovr : Bool
  deriving DecidableEq, Repr

/-- What is known of the partner when the twin link comes up (R391, R392). -/
structure TwinPeer where
  side : Bool
  /-- It is in TWIN mode and LOCKED in the same group. -/
  ready : Bool
  /-- Its RUNNING slices. -/
  running : BitVec 12
  deriving DecidableEq, Repr

/-- A record of an EVENT frame (R368). -/
structure PwyRec where
  id : BitVec 16
  slot : Fin 32
  epoch : BitVec 8
  time : Word
  deriving DecidableEq, Repr

/-- The payload of a TOPO frame (R368). -/
structure PwyTopo where
  group : Fin 64
  pos : Fin 32
  prio : Fin 16
  ttCapable : Bool
  armed : Bool
  /-- Bit p: port p has a link, for a group port one that does not lead out of the group. -/
  ports : BitVec 4
  gepoch : BitVec 8
  deriving DecidableEq, Repr

/-- A Passway frame (R367, R368), with originator position and sequence number of its header. Timestamps of the delay frames count 1/16 tCK (R373). -/
inductive PwyFrame where
  | sync (pos : Fin 32) (seq : BitVec 8) (t tApply : BitVec 64) (step : Word) (gepoch : BitVec 8) (master : Fin 32)
  | event (pos : Fin 32) (seq : BitVec 8) (recs : List PwyRec)
  | topo (seq : BitVec 8) (p : PwyTopo)
  | dlyReq (pos : Fin 32) (seq : BitVec 8) (t1 : Nat)
  | dlyResp (pos : Fin 32) (seq : BitVec 8) (t2 t3 : Nat)
  deriving DecidableEq, Repr

/-- What came on a port between the start and the end character of a frame, or as a record of the twin link (R367, R395). -/
structure RawFrame where
  port : Fin 4
  bytes : List (BitVec 8)
  deriving DecidableEq, Repr

/-- Where a host write goes through BAR2, BAR4 or BAR0 to memory cells (R338 to R340). -/
inductive HostWindow where
  | plain
  | main
  | slice (n : Slice)
  deriving DecidableEq, Repr

/-- A register that the monitor reads or writes (R207, R466): DSP and RSP of the active set, a capability register of a set,
or a register of the KC block by its offset. -/
inductive CoreReg where
  | a
  | x
  | y
  | pg
  | dsp
  | rsp
  | pc
  | loopStart
  | loopEnd
  | loopCount
  | cap (set n : Fin 8)
  | kc (off : BitVec 12)
  deriving DecidableEq, Repr

/-- How a master arms or disarms outputs: DEV_ARM or DEV_DISARM with a mask of slices, or SLC_ARM of one slice (R33, R35). -/
inductive ArmBy where
  | dev (mask : BitVec 12)
  | slc (n : Slice)
  deriving DecidableEq, Repr

/-- A shadow register of a PWM channel (R159). -/
inductive Shadow where
  | per
  | cmp
  | dt
  deriving DecidableEq, Repr

/-- A target register of the event router: EVR_TGT of a source, EVR_LTGT of a slice's source, EVR_GTGT of a group (R312). -/
inductive TgtReg where
  | src (i : Fin 1024)
  | loc (n : Slice) (i : Fin 72)
  | grp (g : Fin 64)
  deriving DecidableEq, Repr

/-- What a read of a function fetched: the data of a flight, the entry at the head of a submission ring, or what an abort had
given up. -/
inductive ReadOf where
  | data (k : Nat)
  | fetch (r : Fin 8)
  | late
  deriving DecidableEq, Repr

/-- A read that failed, and how (R342). -/
structure LostRead where
  what : ReadOf
  why : ReqFail
  deriving DecidableEq, Repr

/-- An address of register space, the byte enables of the access (R8), and what an event of its very cycle has set or added in the
RC and W1C bits of the word (R10). -/
structure BusAddr where
  a : Nat
  be : BitVec 4
  ev : Word
  deriving DecidableEq, Repr

/-- An arm request, and the slices that a disarm of the same cycle names (R33). -/
structure ArmReq where
  w : ArmBy
  off : BitVec 12
  deriving DecidableEq, Repr

/-- The boundary of a loop's sample: whether a write of MANUAL_VALUE commits in its cycle (R119), and whether the loop became
eligible at a half-cycle instant (R179). -/
structure IssueAt where
  coll : Bool
  half : Bool
  deriving DecidableEq, Repr

/-- A wake: its source, and the sources that rise in the same cycle (R39). -/
structure WakeBy where
  k : Fin 10
  also : BitVec 10
  deriving DecidableEq, Repr

/-- A word for GRG_TEST, and the level of each half that SWAP finds (R74). -/
structure SwapWrite where
  v : Word
  hi : Option Bool
  lo : Option Bool
  deriving DecidableEq, Repr

/-- The clear of a channel's trip, and whether a request of the command source falls into its cycle (R170, R173). -/
structure TripClr where
  k : Fin 8
  cmd : Bool
  deriving DecidableEq, Repr

/-- A word for SLC_TRIPIN, and the level of the pin in the cycle after the write (R169). -/
structure TripinWord where
  v : Word
  pin : Bool
  deriving DecidableEq, Repr

/-- A session, and the transport on which a message about it arrives (R460, R465). -/
structure SessMsg where
  tr : Fin 3
  k : Fin 4
  deriving DecidableEq, Repr

end Sys2Proof
end

