-- ==== Sys2Proof/Syntax.lean ====
section
/-! DEFINITION. The commands of the module: one constructor for each row of the opcode table, with the operands that the
row's rule gives it and what only the world outside decides. A register write carries its master, its authority and its
word; an event of the analogue world, a link or a timer carries what happened. -/

namespace Sys2Proof

/-- A command. -/
inductive Instr where
  /-- REGISTER_WRITE: A write to a register that has no row of its own takes effect under the field's access code and the unit's write rules. (R9) -/
  | registerWrite (x : Access) (a : BusAddr) (v : Word)
  /-- COLD_START: The supply at J1 rising through 25 V starts the ten-step start-up sequence. (R25) -/
  | coldStart (t : BootTests)
  /-- ARM: A write of 1 to DEV_ARM.ARM or SLC_ARM.ARM arms the slice, holds the request pending, or refuses and counts it. (R30) -/
  | arm (x : Access) (w : ArmReq)
  /-- ARM_PENDING_TAKES_EFFECT: A pending arm request arms the slice once the conditions of R30 are met. (R31) -/
  | armPendingTakesEffect (n : Slice)
  /-- DISARM: A write to DEV_DISARM or SLC_ARM.DISARM disarms the slice at once, and every output turns off. (R33) -/
  | disarm (x : Access) (w : ArmBy)
  /-- MODE_CHANGE_REQUEST: A write of DEV_MODE_REQ is accepted, setting CHANGING, or refused with a status. (R35) -/
  | modeChangeRequest (x : Access) (v : Word)
  /-- MODE_CHANGE_COMPLETE: An accepted mode change completes, and MODE, PREV, SEQ, REQ_STATUS and CHANGING change together. (R37) -/
  | modeChangeComplete
  /-- STABLED_ENTRY_COMPLETE: The fast domains power off, the PLLs stop and MODE reads STABLED. (R438) -/
  | stabledEntryComplete
  /-- WAKE: An enabled wake source fires in STABLED and the module runs the wake steps, or a cold start after a tamper or supply event. (R39) -/
  | wake (k : WakeBy) (t : BootTests)
  /-- SLICE_ASSIGN: A write of DEV_SLC_ASSIGN[n] changes the owner of an OFF or FENCED slice, or is refused with a status. (R46) -/
  | sliceAssign (x : Access) (n : Slice) (v : Word)
  /-- FENCE: A FENCE command is accepted: outputs go to SAFE_PAT, triggers are masked, uncompared commits are discarded and the core pair halts. (R52) -/
  | fence (x : Access) (n : Slice) (key : BitVec 16) (toTwin : Bool)
  /-- FENCE_COMPLETE: The fence takes full effect and SLC_STATE reads FENCED, after the memory clear and microcode load when coming from OFF. (R52) -/
  | fenceComplete (n : Slice)
  /-- RESUME: A RESUME command starts the parity check of the store, or is refused. (R54) -/
  | resume (x : Access) (n : Slice) (key : BitVec 16)
  /-- RESUME_CHECK_COMPLETE: The RESUME parity check ends, and the slice reads READY or stays FENCED with REFUSED. (R54) -/
  | resumeCheckComplete (n : Slice)
  /-- GO: A GO command on a READY slice awaits the VALLEY of channel 0 to unmask triggers. (R50) -/
  | go (x : Access) (n : Slice) (key : BitVec 16)
  /-- RESTART: A RESTART command resets the core pair of a FENCED slice and starts its injection and self-tests. (R56) -/
  | restart (x : Access) (n : Slice) (key : BitVec 16)
  /-- RESTART_TESTS_COMPLETE: The RESTART tests end, clearing LOCKSTEP_BROKEN with OK, or completing with FAULT and a cause. (R56) -/
  | restartTestsComplete (n : Slice) (r : InjRun) (selftest : Bool)
  /-- STOP: A STOP command takes a FENCED slice to OFF and resets its unit registers. (R50) -/
  | stop (x : Access) (n : Slice) (key : BitVec 16)
  /-- WINDOW_HALF_SWITCH: A window half sets or clears as its input passes the switching level, and the line and trip request follow. (R67) -/
  | windowHalfSwitch (n i : Slice) (high set : Bool)
  /-- SETTLING_INTERVAL_END: The 2 µs after entry into UNSETTLED end, and halves whose input is outside the band settle. (R69) -/
  | settlingIntervalEnd (n i : Slice) (hi lo : Option Bool)
  /-- INPUT_OVERRANGE: An input beyond the 2 % margin sets GRG_IN[i].OVR. (R61) -/
  | inputOverrange (n i : Slice) (beyond : Bool)
  /-- GRG_WCFG_WRITE: A write of the window configuration is applied, and an enable or half-enable change enters UNSETTLED. (R69) -/
  | grgWcfgWrite (x : Access) (n i : Slice) (v : Word)
  /-- GRG_IN_WRITE: A write of GRG_IN changes MODE in FENCED, returning the window to UNSETTLED, or clears OVR. (R62) -/
  | grgInWrite (x : Access) (n i : Slice) (v : Word)
  /-- GRG_THR_WRITE: A threshold write is staged into the double-buffered DACs. (R68) -/
  | grgThrWrite (x : Access) (n i : Slice) (v : Word)
  /-- THRESHOLD_SWITCH: Within 250 ns of the write, the half switches to its new threshold in one step. (R68) -/
  | thresholdSwitch (n i : Slice) (high : Bool)
  /-- GRG_TEST_WRITE: A write of GRG_TEST starts or ends a comparator test, or is refused and counted. (R75) -/
  | grgTestWrite (x : Access) (n i : Slice) (v : SwapWrite)
  /-- SAR_TRIGGER: A hardware trigger reaches a converter and starts a burst, is merged, or is held pending. (R82) -/
  | sarTrigger (n : Slice) (k : Fin 4) (extra : Fin 8)
  /-- SAR_SWTRIG: A write of 1 to SAR_SWTRIG is a trigger of the converter. (R82) -/
  | sarSwtrig (x : Access) (n : Slice) (k : Fin 4)
  /-- SAR_HOLD: Acquisition ends and the sample is held, and conversion starts. (R79) -/
  | sarHold (n : Slice) (k : Fin 4) (code : BitVec 16)
  /-- SAR_RESULT_READY: The result is ready, and the next entry or a pending burst starts its acquisition. (R79) -/
  | sarResultReady (n : Slice) (k : Fin 4)
  /-- SAR_HANDOFF: The corrected result lands in the CLE input register and SAR_RES, and may trigger the loop. (R87) -/
  | sarHandoff (n : Slice) (k : Fin 4) (coll : Bool)
  /-- SAR_RECORD_WRITE: A queued result record is written to its circular buffer in slice memory. (R89) -/
  | sarRecordWrite (n : Slice) (k : Fin 4)
  /-- SELFCAL: A write of SAR_CTRL.SELFCAL in FENCED starts self-calibration of the converters. (R92) -/
  | selfcal (x : Access) (n : Slice)
  /-- SELFCAL_COMPLETE: Self-calibration ends, and SELFCAL clears or CAL_FAIL is set. (R92) -/
  | selfcalComplete (n : Slice) (failed : BitVec 4)
  /-- LOOP_TRIGGER: A trigger makes the loop QUEUED, or is merged, skipped or made LATE. (R110) -/
  | loopTrigger (n : Slice) (j : Fin 16)
  /-- CLE_SWTRIG: A write of CLE_SWTRIG triggers the loops whose bits are 1. (R108) -/
  | cleSwtrig (x : Access) (n : Slice) (v : Word)
  /-- LOOP_ISSUE: The lowest queued loop issues its first microword when no routine is issuing. (R110) -/
  | loopIssue (n : Slice) (at_ : IssueAt)
  /-- MICROWORD_ISSUE: A microword issues, and each field acts on its datapath resource. (R125) -/
  | microwordIssue (n : Slice)
  /-- COMMIT_COMPARE: The trailing datapath's record arrives and is compared, and on agreement the target write begins. (R105) -/
  | commitCompare (n : Slice) (j : Fin 16) (agree : Bool)
  /-- COMMIT_COMPLETE: The commit write completes, the loop state is updated and the loop returns to IDLE. (R105) -/
  | commitComplete (n : Slice) (j : Fin 16) (coll : Bool)
  /-- SWAP_BANK: A SWAP_BANK command is made pending, to exchange banks at the next boundary. (R116) -/
  | swapBank (x : Access) (n : Slice) (j : Fin 16) (key : BitVec 16)
  /-- TO_AUTO: A TO_AUTO command is made pending, for a bumpless change to automatic mode. (R118) -/
  | toAuto (x : Access) (n : Slice) (j : Fin 16) (key : BitVec 16)
  /-- TO_MANUAL: A TO_MANUAL command is made pending, to carry the last output into MANUAL_VALUE. (R119) -/
  | toManual (x : Access) (n : Slice) (j : Fin 16) (key : BitVec 16)
  /-- CLEAR_HIST: A CLEAR_HIST command is made pending, to zero the histories at the boundary. (R120) -/
  | clearHist (x : Access) (n : Slice) (j : Fin 16) (key : BitVec 16)
  /-- MCS_STAGE_WRITE: A write to bytes 0x00 to 0x0C of an MCS word goes to the staging buffer. (R140) -/
  | mcsStageWrite (x : Access) (n : Slice) (w : BitVec 12) (i : Fin 4) (v : Word)
  /-- MCS_WORD_COMMIT: A write to byte 0x10 commits the staged word and its copy, or is refused and recorded. (R141) -/
  | mcsWordCommit (x : Access) (n : Slice) (w : BitVec 12) (v : Word)
  /-- LD_OPEN_WRITE: A write of LD_OPEN opens or closes loading, and a close starts the CRC. (R142) -/
  | ldOpenWrite (x : Access) (n : Slice) (v : Word)
  /-- CRC_COMPLETE: The customer-partition CRC is written to MCS_LD_CRC and CRC_BUSY clears. (R142) -/
  | crcComplete (n : Slice)
  /-- SCAN_REPAIR: A word that failed the background scan is rewritten from its copy in the next idle cycle. (R139) -/
  | scanRepair (n : Slice) (w : BitVec 12) (stuck : Bool)
  /-- ATT: An attached-unit call instruction checks its operand tags and is queued for the CLE. (R145) -/
  | att (p : Pair)
  /-- ATTACHED_CALL_ISSUE: The call's first word issues when no loop is queued or issuing. (R146) -/
  | attachedCallIssue (n : Slice)
  /-- ATTACHED_CALL_COMPLETE: COMMIT_CORE compares the records and writes the tagged result to A. (R145) -/
  | attachedCallComplete (n : Slice) (agree : Bool)
  /-- ATTACHED_CALL_TIMEOUT: A call not complete within TIMEOUT µs writes A as EMPTY and is counted. (R145) -/
  | attachedCallTimeout (n : Slice)
  /-- PWM_VALLEY: The counter reaches 0: shadows reload, sync correction runs and VALLEY occurs. (R147) -/
  | pwmValley (n : Slice) (k : Fin 8)
  /-- PWM_PERIOD_POINT: The counter reaches PER, reloads under the reload mode, and PERIOD occurs. (R147) -/
  | pwmPeriodPoint (n : Slice) (k : Fin 8)
  /-- PHASE_CHANGE: At an edge instant the pair changes phase, and the outgoing output turns off. (R153) -/
  | phaseChange (n : Slice) (k : Fin 8)
  /-- DEAD_TIME_END: The dead time ends and the incoming output turns on. (R154) -/
  | deadTimeEnd (n : Slice) (k : Fin 8)
  /-- PWM_SHADOW_WRITE: A write to the PER, CMP or DT shadow takes effect at the next applicable reload point. (R159) -/
  | pwmShadowWrite (x : Access) (n : Slice) (k : Fin 8) (w : Shadow) (v : Word)
  /-- IMMEDIATE_ACTIVATION: In IMMEDIATE mode a CMP write becomes active 2 tCK after it completes. (R160) -/
  | immediateActivation (n : Slice) (k : Fin 8)
  /-- COUNTER_RESTART: The counter restarts at its demanded position, active values load and the event prescalers restart. (R164) -/
  | counterRestart (n : Slice) (k : Fin 8)
  /-- TRIP_LATCH: An enabled source's request latches a trip, and the first latch records its source and time. (R170) -/
  | tripLatch (n : Slice) (k : Fin 8)
  /-- TRIP_INPUT_FILTER_PASS: A trip input that held a new level for the filter time passes it to the request. (R169) -/
  | tripInputFilterPass (n : Slice) (t : Fin 4) (pin : Bool)
  /-- TRIP_CLEAR: A write of PWM_TRIP_CMD.CLEAR is accepted, setting REARM_PEND, or refused and counted. (R170) -/
  | tripClear (x : Access) (n : Slice) (k : TripClr)
  /-- TRIP_FORCE: A write of PWM_TRIP_CMD.FORCE raises the CMD source for one cycle. (R168) -/
  | tripForce (x : Access) (n : Slice) (k : Fin 8)
  /-- SLC_TRIP: A write of SLC_TRIP raises the CMD source of the chosen channels. (R176) -/
  | slcTrip (x : Access) (n : Slice) (mask : BitVec 8)
  /-- TRIP_STAGE_TURN_ON: An output whose turn-on was pending turns on once the dead time after the other output's turn-off has passed. (R167) -/
  | tripStageTurnOn (n : Slice) (k : Fin 8)
  /-- TRIP_ENABLE_WRITE: A write of PWM_TRIP_EN enables sources, with window bits subject to the arm check. (R168) -/
  | tripEnableWrite (x : Access) (n : Slice) (k : Fin 8) (v : Word)
  /-- TRIPIN_CONFIG_WRITE: A change of FILT or POL in FENCED restarts the trip-input filter. (R169) -/
  | tripinConfigWrite (x : Access) (n : Slice) (t : Fin 4) (v : TripinWord)
  /-- CAPTURE_EDGE: A selected filtered edge records MTIME in the capture FIFO, or is dropped and counted. (R174) -/
  | captureEdge (n : Slice) (c : Fin 4) (rise : Bool)
  /-- CAPTURE_FIFO_READ: A read of SLC_CAPTS returns and removes the oldest record. (R174) -/
  | captureFifoRead (x : Access) (n : Slice) (c : Fin 4)
  /-- ENCODER_STEP: A filtered track edge changes POS by one, or both tracks changing counts ENC_ERR. (R175) -/
  | encoderStep (n : Slice) (a b : Bool)
  /-- INJECTION_START: A write of INJ_CTRL.START starts a run if authority, limits and configuration allow. (R191) -/
  | injectionStart (x : Access) (n : Slice) (v : Word)
  /-- INJECTION_STOP: A write of STOP ends the run with cause COMMAND. (R192) -/
  | injectionStop (x : Access) (n : Slice)
  /-- INJ_CAPTURE_RECORD_WRITE: A queued capture record is written to the buffer in slice memory. (R193) -/
  | injCaptureRecordWrite (n : Slice)
  /-- INJ_LIM_WRITE: A write of INJ_LIM sets the loop's amplitude limit and ends a run on that loop with AUTHORITY. (R194) -/
  | injLimWrite (x : Access) (n : Slice) (j : Fin 16) (v : Word)
  /-- ZERO_CROSSING: A positive-going crossing of ZC_CH is accepted or ignored by its interval. (R196) -/
  | zeroCrossing
  /-- MAD_BOUNDARY: An integration boundary ends conversions, produces records and starts the next scan position. (R196) -/
  | madBoundary (rs : Vector RawResult 4)
  /-- LINE_LOST: No crossing within 66.667 ms sets LINE_LOST and makes a fall-back boundary. (R197) -/
  | lineLost (rs : Vector RawResult 4)
  /-- MAD_RECORD_WRITE: A queued metering record is written to the Plain buffer, or dropped when it is full. (R201) -/
  | madRecordWrite
  /-- URGENT_REQUEST: A write of MAD_URG requests one conversion, completing with a status. (R202) -/
  | urgentRequest (x : Access) (v : Word)
  /-- REF_SETTLED: The selected reference completes settling, and REF_SETTLED reads 1. (R203) -/
  | refSettled
  /-- REF_FAULT: An EXT reference leaves its window, setting REF_FAULT and clearing REF_SETTLED. (R203) -/
  | refFault
  /-- MAD_UNIT_ENABLE: A change of EN starts a unit at the next boundary or discards its integration. (R204) -/
  | madUnitEnable (x : Access) (v : Word)
  /-- MAD_SCAN_WRITE: A write of MASK applies at a boundary and resets the scan position. (R198) -/
  | madScanWrite (x : Access) (v : Word)
  /-- LDA: Loads the operand cell into A. (R212) -/
  | lda (p : Pair)
  /-- STA: Stores A to the operand cell. (R212) -/
  | sta (p : Pair)
  /-- ADD: Adds the operand to A, wrapping. (R212) -/
  | add (p : Pair)
  /-- SUB: Subtracts the operand from A, wrapping. (R212) -/
  | sub (p : Pair)
  /-- ADDS: Adds the operand to A with saturation. (R212) -/
  | adds (p : Pair)
  /-- SUBS: Subtracts the operand from A with saturation. (R212) -/
  | subs (p : Pair)
  /-- MUL: Multiplies A by the operand under the tag rules. (R213) -/
  | mul (p : Pair)
  /-- MACX: Adds X times the operand to A. (R213) -/
  | macx (p : Pair)
  /-- AND: Bitwise AND of A and the operand. (R212) -/
  | and (p : Pair)
  /-- OR: Bitwise OR of A and the operand. (R212) -/
  | or (p : Pair)
  /-- XOR: Bitwise XOR of A and the operand. (R212) -/
  | xor (p : Pair)
  /-- LDX: Loads the operand cell into X. (R212) -/
  | ldx (p : Pair)
  /-- STX: Stores X to the operand cell. (R212) -/
  | stx (p : Pair)
  /-- LDY: Loads the operand cell into Y. (R212) -/
  | ldy (p : Pair)
  /-- STY: Stores Y to the operand cell. (R212) -/
  | sty (p : Pair)
  /-- XCH: Exchanges A and the operand cell in one indivisible access. (R212) -/
  | xch (p : Pair)
  /-- EQ: Branch with delay slot, taken when the operands are equal. (R215) -/
  | eq (p : Pair)
  /-- NE: Branch with delay slot, taken when the operands differ. (R215) -/
  | ne (p : Pair)
  /-- LT: Branch with delay slot, taken when a < b. (R215) -/
  | lt (p : Pair)
  /-- GE: Branch with delay slot, taken when a ≥ b. (R215) -/
  | ge (p : Pair)
  /-- GT: Branch with delay slot, taken when a > b. (R215) -/
  | gt (p : Pair)
  /-- LE: Branch with delay slot, taken when a ≤ b. (R215) -/
  | le (p : Pair)
  /-- TEQ: Branch with delay slot, taken when the tags are equal. (R215) -/
  | teq (p : Pair)
  /-- TNE: Branch with delay slot, taken when the tags differ. (R215) -/
  | tne (p : Pair)
  /-- NOP: Does nothing. (R219) -/
  | nop (p : Pair)
  /-- RET: Pops a CODE cell from the return stack and continues there. (R219) -/
  | ret (p : Pair)
  /-- FRET: Returns from FCALL through the link stack or a spilled LINK cell. (R257) -/
  | fret (p : Pair)
  /-- GRET: Pops the gate frame and returns to the caller's set. (R255) -/
  | gret (p : Pair)
  /-- RFE: Pops a fault or interrupt frame and restores the state, or chains to a pending handler. (R262) -/
  | rfe (p : Pair)
  /-- LOCK: Opens a locked sequence. (R227) -/
  | lock (p : Pair)
  /-- CTL_FENCE: Retires once every earlier store has drained. (R219) -/
  | ctlFence (p : Pair)
  /-- WFE: Waits until an interrupt is pending. (R219) -/
  | wfe (p : Pair)
  /-- PUSHA: Pushes A onto the data stack. (R219) -/
  | pusha (p : Pair)
  /-- POPA: Pops the data stack into A. (R219) -/
  | popa (p : Pair)
  /-- PUSHX: Pushes X onto the data stack. (R219) -/
  | pushx (p : Pair)
  /-- POPX: Pops the data stack into X. (R219) -/
  | popx (p : Pair)
  /-- PUSHY: Pushes Y onto the data stack. (R219) -/
  | pushy (p : Pair)
  /-- POPY: Pops the data stack into Y. (R219) -/
  | popy (p : Pair)
  /-- TAX: Copies A to X under the store rule. (R219) -/
  | tax (p : Pair)
  /-- TXA: Copies X to A under the load rule. (R219) -/
  | txa (p : Pair)
  /-- TAY: Copies A to Y under the store rule. (R219) -/
  | tay (p : Pair)
  /-- TYA: Copies Y to A under the load rule. (R219) -/
  | tya (p : Pair)
  /-- SWXY: Exchanges X and Y. (R219) -/
  | swxy (p : Pair)
  /-- RDSP: Copies DSP to X, tagged ADDR. (R219) -/
  | rdsp (p : Pair)
  /-- WDSP: Sets DSP from X within C2. (R219) -/
  | wdsp (p : Pair)
  /-- RPG: Copies PG to X, tagged UINT. (R219) -/
  | rpg (p : Pair)
  /-- WPG: Sets PG from X. (R219) -/
  | wpg (p : Pair)
  /-- RDTAG: Copies the tag of A to X. (R219) -/
  | rdtag (p : Pair)
  /-- RDTIME: Loads MTIME bits 31:0 into A, tagged TIME. (R219) -/
  | rdtime (p : Pair)
  /-- PFX: Supplies prefix bits that extend the next instruction's field. (R220) -/
  | pfx (p : Pair)
  /-- LDIA: Loads an immediate into A as INT. (R218) -/
  | ldia (p : Pair)
  /-- LDIX: Loads an immediate into X as INT. (R218) -/
  | ldix (p : Pair)
  /-- LDIY: Loads an immediate into Y as INT. (R218) -/
  | ldiy (p : Pair)
  /-- ADDIA: Adds an immediate to A. (R218) -/
  | addia (p : Pair)
  /-- LOOP: Sets up a hardware loop over the following body. (R222) -/
  | loop (p : Pair)
  /-- LEA: Loads the effective address into A, tagged ADDR. (R218) -/
  | lea (p : Pair)
  /-- SC: Stores A conditionally on the reservation and ends the locked sequence. (R227) -/
  | sc (p : Pair)
  /-- PSTORE: Writes A into program memory at X and serialises fetch. (R226) -/
  | pstore (p : Pair)
  /-- JUMP: Continues at PC plus displacement after the delay slot. (R221) -/
  | jump (p : Pair)
  /-- CALL: Pushes the return address and continues at the target. (R221) -/
  | call (p : Pair)
  /-- JUMPX: Continues at X after the delay slot. (R221) -/
  | jumpx (p : Pair)
  /-- CALLX: Pushes the return address and continues at X. (R221) -/
  | callx (p : Pair)
  /-- FCALL: Calls fast entry k, pushing a link entry and switching set. (R256) -/
  | fcall (p : Pair)
  /-- GATE: Calls through a sealed gate capability into another set. (R254) -/
  | gate (p : Pair)
  /-- CLD: Loads a capability quad into Cn of WSET. (R248) -/
  | cld (p : Pair)
  /-- CST: Stores Cn as a capability quad. (R248) -/
  | cst (p : Pair)
  /-- CRANGE: Narrows Cn to the base in X and the length in Y. (R248) -/
  | crange (p : Pair)
  /-- CMASK: Masks the permissions of Cn with A. (R248) -/
  | cmask (p : Pair)
  /-- CCLOSE: Closes Cn under the key in A. (R248) -/
  | cclose (p : Pair)
  /-- COPEN: Opens Cn, closed under the key in A. (R248) -/
  | copen (p : Pair)
  /-- CCLR: Clears Cn of WSET to EMPTY. (R248) -/
  | cclr (p : Pair)
  /-- CINFO: Reads a field of Cn into A. (R248) -/
  | cinfo (p : Pair)
  /-- CMOV: Copies Cs of the active set to Cd of WSET. (R248) -/
  | cmov (p : Pair)
  /-- CAPSW: Switches the active capability set after its shadow word. (R251) -/
  | capsw (p : Pair)
  /-- CTST: Sets X to 1 if Cs is a valid quad. (R248) -/
  | ctst (p : Pair)
  /-- DIV: Starts a long division of A by X. (R223) -/
  | div (p : Pair)
  /-- SQRT: Starts a long square root of A. (R223) -/
  | sqrt (p : Pair)
  /-- SINCOS: Starts a long sine and cosine of the angle in A. (R223) -/
  | sincos (p : Pair)
  /-- ATAN2: Starts a long two-argument arctangent of X. (R223) -/
  | atan2 (p : Pair)
  /-- LONG_RESULT: A long operation completes and writes its pending result registers. (R224) -/
  | longResult (p : Pair)
  /-- RETAG: Changes the tag of a register under the retag rules. (R218) -/
  | retag (p : Pair)
  /-- DSADJ: Adjusts DSP by a signed number of cells within C2. (R218) -/
  | dsadj (p : Pair)
  /-- LDB: Loads a byte into A. (R228) -/
  | ldb (p : Pair)
  /-- LDH: Loads a halfword into A. (R228) -/
  | ldh (p : Pair)
  /-- STB: Stores a byte, keeping the cell's tag. (R286) -/
  | stb (p : Pair)
  /-- STH: Stores a halfword, keeping the cell's tag. (R286) -/
  | sth (p : Pair)
  /-- LDU: Loads a cell at any byte offset. (R287) -/
  | ldu (p : Pair)
  /-- LEGACY_LDA: Conditional legacy load of A. (R230) -/
  | legacyLda (p : Pair)
  /-- LEGACY_STA: Conditional legacy store of A. (R230) -/
  | legacySta (p : Pair)
  /-- LEGACY_ADD: Conditional legacy add. (R230) -/
  | legacyAdd (p : Pair)
  /-- LEGACY_SUB: Conditional legacy subtract. (R230) -/
  | legacySub (p : Pair)
  /-- LEGACY_AND: Conditional legacy AND. (R230) -/
  | legacyAnd (p : Pair)
  /-- LEGACY_OR: Conditional legacy OR. (R230) -/
  | legacyOr (p : Pair)
  /-- LEGACY_XOR: Conditional legacy XOR. (R230) -/
  | legacyXor (p : Pair)
  /-- JMPP: Conditional in-page jump with delay slot. (R230) -/
  | jmpp (p : Pair)
  /-- LOCK_BROKEN: A locked sequence reaching a seventeenth instruction without SC aborts. (R227) -/
  | lockBroken (p : Pair)
  /-- STORE_DRAIN: The oldest store-buffer entry drains to memory. (R238) -/
  | storeDrain (p : Pair)
  /-- INTERRUPT_ENTRY: A latched message of higher priority enters its handler with an eight-cell frame. (R241) -/
  | interruptEntry (p : Pair)
  /-- FAULT_ENTRY: A fault enters the handler set, pushes a frame and records the code. (R258) -/
  | faultEntry (p : Pair)
  /-- CHECKPOINT: The core pair copies its state into its checkpoint store and empties the replay log. (R386) -/
  | checkpoint (p : Pair)
  /-- LOCKSTEP_DIVERGENCE: Unequal compared outputs are discarded, recorded, and raise the LOCKSTEP request and LS_DIV. (R272) -/
  | lockstepDivergence (p : Pair) (mw rw ea : Option DivRec) (mism : Bool)
  /-- RECOVERY_COMPLETE: Replay ends and the slice returns to RUNNING, releasing held events, fences and attaches. (R389) -/
  | recoveryComplete (n : Slice) (stuck differs : Bool)
  /-- ECC_WRITE_BACK: A corrected cell is written back in the next free cycle of its bank. (R281) -/
  | eccWriteBack (a : Nat)
  /-- MEM_MARCH_REQUEST: A write of MEM_MARCH requests a march run, accepted or refused by target and state. (R295) -/
  | memMarchRequest (x : Access) (v : Word)
  /-- MARCH_COMPLETE: A march run ends, its outcome is recorded and MARCH_DONE fires. (R297) -/
  | marchComplete (fails : Nat) (bank : Fin 16) (addr : Word)
  /-- MEMORY_CLEAR_COMPLETE: Clearing of a memory completes, and stalled accesses proceed. (R294) -/
  | memoryClearComplete (t : Fin 14)
  /-- SEC_WIPED: A secure SRAM wipe completes and source 38 fires. (R456) -/
  | secWiped
  /-- MMC_SCRUB: Every PERIOD µs one main-memory burst is read, corrected and written back. (R299) -/
  | mmcScrub
  /-- PAGE_MAP_FILL_COMPLETE: The background fill sets every page-map bit of a channel. (R300) -/
  | pageMapFillComplete (c : Fin 2)
  /-- MMC_CHANNEL_DOWN: A main-memory channel goes down and its range behaves as absent. (R301) -/
  | mmcChannelDown (c : Fin 2)
  /-- LINE_FILTER_CHANGE: A line's filter output takes a new level after N samples and fires under its SENSE. (R305) -/
  | lineFilterChange (src : Fin 1024) (level : Bool)
  /-- EVENT_LATCH: A message is latched in a core pair's pending register after the delivery delay. (R307) -/
  | eventLatch (r : Fin 1088)
  /-- MSIX_ISSUE: An MSI-X write is issued for a message, or its pending bit is set. (R307) -/
  | msixIssue (r : Fin 1088)
  /-- EVR_ACK: A write of EVR_ACK completes an ACTIVE source of the slice pair. (R308) -/
  | evrAck (x : Access) (n : Slice) (src : BitVec 10)
  /-- EVR_SYS_ACK: A write of EVR_SYS_ACK completes an ACTIVE source of the system pair. (R308) -/
  | evrSysAck (x : Access) (src : BitVec 10)
  /-- GROUP_BATCH_CLOSE: A coalescing batch closes on COUNT or TIME and fires the group's route. (R311) -/
  | groupBatchClose (g : Fin 64)
  /-- EVR_TGT_WRITE: A target write copies the target's epoch and clears STALE. (R312) -/
  | evrTgtWrite (x : Access) (t : TgtReg) (v : Word)
  /-- EVENT_TAP: A firing is offered to the SAR, CLE and DMA taps 4 tCK later. (R313) -/
  | eventTap
  /-- ORPHAN_READ: A read of EVR_ORPH1 returns and removes the oldest orphan entry. (R312) -/
  | orphanRead (x : Access)
  /-- DMA_START: A write of DMA_CTRL.START starts the channel's program, or is refused. (R325) -/
  | dmaStart (x : Access) (e : Engine) (c : Fin 16)
  /-- DMA_HALT: A write of HALT stops the channel at the next access boundary. (R325) -/
  | dmaHalt (x : Access) (e : Engine) (c : Fin 16)
  /-- DMA_END: END waits for outstanding writes, sets DONE_F and returns the channel to IDLE. (R323) -/
  | dmaEnd (e : Engine) (c : Fin 16)
  /-- MOVE: Moves a block of cells or bytes between addresses. (R317) -/
  | move (e : Engine) (c : Fin 16)
  /-- DMA_LOOP: Opens a DMA loop body with strides. (R318) -/
  | dmaLoop (e : Engine) (c : Fin 16)
  /-- ENDLOOP: Closes a DMA loop iteration. (R318) -/
  | endloop (e : Engine) (c : Fin 16)
  /-- DMA_WAIT: Waits for the first firing of a source. (R322) -/
  | dmaWait (e : Engine) (c : Fin 16)
  /-- DMA_WAIT_TIMEOUT: TIMEOUT µs without a firing stops the channel with WAIT_TIMEOUT. (R322) -/
  | dmaWaitTimeout (e : Engine) (c : Fin 16)
  /-- DMA_SIGNAL: Waits for outstanding writes and fires the channel's source. (R323) -/
  | dmaSignal (e : Engine) (c : Fin 16)
  /-- SHUFFLE: Interleaves or deinterleaves frames and planes. (R321) -/
  | shuffle (e : Engine) (c : Fin 16)
  /-- DMA_FENCE: Retires when every earlier write of the channel has its response. (R323) -/
  | dmaFence (e : Engine) (c : Fin 16)
  /-- DMA_WRITE_RESPONSE: A write response arrives and frees an outstanding-write slot. (R323) -/
  | dmaWriteResponse (e : Engine) (c : Fin 16)
  /-- LINK_UP: The PCIe link trains and LINK_UP fires, with every function disabled. (R331) -/
  | linkUp (width : Fin 4) (speed : Fin 5)
  /-- LINK_DOWN: Loss of link, PERST#, hot reset or link disable aborts every enabled function. (R332) -/
  | linkDown
  /-- FUNCTION_LEVEL_RESET: An FLR aborts the function and restores its configuration space. (R334) -/
  | functionLevelReset (f : Func)
  /-- BUS_MASTER_ENABLE_CLEAR: Clearing Bus Master Enable aborts the function. (R334) -/
  | busMasterEnableClear (f : Func)
  /-- D3HOT_ENTRY: Entry into D3hot aborts the function. (R334) -/
  | d3hotEntry (f : Func)
  /-- VF_ENABLE_CLEAR: Clearing VF Enable or reducing NumVFs aborts the affected VFs. (R334) -/
  | vfEnableClear (en : Bool) (num : Func)
  /-- COMPLETION_TIMEOUT: A read issued for a function fails by timeout or error, and is reported and counted. (R342) -/
  | completionTimeout (f : Func) (k : LostRead)
  /-- FUNCTION_ENABLE: A write of RNG_CTRL.EN enables the function and initialises its rings, or is refused. (R344) -/
  | functionEnable (x : Access) (f : Func) (twin : Bool)
  /-- FUNCTION_DISABLE: A write of DISABLE stops fetching and quiesces the function. (R346) -/
  | functionDisable (x : Access) (f : Func) (twin : Bool)
  /-- DISABLE_TIMEOUT: A descriptor still in flight 1 ms after DISABLE turns the disable into an abort. (R346) -/
  | disableTimeout (f : Func)
  /-- SQ_TAIL: A doorbell write sets the tail of a submission ring, or is discarded and counted. (R350) -/
  | sqTail (by_ g : Func) (r : Fin 8) (v : Word)
  /-- CQ_HEAD: A doorbell write releases completion entries before the new head. (R350) -/
  | cqHead (by_ g : Func) (r : Fin 8) (v : Word)
  /-- EDGE_RIDX: A doorbell write sets the read index of the HIL edge ring. (R357) -/
  | edgeRidx (by_ g : Func) (v : Word)
  /-- ABORT: A valid ABORT write starts a function abort. (R361) -/
  | abort (by_ g : Func) (v : Word)
  /-- ABORT_COMPLETE: Quiesce completes: in-flight descriptors end ABORTED, the record is written and the epoch increments. (R362) -/
  | abortComplete (f : Func)
  /-- LATE_COMPLETION: A completion of a read issued before the abort is dropped and counted. (R363) -/
  | lateCompletion (f : Func)
  /-- DESCRIPTOR_FETCH: A submission entry's 64 B read completes and the head advances. (R348) -/
  | descriptorFetch (f : Func) (r : Fin 8) (w : Vector Word 16)
  /-- COMPLETION_WRITE: A completion entry is written to its CQ when room exists, with optional MSI-X. (R349) -/
  | completionWrite (f : Func) (q : Fin 8)
  /-- DESC_NOP: NOP descriptor completes at once. (R354) -/
  | descNop (f : Func) (k : Nat)
  /-- DESC_FENCE: FENCE descriptor completes after every earlier descriptor of its ring and their writes. (R358) -/
  | descFence (f : Func) (k : Nat)
  /-- SET_PARAM: Writes up to six registers of an owned slice. (R354) -/
  | setParam (f : Func) (k : Nat)
  /-- SET_REF: Writes a loop's reference. (R354) -/
  | setRef (f : Func) (k : Nat) (coll : Bool)
  /-- LOAD_COEFF: Writes a coefficient bank of a loop. (R354) -/
  | loadCoeff (f : Func) (k : Nat)
  /-- DESC_SWAP_BANK: Issues SWAP_BANK and completes at the boundary where it takes effect. (R354) -/
  | descSwapBank (f : Func) (k : Nat)
  /-- SET_MODE_LOOP: Changes a loop to automatic or manual mode. (R354) -/
  | setModeLoop (f : Func) (k : Nat)
  /-- READ_STATE: Copies a range of slice registers to host memory. (R354) -/
  | readState (f : Func) (k : Nat)
  /-- CAPTURE: Configures and runs an injection, completing at the end of the run. (R354) -/
  | capture (f : Func) (k : Nat)
  /-- TRACE_ARM: Arms or disarms the function's host trace ring. (R354) -/
  | traceArm (f : Func) (k : Nat)
  /-- DMA_XFER: Starts a DMA channel and completes at its END, error or stop. (R354) -/
  | dmaXfer (f : Func) (k : Nat)
  /-- MCODE_LOAD: Loads customer microcode words from host memory and reports the CRC. (R354) -/
  | mcodeLoad (f : Func) (k : Nat)
  /-- FLASH_OP: Runs a flash controller command from PF0. (R425) -/
  | flashOp (f : Func) (k : Nat)
  /-- DESC_MARCH: Requests a march run and completes at its end. (R354) -/
  | descMarch (f : Func) (k : Nat)
  /-- SLICE_FENCE: Fences a slice and completes when it reads FENCED. (R354) -/
  | sliceFence (f : Func) (k : Nat)
  /-- SLICE_RESUME: Optionally restarts, then resumes a slice with optional GO. (R354) -/
  | sliceResume (f : Func) (k : Nat)
  /-- HIL_FEED: Offers HIL sample records to the input feeds. (R355) -/
  | hilFeed (f : Func) (k : Nat)
  /-- EVENT_WAIT: Waits for a tap firing of a source and returns its MTIME. (R354) -/
  | eventWait (f : Func) (k : Nat)
  /-- EVENT_WAIT_TIMEOUT: An EVENT_WAIT without a firing within its timeout completes with BUSY. (R354) -/
  | eventWaitTimeout (f : Func) (k : Nat)
  /-- FRAME_DISCARD: A frame with a bad CRC, wrong length or reserved KIND is discarded and counted. (R367) -/
  | frameDiscard (x : RawFrame)
  /-- SYNC: A SYNC frame on the upstream port updates offset, lock state and announced steps. (R374) -/
  | sync (p : Fin 2) (t tApply : BitVec 64) (step : Word) (frac : Fin 16)
  /-- EVENT: An EVENT frame is forwarded, and matching records fire import sources. (R377) -/
  | event (p : Fin 2) (pos : Fin 32) (seq : BitVec 8) (recs : List PwyRec)
  /-- TOPO: A TOPO frame updates membership and topology, incrementing GEPOCH on change. (R371) -/
  | topo (p : Fin 2) (seq : BitVec 8) (t : PwyTopo)
  /-- DLY_REQ: A delay request is timestamped and answered. (R373) -/
  | dlyReq (p : Fin 2) (t2 t3 : Nat)
  /-- DLY_RESP: A delay response yields the link delay measurement. (R373) -/
  | dlyResp (p : Fin 2) (t1 t2 t3 t4 : Nat)
  /-- SYNC_TRANSMIT: A LOCKED module sends its SYNC on downstream ports each SYNC period. (R368) -/
  | syncTransmit
  /-- TOPO_TRANSMIT: Each member sends a TOPO frame every 100 µs. (R368) -/
  | topoTransmit
  /-- MEMBER_TIMEOUT: A member silent for 300 µs leaves the membership. (R371) -/
  | memberTimeout (pos : Fin 32)
  /-- SYNC_LOSS: No SYNC for four periods clears LOCKED and fires LOCK_LOST. (R372) -/
  | syncLoss
  /-- GROUP_STEP_APPLY: MTIME steps at the cycle in which it equals T_APPLY. (R375) -/
  | groupStepApply
  /-- INAUGURATION: A train inauguration clears train time state and fires INAUG. (R380) -/
  | inauguration
  /-- PTP_LOCK: The PTP client locks and the master adds Δ to PWY_TT_OFS. (R380) -/
  | ptpLock (delta : BitVec 64)
  /-- TT_STEP_ANNOUNCE: While PWY_TT_OFS is non-zero the master announces a bounded group-wide step. (R380) -/
  | ttStepAnnounce (ahead : Nat)
  /-- GROUP_ANNOUNCEMENT: The group master multicasts its announcement every 10 ms. (R378) -/
  | groupAnnouncement
  /-- GROUP_ANNOUNCEMENT_RECEIVE: A received announcement fills PWY_SYS and detects duplicate groups. (R378) -/
  | groupAnnouncementReceive (g : Fin 64) (sender : Nat) (mask : Word)
  /-- PTP_TIME_EVENT: TTIME reaching PWY_TEV fires source 50. (R379) -/
  | ptpTimeEvent
  /-- PORT_DOWN: A Passway port loses its link. (R381) -/
  | portDown (p : Fin 4)
  /-- COMMIT: A received COMMIT record is applied to the standby loop and its target. (R397) -/
  | commit (n : Slice) (j : Fin 16) (x : LoopImage) (k : Streamed Nat)
  /-- CONFIG: A received CONFIG record is applied to the standby's registers. (R396) -/
  | config (n : Slice) (off : Nat) (v : Word) (k : Streamed Nat)
  /-- SNAP: A received SNAP record sets a standby loop's full state toward SYNCED. (R397) -/
  | snap (n : Slice) (j : Fin 16) (x : LoopImage) (k : Streamed Nat)
  /-- HANDOVER: A received HANDOVER record makes the taker take the named slices. (R401) -/
  | handover (mask : BitVec 12) (cause : Streamed (Fin 16))
  /-- TAKE_ACK: A received TAKE_ACK confirms taken slices, and refused ones return to the deposer. (R403) -/
  | takeAck (taken : BitVec 12) (refused : Streamed (BitVec 12))
  /-- STATUS: A received STATUS record updates TWN_PEER. (R399) -/
  | status (synced armed : BitVec 12) (standby : Streamed (BitVec 12))
  /-- STATUS_TRANSMIT: A STATUS record is sent every 100 µs and on role or sync changes. (R396) -/
  | statusTransmit
  /-- TWIN_LINK_LOSS: No twin lane locked for 1 µs sets LINK_DOWN_F and fires LINK_DOWN. (R402) -/
  | twinLinkLoss
  /-- TWIN_LINK_UP: Every fitted twin lane regains symbol lock. (R407) -/
  | twinLinkUp (p : TwinPeer)
  /-- HANDOVER_LINE_ASSERT: A standby asserts TWN_HO_OUT at its side's delay and takes its synced slices. (R402) -/
  | handoverLineAssert
  /-- HANDOVER_LINE_IN: An asserted TWN_HO_IN turns all pins off and deposes the module. (R400) -/
  | handoverLineIn
  /-- TAKEOVER_COMPLETE: One µs after T_H the taken slice reads RUNNING and serves triggers. (R401) -/
  | takeoverComplete (n : Slice)
  /-- TAKE_ACK_TIMEOUT: No TAKE_ACK within 2 µs returns the active role to the deposer. (R403) -/
  | takeAckTimeout
  /-- RELEASE: A write of TWN_CMD.RELEASE deasserts TWN_HO_OUT once the link is trained. (R402) -/
  | release (x : Access) (key : BitVec 16)
  /-- ERASE: Starts erasing a flash block, counting it and setting its erase flag. (R412) -/
  | erase (x : Access) (key : BitVec 16)
  /-- ERASE_COMPLETE: An erase passes verify or fails after fifteen pulses. (R412) -/
  | eraseComplete (e : EraseEnd)
  /-- PROGRAM: Starts programming a page from FLC_PBUF. (R410) -/
  | program (x : Access) (key : BitVec 16)
  /-- PROGRAM_COMPLETE: A page program completes after its verify retries. (R410) -/
  | programComplete (retries : Fin 9)
  /-- SUSPEND: Suspends a running erase. (R413) -/
  | suspend (x : Access) (key : BitVec 16)
  /-- FLASH_RESUME: Resumes a suspended erase at its interrupted pulse. (R413) -/
  | flashResume (x : Access) (key : BitVec 16)
  /-- MARGIN_CHECK: Starts reading a block against the selected margin. (R416) -/
  | marginCheck (x : Access) (key : BitVec 16)
  /-- MARGIN_CHECK_COMPLETE: A margin check ends and reports its failing lines. (R416) -/
  | marginCheckComplete (failing : BitVec 16)
  /-- SET_PW: Stores the staged password for a region. (R420) -/
  | setPw (x : Access) (key : BitVec 16)
  /-- SET_NEXT: Verifies a bank and names it for the next boot and slice fences. (R421) -/
  | setNext (x : Access) (key : BitVec 16)
  /-- FLASH_LOCK: Locks an unlocked protected region. (R420) -/
  | flashLock (x : Access) (key : BitVec 16)
  /-- UNLOCK: Compares the staged password and unlocks the region, or counts a failure. (R420) -/
  | unlock (x : Access) (key : BitVec 16)
  /-- FLC_PW_LO: A write of FLC_PW_LO stages the low password word. (R420) -/
  | flcPwLo (x : Access) (v : Word)
  /-- FLC_PW_HI: A write of FLC_PW_HI completes the password stage. (R420) -/
  | flcPwHi (x : Access) (v : Word)
  /-- AUTO_SUSPEND: A read waiting on an erasing array suspends the erase. (R411) -/
  | autoSuspend (arr : Fin 3)
  /-- AUTO_RESUME: An automatically suspended erase resumes after 100 µs without a waiting read. (R411) -/
  | autoResume (arr : Fin 3)
  /-- FLASH_SCRUB: Every PERIOD seconds one block is margin-checked and rewritten if it decays. (R418) -/
  | flashScrub (decays : Bool)
  /-- SCRUB_REWRITE_COMPLETE: A scrub rewrite through the spare block completes. (R418) -/
  | scrubRewriteComplete (k : Fin 4) (e : StepEnd)
  /-- LOADER_ERASE: The ROM loader erases a block. (R424) -/
  | loaderErase (can : Bool) (arr : Fin 4) (blk : BitVec 8)
  /-- LOADER_WRITE: The ROM loader writes a page. (R424) -/
  | loaderWrite (can : Bool) (arr : Fin 4) (blk page : BitVec 8) (data : Vector Word 64)
  /-- LOADER_CHECK: The ROM loader runs the image check of a bank. (R424) -/
  | loaderCheck (can : Bool) (bank : Fin 2) (id : BitVec 11)
  /-- LOADER_RESTART: The ROM loader starts a cold start. (R424) -/
  | loaderRestart (can : Bool) (t : BootTests)
  /-- INPUT_LOSS: INPUT_OK falls and the module runs on hold-up, firing PWR_FAIL. (R429) -/
  | inputLoss (vin : BitVec 16)
  /-- HOLDUP_LOW: The store reaches its reserve and every slice is disarmed. (R429) -/
  | holdupLow
  /-- HOLDUP_SHUTDOWN: 0.5 ms after HOLDUP_LOW the logic rails leave regulation. (R429) -/
  | holdupShutdown
  /-- INPUT_RESTORED: INPUT_OK rises during hold-up and PWR_RESTORED fires. (R430) -/
  | inputRestored (vin : BitVec 16)
  /-- HOLDUP_READY: The store reaches its energy and HOLDUP_READY reads 1. (R428) -/
  | holdupReady
  /-- OVERVOLTAGE: The input exceeds 154 V and OV is set. (R427) -/
  | overvoltage (vin : BitVec 16)
  /-- EL_FOLDBACK: An EL pin over 50 mA for 50 µs folds back to high impedance. (R433) -/
  | elFoldback (j : Fin 6) (pin : Fin 512)
  /-- EL_FOLDBACK_RETRY: After 100 ms a folded-back pin drives again. (R433) -/
  | elFoldbackRetry (j : Fin 6) (pin : Fin 512)
  /-- CLOCK_LOCK: A requested stopped clock locks and stalled accesses proceed. (R436) -/
  | clockLock (c : Fin 7)
  /-- CLOCK_GLITCH: The core PLL outside ±5 % disarms every slice and is reported as a glitch. (R437) -/
  | clockGlitch
  /-- RTC_ALARM: AON_RTC_SEC reaches AON_ALARM and the alarm line rises. (R447) -/
  | rtcAlarm
  /-- WDG_SERVICE: A write of WDG_SVC with the expected key resets the count. (R442) -/
  | wdgService (x : Access) (e : Engine) (key : BitVec 16)
  /-- WDG_RESTART: A write of the restart key clears EXPIRED and restarts counting. (R443) -/
  | wdgRestart (x : Access) (e : Engine) (coll : Bool)
  /-- WDG_EXPIRE: The count reaching PERIOD is a violation and sets EXPIRED. (R441) -/
  | wdgExpire (e : Engine)
  /-- SET_MINVER: Raises SEC_MINVER to the running image's version. (R452) -/
  | setMinver (x : Access) (key : BitVec 16)
  /-- WRITE_KEY: Writes a staged key digest into a key slot once. (R449) -/
  | writeKey (x : Access) (key : BitVec 16) (slot : Fin 4)
  /-- REVOKE: Sets REVOKED on a key slot. (R449) -/
  | revoke (x : Access) (key : BitVec 16) (slot : Fin 4)
  /-- LC_TRANSITION_REQUEST: A write of SEC_LC_REQ is accepted or refused as a life-cycle transition. (R454) -/
  | lcTransitionRequest (x : Access) (v : Word)
  /-- LC_STATE_WRITE: The new life-cycle state is written to the one-time cells and a cold start follows. (R455) -/
  | lcStateWrite
  /-- TAMPER: A tamper detection wipes secure SRAM and records the event. (R456) -/
  | tamper (b : Fin 5)
  /-- MBX_GO: A write of MBX_GO submits a Colbel message through the PF0 mailbox. (R460) -/
  | mbxGo (by_ : Func) (v : Word)
  /-- UDP_DATAGRAM: A Colbel message arrives in a UDP datagram. (R460) -/
  | udpDatagram (len : Nat)
  /-- CANFD_SEGMENT: A CAN FD segment of a Colbel message arrives. (R460) -/
  | canfdSegment (c : Fin 2) (h : SegHead) (i : BitVec 6)
  /-- CANFD_MESSAGE_TIMEOUT: A CAN FD message lacking its LAST segment within 100 ms is discarded. (R460) -/
  | canfdMessageTimeout (c : Fin 2)
  /-- HELLO: A HELLO message sets up a session with HELLO_RSP and derived keys. (R462) -/
  | hello (m : HelloMsg)
  /-- AUTH: An AUTH request names an authority and is answered with a challenge. (R463) -/
  | auth (q : ColbelReq) (test : Bool)
  /-- AUTH_SIGNATURE: The client's signature over the challenge grants or refuses the authority. (R463) -/
  | authSignature (q : ColbelReq) (sig : Bool) (slot : Option (Fin 4))
  /-- AUTH_LOCKOUT_END: Ten seconds after three refusals, the transport serves HELLO again. (R463) -/
  | authLockoutEnd (t : Fin 3)
  /-- CLOSE: A CLOSE message ends the session and releases its pairs and enables. (R465) -/
  | close (k : SessMsg)
  /-- SESSION_TIMEOUT: A session with no valid request for 10 s ends. (R465) -/
  | sessionTimeout (k : Fin 4)
  /-- INFO: Returns the module's identity and state. (R466) -/
  | info (q : ColbelReq)
  /-- ATTACH: Attaches a session to a slice pair and suspends its comparator. (R278) -/
  | attach (q : ColbelReq) (n : Pair)
  /-- DETACH: Resumes and detaches a slice pair. (R466) -/
  | detach (q : ColbelReq) (n : Pair)
  /-- HALT: Requests a halt of an attached pair. (R468) -/
  | halt (q : ColbelReq) (n : Pair)
  /-- HALT_TAKES_EFFECT: The pair halts at the first allowed instruction boundary. (R468) -/
  | haltTakesEffect (n : Slice)
  /-- COLBEL_RESUME: Resumes a halted pair and restarts its watchdog count. (R444) -/
  | colbelResume (q : ColbelReq) (n : Pair)
  /-- STEP: Executes a number of indivisible instruction groups on a halted pair. (R469) -/
  | step (q : ColbelReq) (n : Pair) (count : BitVec 16) (irq : Bool)
  /-- READ_CORE: Returns a core register with its tag. (R466) -/
  | readCore (q : ColbelReq) (n : Pair) (g : CoreReg)
  /-- WRITE_CORE: Writes a register of both cores of a halted pair. (R469) -/
  | writeCore (q : ColbelReq) (n : Pair) (g : CoreReg) (v : BitVec 40) (tag : BitVec 4)
  /-- SET_BP: Sets an instruction breakpoint. (R470) -/
  | setBp (q : ColbelReq) (n : Pair) (i : Fin 4) (pc : BitVec 17) (sets : BitVec 8) (en : Bool)
  /-- SET_WP: Sets a data watchpoint. (R470) -/
  | setWp (q : ColbelReq) (n : Pair) (i : Fin 2) (base : Word) (len : Nat) (rd wr : Bool) (value : Option Word)
  /-- BREAKPOINT_HIT: An instruction at a breakpoint halts the pair before it issues. (R470) -/
  | breakpointHit (n : Slice)
  /-- WATCHPOINT_HIT: A matching data access halts the pair after it retires. (R470) -/
  | watchpointHit (n : Slice)
  /-- READ_MEM: Reads cells through the session capability with inspect reads. (R467) -/
  | readMem (q : ColbelReq) (a : Word) (k : Nat)
  /-- WRITE_MEM: Writes cells through the session capability. (R467) -/
  | writeMem (q : ColbelReq) (a : Word) (cs : List Cell)
  /-- TEST_OUT: Enables channels of a slice to switch in SERVICE mode. (R471) -/
  | testOut (q : ColbelReq) (n : Pair) (mask : BitVec 8)
  /-- TRACE_CFG: Writes a slice's STP_CTRL and STP_EN. (R475) -/
  | traceCfg (q : ColbelReq) (n : Pair) (ctrl en : Word)
  /-- TOKEN: Delivers the RETURNED token. (R454) -/
  | token (q : ColbelReq) (valid : Bool)
  /-- KEEPALIVE: Keeps a session from timing out. (R465) -/
  | keepalive (q : ColbelReq)
  /-- TRACE_POST_STORE: A store to a trace post produces a packet or is counted as filtered. (R472) -/
  | tracePostStore (x : Access) (e : Engine) (p : Fin 24) (c : Cell)
  /-- TRACE_MERGE: Every 6 tCK the merger takes one queued packet to its destination. (R474) -/
  | traceMerge
  /-- TRACE_SESSION_SEND: Queued packets are sent to their session in a SEALED message at least every 10 ms. (R475) -/
  | traceSessionSend (k : Fin 4)
  /-- PTB_ENABLE: A write of PTB_CTRL.EN starts or stops the unit's perturbations. (R476) -/
  | ptbEnable (x : Access) (e : Engine) (v : Word)
  /-- READ_CLEARS: A read of an RC field returns its value and clears it, keeping an increment that falls in the same cycle. (R9) -/
  | readClears (x : Access) (a : BusAddr)
  /-- APERTURE_WRITE: A host write through the Plain or main-memory aperture keeps or sets the cell tag, discards writes to CAP cells and follows R286 for narrow writes. (R288) -/
  | apertureWrite (f : Func) (w : HostWindow) (off : BitVec 28) (be : BitVec 4) (v : Word)
  /-- HOST_READ_COMPLETION: A completion for a host read that a descriptor issued (MCODE_LOAD, HIL_FEED, FLASH_OP) arrives and its data is used. (R342) -/
  | hostReadCompletion (f : Func) (k : Nat) (ws : List Word)
  /-- CONFIGURATION_REQUEST: A PCIe configuration write sets Bus Master Enable, VF Enable and NumVFs, MSI-X Enable or Function Mask, or D0, so VFs come to exist and held MSI-X messages are issued. (R343) -/
  | configurationRequest (f : Func) (c : CfgSet)
  /-- TWN_HO_IN_DEASSERTED: TWN_HO_IN falls, ending DEPOSED and the TWIN_HO trip request on the deposed module. (R402) -/
  | twnHoInDeasserted
  /-- PORT_UP: A Passway group port gains its link, PORT_UP is set and the group topology can re-form from line to ring. (R371) -/
  | portUp (p : Fin 4)
  /-- ECN_LINK_CHANGE: An ECN Ethernet link comes up or goes down, changing TT_CAPABLE and the time-master election. (R372) -/
  | ecnLinkChange (l : Fin 2) (up : Bool)
  /-- HEALTHY_CHG: One millisecond after the last dropped twin record, HEALTHY returns to 1 and source 978 fires. (R399) -/
  | healthyChg
  /-- XTAL_OK_CHANGE: The 32.768 kHz crystal starts or stops oscillating, XTAL_OK changes and the RTC switches its source. (R435) -/
  | xtalOkChange (ok : Bool)
  /-- TEMPERATURE_UPDATE: Every 10 ms PWR_TEMP is updated, and HOT and HOT_F are set while the baseplate exceeds +90 °C. (R493) -/
  | temperatureUpdate (base die : BitVec 8)
  deriving DecidableEq, Repr

end Sys2Proof
end

