-- ==== Sys2Proof/Machine/RegTable.lean ====
section
/-! DEFINITION. The register map of the module: the internal byte address of every register (`R.<NAME>`), every bit
field of the register descriptions (`F.<REGISTER>_<FIELD>`), and one `RegDesc` row per register with its reset value
and the masks of its access codes (R9). The rows follow the register tables of spec/02 to spec/29 column by column. -/

namespace Sys2Proof
namespace Machine

/-- A bit field of a register: its lowest bit and its width. -/
structure Fld where
  lo : Nat
  width : Nat
  deriving DecidableEq, Repr

/-- One register description: the offset of its first instance from the unit base, the strides and counts of its
indices, its reset value and the masks of its access codes (R9). Bits in no mask are RO or RSV. -/
structure RegDesc where
  off : Nat
  s1 : Nat
  n1 : Nat
  s2 : Nat
  n2 : Nat
  reset : Word
  rw : Word
  w1c : Word
  rc : Word
  w1s : Word
  wo : Word
  deriving DecidableEq, Repr

/-- Base of the register block of slice n (R12). -/
def sliceBase (n : Nat) : Nat := 0x02000000 + n * 0x00100000
/-- Base of PWM channel k of slice n (R42). -/
def pwmBase (n k : Nat) : Nat := 0x02001000 + n * 0x00100000 + k * 0x100
/-- KC block of the system pair: the spec gives its register block no address, and the model lays it out as that of a slice 12
(DESIGN CHOICE, log 11). -/
def sysKcBase : Nat := 0x02C0A000
/-- Model keys of the program memories, 0x80000 for each slice and four for each word: the spec gives the owner's write of R55 no
address (DESIGN CHOICE, log 168). -/
def progBase : Nat := 0x210000000
/-- Base of the KC block of pair p: slice p for p < 12, the system pair for 12 (chapter 15). -/
def kcBase (p : Nat) : Nat := if p < 12 then sliceBase p + 0xA000 else sysKcBase
/-- Base of DMA engine e: slice e for e < 12, the system engine for 12 (R315). -/
def dmaBase (e : Nat) : Nat := if e < 12 then sliceBase e + 0x8000 else 0x01080000
/-- Base of watchdog e: slice e for e < 12, the system pair's for 12 (R446, R448). -/
def wdgBase (e : Nat) : Nat := if e < 12 then sliceBase e + 0xD000 else 0x010F0000
/-- Base of perturbation unit e: slice e for e < 12, the system unit for 12 (chapter 28). -/
def ptbBase (e : Nat) : Nat := if e < 12 then sliceBase e + 0xC000 else 0x01130000
/-- Model key of the page of function f, which lies at BAR0 offset 0x0F00_0000 of that function (R338, log 12). -/
def fnBase (f : Nat) : Nat := 0x100000000 + f * 0x10000
/-- Model key of the doorbell page of function f (R350, log 12). -/
def dbBase (f : Nat) : Nat := 0x100008000 + f * 0x10000

namespace R

/-! DEV registers. -/
def DEV_MODE : Nat := 0x01000000 + 0x8
def DEV_MODE_REQ : Nat := 0x01000000 + 0xC
def DEV_ARM : Nat := 0x01000000 + 0x10
def DEV_DISARM : Nat := 0x01000000 + 0x14
def DEV_ARM_REJ : Nat := 0x01000000 + 0x18
def DEV_BOOT_STAT : Nat := 0x01000000 + 0x1C
def DEV_ID : Nat := 0x01000000 + 0x0
def DEV_VARIANT : Nat := 0x01000000 + 0x4
def DEV_SLC_FITTED : Nat := 0x01000000 + 0x20
def DEV_SLC_ASSIGN (i : Nat) : Nat := 0x01000000 + 0x40 + i * 0x4
/-! SLC registers. -/
def SLC_ID (n : Nat) : Nat := sliceBase n + 0x0
def SLC_STATE (n : Nat) : Nat := sliceBase n + 0x4
def SLC_CAPS (n : Nat) : Nat := sliceBase n + 0x8
def SLC_CMD (n : Nat) : Nat := sliceBase n + 0xC
def SLC_CMD_STAT (n : Nat) : Nat := sliceBase n + 0x10
def SLC_ARM (n : Nat) : Nat := sliceBase n + 0x14
def SLC_FAULT (n : Nat) : Nat := sliceBase n + 0x18
def SLC_OWNER (n : Nat) : Nat := sliceBase n + 0x1C
def SLC_TRIP (n : Nat) : Nat := sliceBase n + 0x20
def SLC_CFG_REJ (n : Nat) : Nat := sliceBase n + 0x24
def SLC_TRIPIN (n i : Nat) : Nat := sliceBase n + 0x100 + i * 0x4
def SLC_CAPCFG (n i : Nat) : Nat := sliceBase n + 0x140 + i * 0x10
def SLC_CAPTS (n i : Nat) : Nat := sliceBase n + 0x144 + i * 0x10
def SLC_CAPSTAT (n i : Nat) : Nat := sliceBase n + 0x148 + i * 0x10
def SLC_ENC (n : Nat) : Nat := sliceBase n + 0x180
def SLC_ENC_POS (n : Nat) : Nat := sliceBase n + 0x184
def SLC_REC_STAT (n : Nat) : Nat := sliceBase n + 0x1C0
def SLC_REC_CNT (n : Nat) : Nat := sliceBase n + 0x1C4
/-! GRG registers. -/
def GRG_STATE (n : Nat) : Nat := (sliceBase n + 0x3000) + 0x0
def GRG_RAW (n : Nat) : Nat := (sliceBase n + 0x3000) + 0x4
def GRG_CAPSEL (n : Nat) : Nat := (sliceBase n + 0x3000) + 0x8
def GRG_ARM_REJ (n : Nat) : Nat := (sliceBase n + 0x3000) + 0xC
def GRG_TEST_REJ (n : Nat) : Nat := (sliceBase n + 0x3000) + 0x10
def GRG_CFG_REJ (n : Nat) : Nat := (sliceBase n + 0x3000) + 0x14
def GRG_IN (n i : Nat) : Nat := (sliceBase n + 0x3000) + 0x100 + i * 0x20
def GRG_THR (n i : Nat) : Nat := (sliceBase n + 0x3000) + 0x104 + i * 0x20
def GRG_WCFG (n i : Nat) : Nat := (sliceBase n + 0x3000) + 0x108 + i * 0x20
def GRG_TEST (n i : Nat) : Nat := (sliceBase n + 0x3000) + 0x10C + i * 0x20
def GRG_WSTAT (n i : Nat) : Nat := (sliceBase n + 0x3000) + 0x110 + i * 0x20
def GRG_TRANS (n i : Nat) : Nat := (sliceBase n + 0x3000) + 0x114 + i * 0x20
/-! SAR registers. -/
def SAR_CTRL (n : Nat) : Nat := (sliceBase n + 0x2000) + 0x0
def SAR_CFG_REJ (n : Nat) : Nat := (sliceBase n + 0x2000) + 0x4
def SAR_TRIG (n i : Nat) : Nat := (sliceBase n + 0x2000) + 0x100 + i * 0x40
def SAR_PP (n i : Nat) : Nat := (sliceBase n + 0x2000) + 0x104 + i * 0x40
def SAR_MBUF (n i : Nat) : Nat := (sliceBase n + 0x2000) + 0x108 + i * 0x40
def SAR_MIDX (n i : Nat) : Nat := (sliceBase n + 0x2000) + 0x10C + i * 0x40
def SAR_ENT (n i j : Nat) : Nat := (sliceBase n + 0x2000) + 0x110 + i * 0x40 + j * 0x4
def SAR_SWTRIG (n i : Nat) : Nat := (sliceBase n + 0x2000) + 0x11C + i * 0x40
def SAR_STAT (n i : Nat) : Nat := (sliceBase n + 0x2000) + 0x120 + i * 0x40
def SAR_OVR (n i : Nat) : Nat := (sliceBase n + 0x2000) + 0x124 + i * 0x40
def SAR_RES (n i j : Nat) : Nat := (sliceBase n + 0x2000) + 0x128 + i * 0x40 + j * 0x4
def SAR_CAL (n i : Nat) : Nat := (sliceBase n + 0x2000) + 0x200 + i * 0x8
def SAR_HIL (n i : Nat) : Nat := (sliceBase n + 0x2000) + 0x204 + i * 0x8
/-! CLE registers. -/
def CLE_STAT (n : Nat) : Nat := (sliceBase n + 0x4000) + 0x0
def CLE_SWTRIG (n : Nat) : Nat := (sliceBase n + 0x4000) + 0x4
def CLE_CMD (n : Nat) : Nat := (sliceBase n + 0x4000) + 0x8
def CLE_CMD_STAT (n : Nat) : Nat := (sliceBase n + 0x4000) + 0xC
def CLE_CFG_REJ (n : Nat) : Nat := (sliceBase n + 0x4000) + 0x10
def CLE_WRCOLL (n : Nat) : Nat := (sliceBase n + 0x4000) + 0x14
def CLE_MISMATCH (n : Nat) : Nat := (sliceBase n + 0x4000) + 0x18
def CLE_LCTRL (n i : Nat) : Nat := (sliceBase n + 0x4000) + 0x100 + i * 0x40
def CLE_LSTAT (n i : Nat) : Nat := (sliceBase n + 0x4000) + 0x104 + i * 0x40
def CLE_TGT (n i : Nat) : Nat := (sliceBase n + 0x4000) + 0x108 + i * 0x40
def CLE_REF (n i : Nat) : Nat := (sliceBase n + 0x4000) + 0x10C + i * 0x40
def CLE_IN (n i : Nat) : Nat := (sliceBase n + 0x4000) + 0x110 + i * 0x40
def CLE_OUT (n i : Nat) : Nat := (sliceBase n + 0x4000) + 0x114 + i * 0x40
def CLE_CLAMP (n i : Nat) : Nat := (sliceBase n + 0x4000) + 0x118 + i * 0x40
def CLE_MAN (n i : Nat) : Nat := (sliceBase n + 0x4000) + 0x11C + i * 0x40
def CLE_CB0 (n i j : Nat) : Nat := (sliceBase n + 0x4000) + 0x120 + i * 0x40 + j * 0x10
def CLE_CB1 (n i j : Nat) : Nat := (sliceBase n + 0x4000) + 0x124 + i * 0x40 + j * 0x10
def CLE_CB2 (n i j : Nat) : Nat := (sliceBase n + 0x4000) + 0x128 + i * 0x40 + j * 0x10
def CLE_CB3 (n i j : Nat) : Nat := (sliceBase n + 0x4000) + 0x12C + i * 0x40 + j * 0x10
def CLE_H0 (n i : Nat) : Nat := (sliceBase n + 0x4000) + 0x800 + i * 0x10
def CLE_H1 (n i : Nat) : Nat := (sliceBase n + 0x4000) + 0x804 + i * 0x10
def CLE_H2 (n i : Nat) : Nat := (sliceBase n + 0x4000) + 0x808 + i * 0x10
def CLE_OVR (n i : Nat) : Nat := (sliceBase n + 0x4000) + 0x80C + i * 0x10
/-! MCS registers. -/
def MCS_CTRL (n : Nat) : Nat := (sliceBase n + 0x4C00) + 0x0
def MCS_STAT (n : Nat) : Nat := (sliceBase n + 0x4C00) + 0x4
def MCS_VER (n : Nat) : Nat := (sliceBase n + 0x4C00) + 0x8
def MCS_LD_STAT (n : Nat) : Nat := (sliceBase n + 0x4C00) + 0xC
def MCS_LD_REJ (n : Nat) : Nat := (sliceBase n + 0x4C00) + 0x10
def MCS_LD_CRC (n : Nat) : Nat := (sliceBase n + 0x4C00) + 0x14
def MCS_PARITY (n : Nat) : Nat := (sliceBase n + 0x4C00) + 0x18
def MCS_SCAN_REP (n : Nat) : Nat := (sliceBase n + 0x4C00) + 0x1C
def MCS_RERR (n : Nat) : Nat := (sliceBase n + 0x4C00) + 0x20
def MCS_RERR_CNT (n : Nat) : Nat := (sliceBase n + 0x4C00) + 0x24
def MCS_DWR (n : Nat) : Nat := (sliceBase n + 0x4C00) + 0x28
def MCS_XCFG (n : Nat) : Nat := (sliceBase n + 0x4C00) + 0x2C
def MCS_XSTAT (n : Nat) : Nat := (sliceBase n + 0x4C00) + 0x30
def MCS_XT (n i : Nat) : Nat := (sliceBase n + 0x4C00) + 0x200 + i * 0x4
/-! PWM registers. -/
def PWM_CTRL (n k : Nat) : Nat := pwmBase n k + 0x0
def PWM_PER (n k : Nat) : Nat := pwmBase n k + 0x4
def PWM_CMP (n k : Nat) : Nat := pwmBase n k + 0x8
def PWM_DT (n k : Nat) : Nat := pwmBase n k + 0xC
def PWM_PHASE (n k : Nat) : Nat := pwmBase n k + 0x10
def PWM_EVCFG (n k : Nat) : Nat := pwmBase n k + 0x14
def PWM_CNT (n k : Nat) : Nat := pwmBase n k + 0x18
def PWM_ACT_PER (n k : Nat) : Nat := pwmBase n k + 0x1C
def PWM_ACT_CMP (n k : Nat) : Nat := pwmBase n k + 0x20
def PWM_ACT_DT (n k : Nat) : Nat := pwmBase n k + 0x24
def PWM_STAT (n k : Nat) : Nat := pwmBase n k + 0x28
def PWM_WRCOLL (n k : Nat) : Nat := pwmBase n k + 0x2C
def PWM_SWALLOW (n k : Nat) : Nat := pwmBase n k + 0x30
def PWM_SYNCCORR (n k : Nat) : Nat := pwmBase n k + 0x34
def PWM_CFG_REJ (n k : Nat) : Nat := pwmBase n k + 0x38
def PWM_TRIP_EN (n k : Nat) : Nat := pwmBase n k + 0x80
def PWM_TRIP_CFG (n k : Nat) : Nat := pwmBase n k + 0x84
def PWM_TRIP_CMD (n k : Nat) : Nat := pwmBase n k + 0x88
def PWM_TRIP_STAT (n k : Nat) : Nat := pwmBase n k + 0x8C
def PWM_TRIP_SRC (n k : Nat) : Nat := pwmBase n k + 0x90
def PWM_TRIP_TIME (n k : Nat) : Nat := pwmBase n k + 0x94
def PWM_TRIP_CNT (n k : Nat) : Nat := pwmBase n k + 0x98
def PWM_TRIP_REJ (n k : Nat) : Nat := pwmBase n k + 0x9C
/-! INJ registers. -/
def INJ_CTRL (n : Nat) : Nat := (sliceBase n + 0xB000) + 0x0
def INJ_SIG (n : Nat) : Nat := (sliceBase n + 0xB000) + 0x4
def INJ_FREQ (n : Nat) : Nat := (sliceBase n + 0xB000) + 0x8
def INJ_FEND (n : Nat) : Nat := (sliceBase n + 0xB000) + 0xC
def INJ_RATE (n : Nat) : Nat := (sliceBase n + 0xB000) + 0x10
def INJ_CAP (n : Nat) : Nat := (sliceBase n + 0xB000) + 0x14
def INJ_CORR (n : Nat) : Nat := (sliceBase n + 0xB000) + 0x18
def INJ_STAT (n : Nat) : Nat := (sliceBase n + 0xB000) + 0x1C
def INJ_CIDX (n : Nat) : Nat := (sliceBase n + 0xB000) + 0x20
def INJ_REJ (n : Nat) : Nat := (sliceBase n + 0xB000) + 0x24
def INJ_CAP_OVR (n : Nat) : Nat := (sliceBase n + 0xB000) + 0x28
def INJ_ACC_LO (n i : Nat) : Nat := (sliceBase n + 0xB000) + 0x40 + i * 0x8
def INJ_ACC_HI (n i : Nat) : Nat := (sliceBase n + 0xB000) + 0x44 + i * 0x8
def INJ_LIM (n i : Nat) : Nat := (sliceBase n + 0xB000) + 0x80 + i * 0x4
/-! MAD registers. -/
def MAD_CTRL : Nat := 0x01040000 + 0x0
def MAD_STAT : Nat := 0x01040000 + 0x4
def MAD_SCAN : Nat := 0x01040000 + 0x8
def MAD_PERIOD : Nat := 0x01040000 + 0xC
def MAD_BUF : Nat := 0x01040000 + 0x10
def MAD_WIDX : Nat := 0x01040000 + 0x14
def MAD_RIDX : Nat := 0x01040000 + 0x18
def MAD_WMARK : Nat := 0x01040000 + 0x1C
def MAD_URG : Nat := 0x01040000 + 0x20
def MAD_URG_RES : Nat := 0x01040000 + 0x24
def MAD_URG_STAT : Nat := 0x01040000 + 0x28
def MAD_BUF_OVR : Nat := 0x01040000 + 0x2C
def MAD_CFG_REJ : Nat := 0x01040000 + 0x30
def MAD_OFFS (i : Nat) : Nat := 0x01040000 + 0x100 + i * 0x8
def MAD_GAIN (i : Nat) : Nat := 0x01040000 + 0x104 + i * 0x8
def MAD_LAST (i : Nat) : Nat := 0x01040000 + 0x200 + i * 0x4
/-! KC registers. -/
def KC_VEC (p : Nat) : Nat := kcBase p + 0x100
def KC_CSEL (p : Nat) : Nat := kcBase p + 0x104
def KC_FAULT (p : Nat) : Nat := kcBase p + 0x108
def KC_FADDR (p : Nat) : Nat := kcBase p + 0x10C
def KC_FPC (p : Nat) : Nat := kcBase p + 0x110
def KC_LINK (p : Nat) : Nat := kcBase p + 0x114
def KC_CSET (p i : Nat) : Nat := kcBase p + 0x120 + i * 0x4
def KC_FPE (p i : Nat) : Nat := kcBase p + 0x140 + i * 0x4
def KC_KEYS (p i : Nat) : Nat := kcBase p + 0x160 + i * 0x4
def KC_LS_STAT (p : Nat) : Nat := kcBase p + 0x0
def KC_LS_DIV (p : Nat) : Nat := kcBase p + 0x4
def KC_LS_LAST (p : Nat) : Nat := kcBase p + 0x8
def KC_LS_ADDR (p : Nat) : Nat := kcBase p + 0xC
def KC_LS_XOR (p : Nat) : Nat := kcBase p + 0x10
def KC_LS_INJ (p : Nat) : Nat := kcBase p + 0x14
/-! MEM registers. -/
def MEM_STAT : Nat := 0x01050000 + 0x0
def MEM_RET : Nat := 0x01050000 + 0x4
def MEM_MARCH : Nat := 0x01050000 + 0x8
def MEM_MARCH_STAT : Nat := 0x01050000 + 0xC
def MEM_MARCH_FADDR : Nat := 0x01050000 + 0x10
def MEM_UE_ADDR : Nat := 0x01050000 + 0x14
def MEM_ECC_CNT : Nat := 0x01050000 + 0x18
def MEM_CONF (i j : Nat) : Nat := 0x01050000 + 0x100 + i * 0x20 + j * 0x4
def MEM_SLC_ECC (i : Nat) : Nat := 0x01050000 + 0x114 + i * 0x20
/-! MMC registers. -/
def MMC_STAT : Nat := 0x01060000 + 0x0
def MMC_SCRUB : Nat := 0x01060000 + 0x4
def MMC_CFG : Nat := 0x01060000 + 0x8
def MMC_ECC (i : Nat) : Nat := 0x01060000 + 0x10 + i * 0x10
def MMC_UE_ADDR (i : Nat) : Nat := 0x01060000 + 0x14 + i * 0x10
def MMC_SCRUB_POS (i : Nat) : Nat := 0x01060000 + 0x18 + i * 0x10
def MMC_SCRUB_CNT (i : Nat) : Nat := 0x01060000 + 0x1C + i * 0x10
/-! EVR registers. -/
def EVR_STAT : Nat := 0x01070000 + 0x0
def EVR_CFG_REJ : Nat := 0x01070000 + 0x4
def EVR_MERGED : Nat := 0x01070000 + 0x8
def EVR_BADACK : Nat := 0x01070000 + 0xC
def EVR_SYS_ACK : Nat := 0x01070000 + 0x10
def EVR_ORPH_OVF : Nat := 0x01070000 + 0x14
def EVR_ORPH0 : Nat := 0x01070000 + 0x18
def EVR_ORPH1 : Nat := 0x01070000 + 0x1C
def EVR_PEND (i : Nat) : Nat := 0x01070000 + 0x100 + i * 0x4
def EVR_ACT (i : Nat) : Nat := 0x01070000 + 0x180 + i * 0x4
def EVR_SRC (i : Nat) : Nat := 0x01070000 + 0x1000 + i * 0x8
def EVR_TGT (i : Nat) : Nat := 0x01070000 + 0x1004 + i * 0x8
def EVR_GCFG (i : Nat) : Nat := 0x01070000 + 0x3000 + i * 0x10
def EVR_GTGT (i : Nat) : Nat := 0x01070000 + 0x3004 + i * 0x10
def EVR_GSTAT (i : Nat) : Nat := 0x01070000 + 0x3008 + i * 0x10
/-! slice EVR registers. -/
def EVR_LSRC (n i : Nat) : Nat := (sliceBase n + 0x9000) + 0x0 + i * 0x8
def EVR_LTGT (n i : Nat) : Nat := (sliceBase n + 0x9000) + 0x4 + i * 0x8
def EVR_ACK (n : Nat) : Nat := (sliceBase n + 0x9000) + 0x300
def EVR_LSTAT (n : Nat) : Nat := (sliceBase n + 0x9000) + 0x304
def EVR_LORPH (n : Nat) : Nat := (sliceBase n + 0x9000) + 0x308
/-! DMA registers. -/
def DMA_CFG_REJ (e : Nat) : Nat := dmaBase e + 0x0
def DMA_CTRL (e i : Nat) : Nat := dmaBase e + 0x100 + i * 0x40
def DMA_PROG (e i : Nat) : Nat := dmaBase e + 0x104 + i * 0x40
def DMA_STAT (e i : Nat) : Nat := dmaBase e + 0x108 + i * 0x40
def DMA_PC (e i : Nat) : Nat := dmaBase e + 0x10C + i * 0x40
def DMA_ERR_ADDR (e i : Nat) : Nat := dmaBase e + 0x110 + i * 0x40
def DMA_BYTES (e i : Nat) : Nat := dmaBase e + 0x114 + i * 0x40
/-! function page registers. -/
def HIF_FN_ID (f : Nat) : Nat := fnBase f + 0x0
def HIF_FN_STAT (f : Nat) : Nat := fnBase f + 0x4
def HIF_FN_OWNED (f : Nat) : Nat := fnBase f + 0x8
def HIF_FN_PWIN (f : Nat) : Nat := fnBase f + 0xC
def HIF_FN_MWIN (f : Nat) : Nat := fnBase f + 0x10
def HIF_FN_ERR (f : Nat) : Nat := fnBase f + 0x14
def HIF_FN_LINK (f : Nat) : Nat := fnBase f + 0x18
def RNG_CTRL (f : Nat) : Nat := fnBase f + 0x100
def RNG_STAT (f : Nat) : Nat := fnBase f + 0x104
def RNG_DB_DROPPED (f : Nat) : Nat := fnBase f + 0x108
def RNG_LATE_CPL (f : Nat) : Nat := fnBase f + 0x10C
def RNG_EDGE_LO (f : Nat) : Nat := fnBase f + 0x110
def RNG_EDGE_HI (f : Nat) : Nat := fnBase f + 0x114
def RNG_EDGE_CFG (f : Nat) : Nat := fnBase f + 0x118
def RNG_EDGE_STAT (f : Nat) : Nat := fnBase f + 0x11C
def RNG_SQ_LO (f i : Nat) : Nat := fnBase f + 0x200 + i * 0x20
def RNG_SQ_HI (f i : Nat) : Nat := fnBase f + 0x204 + i * 0x20
def RNG_SQ_CFG (f i : Nat) : Nat := fnBase f + 0x208 + i * 0x20
def RNG_SQ_HEAD (f i : Nat) : Nat := fnBase f + 0x20C + i * 0x20
def RNG_CQ_LO (f i : Nat) : Nat := fnBase f + 0x210 + i * 0x20
def RNG_CQ_HI (f i : Nat) : Nat := fnBase f + 0x214 + i * 0x20
def RNG_CQ_CFG (f i : Nat) : Nat := fnBase f + 0x218 + i * 0x20
def RNG_CQ_TAIL (f i : Nat) : Nat := fnBase f + 0x21C + i * 0x20
/-! HIF registers. -/
def HIF_BADACC : Nat := 0x01090000 + 0x0
def HIF_LINK : Nat := 0x01090000 + 0x4
def HIF_LINK_CFG : Nat := 0x01090000 + 0x8
def HIF_FNCFG_PWIN (i : Nat) : Nat := 0x01090000 + 0x100 + i * 0x8
def HIF_FNCFG_MWIN (i : Nat) : Nat := 0x01090000 + 0x104 + i * 0x8
/-! doorbell page registers. -/
def ABT_STAT (f : Nat) : Nat := dbBase f + 0x100
def ABT_COUNT (f : Nat) : Nat := dbBase f + 0x104
def ABT_UNREP (f : Nat) : Nat := dbBase f + 0x108
def ABT_TIME (f : Nat) : Nat := dbBase f + 0x10C
def ABT_SLICES (f : Nat) : Nat := dbBase f + 0x110
/-! PWY registers. -/
def PWY_CFG : Nat := 0x010A0000 + 0x0
def PWY_ID : Nat := 0x010A0000 + 0x4
def PWY_STAT : Nat := 0x010A0000 + 0x8
def PWY_GSTAT : Nat := 0x010A0000 + 0xC
def PWY_MEMBERS : Nat := 0x010A0000 + 0x10
def PWY_OFFSET : Nat := 0x010A0000 + 0x14
def PWY_CRC_ERR : Nat := 0x010A0000 + 0x18
def PWY_TT_STAT : Nat := 0x010A0000 + 0x1C
def PWY_TT_OFS_LO : Nat := 0x010A0000 + 0x20
def PWY_TT_OFS_HI : Nat := 0x010A0000 + 0x24
def PWY_TEV_LO : Nat := 0x010A0000 + 0x28
def PWY_TEV_HI : Nat := 0x010A0000 + 0x2C
def PWY_TT_CFG : Nat := 0x010A0000 + 0x30
def PWY_PORT (i : Nat) : Nat := 0x010A0000 + 0x40 + i * 0x10
def PWY_ASYM (i : Nat) : Nat := 0x010A0000 + 0x44 + i * 0x10
def PWY_EXP (i : Nat) : Nat := 0x010A0000 + 0x100 + i * 0x4
def PWY_IMP (i : Nat) : Nat := 0x010A0000 + 0x180 + i * 0x4
def PWY_SYS (i : Nat) : Nat := 0x010A0000 + 0x200 + i * 0x4
/-! TWN registers. -/
def TWN_CFG : Nat := 0x010B0000 + 0x0
def TWN_CMD : Nat := 0x010B0000 + 0x4
def TWN_STAT : Nat := 0x010B0000 + 0x8
def TWN_ROLE : Nat := 0x010B0000 + 0xC
def TWN_SYNC : Nat := 0x010B0000 + 0x10
def TWN_LAST_HO : Nat := 0x010B0000 + 0x14
def TWN_TX : Nat := 0x010B0000 + 0x18
def TWN_RX : Nat := 0x010B0000 + 0x1C
def TWN_DROP : Nat := 0x010B0000 + 0x20
def TWN_PEER : Nat := 0x010B0000 + 0x24
/-! FLC registers. -/
def FLC_CMD : Nat := 0x010C0000 + 0x0
def FLC_STAT : Nat := 0x010C0000 + 0x4
def FLC_BANK : Nat := 0x010C0000 + 0x8
def FLC_WARN : Nat := 0x010C0000 + 0xC
def FLC_SCRUB : Nat := 0x010C0000 + 0x10
def FLC_CTRL : Nat := 0x010C0000 + 0x14
def FLC_BSEL : Nat := 0x010C0000 + 0x18
def FLC_BINFO : Nat := 0x010C0000 + 0x1C
def FLC_BFLAGS : Nat := 0x010C0000 + 0x20
def FLC_PW_LO : Nat := 0x010C0000 + 0x24
def FLC_PW_HI : Nat := 0x010C0000 + 0x28
def FLC_REJ : Nat := 0x010C0000 + 0x2C
def FLC_REGION (i : Nat) : Nat := 0x010C0000 + 0x40 + i * 0x4
def FLC_PBUF (i : Nat) : Nat := 0x010C0000 + 0x100 + i * 0x4
/-! PWR registers. -/
def PWR_STAT : Nat := 0x010D0000 + 0x0
def PWR_VIN : Nat := 0x010D0000 + 0x4
def PWR_HOLDUP : Nat := 0x010D0000 + 0x8
def PWR_CLK : Nat := 0x010D0000 + 0xC
def PWR_EL_STAT : Nat := 0x010D0000 + 0x10
def PWR_FAIL_CNT : Nat := 0x010D0000 + 0x14
def PWR_TEMP : Nat := 0x010D0000 + 0x18
/-! AON registers. -/
def AON_WAKE_EN : Nat := 0x010E0000 + 0x0
def AON_WAKE_STAT : Nat := 0x010E0000 + 0x4
def AON_RTC_SEC : Nat := 0x010E0000 + 0x8
def AON_RTC_SUB : Nat := 0x010E0000 + 0xC
def AON_ALARM : Nat := 0x010E0000 + 0x10
def AON_CLK : Nat := 0x010E0000 + 0x14
def AON_GPIO : Nat := 0x010E0000 + 0x18
/-! WDG registers. -/
def WDG_CTRL (e : Nat) : Nat := wdgBase e + 0x0
def WDG_PERIOD (e : Nat) : Nat := wdgBase e + 0x4
def WDG_LOWER (e : Nat) : Nat := wdgBase e + 0x8
def WDG_SVC (e : Nat) : Nat := wdgBase e + 0xC
def WDG_STAT (e : Nat) : Nat := wdgBase e + 0x10
def WDG_CNT (e : Nat) : Nat := wdgBase e + 0x14
def WDG_REJ (e : Nat) : Nat := wdgBase e + 0x18
/-! SEC registers. -/
def SEC_LC : Nat := 0x01100000 + 0x0
def SEC_LC_REQ : Nat := 0x01100000 + 0x4
def SEC_NONCE : Nat := 0x01100000 + 0x8
def SEC_MINVER : Nat := 0x01100000 + 0xC
def SEC_CMD : Nat := 0x01100000 + 0x10
def SEC_KEYSTAT : Nat := 0x01100000 + 0x14
def SEC_BOOT : Nat := 0x01100000 + 0x18
def SEC_POLICY : Nat := 0x01100000 + 0x1C
def SEC_TAMPER : Nat := 0x01100000 + 0x20
def SEC_TAMPER_CFG : Nat := 0x01100000 + 0x24
def SEC_TAMPER_TIME : Nat := 0x01100000 + 0x28
def SEC_WIPE_CNT : Nat := 0x01100000 + 0x2C
def SEC_KEY_DATA (i : Nat) : Nat := 0x01100000 + 0x40 + i * 0x4
/-! STP registers. -/
def STP_CTRL (n : Nat) : Nat := (sliceBase n + 0xE000) + 0x0
def STP_EN (n : Nat) : Nat := (sliceBase n + 0xE000) + 0x4
def STP_STAT (n : Nat) : Nat := (sliceBase n + 0xE000) + 0x8
def STP_DROPS (n : Nat) : Nat := (sliceBase n + 0xE000) + 0xC
def STP_FILTERED (n : Nat) : Nat := (sliceBase n + 0xE000) + 0x10
def STP_POST (n i : Nat) : Nat := (sliceBase n + 0xE000) + 0x100 + i * 0x4
/-! device STP registers. -/
def STP_RING_CFG : Nat := 0x01110000 + 0x0
def STP_RING_BASE : Nat := 0x01110000 + 0x4
def STP_RING_WIDX : Nat := 0x01110000 + 0x8
def STP_RING_RIDX : Nat := 0x01110000 + 0xC
def STP_SYS_EN : Nat := 0x01110000 + 0x10
def STP_SYS_DROPS : Nat := 0x01110000 + 0x14
def STP_SYS_FILTERED : Nat := 0x01110000 + 0x18
def STP_SYS_POST (i : Nat) : Nat := 0x01110000 + 0x100 + i * 0x4
/-! DBG registers. -/
def DBG_STAT : Nat := 0x01120000 + 0x0
def DBG_AUTH_FAIL : Nat := 0x01120000 + 0x4
def DBG_TESTOUT (i : Nat) : Nat := 0x01120000 + 0x100 + i * 0x4
/-! PTB registers. -/
def PTB_CTRL (e : Nat) : Nat := ptbBase e + 0x0
def PTB_ACTIVE (e : Nat) : Nat := ptbBase e + 0x4
def PTB_BANK (e : Nat) : Nat := ptbBase e + 0x8
def PTB_SAR (e : Nat) : Nat := ptbBase e + 0xC
def PTB_CLE (e : Nat) : Nat := ptbBase e + 0x10
def PTB_DMA (e : Nat) : Nat := ptbBase e + 0x14
def PTB_DB (e : Nat) : Nat := ptbBase e + 0x18
def PTB_EVT (e : Nat) : Nat := ptbBase e + 0x1C
def PTB_PWY (e : Nat) : Nat := ptbBase e + 0x20
def PTB_REJ (e : Nat) : Nat := ptbBase e + 0x24

end R

namespace F

/-! DEV fields. -/
def DEV_MODE_SEQ : Fld := ⟨24, 8⟩
def DEV_MODE_REQ_STATUS : Fld := ⟨16, 4⟩
def DEV_MODE_PREV : Fld := ⟨8, 3⟩
def DEV_MODE_CHANGING : Fld := ⟨7, 1⟩
def DEV_MODE_MODE : Fld := ⟨0, 3⟩
def DEV_MODE_REQ_KEY : Fld := ⟨16, 16⟩
def DEV_MODE_REQ_TARGET : Fld := ⟨0, 3⟩
def DEV_ARM_PENDING : Fld := ⟨16, 12⟩
def DEV_ARM_ARM : Fld := ⟨0, 12⟩
def DEV_DISARM_DISARM : Fld := ⟨0, 12⟩
def DEV_ARM_REJ_COUNT : Fld := ⟨0, 32⟩
def DEV_BOOT_STAT_DONE : Fld := ⟨31, 1⟩
def DEV_BOOT_STAT_WARM : Fld := ⟨30, 1⟩
def DEV_BOOT_STAT_SRC : Fld := ⟨28, 2⟩
def DEV_BOOT_STAT_OVR_IGNORED : Fld := ⟨27, 1⟩
def DEV_BOOT_STAT_IMAGE_BANK : Fld := ⟨26, 1⟩
def DEV_BOOT_STAT_FAIL_STEP : Fld := ⟨20, 4⟩
def DEV_BOOT_STAT_FAIL_CODE : Fld := ⟨16, 4⟩
def DEV_BOOT_STAT_STEP : Fld := ⟨12, 4⟩
def DEV_BOOT_STAT_STRAP : Fld := ⟨5, 3⟩
def DEV_ID_FAMILY : Fld := ⟨16, 16⟩
def DEV_ID_STEP_LETTER : Fld := ⟨12, 4⟩
def DEV_ID_STEP_NUM : Fld := ⟨8, 4⟩
def DEV_VARIANT_PART : Fld := ⟨16, 16⟩
def DEV_VARIANT_HIL : Fld := ⟨15, 1⟩
def DEV_VARIANT_CUST_MCODE : Fld := ⟨14, 1⟩
def DEV_VARIANT_MMC_CH : Fld := ⟨12, 2⟩
def DEV_VARIANT_PCIE_MAXW : Fld := ⟨8, 4⟩
def DEV_VARIANT_PWY_PORTS : Fld := ⟨4, 4⟩
def DEV_VARIANT_MAD_UNITS : Fld := ⟨0, 4⟩
def DEV_SLC_FITTED_RUNNING : Fld := ⟨16, 12⟩
def DEV_SLC_FITTED_FITTED : Fld := ⟨0, 12⟩
def DEV_SLC_ASSIGN_ASSIGN_STATUS : Fld := ⟨28, 4⟩
def DEV_SLC_ASSIGN_EPOCH : Fld := ⟨8, 8⟩
def DEV_SLC_ASSIGN_OWNER : Fld := ⟨0, 5⟩
/-! SLC fields. -/
def SLC_ID_PRESENT : Fld := ⟨31, 1⟩
def SLC_ID_SLICE : Fld := ⟨16, 4⟩
def SLC_ID_PART : Fld := ⟨0, 16⟩
def SLC_STATE_SEQ : Fld := ⟨24, 8⟩
def SLC_STATE_BANK_PENDING : Fld := ⟨17, 1⟩
def SLC_STATE_LOCKSTEP_BROKEN : Fld := ⟨16, 1⟩
def SLC_STATE_STATE : Fld := ⟨0, 3⟩
def SLC_CAPS_LOOPS : Fld := ⟨24, 5⟩
def SLC_CAPS_FAST_IN : Fld := ⟨16, 8⟩
def SLC_CAPS_PWM_CH : Fld := ⟨12, 4⟩
def SLC_CAPS_SAR : Fld := ⟨8, 4⟩
def SLC_CAPS_HIL_FEED : Fld := ⟨1, 1⟩
def SLC_CAPS_CUST_MCODE : Fld := ⟨0, 1⟩
def SLC_CMD_KEY : Fld := ⟨16, 16⟩
def SLC_CMD_TO_TWIN : Fld := ⟨8, 1⟩
def SLC_CMD_CMD : Fld := ⟨0, 4⟩
def SLC_CMD_STAT_REJ : Fld := ⟨16, 16⟩
def SLC_CMD_STAT_HELD : Fld := ⟨8, 1⟩
def SLC_CMD_STAT_LAST_CMD : Fld := ⟨4, 4⟩
def SLC_CMD_STAT_STATUS : Fld := ⟨0, 4⟩
def SLC_ARM_PENDING : Fld := ⟨2, 1⟩
def SLC_ARM_DISARM : Fld := ⟨1, 1⟩
def SLC_ARM_ARM : Fld := ⟨0, 1⟩
def SLC_FAULT_VALID : Fld := ⟨31, 1⟩
def SLC_FAULT_CAUSE : Fld := ⟨0, 8⟩
def SLC_OWNER_EPOCH : Fld := ⟨8, 8⟩
def SLC_OWNER_OWNER : Fld := ⟨0, 5⟩
def SLC_TRIP_CMD : Fld := ⟨0, 8⟩
def SLC_CFG_REJ_COUNT : Fld := ⟨0, 32⟩
def SLC_TRIPIN_LEVEL : Fld := ⟨31, 1⟩
def SLC_TRIPIN_POL : Fld := ⟨8, 1⟩
def SLC_TRIPIN_FILT : Fld := ⟨0, 8⟩
def SLC_CAPCFG_POL : Fld := ⟨10, 1⟩
def SLC_CAPCFG_EDGE : Fld := ⟨8, 2⟩
def SLC_CAPCFG_FILT : Fld := ⟨0, 8⟩
def SLC_CAPTS_TIME : Fld := ⟨0, 32⟩
def SLC_CAPSTAT_OVF : Fld := ⟨16, 16⟩
def SLC_CAPSTAT_LEVEL : Fld := ⟨0, 3⟩
def SLC_ENC_ENC_ERR : Fld := ⟨16, 16⟩
def SLC_ENC_IDX_EN : Fld := ⟨1, 1⟩
def SLC_ENC_EN : Fld := ⟨0, 1⟩
def SLC_ENC_POS_POS : Fld := ⟨0, 32⟩
def SLC_REC_STAT_REC_F : Fld := ⟨31, 1⟩
def SLC_REC_STAT_TAKEOVER : Fld := ⟨30, 1⟩
def SLC_REC_STAT_CAUSE : Fld := ⟨24, 4⟩
def SLC_REC_STAT_K : Fld := ⟨16, 4⟩
def SLC_REC_STAT_DURATION : Fld := ⟨0, 16⟩
def SLC_REC_CNT_COUNT : Fld := ⟨0, 32⟩
/-! GRG fields. -/
def GRG_STATE_STATE : Fld := ⟨0, 24⟩
def GRG_RAW_HI_RAW : Fld := ⟨16, 12⟩
def GRG_RAW_LO_RAW : Fld := ⟨0, 12⟩
def GRG_CAPSEL_SRC : Fld := ⟨0, 16⟩
def GRG_ARM_REJ_COUNT : Fld := ⟨0, 32⟩
def GRG_TEST_REJ_COUNT : Fld := ⟨0, 32⟩
def GRG_CFG_REJ_COUNT : Fld := ⟨0, 32⟩
def GRG_IN_OVR : Fld := ⟨31, 1⟩
def GRG_IN_MODE : Fld := ⟨0, 1⟩
def GRG_THR_HIGH_CODE : Fld := ⟨16, 12⟩
def GRG_THR_LOW_CODE : Fld := ⟨0, 12⟩
def GRG_WCFG_WAKE_EN : Fld := ⟨15, 1⟩
def GRG_WCFG_EVT_SEL : Fld := ⟨12, 3⟩
def GRG_WCFG_TRIP_SEL : Fld := ⟨10, 2⟩
def GRG_WCFG_ARM_UNSETTLED : Fld := ⟨9, 1⟩
def GRG_WCFG_HYST : Fld := ⟨4, 3⟩
def GRG_WCFG_HIGH_EN : Fld := ⟨2, 1⟩
def GRG_WCFG_LOW_EN : Fld := ⟨1, 1⟩
def GRG_WCFG_EN : Fld := ⟨0, 1⟩
def GRG_TEST_TRIP_MASK : Fld := ⟨8, 1⟩
def GRG_TEST_TEST_SEL : Fld := ⟨0, 3⟩
def GRG_WSTAT_ARM_REJ : Fld := ⟨31, 1⟩
def GRG_WSTAT_TEST_REJ : Fld := ⟨30, 1⟩
def GRG_WSTAT_TRIP_REQ : Fld := ⟨8, 1⟩
def GRG_WSTAT_ARMED : Fld := ⟨7, 1⟩
def GRG_WSTAT_CFG_ERR : Fld := ⟨5, 1⟩
def GRG_WSTAT_HI_SETTLED : Fld := ⟨4, 1⟩
def GRG_WSTAT_LO_SETTLED : Fld := ⟨3, 1⟩
def GRG_WSTAT_STATE : Fld := ⟨0, 2⟩
def GRG_TRANS_COUNT : Fld := ⟨0, 32⟩
/-! SAR fields. -/
def SAR_CTRL_SELFCAL : Fld := ⟨0, 1⟩
def SAR_CFG_REJ_COUNT : Fld := ⟨0, 32⟩
def SAR_TRIG_LEN : Fld := ⟨30, 2⟩
def SAR_TRIG_EVR_SRC : Fld := ⟨16, 10⟩
def SAR_TRIG_CH : Fld := ⟨8, 3⟩
def SAR_TRIG_EVT : Fld := ⟨4, 2⟩
def SAR_TRIG_SRC : Fld := ⟨0, 3⟩
def SAR_PP_DIR : Fld := ⟨30, 2⟩
def SAR_PP_CH : Fld := ⟨27, 3⟩
def SAR_PP_COUNT : Fld := ⟨0, 24⟩
def SAR_MBUF_LOG2LEN : Fld := ⟨28, 4⟩
def SAR_MBUF_BASE : Fld := ⟨3, 16⟩
def SAR_MIDX_INDEX : Fld := ⟨0, 12⟩
def SAR_ENT_TRIG_LOOP : Fld := ⟨31, 1⟩
def SAR_ENT_DEST : Fld := ⟨28, 3⟩
def SAR_ENT_LOOP : Fld := ⟨24, 4⟩
def SAR_ENT_FMT : Fld := ⟨22, 2⟩
def SAR_ENT_RES : Fld := ⟨20, 2⟩
def SAR_ENT_ACQ : Fld := ⟨10, 10⟩
def SAR_ENT_POS : Fld := ⟨0, 2⟩
def SAR_SWTRIG_TRIG : Fld := ⟨0, 1⟩
def SAR_STAT_CAL_FAIL : Fld := ⟨6, 1⟩
def SAR_STAT_HIL_STALE_F : Fld := ⟨5, 1⟩
def SAR_STAT_MEM_OVR_F : Fld := ⟨4, 1⟩
def SAR_STAT_TRIG_OVR_F : Fld := ⟨3, 1⟩
def SAR_STAT_PEND : Fld := ⟨1, 1⟩
def SAR_STAT_BUSY : Fld := ⟨0, 1⟩
def SAR_OVR_MEM : Fld := ⟨16, 16⟩
def SAR_OVR_TRIG : Fld := ⟨0, 16⟩
def SAR_RES_X : Fld := ⟨16, 16⟩
def SAR_RES_Y : Fld := ⟨0, 16⟩
def SAR_CAL_GAIN : Fld := ⟨16, 16⟩
def SAR_CAL_OFFS : Fld := ⟨0, 16⟩
def SAR_HIL_STALE : Fld := ⟨16, 16⟩
def SAR_HIL_FULL : Fld := ⟨8, 8⟩
def SAR_HIL_LEVEL : Fld := ⟨0, 5⟩
/-! CLE fields. -/
def CLE_STAT_QUEUE : Fld := ⟨16, 16⟩
def CLE_STAT_BUSY : Fld := ⟨15, 1⟩
def CLE_STAT_CUR : Fld := ⟨0, 4⟩
def CLE_SWTRIG_TRIG : Fld := ⟨0, 16⟩
def CLE_CMD_KEY : Fld := ⟨16, 16⟩
def CLE_CMD_LOOP : Fld := ⟨8, 4⟩
def CLE_CMD_CMD : Fld := ⟨0, 3⟩
def CLE_CMD_STAT_REJ : Fld := ⟨16, 16⟩
def CLE_CMD_STAT_LAST_LOOP : Fld := ⟨8, 4⟩
def CLE_CMD_STAT_LAST_CMD : Fld := ⟨4, 3⟩
def CLE_CMD_STAT_STATUS : Fld := ⟨0, 4⟩
def CLE_CFG_REJ_COUNT : Fld := ⟨0, 32⟩
def CLE_WRCOLL_COUNT : Fld := ⟨0, 32⟩
def CLE_MISMATCH_COUNT : Fld := ⟨0, 32⟩
def CLE_LCTRL_EN : Fld := ⟨31, 1⟩
def CLE_LCTRL_MODE : Fld := ⟨30, 1⟩
def CLE_LCTRL_OVR_POL : Fld := ⟨29, 1⟩
def CLE_LCTRL_FULL_EN : Fld := ⟨28, 1⟩
def CLE_LCTRL_TRIG : Fld := ⟨26, 2⟩
def CLE_LCTRL_TRIG_ARG : Fld := ⟨16, 10⟩
def CLE_LCTRL_BANK : Fld := ⟨12, 1⟩
def CLE_LCTRL_ENTRY : Fld := ⟨0, 12⟩
def CLE_LSTAT_LATE_F : Fld := ⟨31, 1⟩
def CLE_LSTAT_SKIP_F : Fld := ⟨30, 1⟩
def CLE_LSTAT_CLAMP_HI_F : Fld := ⟨29, 1⟩
def CLE_LSTAT_CLAMP_LO_F : Fld := ⟨28, 1⟩
def CLE_LSTAT_WRCOLL_F : Fld := ⟨27, 1⟩
def CLE_LSTAT_SWAP_PEND : Fld := ⟨23, 1⟩
def CLE_LSTAT_MODE_PEND : Fld := ⟨22, 1⟩
def CLE_LSTAT_HIST_PEND : Fld := ⟨21, 1⟩
def CLE_LSTAT_AUTO_FIRST : Fld := ⟨20, 1⟩
def CLE_LSTAT_LATE_PEND : Fld := ⟨18, 1⟩
def CLE_LSTAT_QSTATE : Fld := ⟨16, 2⟩
def CLE_LSTAT_L : Fld := ⟨8, 8⟩
def CLE_LSTAT_SEQ : Fld := ⟨0, 8⟩
def CLE_TGT_KIND : Fld := ⟨30, 2⟩
def CLE_TGT_IDX : Fld := ⟨20, 4⟩
def CLE_TGT_OFS : Fld := ⟨2, 17⟩
def CLE_REF_VALUE : Fld := ⟨0, 16⟩
def CLE_IN_VALUE : Fld := ⟨0, 16⟩
def CLE_OUT_RAW : Fld := ⟨16, 16⟩
def CLE_OUT_Y : Fld := ⟨0, 16⟩
def CLE_CLAMP_MAX : Fld := ⟨16, 16⟩
def CLE_CLAMP_MIN : Fld := ⟨0, 16⟩
def CLE_MAN_VALUE : Fld := ⟨0, 16⟩
def CLE_CB0_B1 : Fld := ⟨16, 16⟩
def CLE_CB0_B0 : Fld := ⟨0, 16⟩
def CLE_CB1_B3 : Fld := ⟨16, 16⟩
def CLE_CB1_B2 : Fld := ⟨0, 16⟩
def CLE_CB2_A2 : Fld := ⟨16, 16⟩
def CLE_CB2_A1 : Fld := ⟨0, 16⟩
def CLE_CB3_SHIFT : Fld := ⟨16, 4⟩
def CLE_CB3_A3 : Fld := ⟨0, 16⟩
def CLE_H0_E2 : Fld := ⟨16, 16⟩
def CLE_H0_E1 : Fld := ⟨0, 16⟩
def CLE_H1_Y1 : Fld := ⟨16, 16⟩
def CLE_H1_E3 : Fld := ⟨0, 16⟩
def CLE_H2_Y3 : Fld := ⟨16, 16⟩
def CLE_H2_Y2 : Fld := ⟨0, 16⟩
def CLE_OVR_LATE : Fld := ⟨16, 16⟩
def CLE_OVR_SKIP : Fld := ⟨0, 16⟩
/-! MCS fields. -/
def MCS_CTRL_SCAN_EN : Fld := ⟨2, 1⟩
def MCS_CTRL_DWR_EN : Fld := ⟨1, 1⟩
def MCS_CTRL_LD_OPEN : Fld := ⟨0, 1⟩
def MCS_STAT_PARITY_F : Fld := ⟨31, 1⟩
def MCS_STAT_REPAIR_F : Fld := ⟨30, 1⟩
def MCS_STAT_HARD_F : Fld := ⟨29, 1⟩
def MCS_STAT_RERR_F : Fld := ⟨28, 1⟩
def MCS_STAT_LD_REJ_F : Fld := ⟨27, 1⟩
def MCS_STAT_CRC_BUSY : Fld := ⟨24, 1⟩
def MCS_STAT_SCAN_ADDR : Fld := ⟨0, 12⟩
def MCS_VER_MAJOR : Fld := ⟨16, 16⟩
def MCS_VER_MINOR : Fld := ⟨0, 16⟩
def MCS_LD_STAT_REASON : Fld := ⟨28, 4⟩
def MCS_LD_STAT_ADDR : Fld := ⟨0, 12⟩
def MCS_LD_REJ_COUNT : Fld := ⟨0, 32⟩
def MCS_LD_CRC_CRC : Fld := ⟨0, 32⟩
def MCS_PARITY_COUNT : Fld := ⟨16, 16⟩
def MCS_PARITY_ADDR : Fld := ⟨0, 12⟩
def MCS_SCAN_REP_COUNT : Fld := ⟨16, 16⟩
def MCS_SCAN_REP_ADDR : Fld := ⟨0, 12⟩
def MCS_RERR_VALID : Fld := ⟨31, 1⟩
def MCS_RERR_CAUSE : Fld := ⟨24, 4⟩
def MCS_RERR_ATT : Fld := ⟨20, 1⟩
def MCS_RERR_LOOP : Fld := ⟨16, 4⟩
def MCS_RERR_ADDR : Fld := ⟨0, 12⟩
def MCS_RERR_CNT_COUNT : Fld := ⟨0, 32⟩
def MCS_DWR_ATT : Fld := ⟨16, 1⟩
def MCS_DWR_LOOPS : Fld := ⟨0, 16⟩
def MCS_XCFG_TIMEOUT : Fld := ⟨0, 8⟩
def MCS_XSTAT_TIMEOUT : Fld := ⟨16, 16⟩
def MCS_XSTAT_ABANDON : Fld := ⟨8, 8⟩
def MCS_XSTAT_PEND : Fld := ⟨1, 1⟩
def MCS_XSTAT_RUN : Fld := ⟨0, 1⟩
def MCS_XT_VALID : Fld := ⟨31, 1⟩
def MCS_XT_ADDR : Fld := ⟨0, 12⟩
/-! PWM fields. -/
def PWM_CTRL_EN : Fld := ⟨31, 1⟩
def PWM_CTRL_CORR_MAX : Fld := ⟨20, 8⟩
def PWM_CTRL_SYNC_CH : Fld := ⟨16, 3⟩
def PWM_CTRL_SYNC_SRC : Fld := ⟨12, 2⟩
def PWM_CTRL_RELOAD_MODE : Fld := ⟨8, 2⟩
def PWM_CTRL_PRESC : Fld := ⟨0, 4⟩
def PWM_PER_VALUE : Fld := ⟨0, 24⟩
def PWM_CMP_VALUE : Fld := ⟨0, 28⟩
def PWM_DT_VALUE : Fld := ⟨0, 20⟩
def PWM_PHASE_VALUE : Fld := ⟨0, 25⟩
def PWM_EVCFG_CMPD_PRE : Fld := ⟨24, 8⟩
def PWM_EVCFG_CMPU_PRE : Fld := ⟨16, 8⟩
def PWM_EVCFG_PER_PRE : Fld := ⟨8, 8⟩
def PWM_EVCFG_VAL_PRE : Fld := ⟨0, 8⟩
def PWM_CNT_DIR : Fld := ⟨31, 1⟩
def PWM_CNT_COUNT : Fld := ⟨0, 24⟩
def PWM_ACT_PER_VALUE : Fld := ⟨0, 32⟩
def PWM_ACT_CMP_VALUE : Fld := ⟨0, 32⟩
def PWM_ACT_DT_VALUE : Fld := ⟨0, 32⟩
def PWM_STAT_WRCOLL_F : Fld := ⟨31, 1⟩
def PWM_STAT_SWALLOW_F : Fld := ⟨30, 1⟩
def PWM_STAT_LATE_EDGE_F : Fld := ⟨29, 1⟩
def PWM_STAT_HELD_EDGE_F : Fld := ⟨28, 1⟩
def PWM_STAT_SYNC_ERR_F : Fld := ⟨27, 1⟩
def PWM_STAT_CLAMPED_F : Fld := ⟨26, 1⟩
def PWM_STAT_SYNC_LOCKED : Fld := ⟨7, 1⟩
def PWM_STAT_DT_ACTIVE : Fld := ⟨6, 1⟩
def PWM_STAT_HALF_USED : Fld := ⟨5, 1⟩
def PWM_STAT_PHASE_B : Fld := ⟨4, 1⟩
def PWM_STAT_OUT_B : Fld := ⟨3, 1⟩
def PWM_STAT_OUT_A : Fld := ⟨2, 1⟩
def PWM_STAT_RUN : Fld := ⟨0, 1⟩
def PWM_WRCOLL_COUNT : Fld := ⟨0, 32⟩
def PWM_SWALLOW_B : Fld := ⟨16, 16⟩
def PWM_SWALLOW_A : Fld := ⟨0, 16⟩
def PWM_SYNCCORR_COUNT : Fld := ⟨16, 16⟩
def PWM_SYNCCORR_LAST_D : Fld := ⟨0, 16⟩
def PWM_CFG_REJ_COUNT : Fld := ⟨0, 32⟩
def PWM_TRIP_EN_TWIN_HO : Fld := ⟨20, 1⟩
def PWM_TRIP_EN_CMD : Fld := ⟨19, 1⟩
def PWM_TRIP_EN_WDG : Fld := ⟨18, 1⟩
def PWM_TRIP_EN_MCHECK : Fld := ⟨17, 1⟩
def PWM_TRIP_EN_LOCKSTEP : Fld := ⟨16, 1⟩
def PWM_TRIP_EN_TRIPIN : Fld := ⟨12, 4⟩
def PWM_TRIP_EN_GORGE : Fld := ⟨0, 12⟩
def PWM_TRIP_CFG_REC_ACT : Fld := ⟨8, 1⟩
def PWM_TRIP_CFG_SAFE_PAT : Fld := ⟨4, 2⟩
def PWM_TRIP_CFG_TRIP_ACT : Fld := ⟨0, 2⟩
def PWM_TRIP_CMD_FORCE : Fld := ⟨1, 1⟩
def PWM_TRIP_CMD_CLEAR : Fld := ⟨0, 1⟩
def PWM_TRIP_STAT_TRIP_CLEAR_REJ : Fld := ⟨31, 1⟩
def PWM_TRIP_STAT_FIRST_SRC : Fld := ⟨8, 5⟩
def PWM_TRIP_STAT_PINS : Fld := ⟨2, 2⟩
def PWM_TRIP_STAT_REARM_PEND : Fld := ⟨1, 1⟩
def PWM_TRIP_STAT_TRIPPED : Fld := ⟨0, 1⟩
def PWM_TRIP_SRC_VALUE : Fld := ⟨0, 32⟩
def PWM_TRIP_TIME_VALUE : Fld := ⟨0, 32⟩
def PWM_TRIP_CNT_VALUE : Fld := ⟨0, 32⟩
def PWM_TRIP_REJ_VALUE : Fld := ⟨0, 32⟩
/-! INJ fields. -/
def INJ_CTRL_START : Fld := ⟨31, 1⟩
def INJ_CTRL_STOP : Fld := ⟨30, 1⟩
def INJ_CTRL_SHAPE : Fld := ⟨24, 2⟩
def INJ_CTRL_NODE : Fld := ⟨22, 2⟩
def INJ_CTRL_LOOP : Fld := ⟨16, 4⟩
def INJ_CTRL_CORR_EN : Fld := ⟨11, 1⟩
def INJ_CTRL_CAP_EN : Fld := ⟨10, 1⟩
def INJ_SIG_CHIP : Fld := ⟨16, 8⟩
def INJ_SIG_AMP : Fld := ⟨0, 16⟩
def INJ_FREQ_VALUE : Fld := ⟨0, 32⟩
def INJ_FEND_VALUE : Fld := ⟨0, 32⟩
def INJ_RATE_VALUE : Fld := ⟨0, 32⟩
def INJ_CAP_LOG2LEN : Fld := ⟨28, 4⟩
def INJ_CAP_NODE_B : Fld := ⟨25, 3⟩
def INJ_CAP_NODE_A : Fld := ⟨22, 3⟩
def INJ_CAP_BASE : Fld := ⟨2, 17⟩
def INJ_CORR_N : Fld := ⟨16, 16⟩
def INJ_CORR_SETTLE : Fld := ⟨0, 16⟩
def INJ_STAT_DONE_F : Fld := ⟨31, 1⟩
def INJ_STAT_GAP_F : Fld := ⟨30, 1⟩
def INJ_STAT_REJ_F : Fld := ⟨29, 1⟩
def INJ_STAT_CAP_OVR_F : Fld := ⟨28, 1⟩
def INJ_STAT_STOP_CAUSE : Fld := ⟨8, 3⟩
def INJ_STAT_CORR_BUSY : Fld := ⟨1, 1⟩
def INJ_STAT_RUN : Fld := ⟨0, 1⟩
def INJ_CIDX_INDEX : Fld := ⟨0, 12⟩
def INJ_REJ_COUNT : Fld := ⟨0, 32⟩
def INJ_CAP_OVR_COUNT : Fld := ⟨0, 32⟩
def INJ_ACC_LO_VALUE : Fld := ⟨0, 32⟩
def INJ_ACC_HI_VALUE : Fld := ⟨0, 32⟩
def INJ_LIM_LIM : Fld := ⟨0, 16⟩
/-! MAD fields. -/
def MAD_CTRL_EN : Fld := ⟨24, 4⟩
def MAD_CTRL_REF_SEL : Fld := ⟨20, 2⟩
def MAD_CTRL_PERIOD_MODE : Fld := ⟨16, 1⟩
def MAD_CTRL_ZC_HYST : Fld := ⟨8, 4⟩
def MAD_CTRL_ZC_CH : Fld := ⟨0, 4⟩
def MAD_STAT_BUF_OVR_F : Fld := ⟨31, 1⟩
def MAD_STAT_INPUT_OVR_F : Fld := ⟨30, 1⟩
def MAD_STAT_LINE_LOST_F : Fld := ⟨29, 1⟩
def MAD_STAT_REF_FAULT_F : Fld := ⟨28, 1⟩
def MAD_STAT_REF_FAULT : Fld := ⟨4, 1⟩
def MAD_STAT_LINE_LOST : Fld := ⟨3, 1⟩
def MAD_STAT_LOCKED : Fld := ⟨2, 1⟩
def MAD_STAT_REF_SETTLED : Fld := ⟨1, 1⟩
def MAD_STAT_RUN : Fld := ⟨0, 1⟩
def MAD_SCAN_MASK : Fld := ⟨0, 16⟩
def MAD_PERIOD_LEN : Fld := ⟨0, 17⟩
def MAD_BUF_LOG2LEN : Fld := ⟨28, 4⟩
def MAD_BUF_BASE : Fld := ⟨4, 19⟩
def MAD_WIDX_INDEX : Fld := ⟨0, 16⟩
def MAD_RIDX_INDEX : Fld := ⟨0, 16⟩
def MAD_WMARK_LEVEL : Fld := ⟨0, 16⟩
def MAD_URG_REQ : Fld := ⟨31, 1⟩
def MAD_URG_CH : Fld := ⟨0, 4⟩
def MAD_URG_RES_FLAGS : Fld := ⟨24, 8⟩
def MAD_URG_RES_VALUE : Fld := ⟨0, 24⟩
def MAD_URG_STAT_DONE_F : Fld := ⟨31, 1⟩
def MAD_URG_STAT_CH : Fld := ⟨16, 4⟩
def MAD_URG_STAT_PEND : Fld := ⟨4, 1⟩
def MAD_URG_STAT_STATUS : Fld := ⟨0, 4⟩
def MAD_BUF_OVR_COUNT : Fld := ⟨0, 32⟩
def MAD_CFG_REJ_COUNT : Fld := ⟨0, 32⟩
def MAD_OFFS_OFFS : Fld := ⟨0, 24⟩
def MAD_GAIN_GAIN : Fld := ⟨0, 32⟩
def MAD_LAST_FLAGS : Fld := ⟨24, 8⟩
def MAD_LAST_VALUE : Fld := ⟨0, 24⟩
/-! KC fields. -/
def KC_VEC_HSET : Fld := ⟨20, 3⟩
def KC_VEC_BASE : Fld := ⟨0, 17⟩
def KC_CSEL_LEVEL : Fld := ⟨24, 5⟩
def KC_CSEL_EMERG : Fld := ⟨16, 1⟩
def KC_CSEL_WSET : Fld := ⟨8, 3⟩
def KC_CSEL_ACTIVE : Fld := ⟨0, 3⟩
def KC_FAULT_VALID : Fld := ⟨31, 1⟩
def KC_FAULT_CODE : Fld := ⟨24, 6⟩
def KC_FAULT_CAUSE2 : Fld := ⟨16, 6⟩
def KC_FAULT_NEST : Fld := ⟨0, 16⟩
def KC_FADDR_EA : Fld := ⟨0, 32⟩
def KC_FPC_SHADOW : Fld := ⟨23, 1⟩
def KC_FPC_SET : Fld := ⟨20, 3⟩
def KC_FPC_DS : Fld := ⟨17, 1⟩
def KC_FPC_PC : Fld := ⟨0, 17⟩
def KC_LINK_SPILLS : Fld := ⟨16, 16⟩
def KC_LINK_DEPTH : Fld := ⟨0, 3⟩
def KC_CSET_ALLOW : Fld := ⟨0, 8⟩
def KC_FPE_VALID : Fld := ⟨31, 1⟩
def KC_FPE_CALLERS : Fld := ⟨23, 8⟩
def KC_FPE_SET : Fld := ⟨20, 3⟩
def KC_FPE_ENTRY : Fld := ⟨0, 17⟩
def KC_KEYS_FIRST : Fld := ⟨16, 16⟩
def KC_KEYS_LAST : Fld := ⟨0, 16⟩
def KC_LS_STAT_DIV_F : Fld := ⟨31, 1⟩
def KC_LS_STAT_ATTACH_HELD : Fld := ⟨2, 1⟩
def KC_LS_STAT_SUSPENDED : Fld := ⟨1, 1⟩
def KC_LS_STAT_BROKEN : Fld := ⟨0, 1⟩
def KC_LS_DIV_COUNT : Fld := ⟨0, 32⟩
def KC_LS_LAST_POINT : Fld := ⟨28, 4⟩
def KC_LS_LAST_TAG_XOR : Fld := ⟨8, 4⟩
def KC_LS_LAST_BE_XOR : Fld := ⟨4, 4⟩
def KC_LS_LAST_ADDR_DIFF : Fld := ⟨0, 1⟩
def KC_LS_ADDR_VALUE : Fld := ⟨0, 32⟩
def KC_LS_XOR_VALUE : Fld := ⟨0, 32⟩
def KC_LS_INJ_DONE : Fld := ⟨31, 1⟩
def KC_LS_INJ_PASS : Fld := ⟨30, 1⟩
def KC_LS_INJ_FAIL_POINT : Fld := ⟨28, 2⟩
def KC_LS_INJ_FALSE_DET : Fld := ⟨27, 1⟩
def KC_LS_INJ_MISSED : Fld := ⟨16, 11⟩
def KC_LS_INJ_RUNS : Fld := ⟨0, 8⟩
/-! MEM fields. -/
def MEM_STAT_UE_F : Fld := ⟨31, 1⟩
def MEM_STAT_CE_F : Fld := ⟨30, 1⟩
def MEM_STAT_SEC_WIPING : Fld := ⟨2, 1⟩
def MEM_STAT_CLEARING : Fld := ⟨1, 1⟩
def MEM_STAT_MARCH_BUSY : Fld := ⟨0, 1⟩
def MEM_RET_BLOCK : Fld := ⟨0, 4⟩
def MEM_MARCH_KEY : Fld := ⟨16, 16⟩
def MEM_MARCH_FORM : Fld := ⟨8, 1⟩
def MEM_MARCH_TARGET : Fld := ⟨0, 5⟩
def MEM_MARCH_STAT_STATUS : Fld := ⟨28, 4⟩
def MEM_MARCH_STAT_DONE : Fld := ⟨27, 1⟩
def MEM_MARCH_STAT_PASS : Fld := ⟨26, 1⟩
def MEM_MARCH_STAT_TARGET : Fld := ⟨21, 5⟩
def MEM_MARCH_STAT_FORM : Fld := ⟨20, 1⟩
def MEM_MARCH_STAT_FAIL_BANK : Fld := ⟨16, 4⟩
def MEM_MARCH_STAT_FAILS : Fld := ⟨0, 16⟩
def MEM_MARCH_FADDR_ADDR : Fld := ⟨0, 32⟩
def MEM_UE_ADDR_ADDR : Fld := ⟨0, 32⟩
def MEM_ECC_CNT_UE : Fld := ⟨16, 16⟩
def MEM_ECC_CNT_CE : Fld := ⟨0, 16⟩
def MEM_CONF_COUNT : Fld := ⟨0, 32⟩
def MEM_SLC_ECC_UE : Fld := ⟨16, 16⟩
def MEM_SLC_ECC_CE : Fld := ⟨0, 16⟩
/-! MMC fields. -/
def MMC_STAT_UE_F : Fld := ⟨31, 1⟩
def MMC_STAT_DOWN_F : Fld := ⟨30, 1⟩
def MMC_STAT_CLEAR_BUSY : Fld := ⟨4, 2⟩
def MMC_STAT_CH_DOWN : Fld := ⟨2, 2⟩
def MMC_STAT_CH_UP : Fld := ⟨0, 2⟩
def MMC_SCRUB_PERIOD : Fld := ⟨0, 10⟩
def MMC_CFG_UE_LIMIT : Fld := ⟨0, 8⟩
def MMC_ECC_UE : Fld := ⟨16, 16⟩
def MMC_ECC_CE : Fld := ⟨0, 16⟩
def MMC_UE_ADDR_ADDR : Fld := ⟨0, 32⟩
def MMC_SCRUB_POS_BURST : Fld := ⟨0, 21⟩
def MMC_SCRUB_CNT_PASSES : Fld := ⟨0, 32⟩
/-! EVR fields. -/
def EVR_STAT_ORPH_F : Fld := ⟨31, 1⟩
def EVR_STAT_ORPH_OVF_F : Fld := ⟨30, 1⟩
def EVR_STAT_ORPH_LEVEL : Fld := ⟨0, 7⟩
def EVR_CFG_REJ_COUNT : Fld := ⟨0, 32⟩
def EVR_MERGED_COUNT : Fld := ⟨0, 32⟩
def EVR_BADACK_COUNT : Fld := ⟨0, 32⟩
def EVR_SYS_ACK_SRC : Fld := ⟨0, 10⟩
def EVR_ORPH_OVF_COUNT : Fld := ⟨0, 32⟩
def EVR_ORPH0_KIND : Fld := ⟨30, 2⟩
def EVR_ORPH0_INDEX : Fld := ⟨16, 11⟩
def EVR_ORPH0_SRC : Fld := ⟨0, 10⟩
def EVR_ORPH1_STAMP : Fld := ⟨24, 8⟩
def EVR_ORPH1_CURRENT : Fld := ⟨16, 8⟩
def EVR_ORPH1_TIME : Fld := ⟨0, 16⟩
def EVR_SRC_GRP_EN : Fld := ⟨31, 1⟩
def EVR_SRC_GRP : Fld := ⟨24, 6⟩
def EVR_SRC_PRIO : Fld := ⟨16, 4⟩
def EVR_SRC_SENSE : Fld := ⟨8, 2⟩
def EVR_SRC_FILT : Fld := ⟨0, 8⟩
def EVR_TGT_KIND : Fld := ⟨30, 2⟩
def EVR_TGT_STALE : Fld := ⟨24, 1⟩
def EVR_TGT_EPOCH : Fld := ⟨16, 8⟩
def EVR_TGT_INDEX : Fld := ⟨0, 11⟩
def EVR_GCFG_COUNT : Fld := ⟨16, 8⟩
def EVR_GCFG_TIME : Fld := ⟨0, 16⟩
def EVR_GTGT_KIND : Fld := ⟨30, 2⟩
def EVR_GTGT_STALE : Fld := ⟨28, 1⟩
def EVR_GTGT_PRIO : Fld := ⟨24, 4⟩
def EVR_GTGT_EPOCH : Fld := ⟨16, 8⟩
def EVR_GTGT_INDEX : Fld := ⟨0, 11⟩
def EVR_GSTAT_OPEN : Fld := ⟨24, 8⟩
def EVR_GSTAT_LAST : Fld := ⟨16, 8⟩
def EVR_GSTAT_FIRST : Fld := ⟨0, 10⟩
/-! slice EVR fields. -/
def EVR_LSRC_GRP_EN : Fld := ⟨31, 1⟩
def EVR_LSRC_GRP : Fld := ⟨24, 6⟩
def EVR_LSRC_PRIO : Fld := ⟨16, 4⟩
def EVR_LSRC_SENSE : Fld := ⟨8, 2⟩
def EVR_LSRC_FILT : Fld := ⟨0, 8⟩
def EVR_LTGT_KIND : Fld := ⟨30, 2⟩
def EVR_LTGT_STALE : Fld := ⟨24, 1⟩
def EVR_LTGT_EPOCH : Fld := ⟨16, 8⟩
def EVR_LTGT_INDEX : Fld := ⟨0, 11⟩
def EVR_ACK_SRC : Fld := ⟨0, 10⟩
def EVR_LSTAT_ORPHAN_F : Fld := ⟨31, 1⟩
def EVR_LORPH_COUNT : Fld := ⟨0, 32⟩
/-! DMA fields. -/
def DMA_CFG_REJ_COUNT : Fld := ⟨0, 32⟩
def DMA_CTRL_HALT : Fld := ⟨1, 1⟩
def DMA_CTRL_START : Fld := ⟨0, 1⟩
def DMA_PROG_ADDR : Fld := ⟨0, 32⟩
def DMA_STAT_DONE_F : Fld := ⟨31, 1⟩
def DMA_STAT_ERR_F : Fld := ⟨30, 1⟩
def DMA_STAT_STOP_F : Fld := ⟨29, 1⟩
def DMA_STAT_ERR : Fld := ⟨20, 4⟩
def DMA_STAT_STOP_CAUSE : Fld := ⟨16, 2⟩
def DMA_STAT_OUTST : Fld := ⟨8, 7⟩
def DMA_STAT_DEPTH : Fld := ⟨5, 3⟩
def DMA_STAT_STATE : Fld := ⟨0, 3⟩
def DMA_PC_VALUE : Fld := ⟨0, 32⟩
def DMA_ERR_ADDR_VALUE : Fld := ⟨0, 32⟩
def DMA_BYTES_VALUE : Fld := ⟨0, 32⟩
/-! function page fields. -/
def HIF_FN_ID_PART : Fld := ⟨16, 16⟩
def HIF_FN_ID_STEP : Fld := ⟨8, 8⟩
def HIF_FN_ID_FN : Fld := ⟨0, 5⟩
def HIF_FN_STAT_READY : Fld := ⟨31, 1⟩
def HIF_FN_STAT_EN : Fld := ⟨30, 1⟩
def HIF_FN_STAT_EPOCH : Fld := ⟨8, 8⟩
def HIF_FN_OWNED_FITTED : Fld := ⟨16, 12⟩
def HIF_FN_OWNED_OWNED : Fld := ⟨0, 12⟩
def HIF_FN_ERR_REQ : Fld := ⟨16, 16⟩
def HIF_FN_ERR_BADACC : Fld := ⟨0, 16⟩
def HIF_FN_LINK_UP : Fld := ⟨31, 1⟩
def HIF_FN_LINK_DEGRADED : Fld := ⟨30, 1⟩
def HIF_FN_LINK_SPEED : Fld := ⟨8, 4⟩
def HIF_FN_LINK_WIDTH : Fld := ⟨0, 5⟩
def RNG_CTRL_EN : Fld := ⟨31, 1⟩
def RNG_CTRL_DISABLE : Fld := ⟨30, 1⟩
def RNG_CTRL_ENABLE_PENDING : Fld := ⟨29, 1⟩
def RNG_CTRL_QUIESCING : Fld := ⟨28, 1⟩
def RNG_CTRL_EN_STATUS : Fld := ⟨24, 4⟩
def RNG_CTRL_ABT_TWIN : Fld := ⟨0, 1⟩
def RNG_STAT_BADVAL_F : Fld := ⟨31, 1⟩
def RNG_STAT_INFLIGHT : Fld := ⟨0, 13⟩
def RNG_DB_DROPPED_COUNT : Fld := ⟨0, 32⟩
def RNG_LATE_CPL_COUNT : Fld := ⟨0, 32⟩
def RNG_EDGE_CFG_EN : Fld := ⟨31, 1⟩
def RNG_EDGE_CFG_LOG2LEN : Fld := ⟨0, 5⟩
def RNG_EDGE_STAT_DROP : Fld := ⟨20, 12⟩
def RNG_EDGE_STAT_WIDX : Fld := ⟨0, 20⟩
def RNG_SQ_CFG_EN : Fld := ⟨31, 1⟩
def RNG_SQ_CFG_CQ : Fld := ⟨8, 3⟩
def RNG_SQ_CFG_LOG2DEPTH : Fld := ⟨0, 4⟩
def RNG_SQ_HEAD_TAIL : Fld := ⟨16, 10⟩
def RNG_SQ_HEAD_HEAD : Fld := ⟨0, 10⟩
def RNG_CQ_CFG_EN : Fld := ⟨31, 1⟩
def RNG_CQ_CFG_IRQ_EN : Fld := ⟨30, 1⟩
def RNG_CQ_CFG_VECTOR : Fld := ⟨16, 7⟩
def RNG_CQ_CFG_LOG2DEPTH : Fld := ⟨0, 4⟩
def RNG_CQ_TAIL_PHASE : Fld := ⟨31, 1⟩
def RNG_CQ_TAIL_HEAD : Fld := ⟨16, 10⟩
def RNG_CQ_TAIL_TAIL : Fld := ⟨0, 10⟩
/-! HIF fields. -/
def HIF_BADACC_COUNT : Fld := ⟨0, 32⟩
def HIF_LINK_UP : Fld := ⟨31, 1⟩
def HIF_LINK_DEGRADED : Fld := ⟨30, 1⟩
def HIF_LINK_SPEED : Fld := ⟨8, 4⟩
def HIF_LINK_WIDTH : Fld := ⟨0, 5⟩
def HIF_LINK_CFG_REFMODE : Fld := ⟨0, 1⟩
def HIF_FNCFG_PWIN_LEN : Fld := ⟨16, 16⟩
def HIF_FNCFG_PWIN_BASE : Fld := ⟨0, 16⟩
def HIF_FNCFG_MWIN_LEN : Fld := ⟨16, 16⟩
def HIF_FNCFG_MWIN_BASE : Fld := ⟨0, 16⟩
/-! doorbell page fields. -/
def ABT_STAT_DONE : Fld := ⟨31, 1⟩
def ABT_STAT_CQ_UNREACH : Fld := ⟨30, 1⟩
def ABT_STAT_SEQ : Fld := ⟨16, 8⟩
def ABT_STAT_CAUSE : Fld := ⟨0, 4⟩
def ABT_COUNT_COUNT : Fld := ⟨0, 32⟩
def ABT_UNREP_COUNT : Fld := ⟨0, 32⟩
def ABT_TIME_TIME : Fld := ⟨0, 32⟩
def ABT_SLICES_TWIN : Fld := ⟨16, 12⟩
def ABT_SLICES_FENCED : Fld := ⟨0, 12⟩
/-! PWY fields. -/
def PWY_CFG_EN : Fld := ⟨31, 1⟩
def PWY_CFG_TT_EN : Fld := ⟨16, 1⟩
def PWY_CFG_TM_PRIO : Fld := ⟨8, 4⟩
def PWY_CFG_SYNC_PER : Fld := ⟨0, 8⟩
def PWY_ID_ID : Fld := ⟨16, 11⟩
def PWY_ID_GROUP : Fld := ⟨8, 6⟩
def PWY_ID_POS : Fld := ⟨0, 5⟩
def PWY_STAT_GRP_CHG_F : Fld := ⟨31, 1⟩
def PWY_STAT_LOCK_LOST_F : Fld := ⟨30, 1⟩
def PWY_STAT_DUP_F : Fld := ⟨29, 1⟩
def PWY_STAT_GRP_MISMATCH_F : Fld := ⟨28, 1⟩
def PWY_STAT_CRC_F : Fld := ⟨27, 1⟩
def PWY_STAT_PORT_UP : Fld := ⟨4, 4⟩
def PWY_STAT_TOPO : Fld := ⟨2, 2⟩
def PWY_STAT_MASTER : Fld := ⟨1, 1⟩
def PWY_STAT_LOCKED : Fld := ⟨0, 1⟩
def PWY_GSTAT_GEPOCH : Fld := ⟨24, 8⟩
def PWY_GSTAT_MASTER_POS : Fld := ⟨16, 5⟩
def PWY_GSTAT_MEMBERS : Fld := ⟨0, 6⟩
def PWY_OFFSET_PS : Fld := ⟨0, 32⟩
def PWY_CRC_ERR_COUNT : Fld := ⟨0, 32⟩
def PWY_TT_STAT_INAUG_F : Fld := ⟨31, 1⟩
def PWY_TT_STAT_GRP_DUP_F : Fld := ⟨30, 1⟩
def PWY_TT_STAT_INAUG_CNT : Fld := ⟨16, 8⟩
def PWY_TT_STAT_STEPPING : Fld := ⟨3, 1⟩
def PWY_TT_STAT_TT_ALIGNED : Fld := ⟨2, 1⟩
def PWY_TT_STAT_TT_VALID : Fld := ⟨1, 1⟩
def PWY_TT_STAT_TT_LOCKED : Fld := ⟨0, 1⟩
def PWY_TT_CFG_DOMAIN : Fld := ⟨24, 8⟩
def PWY_TT_CFG_PRIO1 : Fld := ⟨16, 8⟩
def PWY_TT_CFG_PRIO2 : Fld := ⟨8, 8⟩
def PWY_TT_CFG_P2P : Fld := ⟨0, 1⟩
def PWY_PORT_UP : Fld := ⟨31, 1⟩
def PWY_PORT_UPSTREAM : Fld := ⟨30, 1⟩
def PWY_PORT_DELAY : Fld := ⟨0, 20⟩
def PWY_ASYM_PS : Fld := ⟨0, 16⟩
def PWY_EXP_EN : Fld := ⟨31, 1⟩
def PWY_EXP_EPOCH : Fld := ⟨8, 8⟩
def PWY_EXP_UNSENT : Fld := ⟨0, 8⟩
def PWY_IMP_EN : Fld := ⟨31, 1⟩
def PWY_IMP_POS : Fld := ⟨8, 5⟩
def PWY_IMP_SLOT : Fld := ⟨0, 5⟩
/-! TWN fields. -/
def TWN_CFG_EN : Fld := ⟨31, 1⟩
def TWN_CFG_SIDE : Fld := ⟨30, 1⟩
def TWN_CFG_AUTO_HO : Fld := ⟨29, 1⟩
def TWN_CFG_PF_HO : Fld := ⟨28, 1⟩
def TWN_CMD_KEY : Fld := ⟨16, 16⟩
def TWN_CMD_RELEASE : Fld := ⟨0, 1⟩
def TWN_STAT_LINK_DOWN_F : Fld := ⟨31, 1⟩
def TWN_STAT_DROP_F : Fld := ⟨30, 1⟩
def TWN_STAT_ROLE_CONFLICT_F : Fld := ⟨29, 1⟩
def TWN_STAT_TAKE_REFUSED_F : Fld := ⟨28, 1⟩
def TWN_STAT_HO_OUT : Fld := ⟨5, 1⟩
def TWN_STAT_HO_IN : Fld := ⟨4, 1⟩
def TWN_STAT_DEPOSED : Fld := ⟨3, 1⟩
def TWN_STAT_HEALTHY : Fld := ⟨2, 1⟩
def TWN_STAT_LANES : Fld := ⟨0, 2⟩
def TWN_ROLE_STANDBY : Fld := ⟨16, 12⟩
def TWN_ROLE_ACTIVE : Fld := ⟨0, 12⟩
def TWN_SYNC_ARMED : Fld := ⟨16, 12⟩
def TWN_SYNC_SYNCED : Fld := ⟨0, 12⟩
def TWN_LAST_HO_DIR : Fld := ⟨31, 1⟩
def TWN_LAST_HO_REFUSED : Fld := ⟨30, 1⟩
def TWN_LAST_HO_CAUSE : Fld := ⟨24, 4⟩
def TWN_LAST_HO_SEQ : Fld := ⟨16, 8⟩
def TWN_LAST_HO_SLICES : Fld := ⟨0, 12⟩
def TWN_TX_COUNT : Fld := ⟨0, 32⟩
def TWN_RX_COUNT : Fld := ⟨0, 32⟩
def TWN_DROP_COUNT : Fld := ⟨0, 32⟩
def TWN_PEER_FRESH : Fld := ⟨31, 1⟩
def TWN_PEER_ARMED : Fld := ⟨16, 12⟩
def TWN_PEER_SYNCED : Fld := ⟨0, 12⟩
/-! FLC fields. -/
def FLC_CMD_KEY : Fld := ⟨16, 16⟩
def FLC_CMD_OP : Fld := ⟨0, 4⟩
def FLC_STAT_DONE_F : Fld := ⟨31, 1⟩
def FLC_STAT_ERR_F : Fld := ⟨30, 1⟩
def FLC_STAT_WEAR_F : Fld := ⟨29, 1⟩
def FLC_STAT_SCRUB_F : Fld := ⟨28, 1⟩
def FLC_STAT_REASON : Fld := ⟨24, 4⟩
def FLC_STAT_STATUS : Fld := ⟨20, 4⟩
def FLC_STAT_RESULT : Fld := ⟨0, 16⟩
def FLC_BANK_PEND : Fld := ⟨2, 1⟩
def FLC_BANK_NEXT : Fld := ⟨1, 1⟩
def FLC_BANK_ACTIVE : Fld := ⟨0, 1⟩
def FLC_WARN_RETRY_WARN : Fld := ⟨16, 8⟩
def FLC_WARN_ERASE_TIME_WARN : Fld := ⟨0, 16⟩
def FLC_SCRUB_EN : Fld := ⟨31, 1⟩
def FLC_SCRUB_PERIOD : Fld := ⟨0, 16⟩
def FLC_CTRL_AUTO_SUSP : Fld := ⟨0, 1⟩
def FLC_BSEL_REGION : Fld := ⟨29, 3⟩
def FLC_BSEL_MODE : Fld := ⟨27, 2⟩
def FLC_BSEL_ARRAY : Fld := ⟨22, 2⟩
def FLC_BSEL_BLOCK : Fld := ⟨8, 8⟩
def FLC_BSEL_PAGE : Fld := ⟨0, 8⟩
def FLC_BINFO_ERASE_CNT : Fld := ⟨0, 32⟩
def FLC_BFLAGS_ERASE_INCOMPLETE : Fld := ⟨31, 1⟩
def FLC_BFLAGS_WORN : Fld := ⟨30, 1⟩
def FLC_BFLAGS_WEAR_WARN : Fld := ⟨29, 1⟩
def FLC_BFLAGS_SUSPENDED : Fld := ⟨28, 1⟩
def FLC_BFLAGS_MAX_RETRY : Fld := ⟨16, 8⟩
def FLC_BFLAGS_LAST_ERASE : Fld := ⟨0, 16⟩
def FLC_REGION_PROT : Fld := ⟨31, 1⟩
def FLC_REGION_UNLOCKED : Fld := ⟨30, 1⟩
def FLC_REGION_LOCKED_OUT : Fld := ⟨29, 1⟩
def FLC_REGION_ARRAY : Fld := ⟨24, 2⟩
def FLC_REGION_FIRST : Fld := ⟨16, 8⟩
def FLC_REGION_COUNT : Fld := ⟨8, 8⟩
def FLC_REGION_FAILS : Fld := ⟨0, 2⟩
/-! PWR fields. -/
def PWR_STAT_FAIL_F : Fld := ⟨31, 1⟩
def PWR_STAT_LOW_F : Fld := ⟨30, 1⟩
def PWR_STAT_OV_F : Fld := ⟨29, 1⟩
def PWR_STAT_EL_F : Fld := ⟨28, 1⟩
def PWR_STAT_HOLDUP_LOW : Fld := ⟨5, 1⟩
def PWR_STAT_OV : Fld := ⟨4, 1⟩
def PWR_STAT_DEGRADED : Fld := ⟨3, 1⟩
def PWR_STAT_ON_HOLDUP : Fld := ⟨2, 1⟩
def PWR_STAT_HOLDUP_READY : Fld := ⟨1, 1⟩
def PWR_STAT_INPUT_OK : Fld := ⟨0, 1⟩
def PWR_VIN_VIN : Fld := ⟨0, 16⟩
def PWR_HOLDUP_EST : Fld := ⟨0, 16⟩
def PWR_CLK_SLICE : Fld := ⟨16, 12⟩
def PWR_CLK_CLOCKS : Fld := ⟨0, 7⟩
def PWR_EL_STAT_COUNT : Fld := ⟨16, 16⟩
def PWR_EL_STAT_CONN : Fld := ⟨12, 2⟩
def PWR_EL_STAT_PIN : Fld := ⟨0, 9⟩
def PWR_FAIL_CNT_COUNT : Fld := ⟨0, 32⟩
def PWR_TEMP_HOT_F : Fld := ⟨31, 1⟩
def PWR_TEMP_HOT : Fld := ⟨30, 1⟩
def PWR_TEMP_DIE : Fld := ⟨16, 8⟩
def PWR_TEMP_BASE : Fld := ⟨0, 8⟩
/-! AON fields. -/
def AON_WAKE_EN_SRC : Fld := ⟨0, 10⟩
def AON_WAKE_STAT_SRC : Fld := ⟨0, 10⟩
def AON_RTC_SEC_SEC : Fld := ⟨0, 32⟩
def AON_RTC_SUB_SUB : Fld := ⟨0, 15⟩
def AON_ALARM_SEC : Fld := ⟨0, 32⟩
def AON_CLK_XTAL_OK : Fld := ⟨1, 1⟩
def AON_CLK_XTAL_EN : Fld := ⟨0, 1⟩
def AON_GPIO_GPIOg : Fld := ⟨0, 32⟩
/-! WDG fields. -/
def WDG_CTRL_EN : Fld := ⟨31, 1⟩
def WDG_CTRL_DBG_FREEZE : Fld := ⟨30, 1⟩
def WDG_CTRL_ACT : Fld := ⟨29, 1⟩
def WDG_PERIOD_US : Fld := ⟨0, 24⟩
def WDG_LOWER_US : Fld := ⟨0, 24⟩
def WDG_SVC_KEY : Fld := ⟨0, 16⟩
def WDG_STAT_DBG_RESUMED : Fld := ⟨31, 1⟩
def WDG_STAT_EARLY_F : Fld := ⟨30, 1⟩
def WDG_STAT_KEY_F : Fld := ⟨29, 1⟩
def WDG_STAT_EXP_F : Fld := ⟨28, 1⟩
def WDG_STAT_EXPECT : Fld := ⟨2, 1⟩
def WDG_STAT_RUN : Fld := ⟨1, 1⟩
def WDG_STAT_EXPIRED : Fld := ⟨0, 1⟩
def WDG_CNT_US : Fld := ⟨0, 24⟩
def WDG_REJ_COUNT : Fld := ⟨0, 32⟩
/-! SEC fields. -/
def SEC_LC_REQ_STATUS : Fld := ⟨28, 4⟩
def SEC_LC_STATE : Fld := ⟨0, 4⟩
def SEC_LC_REQ_KEY : Fld := ⟨16, 16⟩
def SEC_LC_REQ_TARGET : Fld := ⟨0, 4⟩
def SEC_MINVER_VERSION : Fld := ⟨0, 32⟩
def SEC_CMD_KEY : Fld := ⟨16, 16⟩
def SEC_CMD_SLOT : Fld := ⟨4, 2⟩
def SEC_CMD_OP : Fld := ⟨0, 4⟩
def SEC_KEYSTAT_REVOKED : Fld := ⟨4, 4⟩
def SEC_KEYSTAT_WRITTEN : Fld := ⟨0, 4⟩
def SEC_BOOT_FAIL : Fld := ⟨4, 4⟩
def SEC_BOOT_SLOT : Fld := ⟨2, 2⟩
def SEC_BOOT_BANKS_OK : Fld := ⟨0, 2⟩
def SEC_POLICY_FIELD_DBG : Fld := ⟨0, 1⟩
def SEC_TAMPER_FLAGS : Fld := ⟨0, 5⟩
def SEC_TAMPER_CFG_ACT : Fld := ⟨8, 2⟩
def SEC_TAMPER_CFG_EN : Fld := ⟨0, 5⟩
def SEC_TAMPER_TIME_SEC : Fld := ⟨0, 32⟩
def SEC_WIPE_CNT_COUNT : Fld := ⟨0, 32⟩
/-! STP fields. -/
def STP_CTRL_SESSION : Fld := ⟨8, 2⟩
def STP_CTRL_LEVEL : Fld := ⟨4, 2⟩
def STP_CTRL_DEST : Fld := ⟨0, 2⟩
def STP_EN_EN : Fld := ⟨0, 24⟩
def STP_STAT_DROP_F : Fld := ⟨31, 1⟩
def STP_STAT_SEQ : Fld := ⟨8, 16⟩
def STP_STAT_FILL : Fld := ⟨0, 4⟩
def STP_DROPS_COUNT : Fld := ⟨0, 32⟩
def STP_FILTERED_COUNT : Fld := ⟨0, 32⟩
def STP_POST_PAYLOAD : Fld := ⟨0, 32⟩
/-! device STP fields. -/
def STP_RING_CFG_EN : Fld := ⟨31, 1⟩
def STP_RING_CFG_LOG2LEN : Fld := ⟨0, 5⟩
def STP_RING_BASE_BASE : Fld := ⟨12, 16⟩
def STP_RING_WIDX_INDEX : Fld := ⟨0, 20⟩
def STP_RING_RIDX_INDEX : Fld := ⟨0, 20⟩
def STP_SYS_EN_LEVEL : Fld := ⟨24, 2⟩
def STP_SYS_EN_EN : Fld := ⟨0, 24⟩
def STP_SYS_DROPS_COUNT : Fld := ⟨0, 32⟩
def STP_SYS_FILTERED_COUNT : Fld := ⟨0, 32⟩
def STP_SYS_POST_PAYLOAD : Fld := ⟨0, 32⟩
/-! DBG fields. -/
def DBG_STAT_AVAIL : Fld := ⟨31, 1⟩
def DBG_STAT_SESSIONS : Fld := ⟨0, 3⟩
def DBG_AUTH_FAIL_COUNT : Fld := ⟨0, 32⟩
def DBG_TESTOUT_MASK : Fld := ⟨0, 8⟩
/-! PTB fields. -/
def PTB_CTRL_EN : Fld := ⟨31, 1⟩
def PTB_CTRL_END : Fld := ⟨0, 3⟩
def PTB_ACTIVE_KINDS : Fld := ⟨0, 7⟩
def PTB_BANK_MASTER : Fld := ⟨8, 3⟩
def PTB_BANK_CYCLES : Fld := ⟨0, 4⟩
def PTB_SAR_MASK : Fld := ⟨16, 4⟩
def PTB_SAR_STRETCH : Fld := ⟨0, 6⟩
def PTB_CLE_DELAY : Fld := ⟨0, 4⟩
def PTB_DMA_CH : Fld := ⟨16, 16⟩
def PTB_DMA_DELAY : Fld := ⟨0, 10⟩
def PTB_DB_FN : Fld := ⟨16, 16⟩
def PTB_DB_DELAY : Fld := ⟨0, 10⟩
def PTB_EVT_ALL : Fld := ⟨31, 1⟩
def PTB_EVT_SRC : Fld := ⟨16, 10⟩
def PTB_EVT_DELAY : Fld := ⟨0, 8⟩
def PTB_PWY_PORTS : Fld := ⟨24, 4⟩
def PTB_PWY_FAULT : Fld := ⟨16, 2⟩
def PTB_PWY_EVERY : Fld := ⟨0, 8⟩
def PTB_REJ_COUNT : Fld := ⟨0, 32⟩

end F

/-- Register rows of the DEV unit. -/
def tableDEV : List RegDesc :=
  [ /- DEV_MODE -/ ⟨0x8, 0x4, 1, 0x4, 1, 0x707, 0x0, 0x0, 0x0, 0x0, 0x0⟩,
    /- DEV_MODE_REQ -/ ⟨0xC, 0x4, 1, 0x4, 1, 0x0, 0x0, 0x0, 0x0, 0x0, 0xFFFF0007⟩,
    /- DEV_ARM -/ ⟨0x10, 0x4, 1, 0x4, 1, 0x0, 0x0, 0x0, 0x0, 0xFFF, 0x0⟩,
    /- DEV_DISARM -/ ⟨0x14, 0x4, 1, 0x4, 1, 0x0, 0x0, 0x0, 0x0, 0x0, 0xFFF⟩,
    /- DEV_ARM_REJ -/ ⟨0x18, 0x4, 1, 0x4, 1, 0x0, 0x0, 0x0, 0xFFFFFFFF, 0x0, 0x0⟩,
    /- DEV_BOOT_STAT -/ ⟨0x1C, 0x4, 1, 0x4, 1, 0x0, 0x0, 0x0, 0x0, 0x0, 0x0⟩,
    /- DEV_ID -/ ⟨0x0, 0x4, 1, 0x4, 1, 0xE5C2100, 0x0, 0x0, 0x0, 0x0, 0x0⟩,
    /- DEV_VARIANT -/ ⟨0x4, 0x4, 1, 0x4, 1, 0x0, 0x0, 0x0, 0x0, 0x0, 0x0⟩,
    /- DEV_SLC_FITTED -/ ⟨0x20, 0x4, 1, 0x4, 1, 0x0, 0x0, 0x0, 0x0, 0x0, 0x0⟩,
    /- DEV_SLC_ASSIGN[n] -/ ⟨0x40, 0x4, 12, 0x4, 1, 0x1F, 0x1F, 0x0, 0x0, 0x0, 0x0⟩ ]

/-- Register rows of the SLC unit. -/
def tableSLC : List RegDesc :=
  [ /- SLC_ID -/ ⟨0x0, 0x4, 1, 0x4, 1, 0x0, 0x0, 0x0, 0x0, 0x0, 0x0⟩,
    /- SLC_STATE -/ ⟨0x4, 0x4, 1, 0x4, 1, 0x1, 0x0, 0x0, 0x0, 0x0, 0x0⟩,
    /- SLC_CAPS -/ ⟨0x8, 0x4, 1, 0x4, 1, 0x0, 0x0, 0x0, 0x0, 0x0, 0x0⟩,
    /- SLC_CMD -/ ⟨0xC, 0x4, 1, 0x4, 1, 0x0, 0x0, 0x0, 0x0, 0x0, 0xFFFF010F⟩,
    /- SLC_CMD_STAT -/ ⟨0x10, 0x4, 1, 0x4, 1, 0x0, 0x0, 0x0, 0x0, 0x0, 0x0⟩,
    /- SLC_ARM -/ ⟨0x14, 0x4, 1, 0x4, 1, 0x0, 0x0, 0x0, 0x0, 0x1, 0x2⟩,
    /- SLC_FAULT -/ ⟨0x18, 0x4, 1, 0x4, 1, 0x0, 0x0, 0x80000000, 0x0, 0x0, 0x0⟩,
    /- SLC_OWNER -/ ⟨0x1C, 0x4, 1, 0x4, 1, 0x1F, 0x0, 0x0, 0x0, 0x0, 0x0⟩,
    /- SLC_TRIP -/ ⟨0x20, 0x4, 1, 0x4, 1, 0x0, 0x0, 0x0, 0x0, 0x0, 0xFF⟩,
    /- SLC_CFG_REJ -/ ⟨0x24, 0x4, 1, 0x4, 1, 0x0, 0x0, 0x0, 0xFFFFFFFF, 0x0, 0x0⟩,
    /- SLC_TRIPIN[t] -/ ⟨0x100, 0x4, 4, 0x4, 1, 0x0, 0x1FF, 0x0, 0x0, 0x0, 0x0⟩,
    /- SLC_CAPCFG[c] -/ ⟨0x140, 0x10, 4, 0x4, 1, 0x0, 0x7FF, 0x0, 0x0, 0x0, 0x0⟩ ] ++
  [ /- SLC_CAPTS[c] -/ ⟨0x144, 0x10, 4, 0x4, 1, 0x0, 0x0, 0x0, 0xFFFFFFFF, 0x0, 0x0⟩,
    /- SLC_CAPSTAT[c] -/ ⟨0x148, 0x10, 4, 0x4, 1, 0x0, 0x0, 0x0, 0xFFFF0000, 0x0, 0x0⟩,
    /- SLC_ENC -/ ⟨0x180, 0x4, 1, 0x4, 1, 0x0, 0x3, 0x0, 0xFFFF0000, 0x0, 0x0⟩,
    /- SLC_ENC_POS -/ ⟨0x184, 0x4, 1, 0x4, 1, 0x0, 0x0, 0x0, 0x0, 0x0, 0x0⟩,
    /- SLC_REC_STAT -/ ⟨0x1C0, 0x4, 1, 0x4, 1, 0x0, 0x0, 0x80000000, 0x0, 0x0, 0x0⟩,
    /- SLC_REC_CNT -/ ⟨0x1C4, 0x4, 1, 0x4, 1, 0x0, 0x0, 0x0, 0xFFFFFFFF, 0x0, 0x0⟩ ]

/-- Register rows of the GRG unit. -/
def tableGRG : List RegDesc :=
  [ /- GRG_STATE -/ ⟨0x0, 0x4, 1, 0x4, 1, 0x0, 0x0, 0x0, 0x0, 0x0, 0x0⟩,
    /- GRG_RAW -/ ⟨0x4, 0x4, 1, 0x4, 1, 0x0, 0x0, 0x0, 0x0, 0x0, 0x0⟩,
    /- GRG_CAPSEL -/ ⟨0x8, 0x4, 1, 0x4, 1, 0x0, 0xFFFF, 0x0, 0x0, 0x0, 0x0⟩,
    /- GRG_ARM_REJ -/ ⟨0xC, 0x4, 1, 0x4, 1, 0x0, 0x0, 0x0, 0xFFFFFFFF, 0x0, 0x0⟩,
    /- GRG_TEST_REJ -/ ⟨0x10, 0x4, 1, 0x4, 1, 0x0, 0x0, 0x0, 0xFFFFFFFF, 0x0, 0x0⟩,
    /- GRG_CFG_REJ -/ ⟨0x14, 0x4, 1, 0x4, 1, 0x0, 0x0, 0x0, 0xFFFFFFFF, 0x0, 0x0⟩,
    /- GRG_IN[i] -/ ⟨0x100, 0x20, 12, 0x4, 1, 0x0, 0x1, 0x80000000, 0x0, 0x0, 0x0⟩,
    /- GRG_THR[i] -/ ⟨0x104, 0x20, 12, 0x4, 1, 0xFFF0000, 0xFFF0FFF, 0x0, 0x0, 0x0, 0x0⟩,
    /- GRG_WCFG[i] -/ ⟨0x108, 0x20, 12, 0x4, 1, 0x0, 0xFE77, 0x0, 0x0, 0x0, 0x0⟩,
    /- GRG_TEST[i] -/ ⟨0x10C, 0x20, 12, 0x4, 1, 0x0, 0x107, 0x0, 0x0, 0x0, 0x0⟩,
    /- GRG_WSTAT[i] -/ ⟨0x110, 0x20, 12, 0x4, 1, 0x0, 0x0, 0xC0000000, 0x0, 0x0, 0x0⟩,
    /- GRG_TRANS[i] -/ ⟨0x114, 0x20, 12, 0x4, 1, 0x0, 0x0, 0x0, 0xFFFFFFFF, 0x0, 0x0⟩ ]

/-- Register rows of the SAR unit. -/
def tableSAR : List RegDesc :=
  [ /- SAR_CTRL -/ ⟨0x0, 0x4, 1, 0x4, 1, 0x0, 0x0, 0x0, 0x0, 0x1, 0x0⟩,
    /- SAR_CFG_REJ -/ ⟨0x4, 0x4, 1, 0x4, 1, 0x0, 0x0, 0x0, 0xFFFFFFFF, 0x0, 0x0⟩,
    /- SAR_TRIG[s] -/ ⟨0x100, 0x40, 4, 0x4, 1, 0x0, 0xC3FF0737, 0x0, 0x0, 0x0, 0x0⟩,
    /- SAR_PP[s] -/ ⟨0x104, 0x40, 4, 0x4, 1, 0x0, 0xF8FFFFFF, 0x0, 0x0, 0x0, 0x0⟩,
    /- SAR_MBUF[s] -/ ⟨0x108, 0x40, 4, 0x4, 1, 0x40000000, 0xF007FFF8, 0x0, 0x0, 0x0, 0x0⟩,
    /- SAR_MIDX[s] -/ ⟨0x10C, 0x40, 4, 0x4, 1, 0x0, 0x0, 0x0, 0x0, 0x0, 0x0⟩,
    /- SAR_ENT[s,e] -/ ⟨0x110, 0x40, 4, 0x4, 3, 0x203000, 0xFFFFFC03, 0x0, 0x0, 0x0, 0x0⟩,
    /- SAR_SWTRIG[s] -/ ⟨0x11C, 0x40, 4, 0x4, 1, 0x0, 0x0, 0x0, 0x0, 0x0, 0x1⟩,
    /- SAR_STAT[s] -/ ⟨0x120, 0x40, 4, 0x4, 1, 0x0, 0x0, 0x78, 0x0, 0x0, 0x0⟩,
    /- SAR_OVR[s] -/ ⟨0x124, 0x40, 4, 0x4, 1, 0x0, 0x0, 0x0, 0xFFFFFFFF, 0x0, 0x0⟩,
    /- SAR_RES[s,e] -/ ⟨0x128, 0x40, 4, 0x4, 3, 0x0, 0x0, 0x0, 0x0, 0x0, 0x0⟩,
    /- SAR_CAL[i] -/ ⟨0x200, 0x8, 12, 0x4, 1, 0x80000000, 0xFFFFFFFF, 0x0, 0x0, 0x0, 0x0⟩ ] ++
  [ /- SAR_HIL[i] -/ ⟨0x204, 0x8, 12, 0x4, 1, 0x0, 0x0, 0x0, 0xFFFFFF00, 0x0, 0x0⟩ ]

/-- Register rows of the CLE unit. -/
def tableCLE : List RegDesc :=
  [ /- CLE_STAT -/ ⟨0x0, 0x4, 1, 0x4, 1, 0x0, 0x0, 0x0, 0x0, 0x0, 0x0⟩,
    /- CLE_SWTRIG -/ ⟨0x4, 0x4, 1, 0x4, 1, 0x0, 0x0, 0x0, 0x0, 0x0, 0xFFFF⟩,
    /- CLE_CMD -/ ⟨0x8, 0x4, 1, 0x4, 1, 0x0, 0x0, 0x0, 0x0, 0x0, 0xFFFF0F07⟩,
    /- CLE_CMD_STAT -/ ⟨0xC, 0x4, 1, 0x4, 1, 0x0, 0x0, 0x0, 0x0, 0x0, 0x0⟩,
    /- CLE_CFG_REJ -/ ⟨0x10, 0x4, 1, 0x4, 1, 0x0, 0x0, 0x0, 0xFFFFFFFF, 0x0, 0x0⟩,
    /- CLE_WRCOLL -/ ⟨0x14, 0x4, 1, 0x4, 1, 0x0, 0x0, 0x0, 0xFFFFFFFF, 0x0, 0x0⟩,
    /- CLE_MISMATCH -/ ⟨0x18, 0x4, 1, 0x4, 1, 0x0, 0x0, 0x0, 0xFFFFFFFF, 0x0, 0x0⟩,
    /- CLE_LCTRL[j] -/ ⟨0x100, 0x40, 16, 0x4, 1, 0xC000020, 0xFFFF1FFF, 0x0, 0x0, 0x0, 0x0⟩,
    /- CLE_LSTAT[j] -/ ⟨0x104, 0x40, 16, 0x4, 1, 0xB00, 0x0, 0xF8000000, 0x0, 0x0, 0x0⟩,
    /- CLE_TGT[j] -/ ⟨0x108, 0x40, 16, 0x4, 1, 0x0, 0xC0F7FFFC, 0x0, 0x0, 0x0, 0x0⟩,
    /- CLE_REF[j] -/ ⟨0x10C, 0x40, 16, 0x4, 1, 0x0, 0xFFFF, 0x0, 0x0, 0x0, 0x0⟩,
    /- CLE_IN[j] -/ ⟨0x110, 0x40, 16, 0x4, 1, 0x0, 0xFFFF, 0x0, 0x0, 0x0, 0x0⟩ ] ++
  [ /- CLE_OUT[j] -/ ⟨0x114, 0x40, 16, 0x4, 1, 0x0, 0x0, 0x0, 0x0, 0x0, 0x0⟩,
    /- CLE_CLAMP[j] -/ ⟨0x118, 0x40, 16, 0x4, 1, 0x7FFF8000, 0xFFFFFFFF, 0x0, 0x0, 0x0, 0x0⟩,
    /- CLE_MAN[j] -/ ⟨0x11C, 0x40, 16, 0x4, 1, 0x0, 0xFFFF, 0x0, 0x0, 0x0, 0x0⟩,
    /- CLE_CB0[j,k] -/ ⟨0x120, 0x40, 16, 0x10, 2, 0x0, 0xFFFFFFFF, 0x0, 0x0, 0x0, 0x0⟩,
    /- CLE_CB1[j,k] -/ ⟨0x124, 0x40, 16, 0x10, 2, 0x0, 0xFFFFFFFF, 0x0, 0x0, 0x0, 0x0⟩,
    /- CLE_CB2[j,k] -/ ⟨0x128, 0x40, 16, 0x10, 2, 0x0, 0xFFFFFFFF, 0x0, 0x0, 0x0, 0x0⟩,
    /- CLE_CB3[j,k] -/ ⟨0x12C, 0x40, 16, 0x10, 2, 0x0, 0xFFFFF, 0x0, 0x0, 0x0, 0x0⟩,
    /- CLE_H0[j] -/ ⟨0x800, 0x10, 16, 0x4, 1, 0x0, 0xFFFFFFFF, 0x0, 0x0, 0x0, 0x0⟩,
    /- CLE_H1[j] -/ ⟨0x804, 0x10, 16, 0x4, 1, 0x0, 0xFFFFFFFF, 0x0, 0x0, 0x0, 0x0⟩,
    /- CLE_H2[j] -/ ⟨0x808, 0x10, 16, 0x4, 1, 0x0, 0xFFFFFFFF, 0x0, 0x0, 0x0, 0x0⟩,
    /- CLE_OVR[j] -/ ⟨0x80C, 0x10, 16, 0x4, 1, 0x0, 0x0, 0x0, 0xFFFFFFFF, 0x0, 0x0⟩ ]

/-- Register rows of the MCS unit. -/
def tableMCS : List RegDesc :=
  [ /- MCS_CTRL -/ ⟨0x0, 0x4, 1, 0x4, 1, 0x4, 0x7, 0x0, 0x0, 0x0, 0x0⟩,
    /- MCS_STAT -/ ⟨0x4, 0x4, 1, 0x4, 1, 0x0, 0x0, 0xF8000000, 0x0, 0x0, 0x0⟩,
    /- MCS_VER -/ ⟨0x8, 0x4, 1, 0x4, 1, 0x0, 0x0, 0x0, 0x0, 0x0, 0x0⟩,
    /- MCS_LD_STAT -/ ⟨0xC, 0x4, 1, 0x4, 1, 0x0, 0x0, 0x0, 0x0, 0x0, 0x0⟩,
    /- MCS_LD_REJ -/ ⟨0x10, 0x4, 1, 0x4, 1, 0x0, 0x0, 0x0, 0xFFFFFFFF, 0x0, 0x0⟩,
    /- MCS_LD_CRC -/ ⟨0x14, 0x4, 1, 0x4, 1, 0x0, 0x0, 0x0, 0x0, 0x0, 0x0⟩,
    /- MCS_PARITY -/ ⟨0x18, 0x4, 1, 0x4, 1, 0x0, 0x0, 0x0, 0xFFFF0000, 0x0, 0x0⟩,
    /- MCS_SCAN_REP -/ ⟨0x1C, 0x4, 1, 0x4, 1, 0x0, 0x0, 0x0, 0xFFFF0000, 0x0, 0x0⟩,
    /- MCS_RERR -/ ⟨0x20, 0x4, 1, 0x4, 1, 0x0, 0x0, 0x80000000, 0x0, 0x0, 0x0⟩,
    /- MCS_RERR_CNT -/ ⟨0x24, 0x4, 1, 0x4, 1, 0x0, 0x0, 0x0, 0xFFFFFFFF, 0x0, 0x0⟩,
    /- MCS_DWR -/ ⟨0x28, 0x4, 1, 0x4, 1, 0x0, 0x0, 0x1FFFF, 0x0, 0x0, 0x0⟩,
    /- MCS_XCFG -/ ⟨0x2C, 0x4, 1, 0x4, 1, 0xA, 0xFF, 0x0, 0x0, 0x0, 0x0⟩ ] ++
  [ /- MCS_XSTAT -/ ⟨0x30, 0x4, 1, 0x4, 1, 0x0, 0x0, 0x0, 0xFFFFFF00, 0x0, 0x0⟩,
    /- MCS_XT[k] -/ ⟨0x200, 0x4, 128, 0x4, 1, 0x0, 0x80000FFF, 0x0, 0x0, 0x0, 0x0⟩ ]

/-- Register rows of the PWM unit. -/
def tablePWM : List RegDesc :=
  [ /- PWM_CTRL -/ ⟨0x0, 0x4, 1, 0x4, 1, 0x0, 0x8FF7330F, 0x0, 0x0, 0x0, 0x0⟩,
    /- PWM_PER -/ ⟨0x4, 0x4, 1, 0x4, 1, 0x927C, 0xFFFFFF, 0x0, 0x0, 0x0, 0x0⟩,
    /- PWM_CMP -/ ⟨0x8, 0x4, 1, 0x4, 1, 0x0, 0xFFFFFFF, 0x0, 0x0, 0x0, 0x0⟩,
    /- PWM_DT -/ ⟨0xC, 0x4, 1, 0x4, 1, 0x0, 0xFFFFF, 0x0, 0x0, 0x0, 0x0⟩,
    /- PWM_PHASE -/ ⟨0x10, 0x4, 1, 0x4, 1, 0x0, 0x1FFFFFF, 0x0, 0x0, 0x0, 0x0⟩,
    /- PWM_EVCFG -/ ⟨0x14, 0x4, 1, 0x4, 1, 0x0, 0xFFFFFFFF, 0x0, 0x0, 0x0, 0x0⟩,
    /- PWM_CNT -/ ⟨0x18, 0x4, 1, 0x4, 1, 0x0, 0x0, 0x0, 0x0, 0x0, 0x0⟩,
    /- PWM_ACT_PER -/ ⟨0x1C, 0x4, 1, 0x4, 1, 0x927C, 0x0, 0x0, 0x0, 0x0, 0x0⟩,
    /- PWM_ACT_CMP -/ ⟨0x20, 0x4, 1, 0x4, 1, 0x0, 0x0, 0x0, 0x0, 0x0, 0x0⟩,
    /- PWM_ACT_DT -/ ⟨0x24, 0x4, 1, 0x4, 1, 0x0, 0x0, 0x0, 0x0, 0x0, 0x0⟩,
    /- PWM_STAT -/ ⟨0x28, 0x4, 1, 0x4, 1, 0x10, 0x0, 0xFC000000, 0x0, 0x0, 0x0⟩,
    /- PWM_WRCOLL -/ ⟨0x2C, 0x4, 1, 0x4, 1, 0x0, 0x0, 0x0, 0xFFFFFFFF, 0x0, 0x0⟩ ] ++
  [ /- PWM_SWALLOW -/ ⟨0x30, 0x4, 1, 0x4, 1, 0x0, 0x0, 0x0, 0xFFFFFFFF, 0x0, 0x0⟩,
    /- PWM_SYNCCORR -/ ⟨0x34, 0x4, 1, 0x4, 1, 0x0, 0x0, 0x0, 0xFFFF0000, 0x0, 0x0⟩,
    /- PWM_CFG_REJ -/ ⟨0x38, 0x4, 1, 0x4, 1, 0x0, 0x0, 0x0, 0xFFFFFFFF, 0x0, 0x0⟩,
    /- PWM_TRIP_EN -/ ⟨0x80, 0x4, 1, 0x4, 1, 0x0, 0xFFFFF, 0x0, 0x0, 0x0, 0x0⟩,
    /- PWM_TRIP_CFG -/ ⟨0x84, 0x4, 1, 0x4, 1, 0x0, 0x133, 0x0, 0x0, 0x0, 0x0⟩,
    /- PWM_TRIP_CMD -/ ⟨0x88, 0x4, 1, 0x4, 1, 0x0, 0x0, 0x0, 0x0, 0x0, 0x3⟩,
    /- PWM_TRIP_STAT -/ ⟨0x8C, 0x4, 1, 0x4, 1, 0x0, 0x0, 0x80000000, 0x0, 0x0, 0x0⟩,
    /- PWM_TRIP_SRC -/ ⟨0x90, 0x4, 1, 0x4, 1, 0x0, 0x0, 0x0, 0x0, 0x0, 0x0⟩,
    /- PWM_TRIP_TIME -/ ⟨0x94, 0x4, 1, 0x4, 1, 0x0, 0x0, 0x0, 0x0, 0x0, 0x0⟩,
    /- PWM_TRIP_CNT -/ ⟨0x98, 0x4, 1, 0x4, 1, 0x0, 0x0, 0x0, 0xFFFFFFFF, 0x0, 0x0⟩,
    /- PWM_TRIP_REJ -/ ⟨0x9C, 0x4, 1, 0x4, 1, 0x0, 0x0, 0x0, 0xFFFFFFFF, 0x0, 0x0⟩ ]

/-- Register rows of the INJ unit. -/
def tableINJ : List RegDesc :=
  [ /- INJ_CTRL -/ ⟨0x0, 0x4, 1, 0x4, 1, 0x0, 0x3CF0C00, 0x0, 0x0, 0x80000000, 0x40000000⟩,
    /- INJ_SIG -/ ⟨0x4, 0x4, 1, 0x4, 1, 0x0, 0xFFFFFF, 0x0, 0x0, 0x0, 0x0⟩,
    /- INJ_FREQ -/ ⟨0x8, 0x4, 1, 0x4, 1, 0x0, 0xFFFFFFFF, 0x0, 0x0, 0x0, 0x0⟩,
    /- INJ_FEND -/ ⟨0xC, 0x4, 1, 0x4, 1, 0x0, 0xFFFFFFFF, 0x0, 0x0, 0x0, 0x0⟩,
    /- INJ_RATE -/ ⟨0x10, 0x4, 1, 0x4, 1, 0x0, 0xFFFFFFFF, 0x0, 0x0, 0x0, 0x0⟩,
    /- INJ_CAP -/ ⟨0x14, 0x4, 1, 0x4, 1, 0x40000000, 0xFFC7FFFC, 0x0, 0x0, 0x0, 0x0⟩,
    /- INJ_CORR -/ ⟨0x18, 0x4, 1, 0x4, 1, 0x100000, 0xFFFFFFFF, 0x0, 0x0, 0x0, 0x0⟩,
    /- INJ_STAT -/ ⟨0x1C, 0x4, 1, 0x4, 1, 0x0, 0x0, 0xF0000000, 0x0, 0x0, 0x0⟩,
    /- INJ_CIDX -/ ⟨0x20, 0x4, 1, 0x4, 1, 0x0, 0x0, 0x0, 0x0, 0x0, 0x0⟩,
    /- INJ_REJ -/ ⟨0x24, 0x4, 1, 0x4, 1, 0x0, 0x0, 0x0, 0xFFFFFFFF, 0x0, 0x0⟩,
    /- INJ_CAP_OVR -/ ⟨0x28, 0x4, 1, 0x4, 1, 0x0, 0x0, 0x0, 0xFFFFFFFF, 0x0, 0x0⟩,
    /- INJ_ACC_LO[m] -/ ⟨0x40, 0x8, 4, 0x4, 1, 0x0, 0x0, 0x0, 0x0, 0x0, 0x0⟩ ] ++
  [ /- INJ_ACC_HI[m] -/ ⟨0x44, 0x8, 4, 0x4, 1, 0x0, 0x0, 0x0, 0x0, 0x0, 0x0⟩,
    /- INJ_LIM[j] -/ ⟨0x80, 0x4, 16, 0x4, 1, 0x0, 0xFFFF, 0x0, 0x0, 0x0, 0x0⟩ ]

/-- Register rows of the MAD unit. -/
def tableMAD : List RegDesc :=
  [ /- MAD_CTRL -/ ⟨0x0, 0x4, 1, 0x4, 1, 0x0, 0xF310F0F, 0x0, 0x0, 0x0, 0x0⟩,
    /- MAD_STAT -/ ⟨0x4, 0x4, 1, 0x4, 1, 0x0, 0x0, 0xF0000000, 0x0, 0x0, 0x0⟩,
    /- MAD_SCAN -/ ⟨0x8, 0x4, 1, 0x4, 1, 0x0, 0xFFFF, 0x0, 0x0, 0x0, 0x0⟩,
    /- MAD_PERIOD -/ ⟨0xC, 0x4, 1, 0x4, 1, 0x0, 0x0, 0x0, 0x0, 0x0, 0x0⟩,
    /- MAD_BUF -/ ⟨0x10, 0x4, 1, 0x4, 1, 0x40000000, 0xF07FFFF0, 0x0, 0x0, 0x0, 0x0⟩,
    /- MAD_WIDX -/ ⟨0x14, 0x4, 1, 0x4, 1, 0x0, 0x0, 0x0, 0x0, 0x0, 0x0⟩,
    /- MAD_RIDX -/ ⟨0x18, 0x4, 1, 0x4, 1, 0x0, 0xFFFF, 0x0, 0x0, 0x0, 0x0⟩,
    /- MAD_WMARK -/ ⟨0x1C, 0x4, 1, 0x4, 1, 0x0, 0xFFFF, 0x0, 0x0, 0x0, 0x0⟩,
    /- MAD_URG -/ ⟨0x20, 0x4, 1, 0x4, 1, 0x0, 0x0, 0x0, 0x0, 0x0, 0x8000000F⟩,
    /- MAD_URG_RES -/ ⟨0x24, 0x4, 1, 0x4, 1, 0x0, 0x0, 0x0, 0x0, 0x0, 0x0⟩,
    /- MAD_URG_STAT -/ ⟨0x28, 0x4, 1, 0x4, 1, 0x0, 0x0, 0x80000000, 0x0, 0x0, 0x0⟩,
    /- MAD_BUF_OVR -/ ⟨0x2C, 0x4, 1, 0x4, 1, 0x0, 0x0, 0x0, 0xFFFFFFFF, 0x0, 0x0⟩ ] ++
  [ /- MAD_CFG_REJ -/ ⟨0x30, 0x4, 1, 0x4, 1, 0x0, 0x0, 0x0, 0xFFFFFFFF, 0x0, 0x0⟩,
    /- MAD_OFFS[ch] -/ ⟨0x100, 0x8, 16, 0x4, 1, 0x0, 0xFFFFFF, 0x0, 0x0, 0x0, 0x0⟩,
    /- MAD_GAIN[ch] -/ ⟨0x104, 0x8, 16, 0x4, 1, 0x40000000, 0xFFFFFFFF, 0x0, 0x0, 0x0, 0x0⟩,
    /- MAD_LAST[ch] -/ ⟨0x200, 0x4, 16, 0x4, 1, 0x0, 0x0, 0x0, 0x0, 0x0, 0x0⟩ ]

/-- Register rows of the KC unit. -/
def tableKC : List RegDesc :=
  [ /- KC_VEC -/ ⟨0x100, 0x4, 1, 0x4, 1, 0x0, 0x71FFFF, 0x0, 0x0, 0x0, 0x0⟩,
    /- KC_CSEL -/ ⟨0x104, 0x4, 1, 0x4, 1, 0x10000000, 0x700, 0x0, 0x0, 0x0, 0x0⟩,
    /- KC_FAULT -/ ⟨0x108, 0x4, 1, 0x4, 1, 0x0, 0x0, 0x80000000, 0x0, 0x0, 0x0⟩,
    /- KC_FADDR -/ ⟨0x10C, 0x4, 1, 0x4, 1, 0x0, 0x0, 0x0, 0x0, 0x0, 0x0⟩,
    /- KC_FPC -/ ⟨0x110, 0x4, 1, 0x4, 1, 0x0, 0x0, 0x0, 0x0, 0x0, 0x0⟩,
    /- KC_LINK -/ ⟨0x114, 0x4, 1, 0x4, 1, 0x0, 0x0, 0x0, 0xFFFF0000, 0x0, 0x0⟩,
    /- KC_CSET[s] -/ ⟨0x120, 0x4, 1, 0x4, 1, 0xFF, 0xFF, 0x0, 0x0, 0x0, 0x0⟩,
    /- KC_CSET[s] -/ ⟨0x124, 0x4, 7, 0x4, 1, 0x0, 0xFF, 0x0, 0x0, 0x0, 0x0⟩,
    /- KC_FPE[k] -/ ⟨0x140, 0x4, 8, 0x4, 1, 0x0, 0xFFF1FFFF, 0x0, 0x0, 0x0, 0x0⟩,
    /- KC_KEYS[s] -/ ⟨0x160, 0x4, 1, 0x4, 1, 0xFFFF, 0xFFFFFFFF, 0x0, 0x0, 0x0, 0x0⟩,
    /- KC_KEYS[s] -/ ⟨0x164, 0x4, 7, 0x4, 1, 0xFFFF0000, 0xFFFFFFFF, 0x0, 0x0, 0x0, 0x0⟩,
    /- KC_LS_STAT -/ ⟨0x0, 0x4, 1, 0x4, 1, 0x0, 0x0, 0x80000000, 0x0, 0x0, 0x0⟩ ] ++
  [ /- KC_LS_DIV -/ ⟨0x4, 0x4, 1, 0x4, 1, 0x0, 0x0, 0x0, 0xFFFFFFFF, 0x0, 0x0⟩,
    /- KC_LS_LAST -/ ⟨0x8, 0x4, 1, 0x4, 1, 0x0, 0x0, 0x0, 0x0, 0x0, 0x0⟩,
    /- KC_LS_ADDR -/ ⟨0xC, 0x4, 1, 0x4, 1, 0x0, 0x0, 0x0, 0x0, 0x0, 0x0⟩,
    /- KC_LS_XOR -/ ⟨0x10, 0x4, 1, 0x4, 1, 0x0, 0x0, 0x0, 0x0, 0x0, 0x0⟩,
    /- KC_LS_INJ -/ ⟨0x14, 0x4, 1, 0x4, 1, 0x0, 0x0, 0x0, 0x0, 0x0, 0x0⟩ ]

/-- Register rows of the MEM unit. -/
def tableMEM : List RegDesc :=
  [ /- MEM_STAT -/ ⟨0x0, 0x4, 1, 0x4, 1, 0x0, 0x0, 0xC0000000, 0x0, 0x0, 0x0⟩,
    /- MEM_RET -/ ⟨0x4, 0x4, 1, 0x4, 1, 0x0, 0xF, 0x0, 0x0, 0x0, 0x0⟩,
    /- MEM_MARCH -/ ⟨0x8, 0x4, 1, 0x4, 1, 0x0, 0x0, 0x0, 0x0, 0x0, 0xFFFF011F⟩,
    /- MEM_MARCH_STAT -/ ⟨0xC, 0x4, 1, 0x4, 1, 0x0, 0x0, 0x0, 0x0, 0x0, 0x0⟩,
    /- MEM_MARCH_FADDR -/ ⟨0x10, 0x4, 1, 0x4, 1, 0x0, 0x0, 0x0, 0x0, 0x0, 0x0⟩,
    /- MEM_UE_ADDR -/ ⟨0x14, 0x4, 1, 0x4, 1, 0x0, 0x0, 0x0, 0x0, 0x0, 0x0⟩,
    /- MEM_ECC_CNT -/ ⟨0x18, 0x4, 1, 0x4, 1, 0x0, 0x0, 0x0, 0xFFFFFFFF, 0x0, 0x0⟩,
    /- MEM_CONF[n,m] -/ ⟨0x100, 0x20, 12, 0x4, 5, 0x0, 0x0, 0x0, 0xFFFFFFFF, 0x0, 0x0⟩,
    /- MEM_SLC_ECC[n] -/ ⟨0x114, 0x20, 12, 0x4, 1, 0x0, 0x0, 0x0, 0xFFFFFFFF, 0x0, 0x0⟩ ]

/-- Register rows of the MMC unit. -/
def tableMMC : List RegDesc :=
  [ /- MMC_STAT -/ ⟨0x0, 0x4, 1, 0x4, 1, 0x0, 0x0, 0xC0000000, 0x0, 0x0, 0x0⟩,
    /- MMC_SCRUB -/ ⟨0x4, 0x4, 1, 0x4, 1, 0xA, 0x3FF, 0x0, 0x0, 0x0, 0x0⟩,
    /- MMC_CFG -/ ⟨0x8, 0x4, 1, 0x4, 1, 0x10, 0xFF, 0x0, 0x0, 0x0, 0x0⟩,
    /- MMC_ECC[c] -/ ⟨0x10, 0x10, 2, 0x4, 1, 0x0, 0x0, 0x0, 0xFFFFFFFF, 0x0, 0x0⟩,
    /- MMC_UE_ADDR[c] -/ ⟨0x14, 0x10, 2, 0x4, 1, 0x0, 0x0, 0x0, 0x0, 0x0, 0x0⟩,
    /- MMC_SCRUB_POS[c] -/ ⟨0x18, 0x10, 2, 0x4, 1, 0x0, 0x0, 0x0, 0x0, 0x0, 0x0⟩,
    /- MMC_SCRUB_CNT[c] -/ ⟨0x1C, 0x10, 2, 0x4, 1, 0x0, 0x0, 0x0, 0x0, 0x0, 0x0⟩ ]

/-- Register rows of the EVR unit. -/
def tableEVR : List RegDesc :=
  [ /- EVR_STAT -/ ⟨0x0, 0x4, 1, 0x4, 1, 0x0, 0x0, 0xC0000000, 0x0, 0x0, 0x0⟩,
    /- EVR_CFG_REJ -/ ⟨0x4, 0x4, 1, 0x4, 1, 0x0, 0x0, 0x0, 0xFFFFFFFF, 0x0, 0x0⟩,
    /- EVR_MERGED -/ ⟨0x8, 0x4, 1, 0x4, 1, 0x0, 0x0, 0x0, 0xFFFFFFFF, 0x0, 0x0⟩,
    /- EVR_BADACK -/ ⟨0xC, 0x4, 1, 0x4, 1, 0x0, 0x0, 0x0, 0xFFFFFFFF, 0x0, 0x0⟩,
    /- EVR_SYS_ACK -/ ⟨0x10, 0x4, 1, 0x4, 1, 0x0, 0x0, 0x0, 0x0, 0x0, 0x3FF⟩,
    /- EVR_ORPH_OVF -/ ⟨0x14, 0x4, 1, 0x4, 1, 0x0, 0x0, 0x0, 0xFFFFFFFF, 0x0, 0x0⟩,
    /- EVR_ORPH0 -/ ⟨0x18, 0x4, 1, 0x4, 1, 0x0, 0x0, 0x0, 0x0, 0x0, 0x0⟩,
    /- EVR_ORPH1 -/ ⟨0x1C, 0x4, 1, 0x4, 1, 0x0, 0x0, 0x0, 0xFFFFFFFF, 0x0, 0x0⟩,
    /- EVR_PEND[w] -/ ⟨0x100, 0x4, 32, 0x4, 1, 0x0, 0x0, 0x0, 0x0, 0x0, 0x0⟩,
    /- EVR_ACT[w] -/ ⟨0x180, 0x4, 32, 0x4, 1, 0x0, 0x0, 0x0, 0x0, 0x0, 0x0⟩,
    /- EVR_SRC[s] -/ ⟨0x1000, 0x8, 1024, 0x4, 1, 0x0, 0xBF0F03FF, 0x0, 0x0, 0x0, 0x0⟩,
    /- EVR_TGT[s] -/ ⟨0x1004, 0x8, 1024, 0x4, 1, 0x0, 0xC00007FF, 0x0, 0x0, 0x0, 0x0⟩ ] ++
  [ /- EVR_GCFG[g] -/ ⟨0x3000, 0x10, 64, 0x4, 1, 0x0, 0xFFFFFF, 0x0, 0x0, 0x0, 0x0⟩,
    /- EVR_GTGT[g] -/ ⟨0x3004, 0x10, 64, 0x4, 1, 0x0, 0xCF0007FF, 0x0, 0x0, 0x0, 0x0⟩,
    /- EVR_GSTAT[g] -/ ⟨0x3008, 0x10, 64, 0x4, 1, 0x0, 0x0, 0x0, 0x0, 0x0, 0x0⟩ ]

/-- Register rows of the slice EVR unit. -/
def tableEVL : List RegDesc :=
  [ /- EVR_LSRC[x] -/ ⟨0x0, 0x8, 72, 0x4, 1, 0x0, 0xBF0F03FF, 0x0, 0x0, 0x0, 0x0⟩,
    /- EVR_LTGT[x] -/ ⟨0x4, 0x8, 72, 0x4, 1, 0x0, 0xC00007FF, 0x0, 0x0, 0x0, 0x0⟩,
    /- EVR_ACK -/ ⟨0x300, 0x4, 1, 0x4, 1, 0x0, 0x0, 0x0, 0x0, 0x0, 0x3FF⟩,
    /- EVR_LSTAT -/ ⟨0x304, 0x4, 1, 0x4, 1, 0x0, 0x0, 0x80000000, 0x0, 0x0, 0x0⟩,
    /- EVR_LORPH -/ ⟨0x308, 0x4, 1, 0x4, 1, 0x0, 0x0, 0x0, 0xFFFFFFFF, 0x0, 0x0⟩ ]

/-- Register rows of the DMA unit. -/
def tableDMA : List RegDesc :=
  [ /- DMA_CFG_REJ -/ ⟨0x0, 0x4, 1, 0x4, 1, 0x0, 0x0, 0x0, 0xFFFFFFFF, 0x0, 0x0⟩,
    /- DMA_CTRL[c] -/ ⟨0x100, 0x40, 16, 0x4, 1, 0x0, 0x0, 0x0, 0x0, 0x1, 0x2⟩,
    /- DMA_PROG[c] -/ ⟨0x104, 0x40, 16, 0x4, 1, 0x0, 0xFFFFFFFF, 0x0, 0x0, 0x0, 0x0⟩,
    /- DMA_STAT[c] -/ ⟨0x108, 0x40, 16, 0x4, 1, 0x0, 0x0, 0xE0000000, 0x0, 0x0, 0x0⟩,
    /- DMA_PC[c] -/ ⟨0x10C, 0x40, 16, 0x4, 1, 0x0, 0x0, 0x0, 0x0, 0x0, 0x0⟩,
    /- DMA_ERR_ADDR[c] -/ ⟨0x110, 0x40, 16, 0x4, 1, 0x0, 0x0, 0x0, 0x0, 0x0, 0x0⟩,
    /- DMA_BYTES[c] -/ ⟨0x114, 0x40, 16, 0x4, 1, 0x0, 0x0, 0x0, 0xFFFFFFFF, 0x0, 0x0⟩ ]

/-- Register rows of the function page unit. -/
def tableFNP : List RegDesc :=
  [ /- HIF_FN_ID -/ ⟨0x0, 0x4, 1, 0x4, 1, 0x0, 0x0, 0x0, 0x0, 0x0, 0x0⟩,
    /- HIF_FN_STAT -/ ⟨0x4, 0x4, 1, 0x4, 1, 0x0, 0x0, 0x0, 0x0, 0x0, 0x0⟩,
    /- HIF_FN_OWNED -/ ⟨0x8, 0x4, 1, 0x4, 1, 0x0, 0x0, 0x0, 0x0, 0x0, 0x0⟩,
    /- HIF_FN_PWIN -/ ⟨0xC, 0x4, 1, 0x4, 1, 0x0, 0x0, 0x0, 0x0, 0x0, 0x0⟩,
    /- HIF_FN_MWIN -/ ⟨0x10, 0x4, 1, 0x4, 1, 0x0, 0x0, 0x0, 0x0, 0x0, 0x0⟩,
    /- HIF_FN_ERR -/ ⟨0x14, 0x4, 1, 0x4, 1, 0x0, 0x0, 0x0, 0xFFFFFFFF, 0x0, 0x0⟩,
    /- HIF_LINK (function page) -/ ⟨0x18, 0x4, 1, 0x4, 1, 0x0, 0x0, 0x0, 0x0, 0x0, 0x0⟩,
    /- RNG_CTRL -/ ⟨0x100, 0x4, 1, 0x4, 1, 0x0, 0x1, 0x0, 0x0, 0x80000000, 0x40000000⟩,
    /- RNG_STAT -/ ⟨0x104, 0x4, 1, 0x4, 1, 0x0, 0x0, 0x80000000, 0x0, 0x0, 0x0⟩,
    /- RNG_DB_DROPPED -/ ⟨0x108, 0x4, 1, 0x4, 1, 0x0, 0x0, 0x0, 0xFFFFFFFF, 0x0, 0x0⟩,
    /- RNG_LATE_CPL -/ ⟨0x10C, 0x4, 1, 0x4, 1, 0x0, 0x0, 0x0, 0xFFFFFFFF, 0x0, 0x0⟩,
    /- RNG_EDGE_LO -/ ⟨0x110, 0x4, 1, 0x4, 1, 0x0, 0xFFFFFFFF, 0x0, 0x0, 0x0, 0x0⟩ ] ++
  [ /- RNG_EDGE_HI -/ ⟨0x114, 0x4, 1, 0x4, 1, 0x0, 0xFFFFFFFF, 0x0, 0x0, 0x0, 0x0⟩,
    /- RNG_EDGE_CFG -/ ⟨0x118, 0x4, 1, 0x4, 1, 0xC, 0x8000001F, 0x0, 0x0, 0x0, 0x0⟩,
    /- RNG_EDGE_STAT -/ ⟨0x11C, 0x4, 1, 0x4, 1, 0x0, 0x0, 0x0, 0xFFF00000, 0x0, 0x0⟩,
    /- RNG_SQ_LO[r] -/ ⟨0x200, 0x20, 8, 0x4, 1, 0x0, 0xFFFFFFFF, 0x0, 0x0, 0x0, 0x0⟩,
    /- RNG_SQ_HI[r] -/ ⟨0x204, 0x20, 8, 0x4, 1, 0x0, 0xFFFFFFFF, 0x0, 0x0, 0x0, 0x0⟩,
    /- RNG_SQ_CFG[r] -/ ⟨0x208, 0x20, 8, 0x4, 1, 0x4, 0x8000070F, 0x0, 0x0, 0x0, 0x0⟩,
    /- RNG_SQ_HEAD[r] -/ ⟨0x20C, 0x20, 8, 0x4, 1, 0x0, 0x0, 0x0, 0x0, 0x0, 0x0⟩,
    /- RNG_CQ_LO[r] -/ ⟨0x210, 0x20, 8, 0x4, 1, 0x0, 0xFFFFFFFF, 0x0, 0x0, 0x0, 0x0⟩,
    /- RNG_CQ_HI[r] -/ ⟨0x214, 0x20, 8, 0x4, 1, 0x0, 0xFFFFFFFF, 0x0, 0x0, 0x0, 0x0⟩,
    /- RNG_CQ_CFG[r] -/ ⟨0x218, 0x20, 8, 0x4, 1, 0x4, 0xC07F000F, 0x0, 0x0, 0x0, 0x0⟩,
    /- RNG_CQ_TAIL[r] -/ ⟨0x21C, 0x20, 8, 0x4, 1, 0x0, 0x0, 0x0, 0x0, 0x0, 0x0⟩ ]

/-- Register rows of the HIF unit. -/
def tableHIF : List RegDesc :=
  [ /- HIF_BADACC -/ ⟨0x0, 0x4, 1, 0x4, 1, 0x0, 0x0, 0x0, 0xFFFFFFFF, 0x0, 0x0⟩,
    /- HIF_LINK -/ ⟨0x4, 0x4, 1, 0x4, 1, 0x0, 0x0, 0x0, 0x0, 0x0, 0x0⟩,
    /- HIF_LINK_CFG -/ ⟨0x8, 0x4, 1, 0x4, 1, 0x0, 0x0, 0x0, 0x0, 0x0, 0x0⟩,
    /- HIF_FNCFG_PWIN[f] -/ ⟨0x100, 0x8, 1, 0x4, 1, 0x800000, 0xFFFFFFFF, 0x0, 0x0, 0x0, 0x0⟩,
    /- HIF_FNCFG_PWIN[f] -/ ⟨0x108, 0x8, 15, 0x4, 1, 0x0, 0xFFFFFFFF, 0x0, 0x0, 0x0, 0x0⟩,
    /- HIF_FNCFG_MWIN[f] -/ ⟨0x104, 0x8, 1, 0x4, 1, 0x1000000, 0xFFFFFFFF, 0x0, 0x0, 0x0, 0x0⟩,
    /- HIF_FNCFG_MWIN[f] -/ ⟨0x10C, 0x8, 15, 0x4, 1, 0x0, 0xFFFFFFFF, 0x0, 0x0, 0x0, 0x0⟩ ]

/-- Register rows of the doorbell page unit. -/
def tableDBP : List RegDesc :=
  [ /- ABT_STAT -/ ⟨0x100, 0x4, 1, 0x4, 1, 0x0, 0x0, 0x0, 0x0, 0x0, 0x0⟩,
    /- ABT_COUNT -/ ⟨0x104, 0x4, 1, 0x4, 1, 0x0, 0x0, 0x0, 0x0, 0x0, 0x0⟩,
    /- ABT_UNREP -/ ⟨0x108, 0x4, 1, 0x4, 1, 0x0, 0x0, 0x0, 0x0, 0x0, 0x0⟩,
    /- ABT_TIME -/ ⟨0x10C, 0x4, 1, 0x4, 1, 0x0, 0x0, 0x0, 0x0, 0x0, 0x0⟩,
    /- ABT_SLICES -/ ⟨0x110, 0x4, 1, 0x4, 1, 0x0, 0x0, 0x0, 0x0, 0x0, 0x0⟩ ]

/-- Register rows of the PWY unit. -/
def tablePWY : List RegDesc :=
  [ /- PWY_CFG -/ ⟨0x0, 0x4, 1, 0x4, 1, 0x80A, 0x80010FFF, 0x0, 0x0, 0x0, 0x0⟩,
    /- PWY_ID -/ ⟨0x4, 0x4, 1, 0x4, 1, 0x0, 0x3F1F, 0x0, 0x0, 0x0, 0x0⟩,
    /- PWY_STAT -/ ⟨0x8, 0x4, 1, 0x4, 1, 0x0, 0x0, 0xF8000000, 0x0, 0x0, 0x0⟩,
    /- PWY_GSTAT -/ ⟨0xC, 0x4, 1, 0x4, 1, 0x0, 0x0, 0x0, 0x0, 0x0, 0x0⟩,
    /- PWY_MEMBERS -/ ⟨0x10, 0x4, 1, 0x4, 1, 0x0, 0x0, 0x0, 0x0, 0x0, 0x0⟩,
    /- PWY_OFFSET -/ ⟨0x14, 0x4, 1, 0x4, 1, 0x0, 0x0, 0x0, 0x0, 0x0, 0x0⟩,
    /- PWY_CRC_ERR -/ ⟨0x18, 0x4, 1, 0x4, 1, 0x0, 0x0, 0x0, 0xFFFFFFFF, 0x0, 0x0⟩,
    /- PWY_TT_STAT -/ ⟨0x1C, 0x4, 1, 0x4, 1, 0x0, 0x0, 0xC0000000, 0x0, 0x0, 0x0⟩,
    /- PWY_TT_OFS_LO -/ ⟨0x20, 0x4, 1, 0x4, 1, 0x0, 0x0, 0x0, 0x0, 0x0, 0x0⟩,
    /- PWY_TT_OFS_HI -/ ⟨0x24, 0x4, 1, 0x4, 1, 0x0, 0x0, 0x0, 0x0, 0x0, 0x0⟩,
    /- PWY_TEV_LO -/ ⟨0x28, 0x4, 1, 0x4, 1, 0x0, 0xFFFFFFFF, 0x0, 0x0, 0x0, 0x0⟩,
    /- PWY_TEV_HI -/ ⟨0x2C, 0x4, 1, 0x4, 1, 0x0, 0xFFFFFFFF, 0x0, 0x0, 0x0, 0x0⟩ ] ++
  [ /- PWY_TT_CFG -/ ⟨0x30, 0x4, 1, 0x4, 1, 0x808000, 0xFFFFFF01, 0x0, 0x0, 0x0, 0x0⟩,
    /- PWY_PORT[p] -/ ⟨0x40, 0x10, 4, 0x4, 1, 0x0, 0x0, 0x0, 0x0, 0x0, 0x0⟩,
    /- PWY_ASYM[p] -/ ⟨0x44, 0x10, 4, 0x4, 1, 0x0, 0xFFFF, 0x0, 0x0, 0x0, 0x0⟩,
    /- PWY_EXP[s] -/ ⟨0x100, 0x4, 32, 0x4, 1, 0x0, 0x80000000, 0x0, 0x0, 0x0, 0x0⟩,
    /- PWY_IMP[i] -/ ⟨0x180, 0x4, 32, 0x4, 1, 0x0, 0x80001F1F, 0x0, 0x0, 0x0, 0x0⟩,
    /- PWY_SYS[g] -/ ⟨0x200, 0x4, 64, 0x4, 1, 0x0, 0x0, 0x0, 0x0, 0x0, 0x0⟩ ]

/-- Register rows of the TWN unit. -/
def tableTWN : List RegDesc :=
  [ /- TWN_CFG -/ ⟨0x0, 0x4, 1, 0x4, 1, 0x0, 0xF0000000, 0x0, 0x0, 0x0, 0x0⟩,
    /- TWN_CMD -/ ⟨0x4, 0x4, 1, 0x4, 1, 0x0, 0x0, 0x0, 0x0, 0x0, 0xFFFF0001⟩,
    /- TWN_STAT -/ ⟨0x8, 0x4, 1, 0x4, 1, 0x0, 0x0, 0xF0000000, 0x0, 0x0, 0x0⟩,
    /- TWN_ROLE -/ ⟨0xC, 0x4, 1, 0x4, 1, 0x0, 0x0, 0x0, 0x0, 0x0, 0x0⟩,
    /- TWN_SYNC -/ ⟨0x10, 0x4, 1, 0x4, 1, 0x0, 0x0, 0x0, 0x0, 0x0, 0x0⟩,
    /- TWN_LAST_HO -/ ⟨0x14, 0x4, 1, 0x4, 1, 0x0, 0x0, 0x0, 0x0, 0x0, 0x0⟩,
    /- TWN_TX -/ ⟨0x18, 0x4, 1, 0x4, 1, 0x0, 0x0, 0x0, 0xFFFFFFFF, 0x0, 0x0⟩,
    /- TWN_RX -/ ⟨0x1C, 0x4, 1, 0x4, 1, 0x0, 0x0, 0x0, 0xFFFFFFFF, 0x0, 0x0⟩,
    /- TWN_DROP -/ ⟨0x20, 0x4, 1, 0x4, 1, 0x0, 0x0, 0x0, 0xFFFFFFFF, 0x0, 0x0⟩,
    /- TWN_PEER -/ ⟨0x24, 0x4, 1, 0x4, 1, 0x0, 0x0, 0x0, 0x0, 0x0, 0x0⟩ ]

/-- Register rows of the FLC unit. -/
def tableFLC : List RegDesc :=
  [ /- FLC_CMD -/ ⟨0x0, 0x4, 1, 0x4, 1, 0x0, 0x0, 0x0, 0x0, 0x0, 0xFFFF000F⟩,
    /- FLC_STAT -/ ⟨0x4, 0x4, 1, 0x4, 1, 0x0, 0x0, 0xF0000000, 0x0, 0x0, 0x0⟩,
    /- FLC_BANK -/ ⟨0x8, 0x4, 1, 0x4, 1, 0x0, 0x0, 0x0, 0x0, 0x0, 0x0⟩,
    /- FLC_WARN -/ ⟨0xC, 0x4, 1, 0x4, 1, 0x400FA, 0xFFFFFF, 0x0, 0x0, 0x0, 0x0⟩,
    /- FLC_SCRUB -/ ⟨0x10, 0x4, 1, 0x4, 1, 0x80000001, 0x8000FFFF, 0x0, 0x0, 0x0, 0x0⟩,
    /- FLC_CTRL -/ ⟨0x14, 0x4, 1, 0x4, 1, 0x1, 0x1, 0x0, 0x0, 0x0, 0x0⟩,
    /- FLC_BSEL -/ ⟨0x18, 0x4, 1, 0x4, 1, 0x0, 0xF8C0FFFF, 0x0, 0x0, 0x0, 0x0⟩,
    /- FLC_BINFO -/ ⟨0x1C, 0x4, 1, 0x4, 1, 0x0, 0x0, 0x0, 0x0, 0x0, 0x0⟩,
    /- FLC_BFLAGS -/ ⟨0x20, 0x4, 1, 0x4, 1, 0x0, 0x0, 0x0, 0x0, 0x0, 0x0⟩,
    /- FLC_PW_LO -/ ⟨0x24, 0x4, 1, 0x4, 1, 0x0, 0x0, 0x0, 0x0, 0x0, 0xFFFFFFFF⟩,
    /- FLC_PW_HI -/ ⟨0x28, 0x4, 1, 0x4, 1, 0x0, 0x0, 0x0, 0x0, 0x0, 0xFFFFFFFF⟩,
    /- FLC_REJ -/ ⟨0x2C, 0x4, 1, 0x4, 1, 0x0, 0x0, 0x0, 0xFFFFFFFF, 0x0, 0x0⟩ ] ++
  [ /- FLC_REGION[r] -/ ⟨0x40, 0x4, 8, 0x4, 1, 0x0, 0x3FFFF00, 0x0, 0x0, 0x0, 0x0⟩,
    /- FLC_PBUF[w] -/ ⟨0x100, 0x4, 64, 0x4, 1, 0x0, 0x0, 0x0, 0x0, 0x0, 0xFFFFFFFF⟩ ]

/-- Register rows of the PWR unit. -/
def tablePWR : List RegDesc :=
  [ /- PWR_STAT -/ ⟨0x0, 0x4, 1, 0x4, 1, 0x0, 0x0, 0xF0000000, 0x0, 0x0, 0x0⟩,
    /- PWR_VIN -/ ⟨0x4, 0x4, 1, 0x4, 1, 0x0, 0x0, 0x0, 0x0, 0x0, 0x0⟩,
    /- PWR_HOLDUP -/ ⟨0x8, 0x4, 1, 0x4, 1, 0x0, 0x0, 0x0, 0x0, 0x0, 0x0⟩,
    /- PWR_CLK -/ ⟨0xC, 0x4, 1, 0x4, 1, 0x0, 0x0, 0x0, 0x0, 0x0, 0x0⟩,
    /- PWR_EL_STAT -/ ⟨0x10, 0x4, 1, 0x4, 1, 0x0, 0x0, 0x0, 0xFFFF0000, 0x0, 0x0⟩,
    /- PWR_FAIL_CNT -/ ⟨0x14, 0x4, 1, 0x4, 1, 0x0, 0x0, 0x0, 0xFFFFFFFF, 0x0, 0x0⟩,
    /- PWR_TEMP -/ ⟨0x18, 0x4, 1, 0x4, 1, 0x0, 0x0, 0x80000000, 0x0, 0x0, 0x0⟩ ]

/-- Register rows of the AON unit. -/
def tableAON : List RegDesc :=
  [ /- AON_WAKE_EN -/ ⟨0x0, 0x4, 1, 0x4, 1, 0x0, 0x3FF, 0x0, 0x0, 0x0, 0x0⟩,
    /- AON_WAKE_STAT -/ ⟨0x4, 0x4, 1, 0x4, 1, 0x0, 0x0, 0x3FF, 0x0, 0x0, 0x0⟩,
    /- AON_RTC_SEC -/ ⟨0x8, 0x4, 1, 0x4, 1, 0x0, 0xFFFFFFFF, 0x0, 0x0, 0x0, 0x0⟩,
    /- AON_RTC_SUB -/ ⟨0xC, 0x4, 1, 0x4, 1, 0x0, 0x0, 0x0, 0x0, 0x0, 0x0⟩,
    /- AON_ALARM -/ ⟨0x10, 0x4, 1, 0x4, 1, 0x0, 0xFFFFFFFF, 0x0, 0x0, 0x0, 0x0⟩,
    /- AON_CLK -/ ⟨0x14, 0x4, 1, 0x4, 1, 0x0, 0x1, 0x0, 0x0, 0x0, 0x0⟩,
    /- AON_GPIO -/ ⟨0x18, 0x4, 1, 0x4, 1, 0x0, 0xFFFFFFFF, 0x0, 0x0, 0x0, 0x0⟩ ]

/-- Register rows of the WDG unit. -/
def tableWDG : List RegDesc :=
  [ /- WDG_CTRL -/ ⟨0x0, 0x4, 1, 0x4, 1, 0x40000000, 0xE0000000, 0x0, 0x0, 0x0, 0x0⟩,
    /- WDG_PERIOD -/ ⟨0x4, 0x4, 1, 0x4, 1, 0x3E8, 0xFFFFFF, 0x0, 0x0, 0x0, 0x0⟩,
    /- WDG_LOWER -/ ⟨0x8, 0x4, 1, 0x4, 1, 0x0, 0xFFFFFF, 0x0, 0x0, 0x0, 0x0⟩,
    /- WDG_SVC -/ ⟨0xC, 0x4, 1, 0x4, 1, 0x0, 0x0, 0x0, 0x0, 0x0, 0xFFFF⟩,
    /- WDG_STAT -/ ⟨0x10, 0x4, 1, 0x4, 1, 0x0, 0x0, 0xF0000000, 0x0, 0x0, 0x0⟩,
    /- WDG_CNT -/ ⟨0x14, 0x4, 1, 0x4, 1, 0x0, 0x0, 0x0, 0x0, 0x0, 0x0⟩,
    /- WDG_REJ -/ ⟨0x18, 0x4, 1, 0x4, 1, 0x0, 0x0, 0x0, 0xFFFFFFFF, 0x0, 0x0⟩ ]

/-- Register rows of the SEC unit. -/
def tableSEC : List RegDesc :=
  [ /- SEC_LC -/ ⟨0x0, 0x4, 1, 0x4, 1, 0x0, 0x0, 0x0, 0x0, 0x0, 0x0⟩,
    /- SEC_LC_REQ -/ ⟨0x4, 0x4, 1, 0x4, 1, 0x0, 0x0, 0x0, 0x0, 0x0, 0xFFFF000F⟩,
    /- SEC_NONCE -/ ⟨0x8, 0x4, 1, 0x4, 1, 0x0, 0x0, 0x0, 0x0, 0x0, 0x0⟩,
    /- SEC_MINVER -/ ⟨0xC, 0x4, 1, 0x4, 1, 0x0, 0x0, 0x0, 0x0, 0x0, 0x0⟩,
    /- SEC_CMD -/ ⟨0x10, 0x4, 1, 0x4, 1, 0x0, 0x0, 0x0, 0x0, 0x0, 0xFFFF003F⟩,
    /- SEC_KEYSTAT -/ ⟨0x14, 0x4, 1, 0x4, 1, 0x1, 0x0, 0x0, 0x0, 0x0, 0x0⟩,
    /- SEC_BOOT -/ ⟨0x18, 0x4, 1, 0x4, 1, 0x0, 0x0, 0x0, 0x0, 0x0, 0x0⟩,
    /- SEC_POLICY -/ ⟨0x1C, 0x4, 1, 0x4, 1, 0x1, 0x1, 0x0, 0x0, 0x0, 0x0⟩,
    /- SEC_TAMPER -/ ⟨0x20, 0x4, 1, 0x4, 1, 0x0, 0x0, 0x1F, 0x0, 0x0, 0x0⟩,
    /- SEC_TAMPER_CFG -/ ⟨0x24, 0x4, 1, 0x4, 1, 0x1F, 0x31F, 0x0, 0x0, 0x0, 0x0⟩,
    /- SEC_TAMPER_TIME -/ ⟨0x28, 0x4, 1, 0x4, 1, 0x0, 0x0, 0x0, 0x0, 0x0, 0x0⟩,
    /- SEC_WIPE_CNT -/ ⟨0x2C, 0x4, 1, 0x4, 1, 0x0, 0x0, 0x0, 0xFFFFFFFF, 0x0, 0x0⟩ ] ++
  [ /- SEC_KEY_DATA[w] -/ ⟨0x40, 0x4, 8, 0x4, 1, 0x0, 0x0, 0x0, 0x0, 0x0, 0xFFFFFFFF⟩ ]

/-- Register rows of the STP unit. -/
def tableSTP : List RegDesc :=
  [ /- STP_CTRL -/ ⟨0x0, 0x4, 1, 0x4, 1, 0x20, 0x333, 0x0, 0x0, 0x0, 0x0⟩,
    /- STP_EN -/ ⟨0x4, 0x4, 1, 0x4, 1, 0x0, 0xFFFFFF, 0x0, 0x0, 0x0, 0x0⟩,
    /- STP_STAT -/ ⟨0x8, 0x4, 1, 0x4, 1, 0x0, 0x0, 0x80000000, 0x0, 0x0, 0x0⟩,
    /- STP_DROPS -/ ⟨0xC, 0x4, 1, 0x4, 1, 0x0, 0x0, 0x0, 0xFFFFFFFF, 0x0, 0x0⟩,
    /- STP_FILTERED -/ ⟨0x10, 0x4, 1, 0x4, 1, 0x0, 0x0, 0x0, 0xFFFFFFFF, 0x0, 0x0⟩,
    /- STP_POST[p] -/ ⟨0x100, 0x4, 24, 0x4, 1, 0x0, 0x0, 0x0, 0x0, 0x0, 0xFFFFFFFF⟩ ]

/-- Register rows of the device STP unit. -/
def tableSTD : List RegDesc :=
  [ /- STP_RING_CFG -/ ⟨0x0, 0x4, 1, 0x4, 1, 0xC, 0x8000001F, 0x0, 0x0, 0x0, 0x0⟩,
    /- STP_RING_BASE -/ ⟨0x4, 0x4, 1, 0x4, 1, 0x0, 0xFFFF000, 0x0, 0x0, 0x0, 0x0⟩,
    /- STP_RING_WIDX -/ ⟨0x8, 0x4, 1, 0x4, 1, 0x0, 0x0, 0x0, 0x0, 0x0, 0x0⟩,
    /- STP_RING_RIDX -/ ⟨0xC, 0x4, 1, 0x4, 1, 0x0, 0xFFFFF, 0x0, 0x0, 0x0, 0x0⟩,
    /- STP_SYS_EN -/ ⟨0x10, 0x4, 1, 0x4, 1, 0x2000000, 0x3FFFFFF, 0x0, 0x0, 0x0, 0x0⟩,
    /- STP_SYS_DROPS -/ ⟨0x14, 0x4, 1, 0x4, 1, 0x0, 0x0, 0x0, 0xFFFFFFFF, 0x0, 0x0⟩,
    /- STP_SYS_FILTERED -/ ⟨0x18, 0x4, 1, 0x4, 1, 0x0, 0x0, 0x0, 0xFFFFFFFF, 0x0, 0x0⟩,
    /- STP_SYS_POST[p] -/ ⟨0x100, 0x4, 24, 0x4, 1, 0x0, 0x0, 0x0, 0x0, 0x0, 0xFFFFFFFF⟩ ]

/-- Register rows of the DBG unit. -/
def tableDBG : List RegDesc :=
  [ /- DBG_STAT -/ ⟨0x0, 0x4, 1, 0x4, 1, 0x0, 0x0, 0x0, 0x0, 0x0, 0x0⟩,
    /- DBG_AUTH_FAIL -/ ⟨0x4, 0x4, 1, 0x4, 1, 0x0, 0x0, 0x0, 0xFFFFFFFF, 0x0, 0x0⟩,
    /- DBG_TESTOUT[n] -/ ⟨0x100, 0x4, 12, 0x4, 1, 0x0, 0x0, 0x0, 0x0, 0x0, 0x0⟩ ]

/-- Register rows of the PTB unit. -/
def tablePTB : List RegDesc :=
  [ /- PTB_CTRL -/ ⟨0x0, 0x4, 1, 0x4, 1, 0x0, 0x80000000, 0x0, 0x0, 0x0, 0x0⟩,
    /- PTB_ACTIVE -/ ⟨0x4, 0x4, 1, 0x4, 1, 0x0, 0x0, 0x0, 0x0, 0x0, 0x0⟩,
    /- PTB_BANK -/ ⟨0x8, 0x4, 1, 0x4, 1, 0x0, 0x70F, 0x0, 0x0, 0x0, 0x0⟩,
    /- PTB_SAR -/ ⟨0xC, 0x4, 1, 0x4, 1, 0x0, 0xF003F, 0x0, 0x0, 0x0, 0x0⟩,
    /- PTB_CLE -/ ⟨0x10, 0x4, 1, 0x4, 1, 0x0, 0xF, 0x0, 0x0, 0x0, 0x0⟩,
    /- PTB_DMA -/ ⟨0x14, 0x4, 1, 0x4, 1, 0x0, 0xFFFF03FF, 0x0, 0x0, 0x0, 0x0⟩,
    /- PTB_DB -/ ⟨0x18, 0x4, 1, 0x4, 1, 0x0, 0xFFFF03FF, 0x0, 0x0, 0x0, 0x0⟩,
    /- PTB_EVT -/ ⟨0x1C, 0x4, 1, 0x4, 1, 0x0, 0x83FF00FF, 0x0, 0x0, 0x0, 0x0⟩,
    /- PTB_PWY -/ ⟨0x20, 0x4, 1, 0x4, 1, 0x0, 0xF0300FF, 0x0, 0x0, 0x0, 0x0⟩,
    /- PTB_REJ -/ ⟨0x24, 0x4, 1, 0x4, 1, 0x0, 0x0, 0x0, 0xFFFFFFFF, 0x0, 0x0⟩ ]

end Machine
end Sys2Proof
end

