-- ==== Sys2Proof/Machine/Bits.lean ====
section
/-! DEFINITION. Bit fields, saturation, sign conversion and the sparse map in canonical form, on which registers and
memories are kept. -/

namespace Sys2Proof
namespace Machine

/-- The field's value in a word. -/
def Fld.get (f : Fld) (w : Word) : Nat := (w.toNat >>> f.lo) % 2 ^ f.width

/-- The mask of the field's bits. -/
def Fld.mask (f : Fld) : Word := BitVec.ofNat 32 ((2 ^ f.width - 1) <<< f.lo)

/-- The word with the field replaced by the low bits of `v`. -/
def Fld.put (f : Fld) (w : Word) (v : Nat) : Word :=
  (w &&& ~~~ f.mask) ||| BitVec.ofNat 32 ((v % 2 ^ f.width) <<< f.lo)

/-- The largest value the field holds. -/
def Fld.top (f : Fld) : Nat := 2 ^ f.width - 1

/-- A word whose only non-zero field is `f`. -/
def Fld.word (f : Fld) (v : Nat) : Word := BitVec.ofNat 32 ((v % 2 ^ f.width) <<< f.lo)

/-- Bit `k` of a word as a Bool. -/
def bit (w : Word) (k : Nat) : Bool := w.getLsbD k

/-- Bit `k` of a Nat as a Bool. -/
def natBit (w k : Nat) : Bool := w.testBit k

/-- 1 for true. -/
def b2n (b : Bool) : Nat := if b then 1 else 0

/-- Two's complement value of the low `w` bits of `v`. -/
def toSigned (w v : Nat) : Int :=
  let u := v % 2 ^ w
  if u < 2 ^ (w - 1) then (u : Int) else (u : Int) - (2 ^ w : Nat)

/-- The low `w` bits of an integer, as a Nat. -/
def ofSigned (w : Nat) (x : Int) : Nat := (x % ((2 ^ w : Nat) : Int)).toNat

/-- Saturation of an integer to `w` signed bits. -/
def satS (w : Nat) (x : Int) : Int :=
  let hi : Int := ((2 ^ (w - 1) : Nat) : Int) - 1
  let lo : Int := - ((2 ^ (w - 1) : Nat) : Int)
  if x > hi then hi else if x < lo then lo else x

/-- Clamp of an integer to [lo, hi]. -/
def clampI (lo hi x : Int) : Int := if x > hi then hi else if x < lo then lo else x

/-- Increment that stops at `top`. -/
def satInc (top v : Nat) : Nat := if v < top then v + 1 else v

/-! The sparse map: a list of (key, value) pairs, keys strictly rising, no value equal to the default of its key. -/

/-- The value at a key: the listed value, or the default. -/
def SMap.get {α : Type} (d : Nat → α) : List (Nat × α) → Nat → α
  | [], a => d a
  | (k, v) :: t, a => if k = a then v else SMap.get d t a

/-- Write a value at a key. Writing the default removes the entry. -/
def SMap.put {α : Type} [DecidableEq α] (d : Nat → α) : List (Nat × α) → Nat → α → List (Nat × α)
  | [], a, v => if v = d a then [] else [(a, v)]
  | (k, w) :: t, a, v =>
    if k < a then (k, w) :: SMap.put d t a v
    else
      let rest := ((k, w) :: t).filter (fun e => decide (e.1 ≠ a))
      if v = d a then rest else (a, v) :: rest

/-- Remove every entry whose key satisfies `p`: those keys read as their default again. -/
def SMap.clear {α : Type} (p : Nat → Bool) (m : List (Nat × α)) : List (Nat × α) := m.filter (fun e => !p e.1)

/-- Keys strictly rising, all above `lo`. -/
def SMap.risingFrom {α : Type} : Nat → List (Nat × α) → Bool
  | _, [] => true
  | lo, (k, _) :: t => decide (lo ≤ k) && SMap.risingFrom (k + 1) t

/-- The canonical form: keys strictly rising and no listed value equal to the default of its key. -/
def SMap.wf {α : Type} [DecidableEq α] (d : Nat → α) (m : List (Nat × α)) : Bool :=
  SMap.risingFrom 0 m && m.all (fun e => decide (e.2 ≠ d e.1))

/-! The register table: which row describes an address. -/

/-- A row describes the offset when the offset is one of its instances. -/
def RegDesc.covers (d : RegDesc) (off : Nat) : Bool :=
  decide (d.off ≤ off) && decide ((off - d.off) / d.s1 < d.n1) && decide ((off - d.off) % d.s1 / d.s2 < d.n2) &&
    decide ((off - d.off) % d.s1 % d.s2 = 0)

/-- The unit's table and the offset within it for an address in register space, or the empty table (R12, R42). -/
def unitOf (a : Nat) : List RegDesc × Nat :=
  if 0x01000000 ≤ a ∧ a < 0x01200000 then
    let o := a % 0x10000
    match (a - 0x01000000) / 0x10000 with
    | 0x0 => (tableDEV, o)
    | 0x4 => (tableMAD, o)
    | 0x5 => (tableMEM, o)
    | 0x6 => (tableMMC, o)
    | 0x7 => (tableEVR, o)
    | 0x8 => (tableDMA, o)
    | 0x9 => (tableHIF, o)
    | 0xA => (tablePWY, o)
    | 0xB => (tableTWN, o)
    | 0xC => (tableFLC, o)
    | 0xD => (tablePWR, o)
    | 0xE => (tableAON, o)
    | 0xF => (tableWDG, o)
    | 0x10 => (tableSEC, o)
    | 0x11 => (tableSTD, o)
    | 0x12 => (tableDBG, o)
    | 0x13 => (tablePTB, o)
    | _ => ([], o)
  else if 0x02000000 ≤ a ∧ a < 0x02C00000 then
    let o := (a - 0x02000000) % 0x100000
    if o < 0x1000 then (tableSLC, o)
    else if o < 0x1800 then (tablePWM, o % 0x100)
    else if o < 0x2000 then ([], o)
    else if o < 0x3000 then (tableSAR, o - 0x2000)
    else if o < 0x4000 then (tableGRG, o - 0x3000)
    else if o < 0x4C00 then (tableCLE, o - 0x4000)
    else if o < 0x5000 then (tableMCS, o - 0x4C00)
    else if o < 0x8000 then ([], o)
    else if o < 0x8300 then (tableDMA, o - 0x8000)
    else if o < 0x9000 then ([], o)
    else if o < 0xA000 then (tableEVL, o - 0x9000)
    else if o < 0xB000 then (tableKC, o - 0xA000)
    else if o < 0xC000 then (tableINJ, o - 0xB000)
    else if o < 0xD000 then (tablePTB, o - 0xC000)
    else if o < 0xE000 then (tableWDG, o - 0xD000)
    else if o < 0xF000 then (tableSTP, o - 0xE000)
    else ([], o)
  else if 0x100000000 ≤ a ∧ a < 0x100100000 then
    let o := a % 0x10000
    if o < 0x8000 then (tableFNP, o) else (tableDBP, o - 0x8000)
  else if sysKcBase ≤ a ∧ a < sysKcBase + 0x1000 then (tableKC, a - sysKcBase)
  else ([], a)

/-- The row that describes the register at an address, if one does. -/
def rowAt (a : Nat) : Option RegDesc :=
  let (t, o) := unitOf a
  t.find? (fun d => d.covers o)

/-- What the register at an address holds after reset (R11): its row's reset value, and 0 where no row describes it. -/
def resetOf (a : Nat) : Word :=
  match rowAt a with
  | some d => d.reset
  | none => 0

end Machine
end Sys2Proof
end

