-- ==== Sys2Proof/Machine/Sha.lean ====
section
/-! DEFINITION. SHA-256 over a list of bytes, for the digests of public keys and images (R449 to R451). -/

namespace Sys2Proof
namespace Machine

/-- The 64 round constants. -/
def shaK : List Nat :=
  [0x428a2f98, 0x71374491, 0xb5c0fbcf, 0xe9b5dba5, 0x3956c25b, 0x59f111f1, 0x923f82a4, 0xab1c5ed5, 0xd807aa98, 0x12835b01,
    0x243185be, 0x550c7dc3, 0x72be5d74, 0x80deb1fe, 0x9bdc06a7, 0xc19bf174, 0xe49b69c1, 0xefbe4786, 0x0fc19dc6, 0x240ca1cc,
    0x2de92c6f, 0x4a7484aa, 0x5cb0a9dc, 0x76f988da, 0x983e5152, 0xa831c66d, 0xb00327c8, 0xbf597fc7, 0xc6e00bf3, 0xd5a79147,
    0x06ca6351, 0x14292967] ++
  [0x27b70a85, 0x2e1b2138, 0x4d2c6dfc, 0x53380d13, 0x650a7354, 0x766a0abb, 0x81c2c92e, 0x92722c85, 0xa2bfe8a1, 0xa81a664b,
    0xc24b8b70, 0xc76c51a3, 0xd192e819, 0xd6990624, 0xf40e3585, 0x106aa070, 0x19a4c116, 0x1e376c08, 0x2748774c, 0x34b0bcb5,
    0x391c0cb3, 0x4ed8aa4a, 0x5b9cca4f, 0x682e6ff3, 0x748f82ee, 0x78a5636f, 0x84c87814, 0x8cc70208, 0x90befffa, 0xa4506ceb,
    0xbef9a3f7, 0xc67178f2]

/-- A 32-bit word rotated right. -/
def rotr (x n : Nat) : Nat := x / 2 ^ n ||| x * 2 ^ (32 - n) % 2 ^ 32

/-- The eight working words. -/
structure Sha where
  a : Nat
  b : Nat
  c : Nat
  d : Nat
  e : Nat
  f : Nat
  g : Nat
  h : Nat

def shaInit : Sha :=
  ⟨0x6a09e667, 0xbb67ae85, 0x3c6ef372, 0xa54ff53a, 0x510e527f, 0x9b05688c, 0x1f83d9ab, 0x5be0cd19⟩

/-- One round with its constant and message word. -/
def Sha.round (s : Sha) (kw : Nat × Nat) : Sha :=
  let s1 := rotr s.e 6 ^^^ rotr s.e 11 ^^^ rotr s.e 25
  let ch := (s.e &&& s.f) ^^^ ((2 ^ 32 - 1 - s.e) &&& s.g)
  let t1 := s.h + s1 + ch + kw.1 + kw.2
  let s0 := rotr s.a 2 ^^^ rotr s.a 13 ^^^ rotr s.a 22
  let maj := (s.a &&& s.b) ^^^ (s.a &&& s.c) ^^^ (s.b &&& s.c)
  ⟨(t1 + s0 + maj) % 2 ^ 32, s.a, s.b, s.c, (s.d + t1) % 2 ^ 32, s.e, s.f, s.g⟩

/-- The message schedule: `k` more words before those of `l`, youngest first. -/
def shaSchedule : Nat → List Nat → List Nat
  | 0, l => l
  | k + 1, l =>
    let w (i : Nat) : Nat := (l[i]?).getD 0
    let s0 := rotr (w 14) 7 ^^^ rotr (w 14) 18 ^^^ w 14 / 2 ^ 3
    let s1 := rotr (w 1) 17 ^^^ rotr (w 1) 19 ^^^ w 1 / 2 ^ 10
    shaSchedule k ((s1 + w 6 + s0 + w 15) % 2 ^ 32 :: l)

/-- One block of 16 words. -/
def Sha.block (s : Sha) (ws : List Nat) : Sha :=
  let t := (shaK.zip (shaSchedule 48 ws.reverse).reverse).foldl Sha.round s
  let add (x y : Nat) : Nat := (x + y) % 2 ^ 32
  ⟨add s.a t.a, add s.b t.b, add s.c t.c, add s.d t.d, add s.e t.e, add s.f t.f, add s.g t.g, add s.h t.h⟩

/-- The big-endian value of bytes. -/
def beValue (bs : List Nat) : Nat := bs.foldl (fun v b => v * 256 + b % 256) 0

/-- The blocks of a padded message, `k` of them. -/
def shaBlocks : Nat → List Nat → Sha → Sha
  | 0, _, s => s
  | k + 1, bs, s =>
    shaBlocks k (bs.drop 64) (s.block ((List.range 16).map (fun i => beValue ((bs.drop (4 * i)).take 4))))

/-- SHA-256. -/
def sha256 (bs : List Nat) : BitVec 256 :=
  let n := bs.length
  let zeros := (119 - n % 64) % 64
  let msg := bs ++ [0x80] ++ List.replicate zeros 0 ++ (List.range 8).map (fun i => 8 * n / 256 ^ (7 - i) % 256)
  let s := shaBlocks ((n + 72) / 64) msg shaInit
  BitVec.ofNat 256 ([s.a, s.b, s.c, s.d, s.e, s.f, s.g, s.h].foldl (fun v w => v * 2 ^ 32 + w) 0)

end Machine
end Sys2Proof
end

