-- ==== Sys2Proof/Machine/Ecdsa.lean ====
section
/-! DEFINITION. ECDSA over the curve P-256, for the signatures of images (R450, R451). A point is held as X, Y, Z with the affine
coordinates X / Z² and Y / Z³; Z = 0 stands for the point at infinity. -/

namespace Sys2Proof
namespace Machine

/-- The field, the order of the group, and the constant b of the curve y² = x³ − 3x + b. -/
def ecP : Nat := 0xffffffff00000001000000000000000000000000ffffffffffffffffffffffff
def ecN : Nat := 0xffffffff00000000ffffffffffffffffbce6faada7179e84f3b9cac2fc632551
def ecB : Nat := 0x5ac635d8aa3a93e7b3ebbd55769886bc651d06b0cc53b0f63bce3c3e27d2604b

structure EcPoint where
  x : Nat
  y : Nat
  z : Nat

def ecInf : EcPoint := ⟨1, 1, 0⟩

/-- The base point. -/
def ecG : EcPoint :=
  ⟨0x6b17d1f2e12c4247f8bce6e563a440f277037d812deb33a0f4a13945d898c296,
    0x4fe342e2fe1a7f9b8ee7eb4a7c0f9e162bce33576b315ececbb6406837bf51f5, 1⟩

/-- Arithmetic of the field. -/
def fMul (a b : Nat) : Nat := a * b % ecP
def fSub (a b : Nat) : Nat := (a + (ecP - b)) % ecP

/-- Twice a point. -/
def EcPoint.dbl (q : EcPoint) : EcPoint :=
  let zz := fMul q.z q.z
  let yy := fMul q.y q.y
  let b := fMul q.x yy
  let a := fMul (3 * fSub q.x zz) ((q.x + zz) % ecP)
  let x := fSub (fMul a a) (8 * b % ecP)
  ⟨x, fSub (fMul a (fSub (4 * b % ecP) x)) (8 * fMul yy yy % ecP), fMul (2 * q.y) q.z⟩

/-- The sum of two points. -/
def EcPoint.add (q r : EcPoint) : EcPoint :=
  if q.z == 0 then r
  else if r.z == 0 then q
  else
    let z1 := fMul q.z q.z
    let z2 := fMul r.z r.z
    let u1 := fMul q.x z2
    let s1 := fMul q.y (fMul z2 r.z)
    let h := fSub (fMul r.x z1) u1
    let d := fSub (fMul r.y (fMul z1 q.z)) s1
    if h == 0 then (if d == 0 then q.dbl else ecInf)
    else
      let hh := fMul h h
      let hhh := fMul hh h
      let v := fMul u1 hh
      let x := fSub (fMul d d) ((hhh + 2 * v) % ecP)
      ⟨x, fSub (fMul d (fSub v x)) (fMul s1 hhh), fMul (fMul q.z r.z) h⟩

/-- b to the power e, of `k` bits, modulo m. -/
def powMod (m b : Nat) : Nat → Nat → Nat
  | 0, _ => 1
  | k + 1, e =>
    let h := powMod m (b * b % m) k (e / 2)
    if e % 2 == 1 then h * b % m else h

/-- u·q + v·r, over the bits from `k` − 1 down. -/
def ecSum (u v : Nat) (q r both : EcPoint) : Nat → EcPoint → EcPoint
  | 0, acc => acc
  | k + 1, acc =>
    let a := acc.dbl
    ecSum u v q r both k
      (match u / 2 ^ k % 2 == 1, v / 2 ^ k % 2 == 1 with
      | true, true => a.add both
      | true, false => a.add q
      | false, true => a.add r
      | false, false => a)

/-- (r, s) is a signature over a digest under the public key (x, y). -/
def ecdsaOk (x y digest r s : Nat) : Bool :=
  if x < ecP ∧ y < ecP ∧ y * y % ecP = (x * x * x + (ecP - 3) * x + ecB) % ecP ∧ 0 < r ∧ r < ecN ∧ 0 < s ∧ s < ecN then
    let w := powMod ecN s 256 (ecN - 2)
    let q : EcPoint := ⟨x, y, 1⟩
    let t := ecSum (digest * w % ecN) (r * w % ecN) ecG q (ecG.add q) 256 ecInf
    let zz := fMul t.z t.z
    t.z != 0 && (fMul r zz == t.x || (decide (r + ecN < ecP) && fMul (r + ecN) zz == t.x))
  else false

end Machine
end Sys2Proof
end

