-- ==== Sys2Proof/Machine/Frame.lean ====
section
/-! DEFINITION. The CRC-32 of IEEE 802.3 (R142, R367, R395), the header of a Passway frame, and which frames and twin records a
receiver discards. -/

namespace Sys2Proof
namespace Machine

/-- One bit of the CRC-32 of IEEE 802.3. -/
def crcBit (c : Nat) : Nat := if c % 2 == 1 then (c / 2) ^^^ 0xEDB88320 else c / 2

def crcByte (c b : Nat) : Nat := crcBit (crcBit (crcBit (crcBit (crcBit (crcBit (crcBit (crcBit (c ^^^ b))))))))

/-- The CRC register after `k` bytes of a value, low byte first. -/
def crcBytes : Nat → Nat → Nat → Nat
  | 0, _, c => c
  | k + 1, v, c => crcBytes k (v / 256) (crcByte c (v % 256))

/-- CRC-32 of some bytes. R367 and R395 name the polynomial; initial value and final inversion are those of R142 (log 207). -/
def crc32 (l : List (BitVec 8)) : Nat := (l.foldl (fun c b => crcByte c b.toNat) 0xFFFFFFFF) ^^^ 0xFFFFFFFF

/-- The number that bytes give, the first byte lowest (log 207). -/
def leNat (l : List (BitVec 8)) : Nat := l.foldr (fun b k => b.toNat + 256 * k) 0

/-- Byte i, 0 beyond the end. -/
def byteAt (l : List (BitVec 8)) (i : Nat) : Nat := (l[i]?.getD 0).toNat

/-- Payload lengths of the KINDs of a group port; the other values are reserved there (R368). -/
def kindLength (kind len : Nat) : Bool :=
  match kind with
  | 1 => len == 24
  | 2 => decide (8 ≤ len) && decide (len ≤ 128) && len % 8 == 0
  | 3 => len == 16
  | 4 => len == 8
  | 5 => len == 16
  | _ => false

/-- A frame is discarded: bad CRC, wrong length or reserved KIND (R367). `b`: header, payload and CRC. -/
def frameBad (b : List (BitVec 8)) : Bool :=
  let n := 4 * byteAt b 1
  b.length != 8 + n || !kindLength (byteAt b 0 / 16) n || crc32 (b.take (4 + n)) != leNat (b.drop (4 + n))

/-- A record of the twin link has a bad CRC (R395). -/
def recordBad (b : List (BitVec 8)) : Bool :=
  b.length != 64 || crc32 ((b.drop 1).take 59) != leNat (b.drop 60)

/-- KIND of a frame (R368). -/
def frameKind (f : PwyFrame) : Nat :=
  match f with
  | .sync .. => 1
  | .event .. => 2
  | .topo .. => 3
  | .dlyReq .. => 4
  | .dlyResp .. => 5

/-- Bytes of its payload (R368). -/
def framePayload (f : PwyFrame) : Nat :=
  match f with
  | .sync .. => 24
  | .event _ _ recs => 8 * recs.length
  | .topo .. => 16
  | .dlyReq .. => 8
  | .dlyResp .. => 16

/-- Originator position and sequence number of a frame. -/
def frameOrigin (f : PwyFrame) : Fin 32 × BitVec 8 :=
  match f with
  | .sync p q .. => (p, q)
  | .event p q _ => (p, q)
  | .topo q t => (t.pos, q)
  | .dlyReq p q _ => (p, q)
  | .dlyResp p q .. => (p, q)

/-- The four header bytes of a frame (R367). -/
def frameHeader (f : PwyFrame) : List (BitVec 8) :=
  [BitVec.ofNat 8 (16 * frameKind f), BitVec.ofNat 8 (framePayload f / 4), BitVec.ofNat 8 (frameOrigin f).1.val, (frameOrigin f).2]

end Machine
end Sys2Proof
end

