-- ==== Sys2Proof/Config.lean ====
section
/-! DEFINITION. What the spec leaves open and the model leaves free: opaque constants with no body, of which nothing can
be proved. Each is named in a log entry. -/

namespace Sys2Proof

/-- A bit whose value the spec leaves open, by the model's free counter (log 14). -/
opaque Config.freeBit : Nat → Bool

/-- A word whose value the spec leaves open, by the model's free counter (log 13). -/
opaque Config.freeWord : Nat → Word

/-- Error of the injection sine, within ±2 LSB, by the model's free counter (R188, log 15). -/
opaque Config.sineErr : Nat → Fin 5

/-- The words of the boot ROM, by byte address, which the spec does not give (log 16). -/
opaque Config.romWord : Nat → Word

/-- The entry, in the vendor partition, of the routine that serves a vendor call, which the spec does not give (R137, R144,
log 69). -/
opaque Config.vendorEntryOf : Nat → Nat

/-- The digest of the Oalvacen key in key slot 0, written at manufacture, which the spec does not give (R449, log 195). -/
opaque Config.vendorDigest : BitVec 256

/-- The device certificate, a chain to the key of slot 0, which each module has of its own (R462, log 214). -/
opaque Config.certificate : List (BitVec 8)

/-- The keys of a session, a 16-byte key and a 4-byte salt for each direction, from the client's nonce and public key, the module's
nonce and its ephemeral private key, which the model names by its free counter (R462, log 214). -/
opaque Config.sessionKeys : BitVec 256 → BitVec 512 → BitVec 256 → Nat → BitVec 320

/-- The module's serial number, which each module has of its own (R466, log 17). -/
opaque Config.serial : BitVec 64

end Sys2Proof
end

