-- ==== Sys2Proof/Machine/Parts.lean ====
section
/-! DEFINITION. What each unit holds beside its registers, as plain data, and what it holds right after reset. -/

namespace Sys2Proof
namespace Machine

/-- The three parts (R2). -/
inductive Part where
  | esk7216
  | esk7212
  | esk7208
  deriving DecidableEq, Repr

/-- The state of a source's route to its target (R308). -/
inductive RouteSt where
  | idle
  | pending
  | active
  | activePending
  deriving DecidableEq, Repr

/-- A route of the event router: source s for s < 1024, group g at 1024 + g (R308, R311). -/
structure Route where
  st : RouteSt
  /-- The waiting message is latched in the target pair's pending register (R307). -/
  latched : Bool
  /-- Source number the waiting message carries. -/
  src : Nat
  /-- Firings the waiting message stands for. -/
  cnt : Nat
  /-- Source number of the message being served, and the pair it was delivered to. -/
  cur : Nat
  by_ : Nat
  /-- MTIME bits 31:0 of the firing that the waiting message stands for (R368). -/
  fired : Word
  deriving DecidableEq, Repr

/-- The open batch of a coalescing group (R311). -/
structure Batch where
  count : Nat
  low : Nat
  start : Nat
  deriving DecidableEq, Repr

/-- An entry of the orphan queue (R312). -/
structure Orphan where
  w0 : Word
  w1 : Word
  deriving DecidableEq, Repr

/-- The event router beside its registers (R302 to R314). -/
structure EvrSt where
  routes : List (Nat × Route)
  /-- Filter outputs of the lines that are 1 (R305). -/
  filt : List Nat
  batches : List (Nat × Batch)
  orphans : List Orphan
  /-- Firings not yet offered to the taps, with the clock and MTIME of each (R313). -/
  taps : List (Nat × Nat × BitVec 64)
  /-- Firings that a perturbation unit delays (R476): the clock at which each reaches its target, its source, and the clock and
  MTIME of the firing. -/
  late : List (Nat × Nat × Nat × BitVec 64)
  deriving DecidableEq, Repr

/-- A Gorge window beside its registers (R64 to R77). -/
structure WinSt where
  /-- Latched outputs of the HIGH and LOW halves (R64). -/
  hi : Bool
  lo : Bool
  /-- The halves that have settled since the window entered UNSETTLED (R69). -/
  hiDone : Bool
  loDone : Bool
  /-- The 2 µs after entry into UNSETTLED run. -/
  settling : Bool
  /-- The thresholds the halves compare against; a staged pair switches later (R68). -/
  hiCode : Nat
  loCode : Nat
  hiStaged : Bool
  loStaged : Bool
  /-- Comparator outputs during a test (R74). -/
  testHi : Bool
  testLo : Bool
  /-- The input lies beyond the 2 % margin (R61). -/
  beyond : Bool
  /-- The line has been 1 since the module fell asleep, so that it has not risen (R78). -/
  waking : Bool
  deriving DecidableEq, Repr

/-- A record queued towards slice memory: two cells of a SAR record, or one of an injection record (R89, R193). -/
structure Rec where
  c0 : Cell
  c1 : Cell
  deriving DecidableEq, Repr

/-- What a SAR converter does (R79). -/
inductive SarPhase where
  | idle
  /-- Acquiring entry e from input i, selected as the acquisition started (R81). -/
  | acq (e i : Nat)
  /-- Converting entry e: the held code, the trims taken at the hold, the TIME of the hold (R86, R89). -/
  | conv (e : Nat) (x : Int) (raw : Bool) (cal : Word) (time : Word)
  deriving DecidableEq, Repr

/-- A result between its ready instant and its hand-off (R87). -/
structure SarRes where
  e : Nat
  x : Int
  y : Int
  time : Word
  deriving DecidableEq, Repr

/-- A SAR converter beside its registers. -/
structure SarSt where
  phase : SarPhase
  /-- Results waiting for their hand-off, oldest first. -/
  results : List SarRes
  /-- Records waiting for slice memory, oldest first, at most four (R89). -/
  queue : List Rec
  /-- Clock at which a trigger last found the converter idle, and clock at which its last burst ended: what "in the same
  cycle" means to R83. -/
  idleAt : Option Nat
  endAt : Option Nat
  deriving DecidableEq, Repr

/-- A record of a HIL feed (R94). -/
structure HilRec where
  value : BitVec 16
  validFrom : Word
  /-- Clock at which it entered the feed (R185). -/
  entered : Nat
  deriving DecidableEq, Repr

/-- The HIL feed of one input. -/
structure HilSt where
  feed : List HilRec
  last : BitVec 16
  deriving DecidableEq, Repr

/-- Loop state as a routine reads it: the snapshot at the sample boundary (R98, R114, R126). -/
structure Snap where
  ref : Int
  inp : Int
  e1 : Int
  e2 : Int
  e3 : Int
  y1 : Int
  y2 : Int
  y3 : Int
  b0 : Int
  b1 : Int
  b2 : Int
  b3 : Int
  a1 : Int
  a2 : Int
  a3 : Int
  shift : Nat
  min : Int
  max : Int
  man : Int
  manual : Bool
  /-- First automatic sample after TO_AUTO, with the value M (R118). -/
  autoFirst : Bool
  m : Int
  /-- Injection value d of the sample and its node (R189): 3 where the generator did not run, 4 where it ran and d is
  added nowhere (the first automatic sample). -/
  d : Int
  node : Nat
  /-- The phase that formed d, for the correlator (R193), and the injection run it belongs to: 0 for none. -/
  phi : Nat
  run : Nat
  deriving DecidableEq, Repr

/-- Commands of R115 whose effect the sample in progress carries (R114). -/
structure Effects where
  swap : Bool
  mode : Bool
  clear : Bool
  deriving DecidableEq, Repr

/-- A commit record at the commit port (R96, R105). -/
structure CommitRec where
  /-- CLAMP_Y input before injection (R99, R193). -/
  u : Int
  y : Int
  e : Int
  /-- The pre-clamp value CU: u with the injection of an OUTPUT node added (R189). -/
  cu : Int
  /-- History update 0 to 3 (R134). -/
  hist : Nat
  /-- Clamp flags of the sample (R100). -/
  hi : Bool
  lo : Bool
  snap : Snap
  eff : Effects
  /-- The records were compared equal and the write has begun, with the compare value for a PWM target (R103, R105). -/
  compared : Bool
  cmp : Nat
  /-- The routine ran on the half-cycle phase (R179). -/
  half : Bool
  /-- The clocks of a commit delay, the first one and the one after the last (R476). -/
  held : Option (Nat × Nat)
  deriving DecidableEq, Repr

/-- A CLE loop beside its registers. -/
structure LoopSt where
  /-- The record waiting at the commit port. -/
  commit : Option CommitRec
  /-- The sample that is owed was taken under LATE (R113): the running sample counts as LATE. -/
  late : Bool
  /-- The sample ended in a routine error and waits for the end of its commit cycle (R133). -/
  errored : Bool
  /-- The loop has committed since it left FENCED (R118). -/
  committed : Bool
  /-- y of the last automatic commit (R119). -/
  autoY : Int
  /-- Software has written MANUAL_VALUE since the boundary of the sample in progress (R119). -/
  manNew : Bool
  deriving DecidableEq, Repr

/-- Who the sequencer works for. -/
inductive SeqFor where
  | none
  | loop (j : Fin 16) (snap : Snap) (eff : Effects)
  | call
  deriving DecidableEq, Repr

/-- The sequencer and datapath of a CLE (R125 to R133). -/
structure SeqSt where
  who : SeqFor
  /-- Address of the next word. -/
  upc : Nat
  /-- Words issued of the routine, and its declared length L. -/
  words : Nat
  len : Nat
  /-- Repetitions left of a REP word; 0 outside one. -/
  rep : Nat
  stack : List Nat
  acc0 : Int
  acc1 : Int
  t : Vector Int 8
  cy : Int
  cu : Int
  /-- CLAMP_Y input before injection. -/
  cu0 : Int
  accSat : Bool
  clamped : Bool
  hadClamp : Bool
  /-- The last CLAMP_Y met MAX, or MIN. -/
  hi : Bool
  lo : Bool
  /-- A READ of the word before: the T register and the value, which arrive at the end of this word (R125). -/
  reads : Option (Nat × Int)
  deriving DecidableEq, Repr

/-- An attached-unit call of the slice pair (R144 to R146). -/
structure CallSt where
  /-- Entry k and operand payloads. -/
  k : Nat
  a : Word
  x : Word
  y : Word
  /-- Its words are issuing; otherwise it waits for the CLE. -/
  issuing : Bool
  /-- The result of a finished routine, waiting for comparison. -/
  result : Option Cell
  deriving DecidableEq, Repr

/-- The Control Law Engine of a slice beside its registers. -/
structure CleSt where
  loops : Vector LoopSt 16
  seqr : SeqSt
  /-- Cycles during which an errored sample keeps the CLE occupied: the loop it belongs to (R133). -/
  blocked : Bool
  call : Option CallSt
  /-- Staging buffer of the MCS window (R140). -/
  staging : BitVec 128
  /-- The phase of the routines is the half-cycle one, and a loop was queued when the last of them ended, so that the next
  keeps it (R179). -/
  half : Bool
  keeps : Bool
  deriving DecidableEq, Repr

/-- A PWM channel beside its registers (R147 to R173). -/
structure PwmSt where
  /-- Unfolded position u at clock `base` (R162), and the clock of the last valley, period point or restart. -/
  pos : Nat
  base : Nat
  turn : Nat
  /-- Occurrences since the last firing, per event (R156). -/
  occ : Vector Nat 4
  /-- CMP values written in IMMEDIATE mode that wait for their activation, oldest first, each with the instant of it in
  sixteenths of the clock (R160, R179). -/
  staged : List (Nat × Nat)
  /-- A restart waits for the cycle after the write (R164). -/
  restart : Bool
  /-- The restart follows EN changing to 1 (R149). -/
  fresh : Bool
  /-- The incoming output of the last phase change waits out its dead time (R154). -/
  dt : Bool
  /-- Pins after the trip stage. -/
  pinA : Bool
  pinB : Bool
  /-- Last turn-off of each pin, in sixteenths of the clock (R167). -/
  offA : Option Nat
  offB : Option Nat
  /-- Last turn-off of the edge generator's outputs, in sixteenths of the clock (R154). -/
  eoffA : Nat
  eoffB : Nat
  /-- Phase kept by a HOLD pattern: true for B (R166). -/
  holdB : Bool
  /-- Pattern last applied: 0 off, 1 TRIP_ACT, 2 SAFE_PAT, 3 edge generator. -/
  line : Nat
  /-- Armed, but waiting for the channel's own next VALLEY (R32). -/
  armWait : Bool
  /-- Clock of the accepted clear that REARM_PEND stands for (R171). -/
  clearAt : Option Nat
  deriving DecidableEq, Repr

/-- A capture channel: FIFO of MTIME values, oldest first, at most four (R174). -/
structure CapSt where
  fifo : List Word
  /-- The filtered level of its pin, and of the input it is given: the pin after POL, or a window's line. -/
  pin : Bool
  level : Bool
  deriving DecidableEq, Repr

/-- The injection unit of a slice beside its registers (R188 to R193). -/
structure InjSt where
  phi : Nat
  inc : Nat
  lfsr : Nat
  chip : Nat
  /-- Computed samples since the correlation began. -/
  samples : Nat
  sums : Vector Int 4
  queue : List Rec
  /-- The run was started under SERVICE (R192). -/
  service : Bool
  /-- Runs started: the number of the current one. -/
  runs : Nat
  deriving DecidableEq, Repr

/-- Slice control beside its registers (R50 to R56). -/
structure CtlSt where
  /-- A FENCE has been accepted and SLC_STATE does not read FENCED yet (R52). -/
  fencing : Bool
  /-- The cause to record when it does. -/
  fenceCause : Nat
  /-- The commands of R54 in progress. -/
  goPending : Bool
  resuming : Bool
  restarting : Bool
  /-- Program memory holds a loaded image (R54). -/
  image : Bool
  /-- Loop triggers are unmasked. -/
  unmasked : Bool
  /-- The slice holds SAFE_PAT (R51, R172). -/
  safeHold : Bool
  /-- A divergence of the slice's core pair stands (R272). -/
  diverged : Bool
  /-- A CLE machine check or commit mismatch is unresolved (R168). -/
  mcheck : Bool
  /-- The microcode address that failed its fetch, to be rewritten during recovery (R137). -/
  badWord : Option Nat
  /-- An attach held during a recovery (R279): the session. -/
  attachHeld : Option Nat
  /-- Test pins: level of the trip inputs at the pins. -/
  tripPin : Vector Bool 4
  /-- Loop samples refused since recovery began, per loop (R389). -/
  skipped : Vector Nat 16
  /-- Clock at which the FENCE in progress was accepted (R275). -/
  fenceAt : Nat
  /-- The pair has diverged during the self-tests of a RESTART (R273). -/
  testDiv : Bool
  /-- A fault was detected after the FENCE in progress had been accepted (R57, R273). -/
  fenceFault : Bool
  /-- A FENCE to be taken by the twin (R405). -/
  toTwin : Bool
  /-- Entry into RECOVERING: the clock and SLC_REC_STAT.CAUSE (R383). -/
  recStart : Nat
  recCause : Nat
  /-- The slice is being taken over (R401). -/
  takeover : Bool
  /-- Channels that hold SAFE_PAT until their loop's first commit after a takeover (R401). -/
  recWait : Vector Bool 8
  /-- Clock of the last disarm, and the arm requests of the last cycle that had any: its clock, PENDING before them, and what they
  added to DEV_ARM_REJ (R33). -/
  disarmAt : Option Nat
  armNote : Option (Nat × Bool × Nat)
  /-- FENCED, with the reload from a pending bank waiting for its array (R411, R421). -/
  bankWait : Bool
  deriving DecidableEq, Repr

/-- A record of the twin link (R395, R396). -/
inductive TwinRec where
  /-- COMMIT or SNAP: slice, loop, SNAP?, loop state after the commit, target value, CLE_TGT, CFGSEQ. -/
  | loopRec (snap : Bool) (n : Slice) (j : Fin 16) (ls : LoopImage) (cfgseq : Nat)
  /-- CONFIG: slice, offset in the slice block, value, CFGSEQ. -/
  | config (n : Slice) (off : Nat) (v : Word) (cfgseq : Nat)
  /-- HANDOVER: slice mask, cause, MTIME of deposition. -/
  | handover (mask : BitVec 12) (cause : Nat) (time : BitVec 64)
  /-- TAKE_ACK: slices taken and refused. -/
  | takeAck (taken refused : BitVec 12)
  /-- STATUS: SYNCED, ARMED and STANDBY masks and the HEALTHY bit. -/
  | status (synced armed standby : BitVec 12) (healthy : Bool)
  deriving DecidableEq, Repr

/-- The twin link beside its registers (R391 to R407). -/
structure TwnSt where
  /-- Records waiting to be sent, oldest first, at most 64 (R399). -/
  queue : List TwinRec
  /-- STREAM of the next record (R395). -/
  stream : Nat
  /-- A record was dropped within the last millisecond (R399). -/
  dropRecent : Bool
  peer : Option TwinPeer
  /-- The pairing of R392 has been made. -/
  paired : Bool
  /-- CONFIG records sent, and applied, per slice (R395, R397). -/
  cfgSent : Vector Nat 12
  cfgDone : Vector Nat 12
  /-- CFGSEQ of the records received agreed with the count (R397). -/
  cfgOk : Vector Bool 12
  /-- Loops that have applied a SNAP (R397). -/
  snapped : Vector (BitVec 16) 12
  /-- The partner's standby RUNNING slices, as last reported (R396). -/
  peerStandby : BitVec 12
  /-- Slices named in a HANDOVER record that waits for its TAKE_ACK (R403). -/
  await : BitVec 12
  /-- Link loss of 1.00 µs has been seen, and no link since (R402). -/
  lost : Bool
  /-- Clock at which the last STATUS record was applied (R399). -/
  statusAt : Nat
  /-- Clocks of the last record dropped (R399), of the loss of the link (R402) and of the last HANDOVER record sent (R403). -/
  dropAt : Nat
  lostAt : Nat
  sentAt : Nat
  /-- Loops whose CONFIG and SNAP records wait for room in the queue (R396, log 175). -/
  snapDue : List (Slice × Fin 16)
  /-- A bit of TWN_ROLE or TWN_SYNC has changed, and STATUS follows in the next cycle (R396). -/
  statusDue : Bool
  /-- Clock at which source 982 last fired (R407). -/
  syncAt : Option Nat
  /-- STREAM of the record to be applied next, known once one has been received, and the records that are ahead of their turn
  (R395). -/
  rx : Option Nat
  ahead : List (Nat × TwinRec)
  deriving DecidableEq, Repr


/-- A capability quad in its four cells (R245). -/
structure Quad where
  base : Cell
  len : Cell
  perms : Cell
  st : Cell
  deriving DecidableEq, Repr

/-- A capability set: C0 to C7, DSP and RSP (R249). -/
structure CapSet where
  c : Vector Quad 8
  dsp : Word
  rsp : Word
  deriving DecidableEq, Repr

/-- An entry of the store buffer (R238): a whole cell, a byte or a halfword at a byte address. -/
inductive SbEntry where
  | cell (a : Nat) (c : Cell)
  | byte (a : Nat) (b : BitVec 8)
  | half (a : Nat) (h : BitVec 16)
  deriving DecidableEq, Repr

/-- An entry of the replay log (R387): a value that enters the pair, a message with the count of retired instructions at which
it was taken, or an output that the comparator releases. -/
inductive LogItem where
  | read (c : Cell)
  | event (src n : Nat)
  | time (v : Word)
  | result (c : Cell)
  | store (e : SbEntry)
  | write (a : Nat) (c : Cell)
  | program (a : Nat) (v : BitVec 14)
  | call (k : Nat)
  deriving DecidableEq, Repr

/-- The registers of a core that a checkpoint copies (R207, R386). -/
structure CoreRegs where
  a : BitVec 40
  atag : BitVec 4
  x : Cell
  y : Cell
  pg : BitVec 16
  pc : BitVec 17
  lstart : BitVec 17
  lend : BitVec 17
  lcount : Word
  sets : Vector CapSet 8
  /-- Link stack, newest first: return address and set (R257). -/
  link : List (Nat × Nat)
  /-- Store buffer, oldest first (R238). -/
  sb : List SbEntry
  /-- Frames on the emergency stack (R264). -/
  efr : Nat
  deriving DecidableEq, Repr

/-- A result of a LONG operation under way (R223, R224): the registers it will write. -/
structure LongRes where
  a : Option (BitVec 40 × BitVec 4)
  x : Option Cell
  y : Option Cell
  deriving DecidableEq, Repr

/-- A locked sequence (R227). -/
structure LockSt where
  /-- Instructions so far, LOCK included. -/
  n : Nat
  /-- The reserved cell, and whether the reservation still stands. -/
  resv : Option Nat
  good : Bool
  deriving DecidableEq, Repr

/-- A core pair beside its registers (chapters 13 to 16). -/
structure CoreSt where
  r : CoreRegs
  /-- Prefixes waiting for their instruction, in program order, and the address of the first (R220). -/
  pfx : List Nat
  pfxPc : Nat
  /-- In a delay slot: the branch's address, and where it goes when taken (R217, R266). -/
  slot : Option (Nat × Option Nat)
  /-- In a CAPSW shadow: the address of the CAPSW and the set to come (R251). -/
  shadow : Option (Nat × Nat)
  lock : Option LockSt
  long : Option LongRes
  /-- An attached-unit call has been issued and its result has not reached A (R145). -/
  att : Bool
  /-- Waiting in WFE (R219). -/
  wfe : Bool
  /-- Halted by a fence, an emergency-stack fault or a divergence (R52, R265, R274). -/
  halted : Bool
  /-- Halted by the debugger (R468). -/
  dbgHalt : Bool
  /-- The session that is attached (R278). -/
  attached : Option Nat
  /-- Checkpoint of the registers with KC_CSEL, and since it the replay log, youngest first, and the instructions retired (R386,
  R387). -/
  ck : Option (CoreRegs × Word)
  log : List LogItem
  retired : Nat
  /-- Clock of that checkpoint, and the one before it with its entries, to which a fault in the same cycle goes back. -/
  ckAt : Nat
  ckWas : Option (CoreRegs × Word)
  logWas : List LogItem
  /-- The loop buffer: words of the active body, by address (R237). -/
  lbuf : List (Nat × PWord)
  /-- In a delay slot: LOOP_COUNT with which the branch executes again after a fault in the slot (R266). -/
  slotCount : Word
  /-- The group of four program words that the fetch queue holds (R236). -/
  fq : Option Nat
  deriving DecidableEq, Repr

/-- What the replay of a rollback leads back to: the pair, KC_CSEL and the attached call as the fault found them (R387). -/
structure Rollback where
  core : CoreSt
  csel : Word
  call : Option CallSt
  deriving DecidableEq, Repr

/-- An open LOOP of a DMA program (R318). -/
structure DmaLoop where
  start : Nat
  /-- Iterations left, 0 for ever. -/
  left : Nat
  i : Nat
  ss : Int
  ds : Int
  deriving DecidableEq, Repr

/-- A WAIT under way (R322): the source, the timeout in µs, and MTIME and clock at its begin. -/
structure DmaWait where
  src : Nat
  us : Nat
  since : Nat
  at_ : Nat
  deriving DecidableEq, Repr

/-- What a DMA channel does once its outstanding writes are answered (R323, R325, R326). -/
inductive DmaAfter where
  | nothing
  | fence
  | signal
  | finish
  | halt
  | state
  | error (code : Nat) (addr : Nat)
  deriving DecidableEq, Repr

/-- A DMA channel beside its registers (chapter 19). -/
structure DmaCh where
  loops : List DmaLoop
  /-- A WAIT under way (R322). -/
  wait : Option DmaWait
  after : DmaAfter
  /-- STATE before PAUSED (R325). -/
  was : Nat
  /-- The block instruction at DMA_PC, reached but not ended: its cells as they were read, and the writes it has made (R316,
R323). -/
  block : Option (List Nat × Nat)
  deriving DecidableEq, Repr

/-- Memories beside their cells (chapter 17). -/
structure MemSt where
  /-- Cells and program words whose stored bits hold an error: address, and whether it is uncorrectable (R281, R282). -/
  ecc : List (Nat × Bool)
  /-- The same for program words, by pair × 2^17 + address. -/
  pecc : List (Nat × Bool)
  /-- Corrected cells waiting for their write-back (R281). -/
  wb : List Nat
  /-- Main-memory pages whose bit is set (R300), and the channels whose background fill has ended. -/
  pages : List Nat
  filled : Vector Bool 2
  /-- The march in progress: target, destructive (R295). -/
  march : Option (Nat × Bool)
  /-- Memories that are being cleared (R294): bit n the memories of slice n, bit 12 Plain, bit 13 secure SRAM. -/
  clearing : BitVec 14
  /-- Clocks of the uncorrectable errors of each main-memory channel within the last second, newest first (R301). -/
  ueAt : Vector (List Nat) 2
  deriving DecidableEq, Repr


/-- What an executing descriptor waits for (R354). -/
inductive Await where
  | nothing
  /-- The data of its host read: the words that have come, and the bytes that requests have been issued for (R342). -/
  | read (got : List Word) (sent : Nat)
  /-- The array of a FLASH_OP, for the page that has come from host memory (R425). -/
  | page (ws : List Word)
  /-- The boundary at which a bank swap, or a mode change, of loop j of slice n takes effect. -/
  | swap (n j : Nat)
  | mode (n j : Nat)
  /-- The end of the injection run of slice n. -/
  | inj (n : Nat)
  /-- The end of the program of DMA channel c of engine e. -/
  | dma (e c : Nat)
  /-- The CRC after LD_OPEN is closed in slice n; `word`: the word the load refused, 0 for none. -/
  | crc (n word : Nat)
  /-- The end of a flash operation of block key `k` (array × 256 + block): 0 erase, 1 program, 2 margin check. -/
  | flash (k op : Nat)
  | march
  /-- SLC_STATE of slice n reading FENCED. -/
  | fenced (n : Nat)
  /-- The tests of a RESTART, then a RESUME; the check of a RESUME; the unmasking after a GO. -/
  | restart (n : Nat) (go : Bool)
  | resume (n : Nat) (go : Bool)
  | running (n : Nat)
  /-- A tap firing of a source. -/
  | event (src : Nat)
  deriving DecidableEq, Repr

/-- A submission entry (R351). -/
structure Desc where
  op : Nat
  relaxed : Bool
  notify : Bool
  tag : Nat
  slice : Nat
  unit : Nat
  addr : Nat
  p : Vector Word 12
  /-- A reserved field is not zero. -/
  bad : Bool
  deriving DecidableEq, Repr

/-- A descriptor in flight and not yet finished (R358 to R360). -/
structure Flight where
  /-- Place in the order of fetch. -/
  pos : Nat
  sq : Nat
  d : Desc
  begun : Bool
  await : Await
  /-- Stopped, or kept waiting, by the recovery of its slice. -/
  held : Bool
  /-- Executed again after a recovery: OK becomes REPLAYED. -/
  replay : Bool
  /-- Its slice changed owner while it was in flight (R356). -/
  lost : Bool
  /-- A perturbation was active while it ran. -/
  ptb : Bool
  /-- The model's count of ticks when it last began (R354); none for one that has not begun. -/
  since : Option Nat
  deriving DecidableEq, Repr

/-- A finished descriptor whose completion entry has not been written (R352). -/
structure Compl where
  pos : Nat
  sq : Nat
  slice : Nat
  tag : Nat
  status : Nat
  result : BitVec 64
  notify : Bool
  ptb : Bool
  /-- It was RELAXED, and counts to the limit of its ring until its entry is written (R359). -/
  relaxed : Bool
  deriving DecidableEq, Repr

/-- A function beside its page (chapters 20 and 21). -/
structure FnSt where
  /-- Descriptors in flight, in order of fetch, then the finished ones in order of finishing. -/
  flights : List Flight
  done : List Compl
  /-- Descriptors fetched since the function was enabled. -/
  fetched : Nat
  /-- Rings whose entry at the head is being read (R348, R359), and how many of those reads the abort in progress gave up. -/
  asked : Vector Bool 8
  cut : Nat
  /-- Entries that each completion ring holds (R349). -/
  cqHeld : Vector Nat 8
  /-- Cause of the abort in progress, 0 where none or a plain disable runs; the slices it fenced and handed over. -/
  cause : Nat
  abtFenced : BitVec 12
  abtTwin : BitVec 12
  /-- Host reads issued before an abort and not answered yet (R363). -/
  late : Nat
  /-- Configuration space: Bus Master Enable, D3hot, MSI-X Enable and Function Mask (R333, R343). -/
  bme : Bool
  d3hot : Bool
  msixEn : Bool
  fmask : Bool
  /-- Vectors unmasked in the MSI-X table, and the pending bits (R343). -/
  vopen : List Nat
  vpend : List Nat
  /-- The host trace ring that TRACE_ARM armed: base, log2 of its size, next packet (R354, R475). -/
  trace : Option (Nat × Nat × Nat)
  /-- Base address registers, in halves (R337); logged errors (R327, R342). -/
  bars : Vector Word 6
  aer : Word
  /-- Max_Payload_Size and Max_Read_Request_Size, as powers of two above 128 B, and 10-Bit Tag Requester Enable (R342). -/
  mps : Nat
  mrrs : Nat
  tag10 : Bool
  /-- The function has been disabled, and not enabled again: its BAR0 and BAR2 writes are discarded (R341). -/
  stopped : Bool
  /-- Ring at which the fetches of the function go on (R358). -/
  ring : Nat
  /-- The model's count of ticks at the DISABLE in progress (R346). -/
  disAt : Nat
  deriving DecidableEq, Repr

/-- What the header and section entry of a loaded image give a pair: entry address, and base and length of C2 and C3
(R250, R422). -/
structure ImgInfo where
  entry : Nat
  base2 : Word
  len2 : Word
  base3 : Word
  len3 : Word
  deriving DecidableEq, Repr

/-- A trace packet (R473). -/
structure Packet where
  payload : Word
  time : BitVec 48
  src : Nat
  tag : BitVec 4
  post : Nat
  ptb : Bool
  seq : Nat
  lost : Bool
  deriving DecidableEq, Repr

/-- The trace queue of a slice, or of the system pair (R474). -/
structure TrcSt where
  queue : List Packet
  /-- A packet has been dropped since the last one delivered. -/
  lost : Bool
  /-- SEQ of the next packet. -/
  seq : Nat
  deriving DecidableEq, Repr

/-- The information area of a flash block (R412, R417). -/
structure BlkInfo where
  /-- Erases started. -/
  cnt : Nat
  /-- The erase flag cell, and the mark ERASE_INCOMPLETE (R412, R414). -/
  flag : Bool
  incomplete : Bool
  worn : Bool
  warn : Bool
  suspended : Bool
  maxRetry : Nat
  lastErase : Nat
  /-- Pages programmed since the last erase, and those whose programming was cut off (R410, R415), by bit. -/
  prog : Nat
  cut : Nat
  /-- Corrected errors of its lines, and the mark for the scrub that the last of them has left (R409). -/
  corr : Nat
  decay : Bool
  deriving DecidableEq, Repr

/-- An operation that a flash array runs (R410, R412, R416). -/
inductive FlcOp where
  | erase
  | program (page : Nat) (data : List Word)
  | margin
  deriving DecidableEq, Repr

/-- A rewrite by the scrub, as the spare's information area records it (R418, R419): the source block, and the stage: 1 the spare
is erased, 2 the block is copied into it, 3 the block is erased, 4 it is programmed back. `paused`: for a waiting read (R411). -/
structure Rewrite where
  arr : Nat
  blk : Nat
  stage : Nat
  paused : Bool
  deriving DecidableEq, Repr

/-- The operation in progress: block `blk` of array `arr`. -/
structure FlcRun where
  op : FlcOp
  arr : Nat
  blk : Nat
  /-- Suspended for a waiting read (R411). -/
  paused : Bool
  /-- Started by the ROM loader, which answers over CAN FD or the mailbox (R424). -/
  loader : Option Bool
  deriving DecidableEq, Repr

/-- The stage of a password (R420). -/
inductive PwStage where
  | none
  | low (lo : Word)
  | full (lo hi : Word)
  deriving DecidableEq, Repr

/-- The flash arrays and their controller (chapter 24). -/
structure FlcSt where
  /-- Flash words by byte address; unlisted words are erased (R409). -/
  words : List (Nat × Word)
  /-- Lines whose stored bits are in error, by address: uncorrectable or not (R409). -/
  lines : List (Nat × Bool)
  /-- Information areas by array × 256 + block. -/
  info : List (Nat × BlkInfo)
  run : Option FlcRun
  /-- The suspended erase of each array. -/
  susp : Vector (Option Nat) 3
  stage : PwStage
  /-- Passwords of the protected regions. -/
  pw : Vector (BitVec 64) 8
  /-- Array and, by array, block that the scrub checks next; the rewrite in progress (R418). -/
  turn : Nat
  scrub : Vector Nat 3
  rewrite : Option Rewrite
  deriving DecidableEq, Repr

/-- The security unit beside its registers (chapter 26). -/
structure SecSt where
  /-- Digests of the customer keys in slots 1 to 3 (R449). -/
  keys : Vector (BitVec 256) 3
  /-- Digests of the images that have passed, by bank, for the wakes (R451). -/
  images : Vector (Option (BitVec 256)) 2
  /-- Target of an accepted transition whose state has not been written (R455). -/
  req : Option Nat
  /-- Clock of the last acceptance of a transition, and of the last detection (R458). -/
  reqAt : Nat
  hitAt : Option Nat
  /-- A valid RETURNED token has been delivered (R454). -/
  token : Bool
  /-- A transition whose erasures step 4 has still to do: 0 none, 3 RETURNED, 4 RETIRED. -/
  due : Nat
  /-- The tamper monitor or the supply supervisor has recorded an event since the module fell asleep (R39). -/
  event : Bool
  /-- Version of the image that is running (R452). -/
  version : Word
  deriving DecidableEq, Repr

/-- The supply and the pins beside their registers (chapter 25). -/
structure PwrSt where
  /-- Pins in fold-back: connector 2, 3 or 4, and pin (R433). -/
  fold : List (Nat × Nat)
  /-- The logic rails are good (R19, R25, R429). -/
  rails : Bool
  deriving DecidableEq, Repr

/-- A response of the monitor: command code, status, and result cells (R466). -/
structure Resp where
  code : Nat
  status : Nat
  data : List Cell
  deriving DecidableEq, Repr

/-- A Colbel session (R462 to R465). -/
structure Session where
  /-- Transport of its last request: 0 mailbox, 1 UDP, 2 CAN FD (log 178). -/
  tr : Nat
  /-- Authority: 0 none, 1 DEBUG, 2 TEST; the one asked for by an AUTH that has been challenged. -/
  auth : Nat
  asked : Option Nat
  /-- SEQ of the last request executed, and its response. -/
  last : Option Nat
  resp : Option Resp
  /-- Trace packets waiting to be sent (R475). -/
  trace : List Packet
  /-- Clock of the last valid request (R465). -/
  at_ : Nat
  /-- The session keys, held in secure SRAM (R462). -/
  keys : BitVec 320
  deriving DecidableEq, Repr

/-- An instruction breakpoint (R470): PC, set mask, and the session that set it. -/
structure Bp where
  pc : Nat
  sets : Nat
  sess : Nat
  deriving DecidableEq, Repr

/-- A watchpoint: range, directions, payload, and the session that set it. -/
structure Wp where
  base : Nat
  len : Nat
  rd : Bool
  wr : Bool
  value : Option Word
  sess : Nat
  deriving DecidableEq, Repr

/-- A STEP under way (R469): the session and SEQ of its request, the steps that are left, and its IRQ bit. -/
structure StepRun where
  sess : Nat
  seq : Nat
  left : Nat
  irq : Bool
  deriving DecidableEq, Repr

/-- The monitor (chapter 27). -/
structure DbgSt where
  sess : Vector (Option Session) 4
  /-- Messages received on each transport and not yet taken. -/
  inbox : Vector Nat 3
  /-- Consecutive refusals on each transport, and whether it refuses every HELLO (R463). -/
  refused : Vector Nat 3
  locked : Vector Bool 3
  /-- Clock at which it began to. -/
  lockAt : Vector Nat 3
  /-- Next segment index of a message being received, per CAN FD controller (R460). -/
  seg : Vector (Option Nat) 2
  /-- Clock of the first segment of that message. -/
  segAt : Vector Nat 2
  bp : Vector (Vector (Option Bp) 4) 12
  wp : Vector (Vector (Option Wp) 2) 12
  /-- A HALT that has not taken effect: session and SEQ. -/
  haltReq : Vector (Option (Nat × Nat)) 12
  /-- The pair resumes at a breakpoint, which does not stop it again. -/
  skip : Vector Bool 12
  /-- A data access has matched a watchpoint that this session set. -/
  wpHit : Vector (Option Nat) 12
  /-- Session that set DBG_TESTOUT of each slice. -/
  outBy : Vector (Option Nat) 12
  /-- Session that halted each pair: by HALT, or by a breakpoint or watchpoint it set (R465). -/
  haltBy : Vector (Option Nat) 12
  /-- STEP under way on each pair. -/
  steps : Vector (Option StepRun) 12
  /-- Free values that the response in the mailbox shows beyond its header (R460, log 13). -/
  mbxRsp : Option Nat
  deriving DecidableEq, Repr


/-- A metering conversion under way (R198, R203). -/
structure MadConv where
  ch : Nat
  urgent : Bool
  /-- The integration began while REF_SETTLED was 0. -/
  unsettled : Bool
  deriving DecidableEq, Repr

/-- The metering converter beside its registers (chapter 12). -/
structure MadSt where
  conv : Vector (Option MadConv) 4
  /-- Scan position p, the mask in force, and whether MASK has been written since the last boundary. -/
  pos : Nat
  mask : BitVec 16
  fresh : Bool
  /-- p does not advance at the next boundary: an urgent conversion runs (R202). -/
  hold : Bool
  /-- Channel of an accepted urgent request that has not started. -/
  urg : Option Nat
  /-- Clock of the last accepted crossing, of the boundary that began the integration in progress, and of the last boundary
  (R196, R197, log 205). -/
  crossed : Option Nat
  last : Option Nat
  mark : Option Nat
  /-- An accepted crossing awaits its boundary; it relocks after a lost line. -/
  due : Bool
  relock : Bool
  /-- Records waiting for Plain, at most eight. -/
  queue : List (Vector Cell 4)
  /-- Clock at the accepted crossing whose boundary is due (R196). -/
  dueAt : Nat
  /-- MTIME at which the first unit was enabled, from which FIXED boundaries count (R196). -/
  base : Nat
  deriving DecidableEq, Repr

/-- Which epochs an importer has seen from an export slot (R377). -/
structure ImpSt where
  epoch : Nat
  /-- A different epoch seen once, just before. -/
  cand : Option Nat
  deriving DecidableEq, Repr

/-- Passway beside its registers (R366 to R382). -/
structure PwySt where
  /-- What the TOPO frames of each other member last reported, and the port on which its first copy came, 2 where
  that port has lost its link and no other leads on (R369, R371, R372). -/
  members : Vector (Option (PwyTopo × Nat)) 32
  /-- Sequence numbers accepted lately from each position, newest first (R369). -/
  seen : Vector (List Nat) 32
  /-- Own sequence number. -/
  seq : Nat
  /-- Port p leads out of the group (R371). -/
  boundary : Vector Bool 2
  /-- Own position found already present (R371). -/
  dup : Bool
  /-- Clock at which the module last found other members (R371). -/
  joined : Nat
  /-- Consecutive SYNCs whose offsets lie within 1 ns of the first of them, and that first offset (R374). -/
  steady : Nat
  first : Int
  /-- An announced group-wide step: T_APPLY and STEP (R375). -/
  step : Option (Nat × Int)
  /-- T_APPLY of the last step applied, which a SYNC already under way still announces (R375). -/
  applied : Option Nat
  /-- Clock at which the last announced step is due (R380). -/
  lastStep : Option Nat
  /-- Epochs seen, by position × 32 + slot (R377). -/
  imps : List (Nat × ImpSt)
  /-- Link state of the two Ethernet ports (R378). -/
  ecn : Vector Bool 2
  /-- Sender and clock of the last announcement of each group (R378). -/
  sysFrom : Vector (Option (Nat × Nat)) 64
  /-- Frames and twin records of each port since the last one a frame fault took (R476). -/
  faulted : Vector Nat 4
  deriving DecidableEq, Repr


/-- What the module sends outside: host memory writes, MSI-X messages, frames, packets and responses, in order. -/
inductive Out where
  /-- A write to host memory by function f, 32-bit words from a byte address. -/
  | hostWrite (f : Nat) (addr : Nat) (ws : List Word)
  /-- A read request to host memory by function f. -/
  | hostRead (f : Nat) (addr : Nat) (bytes : Nat)
  /-- Unsupported Request, answered to a request of function f outside its BARs (R338). -/
  | unsupported (f : Nat)
  /-- An MSI-X message of vector v. -/
  | msix (v : Nat)
  /-- A Passway frame on a port; `bad`: sent with its CRC inverted (R476). -/
  | frame (port : Nat) (bad : Bool) (fr : PwyFrame)
  /-- A record on a port of the twin link, with its STREAM. -/
  | twin (port : Nat) (bad : Bool) (stream : Nat) (r : TwinRec)
  /-- A group announcement datagram (R378). -/
  | announce (group pos : Nat) (mask : Word) (gepoch : Nat)
  /-- An answer of the ROM loader over CAN FD, or the PF0 mailbox: opcode, status and result (R424). -/
  | loader (can : Bool) (op status result : Nat)
  /-- HELLO_RSP on a transport, opening a session, with nonce, ephemeral public key, certificate and signature (R462). -/
  | hello (tr sess : Nat) (nonce : BitVec 256) (key : BitVec 512) (cert : List (BitVec 8)) (sig : BitVec 512)
  /-- An ERROR message on a transport: status (R460, R463). -/
  | colbelError (tr status : Nat)
  /-- A sealed response (R464, R466). -/
  | colbel (tr sess seq : Nat) (r : Resp)
  /-- Trace packets sealed to a session (R475). -/
  | colbelTrace (tr sess : Nat) (ps : List Packet)
  deriving DecidableEq, Repr

end Machine
end Sys2Proof
end

