-- ==== Sys2Proof/Machine/Reset.lean ====
section
/-! DEFINITION. What each unit holds beside its registers right after reset. -/

namespace Sys2Proof
namespace Machine

def resetEvr : EvrSt := ⟨[], [], [], [], [], []⟩
/-- A window: both halves undecided, thresholds at their reset codes. -/
def resetWin : WinSt := ⟨false, false, false, false, false, 0xFFF, 0, false, false, false, false, false, false⟩
def resetSar : SarSt := ⟨.idle, [], [], none, none⟩
def resetHil : HilSt := ⟨[], 0⟩
def resetLoop : LoopSt := ⟨none, false, false, false, 0, false⟩
/-- A sequencer at the start of a routine. T0 to T7 are 0 by R127; the accumulators, CY and CU, for which the spec gives no start
value, are 0 too (log 193). -/
def resetSeq : SeqSt :=
  ⟨.none, 0, 0, 0, 0, [], 0, 0, Vector.replicate 8 0, 0, 0, 0, false, false, false, false, false, none⟩
def resetCle : CleSt := ⟨Vector.replicate 16 resetLoop, resetSeq, false, none, 0, false, false⟩
/-- A channel: at the valley, in phase B, both pins off. -/
def resetPwm : PwmSt :=
  ⟨0, 0, 0, Vector.replicate 4 0, [], false, false, false, false, false, none, none, 0, 0, true, 0, false, none⟩
/-- A capture channel: empty, its pin low (log 5). -/
def resetCap : CapSt := ⟨[], false, false⟩
def resetInj : InjSt := ⟨0, 0, 0, 0, 0, Vector.replicate 4 0, [], false, 0⟩
def resetCtl : CtlSt :=
  ⟨false, 0, false, false, false, false, false, false, false, false, none, none, Vector.replicate 4 false,
    Vector.replicate 16 0, 0, false, false, false, 0, 0, false, Vector.replicate 8 false, none, none, false⟩
def resetPwy : PwySt :=
  ⟨Vector.replicate 32 none, Vector.replicate 32 [], 0, Vector.replicate 2 false, false, 0, 0, 0, none, none, none, [],
    Vector.replicate 2 false, Vector.replicate 64 none, Vector.replicate 4 0⟩
def resetTwn : TwnSt :=
  ⟨[], 0, false, none, false, Vector.replicate 12 0, Vector.replicate 12 0, Vector.replicate 12 true,
    Vector.replicate 12 0, 0, 0, false, 0, 0, 0, 0, [], false, none, none, []⟩


def noCell : Cell := ⟨0, 0⟩
def emptyQuad : Quad := ⟨noCell, noCell, noCell, noCell⟩
def emptySet : CapSet := ⟨Vector.replicate 8 emptyQuad, 0, 0⟩
/-- A pair before any image is loaded: every register EMPTY or 0 (R207), and halted until start-up releases it. -/
def resetRegsK : CoreRegs :=
  ⟨0, 0, noCell, noCell, 0, 0, 0, 0, 0, Vector.replicate 8 emptySet, [], [], 0⟩
def resetCore : CoreSt :=
  ⟨resetRegsK, [], 0, none, none, none, none, false, false, true, false, none, none, [], 0, 0, none, [], [], 0, none⟩
def resetDma : DmaCh := ⟨[], none, .nothing, 0, none⟩
def resetMem : MemSt := ⟨[], [], [], [], Vector.replicate 2 false, none, 0, Vector.replicate 2 []⟩


def resetFn : FnSt := ⟨[], [], 0, Vector.replicate 8 false, 0, Vector.replicate 8 0, 0, 0, 0, 0, false, false, false, false, [], [], none,
  Vector.replicate 6 0, 0, 0, 2, false, false, 0, 0⟩

def resetTrc : TrcSt := ⟨[], false, 0⟩

def resetBlk : BlkInfo := ⟨0, false, false, false, false, false, 0, 0, 0, 0, 0, false⟩
def resetFlc : FlcSt := ⟨[], [], [], none, .replicate 3 none, .none, .replicate 8 0, 0, .replicate 3 0, none⟩

def resetSec : SecSt := ⟨.replicate 3 0, .replicate 2 none, none, 0, none, false, 0, false, 0⟩
def resetPwr : PwrSt := ⟨[], false⟩

def resetDbg : DbgSt :=
  ⟨.replicate 4 none, .replicate 3 0, .replicate 3 0, .replicate 3 false, .replicate 3 0, .replicate 2 none, .replicate 2 0, .replicate 12 (.replicate 4 none),
    .replicate 12 (.replicate 2 none), .replicate 12 none, .replicate 12 false, .replicate 12 none, .replicate 12 none, .replicate 12 none, .replicate 12 none, none⟩

def resetMad : MadSt := ⟨Vector.replicate 4 none, 0, 0, false, false, none, none, none, none, false, false, [], 0, 0⟩


end Machine
end Sys2Proof
end

