-- ==== Sys2Proof/Machine/State.lean ====
section
/-! DEFINITION. The state of the module as plain data, and the state right after reset. -/

namespace Sys2Proof
namespace Machine

/-- Why the machine stops with a fault. No meaning of this model ends in one: every error the spec describes is an
effect on the module's state. -/
inductive Fault where
  /-- The spec gives no behaviour for the access. Raised by no meaning; safe. -/
  | noBehaviour
  deriving DecidableEq, Repr

/-- Why a command is refused. -/
inductive Refusal where
  /-- The command has no meaning in the model yet. Raised by no arm, since every command has its meaning; safe. -/
  | notModelled (mnemonic : String)
  deriving DecidableEq, Repr


/-- The module. -/
structure State where
  /-- Which of the three parts this is (R2, log 3). -/
  part : Part
  /-- MTIME in tCK (R6, log 4). -/
  mtime : BitVec 64
  /-- The model's count of ticks (log 1). -/
  clock : Nat
  /-- The model's own index of free values (log 13). -/
  free : Nat
  /-- Every register, as a sparse map keyed by its internal byte address (R12). -/
  regs : List (Nat × Word)
  /-- Tagged memory cells, keyed by internal byte address (R7). -/
  cells : List (Nat × Cell)
  /-- What the last register read returned. -/
  busOut : Word
  /-- What the module has sent outside, in order. -/
  outs : List Out
  /-- The event router. -/
  evr : EvrSt
  /-- Gorge windows. -/
  grg : Vector (Vector WinSt 12) 12
  /-- SAR converters. -/
  sar : Vector (Vector SarSt 4) 12
  /-- HIL feeds of the inputs. -/
  hil : Vector (Vector HilSt 12) 12
  /-- Control Law Engines. -/
  cle : Vector CleSt 12
  /-- PWM channels. -/
  pwm : Vector (Vector PwmSt 8) 12
  /-- Capture channels. -/
  cap : Vector (Vector CapSt 4) 12
  /-- Injection units. -/
  inj : Vector InjSt 12
  /-- Slice control. -/
  ctl : Vector CtlSt 12
  /-- Sequence number of each function's edge records (R357). -/
  edgeSeq : Vector Nat 16
  /-- Read index of each function's edge ring (R350). -/
  edgeRidx : Vector Nat 16
  /-- Passway. -/
  pwy : PwySt
  /-- Core pairs: slice n for n < 12, the system pair 12. -/
  core : Vector CoreSt 13
  /-- Program memory: word address + 2^17 × pair, 0 where unlisted (R208). -/
  prog : List (Nat × PWord)
  /-- Microcode stores: word address + 4096 × slice, 0 where unlisted (R122). -/
  mstore : List (Nat × MWord)
  /-- Their copies in Plain (R138). -/
  mcopy : List (Nat × MWord)
  /-- Addresses of the failed cells of the copies (R138). -/
  copyBad : List Nat
  /-- Slices whose copies have been cleared, so that their cells are EMPTY (R294), and the cells of these written since. -/
  copyLost : List Nat
  copySet : List Nat
  /-- Version that the VENDOR_MCODE section of the booted image declares (R122). -/
  mver : Word
  /-- Error marks, write-backs, page map and march. -/
  mem : MemSt
  /-- DMA channels; the system engine is 12. -/
  dma : Vector (Vector DmaCh 16) 13
  /-- The twin link. -/
  twn : TwnSt
  /-- The metering converter. -/
  mad : MadSt
  /-- PCIe functions. -/
  fns : Vector FnSt 16
  /-- Function at which the fetches go on (R358). -/
  fetchNext : Nat
  /-- VF Enable and NumVFs of the SR-IOV capability (R333). -/
  vfEnable : Bool
  /-- NumVFs. -/
  numVfs : Nat
  /-- Image information of each pair. -/
  img : Vector ImgInfo 13
  /-- Trace queues; the system pair's is 12. -/
  trc : Vector TrcSt 13
  /-- Source at which the trace merger looks first (R474). -/
  mergeNext : Nat
  /-- Clock from which the merger takes another packet (R474). -/
  mergeFrom : Nat
  /-- The next service is the first after counting started (R441). -/
  wdgFirst : Vector Bool 13
  /-- The Colbel session that set EN of each perturbation unit (R478). -/
  ptbBy : Vector (Option Nat) 13
  /-- Clock at which EN of each perturbation unit became 1 (R476). -/
  ptbAt : Vector Nat 13
  /-- Clock and cause of the last event that ends each unit (R478). -/
  ptbCause : Vector (Option (Nat × Nat)) 13
  /-- Doorbell writes that the system unit delays (R476): the clock at which each is processed, the function that wrote, the page,
  the offset and the value. -/
  dbLate : List (Nat × Fin 16 × Fin 16 × Nat × Word)
  /-- The flash arrays and their controller. -/
  flc : FlcSt
  /-- Security and life-cycle. -/
  sec : SecSt
  /-- Supply and pins. -/
  pwr : PwrSt
  /-- The Colbel monitor. -/
  dbg : DbgSt
  /-- Target of the mode change in progress (R37). -/
  modeReq : Option Nat
  /-- The system pair has halted since the last cold start (R274). -/
  sysDown : Bool
  /-- The rollback under way in each slice pair (R387). -/
  rollback : Vector (Option Rollback) 12
  /-- The commands that are waiting, first in, first out. -/
  pending : List Instr
  deriving DecidableEq, Repr

/-- The module right after reset (R11): registers at their reset values, memories unlisted, every unit at rest. -/
def State.reset : State where
  part := .esk7216
  mtime := 0
  clock := 0
  free := 0
  regs := []
  cells := []
  busOut := 0
  outs := []
  evr := resetEvr
  grg := .replicate 12 (.replicate 12 resetWin)
  sar := .replicate 12 (.replicate 4 resetSar)
  hil := .replicate 12 (.replicate 12 resetHil)
  cle := .replicate 12 resetCle
  pwm := .replicate 12 (.replicate 8 resetPwm)
  cap := .replicate 12 (.replicate 4 resetCap)
  inj := .replicate 12 resetInj
  ctl := .replicate 12 resetCtl
  edgeSeq := .replicate 16 0
  edgeRidx := .replicate 16 0
  pwy := resetPwy
  core := .replicate 13 resetCore
  prog := []
  mstore := []
  mcopy := []
  copyBad := []
  copyLost := []
  copySet := []
  mver := 0
  mem := resetMem
  dma := .replicate 13 (.replicate 16 resetDma)
  twn := resetTwn
  mad := resetMad
  fns := .replicate 16 resetFn
  fetchNext := 0
  vfEnable := false
  numVfs := 0
  img := .replicate 13 ⟨0, 0, 0, 0, 0⟩
  trc := .replicate 13 resetTrc
  mergeNext := 0
  mergeFrom := 0
  wdgFirst := .replicate 13 false
  ptbBy := .replicate 13 none
  ptbAt := .replicate 13 0
  ptbCause := .replicate 13 none
  dbLate := []
  flc := resetFlc
  sec := resetSec
  pwr := resetPwr
  dbg := resetDbg
  modeReq := none
  sysDown := false
  rollback := .replicate 12 none
  pending := []

end Machine
end Sys2Proof
end

