-- ==== Sys2Proof/Machine/Ops.lean ====
section
/-! DEFINITION. Named operations over the state: registers and fields, counters and flags, memory cells, the event
router's firing of a source. -/

namespace Sys2Proof
namespace Machine

/-! Registers. -/

/-- The word a register holds. -/
def State.reg (s : State) (a : Nat) : Word := SMap.get resetOf s.regs a

/-- Set the word a register holds. -/
def State.setReg (s : State) (a : Nat) (v : Word) : State := { s with regs := SMap.put resetOf s.regs a v }

/-- A field's value. -/
def State.getF (s : State) (a : Nat) (f : Fld) : Nat := f.get (s.reg a)

/-- Set a field. -/
def State.setF (s : State) (a : Nat) (f : Fld) (v : Nat) : State := s.setReg a (f.put (s.reg a) v)

/-- A one-bit field as a Bool. -/
def State.isSet (s : State) (a : Nat) (f : Fld) : Bool := s.getF a f == 1

/-- Set a one-bit field from a Bool. -/
def State.setB (s : State) (a : Nat) (f : Fld) (b : Bool) : State := s.setF a f (b2n b)

/-- Count an event in a saturating counter. -/
def State.count (s : State) (a : Nat) (f : Fld) : State := s.setF a f (satInc f.top (s.getF a f))

/-- Count one event in a wrapping counter. -/
def State.countWrap (s : State) (a : Nat) (f : Fld) : State := s.setF a f (s.getF a f + 1)

/-- Add to a saturating counter. -/
def State.countBy (s : State) (a : Nat) (f : Fld) (k : Nat) : State := s.setF a f (min f.top (s.getF a f + k))

/-- Return every register in [lo, hi) to its reset value. -/
def State.resetRegs (s : State) (lo hi : Nat) : State :=
  { s with regs := SMap.clear (fun a => decide (lo ≤ a) && decide (a < hi)) s.regs }

/-- The low 16 bits of a word as a Q15 integer. -/
def q15lo (w : Word) : Int := toSigned 16 w.toNat

/-- The high 16 bits of a word as a Q15 integer. -/
def q15hi (w : Word) : Int := toSigned 16 (w.toNat / 65536)

/-- A word from two Q15 integers, low half first. -/
def pack16 (lo hi : Int) : Word := BitVec.ofNat 32 (ofSigned 16 lo + 65536 * ofSigned 16 hi)

/-- The low 32 bits of MTIME. -/
def State.mtimeLo (s : State) : Word := s.mtime.setWidth 32

/-! The part (R2, R44). -/

/-- Slices fitted (R2). -/
def Part.slices : Part → Nat
  | .esk7216 => 12
  | .esk7212 => 8
  | .esk7208 => 4

/-- The PART code (R2). -/
def Part.code : Part → Nat
  | .esk7216 => 0x7216
  | .esk7212 => 0x7212
  | .esk7208 => 0x7208

/-- HIL mode and the customer microcode partition are fitted on all parts but the ESK-7208 (R2). -/
def Part.full : Part → Bool
  | .esk7208 => false
  | _ => true

/-- Slice n is fitted. -/
def State.fitted (s : State) (n : Nat) : Bool := decide (n < s.part.slices)

/-! Slice states (R49). -/

def slOff : Nat := 1
def slFenced : Nat := 2
def slReady : Nat := 3
def slRunning : Nat := 4
def slRecovering : Nat := 5
def slSafe : Nat := 6

/-- SLC_STATE.STATE of slice n. -/
def State.slState (s : State) (n : Nat) : Nat := s.getF (R.SLC_STATE n) F.SLC_STATE_STATE

/-- The slice is present and not OFF. -/
def State.powered (s : State) (n : Nat) : Bool := s.fitted n && s.slState n != slOff

/-! Modes (R18). -/

def mdStabled : Nat := 0
def mdService : Nat := 1
def mdIsland : Nat := 2
def mdHosted : Nat := 3
def mdTwin : Nat := 4
def mdHil : Nat := 5
def mdStart : Nat := 7

/-- DEV_MODE.MODE. -/
def State.mode (s : State) : Nat := s.getF R.DEV_MODE F.DEV_MODE_MODE

/-- The owner code of slice n (R46). -/
def State.owner (s : State) (n : Nat) : Nat := s.getF (R.DEV_SLC_ASSIGN n) F.DEV_SLC_ASSIGN_OWNER

/-- The role epoch of slice n. -/
def State.sliceEpoch (s : State) (n : Nat) : Nat := s.getF (R.DEV_SLC_ASSIGN n) F.DEV_SLC_ASSIGN_EPOCH

/-- The master is the owner of slice n, or the owner's core pair (R45, R315). The monitor and the DMA engines act with
the authority of the access that set them going. -/
def State.ownerIs (s : State) (n : Nat) : Master → Bool
  | .sys => s.owner n == 0x1F
  | .core k => k.val == n
  | .fn f => s.owner n == f.val
  | .dma e => e.val == n || e.val == 12
  | .mon => true

end Machine

/-- The master is the system pair or PF0, or the monitor. -/
def Master.isSys : Master → Bool
  | .sys => true
  | .fn f => f.val == 0
  | .mon => true
  | .dma e => e.val == 12
  | .core _ => false

namespace Machine

/-! Tags (R7). -/

def tagEmpty : BitVec 4 := 0
def tagInt : BitVec 4 := 1
def tagUint : BitVec 4 := 2
def tagFrac2 : BitVec 4 := 3
def tagQ31 : BitVec 4 := 4
def tagAddr : BitVec 4 := 5
def tagCode : BitVec 4 := 6
def tagCap : BitVec 4 := 7
def tagEvent : BitVec 4 := 8
def tagTime : BitVec 4 := 9
def tagDesc : BitVec 4 := 10
def tagRaw : BitVec 4 := 15

/-- The cleared cell: payload 0, tag EMPTY (R294). -/
def emptyCell : Cell := ⟨0, 0⟩

/-! Address spaces (R12). -/

def inPlain (a : Nat) : Bool := decide (0x0E000000 ≤ a) && decide (a < 0x0E800000)
def inSecure (a : Nat) : Bool := decide (0x01C00000 ≤ a) && decide (a < 0x01C40000)
/-- The system area of Plain (R291). -/
def inSysArea (a : Nat) : Bool := decide (0x0E727C00 ≤ a) && decide (a < 0x0E800000)
/-- The microcode copies (R138). -/
def inCopy (a : Nat) : Bool := decide (0x0E728000 ≤ a) && decide (a < 0x0E800000)
def inMain (a : Nat) : Bool := decide (0x10000000 ≤ a) && decide (a < 0x20000000)
/-- The main-memory channel of an address (R298). -/
def mainCh (a : Nat) : Nat := if a < 0x18000000 then 0 else 1

/-- What a cell that nothing has written holds: cleared (R294), and 0 tagged UINT in main memory (R300). -/
def cellDefault (a : Nat) : Cell := if inMain a then ⟨0, tagUint⟩ else emptyCell

/-! The copies of the microcode stores (R138): 18 bytes a word, tagged UINT. -/

/-- Byte b of the copies' region. -/
def State.copyByte (s : State) (b : Nat) : Nat :=
  let n := b / 0x12000
  let w := SMap.get (fun _ => (0 : MWord)) s.mcopy (4096 * n + b % 0x12000 / 18)
  (w.toNat >>> (8 * (b % 0x12000 % 18))) % 256

/-- The cell of a copy at `a`, a multiple of 4, is EMPTY: it has failed, or has not been written since it was cleared. -/
def State.copyFailed (s : State) (a : Nat) : Bool :=
  s.copyBad.contains a || (s.copyLost.contains ((a - 0x0E728000) / 0x12000) && !s.copySet.contains a)

/-- The cell of a copy at an address. -/
def State.copyCell (s : State) (a : Nat) : Cell :=
  if s.copyFailed (a / 4 * 4) then emptyCell
  else
    let b := a / 4 * 4 - 0x0E728000
    ⟨BitVec.ofNat 32 (s.copyByte b + 256 * s.copyByte (b + 1) + 65536 * s.copyByte (b + 2) + 16777216 * s.copyByte (b + 3)),
      tagUint⟩

/-- Put byte b of the copies' region. -/
def State.setCopyByte (s : State) (b v : Nat) : State :=
  let k := 4096 * (b / 0x12000) + b % 0x12000 / 18
  let w := SMap.get (fun _ => (0 : MWord)) s.mcopy k
  let sh := 8 * (b % 0x12000 % 18)
  let w' := (w &&& ~~~ (BitVec.ofNat 144 (255 <<< sh))) ||| BitVec.ofNat 144 ((v % 256) <<< sh)
  { s with mcopy := SMap.put (fun _ => (0 : MWord)) s.mcopy k w' }

/-- Write a cell of a copy; a cell tagged EMPTY counts as failed from then on. -/
def State.setCopyCell (s : State) (a : Nat) (c : Cell) : State :=
  let a4 := a / 4 * 4
  let b := a4 - 0x0E728000
  if c.tag == tagEmpty then { s with copyBad := if s.copyBad.contains a4 then s.copyBad else a4 :: s.copyBad }
  else
    let s1 := { s with
      copyBad := s.copyBad.filter (· != a4)
      copySet := if s.copyFailed a4 && !s.copySet.contains a4 then a4 :: s.copySet else s.copySet }
    (List.range 4).foldl (fun (t : State) i => t.setCopyByte (b + i) (c.v.toNat / 256 ^ i)) s1

/-! Memory cells. -/

/-- The cell at a byte address (rounded down to its cell). -/
def State.cell (s : State) (a : Nat) : Cell :=
  if inCopy a then s.copyCell a else SMap.get cellDefault s.cells (a / 4 * 4)

/-- Write the cell at a byte address; main memory keeps the payload only (R298). -/
def State.setCell (s : State) (a : Nat) (c : Cell) : State :=
  if inCopy a then s.setCopyCell a c
  else
    let c' : Cell := if inMain a then ⟨c.v, tagUint⟩ else c
    { s with cells := SMap.put cellDefault s.cells (a / 4 * 4) c' }

/-- Byte address of an offset in the slice memory of slice n (R42). -/
def smem (n off : Nat) : Nat := sliceBase n + 0x80000 + off % 0x80000

/-! Test perturbation (chapter 28): engine 12 is the system unit. -/

/-- PTB_ACTIVE of unit e is not zero. -/
def State.ptbActive (s : State) (e : Nat) : Bool := s.reg (R.PTB_ACTIVE e) != 0

/-- The perturbation flag of records of slice n (R479). -/
def State.ptbFlag (s : State) (n : Nat) : Bool := s.ptbActive n || s.ptbActive 12

/-- The unit perturbs what begins now: strictly after the cycle in which EN became 1 (R476). -/
def State.ptbActs (s : State) (e : Fin 13) : Bool := s.isSet (R.PTB_CTRL e) F.PTB_CTRL_EN && decide (s.ptbAt.get e < s.clock)

/-- Send something outside. -/
def State.emit (s : State) (o : Out) : State := { s with outs := s.outs ++ [o] }

/-- Transmission on Passway port p under a frame fault (R476): none when the frame is dropped, else whether its CRC is
inverted. -/
def State.portFault (s : State) (p : Fin 4) : State × Option Bool :=
  let e := s.getF (R.PTB_PWY 12) F.PTB_PWY_EVERY
  let f := s.getF (R.PTB_PWY 12) F.PTB_PWY_FAULT
  if s.ptbActs 12 && natBit (s.getF (R.PTB_PWY 12) F.PTB_PWY_PORTS) p && e != 0 && f != 0 then
    let c := s.pwy.faulted.get p + 1
    if c == e then
      ({ s with pwy := { s.pwy with faulted := s.pwy.faulted.set p 0 } }, if f == 1 then none else some true)
    else ({ s with pwy := { s.pwy with faulted := s.pwy.faulted.set p c } }, some false)
  else (s, some false)

/-- Transmit a frame on a port. -/
def State.sendFrame (s : State) (p : Fin 4) (fr : PwyFrame) : State :=
  match s.portFault p with
  | (t, some bad) => t.emit (.frame p bad fr)
  | (t, none) => t

/-- Clock c has locked (R436): 0 reference, 1 core PLL, 2 Passway, 3 PCIe, 4 main memory, 5 Ethernet, 6 crystal. -/
def State.clockOn (s : State) (c : Nat) : Bool := natBit (s.getF R.PWR_CLK F.PWR_CLK_CLOCKS) c

/-- The next free value index: the model's own counter (log 13). -/
def State.fresh (s : State) : State := { s with free := s.free + 1 }

end Machine
end Sys2Proof
end

