-- ==== Sys2Proof/Machine/Router.lean ====
section
/-! DEFINITION. The event router (chapter 18): firing of a source, routes, coalescing groups, role epochs, the orphan
queue, and the writes of its registers. -/

namespace Sys2Proof
namespace Machine

def idleRoute : Route := ⟨.idle, false, 0, 0, 0, 0, 0⟩
def noBatch : Batch := ⟨0, 0, 0⟩

/-- The slice of a local source and its local number (R302, R304). -/
def localOf (src : Nat) : Option (Nat × Nat) :=
  if 64 ≤ src ∧ src < 928 then some ((src - 64) / 72, (src - 64) % 72) else none

/-- Router source of local source x of slice n (R302). -/
def localSrc (n x : Nat) : Nat := 64 + 72 * n + x

/-- Where a source's settings stand: local sources in their slice's block, the others in the device block (R314). -/
def srcAddr (src : Nat) : Nat :=
  match localOf src with
  | some (n, x) => R.EVR_LSRC n x
  | none => R.EVR_SRC src

/-- Where a source's target stands. -/
def tgtAddr (src : Nat) : Nat :=
  match localOf src with
  | some (n, x) => R.EVR_LTGT n x
  | none => R.EVR_TGT src

/-- A source of a Passway port that the part lacks: PORT_DOWN of P1 and P3 (R302, R366, R381). -/
def State.absentSource (s : State) (src : Nat) : Bool := s.part == .esk7208 && (src == 965 || src == 967)

/-- The source can fire: neither reserved nor of an absent slice or unit (R302 to R304, R381, R407, R426). -/
def State.srcPresent (s : State) (src : Nat) : Bool :=
  let within (lo hi : Nat) : Bool := decide (lo ≤ src) && decide (src ≤ hi)
  match localOf src with
  | some (n, x) => s.fitted n && x != 22
  | none => decide (src < 1024) &&
    !(within 3 7 || src == 31 || within 51 62 || within 971 975 || within 985 991 || s.absentSource src)

/-- Whether a source is one of the lines of R305: a window, RTC_ALARM (R447), CAN FD or Ethernet (log 136). -/
def isLine (src : Nat) : Bool :=
  match localOf src with
  | some (_, x) => decide (24 ≤ x) && decide (x ≤ 35)
  | none => (decide (46 ≤ src) && decide (src ≤ 49)) || src == 36

def State.route (s : State) (r : Nat) : Route := SMap.get (fun _ => idleRoute) s.evr.routes r

def RouteSt.waits : RouteSt → Bool
  | .pending => true
  | .activePending => true
  | _ => false

def RouteSt.served : RouteSt → Bool
  | .active => true
  | .activePending => true
  | _ => false

/-- Set bit `b` of a word. -/
def setBitW (w : Word) (b : Nat) (v : Bool) : Word :=
  if v then w ||| BitVec.ofNat 32 (2 ^ b) else w &&& ~~~ (BitVec.ofNat 32 (2 ^ b))

/-- Set a route, with the source's bits of EVR_PEND and EVR_ACT. -/
def State.setRoute (s : State) (r : Nat) (rt : Route) : State :=
  let s1 := { s with evr := { s.evr with routes := SMap.put (fun _ => idleRoute) s.evr.routes r rt } }
  if r < 1024 then
    let p := R.EVR_PEND (r / 32)
    let a := R.EVR_ACT (r / 32)
    (s1.setReg p (setBitW (s1.reg p) (r % 32) rt.st.waits)).setReg a (setBitW (s1.reg a) (r % 32) rt.st.served)
  else s1

/-- The target word of a route: KIND, INDEX, STALE and EPOCH, and its priority. -/
structure RouteTgt where
  kind : Nat
  index : Nat
  stale : Bool
  epoch : Nat
  prio : Nat
  addr : Nat
  deriving DecidableEq, Repr

def State.routeTgt (s : State) (r : Nat) : RouteTgt :=
  if r < 1024 then
    let a := tgtAddr r
    ⟨s.getF a F.EVR_TGT_KIND, s.getF a F.EVR_TGT_INDEX, s.isSet a F.EVR_TGT_STALE, s.getF a F.EVR_TGT_EPOCH,
      s.getF (srcAddr r) F.EVR_SRC_PRIO, a⟩
  else
    let a := R.EVR_GTGT (r - 1024)
    ⟨s.getF a F.EVR_GTGT_KIND, s.getF a F.EVR_GTGT_INDEX, s.isSet a F.EVR_GTGT_STALE, s.getF a F.EVR_GTGT_EPOCH,
      s.getF a F.EVR_GTGT_PRIO, a⟩

/-- One firing of a route (R308): `carried` is the source number it carries, `k` the firings it stands for, `fired` MTIME at the
firing. -/
def State.fireRoute (s : State) (r carried k : Nat) (fired : Word) : State :=
  if (s.routeTgt r).kind == 0 then s
  else
    let rt := s.route r
    match rt.st with
    | .idle => s.setRoute r { rt with st := .pending, latched := false, src := carried, cnt := k, fired := fired }
    | .active => s.setRoute r { rt with st := .activePending, latched := false, src := carried, cnt := k, fired := fired }
    | _ =>
      (s.count R.EVR_MERGED F.EVR_MERGED_COUNT).setRoute r { rt with src := min rt.src carried, cnt := rt.cnt + k }

/-- Close the open batch of group g and fire the group's route (R311). -/
def State.closeBatch (s : State) (g : Nat) : State :=
  let b := SMap.get (fun _ => noBatch) s.evr.batches g
  if b.count == 0 then s
  else
    let s1 := { s with evr := { s.evr with batches := SMap.put (fun _ => noBatch) s.evr.batches g noBatch } }
    (s1.setF (R.EVR_GSTAT g) F.EVR_GSTAT_OPEN 0).fireRoute (1024 + g) b.low b.count s.mtimeLo

/-- GROUP_BATCH_CLOSE: the timer of the open batch of group g has reached TIME (R311). -/
def State.batchTimeout (s : State) (g : Nat) : State :=
  let t := s.getF (R.EVR_GCFG g) F.EVR_GCFG_TIME
  let b := SMap.get (fun _ => noBatch) s.evr.batches g
  if t != 0 && b.count != 0 && decide (b.start + t ≤ s.mtime.toNat / 1500) then s.closeBatch g else s

/-- A member's firing joins the open batch of its group, which closes when it holds COUNT firings (R311). -/
def State.joinBatch (s : State) (g src : Nat) : State :=
  let b := SMap.get (fun _ => noBatch) s.evr.batches g
  let b' : Batch := if b.count == 0 then ⟨1, src, s.mtime.toNat / 1500⟩ else ⟨b.count + 1, min b.low src, b.start⟩
  let s1 := { s with evr := { s.evr with batches := SMap.put (fun _ => noBatch) s.evr.batches g b' } }
  let s2 := s1.setF (R.EVR_GSTAT g) F.EVR_GSTAT_OPEN (min 255 b'.count)
  let c := s2.getF (R.EVR_GCFG g) F.EVR_GCFG_COUNT
  if c != 0 && decide (c ≤ b'.count) then s2.closeBatch g else s2

/-- A DMA WAIT for source `src` that had begun by clock `fired` ends on the engines that `on` selects; the program goes on at
its next instruction (R322). -/
def State.waitsEnd (s : State) (src fired : Nat) (on : Nat → Bool) : State :=
  (List.finRange 13).foldl (fun (t : State) (e : Fin 13) =>
    if !on e then t
    else (List.finRange 16).foldl (fun (u : State) (c : Fin 16) =>
      let d := (u.dma.get e).get c
      match d.wait with
      | some w =>
        if w.src == src && decide (w.at_ ≤ fired) then
          let a := R.DMA_STAT e c
          let u1 := if u.getF a F.DMA_STAT_STATE == 2 then u.setF a F.DMA_STAT_STATE 1 else u
          { u1 with dma := u1.dma.set e ((u1.dma.get e).set c { d with wait := none, was := if d.was == 2 then 1 else d.was }) }.setReg
            (R.DMA_PC e c) (u1.reg (R.DMA_PC e c) + 8)
        else u
      | none => u) t) s

/-- The slice whose PWM event a source is: local sources 36 to 67 (R157). -/
def pwmSource (src : Nat) : Option Nat :=
  match localOf src with
  | some (n, x) => if 36 ≤ x ∧ x < 68 then some n else none
  | none => none

/-- The source is a line with SENSE = LEVEL (R309). -/
def State.senseLevel (s : State) (src : Nat) : Bool := isLine src && s.getF (srcAddr src) F.EVR_SRC_SENSE == 3

/-- A firing made at clock `at_` and MTIME `mt` reaches its target, its group and the taps (R308, R311, R313). A LEVEL source that
is in no group makes its route PENDING from IDLE only, and while its filter output stands (R309); the taps see each of its filtered
rises (log 204). -/
def State.fireReach (s : State) (src at_ : Nat) (mt : BitVec 64) : State :=
  let s1 := { s with evr := { s.evr with taps := s.evr.taps ++ [(src, at_, mt)] } }
  if s1.isSet (srcAddr src) F.EVR_SRC_GRP_EN then s1.joinBatch (s1.getF (srcAddr src) F.EVR_SRC_GRP) src
  else if s1.senseLevel src && ((s1.route src).st != .idle || !s1.evr.filt.contains src) then s1
  else s1.fireRoute src src 1 (mt.setWidth 32)

/-- tCK by which the perturbation units delay a firing of the source: that of its slice, and the system's (R476, log 180). -/
def State.evtDelay (s : State) (src : Nat) : Nat :=
  let by_ (e : Fin 13) : Nat :=
    if s.ptbActs e && (s.isSet (R.PTB_EVT e) F.PTB_EVT_ALL || s.getF (R.PTB_EVT e) F.PTB_EVT_SRC == src) then
      s.getF (R.PTB_EVT e) F.PTB_EVT_DELAY
    else 0
  (match localOf src with
    | some (n, _) => if h : n < 12 then by_ ⟨n, by omega⟩ else 0
    | none => 0) + by_ 12

/-- A source fires: its slice's DMA WAITs see a PWM event at once (R157), and the firing reaches the rest now or, under
perturbation, later. -/
def State.fire (s : State) (src : Nat) : State :=
  if s.srcPresent src then
    let s1 := match pwmSource src with
      | some n => s.waitsEnd src s.clock (fun e => e == n)
      | none => s
    match s1.evtDelay src with
    | 0 => s1.fireReach src s.clock s.mtime
    | d + 1 => { s1 with evr := { s1.evr with late := s1.evr.late ++ [(s.clock + d + 1, src, s.clock, s.mtime)] } }
  else s

/-- The delayed firings whose time has come reach their targets. -/
def State.lateFires (s : State) : State :=
  match s.evr.late with
  | [] => s
  | l =>
    (l.filter (fun e => decide (e.1 ≤ s.clock))).foldl (fun (t : State) e => t.fireReach e.2.1 e.2.2.1 e.2.2.2)
      { s with evr := { s.evr with late := l.filter (fun e => !decide (e.1 ≤ s.clock)) } }

/-- Local source x of slice n fires. -/
def State.fireLocal (s : State) (n x : Nat) : State := s.fire (localSrc n x)

/-- Fire if a condition holds. -/
def State.fireIf (s : State) (b : Bool) (src : Nat) : State := if b then s.fire src else s

/-- The function that holds MSI-X vector v: 128 vectors each (chapter 20). -/
def vectorFn (v : Nat) : Nat := v / 128

/-- The role epoch of a target (R312). -/
def State.tgtEpoch (s : State) (kind index : Nat) : Nat :=
  match kind with
  | 1 => if index < 12 then s.sliceEpoch index else 0
  | 2 => s.getF (R.HIF_FN_STAT (vectorFn index)) F.HIF_FN_STAT_EPOCH
  | 3 => s.getF (R.PWY_EXP index) F.PWY_EXP_EPOCH
  | _ => 0

/-- Show the head of the orphan queue in EVR_ORPH0, EVR_ORPH1 and EVR_STAT.ORPH_LEVEL. -/
def State.showOrphans (s : State) : State :=
  let h : Orphan := match s.evr.orphans with
    | [] => ⟨0, 0⟩
    | o :: _ => o
  ((s.setReg R.EVR_ORPH0 h.w0).setReg R.EVR_ORPH1 h.w1).setF R.EVR_STAT F.EVR_STAT_ORPH_LEVEL s.evr.orphans.length

/-- A message is orphaned (R312): `src` the source it carries, with the target and epoch copy of its route. -/
def State.orphan (s : State) (src : Nat) (t : RouteTgt) : State :=
  let w0 := F.EVR_ORPH0_KIND.word t.kind ||| F.EVR_ORPH0_INDEX.word t.index ||| F.EVR_ORPH0_SRC.word src
  let w1 := F.EVR_ORPH1_STAMP.word t.epoch ||| F.EVR_ORPH1_CURRENT.word (s.tgtEpoch t.kind t.index) |||
    F.EVR_ORPH1_TIME.word (s.mtime.toNat / 65536)
  let s1 := match localOf src with
    | some (n, _) => (s.setF (R.EVR_LSTAT n) F.EVR_LSTAT_ORPHAN_F 1).count (R.EVR_LORPH n) F.EVR_LORPH_COUNT
    | none => s
  if src == 63 || decide (64 ≤ s1.evr.orphans.length) then
    (s1.count R.EVR_ORPH_OVF F.EVR_ORPH_OVF_COUNT).setF R.EVR_STAT F.EVR_STAT_ORPH_OVF_F 1
  else
    let s2 := { s1 with evr := { s1.evr with orphans := s1.evr.orphans ++ [Orphan.mk w0 w1] } }
    ((s2.showOrphans).setF R.EVR_STAT F.EVR_STAT_ORPH_F 1).fire 63

/-- The router number of a register that holds a target: a source, or 1024 + g for a group. -/
def routeOfTgtAddr (a : Nat) : Option Nat :=
  if 0x01073000 ≤ a ∧ a < 0x01073400 ∧ a % 0x10 = 4 then some (1024 + (a - 0x01073000) / 0x10)
  else if 0x01071000 ≤ a ∧ a < 0x01073000 ∧ a % 8 = 4 then
    let s := (a - 0x01071000) / 8
    match localOf s with
    | some _ => none
    | none => some s
  else if 0x02000000 ≤ a ∧ a < 0x02C00000 ∧ (a % 0x100000) / 0x1000 = 9 ∧ a % 0x1000 < 0x240 ∧ a % 8 = 4 then
    some (localSrc ((a - 0x02000000) / 0x100000) (a % 0x1000 / 8))
  else none

/-- The source whose settings a register holds. -/
def srcOfSrcAddr (a : Nat) : Option Nat :=
  if 0x01071000 ≤ a ∧ a < 0x01073000 ∧ a % 8 = 0 then
    let s := (a - 0x01071000) / 8
    match localOf s with
    | some _ => none
    | none => some s
  else if 0x02000000 ≤ a ∧ a < 0x02C00000 ∧ (a % 0x100000) / 0x1000 = 9 ∧ a % 0x1000 < 0x240 ∧ a % 8 = 0 then
    some (localSrc ((a - 0x02000000) / 0x100000) (a % 0x1000 / 8))
  else none

/-- The members of group g (R311). -/
def State.members (s : State) (g : Nat) : List Nat :=
  s.regs.filterMap (fun e => match srcOfSrcAddr e.1 with
    | some src => if F.EVR_SRC_GRP_EN.get e.2 == 1 && F.EVR_SRC_GRP.get e.2 == g then some src else none
    | none => none)

/-- The routes that name a target other than NONE and satisfy `p`. -/
def State.routesTo (s : State) (p : Nat → Nat → Nat → Bool) : List Nat :=
  s.regs.filterMap (fun e => match routeOfTgtAddr e.1 with
    | some r => if p r (F.EVR_TGT_KIND.get e.2) (F.EVR_TGT_INDEX.get e.2) then some r else none
    | none => none)

/-- A LEVEL source whose route is IDLE is PENDING while its filter output is 1 (R309): after a message of it has left, after
a write of its registers, or once its pair takes messages again (log 137). -/
def State.levelCheck (s : State) (src : Nat) : State :=
  if s.senseLevel src && s.evr.filt.contains src && (s.route src).st == .idle && !s.isSet (srcAddr src) F.EVR_SRC_GRP_EN then s.fireRoute src src 1 s.mtimeLo
  else s

/-- The message waiting on route r, whose target is t, is orphaned: the route returns to IDLE (R312). -/
def State.orphanRoute (s : State) (r : Nat) (t : RouteTgt) : State :=
  ((s.setRoute r idleRoute).orphan (s.route r).src t).levelCheck r

/-- Make a route STALE and orphan the message pending on it (R312). -/
def State.staleRoute (s : State) (r : Nat) : State :=
  let t := s.routeTgt r
  let s1 := s.setF t.addr (if r < 1024 then F.EVR_TGT_STALE else F.EVR_GTGT_STALE) 1
  if (s1.route r).st.waits then s1.orphanRoute r t else s1

/-- The role epoch of a target has been incremented: every route that names it becomes STALE (R312). -/
def State.staleTarget (s : State) (kind : Nat) (hit : Nat → Bool) : State :=
  (s.routesTo (fun _ k i => k == kind && hit i)).foldl State.staleRoute s

/-- A change of owner of slice n also makes stale every route of its local sources to an MSI-X vector (R312). -/
def State.staleVectorsOf (s : State) (n : Nat) : State :=
  (s.routesTo (fun r k _ => k == 2 &&
    (if r < 1024 then (match localOf r with | some (m, _) => m == n | none => false)
     else (s.members (r - 1024)).any (fun x => match localOf x with | some (m, _) => m == n | none => false)))).foldl
    State.staleRoute s

/-- Entry of slice n into FENCED, SAFE or OFF returns every route to its pair to IDLE (R310). -/
def State.dropRoutesTo (s : State) (n : Nat) : State :=
  (s.routesTo (fun _ k i => k == 1 && i == n)).foldl (fun s r => s.setRoute r idleRoute) s

/-- A message can be delivered to the pair: of a slice READY, RUNNING or RECOVERING, or the system pair (R310). -/
def State.pairTakes (s : State) (index : Nat) : Bool :=
  if index < 12 then
    s.slState index == slReady || s.slState index == slRunning || s.slState index == slRecovering
  else true

/-- Acceptance of the message waiting on a route fails: its STALE bit is 1 or its copy of the epoch mismatches (R312). -/
def State.rejected (s : State) (t : RouteTgt) : Bool := t.stale || t.epoch != s.tgtEpoch t.kind t.index

/-- Latching of a message in a pair's pending register (R307, R310, R312). -/
def State.latch (s : State) (r : Nat) : State :=
  let rt := s.route r
  let t := s.routeTgt r
  if rt.st == .pending && !rt.latched && t.kind == 1 then
    if s.rejected t then s.orphanRoute r t
    else if s.pairTakes t.index then s.setRoute r { rt with latched := true }
    else s.setRoute r idleRoute
  else s

/-- Delivery of the message of route r to its pair: PENDING to ACTIVE (R308). -/
def State.deliver (s : State) (r : Nat) : State :=
  let rt := s.route r
  let i := (s.routeTgt r).index
  let s1 := s.setRoute r { rt with st := .active, latched := false, cur := rt.src, by_ := if i < 12 then i else 12 }
  if r < 1024 then s1
  else (s1.setF (R.EVR_GSTAT (r - 1024)) F.EVR_GSTAT_LAST (min 255 rt.cnt)).setF (R.EVR_GSTAT (r - 1024))
    F.EVR_GSTAT_FIRST rt.src

/-- A message leaves as an MSI-X write or an export: IDLE, which a LEVEL source leaves again at once while its line stands
(R309), and for a group EVR_GSTAT (R308, R311). -/
def State.sendOff (s : State) (r : Nat) : State :=
  let rt := s.route r
  let s1 := s.setRoute r idleRoute
  if r < 1024 then s1.levelCheck r
  else (s1.setF (R.EVR_GSTAT (r - 1024)) F.EVR_GSTAT_LAST (min 255 rt.cnt)).setF (R.EVR_GSTAT (r - 1024))
    F.EVR_GSTAT_FIRST rt.src

/-- The route on which source `src` is ACTIVE for pair p, to which its message was delivered, whatever target the route
names by now: its group's where it is a member, else its own, else any (R308, R311). -/
def State.activeRoute (s : State) (p src : Nat) : Option Nat :=
  let ok (r : Nat) : Bool := (s.route r).st.served && (s.route r).cur == src && (s.route r).by_ == p
  let g := 1024 + s.getF (srcAddr src) F.EVR_SRC_GRP
  if s.isSet (srcAddr src) F.EVR_SRC_GRP_EN && ok g then some g else if ok src then some src
  else (s.evr.routes.map (·.1)).find? ok

/-- Completion of route r (R308, R309). -/
def State.complete (s : State) (r : Nat) : State :=
  let rt := s.route r
  let level := r < 1024 && s.senseLevel r
  if level then
    s.setRoute r { idleRoute with st := if s.evr.filt.contains r then .pending else .idle, src := r, cnt := 1, fired := s.mtimeLo }
  else if rt.st == .activePending then s.setRoute r { rt with st := .pending, latched := false }
  else s.setRoute r idleRoute

/-- An acknowledgement by pair p (R308). -/
def State.ack (s : State) (p src : Nat) : State :=
  match s.activeRoute p src with
  | some r => s.complete r
  | none => s.count R.EVR_BADACK F.EVR_BADACK_COUNT

/-- The messages latched for pair p, as routes. -/
def State.latchedFor (s : State) (p : Nat) : List Nat :=
  let idx := if p < 12 then p else 0x10
  (s.evr.routes.filter (fun e => e.2.latched && (s.routeTgt e.1).kind == 1 && (s.routeTgt e.1).index == idx)).map (·.1)

/-- The most urgent of the messages of some routes: lowest PRIO, then lowest source number (R307). -/
def State.mostUrgent (s : State) (rs : List Nat) : Option Nat :=
  rs.foldl (fun b r => match b with
    | none => some r
    | some q =>
      let pr := (s.routeTgt r).prio
      let pq := (s.routeTgt q).prio
      if pr < pq ∨ (pr = pq ∧ (s.route r).src < (s.route q).src) then some r else some q) none

/-- The message a pair takes first (R307). -/
def State.bestFor (s : State) (p : Nat) : Option Nat := s.mostUrgent (s.latchedFor p)

/-- Route r carries the most urgent of the messages that wait for targets of a kind and that `may` lets go: the order of
R307 also governs MSI-X issue and Passway export. -/
def State.goesFirst (s : State) (kind : Nat) (may : RouteTgt → Bool) (r : Nat) : Bool :=
  s.mostUrgent ((s.evr.routes.filter (fun e => e.2.st == .pending && (s.routeTgt e.1).kind == kind &&
    may (s.routeTgt e.1))).map (·.1)) == some r

/-- A line's filter output takes a new level (R305, R309). With SENSE = LEVEL and the route ACTIVE a rise still reaches the taps, SAR
triggers among them, as R313 has it for every firing; the route ignores it (log 204). -/
def State.lineLevel (s : State) (src : Nat) (level : Bool) : State :=
  if isLine src && s.srcPresent src && s.evr.filt.contains src != level then
    let s1 := { s with evr := { s.evr with filt := if level then s.evr.filt ++ [src] else s.evr.filt.filter (· != src) } }
    match s1.getF (srcAddr src) F.EVR_SRC_SENSE with
    | 0 => s1.fireIf level src
    | 1 => s1.fireIf (!level) src
    | 2 => s1.fire src
    | _ =>
      if level then s1.fire src
      else if (s1.route src).st == .pending then s1.setRoute src idleRoute
      else s1
  else s

/-- The LEVEL sources that name the pair of slice n, as it takes messages again. -/
def State.levelTo (s : State) (n : Nat) : State :=
  (s.routesTo (fun _ k i => k == 1 && i == n)).foldl State.levelCheck s

/-! Writes of the router's registers (R306, R311, R314). -/

/-- INDEX is one that R306 gives for KIND. -/
def State.indexOk (s : State) (kind index : Nat) : Bool :=
  match kind with
  | 0 => index == 0
  | 1 => index == 0x10 || (decide (index < 12) && s.fitted index)
  | 2 => decide (index < 2048)
  | _ => decide (index < 32)

/-- What a source may name (R306): a local source only its own pair, the system pair, a vector of its owner, or an
export slot. -/
def State.mayName (s : State) (src kind index : Nat) : Bool :=
  match localOf src with
  | some (n, _) =>
    match kind with
    | 1 => index == n || index == 0x10
    | 2 => s.owner n == vectorFn index && decide (s.owner n < 16)
    | _ => true
  | none => true

def State.evrRefuse (s : State) : State := s.count R.EVR_CFG_REJ F.EVR_CFG_REJ_COUNT

/-- A bit outside the mask is written 1. -/
def hasOutside (w m : Word) : Bool := (w &&& ~~~ m) != 0

/-- The master may write the settings or target of a source or group (R314). -/
def State.evrMay (s : State) (m : Master) (src : Nat) : Bool :=
  match localOf src with
  | some (n, _) => s.ownerIs n m && s.slState n == slFenced
  | none => m.isSys

/-- A write of EVR_SRC or EVR_LSRC. -/
def State.writeSrc (s : State) (m : Master) (src : Nat) (v : Word) : State :=
  let g := F.EVR_SRC_GRP.get v
  let used := s.getF (R.EVR_GCFG g) F.EVR_GCFG_COUNT != 0 || s.getF (R.EVR_GCFG g) F.EVR_GCFG_TIME != 0
  let nameOk := s.mayName src (s.getF (R.EVR_GTGT g) F.EVR_GTGT_KIND) (s.getF (R.EVR_GTGT g) F.EVR_GTGT_INDEX)
  if s.evrMay m src && !hasOutside v 0xBF0F03FF && (F.EVR_SRC_GRP_EN.get v == 0 || (used && nameOk)) then
    (s.setReg (srcAddr src) v).levelCheck src
  else s.evrRefuse

/-- A waiting message of a route whose target is rewritten is delivered to the new target: its latching in a pair's pending
register ends, and R310 and R312 judge it anew (R314). -/
def State.unlatch (s : State) (r : Nat) : State :=
  if (s.route r).latched then s.setRoute r { s.route r with latched := false } else s

/-- A write of EVR_TGT or EVR_LTGT: it copies the target's epoch and clears STALE (R312). -/
def State.writeTgt (s : State) (m : Master) (src : Nat) (v : Word) : State :=
  let k := F.EVR_TGT_KIND.get v
  let i := F.EVR_TGT_INDEX.get v
  if s.evrMay m src && !hasOutside v 0xC1FF07FF && s.indexOk k i && s.mayName src k i then
    ((s.setReg (tgtAddr src)
      (F.EVR_TGT_KIND.word k ||| F.EVR_TGT_INDEX.word i ||| F.EVR_TGT_EPOCH.word (s.tgtEpoch k i))).unlatch src).levelCheck src
  else s.evrRefuse

/-- A write of EVR_GTGT. -/
def State.writeGTgt (s : State) (m : Master) (g : Nat) (v : Word) : State :=
  let k := F.EVR_GTGT_KIND.get v
  let i := F.EVR_GTGT_INDEX.get v
  if m.isSys && !hasOutside v 0xDFFF07FF && s.indexOk k i && (s.members g).all (fun x => s.mayName x k i) then
    (s.setReg (R.EVR_GTGT g) (F.EVR_GTGT_KIND.word k ||| F.EVR_GTGT_INDEX.word i |||
      F.EVR_GTGT_PRIO.word (F.EVR_GTGT_PRIO.get v) ||| F.EVR_GTGT_EPOCH.word (s.tgtEpoch k i))).unlatch (1024 + g)
  else s.evrRefuse

/-- A write of EVR_GCFG: setting both fields to 0 is refused while the group has members (R311). -/
def State.writeGCfg (s : State) (m : Master) (g : Nat) (v : Word) : State :=
  if m.isSys && !hasOutside v 0x00FFFFFF && !(v == 0 && !(s.members g).isEmpty) then s.setReg (R.EVR_GCFG g) v
  else s.evrRefuse

/-- A write of a target register by its address (R312): local, device or group. -/
def State.evrTgtWrite (s : State) (m : Master) (a : Nat) (v : Word) : State :=
  match routeOfTgtAddr a with
  | some r => if r < 1024 then s.writeTgt m r v else s.writeGTgt m (r - 1024) v
  | none => s

/-- The master is core pair p, whose own acts acknowledge (R308, log 153). -/
def Master.isPair (p : Nat) : Master → Bool
  | .core k => k.val == p
  | .sys => p == 12
  | _ => false

/-- A write of EVR_ACK or EVR_SYS_ACK: an act of the pair; another master's write completes nothing (R308, log 153). -/
def State.ackWrite (s : State) (m : Master) (p src : Nat) : State :=
  if Master.isPair p m || (s.activeRoute p src).isNone then s.ack p src else s

/-- Any write of the device block of the router; entries of local sources are read-only mirrors (R314). -/
def State.evrDevWrite (s : State) (m : Master) (a : Nat) (v : Word) : State :=
  let o := a - 0x01070000
  if o == 0 then s.setReg a (s.reg a &&& ~~~ (v &&& 0xC0000000))
  else if o == 0x10 then s.ackWrite m 12 (F.EVR_SYS_ACK_SRC.get v)
  else if 0x1000 ≤ o ∧ o < 0x3000 then
    match localOf ((o - 0x1000) / 8) with
    | some _ => s.evrRefuse
    | none => if s.absentSource ((o - 0x1000) / 8) then s else if o % 8 == 0 then s.writeSrc m ((o - 0x1000) / 8) v else s.writeTgt m ((o - 0x1000) / 8) v
  else if 0x3000 ≤ o ∧ o < 0x3400 then
    if o % 0x10 == 0 then s.writeGCfg m ((o - 0x3000) / 0x10) v
    else if o % 0x10 == 4 then s.writeGTgt m ((o - 0x3000) / 0x10) v
    else s
  else s

/-- Any write of the local block of slice n. -/
def State.evrLocalWrite (s : State) (m : Master) (n : Nat) (a : Nat) (v : Word) : State :=
  let o := a - (sliceBase n + 0x9000)
  if o < 0x240 then
    if o % 8 == 0 then s.writeSrc m (localSrc n (o / 8)) v else s.writeTgt m (localSrc n (o / 8)) v
  else if o == 0x300 then s.ackWrite m n (F.EVR_ACK_SRC.get v)
  else if o == 0x304 then s.setReg a (s.reg a &&& ~~~ (v &&& 0x80000000))
  else s

/-- A read of EVR_ORPH1 removes the oldest entry (R312). -/
def State.orphanPop (s : State) : State :=
  { s with evr := { s.evr with orphans := s.evr.orphans.drop 1 } }.showOrphans

end Machine
end Sys2Proof
end

