-- ==== Sys2Proof/Machine/Inflight.lean ====
section
/-! DEFINITION. Descriptors in flight (chapter 21): how one finishes, and what a unit, a recovery, a change of owner and a
handover do to them. -/

namespace Sys2Proof
namespace Machine

/-! Statuses (R353): 0 OK, 1 BUSY, 2 REFUSED, 3 NOT_OWNER, 4 ABSENT, 5 PARAM, 6 FAULT, 7 ABORTED, 8 REPLAYED. -/

def State.fnOf (s : State) (f : Fin 16) : FnSt := s.fns.get f

/-- Fetches of a function that wait for their data. -/
def FnSt.fetches (x : FnSt) : Nat := x.asked.toList.count true

/-- Descriptors of a function in flight: from the issue of the fetch to the write of the completion, or to the count in
ABT_UNREP (R359). -/
def FnSt.inflight (x : FnSt) : Nat := x.flights.length + x.done.length + x.fetches + x.cut

/-- Set a function, and show its descriptors in flight in RNG_STAT (R359). -/
def State.setFn (s : State) (f : Fin 16) (x : FnSt) : State :=
  { s with fns := s.fns.set f x }.setF (R.RNG_STAT f) F.RNG_STAT_INFLIGHT x.inflight

def State.fnEn (s : State) (f : Nat) : Bool := s.isSet (R.HIF_FN_STAT f) F.HIF_FN_STAT_EN

/-- The host link is up and the module may issue requests for the function (R333). -/
def State.fnReach (s : State) (f : Fin 16) : Bool :=
  s.isSet R.HIF_LINK F.HIF_LINK_UP && s.fnEn f && (s.fnOf f).bme && !(s.fnOf f).d3hot

/-- Max_Payload_Size in force, in words: at most 512 B (R342). -/
def State.maxPayload (s : State) (f : Fin 16) : Nat := min 128 (32 * 2 ^ (s.fnOf f).mps)

/-- Max_Read_Request_Size in force, in bytes: at most 4096 (R342). -/
def State.maxRead (s : State) (f : Fin 16) : Nat := min 4096 (128 * 2 ^ (s.fnOf f).mrrs)

/-- Write requests of at most `m` words each, in order; fuel: how many there can be. -/
def State.sendWords (s : State) (f : Nat) (m addr : Nat) (ws : List Word) : Nat → State
  | 0 => s
  | k + 1 =>
    if ws.length ≤ m then s.emit (.hostWrite f addr ws)
    else (s.emit (.hostWrite f addr (ws.take m))).sendWords f m (addr + 4 * m) (ws.drop m) k

/-- A write to host memory by function f, in payloads of at most Max_Payload_Size (R342). -/
def State.toHost (s : State) (f : Fin 16) (addr : Nat) (ws : List Word) : State :=
  if s.fnReach f then s.sendWords f (s.maxPayload f) addr ws (ws.length + 1) else s

/-- Requests of a flight that wait for their data: `m` bytes each, answered in order (R342). -/
def Flight.requests (m : Nat) (y : Flight) : Nat :=
  match y.await with
  | .read got sent => if y.begun then (sent + m - 1) / m - 4 * got.length / m else 0
  | _ => 0

/-- Requests of the flights of function f that wait for their data. -/
def State.flightReads (s : State) (f : Fin 16) : Nat :=
  ((s.fnOf f).flights.map (Flight.requests (s.maxRead f))).foldl (· + ·) 0

/-- Read requests of function f that wait for their data: those of its descriptors, its fetches, and those that an abort gave
up, whose tags stay reserved (R342, R363). -/
def State.reads (s : State) (f : Fin 16) : Nat := s.flightReads f + (s.fnOf f).fetches + (s.fnOf f).late

/-- Another read request may be issued for function f (R342): 16 are its own while it is enabled; the rest of the 768, or of the
256 without 10-bit tags, are shared, and hold what a disabled function still has outstanding. -/
def State.mayRequest (s : State) (f : Fin 16) : Bool :=
  let own (g : Fin 16) : Nat := if s.fnEn g then 16 else 0
  let shared := (List.finRange 16).foldl (fun k g => k + (s.reads g - own g)) 0
  let limit := (if (s.fnOf 0).tag10 then 768 else 256) - (List.finRange 16).foldl (fun k g => k + own g) 0
  decide (s.reads f < own f) || decide (shared < limit)

/-- Replay class R of an opcode (R354). -/
def replayR (op : Nat) : Bool := [0x00, 0x01, 0x02, 0x03, 0x04, 0x05, 0x06, 0x07, 0x09, 0x0B, 0x10].contains op

/-- A flight ends with a status and a result; OK after a replay becomes REPLAYED (R352, R360). -/
def Flight.ends (x : Flight) (status : Nat) (result : BitVec 64) : Compl :=
  ⟨x.pos, x.sq, x.d.slice, x.d.tag, if status == 0 && x.replay then 8 else status, result, x.d.notify, x.ptb, x.d.relaxed⟩

/-- The perturbation bit of a flight from the start of its execution on (R187, R479). -/
def State.flightPtb (s : State) (x : Flight) : Flight :=
  { x with ptb := x.ptb || ((x.begun || x.since.isSome) && (if x.d.slice < 12 then s.ptbFlag x.d.slice else s.ptbActive 12)) }

/-- A perturbation unit has begun to act: every descriptor that runs, or waits to be written, carries it (R479). -/
def State.notePtb (s : State) : State :=
  { s with fns := s.fns.map (fun (x : FnSt) => { x with
      flights := x.flights.map s.flightPtb
      done := x.done.map (fun y => { y with
        ptb := y.ptb || (if y.slice < 12 then s.ptbFlag y.slice else s.ptbActive 12) }) }) }

/-- The k-th flight of function f, which has executed, finishes. -/
def State.descFinish (s : State) (f : Fin 16) (k status : Nat) (result : BitVec 64) : State :=
  let x := s.fnOf f
  match x.flights[k]? with
  | some fl => s.setFn f { x with
      flights := x.flights.eraseIdx k
      done := x.done ++ [(s.flightPtb { fl with begun := true }).ends status result] }
  | none => s

/-- Every flight to which `g` gives a status and a result finishes with them, in order of fetch. -/
def State.descEndWith (s : State) (g : Flight → Option (Nat × BitVec 64)) : State :=
  (List.finRange 16).foldl (fun (t : State) (f : Fin 16) =>
    let x := t.fnOf f
    let ended := x.flights.filterMap (fun y => (g y).map (fun e => (t.flightPtb y).ends e.1 e.2))
    if ended.isEmpty then t
    else t.setFn f { x with
      flights := x.flights.filter (fun y => (g y).isNone)
      done := x.done ++ ended }) s

/-- Every flight that satisfies a condition finishes, in order of fetch. -/
def State.descFinishAll (s : State) (p : Flight → Bool) (status : Nat) (result : BitVec 64) : State :=
  s.descEndWith (fun y => if p y then some (status, result) else none)

/-- What executing descriptors waited for has come. -/
def State.descDone (s : State) (a : Await) (status : Nat) (result : Nat) : State :=
  s.descFinishAll (fun x => x.begun && x.await == a) status (BitVec.ofNat 64 result)

/-- A firing at clock `at_`, at MTIME `time`, ends the EVENT_WAITs that had begun by then (R354). -/
def State.descEvent (s : State) (src at_ : Nat) (time : BitVec 64) : State :=
  s.descFinishAll (fun x => x.begun && x.await == .event src && decide (x.since.getD 0 ≤ at_)) 0 time

/-- Flights that wait for `a` wait for `b` from now on. -/
def State.descNext (s : State) (a b : Await) : State :=
  { s with fns := s.fns.map (fun (x : FnSt) => { x with
      flights := x.flights.map (fun y => if y.begun && y.await == a then { y with await := b } else y) }) }

/-- CAPTURE descriptors of slice n end with the run: STOP_CAUSE, and the sums and INJ_STAT at ADDR (R354). -/
def State.captureDone (s : State) (n cause : Nat) : State :=
  let mine (x : Flight) : Bool := x.begun && x.await == Await.inj n
  let ws : List Word := (List.range 4).flatMap (fun i => [s.reg (R.INJ_ACC_LO n i), s.reg (R.INJ_ACC_HI n i)]) ++ [s.reg (R.INJ_STAT n)]
  let s1 := (List.finRange 16).foldl (fun (t : State) (f : Fin 16) =>
    (t.fnOf f).flights.foldl (fun (u : State) y => if mine y && y.d.addr != 0 then u.toHost f y.d.addr ws else u) t) s
  s1.descDone (.inj n) 0 cause

/-- MCODE_LOAD descriptors of slice n end with the CRC: OK, or PARAM with the refused word in bits 43:32 (R354). -/
def State.crcDone (s : State) (n : Nat) (crc : Word) : State :=
  s.descEndWith (fun y => match y.await with
    | .crc m w =>
      if y.begun && m == n then some (if w == 0 then 0 else 5, BitVec.ofNat 64 (crc.toNat + 2 ^ 32 * w)) else none
    | _ => none)

/-- DMA_XFER descriptors of a channel end (R354). -/
def State.xferDone (s : State) (e c status : Nat) : State :=
  s.descDone (.dma e c) status (s.getF (R.DMA_STAT e c) F.DMA_STAT_ERR + 2 ^ 32 * (s.reg (R.DMA_PC e c)).toNat)

/-- A slice enters RECOVERING: descriptors of class R that address it and execute, or wait in their ring behind one that
executes, are stopped (R360). -/
def State.descHold (s : State) (n : Nat) : State :=
  let stop (l : List Flight) : List Flight :=
    (l.foldl (fun (acc : List Flight × List Nat) x =>
      let mine := x.d.slice == n && replayR x.d.op && !x.held
      let after := if x.begun then acc.2 ++ [x.sq] else acc.2
      if mine && (x.begun || acc.2.contains x.sq) then
        (acc.1 ++ [{ x with begun := false, await := .nothing, held := true, replay := true }], after)
      else (acc.1 ++ [x], after)) (([] : List Flight), ([] : List Nat))).1
  { s with fns := s.fns.map (fun (x : FnSt) => { x with flights := stop x.flights }) }

/-- Rollback of slice n has ended in RUNNING: the stopped descriptors execute again (R360). -/
def State.descReplay (s : State) (n : Nat) : State :=
  { s with fns := s.fns.map (fun (x : FnSt) => { x with
      flights := x.flights.map (fun y => if y.held && y.d.slice == n then { y with held := false } else y) }) }

/-- Rollback of slice n has ended in SAFE: the stopped descriptors complete with FAULT (R360). -/
def State.descFail (s : State) (n : Nat) : State := s.descFinishAll (fun x => x.held && x.d.slice == n) 6 0

/-- Slice n changes owner to `o`: executing descriptors of others that address it end with NOT_OWNER, and those that wait
will (R47, R356). -/
def State.descDisown (s : State) (n o : Nat) : State :=
  (List.finRange 16).foldl (fun (t : State) (f : Fin 16) =>
    if f.val == o then t
    else
      let x := t.fnOf f
      let hit (y : Flight) : Bool := y.d.slice == n && (y.begun || y.held)
      let ended := x.flights.filter hit
      t.setFn f { x with
        flights := (x.flights.filter (fun y => !hit y)).map (fun y => if y.d.slice == n then { y with lost := true } else y)
        done := x.done ++ ended.map (fun y => (t.flightPtb y).ends 3 0) }) s

/-- Insert a finished descriptor by its place of fetch. -/
def placeCompl (c : Compl) : List Compl → List Compl
  | [] => [c]
  | x :: l => if c.pos ≤ x.pos then c :: x :: l else x :: placeCompl c l

/-- Order of fetch. -/
def inOrder (l : List Compl) : List Compl := l.foldr placeCompl []

/-- Slices of `mask` are handed to the twin: their descriptors in flight, the finished ones too whose entry is not written, end
with ABORTED and RESULT bit 63, in ring order (R405). -/
def State.descHanded (s : State) (mask : BitVec 12) : State :=
  (List.finRange 16).foldl (fun (t : State) (f : Fin 16) =>
    let x := t.fnOf f
    let cell (c : Compl) : Compl := { c with status := 7, result := BitVec.ofNat 64 (2 ^ 63) }
    let mine := (x.done.filter (fun c => mask.getLsbD c.slice)).map cell ++
      (x.flights.filter (fun y => mask.getLsbD y.d.slice)).map (fun y => cell ((t.flightPtb y).ends 7 0))
    if mine.isEmpty then t
    else t.setFn f { x with
      flights := x.flights.filter (fun y => !mask.getLsbD y.d.slice)
      done := x.done.filter (fun c => !mask.getLsbD c.slice) ++ inOrder mine }) s

end Machine
end Sys2Proof
end

