-- ==== Sys2Proof/Machine/Grg.lean ====
section
/-! DEFINITION. Fast analogue inputs and Gorge windows (chapter 04): half switching, settling, thresholds, the
comparator test, the window's line and trip request, and the writes of the GRG registers. -/

namespace Sys2Proof
namespace Machine

def State.win (s : State) (n i : Fin 12) : WinSt := (s.grg.get n).get i

def State.setWin (s : State) (n i : Fin 12) (w : WinSt) : State :=
  { s with grg := s.grg.set n ((s.grg.get n).set i w) }

/-- Hysteresis in millivolts (R63). -/
def hystMv : Nat → Nat
  | 0 => 0
  | 1 => 5
  | 2 => 10
  | 3 => 20
  | 4 => 30
  | 5 => 40
  | 6 => 60
  | _ => 80

/-- R66 is broken: both halves enabled and V_LOW + H ≥ V_HIGH − H, in units of 5000 mV / 4096. -/
def State.thrOverlap (s : State) (n i : Nat) : Bool :=
  let c := R.GRG_WCFG n i
  let hi := s.getF (R.GRG_THR n i) F.GRG_THR_HIGH_CODE
  let lo := s.getF (R.GRG_THR n i) F.GRG_THR_LOW_CODE
  s.isSet c F.GRG_WCFG_HIGH_EN && s.isSet c F.GRG_WCFG_LOW_EN &&
    decide ((hi : Int) * 5000 - (lo : Int) * 5000 ≤ 2 * (hystMv (s.getF c F.GRG_WCFG_HYST) : Int) * 4096)

/-- The window is powered: its slice is not OFF, or it is wake-enabled in STABLED (R78, R498). -/
def State.winOn (s : State) (n i : Fin 12) : Bool :=
  s.powered n || (s.mode == mdStabled && s.fitted n && s.isSet (R.GRG_WCFG n i) F.GRG_WCFG_WAKE_EN)

def State.testSel (s : State) (n i : Nat) : Nat := s.getF (R.GRG_TEST n i) F.GRG_TEST_TEST_SEL

/-- HIGH half settled, or disabled, of an enabled window (R64). -/
def State.hiSettled (s : State) (n i : Fin 12) : Bool :=
  let c := R.GRG_WCFG n i
  s.isSet c F.GRG_WCFG_EN && ((s.win n i).hiDone || !s.isSet c F.GRG_WCFG_HIGH_EN)

def State.loSettled (s : State) (n i : Fin 12) : Bool :=
  let c := R.GRG_WCFG n i
  s.isSet c F.GRG_WCFG_EN && ((s.win n i).loDone || !s.isSet c F.GRG_WCFG_LOW_EN)

/-- The window's state (R65, R70, R76, R498): 0 UNSETTLED, 1 BELOW, 2 INSIDE, 3 ABOVE. With both halves disabled it is INSIDE
from its entry into UNSETTLED on, since both count as settled (log 151). -/
def State.winState (s : State) (n i : Fin 12) : Nat :=
  if !s.winOn n i || s.testSel n i != 0 || !s.hiSettled n i || !s.loSettled n i ||
      s.isSet (R.GRG_WSTAT n i) F.GRG_WSTAT_CFG_ERR then 0
  else if s.isSet (R.GRG_WCFG n i) F.GRG_WCFG_HIGH_EN && (s.win n i).hi then 3
  else if s.isSet (R.GRG_WCFG n i) F.GRG_WCFG_LOW_EN && (s.win n i).lo then 1
  else 2

/-- The window's line (R70, R71, R76). -/
def State.winLine (s : State) (n i : Fin 12) : Bool :=
  let st := s.winState n i
  st != 0 && natBit (s.getF (R.GRG_WCFG n i) F.GRG_WCFG_EVT_SEL) (st - 1)

/-- The window's trip request (R72, R498). -/
def State.winTrip (s : State) (n i : Fin 12) : Bool :=
  let st := s.winState n i
  let sel := s.getF (R.GRG_WCFG n i) F.GRG_WCFG_TRIP_SEL
  s.powered n && !s.isSet (R.GRG_TEST n i) F.GRG_TEST_TRIP_MASK &&
    (st == 0 || (st == 1 && natBit sel 0) || (st == 3 && natBit sel 1))

/-- The half outputs shown in GRG_RAW (R64, R74). -/
def State.rawHi (s : State) (n i : Fin 12) : Bool :=
  let c := R.GRG_WCFG n i
  s.isSet c F.GRG_WCFG_EN &&
    (if s.testSel n i != 0 then (s.win n i).testHi else s.isSet c F.GRG_WCFG_HIGH_EN && (s.win n i).hi)

def State.rawLo (s : State) (n i : Fin 12) : Bool :=
  let c := R.GRG_WCFG n i
  s.isSet c F.GRG_WCFG_EN &&
    (if s.testSel n i != 0 then (s.win n i).testLo else s.isSet c F.GRG_WCFG_LOW_EN && (s.win n i).lo)

/-- Show a window in GRG_WSTAT, GRG_STATE and GRG_RAW, and count a change of STATE (GRG_TRANS); the wake logic sees a line that
is 0 (R78). -/
def State.showWin (s : State) (n i : Fin 12) : State :=
  let a := R.GRG_WSTAT n i
  let old := s.getF a F.GRG_WSTAT_STATE
  let st := s.winState n i
  let s1 := s.setF a F.GRG_WSTAT_STATE st
  let s2 := (s1.setB a F.GRG_WSTAT_HI_SETTLED (s.hiSettled n i)).setB a F.GRG_WSTAT_LO_SETTLED (s.loSettled n i)
  let s3 := s2.setB a F.GRG_WSTAT_TRIP_REQ (s.winTrip n i)
  let s4 := s3.setF (R.GRG_STATE n) ⟨2 * i.val, 2⟩ st
  let s5 := s4.setF (R.GRG_RAW n) ⟨16 + i.val, 1⟩ (b2n (s.rawHi n i))
  let s6 := s5.setF (R.GRG_RAW n) ⟨i.val, 1⟩ (b2n (s.rawLo n i))
  let s7 := if old != st then s6.count (R.GRG_TRANS n i) F.GRG_TRANS_COUNT else s6
  if s7.winLine n i then s7 else s7.setWin n i { s7.win n i with waking := false }

/-- Show every window of slice n. -/
def State.showWins (s : State) (n : Fin 12) : State := (List.finRange 12).foldl (fun (t : State) i => t.showWin n i) s

/-- A wake-enabled window's line has risen (R78): it is 1, and in STABLED it was not 1 already when the module fell asleep. -/
def State.gorgeWakes (s : State) : Bool :=
  (List.finRange 12).any (fun n => (List.finRange 12).any (fun i =>
    s.isSet (R.GRG_WCFG n i) F.GRG_WCFG_WAKE_EN && s.winLine n i && !(s.mode == mdStabled && (s.win n i).waking)))

/-- Check R66, unless TIE_DAC is active (R74). -/
def State.checkThr (s : State) (n i : Fin 12) : State :=
  if s.testSel n i == 4 then s else s.setB (R.GRG_WSTAT n i) F.GRG_WSTAT_CFG_ERR (s.thrOverlap n i)

/-- Entry into UNSETTLED: both halves are held undecided for 2 µs (R69). -/
def State.unsettle (s : State) (n i : Fin 12) : State :=
  (s.setWin n i { s.win n i with hiDone := false, loDone := false, settling := true }).showWin n i

/-- Levels of a test in units of 5 V / 4096, the signal relative to code 0 of the mode: the two halves' levels (R74);
none for SWAP, whose outputs follow the input. -/
def testLevels (sel mode hiCode loCode : Nat) : Option (Int × Int) :=
  match sel with
  | 2 => some (if mode == 1 then (2048, 2048) else (0, 0))
  | 3 => some (if mode == 1 then (4096, 4096) else (2048, 2048))
  | 4 => some ((loCode : Int), (hiCode : Int))
  | _ => none

/-- The outputs of the two halves that R74 defines for the test that runs: none within a band, and none for SWAP, where
the input decides. -/
def State.testOuts (s : State) (n i : Fin 12) : Option Bool × Option Bool :=
  let w := s.win n i
  let h : Int := (hystMv (s.getF (R.GRG_WCFG n i) F.GRG_WCFG_HYST) : Int) * 4096
  let m : Int := 10 * 4096
  match testLevels (s.testSel n i) (s.getF (R.GRG_IN n i) F.GRG_IN_MODE) w.hiCode w.loCode with
  | some (lh, ll) =>
    (if lh * 5000 > (w.hiCode : Int) * 5000 + m then some true
     else if lh * 5000 < (w.hiCode : Int) * 5000 - h - m then some false else none,
     if ll * 5000 < (w.loCode : Int) * 5000 - m then some true
     else if ll * 5000 > (w.loCode : Int) * 5000 + h + m then some false else none)
  | none => (none, none)

/-- The comparator outputs at the start of a test: defined outside the bands of R74, free within them (log 14). -/
def State.testStart (s : State) (n i : Fin 12) : State :=
  let (th, tl) := s.testOuts n i
  { s with free := s.free + 2 }.setWin n i { s.win n i with
    testHi := th.getD (Config.freeBit s.free), testLo := tl.getD (Config.freeBit (s.free + 1)) }

/-- The levels, thresholds or hysteresis of a running test have changed: an output that R74 now defines takes its value. -/
def State.testMoved (s : State) (n i : Fin 12) : State :=
  if s.testSel n i == 0 then s
  else
    let (th, tl) := s.testOuts n i
    let w := s.win n i
    s.setWin n i { w with testHi := th.getD w.testHi, testLo := tl.getD w.testLo }

/-- A half sets or clears as its input passes its switching level (R64, R67, R69); during a test it is the comparator's
output that changes, where R74 does not define it. -/
def State.halfSwitch (s : State) (n i : Fin 12) (high set : Bool) : State :=
  let c := R.GRG_WCFG n i
  let w := s.win n i
  if !s.winOn n i || !s.isSet c F.GRG_WCFG_EN then s
  else if s.testSel n i != 0 then
    if (if high then (s.testOuts n i).1 else (s.testOuts n i).2).isSome then s
    else (s.setWin n i (if high then { w with testHi := set } else { w with testLo := set })).showWin n i
  else if w.settling then s
  else if high then
    if s.isSet c F.GRG_WCFG_HIGH_EN then (s.setWin n i { w with hi := set, hiDone := true }).showWin n i else s
  else
    if s.isSet c F.GRG_WCFG_LOW_EN then (s.setWin n i { w with lo := set, loDone := true }).showWin n i else s

/-- The 2 µs end: a half whose input lies outside its band settles at that moment (R69). `hi`, `lo`: the side of the band
the input lies on, or none inside it. -/
def State.settlingEnd (s : State) (n i : Fin 12) (hi lo : Option Bool) : State :=
  let c := R.GRG_WCFG n i
  let w := s.win n i
  if !w.settling || !s.isSet c F.GRG_WCFG_EN || s.testSel n i != 0 || !s.winOn n i then s
  else
    let w1 := { w with settling := false }
    let w2 := match hi with
      | some b => if s.isSet c F.GRG_WCFG_HIGH_EN then { w1 with hi := b, hiDone := true } else w1
      | none => w1
    let w3 := match lo with
      | some b => if s.isSet c F.GRG_WCFG_LOW_EN then { w2 with lo := b, loDone := true } else w2
      | none => w2
    (s.setWin n i w3).showWin n i

/-- INPUT_OVERRANGE: the input goes beyond the 2 % margin, where OVR is set in every cycle, or comes back within it (R61). -/
def State.overrange (s : State) (n i : Fin 12) (beyond : Bool) : State :=
  if !s.winOn n i then s
  else
    let s1 := s.setWin n i { s.win n i with beyond := beyond }
    if beyond then s1.setF (R.GRG_IN n i) F.GRG_IN_OVR 1 else s1

/-- The half switches to its new threshold in one step (R68). -/
def State.thrSwitch (s : State) (n i : Fin 12) (high : Bool) : State :=
  let w := s.win n i
  if high then
    if w.hiStaged then
      (((s.setWin n i { w with hiCode := s.getF (R.GRG_THR n i) F.GRG_THR_HIGH_CODE, hiStaged := false }).checkThr
        n i).testMoved n i).showWin n i
    else s
  else
    if w.loStaged then
      (((s.setWin n i { w with loCode := s.getF (R.GRG_THR n i) F.GRG_THR_LOW_CODE, loStaged := false }).checkThr
        n i).testMoved n i).showWin n i
    else s

def State.grgRefuse (s : State) (n : Nat) : State := s.count (R.GRG_CFG_REJ n) F.GRG_CFG_REJ_COUNT

/-- A write of GRG_WCFG[i] (R69, R495); a half that it disables reads clear (R64). -/
def State.grgWcfg (s : State) (n i : Fin 12) (v : Word) : State :=
  let a := R.GRG_WCFG n i
  if s.slState n != slFenced || hasOutside v 0x0000FE77 then s.grgRefuse n
  else
    let en := F.GRG_WCFG_EN.get v == 1
    let was := s.isSet a F.GRG_WCFG_EN
    let halves := F.GRG_WCFG_HIGH_EN.get v != s.getF a F.GRG_WCFG_HIGH_EN ||
      F.GRG_WCFG_LOW_EN.get v != s.getF a F.GRG_WCFG_LOW_EN
    let w := s.win n i
    let hiOn := en && F.GRG_WCFG_HIGH_EN.get v == 1
    let loOn := en && F.GRG_WCFG_LOW_EN.get v == 1
    let s1 := (((s.setReg a v).checkThr n i).setWin n i { w with hi := w.hi && hiOn, lo := w.lo && loOn }).testMoved n i
    if en && (!was || halves) then s1.unsettle n i else s1.showWin n i

/-- A write of GRG_IN[i] (R61, R62, R495). -/
def State.grgIn (s : State) (n i : Fin 12) (v : Word) : State :=
  let a := R.GRG_IN n i
  let chg := F.GRG_IN_MODE.get v != s.getF a F.GRG_IN_MODE
  if (chg && s.slState n != slFenced) || hasOutside v 0x80000001 then s.grgRefuse n
  else
    let s1 := if F.GRG_IN_OVR.get v == 1 && !(s.win n i).beyond then s.setF a F.GRG_IN_OVR 0 else s
    if chg then ((s1.setF a F.GRG_IN_MODE (F.GRG_IN_MODE.get v)).testMoved n i).unsettle n i else s1

/-- A write of GRG_THR[i]: staged into the double-buffered DACs (R68, R495). -/
def State.grgThr (s : State) (n i : Fin 12) (v : Word) : State :=
  let st := s.slState n
  if !(st == slFenced || st == slReady || st == slRunning) || hasOutside v 0x0FFF0FFF then s.grgRefuse n
  else (s.setReg (R.GRG_THR n i) v).setWin n i { s.win n i with hiStaged := true, loStaged := true }

/-- A write of GRG_TEST[i] (R75, R76). -/
def State.grgTest (s : State) (n i : Fin 12) (v : Word) : State :=
  let a := R.GRG_TEST n i
  let sel := F.GRG_TEST_TEST_SEL.get v
  let msk := F.GRG_TEST_TRIP_MASK.get v == 1
  let cur := s.testSel n i
  let curMsk := s.isSet a F.GRG_TEST_TRIP_MASK
  if decide (4 < sel) || (sel != 0 && !(s.slState n == slFenced || curMsk || msk)) || (cur != 0 && curMsk && !msk) then
    (s.setF (R.GRG_WSTAT n i) F.GRG_WSTAT_TEST_REJ 1).count (R.GRG_TEST_REJ n) F.GRG_TEST_REJ_COUNT
  else
    let s1 := s.setReg a (F.GRG_TEST_TRIP_MASK.word (b2n msk) ||| F.GRG_TEST_TEST_SEL.word sel)
    if sel != 0 then ((s1.checkThr n i).testStart n i).showWin n i
    else if cur != 0 then (s1.checkThr n i).unsettle n i
    else s1.showWin n i

/-- During SWAP the outputs follow the side of its band on which the input lies, beyond the margin M (R74): true above. -/
def State.swapSides (s : State) (n i : Fin 12) (hi lo : Option Bool) : State :=
  if s.testSel n i != 1 then s
  else
    let w := s.win n i
    (s.setWin n i { w with testHi := (hi.map (!·)).getD w.testHi, testLo := lo.getD w.testLo }).showWin n i

/-- The window whose line capture channel c is given in place of its pin (R71). -/
def State.capWin (s : State) (n : Fin 12) (c : Nat) : Option (Fin 12) :=
  let w := s.getF (R.GRG_CAPSEL n) ⟨4 * c, 4⟩
  if h : 1 ≤ w ∧ w ≤ 12 then some ⟨w - 1, by omega⟩ else none

def State.capOf (s : State) (n : Fin 12) (c : Fin 4) : CapSt := (s.cap.get n).get c

/-- Capture channel c is given another input, or its pin under another POL: it stands at that level from now on, and no edge
is seen (log 154). -/
def State.capAim (s : State) (n : Fin 12) (c : Fin 4) : State :=
  let x := s.capOf n c
  let l := match s.capWin n c with
    | some i => s.winLine n i
    | none => x.pin != s.isSet (R.SLC_CAPCFG n c) F.SLC_CAPCFG_POL
  { s with cap := s.cap.set n ((s.cap.get n).set c { x with level := l }) }

/-- A write of GRG_CAPSEL: a nibble written 0xD to 0xF is kept (R71, R495). -/
def State.grgCapsel (s : State) (n : Fin 12) (v : Word) : State :=
  if s.slState n != slFenced || hasOutside v 0x0000FFFF then s.grgRefuse n
  else
    let nib (k : Nat) : Nat :=
      let x := (v.toNat / 16 ^ k) % 16
      if x < 13 then x else ((s.reg (R.GRG_CAPSEL n)).toNat / 16 ^ k) % 16
    let s1 := s.setReg (R.GRG_CAPSEL n) (BitVec.ofNat 32 (nib 0 + 16 * nib 1 + 256 * nib 2 + 4096 * nib 3))
    (List.finRange 4).foldl (fun (t : State) (c : Fin 4) => if s.capWin n c == s1.capWin n c then t else t.capAim n c) s1

/-- When the slice leaves FENCED, windows under test with TRIP_MASK = 0 return to NORMAL (R77). -/
def State.endTests (s : State) (n : Fin 12) : State :=
  (List.finRange 12).foldl (fun (s : State) (i : Fin 12) =>
    if s.testSel n i != 0 && !s.isSet (R.GRG_TEST n i) F.GRG_TEST_TRIP_MASK then
      ((s.setF (R.GRG_TEST n i) F.GRG_TEST_TEST_SEL 0).checkThr n i).unsettle n i
    else s) s

/-- Any write of the GRG block of slice n. -/
def State.grgWrite (s : State) (n : Fin 12) (a : Nat) (v : Word) : State :=
  let o := a - (sliceBase n + 0x3000)
  if o == 8 then s.grgCapsel n v
  else if h : 0x100 ≤ o ∧ o < 0x280 then
    let i : Fin 12 := ⟨(o - 0x100) / 0x20, by omega⟩
    match (o - 0x100) % 0x20 with
    | 0x0 => s.grgIn n i v
    | 0x4 => s.grgThr n i v
    | 0x8 => s.grgWcfg n i v
    | 0xC => s.grgTest n i v
    | 0x10 => s.setReg a (s.reg a &&& ~~~ (v &&& 0xC0000000))
    | _ => s
  else s

/-- Reset of the GRG registers and windows of a slice (power-on, STOP). -/
def State.grgReset (s : State) (n : Fin 12) : State :=
  { s.resetRegs (sliceBase n + 0x3000) (sliceBase n + 0x4000) with grg := s.grg.set n (Vector.replicate 12 resetWin) }

end Machine
end Sys2Proof
end

