-- ==== Sys2Proof/Machine/SarTrig.lean ====
section
/-! DEFINITION. Triggers of the SAR converters (R79, R82 to R84): what starts a burst, what waits and what is dropped. -/

namespace Sys2Proof
namespace Machine

def State.ctlOf (s : State) (n : Fin 12) : CtlSt := s.ctl.get n
def State.setCtl (s : State) (n : Fin 12) (c : CtlSt) : State := { s with ctl := s.ctl.set n c }

/-- A loop's sample counts as skipped for SLC_REC_STAT.K (R383). -/
def State.noteSkip (s : State) (n : Fin 12) (j : Fin 16) : State :=
  let c := s.ctlOf n
  s.setCtl n { c with skipped := c.skipped.set j (c.skipped.get j + 1) }

def State.sr (s : State) (n : Fin 12) (k : Fin 4) : SarSt := (s.sar.get n).get k

def State.setSr (s : State) (n : Fin 12) (k : Fin 4) (x : SarSt) : State :=
  { s with sar := s.sar.set n ((s.sar.get n).set k x) }

/-- Entries per burst. -/
def State.sarLen (s : State) (n k : Nat) : Nat := s.getF (R.SAR_TRIG n k) F.SAR_TRIG_LEN

/-- The slice state lets hardware triggers, or software triggers, reach the converter (R84). -/
def State.sarGate (s : State) (n : Nat) (sw : Bool) : Bool :=
  let st := s.slState n
  s.fitted n && (st == slReady || st == slRunning || (sw && st == slFenced))

/-- Set TRIG_OVR_F or MEM_OVR_F; the local source SAR_OVR fires when a flag becomes set (R304). -/
def State.sarFlag (s : State) (n k : Nat) (f : Fld) : State :=
  let a := R.SAR_STAT n k
  if s.isSet a f then s else (s.setF a f 1).fireLocal n 19

/-- The input that entry e converts (R60). -/
def State.sarInput (s : State) (n k e : Nat) : Nat := 4 * s.getF (R.SAR_ENT n k e) F.SAR_ENT_POS + k

/-- Start a burst: acquisition of entry 0, from the input that its POS selects now (R79, R81). -/
def State.sarStart (s : State) (n : Fin 12) (k : Fin 4) : State :=
  (s.setSr n k { s.sr n k with phase := .acq 0 (s.sarInput n k 0) }).setF (R.SAR_STAT n k) F.SAR_STAT_BUSY 1

/-- The loop that the hand-off of entry e triggers, if it triggers one (R87, R108). -/
def State.sarLoop (s : State) (n k e : Nat) : Option (Fin 16) :=
  let ent := R.SAR_ENT n k e
  let d := s.getF ent F.SAR_ENT_DEST
  let j := s.getF ent F.SAR_ENT_LOOP % 16
  if (d == 1 || d == 3) && s.isSet ent F.SAR_ENT_TRIG_LOOP && s.getF (R.CLE_LCTRL n j) F.CLE_LCTRL_TRIG == 0 then
    some ⟨j, Nat.mod_lt _ (by decide)⟩
  else none

/-- A result of entry e that RECOVERING withholds: the sample of the loop it would have triggered is a skipped one (R109,
R383). -/
def State.sarMissed (s : State) (n : Fin 12) (k e : Nat) : State :=
  match s.sarLoop n k e with
  | some j => if s.isSet (R.CLE_LCTRL n j) F.CLE_LCTRL_EN then s.noteSkip n j else s
  | none => s

/-- A trigger that the slice ignores while it is RECOVERING (R84, R109). -/
def State.sarIgnored (s : State) (n : Fin 12) (k : Nat) : State :=
  if s.slState n == slRecovering then (List.range (s.sarLen n k)).foldl (fun (t : State) e => t.sarMissed n k e) s else s

/-- `m` triggers reach a converter whose burst runs: one may wait, every further one is dropped (R83). -/
def State.sarPend (s : State) (n : Fin 12) (k : Fin 4) (m : Nat) : State :=
  let st := R.SAR_STAT n k
  let dropped := if s.isSet st F.SAR_STAT_PEND then m else m - 1
  let s1 := if m == 0 then s else s.setF st F.SAR_STAT_PEND 1
  if dropped == 0 then s1
  else (s1.countBy (R.SAR_OVR n k) F.SAR_OVR_TRIG dropped).sarFlag n k F.SAR_STAT_TRIG_OVR_F

/-- A trigger that reaches the converter, `extra` more of them with it (R82, R83). A trigger in the cycle in which another
found the converter idle is merged and counted; one in the cycle in which a burst has ended starts the next burst at that
instant, and further ones of that cycle find the converter busy. A commanded self-calibration holds no trigger back
(log 155). -/
def State.sarTrig (s : State) (n : Fin 12) (k : Fin 4) (sw : Bool) (extra : Nat) : State :=
  let x := s.sr n k
  let ovr := R.SAR_OVR n k
  if !s.sarGate n sw || s.sarLen n k == 0 then s.sarIgnored n k
  else if x.phase == .idle then
    if x.endAt == some s.clock then (s.sarStart n k).sarPend n k extra
    else
      let s1 := s.sarStart n k
      (s1.setSr n k { s1.sr n k with idleAt := some s.clock }).countBy ovr F.SAR_OVR_TRIG extra
  else if x.idleAt == some s.clock then s.countBy ovr F.SAR_OVR_TRIG (extra + 1)
  else s.sarPend n k (extra + 1)

/-- Event e of PWM channel k triggers, in its own cycle, every converter of the slice whose SRC = PWM names it (R82, R157); one
whose SRC = EVR names its router source is triggered by the taps, 4 tCK later (R313). -/
def State.sarEvent (s : State) (n : Fin 12) (k e : Nat) : State :=
  (List.finRange 4).foldl (fun (t : State) (i : Fin 4) =>
    let a := R.SAR_TRIG n i
    if t.getF a F.SAR_TRIG_SRC == 1 && t.getF a F.SAR_TRIG_CH == k && t.getF a F.SAR_TRIG_EVT == e then t.sarTrig n i false 0
    else t) s

end Machine
end Sys2Proof
end

