-- ==== Sys2Proof/Machine/Pwm.lean ====
section
/-! DEFINITION. PWM channels and their trip stage (chapters 08 and 09): counter, reloads, edges, dead time, events,
synchronisation, trip latching and clearing, the lines of R172, and the writes of the channel's registers. -/

namespace Sys2Proof
namespace Machine

def State.pw (s : State) (n : Fin 12) (k : Fin 8) : PwmSt := (s.pwm.get n).get k

def State.setPw (s : State) (n : Fin 12) (k : Fin 8) (p : PwmSt) : State :=
  { s with pwm := s.pwm.set n ((s.pwm.get n).set k p) }

/-! Active values. -/

def State.actPer (s : State) (n k : Nat) : Nat := s.getF (R.PWM_ACT_PER n k) F.PWM_PER_VALUE
def State.actCmp (s : State) (n k : Nat) : Nat := s.getF (R.PWM_ACT_CMP n k) F.PWM_CMP_VALUE
def State.actDt (s : State) (n k : Nat) : Nat := s.getF (R.PWM_ACT_DT n k) F.PWM_DT_VALUE

/-- The prescaler P (R147). -/
def State.presc (s : State) (n k : Nat) : Nat := 2 ^ s.getF (R.PWM_CTRL n k) F.PWM_CTRL_PRESC

/-- FULL (R152). -/
def cmpFull : Nat := 0xFFFFFFF

/-- Value at load: anything from 16·PER up, but FULL, becomes 16·PER − 1 (R152). -/
def clampCmp (per c : Nat) : Nat := if c != cmpFull && decide (16 * per ≤ c) then 16 * per - 1 else c

/-- Load the active CMP, with the clamp of R152. -/
def State.loadCmp (s : State) (n k c : Nat) : State :=
  let c' := clampCmp (s.actPer n k) c
  let s1 := s.setReg (R.PWM_ACT_CMP n k) (BitVec.ofNat 32 c')
  if c' != c then s1.setF (R.PWM_STAT n k) F.PWM_STAT_CLAMPED_F 1 else s1

/-- Load the active PER. -/
def State.loadPer (s : State) (n k : Nat) : State :=
  s.setReg (R.PWM_ACT_PER n k) (BitVec.ofNat 32 (s.getF (R.PWM_PER n k) F.PWM_PER_VALUE))

/-- An active CMP that no load replaces is clamped to a newly loaded PER in the same cycle (R152). -/
def State.reclamp (s : State) (n k : Nat) : State :=
  let c := s.actCmp n k
  if clampCmp (s.actPer n k) c != c then s.loadCmp n k c else s

def State.loadDt (s : State) (n k : Nat) : State :=
  s.setReg (R.PWM_ACT_DT n k) (BitVec.ofNat 32 (s.getF (R.PWM_DT n k) F.PWM_DT_VALUE))

/-! The counter. -/

/-- The channel counts: EN = 1, in every slice state but ABSENT and OFF, and in every mode but STABLED (R149). -/
def State.pwmRuns (s : State) (n k : Nat) : Bool :=
  s.isSet (R.PWM_CTRL n k) F.PWM_CTRL_EN && s.powered n && s.mode != mdStabled

/-- The falling half is current. -/
def State.falling (s : State) (n k : Nat) : Bool := s.isSet (R.PWM_CNT n k) F.PWM_CNT_DIR

/-- The counts that the clock has brought the counter since its last valley, unfolded: from the last valley, period point or
restart, 0 until a correction at a valley has been made (R163). -/
def State.pwmGone (s : State) (n : Fin 12) (k : Fin 8) : Nat :=
  let p := s.pw n k
  if s.clock < p.base then 0 else p.pos + (s.clock - p.base) / s.presc n k

/-- The unfolded position u of the channel now (R162), held at the end of its half until the event of that end. -/
def State.pwmPos (s : State) (n : Fin 12) (k : Fin 8) : Nat :=
  let per := s.actPer n k
  let u := s.pwmGone n k
  if !s.pwmRuns n k then 0
  else if s.falling n k then min u (2 * per) else min u per

/-- The counter value of a position. -/
def foldPos (per u : Nat) : Nat := if u ≤ per then u else 2 * per - u

/-- PWM_CNT as it reads: the counter now. -/
def State.cntView (s : State) (n : Fin 12) (k : Fin 8) : Word :=
  if s.pwmRuns n k then
    F.PWM_CNT_DIR.word (b2n (s.falling n k)) ||| F.PWM_CNT_COUNT.word (foldPos (s.actPer n k) (s.pwmPos n k))
  else s.reg (R.PWM_CNT n k)

/-- Put the counter at position u, in the half `fall`. -/
def State.setPos (s : State) (n : Fin 12) (k : Fin 8) (u : Nat) (fall : Bool) : State :=
  let s1 := s.setPw n k { s.pw n k with pos := u, base := s.clock, turn := s.clock }
  s1.setReg (R.PWM_CNT n k)
    (F.PWM_CNT_DIR.word (b2n fall) ||| F.PWM_CNT_COUNT.word (foldPos (s.actPer n k) u))

/-! Events (R156, R157): 0 VALLEY, 1 PERIOD, 2 CMPA_UP, 3 CMPA_DOWN. -/

def evField : Fin 4 → Fld
  | 0 => F.PWM_EVCFG_VAL_PRE
  | 1 => F.PWM_EVCFG_PER_PRE
  | 2 => F.PWM_EVCFG_CMPU_PRE
  | 3 => F.PWM_EVCFG_CMPD_PRE

/-- An occurrence of an event passes its prescaler and fires every Nth time; the firing reaches the router, the SAR triggers
and the slice's DMA channels in the same cycle (R156, R157). -/
def State.pwmEvent (s : State) (n : Fin 12) (k : Fin 8) (e : Fin 4) : State :=
  let p := s.pw n k
  let o := p.occ.get e + 1
  if s.getF (R.PWM_EVCFG n k) (evField e) < o then
    let x := 36 + 4 * k.val + e.val
    ((s.setPw n k { p with occ := p.occ.set e 0 }).fireLocal n x).sarEvent n k.val e.val
  else s.setPw n k { p with occ := p.occ.set e o }

/-! The pins (R166, R167, R172). -/

/-- The slice holds the standby role of a twin pair (R392). -/
def State.standby (s : State) (n : Nat) : Bool :=
  s.mode == mdTwin && natBit (s.getF R.TWN_ROLE F.TWN_ROLE_STANDBY) n

/-- The TWIN_HO request: the module is deposed by the handover line (R168, R402). -/
def State.twinHo (s : State) : Bool := s.isSet R.TWN_STAT F.TWN_STAT_HO_IN || s.isSet R.TWN_STAT F.TWN_STAT_DEPOSED

/-- The slice is armed. -/
def State.armed (s : State) (n : Nat) : Bool := natBit (s.getF R.DEV_ARM F.DEV_ARM_ARM) n

/-- The channel is enabled under TEST authority (R471). -/
def State.testOut (s : State) (n k : Nat) : Bool :=
  s.mode == mdService && natBit (s.getF (R.DBG_TESTOUT n) F.DBG_TESTOUT_MASK) k

/-- The mode lets outputs switch (R19); with `hil`, HIL counts as if it did (R357). -/
def State.modeDrives (s : State) (hil : Bool) : Bool :=
  s.mode == mdIsland || s.mode == mdHosted || s.mode == mdTwin || (hil && s.mode == mdHil)

/-- Line of R172 in force, as PWM_TRIP_STAT.PINS encodes it: 0 off, 1 TRIP_ACT, 2 SAFE_PAT, 3 edge generator. A channel of a
newly armed slice is off until its own next VALLEY, but for one whose trip is latched (R32). -/
def State.pinLine (s : State) (n : Fin 12) (k : Fin 8) : Nat :=
  let test := s.testOut n k
  let tst := R.PWM_TRIP_STAT n k
  let st := s.slState n
  let ctl := s.ctl.get n
  let hil := s.mode == mdHil
  let recovering := st == slRecovering
  let off := (!test && !s.modeDrives hil) || !s.powered n || s.standby n || (s.mode == mdTwin && s.twinHo) ||
    (!test && !hil && !s.armed n && !ctl.safeHold) || ctl.takeover
  if off then 0
  else if s.isSet tst F.PWM_TRIP_STAT_TRIPPED || s.isSet tst F.PWM_TRIP_STAT_REARM_PEND then 1
  else if ctl.safeHold || (test && (ctl.fencing || s.isSet (R.SLC_CMD_STAT n) F.SLC_CMD_STAT_HELD)) then 2
  else if (s.pw n k).armWait && s.armed n && !test then 0
  else if ctl.recWait.get k || (recovering && s.isSet (R.PWM_TRIP_CFG n k) F.PWM_TRIP_CFG_REC_ACT) then 2
  else 3

/-- Outputs that a pattern requires (R166): A, B. -/
def patternOut (act : Nat) (holdB : Bool) : Bool × Bool :=
  match act with
  | 0 => (false, false)
  | 1 => (true, false)
  | 2 => (false, true)
  | _ => (!holdB, holdB)

/-- The pattern code of a line. -/
def State.lineAct (s : State) (n k line : Nat) : Nat :=
  if line == 1 then s.getF (R.PWM_TRIP_CFG n k) F.PWM_TRIP_CFG_TRIP_ACT
  else s.getF (R.PWM_TRIP_CFG n k) F.PWM_TRIP_CFG_SAFE_PAT

/-- The outputs that the line in force requires of the pins. -/
def State.pinWant (s : State) (n : Fin 12) (k : Fin 8) (line : Nat) : Bool × Bool :=
  match line with
  | 0 => (false, false)
  | 3 => (s.isSet (R.PWM_STAT n k) F.PWM_STAT_OUT_A, s.isSet (R.PWM_STAT n k) F.PWM_STAT_OUT_B)
  | l => patternOut (s.lineAct n k l) (s.pw n k).holdB

/-- At instant `now`, in sixteenths of the clock, the dead time after the other output's last turn-off has passed (R167). -/
def State.dtPassed (s : State) (n k now : Nat) : Option Nat → Bool
  | none => true
  | some t => decide (t + s.actDt n k ≤ now)

/-- HIL edge record of an enabled channel (R357): slice, channel, output, level, in the edge ring of the owning function while
requests may be issued for it, or a drop. `now`: the instant of the edge, in sixteenths of the clock. -/
def State.edgeRecord (s : State) (n : Fin 12) (k : Fin 8) (out : Nat) (level : Bool) (now : Nat) : State :=
  let f := s.owner n
  if s.mode != mdHil || decide (16 ≤ f) || !s.isSet (R.RNG_EDGE_CFG f) F.RNG_EDGE_CFG_EN ||
      !s.fnReach ⟨f % 16, Nat.mod_lt _ (by decide)⟩ || !s.isSet (R.PWM_CTRL n k) F.PWM_CTRL_EN then s
  else
    let st := R.RNG_EDGE_STAT f
    let len := 2 ^ s.getF (R.RNG_EDGE_CFG f) F.RNG_EDGE_CFG_LOG2LEN
    let w := s.getF st F.RNG_EDGE_STAT_WIDX
    let seq := s.edgeSeq.get ⟨f % 16, Nat.mod_lt _ (by decide)⟩
    let s1 := { s with edgeSeq := s.edgeSeq.set (f % 16) (seq + 1) (Nat.mod_lt _ (by decide)) }
    if (w + 1) % len == s.edgeRidx.get ⟨f % 16, Nat.mod_lt _ (by decide)⟩ then
      s1.count st F.RNG_EDGE_STAT_DROP
    else
      let base := (s.reg (R.RNG_EDGE_LO f)).toNat + 2 ^ 32 * (s.reg (R.RNG_EDGE_HI f)).toNat
      let t := s.mtime.toNat * 16 + (now - 16 * s.clock)
      let ptb := b2n (s.ptbFlag n)
      (s1.emit (.hostWrite f (base + 16 * w) [BitVec.ofNat 32 t, BitVec.ofNat 32 (t / 2 ^ 32),
        BitVec.ofNat 32 (n.val + 256 * k.val + 65536 * (out + 2 * b2n level + 4 * ptb)),
        BitVec.ofNat 32 seq])).setF st F.RNG_EDGE_STAT_WIDX ((w + 1) % len)

/-- In HIL mode the pins are held off (R19); elsewhere they show what the trip stage drives. -/
def State.pinA (s : State) (n : Fin 12) (k : Fin 8) : Bool := (s.pw n k).pinA && s.mode != mdHil
def State.pinB (s : State) (n : Fin 12) (k : Fin 8) : Bool := (s.pw n k).pinB && s.mode != mdHil

/-- Drive the trip stage, at instant `now` in sixteenths of the clock, to what line `line` requires: turn-offs at once, a
turn-on no earlier than the dead time after the other output's turn-off (R167). A turn-on that must wait stays pending until
TRIP_STAGE_TURN_ON. -/
def State.drive (s : State) (n : Fin 12) (k : Fin 8) (line now : Nat) : State :=
  let p := s.pw n k
  let (wa, wb) := s.pinWant n k line
  let offA := if p.pinA && !wa then some now else p.offA
  let offB := if p.pinB && !wb then some now else p.offB
  let a := wa && (p.pinA || s.dtPassed n k now offB)
  let b := wb && (p.pinB || s.dtPassed n k now offA)
  let s1 := s.setPw n k { p with pinA := a, pinB := b && !a, offA := offA, offB := offB }
  let s2 := if a != p.pinA then s1.edgeRecord n k 0 a now else s1
  if (b && !a) != p.pinB then s2.edgeRecord n k 1 (b && !a) now else s2

/-- Follow the first line of R172 that applies, at instant `now` in sixteenths of the clock. A HOLD pattern keeps the edge
generator's phase at the instant it is applied (R166). -/
def State.pinsAt (s : State) (n : Fin 12) (k : Fin 8) (now : Nat) : State :=
  let line := s.pinLine n k
  let p := s.pw n k
  let s1 := s.setF (R.PWM_TRIP_STAT n k) F.PWM_TRIP_STAT_PINS (if s.mode == mdHil then 0 else line)
  let s2 := if line != p.line then
      s1.setPw n k { p with line := line, holdB := s.isSet (R.PWM_STAT n k) F.PWM_STAT_PHASE_B }
    else s1
  s2.drive n k line now

/-- The pins of a channel at the start of this cycle. -/
def State.pins (s : State) (n : Fin 12) (k : Fin 8) : State := s.pinsAt n k (16 * s.clock)

/-- The pins of every channel of a slice. -/
def State.pinsSlice (s : State) (n : Fin 12) : State := (List.finRange 8).foldl (fun (s : State) (k : Fin 8) => s.pins n k) s

/-- The pins of every channel. -/
def State.pinsAll (s : State) : State := (List.finRange 12).foldl (fun (s : State) (n : Fin 12) => s.pinsSlice n) s

/-! Phase changes (R151 to R155). -/

/-- Edge-generator outputs at instant `now`, and the pins after them. -/
def State.setOuts (s : State) (n : Fin 12) (k : Fin 8) (a b : Bool) (now : Nat) : State :=
  ((s.setB (R.PWM_STAT n k) F.PWM_STAT_OUT_A a).setB (R.PWM_STAT n k) F.PWM_STAT_OUT_B b).pinsAt n k now

/-- Length in fine steps of the phase being entered (R155). -/
def State.phaseLen (s : State) (n k : Nat) (toB : Bool) : Int :=
  let per := s.actPer n k
  let c := s.actCmp n k
  let p := s.presc n k
  if p == 1 then (if toB then 32 * (per : Int) - 2 * c else 2 * c)
  else (if toB then 32 * (p : Int) * ((per : Int) - (c / 16 : Nat)) else 32 * (p : Int) * (c / 16 : Nat))

/-- The target phase can be A, or B, in the current carrier period (R152). -/
def State.cmpZero (s : State) (n k : Nat) : Bool :=
  s.actCmp n k == 0 || (s.presc n k != 1 && s.actCmp n k / 16 == 0)

/-- Position of the edge of the rising, or falling, half, in sixteenths of a count from the valley (R151). -/
def State.edgePos (s : State) (n k : Nat) (fall : Bool) : Nat :=
  let c := if s.presc n k == 1 then s.actCmp n k else s.actCmp n k / 16 * 16
  if fall then 32 * s.actPer n k - c else c

/-- The target phase is A at a counter position, in sixteenths of a count, of a half (R151, R152): before the edge of the
rising half, and from the edge of the falling half on. -/
def State.targetA (s : State) (n : Fin 12) (k : Fin 8) (u : Nat) (fall : Bool) : Bool :=
  if s.actCmp n k == cmpFull then true
  else if s.cmpZero n k then false
  else if fall then decide (s.edgePos n k true ≤ u) else decide (u < s.edgePos n k false)

/-- Sixteenths of the present cycle at which the edge of the current half falls, 0 where it lies in another cycle (R151). -/
def State.edgeFine (s : State) (n : Fin 12) (k : Fin 8) : Nat :=
  let e := s.edgePos n k (s.falling n k)
  if s.presc n k == 1 && s.actCmp n k != cmpFull && e / 16 == s.pwmPos n k then e % 16 else 0

/-- The target is the phase that the current half changes to, by the end of the present cycle and before a committed value that
the cycle activates acts (R153, R160). -/
def State.changeCome (s : State) (n : Fin 12) (k : Fin 8) : Bool :=
  let fall := s.falling n k
  (s.pw n k).staged.all (fun v => decide (16 * s.clock + s.edgeFine n k < v.1)) &&
    (if s.actCmp n k == cmpFull then fall
    else if s.cmpZero n k then !fall
    else decide (s.edgePos n k fall < 16 * (s.pwmPos n k + 1)))

/-- The advance of a correction has passed the edge of the rising half: it lies after the cycle of the valley, and before the
position that the counter takes in the next one (R163). A value without edges passes none (R152). -/
def State.edgePassed (s : State) (n : Fin 12) (k : Fin 8) : Bool :=
  let p := s.pw n k
  let e := s.edgePos n k false
  !s.falling n k && decide (p.turn < p.base) && s.actCmp n k != cmpFull && !s.cmpZero n k && decide (16 ≤ e) &&
    decide (e < 16 * p.pos)

/-- Make the current half's change, or swallow it (R153 to R155); `late`: the instant of a change made late (R160, R163). A
change to 0 or FULL, which have no opposite edge, enters a phase without end and is never swallowed (R152, log 183), and a late
change that is swallowed sets LATE_EDGE_F too (log 184). -/
def State.changePhase (s : State) (n : Fin 12) (k : Fin 8) (late : Option Nat) : State :=
  let st := R.PWM_STAT n k
  let toB := !s.falling n k
  let s1 := s.setF st F.PWM_STAT_HALF_USED 1
  let s2 := if late.isSome then s1.setF st F.PWM_STAT_LATE_EDGE_F 1 else s1
  let ev : Fin 4 := if toB then 2 else 3
  let swallowed := s.actCmp n k != cmpFull && !s.cmpZero n k && decide (s.phaseLen n k toB ≤ (s.actDt n k : Int))
  if swallowed then
    ((s2.setF st F.PWM_STAT_SWALLOW_F 1).count (R.PWM_SWALLOW n k)
      (if toB then F.PWM_SWALLOW_B else F.PWM_SWALLOW_A)).pwmEvent n k ev
  else
    let p := s2.pw n k
    let s3 := s2.setB st F.PWM_STAT_PHASE_B toB
    let now := late.getD (16 * s.clock + s.edgeFine n k)
    let offA := if toB then now else p.eoffA
    let offB := if toB then p.eoffB else now
    let wait := s.actDt n k != 0
    let s4 := s3.setPw n k { p with dt := wait, eoffA := offA, eoffB := offB }
    let s5 := s4.setB st F.PWM_STAT_DT_ACTIVE wait
    (s5.setOuts n k (!wait && !toB) (!wait && toB) now).pwmEvent n k ev

/-- The half still owes its single change, and the pair is in the phase it changes from (R153). -/
def State.changeOpen (s : State) (n k : Nat) : Bool :=
  let st := R.PWM_STAT n k
  s.pwmRuns n k && !s.isSet st F.PWM_STAT_HALF_USED && (s.isSet st F.PWM_STAT_PHASE_B == s.falling n k)

/-- PHASE_CHANGE: the edge instant of the current half, which the counter has reached (R151, R153). -/
def State.phaseChange (s : State) (n : Fin 12) (k : Fin 8) : State :=
  if s.changeOpen n k && s.changeCome n k then
    s.changePhase n k (if s.edgePassed n k then some (16 * s.clock) else none)
  else s

/-- The incoming output turns on at the end of the dead time, DT sixteenths after the outgoing one turned off (R154). A DT
loaded while the dead time runs measures it (log 185). -/
def State.deadTimeEnd (s : State) (n : Fin 12) (k : Fin 8) : State :=
  let p := s.pw n k
  let b := s.isSet (R.PWM_STAT n k) F.PWM_STAT_PHASE_B
  let t := (if b then p.eoffA else p.eoffB) + s.actDt n k
  if !p.dt || decide (16 * (s.clock + 1) ≤ t) then s
  else ((s.setPw n k { p with dt := false }).setF (R.PWM_STAT n k) F.PWM_STAT_DT_ACTIVE 0).setOuts n k (!b) b (max t (16 * s.clock))

/-- TRIP_STAGE_TURN_ON: a pending turn-on is made in the cycle in which the dead time after the other pin's turn-off has
passed, and not before (R167). -/
def State.stageTurnOn (s : State) (n : Fin 12) (k : Fin 8) : State := s.drive n k (s.pw n k).line (16 * s.clock + 15)

/-! Trip requests and their latch. -/

/-- The enabled sources that request a trip in the channel, laid out as PWM_TRIP_EN (R168). -/
def State.tripReq (s : State) (n : Fin 12) (k : Fin 8) : Word :=
  let en := s.reg (R.PWM_TRIP_EN n k)
  let ctl := s.ctl.get n
  let g := (List.finRange 12).foldl (fun (w : Word) (i : Fin 12) =>
    setBitW w i.val (s.isSet (R.GRG_WSTAT n i) F.GRG_WSTAT_TRIP_REQ)) (0 : Word)
  let t := (List.finRange 4).foldl (fun (w : Word) (i : Fin 4) =>
    setBitW w (12 + i.val) (s.isSet (R.SLC_TRIPIN n i) F.SLC_TRIPIN_LEVEL)) g
  let l := setBitW t 16 ctl.diverged
  let m := setBitW l 17 ctl.mcheck
  let w := setBitW m 18 (s.isSet (R.WDG_STAT n) F.WDG_STAT_EXPIRED)
  let h := setBitW w 20 s.twinHo
  h &&& (if s.mode == mdTwin then en ||| 0x00100000 else en &&& ~~~ 0x00100000)

/-- Lowest bit set, of the first 21. -/
def lowestBit (w : Word) : Nat := ((List.range 21).find? (fun i => w.getLsbD i)).getD 0

/-- Latch the requests of `req` in the channel (R170, R171). -/
def State.latchTrip (s : State) (n : Fin 12) (k : Fin 8) (req : Word) : State :=
  let st := R.PWM_TRIP_STAT n k
  let src := R.PWM_TRIP_SRC n k
  if req == 0 || !s.fitted n then s
  else if s.isSet st F.PWM_TRIP_STAT_TRIPPED then s.setReg src (s.reg src ||| req)
  else
    let s1 := (s.setF st F.PWM_TRIP_STAT_TRIPPED 1).setF st F.PWM_TRIP_STAT_REARM_PEND 0
    let s2 := s1.setF st F.PWM_TRIP_STAT_FIRST_SRC (lowestBit req)
    let s3 := (s2.setReg src req).setReg (R.PWM_TRIP_TIME n k) s.mtimeLo
    let s4 := s3.count (R.PWM_TRIP_CNT n k) F.PWM_TRIP_CNT_VALUE
    (s4.fireLocal n 23).pins n k

/-- TRIP_LATCH: the channel latches what its enabled sources request. -/
def State.tripLatch (s : State) (n : Fin 12) (k : Fin 8) : State := s.latchTrip n k (s.tripReq n k)

/-- At its first valley after arming, or after an accepted clear, the channel leaves its waiting line (R32, R171); a
request that stands at that valley latches again (R173), and a valley in the cycle of the clear itself does not re-arm. -/
def State.rearm (s : State) (n : Fin 12) (k : Fin 8) : State :=
  let p := s.pw n k
  let s1 := s.setPw n k { p with armWait := false }
  if s1.isSet (R.PWM_TRIP_STAT n k) F.PWM_TRIP_STAT_REARM_PEND && s1.tripReq n k != 0 then
    (s1.latchTrip n k (s1.tripReq n k)).pins n k
  else if p.clearAt == some s.clock then s1.pins n k
  else (s1.setF (R.PWM_TRIP_STAT n k) F.PWM_TRIP_STAT_REARM_PEND 0).pins n k

/-! Reload points, synchronisation and restarts. -/

/-- Load CMP and DT at a reload point of the mode (R158): `valley` tells which point. -/
def State.reload (s : State) (n k : Nat) (valley : Bool) : State :=
  let m := s.getF (R.PWM_CTRL n k) F.PWM_CTRL_RELOAD_MODE
  let cmp := m == 2 || (m == 0 && valley) || (m == 1 && !valley)
  let dt := cmp || m == 3
  let s1 := if valley then s.loadPer n k else s
  let s2 := if cmp then s1.loadCmp n k (s1.getF (R.PWM_CMP n k) F.PWM_CMP_VALUE)
    else if valley then s1.reclamp n k else s1
  if dt then s2.loadDt n k else s2

/-- The master of a LOCAL channel. -/
def State.syncMaster (s : State) (n : Fin 12) (k : Fin 8) : Fin 8 :=
  ⟨s.getF (R.PWM_CTRL n k) F.PWM_CTRL_SYNC_CH % 8, Nat.mod_lt _ (by decide)⟩

/-- The position D that SYNC_SRC demands, 0 under FREE (R162). -/
def State.position (s : State) (n : Fin 12) (k : Fin 8) : Nat :=
  let ph := s.getF (R.PWM_PHASE n k) F.PWM_PHASE_VALUE
  match s.getF (R.PWM_CTRL n k) F.PWM_CTRL_SYNC_SRC with
  | 1 => (s.pwmPos n (s.syncMaster n k) + ph) % (2 * s.actPer n k)
  | 2 => (s.mtime.toNat / s.presc n k + ph) % (2 * s.actPer n k)
  | _ => 0

/-- A condition of R162 is broken: PHASE ≥ 2·PER, or in LOCAL mode another PER or P in the master. -/
def State.syncBroken (s : State) (n : Fin 12) (k : Fin 8) : Bool :=
  let m := s.syncMaster n k
  decide (2 * s.actPer n k ≤ s.getF (R.PWM_PHASE n k) F.PWM_PHASE_VALUE) ||
    (s.getF (R.PWM_CTRL n k) F.PWM_CTRL_SYNC_SRC == 1 && !(s.actPer n m == s.actPer n k && s.presc n m == s.presc n k))

/-- SYNC_ERR_F of every channel of the slice that breaks R162 is set; it stays set while that lasts. -/
def State.syncCheck (s : State) (n : Fin 12) : State :=
  (List.finRange 8).foldl (fun (t : State) k =>
    if t.syncBroken n k then t.setF (R.PWM_STAT n k) F.PWM_STAT_SYNC_ERR_F 1 else t) s

/-- The demanded position to correct to, none under FREE or when a condition of R162 is broken. -/
def State.demand (s : State) (n : Fin 12) (k : Fin 8) : Option Nat :=
  if s.getF (R.PWM_CTRL n k) F.PWM_CTRL_SYNC_SRC == 0 || s.syncBroken n k then none else some (s.position n k)

/-- Correction at a valley (R163): the counter holds u in the cycle after the valley, or 0 for longer. Where a condition of R162
is broken, no d is computed, and SYNC_LOCKED and LAST_D stay as they were (log 187). -/
def State.syncCorrect (s : State) (n : Fin 12) (k : Fin 8) : State :=
  let st := R.PWM_STAT n k
  match s.demand n k with
  | none => s
  | some d0 =>
    let per := s.actPer n k
    let d : Int := if d0 ≤ per then (d0 : Int) else (d0 : Int) - 2 * per
    let cm := s.getF (R.PWM_CTRL n k) F.PWM_CTRL_CORR_MAX
    let s1 := s.setF (R.PWM_SYNCCORR n k) F.PWM_SYNCCORR_LAST_D (ofSigned 16 (clampI (-32767) 32767 d))
    if d == 0 then s1.setF st F.PWM_STAT_SYNC_LOCKED 1
    else
      let s2 := (s1.setF st F.PWM_STAT_SYNC_LOCKED 0).count (R.PWM_SYNCCORR n k) F.PWM_SYNCCORR_COUNT
      if d > 0 then
        let u := min d.toNat cm
        let s2' := s2.setPos n k u false
        if u == 0 then s2 else s2'.setPw n k { s2'.pw n k with base := s.clock + 1 }
      else
        let hold := min (-d).toNat cm * s.presc n k
        let p := s2.pw n k
        s2.setPw n k { p with base := p.base + hold }

/-- What happens at a valley, whatever brought the counter to 0 (R147, R158, R163, R171). -/
def State.valley (s : State) (n : Fin 12) (k : Fin 8) (correct : Bool) : State :=
  let s1 := s.setPos n k 0 false
  let s2 := s1.setF (R.PWM_STAT n k) F.PWM_STAT_HALF_USED 0
  let s3 := (s2.reload n k true).syncCheck n
  let s4 := if correct then s3.syncCorrect n k else s3
  let s5 := s4.rearm n k
  s5.pwmEvent n k 0

/-- The clock has brought the counter to the end of its half: of the falling half, or of the rising one (R147). -/
def State.atValley (s : State) (n : Fin 12) (k : Fin 8) : Bool :=
  s.pwmRuns n k && s.falling n k && decide (2 * s.actPer n k ≤ s.pwmGone n k)
def State.atPeriod (s : State) (n : Fin 12) (k : Fin 8) : Bool :=
  s.pwmRuns n k && !s.falling n k && decide (s.actPer n k ≤ s.pwmGone n k)

/-- PWM_VALLEY: the counter, on its falling half, reaches 0. -/
def State.pwmValley (s : State) (n : Fin 12) (k : Fin 8) : State :=
  if s.atValley n k then s.valley n k true else s

/-- PWM_PERIOD_POINT: the counter, on its rising half, reaches PER. -/
def State.pwmPeriod (s : State) (n : Fin 12) (k : Fin 8) : State :=
  if s.atPeriod n k then
    let s1 := s.setPos n k (s.actPer n k) true
    let s2 := s1.setF (R.PWM_STAT n k) F.PWM_STAT_HALF_USED 0
    (s2.reload n k false).pwmEvent n k 1
  else s

/-- IMMEDIATE_ACTIVATION: the oldest CMP write becomes active at its instant, with its late or held change (R160, R179). -/
def State.immediate (s : State) (n : Fin 12) (k : Fin 8) : State :=
  let p := s.pw n k
  match p.staged with
  | [] => s
  | (c, v) :: rest =>
  if 16 * (s.clock + 1) ≤ c then s
  else
    let s1 := (s.setPw n k { p with staged := rest }).loadCmp n k v
    let fall := s1.falling n k
    let tgtA := s1.targetA n k (16 * s1.pwmPos n k + (if s.presc n k == 1 then c - 16 * s.clock else 0)) fall
    if !s1.pwmRuns n k then s1
    else if s1.changeOpen n k && tgtA == fall then s1.changePhase n k (some (max c (16 * s.clock)))
    else if s1.isSet (R.PWM_STAT n k) F.PWM_STAT_HALF_USED && tgtA != fall then
      s1.setF (R.PWM_STAT n k) F.PWM_STAT_HELD_EDGE_F 1
    else s1

/-- COUNTER_RESTART: the cycle after the write that causes it (R164, R149). -/
def State.counterRestart (s : State) (n : Fin 12) (k : Fin 8) : State :=
  let p := s.pw n k
  if !p.restart then s
  else
    let st := R.PWM_STAT n k
    let s1 := s.loadPer n k
    let s2 := (s1.loadCmp n k (s1.getF (R.PWM_CMP n k) F.PWM_CMP_VALUE)).loadDt n k
    let s3 := s2.setPw n k { p with restart := false, fresh := false, occ := Vector.replicate 4 0 }
    let s4 := s3.syncCheck n
    let d := s4.position n k
    let per := s4.actPer n k
    let s5 := s4.setPos n k d (decide (per ≤ d))
    let s6 := s5.setF st F.PWM_STAT_HALF_USED 0
    let s7 := if p.fresh then
        let q := s6.pw n k
        (s6.setPw n k { q with dt := s6.actDt n k != 0, eoffA := 16 * s6.clock }).setF st F.PWM_STAT_PHASE_B 1
          |>.setB st F.PWM_STAT_DT_ACTIVE (s6.actDt n k != 0)
          |>.setOuts n k false (s6.actDt n k == 0) (16 * s6.clock)
      else s6
    let s8 := s7.setB st F.PWM_STAT_RUN (s7.pwmRuns n k)
    if d == 0 then ((s8.syncCorrect n k).rearm n k).pwmEvent n k 0
    else if d == per then s8.pwmEvent n k 1
    else s8

/-! Forced trips and clears. -/

/-- The CMD source for one cycle (R168): it latches where CMD is enabled. -/
def State.tripCmd (s : State) (n : Fin 12) (k : Fin 8) : State :=
  if s.isSet (R.PWM_TRIP_EN n k) F.PWM_TRIP_EN_CMD then s.latchTrip n k (s.tripReq n k ||| 0x00080000) else s

/-- A clear (R170, R171): a request that stands latches, and refuses it. One while the channel waits to re-arm is accepted again, and
one that finds no trip does nothing (log 217). -/
def State.tripClear (s : State) (n : Fin 12) (k : Fin 8) : State :=
  let st := R.PWM_TRIP_STAT n k
  let req := s.tripReq n k
  if !s.isSet st F.PWM_TRIP_STAT_TRIPPED && !s.isSet st F.PWM_TRIP_STAT_REARM_PEND then s
  else if req != 0 then
    ((s.latchTrip n k req).setF st F.PWM_TRIP_STAT_TRIP_CLEAR_REJ 1).count (R.PWM_TRIP_REJ n k) F.PWM_TRIP_REJ_VALUE
  else
    let s1 := s.setPw n k { s.pw n k with clearAt := some s.clock }
    (((s1.setF st F.PWM_TRIP_STAT_TRIPPED 0).setReg (R.PWM_TRIP_SRC n k) 0).setF st F.PWM_TRIP_STAT_REARM_PEND 1).pins n k

/-! Writes (R165, R168). -/

def State.pwmRefuse (s : State) (n k : Nat) : State := s.count (R.PWM_CFG_REJ n k) F.PWM_CFG_REJ_COUNT

/-- GRG_WSTAT[i].ARMED: window i is a trip source of at least one channel. -/
def State.showArmed (s : State) (n : Nat) : State :=
  (List.range 12).foldl (fun t i => t.setB (R.GRG_WSTAT n i) F.GRG_WSTAT_ARMED
    ((List.range 8).any (fun k => (s.reg (R.PWM_TRIP_EN n k)).getLsbD i))) s

/-- A write of PWM_TRIP_EN: a window bit from 0 to 1 is the arm request of R73. -/
def State.tripEnWrite (s : State) (n : Fin 12) (k : Fin 8) (v : Word) : State :=
  let a := R.PWM_TRIP_EN n k
  if hasOutside v 0x001FFFFF then s.pwmRefuse n k
  else
    let old := s.reg a
    let refused := (List.finRange 12).filter (fun (i : Fin 12) => v.getLsbD i && !old.getLsbD i &&
      s.winState n i == 0 && !s.isSet (R.GRG_WCFG n i) F.GRG_WCFG_ARM_UNSETTLED)
    let w := refused.foldl (fun (w : Word) (i : Fin 12) => setBitW w i.val false) (v &&& 0x000FFFFF)
    let s1 := refused.foldl (fun (t : State) (i : Fin 12) => (t.setF (R.GRG_WSTAT n i) F.GRG_WSTAT_ARM_REJ 1).count (R.GRG_ARM_REJ n)
      F.GRG_ARM_REJ_COUNT) s
    (s1.setReg a w).showArmed n

/-- A write of PWM_TRIP_CFG (R165, R166): one that makes HOLD the pattern of the line in force applies it now. -/
def State.tripCfgWrite (s : State) (n : Fin 12) (k : Fin 8) (v : Word) : State :=
  if s.slState n != slFenced || hasOutside v 0x00000133 then s.pwmRefuse n k
  else
    let s1 := s.setReg (R.PWM_TRIP_CFG n k) v
    let p := s.pw n k
    let s2 := if s.lineAct n k p.line != s1.lineAct n k p.line then
        s1.setPw n k { p with holdB := s.isSet (R.PWM_STAT n k) F.PWM_STAT_PHASE_B }
      else s1
    s2.pins n k

/-- A write of PWM_TRIP_CMD: FORCE and CLEAR. -/
def State.tripCmdWrite (s : State) (n : Fin 12) (k : Fin 8) (v : Word) : State :=
  if hasOutside v 0x00000003 then s.pwmRefuse n k
  else
    let force := F.PWM_TRIP_CMD_FORCE.get v == 1 && s.isSet (R.PWM_TRIP_EN n k) F.PWM_TRIP_EN_CMD
    let s1 := if force then s.tripCmd n k else s
    if F.PWM_TRIP_CMD_CLEAR.get v == 1 then
      (if force then (s1.setF (R.PWM_TRIP_STAT n k) F.PWM_TRIP_STAT_TRIP_CLEAR_REJ 1).count (R.PWM_TRIP_REJ n k)
        F.PWM_TRIP_REJ_VALUE else s1.tripClear n k)
    else s1

/-- In IMMEDIATE mode a value written to CMP waits for its activation, 2 tCK after its write completes (R160): at the end of the
present cycle, or half a cycle before it (R179). -/
def State.stageCmp (s : State) (n : Fin 12) (k : Fin 8) (v : Nat) (half : Bool) : State :=
  let p := s.pw n k
  if s.getF (R.PWM_CTRL n k) F.PWM_CTRL_RELOAD_MODE == 3 then
    s.setPw n k { p with staged := p.staged ++ [(16 * (s.clock + 3) - (if half then 8 else 0), v)] }
  else s

/-- A write of a PER, CMP or DT shadow (R159, R165). In IMMEDIATE mode a CMP write is staged for its activation. -/
def State.shadowWrite (s : State) (n : Fin 12) (k : Fin 8) (a : Nat) (v : Word) : State :=
  if a == R.PWM_PER n k then
    if hasOutside v 0x00FFFFFF || decide (v.toNat < 150) then s.pwmRefuse n k else s.setReg a v
  else if a == R.PWM_CMP n k then
    if hasOutside v 0x0FFFFFFF then s.pwmRefuse n k
    else (s.setReg a v).stageCmp n k v.toNat false
  else
    if hasOutside v 0x000FFFFF then s.pwmRefuse n k else s.setReg a v

/-- A write of PWM_CTRL (R149, R162, R164, R165). One that leaves IMMEDIATE mode drops the values that wait for their activation
(log 186). -/
def State.ctrlWrite (s : State) (n : Fin 12) (k : Fin 8) (v : Word) : State :=
  let a := R.PWM_CTRL n k
  let bad := hasOutside v 0x8FF7330F || decide (8 < F.PWM_CTRL_PRESC.get v) || F.PWM_CTRL_SYNC_SRC.get v == 3 ||
    (F.PWM_CTRL_SYNC_SRC.get v == 1 && F.PWM_CTRL_SYNC_CH.get v == k.val)
  if s.slState n != slFenced || bad then s.pwmRefuse n k
  else
    let was := s.isSet a F.PWM_CTRL_EN
    let en := F.PWM_CTRL_EN.get v == 1
    let chg := F.PWM_CTRL_PRESC.get v != s.getF a F.PWM_CTRL_PRESC ||
      F.PWM_CTRL_SYNC_SRC.get v != s.getF a F.PWM_CTRL_SYNC_SRC ||
      F.PWM_CTRL_SYNC_CH.get v != s.getF a F.PWM_CTRL_SYNC_CH
    let s1 := (s.setReg a v).syncCheck n
    let p := { s1.pw n k with staged := if F.PWM_CTRL_RELOAD_MODE.get v == 3 then (s1.pw n k).staged else [] }
    if en && !was then s1.setPw n k { p with restart := true, fresh := true }
    else if en && chg then s1.setPw n k { p with restart := true }
    else if was && !en then
      let s2 := (s1.setPw n k { p with restart := false, fresh := false, dt := false }).setPos n k 0 false
      let st := R.PWM_STAT n k
      let s3 := (((s2.setF st F.PWM_STAT_RUN 0).setF st F.PWM_STAT_PHASE_B 1).setF st F.PWM_STAT_DT_ACTIVE 0).setF st
        F.PWM_STAT_HALF_USED 0
      s3.setOuts n k false false (16 * s.clock)
    else s1.setPw n k p

/-- A write of PWM_PHASE: a change while EN = 1 restarts the counter (R164). A phase of 2·PER or more is taken, with SYNC_ERR_F
(R162, log 188). -/
def State.phaseWrite (s : State) (n : Fin 12) (k : Fin 8) (v : Word) : State :=
  let a := R.PWM_PHASE n k
  if s.slState n != slFenced || hasOutside v 0x01FFFFFF then s.pwmRefuse n k
  else
    let s1 := (s.setReg a v).syncCheck n
    if s.isSet (R.PWM_CTRL n k) F.PWM_CTRL_EN && s.reg a != v then
      s1.setPw n k { s1.pw n k with restart := true }
    else s1

/-- A write of PWM_EVCFG: the count of each field starts again (R156). -/
def State.evcfgWrite (s : State) (n : Fin 12) (k : Fin 8) (v : Word) : State :=
  if s.slState n != slFenced then s.pwmRefuse n k
  else (s.setReg (R.PWM_EVCFG n k) v).setPw n k { s.pw n k with occ := Vector.replicate 4 0 }

/-- A write of one of the channel's flags, W1C: one with a reserved bit is refused (R165, chapter 9). `m`: the bits that are none,
`f`: the flags. -/
def State.pwmFlags (s : State) (n : Fin 12) (k : Fin 8) (a : Nat) (m f v : Word) : State :=
  if hasOutside v m then s.pwmRefuse n k else s.setReg a (s.reg a &&& ~~~ (v &&& f))

/-- Any write of the block of channel k. -/
def State.pwmWrite (s : State) (n : Fin 12) (k : Fin 8) (a : Nat) (v : Word) : State :=
  match a - pwmBase n k with
  | 0x00 => s.ctrlWrite n k v
  | 0x04 => s.shadowWrite n k a v
  | 0x08 => s.shadowWrite n k a v
  | 0x0C => s.shadowWrite n k a v
  | 0x10 => s.phaseWrite n k v
  | 0x14 => s.evcfgWrite n k v
  | 0x28 => (s.pwmFlags n k a 0xFC0000FD 0xFC000000 v).syncCheck n
  | 0x80 => s.tripEnWrite n k v
  | 0x84 => s.tripCfgWrite n k v
  | 0x88 => s.tripCmdWrite n k v
  | 0x8C => s.pwmFlags n k a 0x80001F0F 0x80000000 v
  | _ => s

/-- The commit port's write of a CMP shadow (R103, R161). `coll`: another write to it falls in the same cycle and is
dropped. `half`: the commit ends at the half of this cycle (R179). The first commit after a takeover ends the channel's SAFE_PAT
of R401. -/
def State.commitCmp (s : State) (n : Fin 12) (k : Fin 8) (cmp : Nat) (coll half : Bool) : State :=
  let s1 := (s.setReg (R.PWM_CMP n k) (BitVec.ofNat 32 cmp)).stageCmp n k cmp half
  let s2 := if coll then (s1.setF (R.PWM_STAT n k) F.PWM_STAT_WRCOLL_F 1).count (R.PWM_WRCOLL n k) F.PWM_WRCOLL_COUNT
    else s1
  let c := s2.ctl.get n
  if c.recWait.get k then ({ s2 with ctl := s2.ctl.set n { c with recWait := c.recWait.set k false } }).pins n k else s2

/-- Reset of every channel of a slice (power-on, wake, STOP): the pins turn off. -/
def State.pwmReset (s : State) (n : Fin 12) : State :=
  { s.resetRegs (sliceBase n + 0x1000) (sliceBase n + 0x1800) with
    pwm := s.pwm.set n (Vector.replicate 8 resetPwm) }

/-! Trip inputs, capture and encoder (R169, R174, R175, R497). -/

def State.slcRefuse (s : State) (n : Nat) : State := s.count (R.SLC_CFG_REJ n) F.SLC_CFG_REJ_COUNT

/-- TRIP_INPUT_FILTER_PASS: the pin held a new level for the filter time (R169). -/
def State.tripPass (s : State) (n : Fin 12) (t : Fin 4) (pin : Bool) : State :=
  if !s.fitted n then s
  else
    let c := s.ctl.get n
    let a := R.SLC_TRIPIN n t
    let s1 := { s with ctl := s.ctl.set n { c with tripPin := c.tripPin.set t pin } }
    s1.setB a F.SLC_TRIPIN_LEVEL (pin == s.isSet a F.SLC_TRIPIN_POL)

/-- The requests of the trip inputs under the reset filter and polarity: each takes the level of its pin at once, and an
unwired pin reads low, which POL 0 reads as active (R169, R488; log 5). -/
def State.tripSample (s : State) (n : Fin 12) : State :=
  (List.finRange 4).foldl (fun (u : State) (t : Fin 4) => u.setB (R.SLC_TRIPIN n t) F.SLC_TRIPIN_LEVEL
    ((u.ctl.get n).tripPin.get t == u.isSet (R.SLC_TRIPIN n t) F.SLC_TRIPIN_POL)) s

/-- A write of SLC_TRIPIN[t] that names no pin level takes the level that last passed the filter (log 5): FILT and POL in FENCED only; a change makes the request take the pin level under the new
POL (R169, R497). -/
def State.tripinWrite (s : State) (n : Fin 12) (t : Fin 4) (v : Word) : State :=
  let a := R.SLC_TRIPIN n t
  let chg := F.SLC_TRIPIN_FILT.get v != s.getF a F.SLC_TRIPIN_FILT || F.SLC_TRIPIN_POL.get v != s.getF a F.SLC_TRIPIN_POL
  if (chg && s.slState n != slFenced) || hasOutside v 0x800001FF then s.slcRefuse n
  else if chg then
    let s1 := (s.setF a F.SLC_TRIPIN_FILT (F.SLC_TRIPIN_FILT.get v)).setF a F.SLC_TRIPIN_POL (F.SLC_TRIPIN_POL.get v)
    s1.setB a F.SLC_TRIPIN_LEVEL ((s.ctl.get n).tripPin.get t == (F.SLC_TRIPIN_POL.get v == 1))
  else s

/-- A write of SLC_TRIPIN[t], made in `old`, has changed FILT or POL: in the next cycle the request takes the level `pin` that is
sampled there, without a filter interval (R169). -/
def State.tripResample (s old : State) (n : Fin 12) (t : Fin 4) (pin : Bool) : State :=
  let a := R.SLC_TRIPIN n t
  let conf (u : State) : Nat × Nat := (u.getF a F.SLC_TRIPIN_FILT, u.getF a F.SLC_TRIPIN_POL)
  if conf s == conf old then s else s.tripPass n t pin

def State.setCap (s : State) (n : Fin 12) (c : Fin 4) (x : CapSt) : State :=
  (({ s with cap := s.cap.set n ((s.cap.get n).set c x) }).setF (R.SLC_CAPSTAT n c) F.SLC_CAPSTAT_LEVEL
    x.fifo.length).setReg (R.SLC_CAPTS n c) (x.fifo.headD 0)

/-- The input of capture channel c can go to level `l`: it stands at the other one, and a window's line does stand at `l`
(R70, R71). -/
def State.captureSees (s : State) (n : Fin 12) (c : Fin 4) (l : Bool) : Bool :=
  (s.capOf n c).level != l && (match s.capWin n c with | some i => s.winLine n i == l | none => true)

/-- The input of capture channel c goes to level `l`: the edge is recorded where EDGE selects it (R174). -/
def State.captureTo (s : State) (n : Fin 12) (c : Fin 4) (l : Bool) : State :=
  let e := s.getF (R.SLC_CAPCFG n c) F.SLC_CAPCFG_EDGE
  let y := s.capOf n c
  let pin := if (s.capWin n c).isSome then y.pin else l != s.isSet (R.SLC_CAPCFG n c) F.SLC_CAPCFG_POL
  let x := { y with level := l, pin := pin }
  if natBit e (if l then 0 else 1) then
    if x.fifo.length < 4 then (s.setCap n c { x with fifo := x.fifo ++ [s.mtimeLo] }).fireLocal n (68 + c.val)
    else (s.setCap n c x).count (R.SLC_CAPSTAT n c) F.SLC_CAPSTAT_OVF
  else s.setCap n c x

/-- One track of the encoder has changed: POS counts up where A leads B, so where A, changing, now differs from B, or B,
changing, now equals A (R175). -/
def State.trackStep (s : State) (n : Fin 12) (c : Fin 4) : State :=
  let pos := s.reg (R.SLC_ENC_POS n)
  let differ := (s.capOf n 0).level != (s.capOf n 1).level
  if !s.isSet (R.SLC_ENC n) F.SLC_ENC_EN || decide (1 < c.val) then s
  else s.setReg (R.SLC_ENC_POS n) (if differ == (c.val == 0) then pos + 1 else pos - 1)

/-- CAPTURE_EDGE: a filtered edge of what channel c is given, its pin, which POL may invert, or a window's line (R174). Inputs
0 and 1 are the encoder's tracks, and a rising edge of input 2 zeroes POS under IDX_EN (R175). -/
def State.captureEdge (s : State) (n : Fin 12) (c : Fin 4) (rise : Bool) : State :=
  let l := if (s.capWin n c).isSome then rise else rise != s.isSet (R.SLC_CAPCFG n c) F.SLC_CAPCFG_POL
  if !s.powered n || !s.captureSees n c l then s
  else
    let s1 := (s.captureTo n c l).trackStep n c
    if c.val == 2 && l && s.isSet (R.SLC_ENC n) F.SLC_ENC_IDX_EN then s1.setReg (R.SLC_ENC_POS n) 0 else s1

/-- CAPTURE_FIFO_READ: the oldest record is returned and removed (R174). -/
def State.captureRead (s : State) (n : Fin 12) (c : Fin 4) : State :=
  let x := s.capOf n c
  { s.setCap n c { x with fifo := x.fifo.drop 1 } with busOut := x.fifo.headD 0 }

/-- ENCODER_STEP: in one cycle the encoder's tracks go to levels `a` and `b`. A change of one counts ±1; a change of both
counts an error; their capture channels record what they select (R175). -/
def State.encoderStep (s : State) (n : Fin 12) (a b : Bool) : State :=
  let ca := s.captureSees n 0 a
  let cb := s.captureSees n 1 b
  if !s.powered n || !s.isSet (R.SLC_ENC n) F.SLC_ENC_EN then s
  else if ca && cb then ((s.captureTo n 0 a).captureTo n 1 b).count (R.SLC_ENC n) F.SLC_ENC_ENC_ERR
  else if ca then (s.captureTo n 0 a).trackStep n 0
  else if cb then (s.captureTo n 1 b).trackStep n 1
  else s

/-- A write of SLC_CAPCFG[c] (R497). -/
def State.capcfgWrite (s : State) (n : Fin 12) (c : Fin 4) (v : Word) : State :=
  let a := R.SLC_CAPCFG n c
  if (s.reg a != v && s.slState n != slFenced) || hasOutside v 0x000007FF then s.slcRefuse n
  else if (s.reg a).getLsbD 10 == v.getLsbD 10 then s.setReg a v
  else (s.setReg a v).capAim n c

/-- A write of SLC_ENC (R175, R497). -/
def State.encWrite (s : State) (n : Fin 12) (v : Word) : State :=
  let a := R.SLC_ENC n
  let chg := F.SLC_ENC_EN.get v != s.getF a F.SLC_ENC_EN || F.SLC_ENC_IDX_EN.get v != s.getF a F.SLC_ENC_IDX_EN
  if (chg && s.slState n != slFenced) || hasOutside v 0xFFFF0003 then s.slcRefuse n
  else (s.setF a F.SLC_ENC_EN (F.SLC_ENC_EN.get v)).setF a F.SLC_ENC_IDX_EN (F.SLC_ENC_IDX_EN.get v)

/-- SLC_TRIP: the CMD source of the chosen channels (R176). -/
def State.slcTrip (s : State) (n : Fin 12) (v : Word) : State :=
  (List.finRange 8).foldl (fun (s : State) (k : Fin 8) => if v.getLsbD k then s.tripCmd n k else s) s

end Machine
end Sys2Proof
end

