-- ==== Sys2Proof/Machine/Sar.lean ====
section
/-! DEFINITION. The SAR converters (chapter 05): triggers, bursts, holds, results, corrections, records, the HIL feeds,
and the writes of the SAR registers. The hand-off into the CLE is in Cle.lean. -/

namespace Sys2Proof
namespace Machine

def State.hilOf (s : State) (n i : Fin 12) : HilSt := (s.hil.get n).get i

def State.setHil (s : State) (n i : Fin 12) (x : HilSt) : State :=
  ({ s with hil := s.hil.set n ((s.hil.get n).set i x) }).setF (R.SAR_HIL n i) F.SAR_HIL_LEVEL x.feed.length

/-- Resolution in bits of entry e (R80). -/
def State.sarBits (s : State) (n k e : Nat) : Nat := 12 + 2 * s.getF (R.SAR_ENT n k e) F.SAR_ENT_RES

/-- Q15 value of a code (R85). -/
def formatCode (fmt b code : Nat) : Int :=
  if fmt == 0 then ((code * 2 ^ 15 / 2 ^ b : Nat) : Int)
  else ((code : Int) - 2 ^ (b - 1)) * 2 ^ (16 - b)

/-- The corrected result (R86). -/
def correct (x : Int) (cal : Word) : Int :=
  satS 16 ((x - q15lo cal) * (cal.toNat / 65536 : Nat) / 32768)

/-- A record is due at a hold instant (R94). -/
def due (hold : Word) (r : HilRec) : Bool := decide ((hold - r.validFrom).toNat < 2 ^ 31)

/-- Drop what stands up to and including the newest due record that entered before clock `now`; that record, if one is due
(R94, R185). -/
def takeDue (hold : Word) (now : Nat) : List HilRec → Option HilRec × List HilRec
  | [] => (none, [])
  | r :: t =>
    match takeDue hold now t with
    | (some q, u) => (some q, u)
    | (none, _) => if due hold r && decide (r.entered < now) then (some r, t) else (none, r :: t)

/-- SAR_HOLD: acquisition ends with the sampled code, and conversion starts (R79, R86); in HIL mode the value comes from
the input's feed, of the records that had entered it when this cycle started (R94, R185). RES and FMT are taken here
(log 156). -/
def State.sarHold (s : State) (n : Fin 12) (k : Fin 4) (code : BitVec 16) : State :=
  match (s.sr n k).phase with
  | .acq e i =>
    let hold := s.mtimeLo
    if s.mode == mdHil then
      let ii : Fin 12 := ⟨i % 12, Nat.mod_lt _ (by decide)⟩
      let h := s.hilOf n ii
      match takeDue hold s.clock h.feed with
      | (some r, rest) =>
        (s.setHil n ii ⟨rest, r.value⟩).setSr n k { s.sr n k with phase := .conv e r.value.toInt true 0 hold }
      | (none, _) =>
        ((s.count (R.SAR_HIL n i) F.SAR_HIL_STALE).setF (R.SAR_STAT n k) F.SAR_STAT_HIL_STALE_F 1).setSr n k
          { s.sr n k with phase := .conv e h.last.toInt true 0 hold }
    else
      let b := s.sarBits n k e
      let x := formatCode (s.getF (R.SAR_ENT n k e) F.SAR_ENT_FMT) b (code.toNat % 2 ^ b)
      s.setSr n k { s.sr n k with phase := .conv e x false (s.reg (R.SAR_CAL n i)) hold }
  | _ => s

/-- SAR_RESULT_READY: the next entry or a pending burst starts its acquisition (R79, R81, R83); the last result of a
burst fires SAR_DONE (R304). LEN is taken here (log 156). A burst, and a trigger that waits, go on when the slice enters
RECOVERING or SAFE, and their results are withheld (log 157). -/
def State.sarReady (s : State) (n : Fin 12) (k : Fin 4) : State :=
  match (s.sr n k).phase with
  | .conv e x raw cal time =>
    let y := if raw then x else correct x cal
    let q := s.sr n k
    let r : SarRes := ⟨e, x, y, time⟩
    let st := R.SAR_STAT n k
    if e + 1 < s.sarLen n k then s.setSr n k { q with phase := .acq (e + 1) (s.sarInput n k (e + 1)), results := q.results ++ [r] }
    else
      let s1 := s.fireLocal n (12 + k.val)
      if s.isSet st F.SAR_STAT_PEND then
        (s1.setSr n k { q with phase := .acq 0 (s.sarInput n k 0), results := q.results ++ [r] }).setF st F.SAR_STAT_PEND 0
      else (s1.setSr n k { q with phase := .idle, endAt := some s.clock, results := q.results ++ [r] }).setF st F.SAR_STAT_BUSY 0
  | _ => s

/-- Queue the record of a result for slice memory, or drop it on a full queue (R89). -/
def State.sarQueue (s : State) (n : Fin 12) (k : Fin 4) (r : SarRes) : State :=
  let q := s.sr n k
  if q.queue.length < 4 then
    s.setSr n k { q with queue := q.queue ++ [⟨⟨r.time, tagTime⟩, ⟨pack16 r.y r.x, tagFrac2⟩⟩] }
  else (s.count (R.SAR_OVR n k) F.SAR_OVR_MEM).sarFlag n k F.SAR_STAT_MEM_OVR_F

/-! Writes (R80, R82, R88, R91, R92). -/

def State.sarRefuse (s : State) (n : Nat) : State := s.count (R.SAR_CFG_REJ n) F.SAR_CFG_REJ_COUNT

/-- A router source that a SAR or CLE trigger of slice n accepts (R82). -/
def trigSrcOk (n src : Nat) : Bool := decide (src < 64) || (decide (localSrc n 0 ≤ src) && decide (src ≤ localSrc n 71))

/-- Another entry of the slice names loop `l` (R88). -/
def State.loopNamed (s : State) (n k e l : Nat) : Bool :=
  (List.range 4).any (fun k' => (List.range 3).any (fun e' =>
    !(k' == k && e' == e) &&
    (let d := s.getF (R.SAR_ENT n k' e') F.SAR_ENT_DEST
     (d == 1 || d == 3) && s.getF (R.SAR_ENT n k' e') F.SAR_ENT_LOOP == l)))

def State.sarTrigWrite (s : State) (n : Fin 12) (k : Nat) (v : Word) : State :=
  let src := F.SAR_TRIG_SRC.get v
  if s.slState n != slFenced || decide (3 < src) || (src == 3 && !trigSrcOk n (F.SAR_TRIG_EVR_SRC.get v)) then s.sarRefuse n
  else s.setReg (R.SAR_TRIG n k) (v &&& 0xC3FF0737)

def State.sarPpWrite (s : State) (n : Fin 12) (k : Nat) (v : Word) : State :=
  if s.slState n != slFenced || F.SAR_PP_DIR.get v == 3 then s.sarRefuse n
  else s.setReg (R.SAR_PP n k) (v &&& 0xF8FFFFFF)

/-- The buffer ends at the start of the dual-port region at the latest (R91). A refused write leaves INDEX as it is
(log 158). -/
def State.sarMbufWrite (s : State) (n : Fin 12) (k : Nat) (v : Word) : State :=
  let l := F.SAR_MBUF_LOG2LEN.get v
  if s.slState n != slFenced || decide (l < 4) || decide (12 < l) ||
      decide (0x7C000 < 8 * F.SAR_MBUF_BASE.get v + 8 * 2 ^ l) then s.sarRefuse n
  else (s.setReg (R.SAR_MBUF n k) (v &&& 0xF007FFF8)).setF (R.SAR_MIDX n k) F.SAR_MIDX_INDEX 0

def State.sarEntWrite (s : State) (n : Fin 12) (k e : Nat) (v : Word) : State :=
  let acq := F.SAR_ENT_ACQ.get v
  let d := F.SAR_ENT_DEST.get v
  if s.slState n != slFenced || F.SAR_ENT_RES.get v == 3 || decide (acq < 12) ||
      decide (600 < acq) || decide (3 < d) || decide (1 < F.SAR_ENT_FMT.get v) || F.SAR_ENT_POS.get v == 3 ||
      ((d == 1 || d == 3) && s.loopNamed n k e (F.SAR_ENT_LOOP.get v)) then s.sarRefuse n
  else s.setReg (R.SAR_ENT n k e) (v &&& 0xFFFFFC03)

/-- SELFCAL: accepted in FENCED (R92). -/
def State.selfcal (s : State) (n : Fin 12) (v : Word) : State :=
  if F.SAR_CTRL_SELFCAL.get v == 0 then s
  else if s.slState n == slFenced then s.setF (R.SAR_CTRL n) F.SAR_CTRL_SELFCAL 1
  else s.sarRefuse n

/-- SELFCAL_COMPLETE: the run ends; converters in `failed` keep their trims and set CAL_FAIL, which a later run that passes
leaves set, as only a write of 1 clears it (R92, log 159). -/
def State.selfcalEnd (s : State) (n : Fin 12) (failed : BitVec 4) : State :=
  if !s.isSet (R.SAR_CTRL n) F.SAR_CTRL_SELFCAL then s
  else
    (List.finRange 4).foldl (fun (s : State) (k : Fin 4) =>
      if failed.getLsbD k then s.setF (R.SAR_STAT n k) F.SAR_STAT_CAL_FAIL 1 else s)
      (s.setF (R.SAR_CTRL n) F.SAR_CTRL_SELFCAL 0)

/-- SAR_PHASE: the cycle in which the counter of the converter's channel takes COUNT, moving in direction DIR (R82): the
first cycle of that count, and at the turns whatever DIR is. -/
def State.atPhasePoint (s : State) (n : Fin 12) (k : Fin 4) : Bool :=
  let a := R.SAR_PP n k
  let c : Fin 8 := ⟨s.getF a F.SAR_PP_CH % 8, Nat.mod_lt _ (by decide)⟩
  let p := s.pw n c
  let u := s.pwmPos n c
  let per := s.actPer n c
  let cnt := s.getF a F.SAR_PP_COUNT
  let dir := s.getF a F.SAR_PP_DIR
  let first := if u == p.pos then (if u == 0 then s.clock == p.turn else s.clock == p.base)
    else (s.clock - p.base) % s.presc n c == 0
  s.pwmRuns n c && foldPos per u == cnt && first &&
    (cnt == 0 || cnt == per || dir == 2 || (dir == 1) == s.falling n c)

/-- SAR_TRIGGER: a hardware trigger of its own cycle, the phase point, with `extra` other triggers of that cycle. The
triggers of a PWM event and of a router source come with the event's firing and its tap (R82, R157, R313). -/
def State.sarPhase (s : State) (n : Fin 12) (k : Fin 4) (extra : Nat) : State :=
  if s.getF (R.SAR_TRIG n k) F.SAR_TRIG_SRC == 2 && s.atPhasePoint n k then s.sarTrig n k false extra else s

/-- SAR_SWTRIG: a software trigger (R82). -/
def State.sarSw (s : State) (n : Fin 12) (k : Fin 4) (v : Word) : State :=
  if F.SAR_SWTRIG_TRIG.get v == 1 then s.sarTrig n k true 0 else s

/-- Any write of the SAR block of slice n. -/
def State.sarWrite (s : State) (n : Fin 12) (a : Nat) (v : Word) : State :=
  let o := a - (sliceBase n + 0x2000)
  if o == 0 then s.selfcal n v
  else if h : 0x100 ≤ o ∧ o < 0x200 then
    let k : Fin 4 := ⟨(o - 0x100) / 0x40, by omega⟩
    match (o - 0x100) % 0x40 with
    | 0x00 => s.sarTrigWrite n k v
    | 0x04 => s.sarPpWrite n k v
    | 0x08 => s.sarMbufWrite n k v
    | 0x10 => s.sarEntWrite n k 0 v
    | 0x14 => s.sarEntWrite n k 1 v
    | 0x18 => s.sarEntWrite n k 2 v
    | 0x1C => s.sarSw n k v
    | 0x20 => s.setReg a (s.reg a &&& ~~~ (v &&& 0x00000078))
    | _ => s
  else if 0x200 ≤ o ∧ o < 0x260 ∧ o % 8 = 0 then s.setReg a v
  else s

/-- Reset of the converters of a slice (power-on, wake, STOP); in HIL mode the value last used of each input becomes 0
(log 160). -/
def State.sarReset (s : State) (n : Fin 12) : State :=
  { s.resetRegs (sliceBase n + 0x2000) (sliceBase n + 0x3000) with
    sar := s.sar.set n (Vector.replicate 4 resetSar), hil := s.hil.set n (Vector.replicate 12 ⟨[], 0⟩) }

/-- Empty every HIL feed; on entry into HIL the value last used becomes 0 (R94). -/
def State.hilClear (s : State) (enter : Bool) : State :=
  (List.finRange 12).foldl (fun (s : State) (n : Fin 12) => (List.finRange 12).foldl (fun (s : State) (i : Fin 12) =>
    s.setHil n i ⟨[], if enter then 0 else (s.hilOf n i).last⟩) s) s

end Machine
end Sys2Proof
end

