-- ==== Sys2Proof/Machine/Passway.lean ====
section
/-! DEFINITION. Passway and the train layer (chapter 22): frames, membership, group time, group-wide steps, exported and
imported events, train time, and the writes of the PWY registers. -/

namespace Sys2Proof
namespace Machine

/-- Ports fitted (R366). -/
def State.portFitted (s : State) (p : Nat) : Bool :=
  match s.part with
  | .esk7208 => p == 0 || p == 2
  | _ => decide (p < 4)

def State.pwyEn (s : State) : Bool := s.isSet R.PWY_CFG F.PWY_CFG_EN
def State.pwyGroup (s : State) : Nat := s.getF R.PWY_ID F.PWY_ID_GROUP
def State.pwyPos (s : State) : Nat := s.getF R.PWY_ID F.PWY_ID_POS
def State.pwyLocked (s : State) : Bool := s.isSet R.PWY_STAT F.PWY_STAT_LOCKED
def State.pwyMaster (s : State) : Bool := s.isSet R.PWY_STAT F.PWY_STAT_MASTER

/-- Port p has a link. -/
def State.portUp (s : State) (p : Nat) : Bool := natBit (s.getF R.PWY_STAT F.PWY_STAT_PORT_UP) p

/-- The group port p carries group traffic: it has a link that does not lead out of the group (R371). -/
def State.groupPort (s : State) (p : Fin 2) : Bool := s.pwyEn && s.portUp p && !s.pwy.boundary.get p

/-- The other group port. -/
def otherPort (p : Fin 2) : Fin 2 := if p.val == 0 then 1 else 0

/-- TT_CAPABLE: the PTP client is enabled and an ECN link is up (R372). -/
def State.ttCapable (s : State) : Bool :=
  s.isSet R.PWY_CFG F.PWY_CFG_TT_EN && (s.pwy.ecn.get 0 || s.pwy.ecn.get 1)

/-- Any slice is armed. -/
def State.anyArmed (s : State) : Bool := s.getF R.DEV_ARM F.DEV_ARM_ARM != 0

/-- What the module reports of itself (R368). -/
def State.ownTopo (s : State) : PwyTopo :=
  ⟨⟨s.pwyGroup % 64, Nat.mod_lt _ (by decide)⟩, ⟨s.pwyPos % 32, Nat.mod_lt _ (by decide)⟩,
    ⟨s.getF R.PWY_CFG F.PWY_CFG_TM_PRIO % 16, Nat.mod_lt _ (by decide)⟩, s.ttCapable, s.anyArmed,
    BitVec.ofNat 4 (b2n (s.groupPort 0) + 2 * b2n (s.groupPort 1) + 4 * (s.getF R.PWY_STAT F.PWY_STAT_PORT_UP / 4)), BitVec.ofNat 8 (s.getF R.PWY_GSTAT F.PWY_GSTAT_GEPOCH)⟩

/-- The module belongs to its group: its ports run and its position is its own (R371). -/
def State.inGroup (s : State) : Bool := s.pwyEn && !s.pwy.dup

/-- The members with what they report, the module itself among them. -/
def State.memberTopos (s : State) : List PwyTopo :=
  if s.inGroup then
    (List.finRange 32).filterMap (fun (k : Fin 32) =>
      if k.val == s.pwyPos then some s.ownTopo else (s.pwy.members.get k).map (·.1))
  else []

/-- Order of R372: TT_CAPABLE first, then lowest TM_PRIO, then lowest POS. -/
def beats (a b : PwyTopo) : Bool :=
  if a.ttCapable != b.ttCapable then a.ttCapable
  else if a.prio != b.prio then decide (a.prio < b.prio)
  else decide (a.pos < b.pos)

/-- The elected time master (R372). -/
def State.elected (s : State) : Option PwyTopo :=
  (s.memberTopos.filter (fun t => t.prio.val != 15)).foldl (fun b t => match b with
    | none => some t
    | some u => if beats t u then some t else some u) none

/-- LOCKED falls: the flag, source 961, and the epoch of every export slot (R372, R377). -/
def State.lockLost (s : State) : State :=
  if s.pwyLocked then
    let s1 := (s.setF R.PWY_STAT F.PWY_STAT_LOCKED 0).setF R.PWY_STAT F.PWY_STAT_LOCK_LOST_F 1
    let s2 := (List.range 32).foldl (fun (t : State) i => t.countWrap (R.PWY_EXP i) F.PWY_EXP_EPOCH) s1
    let s3 := { s2 with pwy := { s2.pwy with steady := 0, step := none } }
    (s3.staleTarget 3 (fun _ => true)).fire 961
  else s

/-- PWY_TT_OFS, signed (R379). -/
def State.ttOfs (s : State) : Int :=
  toSigned 64 ((s.reg R.PWY_TT_OFS_LO).toNat + 2 ^ 32 * (s.reg R.PWY_TT_OFS_HI).toNat)

/-- STEPPING: steps run on a time master while PWY_TT_OFS is not 0 (R380). -/
def State.stepsShown (s : State) : State := s.setB R.PWY_TT_STAT F.PWY_TT_STAT_STEPPING (s.ttOfs != 0 && s.pwyMaster)

/-- Set PWY_TT_OFS, with TT_ALIGNED, which follows it (R380). -/
def State.setTtOfs (s : State) (x : Int) : State :=
  let w := BitVec.ofInt 64 x
  (((s.setReg R.PWY_TT_OFS_LO (w.setWidth 32)).setReg R.PWY_TT_OFS_HI ((w >>> 32).setWidth 32)).setB R.PWY_TT_STAT
    F.PWY_TT_STAT_TT_ALIGNED (w == 0)).stepsShown

/-- Elect the master and find the upstream port, which is the port on which the master's first copies arrive (R372). The time of a
master that has members is group time: it is LOCKED (log 208). -/
def State.elect (s : State) : State :=
  match s.elected with
  | none =>
    (((s.setF R.PWY_STAT F.PWY_STAT_MASTER 0).setF (R.PWY_PORT 0) F.PWY_PORT_UPSTREAM 0).setF (R.PWY_PORT 1)
      F.PWY_PORT_UPSTREAM 0).stepsShown
  | some m =>
    let own := m.pos.val == s.pwyPos
    let up := if own then none else (s.pwy.members.get m.pos).map (·.2)
    let s1 := (s.setB R.PWY_STAT F.PWY_STAT_MASTER own).setF R.PWY_GSTAT F.PWY_GSTAT_MASTER_POS m.pos.val
    let s2 := (s1.setB (R.PWY_PORT 0) F.PWY_PORT_UPSTREAM (up == some 0)).setB (R.PWY_PORT 1) F.PWY_PORT_UPSTREAM
      (up == some 1)
    (if own && decide (1 < s.memberTopos.length) then s2.setF R.PWY_STAT F.PWY_STAT_LOCKED 1 else s2).stepsShown

/-- TOPO of the group: 0 ALONE, 1 LINE, 2 RING. A ring has both group ports of every member linked within the group (R371). -/
def State.topoOf (s : State) : Nat :=
  let m := s.memberTopos
  if m.length ≤ 1 then 0
  else if m.all (fun t => t.ports.getLsbD 0 && t.ports.getLsbD 1) && s.groupPort 0 && s.groupPort 1 then 2
  else 1

/-- A module that was ALONE finds a group with another master: its time is not the group's, and it is to lock to it (R374,
log 208). -/
def State.meets (s : State) : State :=
  match s.elected with
  | some m => if m.pos.val == s.pwyPos then s else s.lockLost
  | none => s

/-- Show the membership: the bitmap and its count, GEPOCH, GRP_CHG and TOPO_CHG (R371, R381), and a new election. -/
def State.showGroup (s : State) : State :=
  let m := s.memberTopos
  let map := m.foldl (fun w t => setBitW w t.pos.val true) (0 : Word)
  let s1 := if map != s.reg R.PWY_MEMBERS then
      ((((s.setReg R.PWY_MEMBERS map).setF R.PWY_GSTAT F.PWY_GSTAT_MEMBERS m.length).countWrap R.PWY_GSTAT
        F.PWY_GSTAT_GEPOCH).setF R.PWY_STAT F.PWY_STAT_GRP_CHG_F 1).fire 960
    else s
  let t := s1.topoOf
  let was := s1.getF R.PWY_STAT F.PWY_STAT_TOPO
  let s2 := if t != was then (s1.setF R.PWY_STAT F.PWY_STAT_TOPO t).fire 962 else s1
  let s3 := if was == 0 && t != 0 then { s2 with pwy := { s2.pwy with joined := s2.clock } }.meets else s2
  s3.elect

/-- A frame of (position, sequence) has been accepted before; a sequence number is remembered for 128 frames of its
position (R369, log 20). -/
def State.seenBefore (s : State) (pos : Fin 32) (seq : BitVec 8) : Bool := (s.pwy.seen.get pos).contains seq.toNat

/-- Remember an accepted frame. -/
def State.remember (s : State) (pos : Fin 32) (seq : BitVec 8) : State :=
  { s with pwy := { s.pwy with seen := s.pwy.seen.set pos ((seq.toNat :: s.pwy.seen.get pos).take 128) } }

/-- Forward a group-wide frame on the other port (R369). -/
def State.forward (s : State) (p : Fin 2) (fr : PwyFrame) : State :=
  if s.groupPort (otherPort p) then s.sendFrame (otherPort p).castSucc.castSucc fr else s

/-- The module's position. -/
def State.ownPos (s : State) : Fin 32 := ⟨s.pwyPos % 32, Nat.mod_lt _ (by decide)⟩

/-- The sequence number of the frame that the module originates next, and the state after it (R367). -/
def State.takeSeq (s : State) : State × BitVec 8 :=
  ({ s with pwy := { s.pwy with seq := (s.pwy.seq + 1) % 256 } }, BitVec.ofNat 8 s.pwy.seq)

/-- Originate a group-wide frame on both group ports (R369). -/
def State.originate (s : State) (fr : BitVec 8 → PwyFrame) : State :=
  let (t, q) := s.takeSeq
  let s1 := t.remember s.ownPos q
  let s2 := if s1.groupPort 0 then s1.sendFrame 0 (fr q) else s1
  if s2.groupPort 1 then s2.sendFrame 1 (fr q) else s2

/-- Originate a frame for one link. -/
def State.sendOwn (s : State) (p : Fin 2) (fr : BitVec 8 → PwyFrame) : State :=
  let (t, q) := s.takeSeq
  t.sendFrame p.castSucc.castSucc (fr q)

/-! Frames received. -/

/-- FRAME_DISCARD (R367). -/
def State.frameDiscard (s : State) : State := (s.count R.PWY_CRC_ERR F.PWY_CRC_ERR_COUNT).setF R.PWY_STAT F.PWY_STAT_CRC_F 1

/-- A module finds its own position present: one that is ALONE, or has found its group less than 300 µs ago, stays out; the member
that was there before is unaffected (R371, log 209). -/
def State.ownSeen (s : State) : State :=
  if s.pwy.dup || (s.getF R.PWY_STAT F.PWY_STAT_TOPO != 0 && decide (s.pwy.joined + 450000 ≤ s.clock)) then s
  else
    let s1 := { s with pwy := { s.pwy with dup := true, members := Vector.replicate 32 none } }.lockLost
    ((s1.setF R.PWY_STAT F.PWY_STAT_DUP_F 1).fire 963).showGroup

/-- TOPO (R369, R371). -/
def State.topoIn (s : State) (p : Fin 2) (seq : BitVec 8) (t : PwyTopo) : State :=
  if !s.pwyEn || !s.portUp p then s
  else if t.group.val != s.pwyGroup then
    let s1 := { s with pwy := { s.pwy with boundary := s.pwy.boundary.set p true } }
    let s2 := if s.isSet R.PWY_STAT F.PWY_STAT_GRP_MISMATCH_F then s1
      else (s1.setF R.PWY_STAT F.PWY_STAT_GRP_MISMATCH_F 1).fire 963
    s2.showGroup
  else
    let s0 := { s with pwy := { s.pwy with boundary := s.pwy.boundary.set p false } }
    if s0.seenBefore t.pos seq then s0
    else
      let s1 := (s0.remember t.pos seq).forward p (.topo seq t)
      if t.pos.val == s.pwyPos then s1.ownSeen
      else
        let s2 := { s1 with pwy := { s1.pwy with members := s1.pwy.members.set t.pos (some (t, p.val)) } }
        s2.showGroup

/-- MEMBER_TIMEOUT (R371). -/
def State.memberTimeout (s : State) (pos : Fin 32) : State :=
  { s with pwy := { s.pwy with members := s.pwy.members.set pos none } }.showGroup

/-- The epoch rule of an importer (R377): the new bookkeeping, and whether the record passes. -/
def impPass (o : Option ImpSt) (e : Nat) : ImpSt × Bool :=
  match o with
  | none => (⟨e, none⟩, true)
  | some i =>
    if i.epoch == e then (⟨e, none⟩, true)
    else if i.cand == some e then (⟨e, none⟩, true)
    else (⟨i.epoch, some e⟩, false)

/-- One record of an EVENT frame at an importer (R377). -/
def State.eventRec (s : State) (r : PwyRec) : State :=
  let pos := r.id.toNat % 32
  let hits := (List.range 32).filter (fun i => s.isSet (R.PWY_IMP i) F.PWY_IMP_EN &&
    s.getF (R.PWY_IMP i) F.PWY_IMP_POS == pos && s.getF (R.PWY_IMP i) F.PWY_IMP_SLOT == r.slot.val)
  if r.id.toNat / 32 != s.pwyGroup || hits.isEmpty then s
  else
    let key := pos * 32 + r.slot.val
    let (i, pass) := impPass (SMap.get (fun _ => (none : Option ImpSt)) (s.pwy.imps.map (fun e => (e.1, some e.2))) key)
      r.epoch.toNat
    let s1 := { s with pwy := { s.pwy with imps := (key, i) :: s.pwy.imps.filter (fun e => e.1 != key) } }
    if pass then hits.foldl (fun t i => t.fire (928 + i)) s1 else s1

/-- EVENT (R369, R377). -/
def State.eventIn (s : State) (p : Fin 2) (pos : Fin 32) (seq : BitVec 8) (recs : List PwyRec) : State :=
  if !s.groupPort p || s.seenBefore pos seq then s
  else recs.foldl State.eventRec ((s.remember pos seq).forward p (.event pos seq recs))

/-- Picoseconds of a count of 1/16 tCK (tCK = 2/3 ns). -/
def psOf (x : Int) : Int := x * 2000 / 48

/-- DLY_REQ: timestamped and answered (R373). Times count 1/16 tCK. -/
def State.dlyReq (s : State) (p : Fin 2) (t2 t3 : Nat) : State :=
  if s.pwyEn && s.portUp p then s.sendOwn p (fun q => .dlyResp s.ownPos q t2 t3) else s

/-- DLY_RESP: delay = ((t4 − t1) − (t3 − t2)) / 2 + PWY_ASYM (R373). -/
def State.dlyResp (s : State) (p : Fin 2) (t1 t2 t3 t4 : Nat) : State :=
  if s.pwyEn && s.portUp p then
    let d : Int := psOf (((t4 : Int) - t1) - ((t3 : Int) - t2)) / 2 +
      toSigned 16 (s.getF (R.PWY_ASYM p) F.PWY_ASYM_PS)
    s.setF (R.PWY_PORT p) F.PWY_PORT_DELAY (clampI 0 1048575 d).toNat
  else s

/-- The step that a SYNC announces to a LOCKED member: none where T_APPLY is 0 or has passed, or is that of the step just applied,
announced by a SYNC that was under way then (R375, log 210). -/
def State.announced (s : State) (tApply : BitVec 64) (step : Word) : Option (Nat × Int) :=
  if tApply == 0 || decide (tApply.toNat < s.mtime.toNat) || s.pwy.applied == some tApply.toNat then none
  else some (tApply.toNat, step.toInt)

/-- SYNC (R374, R375): offset to upstream, LOCKED after eight consecutive SYNCs within 1 ns, and the announced step. -/
def State.syncIn (s : State) (p : Fin 2) (t tApply : BitVec 64) (step : Word) (frac : Fin 16) : State :=
  if !s.groupPort p || !s.isSet (R.PWY_PORT p) F.PWY_PORT_UPSTREAM || s.pwyMaster then s
  else
    let off : Int := psOf ((s.mtime.toNat : Int) * 16 + frac.val - (t.toNat : Int) * 16) -
      (s.getF (R.PWY_PORT p) F.PWY_PORT_DELAY : Int)
    let s1 := s.setReg R.PWY_OFFSET (BitVec.ofInt 32 (clampI (-(2 ^ 31 - 1)) (2 ^ 31 - 1) off))
    let near := s.pwy.steady != 0 && decide (off - s.pwy.first ≤ 1000) && decide (s.pwy.first - off ≤ 1000)
    let k := if near then s.pwy.steady + 1 else 1
    let s2 := { s1 with pwy := { s1.pwy with steady := min k 8, first := if near then s.pwy.first else off } }
    let s3 := if s2.pwyLocked || decide (k < 8) then s2
      else { s2 with mtime := BitVec.ofInt 64 ((s.mtime.toNat : Int) - (off * 3 + 1000) / 2000) }.setF R.PWY_STAT
        F.PWY_STAT_LOCKED 1
    if s3.pwyLocked then { s3 with pwy := { s3.pwy with step := s3.announced tApply step } } else s3

/-- SYNC_LOSS: no SYNC for four periods (R372). -/
def State.syncLoss (s : State) : State := if s.pwyMaster then s else s.lockLost

/-! Frames sent. -/

/-- SYNC_TRANSMIT: once per SYNC period a LOCKED module sends SYNC downstream, and every link carries DLY_REQ (R368). -/
def State.syncTransmit (s : State) : State :=
  let (ta, st) := match s.pwy.step with
    | some (a, b) => (BitVec.ofNat 64 a, BitVec.ofInt 32 b)
    | none => ((0 : BitVec 64), (0 : Word))
  let m : Fin 32 := ⟨s.getF R.PWY_GSTAT F.PWY_GSTAT_MASTER_POS % 32, Nat.mod_lt _ (by decide)⟩
  let ge := BitVec.ofNat 8 (s.getF R.PWY_GSTAT F.PWY_GSTAT_GEPOCH)
  (List.finRange 2).foldl (fun (t : State) (p : Fin 2) =>
    let t1 := if t.groupPort p && t.pwyLocked && !t.isSet (R.PWY_PORT p) F.PWY_PORT_UPSTREAM then
        t.sendOwn p (fun q => .sync t.ownPos q t.mtime ta st ge m)
      else t
    if t1.pwyEn && t1.portUp p then t1.sendOwn p (fun q => .dlyReq t1.ownPos q (t1.mtime.toNat * 16)) else t1) s

/-- TOPO_TRANSMIT: every 100 µs from every member (R368). -/
def State.topoTransmit (s : State) : State :=
  if s.inGroup then s.originate (fun q => .topo q s.ownTopo) else s

/-- A message is handed to export slot `i` (R377): its record carries MTIME at the firing (R368). A module that stays out of its group
sends none (R371, log 209). -/
def State.exportMsg (s : State) (i : Nat) (fired : Word) : State :=
  if s.inGroup && s.isSet (R.PWY_EXP i) F.PWY_EXP_EN then
    let r : PwyRec := ⟨BitVec.ofNat 16 (s.pwyGroup * 32 + s.pwyPos), ⟨i % 32, Nat.mod_lt _ (by decide)⟩,
      BitVec.ofNat 8 (s.getF (R.PWY_EXP i) F.PWY_EXP_EPOCH), fired⟩
    s.originate (fun q => .event s.ownPos q [r])
  else s.count (R.PWY_EXP i) F.PWY_EXP_UNSENT

/-- EVENT_LATCH: the message that waits on route r is accepted (R312): latched in its pair, or handed over to Passway, from
where the next frame takes it (R307, R377, log 138). -/
def State.accept (s : State) (r : Nat) : State :=
  let rt := s.route r
  let t := s.routeTgt r
  if t.kind != 3 then s.latch r
  else if rt.st != .pending || !s.goesFirst 3 (fun _ => true) r then s
  else if s.rejected t then s.orphanRoute r t
  else (s.sendOff r).exportMsg t.index rt.fired

/-! Ports. -/

/-- PORT_UP (R371): the unit of the port is enabled, and its line clock has locked (R436). -/
def State.portGain (s : State) (p : Fin 4) : State :=
  let on := if p.val < 2 then s.pwyEn else s.isSet R.TWN_CFG F.TWN_CFG_EN
  if !s.portFitted p || s.mode == mdStabled || !on || !s.clockOn 2 then s
  else ((s.setF R.PWY_STAT ⟨4 + p.val, 1⟩ 1).setF (R.PWY_PORT p) F.PWY_PORT_UP 1).showGroup

/-- PORT_DOWN (R381): what came over the port comes by the other group port from now on, where it has a link (R372). -/
def State.portLose (s : State) (p : Fin 4) : State :=
  if !s.portUp p then s
  else
    let s1 := ((s.setF R.PWY_STAT ⟨4 + p.val, 1⟩ 0).setF (R.PWY_PORT p) F.PWY_PORT_UP 0).setF (R.PWY_PORT p)
      F.PWY_PORT_UPSTREAM 0
    let s2 := if h : p.val < 2 then
        let q := otherPort ⟨p.val, h⟩
        let via := if s1.groupPort q then q.val else 2
        { s1 with pwy := { s1.pwy with
          boundary := s1.pwy.boundary.set p.val false
          members := s1.pwy.members.map (fun m => m.map (fun (e : PwyTopo × Nat) => if e.2 == p.val then (e.1, via) else e)) } }
      else s1
    (s2.fire (964 + p.val)).showGroup

/-! Group-wide steps and train time. -/

/-- GROUP_STEP_APPLY: MTIME steps in the cycle in which it equals T_APPLY; where train time is held, its offset takes the step
back, so that TTIME does not move (R375, R380). -/
def State.groupStep (s : State) : State :=
  match s.pwy.step with
  | some (ta, st) =>
    if (s.pwyLocked || s.pwyMaster) && s.mtime.toNat == ta then
      let s1 := { s with mtime := s.mtime + BitVec.ofInt 64 st, pwy := { s.pwy with step := none, applied := some ta } }
      let s2 := if s1.pwyMaster || s1.isSet R.PWY_TT_STAT F.PWY_TT_STAT_TT_VALID then s1.setTtOfs (s1.ttOfs - st) else s1
      s2.fire 969
    else s
  | none => s

/-- INAUGURATION (R380). -/
def State.inauguration (s : State) : State :=
  if s.mode == mdStabled then s
  else
    let s1 := (s.countWrap R.PWY_TT_STAT F.PWY_TT_STAT_INAUG_CNT).setF R.PWY_TT_STAT F.PWY_TT_STAT_INAUG_F 1
    let s2 := (s1.setF R.PWY_TT_STAT F.PWY_TT_STAT_TT_VALID 0).setF R.PWY_TT_STAT F.PWY_TT_STAT_TT_LOCKED 0
    let s3 := s2.stepsShown.resetRegs (R.PWY_SYS 0) (R.PWY_SYS 64)
    { s3 with pwy := { s3.pwy with sysFrom := Vector.replicate 64 none } }.fire 968

/-- PTP_LOCK: the group master adds Δ (R380); in another member, whose group master has locked, TT_LOCKED reads 1 (R382,
log 211). -/
def State.ptpLock (s : State) (delta : BitVec 64) : State :=
  let was := s.isSet R.PWY_TT_STAT F.PWY_TT_STAT_TT_LOCKED
  if !s.pwyMaster then
    if s.elected.isSome then (s.setF R.PWY_TT_STAT F.PWY_TT_STAT_TT_LOCKED 1).fireIf (!was) 970 else s
  else if !s.ttCapable then s
  else
    let s1 := (s.setF R.PWY_TT_STAT F.PWY_TT_STAT_TT_VALID 1).setTtOfs (s.ttOfs + delta.toInt)
    (s1.setF R.PWY_TT_STAT F.PWY_TT_STAT_TT_LOCKED 1).fireIf (!was) 970

/-- The step of R380: all of PWY_TT_OFS where no member reports ARMED, as far as the 32 bits of STEP hold it (R368, log 212); at
most 75 tCK otherwise. -/
def ttStep (ofs : Int) (armed : Bool) : Int := if armed then clampI (-75) 75 ofs else clampI (-(2 ^ 31)) (2 ^ 31 - 1) ofs

/-- TT_STEP_ANNOUNCE (R380): T_APPLY lies `ahead` tCK ahead, at least 20 µs (R375); where a member is armed, steps come at most
once in 1 ms. -/
def State.ttAnnounce (s : State) (ahead : Nat) : State :=
  let armed := s.memberTopos.any (·.armed)
  let due := s.clock + max 30000 ahead
  let soon := match s.pwy.lastStep with
    | some c => armed && decide (due < c + 1500000)
    | none => false
  if !s.pwyMaster || s.ttOfs == 0 || s.pwy.step.isSome || soon then s
  else
    let at_ := (s.mtime + BitVec.ofNat 64 (max 30000 ahead)).toNat
    { s with pwy := { s.pwy with step := some (at_, ttStep s.ttOfs armed), lastStep := some due } }

/-- GROUP_ANNOUNCEMENT: each group master every 10 ms (R378). -/
def State.announceGroup (s : State) : State :=
  if s.pwyMaster && (s.pwy.ecn.get 0 || s.pwy.ecn.get 1) then
    s.emit (.announce s.pwyGroup s.pwyPos (s.reg R.PWY_MEMBERS) (s.getF R.PWY_GSTAT F.PWY_GSTAT_GEPOCH))
  else s

/-- GROUP_ANNOUNCEMENT_RECEIVE: PWY_SYS, and GRP_DUP_F where two masters announce one GROUP within a period (R378). -/
def State.announceIn (s : State) (g : Fin 64) (sender : Nat) (mask : Word) : State :=
  let dup := match s.pwy.sysFrom.get g with
    | some (q, c) => q != sender && decide (s.clock - c < 15000000)
    | none => false
  let mine := s.pwyMaster && g.val == s.pwyGroup
  if s.mode == mdStabled then s
  else
    let s1 := { s with pwy := { s.pwy with sysFrom := s.pwy.sysFrom.set g (some (sender, s.clock)) } }
    let s2 := s1.setReg (R.PWY_SYS g) mask
    if dup || mine then s2.setF R.PWY_TT_STAT F.PWY_TT_STAT_GRP_DUP_F 1 else s2

/-- PTP_TIME_EVENT: TTIME reaches PWY_TEV (R379). -/
def State.ptpTime (s : State) : State :=
  let tev := (s.reg R.PWY_TEV_LO).toNat + 2 ^ 32 * (s.reg R.PWY_TEV_HI).toNat
  s.fireIf (s.mode != mdStabled && s.mtime + BitVec.ofInt 64 s.ttOfs == BitVec.ofNat 64 tev) 50

/-- ECN_LINK_CHANGE (R372). -/
def State.ecnChange (s : State) (l : Fin 2) (up : Bool) : State :=
  { s with pwy := { s.pwy with ecn := s.pwy.ecn.set l up } }.showGroup

/-! Writes (R371, R377, R382). -/

/-- A refused write. -/
def State.badAcc (s : State) : State := s.count R.HIF_BADACC F.HIF_BADACC_COUNT

/-- A write of PWY_CFG: EN starts and stops the group ports. -/
def State.pwyCfgWrite (s : State) (v : Word) : State :=
  let per := F.PWY_CFG_SYNC_PER.get v
  if per == 0 || decide (100 < per) then s.badAcc
  else
    let was := s.pwyEn
    let s1 := s.setReg R.PWY_CFG (v &&& 0x80010FFF)
    if F.PWY_CFG_EN.get v == 1 then
      (if was then s1 else { s1 with pwy := { s1.pwy with dup := false } }).showGroup
    else if was then
      let s2 := { s1 with pwy := { s1.pwy with members := Vector.replicate 32 none, boundary := Vector.replicate 2 false } }
      ((s2.portLose 0).portLose 1).lockLost.showGroup
    else s1.showGroup

/-- A write of PWY_ID. -/
def State.pwyIdWrite (s : State) (v : Word) : State :=
  if s.pwyEn || decide (31 < v.toNat % 256) then s.badAcc
  else
    let g := F.PWY_ID_GROUP.get v
    let p := F.PWY_ID_POS.get v
    s.setReg R.PWY_ID (F.PWY_ID_GROUP.word g ||| F.PWY_ID_POS.word p ||| F.PWY_ID_ID.word (g * 32 + p))

/-- A write of PWY_EXP[i]: the slot's epoch increments and its routes become STALE (R377, R312). -/
def State.pwyExpWrite (s : State) (i : Nat) (v : Word) : State :=
  let a := R.PWY_EXP i
  let s1 := ((s.setF a F.PWY_EXP_EN (F.PWY_EXP_EN.get v)).countWrap a F.PWY_EXP_EPOCH).setF a F.PWY_EXP_UNSENT 0
  s1.staleTarget 3 (fun x => x == i)

/-- Any write of the PWY block. -/
def State.pwyWrite (s : State) (a : Nat) (v : Word) : State :=
  let o := a - 0x010A0000
  if o == 0x0 then s.pwyCfgWrite v
  else if o == 0x4 then s.pwyIdWrite v
  else if o == 0x8 then s.setReg a (s.reg a &&& ~~~ (v &&& 0xF8000000))
  else if o == 0x1C then s.setReg a (s.reg a &&& ~~~ (v &&& 0xC0000000))
  else if o == 0x28 || o == 0x2C then s.setReg a v
  else if o == 0x30 then
    if s.isSet R.PWY_CFG F.PWY_CFG_TT_EN then s.badAcc else s.setReg a (v &&& 0xFFFFFF01)
  else if 0x40 ≤ o ∧ o < 0x80 then
    if !s.portFitted ((o - 0x40) / 0x10) then s.badAcc else if o % 0x10 = 4 then s.setReg a (v &&& 0x0000FFFF) else s
  else if 0x100 ≤ o ∧ o < 0x180 then s.pwyExpWrite ((o - 0x100) / 4) v
  else if 0x180 ≤ o ∧ o < 0x200 then
    if decide (31 < v.toNat / 256 % 256) then s.badAcc else s.setReg a (v &&& 0x80001F1F)
  else s

end Machine
end Sys2Proof
end

