-- ==== Sys2Proof/Machine/LoopDrop.lean ====
section
/-! DEFINITION. What the CLE of a slice discards: skipped samples, a loop's queued trigger, routine or record, the call
(chapters 03, 06 and 23). -/

namespace Sys2Proof
namespace Machine

def State.cleOf (s : State) (n : Fin 12) : CleSt := s.cle.get n
def State.setCle (s : State) (n : Fin 12) (c : CleSt) : State := { s with cle := s.cle.set n c }

/-- SKIP_F or LATE_F is set in loop j; CLE_OVR fires when the flag becomes set (R304). -/
def State.cleFlag (s : State) (n : Fin 12) (j : Nat) (f : Fld) : State :=
  let a := R.CLE_LSTAT n j
  if s.isSet a f then s else (s.setF a f 1).fireLocal n 17

/-- A sample of loop j is skipped: SKIP_F and the SKIP count; a gap in an injection run of that loop (R113, R190). -/
def State.cleSkip (s : State) (n : Fin 12) (j : Nat) : State :=
  let s1 := (s.count (R.CLE_OVR n j) F.CLE_OVR_SKIP).cleFlag n j F.CLE_LSTAT_SKIP_F
  if s1.isSet (R.INJ_STAT n) F.INJ_STAT_RUN && s1.getF (R.INJ_CTRL n) F.INJ_CTRL_LOOP == j then
    s1.setF (R.INJ_STAT n) F.INJ_STAT_GAP_F 1
  else s1

/-- QSTATE of loop j, with its bit of CLE_STAT.QUEUE. -/
def State.setQ (s : State) (n : Fin 12) (j : Nat) (q : Nat) : State :=
  (s.setF (R.CLE_LSTAT n j) F.CLE_LSTAT_QSTATE q).setF (R.CLE_STAT n) ⟨16 + j, 1⟩ (b2n (q == 1))

def State.qstate (s : State) (n : Fin 12) (j : Nat) : Nat := s.getF (R.CLE_LSTAT n j) F.CLE_LSTAT_QSTATE

/-- Discard what loop j has in progress: its queued trigger, its routine, or its record not yet compared. `rec`: on entry
into RECOVERING, where queued and owed samples count as skipped (R388). -/
def State.dropLoop (s : State) (n : Fin 12) (j : Fin 16) (rec : Bool) : State :=
  let c := s.cleOf n
  let l := c.loops.get j
  let q := s.qstate n j
  let kept := match l.commit with | some r => r.compared | none => false
  let owed := s.isSet (R.CLE_LSTAT n j) F.CLE_LSTAT_LATE_PEND
  let s1 := if owed then
      let t := s.setF (R.CLE_LSTAT n j) F.CLE_LSTAT_LATE_PEND 0
      if rec then (t.cleSkip n j).noteSkip n j else t
    else s
  if q == 1 then
    let t := (s1.setQ n j 0).setCle n { c with loops := c.loops.set j { l with late := false } }
    if rec then (t.cleSkip n j).noteSkip n j else t
  else if q == 0 || kept then s1
  else
    let t := ((s1.setQ n j 0).setF (R.CLE_LSTAT n j) F.CLE_LSTAT_AUTO_FIRST 0).setCle n
      { c with loops := c.loops.set j { l with commit := none, late := false, errored := false } }
    if rec then t.noteSkip n j else t

/-- MCS_XSTAT shows the call: PEND while it waits, RUN while it issues (R145). -/
def State.showCall (s : State) (n : Fin 12) : State :=
  let (p, r) := match (s.cleOf n).call with
    | some c => (!c.issuing && c.result.isNone, c.issuing)
    | none => (false, false)
  (s.setB (R.MCS_XSTAT n) F.MCS_XSTAT_PEND p).setB (R.MCS_XSTAT n) F.MCS_XSTAT_RUN r

/-- The CLE drops its samples; the sequencer stops. A call waits to be issued again; on entry into RECOVERING it is discarded,
and the core reissues it after rollback (R52, R145, R388). -/
def State.dropCle (s : State) (n : Fin 12) (rec : Bool) : State :=
  let s1 := (List.finRange 16).foldl (fun (t : State) (j : Fin 16) => t.dropLoop n j rec) s
  let c := s1.cleOf n
  let call := if rec then none else c.call.map (fun (k : CallSt) => { k with issuing := false, result := none })
  ((s1.setCle n { c with seqr := resetSeq, blocked := false, keeps := false, call := call }).setF (R.CLE_STAT n) F.CLE_STAT_BUSY 0).showCall n

/-- A slice takes the standby role: its CLE computes no loop sample, and no commit of its own is applied from then on (R393). -/
def State.dropRole (s : State) (n : Fin 12) : State :=
  let c := s.cleOf n
  (s.setCle n { c with loops := c.loops.map (fun l => { l with
    commit := l.commit.map (fun r => { r with compared := false }) }) }).dropCle n false

end Machine
end Sys2Proof
end

