-- ==== Sys2Proof/Machine/TwinCore.lean ====
section
/-! DEFINITION. The twin link's queue, health and roles (R391 to R400), on which slice state changes rest. The records
received are in Twin.lean. -/

namespace Sys2Proof
namespace Machine

/-- Bit n of a slice mask. -/
def maskBit (n : Nat) : BitVec 12 := BitVec.ofNat 12 (2 ^ n)

/-- The slice holds the active role. -/
def State.active (s : State) (n : Nat) : Bool := s.mode == mdTwin && natBit (s.getF R.TWN_ROLE F.TWN_ROLE_ACTIVE) n

/-- The fitted twin lanes (R366). -/
def State.lanesFitted (s : State) : Nat := if s.part = .esk7208 then 1 else 3

def State.side (s : State) : Bool := s.isSet R.TWN_CFG F.TWN_CFG_SIDE

/-- R391 holds: both in TWIN mode, the links connected, the sides differing, both LOCKED in one group. -/
def State.twinPair (s : State) : Bool :=
  s.mode == mdTwin && s.isSet R.TWN_CFG F.TWN_CFG_EN && s.pwyLocked &&
    s.getF R.TWN_STAT F.TWN_STAT_LANES == s.lanesFitted &&
    (match s.twn.peer with | some p => p.ready && p.side != s.side | none => false)

/-- Show HEALTHY; source 978 fires when it changes (R399). -/
def State.showHealth (s : State) : State :=
  let h := s.twinPair && !s.twn.dropRecent
  if h != s.isSet R.TWN_STAT F.TWN_STAT_HEALTHY then (s.setB R.TWN_STAT F.TWN_STAT_HEALTHY h).fire 978 else s

/-- A record has been dropped: it counts, and HEALTHY is 0 for 1.00 ms (R395, R399). -/
def State.twinDrop (s : State) : State :=
  let s1 := s.count R.TWN_DROP F.TWN_DROP_COUNT
  { s1 with twn := { s1.twn with dropRecent := true, dropAt := s1.clock } }.showHealth

/-- Put a record in the queue, or drop it on a full one (R399). -/
def State.twinSend (s : State) (r : TwinRec) : State :=
  if !s.isSet R.TWN_CFG F.TWN_CFG_EN || s.mode != mdTwin then s
  else if s.twn.queue.length < 64 then { s with twn := { s.twn with queue := s.twn.queue ++ [r] } }
  else
    ((s.setF R.TWN_STAT F.TWN_STAT_DROP_F 1).twinDrop)

/-- FRAME_DISCARD: what came on a port is no good frame of the group (R367), or no good record of the twin link, whose dropped record takes HEALTHY for 1 ms (R395, R399,
R479, log 144). The next record of the lane tells which STREAM it had (log 199). -/
def State.discardOn (s : State) (x : RawFrame) : State :=
  if x.port.val < 2 then
    if natBit (s.getF R.PWY_STAT F.PWY_STAT_PORT_UP) x.port && frameBad x.bytes then s.frameDiscard else s
  else if natBit (s.getF R.TWN_STAT F.TWN_STAT_LANES) (x.port.val - 2) && recordBad x.bytes then s.twinDrop
  else s

/-- The oldest record leaves on its lane (R395): lanes alternate when both are locked. -/
def State.twinTransmit (s : State) : State :=
  let lanes := s.getF R.TWN_STAT F.TWN_STAT_LANES
  match s.twn.queue with
  | [] => s
  | r :: t =>
    if lanes == 0 then s
    else
      let p : Fin 4 := if lanes == 3 then (if s.twn.stream % 2 == 0 then 2 else 3) else if lanes == 1 then 2 else 3
      let k := s.twn.stream
      let s1 := { s with twn := { s.twn with queue := t, stream := (k + 1) % 65536 } }.count R.TWN_TX F.TWN_TX_COUNT
      match s1.portFault p with
      | (u, some bad) => u.emit (.twin p bad k r)
      | (u, none) => u

/-- Bits n of the slices that satisfy a condition. -/
def sliceMask (p : Nat → Bool) : BitVec 12 :=
  (List.range 12).foldl (fun (m : BitVec 12) n => if p n then m ||| maskBit n else m) 0

/-- The module's STATUS record (R396). Its STANDBY mask names the standby slices that are RUNNING (log 23). -/
def State.statusRec (s : State) : TwinRec :=
  .status (BitVec.ofNat 12 (s.getF R.TWN_SYNC F.TWN_SYNC_SYNCED)) (BitVec.ofNat 12 (s.getF R.TWN_SYNC F.TWN_SYNC_ARMED))
    (sliceMask (fun n => s.standby n && s.slState n == slRunning)) (s.isSet R.TWN_STAT F.TWN_STAT_HEALTHY)

/-- The enabled loops of a slice. -/
def State.enabledLoops (s : State) (n : Nat) : BitVec 16 :=
  (List.range 16).foldl (fun (m : BitVec 16) j =>
    if s.isSet (R.CLE_LCTRL n j) F.CLE_LCTRL_EN then m ||| BitVec.ofNat 16 (2 ^ j) else m) 0

/-- Slice n is SYNCED (R397). -/
def State.synced (s : State) (n : Fin 12) : Bool :=
  s.standby n && s.twn.cfgOk.get n && (s.enabledLoops n &&& ~~~ (s.twn.snapped.get n)) == 0

/-- Source 982 fires for a change of TWN_SYNC, once for the changes of a cycle (R303, R407). -/
def State.syncChanged (s : State) : State :=
  if s.twn.syncAt == some s.clock then s else ({ s with twn := { s.twn with syncAt := some s.clock } }).fire 982

/-- Show TWN_SYNC, which reads 0 outside TWIN mode; a change fires source 982 (R407). -/
def State.syncRegs (s : State) : State :=
  if s.mode != mdTwin && s.reg R.TWN_SYNC == 0 then s
  else
    let f (b : Fin 12 → Bool) : Nat := (List.finRange 12).foldl (fun (m : Nat) (n : Fin 12) => m + b2n (b n) * 2 ^ n.val) 0
    let sy := f s.synced
    let ar := f (fun n => s.standby n && s.armed n)
    if sy != s.getF R.TWN_SYNC F.TWN_SYNC_SYNCED || ar != s.getF R.TWN_SYNC F.TWN_SYNC_ARMED then
      ((s.setF R.TWN_SYNC F.TWN_SYNC_SYNCED sy).setF R.TWN_SYNC F.TWN_SYNC_ARMED ar).syncChanged
    else s

/-- The roles and TWN_SYNC, which were those of `s`: where any bit has changed, the next cycle sends a STATUS record (R396). -/
def State.reportRoles (s t : State) : State :=
  let u := t.syncRegs
  if u.reg R.TWN_ROLE != s.reg R.TWN_ROLE || u.reg R.TWN_SYNC != s.reg R.TWN_SYNC then
    { u with twn := { u.twn with statusDue := true } } else u

/-- One STATUS record in the cycle after any change of TWN_ROLE or TWN_SYNC (R396). -/
def State.statusNext (s : State) : State :=
  if s.twn.statusDue then ({ s with twn := { s.twn with statusDue := false } }).twinSend s.statusRec else s

/-- Show TWN_SYNC; STATUS follows a change (R396). -/
def State.showSync (s : State) : State := s.reportRoles s

/-- Set the role of slice n: 0 none, 1 active, 2 standby (R392). The pins follow, and a standby CLE computes nothing (R393). -/
def State.putRole (s : State) (n : Fin 12) (role : Nat) : State :=
  let s1 := (s.setF R.TWN_ROLE ⟨n.val, 1⟩ (b2n (role == 1))).setF R.TWN_ROLE ⟨16 + n.val, 1⟩ (b2n (role == 2))
  let s2 := if role == 2 then
      { s1 with twn := { s1.twn with
        snapped := s1.twn.snapped.set n 0, cfgOk := s1.twn.cfgOk.set n true, cfgDone := s1.twn.cfgDone.set n 0 } }
    else s1
  (if role == 2 then s2.dropRole n else s2).pinsSlice n

/-- The same, with STATUS. -/
def State.setRole (s : State) (n : Fin 12) (role : Nat) : State := s.reportRoles (s.putRole n role)

/-- The slices of a mask take a role in one cycle. -/
def State.setRoles (s : State) (m : BitVec 12) (role : Nat) : State :=
  s.reportRoles ((List.finRange 12).foldl (fun (t : State) (n : Fin 12) => if m.getLsbD n then t.putRole n role else t) s)

/-- R392's pairing, when R391 comes to hold: side 0 is active for its RUNNING slices and side 1 standby for those; a slice
RUNNING on one side only is active there. Equal sides set ROLE_CONFLICT_F (R391). -/
def State.pairUp (s : State) : State :=
  let conflict := match s.twn.peer with
    | some p => s.mode == mdTwin && p.ready && p.side == s.side
    | none => false
  let s0 := if conflict && !s.isSet R.TWN_STAT F.TWN_STAT_ROLE_CONFLICT_F then
      (s.setF R.TWN_STAT F.TWN_STAT_ROLE_CONFLICT_F 1).fire 983
    else s
  if s0.twinPair && !s0.twn.paired then
    let running := match s0.twn.peer with | some p => p.running | none => 0
    let s1 := { s0 with twn := { s0.twn with paired := true } }
    (s1.reportRoles ((List.finRange 12).foldl (fun (t : State) (n : Fin 12) =>
      if t.active n || t.standby n || t.slState n != slRunning then t
      else t.putRole n (if t.side && running.getLsbD n then 2 else 1)) s1)).showHealth
  else s0.showHealth

/-- LOCKED has risen or fallen in TWIN mode: pairing and HEALTHY follow (R391, R399). -/
def State.lockedNow (s t : State) : State := if s.mode == mdTwin && s.pwyLocked != t.pwyLocked then t.pairUp else t

/-- Deposer-initiated handover of the active slices of `mask` (R400): the standby role, pins off, a HANDOVER record. -/
def State.handOver (s : State) (mask : BitVec 12) (cause : Nat) : State :=
  let m := sliceMask (fun n => mask.getLsbD n && s.active n)
  if m == 0 then s
  else
    let s1 := s.setRoles m 2
    let a := R.TWN_LAST_HO
    let s2 := ((((s1.setF a F.TWN_LAST_HO_DIR 0).setF a F.TWN_LAST_HO_REFUSED 0).setF a F.TWN_LAST_HO_CAUSE cause).countWrap a
      F.TWN_LAST_HO_SEQ).setF a F.TWN_LAST_HO_SLICES m.toNat
    let s3 := { s2.descHanded m with twn := { s2.twn with await := s2.twn.await ||| m, sentAt := s2.clock } }
    let s4 := s3.twinSend (.handover m cause s.mtime)
    s4.fireIf (s4.twn.queue.length != s3.twn.queue.length) 980

/-- TO_TWIN and ABT_TWIN are accepted for slice n: active, replication HEALTHY, and the partner's report current, with the
slice SYNCED and ARMED (R399). -/
def State.twinReady (s : State) (n : Nat) : Bool :=
  s.active n && s.isSet R.TWN_STAT F.TWN_STAT_HEALTHY && s.isSet R.TWN_PEER F.TWN_PEER_FRESH &&
    natBit (s.getF R.TWN_PEER F.TWN_PEER_SYNCED) n && natBit (s.getF R.TWN_PEER F.TWN_PEER_ARMED) n

/-- A CONFIG record of an accepted write or command on an active slice (R396): offset in the slice block, value. -/
def State.twinConfig (s : State) (n : Fin 12) (off : Nat) (v : Word) : State :=
  if s.active n then
    let k := s.twn.cfgSent.get n + 1
    { s with twn := { s.twn with cfgSent := s.twn.cfgSent.set n k } }.twinSend (.config n off v k)
  else s

end Machine
end Sys2Proof
end

