-- ==== Sys2Proof/Machine/SliceState.lean ====
section
/-! DEFINITION. Slice state changes and arming (chapters 02, 03 and 23): arming and disarming, what a state change does to
the units of the slice, entry into RECOVERING and SAFE, and the acceptance of a FENCE. -/

namespace Sys2Proof
namespace Machine

def State.coreOf (s : State) (p : Fin 13) : CoreSt := s.core.get p
def State.setCore (s : State) (p : Fin 13) (c : CoreSt) : State := { s with core := s.core.set p c }
/-- The core pair of a slice. -/
def pairOf (n : Fin 12) : Fin 13 := n.castSucc

/-- Counting of watchdog e starts at 0, with the first key expected (R441, R442). -/
def State.wdgStart (s : State) (e : Fin 13) : State :=
  if s.isSet (R.WDG_CTRL e) F.WDG_CTRL_EN then
    { (((s.setReg (R.WDG_CNT e) 0).setF (R.WDG_STAT e) F.WDG_STAT_RUN 1).setF (R.WDG_STAT e) F.WDG_STAT_EXPECT 0) with
      wdgFirst := s.wdgFirst.set e true }
  else s

/-- The counter of watchdog e holds 0. -/
def State.wdgStop (s : State) (e : Fin 13) : State :=
  (s.setReg (R.WDG_CNT e) 0).setF (R.WDG_STAT e) F.WDG_STAT_RUN 0

/-- READY, RUNNING or RECOVERING. -/
def slLive (st : Nat) : Bool := st == slReady || st == slRunning || st == slRecovering

/-- Change SLC_STATE: SEQ counts it and STATE_CHG fires (R50, R304); the watchdog starts and stops with the state (R441), and
test outputs end with entry into FENCED, SAFE or OFF (R471), and comparator tests without a mask with the exit from FENCED
(R77); the windows of a slice that leaves OFF request a trip from then on (R72, R498). -/
def State.setSl (s : State) (n : Fin 12) (st : Nat) : State :=
  let was := slLive (s.slState n)
  let s0 := if s.slState n == slFenced && st != slFenced then s.endTests n else s
  let s1 := ((s0.setF (R.SLC_STATE n) F.SLC_STATE_STATE st).countWrap (R.SLC_STATE n) F.SLC_STATE_SEQ).fireLocal n 0
  let s2 := if slLive st then (if was then s1 else (s1.wdgStart n.castSucc).levelTo n) else s1.wdgStop n.castSucc
  let s3 := if slLive st then s2 else (s2.setReg (R.DBG_TESTOUT n) 0).pinsSlice n
  if s.slState n == slOff && st != slOff then s3.showWins n else s3

/-- Record a cause in SLC_FAULT. -/
def State.slFault (s : State) (n : Nat) (cause : Nat) : State :=
  (s.setF (R.SLC_FAULT n) F.SLC_FAULT_VALID 1).setF (R.SLC_FAULT n) F.SLC_FAULT_CAUSE cause

/-! Arming (R30 to R34). -/

/-- Set or clear the slice's bit of DEV_ARM.ARM. -/
def State.setArmed (s : State) (n : Fin 12) (b : Bool) : State := (s.setF R.DEV_ARM ⟨n.val, 1⟩ (b2n b)).showSync

def State.setArmPend (s : State) (n : Fin 12) (b : Bool) : State := s.setF R.DEV_ARM ⟨16 + n.val, 1⟩ (b2n b)

def State.armPend (s : State) (n : Nat) : Bool := natBit (s.getF R.DEV_ARM F.DEV_ARM_PENDING) n

/-- The conditions of R30 hold. -/
def State.armOk (s : State) (n : Fin 12) : Bool :=
  s.modeDrives false && s.slState n == slRunning && s.isSet R.PWR_STAT F.PWR_STAT_HOLDUP_READY && !(s.ctlOf n).fencing

/-- A state or mode in which arming is refused (R31). -/
def State.armBars (s : State) (n : Fin 12) : Bool :=
  !s.modeDrives false || !s.powered n || s.slState n == slFenced || s.slState n == slSafe || (s.ctlOf n).fencing

/-- The slice becomes armed: each channel waits for its own next VALLEY (R32). -/
def State.armNow (s : State) (n : Fin 12) : State :=
  let s1 := (s.setArmed n true).setArmPend n false
  ((List.finRange 8).foldl (fun (t : State) (k : Fin 8) => t.setPw n k { t.pw n k with armWait := true }) s1).pinsSlice n

/-- What a request to arm slice n does (R30, R31); one for a slice that is armed changes nothing where its conditions hold, and is
held where they do not. -/
def State.armTaken (s : State) (n : Fin 12) : State :=
  if s.armBars n then s.count R.DEV_ARM_REJ F.DEV_ARM_REJ_COUNT
  else if !s.armOk n then s.setArmPend n true
  else if s.armed n then s
  else s.armNow n

/-- PENDING before the arm requests of slice n in this cycle, and what they have added to DEV_ARM_REJ. -/
def State.armNoted (s : State) (n : Fin 12) : Bool × Nat :=
  match (s.ctlOf n).armNote with
  | some (t, p, k) => if t == s.clock then (p, k) else (s.armPend n, 0)
  | none => (s.armPend n, 0)

/-- A request to arm slice n; in the cycle of a disarm it is neither pending nor counted (R33). -/
def State.armReq (s : State) (n : Fin 12) : State :=
  if (s.ctlOf n).disarmAt == some s.clock then s
  else
    let (p, k) := s.armNoted n
    let t := s.armTaken n
    let add := t.getF R.DEV_ARM_REJ F.DEV_ARM_REJ_COUNT - s.getF R.DEV_ARM_REJ F.DEV_ARM_REJ_COUNT
    t.setCtl n { t.ctlOf n with armNote := some (s.clock, p, k + add) }

/-- A pending request takes effect, or is dropped in a refusing state (R31). A change into a refusing mode drops it only here,
when it would next take effect (log 149). -/
def State.armPending (s : State) (n : Fin 12) : State :=
  if !s.armPend n then s
  else if s.armBars n then s.setArmPend n false
  else if !s.armOk n then s
  else if s.armed n then s.setArmPend n false
  else s.armNow n

/-- The arm requests of this cycle leave neither PENDING nor a count: a disarm falls in it (R33). -/
def State.armUndo (s : State) (n : Fin 12) : State :=
  let (p, k) := s.armNoted n
  let c := s.getF R.DEV_ARM_REJ F.DEV_ARM_REJ_COUNT
  let t := if k == 0 then s else s.setF R.DEV_ARM_REJ F.DEV_ARM_REJ_COUNT (c - k)
  (if p == s.armPend n then t else t.setArmPend n p).setCtl n { s.ctlOf n with armNote := none, disarmAt := some s.clock }

/-- A disarm: outputs off at once (R33, R51); it wins over the arm requests of its cycle. -/
def State.disarm (s : State) (n : Fin 12) : State :=
  if !s.fitted n then s.armUndo n
  else
    let t := s.armUndo n
    ((t.setArmed n false).setCtl n { t.ctlOf n with safeHold := false }).pinsSlice n

/-! The units of a slice. -/

/-- A FENCE discards every pending command of R115, one that a compared commit carries too; the commit's effect stands, for the
sample was computed with it (R106, log 191). -/
def State.dropCmds (s : State) (n : Fin 12) : State :=
  (List.range 16).foldl (fun (t : State) j =>
    ((((t.setF (R.CLE_LSTAT n j) F.CLE_LSTAT_SWAP_PEND 0).setF (R.CLE_LSTAT n j) F.CLE_LSTAT_MODE_PEND 0).setF
      (R.CLE_LSTAT n j) F.CLE_LSTAT_HIST_PEND 0).descDone (.swap n j) 2 0).descDone (.mode n j) 2 0) s

/-! DMA channel states (R325): 0 IDLE, 1 RUNNING, 2 WAITING, 3 DRAINING, 4 PAUSED, 5 ERROR. -/

def State.dmaOf (s : State) (e : Fin 13) (c : Fin 16) : DmaCh := (s.dma.get e).get c
def State.setDma (s : State) (e : Fin 13) (c : Fin 16) (d : DmaCh) : State :=
  { s with dma := s.dma.set e ((s.dma.get e).set c d) }
def State.dmaState (s : State) (e : Nat) (c : Nat) : Nat := s.getF (R.DMA_STAT e c) F.DMA_STAT_STATE
def State.setDmaState (s : State) (e : Nat) (c : Nat) (st : Nat) : State :=
  (s.setF (R.DMA_STAT e c) F.DMA_STAT_STATE st).setB (R.DMA_CTRL e c) F.DMA_CTRL_START (st != 0 && st != 5)

/-- The channel has stopped with its writes answered: HALT or STATE (R325). -/
def State.dmaStopped (s : State) (e : Fin 13) (c : Fin 16) (cause : Nat) : State :=
  ((((s.setDmaState e c 0).setF (R.DMA_STAT e c) F.DMA_STAT_STOP_F 1).setF (R.DMA_STAT e c) F.DMA_STAT_STOP_CAUSE cause).setDma
    e c { s.dmaOf e c with wait := none, after := .nothing }).xferDone e c 2

/-- The channel stops after its outstanding writes (R52, R325). -/
def State.dmaStop (s : State) (e : Fin 13) (c : Fin 16) (halt : Bool) : State :=
  let st := s.dmaState e c
  if st == 0 || st == 5 then s
  else if s.getF (R.DMA_STAT e c) F.DMA_STAT_OUTST == 0 then s.dmaStopped e c (if halt then 1 else 2)
  else (s.setDmaState e c 3).setDma e c { s.dmaOf e c with wait := none, after := if halt then .halt else .state }

def State.stopDma (s : State) (n : Fin 12) : State :=
  (List.finRange 8).foldl (fun (t : State) (c : Fin 8) => t.dmaStop n.castSucc (c.castLE (by decide)) false) s

/-- A running channel pauses: at once where no write is outstanding, else it drains first (R325). -/
def State.dmaPause (s : State) (e : Fin 13) (c : Fin 16) : State :=
  let st := s.dmaState e c
  if st == 1 || st == 2 || st == 3 then
    (s.setDma e c { s.dmaOf e c with was := st }).setDmaState e c
      (if s.getF (R.DMA_STAT e c) F.DMA_STAT_OUTST == 0 then 4 else 3)
  else s

def State.pauseDma (s : State) (n : Fin 12) : State :=
  (List.finRange 8).foldl (fun (t : State) (c : Fin 8) => t.dmaPause n.castSucc (c.castLE (by decide))) s

/-- The last outstanding write of a channel that is to pause has been answered. -/
def State.dmaDrained (s : State) (e : Fin 13) (c : Fin 16) : State :=
  let st := s.dmaState e c
  if (s.dmaOf e c).was == 0 || st == 0 || st == 5 then s
  else (if st == 3 then s else s.setDma e c { s.dmaOf e c with was := st }).setDmaState e c 4

/-- A channel that is paused or about to pause goes on. -/
def State.dmaResume (s : State) (e : Fin 13) (c : Fin 16) : State :=
  let d := s.dmaOf e c
  let st := s.dmaState e c
  if d.was != 0 && (st == 3 || st == 4) then (s.setDma e c { d with was := 0 }).setDmaState e c d.was else s

def State.resumeDma (s : State) (n : Fin 12) : State :=
  (List.finRange 8).foldl (fun (t : State) (c : Fin 8) => t.dmaResume n.castSucc (c.castLE (by decide))) s

/-- An injection run ends with a cause (R192). -/
def State.injEnd (s : State) (n : Nat) (cause : Nat) : State :=
  let a := R.INJ_STAT n
  if !s.isSet a F.INJ_STAT_RUN then s
  else ((((s.setF a F.INJ_STAT_RUN 0).setF a F.INJ_STAT_CORR_BUSY 0).setF a F.INJ_STAT_STOP_CAUSE cause).setF
    (R.INJ_CTRL n) F.INJ_CTRL_START 0).captureDone n cause

/-- A cause that ends a perturbation unit: EN returns to 0 (R478). -/
def State.ptbEnd (s : State) (e : Nat) (cause : Nat) : State :=
  let s1 := { s with ptbCause := s.ptbCause.setIfInBounds e (some (s.clock, cause)) }
  if !s.isSet (R.PTB_CTRL e) F.PTB_CTRL_EN then s1
  else ((s1.setF (R.PTB_CTRL e) F.PTB_CTRL_EN 0).setF (R.PTB_CTRL e) F.PTB_CTRL_END cause).setReg (R.PTB_ACTIVE e) 0

/-- The pair halts at its instruction boundary. -/
def State.haltPair (s : State) (p : Fin 13) : State := s.setCore p { s.coreOf p with halted := true, wfe := false }

/-- An attach takes effect: comparison is suspended, and LOCKSTEP_BROKEN is set (R278). -/
def State.attachNow (s : State) (p : Fin 13) (sess : Nat) : State :=
  let a := R.KC_LS_STAT p
  let s1 := ((s.setF a F.KC_LS_STAT_BROKEN 1).setF a F.KC_LS_STAT_SUSPENDED 1).setF a F.KC_LS_STAT_ATTACH_HELD 0
  let s2 := s1.setCore p { s1.coreOf p with attached := some sess }
  if p.val < 12 then s2.setF (R.SLC_STATE p) F.SLC_STATE_LOCKSTEP_BROKEN 1 else s2

/-- A held attach takes effect (R279). -/
def State.heldAttach (s : State) (n : Fin 12) : State :=
  match (s.ctlOf n).attachHeld with
  | some sess => (s.setCtl n { s.ctlOf n with attachHeld := none }).attachNow (pairOf n) sess
  | none => s

/-! Acceptance of a FENCE (R52, R53). -/

/-- A FENCE takes effect: a handover where it was asked for (R400), SAFE_PAT on an armed slice, triggers masked, uncompared commits discarded, the pair halted, DMA
stopping. -/
def State.fenceNow (s : State) (n : Fin 12) (cause : Nat) : State :=
  let c0 := s.ctlOf n
  let s0 := (s.setCtl n { c0 with toTwin := false })
  let s := if c0.toTwin then s0.handOver (maskBit n) (if cause == 8 then 2 else 1) else s0
  let c := s.ctlOf n
  let hold := c.safeHold || s.armed n
  let s1 := s.setCtl n { c with fencing := true, fenceCause := cause, fenceAt := s.clock, fenceFault := false, safeHold := hold, unmasked := false, goPending := false }
  let s2 := (s1.setArmed n false).setArmPend n false
  let s3 := ((s2.dropCle n false).dropCmds n).haltPair (pairOf n)
  let s4 := s3.stopDma n
  ((s4.setF (R.SLC_CMD_STAT n) F.SLC_CMD_STAT_HELD 0).descDone (.running n) 2 0).pinsSlice n

/-! Recovery and SAFE. -/

/-- Write SLC_REC_STAT when a recovery or takeover ends (R383). -/
def State.recStat (s : State) (n : Fin 12) : State :=
  let c := s.ctlOf n
  let k := c.skipped.toList.foldl max 0
  let a := R.SLC_REC_STAT n
  let ns := (s.clock - c.recStart) * 2 / 3
  s.setReg a (F.SLC_REC_STAT_REC_F.word 1 ||| F.SLC_REC_STAT_TAKEOVER.word (b2n (c.recCause == 5)) |||
    F.SLC_REC_STAT_CAUSE.word c.recCause ||| F.SLC_REC_STAT_K.word (min 15 k) ||| F.SLC_REC_STAT_DURATION.word (min 65535 ns))

/-- The slice goes to SAFE (R50, R51): SAFE_PAT on an armed slice, loops dropped, the pair halted, DMA stopped; handed over
where AUTO_HO applies (R400); a held FENCE and a held attach then take effect (R53, R279). While a FENCE takes effect
SLC_STATE keeps the state that the slice left (R52). -/
def State.enterSafe (s : State) (n : Fin 12) (cause : Nat) : State :=
  let st := s.slState n
  if !(st == slRunning || st == slReady || st == slRecovering) || (s.ctlOf n).fencing then s
  else
    let s0 := if s.isSet R.TWN_CFG F.TWN_CFG_AUTO_HO then s.handOver (maskBit n) 3 else s
    let s1 := if st == slRecovering then (s0.recStat n).descFail n else s0
    let c := s1.ctlOf n
    let hold := c.safeHold || s1.armed n
    let s2 := s1.setCtl n { c with safeHold := hold, unmasked := false, goPending := false, takeover := false, recWait := Vector.replicate 8 false }
    let s3 := (s2.setArmed n false).setArmPend n false
    let s4 := ((s3.dropCle n false).haltPair (pairOf n)).stopDma n
    let s5 := ((s4.injEnd n 3).ptbEnd n 3).dropRoutesTo n
    let s6 := ((s5.slFault n cause).setSl n slSafe).heldAttach n
    let s7 := if s6.isSet (R.SLC_CMD_STAT n) F.SLC_CMD_STAT_HELD then s6.fenceNow n (s6.ctlOf n).fenceCause else s6
    (s7.pinsSlice n).showSync

/-- A fault is detected: a checkpoint of its cycle does not count, and the rollback goes to the one before (R386). -/
def State.unCheckpoint (s : State) (p : Fin 13) : State :=
  let c := s.coreOf p
  if c.ck.isSome && c.ckAt == s.clock then s.setCore p { c with ck := c.ckWas, log := c.log ++ c.logWas, ckAt := 0 } else s

/-- Both cores restore their checkpoint, where there is one, without what stood open beside it; what the replay is to lead back
to is kept (R387, R389, log 30). -/
def State.rollBack (s : State) (n : Fin 12) : State :=
  let p := pairOf n
  let c := s.coreOf p
  let s1 := { s with rollback := s.rollback.set n (some ⟨c, s.reg (R.KC_CSEL p), (s.cleOf n).call⟩) }
  match c.ck with
  | none => s1
  | some (r, csel) =>
    (s1.setCore p { c with
      r := r, pfx := [], slot := none, shadow := none, lock := none, long := none, att := false, wfe := false
      lbuf := [], fq := none }).setReg (R.KC_CSEL p) csel

/-- The replay has ended: the pair runs live from the point of the fault, and an attached call that was discarded is issued
again (R145, R387, R389). -/
def State.runLive (s : State) (n : Fin 12) : State :=
  let p := pairOf n
  let c := s.coreOf p
  match s.rollback.get n with
  | none => s
  | some b =>
    let s1 := (s.setCore p { b.core with halted := c.halted, dbgHalt := c.dbgHalt, attached := c.attached }).setReg
      (R.KC_CSEL p) b.csel
    let call := if b.core.att then b.call.map (fun (k : CallSt) => { k with issuing := false, result := none }) else none
    { (s1.setCle n { s1.cleOf n with call := call }).showCall n with rollback := s.rollback.set n none }

/-- The slice enters RECOVERING (R388). -/
def State.enterRecovering (s : State) (n : Fin 12) (cause : Nat) : State :=
  let c := s.ctlOf n
  let s1 := (s.unCheckpoint (pairOf n)).setCtl n { c with recStart := s.clock, recCause := cause, skipped := Vector.replicate 16 0 }
  let s2 := (((s1.rollBack n).dropCle n true).pauseDma n).descHold n
  let s3 := (s2.injEnd n 4).count (R.SLC_REC_CNT n) F.SLC_REC_CNT_COUNT
  (s3.setSl n slRecovering).pinsSlice n

/-- A recoverable fault in slice n (R50, R57, R273): RECOVERING from RUNNING, SAFE from RECOVERING or READY, and only a
record in FENCED. A FENCE that has been accepted takes effect instead: with its own cause where the fault falls in the cycle
of its acceptance (R275), and with FAULT_WHILE_FENCED where it falls later (log 164). -/
def State.recoverable (s : State) (n : Fin 12) (cause : Nat) : State :=
  let st := s.slState n
  let c := s.ctlOf n
  if c.fencing then if st == slOff || c.fenceAt == s.clock then s else s.setCtl n { c with fenceFault := true }
  else if st == slRunning then s.enterRecovering n cause
  else if st == slRecovering then s.enterSafe n 6
  else if st == slReady then s.enterSafe n 9
  else if st == slFenced then s.slFault n 9
  else s

end Machine
end Sys2Proof
end

