-- ==== Sys2Proof/Machine/Mem.lean ====
section
/-! DEFINITION. The memories (chapter 17): address spaces, reads and writes of cells under ECC, the untagged accesses of the
host, the monitor and system DMA, clearing, the march engine, main memory, and the MEM and MMC registers. -/

namespace Sys2Proof
namespace Machine

/-- What stands at an internal byte address (R12, R14, R42). -/
inductive Space where
  | rom
  /-- Register space, and what no table assigns (R14, R43); the model's keys of pages the spec gives no address. -/
  | reg
  | dataFlash
  | secure
  /-- MCS window of a slice. -/
  | mcs (n : Nat)
  /-- Slice memory. -/
  | slice (n : Nat)
  | plain
  | main (c : Nat)
  | flash
  /-- Reserved, or above the map: refused under R8. -/
  | none
  deriving DecidableEq, Repr

def spaceOf (a : Nat) : Space :=
  if a < 0x20000 then .rom
  else if 0x01000000 ≤ a ∧ a < 0x01800000 then .reg
  else if 0x01800000 ≤ a ∧ a < 0x01A00000 then .dataFlash
  else if 0x01C00000 ≤ a ∧ a < 0x01C40000 then .secure
  else if 0x02000000 ≤ a ∧ a < 0x02C00000 then
    let n := (a - 0x02000000) / 0x100000
    let o := (a - 0x02000000) % 0x100000
    if o < 0x20000 then .reg else if o < 0x40000 then .mcs n else if o < 0x80000 then .reg else .slice n
  else if sysKcBase ≤ a ∧ a < sysKcBase + 0x1000 then .reg
  else if inPlain a then .plain
  else if inMain a then .main (mainCh a)
  else if 0x20000000 ≤ a ∧ a < 0x22000000 then .flash
  else if 0x100000000 ≤ a then .reg
  else .none

/-- Memory of cells: slice memory, Plain, secure SRAM, main memory. -/
def isCells (a : Nat) : Bool :=
  match spaceOf a with
  | .slice _ => true
  | .plain => true
  | .secure => true
  | .main _ => true
  | _ => false

/-! Main memory (R13, R298 to R301). -/

/-- The channel is fitted (R2). -/
def State.chFitted (s : State) (c : Nat) : Bool := c == 0 || s.part != .esk7208

def State.chDown (s : State) (c : Nat) : Bool := natBit (s.getF R.MMC_STAT F.MMC_STAT_CH_DOWN) c

/-- The address behaves as the absent range of R13. -/
def State.absentMain (s : State) (a : Nat) : Bool := inMain a && (!s.chFitted (mainCh a) || s.chDown (mainCh a))

/-- The slice whose block holds the address is absent (R4). -/
def State.absentSlice (s : State) (a : Nat) : Bool :=
  decide (0x02000000 ≤ a) && decide (a < 0x02C00000) && !s.fitted ((a - 0x02000000) / 0x100000)

/-- Accesses to the memory stall: it is being cleared, or secure SRAM is being wiped (R293, R294). -/
def State.memStalls (s : State) (a : Nat) : Bool :=
  match spaceOf a with
  | .slice n => s.mem.clearing.getLsbD n
  | .plain => s.mem.clearing.getLsbD 12
  | .secure => s.mem.clearing.getLsbD 13 || s.isSet R.MEM_STAT F.MEM_STAT_SEC_WIPING
  | _ => false

/-! Errors (R281, R282, R299). -/

/-- The key of an error mark: the cell, or the 64-bit word of main memory. -/
def eccKey (a : Nat) : Nat := if inMain a then a / 8 * 8 else a / 4 * 4

def State.mark (s : State) (a : Nat) : Option Bool := (s.mem.ecc.find? (fun e => e.1 == eccKey a)).map (fun e => e.2)

/-- The stored bits are valid again, and no write-back waits. -/
def State.clearMark (s : State) (a : Nat) : State :=
  { s with mem := { s.mem with ecc := s.mem.ecc.filter (fun e => e.1 != eccKey a), wb := s.mem.wb.filter (· != eccKey a) } }

/-- A corrected error: counted; an on-chip cell waits for its write-back, a main-memory word is written back at once. -/
def State.corrected (s : State) (a : Nat) : State :=
  match spaceOf a with
  | .main c => (s.count (R.MMC_ECC c) F.MMC_ECC_CE).clearMark a
  | sp =>
    let s1 := match sp with
      | .slice n => s.count (R.MEM_SLC_ECC n) F.MEM_SLC_ECC_CE
      | _ => s.count R.MEM_ECC_CNT F.MEM_ECC_CNT_CE
    let s2 := s1.setF R.MEM_STAT F.MEM_STAT_CE_F 1
    if s2.mem.wb.contains (eccKey a) then s2 else { s2 with mem := { s2.mem with wb := s2.mem.wb ++ [eccKey a] } }

/-- MMC_CHANNEL_DOWN (R301). -/
def State.channelDown (s : State) (c : Fin 2) : State :=
  if !s.chFitted c || s.chDown c then s
  else (((s.setF R.MMC_STAT ⟨2 + c.val, 1⟩ 1).setF R.MMC_STAT ⟨c.val, 1⟩ 0).setF R.MMC_STAT F.MMC_STAT_DOWN_F 1).fire 42

/-- An uncorrectable error of channel c is counted against UE_LIMIT, which takes the channel down when more fall within one
second (R301, log 126). -/
def State.noteUe (s : State) (c : Fin 2) : State :=
  let l := s.clock :: (s.mem.ueAt.get c).filter (fun t => decide (s.clock < t + 1500000000))
  let s1 := { s with mem := { s.mem with ueAt := s.mem.ueAt.set c l } }
  let lim := s.getF R.MMC_CFG F.MMC_CFG_UE_LIMIT
  if lim != 0 && decide (lim < l.length) then s1.channelDown c else s1

/-- An uncorrectable error: the cell is rewritten EMPTY, or the main-memory word with 0, and reported. -/
def State.uncorrectable (s : State) (a : Nat) : State :=
  let k := eccKey a
  match spaceOf a with
  | .main c =>
    let s1 := ((s.clearMark a).setCell k ⟨0, tagUint⟩).setCell (k + 4) ⟨0, tagUint⟩
    ((((s1.count (R.MMC_ECC c) F.MMC_ECC_UE).setReg (R.MMC_UE_ADDR c) (BitVec.ofNat 32 k)).setF R.MMC_STAT
      F.MMC_STAT_UE_F 1).fire 41).noteUe ⟨c % 2, Nat.mod_lt _ (by decide)⟩
  | sp =>
    let s1 := (s.clearMark a).setCell k emptyCell
    let s2 := (s1.setReg R.MEM_UE_ADDR (BitVec.ofNat 32 k)).setF R.MEM_STAT F.MEM_STAT_UE_F 1
    match sp with
    | .slice n => (s2.count (R.MEM_SLC_ECC n) F.MEM_SLC_ECC_UE).fireLocal n 3
    | _ => (s2.count R.MEM_ECC_CNT F.MEM_ECC_CNT_UE).fire 40

/-- What a read of a cell finds. -/
structure CellRead where
  st : State
  c : Cell
  /-- The cell was uncorrectable. -/
  ue : Bool

/-- The page of a main-memory address, and its bit in the page map: set by a write, or by the background fill (R300). -/
def pageOf (a : Nat) : Nat := (a - 0x10000000) / 0x1000

def State.pageSet (s : State) (a : Nat) : Bool :=
  s.mem.pages.contains (pageOf a) || (if mainCh a == 0 then s.mem.filled.get 0 else s.mem.filled.get 1)

/-- Read the cell at an address: corrected, or lost, by its error mark; 0 where main memory is absent (R13), which is told by
no code (log 162), and in a page whose bit is 0, which is not read in the DRAM (R300). -/
def State.rd (s : State) (a : Nat) : CellRead :=
  if s.absentMain a || (inMain a && !s.pageSet a) then ⟨s, ⟨0, tagUint⟩, false⟩
  else match s.mark a with
    | none => ⟨s, s.cell a, false⟩
    | some false => ⟨s.corrected a, s.cell a, false⟩
    | some true => ⟨s.uncorrectable a, (s.uncorrectable a).cell a, true⟩

/-- Pair p holds a reservation of the cell or register of address `a`. -/
def State.reserves (s : State) (a : Nat) (p : Fin 13) : Bool :=
  match (s.coreOf p).lock with
  | some l => l.good && l.resv == some (a / 4 * 4)
  | none => false

/-- The reservation of pair p is broken. -/
def State.loseResv (s : State) (p : Fin 13) : State :=
  s.setCore p { s.coreOf p with lock := (s.coreOf p).lock.map (fun l => { l with good := false }) }

/-- A write by another master to a reserved cell or register breaks the reservation (R227). -/
def State.breakResv (s : State) (by_ : Option (Fin 13)) (a : Nat) : State :=
  (List.finRange 13).foldl (fun (t : State) (p : Fin 13) =>
    if by_ == some p || !t.reserves a p then t else t.loseResv p) s

/-- Error marks of the cells for which `p` holds are gone: the stored bits have been written anew. -/
def State.freshBits (s : State) (p : Nat → Bool) : State :=
  { s with mem := { s.mem with ecc := s.mem.ecc.filter (fun e => !p e.1), wb := s.mem.wb.filter (fun a => !p a) } }

/-- The first write of a main-memory page sets its bit, and fills the page with zeros (R300). -/
def State.touchPage (s : State) (a : Nat) : State :=
  if inMain a && !s.pageSet a then
    let s1 := s.freshBits (fun b => inMain b && pageOf b == pageOf a)
    { s1 with mem := { s1.mem with pages := pageOf a :: s1.mem.pages } }
  else s

/-- Write a whole cell. `by_`: the core pair that writes, if one does. -/
def State.wr (s : State) (by_ : Option (Fin 13)) (a : Nat) (c : Cell) : State :=
  if s.absentMain a then s
  else
    let t := s.touchPage a
    let s0 := match t.mark a with
      | some lost => if !inMain a then t.clearMark a else if lost then t.uncorrectable a else t.corrected a
      | none => t.clearMark a
    if s0.absentMain a then s0 else (s0.breakResv by_ a).setCell a c

/-- ECC_WRITE_BACK: the corrected cell is written back (R281). -/
def State.writeBack (s : State) (a : Nat) : State := if s.mem.wb.contains (eccKey a) then s.clearMark a else s

/-! Narrow parts of a cell, little-endian (R285, R286). -/

/-- Replace `k` bytes of a word from byte offset `o`. -/
def putBytes (w : Word) (o k : Nat) (v : Nat) : Word :=
  let m := (2 ^ (8 * k) - 1) * 2 ^ (8 * o)
  (w &&& ~~~ (BitVec.ofNat 32 m)) ||| BitVec.ofNat 32 (v % 2 ^ (8 * k) * 2 ^ (8 * o))

/-- `k` bytes of a word from byte offset `o`. -/
def getBytes (w : Word) (o k : Nat) : Nat := w.toNat / 2 ^ (8 * o) % 2 ^ (8 * k)

/-- The cell's tag lets part of it be written: INT or UINT, and RAW with permission (R286). -/
def narrowOk (t : BitVec 4) (raw : Bool) : Bool := t == tagInt || t == tagUint || (t == tagRaw && raw)

/-! Untagged accesses (R288). -/

/-- A write of a whole cell without a tag: it keeps the cell's tag, EMPTY becomes UINT, and a CAP cell is left. -/
def State.rawWrite (s : State) (a : Nat) (w : Word) : State :=
  let r := s.rd a
  if r.c.tag == tagCap then r.st.badAcc
  else r.st.wr none a ⟨w, if r.c.tag == tagEmpty then tagUint else r.c.tag⟩

/-- A read without a tag: the payload, 0 for a CAP cell, all ones for an uncorrectable one (R282). -/
def State.rawRead (s : State) (a : Nat) : State × Word :=
  let r := s.rd a
  if r.ue then (r.st.badAcc, 0xFFFFFFFF) else (r.st, if r.c.tag == tagCap then 0 else r.c.v)

/-! Clearing (R293, R294). -/

/-- Clear the cells of [lo, hi), with their error marks. -/
def State.clearCells (s : State) (lo hi : Nat) : State :=
  { s with
    cells := SMap.clear (fun a => decide (lo ≤ a) && decide (a < hi)) s.cells
    mem := { s.mem with ecc := s.mem.ecc.filter (fun e => !(decide (lo ≤ e.1) && decide (e.1 < hi)))
                        wb := s.mem.wb.filter (fun e => !(decide (lo ≤ e) && decide (e < hi))) } }

/-- The word at a program address of pair p. -/
def State.progWord (s : State) (p a : Nat) : PWord := SMap.get (fun _ => (0 : PWord)) s.prog (a + 2 ^ 17 * p)

def State.setProgWord (s : State) (p a : Nat) (w : PWord) : State :=
  { s with
    prog := SMap.put (fun _ => (0 : PWord)) s.prog (a + 2 ^ 17 * p) w
    mem := { s.mem with pecc := s.mem.pecc.filter (fun e => e.1 != a + 2 ^ 17 * p) } }

/-- Clear the program memory of pair p. -/
def State.clearProg (s : State) (p : Nat) : State :=
  { s with
    prog := SMap.clear (fun k => k / 2 ^ 17 == p) s.prog
    mem := { s.mem with pecc := s.mem.pecc.filter (fun e => e.1 / 2 ^ 17 != p) } }

/-- MEM_STAT.CLEARING follows the memories being cleared. -/
def State.setClearing (s : State) (c : BitVec 14) : State :=
  { s with mem := { s.mem with clearing := c } }.setB R.MEM_STAT F.MEM_STAT_CLEARING (c != 0)

/-- The microcode copies are cleared. -/
def State.clearCopies (s : State) : State := { s with mcopy := [], copyBad := [], copyLost := List.range 12, copySet := [] }

/-- Every on-chip memory is cleared: cells, copies, program words and microcode stores, with their error marks (R294). -/
def State.clearOnChip (s : State) : State :=
  { s with
    cells := SMap.clear (fun a => !inMain a) s.cells
    prog := []
    mstore := []
    mem := { s.mem with ecc := s.mem.ecc.filter (fun e => inMain e.1), wb := s.mem.wb.filter inMain, pecc := [] } }.clearCopies

/-- Clearing of target t begins: slice t, Plain 12, secure SRAM 13. No content from before is left. -/
def State.clearBegin (s : State) (t : Nat) : State :=
  let s1 := if t < 12 then (s.clearCells (smem t 0) (smem t 0 + 0x80000)).clearProg t
    else if t == 12 then (s.clearCells 0x0E000000 0x0E800000).clearCopies
    else s.clearCells 0x01C00000 0x01C40000
  s1.setClearing (s1.mem.clearing ||| BitVec.ofNat 14 (2 ^ t))

/-- MEMORY_CLEAR_COMPLETE. -/
def State.clearEnd (s : State) (t : Fin 14) : State :=
  s.setClearing (s.mem.clearing &&& ~~~ (BitVec.ofNat 14 (2 ^ t.val)))

/-- The page map of main memory is reset, and the background fill starts (R300). -/
def State.clearMain (s : State) : State :=
  let s1 := s.clearCells 0x10000000 0x20000000
  { s1 with mem := { s1.mem with pages := [], filled := Vector.replicate 2 false } }.setF R.MMC_STAT F.MMC_STAT_CLEAR_BUSY
    (s.getF R.MMC_STAT F.MMC_STAT_CH_UP)

/-- PAGE_MAP_FILL_COMPLETE: every bit of the channel is set, its untouched pages written with zeros. -/
def State.fillEnd (s : State) (c : Fin 2) : State :=
  if natBit (s.getF R.MMC_STAT F.MMC_STAT_CLEAR_BUSY) c then
    let s1 := s.freshBits (fun a => inMain a && mainCh a == c.val && !s.pageSet a)
    { s1 with mem := { s1.mem with filled := s1.mem.filled.set c true } }.setF R.MMC_STAT ⟨4 + c.val, 1⟩ 0
  else s

/-- The address that a store-buffer entry writes. -/
def SbEntry.addr : SbEntry → Nat
  | .cell a _ => a
  | .byte a _ => a
  | .half a _ => a

/-- A wipe of secure SRAM starts; writes to it that have not completed are discarded (R293, R456). -/
def State.wipeBegin (s : State) : State :=
  let c := s.coreOf 12
  (s.setCore 12 { c with r := { c.r with sb := c.r.sb.filter (fun e => !inSecure e.addr) } }).setF R.MEM_STAT
    F.MEM_STAT_SEC_WIPING 1

/-- SEC_WIPED: every cell is cleared, and source 38 fires. -/
def State.wiped (s : State) : State :=
  if s.isSet R.MEM_STAT F.MEM_STAT_SEC_WIPING then
    ((s.clearCells 0x01C00000 0x01C40000).setF R.MEM_STAT F.MEM_STAT_SEC_WIPING 0).fire 38
  else s

/-! The scrubber. -/

/-- One burst of channel c is read, corrected and written back (R299). -/
def State.scrubBurst (s : State) (c : Nat) : State :=
  if !natBit (s.getF R.MMC_STAT F.MMC_STAT_CH_UP) c then s
  else
    let a := R.MMC_SCRUB_POS c
    let b := s.getF a F.MMC_SCRUB_POS_BURST
    let base := 0x10000000 + c * 0x8000000 + 64 * b
    let s1 := (List.range 8).foldl (fun (t : State) i => (t.rd (base + 8 * i)).st) s
    let s2 := s1.countWrap a F.MMC_SCRUB_POS_BURST
    if s2.getF a F.MMC_SCRUB_POS_BURST == 0 then s2.countWrap (R.MMC_SCRUB_CNT c) F.MMC_SCRUB_CNT_PASSES else s2

/-- MMC_SCRUB: a burst of each channel. -/
def State.scrub (s : State) : State := (s.scrubBurst 0).scrubBurst 1

/-! The march engine (R295 to R297). -/

def marchPlain : Nat := 0x10
def marchMain (c : Nat) : Nat := 0x12 + c

/-- No slice is armed. -/
def State.noneArmed (s : State) : Bool := s.getF R.DEV_ARM F.DEV_ARM_ARM == 0

/-- The request is accepted: the conditions of R295. -/
def State.marchOk (s : State) (t : Nat) (destr : Bool) : Bool :=
  if t < 12 then s.slState t == slFenced || (!destr && s.slState t == slReady)
  else if t == marchPlain then !destr
  else destr && s.mode == mdService && s.noneArmed

/-- The status with which a request completes: 0 OK, 1 BUSY, 2 REFUSED, 4 ABSENT, 5 PARAM. -/
def State.marchStatus (s : State) (key t : Nat) (destr : Bool) : Nat :=
  if key != 0x3A2C || !(decide (t < 12) || t == marchPlain || t == marchMain 0 || t == marchMain 1) then 5
  else if (decide (t < 12) && !s.fitted t) || (t == marchMain 1 && !s.chFitted 1) then 4
  else if s.mem.march.isSome then 1
  else if s.marchOk t destr then 0
  else 2

/-- A request by MEM_MARCH or by a MARCH descriptor. -/
def State.marchReq (s : State) (key t : Nat) (destr : Bool) : State :=
  let st := s.marchStatus key t destr
  let a := R.MEM_MARCH_STAT
  if st != 0 then s.setF a F.MEM_MARCH_STAT_STATUS st
  else
    { s with mem := { s.mem with march := some (t, destr) } }.setReg a
      (F.MEM_MARCH_STAT_TARGET.word t ||| F.MEM_MARCH_STAT_FORM.word (b2n destr)) |>.setF R.MEM_STAT F.MEM_STAT_MARCH_BUSY 1

/-- A destructive march leaves its array cleared. -/
def State.marchClear (s : State) (t : Nat) : State :=
  if t < 12 then
    let s1 := (s.clearCells (smem t 0) (smem t 0 + 0x80000)).clearProg t
    match h : decide (t < 12) with
    | true => let n : Fin 12 := ⟨t, of_decide_eq_true h⟩; s1.setCtl n { s1.ctlOf n with image := false }
    | false => s1
  else if t == marchMain 0 then s.clearCells 0x10000000 0x18000000
  else s.clearCells 0x18000000 0x20000000

/-- MEM_MARCH_STAT and MEM_MARCH_FADDR record how a run ended, and source 43 fires (R297). -/
def State.marchRecord (s : State) (r : MarchRes) : State :=
  let a := R.MEM_MARCH_STAT
  let bad := r.fails != 0
  let s1 := (((s.setF a F.MEM_MARCH_STAT_DONE 1).setB a F.MEM_MARCH_STAT_PASS (!bad)).setF a F.MEM_MARCH_STAT_FAIL_BANK
    (if bad then r.bank.val else 0)).setF a F.MEM_MARCH_STAT_FAILS (min r.fails 0xFFFF)
  (s1.setReg R.MEM_MARCH_FADDR (if bad then r.addr else 0)).fire 43

/-- A preserving run of start-up step 6 on target t ends (R296, R297). -/
def State.bootMarch (s : State) (t : Nat) (r : MarchRes) : State :=
  (s.setReg R.MEM_MARCH_STAT (F.MEM_MARCH_STAT_TARGET.word t)).marchRecord r

/-- MARCH_COMPLETE: the run ends. -/
def State.marchEnd (s : State) (r : MarchRes) : State :=
  match s.mem.march with
  | none => s
  | some (t, destr) =>
    let s1 := { s with mem := { s.mem with march := none } }.setF R.MEM_STAT F.MEM_STAT_MARCH_BUSY 0
    let bad := r.fails != 0
    let s3 := (if destr then s1.marchClear t else s1).marchRecord r
    let s4 := s3.descDone .march (if bad then 6 else 0) (s3.reg R.MEM_MARCH_STAT).toNat
    if !bad then s4
    else if h : t < 12 then
      let n : Fin 12 := ⟨t, h⟩
      if s4.slState n == slFenced then s4.slFault n 7 else s4.fenceNow n 7
    else if t == marchMain 0 then s4.channelDown 0
    else if t == marchMain 1 then s4.channelDown 1
    else s4

/-! Register writes. -/

def State.memWrite (s : State) (a : Nat) (v : Word) : State :=
  if a == R.MEM_STAT then s.setReg a (s.reg a &&& ~~~ (v &&& 0xC0000000))
  else if a == R.MEM_RET then s.setReg a (v &&& 0x0000000F)
  else if a == R.MEM_MARCH then s.marchReq (F.MEM_MARCH_KEY.get v) (F.MEM_MARCH_TARGET.get v) (F.MEM_MARCH_FORM.get v == 1)
  else s

/-- PERIOD is 1 to 1000; other values are refused. -/
def State.mmcWrite (s : State) (a : Nat) (v : Word) : State :=
  if a == R.MMC_STAT then s.setReg a (s.reg a &&& ~~~ (v &&& 0xC0000000))
  else if a == R.MMC_SCRUB then
    let p := F.MMC_SCRUB_PERIOD.get v
    if decide (1 ≤ p) && decide (p ≤ 1000) then s.setReg a (BitVec.ofNat 32 p) else s
  else if a == R.MMC_CFG then s.setReg a (v &&& 0x000000FF)
  else s

end Machine
end Sys2Proof
end

