-- ==== Sys2Proof/Machine/Trig.lean ====
section
/-! DEFINITION. Sine, cosine, arctangent and square root in integer arithmetic, for the injection unit (R188, R193) and the
long operations (R223). Angles are fractions of a turn. -/

namespace Sys2Proof
namespace Machine

/-- 2π × 2^64, rounded down. -/
def twoPi64 : Int := 115904311329233965478

/-- Terms of the sine series of x (2^64 = 1), from term `t` of order k on. -/
def sineTerms : Nat → Nat → Int → Int → Int
  | 0, _, _, _ => 0
  | f + 1, k, x2, t => t + sineTerms f (k + 2) x2 (-(t * x2 / 2 ^ 64) / ((k + 1) * (k + 2) : Nat))

/-- sin of r / 2^(b+2) of a turn, for r up to 2^b, in units of 2^-64. -/
def sineQuarter (b r : Nat) : Int :=
  let x : Int := (r : Int) * twoPi64 / ((2 ^ (b + 2) : Nat) : Int)
  if r = 0 then 0 else if r = 2 ^ b then 2 ^ 64 else sineTerms 24 1 (x * x / 2 ^ 64) x

/-- sin(2π φ / 2^(b+2)) in units of 2^-64. -/
def sine64 (b phi : Nat) : Int :=
  let q := 2 ^ b
  let r := phi % q
  match phi / q % 4 with
  | 0 => sineQuarter b r
  | 1 => sineQuarter b (q - r)
  | 2 => - sineQuarter b r
  | _ => - sineQuarter b (q - r)

/-- cos(2π φ / 2^(b+2)) in units of 2^-64. -/
def cosine64 (b phi : Nat) : Int := sine64 b (phi + 2 ^ b)

/-- k × x rounded to the nearest integer, x in units of 2^-64. -/
def roundTimes (k x : Int) : Int := (k * x + 2 ^ 63) / 2 ^ 64

/-- An integer within ±2 of k × x, x in units of 2^-64, or the nearest one where `v` is none; a series error below 2^-40 counts as
within. -/
def nearTimes (k x v : Int) : Int := if (v * 2 ^ 64 - k * x).natAbs ≤ 2 ^ 65 + 2 ^ 24 then v else roundTimes k x

/-- Square root rounded down: `n` more bits of the root, from a root r of what stands above them. -/
def sqrtBits (v : Nat) : Nat → Nat → Nat
  | 0, r => r
  | n + 1, r =>
    let c := r + 2 ^ n
    sqrtBits v n (if c * c ≤ v then c else r)

/-- floor(√v) for v below 2^80. -/
def isqrt (v : Nat) : Nat := sqrtBits v 40 0

/-- The largest angle a of n bits more, as a fraction 2^-32 of a half turn, with y·cos a ≥ x·sin a; both at least 0. -/
def atanBits (y x : Int) : Nat → Nat → Nat
  | 0, a => a
  | n + 1, a =>
    let c := a + 2 ^ n
    atanBits y x n (if x * sine64 31 c ≤ y * cosine64 31 c then c else a)

/-- floor(atan2(y, x) / π × 2^32) for y, x ≥ 0, not both 0: from 0 to 2^31. -/
def atanFirst (y x : Int) : Int :=
  if y = 0 then 0 else if x = 0 then 2 ^ 31 else (atanBits y x 31 0 : Int)

/-- atan2(y, x) / π in units of 2^-32, within one unit. -/
def atan2Half (y x : Int) : Int :=
  if 0 ≤ y then (if 0 ≤ x then atanFirst y x else 2 ^ 32 - atanFirst y (-x))
  else if 0 ≤ x then - atanFirst (-y) x
  else atanFirst (-y) (-x) - 2 ^ 32

end Machine
end Sys2Proof
end

