-- ==== Sys2Proof/Machine/Inj.lean ====
section
/-! DEFINITION. The injection unit (chapter 11): the generator, capture, the correlator, and the writes of its registers. -/

namespace Sys2Proof
namespace Machine

def State.injOf (s : State) (n : Fin 12) : InjSt := s.inj.get n
def State.setInj (s : State) (n : Fin 12) (x : InjSt) : State := { s with inj := s.inj.set n x }

/-- The generator runs on loop j of slice n. -/
def State.injOn (s : State) (n j : Nat) : Bool :=
  s.isSet (R.INJ_STAT n) F.INJ_STAT_RUN && s.getF (R.INJ_CTRL n) F.INJ_CTRL_LOOP == j

/-- round(AMP × sin(2π φ / 2^32)), without the error that R188 allows. -/
def sineValue (amp phi : Nat) : Int := roundTimes amp (sine64 30 phi)

/-- One step of the LFSR x^15 + x^14 + 1, whose output bit is bit 14 (PRESUMED, log 24). -/
def lfsrStep (l : Nat) : Nat := (2 * l + ((l / 2 ^ 14 + l / 2 ^ 13) % 2)) % 2 ^ 15

/-- The value d of a sample (R188); the sine's error within ±2 LSB is a free value (log 15). -/
def State.genValue (s : State) (n : Fin 12) : State × Int :=
  let x := s.injOf n
  let amp := s.getF (R.INJ_SIG n) F.INJ_SIG_AMP
  if s.getF (R.INJ_CTRL n) F.INJ_CTRL_SHAPE == 1 then
    (s, if natBit x.lfsr 14 then (amp : Int) else - (amp : Int))
  else (s.fresh, satS 16 (sineValue amp x.phi + ((Config.sineErr s.free).val : Int) - 2))

/-- The generator advances after a computed sample, when its commit has been captured (R188, R190); a chirp ends once F has passed FEND. -/
def State.genAdvance (s : State) (n : Fin 12) : State :=
  let x := s.injOf n
  let freq := (s.reg (R.INJ_FREQ n)).toNat
  match s.getF (R.INJ_CTRL n) F.INJ_CTRL_SHAPE with
  | 0 => s.setInj n { x with phi := (x.phi + freq) % 2 ^ 32 }
  | 1 =>
    if s.getF (R.INJ_SIG n) F.INJ_SIG_CHIP ≤ x.chip then s.setInj n { x with chip := 0, lfsr := lfsrStep x.lfsr }
    else s.setInj n { x with chip := x.chip + 1 }
  | _ =>
    let rate := (s.reg (R.INJ_RATE n)).toInt
    let fend := (s.reg (R.INJ_FEND n)).toNat
    let f := (x.inc : Int) + rate
    let s1 := s.setInj n { x with phi := (x.phi + x.inc) % 2 ^ 32, inc := f.toNat % 2 ^ 32 }
    if (0 < rate && decide ((fend : Int) < f)) || (rate < 0 && decide (f < (fend : Int))) then s1.injEnd n 1 else s1

/-- A node of the capture unit (R193). -/
def nodeValue (k : Nat) (c : CommitRec) : Int :=
  match k with
  | 0 => c.snap.ref
  | 1 => c.snap.inp
  | 2 => c.e
  | 3 => c.u
  | 4 => c.y
  | _ => c.snap.d

/-- A capture record joins the queue of four, or is dropped (R193). -/
def State.capture (s : State) (n : Fin 12) (c : CommitRec) : State :=
  let x := s.injOf n
  let a := nodeValue (s.getF (R.INJ_CAP n) F.INJ_CAP_NODE_A) c
  let b := nodeValue (s.getF (R.INJ_CAP n) F.INJ_CAP_NODE_B) c
  if x.queue.length < 4 then s.setInj n { x with queue := x.queue ++ [Rec.mk ⟨pack16 a b, tagFrac2⟩ emptyCell] }
  else (s.setF (R.INJ_STAT n) F.INJ_STAT_CAP_OVR_F 1).count (R.INJ_CAP_OVR n) F.INJ_CAP_OVR_COUNT

/-- Copy a 48-bit sum to INJ_ACC[m]. -/
def State.putSum (s : State) (n m : Nat) (v : Int) : State :=
  let u := ofSigned 48 v
  (s.setReg (R.INJ_ACC_LO n m) (BitVec.ofNat 32 u)).setReg (R.INJ_ACC_HI n m)
    (BitVec.ofNat 32 (ofSigned 32 (toSigned 16 (u / 2 ^ 32))))

/-- The correlator takes a sample (R193). -/
def State.correlate (s : State) (n : Fin 12) (c : CommitRec) : State :=
  let x := s.injOf n
  let settle := s.getF (R.INJ_CORR n) F.INJ_CORR_SETTLE
  let len := s.getF (R.INJ_CORR n) F.INJ_CORR_N
  let k := x.samples + 1
  let s1 := s.setInj n { x with samples := k }
  if k ≤ settle then s1
  else
    let a := nodeValue (s.getF (R.INJ_CAP n) F.INJ_CAP_NODE_A) c
    let b := nodeValue (s.getF (R.INJ_CAP n) F.INJ_CAP_NODE_B) c
    let sn := roundTimes 32767 (sine64 30 c.snap.phi)
    let cs := roundTimes 32767 (cosine64 30 c.snap.phi)
    let v : Vector Int 4 := #v[x.sums.get 0 + a * sn, x.sums.get 1 + a * cs, x.sums.get 2 + b * sn, x.sums.get 3 + b * cs]
    let s2 := s1.setInj n { x with samples := k, sums := v }
    if k < settle + len then s2
    else
      let s3 := (((s2.putSum n 0 (v.get 0)).putSum n 1 (v.get 1)).putSum n 2 (v.get 2)).putSum n 3 (v.get 3)
      ((s3.setF (R.INJ_STAT n) F.INJ_STAT_DONE_F 1).injEnd n 1).fireLocal n 20

/-- A computed sample of the target loop reaches its commit: it is captured (R193), and where it belongs to the run in progress it is
correlated and the generator advances (R188, R190). -/
def State.injCommit (s : State) (n : Fin 12) (j : Nat) (c : CommitRec) : State :=
  if s.getF (R.INJ_CTRL n) F.INJ_CTRL_LOOP != j then s
  else
    let s1 := if s.isSet (R.INJ_CTRL n) F.INJ_CTRL_CAP_EN then s.capture n c else s
    if !s1.injOn n j || c.snap.run == 0 || c.snap.run != (s1.injOf n).runs then s1
    else
      let s2 := if s1.isSet (R.INJ_STAT n) F.INJ_STAT_CORR_BUSY then s1.correlate n c else s1
      if s2.injOn n j then s2.genAdvance n else s2

/-- INJ_CAPTURE_RECORD_WRITE: the oldest record goes to the buffer. -/
def State.captureWrite (s : State) (n : Fin 12) : State :=
  let x := s.injOf n
  match x.queue with
  | [] => s
  | r :: t =>
    let i := s.getF (R.INJ_CIDX n) F.INJ_CIDX_INDEX
    let a := smem n (4 * s.getF (R.INJ_CAP n) F.INJ_CAP_BASE + 4 * i)
    ((s.wr none a r.c0).setInj n { x with queue := t }).setF (R.INJ_CIDX n) F.INJ_CIDX_INDEX
      ((i + 1) % 2 ^ s.getF (R.INJ_CAP n) F.INJ_CAP_LOG2LEN)

/-! Writes (R191 to R194). -/

def State.injRefuse (s : State) (n : Nat) : State :=
  (s.setF (R.INJ_STAT n) F.INJ_STAT_REJ_F 1).count (R.INJ_REJ n) F.INJ_REJ_COUNT

/-- A chirp's RATE carries the sign of FEND − FREQ (R188). -/
def State.chirpOk (s : State) (n : Nat) : Bool :=
  let r := (s.reg (R.INJ_RATE n)).toInt
  let d : Int := ((s.reg (R.INJ_FEND n)).toNat : Int) - ((s.reg (R.INJ_FREQ n)).toNat : Int)
  (0 < r && 0 < d) || (r < 0 && d < 0)

/-- The START of a write of INJ_CTRL is accepted (R191). -/
def State.injMay (s : State) (x : Access) (n : Nat) (v : Word) : Bool :=
  let j := F.INJ_CTRL_LOOP.get v
  let lim := s.getF (R.INJ_LIM n j) F.INJ_LIM_LIM
  let st := s.slState n
  (st == slReady || st == slRunning) && s.isSet (R.CLE_LCTRL n j) F.CLE_LCTRL_EN &&
    (s.mode == mdService || (x.test && lim != 0)) &&
    (lim == 0 || decide (s.getF (R.INJ_SIG n) F.INJ_SIG_AMP ≤ lim))

/-- The run starts. -/
def State.injStart (s : State) (n : Fin 12) : State :=
  let corr := s.isSet (R.INJ_CTRL n) F.INJ_CTRL_CORR_EN
  let a := R.INJ_STAT n
  ((((s.setF (R.INJ_CTRL n) F.INJ_CTRL_START 1).setF a F.INJ_STAT_RUN 1).setB a F.INJ_STAT_CORR_BUSY corr)).setInj n
    { s.injOf n with phi := 0, inc := (s.reg (R.INJ_FREQ n)).toNat, lfsr := 0x7FFF, chip := 0, samples := 0,
                     sums := Vector.replicate 4 0, service := s.mode == mdService, runs := (s.injOf n).runs + 1 }

/-- A write of INJ_CTRL: STOP ends a run; START and the configuration are taken while none runs. A CHIRP is selected only
where RATE, FREQ and FEND allow it (R194). -/
def State.injCtrlWrite (s : State) (x : Access) (n : Fin 12) (v : Word) : State :=
  let stop := F.INJ_CTRL_STOP.get v == 1
  let start := F.INJ_CTRL_START.get v == 1 && !stop
  if s.isSet (R.INJ_STAT n) F.INJ_STAT_RUN then (if stop then s.injEnd n 2 else s.injRefuse n)
  else if F.INJ_CTRL_SHAPE.get v == 3 || F.INJ_CTRL_NODE.get v == 3 ||
      (F.INJ_CTRL_CORR_EN.get v == 1 && F.INJ_CTRL_SHAPE.get v != 0) || (F.INJ_CTRL_SHAPE.get v == 2 && !s.chirpOk n) || (start && !s.injMay x n v) then s.injRefuse n
  else
    let s1 := s.setReg (R.INJ_CTRL n) (v &&& 0x03CF0C00)
    if start then s1.injStart n else s1

/-- Any write of the injection block of slice n. -/
def State.injWrite (s : State) (x : Access) (n : Fin 12) (a : Nat) (v : Word) : State :=
  let o := a - (sliceBase n + 0xB000)
  let run := s.isSet (R.INJ_STAT n) F.INJ_STAT_RUN
  if o == 0 then s.injCtrlWrite x n v
  else if o == 0x1C then s.setReg a (s.reg a &&& ~~~ (v &&& 0xF0000000))
  else if 0x80 ≤ o ∧ o < 0xC0 ∧ o % 4 = 0 then
    if s.slState n == slFenced || s.mode == mdService then
      let s1 := s.setReg a (v &&& 0x0000FFFF)
      if s1.injOn n ((o - 0x80) / 4) then s1.injEnd n 5 else s1
    else s.injRefuse n
  else if o == 0x04 then
    if run || natBit (F.INJ_SIG_AMP.get v) 15 then s.injRefuse n else s.setReg a (v &&& 0x00FFFFFF)
  else if o == 0x08 || o == 0x0C || o == 0x10 then
    let breaks := s.getF (R.INJ_CTRL n) F.INJ_CTRL_SHAPE == 2 && !(s.setReg a v).chirpOk n
    if run || breaks then s.injRefuse n else s.setReg a v
  else if o == 0x14 then
    let l := F.INJ_CAP_LOG2LEN.get v
    if run || decide (l < 4) || decide (12 < l) || decide (5 < F.INJ_CAP_NODE_A.get v) || decide (5 < F.INJ_CAP_NODE_B.get v) ||
        decide (0x7C000 < 4 * F.INJ_CAP_BASE.get v + 4 * 2 ^ l) then s.injRefuse n
    else (s.setReg a (v &&& 0xFFC7FFFC)).setF (R.INJ_CIDX n) F.INJ_CIDX_INDEX 0
  else if o == 0x18 then if run || decide (F.INJ_CORR_N.get v < 16) then s.injRefuse n else s.setReg a v
  else s

/-- A change of mode ends a run that SERVICE allowed (R192). -/
def State.injMode (s : State) : State :=
  (List.finRange 12).foldl (fun (t : State) (n : Fin 12) => if (t.injOf n).service then t.injEnd n 5 else t) s

/-- Reset of the unit of a slice (power-on, wake, STOP). -/
def State.injReset (s : State) (n : Fin 12) : State :=
  (s.resetRegs (sliceBase n + 0xB000) (sliceBase n + 0xC000)).setInj n resetInj

/-- SAR_RECORD_WRITE: the oldest queued record goes to its circular buffer (R89). -/
def State.sarRecord (s : State) (n : Fin 12) (k : Fin 4) : State :=
  let q := s.sr n k
  match q.queue with
  | [] => s
  | r :: t =>
    let mb := R.SAR_MBUF n k
    let idx := s.getF (R.SAR_MIDX n k) F.SAR_MIDX_INDEX
    let a := smem n (8 * s.getF mb F.SAR_MBUF_BASE + 8 * idx)
    let s1 := (s.wr none a r.c0).wr none (a + 4) r.c1
    (s1.setSr n k { q with queue := t }).setF (R.SAR_MIDX n k) F.SAR_MIDX_INDEX
      ((idx + 1) % 2 ^ s.getF mb F.SAR_MBUF_LOG2LEN)

end Machine
end Sys2Proof
end

