-- ==== Sys2Proof/Machine/Cle.lean ====
section
/-! DEFINITION. The Control Law Engine (chapters 06 and 07): triggers, the sample boundary, the datapath of a microword, the
vendor routines by their function, the commit port, loop commands and the writes of the CLE block; the hand-off of a SAR
result. -/

namespace Sys2Proof
namespace Machine

/-! Microwords (R124). -/

/-- Bits hi to lo of a microword. -/
def mbits (w : MWord) (hi lo : Nat) : Nat := w.toNat / 2 ^ lo % 2 ^ (hi + 1 - lo)

/-- Number of ones in the low `k` bits. -/
def ones : Nat → Nat → Nat
  | 0, _ => 0
  | k + 1, v => v % 2 + ones k (v / 2)

/-- Both halves have even parity. -/
def parityOk (w : MWord) : Bool := ones 72 (w.toNat % 2 ^ 72) % 2 == 0 && ones 72 (w.toNat / 2 ^ 72) % 2 == 0

/-- The store word at an address. -/
def State.uword (s : State) (n : Nat) (w : Nat) : MWord := SMap.get (fun _ => (0 : MWord)) s.mstore (4096 * n + w % 4096)

def State.setUword (s : State) (n w : Nat) (v : MWord) : State :=
  { s with mstore := SMap.put (fun _ => (0 : MWord)) s.mstore (4096 * n + w % 4096) v }

/-- Path length of the vendor routine at an entry (R101). -/
def vendorLen (e : Nat) : Option Nat := if e == 0x010 then some 9 else if e == 0x020 then some 11 else none

/-- HDR_L of an entry word, if the word is one. -/
def entryLen (w : MWord) : Option Nat := if mbits w 26 26 == 1 then some (mbits w 25 20) else none

/-- L of the routine at an entry, if the entry is one. -/
def State.pathLen (s : State) (n e : Nat) : Option Nat :=
  match vendorLen e with
  | some l => some l
  | none => entryLen (s.uword n e)

/-- CLE_LSTAT[j].L follows the word at ENTRY (R132). -/
def State.showL (s : State) (n j : Nat) : State :=
  s.setF (R.CLE_LSTAT n j) F.CLE_LSTAT_L ((s.pathLen n (s.getF (R.CLE_LCTRL n j) F.CLE_LCTRL_ENTRY)).getD 0)

def State.showLs (s : State) (n : Nat) : State := (List.range 16).foldl (fun (t : State) j => t.showL n j) s

/-! Triggers (R108 to R113). -/

/-- The lowest QUEUED loop. -/
def State.lowestQueued (s : State) (n : Fin 12) : Option (Fin 16) := (List.finRange 16).find? (fun j => s.qstate n j == 1)

/-- The sequencer falls idle; a loop that is queued then issues back to back (R179). -/
def State.seqFree (s : State) (n : Fin 12) : State :=
  let c := s.cleOf n
  (s.setCle n { c with seqr := resetSeq, blocked := false, keeps := c.seqr.who != .call && (s.lowestQueued n).isSome }).setF
    (R.CLE_STAT n) F.CLE_STAT_BUSY 0

/-- The call of the core pair gives way to a loop that becomes QUEUED, one that ended in an error too: calls add nothing to W
(R145, R184). -/
def State.abandonCall (s : State) (n : Fin 12) : State :=
  let c := s.cleOf n
  if c.blocked && c.seqr.who == .call then s.seqFree n
  else match c.call with
  | some k =>
    if k.issuing then
      ((s.setCle n { s.cleOf n with call := some { k with issuing := false }, seqr := resetSeq }).count (R.MCS_XSTAT n)
        F.MCS_XSTAT_ABANDON).showCall n
    else s
  | none => s

/-- A trigger of loop j. -/
def State.loopTrig (s : State) (n : Fin 12) (j : Fin 16) : State :=
  if !s.fitted n || !s.isSet (R.CLE_LCTRL n j) F.CLE_LCTRL_EN then s
  else if s.slState n == slRecovering then s.noteSkip n j
  else if s.slState n != slRunning || !(s.ctlOf n).unmasked || s.standby n then s
  else match s.qstate n j with
    | 0 => (s.setQ n j 1).abandonCall n
    | 1 => s.cleSkip n j
    | _ =>
      if s.isSet (R.CLE_LCTRL n j) F.CLE_LCTRL_OVR_POL && !s.isSet (R.CLE_LSTAT n j) F.CLE_LSTAT_LATE_PEND then
        s.setF (R.CLE_LSTAT n j) F.CLE_LSTAT_LATE_PEND 1
      else s.cleSkip n j

/-- CLE_SWTRIG: the loops whose bits are 1 (R108). -/
def State.swtrig (s : State) (n : Fin 12) (v : Word) : State :=
  (List.finRange 16).foldl (fun (t : State) (j : Fin 16) => if v.getLsbD j then t.loopTrig n j else t) s

/-- Loops with a trigger kind and argument, in the order of their numbers. -/
def State.loopsWith (s : State) (n : Nat) (p : Nat → Nat → Bool) : List (Fin 16) :=
  (List.finRange 16).filter (fun j => p (s.getF (R.CLE_LCTRL n j) F.CLE_LCTRL_TRIG) (s.getF (R.CLE_LCTRL n j) F.CLE_LCTRL_TRIG_ARG))

/-! The sample boundary (R114 to R120, R189). -/

def State.s16 (s : State) (a : Nat) (f : Fld) : Int := toSigned 16 (s.getF a f)

/-- The snapshot of loop j with the effects of its pending commands, before injection. -/
def State.takeSnap (s : State) (n : Fin 12) (j : Fin 16) : Snap × Effects :=
  let ls := R.CLE_LSTAT n j
  let lc := R.CLE_LCTRL n j
  let l := (s.cleOf n).loops.get j
  let eff : Effects := ⟨s.isSet ls F.CLE_LSTAT_SWAP_PEND, s.isSet ls F.CLE_LSTAT_MODE_PEND, s.isSet ls F.CLE_LSTAT_HIST_PEND⟩
  let was := s.isSet lc F.CLE_LCTRL_MODE
  let manual := was != eff.mode
  let k := if s.isSet lc F.CLE_LCTRL_BANK != eff.swap then 1 else 0
  let lo := s.s16 (R.CLE_CLAMP n j) F.CLE_CLAMP_MIN
  let hi := s.s16 (R.CLE_CLAMP n j) F.CLE_CLAMP_MAX
  let man := s.s16 (R.CLE_MAN n j) F.CLE_MAN_VALUE
  let autoFirst := eff.mode && was
  let m := if l.committed then s.s16 (R.CLE_OUT n j) F.CLE_OUT_Y else clampI lo hi man
  let h (a : Nat) (f : Fld) : Int := if eff.clear then 0 else s.s16 a f
  let y (a : Nat) (f : Fld) : Int := if autoFirst then m else h a f
  ({ ref := s.s16 (R.CLE_REF n j) F.CLE_REF_VALUE
     inp := s.s16 (R.CLE_IN n j) F.CLE_IN_VALUE
     e1 := h (R.CLE_H0 n j) F.CLE_H0_E1
     e2 := h (R.CLE_H0 n j) F.CLE_H0_E2
     e3 := h (R.CLE_H1 n j) F.CLE_H1_E3
     y1 := y (R.CLE_H1 n j) F.CLE_H1_Y1
     y2 := y (R.CLE_H2 n j) F.CLE_H2_Y2
     y3 := y (R.CLE_H2 n j) F.CLE_H2_Y3
     b0 := s.s16 (R.CLE_CB0 n j k) F.CLE_CB0_B0
     b1 := s.s16 (R.CLE_CB0 n j k) F.CLE_CB0_B1
     b2 := s.s16 (R.CLE_CB1 n j k) F.CLE_CB1_B2
     b3 := s.s16 (R.CLE_CB1 n j k) F.CLE_CB1_B3
     a1 := s.s16 (R.CLE_CB2 n j k) F.CLE_CB2_A1
     a2 := s.s16 (R.CLE_CB2 n j k) F.CLE_CB2_A2
     a3 := s.s16 (R.CLE_CB3 n j k) F.CLE_CB3_A3
     shift := s.getF (R.CLE_CB3 n j k) F.CLE_CB3_SHIFT
     min := lo
     max := hi
     man := if eff.mode && !was then l.autoY else man
     manual := manual
     autoFirst := autoFirst
     m := m
     d := 0
     node := 3
     phi := 0
     run := 0 }, eff)

/-- The snapshot with the injection of R189. -/
def State.injectSnap (s : State) (n : Fin 12) (j : Fin 16) (p : Snap) : State × Snap :=
  if s.injOn n j then
    let phi := (s.injOf n).phi
    let (t, d) := s.genValue n
    let run := (s.injOf n).runs
    if p.autoFirst then (t, { p with d := d, node := 4, phi := phi, run := run })
    else
      let q := { p with d := d, node := s.getF (R.INJ_CTRL n) F.INJ_CTRL_NODE, phi := phi, run := run }
      match q.node with
      | 0 => (t, { q with ref := satS 16 (p.ref + d) })
      | 1 => (t, { q with inp := satS 16 (p.inp - d) })
      | _ => (t, q)
  else (s, p)

/-! The datapath (R98 to R100, R126 to R128). -/

/-- v and u of an accumulator (R99). -/
def roundAcc (acc : Int) (shift : Nat) : Int := satS 16 ((acc * ((2 ^ shift : Nat) : Int) + 2 ^ 15) / 2 ^ 16)

/-- What CLAMP_Y makes of its input: CU, y and the flags (R100, R117, R118, R189). -/
structure Clamp where
  cu : Int
  y : Int
  hi : Bool
  lo : Bool

def clampY (p : Snap) (u : Int) : Clamp :=
  let d := if p.node == 2 then p.d else 0
  let cu := satS 16 (u + d)
  if p.autoFirst then ⟨cu, p.m, false, false⟩
  else
    let x := if p.manual then satS 16 (p.man + d) else cu
    ⟨cu, clampI p.min p.max x, decide (p.max < x), decide (x < p.min)⟩

/-- The exact sum P of the vendor routines (R98): with three terms or two. -/
def vendorSum (p : Snap) (e : Int) (three : Bool) : Int :=
  let two := p.b0 * e + p.b1 * p.e1 + p.b2 * p.e2 - p.a1 * p.y1 - p.a2 * p.y2
  if three then two + p.b3 * p.e3 - p.a3 * p.y3 else two

/-- The commit record of a vendor routine (R98 to R100, R134). -/
def vendorCommit (p : Snap) (eff : Effects) (three : Bool) : CommitRec :=
  let e := satS 16 (p.ref - p.inp)
  let u := roundAcc (2 * vendorSum p e three) p.shift
  let c := clampY p u
  { u := u, y := c.y, e := e, cu := c.cu, hist := if three then 3 else 2, hi := c.hi, lo := c.lo, snap := p, eff := eff,
    compared := false, cmp := 0, half := false, held := none }

/-- A zero snapshot, read by attached calls. -/
def zeroSnap : Snap :=
  { ref := 0, inp := 0, e1 := 0, e2 := 0, e3 := 0, y1 := 0, y2 := 0, y3 := 0, b0 := 0, b1 := 0, b2 := 0, b3 := 0, a1 := 0,
    a2 := 0, a3 := 0, shift := 0, min := 0, max := 0, man := 0, manual := false, autoFirst := false, m := 0, d := 0, node := 3,
    phi := 0, run := 0 }

/-- The value of an operand address (R126). -/
def operand (p : Snap) (q : SeqSt) (k : Nat) : Int :=
  match k with
  | 0x00 => 0
  | 0x01 => p.ref
  | 0x02 => p.inp
  | 0x03 => p.e1
  | 0x04 => p.e2
  | 0x05 => p.e3
  | 0x06 => p.y1
  | 0x07 => p.y2
  | 0x08 => p.y3
  | 0x09 => p.b0
  | 0x0A => p.b1
  | 0x0B => p.b2
  | 0x0C => p.b3
  | 0x0D => p.a1
  | 0x0E => p.a2
  | 0x0F => p.a3
  | 0x10 => p.min
  | 0x11 => p.max
  | 0x12 => p.man
  | 0x13 => 0x7FFF
  | 0x14 => -0x8000
  | 0x15 => 0x4000
  | 0x16 => q.cy
  | 0x17 => q.cu
  | _ => q.t.get ⟨k % 8, Nat.mod_lt _ (by decide)⟩

/-- T register k. -/
def SeqSt.tr (q : SeqSt) (k : Nat) : Int := q.t.get ⟨k % 8, Nat.mod_lt _ (by decide)⟩

def SeqSt.setT (q : SeqSt) (k : Nat) (v : Int) : SeqSt := { q with t := q.t.set (k % 8) v (Nat.mod_lt _ (by decide)) }

/-- MOP (R127): the new accumulator and whether it saturated. -/
def mopValue (w : MWord) (acc : Int) (v : Nat → Int) : Int × Bool :=
  let m0 := v (mbits w 31 27) * v (mbits w 36 32)
  let m1 := v (mbits w 41 37) * v (mbits w 46 42)
  let x := match mbits w 49 47 with
    | 1 => 2 * (m0 + m1)
    | 2 => acc + 2 * (m0 + m1)
    | 3 => 2 * (m0 - m1)
    | 4 => acc + 2 * (m0 - m1)
    | 5 => acc + v (mbits w 31 27) * 2 ^ 16
    | 6 => 0
    | _ => acc
  (satS 40 x, x != satS 40 x)

/-- ALU (R124). -/
def aluValue (w : MWord) (v : Nat → Int) : Int :=
  let a := v (mbits w 55 51)
  let b := v (mbits w 60 56)
  satS 16 (match mbits w 63 61 with
    | 1 => a + b
    | 2 => a - b
    | 3 => -a
    | 4 => max a b
    | 5 => min a b
    | 6 => a
    | 7 => if a < 0 then -a else a
    | _ => 0)

/-- COND (R131). -/
def condHolds (p : Snap) (q : SeqSt) (att : Bool) (k : Nat) : Bool :=
  match k with
  | 0 => true
  | 1 => p.manual
  | 2 => p.autoFirst
  | 3 => decide (q.acc0 < 0)
  | 4 => q.acc0 == 0
  | 5 => q.accSat
  | 6 => decide (q.tr 0 < 0)
  | 7 => q.clamped
  | 8 => att
  | _ => false

/-- The fields of a word act on the datapath (R125 to R129); `arrive` is the READ that arrives. All operands are read before
any result is written. -/
def actWord (p : Snap) (w : MWord) (q : SeqSt) : SeqSt :=
  let v := operand p q
  let sel := mbits w 50 50
  let (acc, sat) := mopValue w (if sel == 0 then q.acc0 else q.acc1) v
  let shr := mbits w 75 72
  let rnd := match shr with
    | 1 => roundAcc q.acc0 p.shift
    | 2 => roundAcc q.acc0 (mbits w 79 76)
    | 3 => roundAcc q.acc1 p.shift
    | _ => roundAcc q.acc1 (mbits w 79 76)
  let alu := aluValue w v
  let c := clampY p (q.tr (mbits w 88 86))
  let clp := mbits w 85 83 == 1
  let u := q.tr (mbits w 88 86)
  let q1 := if sel == 0 then { q with acc0 := acc, accSat := q.accSat || sat } else { q with acc1 := acc, accSat := q.accSat || sat }
  let q2 := if mbits w 67 67 == 1 then q1.setT (mbits w 66 64) alu else q1
  let q3 := if shr == 0 then q2 else q2.setT (mbits w 82 80) rnd
  let q4 := match q.reads with
    | some (k, x) => q3.setT k x
    | none => q3
  let q5 := { q4 with reads := none }
  if clp then { q5 with cy := c.y, cu := c.cu, cu0 := u, clamped := c.hi || c.lo, hadClamp := true, hi := c.hi, lo := c.lo } else q5

/-! Routine errors (R132, R133). -/

def errPath : Nat := 1
def errNotEntry : Nat := 2
def errCommit : Nat := 3
def errTag : Nat := 4
def errDwr : Nat := 5
def errStack : Nat := 6

/-- The error of a word before its accesses: PATH, COMMIT, DWR_OFF or STACK. -/
def wordError (w : MWord) (q : SeqSt) (att dwr : Bool) : Option Nat :=
  let fin := mbits w 15 12 == 6
  let last := q.words + 1 == q.len
  let cmt := mbits w 118 115
  let clp := mbits w 85 83 == 1
  if fin != last then some errPath
  else if (!fin && cmt != 0) || (fin && cmt != (if att then 2 else 1)) || (fin && !att && !q.hadClamp && !clp) || (att && clp) then
    some errCommit
  else if mbits w 90 89 == 2 && !dwr then some errDwr
  else if (mbits w 15 12 == 3 && decide (2 ≤ q.stack.length)) || (mbits w 15 12 == 4 && q.stack.isEmpty) then some errStack
  else none

/-- Record a routine error (R133): `loop` is none for a call. -/
def State.routineError (s : State) (n : Fin 12) (loop : Option (Fin 16)) (addr cause : Nat) : State :=
  let r := F.MCS_RERR_VALID.word 1 ||| F.MCS_RERR_CAUSE.word cause ||| F.MCS_RERR_ADDR.word addr |||
    (match loop with | some j => F.MCS_RERR_LOOP.word j.val | none => F.MCS_RERR_ATT.word 1)
  let s1 := (s.setReg (R.MCS_RERR n) r).count (R.MCS_RERR_CNT n) F.MCS_RERR_CNT_COUNT
  let s2 := (s1.setF (R.MCS_STAT n) F.MCS_STAT_RERR_F 1).fireLocal n 18
  match loop with
  | some j => s2.cleSkip n j
  | none => s2

/-- The core's pending A takes the result of a call, EMPTY for a failed one (R145, R224). -/
def State.callResult (s : State) (n : Fin 12) (c : Cell) : State :=
  let k := s.coreOf (pairOf n)
  let s1 := s.setCore (pairOf n) { k with att := false, r := { k.r with
    a := BitVec.ofNat 40 (if c.tag == tagQ31 then ofSigned 40 (c.v.toInt) else c.v.toNat), atag := c.tag }, log := .result c :: k.log }
  (s1.setCle n { s1.cleOf n with call := none }).showCall n

/-- The call of the core pair ends with no result: its pair has been reset (R56, R250). -/
def State.dropCall (s : State) (n : Fin 12) : State :=
  let t := match (s.cleOf n).call with
    | some k => if k.issuing then s.seqFree n else s
    | none => s
  (t.setCle n { t.cleOf n with call := none }).showCall n

/-- The sample of loop j ends in an error. The CLE stays occupied until cycle c0 + L (R133). -/
def State.sampleError (s : State) (n : Fin 12) (j : Fin 16) (addr cause : Nat) : State :=
  let s1 := (s.routineError n (some j) addr cause).setF (R.CLE_LSTAT n j) F.CLE_LSTAT_AUTO_FIRST 0
  let c := s1.cleOf n
  let l := c.loops.get j
  let q := c.seqr
  let c1 := { c with loops := c.loops.set j { l with errored := true, commit := none } }
  if cause == errNotEntry || q.len ≤ q.words + 1 then ((s1.setCle n c1).seqFree n).setQ n j 3
  else s1.setCle n { c1 with blocked := true, seqr := { q with words := q.words + 1 } }

/-- The call ends in an error: A becomes EMPTY. The CLE stays occupied until the length declared has passed, unless a loop
becomes QUEUED (R133, R145). -/
def State.callError (s : State) (n : Fin 12) (addr cause : Nat) : State :=
  let s1 := (s.routineError n none addr cause).callResult n emptyCell
  let c := s1.cleOf n
  let q := c.seqr
  if cause == errNotEntry || q.len ≤ q.words + 1 then s1.seqFree n
  else s1.setCle n { c with blocked := true, seqr := { q with words := q.words + 1 } }

/-- A word failed its parity at the fetch (R137): a CLE machine check. -/
def State.machineCheck (s : State) (n : Fin 12) (w : Nat) : State :=
  let a := R.MCS_PARITY n
  let s1 := ((s.count a F.MCS_PARITY_COUNT).setF a F.MCS_PARITY_ADDR w).setF (R.MCS_STAT n) F.MCS_STAT_PARITY_F 1
  (s1.setCtl n { s1.ctlOf n with mcheck := true, badWord := some w }).recoverable n 3

/-! A word issues. -/

/-- A commit delay of R476 is running: the CLE issues nothing. -/
def CleSt.stalled (c : CleSt) (now : Nat) : Bool :=
  c.loops.toList.any (fun l => match l.commit with
    | some r => (match r.held with | some (a, b) => decide (a ≤ now) && decide (now < b) | none => false)
    | none => false)

/-- The record of loop j waits at the commit port, with the phase of its routine, and the CLE is free for the next loop (R105,
R179). -/
def State.toCommit (s : State) (n : Fin 12) (j : Fin 16) (r : CommitRec) : State :=
  let c := s.cleOf n
  let s1 := s.setCle n { c with loops := c.loops.set j { c.loops.get j with commit := some { r with half := c.half } } }
  (s1.seqFree n).setQ n j 3

/-- Next address, repeat count and return stack (R130, R131). Word 0x000 follows word 0xFFF (log 190). -/
def nextWord (p : Snap) (w : MWord) (q : SeqSt) (att : Bool) : Nat × Nat × List Nat :=
  let a1 := (q.upc + 1) % 4096
  let nx := mbits w 11 0
  match mbits w 15 12 with
  | 1 => (nx, 0, q.stack)
  | 2 => (if condHolds p q att (mbits w 19 16) then nx else a1, 0, q.stack)
  | 3 => (nx, 0, a1 :: q.stack)
  | 4 => (q.stack.headD 0, 0, q.stack.drop 1)
  | 5 =>
    let left := if q.rep == 0 then nx % 64 else q.rep - 1
    if left == 0 then (a1, 0, q.stack) else (q.upc, left, q.stack)
  | _ => (a1, 0, q.stack)

/-- The memory field of a word: a READ puts its value on the way to MEM_DST, a WRITE_DIRECT stores at once (R125, R135). The
answer tells whether the cell was uncorrectable, and whether it had a wrong tag. -/
def State.memField (s : State) (n : Fin 12) (w : MWord) (q : SeqSt) (loop : Option (Fin 16)) :
    State × Option (Nat × Int) × Bool × Bool :=
  let a := smem n (4 * mbits w 107 91)
  match mbits w 90 89 with
  | 1 =>
    let r := s.rd a
    if r.ue then (r.st, none, true, false)
    else if r.c.tag != tagFrac2 && r.c.tag != tagQ31 then (r.st, none, false, true)
    else (r.st, some (mbits w 110 108, if mbits w 111 111 == 0 then q15lo r.c.v else q15hi r.c.v), false, false)
  | 2 =>
    let b := match loop with | some j => j.val | none => 16
    let s1 := s.wr none a ⟨pack16 (q.tr (mbits w 110 108)) 0, tagFrac2⟩
    (s1.setReg (R.MCS_DWR n) (setBitW (s1.reg (R.MCS_DWR n)) b true), none, false, false)
  | _ => (s, none, false, false)

/-- Result of a customer call (R145). -/
def coreResult (w : MWord) (q : SeqSt) : Cell :=
  if mbits w 127 125 == 1 then ⟨BitVec.ofNat 32 (ofSigned 32 (satS 32 q.acc0)), tagQ31⟩
  else ⟨pack16 (q.tr (mbits w 121 119)) (q.tr (mbits w 124 122)), tagFrac2⟩

/-- The word at the sequencer's address issues for loop `loop`, or for a call. -/
def State.issueWord (s : State) (n : Fin 12) (loop : Option (Fin 16)) (p : Snap) (eff : Effects) : State :=
  let q := (s.cleOf n).seqr
  let w := s.uword n q.upc
  let att := loop.isNone
  let fail (t : State) (cause : Nat) : State := match loop with
    | some j => t.sampleError n j q.upc cause
    | none => t.callError n q.upc cause
  if !parityOk w then s.machineCheck n q.upc
  else match wordError w q att (s.isSet (R.MCS_CTRL n) F.MCS_CTRL_DWR_EN) with
    | some cause => fail s cause
    | none =>
      let (t, rd, ue, bad) := s.memField n w q loop
      if ue then t.recoverable n 4
      else if bad then fail t errTag
      else
        let q1 := actWord p w q
        if mbits w 15 12 == 6 then
          match loop with
          | some j => t.toCommit n j
              { u := q1.cu0, y := q1.cy, e := q.tr (mbits w 121 119), cu := q1.cu, hist := mbits w 114 112, hi := q1.hi,
                lo := q1.lo, snap := p, eff := eff, compared := false, cmp := 0, half := false, held := none }
          | none =>
            let c := t.cleOf n
            (t.setCle n { c with call := c.call.map (fun (k : CallSt) =>
              { k with issuing := false, result := some (coreResult w q) }) }).seqFree n |>.showCall n
        else
          let (upc, rep, stack) := nextWord p w q att
          t.setCle n { t.cleOf n with seqr := { q1 with upc := upc, rep := rep, stack := stack, words := q.words + 1, reads := rd } }

/-- A word of a vendor routine issues: its parity is checked, and the last word brings the record to the commit port. -/
def State.vendorWord (s : State) (n : Fin 12) (j : Fin 16) (p : Snap) (eff : Effects) : State :=
  let c := s.cleOf n
  let q := c.seqr
  if !parityOk (s.uword n q.upc) then s.machineCheck n q.upc
  else if q.words + 1 < q.len then s.setCle n { c with seqr := { q with words := q.words + 1, upc := q.upc + 1 } }
  else s.toCommit n j (vendorCommit p eff (q.len == 11))

/-- LOOP_ISSUE: the sample boundary of the lowest queued loop and its first microword, when no routine is issuing (R110,
R114). `coll`: a write of the loop's MANUAL_VALUE commits in this cycle; under TO_MANUAL it is dropped (R119). After an idle
interval the routine takes the phase at which the loop became eligible; back to back it keeps the phase (R179). -/
def State.loopIssue (s : State) (n : Fin 12) (at_ : IssueAt) : State :=
  let c := s.cleOf n
  match s.lowestQueued n with
  | none => s
  | some j =>
    if c.blocked || c.seqr.who != .none || s.slState n != slRunning || s.standby n || c.stalled s.clock then s
    else
      let l := c.loops.get j
      let s1 := if l.late then (s.count (R.CLE_OVR n j) F.CLE_OVR_LATE).cleFlag n j F.CLE_LSTAT_LATE_F else s
      let (p0, eff) := s1.takeSnap n j
      let s2 := if at_.coll && p0.manual && eff.mode then
          (s1.count (R.CLE_WRCOLL n) F.CLE_WRCOLL_COUNT).setF (R.CLE_LSTAT n j) F.CLE_LSTAT_WRCOLL_F 1
        else s1
      let (s3, p) := s2.injectSnap n j p0
      let s4 := (s3.setQ n j 2).setB (R.CLE_LSTAT n j) F.CLE_LSTAT_AUTO_FIRST p.autoFirst
      let s5 := (s4.setF (R.CLE_STAT n) F.CLE_STAT_CUR j).setF (R.CLE_STAT n) F.CLE_STAT_BUSY 1
      let entry := s5.getF (R.CLE_LCTRL n j) F.CLE_LCTRL_ENTRY
      let seq : SeqSt := { resetSeq with who := .loop j p eff, upc := entry, len := (s5.pathLen n entry).getD 1 }
      let loops := c.loops.set j { l with late := false, manNew := false }
      let s6 := s5.setCle n { s5.cleOf n with seqr := seq, loops := loops, half := if c.keeps then c.half else at_.half }
      match vendorLen entry with
      | some _ => s6.vendorWord n j p eff
      | none =>
        if !parityOk (s6.uword n entry) then s6.machineCheck n entry
        else match entryLen (s6.uword n entry) with
          | none => s6.sampleError n j entry errNotEntry
          | some _ => s6.issueWord n (some j) p eff

/-! Vendor entries of the core (R144). -/

/-- Path length and operand tags of a vendor entry: whether it takes X. -/
def vendorEntry (k : Nat) : Option (Nat × Bool) :=
  match k with
  | 0 => some (4, false)
  | 1 => some (5, true)
  | 2 => some (5, true)
  | 3 => some (3, true)
  | 4 => some (2, true)
  | _ => none

/-- A lane: x / d, limited to Q15; the rounding of an inexact value is a free value (log 25). -/
def State.lane (s : State) (x d : Int) : State × Int :=
  if x % d = 0 then (s, satS 16 (x / d))
  else (s.fresh, satS 16 (x / d + (if Config.freeBit s.free then 1 else 0)))

/-- The result of a vendor entry on the payloads of A and X. -/
def State.vendorCall (s : State) (k : Nat) (a x : Word) : State × Cell :=
  let a0 := q15lo a
  let a1 := q15hi a
  let x0 := q15lo x
  let x1 := q15hi x
  let two (r0 : Int) (r1 : Int) : State × Cell :=
    let (t, y0) := s.lane r0 32768
    let (u, y1) := t.lane r1 32768
    (u, ⟨pack16 y0 y1, tagFrac2⟩)
  match k with
  | 0 =>
    let v := a0 + 2 * a1
    let f : Int := isqrt ((v * v / 3).toNat)
    let lo := if v < 0 then -f - 1 else f
    if v = 0 then (s, ⟨pack16 a0 0, tagFrac2⟩)
    else (s.fresh, ⟨pack16 a0 (satS 16 (lo + (if Config.freeBit s.free then 1 else 0))), tagFrac2⟩)
  | 1 => two (a0 * x1 + a1 * x0) (a1 * x1 - a0 * x0)
  | 2 => two (a0 * x1 - a1 * x0) (a0 * x0 + a1 * x1)
  | 3 => (s, ⟨BitVec.ofNat 32 (ofSigned 32 (satS 32 (2 * (a0 * x0 + a1 * x1)))), tagQ31⟩)
  | _ => (s, ⟨pack16 (satS 16 (a0 + x0)) (satS 16 (a1 + x1)), tagFrac2⟩)

/-- MICROWORD_ISSUE: the next word of the routine in progress issues; in a cycle that an errored sample still occupies,
nothing acts (R125, R133), and during a commit delay nothing issues (R476). -/
def State.microword (s : State) (n : Fin 12) : State :=
  let c := s.cleOf n
  let q := c.seqr
  if c.stalled s.clock then s
  else if c.blocked then
    if q.words + 1 < q.len then s.setCle n { c with seqr := { q with words := q.words + 1 } }
    else
      let s1 := s.seqFree n
      match q.who with
      | .loop j _ _ => s1.setQ n j 3
      | _ => s1
  else match q.who with
    | .none => s
    | .loop j p eff =>
      match vendorLen (s.getF (R.CLE_LCTRL n j) F.CLE_LCTRL_ENTRY) with
      | some _ => s.vendorWord n j p eff
      | none => s.issueWord n (some j) p eff
    | .call =>
      match c.call with
      | some k =>
        if k.k < 128 then
          if !parityOk (s.uword n q.upc) then s.machineCheck n q.upc
          else if q.words + 1 < q.len then s.setCle n { c with seqr := { q with words := q.words + 1, upc := q.upc + 1 } }
          else
            let (t, r) := s.vendorCall k.k k.a k.x
            ((t.setCle n { c with call := some { k with issuing := false, result := some r } }).seqFree n).showCall n
        else s.issueWord n none zeroSnap ⟨false, false, false⟩
      | none => s.seqFree n

/-! The commit port (R96, R102 to R106). -/

/-- The compare value of a PWM target (R103). -/
def compareValue (y : Int) (per : Nat) (full : Bool) : Nat :=
  if y ≤ 0 then 0 else if full && y == 0x7FFF then cmpFull else (y * (per : Int) * 16 / 2 ^ 15).toNat

/-- COMMIT_COMPARE: on agreement the write begins, after the commit delay of R476 where the slice's unit acts; on disagreement
nothing is written and the slice recovers. -/
def State.commitCompare (s : State) (n : Fin 12) (j : Fin 16) (agree : Bool) : State :=
  let c := s.cleOf n
  let l := c.loops.get j
  match l.commit with
  | none => s
  | some r =>
    if r.compared then s
    else if agree then
      let per := s.getF (R.PWM_PER n (s.getF (R.CLE_TGT n j) F.CLE_TGT_IDX)) F.PWM_PER_VALUE
      let v := compareValue r.y per (s.isSet (R.CLE_LCTRL n j) F.CLE_LCTRL_FULL_EN)
      let d := s.getF (R.PTB_CLE n) F.PTB_CLE_DELAY
      let held := if d != 0 && s.ptbActs n.castSucc then some (s.clock + 1, s.clock + 1 + d) else none
      s.setCle n { c with loops := c.loops.set j { l with commit := some { r with compared := true, cmp := v, held := held } } }
    else
      let s1 := s.count (R.CLE_MISMATCH n) F.CLE_MISMATCH_COUNT
      (s1.setCtl n { s1.ctlOf n with mcheck := true }).recoverable n 2

/-- The target's new value (R102 to R104). `coll`: another write to it falls in the same cycle and is lost (R107). -/
def State.writeTarget (s : State) (n : Fin 12) (j : Fin 16) (r : CommitRec) (coll : Bool) : State :=
  let a := R.CLE_TGT n j
  let i := s.getF a F.CLE_TGT_IDX
  match s.getF a F.CLE_TGT_KIND with
  | 1 => s.commitCmp n ⟨i % 8, Nat.mod_lt _ (by decide)⟩ r.cmp coll r.half
  | 2 =>
    let s1 := s.setReg (R.CLE_REF n i) (pack16 r.y 0)
    if coll then (s1.count (R.CLE_WRCOLL n) F.CLE_WRCOLL_COUNT).setF (R.CLE_LSTAT n i) F.CLE_LSTAT_WRCOLL_F 1 else s1
  | 3 => s.wr none (smem n (4 * s.getF a F.CLE_TGT_OFS)) ⟨pack16 r.y r.u, tagFrac2⟩
  | _ => s

/-- What the record wrote to its target, for the twin (R395). -/
def State.targetValue (s : State) (n : Fin 12) (j : Fin 16) (r : CommitRec) : Word :=
  match s.getF (R.CLE_TGT n j) F.CLE_TGT_KIND with
  | 1 => BitVec.ofNat 32 r.cmp
  | 2 => pack16 r.y 0
  | 3 => pack16 r.y r.u
  | _ => 0

/-- Histories of a record (R100, R134): e1 e2 e3, y1 y2 y3. -/
def newHist (r : CommitRec) : (Int × Int × Int) × (Int × Int × Int) :=
  let p := r.snap
  match r.hist with
  | 0 => ((p.e1, p.e2, p.e3), (p.y1, p.y2, p.y3))
  | 1 => ((r.e, p.e2, p.e3), (r.y, p.y2, p.y3))
  | 2 => ((r.e, p.e1, p.e3), (r.y, p.y1, p.y3))
  | _ => ((r.e, p.e1, p.e2), (r.y, p.y1, p.y2))

/-- The loop's histories. -/
def State.setHist (s : State) (n : Fin 12) (j : Fin 16) (e y : Int × Int × Int) : State :=
  ((s.setReg (R.CLE_H0 n j) (pack16 e.1 e.2.1)).setReg (R.CLE_H1 n j) (pack16 e.2.2 y.1)).setReg (R.CLE_H2 n j)
    (pack16 y.2.1 y.2.2)

/-- A command of R115 becomes loop state: its pending bit clears, and it is replicated (R114, R396). -/
def State.cmdDone (s : State) (n : Fin 12) (j : Fin 16) (pend : Fld) (code : Nat) : State :=
  (s.setF (R.CLE_LSTAT n j) pend 0).twinConfig n 0x4008 (BitVec.ofNat 32 (0x0C1E0000 + 256 * j.val + code))

/-- The effects of the sample's commands become loop state (R97, R114, R116, R119); MANUAL_VALUE keeps what software wrote
after the boundary. -/
def State.applyEffects (s : State) (n : Fin 12) (j : Fin 16) (r : CommitRec) : State :=
  let lc := R.CLE_LCTRL n j
  let s1 := if r.eff.swap then
      ((s.setB lc F.CLE_LCTRL_BANK (!s.isSet lc F.CLE_LCTRL_BANK)).cmdDone n j F.CLE_LSTAT_SWAP_PEND 1).descDone (.swap n j)
        0 (b2n (!s.isSet lc F.CLE_LCTRL_BANK)) else s
  let s2 := if r.eff.mode then
      let t := ((s1.setB lc F.CLE_LCTRL_MODE r.snap.manual).cmdDone n j F.CLE_LSTAT_MODE_PEND
        (if r.snap.manual then 3 else 2)).descDone (.mode n j) 0 (b2n r.snap.manual)
      if r.snap.manual && !((s.cleOf n).loops.get j).manNew then t.setReg (R.CLE_MAN n j) (pack16 r.snap.man 0) else t
    else s1
  if r.eff.clear then s2.cmdDone n j F.CLE_LSTAT_HIST_PEND 4 else s2

/-- The loop's state after a commit, for the twin (R395). -/
def State.loopImage (s : State) (n : Fin 12) (j : Fin 16) (value : Word) (autoFirst : Bool) : LoopImage :=
  let h (a : Nat) (f : Fld) : BitVec 16 := BitVec.ofNat 16 (s.getF a f)
  { bank := s.isSet (R.CLE_LCTRL n j) F.CLE_LCTRL_BANK
    mode := s.isSet (R.CLE_LCTRL n j) F.CLE_LCTRL_MODE
    autoFirst := autoFirst
    ptb := s.ptbFlag n
    seq := BitVec.ofNat 8 (s.getF (R.CLE_LSTAT n j) F.CLE_LSTAT_SEQ)
    time := s.mtime
    ref := h (R.CLE_REF n j) F.CLE_REF_VALUE
    inp := h (R.CLE_IN n j) F.CLE_IN_VALUE
    e1 := h (R.CLE_H0 n j) F.CLE_H0_E1
    e2 := h (R.CLE_H0 n j) F.CLE_H0_E2
    e3 := h (R.CLE_H1 n j) F.CLE_H1_E3
    y1 := h (R.CLE_H1 n j) F.CLE_H1_Y1
    y2 := h (R.CLE_H2 n j) F.CLE_H2_Y2
    y3 := h (R.CLE_H2 n j) F.CLE_H2_Y3
    u := h (R.CLE_OUT n j) F.CLE_OUT_RAW
    y := h (R.CLE_OUT n j) F.CLE_OUT_Y
    man := h (R.CLE_MAN n j) F.CLE_MAN_VALUE
    clampHi := s.isSet (R.CLE_LSTAT n j) F.CLE_LSTAT_CLAMP_HI_F
    clampLo := s.isSet (R.CLE_LSTAT n j) F.CLE_LSTAT_CLAMP_LO_F
    value := value
    tgt := s.reg (R.CLE_TGT n j) }

/-- The loop returns to IDLE, or to QUEUED for the sample it owes (R113). -/
def State.loopIdle (s : State) (n : Fin 12) (j : Fin 16) : State :=
  let ls := R.CLE_LSTAT n j
  let c := s.cleOf n
  let l := c.loops.get j
  let owed := s.isSet ls F.CLE_LSTAT_LATE_PEND && s.slState n == slRunning && (s.ctlOf n).unmasked
  let s1 := (s.setF ls F.CLE_LSTAT_AUTO_FIRST 0).setCle n
    { c with loops := c.loops.set j { l with commit := none, errored := false, late := owed } }
  if owed then ((s1.setF ls F.CLE_LSTAT_LATE_PEND 0).setQ n j 1).abandonCall n else s1.setQ n j 0

/-- The errored sample of loop j still occupies the CLE (R133). -/
def CleSt.blocks (c : CleSt) (j : Fin 16) : Bool :=
  c.blocked && (match c.seqr.who with | .loop i _ _ => i == j | _ => false)

/-- COMMIT_COMPLETE: the write ends, the loop's state is that of the record, the loop returns to IDLE, and its chained loops
are triggered (R97, R105, R108). For an errored sample, only the loop returns to IDLE (R133). -/
def State.commitComplete (s : State) (n : Fin 12) (j : Fin 16) (coll : Bool) : State :=
  let l := (s.cleOf n).loops.get j
  match l.commit with
  | some r =>
    if !r.compared || (match r.held with | some (_, b) => decide (s.clock < b) | none => false) then s
    else
      let ls := R.CLE_LSTAT n j
      let s1 := s.writeTarget n j r coll
      let (e, y) := newHist r
      let s2 := ((s1.setHist n j e y).setReg (R.CLE_OUT n j) (pack16 r.y r.u)).applyEffects n j r
      let s3 := if r.hi then s2.setF ls F.CLE_LSTAT_CLAMP_HI_F 1 else s2
      let s4 := (if r.lo then s3.setF ls F.CLE_LSTAT_CLAMP_LO_F 1 else s3).countWrap ls F.CLE_LSTAT_SEQ
      let c4 := s4.cleOf n
      let l4 := c4.loops.get j
      let s5 := s4.setCle n
        { c4 with loops := c4.loops.set j { l4 with committed := true, autoY := if r.snap.manual then l4.autoY else r.y } }
      let s6 := s5.injCommit n j r
      let s7 := if s6.active n then
          s6.twinSend (.loopRec false n j (s6.loopImage n j (s6.targetValue n j r) r.snap.autoFirst) (s6.twn.cfgSent.get n)) else s6
      let s8 := s7.loopIdle n j
      (s8.loopsWith n (fun k a => k == 2 && a % 16 == j.val)).foldl (fun (t : State) i => t.loopTrig n i) s8
  | none => if l.errored && !(s.cleOf n).blocks j then s.loopIdle n j else s

/-! Commands (R115). -/

/-- The pending bit of a command code. -/
def cmdPend (code : Nat) : Option Fld :=
  match code with
  | 1 => some F.CLE_LSTAT_SWAP_PEND
  | 2 => some F.CLE_LSTAT_MODE_PEND
  | 3 => some F.CLE_LSTAT_MODE_PEND
  | 4 => some F.CLE_LSTAT_HIST_PEND
  | _ => none

/-- Status of a command: 0 OK, 1 BUSY, 2 REFUSED, 5 PARAM, the first that applies in the order PARAM, REFUSED, BUSY
(log 161). A command after the acceptance of a FENCE, before the slice reads FENCED, is judged by the state that still stands
(log 189). -/
def State.cleStatus (s : State) (n j key code : Nat) : Nat :=
  match cmdPend code with
  | none => 5
  | some f =>
    let manual := s.isSet (R.CLE_LCTRL n j) F.CLE_LCTRL_MODE
    if key != 0x0C1E then 5
    else if !(s.slState n == slReady || s.slState n == slRunning) || !s.isSet (R.CLE_LCTRL n j) F.CLE_LCTRL_EN ||
        (code == 2 && !manual) || (code == 3 && manual) || s.standby n then 2
    else if s.isSet (R.CLE_LSTAT n j) f then 1
    else 0

/-- A write of CLE_CMD. -/
def State.cleCmd (s : State) (n : Fin 12) (v : Word) : State :=
  let j := F.CLE_CMD_LOOP.get v
  let code := F.CLE_CMD_CMD.get v
  let st := s.cleStatus n j (F.CLE_CMD_KEY.get v) code
  let a := R.CLE_CMD_STAT n
  let s1 := ((s.setF a F.CLE_CMD_STAT_LAST_LOOP j).setF a F.CLE_CMD_STAT_LAST_CMD code).setF a F.CLE_CMD_STAT_STATUS st
  if st != 0 then s1.count a F.CLE_CMD_STAT_REJ
  else match cmdPend code with
    | some f => s1.setF (R.CLE_LSTAT n j) f 1
    | none => s1

/-! Configuration writes (R121). -/

def State.cleRefuse (s : State) (n : Nat) : State := s.count (R.CLE_CFG_REJ n) F.CLE_CFG_REJ_COUNT

/-- ENTRY is a vendor entry, or lies in a customer partition that is fitted. -/
def State.entryOk (s : State) (e : Nat) : Bool := (vendorLen e).isSome || (s.part.full && decide (0x800 ≤ e))

def State.lctrlWrite (s : State) (n : Fin 12) (j : Nat) (v : Word) : State :=
  let trig := F.CLE_LCTRL_TRIG.get v
  let arg := F.CLE_LCTRL_TRIG_ARG.get v
  if s.slState n != slFenced || !s.entryOk (F.CLE_LCTRL_ENTRY.get v) || (trig == 1 && !trigSrcOk n arg) ||
      (trig == 2 && arg % 16 == j) then s.cleRefuse n
  else ((s.setReg (R.CLE_LCTRL n j) (v &&& 0xFFFF1FFF)).showL n j).showSync

/-- Another loop already names the channel or reference (R102). -/
def State.targetTaken (s : State) (n j kind idx : Nat) : Bool :=
  (List.range 16).any (fun i => i != j && s.getF (R.CLE_TGT n i) F.CLE_TGT_KIND == kind && s.getF (R.CLE_TGT n i) F.CLE_TGT_IDX == idx)

def State.tgtWrite (s : State) (n : Fin 12) (j : Nat) (v : Word) : State :=
  let k := F.CLE_TGT_KIND.get v
  let i := F.CLE_TGT_IDX.get v
  if s.slState n != slFenced || (k == 1 && decide (7 < i)) || (k == 2 && i == j) || ((k == 1 || k == 2) && s.targetTaken n j k i) then
    s.cleRefuse n
  else s.setReg (R.CLE_TGT n j) (v &&& 0xC0F7FFFC)

/-- A write of coefficient register r (0 to 3) of bank k (R116, R121). -/
def State.bankWrite (s : State) (n : Fin 12) (j k r : Nat) (a : Nat) (v : Word) : State :=
  let activeBank := s.getF (R.CLE_LCTRL n j) F.CLE_LCTRL_BANK == k
  if s.isSet (R.CLE_LSTAT n j) F.CLE_LSTAT_SWAP_PEND || (activeBank && s.slState n != slFenced) ||
      (r == 3 && decide (8 < F.CLE_CB3_SHIFT.get v)) then s.cleRefuse n
  else
    let w := if r == 3 then v &&& 0x000FFFFF else v
    (s.setReg a w).twinConfig n (a - sliceBase n) w

/-- A write of MANUAL_VALUE: it applies from the next boundary (R119). -/
def State.manWrite (s : State) (n : Fin 12) (j a : Nat) (v : Word) : State :=
  let c := s.cleOf n
  let i : Fin 16 := ⟨j % 16, Nat.mod_lt _ (by decide)⟩
  let s1 := s.setCle n { c with loops := c.loops.set i { c.loops.get i with manNew := true } }
  (s1.setReg a v).twinConfig n (a - sliceBase n) v

/-- A write of a loop register at offset o of the loop's block. In a standby slice the reference, the clamp, MANUAL_VALUE and
the coefficients come from received records only (R393, log 176). -/
def State.loopWrite (s : State) (n : Fin 12) (j o : Nat) (a : Nat) (v : Word) : State :=
  if s.standby n && (o == 0x0C || decide (0x18 ≤ o)) then s.cleRefuse n
  else if o == 0x00 then s.lctrlWrite n j v
  else if o == 0x04 then s.setReg a (s.reg a &&& ~~~ (v &&& 0xF8000000))
  else if o == 0x08 then s.tgtWrite n j v
  else if o == 0x0C || o == 0x10 then s.setReg a (v &&& 0x0000FFFF)
  else if o == 0x18 then
    if decide (toSigned 16 (F.CLE_CLAMP_MAX.get v) < toSigned 16 (F.CLE_CLAMP_MIN.get v)) then
      s.cleRefuse n
    else (s.setReg a v).twinConfig n (a - sliceBase n) v
  else if o == 0x1C then s.manWrite n j a (v &&& 0x0000FFFF)
  else if 0x20 ≤ o ∧ o < 0x40 then s.bankWrite n j ((o - 0x20) / 0x10) (o % 0x10 / 4) a v
  else s

/-- Any write of the CLE block of slice n below the MCS registers. -/
def State.cleWrite (s : State) (n : Fin 12) (a : Nat) (v : Word) : State :=
  let o := a - (sliceBase n + 0x4000)
  if o == 0x04 then s.swtrig n v
  else if o == 0x08 then s.cleCmd n v
  else if 0x100 ≤ o ∧ o < 0x500 then s.loopWrite n ((o - 0x100) / 0x40) ((o - 0x100) % 0x40) a v
  else if 0x800 ≤ o ∧ o < 0x900 ∧ o % 0x10 < 0xC then (if s.slState n == slFenced then s.setReg a v else s.cleRefuse n)
  else s

/-! The hand-off of a SAR result (R87 to R90). -/

/-- SAR_HANDOFF: the oldest result of converter k lands; in RECOVERING, SAFE and OFF it is lost (R84). `coll`: a core write
of the input register falls in the same cycle and is lost (R107). -/
def State.sarHandoff (s : State) (n : Fin 12) (k : Fin 4) (coll : Bool) : State :=
  let q := s.sr n k
  match q.results with
  | [] => s
  | r :: rest =>
    if !s.sarGate n true then
      let t := s.setSr n k { q with results := rest }
      if t.slState n == slRecovering then t.sarMissed n k r.e else t
    else
      let ent := R.SAR_ENT n k r.e
      let dest := s.getF ent F.SAR_ENT_DEST
      let j : Fin 16 := ⟨s.getF ent F.SAR_ENT_LOOP % 16, Nat.mod_lt _ (by decide)⟩
      let s1 := (s.setSr n k { q with results := rest }).setReg (R.SAR_RES n k r.e) (pack16 r.y r.x)
      let s2 := if dest == 2 || dest == 3 then s1.sarQueue n k r else s1
      if dest == 1 || dest == 3 then
        let s3 := s2.setReg (R.CLE_IN n j) (pack16 r.y 0)
        let s4 := if coll then
            (s3.count (R.CLE_WRCOLL n) F.CLE_WRCOLL_COUNT).setF (R.CLE_LSTAT n j) F.CLE_LSTAT_WRCOLL_F 1 else s3
        match s4.sarLoop n k r.e with
        | some i => s4.loopTrig n i
        | none => s4
      else s2

/-- Reset of the CLE of a slice (power-on, wake, STOP). -/
def State.cleReset (s : State) (n : Fin 12) : State :=
  (s.resetRegs (sliceBase n + 0x4000) (sliceBase n + 0x5000)).setCle n resetCle

end Machine
end Sys2Proof
end

