-- ==== Sys2Proof/Machine/Mcs.lean ====
section
/-! DEFINITION. The microcode store of a slice (chapter 07): its window, loading and checks, the CRC, the scan, the copies in
Plain, the MCS registers, and the attached calls of the core pair. -/

namespace Sys2Proof
namespace Machine

/-! The copies (R138). -/

/-- First byte address of the copy of word w of slice n. -/
def copyAddr (n w : Nat) : Nat := 0x0E728000 + n * 0x12000 + 18 * w

/-- The cells that hold the copy of a word. -/
def copyCells (n w : Nat) : List Nat :=
  let lo := copyAddr n w / 4
  let hi := (copyAddr n w + 17) / 4
  (List.range (hi + 1 - lo)).map (fun i => 4 * (lo + i))

/-- The copy cells from address `lo` up to `hi` are written whole: their stored bits are valid again, and they are UINT cells
(R138, R281). -/
def State.freshCopies (s : State) (lo hi : Nat) : State :=
  let inside (a : Nat) : Bool := decide (lo ≤ a) && decide (a + 4 ≤ hi)
  let n := (lo - 0x0E728000) / 0x12000
  let first := (lo + 3) / 4 * 4
  let new := if s.copyLost.contains n then (List.range ((hi - first) / 4)).map (fun i => first + 4 * i) else []
  let whole := lo == copyAddr n 0 && hi == copyAddr n 0x1000
  { s with
    copyBad := s.copyBad.filter (fun a => !inside a)
    copyLost := if whole then s.copyLost.filter (· != n) else s.copyLost
    copySet := if whole then s.copySet.filter (fun a => !inside a) else new ++ s.copySet.filter (fun a => !inside a) }.freshBits inside

/-- Read the copy of a word: none where a cell of it has failed. -/
def State.readCopy (s : State) (n w : Nat) : State × Option MWord :=
  let t := (copyCells n w).foldl (fun (t : State) a => (t.rd a).st) s
  if (copyCells n w).any t.copyFailed then (t, none)
  else (t, some (SMap.get (fun _ => (0 : MWord)) t.mcopy (4096 * n + w % 4096)))

/-- A word with both parity bits in error. -/
def spoil (w : MWord) : MWord :=
  let a := if ones 72 (w.toNat % 2 ^ 72) % 2 == 0 then BitVec.ofNat 144 (2 ^ 71) else 0
  let b := if ones 72 (w.toNat / 2 ^ 72) % 2 == 0 then BitVec.ofNat 144 (2 ^ 143) else 0
  w ^^^ a ^^^ b

/-- Entries of slice n in a map of words, below word address `lim`. -/
def ofSlice (n lim : Nat) (m : List (Nat × MWord)) : List (Nat × MWord) :=
  m.filter (fun e => e.1 / 4096 == n && decide (e.1 % 4096 < lim))

/-- Replace the words of slice n. -/
def putSlice (n : Nat) (new m : List (Nat × MWord)) : List (Nat × MWord) :=
  m.filter (fun e => decide (e.1 / 4096 < n)) ++ new ++ m.filter (fun e => decide (n < e.1 / 4096))

/-- The vendor words of slice n with a failed copy cell. -/
def State.failedCopies (s : State) (n : Nat) : List Nat :=
  (List.range 0x800).filter (fun w => (copyCells n w).any s.copyFailed)

/-- The vendor partition of slice n is loaded from its copy, and the customer partition is cleared in the store and the copy
(R122, R138). The answer tells whether every word could be loaded. -/
def State.loadVendor (s : State) (n : Nat) : State × Bool :=
  let here (a : Nat) : Bool := decide (copyAddr n 0 ≤ a) && decide (a < copyAddr n 0x800)
  let s1 := ((s.mem.ecc.filter (fun e => here e.1)).map (fun e => e.1)).foldl (fun (t : State) a => (t.rd a).st) s
  let v := ofSlice n 0x800 s1.mcopy
  let s2 := { s1 with mstore := putSlice n v s1.mstore, mcopy := putSlice n v s1.mcopy }.freshCopies (copyAddr n 0x800)
    (copyAddr n 0x1000)
  let bad := if s2.copyBad.any here || s2.copyLost.contains n then s2.failedCopies n else []
  let s3 := bad.foldl (fun (t : State) w => t.setUword n w (spoil (t.uword n w))) s2
  ((s3.setReg (R.MCS_VER n) s3.mver).showLs n, bad.isEmpty)

/-- Every word of the store passes its parity (R54). -/
def State.storeOk (s : State) (n : Nat) : Bool := s.mstore.all (fun e => e.1 / 4096 != n || parityOk e.2)

/-! Loading (R140, R141). -/

/-- The fields and header of a word are allowed: 0, or the reason 4 FIELD or 5 HEADER. -/
def fieldCheck (w : MWord) : Nat :=
  let rsv := mbits w 70 68 != 0 || mbits w 142 128 != 0
  let we := mbits w 67 67 == 1 && mbits w 63 61 == 0
  let lo := mbits w 49 47 == 7 || decide (6 < mbits w 15 12) || decide (8 < mbits w 19 16)
  let hi := decide (1 < mbits w 127 125) || decide (2 < mbits w 118 115) || decide (3 < mbits w 114 112) ||
    mbits w 90 89 == 3 || decide (1 < mbits w 85 83) || decide (8 < mbits w 79 76) || decide (4 < mbits w 75 72)
  let l := mbits w 25 20
  if rsv || we || lo || hi then 4
  else if (mbits w 26 26 == 1 && decide (l < 2)) || (mbits w 26 26 == 0 && l != 0) then 5
  else 0

/-- Why the commit of word w is refused: 0 for none (R141). Of several grounds the first in the order STATE, VENDOR, PARITY, FIELD,
HEADER counts (log 192). -/
def State.loadCheck (s : State) (n w : Nat) (v : MWord) : Nat :=
  if s.slState n != slFenced || !s.isSet (R.MCS_CTRL n) F.MCS_CTRL_LD_OPEN then 1
  else if w < 0x800 then 2
  else if !parityOk v then 3
  else fieldCheck v

/-- A load write is refused with a reason. -/
def State.loadRefuse (s : State) (n reason addr : Nat) : State :=
  (s.count (R.MCS_LD_REJ n) F.MCS_LD_REJ_COUNT).setReg (R.MCS_LD_STAT n)
    (F.MCS_LD_STAT_REASON.word reason ||| F.MCS_LD_STAT_ADDR.word addr)

/-- A word goes to the store and to its copy as one: the cells it covers whole are written, a cell it covers in part is read
first (R138, R281). -/
def State.loadWord (s : State) (n w : Nat) (v : MWord) : State :=
  let lo := copyAddr n (w % 4096)
  let t := ([lo / 4 * 4, (lo + 17) / 4 * 4].filter (fun a => decide (a < lo) || decide (lo + 18 < a + 4))).foldl
    (fun (t : State) a => (t.rd a).st.clearMark a) s
  let s1 := (t.setUword n w v).freshCopies lo (lo + 18)
  { s1 with mcopy := SMap.put (fun _ => (0 : MWord)) s1.mcopy (4096 * n + w % 4096) v }

/-- The commit of a word: by the window or by a MCODE_LOAD descriptor. -/
def State.commitWord (s : State) (n : Fin 12) (w : Nat) (v : MWord) : State :=
  match s.loadCheck n w v with
  | 0 => ((s.loadWord n w v).showLs n).setCle n { s.cleOf n with staging := 0 }
  | r => (s.loadRefuse n r w).setF (R.MCS_STAT n) F.MCS_STAT_LD_REJ_F 1

/-- A 32-bit write of the MCS window at offset `off` (R123, R140, R143). -/
def State.windowWrite (s : State) (n : Fin 12) (off : Nat) (v : Word) : State :=
  let w := off / 32
  let o := off % 32
  if !s.part.full && decide (0x800 ≤ w) then s
  else
    let c := s.cleOf n
    if o < 0x10 then
      let m : BitVec 128 := BitVec.ofNat 128 (0xFFFFFFFF <<< (8 * o))
      s.setCle n { c with staging := (c.staging &&& ~~~ m) ||| BitVec.ofNat 128 (v.toNat <<< (8 * o)) }
    else if o == 0x10 then s.commitWord n w (BitVec.ofNat 144 (c.staging.toNat + (v.toNat % 65536) * 2 ^ 128))
    else s

/-- A 32-bit read of the window: customer words only. -/
def State.windowRead (s : State) (n : Nat) (off : Nat) : Word :=
  let w := off / 32
  let o := off % 32
  if w < 0x800 || !s.part.full then 0
  else if o < 0x14 then BitVec.ofNat 32 ((s.uword n w).toNat >>> (8 * o))
  else 0

/-! LD_OPEN and the CRC (R142). -/

/-- CRC-32 of the customer partition. -/
def State.customerCrc (s : State) (n : Nat) : Word :=
  BitVec.ofNat 32 (((List.range 0x800).foldl (fun c i => crcBytes 18 (s.uword n (0x800 + i)).toNat c) 0xFFFFFFFF) ^^^ 0xFFFFFFFF)

/-- LD_OPEN changes: the staging buffer is cleared, and a close starts the CRC. -/
def State.setLdOpen (s : State) (n : Fin 12) (b : Bool) : State :=
  let a := R.MCS_CTRL n
  let was := s.isSet a F.MCS_CTRL_LD_OPEN
  if was == b then s
  else
    let s1 := (s.setB a F.MCS_CTRL_LD_OPEN b).setCle n { s.cleOf n with staging := 0 }
    if was then s1.setF (R.MCS_STAT n) F.MCS_STAT_CRC_BUSY 1 else s1

/-- CRC_COMPLETE. -/
def State.crcEnd (s : State) (n : Fin 12) : State :=
  if s.isSet (R.MCS_STAT n) F.MCS_STAT_CRC_BUSY then
    let v : Word := if s.part.full then s.customerCrc n else 0
    ((s.setReg (R.MCS_LD_CRC n) v).setF (R.MCS_STAT n) F.MCS_STAT_CRC_BUSY 0).crcDone n v
  else s

/-! Parity repair (R137, R139). -/

/-- Rewrite a word from its copy; `stuck`: the store still reads it wrong. The answer tells whether the word is right. -/
def State.mendWord (s : State) (n : Nat) (w : Nat) (stuck : Bool) : State × Bool :=
  match s.readCopy n w with
  | (t, some v) => if stuck then (t, false) else (t.setUword n w v, parityOk v)
  | (t, none) => (t, false)

/-- The scan of slice n runs in this cycle: its sequencer fetches nothing (R139). -/
def State.scans (s : State) (n : Fin 12) : Bool :=
  s.powered n && s.isSet (R.MCS_CTRL n) F.MCS_CTRL_SCAN_EN && ((s.cleOf n).blocked || (s.cleOf n).seqr.who == .none)

/-- A cycle of the scan: it passes over a word whose parity is even, and stays at one that has failed (R139). -/
def State.scanTick (s : State) (n : Fin 12) : State :=
  if s.scans n && parityOk (s.uword n (s.getF (R.MCS_STAT n) F.MCS_STAT_SCAN_ADDR)) then
    s.countWrap (R.MCS_STAT n) F.MCS_STAT_SCAN_ADDR
  else s

/-- SCAN_REPAIR: the word at which the scan stands has failed, and is rewritten from its copy (R139). -/
def State.scanRepair (s : State) (n : Fin 12) (w : BitVec 12) (stuck : Bool) : State :=
  if !s.scans n || s.getF (R.MCS_STAT n) F.MCS_STAT_SCAN_ADDR != w.toNat || parityOk (s.uword n w.toNat) then s
  else
    let a := R.MCS_SCAN_REP n
    let (t, ok) := s.mendWord n w.toNat stuck
    let t1 := (t.setF a F.MCS_SCAN_REP_ADDR w.toNat).setF (R.MCS_STAT n) F.MCS_STAT_SCAN_ADDR (w.toNat + 1)
    let t2 := match (t.readCopy n w.toNat).2 with
      | some _ => (t1.count a F.MCS_SCAN_REP_COUNT).setF (R.MCS_STAT n) F.MCS_STAT_REPAIR_F 1
      | none => t1
    (if ok then t2 else t2.setF (R.MCS_STAT n) F.MCS_STAT_HARD_F 1).showLs n

/-! Register writes. -/

/-- A write of MCS_CTRL: LD_OPEN and DWR_EN in FENCED only (R135, R142). -/
def State.mcsCtrlWrite (s : State) (n : Fin 12) (v : Word) : State :=
  let a := R.MCS_CTRL n
  let s1 := s.setF a F.MCS_CTRL_SCAN_EN (F.MCS_CTRL_SCAN_EN.get v)
  if s.slState n == slFenced then
    (s1.setF a F.MCS_CTRL_DWR_EN (F.MCS_CTRL_DWR_EN.get v)).setLdOpen n (F.MCS_CTRL_LD_OPEN.get v == 1)
  else s1

/-- A write of MCS_XT[k] (R143, R144). -/
def State.xtWrite (s : State) (n : Fin 12) (k : Nat) (v : Word) : State :=
  if !s.part.full then s
  else if s.slState n != slFenced || (F.MCS_XT_VALID.get v == 1 && decide (F.MCS_XT_ADDR.get v < 0x800)) then s.loadRefuse n 6 k
  else s.setReg (R.MCS_XT n k) (v &&& 0x80000FFF)

/-- Any write of the MCS registers of slice n. -/
def State.mcsWrite (s : State) (n : Fin 12) (a : Nat) (v : Word) : State :=
  let o := a - (sliceBase n + 0x4C00)
  if o == 0x00 then s.mcsCtrlWrite n v
  else if o == 0x04 then s.setReg a (s.reg a &&& ~~~ (v &&& 0xF8000000))
  else if o == 0x20 then s.setReg a (s.reg a &&& ~~~ (v &&& 0x80000000))
  else if o == 0x28 then s.setReg a (s.reg a &&& ~~~ (v &&& 0x0001FFFF))
  else if o == 0x2C then s.setReg a (v &&& 0x000000FF)
  else if 0x200 ≤ o ∧ o < 0x400 ∧ o % 4 = 0 then s.xtWrite n ((o - 0x200) / 4) v
  else s

/-! Attached calls (R144 to R146). -/

/-- T0 to T5 at the start of a call. -/
def callT (k : CallSt) : Vector Int 8 :=
  #v[q15lo k.a, q15hi k.a, q15lo k.x, q15hi k.x, q15lo k.y, q15hi k.y, 0, 0]

/-- ATTACHED_CALL_ISSUE: the first word of the waiting call issues, when no loop is QUEUED or issuing. -/
def State.callIssue (s : State) (n : Fin 12) : State :=
  let c := s.cleOf n
  match c.call with
  | none => s
  | some k =>
    let st := s.slState n
    if k.issuing || k.result.isSome || c.blocked || c.seqr.who != .none || (s.lowestQueued n).isSome ||
        !(st == slReady || st == slRunning) then s
    else
      let entry := if k.k < 128 then Config.vendorEntryOf k.k % 0x800 else s.getF (R.MCS_XT n (k.k - 128)) F.MCS_XT_ADDR
      let len := match vendorEntry k.k with | some (l, _) => l | none => (entryLen (s.uword n entry)).getD 1
      let seq : SeqSt := { resetSeq with who := .call, upc := entry, len := len, t := callT k }
      let s1 := (s.setCle n { c with call := some { k with issuing := true }, seqr := seq }).showCall n
      if !parityOk (s1.uword n entry) then s1.machineCheck n entry
      else if k.k < 128 then s1.setCle n { s1.cleOf n with seqr := { seq with words := 1, upc := entry + 1 } }
      else match entryLen (s1.uword n entry) with
        | none => s1.callError n entry errNotEntry
        | some _ => s1.issueWord n none zeroSnap ⟨false, false, false⟩

/-- ATTACHED_CALL_COMPLETE: the records of the call are compared; equal ones write A, unequal ones start a recovery. -/
def State.callComplete (s : State) (n : Fin 12) (agree : Bool) : State :=
  match (s.cleOf n).call with
  | some k =>
    match k.result with
    | some r =>
      if agree then s.callResult n r
      else
        let s1 := s.count (R.CLE_MISMATCH n) F.CLE_MISMATCH_COUNT
        (s1.setCtl n { s1.ctlOf n with mcheck := true }).recoverable n 2
    | none => s
  | none => s

/-- ATTACHED_CALL_TIMEOUT: A becomes EMPTY, and the call is dropped. -/
def State.callTimeout (s : State) (n : Fin 12) : State :=
  match (s.cleOf n).call with
  | some k =>
    if s.getF (R.MCS_XCFG n) F.MCS_XCFG_TIMEOUT == 0 then s
    else
      let s1 := (if k.issuing then s.setCle n { s.cleOf n with seqr := resetSeq } else s).callResult n emptyCell
      s1.count (R.MCS_XSTAT n) F.MCS_XSTAT_TIMEOUT
  | none => s

end Machine
end Sys2Proof
end

