-- ==== Sys2Proof/Machine/Mad.lean ====
section
/-! DEFINITION. The metering converter (chapter 12): crossings and boundaries, scanning, correction, records, urgent requests,
the reference, and the writes of its registers. -/

namespace Sys2Proof
namespace Machine

def State.setMad (s : State) (m : MadSt) : State := { s with mad := m }

/-- Metering channels fitted (R2, R195). -/
def State.madChannels (s : State) : Nat := if s.part = .esk7208 then 8 else 16

def State.madEn (s : State) (u : Nat) : Bool := natBit (s.getF R.MAD_CTRL F.MAD_CTRL_EN) u
def State.madAny (s : State) : Bool := s.getF R.MAD_CTRL F.MAD_CTRL_EN != 0
/-- LINE mode. -/
def State.madLine (s : State) : Bool := s.getF R.MAD_CTRL F.MAD_CTRL_PERIOD_MODE == 0
def State.madLost (s : State) : Bool := s.isSet R.MAD_STAT F.MAD_STAT_LINE_LOST
def State.madLocked (s : State) : Bool := s.isSet R.MAD_STAT F.MAD_STAT_LOCKED

/-- The corrected result (R199). -/
def correct24 (raw offs gain : Int) : Int := satS 24 (((raw - offs) * gain + 2 ^ 29) / 2 ^ 30)

/-- A record finds its queue full, or its buffer (R201). -/
def State.madDrop (s : State) : State :=
  (s.count R.MAD_BUF_OVR F.MAD_BUF_OVR_COUNT).setF R.MAD_STAT F.MAD_STAT_BUF_OVR_F 1

/-- The conversion of unit u ends at this boundary with a raw result (R199 to R202). -/
def State.madResult (s : State) (u : Fin 4) (r : RawResult) (len : Nat) (lost : Bool) : State :=
  match s.mad.conv.get u with
  | none => s
  | some c =>
    let raw := satS 24 r.raw
    let offs := toSigned 24 (s.getF (R.MAD_OFFS c.ch) F.MAD_OFFS_OFFS)
    let gain := (s.reg (R.MAD_GAIN c.ch)).toInt
    let v := correct24 raw offs gain
    let flags := 128 * b2n c.unsettled + 64 * b2n lost + 32 * b2n c.urgent + 16 * b2n r.ovr + 8 * b2n (!s.madLine)
    let i32 (x : Int) : Cell := ⟨BitVec.ofNat 32 (ofSigned 32 x), tagInt⟩
    let recd : Vector Cell 4 := #v[⟨s.mtimeLo, tagTime⟩, i32 v, i32 raw,
      ⟨BitVec.ofNat 32 (flags * 2 ^ 24 + c.ch * 2 ^ 20 + len % 2 ^ 17), tagUint⟩]
    let s1 := s.setReg (R.MAD_LAST c.ch) (BitVec.ofNat 32 (flags * 2 ^ 24 + ofSigned 24 v))
    let s2 := if r.ovr then s1.setF R.MAD_STAT F.MAD_STAT_INPUT_OVR_F 1 else s1
    let m : MadSt := { s2.mad with conv := s2.mad.conv.set u none }
    let s3 := if m.queue.length < 8 then s2.setMad { m with queue := m.queue ++ [recd] } else (s2.setMad m).madDrop
    if c.urgent then
      (((s3.setReg R.MAD_URG_RES (BitVec.ofNat 32 (ofSigned 32 v))).setF R.MAD_URG_STAT F.MAD_URG_STAT_DONE_F 1).setF
        R.MAD_URG_STAT F.MAD_URG_STAT_PEND 0).fire 45
    else s3

/-- The channel that unit u scans at position p. -/
def scanEntry (mask : BitVec 16) (u p : Nat) : Option Nat :=
  let l := (List.range 4).filterMap (fun i => if mask.getLsbD (4 * u + i) then some (4 * u + i) else none)
  if l.isEmpty then none else l[p % l.length]?

/-- MAD_STAT.RUN. -/
def State.madShow (s : State) : State := s.setB R.MAD_STAT F.MAD_STAT_RUN (s.mad.conv.toList.any Option.isSome)

/-- A boundary: conversions end with their results, p advances, and the next conversions start (R196, R198, R202). A request
whose unit is disabled by then is dropped (log 142). -/
def State.madBoundary (s : State) (rs : Vector RawResult 4) (lost : Bool) : State :=
  let len := match s.mad.last with | some t => (s.clock - t) / 1500 | none => 0
  let s1 := (List.finRange 4).foldl (fun (t : State) (u : Fin 4) => t.madResult u (rs.get u) len lost) s
  let s2 := match s.mad.last with | some _ => s1.setReg R.MAD_PERIOD (BitVec.ofNat 32 (len % 2 ^ 17)) | none => s1
  let gone := match s2.mad.urg with | some c => !s2.madEn (c / 4) | none => false
  let s2 := if gone then (s2.setMad { s2.mad with urg := none }).setF R.MAD_URG_STAT F.MAD_URG_STAT_PEND 0 else s2
  let m := s2.mad
  let p := if m.fresh then 0 else if m.hold then m.pos else m.pos + 1
  let mask := if m.fresh then BitVec.ofNat 16 (s2.getF R.MAD_SCAN F.MAD_SCAN_MASK) else m.mask
  let settled := s2.isSet R.MAD_STAT F.MAD_STAT_REF_SETTLED
  let conv (u : Fin 4) : Option MadConv :=
    if !s2.madEn u then none
    else match m.urg with
      | some c => if c / 4 == u.val then some ⟨c, true, !settled⟩ else (scanEntry mask u p).map (fun x => ⟨x, false, !settled⟩)
      | none => (scanEntry mask u p).map (fun x => ⟨x, false, !settled⟩)
  (s2.setMad { m with conv := Vector.ofFn conv, pos := p, mask := mask, fresh := false, hold := m.urg.isSome, urg := none,
                      last := some s.clock, mark := some s.clock, due := false, relock := false }).madShow

/-- MTIME less an earlier MTIME. -/
def State.madSince (s : State) (t : Nat) : Nat := (s.mtime - BitVec.ofNat 64 t).toNat

/-- A boundary is due (R196, R197): 2 µs after an accepted crossing, every 20 ms after the last boundary of a lost line, or at a
multiple of 20 ms of MTIME from the enabling of the first unit. Only the last follows MTIME, which the group may set (R374,
log 205). -/
def State.madDue (s : State) : Bool :=
  if s.madLine then
    (s.mad.due && s.clock == s.mad.dueAt + 3000) ||
      (s.madLost && (match s.mad.mark with | some t => decide (t < s.clock) && (s.clock - t) % 30000000 == 0 | none => false))
  else s.madSince s.mad.base != 0 && s.madSince s.mad.base % 30000000 == 0

/-- MAD_BOUNDARY. The converter is powered off in STABLED (R205). With no unit enabled a boundary of the line ends no integration,
and the next are counted from it. -/
def State.madTick (s : State) (rs : Vector RawResult 4) : State :=
  if s.mode == mdStabled || !s.madDue then s
  else if s.madAny then s.madBoundary rs (s.madLost || s.mad.relock)
  else if s.madLine then s.setMad { s.mad with mark := some s.clock, due := false, relock := false }
  else s

/-- ZERO_CROSSING: a positive-going crossing of ZC_CH (R196, R197). A crossing more than 66.667 ms after the last accepted one
starts the count of two anew (DEDUCED, log 26). -/
def State.zeroCrossing (s : State) : State :=
  if !s.madLine || s.mode == mdStabled then s
  else
    let now := s.clock
    let m := s.mad
    match m.crossed with
    | none => s.setMad { m with crossed := some now }
    | some t =>
      if now - t < 21429000 then s
      else if 100000500 < now - t then s.setMad { m with crossed := some now }
      else
        let s1 := s.setMad { m with crossed := some now, due := true, dueAt := s.clock, relock := s.madLost }
        (s1.setF R.MAD_STAT F.MAD_STAT_LOCKED 1).setF R.MAD_STAT F.MAD_STAT_LINE_LOST 0

/-- LINE_LOST: no crossing has been accepted within 66.667 ms of the last boundary (R197). -/
def State.lineLost (s : State) (rs : Vector RawResult 4) : State :=
  let late := match s.mad.mark with | some t => decide (t + 100000500 ≤ s.clock) | none => false
  if !s.madLine || !s.madLocked || !s.madAny || s.mode == mdStabled || s.mad.due || !late then s
  else
    let s1 := ((s.setF R.MAD_STAT F.MAD_STAT_LINE_LOST 1).setF R.MAD_STAT F.MAD_STAT_LINE_LOST_F 1).setF R.MAD_STAT F.MAD_STAT_LOCKED 0
    s1.madBoundary rs true

/-- Records in the buffer that software has not consumed (R201). -/
def State.madLevel (s : State) : Nat :=
  let len := 2 ^ s.getF R.MAD_BUF F.MAD_BUF_LOG2LEN
  (s.getF R.MAD_WIDX F.MAD_WIDX_INDEX + len - s.getF R.MAD_RIDX F.MAD_RIDX_INDEX % len) % len

/-- The level, which was that of `s`, has risen to WMARK in `t`: source 44 is raised (R201, log 206). -/
def State.wmark (s t : State) : State :=
  let mark := t.getF R.MAD_WMARK F.MAD_WMARK_LEVEL
  t.fireIf (mark != 0 && decide (s.madLevel < mark) && decide (mark ≤ t.madLevel)) 44

/-- MAD_RECORD_WRITE: the oldest record goes to the buffer in Plain, or is dropped on a full one (R201). -/
def State.madRecord (s : State) : State :=
  match s.mad.queue with
  | [] => s
  | r :: t =>
    let s0 := s.setMad { s.mad with queue := t }
    let len := 2 ^ s.getF R.MAD_BUF F.MAD_BUF_LOG2LEN
    let w := s.getF R.MAD_WIDX F.MAD_WIDX_INDEX
    let rd := s.getF R.MAD_RIDX F.MAD_RIDX_INDEX
    if (w + 1) % len == rd then s0.madDrop
    else
      let a := 0x0E000000 + 16 * s.getF R.MAD_BUF F.MAD_BUF_BASE + 16 * w
      let s1 := (List.finRange 4).foldl (fun (u : State) (i : Fin 4) => u.wr none (a + 4 * i.val) (r.get i)) s0
      s.wmark (s1.setF R.MAD_WIDX F.MAD_WIDX_INDEX ((w + 1) % len))

/-- A write of MAD_URG (R202). -/
def State.madUrgent (s : State) (v : Word) : State :=
  if F.MAD_URG_REQ.get v == 0 then s
  else
    let c := F.MAD_URG_CH.get v
    let a := R.MAD_URG_STAT
    let st := if s.madChannels ≤ c then 4
      else if s.isSet a F.MAD_URG_STAT_PEND then 1
      else if !s.madEn (c / 4) || (s.madLine && !s.madLocked && !s.madLost) then 2
      else 0
    let s1 := (s.setF a F.MAD_URG_STAT_CH c).setF a F.MAD_URG_STAT_STATUS st
    if st == 0 then (s1.setMad { s1.mad with urg := some c }).setF a F.MAD_URG_STAT_PEND 1 else s1

/-- REF_SETTLED: settling of the selected reference completes (R203). -/
def State.refSettled (s : State) : State :=
  if s.mode == mdStabled then s else (s.setF R.MAD_STAT F.MAD_STAT_REF_SETTLED 1).setF R.MAD_STAT F.MAD_STAT_REF_FAULT 0

/-- REF_FAULT: an EXT reference leaves its window. -/
def State.refFault (s : State) : State :=
  if s.getF R.MAD_CTRL F.MAD_CTRL_REF_SEL == 1 && s.mode != mdStabled then
    ((s.setF R.MAD_STAT F.MAD_STAT_REF_SETTLED 0).setF R.MAD_STAT F.MAD_STAT_REF_FAULT 1).setF R.MAD_STAT F.MAD_STAT_REF_FAULT_F 1
  else s

/-! Writes (R204, R205). -/

def State.madRefuse (s : State) : State := s.count R.MAD_CFG_REJ F.MAD_CFG_REJ_COUNT

/-- A write of MAD_CTRL: units start at the next boundary; a unit that stops discards its integration, and with it an urgent
request that it converts (log 142). -/
def State.madCtrlWrite (s : State) (v0 : Word) : State :=
  let v := v0 &&& (if s.part = .esk7208 then 0x03310F0F else 0x0F310F0F)
  let a := R.MAD_CTRL
  let others := (v &&& 0x00FFFFFF) != (s.reg a &&& 0x00FFFFFF)
  if (others && s.madAny) || F.MAD_CTRL_REF_SEL.get v == 3 || decide (s.madChannels ≤ F.MAD_CTRL_ZC_CH.get v) then s.madRefuse
  else
    let en := F.MAD_CTRL_EN.get v
    let first := !s.madAny && en != 0
    let newRef := F.MAD_CTRL_REF_SEL.get v != s.getF a F.MAD_CTRL_REF_SEL
    let conv := Vector.ofFn (fun (u : Fin 4) => if natBit en u then s.mad.conv.get u else none)
    let cut := (List.finRange 4).any (fun u => !natBit en u && (match s.mad.conv.get u with | some c => c.urgent | none => false))
    let s0 := if cut then s.setF R.MAD_URG_STAT F.MAD_URG_STAT_PEND 0 else s
    let s1 := (s0.setReg a v).setMad { s0.mad with
      conv := conv
      last := if en == 0 then none else s0.mad.last
      base := if first then s0.mtime.toNat else s0.mad.base }
    let s2 := if first || newRef then s1.setF R.MAD_STAT F.MAD_STAT_REF_SETTLED 0 else s1
    (if newRef then s2.setF R.MAD_STAT F.MAD_STAT_REF_FAULT 0 else s2).madShow

/-- A write of MAD_SCAN: it applies from the next boundary (R198). -/
def State.madScanWrite (s : State) (v : Word) : State :=
  (s.setReg R.MAD_SCAN (v &&& (if s.part = .esk7208 then 0x000000FF else 0x0000FFFF))).setMad { s.mad with fresh := true }

/-- Any write of the metering block. -/
def State.madWrite (s : State) (a : Nat) (v : Word) : State :=
  let o := a - 0x01040000
  if o == 0x000 then s.madCtrlWrite v
  else if o == 0x004 then s.setReg a (s.reg a &&& ~~~ (v &&& 0xF0000000))
  else if o == 0x008 then s.madScanWrite v
  else if o == 0x010 then
    let l := F.MAD_BUF_LOG2LEN.get v
    if s.madAny || decide (l < 4) || decide (0x727C00 < 16 * F.MAD_BUF_BASE.get v + 16 * 2 ^ l) then s.madRefuse
    else s.wmark ((s.setReg a (v &&& 0xF07FFFF0)).setF R.MAD_WIDX F.MAD_WIDX_INDEX 0)
  else if o == 0x018 || o == 0x01C then s.wmark (s.setReg a (v &&& 0x0000FFFF))
  else if o == 0x020 then s.madUrgent v
  else if o == 0x028 then s.setReg a (s.reg a &&& ~~~ (v &&& 0x80000000))
  else if 0x100 ≤ o ∧ o < 0x100 + 8 * s.madChannels then s.setReg a (if o % 8 == 0 then v &&& 0x00FFFFFF else v)
  else s

end Machine
end Sys2Proof
end

