-- ==== Sys2Proof/Machine/Slices.lean ====
section
/-! DEFINITION. Slice commands, ownership, and the reset of a slice's units and of a core pair (chapters 03 and 15). -/

namespace Sys2Proof
namespace Machine

/-! Core reset (R207, R250). -/

/-- PERMS of a quad with the given permission bits, never closed; STATE with SPACE. -/
def quadOf (base len : Word) (perms : Nat) (program : Bool) : Quad :=
  ⟨⟨base, tagCap⟩, ⟨len, tagCap⟩, ⟨BitVec.ofNat 32 perms, tagCap⟩, ⟨if program then 0x40000000 else 0, tagCap⟩⟩

/-- Words of program memory of a pair (chapter 13). -/
def progLen (p : Nat) : Nat := if p < 12 then 65536 else 131072

/-- The registers of a pair at core reset: set 0 as R250 gives it, every other register EMPTY or 0. C2 and C3 hold READ and
WRITE (log 28). -/
def bootRegs (p : Nat) (g : ImgInfo) : CoreRegs :=
  let c1 : Quad := if p < 12 then quadOf (BitVec.ofNat 32 (sliceBase p)) 0x00100000 0x7FB false
    else quadOf 0 0x22000000 0x7FB false
  let set0 : CapSet :=
    ⟨#v[quadOf 0 (BitVec.ofNat 32 (progLen p)) 0x007 true, c1, quadOf g.base2 g.len2 0x003 false,
      quadOf g.base3 g.len3 0x003 false, emptyQuad, emptyQuad, emptyQuad, emptyQuad], g.base2 + g.len2, g.base3 + g.len3⟩
  { resetRegsK with pc := BitVec.ofNat 17 g.entry, sets := (Vector.replicate 8 emptySet).set 0 set0 }

/-- Core reset of pair p: its registers, and the KC registers of chapter 15. It leaves the lockstep registers, and the pair
halted until it is released; its attached call ends with it. -/
def State.coreReset (s : State) (p : Fin 13) : State :=
  let c := s.coreOf p
  let s := if h : p.val < 12 then
      let t := s.dropCall ⟨p.val, h⟩
      { t with rollback := t.rollback.set p.val none h }
    else s
  (s.resetRegs (kcBase p + 0x100) (kcBase p + 0x200)).setCore p
    { resetCore with r := bootRegs p (s.img.get p), dbgHalt := c.dbgHalt, attached := c.attached }

/-- The pair is released to run. -/
def State.releasePair (s : State) (p : Fin 13) : State := s.setCore p { s.coreOf p with halted := false }

/-! Reset of the units of a slice by STOP (R50, R498 and the register sections of chapters 04 to 11, 18, 19, 23, 25, 27, 28). -/

def State.stpReset (s : State) (n : Fin 12) : State :=
  { s.resetRegs (sliceBase n + 0xE000) (sliceBase n + 0xF000) with trc := s.trc.set n.castSucc resetTrc }

def State.dmaReset (s : State) (e : Fin 13) : State :=
  { s.resetRegs (dmaBase e) (dmaBase e + 0x1000) with dma := s.dma.set e (Vector.replicate 16 resetDma) }

/-- The local block of the event router: its registers, and the routes of the local sources. -/
def State.evlReset (s : State) (n : Fin 12) : State :=
  (List.range 72).foldl (fun (t : State) x => if (t.route (localSrc n x)).st == .idle then t else t.setRoute (localSrc n x) idleRoute)
    (s.resetRegs (sliceBase n + 0x9000) (sliceBase n + 0xA000))

/-- Trip, capture, encoder and recovery registers of the SLC block. -/
def State.slcReset (s : State) (n : Fin 12) : State :=
  let b := sliceBase n
  State.tripSample { ((s.resetRegs (b + 0x20) (b + 0x28)).resetRegs (b + 0x100) (b + 0x1D0)) with
    cap := s.cap.set n ((s.cap.get n).map (fun x => ⟨[], x.pin, x.pin⟩)) } n

/-- The units of the slice; PTB_CTRL.END keeps the cause of an end that STOP makes (R478). -/
def State.unitReset (s : State) (n : Fin 12) : State :=
  let s1 := ((((s.grgReset n).sarReset n).pwmReset n).cleReset n).injReset n
  let s2 := ((((s1.ptbEnd n 3).evlReset n).dmaReset n.castSucc).stpReset n).slcReset n
  let s3 := (s2.resetRegs (wdgBase n) (wdgBase n + 0x1000)).resetRegs (ptbBase n) (ptbBase n + 0x1000)
  if s.isSet (R.PTB_CTRL n) F.PTB_CTRL_EN then s3.setF (R.PTB_CTRL n) F.PTB_CTRL_END 3 else s3

/-! Ownership (R46, R47, R336). -/

/-- VF k exists (R333). -/
def State.vfExists (s : State) (k : Nat) : Bool := s.vfEnable && decide (k ≤ s.numVfs)

/-- Function f exists. -/
def State.fnExists (s : State) (f : Nat) : Bool := f == 0 || s.vfExists f

/-- Slice n passes to owner o: the epoch counts, routes become STALE and descriptors of the former owner end (R47). -/
def State.setOwner (s : State) (n : Fin 12) (o : Nat) : State :=
  if s.owner n == o then s
  else
    let a := R.DEV_SLC_ASSIGN n
    let s1 := (s.setF a F.DEV_SLC_ASSIGN_OWNER o).countWrap a F.DEV_SLC_ASSIGN_EPOCH
    ((s1.staleTarget 1 (fun i => i == n.val)).staleVectorsOf n).descDisown n o

/-- A write of DEV_SLC_ASSIGN[n] by the system pair or PF0. -/
def State.assign (s : State) (m : Master) (n : Fin 12) (v : Word) : State :=
  if !m.isSys then s
  else
    let o := F.DEV_SLC_ASSIGN_OWNER.get v
    let a := R.DEV_SLC_ASSIGN n
    let reply (t : State) (k : Nat) : State := t.setF a F.DEV_SLC_ASSIGN_ASSIGN_STATUS k
    let st := s.slState n
    if !s.fitted n then reply s 4
    else if !(decide (o < 16) || o == 0x1F) then reply s 5
    else if !(st == slOff || st == slFenced) || (decide (1 ≤ o) && decide (o < 16) && !s.vfExists o) then
      reply s 2
    else reply (s.setOwner n o) 0

/-! Slice commands (R50 to R56). Statuses: 0 OK, 1 BUSY, 2 REFUSED, 3 NOT_OWNER, 5 PARAM, 6 FAULT. -/

/-- Record a command's outcome in SLC_CMD_STAT. -/
def State.cmdReply (s : State) (n : Nat) (cmd status : Nat) : State :=
  let a := R.SLC_CMD_STAT n
  let s1 := (s.setF a F.SLC_CMD_STAT_LAST_CMD cmd).setF a F.SLC_CMD_STAT_STATUS status
  if status == 0 then s1 else s1.count a F.SLC_CMD_STAT_REJ

/-- A FENCE that is in progress or held absorbs a further one (R53). -/
def State.fencePending (s : State) (n : Fin 12) : Bool :=
  (s.ctlOf n).fencing || s.isSet (R.SLC_CMD_STAT n) F.SLC_CMD_STAT_HELD

/-- Start a FENCE with a cause, from any state but FENCED: at once, held in RECOVERING (R53), or by powering the slice from
OFF, whose memories are then cleared (R50, R294). -/
def State.fenceStart (s : State) (n : Fin 12) (cause : Nat) (toTwin : Bool) : State :=
  let st := s.slState n
  let s0 := s.setCtl n { s.ctlOf n with toTwin := toTwin, fenceCause := cause }
  if s.fencePending n then s
  else if st == slRecovering then
    let c := s0.ctlOf n
    ((s0.setCtl n { c with safeHold := c.safeHold || s.armed n }).setF (R.SLC_CMD_STAT n) F.SLC_CMD_STAT_HELD 1).pinsSlice n
  else if st == slOff then (s0.setCtl n { s0.ctlOf n with fencing := true, fenceAt := s.clock, fenceFault := false, image := false }).clearBegin n
  else s0.fenceNow n cause

/-- A FENCE command. -/
def State.fenceCmd (s : State) (n : Fin 12) (cause : Nat) (toTwin : Bool) : State :=
  if s.fencePending n then s.cmdReply n 1 0
  else if s.slState n == slFenced || (toTwin && !s.twinReady n) then s.cmdReply n 1 2
  else (s.fenceStart n cause toTwin).cmdReply n 1 0

/-- A command other than FENCE finds one in progress (R54). -/
def State.cmdBusy (s : State) (n : Fin 12) : Bool :=
  let c := s.ctlOf n
  s.fencePending n || c.goPending || c.resuming || c.restarting

def State.noteCmd (s : State) (n : Nat) (cmd : Nat) : State := s.setF (R.SLC_CMD_STAT n) F.SLC_CMD_STAT_LAST_CMD cmd

/-- A RESUME command: the parity check starts, or it is refused. -/
def State.resumeCmd (s : State) (n : Fin 12) : State :=
  let c := s.ctlOf n
  if s.cmdBusy n then s.cmdReply n 2 1
  else if s.slState n != slFenced || !c.image || c.diverged then s.cmdReply n 2 2
  else (s.setCtl n { c with resuming := true }).noteCmd n 2

/-- A GO command (R50). -/
def State.goCmd (s : State) (n : Fin 12) : State :=
  if s.cmdBusy n then s.cmdReply n 3 1
  else if s.slState n != slReady then s.cmdReply n 3 2
  else (s.setCtl n { s.ctlOf n with goPending := true }).cmdReply n 3 0

/-- A RESTART command: the pair is reset, and the injection and self-tests start (R56). -/
def State.restartCmd (s : State) (n : Fin 12) : State :=
  if s.cmdBusy n then s.cmdReply n 4 1
  else if s.slState n != slFenced then s.cmdReply n 4 2
  else ((s.setCtl n { s.ctlOf n with restarting := true, testDiv := false }).coreReset (pairOf n)).noteCmd n 4

/-- A STOP command: OFF, and the unit registers are reset. A divergence that stands ends (R272). -/
def State.stopCmd (s : State) (n : Fin 12) : State :=
  if s.cmdBusy n then s.cmdReply n 5 1
  else if s.slState n != slFenced then s.cmdReply n 5 2
  else
    let s1 := s.setCtl n { s.ctlOf n with safeHold := false, diverged := false, mcheck := false, badWord := none, recWait := Vector.replicate 8 false }
    ((((s1.haltPair (pairOf n)).dropRoutesTo n).setSl n slOff).unitReset n).cmdReply n 5 0

/-- The master may give the command (R45): its owner, and for FENCE also the system pair and PF0. -/
def State.mayCmd (s : State) (m : Master) (n cmd : Nat) : Bool := s.ownerIs n m || (cmd == 1 && m.isSys)

/-- A write of SLC_CMD. A wrong KEY or a reserved code is told before the master's right to the command (log 150). -/
def State.slcCmd (s : State) (m : Master) (n : Fin 12) (v : Word) : State :=
  let cmd := F.SLC_CMD_CMD.get v
  if !s.fitted n then s
  else if F.SLC_CMD_KEY.get v != 0x5C1E || cmd == 0 || decide (5 < cmd) then s.cmdReply n cmd 5
  else if !s.mayCmd m n cmd then s.cmdReply n cmd 3
  else match cmd with
    | 1 => s.fenceCmd n 1 (F.SLC_CMD_TO_TWIN.get v == 1)
    | 2 => s.resumeCmd n
    | 3 => s.goCmd n
    | 4 => s.restartCmd n
    | _ => s.stopCmd n

/-- SLICE_RESUME descriptors of slice n end as their command did (R354): the status is that of SLC_CMD_STAT. -/
def State.resumeFails (s : State) (n : Nat) (a : Await) : State :=
  s.descDone a (s.getF (R.SLC_CMD_STAT n) F.SLC_CMD_STAT_STATUS) 0

/-- A slice without a role that becomes RUNNING while a pairing stands: standby where the partner ran it at pairing, else
active (R392, log 29). -/
def State.takeRole (s : State) (n : Fin 12) : State :=
  let ran := match s.twn.peer with | some p => p.running.getLsbD n | none => false
  if s.mode == mdTwin && s.twn.paired && !s.active n && !s.standby n then s.setRole n (if ran then 2 else 1) else s

/-- A GO ends: triggers are unmasked and the slice runs (R50). -/
def State.goEnd (s : State) (n : Fin 12) : State :=
  let s1 := (s.setCtl n { s.ctlOf n with goPending := false, unmasked := true }).setSl n slRunning
  ((((s1.takeRole n).armPending n).showSync).descDone (.running n) 0 (s1.reg (R.SLC_STATE n)).toNat)

/-- The VALLEY of channel 0 after a GO (R50). -/
def State.goValley (s : State) (n : Fin 12) (k : Fin 8) : State :=
  if k.val == 0 && (s.ctlOf n).goPending && s.slState n == slReady && s.isSet (R.PWM_CTRL n 0) F.PWM_CTRL_EN then s.goEnd n
  else s

/-- COUNTER_RESTART: a restart at position 0 is a valley of its channel (R164). -/
def State.restartValley (s : State) (n : Fin 12) (k : Fin 8) : State :=
  let t := s.counterRestart n k
  if (s.pw n k).restart && s.pwmRuns n k && (t.pw n k).pos == 0 then t.goValley n k else t

/-- While channel 0 has EN = 0 a GO ends in the cycle after it was accepted (R150). -/
def State.goTick (s : State) (n : Fin 12) : State :=
  if (s.ctlOf n).goPending && s.slState n == slReady && !s.isSet (R.PWM_CTRL n 0) F.PWM_CTRL_EN then s.goEnd n else s

/-- RESUME descriptors that go on: those without GO end, the others give GO (R354). -/
def State.resumed (s : State) (n : Fin 12) : State :=
  let s1 := s.descDone (.resume n false) 0 (s.reg (R.SLC_STATE n)).toNat
  let waits := s1.fns.toList.any (fun x => x.flights.any (fun y => y.begun && y.await == Await.resume n true))
  if waits then (s1.goCmd n).descNext (.resume n true) (.running n) else s1

/-- RESUME_CHECK_COMPLETE: the parity of the whole store has been checked. -/
def State.resumeEnd (s : State) (n : Fin 12) : State :=
  let c := s.ctlOf n
  if !c.resuming then s
  else
    let loops := (s.cleOf n).loops.map (fun (l : LoopSt) => { l with committed := false })
    let s1 := s.setCtl n { c with resuming := false }
    if s.storeOk n then
      let s2 := (s1.setCle n { s1.cleOf n with loops := loops }).setCtl n { s1.ctlOf n with safeHold := false }
      let s3 := (((s2.setLdOpen n false).releasePair (pairOf n)).setSl n slReady).pinsSlice n
      (s3.cmdReply n 2 0).resumed n
    else
      let s2 := (s1.slFault n 4).cmdReply n 2 2
      (s2.resumeFails n (.resume n false)).resumeFails n (.resume n true)

/-- KC_LS_INJ records an injection run (R277). -/
def State.noteInj (s : State) (p : Nat) (r : InjRun) : State :=
  let a := R.KC_LS_INJ p
  let runs := s.getF a F.KC_LS_INJ_RUNS
  s.setReg a (F.KC_LS_INJ_DONE.word 1 ||| F.KC_LS_INJ_PASS.word (b2n r.pass) |||
    F.KC_LS_INJ_FAIL_POINT.word r.failPoint |||
    F.KC_LS_INJ_FALSE_DET.word (b2n r.falseDet) ||| F.KC_LS_INJ_MISSED.word r.missed ||| F.KC_LS_INJ_RUNS.word (runs + 1))

/-- RESTART_TESTS_COMPLETE: injection outcome, and whether the self-tests passed; a divergence of the pair during them fails
them (R56, R273). -/
def State.restartEnd (s : State) (n : Fin 12) (r : InjRun) (selftest : Bool) : State :=
  let c := s.ctlOf n
  if !c.restarting then s
  else
    let s1 := (s.setCtl n { c with restarting := false }).noteInj n r
    if r.pass && selftest && !c.testDiv then
      let a := R.KC_LS_STAT n
      let s2 := ((s1.setF a F.KC_LS_STAT_BROKEN 0).setF a F.KC_LS_STAT_SUSPENDED 0).setF (R.SLC_STATE n)
        F.SLC_STATE_LOCKSTEP_BROKEN 0
      let s3 := (s2.setCtl n { s2.ctlOf n with diverged := false }).cmdReply n 4 0
      let waits := s3.fns.toList.any (fun x => x.flights.any (fun y => y.begun &&
        (y.await == Await.restart n true || y.await == Await.restart n false)))
      if waits then
        let s4 := (s3.resumeCmd n).descNext (.restart n true) (.resume n true)
        let s5 := s4.descNext (.restart n false) (.resume n false)
        if (s5.ctlOf n).resuming then s5 else (s5.resumeFails n (.resume n true)).resumeFails n (.resume n false)
      else s3
    else
      let s2 := (s1.slFault n (if r.pass then 2 else 3)).cmdReply n 4 6
      (s2.resumeFails n (.restart n true)).resumeFails n (.restart n false)

end Machine
end Sys2Proof
end

