-- ==== Sys2Proof/Machine/Wdg.lean ====
section
/-! DEFINITION. The watchdogs (chapter 25): services, violations, restarts, debugger halts, and the writes of their
registers. Watchdog 12 is the system pair's. -/

namespace Sys2Proof
namespace Machine

/-- The slice whose watchdog it is. -/
def wdgSlice (e : Fin 13) : Option (Fin 12) := if h : e.val < 12 then some ⟨e.val, h⟩ else none

/-- The system pair halts until the next cold start: source 1 fires, Colbel is unavailable, and every active slice is handed over with AUTO_HO (R274,
R400, R446). -/
def State.sysHalt (s : State) : State :=
  if (s.coreOf 12).halted then s
  else
    let s0 := if s.isSet R.TWN_CFG F.TWN_CFG_AUTO_HO then s.handOver (BitVec.ofNat 12 4095) 5 else s
    ({ (s0.unCheckpoint 12).haltPair 12 with sysDown := true }.setF R.DBG_STAT F.DBG_STAT_AVAIL 0).fire 1

/-- A violation of watchdog e with its flag (R443, R446). -/
def State.wdgViolate (s : State) (e : Fin 13) (flag : Fld) : State :=
  let a := R.WDG_STAT e
  let s1 := (s.setF a F.WDG_STAT_EXPIRED 1).setF a flag 1
  match wdgSlice e with
  | some n =>
    let s2 := s1.fireLocal n 16
    if s2.isSet (R.WDG_CTRL e) F.WDG_CTRL_ACT then s2.enterSafe n 0x0B else s2
  | none => s1.sysHalt

def State.wdgRuns (s : State) (e : Fin 13) : Bool := s.isSet (R.WDG_STAT e) F.WDG_STAT_RUN

def State.wdgReject (s : State) (e : Fin 13) : State := s.count (R.WDG_REJ e) F.WDG_REJ_COUNT

/-- A service with a key by the pair itself; from PERIOD on it does nothing (R441, R442). -/
def State.wdgService (s : State) (e : Fin 13) (key : Nat) : State :=
  if !s.wdgRuns e then s
  else
    let a := R.WDG_STAT e
    let expect := if s.isSet a F.WDG_STAT_EXPECT then 0xC369 else 0x3C96
    let early := !s.wdgFirst.get e && decide (s.getF (R.WDG_CNT e) F.WDG_CNT_US < s.getF (R.WDG_LOWER e) F.WDG_LOWER_US)
    if key != expect then s.wdgViolate e F.WDG_STAT_KEY_F
    else if early then s.wdgViolate e F.WDG_STAT_EARLY_F
    else if s.getF (R.WDG_PERIOD e) F.WDG_PERIOD_US ≤ s.getF (R.WDG_CNT e) F.WDG_CNT_US then s
    else
      let s1 := (s.setReg (R.WDG_CNT e) 0).setB a F.WDG_STAT_EXPECT (!s.isSet a F.WDG_STAT_EXPECT)
      { s1 with wdgFirst := s1.wdgFirst.set e false }

/-- The state in which watchdog e counts (R441). -/
def State.wdgMayRun (s : State) (e : Fin 13) : Bool :=
  match wdgSlice e with
  | some n => slLive (s.slState n)
  | none => !(s.coreOf 12).halted

/-- A restart: EXPIRED clears and counting starts again; `coll`: a violation falls in the same tick and is only counted
(R443, R445). -/
def State.wdgRestart (s : State) (e : Fin 13) (coll : Bool) : State :=
  let s1 := s.setF (R.WDG_STAT e) F.WDG_STAT_EXPIRED 0
  let s2 := if s1.wdgMayRun e then s1.wdgStart e else s1
  if coll then s2.wdgReject e else s2

/-- A write of WDG_SVC (R442, R443): the pair services; the owner restarts; any other write is discarded and counted. -/
def State.wdgSvc (s : State) (m : Master) (e : Fin 13) (key : Nat) (coll : Bool) : State :=
  let own := match wdgSlice e with
    | some n => m == .core n
    | none => m == .sys
  let owner := match wdgSlice e with
    | some n => s.ownerIs n m
    | none => m.isSys
  if key == 0x5E7A && (own || owner) then s.wdgRestart e coll
  else if own then s.wdgService e key
  else s.wdgReject e

/-- The count reaches PERIOD (R441). -/
def State.wdgExpire (s : State) (e : Fin 13) : State :=
  if s.wdgRuns e then
    (s.setF (R.WDG_CNT e) F.WDG_CNT_US (s.getF (R.WDG_PERIOD e) F.WDG_PERIOD_US)).wdgViolate e F.WDG_STAT_EXP_F
  else s

/-- One microsecond for every running watchdog. -/
def State.wdgTick (s : State) : State :=
  (List.finRange 13).foldl (fun (t : State) (e : Fin 13) =>
    if !t.wdgRuns e then t
    else
      let c := satInc F.WDG_CNT_US.top (t.getF (R.WDG_CNT e) F.WDG_CNT_US)
      let t1 := t.setF (R.WDG_CNT e) F.WDG_CNT_US c
      if c == t.getF (R.WDG_PERIOD e) F.WDG_PERIOD_US then t1.wdgViolate e F.WDG_STAT_EXP_F else t1) s

/-- The debugger halts the pair: the counter stops with DBG_FREEZE (R444). -/
def State.wdgHalt (s : State) (e : Fin 13) : State :=
  if s.isSet (R.WDG_CTRL e) F.WDG_CTRL_DBG_FREEZE then s.setF (R.WDG_STAT e) F.WDG_STAT_RUN 0 else s

/-- The debugger resumes the pair (R444). -/
def State.wdgResume (s : State) (e : Fin 13) : State :=
  if s.isSet (R.WDG_CTRL e) F.WDG_CTRL_DBG_FREEZE && s.isSet (R.WDG_CTRL e) F.WDG_CTRL_EN && s.wdgMayRun e then
    (s.wdgStart e).setF (R.WDG_STAT e) F.WDG_STAT_DBG_RESUMED 1
  else s

/-- A write of watchdog e's block (R448): configuration in FENCED only. -/
def State.wdgWrite (s : State) (m : Master) (e : Fin 13) (a : Nat) (v : Word) : State :=
  let open_ := match wdgSlice e with
    | some n => s.slState n == slFenced
    | none => true
  let per (p l : Nat) : Bool := decide (10 ≤ p) && decide (l < p)
  match a - wdgBase e with
  | 0x0 =>
    if !open_ then s.wdgReject e
    else
      let was := s.isSet (R.WDG_CTRL e) F.WDG_CTRL_EN
      let s1 := s.setReg a (v &&& 0xE0000000)
      if wdgSlice e == none && s1.isSet a F.WDG_CTRL_EN && !was then s1.wdgStart e
      else if s1.isSet a F.WDG_CTRL_EN then s1 else s1.wdgStop e
  | 0x4 =>
    let us := F.WDG_PERIOD_US.get v
    if open_ && per us (s.getF (R.WDG_LOWER e) F.WDG_LOWER_US) then s.setF a F.WDG_PERIOD_US us
    else s.wdgReject e
  | 0x8 =>
    let us := F.WDG_LOWER_US.get v
    if open_ && per (s.getF (R.WDG_PERIOD e) F.WDG_PERIOD_US) us then s.setF a F.WDG_LOWER_US us
    else s.wdgReject e
  | 0xC => s.wdgSvc m e (F.WDG_SVC_KEY.get v) false
  | 0x10 => s.setReg a (s.reg a &&& ~~~ (v &&& 0xF0000000))
  | _ => s

end Machine
end Sys2Proof
end

