-- ==== Sys2Proof/Machine/Ptb.lean ====
section
/-! DEFINITION. The perturbation units (chapter 28): authority, configuration, enable and end. Unit 12 is the system's. -/

namespace Sys2Proof
namespace Machine

def State.ptbRefuse (s : State) (e : Nat) : State := s.count (R.PTB_REJ e) F.PTB_REJ_COUNT

/-- A write is accepted in SERVICE, or with TEST authority (R477). -/
def State.ptbMay (s : State) (x : Access) : Bool := s.mode == mdService || x.test

/-- Bits n of the Passway ports that a part lacks. -/
def State.portsAbsent (s : State) : Nat := if s.part = .esk7208 then 0xA else 0x0

/-- The bits of a configuration register of a unit; a reserved bit is discarded (R9), a channel that a slice lacks is not. -/
def ptbBits (off : Nat) : Word :=
  match off with
  | 0x08 => 0x0000070F
  | 0x0C => 0x000F003F
  | 0x10 => 0x0000000F
  | 0x1C => 0x83FF00FF
  | 0x20 => 0x0F0300FF
  | _ => 0xFFFF03FF

/-- The value, without reserved bits, is one that the unit's register takes: kinds it has, channels and ports it has, no reserved
value (R477). -/
def State.ptbOk (s : State) (e off : Nat) (v : Word) : Bool :=
  let slice := decide (e < 12)
  match off with
  | 0x08 => decide (F.PTB_BANK_MASTER.get v < if slice then 5 else 4)
  | 0x0C => slice
  | 0x10 => slice
  | 0x14 => !slice || !hasOutside v 0x00FF03FF
  | 0x18 => !slice
  | 0x1C => v == 0 || (s.srcPresent (F.PTB_EVT_SRC.get v) &&
      (!slice || (decide (localSrc e 0 ≤ F.PTB_EVT_SRC.get v) && decide (F.PTB_EVT_SRC.get v ≤ localSrc e 71))))
  | 0x20 => !slice && F.PTB_PWY_FAULT.get v != 3 &&
      (F.PTB_PWY_PORTS.get v &&& s.portsAbsent) == 0
  | _ => false

/-- The kinds whose field is not 0 (R479). -/
def State.ptbKinds (s : State) (e : Nat) : Nat :=
  b2n (s.getF (R.PTB_BANK e) F.PTB_BANK_CYCLES != 0) +
  2 * b2n (s.getF (R.PTB_SAR e) F.PTB_SAR_STRETCH != 0 && s.getF (R.PTB_SAR e) F.PTB_SAR_MASK != 0) +
  4 * b2n (s.getF (R.PTB_CLE e) F.PTB_CLE_DELAY != 0) +
  8 * b2n (s.getF (R.PTB_DMA e) F.PTB_DMA_DELAY != 0 && s.getF (R.PTB_DMA e) F.PTB_DMA_CH != 0) +
  16 * b2n (s.getF (R.PTB_DB e) F.PTB_DB_DELAY != 0 && s.getF (R.PTB_DB e) F.PTB_DB_FN != 0) +
  32 * b2n (s.getF (R.PTB_EVT e) F.PTB_EVT_DELAY != 0) +
  64 * b2n (s.getF (R.PTB_PWY e) F.PTB_PWY_EVERY != 0 && s.getF (R.PTB_PWY e) F.PTB_PWY_FAULT != 0 &&
    s.getF (R.PTB_PWY e) F.PTB_PWY_PORTS != 0)

/-- A write of PTB_CTRL: EN 1 starts the unit, EN 0 ends it with COMMAND; EN 1 in the cycle of a cause that ends the unit resolves
as that cause (R478). -/
def State.ptbCtrl (s : State) (e : Fin 13) (v : Word) : State :=
  let on := F.PTB_CTRL_EN.get v == 1
  let was := s.isSet (R.PTB_CTRL e) F.PTB_CTRL_EN
  if on && !was then
    match s.ptbCause.get e with
    | some (c, k) => if c == s.clock then s.setF (R.PTB_CTRL e) F.PTB_CTRL_END k else begin_
    | none => begin_
  else if !on then s.ptbEnd e 1
  else s
where
  begin_ : State :=
      let s1 := ((s.setF (R.PTB_CTRL e) F.PTB_CTRL_EN 1).setF (R.PTB_CTRL e) F.PTB_CTRL_END 0).setF (R.PTB_ACTIVE e)
        F.PTB_ACTIVE_KINDS (s.ptbKinds e)
      { s1 with pwy := if e.val == 12 then { s1.pwy with faulted := Vector.replicate 4 0 } else s1.pwy
                ptbBy := s1.ptbBy.set e none
                ptbAt := s1.ptbAt.set e s.clock }.notePtb

/-- A write of a perturbation register (R477). -/
def State.ptbWrite (s : State) (x : Access) (e : Fin 13) (a : Nat) (v : Word) : State :=
  let off := a - ptbBase e
  if decide (0x24 < off) then s
  else if !s.ptbMay x then s.ptbRefuse e
  else if off == 0x04 || off == 0x24 then s
  else if off == 0 then s.ptbCtrl e v
  else
    let w := v &&& ptbBits off
    if s.isSet (R.PTB_CTRL e) F.PTB_CTRL_EN || !s.ptbOk e off w then s.ptbRefuse e else s.setReg a w

/-- Every unit ends on a change of mode (R478). -/
def State.ptbMode (s : State) : State := (List.range 13).foldl (fun (t : State) e => t.ptbEnd e 2) s

/-- Units whose EN a Colbel session set end with it (R478). -/
def State.ptbSession (s : State) (sess : Nat) : State :=
  (List.finRange 13).foldl (fun (t : State) (e : Fin 13) => if t.ptbBy.get e == some sess then t.ptbEnd e 4 else t) s

end Machine
end Sys2Proof
end

