-- ==== Sys2Proof/Machine/Recovery.lean ====
section
/-! DEFINITION. Lockstep divergence, checkpoints and recovery inside the module (chapters 16 and 23). -/

namespace Sys2Proof
namespace Machine

/-- Comparison of pair p is in force (R278). -/
def State.compares (s : State) (p : Nat) : Bool := !s.isSet (R.KC_LS_STAT p) F.KC_LS_STAT_SUSPENDED

/-- Record a divergence at a point: 1 MEM_WRITE, 2 REG_WRITE, 3 EVENT_ACK (R272). -/
def State.noteDiv (s : State) (p : Nat) (point : Nat) (d : DivRec) : State :=
  let w := F.KC_LS_LAST_POINT.word point ||| F.KC_LS_LAST_TAG_XOR.word (if point == 1 then d.tagXor.toNat else 0) |||
    F.KC_LS_LAST_BE_XOR.word (if point == 3 then 0 else d.beXor.toNat) ||| F.KC_LS_LAST_ADDR_DIFF.word (b2n d.addrDiff)
  let s1 := ((s.setReg (R.KC_LS_LAST p) w).setReg (R.KC_LS_ADDR p) (if point == 3 then d.addr &&& 0x3FF else d.addr)).setReg
    (R.KC_LS_XOR p) (if point == 3 then d.xor &&& 0x1F else d.xor)
  (s1.setF (R.KC_LS_STAT p) F.KC_LS_STAT_DIV_F 1).count (R.KC_LS_DIV p) F.KC_LS_DIV_COUNT

/-- The first point in the order of R275 at which records differ. -/
def firstDiv (mw rw ea : Option DivRec) : Option (Nat × DivRec) :=
  match mw.filter (·.differs 1), rw.filter (·.differs 2), ea.filter (·.differs 3) with
  | some d, _, _ => some (1, d)
  | none, some d, _ => some (2, d)
  | none, none, some d => some (3, d)
  | none, none, none => none

/-- LOCKSTEP_DIVERGENCE: the points at which pair p differs in this cycle; `mism`: a CLE commit mismatch of the slice falls in
the same cycle (R272 to R275). -/
def State.divergence (s : State) (p : Fin 13) (mw rw ea : Option DivRec) (mism : Bool) : State :=
  match firstDiv mw rw ea with
  | none => s
  | some (pt, d) =>
    if !s.compares p then s
    else if h : p.val < 12 then
      let n : Fin 12 := ⟨p.val, h⟩
      let st := s.slState n
      let c := s.ctlOf n
      if !s.fitted n || st == slOff || st == slSafe || (st == slFenced && !c.restarting) then s
      else
        let s1 := s.noteDiv p pt d
        let s2 := if mism then s1.count (R.CLE_MISMATCH n) F.CLE_MISMATCH_COUNT else s1
        let s3 := s2.setCtl n { c with diverged := true, mcheck := c.mcheck || mism, testDiv := c.testDiv || c.restarting }
        (s3.fireLocal n 2).recoverable n 1
    else if (s.coreOf p).halted then s
    else (s.noteDiv p pt d).sysHalt

/-- A checkpoint is deferred while a LONG or attached result is pending, and inside a prefixed instruction or a locked
sequence (R386). -/
def CoreSt.deferred (c : CoreSt) : Bool := c.long.isSome || c.att || !c.pfx.isEmpty || c.lock.isSome

/-- CHECKPOINT: the registers, with the capability sets, the link stack and the store buffer, and KC_CSEL are copied, and the
replay log is emptied (R386). None is taken while the slice recovers. -/
def State.checkpoint (s : State) (p : Fin 13) : State :=
  let c := s.coreOf p
  if c.deferred || c.halted || (decide (p.val < 12) && s.slState p == slRecovering) then s
  else s.setCore p { c with
    ck := some (c.r, s.reg (R.KC_CSEL p))
    log := []
    retired := 0
    ckAt := s.clock
    ckWas := c.ck
    logWas := c.log }

/-- A rollback or takeover has ended in RUNNING: what was held takes effect (R389). -/
def State.backToRunning (s : State) (n : Fin 12) : State :=
  let s1 := s.recStat n
  let s2 := s1.setCtl n { s1.ctlOf n with diverged := false, mcheck := false, badWord := none, takeover := false }
  let s3 := ((s2.setSl n slRunning).resumeDma n).descReplay n
  let s4 := s3.heldAttach n
  let s5 := if s4.isSet (R.SLC_CMD_STAT n) F.SLC_CMD_STAT_HELD then s4.fenceNow n (s4.ctlOf n).fenceCause else s4.armPending n
  (s5.pinsSlice n).showSync

/-- RECOVERY_COMPLETE: a failing microword has been rewritten from its copy, `stuck` when it still reads wrong (R137), and
the replay has ended, `differs` when an output differed from its log or the cores diverged (R387, R389). Replay gives the pair
the state it had at the fault, from which it runs live (log 30). -/
def State.recoveryEnd (s : State) (n : Fin 12) (stuck differs : Bool) : State :=
  let c := s.ctlOf n
  if s.slState n != slRecovering || c.takeover then s
  else
    let (s1, ok) := match c.badWord with
      | some w => s.mendWord n w stuck
      | none => (s, true)
    if !ok then s1.enterSafe n 4
    else if differs then s1.enterSafe n 6
    else (s1.runLive n).backToRunning n

end Machine
end Sys2Proof
end

