-- ==== Sys2Proof/Machine/Twin.lean ====
section
/-! DEFINITION. The twin link (chapter 23): records received, takeover and handover, the handover line, and the writes of
the TWN block. -/

namespace Sys2Proof
namespace Machine

def State.setTwn (s : State) (t : TwnSt) : State := { s with twn := t }

def State.twnOn (s : State) : Bool := s.mode == mdTwin && s.isSet R.TWN_CFG F.TWN_CFG_EN

def State.applied (s : State) : State := s.count R.TWN_RX F.TWN_RX_COUNT

/-! Records received (R395 to R397, R403). -/

/-- The record's count of CONFIG records against the own one (R397). -/
def State.noteCfgSeq (s : State) (n : Fin 12) (k : Nat) : State :=
  s.setTwn { s.twn with cfgOk := s.twn.cfgOk.set n (k == s.twn.cfgDone.get n) }

/-- Write the value of a record to the target that it names (R397). -/
def State.imageTarget (s : State) (n : Fin 12) (tgt value : Word) : State :=
  let i := F.CLE_TGT_IDX.get tgt
  match F.CLE_TGT_KIND.get tgt with
  | 1 => s.commitCmp n ⟨i % 8, Nat.mod_lt _ (by decide)⟩ value.toNat false false
  | 2 => s.setReg (R.CLE_REF n i) (value &&& 0xFFFF)
  | 3 => s.wr none (smem n (4 * F.CLE_TGT_OFS.get tgt)) ⟨value, tagFrac2⟩
  | _ => s

/-- Loop j of a standby slice takes the state of a record. -/
def State.applyImage (s : State) (n : Fin 12) (j : Fin 16) (x : LoopImage) : State :=
  let i (b : BitVec 16) : Int := b.toInt
  let ls := R.CLE_LSTAT n j
  let s1 := ((s.setB (R.CLE_LCTRL n j) F.CLE_LCTRL_BANK x.bank).setB (R.CLE_LCTRL n j) F.CLE_LCTRL_MODE x.mode).setB ls
    F.CLE_LSTAT_AUTO_FIRST x.autoFirst
  let s2 := ((s1.setF ls F.CLE_LSTAT_SEQ x.seq.toNat).setB ls F.CLE_LSTAT_CLAMP_HI_F x.clampHi).setB ls
    F.CLE_LSTAT_CLAMP_LO_F x.clampLo
  let s3 := ((s2.setReg (R.CLE_REF n j) (pack16 (i x.ref) 0)).setReg (R.CLE_IN n j) (pack16 (i x.inp) 0)).setReg (R.CLE_MAN n j)
    (pack16 (i x.man) 0)
  let s4 := (s3.setHist n j (i x.e1, i x.e2, i x.e3) (i x.y1, i x.y2, i x.y3)).setReg (R.CLE_OUT n j) (pack16 (i x.y) (i x.u))
  let c := s4.cleOf n
  let l := c.loops.get j
  let s5 := s4.setCle n { c with loops := c.loops.set j { l with committed := true, autoY := if x.mode then l.autoY else i x.y } }
  s5.imageTarget n x.tgt x.value

/-- A COMMIT or SNAP record is received. A COMMIT for an active slice is a conflict (R403). -/
def State.loopIn (s : State) (snap : Bool) (n : Fin 12) (j : Fin 16) (x : LoopImage) (cfgseq : Nat) : State :=
  if s.standby n then
    let s1 := ((s.applied.noteCfgSeq n cfgseq).applyImage n j x)
    let s2 := if snap then
        s1.setTwn { s1.twn with snapped := s1.twn.snapped.set n (s1.twn.snapped.get n ||| BitVec.ofNat 16 (2 ^ j.val)) }
      else s1
    s2.showSync
  else if s.active n && !snap then
    let s1 := if s.isSet R.TWN_STAT F.TWN_STAT_ROLE_CONFLICT_F then s
      else (s.setF R.TWN_STAT F.TWN_STAT_ROLE_CONFLICT_F 1).fire 983
    if s1.side then s1.setRole n 2 else s1
  else s

/-- A command of R115 that took effect on the active module (R396). -/
def State.applyCmd (s : State) (n : Fin 12) (v : Word) : State :=
  let j : Fin 16 := ⟨v.toNat / 256 % 16, Nat.mod_lt _ (by decide)⟩
  let lc := R.CLE_LCTRL n j
  match v.toNat % 16 with
  | 1 => s.setB lc F.CLE_LCTRL_BANK (!s.isSet lc F.CLE_LCTRL_BANK)
  | 2 => s.setF lc F.CLE_LCTRL_MODE 0
  | 3 => s.setF lc F.CLE_LCTRL_MODE 1
  | 4 => s.setHist n j (0, 0, 0) (0, 0, 0)
  | _ => s

/-- The offset is one that CONFIG records carry: CLE_CLAMP, CLE_MAN or a coefficient bank of a loop (R396). -/
def cfgOffset (n off : Nat) : Bool :=
  (List.range 16).any (fun j =>
    let o (a : Nat) : Nat := a - sliceBase n
    off == o (R.CLE_CLAMP n j) || off == o (R.CLE_MAN n j) || (List.range 2).any (fun k =>
      off == o (R.CLE_CB0 n j k) || off == o (R.CLE_CB1 n j k) || off == o (R.CLE_CB2 n j k) || off == o (R.CLE_CB3 n j k)))

/-- A CONFIG record is received; the record that counts 1 starts the count of a new pairing (log 31). -/
def State.configIn (s : State) (n : Fin 12) (off : Nat) (v : Word) (cfgseq : Nat) : State :=
  if !s.standby n then s
  else
    let s1 := if off == 0x4008 then s.applyCmd n v else if cfgOffset n off then s.setReg (sliceBase n + off) v else s
    let s2 := s1.applied.setTwn { s1.twn with cfgDone := s1.twn.cfgDone.set n (if cfgseq = 1 then 1 else s1.twn.cfgDone.get n + 1) }
    (s2.noteCfgSeq n cfgseq).showSync

/-! Takeover (R401). -/

/-- The taker can take the slice. -/
def State.canTake (s : State) (n : Fin 12) : Bool := s.synced n && s.slState n == slRunning && s.armed n && !(s.ctlOf n).fencing

/-- T_H: the slice takes the active role and enters RECOVERING. -/
def State.takeSlice (s : State) (n : Fin 12) : State :=
  ((s.setCtl n { s.ctlOf n with takeover := true }).putRole n 1).enterRecovering n 5

def State.noteTaken (s : State) (mask : BitVec 12) (cause : Nat) : State :=
  let a := R.TWN_LAST_HO
  ((((s.setF a F.TWN_LAST_HO_DIR 1).setF a F.TWN_LAST_HO_REFUSED 0).setF a F.TWN_LAST_HO_CAUSE cause).countWrap a
    F.TWN_LAST_HO_SEQ).setF a F.TWN_LAST_HO_SLICES mask.toNat

def State.takeAll (s : State) (mask : BitVec 12) : State :=
  (s.reportRoles ((List.finRange 12).foldl (fun (t : State) (n : Fin 12) =>
    if mask.getLsbD n then t.takeSlice n else t) s)).fireIf (mask != 0) 979

def finMask (p : Fin 12 → Bool) : BitVec 12 :=
  (List.finRange 12).foldl (fun (m : BitVec 12) n => if p n then m ||| maskBit n else m) 0

/-- A HANDOVER record is received: the slices are taken, or named as refused (R401, R403). -/
def State.handoverIn (s : State) (mask : BitVec 12) (cause : Nat) : State :=
  let taken := finMask (fun n => mask.getLsbD n && s.canTake n)
  let refused := mask &&& ~~~ taken
  let s1 := (s.applied.takeAll taken)
  let s2 := if taken != 0 then s1.noteTaken taken cause else s1
  let s3 := if refused != 0 && !s2.isSet R.TWN_STAT F.TWN_STAT_TAKE_REFUSED_F then
      (s2.setF R.TWN_STAT F.TWN_STAT_TAKE_REFUSED_F 1).fire 984 else s2
  s3.twinSend (.takeAck taken refused)

/-- The deposer takes the active role back for slices that were not taken; an armed one passes from off to SAFE_PAT, which it
holds until it is disarmed or leaves FENCED or SAFE (R51, R403, log 200). -/
def State.takeBack (s : State) (mask : BitVec 12) : State :=
  if mask == 0 then s
  else
    let m := sliceMask (fun n => mask.getLsbD n && s.standby n)
    let s1 := (List.finRange 12).foldl (fun (t : State) (n : Fin 12) =>
      if m.getLsbD n && t.armed n then t.setCtl n { t.ctlOf n with safeHold := true } else t) s
    (s1.setRoles m 1).setF R.TWN_LAST_HO F.TWN_LAST_HO_REFUSED 1

/-- A TAKE_ACK record is received. -/
def State.takeAckIn (s : State) (taken refused : BitVec 12) : State :=
  (s.applied.setTwn { s.twn with await := s.twn.await &&& ~~~ (taken ||| refused) }).takeBack (s.twn.await &&& refused)

/-- No TAKE_ACK within 2.00 µs. -/
def State.takeAckTimeout (s : State) : State :=
  if s.twn.await == 0 || decide (s.clock < s.twn.sentAt + 3000) then s
  else (s.setTwn { s.twn with await := 0 }).takeBack s.twn.await

/-- CONFIG records of both banks of loop j, then its SNAP record (R396). -/
def State.snapLoop (s : State) (n : Fin 12) (j : Fin 16) : State :=
  let regs := (List.range 2).flatMap (fun k => [R.CLE_CB0 n j k, R.CLE_CB1 n j k, R.CLE_CB2 n j k, R.CLE_CB3 n j k])
  let s1 := regs.foldl (fun (t : State) a =>
    let k := t.twn.cfgSent.get n + 1
    (t.setTwn { t.twn with cfgSent := t.twn.cfgSent.set n k }).twinSend (.config n (a - sliceBase n) (t.reg a) k)) s
  let value := match F.CLE_TGT_KIND.get (s1.reg (R.CLE_TGT n j)) with
    | 1 => s1.reg (R.PWM_CMP n (s1.getF (R.CLE_TGT n j) F.CLE_TGT_IDX))
    | 2 => s1.reg (R.CLE_REF n (s1.getF (R.CLE_TGT n j) F.CLE_TGT_IDX))
    | 3 => (s1.cell (smem n (4 * s1.getF (R.CLE_TGT n j) F.CLE_TGT_OFS))).v
    | _ => 0
  s1.twinSend (.loopRec true n j (s1.loopImage n j value (s1.isSet (R.CLE_LSTAT n j) F.CLE_LSTAT_AUTO_FIRST)) (s1.twn.cfgSent.get n))

/-- The nine records of the next loop that waits for them enter the queue, where it has room for them (log 175). -/
def State.snapNext (s : State) : State :=
  match s.twn.snapDue with
  | [] => s
  | (n, j) :: l =>
    if !s.twnOn || decide (55 < s.twn.queue.length) then s
    else
      let t := s.setTwn { s.twn with snapDue := l }
      if t.active n && t.isSet (R.CLE_LCTRL n j) F.CLE_LCTRL_EN then t.snapLoop n j else t

/-- A STATUS record is received (R396, R399). The partner's slices that have newly entered the standby role RUNNING get SNAP
and CONFIG records of every enabled loop; the count of CONFIG records starts again with them (log 31). -/
def State.statusIn (s : State) (synced armed standby : BitVec 12) : State :=
  let a := R.TWN_PEER
  let news := standby &&& ~~~ s.twn.peerStandby
  let s1 := ((s.applied.setF a F.TWN_PEER_FRESH 1).setF a F.TWN_PEER_ARMED armed.toNat).setF a F.TWN_PEER_SYNCED synced.toNat
  let s2 := s1.setTwn { s1.twn with peerStandby := standby, statusAt := s1.clock }
  ((List.finRange 12).foldl (fun (t : State) (n : Fin 12) =>
    if news.getLsbD n && t.active n then
      t.setTwn { t.twn with
        cfgSent := t.twn.cfgSent.set n 0
        snapDue := t.twn.snapDue.filter (fun e => e.1 != n) ++ (List.finRange 16).map (fun j => (n, j)) }
    else t) s2).snapNext

/-! The order of the records received (R395). -/

/-- A record is applied (R396). -/
def State.applyRec (s : State) (r : TwinRec) : State :=
  match r with
  | .loopRec snap n j x k => s.loopIn snap n j x k
  | .config n off v k => s.configIn n off v k
  | .handover m cause _ => s.handoverIn m cause
  | .takeAck taken refused => s.takeAckIn taken refused
  | .status synced armed standby _ => s.statusIn synced armed standby

/-- Records that have come, in STREAM order, are applied while nothing before them can still come: the next in STREAM, or, with
records of both lanes at hand, the first of them, since each lane keeps its order (R395, log 199). -/
def State.applyInTurn (s : State) (l : List (Nat × TwinRec)) : State :=
  match l with
  | [] => s.setTwn { s.twn with ahead := [] }
  | (k, r) :: t =>
    if s.twn.rx == some k || t.any (fun e => e.1 % 2 != k % 2) then
      ((s.setTwn { s.twn with rx := some ((k + 1) % 65536) }).applyRec r).applyInTurn t
    else s.setTwn { s.twn with ahead := l }

/-- Insert a record by its distance from the next in STREAM. -/
def insertRec (x k : Nat) (r : TwinRec) (l : List (Nat × TwinRec)) : List (Nat × TwinRec) :=
  match l with
  | [] => [(k, r)]
  | e :: t => if (k + 65536 - x) % 65536 < (e.1 + 65536 - x) % 65536 then (k, r) :: l else e :: insertRec x k r t

/-- A record with this STREAM is received. One lane keeps the order by itself; with two, a record that is ahead of its turn
waits (R395). -/
def State.received (s : State) (stream : BitVec 16) (r : TwinRec) : State :=
  let k := stream.toNat
  if !s.twnOn || !s.clockOn 2 then s
  else
    match s.twn.rx with
    | some x =>
      if s.getF R.TWN_STAT F.TWN_STAT_LANES == 3 && decide ((k + 65536 - x) % 65536 < 32768) then
        s.applyInTurn (insertRec x k r s.twn.ahead)
      else (s.setTwn { s.twn with rx := some ((k + 1) % 65536) }).applyRec r
    | none => (s.setTwn { s.twn with rx := some ((k + 1) % 65536) }).applyRec r

/-- The records at hand are applied: nothing before them comes any more. -/
def State.applyAhead (s : State) : State :=
  s.twn.ahead.foldl (fun (t : State) e => t.applyRec e.2) (s.setTwn { s.twn with rx := none, ahead := [] })

/-- STATUS_TRANSMIT. -/
def State.statusOut (s : State) : State := s.twinSend s.statusRec

/-- The partner's report is older than 200 µs (R399). -/
def State.statusAge (s : State) : State :=
  if s.isSet R.TWN_PEER F.TWN_PEER_FRESH && decide (300000 < s.clock - s.twn.statusAt) then s.setF R.TWN_PEER F.TWN_PEER_FRESH 0 else s

/-! Link and line (R402, R403, R407). -/

/-- TWIN_LINK_UP: every fitted lane has symbol lock; `p` is the module at the other end. On a link that is up it tells what
has changed there (log 177). -/
def State.twinUp (s : State) (p : TwinPeer) : State :=
  if !s.isSet R.TWN_CFG F.TWN_CFG_EN || s.mode == mdStabled || !s.clockOn 2 then s
  else if s.getF R.TWN_STAT F.TWN_STAT_LANES == s.lanesFitted then (s.setTwn { s.twn with peer := some p }).pairUp
  else
    let s1 := (s.setF R.TWN_STAT F.TWN_STAT_LANES s.lanesFitted).fire 977
    (s1.setTwn { s1.twn with peer := some p, lost := false, peerStandby := 0, snapDue := [], rx := none, ahead := [] }).pairUp

/-- TWIN_LINK_LOSS: no fitted lane has had symbol lock for 1.00 µs. -/
def State.twinLoss (s : State) : State :=
  if !s.isSet R.TWN_CFG F.TWN_CFG_EN || s.twn.lost then s
  else
    let s1 := ((s.setF R.TWN_STAT F.TWN_STAT_LANES 0).setF R.TWN_STAT F.TWN_STAT_LINK_DOWN_F 1).fire 976
    (s1.applyAhead.setTwn { s1.applyAhead.twn with lost := true, lostAt := s1.clock }).showHealth

/-- One lane loses symbol lock. -/
def State.laneLose (s : State) (p : Fin 4) : State :=
  if p.val == 2 then (s.applyAhead.setF R.TWN_STAT ⟨0, 1⟩ 0).showHealth
  else if p.val == 3 then (s.applyAhead.setF R.TWN_STAT ⟨1, 1⟩ 0).showHealth
  else s

/-- HANDOVER_LINE_ASSERT: a module that lost the link and is standby for a slice asserts TWN_HO_OUT and takes its slices,
unless its own TWN_HO_IN is asserted: 1.00 µs after the loss with SIDE 1, and 3.00 µs after it with SIDE 0. -/
def State.lineAssert (s : State) : State :=
  if !s.twnOn || !s.twn.lost || s.getF R.TWN_ROLE F.TWN_ROLE_STANDBY == 0 || s.isSet R.TWN_STAT F.TWN_STAT_HO_IN ||
      s.isSet R.TWN_STAT F.TWN_STAT_HO_OUT || (!s.side && decide (s.clock < s.twn.lostAt + 3000)) then s
  else
    let taken := finMask s.canTake
    let s1 := (s.setF R.TWN_STAT F.TWN_STAT_HO_OUT 1).takeAll taken
    if taken == 0 then s1 else s1.noteTaken taken 6

/-- HANDOVER_LINE_IN: TWN_HO_IN is asserted: pins off, and a twin module is deposed: it fences its RUNNING slices with cause
DEPOSED, and holds its active slices as standby from then on (R400, R402, R404). -/
def State.lineIn (s : State) : State :=
  if s.isSet R.TWN_STAT F.TWN_STAT_HO_IN then s
  else
    let s1 := (s.setF R.TWN_STAT F.TWN_STAT_HO_IN 1).pinsAll
    if !s.twnOn then s1
    else
      let s2 := (s1.setF R.TWN_STAT F.TWN_STAT_DEPOSED 1).fire 981
      let m := finMask (fun n => s2.active n)
      let s3 := (s2.descHanded m).setTwn { s2.twn with await := 0 }
      (List.finRange 12).foldl (fun (u : State) (n : Fin 12) =>
        if u.slState n == slRunning && !(u.ctlOf n).fencing then u.fenceNow n 0x0A else u) (s3.setRoles m 2)

/-- TWN_HO_IN falls. -/
def State.lineOut (s : State) : State :=
  ((s.setF R.TWN_STAT F.TWN_STAT_HO_IN 0).setF R.TWN_STAT F.TWN_STAT_DEPOSED 0).pinsAll

/-- TAKEOVER_COMPLETE: the slice reads RUNNING. Each channel leaves off under R167, its active dead time after this instant,
and channels with REC_ACT hold SAFE_PAT until their loop's first commit (R401). -/
def State.takeoverEnd (s : State) (n : Fin 12) : State :=
  let c := s.ctlOf n
  if s.slState n != slRecovering || !c.takeover then s
  else
    let wait : Vector Bool 8 := Vector.ofFn (fun (k : Fin 8) => s.isSet (R.PWM_TRIP_CFG n k) F.PWM_TRIP_CFG_REC_ACT)
    let now := 16 * s.clock
    let s1 := (List.finRange 8).foldl (fun (t : State) (k : Fin 8) =>
      t.setPw n k { t.pw n k with offA := some now, offB := some now }) s
    (s1.setCtl n { c with recWait := wait, unmasked := true }).backToRunning n

/-- HEALTHY_CHG: one millisecond without a dropped record (R399). -/
def State.healthy (s : State) : State :=
  if s.clock < s.twn.dropAt + 1500000 then s else (s.setTwn { s.twn with dropRecent := false }).showHealth

/-! Writes of the TWN block (R407). -/

/-- RELEASE: TWN_HO_OUT is deasserted if the link is trained (R402). -/
def State.twnCmd (s : State) (v : Word) : State :=
  if F.TWN_CMD_KEY.get v != 0x7E1A then s.badAcc
  else if F.TWN_CMD_RELEASE.get v == 1 && s.getF R.TWN_STAT F.TWN_STAT_LANES == s.lanesFitted then
    s.setF R.TWN_STAT F.TWN_STAT_HO_OUT 0
  else s

def State.twnWrite (s : State) (a : Nat) (v : Word) : State :=
  match a - 0x010B0000 with
  | 0x0 =>
    if s.mode == mdTwin then s.badAcc
    else
      let s1 := s.setReg a (v &&& 0xF0000000)
      if s1.isSet a F.TWN_CFG_EN then s1
      else
        let s2 := ((s1.portLose 2).portLose 3).setF R.TWN_STAT F.TWN_STAT_LANES 0
        { s2 with twn := { s2.twn with queue := [], snapDue := [], statusDue := false, rx := none, ahead := [], lost := false, peer := none } }
  | 0x4 => s.twnCmd v
  | 0x8 => s.setReg a (s.reg a &&& ~~~ (v &&& 0xF0000000))
  | _ => s

end Machine
end Sys2Proof
end

