-- ==== Sys2Proof/Machine/Rings.lean ====
section
/-! DEFINITION. Functions, rings, doorbells and aborts (chapters 20 and 21). -/

namespace Sys2Proof
namespace Machine

/-- An access of function f is refused or discarded (R338, R341). -/
def State.fnErr (s : State) (f : Nat) : State := s.count (R.HIF_FN_ERR f) F.HIF_FN_ERR_BADACC

/-- A host access is refused (R8, R338): it counts, and BADACC fires. -/
def State.hostRefuse (s : State) (f : Nat) : State := (s.badAcc.fnErr f).fire 1015

/-- A refused access: the host sees all ones; every refusal counts (R8). -/
def State.refuse (s : State) (m : Master) : State :=
  match m with
  | .fn f => s.hostRefuse f
  | _ => s.badAcc

/-! MSI-X (R307, R343). -/

/-- Vector v of function f is issued, or its pending bit is set. -/
def State.msixSend (s : State) (f : Fin 16) (v : Nat) : State :=
  let x := s.fnOf f
  if !x.msixEn then s
  else if x.fmask || !x.vopen.contains v then
    if x.vpend.contains v then s else s.setFn f { x with vpend := x.vpend ++ [v] }
  else s.emit (.msix (128 * f.val + v))

/-- The function of an MSI-X router target. -/
def msixFn (i : Nat) : Fin 16 := ⟨i / 128 % 16, Nat.mod_lt _ (by decide)⟩

/-- A message to an MSI-X target is held back: its function is enabled, and MSI-X or its requests are not (R333, R343). -/
def State.msixHeld (s : State) (t : RouteTgt) : Bool :=
  let f := msixFn t.index
  !s.rejected t && s.fnEn f && (!(s.fnOf f).msixEn || (s.fnOf f).fmask || !s.fnReach f)

/-- The message that waits on route r is accepted: issued, or orphaned (R307, R312, R343). -/
def State.msixGo (s : State) (r : Nat) : State :=
  let rt := s.route r
  let t := s.routeTgt r
  let f := msixFn t.index
  if rt.st != .pending || t.kind != 2 then s
  else if s.rejected t || !s.fnEn f then s.orphanRoute r t
  else if s.msixHeld t then s
  else (s.sendOff r).msixSend f (t.index % 128)

/-- MSIX_ISSUE: of the messages that may be issued, the most urgent goes first (R307). -/
def State.msixIssue (s : State) (r : Nat) : State :=
  if s.goesFirst 2 (fun t => !s.msixHeld t) r then s.msixGo r else s

/-- The messages that wait for a vector of function f are issued, the most urgent first; fuel: how many there can be. -/
def State.msixOfferMany (s : State) (f : Fin 16) : Nat → State
  | 0 => s
  | k + 1 =>
    match s.mostUrgent ((s.evr.routes.filter (fun e => e.2.st == .pending && (s.routeTgt e.1).kind == 2 &&
        msixFn (s.routeTgt e.1).index == f)).map (·.1)) with
    | none => s
    | some r => if s.msixHeld (s.routeTgt r) then s else (s.msixGo r).msixOfferMany f k

/-- Every message that waits for a vector of function f is offered again. -/
def State.msixOffer (s : State) (f : Fin 16) : State := s.msixOfferMany f s.evr.routes.length

/-- Pending bits of vectors that are no longer masked are issued, while the function may issue requests (R333). -/
def State.msixUnmask (s : State) (f : Fin 16) : State :=
  let x := s.fnOf f
  if !x.msixEn || x.fmask || !s.fnReach f then s
  else
    let go := x.vpend.filter (fun v => x.vopen.contains v)
    go.foldl (fun (t : State) v => t.emit (.msix (128 * f.val + v)))
      (s.setFn f { x with vpend := x.vpend.filter (fun v => !x.vopen.contains v) })

/-! Rings (R347 to R349). -/

def State.sqOn (s : State) (f r : Nat) : Bool := s.isSet (R.RNG_SQ_CFG f r) F.RNG_SQ_CFG_EN
def State.cqOn (s : State) (f q : Nat) : Bool := s.isSet (R.RNG_CQ_CFG f q) F.RNG_CQ_CFG_EN
def State.sqDepth (s : State) (f r : Nat) : Nat := 2 ^ s.getF (R.RNG_SQ_CFG f r) F.RNG_SQ_CFG_LOG2DEPTH
def State.cqDepth (s : State) (f q : Nat) : Nat := 2 ^ s.getF (R.RNG_CQ_CFG f q) F.RNG_CQ_CFG_LOG2DEPTH
def State.quiescing (s : State) (f : Nat) : Bool := s.isSet (R.RNG_CTRL f) F.RNG_CTRL_QUIESCING
def State.enPending (s : State) (f : Nat) : Bool := s.isSet (R.RNG_CTRL f) F.RNG_CTRL_ENABLE_PENDING

/-- A 64-bit address from its two registers. -/
def State.addr64 (s : State) (lo hi : Nat) : Nat := (s.reg lo).toNat + 2 ^ 32 * (s.reg hi).toNat

/-- An enable takes effect: rings start at head and tail 0, phases at 1 (R344). -/
def State.enableNow (s : State) (f : Fin 16) : State :=
  let s1 := (List.range 8).foldl (fun (t : State) r =>
    let t1 := if t.sqOn f r then t.setReg (R.RNG_SQ_HEAD f r) 0 else t
    let t2 := if t1.cqOn f r then t1.setReg (R.RNG_CQ_TAIL f r) 0 else t1
    t2.setF (R.RNG_CQ_TAIL f r) F.RNG_CQ_TAIL_PHASE 1) s
  let s2 := s1.setFn f { s1.fnOf f with
    flights := []
    done := []
    fetched := 0
    asked := Vector.replicate 8 false
    cqHeld := Vector.replicate 8 0
    stopped := false }
  ((((s2.setF (R.HIF_FN_STAT f) F.HIF_FN_STAT_EN 1).setF (R.RNG_CTRL f) F.RNG_CTRL_EN 1).setF (R.RNG_CTRL f)
    F.RNG_CTRL_ENABLE_PENDING 0).fire (992 + f.val))

/-- The conditions of R344. -/
def State.enableOk (s : State) (f : Fin 16) : Bool :=
  let md := s.mode
  (md == mdService || md == mdHosted || md == mdTwin || md == mdHil) && (s.fnOf f).bme && s.fnExists f &&
    (List.range 8).all (fun r => !s.sqOn f r || s.cqOn f (s.getF (R.RNG_SQ_CFG f r) F.RNG_SQ_CFG_CQ))

/-- FUNCTION_ENABLE: a write of 1 to RNG_CTRL.EN (R344, R365). An enabled function stays as it is (log 32). -/
def State.fnEnable (s : State) (f : Fin 16) : State :=
  let a := R.RNG_CTRL f
  if !s.enableOk f then s.setF a F.RNG_CTRL_EN_STATUS 2
  else
    let s1 := s.setF a F.RNG_CTRL_EN_STATUS 0
    if s1.quiescing f then s1.setF a F.RNG_CTRL_ENABLE_PENDING 1
    else if s1.fnEn f then s1
    else s1.enableNow f

/-! Completion entries (R349, R352). -/

/-- The CQ of SQ r. -/
def State.cqOf (s : State) (f : Nat) (r : Nat) : Fin 8 := ⟨s.getF (R.RNG_SQ_CFG f r) F.RNG_SQ_CFG_CQ % 8, Nat.mod_lt _ (by decide)⟩

/-- The CQ can take an entry (R362). -/
def State.cqTakes (s : State) (f : Fin 16) (q : Fin 8) : Bool :=
  s.fnReach f && s.cqOn f q && decide ((s.fnOf f).cqHeld.get q < s.cqDepth f q)

/-- Write a completion entry to its CQ, which can take it. -/
def State.writeCompl (s : State) (f : Fin 16) (c : Compl) : State :=
  let q := s.cqOf f c.sq
  let a := R.RNG_CQ_TAIL f q
  let tail := s.getF a F.RNG_CQ_TAIL_TAIL
  let phase := s.getF a F.RNG_CQ_TAIL_PHASE
  let ptb := c.ptb || (if c.slice < 12 then s.ptbFlag c.slice else s.ptbActive 12)
  let w0 := BitVec.ofNat 32 (c.tag + 65536 * c.status + 2 ^ 24 * (phase + 2 * b2n ptb))
  let w1 := BitVec.ofNat 32 (c.sq + 65536 * s.getF (R.RNG_SQ_HEAD f c.sq) F.RNG_SQ_HEAD_HEAD)
  let base := s.addr64 (R.RNG_CQ_LO f q) (R.RNG_CQ_HI f q)
  let s1 := s.toHost f (base + 16 * tail) [w0, w1, c.result.setWidth 32, (c.result >>> 32).setWidth 32]
  let wrap := tail + 1 == s.cqDepth f q
  let s2 := (s1.setF a F.RNG_CQ_TAIL_TAIL (if wrap then 0 else tail + 1)).setF a F.RNG_CQ_TAIL_PHASE
    (if wrap then 1 - phase else phase)
  let x := s2.fnOf f
  let s3 := s2.setFn f { x with cqHeld := x.cqHeld.set q (x.cqHeld.get q + 1) }
  if c.notify && s3.isSet (R.RNG_CQ_CFG f q) F.RNG_CQ_CFG_IRQ_EN then
    s3.msixSend f (s3.getF (R.RNG_CQ_CFG f q) F.RNG_CQ_CFG_VECTOR)
  else s3

/-! Disable and abort (R346, R361 to R365). -/

/-- The slices that a function owns. -/
def State.ownedBy (s : State) (f : Nat) : BitVec 12 := finMask (fun n => s.fitted n && s.owner n == f)

/-- The slices of a function that stops are fenced with cause OWNER_ABORT and return to the system domain: at once when OFF
or FENCED, else when they read FENCED (R48, R362). -/
def State.quiesceSlices (s : State) (f : Fin 16) : State :=
  let twin := s.isSet (R.RNG_CTRL f) F.RNG_CTRL_ABT_TWIN
  (List.finRange 12).foldl (fun (t : State) (n : Fin 12) =>
    if !t.fitted n || t.owner n != f.val then t
    else
      let st := t.slState n
      if st == slFenced || (st == slOff && !(t.ctlOf n).fencing) then t.setOwner n 0x1F
      else if t.fencePending n then
        (t.setFn f { t.fnOf f with abtFenced := (t.fnOf f).abtFenced ||| maskBit n }).setCtl n { t.ctlOf n with fenceCause := 8 }
      else
        let ho := twin && t.twinReady n
        let x := t.fnOf f
        let t1 := t.setFn f { x with
          abtFenced := x.abtFenced ||| maskBit n
          abtTwin := if ho then x.abtTwin ||| maskBit n else x.abtTwin }
        t1.fenceStart n 8 ho) s

/-- The channels of the system engine that work for a function stop (R362). -/
def State.stopXfers (s : State) (f : Fin 16) : State :=
  (List.finRange 16).foldl (fun (t : State) (c : Fin 16) =>
    if (s.fnOf f).flights.any (fun y => y.begun && y.await == Await.dma 12 c) then t.dmaStop 12 c true else t) s

/-- An executing descriptor stops: what it waited for does not carry it on any more; a DMA channel that works for it is still
to stop (R362). -/
def Flight.stop (y : Flight) : Flight :=
  { y with await := match y.await with
      | .dma e c => .dma e c
      | _ => .nothing }

/-- Steps 1 to 3 of R362: nothing further is fetched or goes on, and what its reads still bring is late (R363). -/
def State.abortBegin (s : State) (f : Fin 16) (cause : Nat) : State :=
  let x := s.fnOf f
  let s1 := (s.setF (R.RNG_CTRL f) F.RNG_CTRL_QUIESCING 1).setFn f { x with
    cause := cause
    late := s.reads f
    cut := x.fetches
    asked := Vector.replicate 8 false
    flights := x.flights.map Flight.stop
    trace := none }
  (s1.quiesceSlices f).stopXfers f

/-- ABT_SLICES and the rest of the abort record (R350, R362). -/
def State.abortRecord (s : State) (f : Nat) (cause count unrep : Nat) (fenced twin : BitVec 12) : State :=
  let a := R.ABT_STAT f
  let seq := s.getF a F.ABT_STAT_SEQ + 1
  let s1 := s.setReg a (F.ABT_STAT_DONE.word 1 ||| F.ABT_STAT_CQ_UNREACH.word (b2n (unrep != 0)) ||| F.ABT_STAT_SEQ.word seq |||
    F.ABT_STAT_CAUSE.word cause)
  let s2 := (s1.setReg (R.ABT_COUNT f) (BitVec.ofNat 32 count)).setReg (R.ABT_UNREP f) (BitVec.ofNat 32 unrep)
  (s2.setReg (R.ABT_TIME f) s2.mtimeLo).setReg (R.ABT_SLICES f)
    (F.ABT_SLICES_TWIN.word twin.toNat ||| F.ABT_SLICES_FENCED.word fenced.toNat)

/-- The function is disabled: its epoch counts, its vectors' routes become STALE, no pending bit of theirs is left, and source
992 + f fires (R335, R341, R362). -/
def State.fnOff (s : State) (f : Fin 16) : State :=
  let s0 := s.setFn f { s.fnOf f with vpend := [], trace := none, stopped := (s.fnOf f).stopped || s.fnEn f }
  let s1 := ((s0.setF (R.HIF_FN_STAT f) F.HIF_FN_STAT_EN 0).setF (R.RNG_CTRL f) F.RNG_CTRL_EN 0).setF (R.RNG_CTRL f)
    F.RNG_CTRL_QUIESCING 0
  ((s1.countWrap (R.HIF_FN_STAT f) F.HIF_FN_STAT_EPOCH).staleTarget 2 (fun i => vectorFn i == f.val)).fire (992 + f.val)

/-- A function abort (R361): absorbed while one runs, complete at once on a function that is neither enabled nor quiescing, with
the slices it fences in its record. -/
def State.abort (s : State) (f : Fin 16) (cause : Nat) : State :=
  if s.quiescing f then
    if (s.fnOf f).cause == 0 then s.abortBegin f cause else s
  else if s.fnEn f then s.abortBegin f cause
  else
    let t := s.quiesceSlices f
    let u := (t.abortRecord f cause 0 0 (t.fnOf f).abtFenced (t.fnOf f).abtTwin).fnOff f
    u.setFn f { u.fnOf f with cause := 0, abtFenced := 0, abtTwin := 0 }

/-- A disable whose descriptors have all completed quiesces the slices (R346). -/
def State.drained (s : State) (f : Fin 16) : State :=
  let x := s.fnOf f
  if s.quiescing f && x.cause == 0 && x.inflight == 0 then s.quiesceSlices f else s

/-- FUNCTION_DISABLE: a write of 1 to RNG_CTRL.DISABLE. -/
def State.fnDisable (s : State) (f : Fin 16) : State :=
  if !s.fnEn f || s.quiescing f then s
  else ((s.setFn f { s.fnOf f with disAt := s.clock }).setF (R.RNG_CTRL f) F.RNG_CTRL_QUIESCING 1).drained f

/-- DISABLE_TIMEOUT: a descriptor is still in flight 1 ms after the DISABLE. -/
def State.disableTimeout (s : State) (f : Fin 16) : State :=
  let x := s.fnOf f
  if s.quiescing f && x.cause == 0 && x.inflight != 0 && decide (x.disAt + 1500000 ≤ s.clock) then
    s.abortBegin f 7
  else s

/-- A channel of the system engine still works for the function. -/
def FnSt.onXfer (x : FnSt) : Bool :=
  x.flights.any (fun y => y.begun && (match y.await with | .dma e _ => e == 12 | _ => false))

/-- ABORT_COMPLETE: quiesce completes once every slice of the function has returned to the system domain and its system
channels have stopped (R362): in-flight descriptors end ABORTED, those of slices handed over with RESULT bit 63 (R405), one whose
fetch was cut short without an entry, since its TAG is not known (log 202); a pending enable takes effect (R365). A plain disable
has none left (R346). -/
def State.abortEnd (s : State) (f : Fin 16) : State :=
  let x := s.fnOf f
  if !s.quiescing f || s.ownedBy f != 0 || x.onXfer || (x.cause == 0 && x.inflight != 0) then s
  else
    let all := inOrder (x.done.map (fun c => if c.status == 7 then c else { c with status := 7, result := 0 }) ++
      x.flights.map (fun y => { (s.flightPtb y).ends 7 0 with status := 7 }))
    let (s1, unrep) := all.foldl (fun (acc : State × Nat) c =>
      if acc.1.cqTakes f (acc.1.cqOf f c.sq) then (acc.1.writeCompl f c, acc.2) else (acc.1, acc.2 + 1)) (s, x.cut)
    let s2 := if x.cause == 0 then s1 else s1.abortRecord f x.cause (all.length + x.cut) unrep x.abtFenced x.abtTwin
    let s3 := s2.setFn f { s2.fnOf f with flights := [], done := [], cut := 0, cause := 0, abtFenced := 0, abtTwin := 0 }
    let pend := s3.enPending f
    let s4 := s3.fnOff f
    if pend then s4.enableNow f else s4

/-- LATE_COMPLETION (R363). -/
def State.lateCompletion (s : State) (f : Fin 16) : State :=
  let x := s.fnOf f
  if x.late == 0 then s else (s.setFn f { x with late := x.late - 1 }).count (R.RNG_LATE_CPL f) F.RNG_LATE_CPL_COUNT

/-! Doorbells (R350, R365). -/

def State.dbDrop (s : State) (g : Nat) : State := s.count (R.RNG_DB_DROPPED g) F.RNG_DB_DROPPED_COUNT

/-- BADVAL_F is set by a doorbell whose value is at or beyond the depth. -/
def State.badValue (s : State) (g : Nat) (bad : Bool) : State :=
  if bad then s.setF (R.RNG_STAT g) F.RNG_STAT_BADVAL_F 1 else s

/-- The common checks of a doorbell of page g by function `by_`: only PF0 reaches another function's page; a value at or beyond
the depth, a ring that is disabled, a disabled function and one whose enable waits drop it (R339, R350, R365). -/
def State.doorbell (s : State) (by_ g : Fin 16) (on bad : Bool) (act : State → State) : State :=
  if by_.val != 0 && by_ != g then s.hostRefuse by_
  else if !s.fnEn g then ((s.dbDrop g).fnErr g).badValue g bad
  else if s.enPending g || !on || bad then (s.dbDrop g).badValue g bad
  else act s

def State.sqTail (s : State) (by_ g : Fin 16) (r : Fin 8) (v : Word) : State :=
  s.doorbell by_ g (s.sqOn g r) (decide (s.sqDepth g r ≤ v.toNat)) (fun t =>
    t.setF (R.RNG_SQ_HEAD g r) F.RNG_SQ_HEAD_TAIL v.toNat)

/-- A new head releases the entries before it; the head it holds already releases none (log 33). -/
def State.cqHead (s : State) (by_ g : Fin 16) (q : Fin 8) (v : Word) : State :=
  s.doorbell by_ g (s.cqOn g q) (decide (s.cqDepth g q ≤ v.toNat)) (fun t =>
    let d := t.cqDepth g q
    let h := t.getF (R.RNG_CQ_TAIL g q) F.RNG_CQ_TAIL_HEAD
    let x := t.fnOf g
    let rel := (v.toNat + d - h) % d
    (t.setFn g { x with cqHeld := x.cqHeld.set q (x.cqHeld.get q - rel) }).setF (R.RNG_CQ_TAIL g q) F.RNG_CQ_TAIL_HEAD v.toNat)

def State.edgeIndex (s : State) (by_ g : Fin 16) (v : Word) : State :=
  s.doorbell by_ g (s.isSet (R.RNG_EDGE_CFG g) F.RNG_EDGE_CFG_EN)
    (decide (2 ^ s.getF (R.RNG_EDGE_CFG g) F.RNG_EDGE_CFG_LOG2LEN ≤ v.toNat))
    (fun t => { t with edgeRidx := t.edgeRidx.set g v.toNat })

/-- ABORT: an ABORT write with the right KEY starts a function abort (R361). -/
def State.abortDb (s : State) (by_ g : Fin 16) (v : Word) : State :=
  s.doorbell by_ g true false (fun t => if v.toNat / 65536 == 0xAB07 then t.abort g 1 else t.dbDrop g)

/-- A write of the doorbell page is processed. -/
def State.dbNow (s : State) (by_ g : Fin 16) (off : Nat) (v : Word) : State :=
  if h : off < 0x40 then
    if off % 8 == 0 then s.sqTail by_ g ⟨off / 8, by omega⟩ v else s.cqHead by_ g ⟨off / 8, by omega⟩ v
  else if off == 0x40 then s.edgeIndex by_ g v
  else if off == 0x80 then s.abortDb by_ g v
  else s

/-- A write of the doorbell page; the system's perturbation unit delays those of the functions it selects, but no ABORT (R476). -/
def State.dbWrite (s : State) (by_ g : Fin 16) (off : Nat) (v : Word) : State :=
  let d := s.getF (R.PTB_DB 12) F.PTB_DB_DELAY
  if s.ptbActs 12 && natBit (s.getF (R.PTB_DB 12) F.PTB_DB_FN) g && d != 0 && decide (off < 0x80) && (by_.val == 0 || by_ == g) then
    { s with dbLate := s.dbLate ++ [(s.clock + 1500 * d, by_, g, off, v)] }
  else s.dbNow by_ g off v

/-- The delayed doorbell writes whose time has come are processed. -/
def State.lateDoorbells (s : State) : State :=
  match s.dbLate with
  | [] => s
  | l =>
    (l.filter (fun e => decide (e.1 ≤ s.clock))).foldl (fun (t : State) e => t.dbNow e.2.1 e.2.2.1 e.2.2.2.1 e.2.2.2.2)
      { s with dbLate := l.filter (fun e => !decide (e.1 ≤ s.clock)) }

/-! Fetch (R348, R359). -/

/-- A submission entry as its sixteen words give it (R351). -/
def descOf (w : Vector Word 16) : Desc :=
  let w0 := (w.get 0).toNat
  let w1 := (w.get 1).toNat
  { op := w0 % 256
    relaxed := natBit w0 8
    notify := natBit w0 9
    tag := w0 / 65536
    slice := w1 % 256
    unit := w1 / 256 % 256
    addr := (w.get 2).toNat + 2 ^ 32 * (w.get 3).toNat
    p := Vector.ofFn (fun (i : Fin 12) => w.get ⟨4 + i.val, by omega⟩)
    bad := w0 / 1024 % 64 != 0 || w1 / 65536 != 0 }

def State.inflight (s : State) (f : Nat) : Nat := s.getF (R.RNG_STAT f) F.RNG_STAT_INFLIGHT

/-- The limits of R359 let the function fetch another descriptor. -/
def State.mayFetch (s : State) (f : Nat) : Bool :=
  let on := (List.range 16).filter (fun g => s.fnEn g)
  let shared := on.foldl (fun k g => k + (s.inflight g - 64)) 0
  decide (s.inflight f < 64) || decide (shared < 4096 - 64 * on.length)

/-- Descriptor `x` of ring `x.sq` may begin (R358): it is RELAXED and no FENCE, or every earlier descriptor of its ring has
completed; not once an abort has begun (R362), nor while it is stopped for the recovery of its slice (R360). -/
def State.mayBegin (s : State) (f : Fin 16) (x : Flight) : Bool :=
  !x.begun && !x.held && s.fnEn f && (s.fnOf f).cause == 0 &&
    ((x.d.relaxed && x.d.op != 1) || (s.fnOf f).flights.all (fun y => y.sq != x.sq || decide (x.pos ≤ y.pos)))

/-- Descriptors with a reserved opcode that may begin complete with PARAM (R354). -/
def State.sweepReserved (s : State) (f : Fin 16) : State :=
  (s.fnOf f).flights.foldl (fun (t : State) x =>
    if decide (0x12 ≤ x.d.op) && t.mayBegin f x then
      match (t.fnOf f).flights.findIdx? (fun y => y.pos == x.pos) with
      | some k => t.descFinish f k 5 0
      | none => t
    else t) s

/-- A descriptor just fetched. -/
def newFlight (pos : Nat) (r : Fin 8) (d : Desc) : Flight :=
  { pos := pos, sq := r, d := d, begun := false, await := .nothing, held := false, replay := false, lost := false,
    ptb := false, since := none }

/-- RELAXED descriptors of ring r that are in flight: unfinished, or with an entry not yet written (R359). -/
def FnSt.relaxedIn (x : FnSt) (r : Nat) : Nat :=
  (x.flights.filter (fun y => y.sq == r && y.d.relaxed)).length + (x.done.filter (fun y => y.sq == r && y.relaxed)).length

/-- Ring r of function f holds an entry that may be fetched. One entry of a ring is read at a time, and what it turns out to be
is not known, so 32 RELAXED ones in flight keep the ring waiting (R348, R359, log 203). -/
def State.canFetch (s : State) (f : Fin 16) (r : Fin 8) : Bool :=
  s.fnEn f && !s.quiescing f && s.fnReach f && s.sqOn f r && !(s.fnOf f).asked.get r &&
    s.getF (R.RNG_SQ_HEAD f r) F.RNG_SQ_HEAD_HEAD != s.getF (R.RNG_SQ_HEAD f r) F.RNG_SQ_HEAD_TAIL &&
    decide ((s.fnOf f).relaxedIn r < 32) && s.mayFetch f && s.mayRequest f

/-- The ring of function f whose turn it is (R358). -/
def State.ringTurn (s : State) (f : Fin 16) : Option (Fin 8) :=
  ((List.finRange 8).map (fun (i : Fin 8) => (⟨((s.fnOf f).ring + i.val) % 8, Nat.mod_lt _ (by decide)⟩ : Fin 8))).find?
    (fun r => s.canFetch f r)

/-- The function and ring whose turn it is to fetch: round robin across functions, and across the rings of a function
(R358). -/
def State.fetchTurn (s : State) : Option (Fin 16 × Fin 8) :=
  ((List.finRange 16).map (fun (i : Fin 16) => (⟨(s.fetchNext + i.val) % 16, Nat.mod_lt _ (by decide)⟩ : Fin 16))).findSome?
    (fun (f : Fin 16) => if s.fnEn f.val then (s.ringTurn f).map (fun r => (f, r)) else none)

/-- A tick issues the read of the entry whose turn it is (R348, R358, log 203). -/
def State.fetchIssue (s : State) : State :=
  match s.fetchTurn with
  | none => s
  | some (f, r) =>
    let x := s.fnOf f
    let base := s.addr64 (R.RNG_SQ_LO f r) (R.RNG_SQ_HI f r)
    let s1 := s.emit (.hostRead f (base + 64 * s.getF (R.RNG_SQ_HEAD f r) F.RNG_SQ_HEAD_HEAD) 64)
    { s1 with fetchNext := (f.val + 1) % 16 }.setFn f { x with ring := (r.val + 1) % 8, asked := x.asked.set r true }

/-- DESCRIPTOR_FETCH: the read of the entry at the head of SQ r completes with its sixteen words, and the head advances (R348). -/
def State.fetch (s : State) (f : Fin 16) (r : Fin 8) (w : Vector Word 16) : State :=
  let a := R.RNG_SQ_HEAD f r
  let x := s.fnOf f
  if !x.asked.get r then s
  else
    ((s.setF a F.RNG_SQ_HEAD_HEAD ((s.getF a F.RNG_SQ_HEAD_HEAD + 1) % s.sqDepth f r)).setFn f { x with
      fetched := x.fetched + 1
      asked := x.asked.set r false
      flights := x.flights ++ [newFlight x.fetched r (descOf w)] }).sweepReserved f

/-- COMPLETION_WRITE: the oldest finished descriptor of CQ q gets its entry when the CQ has room (R349, R358). -/
def State.completionWrite (s : State) (f : Fin 16) (q : Fin 8) : State :=
  let x := s.fnOf f
  match x.done.find? (fun c => s.cqOf f c.sq == q) with
  | none => s
  | some c =>
    if s.cqTakes f q && (s.fnOf f).cause == 0 then
      (((s.setFn f { x with done := x.done.erase c }).writeCompl f c).sweepReserved f).drained f
    else s

/-! Link and configuration space (R327 to R335). -/

/-- Default configuration space of a function. -/
def State.cfgDefault (s : State) (f : Fin 16) : State :=
  s.setFn f { s.fnOf f with
    bme := false
    d3hot := false
    msixEn := false
    fmask := false
    vopen := []
    vpend := []
    bars := Vector.replicate 6 0
    aer := 0
    mps := 0
    mrrs := 2
    tag10 := false }

/-- Set VF Enable and NumVFs; functions that no longer exist are aborted, and their configuration space is gone (R334). -/
def State.setVfs (s : State) (en : Bool) (num : Nat) : State :=
  let gone := (List.finRange 16).filter (fun (f : Fin 16) => f.val != 0 && s.vfExists f && !(en && decide (f.val ≤ num)))
  let s1 := { s with vfEnable := en, numVfs := num }
  gone.foldl (fun (t : State) f => (t.abort f 5).cfgDefault f) s1

/-- The host reaches the configuration space of function f. -/
def State.cfgUp (s : State) (f : Fin 16) : Bool := s.isSet R.HIF_LINK F.HIF_LINK_UP && s.fnExists f

/-- VF_ENABLE_CLEAR. -/
def State.vfClear (s : State) (en : Bool) (num : Nat) : State := if s.cfgUp 0 then s.setVfs en num else s

/-- An FLR resets the ring registers, and the edge ring's index and sequence number with them (log 19); EN, QUIESCING and INFLIGHT show an abort that is still running (chapter 21). -/
def State.flrRings (s : State) (f : Fin 16) : State :=
  let a := R.RNG_CTRL f
  let t := { s with edgeRidx := s.edgeRidx.set f 0, edgeSeq := s.edgeSeq.set f 0 }.resetRegs a (a + 0x200)
  (((t.setF a F.RNG_CTRL_EN (s.getF a F.RNG_CTRL_EN)).setF a F.RNG_CTRL_QUIESCING (s.getF a F.RNG_CTRL_QUIESCING))).setF
    (R.RNG_STAT f) F.RNG_STAT_INFLIGHT (s.getF (R.RNG_STAT f) F.RNG_STAT_INFLIGHT)

/-- FUNCTION_LEVEL_RESET. -/
def State.flr (s : State) (f : Fin 16) : State :=
  if !s.cfgUp f then s
  else
    let s1 := ((s.abort f 2).cfgDefault f).flrRings f
    if f.val == 0 then s1.setVfs false 0 else s1

/-- BUS_MASTER_ENABLE_CLEAR. -/
def State.bmeClear (s : State) (f : Fin 16) : State :=
  if !s.cfgUp f || !(s.fnOf f).bme then s else (s.setFn f { s.fnOf f with bme := false }).abort f 3

/-- D3HOT_ENTRY. -/
def State.d3hot (s : State) (f : Fin 16) : State :=
  if !s.cfgUp f || (s.fnOf f).d3hot then s else (s.setFn f { s.fnOf f with d3hot := true }).abort f 4

/-- LINK_DOWN: every enabled function is aborted, and no enable waits: after a retrain every function starts disabled (R38,
R332). -/
def State.linkDown (s : State) : State :=
  if !s.isSet R.HIF_LINK F.HIF_LINK_UP then s
  else
    let s1 := (s.setReg R.HIF_LINK 0).fire 1009
    (List.finRange 16).foldl (fun (t : State) (f : Fin 16) =>
      let t1 := t.setF (R.RNG_CTRL f) F.RNG_CTRL_ENABLE_PENDING 0
      if t1.fnEn f then t1.abort f 6 else t1) s1

/-- LINK_UP at a width and speed: start-up has passed the step that lets the link train, and the link's clock has locked
(R329 to R332, R436). -/
def State.linkUp (s : State) (width : Fin 4) (speed : Fin 5) : State :=
  let w := match width with | 0 => 1 | 1 => 4 | 2 => 8 | _ => 16
  let max := if s.part = .esk7208 then 8 else 16
  if s.isSet R.HIF_LINK F.HIF_LINK_UP || s.mode == mdStart || s.mode == mdStabled || decide (max < w) || !s.clockOn 3 then s
  else
    let deg := decide (w < max) || decide (speed.val < 4)
    let s1 := s.setReg R.HIF_LINK (F.HIF_LINK_UP.word 1 ||| F.HIF_LINK_DEGRADED.word (b2n deg) |||
      F.HIF_LINK_SPEED.word (speed.val + 1) ||| F.HIF_LINK_WIDTH.word w)
    (({ s1 with fns := s1.fns.map (fun (x : FnSt) => { x with stopped := false }) }).fire 1008).fireIf deg 1010

/-- Whether the endpoint has a feature (R327). -/
def capPresent : PcieCap → Bool
  | .aer | .ari | .sriov | .msix | .tag10 | .flr | .d3hot | .serial => true
  | .intx | .msi | .ats | .pasid | .resizableBar | .aspm => false

/-- The address bits that half k of the base address registers holds, and its type bits: BAR0 of 256 MiB, BAR2 of 16 MiB and
BAR4 of 256 MiB, prefetchable, each of 64 bits (R337). -/
def barMask (k : Fin 6) : Word :=
  match k with
  | 0 | 4 => 0xF0000000
  | 2 => 0xFF000000
  | _ => 0xFFFFFFFF

def barType (k : Fin 6) : Word :=
  match k with
  | 0 | 2 => 0x4
  | 4 => 0xC
  | _ => 0

/-- A field of the configuration space of function f as it reads (R327, R328, R333, R337, R342, R343). -/
def State.cfgView (s : State) (f : Fin 16) (r : CfgReg) : Word :=
  let x := s.fnOf f
  let flag (b : Bool) : Word := if b then 1 else 0
  match r with
  | .vendorId => 0x1F7A
  | .deviceId => if f.val == 0 then BitVec.ofNat 32 s.part.code else 0x72F0
  | .revisionId => 0x21
  | .classCode => 0x118000
  | .bar k => x.bars.get k ||| barType k
  | .totalVfs => if f.val == 0 then 15 else 0
  | .numVfs => if f.val == 0 then BitVec.ofNat 32 s.numVfs else 0
  | .vfEnable => flag (f.val == 0 && s.vfEnable)
  | .firstVfOffset => if f.val == 0 then 1 else 0
  | .vfStride => if f.val == 0 then 1 else 0
  | .msixTableSize => 128
  | .msixEnable => flag x.msixEn
  | .functionMask => flag x.fmask
  | .busMaster => flag x.bme
  | .d3hot => flag x.d3hot
  | .maxPayload => BitVec.ofNat 32 x.mps
  | .maxReadRequest => BitVec.ofNat 32 x.mrrs
  | .tag10Enable => flag x.tag10
  | .aerStatus => x.aer
  | .serialLo => Config.serial.setWidth 32
  | .serialHi => (Config.serial >>> 32).setWidth 32
  | .capability c => flag (capPresent c && (f.val == 0 || c != .sriov))

/-- CONFIGURATION_REQUEST; `busOut` shows what a read returns. -/
def State.configRequest (s : State) (f : Fin 16) (c : CfgSet) : State :=
  if !s.cfgUp f then s
  else match c with
    | .bar k v => s.setFn f { s.fnOf f with bars := (s.fnOf f).bars.set k (v &&& barMask k) }
    | .devCtl mps mrrs tag => s.setFn f { s.fnOf f with mps := mps.val, mrrs := mrrs.val, tag10 := tag }
    | .aerClear v => s.setFn f { s.fnOf f with aer := (s.fnOf f).aer &&& ~~~ v }
    | .read r => { s with busOut := s.cfgView f r }
    | .busMaster => (s.setFn f { s.fnOf f with bme := true }).msixOffer f
    | .vfs num => if f.val == 0 then s.setVfs true num else s
    | .msix en mask => ((s.setFn f { s.fnOf f with msixEn := en, fmask := mask }).msixUnmask f).msixOffer f
    | .d0 => s.setFn f { s.fnOf f with d3hot := false }

/-- The AER status bit of a failed read (R342, log 167). -/
def aerBit : ReqFail → Nat
  | .timeout => 14
  | .unsupported => 20
  | .abort => 15

/-- The tag of a read from before an abort is free again when it times out, or when its completion, which is counted as late,
arrives (R363). -/
def State.freeLate (s : State) (f : Fin 16) (why : ReqFail) : State :=
  let x := s.fnOf f
  if x.late == 0 then s
  else
    let t := s.setFn f { x with late := x.late - 1 }
    if why == .timeout then t else t.count (R.RNG_LATE_CPL f) F.RNG_LATE_CPL_COUNT

/-- COMPLETION_TIMEOUT: a read of function f fails, by `why`: it is counted, logged through AER, and reported to its descriptor
(R342). An entry that could not be read stays in its ring, and is read again (R348, log 203). -/
def State.readFails (s : State) (f : Fin 16) (what : ReadOf) (why : ReqFail) : State :=
  let s0 := s.setFn f { s.fnOf f with aer := (s.fnOf f).aer ||| BitVec.ofNat 32 (2 ^ aerBit why) }
  let s1 := s0.count (R.HIF_FN_ERR f) F.HIF_FN_ERR_REQ
  match what with
  | .late => s1.freeLate f why
  | .fetch r => if (s1.fnOf f).asked.get r then
      (s1.setFn f { s1.fnOf f with asked := (s1.fnOf f).asked.set r false }).drained f else s1.freeLate f why
  | .data i => match (s1.fnOf f).flights[i]? with
    | some y => if y.requests (s1.maxRead f) != 0 then
        (s1.setFn f { s1.fnOf f with late := (s1.fnOf f).late + (y.requests (s1.maxRead f) - 1) }).descFinish f i 6 0
      else s1.freeLate f why
    | none => s1.freeLate f why

/-- A write of RNG_CTRL (R344, R346, R364). -/
def State.rngCtrl (s : State) (f : Fin 16) (v : Word) : State :=
  let s1 := s.setF (R.RNG_CTRL f) F.RNG_CTRL_ABT_TWIN (F.RNG_CTRL_ABT_TWIN.get v)
  let s2 := if F.RNG_CTRL_DISABLE.get v == 1 then s1.fnDisable f else s1
  if F.RNG_CTRL_EN.get v == 1 then s2.fnEnable f else s2

/-- A write of the function page: ring and edge-ring registers only while the function is disabled and no enable waits
(R345); reserved LOG2 values are refused. -/
def State.pageWrite (s : State) (f : Fin 16) (off : Nat) (a : Nat) (v : Word) : State :=
  let locked := s.fnEn f || s.enPending f
  let put (ok : Bool) (m : Word) : State := if locked || !ok then s.fnErr f else s.setReg a (v &&& m)
  let r := if decide (0x200 ≤ off) && decide (off < 0x300) then off % 0x20 else 0xFF
  if off == 0x100 then s.rngCtrl f v
  else if off == 0x104 then s.setReg a (s.reg a &&& ~~~ (v &&& 0x80000000))
  else if off == 0x110 || off == 0x114 then put true 0xFFFFFFFF
  else if off == 0x118 then
    put (decide (8 ≤ F.RNG_EDGE_CFG_LOG2LEN.get v) && decide (F.RNG_EDGE_CFG_LOG2LEN.get v ≤ 20)) 0x8000001F
  else if r == 0x0 || r == 0x10 then put ((v &&& 0xFFF) == 0) 0xFFFFFFFF
  else if r == 0x4 || r == 0x14 then put true 0xFFFFFFFF
  else if r == 0x8 then
    put (decide (4 ≤ F.RNG_SQ_CFG_LOG2DEPTH.get v) && decide (F.RNG_SQ_CFG_LOG2DEPTH.get v ≤ 10)) 0x8000070F
  else if r == 0x18 then
    put (decide (4 ≤ F.RNG_CQ_CFG_LOG2DEPTH.get v) && decide (F.RNG_CQ_CFG_LOG2DEPTH.get v ≤ 10)) 0xC07F000F
  else if (r == 0xC || r == 0x1C) && locked then s.fnErr f
  else s

/-- A write of the device-wide HIF block: windows of a disabled function (R340). -/
def State.hifWrite (s : State) (a : Nat) (v : Word) : State :=
  let o := a - 0x01090000
  if 0x108 ≤ o ∧ o < 0x180 then
    let f := (o - 0x100) / 8
    let base := v.toNat % 65536
    let len := v.toNat / 65536
    if s.fnEn f || decide ((if o % 8 == 0 then 128 else 256) < base + len) then s.badAcc else s.setReg a v
  else s

end Machine
end Sys2Proof
end

