-- ==== Sys2Proof/Machine/Flash.lean ====
section
/-! DEFINITION. Flash memory (chapter 24): the arrays and their information areas, the commands of the flash controller,
protected regions, the scrub, the images and the configuration record, and the ROM loader. -/

namespace Sys2Proof
namespace Machine

/-! Arrays (R408): 0 and 1 the code banks, 2 the data flash. -/

def arrBase (arr : Nat) : Nat := if arr == 0 then 0x20000000 else if arr == 1 then 0x21000000 else 0x01800000
def blkSize (arr : Nat) : Nat := if arr == 2 then 0x2000 else 0x10000
def arrPages (arr : Nat) : Nat := if arr == 2 then 32 else 256
def endurance (arr : Nat) : Nat := if arr == 2 then 100000 else 10000

/-- The array and block of a flash byte address. -/
def flashAt (a : Nat) : Nat × Nat :=
  if a < 0x02000000 then (2, (a - 0x01800000) / 0x2000)
  else if a < 0x21000000 then (0, (a - 0x20000000) / 0x10000)
  else (1, (a - 0x21000000) / 0x10000)

def blkKey (arr blk : Nat) : Nat := arr * 256 + blk

def State.blk (s : State) (arr blk : Nat) : BlkInfo := SMap.get (fun _ => resetBlk) s.flc.info (blkKey arr blk)
def State.setFlc (s : State) (x : FlcSt) : State := { s with flc := x }
def State.setBlk (s : State) (arr blk : Nat) (b : BlkInfo) : State :=
  s.setFlc { s.flc with info := SMap.put (fun _ => resetBlk) s.flc.info (blkKey arr blk) b }

/-- A stored word. -/
def State.flashWord (s : State) (a : Nat) : Word := SMap.get (fun _ => (0xFFFFFFFF : Word)) s.flc.words (a / 4 * 4)

/-! Reads (R409, R411, R413 to R415). -/

/-- An operation, or a rewrite by the scrub, runs in an array (R411). -/
def State.arrBusy (s : State) (arr : Nat) : Bool :=
  (match s.flc.run with | some r => r.arr == arr && !r.paused | none => false) ||
    (match s.flc.rewrite with | some w => w.arr == arr && !w.paused | none => false)

/-- A read waits for the operation that runs in its array. -/
def State.flashBusy (s : State) (a : Nat) : Bool := s.arrBusy (flashAt a).1

/-- The error mark of the line at an address. -/
def State.lineMark (s : State) (a : Nat) : Option Bool := (s.flc.lines.find? (fun e => e.1 == a / 16 * 16)).map (·.2)

/-- The line at an address is uncorrectable: by its check bits, its block is being erased, is suspended or ERASE_INCOMPLETE, or
the programming of its page was cut off. The spare reads erased (R408). -/
def State.flashUe (s : State) (a : Nat) : Bool :=
  let (arr, b) := flashAt a
  let x := s.blk arr b
  b != 255 && (s.lineMark a == some true || x.incomplete || (x.flag && !x.worn) || natBit x.cut ((a - arrBase arr) % blkSize arr / 256))

/-- The word that a read returns: that of the spare is erased (R408), and that of an uncorrectable line, or of a block whose erase
failed, is undefined and free (R409, R414, log 34). -/
def State.flashRead (s : State) (a : Nat) : Word :=
  let (arr, b) := flashAt a
  let x := s.blk arr b
  if b == 255 then 0xFFFFFFFF
  else if s.flashUe a || (x.flag && x.worn) then Config.freeWord (2 ^ 40 + a / 4)
  else s.flashWord a

/-- A corrected error is counted in the block's information, and marks the block for rewrite (R409). -/
def State.noteCorr (s : State) (arr b : Nat) : State :=
  let x := s.blk arr b
  s.setBlk arr b { x with corr := x.corr + 1, decay := true }

/-- The bytes of [lo, hi) are read, once each line: its corrected errors are counted (R409, log 196). -/
def State.readLines (s : State) (lo hi : Nat) : State :=
  (s.flc.lines.filter (fun e => decide (lo < e.1 + 16) && decide (e.1 < hi) && !s.flashUe e.1 && (flashAt e.1).2 != 255)).foldl
    (fun (t : State) e => t.noteCorr (flashAt e.1).1 (flashAt e.1).2) s

/-- A read of a word: none where its line is uncorrectable (R409). -/
def State.flashGet (s : State) (a : Nat) : State × Option Word :=
  if s.flashUe a then (s, none)
  else
    let (arr, b) := flashAt a
    (if s.lineMark a == some false && b != 255 then s.noteCorr arr b else s, some (s.flashRead a))

/-! Completion of commands (R420, R426). Statuses 0 OK, 1 BUSY, 2 REFUSED, 5 PARAM, 6 FAULT; reasons 1 ACTIVE_BANK,
2 PROTECTED, 3 NOT_ERASED, 4 WORN, 5 SUSPENDED, 6 NO_SUSPEND. -/

/-- A write or command is refused (FLC_REJ). -/
def State.flcRej (s : State) : State := s.count R.FLC_REJ ⟨0, 32⟩

/-- A command completes; a refused one counts (log 145). -/
def State.flcEnd (s : State) (status reason : Nat) : State :=
  let a := R.FLC_STAT
  let s0 := if status == 2 then s.flcRej else s
  let s1 := ((s0.setF a F.FLC_STAT_STATUS status).setF a F.FLC_STAT_REASON reason).setF a F.FLC_STAT_DONE_F 1
  let s2 := (s1.setFlc { s1.flc with stage := .none }).fire 24
  if status == 0 then s2 else (s2.setF a F.FLC_STAT_ERR_F 1).fire 25

/-- Wear is reported (R417). -/
def State.wearWarn (s : State) : State := (s.setF R.FLC_STAT F.FLC_STAT_WEAR_F 1).fire 26

/-! Regions (R420). -/

/-- A block lies in region r. -/
def State.inRegion (s : State) (r arr blk : Nat) : Bool :=
  let a := R.FLC_REGION r
  let first := s.getF a F.FLC_REGION_FIRST
  s.getF a F.FLC_REGION_ARRAY == arr && decide (first ≤ blk) && decide (blk < first + s.getF a F.FLC_REGION_COUNT)

/-- Region r is open: unprotected, or unlocked. -/
def State.regionOpen (s : State) (r : Nat) : Bool :=
  !s.isSet (R.FLC_REGION r) F.FLC_REGION_PROT || s.isSet (R.FLC_REGION r) F.FLC_REGION_UNLOCKED

def State.isProtected (s : State) (arr blk : Nat) : Bool :=
  (List.range 8).any (fun r => s.inRegion r arr blk && !s.regionOpen r)

/-! Blocks named by a command. -/

/-- The array and block exist and may be named (R408). -/
def blkOk (arr blk : Nat) : Bool := decide (arr < 3) && decide (blk < 255)

/-- Why an ERASE, or a PROGRAM of a page, is refused: 0 where it is not. A WORN block gives WORN whatever else holds of its page
(R417, log 35). -/
def State.flcBars (s : State) (arr blk : Nat) (page : Option Nat) : Nat :=
  let x := s.blk arr blk
  let active := arr == s.getF R.FLC_BANK F.FLC_BANK_ACTIVE && s.mode != mdService
  let susp := match s.flc.susp.toList[arr]? with
    | some (some b) => page.isNone || b == blk
    | _ => false
  let used := match page with
    | some p => x.incomplete || natBit x.prog p
    | none => false
  if active then 1 else if s.isProtected arr blk then 2 else if x.worn then 4 else if used then 3 else if susp then 5 else 0

/-! Operations. -/

/-- An erase begins: counted, and its flag set (R412). -/
def State.eraseBegin (s : State) (arr blk : Nat) : State :=
  let x := s.blk arr blk
  let s1 := s.setBlk arr blk { x with cnt := x.cnt + 1, flag := true, warn := x.warn || decide (endurance arr < x.cnt + 1) }
  if x.cnt == endurance arr then s1.wearWarn else s1

/-- The lines of [lo, hi) have been written anew. -/
def State.freshLines (s : State) (lo hi : Nat) : State :=
  s.setFlc { s.flc with lines := s.flc.lines.filter (fun e => !(decide (lo ≤ e.1) && decide (e.1 < hi))) }

/-- The words of a block read erased. -/
def State.blank (s : State) (arr blk : Nat) : State :=
  let lo := arrBase arr + blk * blkSize arr
  s.setFlc { s.flc with words := SMap.clear (fun a => decide (lo ≤ a) && decide (a < lo + blkSize arr)) s.flc.words }

/-- An erase ends (R412, R414, R417). -/
def State.eraseFinish (s : State) (arr blk : Nat) (e : EraseEnd) : State :=
  let x := s.blk arr blk
  let ms := e.ms.toNat
  let long := decide (s.getF R.FLC_WARN F.FLC_WARN_ERASE_TIME_WARN < ms)
  let s1 := if e.pass then
      let y : BlkInfo := { x with
        flag := false
        incomplete := false
        suspended := false
        lastErase := ms
        warn := x.warn || long
        decay := false
        prog := 0
        cut := 0 }
      let lo := arrBase arr + blk * blkSize arr
      ((s.freshLines lo (lo + blkSize arr)).setBlk arr blk y).blank arr blk
    else (s.setBlk arr blk { x with worn := true, suspended := false, lastErase := ms, warn := x.warn || long }).fire 27
  if long then s1.wearWarn else s1

/-- A page is programmed (R410); its words are written from byte address `a`. -/
def putPage : Nat → List Word → List (Nat × Word) → List (Nat × Word)
  | _, [], m => m
  | a, w :: ws, m => putPage (a + 4) ws (SMap.put (fun _ => (0xFFFFFFFF : Word)) m a w)

/-- The verify retries of a programming operation are kept, and reported where they reach RETRY_WARN (R417). -/
def State.noteRetries (s : State) (arr blk retries : Nat) : State :=
  let x := s.blk arr blk
  let w := s.getF R.FLC_WARN F.FLC_WARN_RETRY_WARN
  let s1 := s.setBlk arr blk { x with maxRetry := max x.maxRetry retries }
  if x.maxRetry < w ∧ w ≤ retries then s1.wearWarn else s1

/-- The operation ends, and its array is free. -/
def State.runEnd (s : State) : State := s.setFlc { s.flc with run := none }

/-- ERASE_COMPLETE: the running erase passes its verify, or fails after the fifteenth pulse. -/
def State.eraseComplete (s : State) (e : EraseEnd) : State :=
  match s.flc.run with
  | some r =>
    if r.op == .erase && !r.paused then
      let st := if e.pass then 0 else 6
      let s1 := ((s.runEnd).eraseFinish r.arr r.blk e).flcEnd st 0
      match r.loader with
      | some can => s1.emit (.loader can 1 st 0)
      | none => s1.descDone (.flash (blkKey r.arr r.blk) 0) st (s1.blk r.arr r.blk).cnt
    else s
  | none => s

/-- PROGRAM_COMPLETE: the page verifies after `retries` retries (R410, R417). -/
def State.programComplete (s : State) (retries : Fin 9) : State :=
  match s.flc.run with
  | some r =>
    match r.op with
    | .program p data =>
      let a := arrBase r.arr + r.blk * blkSize r.arr + 256 * p
      let s1 := (s.runEnd).freshLines a (a + 256)
      let s2 := ((s1.setFlc { s1.flc with words := putPage a data s1.flc.words }).noteRetries r.arr r.blk retries).flcEnd 0 0
      match r.loader with
      | some can => s2.emit (.loader can 2 0 0)
      | none => s2.descDone (.flash (blkKey r.arr r.blk) 1) 0 0
    | _ => s
  | none => s

/-- MARGIN_CHECK_COMPLETE: `failing` lines miss the margin (R416). A check that does not pass ends with FAULT (log 36). -/
def State.marginComplete (s : State) (failing : BitVec 16) : State :=
  match s.flc.run with
  | some r =>
    if r.op == .margin then
      let status := if failing == 0 then 0 else 6
      (((s.runEnd).setF R.FLC_STAT F.FLC_STAT_RESULT failing.toNat).flcEnd status 0).descDone
        (.flash (blkKey r.arr r.blk) 2) status failing.toNat
    else s
  | none => s

/-- SUSPENDED of a block. -/
def State.setSuspended (s : State) (arr blk : Nat) (on : Bool) : State := s.setBlk arr blk { s.blk arr blk with suspended := on }

/-- The rewrite of array `arr`, its erase under way, is paused for a waiting read, or goes on (R411). -/
def State.pauseRewrite (s : State) (arr : Nat) (on : Bool) : State :=
  match s.flc.rewrite with
  | some w =>
    if w.arr == arr && w.paused != on && w.stage % 2 == 1 then
      let b := if w.stage == 1 then 255 else w.blk
      let s1 := s.setSuspended arr b on
      s1.setFlc { s1.flc with rewrite := some { w with paused := on } }
    else s
  | none => s

/-- Auto-suspension (R411): a waiting read suspends the erase of its array. -/
def State.autoSuspend (s : State) (arr : Fin 3) : State :=
  if !s.isSet R.FLC_CTRL F.FLC_CTRL_AUTO_SUSP then s
  else match s.flc.run with
    | some r =>
      if r.op == .erase && r.arr == arr.val && !r.paused then
        let s1 := s.setSuspended r.arr r.blk true
        s1.setFlc { s1.flc with run := some { r with paused := true } }
      else s
    | none => s.pauseRewrite arr true

/-- The erase resumes once no read has waited for 100 µs. -/
def State.autoResume (s : State) (arr : Fin 3) : State :=
  match s.flc.run with
  | some r =>
    if r.arr == arr.val && r.paused then
      let s1 := s.setSuspended r.arr r.blk false
      s1.setFlc { s1.flc with run := some { r with paused := false } }
    else s
  | none => s.pauseRewrite arr false

/-! Images (R422, R450, R451). -/

/-- Word i of the image of a bank. -/
def State.imgWord (s : State) (bank i : Nat) : Nat := (s.flashRead (arrBase bank + 4 * i)).toNat

/-- A section entry: kind, slice, offset, length, entry address, base and length of C2 and C3. -/
structure Section where
  kind : Nat
  slice : Nat
  off : Nat
  len : Nat
  info : ImgInfo

def State.sectionAt (s : State) (bank i : Nat) : Section :=
  let w (k : Nat) : Nat := s.imgWord bank (8 + 8 * i + k)
  ⟨w 0 % 256, w 0 / 256 % 256, w 1, w 2,
    ⟨w 3, BitVec.ofNat 32 (w 4), BitVec.ofNat 32 (w 5), BitVec.ofNat 32 (w 6), BitVec.ofNat 32 (w 7)⟩⟩

def State.sections (s : State) (bank : Nat) : List Section :=
  (List.range (min 32 (s.imgWord bank 1 / 65536))).map (s.sectionAt bank)

/-- Boot keys that the life-cycle state accepts (R453). -/
def bootKey (lc slot : Nat) : Bool :=
  match lc with
  | 0 => slot == 0
  | 1 => decide (slot < 4)
  | 2 => decide (1 ≤ slot) && decide (slot < 4)
  | 3 => slot == 0
  | _ => false

/-- Byte i from a flash address. -/
def State.flashByte (s : State) (a i : Nat) : Nat := (s.flashRead (a + i)).toNat / 256 ^ ((a + i) % 4) % 256

/-- `n` bytes of the image of a bank from byte i on. -/
def State.imgBytes (s : State) (bank i n : Nat) : List Nat := (List.range n).map (fun k => s.flashByte (arrBase bank) (i + k))

/-- The digest that a key slot holds (R449). -/
def State.slotDigest (s : State) (slot : Nat) : BitVec 256 :=
  if slot == 0 then Config.vendorDigest else (s.sec.keys.toList[slot - 1]?).getD 0

/-- The public key of the signature block at byte `i` of the image of a bank is the one of a slot: its digest is SHA-256 over X and
Y as they stand (R449 to R451, log 195). -/
def State.keyAgrees (s : State) (bank i slot : Nat) : Bool := sha256 (s.imgBytes bank (i + 4) 64) == s.slotDigest slot

/-- The signature of the block at byte `i` verifies over SHA-256 of the bytes from `lo` up to it (R450). -/
def State.signed (s : State) (bank lo i : Nat) : Bool :=
  let v (k : Nat) : Nat := beValue (s.imgBytes bank (i + k) 32)
  ecdsaOk (v 4) (v 36) (sha256 (s.imgBytes bank lo (i - lo))).toNat (v 68) (v 100)

/-- The signature block that ends a VENDOR_MCODE section names slot 0, with its key, and verifies over the section's preceding
bytes (R450). -/
def State.vendorSigned (s : State) (bank : Nat) (c : Section) : Bool :=
  let i := c.off + c.len - 132
  decide (132 ≤ c.len) && s.imgBytes bank i 4 == [0, 0, 0, 0] && s.keyAgrees bank i 0 && s.signed bank c.off i

/-- The header and the section table have the form of R422 and R450. -/
def State.imgForm (s : State) (bank : Nat) : Bool :=
  let sig := s.imgWord bank 4
  s.imgWord bank 0 == 0x45534B49 && s.imgWord bank 1 % 65536 == 1 && decide (s.imgWord bank 1 / 65536 ≤ 32) && sig % 4 == 0 &&
    decide (sig + 132 ≤ 0x1000000) && (s.sections bank).all (fun c => decide (c.off + c.len ≤ sig)) && s.imgWord bank 3 == sig + 132

/-- The first check of R451 that the image of a bank fails: 0 for none. -/
def State.imageFail (s : State) (bank : Nat) : Nat :=
  let secs := s.sections bank
  let sig := s.imgWord bank 4
  let slot := s.imgWord bank (sig / 4)
  let key := decide (slot < 4) && natBit (s.getF R.SEC_KEYSTAT F.SEC_KEYSTAT_WRITTEN) slot &&
    !natBit (s.getF R.SEC_KEYSTAT F.SEC_KEYSTAT_REVOKED) slot && bootKey (s.getF R.SEC_LC F.SEC_LC_STATE) slot
  let touched (c : Section) : Bool := (List.range ((c.off % 65536 + c.len + 65535) / 65536)).any (fun i =>
    decide (0 < c.len) && (s.blk bank (c.off / 65536 + i)).incomplete)
  if !s.imgForm bank then 1
  else if !key then 2
  else if !s.keyAgrees bank sig slot then 3
  else if !s.signed bank 0 sig then 4
  else if s.imgWord bank 2 < (s.reg R.SEC_MINVER).toNat then 5
  else if secs.any touched then 6
  else if !secs.all (fun c => c.kind != 3 || s.vendorSigned bank c) then 7
  else 0

/-- An image check: a failure is recorded, and AUTH_FAIL fires; the digest of an image that passes is kept (R451). The reads count
their corrected errors (R409). -/
def State.imageCheck (s : State) (bank : Nat) : State × Bool :=
  let a := arrBase bank
  let t := s.readLines a (a + (if s.imgForm bank then s.imgWord bank 3 else 32))
  match s.imageFail bank with
  | 0 =>
    let d := sha256 (s.imgBytes bank 0 (s.imgWord bank 4))
    ({ t with sec := { t.sec with images := t.sec.images.setIfInBounds bank (some d) } }, true)
  | k => ((t.setF R.SEC_BOOT F.SEC_BOOT_FAIL k).fire 39, false)

/-- SET_NEXT of a bank (R421). -/
def State.setNext (s : State) (bank : Nat) : State × Nat :=
  if decide (1 < bank) then (s, 5)
  else match s.imageCheck bank with
    | (t, false) => (t, 6)
    | (t, true) =>
      let t1 := (t.setF R.FLC_BANK F.FLC_BANK_NEXT bank).setB R.FLC_BANK F.FLC_BANK_PEND
        (bank != t.getF R.FLC_BANK F.FLC_BANK_ACTIVE)
      ((List.range t.part.slices).foldl (fun (u : State) n => u.setF (R.SLC_STATE n) F.SLC_STATE_BANK_PENDING 1) t1, 0)

/-! Commands. -/

/-- What a command names (FLC_BSEL). -/
structure BlkSel where
  region : Nat
  mode : Nat
  arr : Nat
  blk : Nat
  page : Nat
  deriving DecidableEq, Repr

def selOf (v : Word) : BlkSel :=
  ⟨F.FLC_BSEL_REGION.get v, F.FLC_BSEL_MODE.get v, F.FLC_BSEL_ARRAY.get v, F.FLC_BSEL_BLOCK.get v, F.FLC_BSEL_PAGE.get v⟩

/-- The outcome of a command: completed with a status and reason, or an operation has begun. -/
structure CmdEnd where
  st : State
  status : Nat
  reason : Nat
  begun : Bool

/-- The block has been erased for a rewrite, and is not yet programmed back: to a command it is busy (log 197). -/
def State.rewriting (s : State) (arr blk : Nat) : Bool :=
  match s.flc.rewrite with
  | some w => w.arr == arr && w.blk == blk && decide (3 ≤ w.stage)
  | none => false

/-- Begin an operation that the checks allow. -/
def State.flcBegin (s : State) (op : FlcOp) (b : BlkSel) (loader : Option Bool) : CmdEnd :=
  let page := match op with | .program p _ => some p | _ => none
  let tooFar := match page with | some p => decide (arrPages b.arr ≤ p) | none => false
  let run : FlcRun := ⟨op, b.arr, b.blk, false, loader⟩
  let put (t : State) : State := t.setFlc { t.flc with run := some run }
  if !blkOk b.arr b.blk || tooFar || (op == .margin && b.mode == 3) then ⟨s, 5, 0, false⟩
  else if s.rewriting b.arr b.blk then ⟨s, 1, 0, false⟩
  else match op with
    | .margin => if (s.blk b.arr b.blk).suspended then ⟨s, 2, 5, false⟩ else ⟨put s, 0, 0, true⟩
    | .erase =>
      match s.flcBars b.arr b.blk none with
      | 0 => ⟨put (s.eraseBegin b.arr b.blk), 0, 0, true⟩
      | k => ⟨s, 2, k, false⟩
    | .program p _ =>
      match s.flcBars b.arr b.blk (some p) with
      | 0 =>
        let x := s.blk b.arr b.blk
        ⟨put (s.setBlk b.arr b.blk { x with prog := x.prog ||| 2 ^ p }), 0, 0, true⟩
      | k => ⟨s, 2, k, false⟩

/-- SUSPEND of the erase that runs in an array (R413). -/
def State.flcSuspend (s : State) (arr : Nat) : CmdEnd :=
  match s.flc.run with
  | some r =>
    if r.op == .erase && r.arr == arr then
      let s1 := s.runEnd.setSuspended r.arr r.blk true
      ⟨s1.setFlc { s1.flc with susp := s1.flc.susp.setIfInBounds arr (some r.blk) }, 0, 0, false⟩
    else ⟨s, 1, 0, false⟩
  | none => ⟨s, 2, 6, false⟩

/-- RESUME of the erase suspended in an array; it goes on running. -/
def State.flcResume (s : State) (b : BlkSel) : CmdEnd :=
  match s.flc.susp.toList[b.arr]? with
  | some (some blk) =>
    let s1 := s.setSuspended b.arr blk false
    ⟨s1.setFlc { s1.flc with
      susp := s1.flc.susp.setIfInBounds b.arr none
      run := some ⟨.erase, b.arr, blk, false, none⟩ }, 0, 0, false⟩
  | _ => ⟨s, 2, 6, false⟩

/-- SET_PW with the stage (R420). -/
def State.setPassword (s : State) (r : Nat) : CmdEnd :=
  match s.flc.stage with
  | .full lo hi =>
    if !s.regionOpen r then ⟨s, 2, 2, false⟩
    else
      let none_ := lo == 0xFFFFFFFF && hi == 0xFFFFFFFF
      let s1 := s.setB (R.FLC_REGION r) F.FLC_REGION_PROT (!none_)
      ⟨s1.setFlc { s1.flc with pw := s1.flc.pw.setIfInBounds r (hi ++ lo) }, 0, 0, false⟩
  | _ => ⟨s, 5, 0, false⟩

/-- UNLOCK with the stage. -/
def State.unlock (s : State) (r : Nat) : CmdEnd :=
  let a := R.FLC_REGION r
  if !s.isSet a F.FLC_REGION_PROT then ⟨s, 0, 0, false⟩
  else match s.flc.stage with
    | .full lo hi =>
      if s.isSet a F.FLC_REGION_LOCKED_OUT then ⟨s, 2, 2, false⟩
      else if s.flc.pw.toList[r]? == some (hi ++ lo) then ⟨s.setF a F.FLC_REGION_UNLOCKED 1, 0, 0, false⟩
      else
        let s1 := s.count a F.FLC_REGION_FAILS
        let s2 := if s1.getF a F.FLC_REGION_FAILS == 3 then (s1.setF a F.FLC_REGION_LOCKED_OUT 1).fire 29 else s1
        ⟨s2, 2, 2, false⟩
    | _ => ⟨s, 5, 0, false⟩

/-- A command of FLC_CMD.OP on a selection; `data`: the page to program. SUSPEND and RESUME name a block too (R408). -/
def State.flcRun (s : State) (op : Nat) (b : BlkSel) (data : List Word) : CmdEnd :=
  if (op == 3 || op == 4) && !blkOk b.arr b.blk then ⟨s, 5, 0, false⟩
  else if op == 3 then s.flcSuspend b.arr
  else if s.flc.run.isSome && decide (1 ≤ op) && decide (op ≤ 9) then ⟨s, 1, 0, false⟩
  else match op with
    | 1 => s.flcBegin .erase b none
    | 2 => s.flcBegin (.program b.page data) b none
    | 4 => s.flcResume b
    | 5 => s.flcBegin .margin b none
    | 6 => s.setPassword b.region
    | 7 => let (t, k) := s.setNext b.arr; ⟨t, k, 0, false⟩
    | 8 => ⟨s.setF (R.FLC_REGION b.region) F.FLC_REGION_UNLOCKED 0, 0, 0, false⟩
    | 9 => s.unlock b.region
    | _ => ⟨s, 5, 0, false⟩

/-- The page buffer. -/
def State.pageBuf (s : State) : List Word := (List.range 64).map (fun w => s.reg (R.FLC_PBUF w))

/-- A write of FLC_CMD. -/
def State.flcCmd (s : State) (v : Word) : State :=
  if F.FLC_CMD_KEY.get v != 0xF1A5 then s.flcEnd 5 0
  else
    let r := s.flcRun (F.FLC_CMD_OP.get v) (selOf (s.reg R.FLC_BSEL)) s.pageBuf
    if r.begun then r.st else r.st.flcEnd r.status r.reason

/-- Any write of the FLC block. -/
def State.flcWrite (s : State) (a : Nat) (v : Word) : State :=
  let o := a - 0x010C0000
  if o == 0x00 then s.flcCmd v
  else if o == 0x04 then s.setReg a (s.reg a &&& ~~~ (v &&& 0xF0000000))
  else if o == 0x0C then s.setReg a (v &&& 0x00FFFFFF)
  else if o == 0x10 then if F.FLC_SCRUB_PERIOD.get v == 0 then s.flcRej else s.setReg a (v &&& 0x8000FFFF)
  else if o == 0x14 then s.setReg a (v &&& 1)
  else if o == 0x18 then s.setReg a (v &&& 0xF8C0FFFF)
  else if o == 0x24 then s.setFlc { s.flc with stage := .low v }
  else if o == 0x28 then
    match s.flc.stage with
    | .none => s.flcRej
    | .low lo => s.setFlc { s.flc with stage := .full lo v }
    | .full lo _ => s.setFlc { s.flc with stage := .full lo v }
  else if 0x40 ≤ o ∧ o < 0x60 ∧ o % 4 = 0 then
    if s.regionOpen ((o - 0x40) / 4) then s.setReg a ((s.reg a &&& ~~~ 0x03FFFF00) ||| (v &&& 0x03FFFF00)) else s.flcRej
  else if 0x100 ≤ o ∧ o < 0x200 ∧ o % 4 = 0 then s.setReg a v
  else s

/-- FLC_BINFO and FLC_BFLAGS of the selected block. -/
def State.binfo (s : State) : Word :=
  let b := selOf (s.reg R.FLC_BSEL)
  BitVec.ofNat 32 (s.blk b.arr b.blk).cnt

def State.bflags (s : State) : Word :=
  let b := selOf (s.reg R.FLC_BSEL)
  let x := s.blk b.arr b.blk
  F.FLC_BFLAGS_ERASE_INCOMPLETE.word (b2n x.incomplete) ||| F.FLC_BFLAGS_WORN.word (b2n x.worn) |||
    F.FLC_BFLAGS_WEAR_WARN.word (b2n x.warn) ||| F.FLC_BFLAGS_SUSPENDED.word (b2n x.suspended) |||
    F.FLC_BFLAGS_MAX_RETRY.word x.maxRetry ||| F.FLC_BFLAGS_LAST_ERASE.word x.lastErase

/-! The scrub (R418). -/

/-- The array whose turn it is, passing over busy ones. -/
def State.scrubArr (s : State) : Option Nat :=
  let free (k : Nat) : Bool := (match s.flc.run with | some r => r.arr != k | none => true) &&
    s.flc.susp.toList[k]? == some none
  ([s.flc.turn, s.flc.turn + 1, s.flc.turn + 2].map (· % 3)).find? free

/-- The block reads correctly: no line of it is uncorrectable (R418). -/
def State.readsWell (s : State) (arr blk : Nat) : Bool :=
  let x := s.blk arr blk
  let lo := arrBase arr + blk * blkSize arr
  !x.worn && !x.flag && !x.incomplete && x.cut == 0 &&
    s.flc.lines.all (fun e => !(e.2 && decide (lo ≤ e.1) && decide (e.1 < lo + blkSize arr)))

/-- FLASH_SCRUB: the next block is checked. `decays`: it fails a margin check but reads correctly; one that has logged a
corrected error is rewritten too, unless the array's spare is worn (R417, log 197). -/
def State.flashScrub (s : State) (decays : Bool) : State :=
  if !s.isSet R.FLC_SCRUB F.FLC_SCRUB_EN || s.mode == mdStabled || s.flc.rewrite.isSome then s
  else match s.scrubArr with
    | none => s
    | some arr =>
      let b := (s.flc.scrub.toList[arr]?).getD 0
      let s1 := s.setFlc { s.flc with turn := (arr + 1) % 3, scrub := s.flc.scrub.setIfInBounds arr ((b + 1) % 255) }
      let x := s.blk arr b
      if (decays || x.decay) && s.readsWell arr b && !(s.blk arr 255).worn then
        (s1.setFlc { s1.flc with rewrite := some ⟨arr, b, 1, false⟩ }).eraseBegin arr 255
      else s1

/-- Block `dst` of an array, erased, is programmed with the words and pages of block `src`. -/
def State.copyBlock (s : State) (arr src dst : Nat) : State :=
  let lo := arrBase arr + src * blkSize arr
  let at_ (a : Nat) : Nat := a - lo + (arrBase arr + dst * blkSize arr)
  let ws := s.flc.words.filter (fun e => decide (lo ≤ e.1) && decide (e.1 < lo + blkSize arr))
  let s1 := s.setBlk arr dst { s.blk arr dst with prog := (s.blk arr src).prog }
  s1.setFlc { s1.flc with words := ws.foldl (fun m e => SMap.put (fun _ => (0xFFFFFFFF : Word)) m (at_ e.1) e.2) s1.flc.words }

/-- The rewrite goes on with stage k, or is over. -/
def State.rewriteAt (s : State) (w : Rewrite) (k : Nat) : State :=
  s.setFlc { s.flc with rewrite := if k ≤ 4 then some { w with stage := k } else none }

/-- A rewrite has completed (R418, R426). -/
def State.rewritten (s : State) : State := (s.setF R.FLC_STAT F.FLC_STAT_SCRUB_F 1).fire 28

/-- Step `k` of the rewrite of block w.blk has ended: the erase of the spare, the copy into it, the erase of the block, the
programming back. An erase that fails ends the rewrite (R418). -/
def State.rewriteStep (s : State) (w : Rewrite) (e : StepEnd) : State :=
  match w.stage with
  | 1 => (s.rewriteAt w (if e.erase.pass then 2 else 5)).eraseFinish w.arr 255 e.erase
  | 2 => (((s.rewriteAt w 3).copyBlock w.arr w.blk 255).noteRetries w.arr 255 e.retries).eraseBegin w.arr w.blk
  | 3 => (s.rewriteAt w (if e.erase.pass then 4 else 5)).eraseFinish w.arr w.blk e.erase
  | _ => (((s.rewriteAt w 5).copyBlock w.arr 255 w.blk).noteRetries w.arr w.blk e.retries).rewritten

/-- SCRUB_REWRITE_COMPLETE: step k + 1 of the rewrite in progress has ended. None ends in STABLED, for a waiting read, or while a
command works or has an erase suspended in the array, to which the scrub yields. -/
def State.scrubStep (s : State) (k : Fin 4) (e : StepEnd) : State :=
  match s.flc.rewrite with
  | some w =>
    let taken := (match s.flc.run with | some r => r.arr == w.arr | none => false) || s.flc.susp.toList[w.arr]? != some none
    if w.stage != k.val + 1 || w.paused || taken || s.mode == mdStabled then s else s.rewriteStep w e
  | none => s

/-! Start-up step 4 (R414, R415, R419). -/

/-- A rewrite that was interrupted after its step 2 is completed: the source block is erased and programmed from the spare. -/
def State.rewriteEnd (s : State) (e : EraseEnd) : State :=
  match s.flc.rewrite with
  | some w =>
    let s1 := s.setFlc { s.flc with rewrite := none }
    if w.stage ≤ 2 then s1
    else
      let s2 := (s1.eraseBegin w.arr w.blk).eraseFinish w.arr w.blk e
      if e.pass then (s2.copyBlock w.arr 255 w.blk).rewritten else s2
  | none => s

/-- What a reset or supply loss leaves of the operation in progress: an erase keeps its flag, and a page is cut off. -/
def State.flashCut (s : State) : State :=
  let s1 := match s.flc.run with
    | some r =>
      match r.op with
      | .program p _ => s.setBlk r.arr r.blk { s.blk r.arr r.blk with cut := (s.blk r.arr r.blk).cut ||| 2 ^ p }
      | _ => s
    | none => s
  s1.setFlc { s1.flc with run := none, susp := Vector.replicate 3 none, stage := .none }

/-- Blocks whose erase flag is set are marked ERASE_INCOMPLETE. -/
def State.markIncomplete (s : State) : State :=
  s.flc.info.foldl (fun (t : State) (e : Nat × BlkInfo) =>
    if e.2.flag then
      let t1 := t.setFlc { t.flc with info := SMap.put (fun _ => resetBlk) t.flc.info e.1 { e.2 with incomplete := true, suspended := false } }
      t1.fire 30
    else t) s

/-! The configuration record (R423). -/

/-- A configuration record. -/
structure ConfRec where
  seq : Nat
  ovrValid : Bool
  startMarch : Bool
  ovrMode : Nat
  refmode : Bool
  side : Bool
  autoArm : Nat
  pwyId : Nat
  prio : Nat

/-- The record at a byte address of data flash: none unless its magic and CRC are correct. -/
def State.recordAt (s : State) (a : Nat) : Option ConfRec :=
  let w (i : Nat) : Nat := (s.flashRead (a + 4 * i)).toNat
  let crc := ((List.range 15).foldl (fun c i => crcBytes 4 (w i) c) 0xFFFFFFFF) ^^^ 0xFFFFFFFF
  if w 0 == 0x43524543 && w 15 == crc && (List.range 4).all (fun i => !s.flashUe (a + 16 * i)) then
    let b8 := w 2 % 256
    let b9 := w 2 / 256 % 256
    some ⟨w 1, natBit b8 7, natBit b8 6, b8 % 8, natBit b9 0, natBit b9 1, w 2 / 65536 % 4096, w 3 % 16384, w 3 / 65536 % 256⟩
  else none

/-- The valid record with the highest SEQ in data flash blocks 0 and 1. -/
def State.confRec (s : State) : Option ConfRec :=
  (List.range 256).foldl (fun (b : Option ConfRec) i =>
    match s.recordAt (0x01800000 + 64 * i), b with
    | none, _ => b
    | some r, none => some r
    | some r, some q => if q.seq < r.seq then some r else some q) none

/-! The ROM loader (R28, R424). -/

/-- Start-up has stopped: only the ROM loader answers. -/
def State.bootStopped (s : State) : Bool := s.getF R.DEV_BOOT_STAT F.DEV_BOOT_STAT_FAIL_STEP != 0

/-- The loader answers every command of a RETIRED module with REFUSED (R455). -/
def State.retired (s : State) : Bool := s.getF R.SEC_LC F.SEC_LC_STATE == 4

/-- A loader command that begins an operation, or is answered. -/
def State.loaderRun (s : State) (can : Bool) (code : Nat) (op : FlcOp) (b : BlkSel) : State :=
  if !s.bootStopped then s
  else if s.retired then s.emit (.loader can code 2 0)
  else if s.flc.run.isSome then s.emit (.loader can code 1 0)
  else
    let r := s.flcBegin op b (some can)
    if r.begun then r.st else (r.st.flcEnd r.status r.reason).emit (.loader can code r.status r.reason)

def State.loaderErase (s : State) (can : Bool) (arr : Fin 4) (blk : BitVec 8) : State :=
  s.loaderRun can 1 .erase ⟨0, 0, arr, blk.toNat, 0⟩

def State.loaderWrite (s : State) (can : Bool) (arr : Fin 4) (blk page : BitVec 8) (data : Vector Word 64) : State :=
  s.loaderRun can 2 (.program page.toNat data.toList) ⟨0, 0, arr, blk.toNat, page.toNat⟩

/-- CHECK of a bank: the result is the check that failed. On CAN FD the loader takes frames with identifier 0x6B0 (R424); an
operation in the bank answers BUSY (R411). -/
def State.loaderCheck (s : State) (can : Bool) (bank : Fin 2) (id : BitVec 11) : State :=
  if !s.bootStopped || (can && id != 0x6B0) then s
  else if s.retired then s.emit (.loader can 3 2 0)
  else if s.arrBusy bank then s.emit (.loader can 3 1 0)
  else
    let (t, ok) := s.imageCheck bank
    t.emit (.loader can 3 (if ok then 0 else 6) (s.imageFail bank))

end Machine
end Sys2Proof
end

