-- ==== Sys2Proof/Machine/Sec.lean ====
section
/-! DEFINITION. Security and life-cycle (chapter 26): keys, life-cycle transitions, the tamper monitor; and the power-on
reset that precedes a cold start. -/

namespace Sys2Proof
namespace Machine

/-! Power-on reset (R11, R429, R455, R457). -/

/-- Registers that no reset affects: one-time cells, the next bank, and the definitions of the flash regions. -/
def State.lasting (s : State) : List (Nat × Word) :=
  [(R.SEC_LC, F.SEC_LC_STATE.word (s.getF R.SEC_LC F.SEC_LC_STATE)), (R.SEC_KEYSTAT, s.reg R.SEC_KEYSTAT),
    (R.SEC_MINVER, s.reg R.SEC_MINVER), (R.SEC_POLICY, s.reg R.SEC_POLICY), (R.FLC_BANK, s.reg R.FLC_BANK)] ++
  (List.range 8).map (fun r => (R.FLC_REGION r, s.reg (R.FLC_REGION r) &&& 0x83FFFF00))

/-- Registers that always-on power keeps (R448, R458, log 37). Of the clocks, the crystal runs on (R435). -/
def State.alwaysOn (s : State) : List (Nat × Word) :=
  [R.SEC_TAMPER, R.SEC_TAMPER_TIME, R.AON_WAKE_EN, R.AON_WAKE_STAT, R.AON_RTC_SEC, R.AON_RTC_SUB, R.AON_ALARM, R.AON_CLK,
    R.AON_GPIO, R.PWR_STAT, R.PWR_VIN, R.PWR_HOLDUP, R.PWR_EL_STAT, R.PWR_FAIL_CNT, R.PWR_TEMP].map (fun a => (a, s.reg a)) ++
    [(R.PWR_CLK, s.reg R.PWR_CLK &&& 0x40)]

/-- The capture channels after a loss of power: empty, with the levels at their pins, which the module does not set. -/
def State.capLevels (s : State) : Vector (Vector CapSt 4) 12 :=
  s.cap.map (fun v => v.map (fun (c : CapSt) => { resetCap with pin := c.pin, level := c.pin }))

/-- The module after a power-on reset: START, with what no reset affects; `aon`: always-on power has not been lost. A
transition that has been accepted goes on unless the supply is lost (R455, R458). -/
def State.powerOn (s : State) (aon : Bool) : State :=
  let kept := s.lasting ++ (if aon then s.alwaysOn else [])
  let t := s.flashCut
  let r := State.reset
  let base : State := { r with
    part := s.part, clock := s.clock, free := s.free, outs := s.outs, pending := s.pending, cap := s.capLevels,
    flc := t.flc, pwr := if aon then s.pwr else resetPwr
    sec := { resetSec with
      keys := s.sec.keys, due := s.sec.due, req := if aon then s.sec.req else none
      images := if aon then s.sec.images else resetSec.images }
    ctl := r.ctl.mapFinIdx (fun i c _ => { c with tripPin := (s.ctl.toList[i]?.getD resetCtl).tripPin }) }
  kept.foldl (fun (u : State) e => u.setReg e.1 e.2) base

/-! Keys (R449, R452, R453). -/

/-- Who may write the block (R459): the system pair with WARDEN, or a DEBUG session. -/
def secMaster (x : Access) : Bool := (x.m == .sys || x.m == .mon) && x.warden

def State.lc (s : State) : Nat := s.getF R.SEC_LC F.SEC_LC_STATE

/-- The staged digest: byte 4w + i of it is byte i of word w, from the least significant on. -/
def State.keyData (s : State) : BitVec 256 :=
  BitVec.ofNat 256 (beValue ((List.range 32).map (fun k => (s.reg (R.SEC_KEY_DATA (k / 4))).toNat / 256 ^ (k % 4))))

/-- SET_MINVER. -/
def State.setMinver (s : State) : State :=
  if (s.reg R.SEC_MINVER).toNat < s.sec.version.toNat then s.setReg R.SEC_MINVER s.sec.version else s.badAcc

/-- WRITE_KEY: slots 1 to 3, once, in BLANK and PROVISIONED. -/
def State.writeKey (s : State) (slot : Nat) : State :=
  if slot == 0 || decide (1 < s.lc) || natBit (s.getF R.SEC_KEYSTAT F.SEC_KEYSTAT_WRITTEN) slot then s.badAcc
  else { s with sec := { s.sec with keys := s.sec.keys.setIfInBounds (slot - 1) s.keyData } }.setF R.SEC_KEYSTAT ⟨slot, 1⟩ 1

/-- REVOKE: slots 1 to 3, in BLANK, PROVISIONED and FIELD. -/
def State.revoke (s : State) (slot : Nat) : State :=
  if slot == 0 || decide (2 < s.lc) then s.badAcc else s.setF R.SEC_KEYSTAT ⟨4 + slot, 1⟩ 1

/-- A write of SEC_CMD. -/
def State.secCmd (s : State) (v : Word) : State :=
  let slot := F.SEC_CMD_SLOT.get v
  if F.SEC_CMD_KEY.get v != 0x5EC0 then s.badAcc
  else match F.SEC_CMD_OP.get v with
    | 1 => s.setMinver
    | 2 => s.writeKey slot
    | 3 => s.revoke slot
    | _ => s.badAcc

/-! Life-cycle transitions (R454, R455). -/

/-- The table of R454. -/
def State.lcAllowed (s : State) (goal : Nat) : Bool :=
  let w := s.getF R.SEC_KEYSTAT F.SEC_KEYSTAT_WRITTEN
  let r := s.getF R.SEC_KEYSTAT F.SEC_KEYSTAT_REVOKED
  let live (k : Nat) : Bool := natBit w k && !natBit r k
  match s.lc, goal with
  | 0, 1 => natBit w 1 || natBit w 2 || natBit w 3
  | 1, 2 => live 1 || live 2 || live 3
  | 2, 3 => s.sec.token
  | k, 4 => k != 4
  | _, _ => false

/-- A write of SEC_LC_REQ: by the system pair or a DEBUG session. An accepted request starts the wipe. -/
def State.lcRequest (s : State) (v : Word) : State :=
  let goal := F.SEC_LC_REQ_TARGET.get v
  let reply (t : State) (k : Nat) : State := t.setF R.SEC_LC F.SEC_LC_REQ_STATUS k
  if F.SEC_LC_REQ_KEY.get v != 0x1C5E then reply s 5
  else if s.sec.hitAt != some s.clock && s.mode == mdService && s.noneArmed && (s.getF R.SEC_TAMPER F.SEC_TAMPER_FLAGS == 0 || goal == 4) && s.lcAllowed goal &&
      s.sec.req.isNone then
    (reply { s with sec := { s.sec with req := some goal, reqAt := s.clock } } 0).wipeBegin
  else reply s 2

/-- LC_STATE_WRITE: the new state is written, and a cold start begins (R455). -/
def State.lcWrite (s : State) : State :=
  match s.sec.req with
  | none => s
  | some goal =>
    let s1 := s.setReg R.SEC_LC (F.SEC_LC_STATE.word goal)
    { s1 with sec := { s1.sec with due := if 3 ≤ goal then goal else 0, req := none } }.powerOn true

/-! Tamper (R456 to R458). -/

/-- Enables in force: ENCL and MESH read 1 in FIELD (R457). -/
def State.tamperEn (s : State) : Nat :=
  let e := s.getF R.SEC_TAMPER_CFG F.SEC_TAMPER_CFG_EN
  if s.lc == 2 then e ||| 3 else e

def State.disarmAll (s : State) : State := (List.finRange 12).foldl (fun (t : State) n => t.disarm n) s

/-- The fast domains run. -/
def State.fastRuns (s : State) : Bool := s.mode != mdStabled

/-- A detection wins over a request for a transition that was accepted in the same cycle (R458). -/
def State.tamperWins (s : State) : State :=
  let t := { s with sec := { s.sec with hitAt := some s.clock } }
  if s.sec.req.isSome && s.sec.reqAt == s.clock then
    { t with sec := { t.sec with req := none } }.setF R.SEC_LC F.SEC_LC_REQ_STATUS 2
  else t

/-- A detection on source b. CGLITCH disarms whatever ACT says (R457). -/
def State.tamper (s : State) (b : Fin 5) : State :=
  if !natBit s.tamperEn b then s
  else
    let s1 := ((s.tamperWins.wipeBegin.setF R.SEC_TAMPER ⟨b.val, 1⟩ 1).setReg R.SEC_TAMPER_TIME (s.reg R.AON_RTC_SEC)).count
      R.SEC_WIPE_CNT F.SEC_WIPE_CNT_COUNT
    let s2 := { s1 with sec := { s1.sec with event := true } }.fireIf s1.fastRuns 37
    match s2.getF R.SEC_TAMPER_CFG F.SEC_TAMPER_CFG_ACT with
    | 0 => if b.val == 3 then s2.disarmAll else s2
    | 1 => s2.disarmAll
    | _ => s2.disarmAll.powerOn true

/-- Any write of the SEC block: one by another than R459's writers is refused; an offset that the block does not list takes none
(R43). -/
def State.secWrite (s : State) (x : Access) (a : Nat) (v : Word) : State :=
  let o := a - 0x01100000
  if (rowAt a).isNone then s
  else if o == 0x20 then
    if x.m == .sys then s.setReg a (s.reg a &&& ~~~ (v &&& 0x1F)) else s.refuse x.m
  else if o == 0x04 then
    if x.m == .sys || (x.m == .mon && x.warden) then s.lcRequest v else s.refuse x.m
  else if !secMaster x then s.refuse x.m
  else if o == 0x10 then s.secCmd v
  else if o == 0x1C then
    if bit v 0 then s else if s.lc == 1 || s.lc == 2 then s.setReg a 0 else s.badAcc
  else if o == 0x24 then
    if F.SEC_TAMPER_CFG_ACT.get v == 3 then s.badAcc
    else
      let en := if s.lc ≤ 1 then F.SEC_TAMPER_CFG_EN.get v else s.tamperEn ||| F.SEC_TAMPER_CFG_EN.get v
      s.setReg a (F.SEC_TAMPER_CFG_ACT.word (F.SEC_TAMPER_CFG_ACT.get v) ||| F.SEC_TAMPER_CFG_EN.word en)
  else if 0x40 ≤ o ∧ o < 0x60 ∧ o % 4 = 0 then s.setReg a v
  else s

end Machine
end Sys2Proof
end

