-- ==== Sys2Proof/Machine/Power.lean ====
section
/-! DEFINITION. Power, energy limits and clocks (chapters 25 and 29): the supply and its store, fold-back of pins, the clock
monitor, the real-time counter, temperatures, and the registers of the PWR and AON blocks. -/

namespace Sys2Proof
namespace Machine

/-! Supply (R427 to R430). Voltages are in units of 10 mV. -/

def State.setVin (s : State) (vin : BitVec 16) : State := s.setF R.PWR_VIN F.PWR_VIN_VIN vin.toNat

/-- INPUT_LOSS: INPUT_OK falls with the input below 23.0 V, and the module runs on its store. The store no longer holds its
full energy (log 38). -/
def State.inputLoss (s : State) (vin : BitVec 16) : State :=
  let a := R.PWR_STAT
  if !s.isSet a F.PWR_STAT_INPUT_OK || decide (2300 ≤ vin.toNat) then s
  else
    let s1 := ((((s.setVin vin).setF a F.PWR_STAT_INPUT_OK 0).setF a F.PWR_STAT_HOLDUP_READY 0).setF a F.PWR_STAT_OV 0)
    let s2 := (((s1.setF a F.PWR_STAT_ON_HOLDUP 1).setF a F.PWR_STAT_FAIL_F 1).count R.PWR_FAIL_CNT F.PWR_FAIL_CNT_COUNT)
    let s3 := { s2 with sec := { s2.sec with event := true } }.fireIf s2.fastRuns 32
    if s3.isSet R.TWN_CFG F.TWN_CFG_PF_HO then s3.handOver (BitVec.ofNat 12 4095) 4 else s3

/-- HOLDUP_LOW: the store reaches its reserve. -/
def State.holdupLow (s : State) : State :=
  let a := R.PWR_STAT
  if !s.isSet a F.PWR_STAT_ON_HOLDUP || s.isSet a F.PWR_STAT_HOLDUP_LOW then s
  else (((s.setF a F.PWR_STAT_HOLDUP_LOW 1).setF a F.PWR_STAT_LOW_F 1).fireIf s.fastRuns 33).disarmAll

/-- HOLDUP_SHUTDOWN: power-on reset, always-on power included. -/
def State.shutdown (s : State) : State := if s.isSet R.PWR_STAT F.PWR_STAT_HOLDUP_LOW then s.powerOn false else s

/-- OV, and OV_F with it, while the input is above 154 V (R427). -/
def State.showOv (s : State) (vin : BitVec 16) : State :=
  let high := decide (15400 < vin.toNat)
  let s1 := s.setB R.PWR_STAT F.PWR_STAT_OV high
  if high then s1.setF R.PWR_STAT F.PWR_STAT_OV_F 1 else s1

/-- INPUT_RESTORED: INPUT_OK rises with the input above 25.0 V. Before HOLDUP_LOW the module goes on. -/
def State.inputRestored (s : State) (vin : BitVec 16) : State :=
  let a := R.PWR_STAT
  if s.isSet a F.PWR_STAT_INPUT_OK || decide (vin.toNat ≤ 2500) then s
  else
    let s1 := ((s.setVin vin).setF a F.PWR_STAT_INPUT_OK 1).showOv vin
    if s.isSet a F.PWR_STAT_ON_HOLDUP && !s.isSet a F.PWR_STAT_HOLDUP_LOW then
      (s1.setF a F.PWR_STAT_ON_HOLDUP 0).fireIf s1.fastRuns 34
    else s1

/-- HOLDUP_READY: the store holds its energy; pending arm requests may take effect (R31). -/
def State.holdupReady (s : State) : State :=
  if s.isSet R.PWR_STAT F.PWR_STAT_INPUT_OK && !s.isSet R.PWR_STAT F.PWR_STAT_HOLDUP_LOW then
    (List.finRange 12).foldl (fun (t : State) n => t.armPending n) (s.setF R.PWR_STAT F.PWR_STAT_HOLDUP_READY 1)
  else s

/-- OVERVOLTAGE: the input rises above 154 V, or returns below it. -/
def State.overvoltage (s : State) (vin : BitVec 16) : State := (s.setVin vin).showOv vin

/-! Fold-back (R433). -/

/-- CONN's code of a connector (R448). -/
def connCode (j : Nat) : Nat := if j == 2 then 2 else if j == 3 then 3 else 1

/-- An EL pin that the module drives (R481, R483 to R485); those of absent units are inert (R482). -/
def State.elDriven (s : State) (j pin : Nat) : Bool :=
  let pwm (n : Nat) : Bool := decide (1 ≤ pin) && decide (pin ≤ 360) && decide ((pin - 1) % 60 < 16) && s.fitted (n + (pin - 1) / 60)
  match j with
  | 2 => (decide (103 ≤ pin) && decide (pin < 127) && (pin - 103) % 3 != 2) ||
      (decide (127 ≤ pin) && decide (pin < 151) && decide ((pin - 127) % 6 < 2) && s.portFitted ((pin - 127) / 6))
  | 3 => pwm 0 || pin == 361
  | 4 => pwm 6 || (decide (393 ≤ pin) && decide (pin ≤ 396))
  | _ => false

/-- EL_FOLDBACK of a pin: high impedance. -/
def State.foldback (s : State) (j : Nat) (pin : Nat) : State :=
  if s.pwr.fold.contains (j, pin) || !s.elDriven j pin then s
  else
    let a := R.PWR_EL_STAT
    let s1 := ((s.count a F.PWR_EL_STAT_COUNT).setF a F.PWR_EL_STAT_CONN (connCode j)).setF a F.PWR_EL_STAT_PIN pin
    { (s1.setF R.PWR_STAT F.PWR_STAT_EL_F 1) with pwr := { s1.pwr with fold := s1.pwr.fold ++ [(j, pin)] } }.fireIf s.fastRuns 35

/-- EL_FOLDBACK_RETRY: the pin drives again. -/
def State.foldbackEnd (s : State) (j : Nat) (pin : Nat) : State :=
  { s with pwr := { s.pwr with fold := s.pwr.fold.filter (fun e => e != (j, pin)) } }

/-- Connector and pin of output A or B of channel k of slice n (R483). -/
def pwmPin (n k : Nat) (b : Bool) : Nat × Nat := (if n < 6 then 3 else 4, 1 + 60 * (n % 6) + 2 * k + b2n b)

/-- Level at the pin of a PWM output: none, high impedance, until the logic rails are good (R19), in fold-back, and at an absent
slice (R5, R482). -/
def State.padLevel (s : State) (n : Fin 12) (k : Fin 8) (b : Bool) : Option Bool :=
  if !s.pwr.rails || !s.fitted n || s.pwr.fold.contains (pwmPin n k b) then none else some (if b then s.pinB n k else s.pinA n k)

/-! Clocks (R435 to R437). -/

/-- Start-up has come to a step since the cold start, and the fast domains run. -/
def State.pastStep (s : State) (k : Nat) : Bool := s.fastRuns && decide (k ≤ s.getF R.DEV_BOOT_STAT F.DEV_BOOT_STAT_STEP)

/-- A unit requests clock c: reference, core PLL, Passway, PCIe, main memory, Ethernet, crystal (R435). The link is enabled from
the end of step 4; the MACs, for which the spec names no enable, from step 3 (log 198). -/
def State.clockAsked (s : State) (c : Fin 7) : Bool :=
  match c.val with
  | 2 => s.isSet R.PWY_CFG F.PWY_CFG_EN || s.isSet R.TWN_CFG F.TWN_CFG_EN
  | 3 => s.pastStep 4
  | 4 => s.pastStep 3
  | 5 => s.pastStep 3 || s.getF R.AON_WAKE_EN F.AON_WAKE_EN_SRC % 4 != 0
  | 6 => s.isSet R.AON_CLK F.AON_CLK_XTAL_EN && s.isSet R.AON_CLK F.AON_CLK_XTAL_OK
  | _ => s.pastStep 2

/-- Clocks that no unit requests any more stop (R436). -/
def State.dropClocks (s : State) : State :=
  s.setF R.PWR_CLK F.PWR_CLK_CLOCKS ((List.finRange 7).foldl (fun acc (c : Fin 7) =>
    if s.clockOn c && s.clockAsked c then acc + 2 ^ c.val else acc) 0)

/-- CLOCK_LOCK: a requested clock has locked. -/
def State.clockLock (s : State) (c : Fin 7) : State :=
  if s.clockAsked c then s.setF R.PWR_CLK ⟨c.val, 1⟩ 1 else s

/-- PWR_CLK as it reads: the clocks that run, and the slices that are clocked. -/
def State.clkView (s : State) : Word :=
  let sl := (List.range 12).foldl (fun acc n => if s.powered n && s.fastRuns then acc + 2 ^ n else acc) 0
  F.PWR_CLK_CLOCKS.word (s.getF R.PWR_CLK F.PWR_CLK_CLOCKS) ||| F.PWR_CLK_SLICE.word sl

/-- CLOCK_GLITCH of the core PLL, while it runs: every slice is disarmed, whatever the configuration (R437, R457). -/
def State.clockGlitch (s : State) : State := if s.fastRuns then s.disarmAll.tamper 3 else s

/-! The real-time counter (R435, R447). -/

/-- The alarm line: AON_RTC_SEC has reached a non-zero alarm. -/
def State.alarmLevel (s : State) : Bool :=
  let al := s.reg R.AON_ALARM
  al != 0 && decide (al.toNat ≤ (s.reg R.AON_RTC_SEC).toNat)

/-- The level at which a line of the module's own stands: a window's (R71) or the alarm's (R447). -/
def State.lineStands (s : State) (src : Nat) : Option Bool :=
  if src == 36 then some s.alarmLevel
  else match localOf src with
    | some (n, x) => if h : n < 12 ∧ 24 ≤ x ∧ x < 36 then some (s.winLine ⟨n, h.1⟩ ⟨x - 24, by omega⟩) else none
    | none => none

/-- LINE_FILTER_CHANGE: the router runs, and the filter has seen the level on the line (R305). -/
def State.lineChange (s : State) (src : Nat) (level : Bool) : State :=
  if s.fastRuns && s.lineStands src != some (!level) then s.lineLevel src level else s

/-- RTC_ALARM: the alarm line has passed its filter, while the router runs (R305, R447). -/
def State.rtcAlarm (s : State) : State := s.lineChange 36 s.alarmLevel

/-- One count of 1/32 768 s. -/
def State.rtcTick (s : State) : State :=
  let s1 := s.countWrap R.AON_RTC_SUB F.AON_RTC_SUB_SUB
  if s1.getF R.AON_RTC_SUB F.AON_RTC_SUB_SUB == 0 then s1.countWrap R.AON_RTC_SEC F.AON_RTC_SEC_SEC else s1

def State.xtalOk (s : State) (ok : Bool) : State := (s.setB R.AON_CLK F.AON_CLK_XTAL_OK ok).dropClocks

/-! Temperatures (R493). -/

/-- TEMPERATURE_UPDATE with the baseplate and die in °C. -/
def State.temperature (s : State) (base die : BitVec 8) : State :=
  let a := R.PWR_TEMP
  let hot := decide (base.toInt > 90)
  let s1 := ((s.setF a F.PWR_TEMP_BASE base.toNat).setF a F.PWR_TEMP_DIE die.toNat).setB a F.PWR_TEMP_HOT hot
  if hot then s1.setF a F.PWR_TEMP_HOT_F 1 else s1

/-! Register writes. -/

def State.pwrWrite (s : State) (a : Nat) (v : Word) : State :=
  if a == R.PWR_STAT then s.setReg a (s.reg a &&& ~~~ (v &&& 0xF0000000))
  else if a == R.PWR_TEMP then
    let s1 := s.setReg a (s.reg a &&& ~~~ (v &&& 0x80000000))
    if s1.isSet a F.PWR_TEMP_HOT then s1.setF a F.PWR_TEMP_HOT_F 1 else s1
  else s

def State.aonWrite (s : State) (a : Nat) (v : Word) : State :=
  if a == R.AON_WAKE_EN then (s.setReg a (v &&& 0x3FF)).dropClocks
  else if a == R.AON_WAKE_STAT then s.setReg a (s.reg a &&& ~~~ (v &&& 0x3FF))
  else if a == R.AON_RTC_SEC || a == R.AON_ALARM || a == R.AON_GPIO then s.setReg a v
  else if a == R.AON_CLK then (s.setF a F.AON_CLK_XTAL_EN (v.toNat % 2)).dropClocks
  else s

end Machine
end Sys2Proof
end

