-- ==== Sys2Proof/Machine/Trace.lean ====
section
/-! DEFINITION. Stimulus ports and trace (R472 to R475): posts, queues, the merger, destinations, and the STP registers. Source
n < 12 is slice n, 12 the system pair. -/

namespace Sys2Proof
namespace Machine

/-! Messages of the monitor. -/

def State.colbelAvail (s : State) : Bool := s.isSet R.DBG_STAT F.DBG_STAT_AVAIL

/-- Model key of the control word MBX_GO of the PF0 mailbox; MBX_STAT follows, the response stands at 0x880 (log 12). -/
def mbxBase : Nat := 0x100200000

/-- A response comes to stand in the mailbox: MBX_STAT shows DONE and its length, 12 to 1920, and its first words are its header
(R460, R461). What the spec does not fix is free (log 13). -/
def State.mbxPut (s : State) (ty : Nat) (sess seq : Option Nat) : State :=
  let len := 12 + (Config.freeWord s.free).toNat % 1909
  let k := sess.getD ((Config.freeWord (s.free + 1)).toNat % 256)
  let q := seq.getD ((Config.freeWord (s.free + 2)).toNat + 2 ^ 32 * (Config.freeWord (s.free + 3)).toNat)
  let s1 := s.setReg (mbxBase + 4) (BitVec.ofNat 32 (0x40000000 + len))
  let s2 := (s1.setReg (mbxBase + 0x880) (BitVec.ofNat 32 (len + 2 ^ 16 * ty + 2 ^ 24 * k))).setReg (mbxBase + 0x884) (BitVec.ofNat 32 q)
  { s2.setReg (mbxBase + 0x888) (BitVec.ofNat 32 (q / 2 ^ 32)) with
    dbg := { s2.dbg with mbxRsp := some (s.free + 4) }, free := s.free + 481 }

/-- A message of some TYPE leaves on transport t. -/
def State.send (s : State) (t ty : Nat) (sess seq : Option Nat) (o : Out) : State :=
  (if t == 0 then s.mbxPut ty sess seq else s).emit o

/-- TYPE of a message (R461). -/
def tyHelloRsp : Nat := 2
def tySealed : Nat := 5
def tyError : Nat := 7

/-! Queues. -/

def State.trcOf (s : State) (e : Fin 13) : TrcSt := s.trc.get e

/-- Set a queue, and show it in STP_STAT. -/
def State.setTrc (s : State) (e : Fin 13) (t : TrcSt) : State :=
  let s1 := { s with trc := s.trc.set e t }
  if e.val < 12 then (s1.setF (R.STP_STAT e) F.STP_STAT_FILL t.queue.length).setF (R.STP_STAT e) F.STP_STAT_SEQ t.seq else s1

/-- A post's level. -/
def postLevel (p : Nat) : Nat := p / 8

/-- A drop (R474). -/
def State.traceDrop (s : State) (e : Fin 13) : State :=
  let s1 := s.setTrc e { s.trcOf e with lost := true }
  if e.val < 12 then ((s1.count (R.STP_DROPS e) F.STP_DROPS_COUNT).setF (R.STP_STAT e) F.STP_STAT_DROP_F 1).fireLocal e 21
  else s1.count R.STP_SYS_DROPS F.STP_SYS_DROPS_COUNT

/-- The newest packet of level 2 is taken out. -/
def dropNewest2 (l : List Packet) : List Packet :=
  match l.reverse.findIdx? (fun x => postLevel x.post == 2) with
  | some i => l.eraseIdx (l.length - 1 - i)
  | none => l

/-- The post produces packets (R472). -/
def State.postOn (s : State) (e : Fin 13) (p : Nat) : Bool :=
  if e.val < 12 then
    natBit (s.getF (R.STP_EN e) F.STP_EN_EN) p && decide (postLevel p ≤ s.getF (R.STP_CTRL e) F.STP_CTRL_LEVEL) &&
      s.getF (R.STP_CTRL e) F.STP_CTRL_DEST != 0
  else natBit (s.getF R.STP_SYS_EN F.STP_SYS_EN_EN) p && decide (postLevel p ≤ s.getF R.STP_SYS_EN F.STP_SYS_EN_LEVEL)

/-- A store to post p of source e. -/
def State.postStore (s : State) (e : Fin 13) (p : Nat) (c : Cell) : State :=
  if !s.postOn e p then
    if e.val < 12 then s.count (R.STP_FILTERED e) F.STP_FILTERED_COUNT else s.count R.STP_SYS_FILTERED F.STP_SYS_FILTERED_COUNT
  else
    let q := s.trcOf e
    let pk : Packet := ⟨c.v, s.mtime.setWidth 48, if e.val < 12 then e.val else 15, c.tag, p, s.ptbActive e, q.seq, false⟩
    let seq := (q.seq + 1) % 65536
    if q.queue.length < 12 then s.setTrc e { q with queue := q.queue ++ [pk], seq := seq }
    else if postLevel p == 0 && q.queue.any (fun x => postLevel x.post == 2) then
      (s.setTrc e { q with queue := dropNewest2 q.queue ++ [pk], seq := seq }).traceDrop e
    else (s.setTrc e { q with seq := seq }).traceDrop e

/-- The four words of a packet (R473). -/
def Packet.words (p : Packet) : List Word :=
  let t := p.time.toNat
  let b10 := p.src + 16 * p.tag.toNat
  let b11 := p.post + 32 * postLevel p.post + 128 * b2n p.ptb
  [p.payload, BitVec.ofNat 32 t, BitVec.ofNat 32 (t / 2 ^ 32 % 65536 + 65536 * b10 + 2 ^ 24 * b11),
    BitVec.ofNat 32 (p.seq + 65536 * b2n p.lost)]

/-- Main-memory cells from a byte address. -/
def State.storeWords (s : State) (a : Nat) (ws : List Word) : State :=
  (ws.foldl (fun (acc : State × Nat) w => (acc.1.wr none acc.2 ⟨w, tagUint⟩, acc.2 + 4)) (s, a)).1

/-- The ring takes a packet: none where it is disabled or full. -/
def State.ringPut (s : State) (p : Packet) : Option State :=
  let len := 2 ^ s.getF R.STP_RING_CFG F.STP_RING_CFG_LOG2LEN
  let w := s.getF R.STP_RING_WIDX F.STP_RING_WIDX_INDEX
  if !s.isSet R.STP_RING_CFG F.STP_RING_CFG_EN || (w + 1) % len == s.getF R.STP_RING_RIDX F.STP_RING_RIDX_INDEX then none
  else
    let base := 0x10000000 + 0x1000 * s.getF R.STP_RING_BASE F.STP_RING_BASE_BASE
    some ((s.storeWords (base + 16 * w) p.words).setF R.STP_RING_WIDX F.STP_RING_WIDX_INDEX ((w + 1) % len))

/-- The host ring of the owner of slice n takes a packet (R475). -/
def State.hostRingPut (s : State) (n : Nat) (p : Packet) : Option State :=
  let o := s.owner n
  if h : o < 16 then
    let f : Fin 16 := ⟨o, h⟩
    match (s.fnOf f).trace with
    | some (base, lg, i) =>
      some ((s.toHost f (base + 16 * i) p.words).setFn f { s.fnOf f with trace := some (base, lg, (i + 1) % 2 ^ (lg - 4)) })
    | none => none
  else none

/-- A packet waits to be sent to a session. -/
def State.sessionPut (s : State) (k : Nat) (p : Packet) : Option State :=
  match s.dbg.sess.toList[k]? with
  | some (some x) => some { s with dbg := { s.dbg with sess := s.dbg.sess.setIfInBounds k (some { x with trace := x.trace ++ [p] }) } }
  | _ => none

/-- Deliver a packet of source e; none where its destination takes none. -/
def State.deliverPacket (s : State) (e : Fin 13) (p : Packet) : Option State :=
  if e.val < 12 then
    match s.getF (R.STP_CTRL e) F.STP_CTRL_DEST with
    | 1 => s.ringPut p
    | 2 => s.hostRingPut e p
    | 3 => s.sessionPut (s.getF (R.STP_CTRL e) F.STP_CTRL_SESSION) p
    | _ => none
  else s.ringPut p

/-- The source that the merger serves: level 0 at its head first, then any, in round robin (R474). -/
def State.mergePick (s : State) : Option (Fin 13) :=
  let order := (List.range 13).map (fun i => (s.mergeNext + i) % 13)
  let src := order.filterMap (fun i => if h : i < 13 then some (⟨i, h⟩ : Fin 13) else none)
  let urgent := src.find? (fun e => match (s.trcOf e).queue with | x :: _ => postLevel x.post == 0 | [] => false)
  match urgent with
  | some e => some e
  | none => src.find? (fun e => !(s.trcOf e).queue.isEmpty)

/-- TRACE_MERGE: one packet goes to its destination, every 6 tCK (R474). -/
def State.traceMerge (s : State) : State :=
  match if s.mergeFrom ≤ s.clock then s.mergePick else none with
  | none => s
  | some e =>
    let q := s.trcOf e
    match q.queue with
    | [] => s
    | p :: rest =>
      let s1 := { s.setTrc e { q with queue := rest } with mergeNext := (e.val + 1) % 13, mergeFrom := s.clock + 6 }
      match s1.deliverPacket e { p with lost := q.lost } with
      | some t => t.setTrc e { t.trcOf e with lost := false }
      | none => s1.traceDrop e

/-- TRACE_SESSION_SEND: up to 112 packets are sealed to session k while the monitor serves (R274). -/
def State.traceSend (s : State) (k : Fin 4) : State :=
  match s.dbg.sess.get k with
  | some x =>
    if x.trace.isEmpty || !s.colbelAvail then s
    else { s with dbg := { s.dbg with sess := s.dbg.sess.set k (some { x with trace := x.trace.drop 112 }) } }.send x.tr tySealed
      (some k.val) none (.colbelTrace x.tr k (x.trace.take 112))
  | none => s

/-! Registers. -/

/-- A write of STP_CTRL or STP_EN of slice n is allowed. -/
def stpOk (o : Nat) (v : Word) : Bool := o != 0 || F.STP_CTRL_LEVEL.get v != 3

/-- Any write of the STP block of slice n by one who may (R475). -/
def State.stpWrite (s : State) (n : Fin 12) (a : Nat) (v : Word) : State :=
  let o := a % 0x1000
  if o == 0 then if stpOk o v then s.setReg a (v &&& 0x333) else s.badAcc
  else if o == 4 then s.setReg a (v &&& 0xFFFFFF)
  else if o == 8 then s.setReg a (s.reg a &&& ~~~ (v &&& 0x80000000))
  else if 0x100 ≤ o ∧ o < 0x160 ∧ o % 4 = 0 then s.postStore n.castSucc ((o - 0x100) / 4) ⟨v, tagUint⟩
  else s

/-- The ring lies within one channel. -/
def ringFits (base lg : Nat) : Bool := decide (base % 0x8000000 + 16 * 2 ^ lg ≤ 0x8000000)

/-- A write of STP_RING_CFG: while EN is 0, except to clear it. -/
def State.ringCfg (s : State) (v : Word) : State :=
  let a := R.STP_RING_CFG
  let lg := F.STP_RING_CFG_LOG2LEN.get v
  let zero (t : State) : State := (t.setReg R.STP_RING_WIDX 0).setReg R.STP_RING_RIDX 0
  if s.isSet a F.STP_RING_CFG_EN then
    if F.STP_RING_CFG_EN.get v == 1 then s.badAcc else zero (s.setF a F.STP_RING_CFG_EN 0)
  else if lg < 8 ∨ 20 < lg ∨ !ringFits (0x1000 * s.getF R.STP_RING_BASE F.STP_RING_BASE_BASE) lg then s.badAcc
  else zero (s.setReg a (v &&& 0x8000001F))

/-- Any write of the device STP block. -/
def State.stpDevWrite (s : State) (a : Nat) (v : Word) : State :=
  let o := a % 0x1000
  if o == 0x00 then s.ringCfg v
  else if o == 0x04 then
    if ringFits (v.toNat % 2 ^ 28) (s.getF R.STP_RING_CFG F.STP_RING_CFG_LOG2LEN) then s.setReg a (v &&& 0x0FFFF000) else s.badAcc
  else if o == 0x0C then s.setReg a (v &&& 0xFFFFF)
  else if o == 0x10 then if F.STP_SYS_EN_LEVEL.get v == 3 then s.badAcc else s.setReg a (v &&& 0x03FFFFFF)
  else if 0x100 ≤ o ∧ o < 0x160 ∧ o % 4 = 0 then s.postStore 12 ((o - 0x100) / 4) ⟨v, tagUint⟩
  else s

end Machine
end Sys2Proof
end

