-- ==== Sys2Proof/Machine/Dbg.lean ====
section
/-! DEFINITION. The Colbel monitor (R460 to R471): transports, sessions and authorisation, attaching and halting, breakpoints,
test outputs and trace configuration. -/

namespace Sys2Proof
namespace Machine

/-! Availability and transports. -/

def State.setDbg (s : State) (d : DbgSt) : State := { s with dbg := d }

/-- DBG_STAT.SESSIONS counts the open sessions. -/
def State.showSessions (s : State) : State :=
  s.setF R.DBG_STAT F.DBG_STAT_SESSIONS (s.dbg.sess.toList.filter (·.isSome)).length

/-- A message has arrived on transport t. -/
def State.arrived (s : State) (t : Fin 3) : State :=
  s.setDbg { s.dbg with inbox := s.dbg.inbox.set t (s.dbg.inbox.get t + 1) }

/-- MBX_GO with a length (R460). -/
def State.mbxGo (s : State) (v : Word) : State :=
  let len := v.toNat % 2048
  if s.bootStopped || len < 12 || 1920 < len || bit (s.reg (mbxBase + 4)) 31 then s
  else (s.setReg (mbxBase + 4) 0x80000000).arrived 0

/-- UDP_DATAGRAM of a length to the monitor's port. -/
def State.udpDatagram (s : State) (len : Nat) : State :=
  if s.bootStopped || !s.clockOn 5 || len < 12 || 1920 < len then s else s.arrived 1

/-- 100 ms have passed since the first segment of the message on controller c (R460). -/
def State.canLate (s : State) (c : Fin 2) : Bool := decide (s.dbg.segAt.get c + 150000000 ≤ s.clock)

/-- The LENGTH of a message that ends with segment i lies in that segment, and is one that a message has (R460). -/
def segEnds (len i : Nat) : Bool := decide (12 ≤ len) && decide (len ≤ 1920) && decide (63 * i < len) && decide (len ≤ 63 * (i + 1))

/-- CANFD_SEGMENT on controller c: out of order, or late, it discards the message, and so does a LENGTH that does not fit. A segment
from a module is none of this module's. -/
def State.canSegment (s : State) (c : Fin 2) (h : SegHead) (i : Nat) : State :=
  let want := if s.canLate c then 0 else (s.dbg.seg.get c).getD 0
  let drop := s.setDbg { s.dbg with seg := s.dbg.seg.set c none }
  if s.bootStopped || !s.fastRuns || h.dir then s
  else if (i != want && i != 0) || 30 < i then drop
  else if h.last then if segEnds h.length.toNat i then drop.arrived 2 else drop
  else s.setDbg { s.dbg with
    seg := s.dbg.seg.set c (some (i + 1)), segAt := if i == 0 then s.dbg.segAt.set c s.clock else s.dbg.segAt }

/-- CANFD_MESSAGE_TIMEOUT. -/
def State.canTimeout (s : State) (c : Fin 2) : State :=
  if s.canLate c then s.setDbg { s.dbg with seg := s.dbg.seg.set c none } else s

/-- The message on transport t has been taken; the mailbox shows DONE. -/
def State.taken (s : State) (t : Nat) : State :=
  let s1 := s.setDbg { s.dbg with inbox := s.dbg.inbox.setIfInBounds t ((s.dbg.inbox.toList[t]?.getD 0) - 1) }
  if t == 0 then s1.setReg (mbxBase + 4) 0x40000000 else s1

def State.waits (s : State) (t : Nat) : Bool := decide (0 < s.dbg.inbox.toList[t]?.getD 0)

/-! Sealed requests (R461, R464). -/

/-- The session answers, while the monitor serves, and stores the response where it is that of its last request (R274, R464). -/
def State.answer (s : State) (k : Nat) (seq : Nat) (r : Resp) : State :=
  match (s.dbg.sess.toList[k]?).join with
  | some x =>
    if !s.colbelAvail then s
    else
      let y := if x.last == some seq then { x with resp := some r } else x
      (s.setDbg { s.dbg with sess := s.dbg.sess.setIfInBounds k (some y) }).send x.tr tySealed (some k) (some seq)
        (.colbel x.tr k seq r)
  | none => s

/-- What a command does: the state, and its response unless that comes later. -/
structure Ran where
  st : State
  resp : Option Resp

def done (s : State) (code status : Nat) (data : List Cell) : Ran := ⟨s, some ⟨code, status, data⟩⟩

/-- A request is executed, and its response stored. -/
def State.execute (s : State) (q : ColbelReq) (x : Session) (run : State → Session → Ran) : State :=
  let s1 := s.taken q.tr
  let y := { x with tr := q.tr.val, last := some q.seq.toNat, resp := none, at_ := s.clock }
  let s2 := s1.setDbg { s1.dbg with sess := s1.dbg.sess.set q.sess (some y) }
  let r := run s2 y
  match r.resp with
  | some a => r.st.answer q.sess q.seq.toNat a
  | none => r.st

/-- A sealed request: taken from its transport; discarded, answered again, or executed. -/
def State.request (s : State) (q : ColbelReq) (run : State → Session → Ran) : State :=
  if !s.colbelAvail || !s.waits q.tr then s
  else match s.dbg.sess.get q.sess with
  | none => s.taken q.tr
  | some x =>
    let seq := q.seq.toNat
    if !q.tagOk then s.taken q.tr
    else if x.last == some seq then
      match x.resp with
      | some r =>
        let t := s.taken q.tr
        (t.setDbg { t.dbg with sess := t.dbg.sess.set q.sess (some { x with tr := q.tr.val, at_ := s.clock }) }).send q.tr tySealed
          (some q.sess.val) (some seq) (.colbel q.tr q.sess seq r)
      | none => s.taken q.tr
    else if (match x.last with | some l => decide (seq < l) | none => false) then s.taken q.tr
    else s.execute q x run

/-- R453 permits the authority. -/
def State.authAllowed (s : State) (want : Nat) : Bool :=
  match s.lc with
  | 4 => false
  | 2 => want == 2 || s.isSet R.SEC_POLICY F.SEC_POLICY_FIELD_DBG
  | _ => true

/-- A request that needs an authority: 1 DEBUG, 2 TEST, 3 either; DENIED without it, or while R453 does not permit it (R466). -/
def State.withAuth (s : State) (q : ColbelReq) (code need : Nat) (run : State → Session → Ran) : State :=
  s.request q (fun t x =>
    if (x.auth == need || (need == 3 && x.auth != 0)) && t.authAllowed x.auth then run t x else done t code 9 [])

/-! Halting (R444, R468, R469). -/

/-- The pair is at an instruction boundary outside a prefixed instruction, a delay slot and a shadow. -/
def State.atGroup (s : State) (p : Fin 13) : Bool :=
  let c := s.coreOf p
  c.pfx.isEmpty && c.slot.isNone && c.shadow.isNone

/-- And outside a locked sequence. -/
def State.atBoundary (s : State) (p : Fin 13) : Bool := s.atGroup p && (s.coreOf p).lock.isNone

/-- The result of HALT and STEP: the PC. -/
def State.pcCell (s : State) (p : Fin 13) : Cell := ⟨(s.coreOf p).r.pc.setWidth 32, tagCode⟩

/-- The pair of slice n halts, for a session: the watchdog freezes, and a HALT that waits is answered. -/
def State.dbgHalt (s : State) (n : Fin 12) (by_ : Option Nat) : State :=
  let p := pairOf n
  let s1 := (s.setCore p { s.coreOf p with dbgHalt := true, wfe := false }).wdgHalt p
  let s2 := s1.setDbg { s1.dbg with haltReq := s1.dbg.haltReq.set n none, haltBy := s1.dbg.haltBy.set n by_ }
  match s.dbg.haltReq.get n with
  | some (k, seq) => s2.answer k seq ⟨4, 0, [s2.pcCell p]⟩
  | none => s2

/-- HALT_TAKES_EFFECT: at the first allowed boundary, and after a recovery. -/
def State.haltEffect (s : State) (n : Fin 12) : State :=
  match s.dbg.haltReq.get n with
  | some (k, _) => if s.atBoundary (pairOf n) && s.slState n != slRecovering then s.dbgHalt n (some k) else s
  | none => s

/-- A STEP that cannot go on is answered REFUSED (log 123). -/
def State.stepStop (s : State) (n : Fin 12) : State :=
  match s.dbg.steps.get n with
  | some x => (s.setDbg { s.dbg with steps := s.dbg.steps.set n none }).answer x.sess x.seq ⟨6, 2, []⟩
  | none => s

/-- The pair of slice n resumes (R444). -/
def State.dbgResume (s : State) (n : Fin 12) : State :=
  let p := pairOf n
  if (s.coreOf p).dbgHalt then
    let s1 := s.stepStop n
    ((s1.setCore p { s1.coreOf p with dbgHalt := false }).setDbg { s1.dbg with
      skip := s1.dbg.skip.set n true, haltReq := s1.dbg.haltReq.set n none, wpHit := s1.dbg.wpHit.set n none,
      haltBy := s1.dbg.haltBy.set n none }).wdgResume p
  else s.setDbg { s.dbg with haltReq := s.dbg.haltReq.set n none }

/-- The attachment ends, and a HALT that waits with it; LOCKSTEP_BROKEN stays (R278). -/
def State.unattach (s : State) (n : Fin 12) : State :=
  let s1 := s.setDbg { s.dbg with haltReq := s.dbg.haltReq.set n none }
  let s2 := s1.setCore (pairOf n) { s1.coreOf (pairOf n) with attached := none }
  (s2.setCtl n { s2.ctlOf n with attachHeld := none }).setF (R.KC_LS_STAT n) F.KC_LS_STAT_ATTACH_HELD 0

/-- DETACH: the pair is resumed first (R466). -/
def State.detach (s : State) (n : Fin 12) : State := (s.dbgResume n).unattach n

def State.attachedTo (s : State) (n : Fin 12) (k : Fin 4) : Bool :=
  (s.coreOf (pairOf n)).attached == some k.val || (s.ctlOf n).attachHeld == some k.val

/-! Sessions. -/

/-- The number that k free words give, from a free index. -/
def freeNat (i k : Nat) : Nat := (List.range k).foldl (fun acc j => acc * 2 ^ 32 + (Config.freeWord (i + j)).toNat) 0

/-- HELLO (R462, R463). Nonce, ephemeral keys and signature of the module are free (log 214). -/
def State.helloMsg (s : State) (m : HelloMsg) : State :=
  let t := m.tr
  let error (c : Nat) : State := (s.taken t).send t tyError none none (.colbelError t c)
  if !s.waits t then s
  else if !s.isSet R.DEV_BOOT_STAT F.DEV_BOOT_STAT_DONE && !s.bootStopped then error 1
  else if !s.colbelAvail then s
  else if s.dbg.locked.get t then error 2
  else match (List.finRange 4).find? (fun (k : Fin 4) => (s.dbg.sess.get k).isNone) with
    | none => error 1
    | some k =>
      let s1 := s.taken t
      let i := s1.free
      let nonce := BitVec.ofNat 256 (freeNat i 8)
      let keys := Config.sessionKeys m.nonce m.key nonce (i + 24)
      let s2 := (s1.setDbg { s1.dbg with
        sess := s1.dbg.sess.set k (some ⟨t, 0, none, none, none, [], s.clock, keys⟩) }).showSessions
      { s2 with free := i + 41 }.send t tyHelloRsp (some k.val) none
        (.hello t k nonce (BitVec.ofNat 512 (freeNat (i + 8) 16)) Config.certificate (BitVec.ofNat 512 (freeNat (i + 25) 16)))

/-- Session k has halted the pair of slice n. -/
def State.haltedBy (s : State) (n : Fin 12) (k : Fin 4) : Bool :=
  (s.coreOf (pairOf n)).dbgHalt && s.dbg.haltBy.get n == some k.val

/-- Session k ends (R465). -/
def State.endSession (s : State) (k : Fin 4) : State :=
  match s.dbg.sess.get k with
  | none => s
  | some _ =>
    let s1 := (List.finRange 12).foldl (fun (t : State) (n : Fin 12) =>
      let t0 := if t.haltedBy n k then t.dbgResume n else t
      let t1 := if t0.attachedTo n k then t0.unattach n else t0
      let t2 := t1.setDbg { t1.dbg with
        bp := t1.dbg.bp.set n ((t1.dbg.bp.get n).map (fun (b : Option Bp) => b.filter (fun x => x.sess != k.val)))
        wp := t1.dbg.wp.set n ((t1.dbg.wp.get n).map (fun (b : Option Wp) => b.filter (fun x => x.sess != k.val))) }
      let t3 := if t2.dbg.outBy.get n == some k.val then
          ((t2.setReg (R.DBG_TESTOUT n) 0).setDbg { t2.dbg with outBy := t2.dbg.outBy.set n none }).pinsSlice n
        else t2
      if t3.getF (R.STP_CTRL n) F.STP_CTRL_DEST == 3 && t3.getF (R.STP_CTRL n) F.STP_CTRL_SESSION == k.val then
        t3.setF (R.STP_CTRL n) F.STP_CTRL_DEST 0
      else t3) (s.ptbSession k)
    (s1.setDbg { s1.dbg with sess := s1.dbg.sess.set k none }).showSessions

/-- Every session ends. -/
def State.endSessions (s : State) : State := (List.finRange 4).foldl (fun (t : State) k => t.endSession k) s

/-- SEC_WIPED: the wipe ends, and with it every session (R293, R465; log 46). -/
def State.secWiped (s : State) : State := if s.isSet R.MEM_STAT F.MEM_STAT_SEC_WIPING then s.wiped.endSessions else s

/-- CLOSE of session k, on transport t. -/
def State.closeMsg (s : State) (t : Fin 3) (k : Fin 4) : State :=
  if s.colbelAvail && s.waits t then (s.taken t).endSession k else s

/-- 10 s, in tCK. -/
def tenSeconds : Nat := 15000000000

/-- SESSION_TIMEOUT: 10 s have passed since the last valid request of session k (R465). -/
def State.sessionTimeout (s : State) (k : Fin 4) : State :=
  match s.dbg.sess.get k with
  | some x => if x.at_ + tenSeconds ≤ s.clock then s.endSession k else s
  | none => s

/-- AUTH: an authority is asked for; the challenge is the answer (R463). -/
def State.authMsg (s : State) (q : ColbelReq) (test : Bool) : State :=
  s.request q (fun t x =>
    let want := if test then 2 else 1
    let asks (y : Session) : Session := { y with asked := some want, auth := x.auth }
    let t1 := t.setDbg { t.dbg with sess := t.dbg.sess.set q.sess ((t.dbg.sess.get q.sess).map asks) }
    let free := (List.range 8).map (fun i => (⟨Config.freeWord (t1.free + i), tagRaw⟩ : Cell))
    done { t1 with free := t1.free + 8 } 0 0 free)

/-- AUTH_SIGNATURE: the signature verifies or not, and the slot whose digest is that of the key, if one holds it. -/
def State.authSign (s : State) (q : ColbelReq) (sig : Bool) (slot : Option (Fin 4)) : State :=
  s.request q (fun t x =>
    let want := x.asked.getD 0
    let w := t.getF R.SEC_KEYSTAT F.SEC_KEYSTAT_WRITTEN
    let r := t.getF R.SEC_KEYSTAT F.SEC_KEYSTAT_REVOKED
    let key := match slot with
      | some k => natBit w k && !natBit r k && bootKey t.lc k
      | none => false
    let upd (u : State) (f : Session → Session) : State := u.setDbg { u.dbg with
      sess := u.dbg.sess.set q.sess ((u.dbg.sess.get q.sess).map f) }
    if x.asked.isSome && sig && key && t.authAllowed want then
      let t1 := t.setDbg { t.dbg with refused := t.dbg.refused.set q.tr 0 }
      done (upd t1 (fun y => { y with auth := want, asked := none })) 0 0 []
    else
      let n := t.dbg.refused.get q.tr + 1
      let t1 := (t.setDbg { t.dbg with
        refused := t.dbg.refused.set q.tr (if n == 3 then 0 else n)
        locked := if n == 3 then t.dbg.locked.set q.tr true else t.dbg.locked
        lockAt := if n == 3 then t.dbg.lockAt.set q.tr t.clock else t.dbg.lockAt }).count R.DBG_AUTH_FAIL F.DBG_AUTH_FAIL_COUNT
      done (upd t1 (fun y => { y with asked := none })) 0 2 [])

/-- AUTH_LOCKOUT_END of a transport. -/
def State.lockoutEnd (s : State) (t : Fin 3) : State :=
  if s.dbg.lockAt.get t + tenSeconds ≤ s.clock then s.setDbg { s.dbg with locked := s.dbg.locked.set t false } else s

/-! Commands on pairs. A slice operand of 12 names the system pair. -/

/-- The common checks of a command on slice n: REFUSED for the system pair, ABSENT for an absent slice. -/
def State.onSlice (s : State) (code : Nat) (n : Fin 13) (run : Fin 12 → Ran) : Ran :=
  if h : n.val < 12 then if s.fitted n then run ⟨n.val, h⟩ else done s code 4 [] else done s code 2 []

/-- ATTACH (R278, R279): held while the slice is RECOVERING; refused of a slice that is OFF (log 39). -/
def State.attachMsg (s : State) (q : ColbelReq) (n : Fin 13) : State :=
  s.withAuth q 2 1 (fun t _ => t.onSlice 2 n (fun n =>
    let other := match (t.coreOf (pairOf n)).attached, (t.ctlOf n).attachHeld with
      | some k, _ => k != q.sess.val
      | none, some k => k != q.sess.val
      | none, none => false
    if other then done t 2 1 []
    else if t.slState n == slOff then done t 2 2 []
    else if t.slState n == slRecovering then
      done ((t.setCtl n { t.ctlOf n with attachHeld := some q.sess.val }).setF (R.KC_LS_STAT n) F.KC_LS_STAT_ATTACH_HELD 1) 2 0 []
    else done (t.attachNow (pairOf n) q.sess) 2 0 []))

def State.detachMsg (s : State) (q : ColbelReq) (n : Fin 13) : State :=
  s.withAuth q 3 1 (fun t _ => t.onSlice 3 n (fun n =>
    if t.attachedTo n q.sess then done (t.detach n) 3 0 [] else done t 3 2 []))

/-- HALT (R468): a pair in WFE halts at once, a pair halted already answers at once. -/
def State.haltMsg (s : State) (q : ColbelReq) (n : Fin 13) : State :=
  s.withAuth q 4 1 (fun t _ => t.onSlice 4 n (fun n =>
    let p := pairOf n
    let c := t.coreOf p
    if !t.attachedTo n q.sess then done t 4 2 []
    else if c.dbgHalt || c.halted then done t 4 0 [t.pcCell p]
    else
      let t1 := t.setDbg { t.dbg with haltReq := t.dbg.haltReq.set n (some (q.sess.val, q.seq.toNat)) }
      ⟨if c.wfe && t.slState n != slRecovering then t1.dbgHalt n (some q.sess.val) else t1, none⟩))

/-- RESUME: refused of the pair of a FENCED slice, and BUSY during a STEP (log 123). -/
def State.resumeMsg (s : State) (q : ColbelReq) (n : Fin 13) : State :=
  s.withAuth q 5 1 (fun t _ => t.onSlice 5 n (fun n =>
    if !(t.coreOf (pairOf n)).dbgHalt || (t.coreOf (pairOf n)).halted || t.slState n == slFenced then done t 5 2 []
    else if (t.dbg.steps.get n).isSome then done t 5 1 []
    else done (t.dbgResume n) 5 0 []))

/-! Breakpoints and watchpoints (R470). -/

def State.setBpMsg (s : State) (q : ColbelReq) (n : Fin 13) (i : Fin 4) (pc : BitVec 17) (sets : BitVec 8) (en : Bool) : State :=
  s.withAuth q 9 1 (fun t _ => t.onSlice 9 n (fun n =>
    let b : Option Bp := if en then some ⟨pc.toNat, sets.toNat, q.sess⟩ else none
    done (t.setDbg { t.dbg with bp := t.dbg.bp.set n ((t.dbg.bp.get n).set i b) }) 9 0 []))

/-- A watchpoint with neither direction is disabled. -/
def State.setWpMsg (s : State) (q : ColbelReq) (n : Fin 13) (i : Fin 2) (base : Word) (len : Nat) (rd wr : Bool)
    (value : Option Word) : State :=
  s.withAuth q 10 1 (fun t _ => t.onSlice 10 n (fun n =>
    if len < 4 || 65536 < len then done t 10 5 []
    else
      let w : Option Wp := if rd || wr then some ⟨base.toNat, len, rd, wr, value, q.sess⟩ else none
      done (t.setDbg { t.dbg with wp := t.dbg.wp.set n ((t.dbg.wp.get n).set i w) }) 10 0 []))

/-- A data access of `len` bytes at `a` is checked against the watchpoints. -/
def State.noteAccess (s : State) (n : Fin 12) (a len : Nat) (wr : Bool) (v : Word) : State :=
  let hit (x : Wp) : Bool := decide (a < x.base + x.len) && decide (x.base < a + len) && (if wr then x.wr else x.rd) &&
    (match x.value with | some y => y == v | none => true)
  match ((s.dbg.wp.get n).toList.filterMap id).find? hit with
  | some x => s.setDbg { s.dbg with wpHit := s.dbg.wpHit.set n (some x.sess) }
  | none => s

/-- The matches of an instruction that faults do not count: it has not retired. -/
def State.wpUndo (s was : State) : State := s.setDbg { s.dbg with wpHit := was.dbg.wpHit }

/-- WATCHPOINT_HIT: after the instruction, and after a delay slot; inside a locked sequence too (log 213). -/
def State.wpStop (s : State) (n : Fin 12) : State :=
  match s.dbg.wpHit.get n with
  | some k => if s.atGroup (pairOf n) then (s.setDbg { s.dbg with wpHit := s.dbg.wpHit.set n none }).dbgHalt n (some k) else s
  | none => s

/-! Test outputs, trace and the token. -/

/-- TEST_OUT (R471). -/
def State.testOutMsg (s : State) (q : ColbelReq) (n : Fin 13) (mask : BitVec 8) : State :=
  s.withAuth q 13 2 (fun t _ => t.onSlice 13 n (fun n =>
    if t.mode != mdService then done t 13 2 []
    else done (((t.setReg (R.DBG_TESTOUT n) (mask.setWidth 32)).setDbg { t.dbg with
      outBy := t.dbg.outBy.set n (some q.sess.val) }).pinsSlice n) 13 0 []))

/-- TRACE_CFG: the values of STP_CTRL and STP_EN (R475). -/
def State.traceCfgMsg (s : State) (q : ColbelReq) (n : Fin 13) (ctrl en : Word) : State :=
  s.withAuth q 14 3 (fun t _ => t.onSlice 14 n (fun n =>
    if !stpOk 0 ctrl then done t 14 2 []
    else done ((t.stpWrite n (R.STP_CTRL n) ctrl).stpWrite n (R.STP_EN n) en) 14 0 []))

/-- TOKEN: the RETURNED token; the nonce is renewed by each delivery (R454). -/
def State.tokenMsg (s : State) (q : ColbelReq) (valid : Bool) : State :=
  s.withAuth q 15 3 (fun t _ =>
    let t1 := ({ t with sec := { t.sec with token := t.sec.token || valid } }.setReg R.SEC_NONCE (Config.freeWord t.free)).fresh
    done t1 15 (if valid then 0 else 2) [])

def State.keepAliveMsg (s : State) (q : ColbelReq) : State := s.request q (fun t _ => done t 16 0 [])

end Machine
end Sys2Proof
end

