-- ==== Sys2Proof/Machine/Taps.lean ====
section
/-! DEFINITION. The taps of the event router (R313): SAR and CLE triggers, DMA WAITs and EVENT_WAIT descriptors. -/

namespace Sys2Proof
namespace Machine

/-- Converters with a hardware trigger from source `src` (R82). -/
def State.tapSar (s : State) (src : Nat) : State :=
  (List.finRange 12).foldl (fun (t : State) (n : Fin 12) =>
    (List.finRange 4).foldl (fun (u : State) (k : Fin 4) =>
      if u.getF (R.SAR_TRIG n k) F.SAR_TRIG_SRC == 3 && u.getF (R.SAR_TRIG n k) F.SAR_TRIG_EVR_SRC == src then
        u.sarTrig n k false 0
      else u) t) s

/-- Loops with TRIG = EVR from source `src` (R108). -/
def State.tapCle (s : State) (src : Nat) : State :=
  (List.finRange 12).foldl (fun (t : State) (n : Fin 12) =>
    (t.loopsWith n (fun kind arg => kind == 1 && arg == src)).foldl (fun (u : State) j => u.loopTrig n j) t) s

/-- EVENT_TAP: the oldest firing is offered to the taps. -/
def State.eventTap (s : State) : State :=
  match s.evr.taps with
  | [] => s
  | (src, at_, time) :: rest =>
    let s1 := { s with evr := { s.evr with taps := rest } }
    let own := pwmSource src
    (((s1.tapSar src).tapCle src).waitsEnd src at_ (fun e => own != some e)).descEvent src at_ time

end Machine
end Sys2Proof
end

