-- ==== Sys2Proof/Machine/Boot.lean ====
section
/-! DEFINITION. Start-up, mode changes, sleep and wake (chapters 02 and 25), and the completion of a FENCE. -/

namespace Sys2Proof
namespace Machine

/-! Loading from flash (R25, R422). Program words stand in halfwords, microcode words in 18 bytes (log 40). -/

/-- The halfword at index i from a flash address. -/
def State.flashHalf (s : State) (a i : Nat) : Nat := (s.flashRead (a + 2 * i)).toNat / 65536 ^ (i % 2) % 65536

/-- The section of a kind for slice n in a bank. -/
def State.sectionFor (s : State) (bank kind n : Nat) : Option Section :=
  (s.sections bank).find? (fun c => c.kind == kind && (c.slice == n || c.slice == 0xFF))

/-- A section is read once (R409). -/
def State.readSection (s : State) (bank : Nat) (c : Section) : State := s.readLines (arrBase bank + c.off) (arrBase bank + c.off + c.len)

/-- Program words of a section, as entries of pair p. -/
def State.progOf (s : State) (bank p : Nat) (c : Section) : List (Nat × PWord) :=
  let a := arrBase bank + c.off
  (List.range (min (progLen p) (c.len / 2))).filterMap (fun i =>
    let w : PWord := BitVec.ofNat 14 (s.flashHalf a i)
    if w = 0 then none else some (2 ^ 17 * p + i, w))

/-- Replace the program of pair p. -/
def putProg (p : Nat) (new m : List (Nat × PWord)) : List (Nat × PWord) :=
  m.filter (fun e => decide (e.1 / 2 ^ 17 < p)) ++ new ++ m.filter (fun e => decide (p < e.1 / 2 ^ 17))

/-- Load the program of pair p from a bank. The answer tells whether the image holds one. -/
def State.loadProgram (s : State) (bank : Nat) (p : Fin 13) : State × Bool :=
  match s.sectionFor bank (if p.val < 12 then 2 else 1) p with
  | none => (s, false)
  | some c =>
    let s1 := (s.clearProg p).readSection bank c
    ({ s1 with prog := putProg p (s1.progOf bank p c) s1.prog, img := s1.img.set p c.info }, true)

/-- Microcode words of a section from byte `skip`, `k` words placed from word `at_` of slice n. -/
def State.mcodeOf (s : State) (bank n : Nat) (c : Section) (skip k at_ : Nat) : List (Nat × MWord) :=
  let a := arrBase bank + c.off + skip
  (List.range k).filterMap (fun i =>
    let w : MWord := BitVec.ofNat 144 ((List.range 18).foldl (fun acc b => acc + s.flashByte a (18 * i + b) * 256 ^ b) 0)
    if w = 0 then none else some (4096 * n + at_ + i, w))

/-- Step 8 for slice n: the vendor partition from flash into store and copy; the customer partition cleared (R122, R138). -/
def State.loadMcode (s : State) (bank n : Nat) : State :=
  match s.sectionFor bank 3 n with
  | none => s
  | some c =>
    let ws := s.mcodeOf bank n c 4 (min 0x800 ((c.len - 136) / 18)) 0
    let ver := s.flashRead (arrBase bank + c.off)
    let s1 := { s.readSection bank c with
      mstore := putSlice n ws s.mstore, mcopy := putSlice n ws s.mcopy, mver := ver }.freshCopies
      (copyAddr n 0) (copyAddr n 0x1000)
    (s1.setReg (R.MCS_VER n) ver).showLs n

/-- The customer partition of slice n from its section, at step 10 or a fence (R421). -/
def State.loadCustomer (s : State) (bank n : Nat) : State :=
  match s.sectionFor bank 4 n with
  | none => s
  | some c =>
    if !s.part.full then s
    else
      let ws := s.mcodeOf bank n c 0 (min 0x800 (c.len / 18)) 0x800
      ({ s.readSection bank c with
                mstore := putSlice n (ofSlice n 0x800 s.mstore ++ ws) s.mstore
                mcopy := putSlice n (ofSlice n 0x800 s.mcopy ++ ws) s.mcopy }.freshCopies (copyAddr n 0x800)
        (copyAddr n 0x1000)).showLs n

/-! Completion of a FENCE (R50, R52). -/

/-- The units of the slice have come to rest: no commit under way, every DMA channel stopped. -/
def State.atRest (s : State) (n : Fin 12) : Bool :=
  (s.cleOf n).loops.all (fun (l : LoopSt) => match l.commit with | some r => !r.compared | none => true) &&
    (List.range 8).all (fun c => s.dmaState n c == 0 || s.dmaState n c == 5)

/-- At a FENCE the system pair loads the program and customer microcode of a pending bank (R421), once no operation holds the
bank's array (R411); a pair that has halted serves nobody (R274). -/
def State.takeBank (s : State) (n : Fin 12) : State :=
  let bank := s.getF R.FLC_BANK F.FLC_BANK_NEXT
  if s.isSet (R.SLC_STATE n) F.SLC_STATE_BANK_PENDING && !s.sysDown then
    if s.arrBusy bank then s.setCtl n { s.ctlOf n with bankWait := true }
    else
    let s := s.setCtl n { s.ctlOf n with bankWait := false }
    let (s1, ok) := s.loadProgram bank (pairOf n)
    let s2 := if ok then s1.setCtl n { s1.ctlOf n with image := true } else s1
    (s2.loadCustomer bank n).setF (R.SLC_STATE n) F.SLC_STATE_BANK_PENDING 0
  else s

/-- A reload that has waited for its array is made, while the slice stays FENCED (R411). -/
def State.bankTick (s : State) (n : Fin 12) : State :=
  if !(s.ctlOf n).bankWait then s
  else if s.slState n == slFenced then s.takeBank n
  else s.setCtl n { s.ctlOf n with bankWait := false }

/-- SLC_STATE reads FENCED; an injection run of a slice that leaves READY or RUNNING so ends (R192). -/
def State.nowFenced (s : State) (n : Fin 12) (cause : Nat) : State :=
  let c := s.ctlOf n
  let s1 := (((s.setCtl n { c with fencing := false }).slFault n (if c.fenceFault then 9 else cause)).dropRoutesTo n).setSl n slFenced
  let s2 := ((s1.injEnd n 3).takeBank n).pinsSlice n
  let s3 := s2.descDone (.fenced n) 0 0
  if c.fenceCause == 8 then s3.setOwner n 0x1F else s3

/-- FENCE_COMPLETE. From OFF every Gorge window of the slice is disabled (R50, R498). -/
def State.fenceEnd (s : State) (n : Fin 12) : State :=
  let c := s.ctlOf n
  if !c.fencing then s
  else if s.slState n == slOff then
    if s.mem.clearing.getLsbD n then s
    else
      let (s1, ok) := ((s.grgReset n).coreReset (pairOf n)).loadVendor n
      s1.nowFenced n (if ok && s1.storeOk n then c.fenceCause else 4)
  else if s.atRest n then s.nowFenced n c.fenceCause
  else s

/-! Mode changes (R35 to R37). -/

/-- Every function is disabled. -/
def State.allDisabled (s : State) : Bool := (List.range 16).all (fun f => !s.fnEn f)

/-- The condition of the transition to `to`: allowed, and the slices it wants disarmed; none where it is not listed (R35). -/
def State.modeCond (s : State) (goal : Nat) : Option (Bool × Bool) :=
  let m := s.mode
  let run := m == mdIsland || m == mdHosted || m == mdTwin
  if goal == mdStabled then if run || m == mdService then some (s.allDisabled, true) else none
  else if goal == mdService then
    if m == mdHil then some (true, false) else if run then some (true, true) else none
  else if goal == mdHil then if m == mdService then some (true, true) else none
  else if m == mdService then some (true, false)
  else if m == mdIsland && goal == mdHosted then some (true, false)
  else if m == mdHosted && goal == mdIsland then some (s.allDisabled, false)
  else if (m == mdIsland || m == mdHosted) && goal == mdTwin then
    some (s.getF R.TWN_STAT F.TWN_STAT_LANES == s.lanesFitted, false)
  else if m == mdTwin && goal != mdTwin then some (true, s.getF R.TWN_ROLE F.TWN_ROLE_STANDBY != 0)
  else none

/-- The status of a request: 0 accepted, else REQ_STATUS (R35, R36, R41). -/
def State.modeStatus (s : State) (v : Word) : Nat :=
  let goal := F.DEV_MODE_REQ_TARGET.get v
  if F.DEV_MODE_REQ_KEY.get v != 0x4D0D || decide (5 < goal) then 5
  else if s.isSet R.DEV_MODE F.DEV_MODE_CHANGING || s.mode == mdStart then 1
  else if goal == mdHil && !s.part.full then 4
  else match s.modeCond goal with
    | none => 2
    | some (ok, disarmed) => if !ok then 2 else if disarmed && !s.noneArmed then 3 else 0

/-- Every DMA channel stops after its outstanding writes. -/
def State.stopAllDma (s : State) : State :=
  (List.finRange 13).foldl (fun (t : State) (e : Fin 13) =>
    (List.finRange 16).foldl (fun (u : State) (c : Fin 16) => u.dmaStop e c false) t) s

/-- A write of DEV_MODE_REQ. -/
def State.modeRequest (s : State) (v : Word) : State :=
  match s.modeStatus v with
  | 0 =>
    let goal := F.DEV_MODE_REQ_TARGET.get v
    let s1 := { s with modeReq := some goal }.setF R.DEV_MODE F.DEV_MODE_CHANGING 1
    if goal == mdStabled then s1.disarmAll.stopAllDma
    else if goal == mdService || goal == mdHil then s1.disarmAll
    else s1
  | k => s.setF R.DEV_MODE F.DEV_MODE_REQ_STATUS k

/-- MODE, PREV, SEQ, REQ_STATUS and CHANGING change together. -/
def State.setMode (s : State) (m : Nat) : State :=
  let a := R.DEV_MODE
  let s1 := (s.setF a F.DEV_MODE_PREV s.mode).countWrap a F.DEV_MODE_SEQ
  { ((s1.setF a F.DEV_MODE_REQ_STATUS 0).setF a F.DEV_MODE_CHANGING 0).setF a F.DEV_MODE_MODE m with modeReq := none }

/-- Roles end with TWIN mode, and with them TWN_SYNC (R392, R407). -/
def State.leaveTwin (s : State) : State :=
  (({ s with twn := { s.twn with paired := false, queue := [], snapDue := [], statusDue := false } }.setReg R.TWN_ROLE 0).showSync).showHealth

/-- What a change from mode `m0` does to the units. -/
def State.modeEffects (s : State) (m0 : Nat) : State :=
  let s1 := (s.injMode.ptbMode)
  let s2 := (List.range 12).foldl (fun (t : State) n => t.setReg (R.DBG_TESTOUT n) 0) s1
  let s3 := if m0 == mdHil || s2.mode == mdHil then s2.hilClear (s2.mode == mdHil) else s2
  let s4 := if m0 == mdTwin then s3.leaveTwin else s3
  (if s4.mode == mdTwin then s4.pairUp else s4).pinsAll

/-- MODE_CHANGE_COMPLETE; source 2 fires (R37, R303). -/
def State.modeComplete (s : State) : State :=
  match s.modeReq with
  | some goal => if goal == mdStabled then s else ((s.setMode goal).modeEffects s.mode).fire 2
  | none => s

/-! STABLED (R438). -/

/-- Registers that STABLED keeps: those that only power-on reset restores, and the wake-enabled windows (R78). -/
def keptAsleep (a : Nat) : Bool :=
  (decide (0x01000000 ≤ a) && decide (a < 0x01010000) && a != R.DEV_ARM && a != R.DEV_DISARM && a != R.DEV_ARM_REJ) ||
  (decide (0x01050000 ≤ a) && decide (a < 0x01070000)) || (decide (0x010C0000 ≤ a) && decide (a < 0x010F0000)) ||
  (decide (0x01100000 ≤ a) && decide (a < 0x01110000)) || a == R.HIF_LINK_CFG ||
  (decide (0x100000000 ≤ a) && decide (a < 0x100100000) && decide (0x8100 ≤ a % 0x10000) && decide (a % 0x10000 < 0x8114))

/-- A window stays powered (R78). -/
def State.wakeWindow (s : State) (n i : Nat) : Bool := s.powered n && s.isSet (R.GRG_WCFG n i) F.GRG_WCFG_WAKE_EN

/-- The windows that stay powered show their states, which is no change of them (R78). -/
def State.keepWins (s : State) (kept : Nat → Nat → Bool) : State :=
  (List.finRange 12).foldl (fun (t : State) (n : Fin 12) => (List.finRange 12).foldl (fun (u : State) (i : Fin 12) =>
    if kept n i then ((u.setB (R.GRG_WSTAT n i) F.GRG_WSTAT_CFG_ERR (u.thrOverlap n i)).showWin n i).setReg (R.GRG_TRANS n i) 0
    else u) t) s

/-- A window that stays powered: it loses a comparator test, whose end is an entry into UNSETTLED (R69). -/
def State.sleepWin (s : State) (n i : Fin 12) : WinSt :=
  let w := s.win n i
  if s.testSel n i != 0 then { w with hiDone := false, loDone := false, settling := true, waking := false }
  else { w with waking := s.winLine n i }

/-- The fast domains lose their state; the retained blocks keep theirs (R292, R293, R438). -/
def State.sleep (s : State) : State :=
  let r := State.reset
  let ret := s.getF R.MEM_RET ⟨0, 4⟩
  let keepCell (a : Nat) : Bool := inSecure a || (inPlain a && natBit ret ((a - 0x0E000000) / 0x200000))
  let win (a : Nat) : Bool := (List.range 12).any (fun n => (List.range 12).any (fun i =>
    s.wakeWindow n i && (a == R.GRG_IN n i || a == R.GRG_THR n i || a == R.GRG_WCFG n i)))
  let grg : Vector (Vector WinSt 12) 12 := Vector.ofFn (fun (n : Fin 12) => Vector.ofFn (fun (i : Fin 12) =>
    if s.wakeWindow n i then s.sleepWin n i else resetWin))
  let keep3 := natBit ret 3
  let t := s.flashCut
  let base : State := { r with
    part := s.part, clock := s.clock, free := s.free, outs := s.outs, pending := s.pending, cap := s.capLevels
    regs := s.regs.filter (fun e => keptAsleep e.1 || win e.1)
    cells := s.cells.filter (fun e => keepCell e.1)
    mcopy := if keep3 then s.mcopy else [], copyBad := if keep3 then s.copyBad else []
    copyLost := if keep3 then s.copyLost else List.range 12, copySet := if keep3 then s.copySet else []
    mem := { r.mem with ecc := s.mem.ecc.filter (fun e => keepCell e.1) }
    sysDown := s.sysDown, grg := grg, flc := t.flc, sec := { s.sec with event := false }, pwr := s.pwr
    ctl := r.ctl.mapFinIdx (fun i c _ => { c with tripPin := (s.ctl.toList[i]?.getD resetCtl).tripPin }) }
  let t1 := (List.range 12).foldl (fun (u : State) n => u.setF (R.SLC_STATE n) F.SLC_STATE_BANK_PENDING
    (s.getF (R.SLC_STATE n) F.SLC_STATE_BANK_PENDING)) base
  t1.setClearing 0

/-- STABLED_ENTRY_COMPLETE. -/
def State.stabledEntry (s : State) : State :=
  if s.modeReq == some mdStabled then ((s.endSessions.sleep.setMode mdStabled).keepWins s.wakeWindow).dropClocks else s

/-! Start-up (R21 to R29). -/

/-- Start-up stops at a step with a code (R28). -/
def State.bootStop (s : State) (step code : Nat) : State :=
  let a := R.DEV_BOOT_STAT
  (((s.setF a F.DEV_BOOT_STAT_STEP step).setF a F.DEV_BOOT_STAT_FAIL_STEP step).setF a F.DEV_BOOT_STAT_FAIL_CODE code).setF
    R.DEV_MODE F.DEV_MODE_MODE mdService

/-- Steps 1 and 2. A cold start without loss of power finds the rails good, and the supply as it stands (R430, R448). -/
def State.stepPower (s : State) (t : BootTests) : State :=
  let p := R.PWR_STAT
  let s0 := if s.pwr.rails then s else
    { ((s.setVin t.vin).setF p F.PWR_STAT_INPUT_OK 1).showOv t.vin with pwr := { s.pwr with rails := true } }
  let s1 := (s0.setF R.PWR_HOLDUP F.PWR_HOLDUP_EST t.holdup.toNat).setB p F.PWR_STAT_DEGRADED (decide (t.holdup.toNat < 100))
  (s1.setF R.DEV_BOOT_STAT F.DEV_BOOT_STAT_STRAP t.strap).setF R.DEV_BOOT_STAT F.DEV_BOOT_STAT_STEP 2

/-- Step 3: clocks. -/
def State.stepClocks (s : State) : State :=
  s.setF R.PWR_CLK F.PWR_CLK_CLOCKS (s.getF R.PWR_CLK F.PWR_CLK_CLOCKS ||| 0x13)

/-- Erasures and revocations that a life-cycle transition has left to step 4 (R454). -/
def State.lcErase (s : State) : State :=
  let wipe (u : State) (arr b : Nat) : State := (u.eraseBegin arr b).eraseFinish arr b ⟨true, 80⟩
  let blocks := (List.range 3).flatMap (fun arr => (List.range 256).map (fun b => (arr, b)))
  let due (e : Nat × Nat) : Bool :=
    if s.sec.due == 4 then true
    else s.sec.due == 3 && ((e.1 == 2 && decide (e.2 < 2)) ||
      (List.range 8).any (fun r => s.isSet (R.FLC_REGION r) F.FLC_REGION_PROT && s.inRegion r e.1 e.2))
  let s1 := blocks.foldl (fun (u : State) e => if due e then wipe u e.1 e.2 else u) s
  let s2 := if s.sec.due == 3 then s1.setF R.SEC_KEYSTAT F.SEC_KEYSTAT_REVOKED (s1.getF R.SEC_KEYSTAT F.SEC_KEYSTAT_REVOKED ||| 0xE)
    else s1
  { s2 with sec := { s2.sec with due := 0 } }

/-- What step 4 chooses: mode, source code, OVR_IGNORED (R23, R24). `slept`: the first wake after a STABLED strap. -/
def chooseMode (strap : Nat) (r : Option ConfRec) (slept : Bool) : Nat × Nat × Bool :=
  let accepted (m : Nat) : Bool := m == mdService || m == mdIsland || m == mdHosted || m == mdTwin
  let base := if slept then mdIsland else strap
  if !slept && (strap == mdService || decide (4 < strap)) then (mdService, if strap == mdService then 0 else 2, false)
  else match r with
    | some c =>
      if c.ovrValid then if accepted c.ovrMode then (c.ovrMode, 1, false) else (base, 0, true)
      else (base, 0, false)
    | none => (base, 0, false)

/-- Step 4: flash checks, the configuration record, the mode. The answer is the mode and the record. -/
def State.stepFlash (s : State) (e : EraseEnd) (slept : Bool) : State × Nat × Option ConfRec :=
  let s1 := (((s.lcErase).rewriteEnd e).markIncomplete).readLines 0x01800000 0x01804000
  let r := s1.confRec
  let (m, src, ign) := chooseMode (s1.getF R.DEV_BOOT_STAT F.DEV_BOOT_STAT_STRAP) r slept
  let s2 := (s1.setF R.DEV_BOOT_STAT F.DEV_BOOT_STAT_SRC src).setB R.DEV_BOOT_STAT F.DEV_BOOT_STAT_OVR_IGNORED ign
  let s3 := (s2.setReg R.SEC_NONCE (Config.freeWord s2.free)).fresh
  (s3.setB R.HIF_LINK_CFG F.HIF_LINK_CFG_REFMODE (match r with | some c => c.refmode | none => false), m, r)

/-- Step 5: secure boot. The answer is the bank whose image runs. -/
def State.stepImages (s : State) : State × Option Nat :=
  let first := s.getF R.FLC_BANK F.FLC_BANK_NEXT
  let s0 := (s.setF R.SEC_BOOT F.SEC_BOOT_FAIL 0).setF R.SEC_BOOT F.SEC_BOOT_BANKS_OK 0
  let (s1, ok1) := s0.imageCheck first
  let (s2, bank) := if ok1 then (s1, some first) else
    let (u, ok2) := s1.imageCheck (1 - first)
    (u, if ok2 then some (1 - first) else none)
  match bank with
  | none => (s2, none)
  | some b =>
    let s3 := ((s2.setF R.SEC_BOOT F.SEC_BOOT_BANKS_OK (2 ^ b)).setF R.SEC_BOOT F.SEC_BOOT_SLOT
      (s2.imgWord b (s2.imgWord b 4 / 4))).setF R.DEV_BOOT_STAT F.DEV_BOOT_STAT_IMAGE_BANK b
    let s4 := (s3.setF R.FLC_BANK F.FLC_BANK_ACTIVE b).setB R.FLC_BANK F.FLC_BANK_PEND (b != first)
    ({ s4 with sec := { s4.sec with version := BitVec.ofNat 32 (s4.imgWord b 2) } }, some b)

/-- Step 6: main memory is cleared under its page map; a channel that has gone down stays down over a wake (R300, R301). The on-chip
memories that lost their power were lost with it (`sleep`); a cold start clears them all (`clearOnChip`, R294). -/
def State.stepMemories (s : State) : State :=
  let up (c : Nat) : Nat := if s.chFitted c && !s.chDown c then 2 ^ c else 0
  (s.setF R.MMC_STAT F.MMC_STAT_CH_UP (up 0 + up 1)).clearMain

/-- A failure confined to slice n (R27): FENCED, with its first cause. -/
def State.sliceFail (s : State) (n : Fin 12) (bad : Bool) (cause : Nat) : State :=
  if bad && s.fitted n && s.slState n == slOff then (s.slFault n cause).setSl n slFenced else s

/-- A step over the fitted slices. -/
def State.eachFitted (s : State) (g : State → Fin 12 → State) : State :=
  (List.finRange 12).foldl (fun (t : State) (n : Fin 12) => if t.fitted n then g t n else t) s

/-- The preserving runs of step 6 under START_MARCH, in the order of their bounds: the slices, then Plain (R296, R297,
log 163). -/
def State.stepMarch (s : State) (t : BootTests) : State :=
  (s.eachFitted (fun u n => (u.bootMarch n (t.sliceMarch.get n)).sliceFail n ((t.sliceMarch.get n).fails != 0) 7)).bootMarch
    marchPlain t.sysMarch

/-- Step 7 for the slices, steps 8 and 9; at a wake the self-calibration of step 10 stands for step 9 (R39, R92). -/
def State.stepSlices (s : State) (t : BootTests) (bank : Nat) : State :=
  let s1 := s.eachFitted (fun u n => (u.noteInj n (t.sliceInj.get n)).sliceFail n (!(t.sliceInj.get n).pass) 3)
  let s2 := s1.eachFitted (fun u n => (u.loadMcode bank n).sliceFail n (!(u.loadMcode bank n).storeOk n) 4)
  s2.eachFitted (fun u n => u.sliceFail n (!t.selftest.getLsbD n) 2)

/-- What the configuration record gives Passway and the twin link (log 42). -/
def State.applyRecord (s : State) (r : Option ConfRec) : State :=
  match r with
  | none => s
  | some c =>
    let id := c.pwyId % 16384
    let s1 := s.setReg R.PWY_ID (BitVec.ofNat 32 (id % 32 + 256 * (id / 256 % 64) + 65536 * (id / 256 % 64 * 32 + id % 32)))
    (s1.setF R.PWY_CFG F.PWY_CFG_TM_PRIO c.prio).setB R.TWN_CFG F.TWN_CFG_SIDE c.side

/-- Step 10 for slice n: a configured slice runs in ISLAND, and is READY otherwise. -/
def State.startSlice (s : State) (bank m : Nat) (n : Fin 12) : State :=
  if s.slState n != slOff then s
  else match s.loadProgram bank (pairOf n) with
    | (_, false) => s
    | (s1, true) =>
      let isl := m == mdIsland
      let s2 := ((s1.loadCustomer bank n).coreReset (pairOf n)).releasePair (pairOf n)
      (s2.setCtl n { s2.ctlOf n with image := true, unmasked := isl }).setSl n (if isl then slRunning else slReady)

/-- Step 10: mode entry; a system pair that has halted stays so over a wake (R274). -/
def State.stepEnter (s : State) (bank m : Nat) (r : Option ConfRec) : State :=
  let b := R.DEV_BOOT_STAT
  let s0 := (s.loadProgram bank 12).1.coreReset 12
  let s1 := if s.sysDown then s0 else s0.releasePair 12
  let s2 := ((s1.applyRecord r).eachFitted (fun u n => u.tripSample n)).eachFitted (fun u n => u.startSlice bank m n)
  let s3 := ((s2.setMode m).setF b F.DEV_BOOT_STAT_STEP 10).setF b F.DEV_BOOT_STAT_DONE 1
  let s4 := (s3.setB R.DBG_STAT F.DBG_STAT_AVAIL (!s.sysDown)).fire 0
  let s5 := if m == mdTwin then s4.pairUp else s4
  let arm := match r with | some c => c.autoArm | none => 0
  let s6 := s5.eachFitted (fun u n => if u.slState n == slOff then u.showWins n else u)
  ((List.finRange 12).foldl (fun (u : State) (n : Fin 12) => if natBit arm n then u.armReq n else u) s6).pinsAll

/-- Steps 3 to 10 of a cold start. -/
def State.coldSteps (s : State) (t : BootTests) (slept : Bool) : State :=
  let (s1, m, r) := s.stepClocks.stepFlash t.rewrite slept
  match s1.stepImages with
  | (s2, none) => s2.bootStop 5 1
  | (s2, some bank) =>
    let march := match r with | some c => c.startMarch | none => false
    let s2a := s2.clearOnChip.stepMemories
    let s3 := if march then s2a.stepMarch t else s2a
    if march && t.sysMarch.fails != 0 then s3.bootStop 6 3
    else
      let s4 := s3.noteInj 12 t.sysInj
      if !t.sysInj.pass then s4.bootStop 7 2 else (s4.stepSlices t bank).stepEnter bank m r

/-- COLD_START (R25): the ten steps, at power good (R427) or with the rails good; with the strap at STABLED the module sleeps after step 2 (R24). -/
def State.coldStart (s : State) (t : BootTests) : State :=
  if s.mode != mdStart || s.modeReq.isSome || (!s.pwr.rails && decide (t.vin.toNat ≤ 2500)) then s
  else
    let s1 := s.stepPower t
    if t.strap.val == mdStabled then s1.setMode mdStabled else s1.coldSteps t false

/-- LOADER_RESTART (R424). -/
def State.loaderRestart (s : State) (can : Bool) (t : BootTests) : State :=
  if !s.bootStopped then s
  else if s.retired then s.emit (.loader can 4 2 0)
  else ((s.emit (.loader can 4 0 0)).powerOn true).coldStart t

/-! Wake (R39, R40, R440). -/

/-- The wake steps 3, 6, 7, 8 and 10 into the mode held before. -/
def State.warmSteps (s : State) (t : BootTests) : State :=
  let b := R.DEV_BOOT_STAT
  let m := s.getF R.DEV_MODE F.DEV_MODE_PREV
  let bank := s.getF b F.DEV_BOOT_STAT_IMAGE_BANK
  let s1 := ((s.setF b F.DEV_BOOT_STAT_WARM 1).setF b F.DEV_BOOT_STAT_DONE 0).stepClocks.stepMemories.noteInj 12 t.sysInj
  if !t.sysInj.pass then s1.bootStop 7 2 else (s1.stepSlices t bank).stepEnter bank m s1.confRec

/-- What source k of AON_WAKE_EN fires on can be (R439): GORGE on the rising line of a wake-enabled window (R70, R78), GPIOg
where an edge is selected in AON_GPIO, TIMER on AON_RTC_SEC reaching a non-zero AON_ALARM. -/
def State.wakeFires (s : State) (k : Nat) : Bool :=
  if k == 4 then s.gorgeWakes
  else if 5 ≤ k ∧ k < 9 then (s.reg R.AON_GPIO).toNat / 2 ^ (8 * (k - 5) + 6) % 4 != 0
  else if k == 9 then s.reg R.AON_ALARM != 0 && s.reg R.AON_RTC_SEC == s.reg R.AON_ALARM
  else true

/-- WAKE: source k of AON_WAKE_EN fires; `also`: the others that fire before the fast domains run (R439). While STABLED is being
entered the entry is abandoned. An overvoltage seen in STABLED leaves the wake warm (log 152). -/
def State.wake (s : State) (k : Fin 10) (also : BitVec 10) (t : BootTests) : State :=
  let a := R.DEV_MODE
  let en := s.getF R.AON_WAKE_EN F.AON_WAKE_EN_SRC
  if !natBit en k || !s.wakeFires k then s
  else if s.modeReq == some mdStabled then
    { (s.setF a F.DEV_MODE_REQ_STATUS 6).setF a F.DEV_MODE_CHANGING 0 with modeReq := none }
  else if s.mode != mdStabled then s
  else
    let more := (List.range 10).foldl (fun acc i =>
      if natBit en i && also.getLsbD i && s.wakeFires i then acc ||| 2 ^ i else acc) (2 ^ k.val)
    let s1 := s.setF R.AON_WAKE_STAT F.AON_WAKE_STAT_SRC (s.getF R.AON_WAKE_STAT F.AON_WAKE_STAT_SRC ||| more)
    if !s1.isSet R.DEV_BOOT_STAT F.DEV_BOOT_STAT_DONE then s1.coldSteps t true
    else if s1.sec.event then (s1.powerOn true).coldStart t
    else s1.warmSteps t

end Machine
end Sys2Proof
end

