-- ==== Sys2Proof/Machine/Bus.lean ====
section
/-! DEFINITION. The register bus: which master reaches which register (R8, R14, R43, R45, R252, R319, R338, R339, R459, R467),
what a write does in its unit, and what a read returns. -/

namespace Sys2Proof
namespace Machine

/-! DMA channel registers (R325). -/

def State.dmaReject (s : State) (e : Nat) : State := s.count (R.DMA_CFG_REJ e) F.DMA_CFG_REJ_COUNT

/-- A channel may start: IDLE or in ERROR, and its slice READY or RUNNING. -/
def State.dmaMayStart (s : State) (e : Fin 13) (c : Nat) : Bool :=
  let st := s.dmaState e c
  (st == 0 || st == 5) &&
    (if h : e.val < 12 then
      let n : Fin 12 := ⟨e.val, h⟩
      (s.slState n == slReady || s.slState n == slRunning) && !(s.ctlOf n).fencing
    else true)

/-- The channel starts its program. -/
def State.dmaStart (s : State) (e : Fin 13) (c : Fin 16) : State :=
  let a := R.DMA_STAT e c
  let s1 := (((s.setF a F.DMA_STAT_ERR 0).setF a F.DMA_STAT_STOP_CAUSE 0).setF a F.DMA_STAT_DEPTH 0).setReg (R.DMA_PC e c)
    (s.reg (R.DMA_PROG e c))
  (s1.setDmaState e c 1).setDma e c resetDma

/-- A write of DMA_CTRL: HALT wins over START. -/
def State.dmaCtrl (s : State) (e : Fin 13) (c : Fin 16) (v : Word) : State :=
  if F.DMA_CTRL_HALT.get v == 1 then s.dmaStop e c true
  else if F.DMA_CTRL_START.get v == 1 then if s.dmaMayStart e c then s.dmaStart e c else s.dmaReject e
  else s

/-- Channels of engine e. -/
def dmaChannels (e : Nat) : Nat := if e < 12 then 8 else 16

/-- Any write of the DMA block of engine e. -/
def State.dmaWrite (s : State) (e : Fin 13) (a : Nat) (v : Word) : State :=
  let o := a - dmaBase e
  let k := (o - 0x100) / 0x40
  if h : k < 16 then
    if o < 0x100 || dmaChannels e ≤ k then s
    else match (o - 0x100) % 0x40 with
      | 0x00 => s.dmaCtrl e ⟨k, h⟩ v
      | 0x04 =>
        let closed := decide (e.val < 12) && s.slState e != slFenced
        if closed || v.toNat % 4 != 0 then s.dmaReject e else s.setReg a v
      | 0x08 => s.setReg a (s.reg a &&& ~~~ (v &&& 0xE0000000))
      | _ => s
  else s

/-! Registers of a pair (R252). -/

/-- KC registers that R252 protects. -/
def kcProtected (o : Nat) : Bool :=
  o == 0x100 || o == 0x104 || (decide (0x120 ≤ o) && decide (o < 0x180))

/-- A write of a KC register by one who may; other bits keep their values. KC_VEC.BASE is a multiple of 4: another value raises
PERM in a pair (State.pairBars) and changes nothing in a session (log 220). -/
def State.kcWrite (s : State) (a o : Nat) (v : Word) : State :=
  if o == 0x100 then (if v.toNat % 4 == 0 then s.setReg a (v &&& 0x0071FFFC) else s)
  else if o == 0x104 then s.setReg a ((s.reg a &&& ~~~ 0x00000700) ||| (v &&& 0x00000700))
  else if 0x120 ≤ o ∧ o < 0x140 then s.setReg a (v &&& 0xFF)
  else if 0x140 ≤ o ∧ o < 0x160 then s.setReg a (v &&& 0xFFF1FFFF)
  else if 0x160 ≤ o ∧ o < 0x180 then s.setReg a v
  else if o == 0x000 then s.setReg a (s.reg a &&& ~~~ (v &&& 0x80000000))
  else if o == 0x108 then s.setReg a (s.reg a &&& ~~~ (v &&& 0x80000000))
  else s

/-! Units. -/

/-- A register with no rule of its own: RW, W1C and W1S bits (R9). -/
def State.plainWrite (s : State) (a : Nat) (v : Word) : State :=
  match rowAt a with
  | some d => s.setReg a ((((s.reg a &&& ~~~ d.rw) ||| (v &&& d.rw)) &&& ~~~ (v &&& d.w1c)) ||| (v &&& d.w1s))
  | none => s

/-- The DEV block (R33, R35, R46): a disarm wins over an arm. -/
def State.devWrite (s : State) (m : Master) (a : Nat) (v : Word) : State :=
  let o := a - 0x01000000
  if o == 0x0C then s.modeRequest v
  else if o == 0x10 then
    (List.finRange 12).foldl (fun (t : State) (n : Fin 12) => if v.getLsbD n then t.armReq n else t) s
  else if o == 0x14 then
    (List.finRange 12).foldl (fun (t : State) (n : Fin 12) => if v.getLsbD n then t.disarm n else t) s
  else if h : 0x40 ≤ o ∧ o < 0x70 ∧ o % 4 = 0 then s.assign m ⟨(o - 0x40) / 4, by omega⟩ v
  else s

/-- The SLC block of slice n. -/
def State.slcWrite (s : State) (m : Master) (n : Fin 12) (o a : Nat) (v : Word) : State :=
  if o == 0x0C then s.slcCmd m n v
  else if o == 0x14 then if bit v 1 then s.disarm n else if bit v 0 then s.armReq n else s
  else if o == 0x18 then s.setReg a (s.reg a &&& ~~~ (v &&& 0x80000000))
  else if o == 0x20 then s.slcTrip n v
  else if h : 0x100 ≤ o ∧ o < 0x110 ∧ o % 4 = 0 then s.tripinWrite n ⟨(o - 0x100) / 4, by omega⟩ v
  else if h : 0x140 ≤ o ∧ o < 0x180 ∧ o % 16 = 0 then s.capcfgWrite n ⟨(o - 0x140) / 16, by omega⟩ v
  else if o == 0x180 then s.encWrite n v
  else s.plainWrite a v

/-- A write in the unit registers of slice n at offset o of its block. -/
def State.sliceWrite (s : State) (x : Access) (n : Fin 12) (o a : Nat) (v : Word) : State :=
  if o < 0x1000 then s.slcWrite x.m n o a v
  else if h : 0x1000 ≤ o ∧ o < 0x1800 then s.pwmWrite n ⟨(o - 0x1000) / 0x100, by omega⟩ a v
  else if o < 0x2000 then s
  else if o < 0x3000 then s.sarWrite n a v
  else if o < 0x4000 then s.grgWrite n a v
  else if o < 0x4C00 then s.cleWrite n a v
  else if o < 0x5000 then s.mcsWrite n a v
  else if o < 0x8000 then s
  else if o < 0x9000 then s.dmaWrite n.castSucc a v
  else if o < 0xA000 then s.evrLocalWrite x.m n a v
  else if o < 0xB000 then s.kcWrite a (o - 0xA000) v
  else if o < 0xC000 then s.injWrite x n a v
  else if o < 0xD000 then s.ptbWrite x n.castSucc a v
  else if o < 0xE000 then s.wdgWrite x.m n.castSucc a v
  else if o < 0xF000 then s.stpWrite n a v
  else s

/-- A write in the device-wide registers. -/
def State.deviceWrite (s : State) (x : Access) (a : Nat) (v : Word) : State :=
  match (a - 0x01000000) / 0x10000 with
  | 0x0 => s.devWrite x.m a v
  | 0x4 => s.madWrite a v
  | 0x5 => s.memWrite a v
  | 0x6 => s.mmcWrite a v
  | 0x7 => s.evrDevWrite x.m a v
  | 0x8 => s.dmaWrite 12 a v
  | 0x9 => s.hifWrite a v
  | 0xA => (s.lockedNow (s.pwyWrite a v)).dropClocks
  | 0xB => (s.twnWrite a v).dropClocks
  | 0xC => s.flcWrite a v
  | 0xD => s.pwrWrite a v
  | 0xE => s.aonWrite a v
  | 0xF => s.wdgWrite x.m 12 a v
  | 0x10 => s.secWrite x a v
  | 0x11 => s.stpDevWrite a v
  | 0x13 => s.ptbWrite x 12 a v
  | _ => s

/-! Reach. -/

/-- Registers of another's slice that PF0 and the system pair reach: SLC_ID, SLC_STATE and SLC_FAULT, and by writes SLC_CMD
and SLC_TRIP (R45, R176, R338). A command other than FENCE completes with NOT_OWNER there (R54). -/
def overseen (o : Nat) (wr : Bool) : Bool :=
  if wr then o == 0x0C || o == 0x20 else o == 0x00 || o == 0x04 || o == 0x18

/-- What a TEST session writes (R467): the INJ and PTB blocks and GRG_TEST. -/
def testWritable (a : Nat) : Bool :=
  let o := (a - 0x02000000) % 0x100000
  (decide (0x02000000 ≤ a) && decide (a < 0x02C00000) &&
    ((decide (0xB000 ≤ o) && decide (o < 0xD000)) || (decide (0x3100 ≤ o) && decide (o < 0x3280) && (o - 0x3100) % 0x20 == 0x0C))) ||
  (decide (0x01130000 ≤ a) && decide (a < 0x01140000))

/-- The master reaches the register at an address of the device-wide range. -/
def reachDevice (x : Access) (a : Nat) (wr : Bool) : Bool :=
  match x.m with
  | .sys => true
  | .fn f => f.val == 0
  | .core _ => !wr && decide (a < 0x01010000)
  | .dma e => e.val == 12
  | .mon => !wr || x.warden || testWritable a

/-- The master reaches offset o of the block of slice n, which is present. -/
def State.reachSlice (s : State) (x : Access) (n a o : Nat) (wr : Bool) : Bool :=
  match x.m with
  | .mon => !wr || x.warden || testWritable a
  | .core k => k.val == n
  | .dma e => e.val == n || e.val == 12
  | .sys => s.owner n == 0x1F || overseen o wr
  | .fn f => s.owner n == f.val || (f.val == 0 && overseen o wr)

/-- Base of the model's keys of MSI-X tables, 0x1000 for each function (log 12). -/
def msixBase : Nat := 0x100300000

/-- The master reaches a register address. -/
def State.reach (s : State) (x : Access) (a : Nat) (wr : Bool) : Bool :=
  if 0x01000000 ≤ a ∧ a < 0x01800000 then reachDevice x a wr
  else if 0x02000000 ≤ a ∧ a < 0x02C00000 then
    s.absentSlice a || s.reachSlice x ((a - 0x02000000) / 0x100000) a ((a - 0x02000000) % 0x100000) wr
  else if 0x100000000 ≤ a ∧ a < 0x100100000 then
    match x.m with
    | .fn f =>
      let own := f.val == (a - 0x100000000) / 0x10000
      if a % 0x10000 < 0x8000 then own && decide (a % 0x10000 < 0x1000) else f.val == 0 || own
    | _ => false
  else if mbxBase ≤ a ∧ a < mbxBase + 0x1000 then x.m == .fn 0
  else if msixBase ≤ a ∧ a < msixBase + 0x10000 then
    match x.m with | .fn f => f.val == (a - msixBase) / 0x1000 | _ => false
  else if sysKcBase ≤ a ∧ a < sysKcBase + 0x1000 then x.m == .sys || x.m == .mon
  else if progBase ≤ a ∧ a < progBase + 0x600000 then wr && s.ownerIs ((a - progBase) / 0x80000) x.m
  else false

/-! Writes. -/

/-- A write of the MSI-X table: the mask bit of a vector's control word (R343). -/
def State.msixTableWrite (s : State) (f : Fin 16) (o : Nat) (v : Word) : State :=
  if o % 16 == 12 && decide (o < 0x800) then
    let k := o / 16
    let x := s.fnOf f
    if bit v 0 then s.setFn f { x with vopen := x.vopen.filter (· != k) }
    else if x.vopen.contains k then s
    else (s.setFn f { x with vopen := k :: x.vopen }).msixUnmask f
  else if o < 0x800 then s.setReg (msixBase + 0x1000 * f.val + o) v
  else s

/-- The pair whose KC block holds an address. -/
def kcPair (a : Nat) : Option Nat :=
  if 0x02000000 ≤ a ∧ a < 0x02C00000 then
    if 0xA000 ≤ (a - 0x02000000) % 0x100000 ∧ (a - 0x02000000) % 0x100000 < 0xB000 then some ((a - 0x02000000) / 0x100000) else none
  else if sysKcBase ≤ a ∧ a < sysKcBase + 0x1000 then some 12
  else none

/-- A write of a register of R252 that its master may not make. A core of the pair writes it through WARDEN, the monitor in a
DEBUG session; host, descriptor and DMA writes, and those of another pair, are discarded. -/
def kcBars (x : Access) (a : Nat) : Bool :=
  match kcPair a with
  | none => false
  | some p =>
    let own := match x.m with
      | .mon => true
      | .core n => n.val == p
      | .sys => p == 12
      | _ => false
    kcProtected (a % 0x1000) && !(own && x.warden)

/-- The owner's write of a program word, in FENCED only: program memory then holds a loaded image (R54); another is refused (R55). -/
def State.progWrite (s : State) (n : Fin 12) (w : Nat) (v : Word) : State :=
  if !s.fitted n then s
  else if s.slState n != slFenced then s
  else
    let t := s.setProgWord n w (v.setWidth 14)
    t.setCtl n { t.ctlOf n with image := true }

/-- The core pair that a master is. -/
def pairBy : Master → Option (Fin 13)
  | .core n => some n.castSucc
  | .sys => some 12
  | _ => none

/-- The effect of a write that reaches its register; it breaks the reservation of another master (R227). -/
def State.regWrite (s : State) (x : Access) (a : Nat) (v : Word) : State :=
  let s := s.breakResv (pairBy x.m) a
  if kcBars x a then s
  else if 0x01000000 ≤ a ∧ a < 0x01800000 then s.deviceWrite x a v
  else if h : 0x02000000 ≤ a ∧ a < 0x02C00000 then
    let n : Fin 12 := ⟨(a - 0x02000000) / 0x100000, by omega⟩
    let o := (a - 0x02000000) % 0x100000
    if s.absentSlice a then s
    else if o < 0x20000 then s.sliceWrite x n o a v
    else if o < 0x40000 then s.windowWrite n (o - 0x20000) v
    else s
  else if h : 0x100000000 ≤ a ∧ a < 0x100100000 then
    let f : Fin 16 := ⟨(a - 0x100000000) / 0x10000, by omega⟩
    let o := a % 0x10000
    match x.m with
    | .fn by_ => if o < 0x8000 then s.pageWrite f o a v else s.dbWrite by_ f (o - 0x8000) v
    | _ => s
  else if mbxBase ≤ a ∧ a < mbxBase + 0x1000 then
    if a == mbxBase then s.mbxGo v else if 0x100 ≤ a - mbxBase ∧ a - mbxBase < 0x880 then s.setReg a v else s
  else if h : msixBase ≤ a ∧ a < msixBase + 0x10000 then
    s.msixTableWrite ⟨(a - msixBase) / 0x1000, by unfold msixBase at *; omega⟩ ((a - msixBase) % 0x1000) v
  else if sysKcBase ≤ a ∧ a < sysKcBase + 0x1000 then s.kcWrite a (a - sysKcBase) v
  else if h : progBase ≤ a ∧ a < progBase + 0x600000 then
    s.progWrite ⟨(a - progBase) / 0x80000, by unfold progBase at *; omega⟩ ((a - progBase) % 0x80000 / 4) v
  else s

/-- A register write: none where it is misaligned or out of the master's reach. -/
def State.busWrite (s : State) (x : Access) (a : Nat) (v : Word) : Option State :=
  if a % 4 == 0 && s.reach x a true then some (s.regWrite x a v) else none

/-- An access waits: the memory is being cleared or wiped, or its flash array is busy (R293, R294, R408). -/
def State.accessWaits (s : State) (a : Nat) : Bool :=
  s.memStalls a || ((spaceOf a == .flash || spaceOf a == .dataFlash) && s.flashBusy a)

/-! Reads. -/

/-- Low half-word and masks that several registers show. -/
def State.fittedMask (s : State) : Nat := 2 ^ s.part.slices - 1

/-- DEV registers as they read; FITTED from step 3 of start-up on (R44). -/
def State.devView (s : State) (a : Nat) : Word :=
  if a == R.DEV_ID then 0x0E5C2100
  else if a == R.DEV_VARIANT then
    let big := s.part != .esk7208
    F.DEV_VARIANT_PART.word s.part.code ||| F.DEV_VARIANT_HIL.word (b2n big) ||| F.DEV_VARIANT_CUST_MCODE.word (b2n big) |||
      F.DEV_VARIANT_MMC_CH.word (if big then 2 else 1) ||| F.DEV_VARIANT_PCIE_MAXW.word (if big then 4 else 3) |||
      F.DEV_VARIANT_PWY_PORTS.word (if big then 0xF else 5) ||| F.DEV_VARIANT_MAD_UNITS.word (if big then 0xF else 3)
  else if a == R.DEV_SLC_FITTED then
    let run := (List.finRange 12).foldl (fun acc (n : Fin 12) =>
      if s.slState n == slRunning && !(s.ctlOf n).fencing then acc + 2 ^ n.val else acc) 0
    F.DEV_SLC_FITTED_FITTED.word (if s.getF R.DEV_BOOT_STAT F.DEV_BOOT_STAT_STEP < 3 then 0 else s.fittedMask) ||| F.DEV_SLC_FITTED_RUNNING.word run
  else s.reg a

/-- SLC registers of a present slice as they read. -/
def State.slcView (s : State) (n : Fin 12) (o a : Nat) : Word :=
  let big := s.part != .esk7208
  if o == 0x00 then F.SLC_ID_PRESENT.word 1 ||| F.SLC_ID_SLICE.word n ||| F.SLC_ID_PART.word s.part.code
  else if o == 0x08 then
    F.SLC_CAPS_LOOPS.word 16 ||| F.SLC_CAPS_FAST_IN.word 12 ||| F.SLC_CAPS_PWM_CH.word 8 ||| F.SLC_CAPS_SAR.word 4 |||
      F.SLC_CAPS_HIL_FEED.word (b2n big) ||| F.SLC_CAPS_CUST_MCODE.word (b2n big)
  else if o == 0x14 then F.SLC_ARM_ARM.word (b2n (s.armed n)) ||| F.SLC_ARM_PENDING.word (b2n (s.armPend n))
  else if o == 0x1C then F.SLC_OWNER_OWNER.word (s.owner n) ||| F.SLC_OWNER_EPOCH.word (s.sliceEpoch n)
  else if h : 0x144 ≤ o ∧ o < 0x184 ∧ o % 16 = 4 then ((s.capOf n ⟨(o - 0x144) / 16, by omega⟩).fifo).headD 0
  else s.reg a

/-- An absent slice (R4): SLC_ID names it, SLC_STATE reads ABSENT, everything else 0. -/
def absentView (n o : Nat) : Word := if o == 0x00 then F.SLC_ID_SLICE.word n else 0

/-- Registers of a PWM channel as they read: the live counter, and TWIN_HO in TWIN mode (R168). -/
def State.pwmView (s : State) (n : Fin 12) (k : Fin 8) (o a : Nat) : Word :=
  if o == 0x18 then s.cntView n k
  else if o == 0x80 && s.mode == mdTwin then s.reg a ||| 0x00100000
  else s.reg a

/-- Registers of the function pages as they read (R331, R336). -/
def State.pageView (s : State) (f o a : Nat) : Word :=
  if o == 0x000 then F.HIF_FN_ID_PART.word s.part.code ||| F.HIF_FN_ID_STEP.word 0x21 ||| F.HIF_FN_ID_FN.word f
  else if o == 0x004 then s.reg a ||| F.HIF_FN_STAT_READY.word (s.getF R.DEV_BOOT_STAT F.DEV_BOOT_STAT_DONE)
  else if o == 0x008 then
    let own := (List.range 12).foldl (fun acc n => if s.fitted n && s.owner n == f then acc + 2 ^ n else acc) 0
    F.HIF_FN_OWNED_FITTED.word s.fittedMask ||| F.HIF_FN_OWNED_OWNED.word own
  else if o == 0x00C then s.reg (R.HIF_FNCFG_PWIN f)
  else if o == 0x010 then s.reg (R.HIF_FNCFG_MWIN f)
  else if o == 0x018 then s.reg R.HIF_LINK
  else s.reg a

/-- The word that a register shows, its write-only bits reading 0 (R9). -/
def State.view (s : State) (a : Nat) : Word :=
  let raw :=
    if h : 0x02000000 ≤ a ∧ a < 0x02C00000 then
      let n : Fin 12 := ⟨(a - 0x02000000) / 0x100000, by omega⟩
      let o := (a - 0x02000000) % 0x100000
      if s.absentSlice a then absentView n o
      else if o < 0x1000 then s.slcView n o a
      else if 0x20000 ≤ o ∧ o < 0x40000 then s.windowRead n (o - 0x20000)
      else if h : 0x1000 ≤ o ∧ o < 0x1800 then s.pwmView n ⟨(o - 0x1000) / 0x100, by omega⟩ (o % 0x100) a
      else s.reg a
    else if 0x01000000 ≤ a ∧ a < 0x01010000 then s.devView a
    else if 0x01071000 ≤ a ∧ a < 0x01073000 then
      s.reg (if a % 8 == 0 then srcAddr ((a - 0x01071000) / 8) else tgtAddr ((a - 0x01071000) / 8))
    else if 0x01040100 + 8 * s.madChannels ≤ a ∧ a < 0x01040180 then 0
    else if mbxBase + 0x88C ≤ a ∧ a < mbxBase + 0x1000 then
      match s.dbg.mbxRsp with
      | some i => Config.freeWord (i + (a - mbxBase - 0x88C) / 4)
      | none => 0
    else if a == R.FLC_BINFO then s.binfo
    else if a == R.FLC_BFLAGS then s.bflags
    else if a == R.PWR_CLK then s.clkView
    else if a == R.SEC_TAMPER_CFG then s.reg a ||| F.SEC_TAMPER_CFG_EN.word s.tamperEn
    else if 0x100000000 ≤ a ∧ a < 0x100100000 ∧ a % 0x10000 < 0x8000 then
      s.pageView ((a - 0x100000000) / 0x10000) (a % 0x10000) a
    else if msixBase ≤ a ∧ a < msixBase + 0x10000 ∧ a % 16 = 12 ∧ a % 0x1000 < 0x800 then
      match h : decide ((a - msixBase) / 0x1000 < 16) with
      | true =>
        let f : Fin 16 := ⟨(a - msixBase) / 0x1000, of_decide_eq_true h⟩
        if (s.fnOf f).vopen.contains (a % 0x1000 / 16) then 0 else 1
      | false => 0
    else if msixBase ≤ a ∧ a < msixBase + 0x10000 ∧ 0x800 ≤ a % 0x1000 ∧ a % 0x1000 < 0x810 then
      match h : decide ((a - msixBase) / 0x1000 < 16) with
      | true =>
        let j := a % 0x1000 / 4 - 0x200
        ((s.fnOf ⟨(a - msixBase) / 0x1000, of_decide_eq_true h⟩).vpend.filter (fun v => v / 32 == j)).foldl
          (fun (acc : Word) v => acc ||| BitVec.ofNat 32 (2 ^ (v % 32))) 0
      | false => 0
    else s.reg a
  match rowAt a with
  | some d => raw &&& ~~~ d.wo
  | none => raw

/-- What a read takes from a register: RC bits, and the head of a FIFO (R9, R174, R312). -/
def State.readEffect (s : State) (a : Nat) : State :=
  if h : 0x02000000 ≤ a ∧ a < 0x02C00000 ∧ 0x144 ≤ (a - 0x02000000) % 0x100000 ∧ (a - 0x02000000) % 0x100000 < 0x184 ∧
      a % 16 = 4 then
    s.captureRead ⟨(a - 0x02000000) / 0x100000, by omega⟩ ⟨((a - 0x02000000) % 0x100000 - 0x144) / 16, by omega⟩
  else if a == R.EVR_ORPH1 then s.orphanPop
  else match rowAt a with
    | some d => if d.rc == 0 then s else s.setReg a (s.reg a &&& ~~~ d.rc)
    | none => s

/-- A read that reaches its register; an inspect read changes nothing (R467). -/
def State.regRead (s : State) (x : Access) (a : Nat) : State × Word :=
  if x.m == .mon then (s, s.view a) else (s.readEffect a, s.view a)

/-- A register read: none where it is misaligned or out of the master's reach. -/
def State.busRead (s : State) (x : Access) (a : Nat) : Option (State × Word) :=
  if a % 4 == 0 && s.reach x a false then some (s.regRead x a) else none

/-! Accesses that a command gives by its master. -/

/-- The bus answers: not asleep; a function while it exists and the link is up; the others not while start-up is stopped, and a
core pair only while it releases its outputs (R28, R272, R274, R331, R333). -/
def State.busUp (s : State) (m : Master) : Bool :=
  s.mode != mdStabled &&
    (match m with
     | .fn f => s.isSet R.HIF_LINK F.HIF_LINK_UP && s.fnExists f
     | .core n => !s.bootStopped && !(s.coreOf n.castSucc).halted && s.slState n != slRecovering
     | .sys => !s.bootStopped && !s.sysDown
     | .mon => !s.bootStopped && !s.sysDown
     | .dma _ => !s.bootStopped)

/-- Before start-up is done a host reaches only the mailbox, and HIF_FN_STAT by reads (R331). -/
def State.early (s : State) (m : Master) (a : Nat) (wr : Bool) : Bool :=
  match m with
  | .fn _ => !s.isSet R.DEV_BOOT_STAT F.DEV_BOOT_STAT_DONE && !(decide (mbxBase ≤ a) && decide (a < mbxBase + 0x1000)) &&
      !(!wr && decide (0x100000000 ≤ a) && decide (a < 0x100100000) && a % 0x10000 == 4)
  | _ => false

/-- No BAR of a function covers the internal address (R338, log 169). -/
def outsideBars (a : Nat) : Bool :=
  decide (a < 0x01000000) || (decide (0x20000000 ≤ a) && decide (a < 0x100000000))

/-- A host write of BAR0 or BAR2 that arrives after its function has been disabled is discarded (R341); the function's own page
and doorbell page, which enable it again, have rules of their own (R345, R350). -/
def State.discards (s : State) (m : Master) (a : Nat) : Bool :=
  match m with
  | .fn f => (s.fnOf f).stopped && !inMain a && !(decide (fnBase f ≤ a) && decide (a < fnBase f + 0x10000))
  | _ => false

/-- A word write by a master. -/
def State.write (s : State) (x : Access) (a : Nat) (v : Word) : State :=
  if !s.busUp x.m then s
  else if s.early x.m a true then s.refuse x.m
  else match x.m with
    | .fn f =>
      if outsideBars a then s.emit (.unsupported f)
      else if s.discards x.m a then s.fnErr f
      else match s.busWrite x a v with
        | some t => t
        | none => s.refuse x.m
    | _ => match s.busWrite x a v with
      | some t => t
      | none => s.refuse x.m

/-- What a read answers: the state and the word; none is refused, with all ones. -/
def State.readOut (s : State) (m : Master) (r : Option (State × Word)) : State :=
  match r with
  | some (t, v) => { t with busOut := v }
  | none => { s.refuse m with busOut := 0xFFFFFFFF }

/-- A word read of a register by a master; `busOut` shows the word. -/
def State.read (s : State) (x : Access) (a : Nat) : State :=
  if !s.busUp x.m then s
  else if s.early x.m a false then s.readOut x.m none
  else match x.m with
    | .fn f => if outsideBars a then s.emit (.unsupported f) else s.readOut x.m (s.busRead x a)
    | _ => s.readOut x.m (s.busRead x a)

/-! Host accesses to memories (R282, R288, R338 to R340, R408). -/

/-- A window register of function f spans a unit number (R340). -/
def spans (v : Word) (u : Nat) : Bool := decide (v.toNat % 65536 ≤ u) && decide (u < v.toNat % 65536 + v.toNat / 65536)

/-- The function reaches the cell: inside its window and outside the system area, or in the memory of a slice that it owns or
that is absent. -/
def State.hostReaches (s : State) (f : Fin 16) (a : Nat) : Bool :=
  match spaceOf a with
  | .plain => !inSysArea a && (f.val == 0 || spans (s.reg (R.HIF_FNCFG_PWIN f)) ((a - 0x0E000000) / 0x10000))
  | .main _ => f.val == 0 || spans (s.reg (R.HIF_FNCFG_MWIN f)) ((a - 0x10000000) / 0x100000)
  | .slice n => !s.fitted n || s.owner n == f.val
  | _ => false

/-- The bits of the bytes that a set of byte enables names. -/
def laneMask (be : BitVec 4) : Word :=
  BitVec.ofNat 32 ((List.range 4).foldl (fun acc i => if be.getLsbD i then acc + 255 * 256 ^ i else acc) 0)

/-- A write without a tag of the enabled bytes of the cell at `a`: a whole cell, or a narrow write (R288). -/
def State.hostCell (s : State) (a : Nat) (be : BitVec 4) (v : Word) : State :=
  if be == 0 then s
  else if be == 15 then s.rawWrite a v
  else
    let r := s.rd a
    let m := laneMask be
    if narrowOk r.c.tag false then r.st.wr none a ⟨(r.c.v &&& ~~~ m) ||| (v &&& m), r.c.tag⟩ else r.st.badAcc

/-- A host write of a cell: it waits while the memory is being cleared; one of a function that has been disabled is discarded,
except through BAR4 (R341); a cell out of reach is refused. -/
def State.hostPut (s : State) (f : Fin 16) (a : Nat) (be : BitVec 4) (v : Word) : State :=
  if !s.busUp (.fn f) || s.memStalls a then s
  else if s.early (.fn f) a true then s.hostRefuse f
  else if s.discards (.fn f) a then s.fnErr f
  else if !s.hostReaches f a then s.hostRefuse f
  else if s.absentSlice a then s
  else s.hostCell a be v

/-- A host read of a cell: its payload without the tag (R288), all ones where it is uncorrectable (R282), 0 in an absent slice
(R4). It waits while the memory is being cleared. -/
def State.hostGet (s : State) (f : Fin 16) (a : Nat) : State :=
  if !s.busUp (.fn f) || s.memStalls a then s
  else if s.early (.fn f) a false || !s.hostReaches f a then s.readOut (.fn f) none
  else if s.absentSlice a then { s with busOut := 0 }
  else let r := s.rawRead a; { r.1 with busOut := r.2 }

/-- PF0 reads a word of the data flash window, which waits while its array is busy (R338, R408, R411); an uncorrectable word
reads all ones and is counted in HIF_BADACC (R282). -/
def State.hostFlash (s : State) (f : Fin 16) (a : Nat) : State :=
  if !s.busUp (.fn f) || s.flashBusy a then s
  else if s.early (.fn f) a false || f.val != 0 || a % 4 != 0 then s.readOut (.fn f) none
  else match s.flashGet a with
    | (t, some v) => { t with busOut := v }
    | (t, none) => { t.badAcc with busOut := 0xFFFFFFFF }

/-- A write of the enabled bytes of a word by a master: only memory cells take a part of a word (R8, R14, R340). -/
def State.writeAt (s : State) (x : Access) (a : Nat) (be : BitVec 4) (v : Word) : State :=
  match x.m with
  | .fn f =>
    if isCells a then s.hostPut f (a / 4 * 4) be v
    else if be != 15 && s.busUp x.m && !outsideBars a then s.refuse x.m
    else s.write x a v
  | _ => if be != 15 && s.busUp x.m then s.refuse x.m else s.write x a v

/-- A read of the enabled bytes of a word by a master. -/
def State.readAt (s : State) (x : Access) (a : Nat) (be : BitVec 4) : State :=
  match x.m with
  | .fn f =>
    if isCells a then s.hostGet f (a / 4 * 4)
    else if be != 15 && s.busUp x.m && !outsideBars a then s.readOut x.m none
    else if spaceOf a == .dataFlash then s.hostFlash f a
    else s.read x a
  | _ => if be != 15 && s.busUp x.m then s.readOut x.m none else s.read x a

/-! An event in the cycle of a clear (R10). -/

/-- What the event has set or added in bits that a clear takes. -/
def clearedBy (a : Nat) (ev : Word) : Word :=
  match rowAt a with
  | some d => ev &&& (d.rc ||| d.w1c)
  | none => 0

/-- A write by which bits of the word at `a` have been cleared leaves what an event of its cycle set. -/
def State.keepWritten (t s : State) (a : Nat) (ev : Word) : State :=
  if t.reg a == s.reg a || clearedBy a ev == 0 then t else t.setReg a (t.reg a ||| clearedBy a ev)

/-- A read by which the word at `a` has been cleared leaves what an event of its cycle set or added, and has returned the value from
before it. -/
def State.keepRead (t s : State) (a : Nat) (ev : Word) : State :=
  if t.reg a == s.reg a || clearedBy a ev == 0 then t
  else { t.setReg a (t.reg a ||| clearedBy a ev) with busOut := t.busOut - clearedBy a ev }

end Machine
end Sys2Proof
end

