-- ==== Sys2Proof/Machine/Cmds.lean ====
section
/-! DEFINITION. The register writes that several commands give: the words and addresses they use, and the two writes whose
outcome the bus alone does not settle. -/

namespace Sys2Proof
namespace Machine

/-- ARM (`arm`) or DISARM through DEV_ARM, DEV_DISARM or SLC_ARM (R33, R35). `off`: slices that are disarmed in the cycle of an
arm request, which is then neither pending nor counted (R33). -/
def State.armWrite (s : State) (x : Access) (w : ArmBy) (arm : Bool) (off : BitVec 12) : State :=
  match w with
  | .dev mask => s.write x (if arm then R.DEV_ARM else R.DEV_DISARM) ((mask &&& ~~~ off).setWidth 32)
  | .slc n => s.write x (R.SLC_ARM n) (if off.getLsbD n then 0 else if arm then F.SLC_ARM_ARM.word 1 else F.SLC_ARM_DISARM.word 1)

/-- The word of SLC_CMD (R47). -/
def slcCmdWord (key : BitVec 16) (cmd : Nat) (toTwin : Bool) : Word :=
  F.SLC_CMD_KEY.word key.toNat ||| F.SLC_CMD_CMD.word cmd ||| F.SLC_CMD_TO_TWIN.word (b2n toTwin)

/-- The word of CLE_CMD (R96). -/
def cleCmdWord (key : BitVec 16) (j : Fin 16) (code : Nat) : Word :=
  F.CLE_CMD_KEY.word key.toNat ||| F.CLE_CMD_LOOP.word j.val ||| F.CLE_CMD_CMD.word code

/-- The word of FLC_CMD (R411). -/
def flcWord (key : BitVec 16) (op : Nat) : Word := F.FLC_CMD_KEY.word key.toNat ||| F.FLC_CMD_OP.word op

/-- The word of SEC_CMD (R455). -/
def secWord (key : BitVec 16) (op : Nat) (slot : Fin 4) : Word :=
  F.SEC_CMD_KEY.word key.toNat ||| F.SEC_CMD_OP.word op ||| F.SEC_CMD_SLOT.word slot.val

/-- The word of PWM_TRIP_CMD (R168, R170). A request of the command source that falls into the cycle of a clear, from
whatever register, does what FORCE does in the clear's own word (R173). -/
def tripCmdWord (force clear : Bool) : Word := F.PWM_TRIP_CMD_FORCE.word (b2n force) ||| F.PWM_TRIP_CMD_CLEAR.word (b2n clear)

/-- Address of offset `off` of microcode word w in the window of slice n (R139). -/
def mcsAddr (n : Nat) (w : BitVec 12) (off : Nat) : Nat := sliceBase n + 0x20000 + 32 * w.toNat + off

/-- Address of a shadow register of channel k (R159). -/
def shadowAddr (n k : Nat) : Shadow → Nat
  | .per => R.PWM_PER n k
  | .cmp => R.PWM_CMP n k
  | .dt => R.PWM_DT n k

/-- Address of a target register (R312). -/
def tgtRegAddr : TgtReg → Nat
  | .src i => R.EVR_TGT i
  | .loc n i => R.EVR_LTGT n i
  | .grp g => R.EVR_GTGT g

/-- A write of 0x5E7A to WDG_SVC; `coll`: a violation falls in the same microsecond, and the restart wins (R443). -/
def State.wdgRestartWrite (s : State) (x : Access) (e : Fin 13) (coll : Bool) : State :=
  let up := match x.m with
    | .fn _ => s.isSet R.DEV_BOOT_STAT F.DEV_BOOT_STAT_DONE
    | _ => true
  if coll && s.busUp x.m && up && s.reach x (R.WDG_SVC e) true && !s.absentSlice (R.WDG_SVC e) then
    s.wdgSvc x.m e 0x5E7A true
  else s.write x (R.WDG_SVC e) 0x5E7A

/-- Address of a trace post of a slice or of the system pair (R472). -/
def postAddr (e p : Nat) : Nat := if e < 12 then R.STP_POST e p else R.STP_SYS_POST p

/-- A store to a trace post: of a core with its cell's tag, of another master as UINT (R472). A core stores no EMPTY or CAP
cell (R213). -/
def State.tracePost (s : State) (x : Access) (e : Fin 13) (p : Fin 24) (c : Cell) : State :=
  match x.m with
  | .core _ | .sys =>
    if !s.busUp x.m || c.tag == tagEmpty || c.tag == tagCap then s
    else if !s.reach x (postAddr e p) true then s.refuse x.m
    else if s.absentSlice (postAddr e p) then s
    else s.postStore e p c
  | _ => s.write x (postAddr e p) c.v

end Machine
end Sys2Proof
end

