-- ==== Sys2Proof/Machine/KnDecode.lean ====
section
/-! DEFINITION. The Knankoeg-2 instruction word (R208 to R231): its operations, what a word with its prefixes decodes to, and
where an instruction may not stand. -/

namespace Sys2Proof
namespace Machine

/-- The operations of Knankoeg-2, one for each row of the table; the legacy forms begin with `l`. -/
inductive KOp where
  | lda | sta | add | sub | adds | subs | mul | macx | and | or | xor | ldx | stx | ldy | sty | xch
  | eq | ne | lt | ge | gt | le | teq | tne
  | nop | ret | fret | gret | rfe | lock | fence | wfe | pusha | popa | pushx | popx | pushy | popy
  | tax | txa | tay | tya | swxy | rdsp | wdsp | rpg | wpg | rdtag | rdtime
  | pfx | ldia | ldix | ldiy | addia | loop | lea | sc | pstore | jump | call | jumpx | callx | fcall | gate
  | cld | cst | crange | cmask | cclose | copen | cclr | cinfo | cmov | capsw | ctst
  | div | sqrt | sincos | atan2 | retag | dsadj | ldb | ldh | stb | sth | ldu
  | llda | lsta | ladd | lsub | land | lor | lxor | jmpp | att
  deriving DecidableEq, Repr

/-- A decoded instruction. -/
structure Kn where
  op : KOp
  /-- MODE, OPD, COND of a legacy word, count source of LOOP, or register of RETAG. -/
  m : Nat
  /-- Offset, displacement, immediate or count, its prefixes included (R220). -/
  v : Int
  /-- Register, set, entry or tag number; body length of LOOP. -/
  n : Nat
  /-- Destination of CMOV. -/
  d : Nat
  deriving DecidableEq, Repr

def memOps : List KOp :=
  [.lda, .sta, .add, .sub, .adds, .subs, .mul, .macx, .and, .or, .xor, .ldx, .stx, .ldy, .sty, .xch]
def branchOps : List KOp := [.eq, .ne, .lt, .ge, .gt, .le, .teq, .tne]
def legacyOps : List KOp := [.llda, .lsta, .ladd, .lsub, .land, .lor, .lxor, .jmpp]
def capOps : List KOp := [.cld, .cst, .crange, .cmask, .cclose, .copen, .cclr, .cinfo]
def narrowOps : List KOp := [.ldb, .ldh, .stb, .sth, .ldu]
def longOps : List KOp := [.div, .sqrt, .sincos, .atan2]

/-- CTL sub-operations (R219). -/
def ctlOp (v : Nat) : Option KOp :=
  match v with
  | 0x00 => some .nop | 0x01 => some .ret | 0x02 => some .fret | 0x03 => some .gret | 0x04 => some .rfe
  | 0x05 => some .lock | 0x06 => some .fence | 0x07 => some .wfe
  | 0x08 => some .pusha | 0x09 => some .popa | 0x0A => some .pushx | 0x0B => some .popx | 0x0C => some .pushy
  | 0x0D => some .popy
  | 0x10 => some .tax | 0x11 => some .txa | 0x12 => some .tay | 0x13 => some .tya | 0x14 => some .swxy
  | 0x18 => some .rdsp | 0x19 => some .wdsp | 0x1A => some .rpg | 0x1B => some .wpg | 0x1C => some .rdtag
  | 0x20 => some .rdtime
  | _ => none

/-- The bits of the prefixes, in program order (R220). -/
def pfxBits (ps : List Nat) : Nat := ps.foldl (fun a b => a * 256 + b) 0

/-- An unsigned field of width w with its prefixes, taken to 32 bits. -/
def ufield (ps : List Nat) (w f : Nat) : Int := (((pfxBits ps * 2 ^ w + f) % 2 ^ 32 : Nat) : Int)

/-- A signed field. -/
def sfield (ps : List Nat) (w f : Nat) : Int := toSigned (min 32 (8 * ps.length + w)) (pfxBits ps * 2 ^ w + f)

/-- An instruction that takes no prefix. -/
def bare (ps : List Nat) (i : Kn) : Option Kn := if ps.isEmpty then some i else none

/-- A control word (R218). -/
def decodeCtl (g o : Nat) (ps : List Nat) : Option Kn :=
  match g with
  | 0x0 => (ctlOp o).bind (fun k => bare ps ⟨k, 0, 0, 0, 0⟩)
  | 0x1 => some ⟨.pfx, 0, (o : Int), 0, 0⟩
  | 0x2 =>
    let v := sfield ps 6 (o % 64)
    match o / 64 with
    | 0 => some ⟨.ldia, 0, v, 0, 0⟩
    | 1 => some ⟨.ldix, 0, v, 0, 0⟩
    | 2 => some ⟨.ldiy, 0, v, 0, 0⟩
    | _ => some ⟨.addia, 0, v, 0, 0⟩
  | 0x3 =>
    let len := o % 32 + 1
    match o / 32 with
    | 0 => bare ps ⟨.loop, 0, 0, len, 0⟩
    | 1 => bare ps ⟨.loop, 1, 0, len, 0⟩
    | 2 => if ps.isEmpty then none else some ⟨.loop, 2, ufield ps 0 0, len, 0⟩
    | _ => none
  | 0x4 => some ⟨.lea, o / 64, ufield ps 6 (o % 64), 0, 0⟩
  | 0x5 => some ⟨.sc, o / 64, ufield ps 6 (o % 64), 0, 0⟩
  | 0x6 => if o = 0 then bare ps ⟨.pstore, 0, 0, 0, 0⟩ else none
  | 0x7 =>
    match o / 64 with
    | 0 => some ⟨.jump, 0, sfield ps 6 (o % 64), 0, 0⟩
    | 1 => some ⟨.call, 0, sfield ps 6 (o % 64), 0, 0⟩
    | 2 => if o % 64 = 0 then bare ps ⟨.jumpx, 0, 0, 0, 0⟩ else none
    | _ => if o % 64 = 0 then bare ps ⟨.callx, 0, 0, 0, 0⟩ else none
  | 0x8 => if o < 8 then bare ps ⟨.fcall, 0, 0, o, 0⟩ else none
  | 0x9 => if 4 ≤ o ∧ o < 8 then bare ps ⟨.gate, 0, 0, o, 0⟩ else none
  | 0xA => if o / 8 % 4 = 0 then (capOps[o / 32]?).bind (fun k => bare ps ⟨k, 0, 0, o % 8, 0⟩) else none
  | 0xB =>
    match o / 64 with
    | 0 => bare ps ⟨.cmov, 0, 0, o % 8, o / 8 % 8⟩
    | 1 => if o / 8 % 8 = 0 then bare ps ⟨.capsw, 0, 0, o % 8, 0⟩ else none
    | 2 => if o / 8 % 8 = 0 then bare ps ⟨.ctst, 0, 0, o % 8, 0⟩ else none
    | _ => none
  | 0xC => if o % 16 = 0 then (longOps[o / 16]?).bind (fun k => bare ps ⟨k, 0, 0, 0, 0⟩) else none
  | 0xD =>
    match o / 64 with
    | 0 =>
      let t := o % 16
      if o / 16 = 3 ∨ t = 7 ∨ (0xB ≤ t ∧ t ≤ 0xE) then none else bare ps ⟨.retag, o / 16, 0, t, 0⟩
    | 1 => some ⟨.dsadj, 0, sfield ps 6 (o % 64), 0, 0⟩
    | _ => none
  | 0xE => (narrowOps[o / 32]?).map (fun k => ⟨k, 0, ufield ps 5 (o % 32), 0, 0⟩)
  | 0xF => if 5 ≤ o ∧ o < 0x80 then none else bare ps ⟨.att, 0, 0, o, 0⟩
  | _ => none

/-- The instruction of a word with its prefixes; none where its encoding is illegal (R208). -/
def knDecode (w : Nat) (ps : List Nat) : Option Kn :=
  match w / 4096 with
  | 0 => (legacyOps[w / 64 % 8]?).bind (fun k => bare ps ⟨k, w / 512 % 8, ((w % 64 : Nat) : Int), 0, 0⟩)
  | 1 => (memOps[w / 256 % 16]?).map (fun k => ⟨k, w / 64 % 4, ufield ps 6 (w % 64), 0, 0⟩)
  | 2 => (branchOps[w / 512 % 8]?).map (fun k => ⟨k, w / 128 % 4, sfield ps 7 (w % 128), 0, 0⟩)
  | 3 => decodeCtl (w / 256 % 16) (w % 256) ps
  | _ => none

/-- Instructions that may not stand in a delay slot, nor in the shadow of a CAPSW (R217, R251). -/
def barredInSlot : List KOp :=
  branchOps ++ [.jump, .jumpx, .call, .callx, .jmpp, .fcall, .gate, .ret, .fret, .gret, .rfe, .loop, .pstore, .capsw, .lock, .pfx]

/-- Instructions barred from an active loop body, and from its last word (R222). -/
def barredInBody : List KOp := [.loop, .call, .callx, .fcall, .gate]
def barredAtEnd : List KOp :=
  branchOps ++ [.jump, .call, .jumpx, .callx, .ret, .fret, .gret, .rfe, .pstore, .capsw, .pfx]

/-- The PC lies in the body of an active loop. -/
def CoreRegs.inBody (r : CoreRegs) : Bool :=
  r.lcount != 0 && decide (r.lstart.toNat ≤ r.pc.toNat) && decide (r.pc.toNat ≤ r.lend.toNat)

/-- The placement is illegal (R217, R220, R222, R227, R251). -/
def CoreSt.misplaced (c : CoreSt) (i : Kn) : Bool :=
  ((c.slot.isSome || c.shadow.isSome) && barredInSlot.contains i.op) ||
    (c.r.inBody && barredInBody.contains i.op) ||
    (c.r.inBody && c.r.pc == c.r.lend && barredAtEnd.contains i.op) ||
    (i.op == .lock && c.lock.isSome) || (i.op == .pfx && decide (4 ≤ c.pfx.length))

end Machine
end Sys2Proof
end

