-- ==== Sys2Proof/Machine/Flags.lean ====
section
/-! DEFINITION. Knankoeg-2 has no flags (R213): the tags of the operands decide whether an operation is allowed and what its
result carries, and compares decide branches. Conversion between A and cells (R211), the arithmetic of each pair of tags
(R213, R214), and the comparisons (R215, R216). -/

namespace Sys2Proof
namespace Machine

/-- EMPTY, or a reserved tag, which is treated as EMPTY (R7, R214). -/
def noValue (t : BitVec 4) : Bool := t == tagEmpty || (decide (0xB ≤ t.toNat) && decide (t.toNat ≤ 0xE))

/-- Tags whose payload is signed in A. -/
def signedTag (t : BitVec 4) : Bool := t == tagInt || t == tagQ31

/-- The load rule (R211). -/
def extendCell (c : Cell) : BitVec 40 := if signedTag c.tag then c.v.signExtend 40 else c.v.setWidth 40

/-- The store rule (R211). -/
def storeWord (a : BitVec 40) (t : BitVec 4) : Word :=
  if signedTag t then BitVec.ofInt 32 (satS 32 a.toInt)
  else if t == tagUint then BitVec.ofNat 32 (min a.toNat (2 ^ 32 - 1))
  else a.setWidth 32

/-- Outcome of an operation on A. -/
inductive ARes where
  /-- The tags do not combine. -/
  | bad
  | val (x : BitVec 40) (t : BitVec 4)
  /-- The result falls outside the number format, and the spec states none (log 13). -/
  | open_ (t : BitVec 4)
  deriving DecidableEq, Repr

/-- A value of A from an integer, modulo 2^40. -/
def aVal (x : Int) (t : BitVec 4) : ARes := .val (BitVec.ofInt 40 x) t

/-- FRAC2, lane by lane. -/
def lanes (f : Int → Int → Int) (a : BitVec 40) (m : Word) : ARes :=
  let w : Word := a.setWidth 32
  .val ((pack16 (f (q15lo w) (q15lo m)) (f (q15hi w) (q15hi m))).setWidth 40) tagFrac2

def fits40 (x : Int) : Bool := decide (-(2 ^ 39) ≤ x) && decide (x < 2 ^ 39)

/-- Q31 sums keep 40 bits; outside them no result is stated. -/
def q31Sum (x : Int) : ARes := if fits40 x then aVal x tagQ31 else .open_ tagQ31

/-- ADD and SUB, or ADDS and SUBS. -/
def kAdd (sub sat : Bool) (a : BitVec 40) (ta : BitVec 4) (m : Cell) : ARes :=
  let sg (x y : Int) : Int := if sub then x - y else x + y
  let tm := m.tag
  if noValue ta || noValue tm then .bad
  else if ta == tagRaw || tm == tagRaw then
    let r := sg a.toNat m.v.toNat
    aVal (if sat then clampI 0 (2 ^ 32 - 1) r else r) tagRaw
  else if ta == tagInt && tm == tagInt then
    let r := sg a.toInt m.v.toInt
    aVal (if sat then satS 32 r else r) tagInt
  else if ta == tagUint && tm == tagUint then
    let r := sg a.toNat m.v.toNat
    aVal (if sat then clampI 0 (2 ^ 32 - 1) r else r) tagUint
  else if ta == tagQ31 && tm == tagQ31 then
    let r := sg a.toInt m.v.toInt
    if sat then aVal (satS 32 r) tagQ31 else q31Sum r
  else if ta == tagFrac2 && tm == tagFrac2 then lanes (fun x y => if sat then satS 16 (sg x y) else sg x y) a m.v
  else if sat then .bad
  else if tm == tagInt && (ta == tagAddr || ta == tagCode || ta == tagTime) then
    let w : Word := a.setWidth 32
    .val ((if sub then w - m.v else w + m.v).setWidth 40) ta
  else if sub && ta == tm && (ta == tagAddr || ta == tagTime) then
    .val (((a.setWidth 32 : Word) - m.v).signExtend 40) tagInt
  else .bad

/-- The exact product of two Q31 values, rounded (R213). -/
def q31Mul (x y : Int) : Int := satS 40 ((x * y + 2 ^ 30) / 2 ^ 31)

/-- MUL. -/
def kMul (a : BitVec 40) (ta : BitVec 4) (m : Cell) : ARes :=
  let tm := m.tag
  if noValue ta || noValue tm then .bad
  else if ta == tagRaw || tm == tagRaw then aVal (min (a.toNat * m.v.toNat) (2 ^ 40 - 1) : Nat) tagRaw
  else if ta != tm then .bad
  else if ta == tagInt then aVal (satS 40 (a.toInt * m.v.toInt)) tagInt
  else if ta == tagUint then aVal (min (a.toNat * m.v.toNat) (2 ^ 40 - 1) : Nat) tagUint
  else if ta == tagQ31 then aVal (q31Mul a.toInt m.v.toInt) tagQ31
  else if ta == tagFrac2 then lanes (fun x y => satS 16 ((x * y + 2 ^ 14) / 2 ^ 15)) a m.v
  else .bad

/-- MACX: A + X × m. -/
def kMacx (a : BitVec 40) (ta : BitVec 4) (x m : Cell) : ARes :=
  if noValue ta || noValue x.tag || noValue m.tag then .bad
  else if ta == tagRaw || x.tag == tagRaw || m.tag == tagRaw then
    aVal ((a.toNat + min (x.v.toNat * m.v.toNat) (2 ^ 40 - 1) : Nat) : Int) tagRaw
  else if ta == tagInt && x.tag == tagInt && m.tag == tagInt then aVal (a.toInt + satS 40 (x.v.toInt * m.v.toInt)) tagInt
  else if ta == tagQ31 && x.tag == tagQ31 && m.tag == tagQ31 then q31Sum (a.toInt + q31Mul x.v.toInt m.v.toInt)
  else if ta == tagQ31 && x.tag == tagFrac2 && m.tag == tagFrac2 then
    aVal (satS 40 (a.toInt + 2 * (q15lo x.v * q15lo m.v + q15hi x.v * q15hi m.v))) tagQ31
  else .bad

/-- AND, OR, XOR. -/
def kLogic (f : BitVec 40 → BitVec 40 → BitVec 40) (a : BitVec 40) (ta : BitVec 4) (m : Cell) : ARes :=
  if noValue ta || noValue m.tag then .bad
  else if ta == tagRaw || m.tag == tagRaw then .val (f a (m.v.setWidth 40)) tagRaw
  else if ta == m.tag && (ta == tagInt || ta == tagUint) then .val (f a (extendCell m)) ta
  else .bad

/-- ADDIA: the immediate is a signed value; it counts as UINT beside a UINT, and as INT otherwise (R218). -/
def kAddImm (a : BitVec 40) (ta : BitVec 4) (v : Int) : ARes :=
  if ta == tagUint then aVal (a.toNat + v) tagUint else kAdd false false a ta ⟨BitVec.ofInt 32 v, tagInt⟩

/-! Compares. -/

/-- An operand of a compare: its value as extended, its payload, its tag. -/
structure Opnd where
  x : BitVec 40
  raw : Nat
  tag : BitVec 4
  deriving DecidableEq, Repr

def opndA (r : CoreRegs) : Opnd := ⟨r.a, r.a.toNat, r.atag⟩
def opndCell (c : Cell) : Opnd := ⟨extendCell c, c.v.toNat, c.tag⟩

/-- The operands of OPD (R215). -/
def opnds (r : CoreRegs) (o : Nat) : Opnd × Opnd :=
  match o with
  | 0 => (opndA r, ⟨0, 0, r.atag⟩)
  | 1 => (opndA r, opndCell r.x)
  | 2 => (opndA r, opndCell r.y)
  | _ => (opndCell r.x, opndCell r.y)

/-- The relation from "less" and "equal". -/
def relation (op : KOp) (lt eq : Bool) : Bool :=
  match op with
  | .eq => eq
  | .ne => !eq
  | .lt => lt
  | .ge => !lt
  | .gt => !lt && !eq
  | .le => lt || eq
  | _ => false

/-- Whether the relation holds; none where the tags do not compare (R213, R216). -/
def compares (op : KOp) (a b : Opnd) : Option Bool :=
  let order := op != .eq && op != .ne
  if noValue a.tag || noValue b.tag then none
  else if a.tag == tagRaw || b.tag == tagRaw then some (relation op (decide (a.raw < b.raw)) (a.raw == b.raw))
  else if a.tag != b.tag then none
  else if signedTag a.tag then some (relation op (decide (a.x.toInt < b.x.toInt)) (a.x == b.x))
  else if a.tag == tagUint || a.tag == tagAddr || a.tag == tagCode then
    some (relation op (decide (a.x.toNat < b.x.toNat)) (a.x == b.x))
  else if a.tag == tagTime then
    some (relation op (decide (2 ^ 31 ≤ (a.x.setWidth 32 - b.x.setWidth 32 : Word).toNat)) (a.x == b.x))
  else if order then none
  else if a.tag == tagFrac2 || a.tag == tagEvent || a.tag == tagDesc then some (relation op false (a.x == b.x))
  else none

/-- A compare-and-branch is taken; none where it raises TAG. -/
def branchTaken (r : CoreRegs) (i : Kn) : Option Bool :=
  let (a, b) := opnds r i.m
  let bt := if i.m == 0 then tagEmpty else b.tag
  match i.op with
  | .teq => some (a.tag == bt)
  | .tne => some (a.tag != bt)
  | op => compares op a b

/-- The condition of a legacy word holds; none where it raises TAG (R230, R231). -/
def legacyCond (r : CoreRegs) (cond : Nat) : Option Bool :=
  if cond == 0 then some true
  else if cond == 7 then some false
  else if r.atag == tagInt || r.atag == tagUint || r.atag == tagQ31 then
    let x : Int := if r.atag == tagUint then r.a.toNat else r.a.toInt
    some (match cond with
      | 1 => decide (x = 0)
      | 2 => decide (x ≠ 0)
      | 3 => decide (x < 0)
      | 4 => decide (0 ≤ x)
      | 5 => decide (0 < x)
      | _ => decide (x ≤ 0))
  else none

end Machine
end Sys2Proof
end

