-- ==== Sys2Proof/Machine/Operands.lean ====
section
/-! DEFINITION. Operands of the core instructions (R209 to R211, R238, R239, R245 to R247): capabilities and their checks,
effective addresses, loads and stores of a pair, its store buffer, program memory, and the fetch. -/

namespace Sys2Proof
namespace Machine

/-! Fault codes (R261). -/

def fIllegal : Nat := 1
def fTag : Nat := 2
def fAlign : Nat := 3
def fBounds : Nat := 4
def fPerm : Nat := 5
def fClosed : Nat := 6
def fCapInvalid : Nat := 7
def fAbsent : Nat := 8
def fFpe : Nat := 9
def fFrame : Nat := 0xA
def fStack : Nat := 0xB

/-- Outcome of a part of an instruction: it goes on with a value, faults with a code and KC_FADDR, or waits: the command
then leaves the instruction where it is. -/
inductive Kr (α : Type) where
  | ok (st : State) (v : α)
  | fault (st : State) (code ea : Nat)
  | stall (st : State)

def Kr.andThen {α β : Type} (x : Kr α) (f : State → α → Kr β) : Kr β :=
  match x with
  | .ok s v => f s v
  | .fault s c e => .fault s c e
  | .stall s => .stall s

/-- A check: none passes, a code faults. -/
def check {α : Type} (s : State) (code : Option Nat) (ea : Nat) (k : Kr α) : Kr α :=
  match code with
  | none => k
  | some c => .fault s c ea

/-- Fault with a code unless a condition holds. -/
def need {α : Type} (s : State) (b : Bool) (code ea : Nat) (k : Kr α) : Kr α := if b then k else .fault s code ea

/-! Registers of a pair. -/

def State.kr (s : State) (p : Fin 13) : CoreRegs := (s.coreOf p).r
def State.setKr (s : State) (p : Fin 13) (r : CoreRegs) : State := s.setCore p { s.coreOf p with r := r }

/-- A set number as an index. -/
def set8 (k : Nat) : Fin 8 := Fin.ofNat 8 k

/-- The active set (R249). -/
def State.actSet (s : State) (p : Fin 13) : Nat := s.getF (R.KC_CSEL p) F.KC_CSEL_ACTIVE

/-- A change of the active set sets WSET too (R249). -/
def State.setActive (s : State) (p : Fin 13) (k : Nat) : State :=
  (s.setF (R.KC_CSEL p) F.KC_CSEL_ACTIVE k).setF (R.KC_CSEL p) F.KC_CSEL_WSET k

def CoreRegs.set (r : CoreRegs) (k : Nat) : CapSet := r.sets.get (set8 k)
def CoreRegs.putSet (r : CoreRegs) (k : Nat) (x : CapSet) : CoreRegs := { r with sets := r.sets.set (set8 k) x }

/-- Capability register n of set k. -/
def CoreRegs.cap (r : CoreRegs) (k n : Nat) : Quad := (r.set k).c.get (set8 n)
def CoreRegs.putCap (r : CoreRegs) (k n : Nat) (q : Quad) : CoreRegs :=
  r.putSet k { r.set k with c := (r.set k).c.set (set8 n) q }

/-! Capabilities (R245 to R247). -/

def Quad.tags (q : Quad) (t : BitVec 4) : Bool := q.base.tag == t && q.len.tag == t && q.perms.tag == t && q.st.tag == t
def Quad.isEmpty (q : Quad) : Bool := q.tags tagEmpty
def Quad.closed (q : Quad) : Bool := bit q.st.v 31
def Quad.program (q : Quad) : Bool := bit q.st.v 30
def Quad.perm (q : Quad) (k : Nat) : Bool := bit q.perms.v k
def Quad.key (q : Quad) : Nat := q.perms.v.toNat / 65536
def Quad.lo (q : Quad) : Nat := q.base.v.toNat
def Quad.hi (q : Quad) : Nat := q.base.v.toNat + q.len.v.toNat

/-- A valid quad (R247). -/
def Quad.valid (q : Quad) : Bool :=
  q.tags tagCap && (q.perms.v &&& 0x0000F800) == 0 && (q.st.v &&& 0x3FFFFFFF) == 0 &&
    decide (q.hi ≤ if q.program then 2 ^ 17 else 2 ^ 32)

/-- Whether an access in data or in program space may use the quad (R247). -/
def Quad.unusable (q : Quad) (program : Bool) : Option Nat :=
  if !q.valid || q.program != program then some fCapInvalid else if q.closed then some fClosed else none

def pRead : Nat := 0
def pWrite : Nat := 1
def pExec : Nat := 2
def pQread : Nat := 3
def pQwrite : Nat := 4
def pWarden : Nat := 5
def pBind : Nat := 6
def pGate : Nat := 7
def pRaw : Nat := 8
def pTest : Nat := 9

/-- The pair as a master, with the authority of the capability it uses. -/
def pairAccess (p : Fin 13) (q : Quad) : Access :=
  ⟨if h : p.val < 12 then .core ⟨p.val, h⟩ else .sys, q.perm pWarden, q.perm pTest⟩

/-- An access of `len` bytes at EA touches what C3 of the active set bounds (R210). -/
def State.inStack3 (s : State) (p : Fin 13) (ea len : Nat) : Bool :=
  let q := (s.kr p).cap (s.actSet p) 3
  q.valid && !q.program && decide (q.lo < ea + len) && decide (ea < q.hi)

/-- Bounds of a data access of `len` bytes at EA: the cell at EA lies within the capability (R209), and no byte of the access within
C3 (R210). -/
def State.inBounds (s : State) (p : Fin 13) (q : Quad) (ea len : Nat) : Bool :=
  decide (q.lo ≤ ea) && decide (ea + 4 ≤ q.hi) && !s.inStack3 p ea len

/-- Register space, the MCS window and the data flash window take whole words only (R8, R14, R408). -/
def wordsOnly (a : Nat) : Bool :=
  match spaceOf a with
  | .reg => true
  | .mcs _ => true
  | .dataFlash => true
  | _ => false

/-- An access at EA that is aligned to `al` bytes is one that R8 refuses: it is misaligned, or a part of a word where only whole
words go. -/
def misfit (ea al : Nat) : Bool := ea % al != 0 || (decide (al < 4) && wordsOnly ea)

/-- The checks of a data access of `len` bytes at EA that is aligned to `al` bytes (R209, R232). -/
def State.eaFault (s : State) (p : Fin 13) (q : Quad) (ea al len : Nat) (perms : List Nat) : Option Nat :=
  match q.unusable false with
  | some c => some c
  | none =>
    if misfit ea al then some fAlign
    else if !s.inBounds p q ea len then some fBounds
    else if !(perms.all q.perm) then some fPerm
    else none

/-- A SEC register, which only R459's writers write. -/
def inSec (a : Nat) : Bool := decide (0x01100000 ≤ a) && decide (a < 0x01110000) && (rowAt (a / 4 * 4)).isSome

/-- What a fault of an access counts: ALIGN where R8 or R12 refuses the access, and a refused write of a SEC register (R459). -/
def State.refusedAt (s : State) (code ea : Nat) (wr : Bool) : State :=
  if (code == fAlign && (wordsOnly ea || spaceOf ea == .none)) || (code == fPerm && wr && inSec ea) then s.badAcc else s

/-- KC_FADDR of a fault on an operand: its address for ALIGN, BOUNDS, PERM and TAG, else 0 (chapter 15). -/
def faultEa (code ea : Nat) : Nat := if code == fAlign || code == fBounds || code == fPerm || code == fTag then ea else 0

/-- The checks of an access at EA. `wr`: it writes. -/
def guardEa {α : Type} (s : State) (code : Option Nat) (ea : Nat) (wr : Bool) (k : Kr α) : Kr α :=
  match code with
  | none => k
  | some c => .fault (s.refusedAt c ea wr) c (faultEa c ea)

/-- The memory-operand modes (R209): the capability register and the EA; none where X or Y is not an ADDR. -/
def State.operand (s : State) (p : Fin 13) (i : Kn) : Option (Nat × Nat) :=
  let r := s.kr p
  let off := 4 * i.v.toNat
  let at_ (b : Nat) : Nat := (b + off) % 2 ^ 32
  match i.m with
  | 0 => some (1, at_ ((r.cap (s.actSet p) 1).lo + 256 * r.pg.toNat))
  | 1 => if r.x.tag == tagAddr then some (1, at_ r.x.v.toNat) else none
  | 2 => if r.y.tag == tagAddr then some (1, at_ r.y.v.toNat) else none
  | _ => some (2, at_ (r.set (s.actSet p)).dsp.toNat)

/-! What stands behind an address. -/

/-- Fault code of an access of a pair to a space, if it may not make it (R8, R12, R252, R291, R293); the block of an absent slice
answers every pair (R4). -/
def State.pairBars (s : State) (p : Fin 13) (x : Access) (a : Nat) (wr : Bool) (v : Word) : Option Nat :=
  let sys := p.val == 12
  if s.absentSlice a then none
  else match spaceOf a with
  | .slice n => if sys || n == p.val then none else some fPerm
  | .plain => if sys || !inSysArea a then none else some fPerm
  | .secure => if sys then none else some fPerm
  | .main _ => none
  | .none => some fAlign
  | .rom => if wr then some fPerm else none
  | .flash => if wr then some fPerm else none
  | .dataFlash => if wr then some fPerm else none
  | _ =>
    if wr && kcBars x a then some fPerm
    else if wr && a % 0x1000 == 0x100 && (kcPair a).isSome && v.toNat % 4 != 0 then some fPerm
    else if s.reach x a wr then none
    else some fPerm

/-- The first of k cells from a byte address upward that the pair may not read, with its fault. -/
def State.readBars (s : State) (p : Fin 13) (x : Access) (a k : Nat) : Option (Nat × Nat) :=
  (List.range k).findSome? (fun i => (s.pairBars p x (a + 4 * i) false 0).map (fun c => (c, a + 4 * i)))

/-- The first of the cells to write from a byte address upward that the pair may not write, with its fault. -/
def State.writeBars (s : State) (p : Fin 13) (x : Access) (a : Nat) (cs : List Cell) : Option (Nat × Nat) :=
  cs.zipIdx.findSome? (fun e => (s.pairBars p x (a + 4 * e.2) true e.1.v).map (fun c => (c, a + 4 * e.2)))

/-- The checks of several cells: the first that fails faults at its own address. -/
def guardSpan {α : Type} (s : State) (bar : Option (Nat × Nat)) (wr : Bool) (k : Kr α) : Kr α :=
  match bar with
  | none => k
  | some (c, a) => guardEa s (some c) a wr k

/-- An uncorrectable cell that a slice pair meets starts a recovery; the system pair, and a load from main memory, reads
EMPTY (R282, R299). -/
def State.pairCell (s : State) (p : Fin 13) (a : Nat) : Kr Cell :=
  let r := s.rd a
  if !r.ue then .ok r.st r.c
  else if h : p.val < 12 then
    if inMain a then .ok r.st emptyCell else .stall (r.st.recoverable ⟨p.val, h⟩ 4)
  else .ok r.st emptyCell

/-- An entry joins the replay log (R387). -/
def State.logged (s : State) (p : Fin 13) (i : LogItem) : State := s.setCore p { s.coreOf p with log := i :: (s.coreOf p).log }

/-- The tag of a register as an operand: a captured time is a TIME cell (R174). -/
def regTag (a : Nat) : BitVec 4 :=
  let o := (a - 0x02000000) % 0x100000
  if 0x02000000 ≤ a ∧ a < 0x02C00000 ∧ 0x144 ≤ o ∧ o < 0x184 ∧ a % 16 = 4 then tagTime else tagUint

/-- Read the cell at an aligned address that the pair may reach; the value joins the replay log. -/
def State.pairRead (s : State) (p : Fin 13) (x : Access) (a : Nat) : Kr Cell :=
  if s.accessWaits a then .stall s
  else
    (match spaceOf a with
    | .reg => regCell s a (s.busRead x a)
    | .mcs _ => regCell s a (s.busRead x a)
    | .rom => .ok s ⟨Config.romWord a, tagUint⟩
    | .flash => flashCell (s.flashGet a)
    | .dataFlash => flashCell (s.flashGet a)
    | .none => .fault s.badAcc fAlign a
    | _ => if s.absentSlice a then .ok s ⟨0, tagUint⟩ else s.pairCell p a : Kr Cell).andThen
      (fun t c => .ok (t.logged p (.read c)) c)
where
  flashCell (r : State × Option Word) : Kr Cell :=
    .ok r.1 (match r.2 with | some v => ⟨v, tagUint⟩ | none => emptyCell)
  regCell (s : State) (a : Nat) (r : Option (State × Word)) : Kr Cell :=
    match r with
    | some (t, v) => .ok t ⟨v, if s.absentSlice a then tagUint else regTag a⟩
    | none => .fault s fPerm a

/-- The trace post at an address: its queue and number (R472). -/
def postAt (a : Nat) : Option (Fin 13 × Nat) :=
  if 0x01110100 ≤ a ∧ a < 0x01110160 then some (12, (a - 0x01110100) / 4)
  else if h : 0x02000000 ≤ a ∧ a < 0x02C00000 ∧ 0xE100 ≤ (a - 0x02000000) % 0x100000 ∧ (a - 0x02000000) % 0x100000 < 0xE160 then
    some (⟨(a - 0x02000000) / 0x100000, by omega⟩, ((a - 0x02000000) % 0x100000 - 0xE100) / 4)
  else none

/-- Write the cell at an aligned address that the pair may reach: a memory cell, a trace post with its tag, or a register. -/
def State.pairWrite (s : State) (p : Fin 13) (x : Access) (a : Nat) (c : Cell) : Kr Unit :=
  if s.accessWaits a then .stall s
  else
    let s1 := s.logged p (.write a c)
    if isCells a then if s1.absentSlice a then .ok s1 () else .ok (s1.wr (some p) a c) ()
    else match postAt a with
      | some (e, k) => if s1.absentSlice a then .ok s1 () else .ok (s1.postStore e k c) ()
      | none => match s1.busWrite x a c.v with
        | some t => .ok t ()
        | none => .fault s1 fPerm a

/-! The store buffer (R238, R239). -/

def SbEntry.size : SbEntry → Nat
  | .cell _ _ => 4
  | .byte _ _ => 1
  | .half _ _ => 2

def SbEntry.overlaps (e : SbEntry) (a len : Nat) : Bool := decide (a < e.addr + e.size) && decide (e.addr < a + len)

def State.setSb (s : State) (p : Fin 13) (b : List SbEntry) : State := s.setKr p { s.kr p with sb := b }

/-- A narrow entry drains as a read-modify-write of its cell; the cell keeps its tag (R286). -/
def State.drainNarrow (s : State) (p : Fin 13) (a k v : Nat) : State :=
  if s.absentSlice a then s
  else match s.pairCell p a with
    | .ok t c => if narrowOk c.tag true then t.wr (some p) (a / 4 * 4) ⟨putBytes c.v (a % 4) k v, c.tag⟩ else t
    | .fault t _ _ => t
    | .stall t => t

/-- STORE_DRAIN: the oldest entry drains to memory, unless the memory stalls or the pair is rolled back (R387). -/
def State.storeDrain (s : State) (p : Fin 13) : State :=
  match (s.kr p).sb with
  | [] => s
  | e :: rest =>
    if s.memStalls e.addr || (decide (p.val < 12) && s.slState p == slRecovering) then s
    else
      let s1 := s.setSb p rest
      match e with
      | .cell a c => if s1.absentSlice a then s1 else s1.wr (some p) a c
      | .byte a b => s1.drainNarrow p a 1 b.toNat
      | .half a h => s1.drainNarrow p a 2 h.toNat

/-- Drain entries, oldest first, while `more` holds, at most k of them. -/
def State.drainWhile (s : State) (p : Fin 13) (more : List SbEntry → Bool) : Nat → State
  | 0 => s
  | k + 1 => if more (s.kr p).sb then (s.storeDrain p).drainWhile p more k else s

/-- Every entry that overlaps a span drains, in order (R239). -/
def State.drainSpan (s : State) (p : Fin 13) (a len : Nat) : Kr Unit :=
  let hit (b : List SbEntry) : Bool := b.any (fun e => e.overlaps a len)
  let t := s.drainWhile p hit 4
  if hit (t.kr p).sb then .stall t else .ok t ()

/-- The youngest entry that overlaps a cell, if it is a whole cell at its address. -/
def State.forwarded (s : State) (p : Fin 13) (a : Nat) : Option Cell :=
  match ((s.kr p).sb.reverse).find? (fun e => e.overlaps a 4) with
  | some (.cell b c) => if b = a then some c else none
  | _ => none

/-- A read of the cell at `a` loses it: it is uncorrectable, and the register loaded becomes EMPTY without a fault (R282, R299,
R409). -/
def State.lostAt (s : State) (p : Fin 13) (a : Nat) : Bool :=
  match spaceOf a with
  | .flash => (s.flashGet a).2.isNone
  | .dataFlash => (s.flashGet a).2.isNone
  | .main _ => (s.rd a).ue
  | .slice _ => p.val == 12 && !s.absentSlice a && (s.rd a).ue
  | .plain => p.val == 12 && (s.rd a).ue
  | .secure => (s.rd a).ue
  | _ => false

/-- What a load finds: the cell, and whether it was lost. -/
structure Loaded where
  c : Cell
  lost : Bool

/-- Read a cell from memory. -/
def State.pairFetch (s : State) (p : Fin 13) (x : Access) (a : Nat) : Kr Loaded :=
  (s.pairRead p x a).andThen (fun t c => .ok t ⟨c, s.lostAt p a⟩)

/-- A load of a whole cell through the store buffer. -/
def State.pairLoad (s : State) (p : Fin 13) (x : Access) (a : Nat) : Kr Loaded :=
  match s.forwarded p a with
  | some c => .ok s ⟨c, false⟩
  | none => (s.drainSpan p a 4).andThen (fun t _ => t.pairFetch p x a)

/-- An entry joins the buffer; a full one drains its oldest first. -/
def State.pairStore (s : State) (p : Fin 13) (e : SbEntry) : Kr Unit :=
  let t := if (s.kr p).sb.length < 4 then s else s.storeDrain p
  if (t.kr p).sb.length < 4 then .ok ((t.setSb p ((t.kr p).sb ++ [e])).logged p (.store e)) () else .stall t

/-! Loads and stores of operands. -/

/-- A data access is checked against the watchpoints of a slice (R470). -/
def State.watch (s : State) (p : Fin 13) (a len : Nat) (wr : Bool) (v : Word) : State :=
  if h : p.val < 12 then s.noteAccess ⟨p.val, h⟩ a len wr v else s

/-- The tag of a cell read as an operand (R213, R214). -/
def operandTag (q : Quad) (t : BitVec 4) : Option Nat :=
  if noValue t || t == tagCap then some fTag else if t == tagRaw && !q.perm pRaw then some fPerm else none

/-- Load the cell at EA through capability q, of whatever tag. -/
def State.loadAny (s : State) (p : Fin 13) (q : Quad) (ea : Nat) (perms : List Nat) : Kr Loaded :=
  let x := pairAccess p q
  guardEa s (s.eaFault p q ea 4 4 perms) ea false
    (guardEa s (s.pairBars p x ea false 0) ea false (s.pairLoad p x ea))

/-- Load an operand cell: a lost one is EMPTY, and faults as any EMPTY operand. -/
def State.loadOp (s : State) (p : Fin 13) (q : Quad) (ea : Nat) : Kr Cell :=
  (s.loadAny p q ea [pRead]).andThen (fun t l =>
    check t (operandTag q l.c.tag) ea (.ok (t.watch p ea 4 false l.c.v) l.c))

/-- Load a register: a lost cell leaves it EMPTY, and does not fault (R282). -/
def State.loadReg (s : State) (p : Fin 13) (q : Quad) (ea : Nat) : Kr Cell :=
  (s.loadAny p q ea [pRead]).andThen (fun t l =>
    check t (if l.lost then none else operandTag q l.c.tag) ea (.ok (t.watch p ea 4 false l.c.v) l.c))

/-- The cell that stands at an address before a store, without a read of it: narrow entries leave its tag. -/
def State.standing (s : State) (p : Fin 13) (a : Nat) : Cell :=
  let whole (e : SbEntry) : Option Cell := match e with
    | .cell b c => if b = a then some c else none
    | _ => none
  match ((s.kr p).sb.reverse).findSome? whole with
  | some c => c
  | none => if isCells a then s.cell a else ⟨0, tagUint⟩

/-- The tags of a store: CAP cells are out of reach, and RAW needs its permission (R214). -/
def State.storeTag (s : State) (p : Fin 13) (q : Quad) (ea : Nat) (c : Cell) : Option Nat :=
  let old := (s.standing p ea).tag
  if old == tagCap then some fTag
  else if (old == tagRaw || c.tag == tagRaw) && !q.perm pRaw then some fPerm
  else none

/-- The checks of a store of a cell at EA. -/
def State.storeFault (s : State) (p : Fin 13) (q : Quad) (ea : Nat) (perms : List Nat) (c : Cell) : Option Nat :=
  match s.eaFault p q ea 4 4 perms with
  | some f => some f
  | none => match s.pairBars p (pairAccess p q) ea true c.v with
    | some f => some f
    | none => s.storeTag p q ea c

/-- Store a cell at EA: memory cells through the store buffer, registers at once (R271). -/
def State.storeOp (s : State) (p : Fin 13) (q : Quad) (ea : Nat) (c : Cell) : Kr Unit :=
  guardEa s (s.storeFault p q ea [pWrite] c) ea true
    ((if isCells ea then s.pairStore p (.cell ea c) else s.pairWrite p (pairAccess p q) ea c).andThen
      (fun t _ => .ok (t.watch p ea 4 true c.v) ()))

/-- Store a cell at EA in one indivisible access, after every entry that overlaps it (R239). -/
def State.storeNow (s : State) (p : Fin 13) (q : Quad) (ea : Nat) (c : Cell) : Kr Unit :=
  guardEa s (s.storeFault p q ea [pWrite] c) ea true
    ((s.drainSpan p ea 4).andThen (fun t _ => (t.pairWrite p (pairAccess p q) ea c).andThen
      (fun u _ => .ok (u.watch p ea 4 true c.v) ())))

/-- Write cells that the pair may write, from a byte address upward. -/
def State.putCells (s : State) (p : Fin 13) (x : Access) (a : Nat) : List Cell → Kr Unit
  | [] => .ok s ()
  | c :: t => (s.pairWrite p x a c).andThen (fun u _ => u.putCells p x (a + 4) t)

/-- Write cells from a byte address upward, at once: all of them, or none where one is refused (R232). -/
def State.writeCells (s : State) (p : Fin 13) (x : Access) (a : Nat) (cs : List Cell) : Kr Unit :=
  guardSpan s (s.writeBars p x a cs) true (s.putCells p x a cs)

/-- Read k cells that the pair may read, from a byte address upward. -/
def State.getCells (s : State) (p : Fin 13) (x : Access) (a : Nat) : Nat → Kr (List Cell)
  | 0 => .ok s []
  | k + 1 => (s.pairLoad p x a).andThen (fun t l => (t.getCells p x (a + 4) k).andThen (fun u r => .ok u (l.c :: r)))

/-- Read k cells from a byte address upward, if the pair may read all of them. -/
def State.readCells (s : State) (p : Fin 13) (x : Access) (a k : Nat) : Kr (List Cell) :=
  guardSpan s (s.readBars p x a k) false (s.getCells p x a k)

/-- What an instruction does with k cells that it reads at `a` from state `s`: where it faults, registers that the reads cleared stand
as before (R232); a refusal that ALIGN counts stays counted. -/
def Kr.undoing {α : Type} (r : Kr α) (s : State) (a k : Nat) : Kr α :=
  match r with
  | .fault t code ea =>
    .fault (if code != fAlign && (List.range k).any (fun i => spaceOf (a + 4 * i) == .reg) then s else t) code ea
  | r => r

/-! Program memory and the fetch (R208, R232, R282). -/

/-- Whether program address `a` may be executed under C0 of set k. -/
def State.execFault (s : State) (p : Fin 13) (k a : Nat) : Option Nat :=
  let q := (s.kr p).cap k 0
  match q.unusable true with
  | some c => some c
  | none => if decide (q.lo ≤ a) && decide (a < q.hi) then (if q.perm pExec then none else some fPerm) else some fBounds

/-- An uncorrectable program word: it is counted, and its address, which is a free word, recorded; a slice goes to SAFE, and the
system pair halts (R282, R274; logs 13 and 171). -/
def State.fetchLost (s : State) (p : Fin 13) : State :=
  let s1 := ((s.setReg R.MEM_UE_ADDR (Config.freeWord s.free)).fresh).setF R.MEM_STAT F.MEM_STAT_UE_F 1
  if h : p.val < 12 then ((s1.count (R.MEM_SLC_ECC p) F.MEM_SLC_ECC_UE).fireLocal p 3).enterSafe ⟨p.val, h⟩ 6
  else ((s1.count R.MEM_ECC_CNT F.MEM_ECC_CNT_UE).fire 40).sysHalt

/-- The loop buffer is emptied (R237). -/
def State.emptyLoop (s : State) (p : Fin 13) : State := s.setCore p { s.coreOf p with lbuf := [] }

/-- Fetch is serialised: the loop buffer and the fetch queue are emptied (R226, R252). -/
def State.serialise (s : State) (p : Fin 13) : State := s.setCore p { s.coreOf p with lbuf := [], fq := none }

/-- A word of an active body is copied into the loop buffer as it is decoded (R237). -/
def State.bufferWord (s : State) (p : Fin 13) (a : Nat) (w : PWord) : State :=
  let c := s.coreOf p
  if c.r.inBody then s.setCore p { c with lbuf := (a, w) :: c.lbuf } else s

/-- A word of the group 4g to 4g + 3 of pair p is uncorrectable (R236, R282). -/
def State.groupLost (s : State) (p g : Nat) : Bool :=
  s.mem.pecc.any (fun e => e.2 && e.1 / 2 ^ 17 == p && e.1 % 2 ^ 17 / 4 == g)

/-- The fetch queue holds the group of the word at `a` (R236); a word that is not in it is fetched with its group. -/
def State.queueGroup (s : State) (p : Fin 13) (a : Nat) : State := s.setCore p { s.coreOf p with fq := some (a / 4) }

/-- The word at the PC: from the loop buffer, where it holds the word of an active body (R237), from the fetch queue, or with its
group of four from program memory (R236). -/
def State.fetchWord (s : State) (p : Fin 13) : Kr PWord :=
  let c := s.coreOf p
  let a := c.r.pc.toNat
  check s (s.execFault p (s.actSet p) a) a
    (match (if c.r.inBody then c.lbuf.find? (fun e => e.1 == a) else none) with
     | some e => .ok s e.2
     | none =>
       if c.fq != some (a / 4) && s.groupLost p (a / 4) then .stall (s.fetchLost p)
       else .ok ((s.queueGroup p a).bufferWord p a (s.progWord p a)) (s.progWord p a))

end Machine
end Sys2Proof
end

