-- ==== Sys2Proof/Machine/Handlers.lean ====
section
/-! DEFINITION. Stacks, calls, handler entry and return of a pair (R210, R221, R242, R253 to R269). -/

namespace Sys2Proof
namespace Machine

/-! Return and data stacks. -/

/-- C2 or C3 of set k has room for `bytes` more below the stack pointer `sp`, with the permissions of a push. -/
def Quad.roomFault (q : Quad) (sp : Nat) (bytes : Nat) : Option Nat :=
  match q.unusable false with
  | some c => some c
  | none =>
    if !(decide (q.lo + bytes ≤ sp) && decide (sp ≤ q.hi)) then some fBounds
    else if !q.perm pWrite then some fPerm
    else none

/-- Push cells onto the return stack of set k, the first at the lowest address (R210, R221), after every buffered store that
overlaps them (R238). -/
def State.pushRet (s : State) (p : Fin 13) (k : Nat) (cs : List Cell) : Kr Unit :=
  let r := s.kr p
  let q := r.cap k 3
  let sp := (r.set k).rsp.toNat
  let n := 4 * cs.length
  guardEa s (q.roomFault sp n) (sp - n) true
    ((s.drainSpan p (sp - n) n).andThen (fun s1 _ => (s1.writeCells p (pairAccess p q) (sp - n) cs).andThen (fun t _ =>
      let u := t.kr p
      .ok (t.setKr p (u.putSet k { u.set k with rsp := BitVec.ofNat 32 (sp - n) })) ())))

/-- Read the top k cells of the active return stack. -/
def State.topRet (s : State) (p : Fin 13) (k : Nat) : Kr (List Cell) :=
  let r := s.kr p
  let q := r.cap (s.actSet p) 3
  let sp := (r.set (s.actSet p)).rsp.toNat
  let bad := match q.unusable false with
    | some c => some c
    | none =>
      if !(decide (q.lo ≤ sp) && decide (sp + 4 * k ≤ q.hi)) then some fBounds
      else if !q.perm pRead then some fPerm
      else none
  guardEa s bad sp false (s.readCells p (pairAccess p q) sp k)

/-- A return that reads its k cells: it changes no register that its reads cleared, if it faults (R232). -/
def State.undoTop {α : Type} (s : State) (p : Fin 13) (k : Nat) (r : Kr α) : Kr α :=
  r.undoing s ((s.kr p).set (s.actSet p)).rsp.toNat k

/-- Raise RSP of the active set by k cells. -/
def State.dropRet (s : State) (p : Fin 13) (k : Nat) : State :=
  let r := s.kr p
  let a := s.actSet p
  s.setKr p (r.putSet a { r.set a with rsp := (r.set a).rsp + BitVec.ofNat 32 (4 * k) })

def State.setDsp (s : State) (p : Fin 13) (k : Nat) (v : Nat) : State :=
  let r := s.kr p
  s.setKr p (r.putSet k { r.set k with dsp := BitVec.ofNat 32 v })

/-- The cell a list holds at a place. -/
def cellAt (l : List Cell) (i : Nat) : Cell := l[i]?.getD emptyCell

/-- How the pair goes on after an instruction. -/
inductive Flow where
  /-- At the next word, or as the delay slot, the shadow or the loop says. -/
  | seq
  | goto (pc : Nat)
  /-- A branch: its delay slot follows, then the target if it is taken. -/
  | slot (target : Option Nat)
  /-- A prefix has been taken in. -/
  | pfx
  /-- CAPSW: its shadow follows, then the set. -/
  | shadow (set : Nat)
  /-- The instruction has set the PC itself. -/
  | done
  deriving DecidableEq, Repr

/-! Calls. -/

/-- The address of the word after the instruction. -/
def State.nextPc (s : State) (p : Fin 13) : Nat := ((s.kr p).pc.toNat + 1) % 2 ^ 17

def codeCell (a : Nat) : Cell := ⟨BitVec.ofNat 32 a, tagCode⟩
def uintCell (v : Nat) : Cell := ⟨BitVec.ofNat 32 v, tagUint⟩

/-- The target of a JUMP or CALL lies within C0, which holds EXEC (R221). -/
def State.target (s : State) (p : Fin 13) (t : Int) (k : Kr Flow) : Kr Flow :=
  match s.execFault p (s.actSet p) t.toNat with
  | some c => .fault s c 0
  | none => if t < 0 then .fault s fBounds 0 else k

def State.doCall (s : State) (p : Fin 13) (t : Int) : Kr Flow :=
  s.target p t ((s.pushRet p (s.actSet p) [codeCell (s.nextPc p)]).andThen (fun u _ => .ok u (.goto t.toNat)))

def State.doRet (s : State) (p : Fin 13) : Kr Flow :=
  s.undoTop p 1 ((s.topRet p 1).andThen (fun t cs =>
    let c := cellAt cs 0
    need t (c.tag == tagCode) fFrame 0 (.ok (t.dropRet p 1) (.goto (c.v.toNat % 2 ^ 17)))))

/-- KC_LINK.DEPTH follows the link stack. -/
def State.setLink (s : State) (p : Fin 13) (l : List (Nat × Nat)) : State :=
  (s.setKr p { s.kr p with link := l }).setF (R.KC_LINK p) F.KC_LINK_DEPTH l.length

/-- A LINK cell (R257). -/
def linkCell (a set : Nat) : Cell := uintCell (3 * 2 ^ 28 + set * 2 ^ 20 + a)

/-- A full link stack spills its oldest entry onto the return stack of the set of the next-oldest (R257). -/
def State.spill (s : State) (p : Fin 13) : Kr Unit :=
  let l := (s.kr p).link
  match l[3]?, l[2]? with
  | some (a, k), some (_, under) =>
    (s.pushRet p under [linkCell a k]).andThen (fun t _ =>
      .ok ((t.setLink p (l.take 3)).count (R.KC_LINK p) F.KC_LINK_SPILLS) ())
  | _, _ => .ok s ()

/-- FCALL k (R256). -/
def State.doFcall (s : State) (p : Fin 13) (k : Nat) : Kr Flow :=
  let a := R.KC_FPE p k
  need s (s.isSet a F.KC_FPE_VALID) fFpe 0
    (need s (natBit (s.getF a F.KC_FPE_CALLERS) (s.actSet p)) fPerm 0
      ((s.spill p).andThen (fun t _ =>
        let u := t.setLink p ((t.nextPc p, t.actSet p) :: (t.kr p).link)
        .ok (u.setActive p (u.getF a F.KC_FPE_SET)) (.goto (u.getF a F.KC_FPE_ENTRY)))))

/-- FRET (R257). -/
def State.doFret (s : State) (p : Fin 13) : Kr Flow :=
  match (s.kr p).link with
  | (a, k) :: t => .ok ((s.setLink p t).setActive p k) (.goto a)
  | [] =>
    s.undoTop p 1 ((s.topRet p 1).andThen (fun t cs =>
      let c := cellAt cs 0
      let w := c.v.toNat
      need t (c.tag == tagUint && w / 2 ^ 28 == 3) fFrame 0
        (.ok ((t.dropRet p 1).setActive p (w / 2 ^ 20 % 8)) (.goto (w % 2 ^ 17)))))

/-- A tag of a gate descriptor accepts an argument (R253): 0 any value but a CAP, another exactly itself; a reserved tag is no
value (R7). -/
def gateTagOk (want t : Nat) : Bool := !noValue (BitVec.ofNat 4 t) && (if want == 0 then t != 7 else want == t)

/-- The first of the arguments whose tag does not agree with the descriptor. -/
def gateArg (d0 : Nat) (args : List Cell) : Option Nat :=
  args.zipIdx.findSome? (fun e => if gateTagOk (d0 / 2 ^ (4 * e.2) % 16) e.1.tag.toNat then none else some e.2)

/-- The arguments on the caller's data stack: `n` cells from its DSP. -/
def State.stackArgs (s : State) (p : Fin 13) (n : Nat) : Kr (List Cell) :=
  if n = 0 then .ok s []
  else
    let r := s.kr p
    let q := r.cap (s.actSet p) 2
    let sp := (r.set (s.actSet p)).dsp.toNat
    let bad := match s.eaFault p q sp 4 4 [pRead] with
      | some c => some c
      | none => s.eaFault p q (sp + 4 * (n - 1)) 4 4 [pRead]
    guardEa s bad sp false (s.readCells p (pairAccess p q) sp n)

/-- GATE: every check has passed (R254, R255). -/
def State.gateEnter (s : State) (p : Fin 13) (k argc entry : Nat) (stacked : List Cell) : Kr Flow :=
  let caller := s.actSet p
  let r := s.kr p
  let n := stacked.length
  let dsp := (r.set k).dsp.toNat
  let q := r.cap k 2
  let frame : List Cell := [uintCell (2 * 2 ^ 28 + caller * 2 ^ 20 + argc), codeCell (s.nextPc p), ⟨BitVec.ofNat 32 dsp, tagAddr⟩]
  (s.drainSpan p (dsp - 4 * n) (4 * n)).andThen (fun s1 _ => (s1.writeCells p (pairAccess p q) (dsp - 4 * n) stacked).andThen (fun t _ =>
    ((t.setDsp p k (dsp - 4 * n)).pushRet p k frame).andThen (fun u _ =>
      let v := u.setDsp p caller (((u.kr p).set caller).dsp.toNat + 4 * n)
      let r := v.kr p
      let r1 : CoreRegs := { r with
        a := if 1 ≤ argc then r.a else 0
        atag := if 1 ≤ argc then r.atag else tagEmpty
        x := if 2 ≤ argc then r.x else emptyCell
        y := if 3 ≤ argc then r.y else emptyCell }
      .ok ((v.setKr p r1).setActive p k) (.goto entry))))

/-- The checks of the callee's set k (R254), with the address of the stack cells that the fault concerns; a call without stacked
arguments asks no room of its data stack (log 112). -/
def State.calleeFault (s : State) (p : Fin 13) (k entry n : Nat) : Option (Nat × Nat) :=
  let x := (s.kr p).set k
  match s.execFault p k entry with
  | some c => some (c, 0)
  | none => match if n = 0 then none else ((s.kr p).cap k 2).roomFault x.dsp.toNat (4 * n) with
    | some c => some (c, x.dsp.toNat - 4 * n)
    | none => (((s.kr p).cap k 3).roomFault x.rsp.toNat 12).map (fun c => (c, x.rsp.toNat - 12))

/-- The registers as the first three arguments of a gate. -/
def CoreRegs.args (r : CoreRegs) : List Cell := [⟨r.a.setWidth 32, r.atag⟩, r.x, r.y]

/-- GATE with its descriptor: arguments, then the callee (R254). A descriptor with a bit set that R253 gives as zero, or with
ARGC = 7, raises TAG (log 45). -/
def State.gateCall (s : State) (p : Fin 13) (at_ : Nat) (ds : List Cell) : Kr Flow :=
  let d0 := cellAt ds 0
  let d1 := cellAt ds 1
  let d2 := cellAt ds 2
  let w := d0.v.toNat
  let k := d2.v.toNat % 8
  let argc := w / 2 ^ 29
  let shape := d0.tag == tagUint && d1.tag == tagCode && d2.tag == tagUint && argc != 7 && w / 2 ^ 24 % 32 == 0 &&
    d2.v.toNat / 8 == 0
  let sp := ((s.kr p).set (s.actSet p)).dsp.toNat
  need s shape fTag at_ (Kr.undoing ((s.stackArgs p (argc - 3)).andThen (fun t st =>
    match gateArg w ((t.kr p).args.take argc ++ st) with
    | some i => .fault t fTag (if i < 3 then 0 else sp + 4 * (i - 3))
    | none => match t.calleeFault p k d1.v.toNat st.length with
      | some (c, a) => .fault t c (faultEa c a)
      | none => t.gateEnter p k argc d1.v.toNat st)) s sp (argc - 3))

/-- What bars a gate capability (R253, R254). -/
def Quad.gateFault (g : Quad) : Option Nat :=
  if !g.valid || g.program then some fCapInvalid
  else if !g.closed then some fClosed
  else if !g.perm pGate then some fPerm
  else if g.lo % 4 != 0 then some fAlign
  else if g.hi < g.lo + 12 then some fBounds
  else none

/-- GATE n (R253, R254). -/
def State.doGate (s : State) (p : Fin 13) (n : Nat) : Kr Flow :=
  let g := (s.kr p).cap (s.actSet p) n
  let x := pairAccess p g
  let ea := match g.gateFault with
    | some c => if c == fAlign || c == fBounds then g.lo else 0
    | none => 0
  guardEa s g.gateFault ea false
    (Kr.undoing ((s.readCells p x g.lo 3).andThen (fun t ds => t.gateCall p g.lo ds)) s g.lo 3)

/-- GRET (R255). -/
def State.doGret (s : State) (p : Fin 13) : Kr Flow :=
  s.undoTop p 3 ((s.topRet p 1).andThen (fun s cs =>
    let g0 := cellAt cs 0
    need s (g0.tag == tagUint && g0.v.toNat / 2 ^ 28 == 2) fFrame 0
      ((s.topRet p 3).andThen (fun s cs =>
        let g1 := cellAt cs 1
        let g2 := cellAt cs 2
        need s (g1.tag == tagCode && g2.tag == tagAddr) fFrame 0
          (let t := (s.dropRet p 3).setDsp p (s.actSet p) g2.v.toNat
           .ok (t.setActive p (g0.v.toNat / 2 ^ 20 % 8)) (.goto (g1.v.toNat % 2 ^ 17)))))))

/-! Handler entry (R258 to R265). -/

/-- Base of the emergency stack (R264). -/
def emergencyBase (p : Nat) : Nat := if p < 12 then smem p 0x7FC00 else 0x0E727C00

/-- FSTAT (R260). -/
def fstat (level set : Nat) (ds shadow emerg : Bool) (code src : Nat) : Nat :=
  2 ^ 28 + level * 2 ^ 23 + set * 2 ^ 20 + b2n ds * 2 ^ 19 + b2n shadow * 2 ^ 18 + b2n emerg * 2 ^ 16 + code * 2 ^ 10 + src

/-- The frame (R259). -/
def frameCells (r : CoreRegs) (st pc : Nat) : List Cell :=
  [uintCell st, codeCell pc, ⟨r.a.setWidth 32, r.atag⟩, uintCell (r.pg.toNat * 65536 + r.a.toNat / 2 ^ 32), r.x, r.y,
    ⟨r.lcount, tagUint⟩, uintCell ((r.lend.toNat - r.lstart.toNat) % 32 * 2 ^ 27 + r.lend.toNat)]

/-- The instruction's address, at which a fault or interrupt saves the PC: the branch of a delay slot, the CAPSW of a
shadow, or the first prefix (R220, R266, R267). -/
def CoreSt.savedPc (c : CoreSt) : Nat :=
  match c.slot, c.shadow with
  | some (b, _), _ => b
  | none, some (b, _) => b
  | none, none => if c.pfx.isEmpty then c.r.pc.toNat else c.pfxPc

/-- The registers that a frame saves: LOOP_COUNT as the instruction at the saved PC finds it (R266). -/
def CoreSt.savedRegs (c : CoreSt) : CoreRegs := if c.slot.isSome then { c.r with lcount := c.slotCount } else c.r

/-- C3 of the handler set takes a frame (R264). -/
def takesFrame (r : CoreRegs) (k : Nat) : Bool :=
  let q := r.cap k 3
  q.unusable false == none && q.perm pRead && q.perm pWrite && decide (q.lo + 32 ≤ (r.set k).rsp.toNat) &&
    decide ((r.set k).rsp.toNat ≤ q.hi)

/-- The 33rd frame on the emergency stack: the pair halts (R265). -/
def State.emergencyFault (s : State) (p : Fin 13) : State :=
  if h : p.val < 12 then ((s.haltPair p).fireLocal p 1).enterSafe ⟨p.val, h⟩ 5 else s.sysHalt

/-- The last steps of an entry: the loop and what was in progress end, and the pair goes on at vector v (R258). -/
def State.atVector (s : State) (p : Fin 13) (v : Nat) : State :=
  let c := s.coreOf p
  let pc := s.getF (R.KC_VEC p) F.KC_VEC_BASE + 4 * v
  (s.setCore p { c with r := { c.r with lcount := 0, pc := BitVec.ofNat 17 pc }, pfx := [], slot := none, shadow := none,
                        lock := none, wfe := false, lbuf := [], fq := none }).count (R.KC_FAULT p) F.KC_FAULT_NEST

/-- A fault is recorded (R258, R264). -/
def State.noteFault (s : State) (p : Fin 13) (code cause2 ea set pc : Nat) (ds shadow : Bool) : State :=
  let a := R.KC_FAULT p
  let s1 := ((s.setF a F.KC_FAULT_VALID 1).setF a F.KC_FAULT_CODE code).setF a F.KC_FAULT_CAUSE2 cause2
  (s1.setReg (R.KC_FADDR p) (BitVec.ofNat 32 ea)).setReg (R.KC_FPC p)
    (F.KC_FPC_SHADOW.word (b2n shadow) ||| F.KC_FPC_SET.word set ||| F.KC_FPC_DS.word (b2n ds) ||| F.KC_FPC_PC.word pc)

/-- Write the cells of a frame from a byte address: each that the pair may write (log 172); none while the memory stalls. -/
def State.frameCellsAt (s : State) (p : Fin 13) (x : Access) (a : Nat) : List Cell → Option State
  | [] => some s
  | c :: t =>
    match (if (s.pairBars p x a true c.v).isSome then .ok s () else s.pairWrite p x a c) with
    | .ok u _ => u.frameCellsAt p x (a + 4) t
    | .fault u _ _ => u.frameCellsAt p x (a + 4) t
    | .stall _ => none

/-- Write a frame, and go on; the entry waits while the memory of the stack stalls (R241, R293, R294). -/
def State.frameWrite (s : State) (p : Fin 13) (q : Quad) (a : Nat) (cs : List Cell) (next : State → State) : State :=
  match s.frameCellsAt p (pairAccess p q) a cs with
  | some t => next t
  | none => s

/-- Entry with a frame on the emergency stack: STACK_FAULT, at the fault vector. -/
def State.enterEmergency (s : State) (p : Fin 13) (code ea : Nat) : State :=
  let c := s.coreOf p
  if 32 ≤ c.r.efr then s.emergencyFault p
  else
    let set := s.actSet p
    let ds := c.slot.isSome
    let sh := c.shadow.isSome
    let st := fstat (s.getF (R.KC_CSEL p) F.KC_CSEL_LEVEL) set ds sh true fStack 0
    s.frameWrite p emptyQuad (emergencyBase p + 1024 - 32 * (c.r.efr + 1)) (frameCells c.savedRegs st c.savedPc) (fun s1 =>
      let s2 := s1.setActive p (s.getF (R.KC_VEC p) F.KC_VEC_HSET)
      let s3 := (s2.setKr p { s2.kr p with efr := c.r.efr + 1 }).setF (R.KC_CSEL p) F.KC_CSEL_EMERG 1
      (s3.noteFault p fStack code ea set c.savedPc ds sh).atVector p 0)

/-- Entry with a frame on the return stack of the handler set. `int`: priority and route of the message of an interrupt, which is
delivered with the entry. -/
def State.enterFrame (s : State) (p : Fin 13) (code ea : Nat) (int : Option (Nat × Nat)) : State :=
  let c := s.coreOf p
  let set := s.actSet p
  let hs := s.getF (R.KC_VEC p) F.KC_VEC_HSET
  let ds := c.slot.isSome
  let sh := c.shadow.isSome
  let src := match int with | some (_, r) => (s.route r).src | none => 0
  let st := fstat (s.getF (R.KC_CSEL p) F.KC_CSEL_LEVEL) set ds sh false code src
  let q := c.r.cap hs 3
  let sp := (c.r.set hs).rsp.toNat - 32
  s.frameWrite p q sp (frameCells c.savedRegs st c.savedPc) (fun t =>
    let s1 := t.setActive p hs
    let r := s1.kr p
    let s2 := s1.setKr p (r.putSet hs { r.set hs with rsp := BitVec.ofNat 32 sp })
    match int with
    | some (prio, src) => (((s2.deliver src).setF (R.KC_CSEL p) F.KC_CSEL_LEVEL prio).atVector p (1 + prio)).logged p (.event src c.retired)
    | none => (s2.noteFault p code 0 ea set c.savedPc ds sh).atVector p 0)

/-- A fault with a code and KC_FADDR enters its handler (R258); an attached result that is pending is waited for (R224). -/
def State.faultEntry (s : State) (p : Fin 13) (code ea : Nat) : State :=
  let c := s.coreOf p
  if c.att then s
  else if s.isSet (R.KC_CSEL p) F.KC_CSEL_EMERG || !takesFrame c.r (s.getF (R.KC_VEC p) F.KC_VEC_HSET) then
    s.enterEmergency p code ea
  else s.enterFrame p code ea none

/-- The message that an entry takes: latched, above the level, with frames not on the emergency stack (R264, R307). -/
def State.ready (s : State) (p : Fin 13) (level : Nat) : Option Nat :=
  if s.isSet (R.KC_CSEL p) F.KC_CSEL_EMERG then none
  else match s.bestFor p with
    | some r => if (s.routeTgt r).prio < level then some r else none
    | none => none

/-- An interrupt enters its handler; where no frame fits, the entry is a STACK_FAULT and the message stays pending. -/
def State.interruptEntry (s : State) (p : Fin 13) (r : Nat) : State :=
  let c := s.coreOf p
  if !takesFrame c.r (s.getF (R.KC_VEC p) F.KC_VEC_HSET) then s.enterEmergency p 0 0
  else s.enterFrame p 0 0 (some ((s.routeTgt r).prio, r))

/-! Return (R242, R262, R264, R308). -/

/-- Restore a frame. -/
def State.restore (s : State) (p : Fin 13) (f : List Cell) : State :=
  let st := (cellAt f 0).v.toNat
  let a := cellAt f 2
  let w3 := (cellAt f 3).v.toNat
  let w7 := (cellAt f 7).v.toNat
  let lend := w7 % 2 ^ 17
  let r : CoreRegs := { s.kr p with
    a := BitVec.ofNat 40 (w3 % 256 * 2 ^ 32 + a.v.toNat), atag := a.tag
    x := cellAt f 4, y := cellAt f 5
    pg := BitVec.ofNat 16 (w3 / 65536)
    pc := BitVec.ofNat 17 (cellAt f 1).v.toNat
    lcount := (cellAt f 6).v
    lend := BitVec.ofNat 17 lend
    lstart := BitVec.ofNat 17 (lend - w7 / 2 ^ 27) }
  let s1 := ((s.setKr p r).setF (R.KC_CSEL p) F.KC_CSEL_LEVEL (st / 2 ^ 23 % 32)).setActive p (st / 2 ^ 20 % 8)
  let n := s1.getF (R.KC_FAULT p) F.KC_FAULT_NEST
  let s2 := s1.setF (R.KC_FAULT p) F.KC_FAULT_NEST (n - 1)
  if st / 2 ^ 10 % 64 == 0 then
    match s2.activeRoute p (st % 2 ^ 10) with
    | some k => s2.complete k
    | none => s2
  else s2

/-- A frame's cell 0. -/
def isFrame (c : Cell) : Bool := c.tag == tagUint && c.v.toNat / 2 ^ 28 == 1

/-- The chaining case of R242: the pending handler is entered without a frame being read or written. -/
def State.chain (s : State) (p : Fin 13) (r : Nat) : State :=
  let prio := (s.routeTgt r).prio
  let s1 := ((s.deliver r).setActive p (s.getF (R.KC_VEC p) F.KC_VEC_HSET)).setF (R.KC_CSEL p) F.KC_CSEL_LEVEL prio
  let c := s1.coreOf p
  (s1.setCore p { c with r := { c.r with lcount := 0,
                                         pc := BitVec.ofNat 17 (s1.getF (R.KC_VEC p) F.KC_VEC_BASE + 4 * (1 + prio)) }
                         lbuf := [], fq := none }).logged p (.event (s.route r).src c.retired)

/-- RFE from the emergency stack. -/
def State.rfeEmergency (s : State) (p : Fin 13) : Kr Flow :=
  let k := (s.kr p).efr
  (s.readCells p (pairAccess p emptyQuad) (emergencyBase p + 1024 - 32 * k) 8).andThen (fun t f =>
    need t (isFrame (cellAt f 0)) fFrame 0
      (let u := t.restore p f
       let v := u.setKr p { u.kr p with efr := k - 1 }
       .ok (if k == 1 then v.setF (R.KC_CSEL p) F.KC_CSEL_EMERG 0 else v) .done))

/-- The message that an RFE chains to: its priority is above the level of the frame at the top of the active return stack, which is
known without a read of the frame (R242, log 173), and no locked sequence is open (R227). -/
def State.chained (s : State) (p : Fin 13) : Option Nat :=
  let c0 := s.cell ((s.kr p).set (s.actSet p)).rsp.toNat
  if (s.coreOf p).lock.isNone && isFrame c0 then s.ready p (c0.v.toNat / 2 ^ 23 % 32) else none

/-- RFE (R262). -/
def State.doRfe (s : State) (p : Fin 13) : Kr Flow :=
  if (s.kr p).efr != 0 then s.rfeEmergency p
  else match s.chained p with
    | some r => .ok (s.chain p r) .done
    | none =>
      s.undoTop p 8 ((s.topRet p 1).andThen (fun t cs =>
        need t (isFrame (cellAt cs 0)) fFrame 0
          ((t.topRet p 8).andThen (fun u f => .ok ((u.dropRet p 8).restore p f) .done))))

end Machine
end Sys2Proof
end

