-- ==== Sys2Proof/Machine/KnMem.lean ====
section
/-! DEFINITION. Core instructions that load and store (R212 to R214, R219, R227 to R231, R285 to R287): memory-operand and
legacy instructions, pushes and pops, the locked sequence, narrow and unaligned access. -/

namespace Sys2Proof
namespace Machine

/-! Writing A, X and Y. -/

def State.setA (s : State) (p : Fin 13) (a : BitVec 40) (t : BitVec 4) : State := s.setKr p { s.kr p with a := a, atag := t }
def State.setX (s : State) (p : Fin 13) (c : Cell) : State := s.setKr p { s.kr p with x := c }
def State.setY (s : State) (p : Fin 13) (c : Cell) : State := s.setKr p { s.kr p with y := c }

/-- A takes a cell (R211). -/
def State.loadA (s : State) (p : Fin 13) (c : Cell) : State := s.setA p (extendCell c) c.tag

/-- A as a cell (R211). -/
def CoreRegs.acell (r : CoreRegs) : Cell := ⟨storeWord r.a r.atag, r.atag⟩

/-- A free value of A (log 13). -/
def freeA (k : Nat) : BitVec 40 := (Config.freeWord k).setWidth 40 ||| ((Config.freeWord (k + 1)).setWidth 40 <<< 32)

/-- A takes a result; a value that the spec does not state is free (log 13). -/
def State.aResult (s : State) (p : Fin 13) (r : ARes) (ea : Nat) : Kr Flow :=
  match r with
  | .bad => .fault s fTag ea
  | .val x t => .ok (s.setA p x t) .seq
  | .open_ t =>
    .ok (s.fresh.fresh.setA p (freeA s.free) t) .seq

/-- The capability of a memory operand. -/
def State.quadAt (s : State) (p : Fin 13) (n : Nat) : Quad := (s.kr p).cap (s.actSet p) n

/-- An instruction with a memory operand: X or Y of its address must be an ADDR (R209). -/
def State.withEa (s : State) (p : Fin 13) (i : Kn) (k : Quad → Nat → Kr Flow) : Kr Flow :=
  match s.operand p i with
  | none => .fault s fTag 0
  | some (n, ea) => k (s.quadAt p n) ea

/-- The first LDA, LDX or LDY of a locked sequence reserves its cell (R227). -/
def State.reserve (s : State) (p : Fin 13) (ea : Nat) : State :=
  let c := s.coreOf p
  match c.lock with
  | some l => if l.resv.isNone then s.setCore p { c with lock := some { l with resv := some ea, good := true } } else s
  | none => s

/-! Memory-operand class (R212). -/

/-- LDA, LDX, LDY: `put` writes the register. -/
def State.doLoad (s : State) (p : Fin 13) (i : Kn) (put : State → Cell → State) : Kr Flow :=
  s.withEa p i (fun q ea => (s.loadReg p q ea).andThen (fun t c => .ok ((put t c).reserve p ea) .seq))

/-- STA, STX, STY of a cell. -/
def State.doStore (s : State) (p : Fin 13) (i : Kn) (c : Cell) : Kr Flow :=
  need s (!noValue c.tag) fTag 0 (s.withEa p i (fun q ea => (s.storeOp p q ea c).andThen (fun t _ => .ok t .seq)))

/-- An operation of A with its operand. -/
def State.doArith (s : State) (p : Fin 13) (i : Kn) (f : CoreRegs → Cell → ARes) : Kr Flow :=
  need s (!noValue (s.kr p).atag) fTag 0
    (s.withEa p i (fun q ea => (s.loadOp p q ea).andThen (fun t c => t.aResult p (f (t.kr p) c) ea)))

/-- MACX reads X too. -/
def State.doMacx (s : State) (p : Fin 13) (i : Kn) : Kr Flow :=
  need s (!noValue (s.kr p).x.tag) fTag 0 (s.doArith p i (fun r c => kMacx r.a r.atag r.x c))

/-- XCH: one indivisible access, after every entry that overlaps the cell. -/
def State.doXch (s : State) (p : Fin 13) (i : Kn) : Kr Flow :=
  let a := (s.kr p).acell
  need s (!noValue a.tag) fTag 0
    (s.withEa p i (fun q ea =>
      guardEa s (s.eaFault p q ea 4 4 [pRead, pWrite]) ea true
        (guardEa s (s.pairBars p (pairAccess p q) ea true a.v) ea true
          ((s.drainSpan p ea 4).andThen (fun t _ => (t.pairRead p (pairAccess p q) ea).andThen (fun u c =>
            check u (operandTag q c.tag) ea
              (check u (if a.tag == tagRaw && !q.perm pRaw then some fPerm else none) ea
                ((u.pairWrite p (pairAccess p q) ea a).andThen (fun v _ =>
                  .ok (((v.watch p ea 4 false c.v).watch p ea 4 true a.v).loadA p c) .seq)))))))))

/-- A class 0b01 instruction. -/
def State.doMem (s : State) (p : Fin 13) (i : Kn) : Kr Flow :=
  let r := s.kr p
  match i.op with
  | .lda => s.doLoad p i (fun t c => t.loadA p c)
  | .sta => s.doStore p i r.acell
  | .add => s.doArith p i (fun r c => kAdd false false r.a r.atag c)
  | .sub => s.doArith p i (fun r c => kAdd true false r.a r.atag c)
  | .adds => s.doArith p i (fun r c => kAdd false true r.a r.atag c)
  | .subs => s.doArith p i (fun r c => kAdd true true r.a r.atag c)
  | .mul => s.doArith p i (fun r c => kMul r.a r.atag c)
  | .macx => s.doMacx p i
  | .and => s.doArith p i (fun r c => kLogic (· &&& ·) r.a r.atag c)
  | .or => s.doArith p i (fun r c => kLogic (· ||| ·) r.a r.atag c)
  | .xor => s.doArith p i (fun r c => kLogic (· ^^^ ·) r.a r.atag c)
  | .ldx => s.doLoad p i (fun t c => t.setX p c)
  | .stx => s.doStore p i r.x
  | .ldy => s.doLoad p i (fun t c => t.setY p c)
  | .sty => s.doStore p i r.y
  | _ => s.doXch p i

/-- What a legacy word executes (R230). -/
def legacyForm (op : KOp) : KOp :=
  match op with
  | .llda => .lda
  | .lsta => .sta
  | .ladd => .add
  | .lsub => .sub
  | .land => .and
  | .lor => .or
  | _ => .xor

/-- A class 0b00 word (R230, R231). -/
def State.doLegacy (s : State) (p : Fin 13) (i : Kn) : Kr Flow :=
  match legacyCond (s.kr p) i.m with
  | none => .fault s fTag 0
  | some false => .ok s .seq
  | some true =>
    if i.op == .jmpp then .ok s (.slot (some ((s.kr p).pc.toNat / 64 * 64 + i.v.toNat)))
    else s.doMem p ⟨legacyForm i.op, 0, i.v, 0, 0⟩

/-! Data stack (R210, R219). -/

def State.dspOf (s : State) (p : Fin 13) : Nat := ((s.kr p).set (s.actSet p)).dsp.toNat

def State.doPush (s : State) (p : Fin 13) (c : Cell) : Kr Flow :=
  let d := s.dspOf p
  need s (!noValue c.tag) fTag 0
    (need s (decide (4 ≤ d)) fBounds 0
      ((s.storeOp p (s.quadAt p 2) (d - 4) c).andThen (fun t _ => .ok (t.setDsp p (t.actSet p) (d - 4)) .seq)))

def State.doPop (s : State) (p : Fin 13) (put : State → Cell → State) : Kr Flow :=
  let d := s.dspOf p
  (s.loadReg p (s.quadAt p 2) d).andThen (fun t c => .ok (put (t.setDsp p (t.actSet p) (d + 4)) c) .seq)

/-! Store-conditional (R227). -/

/-- The sequence is open, and its reservation stands on the cell. -/
def CoreSt.holds (c : CoreSt) (ea : Nat) : Bool :=
  match c.lock with
  | some l => l.good && l.resv == some ea
  | none => false

def State.endLock (s : State) (p : Fin 13) : State := s.setCore p { s.coreOf p with lock := none }

def State.doSc (s : State) (p : Fin 13) (i : Kn) : Kr Flow :=
  let a := (s.kr p).acell
  need s (!noValue a.tag) fTag 0
    (s.withEa p i (fun q ea =>
      guardEa s (s.storeFault p q ea [pWrite] a) ea true
        (if (s.coreOf p).holds ea then
          (s.storeNow p q ea a).andThen (fun t _ => .ok ((t.endLock p).setX p (uintCell 1)) .seq)
        else (s.drainSpan p ea 4).andThen (fun t _ => .ok ((t.endLock p).setX p (uintCell 0)) .seq))))

/-! Narrow and unaligned access (R228, R285 to R287). -/

/-- EA of a NARROW operation; none where X is not an ADDR. -/
def State.narrowEa (s : State) (p : Fin 13) (i : Kn) : Option Nat :=
  let x := (s.kr p).x
  if x.tag == tagAddr then some ((x.v.toNat + i.v.toNat) % 2 ^ 32) else none

/-- The checks of a narrow access of k bytes at EA. -/
def State.narrowFault (s : State) (p : Fin 13) (q : Quad) (ea k : Nat) (perms : List Nat) (wr : Bool) : Option Nat :=
  match s.eaFault p q ea k k perms with
  | some f => some f
  | none => s.pairBars p (pairAccess p q) ea wr 0

/-- LDB and LDH of k bytes: the tag is that of the cell; a lost cell leaves A EMPTY (R282). -/
def State.doLdNarrow (s : State) (p : Fin 13) (i : Kn) (k : Nat) : Kr Flow :=
  match s.narrowEa p i with
  | none => .fault s fTag 0
  | some ea =>
    let q := s.quadAt p 1
    guardEa s (s.narrowFault p q ea k [pRead] false) ea false
      ((s.drainSpan p ea k).andThen (fun t _ => (t.pairFetch p (pairAccess p q) (ea / 4 * 4)).andThen (fun u l =>
        let c := l.c
        let n := getBytes c.v (ea % 4) k
        let v : BitVec 40 := if c.tag == tagInt then BitVec.ofInt 40 (toSigned (8 * k) n) else BitVec.ofNat 40 n
        if l.lost then .ok ((u.watch p ea k false 0).loadA p emptyCell) .seq
        else if c.tag == tagRaw && !q.perm pRaw then .fault u fPerm ea
        else need u (narrowOk c.tag true) fTag ea (.ok ((u.watch p ea k false (BitVec.ofNat 32 n)).setA p v c.tag) .seq))))

/-- What bars a narrow store into a cell of tag t (R286). -/
def narrowTag (q : Quad) (t : BitVec 4) : Option Nat :=
  if narrowOk t (q.perm pRaw) then none else if t == tagRaw then some fPerm else some fTag

/-- What bars a narrow store at EA by the tag of its cell; an absent slice discards it without a fault (R4). -/
def State.narrowBar (s : State) (p : Fin 13) (q : Quad) (ea : Nat) : Option Nat :=
  if s.absentSlice ea then none else narrowTag q (s.standing p (ea / 4 * 4)).tag

/-- STB and STH. -/
def State.doStNarrow (s : State) (p : Fin 13) (i : Kn) (k : Nat) : Kr Flow :=
  let r := s.kr p
  match s.narrowEa p i with
  | none => .fault s fTag 0
  | some ea =>
    let q := s.quadAt p 1
    let e : SbEntry := if k == 1 then .byte ea (r.a.setWidth 8) else .half ea (r.a.setWidth 16)
    need s (narrowOk r.atag true) fTag 0
      (guardEa s (s.narrowFault p q ea k [pWrite] true) ea true
        (check s (s.narrowBar p q ea) ea
          ((s.pairStore p e).andThen (fun t _ =>
            .ok (t.watch p ea k true (BitVec.ofNat 32 (r.a.toNat % 2 ^ (8 * k)))) .seq))))

/-- The tag of an unaligned LDU over two cells (R287). -/
def lduTag (q : Quad) (a b : BitVec 4) : Option Nat :=
  if a != b then some fTag
  else if a == tagInt || a == tagUint || a == tagQ31 || a == tagFrac2 then none
  else if a == tagRaw then if q.perm pRaw then none else some fPerm
  else some fTag

/-- The checks of an unaligned LDU: neither cell may lie where only whole words go (R8), and the pair reaches both. -/
def State.lduFault (s : State) (p : Fin 13) (q : Quad) (ea : Nat) : Option Nat :=
  let a := ea / 4 * 4
  match s.eaFault p q ea 1 4 [pRead] with
  | some f => if (q.unusable false).isNone && decide (a + 4 < 2 ^ 32) && wordsOnly (a + 4) then some fAlign else some f
  | none =>
    if wordsOnly (a + 4) then some fAlign
    else match s.pairBars p (pairAccess p q) a false 0 with
      | some f => some f
      | none => s.pairBars p (pairAccess p q) (a + 4) false 0

/-- LDU at an address that is not a multiple of 4; a lost cell leaves A EMPTY (R282). -/
def State.lduSplit (s : State) (p : Fin 13) (q : Quad) (ea : Nat) : Kr Flow :=
  let x := pairAccess p q
  let a := ea / 4 * 4
  let sh := 8 * (ea % 4)
  (s.drainSpan p ea 4).andThen (fun t _ => (t.pairFetch p x a).andThen (fun u lo => (u.pairFetch p x (a + 4)).andThen (fun v hi =>
    let w : Word := (lo.c.v >>> sh) ||| (hi.c.v <<< (32 - sh))
    if lo.lost || hi.lost then .ok ((v.watch p ea 4 false 0).loadA p emptyCell) .seq
    else check v (lduTag q lo.c.tag hi.c.tag) ea (.ok ((v.watch p ea 4 false w).loadA p ⟨w, lo.c.tag⟩) .seq))))

/-- The cell of an unaligned LDU at EA that R8 or R12 refuses: the first, or else the second. -/
def lduCell (ea : Nat) : Nat := if wordsOnly ea || spaceOf ea == .none then ea else ea / 4 * 4 + 4

/-- An unaligned LDU with its checks; a refusal is counted (R8, R12), and KC_FADDR holds EA. -/
def State.lduChecked (s : State) (p : Fin 13) (q : Quad) (ea : Nat) : Kr Flow :=
  match s.lduFault p q ea with
  | none => s.lduSplit p q ea
  | some f => .fault (s.refusedAt f (lduCell ea) false) f (faultEa f ea)

def State.doLdu (s : State) (p : Fin 13) (i : Kn) : Kr Flow :=
  match s.narrowEa p i with
  | none => .fault s fTag 0
  | some ea =>
    let q := s.quadAt p 1
    if ea % 4 = 0 then (s.loadReg p q ea).andThen (fun t c => .ok ((t.loadA p c).reserve p ea) .seq)
    else s.lduChecked p q ea

end Machine
end Sys2Proof
end

