-- ==== Sys2Proof/Machine/KnCtl.lean ====
section
/-! DEFINITION. Core instructions that move, branch, loop, retag, and the capability, long and attached-unit instructions
(R215 to R226, R229, R248 to R251, R144, R145). -/

namespace Sys2Proof
namespace Machine

/-! Moves (R219). -/

/-- A register that is not EMPTY moves. -/
def State.move (s : State) (t : BitVec 4) (u : State) : Kr Flow := need s (!noValue t) fTag 0 (.ok u .seq)

/-- SWXY. -/
def State.doSwxy (s : State) (p : Fin 13) : Kr Flow :=
  let r := s.kr p
  need s (!noValue r.x.tag && !noValue r.y.tag) fTag 0 (.ok (s.setKr p { r with x := r.y, y := r.x }) .seq)

/-- DSP takes a value within C2 of the active set. -/
def State.newDsp (s : State) (p : Fin 13) (v : Int) : Kr Flow :=
  let q := s.quadAt p 2
  check s (q.unusable false) 0
    (need s (decide ((q.lo : Int) ≤ v) && decide (v ≤ (q.hi : Int))) fBounds 0 (.ok (s.setDsp p (s.actSet p) v.toNat) .seq))

def State.doWdsp (s : State) (p : Fin 13) : Kr Flow :=
  let x := (s.kr p).x
  need s (x.tag == tagAddr) fTag 0 (s.newDsp p x.v.toNat)

def State.doWpg (s : State) (p : Fin 13) : Kr Flow :=
  let r := s.kr p
  need s (r.x.tag == tagUint) fTag 0
    (need s (decide (r.x.v.toNat < 65536)) fBounds 0 (.ok (s.setKr p { r with pg := r.x.v.setWidth 16 }) .seq))

/-! RETAG, LEA, immediates (R218). -/

/-- The value of register k as a cell, under the store rule. -/
def CoreRegs.reg (r : CoreRegs) (k : Nat) : Cell :=
  match k with
  | 0 => r.acell
  | 1 => r.x
  | _ => r.y

/-- Write register k from a cell, under the load rule. -/
def State.putReg (s : State) (p : Fin 13) (k : Nat) (c : Cell) : State :=
  match k with
  | 0 => s.loadA p c
  | 1 => s.setX p c
  | _ => s.setY p c

/-- A change from or to RAW needs RAW in C1. -/
def State.rawFault (s : State) (p : Fin 13) (old new : BitVec 4) : Option Nat :=
  let q := s.quadAt p 1
  if new == tagEmpty || (old != tagRaw && new != tagRaw) then none
  else match q.unusable false with
    | some c => some c
    | none => if q.perm pRaw then none else some fPerm

def State.doRetag (s : State) (p : Fin 13) (i : Kn) : Kr Flow :=
  let c := (s.kr p).reg i.m
  let t := BitVec.ofNat 4 i.n
  need s (!noValue c.tag || t == tagEmpty) fTag 0 (check s (s.rawFault p c.tag t) 0 (.ok (s.putReg p i.m ⟨c.v, t⟩) .seq))

/-- LEA checks the bounds only. -/
def State.doLea (s : State) (p : Fin 13) (i : Kn) : Kr Flow :=
  s.withEa p i (fun q ea =>
    check s (q.unusable false) 0
      (need s (decide (q.lo ≤ ea) && decide (ea + 4 ≤ q.hi)) fBounds ea (.ok (s.loadA p ⟨BitVec.ofNat 32 ea, tagAddr⟩) .seq)))

def intCell (v : Int) : Cell := ⟨BitVec.ofInt 32 v, tagInt⟩

/-! Branches and loops (R215 to R217, R221, R222). -/

def State.doBranch (s : State) (p : Fin 13) (i : Kn) : Kr Flow :=
  let r := s.kr p
  match branchTaken r i with
  | none => .fault s fTag 0
  | some b => .ok s (.slot (if b then some (ofSigned 17 ((r.pc.toNat : Int) + i.v)) else none))

def State.doJump (s : State) (p : Fin 13) (t : Int) : Kr Flow := s.target p t (.ok s (.slot (some t.toNat)))

/-- X as a target must be CODE. -/
def State.viaX (s : State) (p : Fin 13) (k : Int → Kr Flow) : Kr Flow :=
  let x := (s.kr p).x
  need s (x.tag == tagCode) fTag 0 (k x.v.toNat)

/-- The count of a LOOP: none where X or Y is neither INT nor UINT. -/
def loopCount (r : CoreRegs) (i : Kn) : Option Int :=
  let of_ (c : Cell) : Option Int :=
    if c.tag == tagInt then some c.v.toInt else if c.tag == tagUint then some (c.v.toNat : Int) else none
  match i.m with
  | 0 => of_ r.x
  | 1 => of_ r.y
  | _ => some i.v

def State.doLoop (s : State) (p : Fin 13) (i : Kn) : Kr Flow :=
  let r := s.kr p
  match loopCount r i with
  | none => .fault s fTag 0
  | some n =>
    let start := r.pc.toNat + 1
    let r1 : CoreRegs := { r with lstart := BitVec.ofNat 17 start, lend := BitVec.ofNat 17 (start + i.n - 1),
                                  lcount := BitVec.ofNat 32 n.toNat }
    .ok ((s.setKr p r1).emptyLoop p) (if n ≤ 0 then .goto ((start + i.n) % 2 ^ 17) else .seq)

/-- PSTORE (R226). -/
def State.doPstore (s : State) (p : Fin 13) : Kr Flow :=
  let r := s.kr p
  let q := s.quadAt p 0
  let a : Int := if r.atag == tagInt then r.a.toInt else r.a.toNat
  need s ((r.atag == tagInt || r.atag == tagUint) && r.x.tag == tagCode) fTag 0
    (need s (decide (0 ≤ a) && decide (a < 2 ^ 14)) fIllegal 0
      (check s (q.unusable true) 0
        (need s (decide (q.lo ≤ r.x.v.toNat) && decide (r.x.v.toNat < q.hi)) fBounds 0
          (need s (q.perm pWrite) fPerm 0
            (.ok (((s.setProgWord p r.x.v.toNat (BitVec.ofNat 14 a.toNat)).serialise p).logged p (.program r.x.v.toNat (BitVec.ofNat 14 a.toNat))) .seq)))))

/-- LOCK (R227). -/
def State.doLock (s : State) (p : Fin 13) : Kr Flow := .ok (s.setCore p { s.coreOf p with lock := some ⟨1, none, true⟩ }) .seq

/-- FENCE: every entry drains (R219). -/
def State.doFence (s : State) (p : Fin 13) : Kr Flow :=
  let t := s.drainWhile p (fun b => !b.isEmpty) 4
  if (t.kr p).sb.isEmpty then .ok t .seq else .stall t

/-! Capability instructions (R248). -/

def State.wset (s : State) (p : Fin 13) : Nat := s.getF (R.KC_CSEL p) F.KC_CSEL_WSET

/-- Write capability register n of set k; a write to C0 of the active set serialises fetch as PSTORE does (R252). -/
def State.putQuad (s : State) (p : Fin 13) (k n : Nat) (q : Quad) : State :=
  let t := s.setKr p ((s.kr p).putCap k n q)
  if n == 0 && k == s.actSet p then t.serialise p else t

/-- The checks of CLD and CST at EA (R248). -/
def State.quadFault (s : State) (p : Fin 13) (ea : Nat) (perms : List Nat) (wr : Bool) : Option Nat :=
  let q := s.quadAt p 1
  match q.unusable false with
  | some c => some c
  | none =>
    if ea % 16 != 0 then some fAlign
    else if !(decide (q.lo ≤ ea) && decide (ea + 16 ≤ q.hi)) || s.inStack3 p ea 16 then some fBounds
    else if !(perms.all q.perm) then some fPerm
    else s.pairBars p (pairAccess p q) ea wr 0

def quadOfCells (l : List Cell) : Quad := ⟨cellAt l 0, cellAt l 1, cellAt l 2, cellAt l 3⟩
def Quad.cells (q : Quad) : List Cell := [q.base, q.len, q.perms, q.st]

def State.doCld (s : State) (p : Fin 13) (n : Nat) : Kr Flow :=
  let x := (s.kr p).x
  let ea := x.v.toNat
  need s (x.tag == tagAddr) fTag 0
    (guardEa s (s.quadFault p ea [pRead, pQread] false) ea false
      ((s.readCells p (pairAccess p (s.quadAt p 1)) ea 4).andThen (fun t cs =>
        let q := quadOfCells cs
        need t (q.tags tagCap || q.tags tagEmpty) fTag ea (.ok (t.putQuad p (t.wset p) n q) .seq))))

/-- The cells that a CST overwrites are four CAP cells or four EMPTY cells, as CLD asks of those it reads (R248). -/
def State.quadTags (s : State) (p : Fin 13) (ea : Nat) : Bool :=
  let tags := (List.range 4).map (fun k => (s.standing p (ea + 4 * k)).tag)
  tags.all (· == tagCap) || tags.all (· == tagEmpty)

def State.doCst (s : State) (p : Fin 13) (n : Nat) : Kr Flow :=
  let x := (s.kr p).x
  let ea := x.v.toNat
  need s (x.tag == tagAddr) fTag 0
    (guardEa s (s.quadFault p ea [pWrite, pQwrite] true) ea true
      (need s (s.quadTags p ea) fTag ea ((s.drainSpan p ea 16).andThen (fun t _ =>
        (t.writeCells p (pairAccess p (t.quadAt p 1)) ea (t.quadAt p n).cells).andThen (fun u _ => .ok u .seq)))))

/-- An instruction that needs Cn open. -/
def openFault (q : Quad) : Option Nat := if !q.valid then some fCapInvalid else if q.closed then some fClosed else none

def State.doCrange (s : State) (p : Fin 13) (n : Nat) : Kr Flow :=
  let r := s.kr p
  let q := s.quadAt p n
  need s (r.x.tag == (if q.program then tagCode else tagAddr) && r.y.tag == tagUint) fTag 0
    (check s (openFault q) 0
      (need s (decide (q.lo ≤ r.x.v.toNat) && decide (r.x.v.toNat + r.y.v.toNat ≤ q.hi)) fBounds 0
        (.ok (s.putQuad p (s.actSet p) n { q with base := ⟨r.x.v, tagCap⟩, len := ⟨r.y.v, tagCap⟩ }) .seq)))

def State.doCmask (s : State) (p : Fin 13) (n : Nat) : Kr Flow :=
  let r := s.kr p
  let q := s.quadAt p n
  need s (r.atag == tagUint) fTag 0
    (check s (openFault q) 0
      (.ok (s.putQuad p (s.actSet p) n { q with perms := ⟨q.perms.v &&& (0xFFFF0000 ||| (r.a.setWidth 32 &&& 0x7FF)), tagCap⟩ }) .seq))

/-- A key lies within the range of the active set (R252). -/
def State.keyOk (s : State) (p : Fin 13) (k : Nat) : Bool :=
  let a := R.KC_KEYS p (s.actSet p)
  decide (s.getF a F.KC_KEYS_FIRST ≤ k) && decide (k ≤ s.getF a F.KC_KEYS_LAST)

def State.doCclose (s : State) (p : Fin 13) (n : Nat) : Kr Flow :=
  let r := s.kr p
  let q := s.quadAt p n
  let k := r.a.toNat
  need s (r.atag == tagUint && decide (k < 65536)) fTag 0
    (check s (openFault q) 0
      (need s (q.perm pBind && s.keyOk p k) fPerm 0
        (.ok (s.putQuad p (s.actSet p) n { q with
          perms := ⟨BitVec.ofNat 32 (k * 65536 + q.perms.v.toNat % 65536), tagCap⟩
          st := ⟨q.st.v ||| 0x80000000, tagCap⟩ }) .seq)))

def State.doCopen (s : State) (p : Fin 13) (n : Nat) : Kr Flow :=
  let r := s.kr p
  let q := s.quadAt p n
  let k := r.a.toNat
  need s (r.atag == tagUint) fTag 0
    (need s q.valid fCapInvalid 0
      (need s (q.closed && q.key == k && s.keyOk p k) fPerm 0
        (.ok (s.putQuad p (s.actSet p) n { q with st := ⟨q.st.v &&& 0x7FFFFFFF, tagCap⟩ }) .seq)))

def State.doCinfo (s : State) (p : Fin 13) (n : Nat) : Kr Flow :=
  let x := (s.kr p).x
  let q := s.quadAt p n
  need s (x.tag == tagUint && decide (x.v.toNat < 4)) fTag 0
    (need s q.valid fCapInvalid 0
      (.ok (s.loadA p (match x.v.toNat with
        | 0 => ⟨q.base.v, if q.program then tagCode else tagAddr⟩
        | 1 => ⟨q.len.v, tagUint⟩
        | 2 => ⟨q.perms.v, tagUint⟩
        | _ => ⟨q.st.v, tagUint⟩)) .seq))

def State.doCmov (s : State) (p : Fin 13) (d n : Nat) : Kr Flow :=
  let q := s.quadAt p n
  need s (q.valid || q.isEmpty) fCapInvalid 0 (.ok (s.putQuad p (s.wset p) d q) .seq)

/-- CAPSW (R251): its shadow follows. -/
def State.doCapsw (s : State) (p : Fin 13) (k : Nat) : Kr Flow :=
  let c0 := (s.kr p).cap k 0
  need s (natBit (s.getF (R.KC_CSET p (s.actSet p)) F.KC_CSET_ALLOW) k) fPerm 0
    (need s (c0.valid && c0.program && !c0.closed && c0.perm pExec) fCapInvalid 0 (.ok s (.shadow k)))

/-! Long operations (R223): operands are read at issue, and the results wait in `long`. -/

/-- An integer result in A. -/
def longA (x : Int) (t : BitVec 4) : Option (BitVec 40 × BitVec 4) := some (BitVec.ofInt 40 x, t)

/-- DIV: none where the tags do not combine. A Q31 quotient that is not exact is rounded down or up, which the spec leaves
open, and an INT quotient outside 40 bits is free (log 13, log 14). -/
def State.divide (s : State) (a : BitVec 40) (ta : BitVec 4) (x : Cell) : Option (State × LongRes) :=
  let uns (t : BitVec 4) : State × LongRes :=
    if x.v = 0 then (s, ⟨some (0, tagEmpty), none, some emptyCell⟩)
    else (s, ⟨longA (a.toNat / x.v.toNat : Nat) t, none, some ⟨BitVec.ofNat 32 (a.toNat % x.v.toNat), t⟩⟩)
  if noValue ta || noValue x.tag then none
  else if ta == tagRaw || x.tag == tagRaw then some (uns tagRaw)
  else if ta != x.tag then none
  else if ta == tagUint then some (uns tagUint)
  else if ta == tagInt then
    if x.v = 0 then some (s, ⟨some (0, tagEmpty), none, some emptyCell⟩)
    else
      let q := a.toInt.tdiv x.v.toInt
      let y : Cell := ⟨BitVec.ofInt 32 (a.toInt.tmod x.v.toInt), tagInt⟩
      if fits40 q then some (s, ⟨longA q tagInt, none, some y⟩)
      else some (s.fresh.fresh, ⟨some (freeA s.free, tagInt), none, some y⟩)
  else if ta == tagQ31 then
    if x.v = 0 then some (s, ⟨some (0, tagEmpty), none, none⟩)
    else
      let n := a.toInt * 2 ^ 31
      let d := x.v.toInt
      let q := if 0 < d then n / d else (-n) / (-d)
      if n % d = 0 then some (s, ⟨longA (satS 32 q) tagQ31, none, none⟩)
      else some (s.fresh, ⟨longA (satS 32 (q + (if Config.freeBit s.free then 1 else 0))) tagQ31, none, none⟩)
  else none

/-- SQRT. -/
def squareRoot (a : BitVec 40) (t : BitVec 4) : Option LongRes :=
  let res (neg : Bool) (v : Nat) : LongRes := ⟨if neg then some (0, tagEmpty) else longA (isqrt v : Nat) t, none, none⟩
  if t == tagInt then some (res (decide (a.toInt < 0)) a.toNat)
  else if t == tagUint then some (res false a.toNat)
  else if t == tagQ31 then some (res (decide (a.toInt < 0)) (a.toNat * 2 ^ 31))
  else none

/-- A lane of SINCOS: within ±2 LSB of the true value, by a free value (log 13). -/
def sinLane (k : Nat) (x : Int) : Int :=
  satS 16 (nearTimes 32768 x (roundTimes 32768 x + (((Config.freeWord k).toNat % 5 : Nat) : Int) - 2))

/-- SINCOS of an angle A × π. -/
def State.sincos (s : State) (a : BitVec 40) (t : BitVec 4) : Option (State × LongRes) :=
  let phi := a.toNat % 2 ^ 32
  if t == tagQ31 then
    some (s.fresh.fresh, ⟨none, some ⟨pack16 (sinLane s.free (sine64 30 phi)) (sinLane (s.free + 1) (cosine64 30 phi)), tagFrac2⟩,
      none⟩)
  else none

/-- ATAN2 of FRAC2(y, x) in Q31; the rounding of an inexact value is free (log 14). -/
def State.arctan (s : State) (c : Cell) : Option (State × LongRes) :=
  let y := q15lo c.v
  let x := q15hi c.v
  let out (v : Int) : LongRes := ⟨longA (toSigned 32 (ofSigned 32 v)) tagQ31, none, none⟩
  if c.tag != tagFrac2 then none
  else if x = 0 ∧ y = 0 then some (s, out 0)
  else if y = 0 then some (s, out (if 0 < x then 0 else -(2 ^ 31)))
  else if x = 0 then some (s, out (if 0 < y then 2 ^ 30 else -(2 ^ 30)))
  else if x = y ∨ x = -y then
    let q : Int := if 0 < x then 2 ^ 29 else 3 * 2 ^ 29
    some (s, out (if 0 < y then q else -q))
  else some (s.fresh, out (atan2Half y x / 2 + (if Config.freeBit s.free then 1 else 0)))

/-- A LONG operation issues. -/
def State.doLong (s : State) (p : Fin 13) (op : KOp) : Kr Flow :=
  let r := s.kr p
  let res := match op with
    | .div => s.divide r.a r.atag r.x
    | .sqrt => (squareRoot r.a r.atag).map (fun l => (s, l))
    | .sincos => s.sincos r.a r.atag
    | _ => s.arctan r.x
  match res with
  | none => .fault s fTag 0
  | some (t, l) => .ok (t.setCore p { t.coreOf p with long := some l }) .seq

/-- LONG_RESULT: the pending registers are written. -/
def State.longResult (s : State) (p : Fin 13) : State :=
  let c := s.coreOf p
  match c.long with
  | none => s
  | some l =>
    let (a, t) := l.a.getD (c.r.a, c.r.atag)
    s.setCore p { c with long := none, r := { c.r with a := a, atag := t, x := l.x.getD c.r.x, y := l.y.getD c.r.y } }

/-! Attached-unit calls (R144, R145, R225). -/

/-- A tag that a customer entry takes. -/
def customerTag (t : BitVec 4) : Bool := t == tagFrac2 || t == tagQ31 || t == tagInt || t == tagUint || t == tagEmpty

/-- The operand tags of entry k. -/
def attTags (r : CoreRegs) (k : Nat) : Bool :=
  match vendorEntry k with
  | some (_, x) => r.atag == tagFrac2 && (!x || r.x.tag == tagFrac2)
  | none => customerTag r.atag && customerTag r.x.tag && customerTag r.y.tag

/-- The payload that passes: 0 for an EMPTY register. -/
def attWord (w : Word) (t : BitVec 4) : Word := if t == tagEmpty then 0 else w

/-- ATT: the call is queued. The system pair has no CLE: UNIT_ABSENT. -/
def State.doAtt (s : State) (p : Fin 13) (k : Nat) : Kr Flow :=
  if h : p.val < 12 then
    let n : Fin 12 := ⟨p.val, h⟩
    let r := s.kr p
    let absent := decide (128 ≤ k) && (!s.part.full || !s.isSet (R.MCS_XT n (k - 128)) F.MCS_XT_VALID)
    need s (!absent) fAbsent 0
      (need s (attTags r k) fTag 0
        (let call : CallSt := ⟨k, attWord (r.a.setWidth 32) r.atag, attWord r.x.v r.x.tag, attWord r.y.v r.y.tag, false, none⟩
         let s1 := (s.setCle n { s.cleOf n with call := some call }).setCore p { s.coreOf p with att := true }
         .ok ((s1.showCall n).logged p (.call k)) .seq))
  else .fault s fAbsent 0

end Machine
end Sys2Proof
end

