-- ==== Sys2Proof/Machine/KnStep.lean ====
section
/-! DEFINITION. One instruction of a core pair: when a pair issues, what its word does, and how it retires (R217, R222, R227,
R232, R251), with the entries of faults and interrupts. -/

namespace Sys2Proof
namespace Machine

/-- What an instruction does before it retires. -/
def State.knExec (s : State) (p : Fin 13) (i : Kn) : Kr Flow :=
  let c := s.coreOf p
  let r := c.r
  let ok (t : State) : Kr Flow := .ok t .seq
  let put (k : Nat) (t : State) (x : Cell) : State := t.putReg p k x
  match i.op with
  | .eq => s.doBranch p i
  | .ne => s.doBranch p i
  | .lt => s.doBranch p i
  | .ge => s.doBranch p i
  | .gt => s.doBranch p i
  | .le => s.doBranch p i
  | .teq => s.doBranch p i
  | .tne => s.doBranch p i
  | .nop => ok s
  | .ret => s.doRet p
  | .fret => s.doFret p
  | .gret => s.doGret p
  | .rfe => s.doRfe p
  | .lock => s.doLock p
  | .fence => s.doFence p
  | .wfe => ok (s.setCore p { c with wfe := true })
  | .pusha => s.doPush p r.acell
  | .popa => s.doPop p (put 0)
  | .pushx => s.doPush p r.x
  | .popx => s.doPop p (put 1)
  | .pushy => s.doPush p r.y
  | .popy => s.doPop p (put 2)
  | .tax => s.move r.atag (s.setX p r.acell)
  | .txa => s.move r.x.tag (s.loadA p r.x)
  | .tay => s.move r.atag (s.setY p r.acell)
  | .tya => s.move r.y.tag (s.loadA p r.y)
  | .swxy => s.doSwxy p
  | .rdsp => ok (s.setX p ⟨(r.set (s.actSet p)).dsp, tagAddr⟩)
  | .wdsp => s.doWdsp p
  | .rpg => ok (s.setX p (uintCell r.pg.toNat))
  | .wpg => s.doWpg p
  | .rdtag => ok (s.setX p (uintCell r.atag.toNat))
  | .rdtime => ok ((s.logged p (.time s.mtimeLo)).loadA p ⟨s.mtimeLo, tagTime⟩)
  | .pfx => .ok (s.setCore p { c with
      pfx := c.pfx ++ [i.v.toNat], pfxPc := if c.pfx.isEmpty then r.pc.toNat else c.pfxPc }) .pfx
  | .ldia => ok (s.putReg p 0 (intCell i.v))
  | .ldix => ok (s.putReg p 1 (intCell i.v))
  | .ldiy => ok (s.putReg p 2 (intCell i.v))
  | .addia => need s (!noValue r.atag) fTag 0 (s.aResult p (kAddImm r.a r.atag i.v) 0)
  | .loop => s.doLoop p i
  | .lea => s.doLea p i
  | .sc => s.doSc p i
  | .pstore => s.doPstore p
  | .jump => s.doJump p ((r.pc.toNat : Int) + i.v)
  | .call => s.doCall p ((r.pc.toNat : Int) + i.v)
  | .jumpx => s.viaX p (s.doJump p)
  | .callx => s.viaX p (s.doCall p)
  | .fcall => s.doFcall p i.n
  | .gate => s.doGate p i.n
  | .cld => s.doCld p i.n
  | .cst => s.doCst p i.n
  | .crange => s.doCrange p i.n
  | .cmask => s.doCmask p i.n
  | .cclose => s.doCclose p i.n
  | .copen => s.doCopen p i.n
  | .cclr => ok (s.putQuad p (s.wset p) i.n emptyQuad)
  | .cinfo => s.doCinfo p i.n
  | .cmov => s.doCmov p i.d i.n
  | .capsw => s.doCapsw p i.n
  | .ctst => ok (s.setX p (uintCell (b2n (r.cap (s.actSet p) i.n).valid)))
  | .div => s.doLong p .div
  | .sqrt => s.doLong p .sqrt
  | .sincos => s.doLong p .sincos
  | .atan2 => s.doLong p .atan2
  | .retag => s.doRetag p i
  | .dsadj => s.newDsp p ((s.dspOf p : Int) + 4 * i.v)
  | .ldb => s.doLdNarrow p i 1
  | .ldh => s.doLdNarrow p i 2
  | .stb => s.doStNarrow p i 1
  | .sth => s.doStNarrow p i 2
  | .ldu => s.doLdu p i
  | .llda => s.doLegacy p i
  | .lsta => s.doLegacy p i
  | .ladd => s.doLegacy p i
  | .lsub => s.doLegacy p i
  | .land => s.doLegacy p i
  | .lor => s.doLegacy p i
  | .lxor => s.doLegacy p i
  | .jmpp => s.doLegacy p i
  | .att => s.doAtt p i.n
  | _ => s.doMem p i

/-- Instructions that neither read nor write A (R224). -/
def leavesA : List KOp :=
  [.ldx, .stx, .ldy, .sty, .nop, .ret, .fret, .gret, .lock, .fence, .wfe, .pushx, .popx, .pushy, .popy, .swxy, .rdsp, .wdsp, .rpg,
    .wpg, .pfx, .ldix, .ldiy, .dsadj, .loop, .jump, .call, .jumpx, .callx, .fcall, .cld, .cst, .crange, .cclr, .cmov, .capsw, .ctst]

/-- The instruction waits for the attached result that A is to take. -/
def waitsForA (i : Kn) : Bool :=
  !(leavesA.contains i.op || (branchOps.contains i.op && i.m == 3) || (i.op == .retag && i.m != 0) ||
    (legacyOps.contains i.op && (i.m == 7 || (i.m == 0 && i.op == .jmpp))))

/-! Retirement. -/

/-- Where an instruction that does not jump goes on, and LOOP_COUNT then (R217, R222). -/
def CoreSt.after (c : CoreSt) : Nat × Word :=
  let r := c.r
  let pc := r.pc.toNat
  match c.slot with
  | some (_, some t) => (t, r.lcount)
  | _ =>
    if r.inBody && r.pc == r.lend then
      if r.lcount == 1 then ((pc + 1) % 2 ^ 17, 0) else (r.lstart.toNat, r.lcount - 1)
    else ((pc + 1) % 2 ^ 17, r.lcount)

/-- A taken branch out of an active body ends the loop (R222). -/
def CoreSt.leaves (c : CoreSt) (t : Option Nat) : Bool :=
  match t with
  | some x => c.r.inBody && !(decide (c.r.lstart.toNat ≤ x) && decide (x ≤ c.r.lend.toNat))
  | none => false

/-- The loop buffer after a change of flow to t: emptied where it leaves the body (R237). -/
def CoreSt.lbufAt (c : CoreSt) (t : Nat) : List (Nat × PWord) :=
  if c.r.inBody && decide (c.r.lstart.toNat ≤ t) && decide (t ≤ c.r.lend.toNat) then c.lbuf else []

/-- The fetch queue after the word at the PC when the next is at t: kept along the sequential stream (R236). -/
def CoreSt.queueAt (c : CoreSt) (t : Nat) : Option Nat := if t == c.r.pc.toNat + 1 then c.fq else none

/-- The new PC and what was in progress, by the flow of the instruction. -/
def State.flow (s : State) (p : Fin 13) (f : Flow) : State :=
  let c := s.coreOf p
  let r := c.r
  let next := BitVec.ofNat 17 (r.pc.toNat + 1)
  match f with
  | .pfx => s.setCore p { c with r := { r with pc := next } }
  | .done => s.setCore p { c with pfx := [], slot := none, shadow := none, lbuf := [], fq := none }
  | .goto t => s.setCore p { c with
      r := { r with pc := BitVec.ofNat 17 t }, pfx := [], slot := none, shadow := none, lbuf := c.lbufAt t, fq := none }
  | .slot t =>
    let (x, n) := if c.leaves t then (r.pc.toNat + 1, 0) else c.after
    s.setCore p { c with
      r := { r with pc := BitVec.ofNat 17 x, lcount := n }
      pfx := []
      slot := some (c.savedPc, t)
      slotCount := if c.leaves t then 0 else r.lcount
      lbuf := if c.leaves t then [] else c.lbuf
      fq := c.queueAt x }
  | .shadow k => s.setCore p { c with r := { r with pc := next }, pfx := [], shadow := some (c.savedPc, k) }
  | .seq =>
    let (t, n) := c.after
    let s1 := s.setCore p { c with
      r := { r with pc := BitVec.ofNat 17 t, lcount := n }
      pfx := []
      slot := none
      shadow := none
      lbuf := if n == 0 then [] else c.lbuf
      fq := c.queueAt t }
    match c.shadow with
    | some (_, k) => s1.setActive p k
    | none => s1

/-- A retired instruction counts in a locked sequence that was open before it (R227). -/
def State.lockCount (s : State) (p : Fin 13) (was : Bool) : State :=
  let c := s.coreOf p
  match c.lock with
  | some l => if was then s.setCore p { c with lock := some { l with n := l.n + 1 } } else s
  | none => s

/-- A full replay log takes a checkpoint at an instruction boundary (R386). -/
def State.logFull (s : State) (p : Fin 13) : State := if 1024 ≤ (s.coreOf p).log.length then s.checkpoint p else s

/-- One more instruction retired since the checkpoint (R387). -/
def State.countRetired (s : State) (p : Fin 13) : State := s.setCore p { s.coreOf p with retired := (s.coreOf p).retired + 1 }

/-- The instruction retires. -/
def State.retire (s : State) (p : Fin 13) (f : Flow) (locked : Bool) : State :=
  let s1 := s.flow p f
  if f == .pfx then s1
  else
    let s2 := ((s1.lockCount p locked).countRetired p).logFull p
    if h : p.val < 12 then s2.setDbg { s2.dbg with skip := s2.dbg.skip.set p.val false } else s2

/-! Issue. -/

/-- LOCK_BROKEN: a sequence of 16 instructions without SC aborts at the next (R227). -/
def State.lockBroken (s : State) (p : Fin 13) : State :=
  match (s.coreOf p).lock with
  | some l => if 16 ≤ l.n then s.endLock p else s
  | none => s

/-- Addresses of the words that R468 holds together with the word at `a`: prefixes, their instruction, and its delay slot or
shadow (R217, R220, R251); `ps`: the prefixes before it. -/
def State.groupAddrs (s : State) (p : Fin 13) (ps : List Nat) (a : Nat) : Nat → List Nat
  | 0 => [a]
  | fuel + 1 =>
    let c := s.coreOf p
    let next := { c with r := { c.r with pc := BitVec.ofNat 17 a }, slot := none }.after.1
    match knDecode (s.progWord p a).toNat ps with
    | some i =>
      if i.op == .pfx then a :: s.groupAddrs p (ps ++ [i.v.toNat]) ((a + 1) % 2 ^ 17) fuel
      else if branchOps.contains i.op || [KOp.jump, .jumpx, .jmpp, .capsw].contains i.op then [a, next]
      else [a]
    | none => [a]

/-- The breakpoint that stops the pair of slice n before the group of instructions at its PC, inside a locked sequence too (R470,
log 213). -/
def State.bpMatch (s : State) (n : Fin 12) : Option Bp :=
  let set := s.getF (R.KC_CSEL n) F.KC_CSEL_ACTIVE
  let l := s.groupAddrs (pairOf n) [] (s.coreOf (pairOf n)).r.pc.toNat 5
  if s.atGroup (pairOf n) && !s.dbg.skip.get n then
    ((s.dbg.bp.get n).toList.filterMap id).find? (fun x => l.contains x.pc && natBit x.sets set)
  else none

/-- BREAKPOINT_HIT. -/
def State.bpHit (s : State) (n : Fin 12) : State :=
  match s.bpMatch n with
  | some b => if (s.coreOf (pairOf n)).dbgHalt then s else s.dbgHalt n (some b.sess)
  | none => s

/-- The debugger stops the pair of slice n here: it is halted, asked to halt, at a breakpoint or past a watchpoint. -/
def State.dbgStops (s : State) (n : Fin 12) : Bool :=
  (s.coreOf (pairOf n)).dbgHalt || (s.atBoundary (pairOf n) && (s.dbg.haltReq.get n).isSome) ||
    (s.atGroup (pairOf n) && (s.dbg.wpHit.get n).isSome) || (s.bpMatch n).isSome

/-- The pair runs: a slice READY or RUNNING, or the system pair of a module that is awake. `force`: under STEP. -/
def State.pairRuns (s : State) (p : Fin 13) (force : Bool) : Bool :=
  !(s.coreOf p).halted &&
    (if h : p.val < 12 then
      let n : Fin 12 := ⟨p.val, h⟩
      s.fitted n && (s.slState n == slReady || s.slState n == slRunning) && (force || !s.dbgStops n)
    else !s.bootStopped && s.mode != mdStabled)

/-- A pair in WFE waits until a message is latched for it (R219). -/
def State.awake (s : State) (p : Fin 13) : Bool := !(s.coreOf p).wfe || !(s.latchedFor p).isEmpty

/-- The state in which the next instruction issues: a pending long result written, a long sequence aborted. -/
def State.issue (s : State) (p : Fin 13) : State :=
  let t := (s.longResult p).lockBroken p
  t.setCore p { t.coreOf p with wfe := false }

/-- An instruction with its placement checked and pending results waited for. One that faults on a register operand that it has
read changes no register (R232): the refusals that ALIGN counts stay. -/
def State.run (s : State) (p : Fin 13) (i : Kn) : Kr Flow :=
  let c := s.coreOf p
  if c.misplaced i then .fault s fIllegal 0
  else if c.att && waitsForA i then .stall s
  else match s.knExec p i with
    | .fault t code ea => .fault (if code != fAlign && spaceOf ea == .reg then s else t) code ea
    | r => r

/-- The instruction at the PC, and what comes of it; none where its fetch faults or its word is illegal. -/
def State.attempt (s : State) (p : Fin 13) : Option Kn × Kr Flow :=
  match s.fetchWord p with
  | .fault t c a => (none, .fault t c a)
  | .stall t => (none, .stall t)
  | .ok t w =>
    match knDecode w.toNat (t.coreOf p).pfx with
    | none => (none, .fault t fIllegal 0)
    | some i => (some i, t.run p i)

/-- The end of an attempt: the instruction retires, its fault enters the handler, or it waits. -/
def State.conclude (s0 : State) (p : Fin 13) (o : Kr Flow) : State :=
  match o with
  | .ok t f => t.retire p f (s0.coreOf p).lock.isSome
  | .fault t c a => (t.wpUndo s0).faultEntry p c a
  | .stall t => t

/-- The command of one instruction: the pair executes the word at its PC if that is this instruction. -/
def State.instr (s : State) (p : Fin 13) (op : KOp) : State :=
  if !s.pairRuns p false || !s.awake p then s
  else
    let s1 := s.issue p
    match s1.attempt p with
    | (some i, o) => if i.op == op then s1.conclude p o else s
    | (none, _) => s

/-- FAULT_ENTRY: the fault at the PC, of whatever kind, enters its handler. -/
def State.faultCommand (s : State) (p : Fin 13) : State :=
  if !s.pairRuns p false || !s.awake p then s
  else
    let s1 := s.issue p
    match (s1.attempt p).2 with
    | .fault t c a => (t.wpUndo s1).faultEntry p c a
    | .stall t => if (s1.attempt p).1.isNone then t else s
    | _ => s

/-- The boundary lies outside a locked sequence, a prefixed instruction, a delay slot and a shadow, and nothing waits for the
attached result (R220, R227, R243, R251, R266). -/
def State.interruptible (s : State) (p : Fin 13) : Bool := s.atBoundary p && !(s.coreOf p).att

/-- INTERRUPT_ENTRY: the most urgent latched message enters its handler (R258, R307). `force`: under STEP. -/
def State.takeInterrupt (s : State) (p : Fin 13) (force : Bool) : State :=
  if !s.pairRuns p force || !s.interruptible p then s
  else
    let t := s.issue p
    match t.ready p (t.getF (R.KC_CSEL p) F.KC_CSEL_LEVEL) with
    | some r => t.interruptEntry p r
    | none => s

end Machine
end Sys2Proof
end

