-- ==== Sys2Proof/Machine/BranchOps.lean ====
section
/-! DEFINITION. Branches, jumps, calls and loops of a core pair (chapters 13 to 15). -/

namespace Sys2Proof
namespace Machine

/-- EQ: Branch with delay slot, taken when the operands are equal. (R215) -/
def execEq (p : Pair) (s : State) : Host.Outcome State Fault Refusal := .next (s.instr p .eq)

/-- NE: Branch with delay slot, taken when the operands differ. (R215) -/
def execNe (p : Pair) (s : State) : Host.Outcome State Fault Refusal := .next (s.instr p .ne)

/-- LT: Branch with delay slot, taken when a < b. (R215) -/
def execLt (p : Pair) (s : State) : Host.Outcome State Fault Refusal := .next (s.instr p .lt)

/-- GE: Branch with delay slot, taken when a ≥ b. (R215) -/
def execGe (p : Pair) (s : State) : Host.Outcome State Fault Refusal := .next (s.instr p .ge)

/-- GT: Branch with delay slot, taken when a > b. (R215) -/
def execGt (p : Pair) (s : State) : Host.Outcome State Fault Refusal := .next (s.instr p .gt)

/-- LE: Branch with delay slot, taken when a ≤ b. (R215) -/
def execLe (p : Pair) (s : State) : Host.Outcome State Fault Refusal := .next (s.instr p .le)

/-- TEQ: Branch with delay slot, taken when the tags are equal. (R215) -/
def execTeq (p : Pair) (s : State) : Host.Outcome State Fault Refusal := .next (s.instr p .teq)

/-- TNE: Branch with delay slot, taken when the tags differ. (R215) -/
def execTne (p : Pair) (s : State) : Host.Outcome State Fault Refusal := .next (s.instr p .tne)

/-- RET: Pops a CODE cell from the return stack and continues there. (R219) -/
def execRet (p : Pair) (s : State) : Host.Outcome State Fault Refusal := .next (s.instr p .ret)

/-- FRET: Returns from FCALL through the link stack or a spilled LINK cell. (R257) -/
def execFret (p : Pair) (s : State) : Host.Outcome State Fault Refusal := .next (s.instr p .fret)

/-- GRET: Pops the gate frame and returns to the caller's set. (R255) -/
def execGret (p : Pair) (s : State) : Host.Outcome State Fault Refusal := .next (s.instr p .gret)

/-- RFE: Pops a fault or interrupt frame and restores the state, or chains to a pending handler. (R262) -/
def execRfe (p : Pair) (s : State) : Host.Outcome State Fault Refusal := .next (s.instr p .rfe)

/-- LOOP: Sets up a hardware loop over the following body. (R222) -/
def execLoop (p : Pair) (s : State) : Host.Outcome State Fault Refusal := .next (s.instr p .loop)

/-- JUMP: Continues at PC plus displacement after the delay slot. (R221) -/
def execJump (p : Pair) (s : State) : Host.Outcome State Fault Refusal := .next (s.instr p .jump)

/-- CALL: Pushes the return address and continues at the target. (R221) -/
def execCall (p : Pair) (s : State) : Host.Outcome State Fault Refusal := .next (s.instr p .call)

/-- JUMPX: Continues at X after the delay slot. (R221) -/
def execJumpx (p : Pair) (s : State) : Host.Outcome State Fault Refusal := .next (s.instr p .jumpx)

/-- CALLX: Pushes the return address and continues at X. (R221) -/
def execCallx (p : Pair) (s : State) : Host.Outcome State Fault Refusal := .next (s.instr p .callx)

/-- FCALL: Calls fast entry k, pushing a link entry and switching set. (R256) -/
def execFcall (p : Pair) (s : State) : Host.Outcome State Fault Refusal := .next (s.instr p .fcall)

/-- GATE: Calls through a sealed gate capability into another set. (R254) -/
def execGate (p : Pair) (s : State) : Host.Outcome State Fault Refusal := .next (s.instr p .gate)

/-- JMPP: Conditional in-page jump with delay slot. (R230) -/
def execJmpp (p : Pair) (s : State) : Host.Outcome State Fault Refusal := .next (s.instr p .jmpp)

end Machine
end Sys2Proof
end

