-- ==== Sys2Proof/Machine/CapOps.lean ====
section
/-! DEFINITION. Capability instructions of a core pair (chapter 15). -/

namespace Sys2Proof
namespace Machine

/-- CLD: Loads a capability quad into Cn of WSET. (R248) -/
def execCld (p : Pair) (s : State) : Host.Outcome State Fault Refusal := .next (s.instr p .cld)

/-- CST: Stores Cn as a capability quad. (R248) -/
def execCst (p : Pair) (s : State) : Host.Outcome State Fault Refusal := .next (s.instr p .cst)

/-- CRANGE: Narrows Cn to the base in X and the length in Y. (R248) -/
def execCrange (p : Pair) (s : State) : Host.Outcome State Fault Refusal := .next (s.instr p .crange)

/-- CMASK: Masks the permissions of Cn with A. (R248) -/
def execCmask (p : Pair) (s : State) : Host.Outcome State Fault Refusal := .next (s.instr p .cmask)

/-- CCLOSE: Closes Cn under the key in A. (R248) -/
def execCclose (p : Pair) (s : State) : Host.Outcome State Fault Refusal := .next (s.instr p .cclose)

/-- COPEN: Opens Cn, closed under the key in A. (R248) -/
def execCopen (p : Pair) (s : State) : Host.Outcome State Fault Refusal := .next (s.instr p .copen)

/-- CCLR: Clears Cn of WSET to EMPTY. (R248) -/
def execCclr (p : Pair) (s : State) : Host.Outcome State Fault Refusal := .next (s.instr p .cclr)

/-- CINFO: Reads a field of Cn into A. (R248) -/
def execCinfo (p : Pair) (s : State) : Host.Outcome State Fault Refusal := .next (s.instr p .cinfo)

/-- CMOV: Copies Cs of the active set to Cd of WSET. (R248) -/
def execCmov (p : Pair) (s : State) : Host.Outcome State Fault Refusal := .next (s.instr p .cmov)

/-- CAPSW: Switches the active capability set after its shadow word. (R251) -/
def execCapsw (p : Pair) (s : State) : Host.Outcome State Fault Refusal := .next (s.instr p .capsw)

/-- CTST: Sets X to 1 if Cs is a valid quad. (R248) -/
def execCtst (p : Pair) (s : State) : Host.Outcome State Fault Refusal := .next (s.instr p .ctst)

end Machine
end Sys2Proof
end

