-- ==== Sys2Proof/Machine/ControlOps.lean ====
section
/-! DEFINITION. Register, stack, immediate and long instructions of a core pair, and its attached calls (chapters 13 and 14). -/

namespace Sys2Proof
namespace Machine

/-- NOP: Does nothing. (R219) -/
def execNop (p : Pair) (s : State) : Host.Outcome State Fault Refusal := .next (s.instr p .nop)

/-- LOCK: Opens a locked sequence. (R227) -/
def execLock (p : Pair) (s : State) : Host.Outcome State Fault Refusal := .next (s.instr p .lock)

/-- CTL_FENCE: Retires once every earlier store has drained. (R219) -/
def execCtlFence (p : Pair) (s : State) : Host.Outcome State Fault Refusal := .next (s.instr p .fence)

/-- WFE: Waits until an interrupt is pending. (R219) -/
def execWfe (p : Pair) (s : State) : Host.Outcome State Fault Refusal := .next (s.instr p .wfe)

/-- PUSHA: Pushes A onto the data stack. (R219) -/
def execPusha (p : Pair) (s : State) : Host.Outcome State Fault Refusal := .next (s.instr p .pusha)

/-- POPA: Pops the data stack into A. (R219) -/
def execPopa (p : Pair) (s : State) : Host.Outcome State Fault Refusal := .next (s.instr p .popa)

/-- PUSHX: Pushes X onto the data stack. (R219) -/
def execPushx (p : Pair) (s : State) : Host.Outcome State Fault Refusal := .next (s.instr p .pushx)

/-- POPX: Pops the data stack into X. (R219) -/
def execPopx (p : Pair) (s : State) : Host.Outcome State Fault Refusal := .next (s.instr p .popx)

/-- PUSHY: Pushes Y onto the data stack. (R219) -/
def execPushy (p : Pair) (s : State) : Host.Outcome State Fault Refusal := .next (s.instr p .pushy)

/-- POPY: Pops the data stack into Y. (R219) -/
def execPopy (p : Pair) (s : State) : Host.Outcome State Fault Refusal := .next (s.instr p .popy)

/-- TAX: Copies A to X under the store rule. (R219) -/
def execTax (p : Pair) (s : State) : Host.Outcome State Fault Refusal := .next (s.instr p .tax)

/-- TXA: Copies X to A under the load rule. (R219) -/
def execTxa (p : Pair) (s : State) : Host.Outcome State Fault Refusal := .next (s.instr p .txa)

/-- TAY: Copies A to Y under the store rule. (R219) -/
def execTay (p : Pair) (s : State) : Host.Outcome State Fault Refusal := .next (s.instr p .tay)

/-- TYA: Copies Y to A under the load rule. (R219) -/
def execTya (p : Pair) (s : State) : Host.Outcome State Fault Refusal := .next (s.instr p .tya)

/-- SWXY: Exchanges X and Y. (R219) -/
def execSwxy (p : Pair) (s : State) : Host.Outcome State Fault Refusal := .next (s.instr p .swxy)

/-- RDSP: Copies DSP to X, tagged ADDR. (R219) -/
def execRdsp (p : Pair) (s : State) : Host.Outcome State Fault Refusal := .next (s.instr p .rdsp)

/-- WDSP: Sets DSP from X within C2. (R219) -/
def execWdsp (p : Pair) (s : State) : Host.Outcome State Fault Refusal := .next (s.instr p .wdsp)

/-- RPG: Copies PG to X, tagged UINT. (R219) -/
def execRpg (p : Pair) (s : State) : Host.Outcome State Fault Refusal := .next (s.instr p .rpg)

/-- WPG: Sets PG from X. (R219) -/
def execWpg (p : Pair) (s : State) : Host.Outcome State Fault Refusal := .next (s.instr p .wpg)

/-- RDTAG: Copies the tag of A to X. (R219) -/
def execRdtag (p : Pair) (s : State) : Host.Outcome State Fault Refusal := .next (s.instr p .rdtag)

/-- RDTIME: Loads MTIME bits 31:0 into A, tagged TIME. (R219) -/
def execRdtime (p : Pair) (s : State) : Host.Outcome State Fault Refusal := .next (s.instr p .rdtime)

/-- PFX: Supplies prefix bits that extend the next instruction's field. (R220) -/
def execPfx (p : Pair) (s : State) : Host.Outcome State Fault Refusal := .next (s.instr p .pfx)

/-- LDIA: Loads an immediate into A as INT. (R218) -/
def execLdia (p : Pair) (s : State) : Host.Outcome State Fault Refusal := .next (s.instr p .ldia)

/-- LDIX: Loads an immediate into X as INT. (R218) -/
def execLdix (p : Pair) (s : State) : Host.Outcome State Fault Refusal := .next (s.instr p .ldix)

/-- LDIY: Loads an immediate into Y as INT. (R218) -/
def execLdiy (p : Pair) (s : State) : Host.Outcome State Fault Refusal := .next (s.instr p .ldiy)

/-- ADDIA: Adds an immediate to A. (R218) -/
def execAddia (p : Pair) (s : State) : Host.Outcome State Fault Refusal := .next (s.instr p .addia)

/-- LEA: Loads the effective address into A, tagged ADDR. (R218) -/
def execLea (p : Pair) (s : State) : Host.Outcome State Fault Refusal := .next (s.instr p .lea)

/-- SC: Stores A conditionally on the reservation and ends the locked sequence. (R227) -/
def execSc (p : Pair) (s : State) : Host.Outcome State Fault Refusal := .next (s.instr p .sc)

/-- PSTORE: Writes A into program memory at X and serialises fetch. (R226) -/
def execPstore (p : Pair) (s : State) : Host.Outcome State Fault Refusal := .next (s.instr p .pstore)

/-- DIV: Starts a long division of A by X. (R223) -/
def execDiv (p : Pair) (s : State) : Host.Outcome State Fault Refusal := .next (s.instr p .div)

/-- SQRT: Starts a long square root of A. (R223) -/
def execSqrt (p : Pair) (s : State) : Host.Outcome State Fault Refusal := .next (s.instr p .sqrt)

/-- SINCOS: Starts a long sine and cosine of the angle in A. (R223) -/
def execSincos (p : Pair) (s : State) : Host.Outcome State Fault Refusal := .next (s.instr p .sincos)

/-- ATAN2: Starts a long two-argument arctangent of X. (R223) -/
def execAtan2 (p : Pair) (s : State) : Host.Outcome State Fault Refusal := .next (s.instr p .atan2)

/-- LONG_RESULT: A long operation completes and writes its pending result registers. (R224) -/
def execLongResult (p : Pair) (s : State) : Host.Outcome State Fault Refusal := .next (s.longResult p)

/-- RETAG: Changes the tag of a register under the retag rules. (R218) -/
def execRetag (p : Pair) (s : State) : Host.Outcome State Fault Refusal := .next (s.instr p .retag)

/-- DSADJ: Adjusts DSP by a signed number of cells within C2. (R218) -/
def execDsadj (p : Pair) (s : State) : Host.Outcome State Fault Refusal := .next (s.instr p .dsadj)

/-- ATT: An attached-unit call instruction checks its operand tags and is queued for the CLE. (R145) -/
def execAtt (p : Pair) (s : State) : Host.Outcome State Fault Refusal := .next (s.instr p .att)

/-- LOCK_BROKEN: A locked sequence reaching a seventeenth instruction without SC aborts. (R227) -/
def execLockBroken (p : Pair) (s : State) : Host.Outcome State Fault Refusal := .next (s.lockBroken p)

/-- STORE_DRAIN: The oldest store-buffer entry drains to memory. (R238) -/
def execStoreDrain (p : Pair) (s : State) : Host.Outcome State Fault Refusal := .next (s.storeDrain p)

end Machine
end Sys2Proof
end

