-- ==== Sys2Proof/Machine/Converter.lean ====
section
/-! DEFINITION. Fast conversion (chapter 05). -/

namespace Sys2Proof
namespace Machine

/-- SAR_TRIGGER: A hardware trigger reaches a converter and starts a burst, is merged, or is held pending. (R82) -/
def execSarTrigger (n : Slice) (k : Fin 4) (extra : Fin 8) (s : State) : Host.Outcome State Fault Refusal :=
  .next (s.sarPhase n k extra)

/-- SAR_SWTRIG: A write of 1 to SAR_SWTRIG is a trigger of the converter. (R82) -/
def execSarSwtrig (x : Access) (n : Slice) (k : Fin 4) (s : State) : Host.Outcome State Fault Refusal :=
  .next (s.write x (R.SAR_SWTRIG n k) (F.SAR_SWTRIG_TRIG.word 1))

/-- SAR_HOLD: Acquisition ends and the sample is held, and conversion starts. (R79) -/
def execSarHold (n : Slice) (k : Fin 4) (code : BitVec 16) (s : State) : Host.Outcome State Fault Refusal :=
  .next (s.sarHold n k code)

/-- SAR_RESULT_READY: The result is ready, and the next entry or a pending burst starts its acquisition. (R79) -/
def execSarResultReady (n : Slice) (k : Fin 4) (s : State) : Host.Outcome State Fault Refusal := .next (s.sarReady n k)

/-- SAR_HANDOFF: The corrected result lands in the CLE input register and SAR_RES, and may trigger the loop. (R87) -/
def execSarHandoff (n : Slice) (k : Fin 4) (coll : Bool) (s : State) : Host.Outcome State Fault Refusal :=
  .next (s.sarHandoff n k coll)

/-- SAR_RECORD_WRITE: A queued result record is written to its circular buffer in slice memory. (R89) -/
def execSarRecordWrite (n : Slice) (k : Fin 4) (s : State) : Host.Outcome State Fault Refusal := .next (s.sarRecord n k)

/-- SELFCAL: A write of SAR_CTRL.SELFCAL in FENCED starts self-calibration of the converters. (R92) -/
def execSelfcal (x : Access) (n : Slice) (s : State) : Host.Outcome State Fault Refusal :=
  .next (s.write x (R.SAR_CTRL n) (F.SAR_CTRL_SELFCAL.word 1))

/-- SELFCAL_COMPLETE: Self-calibration ends, and SELFCAL clears or CAL_FAIL is set. (R92) -/
def execSelfcalComplete (n : Slice) (failed : BitVec 4) (s : State) : Host.Outcome State Fault Refusal :=
  .next (s.selfcalEnd n failed)

end Machine
end Sys2Proof
end

