-- ==== Sys2Proof/Machine/Dma.lean ====
section
/-! DEFINITION. DMA programs (chapter 19): what a channel reaches, its instructions, errors, and outstanding writes. A command
of a block instruction moves every piece that does not wait; the next command goes on from there. -/

namespace Sys2Proof
namespace Machine

/-! Errors (R326). -/

def dIllegal : Nat := 1
def dProgTag : Nat := 2
def dAddr : Nat := 3
def dTag : Nat := 4
def dUe : Nat := 5
def dTimeout : Nat := 6
def dNest : Nat := 7
def dSrc : Nat := 8

def State.outst (s : State) (e c : Nat) : Nat := s.getF (R.DMA_STAT e c) F.DMA_STAT_OUTST

def State.dmaPc (s : State) (e c : Nat) : Nat := (s.reg (R.DMA_PC e c)).toNat
def State.setDmaPc (s : State) (e c : Nat) (a : Nat) : State := s.setReg (R.DMA_PC e c) (BitVec.ofNat 32 a)

/-- DEPTH shows the open loops. -/
def State.setLoops (s : State) (e : Fin 13) (c : Fin 16) (l : List DmaLoop) : State :=
  (s.setDma e c { s.dmaOf e c with loops := l }).setF (R.DMA_STAT e c) F.DMA_STAT_DEPTH l.length

/-- The channel enters ERROR (R326). -/
def State.dmaErrored (s : State) (e : Fin 13) (c : Fin 16) (code addr : Nat) : State :=
  let a := R.DMA_STAT e c
  let s1 := (s.setF a F.DMA_STAT_ERR_F 1).setF a F.DMA_STAT_ERR code
  let s2 := if code == dAddr || code == dTag || code == dUe then s1.setReg (R.DMA_ERR_ADDR e c) (BitVec.ofNat 32 addr) else s1
  ((s2.setDma e c { s2.dmaOf e c with wait := none, after := .nothing }).setDmaState e c 5).xferDone e c 6

/-- The source of SIGNAL (R323). -/
def signalSource (e c : Nat) : Nat := if e < 12 then localSrc e (4 + c) else 8 + c

/-- What waits for the outstanding writes happens (R323, R325, R326). -/
def State.dmaSettle (s : State) (e : Fin 13) (c : Fin 16) : State :=
  let d := s.dmaOf e c
  let s0 := s.setDma e c { d with after := .nothing }
  let next (t : State) : State := (t.setDmaPc e c (t.dmaPc e c + 4)).setDmaState e c 1
  match d.after with
  | .nothing => s
  | .fence => next s0
  | .signal => (next s0).fire (signalSource e c)
  | .finish => (((s0.setLoops e c []).setF (R.DMA_STAT e c) F.DMA_STAT_DONE_F 1).setDmaState e c 0).xferDone e c 0
  | .halt => s0.dmaStopped e c 1
  | .state => s0.dmaStopped e c 2
  | .error code addr => s0.dmaErrored e c code addr

/-- Do `a` once the outstanding writes are answered: now where there are none. -/
def State.dmaAwait (s : State) (e : Fin 13) (c : Fin 16) (a : DmaAfter) : State :=
  let s1 := s.setDma e c { s.dmaOf e c with after := a }
  if s.outst e c == 0 then s1.dmaSettle e c else s1.setDmaState e c 3

/-- DMA_WRITE_RESPONSE. -/
def State.dmaResponse (s : State) (e : Fin 13) (c : Fin 16) : State :=
  let k := s.outst e c
  if k == 0 then s
  else
    let s1 := s.setF (R.DMA_STAT e c) F.DMA_STAT_OUTST (k - 1)
    if k == 1 then (s1.dmaSettle e c).dmaDrained e c else s1

/-- A write joins the outstanding ones, and its bytes are counted. -/
def State.dmaWrote (s : State) (e c : Nat) (bytes : Nat) : State :=
  (s.setF (R.DMA_STAT e c) F.DMA_STAT_OUTST (s.outst e c + 1)).countBy (R.DMA_BYTES e c) F.DMA_BYTES_VALUE bytes

/-! What a channel reaches (R319). -/

/-- Whether engine e reads, or writes, an address; the block of an absent slice answers every master (R4). -/
def State.dmaReach (s : State) (e a : Nat) (wr : Bool) : Bool :=
  let sys := e == 12
  s.absentSlice a || match spaceOf a with
  | .slice n => sys || n == e
  | .reg => a < 0x100000000 && (sys || (decide (0x02000000 ≤ a) && (a - 0x02000000) / 0x100000 == e))
  | .mcs _ => sys
  | .plain => sys || !inSysArea a
  | .main _ => true
  | .flash => !wr
  | _ => false

/-- A step of a channel: the state, and an error with its address. -/
structure DmaStep (α : Type) where
  st : State
  err : Option (Nat × Nat)
  v : α

def dmaAccess (e : Fin 13) : Access := ⟨.dma e, false, false⟩

/-- Read a cell (R320). -/
def State.dmaRead (s : State) (e : Fin 13) (a : Nat) : DmaStep Cell :=
  let bad (t : State) (code : Nat) : DmaStep Cell := ⟨t, some (code, a), emptyCell⟩
  if !s.dmaReach e a false then bad s dAddr
  else if isCells a then
    if s.absentSlice a then ⟨s, none, ⟨0, tagUint⟩⟩
    else
      let r := s.rd a
      if r.ue then bad r.st dUe else ⟨r.st, none, r.c⟩
  else match spaceOf a with
    | .flash => match s.flashGet a with
      | (t, some v) => ⟨t, none, ⟨v, tagUint⟩⟩
      | (t, none) => bad t dUe
    | _ => match s.busRead (dmaAccess e) a with
      | some (t, v) => ⟨t, none, ⟨v, tagUint⟩⟩
      | none => bad s dAddr

/-- Write a cell in CELL mode: not over a CAP cell. -/
def State.dmaWriteCell (s : State) (e : Fin 13) (a : Nat) (x : Cell) : DmaStep Unit :=
  if !s.dmaReach e a true then ⟨s, some (dAddr, a), ()⟩
  else if isCells a then
    if s.absentSlice a then ⟨s, none, ()⟩
    else if (s.cell a).tag == tagCap then ⟨s, some (dTag, a), ()⟩
    else ⟨s.wr none a x, none, ()⟩
  else match s.busWrite (dmaAccess e) a x.v with
    | some t => ⟨t, none, ()⟩
    | none => ⟨s, some (dAddr, a), ()⟩

/-- Move one cell in CELL mode (R320). -/
def State.moveCell (s : State) (e : Fin 13) (c : Fin 16) (src dst : Nat) : DmaStep Unit :=
  if src % 4 != 0 then ⟨s, some (dAddr, src), ()⟩
  else if dst % 4 != 0 then ⟨s, some (dAddr, dst), ()⟩
  else
    let r := s.dmaRead e src
    match r.err with
    | some x => ⟨r.st, some x, ()⟩
    | none =>
      if r.v.tag == tagCap then ⟨r.st, some (dTag, src), ()⟩
      else
        let w := r.st.dmaWriteCell e dst r.v
        match w.err with
        | some x => ⟨w.st, some x, ()⟩
        | none => ⟨w.st.dmaWrote e c 4, none, ()⟩

/-- Read a byte without its tag; registers take no narrow access (R8, R288). -/
def State.dmaReadByte (s : State) (e : Fin 13) (a : Nat) : DmaStep Nat :=
  if !isCells a && spaceOf a != .flash && !s.absentSlice a then ⟨s, some (dAddr, a), 0⟩
  else
    let r := s.dmaRead e (a / 4 * 4)
    ⟨r.st, r.err.map (fun x => (x.1, a)), if r.v.tag == tagCap then 0 else getBytes r.v.v (a % 4) 1⟩

/-- Bytes from addresses, in order. -/
def State.dmaReadBytes (s : State) (e : Fin 13) : List Nat → DmaStep (List Nat)
  | [] => ⟨s, none, []⟩
  | a :: t =>
    let r := s.dmaReadByte e a
    match r.err with
    | some x => ⟨r.st, some x, []⟩
    | none =>
      let q := r.st.dmaReadBytes e t
      ⟨q.st, q.err, r.v :: q.v⟩

/-- Write k bytes at `a` without a tag: a whole cell, or part of one (R286, R288). -/
def State.dmaWriteBytes (s : State) (e : Fin 13) (c : Fin 16) (a k v : Nat) : DmaStep Unit :=
  if !s.dmaReach e a true || !(isCells a || s.absentSlice a) then ⟨s, some (dAddr, a), ()⟩
  else if s.absentSlice a then ⟨s.dmaWrote e c k, none, ()⟩
  else
    let r := s.rd a
    let t := r.c.tag
    if k == 4 then
      if t == tagCap then ⟨r.st.badAcc, some (dTag, a), ()⟩
      else ⟨(r.st.wr none a ⟨BitVec.ofNat 32 v, if t == tagEmpty then tagUint else t⟩).dmaWrote e c 4, none, ()⟩
    else if narrowOk t false then ⟨(r.st.wr none (a / 4 * 4) ⟨putBytes r.c.v (a % 4) k v, t⟩).dmaWrote e c k, none, ()⟩
    else ⟨r.st.badAcc, some (dTag, a), ()⟩

/-- Little-endian value of bytes. -/
def leBytes (l : List Nat) : Nat := l.foldr (fun b v => b + 256 * v) 0

/-- Move bytes from the given addresses to `dst` onward, whole cells where four remain at a cell's start. -/
def State.moveBytes (s : State) (e : Fin 13) (c : Fin 16) (srcs : List Nat) (dst : Nat) : DmaStep Unit :=
  let r := s.dmaReadBytes e srcs
  match r.err with
  | some x => ⟨r.st, some x, ()⟩
  | none => r.st.dmaWriteBytes e c dst srcs.length (leBytes r.v)

/-- A piece of a block: the addresses it reads, as one cell or as bytes, and the address it writes. -/
structure DmaItem where
  srcs : List Nat
  dst : Nat

/-- The piece waits: 64 writes are outstanding (R323), or a memory that it needs is being cleared, or programmed (R293, R294,
R408). -/
def State.itemWaits (s : State) (e c : Nat) (x : DmaItem) : Bool :=
  decide (64 ≤ s.outst e c) || s.accessWaits x.dst || x.srcs.any s.accessWaits

/-- Move the pieces of a block in order, until one fails or waits; the value counts those moved. -/
def State.dmaEach (s : State) (e : Fin 13) (c : Fin 16) (cells : Bool) : List DmaItem → DmaStep Nat
  | [] => ⟨s, none, 0⟩
  | x :: t =>
    if s.itemWaits e c x then ⟨s, none, 0⟩
    else
      let r := if cells then s.moveCell e c (x.srcs.headD 0) x.dst else s.moveBytes e c x.srcs x.dst
      match r.err with
      | some y => ⟨r.st, some y, 0⟩
      | none =>
        let q := r.st.dmaEach e c cells t
        ⟨q.st, q.err, q.v + 1⟩

/-! Instructions (R316 to R318). -/

/-- Offsets of the open loops (R318). -/
def loopOffset (l : List DmaLoop) (f : DmaLoop → Int) : Int := l.foldl (fun a x => a + (x.i : Int) * f x) 0

def wrap32 (x : Int) : Nat := ofSigned 32 x

/-- The cells of an instruction from address `a`: a fetch error, or their words. -/
def State.dmaFetch (s : State) (e : Fin 13) (a : Nat) : Nat → DmaStep (List Nat)
  | 0 => ⟨s, none, []⟩
  | k + 1 =>
    let a := a % 2 ^ 32
    let ok := match spaceOf a with
      | .slice n => n == e.val
      | .plain => e.val == 12
      | _ => false
    if !ok then ⟨s, some (dAddr, a), []⟩
    else
      let r := s.rd a
      if r.ue then ⟨r.st, some (dUe, a), []⟩
      else if r.c.tag != tagUint then ⟨r.st, some (dProgTag, a), []⟩
      else
        let q := r.st.dmaFetch e (a + 4) k
        ⟨q.st, q.err, r.c.v.toNat :: q.v⟩

/-- Cells of an instruction by its opcode (R317); 0 for a reserved one. -/
def dmaCells (op : Nat) : Nat :=
  match op with
  | 0 => 1
  | 1 => 3
  | 2 => 2
  | 3 => 1
  | 4 => 2
  | 5 => 1
  | 6 => 4
  | 7 => 1
  | _ => 0

/-- The instruction at DMA_PC: its opcode and words, or the error of its fetch. -/
def State.dmaInstr (s : State) (e : Fin 13) (c : Fin 16) : DmaStep (List Nat) :=
  let pc := s.dmaPc e c
  let r := s.dmaFetch e pc 1
  match r.err with
  | some _ => r
  | none =>
    let w := r.v.headD 0
    let n := dmaCells (w / 2 ^ 28)
    if n == 0 then ⟨r.st, some (dIllegal, 0), []⟩
    else
      let q := r.st.dmaFetch e (pc + 4) (n - 1)
      ⟨q.st, q.err, w :: q.v⟩

def wordAt (l : List Nat) (k : Nat) : Nat := l[k]?.getD 0

/-- The channel goes on at its next instruction. -/
def State.dmaNext (s : State) (e c : Nat) (n : Nat) : State := s.setDmaPc e c (s.dmaPc e c + 4 * n)

/-- An error stops the channel, once its writes are answered. -/
def State.dmaFail (s : State) (e : Fin 13) (c : Fin 16) (code addr : Nat) : State := s.dmaAwait e c (.error code addr)

/-- A block instruction of cells `l` moves its pieces from the first that is left: the error that stops it, the next instruction
at its end, or a wait at the piece that cannot move yet (R323). -/
def State.dmaBlock (s : State) (e : Fin 13) (c : Fin 16) (l : List Nat) (cells : Bool) (items : List DmaItem) : State :=
  let k := ((s.dmaOf e c).block.map (·.2)).getD 0
  let r := s.dmaEach e c cells (items.drop k)
  let with_ (b : Option (List Nat × Nat)) : State := r.st.setDma e c { r.st.dmaOf e c with block := b }
  match r.err with
  | some (code, a) => (with_ none).dmaFail e c code a
  | none => if items.length ≤ k + r.v then (with_ none).dmaNext e c l.length else with_ (some (l, k + r.v))

/-- Pieces of a byte transfer of `n` bytes: offset and length. -/
def bytePieces (fixed : Bool) (dst : Nat) : Nat → Nat → List (Nat × Nat)
  | 0, _ => []
  | _ + 1, 0 => []
  | f + 1, n + 1 =>
    if !fixed && dst % 4 == 0 && decide (4 ≤ n + 1) then (dst, 4) :: bytePieces fixed (dst + 4) f (n + 1 - 4)
    else (dst, 1) :: bytePieces fixed (if fixed then dst else dst + 1) f n

/-- MOVE (R317, R320). -/
def State.dmaMove (s : State) (e : Fin 13) (c : Fin 16) (l : List Nat) : State :=
  let w := wordAt l 0
  let n := w % 2 ^ 24
  let loops := (s.dmaOf e c).loops
  let src := wrap32 ((wordAt l 1 : Int) + loopOffset loops (·.ss))
  let dst := wrap32 ((wordAt l 2 : Int) + loopOffset loops (·.ds))
  let sfix := natBit w 26
  let dfix := natBit w 25
  let at_ (fix : Bool) (b k : Nat) : Nat := if fix then b else (b + k) % 2 ^ 32
  if natBit w 24 || n == 0 then s.dmaFail e c dIllegal 0
  else if !natBit w 27 && (wordAt l 1 % 4 != 0 || loops.any (fun x => x.ss % 4 != 0)) then s.dmaFail e c dAddr src
  else if !natBit w 27 && (wordAt l 2 % 4 != 0 || loops.any (fun x => x.ds % 4 != 0)) then s.dmaFail e c dAddr dst
  else if natBit w 27 then
    s.dmaBlock e c l false (if dfix then (List.range n).map (fun k => ⟨[at_ sfix src k], dst⟩)
      else (bytePieces false dst n n).map (fun x =>
        ⟨(List.range x.2).map (fun i => at_ sfix src (x.1 - dst + i)), x.1 % 2 ^ 32⟩))
  else s.dmaBlock e c l true ((List.range n).map (fun k => ⟨[at_ sfix src (4 * k)], at_ dfix dst (4 * k)⟩))

/-- Where element p of frame f lies (R321): packed, or in its plane. -/
def packedAt (planes esize f p : Nat) : Nat := (f * planes + p) * esize
def planeAt (pstride esize f p : Nat) : Nat := p * pstride + f * esize

/-- SHUFFLE (R321): by cells where elements are cells and every address is aligned, and then under the alignment of R320; else
by bytes. -/
def State.dmaShuffle (s : State) (e : Fin 13) (c : Fin 16) (l : List Nat) : State :=
  let w := wordAt l 0
  let inter := natBit w 27
  let esize := w / 2 ^ 24 % 8 + 1
  let planes := w / 2 ^ 20 % 16 + 1
  let frames := w % 2 ^ 16
  let loops := (s.dmaOf e c).loops
  let src := wrap32 ((wordAt l 1 : Int) + loopOffset loops (·.ss))
  let dst := wrap32 ((wordAt l 2 : Int) + loopOffset loops (·.ds))
  let ps := wordAt l 3
  if w / 2 ^ 16 % 16 != 0 || planes == 1 || frames == 0 then s.dmaFail e c dIllegal 0
  else
    let from_ (f p : Nat) : Nat := (src + (if inter then planeAt ps esize f p else packedAt planes esize f p)) % 2 ^ 32
    let to_ (f p : Nat) : Nat := (dst + (if inter then packedAt planes esize f p else planeAt ps esize f p)) % 2 ^ 32
    let cells := (esize == 4 || esize == 8) && src % 4 == 0 && dst % 4 == 0 && ps % 4 == 0
    let pieces (x : Nat × Nat) : List DmaItem :=
      let b := to_ x.1 x.2
      if cells then (List.range (esize / 4)).map (fun k => ⟨[(from_ x.1 x.2 + 4 * k) % 2 ^ 32], (b + 4 * k) % 2 ^ 32⟩)
      else (bytePieces false b esize esize).map (fun y =>
        ⟨(List.range y.2).map (fun i => (from_ x.1 x.2 + (y.1 - b) + i) % 2 ^ 32), y.1 % 2 ^ 32⟩)
    if cells && (wordAt l 1 % 4 != 0 || loops.any (fun x => x.ss % 4 != 0)) then s.dmaFail e c dAddr src
    else if cells && (wordAt l 2 % 4 != 0 || loops.any (fun x => x.ds % 4 != 0)) then s.dmaFail e c dAddr dst
    else s.dmaBlock e c l cells ((List.range (frames * planes)).flatMap (fun k => pieces (k / planes, k % planes)))

/-- LOOP (R318). -/
def State.dmaLoop (s : State) (e : Fin 13) (c : Fin 16) (l : List Nat) : State :=
  let w := wordAt l 0
  let loops := (s.dmaOf e c).loops
  if w / 2 ^ 24 % 16 != 0 then s.dmaFail e c dIllegal 0
  else if 4 ≤ loops.length then s.dmaFail e c dNest 0
  else
    let x : DmaLoop := ⟨s.dmaPc e c + 8, w % 2 ^ 24, 0, toSigned 16 (wordAt l 1 / 65536), toSigned 16 (wordAt l 1)⟩
    (s.setLoops e c (x :: loops)).dmaNext e c 2

/-- ENDLOOP (R318). -/
def State.dmaEndloop (s : State) (e : Fin 13) (c : Fin 16) (l : List Nat) : State :=
  if wordAt l 0 % 2 ^ 28 != 0 then s.dmaFail e c dIllegal 0
  else match (s.dmaOf e c).loops with
    | [] => s.dmaFail e c dNest 0
    | x :: t =>
      if x.left == 1 then (s.setLoops e c t).dmaNext e c 1
      else (s.setLoops e c ({ x with left := x.left - 1, i := (x.i + 1) % 2 ^ 32 } :: t)).setDmaPc e c x.start

/-- A channel may name the source (R322). -/
def waitOk (e src : Nat) : Bool :=
  e == 12 || decide (src < 64) || (decide (localSrc e 0 ≤ src) && decide (src ≤ localSrc e 71))

/-- WAIT (R322); a PWM event of the channel's own slice that fires in this cycle ends it. -/
def State.dmaWait (s : State) (e : Fin 13) (c : Fin 16) (l : List Nat) : State :=
  let w := wordAt l 0
  let src := w % 1024
  if w / 1024 % 2 ^ 18 != 0 || wordAt l 1 / 2 ^ 24 != 0 then s.dmaFail e c dIllegal 0
  else if !waitOk e src then s.dmaFail e c dSrc 0
  else
    let w := (s.setDma e c { s.dmaOf e c with wait := some ⟨src, wordAt l 1, s.mtime.toNat, s.clock⟩ }).setDmaState e c 2
    if pwmSource src == some e.val && s.evr.taps.any (fun t => t.1 == src && t.2.1 == s.clock) then
      w.waitsEnd src s.clock (fun k => k == e.val)
    else w

/-- DMA_WAIT_TIMEOUT: TIMEOUT µs of MTIME have passed since the WAIT began. -/
def State.dmaTimeout (s : State) (e : Fin 13) (c : Fin 16) : State :=
  match (s.dmaOf e c).wait with
  | some w =>
    if s.dmaState e c != 2 || w.us == 0 || decide (s.mtime.toNat < w.since + 1500 * w.us) then s
    else (s.setDma e c { s.dmaOf e c with wait := none }).dmaFail e c dTimeout 0
  | none => s

/-- FENCE, SIGNAL, END: one cell whose other bits are zero. -/
def State.dmaBarrier (s : State) (e : Fin 13) (c : Fin 16) (a : DmaAfter) (l : List Nat) : State :=
  if wordAt l 0 % 2 ^ 28 != 0 then s.dmaFail e c dIllegal 0 else s.dmaAwait e c a

/-- The memory that holds the channel's program stalls. -/
def State.dmaStalls (s : State) (e : Fin 13) (c : Fin 16) : Bool := s.memStalls (s.dmaPc e c)

/-- The command of an instruction: a RUNNING channel executes the instruction at DMA_PC if its opcode is `op`; an instruction
that cannot be read stops the channel with its error. A block instruction that waited goes on with the cells it was read with
(R316). -/
def State.dmaRun (s : State) (e : Fin 13) (c : Fin 16) (op : Nat) (f : State → List Nat → State) : State :=
  let run (t : State) (l : List Nat) : State := if wordAt l 0 / 2 ^ 28 == op then f t l else s
  if s.dmaState e c != 1 || (s.dmaOf e c).after != .nothing || dmaChannels e ≤ c.val then s
  else match (s.dmaOf e c).block with
  | some (l, _) => run s l
  | none =>
    if s.dmaStalls e c then s
    else
      let r := s.dmaInstr e c
      match r.err with
      | some (code, a) => r.st.dmaFail e c code a
      | none => run r.st r.v

end Machine
end Sys2Proof
end

