-- ==== Sys2Proof/Machine/Desc.lean ====
section
/-! DEFINITION. What each descriptor opcode does (R354 to R358): its checks, its accesses to the slice of its function, and
what it waits for. -/

namespace Sys2Proof
namespace Machine

/-- How a descriptor that begins goes on: it completes with a status and a result, or waits for an event; or it cannot begin
yet, since a memory or a read request that it needs is not free (R294, R342). -/
inductive DescEnd where
  | done (status result : Nat)
  | wait (a : Await)
  | held
  deriving DecidableEq, Repr

/-- The state after a descriptor's accesses, and how it goes on. -/
structure DescOut where
  st : State
  e : DescEnd

/-- What an opcode requires of SLICE (R351, R354). -/
inductive SliceNeed where
  /-- A slice, which the function owns. -/
  | slice
  /-- None: SLICE is 0xFF. -/
  | none
  /-- A slice, or 0xFF. -/
  | either
  deriving DecidableEq, Repr

/-- SLICE is in range for the opcode. -/
def SliceNeed.ok (q : SliceNeed) (slice : Nat) : Bool :=
  match q with
  | .slice => decide (slice < 12)
  | .none => slice == 0xFF
  | .either => decide (slice < 12) || slice == 0xFF

/-- The authority of a descriptor: its function's, without WARDEN and without TEST (R252, R354). -/
def descAccess (f : Fin 16) : Access := ⟨.fn f, false, false⟩

/-- The common checks in their order: PARAM, ABSENT, NOT_OWNER (R353, R356). `bad`: an operand is out of range; `gone`: the
unit is absent; `barred`: the opcode needs PF0. -/
def State.descCheck (s : State) (f : Fin 16) (x : Flight) (q : SliceNeed) (bad gone barred : Bool) : Option Nat :=
  let named := decide (x.d.slice < 12)
  if x.d.bad || !q.ok x.d.slice || bad then some 5
  else if (named && !s.fitted x.d.slice) || gone then some 4
  else if x.lost || (named && s.owner x.d.slice != f.val) || barred then some 3
  else none

/-- Write the outcome into the flight that has the place `pos` in the order of fetch. -/
def State.descSettle (s : State) (f : Fin 16) (pos : Nat) (e : DescEnd) : State :=
  match (s.fnOf f).flights.findIdx? (fun y => y.pos == pos) with
  | none => s
  | some k => match e with
    | .done status result => s.descFinish f k status (BitVec.ofNat 64 result)
    | .wait a => s.setFn f { s.fnOf f with flights := (s.fnOf f).flights.modify k (fun y => { y with await := a }) }
    | .held => s

/-- Flight k of function f begins, when its opcode is `op` and it may: it fails a check, or does what `run` says. A
perturbation that is active as it begins marks it (R187, R479). -/
def State.descBegin (s : State) (f : Fin 16) (k op : Nat) (check : Flight → Option Nat) (run : State → Desc → DescOut) : State :=
  match (s.fnOf f).flights[k]? with
  | none => s
  | some x =>
    if x.d.op != op || !s.mayBegin f x then s
    else match check x with
      | some status => s.descFinish f k status 0
      | none =>
        let s1 := s.setFn f { s.fnOf f with
          flights := (s.fnOf f).flights.modify k (fun y => s.flightPtb { y with begun := true, since := some s.clock }) }
        let o := run s1 x.d
        match o.e with
        | .held => s
        | e => o.st.descSettle f x.pos e

/-- A descriptor that names a slice; its operands are checked by `bad`. -/
def State.descSlice (s : State) (f : Fin 16) (k op : Nat) (bad : Desc → Bool) (gone : Bool)
    (run : State → Fin 12 → Desc → DescOut) : State :=
  s.descBegin f k op (fun x => s.descCheck f x .slice (bad x.d) gone false) (fun t d =>
    match h : decide (d.slice < 12) with
    | true => run t ⟨d.slice, of_decide_eq_true h⟩ d
    | false => ⟨t, .done 5 0⟩)

/-- Operand i of a descriptor. -/
def Desc.op32 (d : Desc) (i : Fin 12) : Nat := (d.p.get i).toNat

/-! Register accesses of a descriptor: as writes and reads of the slice's owner (R354). -/

/-- The refusal counters of slice n and of its channels, and the fields that count refused commands. -/
def rejCounters (n : Nat) : List (Nat × Fld) :=
  [(R.SLC_CMD_STAT n, F.SLC_CMD_STAT_REJ), (R.SLC_CFG_REJ n, ⟨0, 32⟩), (R.SAR_CFG_REJ n, ⟨0, 32⟩), (R.GRG_CFG_REJ n, ⟨0, 32⟩),
    (R.GRG_ARM_REJ n, ⟨0, 32⟩), (R.GRG_TEST_REJ n, ⟨0, 32⟩), (R.CLE_CFG_REJ n, ⟨0, 32⟩), (R.CLE_CMD_STAT n, F.CLE_CMD_STAT_REJ),
    (R.MCS_LD_REJ n, ⟨0, 32⟩), (R.DMA_CFG_REJ n, ⟨0, 32⟩), (R.EVR_CFG_REJ, ⟨0, 32⟩), (R.INJ_REJ n, ⟨0, 32⟩),
    (R.PTB_REJ n, ⟨0, 32⟩), (R.WDG_REJ n, ⟨0, 32⟩), (R.DEV_ARM_REJ, ⟨0, 32⟩), (R.HIF_BADACC, ⟨0, 32⟩)] ++
  (List.range 8).flatMap (fun k => [(R.PWM_CFG_REJ n k, (⟨0, 32⟩ : Fld)), (R.PWM_TRIP_REJ n k, ⟨0, 32⟩)])

/-- The state with those counters at 0, so that a refusal shows in them even where one has saturated. -/
def State.rejClear (s : State) (n : Nat) : State := (rejCounters n).foldl (fun (t : State) e => t.setF e.1 e.2 0) s

/-- An action on slice n, done with the counters at 0, is refused by its unit. -/
def State.refuses (s : State) (n : Nat) (act : State → State) : Bool :=
  (rejCounters n).any (fun e => (act (s.rejClear n)).getF e.1 e.2 != 0)

/-- A 32-bit write at offset `off` of the block of slice n by function f: register, microcode window or slice memory. -/
def State.descPut (s : State) (f : Fin 16) (n : Fin 12) (off : Nat) (v : Word) : State :=
  let a := sliceBase n + off
  if 0x80000 ≤ off ∧ off % 4 = 0 then s.rawWrite a v
  else match s.busWrite (descAccess f) a v with
    | some t => t
    | none => s.hostRefuse f

/-- Writes in order up to the first that is refused: the state, the writes done, and whether all were. -/
def State.descPuts (s : State) (f : Fin 16) (n : Fin 12) : List (Nat × Word) → State × Nat × Bool
  | [] => (s, 0, true)
  | (off, v) :: l =>
    if s.refuses n (fun t => t.descPut f n off v) then (s.descPut f n off v, 0, false)
    else
      let r := (s.descPut f n off v).descPuts f n l
      (r.1, r.2.1 + 1, r.2.2)

/-- One write, and what follows when it is not refused. -/
def State.descPutThen (s : State) (f : Fin 16) (n : Fin 12) (off : Nat) (v : Word) (next : State → DescOut) : DescOut :=
  match s.descPuts f n [(off, v)] with
  | (t, _, true) => next t
  | (t, _, false) => ⟨t, .done 2 0⟩

/-- Offset of an absolute slice register in its slice's block. -/
def offIn (n a : Nat) : Nat := a - sliceBase n

/-- A 32-bit read at offset `off` of the block of slice n by function f. -/
def State.descGet (s : State) (f : Fin 16) (n : Fin 12) (off : Nat) : State × Word :=
  let a := sliceBase n + off
  if 0x80000 ≤ off then s.rawRead a
  else match s.busRead (descAccess f) a with
    | some r => r
    | none => (s.hostRefuse f, 0xFFFFFFFF)

/-- `k` words from offset `off`. -/
def State.descGets (s : State) (f : Fin 16) (n : Fin 12) (off : Nat) : Nat → State × List Word
  | 0 => (s, [])
  | k + 1 =>
    let r := s.descGet f n off
    let q := r.1.descGets f n (off + 4) k
    (q.1, r.2 :: q.2)

/-! The opcodes. -/

/-- UNIT is not 0. -/
def unitSet (d : Desc) : Bool := d.unit != 0

/-- 0x00 NOP. -/
def State.descNop (s : State) (f : Fin 16) (k : Nat) : State :=
  s.descBegin f k 0x00 (fun x => s.descCheck f x .none (unitSet x.d) false false) (fun t _ => ⟨t, .done 0 0⟩)

/-- 0x01 FENCE: besides, no completion of an earlier descriptor of its ring waits to be written (R358). -/
def State.descFence (s : State) (f : Fin 16) (k : Nat) : State :=
  let free (x : Flight) : Bool := (s.fnOf f).done.all (fun c => c.sq != x.sq || decide (x.pos < c.pos))
  match (s.fnOf f).flights[k]? with
  | none => s
  | some x =>
    if free x then s.descBegin f k 0x01 (fun y => s.descCheck f y .none (unitSet y.d) false false) (fun t _ => ⟨t, .done 0 0⟩)
    else s

/-- 0x02 SET_PARAM: up to six writes. -/
def State.descSetParam (s : State) (f : Fin 16) (k : Nat) : State :=
  let writes (d : Desc) : List (Nat × Word) :=
    (List.range (min d.unit 6)).map (fun i => ((d.p.toList[2 * i]?.getD 0).toNat, d.p.toList[2 * i + 1]?.getD 0))
  let bad (d : Desc) : Bool := d.unit == 0 || decide (6 < d.unit) || (writes d).any (fun e => decide (0x100000 ≤ e.1))
  s.descSlice f k 0x02 bad false (fun t n d =>
    if (writes d).any (fun e => t.accessWaits (sliceBase n + e.1)) then ⟨t, .held⟩
    else match t.descPuts f n (writes d) with
    | (u, done, ok) => ⟨u, .done (if ok then 0 else 2) done⟩)

/-- 0x03 SET_REF. `coll`: a commit to the register falls in the same cycle and wins (R107). A standby slice refuses (R393). -/
def State.descSetRef (s : State) (f : Fin 16) (k : Nat) (coll : Bool) : State :=
  s.descSlice f k 0x03 (fun d => decide (15 < d.unit)) false (fun t n d =>
    if t.standby n then ⟨t, .done 2 0⟩
    else if coll then
      ⟨(t.count (R.CLE_WRCOLL n) F.CLE_WRCOLL_COUNT).setF (R.CLE_LSTAT n d.unit) F.CLE_LSTAT_WRCOLL_F 1, .done 0 1⟩
    else t.descPutThen f n (offIn n (R.CLE_REF n d.unit)) (d.p.get 0 &&& 0xFFFF) (fun u => ⟨u, .done 0 0⟩))

/-- 0x04 LOAD_COEFF: the four registers of a bank. -/
def State.descLoadCoeff (s : State) (f : Fin 16) (k : Nat) : State :=
  s.descSlice f k 0x04 (fun d => decide (15 < d.unit) || decide (1 < d.op32 0)) false (fun t n d =>
    let b := d.op32 0
    if t.standby n then ⟨t, .done 2 0⟩
    else match t.descPuts f n [(offIn n (R.CLE_CB0 n d.unit b), d.p.get 1), (offIn n (R.CLE_CB1 n d.unit b), d.p.get 2),
        (offIn n (R.CLE_CB2 n d.unit b), d.p.get 3), (offIn n (R.CLE_CB3 n d.unit b), d.p.get 4)] with
      | (u, _, ok) => ⟨u, .done (if ok then 0 else 2) 0⟩)

/-- A CLE command on loop j, by its write of CLE_CMD; then the wait for its boundary, or the status of CLE_CMD_STAT. -/
def State.descLoopCmd (s : State) (f : Fin 16) (n : Fin 12) (j code : Nat) (a : Await) : DescOut :=
  let t := s.descPut f n (offIn n (R.CLE_CMD n)) (F.CLE_CMD_KEY.word 0x0C1E ||| F.CLE_CMD_LOOP.word j ||| F.CLE_CMD_CMD.word code)
  match t.getF (R.CLE_CMD_STAT n) F.CLE_CMD_STAT_STATUS with
  | 0 => ⟨t, .wait a⟩
  | st => ⟨t, .done st 0⟩

/-- 0x05 SWAP_BANK. -/
def State.descSwapBank (s : State) (f : Fin 16) (k : Nat) : State :=
  s.descSlice f k 0x05 (fun d => decide (15 < d.unit)) false (fun t n d =>
    if t.standby n then ⟨t, .done 2 0⟩ else t.descLoopCmd f n d.unit 1 (.swap n d.unit))

/-- 0x06 SET_MODE_LOOP, with a write of CLE_MAN first where P0 bit 16 asks for it. -/
def State.descSetMode (s : State) (f : Fin 16) (k : Nat) : State :=
  s.descSlice f k 0x06 (fun d => decide (15 < d.unit)) false (fun t n d =>
    let cmd (u : State) : DescOut := u.descLoopCmd f n d.unit (if bit (d.p.get 0) 0 then 3 else 2) (.mode n d.unit)
    if t.standby n then ⟨t, .done 2 0⟩
    else if bit (d.p.get 0) 16 then t.descPutThen f n (offIn n (R.CLE_MAN n d.unit)) (d.p.get 1 &&& 0xFFFF) cmd
    else cmd t)

/-- 0x07 READ_STATE. -/
def State.descReadState (s : State) (f : Fin 16) (k : Nat) : State :=
  s.descSlice f k 0x07 (fun d => unitSet d || d.op32 1 % 4 != 0 || decide (4096 < d.op32 1) ||
      decide (0x100000 < d.op32 0 + d.op32 1)) false (fun t n d =>
    if d.op32 0 % 4 != 0 then ⟨t.hostRefuse f, .done 2 0⟩
    else if (List.range (d.op32 1 / 4)).any (fun i => t.accessWaits (sliceBase n + d.op32 0 + 4 * i)) then ⟨t, .held⟩
    else
      let r := t.descGets f n (d.op32 0) (d.op32 1 / 4)
      ⟨r.1.toHost f d.addr r.2, .done 0 (d.op32 1)⟩)

/-- 0x08 CAPTURE: the configuration, then INJ_CTRL with its START; R188's conditions on CHIRP are judged on the whole set, not
between two writes of it (log 141). -/
def State.descCapture (s : State) (f : Fin 16) (k : Nat) : State :=
  s.descSlice f k 0x08 (fun d => unitSet d || F.INJ_CTRL_START.get (d.p.get 0) == 0) false (fun t n d =>
    let shape (u : State) (v : Nat) : State :=
      if u.isSet (R.INJ_STAT n) F.INJ_STAT_RUN then u else u.setF (R.INJ_CTRL n) F.INJ_CTRL_SHAPE v
    match (shape t 0).descPuts f n [(offIn n (R.INJ_SIG n), d.p.get 1), (offIn n (R.INJ_FREQ n), d.p.get 2),
        (offIn n (R.INJ_FEND n), d.p.get 3), (offIn n (R.INJ_RATE n), d.p.get 4), (offIn n (R.INJ_CAP n), d.p.get 5),
        (offIn n (R.INJ_CORR n), d.p.get 6), (offIn n (R.INJ_CTRL n), d.p.get 0)] with
    | (u, _, true) => ⟨u, .wait (.inj n)⟩
    | (u, _, false) => ⟨shape u (t.getF (R.INJ_CTRL n) F.INJ_CTRL_SHAPE), .done 2 0⟩)

/-- 0x09 TRACE_ARM. -/
def State.descTraceArm (s : State) (f : Fin 16) (k : Nat) : State :=
  let lg (d : Desc) : Nat := d.op32 1 % 32
  let arm (d : Desc) : Bool := bit (d.p.get 0) 0
  s.descBegin f k 0x09 (fun x => s.descCheck f x .none
      (unitSet x.d || (arm x.d && (decide (lg x.d < 12) || decide (24 < lg x.d) || x.d.addr % 4096 != 0))) false false)
    (fun t d => ⟨t.setFn f { t.fnOf f with trace := if arm d then some (d.addr, lg d, 0) else none }, .done 0 0⟩)

/-- 0x0A DMA_XFER: a channel of an owned slice, or from PF0 a system channel. -/
def State.descDmaXfer (s : State) (f : Fin 16) (k : Nat) : State :=
  s.descBegin f k 0x0A (fun x => s.descCheck f x .either (decide ((if x.d.slice < 12 then 8 else 16) ≤ x.d.unit)) false
      (x.d.slice == 0xFF && f.val != 0))
    (fun t d =>
      let e : Fin 13 := ⟨min d.slice 12, by omega⟩
      let c : Fin 16 := ⟨d.unit % 16, Nat.mod_lt _ (by decide)⟩
      if t.dmaMayStart e c then ⟨t.dmaStart e c, .wait (.dma e c)⟩ else ⟨t.dmaReject e, .done 2 0⟩)

/-- The next request of a descriptor's read of `bytes` bytes, `sent` of which are asked for: at most Max_Read_Request_Size
(R342). -/
def State.askHost (s : State) (f : Fin 16) (d : Desc) (bytes sent : Nat) : State :=
  s.emit (.hostRead f (d.addr + sent) (min (bytes - sent) (s.maxRead f)))

/-- A descriptor reads `bytes` bytes at its ADDR, beginning with one request once it may be issued (R342). -/
def State.descAsk (s : State) (f : Fin 16) (d : Desc) (bytes : Nat) : DescOut :=
  if s.mayRequest f then ⟨s.askHost f d bytes 0, .wait (.read [] (min bytes (s.maxRead f)))⟩ else ⟨s, .held⟩

/-- 0x0B MCODE_LOAD: its words are read from host memory. Not FENCED refuses. -/
def State.descMcodeLoad (s : State) (f : Fin 16) (k : Nat) : State :=
  s.descSlice f k 0x0B (fun d => unitSet d || decide (d.op32 0 < 0x800) || decide (0xFFF < d.op32 0) || d.op32 1 == 0 ||
      decide (0x1000 < d.op32 0 + d.op32 1)) (!s.part.full) (fun t n d =>
    if t.slState n != slFenced then ⟨t, .done 2 0⟩ else t.descAsk f d (32 * d.op32 1))

/-- Microwords from host words: eight for each, laid out as R123. -/
def mwordsOf : List Word → List MWord
  | w0 :: w1 :: w2 :: w3 :: w4 :: _ :: _ :: _ :: l =>
    BitVec.ofNat 144 (w0.toNat + 2 ^ 32 * w1.toNat + 2 ^ 64 * w2.toNat + 2 ^ 96 * w3.toNat + 2 ^ 128 * (w4.toNat % 65536)) ::
      mwordsOf l
  | _ => []

/-- Commit words from address `w` up to the first refused one, which is answered (0 for none). -/
def State.loadWords (s : State) (n : Fin 12) (w : Nat) : List MWord → State × Nat
  | [] => (s, 0)
  | v :: l => if s.loadCheck n w v == 0 then (s.commitWord n w v).loadWords n (w + 1) l else (s.commitWord n w v, w)

/-- The words of a MCODE_LOAD have come: LD_OPEN is opened for them and closed after them, and the CRC follows (R142). -/
def State.mcodeData (s : State) (n : Fin 12) (d : Desc) (ws : List Word) : DescOut :=
  if s.slState n != slFenced then ⟨s, .done 2 0⟩
  else
    let r := (s.setLdOpen n true).loadWords n (d.op32 0) (mwordsOf ws)
    ⟨r.1.setLdOpen n false, .wait (.crc n r.2)⟩

/-! Flash (R425). -/

/-- The operation code that a flash descriptor waits for: 0 erase, 1 program, 2 margin check. -/
def flashKind (op : Nat) : Nat := if op == 5 then 2 else if op == 2 then 1 else 0

/-- Run a flash command for a descriptor. -/
def State.flashDesc (s : State) (d : Desc) (data : List Word) : DescOut :=
  let op := d.op32 0 % 16
  let b := selOf (d.p.get 1)
  let s1 := if op == 6 || op == 9 then s.setFlc { s.flc with stage := .full (d.p.get 2) (d.p.get 3) } else s
  let r := s1.flcRun op b data
  if r.begun then ⟨r.st, .wait (.flash (blkKey b.arr b.blk) (flashKind op))⟩
  else ⟨r.st.flcEnd r.status r.reason, .done r.status 0⟩

/-- The array that a flash descriptor addresses is busy; a SUSPEND addresses a busy one. -/
def State.flashWaits (s : State) (d : Desc) : Bool :=
  d.op32 0 % 16 != 3 && (match s.flc.run with
    | some r => r.arr == (selOf (d.p.get 1)).arr
    | none => false)

/-- The operations that name a block: all but SET_PW, SET_NEXT, LOCK and UNLOCK. -/
def namesBlock (op : Nat) : Bool := decide (1 ≤ op) && decide (op ≤ 5)

/-- An operand of FLASH_OP is out of range (R353, R408): a reserved operation, a block or page that the command cannot name, the
reserved margin mode, or a bank other than 0 and 1. -/
def flashBad (d : Desc) : Bool :=
  let op := d.op32 0 % 16
  let b := selOf (d.p.get 1)
  op == 0 || decide (9 < op) || (namesBlock op && !blkOk b.arr b.blk) ||
    (op == 2 && decide (arrPages b.arr ≤ b.page)) || (op == 5 && b.mode == 3) || (op == 7 && decide (1 < b.arr))

/-- 0x0C FLASH_OP: it waits while its array is busy. The page of a PROGRAM is read from host memory first; when it has come, the
operation waits for its array again (R425). -/
def State.descFlashOp (s : State) (f : Fin 16) (k : Nat) : State :=
  match (s.fnOf f).flights[k]? with
  | none => s
  | some x =>
    if x.d.op == 0x0C && s.flashWaits x.d then s
    else match x.await with
    | .page ws => if x.begun then (s.flashDesc x.d ws).st.descSettle f x.pos (s.flashDesc x.d ws).e else s
    | _ => s.descBegin f k 0x0C (fun y => s.descCheck f y .none (unitSet y.d || flashBad y.d) false (f.val != 0)) (fun t d =>
      if d.op32 0 % 16 == 2 then t.descAsk f d 256 else t.flashDesc d [])

/-! The others. -/

/-- 0x0D MARCH. Only PF0 marches a target that is no slice of its own. -/
def State.descMarch (s : State) (f : Fin 16) (k : Nat) : State :=
  let tgt (d : Desc) : Nat := d.op32 0 % 32
  let destr (d : Desc) : Bool := bit (d.p.get 0) 8
  let bad (d : Desc) : Bool := unitSet d || !(decide (tgt d < 12) || tgt d == marchPlain || tgt d == marchMain 0 || tgt d == marchMain 1) ||
    (d.slice != 0xFF && d.slice != tgt d)
  let gone (d : Desc) : Bool := (decide (tgt d < 12) && !s.fitted (tgt d)) || (tgt d == marchMain 1 && !s.chFitted 1)
  s.descBegin f k 0x0D (fun x => s.descCheck f x .either (bad x.d) (gone x.d)
      (f.val != 0 && !(decide (tgt x.d < 12) && s.owner (tgt x.d) == f.val)))
    (fun t d =>
      let u := t.marchReq 0x3A2C (tgt d) (destr d)
      match t.marchStatus 0x3A2C (tgt d) (destr d) with
      | 0 => ⟨u, .wait .march⟩
      | st => ⟨u, .done st 0⟩)

/-- A slice command by a write of SLC_CMD: what it waits for, or the status of SLC_CMD_STAT. -/
def State.descSliceCmd (s : State) (f : Fin 16) (n : Fin 12) (v : Word) (a : Await) : DescOut :=
  let put (t : State) : State := t.descPut f n (offIn n (R.SLC_CMD n)) (F.SLC_CMD_KEY.word 0x5C1E ||| v)
  if s.refuses n put then ⟨put s, .done ((put s).getF (R.SLC_CMD_STAT n) F.SLC_CMD_STAT_STATUS) 0⟩ else ⟨put s, .wait a⟩

/-- 0x0E SLICE_FENCE. -/
def State.descSliceFence (s : State) (f : Fin 16) (k : Nat) : State :=
  s.descSlice f k 0x0E unitSet false (fun t n d =>
    t.descSliceCmd f n (F.SLC_CMD_CMD.word 1 ||| F.SLC_CMD_TO_TWIN.word (b2n (bit (d.p.get 0) 8))) (.fenced n))

/-- 0x0F SLICE_RESUME: RESTART first where P0 bit 1 asks for it, then RESUME, then GO where bit 0 does. -/
def State.descSliceResume (s : State) (f : Fin 16) (k : Nat) : State :=
  s.descSlice f k 0x0F unitSet false (fun t n d =>
    let go := bit (d.p.get 0) 0
    if bit (d.p.get 0) 1 then t.descSliceCmd f n (F.SLC_CMD_CMD.word 4) (.restart n go)
    else t.descSliceCmd f n (F.SLC_CMD_CMD.word 2) (.resume n go))

/-- The records of a HIL feed from their words: input, value and VALID_FROM; `none` where a bit that must be zero is set, or
the input does not exist (R355). The time of entry is stamped when a record is offered. -/
def hilRecs : List Word → Option (List (Fin 12 × HilRec))
  | w0 :: w1 :: l =>
    match h : decide (w1.toNat / 65536 < 12), hilRecs l with
    | true, some t => some ((⟨w1.toNat / 65536, of_decide_eq_true h⟩, ⟨w1.setWidth 16, w0, 0⟩) :: t)
    | _, _ => none
  | _ => some []

/-- Offer records in order: those entered are counted; a full feed drops and counts (R94). -/
def State.hilOffer (s : State) (n : Fin 12) : List (Fin 12 × HilRec) → State × Nat
  | [] => (s, 0)
  | (i, r) :: l =>
    let x := s.hilOf n i
    if 16 ≤ x.feed.length then (s.count (R.SAR_HIL n i) F.SAR_HIL_FULL).hilOffer n l
    else
      let q := (s.setHil n i { x with feed := x.feed ++ [{ r with entered := s.clock }] }).hilOffer n l
      (q.1, q.2 + 1)

/-- The records of a HIL_FEED are offered, in HIL mode. -/
def State.hilData (s : State) (n : Fin 12) (ws : List Word) : DescOut :=
  if s.mode != mdHil then ⟨s, .done 2 0⟩
  else match hilRecs ws with
    | none => ⟨s, .done 5 0⟩
    | some rs => let r := s.hilOffer n rs; ⟨r.1, .done 0 r.2⟩

/-- 0x10 HIL_FEED: inline records, or records at ADDR. -/
def State.descHilFeed (s : State) (f : Fin 16) (k : Nat) : State :=
  let inline_ (d : Desc) : Bool := decide (d.op32 0 ≤ 5) && d.addr == 0
  let recs (d : Desc) : List Word := (d.p.toList.drop 2).take (2 * d.op32 0)
  s.descSlice f k 0x10 (fun d => unitSet d || d.op32 0 == 0 || decide (512 < d.op32 0) || (inline_ d && (hilRecs (recs d)).isNone))
    (!s.part.full) (fun t n d =>
      if t.mode != mdHil then ⟨t, .done 2 0⟩
      else if inline_ d then t.hilData n (recs d)
      else t.descAsk f d (8 * d.op32 0))

/-- Sources that EVENT_WAIT of function f may name. -/
def State.waitable (s : State) (f : Fin 16) (src : Nat) : Bool :=
  decide (src < 64) || src == 992 + f.val ||
    (decide (64 ≤ src) && decide (src < 928) && s.fitted ((src - 64) / 72) && s.owner ((src - 64) / 72) == f.val)

/-- 0x11 EVENT_WAIT. -/
def State.descEventWait (s : State) (f : Fin 16) (k : Nat) : State :=
  s.descBegin f k 0x11 (fun x => s.descCheck f x .none (unitSet x.d || !s.waitable f (x.d.op32 0 % 1024)) false false)
    (fun t d => ⟨t, .wait (.event (d.op32 0 % 1024))⟩)

/-- EVENT_WAIT_TIMEOUT: P1 µs have passed since it began; 0 is no timeout. -/
def State.descEventTimeout (s : State) (f : Fin 16) (k : Nat) : State :=
  match (s.fnOf f).flights[k]? with
  | none => s
  | some x =>
    match x.await with
    | .event _ => if x.begun && x.d.op32 1 != 0 && decide (x.since.getD 0 + 1500 * x.d.op32 1 ≤ s.clock) then s.descFinish f k 1 0 else s
    | _ => s

/-- Bytes that a descriptor reads from host memory. -/
def descBytes (d : Desc) : Nat := if d.op == 0x0B then 32 * d.op32 1 else if d.op == 0x10 then 8 * d.op32 0 else 256

/-- The next request of a flight whose read was split, where it may be issued (R342). -/
def State.askNext (s : State) (f : Fin 16) (y : Flight) : State :=
  match y.await with
  | .read got sent =>
    if y.begun && decide (sent < descBytes y.d) && s.mayRequest f then
      (s.askHost f y.d (descBytes y.d) sent).descSettle f y.pos (.wait (.read got (min (descBytes y.d) (sent + s.maxRead f))))
    else s
  | _ => s

/-- A tick issues further requests of the reads that are split, in the order of fetch of each function (R342, log 166). -/
def State.askMore (s : State) : State :=
  (List.finRange 16).foldl (fun (t : State) (f : Fin 16) =>
    (t.fnOf f).flights.foldl (fun (u : State) y => u.askNext f y) t) s

/-- What a descriptor does with all the data it has read. -/
def State.descUse (s : State) (d : Desc) (ws : List Word) : DescOut :=
  match h : decide (d.slice < 12) with
  | true =>
    let n : Fin 12 := ⟨d.slice, of_decide_eq_true h⟩
    if d.op == 0x0B then s.mcodeData n d ws else s.hilData n ws
  | false => if s.flashWaits d then ⟨s, .wait (.page ws)⟩ else s.flashDesc d ws

/-- HOST_READ_COMPLETION: data of flight k come, for what its requests have asked; the descriptor uses them once it has all (R342).
What comes after an abort has begun is dropped and counted (R363). -/
def State.descData (s : State) (f : Fin 16) (k : Nat) (ws : List Word) : State :=
  match (s.fnOf f).flights[k]? with
  | none => s
  | some x =>
    match x.await with
    | .read got sent =>
      let all := got ++ ws
      if !x.begun || ws.isEmpty || decide (sent < 4 * all.length) then s
      else if 4 * all.length < descBytes x.d then s.descSettle f x.pos (.wait (.read all sent))
      else let o := s.descUse x.d all; o.st.descSettle f x.pos o.e
    | _ => if (s.fnOf f).cause != 0 then s.lateCompletion f else s

end Machine
end Sys2Proof
end

