-- ==== Sys2Proof/Machine/Descriptors.lean ====
section
/-! DEFINITION. The descriptors that a host function submits (R354). -/

namespace Sys2Proof
namespace Machine

/-- DESC_NOP: NOP descriptor completes at once. (R354) -/
def execDescNop (f : Func) (k : Nat) (s : State) : Host.Outcome State Fault Refusal := .next (s.descNop f k)

/-- DESC_FENCE: FENCE descriptor completes after every earlier descriptor of its ring and their writes. (R358) -/
def execDescFence (f : Func) (k : Nat) (s : State) : Host.Outcome State Fault Refusal := .next (s.descFence f k)

/-- SET_PARAM: Writes up to six registers of an owned slice. (R354) -/
def execSetParam (f : Func) (k : Nat) (s : State) : Host.Outcome State Fault Refusal := .next (s.descSetParam f k)

/-- SET_REF: Writes a loop's reference. (R354) -/
def execSetRef (f : Func) (k : Nat) (coll : Bool) (s : State) : Host.Outcome State Fault Refusal :=
  .next (s.descSetRef f k coll)

/-- LOAD_COEFF: Writes a coefficient bank of a loop. (R354) -/
def execLoadCoeff (f : Func) (k : Nat) (s : State) : Host.Outcome State Fault Refusal := .next (s.descLoadCoeff f k)

/-- DESC_SWAP_BANK: Issues SWAP_BANK and completes at the boundary where it takes effect. (R354) -/
def execDescSwapBank (f : Func) (k : Nat) (s : State) : Host.Outcome State Fault Refusal := .next (s.descSwapBank f k)

/-- SET_MODE_LOOP: Changes a loop to automatic or manual mode. (R354) -/
def execSetModeLoop (f : Func) (k : Nat) (s : State) : Host.Outcome State Fault Refusal := .next (s.descSetMode f k)

/-- READ_STATE: Copies a range of slice registers to host memory. (R354) -/
def execReadState (f : Func) (k : Nat) (s : State) : Host.Outcome State Fault Refusal := .next (s.descReadState f k)

/-- CAPTURE: Configures and runs an injection, completing at the end of the run. (R354) -/
def execCapture (f : Func) (k : Nat) (s : State) : Host.Outcome State Fault Refusal := .next (s.descCapture f k)

/-- TRACE_ARM: Arms or disarms the function's host trace ring. (R354) -/
def execTraceArm (f : Func) (k : Nat) (s : State) : Host.Outcome State Fault Refusal := .next (s.descTraceArm f k)

/-- DMA_XFER: Starts a DMA channel and completes at its END, error or stop. (R354) -/
def execDmaXfer (f : Func) (k : Nat) (s : State) : Host.Outcome State Fault Refusal := .next (s.descDmaXfer f k)

/-- MCODE_LOAD: Loads customer microcode words from host memory and reports the CRC. (R354) -/
def execMcodeLoad (f : Func) (k : Nat) (s : State) : Host.Outcome State Fault Refusal := .next (s.descMcodeLoad f k)

/-- FLASH_OP: Runs a flash controller command from PF0. (R425) -/
def execFlashOp (f : Func) (k : Nat) (s : State) : Host.Outcome State Fault Refusal := .next (s.descFlashOp f k)

/-- DESC_MARCH: Requests a march run and completes at its end. (R354) -/
def execDescMarch (f : Func) (k : Nat) (s : State) : Host.Outcome State Fault Refusal := .next (s.descMarch f k)

/-- SLICE_FENCE: Fences a slice and completes when it reads FENCED. (R354) -/
def execSliceFence (f : Func) (k : Nat) (s : State) : Host.Outcome State Fault Refusal := .next (s.descSliceFence f k)

/-- SLICE_RESUME: Optionally restarts, then resumes a slice with optional GO. (R354) -/
def execSliceResume (f : Func) (k : Nat) (s : State) : Host.Outcome State Fault Refusal := .next (s.descSliceResume f k)

/-- HIL_FEED: Offers HIL sample records to the input feeds. (R355) -/
def execHilFeed (f : Func) (k : Nat) (s : State) : Host.Outcome State Fault Refusal := .next (s.descHilFeed f k)

/-- EVENT_WAIT: Waits for a tap firing of a source and returns its MTIME. (R354) -/
def execEventWait (f : Func) (k : Nat) (s : State) : Host.Outcome State Fault Refusal := .next (s.descEventWait f k)

/-- EVENT_WAIT_TIMEOUT: An EVENT_WAIT without a firing within its timeout completes with BUSY. (R354) -/
def execEventWaitTimeout (f : Func) (k : Nat) (s : State) : Host.Outcome State Fault Refusal :=
  .next (s.descEventTimeout f k)

end Machine
end Sys2Proof
end

