-- ==== Sys2Proof/Machine/Aperture.lean ====
section
/-! DEFINITION. Host writes through the apertures of BAR2 and BAR4, and to the slice memory of BAR0 (R288, R338 to R341). -/

namespace Sys2Proof
namespace Machine

/-- Internal byte address of an offset, rounded down to its cell. -/
def windowAddr (w : HostWindow) (off : BitVec 28) : Nat :=
  match w with
  | .plain => 0x0E000000 + off.toNat % 0x800000 / 4 * 4
  | .main => 0x10000000 + off.toNat / 4 * 4
  | .slice n => smem n (off.toNat / 4 * 4)

/-- APERTURE_WRITE. -/
def State.hostWriteCell (s : State) (f : Fin 16) (w : HostWindow) (off : BitVec 28) (be : BitVec 4) (v : Word) : State :=
  s.hostPut f (windowAddr w off) be v

end Machine
end Sys2Proof
end

