-- ==== Sys2Proof/Machine/Colbel.lean ====
section
/-! DEFINITION. Commands of the Colbel monitor that reach cores, registers and memory (R466, R467, R469). -/

namespace Sys2Proof
namespace Machine

/-- INFO: serial number, DEV_ID, DEV_VARIANT, life-cycle state, open sessions. -/
def State.infoMsg (s : State) (q : ColbelReq) : State :=
  s.request q (fun t _ => done t 1 0
    ([Config.serial.setWidth 32, (Config.serial >>> 32).setWidth 32, t.view R.DEV_ID, t.view R.DEV_VARIANT,
      BitVec.ofNat 32 t.lc, BitVec.ofNat 32 (t.getF R.DBG_STAT F.DBG_STAT_SESSIONS)].map (fun v => (⟨v, tagUint⟩ : Cell))))

/-! STEP (R469). -/

/-- One attempt to issue on a halted pair, and whether anything retired or entered a handler. -/
def State.stepOnce (s : State) (p : Fin 13) : State × Bool :=
  if !s.pairRuns p true || !s.awake p then (s, false)
  else
    let s1 := s.issue p
    match s1.attempt p with
    | (_, .stall t) => (t, false)
    | (_, o) => (s1.conclude p o, true)

/-- A group that R468 makes indivisible: instructions up to the next boundary, at most `fuel` of them. False where it waits. -/
def State.stepGroup (s : State) (p : Fin 13) : Nat → State × Bool
  | 0 => (s, false)
  | fuel + 1 =>
    let r := s.stepOnce p
    if r.2 && !r.1.atBoundary p then r.1.stepGroup p fuel else r

/-- Words of the longest group: a locked sequence of sixteen instructions, each with its prefixes. -/
def groupFuel : Nat := 128

/-- `k` steps, or as many as can be made now, and how many are left. With `irq`, a message that is ready at a boundary enters its
handler, which is a step (log 123). -/
def State.stepRun (s : State) (p : Fin 13) (irq : Bool) : Nat → State × Nat
  | 0 => (s, 0)
  | k + 1 =>
    if irq && s.interruptible p && (s.ready p (s.getF (R.KC_CSEL p) F.KC_CSEL_LEVEL)).isSome && s.pairRuns p true then
      (s.takeInterrupt p true).stepRun p irq k
    else
      let r := s.stepGroup p groupFuel
      if r.2 then r.1.stepRun p irq k else (r.1, k + 1)

/-- A STEP goes on: answered once every step is made, REFUSED where the pair cannot run any more (R469, log 123). -/
def State.stepTick (s : State) (n : Fin 12) : State :=
  match s.dbg.steps.get n with
  | none => s
  | some x =>
    if !(s.coreOf (pairOf n)).dbgHalt || !s.pairRuns (pairOf n) true then s.stepStop n
    else
      let r := s.stepRun (pairOf n) x.irq x.left
      if r.2 == 0 then
        (r.1.setDbg { r.1.dbg with steps := r.1.dbg.steps.set n none }).answer x.sess x.seq ⟨6, 0, [r.1.pcCell (pairOf n)]⟩
      else r.1.setDbg { r.1.dbg with steps := r.1.dbg.steps.set n (some { x with left := r.2 }) }

/-- The pair of slice n is halted: by the debugger or by its slice (R468). -/
def State.stopped (s : State) (n : Fin 12) : Bool := (s.coreOf (pairOf n)).dbgHalt || (s.coreOf (pairOf n)).halted

def State.stepMsg (s : State) (q : ColbelReq) (n : Fin 13) (count : BitVec 16) (irq : Bool) : State :=
  s.withAuth q 6 1 (fun t _ => t.onSlice 6 n (fun n =>
    if count == 0 then done t 6 5 []
    else if !(t.coreOf (pairOf n)).dbgHalt || !t.pairRuns (pairOf n) true then done t 6 2 []
    else if (t.dbg.steps.get n).isSome then done t 6 1 []
    else
      let x : StepRun := ⟨q.sess, q.seq.toNat, count.toNat, irq⟩
      ⟨(t.setDbg { t.dbg with steps := t.dbg.steps.set n (some x) }).stepTick n, none⟩))

/-! Core registers. -/

/-- What READ_CORE answers: A in two cells, a capability register in four. -/
def State.coreRead (s : State) (n : Fin 12) (g : CoreReg) : List Cell :=
  let p := pairOf n
  let r := (s.coreOf p).r
  let set := r.set (s.actSet p)
  match g with
  | .a => [⟨r.a.setWidth 32, r.atag⟩, ⟨(r.a >>> 32).setWidth 32, r.atag⟩]
  | .x => [r.x]
  | .y => [r.y]
  | .pg => [⟨r.pg.setWidth 32, tagUint⟩]
  | .dsp => [⟨set.dsp, tagAddr⟩]
  | .rsp => [⟨set.rsp, tagAddr⟩]
  | .pc => [⟨r.pc.setWidth 32, tagCode⟩]
  | .loopStart => [⟨r.lstart.setWidth 32, tagCode⟩]
  | .loopEnd => [⟨r.lend.setWidth 32, tagCode⟩]
  | .loopCount => [⟨r.lcount, tagUint⟩]
  | .cap k m => let c := r.cap k m; [c.base, c.len, c.perms, c.st]
  | .kc off => [⟨s.view (kcBase p + off.toNat / 4 * 4), tagUint⟩]

def State.readCoreMsg (s : State) (q : ColbelReq) (n : Fin 13) (g : CoreReg) : State :=
  s.withAuth q 7 1 (fun t _ => t.onSlice 7 n (fun n => done t 7 0 (t.coreRead n g)))

/-- The authority of a session for registers: DEBUG carries WARDEN, TEST carries TEST (R467). -/
def sessAccess (x : Session) : Access := ⟨.mon, x.auth == 1, x.auth == 2⟩

/-- WRITE_CORE: none where it would create a CAP cell or a capability. -/
def State.coreWrite (s : State) (x : Access) (n : Fin 12) (g : CoreReg) (v : BitVec 40) (tag : BitVec 4) : Option State :=
  let p := pairOf n
  let c := s.coreOf p
  let r := c.r
  let k := s.actSet p
  let set := r.set k
  let w : Word := v.setWidth 32
  let put (r' : CoreRegs) : State := s.setCore p { c with r := r' }
  if tag == tagCap then none
  else match g with
    | .a => some (put { r with a := v, atag := tag })
    | .x => some (put { r with x := ⟨w, tag⟩ })
    | .y => some (put { r with y := ⟨w, tag⟩ })
    | .pg => some (put { r with pg := v.setWidth 16 })
    | .dsp => some (put (r.putSet k { set with dsp := w }))
    | .rsp => some (put (r.putSet k { set with rsp := w }))
    | .pc => some (s.setCore p { c with r := { r with pc := v.setWidth 17 }, fq := none })
    | .loopStart => some (put { r with lstart := v.setWidth 17 })
    | .loopEnd => some (put { r with lend := v.setWidth 17 })
    | .loopCount => some (put { r with lcount := w })
    | .cap j m => if tag == tagEmpty then some (put (r.putCap j m emptyQuad)) else none
    | .kc off => s.busWrite x (kcBase p + off.toNat / 4 * 4) w

def State.writeCoreMsg (s : State) (q : ColbelReq) (n : Fin 13) (g : CoreReg) (v : BitVec 40) (tag : BitVec 4) : State :=
  s.withAuth q 8 1 (fun t x => t.onSlice 8 n (fun n =>
    if !t.stopped n then done t 8 2 []
    else match t.coreWrite (sessAccess x) n g v tag with
      | some u => done u 8 0 []
      | none => done t 8 2 []))

/-! Memory through the session's capability (R467). -/

/-- The capability covers the address: the map of R12 but for the boot ROM, secure SRAM and the system area of Plain. -/
def sessCovers (a : Nat) : Bool :=
  match spaceOf a with
  | .rom => false
  | .secure => false
  | .none => false
  | .plain => !inSysArea a
  | _ => decide (a < 0x22000000)

/-- The cells of a request. -/
def cellAddrs (a : Word) (k : Nat) : List Nat := (List.range k).map (fun i => a.toNat + 4 * i)

/-- Some access of the request waits (R294, R411). -/
def State.sessWaits (s : State) (l : List Nat) : Bool := l.any s.accessWaits

/-- Read one cell without changing it: a register as an inspect read, a CAP cell as EMPTY, an uncorrectable cell as all ones. -/
def State.sessRead (s : State) (a : Nat) : State × Cell :=
  if isCells a then
    if s.absentSlice a then (s, ⟨0, tagUint⟩)
    else
      let r := s.rd a
      if r.ue then (r.st.badAcc, ⟨0xFFFFFFFF, tagUint⟩) else (r.st, if r.c.tag == tagCap then emptyCell else r.c)
  else match spaceOf a with
    | .flash => flashCell
    | .dataFlash => flashCell
    | _ => (s, ⟨s.view a, tagUint⟩)
where
  flashCell : State × Cell :=
    match s.flashGet a with
    | (t, some v) => (t, ⟨v, tagUint⟩)
    | (t, none) => (t.badAcc, ⟨0xFFFFFFFF, tagUint⟩)

/-- Read cells in order. -/
def State.sessReads (s : State) : List Nat → State × List Cell
  | [] => (s, [])
  | a :: l =>
    let r := s.sessRead a
    let q := r.1.sessReads l
    (q.1, r.2 :: q.2)

/-- The status of a request for cells that the capability covers: ABSENT where main memory is absent (R13). -/
def State.sessStatus (s : State) (l : List Nat) : Nat := if l.any s.absentMain then 4 else 0

/-- READ_MEM. The capability of a TEST session has no RAW, without which R214 lets no RAW cell be read. -/
def State.readMemMsg (s : State) (q : ColbelReq) (a : Word) (k : Nat) : State :=
  let l := cellAddrs a k
  if s.sessWaits l then s
  else s.withAuth q 11 3 (fun t x =>
    if k == 0 || decide (256 < k) then done t 11 5 []
    else if a.toNat % 4 != 0 || !l.all sessCovers then done t 11 6 []
    else
      let r := t.sessReads l
      if x.auth == 2 && r.2.any (fun c => c.tag == tagRaw) then done r.1 11 6 [] else done r.1 11 (t.sessStatus l) r.2)

/-- Write one cell, and whether the capability allows it. A DEBUG session writes every cell but CAP cells, whose writes are discarded
and counted (R288); a write of SEC that a TEST session may not make is counted (R459). -/
def State.sessWrite (s : State) (x : Access) (a : Nat) (c : Cell) : State × Bool :=
  if !x.warden && !testWritable a then (if inSec a then s.badAcc else s, false)
  else if isCells a then
    if s.absentSlice a then (s, true)
    else
      let r := s.rd a
      if r.c.tag == tagCap then (r.st.badAcc, false)
      else if c.tag == tagCap then (s, false)
      else (r.st.wr none a c, true)
  else match spaceOf a with
    | .flash => (s, false)
    | .dataFlash => (s, false)
    | _ => match postAt a with
      | some (e, k) => (if s.absentSlice a then s else s.postStore e k ⟨c.v, tagUint⟩, true)
      | none => match s.busWrite x a c.v with
        | some t => (t, true)
        | none => (s, false)

/-- Write cells in order, up to the first that may not be written. -/
def State.sessWrites (s : State) (x : Access) : List (Nat × Cell) → State × Bool
  | [] => (s, true)
  | (a, c) :: l =>
    match s.sessWrite x a c with
    | (t, true) => t.sessWrites x l
    | r => r

/-- Perturbation units that a request of session k has enabled end with the session (R478). -/
def State.ptbOwned (s t : State) (k : Nat) : State :=
  { t with ptbBy := Vector.ofFn (fun (e : Fin 13) =>
      if !s.isSet (R.PTB_CTRL e) F.PTB_CTRL_EN && t.isSet (R.PTB_CTRL e) F.PTB_CTRL_EN then some k else t.ptbBy.get e) }

/-- WRITE_MEM. -/
def State.writeMemMsg (s : State) (q : ColbelReq) (a : Word) (cs : List Cell) : State :=
  let l := cellAddrs a cs.length
  if s.sessWaits l then s
  else s.withAuth q 12 3 (fun t x =>
    if cs.isEmpty || decide (256 < cs.length) then done t 12 5 []
    else if a.toNat % 4 != 0 || !l.all sessCovers then done t 12 6 []
    else
      let r := t.sessWrites (sessAccess x) (l.zip cs)
      done (t.ptbOwned r.1 q.sess) 12 (if r.2 then t.sessStatus l else 6) [])

end Machine
end Sys2Proof
end

