-- ==== Sys2Proof/Machine/Device.lean ====
section
/-! DEFINITION. The module and its modes, its slices: registers, arming, mode changes, owners and slice commands (chapters 00, 02 and 03). -/

namespace Sys2Proof
namespace Machine

/-- REGISTER_WRITE: A write to a register that has no row of its own takes effect under the field's access code and the unit's write rules. (R9) -/
def execRegisterWrite (x : Access) (a : BusAddr) (v : Word) (s : State) : Host.Outcome State Fault Refusal :=
  .next ((s.writeAt x a.a a.be v).keepWritten s a.a a.ev)

/-- READ_CLEARS: A read of an RC field returns its value and clears it, keeping an increment that falls in the same cycle. (R9) -/
def execReadClears (x : Access) (a : BusAddr) (s : State) : Host.Outcome State Fault Refusal :=
  .next ((s.readAt x a.a a.be).keepRead s a.a a.ev)

/-- COLD_START: The supply at J1 rising through 25 V starts the ten-step start-up sequence. (R25) -/
def execColdStart (t : BootTests) (s : State) : Host.Outcome State Fault Refusal := .next (s.coldStart t)

/-- ARM: A write of 1 to DEV_ARM.ARM or SLC_ARM.ARM arms the slice, holds the request pending, or refuses and counts it. (R30) -/
def execArm (x : Access) (w : ArmReq) (s : State) : Host.Outcome State Fault Refusal := .next (s.armWrite x w.w true w.off)

/-- ARM_PENDING_TAKES_EFFECT: A pending arm request arms the slice once the conditions of R30 are met. (R31) -/
def execArmPendingTakesEffect (n : Slice) (s : State) : Host.Outcome State Fault Refusal := .next (s.armPending n)

/-- DISARM: A write to DEV_DISARM or SLC_ARM.DISARM disarms the slice at once, and every output turns off. (R33) -/
def execDisarm (x : Access) (w : ArmBy) (s : State) : Host.Outcome State Fault Refusal := .next (s.armWrite x w false 0)

/-- MODE_CHANGE_REQUEST: A write of DEV_MODE_REQ is accepted, setting CHANGING, or refused with a status. (R35) -/
def execModeChangeRequest (x : Access) (v : Word) (s : State) : Host.Outcome State Fault Refusal :=
  .next (s.write x R.DEV_MODE_REQ v)

/-- MODE_CHANGE_COMPLETE: An accepted mode change completes, and MODE, PREV, SEQ, REQ_STATUS and CHANGING change together. (R37) -/
def execModeChangeComplete (s : State) : Host.Outcome State Fault Refusal := .next (s.modeComplete)

/-- STABLED_ENTRY_COMPLETE: The fast domains power off, the PLLs stop and MODE reads STABLED. (R438) -/
def execStabledEntryComplete (s : State) : Host.Outcome State Fault Refusal := .next (s.stabledEntry)

/-- WAKE: An enabled wake source fires in STABLED and the module runs the wake steps, or a cold start after a tamper or supply event. (R39) -/
def execWake (k : WakeBy) (t : BootTests) (s : State) : Host.Outcome State Fault Refusal := .next (s.wake k.k k.also t)

/-- SLICE_ASSIGN: A write of DEV_SLC_ASSIGN[n] changes the owner of an OFF or FENCED slice, or is refused with a status. (R46) -/
def execSliceAssign (x : Access) (n : Slice) (v : Word) (s : State) : Host.Outcome State Fault Refusal :=
  .next (s.write x (R.DEV_SLC_ASSIGN n) v)

/-- FENCE: A FENCE command is accepted: outputs go to SAFE_PAT, triggers are masked, uncompared commits are discarded and the core pair halts. (R52) -/
def execFence (x : Access) (n : Slice) (key : BitVec 16) (toTwin : Bool) (s : State) : Host.Outcome State Fault Refusal :=
  .next (s.write x (R.SLC_CMD n) (slcCmdWord key 1 toTwin))

/-- FENCE_COMPLETE: The fence takes full effect and SLC_STATE reads FENCED, after the memory clear and microcode load when coming from OFF. (R52) -/
def execFenceComplete (n : Slice) (s : State) : Host.Outcome State Fault Refusal := .next (s.fenceEnd n)

/-- RESUME: A RESUME command starts the parity check of the store, or is refused. (R54) -/
def execResume (x : Access) (n : Slice) (key : BitVec 16) (s : State) : Host.Outcome State Fault Refusal :=
  .next (s.write x (R.SLC_CMD n) (slcCmdWord key 2 false))

/-- RESUME_CHECK_COMPLETE: The RESUME parity check ends, and the slice reads READY or stays FENCED with REFUSED. (R54) -/
def execResumeCheckComplete (n : Slice) (s : State) : Host.Outcome State Fault Refusal := .next (s.resumeEnd n)

/-- GO: A GO command on a READY slice awaits the VALLEY of channel 0 to unmask triggers. (R50) -/
def execGo (x : Access) (n : Slice) (key : BitVec 16) (s : State) : Host.Outcome State Fault Refusal :=
  .next (s.write x (R.SLC_CMD n) (slcCmdWord key 3 false))

/-- RESTART: A RESTART command resets the core pair of a FENCED slice and starts its injection and self-tests. (R56) -/
def execRestart (x : Access) (n : Slice) (key : BitVec 16) (s : State) : Host.Outcome State Fault Refusal :=
  .next (s.write x (R.SLC_CMD n) (slcCmdWord key 4 false))

/-- RESTART_TESTS_COMPLETE: The RESTART tests end, clearing LOCKSTEP_BROKEN with OK, or completing with FAULT and a cause. (R56) -/
def execRestartTestsComplete (n : Slice) (r : InjRun) (selftest : Bool) (s : State) : Host.Outcome State Fault Refusal :=
  .next (s.restartEnd n r selftest)

/-- STOP: A STOP command takes a FENCED slice to OFF and resets its unit registers. (R50) -/
def execStop (x : Access) (n : Slice) (key : BitVec 16) (s : State) : Host.Outcome State Fault Refusal :=
  .next (s.write x (R.SLC_CMD n) (slcCmdWord key 5 false))

end Machine
end Sys2Proof
end

