-- ==== Sys2Proof/Machine/Events.lean ====
section
/-! DEFINITION. The event router (chapter 18). -/

namespace Sys2Proof
namespace Machine

/-- LINE_FILTER_CHANGE: A line's filter output takes a new level after N samples and fires under its SENSE. (R305) -/
def execLineFilterChange (src : Fin 1024) (level : Bool) (s : State) : Host.Outcome State Fault Refusal :=
  .next (s.lineChange src level)

/-- EVENT_LATCH: A message is latched in a core pair's pending register after the delivery delay. (R307) -/
def execEventLatch (r : Fin 1088) (s : State) : Host.Outcome State Fault Refusal := .next (s.accept r)

/-- MSIX_ISSUE: An MSI-X write is issued for a message, or its pending bit is set. (R307) -/
def execMsixIssue (r : Fin 1088) (s : State) : Host.Outcome State Fault Refusal := .next (s.msixIssue r)

/-- EVR_ACK: A write of EVR_ACK completes an ACTIVE source of the slice pair. (R308) -/
def execEvrAck (x : Access) (n : Slice) (src : BitVec 10) (s : State) : Host.Outcome State Fault Refusal :=
  .next (s.write x (R.EVR_ACK n) (src.setWidth 32))

/-- EVR_SYS_ACK: A write of EVR_SYS_ACK completes an ACTIVE source of the system pair. (R308) -/
def execEvrSysAck (x : Access) (src : BitVec 10) (s : State) : Host.Outcome State Fault Refusal :=
  .next (s.write x R.EVR_SYS_ACK (src.setWidth 32))

/-- GROUP_BATCH_CLOSE: A coalescing batch closes on COUNT or TIME and fires the group's route. (R311) -/
def execGroupBatchClose (g : Fin 64) (s : State) : Host.Outcome State Fault Refusal := .next (s.batchTimeout g)

/-- EVR_TGT_WRITE: A target write copies the target's epoch and clears STALE. (R312) -/
def execEvrTgtWrite (x : Access) (t : TgtReg) (v : Word) (s : State) : Host.Outcome State Fault Refusal :=
  .next (s.write x (tgtRegAddr t) v)

/-- EVENT_TAP: A firing is offered to the SAR, CLE and DMA taps 4 tCK later. (R313) -/
def execEventTap (s : State) : Host.Outcome State Fault Refusal := .next (s.eventTap)

/-- ORPHAN_READ: A read of EVR_ORPH1 returns and removes the oldest orphan entry. (R312) -/
def execOrphanRead (x : Access) (s : State) : Host.Outcome State Fault Refusal := .next (s.read x R.EVR_ORPH1)

end Machine
end Sys2Proof
end

