-- ==== Sys2Proof/Machine/FlashCmd.lean ====
section
/-! DEFINITION. The flash controller and the ROM loader (chapter 24). -/

namespace Sys2Proof
namespace Machine

/-- ERASE: Starts erasing a flash block, counting it and setting its erase flag. (R412) -/
def execErase (x : Access) (key : BitVec 16) (s : State) : Host.Outcome State Fault Refusal :=
  .next (s.write x R.FLC_CMD (flcWord key 1))

/-- ERASE_COMPLETE: An erase passes verify or fails after fifteen pulses. (R412) -/
def execEraseComplete (e : EraseEnd) (s : State) : Host.Outcome State Fault Refusal := .next (s.eraseComplete e)

/-- PROGRAM: Starts programming a page from FLC_PBUF. (R410) -/
def execProgram (x : Access) (key : BitVec 16) (s : State) : Host.Outcome State Fault Refusal :=
  .next (s.write x R.FLC_CMD (flcWord key 2))

/-- PROGRAM_COMPLETE: A page program completes after its verify retries. (R410) -/
def execProgramComplete (retries : Fin 9) (s : State) : Host.Outcome State Fault Refusal := .next (s.programComplete retries)

/-- SUSPEND: Suspends a running erase. (R413) -/
def execSuspend (x : Access) (key : BitVec 16) (s : State) : Host.Outcome State Fault Refusal :=
  .next (s.write x R.FLC_CMD (flcWord key 3))

/-- FLASH_RESUME: Resumes a suspended erase at its interrupted pulse. (R413) -/
def execFlashResume (x : Access) (key : BitVec 16) (s : State) : Host.Outcome State Fault Refusal :=
  .next (s.write x R.FLC_CMD (flcWord key 4))

/-- MARGIN_CHECK: Starts reading a block against the selected margin. (R416) -/
def execMarginCheck (x : Access) (key : BitVec 16) (s : State) : Host.Outcome State Fault Refusal :=
  .next (s.write x R.FLC_CMD (flcWord key 5))

/-- MARGIN_CHECK_COMPLETE: A margin check ends and reports its failing lines. (R416) -/
def execMarginCheckComplete (failing : BitVec 16) (s : State) : Host.Outcome State Fault Refusal :=
  .next (s.marginComplete failing)

/-- SET_PW: Stores the staged password for a region. (R420) -/
def execSetPw (x : Access) (key : BitVec 16) (s : State) : Host.Outcome State Fault Refusal :=
  .next (s.write x R.FLC_CMD (flcWord key 6))

/-- SET_NEXT: Verifies a bank and names it for the next boot and slice fences. (R421) -/
def execSetNext (x : Access) (key : BitVec 16) (s : State) : Host.Outcome State Fault Refusal :=
  .next (s.write x R.FLC_CMD (flcWord key 7))

/-- FLASH_LOCK: Locks an unlocked protected region. (R420) -/
def execFlashLock (x : Access) (key : BitVec 16) (s : State) : Host.Outcome State Fault Refusal :=
  .next (s.write x R.FLC_CMD (flcWord key 8))

/-- UNLOCK: Compares the staged password and unlocks the region, or counts a failure. (R420) -/
def execUnlock (x : Access) (key : BitVec 16) (s : State) : Host.Outcome State Fault Refusal :=
  .next (s.write x R.FLC_CMD (flcWord key 9))

/-- FLC_PW_LO: A write of FLC_PW_LO stages the low password word. (R420) -/
def execFlcPwLo (x : Access) (v : Word) (s : State) : Host.Outcome State Fault Refusal := .next (s.write x R.FLC_PW_LO v)

/-- FLC_PW_HI: A write of FLC_PW_HI completes the password stage. (R420) -/
def execFlcPwHi (x : Access) (v : Word) (s : State) : Host.Outcome State Fault Refusal := .next (s.write x R.FLC_PW_HI v)

/-- AUTO_SUSPEND: A read waiting on an erasing array suspends the erase. (R411) -/
def execAutoSuspend (arr : Fin 3) (s : State) : Host.Outcome State Fault Refusal := .next (s.autoSuspend arr)

/-- AUTO_RESUME: An automatically suspended erase resumes after 100 µs without a waiting read. (R411) -/
def execAutoResume (arr : Fin 3) (s : State) : Host.Outcome State Fault Refusal := .next (s.autoResume arr)

/-- FLASH_SCRUB: Every PERIOD seconds one block is margin-checked and rewritten if it decays. (R418) -/
def execFlashScrub (decays : Bool) (s : State) : Host.Outcome State Fault Refusal := .next (s.flashScrub decays)

/-- SCRUB_REWRITE_COMPLETE: A scrub rewrite through the spare block completes. (R418) -/
def execScrubRewriteComplete (k : Fin 4) (e : StepEnd) (s : State) : Host.Outcome State Fault Refusal :=
  .next (s.scrubStep k e)

/-- LOADER_ERASE: The ROM loader erases a block. (R424) -/
def execLoaderErase (can : Bool) (arr : Fin 4) (blk : BitVec 8) (s : State) : Host.Outcome State Fault Refusal :=
  .next (s.loaderErase can arr blk)

/-- LOADER_WRITE: The ROM loader writes a page. (R424) -/
def execLoaderWrite (can : Bool) (arr : Fin 4) (blk page : BitVec 8) (data : Vector Word 64) (s : State) : Host.Outcome State Fault Refusal :=
  .next (s.loaderWrite can arr blk page data)

/-- LOADER_CHECK: The ROM loader runs the image check of a bank. (R424) -/
def execLoaderCheck (can : Bool) (bank : Fin 2) (id : BitVec 11) (s : State) : Host.Outcome State Fault Refusal :=
  .next (s.loaderCheck can bank id)

/-- LOADER_RESTART: The ROM loader starts a cold start. (R424) -/
def execLoaderRestart (can : Bool) (t : BootTests) (s : State) : Host.Outcome State Fault Refusal :=
  .next (s.loaderRestart can t)

end Machine
end Sys2Proof
end

