-- ==== Sys2Proof/Machine/Gorge.lean ====
section
/-! DEFINITION. Fast analogue inputs and Gorge windows (chapter 04). -/

namespace Sys2Proof
namespace Machine

/-- WINDOW_HALF_SWITCH: A window half sets or clears as its input passes the switching level, and the line and trip request follow. (R67) -/
def execWindowHalfSwitch (n i : Slice) (high set : Bool) (s : State) : Host.Outcome State Fault Refusal :=
  .next (s.halfSwitch n i high set)

/-- SETTLING_INTERVAL_END: The 2 µs after entry into UNSETTLED end, and halves whose input is outside the band settle. (R69) -/
def execSettlingIntervalEnd (n i : Slice) (hi lo : Option Bool) (s : State) : Host.Outcome State Fault Refusal :=
  .next (s.settlingEnd n i hi lo)

/-- INPUT_OVERRANGE: An input beyond the 2 % margin sets GRG_IN[i].OVR. (R61) -/
def execInputOverrange (n i : Slice) (beyond : Bool) (s : State) : Host.Outcome State Fault Refusal :=
  .next (s.overrange n i beyond)

/-- GRG_WCFG_WRITE: A write of the window configuration is applied, and an enable or half-enable change enters UNSETTLED. (R69) -/
def execGrgWcfgWrite (x : Access) (n i : Slice) (v : Word) (s : State) : Host.Outcome State Fault Refusal :=
  .next (s.write x (R.GRG_WCFG n i) v)

/-- GRG_IN_WRITE: A write of GRG_IN changes MODE in FENCED, returning the window to UNSETTLED, or clears OVR. (R62) -/
def execGrgInWrite (x : Access) (n i : Slice) (v : Word) (s : State) : Host.Outcome State Fault Refusal :=
  .next (s.write x (R.GRG_IN n i) v)

/-- GRG_THR_WRITE: A threshold write is staged into the double-buffered DACs. (R68) -/
def execGrgThrWrite (x : Access) (n i : Slice) (v : Word) (s : State) : Host.Outcome State Fault Refusal :=
  .next (s.write x (R.GRG_THR n i) v)

/-- THRESHOLD_SWITCH: Within 250 ns of the write, the half switches to its new threshold in one step. (R68) -/
def execThresholdSwitch (n i : Slice) (high : Bool) (s : State) : Host.Outcome State Fault Refusal :=
  .next (s.thrSwitch n i high)

/-- GRG_TEST_WRITE: A write of GRG_TEST starts or ends a comparator test, or is refused and counted. (R75) -/
def execGrgTestWrite (x : Access) (n i : Slice) (v : SwapWrite) (s : State) : Host.Outcome State Fault Refusal :=
  .next ((s.write x (R.GRG_TEST n i) v.v).swapSides n i v.hi v.lo)

end Machine
end Sys2Proof
end

