-- ==== Sys2Proof/Machine/Group.lean ====
section
/-! DEFINITION. Passway and joined systems (chapter 22). -/

namespace Sys2Proof
namespace Machine

/-- FRAME_DISCARD: A frame with a bad CRC, wrong length or reserved KIND is discarded and counted. (R367) -/
def execFrameDiscard (x : RawFrame) (s : State) : Host.Outcome State Fault Refusal := .next (s.discardOn x)

/-- SYNC: A SYNC frame on the upstream port updates offset, lock state and announced steps. (R374) -/
def execSync (p : Fin 2) (t tApply : BitVec 64) (step : Word) (frac : Fin 16) (s : State) : Host.Outcome State Fault Refusal :=
  .next (s.lockedNow (s.syncIn p t tApply step frac))

/-- EVENT: An EVENT frame is forwarded, and matching records fire import sources. (R377) -/
def execEvent (p : Fin 2) (pos : Fin 32) (seq : BitVec 8) (recs : List PwyRec) (s : State) : Host.Outcome State Fault Refusal :=
  .next (s.eventIn p pos seq recs)

/-- TOPO: A TOPO frame updates membership and topology, incrementing GEPOCH on change. (R371) -/
def execTopo (p : Fin 2) (seq : BitVec 8) (t : PwyTopo) (s : State) : Host.Outcome State Fault Refusal :=
  .next (s.lockedNow (s.topoIn p seq t))

/-- DLY_REQ: A delay request is timestamped and answered. (R373) -/
def execDlyReq (p : Fin 2) (t2 t3 : Nat) (s : State) : Host.Outcome State Fault Refusal := .next (s.dlyReq p t2 t3)

/-- DLY_RESP: A delay response yields the link delay measurement. (R373) -/
def execDlyResp (p : Fin 2) (t1 t2 t3 t4 : Nat) (s : State) : Host.Outcome State Fault Refusal :=
  .next (s.dlyResp p t1 t2 t3 t4)

/-- SYNC_TRANSMIT: A LOCKED module sends its SYNC on downstream ports each SYNC period. (R368) -/
def execSyncTransmit (s : State) : Host.Outcome State Fault Refusal := .next (s.syncTransmit)

/-- TOPO_TRANSMIT: Each member sends a TOPO frame every 100 µs. (R368) -/
def execTopoTransmit (s : State) : Host.Outcome State Fault Refusal := .next (s.topoTransmit)

/-- MEMBER_TIMEOUT: A member silent for 300 µs leaves the membership. (R371) -/
def execMemberTimeout (pos : Fin 32) (s : State) : Host.Outcome State Fault Refusal :=
  .next (s.lockedNow (s.memberTimeout pos))

/-- SYNC_LOSS: No SYNC for four periods clears LOCKED and fires LOCK_LOST. (R372) -/
def execSyncLoss (s : State) : Host.Outcome State Fault Refusal := .next (s.lockedNow (s.syncLoss))

/-- GROUP_STEP_APPLY: MTIME steps at the cycle in which it equals T_APPLY. (R375) -/
def execGroupStepApply (s : State) : Host.Outcome State Fault Refusal := .next (s.groupStep)

/-- INAUGURATION: A train inauguration clears train time state and fires INAUG. (R380) -/
def execInauguration (s : State) : Host.Outcome State Fault Refusal := .next (s.inauguration)

/-- PTP_LOCK: The PTP client locks and the master adds Δ to PWY_TT_OFS. (R380) -/
def execPtpLock (delta : BitVec 64) (s : State) : Host.Outcome State Fault Refusal := .next (s.ptpLock delta)

/-- TT_STEP_ANNOUNCE: While PWY_TT_OFS is non-zero the master announces a bounded group-wide step. (R380) -/
def execTtStepAnnounce (ahead : Nat) (s : State) : Host.Outcome State Fault Refusal := .next (s.ttAnnounce ahead)

/-- GROUP_ANNOUNCEMENT: The group master multicasts its announcement every 10 ms. (R378) -/
def execGroupAnnouncement (s : State) : Host.Outcome State Fault Refusal := .next (s.announceGroup)

/-- GROUP_ANNOUNCEMENT_RECEIVE: A received announcement fills PWY_SYS and detects duplicate groups. (R378) -/
def execGroupAnnouncementReceive (g : Fin 64) (sender : Nat) (mask : Word) (s : State) : Host.Outcome State Fault Refusal :=
  .next (s.announceIn g sender mask)

/-- PTP_TIME_EVENT: TTIME reaching PWY_TEV fires source 50. (R379) -/
def execPtpTimeEvent (s : State) : Host.Outcome State Fault Refusal := .next (s.ptpTime)

/-- PORT_UP: A Passway group port gains its link, PORT_UP is set and the group topology can re-form from line to ring. (R371) -/
def execPortUp (p : Fin 4) (s : State) : Host.Outcome State Fault Refusal := .next (s.lockedNow (s.portGain p))

/-- PORT_DOWN: A Passway port loses its link. (R381) -/
def execPortDown (p : Fin 4) (s : State) : Host.Outcome State Fault Refusal :=
  .next (s.lockedNow ((s.portLose p).laneLose p))

/-- ECN_LINK_CHANGE: An ECN Ethernet link comes up or goes down, changing TT_CAPABLE and the time-master election. (R372) -/
def execEcnLinkChange (l : Fin 2) (up : Bool) (s : State) : Host.Outcome State Fault Refusal :=
  .next (s.lockedNow (s.ecnChange l up))

end Machine
end Sys2Proof
end

