-- ==== Sys2Proof/Machine/HostLink.lean ====
section
/-! DEFINITION. The host link, its functions, rings and doorbells (chapters 20 and 21). -/

namespace Sys2Proof
namespace Machine

/-- LINK_UP: The PCIe link trains and LINK_UP fires, with every function disabled. (R331) -/
def execLinkUp (width : Fin 4) (speed : Fin 5) (s : State) : Host.Outcome State Fault Refusal := .next (s.linkUp width speed)

/-- LINK_DOWN: Loss of link, PERST#, hot reset or link disable aborts every enabled function. (R332) -/
def execLinkDown (s : State) : Host.Outcome State Fault Refusal := .next (s.linkDown)

/-- FUNCTION_LEVEL_RESET: An FLR aborts the function and restores its configuration space. (R334) -/
def execFunctionLevelReset (f : Func) (s : State) : Host.Outcome State Fault Refusal := .next (s.flr f)

/-- BUS_MASTER_ENABLE_CLEAR: Clearing Bus Master Enable aborts the function. (R334) -/
def execBusMasterEnableClear (f : Func) (s : State) : Host.Outcome State Fault Refusal := .next (s.bmeClear f)

/-- D3HOT_ENTRY: Entry into D3hot aborts the function. (R334) -/
def execD3hotEntry (f : Func) (s : State) : Host.Outcome State Fault Refusal := .next (s.d3hot f)

/-- VF_ENABLE_CLEAR: Clearing VF Enable or reducing NumVFs aborts the affected VFs. (R334) -/
def execVfEnableClear (en : Bool) (num : Func) (s : State) : Host.Outcome State Fault Refusal := .next (s.vfClear en num)

/-- CONFIGURATION_REQUEST: A PCIe configuration write sets Bus Master Enable, VF Enable and NumVFs, MSI-X Enable or Function Mask, or D0, so VFs come to exist and held MSI-X messages are issued. (R343) -/
def execConfigurationRequest (f : Func) (c : CfgSet) (s : State) : Host.Outcome State Fault Refusal :=
  .next (s.configRequest f c)

/-- COMPLETION_TIMEOUT: A read issued for a function fails by timeout or error, and is reported and counted. (R342) -/
def execCompletionTimeout (f : Func) (k : LostRead) (s : State) : Host.Outcome State Fault Refusal :=
  .next (s.readFails f k.what k.why)

/-- FUNCTION_ENABLE: A write of RNG_CTRL.EN enables the function and initialises its rings, or is refused. (R344) -/
def execFunctionEnable (x : Access) (f : Func) (twin : Bool) (s : State) : Host.Outcome State Fault Refusal :=
  .next (s.write x (R.RNG_CTRL f) (F.RNG_CTRL_EN.word 1 ||| F.RNG_CTRL_ABT_TWIN.word (b2n twin)))

/-- FUNCTION_DISABLE: A write of DISABLE stops fetching and quiesces the function. (R346) -/
def execFunctionDisable (x : Access) (f : Func) (twin : Bool) (s : State) : Host.Outcome State Fault Refusal :=
  .next (s.write x (R.RNG_CTRL f) (F.RNG_CTRL_DISABLE.word 1 ||| F.RNG_CTRL_ABT_TWIN.word (b2n twin)))

/-- DISABLE_TIMEOUT: A descriptor still in flight 1 ms after DISABLE turns the disable into an abort. (R346) -/
def execDisableTimeout (f : Func) (s : State) : Host.Outcome State Fault Refusal := .next (s.disableTimeout f)

/-- SQ_TAIL: A doorbell write sets the tail of a submission ring, or is discarded and counted. (R350) -/
def execSqTail (by_ g : Func) (r : Fin 8) (v : Word) (s : State) : Host.Outcome State Fault Refusal :=
  .next (s.write (descAccess by_) (fnBase g + 0x8000 + 8 * r.val) v)

/-- CQ_HEAD: A doorbell write releases completion entries before the new head. (R350) -/
def execCqHead (by_ g : Func) (r : Fin 8) (v : Word) (s : State) : Host.Outcome State Fault Refusal :=
  .next (s.write (descAccess by_) (fnBase g + 0x8004 + 8 * r.val) v)

/-- EDGE_RIDX: A doorbell write sets the read index of the HIL edge ring. (R357) -/
def execEdgeRidx (by_ g : Func) (v : Word) (s : State) : Host.Outcome State Fault Refusal :=
  .next (s.write (descAccess by_) (fnBase g + 0x8040) v)

/-- ABORT: A valid ABORT write starts a function abort. (R361) -/
def execAbort (by_ g : Func) (v : Word) (s : State) : Host.Outcome State Fault Refusal :=
  .next (s.write (descAccess by_) (fnBase g + 0x8080) v)

/-- ABORT_COMPLETE: Quiesce completes: in-flight descriptors end ABORTED, the record is written and the epoch increments. (R362) -/
def execAbortComplete (f : Func) (s : State) : Host.Outcome State Fault Refusal := .next (s.abortEnd f)

/-- LATE_COMPLETION: A completion of a read issued before the abort is dropped and counted. (R363) -/
def execLateCompletion (f : Func) (s : State) : Host.Outcome State Fault Refusal := .next (s.lateCompletion f)

/-- DESCRIPTOR_FETCH: A submission entry's 64 B read completes and the head advances. (R348) -/
def execDescriptorFetch (f : Func) (r : Fin 8) (w : Vector Word 16) (s : State) : Host.Outcome State Fault Refusal :=
  .next (s.fetch f r w)

/-- COMPLETION_WRITE: A completion entry is written to its CQ when room exists, with optional MSI-X. (R349) -/
def execCompletionWrite (f : Func) (q : Fin 8) (s : State) : Host.Outcome State Fault Refusal :=
  .next (s.completionWrite f q)

/-- APERTURE_WRITE: A host write through the Plain or main-memory aperture keeps or sets the cell tag, discards writes to CAP cells and follows R286 for narrow writes. (R288) -/
def execApertureWrite (f : Func) (w : HostWindow) (off : BitVec 28) (be : BitVec 4) (v : Word) (s : State) : Host.Outcome State Fault Refusal :=
  .next (s.hostWriteCell f w off be v)

/-- HOST_READ_COMPLETION: A completion for a host read that a descriptor issued (MCODE_LOAD, HIL_FEED, FLASH_OP) arrives and its data is used. (R342) -/
def execHostReadCompletion (f : Func) (k : Nat) (ws : List Word) (s : State) : Host.Outcome State Fault Refusal :=
  .next (s.descData f k ws)

end Machine
end Sys2Proof
end

