-- ==== Sys2Proof/Machine/Injection.lean ====
section
/-! DEFINITION. Loop tuning by injection (chapter 11). -/

namespace Sys2Proof
namespace Machine

/-- INJECTION_START: A write of INJ_CTRL.START starts a run if authority, limits and configuration allow. (R191) -/
def execInjectionStart (x : Access) (n : Slice) (v : Word) (s : State) : Host.Outcome State Fault Refusal :=
  .next (s.write x (R.INJ_CTRL n) (v ||| F.INJ_CTRL_START.word 1))

/-- INJECTION_STOP: A write of STOP ends the run with cause COMMAND. (R192) -/
def execInjectionStop (x : Access) (n : Slice) (s : State) : Host.Outcome State Fault Refusal :=
  .next (s.write x (R.INJ_CTRL n) (F.INJ_CTRL_STOP.word 1))

/-- INJ_CAPTURE_RECORD_WRITE: A queued capture record is written to the buffer in slice memory. (R193) -/
def execInjCaptureRecordWrite (n : Slice) (s : State) : Host.Outcome State Fault Refusal := .next (s.captureWrite n)

/-- INJ_LIM_WRITE: A write of INJ_LIM sets the loop's amplitude limit and ends a run on that loop with AUTHORITY. (R194) -/
def execInjLimWrite (x : Access) (n : Slice) (j : Fin 16) (v : Word) (s : State) : Host.Outcome State Fault Refusal :=
  .next (s.write x (R.INJ_LIM n j) v)

end Machine
end Sys2Proof
end

