-- ==== Sys2Proof/Machine/Lockstep.lean ====
section
/-! DEFINITION. Entries of faults and interrupts, checkpoints, divergence and recovery (chapters 15, 16 and 23). -/

namespace Sys2Proof
namespace Machine

/-- INTERRUPT_ENTRY: A latched message of higher priority enters its handler with an eight-cell frame. (R241) -/
def execInterruptEntry (p : Pair) (s : State) : Host.Outcome State Fault Refusal := .next (s.takeInterrupt p false)

/-- FAULT_ENTRY: A fault enters the handler set, pushes a frame and records the code. (R258) -/
def execFaultEntry (p : Pair) (s : State) : Host.Outcome State Fault Refusal := .next (s.faultCommand p)

/-- CHECKPOINT: The core pair copies its state into its checkpoint store and empties the replay log. (R386) -/
def execCheckpoint (p : Pair) (s : State) : Host.Outcome State Fault Refusal := .next (s.checkpoint p)

/-- LOCKSTEP_DIVERGENCE: Unequal compared outputs are discarded, recorded, and raise the LOCKSTEP request and LS_DIV. (R272) -/
def execLockstepDivergence (p : Pair) (mw rw ea : Option DivRec) (mism : Bool) (s : State) : Host.Outcome State Fault Refusal :=
  .next (s.divergence p mw rw ea mism)

/-- RECOVERY_COMPLETE: Replay ends and the slice returns to RUNNING, releasing held events, fences and attaches. (R389) -/
def execRecoveryComplete (n : Slice) (stuck differs : Bool) (s : State) : Host.Outcome State Fault Refusal :=
  .next (s.recoveryEnd n stuck differs)

end Machine
end Sys2Proof
end

