-- ==== Sys2Proof/Machine/Loops.lean ====
section
/-! DEFINITION. The Control Law Engine, its microcode and the attached calls (chapters 06 and 07). -/

namespace Sys2Proof
namespace Machine

/-- LOOP_TRIGGER: A trigger makes the loop QUEUED, or is merged, skipped or made LATE. (R110) -/
def execLoopTrigger (n : Slice) (j : Fin 16) (s : State) : Host.Outcome State Fault Refusal := .next (s.loopTrig n j)

/-- CLE_SWTRIG: A write of CLE_SWTRIG triggers the loops whose bits are 1. (R108) -/
def execCleSwtrig (x : Access) (n : Slice) (v : Word) (s : State) : Host.Outcome State Fault Refusal :=
  .next (s.write x (R.CLE_SWTRIG n) v)

/-- LOOP_ISSUE: The lowest queued loop issues its first microword when no routine is issuing. (R110) -/
def execLoopIssue (n : Slice) (at_ : IssueAt) (s : State) : Host.Outcome State Fault Refusal := .next (s.loopIssue n at_)

/-- MICROWORD_ISSUE: A microword issues, and each field acts on its datapath resource. (R125) -/
def execMicrowordIssue (n : Slice) (s : State) : Host.Outcome State Fault Refusal := .next (s.microword n)

/-- COMMIT_COMPARE: The trailing datapath's record arrives and is compared, and on agreement the target write begins. (R105) -/
def execCommitCompare (n : Slice) (j : Fin 16) (agree : Bool) (s : State) : Host.Outcome State Fault Refusal :=
  .next (s.commitCompare n j agree)

/-- COMMIT_COMPLETE: The commit write completes, the loop state is updated and the loop returns to IDLE. (R105) -/
def execCommitComplete (n : Slice) (j : Fin 16) (coll : Bool) (s : State) : Host.Outcome State Fault Refusal :=
  .next (s.commitComplete n j coll)

/-- SWAP_BANK: A SWAP_BANK command is made pending, to exchange banks at the next boundary. (R116) -/
def execSwapBank (x : Access) (n : Slice) (j : Fin 16) (key : BitVec 16) (s : State) : Host.Outcome State Fault Refusal :=
  .next (s.write x (R.CLE_CMD n) (cleCmdWord key j 1))

/-- TO_AUTO: A TO_AUTO command is made pending, for a bumpless change to automatic mode. (R118) -/
def execToAuto (x : Access) (n : Slice) (j : Fin 16) (key : BitVec 16) (s : State) : Host.Outcome State Fault Refusal :=
  .next (s.write x (R.CLE_CMD n) (cleCmdWord key j 2))

/-- TO_MANUAL: A TO_MANUAL command is made pending, to carry the last output into MANUAL_VALUE. (R119) -/
def execToManual (x : Access) (n : Slice) (j : Fin 16) (key : BitVec 16) (s : State) : Host.Outcome State Fault Refusal :=
  .next (s.write x (R.CLE_CMD n) (cleCmdWord key j 3))

/-- CLEAR_HIST: A CLEAR_HIST command is made pending, to zero the histories at the boundary. (R120) -/
def execClearHist (x : Access) (n : Slice) (j : Fin 16) (key : BitVec 16) (s : State) : Host.Outcome State Fault Refusal :=
  .next (s.write x (R.CLE_CMD n) (cleCmdWord key j 4))

/-- MCS_STAGE_WRITE: A write to bytes 0x00 to 0x0C of an MCS word goes to the staging buffer. (R140) -/
def execMcsStageWrite (x : Access) (n : Slice) (w : BitVec 12) (i : Fin 4) (v : Word) (s : State) : Host.Outcome State Fault Refusal :=
  .next (s.write x (mcsAddr n w (4 * i.val)) v)

/-- MCS_WORD_COMMIT: A write to byte 0x10 commits the staged word and its copy, or is refused and recorded. (R141) -/
def execMcsWordCommit (x : Access) (n : Slice) (w : BitVec 12) (v : Word) (s : State) : Host.Outcome State Fault Refusal :=
  .next (s.write x (mcsAddr n w 0x10) v)

/-- LD_OPEN_WRITE: A write of LD_OPEN opens or closes loading, and a close starts the CRC. (R142) -/
def execLdOpenWrite (x : Access) (n : Slice) (v : Word) (s : State) : Host.Outcome State Fault Refusal :=
  .next (s.write x (R.MCS_CTRL n) v)

/-- CRC_COMPLETE: The customer-partition CRC is written to MCS_LD_CRC and CRC_BUSY clears. (R142) -/
def execCrcComplete (n : Slice) (s : State) : Host.Outcome State Fault Refusal := .next (s.crcEnd n)

/-- SCAN_REPAIR: A word that failed the background scan is rewritten from its copy in the next idle cycle. (R139) -/
def execScanRepair (n : Slice) (w : BitVec 12) (stuck : Bool) (s : State) : Host.Outcome State Fault Refusal :=
  .next (s.scanRepair n w stuck)

/-- ATTACHED_CALL_ISSUE: The call's first word issues when no loop is queued or issuing. (R146) -/
def execAttachedCallIssue (n : Slice) (s : State) : Host.Outcome State Fault Refusal := .next (s.callIssue n)

/-- ATTACHED_CALL_COMPLETE: COMMIT_CORE compares the records and writes the tagged result to A. (R145) -/
def execAttachedCallComplete (n : Slice) (agree : Bool) (s : State) : Host.Outcome State Fault Refusal :=
  .next (s.callComplete n agree)

/-- ATTACHED_CALL_TIMEOUT: A call not complete within TIMEOUT µs writes A as EMPTY and is counted. (R145) -/
def execAttachedCallTimeout (n : Slice) (s : State) : Host.Outcome State Fault Refusal := .next (s.callTimeout n)

end Machine
end Sys2Proof
end

