-- ==== Sys2Proof/Machine/Memories.lean ====
section
/-! DEFINITION. Memory correction, march and clearing (chapter 17). -/

namespace Sys2Proof
namespace Machine

/-- ECC_WRITE_BACK: A corrected cell is written back in the next free cycle of its bank. (R281) -/
def execEccWriteBack (a : Nat) (s : State) : Host.Outcome State Fault Refusal := .next (s.writeBack a)

/-- MEM_MARCH_REQUEST: A write of MEM_MARCH requests a march run, accepted or refused by target and state. (R295) -/
def execMemMarchRequest (x : Access) (v : Word) (s : State) : Host.Outcome State Fault Refusal :=
  .next (s.write x R.MEM_MARCH v)

/-- MARCH_COMPLETE: A march run ends, its outcome is recorded and MARCH_DONE fires. (R297) -/
def execMarchComplete (fails : Nat) (bank : Fin 16) (addr : Word) (s : State) : Host.Outcome State Fault Refusal :=
  .next (s.marchEnd ⟨fails, bank, addr⟩)

/-- MEMORY_CLEAR_COMPLETE: Clearing of a memory completes, and stalled accesses proceed. (R294) -/
def execMemoryClearComplete (t : Fin 14) (s : State) : Host.Outcome State Fault Refusal := .next (s.clearEnd t)

/-- SEC_WIPED: A secure SRAM wipe completes and source 38 fires. (R456) -/
def execSecWiped (s : State) : Host.Outcome State Fault Refusal := .next (s.secWiped)

/-- MMC_SCRUB: Every PERIOD µs one main-memory burst is read, corrected and written back. (R299) -/
def execMmcScrub (s : State) : Host.Outcome State Fault Refusal := .next (s.scrub)

/-- PAGE_MAP_FILL_COMPLETE: The background fill sets every page-map bit of a channel. (R300) -/
def execPageMapFillComplete (c : Fin 2) (s : State) : Host.Outcome State Fault Refusal := .next (s.fillEnd c)

/-- MMC_CHANNEL_DOWN: A main-memory channel goes down and its range behaves as absent. (R301) -/
def execMmcChannelDown (c : Fin 2) (s : State) : Host.Outcome State Fault Refusal := .next (s.channelDown c)

end Machine
end Sys2Proof
end

