-- ==== Sys2Proof/Machine/MemoryOps.lean ====
section
/-! DEFINITION. Memory-operand instructions of a core pair (chapters 13 and 17). -/

namespace Sys2Proof
namespace Machine

/-- LDA: Loads the operand cell into A. (R212) -/
def execLda (p : Pair) (s : State) : Host.Outcome State Fault Refusal := .next (s.instr p .lda)

/-- STA: Stores A to the operand cell. (R212) -/
def execSta (p : Pair) (s : State) : Host.Outcome State Fault Refusal := .next (s.instr p .sta)

/-- ADD: Adds the operand to A, wrapping. (R212) -/
def execAdd (p : Pair) (s : State) : Host.Outcome State Fault Refusal := .next (s.instr p .add)

/-- SUB: Subtracts the operand from A, wrapping. (R212) -/
def execSub (p : Pair) (s : State) : Host.Outcome State Fault Refusal := .next (s.instr p .sub)

/-- ADDS: Adds the operand to A with saturation. (R212) -/
def execAdds (p : Pair) (s : State) : Host.Outcome State Fault Refusal := .next (s.instr p .adds)

/-- SUBS: Subtracts the operand from A with saturation. (R212) -/
def execSubs (p : Pair) (s : State) : Host.Outcome State Fault Refusal := .next (s.instr p .subs)

/-- MUL: Multiplies A by the operand under the tag rules. (R213) -/
def execMul (p : Pair) (s : State) : Host.Outcome State Fault Refusal := .next (s.instr p .mul)

/-- MACX: Adds X times the operand to A. (R213) -/
def execMacx (p : Pair) (s : State) : Host.Outcome State Fault Refusal := .next (s.instr p .macx)

/-- AND: Bitwise AND of A and the operand. (R212) -/
def execAnd (p : Pair) (s : State) : Host.Outcome State Fault Refusal := .next (s.instr p .and)

/-- OR: Bitwise OR of A and the operand. (R212) -/
def execOr (p : Pair) (s : State) : Host.Outcome State Fault Refusal := .next (s.instr p .or)

/-- XOR: Bitwise XOR of A and the operand. (R212) -/
def execXor (p : Pair) (s : State) : Host.Outcome State Fault Refusal := .next (s.instr p .xor)

/-- LDX: Loads the operand cell into X. (R212) -/
def execLdx (p : Pair) (s : State) : Host.Outcome State Fault Refusal := .next (s.instr p .ldx)

/-- STX: Stores X to the operand cell. (R212) -/
def execStx (p : Pair) (s : State) : Host.Outcome State Fault Refusal := .next (s.instr p .stx)

/-- LDY: Loads the operand cell into Y. (R212) -/
def execLdy (p : Pair) (s : State) : Host.Outcome State Fault Refusal := .next (s.instr p .ldy)

/-- STY: Stores Y to the operand cell. (R212) -/
def execSty (p : Pair) (s : State) : Host.Outcome State Fault Refusal := .next (s.instr p .sty)

/-- XCH: Exchanges A and the operand cell in one indivisible access. (R212) -/
def execXch (p : Pair) (s : State) : Host.Outcome State Fault Refusal := .next (s.instr p .xch)

/-- LDB: Loads a byte into A. (R228) -/
def execLdb (p : Pair) (s : State) : Host.Outcome State Fault Refusal := .next (s.instr p .ldb)

/-- LDH: Loads a halfword into A. (R228) -/
def execLdh (p : Pair) (s : State) : Host.Outcome State Fault Refusal := .next (s.instr p .ldh)

/-- STB: Stores a byte, keeping the cell's tag. (R286) -/
def execStb (p : Pair) (s : State) : Host.Outcome State Fault Refusal := .next (s.instr p .stb)

/-- STH: Stores a halfword, keeping the cell's tag. (R286) -/
def execSth (p : Pair) (s : State) : Host.Outcome State Fault Refusal := .next (s.instr p .sth)

/-- LDU: Loads a cell at any byte offset. (R287) -/
def execLdu (p : Pair) (s : State) : Host.Outcome State Fault Refusal := .next (s.instr p .ldu)

/-- LEGACY_LDA: Conditional legacy load of A. (R230) -/
def execLegacyLda (p : Pair) (s : State) : Host.Outcome State Fault Refusal := .next (s.instr p .llda)

/-- LEGACY_STA: Conditional legacy store of A. (R230) -/
def execLegacySta (p : Pair) (s : State) : Host.Outcome State Fault Refusal := .next (s.instr p .lsta)

/-- LEGACY_ADD: Conditional legacy add. (R230) -/
def execLegacyAdd (p : Pair) (s : State) : Host.Outcome State Fault Refusal := .next (s.instr p .ladd)

/-- LEGACY_SUB: Conditional legacy subtract. (R230) -/
def execLegacySub (p : Pair) (s : State) : Host.Outcome State Fault Refusal := .next (s.instr p .lsub)

/-- LEGACY_AND: Conditional legacy AND. (R230) -/
def execLegacyAnd (p : Pair) (s : State) : Host.Outcome State Fault Refusal := .next (s.instr p .land)

/-- LEGACY_OR: Conditional legacy OR. (R230) -/
def execLegacyOr (p : Pair) (s : State) : Host.Outcome State Fault Refusal := .next (s.instr p .lor)

/-- LEGACY_XOR: Conditional legacy XOR. (R230) -/
def execLegacyXor (p : Pair) (s : State) : Host.Outcome State Fault Refusal := .next (s.instr p .lxor)

end Machine
end Sys2Proof
end

