-- ==== Sys2Proof/Machine/Metering.lean ====
section
/-! DEFINITION. The metering converter (chapter 12). -/

namespace Sys2Proof
namespace Machine

/-- ZERO_CROSSING: A positive-going crossing of ZC_CH is accepted or ignored by its interval. (R196) -/
def execZeroCrossing (s : State) : Host.Outcome State Fault Refusal := .next (s.zeroCrossing)

/-- MAD_BOUNDARY: An integration boundary ends conversions, produces records and starts the next scan position. (R196) -/
def execMadBoundary (rs : Vector RawResult 4) (s : State) : Host.Outcome State Fault Refusal := .next (s.madTick rs)

/-- LINE_LOST: No crossing within 66.667 ms sets LINE_LOST and makes a fall-back boundary. (R197) -/
def execLineLost (rs : Vector RawResult 4) (s : State) : Host.Outcome State Fault Refusal := .next (s.lineLost rs)

/-- MAD_RECORD_WRITE: A queued metering record is written to the Plain buffer, or dropped when it is full. (R201) -/
def execMadRecordWrite (s : State) : Host.Outcome State Fault Refusal := .next (s.madRecord)

/-- URGENT_REQUEST: A write of MAD_URG requests one conversion, completing with a status. (R202) -/
def execUrgentRequest (x : Access) (v : Word) (s : State) : Host.Outcome State Fault Refusal := .next (s.write x R.MAD_URG v)

/-- REF_SETTLED: The selected reference completes settling, and REF_SETTLED reads 1. (R203) -/
def execRefSettled (s : State) : Host.Outcome State Fault Refusal := .next (s.refSettled)

/-- REF_FAULT: An EXT reference leaves its window, setting REF_FAULT and clearing REF_SETTLED. (R203) -/
def execRefFault (s : State) : Host.Outcome State Fault Refusal := .next (s.refFault)

/-- MAD_UNIT_ENABLE: A change of EN starts a unit at the next boundary or discards its integration. (R204) -/
def execMadUnitEnable (x : Access) (v : Word) (s : State) : Host.Outcome State Fault Refusal :=
  .next (s.write x R.MAD_CTRL v)

/-- MAD_SCAN_WRITE: A write of MASK applies at a boundary and resets the scan position. (R198) -/
def execMadScanWrite (x : Access) (v : Word) (s : State) : Host.Outcome State Fault Refusal := .next (s.write x R.MAD_SCAN v)

end Machine
end Sys2Proof
end

