-- ==== Sys2Proof/Machine/Monitor.lean ====
section
/-! DEFINITION. The Colbel monitor, trace and test perturbation (chapters 27 and 28). -/

namespace Sys2Proof
namespace Machine

/-- MBX_GO: A write of MBX_GO submits a Colbel message through the PF0 mailbox. (R460) -/
def execMbxGo (by_ : Func) (v : Word) (s : State) : Host.Outcome State Fault Refusal :=
  .next (s.write (descAccess by_) mbxBase v)

/-- UDP_DATAGRAM: A Colbel message arrives in a UDP datagram. (R460) -/
def execUdpDatagram (len : Nat) (s : State) : Host.Outcome State Fault Refusal := .next (s.udpDatagram len)

/-- CANFD_SEGMENT: A CAN FD segment of a Colbel message arrives. (R460) -/
def execCanfdSegment (c : Fin 2) (h : SegHead) (i : BitVec 6) (s : State) : Host.Outcome State Fault Refusal :=
  .next (s.canSegment c h i.toNat)

/-- CANFD_MESSAGE_TIMEOUT: A CAN FD message lacking its LAST segment within 100 ms is discarded. (R460) -/
def execCanfdMessageTimeout (c : Fin 2) (s : State) : Host.Outcome State Fault Refusal := .next (s.canTimeout c)

/-- HELLO: A HELLO message sets up a session with HELLO_RSP and derived keys. (R462) -/
def execHello (m : HelloMsg) (s : State) : Host.Outcome State Fault Refusal := .next (s.helloMsg m)

/-- AUTH: An AUTH request names an authority and is answered with a challenge. (R463) -/
def execAuth (q : ColbelReq) (test : Bool) (s : State) : Host.Outcome State Fault Refusal := .next (s.authMsg q test)

/-- AUTH_SIGNATURE: The client's signature over the challenge grants or refuses the authority. (R463) -/
def execAuthSignature (q : ColbelReq) (sig : Bool) (slot : Option (Fin 4)) (s : State) : Host.Outcome State Fault Refusal :=
  .next (s.authSign q sig slot)

/-- AUTH_LOCKOUT_END: Ten seconds after three refusals, the transport serves HELLO again. (R463) -/
def execAuthLockoutEnd (t : Fin 3) (s : State) : Host.Outcome State Fault Refusal := .next (s.lockoutEnd t)

/-- CLOSE: A CLOSE message ends the session and releases its pairs and enables. (R465) -/
def execClose (k : SessMsg) (s : State) : Host.Outcome State Fault Refusal := .next (s.closeMsg k.tr k.k)

/-- SESSION_TIMEOUT: A session with no valid request for 10 s ends. (R465) -/
def execSessionTimeout (k : Fin 4) (s : State) : Host.Outcome State Fault Refusal := .next (s.sessionTimeout k)

/-- INFO: Returns the module's identity and state. (R466) -/
def execInfo (q : ColbelReq) (s : State) : Host.Outcome State Fault Refusal := .next (s.infoMsg q)

/-- ATTACH: Attaches a session to a slice pair and suspends its comparator. (R278) -/
def execAttach (q : ColbelReq) (n : Pair) (s : State) : Host.Outcome State Fault Refusal := .next (s.attachMsg q n)

/-- DETACH: Resumes and detaches a slice pair. (R466) -/
def execDetach (q : ColbelReq) (n : Pair) (s : State) : Host.Outcome State Fault Refusal := .next (s.detachMsg q n)

/-- HALT: Requests a halt of an attached pair. (R468) -/
def execHalt (q : ColbelReq) (n : Pair) (s : State) : Host.Outcome State Fault Refusal := .next (s.haltMsg q n)

/-- HALT_TAKES_EFFECT: The pair halts at the first allowed instruction boundary. (R468) -/
def execHaltTakesEffect (n : Slice) (s : State) : Host.Outcome State Fault Refusal := .next (s.haltEffect n)

/-- COLBEL_RESUME: Resumes a halted pair and restarts its watchdog count. (R444) -/
def execColbelResume (q : ColbelReq) (n : Pair) (s : State) : Host.Outcome State Fault Refusal := .next (s.resumeMsg q n)

/-- STEP: Executes a number of indivisible instruction groups on a halted pair. (R469) -/
def execStep (q : ColbelReq) (n : Pair) (count : BitVec 16) (irq : Bool) (s : State) : Host.Outcome State Fault Refusal :=
  .next (s.stepMsg q n count irq)

/-- READ_CORE: Returns a core register with its tag. (R466) -/
def execReadCore (q : ColbelReq) (n : Pair) (g : CoreReg) (s : State) : Host.Outcome State Fault Refusal :=
  .next (s.readCoreMsg q n g)

/-- WRITE_CORE: Writes a register of both cores of a halted pair. (R469) -/
def execWriteCore (q : ColbelReq) (n : Pair) (g : CoreReg) (v : BitVec 40) (tag : BitVec 4) (s : State) : Host.Outcome State Fault Refusal :=
  .next (s.writeCoreMsg q n g v tag)

/-- SET_BP: Sets an instruction breakpoint. (R470) -/
def execSetBp (q : ColbelReq) (n : Pair) (i : Fin 4) (pc : BitVec 17) (sets : BitVec 8) (en : Bool) (s : State) : Host.Outcome State Fault Refusal :=
  .next (s.setBpMsg q n i pc sets en)

/-- SET_WP: Sets a data watchpoint. (R470) -/
def execSetWp (q : ColbelReq) (n : Pair) (i : Fin 2) (base : Word) (len : Nat) (rd wr : Bool) (value : Option Word) (s : State) : Host.Outcome State Fault Refusal :=
  .next (s.setWpMsg q n i base len rd wr value)

/-- BREAKPOINT_HIT: An instruction at a breakpoint halts the pair before it issues. (R470) -/
def execBreakpointHit (n : Slice) (s : State) : Host.Outcome State Fault Refusal := .next (s.bpHit n)

/-- WATCHPOINT_HIT: A matching data access halts the pair after it retires. (R470) -/
def execWatchpointHit (n : Slice) (s : State) : Host.Outcome State Fault Refusal := .next (s.wpStop n)

/-- READ_MEM: Reads cells through the session capability with inspect reads. (R467) -/
def execReadMem (q : ColbelReq) (a : Word) (k : Nat) (s : State) : Host.Outcome State Fault Refusal :=
  .next (s.readMemMsg q a k)

/-- WRITE_MEM: Writes cells through the session capability. (R467) -/
def execWriteMem (q : ColbelReq) (a : Word) (cs : List Cell) (s : State) : Host.Outcome State Fault Refusal :=
  .next (s.writeMemMsg q a cs)

/-- TEST_OUT: Enables channels of a slice to switch in SERVICE mode. (R471) -/
def execTestOut (q : ColbelReq) (n : Pair) (mask : BitVec 8) (s : State) : Host.Outcome State Fault Refusal :=
  .next (s.testOutMsg q n mask)

/-- TRACE_CFG: Writes a slice's STP_CTRL and STP_EN. (R475) -/
def execTraceCfg (q : ColbelReq) (n : Pair) (ctrl en : Word) (s : State) : Host.Outcome State Fault Refusal :=
  .next (s.traceCfgMsg q n ctrl en)

/-- TOKEN: Delivers the RETURNED token. (R454) -/
def execToken (q : ColbelReq) (valid : Bool) (s : State) : Host.Outcome State Fault Refusal := .next (s.tokenMsg q valid)

/-- KEEPALIVE: Keeps a session from timing out. (R465) -/
def execKeepalive (q : ColbelReq) (s : State) : Host.Outcome State Fault Refusal := .next (s.keepAliveMsg q)

/-- TRACE_POST_STORE: A store to a trace post produces a packet or is counted as filtered. (R472) -/
def execTracePostStore (x : Access) (e : Engine) (p : Fin 24) (c : Cell) (s : State) : Host.Outcome State Fault Refusal :=
  .next (s.tracePost x e p c)

/-- TRACE_MERGE: Every 6 tCK the merger takes one queued packet to its destination. (R474) -/
def execTraceMerge (s : State) : Host.Outcome State Fault Refusal := .next (s.traceMerge)

/-- TRACE_SESSION_SEND: Queued packets are sent to their session in a SEALED message at least every 10 ms. (R475) -/
def execTraceSessionSend (k : Fin 4) (s : State) : Host.Outcome State Fault Refusal := .next (s.traceSend k)

/-- PTB_ENABLE: A write of PTB_CTRL.EN starts or stops the unit's perturbations. (R476) -/
def execPtbEnable (x : Access) (e : Engine) (v : Word) (s : State) : Host.Outcome State Fault Refusal :=
  .next (s.write x (R.PTB_CTRL e) v)

end Machine
end Sys2Proof
end

