-- ==== Sys2Proof/Machine/Outputs.lean ====
section
/-! DEFINITION. PWM generation, trips, capture and encoder (chapters 08 and 09). -/

namespace Sys2Proof
namespace Machine

/-- PWM_VALLEY: The counter reaches 0: shadows reload, sync correction runs and VALLEY occurs. (R147) -/
def execPwmValley (n : Slice) (k : Fin 8) (s : State) : Host.Outcome State Fault Refusal :=
  .next (if s.atValley n k then (s.pwmValley n k).goValley n k else s)

/-- PWM_PERIOD_POINT: The counter reaches PER, reloads under the reload mode, and PERIOD occurs. (R147) -/
def execPwmPeriodPoint (n : Slice) (k : Fin 8) (s : State) : Host.Outcome State Fault Refusal := .next (s.pwmPeriod n k)

/-- PHASE_CHANGE: At an edge instant the pair changes phase, and the outgoing output turns off. (R153) -/
def execPhaseChange (n : Slice) (k : Fin 8) (s : State) : Host.Outcome State Fault Refusal := .next (s.phaseChange n k)

/-- DEAD_TIME_END: The dead time ends and the incoming output turns on. (R154) -/
def execDeadTimeEnd (n : Slice) (k : Fin 8) (s : State) : Host.Outcome State Fault Refusal := .next (s.deadTimeEnd n k)

/-- PWM_SHADOW_WRITE: A write to the PER, CMP or DT shadow takes effect at the next applicable reload point. (R159) -/
def execPwmShadowWrite (x : Access) (n : Slice) (k : Fin 8) (w : Shadow) (v : Word) (s : State) : Host.Outcome State Fault Refusal :=
  .next (s.write x (shadowAddr n k w) v)

/-- IMMEDIATE_ACTIVATION: In IMMEDIATE mode a CMP write becomes active 2 tCK after it completes. (R160) -/
def execImmediateActivation (n : Slice) (k : Fin 8) (s : State) : Host.Outcome State Fault Refusal := .next (s.immediate n k)

/-- COUNTER_RESTART: The counter restarts at its demanded position, active values load and the event prescalers restart. (R164) -/
def execCounterRestart (n : Slice) (k : Fin 8) (s : State) : Host.Outcome State Fault Refusal := .next (s.restartValley n k)

/-- TRIP_LATCH: An enabled source's request latches a trip, and the first latch records its source and time. (R170) -/
def execTripLatch (n : Slice) (k : Fin 8) (s : State) : Host.Outcome State Fault Refusal := .next (s.tripLatch n k)

/-- TRIP_INPUT_FILTER_PASS: A trip input that held a new level for the filter time passes it to the request. (R169) -/
def execTripInputFilterPass (n : Slice) (t : Fin 4) (pin : Bool) (s : State) : Host.Outcome State Fault Refusal :=
  .next (s.tripPass n t pin)

/-- TRIP_CLEAR: A write of PWM_TRIP_CMD.CLEAR is accepted, setting REARM_PEND, or refused and counted. (R170) -/
def execTripClear (x : Access) (n : Slice) (k : TripClr) (s : State) : Host.Outcome State Fault Refusal :=
  .next (s.write x (R.PWM_TRIP_CMD n k.k) (tripCmdWord k.cmd true))

/-- TRIP_FORCE: A write of PWM_TRIP_CMD.FORCE raises the CMD source for one cycle. (R168) -/
def execTripForce (x : Access) (n : Slice) (k : Fin 8) (s : State) : Host.Outcome State Fault Refusal :=
  .next (s.write x (R.PWM_TRIP_CMD n k) (tripCmdWord true false))

/-- SLC_TRIP: A write of SLC_TRIP raises the CMD source of the chosen channels. (R176) -/
def execSlcTrip (x : Access) (n : Slice) (mask : BitVec 8) (s : State) : Host.Outcome State Fault Refusal :=
  .next (s.write x (R.SLC_TRIP n) (mask.setWidth 32))

/-- TRIP_STAGE_TURN_ON: An output whose turn-on was pending turns on once the dead time after the other output's turn-off has passed. (R167) -/
def execTripStageTurnOn (n : Slice) (k : Fin 8) (s : State) : Host.Outcome State Fault Refusal := .next (s.stageTurnOn n k)

/-- TRIP_ENABLE_WRITE: A write of PWM_TRIP_EN enables sources, with window bits subject to the arm check. (R168) -/
def execTripEnableWrite (x : Access) (n : Slice) (k : Fin 8) (v : Word) (s : State) : Host.Outcome State Fault Refusal :=
  .next (s.write x (R.PWM_TRIP_EN n k) v)

/-- TRIPIN_CONFIG_WRITE: A change of FILT or POL in FENCED restarts the trip-input filter. (R169) -/
def execTripinConfigWrite (x : Access) (n : Slice) (t : Fin 4) (v : TripinWord) (s : State) : Host.Outcome State Fault Refusal :=
  .next ((s.write x (R.SLC_TRIPIN n t) v.v).tripResample s n t v.pin)

/-- CAPTURE_EDGE: A selected filtered edge records MTIME in the capture FIFO, or is dropped and counted. (R174) -/
def execCaptureEdge (n : Slice) (c : Fin 4) (rise : Bool) (s : State) : Host.Outcome State Fault Refusal :=
  .next (s.captureEdge n c rise)

/-- CAPTURE_FIFO_READ: A read of SLC_CAPTS returns and removes the oldest record. (R174) -/
def execCaptureFifoRead (x : Access) (n : Slice) (c : Fin 4) (s : State) : Host.Outcome State Fault Refusal :=
  .next (s.read x (R.SLC_CAPTS n c))

/-- ENCODER_STEP: A filtered track edge changes POS by one, or both tracks changing counts ENC_ERR. (R175) -/
def execEncoderStep (n : Slice) (a b : Bool) (s : State) : Host.Outcome State Fault Refusal := .next (s.encoderStep n a b)

end Machine
end Sys2Proof
end

