-- ==== Sys2Proof/Machine/SecurityCmd.lean ====
section
/-! DEFINITION. Security and life-cycle (chapter 26). -/

namespace Sys2Proof
namespace Machine

/-- SET_MINVER: Raises SEC_MINVER to the running image's version. (R452) -/
def execSetMinver (x : Access) (key : BitVec 16) (s : State) : Host.Outcome State Fault Refusal :=
  .next (s.write x R.SEC_CMD (secWord key 1 0))

/-- WRITE_KEY: Writes a staged key digest into a key slot once. (R449) -/
def execWriteKey (x : Access) (key : BitVec 16) (slot : Fin 4) (s : State) : Host.Outcome State Fault Refusal :=
  .next (s.write x R.SEC_CMD (secWord key 2 slot))

/-- REVOKE: Sets REVOKED on a key slot. (R449) -/
def execRevoke (x : Access) (key : BitVec 16) (slot : Fin 4) (s : State) : Host.Outcome State Fault Refusal :=
  .next (s.write x R.SEC_CMD (secWord key 3 slot))

/-- LC_TRANSITION_REQUEST: A write of SEC_LC_REQ is accepted or refused as a life-cycle transition. (R454) -/
def execLcTransitionRequest (x : Access) (v : Word) (s : State) : Host.Outcome State Fault Refusal :=
  .next (s.write x R.SEC_LC_REQ v)

/-- LC_STATE_WRITE: The new life-cycle state is written to the one-time cells and a cold start follows. (R455) -/
def execLcStateWrite (s : State) : Host.Outcome State Fault Refusal := .next (s.lcWrite)

/-- TAMPER: A tamper detection wipes secure SRAM and records the event. (R456) -/
def execTamper (b : Fin 5) (s : State) : Host.Outcome State Fault Refusal := .next (s.tamper b)

end Machine
end Sys2Proof
end

