-- ==== Sys2Proof/Machine/Supply.lean ====
section
/-! DEFINITION. Supply, energy limits, clocks, the real-time counter and the watchdogs (chapter 25). -/

namespace Sys2Proof
namespace Machine

/-- INPUT_LOSS: INPUT_OK falls and the module runs on hold-up, firing PWR_FAIL. (R429) -/
def execInputLoss (vin : BitVec 16) (s : State) : Host.Outcome State Fault Refusal := .next (s.inputLoss vin)

/-- HOLDUP_LOW: The store reaches its reserve and every slice is disarmed. (R429) -/
def execHoldupLow (s : State) : Host.Outcome State Fault Refusal := .next (s.holdupLow)

/-- HOLDUP_SHUTDOWN: 0.5 ms after HOLDUP_LOW the logic rails leave regulation. (R429) -/
def execHoldupShutdown (s : State) : Host.Outcome State Fault Refusal := .next (s.shutdown)

/-- INPUT_RESTORED: INPUT_OK rises during hold-up and PWR_RESTORED fires. (R430) -/
def execInputRestored (vin : BitVec 16) (s : State) : Host.Outcome State Fault Refusal := .next (s.inputRestored vin)

/-- HOLDUP_READY: The store reaches its energy and HOLDUP_READY reads 1. (R428) -/
def execHoldupReady (s : State) : Host.Outcome State Fault Refusal := .next (s.holdupReady)

/-- OVERVOLTAGE: The input exceeds 154 V and OV is set. (R427) -/
def execOvervoltage (vin : BitVec 16) (s : State) : Host.Outcome State Fault Refusal := .next (s.overvoltage vin)

/-- EL_FOLDBACK: An EL pin over 50 mA for 50 µs folds back to high impedance. (R433) -/
def execElFoldback (j : Fin 6) (pin : Fin 512) (s : State) : Host.Outcome State Fault Refusal := .next (s.foldback j pin)

/-- EL_FOLDBACK_RETRY: After 100 ms a folded-back pin drives again. (R433) -/
def execElFoldbackRetry (j : Fin 6) (pin : Fin 512) (s : State) : Host.Outcome State Fault Refusal :=
  .next (s.foldbackEnd j pin)

/-- CLOCK_LOCK: A requested stopped clock locks and stalled accesses proceed. (R436) -/
def execClockLock (c : Fin 7) (s : State) : Host.Outcome State Fault Refusal := .next (s.clockLock c)

/-- CLOCK_GLITCH: The core PLL outside ±5 % disarms every slice and is reported as a glitch. (R437) -/
def execClockGlitch (s : State) : Host.Outcome State Fault Refusal := .next (s.clockGlitch)

/-- RTC_ALARM: AON_RTC_SEC reaches AON_ALARM and the alarm line rises. (R447) -/
def execRtcAlarm (s : State) : Host.Outcome State Fault Refusal := .next (s.rtcAlarm)

/-- XTAL_OK_CHANGE: The 32.768 kHz crystal starts or stops oscillating, XTAL_OK changes and the RTC switches its source. (R435) -/
def execXtalOkChange (ok : Bool) (s : State) : Host.Outcome State Fault Refusal := .next (s.xtalOk ok)

/-- TEMPERATURE_UPDATE: Every 10 ms PWR_TEMP is updated, and HOT and HOT_F are set while the baseplate exceeds +90 °C. (R493) -/
def execTemperatureUpdate (base die : BitVec 8) (s : State) : Host.Outcome State Fault Refusal :=
  .next (s.temperature base die)

/-- WDG_SERVICE: A write of WDG_SVC with the expected key resets the count. (R442) -/
def execWdgService (x : Access) (e : Engine) (key : BitVec 16) (s : State) : Host.Outcome State Fault Refusal :=
  .next (s.write x (R.WDG_SVC e) (key.setWidth 32))

/-- WDG_RESTART: A write of the restart key clears EXPIRED and restarts counting. (R443) -/
def execWdgRestart (x : Access) (e : Engine) (coll : Bool) (s : State) : Host.Outcome State Fault Refusal :=
  .next (s.wdgRestartWrite x e coll)

/-- WDG_EXPIRE: The count reaching PERIOD is a violation and sets EXPIRED. (R441) -/
def execWdgExpire (e : Engine) (s : State) : Host.Outcome State Fault Refusal := .next (s.wdgExpire e)

end Machine
end Sys2Proof
end

