-- ==== Sys2Proof/Machine/Transfers.lean ====
section
/-! DEFINITION. DMA programs (chapter 19). -/

namespace Sys2Proof
namespace Machine

/-- DMA_START: A write of DMA_CTRL.START starts the channel's program, or is refused. (R325) -/
def execDmaStart (x : Access) (e : Engine) (c : Fin 16) (s : State) : Host.Outcome State Fault Refusal :=
  .next (s.write x (R.DMA_CTRL e c) (F.DMA_CTRL_START.word 1))

/-- DMA_HALT: A write of HALT stops the channel at the next access boundary. (R325) -/
def execDmaHalt (x : Access) (e : Engine) (c : Fin 16) (s : State) : Host.Outcome State Fault Refusal :=
  .next (s.write x (R.DMA_CTRL e c) (F.DMA_CTRL_HALT.word 1))

/-- DMA_END: END waits for outstanding writes, sets DONE_F and returns the channel to IDLE. (R323) -/
def execDmaEnd (e : Engine) (c : Fin 16) (s : State) : Host.Outcome State Fault Refusal :=
  .next (s.dmaRun e c 0 (fun t l => t.dmaBarrier e c .finish l))

/-- MOVE: Moves a block of cells or bytes between addresses. (R317) -/
def execMove (e : Engine) (c : Fin 16) (s : State) : Host.Outcome State Fault Refusal :=
  .next (s.dmaRun e c 1 (fun t l => t.dmaMove e c l))

/-- DMA_LOOP: Opens a DMA loop body with strides. (R318) -/
def execDmaLoop (e : Engine) (c : Fin 16) (s : State) : Host.Outcome State Fault Refusal :=
  .next (s.dmaRun e c 2 (fun t l => t.dmaLoop e c l))

/-- ENDLOOP: Closes a DMA loop iteration. (R318) -/
def execEndloop (e : Engine) (c : Fin 16) (s : State) : Host.Outcome State Fault Refusal :=
  .next (s.dmaRun e c 3 (fun t l => t.dmaEndloop e c l))

/-- DMA_WAIT: Waits for the first firing of a source. (R322) -/
def execDmaWait (e : Engine) (c : Fin 16) (s : State) : Host.Outcome State Fault Refusal :=
  .next (s.dmaRun e c 4 (fun t l => t.dmaWait e c l))

/-- DMA_WAIT_TIMEOUT: TIMEOUT µs without a firing stops the channel with WAIT_TIMEOUT. (R322) -/
def execDmaWaitTimeout (e : Engine) (c : Fin 16) (s : State) : Host.Outcome State Fault Refusal := .next (s.dmaTimeout e c)

/-- DMA_SIGNAL: Waits for outstanding writes and fires the channel's source. (R323) -/
def execDmaSignal (e : Engine) (c : Fin 16) (s : State) : Host.Outcome State Fault Refusal :=
  .next (s.dmaRun e c 5 (fun t l => t.dmaBarrier e c .signal l))

/-- SHUFFLE: Interleaves or deinterleaves frames and planes. (R321) -/
def execShuffle (e : Engine) (c : Fin 16) (s : State) : Host.Outcome State Fault Refusal :=
  .next (s.dmaRun e c 6 (fun t l => t.dmaShuffle e c l))

/-- DMA_FENCE: Retires when every earlier write of the channel has its response. (R323) -/
def execDmaFence (e : Engine) (c : Fin 16) (s : State) : Host.Outcome State Fault Refusal :=
  .next (s.dmaRun e c 7 (fun t l => t.dmaBarrier e c .fence l))

/-- DMA_WRITE_RESPONSE: A write response arrives and frees an outstanding-write slot. (R323) -/
def execDmaWriteResponse (e : Engine) (c : Fin 16) (s : State) : Host.Outcome State Fault Refusal :=
  .next (s.dmaResponse e c)

end Machine
end Sys2Proof
end

