-- ==== Sys2Proof/Machine/TwinLink.lean ====
section
/-! DEFINITION. Twin operation (chapter 23). -/

namespace Sys2Proof
namespace Machine

/-- COMMIT: A received COMMIT record is applied to the standby loop and its target. (R397) -/
def execCommit (n : Slice) (j : Fin 16) (x : LoopImage) (k : Streamed Nat) (s : State) : Host.Outcome State Fault Refusal :=
  .next (s.received k.stream (.loopRec false n j x k.val))

/-- CONFIG: A received CONFIG record is applied to the standby's registers. (R396) -/
def execConfig (n : Slice) (off : Nat) (v : Word) (k : Streamed Nat) (s : State) : Host.Outcome State Fault Refusal :=
  .next (s.received k.stream (.config n off v k.val))

/-- SNAP: A received SNAP record sets a standby loop's full state toward SYNCED. (R397) -/
def execSnap (n : Slice) (j : Fin 16) (x : LoopImage) (k : Streamed Nat) (s : State) : Host.Outcome State Fault Refusal :=
  .next (s.received k.stream (.loopRec true n j x k.val))

/-- HANDOVER: A received HANDOVER record makes the taker take the named slices. (R401) -/
def execHandover (mask : BitVec 12) (cause : Streamed (Fin 16)) (s : State) : Host.Outcome State Fault Refusal :=
  .next (s.received cause.stream (.handover mask cause.val 0))

/-- TAKE_ACK: A received TAKE_ACK confirms taken slices, and refused ones return to the deposer. (R403) -/
def execTakeAck (taken : BitVec 12) (refused : Streamed (BitVec 12)) (s : State) : Host.Outcome State Fault Refusal :=
  .next (s.received refused.stream (.takeAck taken refused.val))

/-- STATUS: A received STATUS record updates TWN_PEER. (R399) -/
def execStatus (synced armed : BitVec 12) (standby : Streamed (BitVec 12)) (s : State) : Host.Outcome State Fault Refusal :=
  .next (s.received standby.stream (.status synced armed standby.val false))

/-- STATUS_TRANSMIT: A STATUS record is sent every 100 µs and on role or sync changes. (R396) -/
def execStatusTransmit (s : State) : Host.Outcome State Fault Refusal := .next (s.statusOut)

/-- TWIN_LINK_LOSS: No twin lane locked for 1 µs sets LINK_DOWN_F and fires LINK_DOWN. (R402) -/
def execTwinLinkLoss (s : State) : Host.Outcome State Fault Refusal := .next (s.twinLoss)

/-- TWIN_LINK_UP: Every fitted twin lane regains symbol lock. (R407) -/
def execTwinLinkUp (p : TwinPeer) (s : State) : Host.Outcome State Fault Refusal := .next (s.twinUp p)

/-- HANDOVER_LINE_ASSERT: A standby asserts TWN_HO_OUT at its side's delay and takes its synced slices. (R402) -/
def execHandoverLineAssert (s : State) : Host.Outcome State Fault Refusal := .next (s.lineAssert)

/-- HANDOVER_LINE_IN: An asserted TWN_HO_IN turns all pins off and deposes the module. (R400) -/
def execHandoverLineIn (s : State) : Host.Outcome State Fault Refusal := .next (s.lineIn)

/-- TAKEOVER_COMPLETE: One µs after T_H the taken slice reads RUNNING and serves triggers. (R401) -/
def execTakeoverComplete (n : Slice) (s : State) : Host.Outcome State Fault Refusal := .next (s.takeoverEnd n)

/-- TAKE_ACK_TIMEOUT: No TAKE_ACK within 2 µs returns the active role to the deposer. (R403) -/
def execTakeAckTimeout (s : State) : Host.Outcome State Fault Refusal := .next (s.takeAckTimeout)

/-- RELEASE: A write of TWN_CMD.RELEASE deasserts TWN_HO_OUT once the link is trained. (R402) -/
def execRelease (x : Access) (key : BitVec 16) (s : State) : Host.Outcome State Fault Refusal :=
  .next (s.write x R.TWN_CMD (F.TWN_CMD_KEY.word key.toNat ||| F.TWN_CMD_RELEASE.word 1))

/-- TWN_HO_IN_DEASSERTED: TWN_HO_IN falls, ending DEPOSED and the TWIN_HO trip request on the deposed module. (R402) -/
def execTwnHoInDeasserted (s : State) : Host.Outcome State Fault Refusal := .next (s.lineOut)

/-- HEALTHY_CHG: One millisecond after the last dropped twin record, HEALTHY returns to 1 and source 978 fires. (R399) -/
def execHealthyChg (s : State) : Host.Outcome State Fault Refusal := .next (s.healthy)

end Machine
end Sys2Proof
end

