-- ==== Sys2Proof/Machine/Dispatch.lean ====
section
/-! DEFINITION. The meaning of every command, arm by arm. -/

namespace Sys2Proof
namespace Machine

/-- The effect of a command. -/
def exec (i : Instr) (s : State) : Host.Outcome State Fault Refusal :=
  match i with
  | .registerWrite x a v => Sys2Proof.Machine.execRegisterWrite x a v s
  | .coldStart t => Sys2Proof.Machine.execColdStart t s
  | .arm x w => Sys2Proof.Machine.execArm x w s
  | .armPendingTakesEffect n => Sys2Proof.Machine.execArmPendingTakesEffect n s
  | .disarm x w => Sys2Proof.Machine.execDisarm x w s
  | .modeChangeRequest x v => Sys2Proof.Machine.execModeChangeRequest x v s
  | .modeChangeComplete => Sys2Proof.Machine.execModeChangeComplete s
  | .stabledEntryComplete => Sys2Proof.Machine.execStabledEntryComplete s
  | .wake k t => Sys2Proof.Machine.execWake k t s
  | .sliceAssign x n v => Sys2Proof.Machine.execSliceAssign x n v s
  | .fence x n key toTwin => Sys2Proof.Machine.execFence x n key toTwin s
  | .fenceComplete n => Sys2Proof.Machine.execFenceComplete n s
  | .resume x n key => Sys2Proof.Machine.execResume x n key s
  | .resumeCheckComplete n => Sys2Proof.Machine.execResumeCheckComplete n s
  | .go x n key => Sys2Proof.Machine.execGo x n key s
  | .restart x n key => Sys2Proof.Machine.execRestart x n key s
  | .restartTestsComplete n r selftest => Sys2Proof.Machine.execRestartTestsComplete n r selftest s
  | .stop x n key => Sys2Proof.Machine.execStop x n key s
  | .windowHalfSwitch n idx high set => Sys2Proof.Machine.execWindowHalfSwitch n idx high set s
  | .settlingIntervalEnd n idx hi lo => Sys2Proof.Machine.execSettlingIntervalEnd n idx hi lo s
  | .inputOverrange n idx beyond => Sys2Proof.Machine.execInputOverrange n idx beyond s
  | .grgWcfgWrite x n idx v => Sys2Proof.Machine.execGrgWcfgWrite x n idx v s
  | .grgInWrite x n idx v => Sys2Proof.Machine.execGrgInWrite x n idx v s
  | .grgThrWrite x n idx v => Sys2Proof.Machine.execGrgThrWrite x n idx v s
  | .thresholdSwitch n idx high => Sys2Proof.Machine.execThresholdSwitch n idx high s
  | .grgTestWrite x n idx v => Sys2Proof.Machine.execGrgTestWrite x n idx v s
  | .sarTrigger n k extra => Sys2Proof.Machine.execSarTrigger n k extra s
  | .sarSwtrig x n k => Sys2Proof.Machine.execSarSwtrig x n k s
  | .sarHold n k code => Sys2Proof.Machine.execSarHold n k code s
  | .sarResultReady n k => Sys2Proof.Machine.execSarResultReady n k s
  | .sarHandoff n k coll => Sys2Proof.Machine.execSarHandoff n k coll s
  | .sarRecordWrite n k => Sys2Proof.Machine.execSarRecordWrite n k s
  | .selfcal x n => Sys2Proof.Machine.execSelfcal x n s
  | .selfcalComplete n failed => Sys2Proof.Machine.execSelfcalComplete n failed s
  | .loopTrigger n j => Sys2Proof.Machine.execLoopTrigger n j s
  | .cleSwtrig x n v => Sys2Proof.Machine.execCleSwtrig x n v s
  | .loopIssue n at_ => Sys2Proof.Machine.execLoopIssue n at_ s
  | .microwordIssue n => Sys2Proof.Machine.execMicrowordIssue n s
  | .commitCompare n j agree => Sys2Proof.Machine.execCommitCompare n j agree s
  | .commitComplete n j coll => Sys2Proof.Machine.execCommitComplete n j coll s
  | .swapBank x n j key => Sys2Proof.Machine.execSwapBank x n j key s
  | .toAuto x n j key => Sys2Proof.Machine.execToAuto x n j key s
  | .toManual x n j key => Sys2Proof.Machine.execToManual x n j key s
  | .clearHist x n j key => Sys2Proof.Machine.execClearHist x n j key s
  | .mcsStageWrite x n w idx v => Sys2Proof.Machine.execMcsStageWrite x n w idx v s
  | .mcsWordCommit x n w v => Sys2Proof.Machine.execMcsWordCommit x n w v s
  | .ldOpenWrite x n v => Sys2Proof.Machine.execLdOpenWrite x n v s
  | .crcComplete n => Sys2Proof.Machine.execCrcComplete n s
  | .scanRepair n w stuck => Sys2Proof.Machine.execScanRepair n w stuck s
  | .att p => Sys2Proof.Machine.execAtt p s
  | .attachedCallIssue n => Sys2Proof.Machine.execAttachedCallIssue n s
  | .attachedCallComplete n agree => Sys2Proof.Machine.execAttachedCallComplete n agree s
  | .attachedCallTimeout n => Sys2Proof.Machine.execAttachedCallTimeout n s
  | .pwmValley n k => Sys2Proof.Machine.execPwmValley n k s
  | .pwmPeriodPoint n k => Sys2Proof.Machine.execPwmPeriodPoint n k s
  | .phaseChange n k => Sys2Proof.Machine.execPhaseChange n k s
  | .deadTimeEnd n k => Sys2Proof.Machine.execDeadTimeEnd n k s
  | .pwmShadowWrite x n k w v => Sys2Proof.Machine.execPwmShadowWrite x n k w v s
  | .immediateActivation n k => Sys2Proof.Machine.execImmediateActivation n k s
  | .counterRestart n k => Sys2Proof.Machine.execCounterRestart n k s
  | .tripLatch n k => Sys2Proof.Machine.execTripLatch n k s
  | .tripInputFilterPass n t pin => Sys2Proof.Machine.execTripInputFilterPass n t pin s
  | .tripClear x n k => Sys2Proof.Machine.execTripClear x n k s
  | .tripForce x n k => Sys2Proof.Machine.execTripForce x n k s
  | .slcTrip x n mask => Sys2Proof.Machine.execSlcTrip x n mask s
  | .tripStageTurnOn n k => Sys2Proof.Machine.execTripStageTurnOn n k s
  | .tripEnableWrite x n k v => Sys2Proof.Machine.execTripEnableWrite x n k v s
  | .tripinConfigWrite x n t v => Sys2Proof.Machine.execTripinConfigWrite x n t v s
  | .captureEdge n c rise => Sys2Proof.Machine.execCaptureEdge n c rise s
  | .captureFifoRead x n c => Sys2Proof.Machine.execCaptureFifoRead x n c s
  | .encoderStep n a b => Sys2Proof.Machine.execEncoderStep n a b s
  | .injectionStart x n v => Sys2Proof.Machine.execInjectionStart x n v s
  | .injectionStop x n => Sys2Proof.Machine.execInjectionStop x n s
  | .injCaptureRecordWrite n => Sys2Proof.Machine.execInjCaptureRecordWrite n s
  | .injLimWrite x n j v => Sys2Proof.Machine.execInjLimWrite x n j v s
  | .zeroCrossing => Sys2Proof.Machine.execZeroCrossing s
  | .madBoundary rs => Sys2Proof.Machine.execMadBoundary rs s
  | .lineLost rs => Sys2Proof.Machine.execLineLost rs s
  | .madRecordWrite => Sys2Proof.Machine.execMadRecordWrite s
  | .urgentRequest x v => Sys2Proof.Machine.execUrgentRequest x v s
  | .refSettled => Sys2Proof.Machine.execRefSettled s
  | .refFault => Sys2Proof.Machine.execRefFault s
  | .madUnitEnable x v => Sys2Proof.Machine.execMadUnitEnable x v s
  | .madScanWrite x v => Sys2Proof.Machine.execMadScanWrite x v s
  | .lda p => Sys2Proof.Machine.execLda p s
  | .sta p => Sys2Proof.Machine.execSta p s
  | .add p => Sys2Proof.Machine.execAdd p s
  | .sub p => Sys2Proof.Machine.execSub p s
  | .adds p => Sys2Proof.Machine.execAdds p s
  | .subs p => Sys2Proof.Machine.execSubs p s
  | .mul p => Sys2Proof.Machine.execMul p s
  | .macx p => Sys2Proof.Machine.execMacx p s
  | .and p => Sys2Proof.Machine.execAnd p s
  | .or p => Sys2Proof.Machine.execOr p s
  | .xor p => Sys2Proof.Machine.execXor p s
  | .ldx p => Sys2Proof.Machine.execLdx p s
  | .stx p => Sys2Proof.Machine.execStx p s
  | .ldy p => Sys2Proof.Machine.execLdy p s
  | .sty p => Sys2Proof.Machine.execSty p s
  | .xch p => Sys2Proof.Machine.execXch p s
  | .eq p => Sys2Proof.Machine.execEq p s
  | .ne p => Sys2Proof.Machine.execNe p s
  | .lt p => Sys2Proof.Machine.execLt p s
  | .ge p => Sys2Proof.Machine.execGe p s
  | .gt p => Sys2Proof.Machine.execGt p s
  | .le p => Sys2Proof.Machine.execLe p s
  | .teq p => Sys2Proof.Machine.execTeq p s
  | .tne p => Sys2Proof.Machine.execTne p s
  | .nop p => Sys2Proof.Machine.execNop p s
  | .ret p => Sys2Proof.Machine.execRet p s
  | .fret p => Sys2Proof.Machine.execFret p s
  | .gret p => Sys2Proof.Machine.execGret p s
  | .rfe p => Sys2Proof.Machine.execRfe p s
  | .lock p => Sys2Proof.Machine.execLock p s
  | .ctlFence p => Sys2Proof.Machine.execCtlFence p s
  | .wfe p => Sys2Proof.Machine.execWfe p s
  | .pusha p => Sys2Proof.Machine.execPusha p s
  | .popa p => Sys2Proof.Machine.execPopa p s
  | .pushx p => Sys2Proof.Machine.execPushx p s
  | .popx p => Sys2Proof.Machine.execPopx p s
  | .pushy p => Sys2Proof.Machine.execPushy p s
  | .popy p => Sys2Proof.Machine.execPopy p s
  | .tax p => Sys2Proof.Machine.execTax p s
  | .txa p => Sys2Proof.Machine.execTxa p s
  | .tay p => Sys2Proof.Machine.execTay p s
  | .tya p => Sys2Proof.Machine.execTya p s
  | .swxy p => Sys2Proof.Machine.execSwxy p s
  | .rdsp p => Sys2Proof.Machine.execRdsp p s
  | .wdsp p => Sys2Proof.Machine.execWdsp p s
  | .rpg p => Sys2Proof.Machine.execRpg p s
  | .wpg p => Sys2Proof.Machine.execWpg p s
  | .rdtag p => Sys2Proof.Machine.execRdtag p s
  | .rdtime p => Sys2Proof.Machine.execRdtime p s
  | .pfx p => Sys2Proof.Machine.execPfx p s
  | .ldia p => Sys2Proof.Machine.execLdia p s
  | .ldix p => Sys2Proof.Machine.execLdix p s
  | .ldiy p => Sys2Proof.Machine.execLdiy p s
  | .addia p => Sys2Proof.Machine.execAddia p s
  | .loop p => Sys2Proof.Machine.execLoop p s
  | .lea p => Sys2Proof.Machine.execLea p s
  | .sc p => Sys2Proof.Machine.execSc p s
  | .pstore p => Sys2Proof.Machine.execPstore p s
  | .jump p => Sys2Proof.Machine.execJump p s
  | .call p => Sys2Proof.Machine.execCall p s
  | .jumpx p => Sys2Proof.Machine.execJumpx p s
  | .callx p => Sys2Proof.Machine.execCallx p s
  | .fcall p => Sys2Proof.Machine.execFcall p s
  | .gate p => Sys2Proof.Machine.execGate p s
  | .cld p => Sys2Proof.Machine.execCld p s
  | .cst p => Sys2Proof.Machine.execCst p s
  | .crange p => Sys2Proof.Machine.execCrange p s
  | .cmask p => Sys2Proof.Machine.execCmask p s
  | .cclose p => Sys2Proof.Machine.execCclose p s
  | .copen p => Sys2Proof.Machine.execCopen p s
  | .cclr p => Sys2Proof.Machine.execCclr p s
  | .cinfo p => Sys2Proof.Machine.execCinfo p s
  | .cmov p => Sys2Proof.Machine.execCmov p s
  | .capsw p => Sys2Proof.Machine.execCapsw p s
  | .ctst p => Sys2Proof.Machine.execCtst p s
  | .div p => Sys2Proof.Machine.execDiv p s
  | .sqrt p => Sys2Proof.Machine.execSqrt p s
  | .sincos p => Sys2Proof.Machine.execSincos p s
  | .atan2 p => Sys2Proof.Machine.execAtan2 p s
  | .longResult p => Sys2Proof.Machine.execLongResult p s
  | .retag p => Sys2Proof.Machine.execRetag p s
  | .dsadj p => Sys2Proof.Machine.execDsadj p s
  | .ldb p => Sys2Proof.Machine.execLdb p s
  | .ldh p => Sys2Proof.Machine.execLdh p s
  | .stb p => Sys2Proof.Machine.execStb p s
  | .sth p => Sys2Proof.Machine.execSth p s
  | .ldu p => Sys2Proof.Machine.execLdu p s
  | .legacyLda p => Sys2Proof.Machine.execLegacyLda p s
  | .legacySta p => Sys2Proof.Machine.execLegacySta p s
  | .legacyAdd p => Sys2Proof.Machine.execLegacyAdd p s
  | .legacySub p => Sys2Proof.Machine.execLegacySub p s
  | .legacyAnd p => Sys2Proof.Machine.execLegacyAnd p s
  | .legacyOr p => Sys2Proof.Machine.execLegacyOr p s
  | .legacyXor p => Sys2Proof.Machine.execLegacyXor p s
  | .jmpp p => Sys2Proof.Machine.execJmpp p s
  | .lockBroken p => Sys2Proof.Machine.execLockBroken p s
  | .storeDrain p => Sys2Proof.Machine.execStoreDrain p s
  | .interruptEntry p => Sys2Proof.Machine.execInterruptEntry p s
  | .faultEntry p => Sys2Proof.Machine.execFaultEntry p s
  | .checkpoint p => Sys2Proof.Machine.execCheckpoint p s
  | .lockstepDivergence p mw rw ea mism => Sys2Proof.Machine.execLockstepDivergence p mw rw ea mism s
  | .recoveryComplete n stuck differs => Sys2Proof.Machine.execRecoveryComplete n stuck differs s
  | .eccWriteBack a => Sys2Proof.Machine.execEccWriteBack a s
  | .memMarchRequest x v => Sys2Proof.Machine.execMemMarchRequest x v s
  | .marchComplete fails bank addr => Sys2Proof.Machine.execMarchComplete fails bank addr s
  | .memoryClearComplete t => Sys2Proof.Machine.execMemoryClearComplete t s
  | .secWiped => Sys2Proof.Machine.execSecWiped s
  | .mmcScrub => Sys2Proof.Machine.execMmcScrub s
  | .pageMapFillComplete c => Sys2Proof.Machine.execPageMapFillComplete c s
  | .mmcChannelDown c => Sys2Proof.Machine.execMmcChannelDown c s
  | .lineFilterChange src level => Sys2Proof.Machine.execLineFilterChange src level s
  | .eventLatch r => Sys2Proof.Machine.execEventLatch r s
  | .msixIssue r => Sys2Proof.Machine.execMsixIssue r s
  | .evrAck x n src => Sys2Proof.Machine.execEvrAck x n src s
  | .evrSysAck x src => Sys2Proof.Machine.execEvrSysAck x src s
  | .groupBatchClose g => Sys2Proof.Machine.execGroupBatchClose g s
  | .evrTgtWrite x t v => Sys2Proof.Machine.execEvrTgtWrite x t v s
  | .eventTap => Sys2Proof.Machine.execEventTap s
  | .orphanRead x => Sys2Proof.Machine.execOrphanRead x s
  | .dmaStart x e c => Sys2Proof.Machine.execDmaStart x e c s
  | .dmaHalt x e c => Sys2Proof.Machine.execDmaHalt x e c s
  | .dmaEnd e c => Sys2Proof.Machine.execDmaEnd e c s
  | .move e c => Sys2Proof.Machine.execMove e c s
  | .dmaLoop e c => Sys2Proof.Machine.execDmaLoop e c s
  | .endloop e c => Sys2Proof.Machine.execEndloop e c s
  | .dmaWait e c => Sys2Proof.Machine.execDmaWait e c s
  | .dmaWaitTimeout e c => Sys2Proof.Machine.execDmaWaitTimeout e c s
  | .dmaSignal e c => Sys2Proof.Machine.execDmaSignal e c s
  | .shuffle e c => Sys2Proof.Machine.execShuffle e c s
  | .dmaFence e c => Sys2Proof.Machine.execDmaFence e c s
  | .dmaWriteResponse e c => Sys2Proof.Machine.execDmaWriteResponse e c s
  | .linkUp width speed => Sys2Proof.Machine.execLinkUp width speed s
  | .linkDown => Sys2Proof.Machine.execLinkDown s
  | .functionLevelReset f => Sys2Proof.Machine.execFunctionLevelReset f s
  | .busMasterEnableClear f => Sys2Proof.Machine.execBusMasterEnableClear f s
  | .d3hotEntry f => Sys2Proof.Machine.execD3hotEntry f s
  | .vfEnableClear en num => Sys2Proof.Machine.execVfEnableClear en num s
  | .completionTimeout f k => Sys2Proof.Machine.execCompletionTimeout f k s
  | .functionEnable x f twin => Sys2Proof.Machine.execFunctionEnable x f twin s
  | .functionDisable x f twin => Sys2Proof.Machine.execFunctionDisable x f twin s
  | .disableTimeout f => Sys2Proof.Machine.execDisableTimeout f s
  | .sqTail by_ g r v => Sys2Proof.Machine.execSqTail by_ g r v s
  | .cqHead by_ g r v => Sys2Proof.Machine.execCqHead by_ g r v s
  | .edgeRidx by_ g v => Sys2Proof.Machine.execEdgeRidx by_ g v s
  | .abort by_ g v => Sys2Proof.Machine.execAbort by_ g v s
  | .abortComplete f => Sys2Proof.Machine.execAbortComplete f s
  | .lateCompletion f => Sys2Proof.Machine.execLateCompletion f s
  | .descriptorFetch f r w => Sys2Proof.Machine.execDescriptorFetch f r w s
  | .completionWrite f q => Sys2Proof.Machine.execCompletionWrite f q s
  | .descNop f k => Sys2Proof.Machine.execDescNop f k s
  | .descFence f k => Sys2Proof.Machine.execDescFence f k s
  | .setParam f k => Sys2Proof.Machine.execSetParam f k s
  | .setRef f k coll => Sys2Proof.Machine.execSetRef f k coll s
  | .loadCoeff f k => Sys2Proof.Machine.execLoadCoeff f k s
  | .descSwapBank f k => Sys2Proof.Machine.execDescSwapBank f k s
  | .setModeLoop f k => Sys2Proof.Machine.execSetModeLoop f k s
  | .readState f k => Sys2Proof.Machine.execReadState f k s
  | .capture f k => Sys2Proof.Machine.execCapture f k s
  | .traceArm f k => Sys2Proof.Machine.execTraceArm f k s
  | .dmaXfer f k => Sys2Proof.Machine.execDmaXfer f k s
  | .mcodeLoad f k => Sys2Proof.Machine.execMcodeLoad f k s
  | .flashOp f k => Sys2Proof.Machine.execFlashOp f k s
  | .descMarch f k => Sys2Proof.Machine.execDescMarch f k s
  | .sliceFence f k => Sys2Proof.Machine.execSliceFence f k s
  | .sliceResume f k => Sys2Proof.Machine.execSliceResume f k s
  | .hilFeed f k => Sys2Proof.Machine.execHilFeed f k s
  | .eventWait f k => Sys2Proof.Machine.execEventWait f k s
  | .eventWaitTimeout f k => Sys2Proof.Machine.execEventWaitTimeout f k s
  | .frameDiscard x => Sys2Proof.Machine.execFrameDiscard x s
  | .sync p t tApply step frac => Sys2Proof.Machine.execSync p t tApply step frac s
  | .event p pos seq recs => Sys2Proof.Machine.execEvent p pos seq recs s
  | .topo p seq t => Sys2Proof.Machine.execTopo p seq t s
  | .dlyReq p t2 t3 => Sys2Proof.Machine.execDlyReq p t2 t3 s
  | .dlyResp p t1 t2 t3 t4 => Sys2Proof.Machine.execDlyResp p t1 t2 t3 t4 s
  | .syncTransmit => Sys2Proof.Machine.execSyncTransmit s
  | .topoTransmit => Sys2Proof.Machine.execTopoTransmit s
  | .memberTimeout pos => Sys2Proof.Machine.execMemberTimeout pos s
  | .syncLoss => Sys2Proof.Machine.execSyncLoss s
  | .groupStepApply => Sys2Proof.Machine.execGroupStepApply s
  | .inauguration => Sys2Proof.Machine.execInauguration s
  | .ptpLock delta => Sys2Proof.Machine.execPtpLock delta s
  | .ttStepAnnounce ahead => Sys2Proof.Machine.execTtStepAnnounce ahead s
  | .groupAnnouncement => Sys2Proof.Machine.execGroupAnnouncement s
  | .groupAnnouncementReceive g sender mask => Sys2Proof.Machine.execGroupAnnouncementReceive g sender mask s
  | .ptpTimeEvent => Sys2Proof.Machine.execPtpTimeEvent s
  | .portDown p => Sys2Proof.Machine.execPortDown p s
  | .commit n j x k => Sys2Proof.Machine.execCommit n j x k s
  | .config n off v k => Sys2Proof.Machine.execConfig n off v k s
  | .snap n j x k => Sys2Proof.Machine.execSnap n j x k s
  | .handover mask cause => Sys2Proof.Machine.execHandover mask cause s
  | .takeAck taken refused => Sys2Proof.Machine.execTakeAck taken refused s
  | .status synced armed standby => Sys2Proof.Machine.execStatus synced armed standby s
  | .statusTransmit => Sys2Proof.Machine.execStatusTransmit s
  | .twinLinkLoss => Sys2Proof.Machine.execTwinLinkLoss s
  | .twinLinkUp p => Sys2Proof.Machine.execTwinLinkUp p s
  | .handoverLineAssert => Sys2Proof.Machine.execHandoverLineAssert s
  | .handoverLineIn => Sys2Proof.Machine.execHandoverLineIn s
  | .takeoverComplete n => Sys2Proof.Machine.execTakeoverComplete n s
  | .takeAckTimeout => Sys2Proof.Machine.execTakeAckTimeout s
  | .release x key => Sys2Proof.Machine.execRelease x key s
  | .erase x key => Sys2Proof.Machine.execErase x key s
  | .eraseComplete e => Sys2Proof.Machine.execEraseComplete e s
  | .program x key => Sys2Proof.Machine.execProgram x key s
  | .programComplete retries => Sys2Proof.Machine.execProgramComplete retries s
  | .suspend x key => Sys2Proof.Machine.execSuspend x key s
  | .flashResume x key => Sys2Proof.Machine.execFlashResume x key s
  | .marginCheck x key => Sys2Proof.Machine.execMarginCheck x key s
  | .marginCheckComplete failing => Sys2Proof.Machine.execMarginCheckComplete failing s
  | .setPw x key => Sys2Proof.Machine.execSetPw x key s
  | .setNext x key => Sys2Proof.Machine.execSetNext x key s
  | .flashLock x key => Sys2Proof.Machine.execFlashLock x key s
  | .unlock x key => Sys2Proof.Machine.execUnlock x key s
  | .flcPwLo x v => Sys2Proof.Machine.execFlcPwLo x v s
  | .flcPwHi x v => Sys2Proof.Machine.execFlcPwHi x v s
  | .autoSuspend arr => Sys2Proof.Machine.execAutoSuspend arr s
  | .autoResume arr => Sys2Proof.Machine.execAutoResume arr s
  | .flashScrub decays => Sys2Proof.Machine.execFlashScrub decays s
  | .scrubRewriteComplete k e => Sys2Proof.Machine.execScrubRewriteComplete k e s
  | .loaderErase can arr blk => Sys2Proof.Machine.execLoaderErase can arr blk s
  | .loaderWrite can arr blk page data => Sys2Proof.Machine.execLoaderWrite can arr blk page data s
  | .loaderCheck can bank id => Sys2Proof.Machine.execLoaderCheck can bank id s
  | .loaderRestart can t => Sys2Proof.Machine.execLoaderRestart can t s
  | .inputLoss vin => Sys2Proof.Machine.execInputLoss vin s
  | .holdupLow => Sys2Proof.Machine.execHoldupLow s
  | .holdupShutdown => Sys2Proof.Machine.execHoldupShutdown s
  | .inputRestored vin => Sys2Proof.Machine.execInputRestored vin s
  | .holdupReady => Sys2Proof.Machine.execHoldupReady s
  | .overvoltage vin => Sys2Proof.Machine.execOvervoltage vin s
  | .elFoldback j pin => Sys2Proof.Machine.execElFoldback j pin s
  | .elFoldbackRetry j pin => Sys2Proof.Machine.execElFoldbackRetry j pin s
  | .clockLock c => Sys2Proof.Machine.execClockLock c s
  | .clockGlitch => Sys2Proof.Machine.execClockGlitch s
  | .rtcAlarm => Sys2Proof.Machine.execRtcAlarm s
  | .wdgService x e key => Sys2Proof.Machine.execWdgService x e key s
  | .wdgRestart x e coll => Sys2Proof.Machine.execWdgRestart x e coll s
  | .wdgExpire e => Sys2Proof.Machine.execWdgExpire e s
  | .setMinver x key => Sys2Proof.Machine.execSetMinver x key s
  | .writeKey x key slot => Sys2Proof.Machine.execWriteKey x key slot s
  | .revoke x key slot => Sys2Proof.Machine.execRevoke x key slot s
  | .lcTransitionRequest x v => Sys2Proof.Machine.execLcTransitionRequest x v s
  | .lcStateWrite => Sys2Proof.Machine.execLcStateWrite s
  | .tamper b => Sys2Proof.Machine.execTamper b s
  | .mbxGo by_ v => Sys2Proof.Machine.execMbxGo by_ v s
  | .udpDatagram len => Sys2Proof.Machine.execUdpDatagram len s
  | .canfdSegment c h idx => Sys2Proof.Machine.execCanfdSegment c h idx s
  | .canfdMessageTimeout c => Sys2Proof.Machine.execCanfdMessageTimeout c s
  | .hello m => Sys2Proof.Machine.execHello m s
  | .auth q test => Sys2Proof.Machine.execAuth q test s
  | .authSignature q sig slot => Sys2Proof.Machine.execAuthSignature q sig slot s
  | .authLockoutEnd t => Sys2Proof.Machine.execAuthLockoutEnd t s
  | .close k => Sys2Proof.Machine.execClose k s
  | .sessionTimeout k => Sys2Proof.Machine.execSessionTimeout k s
  | .info q => Sys2Proof.Machine.execInfo q s
  | .attach q n => Sys2Proof.Machine.execAttach q n s
  | .detach q n => Sys2Proof.Machine.execDetach q n s
  | .halt q n => Sys2Proof.Machine.execHalt q n s
  | .haltTakesEffect n => Sys2Proof.Machine.execHaltTakesEffect n s
  | .colbelResume q n => Sys2Proof.Machine.execColbelResume q n s
  | .step q n count irq => Sys2Proof.Machine.execStep q n count irq s
  | .readCore q n g => Sys2Proof.Machine.execReadCore q n g s
  | .writeCore q n g v tag => Sys2Proof.Machine.execWriteCore q n g v tag s
  | .setBp q n idx pc sets en => Sys2Proof.Machine.execSetBp q n idx pc sets en s
  | .setWp q n idx base len rd wr value => Sys2Proof.Machine.execSetWp q n idx base len rd wr value s
  | .breakpointHit n => Sys2Proof.Machine.execBreakpointHit n s
  | .watchpointHit n => Sys2Proof.Machine.execWatchpointHit n s
  | .readMem q a k => Sys2Proof.Machine.execReadMem q a k s
  | .writeMem q a cs => Sys2Proof.Machine.execWriteMem q a cs s
  | .testOut q n mask => Sys2Proof.Machine.execTestOut q n mask s
  | .traceCfg q n ctrl en => Sys2Proof.Machine.execTraceCfg q n ctrl en s
  | .token q valid => Sys2Proof.Machine.execToken q valid s
  | .keepalive q => Sys2Proof.Machine.execKeepalive q s
  | .tracePostStore x e p c => Sys2Proof.Machine.execTracePostStore x e p c s
  | .traceMerge => Sys2Proof.Machine.execTraceMerge s
  | .traceSessionSend k => Sys2Proof.Machine.execTraceSessionSend k s
  | .ptbEnable x e v => Sys2Proof.Machine.execPtbEnable x e v s
  | .readClears x a => Sys2Proof.Machine.execReadClears x a s
  | .apertureWrite f w off be v => Sys2Proof.Machine.execApertureWrite f w off be v s
  | .hostReadCompletion f k ws => Sys2Proof.Machine.execHostReadCompletion f k ws s
  | .configurationRequest f c => Sys2Proof.Machine.execConfigurationRequest f c s
  | .twnHoInDeasserted => Sys2Proof.Machine.execTwnHoInDeasserted s
  | .portUp p => Sys2Proof.Machine.execPortUp p s
  | .ecnLinkChange l up => Sys2Proof.Machine.execEcnLinkChange l up s
  | .healthyChg => Sys2Proof.Machine.execHealthyChg s
  | .xtalOkChange ok => Sys2Proof.Machine.execXtalOkChange ok s
  | .temperatureUpdate base die => Sys2Proof.Machine.execTemperatureUpdate base die s

end Machine
end Sys2Proof
end

