-- ==== Sys2Proof/Machine/Tick.lean ====
section
/-! DEFINITION. One tick: a tCK that passes while no command waits (log 1). What the spec times by a register of the module
advances here; every other instant is a command. -/

namespace Sys2Proof
namespace Machine

/-- The count of 1/32 768 s up to tick c, tCK being 1/1.5 GHz (R6, R435). -/
def rtcCount (c : Nat) : Nat := c * 32768 / 1500000000

/-- MTIME and the model's tick count advance by one; MTIME stands still in STABLED, where only the always-on
domain runs (chapter 02). -/
def State.advance (s : State) : State :=
  { s with clock := s.clock + 1, mtime := if s.mode == mdStabled then s.mtime else s.mtime + 1 }

/-- A tick: time advances, the scan of each slice's microcode store takes a word (R139), the real-time counter counts (R435),
the watchdogs count each microsecond (R441), what a perturbation unit has delayed takes effect (R476), descriptors are fetched and
their reads go on (R342, R348), a due STATUS record is sent and the oldest
record of the twin link leaves (R395, R396), CONFIG and SNAP records that wait enter its queue (R396), the partner's report ages (R399), a STEP that waited
goes on (R469), and a GO of a slice whose channel 0 is disabled ends (R150). -/
def State.tick (s : State) : State :=
  let s1 := s.advance
  let s2 := if rtcCount s1.clock == rtcCount s.clock then s1 else s1.rtcTick
  let s3 := if s1.clock % 1500 == 0 then s2.wdgTick else s2
  (List.finRange 12).foldl (fun (u : State) (n : Fin 12) => (((u.goTick n).scanTick n).bankTick n).stepTick n)
    s3.lateFires.lateDoorbells.fetchIssue.askMore.statusNext.twinTransmit.snapNext.statusAge

end Machine
end Sys2Proof
end

