-- ==== Sys2Proof/Safety.lean ====
section
/-! DEFINITION. What a safe run keeps: the canonical form of every sparse map, what main memory holds, the part, and outputs
that nothing drives. -/

namespace Sys2Proof
namespace Machine

/-- Every sparse map of the module is in its canonical form: keys strictly rising, no listed value equal to what an unlisted key
reads as. -/
structure State.Canonical (s : State) : Prop where
  regs : SMap.wf resetOf s.regs = true
  cells : SMap.wf cellDefault s.cells = true
  prog : SMap.wf (fun _ => (0 : PWord)) s.prog = true
  mstore : SMap.wf (fun _ => (0 : MWord)) s.mstore = true
  mcopy : SMap.wf (fun _ => (0 : MWord)) s.mcopy = true
  words : SMap.wf (fun _ => (0xFFFFFFFF : Word)) s.flc.words = true
  info : SMap.wf (fun _ => resetBlk) s.flc.info = true
  routes : SMap.wf (fun _ => idleRoute) s.evr.routes = true
  batches : SMap.wf (fun _ => noBatch) s.evr.batches = true

/-- Every listed cell is at a cell's address outside the microcode copy, and main memory holds payloads alone (R298). -/
def State.CellsPlaced (s : State) : Prop :=
  ∀ e ∈ s.cells, e.1 % 4 = 0 ∧ inCopy e.1 = false ∧ (inMain e.1 = true → e.2.tag = tagUint)

/-- Both outputs of channel k of slice n are low. -/
@[reducible] def State.PinsLow (s : State) (n : Fin 12) (k : Fin 8) : Prop := (s.pw n k).pinA = false ∧ (s.pw n k).pinB = false

/-- The address lies in no BAR, and `x` is a host (R338). -/
def hostOutside (x : Access) (a : Nat) : Bool :=
  match x.m with
  | .fn _ => outsideBars a
  | _ => false

/-- No pair but that of `x` reserves the register at `a` (R227). -/
def State.unreserved (s : State) (x : Access) (a : Nat) : Bool :=
  (List.finRange 13).all (fun (p : Fin 13) => pairBy x.m == some p || !s.reserves a p)

/-- A register write by `x` to address `a` is served: the bus answers, a host writes through a BAR once start-up is done and its
function has not been disabled, the address is whole-word, in the master's reach and of a present slice, and no protection of
R252 bars it (R8, R45, R331, R338, R341). -/
def State.takesWrite (s : State) (x : Access) (a : Nat) : Bool :=
  s.busUp x.m && !s.early x.m a true && !hostOutside x a && !s.discards x.m a &&
    a % 4 == 0 && s.reach x a true && !s.absentSlice a && !kcBars x a

/-- A register write by `x` to address `a` is served and breaks no reservation. -/
def State.reaches (s : State) (x : Access) (a : Nat) : Bool := s.takesWrite x a && s.unreserved x a

/-- A register read by `x` of address a is answered (R8, R45, R331, R338). -/
def State.answers (s : State) (x : Access) (a : Nat) : Bool :=
  s.busUp x.m && !s.early x.m a false && !hostOutside x a && a % 4 == 0 && s.reach x a false && !s.absentSlice a

/-- The command completes in state s with a next state of which P holds. -/
def Gives (c : Instr) (s : State) (P : State → Prop) : Prop := ∃ t, exec c s = .next t ∧ P t

/-- Offsets lo to hi of the register block of slice n. -/
def block (n lo hi a : Nat) : Bool := decide (sliceBase n + lo ≤ a) && decide (a < sliceBase n + hi)

/-- Every register outside `own` reads as before. -/
def State.RegsKept (s t : State) (own : Nat → Bool) : Prop := ∀ a, own a = false → t.reg a = s.reg a

/-- Every memory cell at an address outside `own` reads as before: a cell is four bytes, at a multiple of 4. -/
def State.CellsKept (s t : State) (own : Nat → Bool) : Prop := ∀ a, a % 4 = 0 → own a = false → t.cell a = s.cell a

/-- What the cell at `a` keeps of a cell stored there: main memory keeps the payload alone, read as UINT (R298). -/
def stored (a : Nat) (c : Cell) : Cell := if inMain a then ⟨c.v, tagUint⟩ else c

/-- A step neither faults nor is refused. -/
def Safe (s : State) : Prop := ∃ t, step s = .next t

/-! Core pairs. -/

/-- The registers of pair p as its next instruction finds them: a long result that was pending is written (R224). -/
def State.rs (s : State) (p : Fin 13) : CoreRegs := (s.issue p).kr p

/-- Pair p executes instruction i next: it runs and is awake, the word at its PC is fetched and with the prefixes before it is i, at
a place where i may stand, and i waits for no attached result (R208, R220, R224, R232, R237). -/
def State.issues (s : State) (p : Fin 13) (i : Kn) : Bool :=
  s.pairRuns p false && s.awake p &&
    (match (s.issue p).fetchWord p with
     | .ok t w => knDecode w.toNat (t.coreOf p).pfx == some i && !(t.coreOf p).misplaced i && !((t.coreOf p).att && waitsForA i)
     | _ => false)

/-- The state in which that instruction executes: its word has been fetched. -/
def State.fetched (s : State) (p : Fin 13) : State :=
  match (s.issue p).fetchWord p with
  | .ok t _ => t
  | _ => s.issue p

/-- Those registers with PC and LOOP_COUNT as they go on after an instruction that does not jump (R217, R222). -/
def State.onward (s : State) (p : Fin 13) : CoreRegs :=
  let c := (s.issue p).coreOf p
  { s.rs p with pc := BitVec.ofNat 17 c.after.1, lcount := c.after.2 }

/-- Those registers as they stand in the delay slot of a branch to `target` (R217, R222). -/
def State.inSlot (s : State) (p : Fin 13) (target : Option Nat) : CoreRegs :=
  let c := (s.issue p).coreOf p
  { s.rs p with
    pc := BitVec.ofNat 17 (if c.leaves target then (s.rs p).pc.toNat + 1 else c.after.1)
    lcount := if c.leaves target then 0 else c.after.2 }

/-- No entry of the store buffer overlaps `len` bytes at `a`. -/
def State.sbClear (s : State) (p : Fin 13) (a len : Nat) : Bool := (s.rs p).sb.all (fun e => !e.overlaps a len)

/-- A load by pair p through Cn of the active set at EA is permitted and meets cell c: forwarded from the store buffer, or in a
memory that answers and without an error that cannot be corrected (R209, R214, R239, R252, R281). -/
def State.canLoad (s : State) (p : Fin 13) (n ea : Nat) (c : Cell) : Bool :=
  let u := s.issue p
  let q := u.quadAt p n
  u.eaFault p q ea 4 4 [pRead] == none && u.pairBars p (pairAccess p q) ea false 0 == none && operandTag q c.tag == none &&
    isCells ea && !u.absentSlice ea &&
    (match u.forwarded p ea with
     | some x => x == c
     | none => s.sbClear p ea 4 && !u.accessWaits ea && u.mark ea == none && (u.rd ea).c == c)

/-- A store of cell c by pair p through Cn of the active set to memory at EA is permitted, and the store buffer has a place
or its oldest entry drains to a cell without error (R209, R214, R238, R252). -/
def State.canStore (s : State) (p : Fin 13) (n ea : Nat) (c : Cell) : Bool :=
  let u := s.issue p
  !noValue c.tag && u.storeFault p (u.quadAt p n) ea [pWrite] c == none && isCells ea &&
    (match (s.rs p).sb with
     | e :: rest => decide (rest.length < 3) || (decide (rest.length = 3) && !u.memStalls e.addr && u.mark e.addr == none && !inCopy e.addr)
     | [] => true)

/-- The store buffer with a new entry; a full one has lost its oldest (R238). -/
def buffered (b : List SbEntry) (e : SbEntry) : List SbEntry := b.drop (b.length - 3) ++ [e]

/-- Only pair p has changed, with KC_CSEL of p and the debugger's records. -/
def State.KnOnly (s t : State) (p : Fin 13) : Prop :=
  t = { s with core := s.core.set p (t.coreOf p), regs := t.regs, dbg := t.dbg } ∧ s.RegsKept t (· == R.KC_CSEL p)

/-- After a buffered store: what `KnOnly` says while the buffer has a place; a full buffer writes its oldest entry's cell. -/
def State.StoreOnly (s t : State) (p : Fin 13) : Prop :=
  ((s.rs p).sb.length < 4 → s.KnOnly t p) ∧ s.CellsKept t (fun a => (s.rs p).sb.head?.any (fun e => e.overlaps a 4))

/-- `n` cells from EA, a multiple of 4, upward lie in memory that is present, answers and is without error, outside the
microcode copies and in pages whose bits are set. -/
def State.cellsOk (s : State) (ea n : Nat) : Bool :=
  (List.range n).all (fun j =>
    let a := ea + 4 * j
    a % 4 == 0 && isCells a && !inCopy a && !s.absentSlice a && !s.absentMain a && (!inMain a || s.pageSet a) && !s.accessWaits a &&
      s.mark a == none)

/-- The registers with DSP, or RSP, of the active set at `v`. -/
def State.atDsp (s : State) (p : Fin 13) (r : CoreRegs) (v : Nat) : CoreRegs :=
  let k := (s.issue p).actSet p
  r.putSet k { r.set k with dsp := BitVec.ofNat 32 v }
def State.atRsp (s : State) (p : Fin 13) (r : CoreRegs) (v : Nat) : CoreRegs :=
  let k := (s.issue p).actSet p
  r.putSet k { r.set k with rsp := BitVec.ofNat 32 v }

/-- DSP and RSP of the active set. -/
def State.dspNow (s : State) (p : Fin 13) : Nat := ((s.rs p).set ((s.issue p).actSet p)).dsp.toNat
def State.rspNow (s : State) (p : Fin 13) : Nat := ((s.rs p).set ((s.issue p).actSet p)).rsp.toNat

/-- Capability register n of the active set. -/
def State.capNow (s : State) (p : Fin 13) (n : Nat) : Quad := (s.rs p).cap ((s.issue p).actSet p) n

/-- The return stack of the active set holds `n` cells that can be read, in memory that answers, with no entry of the store
buffer over them (R210). -/
def State.canTop (s : State) (p : Fin 13) (n : Nat) : Bool :=
  let q := s.capNow p 3
  let sp := s.rspNow p
  q.unusable false == none && decide (q.lo ≤ sp) && decide (sp + 4 * n ≤ q.hi) && q.perm pRead && s.cellsOk sp n &&
    s.sbClear p sp (4 * n)

/-! DMA channels and descriptors. -/

/-- Channel c of engine e runs, has no instruction under way, and finds the instruction of words `l` at DMA_PC: UINT cells without error, in the memory that
holds its program (R315, R316). -/
def State.dmaAt (s : State) (e : Fin 13) (c : Fin 16) (l : List Nat) : Bool :=
  s.dmaState e c == 1 && (s.dmaOf e c).after == .nothing && (s.dmaOf e c).block == none && decide (c.val < dmaChannels e) &&
    l.length == dmaCells (l.headD 0 / 2 ^ 28) && l.length != 0 && s.dmaPc e c % 4 == 0 &&
    l.zipIdx.all (fun x =>
      let a := s.dmaPc e c + 4 * x.2
      (match spaceOf a with
       | .slice n => n == e.val
       | .plain => e.val == 12
       | _ => false) && !s.memStalls a && s.mark a == none && s.cell a == ⟨BitVec.ofNat 32 x.1, tagUint⟩ && decide (x.1 < 2 ^ 32))

/-- Engine e reaches the cell at `a`, which is present, outside the microcode copies, in a memory that answers, without error
and no CAP (R300, R319, R326). -/
def State.dmaCellOk (s : State) (e a : Nat) (wr : Bool) : Bool :=
  s.dmaReach e a wr && isCells a && !inCopy a && !s.absentSlice a && !s.absentMain a && (!inMain a || s.pageSet a) &&
    !s.memStalls a && s.mark a == none && (s.cell a).tag != tagCap

/-- Nothing has changed but what DMA engines hold, and registers outside `own` read as before. -/
def State.DmaOnly (s t : State) (e c : Nat) : Prop :=
  t = { s with regs := t.regs, dma := t.dma } ∧
    s.RegsKept t (fun a => [R.DMA_CTRL e c, R.DMA_STAT e c, R.DMA_PC e c, R.DMA_ERR_ADDR e c].contains a)

/-- Flight k of function f is x, has opcode `op`, may begin, and is the only one with its place in the order of fetch. -/
def State.canBegin (s : State) (f : Fin 16) (k op : Nat) (x : Flight) : Bool :=
  (s.fnOf f).flights[k]? == some x && x.d.op == op && s.mayBegin f x &&
    (s.fnOf f).flights.findIdx? (fun y => y.pos == x.pos) == some k

/-- Flight x waits for data of host memory, and `ws` are data that its requests asked for (R342). -/
def Flight.awaits (x : Flight) (ws : List Word) : Bool :=
  match x.await with
  | .read got sent => x.begun && !ws.isEmpty && decide (4 * (got ++ ws).length ≤ sent)
  | _ => false

/-- Flight x of s is the last of function f to finish in t, with a status and a result; OK is REPLAYED after a recovery
(R353). -/
@[reducible] def State.Completed (s t : State) (f : Fin 16) (k : Nat) (x : Flight) (status result : Nat) : Prop :=
  (t.fnOf f).flights.map (·.pos) = ((s.fnOf f).flights.eraseIdx k).map (·.pos) ∧
    ((t.fnOf f).done.getLast?).map (fun c => (c.pos, c.sq, c.slice, c.tag, c.status, c.result)) =
      some (x.pos, x.sq, x.d.slice, x.d.tag, if status == 0 && x.replay then 8 else status, BitVec.ofNat 64 result)

/-- Flight k of function f has begun in t and waits for `a`. -/
@[reducible] def State.Waits (t : State) (f : Fin 16) (k : Nat) (x : Flight) (a : Await) : Prop :=
  (t.fnOf f).flights[k]?.map (fun y => (y.pos, y.sq, y.d, y.begun, y.await, y.replay)) =
    some (x.pos, x.sq, x.d, true, a, x.replay)

/-! The twin link. -/

/-- A twin record with STREAM `k` is applied as it comes, and no other with it (R395): the link carries records, and the record is
the next in STREAM, none being ahead of it, or one lane keeps the order by itself, or no record has come before. -/
def State.inTurn (s : State) (k : BitVec 16) : Bool :=
  s.twnOn && s.clockOn 2 && (s.twn.rx == none || s.getF R.TWN_STAT F.TWN_STAT_LANES != 3 ||
    (s.twn.rx == some k.toNat && s.twn.ahead.isEmpty))

/-! Colbel. -/

/-- The module serves sealed request q of session record x: the service is available, a message waits on the request's
transport, the tag verifies, SEQ is above the last one executed, and the session has authority `need` (3: any; 0: none is
needed), which the life-cycle state permits (R453, R461, R464, R465). -/
def State.serves (s : State) (q : ColbelReq) (x : Session) (need : Nat) : Bool :=
  s.dbg.sess.get q.sess == some x && s.colbelAvail && s.waits q.tr && q.tagOk &&
    (match x.last with | some l => decide (l < q.seq.toNat) | none => true) &&
    (need == 0 || ((x.auth == need || (need == 3 && x.auth != 0)) && s.authAllowed x.auth))

/-- Request q is executed in t and answered, and the module keeps the response (R464). -/
@[reducible] def State.Answered (t : State) (q : ColbelReq) (code status : Nat) (data : List Cell) : Prop :=
  t.outs.getLast? = some (.colbel q.tr q.sess q.seq.toNat ⟨code, status, data⟩) ∧
    (t.dbg.sess.get q.sess).map (fun y => (y.last, y.resp)) = some (some q.seq.toNat, some ⟨code, status, data⟩)

/-- The sealed requests of Colbel and their envelopes (R461, R466). -/
def sealedReq : Instr → Option ColbelReq
  | .auth q _ | .authSignature q _ _ | .info q | .attach q _ | .detach q _ | .halt q _ | .colbelResume q _ | .step q _ _ _
  | .readCore q _ _ | .writeCore q _ _ _ _ | .setBp q _ _ _ _ _ | .setWp q _ _ _ _ _ _ _ | .readMem q _ _ | .writeMem q _ _
  | .testOut q _ _ | .traceCfg q _ _ _ | .token q _ | .keepalive q => some q
  | _ => none

/-- A READ_MEM or WRITE_MEM waits while a memory that it names is stalled. -/
def State.sealedWaits (s : State) : Instr → Bool
  | .readMem _ a k => s.sessWaits (cellAddrs a k)
  | .writeMem _ a cs => s.sessWaits (cellAddrs a cs.length)
  | _ => false

/-- The registers of R345 of function f and ring r. -/
def ringRegs (f r : Nat) : List Nat :=
  [R.RNG_SQ_LO f r, R.RNG_SQ_HI f r, R.RNG_SQ_CFG f r, R.RNG_SQ_HEAD f r, R.RNG_CQ_LO f r, R.RNG_CQ_HI f r, R.RNG_CQ_CFG f r,
    R.RNG_CQ_TAIL f r, R.RNG_EDGE_LO f, R.RNG_EDGE_HI f, R.RNG_EDGE_CFG f]

end Machine
end Sys2Proof
end

