-- ==== Sys2Proof/Certificates/Slice0/Obligations.lean ====
section
/-! DEFINITION. The statements for the provers. `Gives c s P`: command c completes in state s with a next state of which P
holds. `s.reaches x a`: a register write by x to address a is served. -/

section
open Sys2Proof Sys2Proof.Machine


/-- Arming, a pending arm request, and disarming. Follows: R30, R31, R33, 02_operating_modes_and_startup.md. Beside the
rules it rests on these choices of the model: logs 51, 55, 149, 174. -/
def Obligations.ArmingAndDisarming : Prop :=
  (∀ (s : State) (x : Access) (n : Slice) (off : BitVec 12), s.reaches x (R.SLC_ARM n) = true → off.getLsbD n = false →
  (s.ctlOf n).disarmAt ≠ some s.clock → s.fitted n = true → (s.mode = mdIsland ∨ s.mode = mdHosted ∨ s.mode = mdTwin) →
  s.slState n = slRunning → s.isSet R.PWR_STAT F.PWR_STAT_HOLDUP_READY = true → (s.ctlOf n).fencing = false → s.armed n =
  false → Gives (.arm x ⟨.slc n, off⟩) s (fun t => t.armed n = true ∧ t.armPend n = false ∧ t.reg R.DEV_ARM_REJ = s.reg
  R.DEV_ARM_REJ ∧ t.cells = s.cells ∧ t.core = s.core)) ∧
  (∀ (s : State) (x : Access) (mask off : BitVec 12) (n : Slice), s.reaches x R.DEV_ARM = true → mask.getLsbD n = true →
  off.getLsbD n = false → (s.ctlOf n).disarmAt ≠ some s.clock → s.fitted n = true → (s.mode = mdIsland ∨ s.mode = mdHosted
  ∨ s.mode = mdTwin) → s.slState n = slRunning → s.isSet R.PWR_STAT F.PWR_STAT_HOLDUP_READY = true → (s.ctlOf n).fencing =
  false → Gives (.arm x ⟨.dev mask, off⟩) s (fun t => t.armed n = true ∧ t.cells = s.cells ∧ t.core = s.core)) ∧
  (∀ (s : State) (x : Access) (n : Slice) (off : BitVec 12), s.reaches x (R.SLC_ARM n) = true → off.getLsbD n = false →
  (s.ctlOf n).disarmAt ≠ some s.clock → s.fitted n = true → (s.mode = mdIsland ∨ s.mode = mdHosted ∨ s.mode = mdTwin) →
  (s.slState n = slReady ∨ s.slState n = slRecovering ∨ (s.slState n = slRunning ∧ s.isSet R.PWR_STAT
  F.PWR_STAT_HOLDUP_READY = false)) → (s.ctlOf n).fencing = false → s.armed n = false → Gives (.arm x ⟨.slc n, off⟩) s (fun
  t => t.armed n = false ∧ t.armPend n = true ∧ t.reg R.DEV_ARM_REJ = s.reg R.DEV_ARM_REJ)) ∧
  (∀ (s : State) (x : Access) (n : Slice) (off : BitVec 12), s.reaches x (R.SLC_ARM n) = true → off.getLsbD n = false →
  (s.ctlOf n).disarmAt ≠ some s.clock → s.fitted n = true → (s.mode = mdStart ∨ s.mode = mdStabled ∨ s.mode = mdService ∨
  s.mode = mdHil ∨ s.slState n = slOff ∨ s.slState n = slFenced ∨ s.slState n = slSafe) → s.armed n = false → Gives (.arm x
  ⟨.slc n, off⟩) s (fun t => t.armed n = false ∧ t.armPend n = s.armPend n ∧ t.getF R.DEV_ARM_REJ F.DEV_ARM_REJ_COUNT = min
  0xFFFFFFFF (s.getF R.DEV_ARM_REJ F.DEV_ARM_REJ_COUNT + 1))) ∧
  (∀ (s : State) (x : Access) (mask off : BitVec 12) (n : Slice), s.reaches x R.DEV_ARM = true → mask.getLsbD n = true →
  off.getLsbD n = false → (s.ctlOf n).disarmAt ≠ some s.clock → s.fitted n = false → Gives (.arm x ⟨.dev mask, off⟩) s (fun
  t => t.armed n = s.armed n ∧ t.armPend n = s.armPend n ∧ (s.getF R.DEV_ARM_REJ F.DEV_ARM_REJ_COUNT < 0xFFFFFFFF → s.getF
  R.DEV_ARM_REJ F.DEV_ARM_REJ_COUNT < t.getF R.DEV_ARM_REJ F.DEV_ARM_REJ_COUNT))) ∧
  (∀ (s : State) (x : Access) (n : Slice) (off : BitVec 12), s.reaches x (R.SLC_ARM n) = true → off.getLsbD n = true →
  s.armed n = false → Gives (.arm x ⟨.slc n, off⟩) s (fun t => t.armed n = false ∧ t.armPend n = s.armPend n)) ∧
  (∀ (s : State) (x : Access) (mask off : BitVec 12) (n : Slice), s.reaches x R.DEV_ARM = true → off.getLsbD n = true →
  s.armed n = false → Gives (.arm x ⟨.dev mask, off⟩) s (fun t => t.armed n = false ∧ t.armPend n = s.armPend n)) ∧
  (∀ (s : State) (n : Slice), s.armPend n = true → s.fitted n = true → (s.mode = mdIsland ∨ s.mode = mdHosted ∨ s.mode =
  mdTwin) → s.slState n = slRunning → s.isSet R.PWR_STAT F.PWR_STAT_HOLDUP_READY = true → (s.ctlOf n).fencing = false →
  Gives (.armPendingTakesEffect n) s (fun t => t.armed n = true ∧ t.armPend n = false ∧ t.cells = s.cells ∧ t.core =
  s.core)) ∧
  (∀ (s : State) (x : Access) (n : Slice), s.reaches x (R.SLC_ARM n) = true → s.fitted n = true → s.mode ≠ mdHil → (∀ k :
  Fin 8, s.testOut n k = false) → Gives (.disarm x (.slc n)) s (fun t => t.armed n = false ∧ (∀ k : Fin 8, t.PinsLow n k))) ∧
  (∀ (s : State) (x : Access) (mask : BitVec 12) (n : Slice), s.reaches x R.DEV_DISARM = true → mask.getLsbD n = true →
  s.fitted n = true → s.mode ≠ mdHil → (∀ k : Fin 8, s.testOut n k = false) → Gives (.disarm x (.dev mask)) s (fun t =>
  t.armed n = false ∧ (∀ k : Fin 8, t.PinsLow n k)))

/-- Mode changes: request, completion, STABLED, wake and cold start. Follows: R35, R37, R40, R25, R24,
02_operating_modes_and_startup.md. Beside the rules it rests on these choices of the model: logs 41, 52, 55, 58. -/
def Obligations.ModeChanges : Prop :=
  (∀ (s : State) (x : Access) (v : Word), s.reaches x R.DEV_MODE_REQ = true → F.DEV_MODE_REQ_KEY.get v = 0x4D0D →
  F.DEV_MODE_REQ_TARGET.get v = mdHosted → s.isSet R.DEV_MODE F.DEV_MODE_CHANGING = false → s.mode = mdIsland → Gives
  (.modeChangeRequest x v) s (fun t => t.isSet R.DEV_MODE F.DEV_MODE_CHANGING = true ∧ t.modeReq = some mdHosted ∧ t.mode =
  mdIsland ∧ t.cells = s.cells)) ∧
  (∀ (s : State) (x : Access) (v : Word), s.reaches x R.DEV_MODE_REQ = true → F.DEV_MODE_REQ_KEY.get v ≠ 0x4D0D → Gives
  (.modeChangeRequest x v) s (fun t => t.getF R.DEV_MODE F.DEV_MODE_REQ_STATUS = 5 ∧ t.modeReq = s.modeReq ∧ t.mode =
  s.mode ∧ t.cells = s.cells)) ∧
  (∀ (s : State) (g : Fin 6), s.modeReq = some g.val → g.val ≠ mdStabled → Gives (.modeChangeComplete) s (fun t => t.mode =
  g.val ∧ t.getF R.DEV_MODE F.DEV_MODE_PREV = s.mode ∧ t.getF R.DEV_MODE F.DEV_MODE_SEQ = (s.getF R.DEV_MODE F.DEV_MODE_SEQ
  + 1) % 2 ^ F.DEV_MODE_SEQ.width ∧ t.getF R.DEV_MODE F.DEV_MODE_REQ_STATUS = 0 ∧ t.isSet R.DEV_MODE F.DEV_MODE_CHANGING =
  false ∧ t.modeReq = none)) ∧
  (∀ (s : State), s.modeReq = some mdStabled → Gives (.stabledEntryComplete) s (fun t => t.mode = mdStabled ∧ t.getF
  R.DEV_MODE F.DEV_MODE_PREV = s.mode ∧ t.modeReq = none ∧ t.part = s.part ∧ (∀ n : Slice, t.armed n = false))) ∧
  (∀ (s : State) (j : Fin 10) (also : BitVec 10) (b : BootTests), natBit (s.getF R.AON_WAKE_EN F.AON_WAKE_EN_SRC) j = true
  → s.wakeFires j = true → s.modeReq = some mdStabled → Gives (.wake ⟨j, also⟩ b) s (fun t => t.getF R.DEV_MODE
  F.DEV_MODE_REQ_STATUS = 6 ∧ t.isSet R.DEV_MODE F.DEV_MODE_CHANGING = false ∧ t.modeReq = none ∧ t.mode = s.mode)) ∧
  (∀ (s : State) (j : Fin 10) (also : BitVec 10) (b : BootTests), natBit (s.getF R.AON_WAKE_EN F.AON_WAKE_EN_SRC) j = true
  → s.wakeFires j = true → s.modeReq = none → s.mode = mdStabled → s.isSet R.DEV_BOOT_STAT F.DEV_BOOT_STAT_DONE = true →
  s.sec.event = false → b.sysInj.pass = true → Gives (.wake ⟨j, also⟩ b) s (fun t => t.mode = s.getF R.DEV_MODE
  F.DEV_MODE_PREV ∧ t.isSet R.DEV_BOOT_STAT F.DEV_BOOT_STAT_DONE = true ∧ t.isSet R.DEV_BOOT_STAT F.DEV_BOOT_STAT_WARM =
  true)) ∧
  (∀ (s : State) (b : BootTests), s.mode = mdStart → s.modeReq = none → 2500 < b.vin.toNat → b.strap = 0 → Gives
  (.coldStart b) s (fun t => t.mode = mdStabled ∧ t.getF R.DEV_BOOT_STAT F.DEV_BOOT_STAT_STRAP = 0 ∧ t.getF R.DEV_BOOT_STAT
  F.DEV_BOOT_STAT_STEP = 2)) ∧
  (∀ (s : State) (b : BootTests), s.mode = mdStart → s.modeReq = none → 2500 < b.vin.toNat → b.strap ≠ 0 → s.flc = resetFlc
  → s.sec = resetSec → Gives (.coldStart b) s (fun t => t.mode = mdService ∧ t.getF R.DEV_BOOT_STAT
  F.DEV_BOOT_STAT_FAIL_STEP = 5 ∧ t.getF R.DEV_BOOT_STAT F.DEV_BOOT_STAT_FAIL_CODE = 1))

/-- Assigning a slice, FENCE and its completion. Follows: R46, R47, R51, R52, R53, 03_slices_variants_and_fencing.md.
Beside the rules it rests on these choices of the model: logs 39, 53, 60, 150, 164. -/
def Obligations.SliceOwnershipAndFence : Prop :=
  (∀ (s : State) (x : Access) (n : Slice) (v : Word), s.reaches x (R.DEV_SLC_ASSIGN n) = true → x.m.isSys = true → s.fitted
  n = true → (F.DEV_SLC_ASSIGN_OWNER.get v = 0 ∨ F.DEV_SLC_ASSIGN_OWNER.get v = 0x1F ∨ (F.DEV_SLC_ASSIGN_OWNER.get v < 16 ∧
  s.vfExists (F.DEV_SLC_ASSIGN_OWNER.get v) = true)) → (s.slState n = slOff ∨ s.slState n = slFenced) → (s.ctlOf n).fencing
  = false → Gives (.sliceAssign x n v) s (fun t => t.owner n = F.DEV_SLC_ASSIGN_OWNER.get v ∧ t.getF (R.DEV_SLC_ASSIGN n)
  F.DEV_SLC_ASSIGN_ASSIGN_STATUS = 0 ∧ (t.sliceEpoch n = if s.owner n = F.DEV_SLC_ASSIGN_OWNER.get v then s.sliceEpoch n
  else (s.sliceEpoch n + 1) % 2 ^ F.DEV_SLC_ASSIGN_EPOCH.width) ∧ t.cells = s.cells ∧ t.core = s.core ∧ t.pwm = s.pwm)) ∧
  (∀ (s : State) (x : Access) (n : Slice) (key : BitVec 16), s.reaches x (R.SLC_CMD n) = true → s.fitted n = true → key =
  0x5C1E → s.mayCmd x.m n 1 = true → (s.slState n = slReady ∨ s.slState n = slRunning ∨ s.slState n = slSafe) → (s.ctlOf
  n).fencing = false → s.isSet (R.SLC_CMD_STAT n) F.SLC_CMD_STAT_HELD = false → Gives (.fence x n key false) s (fun t =>
  t.getF (R.SLC_CMD_STAT n) F.SLC_CMD_STAT_LAST_CMD = 1 ∧ t.getF (R.SLC_CMD_STAT n) F.SLC_CMD_STAT_STATUS = 0 ∧ (t.ctlOf
  n).fencing = true ∧ (t.ctlOf n).unmasked = false ∧ (t.ctlOf n).safeHold = ((s.ctlOf n).safeHold || s.armed n) ∧ t.armed n
  = false ∧ (t.coreOf (pairOf n)).halted = true ∧ t.slState n = s.slState n ∧ t.cells = s.cells)) ∧
  (∀ (s : State) (x : Access) (n : Slice) (key : BitVec 16) (tw : Bool), s.reaches x (R.SLC_CMD n) = true → s.fitted n =
  true → key = 0x5C1E → s.mayCmd x.m n 1 = true → s.slState n = slRecovering → (s.ctlOf n).fencing = false → s.isSet
  (R.SLC_CMD_STAT n) F.SLC_CMD_STAT_HELD = false → (tw = true → s.twinReady n = true) → Gives (.fence x n key tw) s (fun t
  => t.isSet (R.SLC_CMD_STAT n) F.SLC_CMD_STAT_HELD = true ∧ t.getF (R.SLC_CMD_STAT n) F.SLC_CMD_STAT_STATUS = 0 ∧
  t.slState n = slRecovering ∧ (t.ctlOf n).fencing = false)) ∧
  (∀ (s : State) (n : Slice), s.fitted n = true → (s.ctlOf n).fencing = true → (s.slState n = slReady ∨ s.slState n =
  slRunning ∨ s.slState n = slSafe) → s.atRest n = true → s.isSet (R.SLC_STATE n) F.SLC_STATE_BANK_PENDING = false →
  (s.ctlOf n).fenceCause < 16 → Gives (.fenceComplete n) s (fun t => t.slState n = slFenced ∧ (t.ctlOf n).fencing = false ∧
  t.isSet (R.SLC_FAULT n) F.SLC_FAULT_VALID = true ∧ (t.getF (R.SLC_FAULT n) F.SLC_FAULT_CAUSE = if (s.ctlOf n).fenceFault
  then 9 else (s.ctlOf n).fenceCause) ∧ t.getF (R.SLC_STATE n) F.SLC_STATE_SEQ = (s.getF (R.SLC_STATE n) F.SLC_STATE_SEQ +
  1) % 2 ^ F.SLC_STATE_SEQ.width ∧ t.cells = s.cells))

/-- RESUME, GO, RESTART and STOP. Follows: R50, R54, R56, R150, 03_slices_variants_and_fencing.md. Beside the rules it
rests on these choices of the model: logs 59, 61, 150. -/
def Obligations.SliceCommandsToRunAndStop : Prop :=
  (∀ (s : State) (x : Access) (n : Slice) (key : BitVec 16), s.reaches x (R.SLC_CMD n) = true → s.fitted n = true → key =
  0x5C1E → s.ownerIs n x.m = true → s.slState n = slFenced → s.cmdBusy n = false → (s.ctlOf n).image = true → (s.ctlOf
  n).diverged = false → Gives (.resume x n key) s (fun t => (t.ctlOf n).resuming = true ∧ t.getF (R.SLC_CMD_STAT n)
  F.SLC_CMD_STAT_LAST_CMD = 2 ∧ t.slState n = slFenced ∧ t.cells = s.cells ∧ t.core = s.core ∧ t.pwm = s.pwm)) ∧
  (∀ (s : State) (x : Access) (n : Slice) (key : BitVec 16), s.reaches x (R.SLC_CMD n) = true → s.fitted n = true → key =
  0x5C1E → s.ownerIs n x.m = true → s.slState n = slFenced → s.cmdBusy n = false → (s.ctlOf n).image = false → Gives
  (.resume x n key) s (fun t => t.getF (R.SLC_CMD_STAT n) F.SLC_CMD_STAT_STATUS = 2 ∧ t.ctl = s.ctl ∧ t.slState n =
  slFenced)) ∧
  (∀ (s : State) (n : Slice), s.fitted n = true → (s.ctlOf n).resuming = true → s.storeOk n = true → (∀ f : Func, (s.fnOf
  f).flights = []) → Gives (.resumeCheckComplete n) s (fun t => t.slState n = slReady ∧ (t.ctlOf n).resuming = false ∧
  t.getF (R.SLC_CMD_STAT n) F.SLC_CMD_STAT_LAST_CMD = 2 ∧ t.getF (R.SLC_CMD_STAT n) F.SLC_CMD_STAT_STATUS = 0 ∧ t.cells =
  s.cells)) ∧
  (∀ (s : State) (n : Slice), s.fitted n = true → (s.ctlOf n).resuming = true → s.storeOk n = false → Gives
  (.resumeCheckComplete n) s (fun t => t.slState n = s.slState n ∧ (t.ctlOf n).resuming = false ∧ t.getF (R.SLC_CMD_STAT n)
  F.SLC_CMD_STAT_STATUS = 2 ∧ t.getF (R.SLC_FAULT n) F.SLC_FAULT_CAUSE = 4)) ∧
  (∀ (s : State) (x : Access) (n : Slice) (key : BitVec 16), s.reaches x (R.SLC_CMD n) = true → s.fitted n = true → key =
  0x5C1E → s.ownerIs n x.m = true → s.slState n = slReady → s.cmdBusy n = false → Gives (.go x n key) s (fun t => (t.ctlOf
  n).goPending = true ∧ t.slState n = slReady ∧ t.getF (R.SLC_CMD_STAT n) F.SLC_CMD_STAT_STATUS = 0 ∧ t.cells = s.cells ∧
  t.core = s.core)) ∧
  (∀ (s : State) (n : Slice), s.fitted n = true → (s.ctlOf n).goPending = true → s.slState n = slReady → s.atValley n 0 =
  true → Gives (.pwmValley n 0) s (fun t => t.slState n = slRunning ∧ (t.ctlOf n).unmasked = true ∧ (t.ctlOf n).goPending =
  false)) ∧
  (∀ (s : State) (x : Access) (n : Slice) (key : BitVec 16), s.reaches x (R.SLC_CMD n) = true → s.fitted n = true → key =
  0x5C1E → s.ownerIs n x.m = true → s.slState n = slFenced → s.cmdBusy n = false → Gives (.restart x n key) s (fun t =>
  (t.ctlOf n).restarting = true ∧ t.getF (R.SLC_CMD_STAT n) F.SLC_CMD_STAT_LAST_CMD = 4 ∧ t.slState n = slFenced ∧ t.cells
  = s.cells)) ∧
  (∀ (s : State) (n : Slice) (r : InjRun), s.fitted n = true → (s.ctlOf n).restarting = true → (s.ctlOf n).testDiv = false
  → r.pass = true → (∀ f : Func, (s.fnOf f).flights = []) → Gives (.restartTestsComplete n r true) s (fun t => (t.ctlOf
  n).restarting = false ∧ (t.ctlOf n).diverged = false ∧ t.isSet (R.SLC_STATE n) F.SLC_STATE_LOCKSTEP_BROKEN = false ∧
  t.getF (R.SLC_CMD_STAT n) F.SLC_CMD_STAT_STATUS = 0 ∧ t.slState n = s.slState n)) ∧
  (∀ (s : State) (n : Slice) (r : InjRun), s.fitted n = true → (s.ctlOf n).restarting = true → r.pass = true → Gives
  (.restartTestsComplete n r false) s (fun t => (t.ctlOf n).restarting = false ∧ t.getF (R.SLC_FAULT n) F.SLC_FAULT_CAUSE =
  2 ∧ t.getF (R.SLC_CMD_STAT n) F.SLC_CMD_STAT_STATUS = 6 ∧ t.slState n = s.slState n)) ∧
  (∀ (s : State) (x : Access) (n : Slice) (key : BitVec 16), s.reaches x (R.SLC_CMD n) = true → s.fitted n = true → key =
  0x5C1E → s.ownerIs n x.m = true → s.slState n = slFenced → s.cmdBusy n = false → Gives (.stop x n key) s (fun t =>
  t.slState n = slOff ∧ (t.coreOf (pairOf n)).halted = true ∧ (t.ctlOf n).safeHold = false ∧ t.getF (R.SLC_CMD_STAT n)
  F.SLC_CMD_STAT_STATUS = 0 ∧ t.cells = s.cells))

/-- Gorge windows: half switches, settling, over-range, settings, thresholds and test. Follows: R64, R66, R68, R69, R61,
04_fast_analogue_inputs_and_gorge_windows.md. Beside the rules it rests on these choices of the model: logs 21, 22, 139,
151. -/
def Obligations.GorgeWindows : Prop :=
  (∀ (s : State) (n i : Slice), s.powered n = true → s.isSet (R.GRG_WCFG n i) F.GRG_WCFG_EN = true → s.isSet (R.GRG_WCFG n
  i) F.GRG_WCFG_HIGH_EN = true → s.testSel n i = 0 → (s.win n i).settling = false → s.loSettled n i = true → s.isSet
  (R.GRG_WSTAT n i) F.GRG_WSTAT_CFG_ERR = false → Gives (.windowHalfSwitch n i true true) s (fun t => (t.win n i).hi = true
  ∧ (t.win n i).hiDone = true ∧ t.getF (R.GRG_WSTAT n i) F.GRG_WSTAT_STATE = 3 ∧ (∀ j : Slice, j ≠ i → t.win n j = s.win n
  j) ∧ t = { s with regs := t.regs, grg := t.grg, free := t.free } ∧ s.RegsKept t (block n 0x3000 0x4000))) ∧
  (∀ (s : State) (n i : Slice) (b : Bool), s.powered n = true → s.isSet (R.GRG_WCFG n i) F.GRG_WCFG_EN = true → s.isSet
  (R.GRG_WCFG n i) F.GRG_WCFG_LOW_EN = true → s.testSel n i = 0 → (s.win n i).settling = false → Gives (.windowHalfSwitch n
  i false b) s (fun t => (t.win n i).lo = b ∧ (t.win n i).loDone = true ∧ (t.win n i).hi = (s.win n i).hi ∧ (∀ j : Slice, j
  ≠ i → t.win n j = s.win n j) ∧ t = { s with regs := t.regs, grg := t.grg, free := t.free } ∧ s.RegsKept t (block n 0x3000
  0x4000))) ∧
  (∀ (s : State) (n i : Slice) (b : Bool) (lo : Option Bool), s.powered n = true → (s.win n i).settling = true → s.isSet
  (R.GRG_WCFG n i) F.GRG_WCFG_EN = true → s.isSet (R.GRG_WCFG n i) F.GRG_WCFG_HIGH_EN = true → s.testSel n i = 0 → Gives
  (.settlingIntervalEnd n i (some b) lo) s (fun t => (t.win n i).settling = false ∧ (t.win n i).hi = b ∧ (t.win n i).hiDone
  = true ∧ (∀ j : Slice, j ≠ i → t.win n j = s.win n j) ∧ t = { s with regs := t.regs, grg := t.grg, free := t.free } ∧
  s.RegsKept t (block n 0x3000 0x4000))) ∧
  (∀ (s : State) (n i : Slice), s.powered n = true → Gives (.inputOverrange n i true) s (fun t => t.isSet (R.GRG_IN n i)
  F.GRG_IN_OVR = true ∧ (t.win n i).beyond = true ∧ t.getF (R.GRG_IN n i) F.GRG_IN_MODE = s.getF (R.GRG_IN n i)
  F.GRG_IN_MODE ∧ (∀ j : Slice, j ≠ i → t.win n j = s.win n j) ∧ t =
  { s with regs := t.regs, grg := t.grg, free := t.free } ∧ s.RegsKept t (block n 0x3000 0x4000))) ∧
  (∀ (s : State) (x : Access) (n i : Slice) (v : Word), s.reaches x (R.GRG_WCFG n i) = true → s.fitted n = true → s.slState
  n = slFenced → hasOutside v 0x0000FE77 = false → F.GRG_WCFG_EN.get v = 1 → s.isSet (R.GRG_WCFG n i) F.GRG_WCFG_EN = false
  → Gives (.grgWcfgWrite x n i v) s (fun t => t.reg (R.GRG_WCFG n i) = v ∧ (t.win n i).settling = true ∧ (t.win n i).hiDone
  = false ∧ (t.win n i).loDone = false ∧ (∀ j : Slice, j ≠ i → t.win n j = s.win n j) ∧ t =
  { s with regs := t.regs, grg := t.grg, free := t.free } ∧ s.RegsKept t (block n 0x3000 0x4000))) ∧
  (∀ (s : State) (x : Access) (n i : Slice) (v : Word), s.reaches x (R.GRG_WCFG n i) = true → s.fitted n = true → s.slState
  n ≠ slFenced → Gives (.grgWcfgWrite x n i v) s (fun t => t.reg (R.GRG_WCFG n i) = s.reg (R.GRG_WCFG n i) ∧ t.getF
  (R.GRG_CFG_REJ n) F.GRG_CFG_REJ_COUNT = min F.GRG_CFG_REJ_COUNT.top (s.getF (R.GRG_CFG_REJ n) F.GRG_CFG_REJ_COUNT + 1) ∧
  t.grg = s.grg)) ∧
  (∀ (s : State) (x : Access) (n i : Slice) (v : Word), s.reaches x (R.GRG_IN n i) = true → s.fitted n = true → s.slState n
  = slFenced → hasOutside v 0x80000001 = false → F.GRG_IN_MODE.get v ≠ s.getF (R.GRG_IN n i) F.GRG_IN_MODE → Gives
  (.grgInWrite x n i v) s (fun t => t.getF (R.GRG_IN n i) F.GRG_IN_MODE = F.GRG_IN_MODE.get v ∧ (t.win n i).settling = true
  ∧ (t.win n i).hiDone = false ∧ (t.win n i).loDone = false ∧ (∀ j : Slice, j ≠ i → t.win n j = s.win n j) ∧ t =
  { s with regs := t.regs, grg := t.grg, free := t.free } ∧ s.RegsKept t (block n 0x3000 0x4000))) ∧
  (∀ (s : State) (x : Access) (n i : Slice) (v : Word), s.reaches x (R.GRG_THR n i) = true → s.fitted n = true → (s.slState
  n = slFenced ∨ s.slState n = slReady ∨ s.slState n = slRunning) → hasOutside v 0x0FFF0FFF = false → Gives (.grgThrWrite x
  n i v) s (fun t => t.reg (R.GRG_THR n i) = v ∧ (t.win n i).hiStaged = true ∧ (t.win n i).loStaged = true ∧ (t.win n
  i).hiCode = (s.win n i).hiCode ∧ (∀ j : Slice, j ≠ i → t.win n j = s.win n j) ∧ t =
  { s with regs := t.regs, grg := t.grg, free := t.free } ∧ s.RegsKept t (block n 0x3000 0x4000))) ∧
  (∀ (s : State) (n i : Slice), (s.win n i).hiStaged = true → Gives (.thresholdSwitch n i true) s (fun t => (t.win n
  i).hiCode = s.getF (R.GRG_THR n i) F.GRG_THR_HIGH_CODE ∧ (t.win n i).hiStaged = false ∧ (t.win n i).loCode = (s.win n
  i).loCode ∧ (t.win n i).loStaged = (s.win n i).loStaged ∧ (∀ j : Slice, j ≠ i → t.win n j = s.win n j) ∧ t =
  { s with regs := t.regs, grg := t.grg, free := t.free } ∧ s.RegsKept t (block n 0x3000 0x4000))) ∧
  (∀ (s : State) (x : Access) (n i : Slice) (v : Word) (hi lo : Option Bool), s.reaches x (R.GRG_TEST n i) = true →
  s.fitted n = true → 1 ≤ F.GRG_TEST_TEST_SEL.get v → F.GRG_TEST_TEST_SEL.get v ≤ 4 → F.GRG_TEST_TRIP_MASK.get v = 1 →
  Gives (.grgTestWrite x n i ⟨v, hi, lo⟩) s (fun t => t.testSel n i = F.GRG_TEST_TEST_SEL.get v ∧ t.isSet (R.GRG_TEST n i)
  F.GRG_TEST_TRIP_MASK = true ∧ t.getF (R.GRG_WSTAT n i) F.GRG_WSTAT_STATE = 0 ∧ t.isSet (R.GRG_WSTAT n i)
  F.GRG_WSTAT_TRIP_REQ = false ∧ (∀ j : Slice, j ≠ i → t.win n j = s.win n j) ∧ t =
  { s with regs := t.regs, grg := t.grg, free := t.free } ∧ s.RegsKept t (block n 0x3000 0x4000)))

/-- SAR converters: triggers, hold, result, record and self-calibration. Follows: R79, R84, R85, R86, R87, R89, R91,
05_fast_conversion.md. Beside the rules it rests on these choices of the model: logs 63, 155, 156, 157, 158, 159. -/
def Obligations.SarConverters : Prop :=
  (∀ (s : State) (n : Slice) (k : Fin 4) (extra : Fin 8), s.getF (R.SAR_TRIG n k) F.SAR_TRIG_SRC = 2 → s.atPhasePoint n k =
  true → s.fitted n = true → (s.slState n = slReady ∨ s.slState n = slRunning) → s.sarLen n k ≠ 0 → (s.sr n k).phase =
  .idle → (s.sr n k).endAt ≠ some s.clock → Gives (.sarTrigger n k extra) s (fun t => (t.sr n k).phase = .acq 0 (s.sarInput
  n k 0) ∧ t.isSet (R.SAR_STAT n k) F.SAR_STAT_BUSY = true ∧ t = { s with regs := t.regs, sar := t.sar })) ∧
  (∀ (s : State) (n : Slice) (k : Fin 4), s.getF (R.SAR_TRIG n k) F.SAR_TRIG_SRC = 2 → s.atPhasePoint n k = true → s.fitted
  n = true → (s.slState n = slReady ∨ s.slState n = slRunning) → s.sarLen n k ≠ 0 → (s.sr n k).phase ≠ .idle → (s.sr n
  k).idleAt ≠ some s.clock → s.isSet (R.SAR_STAT n k) F.SAR_STAT_PEND = false → Gives (.sarTrigger n k 0) s (fun t =>
  t.isSet (R.SAR_STAT n k) F.SAR_STAT_PEND = true ∧ t.getF (R.SAR_OVR n k) F.SAR_OVR_TRIG = s.getF (R.SAR_OVR n k)
  F.SAR_OVR_TRIG ∧ t.sar = s.sar)) ∧
  (∀ (s : State) (n : Slice) (k : Fin 4), s.getF (R.SAR_TRIG n k) F.SAR_TRIG_SRC = 2 → s.atPhasePoint n k = true → s.fitted
  n = true → (s.slState n = slReady ∨ s.slState n = slRunning) → s.sarLen n k ≠ 0 → (s.sr n k).phase ≠ .idle → (s.sr n
  k).idleAt ≠ some s.clock → s.isSet (R.SAR_STAT n k) F.SAR_STAT_PEND = true → Gives (.sarTrigger n k 0) s (fun t =>
  t.isSet (R.SAR_STAT n k) F.SAR_STAT_PEND = true ∧ t.getF (R.SAR_OVR n k) F.SAR_OVR_TRIG = min F.SAR_OVR_TRIG.top (s.getF
  (R.SAR_OVR n k) F.SAR_OVR_TRIG + 1) ∧ t.isSet (R.SAR_STAT n k) F.SAR_STAT_TRIG_OVR_F = true ∧ t.sar = s.sar)) ∧
  (∀ (s : State) (n : Slice) (k : Fin 4) (extra : Fin 8), s.getF (R.SAR_TRIG n k) F.SAR_TRIG_SRC = 2 → s.atPhasePoint n k =
  true → s.fitted n = true → (s.slState n = slReady ∨ s.slState n = slRunning) → s.sarLen n k ≠ 0 → (s.sr n k).phase ≠
  .idle → (s.sr n k).idleAt = some s.clock → Gives (.sarTrigger n k extra) s (fun t => t.getF (R.SAR_OVR n k)
  F.SAR_OVR_TRIG = min F.SAR_OVR_TRIG.top (s.getF (R.SAR_OVR n k) F.SAR_OVR_TRIG + extra + 1) ∧ t.sar = s.sar ∧ t.cells =
  s.cells)) ∧
  (∀ (s : State) (x : Access) (n : Slice) (k : Fin 4), s.reaches x (R.SAR_SWTRIG n k) = true → s.fitted n = true →
  (s.slState n = slReady ∨ s.slState n = slRunning ∨ s.slState n = slFenced) → s.sarLen n k ≠ 0 → (s.sr n k).phase = .idle
  → Gives (.sarSwtrig x n k) s (fun t => (t.sr n k).phase = .acq 0 (s.sarInput n k 0) ∧ t.isSet (R.SAR_STAT n k)
  F.SAR_STAT_BUSY = true ∧ t = { s with regs := t.regs, sar := t.sar })) ∧
  (∀ (s : State) (n : Slice) (k : Fin 4) (code : BitVec 16) (e i b : Nat), (s.sr n k).phase = .acq e i → s.mode ≠ mdHil → b
  = 12 + 2 * s.getF (R.SAR_ENT n k e) F.SAR_ENT_RES → Gives (.sarHold n k code) s (fun t => ((t.sr n k).phase = .conv e (if
  s.getF (R.SAR_ENT n k e) F.SAR_ENT_FMT = 0 then ((code.toNat % 2 ^ b * 2 ^ 15 / 2 ^ b : Nat) : Int) else (((code.toNat %
  2 ^ b : Nat) : Int) - 2 ^ (b - 1)) * 2 ^ (16 - b)) false (s.reg (R.SAR_CAL n i)) (s.mtime.setWidth 32)) ∧ t =
  { s with sar := t.sar })) ∧
  (∀ (s : State) (n : Slice) (k : Fin 4) (e : Nat) (x : Int) (cal time : Word), (s.sr n k).phase = .conv e x false cal time
  → s.sarLen n k ≤ e + 1 → s.isSet (R.SAR_STAT n k) F.SAR_STAT_PEND = false → Gives (.sarResultReady n k) s (fun t => (t.sr
  n k).phase = .idle ∧ (t.sr n k).results = (s.sr n k).results ++ [⟨e, x, satS 16 ((x - toSigned 16 cal.toNat) * (cal.toNat
  / 65536 : Nat) / 32768), time⟩] ∧ t.isSet (R.SAR_STAT n k) F.SAR_STAT_BUSY = false ∧ t.cells = s.cells)) ∧
  (∀ (s : State) (n : Slice) (k : Fin 4) (r : SarRes) (l : List SarRes) (j : Fin 16), s.fitted n = true → (s.slState n =
  slFenced ∨ s.slState n = slReady ∨ s.slState n = slRunning) → (s.sr n k).results = r :: l → r.e < 6 → s.getF (R.SAR_ENT n
  k r.e) F.SAR_ENT_DEST = 1 → s.getF (R.SAR_ENT n k r.e) F.SAR_ENT_LOOP = j.val → s.isSet (R.SAR_ENT n k r.e)
  F.SAR_ENT_TRIG_LOOP = false → Gives (.sarHandoff n k false) s (fun t => (t.sr n k).results = l ∧ t.reg (R.SAR_RES n k
  r.e) = pack16 r.y r.x ∧ t.reg (R.CLE_IN n j) = pack16 r.y 0 ∧ t = { s with regs := t.regs, sar := t.sar } ∧ (s.RegsKept t
  (fun a => a == R.SAR_RES n k r.e || a == R.CLE_IN n j)))) ∧
  (∀ (s : State) (n : Slice) (k : Fin 4) (r : SarRes) (l : List SarRes) (j : Fin 16), s.fitted n = true → (s.slState n =
  slFenced ∨ s.slState n = slReady ∨ s.slState n = slRunning) → (s.sr n k).results = r :: l → r.e < 6 → s.getF (R.SAR_ENT n
  k r.e) F.SAR_ENT_DEST = 1 → s.getF (R.SAR_ENT n k r.e) F.SAR_ENT_LOOP = j.val → s.isSet (R.SAR_ENT n k r.e)
  F.SAR_ENT_TRIG_LOOP = false → Gives (.sarHandoff n k true) s (fun t => (t.sr n k).results = l ∧ t.reg (R.SAR_RES n k r.e)
  = pack16 r.y r.x ∧ t.reg (R.CLE_IN n j) = pack16 r.y 0 ∧ t.isSet (R.CLE_LSTAT n j) F.CLE_LSTAT_WRCOLL_F = true ∧ t.getF
  (R.CLE_WRCOLL n) F.CLE_WRCOLL_COUNT = min F.CLE_WRCOLL_COUNT.top (s.getF (R.CLE_WRCOLL n) F.CLE_WRCOLL_COUNT + 1) ∧ t =
  { s with regs := t.regs, sar := t.sar })) ∧
  (∀ (s : State) (n : Slice) (k : Fin 4) (r : Rec) (q : List Rec) (a : Nat), (s.sr n k).queue = r :: q → a = smem n (8 *
  s.getF (R.SAR_MBUF n k) F.SAR_MBUF_BASE + 8 * s.getF (R.SAR_MIDX n k) F.SAR_MIDX_INDEX) → Gives (.sarRecordWrite n k) s
  (fun t => t.cell a = r.c0 ∧ t.cell (a + 4) = r.c1 ∧ (t.sr n k).queue = q ∧ t.getF (R.SAR_MIDX n k) F.SAR_MIDX_INDEX =
  (s.getF (R.SAR_MIDX n k) F.SAR_MIDX_INDEX + 1) % 2 ^ s.getF (R.SAR_MBUF n k) F.SAR_MBUF_LOG2LEN % 2 ^
  F.SAR_MIDX_INDEX.width ∧ (s.CellsKept t (fun b => b == a || b == a + 4)))) ∧
  (∀ (s : State) (x : Access) (n : Slice), s.reaches x (R.SAR_CTRL n) = true → s.fitted n = true → s.slState n = slFenced →
  Gives (.selfcal x n) s (fun t => t.isSet (R.SAR_CTRL n) F.SAR_CTRL_SELFCAL = true ∧ t = { s with regs := t.regs })) ∧
  (∀ (s : State) (n : Slice) (failed : BitVec 4), s.isSet (R.SAR_CTRL n) F.SAR_CTRL_SELFCAL = true → Gives
  (.selfcalComplete n failed) s (fun t => t.isSet (R.SAR_CTRL n) F.SAR_CTRL_SELFCAL = false ∧ (∀ k : Fin 4, t.isSet
  (R.SAR_STAT n k) F.SAR_STAT_CAL_FAIL = (failed.getLsbD k || s.isSet (R.SAR_STAT n k) F.SAR_STAT_CAL_FAIL)) ∧ t =
  { s with regs := t.regs }))

/-- Loop triggers, issue, and the microwords of vendor and customer routines. Follows: R108, R110, R113, R114, R125, R126,
R127, R128, R130, R132, R133, R393. Beside the rules it rests on these choices of the model: log 67. -/
def Obligations.LoopTriggersAndIssue : Prop :=
  (∀ (s : State) (n : Slice) (j : Fin 16), s.fitted n = true → s.isSet (R.CLE_LCTRL n j) F.CLE_LCTRL_EN = true → s.slState
  n = slRunning → (s.ctlOf n).unmasked = true → s.standby n = false → s.qstate n j = 0 → Gives (.loopTrigger n j) s (fun t
  => t.qstate n j = 1 ∧ t.cells = s.cells ∧ t.pwm = s.pwm ∧ t.core = s.core)) ∧
  (∀ (s : State) (n : Slice) (j : Fin 16), s.fitted n = true → s.isSet (R.CLE_LCTRL n j) F.CLE_LCTRL_EN = true → s.slState
  n = slRunning → (s.ctlOf n).unmasked = true → s.standby n = false → s.qstate n j = 1 → Gives (.loopTrigger n j) s (fun t
  => t.qstate n j = 1 ∧ t.getF (R.CLE_OVR n j) F.CLE_OVR_SKIP = min F.CLE_OVR_SKIP.top (s.getF (R.CLE_OVR n j)
  F.CLE_OVR_SKIP + 1) ∧ t.isSet (R.CLE_LSTAT n j) F.CLE_LSTAT_SKIP_F = true ∧ t.cle = s.cle)) ∧
  (∀ (s : State) (x : Access) (n : Slice) (v : Word) (j : Fin 16), s.reaches x (R.CLE_SWTRIG n) = true → s.fitted n = true
  → v.getLsbD j = true → s.isSet (R.CLE_LCTRL n j) F.CLE_LCTRL_EN = true → s.slState n = slRunning → (s.ctlOf n).unmasked =
  true → s.standby n = false → s.qstate n j = 0 → Gives (.cleSwtrig x n v) s (fun t => t.qstate n j = 1 ∧ t.cells =
  s.cells)) ∧
  (∀ (s : State) (n : Slice) (j : Fin 16) (at_ : IssueAt), s.fitted n = true → s.slState n = slRunning → s.standby n =
  false → s.lowestQueued n = some j → (s.cleOf n).blocked = false → (s.cleOf n).stalled s.clock = false → (s.cleOf
  n).seqr.who = .none → (s.getF (R.CLE_LCTRL n j) F.CLE_LCTRL_ENTRY = 0x010 ∨ s.getF (R.CLE_LCTRL n j) F.CLE_LCTRL_ENTRY =
  0x020) → parityOk (s.uword n (s.getF (R.CLE_LCTRL n j) F.CLE_LCTRL_ENTRY)) = true → Gives (.loopIssue n at_) s (fun t =>
  t.qstate n j = 2 ∧ t.getF (R.CLE_STAT n) F.CLE_STAT_CUR = j ∧ t.isSet (R.CLE_STAT n) F.CLE_STAT_BUSY = true ∧ (t.cleOf
  n).seqr.words = 1 ∧ ((t.cleOf n).seqr.len = (if s.getF (R.CLE_LCTRL n j) F.CLE_LCTRL_ENTRY = 0x010 then 9 else 11)) ∧
  t.cells = s.cells)) ∧
  (∀ (s : State) (n : Slice) (j : Fin 16), s.isSet (R.CLE_LCTRL n j) F.CLE_LCTRL_EN = true → s.slState n = slRunning →
  s.standby n = true → Gives (.loopTrigger n j) s (fun t => t = s)) ∧
  (∀ (s : State) (n : Slice) (j : Fin 16) (e l : Nat) (w : MWord) (at_ : IssueAt), s.fitted n = true → s.slState n =
  slRunning → s.standby n = false → s.lowestQueued n = some j → (s.cleOf n).blocked = false → (s.cleOf n).stalled s.clock =
  false → (s.cleOf n).seqr.who = .none → s.getF (R.CLE_LCTRL n j) F.CLE_LCTRL_ENTRY = e → 0x800 ≤ e → w = s.uword n e →
  parityOk w = true → entryLen w = some l → 1 < l → e < 0xFFF → mbits w 15 12 = 0 → mbits w 118 115 = 0 → mbits w 90 89 = 0
  → Gives (.loopIssue n at_) s (fun t => t.qstate n j = 2 ∧ t.getF (R.CLE_STAT n) F.CLE_STAT_CUR = j ∧ (t.cleOf
  n).seqr.words = 1 ∧ (t.cleOf n).seqr.len = l ∧ (t.cleOf n).seqr.upc = e + 1 ∧ t.cells = s.cells)) ∧
  (∀ (s : State) (n : Slice) (j : Fin 16) (e : Nat) (at_ : IssueAt), s.fitted n = true → s.slState n = slRunning →
  s.standby n = false → s.lowestQueued n = some j → (s.cleOf n).blocked = false → (s.cleOf n).stalled s.clock = false →
  (s.cleOf n).seqr.who = .none → s.getF (R.CLE_LCTRL n j) F.CLE_LCTRL_ENTRY = e → 0x800 ≤ e → parityOk (s.uword n e) = true
  → entryLen (s.uword n e) = none → Gives (.loopIssue n at_) s (fun t => t.qstate n j = 3 ∧ t.getF (R.MCS_RERR n)
  F.MCS_RERR_CAUSE = 2 ∧ t.getF (R.MCS_RERR n) F.MCS_RERR_ADDR = e ∧ t.getF (R.MCS_RERR n) F.MCS_RERR_LOOP = j)) ∧
  (∀ (s : State) (n : Slice) (j : Fin 16) (p : Snap) (eff : Effects), (s.cleOf n).blocked = false → (s.cleOf n).stalled
  s.clock = false → (s.cleOf n).seqr.who = .loop j p eff → (s.getF (R.CLE_LCTRL n j) F.CLE_LCTRL_ENTRY = 0x010 ∨ s.getF
  (R.CLE_LCTRL n j) F.CLE_LCTRL_ENTRY = 0x020) → parityOk (s.uword n (s.cleOf n).seqr.upc) = true → (s.cleOf n).seqr.words
  + 1 < (s.cleOf n).seqr.len → Gives (.microwordIssue n) s (fun t => (t.cleOf n).seqr =
  { (s.cleOf n).seqr with words := (s.cleOf n).seqr.words + 1, upc := (s.cleOf n).seqr.upc + 1 } ∧ t =
  { s with cle := t.cle })) ∧
  (∀ (s : State) (n : Slice) (j : Fin 16) (p : Snap) (eff : Effects) (q : SeqSt) (w : MWord) (m0 m1 a z : Int), (s.cleOf
  n).blocked = false → (s.cleOf n).stalled s.clock = false → (s.cleOf n).seqr = q → q.who = .loop j p eff → 0x800 ≤ s.getF
  (R.CLE_LCTRL n j) F.CLE_LCTRL_ENTRY → s.uword n q.upc = w → parityOk w = true → q.words + 1 ≠ q.len → mbits w 118 115 = 0
  → mbits w 15 12 < 6 → (mbits w 15 12 = 3 → q.stack.length < 2) → (mbits w 15 12 = 4 → q.stack ≠ []) → mbits w 90 89 = 0 →
  mbits w 49 47 < 7 → m0 = operand p q (mbits w 31 27) * operand p q (mbits w 36 32) → m1 = operand p q (mbits w 41 37) *
  operand p q (mbits w 46 42) → (a = if mbits w 50 50 = 0 then q.acc0 else q.acc1) → (z = if mbits w 49 47 = 1 then 2 * (m0
  + m1) else if mbits w 49 47 = 2 then a + 2 * (m0 + m1) else if mbits w 49 47 = 3 then 2 * (m0 - m1) else if mbits w 49 47
  = 4 then a + 2 * (m0 - m1) else if mbits w 49 47 = 5 then a + operand p q (mbits w 31 27) * 65536 else if mbits w 49 47 =
  6 then 0 else a) → Gives (.microwordIssue n) s (fun t => ((t.cleOf n).seqr.acc0 = if mbits w 50 50 = 0 then satS 40 z
  else q.acc0) ∧ ((t.cleOf n).seqr.acc1 = if mbits w 50 50 = 0 then q.acc1 else satS 40 z) ∧ (t.cleOf n).seqr.accSat =
  (q.accSat || decide (z ≠ satS 40 z)) ∧ (t.cleOf n).seqr.words = q.words + 1 ∧ t = { s with cle := t.cle })) ∧
  (∀ (s : State) (n : Slice) (j : Fin 16) (p : Snap) (eff : Effects) (q : SeqSt) (w : MWord) (a b alu ac rnd : Int) (sh :
  Nat), (s.cleOf n).blocked = false → (s.cleOf n).stalled s.clock = false → (s.cleOf n).seqr = q → q.who = .loop j p eff →
  0x800 ≤ s.getF (R.CLE_LCTRL n j) F.CLE_LCTRL_ENTRY → s.uword n q.upc = w → parityOk w = true → q.words + 1 ≠ q.len →
  mbits w 118 115 = 0 → mbits w 15 12 < 6 → (mbits w 15 12 = 3 → q.stack.length < 2) → (mbits w 15 12 = 4 → q.stack ≠ []) →
  mbits w 90 89 = 0 → (q.reads.map (·.1)).getD 0 < 8 → mbits w 75 72 < 5 → a = operand p q (mbits w 55 51) → b = operand p
  q (mbits w 60 56) → (alu = satS 16 (if mbits w 63 61 = 1 then a + b else if mbits w 63 61 = 2 then a - b else if mbits w
  63 61 = 3 then -a else if mbits w 63 61 = 4 then max a b else if mbits w 63 61 = 5 then min a b else if mbits w 63 61 = 6
  then a else if mbits w 63 61 = 7 then max a (-a) else 0)) → (ac = if mbits w 75 72 < 3 then q.acc0 else q.acc1) → (sh =
  if mbits w 75 72 = 1 ∨ mbits w 75 72 = 3 then p.shift else mbits w 79 76) → (rnd = satS 16 ((ac * ((2 ^ sh : Nat) : Int)
  + 32768) / 65536)) → Gives (.microwordIssue n) s (fun t => (∀ k : Fin 8, (t.cleOf n).seqr.tr k = (if q.reads.map (·.1) =
  some k.val then (q.reads.map (·.2)).getD 0 else if mbits w 75 72 ≠ 0 ∧ mbits w 82 80 = k.val then rnd else if mbits w 67
  67 = 1 ∧ mbits w 66 64 = k.val then alu else q.tr k)) ∧ (t.cleOf n).seqr.words = q.words + 1 ∧ t =
  { s with cle := t.cle })) ∧
  (∀ (s : State) (n : Slice) (j : Fin 16) (p : Snap) (eff : Effects) (q : SeqSt) (w : MWord) (u d x : Int), (s.cleOf
  n).blocked = false → (s.cleOf n).stalled s.clock = false → (s.cleOf n).seqr = q → q.who = .loop j p eff → 0x800 ≤ s.getF
  (R.CLE_LCTRL n j) F.CLE_LCTRL_ENTRY → s.uword n q.upc = w → parityOk w = true → q.words + 1 ≠ q.len → mbits w 118 115 = 0
  → mbits w 15 12 < 6 → (mbits w 15 12 = 3 → q.stack.length < 2) → (mbits w 15 12 = 4 → q.stack ≠ []) → mbits w 90 89 = 0 →
  mbits w 85 83 = 1 → p.autoFirst = false → p.min ≤ p.max → u = q.tr (mbits w 88 86) → (d = if p.node = 2 then p.d else 0)
  → (x = if p.manual then satS 16 (p.man + d) else satS 16 (u + d)) → Gives (.microwordIssue n) s (fun t => (t.cleOf
  n).seqr.cu = satS 16 (u + d) ∧ ((t.cleOf n).seqr.cy = if p.max < x then p.max else if x < p.min then p.min else x) ∧
  (t.cleOf n).seqr.clamped = (decide (p.max < x) || decide (x < p.min)) ∧ (t.cleOf n).seqr.words = q.words + 1)) ∧
  (∀ (s : State) (n : Slice) (j : Fin 16) (p : Snap) (eff : Effects) (q : SeqSt) (w : MWord) (c : Bool) (left : Nat),
  (s.cleOf n).blocked = false → (s.cleOf n).stalled s.clock = false → (s.cleOf n).seqr = q → q.who = .loop j p eff → 0x800
  ≤ s.getF (R.CLE_LCTRL n j) F.CLE_LCTRL_ENTRY → s.uword n q.upc = w → parityOk w = true → q.words + 1 ≠ q.len → mbits w
  118 115 = 0 → mbits w 15 12 < 6 → (mbits w 15 12 = 3 → q.stack.length < 2) → (mbits w 15 12 = 4 → q.stack ≠ []) → mbits w
  90 89 = 0 → q.upc < 0xFFF → [true, p.manual, p.autoFirst, decide (q.acc0 < 0), decide (q.acc0 = 0), q.accSat, decide
  (q.tr 0 < 0), q.clamped, false][mbits w 19 16]? = some c → (left = if mbits w 15 12 ≠ 5 then 0 else if q.rep = 0 then
  mbits w 5 0 else q.rep - 1) → Gives (.microwordIssue n) s (fun t => ((t.cleOf n).seqr.upc = if mbits w 15 12 = 1 ∨ mbits
  w 15 12 = 3 ∨ (mbits w 15 12 = 2 ∧ c = true) then mbits w 11 0 else if mbits w 15 12 = 4 then q.stack.headD 0 else if
  left = 0 then q.upc + 1 else q.upc) ∧ (t.cleOf n).seqr.rep = left ∧ ((t.cleOf n).seqr.stack = if mbits w 15 12 = 3 then
  (q.upc + 1) :: q.stack else if mbits w 15 12 = 4 then q.stack.drop 1 else q.stack) ∧ (t.cleOf n).seqr.words = q.words +
  1)) ∧
  (∀ (s : State) (n : Slice) (j : Fin 16) (p : Snap) (eff : Effects) (q : SeqSt) (w : MWord) (a : Nat) (x : Cell), (s.cleOf
  n).blocked = false → (s.cleOf n).stalled s.clock = false → (s.cleOf n).seqr = q → q.who = .loop j p eff → 0x800 ≤ s.getF
  (R.CLE_LCTRL n j) F.CLE_LCTRL_ENTRY → s.uword n q.upc = w → parityOk w = true → q.words + 1 ≠ q.len → mbits w 118 115 = 0
  → mbits w 15 12 < 6 → (mbits w 15 12 = 3 → q.stack.length < 2) → (mbits w 15 12 = 4 → q.stack ≠ []) → mbits w 90 89 = 1 →
  a = smem n (4 * mbits w 107 91) → (s.rd a).ue = false → (s.rd a).c = x → (x.tag = tagFrac2 ∨ x.tag = tagQ31) → Gives
  (.microwordIssue n) s (fun t => ((t.cleOf n).seqr.reads = some (mbits w 110 108, toSigned 16 (if mbits w 111 111 = 0 then
  x.v.toNat % 65536 else x.v.toNat / 65536))) ∧ (t.cleOf n).seqr.words = q.words + 1)) ∧
  (∀ (s : State) (n : Slice) (j : Fin 16) (p : Snap) (eff : Effects) (q : SeqSt) (w : MWord) (a : Nat) (x : Cell), (s.cleOf
  n).blocked = false → (s.cleOf n).stalled s.clock = false → (s.cleOf n).seqr = q → q.who = .loop j p eff → 0x800 ≤ s.getF
  (R.CLE_LCTRL n j) F.CLE_LCTRL_ENTRY → s.uword n q.upc = w → parityOk w = true → q.words + 1 ≠ q.len → mbits w 118 115 = 0
  → mbits w 15 12 < 6 → (mbits w 15 12 = 3 → q.stack.length < 2) → (mbits w 15 12 = 4 → q.stack ≠ []) → mbits w 90 89 = 1 →
  a = smem n (4 * mbits w 107 91) → (s.rd a).ue = false → (s.rd a).c = x → (x.tag ≠ tagFrac2 ∧ x.tag ≠ tagQ31) → Gives
  (.microwordIssue n) s (fun t => t.getF (R.MCS_RERR n) F.MCS_RERR_CAUSE = 4 ∧ t.getF (R.MCS_RERR n) F.MCS_RERR_LOOP = j ∧
  ((t.cleOf n).loops.get j).errored = true)) ∧
  (∀ (s : State) (n : Slice) (j : Fin 16) (p : Snap) (eff : Effects) (q : SeqSt) (w : MWord), (s.cleOf n).blocked = false →
  (s.cleOf n).stalled s.clock = false → (s.cleOf n).seqr = q → q.who = .loop j p eff → 0x800 ≤ s.getF (R.CLE_LCTRL n j)
  F.CLE_LCTRL_ENTRY → s.uword n q.upc = w → parityOk w = true → mbits w 15 12 = 6 → q.words + 1 = q.len → mbits w 118 115 =
  1 → mbits w 90 89 = 0 → mbits w 85 83 = 0 → q.hadClamp = true → Gives (.microwordIssue n) s (fun t => (((t.cleOf
  n).loops.get j).commit.map (fun r => (r.u, r.y, r.e, r.cu, r.hist)) = some (q.cu0, q.cy, q.tr (mbits w 121 119), q.cu,
  mbits w 114 112)) ∧ t.qstate n j = 3 ∧ t.isSet (R.CLE_STAT n) F.CLE_STAT_BUSY = false ∧ (t.cleOf n).seqr.who = .none)) ∧
  (∀ (s : State) (n : Slice) (j : Fin 16) (p : Snap) (eff : Effects) (q : SeqSt) (w : MWord) (u y : Int), (s.cleOf
  n).blocked = false → (s.cleOf n).stalled s.clock = false → (s.cleOf n).seqr = q → q.who = .loop j p eff → 0x800 ≤ s.getF
  (R.CLE_LCTRL n j) F.CLE_LCTRL_ENTRY → s.uword n q.upc = w → parityOk w = true → mbits w 15 12 = 6 → q.words + 1 = q.len →
  mbits w 118 115 = 1 → mbits w 90 89 = 0 → mbits w 85 83 = 1 → p.autoFirst = false → p.manual = false → p.node ≠ 2 → p.min
  ≤ p.max → u = q.tr (mbits w 88 86) → (y = if p.max < satS 16 u then p.max else if satS 16 u < p.min then p.min else satS
  16 u) → Gives (.microwordIssue n) s (fun t => (((t.cleOf n).loops.get j).commit.map (fun r => (r.u, r.y, r.e, r.hist)) =
  some (u, y, q.tr (mbits w 121 119), mbits w 114 112)) ∧ t.qstate n j = 3)) ∧
  (∀ (s : State) (n : Slice) (j : Fin 16) (p : Snap) (eff : Effects) (q : SeqSt) (w : MWord), (s.cleOf n).blocked = false →
  (s.cleOf n).stalled s.clock = false → (s.cleOf n).seqr = q → q.who = .loop j p eff → 0x800 ≤ s.getF (R.CLE_LCTRL n j)
  F.CLE_LCTRL_ENTRY → s.uword n q.upc = w → parityOk w = true → mbits w 15 12 = 6 → q.words + 1 < q.len → Gives
  (.microwordIssue n) s (fun t => t.getF (R.MCS_RERR n) F.MCS_RERR_CAUSE = 1 ∧ t.getF (R.MCS_RERR n) F.MCS_RERR_LOOP = j ∧
  (t.cleOf n).blocked = true))

/-- The record of a vendor control law. Follows: R98, R99, R100, R134, 06_control_law_engine.md. Beside the rules it rests
on these choices of the model: logs 65, 66, 69. -/
def Obligations.VendorControlLaws : Prop :=
  (∀ (s : State) (n : Slice) (j : Fin 16) (p : Snap) (eff : Effects) (e P u : Int), (s.cleOf n).blocked = false → (s.cleOf
  n).stalled s.clock = false → (s.cleOf n).seqr.who = .loop j p eff → s.getF (R.CLE_LCTRL n j) F.CLE_LCTRL_ENTRY = 0x010 →
  parityOk (s.uword n (s.cleOf n).seqr.upc) = true → (s.cleOf n).seqr.words = 8 → (s.cleOf n).seqr.len = 9 → p.manual =
  false → p.autoFirst = false → p.node = 3 → p.min ≤ p.max → e = satS 16 (p.ref - p.inp) → P = p.b0 * e + p.b1 * p.e1 +
  p.b2 * p.e2 - p.a1 * p.y1 - p.a2 * p.y2 → (u = satS 16 ((2 * P * ((2 ^ p.shift : Nat) : Int) + 32768) / 65536)) → Gives
  (.microwordIssue n) s (fun t => (((t.cleOf n).loops.get j).commit.map (fun r => (r.e, r.u, r.y)) = some (e, u, if p.max <
  u then p.max else if u < p.min then p.min else u)) ∧ (((t.cleOf n).loops.get j).commit.map (fun r => (r.hi, r.lo,
  r.compared)) = some (decide (p.max < u), decide (u < p.min), false)) ∧ t.qstate n j = 3 ∧ t.isSet (R.CLE_STAT n)
  F.CLE_STAT_BUSY = false ∧ (t.cleOf n).seqr.who = .none)) ∧
  (∀ (s : State) (n : Slice) (j : Fin 16) (p : Snap) (eff : Effects) (e P u : Int), (s.cleOf n).blocked = false → (s.cleOf
  n).stalled s.clock = false → (s.cleOf n).seqr.who = .loop j p eff → s.getF (R.CLE_LCTRL n j) F.CLE_LCTRL_ENTRY = 0x020 →
  parityOk (s.uword n (s.cleOf n).seqr.upc) = true → (s.cleOf n).seqr.words = 10 → (s.cleOf n).seqr.len = 11 → p.manual =
  false → p.autoFirst = false → p.node = 3 → p.min ≤ p.max → e = satS 16 (p.ref - p.inp) → P = p.b0 * e + p.b1 * p.e1 +
  p.b2 * p.e2 - p.a1 * p.y1 - p.a2 * p.y2 + p.b3 * p.e3 - p.a3 * p.y3 → (u = satS 16 ((2 * P * ((2 ^ p.shift : Nat) : Int)
  + 32768) / 65536)) → Gives (.microwordIssue n) s (fun t => (((t.cleOf n).loops.get j).commit.map (fun r => (r.e, r.u,
  r.y)) = some (e, u, if p.max < u then p.max else if u < p.min then p.min else u)) ∧ (((t.cleOf n).loops.get j).commit.map
  (fun r => r.hist) = some 3) ∧ t.qstate n j = 3))

/-- Commits and the commands of CLE_CMD. Follows: R97, R102, R104, R105, R106, R115, 06_control_law_engine.md. Beside the
rules it rests on these choices of the model: logs 135, 161, 189, 191, 201. -/
def Obligations.CommitsAndLoopCommands : Prop :=
  (∀ (s : State) (n : Slice) (j : Fin 16) (r : CommitRec), ((s.cleOf n).loops.get j).commit = some r → r.compared = false →
  Gives (.commitCompare n j true) s (fun t => (((t.cleOf n).loops.get j).commit.map (fun q => (q.compared, q.y, q.u)) =
  some (true, r.y, r.u)) ∧ t = { s with cle := t.cle })) ∧
  (∀ (s : State) (n : Slice) (j : Fin 16) (r : CommitRec), s.fitted n = true → ((s.cleOf n).loops.get j).commit = some r →
  r.compared = false → s.slState n = slRunning → Gives (.commitCompare n j false) s (fun t => t.getF (R.CLE_MISMATCH n)
  F.CLE_MISMATCH_COUNT = min F.CLE_MISMATCH_COUNT.top (s.getF (R.CLE_MISMATCH n) F.CLE_MISMATCH_COUNT + 1) ∧ (t.ctlOf
  n).mcheck = true ∧ t.reg (R.CLE_OUT n j) = s.reg (R.CLE_OUT n j) ∧ t.cells = s.cells)) ∧
  (∀ (s : State) (n : Slice) (j : Fin 16) (r : CommitRec), s.fitted n = true → ((s.cleOf n).loops.get j).commit = some r →
  r.compared = true → r.held = none → s.getF (R.CLE_TGT n j) F.CLE_TGT_KIND ≠ 3 → Gives (.commitComplete n j false) s (fun
  t => t.reg (R.CLE_OUT n j) = pack16 r.y r.u ∧ t.getF (R.CLE_LSTAT n j) F.CLE_LSTAT_SEQ = (s.getF (R.CLE_LSTAT n j)
  F.CLE_LSTAT_SEQ + 1) % 2 ^ F.CLE_LSTAT_SEQ.width ∧ ((t.cleOf n).loops.get j).commit = none ∧ ((t.cleOf n).loops.get
  j).committed = true ∧ t.cells = s.cells)) ∧
  (∀ (s : State) (n : Slice) (j : Fin 16) (r : CommitRec) (a : Nat), s.fitted n = true → ((s.cleOf n).loops.get j).commit =
  some r → r.compared = true → r.held = none → s.getF (R.CLE_TGT n j) F.CLE_TGT_KIND = 3 → a = smem n (4 * s.getF
  (R.CLE_TGT n j) F.CLE_TGT_OFS) → Gives (.commitComplete n j false) s (fun t => t.cell a = ⟨pack16 r.y r.u, tagFrac2⟩ ∧
  s.CellsKept t (· == a) ∧ t.reg (R.CLE_OUT n j) = pack16 r.y r.u)) ∧
  (∀ (s : State) (x : Access) (n : Slice) (j : Fin 16) (key : BitVec 16), s.reaches x (R.CLE_CMD n) = true → s.fitted n =
  true → key = 0x0C1E → (s.slState n = slReady ∨ s.slState n = slRunning) → s.isSet (R.CLE_LCTRL n j) F.CLE_LCTRL_EN = true
  → s.standby n = false → s.isSet (R.CLE_LSTAT n j) F.CLE_LSTAT_SWAP_PEND = false → Gives (.swapBank x n j key) s (fun t =>
  t.isSet (R.CLE_LSTAT n j) F.CLE_LSTAT_SWAP_PEND = true ∧ t.getF (R.CLE_CMD_STAT n) F.CLE_CMD_STAT_LAST_LOOP = j ∧ t.getF
  (R.CLE_CMD_STAT n) F.CLE_CMD_STAT_LAST_CMD = 1 ∧ t.getF (R.CLE_CMD_STAT n) F.CLE_CMD_STAT_STATUS = 0 ∧ t =
  { s with regs := t.regs })) ∧
  (∀ (s : State) (x : Access) (n : Slice) (j : Fin 16) (key : BitVec 16), s.reaches x (R.CLE_CMD n) = true → s.fitted n =
  true → key = 0x0C1E → (s.slState n = slReady ∨ s.slState n = slRunning) → s.isSet (R.CLE_LCTRL n j) F.CLE_LCTRL_EN = true
  → s.standby n = false → s.isSet (R.CLE_LSTAT n j) F.CLE_LSTAT_MODE_PEND = false → s.isSet (R.CLE_LCTRL n j)
  F.CLE_LCTRL_MODE = true → Gives (.toAuto x n j key) s (fun t => t.isSet (R.CLE_LSTAT n j) F.CLE_LSTAT_MODE_PEND = true ∧
  t.getF (R.CLE_CMD_STAT n) F.CLE_CMD_STAT_LAST_LOOP = j ∧ t.getF (R.CLE_CMD_STAT n) F.CLE_CMD_STAT_LAST_CMD = 2 ∧ t.getF
  (R.CLE_CMD_STAT n) F.CLE_CMD_STAT_STATUS = 0 ∧ t = { s with regs := t.regs })) ∧
  (∀ (s : State) (x : Access) (n : Slice) (j : Fin 16) (key : BitVec 16), s.reaches x (R.CLE_CMD n) = true → s.fitted n =
  true → key = 0x0C1E → (s.slState n = slReady ∨ s.slState n = slRunning) → s.isSet (R.CLE_LCTRL n j) F.CLE_LCTRL_EN = true
  → s.standby n = false → s.isSet (R.CLE_LSTAT n j) F.CLE_LSTAT_MODE_PEND = false → s.isSet (R.CLE_LCTRL n j)
  F.CLE_LCTRL_MODE = false → Gives (.toManual x n j key) s (fun t => t.isSet (R.CLE_LSTAT n j) F.CLE_LSTAT_MODE_PEND = true
  ∧ t.getF (R.CLE_CMD_STAT n) F.CLE_CMD_STAT_LAST_LOOP = j ∧ t.getF (R.CLE_CMD_STAT n) F.CLE_CMD_STAT_LAST_CMD = 3 ∧ t.getF
  (R.CLE_CMD_STAT n) F.CLE_CMD_STAT_STATUS = 0 ∧ t = { s with regs := t.regs })) ∧
  (∀ (s : State) (x : Access) (n : Slice) (j : Fin 16) (key : BitVec 16), s.reaches x (R.CLE_CMD n) = true → s.fitted n =
  true → key = 0x0C1E → (s.slState n = slReady ∨ s.slState n = slRunning) → s.isSet (R.CLE_LCTRL n j) F.CLE_LCTRL_EN = true
  → s.standby n = false → s.isSet (R.CLE_LSTAT n j) F.CLE_LSTAT_HIST_PEND = false → Gives (.clearHist x n j key) s (fun t
  => t.isSet (R.CLE_LSTAT n j) F.CLE_LSTAT_HIST_PEND = true ∧ t.getF (R.CLE_CMD_STAT n) F.CLE_CMD_STAT_LAST_LOOP = j ∧
  t.getF (R.CLE_CMD_STAT n) F.CLE_CMD_STAT_LAST_CMD = 4 ∧ t.getF (R.CLE_CMD_STAT n) F.CLE_CMD_STAT_STATUS = 0 ∧ t =
  { s with regs := t.regs })) ∧
  (∀ (s : State) (x : Access) (n : Slice) (j : Fin 16) (key : BitVec 16), s.reaches x (R.CLE_CMD n) = true → s.fitted n =
  true → key ≠ 0x0C1E → Gives (.swapBank x n j key) s (fun t => t.getF (R.CLE_CMD_STAT n) F.CLE_CMD_STAT_STATUS = 5 ∧ t.reg
  (R.CLE_LSTAT n j) = s.reg (R.CLE_LSTAT n j) ∧ t.getF (R.CLE_CMD_STAT n) F.CLE_CMD_STAT_REJ = min F.CLE_CMD_STAT_REJ.top
  (s.getF (R.CLE_CMD_STAT n) F.CLE_CMD_STAT_REJ + 1)))

/-- Loading microcode, its CRC and repair, and attached calls. Follows: R137, R139, R140, R141, R142, R145,
07_cle_microcode.md. Beside the rules it rests on these choices of the model: logs 68, 71, 72, 73, 190, 192, 193. -/
def Obligations.MicrocodeStoreAndCalls : Prop :=
  (∀ (s : State) (x : Access) (n : Slice) (w : BitVec 12) (i : Fin 4) (v : Word), s.reaches x (mcsAddr n w (4 * i.val)) =
  true → s.fitted n = true → s.part.full = true → Gives (.mcsStageWrite x n w i v) s (fun t => ((t.cleOf n).staging >>> (32
  * i.val)).setWidth 32 = v ∧ (∀ k : Fin 4, k ≠ i → ((t.cleOf n).staging >>> (32 * k.val)).setWidth 32 = (((s.cleOf
  n).staging >>> (32 * k.val)).setWidth 32 : Word)) ∧ t = { s with cle := t.cle })) ∧
  (∀ (s : State) (x : Access) (n : Slice) (w : BitVec 12) (v : Word) (m : MWord), s.reaches x (mcsAddr n w 0x10) = true →
  s.fitted n = true → s.part.full = true → m = BitVec.ofNat 144 ((s.cleOf n).staging.toNat + (v.toNat % 65536) * 2 ^ 128) →
  s.slState n = slFenced → s.isSet (R.MCS_CTRL n) F.MCS_CTRL_LD_OPEN = true → 0x800 ≤ w.toNat → parityOk m = true →
  fieldCheck m = 0 → Gives (.mcsWordCommit x n w v) s (fun t => t.uword n w.toNat = m ∧ (t.cleOf n).staging = 0 ∧ t.cells =
  s.cells ∧ t.core = s.core)) ∧
  (∀ (s : State) (x : Access) (n : Slice) (w : BitVec 12) (v : Word), s.reaches x (mcsAddr n w 0x10) = true → s.fitted n =
  true → s.slState n = slFenced → s.isSet (R.MCS_CTRL n) F.MCS_CTRL_LD_OPEN = true → w.toNat < 0x800 → Gives
  (.mcsWordCommit x n w v) s (fun t => t.mstore = s.mstore ∧ t.getF (R.MCS_LD_STAT n) F.MCS_LD_STAT_REASON = 2 ∧ t.getF
  (R.MCS_LD_STAT n) F.MCS_LD_STAT_ADDR = w.toNat ∧ t = { s with regs := t.regs })) ∧
  (∀ (s : State) (x : Access) (n : Slice) (v : Word), s.reaches x (R.MCS_CTRL n) = true → s.fitted n = true → s.slState n =
  slFenced → F.MCS_CTRL_LD_OPEN.get v = 1 → s.isSet (R.MCS_CTRL n) F.MCS_CTRL_LD_OPEN = false → Gives (.ldOpenWrite x n v)
  s (fun t => t.isSet (R.MCS_CTRL n) F.MCS_CTRL_LD_OPEN = true ∧ (t.cleOf n).staging = 0 ∧ t =
  { s with regs := t.regs, cle := t.cle })) ∧
  (∀ (s : State) (n : Slice), s.isSet (R.MCS_STAT n) F.MCS_STAT_CRC_BUSY = true → s.part.full = true → Gives (.crcComplete
  n) s (fun t => t.reg (R.MCS_LD_CRC n) = s.customerCrc n ∧ t.isSet (R.MCS_STAT n) F.MCS_STAT_CRC_BUSY = false ∧ t =
  { s with regs := t.regs, fns := t.fns })) ∧
  (∀ (s : State) (n : Slice) (w : BitVec 12) (v : MWord), s.scans n = true → s.getF (R.MCS_STAT n) F.MCS_STAT_SCAN_ADDR =
  w.toNat → parityOk (s.uword n w.toNat) = false → (s.readCopy n w.toNat).2 = some v → (((s.readCopy n w.toNat).1.setUword
  n w.toNat v).readCopy n w.toNat).2 = some v → parityOk v = true → Gives (.scanRepair n w false) s (fun t => t.uword n
  w.toNat = v ∧ t.getF (R.MCS_SCAN_REP n) F.MCS_SCAN_REP_ADDR = w.toNat ∧ t.isSet (R.MCS_STAT n) F.MCS_STAT_REPAIR_F =
  true)) ∧
  (∀ (s : State) (n : Slice) (k : CallSt), (s.cleOf n).call = some k → k.issuing = false → k.result = none → k.k < 128 →
  (s.cleOf n).blocked = false → (s.cleOf n).seqr.who = .none → s.lowestQueued n = none → (s.slState n = slReady ∨ s.slState
  n = slRunning) → Gives (.attachedCallIssue n) s (fun t => (t.cleOf n).call = some { k with issuing := true } ∧ (t.cleOf
  n).seqr.who = .call ∧ t.isSet (R.MCS_XSTAT n) F.MCS_XSTAT_RUN = true ∧ t = { s with regs := t.regs, cle := t.cle })) ∧
  (∀ (s : State) (n : Slice) (k : CallSt) (r : Cell), (s.cleOf n).call = some k → k.result = some r → Gives
  (.attachedCallComplete n true) s (fun t => (t.coreOf (pairOf n)).r.atag = r.tag ∧ ((t.coreOf (pairOf n)).r.a = (if r.tag
  = tagQ31 then r.v.signExtend 40 else r.v.setWidth 40)) ∧ (t.coreOf (pairOf n)).att = false ∧ (t.cleOf n).call = none ∧
  t.cells = s.cells)) ∧
  (∀ (s : State) (n : Slice) (k : CallSt) (r : Cell), s.fitted n = true → (s.cleOf n).call = some k → k.result = some r →
  s.slState n = slRunning → Gives (.attachedCallComplete n false) s (fun t => t.getF (R.CLE_MISMATCH n)
  F.CLE_MISMATCH_COUNT = min F.CLE_MISMATCH_COUNT.top (s.getF (R.CLE_MISMATCH n) F.CLE_MISMATCH_COUNT + 1) ∧ (t.ctlOf
  n).mcheck = true)) ∧
  (∀ (s : State) (n : Slice) (k : CallSt), (s.cleOf n).call = some k → s.getF (R.MCS_XCFG n) F.MCS_XCFG_TIMEOUT ≠ 0 → Gives
  (.attachedCallTimeout n) s (fun t => (t.coreOf (pairOf n)).r.atag = tagEmpty ∧ (t.cleOf n).call = none ∧ t.getF
  (R.MCS_XSTAT n) F.MCS_XSTAT_TIMEOUT = min F.MCS_XSTAT_TIMEOUT.top (s.getF (R.MCS_XSTAT n) F.MCS_XSTAT_TIMEOUT + 1)))

/-- PWM: reload points, phase changes, dead time, immediate activation and restart. Follows: R147, R149, R151, R152, R153,
R154, R155, R158, R160, R164, 08_pwm_generation.md. Beside the rules it rests on these choices of the model: logs 140, 183,
184, 185, 186, 187, 188, 194. -/
def Obligations.PwmCounterAndEdges : Prop :=
  (∀ (s : State) (n : Slice) (k : Fin 8), s.atValley n k = true → s.getF (R.PWM_CTRL n k) F.PWM_CTRL_RELOAD_MODE = 2 →
  s.getF (R.PWM_CTRL n k) F.PWM_CTRL_SYNC_SRC = 0 → (s.ctlOf n).goPending = false → Gives (.pwmValley n k) s (fun t =>
  t.actPer n k = s.getF (R.PWM_PER n k) F.PWM_PER_VALUE ∧ t.actDt n k = s.getF (R.PWM_DT n k) F.PWM_DT_VALUE ∧ (t.actCmp n
  k = (if s.getF (R.PWM_CMP n k) F.PWM_CMP_VALUE ≠ 0xFFFFFFF ∧ 16 * s.getF (R.PWM_PER n k) F.PWM_PER_VALUE ≤ s.getF
  (R.PWM_CMP n k) F.PWM_CMP_VALUE then 16 * s.getF (R.PWM_PER n k) F.PWM_PER_VALUE - 1 else s.getF (R.PWM_CMP n k)
  F.PWM_CMP_VALUE)) ∧ t.falling n k = false ∧ t.isSet (R.PWM_STAT n k) F.PWM_STAT_HALF_USED = false ∧ (s.tripReq n k = 0 →
  (s.pw n k).clearAt ≠ some s.clock → t.isSet (R.PWM_TRIP_STAT n k) F.PWM_TRIP_STAT_REARM_PEND = false) ∧ t.cells = s.cells
  ∧ t.core = s.core ∧ t.cle = s.cle)) ∧
  (∀ (s : State) (n : Slice) (k : Fin 8), s.atPeriod n k = true → Gives (.pwmPeriodPoint n k) s (fun t => t.falling n k =
  true ∧ t.getF (R.PWM_CNT n k) F.PWM_CNT_COUNT = s.actPer n k ∧ t.isSet (R.PWM_STAT n k) F.PWM_STAT_HALF_USED = false ∧
  t.actPer n k = s.actPer n k ∧ t.cells = s.cells ∧ t.core = s.core ∧ t.cle = s.cle)) ∧
  (∀ (s : State) (n : Slice) (k : Fin 8), s.changeOpen n k = true → s.changeCome n k = true → s.falling n k = false →
  s.actCmp n k ≠ 0xFFFFFFF → s.getF (R.PWM_CTRL n k) F.PWM_CTRL_PRESC = 0 → s.actDt n k ≠ 0 → s.actCmp n k ≠ 0 → 2 *
  s.actCmp n k + s.actDt n k < 32 * s.actPer n k → Gives (.phaseChange n k) s (fun t => t.isSet (R.PWM_STAT n k)
  F.PWM_STAT_PHASE_B = true ∧ t.isSet (R.PWM_STAT n k) F.PWM_STAT_HALF_USED = true ∧ t.isSet (R.PWM_STAT n k)
  F.PWM_STAT_OUT_A = false ∧ t.isSet (R.PWM_STAT n k) F.PWM_STAT_OUT_B = false ∧ t.isSet (R.PWM_STAT n k)
  F.PWM_STAT_DT_ACTIVE = true ∧ (t.pw n k).dt = true ∧ t.cells = s.cells ∧ t.core = s.core ∧ t.cle = s.cle)) ∧
  (∀ (s : State) (n : Slice) (k : Fin 8), s.changeOpen n k = true → s.changeCome n k = true → s.falling n k = false →
  s.actCmp n k ≠ 0xFFFFFFF → s.getF (R.PWM_CTRL n k) F.PWM_CTRL_PRESC = 0 → s.actCmp n k ≠ 0 → 32 * s.actPer n k ≤ 2 *
  s.actCmp n k + s.actDt n k → Gives (.phaseChange n k) s (fun t => t.isSet (R.PWM_STAT n k) F.PWM_STAT_PHASE_B = false ∧
  t.isSet (R.PWM_STAT n k) F.PWM_STAT_HALF_USED = true ∧ t.isSet (R.PWM_STAT n k) F.PWM_STAT_SWALLOW_F = true ∧ t.getF
  (R.PWM_SWALLOW n k) F.PWM_SWALLOW_B = min F.PWM_SWALLOW_B.top (s.getF (R.PWM_SWALLOW n k) F.PWM_SWALLOW_B + 1) ∧ t.isSet
  (R.PWM_STAT n k) F.PWM_STAT_OUT_A = s.isSet (R.PWM_STAT n k) F.PWM_STAT_OUT_A ∧ t.cells = s.cells ∧ t.core = s.core ∧
  t.cle = s.cle)) ∧
  (∀ (s : State) (n : Slice) (k : Fin 8), s.changeOpen n k = true → s.changeCome n k = true → s.falling n k = true →
  s.actCmp n k ≠ 0xFFFFFFF → s.getF (R.PWM_CTRL n k) F.PWM_CTRL_PRESC = 0 → s.actDt n k ≠ 0 → s.actDt n k < 2 * s.actCmp n
  k → Gives (.phaseChange n k) s (fun t => t.isSet (R.PWM_STAT n k) F.PWM_STAT_PHASE_B = false ∧ t.isSet (R.PWM_STAT n k)
  F.PWM_STAT_HALF_USED = true ∧ t.isSet (R.PWM_STAT n k) F.PWM_STAT_OUT_A = false ∧ t.isSet (R.PWM_STAT n k)
  F.PWM_STAT_OUT_B = false ∧ t.isSet (R.PWM_STAT n k) F.PWM_STAT_DT_ACTIVE = true ∧ (t.pw n k).dt = true ∧ t.cells =
  s.cells ∧ t.core = s.core ∧ t.cle = s.cle)) ∧
  (∀ (s : State) (n : Slice) (k : Fin 8), s.changeOpen n k = true → s.changeCome n k = true → s.falling n k = true →
  s.actCmp n k ≠ 0xFFFFFFF → s.getF (R.PWM_CTRL n k) F.PWM_CTRL_PRESC = 0 → 2 * s.actCmp n k ≤ s.actDt n k → Gives
  (.phaseChange n k) s (fun t => t.isSet (R.PWM_STAT n k) F.PWM_STAT_PHASE_B = true ∧ t.isSet (R.PWM_STAT n k)
  F.PWM_STAT_HALF_USED = true ∧ t.isSet (R.PWM_STAT n k) F.PWM_STAT_SWALLOW_F = true ∧ t.getF (R.PWM_SWALLOW n k)
  F.PWM_SWALLOW_A = min F.PWM_SWALLOW_A.top (s.getF (R.PWM_SWALLOW n k) F.PWM_SWALLOW_A + 1) ∧ t.isSet (R.PWM_STAT n k)
  F.PWM_STAT_OUT_B = s.isSet (R.PWM_STAT n k) F.PWM_STAT_OUT_B ∧ t.cells = s.cells ∧ t.core = s.core ∧ t.cle = s.cle)) ∧
  (∀ (s : State) (n : Slice) (k : Fin 8), (s.pw n k).dt = true → ((if s.isSet (R.PWM_STAT n k) F.PWM_STAT_PHASE_B = true
  then (s.pw n k).eoffA else (s.pw n k).eoffB) + s.actDt n k < 16 * (s.clock + 1)) → Gives (.deadTimeEnd n k) s (fun t =>
  (t.pw n k).dt = false ∧ t.isSet (R.PWM_STAT n k) F.PWM_STAT_OUT_A = !s.isSet (R.PWM_STAT n k) F.PWM_STAT_PHASE_B ∧
  t.isSet (R.PWM_STAT n k) F.PWM_STAT_OUT_B = s.isSet (R.PWM_STAT n k) F.PWM_STAT_PHASE_B ∧ t.isSet (R.PWM_STAT n k)
  F.PWM_STAT_DT_ACTIVE = false ∧ t.cells = s.cells ∧ t.core = s.core ∧ t.cle = s.cle)) ∧
  (∀ (s : State) (n : Slice) (k : Fin 8) (c v : Nat) (l : List (Nat × Nat)), (s.pw n k).staged = (c, v) :: l → c < 16 *
  (s.clock + 1) → v < 2 ^ 28 → Gives (.immediateActivation n k) s (fun t => (t.pw n k).staged = l ∧ (t.actCmp n k = (if v ≠
  0xFFFFFFF ∧ 16 * s.actPer n k ≤ v then 16 * s.actPer n k - 1 else v)) ∧ t.actPer n k = s.actPer n k ∧ t.cells = s.cells ∧
  t.core = s.core ∧ t.cle = s.cle)) ∧
  (∀ (s : State) (n : Slice) (k : Fin 8), (s.pw n k).restart = true → s.getF (R.PWM_CTRL n k) F.PWM_CTRL_SYNC_SRC = 0 → 150
  ≤ s.getF (R.PWM_PER n k) F.PWM_PER_VALUE → Gives (.counterRestart n k) s (fun t => (t.pw n k).restart = false ∧ t.actPer
  n k = s.getF (R.PWM_PER n k) F.PWM_PER_VALUE ∧ t.actDt n k = s.getF (R.PWM_DT n k) F.PWM_DT_VALUE ∧ t.getF (R.PWM_CNT n
  k) F.PWM_CNT_COUNT = 0 ∧ t.falling n k = false ∧ t.isSet (R.PWM_STAT n k) F.PWM_STAT_HALF_USED = false ∧ t.isSet
  (R.PWM_STAT n k) F.PWM_STAT_RUN = s.pwmRuns n k ∧ t.cells = s.cells ∧ t.core = s.core ∧ t.cle = s.cle)) ∧
  (∀ (s : State) (x : Access) (n : Slice) (k : Fin 8) (v : Word), s.reaches x (R.PWM_PER n k) = true → s.fitted n = true →
  150 ≤ v.toNat → v.toNat < 2 ^ 24 → Gives (.pwmShadowWrite x n k .per v) s (fun t => t.reg (R.PWM_PER n k) = v ∧ t.actPer
  n k = s.actPer n k ∧ t = { s with regs := t.regs })) ∧
  (∀ (s : State) (x : Access) (n : Slice) (k : Fin 8) (v : Word), s.reaches x (R.PWM_PER n k) = true → s.fitted n = true →
  v.toNat < 150 → Gives (.pwmShadowWrite x n k .per v) s (fun t => t.reg (R.PWM_PER n k) = s.reg (R.PWM_PER n k) ∧ t.getF
  (R.PWM_CFG_REJ n k) F.PWM_CFG_REJ_COUNT = min F.PWM_CFG_REJ_COUNT.top (s.getF (R.PWM_CFG_REJ n k) F.PWM_CFG_REJ_COUNT +
  1) ∧ t = { s with regs := t.regs })) ∧
  (∀ (s : State) (x : Access) (n : Slice) (k : Fin 8) (v : Word), s.reaches x (R.PWM_CMP n k) = true → s.fitted n = true →
  v.toNat < 2 ^ 28 → Gives (.pwmShadowWrite x n k .cmp v) s (fun t => t.reg (R.PWM_CMP n k) = v ∧ t.actCmp n k = s.actCmp n
  k ∧ ((t.pw n k).staged = (if s.getF (R.PWM_CTRL n k) F.PWM_CTRL_RELOAD_MODE = 3 then (s.pw n k).staged ++ [(16 * (s.clock
  + 3), v.toNat)] else (s.pw n k).staged)) ∧ t = { s with regs := t.regs, pwm := t.pwm })) ∧
  (∀ (s : State) (x : Access) (n : Slice) (k : Fin 8) (v : Word), s.reaches x (R.PWM_DT n k) = true → s.fitted n = true →
  v.toNat < 2 ^ 20 → Gives (.pwmShadowWrite x n k .dt v) s (fun t => t.reg (R.PWM_DT n k) = v ∧ t.actDt n k = s.actDt n k ∧
  t = { s with regs := t.regs }))

/-- Trips: latching, clearing, forcing and the trip inputs. Follows: R166, R167, R168, R169, R170, R171, R176, R497,
09_trips_and_safe_outputs.md. Beside the rules it rests on these choices of the model: logs 5, 174. -/
def Obligations.TripsAndSafeOutputs : Prop :=
  (∀ (s : State) (n : Slice) (k : Fin 8), s.fitted n = true → s.tripReq n k ≠ 0 → s.isSet (R.PWM_TRIP_STAT n k)
  F.PWM_TRIP_STAT_TRIPPED = false → Gives (.tripLatch n k) s (fun t => t.isSet (R.PWM_TRIP_STAT n k)
  F.PWM_TRIP_STAT_TRIPPED = true ∧ t.reg (R.PWM_TRIP_SRC n k) = s.tripReq n k ∧ t.getF (R.PWM_TRIP_STAT n k)
  F.PWM_TRIP_STAT_FIRST_SRC = lowestBit (s.tripReq n k) ∧ t.reg (R.PWM_TRIP_TIME n k) = s.mtime.setWidth 32 ∧ t.getF
  (R.PWM_TRIP_CNT n k) F.PWM_TRIP_CNT_VALUE = min F.PWM_TRIP_CNT_VALUE.top (s.getF (R.PWM_TRIP_CNT n k)
  F.PWM_TRIP_CNT_VALUE + 1) ∧ (s.getF (R.PWM_TRIP_CFG n k) F.PWM_TRIP_CFG_TRIP_ACT = 0 → t.PinsLow n k) ∧ t.cells = s.cells
  ∧ t.core = s.core ∧ t.cle = s.cle)) ∧
  (∀ (s : State) (x : Access) (n : Slice) (k : Fin 8) (cmd : Bool), s.isSet (R.PWM_TRIP_STAT n k) F.PWM_TRIP_STAT_TRIPPED =
  true → s.tripReq n k = 0 → (cmd = true → s.isSet (R.PWM_TRIP_EN n k) F.PWM_TRIP_EN_CMD = false) → s.reaches x
  (R.PWM_TRIP_CMD n k) = true → s.fitted n = true → Gives (.tripClear x n ⟨k, cmd⟩) s (fun t => t.isSet (R.PWM_TRIP_STAT n
  k) F.PWM_TRIP_STAT_TRIPPED = false ∧ t.reg (R.PWM_TRIP_SRC n k) = 0 ∧ t.isSet (R.PWM_TRIP_STAT n k)
  F.PWM_TRIP_STAT_REARM_PEND = true ∧ t.cells = s.cells ∧ t.core = s.core ∧ t.cle = s.cle)) ∧
  (∀ (s : State) (x : Access) (n : Slice) (k : Fin 8), s.isSet (R.PWM_TRIP_STAT n k) F.PWM_TRIP_STAT_TRIPPED = true →
  s.tripReq n k ≠ 0 → s.reaches x (R.PWM_TRIP_CMD n k) = true → s.fitted n = true → Gives (.tripClear x n ⟨k, false⟩) s
  (fun t => t.isSet (R.PWM_TRIP_STAT n k) F.PWM_TRIP_STAT_TRIPPED = true ∧ t.isSet (R.PWM_TRIP_STAT n k)
  F.PWM_TRIP_STAT_TRIP_CLEAR_REJ = true ∧ t.getF (R.PWM_TRIP_REJ n k) F.PWM_TRIP_REJ_VALUE = min F.PWM_TRIP_REJ_VALUE.top
  (s.getF (R.PWM_TRIP_REJ n k) F.PWM_TRIP_REJ_VALUE + 1) ∧ t = { s with regs := t.regs })) ∧
  (∀ (s : State) (x : Access) (n : Slice) (k : Fin 8), s.isSet (R.PWM_TRIP_EN n k) F.PWM_TRIP_EN_CMD = true → s.reaches x
  (R.PWM_TRIP_CMD n k) = true → s.fitted n = true → Gives (.tripClear x n ⟨k, true⟩) s (fun t => t.isSet (R.PWM_TRIP_STAT n
  k) F.PWM_TRIP_STAT_TRIPPED = true ∧ t.isSet (R.PWM_TRIP_STAT n k) F.PWM_TRIP_STAT_TRIP_CLEAR_REJ = true ∧ (t.reg
  (R.PWM_TRIP_SRC n k)).getLsbD 19 = true ∧ t.cells = s.cells ∧ t.core = s.core ∧ t.cle = s.cle)) ∧
  (∀ (s : State) (x : Access) (n : Slice) (k : Fin 8), s.isSet (R.PWM_TRIP_STAT n k) F.PWM_TRIP_STAT_TRIPPED = false →
  s.isSet (R.PWM_TRIP_EN n k) F.PWM_TRIP_EN_CMD = true → s.reaches x (R.PWM_TRIP_CMD n k) = true → s.fitted n = true →
  Gives (.tripForce x n k) s (fun t => t.isSet (R.PWM_TRIP_STAT n k) F.PWM_TRIP_STAT_TRIPPED = true ∧ (t.reg
  (R.PWM_TRIP_SRC n k)).getLsbD 19 = true ∧ t.reg (R.PWM_TRIP_TIME n k) = s.mtime.setWidth 32 ∧ t.cells = s.cells ∧ t.core
  = s.core ∧ t.cle = s.cle)) ∧
  (∀ (s : State) (x : Access) (n : Slice) (k : Fin 8) (mask : BitVec 8), s.reaches x (R.SLC_TRIP n) = true → s.fitted n =
  true → mask.getLsbD k = true → s.isSet (R.PWM_TRIP_EN n k) F.PWM_TRIP_EN_CMD = true → Gives (.slcTrip x n mask) s (fun t
  => t.isSet (R.PWM_TRIP_STAT n k) F.PWM_TRIP_STAT_TRIPPED = true ∧ (t.reg (R.PWM_TRIP_SRC n k)).getLsbD 19 = true ∧
  t.cells = s.cells ∧ t.core = s.core ∧ t.cle = s.cle)) ∧
  (∀ (s : State) (n : Slice) (i : Fin 4) (pin : Bool), s.fitted n = true → Gives (.tripInputFilterPass n i pin) s (fun t =>
  t.isSet (R.SLC_TRIPIN n i) F.SLC_TRIPIN_LEVEL = (pin == s.isSet (R.SLC_TRIPIN n i) F.SLC_TRIPIN_POL) ∧ t =
  { s with regs := t.regs, ctl := t.ctl })) ∧
  (∀ (s : State) (n : Slice) (k : Fin 8), (s.pw n k).line = 3 → s.dtPassed n k (16 * s.clock + 15) (s.pw n k).offB = true →
  (s.pw n k).pinB = false → s.isSet (R.PWM_STAT n k) F.PWM_STAT_OUT_A = true → s.isSet (R.PWM_STAT n k) F.PWM_STAT_OUT_B =
  false → Gives (.tripStageTurnOn n k) s (fun t => (t.pw n k).pinA = true ∧ (t.pw n k).pinB = false ∧ t.cells = s.cells ∧
  t.core = s.core ∧ t.cle = s.cle)) ∧
  (∀ (s : State) (x : Access) (n : Slice) (k : Fin 8) (v : Word), s.reaches x (R.PWM_TRIP_EN n k) = true → s.fitted n =
  true → v &&& 0x00000FFF = 0 → v &&& 0x000FF000 = v → Gives (.tripEnableWrite x n k v) s (fun t => t.reg (R.PWM_TRIP_EN n
  k) = v ∧ t = { s with regs := t.regs })) ∧
  (∀ (s : State) (x : Access) (n : Slice) (i : Fin 4) (v : Word) (pin : Bool), s.reaches x (R.SLC_TRIPIN n i) = true →
  s.fitted n = true → s.slState n = slFenced → v &&& 0x1FF = v → (F.SLC_TRIPIN_POL.get v ≠ s.getF (R.SLC_TRIPIN n i)
  F.SLC_TRIPIN_POL ∨ F.SLC_TRIPIN_FILT.get v ≠ s.getF (R.SLC_TRIPIN n i) F.SLC_TRIPIN_FILT) → Gives (.tripinConfigWrite x n
  i ⟨v, pin⟩) s (fun t => t.getF (R.SLC_TRIPIN n i) F.SLC_TRIPIN_POL = F.SLC_TRIPIN_POL.get v ∧ t.getF (R.SLC_TRIPIN n i)
  F.SLC_TRIPIN_FILT = F.SLC_TRIPIN_FILT.get v ∧ t.isSet (R.SLC_TRIPIN n i) F.SLC_TRIPIN_LEVEL = (pin == decide
  (F.SLC_TRIPIN_POL.get v = 1)) ∧ t = { s with regs := t.regs, ctl := t.ctl })) ∧
  (∀ (s : State) (x : Access) (n : Slice) (i : Fin 4) (v : Word) (pin : Bool), s.reaches x (R.SLC_TRIPIN n i) = true →
  s.fitted n = true → s.slState n ≠ slFenced → F.SLC_TRIPIN_POL.get v ≠ s.getF (R.SLC_TRIPIN n i) F.SLC_TRIPIN_POL → Gives
  (.tripinConfigWrite x n i ⟨v, pin⟩) s (fun t => t.reg (R.SLC_TRIPIN n i) = s.reg (R.SLC_TRIPIN n i) ∧ t.getF
  (R.SLC_CFG_REJ n) F.SLC_CFG_REJ_COUNT = min F.SLC_CFG_REJ_COUNT.top (s.getF (R.SLC_CFG_REJ n) F.SLC_CFG_REJ_COUNT + 1) ∧
  t = { s with regs := t.regs }))

/-- Capture channels and the encoder. Follows: R174, R175, 09_trips_and_safe_outputs.md. Beside the rules it rests on these
choices of the model: log 154. -/
def Obligations.CaptureAndEncoder : Prop :=
  (∀ (s : State) (n : Slice) (c : Fin 4) (rise l : Bool), s.powered n = true → s.capWin n c = none → l = (rise != s.isSet
  (R.SLC_CAPCFG n c) F.SLC_CAPCFG_POL) → (s.capOf n c).level = !l → (natBit (s.getF (R.SLC_CAPCFG n c) F.SLC_CAPCFG_EDGE)
  (if l = true then 0 else 1) = true) → (s.capOf n c).fifo.length < 4 → Gives (.captureEdge n c rise) s (fun t => (t.capOf
  n c).fifo = (s.capOf n c).fifo ++ [s.mtime.setWidth 32] ∧ (t.capOf n c).level = l ∧ t.getF (R.SLC_CAPSTAT n c)
  F.SLC_CAPSTAT_LEVEL = (s.capOf n c).fifo.length + 1 ∧ t.cells = s.cells ∧ t.core = s.core ∧ t.cle = s.cle)) ∧
  (∀ (s : State) (n : Slice) (c : Fin 4) (i : Slice), s.powered n = true → s.capWin n c = some i → s.winLine n i = true →
  (s.capOf n c).level = false → natBit (s.getF (R.SLC_CAPCFG n c) F.SLC_CAPCFG_EDGE) 0 = true → (s.capOf n c).fifo.length <
  4 → Gives (.captureEdge n c true) s (fun t => (t.capOf n c).fifo = (s.capOf n c).fifo ++ [s.mtime.setWidth 32] ∧ (t.capOf
  n c).level = true ∧ t.cells = s.cells ∧ t.core = s.core ∧ t.cle = s.cle)) ∧
  (∀ (s : State) (n : Slice) (c : Fin 4) (rise l : Bool), s.powered n = true → s.capWin n c = none → l = (rise != s.isSet
  (R.SLC_CAPCFG n c) F.SLC_CAPCFG_POL) → (s.capOf n c).level = !l → (natBit (s.getF (R.SLC_CAPCFG n c) F.SLC_CAPCFG_EDGE)
  (if l = true then 0 else 1) = true) → 4 ≤ (s.capOf n c).fifo.length → Gives (.captureEdge n c rise) s (fun t => (t.capOf
  n c).fifo = (s.capOf n c).fifo ∧ t.getF (R.SLC_CAPSTAT n c) F.SLC_CAPSTAT_OVF = min F.SLC_CAPSTAT_OVF.top (s.getF
  (R.SLC_CAPSTAT n c) F.SLC_CAPSTAT_OVF + 1) ∧ t = { s with regs := t.regs, cap := t.cap })) ∧
  (∀ (s : State) (x : Access) (n : Slice) (c : Fin 4), s.answers x (R.SLC_CAPTS n c) = true → s.fitted n = true → x.m ≠
  .mon → Gives (.captureFifoRead x n c) s (fun t => t.busOut = (s.capOf n c).fifo.headD 0 ∧ (t.capOf n c).fifo = (s.capOf n
  c).fifo.drop 1 ∧ t = { s with regs := t.regs, cap := t.cap, busOut := t.busOut })) ∧
  (∀ (s : State) (n : Slice) (a b : Bool), s.powered n = true → s.isSet (R.SLC_ENC n) F.SLC_ENC_EN = true → s.captureSees n
  0 a = true → s.captureSees n 1 b = false → Gives (.encoderStep n a b) s (fun t => (t.reg (R.SLC_ENC_POS n) = (if a =
  (s.capOf n 1).level then s.reg (R.SLC_ENC_POS n) - 1 else s.reg (R.SLC_ENC_POS n) + 1)) ∧ (t.capOf n 0).level = a ∧
  (t.capOf n 1).level = (s.capOf n 1).level ∧ t.cells = s.cells ∧ t.core = s.core ∧ t.cle = s.cle)) ∧
  (∀ (s : State) (n : Slice) (a b : Bool), s.powered n = true → s.isSet (R.SLC_ENC n) F.SLC_ENC_EN = true → s.captureSees n
  0 a = false → s.captureSees n 1 b = true → Gives (.encoderStep n a b) s (fun t => (t.reg (R.SLC_ENC_POS n) = (if b =
  (s.capOf n 0).level then s.reg (R.SLC_ENC_POS n) + 1 else s.reg (R.SLC_ENC_POS n) - 1)) ∧ (t.capOf n 1).level = b ∧
  (t.capOf n 0).level = (s.capOf n 0).level ∧ t.cells = s.cells ∧ t.core = s.core ∧ t.cle = s.cle)) ∧
  (∀ (s : State) (n : Slice) (a b : Bool), s.powered n = true → s.isSet (R.SLC_ENC n) F.SLC_ENC_EN = true → s.captureSees n
  0 a = true → s.captureSees n 1 b = true → Gives (.encoderStep n a b) s (fun t => t.reg (R.SLC_ENC_POS n) = s.reg
  (R.SLC_ENC_POS n) ∧ t.getF (R.SLC_ENC n) F.SLC_ENC_ENC_ERR = min F.SLC_ENC_ENC_ERR.top (s.getF (R.SLC_ENC n)
  F.SLC_ENC_ENC_ERR + 1) ∧ (t.capOf n 0).level = a ∧ (t.capOf n 1).level = b ∧ t.cells = s.cells ∧ t.core = s.core ∧ t.cle
  = s.cle))

/-- No step turns both outputs of a channel on. Follows: R154, R167, 08_pwm_generation.md, 09_trips_and_safe_outputs.md. -/
def Obligations.OutputsNeverOverlap : Prop :=
  (∀ (s t : State) (c : Instr), (∀ (n : Slice) (k : Fin 8), ¬ ((s.pw n k).pinA = true ∧ (s.pw n k).pinB = true)) → exec c s
  = .next t → ∀ (n : Slice) (k : Fin 8), ¬ ((t.pw n k).pinA = true ∧ (t.pw n k).pinB = true)) ∧
  (∀ (s t : State), (∀ (n : Slice) (k : Fin 8), ¬ ((s.pw n k).pinA = true ∧ (s.pw n k).pinB = true)) → step s = .next t → ∀
  (n : Slice) (k : Fin 8), ¬ ((t.pw n k).pinA = true ∧ (t.pw n k).pinB = true))

/-- Injection: start, stop, capture records and limits. Follows: R190, R191, R192, R193, R194,
11_loop_tuning_by_injection.md. Beside the rules it rests on these choices of the model: logs 15, 24, 64, 90, 141. -/
def Obligations.InjectionRuns : Prop :=
  (∀ (s : State) (x : Access) (n : Slice) (v : Word) (j : Nat), s.reaches x (R.INJ_CTRL n) = true → s.fitted n = true → j =
  F.INJ_CTRL_LOOP.get v → s.isSet (R.INJ_STAT n) F.INJ_STAT_RUN = false → (s.slState n = slReady ∨ s.slState n = slRunning)
  → s.isSet (R.CLE_LCTRL n j) F.CLE_LCTRL_EN = true → (s.mode = mdService ∨ (x.test = true ∧ s.getF (R.INJ_LIM n j)
  F.INJ_LIM_LIM ≠ 0)) → (s.getF (R.INJ_LIM n j) F.INJ_LIM_LIM = 0 ∨ s.getF (R.INJ_SIG n) F.INJ_SIG_AMP ≤ s.getF (R.INJ_LIM
  n j) F.INJ_LIM_LIM) → (F.INJ_CTRL_SHAPE.get v = 0 ∨ (F.INJ_CTRL_SHAPE.get v = 1 ∧ F.INJ_CTRL_CORR_EN.get v = 0)) →
  F.INJ_CTRL_NODE.get v ≠ 3 → F.INJ_CTRL_STOP.get v = 0 → Gives (.injectionStart x n v) s (fun t => t.isSet (R.INJ_STAT n)
  F.INJ_STAT_RUN = true ∧ t.isSet (R.INJ_STAT n) F.INJ_STAT_CORR_BUSY = decide (F.INJ_CTRL_CORR_EN.get v = 1) ∧ t.getF
  (R.INJ_CTRL n) F.INJ_CTRL_LOOP = j ∧ (t.injOf n).phi = 0 ∧ (t.injOf n).samples = 0 ∧ t =
  { s with regs := t.regs, inj := t.inj })) ∧
  (∀ (s : State) (x : Access) (n : Slice) (v : Word), s.reaches x (R.INJ_CTRL n) = true → s.fitted n = true → s.isSet
  (R.INJ_STAT n) F.INJ_STAT_RUN = true → F.INJ_CTRL_STOP.get v = 0 → Gives (.injectionStart x n v) s (fun t => t.getF
  (R.INJ_REJ n) F.INJ_REJ_COUNT = min F.INJ_REJ_COUNT.top (s.getF (R.INJ_REJ n) F.INJ_REJ_COUNT + 1) ∧ t.isSet (R.INJ_STAT
  n) F.INJ_STAT_REJ_F = true ∧ t.reg (R.INJ_CTRL n) = s.reg (R.INJ_CTRL n) ∧ t = { s with regs := t.regs })) ∧
  (∀ (s : State) (x : Access) (n : Slice), s.reaches x (R.INJ_CTRL n) = true → s.fitted n = true → s.isSet (R.INJ_STAT n)
  F.INJ_STAT_RUN = true → Gives (.injectionStop x n) s (fun t => t.isSet (R.INJ_STAT n) F.INJ_STAT_RUN = false ∧ t.isSet
  (R.INJ_STAT n) F.INJ_STAT_CORR_BUSY = false ∧ t.getF (R.INJ_STAT n) F.INJ_STAT_STOP_CAUSE = 2 ∧ t.isSet (R.INJ_CTRL n)
  F.INJ_CTRL_START = false ∧ t.cells = s.cells ∧ t.core = s.core ∧ t.pwm = s.pwm)) ∧
  (∀ (s : State) (n : Slice) (r : Rec) (q : List Rec) (a : Nat), (s.injOf n).queue = r :: q → a = smem n (4 * s.getF
  (R.INJ_CAP n) F.INJ_CAP_BASE + 4 * s.getF (R.INJ_CIDX n) F.INJ_CIDX_INDEX) → Gives (.injCaptureRecordWrite n) s (fun t =>
  t.cell a = r.c0 ∧ (t.injOf n).queue = q ∧ t.getF (R.INJ_CIDX n) F.INJ_CIDX_INDEX = (s.getF (R.INJ_CIDX n)
  F.INJ_CIDX_INDEX + 1) % 2 ^ s.getF (R.INJ_CAP n) F.INJ_CAP_LOG2LEN % 2 ^ F.INJ_CIDX_INDEX.width ∧ s.CellsKept t (· ==
  a))) ∧
  (∀ (s : State) (x : Access) (n : Slice) (j : Fin 16) (v : Word), s.reaches x (R.INJ_LIM n j) = true → s.fitted n = true →
  (s.slState n = slFenced ∨ s.mode = mdService) → s.isSet (R.INJ_STAT n) F.INJ_STAT_RUN = false → Gives (.injLimWrite x n j
  v) s (fun t => t.reg (R.INJ_LIM n j) = v &&& 0x0000FFFF ∧ t = { s with regs := t.regs })) ∧
  (∀ (s : State) (x : Access) (n : Slice) (j : Fin 16) (v : Word), s.reaches x (R.INJ_LIM n j) = true → s.fitted n = true →
  s.slState n ≠ slFenced → s.mode ≠ mdService → Gives (.injLimWrite x n j v) s (fun t => t.reg (R.INJ_LIM n j) = s.reg
  (R.INJ_LIM n j) ∧ t.isSet (R.INJ_STAT n) F.INJ_STAT_REJ_F = true ∧ t = { s with regs := t.regs }))

/-- The metering converter: boundaries, results, records, requests and the reference. Follows: R195, R196, R197, R199,
R200, R201, R204, 12_metering_converter.md. Beside the rules it rests on these choices of the model: logs 26, 142, 205,
206. -/
def Obligations.MeteringConverter : Prop :=
  (∀ (s : State) (a : Nat), s.mode ≠ mdStabled → s.getF R.MAD_CTRL F.MAD_CTRL_PERIOD_MODE = 0 → s.mad.crossed = some a →
  21429000 ≤ s.clock - a → s.clock - a ≤ 100000500 → Gives (.zeroCrossing) s (fun t => t.isSet R.MAD_STAT F.MAD_STAT_LOCKED
  = true ∧ t.isSet R.MAD_STAT F.MAD_STAT_LINE_LOST = false ∧ t.mad.due = true ∧ t.mad.crossed = some s.clock ∧ t.mad.dueAt
  = s.clock ∧ t = { s with regs := t.regs, mad := t.mad })) ∧
  (∀ (s : State) (a : Nat), s.mad.crossed = some a → s.clock - a < 21429000 → Gives (.zeroCrossing) s (fun t => t = s)) ∧
  (∀ (s : State) (rs : Vector RawResult 4) (u : Fin 4) (cv : MadConv), s.mode ≠ mdStabled → s.getF R.MAD_CTRL F.MAD_CTRL_EN
  ≠ 0 → s.madDue = true → s.mad.conv.get u = some cv → (∀ w : Fin 4, w ≠ u → s.mad.conv.get w = none) → cv.ch < 16 →
  cv.urgent = false → Gives (.madBoundary rs) s (fun t => F.MAD_LAST_VALUE.get (t.reg (R.MAD_LAST cv.ch)) = ofSigned 24
  (satS 24 (((satS 24 (rs.get u).raw - toSigned 24 (s.getF (R.MAD_OFFS cv.ch) F.MAD_OFFS_OFFS)) * (s.reg (R.MAD_GAIN
  cv.ch)).toInt + 2 ^ 29) / 2 ^ 30)) ∧ t.mad.last = some s.clock ∧ t.mad.due = false ∧ t =
  { s with regs := t.regs, mad := t.mad })) ∧
  (∀ (s : State) (rs : Vector RawResult 4) (a : Nat), s.mode ≠ mdStabled → s.mad.mark = some a → a + 100000500 ≤ s.clock →
  s.mad.due = false → s.getF R.MAD_CTRL F.MAD_CTRL_PERIOD_MODE = 0 → s.isSet R.MAD_STAT F.MAD_STAT_LOCKED = true → s.getF
  R.MAD_CTRL F.MAD_CTRL_EN ≠ 0 → Gives (.lineLost rs) s (fun t => t.isSet R.MAD_STAT F.MAD_STAT_LINE_LOST = true ∧ t.isSet
  R.MAD_STAT F.MAD_STAT_LINE_LOST_F = true ∧ t.isSet R.MAD_STAT F.MAD_STAT_LOCKED = false ∧ t.mad.last = some s.clock ∧
  t.cells = s.cells)) ∧
  (∀ (s : State) (r : Vector Cell 4) (q : List (Vector Cell 4)) (a : Nat), s.mad.queue = r :: q → a = 0x0E000000 + 16 *
  s.getF R.MAD_BUF F.MAD_BUF_BASE + 16 * s.getF R.MAD_WIDX F.MAD_WIDX_INDEX → a + 16 ≤ 0x0E728000 → (s.getF R.MAD_WIDX
  F.MAD_WIDX_INDEX + 1) % 2 ^ s.getF R.MAD_BUF F.MAD_BUF_LOG2LEN ≠ s.getF R.MAD_RIDX F.MAD_RIDX_INDEX → s.getF R.MAD_BUF
  F.MAD_BUF_LOG2LEN ≤ 15 → Gives (.madRecordWrite) s (fun t => (∀ i : Fin 4, t.cell (a + 4 * i.val) = r.get i) ∧
  t.mad.queue = q ∧ t.getF R.MAD_WIDX F.MAD_WIDX_INDEX = (s.getF R.MAD_WIDX F.MAD_WIDX_INDEX + 1) % 2 ^ s.getF R.MAD_BUF
  F.MAD_BUF_LOG2LEN ∧ (∀ b, b < a ∨ a + 16 ≤ b → t.cell b = s.cell b))) ∧
  (∀ (s : State) (x : Access) (v : Word) (ch : Nat), s.reaches x R.MAD_URG = true → F.MAD_URG_REQ.get v = 1 → ch =
  F.MAD_URG_CH.get v → ch < s.madChannels → s.isSet R.MAD_URG_STAT F.MAD_URG_STAT_PEND = false → s.madEn (ch / 4) = true →
  (s.getF R.MAD_CTRL F.MAD_CTRL_PERIOD_MODE ≠ 0 ∨ s.isSet R.MAD_STAT F.MAD_STAT_LOCKED = true) → Gives (.urgentRequest x v)
  s (fun t => t.isSet R.MAD_URG_STAT F.MAD_URG_STAT_PEND = true ∧ t.getF R.MAD_URG_STAT F.MAD_URG_STAT_STATUS = 0 ∧ t.getF
  R.MAD_URG_STAT F.MAD_URG_STAT_CH = ch ∧ t.mad.urg = some ch ∧ t = { s with regs := t.regs, mad := t.mad })) ∧
  (∀ (s : State), s.mode ≠ mdStabled → Gives (.refSettled) s (fun t => t.isSet R.MAD_STAT F.MAD_STAT_REF_SETTLED = true ∧
  t.isSet R.MAD_STAT F.MAD_STAT_REF_FAULT = false ∧ t = { s with regs := t.regs })) ∧
  (∀ (s : State), s.mode ≠ mdStabled → s.getF R.MAD_CTRL F.MAD_CTRL_REF_SEL = 1 → Gives (.refFault) s (fun t => t.isSet
  R.MAD_STAT F.MAD_STAT_REF_SETTLED = false ∧ t.isSet R.MAD_STAT F.MAD_STAT_REF_FAULT = true ∧ t.isSet R.MAD_STAT
  F.MAD_STAT_REF_FAULT_F = true ∧ t = { s with regs := t.regs })) ∧
  (∀ (s : State) (x : Access) (v : Word), s.reaches x R.MAD_CTRL = true → s.part ≠ .esk7208 → s.getF R.MAD_CTRL
  F.MAD_CTRL_EN = 0 → F.MAD_CTRL_REF_SEL.get v ≠ 3 → Gives (.madUnitEnable x v) s (fun t => t.reg R.MAD_CTRL = v &&&
  0x0F310F0F ∧ (F.MAD_CTRL_EN.get v ≠ 0 → t.isSet R.MAD_STAT F.MAD_STAT_REF_SETTLED = false) ∧ t =
  { s with regs := t.regs, mad := t.mad })) ∧
  (∀ (s : State) (x : Access) (v : Word), s.reaches x R.MAD_SCAN = true → s.part ≠ .esk7208 → Gives (.madScanWrite x v) s
  (fun t => t.reg R.MAD_SCAN = v &&& 0x0000FFFF ∧ t.mad.fresh = true ∧ t = { s with regs := t.regs, mad := t.mad }))

/-- LDA, LDX and LDY: the register takes the operand cell, and nothing else but the PC and the loop changes. Follows: R209,
R211, R212, R217, R222, R239, 13_knankoeg_instruction_set.md. Beside the rules it rests on these choices of the model: logs
102, 103, 104, 106. -/
def Obligations.CoreLoads : Prop :=
  (∀ (s : State) (p : Pair) (i : Kn) (n ea : Nat) (c : Cell), s.issues p i = true → i.op = .lda → (s.issue p).operand p i =
  some (n, ea) → s.canLoad p n ea c = true → Gives (.lda p) s (fun t => t.kr p =
  { s.onward p with a := extendCell c, atag := c.tag } ∧ s.KnOnly t p)) ∧
  (∀ (s : State) (p : Pair) (i : Kn) (n ea : Nat) (c : Cell), s.issues p i = true → i.op = .ldx → (s.issue p).operand p i =
  some (n, ea) → s.canLoad p n ea c = true → Gives (.ldx p) s (fun t => t.kr p = { s.onward p with x := c } ∧ s.KnOnly t
  p)) ∧
  (∀ (s : State) (p : Pair) (i : Kn) (n ea : Nat) (c : Cell), s.issues p i = true → i.op = .ldy → (s.issue p).operand p i =
  some (n, ea) → s.canLoad p n ea c = true → Gives (.ldy p) s (fun t => t.kr p = { s.onward p with y := c } ∧ s.KnOnly t
  p)) ∧
  (∀ (s : State) (p : Pair) (i : Kn) (n ea : Nat) (v : State) (w : Word), s.issues p i = true → i.op = .lda → (s.issue
  p).operand p i = some (n, ea) → (s.issue p).eaFault p ((s.issue p).quadAt p n) ea 4 4 [pRead] = none → (s.issue
  p).pairBars p (pairAccess p ((s.issue p).quadAt p n)) ea false 0 = none → spaceOf ea = .reg → s.sbClear p ea 4 = true →
  (s.issue p).absentSlice ea = false → (s.fetched p).busRead (pairAccess p ((s.issue p).quadAt p n)) ea = some (v, w) →
  v.coreOf p = (s.fetched p).coreOf p → Gives (.lda p) s (fun t => t.kr p =
  { s.onward p with a := extendCell ⟨w, regTag ea⟩, atag := regTag ea } ∧ t.cells = v.cells ∧ v.RegsKept t (· == R.KC_CSEL
  p))) ∧
  (∀ (s : State) (p : Pair) (i : Kn) (n ea : Nat) (c : Cell), s.issues p i = true → i.op = .lda → (s.issue p).operand p i =
  some (n, ea) → (s.issue p).eaFault p ((s.issue p).quadAt p n) ea 4 4 [pRead] = none → (s.issue p).pairBars p (pairAccess
  p ((s.issue p).quadAt p n)) ea false 0 = none → isCells ea = true → (s.issue p).absentSlice ea = false → (s.issue
  p).absentMain ea = false → (s.issue p).accessWaits ea = false → s.sbClear p ea 4 = true → (inMain ea = true → (s.issue
  p).pageSet ea = true) → (s.issue p).mark ea = some false → c = s.cell ea → operandTag ((s.issue p).quadAt p n) c.tag =
  none → Gives (.lda p) s (fun t => t.kr p = { s.onward p with a := extendCell c, atag := c.tag } ∧ t.cells = s.cells)) ∧
  (∀ (s : State) (p : Pair) (i : Kn) (n ea code : Nat), s.issues p i = true → i.op = .lda → (s.issue p).operand p i = some
  (n, ea) → (s.issue p).eaFault p ((s.issue p).quadAt p n) ea 4 4 [pRead] = some code → spaceOf ea ≠ .reg → Gives (.lda p)
  s (fun t => t = (s.fetched p).faultEntry p code ea)) ∧
  (∀ (s : State) (p : Pair) (i : Kn) (n ea : Nat) (v : State) (w : Word), s.issues p i = true → i.op = .ldx → (s.issue
  p).operand p i = some (n, ea) → (s.issue p).eaFault p ((s.issue p).quadAt p n) ea 4 4 [pRead] = none → (s.issue
  p).pairBars p (pairAccess p ((s.issue p).quadAt p n)) ea false 0 = none → spaceOf ea = .reg → s.sbClear p ea 4 = true →
  (s.issue p).absentSlice ea = false → (s.fetched p).busRead (pairAccess p ((s.issue p).quadAt p n)) ea = some (v, w) →
  v.coreOf p = (s.fetched p).coreOf p → Gives (.ldx p) s (fun t => t.kr p = { s.onward p with x := ⟨w, regTag ea⟩ } ∧
  t.cells = v.cells ∧ v.RegsKept t (· == R.KC_CSEL p))) ∧
  (∀ (s : State) (p : Pair) (i : Kn) (n ea : Nat) (c : Cell), s.issues p i = true → i.op = .ldx → (s.issue p).operand p i =
  some (n, ea) → (s.issue p).eaFault p ((s.issue p).quadAt p n) ea 4 4 [pRead] = none → (s.issue p).pairBars p (pairAccess
  p ((s.issue p).quadAt p n)) ea false 0 = none → isCells ea = true → (s.issue p).absentSlice ea = false → (s.issue
  p).absentMain ea = false → (s.issue p).accessWaits ea = false → s.sbClear p ea 4 = true → (inMain ea = true → (s.issue
  p).pageSet ea = true) → (s.issue p).mark ea = some false → c = s.cell ea → operandTag ((s.issue p).quadAt p n) c.tag =
  none → Gives (.ldx p) s (fun t => t.kr p = { s.onward p with x := c } ∧ t.cells = s.cells)) ∧
  (∀ (s : State) (p : Pair) (i : Kn) (n ea code : Nat), s.issues p i = true → i.op = .ldx → (s.issue p).operand p i = some
  (n, ea) → (s.issue p).eaFault p ((s.issue p).quadAt p n) ea 4 4 [pRead] = some code → spaceOf ea ≠ .reg → Gives (.ldx p)
  s (fun t => t = (s.fetched p).faultEntry p code ea)) ∧
  (∀ (s : State) (p : Pair) (i : Kn) (n ea : Nat) (v : State) (w : Word), s.issues p i = true → i.op = .ldy → (s.issue
  p).operand p i = some (n, ea) → (s.issue p).eaFault p ((s.issue p).quadAt p n) ea 4 4 [pRead] = none → (s.issue
  p).pairBars p (pairAccess p ((s.issue p).quadAt p n)) ea false 0 = none → spaceOf ea = .reg → s.sbClear p ea 4 = true →
  (s.issue p).absentSlice ea = false → (s.fetched p).busRead (pairAccess p ((s.issue p).quadAt p n)) ea = some (v, w) →
  v.coreOf p = (s.fetched p).coreOf p → Gives (.ldy p) s (fun t => t.kr p = { s.onward p with y := ⟨w, regTag ea⟩ } ∧
  t.cells = v.cells ∧ v.RegsKept t (· == R.KC_CSEL p))) ∧
  (∀ (s : State) (p : Pair) (i : Kn) (n ea : Nat) (c : Cell), s.issues p i = true → i.op = .ldy → (s.issue p).operand p i =
  some (n, ea) → (s.issue p).eaFault p ((s.issue p).quadAt p n) ea 4 4 [pRead] = none → (s.issue p).pairBars p (pairAccess
  p ((s.issue p).quadAt p n)) ea false 0 = none → isCells ea = true → (s.issue p).absentSlice ea = false → (s.issue
  p).absentMain ea = false → (s.issue p).accessWaits ea = false → s.sbClear p ea 4 = true → (inMain ea = true → (s.issue
  p).pageSet ea = true) → (s.issue p).mark ea = some false → c = s.cell ea → operandTag ((s.issue p).quadAt p n) c.tag =
  none → Gives (.ldy p) s (fun t => t.kr p = { s.onward p with y := c } ∧ t.cells = s.cells)) ∧
  (∀ (s : State) (p : Pair) (i : Kn) (n ea code : Nat), s.issues p i = true → i.op = .ldy → (s.issue p).operand p i = some
  (n, ea) → (s.issue p).eaFault p ((s.issue p).quadAt p n) ea 4 4 [pRead] = some code → spaceOf ea ≠ .reg → Gives (.ldy p)
  s (fun t => t = (s.fetched p).faultEntry p code ea))

/-- ADD, SUB, ADDS, SUBS, MUL, MACX, AND, OR and XOR on A and a memory operand. Follows: R211, R212, R213, R214, R232,
13_knankoeg_instruction_set.md. Beside the rules it rests on these choices of the model: logs 13, 108, 109. -/
def Obligations.CoreArithmetic : Prop :=
  (∀ (s : State) (p : Pair) (i : Kn) (n ea : Nat) (c : Cell) (v : BitVec 40) (g : BitVec 4), s.issues p i = true → i.op =
  .add → (s.issue p).operand p i = some (n, ea) → s.canLoad p n ea c = true → noValue (s.rs p).atag = false → kAdd false
  false (s.rs p).a (s.rs p).atag c = .val v g → Gives (.add p) s (fun t => t.kr p = { s.onward p with a := v, atag := g } ∧
  s.KnOnly t p)) ∧
  (∀ (s : State) (p : Pair) (i : Kn) (n ea : Nat) (c : Cell) (v : BitVec 40) (g : BitVec 4), s.issues p i = true → i.op =
  .sub → (s.issue p).operand p i = some (n, ea) → s.canLoad p n ea c = true → noValue (s.rs p).atag = false → kAdd true
  false (s.rs p).a (s.rs p).atag c = .val v g → Gives (.sub p) s (fun t => t.kr p = { s.onward p with a := v, atag := g } ∧
  s.KnOnly t p)) ∧
  (∀ (s : State) (p : Pair) (i : Kn) (n ea : Nat) (c : Cell) (v : BitVec 40) (g : BitVec 4), s.issues p i = true → i.op =
  .adds → (s.issue p).operand p i = some (n, ea) → s.canLoad p n ea c = true → noValue (s.rs p).atag = false → kAdd false
  true (s.rs p).a (s.rs p).atag c = .val v g → Gives (.adds p) s (fun t => t.kr p = { s.onward p with a := v, atag := g } ∧
  s.KnOnly t p)) ∧
  (∀ (s : State) (p : Pair) (i : Kn) (n ea : Nat) (c : Cell) (v : BitVec 40) (g : BitVec 4), s.issues p i = true → i.op =
  .subs → (s.issue p).operand p i = some (n, ea) → s.canLoad p n ea c = true → noValue (s.rs p).atag = false → kAdd true
  true (s.rs p).a (s.rs p).atag c = .val v g → Gives (.subs p) s (fun t => t.kr p = { s.onward p with a := v, atag := g } ∧
  s.KnOnly t p)) ∧
  (∀ (s : State) (p : Pair) (i : Kn) (n ea : Nat) (c : Cell) (v : BitVec 40) (g : BitVec 4), s.issues p i = true → i.op =
  .mul → (s.issue p).operand p i = some (n, ea) → s.canLoad p n ea c = true → noValue (s.rs p).atag = false → kMul (s.rs
  p).a (s.rs p).atag c = .val v g → Gives (.mul p) s (fun t => t.kr p = { s.onward p with a := v, atag := g } ∧ s.KnOnly t
  p)) ∧
  (∀ (s : State) (p : Pair) (i : Kn) (n ea : Nat) (c : Cell) (v : BitVec 40) (g : BitVec 4), s.issues p i = true → i.op =
  .macx → (s.issue p).operand p i = some (n, ea) → s.canLoad p n ea c = true → noValue (s.rs p).atag = false → noValue
  (s.rs p).x.tag = false → kMacx (s.rs p).a (s.rs p).atag (s.rs p).x c = .val v g → Gives (.macx p) s (fun t => t.kr p =
  { s.onward p with a := v, atag := g } ∧ s.KnOnly t p)) ∧
  (∀ (s : State) (p : Pair) (i : Kn) (n ea : Nat) (c : Cell) (v : BitVec 40) (g : BitVec 4), s.issues p i = true → i.op =
  .and → (s.issue p).operand p i = some (n, ea) → s.canLoad p n ea c = true → noValue (s.rs p).atag = false → kLogic (· &&&
  ·) (s.rs p).a (s.rs p).atag c = .val v g → Gives (.and p) s (fun t => t.kr p = { s.onward p with a := v, atag := g } ∧
  s.KnOnly t p)) ∧
  (∀ (s : State) (p : Pair) (i : Kn) (n ea : Nat) (c : Cell) (v : BitVec 40) (g : BitVec 4), s.issues p i = true → i.op =
  .or → (s.issue p).operand p i = some (n, ea) → s.canLoad p n ea c = true → noValue (s.rs p).atag = false → kLogic (· |||
  ·) (s.rs p).a (s.rs p).atag c = .val v g → Gives (.or p) s (fun t => t.kr p = { s.onward p with a := v, atag := g } ∧
  s.KnOnly t p)) ∧
  (∀ (s : State) (p : Pair) (i : Kn) (n ea : Nat) (c : Cell) (v : BitVec 40) (g : BitVec 4), s.issues p i = true → i.op =
  .xor → (s.issue p).operand p i = some (n, ea) → s.canLoad p n ea c = true → noValue (s.rs p).atag = false → kLogic (· ^^^
  ·) (s.rs p).a (s.rs p).atag c = .val v g → Gives (.xor p) s (fun t => t.kr p = { s.onward p with a := v, atag := g } ∧
  s.KnOnly t p)) ∧
  (∀ (s : State) (p : Pair) (i : Kn) (n ea : Nat) (c : Cell) (g : BitVec 4), s.issues p i = true → i.op = .add → (s.issue
  p).operand p i = some (n, ea) → s.canLoad p n ea c = true → kAdd false false (s.rs p).a (s.rs p).atag c = .open_ g →
  Gives (.add p) s (fun t => { t.kr p with a := 0 } = { s.onward p with a := 0, atag := g } ∧ t.cells = s.cells)) ∧
  (∀ (s : State) (p : Pair) (i : Kn) (n ea : Nat) (c : Cell) (g : BitVec 4), s.issues p i = true → i.op = .sub → (s.issue
  p).operand p i = some (n, ea) → s.canLoad p n ea c = true → kAdd true false (s.rs p).a (s.rs p).atag c = .open_ g → Gives
  (.sub p) s (fun t => { t.kr p with a := 0 } = { s.onward p with a := 0, atag := g } ∧ t.cells = s.cells)) ∧
  (∀ (s : State) (p : Pair) (i : Kn) (n ea : Nat) (c : Cell) (g : BitVec 4), s.issues p i = true → i.op = .macx → (s.issue
  p).operand p i = some (n, ea) → s.canLoad p n ea c = true → noValue (s.rs p).x.tag = false → kMacx (s.rs p).a (s.rs
  p).atag (s.rs p).x c = .open_ g → Gives (.macx p) s (fun t => { t.kr p with a := 0 } =
  { s.onward p with a := 0, atag := g } ∧ t.cells = s.cells)) ∧
  (∀ (s : State) (p : Pair) (i : Kn) (n ea : Nat) (c : Cell), s.issues p i = true → i.op = .add → (s.issue p).operand p i =
  some (n, ea) → s.canLoad p n ea c = true → s.sbClear p ea 4 = true → kAdd false false (s.rs p).a (s.rs p).atag c = .bad →
  Gives (.add p) s (fun t => t.kr p = (((s.fetched p).faultEntry p fTag ea).kr p) ∧ t.cells = ((s.fetched p).faultEntry p
  fTag ea).cells)) ∧
  (∀ (s : State) (p : Pair) (i : Kn) (n ea : Nat) (c : Cell), s.issues p i = true → i.op = .sub → (s.issue p).operand p i =
  some (n, ea) → s.canLoad p n ea c = true → s.sbClear p ea 4 = true → kAdd true false (s.rs p).a (s.rs p).atag c = .bad →
  Gives (.sub p) s (fun t => t.kr p = (((s.fetched p).faultEntry p fTag ea).kr p) ∧ t.cells = ((s.fetched p).faultEntry p
  fTag ea).cells)) ∧
  (∀ (s : State) (p : Pair) (i : Kn) (n ea : Nat) (c : Cell), s.issues p i = true → i.op = .adds → (s.issue p).operand p i
  = some (n, ea) → s.canLoad p n ea c = true → s.sbClear p ea 4 = true → kAdd false true (s.rs p).a (s.rs p).atag c = .bad
  → Gives (.adds p) s (fun t => t.kr p = (((s.fetched p).faultEntry p fTag ea).kr p) ∧ t.cells = ((s.fetched p).faultEntry
  p fTag ea).cells)) ∧
  (∀ (s : State) (p : Pair) (i : Kn) (n ea : Nat) (c : Cell), s.issues p i = true → i.op = .subs → (s.issue p).operand p i
  = some (n, ea) → s.canLoad p n ea c = true → s.sbClear p ea 4 = true → kAdd true true (s.rs p).a (s.rs p).atag c = .bad →
  Gives (.subs p) s (fun t => t.kr p = (((s.fetched p).faultEntry p fTag ea).kr p) ∧ t.cells = ((s.fetched p).faultEntry p
  fTag ea).cells)) ∧
  (∀ (s : State) (p : Pair) (i : Kn) (n ea : Nat) (c : Cell), s.issues p i = true → i.op = .mul → (s.issue p).operand p i =
  some (n, ea) → s.canLoad p n ea c = true → s.sbClear p ea 4 = true → kMul (s.rs p).a (s.rs p).atag c = .bad → Gives (.mul
  p) s (fun t => t.kr p = (((s.fetched p).faultEntry p fTag ea).kr p) ∧ t.cells = ((s.fetched p).faultEntry p fTag
  ea).cells)) ∧
  (∀ (s : State) (p : Pair) (i : Kn) (n ea : Nat) (c : Cell), s.issues p i = true → i.op = .macx → (s.issue p).operand p i
  = some (n, ea) → s.canLoad p n ea c = true → s.sbClear p ea 4 = true → kMacx (s.rs p).a (s.rs p).atag (s.rs p).x c = .bad
  → Gives (.macx p) s (fun t => t.kr p = (((s.fetched p).faultEntry p fTag ea).kr p) ∧ t.cells = ((s.fetched p).faultEntry
  p fTag ea).cells)) ∧
  (∀ (s : State) (p : Pair) (i : Kn) (n ea : Nat) (c : Cell), s.issues p i = true → i.op = .and → (s.issue p).operand p i =
  some (n, ea) → s.canLoad p n ea c = true → s.sbClear p ea 4 = true → kLogic (· &&& ·) (s.rs p).a (s.rs p).atag c = .bad →
  Gives (.and p) s (fun t => t.kr p = (((s.fetched p).faultEntry p fTag ea).kr p) ∧ t.cells = ((s.fetched p).faultEntry p
  fTag ea).cells)) ∧
  (∀ (s : State) (p : Pair) (i : Kn) (n ea : Nat) (c : Cell), s.issues p i = true → i.op = .or → (s.issue p).operand p i =
  some (n, ea) → s.canLoad p n ea c = true → s.sbClear p ea 4 = true → kLogic (· ||| ·) (s.rs p).a (s.rs p).atag c = .bad →
  Gives (.or p) s (fun t => t.kr p = (((s.fetched p).faultEntry p fTag ea).kr p) ∧ t.cells = ((s.fetched p).faultEntry p
  fTag ea).cells)) ∧
  (∀ (s : State) (p : Pair) (i : Kn) (n ea : Nat) (c : Cell), s.issues p i = true → i.op = .xor → (s.issue p).operand p i =
  some (n, ea) → s.canLoad p n ea c = true → s.sbClear p ea 4 = true → kLogic (· ^^^ ·) (s.rs p).a (s.rs p).atag c = .bad →
  Gives (.xor p) s (fun t => t.kr p = (((s.fetched p).faultEntry p fTag ea).kr p) ∧ t.cells = ((s.fetched p).faultEntry p
  fTag ea).cells))

/-- Results of the pairs of tags. Follows: R211, R213, R214, 13_knankoeg_instruction_set.md. Beside the rules it rests on
these choices of the model: logs 108, 109. -/
def Obligations.TagArithmetic : Prop :=
  (∀ (sub : Bool) (a : BitVec 40) (m : Word), kAdd sub false a tagInt ⟨m, tagInt⟩ = .val (if sub then a - m.signExtend 40
  else a + m.signExtend 40) tagInt ∧ kAdd sub false a tagUint ⟨m, tagUint⟩ = .val (if sub then a - m.setWidth 40 else a +
  m.setWidth 40) tagUint ∧ ((if sub then a.toInt - m.toInt else a.toInt + m.toInt) < 2 ^ 39 → -(2 ^ 39) ≤ (if sub then
  a.toInt - m.toInt else a.toInt + m.toInt) → kAdd sub false a tagQ31 ⟨m, tagQ31⟩ = .val (BitVec.ofInt 40 (if sub then
  a.toInt - m.toInt else a.toInt + m.toInt)) tagQ31) ∧ kAdd sub true a tagInt ⟨m, tagInt⟩ = .val (BitVec.ofInt 40 (max (-(2
  ^ 31)) (min (2 ^ 31 - 1) (if sub then a.toInt - m.toInt else a.toInt + m.toInt)))) tagInt ∧ kAdd sub true a tagQ31 ⟨m,
  tagQ31⟩ = .val (BitVec.ofInt 40 (max (-(2 ^ 31)) (min (2 ^ 31 - 1) (if sub then a.toInt - m.toInt else a.toInt +
  m.toInt)))) tagQ31 ∧ kAdd sub true a tagUint ⟨m, tagUint⟩ = .val (BitVec.ofInt 40 (max 0 (min (2 ^ 32 - 1) (if sub then
  (a.toNat : Int) - m.toNat else (a.toNat : Int) + m.toNat)))) tagUint) ∧
  (∀ (sub : Bool) (a : BitVec 40) (m : Word), kAdd sub false a tagFrac2 ⟨m, tagFrac2⟩ = .val (((if sub then (((a >>>
  16).setWidth 16) : BitVec 16) - (((m >>> 16).setWidth 16) : BitVec 16) else (((a >>> 16).setWidth 16) : BitVec 16) + (((m
  >>> 16).setWidth 16) : BitVec 16)) ++ (if sub then ((a.setWidth 16) : BitVec 16) - ((m.setWidth 16) : BitVec 16) else
  ((a.setWidth 16) : BitVec 16) + ((m.setWidth 16) : BitVec 16)) : BitVec 32).setWidth 40) tagFrac2 ∧ kAdd sub true a
  tagFrac2 ⟨m, tagFrac2⟩ = .val ((BitVec.ofInt 16 (max (-(2 ^ 15)) (min (2 ^ 15 - 1) (if sub then (((a >>> 16).setWidth 16)
  : BitVec 16).toInt - (((m >>> 16).setWidth 16) : BitVec 16).toInt else (((a >>> 16).setWidth 16) : BitVec 16).toInt +
  (((m >>> 16).setWidth 16) : BitVec 16).toInt))) ++ BitVec.ofInt 16 (max (-(2 ^ 15)) (min (2 ^ 15 - 1) (if sub then
  ((a.setWidth 16) : BitVec 16).toInt - ((m.setWidth 16) : BitVec 16).toInt else ((a.setWidth 16) : BitVec 16).toInt +
  ((m.setWidth 16) : BitVec 16).toInt))) : BitVec 32).setWidth 40) tagFrac2) ∧
  (∀ (sub : Bool) (a : BitVec 40) (m : Word) (t : BitVec 4), t = tagAddr ∨ t = tagCode ∨ t = tagTime → kAdd sub false a t
  ⟨m, tagInt⟩ = .val ((if sub then (a.setWidth 32 : Word) - m else (a.setWidth 32 : Word) + m).setWidth 40) t ∧ kAdd sub
  true a t ⟨m, tagInt⟩ = .bad ∧ kAdd sub true a t ⟨m, t⟩ = .bad ∧ kAdd false false a t ⟨m, t⟩ = .bad) ∧
  (∀ (a : BitVec 40) (m : Word), kAdd true false a tagAddr ⟨m, tagAddr⟩ = .val (((a.setWidth 32 : Word) - m).signExtend 40)
  tagInt ∧ kAdd true false a tagTime ⟨m, tagTime⟩ = .val (((a.setWidth 32 : Word) - m).signExtend 40) tagInt ∧ kAdd true
  false a tagCode ⟨m, tagCode⟩ = .bad) ∧
  (∀ (a : BitVec 40) (m : Word), kMul a tagInt ⟨m, tagInt⟩ = .val (BitVec.ofInt 40 (max (-(2 ^ 39)) (min (2 ^ 39 - 1)
  (a.toInt * m.toInt)))) tagInt ∧ kMul a tagUint ⟨m, tagUint⟩ = .val (BitVec.ofNat 40 (min (a.toNat * m.toNat) (2 ^ 40 -
  1))) tagUint ∧ kMul a tagQ31 ⟨m, tagQ31⟩ = .val (BitVec.ofInt 40 (max (-(2 ^ 39)) (min (2 ^ 39 - 1) ((a.toInt * m.toInt +
  2 ^ 30) / 2 ^ 31)))) tagQ31 ∧ kMul a tagFrac2 ⟨m, tagFrac2⟩ = .val ((BitVec.ofInt 16 (max (-(2 ^ 15)) (min (2 ^ 15 - 1)
  (((((a >>> 16).setWidth 16) : BitVec 16).toInt * (((m >>> 16).setWidth 16) : BitVec 16).toInt + 2 ^ 14) / 2 ^ 15))) ++
  BitVec.ofInt 16 (max (-(2 ^ 15)) (min (2 ^ 15 - 1) ((((a.setWidth 16) : BitVec 16).toInt * ((m.setWidth 16) : BitVec
  16).toInt + 2 ^ 14) / 2 ^ 15))) : BitVec 32).setWidth 40) tagFrac2) ∧
  (∀ (a : BitVec 40) (x m : Word), kMacx a tagInt ⟨x, tagInt⟩ ⟨m, tagInt⟩ = .val (BitVec.ofInt 40 (a.toInt + max (-(2 ^
  39)) (min (2 ^ 39 - 1) (x.toInt * m.toInt)))) tagInt ∧ ((a.toInt + max (-(2 ^ 39)) (min (2 ^ 39 - 1) ((x.toInt * m.toInt
  + 2 ^ 30) / 2 ^ 31))) < 2 ^ 39 → -(2 ^ 39) ≤ (a.toInt + max (-(2 ^ 39)) (min (2 ^ 39 - 1) ((x.toInt * m.toInt + 2 ^ 30) /
  2 ^ 31))) → kMacx a tagQ31 ⟨x, tagQ31⟩ ⟨m, tagQ31⟩ = .val (BitVec.ofInt 40 (a.toInt + max (-(2 ^ 39)) (min (2 ^ 39 - 1)
  ((x.toInt * m.toInt + 2 ^ 30) / 2 ^ 31)))) tagQ31) ∧ kMacx a tagQ31 ⟨x, tagFrac2⟩ ⟨m, tagFrac2⟩ = .val (BitVec.ofInt 40
  (max (-(2 ^ 39)) (min (2 ^ 39 - 1) (a.toInt + 2 * ((x.setWidth 16 : BitVec 16).toInt * (m.setWidth 16 : BitVec 16).toInt
  + ((x >>> 16).setWidth 16 : BitVec 16).toInt * ((m >>> 16).setWidth 16 : BitVec 16).toInt))))) tagQ31) ∧
  (∀ (a : BitVec 40) (m : Word), kLogic (· &&& ·) a tagInt ⟨m, tagInt⟩ = .val (a &&& m.signExtend 40) tagInt ∧ kLogic (·
  &&& ·) a tagUint ⟨m, tagUint⟩ = .val (a &&& m.setWidth 40) tagUint ∧ kLogic (· ||| ·) a tagInt ⟨m, tagInt⟩ = .val (a |||
  m.signExtend 40) tagInt ∧ kLogic (· ||| ·) a tagUint ⟨m, tagUint⟩ = .val (a ||| m.setWidth 40) tagUint ∧ kLogic (· ^^^ ·)
  a tagInt ⟨m, tagInt⟩ = .val (a ^^^ m.signExtend 40) tagInt ∧ kLogic (· ^^^ ·) a tagUint ⟨m, tagUint⟩ = .val (a ^^^
  m.setWidth 40) tagUint) ∧
  (∀ (sub : Bool) (a : BitVec 40) (m x : Word) (t u : BitVec 4), noValue t = false → noValue u = false → t = tagRaw ∨ u =
  tagRaw → kAdd sub false a t ⟨m, u⟩ = .val (if sub then a - m.setWidth 40 else a + m.setWidth 40) tagRaw ∧ kAdd sub true a
  t ⟨m, u⟩ = .val (BitVec.ofInt 40 (max 0 (min (2 ^ 32 - 1) (if sub then (a.toNat : Int) - m.toNat else (a.toNat : Int) +
  m.toNat)))) tagRaw ∧ kMul a t ⟨m, u⟩ = .val (BitVec.ofNat 40 (min (a.toNat * m.toNat) (2 ^ 40 - 1))) tagRaw ∧ kMacx a t
  ⟨x, u⟩ ⟨m, u⟩ = .val (BitVec.ofNat 40 (a.toNat + min (x.toNat * m.toNat) (2 ^ 40 - 1))) tagRaw ∧ kLogic (· &&& ·) a t ⟨m,
  u⟩ = .val (a &&& m.setWidth 40) tagRaw ∧ kLogic (· ||| ·) a t ⟨m, u⟩ = .val (a ||| m.setWidth 40) tagRaw ∧ kLogic (· ^^^
  ·) a t ⟨m, u⟩ = .val (a ^^^ m.setWidth 40) tagRaw) ∧
  (∀ (sub sat : Bool) (f : BitVec 40 → BitVec 40 → BitVec 40) (a : BitVec 40) (m : Word) (t u : BitVec 4), (kAdd sub sat a
  t ⟨m, u⟩ = .bad ↔ noValue t = true ∨ noValue u = true ∨ ¬ (t = tagRaw ∨ u = tagRaw ∨ (t = u ∧ (t = tagInt ∨ t = tagUint ∨
  t = tagQ31 ∨ t = tagFrac2)) ∨ (sat = false ∧ u = tagInt ∧ (t = tagAddr ∨ t = tagCode ∨ t = tagTime)) ∨ (sat = false ∧ sub
  = true ∧ t = u ∧ (t = tagAddr ∨ t = tagTime)))) ∧ (kMul a t ⟨m, u⟩ = .bad ↔ noValue t = true ∨ noValue u = true ∨ ¬ (t =
  tagRaw ∨ u = tagRaw ∨ (t = u ∧ (t = tagInt ∨ t = tagUint ∨ t = tagQ31 ∨ t = tagFrac2)))) ∧ (kLogic f a t ⟨m, u⟩ = .bad ↔
  noValue t = true ∨ noValue u = true ∨ ¬ (t = tagRaw ∨ u = tagRaw ∨ (t = u ∧ (t = tagInt ∨ t = tagUint))))) ∧
  (∀ (a : BitVec 40) (x m : Word) (t v u : BitVec 4), kMacx a t ⟨x, v⟩ ⟨m, u⟩ = .bad ↔ noValue t = true ∨ noValue v = true
  ∨ noValue u = true ∨ ¬ (t = tagRaw ∨ v = tagRaw ∨ u = tagRaw ∨ (t = tagInt ∧ v = tagInt ∧ u = tagInt) ∨ (t = tagQ31 ∧ v =
  u ∧ (u = tagQ31 ∨ u = tagFrac2)))) ∧
  (∀ t : BitVec 4, noValue t = true ↔ t = tagEmpty ∨ (11 ≤ t.toNat ∧ t.toNat ≤ 14)) ∧
  (∀ (q : Quad) (t : BitVec 4), (operandTag q t = some fTag ↔ noValue t = true ∨ t = tagCap) ∧ (operandTag q t = some fPerm
  ↔ t = tagRaw ∧ q.perm pRaw = false)) ∧
  (∀ (a : BitVec 40) (m : Word) (t : BitVec 4), extendCell ⟨m, t⟩ = (if t = tagInt ∨ t = tagQ31 then m.signExtend 40 else
  m.setWidth 40) ∧ storeWord a t = (if t = tagInt ∨ t = tagQ31 then BitVec.ofInt 32 (max (-(2 ^ 31)) (min (2 ^ 31 - 1)
  a.toInt)) else if t = tagUint then BitVec.ofNat 32 (min a.toNat (2 ^ 32 - 1)) else a.setWidth 32))

/-- How the values of a compare-and-branch are compared. Rules: R216. -/
def Obligations.ValuesCompare : Prop :=
  (∀ (r : CoreRegs) (o : Nat), (o = 0 → opnds r o = (⟨r.a, r.a.toNat, r.atag⟩, ⟨0, 0, r.atag⟩)) ∧ (o = 1 → opnds r o =
  (⟨r.a, r.a.toNat, r.atag⟩, ⟨extendCell r.x, r.x.v.toNat, r.x.tag⟩)) ∧ (o = 2 → opnds r o = (⟨r.a, r.a.toNat, r.atag⟩,
  ⟨extendCell r.y, r.y.v.toNat, r.y.tag⟩)) ∧ (o = 3 → opnds r o = (⟨extendCell r.x, r.x.v.toNat, r.x.tag⟩, ⟨extendCell r.y,
  r.y.v.toNat, r.y.tag⟩))) ∧
  (∀ (a b : Opnd), a.tag = b.tag → (a.tag = tagInt ∨ a.tag = tagQ31) → compares .lt a b = some (decide (a.x.toInt <
  b.x.toInt)) ∧ compares .ge a b = some (decide (b.x.toInt ≤ a.x.toInt)) ∧ compares .gt a b = some (decide (b.x.toInt <
  a.x.toInt)) ∧ compares .le a b = some (decide (a.x.toInt ≤ b.x.toInt)) ∧ compares .eq a b = some (decide (a.x = b.x)) ∧
  compares .ne a b = some (decide (a.x ≠ b.x))) ∧
  (∀ (a b : Opnd), a.tag = b.tag → (a.tag = tagUint ∨ a.tag = tagAddr ∨ a.tag = tagCode) → compares .lt a b = some (decide
  (a.x.toNat < b.x.toNat)) ∧ compares .ge a b = some (decide (b.x.toNat ≤ a.x.toNat)) ∧ compares .gt a b = some (decide
  (b.x.toNat < a.x.toNat)) ∧ compares .le a b = some (decide (a.x.toNat ≤ b.x.toNat)) ∧ compares .eq a b = some (decide
  (a.x = b.x)) ∧ compares .ne a b = some (decide (a.x ≠ b.x))) ∧
  (∀ (a b : Opnd), noValue a.tag = false → noValue b.tag = false → (a.tag = tagRaw ∨ b.tag = tagRaw) → compares .lt a b =
  some (decide (a.raw < b.raw)) ∧ compares .ge a b = some (decide (b.raw ≤ a.raw)) ∧ compares .gt a b = some (decide (b.raw
  < a.raw)) ∧ compares .le a b = some (decide (a.raw ≤ b.raw)) ∧ compares .eq a b = some (decide (a.raw = b.raw)) ∧
  compares .ne a b = some (decide (a.raw ≠ b.raw))) ∧
  (∀ (a b : Opnd), a.tag = tagTime → b.tag = tagTime → compares .lt a b = some (decide (2 ^ 31 ≤ ((a.x.toNat : Int) -
  b.x.toNat) % 2 ^ 32)) ∧ compares .eq a b = some (decide (a.x = b.x)))

/-- STA, STX, STY, XCH, pushes, pops and the drain of the store buffer. Follows: R209, R210, R211, R212, R219, R227, R238,
R239, 13_knankoeg_instruction_set.md. Beside the rules it rests on these choices of the model: logs 28, 105, 107. -/
def Obligations.CoreStores : Prop :=
  (∀ (s : State) (p : Pair) (i : Kn) (n ea : Nat) (c : Cell), s.issues p i = true → i.op = .sta → (s.issue p).operand p i =
  some (n, ea) → c = (s.rs p).acell → s.canStore p n ea c = true → Gives (.sta p) s (fun t => t.kr p =
  { s.onward p with sb := buffered (s.rs p).sb (.cell ea c) } ∧ s.StoreOnly t p)) ∧
  (∀ (s : State) (p : Pair) (i : Kn) (n ea : Nat) (c : Cell), s.issues p i = true → i.op = .stx → (s.issue p).operand p i =
  some (n, ea) → c = (s.rs p).x → s.canStore p n ea c = true → Gives (.stx p) s (fun t => t.kr p =
  { s.onward p with sb := buffered (s.rs p).sb (.cell ea c) } ∧ s.StoreOnly t p)) ∧
  (∀ (s : State) (p : Pair) (i : Kn) (n ea : Nat) (c : Cell), s.issues p i = true → i.op = .sty → (s.issue p).operand p i =
  some (n, ea) → c = (s.rs p).y → s.canStore p n ea c = true → Gives (.sty p) s (fun t => t.kr p =
  { s.onward p with sb := buffered (s.rs p).sb (.cell ea c) } ∧ s.StoreOnly t p)) ∧
  (∀ (s : State) (p : Pair) (i : Kn) (n ea : Nat) (c : Cell) (a : Cell), s.issues p i = true → i.op = .xch → (s.issue
  p).operand p i = some (n, ea) → a = (s.rs p).acell → noValue a.tag = false → (s.issue p).eaFault p ((s.issue p).quadAt p
  n) ea 4 4 [pRead, pWrite] = none → (s.issue p).pairBars p (pairAccess p ((s.issue p).quadAt p n)) ea true a.v = none →
  s.cellsOk ea 1 = true → s.sbClear p ea 4 = true → c = s.cell ea → operandTag ((s.issue p).quadAt p n) c.tag = none →
  a.tag ≠ tagRaw → Gives (.xch p) s (fun t => t.kr p = { s.onward p with a := extendCell c, atag := c.tag } ∧ t.cell ea =
  stored ea a ∧ s.CellsKept t (· == ea) ∧ s.RegsKept t (· == R.KC_CSEL p))) ∧
  (∀ (s : State) (p : Pair) (i : Kn) (c : Cell) (d : Nat), s.issues p i = true → i.op = .pusha → c = (s.rs p).acell →
  s.dspNow p = d + 4 → s.canStore p 2 d c = true → Gives (.pusha p) s (fun t => t.kr p = s.atDsp p
  { s.onward p with sb := buffered (s.rs p).sb (.cell d c) } d ∧ s.StoreOnly t p)) ∧
  (∀ (s : State) (p : Pair) (i : Kn) (c : Cell) (d : Nat), s.issues p i = true → i.op = .pushx → c = (s.rs p).x → s.dspNow
  p = d + 4 → s.canStore p 2 d c = true → Gives (.pushx p) s (fun t => t.kr p = s.atDsp p
  { s.onward p with sb := buffered (s.rs p).sb (.cell d c) } d ∧ s.StoreOnly t p)) ∧
  (∀ (s : State) (p : Pair) (i : Kn) (c : Cell) (d : Nat), s.issues p i = true → i.op = .pushy → c = (s.rs p).y → s.dspNow
  p = d + 4 → s.canStore p 2 d c = true → Gives (.pushy p) s (fun t => t.kr p = s.atDsp p
  { s.onward p with sb := buffered (s.rs p).sb (.cell d c) } d ∧ s.StoreOnly t p)) ∧
  (∀ (s : State) (p : Pair) (i : Kn) (c : Cell), s.issues p i = true → i.op = .popa → s.canLoad p 2 (s.dspNow p) c = true →
  Gives (.popa p) s (fun t => t.kr p = s.atDsp p { s.onward p with a := extendCell c, atag := c.tag } (s.dspNow p + 4) ∧
  s.KnOnly t p)) ∧
  (∀ (s : State) (p : Pair) (i : Kn) (c : Cell), s.issues p i = true → i.op = .popx → s.canLoad p 2 (s.dspNow p) c = true →
  Gives (.popx p) s (fun t => t.kr p = s.atDsp p { s.onward p with x := c } (s.dspNow p + 4) ∧ s.KnOnly t p)) ∧
  (∀ (s : State) (p : Pair) (i : Kn) (c : Cell), s.issues p i = true → i.op = .popy → s.canLoad p 2 (s.dspNow p) c = true →
  Gives (.popy p) s (fun t => t.kr p = s.atDsp p { s.onward p with y := c } (s.dspNow p + 4) ∧ s.KnOnly t p)) ∧
  (∀ (s : State) (p : Pair) (a : Nat) (c : Cell) (l : List SbEntry), (p.val < 12 → s.slState p ≠ slRecovering) → (s.kr
  p).sb = .cell a c :: l → a % 4 = 0 → inCopy a = false → s.memStalls a = false → s.absentSlice a = false → s.absentMain a
  = false → s.mark a = none → Gives (.storeDrain p) s (fun t => t.cell a = stored a c ∧ t.kr p = { s.kr p with sb := l } ∧
  s.CellsKept t (· == a) ∧ t.regs = s.regs)) ∧
  (∀ (s : State) (p : Pair) (a : Nat) (b : BitVec 8) (l : List SbEntry), (p.val < 12 → s.slState p ≠ slRecovering) → (s.kr
  p).sb = .byte a b :: l → inCopy a = false → s.memStalls a = false → s.absentSlice a = false → s.absentMain a = false →
  s.mark (a / 4 * 4) = none → s.mark a = none → (s.cell (a / 4 * 4)).tag = tagInt → isCells a = true → Gives (.storeDrain
  p) s (fun t => t.cell (a / 4 * 4) = stored (a / 4 * 4) ⟨putBytes (s.cell (a / 4 * 4)).v (a % 4) 1 b.toNat, tagInt⟩ ∧ t.kr
  p = { s.kr p with sb := l } ∧ s.CellsKept t (· == a / 4 * 4) ∧ t.regs = s.regs))

/-- Byte, halfword and unaligned access. Follows: R228, R285, R286, R287, 13_knankoeg_instruction_set.md, 17_memories.md.
Beside the rules it rests on these choices of the model: log 103. -/
def Obligations.CoreNarrowAccess : Prop :=
  (∀ (s : State) (p : Pair) (i : Kn) (ea : Nat) (c : Cell), s.issues p i = true → i.op = .ldb → (s.issue p).narrowEa p i =
  some ea → (s.issue p).narrowFault p ((s.issue p).quadAt p 1) ea 1 [pRead] false = none → s.cellsOk (ea / 4 * 4) 1 = true
  → s.sbClear p ea 1 = true → c = s.cell (ea / 4 * 4) → c.tag = tagInt → Gives (.ldb p) s (fun t => t.kr p =
  { s.onward p with a := ((c.v >>> (8 * (ea % 4))).setWidth 8).signExtend 40, atag := tagInt } ∧ s.KnOnly t p)) ∧
  (∀ (s : State) (p : Pair) (i : Kn) (ea : Nat) (c : Cell), s.issues p i = true → i.op = .ldb → (s.issue p).narrowEa p i =
  some ea → (s.issue p).narrowFault p ((s.issue p).quadAt p 1) ea 1 [pRead] false = none → s.cellsOk (ea / 4 * 4) 1 = true
  → s.sbClear p ea 1 = true → c = s.cell (ea / 4 * 4) → c.tag = tagUint → Gives (.ldb p) s (fun t => t.kr p =
  { s.onward p with a := ((c.v >>> (8 * (ea % 4))).setWidth 8).setWidth 40, atag := tagUint } ∧ s.KnOnly t p)) ∧
  (∀ (s : State) (p : Pair) (i : Kn) (ea : Nat) (c : Cell), s.issues p i = true → i.op = .ldh → (s.issue p).narrowEa p i =
  some ea → (s.issue p).narrowFault p ((s.issue p).quadAt p 1) ea 2 [pRead] false = none → s.cellsOk (ea / 4 * 4) 1 = true
  → s.sbClear p ea 2 = true → c = s.cell (ea / 4 * 4) → c.tag = tagInt → Gives (.ldh p) s (fun t => t.kr p =
  { s.onward p with a := ((c.v >>> (8 * (ea % 4))).setWidth 16).signExtend 40, atag := tagInt } ∧ s.KnOnly t p)) ∧
  (∀ (s : State) (p : Pair) (i : Kn) (ea : Nat) (c : Cell), s.issues p i = true → i.op = .ldh → (s.issue p).narrowEa p i =
  some ea → (s.issue p).narrowFault p ((s.issue p).quadAt p 1) ea 2 [pRead] false = none → s.cellsOk (ea / 4 * 4) 1 = true
  → s.sbClear p ea 2 = true → c = s.cell (ea / 4 * 4) → c.tag = tagUint → Gives (.ldh p) s (fun t => t.kr p =
  { s.onward p with a := ((c.v >>> (8 * (ea % 4))).setWidth 16).setWidth 40, atag := tagUint } ∧ s.KnOnly t p)) ∧
  (∀ (s : State) (p : Pair) (i : Kn) (ea : Nat) (lo hi : Cell) (w : Word), s.issues p i = true → i.op = .ldu → w = (lo.v
  >>> (8 * (ea % 4))) ||| (hi.v <<< (32 - 8 * (ea % 4))) → (s.issue p).narrowEa p i = some ea → ea % 4 ≠ 0 → (s.issue
  p).narrowFault p ((s.issue p).quadAt p 1) ea 1 [pRead] false = none → (s.issue p).pairBars p (pairAccess p ((s.issue
  p).quadAt p 1)) (ea / 4 * 4 + 4) false 0 = none → s.cellsOk (ea / 4 * 4) 2 = true → s.sbClear p ea 4 = true → lo = s.cell
  (ea / 4 * 4) → hi = s.cell (ea / 4 * 4 + 4) → lo.tag = hi.tag → (lo.tag = tagInt ∨ lo.tag = tagUint ∨ lo.tag = tagQ31 ∨
  lo.tag = tagFrac2) → Gives (.ldu p) s (fun t => t.kr p = { s.onward p with a := extendCell ⟨w, lo.tag⟩, atag := lo.tag }
  ∧ s.KnOnly t p)) ∧
  (∀ (s : State) (p : Pair) (i : Kn) (ea : Nat) (c : Cell), s.issues p i = true → i.op = .ldu → (s.issue p).narrowEa p i =
  some ea → ea % 4 = 0 → s.canLoad p 1 ea c = true → Gives (.ldu p) s (fun t => t.kr p =
  { s.onward p with a := extendCell c, atag := c.tag } ∧ s.KnOnly t p)) ∧
  (∀ (s : State) (p : Pair) (i : Kn) (ea : Nat), s.issues p i = true → i.op = .stb → (s.issue p).narrowEa p i = some ea →
  (s.issue p).narrowFault p ((s.issue p).quadAt p 1) ea 1 [pWrite] true = none → isCells ea = true → narrowOk (s.rs p).atag
  true = true → narrowTag ((s.issue p).quadAt p 1) ((s.issue p).standing p (ea / 4 * 4)).tag = none → (s.rs p).sb.length <
  4 → Gives (.stb p) s (fun t => t.kr p = { s.onward p with sb := (s.rs p).sb ++ [.byte ea ((s.rs p).a.setWidth 8)] } ∧
  s.KnOnly t p)) ∧
  (∀ (s : State) (p : Pair) (i : Kn) (ea : Nat), s.issues p i = true → i.op = .sth → (s.issue p).narrowEa p i = some ea →
  (s.issue p).narrowFault p ((s.issue p).quadAt p 1) ea 2 [pWrite] true = none → isCells ea = true → narrowOk (s.rs p).atag
  true = true → narrowTag ((s.issue p).quadAt p 1) ((s.issue p).standing p (ea / 4 * 4)).tag = none → (s.rs p).sb.length <
  4 → Gives (.sth p) s (fun t => t.kr p = { s.onward p with sb := (s.rs p).sb ++ [.half ea ((s.rs p).a.setWidth 16)] } ∧
  s.KnOnly t p))

/-- Moves between the registers, immediates, tags, PG, DSP and time. Follows: R211, R218, R219, R220, R249,
13_knankoeg_instruction_set.md. Beside the rules it rests on these choices of the model: logs 110, 111. -/
def Obligations.CoreRegisterMoves : Prop :=
  (∀ (s : State) (p : Pair) (i : Kn), s.issues p i = true → i.op = .nop → Gives (.nop p) s (fun t => t.kr p = s.onward p ∧
  s.KnOnly t p)) ∧
  (∀ (s : State) (p : Pair) (i : Kn), s.issues p i = true → i.op = .tax → noValue (s.rs p).atag = false → Gives (.tax p) s
  (fun t => t.kr p = { s.onward p with x := (s.rs p).acell } ∧ s.KnOnly t p)) ∧
  (∀ (s : State) (p : Pair) (i : Kn), s.issues p i = true → i.op = .txa → noValue (s.rs p).x.tag = false → Gives (.txa p) s
  (fun t => t.kr p = { s.onward p with a := extendCell (s.rs p).x, atag := (s.rs p).x.tag } ∧ s.KnOnly t p)) ∧
  (∀ (s : State) (p : Pair) (i : Kn), s.issues p i = true → i.op = .tay → noValue (s.rs p).atag = false → Gives (.tay p) s
  (fun t => t.kr p = { s.onward p with y := (s.rs p).acell } ∧ s.KnOnly t p)) ∧
  (∀ (s : State) (p : Pair) (i : Kn), s.issues p i = true → i.op = .tya → noValue (s.rs p).y.tag = false → Gives (.tya p) s
  (fun t => t.kr p = { s.onward p with a := extendCell (s.rs p).y, atag := (s.rs p).y.tag } ∧ s.KnOnly t p)) ∧
  (∀ (s : State) (p : Pair) (i : Kn), s.issues p i = true → i.op = .swxy → noValue (s.rs p).x.tag = false → noValue (s.rs
  p).y.tag = false → Gives (.swxy p) s (fun t => t.kr p = { s.onward p with x := (s.rs p).y, y := (s.rs p).x } ∧ s.KnOnly t
  p)) ∧
  (∀ (s : State) (p : Pair) (i : Kn), s.issues p i = true → i.op = .rdsp → Gives (.rdsp p) s (fun t => t.kr p =
  { s.onward p with x := ⟨BitVec.ofNat 32 (s.dspNow p), tagAddr⟩ } ∧ s.KnOnly t p)) ∧
  (∀ (s : State) (p : Pair) (i : Kn), s.issues p i = true → i.op = .wdsp → (s.rs p).x.tag = tagAddr → (s.capNow p
  2).unusable false = none → (s.capNow p 2).lo ≤ (s.rs p).x.v.toNat → (s.rs p).x.v.toNat ≤ (s.capNow p 2).hi → Gives (.wdsp
  p) s (fun t => t.kr p = s.atDsp p (s.onward p) (s.rs p).x.v.toNat ∧ s.KnOnly t p)) ∧
  (∀ (s : State) (p : Pair) (i : Kn), s.issues p i = true → i.op = .rpg → Gives (.rpg p) s (fun t => t.kr p =
  { s.onward p with x := ⟨(s.rs p).pg.setWidth 32, tagUint⟩ } ∧ s.KnOnly t p)) ∧
  (∀ (s : State) (p : Pair) (i : Kn), s.issues p i = true → i.op = .wpg → (s.rs p).x.tag = tagUint → (s.rs p).x.v.toNat <
  65536 → Gives (.wpg p) s (fun t => t.kr p = { s.onward p with pg := (s.rs p).x.v.setWidth 16 } ∧ s.KnOnly t p)) ∧
  (∀ (s : State) (p : Pair) (i : Kn), s.issues p i = true → i.op = .rdtag → Gives (.rdtag p) s (fun t => t.kr p =
  { s.onward p with x := ⟨(s.rs p).atag.setWidth 32, tagUint⟩ } ∧ s.KnOnly t p)) ∧
  (∀ (s : State) (p : Pair) (i : Kn), s.issues p i = true → i.op = .rdtime → Gives (.rdtime p) s (fun t => t.kr p =
  { s.onward p with a := (s.mtime.setWidth 32).setWidth 40, atag := tagTime } ∧ s.KnOnly t p)) ∧
  (∀ (s : State) (p : Pair) (i : Kn), s.issues p i = true → i.op = .ldia → Gives (.ldia p) s (fun t => t.kr p =
  { s.onward p with a := BitVec.ofInt 40 (BitVec.ofInt 32 i.v).toInt, atag := tagInt } ∧ s.KnOnly t p)) ∧
  (∀ (s : State) (p : Pair) (i : Kn), s.issues p i = true → i.op = .ldix → Gives (.ldix p) s (fun t => t.kr p =
  { s.onward p with x := ⟨BitVec.ofInt 32 i.v, tagInt⟩ } ∧ s.KnOnly t p)) ∧
  (∀ (s : State) (p : Pair) (i : Kn), s.issues p i = true → i.op = .ldiy → Gives (.ldiy p) s (fun t => t.kr p =
  { s.onward p with y := ⟨BitVec.ofInt 32 i.v, tagInt⟩ } ∧ s.KnOnly t p)) ∧
  (∀ (s : State) (p : Pair) (i : Kn), s.issues p i = true → i.op = .addia → (s.rs p).atag = tagInt → Gives (.addia p) s
  (fun t => t.kr p = { s.onward p with a := BitVec.ofInt 40 ((s.rs p).a.toInt + (BitVec.ofInt 32 i.v).toInt) } ∧ s.KnOnly t
  p)) ∧
  (∀ (s : State) (p : Pair) (i : Kn) (v : BitVec 40) (g : BitVec 4), s.issues p i = true → i.op = .addia → kAddImm (s.rs
  p).a (s.rs p).atag i.v = .val v g → Gives (.addia p) s (fun t => t.kr p = { s.onward p with a := v, atag := g } ∧
  s.KnOnly t p)) ∧
  (∀ (s : State) (p : Pair) (i : Kn) (d : Int), s.issues p i = true → i.op = .dsadj → (s.capNow p 2).unusable false = none
  → (d = (s.dspNow p : Int) + 4 * i.v) → (((s.capNow p 2).lo : Int) ≤ d) → d ≤ (s.capNow p 2).hi → Gives (.dsadj p) s (fun
  t => t.kr p = s.atDsp p (s.onward p) d.toNat ∧ s.KnOnly t p)) ∧
  (∀ (s : State) (p : Pair) (i : Kn) (n ea : Nat), s.issues p i = true → i.op = .lea → (s.issue p).operand p i = some (n,
  ea) → ((s.issue p).quadAt p n).unusable false = none → ((s.issue p).quadAt p n).lo ≤ ea → ea + 4 ≤ ((s.issue p).quadAt p
  n).hi → Gives (.lea p) s (fun t => t.kr p = { s.onward p with a := BitVec.ofNat 40 ea, atag := tagAddr } ∧ s.KnOnly t p)) ∧
  (∀ (s : State) (p : Pair) (i : Kn) (c : Cell), s.issues p i = true → i.op = .retag → i.m = 0 → (noValue (s.rs p).atag =
  false ∨ BitVec.ofNat 4 i.n = tagEmpty) → (s.issue p).rawFault p (s.rs p).atag (BitVec.ofNat 4 i.n) = none → c = ⟨(s.rs
  p).acell.v, BitVec.ofNat 4 i.n⟩ → Gives (.retag p) s (fun t => t.kr p =
  { s.onward p with a := extendCell c, atag := c.tag } ∧ s.KnOnly t p)) ∧
  (∀ (s : State) (p : Pair) (i : Kn), s.issues p i = true → i.op = .retag → i.m = 1 → (noValue (s.rs p).x.tag = false ∨
  BitVec.ofNat 4 i.n = tagEmpty) → (s.issue p).rawFault p (s.rs p).x.tag (BitVec.ofNat 4 i.n) = none → Gives (.retag p) s
  (fun t => t.kr p = { s.onward p with x := ⟨(s.rs p).x.v, BitVec.ofNat 4 i.n⟩ } ∧ s.KnOnly t p)) ∧
  (∀ (s : State) (p : Pair) (i : Kn), s.issues p i = true → i.op = .retag → i.m = 2 → (noValue (s.rs p).y.tag = false ∨
  BitVec.ofNat 4 i.n = tagEmpty) → (s.issue p).rawFault p (s.rs p).y.tag (BitVec.ofNat 4 i.n) = none → Gives (.retag p) s
  (fun t => t.kr p = { s.onward p with y := ⟨(s.rs p).y.v, BitVec.ofNat 4 i.n⟩ } ∧ s.KnOnly t p)) ∧
  (∀ (s : State) (p : Pair) (i : Kn), s.issues p i = true → i.op = .pfx → Gives (.pfx p) s (fun t => t.kr p =
  { s.rs p with pc := BitVec.ofNat 17 ((s.rs p).pc.toNat + 1) } ∧ (t.coreOf p).pfx = (s.coreOf p).pfx ++ [i.v.toNat] ∧
  s.KnOnly t p))

/-- Compare-and-branch, JUMP, JUMPX, their delay slot, and LOOP. Follows: R215, R217, R220, R221, R222,
13_knankoeg_instruction_set.md. Beside the rules it rests on these choices of the model: log 101. -/
def Obligations.BranchesAndJumps : Prop :=
  (∀ (s : State) (p : Pair) (i : Kn) (g : Bool), s.issues p i = true → i.op = .eq → branchTaken (s.rs p) i = some g → Gives
  (.eq p) s (fun t => (t.kr p = s.inSlot p (if g then some (ofSigned 17 (((s.rs p).pc.toNat : Int) + i.v)) else none)) ∧
  ((t.coreOf p).slot = some (((s.issue p).coreOf p).savedPc, if g then some (ofSigned 17 (((s.rs p).pc.toNat : Int) + i.v))
  else none)) ∧ s.KnOnly t p)) ∧
  (∀ (s : State) (p : Pair) (i : Kn) (g : Bool), s.issues p i = true → i.op = .ne → branchTaken (s.rs p) i = some g → Gives
  (.ne p) s (fun t => (t.kr p = s.inSlot p (if g then some (ofSigned 17 (((s.rs p).pc.toNat : Int) + i.v)) else none)) ∧
  ((t.coreOf p).slot = some (((s.issue p).coreOf p).savedPc, if g then some (ofSigned 17 (((s.rs p).pc.toNat : Int) + i.v))
  else none)) ∧ s.KnOnly t p)) ∧
  (∀ (s : State) (p : Pair) (i : Kn) (g : Bool), s.issues p i = true → i.op = .lt → branchTaken (s.rs p) i = some g → Gives
  (.lt p) s (fun t => (t.kr p = s.inSlot p (if g then some (ofSigned 17 (((s.rs p).pc.toNat : Int) + i.v)) else none)) ∧
  ((t.coreOf p).slot = some (((s.issue p).coreOf p).savedPc, if g then some (ofSigned 17 (((s.rs p).pc.toNat : Int) + i.v))
  else none)) ∧ s.KnOnly t p)) ∧
  (∀ (s : State) (p : Pair) (i : Kn) (g : Bool), s.issues p i = true → i.op = .ge → branchTaken (s.rs p) i = some g → Gives
  (.ge p) s (fun t => (t.kr p = s.inSlot p (if g then some (ofSigned 17 (((s.rs p).pc.toNat : Int) + i.v)) else none)) ∧
  ((t.coreOf p).slot = some (((s.issue p).coreOf p).savedPc, if g then some (ofSigned 17 (((s.rs p).pc.toNat : Int) + i.v))
  else none)) ∧ s.KnOnly t p)) ∧
  (∀ (s : State) (p : Pair) (i : Kn) (g : Bool), s.issues p i = true → i.op = .gt → branchTaken (s.rs p) i = some g → Gives
  (.gt p) s (fun t => (t.kr p = s.inSlot p (if g then some (ofSigned 17 (((s.rs p).pc.toNat : Int) + i.v)) else none)) ∧
  ((t.coreOf p).slot = some (((s.issue p).coreOf p).savedPc, if g then some (ofSigned 17 (((s.rs p).pc.toNat : Int) + i.v))
  else none)) ∧ s.KnOnly t p)) ∧
  (∀ (s : State) (p : Pair) (i : Kn) (g : Bool), s.issues p i = true → i.op = .le → branchTaken (s.rs p) i = some g → Gives
  (.le p) s (fun t => (t.kr p = s.inSlot p (if g then some (ofSigned 17 (((s.rs p).pc.toNat : Int) + i.v)) else none)) ∧
  ((t.coreOf p).slot = some (((s.issue p).coreOf p).savedPc, if g then some (ofSigned 17 (((s.rs p).pc.toNat : Int) + i.v))
  else none)) ∧ s.KnOnly t p)) ∧
  (∀ (s : State) (p : Pair) (i : Kn) (g : Bool), s.issues p i = true → i.op = .teq → branchTaken (s.rs p) i = some g →
  Gives (.teq p) s (fun t => (t.kr p = s.inSlot p (if g then some (ofSigned 17 (((s.rs p).pc.toNat : Int) + i.v)) else
  none)) ∧ ((t.coreOf p).slot = some (((s.issue p).coreOf p).savedPc, if g then some (ofSigned 17 (((s.rs p).pc.toNat :
  Int) + i.v)) else none)) ∧ s.KnOnly t p)) ∧
  (∀ (s : State) (p : Pair) (i : Kn) (g : Bool), s.issues p i = true → i.op = .tne → branchTaken (s.rs p) i = some g →
  Gives (.tne p) s (fun t => (t.kr p = s.inSlot p (if g then some (ofSigned 17 (((s.rs p).pc.toNat : Int) + i.v)) else
  none)) ∧ ((t.coreOf p).slot = some (((s.issue p).coreOf p).savedPc, if g then some (ofSigned 17 (((s.rs p).pc.toNat :
  Int) + i.v)) else none)) ∧ s.KnOnly t p)) ∧
  (∀ (s : State) (p : Pair) (i : Kn) (d : Nat), s.issues p i = true → i.op = .jump → (((s.rs p).pc.toNat : Int) + i.v = d)
  → (s.issue p).execFault p ((s.issue p).actSet p) d = none → Gives (.jump p) s (fun t => t.kr p = s.inSlot p (some d) ∧
  (t.coreOf p).slot = some (((s.issue p).coreOf p).savedPc, some d) ∧ s.KnOnly t p)) ∧
  (∀ (s : State) (p : Pair) (i : Kn) (d : Nat), s.issues p i = true → i.op = .jumpx → (s.rs p).x.tag = tagCode → (s.rs
  p).x.v.toNat = d → (s.issue p).execFault p ((s.issue p).actSet p) d = none → Gives (.jumpx p) s (fun t => t.kr p =
  s.inSlot p (some d) ∧ (t.coreOf p).slot = some (((s.issue p).coreOf p).savedPc, some d) ∧ s.KnOnly t p)) ∧
  (∀ (s : State) (p : Pair) (i : Kn) (b d : Nat), s.issues p i = true → i.op = .nop → ((s.issue p).coreOf p).slot = some
  (b, some d) → Gives (.nop p) s (fun t => t.kr p = { s.rs p with pc := BitVec.ofNat 17 d } ∧ (t.coreOf p).slot = none ∧
  s.KnOnly t p)) ∧
  (∀ (s : State) (p : Pair) (i : Kn) (n : Int), s.issues p i = true → i.op = .loop → loopCount (s.rs p) i = some n → 0 < n
  → Gives (.loop p) s (fun t => (t.kr p).lstart = BitVec.ofNat 17 ((s.rs p).pc.toNat + 1) ∧ (t.kr p).lend = BitVec.ofNat 17
  ((s.rs p).pc.toNat + i.n) ∧ (t.kr p).lcount = BitVec.ofNat 32 n.toNat ∧ (t.kr p).pc = BitVec.ofNat 17 ((s.rs p).pc.toNat
  + 1) ∧ { t.kr p with lstart := 0, lend := 0, lcount := 0, pc := 0 } =
  { s.rs p with lstart := 0, lend := 0, lcount := 0, pc := 0 } ∧ s.KnOnly t p)) ∧
  (∀ (s : State) (p : Pair) (i : Kn) (n : Int), s.issues p i = true → i.op = .loop → loopCount (s.rs p) i = some n → n ≤ 0
  → Gives (.loop p) s (fun t => (t.kr p).lcount = 0 ∧ (t.kr p).pc = BitVec.ofNat 17 ((s.rs p).pc.toNat + 1 + i.n) ∧
  s.KnOnly t p)) ∧
  (∀ (s : State) (p : Pair) (i : Kn), s.issues p i = true → i.op = .nop → ((s.issue p).coreOf p).slot = none → 1 < (s.rs
  p).lcount.toNat → (s.rs p).lstart.toNat ≤ (s.rs p).pc.toNat → (s.rs p).pc = (s.rs p).lend → Gives (.nop p) s (fun t =>
  t.kr p = { s.rs p with pc := (s.rs p).lstart, lcount := (s.rs p).lcount - 1 })) ∧
  (∀ (s : State) (p : Pair) (i : Kn), s.issues p i = true → i.op = .nop → ((s.issue p).coreOf p).slot = none → (s.rs
  p).lcount = 1 → (s.rs p).lstart.toNat ≤ (s.rs p).pc.toNat → (s.rs p).pc = (s.rs p).lend → Gives (.nop p) s (fun t => t.kr
  p = { s.rs p with pc := BitVec.ofNat 17 ((s.rs p).lend.toNat + 1), lcount := 0 }))

/-- CALL, CALLX, RET, fast calls, gates and RFE. Follows: R210, R219, R221, R253, R254, R255, R256, R257, R262,
15_exceptions_capabilities_and_calls.md. Beside the rules it rests on these choices of the model: logs 113, 173. -/
def Obligations.CoreCallsAndReturns : Prop :=
  (∀ (s : State) (p : Pair) (i : Kn) (d r : Nat), s.issues p i = true → i.op = .call → (((s.rs p).pc.toNat : Int) + i.v =
  d) → (s.issue p).execFault p ((s.issue p).actSet p) d = none → s.rspNow p = r + 4 → (s.capNow p 3).roomFault (r + 4) 4 =
  none → s.cellsOk r 1 = true → s.sbClear p r 4 = true → Gives (.call p) s (fun t => t.kr p = s.atRsp p
  { s.rs p with pc := BitVec.ofNat 17 d } r ∧ t.cell r = stored r ⟨BitVec.ofNat 32 (((s.rs p).pc.toNat + 1) % 2 ^ 17),
  tagCode⟩ ∧ s.CellsKept t (· == r) ∧ s.RegsKept t (· == R.KC_CSEL p))) ∧
  (∀ (s : State) (p : Pair) (i : Kn) (d r : Nat), s.issues p i = true → i.op = .callx → (s.rs p).x.tag = tagCode → (s.rs
  p).x.v.toNat = d → (s.issue p).execFault p ((s.issue p).actSet p) d = none → s.rspNow p = r + 4 → (s.capNow p
  3).roomFault (r + 4) 4 = none → s.cellsOk r 1 = true → s.sbClear p r 4 = true → Gives (.callx p) s (fun t => t.kr p =
  s.atRsp p { s.rs p with pc := BitVec.ofNat 17 d } r ∧ t.cell r = stored r ⟨BitVec.ofNat 32 (((s.rs p).pc.toNat + 1) % 2 ^
  17), tagCode⟩ ∧ s.CellsKept t (· == r) ∧ s.RegsKept t (· == R.KC_CSEL p))) ∧
  (∀ (s : State) (p : Pair) (i : Kn) (c : Cell), s.issues p i = true → i.op = .ret → s.canTop p 1 = true → c = s.cell
  (s.rspNow p) → c.tag = tagCode → Gives (.ret p) s (fun t => t.kr p = s.atRsp p
  { s.rs p with pc := BitVec.ofNat 17 c.v.toNat } (s.rspNow p + 4) ∧ s.KnOnly t p)) ∧
  (∀ (s : State) (p : Pair) (i : Kn) (a : Nat), s.issues p i = true → i.op = .fcall → a = R.KC_FPE p i.n → s.isSet a
  F.KC_FPE_VALID = true → natBit (s.getF a F.KC_FPE_CALLERS) ((s.issue p).actSet p) = true → (s.rs p).link.length < 4 →
  Gives (.fcall p) s (fun t => (t.kr p).pc = BitVec.ofNat 17 (s.getF a F.KC_FPE_ENTRY) ∧ (t.kr p).link = (((s.rs
  p).pc.toNat + 1) % 2 ^ 17, (s.issue p).actSet p) :: (s.rs p).link ∧ t.getF (R.KC_LINK p) F.KC_LINK_DEPTH = (s.rs
  p).link.length + 1 ∧ t.actSet p = s.getF a F.KC_FPE_SET ∧ t.cells = s.cells)) ∧
  (∀ (s : State) (p : Pair) (i : Kn) (a k : Nat) (l : List (Nat × Nat)), s.issues p i = true → i.op = .fret → (s.rs p).link
  = (a, k) :: l → k < 8 → l.length < 4 → Gives (.fret p) s (fun t => t.kr p =
  { s.rs p with pc := BitVec.ofNat 17 a, link := l } ∧ t.actSet p = k ∧ t.getF (R.KC_LINK p) F.KC_LINK_DEPTH = l.length ∧
  t.cells = s.cells)) ∧
  (∀ (s : State) (p : Pair) (i : Kn) (a k : Nat), s.issues p i = true → i.op = .fret → (s.rs p).link = [] → s.canTop p 1 =
  true → a < 2 ^ 17 → k < 8 → s.cell (s.rspNow p) = ⟨BitVec.ofNat 32 (3 * 2 ^ 28 + k * 2 ^ 20 + a), tagUint⟩ → Gives (.fret
  p) s (fun t => t.kr p = s.atRsp p { s.rs p with pc := BitVec.ofNat 17 a } (s.rspNow p + 4) ∧ t.actSet p = k ∧ t.cells =
  s.cells)) ∧
  (∀ (s : State) (p : Pair) (i : Kn) (g : Quad) (k w rsp : Nat) (d1 : Cell), s.issues p i = true → i.op = .gate → g =
  s.capNow p i.n → g.gateFault = none → (s.issue p).pairBars p (pairAccess p g) g.lo false 0 = none → s.cellsOk g.lo 3 =
  true → s.sbClear p g.lo 12 = true → s.cell g.lo = ⟨BitVec.ofNat 32 w, tagUint⟩ → s.cell (g.lo + 4) = d1 → d1.tag =
  tagCode → s.cell (g.lo + 8) = ⟨BitVec.ofNat 32 k, tagUint⟩ → w < 2 ^ 32 → w / 2 ^ 29 ≤ 3 → w / 2 ^ 24 % 32 = 0 → k < 8 →
  gateArg w ((s.rs p).args.take (w / 2 ^ 29)) = none → (s.issue p).calleeFault p k d1.v.toNat 0 = none → ((s.rs p).set
  k).rsp.toNat = rsp + 12 → s.cellsOk rsp 3 = true → s.sbClear p rsp 12 = true → Gives (.gate p) s (fun t => t.actSet p = k
  ∧ (t.kr p).pc = BitVec.ofNat 17 d1.v.toNat ∧ ((t.kr p).set k).rsp = BitVec.ofNat 32 rsp ∧ t.cell rsp = stored rsp
  ⟨BitVec.ofNat 32 (2 * 2 ^ 28 + (s.issue p).actSet p * 2 ^ 20 + w / 2 ^ 29), tagUint⟩ ∧ t.cell (rsp + 4) = stored (rsp +
  4) ⟨BitVec.ofNat 32 (((s.rs p).pc.toNat + 1) % 2 ^ 17), tagCode⟩ ∧ t.cell (rsp + 8) = stored (rsp + 8) ⟨((s.rs p).set
  k).dsp, tagAddr⟩ ∧ (w / 2 ^ 29 = 0 → (t.kr p).atag = tagEmpty ∧ (t.kr p).x = emptyCell ∧ (t.kr p).y = emptyCell) ∧ (w / 2
  ^ 29 = 3 → (t.kr p).a = (s.rs p).a ∧ (t.kr p).x = (s.rs p).x ∧ (t.kr p).y = (s.rs p).y) ∧ (s.CellsKept t (fun a => decide
  (rsp ≤ a ∧ a < rsp + 12))))) ∧
  (∀ (s : State) (p : Pair) (i : Kn) (k n r d : Nat), s.issues p i = true → i.op = .gret → s.canTop p 3 = true → r =
  s.rspNow p → k < 8 → n < 8 → s.cell r = ⟨BitVec.ofNat 32 (2 * 2 ^ 28 + k * 2 ^ 20 + n), tagUint⟩ → (s.cell (r + 4)).tag =
  tagCode → s.cell (r + 8) = ⟨BitVec.ofNat 32 d, tagAddr⟩ → Gives (.gret p) s (fun t => t.actSet p = k ∧ (t.kr p).pc =
  BitVec.ofNat 17 (s.cell (r + 4)).v.toNat ∧ (t.kr p).a = (s.rs p).a ∧ ((t.kr p).set ((s.issue p).actSet p)).dsp =
  BitVec.ofNat 32 d ∧ ((t.kr p).set ((s.issue p).actSet p)).rsp = BitVec.ofNat 32 (r + 12) ∧ s.KnOnly t p)) ∧
  (∀ (s : State) (p : Pair) (i : Kn) (st r : Nat), s.issues p i = true → i.op = .rfe → (s.rs p).efr = 0 → s.canTop p 8 =
  true → r = s.rspNow p → s.cell r = ⟨BitVec.ofNat 32 st, tagUint⟩ → st / 2 ^ 28 = 1 → st / 2 ^ 10 % 64 ≠ 0 → (s.issue
  p).ready p (st / 2 ^ 23 % 32) = none → Gives (.rfe p) s (fun t => t.actSet p = st / 2 ^ 20 % 8 ∧ t.getF (R.KC_CSEL p)
  F.KC_CSEL_LEVEL = st / 2 ^ 23 % 32 ∧ (t.kr p).pc = BitVec.ofNat 17 (s.cell (r + 4)).v.toNat ∧ (t.kr p).atag = (s.cell (r
  + 8)).tag ∧ (t.kr p).a = BitVec.ofNat 40 ((s.cell (r + 12)).v.toNat % 256 * 2 ^ 32 + (s.cell (r + 8)).v.toNat) ∧ (t.kr
  p).pg = BitVec.ofNat 16 ((s.cell (r + 12)).v.toNat / 65536) ∧ (t.kr p).x = s.cell (r + 16) ∧ (t.kr p).y = s.cell (r + 20)
  ∧ (t.kr p).lcount = (s.cell (r + 24)).v ∧ (t.kr p).lend = BitVec.ofNat 17 (s.cell (r + 28)).v.toNat ∧ ((t.kr p).set
  ((s.issue p).actSet p)).rsp = BitVec.ofNat 32 (r + 32) ∧ t.getF (R.KC_FAULT p) F.KC_FAULT_NEST = s.getF (R.KC_FAULT p)
  F.KC_FAULT_NEST - 1 ∧ t.cells = s.cells))

/-- LOCK, SC, the broken sequence, FENCE, WFE and PSTORE. Follows: R219, R226, R227, R238, 13_knankoeg_instruction_set.md.
Beside the rules it rests on these choices of the model: log 114. -/
def Obligations.LockedSequences : Prop :=
  (∀ (s : State) (p : Pair) (i : Kn), s.issues p i = true → i.op = .lock → Gives (.lock p) s (fun t => t.kr p = s.onward p
  ∧ (t.coreOf p).lock = some ⟨1, none, true⟩ ∧ s.KnOnly t p)) ∧
  (∀ (s : State) (p : Pair) (i : Kn) (n ea : Nat) (c : Cell) (l : LockSt), s.issues p i = true → i.op = .lda → (s.issue
  p).operand p i = some (n, ea) → s.canLoad p n ea c = true → ((s.issue p).coreOf p).lock = some l → l.resv = none → Gives
  (.lda p) s (fun t => (t.coreOf p).lock = some { l with n := l.n + 1, resv := some ea, good := true } ∧ s.KnOnly t p)) ∧
  (∀ (s : State) (p : Pair) (i : Kn) (n ea : Nat) (c : Cell), s.issues p i = true → i.op = .sc → (s.issue p).operand p i =
  some (n, ea) → c = (s.rs p).acell → noValue c.tag = false → (s.issue p).storeFault p ((s.issue p).quadAt p n) ea [pWrite]
  c = none → ((s.issue p).coreOf p).holds ea = true → s.cellsOk ea 1 = true → s.sbClear p ea 4 = true → Gives (.sc p) s
  (fun t => t.kr p = { s.onward p with x := ⟨1, tagUint⟩ } ∧ t.cell ea = stored ea c ∧ (t.coreOf p).lock = none ∧
  s.CellsKept t (· == ea) ∧ s.RegsKept t (· == R.KC_CSEL p))) ∧
  (∀ (s : State) (p : Pair) (i : Kn) (n ea : Nat) (c : Cell), s.issues p i = true → i.op = .sc → (s.issue p).operand p i =
  some (n, ea) → c = (s.rs p).acell → noValue c.tag = false → (s.issue p).storeFault p ((s.issue p).quadAt p n) ea [pWrite]
  c = none → ((s.issue p).coreOf p).holds ea = false → spaceOf ea ≠ .reg → s.sbClear p ea 4 = true → Gives (.sc p) s (fun t
  => t.kr p = { s.onward p with x := ⟨0, tagUint⟩ } ∧ (t.coreOf p).lock = none ∧ s.KnOnly t p)) ∧
  (∀ (s : State) (p : Pair) (l : LockSt), (s.coreOf p).lock = some l → 16 ≤ l.n → Gives (.lockBroken p) s (fun t => t =
  s.setCore p { s.coreOf p with lock := none })) ∧
  (∀ (s : State) (p : Pair) (i : Kn), s.issues p i = true → i.op = .fence → (∀ e ∈ (s.rs p).sb, s.memStalls e.addr = false
  ∧ s.mark e.addr = none ∧ inCopy e.addr = false) → (s.rs p).sb.length ≤ 4 → Gives (.ctlFence p) s (fun t => t.kr p =
  { s.onward p with sb := [] } ∧ (s.CellsKept t (fun a => (s.rs p).sb.any (fun e => e.overlaps a 4))) ∧ s.RegsKept t (· ==
  R.KC_CSEL p))) ∧
  (∀ (s : State) (p : Pair) (i : Kn) (e : Nat) (c : Cell), s.issues p i = true → i.op = .fence → (s.rs p).sb = [.cell e c]
  → inCopy e = false → s.memStalls e = false → s.mark e = none → s.absentSlice e = false → s.absentMain e = false → Gives
  (.ctlFence p) s (fun t => t.cell e = stored e c ∧ (t.kr p).sb = [])) ∧
  (∀ (s : State) (p : Pair) (i : Kn), s.issues p i = true → i.op = .wfe → Gives (.wfe p) s (fun t => t.kr p = s.onward p ∧
  (t.coreOf p).wfe = true ∧ s.KnOnly t p)) ∧
  (∀ (s : State) (p : Pair) (i : Kn) (a : Nat), s.issues p i = true → i.op = .pstore → ((s.rs p).atag = tagUint ∨ (s.rs
  p).atag = tagInt) → (s.rs p).a.toNat < 2 ^ 14 → (s.rs p).x.tag = tagCode → a = (s.rs p).x.v.toNat → a < 2 ^ 17 →
  (s.capNow p 0).unusable true = none → (s.capNow p 0).lo ≤ a → a < (s.capNow p 0).hi → (s.capNow p 0).perm pWrite = true →
  Gives (.pstore p) s (fun t => t.kr p = s.onward p ∧ t.progWord p a = (s.rs p).a.setWidth 14 ∧ t.cells = s.cells ∧
  s.RegsKept t (· == R.KC_CSEL p)))

/-- Class 0b00 words: the operation where the condition holds, a NOP otherwise. Follows: R209, R213, R217, R230, R231,
13_knankoeg_instruction_set.md. Beside the rules it rests on these choices of the model: log 110. -/
def Obligations.LegacyWords : Prop :=
  (∀ (s : State) (p : Pair) (i : Kn) (n ea : Nat) (c : Cell), s.issues p i = true → i.op = .llda → legacyCond (s.rs p) i.m
  = some true → (s.issue p).operand p { i with m := 0 } = some (n, ea) → s.canLoad p n ea c = true → Gives (.legacyLda p) s
  (fun t => t.kr p = { s.onward p with a := extendCell c, atag := c.tag } ∧ s.KnOnly t p)) ∧
  (∀ (s : State) (p : Pair) (i : Kn) (n ea : Nat) (c : Cell), s.issues p i = true → i.op = .lsta → legacyCond (s.rs p) i.m
  = some true → (s.issue p).operand p { i with m := 0 } = some (n, ea) → c = (s.rs p).acell → s.canStore p n ea c = true →
  Gives (.legacySta p) s (fun t => t.kr p = { s.onward p with sb := buffered (s.rs p).sb (.cell ea c) } ∧ s.StoreOnly t p)) ∧
  (∀ (s : State) (p : Pair) (i : Kn) (n ea : Nat) (c : Cell) (v : BitVec 40) (g : BitVec 4), s.issues p i = true → i.op =
  .ladd → legacyCond (s.rs p) i.m = some true → (s.issue p).operand p { i with m := 0 } = some (n, ea) → s.canLoad p n ea c
  = true → noValue (s.rs p).atag = false → kAdd false false (s.rs p).a (s.rs p).atag c = .val v g → Gives (.legacyAdd p) s
  (fun t => t.kr p = { s.onward p with a := v, atag := g } ∧ s.KnOnly t p)) ∧
  (∀ (s : State) (p : Pair) (i : Kn) (n ea : Nat) (c : Cell) (v : BitVec 40) (g : BitVec 4), s.issues p i = true → i.op =
  .lsub → legacyCond (s.rs p) i.m = some true → (s.issue p).operand p { i with m := 0 } = some (n, ea) → s.canLoad p n ea c
  = true → noValue (s.rs p).atag = false → kAdd true false (s.rs p).a (s.rs p).atag c = .val v g → Gives (.legacySub p) s
  (fun t => t.kr p = { s.onward p with a := v, atag := g } ∧ s.KnOnly t p)) ∧
  (∀ (s : State) (p : Pair) (i : Kn) (n ea : Nat) (c : Cell) (v : BitVec 40) (g : BitVec 4), s.issues p i = true → i.op =
  .land → legacyCond (s.rs p) i.m = some true → (s.issue p).operand p { i with m := 0 } = some (n, ea) → s.canLoad p n ea c
  = true → noValue (s.rs p).atag = false → kLogic (· &&& ·) (s.rs p).a (s.rs p).atag c = .val v g → Gives (.legacyAnd p) s
  (fun t => t.kr p = { s.onward p with a := v, atag := g } ∧ s.KnOnly t p)) ∧
  (∀ (s : State) (p : Pair) (i : Kn) (n ea : Nat) (c : Cell) (v : BitVec 40) (g : BitVec 4), s.issues p i = true → i.op =
  .lor → legacyCond (s.rs p) i.m = some true → (s.issue p).operand p { i with m := 0 } = some (n, ea) → s.canLoad p n ea c
  = true → noValue (s.rs p).atag = false → kLogic (· ||| ·) (s.rs p).a (s.rs p).atag c = .val v g → Gives (.legacyOr p) s
  (fun t => t.kr p = { s.onward p with a := v, atag := g } ∧ s.KnOnly t p)) ∧
  (∀ (s : State) (p : Pair) (i : Kn) (n ea : Nat) (c : Cell) (v : BitVec 40) (g : BitVec 4), s.issues p i = true → i.op =
  .lxor → legacyCond (s.rs p) i.m = some true → (s.issue p).operand p { i with m := 0 } = some (n, ea) → s.canLoad p n ea c
  = true → noValue (s.rs p).atag = false → kLogic (· ^^^ ·) (s.rs p).a (s.rs p).atag c = .val v g → Gives (.legacyXor p) s
  (fun t => t.kr p = { s.onward p with a := v, atag := g } ∧ s.KnOnly t p)) ∧
  (∀ (s : State) (p : Pair) (i : Kn), s.issues p i = true → i.op = .jmpp → legacyCond (s.rs p) i.m = some true → Gives
  (.jmpp p) s (fun t => t.kr p = s.inSlot p (some ((s.rs p).pc.toNat / 64 * 64 + i.v.toNat)) ∧ (t.coreOf p).slot = some
  (((s.issue p).coreOf p).savedPc, some ((s.rs p).pc.toNat / 64 * 64 + i.v.toNat)) ∧ s.KnOnly t p)) ∧
  (∀ (s : State) (p : Pair) (i : Kn), s.issues p i = true → i.op = .llda → legacyCond (s.rs p) i.m = some false → Gives
  (.legacyLda p) s (fun t => t.kr p = s.onward p ∧ s.KnOnly t p)) ∧
  (∀ (s : State) (p : Pair) (i : Kn), s.issues p i = true → i.op = .lsta → legacyCond (s.rs p) i.m = some false → Gives
  (.legacySta p) s (fun t => t.kr p = s.onward p ∧ s.KnOnly t p)) ∧
  (∀ (s : State) (p : Pair) (i : Kn), s.issues p i = true → i.op = .ladd → legacyCond (s.rs p) i.m = some false → Gives
  (.legacyAdd p) s (fun t => t.kr p = s.onward p ∧ s.KnOnly t p)) ∧
  (∀ (s : State) (p : Pair) (i : Kn), s.issues p i = true → i.op = .lsub → legacyCond (s.rs p) i.m = some false → Gives
  (.legacySub p) s (fun t => t.kr p = s.onward p ∧ s.KnOnly t p)) ∧
  (∀ (s : State) (p : Pair) (i : Kn), s.issues p i = true → i.op = .land → legacyCond (s.rs p) i.m = some false → Gives
  (.legacyAnd p) s (fun t => t.kr p = s.onward p ∧ s.KnOnly t p)) ∧
  (∀ (s : State) (p : Pair) (i : Kn), s.issues p i = true → i.op = .lor → legacyCond (s.rs p) i.m = some false → Gives
  (.legacyOr p) s (fun t => t.kr p = s.onward p ∧ s.KnOnly t p)) ∧
  (∀ (s : State) (p : Pair) (i : Kn), s.issues p i = true → i.op = .lxor → legacyCond (s.rs p) i.m = some false → Gives
  (.legacyXor p) s (fun t => t.kr p = s.onward p ∧ s.KnOnly t p)) ∧
  (∀ (s : State) (p : Pair) (i : Kn), s.issues p i = true → i.op = .jmpp → legacyCond (s.rs p) i.m = some false → Gives
  (.jmpp p) s (fun t => t.kr p = s.onward p ∧ s.KnOnly t p))

/-- Instructions on capability registers. Follows: R229, R245, R247, R248, R249, R251, R252,
15_exceptions_capabilities_and_calls.md. Beside the rules it rests on these choices of the model: logs 107, 110. -/
def Obligations.CapabilityInstructions : Prop :=
  (∀ (s : State) (p : Pair) (i : Kn) (ea : Nat) (q : Quad), s.issues p i = true → i.op = .cld → (s.rs p).x.tag = tagAddr →
  ea = (s.rs p).x.v.toNat → (s.issue p).quadFault p ea [pRead, pQread] false = none → s.cellsOk ea 4 = true → s.sbClear p
  ea 16 = true → q = ⟨s.cell ea, s.cell (ea + 4), s.cell (ea + 8), s.cell (ea + 12)⟩ → (q.tags tagCap = true ∨ q.tags
  tagEmpty = true) → Gives (.cld p) s (fun t => t.kr p = (s.onward p).putCap ((s.issue p).wset p) i.n q ∧ s.KnOnly t p)) ∧
  (∀ (s : State) (p : Pair) (i : Kn) (ea : Nat) (q : Quad), s.issues p i = true → i.op = .cst → (s.rs p).x.tag = tagAddr →
  ea = (s.rs p).x.v.toNat → (s.issue p).quadFault p ea [pWrite, pQwrite] true = none → (s.issue p).quadTags p ea = true →
  s.cellsOk ea 4 = true → s.sbClear p ea 16 = true → q = s.capNow p i.n → Gives (.cst p) s (fun t => t.kr p = s.onward p ∧
  t.cell ea = stored ea (q.base) ∧ t.cell (ea + 4) = stored (ea + 4) (q.len) ∧ t.cell (ea + 8) = stored (ea + 8) (q.perms)
  ∧ t.cell (ea + 12) = stored (ea + 12) (q.st) ∧ (s.CellsKept t (fun a => decide (ea ≤ a ∧ a < ea + 16))))) ∧
  (∀ (s : State) (p : Pair) (i : Kn) (q : Quad), s.issues p i = true → i.op = .crange → q = s.capNow p i.n → q.valid = true
  → q.closed = false → ((s.rs p).x.tag = (if q.program then tagCode else tagAddr)) → (s.rs p).y.tag = tagUint → q.lo ≤
  (s.rs p).x.v.toNat → (s.rs p).x.v.toNat + (s.rs p).y.v.toNat ≤ q.hi → Gives (.crange p) s (fun t => t.kr p = (s.onward
  p).putCap ((s.issue p).actSet p) i.n { q with base := ⟨(s.rs p).x.v, tagCap⟩, len := ⟨(s.rs p).y.v, tagCap⟩ } ∧ s.KnOnly
  t p)) ∧
  (∀ (s : State) (p : Pair) (i : Kn) (q : Quad), s.issues p i = true → i.op = .cmask → q = s.capNow p i.n → q.valid = true
  → q.closed = false → (s.rs p).atag = tagUint → Gives (.cmask p) s (fun t => t.kr p = (s.onward p).putCap ((s.issue
  p).actSet p) i.n { q with perms := ⟨q.perms.v &&& (0xFFFF0000 ||| (s.rs p).a.setWidth 32), tagCap⟩ } ∧ s.KnOnly t p)) ∧
  (∀ (s : State) (p : Pair) (i : Kn) (q : Quad) (k : Nat), s.issues p i = true → i.op = .cclose → q = s.capNow p i.n →
  q.valid = true → q.closed = false → (s.rs p).atag = tagUint → k = (s.rs p).a.toNat → k < 65536 → q.perm pBind = true →
  (s.issue p).keyOk p k = true → Gives (.cclose p) s (fun t => ((t.kr p).cap ((s.issue p).actSet p) i.n).closed = true ∧
  ((t.kr p).cap ((s.issue p).actSet p) i.n).key = k ∧ ((t.kr p).cap ((s.issue p).actSet p) i.n).base = q.base ∧ ((t.kr
  p).cap ((s.issue p).actSet p) i.n).len = q.len ∧ (t.kr p).a = (s.rs p).a ∧ s.KnOnly t p)) ∧
  (∀ (s : State) (p : Pair) (i : Kn) (q : Quad) (k : Nat), s.issues p i = true → i.op = .copen → q = s.capNow p i.n →
  q.valid = true → q.closed = true → (s.rs p).atag = tagUint → k = (s.rs p).a.toNat → q.key = k → (s.issue p).keyOk p k =
  true → Gives (.copen p) s (fun t => t.kr p = (s.onward p).putCap ((s.issue p).actSet p) i.n
  { q with st := ⟨q.st.v &&& 0x7FFFFFFF, tagCap⟩ } ∧ s.KnOnly t p)) ∧
  (∀ (s : State) (p : Pair) (i : Kn), s.issues p i = true → i.op = .cclr → Gives (.cclr p) s (fun t => t.kr p = (s.onward
  p).putCap ((s.issue p).wset p) i.n emptyQuad ∧ s.KnOnly t p)) ∧
  (∀ (s : State) (p : Pair) (i : Kn), s.issues p i = true → i.op = .cinfo → (s.rs p).x = ⟨0, tagUint⟩ → (s.capNow p
  i.n).valid = true → Gives (.cinfo p) s (fun t => (t.kr p =
  { s.onward p with a := (s.capNow p i.n).base.v.setWidth 40, atag := if (s.capNow p i.n).program then tagCode else tagAddr })
  ∧ s.KnOnly t p)) ∧
  (∀ (s : State) (p : Pair) (i : Kn), s.issues p i = true → i.op = .cinfo → (s.rs p).x = ⟨2, tagUint⟩ → (s.capNow p
  i.n).valid = true → Gives (.cinfo p) s (fun t => t.kr p =
  { s.onward p with a := (s.capNow p i.n).perms.v.setWidth 40, atag := tagUint } ∧ s.KnOnly t p)) ∧
  (∀ (s : State) (p : Pair) (i : Kn), s.issues p i = true → i.op = .cinfo → (s.rs p).x = ⟨1, tagUint⟩ → (s.capNow p
  i.n).valid = true → Gives (.cinfo p) s (fun t => t.kr p =
  { s.onward p with a := (s.capNow p i.n).len.v.setWidth 40, atag := tagUint } ∧ s.KnOnly t p)) ∧
  (∀ (s : State) (p : Pair) (i : Kn), s.issues p i = true → i.op = .cinfo → (s.rs p).x = ⟨3, tagUint⟩ → (s.capNow p
  i.n).valid = true → Gives (.cinfo p) s (fun t => t.kr p =
  { s.onward p with a := (s.capNow p i.n).st.v.setWidth 40, atag := tagUint } ∧ s.KnOnly t p)) ∧
  (∀ (s : State) (p : Pair) (i : Kn), s.issues p i = true → i.op = .cmov → ((s.capNow p i.n).valid = true ∨ (s.capNow p
  i.n).isEmpty = true) → Gives (.cmov p) s (fun t => t.kr p = (s.onward p).putCap ((s.issue p).wset p) i.d (s.capNow p i.n)
  ∧ s.KnOnly t p)) ∧
  (∀ (s : State) (p : Pair) (i : Kn), s.issues p i = true → i.op = .ctst → Gives (.ctst p) s (fun t => (t.kr p =
  { s.onward p with x := ⟨if (s.capNow p i.n).valid then 1 else 0, tagUint⟩ }) ∧ s.KnOnly t p)) ∧
  (∀ (s : State) (p : Pair) (i : Kn) (c0 : Quad), s.issues p i = true → i.op = .capsw → natBit (s.getF (R.KC_CSET p
  ((s.issue p).actSet p)) F.KC_CSET_ALLOW) i.n = true → c0 = (s.rs p).cap i.n 0 → c0.valid = true → c0.program = true →
  c0.closed = false → c0.perm pExec = true → Gives (.capsw p) s (fun t => t.kr p =
  { s.rs p with pc := BitVec.ofNat 17 ((s.rs p).pc.toNat + 1) } ∧ (t.coreOf p).shadow = some (((s.issue p).coreOf
  p).savedPc, i.n) ∧ t.actSet p = s.actSet p ∧ s.KnOnly t p)) ∧
  (∀ (s : State) (p : Pair) (i : Kn) (b k : Nat), s.issues p i = true → i.op = .nop → ((s.issue p).coreOf p).shadow = some
  (b, k) → k < 8 → Gives (.nop p) s (fun t => t.kr p = s.onward p ∧ t.actSet p = k ∧ t.getF (R.KC_CSEL p) F.KC_CSEL_WSET =
  k ∧ (t.coreOf p).shadow = none ∧ s.KnOnly t p))

/-- DIV, SQRT, SINCOS, ATAN2, their results, and attached calls. Follows: R144, R145, R223, R224, R225,
13_knankoeg_instruction_set.md. Beside the rules it rests on these choices of the model: logs 13, 14, 25, 115. -/
def Obligations.LongOperationsAndCalls : Prop :=
  (∀ (s : State) (p : Pair) (i : Kn) (d : Int), s.issues p i = true → i.op = .div → (s.rs p).atag = tagInt → (s.rs p).x.tag
  = tagInt → d = (s.rs p).x.v.toInt → d ≠ 0 → (d ≠ -1 ∨ -(2 ^ 39) < (s.rs p).a.toInt) → Gives (.div p) s (fun t => t.kr p =
  s.onward p ∧ (t.coreOf p).long = some ⟨some (BitVec.ofInt 40 ((s.rs p).a.toInt.tdiv d), tagInt), none, some ⟨BitVec.ofInt
  32 ((s.rs p).a.toInt.tmod d), tagInt⟩⟩ ∧ s.KnOnly t p)) ∧
  (∀ (s : State) (p : Pair) (i : Kn), s.issues p i = true → i.op = .div → (s.rs p).atag = tagUint → (s.rs p).x.tag =
  tagUint → (s.rs p).x.v ≠ 0 → Gives (.div p) s (fun t => t.kr p = s.onward p ∧ (t.coreOf p).long = some ⟨some
  (BitVec.ofNat 40 ((s.rs p).a.toNat / (s.rs p).x.v.toNat), tagUint), none, some ⟨BitVec.ofNat 32 ((s.rs p).a.toNat % (s.rs
  p).x.v.toNat), tagUint⟩⟩ ∧ s.KnOnly t p)) ∧
  (∀ (s : State) (p : Pair) (i : Kn), s.issues p i = true → i.op = .div → ((s.rs p).atag = tagInt ∨ (s.rs p).atag =
  tagUint) → (s.rs p).x.tag = (s.rs p).atag → (s.rs p).x.v = 0 → Gives (.div p) s (fun t => t.kr p = s.onward p ∧ (t.coreOf
  p).long = some ⟨some (0, tagEmpty), none, some emptyCell⟩ ∧ s.KnOnly t p)) ∧
  (∀ (s : State) (p : Pair) (i : Kn) (r : Nat), s.issues p i = true → i.op = .sqrt → ((s.rs p).atag = tagInt ∨ (s.rs
  p).atag = tagUint) → ((s.rs p).atag = tagInt → 0 ≤ (s.rs p).a.toInt) → r * r ≤ (s.rs p).a.toNat → (s.rs p).a.toNat < (r +
  1) * (r + 1) → Gives (.sqrt p) s (fun t => t.kr p = s.onward p ∧ (t.coreOf p).long = some ⟨some (BitVec.ofNat 40 r, (s.rs
  p).atag), none, none⟩ ∧ s.KnOnly t p)) ∧
  (∀ (s : State) (p : Pair) (i : Kn), s.issues p i = true → i.op = .div → noValue (s.rs p).atag = false → noValue (s.rs
  p).x.tag = false → ((s.rs p).atag = tagRaw ∨ (s.rs p).x.tag = tagRaw) → (s.rs p).x.v ≠ 0 → Gives (.div p) s (fun t =>
  t.kr p = s.onward p ∧ (t.coreOf p).long = some ⟨some (BitVec.ofNat 40 ((s.rs p).a.toNat / (s.rs p).x.v.toNat), tagRaw),
  none, some ⟨BitVec.ofNat 32 ((s.rs p).a.toNat % (s.rs p).x.v.toNat), tagRaw⟩⟩ ∧ s.KnOnly t p)) ∧
  (∀ (s : State) (p : Pair) (i : Kn), s.issues p i = true → i.op = .div → (s.rs p).atag = tagQ31 → (s.rs p).x.tag = tagQ31
  → (s.rs p).x.v = 0 → Gives (.div p) s (fun t => t.kr p = s.onward p ∧ (t.coreOf p).long = some ⟨some (0, tagEmpty), none,
  none⟩ ∧ s.KnOnly t p)) ∧
  (∀ (s : State) (p : Pair) (i : Kn) (d q : Int), s.issues p i = true → i.op = .div → (s.rs p).atag = tagQ31 → (s.rs
  p).x.tag = tagQ31 → d = (s.rs p).x.v.toInt → d ≠ 0 → q * d = (s.rs p).a.toInt * 2 ^ 31 → Gives (.div p) s (fun t => t.kr
  p = s.onward p ∧ (t.coreOf p).long = some ⟨some (BitVec.ofInt 40 (max (-(2 ^ 31)) (min (2 ^ 31 - 1) q)), tagQ31), none,
  none⟩ ∧ s.KnOnly t p)) ∧
  (∀ (s : State) (p : Pair) (i : Kn) (d q : Int), s.issues p i = true → i.op = .div → (s.rs p).atag = tagQ31 → (s.rs
  p).x.tag = tagQ31 → d = (s.rs p).x.v.toInt → d ≠ 0 → ((0 < d ∧ q * d < (s.rs p).a.toInt * 2 ^ 31 ∧ (s.rs p).a.toInt * 2 ^
  31 < (q + 1) * d) ∨ (d < 0 ∧ (q + 1) * d < (s.rs p).a.toInt * 2 ^ 31 ∧ (s.rs p).a.toInt * 2 ^ 31 < q * d)) → Gives (.div
  p) s (fun t => t.kr p = s.onward p ∧ ((t.coreOf p).long = some ⟨some (BitVec.ofInt 40 (max (-(2 ^ 31)) (min (2 ^ 31 - 1)
  q)), tagQ31), none, none⟩ ∨ (t.coreOf p).long = some ⟨some (BitVec.ofInt 40 (max (-(2 ^ 31)) (min (2 ^ 31 - 1) (q + 1))),
  tagQ31), none, none⟩) ∧ t.cells = s.cells)) ∧
  (∀ (s : State) (p : Pair) (i : Kn) (r : Nat), s.issues p i = true → i.op = .sqrt → (s.rs p).atag = tagQ31 → 0 ≤ (s.rs
  p).a.toInt → r * r ≤ (s.rs p).a.toNat * 2 ^ 31 → (s.rs p).a.toNat * 2 ^ 31 < (r + 1) * (r + 1) → Gives (.sqrt p) s (fun t
  => t.kr p = s.onward p ∧ (t.coreOf p).long = some ⟨some (BitVec.ofNat 40 r, tagQ31), none, none⟩ ∧ s.KnOnly t p)) ∧
  (∀ (s : State) (p : Pair) (i : Kn), s.issues p i = true → i.op = .sqrt → ((s.rs p).atag = tagInt ∨ (s.rs p).atag =
  tagQ31) → (s.rs p).a.toInt < 0 → Gives (.sqrt p) s (fun t => t.kr p = s.onward p ∧ (t.coreOf p).long = some ⟨some (0,
  tagEmpty), none, none⟩ ∧ s.KnOnly t p)) ∧
  (∀ (s : State) (p : Pair) (i : Kn), s.issues p i = true → i.op = .sincos → (s.rs p).atag = tagQ31 → Gives (.sincos p) s
  (fun t => { t.kr p with x := emptyCell } = { s.onward p with x := emptyCell } ∧ ((t.coreOf p).long.map (fun l => (l.a,
  l.x.map (fun c => c.tag), l.y)) = some (none, some tagFrac2, none)) ∧ t.cells = s.cells)) ∧
  (∀ (s : State) (p : Pair) (i : Kn), s.issues p i = true → i.op = .atan2 → (s.rs p).x = ⟨0, tagFrac2⟩ → Gives (.atan2 p) s
  (fun t => t.kr p = s.onward p ∧ (t.coreOf p).long = some ⟨some (0, tagQ31), none, none⟩ ∧ s.KnOnly t p)) ∧
  (∀ (s : State) (p : Pair) (i : Kn), s.issues p i = true → i.op = .atan2 → (s.rs p).x.tag = tagFrac2 → Gives (.atan2 p) s
  (fun t => t.kr p = s.onward p ∧ ((t.coreOf p).long.map (fun l => (l.a.map (fun x => x.2), l.x, l.y)) = some (some tagQ31,
  none, none)) ∧ t.cells = s.cells)) ∧
  (∀ (s : State) (p : Pair) (l : LongRes) (a : BitVec 40) (g : BitVec 4), (s.coreOf p).long = some l → l.a = some (a, g) →
  Gives (.longResult p) s (fun t => t = s.setCore p
  { s.coreOf p with long := none, r := { s.kr p with a := a, atag := g, x := l.x.getD (s.kr p).x, y := l.y.getD (s.kr p).y } })) ∧
  (∀ (s : State) (p : Pair) (i : Kn) (m : Slice), s.issues p i = true → i.op = .att → p.val = m.val → (i.n < 128 ∨
  (s.part.full = true ∧ s.isSet (R.MCS_XT m (i.n - 128)) F.MCS_XT_VALID = true)) → attTags (s.rs p) i.n = true → Gives
  (.att p) s (fun t => (t.cleOf m).call = some ⟨i.n, attWord ((s.rs p).a.setWidth 32) (s.rs p).atag, attWord (s.rs p).x.v
  (s.rs p).x.tag, attWord (s.rs p).y.v (s.rs p).y.tag, false, none⟩ ∧ (t.coreOf p).att = true ∧ t.isSet (R.MCS_XSTAT m)
  F.MCS_XSTAT_PEND = true ∧ t.kr p = s.onward p ∧ t.cells = s.cells))

/-- Entry of a fault and of an interrupt. Follows: R232, R258, R259, R260, R261, R264, R265, R307, R308,
15_exceptions_capabilities_and_calls.md, 18_event_router.md. Beside the rules it rests on these choices of the model: logs
112, 143, 153, 172. -/
def Obligations.FaultsAndInterrupts : Prop :=
  (∀ (s : State) (p : Pair) (hs sp : Nat), s.pairRuns p false = true → s.awake p = true → (s.issue p).execFault p ((s.issue
  p).actSet p) (s.rs p).pc.toNat = none → s.mem.pecc = [] → knDecode (s.progWord p (s.rs p).pc.toNat).toNat (s.coreOf
  p).pfx = none → (s.coreOf p).att = false → s.isSet (R.KC_CSEL p) F.KC_CSEL_EMERG = false → hs = s.getF (R.KC_VEC p)
  F.KC_VEC_HSET → takesFrame (s.rs p) hs = true → ((s.rs p).set hs).rsp.toNat = sp + 32 → s.cellsOk sp 8 = true → Gives
  (.faultEntry p) s (fun t => t.isSet (R.KC_FAULT p) F.KC_FAULT_VALID = true ∧ t.getF (R.KC_FAULT p) F.KC_FAULT_CODE = 1 ∧
  t.getF (R.KC_FPC p) F.KC_FPC_PC = (s.coreOf p).savedPc % 2 ^ 17 ∧ t.actSet p = hs ∧ (t.kr p).pc = BitVec.ofNat 17 (s.getF
  (R.KC_VEC p) F.KC_VEC_BASE) ∧ (t.kr p).lcount = 0 ∧ ((t.kr p).set hs).rsp = BitVec.ofNat 32 sp ∧ t.cell (sp + 4) = stored
  (sp + 4) ⟨BitVec.ofNat 32 (s.coreOf p).savedPc, tagCode⟩ ∧ t.cell (sp + 8) = stored (sp + 8) ⟨(s.rs p).a.setWidth 32,
  (s.rs p).atag⟩ ∧ t.cell (sp + 16) = stored (sp + 16) ((s.rs p).x) ∧ t.cell (sp + 20) = stored (sp + 20) ((s.rs p).y) ∧
  t.cell (sp + 24) = stored (sp + 24) ⟨(s.rs p).lcount, tagUint⟩ ∧ t.getF (R.KC_FAULT p) F.KC_FAULT_NEST = min 65535
  (s.getF (R.KC_FAULT p) F.KC_FAULT_NEST + 1) ∧ (s.CellsKept t (fun a => decide (sp ≤ a ∧ a < sp + 32))))) ∧
  (∀ (s : State) (p : Pair), s.pairRuns p false = true → s.awake p = true → (s.issue p).execFault p ((s.issue p).actSet p)
  (s.rs p).pc.toNat = none → s.mem.pecc = [] → knDecode (s.progWord p (s.rs p).pc.toNat).toNat (s.coreOf p).pfx = none →
  (s.coreOf p).att = false → ((List.range 8).all (fun j => !s.accessWaits (emergencyBase p + 1024 - 32 * ((s.rs p).efr + 1)
  + 4 * j)) = true) → (s.isSet (R.KC_CSEL p) F.KC_CSEL_EMERG = true ∨ takesFrame (s.rs p) (s.getF (R.KC_VEC p)
  F.KC_VEC_HSET) = false) → (s.rs p).efr < 32 → Gives (.faultEntry p) s (fun t => t.getF (R.KC_FAULT p) F.KC_FAULT_CODE =
  0xB ∧ t.isSet (R.KC_CSEL p) F.KC_CSEL_EMERG = true ∧ (t.kr p).efr = (s.rs p).efr + 1 ∧ t.actSet p = s.getF (R.KC_VEC p)
  F.KC_VEC_HSET ∧ (t.kr p).pc = BitVec.ofNat 17 (s.getF (R.KC_VEC p) F.KC_VEC_BASE) ∧ (t.kr p).lcount = 0)) ∧
  (∀ (s : State) (p : Pair) (r hs sp : Nat), s.pairRuns p false = true → s.interruptible p = true → (s.issue p).ready p
  (s.getF (R.KC_CSEL p) F.KC_CSEL_LEVEL) = some r → r < 1024 → hs = s.getF (R.KC_VEC p) F.KC_VEC_HSET → takesFrame (s.rs p)
  hs = true → ((s.rs p).set hs).rsp.toNat = sp + 32 → s.cellsOk sp 8 = true → (s.routeTgt r).prio < 32 → Gives
  (.interruptEntry p) s (fun t => t.getF (R.KC_CSEL p) F.KC_CSEL_LEVEL = (s.routeTgt r).prio ∧ (t.kr p).pc = BitVec.ofNat
  17 (s.getF (R.KC_VEC p) F.KC_VEC_BASE + 4 * (1 + (s.routeTgt r).prio)) ∧ t.actSet p = hs ∧ (t.route r).st = .active ∧
  (t.kr p).lcount = 0 ∧ t.cell (sp + 4) = stored (sp + 4) ⟨BitVec.ofNat 32 (s.rs p).pc.toNat, tagCode⟩ ∧ t.cell (sp + 16) =
  stored (sp + 16) ((s.rs p).x) ∧ t.getF (R.KC_FAULT p) F.KC_FAULT_CODE = s.getF (R.KC_FAULT p) F.KC_FAULT_CODE ∧
  (s.CellsKept t (fun a => decide (sp ≤ a ∧ a < sp + 32)))))

/-- Checkpoints, divergence and the end of a recovery. Follows: R271, R272, R273, R274, R275, R278, R386, R387, R388, R389,
16_lockstep_pairs.md, 23_recovery_and_twin_operation.md. Where a clause concludes t = s for an event that cannot happen,
that is the model's choice (log 2). Beside the rules it rests on these choices of the model: logs 30, 117, 118, 134. -/
def Obligations.LockstepAndRecovery : Prop :=
  (∀ (s : State) (p : Pair) (d : CoreSt), s.coreOf p = d → d.deferred = false → d.halted = false → (p.val < 12 → s.slState
  p ≠ slRecovering) → Gives (.checkpoint p) s (fun t => t = s.setCore p
  { d with ck := some (s.kr p, s.reg (R.KC_CSEL p)), log := [], retired := 0, ckAt := s.clock, ckWas := d.ck, logWas := d.log })) ∧
  (∀ (s : State) (p : Pair), ((s.coreOf p).deferred = true ∨ (s.coreOf p).halted = true ∨ (p.val < 12 ∧ s.slState p =
  slRecovering)) → Gives (.checkpoint p) s (fun t => t = s)) ∧
  (∀ (s : State) (n : Slice) (d : DivRec) (rw ea : Option DivRec) (mism : Bool), d.differs 1 = true → s.isSet (R.KC_LS_STAT
  n) F.KC_LS_STAT_SUSPENDED = false → s.fitted n = true → s.slState n = slRunning → (s.ctlOf n).fencing = false → Gives
  (.lockstepDivergence (pairOf n) (some d) rw ea mism) s (fun t => t.isSet (R.KC_LS_STAT n) F.KC_LS_STAT_DIV_F = true ∧
  t.getF (R.KC_LS_DIV n) F.KC_LS_DIV_COUNT = satInc F.KC_LS_DIV_COUNT.top (s.getF (R.KC_LS_DIV n) F.KC_LS_DIV_COUNT) ∧
  t.slState n = slRecovering ∧ (t.ctlOf n).diverged = true ∧ (t.ctlOf n).recStart = s.clock ∧ (t.ctlOf n).mcheck =
  ((s.ctlOf n).mcheck || mism) ∧ t.getF (R.SLC_REC_CNT n) F.SLC_REC_CNT_COUNT = satInc F.SLC_REC_CNT_COUNT.top (s.getF
  (R.SLC_REC_CNT n) F.SLC_REC_CNT_COUNT) ∧ t.cells = s.cells ∧ t.reg (R.KC_LS_ADDR n) = d.addr ∧ t.reg (R.KC_LS_XOR n) =
  d.xor ∧ t.getF (R.KC_LS_LAST n) F.KC_LS_LAST_POINT = 1 ∧ t.getF (R.KC_LS_LAST n) F.KC_LS_LAST_TAG_XOR = d.tagXor.toNat ∧
  t.getF (R.KC_LS_LAST n) F.KC_LS_LAST_BE_XOR = d.beXor.toNat ∧ t.isSet (R.KC_LS_LAST n) F.KC_LS_LAST_ADDR_DIFF =
  d.addrDiff)) ∧
  (∀ (s : State) (n : Slice) (d : DivRec) (mw ea : Option DivRec) (mism : Bool), (mw.filter (fun r => r.differs 1) = none)
  → d.differs 2 = true → s.isSet (R.KC_LS_STAT n) F.KC_LS_STAT_SUSPENDED = false → s.fitted n = true → s.slState n =
  slRunning → (s.ctlOf n).fencing = false → Gives (.lockstepDivergence (pairOf n) mw (some d) ea mism) s (fun t => t.isSet
  (R.KC_LS_STAT n) F.KC_LS_STAT_DIV_F = true ∧ t.getF (R.KC_LS_DIV n) F.KC_LS_DIV_COUNT = satInc F.KC_LS_DIV_COUNT.top
  (s.getF (R.KC_LS_DIV n) F.KC_LS_DIV_COUNT) ∧ t.slState n = slRecovering ∧ (t.ctlOf n).diverged = true ∧ (t.ctlOf
  n).recStart = s.clock ∧ (t.ctlOf n).mcheck = ((s.ctlOf n).mcheck || mism) ∧ t.getF (R.SLC_REC_CNT n) F.SLC_REC_CNT_COUNT
  = satInc F.SLC_REC_CNT_COUNT.top (s.getF (R.SLC_REC_CNT n) F.SLC_REC_CNT_COUNT) ∧ t.cells = s.cells ∧ t.reg (R.KC_LS_ADDR
  n) = d.addr ∧ t.reg (R.KC_LS_XOR n) = d.xor ∧ t.getF (R.KC_LS_LAST n) F.KC_LS_LAST_POINT = 2 ∧ t.getF (R.KC_LS_LAST n)
  F.KC_LS_LAST_TAG_XOR = 0 ∧ t.getF (R.KC_LS_LAST n) F.KC_LS_LAST_BE_XOR = d.beXor.toNat ∧ t.isSet (R.KC_LS_LAST n)
  F.KC_LS_LAST_ADDR_DIFF = d.addrDiff)) ∧
  (∀ (s : State) (n : Slice) (d : DivRec) (mw rw : Option DivRec) (mism : Bool), (mw.filter (fun r => r.differs 1) = none)
  → (rw.filter (fun r => r.differs 2) = none) → d.differs 3 = true → s.isSet (R.KC_LS_STAT n) F.KC_LS_STAT_SUSPENDED =
  false → s.fitted n = true → s.slState n = slRunning → (s.ctlOf n).fencing = false → Gives (.lockstepDivergence (pairOf n)
  mw rw (some d) mism) s (fun t => t.isSet (R.KC_LS_STAT n) F.KC_LS_STAT_DIV_F = true ∧ t.getF (R.KC_LS_DIV n)
  F.KC_LS_DIV_COUNT = satInc F.KC_LS_DIV_COUNT.top (s.getF (R.KC_LS_DIV n) F.KC_LS_DIV_COUNT) ∧ t.slState n = slRecovering
  ∧ (t.ctlOf n).diverged = true ∧ (t.ctlOf n).recStart = s.clock ∧ (t.ctlOf n).mcheck = ((s.ctlOf n).mcheck || mism) ∧
  t.getF (R.SLC_REC_CNT n) F.SLC_REC_CNT_COUNT = satInc F.SLC_REC_CNT_COUNT.top (s.getF (R.SLC_REC_CNT n)
  F.SLC_REC_CNT_COUNT) ∧ t.cells = s.cells ∧ t.reg (R.KC_LS_ADDR n) = d.addr &&& 0x3FF ∧ t.reg (R.KC_LS_XOR n) = d.xor &&&
  0x1F ∧ t.getF (R.KC_LS_LAST n) F.KC_LS_LAST_POINT = 3 ∧ t.getF (R.KC_LS_LAST n) F.KC_LS_LAST_TAG_XOR = 0 ∧ t.getF
  (R.KC_LS_LAST n) F.KC_LS_LAST_BE_XOR = 0 ∧ t.isSet (R.KC_LS_LAST n) F.KC_LS_LAST_ADDR_DIFF = d.addrDiff)) ∧
  (∀ (s : State) (n : Slice) (mw rw ea : Option DivRec) (mism : Bool), firstDiv mw rw ea ≠ none → mism = true → s.isSet
  (R.KC_LS_STAT n) F.KC_LS_STAT_SUSPENDED = false → s.fitted n = true → (s.slState n = slRunning ∨ s.slState n = slReady ∨
  s.slState n = slRecovering) → Gives (.lockstepDivergence (pairOf n) mw rw ea mism) s (fun t => t.getF (R.CLE_MISMATCH n)
  F.CLE_MISMATCH_COUNT = satInc F.CLE_MISMATCH_COUNT.top (s.getF (R.CLE_MISMATCH n) F.CLE_MISMATCH_COUNT) ∧ t.isSet
  (R.KC_LS_STAT n) F.KC_LS_STAT_DIV_F = true ∧ t.getF (R.KC_LS_DIV n) F.KC_LS_DIV_COUNT = satInc F.KC_LS_DIV_COUNT.top
  (s.getF (R.KC_LS_DIV n) F.KC_LS_DIV_COUNT))) ∧
  (∀ (s : State) (n : Slice) (mw rw ea : Option DivRec) (mism : Bool), firstDiv mw rw ea ≠ none → s.isSet (R.KC_LS_STAT n)
  F.KC_LS_STAT_SUSPENDED = false → s.fitted n = true → s.slState n = slReady → (s.ctlOf n).fencing = false → Gives
  (.lockstepDivergence (pairOf n) mw rw ea mism) s (fun t => t.slState n = slSafe ∧ t.getF (R.SLC_FAULT n)
  F.SLC_FAULT_CAUSE = 9 ∧ t.isSet (R.SLC_FAULT n) F.SLC_FAULT_VALID = true ∧ t.isSet (R.KC_LS_STAT n) F.KC_LS_STAT_DIV_F =
  true ∧ t.getF (R.KC_LS_DIV n) F.KC_LS_DIV_COUNT = satInc F.KC_LS_DIV_COUNT.top (s.getF (R.KC_LS_DIV n) F.KC_LS_DIV_COUNT)
  ∧ t.armed n = false ∧ (t.coreOf (pairOf n)).halted = true)) ∧
  (∀ (s : State) (n : Slice) (mw rw ea : Option DivRec) (mism : Bool), firstDiv mw rw ea ≠ none → s.isSet (R.KC_LS_STAT n)
  F.KC_LS_STAT_SUSPENDED = false → s.fitted n = true → s.slState n = slRecovering → (s.ctlOf n).fencing = false → Gives
  (.lockstepDivergence (pairOf n) mw rw ea mism) s (fun t => t.slState n = slSafe ∧ t.getF (R.SLC_FAULT n)
  F.SLC_FAULT_CAUSE = 6 ∧ t.isSet (R.SLC_FAULT n) F.SLC_FAULT_VALID = true ∧ t.isSet (R.KC_LS_STAT n) F.KC_LS_STAT_DIV_F =
  true ∧ t.getF (R.KC_LS_DIV n) F.KC_LS_DIV_COUNT = satInc F.KC_LS_DIV_COUNT.top (s.getF (R.KC_LS_DIV n) F.KC_LS_DIV_COUNT)
  ∧ t.armed n = false ∧ (t.coreOf (pairOf n)).halted = true)) ∧
  (∀ (s : State) (n : Slice) (mw rw ea : Option DivRec) (mism : Bool), firstDiv mw rw ea ≠ none → s.isSet (R.KC_LS_STAT n)
  F.KC_LS_STAT_SUSPENDED = false → s.fitted n = true → s.slState n = slFenced → (s.ctlOf n).restarting = true → (s.ctlOf
  n).fencing = false → Gives (.lockstepDivergence (pairOf n) mw rw ea mism) s (fun t => t.slState n = slFenced ∧ t.getF
  (R.SLC_FAULT n) F.SLC_FAULT_CAUSE = 9 ∧ (t.ctlOf n).testDiv = true ∧ t.isSet (R.KC_LS_STAT n) F.KC_LS_STAT_DIV_F = true ∧
  t.getF (R.KC_LS_DIV n) F.KC_LS_DIV_COUNT = satInc F.KC_LS_DIV_COUNT.top (s.getF (R.KC_LS_DIV n) F.KC_LS_DIV_COUNT) ∧
  t.cells = s.cells)) ∧
  (∀ (s : State) (n : Slice) (mw rw ea : Option DivRec) (mism : Bool), firstDiv mw rw ea ≠ none → s.isSet (R.KC_LS_STAT n)
  F.KC_LS_STAT_SUSPENDED = false → s.fitted n = true → (s.slState n = slRunning ∨ s.slState n = slReady ∨ s.slState n =
  slRecovering) → (s.ctlOf n).fencing = true → Gives (.lockstepDivergence (pairOf n) mw rw ea mism) s (fun t => t.slState n
  = s.slState n ∧ t.getF (R.SLC_FAULT n) F.SLC_FAULT_CAUSE = s.getF (R.SLC_FAULT n) F.SLC_FAULT_CAUSE ∧ (t.ctlOf
  n).fenceFault = ((s.ctlOf n).fenceFault || decide ((s.ctlOf n).fenceAt ≠ s.clock)) ∧ t.isSet (R.KC_LS_STAT n)
  F.KC_LS_STAT_DIV_F = true ∧ t.getF (R.KC_LS_DIV n) F.KC_LS_DIV_COUNT = satInc F.KC_LS_DIV_COUNT.top (s.getF (R.KC_LS_DIV
  n) F.KC_LS_DIV_COUNT) ∧ t.cells = s.cells)) ∧
  (∀ (s : State) (n : Slice) (mw rw ea : Option DivRec) (mism : Bool), (firstDiv mw rw ea = none ∨ s.isSet (R.KC_LS_STAT n)
  F.KC_LS_STAT_SUSPENDED = true ∨ s.fitted n = false ∨ s.slState n = slOff ∨ s.slState n = slSafe ∨ (s.slState n = slFenced
  ∧ (s.ctlOf n).restarting = false)) → Gives (.lockstepDivergence (pairOf n) mw rw ea mism) s (fun t => t = s)) ∧
  (∀ (s : State) (mw rw ea : Option DivRec) (mism : Bool), firstDiv mw rw ea ≠ none → s.isSet (R.KC_LS_STAT 12)
  F.KC_LS_STAT_SUSPENDED = false → (s.coreOf 12).halted = false → Gives (.lockstepDivergence 12 mw rw ea mism) s (fun t =>
  t.isSet (R.KC_LS_STAT 12) F.KC_LS_STAT_DIV_F = true ∧ t.getF (R.KC_LS_DIV 12) F.KC_LS_DIV_COUNT = satInc
  F.KC_LS_DIV_COUNT.top (s.getF (R.KC_LS_DIV 12) F.KC_LS_DIV_COUNT) ∧ (t.coreOf 12).halted = true ∧ t.isSet R.DBG_STAT
  F.DBG_STAT_AVAIL = false ∧ t.sysDown = true ∧ t.cells = s.cells)) ∧
  (∀ (s : State) (n : Slice), s.slState n = slRecovering → (s.ctlOf n).takeover = false → (s.ctlOf n).badWord = none →
  s.isSet (R.SLC_CMD_STAT n) F.SLC_CMD_STAT_HELD = false → Gives (.recoveryComplete n false false) s (fun t => t.slState n
  = slRunning ∧ (t.ctlOf n).diverged = false ∧ (t.ctlOf n).mcheck = false ∧ (t.ctlOf n).fencing = (s.ctlOf n).fencing ∧
  t.isSet (R.SLC_REC_STAT n) F.SLC_REC_STAT_REC_F = true ∧ t.getF (R.SLC_REC_STAT n) F.SLC_REC_STAT_CAUSE = (s.ctlOf
  n).recCause % 2 ^ F.SLC_REC_STAT_CAUSE.width)) ∧
  (∀ (s : State) (n : Slice), s.slState n = slRecovering → (s.ctlOf n).takeover = false → (s.ctlOf n).badWord = none →
  s.isSet (R.SLC_CMD_STAT n) F.SLC_CMD_STAT_HELD = true → Gives (.recoveryComplete n false false) s (fun t => t.slState n =
  slRunning ∧ (t.ctlOf n).diverged = false ∧ (t.ctlOf n).fencing = true ∧ (t.ctlOf n).fenceCause = (s.ctlOf n).fenceCause ∧
  t.isSet (R.SLC_CMD_STAT n) F.SLC_CMD_STAT_HELD = false ∧ t.armed n = false ∧ (t.coreOf (pairOf n)).halted = true)) ∧
  (∀ (s : State) (n : Slice) (w : Nat) (v : MWord), s.slState n = slRecovering → (s.ctlOf n).takeover = false → (s.ctlOf
  n).badWord = some w → (s.readCopy n w).2 = some v → parityOk v = true → Gives (.recoveryComplete n false false) s (fun t
  => t.slState n = slRunning ∧ t.uword n w = v ∧ (t.ctlOf n).badWord = none ∧ t.isSet (R.SLC_REC_STAT n)
  F.SLC_REC_STAT_REC_F = true)) ∧
  (∀ (s : State) (n : Slice) (w : Nat) (stuck differs : Bool), s.slState n = slRecovering → (s.ctlOf n).takeover = false →
  (s.ctlOf n).fencing = false → (s.ctlOf n).badWord = some w → (stuck = true ∨ (s.readCopy n w).2 = none) → Gives
  (.recoveryComplete n stuck differs) s (fun t => t.slState n = slSafe ∧ t.getF (R.SLC_FAULT n) F.SLC_FAULT_CAUSE = 4 ∧
  t.isSet (R.SLC_FAULT n) F.SLC_FAULT_VALID = true ∧ t.armed n = false)) ∧
  (∀ (s : State) (n : Slice), s.slState n = slRecovering → (s.ctlOf n).takeover = false → (s.ctlOf n).badWord = none →
  (s.ctlOf n).fencing = false → Gives (.recoveryComplete n false true) s (fun t => t.slState n = slSafe ∧ t.getF
  (R.SLC_FAULT n) F.SLC_FAULT_CAUSE = 6 ∧ t.isSet (R.SLC_FAULT n) F.SLC_FAULT_VALID = true ∧ t.armed n = false ∧ t.isSet
  (R.SLC_REC_STAT n) F.SLC_REC_STAT_REC_F = true ∧ t.getF (R.SLC_REC_STAT n) F.SLC_REC_STAT_CAUSE = (s.ctlOf n).recCause %
  2 ^ F.SLC_REC_STAT_CAUSE.width)) ∧
  (∀ (s : State) (n : Slice) (stuck differs : Bool), (s.slState n ≠ slRecovering ∨ (s.ctlOf n).takeover = true) → Gives
  (.recoveryComplete n stuck differs) s (fun t => t = s))

/-- ECC write-back, marches, clearing, secure SRAM, scrubbing and main-memory channels. Follows: R13, R281, R293, R294,
R295, R296, R297, R299, R300, R301, R456, 17_memories.md. Where a clause concludes t = s for an event that cannot happen,
that is the model's choice (log 2). Beside the rules it rests on these choices of the model: logs 74, 75, 76, 126, 163. -/
def Obligations.MemoriesAndErrors : Prop :=
  (∀ (s : State) (a : Nat), s.mem.wb.contains (eccKey a) = true → Gives (.eccWriteBack a) s (fun t => t.mark a = none ∧
  t.mem.wb.contains (eccKey a) = false ∧ t = { s with mem := t.mem })) ∧
  (∀ (s : State) (a : Nat), s.mem.wb.contains (eccKey a) = false → Gives (.eccWriteBack a) s (fun t => t = s)) ∧
  (∀ (s : State) (x : Access) (v : Word) (n : Slice), s.reaches x R.MEM_MARCH = true → F.MEM_MARCH_KEY.get v = 0x3A2C →
  F.MEM_MARCH_TARGET.get v = n.val → s.fitted n = true → s.mem.march = none → (s.slState n = slFenced ∨ (s.slState n =
  slReady ∧ F.MEM_MARCH_FORM.get v = 0)) → Gives (.memMarchRequest x v) s (fun t => t.mem.march = some
  (F.MEM_MARCH_TARGET.get v, F.MEM_MARCH_FORM.get v == 1) ∧ t.getF R.MEM_MARCH_STAT F.MEM_MARCH_STAT_STATUS = 0 ∧ t.getF
  R.MEM_MARCH_STAT F.MEM_MARCH_STAT_TARGET = F.MEM_MARCH_TARGET.get v ∧ t.getF R.MEM_MARCH_STAT F.MEM_MARCH_STAT_FORM =
  F.MEM_MARCH_FORM.get v ∧ t.isSet R.MEM_MARCH_STAT F.MEM_MARCH_STAT_DONE = false ∧ t.isSet R.MEM_STAT
  F.MEM_STAT_MARCH_BUSY = true ∧ t.cells = s.cells)) ∧
  (∀ (s : State) (x : Access) (v : Word), s.reaches x R.MEM_MARCH = true → F.MEM_MARCH_KEY.get v = 0x3A2C →
  F.MEM_MARCH_TARGET.get v = 0x10 → F.MEM_MARCH_FORM.get v = 0 → s.mem.march = none → Gives (.memMarchRequest x v) s (fun t
  => t.mem.march = some (F.MEM_MARCH_TARGET.get v, F.MEM_MARCH_FORM.get v == 1) ∧ t.getF R.MEM_MARCH_STAT
  F.MEM_MARCH_STAT_STATUS = 0 ∧ t.getF R.MEM_MARCH_STAT F.MEM_MARCH_STAT_TARGET = F.MEM_MARCH_TARGET.get v ∧ t.getF
  R.MEM_MARCH_STAT F.MEM_MARCH_STAT_FORM = F.MEM_MARCH_FORM.get v ∧ t.isSet R.MEM_MARCH_STAT F.MEM_MARCH_STAT_DONE = false
  ∧ t.isSet R.MEM_STAT F.MEM_STAT_MARCH_BUSY = true ∧ t.cells = s.cells)) ∧
  (∀ (s : State) (x : Access) (v : Word), s.reaches x R.MEM_MARCH = true → F.MEM_MARCH_KEY.get v = 0x3A2C →
  (F.MEM_MARCH_TARGET.get v = 0x12 ∨ (F.MEM_MARCH_TARGET.get v = 0x13 ∧ s.chFitted 1 = true)) → F.MEM_MARCH_FORM.get v = 1
  → s.mode = mdService → (∀ n : Slice, s.armed n = false) → s.mem.march = none → Gives (.memMarchRequest x v) s (fun t =>
  t.mem.march = some (F.MEM_MARCH_TARGET.get v, F.MEM_MARCH_FORM.get v == 1) ∧ t.getF R.MEM_MARCH_STAT
  F.MEM_MARCH_STAT_STATUS = 0 ∧ t.getF R.MEM_MARCH_STAT F.MEM_MARCH_STAT_TARGET = F.MEM_MARCH_TARGET.get v ∧ t.getF
  R.MEM_MARCH_STAT F.MEM_MARCH_STAT_FORM = F.MEM_MARCH_FORM.get v ∧ t.isSet R.MEM_MARCH_STAT F.MEM_MARCH_STAT_DONE = false
  ∧ t.isSet R.MEM_STAT F.MEM_STAT_MARCH_BUSY = true ∧ t.cells = s.cells)) ∧
  (∀ (s : State) (x : Access) (v : Word), s.reaches x R.MEM_MARCH = true → (F.MEM_MARCH_KEY.get v ≠ 0x3A2C ∨ (12 ≤
  F.MEM_MARCH_TARGET.get v ∧ F.MEM_MARCH_TARGET.get v ≠ 0x10 ∧ F.MEM_MARCH_TARGET.get v ≠ 0x12 ∧ F.MEM_MARCH_TARGET.get v ≠
  0x13)) → Gives (.memMarchRequest x v) s (fun t => t.getF R.MEM_MARCH_STAT F.MEM_MARCH_STAT_STATUS = 5 ∧ t.mem = s.mem ∧
  t.isSet R.MEM_STAT F.MEM_STAT_MARCH_BUSY = s.isSet R.MEM_STAT F.MEM_STAT_MARCH_BUSY ∧ t.cells = s.cells)) ∧
  (∀ (s : State) (x : Access) (v : Word), s.reaches x R.MEM_MARCH = true → F.MEM_MARCH_KEY.get v = 0x3A2C →
  ((F.MEM_MARCH_TARGET.get v < 12 ∧ s.fitted (F.MEM_MARCH_TARGET.get v) = false) ∨ (F.MEM_MARCH_TARGET.get v = 0x13 ∧
  s.chFitted 1 = false)) → Gives (.memMarchRequest x v) s (fun t => t.getF R.MEM_MARCH_STAT F.MEM_MARCH_STAT_STATUS = 4 ∧
  t.mem = s.mem ∧ t.isSet R.MEM_STAT F.MEM_STAT_MARCH_BUSY = s.isSet R.MEM_STAT F.MEM_STAT_MARCH_BUSY ∧ t.cells = s.cells)) ∧
  (∀ (s : State) (x : Access) (v : Word) (n : Slice), s.reaches x R.MEM_MARCH = true → F.MEM_MARCH_KEY.get v = 0x3A2C →
  F.MEM_MARCH_TARGET.get v = n.val → s.fitted n = true → s.mem.march ≠ none → Gives (.memMarchRequest x v) s (fun t =>
  t.getF R.MEM_MARCH_STAT F.MEM_MARCH_STAT_STATUS = 1 ∧ t.mem = s.mem ∧ t.isSet R.MEM_STAT F.MEM_STAT_MARCH_BUSY = s.isSet
  R.MEM_STAT F.MEM_STAT_MARCH_BUSY ∧ t.cells = s.cells)) ∧
  (∀ (s : State) (x : Access) (v : Word) (n : Slice), s.reaches x R.MEM_MARCH = true → F.MEM_MARCH_KEY.get v = 0x3A2C →
  F.MEM_MARCH_TARGET.get v = n.val → s.fitted n = true → s.mem.march = none → s.slState n ≠ slFenced → (s.slState n ≠
  slReady ∨ F.MEM_MARCH_FORM.get v = 1) → Gives (.memMarchRequest x v) s (fun t => t.getF R.MEM_MARCH_STAT
  F.MEM_MARCH_STAT_STATUS = 2 ∧ t.mem = s.mem ∧ t.isSet R.MEM_STAT F.MEM_STAT_MARCH_BUSY = s.isSet R.MEM_STAT
  F.MEM_STAT_MARCH_BUSY ∧ t.cells = s.cells)) ∧
  (∀ (s : State) (x : Access) (v : Word), s.reaches x R.MEM_MARCH = true → F.MEM_MARCH_KEY.get v = 0x3A2C → s.mem.march =
  none → ((F.MEM_MARCH_TARGET.get v = 0x10 ∧ F.MEM_MARCH_FORM.get v = 1) ∨ (F.MEM_MARCH_TARGET.get v = 0x12 ∧
  (F.MEM_MARCH_FORM.get v = 0 ∨ s.mode ≠ mdService))) → Gives (.memMarchRequest x v) s (fun t => t.getF R.MEM_MARCH_STAT
  F.MEM_MARCH_STAT_STATUS = 2 ∧ t.mem = s.mem ∧ t.isSet R.MEM_STAT F.MEM_STAT_MARCH_BUSY = s.isSet R.MEM_STAT
  F.MEM_STAT_MARCH_BUSY ∧ t.cells = s.cells)) ∧
  (∀ (s : State) (fails : Nat) (bank : Fin 16) (addr : Word) (t0 : Nat), s.mem.march = some (t0, false) → fails = 0 → Gives
  (.marchComplete fails bank addr) s (fun t => t.isSet R.MEM_STAT F.MEM_STAT_MARCH_BUSY = false ∧ t.isSet R.MEM_MARCH_STAT
  F.MEM_MARCH_STAT_DONE = true ∧ t.mem.march = none ∧ t.isSet R.MEM_MARCH_STAT F.MEM_MARCH_STAT_PASS = true ∧ t.getF
  R.MEM_MARCH_STAT F.MEM_MARCH_STAT_FAILS = 0 ∧ t.getF R.MEM_MARCH_STAT F.MEM_MARCH_STAT_FAIL_BANK = 0 ∧ t.reg
  R.MEM_MARCH_FADDR = 0 ∧ t.cells = s.cells)) ∧
  (∀ (s : State) (fails : Nat) (bank : Fin 16) (addr : Word) (n : Slice), s.mem.march = some (n.val, true) → fails = 0 →
  Gives (.marchComplete fails bank addr) s (fun t => t.isSet R.MEM_STAT F.MEM_STAT_MARCH_BUSY = false ∧ t.isSet
  R.MEM_MARCH_STAT F.MEM_MARCH_STAT_DONE = true ∧ t.mem.march = none ∧ t.isSet R.MEM_MARCH_STAT F.MEM_MARCH_STAT_PASS =
  true ∧ t.getF R.MEM_MARCH_STAT F.MEM_MARCH_STAT_FAILS = 0 ∧ t.getF R.MEM_MARCH_STAT F.MEM_MARCH_STAT_FAIL_BANK = 0 ∧
  t.reg R.MEM_MARCH_FADDR = 0 ∧ (∀ a, smem n 0 ≤ a → a < smem n 0 + 0x80000 → t.cell a = emptyCell) ∧ t.cell (smem n 0) =
  emptyCell ∧ (t.ctlOf n).image = false ∧ (s.CellsKept t (fun a => decide (smem n 0 ≤ a ∧ a < smem n 0 + 0x80000))))) ∧
  (∀ (s : State) (fails : Nat) (bank : Fin 16) (addr : Word) (c : Fin 2), s.mem.march = some (0x12 + c.val, true) → fails =
  0 → Gives (.marchComplete fails bank addr) s (fun t => t.isSet R.MEM_STAT F.MEM_STAT_MARCH_BUSY = false ∧ t.isSet
  R.MEM_MARCH_STAT F.MEM_MARCH_STAT_DONE = true ∧ t.mem.march = none ∧ t.isSet R.MEM_MARCH_STAT F.MEM_MARCH_STAT_PASS =
  true ∧ t.getF R.MEM_MARCH_STAT F.MEM_MARCH_STAT_FAILS = 0 ∧ t.getF R.MEM_MARCH_STAT F.MEM_MARCH_STAT_FAIL_BANK = 0 ∧
  t.reg R.MEM_MARCH_FADDR = 0 ∧ (∀ a, inMain a = true → mainCh a = c.val → t.cell a = ⟨0, tagUint⟩) ∧ t.cell (0x10000000 +
  0x8000000 * c.val) = stored (0x10000000 + 0x8000000 * c.val) ⟨0, tagUint⟩ ∧ (s.CellsKept t (fun a => inMain a && mainCh a
  == c.val)))) ∧
  (∀ (s : State) (fails : Nat) (bank : Fin 16) (addr : Word) (n : Slice), s.mem.march = some (n.val, true) → s.slState n =
  slFenced → fails ≠ 0 → Gives (.marchComplete fails bank addr) s (fun t => t.isSet R.MEM_STAT F.MEM_STAT_MARCH_BUSY =
  false ∧ t.isSet R.MEM_MARCH_STAT F.MEM_MARCH_STAT_DONE = true ∧ t.mem.march = none ∧ t.isSet R.MEM_MARCH_STAT
  F.MEM_MARCH_STAT_PASS = false ∧ t.getF R.MEM_MARCH_STAT F.MEM_MARCH_STAT_FAILS = min fails 65535 ∧ t.getF
  R.MEM_MARCH_STAT F.MEM_MARCH_STAT_FAIL_BANK = bank.val ∧ t.reg R.MEM_MARCH_FADDR = addr ∧ t.getF (R.SLC_FAULT n)
  F.SLC_FAULT_CAUSE = 7 ∧ t.isSet (R.SLC_FAULT n) F.SLC_FAULT_VALID = true ∧ t.cell (smem n 0) = emptyCell ∧ (s.CellsKept t
  (fun a => decide (smem n 0 ≤ a ∧ a < smem n 0 + 0x80000))))) ∧
  (∀ (s : State) (fails : Nat) (bank : Fin 16) (addr : Word) (n : Slice), s.mem.march = some (n.val, false) → s.slState n ≠
  slFenced → fails ≠ 0 → Gives (.marchComplete fails bank addr) s (fun t => t.isSet R.MEM_STAT F.MEM_STAT_MARCH_BUSY =
  false ∧ t.isSet R.MEM_MARCH_STAT F.MEM_MARCH_STAT_DONE = true ∧ t.mem.march = none ∧ t.isSet R.MEM_MARCH_STAT
  F.MEM_MARCH_STAT_PASS = false ∧ t.getF R.MEM_MARCH_STAT F.MEM_MARCH_STAT_FAILS = min fails 65535 ∧ t.getF
  R.MEM_MARCH_STAT F.MEM_MARCH_STAT_FAIL_BANK = bank.val ∧ t.reg R.MEM_MARCH_FADDR = addr ∧ (t.ctlOf n).fencing = true ∧
  (t.ctlOf n).fenceCause = 7 ∧ t.armed n = false ∧ t.cells = s.cells)) ∧
  (∀ (s : State) (fails : Nat) (bank : Fin 16) (addr : Word) (c : Fin 2), s.mem.march = some (0x12 + c.val, true) → fails ≠
  0 → s.chFitted c = true → Gives (.marchComplete fails bank addr) s (fun t => t.isSet R.MEM_STAT F.MEM_STAT_MARCH_BUSY =
  false ∧ t.isSet R.MEM_MARCH_STAT F.MEM_MARCH_STAT_DONE = true ∧ t.mem.march = none ∧ t.isSet R.MEM_MARCH_STAT
  F.MEM_MARCH_STAT_PASS = false ∧ t.getF R.MEM_MARCH_STAT F.MEM_MARCH_STAT_FAILS = min fails 65535 ∧ t.getF
  R.MEM_MARCH_STAT F.MEM_MARCH_STAT_FAIL_BANK = bank.val ∧ t.reg R.MEM_MARCH_FADDR = addr ∧ t.chDown c = true)) ∧
  (∀ (s : State) (fails : Nat) (bank : Fin 16) (addr : Word), s.mem.march = some (0x10, false) → fails ≠ 0 → Gives
  (.marchComplete fails bank addr) s (fun t => t.isSet R.MEM_STAT F.MEM_STAT_MARCH_BUSY = false ∧ t.isSet R.MEM_MARCH_STAT
  F.MEM_MARCH_STAT_DONE = true ∧ t.mem.march = none ∧ t.isSet R.MEM_MARCH_STAT F.MEM_MARCH_STAT_PASS = false ∧ t.getF
  R.MEM_MARCH_STAT F.MEM_MARCH_STAT_FAILS = min fails 65535 ∧ t.getF R.MEM_MARCH_STAT F.MEM_MARCH_STAT_FAIL_BANK = bank.val
  ∧ t.reg R.MEM_MARCH_FADDR = addr ∧ t.cells = s.cells ∧ (∀ n : Slice, t.slState n = s.slState n))) ∧
  (∀ (s : State) (fails : Nat) (bank : Fin 16) (addr : Word), s.mem.march = none → Gives (.marchComplete fails bank addr) s
  (fun t => t = s)) ∧
  (∀ (s : State) (m : Fin 14), Gives (.memoryClearComplete m) s (fun t => t.mem.clearing.getLsbD m = false ∧ (∀ k : Fin 14,
  k ≠ m → t.mem.clearing.getLsbD k = s.mem.clearing.getLsbD k) ∧ t.isSet R.MEM_STAT F.MEM_STAT_CLEARING = (t.mem.clearing
  != 0) ∧ t = { s with regs := t.regs, mem := t.mem })) ∧
  (∀ (s : State), s.isSet R.MEM_STAT F.MEM_STAT_SEC_WIPING = true → Gives (.secWiped) s (fun t => t.isSet R.MEM_STAT
  F.MEM_STAT_SEC_WIPING = false ∧ t.cell 0x01C00000 = emptyCell ∧ (∀ b, 0x01C00000 ≤ b → b < 0x01C40000 → t.cell b =
  emptyCell) ∧ (∀ b, b < 0x01C00000 ∨ 0x01C40000 ≤ b → t.cell b = s.cell b) ∧ (∀ k : Fin 4, t.dbg.sess.get k = none))) ∧
  (∀ (s : State), s.isSet R.MEM_STAT F.MEM_STAT_SEC_WIPING = false → Gives (.secWiped) s (fun t => t = s)) ∧
  (∀ (s : State) (c : Fin 2), Gives (.mmcScrub) s (fun t => (t.getF (R.MMC_SCRUB_POS c) F.MMC_SCRUB_POS_BURST = if natBit
  (s.getF R.MMC_STAT F.MMC_STAT_CH_UP) c then (s.getF (R.MMC_SCRUB_POS c) F.MMC_SCRUB_POS_BURST + 1) % 2 ^
  F.MMC_SCRUB_POS_BURST.width else s.getF (R.MMC_SCRUB_POS c) F.MMC_SCRUB_POS_BURST))) ∧
  (∀ (s : State), s.mem.ecc = [] → Gives (.mmcScrub) s (fun t => t = { s with regs := t.regs })) ∧
  (∀ (s : State) (c : Fin 2) (i : Fin 8) (a : Nat), natBit (s.getF R.MMC_STAT F.MMC_STAT_CH_UP) c = true → s.chFitted c =
  true → s.chDown c = false → a = 0x10000000 + c.val * 0x8000000 + 64 * s.getF (R.MMC_SCRUB_POS c) F.MMC_SCRUB_POS_BURST +
  8 * i.val → s.mem.ecc = [(a, false)] → s.pageSet a = true → Gives (.mmcScrub) s (fun t => t.mark a = none ∧ t.getF
  (R.MMC_ECC c) F.MMC_ECC_CE = satInc F.MMC_ECC_CE.top (s.getF (R.MMC_ECC c) F.MMC_ECC_CE) ∧ t.cells = s.cells)) ∧
  (∀ (s : State) (c : Fin 2), natBit (s.getF R.MMC_STAT F.MMC_STAT_CLEAR_BUSY) c = true → Gives (.pageMapFillComplete c) s
  (fun t => t.mem.filled.get c = true ∧ natBit (t.getF R.MMC_STAT F.MMC_STAT_CLEAR_BUSY) c = false ∧ (∀ a, inMain a = true
  → mainCh a = c.val → t.pageSet a = true ∧ (s.pageSet a = false → t.mark a = none)) ∧ t =
  { s with regs := t.regs, mem := t.mem })) ∧
  (∀ (s : State) (c : Fin 2), natBit (s.getF R.MMC_STAT F.MMC_STAT_CLEAR_BUSY) c = false → Gives (.pageMapFillComplete c) s
  (fun t => t = s)) ∧
  (∀ (s : State) (c : Fin 2) (a : Nat), s.chFitted c = true → s.chDown c = false → inMain a = true → mainCh a = c → Gives
  (.mmcChannelDown c) s (fun t => t.chDown c = true ∧ natBit (t.getF R.MMC_STAT F.MMC_STAT_CH_UP) c = false ∧ t.isSet
  R.MMC_STAT F.MMC_STAT_DOWN_F = true ∧ (t.rd a).c = ⟨0, tagUint⟩ ∧ t.wr none a ⟨5, tagUint⟩ = t ∧ t.cells = s.cells)) ∧
  (∀ (s : State) (c : Fin 2), (s.chFitted c = false ∨ s.chDown c = true) → Gives (.mmcChannelDown c) s (fun t => t = s))

/-- Lines, latching, delivery, acknowledgement, groups, targets, taps and orphans. Follows: R305, R306, R307, R308, R309,
R310, R311, R312, R313, R314, R476, 18_event_router.md. Where a clause concludes t = s for an event that cannot happen,
that is the model's choice (log 2). Beside the rules it rests on these choices of the model: logs 44, 136, 137, 153, 204.
-/
def Obligations.EventRouting : Prop :=
  (∀ (s : State) (src : Fin 1024), isLine src = true → s.fastRuns = true → s.lineStands src ≠ some false → s.srcPresent src
  = true → s.evr.filt.contains src.val = false → s.getF (srcAddr src) F.EVR_SRC_SENSE = 3 → s.route src = idleRoute →
  (s.routeTgt src).kind ≠ 0 → s.isSet (srcAddr src) F.EVR_SRC_GRP_EN = false → s.evtDelay src = 0 → Gives
  (.lineFilterChange src true) s (fun t => t.evr.filt.contains src.val = true ∧ (t.route src).st = .pending ∧ (t.route
  src).src = src ∧ (t.route src).cnt = 1 ∧ (t.route src).fired = s.mtimeLo ∧ t.evr.taps = s.evr.taps ++ [(src.val, s.clock,
  s.mtime)] ∧ t.cells = s.cells)) ∧
  (∀ (s : State) (src : Fin 1024), isLine src = true → s.fastRuns = true → s.lineStands src ≠ some false → s.srcPresent src
  = true → s.evr.filt.contains src.val = false → (s.getF (srcAddr src) F.EVR_SRC_SENSE = 0 ∨ s.getF (srcAddr src)
  F.EVR_SRC_SENSE = 2) → s.route src = idleRoute → (s.routeTgt src).kind ≠ 0 → s.isSet (srcAddr src) F.EVR_SRC_GRP_EN =
  false → s.evtDelay src = 0 → Gives (.lineFilterChange src true) s (fun t => t.evr.filt.contains src.val = true ∧ (t.route
  src).st = .pending ∧ (t.route src).src = src ∧ (t.route src).cnt = 1 ∧ (t.route src).fired = s.mtimeLo ∧ t.evr.taps =
  s.evr.taps ++ [(src.val, s.clock, s.mtime)] ∧ t.cells = s.cells)) ∧
  (∀ (s : State) (src : Fin 1024), isLine src = true → s.fastRuns = true → s.lineStands src ≠ some true → s.srcPresent src
  = true → s.evr.filt.contains src.val = true → (s.getF (srcAddr src) F.EVR_SRC_SENSE = 1 ∨ s.getF (srcAddr src)
  F.EVR_SRC_SENSE = 2) → s.route src = idleRoute → (s.routeTgt src).kind ≠ 0 → s.isSet (srcAddr src) F.EVR_SRC_GRP_EN =
  false → s.evtDelay src = 0 → Gives (.lineFilterChange src false) s (fun t => t.evr.filt.contains src.val = false ∧
  (t.route src).st = .pending ∧ (t.route src).src = src ∧ (t.route src).cnt = 1 ∧ (t.route src).fired = s.mtimeLo ∧
  t.evr.taps = s.evr.taps ++ [(src.val, s.clock, s.mtime)] ∧ t.cells = s.cells)) ∧
  (∀ (s : State) (src : Fin 1024), isLine src = true → s.fastRuns = true → s.lineStands src ≠ some true → s.srcPresent src
  = true → s.evr.filt.contains src.val = true → s.getF (srcAddr src) F.EVR_SRC_SENSE = 3 → (s.route src).st = .pending →
  Gives (.lineFilterChange src false) s (fun t => t.evr.filt.contains src.val = false ∧ t.route src = idleRoute ∧
  t.evr.taps = s.evr.taps ∧ t.cells = s.cells)) ∧
  (∀ (s : State) (src : Fin 1024), isLine src = true → s.fastRuns = true → s.lineStands src ≠ some false → s.srcPresent src
  = true → s.evr.filt.contains src.val = false → s.getF (srcAddr src) F.EVR_SRC_SENSE = 1 → Gives (.lineFilterChange src
  true) s (fun t => t.evr.filt.contains src.val = true ∧ t = { s with evr := t.evr } ∧ t.evr.taps = s.evr.taps ∧ t.evr.late
  = s.evr.late ∧ (∀ r, t.route r = s.route r))) ∧
  (∀ (s : State) (src : Fin 1024), isLine src = true → s.fastRuns = true → s.lineStands src ≠ some true → s.srcPresent src
  = true → s.evr.filt.contains src.val = true → s.getF (srcAddr src) F.EVR_SRC_SENSE = 0 → Gives (.lineFilterChange src
  false) s (fun t => t.evr.filt.contains src.val = false ∧ t = { s with evr := t.evr } ∧ t.evr.taps = s.evr.taps ∧
  t.evr.late = s.evr.late ∧ (∀ r, t.route r = s.route r))) ∧
  (∀ (s : State) (src : Fin 1024) (d : Nat), isLine src = true → s.fastRuns = true → s.lineStands src ≠ some false →
  s.srcPresent src = true → s.evr.filt.contains src.val = false → s.getF (srcAddr src) F.EVR_SRC_SENSE = 0 → s.evtDelay src
  = d + 1 → Gives (.lineFilterChange src true) s (fun t => t.evr.late = s.evr.late ++ [(s.clock + d + 1, src.val, s.clock,
  s.mtime)] ∧ t.evr.taps = s.evr.taps ∧ t.route src = s.route src ∧ t.cells = s.cells)) ∧
  (∀ (s : State) (src : Fin 1024) (level : Bool), (isLine src = false ∨ s.fastRuns = false ∨ s.lineStands src = some
  (!level) ∨ s.srcPresent src = false ∨ s.evr.filt.contains src.val = level) → Gives (.lineFilterChange src level) s (fun t
  => t = s)) ∧
  (∀ (s : State) (r : Fin 1088) (rt : Route), rt = s.route r → rt.st = .pending → rt.latched = false → (s.routeTgt r).kind
  = 1 → s.rejected (s.routeTgt r) = false → s.pairTakes (s.routeTgt r).index = true → Gives (.eventLatch r) s (fun t =>
  t.route r = { rt with latched := true } ∧ t.cells = s.cells ∧ t.core = s.core)) ∧
  (∀ (s : State) (r : Fin 1088) (rt : Route), rt = s.route r → rt.st = .pending → rt.latched = false → (s.routeTgt r).kind
  = 1 → s.rejected (s.routeTgt r) = false → s.pairTakes (s.routeTgt r).index = false → Gives (.eventLatch r) s (fun t =>
  t.route r = idleRoute ∧ t.evr.orphans = s.evr.orphans ∧ t.cells = s.cells ∧ t.core = s.core)) ∧
  (∀ (s : State) (r : Fin 1088) (rt : Route), rt = s.route r → rt.st = .pending → rt.latched = false → (s.routeTgt r).kind
  = 1 → s.rejected (s.routeTgt r) = true → s.evr.orphans.length < 64 → isLine r = false → (s.route r).src ≠ 63 → r.val ≠ 63
  → (s.routeTgt 63).kind = 0 → s.isSet (srcAddr 63) F.EVR_SRC_GRP_EN = false → Gives (.eventLatch r) s (fun t => (t.route
  r).st = .idle ∧ t.evr.orphans.length = s.evr.orphans.length + 1 ∧ t.getF R.EVR_STAT F.EVR_STAT_ORPH_LEVEL =
  s.evr.orphans.length + 1 ∧ t.isSet R.EVR_STAT F.EVR_STAT_ORPH_F = true ∧ t.cells = s.cells)) ∧
  (∀ (s : State) (r : Fin 1088), ((s.route r).st ≠ .pending ∨ (s.route r).latched = true ∨ (s.routeTgt r).kind = 0 ∨
  (s.routeTgt r).kind = 2) → (s.routeTgt r).kind ≠ 3 → Gives (.eventLatch r) s (fun t => t = s)) ∧
  (∀ (s : State) (r : Fin 1088) (f : Fin 16), (s.route r).st = .pending → (s.routeTgt r).kind = 2 → f = msixFn (s.routeTgt
  r).index → s.rejected (s.routeTgt r) = false → s.fnEn f = true → (s.fnOf f).msixEn = true → (s.fnOf f).fmask = false →
  s.fnReach f = true → (s.goesFirst 2 (fun t => !s.msixHeld t) r = true) → (s.fnOf f).vopen.contains ((s.routeTgt r).index
  % 128) = true → isLine r = false → Gives (.msixIssue r) s (fun t => t.outs = s.outs ++ [.msix (128 * f.val + (s.routeTgt
  r).index % 128)] ∧ (t.route r).st = .idle ∧ t.cells = s.cells)) ∧
  (∀ (s : State) (r : Fin 1088) (f : Fin 16), (s.route r).st = .pending → (s.routeTgt r).kind = 2 → f = msixFn (s.routeTgt
  r).index → s.rejected (s.routeTgt r) = false → s.fnEn f = true → (s.fnOf f).msixEn = true → (s.fnOf f).fmask = false →
  s.fnReach f = true → (s.goesFirst 2 (fun t => !s.msixHeld t) r = true) → (s.fnOf f).vopen.contains ((s.routeTgt r).index
  % 128) = false → isLine r = false → Gives (.msixIssue r) s (fun t => t.outs = s.outs ∧ (t.fnOf f).vpend.contains
  ((s.routeTgt r).index % 128) = true ∧ (t.route r).st = .idle ∧ t.cells = s.cells)) ∧
  (∀ (s : State) (r : Fin 1088) (f : Fin 16), (s.route r).st = .pending → (s.routeTgt r).kind = 2 → f = msixFn (s.routeTgt
  r).index → (s.rejected (s.routeTgt r) = true ∨ s.fnEn f = false) → (s.goesFirst 2 (fun t => !s.msixHeld t) r = true) →
  s.evr.orphans.length < 64 → (s.route r).src ≠ 63 → r.val ≠ 63 → (s.routeTgt 63).kind = 0 → s.isSet (srcAddr 63)
  F.EVR_SRC_GRP_EN = false → Gives (.msixIssue r) s (fun t => (t.route r).st = .idle ∧ t.evr.orphans.length =
  s.evr.orphans.length + 1 ∧ t.getF R.EVR_STAT F.EVR_STAT_ORPH_LEVEL = s.evr.orphans.length + 1 ∧ t.isSet R.EVR_STAT
  F.EVR_STAT_ORPH_F = true ∧ t.cells = s.cells)) ∧
  (∀ (s : State) (r : Fin 1088) (f : Fin 16), (s.route r).st = .pending → (s.routeTgt r).kind = 2 → f = msixFn (s.routeTgt
  r).index → s.rejected (s.routeTgt r) = false → s.fnEn f = true → ((s.fnOf f).msixEn = false ∨ (s.fnOf f).fmask = true ∨
  s.fnReach f = false) → Gives (.msixIssue r) s (fun t => t = s)) ∧
  (∀ (s : State) (r : Fin 1088), ((s.route r).st ≠ .pending ∨ (s.routeTgt r).kind ≠ 2 ∨ s.goesFirst 2 (fun t => !s.msixHeld
  t) r = false) → Gives (.msixIssue r) s (fun t => t = s)) ∧
  (∀ (s : State) (x : Access) (n : Slice) (src : BitVec 10), s.reaches x (R.EVR_ACK n) = true → x.m = .core n → (s.route
  src.toNat).st.served = true → (s.route src.toNat).cur = src.toNat → (s.route src.toNat).by_ = n.val → s.isSet (srcAddr
  src.toNat) F.EVR_SRC_GRP_EN = false → (isLine src.toNat = false ∨ s.getF (srcAddr src.toNat) F.EVR_SRC_SENSE ≠ 3) →
  (s.route src.toNat).st = .active → Gives (.evrAck x n src) s (fun t => t.route src.toNat = idleRoute ∧ t.reg R.EVR_BADACK
  = s.reg R.EVR_BADACK ∧ t.cells = s.cells)) ∧
  (∀ (s : State) (x : Access) (n : Slice) (src : BitVec 10), s.reaches x (R.EVR_ACK n) = true → x.m = .core n → (s.route
  src.toNat).st.served = true → (s.route src.toNat).cur = src.toNat → (s.route src.toNat).by_ = n.val → s.isSet (srcAddr
  src.toNat) F.EVR_SRC_GRP_EN = false → (isLine src.toNat = false ∨ s.getF (srcAddr src.toNat) F.EVR_SRC_SENSE ≠ 3) →
  (s.route src.toNat).st = .activePending → Gives (.evrAck x n src) s (fun t => t.route src.toNat =
  { s.route src.toNat with st := .pending, latched := false } ∧ t.reg R.EVR_BADACK = s.reg R.EVR_BADACK ∧ t.cells =
  s.cells)) ∧
  (∀ (s : State) (x : Access) (n : Slice) (src : BitVec 10), s.reaches x (R.EVR_ACK n) = true → x.m = .core n → (s.route
  src.toNat).st.served = true → (s.route src.toNat).cur = src.toNat → (s.route src.toNat).by_ = n.val → s.isSet (srcAddr
  src.toNat) F.EVR_SRC_GRP_EN = false → isLine src.toNat = true → s.getF (srcAddr src.toNat) F.EVR_SRC_SENSE = 3 → Gives
  (.evrAck x n src) s (fun t => ((t.route src.toNat).st = if s.evr.filt.contains src.toNat then .pending else .idle) ∧
  t.reg R.EVR_BADACK = s.reg R.EVR_BADACK ∧ t.cells = s.cells)) ∧
  (∀ (s : State) (x : Access) (n : Slice) (src : BitVec 10) (g : Nat), s.reaches x (R.EVR_ACK n) = true → x.m = .core n →
  s.isSet (srcAddr src.toNat) F.EVR_SRC_GRP_EN = true → g = 1024 + s.getF (srcAddr src.toNat) F.EVR_SRC_GRP → (s.route
  g).st = .active → (s.route g).cur = src.toNat → (s.route g).by_ = n.val → Gives (.evrAck x n src) s (fun t => t.route g =
  idleRoute ∧ t.reg R.EVR_BADACK = s.reg R.EVR_BADACK ∧ t.cells = s.cells)) ∧
  (∀ (s : State) (x : Access) (n : Slice) (src : BitVec 10), s.reaches x (R.EVR_ACK n) = true → s.activeRoute n src.toNat =
  none → Gives (.evrAck x n src) s (fun t => t.getF R.EVR_BADACK F.EVR_BADACK_COUNT = satInc F.EVR_BADACK_COUNT.top (s.getF
  R.EVR_BADACK F.EVR_BADACK_COUNT) ∧ t = { s with regs := t.regs })) ∧
  (∀ (s : State) (x : Access) (n : Slice) (src : BitVec 10), s.reaches x (R.EVR_ACK n) = true → x.m ≠ .core n →
  s.activeRoute n src.toNat ≠ none → Gives (.evrAck x n src) s (fun t => t = s)) ∧
  (∀ (s : State) (x : Access) (src : BitVec 10), s.reaches x R.EVR_SYS_ACK = true → x.m = .sys → (s.route
  src.toNat).st.served = true → (s.route src.toNat).cur = src.toNat → (s.route src.toNat).by_ = 12 → s.isSet (srcAddr
  src.toNat) F.EVR_SRC_GRP_EN = false → (isLine src.toNat = false ∨ s.getF (srcAddr src.toNat) F.EVR_SRC_SENSE ≠ 3) →
  (s.route src.toNat).st = .active → Gives (.evrSysAck x src) s (fun t => t.route src.toNat = idleRoute ∧ t.reg
  R.EVR_BADACK = s.reg R.EVR_BADACK ∧ t.cells = s.cells)) ∧
  (∀ (s : State) (x : Access) (src : BitVec 10), s.reaches x R.EVR_SYS_ACK = true → x.m = .sys → (s.route
  src.toNat).st.served = true → (s.route src.toNat).cur = src.toNat → (s.route src.toNat).by_ = 12 → s.isSet (srcAddr
  src.toNat) F.EVR_SRC_GRP_EN = false → (isLine src.toNat = false ∨ s.getF (srcAddr src.toNat) F.EVR_SRC_SENSE ≠ 3) →
  (s.route src.toNat).st = .activePending → Gives (.evrSysAck x src) s (fun t => (t.route src.toNat).st = .pending ∧ t.reg
  R.EVR_BADACK = s.reg R.EVR_BADACK ∧ t.cells = s.cells)) ∧
  (∀ (s : State) (x : Access) (src : BitVec 10), s.reaches x R.EVR_SYS_ACK = true → x.m = .sys → (s.route
  src.toNat).st.served = true → (s.route src.toNat).cur = src.toNat → (s.route src.toNat).by_ = 12 → s.isSet (srcAddr
  src.toNat) F.EVR_SRC_GRP_EN = false → isLine src.toNat = true → s.getF (srcAddr src.toNat) F.EVR_SRC_SENSE = 3 → Gives
  (.evrSysAck x src) s (fun t => ((t.route src.toNat).st = if s.evr.filt.contains src.toNat then .pending else .idle) ∧
  t.reg R.EVR_BADACK = s.reg R.EVR_BADACK ∧ t.cells = s.cells)) ∧
  (∀ (s : State) (x : Access) (src : BitVec 10), s.reaches x R.EVR_SYS_ACK = true → s.activeRoute 12 src.toNat = none →
  Gives (.evrSysAck x src) s (fun t => t.getF R.EVR_BADACK F.EVR_BADACK_COUNT = satInc F.EVR_BADACK_COUNT.top (s.getF
  R.EVR_BADACK F.EVR_BADACK_COUNT) ∧ t = { s with regs := t.regs })) ∧
  (∀ (s : State) (x : Access) (src : BitVec 10), s.reaches x R.EVR_SYS_ACK = true → x.m ≠ .sys → s.activeRoute 12 src.toNat
  ≠ none → Gives (.evrSysAck x src) s (fun t => t = s)) ∧
  (∀ (s : State) (g : Fin 64) (b : Batch), (b = SMap.get (fun _ => noBatch) s.evr.batches g) → b.count ≠ 0 → s.getF
  (R.EVR_GCFG g) F.EVR_GCFG_TIME ≠ 0 → b.start + s.getF (R.EVR_GCFG g) F.EVR_GCFG_TIME ≤ s.mtime.toNat / 1500 → (s.routeTgt
  (1024 + g)).kind ≠ 0 → s.route (1024 + g) = idleRoute → Gives (.groupBatchClose g) s (fun t => (t.route (1024 + g)).st =
  .pending ∧ (t.route (1024 + g)).src = b.low ∧ (t.route (1024 + g)).cnt = b.count ∧ t.getF (R.EVR_GSTAT g)
  F.EVR_GSTAT_OPEN = 0 ∧ t.cells = s.cells)) ∧
  (∀ (s : State) (g : Fin 64) (b : Batch), (b = SMap.get (fun _ => noBatch) s.evr.batches g) → (b.count = 0 ∨ s.getF
  (R.EVR_GCFG g) F.EVR_GCFG_TIME = 0 ∨ s.mtime.toNat / 1500 < b.start + s.getF (R.EVR_GCFG g) F.EVR_GCFG_TIME) → Gives
  (.groupBatchClose g) s (fun t => t = s)) ∧
  (∀ (s : State) (x : Access) (j : Fin 1024) (v : Word), s.reaches x (R.EVR_TGT j) = true → localOf j = none →
  s.absentSource j = false → x.m.isSys = true → v &&& 0x3E00F800 = 0 → s.indexOk (F.EVR_TGT_KIND.get v)
  (F.EVR_TGT_INDEX.get v) = true → isLine j = false → Gives (.evrTgtWrite x (.src j) v) s (fun t => t.getF (R.EVR_TGT j)
  F.EVR_TGT_KIND = F.EVR_TGT_KIND.get v ∧ t.getF (R.EVR_TGT j) F.EVR_TGT_INDEX = F.EVR_TGT_INDEX.get v ∧ t.isSet (R.EVR_TGT
  j) F.EVR_TGT_STALE = false ∧ t.getF (R.EVR_TGT j) F.EVR_TGT_EPOCH = s.tgtEpoch (F.EVR_TGT_KIND.get v)
  (F.EVR_TGT_INDEX.get v) % 2 ^ F.EVR_TGT_EPOCH.width ∧ (t.route j).latched = false ∧ (t.route j).st = (s.route j).st ∧ t =
  { s with regs := t.regs, evr := t.evr })) ∧
  (∀ (s : State) (x : Access) (n : Slice) (i : Fin 72) (v : Word), s.reaches x (R.EVR_LTGT n i) = true → s.ownerIs n x.m =
  true → s.slState n = slFenced → v &&& 0x3E00F800 = 0 → s.indexOk (F.EVR_TGT_KIND.get v) (F.EVR_TGT_INDEX.get v) = true →
  s.mayName (localSrc n i) (F.EVR_TGT_KIND.get v) (F.EVR_TGT_INDEX.get v) = true → isLine (localSrc n i) = false → Gives
  (.evrTgtWrite x (.loc n i) v) s (fun t => t.getF (R.EVR_LTGT n i) F.EVR_TGT_KIND = F.EVR_TGT_KIND.get v ∧ t.getF
  (R.EVR_LTGT n i) F.EVR_TGT_INDEX = F.EVR_TGT_INDEX.get v ∧ t.isSet (R.EVR_LTGT n i) F.EVR_TGT_STALE = false ∧ t.getF
  (R.EVR_LTGT n i) F.EVR_TGT_EPOCH = s.tgtEpoch (F.EVR_TGT_KIND.get v) (F.EVR_TGT_INDEX.get v) % 2 ^ F.EVR_TGT_EPOCH.width
  ∧ (t.route (localSrc n i)).latched = false ∧ t = { s with regs := t.regs, evr := t.evr })) ∧
  (∀ (s : State) (x : Access) (g : Fin 64) (v : Word), s.reaches x (R.EVR_GTGT g) = true → x.m.isSys = true → v &&&
  0x2000F800 = 0 → s.indexOk (F.EVR_GTGT_KIND.get v) (F.EVR_GTGT_INDEX.get v) = true → s.members g = [] → Gives
  (.evrTgtWrite x (.grp g) v) s (fun t => t.getF (R.EVR_GTGT g) F.EVR_GTGT_KIND = F.EVR_GTGT_KIND.get v ∧ t.getF
  (R.EVR_GTGT g) F.EVR_GTGT_INDEX = F.EVR_GTGT_INDEX.get v ∧ t.isSet (R.EVR_GTGT g) F.EVR_GTGT_STALE = false ∧ t.getF
  (R.EVR_GTGT g) F.EVR_GTGT_EPOCH = s.tgtEpoch (F.EVR_GTGT_KIND.get v) (F.EVR_GTGT_INDEX.get v) % 2 ^
  F.EVR_GTGT_EPOCH.width ∧ t.getF (R.EVR_GTGT g) F.EVR_GTGT_PRIO = F.EVR_GTGT_PRIO.get v ∧ (t.route (1024 + g)).latched =
  false ∧ t = { s with regs := t.regs, evr := t.evr })) ∧
  (∀ (s : State) (x : Access) (j : Fin 1024) (v : Word), s.reaches x (R.EVR_TGT j) = true → s.absentSource j = false →
  (localOf j ≠ none ∨ x.m.isSys = false ∨ v &&& 0x3E00F800 ≠ 0 ∨ s.indexOk (F.EVR_TGT_KIND.get v) (F.EVR_TGT_INDEX.get v) =
  false) → Gives (.evrTgtWrite x (.src j) v) s (fun t => t.reg (R.EVR_TGT j) = s.reg (R.EVR_TGT j) ∧ t.getF R.EVR_CFG_REJ
  F.EVR_CFG_REJ_COUNT = satInc F.EVR_CFG_REJ_COUNT.top (s.getF R.EVR_CFG_REJ F.EVR_CFG_REJ_COUNT) ∧ t =
  { s with regs := t.regs })) ∧
  (∀ (s : State) (x : Access) (n : Slice) (i : Fin 72) (v : Word), s.reaches x (R.EVR_LTGT n i) = true → (s.slState n ≠
  slFenced ∨ s.mayName (localSrc n i) (F.EVR_TGT_KIND.get v) (F.EVR_TGT_INDEX.get v) = false) → Gives (.evrTgtWrite x (.loc
  n i) v) s (fun t => t.reg (R.EVR_LTGT n i) = s.reg (R.EVR_LTGT n i) ∧ t.getF R.EVR_CFG_REJ F.EVR_CFG_REJ_COUNT = satInc
  F.EVR_CFG_REJ_COUNT.top (s.getF R.EVR_CFG_REJ F.EVR_CFG_REJ_COUNT) ∧ t = { s with regs := t.regs })) ∧
  (∀ (s : State) (x : Access) (g : Fin 64) (v : Word), s.reaches x (R.EVR_GTGT g) = true → (v &&& 0x2000F800 ≠ 0 ∨
  s.indexOk (F.EVR_GTGT_KIND.get v) (F.EVR_GTGT_INDEX.get v) = false) → Gives (.evrTgtWrite x (.grp g) v) s (fun t => t.reg
  (R.EVR_GTGT g) = s.reg (R.EVR_GTGT g) ∧ t.getF R.EVR_CFG_REJ F.EVR_CFG_REJ_COUNT = satInc F.EVR_CFG_REJ_COUNT.top (s.getF
  R.EVR_CFG_REJ F.EVR_CFG_REJ_COUNT) ∧ t = { s with regs := t.regs })) ∧
  (∀ (s : State) (src at_ : Nat) (mt : BitVec 64) (l : List (Nat × Nat × BitVec 64)), s.evr.taps = (src, at_, mt) :: l →
  Gives (.eventTap) s (fun t => t.evr.taps.take l.length = l ∧ t.cells = s.cells)) ∧
  (∀ (s : State), s.evr.taps = [] → Gives (.eventTap) s (fun t => t = s)) ∧
  (∀ (s : State) (x : Access) (o : Orphan) (l : List Orphan), s.answers x R.EVR_ORPH1 = true → s.evr.orphans = o :: l →
  Gives (.orphanRead x) s (fun t => t.evr.orphans = l ∧ t.getF R.EVR_STAT F.EVR_STAT_ORPH_LEVEL = l.length % 2 ^
  F.EVR_STAT_ORPH_LEVEL.width ∧ t = { s with regs := t.regs, evr := t.evr, busOut := t.busOut })) ∧
  (∀ (s : State) (x : Access), s.answers x R.EVR_ORPH1 = true → s.evr.orphans = [] → Gives (.orphanRead x) s (fun t =>
  t.evr.orphans = [] ∧ t.getF R.EVR_STAT F.EVR_STAT_ORPH_LEVEL = 0 ∧ t =
  { s with regs := t.regs, evr := t.evr, busOut := t.busOut }))

/-- DMA: start, halt, and each instruction of a program. Follows: R315, R316, R317, R318, R319, R320, R321, R322, R323,
R324, R326, 19_dma_programs.md. Beside the rules it rests on these choices of the model: logs 98, 99, 100. -/
def Obligations.DmaPrograms : Prop :=
  (∀ (s : State) (x : Access) (e : Engine) (c : Fin 16), s.reaches x (R.DMA_CTRL e c) = true → c.val < dmaChannels e →
  s.dmaMayStart e c = true → Gives (.dmaStart x e c) s (fun t => s.reg (R.DMA_PROG e c) = t.reg (R.DMA_PC e c) ∧ t.dmaState
  e c = 1 ∧ t.dmaOf e c = resetDma ∧ s.DmaOnly t e c)) ∧
  (∀ (s : State) (x : Access) (e : Engine) (c : Fin 16), s.reaches x (R.DMA_CTRL e c) = true → c.val < dmaChannels e →
  s.dmaMayStart e c = false → Gives (.dmaStart x e c) s (fun t => t.dmaState e c = s.dmaState e c ∧ t.getF (R.DMA_CFG_REJ
  e) F.DMA_CFG_REJ_COUNT = satInc F.DMA_CFG_REJ_COUNT.top (s.getF (R.DMA_CFG_REJ e) F.DMA_CFG_REJ_COUNT) ∧ t =
  { s with regs := t.regs })) ∧
  (∀ (s : State) (x : Access) (e : Engine) (c : Fin 16), s.reaches x (R.DMA_CTRL e c) = true → c.val < dmaChannels e →
  (s.dmaState e c = 1 ∨ s.dmaState e c = 2 ∨ s.dmaState e c = 4) → s.outst e c = 0 → Gives (.dmaHalt x e c) s (fun t =>
  t.dmaState e c = 0 ∧ t.isSet (R.DMA_STAT e c) F.DMA_STAT_STOP_F = true ∧ t.getF (R.DMA_STAT e c) F.DMA_STAT_STOP_CAUSE =
  1 ∧ t.cells = s.cells)) ∧
  (∀ (s : State) (e : Engine) (c : Fin 16) (l : List Nat) (src dst : Nat) (v : Cell), s.dmaAt e c l = true → l.length = 3 →
  (s.dmaOf e c).loops = [] → wordAt l 0 = 1 * 2 ^ 28 + 1 → src = wordAt l 1 → dst = wordAt l 2 → src % 4 = 0 → dst % 4 = 0
  → s.dmaCellOk e src false = true → s.dmaCellOk e dst true = true → v = s.cell src → s.outst e c < 64 → Gives (.move e c)
  s (fun t => t.cell dst = stored dst v ∧ t.reg (R.DMA_PC e c) = s.reg (R.DMA_PC e c) + 12 ∧ t.outst e c = s.outst e c + 1
  ∧ t.getF (R.DMA_BYTES e c) F.DMA_BYTES_VALUE = min F.DMA_BYTES_VALUE.top (s.getF (R.DMA_BYTES e c) F.DMA_BYTES_VALUE + 4)
  ∧ s.CellsKept t (· == dst))) ∧
  (∀ (s : State) (e : Engine) (c : Fin 16) (l : List Nat), s.dmaAt e c l = true → wordAt l 0 / 2 ^ 28 = 2 → wordAt l 0 / 2
  ^ 24 % 16 = 0 → (s.dmaOf e c).loops.length < 4 → Gives (.dmaLoop e c) s (fun t => (t.dmaOf e c).loops = ⟨s.dmaPc e c + 8,
  wordAt l 0 % 2 ^ 24, 0, toSigned 16 (wordAt l 1 / 65536), toSigned 16 (wordAt l 1)⟩ :: (s.dmaOf e c).loops ∧ t.getF
  (R.DMA_STAT e c) F.DMA_STAT_DEPTH = (s.dmaOf e c).loops.length + 1 ∧ t.reg (R.DMA_PC e c) = s.reg (R.DMA_PC e c) + 8 ∧
  s.DmaOnly t e c)) ∧
  (∀ (s : State) (e : Engine) (c : Fin 16) (l : List Nat) (y : DmaLoop) (q : List DmaLoop), s.dmaAt e c l = true → wordAt l
  0 = 3 * 2 ^ 28 → (s.dmaOf e c).loops = y :: q → y.left ≠ 1 → y.start < 2 ^ 32 → Gives (.endloop e c) s (fun t => (t.dmaOf
  e c).loops = { y with left := y.left - 1, i := (y.i + 1) % 2 ^ 32 } :: q ∧ t.dmaPc e c = y.start ∧ s.DmaOnly t e c)) ∧
  (∀ (s : State) (e : Engine) (c : Fin 16) (l : List Nat) (y : DmaLoop) (q : List DmaLoop), s.dmaAt e c l = true → wordAt l
  0 = 3 * 2 ^ 28 → (s.dmaOf e c).loops = y :: q → y.left = 1 → q.length < 4 → Gives (.endloop e c) s (fun t => (t.dmaOf e
  c).loops = q ∧ t.reg (R.DMA_PC e c) = s.reg (R.DMA_PC e c) + 4 ∧ s.DmaOnly t e c)) ∧
  (∀ (s : State) (e : Engine) (c : Fin 16) (l : List Nat), s.dmaAt e c l = true → wordAt l 0 / 2 ^ 28 = 4 → wordAt l 0 /
  1024 % 2 ^ 18 = 0 → wordAt l 1 < 2 ^ 24 → waitOk e (wordAt l 0 % 1024) = true → (pwmSource (wordAt l 0 % 1024) ≠ some
  e.val ∨ s.evr.taps.any (fun x => x.1 == wordAt l 0 % 1024 && x.2.1 == s.clock) = false) → Gives (.dmaWait e c) s (fun t
  => t.dmaState e c = 2 ∧ (t.dmaOf e c).wait = some ⟨wordAt l 0 % 1024, wordAt l 1, s.mtime.toNat, s.clock⟩ ∧ s.DmaOnly t e
  c)) ∧
  (∀ (s : State) (e : Engine) (c : Fin 16) (w : DmaWait), (s.dmaOf e c).wait = some w → s.dmaState e c = 2 → w.us ≠ 0 →
  w.since + 1500 * w.us ≤ s.mtime.toNat → s.outst e c = 0 → Gives (.dmaWaitTimeout e c) s (fun t => t.dmaState e c = 5 ∧
  t.getF (R.DMA_STAT e c) F.DMA_STAT_ERR = 6 ∧ t.isSet (R.DMA_STAT e c) F.DMA_STAT_ERR_F = true ∧ (t.dmaOf e c).wait = none
  ∧ t.cells = s.cells)) ∧
  (∀ (s : State) (e : Engine) (c : Fin 16) (l : List Nat), s.dmaAt e c l = true → wordAt l 0 = 5 * 2 ^ 28 → s.outst e c = 0
  → Gives (.dmaSignal e c) s (fun t => t.reg (R.DMA_PC e c) = s.reg (R.DMA_PC e c) + 4 ∧ t.dmaState e c = 1 ∧ (s.srcPresent
  (signalSource e c) = true → s.evtDelay (signalSource e c) = 0 → t.evr.taps = s.evr.taps ++ [(signalSource e c, s.clock,
  s.mtime)]) ∧ t.cells = s.cells)) ∧
  (∀ (s : State) (e : Engine) (c : Fin 16) (l : List Nat), s.dmaAt e c l = true → wordAt l 0 = 7 * 2 ^ 28 → s.outst e c = 0
  → Gives (.dmaFence e c) s (fun t => t.reg (R.DMA_PC e c) = s.reg (R.DMA_PC e c) + 4 ∧ t.dmaState e c = 1 ∧ s.DmaOnly t e
  c)) ∧
  (∀ (s : State) (e : Engine) (c : Fin 16) (l : List Nat), s.dmaAt e c l = true → wordAt l 0 = 7 * 2 ^ 28 → s.outst e c ≠ 0
  → Gives (.dmaFence e c) s (fun t => t.dmaState e c = 3 ∧ (t.dmaOf e c).after = .fence ∧ t.dmaPc e c = s.dmaPc e c ∧
  s.DmaOnly t e c)) ∧
  (∀ (s : State) (e : Engine) (c : Fin 16) (l : List Nat), s.dmaAt e c l = true → wordAt l 0 = 0 → s.outst e c = 0 → Gives
  (.dmaEnd e c) s (fun t => t.dmaState e c = 0 ∧ t.isSet (R.DMA_STAT e c) F.DMA_STAT_DONE_F = true ∧ (t.dmaOf e c).loops =
  [] ∧ t.cells = s.cells)) ∧
  (∀ (s : State) (e : Engine) (c : Fin 16) (l : List Nat) (src dst : Nat), s.dmaAt e c l = true → (s.dmaOf e c).loops = []
  → wordAt l 0 = 6 * 2 ^ 28 + 3 * 2 ^ 24 + 1 * 2 ^ 20 + 1 → src = wordAt l 1 → dst = wordAt l 2 → wordAt l 3 % 4 = 0 → src
  % 4 = 0 → dst % 4 = 0 → dst + wordAt l 3 < 2 ^ 32 → src + 4 < 2 ^ 32 → 4 ≤ wordAt l 3 → s.dmaCellOk e src false = true →
  s.dmaCellOk e (src + 4) false = true → s.dmaCellOk e dst true = true → s.dmaCellOk e (dst + wordAt l 3) true = true → dst
  ≠ src + 4 → s.outst e c < 63 → Gives (.shuffle e c) s (fun t => t.cell dst = stored dst (s.cell src) ∧ t.cell (dst +
  wordAt l 3) = stored (dst + wordAt l 3) (s.cell (src + 4)) ∧ t.reg (R.DMA_PC e c) = s.reg (R.DMA_PC e c) + 16 ∧
  (s.CellsKept t (fun a => a == dst || a == dst + wordAt l 3)))) ∧
  (∀ (s : State) (e : Engine) (c : Fin 16), 1 < s.outst e c → Gives (.dmaWriteResponse e c) s (fun t => t.outst e c =
  s.outst e c - 1 ∧ t = { s with regs := t.regs })) ∧
  (∀ (s : State) (e : Engine) (c : Fin 16), s.outst e c = 1 → (s.dmaOf e c).after = .fence → (s.dmaOf e c).was = 0 →
  s.dmaState e c = 3 → Gives (.dmaWriteResponse e c) s (fun t => t.outst e c = 0 ∧ t.dmaState e c = 1 ∧ (t.dmaOf e c).after
  = .nothing ∧ t.reg (R.DMA_PC e c) = s.reg (R.DMA_PC e c) + 4))

/-- Descriptors: opcodes that act on a slice of the function. Follows: R353, R354, R355, R356, R357, R358,
21_rings_doorbells_and_abort.md. Beside the rules it rests on these choices of the model: logs 89, 91, 92, 94, 95. -/
def Obligations.DescriptorsOfSlices : Prop :=
  (∀ (s : State) (f : Func) (k : Nat) (x : Flight) (n : Slice) (a : Nat) (v : Word), s.canBegin f k 0x02 x = true →
  s.descCheck f x .slice (x.d.unit == 0) false false = none → x.d.slice = n → x.d.unit = 1 → x.d.op32 0 = a - sliceBase n →
  v = x.d.p.get 1 → s.accessWaits a = false → smem n 0 ≤ a → a < smem n 0 + 0x80000 → a % 4 = 0 → s.mark a = none → (s.cell
  a).tag = tagInt → Gives (.setParam f k) s (fun t => s.Completed t f k x 0 1 ∧ t.cell a = stored a ⟨v, tagInt⟩ ∧
  s.CellsKept t (· == a))) ∧
  (∀ (s : State) (f : Func) (k : Nat) (x : Flight), s.canBegin f k 0x02 x = true → (x.d.bad = true ∨ x.d.unit = 0 ∨ 6 <
  x.d.unit) → Gives (.setParam f k) s (fun t => s.Completed t f k x 5 0 ∧ t.cells = s.cells)) ∧
  (∀ (s : State) (f : Func) (k : Nat) (x : Flight) (n : Slice), s.canBegin f k 0x02 x = true → x.d.slice = n → x.d.bad =
  false → x.d.unit = 1 → x.d.op32 0 < 0x100000 → s.fitted n = true → s.owner n ≠ f.val → Gives (.setParam f k) s (fun t =>
  s.Completed t f k x 3 0 ∧ t.cells = s.cells)) ∧
  (∀ (s : State) (f : Func) (k : Nat) (x : Flight) (n : Slice), s.canBegin f k 0x03 x = true → s.descCheck f x .slice false
  false false = none → x.d.slice = n → x.d.unit < 16 → s.standby n = false → s.busUp (.fn f) = true → s.isSet
  R.DEV_BOOT_STAT F.DEV_BOOT_STAT_DONE = true → Gives (.setRef f k false) s (fun t => s.Completed t f k x 0 0 ∧ t.reg
  (R.CLE_REF n x.d.unit) = x.d.p.get 0 &&& 0xFFFF ∧ t.cells = s.cells)) ∧
  (∀ (s : State) (f : Func) (k : Nat) (x : Flight) (n : Slice), s.canBegin f k 0x03 x = true → s.descCheck f x .slice false
  false false = none → x.d.slice = n → x.d.unit < 16 → s.standby n = false → Gives (.setRef f k true) s (fun t =>
  s.Completed t f k x 0 1 ∧ t.reg (R.CLE_REF n x.d.unit) = s.reg (R.CLE_REF n x.d.unit) ∧ t.isSet (R.CLE_LSTAT n x.d.unit)
  F.CLE_LSTAT_WRCOLL_F = true)) ∧
  (∀ (s : State) (f : Func) (k : Nat) (x : Flight) (n : Slice) (b : Nat), s.canBegin f k 0x04 x = true → s.descCheck f x
  .slice false false false = none → x.d.slice = n → x.d.unit < 16 → b = x.d.op32 0 → b ≤ 1 → b ≠ s.getF (R.CLE_LCTRL n
  x.d.unit) F.CLE_LCTRL_BANK → s.standby n = false → s.busUp (.fn f) = true → s.slState n = slRunning → s.isSet
  (R.CLE_LSTAT n x.d.unit) F.CLE_LSTAT_SWAP_PEND = false → F.CLE_CB3_SHIFT.get (x.d.p.get 4) ≤ 8 → Gives (.loadCoeff f k) s
  (fun t => s.Completed t f k x 0 0 ∧ t.reg (R.CLE_CB0 n x.d.unit b) = x.d.p.get 1 ∧ t.reg (R.CLE_CB1 n x.d.unit b) =
  x.d.p.get 2 ∧ t.cells = s.cells)) ∧
  (∀ (s : State) (f : Func) (k : Nat) (x : Flight) (n : Slice), s.canBegin f k 0x05 x = true → s.descCheck f x .slice false
  false false = none → x.d.slice = n → x.d.unit < 16 → s.standby n = false → s.busUp (.fn f) = true → s.slState n =
  slRunning → s.isSet (R.CLE_LCTRL n x.d.unit) F.CLE_LCTRL_EN = true → s.isSet (R.CLE_LSTAT n x.d.unit)
  F.CLE_LSTAT_SWAP_PEND = false → (s.ctlOf n).fencing = false → Gives (.descSwapBank f k) s (fun t => t.Waits f k x (.swap
  n x.d.unit) ∧ t.isSet (R.CLE_LSTAT n x.d.unit) F.CLE_LSTAT_SWAP_PEND = true ∧ t.cells = s.cells)) ∧
  (∀ (s : State) (f : Func) (k : Nat) (x : Flight) (n : Slice), s.canBegin f k 0x06 x = true → s.descCheck f x .slice false
  false false = none → x.d.slice = n → x.d.unit < 16 → bit (x.d.p.get 0) 16 = false → s.isSet (R.CLE_LCTRL n x.d.unit)
  F.CLE_LCTRL_MODE = !bit (x.d.p.get 0) 0 → s.standby n = false → s.busUp (.fn f) = true → s.slState n = slRunning →
  s.isSet (R.CLE_LCTRL n x.d.unit) F.CLE_LCTRL_EN = true → s.isSet (R.CLE_LSTAT n x.d.unit) F.CLE_LSTAT_MODE_PEND = false →
  (s.ctlOf n).fencing = false → Gives (.setModeLoop f k) s (fun t => t.Waits f k x (.mode n x.d.unit) ∧ t.isSet
  (R.CLE_LSTAT n x.d.unit) F.CLE_LSTAT_MODE_PEND = true ∧ t.cells = s.cells)) ∧
  (∀ (s : State) (f : Func) (k : Nat) (x : Flight) (n : Slice) (a : Nat), s.canBegin f k 0x07 x = true → s.descCheck f x
  .slice false false false = none → x.d.slice = n → x.d.unit = 0 → x.d.op32 1 = 4 → a = sliceBase n + x.d.op32 0 →
  s.accessWaits a = false → smem n 0 ≤ a → a < smem n 0 + 0x80000 → a % 4 = 0 → s.mark a = none → (s.cell a).tag ≠ tagCap →
  s.fnReach f = true → Gives (.readState f k) s (fun t => s.Completed t f k x 0 4 ∧ t.outs = s.outs ++ [.hostWrite f
  x.d.addr [(s.cell a).v]] ∧ t.cells = s.cells)) ∧
  (∀ (s : State) (f : Func) (k : Nat) (x : Flight) (n : Slice), s.canBegin f k 0x08 x = true → s.descCheck f x .slice
  (F.INJ_CTRL_START.get (x.d.p.get 0) == 0) false false = none → x.d.slice = n → x.d.unit = 0 → s.busUp (.fn f) = true →
  s.mode = mdService → (s.slState n = slReady ∨ s.slState n = slRunning) → s.isSet (R.INJ_STAT n) F.INJ_STAT_RUN = false →
  F.INJ_CTRL_LOOP.get (x.d.p.get 0) = 3 → s.isSet (R.CLE_LCTRL n 3) F.CLE_LCTRL_EN = true → s.getF (R.INJ_LIM n 3)
  F.INJ_LIM_LIM = 0 → x.d.p.get 0 = F.INJ_CTRL_START.word 1 ||| F.INJ_CTRL_LOOP.word 3 → (x.d.p.get 1 = 0 ∧ x.d.p.get 2 = 0
  ∧ x.d.p.get 3 = 0 ∧ x.d.p.get 4 = 0) → x.d.p.get 5 = F.INJ_CAP_LOG2LEN.word 4 → x.d.p.get 6 = F.INJ_CORR_N.word 16 →
  Gives (.capture f k) s (fun t => t.Waits f k x (.inj n) ∧ t.isSet (R.INJ_STAT n) F.INJ_STAT_RUN = true ∧ t.cells =
  s.cells)) ∧
  (∀ (s : State) (f : Func) (k : Nat) (x : Flight) (n : Slice), s.canBegin f k 0x0B x = true → s.descCheck f x .slice false
  false false = none → x.d.slice = n → x.d.unit = 0 → s.part.full = true → 0x800 ≤ x.d.op32 0 → 1 ≤ x.d.op32 1 → x.d.op32 0
  + x.d.op32 1 ≤ 0x1000 → s.slState n = slFenced → s.mayRequest f = true → Gives (.mcodeLoad f k) s (fun t => t.Waits f k x
  (.read [] (min (32 * x.d.op32 1) (s.maxRead f))) ∧ t.outs = s.outs ++ [.hostRead f x.d.addr (min (32 * x.d.op32 1)
  (s.maxRead f))] ∧ t.mstore = s.mstore ∧ t.cells = s.cells)) ∧
  (∀ (s : State) (f : Func) (k : Nat) (x : Flight) (n : Slice), s.canBegin f k 0x0E x = true → s.descCheck f x .slice false
  false false = none → x.d.slice = n → x.d.unit = 0 → bit (x.d.p.get 0) 8 = false → s.busUp (.fn f) = true → s.slState n =
  slRunning → (s.ctlOf n).fencing = false → s.isSet (R.SLC_CMD_STAT n) F.SLC_CMD_STAT_HELD = false → Gives (.sliceFence f
  k) s (fun t => t.Waits f k x (.fenced n) ∧ (t.ctlOf n).fencing = true ∧ t.armed n = false ∧ t.cells = s.cells)) ∧
  (∀ (s : State) (f : Func) (k : Nat) (x : Flight) (n : Slice), s.canBegin f k 0x0F x = true → s.descCheck f x .slice false
  false false = none → x.d.slice = n → x.d.unit = 0 → x.d.p.get 0 = 0 → s.busUp (.fn f) = true → s.slState n = slFenced →
  s.cmdBusy n = false → (s.ctlOf n).image = true → (s.ctlOf n).diverged = false → Gives (.sliceResume f k) s (fun t =>
  t.Waits f k x (.resume n false) ∧ t.cells = s.cells)) ∧
  (∀ (s : State) (f : Func) (k : Nat) (x : Flight) (n i : Slice) (w0 w1 : Word), s.canBegin f k 0x10 x = true → s.descCheck
  f x .slice false false false = none → x.d.slice = n → x.d.unit = 0 → s.part.full = true → x.d.op32 0 = 1 → x.d.addr = 0 →
  x.d.p.get 2 = w0 → x.d.p.get 3 = w1 → w1.toNat / 65536 = i → s.mode = mdHil → (s.hilOf n i).feed.length < 16 → Gives
  (.hilFeed f k) s (fun t => s.Completed t f k x 0 1 ∧ (t.hilOf n i).feed = (s.hilOf n i).feed ++ [⟨w1.setWidth 16, w0,
  s.clock⟩] ∧ t.cells = s.cells))

/-- Descriptors: opcodes of the module, events, data and completion. Follows: R342, R351, R353, R354, R355, R356, R358,
R360, R425, 21_rings_doorbells_and_abort.md. Where a clause concludes t = s for an event that cannot happen, that is the
model's choice (log 2). Beside the rules it rests on these choices of the model: logs 93, 96, 97, 166. -/
def Obligations.DescriptorsOfTheModule : Prop :=
  (∀ (s : State) (f : Func) (k : Nat) (x : Flight), s.canBegin f k 0x00 x = true → s.descCheck f x .none false false false
  = none → x.d.unit = 0 → Gives (.descNop f k) s (fun t => s.Completed t f k x 0 0 ∧ t.cells = s.cells ∧ t.outs = s.outs)) ∧
  (∀ (s : State) (f : Func) (k : Nat) (x : Flight), s.canBegin f k 0x00 x = true → (x.d.bad = true ∨ x.d.slice ≠ 255 ∨
  x.d.unit ≠ 0) → Gives (.descNop f k) s (fun t => s.Completed t f k x 5 0 ∧ t.cells = s.cells)) ∧
  (∀ (s : State) (f : Func) (k : Nat) (x : Flight), s.canBegin f k 0x00 x = true → x.d.bad = false → x.d.slice = 255 →
  x.d.unit = 0 → x.lost = true → Gives (.descNop f k) s (fun t => s.Completed t f k x 3 0 ∧ t.cells = s.cells)) ∧
  (∀ (s : State) (f : Func) (k : Nat) (x : Flight), s.canBegin f k 0x01 x = true → s.descCheck f x .none false false false
  = none → x.d.unit = 0 → (∀ c ∈ (s.fnOf f).done, c.sq ≠ x.sq ∨ x.pos < c.pos) → Gives (.descFence f k) s (fun t =>
  s.Completed t f k x 0 0 ∧ t.cells = s.cells)) ∧
  (∀ (s : State) (f : Func) (k : Nat) (x : Flight), s.canBegin f k 0x01 x = true → (x.d.bad = true ∨ x.d.slice ≠ 255 ∨
  x.d.unit ≠ 0) → (∀ c ∈ (s.fnOf f).done, c.sq ≠ x.sq ∨ x.pos < c.pos) → Gives (.descFence f k) s (fun t => s.Completed t f
  k x 5 0 ∧ t.cells = s.cells)) ∧
  (∀ (s : State) (f : Func) (k : Nat) (x : Flight) (c : Compl), s.canBegin f k 0x01 x = true → c ∈ (s.fnOf f).done → c.sq =
  x.sq → c.pos ≤ x.pos → Gives (.descFence f k) s (fun t => t = s)) ∧
  (∀ (s : State) (f : Func) (k : Nat) (x : Flight), s.canBegin f k 0x09 x = true → s.descCheck f x .none false false false
  = none → x.d.unit = 0 → bit (x.d.p.get 0) 0 = true → 12 ≤ x.d.op32 1 % 32 → x.d.op32 1 % 32 ≤ 24 → x.d.addr % 4096 = 0 →
  Gives (.traceArm f k) s (fun t => s.Completed t f k x 0 0 ∧ (t.fnOf f).trace = some (x.d.addr, x.d.op32 1 % 32, 0) ∧
  t.cells = s.cells)) ∧
  (∀ (s : State) (f : Func) (k : Nat) (x : Flight), s.canBegin f k 0x09 x = true → s.descCheck f x .none false false false
  = none → x.d.unit = 0 → bit (x.d.p.get 0) 0 = false → Gives (.traceArm f k) s (fun t => s.Completed t f k x 0 0 ∧ (t.fnOf
  f).trace = none ∧ t.cells = s.cells)) ∧
  (∀ (s : State) (f : Func) (k : Nat) (x : Flight), s.canBegin f k 0x09 x = true → (x.d.bad = true ∨ x.d.slice ≠ 255 ∨
  x.d.unit ≠ 0 ∨ (bit (x.d.p.get 0) 0 = true ∧ (x.d.op32 1 % 32 < 12 ∨ 24 < x.d.op32 1 % 32 ∨ x.d.addr % 4096 ≠ 0))) →
  Gives (.traceArm f k) s (fun t => s.Completed t f k x 5 0 ∧ (t.fnOf f).trace = (s.fnOf f).trace ∧ t.cells = s.cells)) ∧
  (∀ (s : State) (f : Func) (k : Nat) (x : Flight) (n : Slice) (c : Fin 16), s.canBegin f k 0x0A x = true → s.descCheck f x
  .either false false false = none → x.d.slice = n → x.d.unit = c.val → c.val < 8 → s.dmaMayStart n.castSucc c = true →
  Gives (.dmaXfer f k) s (fun t => t.Waits f k x (.dma n c) ∧ t.dmaState n c = 1 ∧ t.reg (R.DMA_PC n c) = s.reg (R.DMA_PROG
  n c) ∧ t.cells = s.cells)) ∧
  (∀ (s : State) (f : Func) (k : Nat) (x : Flight) (n : Slice) (c : Fin 16), s.canBegin f k 0x0A x = true → s.descCheck f x
  .either false false false = none → x.d.slice = n → x.d.unit = c.val → c.val < 8 → s.dmaMayStart n.castSucc c = false →
  Gives (.dmaXfer f k) s (fun t => s.Completed t f k x 2 0 ∧ t.dmaState n c = s.dmaState n c ∧ t.getF (R.DMA_CFG_REJ n)
  F.DMA_CFG_REJ_COUNT = satInc F.DMA_CFG_REJ_COUNT.top (s.getF (R.DMA_CFG_REJ n) F.DMA_CFG_REJ_COUNT) ∧ t.cells = s.cells)) ∧
  (∀ (s : State) (k : Nat) (x : Flight) (c : Fin 16), s.canBegin 0 k 0x0A x = true → s.descCheck 0 x .either false false
  false = none → x.d.slice = 255 → x.d.unit = c.val → s.dmaMayStart 12 c = true → Gives (.dmaXfer 0 k) s (fun t => t.Waits
  0 k x (.dma 12 c) ∧ t.dmaState 12 c = 1 ∧ t.reg (R.DMA_PC 12 c) = s.reg (R.DMA_PROG 12 c) ∧ t.cells = s.cells)) ∧
  (∀ (s : State) (f : Func) (k : Nat) (x : Flight), s.canBegin f k 0x0A x = true → x.d.bad = false → x.d.slice = 255 →
  x.d.unit < 16 → f ≠ 0 → Gives (.dmaXfer f k) s (fun t => s.Completed t f k x 3 0 ∧ t.cells = s.cells)) ∧
  (∀ (s : State) (f : Func) (k : Nat) (x : Flight) (n : Slice), s.canBegin f k 0x0A x = true → x.d.bad = false → x.d.slice
  = n → x.d.unit < 8 → s.fitted n = true → (x.lost = true ∨ s.owner n ≠ f.val) → Gives (.dmaXfer f k) s (fun t =>
  s.Completed t f k x 3 0 ∧ t.cells = s.cells)) ∧
  (∀ (s : State) (f : Func) (k : Nat) (x : Flight) (n : Slice), s.canBegin f k 0x0A x = true → x.d.bad = false → x.d.slice
  = n → x.d.unit < 8 → s.fitted n = false → Gives (.dmaXfer f k) s (fun t => s.Completed t f k x 4 0 ∧ t.cells = s.cells)) ∧
  (∀ (s : State) (f : Func) (k : Nat) (x : Flight), s.canBegin f k 0x0A x = true → (x.d.bad = true ∨ (12 ≤ x.d.slice ∧
  x.d.slice ≠ 255) ∨ 16 ≤ x.d.unit ∨ (x.d.slice < 12 ∧ 8 ≤ x.d.unit)) → Gives (.dmaXfer f k) s (fun t => s.Completed t f k
  x 5 0 ∧ t.cells = s.cells)) ∧
  (∀ (s : State) (k : Nat) (x : Flight), s.canBegin 0 k 0x0C x = true → x.d.bad = false → x.d.slice = 255 → x.d.unit = 0 →
  flashBad x.d = false → x.d.op32 0 % 16 = 2 → s.flashWaits x.d = false → x.lost = false → x.await = .nothing →
  s.mayRequest 0 = true → Gives (.flashOp 0 k) s (fun t => t.Waits 0 k x (.read [] (min 256 (s.maxRead 0))) ∧ t.outs =
  s.outs ++ [.hostRead 0 x.d.addr (min 256 (s.maxRead 0))] ∧ t.cells = s.cells ∧ t.flc = s.flc)) ∧
  (∀ (s : State) (k : Nat) (x : Flight) (arr blk : Nat), s.canBegin 0 k 0x0C x = true → x.d.bad = false → x.d.slice = 255 →
  x.d.unit = 0 → x.lost = false → x.d.op32 0 % 16 = 1 → arr = F.FLC_BSEL_ARRAY.get (x.d.p.get 1) → blk =
  F.FLC_BSEL_BLOCK.get (x.d.p.get 1) → blkOk arr blk = true → s.flc.run = none → s.flcBars arr blk none = 0 → Gives
  (.flashOp 0 k) s (fun t => t.Waits 0 k x (.flash (blkKey arr blk) 0) ∧ t.flc.run = some ⟨.erase, arr, blk, false, none⟩ ∧
  t.cells = s.cells)) ∧
  (∀ (s : State) (k : Nat) (x : Flight) (r : Nat), s.canBegin 0 k 0x0C x = true → x.d.bad = false → x.d.slice = 255 →
  x.d.unit = 0 → x.lost = false → x.d.op32 0 % 16 = 8 → r = F.FLC_BSEL_REGION.get (x.d.p.get 1) → s.flc.run = none → Gives
  (.flashOp 0 k) s (fun t => s.Completed t 0 k x 0 0 ∧ t.isSet (R.FLC_REGION r) F.FLC_REGION_UNLOCKED = false ∧ t.cells =
  s.cells)) ∧
  (∀ (s : State) (k : Nat) (x : Flight), s.canBegin 0 k 0x0C x = true → x.d.bad = false → x.d.slice = 255 → x.d.unit = 0 →
  x.lost = false → flashBad x.d = false → x.d.op32 0 % 16 = 3 → s.flc.run = none → Gives (.flashOp 0 k) s (fun t =>
  s.Completed t 0 k x 2 0 ∧ t.cells = s.cells ∧ t.flc = { s.flc with stage := t.flc.stage })) ∧
  (∀ (s : State) (f : Func) (k : Nat) (x : Flight), s.canBegin f k 0x0C x = true → s.flashWaits x.d = true → Gives
  (.flashOp f k) s (fun t => t = s)) ∧
  (∀ (s : State) (f : Func) (k : Nat) (x : Flight), s.canBegin f k 0x0C x = true → s.flashWaits x.d = false → (x.d.bad =
  true ∨ x.d.slice ≠ 255 ∨ x.d.unit ≠ 0 ∨ flashBad x.d = true) → Gives (.flashOp f k) s (fun t => s.Completed t f k x 5 0 ∧
  t.cells = s.cells ∧ t.flc = s.flc)) ∧
  (∀ (s : State) (f : Func) (k : Nat) (x : Flight), s.canBegin f k 0x0C x = true → s.flashWaits x.d = false → x.d.bad =
  false → x.d.slice = 255 → x.d.unit = 0 → flashBad x.d = false → f ≠ 0 → Gives (.flashOp f k) s (fun t => s.Completed t f
  k x 3 0 ∧ t.cells = s.cells ∧ t.flc = s.flc)) ∧
  (∀ (s : State) (f : Func) (k : Nat) (x : Flight) (n : Slice), s.canBegin f k 0x0D x = true → x.d.bad = false → x.lost =
  false → x.d.unit = 0 → x.d.slice = n → x.d.op32 0 % 32 = n.val → s.fitted n = true → s.owner n = f.val → s.mem.march =
  none → (s.slState n = slFenced ∨ (s.slState n = slReady ∧ bit (x.d.p.get 0) 8 = false)) → Gives (.descMarch f k) s (fun t
  => t.Waits f k x .march ∧ t.mem.march = some (n.val, bit (x.d.p.get 0) 8) ∧ t.isSet R.MEM_STAT F.MEM_STAT_MARCH_BUSY =
  true ∧ t.cells = s.cells)) ∧
  (∀ (s : State) (k : Nat) (x : Flight), s.canBegin 0 k 0x0D x = true → x.d.bad = false → x.lost = false → x.d.unit = 0 →
  x.d.slice = 255 → x.d.op32 0 % 32 = 0x10 → bit (x.d.p.get 0) 8 = false → s.mem.march = none → Gives (.descMarch 0 k) s
  (fun t => t.Waits 0 k x .march ∧ t.mem.march = some (0x10, false) ∧ t.isSet R.MEM_STAT F.MEM_STAT_MARCH_BUSY = true ∧
  t.cells = s.cells)) ∧
  (∀ (s : State) (f : Func) (k : Nat) (x : Flight) (n : Slice), s.canBegin f k 0x0D x = true → x.d.bad = false → x.lost =
  false → x.d.unit = 0 → x.d.slice = n → x.d.op32 0 % 32 = n.val → s.fitted n = true → s.owner n = f.val → s.mem.march ≠
  none → Gives (.descMarch f k) s (fun t => s.Completed t f k x 1 0 ∧ t.mem = s.mem ∧ t.cells = s.cells)) ∧
  (∀ (s : State) (f : Func) (k : Nat) (x : Flight) (n : Slice), s.canBegin f k 0x0D x = true → x.d.bad = false → x.lost =
  false → x.d.unit = 0 → x.d.slice = n → x.d.op32 0 % 32 = n.val → s.fitted n = true → s.owner n = f.val → s.mem.march =
  none → s.slState n ≠ slFenced → (s.slState n ≠ slReady ∨ bit (x.d.p.get 0) 8 = true) → Gives (.descMarch f k) s (fun t =>
  s.Completed t f k x 2 0 ∧ t.mem = s.mem ∧ t.cells = s.cells)) ∧
  (∀ (s : State) (f : Func) (k : Nat) (x : Flight), s.canBegin f k 0x0D x = true → x.d.bad = false → x.d.unit = 0 →
  x.d.slice = 255 → x.d.op32 0 % 32 = 0x10 → f ≠ 0 → Gives (.descMarch f k) s (fun t => s.Completed t f k x 3 0 ∧ t.mem =
  s.mem ∧ t.cells = s.cells)) ∧
  (∀ (s : State) (f : Func) (k : Nat) (x : Flight) (n : Slice), s.canBegin f k 0x0D x = true → x.d.bad = false → x.d.unit =
  0 → x.d.slice = n → x.d.op32 0 % 32 = n.val → s.fitted n = false → Gives (.descMarch f k) s (fun t => s.Completed t f k x
  4 0 ∧ t.mem = s.mem ∧ t.cells = s.cells)) ∧
  (∀ (s : State) (f : Func) (k : Nat) (x : Flight), s.canBegin f k 0x0D x = true → (x.d.bad = true ∨ x.d.unit ≠ 0 ∨
  (x.d.slice ≠ 255 ∧ x.d.slice ≠ x.d.op32 0 % 32)) → Gives (.descMarch f k) s (fun t => s.Completed t f k x 5 0 ∧ t.mem =
  s.mem ∧ t.cells = s.cells)) ∧
  (∀ (s : State) (f : Func) (k : Nat) (x : Flight), s.canBegin f k 0x11 x = true → s.descCheck f x .none false false false
  = none → x.d.unit = 0 → s.waitable f (x.d.op32 0 % 1024) = true → Gives (.eventWait f k) s (fun t => t.Waits f k x
  (.event (x.d.op32 0 % 1024)) ∧ t.cells = s.cells)) ∧
  (∀ (s : State) (f : Func) (k : Nat) (x : Flight), s.canBegin f k 0x11 x = true → (x.d.bad = true ∨ x.d.slice ≠ 255 ∨
  x.d.unit ≠ 0 ∨ s.waitable f (x.d.op32 0 % 1024) = false) → Gives (.eventWait f k) s (fun t => s.Completed t f k x 5 0 ∧
  t.cells = s.cells)) ∧
  (∀ (s : State) (f : Func) (k : Nat) (x : Flight) (src at_ a : Nat) (mt : BitVec 64), s.evr.taps = [(src, at_, mt)] →
  x.since = some a → a ≤ at_ → (s.fnOf f).flights[k]? = some x → ((s.fnOf f).flights.filter (fun y => y.begun && y.await ==
  Await.event src) = [x]) → (∀ n : Slice, s.slState n = slOff) → Gives (.eventTap) s (fun t => s.Completed t f k x 0
  mt.toNat ∧ t.evr.taps = [] ∧ t.cells = s.cells)) ∧
  (∀ (s : State) (f : Func) (k : Nat) (x : Flight) (src a : Nat), (s.fnOf f).flights[k]? = some x → x.await = .event src →
  x.begun = true → x.d.op32 1 ≠ 0 → x.since = some a → a + 1500 * x.d.op32 1 ≤ s.clock → Gives (.eventWaitTimeout f k) s
  (fun t => s.Completed t f k x 1 0 ∧ t.cells = s.cells)) ∧
  (∀ (s : State) (f : Func) (k : Nat) (x : Flight) (a : Nat), (s.fnOf f).flights[k]? = some x → x.since = some a → (x.begun
  = false ∨ x.d.op32 1 = 0 ∨ s.clock < a + 1500 * x.d.op32 1) → Gives (.eventWaitTimeout f k) s (fun t => t = s)) ∧
  (∀ (s : State) (f : Func) (k : Nat) (x : Flight) (sent : Nat) (n i : Slice) (w0 w1 : Word), (s.fnOf f).flights[k]? = some
  x → ((s.fnOf f).flights.findIdx? (fun y => y.pos == x.pos) = some k) → x.begun = true → x.await = .read [] sent → 8 ≤
  sent → x.d.op = 0x10 → x.d.slice = n → x.d.op32 0 = 1 → s.mode = mdHil → w1.toNat / 65536 = i → (s.hilOf n i).feed.length
  < 16 → Gives (.hostReadCompletion f k [w0, w1]) s (fun t => s.Completed t f k x 0 1 ∧ (t.hilOf n i).feed = (s.hilOf n
  i).feed ++ [⟨w1.setWidth 16, w0, s.clock⟩] ∧ t.cells = s.cells)) ∧
  (∀ (s : State) (f : Func) (k : Nat) (x : Flight) (sent : Nat) (n i : Slice) (w0 w1 : Word), (s.fnOf f).flights[k]? = some
  x → ((s.fnOf f).flights.findIdx? (fun y => y.pos == x.pos) = some k) → x.begun = true → x.await = .read [] sent → 8 ≤
  sent → x.d.op = 0x10 → x.d.slice = n → x.d.op32 0 = 1 → s.mode = mdHil → w1.toNat / 65536 = i → 16 ≤ (s.hilOf n
  i).feed.length → Gives (.hostReadCompletion f k [w0, w1]) s (fun t => s.Completed t f k x 0 0 ∧ (t.hilOf n i).feed =
  (s.hilOf n i).feed ∧ t.getF (R.SAR_HIL n i) F.SAR_HIL_FULL = satInc F.SAR_HIL_FULL.top (s.getF (R.SAR_HIL n i)
  F.SAR_HIL_FULL) ∧ t.cells = s.cells)) ∧
  (∀ (s : State) (f : Func) (k : Nat) (x : Flight) (sent : Nat) (n : Slice) (w0 w1 : Word), (s.fnOf f).flights[k]? = some x
  → ((s.fnOf f).flights.findIdx? (fun y => y.pos == x.pos) = some k) → x.begun = true → x.await = .read [] sent → 8 ≤ sent
  → x.d.op = 0x10 → x.d.slice = n → x.d.op32 0 = 1 → (s.mode ≠ mdHil ∨ 12 ≤ w1.toNat / 65536) → Gives (.hostReadCompletion
  f k [w0, w1]) s (fun t => (s.Completed t f k x (if s.mode = mdHil then 5 else 2) 0) ∧ t.hil = s.hil ∧ t.cells = s.cells)) ∧
  (∀ (s : State) (f : Func) (k : Nat) (x : Flight) (sent : Nat) (n : Slice) (ws : List Word) (v : MWord), (s.fnOf
  f).flights[k]? = some x → ((s.fnOf f).flights.findIdx? (fun y => y.pos == x.pos) = some k) → x.begun = true → x.await =
  .read [] sent → 32 ≤ sent → x.d.op = 0x0B → x.d.slice = n → x.d.op32 1 = 1 → x.d.op32 0 < 0x1000 → ws.length = 8 →
  mwordsOf ws = [v] → s.slState n = slFenced → (s.setLdOpen n true).loadCheck n (x.d.op32 0) v = 0 → Gives
  (.hostReadCompletion f k ws) s (fun t => t.Waits f k x (.crc n 0) ∧ t.uword n (x.d.op32 0) = v ∧ t.isSet (R.MCS_CTRL n)
  F.MCS_CTRL_LD_OPEN = false ∧ t.isSet (R.MCS_STAT n) F.MCS_STAT_CRC_BUSY = true)) ∧
  (∀ (s : State) (f : Func) (k : Nat) (x : Flight) (got ws : List Word) (sent : Nat), (s.fnOf f).flights[k]? = some x →
  ((s.fnOf f).flights.findIdx? (fun y => y.pos == x.pos) = some k) → x.begun = true → x.await = .read got sent → ws ≠ [] →
  4 * (got ++ ws).length ≤ sent → 4 * (got ++ ws).length < descBytes x.d → Gives (.hostReadCompletion f k ws) s (fun t =>
  t.Waits f k x (.read (got ++ ws) sent) ∧ t.cells = s.cells ∧ t.outs = s.outs ∧ t.flc = s.flc)) ∧
  (∀ (s : State) (f : Func) (k : Nat) (x : Flight) (ws : List Word), (s.fnOf f).flights[k]? = some x → (s.fnOf f).cause = 0
  → x.awaits ws = false → Gives (.hostReadCompletion f k ws) s (fun t => t = s)) ∧
  (∀ (s : State) (f : Func) (k : Nat) (x : Flight) (ws : List Word), (s.fnOf f).flights[k]? = some x → (s.fnOf f).cause ≠ 0
  → x.await = .nothing → (s.fnOf f).late ≠ 0 → Gives (.hostReadCompletion f k ws) s (fun t => (t.fnOf f).late = (s.fnOf
  f).late - 1 ∧ (t.fnOf f).flights = (s.fnOf f).flights ∧ t.getF (R.RNG_LATE_CPL f) F.RNG_LATE_CPL_COUNT = satInc
  F.RNG_LATE_CPL_COUNT.top (s.getF (R.RNG_LATE_CPL f) F.RNG_LATE_CPL_COUNT) ∧ t.cells = s.cells)) ∧
  (∀ (s : State) (k : Nat) (x : Flight) (ws : List Word), (s.fnOf 0).flights[k]? = some x → x.d.op = 0x0C → x.begun = true
  → x.await = .page ws → s.flashWaits x.d = true → Gives (.flashOp 0 k) s (fun t => t = s)) ∧
  (∀ (s : State) (k : Nat) (x : Flight) (ws : List Word) (arr blk : Nat), (s.fnOf 0).flights[k]? = some x → ((s.fnOf
  0).flights.findIdx? (fun y => y.pos == x.pos) = some k) → x.d.op = 0x0C → x.d.op32 0 % 16 = 2 → x.begun = true → x.await
  = .page ws → arr = F.FLC_BSEL_ARRAY.get (x.d.p.get 1) → blk = F.FLC_BSEL_BLOCK.get (x.d.p.get 1) → s.flc.run = none →
  s.flcBars arr blk (some (selOf (x.d.p.get 1)).page) = 0 → Gives (.flashOp 0 k) s (fun t => t.Waits 0 k x (.flash (blkKey
  arr blk) 1) ∧ (t.flc.run.map (fun r => (r.op, r.arr, r.blk)) = some (.program (selOf (x.d.p.get 1)).page ws, arr, blk)) ∧
  t.cells = s.cells)) ∧
  (∀ (s : State) (f : Func) (k : Nat) (x : Flight) (why : ReqFail), (s.fnOf f).flights[k]? = some x → x.requests (s.maxRead
  f) ≠ 0 → Gives (.completionTimeout f ⟨.data k, why⟩) s (fun t => s.Completed t f k x 6 0 ∧ (t.fnOf f).late = (s.fnOf
  f).late + (x.requests (s.maxRead f) - 1) ∧ t.getF (R.HIF_FN_ERR f) F.HIF_FN_ERR_REQ = satInc F.HIF_FN_ERR_REQ.top (s.getF
  (R.HIF_FN_ERR f) F.HIF_FN_ERR_REQ) ∧ (t.fnOf f).aer = (s.fnOf f).aer ||| BitVec.ofNat 32 (2 ^ aerBit why) ∧ t.cells =
  s.cells)) ∧
  (∀ (s : State) (f : Func) (r : Fin 8) (why : ReqFail), (s.fnOf f).asked.get r = true → s.quiescing f = false → Gives
  (.completionTimeout f ⟨.fetch r, why⟩) s (fun t => (t.fnOf f).asked = (s.fnOf f).asked.set r false ∧ (t.fnOf f).flights =
  (s.fnOf f).flights ∧ t.reg (R.RNG_SQ_HEAD f r) = s.reg (R.RNG_SQ_HEAD f r) ∧ t.getF (R.HIF_FN_ERR f) F.HIF_FN_ERR_REQ =
  satInc F.HIF_FN_ERR_REQ.top (s.getF (R.HIF_FN_ERR f) F.HIF_FN_ERR_REQ) ∧ (t.fnOf f).aer = (s.fnOf f).aer ||| BitVec.ofNat
  32 (2 ^ aerBit why) ∧ t.cells = s.cells)) ∧
  (∀ (s : State) (f : Func) (why : ReqFail), (s.fnOf f).late ≠ 0 → Gives (.completionTimeout f ⟨.late, why⟩) s (fun t =>
  (t.fnOf f).late = (s.fnOf f).late - 1 ∧ (t.fnOf f).flights = (s.fnOf f).flights ∧ t.getF (R.HIF_FN_ERR f)
  F.HIF_FN_ERR_REQ = satInc F.HIF_FN_ERR_REQ.top (s.getF (R.HIF_FN_ERR f) F.HIF_FN_ERR_REQ) ∧ (t.fnOf f).aer = (s.fnOf
  f).aer ||| BitVec.ofNat 32 (2 ^ aerBit why) ∧ (t.getF (R.RNG_LATE_CPL f) F.RNG_LATE_CPL_COUNT = (if why = .timeout then
  s.getF (R.RNG_LATE_CPL f) F.RNG_LATE_CPL_COUNT else satInc F.RNG_LATE_CPL_COUNT.top (s.getF (R.RNG_LATE_CPL f)
  F.RNG_LATE_CPL_COUNT))) ∧ t.cells = s.cells))

/-- The host link, configuration space, and enabling and disabling a function. Follows: R327, R331, R333, R335, R343, R344,
R346, R361, R362, R363, R364, 20_host_link_and_functions.md. Where a clause concludes t = s for an event that cannot
happen, that is the model's choice (log 2). Beside the rules it rests on these choices of the model: logs 32, 85, 86, 165,
167, 169. -/
def Obligations.LinkAndFunctions : Prop :=
  (∀ (s : State) (width : Fin 4) (speed : Fin 5) (w m : Nat), s.isSet R.HIF_LINK F.HIF_LINK_UP = false → s.mode ≠ mdStart →
  s.mode ≠ mdStabled → s.clockOn 3 = true → (w = (if width = 0 then 1 else if width = 1 then 4 else if width = 2 then 8
  else 16)) → (m = (if s.part = .esk7208 then 8 else 16)) → w ≤ m → s.evtDelay 1008 = 0 → s.evtDelay 1010 = 0 → Gives
  (.linkUp width speed) s (fun t => t.isSet R.HIF_LINK F.HIF_LINK_UP = true ∧ t.getF R.HIF_LINK F.HIF_LINK_WIDTH = w ∧
  t.getF R.HIF_LINK F.HIF_LINK_SPEED = speed.val + 1 ∧ (t.isSet R.HIF_LINK F.HIF_LINK_DEGRADED = decide (w < m ∨ speed.val
  < 4)) ∧ t.cells = s.cells ∧ t.core = s.core ∧ (t.evr.taps = s.evr.taps ++ [(1008, s.clock, s.mtime)] ++ (if w < m ∨
  speed.val < 4 then [(1010, s.clock, s.mtime)] else [])))) ∧
  (∀ (s : State) (width : Fin 4) (speed : Fin 5), (s.isSet R.HIF_LINK F.HIF_LINK_UP = true ∨ s.mode = mdStart ∨ s.mode =
  mdStabled ∨ (width = 3 ∧ s.part = .esk7208) ∨ s.clockOn 3 = false) → Gives (.linkUp width speed) s (fun t => t = s)) ∧
  (∀ (s : State) (g : Func), s.isSet R.HIF_LINK F.HIF_LINK_UP = true → ((s.fnEn g = true ∧ s.quiescing g = false) ∨
  (s.quiescing g = true ∧ (s.fnOf g).cause = 0)) → s.fnEn g = true → Gives (.linkDown) s (fun t => t.reg R.HIF_LINK = 0 ∧
  (t.fnOf g).cause = 6 ∧ t.quiescing g = true ∧ t.enPending g = false ∧ t.cells = s.cells)) ∧
  (∀ (s : State) (g : Func), s.isSet R.HIF_LINK F.HIF_LINK_UP = true → s.fnEn g = false → s.quiescing g = false → Gives
  (.linkDown) s (fun t => t.reg R.HIF_LINK = 0 ∧ t.fnEn g = false ∧ t.quiescing g = false ∧ t.enPending g = false ∧ t.reg
  (R.ABT_STAT g) = s.reg (R.ABT_STAT g) ∧ t.cells = s.cells)) ∧
  (∀ (s : State), s.isSet R.HIF_LINK F.HIF_LINK_UP = false → Gives (.linkDown) s (fun t => t = s)) ∧
  (∀ (s : State) (g : Func), ((s.fnEn g = true ∧ s.quiescing g = false) ∨ (s.quiescing g = true ∧ (s.fnOf g).cause = 0)) →
  s.cfgUp g = true → Gives (.functionLevelReset g) s (fun t => (t.fnOf g).cause = 2 ∧ t.quiescing g = true ∧ t.cells =
  s.cells ∧ (t.fnOf g).bme = false ∧ (t.fnOf g).msixEn = false ∧ (t.fnOf g).d3hot = false)) ∧
  (∀ (s : State) (g : Func), s.cfgUp g = true → g.val ≠ 0 → s.quiescing g = true → (s.fnOf g).cause ≠ 0 → Gives
  (.functionLevelReset g) s (fun t => (t.fnOf g).cause = (s.fnOf g).cause ∧ (t.fnOf g).flights = (s.fnOf g).flights ∧
  t.quiescing g = true ∧ (t.fnOf g).bme = false ∧ t.cells = s.cells)) ∧
  (∀ (s : State) (g : Func), s.cfgUp g = true → s.fnEn g = false → s.quiescing g = false → Gives (.functionLevelReset g) s
  (fun t => t.isSet (R.ABT_STAT g) F.ABT_STAT_DONE = true ∧ t.getF (R.ABT_STAT g) F.ABT_STAT_CAUSE = 2 ∧ t.reg (R.ABT_COUNT
  g) = 0 ∧ t.fnEn g = false ∧ t.quiescing g = false ∧ t.getF (R.HIF_FN_STAT g) F.HIF_FN_STAT_EPOCH = (s.getF (R.HIF_FN_STAT
  g) F.HIF_FN_STAT_EPOCH + 1) % 2 ^ F.HIF_FN_STAT_EPOCH.width ∧ t.cells = s.cells ∧ (t.fnOf g).bme = false ∧ (t.fnOf
  g).msixEn = false)) ∧
  (∀ (s : State) (g : Func), ((s.fnEn g = true ∧ s.quiescing g = false) ∨ (s.quiescing g = true ∧ (s.fnOf g).cause = 0)) →
  s.cfgUp g = true → (s.fnOf g).bme = true → Gives (.busMasterEnableClear g) s (fun t => (t.fnOf g).cause = 3 ∧ t.quiescing
  g = true ∧ t.cells = s.cells ∧ (t.fnOf g).bme = false)) ∧
  (∀ (s : State) (g : Func), s.cfgUp g = true → (s.fnOf g).bme = true → s.quiescing g = true → (s.fnOf g).cause ≠ 0 → Gives
  (.busMasterEnableClear g) s (fun t => (t.fnOf g).cause = (s.fnOf g).cause ∧ (t.fnOf g).flights = (s.fnOf g).flights ∧
  (t.fnOf g).bme = false ∧ t.cells = s.cells)) ∧
  (∀ (s : State) (g : Func), s.cfgUp g = true → (s.fnOf g).bme = true → s.fnEn g = false → s.quiescing g = false → Gives
  (.busMasterEnableClear g) s (fun t => t.isSet (R.ABT_STAT g) F.ABT_STAT_DONE = true ∧ t.getF (R.ABT_STAT g)
  F.ABT_STAT_CAUSE = 3 ∧ t.reg (R.ABT_COUNT g) = 0 ∧ t.fnEn g = false ∧ t.quiescing g = false ∧ t.getF (R.HIF_FN_STAT g)
  F.HIF_FN_STAT_EPOCH = (s.getF (R.HIF_FN_STAT g) F.HIF_FN_STAT_EPOCH + 1) % 2 ^ F.HIF_FN_STAT_EPOCH.width ∧ t.cells =
  s.cells ∧ (t.fnOf g).bme = false)) ∧
  (∀ (s : State) (g : Func), (s.cfgUp g = false ∨ (s.fnOf g).bme = false) → Gives (.busMasterEnableClear g) s (fun t => t =
  s)) ∧
  (∀ (s : State) (g : Func), ((s.fnEn g = true ∧ s.quiescing g = false) ∨ (s.quiescing g = true ∧ (s.fnOf g).cause = 0)) →
  s.cfgUp g = true → (s.fnOf g).d3hot = false → Gives (.d3hotEntry g) s (fun t => (t.fnOf g).cause = 4 ∧ t.quiescing g =
  true ∧ t.cells = s.cells ∧ (t.fnOf g).d3hot = true)) ∧
  (∀ (s : State) (g : Func), s.cfgUp g = true → (s.fnOf g).d3hot = false → s.quiescing g = true → (s.fnOf g).cause ≠ 0 →
  Gives (.d3hotEntry g) s (fun t => (t.fnOf g).cause = (s.fnOf g).cause ∧ (t.fnOf g).flights = (s.fnOf g).flights ∧ (t.fnOf
  g).d3hot = true ∧ t.cells = s.cells)) ∧
  (∀ (s : State) (g : Func), s.cfgUp g = true → (s.fnOf g).d3hot = false → s.fnEn g = false → s.quiescing g = false → Gives
  (.d3hotEntry g) s (fun t => t.isSet (R.ABT_STAT g) F.ABT_STAT_DONE = true ∧ t.getF (R.ABT_STAT g) F.ABT_STAT_CAUSE = 4 ∧
  t.reg (R.ABT_COUNT g) = 0 ∧ t.fnEn g = false ∧ t.quiescing g = false ∧ t.getF (R.HIF_FN_STAT g) F.HIF_FN_STAT_EPOCH =
  (s.getF (R.HIF_FN_STAT g) F.HIF_FN_STAT_EPOCH + 1) % 2 ^ F.HIF_FN_STAT_EPOCH.width ∧ t.cells = s.cells ∧ (t.fnOf g).d3hot
  = true)) ∧
  (∀ (s : State) (g : Func), (s.cfgUp g = false ∨ (s.fnOf g).d3hot = true) → Gives (.d3hotEntry g) s (fun t => t = s)) ∧
  (∀ (s : State) (en : Bool) (g num : Func), ((s.fnEn g = true ∧ s.quiescing g = false) ∨ (s.quiescing g = true ∧ (s.fnOf
  g).cause = 0)) → s.isSet R.HIF_LINK F.HIF_LINK_UP = true → g.val ≠ 0 → s.vfExists g = true → (en = false ∨ num.val <
  g.val) → Gives (.vfEnableClear en num) s (fun t => (t.fnOf g).cause = 5 ∧ t.quiescing g = true ∧ t.cells = s.cells ∧
  t.vfEnable = en ∧ t.numVfs = num.val ∧ (t.fnOf g).bme = false)) ∧
  (∀ (s : State) (en : Bool) (g num : Func), s.isSet R.HIF_LINK F.HIF_LINK_UP = true → g.val ≠ 0 → s.vfExists g = true →
  (en = false ∨ num.val < g.val) → s.fnEn g = false → s.quiescing g = false → Gives (.vfEnableClear en num) s (fun t =>
  t.isSet (R.ABT_STAT g) F.ABT_STAT_DONE = true ∧ t.getF (R.ABT_STAT g) F.ABT_STAT_CAUSE = 5 ∧ t.reg (R.ABT_COUNT g) = 0 ∧
  t.fnEn g = false ∧ t.quiescing g = false ∧ t.getF (R.HIF_FN_STAT g) F.HIF_FN_STAT_EPOCH = (s.getF (R.HIF_FN_STAT g)
  F.HIF_FN_STAT_EPOCH + 1) % 2 ^ F.HIF_FN_STAT_EPOCH.width ∧ t.cells = s.cells ∧ t.vfEnable = en ∧ t.numVfs = num.val)) ∧
  (∀ (s : State) (en : Bool) (g num : Func), s.isSet R.HIF_LINK F.HIF_LINK_UP = true → (g.val = 0 ∨ s.vfExists g = false ∨
  (en = true ∧ g.val ≤ num.val)) → Gives (.vfEnableClear en num) s (fun t => (t.fnOf g).cause = (s.fnOf g).cause ∧ t.reg
  (R.ABT_STAT g) = s.reg (R.ABT_STAT g) ∧ t.vfEnable = en ∧ t.numVfs = num.val ∧ t.cells = s.cells)) ∧
  (∀ (s : State) (f : Func), s.isSet R.HIF_LINK F.HIF_LINK_UP = true → s.fnExists f = true → (∀ r : Fin 1088, (s.route
  r).st ≠ .pending) → Gives (.configurationRequest f .busMaster) s (fun t => (t.fnOf f).bme = true ∧ t.cells = s.cells)) ∧
  (∀ (s : State) (num : Func), s.isSet R.HIF_LINK F.HIF_LINK_UP = true → s.vfEnable = false → Gives (.configurationRequest
  0 (.vfs num)) s (fun t => t.vfEnable = true ∧ t.numVfs = num.val ∧ t.cells = s.cells)) ∧
  (∀ (s : State) (f : Func) (en mask : Bool), s.isSet R.HIF_LINK F.HIF_LINK_UP = true → s.fnExists f = true → (s.fnOf
  f).vpend = [] → (∀ r : Fin 1088, (s.route r).st ≠ .pending) → Gives (.configurationRequest f (.msix en mask)) s (fun t =>
  (t.fnOf f).msixEn = en ∧ (t.fnOf f).fmask = mask ∧ t.outs = s.outs ∧ t.cells = s.cells)) ∧
  (∀ (s : State) (f : Func) (v : Fin 128), s.fnReach f = true → s.fnExists f = true → (s.fnOf f).vpend = [v.val] → (s.fnOf
  f).vopen.contains v.val = true → (∀ r : Fin 1088, (s.route r).st ≠ .pending) → Gives (.configurationRequest f (.msix true
  false)) s (fun t => (t.fnOf f).msixEn = true ∧ (t.fnOf f).vpend = [] ∧ t.outs = s.outs ++ [.msix (128 * f.val + v.val)] ∧
  t.cells = s.cells)) ∧
  (∀ (s : State) (f : Func), s.isSet R.HIF_LINK F.HIF_LINK_UP = true → s.fnExists f = true → Gives (.configurationRequest f
  .d0) s (fun t => (t.fnOf f).d3hot = false ∧ t.cells = s.cells ∧ t.outs = s.outs)) ∧
  (∀ (s : State) (f : Func) (k : Fin 6) (v : Word), s.isSet R.HIF_LINK F.HIF_LINK_UP = true → s.fnExists f = true → Gives
  (.configurationRequest f (.bar k v)) s (fun t => t.cfgView f (.bar k) = (v &&& barMask k) ||| barType k ∧ t =
  { s with regs := t.regs, fns := t.fns })) ∧
  (∀ (s : State) (f : Func) (mps mrrs : Fin 6) (tag : Bool), s.isSet R.HIF_LINK F.HIF_LINK_UP = true → s.fnExists f = true
  → Gives (.configurationRequest f (.devCtl mps mrrs tag)) s (fun t => t.cfgView f .maxPayload = BitVec.ofNat 32 mps.val ∧
  t.cfgView f .maxReadRequest = BitVec.ofNat 32 mrrs.val ∧ (t.cfgView f .tag10Enable = (if tag then 1 else 0)) ∧ t =
  { s with regs := t.regs, fns := t.fns })) ∧
  (∀ (s : State) (f : Func) (v : Word), s.isSet R.HIF_LINK F.HIF_LINK_UP = true → s.fnExists f = true → Gives
  (.configurationRequest f (.aerClear v)) s (fun t => t.cfgView f .aerStatus = s.cfgView f .aerStatus &&& ~~~ v ∧ t =
  { s with regs := t.regs, fns := t.fns })) ∧
  (∀ (s : State) (f : Func), s.isSet R.HIF_LINK F.HIF_LINK_UP = true → s.fnExists f = true → Gives (.configurationRequest f
  (.read .deviceId)) s (fun t => (t.busOut = if f.val = 0 then BitVec.ofNat 32 s.part.code else 0x72F0) ∧ t =
  { s with busOut := t.busOut })) ∧
  (∀ (s : State) (f : Func), s.isSet R.HIF_LINK F.HIF_LINK_UP = true → s.fnExists f = true → Gives (.configurationRequest f
  (.read .vendorId)) s (fun t => t.busOut = 0x1F7A ∧ t = { s with busOut := t.busOut })) ∧
  (∀ (s : State) (f : Func) (c : CfgSet), s.cfgUp f = false → Gives (.configurationRequest f c) s (fun t => t = s)) ∧
  (∀ (s : State) (x : Access) (f : Func) (tw : Bool), s.reaches x (R.RNG_CTRL f) = true → s.enableOk f = true → s.quiescing
  f = false → s.fnEn f = false → Gives (.functionEnable x f tw) s (fun t => t.fnEn f = true ∧ t.isSet (R.RNG_CTRL f)
  F.RNG_CTRL_EN = true ∧ t.getF (R.RNG_CTRL f) F.RNG_CTRL_EN_STATUS = 0 ∧ (t.fnOf f).flights = [] ∧ (t.fnOf f).done = [] ∧
  (t.fnOf f).stopped = false ∧ (∀ r : Fin 8, s.sqOn f r = true → t.reg (R.RNG_SQ_HEAD f r) = 0) ∧ (∀ q : Fin 8, t.getF
  (R.RNG_CQ_TAIL f q) F.RNG_CQ_TAIL_PHASE = 1) ∧ t.cells = s.cells)) ∧
  (∀ (s : State) (x : Access) (f : Func) (tw : Bool), s.reaches x (R.RNG_CTRL f) = true → s.enableOk f = true → s.quiescing
  f = true → Gives (.functionEnable x f tw) s (fun t => t.enPending f = true ∧ t.getF (R.RNG_CTRL f) F.RNG_CTRL_EN_STATUS =
  0 ∧ t.fnEn f = s.fnEn f ∧ t = { s with regs := t.regs })) ∧
  (∀ (s : State) (x : Access) (f : Func) (tw : Bool), s.reaches x (R.RNG_CTRL f) = true → s.enableOk f = false → Gives
  (.functionEnable x f tw) s (fun t => t.getF (R.RNG_CTRL f) F.RNG_CTRL_EN_STATUS = 2 ∧ t.fnEn f = s.fnEn f ∧ t =
  { s with regs := t.regs })) ∧
  (∀ (s : State) (x : Access) (f : Func) (tw : Bool), s.reaches x (R.RNG_CTRL f) = true → s.fnEn f = true → s.quiescing f =
  false → (s.fnOf f).inflight ≠ 0 → Gives (.functionDisable x f tw) s (fun t => t.quiescing f = true ∧ t.fnEn f = true ∧
  (t.fnOf f).disAt = s.clock ∧ t = { s with regs := t.regs, fns := t.fns })) ∧
  (∀ (s : State) (x : Access) (f : Func) (tw : Bool) (n : Slice), s.reaches x (R.RNG_CTRL f) = true → s.fnEn f = true →
  s.quiescing f = false → (s.fnOf f).inflight = 0 → (s.fnOf f).cause = 0 → s.fitted n = true → s.owner n = f.val →
  (s.slState n = slFenced ∨ (s.slState n = slOff ∧ (s.ctlOf n).fencing = false)) → Gives (.functionDisable x f tw) s (fun t
  => t.quiescing f = true ∧ t.owner n = 0x1F ∧ t.cells = s.cells)) ∧
  (∀ (s : State) (x : Access) (f : Func) (n : Slice), s.reaches x (R.RNG_CTRL f) = true → s.fnEn f = true → s.quiescing f =
  false → (s.fnOf f).inflight = 0 → (s.fnOf f).cause = 0 → s.fitted n = true → s.owner n = f.val → (s.slState n = slRunning
  ∨ s.slState n = slReady) → s.fencePending n = false → Gives (.functionDisable x f false) s (fun t => t.quiescing f = true
  ∧ t.owner n = f.val ∧ (t.ctlOf n).fencing = true ∧ (t.ctlOf n).fenceCause = 8 ∧ t.armed n = false ∧ (t.fnOf
  f).abtFenced.getLsbD n = true ∧ t.cells = s.cells)) ∧
  (∀ (s : State) (x : Access) (f : Func) (tw : Bool), s.reaches x (R.RNG_CTRL f) = true → (s.fnEn f = false ∨ s.quiescing f
  = true) → Gives (.functionDisable x f tw) s (fun t => t.quiescing f = s.quiescing f ∧ t.isSet (R.RNG_CTRL f)
  F.RNG_CTRL_ABT_TWIN = tw ∧ t = { s with regs := t.regs })) ∧
  (∀ (s : State) (g : Func), s.quiescing g = true → (s.fnOf g).cause = 0 → ((s.fnOf g).flights ≠ [] ∨ (s.fnOf g).done ≠ [])
  → (s.fnOf g).disAt + 1500000 ≤ s.clock → Gives (.disableTimeout g) s (fun t => (t.fnOf g).cause = 7 ∧ t.quiescing g =
  true ∧ t.cells = s.cells)) ∧
  (∀ (s : State) (g : Func), (s.quiescing g = false ∨ (s.fnOf g).cause ≠ 0 ∨ ((s.fnOf g).flights = [] ∧ (s.fnOf g).done =
  []) ∨ s.clock < (s.fnOf g).disAt + 1500000) → Gives (.disableTimeout g) s (fun t => t = s))

/-- Doorbells, fetch, completions, abort and writes through the memory apertures. Follows: R288, R340, R341, R347, R348,
R349, R350, R352, R361, R363, R365, 21_rings_doorbells_and_abort.md. Where a clause concludes t = s for an event that
cannot happen, that is the model's choice (log 2). Beside the rules it rests on these choices of the model: logs 33, 83,
84, 146, 202, 203. -/
def Obligations.RingsAndDoorbells : Prop :=
  (∀ (s : State) (b g : Func) (r : Fin 8) (v : Word), s.ptbActs 12 = false → s.busUp (.fn b) = true → s.isSet
  R.DEV_BOOT_STAT F.DEV_BOOT_STAT_DONE = true → s.fnExists b = true → s.fnExists g = true → (b = g ∨ b = 0) → s.fnEn g =
  true → s.enPending g = false → s.sqOn g r = true → v.toNat < s.sqDepth g r → Gives (.sqTail b g r v) s (fun t => t.getF
  (R.RNG_SQ_HEAD g r) F.RNG_SQ_HEAD_TAIL = v.toNat % 2 ^ F.RNG_SQ_HEAD_TAIL.width ∧ t = { s with regs := t.regs })) ∧
  (∀ (s : State) (b g : Func) (r : Fin 8) (v : Word), s.ptbActs 12 = false → s.busUp (.fn b) = true → s.isSet
  R.DEV_BOOT_STAT F.DEV_BOOT_STAT_DONE = true → s.fnExists b = true → s.fnExists g = true → (b = g ∨ b = 0) → (s.fnOf
  b).stopped = false → s.fnEn g = true → s.enPending g = false → s.sqOn g r = true → s.sqDepth g r ≤ v.toNat → Gives
  (.sqTail b g r v) s (fun t => t.getF (R.RNG_SQ_HEAD g r) F.RNG_SQ_HEAD_TAIL = s.getF (R.RNG_SQ_HEAD g r)
  F.RNG_SQ_HEAD_TAIL ∧ t.isSet (R.RNG_STAT g) F.RNG_STAT_BADVAL_F = true ∧ t.getF (R.RNG_DB_DROPPED g)
  F.RNG_DB_DROPPED_COUNT = satInc F.RNG_DB_DROPPED_COUNT.top (s.getF (R.RNG_DB_DROPPED g) F.RNG_DB_DROPPED_COUNT) ∧ t =
  { s with regs := t.regs })) ∧
  (∀ (s : State) (b g : Func) (r : Fin 8) (v : Word), s.ptbActs 12 = false → s.busUp (.fn b) = true → s.isSet
  R.DEV_BOOT_STAT F.DEV_BOOT_STAT_DONE = true → s.fnExists b = true → s.fnExists g = true → (b = g ∨ b = 0) → s.fnEn g =
  false → Gives (.sqTail b g r v) s (fun t => t.getF (R.RNG_SQ_HEAD g r) F.RNG_SQ_HEAD_TAIL = s.getF (R.RNG_SQ_HEAD g r)
  F.RNG_SQ_HEAD_TAIL ∧ t.getF (R.RNG_DB_DROPPED g) F.RNG_DB_DROPPED_COUNT = satInc F.RNG_DB_DROPPED_COUNT.top (s.getF
  (R.RNG_DB_DROPPED g) F.RNG_DB_DROPPED_COUNT) ∧ t = { s with regs := t.regs })) ∧
  (∀ (s : State) (b g : Func) (r : Fin 8) (v : Word), s.ptbActs 12 = false → s.busUp (.fn b) = true → s.isSet
  R.DEV_BOOT_STAT F.DEV_BOOT_STAT_DONE = true → s.fnExists b = true → s.fnExists g = true → b ≠ g → b ≠ 0 → (s.fnOf
  b).stopped = false → Gives (.sqTail b g r v) s (fun t => t.getF (R.RNG_SQ_HEAD g r) F.RNG_SQ_HEAD_TAIL = s.getF
  (R.RNG_SQ_HEAD g r) F.RNG_SQ_HEAD_TAIL ∧ t.reg (R.RNG_DB_DROPPED g) = s.reg (R.RNG_DB_DROPPED g) ∧ t.getF R.HIF_BADACC
  F.HIF_BADACC_COUNT = satInc F.HIF_BADACC_COUNT.top (s.getF R.HIF_BADACC F.HIF_BADACC_COUNT) ∧ t.getF (R.HIF_FN_ERR b)
  F.HIF_FN_ERR_BADACC = satInc F.HIF_FN_ERR_BADACC.top (s.getF (R.HIF_FN_ERR b) F.HIF_FN_ERR_BADACC) ∧ t.fns = s.fns ∧
  t.cells = s.cells)) ∧
  (∀ (s : State) (b g : Func) (q : Fin 8) (v : Word) (d h : Nat), s.ptbActs 12 = false → s.busUp (.fn b) = true → s.isSet
  R.DEV_BOOT_STAT F.DEV_BOOT_STAT_DONE = true → s.fnExists b = true → s.fnExists g = true → (b = g ∨ b = 0) → s.fnEn g =
  true → s.enPending g = false → s.cqOn g q = true → d = s.cqDepth g q → v.toNat < d → h = s.getF (R.RNG_CQ_TAIL g q)
  F.RNG_CQ_TAIL_HEAD → Gives (.cqHead b g q v) s (fun t => t.getF (R.RNG_CQ_TAIL g q) F.RNG_CQ_TAIL_HEAD = v.toNat % 2 ^
  F.RNG_CQ_TAIL_HEAD.width ∧ (t.fnOf g).cqHeld.get q = (s.fnOf g).cqHeld.get q - (v.toNat + d - h) % d ∧ t.cells =
  s.cells)) ∧
  (∀ (s : State) (b g : Func) (v : Word), s.ptbActs 12 = false → s.busUp (.fn b) = true → s.isSet R.DEV_BOOT_STAT
  F.DEV_BOOT_STAT_DONE = true → s.fnExists b = true → s.fnExists g = true → (b = g ∨ b = 0) → s.fnEn g = true → s.enPending
  g = false → s.isSet (R.RNG_EDGE_CFG g) F.RNG_EDGE_CFG_EN = true → v.toNat < 2 ^ s.getF (R.RNG_EDGE_CFG g)
  F.RNG_EDGE_CFG_LOG2LEN → Gives (.edgeRidx b g v) s (fun t => t.edgeRidx.get g = v.toNat ∧ t =
  { s with edgeRidx := t.edgeRidx })) ∧
  (∀ (s : State) (b g : Func) (v : Word), s.ptbActs 12 = false → s.busUp (.fn b) = true → s.isSet R.DEV_BOOT_STAT
  F.DEV_BOOT_STAT_DONE = true → s.fnExists b = true → s.fnExists g = true → (b = g ∨ b = 0) → s.fnEn g = true → s.enPending
  g = false → s.quiescing g = false → v.toNat / 65536 = 0xAB07 → Gives (.abort b g v) s (fun t => (t.fnOf g).cause = 1 ∧
  t.quiescing g = true ∧ (t.fnOf g).late = s.reads g ∧ (t.fnOf g).cut = (s.fnOf g).fetches ∧ (t.fnOf g).asked =
  Vector.replicate 8 false ∧ t.cells = s.cells)) ∧
  (∀ (s : State) (b g : Func) (v : Word), s.ptbActs 12 = false → s.busUp (.fn b) = true → s.isSet R.DEV_BOOT_STAT
  F.DEV_BOOT_STAT_DONE = true → s.fnExists b = true → s.fnExists g = true → (b = g ∨ b = 0) → s.fnEn g = true → v.toNat /
  65536 ≠ 0xAB07 → Gives (.abort b g v) s (fun t => t.getF (R.RNG_DB_DROPPED g) F.RNG_DB_DROPPED_COUNT = satInc
  F.RNG_DB_DROPPED_COUNT.top (s.getF (R.RNG_DB_DROPPED g) F.RNG_DB_DROPPED_COUNT) ∧ t = { s with regs := t.regs })) ∧
  (∀ (s : State) (g : Func), s.quiescing g = true → s.ownedBy g = 0 → (s.fnOf g).cause ≠ 0 → (s.fnOf g).cause < 8 → (s.fnOf
  g).cause ≠ 2 → (s.fnOf g).flights = [] → (s.fnOf g).done = [] → s.enPending g = false → Gives (.abortComplete g) s (fun t
  => t.fnEn g = false ∧ t.quiescing g = false ∧ (t.fnOf g).cause = 0 ∧ t.isSet (R.ABT_STAT g) F.ABT_STAT_DONE = true ∧
  t.getF (R.ABT_STAT g) F.ABT_STAT_CAUSE = (s.fnOf g).cause ∧ t.reg (R.ABT_COUNT g) = BitVec.ofNat 32 (s.fnOf g).cut ∧
  t.reg (R.ABT_UNREP g) = BitVec.ofNat 32 (s.fnOf g).cut ∧ t.getF (R.HIF_FN_STAT g) F.HIF_FN_STAT_EPOCH = (s.getF
  (R.HIF_FN_STAT g) F.HIF_FN_STAT_EPOCH + 1) % 2 ^ F.HIF_FN_STAT_EPOCH.width ∧ t.cells = s.cells)) ∧
  (∀ (s : State) (g : Func) (x : Flight), s.quiescing g = true → s.ownedBy g = 0 → (s.fnOf g).cause ≠ 0 → (s.fnOf g).cause
  ≠ 2 → (s.fnOf g).flights = [x] → (s.fnOf g).done = [] → s.enPending g = false → s.cqTakes g (s.cqOf g x.sq) = false →
  Gives (.abortComplete g) s (fun t => t.fnEn g = false ∧ t.reg (R.ABT_COUNT g) = BitVec.ofNat 32 (1 + (s.fnOf g).cut) ∧
  t.reg (R.ABT_UNREP g) = BitVec.ofNat 32 ((s.fnOf g).cut + 1) ∧ t.isSet (R.ABT_STAT g) F.ABT_STAT_CQ_UNREACH = true ∧
  (t.fnOf g).flights = [])) ∧
  (∀ (s : State) (g : Func), (s.fnOf g).late ≠ 0 → Gives (.lateCompletion g) s (fun t => (t.fnOf g).late = (s.fnOf g).late
  - 1 ∧ t.getF (R.RNG_LATE_CPL g) F.RNG_LATE_CPL_COUNT = satInc F.RNG_LATE_CPL_COUNT.top (s.getF (R.RNG_LATE_CPL g)
  F.RNG_LATE_CPL_COUNT) ∧ t.cells = s.cells)) ∧
  (∀ (s : State) (g : Func) (r : Fin 8) (w : Vector Word 16) (h : Nat), (s.fnOf g).asked.get r = true → h = s.getF
  (R.RNG_SQ_HEAD g r) F.RNG_SQ_HEAD_HEAD → (descOf w).op < 0x12 → (∀ y ∈ (s.fnOf g).flights, y.d.op < 0x12) → Gives
  (.descriptorFetch g r w) s (fun t => t.getF (R.RNG_SQ_HEAD g r) F.RNG_SQ_HEAD_HEAD = (h + 1) % s.sqDepth g r % 2 ^
  F.RNG_SQ_HEAD_HEAD.width ∧ (t.fnOf g).flights = (s.fnOf g).flights ++ [newFlight (s.fnOf g).fetched r (descOf w)] ∧
  (t.fnOf g).asked = (s.fnOf g).asked.set r false ∧ (t.fnOf g).done = (s.fnOf g).done ∧ t.outs = s.outs ∧ t.cells =
  s.cells)) ∧
  (∀ (s : State) (g : Func) (r : Fin 8) (w : Vector Word 16), (s.fnOf g).asked.get r = false → Gives (.descriptorFetch g r
  w) s (fun t => t = s)) ∧
  (∀ (s : State) (g : Func) (r : Fin 8), s.fetchTurn = some (g, r) → s.canFetch g r = true ∧ s.fetchIssue.outs = s.outs ++
  [.hostRead g (s.addr64 (R.RNG_SQ_LO g r) (R.RNG_SQ_HI g r) + 64 * s.getF (R.RNG_SQ_HEAD g r) F.RNG_SQ_HEAD_HEAD) 64] ∧
  (s.fetchIssue.fnOf g).asked = (s.fnOf g).asked.set r true ∧ (s.fetchIssue.fnOf g).flights = (s.fnOf g).flights ∧
  s.fetchIssue.fetchNext = (g.val + 1) % 16 ∧ s.fetchIssue.cells = s.cells) ∧
  (∀ (s : State) (g : Func) (q : Fin 8) (c : Compl) (l : List Compl) (n ph : Nat), (s.fnOf g).done = c :: l → s.cqOf g c.sq
  = q → s.cqTakes g q = true → (s.fnOf g).cause = 0 → s.quiescing g = false → (s.fnOf g).flights = [] → n = s.getF
  (R.RNG_CQ_TAIL g q) F.RNG_CQ_TAIL_TAIL → ph = s.getF (R.RNG_CQ_TAIL g q) F.RNG_CQ_TAIL_PHASE → n + 1 < s.cqDepth g q →
  c.sq < 8 → c.ptb = false → ((if c.slice < 12 then s.ptbFlag c.slice else s.ptbActive 12) = false) → (c.notify = false ∨
  s.isSet (R.RNG_CQ_CFG g q) F.RNG_CQ_CFG_IRQ_EN = false) → Gives (.completionWrite g q) s (fun t => t.outs = s.outs ++
  [.hostWrite g (s.addr64 (R.RNG_CQ_LO g q) (R.RNG_CQ_HI g q) + 16 * n) [BitVec.ofNat 32 (c.tag + 65536 * c.status + 2 ^ 24
  * ph), BitVec.ofNat 32 (c.sq + 65536 * s.getF (R.RNG_SQ_HEAD g c.sq) F.RNG_SQ_HEAD_HEAD), c.result.setWidth 32, (c.result
  >>> 32).setWidth 32]] ∧ (t.fnOf g).done = l ∧ (t.fnOf g).cqHeld.get q = (s.fnOf g).cqHeld.get q + 1 ∧ t.getF
  (R.RNG_CQ_TAIL g q) F.RNG_CQ_TAIL_TAIL = (n + 1) % 2 ^ F.RNG_CQ_TAIL_TAIL.width ∧ t.getF (R.RNG_CQ_TAIL g q)
  F.RNG_CQ_TAIL_PHASE = ph ∧ t.cells = s.cells)) ∧
  (∀ (s : State) (g : Func) (q : Fin 8) (c : Compl) (l : List Compl) (n ph : Nat), (s.fnOf g).done = c :: l → s.cqOf g c.sq
  = q → s.cqTakes g q = true → (s.fnOf g).cause = 0 → s.quiescing g = false → (s.fnOf g).flights = [] → n = s.getF
  (R.RNG_CQ_TAIL g q) F.RNG_CQ_TAIL_TAIL → ph = s.getF (R.RNG_CQ_TAIL g q) F.RNG_CQ_TAIL_PHASE → n + 1 = s.cqDepth g q →
  c.sq < 8 → c.ptb = false → ((if c.slice < 12 then s.ptbFlag c.slice else s.ptbActive 12) = false) → (c.notify = false ∨
  s.isSet (R.RNG_CQ_CFG g q) F.RNG_CQ_CFG_IRQ_EN = false) → Gives (.completionWrite g q) s (fun t => t.outs = s.outs ++
  [.hostWrite g (s.addr64 (R.RNG_CQ_LO g q) (R.RNG_CQ_HI g q) + 16 * n) [BitVec.ofNat 32 (c.tag + 65536 * c.status + 2 ^ 24
  * ph), BitVec.ofNat 32 (c.sq + 65536 * s.getF (R.RNG_SQ_HEAD g c.sq) F.RNG_SQ_HEAD_HEAD), c.result.setWidth 32, (c.result
  >>> 32).setWidth 32]] ∧ (t.fnOf g).done = l ∧ (t.fnOf g).cqHeld.get q = (s.fnOf g).cqHeld.get q + 1 ∧ t.getF
  (R.RNG_CQ_TAIL g q) F.RNG_CQ_TAIL_TAIL = 0 ∧ t.getF (R.RNG_CQ_TAIL g q) F.RNG_CQ_TAIL_PHASE = 1 - ph ∧ t.cells =
  s.cells)) ∧
  (∀ (s : State) (g : Func) (q : Fin 8) (c : Compl) (l : List Compl) (n ph : Nat) (v : Nat), (s.fnOf g).done = c :: l →
  s.cqOf g c.sq = q → s.cqTakes g q = true → (s.fnOf g).cause = 0 → s.quiescing g = false → (s.fnOf g).flights = [] → n =
  s.getF (R.RNG_CQ_TAIL g q) F.RNG_CQ_TAIL_TAIL → ph = s.getF (R.RNG_CQ_TAIL g q) F.RNG_CQ_TAIL_PHASE → n + 1 < s.cqDepth g
  q → c.sq < 8 → c.ptb = false → ((if c.slice < 12 then s.ptbFlag c.slice else s.ptbActive 12) = false) → c.notify = true →
  s.isSet (R.RNG_CQ_CFG g q) F.RNG_CQ_CFG_IRQ_EN = true → v = s.getF (R.RNG_CQ_CFG g q) F.RNG_CQ_CFG_VECTOR → (s.fnOf
  g).msixEn = true → (s.fnOf g).fmask = false → (s.fnOf g).vopen.contains v = true → Gives (.completionWrite g q) s (fun t
  => t.outs = s.outs ++ [.hostWrite g (s.addr64 (R.RNG_CQ_LO g q) (R.RNG_CQ_HI g q) + 16 * n) [BitVec.ofNat 32 (c.tag +
  65536 * c.status + 2 ^ 24 * ph), BitVec.ofNat 32 (c.sq + 65536 * s.getF (R.RNG_SQ_HEAD g c.sq) F.RNG_SQ_HEAD_HEAD),
  c.result.setWidth 32, (c.result >>> 32).setWidth 32], .msix (128 * g.val + v)] ∧ (t.fnOf g).done = l ∧ (t.fnOf
  g).cqHeld.get q = (s.fnOf g).cqHeld.get q + 1 ∧ t.getF (R.RNG_CQ_TAIL g q) F.RNG_CQ_TAIL_TAIL = (n + 1) % 2 ^
  F.RNG_CQ_TAIL_TAIL.width ∧ t.getF (R.RNG_CQ_TAIL g q) F.RNG_CQ_TAIL_PHASE = ph ∧ t.cells = s.cells)) ∧
  (∀ (s : State) (f : Func) (w : HostWindow) (off : BitVec 28) (v : Word) (a : Nat), a = windowAddr w off → s.busUp (.fn f)
  = true → s.early (.fn f) a true = false → ((s.fnOf f).stopped = false ∨ inMain a = true) → s.memStalls a = false →
  s.hostReaches f a = true → s.absentSlice a = false → s.absentMain a = false → (inMain a = true → s.pageSet a = true) →
  s.mark a = none → (s.cell a).tag ≠ tagCap → (s.cell a).tag ≠ tagEmpty → Gives (.apertureWrite f w off 15 v) s (fun t =>
  t.cell a = stored a ⟨v, (s.cell a).tag⟩ ∧ s.CellsKept t (· == a) ∧ t.regs = s.regs)) ∧
  (∀ (s : State) (f : Func) (w : HostWindow) (off : BitVec 28) (v : Word) (a : Nat), a = windowAddr w off → s.busUp (.fn f)
  = true → s.early (.fn f) a true = false → ((s.fnOf f).stopped = false ∨ inMain a = true) → s.memStalls a = false →
  s.hostReaches f a = true → s.absentSlice a = false → s.absentMain a = false → (inMain a = true → s.pageSet a = true) →
  s.mark a = none → (s.cell a).tag = tagEmpty → Gives (.apertureWrite f w off 15 v) s (fun t => t.cell a = stored a ⟨v,
  tagUint⟩ ∧ s.CellsKept t (· == a) ∧ t.regs = s.regs)) ∧
  (∀ (s : State) (f : Func) (w : HostWindow) (off : BitVec 28) (v : Word) (a : Nat), a = windowAddr w off → s.busUp (.fn f)
  = true → s.early (.fn f) a true = false → ((s.fnOf f).stopped = false ∨ inMain a = true) → s.memStalls a = false →
  s.hostReaches f a = true → s.absentSlice a = false → s.absentMain a = false → (inMain a = true → s.pageSet a = true) →
  s.mark a = none → (s.cell a).tag = tagCap → Gives (.apertureWrite f w off 15 v) s (fun t => t.cell a = stored a (s.cell
  a) ∧ t.cells = s.cells ∧ t.getF R.HIF_BADACC F.HIF_BADACC_COUNT = satInc F.HIF_BADACC_COUNT.top (s.getF R.HIF_BADACC
  F.HIF_BADACC_COUNT))) ∧
  (∀ (s : State) (f : Func) (w : HostWindow) (off : BitVec 28) (be : BitVec 4) (v : Word) (a : Nat), a = windowAddr w off →
  s.busUp (.fn f) = true → s.early (.fn f) a true = false → ((s.fnOf f).stopped = false ∨ inMain a = true) → s.memStalls a
  = false → s.hostReaches f a = true → s.absentSlice a = false → s.absentMain a = false → (inMain a = true → s.pageSet a =
  true) → s.mark a = none → be ≠ 0 → be ≠ 15 → ((s.cell a).tag = tagInt ∨ (s.cell a).tag = tagUint) → Gives (.apertureWrite
  f w off be v) s (fun t => t.cell a = stored a ⟨((s.cell a).v &&& ~~~ laneMask be) ||| (v &&& laneMask be), (s.cell
  a).tag⟩ ∧ s.CellsKept t (· == a) ∧ t.regs = s.regs)) ∧
  (∀ (s : State) (f : Func) (w : HostWindow) (off : BitVec 28) (be : BitVec 4) (v : Word) (a : Nat), a = windowAddr w off →
  s.busUp (.fn f) = true → s.early (.fn f) a true = false → ((s.fnOf f).stopped = false ∨ inMain a = true) → s.memStalls a
  = false → s.hostReaches f a = true → s.absentSlice a = false → s.absentMain a = false → (inMain a = true → s.pageSet a =
  true) → s.mark a = none → be ≠ 0 → be ≠ 15 → (s.cell a).tag ≠ tagInt → (s.cell a).tag ≠ tagUint → Gives (.apertureWrite f
  w off be v) s (fun t => t.cells = s.cells ∧ t.getF R.HIF_BADACC F.HIF_BADACC_COUNT = satInc F.HIF_BADACC_COUNT.top
  (s.getF R.HIF_BADACC F.HIF_BADACC_COUNT))) ∧
  (∀ (s : State) (f : Func) (w : HostWindow) (off : BitVec 28) (be : BitVec 4) (v : Word) (a : Nat), a = windowAddr w off →
  s.busUp (.fn f) = true → s.early (.fn f) a true = false → ((s.fnOf f).stopped = false ∨ inMain a = true) → s.memStalls a
  = false → s.hostReaches f a = false → Gives (.apertureWrite f w off be v) s (fun t => t.cells = s.cells ∧ t.getF
  R.HIF_BADACC F.HIF_BADACC_COUNT = satInc F.HIF_BADACC_COUNT.top (s.getF R.HIF_BADACC F.HIF_BADACC_COUNT)))

/-- Passway frames received and sent. Follows: R367, R368, R369, R371, R372, R373, R374, R377,
22_passway_and_joined_systems.md. Where a clause concludes t = s for an event that cannot happen, that is the model's
choice (log 2). Beside the rules it rests on these choices of the model: logs 20, 144, 207, 209, 210. -/
def Obligations.PasswayFrames : Prop :=
  (∀ (s : State) (x : RawFrame), x.port.val < 2 → s.portUp x.port = true → frameBad x.bytes = true → Gives (.frameDiscard
  x) s (fun t => t.getF R.PWY_CRC_ERR F.PWY_CRC_ERR_COUNT = satInc F.PWY_CRC_ERR_COUNT.top (s.getF R.PWY_CRC_ERR
  F.PWY_CRC_ERR_COUNT) ∧ t.isSet R.PWY_STAT F.PWY_STAT_CRC_F = true ∧ t = { s with regs := t.regs })) ∧
  (∀ (s : State) (x : RawFrame), 2 ≤ x.port.val → natBit (s.getF R.TWN_STAT F.TWN_STAT_LANES) (x.port.val - 2) = true →
  recordBad x.bytes = true → Gives (.frameDiscard x) s (fun t => t.getF R.TWN_DROP F.TWN_DROP_COUNT = satInc
  F.TWN_DROP_COUNT.top (s.getF R.TWN_DROP F.TWN_DROP_COUNT) ∧ t.twn.dropRecent = true ∧ t.isSet R.TWN_STAT
  F.TWN_STAT_HEALTHY = false ∧ t.reg R.PWY_CRC_ERR = s.reg R.PWY_CRC_ERR ∧ t.twn.dropAt = s.clock ∧ t.pwy = s.pwy ∧ t.cells
  = s.cells)) ∧
  (∀ (s : State) (x : RawFrame), ((x.port.val < 2 ∧ (s.portUp x.port = false ∨ frameBad x.bytes = false)) ∨ (2 ≤ x.port.val
  ∧ (natBit (s.getF R.TWN_STAT F.TWN_STAT_LANES) (x.port.val - 2) = false ∨ recordBad x.bytes = false))) → Gives
  (.frameDiscard x) s (fun t => t = s)) ∧
  (∀ (s : State) (x : RawFrame) (b : List (BitVec 8)) (fr : PwyFrame), x.port.val < 2 → b.length = framePayload fr →
  framePayload fr ≤ 128 → x.bytes = frameHeader fr ++ b ++ [BitVec.ofNat 8 (crc32 (frameHeader fr ++ b)), BitVec.ofNat 8
  (crc32 (frameHeader fr ++ b) / 256), BitVec.ofNat 8 (crc32 (frameHeader fr ++ b) / 65536), BitVec.ofNat 8 (crc32
  (frameHeader fr ++ b) / 16777216)] → framePayload fr ≠ 0 → Gives (.frameDiscard x) s (fun t => t = s)) ∧
  (∀ (s : State) (p : Fin 2) (t0 : BitVec 64) (st : Word) (fr : Fin 16) (off : Int), s.groupPort p = true → s.isSet
  (R.PWY_PORT p) F.PWY_PORT_UPSTREAM = true → s.pwyMaster = false → s.pwyLocked = false → s.pwy.steady = 7 → (off =
  ((s.mtime.toNat : Int) * 16 + fr.val - (t0.toNat : Int) * 16) * 2000 / 48 - (s.getF (R.PWY_PORT p) F.PWY_PORT_DELAY :
  Int)) → off - s.pwy.first ≤ 1000 → s.pwy.first - off ≤ 1000 → s.mode ≠ mdTwin → Gives (.sync p t0 0 st fr) s (fun t =>
  t.pwyLocked = true ∧ t.mtime = BitVec.ofInt 64 ((s.mtime.toNat : Int) - (off * 3 + 1000) / 2000) ∧ t.pwy.step = none ∧
  t.cells = s.cells)) ∧
  (∀ (s : State) (p : Fin 2) (t0 ta : BitVec 64) (st : Word) (fr : Fin 16), (s.groupPort p = false ∨ s.isSet (R.PWY_PORT p)
  F.PWY_PORT_UPSTREAM = false ∨ s.pwyMaster = true) → Gives (.sync p t0 ta st fr) s (fun t => t = s)) ∧
  (∀ (s : State) (p : Fin 2) (t0 ta : BitVec 64) (st : Word) (fr : Fin 16) (off : Int), s.groupPort p = true → s.isSet
  (R.PWY_PORT p) F.PWY_PORT_UPSTREAM = true → s.pwyMaster = false → s.pwyLocked = true → ta ≠ 0 → s.mtime.toNat ≤ ta.toNat
  → s.pwy.applied ≠ some ta.toNat → (off = ((s.mtime.toNat : Int) * 16 + fr.val - (t0.toNat : Int) * 16) * 2000 / 48 -
  (s.getF (R.PWY_PORT p) F.PWY_PORT_DELAY : Int)) → -(2 ^ 31) < off → off < 2 ^ 31 → Gives (.sync p t0 ta st fr) s (fun t
  => t.reg R.PWY_OFFSET = BitVec.ofInt 32 off ∧ t.pwy.step = some (ta.toNat, st.toInt) ∧ t.mtime = s.mtime ∧ t.cells =
  s.cells)) ∧
  (∀ (s : State) (p : Fin 2) (pos : Fin 32) (seq : BitVec 8) (r : PwyRec) (j : Fin 32) (im : ImpSt), s.groupPort p = true →
  s.seenBefore pos seq = false → s.groupPort (otherPort p) = false → r.id.toNat / 32 = s.pwyGroup → (∀ q : Fin 32, (s.isSet
  (R.PWY_IMP q) F.PWY_IMP_EN && s.getF (R.PWY_IMP q) F.PWY_IMP_POS == r.id.toNat % 32 && s.getF (R.PWY_IMP q)
  F.PWY_IMP_SLOT == r.slot.val) = decide (q = j)) → s.pwy.imps = [(r.id.toNat % 32 * 32 + r.slot.val, im)] → im.epoch =
  r.epoch.toNat → s.evtDelay (928 + j.val) = 0 → Gives (.event p pos seq [r]) s (fun t => t.evr.taps = s.evr.taps ++ [(928
  + j.val, s.clock, s.mtime)] ∧ (t.pwy.seen.get pos).head? = some seq.toNat ∧ t.cells = s.cells)) ∧
  (∀ (s : State) (p : Fin 2) (pos : Fin 32) (seq : BitVec 8) (recs : List PwyRec), s.seenBefore pos seq = true → Gives
  (.event p pos seq recs) s (fun t => t = s)) ∧
  (∀ (s : State) (p : Fin 2) (seq : BitVec 8) (q : PwyTopo), s.pwyEn = true → s.portUp p = true → q.group.val ≠ s.pwyGroup
  → Gives (.topo p seq q) s (fun t => t.pwy.boundary.get p = true ∧ t.isSet R.PWY_STAT F.PWY_STAT_GRP_MISMATCH_F = true ∧
  t.pwy.members = s.pwy.members ∧ t.outs = s.outs ∧ t.cells = s.cells)) ∧
  (∀ (s : State) (p : Fin 2) (seq : BitVec 8) (q : PwyTopo), s.pwyEn = true → s.portUp p = true → q.group.val = s.pwyGroup
  → q.pos.val ≠ s.pwyPos → s.seenBefore q.pos seq = false → s.groupPort (otherPort p) = false → s.pwy.dup = false → Gives
  (.topo p seq q) s (fun t => t.pwy.members.get q.pos = some (q, p.val) ∧ (t.reg R.PWY_MEMBERS).getLsbD q.pos = true ∧
  t.pwy.boundary.get p = false ∧ t.cells = s.cells)) ∧
  (∀ (s : State) (p : Fin 2) (t2 t3 : Nat), s.pwyEn = true → s.portUp p = true → s.ptbActs 12 = false → Gives (.dlyReq p t2
  t3) s (fun t => t.outs = s.outs ++ [.frame p.castSucc.castSucc false (.dlyResp s.ownPos (BitVec.ofNat 8 s.pwy.seq) t2
  t3)] ∧ t.pwy.seq = (s.pwy.seq + 1) % 256 ∧ t = { s with pwy := t.pwy, outs := t.outs })) ∧
  (∀ (s : State) (p : Fin 2) (t1 t2 t3 t4 : Nat) (d : Int), s.pwyEn = true → s.portUp p = true → (d = (((t4 : Int) - t1) -
  ((t3 : Int) - t2)) * 2000 / 48 / 2 + toSigned 16 (s.getF (R.PWY_ASYM p) F.PWY_ASYM_PS)) → 0 ≤ d → d < 2 ^ 20 → Gives
  (.dlyResp p t1 t2 t3 t4) s (fun t => t.getF (R.PWY_PORT p) F.PWY_PORT_DELAY = d.toNat ∧ t = { s with regs := t.regs })) ∧
  (∀ (s : State) (ge : BitVec 8) (m : Fin 32), s.pwyEn = true → s.pwyLocked = true → s.portUp 0 = true → s.portUp 1 = false
  → s.pwy.boundary.get 0 = false → s.isSet (R.PWY_PORT 0) F.PWY_PORT_UPSTREAM = false → s.pwy.step = none → ge.toNat =
  s.getF R.PWY_GSTAT F.PWY_GSTAT_GEPOCH → m.val = s.getF R.PWY_GSTAT F.PWY_GSTAT_MASTER_POS → s.ptbActs 12 = false → Gives
  (.syncTransmit) s (fun t => t.outs = s.outs ++ [.frame 0 false (.sync s.ownPos (BitVec.ofNat 8 s.pwy.seq) s.mtime 0 0 ge
  m), .frame 0 false (.dlyReq s.ownPos (BitVec.ofNat 8 ((s.pwy.seq + 1) % 256)) (s.mtime.toNat * 16))] ∧ t.pwy.seq =
  ((s.pwy.seq + 1) % 256 + 1) % 256 ∧ t.regs = s.regs ∧ t.cells = s.cells)) ∧
  (∀ (s : State), s.inGroup = true → s.groupPort 0 = true → s.groupPort 1 = false → s.ptbActs 12 = false → Gives
  (.topoTransmit) s (fun t => t.outs = s.outs ++ [.frame 0 false (.topo (BitVec.ofNat 8 s.pwy.seq) s.ownTopo)] ∧ t.pwy.seq
  = (s.pwy.seq + 1) % 256 ∧ t.regs = s.regs ∧ t.cells = s.cells)) ∧
  (∀ (s : State) (pos : Fin 32), pos.val ≠ s.pwyPos → s.pwyEn = true → s.pwy.dup = false → (∀ k : Fin 32,
  ((s.pwy.members.get k).map (fun q => q.1.pos)).getD k = k) → Gives (.memberTimeout pos) s (fun t => t.pwy.members.get pos
  = none ∧ (t.reg R.PWY_MEMBERS).getLsbD pos = false ∧ t.cells = s.cells)) ∧
  (∀ (s : State), s.pwyMaster = false → s.pwyLocked = true → Gives (.syncLoss) s (fun t => t.pwyLocked = false ∧ t.isSet
  R.PWY_STAT F.PWY_STAT_LOCK_LOST_F = true ∧ t.getF (R.PWY_EXP 3) F.PWY_EXP_EPOCH = (s.getF (R.PWY_EXP 3) F.PWY_EXP_EPOCH +
  1) % 2 ^ F.PWY_EXP_EPOCH.width ∧ t.pwy.step = none ∧ t.cells = s.cells))

/-- Group-wide steps, train time, announcements and ports. Follows: R371, R375, R376, R378, R379, R380, R381, R382,
22_passway_and_joined_systems.md. Where a clause concludes t = s for an event that cannot happen, that is the model's
choice (log 2). Beside the rules it rests on these choices of the model: logs 128, 208, 211, 212. -/
def Obligations.GroupTimeAndPorts : Prop :=
  (∀ (s : State) (st : Int), s.pwyLocked = true → s.pwy.step = some (s.mtime.toNat, st) → Gives (.groupStepApply) s (fun t
  => t.mtime = s.mtime + BitVec.ofInt 64 st ∧ t.pwy.step = none ∧ (s.evtDelay 969 = 0 → t.evr.taps = s.evr.taps ++ [(969,
  s.clock, t.mtime)]) ∧ (s.pwyMaster = false → s.isSet R.PWY_TT_STAT F.PWY_TT_STAT_TT_VALID = false → t.ttOfs = s.ttOfs) ∧
  (s.pwyMaster = true ∨ s.isSet R.PWY_TT_STAT F.PWY_TT_STAT_TT_VALID = true → t.ttOfs = (BitVec.ofInt 64 (s.ttOfs -
  st)).toInt) ∧ t.cells = s.cells)) ∧
  (∀ (s : State), (s.pwyLocked = false ∨ s.pwy.step.map (·.1) ≠ some s.mtime.toNat) → Gives (.groupStepApply) s (fun t => t
  = s)) ∧
  (∀ (s : State), s.mode = mdStabled → Gives (.inauguration) s (fun t => t = s)) ∧
  (∀ (s : State), s.mode ≠ mdStabled → Gives (.inauguration) s (fun t => t.isSet R.PWY_TT_STAT F.PWY_TT_STAT_INAUG_F = true
  ∧ t.isSet R.PWY_TT_STAT F.PWY_TT_STAT_TT_VALID = false ∧ t.isSet R.PWY_TT_STAT F.PWY_TT_STAT_TT_LOCKED = false ∧ t.getF
  R.PWY_TT_STAT F.PWY_TT_STAT_INAUG_CNT = (s.getF R.PWY_TT_STAT F.PWY_TT_STAT_INAUG_CNT + 1) % 2 ^
  F.PWY_TT_STAT_INAUG_CNT.width ∧ (∀ g : Fin 64, t.reg (R.PWY_SYS g) = 0) ∧ t.mtime = s.mtime ∧ t.cells = s.cells)) ∧
  (∀ (s : State) (d : BitVec 64), s.pwyMaster = true → s.ttCapable = true → Gives (.ptpLock d) s (fun t => t.isSet
  R.PWY_TT_STAT F.PWY_TT_STAT_TT_VALID = true ∧ t.isSet R.PWY_TT_STAT F.PWY_TT_STAT_TT_LOCKED = true ∧ t.ttOfs =
  (BitVec.ofInt 64 (s.ttOfs + d.toInt)).toInt ∧ t.isSet R.PWY_TT_STAT F.PWY_TT_STAT_TT_ALIGNED = decide (t.ttOfs = 0) ∧
  t.mtime = s.mtime ∧ t.cells = s.cells)) ∧
  (∀ (s : State) (d : BitVec 64), ((s.pwyMaster = true ∧ s.ttCapable = false) ∨ (s.pwyMaster = false ∧ s.elected = none)) →
  Gives (.ptpLock d) s (fun t => t = s)) ∧
  (∀ (s : State) (d : BitVec 64), s.pwyMaster = false → s.elected ≠ none → Gives (.ptpLock d) s (fun t => t.isSet
  R.PWY_TT_STAT F.PWY_TT_STAT_TT_LOCKED = true ∧ t.ttOfs = s.ttOfs ∧ t.isSet R.PWY_TT_STAT F.PWY_TT_STAT_TT_VALID = s.isSet
  R.PWY_TT_STAT F.PWY_TT_STAT_TT_VALID ∧ t.mtime = s.mtime ∧ t.cells = s.cells)) ∧
  (∀ (s : State) (ahead : Nat), s.pwyMaster = true → s.ttOfs ≠ 0 → s.pwy.step = none → s.memberTopos.any (·.armed) = false
  → s.mtime.toNat + max 30000 ahead < 2 ^ 64 → Gives (.ttStepAnnounce ahead) s (fun t => t.pwy.step = some (s.mtime.toNat +
  max 30000 ahead, max (-(2 ^ 31)) (min (2 ^ 31 - 1) s.ttOfs)) ∧ t.pwy.lastStep = some (s.clock + max 30000 ahead) ∧ t =
  { s with pwy := t.pwy })) ∧
  (∀ (s : State) (ahead c0 : Nat), (s.pwyMaster = false ∨ s.ttOfs = 0 ∨ s.pwy.step ≠ none ∨ (s.memberTopos.any (·.armed) =
  true ∧ s.pwy.lastStep = some c0 ∧ s.clock + max 30000 ahead < c0 + 1500000)) → Gives (.ttStepAnnounce ahead) s (fun t =>
  t = s)) ∧
  (∀ (s : State) (ahead : Nat), s.pwyMaster = true → s.ttOfs ≠ 0 → s.pwy.step = none → s.memberTopos.any (·.armed) = true →
  s.pwy.lastStep = none → s.mtime.toNat + max 30000 ahead < 2 ^ 64 → Gives (.ttStepAnnounce ahead) s (fun t => t.pwy.step =
  some (s.mtime.toNat + max 30000 ahead, max (-75) (min 75 s.ttOfs)) ∧ t.pwy.lastStep = some (s.clock + max 30000 ahead) ∧
  t = { s with pwy := t.pwy })) ∧
  (∀ (s : State), s.pwyMaster = true → (s.pwy.ecn.get 0 = true ∨ s.pwy.ecn.get 1 = true) → Gives (.groupAnnouncement) s
  (fun t => t = s.emit (.announce s.pwyGroup s.pwyPos (s.reg R.PWY_MEMBERS) (s.getF R.PWY_GSTAT F.PWY_GSTAT_GEPOCH)))) ∧
  (∀ (s : State) (g : Fin 64) (sender q c0 : Nat) (mask : Word), s.mode ≠ mdStabled → s.pwy.sysFrom.get g = some (q, c0) →
  q ≠ sender → s.clock < c0 + 15000000 → Gives (.groupAnnouncementReceive g sender mask) s (fun t => t.isSet R.PWY_TT_STAT
  F.PWY_TT_STAT_GRP_DUP_F = true ∧ t.reg (R.PWY_SYS g) = mask ∧ t.pwy.sysFrom.get g = some (sender, s.clock))) ∧
  (∀ (s : State) (g : Fin 64) (sender : Nat) (mask : Word), s.mode ≠ mdStabled → s.pwy.sysFrom.get g = none → s.pwyMaster =
  false → Gives (.groupAnnouncementReceive g sender mask) s (fun t => t.reg (R.PWY_SYS g) = mask ∧ t.isSet R.PWY_TT_STAT
  F.PWY_TT_STAT_GRP_DUP_F = s.isSet R.PWY_TT_STAT F.PWY_TT_STAT_GRP_DUP_F ∧ t = { s with regs := t.regs, pwy := t.pwy })) ∧
  (∀ (s : State) (g : Fin 64) (sender : Nat) (mask : Word), s.mode ≠ mdStabled → s.pwyMaster = true → g.val = s.pwyGroup →
  Gives (.groupAnnouncementReceive g sender mask) s (fun t => t.isSet R.PWY_TT_STAT F.PWY_TT_STAT_GRP_DUP_F = true ∧ t.reg
  (R.PWY_SYS g) = mask)) ∧
  (∀ (s : State), s.mode ≠ mdStabled → s.mtime + BitVec.ofInt 64 s.ttOfs = BitVec.ofNat 64 ((s.reg R.PWY_TEV_LO).toNat + 2
  ^ 32 * (s.reg R.PWY_TEV_HI).toNat) → Gives (.ptpTimeEvent) s (fun t => t = s.fire 50)) ∧
  (∀ (s : State), (s.mode = mdStabled ∨ s.mtime + BitVec.ofInt 64 s.ttOfs ≠ BitVec.ofNat 64 ((s.reg R.PWY_TEV_LO).toNat + 2
  ^ 32 * (s.reg R.PWY_TEV_HI).toNat)) → Gives (.ptpTimeEvent) s (fun t => t = s)) ∧
  (∀ (s : State) (p : Fin 4), s.portFitted p = true → s.mode ≠ mdStabled → s.clockOn 2 = true → (if p.val < 2 then s.pwyEn
  = true else s.isSet R.TWN_CFG F.TWN_CFG_EN = true) → Gives (.portUp p) s (fun t => t.portUp p = true ∧ t.isSet
  (R.PWY_PORT p) F.PWY_PORT_UP = true ∧ t.cells = s.cells)) ∧
  (∀ (s : State) (p : Fin 4), (s.portFitted p = false ∨ s.mode = mdStabled ∨ s.clockOn 2 = false ∨ (p.val < 2 ∧ s.pwyEn =
  false) ∨ (2 ≤ p.val ∧ s.isSet R.TWN_CFG F.TWN_CFG_EN = false)) → Gives (.portUp p) s (fun t => t = s)) ∧
  (∀ (s : State) (p : Fin 4), s.portUp p = false → p.val < 2 → Gives (.portDown p) s (fun t => t = s)) ∧
  (∀ (s : State), (s.pwyMaster = false ∨ (s.pwy.ecn.get 0 = false ∧ s.pwy.ecn.get 1 = false)) → Gives (.groupAnnouncement)
  s (fun t => t = s)) ∧
  (∀ (s : State) (p : Fin 4), s.portUp p = true → Gives (.portDown p) s (fun t => t.portUp p = false ∧ t.isSet (R.PWY_PORT
  p) F.PWY_PORT_UP = false ∧ t.cells = s.cells)) ∧
  (∀ (s : State) (l : Fin 2) (up : Bool), Gives (.ecnLinkChange l up) s (fun t => t.pwy.ecn.get l = up ∧ t.cells =
  s.cells))

/-- Twin operation: records, handover, takeover, link and line. Follows: R392, R394, R395, R396, R397, R399, R400, R401,
R402, R403, R405, 23_recovery_and_twin_operation.md. Where a clause concludes t = s for an event that cannot happen, that
is the model's choice (log 2). Beside the rules it rests on these choices of the model: logs 29, 31, 56, 57, 129, 175, 176,
177, 199, 200. -/
def Obligations.TwinRecordsAndHandover : Prop :=
  (∀ (s : State) (n : Slice) (j : Fin 16) (x : LoopImage) (k : Nat) (st : BitVec 16), s.inTurn st = true → s.standby n =
  true → F.CLE_TGT_KIND.get x.tgt = 0 → Gives (.commit n j x ⟨k, st⟩) s (fun t => t.isSet (R.CLE_LCTRL n j)
  F.CLE_LCTRL_BANK = x.bank ∧ t.getF (R.CLE_LSTAT n j) F.CLE_LSTAT_SEQ = x.seq.toNat ∧ t.reg (R.CLE_REF n j) =
  x.ref.setWidth 32 ∧ t.reg (R.CLE_OUT n j) = pack16 x.y.toInt x.u.toInt ∧ t.getF R.TWN_RX F.TWN_RX_COUNT = satInc
  F.TWN_RX_COUNT.top (s.getF R.TWN_RX F.TWN_RX_COUNT) ∧ t.twn.snapped.get n = s.twn.snapped.get n ∧ t.cells = s.cells)) ∧
  (∀ (s : State) (n : Slice) (j : Fin 16) (x : LoopImage) (k : Nat) (st : BitVec 16), s.inTurn st = true → s.standby n =
  true → F.CLE_TGT_KIND.get x.tgt = 0 → Gives (.snap n j x ⟨k, st⟩) s (fun t => (t.twn.snapped.get n).getLsbD j = true ∧
  t.getF (R.CLE_LSTAT n j) F.CLE_LSTAT_SEQ = x.seq.toNat ∧ t.cells = s.cells)) ∧
  (∀ (s : State) (n : Slice) (j : Fin 16) (x : LoopImage) (k : Nat) (st : BitVec 16), s.inTurn st = true → s.standby n =
  false → Gives (.snap n j x ⟨k, st⟩) s (fun t => t =
  { s with twn := { s.twn with rx := some ((st.toNat + 1) % 65536) } })) ∧
  (∀ (s : State) (n : Slice) (off : Nat) (v : Word) (k : Nat) (st : BitVec 16), s.inTurn st = true → s.standby n = true →
  cfgOffset n off = true → off ≠ 0x4008 → Gives (.config n off v ⟨k, st⟩) s (fun t => t.reg (sliceBase n + off) = v ∧
  (t.twn.cfgDone.get n = (if k = 1 then 1 else s.twn.cfgDone.get n + 1)) ∧ t.twn.cfgOk.get n = decide (k =
  t.twn.cfgDone.get n) ∧ t.cells = s.cells)) ∧
  (∀ (s : State) (m : BitVec 12) (ca : Fin 16) (st : BitVec 16) (n : Slice), s.inTurn st = true → m = maskBit n → s.canTake
  n = true → s.fitted n = true → s.twn.queue.length < 50 → Gives (.handover m ⟨ca, st⟩) s (fun t => t.active n = true ∧
  t.slState n = slRecovering ∧ (t.ctlOf n).takeover = true ∧ t.getF R.TWN_LAST_HO F.TWN_LAST_HO_CAUSE = ca.val ∧ t.getF
  R.TWN_LAST_HO F.TWN_LAST_HO_SLICES = m.toNat ∧ t.twn.queue.getLast? = some (.takeAck m 0))) ∧
  (∀ (s : State) (m : BitVec 12) (ca : Fin 16) (st : BitVec 16), s.inTurn st = true → (∀ n : Slice, s.canTake n = false) →
  m ≠ 0 → s.twn.queue.length < 50 → Gives (.handover m ⟨ca, st⟩) s (fun t => t.isSet R.TWN_STAT F.TWN_STAT_TAKE_REFUSED_F =
  true ∧ t.twn.queue.getLast? = some (.takeAck 0 m) ∧ (∀ n : Slice, t.slState n = s.slState n) ∧ t.cells = s.cells)) ∧
  (∀ (s : State) (g m : BitVec 12) (st : BitVec 16) (n : Slice), s.inTurn st = true → s.twn.await = maskBit n → m.getLsbD n
  = true → s.standby n = true → Gives (.takeAck g ⟨m, st⟩) s (fun t => t.active n = true ∧ t.standby n = false ∧
  t.twn.await = 0 ∧ t.isSet R.TWN_LAST_HO F.TWN_LAST_HO_REFUSED = true)) ∧
  (∀ (s : State) (g : BitVec 12) (st : BitVec 16), s.inTurn st = true → Gives (.takeAck g ⟨0, st⟩) s (fun t => t.twn.await
  = s.twn.await &&& ~~~ g ∧ t.reg R.TWN_ROLE = s.reg R.TWN_ROLE ∧ t.reg R.TWN_LAST_HO = s.reg R.TWN_LAST_HO ∧ t.cells =
  s.cells)) ∧
  (∀ (s : State) (n : Slice), s.twn.await = maskBit n → s.standby n = true → s.twn.sentAt + 3000 ≤ s.clock → Gives
  (.takeAckTimeout) s (fun t => t.active n = true ∧ t.twn.await = 0)) ∧
  (∀ (s : State), (s.twn.await = 0 ∨ s.clock < s.twn.sentAt + 3000) → Gives (.takeAckTimeout) s (fun t => t = s)) ∧
  (∀ (s : State) (sy ar sb : BitVec 12) (st : BitVec 16), s.inTurn st = true → sb = s.twn.peerStandby → Gives (.status sy
  ar ⟨sb, st⟩) s (fun t => t.isSet R.TWN_PEER F.TWN_PEER_FRESH = true ∧ t.getF R.TWN_PEER F.TWN_PEER_SYNCED = sy.toNat ∧
  t.getF R.TWN_PEER F.TWN_PEER_ARMED = ar.toNat ∧ t.twn.statusAt = s.clock ∧ t = { s with regs := t.regs, twn := t.twn })) ∧
  (∀ (s : State) (sy ar sb : BitVec 12) (st : BitVec 16), (s.twnOn = false ∨ s.clockOn 2 = false) → Gives (.status sy ar
  ⟨sb, st⟩) s (fun t => t = s)) ∧
  (∀ (s : State) (sy ar sb : BitVec 12) (st : BitVec 16) (k : Nat), s.twnOn = true → s.clockOn 2 = true → s.getF R.TWN_STAT
  F.TWN_STAT_LANES = 3 → s.twn.rx = some k → st.toNat ≠ k → (st.toNat + 65536 - k) % 65536 < 32768 → s.twn.ahead = [] →
  Gives (.status sy ar ⟨sb, st⟩) s (fun t => t =
  { s with twn := { s.twn with ahead := [(st.toNat, .status sy ar sb false)] } })) ∧
  (∀ (s : State), s.twnOn = true → s.twn.queue.length < 64 → Gives (.statusTransmit) s (fun t => t.twn.queue = s.twn.queue
  ++ [s.statusRec] ∧ t = { s with twn := t.twn })) ∧
  (∀ (s : State), s.isSet R.TWN_CFG F.TWN_CFG_EN = true → s.twn.lost = false → Gives (.twinLinkLoss) s (fun t => t.getF
  R.TWN_STAT F.TWN_STAT_LANES = 0 ∧ t.isSet R.TWN_STAT F.TWN_STAT_LINK_DOWN_F = true ∧ t.isSet R.TWN_STAT
  F.TWN_STAT_HEALTHY = false ∧ t.twn.lost = true ∧ t.cells = s.cells)) ∧
  (∀ (s : State) (q : TwinPeer), s.mode ≠ mdStabled → s.clockOn 2 = true → s.isSet R.TWN_CFG F.TWN_CFG_EN = true → s.getF
  R.TWN_STAT F.TWN_STAT_LANES ≠ s.lanesFitted → Gives (.twinLinkUp q) s (fun t => t.getF R.TWN_STAT F.TWN_STAT_LANES =
  s.lanesFitted ∧ t.twn.peer = some q ∧ t.twn.lost = false ∧ t.cells = s.cells)) ∧
  (∀ (s : State) (n : Slice), s.twnOn = true → s.twn.lost = true → s.canTake n = true → s.fitted n = true → s.isSet
  R.TWN_STAT F.TWN_STAT_HO_IN = false → s.isSet R.TWN_STAT F.TWN_STAT_HO_OUT = false → (s.side = true ∨ s.twn.lostAt + 3000
  ≤ s.clock) → Gives (.handoverLineAssert) s (fun t => t.isSet R.TWN_STAT F.TWN_STAT_HO_OUT = true ∧ t.slState n =
  slRecovering ∧ t.active n = true ∧ t.getF R.TWN_LAST_HO F.TWN_LAST_HO_CAUSE = 6)) ∧
  (∀ (s : State), (s.twnOn = false ∨ s.twn.lost = false ∨ s.getF R.TWN_ROLE F.TWN_ROLE_STANDBY = 0 ∨ s.isSet R.TWN_STAT
  F.TWN_STAT_HO_IN = true ∨ s.isSet R.TWN_STAT F.TWN_STAT_HO_OUT = true ∨ (s.side = false ∧ s.clock < s.twn.lostAt + 3000))
  → Gives (.handoverLineAssert) s (fun t => t = s)) ∧
  (∀ (s : State) (n : Slice), s.twnOn = true → s.isSet R.TWN_STAT F.TWN_STAT_HO_IN = false → s.slState n = slRunning →
  s.fitted n = true → (s.ctlOf n).fencing = false → Gives (.handoverLineIn) s (fun t => t.isSet R.TWN_STAT F.TWN_STAT_HO_IN
  = true ∧ t.isSet R.TWN_STAT F.TWN_STAT_DEPOSED = true ∧ (t.ctlOf n).fencing = true ∧ t.active n = false ∧ t.cells =
  s.cells)) ∧
  (∀ (s : State), Gives (.twnHoInDeasserted) s (fun t => t.isSet R.TWN_STAT F.TWN_STAT_HO_IN = false ∧ t.isSet R.TWN_STAT
  F.TWN_STAT_DEPOSED = false ∧ t.cells = s.cells)) ∧
  (∀ (s : State) (n : Slice), s.fitted n = true → s.slState n = slRecovering → (s.ctlOf n).takeover = true → s.isSet
  (R.SLC_CMD_STAT n) F.SLC_CMD_STAT_HELD = false → Gives (.takeoverComplete n) s (fun t => t.slState n = slRunning ∧
  (t.ctlOf n).takeover = false ∧ (t.ctlOf n).unmasked = true)) ∧
  (∀ (s : State) (x : Access) (key : BitVec 16), s.reaches x R.TWN_CMD = true → key = 0x7E1A → s.getF R.TWN_STAT
  F.TWN_STAT_LANES = s.lanesFitted → Gives (.release x key) s (fun t => t.isSet R.TWN_STAT F.TWN_STAT_HO_OUT = false ∧ t =
  { s with regs := t.regs })) ∧
  (∀ (s : State), s.twn.dropAt + 1500000 ≤ s.clock → Gives (.healthyChg) s (fun t => t.twn.dropRecent = false ∧ t.isSet
  R.TWN_STAT F.TWN_STAT_HEALTHY = s.twinPair ∧ t.cells = s.cells)) ∧
  (∀ (s : State), s.clock < s.twn.dropAt + 1500000 → Gives (.healthyChg) s (fun t => t = s))

/-- Flash operations. Follows: R410, R411, R412, R413, R414, R416, R417, R418, R420, R424, R426, 24_flash.md. Where a
clause concludes t = s for an event that cannot happen, that is the model's choice (log 2). Beside the rules it rests on
these choices of the model: logs 34, 35, 77, 80, 81, 145, 196, 197. -/
def Obligations.FlashOperations : Prop :=
  (∀ (s : State) (x : Access) (key : BitVec 16) (b : BlkSel), s.reaches x R.FLC_CMD = true → key = 0xF1A5 → b = selOf
  (s.reg R.FLC_BSEL) → s.flc.run = none → blkOk b.arr b.blk = true → s.flcBars b.arr b.blk none = 0 → Gives (.erase x key)
  s (fun t => t.flc.run = some ⟨.erase, b.arr, b.blk, false, none⟩ ∧ (t.blk b.arr b.blk).cnt = (s.blk b.arr b.blk).cnt + 1
  ∧ (t.blk b.arr b.blk).flag = true ∧ t.flc.words = s.flc.words ∧ (∀ a k, blkKey a k ≠ blkKey b.arr b.blk → t.blk a k =
  s.blk a k) ∧ t.cells = s.cells)) ∧
  (∀ (s : State) (x : Access) (key : BitVec 16) (b : BlkSel), s.reaches x R.FLC_CMD = true → key = 0xF1A5 → b = selOf
  (s.reg R.FLC_BSEL) → s.flc.run = none → blkOk b.arr b.blk = true → b.arr = s.getF R.FLC_BANK F.FLC_BANK_ACTIVE → s.mode ≠
  mdService → Gives (.erase x key) s (fun t => t.getF R.FLC_STAT F.FLC_STAT_STATUS = 2 ∧ t.getF R.FLC_STAT
  F.FLC_STAT_REASON = 1 ∧ t.isSet R.FLC_STAT F.FLC_STAT_DONE_F = true ∧ t.isSet R.FLC_STAT F.FLC_STAT_ERR_F = true ∧
  t.flc.info = s.flc.info ∧ t.flc.run = none ∧ t.flc.words = s.flc.words)) ∧
  (∀ (s : State) (x : Access) (key : BitVec 16) (b : BlkSel) (r : Nat), s.reaches x R.FLC_CMD = true → key = 0xF1A5 → b =
  selOf (s.reg R.FLC_BSEL) → s.flc.run = none → blkOk b.arr b.blk = true → s.rewriting b.arr b.blk = false → b.arr ≠ s.getF
  R.FLC_BANK F.FLC_BANK_ACTIVE → r < 8 → s.inRegion r b.arr b.blk = true → s.regionOpen r = false → Gives (.erase x key) s
  (fun t => t.getF R.FLC_STAT F.FLC_STAT_STATUS = 2 ∧ t.getF R.FLC_STAT F.FLC_STAT_REASON = 2 ∧ t.isSet R.FLC_STAT
  F.FLC_STAT_DONE_F = true ∧ t.isSet R.FLC_STAT F.FLC_STAT_ERR_F = true ∧ t.flc.info = s.flc.info ∧ t.flc.run = none ∧
  t.flc.words = s.flc.words)) ∧
  (∀ (s : State) (x : Access) (key : BitVec 16) (b : BlkSel), s.reaches x R.FLC_CMD = true → key = 0xF1A5 → b = selOf
  (s.reg R.FLC_BSEL) → s.flc.run = none → blkOk b.arr b.blk = false → Gives (.erase x key) s (fun t => t.getF R.FLC_STAT
  F.FLC_STAT_STATUS = 5 ∧ t.getF R.FLC_STAT F.FLC_STAT_REASON = 0 ∧ t.isSet R.FLC_STAT F.FLC_STAT_DONE_F = true ∧ t.isSet
  R.FLC_STAT F.FLC_STAT_ERR_F = true ∧ t.flc.info = s.flc.info ∧ t.flc.run = none ∧ t.flc.words = s.flc.words)) ∧
  (∀ (s : State) (x : Access) (key : BitVec 16), s.reaches x R.FLC_CMD = true → key ≠ 0xF1A5 → Gives (.erase x key) s (fun
  t => t.getF R.FLC_STAT F.FLC_STAT_STATUS = 5 ∧ t.getF R.FLC_STAT F.FLC_STAT_REASON = 0 ∧ t.isSet R.FLC_STAT
  F.FLC_STAT_DONE_F = true ∧ t.isSet R.FLC_STAT F.FLC_STAT_ERR_F = true ∧ t.flc.info = s.flc.info ∧ t.flc.run = s.flc.run ∧
  t.flc.words = s.flc.words)) ∧
  (∀ (s : State) (e : EraseEnd) (r : FlcRun), s.flc.run = some r → r.op = .erase → r.paused = false → r.loader = none →
  e.pass = true → Gives (.eraseComplete e) s (fun t => t.getF R.FLC_STAT F.FLC_STAT_STATUS = 0 ∧ t.getF R.FLC_STAT
  F.FLC_STAT_REASON = 0 ∧ t.isSet R.FLC_STAT F.FLC_STAT_DONE_F = true ∧ t.flc.run = none ∧ (t.blk r.arr r.blk).flag = false
  ∧ (t.blk r.arr r.blk).incomplete = false ∧ (t.blk r.arr r.blk).prog = 0 ∧ (t.blk r.arr r.blk).cnt = (s.blk r.arr
  r.blk).cnt ∧ (t.blk r.arr r.blk).lastErase = e.ms.toNat ∧ (∀ w < blkSize r.arr, t.flashWord (arrBase r.arr + r.blk *
  blkSize r.arr + w) = 0xFFFFFFFF) ∧ (∀ a k, blkKey a k ≠ blkKey r.arr r.blk → t.blk a k = s.blk a k) ∧ t.cells = s.cells)) ∧
  (∀ (s : State) (e : EraseEnd) (r : FlcRun), s.flc.run = some r → r.op = .erase → r.paused = false → r.loader = none →
  e.pass = false → Gives (.eraseComplete e) s (fun t => t.getF R.FLC_STAT F.FLC_STAT_STATUS = 6 ∧ t.getF R.FLC_STAT
  F.FLC_STAT_REASON = 0 ∧ t.isSet R.FLC_STAT F.FLC_STAT_DONE_F = true ∧ t.isSet R.FLC_STAT F.FLC_STAT_ERR_F = true ∧
  t.flc.run = none ∧ (t.blk r.arr r.blk).worn = true ∧ (t.blk r.arr r.blk).flag = (s.blk r.arr r.blk).flag ∧ (∀ a k, blkKey
  a k ≠ blkKey r.arr r.blk → t.blk a k = s.blk a k) ∧ t.cells = s.cells)) ∧
  (∀ (s : State) (x : Access) (key : BitVec 16) (b : BlkSel), s.reaches x R.FLC_CMD = true → key = 0xF1A5 → b = selOf
  (s.reg R.FLC_BSEL) → s.flc.run = none → blkOk b.arr b.blk = true → b.page < arrPages b.arr → s.flcBars b.arr b.blk (some
  b.page) = 0 → Gives (.program x key) s (fun t => t.flc.run = some ⟨.program b.page s.pageBuf, b.arr, b.blk, false, none⟩
  ∧ (t.blk b.arr b.blk).prog = (s.blk b.arr b.blk).prog ||| 2 ^ b.page ∧ t.flc.words = s.flc.words ∧ (∀ a k, blkKey a k ≠
  blkKey b.arr b.blk → t.blk a k = s.blk a k) ∧ t.cells = s.cells)) ∧
  (∀ (s : State) (x : Access) (key : BitVec 16) (b : BlkSel), s.reaches x R.FLC_CMD = true → key = 0xF1A5 → b = selOf
  (s.reg R.FLC_BSEL) → s.flc.run = none → blkOk b.arr b.blk = true → b.page < arrPages b.arr → natBit (s.blk b.arr
  b.blk).prog b.page = true → s.isProtected b.arr b.blk = false → b.arr ≠ s.getF R.FLC_BANK F.FLC_BANK_ACTIVE → Gives
  (.program x key) s (fun t => t.getF R.FLC_STAT F.FLC_STAT_STATUS = 2 ∧ t.getF R.FLC_STAT F.FLC_STAT_REASON = 3 ∧ t.isSet
  R.FLC_STAT F.FLC_STAT_DONE_F = true ∧ t.isSet R.FLC_STAT F.FLC_STAT_ERR_F = true ∧ t.flc.info = s.flc.info ∧ t.flc.run =
  none ∧ t.flc.words = s.flc.words)) ∧
  (∀ (s : State) (n : Fin 9) (r : FlcRun) (p : Nat) (data : List Word), s.flc.run = some r → r.op = .program p data →
  r.loader = none → (arrBase r.arr + r.blk * blkSize r.arr + 256 * p) % 4 = 0 → Gives (.programComplete n) s (fun t =>
  t.getF R.FLC_STAT F.FLC_STAT_STATUS = 0 ∧ t.getF R.FLC_STAT F.FLC_STAT_REASON = 0 ∧ t.isSet R.FLC_STAT F.FLC_STAT_DONE_F
  = true ∧ t.flc.run = none ∧ (∀ k < data.length, some (t.flashWord (arrBase r.arr + r.blk * blkSize r.arr + 256 * p + 4 *
  k)) = data[k]?) ∧ (t.blk r.arr r.blk).maxRetry = max (s.blk r.arr r.blk).maxRetry n.val ∧ (∀ a k, blkKey a k ≠ blkKey
  r.arr r.blk → t.blk a k = s.blk a k) ∧ t.cells = s.cells)) ∧
  (∀ (s : State) (x : Access) (key : BitVec 16) (b : BlkSel) (r : FlcRun), s.reaches x R.FLC_CMD = true → key = 0xF1A5 → b
  = selOf (s.reg R.FLC_BSEL) → blkOk b.arr b.blk = true → s.flc.run = some r → r.op = .erase → r.arr = b.arr → Gives
  (.suspend x key) s (fun t => t.getF R.FLC_STAT F.FLC_STAT_STATUS = 0 ∧ t.getF R.FLC_STAT F.FLC_STAT_REASON = 0 ∧ t.isSet
  R.FLC_STAT F.FLC_STAT_DONE_F = true ∧ t.flc.run = none ∧ (t.blk r.arr r.blk).suspended = true ∧ (t.blk r.arr r.blk).flag
  = (s.blk r.arr r.blk).flag ∧ t.flc.susp.toList[r.arr]? = some (some r.blk) ∧ (∀ a k, blkKey a k ≠ blkKey r.arr r.blk →
  t.blk a k = s.blk a k) ∧ t.cells = s.cells)) ∧
  (∀ (s : State) (x : Access) (key : BitVec 16) (b : BlkSel), s.reaches x R.FLC_CMD = true → key = 0xF1A5 → b = selOf
  (s.reg R.FLC_BSEL) → blkOk b.arr b.blk = true → s.flc.run = none → Gives (.suspend x key) s (fun t => t.getF R.FLC_STAT
  F.FLC_STAT_STATUS = 2 ∧ t.getF R.FLC_STAT F.FLC_STAT_REASON = 6 ∧ t.isSet R.FLC_STAT F.FLC_STAT_DONE_F = true ∧ t.isSet
  R.FLC_STAT F.FLC_STAT_ERR_F = true ∧ t.flc.info = s.flc.info ∧ t.flc.run = none)) ∧
  (∀ (s : State) (x : Access) (key : BitVec 16) (b : BlkSel), s.reaches x R.FLC_CMD = true → key = 0xF1A5 → b = selOf
  (s.reg R.FLC_BSEL) → blkOk b.arr b.blk = false → Gives (.suspend x key) s (fun t => t.getF R.FLC_STAT F.FLC_STAT_STATUS =
  5 ∧ t.getF R.FLC_STAT F.FLC_STAT_REASON = 0 ∧ t.isSet R.FLC_STAT F.FLC_STAT_DONE_F = true ∧ t.isSet R.FLC_STAT
  F.FLC_STAT_ERR_F = true ∧ t.flc.run = s.flc.run ∧ t.flc.words = s.flc.words)) ∧
  (∀ (s : State) (x : Access) (key : BitVec 16) (b : BlkSel) (k : Nat), s.reaches x R.FLC_CMD = true → key = 0xF1A5 → b =
  selOf (s.reg R.FLC_BSEL) → blkOk b.arr b.blk = true → s.flc.run = none → s.flc.susp.toList[b.arr]? = some (some k) →
  Gives (.flashResume x key) s (fun t => t.getF R.FLC_STAT F.FLC_STAT_STATUS = 0 ∧ t.getF R.FLC_STAT F.FLC_STAT_REASON = 0
  ∧ t.isSet R.FLC_STAT F.FLC_STAT_DONE_F = true ∧ t.flc.run = some ⟨.erase, b.arr, k, false, none⟩ ∧ (t.blk b.arr
  k).suspended = false ∧ (t.blk b.arr k).cnt = (s.blk b.arr k).cnt ∧ t.cells = s.cells)) ∧
  (∀ (s : State) (x : Access) (key : BitVec 16) (b : BlkSel), s.reaches x R.FLC_CMD = true → key = 0xF1A5 → b = selOf
  (s.reg R.FLC_BSEL) → s.flc.run = none → blkOk b.arr b.blk = true → b.mode ≠ 3 → (s.blk b.arr b.blk).suspended = false →
  Gives (.marginCheck x key) s (fun t => t.flc.run = some ⟨.margin, b.arr, b.blk, false, none⟩ ∧ t.flc.info = s.flc.info ∧
  t.flc.words = s.flc.words ∧ t.cells = s.cells)) ∧
  (∀ (s : State) (m : BitVec 16) (r : FlcRun), s.flc.run = some r → r.op = .margin → Gives (.marginCheckComplete m) s (fun
  t => t.getF R.FLC_STAT F.FLC_STAT_RESULT = m.toNat ∧ (t.getF R.FLC_STAT F.FLC_STAT_STATUS = if m = 0 then 0 else 6) ∧
  t.isSet R.FLC_STAT F.FLC_STAT_DONE_F = true ∧ t.flc.run = none ∧ t.flc.words = s.flc.words ∧ t.cells = s.cells)) ∧
  (∀ (s : State) (a : Fin 3) (r : FlcRun), s.flc.run = some r → r.op = .erase → r.arr = a.val → r.paused = false → s.isSet
  R.FLC_CTRL F.FLC_CTRL_AUTO_SUSP = true → Gives (.autoSuspend a) s (fun t => t = { s with flc := t.flc } ∧ t.flc.run =
  some ⟨.erase, r.arr, r.blk, true, r.loader⟩ ∧ (t.blk r.arr r.blk).suspended = true ∧ t.flc.words = s.flc.words)) ∧
  (∀ (s : State) (a : Fin 3) (r : FlcRun), s.flc.run = some r → r.arr = a.val → r.paused = true → Gives (.autoResume a) s
  (fun t => t = { s with flc := t.flc } ∧ t.flc.run = some ⟨r.op, r.arr, r.blk, false, r.loader⟩ ∧ (t.blk r.arr
  r.blk).suspended = false ∧ t.flc.words = s.flc.words)) ∧
  (∀ (s : State) (d : Bool) (a k : Nat), s.isSet R.FLC_SCRUB F.FLC_SCRUB_EN = true → s.mode ≠ mdStabled → s.flc.rewrite =
  none → s.scrubArr = some a → a < 3 → (s.flc.scrub.toList[a]?).getD 0 = k → d = true → s.readsWell a k = true → (s.blk a
  255).worn = false → Gives (.flashScrub d) s (fun t => t.flc.rewrite = some ⟨a, k, 1, false⟩ ∧ t.flc.turn = (a + 1) % 3 ∧
  t.flc.scrub.toList[a]? = some ((k + 1) % 255) ∧ (t.blk a 255).cnt = (s.blk a 255).cnt + 1 ∧ (t.blk a 255).flag = true ∧
  t.cells = s.cells)) ∧
  (∀ (s : State) (d : Bool), (s.isSet R.FLC_SCRUB F.FLC_SCRUB_EN = false ∨ s.mode = mdStabled ∨ s.flc.rewrite ≠ none ∨
  s.scrubArr = none) → Gives (.flashScrub d) s (fun t => t = s)) ∧
  (∀ (s : State) (d : Bool) (a k : Nat), s.isSet R.FLC_SCRUB F.FLC_SCRUB_EN = true → s.mode ≠ mdStabled → s.flc.rewrite =
  none → s.scrubArr = some a → a < 3 → (s.flc.scrub.toList[a]?).getD 0 = k → ((d = false ∧ (s.blk a k).decay = false) ∨
  s.readsWell a k = false ∨ (s.blk a 255).worn = true) → Gives (.flashScrub d) s (fun t => t.flc.rewrite = none ∧
  t.flc.turn = (a + 1) % 3 ∧ t.flc.scrub.toList[a]? = some ((k + 1) % 255) ∧ t.flc.info = s.flc.info ∧ t.flc.words =
  s.flc.words ∧ t.cells = s.cells)) ∧
  (∀ (s : State) (e : StepEnd) (w : Rewrite), s.flc.rewrite = some w → w.paused = false → w.arr < 3 → (∀ r, s.flc.run =
  some r → r.arr ≠ w.arr) → s.flc.susp.toList[w.arr]? = some none → s.mode ≠ mdStabled → w.stage = 1 → e.erase.pass = true
  → Gives (.scrubRewriteComplete 0 e) s (fun t => t.flc.rewrite = some { w with stage := 2 } ∧ (t.blk w.arr 255).flag =
  false ∧ t.isSet R.FLC_STAT F.FLC_STAT_SCRUB_F = s.isSet R.FLC_STAT F.FLC_STAT_SCRUB_F ∧ t.cells = s.cells)) ∧
  (∀ (s : State) (e : StepEnd) (w : Rewrite), s.flc.rewrite = some w → w.paused = false → w.arr < 3 → (∀ r, s.flc.run =
  some r → r.arr ≠ w.arr) → s.flc.susp.toList[w.arr]? = some none → s.mode ≠ mdStabled → w.stage = 1 → e.erase.pass = false
  → Gives (.scrubRewriteComplete 0 e) s (fun t => t.flc.rewrite = none ∧ (t.blk w.arr 255).worn = true ∧ t.flc.words =
  s.flc.words ∧ t.cells = s.cells)) ∧
  (∀ (s : State) (e : StepEnd) (w : Rewrite), s.flc.rewrite = some w → w.paused = false → w.arr < 3 → (∀ r, s.flc.run =
  some r → r.arr ≠ w.arr) → s.flc.susp.toList[w.arr]? = some none → s.mode ≠ mdStabled → w.stage = 2 → w.blk < 255 → Gives
  (.scrubRewriteComplete 1 e) s (fun t => t.flc.rewrite = some { w with stage := 3 } ∧ (t.blk w.arr w.blk).flag = true ∧
  (t.blk w.arr w.blk).cnt = (s.blk w.arr w.blk).cnt + 1 ∧ (t.blk w.arr 255).maxRetry = max (s.blk w.arr 255).maxRetry
  e.retries.val ∧ t.cells = s.cells)) ∧
  (∀ (s : State) (e : StepEnd) (w : Rewrite), s.flc.rewrite = some w → w.paused = false → w.arr < 3 → (∀ r, s.flc.run =
  some r → r.arr ≠ w.arr) → s.flc.susp.toList[w.arr]? = some none → s.mode ≠ mdStabled → w.stage = 3 → w.blk < 255 →
  e.erase.pass = true → Gives (.scrubRewriteComplete 2 e) s (fun t => t.flc.rewrite = some { w with stage := 4 } ∧ (t.blk
  w.arr w.blk).flag = false ∧ (∀ k < blkSize w.arr, t.flashWord (arrBase w.arr + w.blk * blkSize w.arr + k) = 0xFFFFFFFF) ∧
  t.cells = s.cells)) ∧
  (∀ (s : State) (e : StepEnd) (w : Rewrite), s.flc.rewrite = some w → w.paused = false → w.arr < 3 → (∀ r, s.flc.run =
  some r → r.arr ≠ w.arr) → s.flc.susp.toList[w.arr]? = some none → s.mode ≠ mdStabled → w.stage = 4 → Gives
  (.scrubRewriteComplete 3 e) s (fun t => t.flc.rewrite = none ∧ t.isSet R.FLC_STAT F.FLC_STAT_SCRUB_F = true ∧ (t.blk
  w.arr w.blk).prog = (s.blk w.arr 255).prog ∧ t.flc.run = s.flc.run ∧ t.cells = s.cells)) ∧
  (∀ (s : State) (k : Fin 4) (e : StepEnd) (w : Rewrite), s.flc.rewrite = some w → (w.stage ≠ k.val + 1 ∨ w.paused = true ∨
  s.mode = mdStabled ∨ s.flc.run.map (·.arr) = some w.arr) → Gives (.scrubRewriteComplete k e) s (fun t => t = s)) ∧
  (∀ (s : State) (can : Bool) (a : Fin 4) (k : BitVec 8), s.bootStopped = true → s.retired = false → s.flc.run = none →
  blkOk a k.toNat = true → s.flcBars a k.toNat none = 0 → Gives (.loaderErase can a k) s (fun t => t.flc.run = some
  ⟨.erase, a, k.toNat, false, some can⟩ ∧ (t.blk a k.toNat).flag = true ∧ (t.blk a k.toNat).cnt = (s.blk a k.toNat).cnt + 1
  ∧ t.flc.words = s.flc.words)) ∧
  (∀ (s : State) (can : Bool) (a : Fin 4) (k p : BitVec 8) (data : Vector Word 64), s.bootStopped = true → s.retired =
  false → s.flc.run = none → blkOk a k.toNat = true → p.toNat < arrPages a → s.flcBars a k.toNat (some p.toNat) = 0 → Gives
  (.loaderWrite can a k p data) s (fun t => t.flc.run = some ⟨.program p.toNat data.toList, a, k.toNat, false, some can⟩ ∧
  t.flc.words = s.flc.words)) ∧
  (∀ (s : State) (can : Bool) (k : Fin 2) (id : BitVec 11), s.bootStopped = true → s.retired = false → (can = true → id =
  0x6B0) → s.arrBusy k = false → Gives (.loaderCheck can k id) s (fun t => (t.outs.getLast? = some (.loader can 3 (if
  s.imageFail k = 0 then 0 else 6) (s.imageFail k))) ∧ t.flc.words = s.flc.words ∧ t.flc.run = s.flc.run ∧ (s.imageFail k ≠
  0 → t.getF R.SEC_BOOT F.SEC_BOOT_FAIL = s.imageFail k))) ∧
  (∀ (s : State) (can : Bool) (k : Fin 2) (id : BitVec 11), (s.bootStopped = false ∨ (can = true ∧ id ≠ 0x6B0)) → Gives
  (.loaderCheck can k id) s (fun t => t = s)) ∧
  (∀ (s : State) (can : Bool) (k : Fin 2) (id : BitVec 11), s.bootStopped = true → s.retired = false → (can = true → id =
  0x6B0) → s.arrBusy k = true → Gives (.loaderCheck can k id) s (fun t => t = s.emit (.loader can 3 1 0))) ∧
  (∀ (s : State) (can : Bool) (b : BootTests), s.bootStopped = true → s.retired = true → Gives (.loaderRestart can b) s
  (fun t => t = s.emit (.loader can 4 2 0))) ∧
  (∀ (s : State) (can : Bool) (b : BootTests), s.bootStopped = true → s.retired = false → Gives (.loaderRestart can b) s
  (fun t => t = ((s.emit (.loader can 4 0 0)).powerOn true).coldStart b ∧ t.part = s.part ∧ t.flc.run = none))

/-- Flash passwords, locks and the next bank. Follows: R420, R421, R422, R24, 24_flash.md. Beside the rules it rests on
these choices of the model: logs 78, 79, 195. -/
def Obligations.FlashProtection : Prop :=
  (∀ (s : State) (x : Access) (v : Word), s.reaches x R.FLC_PW_LO = true → Gives (.flcPwLo x v) s (fun t => t = s.setFlc
  { s.flc with stage := .low v })) ∧
  (∀ (s : State) (x : Access) (v lo : Word), s.reaches x R.FLC_PW_HI = true → s.flc.stage = .low lo → Gives (.flcPwHi x v)
  s (fun t => t = s.setFlc { s.flc with stage := .full lo v })) ∧
  (∀ (s : State) (x : Access) (v : Word), s.reaches x R.FLC_PW_HI = true → s.flc.stage = .none → Gives (.flcPwHi x v) s
  (fun t => t.flc = s.flc ∧ t.reg R.FLC_REJ = BitVec.ofNat 32 (min 4294967295 ((s.reg R.FLC_REJ).toNat + 1)) ∧ t.cells =
  s.cells)) ∧
  (∀ (s : State) (x : Access) (key : BitVec 16) (b : BlkSel) (lo hi : Word), s.reaches x R.FLC_CMD = true → key = 0xF1A5 →
  b = selOf (s.reg R.FLC_BSEL) → s.flc.run = none → s.flc.stage = .full lo hi → s.regionOpen b.region = true → b.region < 8
  → lo ≠ 0xFFFFFFFF → Gives (.setPw x key) s (fun t => t.getF R.FLC_STAT F.FLC_STAT_STATUS = 0 ∧ t.getF R.FLC_STAT
  F.FLC_STAT_REASON = 0 ∧ t.isSet R.FLC_STAT F.FLC_STAT_DONE_F = true ∧ t.isSet (R.FLC_REGION b.region) F.FLC_REGION_PROT =
  true ∧ t.flc.pw.toList[b.region]? = some (hi ++ lo) ∧ t.flc.stage = .none ∧ t.flc.words = s.flc.words ∧ t.cells =
  s.cells)) ∧
  (∀ (s : State) (x : Access) (key : BitVec 16) (b : BlkSel) (lo hi : Word), s.reaches x R.FLC_CMD = true → key = 0xF1A5 →
  b = selOf (s.reg R.FLC_BSEL) → s.flc.run = none → s.flc.stage = .full lo hi → s.regionOpen b.region = false → Gives
  (.setPw x key) s (fun t => t.getF R.FLC_STAT F.FLC_STAT_STATUS = 2 ∧ t.getF R.FLC_STAT F.FLC_STAT_REASON = 2 ∧ t.isSet
  R.FLC_STAT F.FLC_STAT_DONE_F = true ∧ t.isSet R.FLC_STAT F.FLC_STAT_ERR_F = true ∧ t.flc.pw = s.flc.pw ∧ t.reg
  (R.FLC_REGION b.region) = s.reg (R.FLC_REGION b.region))) ∧
  (∀ (s : State) (x : Access) (key : BitVec 16) (b : BlkSel) (lo hi : Word), s.reaches x R.FLC_CMD = true → key = 0xF1A5 →
  b = selOf (s.reg R.FLC_BSEL) → s.flc.run = none → b.region < 8 → s.isSet (R.FLC_REGION b.region) F.FLC_REGION_PROT = true
  → s.flc.stage = .full lo hi → s.isSet (R.FLC_REGION b.region) F.FLC_REGION_LOCKED_OUT = false →
  s.flc.pw.toList[b.region]? = some (hi ++ lo) → Gives (.unlock x key) s (fun t => t.getF R.FLC_STAT F.FLC_STAT_STATUS = 0
  ∧ t.getF R.FLC_STAT F.FLC_STAT_REASON = 0 ∧ t.isSet R.FLC_STAT F.FLC_STAT_DONE_F = true ∧ t.isSet (R.FLC_REGION b.region)
  F.FLC_REGION_UNLOCKED = true ∧ t.flc.stage = .none ∧ t.flc.pw = s.flc.pw)) ∧
  (∀ (s : State) (x : Access) (key : BitVec 16) (b : BlkSel) (lo hi : Word), s.reaches x R.FLC_CMD = true → key = 0xF1A5 →
  b = selOf (s.reg R.FLC_BSEL) → s.flc.run = none → b.region < 8 → s.isSet (R.FLC_REGION b.region) F.FLC_REGION_PROT = true
  → s.flc.stage = .full lo hi → s.isSet (R.FLC_REGION b.region) F.FLC_REGION_LOCKED_OUT = false →
  s.flc.pw.toList[b.region]? ≠ some (hi ++ lo) → s.getF (R.FLC_REGION b.region) F.FLC_REGION_FAILS = 2 → Gives (.unlock x
  key) s (fun t => t.getF R.FLC_STAT F.FLC_STAT_STATUS = 2 ∧ t.getF R.FLC_STAT F.FLC_STAT_REASON = 2 ∧ t.isSet R.FLC_STAT
  F.FLC_STAT_DONE_F = true ∧ t.isSet R.FLC_STAT F.FLC_STAT_ERR_F = true ∧ t.isSet (R.FLC_REGION b.region)
  F.FLC_REGION_LOCKED_OUT = true ∧ t.getF (R.FLC_REGION b.region) F.FLC_REGION_FAILS = 3 ∧ t.isSet (R.FLC_REGION b.region)
  F.FLC_REGION_UNLOCKED = s.isSet (R.FLC_REGION b.region) F.FLC_REGION_UNLOCKED)) ∧
  (∀ (s : State) (x : Access) (key : BitVec 16) (b : BlkSel), s.reaches x R.FLC_CMD = true → key = 0xF1A5 → b = selOf
  (s.reg R.FLC_BSEL) → s.flc.run = none → b.region < 8 → Gives (.flashLock x key) s (fun t => t.getF R.FLC_STAT
  F.FLC_STAT_STATUS = 0 ∧ t.getF R.FLC_STAT F.FLC_STAT_REASON = 0 ∧ t.isSet R.FLC_STAT F.FLC_STAT_DONE_F = true ∧ t.isSet
  (R.FLC_REGION b.region) F.FLC_REGION_UNLOCKED = false ∧ t.isSet (R.FLC_REGION b.region) F.FLC_REGION_PROT = s.isSet
  (R.FLC_REGION b.region) F.FLC_REGION_PROT ∧ t.flc.pw = s.flc.pw)) ∧
  (∀ (s : State) (x : Access) (key : BitVec 16) (b : BlkSel), s.reaches x R.FLC_CMD = true → key = 0xF1A5 → b = selOf
  (s.reg R.FLC_BSEL) → s.flc.run = none → 1 < b.arr → Gives (.setNext x key) s (fun t => t.getF R.FLC_STAT
  F.FLC_STAT_STATUS = 5 ∧ t.getF R.FLC_STAT F.FLC_STAT_REASON = 0 ∧ t.isSet R.FLC_STAT F.FLC_STAT_DONE_F = true ∧ t.isSet
  R.FLC_STAT F.FLC_STAT_ERR_F = true ∧ t.reg R.FLC_BANK = s.reg R.FLC_BANK ∧ t.flc.words = s.flc.words ∧ t.cells =
  s.cells)) ∧
  (∀ (s : State) (x : Access) (key : BitVec 16) (b : BlkSel), s.reaches x R.FLC_CMD = true → key = 0xF1A5 → b = selOf
  (s.reg R.FLC_BSEL) → s.flc.run = none → b.arr ≤ 1 → s.imageFail b.arr ≠ 0 → Gives (.setNext x key) s (fun t => t.getF
  R.FLC_STAT F.FLC_STAT_STATUS = 6 ∧ t.getF R.FLC_STAT F.FLC_STAT_REASON = 0 ∧ t.isSet R.FLC_STAT F.FLC_STAT_DONE_F = true
  ∧ t.isSet R.FLC_STAT F.FLC_STAT_ERR_F = true ∧ t.reg R.FLC_BANK = s.reg R.FLC_BANK ∧ t.getF R.SEC_BOOT F.SEC_BOOT_FAIL =
  s.imageFail b.arr ∧ t.flc.words = s.flc.words ∧ t.cells = s.cells)) ∧
  (∀ (s : State) (x : Access) (key : BitVec 16) (b : BlkSel), s.reaches x R.FLC_CMD = true → key = 0xF1A5 → b = selOf
  (s.reg R.FLC_BSEL) → s.flc.run = none → b.arr ≤ 1 → s.imageFail b.arr = 0 → Gives (.setNext x key) s (fun t => t.getF
  R.FLC_STAT F.FLC_STAT_STATUS = 0 ∧ t.getF R.FLC_STAT F.FLC_STAT_REASON = 0 ∧ t.isSet R.FLC_STAT F.FLC_STAT_DONE_F = true
  ∧ t.getF R.FLC_BANK F.FLC_BANK_NEXT = b.arr ∧ t.isSet R.FLC_BANK F.FLC_BANK_PEND = decide (b.arr ≠ s.getF R.FLC_BANK
  F.FLC_BANK_ACTIVE) ∧ t.getF R.FLC_BANK F.FLC_BANK_ACTIVE = s.getF R.FLC_BANK F.FLC_BANK_ACTIVE ∧ (∀ n : Slice, s.fitted n
  = true → t.isSet (R.SLC_STATE n) F.SLC_STATE_BANK_PENDING = true) ∧ (∀ n : Slice, t.slState n = s.slState n) ∧
  t.sec.images.toList[b.arr]? = some (some (sha256 (s.imgBytes b.arr 0 (s.imgWord b.arr 4)))) ∧ t.flc.words = s.flc.words ∧
  t.flc.run = none ∧ t.cells = s.cells))

/-- Supply, fold-back, clocks, alarm and temperature. Follows: R428, R429, R430, R431, R433, R435, R437, R447, R493,
25_power_clocks_and_sleep.md. Where a clause concludes t = s for an event that cannot happen, that is the model's choice
(log 2). Beside the rules it rests on these choices of the model: logs 38, 152, 198. -/
def Obligations.SupplyAndClocks : Prop :=
  (∀ (s : State) (vin : BitVec 16), s.isSet R.PWR_STAT F.PWR_STAT_INPUT_OK = true → s.isSet R.TWN_CFG F.TWN_CFG_PF_HO =
  false → vin.toNat < 2300 → Gives (.inputLoss vin) s (fun t => t.getF R.PWR_VIN F.PWR_VIN_VIN = vin.toNat ∧ t.isSet
  R.PWR_STAT F.PWR_STAT_INPUT_OK = false ∧ t.isSet R.PWR_STAT F.PWR_STAT_HOLDUP_READY = false ∧ t.isSet R.PWR_STAT
  F.PWR_STAT_ON_HOLDUP = true ∧ t.isSet R.PWR_STAT F.PWR_STAT_FAIL_F = true ∧ t.reg R.PWR_FAIL_CNT = BitVec.ofNat 32 (min
  4294967295 ((s.reg R.PWR_FAIL_CNT).toNat + 1)) ∧ t.sec.event = true ∧ (s.mode ≠ mdStabled → s.evtDelay 32 = 0 →
  t.evr.taps = s.evr.taps ++ [(32, s.clock, s.mtime)]) ∧ t.cells = s.cells)) ∧
  (∀ (s : State) (vin : BitVec 16), (s.isSet R.PWR_STAT F.PWR_STAT_INPUT_OK = false ∨ 2300 ≤ vin.toNat) → Gives (.inputLoss
  vin) s (fun t => t = s)) ∧
  (∀ (s : State), s.isSet R.PWR_STAT F.PWR_STAT_ON_HOLDUP = true → s.isSet R.PWR_STAT F.PWR_STAT_HOLDUP_LOW = false → Gives
  (.holdupLow) s (fun t => t.isSet R.PWR_STAT F.PWR_STAT_HOLDUP_LOW = true ∧ t.isSet R.PWR_STAT F.PWR_STAT_LOW_F = true ∧
  (∀ n : Slice, s.fitted n = true → t.armed n = false) ∧ t.cells = s.cells)) ∧
  (∀ (s : State), (s.isSet R.PWR_STAT F.PWR_STAT_ON_HOLDUP = false ∨ s.isSet R.PWR_STAT F.PWR_STAT_HOLDUP_LOW = true) →
  Gives (.holdupLow) s (fun t => t = s)) ∧
  (∀ (s : State), s.isSet R.PWR_STAT F.PWR_STAT_HOLDUP_LOW = true → Gives (.holdupShutdown) s (fun t => t.mode = mdStart ∧
  t.part = s.part ∧ t.flc.words = s.flc.words ∧ t.flc.pw = s.flc.pw ∧ t.sec.keys = s.sec.keys ∧ t.reg R.SEC_MINVER = s.reg
  R.SEC_MINVER ∧ t.reg R.SEC_KEYSTAT = s.reg R.SEC_KEYSTAT ∧ t.cells = [] ∧ t.core = State.reset.core)) ∧
  (∀ (s : State), s.isSet R.PWR_STAT F.PWR_STAT_HOLDUP_LOW = false → Gives (.holdupShutdown) s (fun t => t = s)) ∧
  (∀ (s : State) (vin : BitVec 16), s.isSet R.PWR_STAT F.PWR_STAT_INPUT_OK = false → s.isSet R.PWR_STAT
  F.PWR_STAT_ON_HOLDUP = true → s.isSet R.PWR_STAT F.PWR_STAT_HOLDUP_LOW = false → 2500 < vin.toNat → Gives (.inputRestored
  vin) s (fun t => t.isSet R.PWR_STAT F.PWR_STAT_INPUT_OK = true ∧ t.isSet R.PWR_STAT F.PWR_STAT_ON_HOLDUP = false ∧ t.getF
  R.PWR_VIN F.PWR_VIN_VIN = vin.toNat ∧ t.isSet R.PWR_STAT F.PWR_STAT_OV = decide (15400 < vin.toNat) ∧ (s.mode ≠ mdStabled
  → s.evtDelay 34 = 0 → t.evr.taps = s.evr.taps ++ [(34, s.clock, s.mtime)]) ∧ t.cells = s.cells)) ∧
  (∀ (s : State) (vin : BitVec 16), (s.isSet R.PWR_STAT F.PWR_STAT_INPUT_OK = true ∨ vin.toNat ≤ 2500) → Gives
  (.inputRestored vin) s (fun t => t = s)) ∧
  (∀ (s : State), (s.isSet R.PWR_STAT F.PWR_STAT_INPUT_OK = false ∨ s.isSet R.PWR_STAT F.PWR_STAT_HOLDUP_LOW = true) →
  Gives (.holdupReady) s (fun t => t = s)) ∧
  (∀ (s : State), s.isSet R.PWR_STAT F.PWR_STAT_INPUT_OK = true → s.isSet R.PWR_STAT F.PWR_STAT_HOLDUP_LOW = false → (∀ n :
  Slice, s.armPend n = false) → Gives (.holdupReady) s (fun t => t.isSet R.PWR_STAT F.PWR_STAT_HOLDUP_READY = true ∧ t =
  { s with regs := t.regs } ∧ s.RegsKept t (· == R.PWR_STAT))) ∧
  (∀ (s : State) (vin : BitVec 16), Gives (.overvoltage vin) s (fun t => t.getF R.PWR_VIN F.PWR_VIN_VIN = vin.toNat ∧
  t.isSet R.PWR_STAT F.PWR_STAT_OV = decide (15400 < vin.toNat) ∧ (15400 < vin.toNat → t.isSet R.PWR_STAT F.PWR_STAT_OV_F =
  true) ∧ t = { s with regs := t.regs } ∧ (s.RegsKept t (fun a => a == R.PWR_STAT || a == R.PWR_VIN)))) ∧
  (∀ (s : State) (j : Fin 6) (pin : Fin 512), s.elDriven j.val pin.val = true → s.pwr.fold.contains (j.val, pin.val) =
  false → Gives (.elFoldback j pin) s (fun t => t.getF R.PWR_EL_STAT F.PWR_EL_STAT_COUNT = min 65535 (s.getF R.PWR_EL_STAT
  F.PWR_EL_STAT_COUNT + 1) ∧ t.getF R.PWR_EL_STAT F.PWR_EL_STAT_CONN = connCode j ∧ t.getF R.PWR_EL_STAT F.PWR_EL_STAT_PIN
  = pin.val ∧ t.isSet R.PWR_STAT F.PWR_STAT_EL_F = true ∧ t.pwr.fold = s.pwr.fold ++ [(j.val, pin.val)] ∧ (∀ (n : Slice) (k
  : Fin 8) (b : Bool), pwmPin n k b = (j.val, pin.val) → t.padLevel n k b = none) ∧ t.cells = s.cells)) ∧
  (∀ (s : State) (j : Fin 6) (pin : Fin 512), (s.elDriven j.val pin.val = false ∨ s.pwr.fold.contains (j.val, pin.val) =
  true) → Gives (.elFoldback j pin) s (fun t => t = s)) ∧
  (∀ (s : State) (j : Fin 6) (pin : Fin 512), Gives (.elFoldbackRetry j pin) s (fun t => t.pwr.fold.contains (j.val,
  pin.val) = false ∧ (∀ (n : Slice) (k : Fin 8) (b : Bool), pwmPin n k b = (j.val, pin.val) → t.padLevel n k b = if
  s.pwr.rails && s.fitted n then some (if b then s.pinB n k else s.pinA n k) else none) ∧ t = { s with pwr := t.pwr })) ∧
  (∀ (s : State) (k : Fin 7), s.clockAsked k = true → Gives (.clockLock k) s (fun t => t.isSet R.PWR_CLK ⟨k.val, 1⟩ = true
  ∧ t = { s with regs := t.regs } ∧ s.RegsKept t (· == R.PWR_CLK))) ∧
  (∀ (s : State) (k : Fin 7), s.clockAsked k = false → Gives (.clockLock k) s (fun t => t = s)) ∧
  (∀ (s : State), s.mode ≠ mdStabled → natBit s.tamperEn 3 = false → Gives (.clockGlitch) s (fun t => (∀ n : Slice,
  s.fitted n = true → t.armed n = false) ∧ t.cells = s.cells)) ∧
  (∀ (s : State), s.mode = mdStabled → Gives (.clockGlitch) s (fun t => t = s)) ∧
  (∀ (s : State), s.mode ≠ mdStabled → s.evtDelay 36 = 0 → s.alarmLevel = true → s.evr.filt.contains 36 = false → s.getF
  (srcAddr 36) F.EVR_SRC_SENSE = 0 → Gives (.rtcAlarm) s (fun t => t.evr.filt = s.evr.filt ++ [36] ∧ t.evr.taps =
  s.evr.taps ++ [(36, s.clock, s.mtime)] ∧ t.cells = s.cells)) ∧
  (∀ (s : State), (s.alarmLevel = s.evr.filt.contains 36 ∨ s.mode = mdStabled) → Gives (.rtcAlarm) s (fun t => t = s)) ∧
  (∀ (s : State) (ok : Bool), Gives (.xtalOkChange ok) s (fun t => t.isSet R.AON_CLK F.AON_CLK_XTAL_OK = ok ∧ (s.clockAsked
  6 = true → ok = false → t.clockOn 6 = false) ∧ t = { s with regs := t.regs } ∧ (s.RegsKept t (fun a => a == R.AON_CLK ||
  a == R.PWR_CLK)))) ∧
  (∀ (s : State) (base die : BitVec 8), Gives (.temperatureUpdate base die) s (fun t => t.getF R.PWR_TEMP F.PWR_TEMP_BASE =
  base.toNat ∧ t.getF R.PWR_TEMP F.PWR_TEMP_DIE = die.toNat ∧ t.isSet R.PWR_TEMP F.PWR_TEMP_HOT = decide (90 < base.toInt)
  ∧ (90 < base.toInt → t.isSet R.PWR_TEMP F.PWR_TEMP_HOT_F = true) ∧ t = { s with regs := t.regs } ∧ s.RegsKept t (· ==
  R.PWR_TEMP)))

/-- Watchdogs: service, restart and expiry. Follows: R441, R442, R443, 25_power_clocks_and_sleep.md. Beside the rules it
rests on these choices of the model: logs 125, 147. -/
def Obligations.Watchdogs : Prop :=
  (∀ (s : State) (x : Access) (e : Fin 13) (key : BitVec 16), s.reaches x (R.WDG_SVC e) = true → ((wdgSlice e).elim (x.m ==
  .sys) (fun n => x.m == .core n) = true) → s.wdgRuns e = true → (key.toNat = (if s.isSet (R.WDG_STAT e) F.WDG_STAT_EXPECT
  then 0xC369 else 0x3C96)) → (s.wdgFirst.get e = true ∨ s.getF (R.WDG_LOWER e) F.WDG_LOWER_US ≤ s.getF (R.WDG_CNT e)
  F.WDG_CNT_US) → s.getF (R.WDG_CNT e) F.WDG_CNT_US < s.getF (R.WDG_PERIOD e) F.WDG_PERIOD_US → Gives (.wdgService x e key)
  s (fun t => t.getF (R.WDG_CNT e) F.WDG_CNT_US = 0 ∧ t.isSet (R.WDG_STAT e) F.WDG_STAT_EXPECT = !s.isSet (R.WDG_STAT e)
  F.WDG_STAT_EXPECT ∧ t.isSet (R.WDG_STAT e) F.WDG_STAT_EXPIRED = s.isSet (R.WDG_STAT e) F.WDG_STAT_EXPIRED ∧ t.wdgRuns e =
  true ∧ t.wdgFirst.get e = false ∧ t = { s with regs := t.regs, wdgFirst := t.wdgFirst } ∧ (s.RegsKept t (fun a => a ==
  R.WDG_CNT e || a == R.WDG_STAT e)))) ∧
  (∀ (s : State) (x : Access) (e : Fin 13) (key : BitVec 16), s.reaches x (R.WDG_SVC e) = true → ((wdgSlice e).elim (x.m ==
  .sys) (fun n => x.m == .core n) = true) → s.wdgRuns e = true → e.val < 12 → s.isSet (R.WDG_CTRL e) F.WDG_CTRL_ACT = false
  → (key.toNat ≠ (if s.isSet (R.WDG_STAT e) F.WDG_STAT_EXPECT then 0xC369 else 0x3C96)) → key ≠ 0x5E7A → Gives (.wdgService
  x e key) s (fun t => t.isSet (R.WDG_STAT e) F.WDG_STAT_EXPIRED = true ∧ t.isSet (R.WDG_STAT e) F.WDG_STAT_KEY_F = true ∧
  t.getF (R.WDG_CNT e) F.WDG_CNT_US = s.getF (R.WDG_CNT e) F.WDG_CNT_US ∧ (∀ n : Slice, t.slState n = s.slState n) ∧
  t.cells = s.cells)) ∧
  (∀ (s : State) (x : Access) (e : Fin 13) (key : BitVec 16), s.reaches x (R.WDG_SVC e) = true → ((wdgSlice e).elim (x.m ==
  .sys) (fun n => x.m == .core n) = true) → s.wdgRuns e = true → e.val < 12 → s.isSet (R.WDG_CTRL e) F.WDG_CTRL_ACT = false
  → (key.toNat = (if s.isSet (R.WDG_STAT e) F.WDG_STAT_EXPECT then 0xC369 else 0x3C96)) → s.wdgFirst.get e = false → s.getF
  (R.WDG_CNT e) F.WDG_CNT_US < s.getF (R.WDG_LOWER e) F.WDG_LOWER_US → Gives (.wdgService x e key) s (fun t => t.isSet
  (R.WDG_STAT e) F.WDG_STAT_EXPIRED = true ∧ t.isSet (R.WDG_STAT e) F.WDG_STAT_EARLY_F = true ∧ t.cells = s.cells)) ∧
  (∀ (s : State) (x : Access) (e : Fin 13) (coll : Bool), s.reaches x (R.WDG_SVC e) = true → ((wdgSlice e).elim (x.m ==
  .sys) (fun n => x.m == .core n) = true ∨ (wdgSlice e).elim x.m.isSys (fun n => s.ownerIs n x.m) = true) → s.isSet
  (R.WDG_CTRL e) F.WDG_CTRL_EN = true → s.wdgMayRun e = true → Gives (.wdgRestart x e coll) s (fun t => t.isSet (R.WDG_STAT
  e) F.WDG_STAT_EXPIRED = false ∧ t.wdgRuns e = true ∧ t.getF (R.WDG_CNT e) F.WDG_CNT_US = 0 ∧ t.isSet (R.WDG_STAT e)
  F.WDG_STAT_EXPECT = false ∧ t.wdgFirst.get e = true ∧ (t.getF (R.WDG_REJ e) F.WDG_REJ_COUNT = if coll then min
  F.WDG_REJ_COUNT.top (s.getF (R.WDG_REJ e) F.WDG_REJ_COUNT + 1) else s.getF (R.WDG_REJ e) F.WDG_REJ_COUNT) ∧ t =
  { s with regs := t.regs, wdgFirst := t.wdgFirst })) ∧
  (∀ (s : State) (x : Access) (e : Fin 13) (key : BitVec 16), s.reaches x (R.WDG_SVC e) = true → ((wdgSlice e).elim (x.m ==
  .sys) (fun n => x.m == .core n) = false) → key ≠ 0x5E7A → Gives (.wdgService x e key) s (fun t => t.reg (R.WDG_STAT e) =
  s.reg (R.WDG_STAT e) ∧ t.reg (R.WDG_CNT e) = s.reg (R.WDG_CNT e) ∧ t.getF (R.WDG_REJ e) F.WDG_REJ_COUNT = min
  F.WDG_REJ_COUNT.top (s.getF (R.WDG_REJ e) F.WDG_REJ_COUNT + 1) ∧ t = { s with regs := t.regs })) ∧
  (∀ (s : State) (n : Slice) (e : Fin 13), e.val = n.val → s.wdgRuns e = true → s.fitted n = true → (s.slState n = slReady
  ∨ s.slState n = slRunning) → s.isSet (R.WDG_CTRL e) F.WDG_CTRL_ACT = true → (s.ctlOf n).fencing = false → Gives
  (.wdgExpire e) s (fun t => t.isSet (R.WDG_STAT e) F.WDG_STAT_EXPIRED = true ∧ t.isSet (R.WDG_STAT e) F.WDG_STAT_EXP_F =
  true ∧ t.slState n = slSafe ∧ t.isSet (R.SLC_FAULT n) F.SLC_FAULT_VALID = true ∧ t.getF (R.SLC_FAULT n) F.SLC_FAULT_CAUSE
  = 0x0B ∧ t.armed n = false)) ∧
  (∀ (s : State) (n : Slice) (e : Fin 13) (x : Access) (key : BitVec 16), e.val = n.val → s.wdgRuns e = true → s.fitted n =
  true → (s.slState n = slReady ∨ s.slState n = slRunning) → s.isSet (R.WDG_CTRL e) F.WDG_CTRL_ACT = true → (s.ctlOf
  n).fencing = false → s.reaches x (R.WDG_SVC e) = true → ((wdgSlice e).elim (x.m == .sys) (fun n => x.m == .core n) =
  true) → (key.toNat ≠ (if s.isSet (R.WDG_STAT e) F.WDG_STAT_EXPECT then 0xC369 else 0x3C96)) → key ≠ 0x5E7A → Gives
  (.wdgService x e key) s (fun t => t.isSet (R.WDG_STAT e) F.WDG_STAT_EXPIRED = true ∧ t.isSet (R.WDG_STAT e)
  F.WDG_STAT_KEY_F = true ∧ t.slState n = slSafe ∧ t.isSet (R.SLC_FAULT n) F.SLC_FAULT_VALID = true ∧ t.getF (R.SLC_FAULT
  n) F.SLC_FAULT_CAUSE = 0x0B ∧ t.armed n = false)) ∧
  (∀ (s : State) (e : Fin 13), s.wdgRuns e = true → e.val < 12 → s.isSet (R.WDG_CTRL e) F.WDG_CTRL_ACT = false → Gives
  (.wdgExpire e) s (fun t => t.isSet (R.WDG_STAT e) F.WDG_STAT_EXPIRED = true ∧ t.isSet (R.WDG_STAT e) F.WDG_STAT_EXP_F =
  true ∧ t.getF (R.WDG_CNT e) F.WDG_CNT_US = s.getF (R.WDG_PERIOD e) F.WDG_PERIOD_US ∧ t.cells = s.cells))

/-- Versions, keys, life cycle and tamper. Follows: R449, R452, R453, R454, R455, R456, R457, 26_security_and_lifecycle.md.
Where a clause concludes t = s for an event that cannot happen, that is the model's choice (log 2). Beside the rules it
rests on these choices of the model: logs 46, 182. -/
def Obligations.SecurityAndLifeCycle : Prop :=
  (∀ (s : State) (x : Access) (key : BitVec 16), s.reaches x R.SEC_CMD = true → secMaster x = true → key = 0x5EC0 → (s.reg
  R.SEC_MINVER).toNat < s.sec.version.toNat → Gives (.setMinver x key) s (fun t => t.reg R.SEC_MINVER = s.sec.version ∧ t =
  { s with regs := t.regs } ∧ s.RegsKept t (· == R.SEC_MINVER))) ∧
  (∀ (s : State) (x : Access) (key : BitVec 16), s.reaches x R.SEC_CMD = true → secMaster x = true → key = 0x5EC0 →
  s.sec.version.toNat ≤ (s.reg R.SEC_MINVER).toNat → Gives (.setMinver x key) s (fun t => t.reg R.SEC_MINVER = s.reg
  R.SEC_MINVER ∧ t.reg R.HIF_BADACC = BitVec.ofNat 32 (min 4294967295 ((s.reg R.HIF_BADACC).toNat + 1)) ∧ t.cells =
  s.cells)) ∧
  (∀ (s : State) (x : Access) (key : BitVec 16), s.reaches x R.SEC_CMD = true → (key ≠ 0x5EC0 ∨ secMaster x = false) →
  Gives (.setMinver x key) s (fun t => t.reg R.SEC_MINVER = s.reg R.SEC_MINVER ∧ t.reg R.HIF_BADACC = BitVec.ofNat 32 (min
  4294967295 ((s.reg R.HIF_BADACC).toNat + 1)) ∧ t.sec = s.sec ∧ t.cells = s.cells)) ∧
  (∀ (s : State) (x : Access) (key : BitVec 16) (k : Fin 4), s.reaches x R.SEC_CMD = true → secMaster x = true → key =
  0x5EC0 → k ≠ 0 → s.lc ≤ 1 → natBit (s.getF R.SEC_KEYSTAT F.SEC_KEYSTAT_WRITTEN) k = false → Gives (.writeKey x key k) s
  (fun t => t.sec.keys.toList[k.val - 1]? = some s.keyData ∧ natBit (t.getF R.SEC_KEYSTAT F.SEC_KEYSTAT_WRITTEN) k = true ∧
  t.getF R.SEC_KEYSTAT F.SEC_KEYSTAT_REVOKED = s.getF R.SEC_KEYSTAT F.SEC_KEYSTAT_REVOKED ∧ t =
  { s with regs := t.regs, sec := t.sec })) ∧
  (∀ (s : State) (x : Access) (key : BitVec 16) (k : Fin 4), s.reaches x R.SEC_CMD = true → secMaster x = true → key =
  0x5EC0 → (k = 0 ∨ 1 < s.lc ∨ natBit (s.getF R.SEC_KEYSTAT F.SEC_KEYSTAT_WRITTEN) k = true) → Gives (.writeKey x key k) s
  (fun t => t.sec = s.sec ∧ t.reg R.SEC_KEYSTAT = s.reg R.SEC_KEYSTAT ∧ t.reg R.HIF_BADACC = BitVec.ofNat 32 (min
  4294967295 ((s.reg R.HIF_BADACC).toNat + 1)))) ∧
  (∀ (s : State) (x : Access) (key : BitVec 16) (k : Fin 4), s.reaches x R.SEC_CMD = true → secMaster x = true → key =
  0x5EC0 → k ≠ 0 → s.lc ≤ 2 → Gives (.revoke x key k) s (fun t => natBit (t.getF R.SEC_KEYSTAT F.SEC_KEYSTAT_REVOKED) k =
  true ∧ t.getF R.SEC_KEYSTAT F.SEC_KEYSTAT_WRITTEN = s.getF R.SEC_KEYSTAT F.SEC_KEYSTAT_WRITTEN ∧ t =
  { s with regs := t.regs })) ∧
  (∀ (s : State) (x : Access) (v : Word), s.reaches x R.SEC_LC_REQ = true → x.m = .sys → F.SEC_LC_REQ_KEY.get v = 0x1C5E →
  s.mode = mdService → s.noneArmed = true → (s.getF R.SEC_TAMPER F.SEC_TAMPER_FLAGS = 0 ∨ F.SEC_LC_REQ_TARGET.get v = 4) →
  s.sec.hitAt ≠ some s.clock → s.lcAllowed (F.SEC_LC_REQ_TARGET.get v) = true → s.sec.req = none → Gives
  (.lcTransitionRequest x v) s (fun t => t.sec.req = some (F.SEC_LC_REQ_TARGET.get v) ∧ t.sec.reqAt = s.clock ∧ t.getF
  R.SEC_LC F.SEC_LC_REQ_STATUS = 0 ∧ t.isSet R.MEM_STAT F.MEM_STAT_SEC_WIPING = true ∧ t.lc = s.lc ∧ t.cells = s.cells)) ∧
  (∀ (s : State) (x : Access) (v : Word), s.reaches x R.SEC_LC_REQ = true → x.m = .sys → F.SEC_LC_REQ_KEY.get v = 0x1C5E →
  (s.mode ≠ mdService ∨ s.noneArmed = false ∨ s.lcAllowed (F.SEC_LC_REQ_TARGET.get v) = false ∨ s.sec.hitAt = some s.clock
  ∨ s.sec.req ≠ none ∨ (s.getF R.SEC_TAMPER F.SEC_TAMPER_FLAGS ≠ 0 ∧ F.SEC_LC_REQ_TARGET.get v ≠ 4)) → Gives
  (.lcTransitionRequest x v) s (fun t => t.getF R.SEC_LC F.SEC_LC_REQ_STATUS = 2 ∧ t.lc = s.lc ∧ t.sec = s.sec ∧ t.cells =
  s.cells)) ∧
  (∀ (s : State) (g : Nat), s.sec.req = some g → g ≤ 4 → Gives (.lcStateWrite) s (fun t => t.lc = g ∧ t.mode = mdStart ∧
  (t.sec.due = if 3 ≤ g then g else 0) ∧ t.sec.keys = s.sec.keys ∧ t.reg R.SEC_KEYSTAT = s.reg R.SEC_KEYSTAT ∧ t.reg
  R.SEC_MINVER = s.reg R.SEC_MINVER)) ∧
  (∀ (s : State) (b : Fin 5), natBit s.tamperEn b = true → s.getF R.SEC_TAMPER_CFG F.SEC_TAMPER_CFG_ACT = 0 → Gives
  (.tamper b) s (fun t => t.isSet R.SEC_TAMPER ⟨b.val, 1⟩ = true ∧ t.reg R.SEC_TAMPER_TIME = s.reg R.AON_RTC_SEC ∧ t.isSet
  R.MEM_STAT F.MEM_STAT_SEC_WIPING = true ∧ t.getF R.SEC_WIPE_CNT F.SEC_WIPE_CNT_COUNT = min F.SEC_WIPE_CNT_COUNT.top
  (s.getF R.SEC_WIPE_CNT F.SEC_WIPE_CNT_COUNT + 1) ∧ t.sec.event = true ∧ t.sec.hitAt = some s.clock ∧ (s.sec.req ≠ none →
  s.sec.reqAt = s.clock → t.sec.req = none) ∧ (s.mode ≠ mdStabled → s.evtDelay 37 = 0 → (37, s.clock, s.mtime) ∈
  t.evr.taps) ∧ t.cells = s.cells)) ∧
  (∀ (s : State) (b : Fin 5), natBit s.tamperEn b = true → s.getF R.SEC_TAMPER_CFG F.SEC_TAMPER_CFG_ACT = 1 → Gives
  (.tamper b) s (fun t => t.isSet R.SEC_TAMPER ⟨b.val, 1⟩ = true ∧ (∀ n : Slice, s.fitted n = true → t.armed n = false))) ∧
  (∀ (s : State) (b : Fin 5), natBit s.tamperEn b = true → s.getF R.SEC_TAMPER_CFG F.SEC_TAMPER_CFG_ACT = 2 → Gives
  (.tamper b) s (fun t => t.isSet R.SEC_TAMPER ⟨b.val, 1⟩ = true ∧ t.mode = mdStart ∧ t.sec.keys = s.sec.keys ∧ (∀ n :
  Slice, t.armed n = false))) ∧
  (∀ (s : State), s.sec.req = none → Gives (.lcStateWrite) s (fun t => t = s)) ∧
  (∀ (s : State) (b : Fin 5), natBit s.tamperEn b = false → Gives (.tamper b) s (fun t => t = s))

/-- Colbel transports and sessions. Follows: R460, R461, R462, R463, R464, R465, R466, R454,
27_colbel_monitor_and_trace.md. Where a clause concludes t = s for an event that cannot happen, that is the model's choice
(log 2). Beside the rules it rests on these choices of the model: logs 13, 133, 178, 181, 214. -/
def Obligations.ColbelSessions : Prop :=
  (∀ (s : State) (by_ : Func) (v : Word), s.reaches (descAccess by_) mbxBase = true → s.bootStopped = false → 12 ≤ v.toNat
  % 2048 → v.toNat % 2048 ≤ 1920 → bit (s.reg (mbxBase + 4)) 31 = false → Gives (.mbxGo by_ v) s (fun t => t.reg (mbxBase +
  4) = 0x80000000 ∧ t.dbg.inbox.get 0 = s.dbg.inbox.get 0 + 1 ∧ t.cells = s.cells)) ∧
  (∀ (s : State) (len : Nat), s.bootStopped = false → s.clockOn 5 = true → 12 ≤ len → len ≤ 1920 → Gives (.udpDatagram len)
  s (fun t => t.dbg.inbox.get 1 = s.dbg.inbox.get 1 + 1 ∧ t = { s with dbg := t.dbg })) ∧
  (∀ (s : State) (k : Fin 2) (h : SegHead) (i : BitVec 6), s.bootStopped = false → s.fastRuns = true → h.dir = false →
  (i.toNat = 0 ∨ (s.dbg.segAt.get k + 150000000 > s.clock ∧ i.toNat = (s.dbg.seg.get k).getD 0)) → i.toNat ≤ 30 → h.last =
  false → Gives (.canfdSegment k h i) s (fun t => t.dbg.seg.get k = some (i.toNat + 1) ∧ t.dbg.inbox = s.dbg.inbox ∧ (i = 0
  → t.dbg.segAt.get k = s.clock) ∧ t = { s with dbg := t.dbg })) ∧
  (∀ (s : State) (k : Fin 2) (h : SegHead) (i : BitVec 6), s.bootStopped = false → s.fastRuns = true → h.dir = false →
  (i.toNat = 0 ∨ (s.dbg.segAt.get k + 150000000 > s.clock ∧ i.toNat = (s.dbg.seg.get k).getD 0)) → i.toNat ≤ 30 → h.last =
  true → segEnds h.length.toNat i.toNat = true → Gives (.canfdSegment k h i) s (fun t => t.dbg.seg.get k = none ∧
  t.dbg.inbox.get 2 = s.dbg.inbox.get 2 + 1 ∧ t = { s with dbg := t.dbg })) ∧
  (∀ (s : State) (k : Fin 2) (h : SegHead) (i : BitVec 6), s.bootStopped = false → s.fastRuns = true → h.dir = false → (i ≠
  0 ∧ (s.dbg.segAt.get k + 150000000 ≤ s.clock ∨ i.toNat ≠ (s.dbg.seg.get k).getD 0 ∨ 30 < i.toNat) ∨ (h.last = true ∧
  segEnds h.length.toNat i.toNat = false)) → Gives (.canfdSegment k h i) s (fun t => t.dbg.seg.get k = none ∧ t.dbg.inbox =
  s.dbg.inbox ∧ t = { s with dbg := t.dbg })) ∧
  (∀ (s : State) (k : Fin 2) (h : SegHead) (i : BitVec 6), h.dir = true → Gives (.canfdSegment k h i) s (fun t => t = s)) ∧
  (∀ (s : State) (k : Fin 2), s.dbg.segAt.get k + 150000000 ≤ s.clock → Gives (.canfdMessageTimeout k) s (fun t =>
  t.dbg.seg.get k = none ∧ t.dbg.inbox = s.dbg.inbox ∧ t = { s with dbg := t.dbg })) ∧
  (∀ (s : State) (k : Fin 2), s.clock < s.dbg.segAt.get k + 150000000 → Gives (.canfdMessageTimeout k) s (fun t => t = s)) ∧
  (∀ (s : State) (m : HelloMsg) (k : Fin 4), s.waits m.tr = true → s.colbelAvail = true → s.dbg.locked.get m.tr = false →
  s.isSet R.DEV_BOOT_STAT F.DEV_BOOT_STAT_DONE = true → ((List.finRange 4).find? (fun (j : Fin 4) => (s.dbg.sess.get
  j).isNone) = some k) → Gives (.hello m) s (fun t => ((t.dbg.sess.get k).map (fun x => (x.tr, x.auth, x.asked, x.last)) =
  some (m.tr.val, 0, none, none)) ∧ ((t.dbg.sess.get k).map (fun x => (x.resp, x.trace, x.at_)) = some (none, [], s.clock))
  ∧ (∃ (nonce : BitVec 256) (key sig : BitVec 512) (i : Nat), t.outs = s.outs ++ [.hello m.tr k nonce key
  Config.certificate sig] ∧ (t.dbg.sess.get k).map (·.keys) = some (Config.sessionKeys m.nonce m.key nonce i)) ∧
  t.dbg.inbox.get m.tr = s.dbg.inbox.get m.tr - 1 ∧ t.cells = s.cells)) ∧
  (∀ (s : State) (m : HelloMsg), s.waits m.tr = true → s.colbelAvail = true → s.isSet R.DEV_BOOT_STAT F.DEV_BOOT_STAT_DONE
  = true → s.dbg.locked.get m.tr = true → Gives (.hello m) s (fun t => t.outs = s.outs ++ [.colbelError m.tr 2] ∧
  t.dbg.sess = s.dbg.sess ∧ t.cells = s.cells)) ∧
  (∀ (s : State) (m : HelloMsg), s.waits m.tr = true → s.colbelAvail = true → s.isSet R.DEV_BOOT_STAT F.DEV_BOOT_STAT_DONE
  = true → s.dbg.locked.get m.tr = false → (∀ j : Fin 4, (s.dbg.sess.get j).isSome = true) → Gives (.hello m) s (fun t =>
  t.outs = s.outs ++ [.colbelError m.tr 1] ∧ t.dbg.sess = s.dbg.sess ∧ t.cells = s.cells)) ∧
  (∀ (s : State) (q : ColbelReq) (x : Session) (b : Bool), s.serves q x 0 = true → Gives (.auth q b) s (fun t =>
  ((t.dbg.sess.get q.sess).map (·.asked) = some (some (if b then 2 else 1))) ∧ (t.dbg.sess.get q.sess).map (·.auth) = some
  x.auth ∧ (((t.dbg.sess.get q.sess).bind (·.resp)).map (fun r => (r.code, r.status, r.data.length)) = some (0, 0, 8)) ∧
  t.outs.length = s.outs.length + 1 ∧ t.cells = s.cells)) ∧
  (∀ (s : State) (q : ColbelReq) (x : Session) (k : Fin 4) (want : Nat), s.serves q x 0 = true → x.asked = some want →
  natBit (s.getF R.SEC_KEYSTAT F.SEC_KEYSTAT_WRITTEN) k = true → natBit (s.getF R.SEC_KEYSTAT F.SEC_KEYSTAT_REVOKED) k =
  false → bootKey s.lc k = true → s.authAllowed want = true → Gives (.authSignature q true (some k)) s (fun t =>
  (t.dbg.sess.get q.sess).map (·.auth) = some want ∧ t.Answered q 0 0 [] ∧ t.dbg.refused.get q.tr = 0 ∧ t.cells = s.cells)) ∧
  (∀ (s : State) (q : ColbelReq) (x : Session) (k : Option (Fin 4)) (want : Nat), s.serves q x 0 = true → x.asked = some
  want → s.dbg.refused.get q.tr = 2 → Gives (.authSignature q false k) s (fun t => (t.dbg.sess.get q.sess).map (·.auth) =
  some x.auth ∧ t.Answered q 0 2 [] ∧ t.dbg.locked.get q.tr = true ∧ t.getF R.DBG_AUTH_FAIL F.DBG_AUTH_FAIL_COUNT = min
  F.DBG_AUTH_FAIL_COUNT.top (s.getF R.DBG_AUTH_FAIL F.DBG_AUTH_FAIL_COUNT + 1) ∧ t.cells = s.cells)) ∧
  (∀ (s : State) (tr : Fin 3), s.dbg.lockAt.get tr + 15000000000 ≤ s.clock → Gives (.authLockoutEnd tr) s (fun t =>
  t.dbg.locked.get tr = false ∧ t = { s with dbg := t.dbg })) ∧
  (∀ (s : State) (tr : Fin 3), s.clock < s.dbg.lockAt.get tr + 15000000000 → Gives (.authLockoutEnd tr) s (fun t => t = s)) ∧
  (∀ (s : State) (tr : Fin 3) (k : Fin 4) (x : Session), s.dbg.sess.get k = some x → s.colbelAvail = true → s.waits tr =
  true → Gives (.close ⟨tr, k⟩) s (fun t => t.dbg.sess.get k = none ∧ (∀ n : Slice, t.attachedTo n k = false) ∧ (∀ n :
  Slice, (t.dbg.bp.get n).toList.all (fun b => b.all (·.sess != k.val)) = true) ∧ t.cells = s.cells)) ∧
  (∀ (s : State) (k : Fin 4) (x : Session), s.dbg.sess.get k = some x → x.at_ + 15000000000 ≤ s.clock → Gives
  (.sessionTimeout k) s (fun t => t.dbg.sess.get k = none ∧ (∀ n : Slice, t.attachedTo n k = false) ∧ (∀ n : Slice,
  (t.dbg.wp.get n).toList.all (fun b => b.all (·.sess != k.val)) = true) ∧ t.cells = s.cells)) ∧
  (∀ (s : State) (k : Fin 4), (s.dbg.sess.get k = none ∨ (∃ x, s.dbg.sess.get k = some x ∧ s.clock < x.at_ + 15000000000))
  → Gives (.sessionTimeout k) s (fun t => t = s)) ∧
  (∀ (s : State) (q : ColbelReq) (x : Session), s.serves q x 0 = true → Gives (.info q) s (fun t => (t.Answered q 1 0
  ([Config.serial.setWidth 32, (Config.serial >>> 32).setWidth 32, s.view R.DEV_ID, s.view R.DEV_VARIANT, BitVec.ofNat 32
  s.lc, BitVec.ofNat 32 (s.getF R.DBG_STAT F.DBG_STAT_SESSIONS)].map (fun v => ⟨v, tagUint⟩))) ∧ t.cells = s.cells)) ∧
  (∀ (s : State) (q : ColbelReq) (x : Session) (b : Bool), s.serves q x 3 = true → Gives (.token q b) s (fun t =>
  t.sec.token = (s.sec.token || b) ∧ (t.Answered q 15 (if b then 0 else 2) []) ∧ t.cells = s.cells)) ∧
  (∀ (s : State) (q : ColbelReq) (x : Session), s.serves q x 0 = true → Gives (.keepalive q) s (fun t => t.Answered q 16 0
  [] ∧ t.cells = s.cells)) ∧
  (∀ (s : State) (q : ColbelReq) (x : Session), s.dbg.sess.get q.sess = some x → s.colbelAvail = true → s.waits q.tr = true
  → q.tagOk = false → Gives (.keepalive q) s (fun t => t.outs = s.outs ∧ t.dbg.sess = s.dbg.sess ∧ t.cells = s.cells)) ∧
  (∀ (s : State) (q : ColbelReq) (x : Session) (r : Resp), s.dbg.sess.get q.sess = some x → s.colbelAvail = true → s.waits
  q.tr = true → q.tagOk = true → x.last = some q.seq.toNat → x.resp = some r → Gives (.keepalive q) s (fun t => t.outs =
  s.outs ++ [.colbel q.tr q.sess q.seq.toNat r] ∧ t.dbg.sess.get q.sess = some ⟨q.tr, x.auth, x.asked, x.last, x.resp,
  x.trace, s.clock, x.keys⟩ ∧ t.core = s.core ∧ t.cells = s.cells))

/-- Colbel: attach, halt, step, break- and watchpoints, registers and memory. Follows: R466, R467, R468, R469, R470, R471,
R475, R278, R444, 27_colbel_monitor_and_trace.md. Where a clause concludes t = s for an event that cannot happen, that is
the model's choice (log 2). Beside the rules it rests on these choices of the model: logs 121, 122, 123, 148, 213. -/
def Obligations.ColbelDebugging : Prop :=
  (∀ (s : State) (q : ColbelReq) (x : Session) (n : Slice), s.serves q x 1 = true → s.fitted n = true → (s.coreOf (pairOf
  n)).attached = none → (s.ctlOf n).attachHeld = none → s.slState n ≠ slOff → s.slState n ≠ slRecovering → Gives (.attach q
  (pairOf n)) s (fun t => (t.coreOf (pairOf n)).attached = some q.sess.val ∧ t.isSet (R.KC_LS_STAT n) F.KC_LS_STAT_BROKEN =
  true ∧ t.isSet (R.SLC_STATE n) F.SLC_STATE_LOCKSTEP_BROKEN = true ∧ t.Answered q 2 0 [] ∧ t.cells = s.cells)) ∧
  (∀ (s : State) (q : ColbelReq) (x : Session) (n : Pair), s.serves q x 0 = true → x.auth ≠ 1 → Gives (.attach q n) s (fun
  t => t.Answered q 2 9 [] ∧ t.core = s.core ∧ t.ctl = s.ctl ∧ t.cells = s.cells)) ∧
  (∀ (s : State) (q : ColbelReq) (x : Session) (n : Slice), s.serves q x 1 = true → s.fitted n = true → s.attachedTo n
  q.sess = true → Gives (.detach q (pairOf n)) s (fun t => (t.coreOf (pairOf n)).attached = none ∧ (t.coreOf (pairOf
  n)).dbgHalt = false ∧ (t.ctlOf n).attachHeld = none ∧ t.Answered q 3 0 [] ∧ t.cells = s.cells)) ∧
  (∀ (s : State) (q : ColbelReq) (x : Session) (n : Slice), s.serves q x 1 = true → s.fitted n = true → s.attachedTo n
  q.sess = true → (s.coreOf (pairOf n)).dbgHalt = false → (s.coreOf (pairOf n)).halted = false → (s.coreOf (pairOf n)).wfe
  = false → Gives (.halt q (pairOf n)) s (fun t => t.dbg.haltReq.get n = some (q.sess.val, q.seq.toNat) ∧ t.core = s.core ∧
  t.outs = s.outs ∧ t.cells = s.cells)) ∧
  (∀ (s : State) (n : Slice) (k : Fin 4) (q : Nat) (x : Session), s.dbg.haltReq.get n = some (k.val, q) → s.dbg.sess.get k
  = some x → s.colbelAvail = true → s.atBoundary (pairOf n) = true → s.slState n ≠ slRecovering → Gives (.haltTakesEffect
  n) s (fun t => (t.coreOf (pairOf n)).dbgHalt = true ∧ t.kr (pairOf n) = s.kr (pairOf n) ∧ t.dbg.haltReq.get n = none ∧
  t.outs = s.outs ++ [.colbel x.tr k q ⟨4, 0, [⟨(s.kr (pairOf n)).pc.setWidth 32, tagCode⟩]⟩] ∧ t.cells = s.cells)) ∧
  (∀ (s : State) (q : ColbelReq) (x : Session) (n : Slice), s.serves q x 1 = true → s.fitted n = true → s.dbg.steps.get n =
  none → (s.coreOf (pairOf n)).dbgHalt = true → (s.coreOf (pairOf n)).halted = false → s.slState n ≠ slFenced → Gives
  (.colbelResume q (pairOf n)) s (fun t => (t.coreOf (pairOf n)).dbgHalt = false ∧ t.kr (pairOf n) = s.kr (pairOf n) ∧
  t.dbg.skip.get n = true ∧ t.Answered q 5 0 [] ∧ t.cells = s.cells)) ∧
  (∀ (s : State) (q : ColbelReq) (x : Session) (n : Slice), s.serves q x 1 = true → s.fitted n = true → ((s.coreOf (pairOf
  n)).dbgHalt = false ∨ (s.coreOf (pairOf n)).halted = true ∨ s.slState n = slFenced) → Gives (.colbelResume q (pairOf n))
  s (fun t => t.core = s.core ∧ t.Answered q 5 2 [] ∧ t.cells = s.cells)) ∧
  (∀ (s : State) (q : ColbelReq) (x : Session) (n : Slice) (i : Kn), s.serves q x 1 = true → s.fitted n = true →
  s.dbg.steps.get n = none → (s.coreOf (pairOf n)).dbgHalt = true → s.pairRuns (pairOf n) true = true → s.atBoundary
  (pairOf n) = true → (s.setCore (pairOf n) { s.coreOf (pairOf n) with dbgHalt := false }).issues (pairOf n) i = true →
  i.op = .nop → Gives (.step q (pairOf n) 1 false) s (fun t => t.kr (pairOf n) = s.onward (pairOf n) ∧ t.Answered q 6 0
  [⟨(s.onward (pairOf n)).pc.setWidth 32, tagCode⟩] ∧ t.cells = s.cells)) ∧
  (∀ (s : State) (q : ColbelReq) (x : Session) (n : Slice) (k : BitVec 16) (b : Bool), s.serves q x 1 = true → s.fitted n =
  true → (k = 0 ∨ (s.coreOf (pairOf n)).dbgHalt = false ∨ s.pairRuns (pairOf n) true = false) → Gives (.step q (pairOf n) k
  b) s (fun t => t.core = s.core ∧ (t.Answered q 6 (if k = 0 then 5 else 2) []) ∧ t.cells = s.cells)) ∧
  (∀ (s : State) (q : ColbelReq) (x : Session) (n : Slice) (g : CoreReg), s.serves q x 1 = true → s.fitted n = true → (g =
  .x ∨ g = .pc ∨ g = .a ∨ g = .cap 2 5) → Gives (.readCore q (pairOf n) g) s (fun t => t.Answered q 7 0 (s.coreRead n g) ∧
  t.core = s.core ∧ t.cells = s.cells)) ∧
  (∀ (s : State) (q : ColbelReq) (x : Session) (n : Slice) (v : BitVec 40) (g : BitVec 4), s.serves q x 1 = true → s.fitted
  n = true → s.stopped n = true → g ≠ tagCap → Gives (.writeCore q (pairOf n) .x v g) s (fun t => (t.kr (pairOf n)).x =
  ⟨v.setWidth 32, g⟩ ∧ t.kr (pairOf n) = { s.kr (pairOf n) with x := (t.kr (pairOf n)).x } ∧ t.Answered q 8 0 [] ∧ t.cells
  = s.cells)) ∧
  (∀ (s : State) (q : ColbelReq) (x : Session) (n : Slice) (g : CoreReg) (v : BitVec 40) (u : BitVec 4), s.serves q x 1 =
  true → s.fitted n = true → (s.stopped n = false ∨ u = tagCap) → Gives (.writeCore q (pairOf n) g v u) s (fun t =>
  t.Answered q 8 2 [] ∧ t.core = s.core ∧ t.cells = s.cells)) ∧
  (∀ (s : State) (q : ColbelReq) (x : Session) (n : Slice) (i : Fin 4) (pc : BitVec 17) (m : BitVec 8), s.serves q x 1 =
  true → s.fitted n = true → Gives (.setBp q (pairOf n) i pc m true) s (fun t => (t.dbg.bp.get n).get i = some ⟨pc.toNat,
  m.toNat, q.sess⟩ ∧ t.Answered q 9 0 [] ∧ t.core = s.core ∧ t.cells = s.cells)) ∧
  (∀ (s : State) (q : ColbelReq) (x : Session) (n : Slice) (i : Fin 2) (base : Word) (len : Nat) (rd wr : Bool) (v : Option
  Word), s.serves q x 1 = true → s.fitted n = true → 4 ≤ len → len ≤ 65536 → Gives (.setWp q (pairOf n) i base len rd wr v)
  s (fun t => ((t.dbg.wp.get n).get i = if rd || wr then some ⟨base.toNat, len, rd, wr, v, q.sess⟩ else none) ∧ t.Answered
  q 10 0 [] ∧ t.core = s.core ∧ t.cells = s.cells)) ∧
  (∀ (s : State) (q : ColbelReq) (x : Session) (n : Slice) (i : Fin 2) (base : Word) (len : Nat) (rd wr : Bool) (v : Option
  Word), s.serves q x 1 = true → s.fitted n = true → (len < 4 ∨ 65536 < len) → Gives (.setWp q (pairOf n) i base len rd wr
  v) s (fun t => t.dbg.wp = s.dbg.wp ∧ t.Answered q 10 5 [] ∧ t.cells = s.cells)) ∧
  (∀ (s : State) (n : Slice) (b : Bp), s.bpMatch n = some b → (s.coreOf (pairOf n)).dbgHalt = false → Gives (.breakpointHit
  n) s (fun t => (t.coreOf (pairOf n)).dbgHalt = true ∧ t.dbg.haltBy.get n = some b.sess ∧ t.kr (pairOf n) = s.kr (pairOf
  n) ∧ t.cells = s.cells)) ∧
  (∀ (s : State) (n : Slice), s.bpMatch n = none → Gives (.breakpointHit n) s (fun t => t = s)) ∧
  (∀ (s : State) (n : Slice), s.dbg.wpHit.get n = none → Gives (.watchpointHit n) s (fun t => t = s)) ∧
  (∀ (s : State) (n : Slice) (k : Nat), s.dbg.wpHit.get n = some k → s.atGroup (pairOf n) = true → Gives (.watchpointHit n)
  s (fun t => (t.coreOf (pairOf n)).dbgHalt = true ∧ t.dbg.wpHit.get n = none ∧ t.dbg.haltBy.get n = some k ∧ t.kr (pairOf
  n) = s.kr (pairOf n) ∧ t.cells = s.cells)) ∧
  (∀ (s : State) (q : ColbelReq) (x : Session) (a : Word), s.serves q x 3 = true → s.cellsOk a.toNat 1 = true → sessCovers
  a.toNat = true → (s.cell a.toNat).tag ≠ tagCap → (x.auth = 1 ∨ (s.cell a.toNat).tag ≠ tagRaw) → Gives (.readMem q a 1) s
  (fun t => t.Answered q 11 0 [s.cell a.toNat] ∧ t.cells = s.cells)) ∧
  (∀ (s : State) (q : ColbelReq) (x : Session) (a : Word), s.serves q x 3 = true → s.cellsOk a.toNat 1 = true → sessCovers
  a.toNat = true → x.auth = 2 → (s.cell a.toNat).tag = tagRaw → Gives (.readMem q a 1) s (fun t => t.Answered q 11 6 [] ∧
  t.cells = s.cells)) ∧
  (∀ (s : State) (q : ColbelReq) (x : Session) (a : Word) (k : Nat), s.serves q x 3 = true → s.sessWaits (cellAddrs a k) =
  false → (k = 0 ∨ 256 < k) → Gives (.readMem q a k) s (fun t => t.Answered q 11 5 [] ∧ t.cells = s.cells)) ∧
  (∀ (s : State) (q : ColbelReq) (x : Session) (a : Word) (d : Cell), s.serves q x 3 = true → x.auth = 1 → s.cellsOk
  a.toNat 1 = true → sessCovers a.toNat = true → (s.cell a.toNat).tag ≠ tagCap → d.tag ≠ tagCap → Gives (.writeMem q a [d])
  s (fun t => t.cell a.toNat = stored a.toNat d ∧ t.Answered q 12 0 [] ∧ s.CellsKept t (· == a.toNat))) ∧
  (∀ (s : State) (q : ColbelReq) (x : Session) (a : Word) (d : Cell), s.serves q x 3 = true → x.auth = 2 → isCells a.toNat
  = true → s.accessWaits a.toNat = false → Gives (.writeMem q a [d]) s (fun t => t.Answered q 12 6 [] ∧ t.cells = s.cells)) ∧
  (∀ (s : State) (q : ColbelReq) (x : Session) (n : Slice) (m : BitVec 8), s.serves q x 2 = true → s.fitted n = true →
  s.mode = mdService → Gives (.testOut q (pairOf n) m) s (fun t => t.reg (R.DBG_TESTOUT n) = m.setWidth 32 ∧
  t.dbg.outBy.get n = some q.sess.val ∧ t.Answered q 13 0 [] ∧ t.cells = s.cells)) ∧
  (∀ (s : State) (q : ColbelReq) (x : Session) (n : Slice) (m : BitVec 8), s.serves q x 2 = true → s.fitted n = true →
  s.mode ≠ mdService → Gives (.testOut q (pairOf n) m) s (fun t => t.reg (R.DBG_TESTOUT n) = s.reg (R.DBG_TESTOUT n) ∧
  t.pwm = s.pwm ∧ t.Answered q 13 2 [] ∧ t.cells = s.cells)) ∧
  (∀ (s : State) (q : ColbelReq) (x : Session) (n : Slice) (v e : Word), s.serves q x 3 = true → s.fitted n = true →
  F.STP_CTRL_LEVEL.get v ≠ 3 → Gives (.traceCfg q (pairOf n) v e) s (fun t => t.reg (R.STP_CTRL n) = v &&& 0x333 ∧ t.reg
  (R.STP_EN n) = e &&& 0xFFFFFF ∧ t.Answered q 14 0 [] ∧ t.cells = s.cells))

/-- Trace packets and the perturbation units. Follows: R472, R473, R474, R475, R476, R477, R478,
27_colbel_monitor_and_trace.md, 28_test_perturbation.md. Where a clause concludes t = s for an event that cannot happen,
that is the model's choice (log 2). Beside the rules it rests on these choices of the model: logs 19, 120, 124, 179, 180,
215. -/
def Obligations.TraceAndPerturbation : Prop :=
  (∀ (s : State) (x : Access) (e : Engine) (p : Fin 24) (c : Cell), ((x.m == .sys || (List.finRange 12).any (fun n => x.m
  == .core n)) = true) → s.busUp x.m = true → s.reach x (postAddr e p) true = true → s.absentSlice (postAddr e p) = false →
  c.tag ≠ tagEmpty → c.tag ≠ tagCap → e.val < 12 → s.postOn e p = true → (s.trcOf e).queue.length < 12 → Gives
  (.tracePostStore x e p c) s (fun t => t.trcOf e = ⟨(s.trcOf e).queue ++ [⟨c.v, s.mtime.setWidth 48, e.val, c.tag, p.val,
  s.ptbActive e.val, (s.trcOf e).seq, false⟩], (s.trcOf e).lost, ((s.trcOf e).seq + 1) % 65536⟩ ∧ t =
  { s with regs := t.regs, trc := t.trc })) ∧
  (∀ (s : State) (x : Access) (e : Engine) (p : Fin 24) (c : Cell), ((x.m == .sys || (List.finRange 12).any (fun n => x.m
  == .core n)) = true) → s.busUp x.m = true → s.reach x (postAddr e p) true = true → s.absentSlice (postAddr e p) = false →
  c.tag ≠ tagEmpty → c.tag ≠ tagCap → e.val < 12 → s.postOn e p = false → Gives (.tracePostStore x e p c) s (fun t =>
  t.getF (R.STP_FILTERED e) F.STP_FILTERED_COUNT = min F.STP_FILTERED_COUNT.top (s.getF (R.STP_FILTERED e)
  F.STP_FILTERED_COUNT + 1) ∧ t = { s with regs := t.regs })) ∧
  (∀ (s : State) (x : Access) (e : Engine) (p : Fin 24) (c : Cell), ((x.m == .sys || (List.finRange 12).any (fun n => x.m
  == .core n)) = true) → s.busUp x.m = true → s.reach x (postAddr e p) true = true → s.absentSlice (postAddr e p) = false →
  c.tag ≠ tagEmpty → c.tag ≠ tagCap → e.val < 12 → s.postOn e p = true → 12 ≤ (s.trcOf e).queue.length → postLevel p ≠ 0 →
  Gives (.tracePostStore x e p c) s (fun t => t.trcOf e = ⟨(s.trcOf e).queue, true, ((s.trcOf e).seq + 1) % 65536⟩ ∧ t.getF
  (R.STP_DROPS e) F.STP_DROPS_COUNT = min F.STP_DROPS_COUNT.top (s.getF (R.STP_DROPS e) F.STP_DROPS_COUNT + 1) ∧ t.isSet
  (R.STP_STAT e) F.STP_STAT_DROP_F = true ∧ t.cells = s.cells)) ∧
  (∀ (s : State) (e : Fin 13) (p : Packet) (l : List Packet) (k : Nat) (y : Session), s.mergeFrom ≤ s.clock → s.mergePick =
  some e → (s.trcOf e).queue = p :: l → e.val < 12 → s.getF (R.STP_CTRL e) F.STP_CTRL_DEST = 3 → s.getF (R.STP_CTRL e)
  F.STP_CTRL_SESSION = k → s.dbg.sess.toList[k]? = some (some y) → Gives (.traceMerge) s (fun t => t.trcOf e = ⟨l, false,
  (s.trcOf e).seq⟩ ∧ t.dbg.sess.toList[k]? = some (some ⟨y.tr, y.auth, y.asked, y.last, y.resp, y.trace ++ [⟨p.payload,
  p.time, p.src, p.tag, p.post, p.ptb, p.seq, (s.trcOf e).lost⟩], y.at_, y.keys⟩) ∧ t.mergeNext = (e.val + 1) % 13 ∧
  t.cells = s.cells)) ∧
  (∀ (s : State) (e : Fin 13) (p : Packet) (l : List Packet), s.mergeFrom ≤ s.clock → s.mergePick = some e → (s.trcOf
  e).queue = p :: l → e.val < 12 → s.getF (R.STP_CTRL e) F.STP_CTRL_DEST = 0 → Gives (.traceMerge) s (fun t => t.trcOf e =
  ⟨l, true, (s.trcOf e).seq⟩ ∧ t.getF (R.STP_DROPS e) F.STP_DROPS_COUNT = min F.STP_DROPS_COUNT.top (s.getF (R.STP_DROPS e)
  F.STP_DROPS_COUNT + 1) ∧ t.dbg = s.dbg ∧ t.cells = s.cells)) ∧
  (∀ (s : State), (∀ e : Fin 13, (s.trcOf e).queue = []) → Gives (.traceMerge) s (fun t => t = s)) ∧
  (∀ (s : State) (k : Fin 4) (y : Session), s.dbg.sess.get k = some y → y.trace ≠ [] → s.colbelAvail = true → Gives
  (.traceSessionSend k) s (fun t => t.outs = s.outs ++ [.colbelTrace y.tr k (y.trace.take 112)] ∧ t.dbg.sess.get k = some
  ⟨y.tr, y.auth, y.asked, y.last, y.resp, y.trace.drop 112, y.at_, y.keys⟩ ∧ t.trc = s.trc ∧ t.core = s.core ∧ t.cells =
  s.cells)) ∧
  (∀ (s : State) (k : Fin 4), (s.colbelAvail = false ∨ s.dbg.sess.get k = none) → Gives (.traceSessionSend k) s (fun t => t
  = s)) ∧
  (∀ (s : State) (x : Access) (e : Engine) (v : Word), s.reaches x (R.PTB_CTRL e) = true → s.ptbMay x = true → v =
  0x80000000 → s.isSet (R.PTB_CTRL e) F.PTB_CTRL_EN = false → (s.ptbCause.get e).map (·.1) ≠ some s.clock → Gives
  (.ptbEnable x e v) s (fun t => t.isSet (R.PTB_CTRL e) F.PTB_CTRL_EN = true ∧ t.getF (R.PTB_CTRL e) F.PTB_CTRL_END = 0 ∧
  t.getF (R.PTB_ACTIVE e) F.PTB_ACTIVE_KINDS = s.ptbKinds e ∧ t.cells = s.cells ∧ t.core = s.core)) ∧
  (∀ (s : State) (x : Access) (e : Engine) (v : Word), s.reaches x (R.PTB_CTRL e) = true → s.ptbMay x = true → v = 0 →
  s.isSet (R.PTB_CTRL e) F.PTB_CTRL_EN = true → Gives (.ptbEnable x e v) s (fun t => t.isSet (R.PTB_CTRL e) F.PTB_CTRL_EN =
  false ∧ t.getF (R.PTB_CTRL e) F.PTB_CTRL_END = 1 ∧ t.reg (R.PTB_ACTIVE e) = 0 ∧ t =
  { s with regs := t.regs, ptbCause := t.ptbCause })) ∧
  (∀ (s : State) (x : Access) (e : Engine) (v : Word) (k : Nat), s.reaches x (R.PTB_CTRL e) = true → s.ptbMay x = true → v
  = 0x80000000 → s.isSet (R.PTB_CTRL e) F.PTB_CTRL_EN = false → s.ptbCause.get e = some (s.clock, k) → k < 8 → Gives
  (.ptbEnable x e v) s (fun t => t.isSet (R.PTB_CTRL e) F.PTB_CTRL_EN = false ∧ t.getF (R.PTB_CTRL e) F.PTB_CTRL_END = k ∧
  t = { s with regs := t.regs })) ∧
  (∀ (s : State) (x : Access) (e : Engine) (v : Word), s.reaches x (R.PTB_CTRL e) = true → s.ptbMay x = false → Gives
  (.ptbEnable x e v) s (fun t => t.reg (R.PTB_CTRL e) = s.reg (R.PTB_CTRL e) ∧ t.getF (R.PTB_REJ e) F.PTB_REJ_COUNT = min
  F.PTB_REJ_COUNT.top (s.getF (R.PTB_REJ e) F.PTB_REJ_COUNT + 1) ∧ t = { s with regs := t.regs }))

/-- Register writes and reads by their access codes. Follows: R8, R9, R10, R43, R45, R227, R252, 00_scope.md,
02_operating_modes_and_startup.md. Beside the rules it rests on these choices of the model: logs 50, 62, 127. -/
def Obligations.RegisterAccess : Prop :=
  (∀ (s : State) (x : Access) (a : Nat) (v ev : Word), s.reaches x a = true → (a = R.AON_ALARM ∨ a = R.AON_RTC_SEC ∨ a =
  R.FLC_PBUF 5) → Gives (.registerWrite x ⟨a, 15, ev⟩ v) s (fun t => t.reg a = v ∧ t = { s with regs := t.regs } ∧
  s.RegsKept t (· == a))) ∧
  (∀ (s : State) (x : Access) (a : Nat) (v : Word), s.reaches x a = true → a = R.PWR_STAT → Gives (.registerWrite x ⟨a, 15,
  0⟩ v) s (fun t => t.reg a = s.reg a &&& ~~~ (v &&& 0xF0000000) ∧ t = { s with regs := t.regs } ∧ s.RegsKept t (· == a))) ∧
  (∀ (s : State) (x : Access) (a : Nat) (v ev : Word), s.reaches x a = true → a = R.PWR_STAT → s.reg a &&& (v &&&
  0xF0000000) ≠ 0 → Gives (.registerWrite x ⟨a, 15, ev⟩ v) s (fun t => t.reg a = (s.reg a &&& ~~~ (v &&& 0xF0000000)) |||
  (ev &&& 0xF0000000) ∧ t = { s with regs := t.regs } ∧ s.RegsKept t (· == a))) ∧
  (∀ (s : State) (x : Access) (a : Nat) (v : Word), s.takesWrite x a = true → s.write x a v = (s.breakResv (pairBy x.m)
  a).write x a v ∧ (s.breakResv (pairBy x.m) a).reaches x a = true) ∧
  (∀ (s : State) (x : Access) (a : Nat) (v : Word), (x.m = .sys ∨ x.m = .fn 0) → s.busUp x.m = true → s.early x.m a true =
  false → s.discards x.m a = false → 0x01100000 ≤ a → a < 0x01110000 → a % 4 = 0 → (rowAt a).isNone = true → s.unreserved x
  a = true → Gives (.registerWrite x ⟨a, 15, 0⟩ v) s (fun t => t = s)) ∧
  (∀ (s : State) (x : Access) (a : Nat) (v ev : Word), s.reaches x a = true → (a = R.PWR_VIN ∨ a = R.PWR_HOLDUP ∨ a =
  R.PWR_CLK) → Gives (.registerWrite x ⟨a, 15, ev⟩ v) s (fun t => t = s)) ∧
  (∀ (s : State) (x : Access) (a : Nat) (v : Word) (n : Slice), x.m = .core n → s.busUp x.m = true → (a % 4 ≠ 0 ∨ s.reach x
  a true = false) → Gives (.registerWrite x ⟨a, 15, 0⟩ v) s (fun t => t.reg R.HIF_BADACC = BitVec.ofNat 32 (min 4294967295
  ((s.reg R.HIF_BADACC).toNat + 1)) ∧ t = { s with regs := t.regs } ∧ s.RegsKept t (· == R.HIF_BADACC))) ∧
  (∀ (s : State) (x : Access) (a : Nat) (be : BitVec 4) (v : Word) (n : Slice), x.m = .core n → s.busUp x.m = true → be ≠
  15 → Gives (.registerWrite x ⟨a, be, 0⟩ v) s (fun t => t.reg R.HIF_BADACC = BitVec.ofNat 32 (min 4294967295 ((s.reg
  R.HIF_BADACC).toNat + 1)) ∧ t = { s with regs := t.regs } ∧ s.RegsKept t (· == R.HIF_BADACC))) ∧
  (∀ (s : State) (x : Access) (a : Nat) (be : BitVec 4) (n : Slice), x.m = .core n → s.busUp x.m = true → be ≠ 15 → Gives
  (.readClears x ⟨a, be, 0⟩) s (fun t => t.reg R.HIF_BADACC = BitVec.ofNat 32 (min 4294967295 ((s.reg R.HIF_BADACC).toNat +
  1)) ∧ t.regs = (s.setReg R.HIF_BADACC (t.reg R.HIF_BADACC)).regs)) ∧
  (∀ (s : State) (x : Access) (a : Nat) (ev : Word), s.answers x a = true → x.m ≠ .mon → (a = R.DEV_ARM_REJ ∨ a =
  R.HIF_BADACC) → s.reg a ≠ 0 → Gives (.readClears x ⟨a, 15, ev⟩) s (fun t => t.busOut = s.reg a - clearedBy a ev ∧ t.reg a
  = clearedBy a ev ∧ t = { s with regs := t.regs, busOut := t.busOut } ∧ s.RegsKept t (· == a))) ∧
  (∀ (s : State) (x : Access) (a : Nat), s.answers x a = true → x.m ≠ .mon → (a = R.DEV_ARM_REJ ∨ a = R.HIF_BADACC) → Gives
  (.readClears x ⟨a, 15, 0⟩) s (fun t => t.busOut = s.reg a ∧ t.reg a = 0 ∧ t =
  { s with regs := t.regs, busOut := t.busOut } ∧ s.RegsKept t (· == a))) ∧
  (∀ (s : State) (x : Access) (n i : Slice) (a : Nat), a = R.GRG_TRANS n i → s.answers x a = true → x.m ≠ .mon → Gives
  (.readClears x ⟨a, 15, 0⟩) s (fun t => t.busOut = s.reg a ∧ t.reg a = 0 ∧ t =
  { s with regs := t.regs, busOut := t.busOut } ∧ s.RegsKept t (· == a))) ∧
  (∀ (s : State) (x : Access) (a : Nat), s.answers x a = true → x.m = .mon → Gives (.readClears x ⟨a, 15, 0⟩) s (fun t => t
  = { s with busOut := t.busOut } ∧ t.busOut = s.view a))

/-- Mode requests that are refused at once. Rules: R36. -/
def Obligations.ModeRequestRefusals : Prop :=
  (∀ (s : State) (x : Access) (v : Word), s.reaches x R.DEV_MODE_REQ = true → F.DEV_MODE_REQ_KEY.get v = 0x4D0D →
  F.DEV_MODE_REQ_TARGET.get v ≤ 5 → (s.isSet R.DEV_MODE F.DEV_MODE_CHANGING = true ∨ s.mode = mdStart) → Gives
  (.modeChangeRequest x v) s (fun t => t.getF R.DEV_MODE F.DEV_MODE_REQ_STATUS = 1 ∧ t.mode = s.mode ∧ t.modeReq =
  s.modeReq ∧ t = { s with regs := t.regs })) ∧
  (∀ (s : State) (x : Access) (v : Word), s.reaches x R.DEV_MODE_REQ = true → F.DEV_MODE_REQ_KEY.get v = 0x4D0D →
  F.DEV_MODE_REQ_TARGET.get v ≤ 5 → s.isSet R.DEV_MODE F.DEV_MODE_CHANGING = false → s.mode ≠ mdStart →
  F.DEV_MODE_REQ_TARGET.get v = mdHil → s.part = .esk7208 → Gives (.modeChangeRequest x v) s (fun t => t.getF R.DEV_MODE
  F.DEV_MODE_REQ_STATUS = 4 ∧ t.mode = s.mode ∧ t.modeReq = s.modeReq ∧ t = { s with regs := t.regs }))

/-- Ring registers are written only while their function is disabled. Rules: R345. -/
def Obligations.RingRegistersLocked : Prop :=
  (∀ (s : State) (x : Access) (a : Nat) (v : Word) (f : Func) (r : Fin 8), s.reaches x a = true → a ∈ ringRegs f r →
  (s.fnEn f = true ∨ s.enPending f = true) → Gives (.registerWrite x ⟨a, 15, 0⟩ v) s (fun t => t.reg a = s.reg a ∧ t.getF
  (R.HIF_FN_ERR f) F.HIF_FN_ERR_BADACC = min F.HIF_FN_ERR_BADACC.top (s.getF (R.HIF_FN_ERR f) F.HIF_FN_ERR_BADACC + 1) ∧ t
  = { s with regs := t.regs } ∧ s.RegsKept t (· == R.HIF_FN_ERR f))) ∧
  (∀ (s : State) (x : Access) (a : Nat) (v : Word) (f : Func) (r : Fin 8), s.reaches x a = true → (a = R.RNG_SQ_LO f r ∨ a
  = R.RNG_CQ_LO f r ∨ a = R.RNG_SQ_HI f r ∨ a = R.RNG_EDGE_LO f) → v &&& 0xFFF = 0 → s.fnEn f = false → s.enPending f =
  false → Gives (.registerWrite x ⟨a, 15, 0⟩ v) s (fun t => t.reg a = v ∧ t = { s with regs := t.regs } ∧ s.RegsKept t (·
  == a)))

/-- Who writes the SEC registers. Rules: R459. -/
def Obligations.SecWriteAuthority : Prop :=
  (∀ (s : State) (x : Access) (a : Nat) (v : Word), 0x01100000 ≤ a → a < 0x01110000 → a % 4 = 0 → (rowAt a).isSome = true →
  a ≠ R.SEC_TAMPER → a ≠ R.SEC_LC_REQ → s.busUp x.m = true → s.isSet R.DEV_BOOT_STAT F.DEV_BOOT_STAT_DONE = true →
  secMaster x = false → Gives (.registerWrite x ⟨a, 15, 0⟩ v) s (fun t => t.reg R.HIF_BADACC = BitVec.ofNat 32 (min
  4294967295 ((s.reg R.HIF_BADACC).toNat + 1)) ∧ t.sec = s.sec ∧ (∀ b, 0x01100000 ≤ b → b < 0x01110000 → t.reg b = s.reg b)
  ∧ t.cells = s.cells)) ∧
  (∀ (s : State) (a : Nat), 0x01100000 ≤ a → a < 0x01110000 → a % 4 = 0 → s.busUp (.fn 0) = true → s.isSet R.DEV_BOOT_STAT
  F.DEV_BOOT_STAT_DONE = true → Gives (.readClears ⟨.fn 0, false, false⟩ ⟨a, 15, 0⟩) s (fun t => t.busOut = s.view a ∧
  t.sec = s.sec ∧ t.cells = s.cells))

/-- A sealed request is executed once, in the order of SEQ. Rules: R464. -/
def Obligations.SealedRequestsRunOnce : Prop :=
  (∀ (s : State) (c : Instr) (q : ColbelReq) (y : Session) (l : Nat) (r : Resp), sealedReq c = some q → s.sealedWaits c =
  false → s.dbg.sess.get q.sess = some y → s.colbelAvail = true → s.waits q.tr = true → q.tagOk = true → y.last = some l →
  l = q.seq.toNat → y.resp = some r → Gives (c) s (fun t => t.outs = s.outs ++ [.colbel q.tr q.sess q.seq.toNat r] ∧ (∀ k :
  Fin 4, (t.dbg.sess.get k).map (fun z => (z.auth, z.asked, z.last, z.resp, z.trace)) = (s.dbg.sess.get k).map (fun z =>
  (z.auth, z.asked, z.last, z.resp, z.trace))) ∧ t.core = s.core ∧ t.ctl = s.ctl ∧ t.cells = s.cells)) ∧
  (∀ (s : State) (c : Instr) (q : ColbelReq) (y : Session) (l : Nat), sealedReq c = some q → s.sealedWaits c = false →
  s.dbg.sess.get q.sess = some y → s.colbelAvail = true → s.waits q.tr = true → q.tagOk = true → y.last = some l →
  q.seq.toNat < l → Gives (c) s (fun t => t.outs = s.outs ∧ (∀ k : Fin 4, (t.dbg.sess.get k).map (fun z => (z.auth,
  z.asked, z.last, z.resp, z.trace)) = (s.dbg.sess.get k).map (fun z => (z.auth, z.asked, z.last, z.resp, z.trace))) ∧
  t.core = s.core ∧ t.ctl = s.ctl ∧ t.cells = s.cells))

/-- A step runs the command at the front of the queue. Follows: 00_scope.md, 95_what_each_step_holds.md. Beside the rules
it rests on these choices of the model: logs 1, 130. -/
def Obligations.StepRunsFrontCommand : Prop :=
  (∀ (s : State) (c : Instr) (r : List Instr), s.pending = c :: r → step s = exec c { s with pending := r }) ∧
  (∀ s : State, s.pending = [] → step s = .next s.tick) ∧
  (∀ (s : State) (n w : Nat), decodeTableWord n w = none ∧ s.withFetchWord n w = s)

/-- No command and no tick ends in a fault or a refusal. Follows: 00_scope.md, 95_what_each_step_holds.md. -/
def Obligations.EveryCommandCompletes : Prop :=
  (∀ (c : Instr) (s : State), ∃ t, exec c s = .next t) ∧
  (∀ s : State, Safe s)

/-- The module right after reset. Follows: R11, R18, R19, R49, 00_scope.md, 02_operating_modes_and_startup.md,
03_slices_variants_and_fencing.md. Beside the rules it rests on these choices of the model: logs 4, 6, 7, 8, 18. -/
def Obligations.ResetState : Prop :=
  (State.reset.pending = [] ∧ State.reset.mode = mdStart ∧ State.reset.cells = [] ∧ (∀ a, State.reset.reg a = resetOf a) ∧
  (∀ a, inCopy a = false → State.reset.cell a = cellDefault a)) ∧
  (∀ n : Slice, State.reset.slState n = slOff ∧ State.reset.armed n = false ∧ ∀ k : Fin 8, State.reset.PinsLow n k) ∧
  (State.reset.Canonical ∧ State.reset.CellsPlaced)

/-- Every step keeps memory in its canonical form. Follows: R298, 00_scope.md, 17_memories.md. Beside the rules it rests on
these choices of the model: log 1. -/
def Obligations.StepKeepsCanonical : Prop :=
  ∀ s t : State, s.Canonical → step s = .next t → t.Canonical

/-- Words of the core's encoding tables decode to their instructions. Follows: R208, R209, R215, R218, R219, R220,
13_knankoeg_instruction_set.md. -/
def Obligations.CoreWordsDecode : Prop :=
  (knDecode 0x1689 [] = some ⟨.mul, 2, 9, 0, 0⟩ ∧ knDecode 0x24FF [] = some ⟨.lt, 1, -1, 0, 0⟩ ∧ knDecode 0x3000 [] = some
  ⟨.nop, 0, 0, 0, 0⟩ ∧ knDecode 0x34C5 [] = some ⟨.lea, 3, 5, 0, 0⟩ ∧ knDecode 0x3203 [1] = some ⟨.ldia, 0, 0x43, 0, 0⟩ ∧
  knDecode 0x3805 [] = some ⟨.fcall, 0, 0, 5, 0⟩) ∧
  (knDecode 0x300E [] = none ∧ knDecode 0x3000 [1] = none)

/-- No two words of the core decode to one instruction. Follows: R208, R215, R218, R219, R220, R230,
13_knankoeg_instruction_set.md. -/
def Obligations.CoreDecodeInjective : Prop :=
  ∀ (ps : List Nat) (w w' : Nat) (i : Kn), w < 2 ^ 14 → w' < 2 ^ 14 → knDecode w ps = some i → knDecode w' ps = some i → w
  = w'

end
end

