-- ==== Sys2Proof/Laws/SMap.lean ====
section
/-! SUPPORT. The sparse map: a read after a write, and the canonical form that every operation keeps. -/

namespace Sys2Proof
namespace Machine

variable {α : Type} [DecidableEq α]

omit [DecidableEq α] in
theorem SMap.get_filter_ne (d : Nat → α) (m : List (Nat × α)) (a b : Nat) (h : b ≠ a) :
    SMap.get d (m.filter (fun e => decide (e.1 ≠ a))) b = SMap.get d m b := by
  induction m with
  | nil => rfl
  | cons e t ih =>
    obtain ⟨k, v⟩ := e
    by_cases hk : k = a
    · subst hk
      simpa [SMap.get, Ne.symm h] using ih
    · simp only [ne_eq, hk, not_false_eq_true, decide_true, List.filter_cons_of_pos, SMap.get]
      simp only [ne_eq] at ih
      rw [ih]

omit [DecidableEq α] in
theorem SMap.get_filter_self (d : Nat → α) (m : List (Nat × α)) (a : Nat) :
    SMap.get d (m.filter (fun e => decide (e.1 ≠ a))) a = d a := by
  induction m with
  | nil => rfl
  | cons e t ih =>
    obtain ⟨k, v⟩ := e
    by_cases hk : k = a
    · subst hk; simpa using ih
    · simp only [ne_eq, hk, not_false_eq_true, decide_true, List.filter_cons_of_pos, SMap.get, if_false]
      simpa using ih

/-- A read after a write: the value written at its key, what was there before at every other key. -/
theorem SMap.get_put (d : Nat → α) (m : List (Nat × α)) (a : Nat) (v : α) (b : Nat) :
    SMap.get d (SMap.put d m a v) b = if b = a then v else SMap.get d m b := by
  induction m with
  | nil =>
    unfold SMap.put
    by_cases hv : v = d a <;> by_cases hb : b = a
    · subst hb; simp [SMap.get, hv]
    · simp [SMap.get, hv, hb]
    · subst hb; simp [SMap.get, hv]
    · simp [SMap.get, hv, hb, Ne.symm hb]
  | cons e t ih =>
    obtain ⟨k, w⟩ := e
    unfold SMap.put
    by_cases hk : k < a
    · simp only [hk, if_true, SMap.get, ih]
      by_cases hb : b = a
      · subst hb; simp [Nat.ne_of_lt hk]
      · simp [hb]
    · simp only [hk, if_false]
      by_cases hb : b = a
      · subst hb
        by_cases hv : v = d b
        · simp only [hv, if_true]; exact SMap.get_filter_self d _ b
        · simp [hv, SMap.get]
      · by_cases hv : v = d a
        · simp only [hv, if_true, hb, if_false]; exact SMap.get_filter_ne d _ a b hb
        · simp only [hv, if_false, hb]
          rw [SMap.get]
          simp only [Ne.symm hb, if_false]
          exact SMap.get_filter_ne d _ a b hb

@[simp] theorem SMap.get_put_self (d : Nat → α) (m : List (Nat × α)) (a : Nat) (v : α) :
    SMap.get d (SMap.put d m a v) a = v := by rw [SMap.get_put]; simp

theorem SMap.get_put_ne (d : Nat → α) (m : List (Nat × α)) (a : Nat) (v : α) (b : Nat) (h : b ≠ a) :
    SMap.get d (SMap.put d m a v) b = SMap.get d m b := by rw [SMap.get_put]; simp [h]

omit [DecidableEq α] in
/-- What removing keys leaves. -/
theorem SMap.get_clear (d : Nat → α) (p : Nat → Bool) (m : List (Nat × α)) (b : Nat) :
    SMap.get d (SMap.clear p m) b = if p b then d b else SMap.get d m b := by
  induction m with
  | nil => simp [SMap.clear, SMap.get]
  | cons e t ih =>
    obtain ⟨k, v⟩ := e
    unfold SMap.clear at *
    by_cases hp : p k = true
    · have hf : ((k, v) :: t).filter (fun e => !p e.1) = t.filter (fun e => !p e.1) := by simp [hp]
      rw [hf, ih]
      by_cases hb : k = b
      · subst hb; simp [hp]
      · simp [SMap.get, hb]
    · have hf : ((k, v) :: t).filter (fun e => !p e.1) = (k, v) :: t.filter (fun e => !p e.1) := by simp [hp]
      rw [hf, SMap.get, SMap.get, ih]
      by_cases hb : k = b
      · subst hb; simp [hp]
      · simp [hb]

/-! The canonical form. -/

omit [DecidableEq α] in
theorem SMap.risingFrom_mono (m : List (Nat × α)) (lo lo' : Nat) (h : lo' ≤ lo) (hr : SMap.risingFrom lo m = true) :
    SMap.risingFrom lo' m = true := by
  cases m with
  | nil => rfl
  | cons e t =>
    obtain ⟨k, v⟩ := e
    simp only [SMap.risingFrom, Bool.and_eq_true, decide_eq_true_eq] at hr ⊢
    exact ⟨by omega, hr.2⟩

omit [DecidableEq α] in
theorem SMap.risingFrom_filter (p : Nat × α → Bool) (m : List (Nat × α)) (lo : Nat) (h : SMap.risingFrom lo m = true) :
    SMap.risingFrom lo (m.filter p) = true := by
  induction m generalizing lo with
  | nil => rfl
  | cons e t ih =>
    obtain ⟨k, v⟩ := e
    simp only [SMap.risingFrom, Bool.and_eq_true, decide_eq_true_eq] at h
    by_cases hp : p (k, v) = true
    · simp only [List.filter_cons_of_pos hp, SMap.risingFrom, Bool.and_eq_true, decide_eq_true_eq]
      exact ⟨h.1, ih _ h.2⟩
    · rw [List.filter_cons_of_neg hp]
      exact SMap.risingFrom_mono _ _ _ (by omega) (ih _ h.2)

theorem SMap.risingFrom_filter_above (a k : Nat) (m : List (Nat × α)) (hk : a ≤ k) (h : SMap.risingFrom k m = true) :
    SMap.risingFrom (a + 1) (m.filter (fun e => decide (e.1 ≠ a))) = true := by
  induction m generalizing k with
  | nil => rfl
  | cons e t ih =>
    obtain ⟨j, v⟩ := e
    simp only [SMap.risingFrom, Bool.and_eq_true, decide_eq_true_eq] at h
    by_cases hj : j = a
    · subst hj
      have : ((j, v) :: t).filter (fun e => decide (e.1 ≠ j)) = t.filter (fun e => decide (e.1 ≠ j)) := by simp
      rw [this]
      exact ih (j + 1) (by omega) h.2
    · have : ((j, v) :: t).filter (fun e => decide (e.1 ≠ a)) = (j, v) :: t.filter (fun e => decide (e.1 ≠ a)) := by
        simp [hj]
      rw [this]
      simp only [SMap.risingFrom, Bool.and_eq_true, decide_eq_true_eq]
      exact ⟨by omega, SMap.risingFrom_filter _ _ _ h.2⟩

theorem SMap.risingFrom_put (d : Nat → α) (m : List (Nat × α)) (a : Nat) (v : α) (lo : Nat) (ha : lo ≤ a)
    (h : SMap.risingFrom lo m = true) : SMap.risingFrom lo (SMap.put d m a v) = true := by
  induction m generalizing lo with
  | nil =>
    unfold SMap.put
    by_cases hv : v = d a
    · simp [hv, SMap.risingFrom]
    · simp [hv, SMap.risingFrom, ha]
  | cons e t ih =>
    obtain ⟨k, w⟩ := e
    have h' := h
    simp only [SMap.risingFrom, Bool.and_eq_true, decide_eq_true_eq] at h
    unfold SMap.put
    by_cases hk : k < a
    · simp only [hk, if_true, SMap.risingFrom, Bool.and_eq_true, decide_eq_true_eq]
      exact ⟨h.1, ih (k + 1) (by omega) h.2⟩
    · simp only [hk, if_false]
      by_cases hv : v = d a
      · simp only [hv, if_true]
        exact SMap.risingFrom_filter _ _ _ h'
      · simp only [hv, if_false, SMap.risingFrom, Bool.and_eq_true, decide_eq_true_eq]
        refine ⟨ha, SMap.risingFrom_filter_above a k _ (by omega) ?_⟩
        simp only [SMap.risingFrom, Bool.and_eq_true, decide_eq_true_eq]
        exact ⟨Nat.le_refl _, h.2⟩

theorem SMap.all_put (d : Nat → α) (m : List (Nat × α)) (a : Nat) (v : α)
    (h : m.all (fun e => decide (e.2 ≠ d e.1)) = true) :
    (SMap.put d m a v).all (fun e => decide (e.2 ≠ d e.1)) = true := by
  induction m with
  | nil =>
    unfold SMap.put
    by_cases hv : v = d a
    · simp [hv]
    · simp [hv]
  | cons e t ih =>
    obtain ⟨k, w⟩ := e
    have h' := h
    simp only [List.all_cons, Bool.and_eq_true] at h
    unfold SMap.put
    by_cases hk : k < a
    · simp only [hk, if_true, List.all_cons, Bool.and_eq_true]
      exact ⟨h.1, ih h.2⟩
    · simp only [hk, if_false]
      have hf : (((k, w) :: t).filter (fun e => decide (e.1 ≠ a))).all (fun e => decide (e.2 ≠ d e.1)) = true := by
        rw [List.all_eq_true] at h' ⊢
        intro x hx
        exact h' x (List.mem_filter.mp hx).1
      by_cases hv : v = d a
      · simp only [hv, if_true]; exact hf
      · simp only [hv, if_false, List.all_cons, Bool.and_eq_true]
        exact ⟨by simpa using hv, hf⟩

/-- A write keeps the canonical form. -/
theorem SMap.wf_put (d : Nat → α) (m : List (Nat × α)) (a : Nat) (v : α) (h : SMap.wf d m = true) :
    SMap.wf d (SMap.put d m a v) = true := by
  unfold SMap.wf at *
  simp only [Bool.and_eq_true] at h ⊢
  exact ⟨SMap.risingFrom_put d m a v 0 (Nat.zero_le _) h.1, SMap.all_put d m a v h.2⟩

/-- Dropping entries keeps the canonical form. -/
theorem SMap.wf_filter (d : Nat → α) (p : Nat × α → Bool) (m : List (Nat × α)) (h : SMap.wf d m = true) :
    SMap.wf d (m.filter p) = true := by
  unfold SMap.wf at *
  simp only [Bool.and_eq_true] at h ⊢
  refine ⟨SMap.risingFrom_filter p m 0 h.1, ?_⟩
  have h2 := h.2
  rw [List.all_eq_true] at h2 ⊢
  intro x hx
  exact h2 x (List.mem_filter.mp hx).1

theorem SMap.wf_clear (d : Nat → α) (p : Nat → Bool) (m : List (Nat × α)) (h : SMap.wf d m = true) :
    SMap.wf d (SMap.clear p m) = true := SMap.wf_filter d _ m h

theorem SMap.wf_nil (d : Nat → α) : SMap.wf d [] = true := rfl

omit [DecidableEq α] in
theorem SMap.get_of_le (d : Nat → α) (m : List (Nat × α)) (lo a : Nat) (h : SMap.risingFrom lo m = true) (ha : a < lo) :
    SMap.get d m a = d a := by
  induction m generalizing lo with
  | nil => rfl
  | cons e t ih =>
    obtain ⟨k, v⟩ := e
    simp only [SMap.risingFrom, Bool.and_eq_true, decide_eq_true_eq] at h
    rw [SMap.get, if_neg (by omega)]
    exact ih (k + 1) h.2 (by omega)

/-- Two maps in canonical form that read alike are equal. -/
theorem SMap.ext_wf (d : Nat → α) (m m' : List (Nat × α)) (lo : Nat) (h : SMap.risingFrom lo m = true)
    (h' : SMap.risingFrom lo m' = true) (ha : m.all (fun e => decide (e.2 ≠ d e.1)) = true)
    (ha' : m'.all (fun e => decide (e.2 ≠ d e.1)) = true) (hg : ∀ a, SMap.get d m a = SMap.get d m' a) : m = m' := by
  induction m generalizing m' lo with
  | nil =>
    cases m' with
    | nil => rfl
    | cons e t =>
      obtain ⟨k, v⟩ := e
      have := hg k
      simp [SMap.get] at this
      simp [this] at ha'
  | cons e t ih =>
    obtain ⟨k, v⟩ := e
    have hv : v ≠ d k := by simpa using (List.all_eq_true.mp ha) (k, v) (List.mem_cons_self ..)
    simp only [SMap.risingFrom, Bool.and_eq_true, decide_eq_true_eq] at h
    cases m' with
    | nil =>
      have := hg k
      simp [SMap.get] at this
      exact absurd this hv
    | cons e' t' =>
      obtain ⟨k', v'⟩ := e'
      have hv' : v' ≠ d k' := by simpa using (List.all_eq_true.mp ha') (k', v') (List.mem_cons_self ..)
      simp only [SMap.risingFrom, Bool.and_eq_true, decide_eq_true_eq] at h'
      have hk : k = k' := by
        rcases Nat.lt_trichotomy k k' with hlt | heq | hgt
        · exfalso
          have := hg k
          rw [SMap.get, if_pos rfl, SMap.get, if_neg (by omega),
            SMap.get_of_le d t' (k' + 1) k h'.2 (by omega)] at this
          exact hv this
        · exact heq
        · exfalso
          have := hg k'
          rw [SMap.get, if_neg (by omega), SMap.get_of_le d t (k + 1) k' h.2 (by omega), SMap.get, if_pos rfl] at this
          exact hv' this.symm
      subst hk
      have hvv : v = v' := by
        have := hg k
        simpa [SMap.get] using this
      subst hvv
      have ht : t = t' := by
        refine ih t' (k + 1) h.2 h'.2 ?_ ?_ ?_
        · simp only [List.all_cons, Bool.and_eq_true] at ha; exact ha.2
        · simp only [List.all_cons, Bool.and_eq_true] at ha'; exact ha'.2
        · intro a
          by_cases hak : k = a
          · subst hak
            rw [SMap.get_of_le d t (k + 1) k h.2 (by omega), SMap.get_of_le d t' (k + 1) k h'.2 (by omega)]
          · have := hg a
            rwa [SMap.get, if_neg hak, SMap.get, if_neg hak] at this
      rw [ht]

end Machine
end Sys2Proof
end

