-- ==== Sys2Proof/Laws/Fields.lean ====
section
/-! SUPPORT. Register fields: what a field reads after a field has been written. -/

namespace Sys2Proof
namespace Machine

theorem Fld.mask_getLsbD (f : Fld) (h : f.lo + f.width ≤ 32) (i : Nat) :
    f.mask.getLsbD i = (decide (f.lo ≤ i) && decide (i < f.lo + f.width)) := by
  unfold Fld.mask
  rw [BitVec.getLsbD_ofNat, Nat.testBit_shiftLeft, Nat.testBit_two_pow_sub_one]
  by_cases h1 : f.lo ≤ i
  · by_cases h2 : i < f.lo + f.width
    · have : i < 32 := by omega
      have : i - f.lo < f.width := by omega
      simp [*]
    · have : ¬ (i - f.lo < f.width) := by omega
      simp [*]
  · simp [*]

theorem Fld.get_testBit (f : Fld) (w : Word) (i : Nat) :
    (f.get w).testBit i = (decide (i < f.width) && w.getLsbD (f.lo + i)) := by
  unfold Fld.get
  rw [Nat.testBit_mod_two_pow, Nat.testBit_shiftRight, BitVec.getLsbD]

theorem Fld.put_getLsbD (f : Fld) (h : f.lo + f.width ≤ 32) (w : Word) (v i : Nat) :
    (f.put w v).getLsbD i =
      if f.lo ≤ i ∧ i < f.lo + f.width then v.testBit (i - f.lo) else w.getLsbD i := by
  unfold Fld.put
  rw [BitVec.getLsbD_or, BitVec.getLsbD_and, BitVec.getLsbD_not, Fld.mask_getLsbD f h, BitVec.getLsbD_ofNat,
    Nat.testBit_shiftLeft, Nat.testBit_mod_two_pow]
  by_cases h1 : f.lo ≤ i
  · by_cases h2 : i < f.lo + f.width
    · have : i < 32 := by omega
      have : i - f.lo < f.width := by omega
      simp [*]
    · have : ¬ (i - f.lo < f.width) := by omega
      by_cases h3 : i < 32
      · simp [*]
      · simp [*, BitVec.getLsbD_of_ge w i (by omega)]
  · by_cases h3 : i < 32
    · simp [*]
    · simp [*, BitVec.getLsbD_of_ge w i (by omega)]

/-- The field written reads the low bits of what was written. -/
theorem Fld.get_put (f : Fld) (h : f.lo + f.width ≤ 32) (w : Word) (v : Nat) :
    f.get (f.put w v) = v % 2 ^ f.width := by
  apply Nat.eq_of_testBit_eq
  intro i
  rw [Fld.get_testBit, Fld.put_getLsbD f h, Nat.testBit_mod_two_pow]
  by_cases hi : i < f.width
  · have h1 : f.lo ≤ f.lo + i ∧ f.lo + i < f.lo + f.width := by omega
    simp [hi]
  · simp [hi]

/-- Every other field of the register reads as before. -/
theorem Fld.get_put_ne (f g : Fld) (h : f.lo + f.width ≤ 32) (w : Word) (v : Nat)
    (hd : f.lo + f.width ≤ g.lo ∨ g.lo + g.width ≤ f.lo) : g.get (f.put w v) = g.get w := by
  apply Nat.eq_of_testBit_eq
  intro i
  rw [Fld.get_testBit, Fld.get_testBit, Fld.put_getLsbD f h]
  by_cases hi : i < g.width
  · have h1 : ¬ (f.lo ≤ g.lo + i ∧ g.lo + i < f.lo + f.width) := by omega
    simp [h1]
  · simp [hi]

theorem Fld.get_lt (f : Fld) (w : Word) : f.get w < 2 ^ f.width := Nat.mod_lt _ (Nat.two_pow_pos _)

theorem Fld.get_zero (f : Fld) : f.get 0 = 0 := by simp [Fld.get]

theorem b2n_lt (b : Bool) : b2n b < 2 := by cases b <;> decide

/-! Reading a register after writing one. -/

@[simp] theorem State.reg_setReg (s : State) (a : Nat) (v : Word) (b : Nat) :
    (s.setReg a v).reg b = if b = a then v else s.reg b := SMap.get_put resetOf s.regs a v b

theorem State.reg_setReg_self (s : State) (a : Nat) (v : Word) : (s.setReg a v).reg a = v := by simp

theorem State.reg_setReg_ne (s : State) (a : Nat) (v : Word) (b : Nat) (h : b ≠ a) : (s.setReg a v).reg b = s.reg b := by
  simp [h]

theorem State.reg_setF_ne (s : State) (a : Nat) (f : Fld) (v b : Nat) (h : b ≠ a) : (s.setF a f v).reg b = s.reg b := by
  simp [State.setF, h]

theorem State.reg_setB_ne (s : State) (a : Nat) (f : Fld) (c : Bool) (b : Nat) (h : b ≠ a) :
    (s.setB a f c).reg b = s.reg b := State.reg_setF_ne s a f _ b h

theorem State.reg_count_ne (s : State) (a : Nat) (f : Fld) (b : Nat) (h : b ≠ a) : (s.count a f).reg b = s.reg b :=
  State.reg_setF_ne s a f _ b h

theorem State.reg_countWrap_ne (s : State) (a : Nat) (f : Fld) (b : Nat) (h : b ≠ a) :
    (s.countWrap a f).reg b = s.reg b := State.reg_setF_ne s a f _ b h

/-- The field just written. -/
theorem State.getF_setF (s : State) (a : Nat) (f : Fld) (v : Nat) (h : f.lo + f.width ≤ 32) :
    (s.setF a f v).getF a f = v % 2 ^ f.width := by
  simp only [State.getF, State.setF, State.reg_setReg_self, Fld.get_put f h]

/-- A field of another register. -/
theorem State.getF_setF_reg (s : State) (a : Nat) (f : Fld) (v b : Nat) (g : Fld) (h : b ≠ a) :
    (s.setF a f v).getF b g = s.getF b g := by simp only [State.getF, State.reg_setF_ne s a f v b h]

/-- Another field of the same register. -/
theorem State.getF_setF_fld (s : State) (a : Nat) (f : Fld) (v : Nat) (g : Fld) (h : f.lo + f.width ≤ 32)
    (hd : f.lo + f.width ≤ g.lo ∨ g.lo + g.width ≤ f.lo) : (s.setF a f v).getF a g = s.getF a g := by
  simp only [State.getF, State.setF, State.reg_setReg_self, Fld.get_put_ne f g h _ _ hd]

/-- A field anywhere that shares no bit with the one written. -/
theorem State.getF_setF_ne (s : State) (a : Nat) (f : Fld) (v b : Nat) (g : Fld) (h : f.lo + f.width ≤ 32)
    (hd : b ≠ a ∨ f.lo + f.width ≤ g.lo ∨ g.lo + g.width ≤ f.lo) : (s.setF a f v).getF b g = s.getF b g := by
  by_cases hb : b = a
  · subst hb
    exact State.getF_setF_fld s b f v g h (by simpa using hd)
  · exact State.getF_setF_reg s a f v b g hb

theorem State.isSet_setB (s : State) (a : Nat) (f : Fld) (c : Bool) (h : f.lo + f.width ≤ 32) (hw : 0 < f.width) :
    (s.setB a f c).isSet a f = c := by
  unfold State.isSet State.setB
  rw [State.getF_setF s a f _ h]
  have h2 : 2 ≤ 2 ^ f.width := by
    calc 2 = 2 ^ 1 := rfl
      _ ≤ 2 ^ f.width := Nat.pow_le_pow_right (by omega) hw
  rw [Nat.mod_eq_of_lt (Nat.lt_of_lt_of_le (b2n_lt c) h2)]
  cases c <;> decide

theorem State.isSet_setF_ne (s : State) (a : Nat) (f : Fld) (v b : Nat) (g : Fld) (h : f.lo + f.width ≤ 32)
    (hd : b ≠ a ∨ f.lo + f.width ≤ g.lo ∨ g.lo + g.width ≤ f.lo) : (s.setF a f v).isSet b g = s.isSet b g := by
  unfold State.isSet
  rw [State.getF_setF_ne s a f v b g h hd]

theorem State.getF_lt (s : State) (a : Nat) (f : Fld) : s.getF a f < 2 ^ f.width := Fld.get_lt f _

/-- A saturating counter after its count. -/
theorem State.getF_count (s : State) (a : Nat) (f : Fld) (h : f.lo + f.width ≤ 32) :
    (s.count a f).getF a f = min f.top (s.getF a f + 1) := by
  have hlt := State.getF_lt s a f
  have hp : 0 < 2 ^ f.width := Nat.two_pow_pos _
  unfold State.count
  rw [State.getF_setF s a f _ h]
  unfold satInc Fld.top
  split
  · rw [Nat.mod_eq_of_lt (by omega)]; omega
  · rw [Nat.mod_eq_of_lt hlt]; omega

/-- A wrapping counter after its count. -/
theorem State.getF_countWrap (s : State) (a : Nat) (f : Fld) (h : f.lo + f.width ≤ 32) :
    (s.countWrap a f).getF a f = (s.getF a f + 1) % 2 ^ f.width := State.getF_setF s a f _ h

end Machine
end Sys2Proof
end

