-- ==== Sys2Proof/Laws/State.lean ====
section
/-! SUPPORT. What each elementary update of the state leaves as it was: one lemma per update and field. -/

namespace Sys2Proof
namespace Machine

@[simp] theorem State.setReg_part (s : State) (a : Nat) (v : Word) : (s.setReg a v).part = s.part := rfl
@[simp] theorem State.setReg_mtime (s : State) (a : Nat) (v : Word) : (s.setReg a v).mtime = s.mtime := rfl
@[simp] theorem State.setReg_clock (s : State) (a : Nat) (v : Word) : (s.setReg a v).clock = s.clock := rfl
@[simp] theorem State.setReg_free (s : State) (a : Nat) (v : Word) : (s.setReg a v).free = s.free := rfl
@[simp] theorem State.setReg_cells (s : State) (a : Nat) (v : Word) : (s.setReg a v).cells = s.cells := rfl
@[simp] theorem State.setReg_busOut (s : State) (a : Nat) (v : Word) : (s.setReg a v).busOut = s.busOut := rfl
@[simp] theorem State.setReg_outs (s : State) (a : Nat) (v : Word) : (s.setReg a v).outs = s.outs := rfl
@[simp] theorem State.setReg_evr (s : State) (a : Nat) (v : Word) : (s.setReg a v).evr = s.evr := rfl
@[simp] theorem State.setReg_grg (s : State) (a : Nat) (v : Word) : (s.setReg a v).grg = s.grg := rfl
@[simp] theorem State.setReg_sar (s : State) (a : Nat) (v : Word) : (s.setReg a v).sar = s.sar := rfl
@[simp] theorem State.setReg_hil (s : State) (a : Nat) (v : Word) : (s.setReg a v).hil = s.hil := rfl
@[simp] theorem State.setReg_cle (s : State) (a : Nat) (v : Word) : (s.setReg a v).cle = s.cle := rfl
@[simp] theorem State.setReg_pwm (s : State) (a : Nat) (v : Word) : (s.setReg a v).pwm = s.pwm := rfl
@[simp] theorem State.setReg_cap (s : State) (a : Nat) (v : Word) : (s.setReg a v).cap = s.cap := rfl
@[simp] theorem State.setReg_inj (s : State) (a : Nat) (v : Word) : (s.setReg a v).inj = s.inj := rfl
@[simp] theorem State.setReg_ctl (s : State) (a : Nat) (v : Word) : (s.setReg a v).ctl = s.ctl := rfl
@[simp] theorem State.setReg_edgeSeq (s : State) (a : Nat) (v : Word) : (s.setReg a v).edgeSeq = s.edgeSeq := rfl
@[simp] theorem State.setReg_edgeRidx (s : State) (a : Nat) (v : Word) : (s.setReg a v).edgeRidx = s.edgeRidx := rfl
@[simp] theorem State.setReg_pwy (s : State) (a : Nat) (v : Word) : (s.setReg a v).pwy = s.pwy := rfl
@[simp] theorem State.setReg_core (s : State) (a : Nat) (v : Word) : (s.setReg a v).core = s.core := rfl
@[simp] theorem State.setReg_prog (s : State) (a : Nat) (v : Word) : (s.setReg a v).prog = s.prog := rfl
@[simp] theorem State.setReg_mstore (s : State) (a : Nat) (v : Word) : (s.setReg a v).mstore = s.mstore := rfl
@[simp] theorem State.setReg_mcopy (s : State) (a : Nat) (v : Word) : (s.setReg a v).mcopy = s.mcopy := rfl
@[simp] theorem State.setReg_copyBad (s : State) (a : Nat) (v : Word) : (s.setReg a v).copyBad = s.copyBad := rfl
@[simp] theorem State.setReg_copyLost (s : State) (a : Nat) (v : Word) : (s.setReg a v).copyLost = s.copyLost := rfl
@[simp] theorem State.setReg_copySet (s : State) (a : Nat) (v : Word) : (s.setReg a v).copySet = s.copySet := rfl
@[simp] theorem State.setReg_mver (s : State) (a : Nat) (v : Word) : (s.setReg a v).mver = s.mver := rfl
@[simp] theorem State.setReg_mem (s : State) (a : Nat) (v : Word) : (s.setReg a v).mem = s.mem := rfl
@[simp] theorem State.setReg_dma (s : State) (a : Nat) (v : Word) : (s.setReg a v).dma = s.dma := rfl
@[simp] theorem State.setReg_twn (s : State) (a : Nat) (v : Word) : (s.setReg a v).twn = s.twn := rfl
@[simp] theorem State.setReg_mad (s : State) (a : Nat) (v : Word) : (s.setReg a v).mad = s.mad := rfl
@[simp] theorem State.setReg_fns (s : State) (a : Nat) (v : Word) : (s.setReg a v).fns = s.fns := rfl
@[simp] theorem State.setReg_fetchNext (s : State) (a : Nat) (v : Word) : (s.setReg a v).fetchNext = s.fetchNext := rfl
@[simp] theorem State.setReg_vfEnable (s : State) (a : Nat) (v : Word) : (s.setReg a v).vfEnable = s.vfEnable := rfl
@[simp] theorem State.setReg_numVfs (s : State) (a : Nat) (v : Word) : (s.setReg a v).numVfs = s.numVfs := rfl
@[simp] theorem State.setReg_img (s : State) (a : Nat) (v : Word) : (s.setReg a v).img = s.img := rfl
@[simp] theorem State.setReg_trc (s : State) (a : Nat) (v : Word) : (s.setReg a v).trc = s.trc := rfl
@[simp] theorem State.setReg_mergeNext (s : State) (a : Nat) (v : Word) : (s.setReg a v).mergeNext = s.mergeNext := rfl
@[simp] theorem State.setReg_mergeFrom (s : State) (a : Nat) (v : Word) : (s.setReg a v).mergeFrom = s.mergeFrom := rfl
@[simp] theorem State.setReg_wdgFirst (s : State) (a : Nat) (v : Word) : (s.setReg a v).wdgFirst = s.wdgFirst := rfl
@[simp] theorem State.setReg_ptbBy (s : State) (a : Nat) (v : Word) : (s.setReg a v).ptbBy = s.ptbBy := rfl
@[simp] theorem State.setReg_ptbAt (s : State) (a : Nat) (v : Word) : (s.setReg a v).ptbAt = s.ptbAt := rfl
@[simp] theorem State.setReg_ptbCause (s : State) (a : Nat) (v : Word) : (s.setReg a v).ptbCause = s.ptbCause := rfl
@[simp] theorem State.setReg_dbLate (s : State) (a : Nat) (v : Word) : (s.setReg a v).dbLate = s.dbLate := rfl
@[simp] theorem State.setReg_flc (s : State) (a : Nat) (v : Word) : (s.setReg a v).flc = s.flc := rfl
@[simp] theorem State.setReg_sec (s : State) (a : Nat) (v : Word) : (s.setReg a v).sec = s.sec := rfl
@[simp] theorem State.setReg_pwr (s : State) (a : Nat) (v : Word) : (s.setReg a v).pwr = s.pwr := rfl
@[simp] theorem State.setReg_dbg (s : State) (a : Nat) (v : Word) : (s.setReg a v).dbg = s.dbg := rfl
@[simp] theorem State.setReg_modeReq (s : State) (a : Nat) (v : Word) : (s.setReg a v).modeReq = s.modeReq := rfl
@[simp] theorem State.setReg_sysDown (s : State) (a : Nat) (v : Word) : (s.setReg a v).sysDown = s.sysDown := rfl
@[simp] theorem State.setReg_rollback (s : State) (a : Nat) (v : Word) : (s.setReg a v).rollback = s.rollback := rfl
@[simp] theorem State.setReg_pending (s : State) (a : Nat) (v : Word) : (s.setReg a v).pending = s.pending := rfl

@[simp] theorem State.setF_part (s : State) (a : Nat) (f : Fld) (v : Nat) : (s.setF a f v).part = s.part := rfl
@[simp] theorem State.setF_mtime (s : State) (a : Nat) (f : Fld) (v : Nat) : (s.setF a f v).mtime = s.mtime := rfl
@[simp] theorem State.setF_clock (s : State) (a : Nat) (f : Fld) (v : Nat) : (s.setF a f v).clock = s.clock := rfl
@[simp] theorem State.setF_free (s : State) (a : Nat) (f : Fld) (v : Nat) : (s.setF a f v).free = s.free := rfl
@[simp] theorem State.setF_cells (s : State) (a : Nat) (f : Fld) (v : Nat) : (s.setF a f v).cells = s.cells := rfl
@[simp] theorem State.setF_busOut (s : State) (a : Nat) (f : Fld) (v : Nat) : (s.setF a f v).busOut = s.busOut := rfl
@[simp] theorem State.setF_outs (s : State) (a : Nat) (f : Fld) (v : Nat) : (s.setF a f v).outs = s.outs := rfl
@[simp] theorem State.setF_evr (s : State) (a : Nat) (f : Fld) (v : Nat) : (s.setF a f v).evr = s.evr := rfl
@[simp] theorem State.setF_grg (s : State) (a : Nat) (f : Fld) (v : Nat) : (s.setF a f v).grg = s.grg := rfl
@[simp] theorem State.setF_sar (s : State) (a : Nat) (f : Fld) (v : Nat) : (s.setF a f v).sar = s.sar := rfl
@[simp] theorem State.setF_hil (s : State) (a : Nat) (f : Fld) (v : Nat) : (s.setF a f v).hil = s.hil := rfl
@[simp] theorem State.setF_cle (s : State) (a : Nat) (f : Fld) (v : Nat) : (s.setF a f v).cle = s.cle := rfl
@[simp] theorem State.setF_pwm (s : State) (a : Nat) (f : Fld) (v : Nat) : (s.setF a f v).pwm = s.pwm := rfl
@[simp] theorem State.setF_cap (s : State) (a : Nat) (f : Fld) (v : Nat) : (s.setF a f v).cap = s.cap := rfl
@[simp] theorem State.setF_inj (s : State) (a : Nat) (f : Fld) (v : Nat) : (s.setF a f v).inj = s.inj := rfl
@[simp] theorem State.setF_ctl (s : State) (a : Nat) (f : Fld) (v : Nat) : (s.setF a f v).ctl = s.ctl := rfl
@[simp] theorem State.setF_edgeSeq (s : State) (a : Nat) (f : Fld) (v : Nat) : (s.setF a f v).edgeSeq = s.edgeSeq := rfl
@[simp] theorem State.setF_edgeRidx (s : State) (a : Nat) (f : Fld) (v : Nat) : (s.setF a f v).edgeRidx = s.edgeRidx := rfl
@[simp] theorem State.setF_pwy (s : State) (a : Nat) (f : Fld) (v : Nat) : (s.setF a f v).pwy = s.pwy := rfl
@[simp] theorem State.setF_core (s : State) (a : Nat) (f : Fld) (v : Nat) : (s.setF a f v).core = s.core := rfl
@[simp] theorem State.setF_prog (s : State) (a : Nat) (f : Fld) (v : Nat) : (s.setF a f v).prog = s.prog := rfl
@[simp] theorem State.setF_mstore (s : State) (a : Nat) (f : Fld) (v : Nat) : (s.setF a f v).mstore = s.mstore := rfl
@[simp] theorem State.setF_mcopy (s : State) (a : Nat) (f : Fld) (v : Nat) : (s.setF a f v).mcopy = s.mcopy := rfl
@[simp] theorem State.setF_copyBad (s : State) (a : Nat) (f : Fld) (v : Nat) : (s.setF a f v).copyBad = s.copyBad := rfl
@[simp] theorem State.setF_copyLost (s : State) (a : Nat) (f : Fld) (v : Nat) : (s.setF a f v).copyLost = s.copyLost := rfl
@[simp] theorem State.setF_copySet (s : State) (a : Nat) (f : Fld) (v : Nat) : (s.setF a f v).copySet = s.copySet := rfl
@[simp] theorem State.setF_mver (s : State) (a : Nat) (f : Fld) (v : Nat) : (s.setF a f v).mver = s.mver := rfl
@[simp] theorem State.setF_mem (s : State) (a : Nat) (f : Fld) (v : Nat) : (s.setF a f v).mem = s.mem := rfl
@[simp] theorem State.setF_dma (s : State) (a : Nat) (f : Fld) (v : Nat) : (s.setF a f v).dma = s.dma := rfl
@[simp] theorem State.setF_twn (s : State) (a : Nat) (f : Fld) (v : Nat) : (s.setF a f v).twn = s.twn := rfl
@[simp] theorem State.setF_mad (s : State) (a : Nat) (f : Fld) (v : Nat) : (s.setF a f v).mad = s.mad := rfl
@[simp] theorem State.setF_fns (s : State) (a : Nat) (f : Fld) (v : Nat) : (s.setF a f v).fns = s.fns := rfl
@[simp] theorem State.setF_fetchNext (s : State) (a : Nat) (f : Fld) (v : Nat) : (s.setF a f v).fetchNext = s.fetchNext := rfl
@[simp] theorem State.setF_vfEnable (s : State) (a : Nat) (f : Fld) (v : Nat) : (s.setF a f v).vfEnable = s.vfEnable := rfl
@[simp] theorem State.setF_numVfs (s : State) (a : Nat) (f : Fld) (v : Nat) : (s.setF a f v).numVfs = s.numVfs := rfl
@[simp] theorem State.setF_img (s : State) (a : Nat) (f : Fld) (v : Nat) : (s.setF a f v).img = s.img := rfl
@[simp] theorem State.setF_trc (s : State) (a : Nat) (f : Fld) (v : Nat) : (s.setF a f v).trc = s.trc := rfl
@[simp] theorem State.setF_mergeNext (s : State) (a : Nat) (f : Fld) (v : Nat) : (s.setF a f v).mergeNext = s.mergeNext := rfl
@[simp] theorem State.setF_mergeFrom (s : State) (a : Nat) (f : Fld) (v : Nat) : (s.setF a f v).mergeFrom = s.mergeFrom := rfl
@[simp] theorem State.setF_wdgFirst (s : State) (a : Nat) (f : Fld) (v : Nat) : (s.setF a f v).wdgFirst = s.wdgFirst := rfl
@[simp] theorem State.setF_ptbBy (s : State) (a : Nat) (f : Fld) (v : Nat) : (s.setF a f v).ptbBy = s.ptbBy := rfl
@[simp] theorem State.setF_ptbAt (s : State) (a : Nat) (f : Fld) (v : Nat) : (s.setF a f v).ptbAt = s.ptbAt := rfl
@[simp] theorem State.setF_ptbCause (s : State) (a : Nat) (f : Fld) (v : Nat) : (s.setF a f v).ptbCause = s.ptbCause := rfl
@[simp] theorem State.setF_dbLate (s : State) (a : Nat) (f : Fld) (v : Nat) : (s.setF a f v).dbLate = s.dbLate := rfl
@[simp] theorem State.setF_flc (s : State) (a : Nat) (f : Fld) (v : Nat) : (s.setF a f v).flc = s.flc := rfl
@[simp] theorem State.setF_sec (s : State) (a : Nat) (f : Fld) (v : Nat) : (s.setF a f v).sec = s.sec := rfl
@[simp] theorem State.setF_pwr (s : State) (a : Nat) (f : Fld) (v : Nat) : (s.setF a f v).pwr = s.pwr := rfl
@[simp] theorem State.setF_dbg (s : State) (a : Nat) (f : Fld) (v : Nat) : (s.setF a f v).dbg = s.dbg := rfl
@[simp] theorem State.setF_modeReq (s : State) (a : Nat) (f : Fld) (v : Nat) : (s.setF a f v).modeReq = s.modeReq := rfl
@[simp] theorem State.setF_sysDown (s : State) (a : Nat) (f : Fld) (v : Nat) : (s.setF a f v).sysDown = s.sysDown := rfl
@[simp] theorem State.setF_rollback (s : State) (a : Nat) (f : Fld) (v : Nat) : (s.setF a f v).rollback = s.rollback := rfl
@[simp] theorem State.setF_pending (s : State) (a : Nat) (f : Fld) (v : Nat) : (s.setF a f v).pending = s.pending := rfl

@[simp] theorem State.setB_part (s : State) (a : Nat) (f : Fld) (b : Bool) : (s.setB a f b).part = s.part := rfl
@[simp] theorem State.setB_mtime (s : State) (a : Nat) (f : Fld) (b : Bool) : (s.setB a f b).mtime = s.mtime := rfl
@[simp] theorem State.setB_clock (s : State) (a : Nat) (f : Fld) (b : Bool) : (s.setB a f b).clock = s.clock := rfl
@[simp] theorem State.setB_free (s : State) (a : Nat) (f : Fld) (b : Bool) : (s.setB a f b).free = s.free := rfl
@[simp] theorem State.setB_cells (s : State) (a : Nat) (f : Fld) (b : Bool) : (s.setB a f b).cells = s.cells := rfl
@[simp] theorem State.setB_busOut (s : State) (a : Nat) (f : Fld) (b : Bool) : (s.setB a f b).busOut = s.busOut := rfl
@[simp] theorem State.setB_outs (s : State) (a : Nat) (f : Fld) (b : Bool) : (s.setB a f b).outs = s.outs := rfl
@[simp] theorem State.setB_evr (s : State) (a : Nat) (f : Fld) (b : Bool) : (s.setB a f b).evr = s.evr := rfl
@[simp] theorem State.setB_grg (s : State) (a : Nat) (f : Fld) (b : Bool) : (s.setB a f b).grg = s.grg := rfl
@[simp] theorem State.setB_sar (s : State) (a : Nat) (f : Fld) (b : Bool) : (s.setB a f b).sar = s.sar := rfl
@[simp] theorem State.setB_hil (s : State) (a : Nat) (f : Fld) (b : Bool) : (s.setB a f b).hil = s.hil := rfl
@[simp] theorem State.setB_cle (s : State) (a : Nat) (f : Fld) (b : Bool) : (s.setB a f b).cle = s.cle := rfl
@[simp] theorem State.setB_pwm (s : State) (a : Nat) (f : Fld) (b : Bool) : (s.setB a f b).pwm = s.pwm := rfl
@[simp] theorem State.setB_cap (s : State) (a : Nat) (f : Fld) (b : Bool) : (s.setB a f b).cap = s.cap := rfl
@[simp] theorem State.setB_inj (s : State) (a : Nat) (f : Fld) (b : Bool) : (s.setB a f b).inj = s.inj := rfl
@[simp] theorem State.setB_ctl (s : State) (a : Nat) (f : Fld) (b : Bool) : (s.setB a f b).ctl = s.ctl := rfl
@[simp] theorem State.setB_edgeSeq (s : State) (a : Nat) (f : Fld) (b : Bool) : (s.setB a f b).edgeSeq = s.edgeSeq := rfl
@[simp] theorem State.setB_edgeRidx (s : State) (a : Nat) (f : Fld) (b : Bool) : (s.setB a f b).edgeRidx = s.edgeRidx := rfl
@[simp] theorem State.setB_pwy (s : State) (a : Nat) (f : Fld) (b : Bool) : (s.setB a f b).pwy = s.pwy := rfl
@[simp] theorem State.setB_core (s : State) (a : Nat) (f : Fld) (b : Bool) : (s.setB a f b).core = s.core := rfl
@[simp] theorem State.setB_prog (s : State) (a : Nat) (f : Fld) (b : Bool) : (s.setB a f b).prog = s.prog := rfl
@[simp] theorem State.setB_mstore (s : State) (a : Nat) (f : Fld) (b : Bool) : (s.setB a f b).mstore = s.mstore := rfl
@[simp] theorem State.setB_mcopy (s : State) (a : Nat) (f : Fld) (b : Bool) : (s.setB a f b).mcopy = s.mcopy := rfl
@[simp] theorem State.setB_copyBad (s : State) (a : Nat) (f : Fld) (b : Bool) : (s.setB a f b).copyBad = s.copyBad := rfl
@[simp] theorem State.setB_copyLost (s : State) (a : Nat) (f : Fld) (b : Bool) : (s.setB a f b).copyLost = s.copyLost := rfl
@[simp] theorem State.setB_copySet (s : State) (a : Nat) (f : Fld) (b : Bool) : (s.setB a f b).copySet = s.copySet := rfl
@[simp] theorem State.setB_mver (s : State) (a : Nat) (f : Fld) (b : Bool) : (s.setB a f b).mver = s.mver := rfl
@[simp] theorem State.setB_mem (s : State) (a : Nat) (f : Fld) (b : Bool) : (s.setB a f b).mem = s.mem := rfl
@[simp] theorem State.setB_dma (s : State) (a : Nat) (f : Fld) (b : Bool) : (s.setB a f b).dma = s.dma := rfl
@[simp] theorem State.setB_twn (s : State) (a : Nat) (f : Fld) (b : Bool) : (s.setB a f b).twn = s.twn := rfl
@[simp] theorem State.setB_mad (s : State) (a : Nat) (f : Fld) (b : Bool) : (s.setB a f b).mad = s.mad := rfl
@[simp] theorem State.setB_fns (s : State) (a : Nat) (f : Fld) (b : Bool) : (s.setB a f b).fns = s.fns := rfl
@[simp] theorem State.setB_fetchNext (s : State) (a : Nat) (f : Fld) (b : Bool) : (s.setB a f b).fetchNext = s.fetchNext := rfl
@[simp] theorem State.setB_vfEnable (s : State) (a : Nat) (f : Fld) (b : Bool) : (s.setB a f b).vfEnable = s.vfEnable := rfl
@[simp] theorem State.setB_numVfs (s : State) (a : Nat) (f : Fld) (b : Bool) : (s.setB a f b).numVfs = s.numVfs := rfl
@[simp] theorem State.setB_img (s : State) (a : Nat) (f : Fld) (b : Bool) : (s.setB a f b).img = s.img := rfl
@[simp] theorem State.setB_trc (s : State) (a : Nat) (f : Fld) (b : Bool) : (s.setB a f b).trc = s.trc := rfl
@[simp] theorem State.setB_mergeNext (s : State) (a : Nat) (f : Fld) (b : Bool) : (s.setB a f b).mergeNext = s.mergeNext := rfl
@[simp] theorem State.setB_mergeFrom (s : State) (a : Nat) (f : Fld) (b : Bool) : (s.setB a f b).mergeFrom = s.mergeFrom := rfl
@[simp] theorem State.setB_wdgFirst (s : State) (a : Nat) (f : Fld) (b : Bool) : (s.setB a f b).wdgFirst = s.wdgFirst := rfl
@[simp] theorem State.setB_ptbBy (s : State) (a : Nat) (f : Fld) (b : Bool) : (s.setB a f b).ptbBy = s.ptbBy := rfl
@[simp] theorem State.setB_ptbAt (s : State) (a : Nat) (f : Fld) (b : Bool) : (s.setB a f b).ptbAt = s.ptbAt := rfl
@[simp] theorem State.setB_ptbCause (s : State) (a : Nat) (f : Fld) (b : Bool) : (s.setB a f b).ptbCause = s.ptbCause := rfl
@[simp] theorem State.setB_dbLate (s : State) (a : Nat) (f : Fld) (b : Bool) : (s.setB a f b).dbLate = s.dbLate := rfl
@[simp] theorem State.setB_flc (s : State) (a : Nat) (f : Fld) (b : Bool) : (s.setB a f b).flc = s.flc := rfl
@[simp] theorem State.setB_sec (s : State) (a : Nat) (f : Fld) (b : Bool) : (s.setB a f b).sec = s.sec := rfl
@[simp] theorem State.setB_pwr (s : State) (a : Nat) (f : Fld) (b : Bool) : (s.setB a f b).pwr = s.pwr := rfl
@[simp] theorem State.setB_dbg (s : State) (a : Nat) (f : Fld) (b : Bool) : (s.setB a f b).dbg = s.dbg := rfl
@[simp] theorem State.setB_modeReq (s : State) (a : Nat) (f : Fld) (b : Bool) : (s.setB a f b).modeReq = s.modeReq := rfl
@[simp] theorem State.setB_sysDown (s : State) (a : Nat) (f : Fld) (b : Bool) : (s.setB a f b).sysDown = s.sysDown := rfl
@[simp] theorem State.setB_rollback (s : State) (a : Nat) (f : Fld) (b : Bool) : (s.setB a f b).rollback = s.rollback := rfl
@[simp] theorem State.setB_pending (s : State) (a : Nat) (f : Fld) (b : Bool) : (s.setB a f b).pending = s.pending := rfl

@[simp] theorem State.count_part (s : State) (a : Nat) (f : Fld) : (s.count a f).part = s.part := rfl
@[simp] theorem State.count_mtime (s : State) (a : Nat) (f : Fld) : (s.count a f).mtime = s.mtime := rfl
@[simp] theorem State.count_clock (s : State) (a : Nat) (f : Fld) : (s.count a f).clock = s.clock := rfl
@[simp] theorem State.count_free (s : State) (a : Nat) (f : Fld) : (s.count a f).free = s.free := rfl
@[simp] theorem State.count_cells (s : State) (a : Nat) (f : Fld) : (s.count a f).cells = s.cells := rfl
@[simp] theorem State.count_busOut (s : State) (a : Nat) (f : Fld) : (s.count a f).busOut = s.busOut := rfl
@[simp] theorem State.count_outs (s : State) (a : Nat) (f : Fld) : (s.count a f).outs = s.outs := rfl
@[simp] theorem State.count_evr (s : State) (a : Nat) (f : Fld) : (s.count a f).evr = s.evr := rfl
@[simp] theorem State.count_grg (s : State) (a : Nat) (f : Fld) : (s.count a f).grg = s.grg := rfl
@[simp] theorem State.count_sar (s : State) (a : Nat) (f : Fld) : (s.count a f).sar = s.sar := rfl
@[simp] theorem State.count_hil (s : State) (a : Nat) (f : Fld) : (s.count a f).hil = s.hil := rfl
@[simp] theorem State.count_cle (s : State) (a : Nat) (f : Fld) : (s.count a f).cle = s.cle := rfl
@[simp] theorem State.count_pwm (s : State) (a : Nat) (f : Fld) : (s.count a f).pwm = s.pwm := rfl
@[simp] theorem State.count_cap (s : State) (a : Nat) (f : Fld) : (s.count a f).cap = s.cap := rfl
@[simp] theorem State.count_inj (s : State) (a : Nat) (f : Fld) : (s.count a f).inj = s.inj := rfl
@[simp] theorem State.count_ctl (s : State) (a : Nat) (f : Fld) : (s.count a f).ctl = s.ctl := rfl
@[simp] theorem State.count_edgeSeq (s : State) (a : Nat) (f : Fld) : (s.count a f).edgeSeq = s.edgeSeq := rfl
@[simp] theorem State.count_edgeRidx (s : State) (a : Nat) (f : Fld) : (s.count a f).edgeRidx = s.edgeRidx := rfl
@[simp] theorem State.count_pwy (s : State) (a : Nat) (f : Fld) : (s.count a f).pwy = s.pwy := rfl
@[simp] theorem State.count_core (s : State) (a : Nat) (f : Fld) : (s.count a f).core = s.core := rfl
@[simp] theorem State.count_prog (s : State) (a : Nat) (f : Fld) : (s.count a f).prog = s.prog := rfl
@[simp] theorem State.count_mstore (s : State) (a : Nat) (f : Fld) : (s.count a f).mstore = s.mstore := rfl
@[simp] theorem State.count_mcopy (s : State) (a : Nat) (f : Fld) : (s.count a f).mcopy = s.mcopy := rfl
@[simp] theorem State.count_copyBad (s : State) (a : Nat) (f : Fld) : (s.count a f).copyBad = s.copyBad := rfl
@[simp] theorem State.count_copyLost (s : State) (a : Nat) (f : Fld) : (s.count a f).copyLost = s.copyLost := rfl
@[simp] theorem State.count_copySet (s : State) (a : Nat) (f : Fld) : (s.count a f).copySet = s.copySet := rfl
@[simp] theorem State.count_mver (s : State) (a : Nat) (f : Fld) : (s.count a f).mver = s.mver := rfl
@[simp] theorem State.count_mem (s : State) (a : Nat) (f : Fld) : (s.count a f).mem = s.mem := rfl
@[simp] theorem State.count_dma (s : State) (a : Nat) (f : Fld) : (s.count a f).dma = s.dma := rfl
@[simp] theorem State.count_twn (s : State) (a : Nat) (f : Fld) : (s.count a f).twn = s.twn := rfl
@[simp] theorem State.count_mad (s : State) (a : Nat) (f : Fld) : (s.count a f).mad = s.mad := rfl
@[simp] theorem State.count_fns (s : State) (a : Nat) (f : Fld) : (s.count a f).fns = s.fns := rfl
@[simp] theorem State.count_fetchNext (s : State) (a : Nat) (f : Fld) : (s.count a f).fetchNext = s.fetchNext := rfl
@[simp] theorem State.count_vfEnable (s : State) (a : Nat) (f : Fld) : (s.count a f).vfEnable = s.vfEnable := rfl
@[simp] theorem State.count_numVfs (s : State) (a : Nat) (f : Fld) : (s.count a f).numVfs = s.numVfs := rfl
@[simp] theorem State.count_img (s : State) (a : Nat) (f : Fld) : (s.count a f).img = s.img := rfl
@[simp] theorem State.count_trc (s : State) (a : Nat) (f : Fld) : (s.count a f).trc = s.trc := rfl
@[simp] theorem State.count_mergeNext (s : State) (a : Nat) (f : Fld) : (s.count a f).mergeNext = s.mergeNext := rfl
@[simp] theorem State.count_mergeFrom (s : State) (a : Nat) (f : Fld) : (s.count a f).mergeFrom = s.mergeFrom := rfl
@[simp] theorem State.count_wdgFirst (s : State) (a : Nat) (f : Fld) : (s.count a f).wdgFirst = s.wdgFirst := rfl
@[simp] theorem State.count_ptbBy (s : State) (a : Nat) (f : Fld) : (s.count a f).ptbBy = s.ptbBy := rfl
@[simp] theorem State.count_ptbAt (s : State) (a : Nat) (f : Fld) : (s.count a f).ptbAt = s.ptbAt := rfl
@[simp] theorem State.count_ptbCause (s : State) (a : Nat) (f : Fld) : (s.count a f).ptbCause = s.ptbCause := rfl
@[simp] theorem State.count_dbLate (s : State) (a : Nat) (f : Fld) : (s.count a f).dbLate = s.dbLate := rfl
@[simp] theorem State.count_flc (s : State) (a : Nat) (f : Fld) : (s.count a f).flc = s.flc := rfl
@[simp] theorem State.count_sec (s : State) (a : Nat) (f : Fld) : (s.count a f).sec = s.sec := rfl
@[simp] theorem State.count_pwr (s : State) (a : Nat) (f : Fld) : (s.count a f).pwr = s.pwr := rfl
@[simp] theorem State.count_dbg (s : State) (a : Nat) (f : Fld) : (s.count a f).dbg = s.dbg := rfl
@[simp] theorem State.count_modeReq (s : State) (a : Nat) (f : Fld) : (s.count a f).modeReq = s.modeReq := rfl
@[simp] theorem State.count_sysDown (s : State) (a : Nat) (f : Fld) : (s.count a f).sysDown = s.sysDown := rfl
@[simp] theorem State.count_rollback (s : State) (a : Nat) (f : Fld) : (s.count a f).rollback = s.rollback := rfl
@[simp] theorem State.count_pending (s : State) (a : Nat) (f : Fld) : (s.count a f).pending = s.pending := rfl

@[simp] theorem State.countWrap_part (s : State) (a : Nat) (f : Fld) : (s.countWrap a f).part = s.part := rfl
@[simp] theorem State.countWrap_mtime (s : State) (a : Nat) (f : Fld) : (s.countWrap a f).mtime = s.mtime := rfl
@[simp] theorem State.countWrap_clock (s : State) (a : Nat) (f : Fld) : (s.countWrap a f).clock = s.clock := rfl
@[simp] theorem State.countWrap_free (s : State) (a : Nat) (f : Fld) : (s.countWrap a f).free = s.free := rfl
@[simp] theorem State.countWrap_cells (s : State) (a : Nat) (f : Fld) : (s.countWrap a f).cells = s.cells := rfl
@[simp] theorem State.countWrap_busOut (s : State) (a : Nat) (f : Fld) : (s.countWrap a f).busOut = s.busOut := rfl
@[simp] theorem State.countWrap_outs (s : State) (a : Nat) (f : Fld) : (s.countWrap a f).outs = s.outs := rfl
@[simp] theorem State.countWrap_evr (s : State) (a : Nat) (f : Fld) : (s.countWrap a f).evr = s.evr := rfl
@[simp] theorem State.countWrap_grg (s : State) (a : Nat) (f : Fld) : (s.countWrap a f).grg = s.grg := rfl
@[simp] theorem State.countWrap_sar (s : State) (a : Nat) (f : Fld) : (s.countWrap a f).sar = s.sar := rfl
@[simp] theorem State.countWrap_hil (s : State) (a : Nat) (f : Fld) : (s.countWrap a f).hil = s.hil := rfl
@[simp] theorem State.countWrap_cle (s : State) (a : Nat) (f : Fld) : (s.countWrap a f).cle = s.cle := rfl
@[simp] theorem State.countWrap_pwm (s : State) (a : Nat) (f : Fld) : (s.countWrap a f).pwm = s.pwm := rfl
@[simp] theorem State.countWrap_cap (s : State) (a : Nat) (f : Fld) : (s.countWrap a f).cap = s.cap := rfl
@[simp] theorem State.countWrap_inj (s : State) (a : Nat) (f : Fld) : (s.countWrap a f).inj = s.inj := rfl
@[simp] theorem State.countWrap_ctl (s : State) (a : Nat) (f : Fld) : (s.countWrap a f).ctl = s.ctl := rfl
@[simp] theorem State.countWrap_edgeSeq (s : State) (a : Nat) (f : Fld) : (s.countWrap a f).edgeSeq = s.edgeSeq := rfl
@[simp] theorem State.countWrap_edgeRidx (s : State) (a : Nat) (f : Fld) : (s.countWrap a f).edgeRidx = s.edgeRidx := rfl
@[simp] theorem State.countWrap_pwy (s : State) (a : Nat) (f : Fld) : (s.countWrap a f).pwy = s.pwy := rfl
@[simp] theorem State.countWrap_core (s : State) (a : Nat) (f : Fld) : (s.countWrap a f).core = s.core := rfl
@[simp] theorem State.countWrap_prog (s : State) (a : Nat) (f : Fld) : (s.countWrap a f).prog = s.prog := rfl
@[simp] theorem State.countWrap_mstore (s : State) (a : Nat) (f : Fld) : (s.countWrap a f).mstore = s.mstore := rfl
@[simp] theorem State.countWrap_mcopy (s : State) (a : Nat) (f : Fld) : (s.countWrap a f).mcopy = s.mcopy := rfl
@[simp] theorem State.countWrap_copyBad (s : State) (a : Nat) (f : Fld) : (s.countWrap a f).copyBad = s.copyBad := rfl
@[simp] theorem State.countWrap_copyLost (s : State) (a : Nat) (f : Fld) : (s.countWrap a f).copyLost = s.copyLost := rfl
@[simp] theorem State.countWrap_copySet (s : State) (a : Nat) (f : Fld) : (s.countWrap a f).copySet = s.copySet := rfl
@[simp] theorem State.countWrap_mver (s : State) (a : Nat) (f : Fld) : (s.countWrap a f).mver = s.mver := rfl
@[simp] theorem State.countWrap_mem (s : State) (a : Nat) (f : Fld) : (s.countWrap a f).mem = s.mem := rfl
@[simp] theorem State.countWrap_dma (s : State) (a : Nat) (f : Fld) : (s.countWrap a f).dma = s.dma := rfl
@[simp] theorem State.countWrap_twn (s : State) (a : Nat) (f : Fld) : (s.countWrap a f).twn = s.twn := rfl
@[simp] theorem State.countWrap_mad (s : State) (a : Nat) (f : Fld) : (s.countWrap a f).mad = s.mad := rfl
@[simp] theorem State.countWrap_fns (s : State) (a : Nat) (f : Fld) : (s.countWrap a f).fns = s.fns := rfl
@[simp] theorem State.countWrap_fetchNext (s : State) (a : Nat) (f : Fld) : (s.countWrap a f).fetchNext = s.fetchNext := rfl
@[simp] theorem State.countWrap_vfEnable (s : State) (a : Nat) (f : Fld) : (s.countWrap a f).vfEnable = s.vfEnable := rfl
@[simp] theorem State.countWrap_numVfs (s : State) (a : Nat) (f : Fld) : (s.countWrap a f).numVfs = s.numVfs := rfl
@[simp] theorem State.countWrap_img (s : State) (a : Nat) (f : Fld) : (s.countWrap a f).img = s.img := rfl
@[simp] theorem State.countWrap_trc (s : State) (a : Nat) (f : Fld) : (s.countWrap a f).trc = s.trc := rfl
@[simp] theorem State.countWrap_mergeNext (s : State) (a : Nat) (f : Fld) : (s.countWrap a f).mergeNext = s.mergeNext := rfl
@[simp] theorem State.countWrap_mergeFrom (s : State) (a : Nat) (f : Fld) : (s.countWrap a f).mergeFrom = s.mergeFrom := rfl
@[simp] theorem State.countWrap_wdgFirst (s : State) (a : Nat) (f : Fld) : (s.countWrap a f).wdgFirst = s.wdgFirst := rfl
@[simp] theorem State.countWrap_ptbBy (s : State) (a : Nat) (f : Fld) : (s.countWrap a f).ptbBy = s.ptbBy := rfl
@[simp] theorem State.countWrap_ptbAt (s : State) (a : Nat) (f : Fld) : (s.countWrap a f).ptbAt = s.ptbAt := rfl
@[simp] theorem State.countWrap_ptbCause (s : State) (a : Nat) (f : Fld) : (s.countWrap a f).ptbCause = s.ptbCause := rfl
@[simp] theorem State.countWrap_dbLate (s : State) (a : Nat) (f : Fld) : (s.countWrap a f).dbLate = s.dbLate := rfl
@[simp] theorem State.countWrap_flc (s : State) (a : Nat) (f : Fld) : (s.countWrap a f).flc = s.flc := rfl
@[simp] theorem State.countWrap_sec (s : State) (a : Nat) (f : Fld) : (s.countWrap a f).sec = s.sec := rfl
@[simp] theorem State.countWrap_pwr (s : State) (a : Nat) (f : Fld) : (s.countWrap a f).pwr = s.pwr := rfl
@[simp] theorem State.countWrap_dbg (s : State) (a : Nat) (f : Fld) : (s.countWrap a f).dbg = s.dbg := rfl
@[simp] theorem State.countWrap_modeReq (s : State) (a : Nat) (f : Fld) : (s.countWrap a f).modeReq = s.modeReq := rfl
@[simp] theorem State.countWrap_sysDown (s : State) (a : Nat) (f : Fld) : (s.countWrap a f).sysDown = s.sysDown := rfl
@[simp] theorem State.countWrap_rollback (s : State) (a : Nat) (f : Fld) : (s.countWrap a f).rollback = s.rollback := rfl
@[simp] theorem State.countWrap_pending (s : State) (a : Nat) (f : Fld) : (s.countWrap a f).pending = s.pending := rfl

@[simp] theorem State.countBy_part (s : State) (a : Nat) (f : Fld) (k : Nat) : (s.countBy a f k).part = s.part := rfl
@[simp] theorem State.countBy_mtime (s : State) (a : Nat) (f : Fld) (k : Nat) : (s.countBy a f k).mtime = s.mtime := rfl
@[simp] theorem State.countBy_clock (s : State) (a : Nat) (f : Fld) (k : Nat) : (s.countBy a f k).clock = s.clock := rfl
@[simp] theorem State.countBy_free (s : State) (a : Nat) (f : Fld) (k : Nat) : (s.countBy a f k).free = s.free := rfl
@[simp] theorem State.countBy_cells (s : State) (a : Nat) (f : Fld) (k : Nat) : (s.countBy a f k).cells = s.cells := rfl
@[simp] theorem State.countBy_busOut (s : State) (a : Nat) (f : Fld) (k : Nat) : (s.countBy a f k).busOut = s.busOut := rfl
@[simp] theorem State.countBy_outs (s : State) (a : Nat) (f : Fld) (k : Nat) : (s.countBy a f k).outs = s.outs := rfl
@[simp] theorem State.countBy_evr (s : State) (a : Nat) (f : Fld) (k : Nat) : (s.countBy a f k).evr = s.evr := rfl
@[simp] theorem State.countBy_grg (s : State) (a : Nat) (f : Fld) (k : Nat) : (s.countBy a f k).grg = s.grg := rfl
@[simp] theorem State.countBy_sar (s : State) (a : Nat) (f : Fld) (k : Nat) : (s.countBy a f k).sar = s.sar := rfl
@[simp] theorem State.countBy_hil (s : State) (a : Nat) (f : Fld) (k : Nat) : (s.countBy a f k).hil = s.hil := rfl
@[simp] theorem State.countBy_cle (s : State) (a : Nat) (f : Fld) (k : Nat) : (s.countBy a f k).cle = s.cle := rfl
@[simp] theorem State.countBy_pwm (s : State) (a : Nat) (f : Fld) (k : Nat) : (s.countBy a f k).pwm = s.pwm := rfl
@[simp] theorem State.countBy_cap (s : State) (a : Nat) (f : Fld) (k : Nat) : (s.countBy a f k).cap = s.cap := rfl
@[simp] theorem State.countBy_inj (s : State) (a : Nat) (f : Fld) (k : Nat) : (s.countBy a f k).inj = s.inj := rfl
@[simp] theorem State.countBy_ctl (s : State) (a : Nat) (f : Fld) (k : Nat) : (s.countBy a f k).ctl = s.ctl := rfl
@[simp] theorem State.countBy_edgeSeq (s : State) (a : Nat) (f : Fld) (k : Nat) : (s.countBy a f k).edgeSeq = s.edgeSeq := rfl
@[simp] theorem State.countBy_edgeRidx (s : State) (a : Nat) (f : Fld) (k : Nat) : (s.countBy a f k).edgeRidx = s.edgeRidx := rfl
@[simp] theorem State.countBy_pwy (s : State) (a : Nat) (f : Fld) (k : Nat) : (s.countBy a f k).pwy = s.pwy := rfl
@[simp] theorem State.countBy_core (s : State) (a : Nat) (f : Fld) (k : Nat) : (s.countBy a f k).core = s.core := rfl
@[simp] theorem State.countBy_prog (s : State) (a : Nat) (f : Fld) (k : Nat) : (s.countBy a f k).prog = s.prog := rfl
@[simp] theorem State.countBy_mstore (s : State) (a : Nat) (f : Fld) (k : Nat) : (s.countBy a f k).mstore = s.mstore := rfl
@[simp] theorem State.countBy_mcopy (s : State) (a : Nat) (f : Fld) (k : Nat) : (s.countBy a f k).mcopy = s.mcopy := rfl
@[simp] theorem State.countBy_copyBad (s : State) (a : Nat) (f : Fld) (k : Nat) : (s.countBy a f k).copyBad = s.copyBad := rfl
@[simp] theorem State.countBy_copyLost (s : State) (a : Nat) (f : Fld) (k : Nat) : (s.countBy a f k).copyLost = s.copyLost := rfl
@[simp] theorem State.countBy_copySet (s : State) (a : Nat) (f : Fld) (k : Nat) : (s.countBy a f k).copySet = s.copySet := rfl
@[simp] theorem State.countBy_mver (s : State) (a : Nat) (f : Fld) (k : Nat) : (s.countBy a f k).mver = s.mver := rfl
@[simp] theorem State.countBy_mem (s : State) (a : Nat) (f : Fld) (k : Nat) : (s.countBy a f k).mem = s.mem := rfl
@[simp] theorem State.countBy_dma (s : State) (a : Nat) (f : Fld) (k : Nat) : (s.countBy a f k).dma = s.dma := rfl
@[simp] theorem State.countBy_twn (s : State) (a : Nat) (f : Fld) (k : Nat) : (s.countBy a f k).twn = s.twn := rfl
@[simp] theorem State.countBy_mad (s : State) (a : Nat) (f : Fld) (k : Nat) : (s.countBy a f k).mad = s.mad := rfl
@[simp] theorem State.countBy_fns (s : State) (a : Nat) (f : Fld) (k : Nat) : (s.countBy a f k).fns = s.fns := rfl
@[simp] theorem State.countBy_fetchNext (s : State) (a : Nat) (f : Fld) (k : Nat) : (s.countBy a f k).fetchNext = s.fetchNext := rfl
@[simp] theorem State.countBy_vfEnable (s : State) (a : Nat) (f : Fld) (k : Nat) : (s.countBy a f k).vfEnable = s.vfEnable := rfl
@[simp] theorem State.countBy_numVfs (s : State) (a : Nat) (f : Fld) (k : Nat) : (s.countBy a f k).numVfs = s.numVfs := rfl
@[simp] theorem State.countBy_img (s : State) (a : Nat) (f : Fld) (k : Nat) : (s.countBy a f k).img = s.img := rfl
@[simp] theorem State.countBy_trc (s : State) (a : Nat) (f : Fld) (k : Nat) : (s.countBy a f k).trc = s.trc := rfl
@[simp] theorem State.countBy_mergeNext (s : State) (a : Nat) (f : Fld) (k : Nat) : (s.countBy a f k).mergeNext = s.mergeNext := rfl
@[simp] theorem State.countBy_mergeFrom (s : State) (a : Nat) (f : Fld) (k : Nat) : (s.countBy a f k).mergeFrom = s.mergeFrom := rfl
@[simp] theorem State.countBy_wdgFirst (s : State) (a : Nat) (f : Fld) (k : Nat) : (s.countBy a f k).wdgFirst = s.wdgFirst := rfl
@[simp] theorem State.countBy_ptbBy (s : State) (a : Nat) (f : Fld) (k : Nat) : (s.countBy a f k).ptbBy = s.ptbBy := rfl
@[simp] theorem State.countBy_ptbAt (s : State) (a : Nat) (f : Fld) (k : Nat) : (s.countBy a f k).ptbAt = s.ptbAt := rfl
@[simp] theorem State.countBy_ptbCause (s : State) (a : Nat) (f : Fld) (k : Nat) : (s.countBy a f k).ptbCause = s.ptbCause := rfl
@[simp] theorem State.countBy_dbLate (s : State) (a : Nat) (f : Fld) (k : Nat) : (s.countBy a f k).dbLate = s.dbLate := rfl
@[simp] theorem State.countBy_flc (s : State) (a : Nat) (f : Fld) (k : Nat) : (s.countBy a f k).flc = s.flc := rfl
@[simp] theorem State.countBy_sec (s : State) (a : Nat) (f : Fld) (k : Nat) : (s.countBy a f k).sec = s.sec := rfl
@[simp] theorem State.countBy_pwr (s : State) (a : Nat) (f : Fld) (k : Nat) : (s.countBy a f k).pwr = s.pwr := rfl
@[simp] theorem State.countBy_dbg (s : State) (a : Nat) (f : Fld) (k : Nat) : (s.countBy a f k).dbg = s.dbg := rfl
@[simp] theorem State.countBy_modeReq (s : State) (a : Nat) (f : Fld) (k : Nat) : (s.countBy a f k).modeReq = s.modeReq := rfl
@[simp] theorem State.countBy_sysDown (s : State) (a : Nat) (f : Fld) (k : Nat) : (s.countBy a f k).sysDown = s.sysDown := rfl
@[simp] theorem State.countBy_rollback (s : State) (a : Nat) (f : Fld) (k : Nat) : (s.countBy a f k).rollback = s.rollback := rfl
@[simp] theorem State.countBy_pending (s : State) (a : Nat) (f : Fld) (k : Nat) : (s.countBy a f k).pending = s.pending := rfl

@[simp] theorem State.resetRegs_part (s : State) (lo hi : Nat) : (s.resetRegs lo hi).part = s.part := rfl
@[simp] theorem State.resetRegs_mtime (s : State) (lo hi : Nat) : (s.resetRegs lo hi).mtime = s.mtime := rfl
@[simp] theorem State.resetRegs_clock (s : State) (lo hi : Nat) : (s.resetRegs lo hi).clock = s.clock := rfl
@[simp] theorem State.resetRegs_free (s : State) (lo hi : Nat) : (s.resetRegs lo hi).free = s.free := rfl
@[simp] theorem State.resetRegs_cells (s : State) (lo hi : Nat) : (s.resetRegs lo hi).cells = s.cells := rfl
@[simp] theorem State.resetRegs_busOut (s : State) (lo hi : Nat) : (s.resetRegs lo hi).busOut = s.busOut := rfl
@[simp] theorem State.resetRegs_outs (s : State) (lo hi : Nat) : (s.resetRegs lo hi).outs = s.outs := rfl
@[simp] theorem State.resetRegs_evr (s : State) (lo hi : Nat) : (s.resetRegs lo hi).evr = s.evr := rfl
@[simp] theorem State.resetRegs_grg (s : State) (lo hi : Nat) : (s.resetRegs lo hi).grg = s.grg := rfl
@[simp] theorem State.resetRegs_sar (s : State) (lo hi : Nat) : (s.resetRegs lo hi).sar = s.sar := rfl
@[simp] theorem State.resetRegs_hil (s : State) (lo hi : Nat) : (s.resetRegs lo hi).hil = s.hil := rfl
@[simp] theorem State.resetRegs_cle (s : State) (lo hi : Nat) : (s.resetRegs lo hi).cle = s.cle := rfl
@[simp] theorem State.resetRegs_pwm (s : State) (lo hi : Nat) : (s.resetRegs lo hi).pwm = s.pwm := rfl
@[simp] theorem State.resetRegs_cap (s : State) (lo hi : Nat) : (s.resetRegs lo hi).cap = s.cap := rfl
@[simp] theorem State.resetRegs_inj (s : State) (lo hi : Nat) : (s.resetRegs lo hi).inj = s.inj := rfl
@[simp] theorem State.resetRegs_ctl (s : State) (lo hi : Nat) : (s.resetRegs lo hi).ctl = s.ctl := rfl
@[simp] theorem State.resetRegs_edgeSeq (s : State) (lo hi : Nat) : (s.resetRegs lo hi).edgeSeq = s.edgeSeq := rfl
@[simp] theorem State.resetRegs_edgeRidx (s : State) (lo hi : Nat) : (s.resetRegs lo hi).edgeRidx = s.edgeRidx := rfl
@[simp] theorem State.resetRegs_pwy (s : State) (lo hi : Nat) : (s.resetRegs lo hi).pwy = s.pwy := rfl
@[simp] theorem State.resetRegs_core (s : State) (lo hi : Nat) : (s.resetRegs lo hi).core = s.core := rfl
@[simp] theorem State.resetRegs_prog (s : State) (lo hi : Nat) : (s.resetRegs lo hi).prog = s.prog := rfl
@[simp] theorem State.resetRegs_mstore (s : State) (lo hi : Nat) : (s.resetRegs lo hi).mstore = s.mstore := rfl
@[simp] theorem State.resetRegs_mcopy (s : State) (lo hi : Nat) : (s.resetRegs lo hi).mcopy = s.mcopy := rfl
@[simp] theorem State.resetRegs_copyBad (s : State) (lo hi : Nat) : (s.resetRegs lo hi).copyBad = s.copyBad := rfl
@[simp] theorem State.resetRegs_copyLost (s : State) (lo hi : Nat) : (s.resetRegs lo hi).copyLost = s.copyLost := rfl
@[simp] theorem State.resetRegs_copySet (s : State) (lo hi : Nat) : (s.resetRegs lo hi).copySet = s.copySet := rfl
@[simp] theorem State.resetRegs_mver (s : State) (lo hi : Nat) : (s.resetRegs lo hi).mver = s.mver := rfl
@[simp] theorem State.resetRegs_mem (s : State) (lo hi : Nat) : (s.resetRegs lo hi).mem = s.mem := rfl
@[simp] theorem State.resetRegs_dma (s : State) (lo hi : Nat) : (s.resetRegs lo hi).dma = s.dma := rfl
@[simp] theorem State.resetRegs_twn (s : State) (lo hi : Nat) : (s.resetRegs lo hi).twn = s.twn := rfl
@[simp] theorem State.resetRegs_mad (s : State) (lo hi : Nat) : (s.resetRegs lo hi).mad = s.mad := rfl
@[simp] theorem State.resetRegs_fns (s : State) (lo hi : Nat) : (s.resetRegs lo hi).fns = s.fns := rfl
@[simp] theorem State.resetRegs_fetchNext (s : State) (lo hi : Nat) : (s.resetRegs lo hi).fetchNext = s.fetchNext := rfl
@[simp] theorem State.resetRegs_vfEnable (s : State) (lo hi : Nat) : (s.resetRegs lo hi).vfEnable = s.vfEnable := rfl
@[simp] theorem State.resetRegs_numVfs (s : State) (lo hi : Nat) : (s.resetRegs lo hi).numVfs = s.numVfs := rfl
@[simp] theorem State.resetRegs_img (s : State) (lo hi : Nat) : (s.resetRegs lo hi).img = s.img := rfl
@[simp] theorem State.resetRegs_trc (s : State) (lo hi : Nat) : (s.resetRegs lo hi).trc = s.trc := rfl
@[simp] theorem State.resetRegs_mergeNext (s : State) (lo hi : Nat) : (s.resetRegs lo hi).mergeNext = s.mergeNext := rfl
@[simp] theorem State.resetRegs_mergeFrom (s : State) (lo hi : Nat) : (s.resetRegs lo hi).mergeFrom = s.mergeFrom := rfl
@[simp] theorem State.resetRegs_wdgFirst (s : State) (lo hi : Nat) : (s.resetRegs lo hi).wdgFirst = s.wdgFirst := rfl
@[simp] theorem State.resetRegs_ptbBy (s : State) (lo hi : Nat) : (s.resetRegs lo hi).ptbBy = s.ptbBy := rfl
@[simp] theorem State.resetRegs_ptbAt (s : State) (lo hi : Nat) : (s.resetRegs lo hi).ptbAt = s.ptbAt := rfl
@[simp] theorem State.resetRegs_ptbCause (s : State) (lo hi : Nat) : (s.resetRegs lo hi).ptbCause = s.ptbCause := rfl
@[simp] theorem State.resetRegs_dbLate (s : State) (lo hi : Nat) : (s.resetRegs lo hi).dbLate = s.dbLate := rfl
@[simp] theorem State.resetRegs_flc (s : State) (lo hi : Nat) : (s.resetRegs lo hi).flc = s.flc := rfl
@[simp] theorem State.resetRegs_sec (s : State) (lo hi : Nat) : (s.resetRegs lo hi).sec = s.sec := rfl
@[simp] theorem State.resetRegs_pwr (s : State) (lo hi : Nat) : (s.resetRegs lo hi).pwr = s.pwr := rfl
@[simp] theorem State.resetRegs_dbg (s : State) (lo hi : Nat) : (s.resetRegs lo hi).dbg = s.dbg := rfl
@[simp] theorem State.resetRegs_modeReq (s : State) (lo hi : Nat) : (s.resetRegs lo hi).modeReq = s.modeReq := rfl
@[simp] theorem State.resetRegs_sysDown (s : State) (lo hi : Nat) : (s.resetRegs lo hi).sysDown = s.sysDown := rfl
@[simp] theorem State.resetRegs_rollback (s : State) (lo hi : Nat) : (s.resetRegs lo hi).rollback = s.rollback := rfl
@[simp] theorem State.resetRegs_pending (s : State) (lo hi : Nat) : (s.resetRegs lo hi).pending = s.pending := rfl

@[simp] theorem State.emit_part (s : State) (o : Out) : (s.emit o).part = s.part := rfl
@[simp] theorem State.emit_mtime (s : State) (o : Out) : (s.emit o).mtime = s.mtime := rfl
@[simp] theorem State.emit_clock (s : State) (o : Out) : (s.emit o).clock = s.clock := rfl
@[simp] theorem State.emit_free (s : State) (o : Out) : (s.emit o).free = s.free := rfl
@[simp] theorem State.emit_regs (s : State) (o : Out) : (s.emit o).regs = s.regs := rfl
@[simp] theorem State.emit_cells (s : State) (o : Out) : (s.emit o).cells = s.cells := rfl
@[simp] theorem State.emit_busOut (s : State) (o : Out) : (s.emit o).busOut = s.busOut := rfl
@[simp] theorem State.emit_evr (s : State) (o : Out) : (s.emit o).evr = s.evr := rfl
@[simp] theorem State.emit_grg (s : State) (o : Out) : (s.emit o).grg = s.grg := rfl
@[simp] theorem State.emit_sar (s : State) (o : Out) : (s.emit o).sar = s.sar := rfl
@[simp] theorem State.emit_hil (s : State) (o : Out) : (s.emit o).hil = s.hil := rfl
@[simp] theorem State.emit_cle (s : State) (o : Out) : (s.emit o).cle = s.cle := rfl
@[simp] theorem State.emit_pwm (s : State) (o : Out) : (s.emit o).pwm = s.pwm := rfl
@[simp] theorem State.emit_cap (s : State) (o : Out) : (s.emit o).cap = s.cap := rfl
@[simp] theorem State.emit_inj (s : State) (o : Out) : (s.emit o).inj = s.inj := rfl
@[simp] theorem State.emit_ctl (s : State) (o : Out) : (s.emit o).ctl = s.ctl := rfl
@[simp] theorem State.emit_edgeSeq (s : State) (o : Out) : (s.emit o).edgeSeq = s.edgeSeq := rfl
@[simp] theorem State.emit_edgeRidx (s : State) (o : Out) : (s.emit o).edgeRidx = s.edgeRidx := rfl
@[simp] theorem State.emit_pwy (s : State) (o : Out) : (s.emit o).pwy = s.pwy := rfl
@[simp] theorem State.emit_core (s : State) (o : Out) : (s.emit o).core = s.core := rfl
@[simp] theorem State.emit_prog (s : State) (o : Out) : (s.emit o).prog = s.prog := rfl
@[simp] theorem State.emit_mstore (s : State) (o : Out) : (s.emit o).mstore = s.mstore := rfl
@[simp] theorem State.emit_mcopy (s : State) (o : Out) : (s.emit o).mcopy = s.mcopy := rfl
@[simp] theorem State.emit_copyBad (s : State) (o : Out) : (s.emit o).copyBad = s.copyBad := rfl
@[simp] theorem State.emit_copyLost (s : State) (o : Out) : (s.emit o).copyLost = s.copyLost := rfl
@[simp] theorem State.emit_copySet (s : State) (o : Out) : (s.emit o).copySet = s.copySet := rfl
@[simp] theorem State.emit_mver (s : State) (o : Out) : (s.emit o).mver = s.mver := rfl
@[simp] theorem State.emit_mem (s : State) (o : Out) : (s.emit o).mem = s.mem := rfl
@[simp] theorem State.emit_dma (s : State) (o : Out) : (s.emit o).dma = s.dma := rfl
@[simp] theorem State.emit_twn (s : State) (o : Out) : (s.emit o).twn = s.twn := rfl
@[simp] theorem State.emit_mad (s : State) (o : Out) : (s.emit o).mad = s.mad := rfl
@[simp] theorem State.emit_fns (s : State) (o : Out) : (s.emit o).fns = s.fns := rfl
@[simp] theorem State.emit_fetchNext (s : State) (o : Out) : (s.emit o).fetchNext = s.fetchNext := rfl
@[simp] theorem State.emit_vfEnable (s : State) (o : Out) : (s.emit o).vfEnable = s.vfEnable := rfl
@[simp] theorem State.emit_numVfs (s : State) (o : Out) : (s.emit o).numVfs = s.numVfs := rfl
@[simp] theorem State.emit_img (s : State) (o : Out) : (s.emit o).img = s.img := rfl
@[simp] theorem State.emit_trc (s : State) (o : Out) : (s.emit o).trc = s.trc := rfl
@[simp] theorem State.emit_mergeNext (s : State) (o : Out) : (s.emit o).mergeNext = s.mergeNext := rfl
@[simp] theorem State.emit_mergeFrom (s : State) (o : Out) : (s.emit o).mergeFrom = s.mergeFrom := rfl
@[simp] theorem State.emit_wdgFirst (s : State) (o : Out) : (s.emit o).wdgFirst = s.wdgFirst := rfl
@[simp] theorem State.emit_ptbBy (s : State) (o : Out) : (s.emit o).ptbBy = s.ptbBy := rfl
@[simp] theorem State.emit_ptbAt (s : State) (o : Out) : (s.emit o).ptbAt = s.ptbAt := rfl
@[simp] theorem State.emit_ptbCause (s : State) (o : Out) : (s.emit o).ptbCause = s.ptbCause := rfl
@[simp] theorem State.emit_dbLate (s : State) (o : Out) : (s.emit o).dbLate = s.dbLate := rfl
@[simp] theorem State.emit_flc (s : State) (o : Out) : (s.emit o).flc = s.flc := rfl
@[simp] theorem State.emit_sec (s : State) (o : Out) : (s.emit o).sec = s.sec := rfl
@[simp] theorem State.emit_pwr (s : State) (o : Out) : (s.emit o).pwr = s.pwr := rfl
@[simp] theorem State.emit_dbg (s : State) (o : Out) : (s.emit o).dbg = s.dbg := rfl
@[simp] theorem State.emit_modeReq (s : State) (o : Out) : (s.emit o).modeReq = s.modeReq := rfl
@[simp] theorem State.emit_sysDown (s : State) (o : Out) : (s.emit o).sysDown = s.sysDown := rfl
@[simp] theorem State.emit_rollback (s : State) (o : Out) : (s.emit o).rollback = s.rollback := rfl
@[simp] theorem State.emit_pending (s : State) (o : Out) : (s.emit o).pending = s.pending := rfl
@[simp] theorem State.emit_reg (s : State) (o : Out) (b0 : Nat) : (s.emit o).reg b0 = s.reg b0 := rfl
@[simp] theorem State.emit_getF (s : State) (o : Out) (b0 : Nat) (g : Fld) : (s.emit o).getF b0 g = s.getF b0 g := rfl
@[simp] theorem State.emit_isSet (s : State) (o : Out) (b0 : Nat) (g : Fld) : (s.emit o).isSet b0 g = s.isSet b0 g := rfl

@[simp] theorem State.fresh_part (s : State) : (s.fresh).part = s.part := rfl
@[simp] theorem State.fresh_mtime (s : State) : (s.fresh).mtime = s.mtime := rfl
@[simp] theorem State.fresh_clock (s : State) : (s.fresh).clock = s.clock := rfl
@[simp] theorem State.fresh_regs (s : State) : (s.fresh).regs = s.regs := rfl
@[simp] theorem State.fresh_cells (s : State) : (s.fresh).cells = s.cells := rfl
@[simp] theorem State.fresh_busOut (s : State) : (s.fresh).busOut = s.busOut := rfl
@[simp] theorem State.fresh_outs (s : State) : (s.fresh).outs = s.outs := rfl
@[simp] theorem State.fresh_evr (s : State) : (s.fresh).evr = s.evr := rfl
@[simp] theorem State.fresh_grg (s : State) : (s.fresh).grg = s.grg := rfl
@[simp] theorem State.fresh_sar (s : State) : (s.fresh).sar = s.sar := rfl
@[simp] theorem State.fresh_hil (s : State) : (s.fresh).hil = s.hil := rfl
@[simp] theorem State.fresh_cle (s : State) : (s.fresh).cle = s.cle := rfl
@[simp] theorem State.fresh_pwm (s : State) : (s.fresh).pwm = s.pwm := rfl
@[simp] theorem State.fresh_cap (s : State) : (s.fresh).cap = s.cap := rfl
@[simp] theorem State.fresh_inj (s : State) : (s.fresh).inj = s.inj := rfl
@[simp] theorem State.fresh_ctl (s : State) : (s.fresh).ctl = s.ctl := rfl
@[simp] theorem State.fresh_edgeSeq (s : State) : (s.fresh).edgeSeq = s.edgeSeq := rfl
@[simp] theorem State.fresh_edgeRidx (s : State) : (s.fresh).edgeRidx = s.edgeRidx := rfl
@[simp] theorem State.fresh_pwy (s : State) : (s.fresh).pwy = s.pwy := rfl
@[simp] theorem State.fresh_core (s : State) : (s.fresh).core = s.core := rfl
@[simp] theorem State.fresh_prog (s : State) : (s.fresh).prog = s.prog := rfl
@[simp] theorem State.fresh_mstore (s : State) : (s.fresh).mstore = s.mstore := rfl
@[simp] theorem State.fresh_mcopy (s : State) : (s.fresh).mcopy = s.mcopy := rfl
@[simp] theorem State.fresh_copyBad (s : State) : (s.fresh).copyBad = s.copyBad := rfl
@[simp] theorem State.fresh_copyLost (s : State) : (s.fresh).copyLost = s.copyLost := rfl
@[simp] theorem State.fresh_copySet (s : State) : (s.fresh).copySet = s.copySet := rfl
@[simp] theorem State.fresh_mver (s : State) : (s.fresh).mver = s.mver := rfl
@[simp] theorem State.fresh_mem (s : State) : (s.fresh).mem = s.mem := rfl
@[simp] theorem State.fresh_dma (s : State) : (s.fresh).dma = s.dma := rfl
@[simp] theorem State.fresh_twn (s : State) : (s.fresh).twn = s.twn := rfl
@[simp] theorem State.fresh_mad (s : State) : (s.fresh).mad = s.mad := rfl
@[simp] theorem State.fresh_fns (s : State) : (s.fresh).fns = s.fns := rfl
@[simp] theorem State.fresh_fetchNext (s : State) : (s.fresh).fetchNext = s.fetchNext := rfl
@[simp] theorem State.fresh_vfEnable (s : State) : (s.fresh).vfEnable = s.vfEnable := rfl
@[simp] theorem State.fresh_numVfs (s : State) : (s.fresh).numVfs = s.numVfs := rfl
@[simp] theorem State.fresh_img (s : State) : (s.fresh).img = s.img := rfl
@[simp] theorem State.fresh_trc (s : State) : (s.fresh).trc = s.trc := rfl
@[simp] theorem State.fresh_mergeNext (s : State) : (s.fresh).mergeNext = s.mergeNext := rfl
@[simp] theorem State.fresh_mergeFrom (s : State) : (s.fresh).mergeFrom = s.mergeFrom := rfl
@[simp] theorem State.fresh_wdgFirst (s : State) : (s.fresh).wdgFirst = s.wdgFirst := rfl
@[simp] theorem State.fresh_ptbBy (s : State) : (s.fresh).ptbBy = s.ptbBy := rfl
@[simp] theorem State.fresh_ptbAt (s : State) : (s.fresh).ptbAt = s.ptbAt := rfl
@[simp] theorem State.fresh_ptbCause (s : State) : (s.fresh).ptbCause = s.ptbCause := rfl
@[simp] theorem State.fresh_dbLate (s : State) : (s.fresh).dbLate = s.dbLate := rfl
@[simp] theorem State.fresh_flc (s : State) : (s.fresh).flc = s.flc := rfl
@[simp] theorem State.fresh_sec (s : State) : (s.fresh).sec = s.sec := rfl
@[simp] theorem State.fresh_pwr (s : State) : (s.fresh).pwr = s.pwr := rfl
@[simp] theorem State.fresh_dbg (s : State) : (s.fresh).dbg = s.dbg := rfl
@[simp] theorem State.fresh_modeReq (s : State) : (s.fresh).modeReq = s.modeReq := rfl
@[simp] theorem State.fresh_sysDown (s : State) : (s.fresh).sysDown = s.sysDown := rfl
@[simp] theorem State.fresh_rollback (s : State) : (s.fresh).rollback = s.rollback := rfl
@[simp] theorem State.fresh_pending (s : State) : (s.fresh).pending = s.pending := rfl
@[simp] theorem State.fresh_reg (s : State) (b0 : Nat) : (s.fresh).reg b0 = s.reg b0 := rfl
@[simp] theorem State.fresh_getF (s : State) (b0 : Nat) (g : Fld) : (s.fresh).getF b0 g = s.getF b0 g := rfl
@[simp] theorem State.fresh_isSet (s : State) (b0 : Nat) (g : Fld) : (s.fresh).isSet b0 g = s.isSet b0 g := rfl

@[simp] theorem State.setPw_part (s : State) (n : Fin 12) (k : Fin 8) (p : PwmSt) : (s.setPw n k p).part = s.part := rfl
@[simp] theorem State.setPw_mtime (s : State) (n : Fin 12) (k : Fin 8) (p : PwmSt) : (s.setPw n k p).mtime = s.mtime := rfl
@[simp] theorem State.setPw_clock (s : State) (n : Fin 12) (k : Fin 8) (p : PwmSt) : (s.setPw n k p).clock = s.clock := rfl
@[simp] theorem State.setPw_free (s : State) (n : Fin 12) (k : Fin 8) (p : PwmSt) : (s.setPw n k p).free = s.free := rfl
@[simp] theorem State.setPw_regs (s : State) (n : Fin 12) (k : Fin 8) (p : PwmSt) : (s.setPw n k p).regs = s.regs := rfl
@[simp] theorem State.setPw_cells (s : State) (n : Fin 12) (k : Fin 8) (p : PwmSt) : (s.setPw n k p).cells = s.cells := rfl
@[simp] theorem State.setPw_busOut (s : State) (n : Fin 12) (k : Fin 8) (p : PwmSt) : (s.setPw n k p).busOut = s.busOut := rfl
@[simp] theorem State.setPw_outs (s : State) (n : Fin 12) (k : Fin 8) (p : PwmSt) : (s.setPw n k p).outs = s.outs := rfl
@[simp] theorem State.setPw_evr (s : State) (n : Fin 12) (k : Fin 8) (p : PwmSt) : (s.setPw n k p).evr = s.evr := rfl
@[simp] theorem State.setPw_grg (s : State) (n : Fin 12) (k : Fin 8) (p : PwmSt) : (s.setPw n k p).grg = s.grg := rfl
@[simp] theorem State.setPw_sar (s : State) (n : Fin 12) (k : Fin 8) (p : PwmSt) : (s.setPw n k p).sar = s.sar := rfl
@[simp] theorem State.setPw_hil (s : State) (n : Fin 12) (k : Fin 8) (p : PwmSt) : (s.setPw n k p).hil = s.hil := rfl
@[simp] theorem State.setPw_cle (s : State) (n : Fin 12) (k : Fin 8) (p : PwmSt) : (s.setPw n k p).cle = s.cle := rfl
@[simp] theorem State.setPw_cap (s : State) (n : Fin 12) (k : Fin 8) (p : PwmSt) : (s.setPw n k p).cap = s.cap := rfl
@[simp] theorem State.setPw_inj (s : State) (n : Fin 12) (k : Fin 8) (p : PwmSt) : (s.setPw n k p).inj = s.inj := rfl
@[simp] theorem State.setPw_ctl (s : State) (n : Fin 12) (k : Fin 8) (p : PwmSt) : (s.setPw n k p).ctl = s.ctl := rfl
@[simp] theorem State.setPw_edgeSeq (s : State) (n : Fin 12) (k : Fin 8) (p : PwmSt) : (s.setPw n k p).edgeSeq = s.edgeSeq := rfl
@[simp] theorem State.setPw_edgeRidx (s : State) (n : Fin 12) (k : Fin 8) (p : PwmSt) : (s.setPw n k p).edgeRidx = s.edgeRidx := rfl
@[simp] theorem State.setPw_pwy (s : State) (n : Fin 12) (k : Fin 8) (p : PwmSt) : (s.setPw n k p).pwy = s.pwy := rfl
@[simp] theorem State.setPw_core (s : State) (n : Fin 12) (k : Fin 8) (p : PwmSt) : (s.setPw n k p).core = s.core := rfl
@[simp] theorem State.setPw_prog (s : State) (n : Fin 12) (k : Fin 8) (p : PwmSt) : (s.setPw n k p).prog = s.prog := rfl
@[simp] theorem State.setPw_mstore (s : State) (n : Fin 12) (k : Fin 8) (p : PwmSt) : (s.setPw n k p).mstore = s.mstore := rfl
@[simp] theorem State.setPw_mcopy (s : State) (n : Fin 12) (k : Fin 8) (p : PwmSt) : (s.setPw n k p).mcopy = s.mcopy := rfl
@[simp] theorem State.setPw_copyBad (s : State) (n : Fin 12) (k : Fin 8) (p : PwmSt) : (s.setPw n k p).copyBad = s.copyBad := rfl
@[simp] theorem State.setPw_copyLost (s : State) (n : Fin 12) (k : Fin 8) (p : PwmSt) : (s.setPw n k p).copyLost = s.copyLost := rfl
@[simp] theorem State.setPw_copySet (s : State) (n : Fin 12) (k : Fin 8) (p : PwmSt) : (s.setPw n k p).copySet = s.copySet := rfl
@[simp] theorem State.setPw_mver (s : State) (n : Fin 12) (k : Fin 8) (p : PwmSt) : (s.setPw n k p).mver = s.mver := rfl
@[simp] theorem State.setPw_mem (s : State) (n : Fin 12) (k : Fin 8) (p : PwmSt) : (s.setPw n k p).mem = s.mem := rfl
@[simp] theorem State.setPw_dma (s : State) (n : Fin 12) (k : Fin 8) (p : PwmSt) : (s.setPw n k p).dma = s.dma := rfl
@[simp] theorem State.setPw_twn (s : State) (n : Fin 12) (k : Fin 8) (p : PwmSt) : (s.setPw n k p).twn = s.twn := rfl
@[simp] theorem State.setPw_mad (s : State) (n : Fin 12) (k : Fin 8) (p : PwmSt) : (s.setPw n k p).mad = s.mad := rfl
@[simp] theorem State.setPw_fns (s : State) (n : Fin 12) (k : Fin 8) (p : PwmSt) : (s.setPw n k p).fns = s.fns := rfl
@[simp] theorem State.setPw_fetchNext (s : State) (n : Fin 12) (k : Fin 8) (p : PwmSt) : (s.setPw n k p).fetchNext = s.fetchNext := rfl
@[simp] theorem State.setPw_vfEnable (s : State) (n : Fin 12) (k : Fin 8) (p : PwmSt) : (s.setPw n k p).vfEnable = s.vfEnable := rfl
@[simp] theorem State.setPw_numVfs (s : State) (n : Fin 12) (k : Fin 8) (p : PwmSt) : (s.setPw n k p).numVfs = s.numVfs := rfl
@[simp] theorem State.setPw_img (s : State) (n : Fin 12) (k : Fin 8) (p : PwmSt) : (s.setPw n k p).img = s.img := rfl
@[simp] theorem State.setPw_trc (s : State) (n : Fin 12) (k : Fin 8) (p : PwmSt) : (s.setPw n k p).trc = s.trc := rfl
@[simp] theorem State.setPw_mergeNext (s : State) (n : Fin 12) (k : Fin 8) (p : PwmSt) : (s.setPw n k p).mergeNext = s.mergeNext := rfl
@[simp] theorem State.setPw_mergeFrom (s : State) (n : Fin 12) (k : Fin 8) (p : PwmSt) : (s.setPw n k p).mergeFrom = s.mergeFrom := rfl
@[simp] theorem State.setPw_wdgFirst (s : State) (n : Fin 12) (k : Fin 8) (p : PwmSt) : (s.setPw n k p).wdgFirst = s.wdgFirst := rfl
@[simp] theorem State.setPw_ptbBy (s : State) (n : Fin 12) (k : Fin 8) (p : PwmSt) : (s.setPw n k p).ptbBy = s.ptbBy := rfl
@[simp] theorem State.setPw_ptbAt (s : State) (n : Fin 12) (k : Fin 8) (p : PwmSt) : (s.setPw n k p).ptbAt = s.ptbAt := rfl
@[simp] theorem State.setPw_ptbCause (s : State) (n : Fin 12) (k : Fin 8) (p : PwmSt) : (s.setPw n k p).ptbCause = s.ptbCause := rfl
@[simp] theorem State.setPw_dbLate (s : State) (n : Fin 12) (k : Fin 8) (p : PwmSt) : (s.setPw n k p).dbLate = s.dbLate := rfl
@[simp] theorem State.setPw_flc (s : State) (n : Fin 12) (k : Fin 8) (p : PwmSt) : (s.setPw n k p).flc = s.flc := rfl
@[simp] theorem State.setPw_sec (s : State) (n : Fin 12) (k : Fin 8) (p : PwmSt) : (s.setPw n k p).sec = s.sec := rfl
@[simp] theorem State.setPw_pwr (s : State) (n : Fin 12) (k : Fin 8) (p : PwmSt) : (s.setPw n k p).pwr = s.pwr := rfl
@[simp] theorem State.setPw_dbg (s : State) (n : Fin 12) (k : Fin 8) (p : PwmSt) : (s.setPw n k p).dbg = s.dbg := rfl
@[simp] theorem State.setPw_modeReq (s : State) (n : Fin 12) (k : Fin 8) (p : PwmSt) : (s.setPw n k p).modeReq = s.modeReq := rfl
@[simp] theorem State.setPw_sysDown (s : State) (n : Fin 12) (k : Fin 8) (p : PwmSt) : (s.setPw n k p).sysDown = s.sysDown := rfl
@[simp] theorem State.setPw_rollback (s : State) (n : Fin 12) (k : Fin 8) (p : PwmSt) : (s.setPw n k p).rollback = s.rollback := rfl
@[simp] theorem State.setPw_pending (s : State) (n : Fin 12) (k : Fin 8) (p : PwmSt) : (s.setPw n k p).pending = s.pending := rfl
@[simp] theorem State.setPw_reg (s : State) (n : Fin 12) (k : Fin 8) (p : PwmSt) (b0 : Nat) : (s.setPw n k p).reg b0 = s.reg b0 := rfl
@[simp] theorem State.setPw_getF (s : State) (n : Fin 12) (k : Fin 8) (p : PwmSt) (b0 : Nat) (g : Fld) : (s.setPw n k p).getF b0 g = s.getF b0 g := rfl
@[simp] theorem State.setPw_isSet (s : State) (n : Fin 12) (k : Fin 8) (p : PwmSt) (b0 : Nat) (g : Fld) : (s.setPw n k p).isSet b0 g = s.isSet b0 g := rfl

@[simp] theorem State.setWin_part (s : State) (n i : Fin 12) (w : WinSt) : (s.setWin n i w).part = s.part := rfl
@[simp] theorem State.setWin_mtime (s : State) (n i : Fin 12) (w : WinSt) : (s.setWin n i w).mtime = s.mtime := rfl
@[simp] theorem State.setWin_clock (s : State) (n i : Fin 12) (w : WinSt) : (s.setWin n i w).clock = s.clock := rfl
@[simp] theorem State.setWin_free (s : State) (n i : Fin 12) (w : WinSt) : (s.setWin n i w).free = s.free := rfl
@[simp] theorem State.setWin_regs (s : State) (n i : Fin 12) (w : WinSt) : (s.setWin n i w).regs = s.regs := rfl
@[simp] theorem State.setWin_cells (s : State) (n i : Fin 12) (w : WinSt) : (s.setWin n i w).cells = s.cells := rfl
@[simp] theorem State.setWin_busOut (s : State) (n i : Fin 12) (w : WinSt) : (s.setWin n i w).busOut = s.busOut := rfl
@[simp] theorem State.setWin_outs (s : State) (n i : Fin 12) (w : WinSt) : (s.setWin n i w).outs = s.outs := rfl
@[simp] theorem State.setWin_evr (s : State) (n i : Fin 12) (w : WinSt) : (s.setWin n i w).evr = s.evr := rfl
@[simp] theorem State.setWin_sar (s : State) (n i : Fin 12) (w : WinSt) : (s.setWin n i w).sar = s.sar := rfl
@[simp] theorem State.setWin_hil (s : State) (n i : Fin 12) (w : WinSt) : (s.setWin n i w).hil = s.hil := rfl
@[simp] theorem State.setWin_cle (s : State) (n i : Fin 12) (w : WinSt) : (s.setWin n i w).cle = s.cle := rfl
@[simp] theorem State.setWin_pwm (s : State) (n i : Fin 12) (w : WinSt) : (s.setWin n i w).pwm = s.pwm := rfl
@[simp] theorem State.setWin_cap (s : State) (n i : Fin 12) (w : WinSt) : (s.setWin n i w).cap = s.cap := rfl
@[simp] theorem State.setWin_inj (s : State) (n i : Fin 12) (w : WinSt) : (s.setWin n i w).inj = s.inj := rfl
@[simp] theorem State.setWin_ctl (s : State) (n i : Fin 12) (w : WinSt) : (s.setWin n i w).ctl = s.ctl := rfl
@[simp] theorem State.setWin_edgeSeq (s : State) (n i : Fin 12) (w : WinSt) : (s.setWin n i w).edgeSeq = s.edgeSeq := rfl
@[simp] theorem State.setWin_edgeRidx (s : State) (n i : Fin 12) (w : WinSt) : (s.setWin n i w).edgeRidx = s.edgeRidx := rfl
@[simp] theorem State.setWin_pwy (s : State) (n i : Fin 12) (w : WinSt) : (s.setWin n i w).pwy = s.pwy := rfl
@[simp] theorem State.setWin_core (s : State) (n i : Fin 12) (w : WinSt) : (s.setWin n i w).core = s.core := rfl
@[simp] theorem State.setWin_prog (s : State) (n i : Fin 12) (w : WinSt) : (s.setWin n i w).prog = s.prog := rfl
@[simp] theorem State.setWin_mstore (s : State) (n i : Fin 12) (w : WinSt) : (s.setWin n i w).mstore = s.mstore := rfl
@[simp] theorem State.setWin_mcopy (s : State) (n i : Fin 12) (w : WinSt) : (s.setWin n i w).mcopy = s.mcopy := rfl
@[simp] theorem State.setWin_copyBad (s : State) (n i : Fin 12) (w : WinSt) : (s.setWin n i w).copyBad = s.copyBad := rfl
@[simp] theorem State.setWin_copyLost (s : State) (n i : Fin 12) (w : WinSt) : (s.setWin n i w).copyLost = s.copyLost := rfl
@[simp] theorem State.setWin_copySet (s : State) (n i : Fin 12) (w : WinSt) : (s.setWin n i w).copySet = s.copySet := rfl
@[simp] theorem State.setWin_mver (s : State) (n i : Fin 12) (w : WinSt) : (s.setWin n i w).mver = s.mver := rfl
@[simp] theorem State.setWin_mem (s : State) (n i : Fin 12) (w : WinSt) : (s.setWin n i w).mem = s.mem := rfl
@[simp] theorem State.setWin_dma (s : State) (n i : Fin 12) (w : WinSt) : (s.setWin n i w).dma = s.dma := rfl
@[simp] theorem State.setWin_twn (s : State) (n i : Fin 12) (w : WinSt) : (s.setWin n i w).twn = s.twn := rfl
@[simp] theorem State.setWin_mad (s : State) (n i : Fin 12) (w : WinSt) : (s.setWin n i w).mad = s.mad := rfl
@[simp] theorem State.setWin_fns (s : State) (n i : Fin 12) (w : WinSt) : (s.setWin n i w).fns = s.fns := rfl
@[simp] theorem State.setWin_fetchNext (s : State) (n i : Fin 12) (w : WinSt) : (s.setWin n i w).fetchNext = s.fetchNext := rfl
@[simp] theorem State.setWin_vfEnable (s : State) (n i : Fin 12) (w : WinSt) : (s.setWin n i w).vfEnable = s.vfEnable := rfl
@[simp] theorem State.setWin_numVfs (s : State) (n i : Fin 12) (w : WinSt) : (s.setWin n i w).numVfs = s.numVfs := rfl
@[simp] theorem State.setWin_img (s : State) (n i : Fin 12) (w : WinSt) : (s.setWin n i w).img = s.img := rfl
@[simp] theorem State.setWin_trc (s : State) (n i : Fin 12) (w : WinSt) : (s.setWin n i w).trc = s.trc := rfl
@[simp] theorem State.setWin_mergeNext (s : State) (n i : Fin 12) (w : WinSt) : (s.setWin n i w).mergeNext = s.mergeNext := rfl
@[simp] theorem State.setWin_mergeFrom (s : State) (n i : Fin 12) (w : WinSt) : (s.setWin n i w).mergeFrom = s.mergeFrom := rfl
@[simp] theorem State.setWin_wdgFirst (s : State) (n i : Fin 12) (w : WinSt) : (s.setWin n i w).wdgFirst = s.wdgFirst := rfl
@[simp] theorem State.setWin_ptbBy (s : State) (n i : Fin 12) (w : WinSt) : (s.setWin n i w).ptbBy = s.ptbBy := rfl
@[simp] theorem State.setWin_ptbAt (s : State) (n i : Fin 12) (w : WinSt) : (s.setWin n i w).ptbAt = s.ptbAt := rfl
@[simp] theorem State.setWin_ptbCause (s : State) (n i : Fin 12) (w : WinSt) : (s.setWin n i w).ptbCause = s.ptbCause := rfl
@[simp] theorem State.setWin_dbLate (s : State) (n i : Fin 12) (w : WinSt) : (s.setWin n i w).dbLate = s.dbLate := rfl
@[simp] theorem State.setWin_flc (s : State) (n i : Fin 12) (w : WinSt) : (s.setWin n i w).flc = s.flc := rfl
@[simp] theorem State.setWin_sec (s : State) (n i : Fin 12) (w : WinSt) : (s.setWin n i w).sec = s.sec := rfl
@[simp] theorem State.setWin_pwr (s : State) (n i : Fin 12) (w : WinSt) : (s.setWin n i w).pwr = s.pwr := rfl
@[simp] theorem State.setWin_dbg (s : State) (n i : Fin 12) (w : WinSt) : (s.setWin n i w).dbg = s.dbg := rfl
@[simp] theorem State.setWin_modeReq (s : State) (n i : Fin 12) (w : WinSt) : (s.setWin n i w).modeReq = s.modeReq := rfl
@[simp] theorem State.setWin_sysDown (s : State) (n i : Fin 12) (w : WinSt) : (s.setWin n i w).sysDown = s.sysDown := rfl
@[simp] theorem State.setWin_rollback (s : State) (n i : Fin 12) (w : WinSt) : (s.setWin n i w).rollback = s.rollback := rfl
@[simp] theorem State.setWin_pending (s : State) (n i : Fin 12) (w : WinSt) : (s.setWin n i w).pending = s.pending := rfl
@[simp] theorem State.setWin_reg (s : State) (n i : Fin 12) (w : WinSt) (b0 : Nat) : (s.setWin n i w).reg b0 = s.reg b0 := rfl
@[simp] theorem State.setWin_getF (s : State) (n i : Fin 12) (w : WinSt) (b0 : Nat) (g : Fld) : (s.setWin n i w).getF b0 g = s.getF b0 g := rfl
@[simp] theorem State.setWin_isSet (s : State) (n i : Fin 12) (w : WinSt) (b0 : Nat) (g : Fld) : (s.setWin n i w).isSet b0 g = s.isSet b0 g := rfl

@[simp] theorem State.setSr_part (s : State) (n : Fin 12) (k : Fin 4) (x : SarSt) : (s.setSr n k x).part = s.part := rfl
@[simp] theorem State.setSr_mtime (s : State) (n : Fin 12) (k : Fin 4) (x : SarSt) : (s.setSr n k x).mtime = s.mtime := rfl
@[simp] theorem State.setSr_clock (s : State) (n : Fin 12) (k : Fin 4) (x : SarSt) : (s.setSr n k x).clock = s.clock := rfl
@[simp] theorem State.setSr_free (s : State) (n : Fin 12) (k : Fin 4) (x : SarSt) : (s.setSr n k x).free = s.free := rfl
@[simp] theorem State.setSr_regs (s : State) (n : Fin 12) (k : Fin 4) (x : SarSt) : (s.setSr n k x).regs = s.regs := rfl
@[simp] theorem State.setSr_cells (s : State) (n : Fin 12) (k : Fin 4) (x : SarSt) : (s.setSr n k x).cells = s.cells := rfl
@[simp] theorem State.setSr_busOut (s : State) (n : Fin 12) (k : Fin 4) (x : SarSt) : (s.setSr n k x).busOut = s.busOut := rfl
@[simp] theorem State.setSr_outs (s : State) (n : Fin 12) (k : Fin 4) (x : SarSt) : (s.setSr n k x).outs = s.outs := rfl
@[simp] theorem State.setSr_evr (s : State) (n : Fin 12) (k : Fin 4) (x : SarSt) : (s.setSr n k x).evr = s.evr := rfl
@[simp] theorem State.setSr_grg (s : State) (n : Fin 12) (k : Fin 4) (x : SarSt) : (s.setSr n k x).grg = s.grg := rfl
@[simp] theorem State.setSr_hil (s : State) (n : Fin 12) (k : Fin 4) (x : SarSt) : (s.setSr n k x).hil = s.hil := rfl
@[simp] theorem State.setSr_cle (s : State) (n : Fin 12) (k : Fin 4) (x : SarSt) : (s.setSr n k x).cle = s.cle := rfl
@[simp] theorem State.setSr_pwm (s : State) (n : Fin 12) (k : Fin 4) (x : SarSt) : (s.setSr n k x).pwm = s.pwm := rfl
@[simp] theorem State.setSr_cap (s : State) (n : Fin 12) (k : Fin 4) (x : SarSt) : (s.setSr n k x).cap = s.cap := rfl
@[simp] theorem State.setSr_inj (s : State) (n : Fin 12) (k : Fin 4) (x : SarSt) : (s.setSr n k x).inj = s.inj := rfl
@[simp] theorem State.setSr_ctl (s : State) (n : Fin 12) (k : Fin 4) (x : SarSt) : (s.setSr n k x).ctl = s.ctl := rfl
@[simp] theorem State.setSr_edgeSeq (s : State) (n : Fin 12) (k : Fin 4) (x : SarSt) : (s.setSr n k x).edgeSeq = s.edgeSeq := rfl
@[simp] theorem State.setSr_edgeRidx (s : State) (n : Fin 12) (k : Fin 4) (x : SarSt) : (s.setSr n k x).edgeRidx = s.edgeRidx := rfl
@[simp] theorem State.setSr_pwy (s : State) (n : Fin 12) (k : Fin 4) (x : SarSt) : (s.setSr n k x).pwy = s.pwy := rfl
@[simp] theorem State.setSr_core (s : State) (n : Fin 12) (k : Fin 4) (x : SarSt) : (s.setSr n k x).core = s.core := rfl
@[simp] theorem State.setSr_prog (s : State) (n : Fin 12) (k : Fin 4) (x : SarSt) : (s.setSr n k x).prog = s.prog := rfl
@[simp] theorem State.setSr_mstore (s : State) (n : Fin 12) (k : Fin 4) (x : SarSt) : (s.setSr n k x).mstore = s.mstore := rfl
@[simp] theorem State.setSr_mcopy (s : State) (n : Fin 12) (k : Fin 4) (x : SarSt) : (s.setSr n k x).mcopy = s.mcopy := rfl
@[simp] theorem State.setSr_copyBad (s : State) (n : Fin 12) (k : Fin 4) (x : SarSt) : (s.setSr n k x).copyBad = s.copyBad := rfl
@[simp] theorem State.setSr_copyLost (s : State) (n : Fin 12) (k : Fin 4) (x : SarSt) : (s.setSr n k x).copyLost = s.copyLost := rfl
@[simp] theorem State.setSr_copySet (s : State) (n : Fin 12) (k : Fin 4) (x : SarSt) : (s.setSr n k x).copySet = s.copySet := rfl
@[simp] theorem State.setSr_mver (s : State) (n : Fin 12) (k : Fin 4) (x : SarSt) : (s.setSr n k x).mver = s.mver := rfl
@[simp] theorem State.setSr_mem (s : State) (n : Fin 12) (k : Fin 4) (x : SarSt) : (s.setSr n k x).mem = s.mem := rfl
@[simp] theorem State.setSr_dma (s : State) (n : Fin 12) (k : Fin 4) (x : SarSt) : (s.setSr n k x).dma = s.dma := rfl
@[simp] theorem State.setSr_twn (s : State) (n : Fin 12) (k : Fin 4) (x : SarSt) : (s.setSr n k x).twn = s.twn := rfl
@[simp] theorem State.setSr_mad (s : State) (n : Fin 12) (k : Fin 4) (x : SarSt) : (s.setSr n k x).mad = s.mad := rfl
@[simp] theorem State.setSr_fns (s : State) (n : Fin 12) (k : Fin 4) (x : SarSt) : (s.setSr n k x).fns = s.fns := rfl
@[simp] theorem State.setSr_fetchNext (s : State) (n : Fin 12) (k : Fin 4) (x : SarSt) : (s.setSr n k x).fetchNext = s.fetchNext := rfl
@[simp] theorem State.setSr_vfEnable (s : State) (n : Fin 12) (k : Fin 4) (x : SarSt) : (s.setSr n k x).vfEnable = s.vfEnable := rfl
@[simp] theorem State.setSr_numVfs (s : State) (n : Fin 12) (k : Fin 4) (x : SarSt) : (s.setSr n k x).numVfs = s.numVfs := rfl
@[simp] theorem State.setSr_img (s : State) (n : Fin 12) (k : Fin 4) (x : SarSt) : (s.setSr n k x).img = s.img := rfl
@[simp] theorem State.setSr_trc (s : State) (n : Fin 12) (k : Fin 4) (x : SarSt) : (s.setSr n k x).trc = s.trc := rfl
@[simp] theorem State.setSr_mergeNext (s : State) (n : Fin 12) (k : Fin 4) (x : SarSt) : (s.setSr n k x).mergeNext = s.mergeNext := rfl
@[simp] theorem State.setSr_mergeFrom (s : State) (n : Fin 12) (k : Fin 4) (x : SarSt) : (s.setSr n k x).mergeFrom = s.mergeFrom := rfl
@[simp] theorem State.setSr_wdgFirst (s : State) (n : Fin 12) (k : Fin 4) (x : SarSt) : (s.setSr n k x).wdgFirst = s.wdgFirst := rfl
@[simp] theorem State.setSr_ptbBy (s : State) (n : Fin 12) (k : Fin 4) (x : SarSt) : (s.setSr n k x).ptbBy = s.ptbBy := rfl
@[simp] theorem State.setSr_ptbAt (s : State) (n : Fin 12) (k : Fin 4) (x : SarSt) : (s.setSr n k x).ptbAt = s.ptbAt := rfl
@[simp] theorem State.setSr_ptbCause (s : State) (n : Fin 12) (k : Fin 4) (x : SarSt) : (s.setSr n k x).ptbCause = s.ptbCause := rfl
@[simp] theorem State.setSr_dbLate (s : State) (n : Fin 12) (k : Fin 4) (x : SarSt) : (s.setSr n k x).dbLate = s.dbLate := rfl
@[simp] theorem State.setSr_flc (s : State) (n : Fin 12) (k : Fin 4) (x : SarSt) : (s.setSr n k x).flc = s.flc := rfl
@[simp] theorem State.setSr_sec (s : State) (n : Fin 12) (k : Fin 4) (x : SarSt) : (s.setSr n k x).sec = s.sec := rfl
@[simp] theorem State.setSr_pwr (s : State) (n : Fin 12) (k : Fin 4) (x : SarSt) : (s.setSr n k x).pwr = s.pwr := rfl
@[simp] theorem State.setSr_dbg (s : State) (n : Fin 12) (k : Fin 4) (x : SarSt) : (s.setSr n k x).dbg = s.dbg := rfl
@[simp] theorem State.setSr_modeReq (s : State) (n : Fin 12) (k : Fin 4) (x : SarSt) : (s.setSr n k x).modeReq = s.modeReq := rfl
@[simp] theorem State.setSr_sysDown (s : State) (n : Fin 12) (k : Fin 4) (x : SarSt) : (s.setSr n k x).sysDown = s.sysDown := rfl
@[simp] theorem State.setSr_rollback (s : State) (n : Fin 12) (k : Fin 4) (x : SarSt) : (s.setSr n k x).rollback = s.rollback := rfl
@[simp] theorem State.setSr_pending (s : State) (n : Fin 12) (k : Fin 4) (x : SarSt) : (s.setSr n k x).pending = s.pending := rfl
@[simp] theorem State.setSr_reg (s : State) (n : Fin 12) (k : Fin 4) (x : SarSt) (b0 : Nat) : (s.setSr n k x).reg b0 = s.reg b0 := rfl
@[simp] theorem State.setSr_getF (s : State) (n : Fin 12) (k : Fin 4) (x : SarSt) (b0 : Nat) (g : Fld) : (s.setSr n k x).getF b0 g = s.getF b0 g := rfl
@[simp] theorem State.setSr_isSet (s : State) (n : Fin 12) (k : Fin 4) (x : SarSt) (b0 : Nat) (g : Fld) : (s.setSr n k x).isSet b0 g = s.isSet b0 g := rfl

@[simp] theorem State.setCtl_part (s : State) (n : Fin 12) (c : CtlSt) : (s.setCtl n c).part = s.part := rfl
@[simp] theorem State.setCtl_mtime (s : State) (n : Fin 12) (c : CtlSt) : (s.setCtl n c).mtime = s.mtime := rfl
@[simp] theorem State.setCtl_clock (s : State) (n : Fin 12) (c : CtlSt) : (s.setCtl n c).clock = s.clock := rfl
@[simp] theorem State.setCtl_free (s : State) (n : Fin 12) (c : CtlSt) : (s.setCtl n c).free = s.free := rfl
@[simp] theorem State.setCtl_regs (s : State) (n : Fin 12) (c : CtlSt) : (s.setCtl n c).regs = s.regs := rfl
@[simp] theorem State.setCtl_cells (s : State) (n : Fin 12) (c : CtlSt) : (s.setCtl n c).cells = s.cells := rfl
@[simp] theorem State.setCtl_busOut (s : State) (n : Fin 12) (c : CtlSt) : (s.setCtl n c).busOut = s.busOut := rfl
@[simp] theorem State.setCtl_outs (s : State) (n : Fin 12) (c : CtlSt) : (s.setCtl n c).outs = s.outs := rfl
@[simp] theorem State.setCtl_evr (s : State) (n : Fin 12) (c : CtlSt) : (s.setCtl n c).evr = s.evr := rfl
@[simp] theorem State.setCtl_grg (s : State) (n : Fin 12) (c : CtlSt) : (s.setCtl n c).grg = s.grg := rfl
@[simp] theorem State.setCtl_sar (s : State) (n : Fin 12) (c : CtlSt) : (s.setCtl n c).sar = s.sar := rfl
@[simp] theorem State.setCtl_hil (s : State) (n : Fin 12) (c : CtlSt) : (s.setCtl n c).hil = s.hil := rfl
@[simp] theorem State.setCtl_cle (s : State) (n : Fin 12) (c : CtlSt) : (s.setCtl n c).cle = s.cle := rfl
@[simp] theorem State.setCtl_pwm (s : State) (n : Fin 12) (c : CtlSt) : (s.setCtl n c).pwm = s.pwm := rfl
@[simp] theorem State.setCtl_cap (s : State) (n : Fin 12) (c : CtlSt) : (s.setCtl n c).cap = s.cap := rfl
@[simp] theorem State.setCtl_inj (s : State) (n : Fin 12) (c : CtlSt) : (s.setCtl n c).inj = s.inj := rfl
@[simp] theorem State.setCtl_edgeSeq (s : State) (n : Fin 12) (c : CtlSt) : (s.setCtl n c).edgeSeq = s.edgeSeq := rfl
@[simp] theorem State.setCtl_edgeRidx (s : State) (n : Fin 12) (c : CtlSt) : (s.setCtl n c).edgeRidx = s.edgeRidx := rfl
@[simp] theorem State.setCtl_pwy (s : State) (n : Fin 12) (c : CtlSt) : (s.setCtl n c).pwy = s.pwy := rfl
@[simp] theorem State.setCtl_core (s : State) (n : Fin 12) (c : CtlSt) : (s.setCtl n c).core = s.core := rfl
@[simp] theorem State.setCtl_prog (s : State) (n : Fin 12) (c : CtlSt) : (s.setCtl n c).prog = s.prog := rfl
@[simp] theorem State.setCtl_mstore (s : State) (n : Fin 12) (c : CtlSt) : (s.setCtl n c).mstore = s.mstore := rfl
@[simp] theorem State.setCtl_mcopy (s : State) (n : Fin 12) (c : CtlSt) : (s.setCtl n c).mcopy = s.mcopy := rfl
@[simp] theorem State.setCtl_copyBad (s : State) (n : Fin 12) (c : CtlSt) : (s.setCtl n c).copyBad = s.copyBad := rfl
@[simp] theorem State.setCtl_copyLost (s : State) (n : Fin 12) (c : CtlSt) : (s.setCtl n c).copyLost = s.copyLost := rfl
@[simp] theorem State.setCtl_copySet (s : State) (n : Fin 12) (c : CtlSt) : (s.setCtl n c).copySet = s.copySet := rfl
@[simp] theorem State.setCtl_mver (s : State) (n : Fin 12) (c : CtlSt) : (s.setCtl n c).mver = s.mver := rfl
@[simp] theorem State.setCtl_mem (s : State) (n : Fin 12) (c : CtlSt) : (s.setCtl n c).mem = s.mem := rfl
@[simp] theorem State.setCtl_dma (s : State) (n : Fin 12) (c : CtlSt) : (s.setCtl n c).dma = s.dma := rfl
@[simp] theorem State.setCtl_twn (s : State) (n : Fin 12) (c : CtlSt) : (s.setCtl n c).twn = s.twn := rfl
@[simp] theorem State.setCtl_mad (s : State) (n : Fin 12) (c : CtlSt) : (s.setCtl n c).mad = s.mad := rfl
@[simp] theorem State.setCtl_fns (s : State) (n : Fin 12) (c : CtlSt) : (s.setCtl n c).fns = s.fns := rfl
@[simp] theorem State.setCtl_fetchNext (s : State) (n : Fin 12) (c : CtlSt) : (s.setCtl n c).fetchNext = s.fetchNext := rfl
@[simp] theorem State.setCtl_vfEnable (s : State) (n : Fin 12) (c : CtlSt) : (s.setCtl n c).vfEnable = s.vfEnable := rfl
@[simp] theorem State.setCtl_numVfs (s : State) (n : Fin 12) (c : CtlSt) : (s.setCtl n c).numVfs = s.numVfs := rfl
@[simp] theorem State.setCtl_img (s : State) (n : Fin 12) (c : CtlSt) : (s.setCtl n c).img = s.img := rfl
@[simp] theorem State.setCtl_trc (s : State) (n : Fin 12) (c : CtlSt) : (s.setCtl n c).trc = s.trc := rfl
@[simp] theorem State.setCtl_mergeNext (s : State) (n : Fin 12) (c : CtlSt) : (s.setCtl n c).mergeNext = s.mergeNext := rfl
@[simp] theorem State.setCtl_mergeFrom (s : State) (n : Fin 12) (c : CtlSt) : (s.setCtl n c).mergeFrom = s.mergeFrom := rfl
@[simp] theorem State.setCtl_wdgFirst (s : State) (n : Fin 12) (c : CtlSt) : (s.setCtl n c).wdgFirst = s.wdgFirst := rfl
@[simp] theorem State.setCtl_ptbBy (s : State) (n : Fin 12) (c : CtlSt) : (s.setCtl n c).ptbBy = s.ptbBy := rfl
@[simp] theorem State.setCtl_ptbAt (s : State) (n : Fin 12) (c : CtlSt) : (s.setCtl n c).ptbAt = s.ptbAt := rfl
@[simp] theorem State.setCtl_ptbCause (s : State) (n : Fin 12) (c : CtlSt) : (s.setCtl n c).ptbCause = s.ptbCause := rfl
@[simp] theorem State.setCtl_dbLate (s : State) (n : Fin 12) (c : CtlSt) : (s.setCtl n c).dbLate = s.dbLate := rfl
@[simp] theorem State.setCtl_flc (s : State) (n : Fin 12) (c : CtlSt) : (s.setCtl n c).flc = s.flc := rfl
@[simp] theorem State.setCtl_sec (s : State) (n : Fin 12) (c : CtlSt) : (s.setCtl n c).sec = s.sec := rfl
@[simp] theorem State.setCtl_pwr (s : State) (n : Fin 12) (c : CtlSt) : (s.setCtl n c).pwr = s.pwr := rfl
@[simp] theorem State.setCtl_dbg (s : State) (n : Fin 12) (c : CtlSt) : (s.setCtl n c).dbg = s.dbg := rfl
@[simp] theorem State.setCtl_modeReq (s : State) (n : Fin 12) (c : CtlSt) : (s.setCtl n c).modeReq = s.modeReq := rfl
@[simp] theorem State.setCtl_sysDown (s : State) (n : Fin 12) (c : CtlSt) : (s.setCtl n c).sysDown = s.sysDown := rfl
@[simp] theorem State.setCtl_rollback (s : State) (n : Fin 12) (c : CtlSt) : (s.setCtl n c).rollback = s.rollback := rfl
@[simp] theorem State.setCtl_pending (s : State) (n : Fin 12) (c : CtlSt) : (s.setCtl n c).pending = s.pending := rfl
@[simp] theorem State.setCtl_reg (s : State) (n : Fin 12) (c : CtlSt) (b0 : Nat) : (s.setCtl n c).reg b0 = s.reg b0 := rfl
@[simp] theorem State.setCtl_getF (s : State) (n : Fin 12) (c : CtlSt) (b0 : Nat) (g : Fld) : (s.setCtl n c).getF b0 g = s.getF b0 g := rfl
@[simp] theorem State.setCtl_isSet (s : State) (n : Fin 12) (c : CtlSt) (b0 : Nat) (g : Fld) : (s.setCtl n c).isSet b0 g = s.isSet b0 g := rfl

@[simp] theorem State.setCore_part (s : State) (p : Fin 13) (c : CoreSt) : (s.setCore p c).part = s.part := rfl
@[simp] theorem State.setCore_mtime (s : State) (p : Fin 13) (c : CoreSt) : (s.setCore p c).mtime = s.mtime := rfl
@[simp] theorem State.setCore_clock (s : State) (p : Fin 13) (c : CoreSt) : (s.setCore p c).clock = s.clock := rfl
@[simp] theorem State.setCore_free (s : State) (p : Fin 13) (c : CoreSt) : (s.setCore p c).free = s.free := rfl
@[simp] theorem State.setCore_regs (s : State) (p : Fin 13) (c : CoreSt) : (s.setCore p c).regs = s.regs := rfl
@[simp] theorem State.setCore_cells (s : State) (p : Fin 13) (c : CoreSt) : (s.setCore p c).cells = s.cells := rfl
@[simp] theorem State.setCore_busOut (s : State) (p : Fin 13) (c : CoreSt) : (s.setCore p c).busOut = s.busOut := rfl
@[simp] theorem State.setCore_outs (s : State) (p : Fin 13) (c : CoreSt) : (s.setCore p c).outs = s.outs := rfl
@[simp] theorem State.setCore_evr (s : State) (p : Fin 13) (c : CoreSt) : (s.setCore p c).evr = s.evr := rfl
@[simp] theorem State.setCore_grg (s : State) (p : Fin 13) (c : CoreSt) : (s.setCore p c).grg = s.grg := rfl
@[simp] theorem State.setCore_sar (s : State) (p : Fin 13) (c : CoreSt) : (s.setCore p c).sar = s.sar := rfl
@[simp] theorem State.setCore_hil (s : State) (p : Fin 13) (c : CoreSt) : (s.setCore p c).hil = s.hil := rfl
@[simp] theorem State.setCore_cle (s : State) (p : Fin 13) (c : CoreSt) : (s.setCore p c).cle = s.cle := rfl
@[simp] theorem State.setCore_pwm (s : State) (p : Fin 13) (c : CoreSt) : (s.setCore p c).pwm = s.pwm := rfl
@[simp] theorem State.setCore_cap (s : State) (p : Fin 13) (c : CoreSt) : (s.setCore p c).cap = s.cap := rfl
@[simp] theorem State.setCore_inj (s : State) (p : Fin 13) (c : CoreSt) : (s.setCore p c).inj = s.inj := rfl
@[simp] theorem State.setCore_ctl (s : State) (p : Fin 13) (c : CoreSt) : (s.setCore p c).ctl = s.ctl := rfl
@[simp] theorem State.setCore_edgeSeq (s : State) (p : Fin 13) (c : CoreSt) : (s.setCore p c).edgeSeq = s.edgeSeq := rfl
@[simp] theorem State.setCore_edgeRidx (s : State) (p : Fin 13) (c : CoreSt) : (s.setCore p c).edgeRidx = s.edgeRidx := rfl
@[simp] theorem State.setCore_pwy (s : State) (p : Fin 13) (c : CoreSt) : (s.setCore p c).pwy = s.pwy := rfl
@[simp] theorem State.setCore_prog (s : State) (p : Fin 13) (c : CoreSt) : (s.setCore p c).prog = s.prog := rfl
@[simp] theorem State.setCore_mstore (s : State) (p : Fin 13) (c : CoreSt) : (s.setCore p c).mstore = s.mstore := rfl
@[simp] theorem State.setCore_mcopy (s : State) (p : Fin 13) (c : CoreSt) : (s.setCore p c).mcopy = s.mcopy := rfl
@[simp] theorem State.setCore_copyBad (s : State) (p : Fin 13) (c : CoreSt) : (s.setCore p c).copyBad = s.copyBad := rfl
@[simp] theorem State.setCore_copyLost (s : State) (p : Fin 13) (c : CoreSt) : (s.setCore p c).copyLost = s.copyLost := rfl
@[simp] theorem State.setCore_copySet (s : State) (p : Fin 13) (c : CoreSt) : (s.setCore p c).copySet = s.copySet := rfl
@[simp] theorem State.setCore_mver (s : State) (p : Fin 13) (c : CoreSt) : (s.setCore p c).mver = s.mver := rfl
@[simp] theorem State.setCore_mem (s : State) (p : Fin 13) (c : CoreSt) : (s.setCore p c).mem = s.mem := rfl
@[simp] theorem State.setCore_dma (s : State) (p : Fin 13) (c : CoreSt) : (s.setCore p c).dma = s.dma := rfl
@[simp] theorem State.setCore_twn (s : State) (p : Fin 13) (c : CoreSt) : (s.setCore p c).twn = s.twn := rfl
@[simp] theorem State.setCore_mad (s : State) (p : Fin 13) (c : CoreSt) : (s.setCore p c).mad = s.mad := rfl
@[simp] theorem State.setCore_fns (s : State) (p : Fin 13) (c : CoreSt) : (s.setCore p c).fns = s.fns := rfl
@[simp] theorem State.setCore_fetchNext (s : State) (p : Fin 13) (c : CoreSt) : (s.setCore p c).fetchNext = s.fetchNext := rfl
@[simp] theorem State.setCore_vfEnable (s : State) (p : Fin 13) (c : CoreSt) : (s.setCore p c).vfEnable = s.vfEnable := rfl
@[simp] theorem State.setCore_numVfs (s : State) (p : Fin 13) (c : CoreSt) : (s.setCore p c).numVfs = s.numVfs := rfl
@[simp] theorem State.setCore_img (s : State) (p : Fin 13) (c : CoreSt) : (s.setCore p c).img = s.img := rfl
@[simp] theorem State.setCore_trc (s : State) (p : Fin 13) (c : CoreSt) : (s.setCore p c).trc = s.trc := rfl
@[simp] theorem State.setCore_mergeNext (s : State) (p : Fin 13) (c : CoreSt) : (s.setCore p c).mergeNext = s.mergeNext := rfl
@[simp] theorem State.setCore_mergeFrom (s : State) (p : Fin 13) (c : CoreSt) : (s.setCore p c).mergeFrom = s.mergeFrom := rfl
@[simp] theorem State.setCore_wdgFirst (s : State) (p : Fin 13) (c : CoreSt) : (s.setCore p c).wdgFirst = s.wdgFirst := rfl
@[simp] theorem State.setCore_ptbBy (s : State) (p : Fin 13) (c : CoreSt) : (s.setCore p c).ptbBy = s.ptbBy := rfl
@[simp] theorem State.setCore_ptbAt (s : State) (p : Fin 13) (c : CoreSt) : (s.setCore p c).ptbAt = s.ptbAt := rfl
@[simp] theorem State.setCore_ptbCause (s : State) (p : Fin 13) (c : CoreSt) : (s.setCore p c).ptbCause = s.ptbCause := rfl
@[simp] theorem State.setCore_dbLate (s : State) (p : Fin 13) (c : CoreSt) : (s.setCore p c).dbLate = s.dbLate := rfl
@[simp] theorem State.setCore_flc (s : State) (p : Fin 13) (c : CoreSt) : (s.setCore p c).flc = s.flc := rfl
@[simp] theorem State.setCore_sec (s : State) (p : Fin 13) (c : CoreSt) : (s.setCore p c).sec = s.sec := rfl
@[simp] theorem State.setCore_pwr (s : State) (p : Fin 13) (c : CoreSt) : (s.setCore p c).pwr = s.pwr := rfl
@[simp] theorem State.setCore_dbg (s : State) (p : Fin 13) (c : CoreSt) : (s.setCore p c).dbg = s.dbg := rfl
@[simp] theorem State.setCore_modeReq (s : State) (p : Fin 13) (c : CoreSt) : (s.setCore p c).modeReq = s.modeReq := rfl
@[simp] theorem State.setCore_sysDown (s : State) (p : Fin 13) (c : CoreSt) : (s.setCore p c).sysDown = s.sysDown := rfl
@[simp] theorem State.setCore_rollback (s : State) (p : Fin 13) (c : CoreSt) : (s.setCore p c).rollback = s.rollback := rfl
@[simp] theorem State.setCore_pending (s : State) (p : Fin 13) (c : CoreSt) : (s.setCore p c).pending = s.pending := rfl
@[simp] theorem State.setCore_reg (s : State) (p : Fin 13) (c : CoreSt) (b0 : Nat) : (s.setCore p c).reg b0 = s.reg b0 := rfl
@[simp] theorem State.setCore_getF (s : State) (p : Fin 13) (c : CoreSt) (b0 : Nat) (g : Fld) : (s.setCore p c).getF b0 g = s.getF b0 g := rfl
@[simp] theorem State.setCore_isSet (s : State) (p : Fin 13) (c : CoreSt) (b0 : Nat) (g : Fld) : (s.setCore p c).isSet b0 g = s.isSet b0 g := rfl

@[simp] theorem State.setCle_part (s : State) (n : Fin 12) (c : CleSt) : (s.setCle n c).part = s.part := rfl
@[simp] theorem State.setCle_mtime (s : State) (n : Fin 12) (c : CleSt) : (s.setCle n c).mtime = s.mtime := rfl
@[simp] theorem State.setCle_clock (s : State) (n : Fin 12) (c : CleSt) : (s.setCle n c).clock = s.clock := rfl
@[simp] theorem State.setCle_free (s : State) (n : Fin 12) (c : CleSt) : (s.setCle n c).free = s.free := rfl
@[simp] theorem State.setCle_regs (s : State) (n : Fin 12) (c : CleSt) : (s.setCle n c).regs = s.regs := rfl
@[simp] theorem State.setCle_cells (s : State) (n : Fin 12) (c : CleSt) : (s.setCle n c).cells = s.cells := rfl
@[simp] theorem State.setCle_busOut (s : State) (n : Fin 12) (c : CleSt) : (s.setCle n c).busOut = s.busOut := rfl
@[simp] theorem State.setCle_outs (s : State) (n : Fin 12) (c : CleSt) : (s.setCle n c).outs = s.outs := rfl
@[simp] theorem State.setCle_evr (s : State) (n : Fin 12) (c : CleSt) : (s.setCle n c).evr = s.evr := rfl
@[simp] theorem State.setCle_grg (s : State) (n : Fin 12) (c : CleSt) : (s.setCle n c).grg = s.grg := rfl
@[simp] theorem State.setCle_sar (s : State) (n : Fin 12) (c : CleSt) : (s.setCle n c).sar = s.sar := rfl
@[simp] theorem State.setCle_hil (s : State) (n : Fin 12) (c : CleSt) : (s.setCle n c).hil = s.hil := rfl
@[simp] theorem State.setCle_pwm (s : State) (n : Fin 12) (c : CleSt) : (s.setCle n c).pwm = s.pwm := rfl
@[simp] theorem State.setCle_cap (s : State) (n : Fin 12) (c : CleSt) : (s.setCle n c).cap = s.cap := rfl
@[simp] theorem State.setCle_inj (s : State) (n : Fin 12) (c : CleSt) : (s.setCle n c).inj = s.inj := rfl
@[simp] theorem State.setCle_ctl (s : State) (n : Fin 12) (c : CleSt) : (s.setCle n c).ctl = s.ctl := rfl
@[simp] theorem State.setCle_edgeSeq (s : State) (n : Fin 12) (c : CleSt) : (s.setCle n c).edgeSeq = s.edgeSeq := rfl
@[simp] theorem State.setCle_edgeRidx (s : State) (n : Fin 12) (c : CleSt) : (s.setCle n c).edgeRidx = s.edgeRidx := rfl
@[simp] theorem State.setCle_pwy (s : State) (n : Fin 12) (c : CleSt) : (s.setCle n c).pwy = s.pwy := rfl
@[simp] theorem State.setCle_core (s : State) (n : Fin 12) (c : CleSt) : (s.setCle n c).core = s.core := rfl
@[simp] theorem State.setCle_prog (s : State) (n : Fin 12) (c : CleSt) : (s.setCle n c).prog = s.prog := rfl
@[simp] theorem State.setCle_mstore (s : State) (n : Fin 12) (c : CleSt) : (s.setCle n c).mstore = s.mstore := rfl
@[simp] theorem State.setCle_mcopy (s : State) (n : Fin 12) (c : CleSt) : (s.setCle n c).mcopy = s.mcopy := rfl
@[simp] theorem State.setCle_copyBad (s : State) (n : Fin 12) (c : CleSt) : (s.setCle n c).copyBad = s.copyBad := rfl
@[simp] theorem State.setCle_copyLost (s : State) (n : Fin 12) (c : CleSt) : (s.setCle n c).copyLost = s.copyLost := rfl
@[simp] theorem State.setCle_copySet (s : State) (n : Fin 12) (c : CleSt) : (s.setCle n c).copySet = s.copySet := rfl
@[simp] theorem State.setCle_mver (s : State) (n : Fin 12) (c : CleSt) : (s.setCle n c).mver = s.mver := rfl
@[simp] theorem State.setCle_mem (s : State) (n : Fin 12) (c : CleSt) : (s.setCle n c).mem = s.mem := rfl
@[simp] theorem State.setCle_dma (s : State) (n : Fin 12) (c : CleSt) : (s.setCle n c).dma = s.dma := rfl
@[simp] theorem State.setCle_twn (s : State) (n : Fin 12) (c : CleSt) : (s.setCle n c).twn = s.twn := rfl
@[simp] theorem State.setCle_mad (s : State) (n : Fin 12) (c : CleSt) : (s.setCle n c).mad = s.mad := rfl
@[simp] theorem State.setCle_fns (s : State) (n : Fin 12) (c : CleSt) : (s.setCle n c).fns = s.fns := rfl
@[simp] theorem State.setCle_fetchNext (s : State) (n : Fin 12) (c : CleSt) : (s.setCle n c).fetchNext = s.fetchNext := rfl
@[simp] theorem State.setCle_vfEnable (s : State) (n : Fin 12) (c : CleSt) : (s.setCle n c).vfEnable = s.vfEnable := rfl
@[simp] theorem State.setCle_numVfs (s : State) (n : Fin 12) (c : CleSt) : (s.setCle n c).numVfs = s.numVfs := rfl
@[simp] theorem State.setCle_img (s : State) (n : Fin 12) (c : CleSt) : (s.setCle n c).img = s.img := rfl
@[simp] theorem State.setCle_trc (s : State) (n : Fin 12) (c : CleSt) : (s.setCle n c).trc = s.trc := rfl
@[simp] theorem State.setCle_mergeNext (s : State) (n : Fin 12) (c : CleSt) : (s.setCle n c).mergeNext = s.mergeNext := rfl
@[simp] theorem State.setCle_mergeFrom (s : State) (n : Fin 12) (c : CleSt) : (s.setCle n c).mergeFrom = s.mergeFrom := rfl
@[simp] theorem State.setCle_wdgFirst (s : State) (n : Fin 12) (c : CleSt) : (s.setCle n c).wdgFirst = s.wdgFirst := rfl
@[simp] theorem State.setCle_ptbBy (s : State) (n : Fin 12) (c : CleSt) : (s.setCle n c).ptbBy = s.ptbBy := rfl
@[simp] theorem State.setCle_ptbAt (s : State) (n : Fin 12) (c : CleSt) : (s.setCle n c).ptbAt = s.ptbAt := rfl
@[simp] theorem State.setCle_ptbCause (s : State) (n : Fin 12) (c : CleSt) : (s.setCle n c).ptbCause = s.ptbCause := rfl
@[simp] theorem State.setCle_dbLate (s : State) (n : Fin 12) (c : CleSt) : (s.setCle n c).dbLate = s.dbLate := rfl
@[simp] theorem State.setCle_flc (s : State) (n : Fin 12) (c : CleSt) : (s.setCle n c).flc = s.flc := rfl
@[simp] theorem State.setCle_sec (s : State) (n : Fin 12) (c : CleSt) : (s.setCle n c).sec = s.sec := rfl
@[simp] theorem State.setCle_pwr (s : State) (n : Fin 12) (c : CleSt) : (s.setCle n c).pwr = s.pwr := rfl
@[simp] theorem State.setCle_dbg (s : State) (n : Fin 12) (c : CleSt) : (s.setCle n c).dbg = s.dbg := rfl
@[simp] theorem State.setCle_modeReq (s : State) (n : Fin 12) (c : CleSt) : (s.setCle n c).modeReq = s.modeReq := rfl
@[simp] theorem State.setCle_sysDown (s : State) (n : Fin 12) (c : CleSt) : (s.setCle n c).sysDown = s.sysDown := rfl
@[simp] theorem State.setCle_rollback (s : State) (n : Fin 12) (c : CleSt) : (s.setCle n c).rollback = s.rollback := rfl
@[simp] theorem State.setCle_pending (s : State) (n : Fin 12) (c : CleSt) : (s.setCle n c).pending = s.pending := rfl
@[simp] theorem State.setCle_reg (s : State) (n : Fin 12) (c : CleSt) (b0 : Nat) : (s.setCle n c).reg b0 = s.reg b0 := rfl
@[simp] theorem State.setCle_getF (s : State) (n : Fin 12) (c : CleSt) (b0 : Nat) (g : Fld) : (s.setCle n c).getF b0 g = s.getF b0 g := rfl
@[simp] theorem State.setCle_isSet (s : State) (n : Fin 12) (c : CleSt) (b0 : Nat) (g : Fld) : (s.setCle n c).isSet b0 g = s.isSet b0 g := rfl

@[simp] theorem State.setInj_part (s : State) (n : Fin 12) (x : InjSt) : (s.setInj n x).part = s.part := rfl
@[simp] theorem State.setInj_mtime (s : State) (n : Fin 12) (x : InjSt) : (s.setInj n x).mtime = s.mtime := rfl
@[simp] theorem State.setInj_clock (s : State) (n : Fin 12) (x : InjSt) : (s.setInj n x).clock = s.clock := rfl
@[simp] theorem State.setInj_free (s : State) (n : Fin 12) (x : InjSt) : (s.setInj n x).free = s.free := rfl
@[simp] theorem State.setInj_regs (s : State) (n : Fin 12) (x : InjSt) : (s.setInj n x).regs = s.regs := rfl
@[simp] theorem State.setInj_cells (s : State) (n : Fin 12) (x : InjSt) : (s.setInj n x).cells = s.cells := rfl
@[simp] theorem State.setInj_busOut (s : State) (n : Fin 12) (x : InjSt) : (s.setInj n x).busOut = s.busOut := rfl
@[simp] theorem State.setInj_outs (s : State) (n : Fin 12) (x : InjSt) : (s.setInj n x).outs = s.outs := rfl
@[simp] theorem State.setInj_evr (s : State) (n : Fin 12) (x : InjSt) : (s.setInj n x).evr = s.evr := rfl
@[simp] theorem State.setInj_grg (s : State) (n : Fin 12) (x : InjSt) : (s.setInj n x).grg = s.grg := rfl
@[simp] theorem State.setInj_sar (s : State) (n : Fin 12) (x : InjSt) : (s.setInj n x).sar = s.sar := rfl
@[simp] theorem State.setInj_hil (s : State) (n : Fin 12) (x : InjSt) : (s.setInj n x).hil = s.hil := rfl
@[simp] theorem State.setInj_cle (s : State) (n : Fin 12) (x : InjSt) : (s.setInj n x).cle = s.cle := rfl
@[simp] theorem State.setInj_pwm (s : State) (n : Fin 12) (x : InjSt) : (s.setInj n x).pwm = s.pwm := rfl
@[simp] theorem State.setInj_cap (s : State) (n : Fin 12) (x : InjSt) : (s.setInj n x).cap = s.cap := rfl
@[simp] theorem State.setInj_ctl (s : State) (n : Fin 12) (x : InjSt) : (s.setInj n x).ctl = s.ctl := rfl
@[simp] theorem State.setInj_edgeSeq (s : State) (n : Fin 12) (x : InjSt) : (s.setInj n x).edgeSeq = s.edgeSeq := rfl
@[simp] theorem State.setInj_edgeRidx (s : State) (n : Fin 12) (x : InjSt) : (s.setInj n x).edgeRidx = s.edgeRidx := rfl
@[simp] theorem State.setInj_pwy (s : State) (n : Fin 12) (x : InjSt) : (s.setInj n x).pwy = s.pwy := rfl
@[simp] theorem State.setInj_core (s : State) (n : Fin 12) (x : InjSt) : (s.setInj n x).core = s.core := rfl
@[simp] theorem State.setInj_prog (s : State) (n : Fin 12) (x : InjSt) : (s.setInj n x).prog = s.prog := rfl
@[simp] theorem State.setInj_mstore (s : State) (n : Fin 12) (x : InjSt) : (s.setInj n x).mstore = s.mstore := rfl
@[simp] theorem State.setInj_mcopy (s : State) (n : Fin 12) (x : InjSt) : (s.setInj n x).mcopy = s.mcopy := rfl
@[simp] theorem State.setInj_copyBad (s : State) (n : Fin 12) (x : InjSt) : (s.setInj n x).copyBad = s.copyBad := rfl
@[simp] theorem State.setInj_copyLost (s : State) (n : Fin 12) (x : InjSt) : (s.setInj n x).copyLost = s.copyLost := rfl
@[simp] theorem State.setInj_copySet (s : State) (n : Fin 12) (x : InjSt) : (s.setInj n x).copySet = s.copySet := rfl
@[simp] theorem State.setInj_mver (s : State) (n : Fin 12) (x : InjSt) : (s.setInj n x).mver = s.mver := rfl
@[simp] theorem State.setInj_mem (s : State) (n : Fin 12) (x : InjSt) : (s.setInj n x).mem = s.mem := rfl
@[simp] theorem State.setInj_dma (s : State) (n : Fin 12) (x : InjSt) : (s.setInj n x).dma = s.dma := rfl
@[simp] theorem State.setInj_twn (s : State) (n : Fin 12) (x : InjSt) : (s.setInj n x).twn = s.twn := rfl
@[simp] theorem State.setInj_mad (s : State) (n : Fin 12) (x : InjSt) : (s.setInj n x).mad = s.mad := rfl
@[simp] theorem State.setInj_fns (s : State) (n : Fin 12) (x : InjSt) : (s.setInj n x).fns = s.fns := rfl
@[simp] theorem State.setInj_fetchNext (s : State) (n : Fin 12) (x : InjSt) : (s.setInj n x).fetchNext = s.fetchNext := rfl
@[simp] theorem State.setInj_vfEnable (s : State) (n : Fin 12) (x : InjSt) : (s.setInj n x).vfEnable = s.vfEnable := rfl
@[simp] theorem State.setInj_numVfs (s : State) (n : Fin 12) (x : InjSt) : (s.setInj n x).numVfs = s.numVfs := rfl
@[simp] theorem State.setInj_img (s : State) (n : Fin 12) (x : InjSt) : (s.setInj n x).img = s.img := rfl
@[simp] theorem State.setInj_trc (s : State) (n : Fin 12) (x : InjSt) : (s.setInj n x).trc = s.trc := rfl
@[simp] theorem State.setInj_mergeNext (s : State) (n : Fin 12) (x : InjSt) : (s.setInj n x).mergeNext = s.mergeNext := rfl
@[simp] theorem State.setInj_mergeFrom (s : State) (n : Fin 12) (x : InjSt) : (s.setInj n x).mergeFrom = s.mergeFrom := rfl
@[simp] theorem State.setInj_wdgFirst (s : State) (n : Fin 12) (x : InjSt) : (s.setInj n x).wdgFirst = s.wdgFirst := rfl
@[simp] theorem State.setInj_ptbBy (s : State) (n : Fin 12) (x : InjSt) : (s.setInj n x).ptbBy = s.ptbBy := rfl
@[simp] theorem State.setInj_ptbAt (s : State) (n : Fin 12) (x : InjSt) : (s.setInj n x).ptbAt = s.ptbAt := rfl
@[simp] theorem State.setInj_ptbCause (s : State) (n : Fin 12) (x : InjSt) : (s.setInj n x).ptbCause = s.ptbCause := rfl
@[simp] theorem State.setInj_dbLate (s : State) (n : Fin 12) (x : InjSt) : (s.setInj n x).dbLate = s.dbLate := rfl
@[simp] theorem State.setInj_flc (s : State) (n : Fin 12) (x : InjSt) : (s.setInj n x).flc = s.flc := rfl
@[simp] theorem State.setInj_sec (s : State) (n : Fin 12) (x : InjSt) : (s.setInj n x).sec = s.sec := rfl
@[simp] theorem State.setInj_pwr (s : State) (n : Fin 12) (x : InjSt) : (s.setInj n x).pwr = s.pwr := rfl
@[simp] theorem State.setInj_dbg (s : State) (n : Fin 12) (x : InjSt) : (s.setInj n x).dbg = s.dbg := rfl
@[simp] theorem State.setInj_modeReq (s : State) (n : Fin 12) (x : InjSt) : (s.setInj n x).modeReq = s.modeReq := rfl
@[simp] theorem State.setInj_sysDown (s : State) (n : Fin 12) (x : InjSt) : (s.setInj n x).sysDown = s.sysDown := rfl
@[simp] theorem State.setInj_rollback (s : State) (n : Fin 12) (x : InjSt) : (s.setInj n x).rollback = s.rollback := rfl
@[simp] theorem State.setInj_pending (s : State) (n : Fin 12) (x : InjSt) : (s.setInj n x).pending = s.pending := rfl
@[simp] theorem State.setInj_reg (s : State) (n : Fin 12) (x : InjSt) (b0 : Nat) : (s.setInj n x).reg b0 = s.reg b0 := rfl
@[simp] theorem State.setInj_getF (s : State) (n : Fin 12) (x : InjSt) (b0 : Nat) (g : Fld) : (s.setInj n x).getF b0 g = s.getF b0 g := rfl
@[simp] theorem State.setInj_isSet (s : State) (n : Fin 12) (x : InjSt) (b0 : Nat) (g : Fld) : (s.setInj n x).isSet b0 g = s.isSet b0 g := rfl

@[simp] theorem State.setDma_part (s : State) (e : Fin 13) (c : Fin 16) (d : DmaCh) : (s.setDma e c d).part = s.part := rfl
@[simp] theorem State.setDma_mtime (s : State) (e : Fin 13) (c : Fin 16) (d : DmaCh) : (s.setDma e c d).mtime = s.mtime := rfl
@[simp] theorem State.setDma_clock (s : State) (e : Fin 13) (c : Fin 16) (d : DmaCh) : (s.setDma e c d).clock = s.clock := rfl
@[simp] theorem State.setDma_free (s : State) (e : Fin 13) (c : Fin 16) (d : DmaCh) : (s.setDma e c d).free = s.free := rfl
@[simp] theorem State.setDma_regs (s : State) (e : Fin 13) (c : Fin 16) (d : DmaCh) : (s.setDma e c d).regs = s.regs := rfl
@[simp] theorem State.setDma_cells (s : State) (e : Fin 13) (c : Fin 16) (d : DmaCh) : (s.setDma e c d).cells = s.cells := rfl
@[simp] theorem State.setDma_busOut (s : State) (e : Fin 13) (c : Fin 16) (d : DmaCh) : (s.setDma e c d).busOut = s.busOut := rfl
@[simp] theorem State.setDma_outs (s : State) (e : Fin 13) (c : Fin 16) (d : DmaCh) : (s.setDma e c d).outs = s.outs := rfl
@[simp] theorem State.setDma_evr (s : State) (e : Fin 13) (c : Fin 16) (d : DmaCh) : (s.setDma e c d).evr = s.evr := rfl
@[simp] theorem State.setDma_grg (s : State) (e : Fin 13) (c : Fin 16) (d : DmaCh) : (s.setDma e c d).grg = s.grg := rfl
@[simp] theorem State.setDma_sar (s : State) (e : Fin 13) (c : Fin 16) (d : DmaCh) : (s.setDma e c d).sar = s.sar := rfl
@[simp] theorem State.setDma_hil (s : State) (e : Fin 13) (c : Fin 16) (d : DmaCh) : (s.setDma e c d).hil = s.hil := rfl
@[simp] theorem State.setDma_cle (s : State) (e : Fin 13) (c : Fin 16) (d : DmaCh) : (s.setDma e c d).cle = s.cle := rfl
@[simp] theorem State.setDma_pwm (s : State) (e : Fin 13) (c : Fin 16) (d : DmaCh) : (s.setDma e c d).pwm = s.pwm := rfl
@[simp] theorem State.setDma_cap (s : State) (e : Fin 13) (c : Fin 16) (d : DmaCh) : (s.setDma e c d).cap = s.cap := rfl
@[simp] theorem State.setDma_inj (s : State) (e : Fin 13) (c : Fin 16) (d : DmaCh) : (s.setDma e c d).inj = s.inj := rfl
@[simp] theorem State.setDma_ctl (s : State) (e : Fin 13) (c : Fin 16) (d : DmaCh) : (s.setDma e c d).ctl = s.ctl := rfl
@[simp] theorem State.setDma_edgeSeq (s : State) (e : Fin 13) (c : Fin 16) (d : DmaCh) : (s.setDma e c d).edgeSeq = s.edgeSeq := rfl
@[simp] theorem State.setDma_edgeRidx (s : State) (e : Fin 13) (c : Fin 16) (d : DmaCh) : (s.setDma e c d).edgeRidx = s.edgeRidx := rfl
@[simp] theorem State.setDma_pwy (s : State) (e : Fin 13) (c : Fin 16) (d : DmaCh) : (s.setDma e c d).pwy = s.pwy := rfl
@[simp] theorem State.setDma_core (s : State) (e : Fin 13) (c : Fin 16) (d : DmaCh) : (s.setDma e c d).core = s.core := rfl
@[simp] theorem State.setDma_prog (s : State) (e : Fin 13) (c : Fin 16) (d : DmaCh) : (s.setDma e c d).prog = s.prog := rfl
@[simp] theorem State.setDma_mstore (s : State) (e : Fin 13) (c : Fin 16) (d : DmaCh) : (s.setDma e c d).mstore = s.mstore := rfl
@[simp] theorem State.setDma_mcopy (s : State) (e : Fin 13) (c : Fin 16) (d : DmaCh) : (s.setDma e c d).mcopy = s.mcopy := rfl
@[simp] theorem State.setDma_copyBad (s : State) (e : Fin 13) (c : Fin 16) (d : DmaCh) : (s.setDma e c d).copyBad = s.copyBad := rfl
@[simp] theorem State.setDma_copyLost (s : State) (e : Fin 13) (c : Fin 16) (d : DmaCh) : (s.setDma e c d).copyLost = s.copyLost := rfl
@[simp] theorem State.setDma_copySet (s : State) (e : Fin 13) (c : Fin 16) (d : DmaCh) : (s.setDma e c d).copySet = s.copySet := rfl
@[simp] theorem State.setDma_mver (s : State) (e : Fin 13) (c : Fin 16) (d : DmaCh) : (s.setDma e c d).mver = s.mver := rfl
@[simp] theorem State.setDma_mem (s : State) (e : Fin 13) (c : Fin 16) (d : DmaCh) : (s.setDma e c d).mem = s.mem := rfl
@[simp] theorem State.setDma_twn (s : State) (e : Fin 13) (c : Fin 16) (d : DmaCh) : (s.setDma e c d).twn = s.twn := rfl
@[simp] theorem State.setDma_mad (s : State) (e : Fin 13) (c : Fin 16) (d : DmaCh) : (s.setDma e c d).mad = s.mad := rfl
@[simp] theorem State.setDma_fns (s : State) (e : Fin 13) (c : Fin 16) (d : DmaCh) : (s.setDma e c d).fns = s.fns := rfl
@[simp] theorem State.setDma_fetchNext (s : State) (e : Fin 13) (c : Fin 16) (d : DmaCh) : (s.setDma e c d).fetchNext = s.fetchNext := rfl
@[simp] theorem State.setDma_vfEnable (s : State) (e : Fin 13) (c : Fin 16) (d : DmaCh) : (s.setDma e c d).vfEnable = s.vfEnable := rfl
@[simp] theorem State.setDma_numVfs (s : State) (e : Fin 13) (c : Fin 16) (d : DmaCh) : (s.setDma e c d).numVfs = s.numVfs := rfl
@[simp] theorem State.setDma_img (s : State) (e : Fin 13) (c : Fin 16) (d : DmaCh) : (s.setDma e c d).img = s.img := rfl
@[simp] theorem State.setDma_trc (s : State) (e : Fin 13) (c : Fin 16) (d : DmaCh) : (s.setDma e c d).trc = s.trc := rfl
@[simp] theorem State.setDma_mergeNext (s : State) (e : Fin 13) (c : Fin 16) (d : DmaCh) : (s.setDma e c d).mergeNext = s.mergeNext := rfl
@[simp] theorem State.setDma_mergeFrom (s : State) (e : Fin 13) (c : Fin 16) (d : DmaCh) : (s.setDma e c d).mergeFrom = s.mergeFrom := rfl
@[simp] theorem State.setDma_wdgFirst (s : State) (e : Fin 13) (c : Fin 16) (d : DmaCh) : (s.setDma e c d).wdgFirst = s.wdgFirst := rfl
@[simp] theorem State.setDma_ptbBy (s : State) (e : Fin 13) (c : Fin 16) (d : DmaCh) : (s.setDma e c d).ptbBy = s.ptbBy := rfl
@[simp] theorem State.setDma_ptbAt (s : State) (e : Fin 13) (c : Fin 16) (d : DmaCh) : (s.setDma e c d).ptbAt = s.ptbAt := rfl
@[simp] theorem State.setDma_ptbCause (s : State) (e : Fin 13) (c : Fin 16) (d : DmaCh) : (s.setDma e c d).ptbCause = s.ptbCause := rfl
@[simp] theorem State.setDma_dbLate (s : State) (e : Fin 13) (c : Fin 16) (d : DmaCh) : (s.setDma e c d).dbLate = s.dbLate := rfl
@[simp] theorem State.setDma_flc (s : State) (e : Fin 13) (c : Fin 16) (d : DmaCh) : (s.setDma e c d).flc = s.flc := rfl
@[simp] theorem State.setDma_sec (s : State) (e : Fin 13) (c : Fin 16) (d : DmaCh) : (s.setDma e c d).sec = s.sec := rfl
@[simp] theorem State.setDma_pwr (s : State) (e : Fin 13) (c : Fin 16) (d : DmaCh) : (s.setDma e c d).pwr = s.pwr := rfl
@[simp] theorem State.setDma_dbg (s : State) (e : Fin 13) (c : Fin 16) (d : DmaCh) : (s.setDma e c d).dbg = s.dbg := rfl
@[simp] theorem State.setDma_modeReq (s : State) (e : Fin 13) (c : Fin 16) (d : DmaCh) : (s.setDma e c d).modeReq = s.modeReq := rfl
@[simp] theorem State.setDma_sysDown (s : State) (e : Fin 13) (c : Fin 16) (d : DmaCh) : (s.setDma e c d).sysDown = s.sysDown := rfl
@[simp] theorem State.setDma_rollback (s : State) (e : Fin 13) (c : Fin 16) (d : DmaCh) : (s.setDma e c d).rollback = s.rollback := rfl
@[simp] theorem State.setDma_pending (s : State) (e : Fin 13) (c : Fin 16) (d : DmaCh) : (s.setDma e c d).pending = s.pending := rfl
@[simp] theorem State.setDma_reg (s : State) (e : Fin 13) (c : Fin 16) (d : DmaCh) (b0 : Nat) : (s.setDma e c d).reg b0 = s.reg b0 := rfl
@[simp] theorem State.setDma_getF (s : State) (e : Fin 13) (c : Fin 16) (d : DmaCh) (b0 : Nat) (g : Fld) : (s.setDma e c d).getF b0 g = s.getF b0 g := rfl
@[simp] theorem State.setDma_isSet (s : State) (e : Fin 13) (c : Fin 16) (d : DmaCh) (b0 : Nat) (g : Fld) : (s.setDma e c d).isSet b0 g = s.isSet b0 g := rfl

@[simp] theorem State.setMad_part (s : State) (m : MadSt) : (s.setMad m).part = s.part := rfl
@[simp] theorem State.setMad_mtime (s : State) (m : MadSt) : (s.setMad m).mtime = s.mtime := rfl
@[simp] theorem State.setMad_clock (s : State) (m : MadSt) : (s.setMad m).clock = s.clock := rfl
@[simp] theorem State.setMad_free (s : State) (m : MadSt) : (s.setMad m).free = s.free := rfl
@[simp] theorem State.setMad_regs (s : State) (m : MadSt) : (s.setMad m).regs = s.regs := rfl
@[simp] theorem State.setMad_cells (s : State) (m : MadSt) : (s.setMad m).cells = s.cells := rfl
@[simp] theorem State.setMad_busOut (s : State) (m : MadSt) : (s.setMad m).busOut = s.busOut := rfl
@[simp] theorem State.setMad_outs (s : State) (m : MadSt) : (s.setMad m).outs = s.outs := rfl
@[simp] theorem State.setMad_evr (s : State) (m : MadSt) : (s.setMad m).evr = s.evr := rfl
@[simp] theorem State.setMad_grg (s : State) (m : MadSt) : (s.setMad m).grg = s.grg := rfl
@[simp] theorem State.setMad_sar (s : State) (m : MadSt) : (s.setMad m).sar = s.sar := rfl
@[simp] theorem State.setMad_hil (s : State) (m : MadSt) : (s.setMad m).hil = s.hil := rfl
@[simp] theorem State.setMad_cle (s : State) (m : MadSt) : (s.setMad m).cle = s.cle := rfl
@[simp] theorem State.setMad_pwm (s : State) (m : MadSt) : (s.setMad m).pwm = s.pwm := rfl
@[simp] theorem State.setMad_cap (s : State) (m : MadSt) : (s.setMad m).cap = s.cap := rfl
@[simp] theorem State.setMad_inj (s : State) (m : MadSt) : (s.setMad m).inj = s.inj := rfl
@[simp] theorem State.setMad_ctl (s : State) (m : MadSt) : (s.setMad m).ctl = s.ctl := rfl
@[simp] theorem State.setMad_edgeSeq (s : State) (m : MadSt) : (s.setMad m).edgeSeq = s.edgeSeq := rfl
@[simp] theorem State.setMad_edgeRidx (s : State) (m : MadSt) : (s.setMad m).edgeRidx = s.edgeRidx := rfl
@[simp] theorem State.setMad_pwy (s : State) (m : MadSt) : (s.setMad m).pwy = s.pwy := rfl
@[simp] theorem State.setMad_core (s : State) (m : MadSt) : (s.setMad m).core = s.core := rfl
@[simp] theorem State.setMad_prog (s : State) (m : MadSt) : (s.setMad m).prog = s.prog := rfl
@[simp] theorem State.setMad_mstore (s : State) (m : MadSt) : (s.setMad m).mstore = s.mstore := rfl
@[simp] theorem State.setMad_mcopy (s : State) (m : MadSt) : (s.setMad m).mcopy = s.mcopy := rfl
@[simp] theorem State.setMad_copyBad (s : State) (m : MadSt) : (s.setMad m).copyBad = s.copyBad := rfl
@[simp] theorem State.setMad_copyLost (s : State) (m : MadSt) : (s.setMad m).copyLost = s.copyLost := rfl
@[simp] theorem State.setMad_copySet (s : State) (m : MadSt) : (s.setMad m).copySet = s.copySet := rfl
@[simp] theorem State.setMad_mver (s : State) (m : MadSt) : (s.setMad m).mver = s.mver := rfl
@[simp] theorem State.setMad_mem (s : State) (m : MadSt) : (s.setMad m).mem = s.mem := rfl
@[simp] theorem State.setMad_dma (s : State) (m : MadSt) : (s.setMad m).dma = s.dma := rfl
@[simp] theorem State.setMad_twn (s : State) (m : MadSt) : (s.setMad m).twn = s.twn := rfl
@[simp] theorem State.setMad_fns (s : State) (m : MadSt) : (s.setMad m).fns = s.fns := rfl
@[simp] theorem State.setMad_fetchNext (s : State) (m : MadSt) : (s.setMad m).fetchNext = s.fetchNext := rfl
@[simp] theorem State.setMad_vfEnable (s : State) (m : MadSt) : (s.setMad m).vfEnable = s.vfEnable := rfl
@[simp] theorem State.setMad_numVfs (s : State) (m : MadSt) : (s.setMad m).numVfs = s.numVfs := rfl
@[simp] theorem State.setMad_img (s : State) (m : MadSt) : (s.setMad m).img = s.img := rfl
@[simp] theorem State.setMad_trc (s : State) (m : MadSt) : (s.setMad m).trc = s.trc := rfl
@[simp] theorem State.setMad_mergeNext (s : State) (m : MadSt) : (s.setMad m).mergeNext = s.mergeNext := rfl
@[simp] theorem State.setMad_mergeFrom (s : State) (m : MadSt) : (s.setMad m).mergeFrom = s.mergeFrom := rfl
@[simp] theorem State.setMad_wdgFirst (s : State) (m : MadSt) : (s.setMad m).wdgFirst = s.wdgFirst := rfl
@[simp] theorem State.setMad_ptbBy (s : State) (m : MadSt) : (s.setMad m).ptbBy = s.ptbBy := rfl
@[simp] theorem State.setMad_ptbAt (s : State) (m : MadSt) : (s.setMad m).ptbAt = s.ptbAt := rfl
@[simp] theorem State.setMad_ptbCause (s : State) (m : MadSt) : (s.setMad m).ptbCause = s.ptbCause := rfl
@[simp] theorem State.setMad_dbLate (s : State) (m : MadSt) : (s.setMad m).dbLate = s.dbLate := rfl
@[simp] theorem State.setMad_flc (s : State) (m : MadSt) : (s.setMad m).flc = s.flc := rfl
@[simp] theorem State.setMad_sec (s : State) (m : MadSt) : (s.setMad m).sec = s.sec := rfl
@[simp] theorem State.setMad_pwr (s : State) (m : MadSt) : (s.setMad m).pwr = s.pwr := rfl
@[simp] theorem State.setMad_dbg (s : State) (m : MadSt) : (s.setMad m).dbg = s.dbg := rfl
@[simp] theorem State.setMad_modeReq (s : State) (m : MadSt) : (s.setMad m).modeReq = s.modeReq := rfl
@[simp] theorem State.setMad_sysDown (s : State) (m : MadSt) : (s.setMad m).sysDown = s.sysDown := rfl
@[simp] theorem State.setMad_rollback (s : State) (m : MadSt) : (s.setMad m).rollback = s.rollback := rfl
@[simp] theorem State.setMad_pending (s : State) (m : MadSt) : (s.setMad m).pending = s.pending := rfl
@[simp] theorem State.setMad_reg (s : State) (m : MadSt) (b0 : Nat) : (s.setMad m).reg b0 = s.reg b0 := rfl
@[simp] theorem State.setMad_getF (s : State) (m : MadSt) (b0 : Nat) (g : Fld) : (s.setMad m).getF b0 g = s.getF b0 g := rfl
@[simp] theorem State.setMad_isSet (s : State) (m : MadSt) (b0 : Nat) (g : Fld) : (s.setMad m).isSet b0 g = s.isSet b0 g := rfl

@[simp] theorem State.setTwn_part (s : State) (t : TwnSt) : (s.setTwn t).part = s.part := rfl
@[simp] theorem State.setTwn_mtime (s : State) (t : TwnSt) : (s.setTwn t).mtime = s.mtime := rfl
@[simp] theorem State.setTwn_clock (s : State) (t : TwnSt) : (s.setTwn t).clock = s.clock := rfl
@[simp] theorem State.setTwn_free (s : State) (t : TwnSt) : (s.setTwn t).free = s.free := rfl
@[simp] theorem State.setTwn_regs (s : State) (t : TwnSt) : (s.setTwn t).regs = s.regs := rfl
@[simp] theorem State.setTwn_cells (s : State) (t : TwnSt) : (s.setTwn t).cells = s.cells := rfl
@[simp] theorem State.setTwn_busOut (s : State) (t : TwnSt) : (s.setTwn t).busOut = s.busOut := rfl
@[simp] theorem State.setTwn_outs (s : State) (t : TwnSt) : (s.setTwn t).outs = s.outs := rfl
@[simp] theorem State.setTwn_evr (s : State) (t : TwnSt) : (s.setTwn t).evr = s.evr := rfl
@[simp] theorem State.setTwn_grg (s : State) (t : TwnSt) : (s.setTwn t).grg = s.grg := rfl
@[simp] theorem State.setTwn_sar (s : State) (t : TwnSt) : (s.setTwn t).sar = s.sar := rfl
@[simp] theorem State.setTwn_hil (s : State) (t : TwnSt) : (s.setTwn t).hil = s.hil := rfl
@[simp] theorem State.setTwn_cle (s : State) (t : TwnSt) : (s.setTwn t).cle = s.cle := rfl
@[simp] theorem State.setTwn_pwm (s : State) (t : TwnSt) : (s.setTwn t).pwm = s.pwm := rfl
@[simp] theorem State.setTwn_cap (s : State) (t : TwnSt) : (s.setTwn t).cap = s.cap := rfl
@[simp] theorem State.setTwn_inj (s : State) (t : TwnSt) : (s.setTwn t).inj = s.inj := rfl
@[simp] theorem State.setTwn_ctl (s : State) (t : TwnSt) : (s.setTwn t).ctl = s.ctl := rfl
@[simp] theorem State.setTwn_edgeSeq (s : State) (t : TwnSt) : (s.setTwn t).edgeSeq = s.edgeSeq := rfl
@[simp] theorem State.setTwn_edgeRidx (s : State) (t : TwnSt) : (s.setTwn t).edgeRidx = s.edgeRidx := rfl
@[simp] theorem State.setTwn_pwy (s : State) (t : TwnSt) : (s.setTwn t).pwy = s.pwy := rfl
@[simp] theorem State.setTwn_core (s : State) (t : TwnSt) : (s.setTwn t).core = s.core := rfl
@[simp] theorem State.setTwn_prog (s : State) (t : TwnSt) : (s.setTwn t).prog = s.prog := rfl
@[simp] theorem State.setTwn_mstore (s : State) (t : TwnSt) : (s.setTwn t).mstore = s.mstore := rfl
@[simp] theorem State.setTwn_mcopy (s : State) (t : TwnSt) : (s.setTwn t).mcopy = s.mcopy := rfl
@[simp] theorem State.setTwn_copyBad (s : State) (t : TwnSt) : (s.setTwn t).copyBad = s.copyBad := rfl
@[simp] theorem State.setTwn_copyLost (s : State) (t : TwnSt) : (s.setTwn t).copyLost = s.copyLost := rfl
@[simp] theorem State.setTwn_copySet (s : State) (t : TwnSt) : (s.setTwn t).copySet = s.copySet := rfl
@[simp] theorem State.setTwn_mver (s : State) (t : TwnSt) : (s.setTwn t).mver = s.mver := rfl
@[simp] theorem State.setTwn_mem (s : State) (t : TwnSt) : (s.setTwn t).mem = s.mem := rfl
@[simp] theorem State.setTwn_dma (s : State) (t : TwnSt) : (s.setTwn t).dma = s.dma := rfl
@[simp] theorem State.setTwn_mad (s : State) (t : TwnSt) : (s.setTwn t).mad = s.mad := rfl
@[simp] theorem State.setTwn_fns (s : State) (t : TwnSt) : (s.setTwn t).fns = s.fns := rfl
@[simp] theorem State.setTwn_fetchNext (s : State) (t : TwnSt) : (s.setTwn t).fetchNext = s.fetchNext := rfl
@[simp] theorem State.setTwn_vfEnable (s : State) (t : TwnSt) : (s.setTwn t).vfEnable = s.vfEnable := rfl
@[simp] theorem State.setTwn_numVfs (s : State) (t : TwnSt) : (s.setTwn t).numVfs = s.numVfs := rfl
@[simp] theorem State.setTwn_img (s : State) (t : TwnSt) : (s.setTwn t).img = s.img := rfl
@[simp] theorem State.setTwn_trc (s : State) (t : TwnSt) : (s.setTwn t).trc = s.trc := rfl
@[simp] theorem State.setTwn_mergeNext (s : State) (t : TwnSt) : (s.setTwn t).mergeNext = s.mergeNext := rfl
@[simp] theorem State.setTwn_mergeFrom (s : State) (t : TwnSt) : (s.setTwn t).mergeFrom = s.mergeFrom := rfl
@[simp] theorem State.setTwn_wdgFirst (s : State) (t : TwnSt) : (s.setTwn t).wdgFirst = s.wdgFirst := rfl
@[simp] theorem State.setTwn_ptbBy (s : State) (t : TwnSt) : (s.setTwn t).ptbBy = s.ptbBy := rfl
@[simp] theorem State.setTwn_ptbAt (s : State) (t : TwnSt) : (s.setTwn t).ptbAt = s.ptbAt := rfl
@[simp] theorem State.setTwn_ptbCause (s : State) (t : TwnSt) : (s.setTwn t).ptbCause = s.ptbCause := rfl
@[simp] theorem State.setTwn_dbLate (s : State) (t : TwnSt) : (s.setTwn t).dbLate = s.dbLate := rfl
@[simp] theorem State.setTwn_flc (s : State) (t : TwnSt) : (s.setTwn t).flc = s.flc := rfl
@[simp] theorem State.setTwn_sec (s : State) (t : TwnSt) : (s.setTwn t).sec = s.sec := rfl
@[simp] theorem State.setTwn_pwr (s : State) (t : TwnSt) : (s.setTwn t).pwr = s.pwr := rfl
@[simp] theorem State.setTwn_dbg (s : State) (t : TwnSt) : (s.setTwn t).dbg = s.dbg := rfl
@[simp] theorem State.setTwn_modeReq (s : State) (t : TwnSt) : (s.setTwn t).modeReq = s.modeReq := rfl
@[simp] theorem State.setTwn_sysDown (s : State) (t : TwnSt) : (s.setTwn t).sysDown = s.sysDown := rfl
@[simp] theorem State.setTwn_rollback (s : State) (t : TwnSt) : (s.setTwn t).rollback = s.rollback := rfl
@[simp] theorem State.setTwn_pending (s : State) (t : TwnSt) : (s.setTwn t).pending = s.pending := rfl
@[simp] theorem State.setTwn_reg (s : State) (t : TwnSt) (b0 : Nat) : (s.setTwn t).reg b0 = s.reg b0 := rfl
@[simp] theorem State.setTwn_getF (s : State) (t : TwnSt) (b0 : Nat) (g : Fld) : (s.setTwn t).getF b0 g = s.getF b0 g := rfl
@[simp] theorem State.setTwn_isSet (s : State) (t : TwnSt) (b0 : Nat) (g : Fld) : (s.setTwn t).isSet b0 g = s.isSet b0 g := rfl

@[simp] theorem State.setFlc_part (s : State) (x : FlcSt) : (s.setFlc x).part = s.part := rfl
@[simp] theorem State.setFlc_mtime (s : State) (x : FlcSt) : (s.setFlc x).mtime = s.mtime := rfl
@[simp] theorem State.setFlc_clock (s : State) (x : FlcSt) : (s.setFlc x).clock = s.clock := rfl
@[simp] theorem State.setFlc_free (s : State) (x : FlcSt) : (s.setFlc x).free = s.free := rfl
@[simp] theorem State.setFlc_regs (s : State) (x : FlcSt) : (s.setFlc x).regs = s.regs := rfl
@[simp] theorem State.setFlc_cells (s : State) (x : FlcSt) : (s.setFlc x).cells = s.cells := rfl
@[simp] theorem State.setFlc_busOut (s : State) (x : FlcSt) : (s.setFlc x).busOut = s.busOut := rfl
@[simp] theorem State.setFlc_outs (s : State) (x : FlcSt) : (s.setFlc x).outs = s.outs := rfl
@[simp] theorem State.setFlc_evr (s : State) (x : FlcSt) : (s.setFlc x).evr = s.evr := rfl
@[simp] theorem State.setFlc_grg (s : State) (x : FlcSt) : (s.setFlc x).grg = s.grg := rfl
@[simp] theorem State.setFlc_sar (s : State) (x : FlcSt) : (s.setFlc x).sar = s.sar := rfl
@[simp] theorem State.setFlc_hil (s : State) (x : FlcSt) : (s.setFlc x).hil = s.hil := rfl
@[simp] theorem State.setFlc_cle (s : State) (x : FlcSt) : (s.setFlc x).cle = s.cle := rfl
@[simp] theorem State.setFlc_pwm (s : State) (x : FlcSt) : (s.setFlc x).pwm = s.pwm := rfl
@[simp] theorem State.setFlc_cap (s : State) (x : FlcSt) : (s.setFlc x).cap = s.cap := rfl
@[simp] theorem State.setFlc_inj (s : State) (x : FlcSt) : (s.setFlc x).inj = s.inj := rfl
@[simp] theorem State.setFlc_ctl (s : State) (x : FlcSt) : (s.setFlc x).ctl = s.ctl := rfl
@[simp] theorem State.setFlc_edgeSeq (s : State) (x : FlcSt) : (s.setFlc x).edgeSeq = s.edgeSeq := rfl
@[simp] theorem State.setFlc_edgeRidx (s : State) (x : FlcSt) : (s.setFlc x).edgeRidx = s.edgeRidx := rfl
@[simp] theorem State.setFlc_pwy (s : State) (x : FlcSt) : (s.setFlc x).pwy = s.pwy := rfl
@[simp] theorem State.setFlc_core (s : State) (x : FlcSt) : (s.setFlc x).core = s.core := rfl
@[simp] theorem State.setFlc_prog (s : State) (x : FlcSt) : (s.setFlc x).prog = s.prog := rfl
@[simp] theorem State.setFlc_mstore (s : State) (x : FlcSt) : (s.setFlc x).mstore = s.mstore := rfl
@[simp] theorem State.setFlc_mcopy (s : State) (x : FlcSt) : (s.setFlc x).mcopy = s.mcopy := rfl
@[simp] theorem State.setFlc_copyBad (s : State) (x : FlcSt) : (s.setFlc x).copyBad = s.copyBad := rfl
@[simp] theorem State.setFlc_copyLost (s : State) (x : FlcSt) : (s.setFlc x).copyLost = s.copyLost := rfl
@[simp] theorem State.setFlc_copySet (s : State) (x : FlcSt) : (s.setFlc x).copySet = s.copySet := rfl
@[simp] theorem State.setFlc_mver (s : State) (x : FlcSt) : (s.setFlc x).mver = s.mver := rfl
@[simp] theorem State.setFlc_mem (s : State) (x : FlcSt) : (s.setFlc x).mem = s.mem := rfl
@[simp] theorem State.setFlc_dma (s : State) (x : FlcSt) : (s.setFlc x).dma = s.dma := rfl
@[simp] theorem State.setFlc_twn (s : State) (x : FlcSt) : (s.setFlc x).twn = s.twn := rfl
@[simp] theorem State.setFlc_mad (s : State) (x : FlcSt) : (s.setFlc x).mad = s.mad := rfl
@[simp] theorem State.setFlc_fns (s : State) (x : FlcSt) : (s.setFlc x).fns = s.fns := rfl
@[simp] theorem State.setFlc_fetchNext (s : State) (x : FlcSt) : (s.setFlc x).fetchNext = s.fetchNext := rfl
@[simp] theorem State.setFlc_vfEnable (s : State) (x : FlcSt) : (s.setFlc x).vfEnable = s.vfEnable := rfl
@[simp] theorem State.setFlc_numVfs (s : State) (x : FlcSt) : (s.setFlc x).numVfs = s.numVfs := rfl
@[simp] theorem State.setFlc_img (s : State) (x : FlcSt) : (s.setFlc x).img = s.img := rfl
@[simp] theorem State.setFlc_trc (s : State) (x : FlcSt) : (s.setFlc x).trc = s.trc := rfl
@[simp] theorem State.setFlc_mergeNext (s : State) (x : FlcSt) : (s.setFlc x).mergeNext = s.mergeNext := rfl
@[simp] theorem State.setFlc_mergeFrom (s : State) (x : FlcSt) : (s.setFlc x).mergeFrom = s.mergeFrom := rfl
@[simp] theorem State.setFlc_wdgFirst (s : State) (x : FlcSt) : (s.setFlc x).wdgFirst = s.wdgFirst := rfl
@[simp] theorem State.setFlc_ptbBy (s : State) (x : FlcSt) : (s.setFlc x).ptbBy = s.ptbBy := rfl
@[simp] theorem State.setFlc_ptbAt (s : State) (x : FlcSt) : (s.setFlc x).ptbAt = s.ptbAt := rfl
@[simp] theorem State.setFlc_ptbCause (s : State) (x : FlcSt) : (s.setFlc x).ptbCause = s.ptbCause := rfl
@[simp] theorem State.setFlc_dbLate (s : State) (x : FlcSt) : (s.setFlc x).dbLate = s.dbLate := rfl
@[simp] theorem State.setFlc_sec (s : State) (x : FlcSt) : (s.setFlc x).sec = s.sec := rfl
@[simp] theorem State.setFlc_pwr (s : State) (x : FlcSt) : (s.setFlc x).pwr = s.pwr := rfl
@[simp] theorem State.setFlc_dbg (s : State) (x : FlcSt) : (s.setFlc x).dbg = s.dbg := rfl
@[simp] theorem State.setFlc_modeReq (s : State) (x : FlcSt) : (s.setFlc x).modeReq = s.modeReq := rfl
@[simp] theorem State.setFlc_sysDown (s : State) (x : FlcSt) : (s.setFlc x).sysDown = s.sysDown := rfl
@[simp] theorem State.setFlc_rollback (s : State) (x : FlcSt) : (s.setFlc x).rollback = s.rollback := rfl
@[simp] theorem State.setFlc_pending (s : State) (x : FlcSt) : (s.setFlc x).pending = s.pending := rfl
@[simp] theorem State.setFlc_reg (s : State) (x : FlcSt) (b0 : Nat) : (s.setFlc x).reg b0 = s.reg b0 := rfl
@[simp] theorem State.setFlc_getF (s : State) (x : FlcSt) (b0 : Nat) (g : Fld) : (s.setFlc x).getF b0 g = s.getF b0 g := rfl
@[simp] theorem State.setFlc_isSet (s : State) (x : FlcSt) (b0 : Nat) (g : Fld) : (s.setFlc x).isSet b0 g = s.isSet b0 g := rfl

@[simp] theorem State.setDbg_part (s : State) (d : DbgSt) : (s.setDbg d).part = s.part := rfl
@[simp] theorem State.setDbg_mtime (s : State) (d : DbgSt) : (s.setDbg d).mtime = s.mtime := rfl
@[simp] theorem State.setDbg_clock (s : State) (d : DbgSt) : (s.setDbg d).clock = s.clock := rfl
@[simp] theorem State.setDbg_free (s : State) (d : DbgSt) : (s.setDbg d).free = s.free := rfl
@[simp] theorem State.setDbg_regs (s : State) (d : DbgSt) : (s.setDbg d).regs = s.regs := rfl
@[simp] theorem State.setDbg_cells (s : State) (d : DbgSt) : (s.setDbg d).cells = s.cells := rfl
@[simp] theorem State.setDbg_busOut (s : State) (d : DbgSt) : (s.setDbg d).busOut = s.busOut := rfl
@[simp] theorem State.setDbg_outs (s : State) (d : DbgSt) : (s.setDbg d).outs = s.outs := rfl
@[simp] theorem State.setDbg_evr (s : State) (d : DbgSt) : (s.setDbg d).evr = s.evr := rfl
@[simp] theorem State.setDbg_grg (s : State) (d : DbgSt) : (s.setDbg d).grg = s.grg := rfl
@[simp] theorem State.setDbg_sar (s : State) (d : DbgSt) : (s.setDbg d).sar = s.sar := rfl
@[simp] theorem State.setDbg_hil (s : State) (d : DbgSt) : (s.setDbg d).hil = s.hil := rfl
@[simp] theorem State.setDbg_cle (s : State) (d : DbgSt) : (s.setDbg d).cle = s.cle := rfl
@[simp] theorem State.setDbg_pwm (s : State) (d : DbgSt) : (s.setDbg d).pwm = s.pwm := rfl
@[simp] theorem State.setDbg_cap (s : State) (d : DbgSt) : (s.setDbg d).cap = s.cap := rfl
@[simp] theorem State.setDbg_inj (s : State) (d : DbgSt) : (s.setDbg d).inj = s.inj := rfl
@[simp] theorem State.setDbg_ctl (s : State) (d : DbgSt) : (s.setDbg d).ctl = s.ctl := rfl
@[simp] theorem State.setDbg_edgeSeq (s : State) (d : DbgSt) : (s.setDbg d).edgeSeq = s.edgeSeq := rfl
@[simp] theorem State.setDbg_edgeRidx (s : State) (d : DbgSt) : (s.setDbg d).edgeRidx = s.edgeRidx := rfl
@[simp] theorem State.setDbg_pwy (s : State) (d : DbgSt) : (s.setDbg d).pwy = s.pwy := rfl
@[simp] theorem State.setDbg_core (s : State) (d : DbgSt) : (s.setDbg d).core = s.core := rfl
@[simp] theorem State.setDbg_prog (s : State) (d : DbgSt) : (s.setDbg d).prog = s.prog := rfl
@[simp] theorem State.setDbg_mstore (s : State) (d : DbgSt) : (s.setDbg d).mstore = s.mstore := rfl
@[simp] theorem State.setDbg_mcopy (s : State) (d : DbgSt) : (s.setDbg d).mcopy = s.mcopy := rfl
@[simp] theorem State.setDbg_copyBad (s : State) (d : DbgSt) : (s.setDbg d).copyBad = s.copyBad := rfl
@[simp] theorem State.setDbg_copyLost (s : State) (d : DbgSt) : (s.setDbg d).copyLost = s.copyLost := rfl
@[simp] theorem State.setDbg_copySet (s : State) (d : DbgSt) : (s.setDbg d).copySet = s.copySet := rfl
@[simp] theorem State.setDbg_mver (s : State) (d : DbgSt) : (s.setDbg d).mver = s.mver := rfl
@[simp] theorem State.setDbg_mem (s : State) (d : DbgSt) : (s.setDbg d).mem = s.mem := rfl
@[simp] theorem State.setDbg_dma (s : State) (d : DbgSt) : (s.setDbg d).dma = s.dma := rfl
@[simp] theorem State.setDbg_twn (s : State) (d : DbgSt) : (s.setDbg d).twn = s.twn := rfl
@[simp] theorem State.setDbg_mad (s : State) (d : DbgSt) : (s.setDbg d).mad = s.mad := rfl
@[simp] theorem State.setDbg_fns (s : State) (d : DbgSt) : (s.setDbg d).fns = s.fns := rfl
@[simp] theorem State.setDbg_fetchNext (s : State) (d : DbgSt) : (s.setDbg d).fetchNext = s.fetchNext := rfl
@[simp] theorem State.setDbg_vfEnable (s : State) (d : DbgSt) : (s.setDbg d).vfEnable = s.vfEnable := rfl
@[simp] theorem State.setDbg_numVfs (s : State) (d : DbgSt) : (s.setDbg d).numVfs = s.numVfs := rfl
@[simp] theorem State.setDbg_img (s : State) (d : DbgSt) : (s.setDbg d).img = s.img := rfl
@[simp] theorem State.setDbg_trc (s : State) (d : DbgSt) : (s.setDbg d).trc = s.trc := rfl
@[simp] theorem State.setDbg_mergeNext (s : State) (d : DbgSt) : (s.setDbg d).mergeNext = s.mergeNext := rfl
@[simp] theorem State.setDbg_mergeFrom (s : State) (d : DbgSt) : (s.setDbg d).mergeFrom = s.mergeFrom := rfl
@[simp] theorem State.setDbg_wdgFirst (s : State) (d : DbgSt) : (s.setDbg d).wdgFirst = s.wdgFirst := rfl
@[simp] theorem State.setDbg_ptbBy (s : State) (d : DbgSt) : (s.setDbg d).ptbBy = s.ptbBy := rfl
@[simp] theorem State.setDbg_ptbAt (s : State) (d : DbgSt) : (s.setDbg d).ptbAt = s.ptbAt := rfl
@[simp] theorem State.setDbg_ptbCause (s : State) (d : DbgSt) : (s.setDbg d).ptbCause = s.ptbCause := rfl
@[simp] theorem State.setDbg_dbLate (s : State) (d : DbgSt) : (s.setDbg d).dbLate = s.dbLate := rfl
@[simp] theorem State.setDbg_flc (s : State) (d : DbgSt) : (s.setDbg d).flc = s.flc := rfl
@[simp] theorem State.setDbg_sec (s : State) (d : DbgSt) : (s.setDbg d).sec = s.sec := rfl
@[simp] theorem State.setDbg_pwr (s : State) (d : DbgSt) : (s.setDbg d).pwr = s.pwr := rfl
@[simp] theorem State.setDbg_modeReq (s : State) (d : DbgSt) : (s.setDbg d).modeReq = s.modeReq := rfl
@[simp] theorem State.setDbg_sysDown (s : State) (d : DbgSt) : (s.setDbg d).sysDown = s.sysDown := rfl
@[simp] theorem State.setDbg_rollback (s : State) (d : DbgSt) : (s.setDbg d).rollback = s.rollback := rfl
@[simp] theorem State.setDbg_pending (s : State) (d : DbgSt) : (s.setDbg d).pending = s.pending := rfl
@[simp] theorem State.setDbg_reg (s : State) (d : DbgSt) (b0 : Nat) : (s.setDbg d).reg b0 = s.reg b0 := rfl
@[simp] theorem State.setDbg_getF (s : State) (d : DbgSt) (b0 : Nat) (g : Fld) : (s.setDbg d).getF b0 g = s.getF b0 g := rfl
@[simp] theorem State.setDbg_isSet (s : State) (d : DbgSt) (b0 : Nat) (g : Fld) : (s.setDbg d).isSet b0 g = s.isSet b0 g := rfl

@[simp] theorem State.setUword_part (s : State) (n w : Nat) (v : MWord) : (s.setUword n w v).part = s.part := rfl
@[simp] theorem State.setUword_mtime (s : State) (n w : Nat) (v : MWord) : (s.setUword n w v).mtime = s.mtime := rfl
@[simp] theorem State.setUword_clock (s : State) (n w : Nat) (v : MWord) : (s.setUword n w v).clock = s.clock := rfl
@[simp] theorem State.setUword_free (s : State) (n w : Nat) (v : MWord) : (s.setUword n w v).free = s.free := rfl
@[simp] theorem State.setUword_regs (s : State) (n w : Nat) (v : MWord) : (s.setUword n w v).regs = s.regs := rfl
@[simp] theorem State.setUword_cells (s : State) (n w : Nat) (v : MWord) : (s.setUword n w v).cells = s.cells := rfl
@[simp] theorem State.setUword_busOut (s : State) (n w : Nat) (v : MWord) : (s.setUword n w v).busOut = s.busOut := rfl
@[simp] theorem State.setUword_outs (s : State) (n w : Nat) (v : MWord) : (s.setUword n w v).outs = s.outs := rfl
@[simp] theorem State.setUword_evr (s : State) (n w : Nat) (v : MWord) : (s.setUword n w v).evr = s.evr := rfl
@[simp] theorem State.setUword_grg (s : State) (n w : Nat) (v : MWord) : (s.setUword n w v).grg = s.grg := rfl
@[simp] theorem State.setUword_sar (s : State) (n w : Nat) (v : MWord) : (s.setUword n w v).sar = s.sar := rfl
@[simp] theorem State.setUword_hil (s : State) (n w : Nat) (v : MWord) : (s.setUword n w v).hil = s.hil := rfl
@[simp] theorem State.setUword_cle (s : State) (n w : Nat) (v : MWord) : (s.setUword n w v).cle = s.cle := rfl
@[simp] theorem State.setUword_pwm (s : State) (n w : Nat) (v : MWord) : (s.setUword n w v).pwm = s.pwm := rfl
@[simp] theorem State.setUword_cap (s : State) (n w : Nat) (v : MWord) : (s.setUword n w v).cap = s.cap := rfl
@[simp] theorem State.setUword_inj (s : State) (n w : Nat) (v : MWord) : (s.setUword n w v).inj = s.inj := rfl
@[simp] theorem State.setUword_ctl (s : State) (n w : Nat) (v : MWord) : (s.setUword n w v).ctl = s.ctl := rfl
@[simp] theorem State.setUword_edgeSeq (s : State) (n w : Nat) (v : MWord) : (s.setUword n w v).edgeSeq = s.edgeSeq := rfl
@[simp] theorem State.setUword_edgeRidx (s : State) (n w : Nat) (v : MWord) : (s.setUword n w v).edgeRidx = s.edgeRidx := rfl
@[simp] theorem State.setUword_pwy (s : State) (n w : Nat) (v : MWord) : (s.setUword n w v).pwy = s.pwy := rfl
@[simp] theorem State.setUword_core (s : State) (n w : Nat) (v : MWord) : (s.setUword n w v).core = s.core := rfl
@[simp] theorem State.setUword_prog (s : State) (n w : Nat) (v : MWord) : (s.setUword n w v).prog = s.prog := rfl
@[simp] theorem State.setUword_mcopy (s : State) (n w : Nat) (v : MWord) : (s.setUword n w v).mcopy = s.mcopy := rfl
@[simp] theorem State.setUword_copyBad (s : State) (n w : Nat) (v : MWord) : (s.setUword n w v).copyBad = s.copyBad := rfl
@[simp] theorem State.setUword_copyLost (s : State) (n w : Nat) (v : MWord) : (s.setUword n w v).copyLost = s.copyLost := rfl
@[simp] theorem State.setUword_copySet (s : State) (n w : Nat) (v : MWord) : (s.setUword n w v).copySet = s.copySet := rfl
@[simp] theorem State.setUword_mver (s : State) (n w : Nat) (v : MWord) : (s.setUword n w v).mver = s.mver := rfl
@[simp] theorem State.setUword_mem (s : State) (n w : Nat) (v : MWord) : (s.setUword n w v).mem = s.mem := rfl
@[simp] theorem State.setUword_dma (s : State) (n w : Nat) (v : MWord) : (s.setUword n w v).dma = s.dma := rfl
@[simp] theorem State.setUword_twn (s : State) (n w : Nat) (v : MWord) : (s.setUword n w v).twn = s.twn := rfl
@[simp] theorem State.setUword_mad (s : State) (n w : Nat) (v : MWord) : (s.setUword n w v).mad = s.mad := rfl
@[simp] theorem State.setUword_fns (s : State) (n w : Nat) (v : MWord) : (s.setUword n w v).fns = s.fns := rfl
@[simp] theorem State.setUword_fetchNext (s : State) (n w : Nat) (v : MWord) : (s.setUword n w v).fetchNext = s.fetchNext := rfl
@[simp] theorem State.setUword_vfEnable (s : State) (n w : Nat) (v : MWord) : (s.setUword n w v).vfEnable = s.vfEnable := rfl
@[simp] theorem State.setUword_numVfs (s : State) (n w : Nat) (v : MWord) : (s.setUword n w v).numVfs = s.numVfs := rfl
@[simp] theorem State.setUword_img (s : State) (n w : Nat) (v : MWord) : (s.setUword n w v).img = s.img := rfl
@[simp] theorem State.setUword_trc (s : State) (n w : Nat) (v : MWord) : (s.setUword n w v).trc = s.trc := rfl
@[simp] theorem State.setUword_mergeNext (s : State) (n w : Nat) (v : MWord) : (s.setUword n w v).mergeNext = s.mergeNext := rfl
@[simp] theorem State.setUword_mergeFrom (s : State) (n w : Nat) (v : MWord) : (s.setUword n w v).mergeFrom = s.mergeFrom := rfl
@[simp] theorem State.setUword_wdgFirst (s : State) (n w : Nat) (v : MWord) : (s.setUword n w v).wdgFirst = s.wdgFirst := rfl
@[simp] theorem State.setUword_ptbBy (s : State) (n w : Nat) (v : MWord) : (s.setUword n w v).ptbBy = s.ptbBy := rfl
@[simp] theorem State.setUword_ptbAt (s : State) (n w : Nat) (v : MWord) : (s.setUword n w v).ptbAt = s.ptbAt := rfl
@[simp] theorem State.setUword_ptbCause (s : State) (n w : Nat) (v : MWord) : (s.setUword n w v).ptbCause = s.ptbCause := rfl
@[simp] theorem State.setUword_dbLate (s : State) (n w : Nat) (v : MWord) : (s.setUword n w v).dbLate = s.dbLate := rfl
@[simp] theorem State.setUword_flc (s : State) (n w : Nat) (v : MWord) : (s.setUword n w v).flc = s.flc := rfl
@[simp] theorem State.setUword_sec (s : State) (n w : Nat) (v : MWord) : (s.setUword n w v).sec = s.sec := rfl
@[simp] theorem State.setUword_pwr (s : State) (n w : Nat) (v : MWord) : (s.setUword n w v).pwr = s.pwr := rfl
@[simp] theorem State.setUword_dbg (s : State) (n w : Nat) (v : MWord) : (s.setUword n w v).dbg = s.dbg := rfl
@[simp] theorem State.setUword_modeReq (s : State) (n w : Nat) (v : MWord) : (s.setUword n w v).modeReq = s.modeReq := rfl
@[simp] theorem State.setUword_sysDown (s : State) (n w : Nat) (v : MWord) : (s.setUword n w v).sysDown = s.sysDown := rfl
@[simp] theorem State.setUword_rollback (s : State) (n w : Nat) (v : MWord) : (s.setUword n w v).rollback = s.rollback := rfl
@[simp] theorem State.setUword_pending (s : State) (n w : Nat) (v : MWord) : (s.setUword n w v).pending = s.pending := rfl
@[simp] theorem State.setUword_reg (s : State) (n w : Nat) (v : MWord) (b0 : Nat) : (s.setUword n w v).reg b0 = s.reg b0 := rfl
@[simp] theorem State.setUword_getF (s : State) (n w : Nat) (v : MWord) (b0 : Nat) (g : Fld) : (s.setUword n w v).getF b0 g = s.getF b0 g := rfl
@[simp] theorem State.setUword_isSet (s : State) (n w : Nat) (v : MWord) (b0 : Nat) (g : Fld) : (s.setUword n w v).isSet b0 g = s.isSet b0 g := rfl

/-! What an update sets. -/

theorem vget_set {α : Type} {m : Nat} (v : Vector α m) (i j : Fin m) (x : α) :
    (v.set i.val x i.isLt).get j = if j = i then x else v.get j := by
  have h : (v.set i.val x i.isLt)[j.val]'j.isLt = if i.val = j.val then x else v[j.val]'j.isLt := Vector.getElem_set ..
  have h2 : (v.set i.val x i.isLt).get j = (v.set i.val x i.isLt)[j.val]'j.isLt := rfl
  have h3 : v.get j = v[j.val]'j.isLt := rfl
  rw [h2, h3, h]
  by_cases hj : j = i
  · subst hj; simp
  · have : ¬ i.val = j.val := fun e => hj (Fin.ext e.symm)
    simp [hj, this]

@[simp] theorem vget_set_self {α : Type} {m : Nat} (v : Vector α m) (i : Fin m) (x : α) :
    (v.set i.val x i.isLt).get i = x := by rw [vget_set]; simp

theorem vget_set_ne {α : Type} {m : Nat} (v : Vector α m) (i j : Fin m) (x : α) (h : j ≠ i) :
    (v.set i.val x i.isLt).get j = v.get j := by rw [vget_set]; simp [h]

@[simp] theorem vget_replicate {α : Type} {m : Nat} (x : α) (i : Fin m) : (Vector.replicate m x).get i = x :=
  Vector.getElem_replicate ..

theorem State.pw_setPw (s : State) (n m : Fin 12) (k j : Fin 8) (p : PwmSt) :
    (s.setPw n k p).pw m j = if m = n ∧ j = k then p else s.pw m j := by
  unfold State.pw State.setPw
  simp only [vget_set]
  by_cases h : m = n
  · subst h
    by_cases h2 : j = k
    · subst h2; simp
    · simp [vget_set, h2]
  · simp [h]
@[simp] theorem State.pw_setPw_self (s : State) (n : Fin 12) (k : Fin 8) (p : PwmSt) : (s.setPw n k p).pw n k = p := by
  simp [State.pw_setPw]
theorem State.ctlOf_setCtl (s : State) (n m : Fin 12) (c : CtlSt) :
    (s.setCtl n c).ctlOf m = if m = n then c else s.ctlOf m := vget_set s.ctl n m c
@[simp] theorem State.ctlOf_setCtl_self (s : State) (n : Fin 12) (c : CtlSt) : (s.setCtl n c).ctlOf n = c :=
  vget_set_self s.ctl n c
theorem State.coreOf_setCore (s : State) (p q : Fin 13) (c : CoreSt) :
    (s.setCore p c).coreOf q = if q = p then c else s.coreOf q := vget_set s.core p q c
@[simp] theorem State.coreOf_setCore_self (s : State) (p : Fin 13) (c : CoreSt) : (s.setCore p c).coreOf p = c :=
  vget_set_self s.core p c
theorem State.cleOf_setCle (s : State) (n m : Fin 12) (c : CleSt) :
    (s.setCle n c).cleOf m = if m = n then c else s.cleOf m := vget_set s.cle n m c
@[simp] theorem State.cleOf_setCle_self (s : State) (n : Fin 12) (c : CleSt) : (s.setCle n c).cleOf n = c :=
  vget_set_self s.cle n c


end Machine
end Sys2Proof
end

