-- ==== Sys2Proof/Laws/Router.lean ====
section
/-! SUPPORT. What a firing of an event source can change: the event router, its registers, and the DMA channels that wait for
the source. -/

namespace Sys2Proof
namespace Machine

/-- A property that every step of a fold keeps, the fold keeps. -/
theorem foldl_keeps {α β : Type} (P : β → Prop) (f : β → α → β) (l : List α) (b : β) (h0 : P b)
    (hs : ∀ b a, P b → P (f b a)) : P (l.foldl f b) := by
  induction l generalizing b with
  | nil => exact h0
  | cons a t ih => exact ih (f b a) (hs b a h0)

/-- A register of the event router or of a DMA engine: the device-wide blocks EVR and DMA, and those of the slices. -/
def routerReg (a : Nat) : Bool :=
  (decide (0x01070000 ≤ a) && decide (a < 0x01090000)) ||
    (decide (0x02000000 ≤ a) && decide (0x8000 ≤ (a - 0x02000000) % 0x100000) &&
      decide ((a - 0x02000000) % 0x100000 < 0xA000))

/-- `t` differs from `s` in the event router and the DMA engines alone. -/
structure RouterOnly (s t : State) : Prop where
  rest : t = { s with regs := t.regs, evr := t.evr, dma := t.dma }
  regs : ∀ a, routerReg a = false → t.reg a = s.reg a

theorem RouterOnly.refl (s : State) : RouterOnly s s := ⟨rfl, fun _ _ => rfl⟩

theorem RouterOnly.trans {s t u : State} (h : RouterOnly s t) (k : RouterOnly t u) : RouterOnly s u := by
  refine ⟨?_, fun a ha => (k.regs a ha).trans (h.regs a ha)⟩
  have h1 := k.rest
  rw [h.rest] at h1
  exact h1

theorem RouterOnly.setReg {s t : State} (h : RouterOnly s t) (a : Nat) (v : Word) (ha : routerReg a = true) :
    RouterOnly s (t.setReg a v) := by
  refine h.trans ⟨rfl, fun b hb => State.reg_setReg_ne t a v b ?_⟩
  intro e; subst e; rw [ha] at hb; cases hb

theorem RouterOnly.setF {s t : State} (h : RouterOnly s t) (a : Nat) (f : Fld) (v : Nat) (ha : routerReg a = true) :
    RouterOnly s (t.setF a f v) := h.setReg a _ ha

theorem RouterOnly.count {s t : State} (h : RouterOnly s t) (a : Nat) (f : Fld) (ha : routerReg a = true) :
    RouterOnly s (t.count a f) := h.setF a f _ ha

theorem RouterOnly.evr {s t : State} (h : RouterOnly s t) (e : EvrSt) : RouterOnly s { t with evr := e } :=
  h.trans ⟨rfl, fun _ _ => rfl⟩

theorem RouterOnly.dma {s t : State} (h : RouterOnly s t) (d : Vector (Vector DmaCh 16) 13) :
    RouterOnly s { t with dma := d } := h.trans ⟨rfl, fun _ _ => rfl⟩

theorem RouterOnly.ite {s a b : State} {c : Prop} [Decidable c] (h : RouterOnly s a) (k : RouterOnly s b) :
    RouterOnly s (if c then a else b) := by split <;> assumption

theorem routerReg_dev (a : Nat) (h : 0x01070000 ≤ a) (h' : a < 0x01090000) : routerReg a = true := by
  simp [routerReg, h, h']

theorem routerReg_slice (n o : Nat) (h : 0x8000 ≤ o) (h' : o < 0xA000) : routerReg (sliceBase n + o) = true := by
  have e : (sliceBase n + o - 0x02000000) % 0x100000 = o := by unfold sliceBase; omega
  have g : 0x02000000 ≤ sliceBase n + o := by unfold sliceBase; omega
  simp [routerReg, e, h, h', g]

theorem State.setRoute_only (s : State) (r : Nat) (rt : Route) : RouterOnly s (s.setRoute r rt) := by
  unfold State.setRoute
  dsimp only
  split
  · rename_i h
    refine RouterOnly.setReg (RouterOnly.setReg (RouterOnly.evr (RouterOnly.refl s) _) _ _ ?_) _ _ ?_
    · exact routerReg_dev _ (by unfold R.EVR_PEND; omega) (by unfold R.EVR_PEND; omega)
    · exact routerReg_dev _ (by unfold R.EVR_ACT; omega) (by unfold R.EVR_ACT; omega)
  · exact RouterOnly.evr (RouterOnly.refl s) _

theorem State.fireRoute_only (s : State) (r c k : Nat) (w : Word) : RouterOnly s (s.fireRoute r c k w) := by
  unfold State.fireRoute
  dsimp only
  split
  · exact RouterOnly.refl s
  · split
    · exact State.setRoute_only ..
    · exact State.setRoute_only ..
    · exact RouterOnly.trans (RouterOnly.count (RouterOnly.refl s) _ _ (by decide)) (State.setRoute_only ..)

theorem State.gstat_router (g : Nat) (h : g < 1024) : routerReg (R.EVR_GSTAT g) = true :=
  routerReg_dev _ (by unfold R.EVR_GSTAT; omega) (by unfold R.EVR_GSTAT; omega)

theorem State.closeBatch_only (s : State) (g : Nat) (h : g < 1024) : RouterOnly s (s.closeBatch g) := by
  unfold State.closeBatch
  dsimp only
  split
  · exact RouterOnly.refl s
  · exact RouterOnly.trans (RouterOnly.setF (RouterOnly.evr (RouterOnly.refl s) _) _ _ _ (State.gstat_router g h))
      (State.fireRoute_only ..)

theorem State.joinBatch_only (s : State) (g src : Nat) (h : g < 1024) : RouterOnly s (s.joinBatch g src) := by
  unfold State.joinBatch
  refine RouterOnly.ite ?_ ?_
  · exact RouterOnly.trans (RouterOnly.setF (RouterOnly.evr (RouterOnly.refl s) _) _ _ _ (State.gstat_router g h))
      (State.closeBatch_only _ g h)
  · exact RouterOnly.setF (RouterOnly.evr (RouterOnly.refl s) _) _ _ _ (State.gstat_router g h)

theorem State.waitsEnd_only (s : State) (src at_ : Nat) (on : Nat → Bool) : RouterOnly s (s.waitsEnd src at_ on) := by
  unfold State.waitsEnd
  refine foldl_keeps (RouterOnly s) _ _ s (RouterOnly.refl s) (fun t e ht => ?_)
  dsimp only
  split
  · exact ht
  · refine foldl_keeps (RouterOnly s) _ _ t ht (fun u c hu => ?_)
    have hb : ∀ o, o < 0x1000 → routerReg (dmaBase e + o) = true := by
      intro o ho
      unfold dmaBase
      split
      · have := routerReg_slice e.val (0x8000 + o) (by omega) (by omega)
        simpa [sliceBase, Nat.add_assoc] using this
      · exact routerReg_dev _ (by omega) (by omega)
    have hst : routerReg (R.DMA_STAT e c) = true := by
      have := hb (R.DMA_STAT e c - dmaBase e) (by unfold R.DMA_STAT; omega)
      have e2 : dmaBase e + (R.DMA_STAT e c - dmaBase e) = R.DMA_STAT e c := by unfold R.DMA_STAT; omega
      rwa [e2] at this
    have hpc : routerReg (R.DMA_PC e c) = true := by
      have := hb (R.DMA_PC e c - dmaBase e) (by unfold R.DMA_PC; omega)
      have e2 : dmaBase e + (R.DMA_PC e c - dmaBase e) = R.DMA_PC e c := by unfold R.DMA_PC; omega
      rwa [e2] at this
    split
    · split
      · split
        · exact RouterOnly.setReg (RouterOnly.dma (RouterOnly.setF hu _ _ _ hst) _) _ _ hpc
        · exact RouterOnly.setReg (RouterOnly.dma hu _) _ _ hpc
      · exact hu
    · exact hu

theorem State.grp_lt (s : State) (a : Nat) : s.getF a F.EVR_SRC_GRP < 1024 :=
  Nat.lt_of_lt_of_le (State.getF_lt s a F.EVR_SRC_GRP) (by decide)

theorem State.fireReach_only (s : State) (src at_ : Nat) (mt : BitVec 64) : RouterOnly s (s.fireReach src at_ mt) := by
  unfold State.fireReach
  refine RouterOnly.ite ?_ ?_
  · exact RouterOnly.trans (RouterOnly.evr (RouterOnly.refl s) _) (State.joinBatch_only _ _ _ (State.grp_lt _ _))
  · exact RouterOnly.trans (RouterOnly.evr (RouterOnly.refl s) _) (RouterOnly.ite (RouterOnly.refl _) (State.fireRoute_only ..))

/-- A firing changes the event router and the DMA channels alone (R308, R311, R322, R476). -/
theorem State.fire_only (s : State) (src : Nat) : RouterOnly s (s.fire src) := by
  unfold State.fire
  refine RouterOnly.ite ?_ (RouterOnly.refl s)
  have h0 : RouterOnly s (match pwmSource src with
      | some n => s.waitsEnd src s.clock (fun e => e == n)
      | none => s) := by
    cases pwmSource src
    · exact RouterOnly.refl s
    · exact State.waitsEnd_only ..
  dsimp only
  split
  · exact RouterOnly.trans h0 (State.fireReach_only ..)
  · exact RouterOnly.evr h0 _

theorem State.fire_reg (s : State) (src a : Nat) (h : routerReg a = false) : (s.fire src).reg a = s.reg a :=
  (State.fire_only s src).regs a h

theorem State.fireLocal_reg (s : State) (n x a : Nat) (h : routerReg a = false) : (s.fireLocal n x).reg a = s.reg a :=
  State.fire_reg s _ a h

end Machine
end Sys2Proof
end

