-- ==== Sys2Proof/Laws/Memory.lean ====
section
/-! SUPPORT. What the operations over memory do: a read after a write, and that each keeps the canonical form. -/

namespace Sys2Proof
namespace Machine

/-! A read after a write. -/

/-- The cell of a byte address is outside the copies with it, and so for main memory. -/
theorem inCopy_cell (a : Nat) : inCopy (a / 4 * 4) = inCopy a := by
  unfold inCopy
  rw [Bool.eq_iff_iff]
  simp only [Bool.and_eq_true, decide_eq_true_eq]
  omega

theorem inMain_cell (a : Nat) : inMain (a / 4 * 4) = inMain a := by
  unfold inMain
  rw [Bool.eq_iff_iff]
  simp only [Bool.and_eq_true, decide_eq_true_eq]
  omega

theorem inCopy_same (a b : Nat) (h : a / 4 = b / 4) : inCopy a = inCopy b := by
  rw [← inCopy_cell a, ← inCopy_cell b, h]

theorem inMain_same (a b : Nat) (h : a / 4 = b / 4) : inMain a = inMain b := by
  rw [← inMain_cell a, ← inMain_cell b, h]

/-- A copy is no main memory. -/
theorem inCopy_not_inMain (a : Nat) (h : inMain a = true) : inCopy a = false := by
  unfold inMain at h
  simp only [Bool.and_eq_true, decide_eq_true_eq] at h
  unfold inCopy
  rw [Bool.and_eq_false_iff]
  right
  simp only [decide_eq_false_iff_not]
  omega

/-- What a write of a cell outside the copies does: the cell's address reads what it keeps, every other reads as before. -/
theorem State.cell_setCell (s : State) (a b : Nat) (c : Cell) (ha : inCopy a = false) (hb : inCopy b = false) :
    (s.setCell a c).cell b = if b / 4 = a / 4 then stored a c else s.cell b := by
  have e : (b / 4 * 4 = a / 4 * 4) = (b / 4 = a / 4) := by apply propext; omega
  simp only [State.cell, State.setCell, ha, hb, Bool.false_eq_true, if_false, stored]
  rw [SMap.get_put]
  simp only [e]

theorem State.cell_setCell_self (s : State) (a : Nat) (c : Cell) (ha : inCopy a = false) :
    (s.setCell a c).cell a = stored a c := by
  rw [State.cell_setCell s a a c ha ha, if_pos rfl]

theorem State.cell_setCell_ne (s : State) (a b : Nat) (c : Cell) (ha : inCopy a = false) (hb : inCopy b = false)
    (h : b / 4 ≠ a / 4) : (s.setCell a c).cell b = s.cell b := by
  rw [State.cell_setCell s a b c ha hb, if_neg h]

/-- A write of a cell outside the copies changes the list of cells alone. -/
theorem State.setCell_only (s : State) (a : Nat) (c : Cell) (ha : inCopy a = false) :
    s.setCell a c = { s with cells := (s.setCell a c).cells } := by
  simp [State.setCell, ha]

/-- A register write leaves every cell. -/
@[simp] theorem State.cell_setReg (s : State) (a : Nat) (v : Word) (b : Nat) : (s.setReg a v).cell b = s.cell b := rfl
@[simp] theorem State.cell_setF (s : State) (a : Nat) (f : Fld) (v b : Nat) : (s.setF a f v).cell b = s.cell b := rfl
@[simp] theorem State.cell_count (s : State) (a : Nat) (f : Fld) (b : Nat) : (s.count a f).cell b = s.cell b := rfl
@[simp] theorem State.cell_clearMark (s : State) (a b : Nat) : (s.clearMark a).cell b = s.cell b := rfl

/-- A read of a cell without an error mark answers what the cell holds, and changes nothing. -/
theorem State.rd_clean (s : State) (a : Nat) (h : s.mark a = none) (hm : s.absentMain a = false)
    (hp : (inMain a && !s.pageSet a) = false) : s.rd a = ⟨s, s.cell a, false⟩ := by
  simp [State.rd, h, hm, hp]

/-- A read of a main-memory page whose bit is 0 answers 0 and changes nothing (R300). -/
theorem State.rd_unset (s : State) (a : Nat) (hp : (inMain a && !s.pageSet a) = true) : s.rd a = ⟨s, ⟨0, tagUint⟩, false⟩ := by
  simp [State.rd, hp]

/-! The canonical form: each memory operation keeps it. -/

/-- The parts of the state that the canonical form is about. -/
structure SameMaps (s t : State) : Prop where
  regs : t.regs = s.regs
  cells : t.cells = s.cells
  prog : t.prog = s.prog
  mstore : t.mstore = s.mstore
  mcopy : t.mcopy = s.mcopy
  flc : t.flc = s.flc
  routes : t.evr.routes = s.evr.routes
  batches : t.evr.batches = s.evr.batches

/-- The canonical form depends on those parts alone. -/
theorem SameMaps.keeps {s t : State} (e : SameMaps s t) (h : s.Canonical) : t.Canonical where
  regs := e.regs ▸ h.regs
  cells := e.cells ▸ h.cells
  prog := e.prog ▸ h.prog
  mstore := e.mstore ▸ h.mstore
  mcopy := e.mcopy ▸ h.mcopy
  words := e.flc ▸ h.words
  info := e.flc ▸ h.info
  routes := e.routes ▸ h.routes
  batches := e.batches ▸ h.batches

theorem State.Canonical.setReg {s : State} (h : s.Canonical) (a : Nat) (v : Word) : (s.setReg a v).Canonical :=
  { h with regs := SMap.wf_put resetOf s.regs a v h.regs }

theorem State.Canonical.setF {s : State} (h : s.Canonical) (a : Nat) (f : Fld) (v : Nat) : (s.setF a f v).Canonical :=
  h.setReg a _

theorem State.Canonical.setB {s : State} (h : s.Canonical) (a : Nat) (f : Fld) (b : Bool) : (s.setB a f b).Canonical :=
  h.setF a f _

theorem State.Canonical.count {s : State} (h : s.Canonical) (a : Nat) (f : Fld) : (s.count a f).Canonical := h.setF a f _

theorem State.Canonical.resetRegs {s : State} (h : s.Canonical) (lo hi : Nat) : (s.resetRegs lo hi).Canonical :=
  { h with regs := SMap.wf_clear resetOf (fun a => decide (lo ≤ a) && decide (a < hi)) s.regs h.regs }

theorem State.Canonical.setCopyByte {s : State} (h : s.Canonical) (b v : Nat) : (s.setCopyByte b v).Canonical :=
  { h with mcopy := SMap.wf_put _ s.mcopy _ _ h.mcopy }

theorem State.Canonical.setCopyCell {s : State} (h : s.Canonical) (a : Nat) (c : Cell) : (s.setCopyCell a c).Canonical := by
  unfold State.setCopyCell
  dsimp only
  split
  · exact SameMaps.keeps (s := s) ⟨rfl, rfl, rfl, rfl, rfl, rfl, rfl, rfl⟩ h
  · refine foldl_keeps State.Canonical _ _ _ (SameMaps.keeps (s := s) ⟨rfl, rfl, rfl, rfl, rfl, rfl, rfl, rfl⟩ h) ?_
    intro t i ht
    exact State.Canonical.setCopyByte ht _ _

theorem State.Canonical.setCell {s : State} (h : s.Canonical) (a : Nat) (c : Cell) : (s.setCell a c).Canonical := by
  unfold State.setCell
  split
  · exact h.setCopyCell a c
  · exact { h with cells := SMap.wf_put cellDefault s.cells _ _ h.cells }

theorem State.Canonical.clearMark {s : State} (h : s.Canonical) (a : Nat) : (s.clearMark a).Canonical :=
  SameMaps.keeps (s := s) ⟨rfl, rfl, rfl, rfl, rfl, rfl, rfl, rfl⟩ h

theorem State.Canonical.clearCells {s : State} (h : s.Canonical) (lo hi : Nat) : (s.clearCells lo hi).Canonical :=
  { h with cells := SMap.wf_clear cellDefault (fun a => decide (lo ≤ a) && decide (a < hi)) s.cells h.cells }

theorem State.Canonical.clearProg {s : State} (h : s.Canonical) (p : Nat) : (s.clearProg p).Canonical :=
  { h with prog := SMap.wf_clear _ (fun k => k / 2 ^ 17 == p) s.prog h.prog }

theorem State.Canonical.setProgWord {s : State} (h : s.Canonical) (p a : Nat) (w : PWord) :
    (s.setProgWord p a w).Canonical :=
  { h with prog := SMap.wf_put _ s.prog _ _ h.prog }

theorem State.Canonical.setRoute {s : State} (h : s.Canonical) (r : Nat) (rt : Route) : (s.setRoute r rt).Canonical := by
  have h1 : State.Canonical { s with evr := { s.evr with routes := SMap.put (fun _ => idleRoute) s.evr.routes r rt } } :=
    { h with routes := SMap.wf_put _ s.evr.routes r rt h.routes }
  unfold State.setRoute
  dsimp only
  split
  · exact (h1.setReg _ _).setReg _ _
  · exact h1

theorem State.Canonical.breakResv {s : State} (h : s.Canonical) (w : Option (Fin 13)) (a : Nat) :
    (s.breakResv w a).Canonical := by
  unfold State.breakResv
  refine foldl_keeps State.Canonical _ _ _ h ?_
  intro t p ht
  split
  · exact ht
  · exact SameMaps.keeps (s := t) ⟨rfl, rfl, rfl, rfl, rfl, rfl, rfl, rfl⟩ ht

theorem State.Canonical.touchPage {s : State} (h : s.Canonical) (a : Nat) : (s.touchPage a).Canonical := by
  unfold State.touchPage
  dsimp only
  split
  · exact SameMaps.keeps (s := s) ⟨rfl, rfl, rfl, rfl, rfl, rfl, rfl, rfl⟩ h
  · exact h

theorem State.Canonical.setBlk {s : State} (h : s.Canonical) (arr blk : Nat) (b : BlkInfo) : (s.setBlk arr blk b).Canonical :=
  { h with words := h.words, info := SMap.wf_put _ s.flc.info _ b h.info }

theorem State.Canonical.blank {s : State} (h : s.Canonical) (arr blk : Nat) : (s.blank arr blk).Canonical :=
  have w := SMap.wf_clear (fun _ => 0xFFFFFFFF)
    (fun a => decide (arrBase arr + blk * blkSize arr ≤ a) && decide (a < arrBase arr + blk * blkSize arr + blkSize arr))
    s.flc.words h.words
  { h with words := w, info := h.info }

end Machine
end Sys2Proof
end

