-- ==== Sys2Proof/Laws/Entry.lean ====
section
/-! SUPPORT. How commands of each kind begin: what a served register access, an instruction that issues, a descriptor that begins,
a DMA instruction that is fetched and a sealed request that is served come down to. -/

namespace Sys2Proof
namespace Machine

/-! Register accesses. -/

/-- A served register write is the effect of the register's unit. -/
theorem State.write_of_reaches (s : State) (x : Access) (a : Nat) (v : Word) (h : s.reaches x a = true) :
    s.write x a v = s.regWrite x a v := by
  simp only [State.reaches, State.takesWrite, Bool.and_eq_true, Bool.not_eq_true', beq_iff_eq] at h
  obtain ⟨⟨⟨⟨⟨⟨⟨⟨hb, he⟩, ho⟩, hd⟩, h4⟩, hr⟩, -⟩, -⟩, -⟩ := h
  simp only [State.write, hb, he, hd, Bool.not_true, Bool.false_eq_true, if_false, State.busWrite, h4, hr, beq_self_eq_true,
    Bool.and_self, if_true]
  cases hm : x.m <;> simp_all [hostOutside]

/-- A served register read shows the word and takes what a read takes. -/
theorem State.read_of_answers (s : State) (x : Access) (a : Nat) (h : s.answers x a = true) :
    s.read x a = { (s.regRead x a).1 with busOut := (s.regRead x a).2 } := by
  simp only [State.answers, Bool.and_eq_true, Bool.not_eq_true', beq_iff_eq] at h
  obtain ⟨⟨⟨⟨⟨hb, he⟩, ho⟩, h4⟩, hr⟩, -⟩ := h
  simp only [State.read, hb, he, Bool.not_true, Bool.false_eq_true, if_false, State.busRead, h4, hr, beq_self_eq_true,
    Bool.and_self, if_true, State.readOut]
  cases hm : x.m <;> simp_all [hostOutside]

/-- A write to a register that no other pair reserves breaks no reservation. -/
theorem State.breakResv_unreserved (s : State) (x : Access) (a : Nat) (h : s.unreserved x a = true) :
    s.breakResv (pairBy x.m) a = s := by
  simp only [State.unreserved, List.all_eq_true] at h
  unfold State.breakResv
  generalize List.finRange 13 = l at h
  induction l with
  | nil => rfl
  | cons p t ih =>
    rw [List.foldl_cons, if_pos (h p (by simp))]
    exact ih (fun q hq => h q (by simp [hq]))

/-- A served write of a unit register of slice n reaches the unit. -/
theorem State.regWrite_slice (s : State) (x : Access) (n : Fin 12) (o : Nat) (v : Word) (ho : o < 0x20000)
    (hk : kcBars x (sliceBase n + o) = false) (hf : s.fitted n = true) (hu : s.unreserved x (sliceBase n + o) = true) :
    s.regWrite x (sliceBase n + o) v = s.sliceWrite x n o (sliceBase n + o) v := by
  have hn := n.isLt
  have e1 : (sliceBase n + o - 0x02000000) / 0x100000 = n.val := by unfold sliceBase; omega
  have e2 : (sliceBase n + o - 0x02000000) % 0x100000 = o := by unfold sliceBase; omega
  have r1 : ¬(0x01000000 ≤ sliceBase n + o ∧ sliceBase n + o < 0x01800000) := by unfold sliceBase; omega
  have r2 : 0x02000000 ≤ sliceBase n + o ∧ sliceBase n + o < 0x02C00000 := by unfold sliceBase; omega
  simp only [State.regWrite, s.breakResv_unreserved x _ hu, hk, Bool.false_eq_true, if_false, r1, r2, and_self, dite_true, State.absentSlice, e1, hf, e2, ho, if_true,
    Bool.not_true, Bool.and_false]

/-- A served write of a device-wide register reaches the unit. -/
theorem State.regWrite_device (s : State) (x : Access) (a : Nat) (v : Word) (h : 0x01000000 ≤ a) (h' : a < 0x01800000)
    (hu : s.unreserved x a = true) : s.regWrite x a v = s.deviceWrite x a v := by
  have r1 : ¬(0x02000000 ≤ a ∧ a < 0x02C00000) := by omega
  have r2 : ¬(sysKcBase ≤ a) := by
    intro h2
    simp only [sysKcBase] at h2
    omega
  have k : kcBars x a = false := by
    simp only [kcBars, kcPair, if_neg r1, if_neg (not_and_of_not_left _ r2)]
  simp only [State.regWrite, s.breakResv_unreserved x a hu, k, Bool.false_eq_true, if_false, h, h', and_self, if_true]

/-! Instructions of a core pair. -/

/-- An instruction where it may stand, which waits for nothing, runs. -/
theorem State.run_placed (t : State) (p : Fin 13) (i : Kn) (hm : (t.coreOf p).misplaced i = false)
    (hw : ((t.coreOf p).att && waitsForA i) = false) :
    t.run p i = (match t.knExec p i with
      | .fault v code ea => .fault (if code != fAlign && spaceOf ea == .reg then t else v) code ea
      | r => r) := by
  simp only [State.run, hm, hw, Bool.false_eq_true, if_false] <;> rfl

/-- A word that is fetched and decodes to an instruction is attempted. -/
theorem State.attempt_decoded (u t : State) (p : Fin 13) (i : Kn) (w : PWord) (hf : u.fetchWord p = .ok t w)
    (hd : knDecode w.toNat (t.coreOf p).pfx = some i) : u.attempt p = (some i, t.run p i) := by
  unfold State.attempt
  rw [hf]
  simp only [hd]

/-- The instruction that pair p issues next executes and ends as its outcome says. -/
theorem State.instr_of_issues (s : State) (p : Fin 13) (i : Kn) (h : s.issues p i = true) :
    s.instr p i.op = (s.issue p).conclude p ((s.fetched p).run p i) := by
  unfold State.issues at h
  simp only [Bool.and_eq_true] at h
  obtain ⟨⟨hr, ha⟩, h⟩ := h
  unfold State.fetched
  cases hf : (s.issue p).fetchWord p with
  | ok t w =>
    simp only [hf, Bool.and_eq_true, Bool.not_eq_true', beq_iff_eq] at h
    obtain ⟨⟨hd, -⟩, -⟩ := h
    have hat := (s.issue p).attempt_decoded t p i w hf hd
    unfold State.instr
    rw [hr, ha]
    simp only [hat, Bool.not_true, Bool.or_self, Bool.false_eq_true, if_false, beq_self_eq_true, if_true]
  | fault t c a => simp only [hf, Bool.false_eq_true] at h
  | stall t => simp only [hf, Bool.false_eq_true] at h

/-! Descriptors. -/

/-- A descriptor that begins and that no check refuses runs. -/
theorem State.descBegin_runs (s : State) (f : Fin 16) (k op : Nat) (x : Flight) (check : Flight → Option Nat)
    (run : State → Desc → DescOut) (h : s.canBegin f k op x = true) (hc : check x = none) :
    s.descBegin f k op check run =
      (let s1 := s.setFn f { s.fnOf f with
         flights := (s.fnOf f).flights.modify k (fun y => s.flightPtb { y with begun := true, since := some s.clock }) }
       match (run s1 x.d).e with
       | .held => s
       | e => (run s1 x.d).st.descSettle f x.pos e) := by
  simp only [State.canBegin, Bool.and_eq_true, beq_iff_eq] at h
  obtain ⟨⟨⟨hx, ho⟩, hm⟩, -⟩ := h
  simp only [State.descBegin, hx, ho, hm, hc, bne_self_eq_false, Bool.not_true, Bool.or_self, Bool.false_eq_true, if_false] <;>
    rfl

/-- A descriptor that begins and that a check refuses ends with that status. -/
theorem State.descBegin_refused (s : State) (f : Fin 16) (k op : Nat) (x : Flight) (check : Flight → Option Nat)
    (run : State → Desc → DescOut) (h : s.canBegin f k op x = true) (st : Nat) (hc : check x = some st) :
    s.descBegin f k op check run = s.descFinish f k st 0 := by
  simp only [State.canBegin, Bool.and_eq_true, beq_iff_eq] at h
  obtain ⟨⟨⟨hx, ho⟩, hm⟩, -⟩ := h
  simp [State.descBegin, hx, ho, hm, hc]

/-! Sealed requests. -/

/-- A sealed request that the module serves runs, and its answer is kept and sent. -/
theorem State.request_of_serves (s : State) (q : ColbelReq) (x : Session) (need : Nat) (run : State → Session → Ran)
    (h : s.serves q x need = true) : s.request q run = s.execute q x run := by
  simp only [State.serves, Bool.and_eq_true, beq_iff_eq] at h
  obtain ⟨⟨⟨⟨⟨hx, ha⟩, hw⟩, ht⟩, hl⟩, -⟩ := h
  simp only [State.request, hx, ha, hw, ht, Bool.not_true, Bool.or_self, Bool.false_eq_true, if_false]
  cases hx2 : x.last with
  | none => simp
  | some l =>
    rw [hx2] at hl
    have hl' : l < q.seq.toNat := by simpa using hl
    have h1 : ¬(l = q.seq.toNat) := by omega
    have h2 : ¬(q.seq.toNat < l) := by omega
    simp [h1, h2]

/-- With the authority it needs, a request runs its own effect. -/
theorem State.withAuth_of_serves (s : State) (q : ColbelReq) (x : Session) (code need : Nat) (run : State → Session → Ran)
    (h : s.serves q x need = true) :
    s.withAuth q code need run = s.execute q x (fun t y =>
      if (y.auth == need || (need == 3 && y.auth != 0)) && t.authAllowed y.auth then run t y else done t code 9 []) := by
  unfold State.withAuth
  exact s.request_of_serves q x need _ h

/-! DMA instructions. -/

/-- UINT cells without error in the memory of the program are fetched as they are. -/
theorem State.dmaFetch_clean (s : State) (e : Fin 13) (l : List Nat) :
    ∀ a, a + 4 * l.length ≤ 2 ^ 32 → (∀ j w, l[j]? = some w → w < 2 ^ 32 ∧
      (match spaceOf (a + 4 * j) with
       | .slice n => n == e.val
       | .plain => e.val == 12
       | _ => false) = true ∧ s.rd (a + 4 * j) = ⟨s, ⟨BitVec.ofNat 32 w, tagUint⟩, false⟩) →
    s.dmaFetch e a l.length = ⟨s, none, l⟩ := by
  induction l with
  | nil => intro a _ _; rfl
  | cons w t ih =>
    intro a ha h
    obtain ⟨hw, hs, hr⟩ := h 0 w rfl
    simp only [Nat.mul_zero, Nat.add_zero] at hs hr
    simp only [List.length_cons] at ha
    have hm : a % 2 ^ 32 = a := Nat.mod_eq_of_lt (by omega)
    have ht := ih (a + 4) (by omega) (fun j v hj => by
      have e1 : a + 4 + 4 * j = a + 4 * (j + 1) := by omega
      rw [e1]
      exact h (j + 1) v hj)
    simp only [List.length_cons, State.dmaFetch, hm, Bool.false_eq_true, if_false, hr, bne_self_eq_false, ht]
    simp only [BitVec.toNat_ofNat, Nat.mod_eq_of_lt hw]
    have hs' : ∀ b : Bool, b = true → ¬((!b) = true) := by decide
    exact if_neg (hs' _ hs)

end Machine
end Sys2Proof
end

