-- ==== Sys2Proof/WellFormed.lean ====
section
/-! DEFINITION. Well-formed commands: the numbers that a command carries are ones that the module or its surroundings can
produce. Every other operand is bounded by its type. -/

namespace Sys2Proof

/-- A byte address inside the internal map or the model's keys (logs 12 and 168). -/
def wfAddr (a : Nat) : Bool := decide (a < 0x210600000)

/-- Conversion results in the 24 bits of R195. -/
def wfRaws (rs : Vector RawResult 4) : Bool := rs.all (fun r => decide (-8388608 ≤ r.raw) && decide (r.raw ≤ 8388607))

/-- The index of a descriptor in flight, of at most 4096 (R359). -/
def wfIndex : ReadOf → Bool
  | .data k => decide (k < 4096)
  | .fetch _ => true
  | .late => true

/-- CFG_SEQ of a twin record in its 32 bits. -/
def wfRec (k : Streamed Nat) : Bool := decide (k.val < 2 ^ 32)

/-- The command is well formed. -/
def Instr.wf : Instr → Bool
  | .registerWrite _ a _ => wfAddr a.a
  | .madBoundary rs => wfRaws rs
  | .lineLost rs => wfRaws rs
  | .eccWriteBack a => decide (a < 2 ^ 32)
  | .marchComplete fails _ _ => decide (fails < 2 ^ 28)
  | .completionTimeout _ k => wfIndex k.what
  | .descNop _ k => decide (k < 4096)
  | .descFence _ k => decide (k < 4096)
  | .setParam _ k => decide (k < 4096)
  | .setRef _ k _ => decide (k < 4096)
  | .loadCoeff _ k => decide (k < 4096)
  | .descSwapBank _ k => decide (k < 4096)
  | .setModeLoop _ k => decide (k < 4096)
  | .readState _ k => decide (k < 4096)
  | .capture _ k => decide (k < 4096)
  | .traceArm _ k => decide (k < 4096)
  | .dmaXfer _ k => decide (k < 4096)
  | .mcodeLoad _ k => decide (k < 4096)
  | .flashOp _ k => decide (k < 4096)
  | .descMarch _ k => decide (k < 4096)
  | .sliceFence _ k => decide (k < 4096)
  | .sliceResume _ k => decide (k < 4096)
  | .hilFeed _ k => decide (k < 4096)
  | .eventWait _ k => decide (k < 4096)
  | .eventWaitTimeout _ k => decide (k < 4096)
  | .event _ _ _ recs => decide (1 ≤ recs.length) && decide (recs.length ≤ 16)
  | .dlyReq _ t2 t3 => decide (t2 ≤ t3)
  | .dlyResp _ _ t2 t3 _ => decide (t2 ≤ t3)
  | .ttStepAnnounce ahead => decide (ahead < 2 ^ 32)
  | .groupAnnouncementReceive _ sender _ => decide (sender < 2048)
  | .commit _ _ _ k => wfRec k
  | .config _ off _ k => decide (off < 0x20000) && off % 4 == 0 && wfRec k
  | .snap _ _ _ k => wfRec k
  | .udpDatagram len => decide (len ≤ 65507)
  | .setWp _ _ _ _ len _ _ _ => decide (len < 2 ^ 32)
  | .readMem _ _ k => decide (k < 2 ^ 16)
  | .writeMem _ _ cs => decide (cs.length < 2 ^ 16)
  | .readClears _ a => wfAddr a.a
  | .hostReadCompletion _ k ws => decide (k < 4096) && decide (ws.length ≤ 16384)
  | .coldStart .. | .arm .. | .armPendingTakesEffect .. | .disarm .. | .modeChangeRequest .. | .modeChangeComplete
  | .stabledEntryComplete | .wake .. | .sliceAssign .. | .fence .. | .fenceComplete .. | .resume ..
  | .resumeCheckComplete .. | .go .. | .restart .. | .restartTestsComplete .. | .stop .. | .windowHalfSwitch ..
  | .settlingIntervalEnd .. | .inputOverrange .. | .grgWcfgWrite .. | .grgInWrite .. | .grgThrWrite ..
  | .thresholdSwitch .. | .grgTestWrite .. | .sarTrigger .. | .sarSwtrig .. | .sarHold .. | .sarResultReady ..
  | .sarHandoff .. | .sarRecordWrite .. | .selfcal .. | .selfcalComplete .. | .loopTrigger .. | .cleSwtrig ..
  | .loopIssue .. | .microwordIssue .. | .commitCompare .. | .commitComplete .. | .swapBank .. | .toAuto ..
  | .toManual .. | .clearHist .. | .mcsStageWrite .. | .mcsWordCommit .. | .ldOpenWrite .. | .crcComplete ..
  | .scanRepair .. | .att .. | .attachedCallIssue .. | .attachedCallComplete .. | .attachedCallTimeout ..
  | .pwmValley .. | .pwmPeriodPoint .. | .phaseChange .. | .deadTimeEnd .. | .pwmShadowWrite ..
  | .immediateActivation .. | .counterRestart .. | .tripLatch .. | .tripInputFilterPass .. | .tripClear ..
  | .tripForce .. | .slcTrip .. | .tripStageTurnOn .. | .tripEnableWrite .. | .tripinConfigWrite .. | .captureEdge ..
  | .captureFifoRead .. | .encoderStep .. | .injectionStart .. | .injectionStop .. | .injCaptureRecordWrite ..
  | .injLimWrite .. | .zeroCrossing | .madRecordWrite | .urgentRequest .. | .refSettled | .refFault | .madUnitEnable ..
  | .madScanWrite .. | .lda .. | .sta .. | .add .. | .sub .. | .adds .. | .subs .. | .mul .. | .macx .. | .and ..
  | .or .. | .xor .. | .ldx .. | .stx .. | .ldy .. | .sty .. | .xch .. | .eq .. | .ne .. | .lt .. | .ge .. | .gt ..
  | .le .. | .teq .. | .tne .. | .nop .. | .ret .. | .fret .. | .gret .. | .rfe .. | .lock .. | .ctlFence .. | .wfe ..
  | .pusha .. | .popa .. | .pushx .. | .popx .. | .pushy .. | .popy .. | .tax .. | .txa .. | .tay .. | .tya ..
  | .swxy .. | .rdsp .. | .wdsp .. | .rpg .. | .wpg .. | .rdtag .. | .rdtime .. | .pfx .. | .ldia .. | .ldix ..
  | .ldiy .. | .addia .. | .loop .. | .lea .. | .sc .. | .pstore .. | .jump .. | .call .. | .jumpx .. | .callx ..
  | .fcall .. | .gate .. | .cld .. | .cst .. | .crange .. | .cmask .. | .cclose .. | .copen .. | .cclr .. | .cinfo ..
  | .cmov .. | .capsw .. | .ctst .. | .div .. | .sqrt .. | .sincos .. | .atan2 .. | .longResult .. | .retag ..
  | .dsadj .. | .ldb .. | .ldh .. | .stb .. | .sth .. | .ldu .. | .legacyLda .. | .legacySta .. | .legacyAdd ..
  | .legacySub .. | .legacyAnd .. | .legacyOr .. | .legacyXor .. | .jmpp .. | .lockBroken .. | .storeDrain ..
  | .interruptEntry .. | .faultEntry .. | .checkpoint .. | .lockstepDivergence .. | .recoveryComplete ..
  | .memMarchRequest .. | .memoryClearComplete .. | .secWiped | .mmcScrub | .pageMapFillComplete .. | .mmcChannelDown ..
  | .lineFilterChange .. | .eventLatch .. | .msixIssue .. | .evrAck .. | .evrSysAck .. | .groupBatchClose ..
  | .evrTgtWrite .. | .eventTap | .orphanRead .. | .dmaStart .. | .dmaHalt .. | .dmaEnd .. | .move .. | .dmaLoop ..
  | .endloop .. | .dmaWait .. | .dmaWaitTimeout .. | .dmaSignal .. | .shuffle .. | .dmaFence .. | .dmaWriteResponse ..
  | .linkUp .. | .linkDown | .functionLevelReset .. | .busMasterEnableClear .. | .d3hotEntry .. | .vfEnableClear ..
  | .functionEnable .. | .functionDisable .. | .disableTimeout .. | .sqTail .. | .cqHead .. | .edgeRidx .. | .abort ..
  | .abortComplete .. | .lateCompletion .. | .descriptorFetch .. | .completionWrite .. | .frameDiscard .. | .sync ..
  | .topo .. | .syncTransmit | .topoTransmit | .memberTimeout .. | .syncLoss | .groupStepApply | .inauguration
  | .ptpLock .. | .groupAnnouncement | .ptpTimeEvent | .portDown .. | .handover .. | .takeAck .. | .status ..
  | .statusTransmit | .twinLinkLoss | .twinLinkUp .. | .handoverLineAssert | .handoverLineIn | .takeoverComplete ..
  | .takeAckTimeout | .release .. | .erase .. | .eraseComplete .. | .program .. | .programComplete .. | .suspend ..
  | .flashResume .. | .marginCheck .. | .marginCheckComplete .. | .setPw .. | .setNext .. | .flashLock .. | .unlock ..
  | .flcPwLo .. | .flcPwHi .. | .autoSuspend .. | .autoResume .. | .flashScrub .. | .scrubRewriteComplete ..
  | .loaderErase .. | .loaderWrite .. | .loaderCheck .. | .loaderRestart .. | .inputLoss .. | .holdupLow
  | .holdupShutdown | .inputRestored .. | .holdupReady | .overvoltage .. | .elFoldback .. | .elFoldbackRetry ..
  | .clockLock .. | .clockGlitch | .rtcAlarm | .wdgService .. | .wdgRestart .. | .wdgExpire .. | .setMinver ..
  | .writeKey .. | .revoke .. | .lcTransitionRequest .. | .lcStateWrite | .tamper .. | .mbxGo .. | .canfdSegment ..
  | .canfdMessageTimeout .. | .hello .. | .auth .. | .authSignature .. | .authLockoutEnd .. | .close ..
  | .sessionTimeout .. | .info .. | .attach .. | .detach .. | .halt .. | .haltTakesEffect .. | .colbelResume ..
  | .step .. | .readCore .. | .writeCore .. | .setBp .. | .breakpointHit .. | .watchpointHit .. | .testOut ..
  | .traceCfg .. | .token .. | .keepalive .. | .tracePostStore .. | .traceMerge | .traceSessionSend .. | .ptbEnable ..
  | .apertureWrite .. | .configurationRequest .. | .twnHoInDeasserted | .portUp .. | .ecnLinkChange .. | .healthyChg
  | .xtalOkChange .. | .temperatureUpdate .. => true

end Sys2Proof
end

