-- ==== Sys2Proof/Tests/Slice0.lean ====
section
/-! SUPPORT. Tests of the model's author: ill-formed commands that each check refuses, single steps with results taken from the
spec, and for every statement with hypotheses a state and operands that meet them. -/

set_option linter.unusedVariables false
set_option Elab.async false

namespace Sys2Proof
namespace Machine

/-! States that the tests and witnesses use. -/

/-- Slice 0's own pair, without special authority. -/
def W.own : Access := ⟨.core 0, false, false⟩
/-- The system pair. -/
def W.sys : Access := ⟨.sys, false, false⟩
/-- Start-up in HOSTED mode with every test passed. -/
def W.tests : BootTests :=
  ⟨3, 2600, 150, ⟨true, 500⟩, ⟨0, 0, 0⟩, Vector.replicate 12 ⟨0, 0, 0⟩, ⟨false, 0, false, 0, false, 0⟩,
    Vector.replicate 12 ⟨false, 0, false, 0, false, 0⟩, 0xFFF⟩
/-- A started module in HOSTED mode whose slice 0 runs and belongs to VF1. -/
def W.up : State :=
  let s1 := { State.reset with vfEnable := true, numVfs := 15 }.setF R.DEV_MODE F.DEV_MODE_MODE 3
  let s2 := (s1.setF R.DEV_BOOT_STAT F.DEV_BOOT_STAT_DONE 1).setF R.DEV_BOOT_STAT F.DEV_BOOT_STAT_STEP 10
  let s3 := ((s2.setF R.HIF_LINK F.HIF_LINK_UP 1).setF R.PWR_STAT F.PWR_STAT_HOLDUP_READY 1).setF R.PWR_CLK F.PWR_CLK_CLOCKS 0x3F
  ((s3.setF (R.SLC_STATE 0) F.SLC_STATE_STATE 4).setF (R.DEV_SLC_ASSIGN 0) F.DEV_SLC_ASSIGN_OWNER 1).setCore 0
    { resetCore with halted := false }

/-- `s`, `c` cycles on. -/
def W.later (c : Nat) (s : State) : State := { s with clock := s.clock + c, mtime := s.mtime + BitVec.ofNat 64 c }

/-- `W.up` with GRG_WCFG of window 3 of slice 0 at `v`. -/
def W.win (v : Word) : State := W.up.setReg (R.GRG_WCFG 0 3) v

/-- `W.up` with loop 3 of slice 0 enabled on the vendor entry 0x010, triggers unmasked. -/
def W.loop : State :=
  ((W.up.setF (R.CLE_LCTRL 0 3) F.CLE_LCTRL_EN 1).setF (R.CLE_LCTRL 0 3) F.CLE_LCTRL_ENTRY 0x010).setCtl 0
    { resetCtl with unmasked := true }

/-- `W.loop` with the engine of slice 0 in state `c`. -/
def W.cle (c : CleSt) : State := W.loop.setCle 0 c

/-- A snapshot with b0 = 16384, REF = 1000 and MAX = 32767. -/
def W.snap : Snap := { zeroSnap with b0 := 16384, ref := 1000, max := 32767, shift := 2 }

/-- `W.loop` with word `words` of a vendor routine of `len` words next for loop 3. -/
def W.seq (len words upc : Nat) : State :=
  W.cle { resetCle with seqr := { resetSeq with who := .loop 3 W.snap ⟨false, false, false⟩, len := len, words := words, upc := upc } }

/-- A sequencer that serves loop 3 of a customer routine at word 0x801 of nine words. -/
def W.q : SeqSt :=
  { resetSeq with who := .loop 3 W.snap ⟨false, false, false⟩, upc := 0x801, len := 9, acc0 := -5, acc1 := 6, accSat := true,
                  t := #v[1, 11, 12, 13, 14, 15, 16, 17] }

/-- That sequencer, or `q`, before word `w`. -/
def W.cust (w : MWord) (q : SeqSt) : State :=
  (((W.loop.setF (R.CLE_LCTRL 0 3) F.CLE_LCTRL_ENTRY 0x800).setUword 0 0x801 w).setCell 0x02080000 ⟨5, tagFrac2⟩).setCle 0
    { resetCle with seqr := q }

/-- A commit record. -/
def W.rcd (compared : Bool) : CommitRec :=
  { u := 5, y := 7, e := 3, cu := 5, hist := 2, hi := false, lo := true, snap := zeroSnap, eff := ⟨false, false, false⟩,
    compared := compared, cmp := 9, half := false, held := none }

/-- `W.loop` with that record at the commit port of loop 3. -/
def W.port (compared : Bool) : State :=
  W.cle { resetCle with loops := resetCle.loops.set 3 { (resetCle.loops.get 3) with commit := some (W.rcd compared) } }

/-- `W.loop` with an attached call, waiting or with a result. -/
def W.call (r : Option Cell) : State := W.cle { resetCle with call := some ⟨3, 1, 2, 3, false, r⟩ }

/-- `W.up` with channel 2 of slice 0 enabled, 1000 tCK to the half period, reloading at both points. -/
def W.chan : State :=
  ((((W.up.setF (R.PWM_CTRL 0 2) F.PWM_CTRL_EN 1).setF (R.PWM_CTRL 0 2) F.PWM_CTRL_RELOAD_MODE 2).setReg (R.PWM_PER 0 2)
    1000).setReg (R.PWM_ACT_PER 0 2) 1000).setReg (R.PWM_ACT_DT 0 2) 160

/-- `W.up` with converter 1 of slice 0 triggered at count 0 of channel 2, in whose cycle it is. -/
def W.phase : State :=
  ((W.chan.setF (R.SAR_TRIG 0 1) F.SAR_TRIG_LEN 2).setF (R.SAR_TRIG 0 1) F.SAR_TRIG_SRC 2).setF (R.SAR_PP 0 1) F.SAR_PP_CH 2

/-- `W.chan` with a standing request of trip input 0. -/
def W.trip : State :=
  (W.chan.setReg (R.PWM_TRIP_EN 0 2) 0x1000).setF (R.SLC_TRIPIN 0 0) F.SLC_TRIPIN_LEVEL 1


/-- Keys where two maps could differ. -/
def W.keys {α : Type} (l m : List (Nat × α)) : List Nat := l.map (·.1) ++ m.map (·.1)

/-- `State.RegsKept` and `State.CellsKept`, evaluated. -/
def W.regsKept (s t : State) (own : Nat → Bool) : Bool := (W.keys s.regs t.regs).all (fun a => own a || t.reg a == s.reg a)
def W.cellsKept (s t : State) (own : Nat → Bool) : Bool := (W.keys s.cells t.cells).all (fun a => own a || t.cell a == s.cell a)
def W.knOnly (s t : State) (p : Fin 13) : Bool :=
  decide (t = { s with core := s.core.set p (t.coreOf p), regs := t.regs, dbg := t.dbg }) && W.regsKept s t (· == R.KC_CSEL p)
def W.storeOnly (s t : State) (p : Fin 13) : Bool :=
  (decide (4 ≤ (s.rs p).sb.length) || W.knOnly s t p) && W.cellsKept s t (fun a => (s.rs p).sb.head?.any (fun e => e.overlaps a 4))

/-- A capability quad. -/
def W.quad (base len perms st : Word) : Quad := ⟨⟨base, tagCap⟩, ⟨len, tagCap⟩, ⟨perms, tagCap⟩, ⟨st, tagCap⟩⟩

/-- Registers of a pair at PC 8 of set 0: C0 is all of program memory, C1 the first 64 KiB of slice memory 0 with every
permission, C2 and C3 a data and a return stack above it, C5 a gate, C6 closed under key 7. -/
def W.regs : CoreRegs :=
  let c := #v[W.quad 0 0x20000 0x07FF 0x40000000, W.quad 0x02080000 0x10000 0x07FF 0, W.quad 0x02090000 0x1000 0x07FF 0,
    W.quad 0x02091000 0x1000 0x07FF 0, emptyQuad, W.quad 0x02080100 16 0x0080 0x80000000,
    W.quad 0x02080000 256 0x000707FF 0x80000000, emptyQuad]
  { resetRegsK with pc := 8, a := 5, atag := tagInt, x := ⟨0x02080010, tagAddr⟩, y := ⟨3, tagUint⟩, pg := 0
                    sets := .replicate 8 ⟨c, 0x02090800, 0x02091800⟩ }

/-- Slice 0 running with those registers, word `w` at the PC and cells 7 at the operands. -/
def W.kn (w : Nat) (r : CoreRegs) : State :=
  (((((W.up.setCore 0 { resetCore with r := r, halted := false }).setProgWord 0 8 (BitVec.ofNat 14 w)).setCell 0x02080000
    ⟨7, tagInt⟩).setCell 0x02090800 ⟨6, tagInt⟩).setCell 0x02091800 ⟨20, tagCode⟩).setCell 0x02080010 ⟨9, tagInt⟩

/-- Those pairs with the local source 0 of slice 0 latched for pair 0 at priority 0 and the level at 5. -/
def W.irq : State :=
  ((((W.kn 0x3000 W.regs).setF (tgtAddr 64) F.EVR_TGT_KIND 1).setF (tgtAddr 64) F.EVR_TGT_INDEX 0).setRoute 64
    ⟨.pending, true, 64, 1, 0, 0, 0⟩).setF (R.KC_CSEL 0) F.KC_CSEL_LEVEL 5

/-- Source 46 pending for vector 0 of PF0, which takes messages. -/
def W.msix : State :=
  let s1 := ((W.up.setF (tgtAddr 46) F.EVR_TGT_KIND 2).setRoute 46 ⟨.pending, false, 46, 1, 0, 0, 0⟩).setF (R.HIF_FN_STAT 0)
    F.HIF_FN_STAT_EN 1
  s1.setFn 0 { s1.fnOf 0 with msixEn := true, bme := true, vopen := [0] }

/-- Group 2 with a batch of three whose time is over. -/
def W.batch : State :=
  let s1 := (W.up.setF (R.EVR_GTGT 2) F.EVR_GTGT_KIND 1).setF (R.EVR_GCFG 2) F.EVR_GCFG_TIME 1
  { s1 with mtime := 30000, evr := { s1.evr with batches := [(2, ⟨3, 70, 0⟩)] } }

def W.dmaOnly (s t : State) (e c : Nat) : Bool :=
  decide (t = { s with regs := t.regs, dma := t.dma }) &&
    W.regsKept s t (fun a => [R.DMA_CTRL e c, R.DMA_STAT e c, R.DMA_PC e c, R.DMA_ERR_ADDR e c].contains a)

/-- Channel 1 of the engine of slice 0 running at the program words `l` with channel state `d`. -/
def W.dma (l : List Nat) (d : DmaCh) : State :=
  let s1 := ((W.up.setDmaState 0 1 1).setDmaPc 0 1 (smem 0 0x100)).setDma 0 1 d
  (l.zipIdx).foldl (fun (t : State) x => t.setCell (smem 0 0x100 + 4 * x.2) ⟨BitVec.ofNat 32 x.1, tagUint⟩) s1

/-- A descriptor of slice 0. -/
def W.desc (op slice unit addr : Nat) (p : Vector Word 12) : Desc := ⟨op, false, true, 0x55, slice, unit, addr, p, false⟩

def W.flight (op slice unit addr : Nat) (p : Vector Word 12) : Flight := newFlight 0 2 (W.desc op slice unit addr p)

/-- `W.loop` with VF1 enabled, which owns slice 0, and flights `l` fetched. -/
def W.fn (l : List Flight) : State :=
  let s1 := { W.loop with vfEnable := true, numVfs := 3 }
  let s2 := (s1.setF (R.HIF_FN_STAT 1) F.HIF_FN_STAT_EN 1).setF (R.RNG_CTRL 1) F.RNG_CTRL_EN 1
  s2.setFn 1 { s2.fnOf 1 with bme := true, flights := l, fetched := 1 }

/-- `W.up` with PF0 enabled and flights `l` of its own fetched. -/
def W.pf0 (l : List Flight) : State :=
  let s1 := W.up.setF (R.HIF_FN_STAT 0) F.HIF_FN_STAT_EN 1
  s1.setFn 0 { s1.fnOf 0 with bme := true, flights := l, fetched := 1 }

def W.zeros : Vector Word 12 := Vector.replicate 12 0
def W.capArgs : Vector Word 12 :=
  #v[F.INJ_CTRL_START.word 1 ||| F.INJ_CTRL_LOOP.word 3, 0, 0, 0, 0, F.INJ_CAP_LOG2LEN.word 4, F.INJ_CORR_N.word 16, 0, 0, 0, 0, 0]

/-- VF1 quiescing after an abort with cause 1, with nothing owned and flights `l`. -/
def W.abt (l : List Flight) : State :=
  let s1 := ((W.fn l).setF (R.DEV_SLC_ASSIGN 0) F.DEV_SLC_ASSIGN_OWNER 0x1F).setF (R.RNG_CTRL 1) F.RNG_CTRL_QUIESCING 1
  s1.setFn 1 { s1.fnOf 1 with cause := 1 }

/-- A module LOCKED at position 2 of group 1 with both group ports up. -/
def W.pwy : State :=
  ((((W.up.setF R.PWY_CFG F.PWY_CFG_EN 1).setF R.PWY_ID F.PWY_ID_GROUP 1).setF R.PWY_ID F.PWY_ID_POS 2).setF R.PWY_STAT
    F.PWY_STAT_PORT_UP 3).setF R.PWY_STAT F.PWY_STAT_LOCKED 1

/-- The TOPO payload of position 5 of group `g`. -/
def W.topo (g : Fin 64) : PwyTopo := ⟨g, 5, 3, true, false, 3, 0⟩

/-- TWIN mode, link up, slice 0 with the given role bits. -/
def W.twin (act stb : Nat) : State :=
  let s1 := (W.pwy.setF R.DEV_MODE F.DEV_MODE_MODE 4).setF R.TWN_CFG F.TWN_CFG_EN 1
  ((s1.setF R.TWN_STAT F.TWN_STAT_LANES 3).setF R.TWN_ROLE F.TWN_ROLE_ACTIVE act).setF R.TWN_ROLE F.TWN_ROLE_STANDBY stb

/-- A loop image. -/
def W.image : LoopImage := ⟨true, false, false, false, 4, 0, 100, 90, 1, 2, 3, 4, 5, 6, 70, 71, 8, false, false, 0, 0⟩

/-- Slice 0 standby, SYNCED and armed. -/
def W.ready : State :=
  let s1 := (W.twin 0 1).setF R.DEV_ARM ⟨0, 1⟩ 1
  (s1.setCtl 0 { s1.ctlOf 0 with unmasked := true }).setTwn { s1.twn with cfgOk := .replicate 12 true, snapped := .replicate 12 0xFFFF }

/-- `W.up` with FLC_BSEL at page 0 of block `blk` of array `arr`, region 2. -/
def W.flash (arr blk : Nat) : State :=
  W.up.setReg R.FLC_BSEL (F.FLC_BSEL_ARRAY.word arr ||| F.FLC_BSEL_BLOCK.word blk)

/-- The words of an image without sections, version 9, signed with the key of slot 1, whose digest is `W.digest`. -/
def W.img : List Word :=
  [0x45534b49, 0x1, 0x9, 0xa4, 0x20, 0x0, 0x0, 0x0,
   0x1, 0x27cebebd, 0xf371c8fa, 0x2638d7f5, 0x663f51b2, 0xbd17a48c, 0x1bcde7ac, 0x5243730d,
   0xb7d6b329, 0x84c19ef7, 0xe07ae284, 0xc0d73d76, 0x1908ce44, 0x6fd4e548, 0x286db0d, 0xf2d7f4a3,
   0x3c8f9f46, 0x98db50e7, 0x5cdaf980, 0xdba16cf6, 0x2f4d2573, 0xf62d007e, 0x4b5a0356, 0x37fa30b8,
   0x780d2c8c, 0x8e4f3afc, 0xcead9d63, 0x54d10fde, 0xada55e5d, 0x526da06f, 0x4f73d696, 0xb74a1670,
   0x57db1414]
def W.digest : BitVec 256 := 0x73170bbc60c1645fac3128d6964299cb9918e76b056f5737b5d5c73e934e71ee

/-- That image in bank 1 of a module in life-cycle state FIELD, FLC_BSEL naming it. -/
def W.next : State :=
  let s1 := (W.flash 1 3).setF R.SEC_LC F.SEC_LC_STATE 2 |>.setF R.SEC_KEYSTAT F.SEC_KEYSTAT_WRITTEN 3
  { s1 with
    sec := { s1.sec with keys := s1.sec.keys.set 0 W.digest }
    flc := { s1.flc with words := W.img.zipIdx.map (fun e => (0x21000000 + 4 * e.2, e.1)) } }

/-- `W.flash` with the operation `r` running. -/
def W.flcRun (r : FlcRun) : State := (W.flash r.arr r.blk).setFlc { resetFlc with run := some r }

/-- An erase of that block running, its flag set. -/
def W.erasing (arr blk : Nat) : State :=
  let s1 := W.flcRun ⟨.erase, arr, blk, false, none⟩
  (s1.setBlk arr blk { resetBlk with cnt := 1, flag := true }).setFlc
    { (s1.setBlk arr blk { resetBlk with cnt := 1, flag := true }).flc with words := [(arrBase arr + blk * blkSize arr, 9)] }

/-- Region 2 selected, protected if `p` is 1, and a password in stage `st`. -/
def W.region (p : Nat) (st : PwStage) : State :=
  (((W.flash 1 3).setF R.FLC_BSEL F.FLC_BSEL_REGION 2).setF (R.FLC_REGION 2) F.FLC_REGION_PROT p).setFlc
    { resetFlc with stage := st }

/-- Start-up stopped at step 5, the ROM loader serving. -/
def W.stopped : State := State.reset.setF R.DEV_BOOT_STAT F.DEV_BOOT_STAT_FAIL_STEP 5

/-- The watchdog of slice 0 enabled and running, 100 µs after its start. -/
def W.wdg : State :=
  let s1 := ((W.up.setF (R.WDG_CTRL 0) F.WDG_CTRL_EN 1).setF (R.WDG_STAT 0) F.WDG_STAT_RUN 1).setReg (R.WDG_CNT 0) 100
  { s1 with wdgFirst := .replicate 13 true }

/-- `W.up` in SERVICE mode. -/
def W.service : State := W.up.setF R.DEV_MODE F.DEV_MODE_MODE mdService

/-- A session over UDP with authority `a`, and one whose last request was 5. -/
def W.sess (a : Nat) : Session := ⟨1, a, none, none, none, [], 0, 0⟩
def W.again : Session := { W.sess 0 with last := some 5, resp := some ⟨16, 0, []⟩ }

/-- The pair of slice 0 before a NOP; the monitor available with session 0 of authority `a` and a message waiting. -/
def W.mon (a : Nat) : State :=
  let s1 := (W.kn 0x3000 W.regs).setF R.DBG_STAT F.DBG_STAT_AVAIL 1
  { s1 with dbg := { s1.dbg with sess := s1.dbg.sess.set 0 (some (W.sess a)), inbox := #v[0, 1, 0] } }

/-- Session 0 has been challenged for DEBUG; the vendor key's slot is written. -/
def W.asked : State :=
  let s1 := (W.mon 0).setF R.SEC_KEYSTAT F.SEC_KEYSTAT_WRITTEN 1
  { s1 with dbg := { s1.dbg with sess := s1.dbg.sess.set 0 (some { W.sess 0 with asked := some 1 }) } }

/-- The pair of slice 0 attached by session 0 of authority DEBUG, and halted. -/
def W.att : State := (W.mon 1).setCore 0 { (W.mon 1).coreOf 0 with attached := some 0 }
def W.held : State := W.att.setCore 0 { W.att.coreOf 0 with dbgHalt := true }

/-- A breakpoint at PC 8 in every set. -/
def W.bp : State :=
  { W.att with dbg := { W.att.dbg with bp := W.att.dbg.bp.set 0 (.replicate 4 (some ⟨8, 255, 0⟩)) } }

/-- A packet, and a session with packets waiting. -/
def W.packet : Packet := ⟨5, 100, 0, tagInt, 3, false, 7, false⟩
def W.tracing : Session := { W.sess 1 with trace := List.replicate 120 W.packet }

/-- Trace on in slice 0 to the host ring (2) or session 0 (3), or as `d` has it, with `l` queued; session 0 open. -/
def W.trace (d : Nat) (l : List Packet) : State :=
  let s1 := ((W.mon 1).setReg (R.STP_CTRL 0) (F.STP_CTRL_DEST.word (if d == 0 then 1 else d) ||| F.STP_CTRL_LEVEL.word 2)).setReg
    (R.STP_EN 0) 0xFFFFFF
  { s1 with trc := s1.trc.set 0 ⟨l, false, 8⟩ }

/-- Every session's last request was 5. -/
def W.replay : State := { W.mon 0 with dbg := { (W.mon 0).dbg with sess := .replicate 4 (some W.again) } }

/-- The pair of slice 0 before the load word `w`, with X at SLC_ID of slice 0 and C1 over the slice's registers. -/
def W.ld (w : Nat) : State :=
  W.kn w { W.regs with x := ⟨0x02000000, tagAddr⟩, sets := W.regs.sets.map (fun q =>
    { q with c := q.c.set 1 (W.quad 0x02000000 0x10000 0x07FF 0) }) }

/-- VF1 with a finished descriptor of queue 2, whose completion ring 2 has 16 entries, its tail at `tail`. -/
def W.compl (tail : Nat) (c : Compl) : State :=
  let s1 := (((W.fn []).setF (R.RNG_CQ_CFG 1 2) F.RNG_CQ_CFG_EN 1).setF (R.RNG_CQ_CFG 1 2) F.RNG_CQ_CFG_LOG2DEPTH 4).setF
    (R.RNG_CQ_TAIL 1 2) F.RNG_CQ_TAIL_TAIL tail
  let s2 := (s1.setF (R.RNG_SQ_CFG 1 2) F.RNG_SQ_CFG_CQ 2).setF (R.RNG_CQ_CFG 1 2) F.RNG_CQ_CFG_IRQ_EN 1
  s2.setFn 1 { s2.fnOf 1 with msixEn := true, vopen := [0], done := [c] }

/-! Well-formedness: one ill-formed command for each check. -/

theorem wf_refuses_registerWrite : (Instr.registerWrite W.sys ⟨0x210600000, 15, 0⟩ 0).wf = false := by decide
theorem wf_refuses_readClears : (Instr.readClears W.sys ⟨0x210600000, 15, 0⟩).wf = false := by decide
theorem wf_refuses_madBoundary : (Instr.madBoundary (.replicate 4 ⟨8388608, false⟩)).wf = false := by decide +kernel
theorem wf_refuses_lineLost : (Instr.lineLost (.replicate 4 ⟨-8388609, false⟩)).wf = false := by decide +kernel
theorem wf_refuses_eccWriteBack : (Instr.eccWriteBack 0x100000000).wf = false := by decide
theorem wf_refuses_marchComplete : (Instr.marchComplete 0x10000000 0 0).wf = false := by decide
theorem wf_refuses_completionTimeout : (Instr.completionTimeout 1 ⟨.data 4096, .timeout⟩).wf = false := by decide
theorem wf_refuses_descriptors :
    [Instr.descNop 1 4096, .descFence 1 4096, .setParam 1 4096, .setRef 1 4096 false, .loadCoeff 1 4096, .descSwapBank 1 4096,
      .setModeLoop 1 4096, .readState 1 4096, .capture 1 4096, .traceArm 1 4096, .dmaXfer 1 4096, .mcodeLoad 1 4096,
      .flashOp 1 4096, .descMarch 1 4096, .sliceFence 1 4096, .sliceResume 1 4096, .hilFeed 1 4096, .eventWait 1 4096,
      .eventWaitTimeout 1 4096].all (fun c => !c.wf) = true := by decide +kernel
theorem wf_refuses_event : (Instr.event 0 3 1 []).wf = false := by decide
theorem wf_refuses_long_event : (Instr.event 0 3 1 (List.replicate 17 ⟨1, 0, 0, 0⟩)).wf = false := by decide
theorem wf_refuses_dlyReq : (Instr.dlyReq 0 2 1).wf = false := by decide
theorem wf_refuses_dlyResp : (Instr.dlyResp 0 1 3 2 9).wf = false := by decide
theorem wf_refuses_ttStepAnnounce : (Instr.ttStepAnnounce 0x100000000).wf = false := by decide
theorem wf_refuses_groupAnnouncementReceive : (Instr.groupAnnouncementReceive 1 2048 0).wf = false := by decide
theorem wf_refuses_commit : (Instr.commit 0 0 W.image ⟨0x100000000, 0⟩).wf = false := by decide
theorem wf_refuses_config : (Instr.config 0 2 0 ⟨1, 0⟩).wf = false := by decide
theorem wf_refuses_far_config : (Instr.config 0 0x20000 0 ⟨1, 0⟩).wf = false := by decide
theorem wf_refuses_snap : (Instr.snap 0 0 W.image ⟨0x100000000, 0⟩).wf = false := by decide
theorem wf_refuses_udpDatagram : (Instr.udpDatagram 65508).wf = false := by decide
theorem wf_refuses_setWp : (Instr.setWp ⟨0, 1, true, 1⟩ 0 0 0 0x100000000 true false none).wf = false := by decide
theorem wf_refuses_readMem : (Instr.readMem ⟨0, 1, true, 1⟩ 0 0x10000).wf = false := by decide
theorem wf_refuses_writeMem (cs : List Cell) (h : cs.length = 0x10000) : (Instr.writeMem ⟨0, 1, true, 1⟩ 0 cs).wf = false := by
  show decide (cs.length < 2 ^ 16) = false
  rw [h]
  rfl
theorem wf_refuses_hostReadCompletion : (Instr.hostReadCompletion 1 4096 []).wf = false := by decide
theorem wf_admits_arm : (Instr.arm W.own ⟨.slc 0, 0⟩).wf = true := by decide

/-! Single steps, each result from the rule or example of the spec that is named. -/

/-- R30: an arm request in HOSTED mode with HOLDUP_READY high arms a RUNNING slice. -/
theorem test_arm : (match execArm W.own ⟨.slc 0, 0⟩ W.up with | .next t => t.armed 0 | _ => false) = true := by decide +kernel

/-- Chapter 3's example: the register block of slice 4 begins at 0x0240_0000. -/
theorem test_slice_base : sliceBase 4 = 0x02400000 := by decide

/-- Chapter 16's example: the slice memory of slice 3 begins at 0x0238_0000. -/
theorem test_slice_memory : smem 3 0 = 0x02380000 := by decide

/-- R211: the sum of two INT values is INT; A = 5 and the operand 9 of the witness state give 14. -/
theorem test_add_int : kAdd false false 5 tagInt ⟨9, tagInt⟩ = .val 14 tagInt := by decide +kernel

/-- R211: INT − INT below zero keeps its sign in the 40 bits of A. -/
theorem test_sub_sign : kAdd true false 5 tagInt ⟨9, tagInt⟩ = .val 0xFFFFFFFFFC tagInt := by decide +kernel

/-- R214: no sum of INT and UINT. -/
theorem test_add_mixed : kAdd false false 5 tagInt ⟨9, tagUint⟩ = .bad := by decide +kernel

/-- R218: the immediate of LDIA is signed, in bits 5:0, and tagged INT: 0x3F is −1. -/
theorem test_ldia :
    (match execLdia 0 (W.kn 0x323F W.regs) with | .next t => (t.kr 0).a == 0xFFFFFFFFFF && (t.kr 0).atag == tagInt | _ => false) =
      true := by decide +kernel

/-- A row of the core acts only on its own word: TAX changes nothing while a NOP stands at PC. -/
theorem test_not_at_pc : (match execTax 0 (W.kn 0x3000 W.regs) with | .next t => t == W.kn 0x3000 W.regs | _ => false) = true := by
  decide +kernel

/-- R294: a memory cell that nothing has written is cleared: payload 0, tag EMPTY. -/
theorem test_cleared_cell : State.reset.cell 0x02080000 = emptyCell := by decide +kernel

/-- R298: main memory keeps the payload of a cell and reads it back as UINT. -/
theorem test_main_memory : (State.reset.setCell 0x10000004 ⟨7, tagInt⟩).cell 0x10000006 = ⟨7, tagUint⟩ := by decide +kernel

/-- Writing what an unlisted cell reads as removes the entry. -/
theorem test_canonical_cells : (State.reset.setCell 0x02080000 ⟨7, tagInt⟩).setCell 0x02080000 emptyCell = State.reset := by
  decide +kernel

/-- An empty queue: a tick, and MTIME stands still before the start (log 1). -/
theorem test_idle : (match step State.reset with | .next t => t.pending == [] | _ => false) = true := by decide +kernel

/-- The command at the front runs and leaves the queue. -/
theorem test_front :
    (match step { W.up with pending := [.disarm W.own (.slc 0), .zeroCrossing] } with
     | .next t => decide (t.pending = [.zeroCrossing])
     | _ => false) = true := by decide +kernel

/-- Every map of the reset state is in canonical form, and every step from a state may be asked for. -/
theorem witness_StepKeepsCanonical_1 : ∃ s t : State, s.Canonical ∧ step s = .next t :=
  ⟨State.reset, _, ⟨rfl, rfl, rfl, rfl, rfl, rfl, rfl, rfl, rfl⟩, rfl⟩

theorem witness_StepRunsFrontCommand_1 : ∃ (s : State) (c : Instr) (r : List Instr), s.pending = c :: r :=
  ⟨{ State.reset with pending := [.zeroCrossing] }, .zeroCrossing, [], rfl⟩
theorem witness_StepRunsFrontCommand_2 : ∃ s : State, s.pending = [] := ⟨State.reset, rfl⟩

theorem witness_OutputsNeverOverlap_1 : ∃ (s t : State) (c : Instr),
    (∀ (n : Slice) (k : Fin 8), ¬((s.pw n k).pinA = true ∧ (s.pw n k).pinB = true)) ∧ exec c s = .next t :=
  ⟨W.chan, _, .pwmValley 0 2, by decide +kernel, rfl⟩
theorem witness_OutputsNeverOverlap_2 : ∃ (s t : State),
    (∀ (n : Slice) (k : Fin 8), ¬((s.pw n k).pinA = true ∧ (s.pw n k).pinB = true)) ∧ step s = .next t :=
  ⟨{ W.chan with pending := [.pwmValley 0 2] }, _, by decide +kernel, rfl⟩

theorem witness_CoreDecodeInjective_1 : ∃ (ps : List Nat) (w w' : Nat) (i : Kn), w < 2 ^ 14 ∧ w' < 2 ^ 14 ∧
    knDecode w ps = some i ∧ knDecode w' ps = some i :=
  ⟨[1], 0x3203, 0x3203, ⟨.ldia, 0, 0x43, 0, 0⟩, by decide +kernel⟩

theorem witness_RingsAndDoorbells_14 : ∃ (s : State) (g : Func) (r : Fin 8), s.fetchTurn = some (g, r) :=
  ⟨((W.fn []).setF (R.RNG_SQ_CFG 1 2) F.RNG_SQ_CFG_EN 1).setF (R.RNG_SQ_HEAD 1 2) F.RNG_SQ_HEAD_TAIL 3, 1, 2, by decide +kernel⟩
theorem witness_RegisterAccess_4 : ∃ (s : State) (x : Access) (a : Nat) (v : Word), s.takesWrite x a = true ∧
    s.unreserved x a = false :=
  ⟨W.up.setCore 1 { W.up.coreOf 1 with lock := some ⟨1, some R.PWR_STAT, true⟩ }, W.sys, R.PWR_STAT, 0, by decide +kernel⟩

theorem witness_TagArithmetic_1 : ∃ (sub : Bool) (a : BitVec 40) (m : Word),
    (if sub then a.toInt - m.toInt else a.toInt + m.toInt) < 2 ^ 39 ∧
    -(2 ^ 39) ≤ (if sub then a.toInt - m.toInt else a.toInt + m.toInt) := ⟨true, 0xFF80000000, 0x7FFFFFFF, by decide⟩
theorem witness_TagArithmetic_3 : ∃ t : BitVec 4, t = tagAddr ∨ t = tagCode ∨ t = tagTime := ⟨tagTime, by decide⟩
theorem witness_TagArithmetic_6 : ∃ (a : BitVec 40) (x m : Word),
    (a.toInt + max (-(2 ^ 39)) (min (2 ^ 39 - 1) ((x.toInt * m.toInt + 2 ^ 30) / 2 ^ 31))) < 2 ^ 39 ∧
    -(2 ^ 39) ≤ (a.toInt + max (-(2 ^ 39)) (min (2 ^ 39 - 1) ((x.toInt * m.toInt + 2 ^ 30) / 2 ^ 31))) :=
  ⟨5, 0x80000000, 0x40000000, by decide +kernel⟩
theorem witness_TagArithmetic_8 : ∃ t u : BitVec 4, noValue t = false ∧ noValue u = false ∧ (t = tagRaw ∨ u = tagRaw) :=
  ⟨tagRaw, tagAddr, by decide⟩

theorem witness_ValuesCompare_1 : ∃ a b : Opnd, a.tag = b.tag ∧ (a.tag = tagInt ∨ a.tag = tagQ31) :=
  ⟨⟨5, 5, tagQ31⟩, ⟨6, 6, tagQ31⟩, by decide⟩
theorem witness_ValuesCompare_2 : ∃ a b : Opnd, a.tag = b.tag ∧ (a.tag = tagUint ∨ a.tag = tagAddr ∨ a.tag = tagCode) :=
  ⟨⟨5, 5, tagCode⟩, ⟨6, 6, tagCode⟩, by decide⟩
theorem witness_ValuesCompare_3 : ∃ a b : Opnd, noValue a.tag = false ∧ noValue b.tag = false ∧ (a.tag = tagRaw ∨ b.tag = tagRaw) :=
  ⟨⟨5, 5, tagRaw⟩, ⟨6, 6, tagDesc⟩, by decide⟩
theorem witness_ValuesCompare_4 : ∃ a b : Opnd, a.tag = tagTime ∧ b.tag = tagTime := ⟨⟨5, 5, tagTime⟩, ⟨6, 6, tagTime⟩, by decide⟩

/-! The algorithms of images and frames: FIPS 180-4's example, RFC 6979's P-256 example and the check value of CRC-32. -/

theorem test_sha256 : sha256 [0x61, 0x62, 0x63] = 0xba7816bf8f01cfea414140de5dae2223b00361a396177a9cb410ff61f20015ad := by
  decide +kernel
theorem test_ecdsa :
    ecdsaOk 0x60FED4BA255A9D31C961EB74C6356D68C049B8923B61FA6CE669622E60F29FB6
      0x7903FE1008B8BC99A41AE9E95628BC64F2F1B20C2D7E9F5177A3C294D4462299
      (sha256 [0x73, 0x61, 0x6D, 0x70, 0x6C, 0x65]).toNat
      0xEFD48B2AACB6A8FD1140DD9CD45E81D69D2C877B56AAF991C34D0EA84EAF3716
      0xF7CB1C942D657C41D436C7A1B6E29F65F3E900DBB9AFF4064DC4AB2F843ACDA8 = true := by decide +kernel
theorem test_crc32 : crc32 [0x31, 0x32, 0x33, 0x34, 0x35, 0x36, 0x37, 0x38, 0x39] = 0xCBF43926 := by decide +kernel

/-! Witnesses: states and operands that meet the hypotheses of each statement, clause by clause. -/

theorem witness_ArmingAndDisarming_1 : ∃ (s : State) (x : Access) (n : Slice) (off : BitVec 12), (s.reaches x (R.SLC_ARM n)
= true) ∧ (off.getLsbD n = false) ∧ ((s.ctlOf n).disarmAt ≠ some s.clock) ∧ (s.fitted n = true) ∧ (s.mode = mdIsland ∨
s.mode = mdHosted ∨ s.mode = mdTwin) ∧ (s.slState n = slRunning) ∧ (s.isSet R.PWR_STAT F.PWR_STAT_HOLDUP_READY = true) ∧
((s.ctlOf n).fencing = false) ∧ (s.armed n = false) :=
  ⟨W.up, W.own, 0, 0, by decide +kernel⟩

theorem witness_ArmingAndDisarming_2 : ∃ (s : State) (x : Access) (mask off : BitVec 12) (n : Slice), (s.reaches x
R.DEV_ARM = true) ∧ (mask.getLsbD n = true) ∧ (off.getLsbD n = false) ∧ ((s.ctlOf n).disarmAt ≠ some s.clock) ∧ (s.fitted n
= true) ∧ (s.mode = mdIsland ∨ s.mode = mdHosted ∨ s.mode = mdTwin) ∧ (s.slState n = slRunning) ∧ (s.isSet R.PWR_STAT
F.PWR_STAT_HOLDUP_READY = true) ∧ ((s.ctlOf n).fencing = false) :=
  ⟨W.up, W.sys, 1, 2, 0, by decide +kernel⟩

theorem witness_ArmingAndDisarming_3 : ∃ (s : State) (x : Access) (n : Slice) (off : BitVec 12), (s.reaches x (R.SLC_ARM n)
= true) ∧ (off.getLsbD n = false) ∧ ((s.ctlOf n).disarmAt ≠ some s.clock) ∧ (s.fitted n = true) ∧ (s.mode = mdIsland ∨
s.mode = mdHosted ∨ s.mode = mdTwin) ∧ (s.slState n = slReady ∨ s.slState n = slRecovering ∨ (s.slState n = slRunning ∧
s.isSet R.PWR_STAT F.PWR_STAT_HOLDUP_READY = false)) ∧ ((s.ctlOf n).fencing = false) ∧ (s.armed n = false) :=
  ⟨W.up.setF R.PWR_STAT F.PWR_STAT_HOLDUP_READY 0, W.own, 0, 0, by decide +kernel⟩

theorem witness_ArmingAndDisarming_4 : ∃ (s : State) (x : Access) (n : Slice) (off : BitVec 12), (s.reaches x (R.SLC_ARM n)
= true) ∧ (off.getLsbD n = false) ∧ ((s.ctlOf n).disarmAt ≠ some s.clock) ∧ (s.fitted n = true) ∧ (s.mode = mdStart ∨
s.mode = mdStabled ∨ s.mode = mdService ∨ s.mode = mdHil ∨ s.slState n = slOff ∨ s.slState n = slFenced ∨ s.slState n =
slSafe) ∧ (s.armed n = false) :=
  ⟨W.up.setSl 0 slFenced, W.own, 0, 0, by decide +kernel⟩

theorem witness_ArmingAndDisarming_5 : ∃ (s : State) (x : Access) (mask off : BitVec 12) (n : Slice), (s.reaches x
R.DEV_ARM = true) ∧ (mask.getLsbD n = true) ∧ (off.getLsbD n = false) ∧ ((s.ctlOf n).disarmAt ≠ some s.clock) ∧ (s.fitted n
= false) :=
  ⟨{ W.up with part := .esk7208 }, W.sys, 0x800, 0, 11, by decide +kernel⟩

theorem witness_ArmingAndDisarming_6 : ∃ (s : State) (x : Access) (n : Slice) (off : BitVec 12), (s.reaches x (R.SLC_ARM n)
= true) ∧ (off.getLsbD n = true) ∧ (s.armed n = false) :=
  ⟨W.up, W.own, 0, 1, by decide +kernel⟩

theorem witness_ArmingAndDisarming_7 : ∃ (s : State) (x : Access) (mask off : BitVec 12) (n : Slice), (s.reaches x
R.DEV_ARM = true) ∧ (off.getLsbD n = true) ∧ (s.armed n = false) :=
  ⟨W.up, W.sys, 1, 1, 0, by decide +kernel⟩

theorem witness_ArmingAndDisarming_8 : ∃ (s : State) (n : Slice), (s.armPend n = true) ∧ (s.fitted n = true) ∧ (s.mode =
mdIsland ∨ s.mode = mdHosted ∨ s.mode = mdTwin) ∧ (s.slState n = slRunning) ∧ (s.isSet R.PWR_STAT F.PWR_STAT_HOLDUP_READY =
true) ∧ ((s.ctlOf n).fencing = false) :=
  ⟨W.up.setArmPend 0 true, 0, by decide +kernel⟩

theorem witness_ArmingAndDisarming_9 : ∃ (s : State) (x : Access) (n : Slice), (s.reaches x (R.SLC_ARM n) = true) ∧
(s.fitted n = true) ∧ (s.mode ≠ mdHil) ∧ (∀ k : Fin 8, s.testOut n k = false) :=
  ⟨W.up.setArmed 0 true, W.own, 0, by decide +kernel⟩

theorem witness_ArmingAndDisarming_10 : ∃ (s : State) (x : Access) (mask : BitVec 12) (n : Slice), (s.reaches x
R.DEV_DISARM = true) ∧ (mask.getLsbD n = true) ∧ (s.fitted n = true) ∧ (s.mode ≠ mdHil) ∧ (∀ k : Fin 8, s.testOut n k =
false) :=
  ⟨W.up.setArmed 0 true, W.sys, 1, 0, by decide +kernel⟩

theorem witness_ModeChanges_1 : ∃ (s : State) (x : Access) (v : Word), (s.reaches x R.DEV_MODE_REQ = true) ∧
(F.DEV_MODE_REQ_KEY.get v = 0x4D0D) ∧ (F.DEV_MODE_REQ_TARGET.get v = mdHosted) ∧ (s.isSet R.DEV_MODE F.DEV_MODE_CHANGING =
false) ∧ (s.mode = mdIsland) :=
  ⟨W.up.setF R.DEV_MODE F.DEV_MODE_MODE 2, W.sys, 0x4D0D0003, by decide +kernel⟩

theorem witness_ModeChanges_2 : ∃ (s : State) (x : Access) (v : Word), (s.reaches x R.DEV_MODE_REQ = true) ∧
(F.DEV_MODE_REQ_KEY.get v ≠ 0x4D0D) :=
  ⟨W.up, W.sys, 0x00000003, by decide +kernel⟩

theorem witness_ModeChanges_3 : ∃ (s : State) (g : Fin 6), (s.modeReq = some g.val) ∧ (g.val ≠ mdStabled) :=
  ⟨{ W.up with modeReq := some 2 }, 2, by decide +kernel⟩

theorem witness_ModeChanges_4 : ∃ (s : State), (s.modeReq = some mdStabled) :=
  ⟨{ W.up with modeReq := some 0 }, by decide +kernel⟩

theorem witness_ModeChanges_5 : ∃ (s : State) (j : Fin 10) (also : BitVec 10) (b : BootTests), (natBit (s.getF
R.AON_WAKE_EN F.AON_WAKE_EN_SRC) j = true) ∧ (s.wakeFires j = true) ∧ (s.modeReq = some mdStabled) :=
  ⟨({ W.up with modeReq := some 0 } : State).setF R.AON_WAKE_EN F.AON_WAKE_EN_SRC 1, 0, 0, W.tests, by decide +kernel⟩

theorem witness_ModeChanges_6 : ∃ (s : State) (j : Fin 10) (also : BitVec 10) (b : BootTests), (natBit (s.getF
R.AON_WAKE_EN F.AON_WAKE_EN_SRC) j = true) ∧ (s.wakeFires j = true) ∧ (s.modeReq = none) ∧ (s.mode = mdStabled) ∧ (s.isSet
R.DEV_BOOT_STAT F.DEV_BOOT_STAT_DONE = true) ∧ (s.sec.event = false) ∧ (b.sysInj.pass = true) :=
  ⟨((W.up.setF R.DEV_MODE F.DEV_MODE_MODE 0).setF R.DEV_MODE F.DEV_MODE_PREV 2).setF R.AON_WAKE_EN F.AON_WAKE_EN_SRC 1, 0,
  0, W.tests, by decide +kernel⟩

theorem witness_ModeChanges_7 : ∃ (s : State) (b : BootTests), (s.mode = mdStart) ∧ (s.modeReq = none) ∧ (2500 <
b.vin.toNat) ∧ (b.strap = 0) :=
  ⟨State.reset, { W.tests with strap := 0 }, by decide +kernel⟩

theorem witness_ModeChanges_8 : ∃ (s : State) (b : BootTests), (s.mode = mdStart) ∧ (s.modeReq = none) ∧ (2500 <
b.vin.toNat) ∧ (b.strap ≠ 0) ∧ (s.flc = resetFlc) ∧ (s.sec = resetSec) :=
  ⟨State.reset, W.tests, by decide +kernel⟩

theorem witness_SliceOwnershipAndFence_1 : ∃ (s : State) (x : Access) (n : Slice) (v : Word), (s.reaches x
(R.DEV_SLC_ASSIGN n) = true) ∧ (x.m.isSys = true) ∧ (s.fitted n = true) ∧ (F.DEV_SLC_ASSIGN_OWNER.get v = 0 ∨
F.DEV_SLC_ASSIGN_OWNER.get v = 0x1F ∨ (F.DEV_SLC_ASSIGN_OWNER.get v < 16 ∧ s.vfExists (F.DEV_SLC_ASSIGN_OWNER.get v) =
true)) ∧ (s.slState n = slOff ∨ s.slState n = slFenced) ∧ ((s.ctlOf n).fencing = false) :=
  ⟨W.up.setSl 0 slFenced, W.sys, 0, 0x1F, by decide +kernel⟩

theorem witness_SliceOwnershipAndFence_2 : ∃ (s : State) (x : Access) (n : Slice) (key : BitVec 16), (s.reaches x
(R.SLC_CMD n) = true) ∧ (s.fitted n = true) ∧ (key = 0x5C1E) ∧ (s.mayCmd x.m n 1 = true) ∧ (s.slState n = slReady ∨
s.slState n = slRunning ∨ s.slState n = slSafe) ∧ ((s.ctlOf n).fencing = false) ∧ (s.isSet (R.SLC_CMD_STAT n)
F.SLC_CMD_STAT_HELD = false) :=
  ⟨W.up, W.own, 0, 0x5C1E, by decide +kernel⟩

theorem witness_SliceOwnershipAndFence_3 : ∃ (s : State) (x : Access) (n : Slice) (key : BitVec 16) (tw : Bool), (s.reaches
x (R.SLC_CMD n) = true) ∧ (s.fitted n = true) ∧ (key = 0x5C1E) ∧ (s.mayCmd x.m n 1 = true) ∧ (s.slState n = slRecovering) ∧
((s.ctlOf n).fencing = false) ∧ (s.isSet (R.SLC_CMD_STAT n) F.SLC_CMD_STAT_HELD = false) ∧ (tw = true → s.twinReady n =
true) :=
  ⟨W.up.setSl 0 slRecovering, W.sys, 0, 0x5C1E, false, by decide +kernel⟩

theorem witness_SliceOwnershipAndFence_4 : ∃ (s : State) (n : Slice), (s.fitted n = true) ∧ ((s.ctlOf n).fencing = true) ∧
(s.slState n = slReady ∨ s.slState n = slRunning ∨ s.slState n = slSafe) ∧ (s.atRest n = true) ∧ (s.isSet (R.SLC_STATE n)
F.SLC_STATE_BANK_PENDING = false) ∧ ((s.ctlOf n).fenceCause < 16) :=
  ⟨W.up.setCtl 0 { resetCtl with fencing := true, fenceCause := 1 }, 0, by decide +kernel⟩

theorem witness_SliceCommandsToRunAndStop_1 : ∃ (s : State) (x : Access) (n : Slice) (key : BitVec 16), (s.reaches x
(R.SLC_CMD n) = true) ∧ (s.fitted n = true) ∧ (key = 0x5C1E) ∧ (s.ownerIs n x.m = true) ∧ (s.slState n = slFenced) ∧
(s.cmdBusy n = false) ∧ ((s.ctlOf n).image = true) ∧ ((s.ctlOf n).diverged = false) :=
  ⟨(W.up.setSl 0 slFenced).setCtl 0 { resetCtl with image := true }, W.own, 0, 0x5C1E, by decide +kernel⟩

theorem witness_SliceCommandsToRunAndStop_2 : ∃ (s : State) (x : Access) (n : Slice) (key : BitVec 16), (s.reaches x
(R.SLC_CMD n) = true) ∧ (s.fitted n = true) ∧ (key = 0x5C1E) ∧ (s.ownerIs n x.m = true) ∧ (s.slState n = slFenced) ∧
(s.cmdBusy n = false) ∧ ((s.ctlOf n).image = false) :=
  ⟨(W.up.setSl 0 slFenced), W.own, 0, 0x5C1E, by decide +kernel⟩

theorem witness_SliceCommandsToRunAndStop_3 : ∃ (s : State) (n : Slice), (s.fitted n = true) ∧ ((s.ctlOf n).resuming =
true) ∧ (s.storeOk n = true) ∧ (∀ f : Func, (s.fnOf f).flights = []) :=
  ⟨(W.up.setSl 0 slFenced).setCtl 0 { resetCtl with image := true, resuming := true }, 0, by decide +kernel⟩

theorem witness_SliceCommandsToRunAndStop_4 : ∃ (s : State) (n : Slice), (s.fitted n = true) ∧ ((s.ctlOf n).resuming =
true) ∧ (s.storeOk n = false) :=
  ⟨((W.up.setSl 0 slFenced).setCtl 0 { resetCtl with image := true, resuming := true }).setUword 0 5 1, 0, by
  decide +kernel⟩

theorem witness_SliceCommandsToRunAndStop_5 : ∃ (s : State) (x : Access) (n : Slice) (key : BitVec 16), (s.reaches x
(R.SLC_CMD n) = true) ∧ (s.fitted n = true) ∧ (key = 0x5C1E) ∧ (s.ownerIs n x.m = true) ∧ (s.slState n = slReady) ∧
(s.cmdBusy n = false) :=
  ⟨(W.up.setSl 0 slReady), W.own, 0, 0x5C1E, by decide +kernel⟩

theorem witness_SliceCommandsToRunAndStop_6 : ∃ (s : State) (n : Slice), (s.fitted n = true) ∧ ((s.ctlOf n).goPending =
true) ∧ (s.slState n = slReady) ∧ (s.atValley n 0 = true) :=
  ⟨(((W.up.setSl 0 slReady).setCtl 0 { resetCtl with goPending := true }).setF (R.PWM_CTRL 0 0) F.PWM_CTRL_EN 1).setF
  (R.PWM_CNT 0 0) F.PWM_CNT_DIR 1 |>.setReg (R.PWM_ACT_PER 0 0) 1000 |> W.later 2000, 0, by decide +kernel⟩

theorem witness_SliceCommandsToRunAndStop_7 : ∃ (s : State) (x : Access) (n : Slice) (key : BitVec 16), (s.reaches x
(R.SLC_CMD n) = true) ∧ (s.fitted n = true) ∧ (key = 0x5C1E) ∧ (s.ownerIs n x.m = true) ∧ (s.slState n = slFenced) ∧
(s.cmdBusy n = false) :=
  ⟨W.up.setSl 0 slFenced, W.own, 0, 0x5C1E, by decide +kernel⟩

theorem witness_SliceCommandsToRunAndStop_8 : ∃ (s : State) (n : Slice) (r : InjRun), (s.fitted n = true) ∧ ((s.ctlOf
n).restarting = true) ∧ ((s.ctlOf n).testDiv = false) ∧ (r.pass = true) ∧ (∀ f : Func, (s.fnOf f).flights = []) :=
  ⟨(W.up.setSl 0 slFenced).setCtl 0 { resetCtl with restarting := true }, 0, ⟨false, 0, false, 0, false, 0⟩, by
  decide +kernel⟩

theorem witness_SliceCommandsToRunAndStop_9 : ∃ (s : State) (n : Slice) (r : InjRun), (s.fitted n = true) ∧ ((s.ctlOf
n).restarting = true) ∧ (r.pass = true) :=
  ⟨(W.up.setSl 0 slFenced).setCtl 0 { resetCtl with restarting := true }, 0, ⟨false, 0, false, 0, false, 0⟩, by
  decide +kernel⟩

theorem witness_SliceCommandsToRunAndStop_10 : ∃ (s : State) (x : Access) (n : Slice) (key : BitVec 16), (s.reaches x
(R.SLC_CMD n) = true) ∧ (s.fitted n = true) ∧ (key = 0x5C1E) ∧ (s.ownerIs n x.m = true) ∧ (s.slState n = slFenced) ∧
(s.cmdBusy n = false) :=
  ⟨W.up.setSl 0 slFenced, W.own, 0, 0x5C1E, by decide +kernel⟩

theorem witness_GorgeWindows_1 : ∃ (s : State) (n i : Slice), (s.powered n = true) ∧ (s.isSet (R.GRG_WCFG n i)
F.GRG_WCFG_EN = true) ∧ (s.isSet (R.GRG_WCFG n i) F.GRG_WCFG_HIGH_EN = true) ∧ (s.testSel n i = 0) ∧ ((s.win n i).settling
= false) ∧ (s.loSettled n i = true) ∧ (s.isSet (R.GRG_WSTAT n i) F.GRG_WSTAT_CFG_ERR = false) :=
  ⟨(W.win 7).setWin 0 3 { resetWin with loDone := true }, 0, 3, by decide +kernel⟩

theorem witness_GorgeWindows_2 : ∃ (s : State) (n i : Slice) (b : Bool), (s.powered n = true) ∧ (s.isSet (R.GRG_WCFG n i)
F.GRG_WCFG_EN = true) ∧ (s.isSet (R.GRG_WCFG n i) F.GRG_WCFG_LOW_EN = true) ∧ (s.testSel n i = 0) ∧ ((s.win n i).settling =
false) :=
  ⟨(W.win 7), 0, 3, true, by decide +kernel⟩

theorem witness_GorgeWindows_3 : ∃ (s : State) (n i : Slice) (b : Bool) (lo : Option Bool), (s.powered n = true) ∧ ((s.win
n i).settling = true) ∧ (s.isSet (R.GRG_WCFG n i) F.GRG_WCFG_EN = true) ∧ (s.isSet (R.GRG_WCFG n i) F.GRG_WCFG_HIGH_EN =
true) ∧ (s.testSel n i = 0) :=
  ⟨(W.win 7).setWin 0 3 { resetWin with settling := true }, 0, 3, true, none, by decide +kernel⟩

theorem witness_GorgeWindows_4 : ∃ (s : State) (n i : Slice), (s.powered n = true) :=
  ⟨W.up, 0, 3, by decide +kernel⟩

theorem witness_GorgeWindows_5 : ∃ (s : State) (x : Access) (n i : Slice) (v : Word), (s.reaches x (R.GRG_WCFG n i) = true)
∧ (s.fitted n = true) ∧ (s.slState n = slFenced) ∧ (hasOutside v 0x0000FE77 = false) ∧ (F.GRG_WCFG_EN.get v = 1) ∧ (s.isSet
(R.GRG_WCFG n i) F.GRG_WCFG_EN = false) :=
  ⟨W.up.setSl 0 slFenced, W.own, 0, 3, 7, by decide +kernel⟩

theorem witness_GorgeWindows_6 : ∃ (s : State) (x : Access) (n i : Slice) (v : Word), (s.reaches x (R.GRG_WCFG n i) = true)
∧ (s.fitted n = true) ∧ (s.slState n ≠ slFenced) :=
  ⟨W.up, W.own, 0, 3, 7, by decide +kernel⟩

theorem witness_GorgeWindows_7 : ∃ (s : State) (x : Access) (n i : Slice) (v : Word), (s.reaches x (R.GRG_IN n i) = true) ∧
(s.fitted n = true) ∧ (s.slState n = slFenced) ∧ (hasOutside v 0x80000001 = false) ∧ (F.GRG_IN_MODE.get v ≠ s.getF
(R.GRG_IN n i) F.GRG_IN_MODE) :=
  ⟨W.up.setSl 0 slFenced, W.own, 0, 3, 1, by decide +kernel⟩

theorem witness_GorgeWindows_8 : ∃ (s : State) (x : Access) (n i : Slice) (v : Word), (s.reaches x (R.GRG_THR n i) = true)
∧ (s.fitted n = true) ∧ (s.slState n = slFenced ∨ s.slState n = slReady ∨ s.slState n = slRunning) ∧ (hasOutside v
0x0FFF0FFF = false) :=
  ⟨W.up, W.own, 0, 3, 0x08000400, by decide +kernel⟩

theorem witness_GorgeWindows_9 : ∃ (s : State) (n i : Slice), ((s.win n i).hiStaged = true) :=
  ⟨(W.win 7).setWin 0 3 { resetWin with hiStaged := true }, 0, 3, by decide +kernel⟩

theorem witness_GorgeWindows_10 : ∃ (s : State) (x : Access) (n i : Slice) (v : Word) (hi lo : Option Bool), (s.reaches x
(R.GRG_TEST n i) = true) ∧ (s.fitted n = true) ∧ (1 ≤ F.GRG_TEST_TEST_SEL.get v) ∧ (F.GRG_TEST_TEST_SEL.get v ≤ 4) ∧
(F.GRG_TEST_TRIP_MASK.get v = 1) :=
  ⟨W.up, W.own, 0, 3, (F.GRG_TEST_TRIP_MASK.word 1 ||| F.GRG_TEST_TEST_SEL.word 2), none, none, by decide +kernel⟩

theorem witness_SarConverters_1 : ∃ (s : State) (n : Slice) (k : Fin 4) (extra : Fin 8), (s.getF (R.SAR_TRIG n k)
F.SAR_TRIG_SRC = 2) ∧ (s.atPhasePoint n k = true) ∧ (s.fitted n = true) ∧ (s.slState n = slReady ∨ s.slState n = slRunning)
∧ (s.sarLen n k ≠ 0) ∧ ((s.sr n k).phase = .idle) ∧ ((s.sr n k).endAt ≠ some s.clock) :=
  ⟨W.phase, 0, 1, 0, by decide +kernel⟩

theorem witness_SarConverters_2 : ∃ (s : State) (n : Slice) (k : Fin 4), (s.getF (R.SAR_TRIG n k) F.SAR_TRIG_SRC = 2) ∧
(s.atPhasePoint n k = true) ∧ (s.fitted n = true) ∧ (s.slState n = slReady ∨ s.slState n = slRunning) ∧ (s.sarLen n k ≠ 0)
∧ ((s.sr n k).phase ≠ .idle) ∧ ((s.sr n k).idleAt ≠ some s.clock) ∧ (s.isSet (R.SAR_STAT n k) F.SAR_STAT_PEND = false) :=
  ⟨((W.phase)).setSr 0 1 { resetSar with phase := .acq 0 1 }, 0, 1, by decide +kernel⟩

theorem witness_SarConverters_3 : ∃ (s : State) (n : Slice) (k : Fin 4), (s.getF (R.SAR_TRIG n k) F.SAR_TRIG_SRC = 2) ∧
(s.atPhasePoint n k = true) ∧ (s.fitted n = true) ∧ (s.slState n = slReady ∨ s.slState n = slRunning) ∧ (s.sarLen n k ≠ 0)
∧ ((s.sr n k).phase ≠ .idle) ∧ ((s.sr n k).idleAt ≠ some s.clock) ∧ (s.isSet (R.SAR_STAT n k) F.SAR_STAT_PEND = true) :=
  ⟨((W.phase).setF (R.SAR_STAT 0 1) F.SAR_STAT_PEND 1).setSr 0 1 { resetSar with phase := .acq 0 1 }, 0, 1, by
  decide +kernel⟩

theorem witness_SarConverters_4 : ∃ (s : State) (n : Slice) (k : Fin 4) (extra : Fin 8), (s.getF (R.SAR_TRIG n k)
F.SAR_TRIG_SRC = 2) ∧ (s.atPhasePoint n k = true) ∧ (s.fitted n = true) ∧ (s.slState n = slReady ∨ s.slState n = slRunning)
∧ (s.sarLen n k ≠ 0) ∧ ((s.sr n k).phase ≠ .idle) ∧ ((s.sr n k).idleAt = some s.clock) :=
  ⟨(W.phase).setSr 0 1 { resetSar with phase := .acq 0 1, idleAt := some 0 }, 0, 1, 2, by decide +kernel⟩

theorem witness_SarConverters_5 : ∃ (s : State) (x : Access) (n : Slice) (k : Fin 4), (s.reaches x (R.SAR_SWTRIG n k) =
true) ∧ (s.fitted n = true) ∧ (s.slState n = slReady ∨ s.slState n = slRunning ∨ s.slState n = slFenced) ∧ (s.sarLen n k ≠
0) ∧ ((s.sr n k).phase = .idle) :=
  ⟨(W.phase).setSl 0 slFenced, W.own, 0, 1, by decide +kernel⟩

theorem witness_SarConverters_6 : ∃ (s : State) (n : Slice) (k : Fin 4) (code : BitVec 16) (e i b : Nat), ((s.sr n k).phase
= .acq e i) ∧ (s.mode ≠ mdHil) ∧ (b = 12 + 2 * s.getF (R.SAR_ENT n k e) F.SAR_ENT_RES) :=
  ⟨(W.up.setF (R.SAR_ENT 0 1 0) F.SAR_ENT_RES 0).setSr 0 1 { resetSar with phase := .acq 0 1 }, 0, 1, 0x0FFF, 0, 1, 12, by
  decide +kernel⟩

theorem witness_SarConverters_7 : ∃ (s : State) (n : Slice) (k : Fin 4) (e : Nat) (x : Int) (cal time : Word), ((s.sr n
k).phase = .conv e x false cal time) ∧ (s.sarLen n k ≤ e + 1) ∧ (s.isSet (R.SAR_STAT n k) F.SAR_STAT_PEND = false) :=
  ⟨(W.up.setF (R.SAR_TRIG 0 1) F.SAR_TRIG_LEN 1).setSr 0 1 { resetSar with phase := .conv 0 1000 false 0x80000010 5 }, 0,
  1, 0, 1000, 0x80000010, 5, by decide +kernel⟩

theorem witness_SarConverters_8 : ∃ (s : State) (n : Slice) (k : Fin 4) (r : SarRes) (l : List SarRes) (j : Fin 16),
(s.fitted n = true) ∧ (s.slState n = slFenced ∨ s.slState n = slReady ∨ s.slState n = slRunning) ∧ ((s.sr n k).results = r
:: l) ∧ (r.e < 6) ∧ (s.getF (R.SAR_ENT n k r.e) F.SAR_ENT_DEST = 1) ∧ (s.getF (R.SAR_ENT n k r.e) F.SAR_ENT_LOOP = j.val) ∧
(s.isSet (R.SAR_ENT n k r.e) F.SAR_ENT_TRIG_LOOP = false) :=
  ⟨((W.up.setF (R.SAR_ENT 0 1 0) F.SAR_ENT_DEST 1).setF (R.SAR_ENT 0 1 0) F.SAR_ENT_LOOP 3).setSr 0 1
  { resetSar with results := [⟨0, 5, 6, 7⟩] }, 0, 1, ⟨0, 5, 6, 7⟩, [], 3, by decide +kernel⟩

theorem witness_SarConverters_9 : ∃ (s : State) (n : Slice) (k : Fin 4) (r : SarRes) (l : List SarRes) (j : Fin 16),
(s.fitted n = true) ∧ (s.slState n = slFenced ∨ s.slState n = slReady ∨ s.slState n = slRunning) ∧ ((s.sr n k).results = r
:: l) ∧ (r.e < 6) ∧ (s.getF (R.SAR_ENT n k r.e) F.SAR_ENT_DEST = 1) ∧ (s.getF (R.SAR_ENT n k r.e) F.SAR_ENT_LOOP = j.val) ∧
(s.isSet (R.SAR_ENT n k r.e) F.SAR_ENT_TRIG_LOOP = false) :=
  ⟨((W.up.setF (R.SAR_ENT 0 1 0) F.SAR_ENT_DEST 1).setF (R.SAR_ENT 0 1 0) F.SAR_ENT_LOOP 3).setSr 0 1
  { resetSar with results := [⟨0, 5, 6, 7⟩] }, 0, 1, ⟨0, 5, 6, 7⟩, [], 3, by decide +kernel⟩

theorem witness_SarConverters_10 : ∃ (s : State) (n : Slice) (k : Fin 4) (r : Rec) (q : List Rec) (a : Nat), ((s.sr n
k).queue = r :: q) ∧ (a = smem n (8 * s.getF (R.SAR_MBUF n k) F.SAR_MBUF_BASE + 8 * s.getF (R.SAR_MIDX n k)
F.SAR_MIDX_INDEX)) :=
  ⟨(W.up.setF (R.SAR_MBUF 0 1) F.SAR_MBUF_LOG2LEN 4).setSr 0 1 { resetSar with queue := [⟨⟨1, tagTime⟩, ⟨2, tagFrac2⟩⟩] },
  0, 1, ⟨⟨1, tagTime⟩, ⟨2, tagFrac2⟩⟩, [], smem 0 0, by decide +kernel⟩

theorem witness_SarConverters_11 : ∃ (s : State) (x : Access) (n : Slice), (s.reaches x (R.SAR_CTRL n) = true) ∧ (s.fitted
n = true) ∧ (s.slState n = slFenced) :=
  ⟨W.up.setSl 0 slFenced, W.own, 0, by decide +kernel⟩

theorem witness_SarConverters_12 : ∃ (s : State) (n : Slice) (failed : BitVec 4), (s.isSet (R.SAR_CTRL n)
F.SAR_CTRL_SELFCAL = true) :=
  ⟨W.up.setF (R.SAR_CTRL 0) F.SAR_CTRL_SELFCAL 1, 0, 5, by decide +kernel⟩

theorem witness_LoopTriggersAndIssue_1 : ∃ (s : State) (n : Slice) (j : Fin 16), (s.fitted n = true) ∧ (s.isSet
(R.CLE_LCTRL n j) F.CLE_LCTRL_EN = true) ∧ (s.slState n = slRunning) ∧ ((s.ctlOf n).unmasked = true) ∧ (s.standby n =
false) ∧ (s.qstate n j = 0) :=
  ⟨W.loop, 0, 3, by decide +kernel⟩

theorem witness_LoopTriggersAndIssue_2 : ∃ (s : State) (n : Slice) (j : Fin 16), (s.fitted n = true) ∧ (s.isSet
(R.CLE_LCTRL n j) F.CLE_LCTRL_EN = true) ∧ (s.slState n = slRunning) ∧ ((s.ctlOf n).unmasked = true) ∧ (s.standby n =
false) ∧ (s.qstate n j = 1) :=
  ⟨W.loop.setQ 0 3 1, 0, 3, by decide +kernel⟩

theorem witness_LoopTriggersAndIssue_3 : ∃ (s : State) (x : Access) (n : Slice) (v : Word) (j : Fin 16), (s.reaches x
(R.CLE_SWTRIG n) = true) ∧ (s.fitted n = true) ∧ (v.getLsbD j = true) ∧ (s.isSet (R.CLE_LCTRL n j) F.CLE_LCTRL_EN = true) ∧
(s.slState n = slRunning) ∧ ((s.ctlOf n).unmasked = true) ∧ (s.standby n = false) ∧ (s.qstate n j = 0) :=
  ⟨W.loop, W.own, 0, 0xFFFF, 3, by decide +kernel⟩

theorem witness_LoopTriggersAndIssue_4 : ∃ (s : State) (n : Slice) (j : Fin 16) (at_ : IssueAt), (s.fitted n = true) ∧
(s.slState n = slRunning) ∧ (s.standby n = false) ∧ (s.lowestQueued n = some j) ∧ ((s.cleOf n).blocked = false) ∧ ((s.cleOf
n).stalled s.clock = false) ∧ ((s.cleOf n).seqr.who = .none) ∧ (s.getF (R.CLE_LCTRL n j) F.CLE_LCTRL_ENTRY = 0x010 ∨ s.getF
(R.CLE_LCTRL n j) F.CLE_LCTRL_ENTRY = 0x020) ∧ (parityOk (s.uword n (s.getF (R.CLE_LCTRL n j) F.CLE_LCTRL_ENTRY)) = true)
:=
  ⟨(W.loop.setF (R.CLE_LCTRL 0 3) F.CLE_LCTRL_ENTRY 0x010).setQ 0 3 1, 0, 3, ⟨false, true⟩, by decide +kernel⟩

theorem witness_LoopTriggersAndIssue_5 : ∃ (s : State) (n : Slice) (j : Fin 16), (s.isSet (R.CLE_LCTRL n j) F.CLE_LCTRL_EN
= true) ∧ (s.slState n = slRunning) ∧ (s.standby n = true) :=
  ⟨(W.twin 0 1).setF (R.CLE_LCTRL 0 3) F.CLE_LCTRL_EN 1, 0, 3, by decide +kernel⟩

theorem witness_LoopTriggersAndIssue_6 : ∃ (s : State) (n : Slice) (j : Fin 16) (e l : Nat) (w : MWord) (at_ : IssueAt),
(s.fitted n = true) ∧ (s.slState n = slRunning) ∧ (s.standby n = false) ∧ (s.lowestQueued n = some j) ∧ ((s.cleOf
n).blocked = false) ∧ ((s.cleOf n).stalled s.clock = false) ∧ ((s.cleOf n).seqr.who = .none) ∧ (s.getF (R.CLE_LCTRL n j)
F.CLE_LCTRL_ENTRY = e) ∧ (0x800 ≤ e) ∧ (w = s.uword n e) ∧ (parityOk w = true) ∧ (entryLen w = some l) ∧ (1 < l) ∧ (e <
0xFFF) ∧ (mbits w 15 12 = 0) ∧ (mbits w 118 115 = 0) ∧ (mbits w 90 89 = 0) :=
  ⟨(W.loop.setF (R.CLE_LCTRL 0 3) F.CLE_LCTRL_ENTRY 0x800).setQ 0 3 1 |>.setUword 0 0x800 0x800000000004500000, 0, 3,
  0x800, 5, 0x800000000004500000, ⟨false, true⟩, by decide +kernel⟩

theorem witness_LoopTriggersAndIssue_7 : ∃ (s : State) (n : Slice) (j : Fin 16) (e : Nat) (at_ : IssueAt), (s.fitted n =
true) ∧ (s.slState n = slRunning) ∧ (s.standby n = false) ∧ (s.lowestQueued n = some j) ∧ ((s.cleOf n).blocked = false) ∧
((s.cleOf n).stalled s.clock = false) ∧ ((s.cleOf n).seqr.who = .none) ∧ (s.getF (R.CLE_LCTRL n j) F.CLE_LCTRL_ENTRY = e) ∧
(0x800 ≤ e) ∧ (parityOk (s.uword n e) = true) ∧ (entryLen (s.uword n e) = none) :=
  ⟨(W.loop.setF (R.CLE_LCTRL 0 3) F.CLE_LCTRL_ENTRY 0x800).setQ 0 3 1, 0, 3, 0x800, ⟨false, true⟩, by decide +kernel⟩

theorem witness_LoopTriggersAndIssue_8 : ∃ (s : State) (n : Slice) (j : Fin 16) (p : Snap) (eff : Effects), ((s.cleOf
n).blocked = false) ∧ ((s.cleOf n).stalled s.clock = false) ∧ ((s.cleOf n).seqr.who = .loop j p eff) ∧ (s.getF (R.CLE_LCTRL
n j) F.CLE_LCTRL_ENTRY = 0x010 ∨ s.getF (R.CLE_LCTRL n j) F.CLE_LCTRL_ENTRY = 0x020) ∧ (parityOk (s.uword n (s.cleOf
n).seqr.upc) = true) ∧ ((s.cleOf n).seqr.words + 1 < (s.cleOf n).seqr.len) :=
  ⟨W.seq 9 3 19, 0, 3, W.snap, ⟨false, false, false⟩, by decide +kernel⟩

theorem witness_LoopTriggersAndIssue_9 : ∃ (s : State) (n : Slice) (j : Fin 16) (p : Snap) (eff : Effects) (q : SeqSt) (w :
MWord) (m0 m1 a z : Int), ((s.cleOf n).blocked = false) ∧ ((s.cleOf n).stalled s.clock = false) ∧ ((s.cleOf n).seqr = q) ∧
(q.who = .loop j p eff) ∧ (0x800 ≤ s.getF (R.CLE_LCTRL n j) F.CLE_LCTRL_ENTRY) ∧ (s.uword n q.upc = w) ∧ (parityOk w =
true) ∧ (q.words + 1 ≠ q.len) ∧ (mbits w 118 115 = 0) ∧ (mbits w 15 12 < 6) ∧ (mbits w 15 12 = 3 → q.stack.length < 2) ∧
(mbits w 15 12 = 4 → q.stack ≠ []) ∧ (mbits w 90 89 = 0) ∧ (mbits w 49 47 < 7) ∧ (m0 = operand p q (mbits w 31 27) *
operand p q (mbits w 36 32)) ∧ (m1 = operand p q (mbits w 41 37) * operand p q (mbits w 46 42)) ∧ (a = if mbits w 50 50 = 0
then q.acc0 else q.acc1) ∧ (z = if mbits w 49 47 = 1 then 2 * (m0 + m1) else if mbits w 49 47 = 2 then a + 2 * (m0 + m1)
else if mbits w 49 47 = 3 then 2 * (m0 - m1) else if mbits w 49 47 = 4 then a + 2 * (m0 - m1) else if mbits w 49 47 = 5
then a + operand p q (mbits w 31 27) * 65536 else if mbits w 49 47 = 6 then 0 else a) :=
  ⟨(W.cust 0x800005243598000000 ({ W.q with words := 1 })), 0, 3, W.snap, ⟨false, false, false⟩, { W.q with words := 1 },
  0x800005243598000000, 536854528, 16384000, 6, 1106477062, by decide +kernel⟩

theorem witness_LoopTriggersAndIssue_10 : ∃ (s : State) (n : Slice) (j : Fin 16) (p : Snap) (eff : Effects) (q : SeqSt) (w
: MWord) (a b alu ac rnd : Int) (sh : Nat), ((s.cleOf n).blocked = false) ∧ ((s.cleOf n).stalled s.clock = false) ∧
((s.cleOf n).seqr = q) ∧ (q.who = .loop j p eff) ∧ (0x800 ≤ s.getF (R.CLE_LCTRL n j) F.CLE_LCTRL_ENTRY) ∧ (s.uword n q.upc
= w) ∧ (parityOk w = true) ∧ (q.words + 1 ≠ q.len) ∧ (mbits w 118 115 = 0) ∧ (mbits w 15 12 < 6) ∧ (mbits w 15 12 = 3 →
q.stack.length < 2) ∧ (mbits w 15 12 = 4 → q.stack ≠ []) ∧ (mbits w 90 89 = 0) ∧ ((q.reads.map (·.1)).getD 0 < 8) ∧ (mbits
w 75 72 < 5) ∧ (a = operand p q (mbits w 55 51)) ∧ (b = operand p q (mbits w 60 56)) ∧ (alu = satS 16 (if mbits w 63 61 = 1
then a + b else if mbits w 63 61 = 2 then a - b else if mbits w 63 61 = 3 then -a else if mbits w 63 61 = 4 then max a b
else if mbits w 63 61 = 5 then min a b else if mbits w 63 61 = 6 then a else if mbits w 63 61 = 7 then max a (-a) else 0))
∧ (ac = if mbits w 75 72 < 3 then q.acc0 else q.acc1) ∧ (sh = if mbits w 75 72 = 1 ∨ mbits w 75 72 = 3 then p.shift else
mbits w 79 76) ∧ (rnd = satS 16 ((ac * ((2 ^ sh : Nat) : Int) + 32768) / 65536)) :=
  ⟨(W.cust 0x5148c21a8000000000000 ({ W.q with words := 1, reads := some (6, 77) })), 0, 3, W.snap, ⟨false, false, false⟩,
  { W.q with words := 1, reads := some (6, 77) }, 0x5148c21a8000000000000, 16384, 1000, 17384, 6, 0, 1, by decide +kernel⟩

theorem witness_LoopTriggersAndIssue_11 : ∃ (s : State) (n : Slice) (j : Fin 16) (p : Snap) (eff : Effects) (q : SeqSt) (w
: MWord) (u d x : Int), ((s.cleOf n).blocked = false) ∧ ((s.cleOf n).stalled s.clock = false) ∧ ((s.cleOf n).seqr = q) ∧
(q.who = .loop j p eff) ∧ (0x800 ≤ s.getF (R.CLE_LCTRL n j) F.CLE_LCTRL_ENTRY) ∧ (s.uword n q.upc = w) ∧ (parityOk w =
true) ∧ (q.words + 1 ≠ q.len) ∧ (mbits w 118 115 = 0) ∧ (mbits w 15 12 < 6) ∧ (mbits w 15 12 = 3 → q.stack.length < 2) ∧
(mbits w 15 12 = 4 → q.stack ≠ []) ∧ (mbits w 90 89 = 0) ∧ (mbits w 85 83 = 1) ∧ (p.autoFirst = false) ∧ (p.min ≤ p.max) ∧
(u = q.tr (mbits w 88 86)) ∧ (d = if p.node = 2 then p.d else 0) ∧ (x = if p.manual then satS 16 (p.man + d) else satS 16
(u + d)) :=
  ⟨(W.cust 0x8800000000000000000000 ({ W.q with words := 1 })), 0, 3, W.snap, ⟨false, false, false⟩,
  { W.q with words := 1 }, 0x8800000000000000000000, 12, 0, 12, by decide +kernel⟩

theorem witness_LoopTriggersAndIssue_12 : ∃ (s : State) (n : Slice) (j : Fin 16) (p : Snap) (eff : Effects) (q : SeqSt) (w
: MWord) (c : Bool) (left : Nat), ((s.cleOf n).blocked = false) ∧ ((s.cleOf n).stalled s.clock = false) ∧ ((s.cleOf n).seqr
= q) ∧ (q.who = .loop j p eff) ∧ (0x800 ≤ s.getF (R.CLE_LCTRL n j) F.CLE_LCTRL_ENTRY) ∧ (s.uword n q.upc = w) ∧ (parityOk w
= true) ∧ (q.words + 1 ≠ q.len) ∧ (mbits w 118 115 = 0) ∧ (mbits w 15 12 < 6) ∧ (mbits w 15 12 = 3 → q.stack.length < 2) ∧
(mbits w 15 12 = 4 → q.stack ≠ []) ∧ (mbits w 90 89 = 0) ∧ (q.upc < 0xFFF) ∧ ([true, p.manual, p.autoFirst, decide (q.acc0
< 0), decide (q.acc0 = 0), q.accSat, decide (q.tr 0 < 0), q.clamped, false][mbits w 19 16]? = some c) ∧ (left = if mbits w
15 12 ≠ 5 then 0 else if q.rep = 0 then mbits w 5 0 else q.rep - 1) :=
  ⟨(W.cust 0x800000000000052900 ({ W.q with words := 1 })), 0, 3, W.snap, ⟨false, false, false⟩, { W.q with words := 1 },
  0x800000000000052900, true, 0, by decide +kernel⟩

theorem witness_LoopTriggersAndIssue_13 : ∃ (s : State) (n : Slice) (j : Fin 16) (p : Snap) (eff : Effects) (q : SeqSt) (w
: MWord) (a : Nat) (x : Cell), ((s.cleOf n).blocked = false) ∧ ((s.cleOf n).stalled s.clock = false) ∧ ((s.cleOf n).seqr =
q) ∧ (q.who = .loop j p eff) ∧ (0x800 ≤ s.getF (R.CLE_LCTRL n j) F.CLE_LCTRL_ENTRY) ∧ (s.uword n q.upc = w) ∧ (parityOk w =
true) ∧ (q.words + 1 ≠ q.len) ∧ (mbits w 118 115 = 0) ∧ (mbits w 15 12 < 6) ∧ (mbits w 15 12 = 3 → q.stack.length < 2) ∧
(mbits w 15 12 = 4 → q.stack ≠ []) ∧ (mbits w 90 89 = 1) ∧ (a = smem n (4 * mbits w 107 91)) ∧ ((s.rd a).ue = false) ∧
((s.rd a).c = x) ∧ (x.tag = tagFrac2 ∨ x.tag = tagQ31) :=
  ⟨(W.cust 0x7000020000000000000000000000 ({ W.q with words := 1 })), 0, 3, W.snap, ⟨false, false, false⟩,
  { W.q with words := 1 }, 0x7000020000000000000000000000, 0x02080000, ⟨5, tagFrac2⟩, by decide +kernel⟩

theorem witness_LoopTriggersAndIssue_14 : ∃ (s : State) (n : Slice) (j : Fin 16) (p : Snap) (eff : Effects) (q : SeqSt) (w
: MWord) (a : Nat) (x : Cell), ((s.cleOf n).blocked = false) ∧ ((s.cleOf n).stalled s.clock = false) ∧ ((s.cleOf n).seqr =
q) ∧ (q.who = .loop j p eff) ∧ (0x800 ≤ s.getF (R.CLE_LCTRL n j) F.CLE_LCTRL_ENTRY) ∧ (s.uword n q.upc = w) ∧ (parityOk w =
true) ∧ (q.words + 1 ≠ q.len) ∧ (mbits w 118 115 = 0) ∧ (mbits w 15 12 < 6) ∧ (mbits w 15 12 = 3 → q.stack.length < 2) ∧
(mbits w 15 12 = 4 → q.stack ≠ []) ∧ (mbits w 90 89 = 1) ∧ (a = smem n (4 * mbits w 107 91)) ∧ ((s.rd a).ue = false) ∧
((s.rd a).c = x) ∧ (x.tag ≠ tagFrac2 ∧ x.tag ≠ tagQ31) :=
  ⟨(W.cust 0x8000000070000a0000000000000000000000 ({ W.q with words := 1 })), 0, 3, W.snap, ⟨false, false, false⟩,
  { W.q with words := 1 }, 0x8000000070000a0000000000000000000000, 0x02080004, ⟨0, tagEmpty⟩, by decide +kernel⟩

theorem witness_LoopTriggersAndIssue_15 : ∃ (s : State) (n : Slice) (j : Fin 16) (p : Snap) (eff : Effects) (q : SeqSt) (w
: MWord), ((s.cleOf n).blocked = false) ∧ ((s.cleOf n).stalled s.clock = false) ∧ ((s.cleOf n).seqr = q) ∧ (q.who = .loop j
p eff) ∧ (0x800 ≤ s.getF (R.CLE_LCTRL n j) F.CLE_LCTRL_ENTRY) ∧ (s.uword n q.upc = w) ∧ (parityOk w = true) ∧ (mbits w 15
12 = 6) ∧ (q.words + 1 = q.len) ∧ (mbits w 118 115 = 1) ∧ (mbits w 90 89 = 0) ∧ (mbits w 85 83 = 0) ∧ (q.hadClamp = true)
:=
  ⟨(W.cust 0x8000010a0000000000000000000000006000 ({ W.q with words := 8, hadClamp := true, cy := 9 })), 0, 3, W.snap,
  ⟨false, false, false⟩, { W.q with words := 8, hadClamp := true, cy := 9 }, 0x8000010a0000000000000000000000006000, by
  decide +kernel⟩

theorem witness_LoopTriggersAndIssue_16 : ∃ (s : State) (n : Slice) (j : Fin 16) (p : Snap) (eff : Effects) (q : SeqSt) (w
: MWord) (u y : Int), ((s.cleOf n).blocked = false) ∧ ((s.cleOf n).stalled s.clock = false) ∧ ((s.cleOf n).seqr = q) ∧
(q.who = .loop j p eff) ∧ (0x800 ≤ s.getF (R.CLE_LCTRL n j) F.CLE_LCTRL_ENTRY) ∧ (s.uword n q.upc = w) ∧ (parityOk w =
true) ∧ (mbits w 15 12 = 6) ∧ (q.words + 1 = q.len) ∧ (mbits w 118 115 = 1) ∧ (mbits w 90 89 = 0) ∧ (mbits w 85 83 = 1) ∧
(p.autoFirst = false) ∧ (p.manual = false) ∧ (p.node ≠ 2) ∧ (p.min ≤ p.max) ∧ (u = q.tr (mbits w 88 86)) ∧ (y = if p.max <
satS 16 u then p.max else if satS 16 u < p.min then p.min else satS 16 u) :=
  ⟨(W.cust 0x800001090000008800000000000000006000 ({ W.q with words := 8 })), 0, 3, W.snap, ⟨false, false, false⟩,
  { W.q with words := 8 }, 0x800001090000008800000000000000006000, 12, 12, by decide +kernel⟩

theorem witness_LoopTriggersAndIssue_17 : ∃ (s : State) (n : Slice) (j : Fin 16) (p : Snap) (eff : Effects) (q : SeqSt) (w
: MWord), ((s.cleOf n).blocked = false) ∧ ((s.cleOf n).stalled s.clock = false) ∧ ((s.cleOf n).seqr = q) ∧ (q.who = .loop j
p eff) ∧ (0x800 ≤ s.getF (R.CLE_LCTRL n j) F.CLE_LCTRL_ENTRY) ∧ (s.uword n q.upc = w) ∧ (parityOk w = true) ∧ (mbits w 15
12 = 6) ∧ (q.words + 1 < q.len) :=
  ⟨(W.cust 0x800000080000000000000000000000006000 ({ W.q with words := 1 })), 0, 3, W.snap, ⟨false, false, false⟩,
  { W.q with words := 1 }, 0x800000080000000000000000000000006000, by decide +kernel⟩

theorem witness_VendorControlLaws_1 : ∃ (s : State) (n : Slice) (j : Fin 16) (p : Snap) (eff : Effects) (e P u : Int),
((s.cleOf n).blocked = false) ∧ ((s.cleOf n).stalled s.clock = false) ∧ ((s.cleOf n).seqr.who = .loop j p eff) ∧ (s.getF
(R.CLE_LCTRL n j) F.CLE_LCTRL_ENTRY = 0x010) ∧ (parityOk (s.uword n (s.cleOf n).seqr.upc) = true) ∧ ((s.cleOf n).seqr.words
= 8) ∧ ((s.cleOf n).seqr.len = 9) ∧ (p.manual = false) ∧ (p.autoFirst = false) ∧ (p.node = 3) ∧ (p.min ≤ p.max) ∧ (e = satS
16 (p.ref - p.inp)) ∧ (P = p.b0 * e + p.b1 * p.e1 + p.b2 * p.e2 - p.a1 * p.y1 - p.a2 * p.y2) ∧ (u = satS 16 ((2 * P * ((2 ^
p.shift : Nat) : Int) + 32768) / 65536)) :=
  ⟨W.seq 9 8 24, 0, 3, W.snap, ⟨false, false, false⟩, 1000, 16384000, 2000, by decide +kernel⟩

theorem witness_VendorControlLaws_2 : ∃ (s : State) (n : Slice) (j : Fin 16) (p : Snap) (eff : Effects) (e P u : Int),
((s.cleOf n).blocked = false) ∧ ((s.cleOf n).stalled s.clock = false) ∧ ((s.cleOf n).seqr.who = .loop j p eff) ∧ (s.getF
(R.CLE_LCTRL n j) F.CLE_LCTRL_ENTRY = 0x020) ∧ (parityOk (s.uword n (s.cleOf n).seqr.upc) = true) ∧ ((s.cleOf n).seqr.words
= 10) ∧ ((s.cleOf n).seqr.len = 11) ∧ (p.manual = false) ∧ (p.autoFirst = false) ∧ (p.node = 3) ∧ (p.min ≤ p.max) ∧ (e =
satS 16 (p.ref - p.inp)) ∧ (P = p.b0 * e + p.b1 * p.e1 + p.b2 * p.e2 - p.a1 * p.y1 - p.a2 * p.y2 + p.b3 * p.e3 - p.a3 *
p.y3) ∧ (u = satS 16 ((2 * P * ((2 ^ p.shift : Nat) : Int) + 32768) / 65536)) :=
  ⟨(W.seq 11 10 0x02A).setF (R.CLE_LCTRL 0 3) F.CLE_LCTRL_ENTRY 0x020, 0, 3, W.snap, ⟨false, false, false⟩, 1000, 16384000,
  2000, by decide +kernel⟩

theorem witness_CommitsAndLoopCommands_1 : ∃ (s : State) (n : Slice) (j : Fin 16) (r : CommitRec), (((s.cleOf n).loops.get
j).commit = some r) ∧ (r.compared = false) :=
  ⟨W.port false, 0, 3, W.rcd false, by decide +kernel⟩

theorem witness_CommitsAndLoopCommands_2 : ∃ (s : State) (n : Slice) (j : Fin 16) (r : CommitRec), (s.fitted n = true) ∧
(((s.cleOf n).loops.get j).commit = some r) ∧ (r.compared = false) ∧ (s.slState n = slRunning) :=
  ⟨W.port false, 0, 3, W.rcd false, by decide +kernel⟩

theorem witness_CommitsAndLoopCommands_3 : ∃ (s : State) (n : Slice) (j : Fin 16) (r : CommitRec), (s.fitted n = true) ∧
(((s.cleOf n).loops.get j).commit = some r) ∧ (r.compared = true) ∧ (r.held = none) ∧ (s.getF (R.CLE_TGT n j)
F.CLE_TGT_KIND ≠ 3) :=
  ⟨W.port true, 0, 3, W.rcd true, by decide +kernel⟩

theorem witness_CommitsAndLoopCommands_4 : ∃ (s : State) (n : Slice) (j : Fin 16) (r : CommitRec) (a : Nat), (s.fitted n =
true) ∧ (((s.cleOf n).loops.get j).commit = some r) ∧ (r.compared = true) ∧ (r.held = none) ∧ (s.getF (R.CLE_TGT n j)
F.CLE_TGT_KIND = 3) ∧ (a = smem n (4 * s.getF (R.CLE_TGT n j) F.CLE_TGT_OFS)) :=
  ⟨(W.port true).setF (R.CLE_TGT 0 3) F.CLE_TGT_KIND 3, 0, 3, W.rcd true, smem 0 0, by decide +kernel⟩

theorem witness_CommitsAndLoopCommands_5 : ∃ (s : State) (x : Access) (n : Slice) (j : Fin 16) (key : BitVec 16),
(s.reaches x (R.CLE_CMD n) = true) ∧ (s.fitted n = true) ∧ (key = 0x0C1E) ∧ (s.slState n = slReady ∨ s.slState n =
slRunning) ∧ (s.isSet (R.CLE_LCTRL n j) F.CLE_LCTRL_EN = true) ∧ (s.standby n = false) ∧ (s.isSet (R.CLE_LSTAT n j)
F.CLE_LSTAT_SWAP_PEND = false) :=
  ⟨(W.up.setF (R.CLE_LCTRL 0 3) F.CLE_LCTRL_EN 1).setF (R.CLE_LCTRL 0 3) F.CLE_LCTRL_MODE 0, W.own, 0, 3, 0x0C1E, by
  decide +kernel⟩

theorem witness_CommitsAndLoopCommands_6 : ∃ (s : State) (x : Access) (n : Slice) (j : Fin 16) (key : BitVec 16),
(s.reaches x (R.CLE_CMD n) = true) ∧ (s.fitted n = true) ∧ (key = 0x0C1E) ∧ (s.slState n = slReady ∨ s.slState n =
slRunning) ∧ (s.isSet (R.CLE_LCTRL n j) F.CLE_LCTRL_EN = true) ∧ (s.standby n = false) ∧ (s.isSet (R.CLE_LSTAT n j)
F.CLE_LSTAT_MODE_PEND = false) ∧ (s.isSet (R.CLE_LCTRL n j) F.CLE_LCTRL_MODE = true) :=
  ⟨(W.up.setF (R.CLE_LCTRL 0 3) F.CLE_LCTRL_EN 1).setF (R.CLE_LCTRL 0 3) F.CLE_LCTRL_MODE 1, W.own, 0, 3, 0x0C1E, by
  decide +kernel⟩

theorem witness_CommitsAndLoopCommands_7 : ∃ (s : State) (x : Access) (n : Slice) (j : Fin 16) (key : BitVec 16),
(s.reaches x (R.CLE_CMD n) = true) ∧ (s.fitted n = true) ∧ (key = 0x0C1E) ∧ (s.slState n = slReady ∨ s.slState n =
slRunning) ∧ (s.isSet (R.CLE_LCTRL n j) F.CLE_LCTRL_EN = true) ∧ (s.standby n = false) ∧ (s.isSet (R.CLE_LSTAT n j)
F.CLE_LSTAT_MODE_PEND = false) ∧ (s.isSet (R.CLE_LCTRL n j) F.CLE_LCTRL_MODE = false) :=
  ⟨(W.up.setF (R.CLE_LCTRL 0 3) F.CLE_LCTRL_EN 1).setF (R.CLE_LCTRL 0 3) F.CLE_LCTRL_MODE 0, W.own, 0, 3, 0x0C1E, by
  decide +kernel⟩

theorem witness_CommitsAndLoopCommands_8 : ∃ (s : State) (x : Access) (n : Slice) (j : Fin 16) (key : BitVec 16),
(s.reaches x (R.CLE_CMD n) = true) ∧ (s.fitted n = true) ∧ (key = 0x0C1E) ∧ (s.slState n = slReady ∨ s.slState n =
slRunning) ∧ (s.isSet (R.CLE_LCTRL n j) F.CLE_LCTRL_EN = true) ∧ (s.standby n = false) ∧ (s.isSet (R.CLE_LSTAT n j)
F.CLE_LSTAT_HIST_PEND = false) :=
  ⟨(W.up.setF (R.CLE_LCTRL 0 3) F.CLE_LCTRL_EN 1).setF (R.CLE_LCTRL 0 3) F.CLE_LCTRL_MODE 0, W.own, 0, 3, 0x0C1E, by
  decide +kernel⟩

theorem witness_CommitsAndLoopCommands_9 : ∃ (s : State) (x : Access) (n : Slice) (j : Fin 16) (key : BitVec 16),
(s.reaches x (R.CLE_CMD n) = true) ∧ (s.fitted n = true) ∧ (key ≠ 0x0C1E) :=
  ⟨W.up, W.own, 0, 3, 1, by decide +kernel⟩

theorem witness_MicrocodeStoreAndCalls_1 : ∃ (s : State) (x : Access) (n : Slice) (w : BitVec 12) (i : Fin 4) (v : Word),
(s.reaches x (mcsAddr n w (4 * i.val)) = true) ∧ (s.fitted n = true) ∧ (s.part.full = true) :=
  ⟨W.up, W.own, 0, 0x801, 2, 0xDEADBEEF, by decide +kernel⟩

theorem witness_MicrocodeStoreAndCalls_2 : ∃ (s : State) (x : Access) (n : Slice) (w : BitVec 12) (v : Word) (m : MWord),
(s.reaches x (mcsAddr n w 0x10) = true) ∧ (s.fitted n = true) ∧ (s.part.full = true) ∧ (m = BitVec.ofNat 144 ((s.cleOf
n).staging.toNat + (v.toNat % 65536) * 2 ^ 128)) ∧ (s.slState n = slFenced) ∧ (s.isSet (R.MCS_CTRL n) F.MCS_CTRL_LD_OPEN =
true) ∧ (0x800 ≤ w.toNat) ∧ (parityOk m = true) ∧ (fieldCheck m = 0) :=
  ⟨(W.up.setSl 0 slFenced).setF (R.MCS_CTRL 0) F.MCS_CTRL_LD_OPEN 1, W.own, 0, 0x801, 0, 0, by decide +kernel⟩

theorem witness_MicrocodeStoreAndCalls_3 : ∃ (s : State) (x : Access) (n : Slice) (w : BitVec 12) (v : Word), (s.reaches x
(mcsAddr n w 0x10) = true) ∧ (s.fitted n = true) ∧ (s.slState n = slFenced) ∧ (s.isSet (R.MCS_CTRL n) F.MCS_CTRL_LD_OPEN =
true) ∧ (w.toNat < 0x800) :=
  ⟨(W.up.setSl 0 slFenced).setF (R.MCS_CTRL 0) F.MCS_CTRL_LD_OPEN 1, W.own, 0, 0x7FF, 0, by decide +kernel⟩

theorem witness_MicrocodeStoreAndCalls_4 : ∃ (s : State) (x : Access) (n : Slice) (v : Word), (s.reaches x (R.MCS_CTRL n) =
true) ∧ (s.fitted n = true) ∧ (s.slState n = slFenced) ∧ (F.MCS_CTRL_LD_OPEN.get v = 1) ∧ (s.isSet (R.MCS_CTRL n)
F.MCS_CTRL_LD_OPEN = false) :=
  ⟨W.up.setSl 0 slFenced, W.own, 0, F.MCS_CTRL_LD_OPEN.word 1, by decide +kernel⟩

theorem witness_MicrocodeStoreAndCalls_5 : ∃ (s : State) (n : Slice), (s.isSet (R.MCS_STAT n) F.MCS_STAT_CRC_BUSY = true) ∧
(s.part.full = true) :=
  ⟨W.up.setF (R.MCS_STAT 0) F.MCS_STAT_CRC_BUSY 1, 0, by decide +kernel⟩

theorem witness_MicrocodeStoreAndCalls_6 : ∃ (s : State) (n : Slice) (w : BitVec 12) (v : MWord), (s.scans n = true) ∧
(s.getF (R.MCS_STAT n) F.MCS_STAT_SCAN_ADDR = w.toNat) ∧ (parityOk (s.uword n w.toNat) = false) ∧ ((s.readCopy n w.toNat).2
= some v) ∧ ((((s.readCopy n w.toNat).1.setUword n w.toNat v).readCopy n w.toNat).2 = some v) ∧ (parityOk v = true) :=
  ⟨(W.up.setF (R.MCS_CTRL 0) F.MCS_CTRL_SCAN_EN 1).setUword 0 5 1 |>.setF (R.MCS_STAT 0) F.MCS_STAT_SCAN_ADDR 5, 0, 5, 0,
  by decide +kernel⟩

theorem witness_MicrocodeStoreAndCalls_7 : ∃ (s : State) (n : Slice) (k : CallSt), ((s.cleOf n).call = some k) ∧ (k.issuing
= false) ∧ (k.result = none) ∧ (k.k < 128) ∧ ((s.cleOf n).blocked = false) ∧ ((s.cleOf n).seqr.who = .none) ∧
(s.lowestQueued n = none) ∧ (s.slState n = slReady ∨ s.slState n = slRunning) :=
  ⟨W.call none, 0, ⟨3, 1, 2, 3, false, none⟩, by decide +kernel⟩

theorem witness_MicrocodeStoreAndCalls_8 : ∃ (s : State) (n : Slice) (k : CallSt) (r : Cell), ((s.cleOf n).call = some k) ∧
(k.result = some r) :=
  ⟨W.call (some ⟨0x80000000, tagQ31⟩), 0, ⟨3, 1, 2, 3, false, some ⟨0x80000000, tagQ31⟩⟩, ⟨0x80000000, tagQ31⟩, by
  decide +kernel⟩

theorem witness_MicrocodeStoreAndCalls_9 : ∃ (s : State) (n : Slice) (k : CallSt) (r : Cell), (s.fitted n = true) ∧
((s.cleOf n).call = some k) ∧ (k.result = some r) ∧ (s.slState n = slRunning) :=
  ⟨W.call (some ⟨0x80000000, tagQ31⟩), 0, ⟨3, 1, 2, 3, false, some ⟨0x80000000, tagQ31⟩⟩, ⟨0x80000000, tagQ31⟩, by
  decide +kernel⟩

theorem witness_MicrocodeStoreAndCalls_10 : ∃ (s : State) (n : Slice) (k : CallSt), ((s.cleOf n).call = some k) ∧ (s.getF
(R.MCS_XCFG n) F.MCS_XCFG_TIMEOUT ≠ 0) :=
  ⟨(W.call none).setF (R.MCS_XCFG 0) F.MCS_XCFG_TIMEOUT 5, 0, ⟨3, 1, 2, 3, false, none⟩, by decide +kernel⟩

theorem witness_PwmCounterAndEdges_1 : ∃ (s : State) (n : Slice) (k : Fin 8), (s.atValley n k = true) ∧ (s.getF (R.PWM_CTRL
n k) F.PWM_CTRL_RELOAD_MODE = 2) ∧ (s.getF (R.PWM_CTRL n k) F.PWM_CTRL_SYNC_SRC = 0) ∧ ((s.ctlOf n).goPending = false) :=
  ⟨(W.chan.setF (R.PWM_CNT 0 2) F.PWM_CNT_DIR 1).setF (R.PWM_CMP 0 2) F.PWM_CMP_VALUE 50000 |> W.later 2000, 0, 2, by
  decide +kernel⟩

theorem witness_PwmCounterAndEdges_2 : ∃ (s : State) (n : Slice) (k : Fin 8), (s.atPeriod n k = true) :=
  ⟨W.later 1000 W.chan, 0, 2, by decide +kernel⟩

theorem witness_PwmCounterAndEdges_3 : ∃ (s : State) (n : Slice) (k : Fin 8), (s.changeOpen n k = true) ∧ (s.changeCome n k
= true) ∧ (s.falling n k = false) ∧ (s.actCmp n k ≠ 0xFFFFFFF) ∧ (s.getF (R.PWM_CTRL n k) F.PWM_CTRL_PRESC = 0) ∧ (s.actDt
n k ≠ 0) ∧ (s.actCmp n k ≠ 0) ∧ (2 * s.actCmp n k + s.actDt n k < 32 * s.actPer n k) :=
  ⟨(W.chan.setF (R.PWM_ACT_CMP 0 2) F.PWM_CMP_VALUE 8000).setF (R.PWM_STAT 0 2) F.PWM_STAT_PHASE_B 0 |> W.later 500, 0, 2,
  by decide +kernel⟩

theorem witness_PwmCounterAndEdges_4 : ∃ (s : State) (n : Slice) (k : Fin 8), (s.changeOpen n k = true) ∧ (s.changeCome n k
= true) ∧ (s.falling n k = false) ∧ (s.actCmp n k ≠ 0xFFFFFFF) ∧ (s.getF (R.PWM_CTRL n k) F.PWM_CTRL_PRESC = 0) ∧ (s.actCmp
n k ≠ 0) ∧ (32 * s.actPer n k ≤ 2 * s.actCmp n k + s.actDt n k) :=
  ⟨(W.chan.setF (R.PWM_ACT_CMP 0 2) F.PWM_CMP_VALUE 15999).setF (R.PWM_STAT 0 2) F.PWM_STAT_PHASE_B 0 |> W.later 999, 0, 2,
  by decide +kernel⟩

theorem witness_PwmCounterAndEdges_5 : ∃ (s : State) (n : Slice) (k : Fin 8), (s.changeOpen n k = true) ∧ (s.changeCome n k
= true) ∧ (s.falling n k = true) ∧ (s.actCmp n k ≠ 0xFFFFFFF) ∧ (s.getF (R.PWM_CTRL n k) F.PWM_CTRL_PRESC = 0) ∧ (s.actDt n
k ≠ 0) ∧ (s.actDt n k < 2 * s.actCmp n k) :=
  ⟨((W.chan.setF (R.PWM_ACT_CMP 0 2) F.PWM_CMP_VALUE 8000).setF (R.PWM_STAT 0 2) F.PWM_STAT_PHASE_B 1).setF (R.PWM_CNT 0 2)
  F.PWM_CNT_DIR 1 |> W.later 1600, 0, 2, by decide +kernel⟩

theorem witness_PwmCounterAndEdges_6 : ∃ (s : State) (n : Slice) (k : Fin 8), (s.changeOpen n k = true) ∧ (s.changeCome n k
= true) ∧ (s.falling n k = true) ∧ (s.actCmp n k ≠ 0xFFFFFFF) ∧ (s.getF (R.PWM_CTRL n k) F.PWM_CTRL_PRESC = 0) ∧ (2 *
s.actCmp n k ≤ s.actDt n k) :=
  ⟨((W.chan.setF (R.PWM_ACT_CMP 0 2) F.PWM_CMP_VALUE 20).setF (R.PWM_STAT 0 2) F.PWM_STAT_PHASE_B 1).setF (R.PWM_CNT 0 2)
  F.PWM_CNT_DIR 1 |> W.later 1999, 0, 2, by decide +kernel⟩

theorem witness_PwmCounterAndEdges_7 : ∃ (s : State) (n : Slice) (k : Fin 8), ((s.pw n k).dt = true) ∧ ((if s.isSet
(R.PWM_STAT n k) F.PWM_STAT_PHASE_B = true then (s.pw n k).eoffA else (s.pw n k).eoffB) + s.actDt n k < 16 * (s.clock + 1))
:=
  ⟨W.chan.setPw 0 2 { resetPwm with dt := true } |> W.later 10, 0, 2, by decide +kernel⟩

theorem witness_PwmCounterAndEdges_8 : ∃ (s : State) (n : Slice) (k : Fin 8) (c v : Nat) (l : List (Nat × Nat)), ((s.pw n
k).staged = (c, v) :: l) ∧ (c < 16 * (s.clock + 1)) ∧ (v < 2 ^ 28) :=
  ⟨(W.chan.setF (R.PWM_CTRL 0 2) F.PWM_CTRL_RELOAD_MODE 3).setPw 0 2 { resetPwm with staged := [(1, 8000), (2, 9000)] } |>
  W.later 4, 0, 2, 1, 8000, [(2, 9000)], by decide +kernel⟩

theorem witness_PwmCounterAndEdges_9 : ∃ (s : State) (n : Slice) (k : Fin 8), ((s.pw n k).restart = true) ∧ (s.getF
(R.PWM_CTRL n k) F.PWM_CTRL_SYNC_SRC = 0) ∧ (150 ≤ s.getF (R.PWM_PER n k) F.PWM_PER_VALUE) :=
  ⟨W.chan.setPw 0 2 { resetPwm with restart := true, fresh := true }, 0, 2, by decide +kernel⟩

theorem witness_PwmCounterAndEdges_10 : ∃ (s : State) (x : Access) (n : Slice) (k : Fin 8) (v : Word), (s.reaches x
(R.PWM_PER n k) = true) ∧ (s.fitted n = true) ∧ (150 ≤ v.toNat) ∧ (v.toNat < 2 ^ 24) :=
  ⟨W.chan, W.own, 0, 2, 150, by decide +kernel⟩

theorem witness_PwmCounterAndEdges_11 : ∃ (s : State) (x : Access) (n : Slice) (k : Fin 8) (v : Word), (s.reaches x
(R.PWM_PER n k) = true) ∧ (s.fitted n = true) ∧ (v.toNat < 150) :=
  ⟨W.chan, W.own, 0, 2, 149, by decide +kernel⟩

theorem witness_PwmCounterAndEdges_12 : ∃ (s : State) (x : Access) (n : Slice) (k : Fin 8) (v : Word), (s.reaches x
(R.PWM_CMP n k) = true) ∧ (s.fitted n = true) ∧ (v.toNat < 2 ^ 28) :=
  ⟨W.chan, W.own, 0, 2, 0x0FFFFFFF, by decide +kernel⟩

theorem witness_PwmCounterAndEdges_13 : ∃ (s : State) (x : Access) (n : Slice) (k : Fin 8) (v : Word), (s.reaches x
(R.PWM_DT n k) = true) ∧ (s.fitted n = true) ∧ (v.toNat < 2 ^ 20) :=
  ⟨W.chan, W.own, 0, 2, 0x000FFFFF, by decide +kernel⟩

theorem witness_TripsAndSafeOutputs_1 : ∃ (s : State) (n : Slice) (k : Fin 8), (s.fitted n = true) ∧ (s.tripReq n k ≠ 0) ∧
(s.isSet (R.PWM_TRIP_STAT n k) F.PWM_TRIP_STAT_TRIPPED = false) :=
  ⟨W.trip, 0, 2, by decide +kernel⟩

theorem witness_TripsAndSafeOutputs_2 : ∃ (s : State) (x : Access) (n : Slice) (k : Fin 8) (cmd : Bool), (s.isSet
(R.PWM_TRIP_STAT n k) F.PWM_TRIP_STAT_TRIPPED = true) ∧ (s.tripReq n k = 0) ∧ (cmd = true → s.isSet (R.PWM_TRIP_EN n k)
F.PWM_TRIP_EN_CMD = false) ∧ (s.reaches x (R.PWM_TRIP_CMD n k) = true) ∧ (s.fitted n = true) :=
  ⟨W.chan.setF (R.PWM_TRIP_STAT 0 2) F.PWM_TRIP_STAT_TRIPPED 1, W.own, 0, 2, true, by decide +kernel⟩

theorem witness_TripsAndSafeOutputs_3 : ∃ (s : State) (x : Access) (n : Slice) (k : Fin 8), (s.isSet (R.PWM_TRIP_STAT n k)
F.PWM_TRIP_STAT_TRIPPED = true) ∧ (s.tripReq n k ≠ 0) ∧ (s.reaches x (R.PWM_TRIP_CMD n k) = true) ∧ (s.fitted n = true) :=
  ⟨W.trip.setF (R.PWM_TRIP_STAT 0 2) F.PWM_TRIP_STAT_TRIPPED 1, W.own, 0, 2, by decide +kernel⟩

theorem witness_TripsAndSafeOutputs_4 : ∃ (s : State) (x : Access) (n : Slice) (k : Fin 8), (s.isSet (R.PWM_TRIP_EN n k)
F.PWM_TRIP_EN_CMD = true) ∧ (s.reaches x (R.PWM_TRIP_CMD n k) = true) ∧ (s.fitted n = true) :=
  ⟨(W.chan.setF (R.PWM_TRIP_EN 0 2) F.PWM_TRIP_EN_CMD 1).setF (R.PWM_TRIP_STAT 0 2) F.PWM_TRIP_STAT_TRIPPED 1, W.own, 0, 2,
  by decide +kernel⟩

theorem witness_TripsAndSafeOutputs_5 : ∃ (s : State) (x : Access) (n : Slice) (k : Fin 8), (s.isSet (R.PWM_TRIP_STAT n k)
F.PWM_TRIP_STAT_TRIPPED = false) ∧ (s.isSet (R.PWM_TRIP_EN n k) F.PWM_TRIP_EN_CMD = true) ∧ (s.reaches x (R.PWM_TRIP_CMD n
k) = true) ∧ (s.fitted n = true) :=
  ⟨W.chan.setF (R.PWM_TRIP_EN 0 2) F.PWM_TRIP_EN_CMD 1, W.own, 0, 2, by decide +kernel⟩

theorem witness_TripsAndSafeOutputs_6 : ∃ (s : State) (x : Access) (n : Slice) (k : Fin 8) (mask : BitVec 8), (s.reaches x
(R.SLC_TRIP n) = true) ∧ (s.fitted n = true) ∧ (mask.getLsbD k = true) ∧ (s.isSet (R.PWM_TRIP_EN n k) F.PWM_TRIP_EN_CMD =
true) :=
  ⟨W.chan.setF (R.PWM_TRIP_EN 0 2) F.PWM_TRIP_EN_CMD 1, W.own, 0, 2, 4, by decide +kernel⟩

theorem witness_TripsAndSafeOutputs_7 : ∃ (s : State) (n : Slice) (i : Fin 4) (pin : Bool), (s.fitted n = true) :=
  ⟨W.up, 0, 1, false, by decide +kernel⟩

theorem witness_TripsAndSafeOutputs_8 : ∃ (s : State) (n : Slice) (k : Fin 8), ((s.pw n k).line = 3) ∧ (s.dtPassed n k (16
* s.clock + 15) (s.pw n k).offB = true) ∧ ((s.pw n k).pinB = false) ∧ (s.isSet (R.PWM_STAT n k) F.PWM_STAT_OUT_A = true) ∧
(s.isSet (R.PWM_STAT n k) F.PWM_STAT_OUT_B = false) :=
  ⟨(W.chan.setF (R.PWM_STAT 0 2) F.PWM_STAT_OUT_A 1).setPw 0 2 { resetPwm with line := 3, offB := some 0 } |> W.later 10,
  0, 2, by decide +kernel⟩

theorem witness_TripsAndSafeOutputs_9 : ∃ (s : State) (x : Access) (n : Slice) (k : Fin 8) (v : Word), (s.reaches x
(R.PWM_TRIP_EN n k) = true) ∧ (s.fitted n = true) ∧ (v &&& 0x00000FFF = 0) ∧ (v &&& 0x000FF000 = v) :=
  ⟨W.chan, W.own, 0, 2, 0x00081000, by decide +kernel⟩

theorem witness_TripsAndSafeOutputs_10 : ∃ (s : State) (x : Access) (n : Slice) (i : Fin 4) (v : Word) (pin : Bool),
(s.reaches x (R.SLC_TRIPIN n i) = true) ∧ (s.fitted n = true) ∧ (s.slState n = slFenced) ∧ (v &&& 0x1FF = v) ∧
(F.SLC_TRIPIN_POL.get v ≠ s.getF (R.SLC_TRIPIN n i) F.SLC_TRIPIN_POL ∨ F.SLC_TRIPIN_FILT.get v ≠ s.getF (R.SLC_TRIPIN n i)
F.SLC_TRIPIN_FILT) :=
  ⟨W.up.setSl 0 slFenced, W.own, 0, 1, 0x103, true, by decide +kernel⟩

theorem witness_TripsAndSafeOutputs_11 : ∃ (s : State) (x : Access) (n : Slice) (i : Fin 4) (v : Word) (pin : Bool),
(s.reaches x (R.SLC_TRIPIN n i) = true) ∧ (s.fitted n = true) ∧ (s.slState n ≠ slFenced) ∧ (F.SLC_TRIPIN_POL.get v ≠ s.getF
(R.SLC_TRIPIN n i) F.SLC_TRIPIN_POL) :=
  ⟨W.up, W.own, 0, 1, 0x103, true, by decide +kernel⟩

theorem witness_CaptureAndEncoder_1 : ∃ (s : State) (n : Slice) (c : Fin 4) (rise l : Bool), (s.powered n = true) ∧
(s.capWin n c = none) ∧ (l = (rise != s.isSet (R.SLC_CAPCFG n c) F.SLC_CAPCFG_POL)) ∧ ((s.capOf n c).level = !l) ∧ (natBit
(s.getF (R.SLC_CAPCFG n c) F.SLC_CAPCFG_EDGE) (if l = true then 0 else 1) = true) ∧ ((s.capOf n c).fifo.length < 4) :=
  ⟨W.up.setF (R.SLC_CAPCFG 0 2) F.SLC_CAPCFG_EDGE 1, 0, 2, true, true, by decide +kernel⟩

theorem witness_CaptureAndEncoder_2 : ∃ (s : State) (n : Slice) (c : Fin 4) (i : Slice), (s.powered n = true) ∧ (s.capWin n
c = some i) ∧ (s.winLine n i = true) ∧ ((s.capOf n c).level = false) ∧ (natBit (s.getF (R.SLC_CAPCFG n c)
F.SLC_CAPCFG_EDGE) 0 = true) ∧ ((s.capOf n c).fifo.length < 4) :=
  ⟨((W.win 0x4207).setWin 0 3 { resetWin with hi := true, hiDone := true, loDone := true }).setF (R.SLC_CAPCFG 0 2)
  F.SLC_CAPCFG_EDGE 1 |>.setF (R.GRG_CAPSEL 0) ⟨8, 4⟩ 4, 0, 2, 3, by decide +kernel⟩

theorem witness_CaptureAndEncoder_3 : ∃ (s : State) (n : Slice) (c : Fin 4) (rise l : Bool), (s.powered n = true) ∧
(s.capWin n c = none) ∧ (l = (rise != s.isSet (R.SLC_CAPCFG n c) F.SLC_CAPCFG_POL)) ∧ ((s.capOf n c).level = !l) ∧ (natBit
(s.getF (R.SLC_CAPCFG n c) F.SLC_CAPCFG_EDGE) (if l = true then 0 else 1) = true) ∧ (4 ≤ (s.capOf n c).fifo.length) :=
  ⟨(W.up.setF (R.SLC_CAPCFG 0 2) F.SLC_CAPCFG_EDGE 2).setCap 0 2 ⟨[1, 2, 3, 4], true, true⟩, 0, 2, false, false, by
  decide +kernel⟩

theorem witness_CaptureAndEncoder_4 : ∃ (s : State) (x : Access) (n : Slice) (c : Fin 4), (s.answers x (R.SLC_CAPTS n c) =
true) ∧ (s.fitted n = true) ∧ (x.m ≠ .mon) :=
  ⟨W.up.setCap 0 2 ⟨[7, 8], false, false⟩, W.own, 0, 2, by decide +kernel⟩

theorem witness_CaptureAndEncoder_5 : ∃ (s : State) (n : Slice) (a b : Bool), (s.powered n = true) ∧ (s.isSet (R.SLC_ENC n)
F.SLC_ENC_EN = true) ∧ (s.captureSees n 0 a = true) ∧ (s.captureSees n 1 b = false) :=
  ⟨W.up.setF (R.SLC_ENC 0) F.SLC_ENC_EN 1, 0, true, false, by decide +kernel⟩

theorem witness_CaptureAndEncoder_6 : ∃ (s : State) (n : Slice) (a b : Bool), (s.powered n = true) ∧ (s.isSet (R.SLC_ENC n)
F.SLC_ENC_EN = true) ∧ (s.captureSees n 0 a = false) ∧ (s.captureSees n 1 b = true) :=
  ⟨W.up.setF (R.SLC_ENC 0) F.SLC_ENC_EN 1, 0, false, true, by decide +kernel⟩

theorem witness_CaptureAndEncoder_7 : ∃ (s : State) (n : Slice) (a b : Bool), (s.powered n = true) ∧ (s.isSet (R.SLC_ENC n)
F.SLC_ENC_EN = true) ∧ (s.captureSees n 0 a = true) ∧ (s.captureSees n 1 b = true) :=
  ⟨W.up.setF (R.SLC_ENC 0) F.SLC_ENC_EN 1, 0, true, true, by decide +kernel⟩

theorem witness_InjectionRuns_1 : ∃ (s : State) (x : Access) (n : Slice) (v : Word) (j : Nat), (s.reaches x (R.INJ_CTRL n)
= true) ∧ (s.fitted n = true) ∧ (j = F.INJ_CTRL_LOOP.get v) ∧ (s.isSet (R.INJ_STAT n) F.INJ_STAT_RUN = false) ∧ (s.slState
n = slReady ∨ s.slState n = slRunning) ∧ (s.isSet (R.CLE_LCTRL n j) F.CLE_LCTRL_EN = true) ∧ (s.mode = mdService ∨ (x.test
= true ∧ s.getF (R.INJ_LIM n j) F.INJ_LIM_LIM ≠ 0)) ∧ (s.getF (R.INJ_LIM n j) F.INJ_LIM_LIM = 0 ∨ s.getF (R.INJ_SIG n)
F.INJ_SIG_AMP ≤ s.getF (R.INJ_LIM n j) F.INJ_LIM_LIM) ∧ (F.INJ_CTRL_SHAPE.get v = 0 ∨ (F.INJ_CTRL_SHAPE.get v = 1 ∧
F.INJ_CTRL_CORR_EN.get v = 0)) ∧ (F.INJ_CTRL_NODE.get v ≠ 3) ∧ (F.INJ_CTRL_STOP.get v = 0) :=
  ⟨W.loop.setReg (R.INJ_LIM 0 3) 1000, ⟨.core 0, false, true⟩, 0, F.INJ_CTRL_LOOP.word 3, 3, by decide +kernel⟩

theorem witness_InjectionRuns_2 : ∃ (s : State) (x : Access) (n : Slice) (v : Word), (s.reaches x (R.INJ_CTRL n) = true) ∧
(s.fitted n = true) ∧ (s.isSet (R.INJ_STAT n) F.INJ_STAT_RUN = true) ∧ (F.INJ_CTRL_STOP.get v = 0) :=
  ⟨W.loop.setF (R.INJ_STAT 0) F.INJ_STAT_RUN 1, W.own, 0, 0, by decide +kernel⟩

theorem witness_InjectionRuns_3 : ∃ (s : State) (x : Access) (n : Slice), (s.reaches x (R.INJ_CTRL n) = true) ∧ (s.fitted n
= true) ∧ (s.isSet (R.INJ_STAT n) F.INJ_STAT_RUN = true) :=
  ⟨W.loop.setF (R.INJ_STAT 0) F.INJ_STAT_RUN 1, W.own, 0, by decide +kernel⟩

theorem witness_InjectionRuns_4 : ∃ (s : State) (n : Slice) (r : Rec) (q : List Rec) (a : Nat), ((s.injOf n).queue = r ::
q) ∧ (a = smem n (4 * s.getF (R.INJ_CAP n) F.INJ_CAP_BASE + 4 * s.getF (R.INJ_CIDX n) F.INJ_CIDX_INDEX)) :=
  ⟨W.up.setInj 0 { resetInj with queue := [⟨⟨9, tagFrac2⟩, emptyCell⟩] }, 0, ⟨⟨9, tagFrac2⟩, emptyCell⟩, [], smem 0 0, by
  decide +kernel⟩

theorem witness_InjectionRuns_5 : ∃ (s : State) (x : Access) (n : Slice) (j : Fin 16) (v : Word), (s.reaches x (R.INJ_LIM n
j) = true) ∧ (s.fitted n = true) ∧ (s.slState n = slFenced ∨ s.mode = mdService) ∧ (s.isSet (R.INJ_STAT n) F.INJ_STAT_RUN =
false) :=
  ⟨W.up.setSl 0 slFenced, W.own, 0, 3, 0xFFFF7FFF, by decide +kernel⟩

theorem witness_InjectionRuns_6 : ∃ (s : State) (x : Access) (n : Slice) (j : Fin 16) (v : Word), (s.reaches x (R.INJ_LIM n
j) = true) ∧ (s.fitted n = true) ∧ (s.slState n ≠ slFenced) ∧ (s.mode ≠ mdService) :=
  ⟨W.up, W.own, 0, 3, 0xFFFF7FFF, by decide +kernel⟩

theorem witness_MeteringConverter_1 : ∃ (s : State) (a : Nat), (s.mode ≠ mdStabled) ∧ (s.getF R.MAD_CTRL
F.MAD_CTRL_PERIOD_MODE = 0) ∧ (s.mad.crossed = some a) ∧ (21429000 ≤ s.clock - a) ∧ (s.clock - a ≤ 100000500) :=
  ⟨({ W.up with clock := 30000000 } : State).setMad { resetMad with crossed := some 0 }, 0, by decide +kernel⟩

theorem witness_MeteringConverter_2 : ∃ (s : State) (a : Nat), (s.mad.crossed = some a) ∧ (s.clock - a < 21429000) :=
  ⟨({ W.up with clock := 3000000 } : State).setMad { resetMad with crossed := some 0 }, 0, by decide +kernel⟩

theorem witness_MeteringConverter_3 : ∃ (s : State) (rs : Vector RawResult 4) (u : Fin 4) (cv : MadConv), (s.mode ≠
mdStabled) ∧ (s.getF R.MAD_CTRL F.MAD_CTRL_EN ≠ 0) ∧ (s.madDue = true) ∧ (s.mad.conv.get u = some cv) ∧ (∀ w : Fin 4, w ≠ u
→ s.mad.conv.get w = none) ∧ (cv.ch < 16) ∧ (cv.urgent = false) :=
  ⟨(W.up.setF R.MAD_CTRL F.MAD_CTRL_EN 1).setMad
  { resetMad with due := true, dueAt := 0, conv := #v[some ⟨2, false, false⟩, none, none, none] } |> W.later 3000,
  Vector.replicate 4 ⟨12345, false⟩, 0, ⟨2, false, false⟩, by decide +kernel⟩

theorem witness_MeteringConverter_4 : ∃ (s : State) (rs : Vector RawResult 4) (a : Nat), (s.mode ≠ mdStabled) ∧ (s.mad.mark
= some a) ∧ (a + 100000500 ≤ s.clock) ∧ (s.mad.due = false) ∧ (s.getF R.MAD_CTRL F.MAD_CTRL_PERIOD_MODE = 0) ∧ (s.isSet
R.MAD_STAT F.MAD_STAT_LOCKED = true) ∧ (s.getF R.MAD_CTRL F.MAD_CTRL_EN ≠ 0) :=
  ⟨(W.up.setF R.MAD_CTRL F.MAD_CTRL_EN 1).setF R.MAD_STAT F.MAD_STAT_LOCKED 1 |>.setMad { resetMad with mark := some 0 } |>
  W.later 100000500, Vector.replicate 4 ⟨12345, false⟩, 0, by decide +kernel⟩

theorem witness_MeteringConverter_5 : ∃ (s : State) (r : Vector Cell 4) (q : List (Vector Cell 4)) (a : Nat), (s.mad.queue
= r :: q) ∧ (a = 0x0E000000 + 16 * s.getF R.MAD_BUF F.MAD_BUF_BASE + 16 * s.getF R.MAD_WIDX F.MAD_WIDX_INDEX) ∧ (a + 16 ≤
0x0E728000) ∧ ((s.getF R.MAD_WIDX F.MAD_WIDX_INDEX + 1) % 2 ^ s.getF R.MAD_BUF F.MAD_BUF_LOG2LEN ≠ s.getF R.MAD_RIDX
F.MAD_RIDX_INDEX) ∧ (s.getF R.MAD_BUF F.MAD_BUF_LOG2LEN ≤ 15) :=
  ⟨(W.up.setF R.MAD_BUF F.MAD_BUF_LOG2LEN 4).setMad { resetMad with queue := [Vector.replicate 4 ⟨9, tagInt⟩] },
  Vector.replicate 4 ⟨9, tagInt⟩, [], 0x0E000000, by decide +kernel⟩

theorem witness_MeteringConverter_6 : ∃ (s : State) (x : Access) (v : Word) (ch : Nat), (s.reaches x R.MAD_URG = true) ∧
(F.MAD_URG_REQ.get v = 1) ∧ (ch = F.MAD_URG_CH.get v) ∧ (ch < s.madChannels) ∧ (s.isSet R.MAD_URG_STAT F.MAD_URG_STAT_PEND
= false) ∧ (s.madEn (ch / 4) = true) ∧ (s.getF R.MAD_CTRL F.MAD_CTRL_PERIOD_MODE ≠ 0 ∨ s.isSet R.MAD_STAT F.MAD_STAT_LOCKED
= true) :=
  ⟨(W.up.setF R.MAD_CTRL F.MAD_CTRL_EN 1).setF R.MAD_STAT F.MAD_STAT_LOCKED 1, W.sys, F.MAD_URG_REQ.word 1 |||
  F.MAD_URG_CH.word 2, 2, by decide +kernel⟩

theorem witness_MeteringConverter_7 : ∃ (s : State), (s.mode ≠ mdStabled) :=
  ⟨W.up.setF R.MAD_CTRL F.MAD_CTRL_EN 1, by decide +kernel⟩

theorem witness_MeteringConverter_8 : ∃ (s : State), (s.mode ≠ mdStabled) ∧ (s.getF R.MAD_CTRL F.MAD_CTRL_REF_SEL = 1) :=
  ⟨W.up.setF R.MAD_CTRL F.MAD_CTRL_REF_SEL 1, by decide +kernel⟩

theorem witness_MeteringConverter_9 : ∃ (s : State) (x : Access) (v : Word), (s.reaches x R.MAD_CTRL = true) ∧ (s.part ≠
.esk7208) ∧ (s.getF R.MAD_CTRL F.MAD_CTRL_EN = 0) ∧ (F.MAD_CTRL_REF_SEL.get v ≠ 3) :=
  ⟨W.up, W.sys, F.MAD_CTRL_EN.word 5, by decide +kernel⟩

theorem witness_MeteringConverter_10 : ∃ (s : State) (x : Access) (v : Word), (s.reaches x R.MAD_SCAN = true) ∧ (s.part ≠
.esk7208) :=
  ⟨W.up, W.sys, 0xFF0F, by decide +kernel⟩

theorem witness_CoreLoads_1 : ∃ (s : State) (p : Pair) (i : Kn) (n ea : Nat) (c : Cell), (s.issues p i = true) ∧ (i.op =
.lda) ∧ ((s.issue p).operand p i = some (n, ea)) ∧ (s.canLoad p n ea c = true) :=
  ⟨W.kn 0x1040 { W.regs with lcount := 2, lstart := 7, lend := 8 }, 0, ⟨.lda, 1, 0, 0, 0⟩, 1, 0x02080010, ⟨9, tagInt⟩, by
  decide +kernel⟩

theorem witness_CoreLoads_2 : ∃ (s : State) (p : Pair) (i : Kn) (n ea : Nat) (c : Cell), (s.issues p i = true) ∧ (i.op =
.ldx) ∧ ((s.issue p).operand p i = some (n, ea)) ∧ (s.canLoad p n ea c = true) :=
  ⟨W.kn 0x1B00 { W.regs with lcount := 2, lstart := 7, lend := 8 }, 0, ⟨.ldx, 0, 0, 0, 0⟩, 1, 0x02080000, ⟨7, tagInt⟩, by
  decide +kernel⟩

theorem witness_CoreLoads_3 : ∃ (s : State) (p : Pair) (i : Kn) (n ea : Nat) (c : Cell), (s.issues p i = true) ∧ (i.op =
.ldy) ∧ ((s.issue p).operand p i = some (n, ea)) ∧ (s.canLoad p n ea c = true) :=
  ⟨W.kn 0x1D00 { W.regs with lcount := 2, lstart := 7, lend := 8 }, 0, ⟨.ldy, 0, 0, 0, 0⟩, 1, 0x02080000, ⟨7, tagInt⟩, by
  decide +kernel⟩

theorem witness_CoreLoads_4 : ∃ (s : State) (p : Pair) (i : Kn) (n ea : Nat) (v : State) (w : Word), (s.issues p i = true)
∧ (i.op = .lda) ∧ ((s.issue p).operand p i = some (n, ea)) ∧ ((s.issue p).eaFault p ((s.issue p).quadAt p n) ea 4 4 [pRead]
= none) ∧ ((s.issue p).pairBars p (pairAccess p ((s.issue p).quadAt p n)) ea false 0 = none) ∧ (spaceOf ea = .reg) ∧
(s.sbClear p ea 4 = true) ∧ ((s.issue p).absentSlice ea = false) ∧ ((s.fetched p).busRead (pairAccess p ((s.issue p).quadAt
p n)) ea = some (v, w)) ∧ (v.coreOf p = (s.fetched p).coreOf p) :=
  ⟨W.ld 0x1040, 0, ⟨.lda, 1, 0, 0, 0⟩, 1, 0x02000000, (W.ld 0x1040).fetched 0, 0x80007216, by decide +kernel⟩

theorem witness_CoreLoads_5 : ∃ (s : State) (p : Pair) (i : Kn) (n ea : Nat) (c : Cell), (s.issues p i = true) ∧ (i.op =
.lda) ∧ ((s.issue p).operand p i = some (n, ea)) ∧ ((s.issue p).eaFault p ((s.issue p).quadAt p n) ea 4 4 [pRead] = none) ∧
((s.issue p).pairBars p (pairAccess p ((s.issue p).quadAt p n)) ea false 0 = none) ∧ (isCells ea = true) ∧ ((s.issue
p).absentSlice ea = false) ∧ ((s.issue p).absentMain ea = false) ∧ ((s.issue p).accessWaits ea = false) ∧ (s.sbClear p ea 4
= true) ∧ (inMain ea = true → (s.issue p).pageSet ea = true) ∧ ((s.issue p).mark ea = some false) ∧ (c = s.cell ea) ∧
(operandTag ((s.issue p).quadAt p n) c.tag = none) :=
  ⟨let s0 := W.kn 0x1000 W.regs; {  s0 with mem := { s0.mem with ecc := [(0x02080000, false)] } }, 0, ⟨.lda, 0, 0, 0, 0⟩,
  1, 0x02080000, ⟨7, tagInt⟩, by decide +kernel⟩

theorem witness_CoreLoads_6 : ∃ (s : State) (p : Pair) (i : Kn) (n ea code : Nat), (s.issues p i = true) ∧ (i.op = .lda) ∧
((s.issue p).operand p i = some (n, ea)) ∧ ((s.issue p).eaFault p ((s.issue p).quadAt p n) ea 4 4 [pRead] = some code) ∧
(spaceOf ea ≠ .reg) :=
  ⟨W.kn 0x1000 { W.regs with pg := 256 }, 0, ⟨.lda, 0, 0, 0, 0⟩, 1, 0x02090000, 4, by decide +kernel⟩

theorem witness_CoreLoads_7 : ∃ (s : State) (p : Pair) (i : Kn) (n ea : Nat) (v : State) (w : Word), (s.issues p i = true)
∧ (i.op = .ldx) ∧ ((s.issue p).operand p i = some (n, ea)) ∧ ((s.issue p).eaFault p ((s.issue p).quadAt p n) ea 4 4 [pRead]
= none) ∧ ((s.issue p).pairBars p (pairAccess p ((s.issue p).quadAt p n)) ea false 0 = none) ∧ (spaceOf ea = .reg) ∧
(s.sbClear p ea 4 = true) ∧ ((s.issue p).absentSlice ea = false) ∧ ((s.fetched p).busRead (pairAccess p ((s.issue p).quadAt
p n)) ea = some (v, w)) ∧ (v.coreOf p = (s.fetched p).coreOf p) :=
  ⟨W.ld 0x1B40, 0, ⟨.ldx, 1, 0, 0, 0⟩, 1, 0x02000000, (W.ld 0x1B40).fetched 0, 0x80007216, by decide +kernel⟩

theorem witness_CoreLoads_8 : ∃ (s : State) (p : Pair) (i : Kn) (n ea : Nat) (c : Cell), (s.issues p i = true) ∧ (i.op =
.ldx) ∧ ((s.issue p).operand p i = some (n, ea)) ∧ ((s.issue p).eaFault p ((s.issue p).quadAt p n) ea 4 4 [pRead] = none) ∧
((s.issue p).pairBars p (pairAccess p ((s.issue p).quadAt p n)) ea false 0 = none) ∧ (isCells ea = true) ∧ ((s.issue
p).absentSlice ea = false) ∧ ((s.issue p).absentMain ea = false) ∧ ((s.issue p).accessWaits ea = false) ∧ (s.sbClear p ea 4
= true) ∧ (inMain ea = true → (s.issue p).pageSet ea = true) ∧ ((s.issue p).mark ea = some false) ∧ (c = s.cell ea) ∧
(operandTag ((s.issue p).quadAt p n) c.tag = none) :=
  ⟨let s0 := W.kn 0x1B00 W.regs; {  s0 with mem := { s0.mem with ecc := [(0x02080000, false)] } }, 0, ⟨.ldx, 0, 0, 0, 0⟩,
  1, 0x02080000, ⟨7, tagInt⟩, by decide +kernel⟩

theorem witness_CoreLoads_9 : ∃ (s : State) (p : Pair) (i : Kn) (n ea code : Nat), (s.issues p i = true) ∧ (i.op = .ldx) ∧
((s.issue p).operand p i = some (n, ea)) ∧ ((s.issue p).eaFault p ((s.issue p).quadAt p n) ea 4 4 [pRead] = some code) ∧
(spaceOf ea ≠ .reg) :=
  ⟨W.kn 0x1B00 { W.regs with pg := 256 }, 0, ⟨.ldx, 0, 0, 0, 0⟩, 1, 0x02090000, 4, by decide +kernel⟩

theorem witness_CoreLoads_10 : ∃ (s : State) (p : Pair) (i : Kn) (n ea : Nat) (v : State) (w : Word), (s.issues p i = true)
∧ (i.op = .ldy) ∧ ((s.issue p).operand p i = some (n, ea)) ∧ ((s.issue p).eaFault p ((s.issue p).quadAt p n) ea 4 4 [pRead]
= none) ∧ ((s.issue p).pairBars p (pairAccess p ((s.issue p).quadAt p n)) ea false 0 = none) ∧ (spaceOf ea = .reg) ∧
(s.sbClear p ea 4 = true) ∧ ((s.issue p).absentSlice ea = false) ∧ ((s.fetched p).busRead (pairAccess p ((s.issue p).quadAt
p n)) ea = some (v, w)) ∧ (v.coreOf p = (s.fetched p).coreOf p) :=
  ⟨W.ld 0x1D40, 0, ⟨.ldy, 1, 0, 0, 0⟩, 1, 0x02000000, (W.ld 0x1D40).fetched 0, 0x80007216, by decide +kernel⟩

theorem witness_CoreLoads_11 : ∃ (s : State) (p : Pair) (i : Kn) (n ea : Nat) (c : Cell), (s.issues p i = true) ∧ (i.op =
.ldy) ∧ ((s.issue p).operand p i = some (n, ea)) ∧ ((s.issue p).eaFault p ((s.issue p).quadAt p n) ea 4 4 [pRead] = none) ∧
((s.issue p).pairBars p (pairAccess p ((s.issue p).quadAt p n)) ea false 0 = none) ∧ (isCells ea = true) ∧ ((s.issue
p).absentSlice ea = false) ∧ ((s.issue p).absentMain ea = false) ∧ ((s.issue p).accessWaits ea = false) ∧ (s.sbClear p ea 4
= true) ∧ (inMain ea = true → (s.issue p).pageSet ea = true) ∧ ((s.issue p).mark ea = some false) ∧ (c = s.cell ea) ∧
(operandTag ((s.issue p).quadAt p n) c.tag = none) :=
  ⟨let s0 := W.kn 0x1D00 W.regs; {  s0 with mem := { s0.mem with ecc := [(0x02080000, false)] } }, 0, ⟨.ldy, 0, 0, 0, 0⟩,
  1, 0x02080000, ⟨7, tagInt⟩, by decide +kernel⟩

theorem witness_CoreLoads_12 : ∃ (s : State) (p : Pair) (i : Kn) (n ea code : Nat), (s.issues p i = true) ∧ (i.op = .ldy) ∧
((s.issue p).operand p i = some (n, ea)) ∧ ((s.issue p).eaFault p ((s.issue p).quadAt p n) ea 4 4 [pRead] = some code) ∧
(spaceOf ea ≠ .reg) :=
  ⟨W.kn 0x1D00 { W.regs with pg := 256 }, 0, ⟨.ldy, 0, 0, 0, 0⟩, 1, 0x02090000, 4, by decide +kernel⟩

theorem witness_CoreArithmetic_1 : ∃ (s : State) (p : Pair) (i : Kn) (n ea : Nat) (c : Cell) (v : BitVec 40) (g : BitVec
4), (s.issues p i = true) ∧ (i.op = .add) ∧ ((s.issue p).operand p i = some (n, ea)) ∧ (s.canLoad p n ea c = true) ∧
(noValue (s.rs p).atag = false) ∧ (kAdd false false (s.rs p).a (s.rs p).atag c = .val v g) :=
  ⟨W.kn 0x1200 W.regs, 0, ⟨.add, 0, 0, 0, 0⟩, 1, 0x02080000, ⟨7, tagInt⟩, 12, tagInt, by decide +kernel⟩

theorem witness_CoreArithmetic_2 : ∃ (s : State) (p : Pair) (i : Kn) (n ea : Nat) (c : Cell) (v : BitVec 40) (g : BitVec
4), (s.issues p i = true) ∧ (i.op = .sub) ∧ ((s.issue p).operand p i = some (n, ea)) ∧ (s.canLoad p n ea c = true) ∧
(noValue (s.rs p).atag = false) ∧ (kAdd true false (s.rs p).a (s.rs p).atag c = .val v g) :=
  ⟨W.kn 0x1300 W.regs, 0, ⟨.sub, 0, 0, 0, 0⟩, 1, 0x02080000, ⟨7, tagInt⟩, BitVec.ofInt 40 (-2), tagInt, by decide +kernel⟩

theorem witness_CoreArithmetic_3 : ∃ (s : State) (p : Pair) (i : Kn) (n ea : Nat) (c : Cell) (v : BitVec 40) (g : BitVec
4), (s.issues p i = true) ∧ (i.op = .adds) ∧ ((s.issue p).operand p i = some (n, ea)) ∧ (s.canLoad p n ea c = true) ∧
(noValue (s.rs p).atag = false) ∧ (kAdd false true (s.rs p).a (s.rs p).atag c = .val v g) :=
  ⟨W.kn 0x1400 W.regs, 0, ⟨.adds, 0, 0, 0, 0⟩, 1, 0x02080000, ⟨7, tagInt⟩, 12, tagInt, by decide +kernel⟩

theorem witness_CoreArithmetic_4 : ∃ (s : State) (p : Pair) (i : Kn) (n ea : Nat) (c : Cell) (v : BitVec 40) (g : BitVec
4), (s.issues p i = true) ∧ (i.op = .subs) ∧ ((s.issue p).operand p i = some (n, ea)) ∧ (s.canLoad p n ea c = true) ∧
(noValue (s.rs p).atag = false) ∧ (kAdd true true (s.rs p).a (s.rs p).atag c = .val v g) :=
  ⟨W.kn 0x1500 W.regs, 0, ⟨.subs, 0, 0, 0, 0⟩, 1, 0x02080000, ⟨7, tagInt⟩, BitVec.ofInt 40 (-2), tagInt, by decide +kernel⟩

theorem witness_CoreArithmetic_5 : ∃ (s : State) (p : Pair) (i : Kn) (n ea : Nat) (c : Cell) (v : BitVec 40) (g : BitVec
4), (s.issues p i = true) ∧ (i.op = .mul) ∧ ((s.issue p).operand p i = some (n, ea)) ∧ (s.canLoad p n ea c = true) ∧
(noValue (s.rs p).atag = false) ∧ (kMul (s.rs p).a (s.rs p).atag c = .val v g) :=
  ⟨W.kn 0x1600 W.regs, 0, ⟨.mul, 0, 0, 0, 0⟩, 1, 0x02080000, ⟨7, tagInt⟩, 35, tagInt, by decide +kernel⟩

theorem witness_CoreArithmetic_6 : ∃ (s : State) (p : Pair) (i : Kn) (n ea : Nat) (c : Cell) (v : BitVec 40) (g : BitVec
4), (s.issues p i = true) ∧ (i.op = .macx) ∧ ((s.issue p).operand p i = some (n, ea)) ∧ (s.canLoad p n ea c = true) ∧
(noValue (s.rs p).atag = false) ∧ (noValue (s.rs p).x.tag = false) ∧ (kMacx (s.rs p).a (s.rs p).atag (s.rs p).x c = .val v
g) :=
  ⟨W.kn 0x1700 { W.regs with x := ⟨2, tagInt⟩ }, 0, ⟨.macx, 0, 0, 0, 0⟩, 1, 0x02080000, ⟨7, tagInt⟩, 19, tagInt, by
  decide +kernel⟩

theorem witness_CoreArithmetic_7 : ∃ (s : State) (p : Pair) (i : Kn) (n ea : Nat) (c : Cell) (v : BitVec 40) (g : BitVec
4), (s.issues p i = true) ∧ (i.op = .and) ∧ ((s.issue p).operand p i = some (n, ea)) ∧ (s.canLoad p n ea c = true) ∧
(noValue (s.rs p).atag = false) ∧ (kLogic (· &&& ·) (s.rs p).a (s.rs p).atag c = .val v g) :=
  ⟨W.kn 0x1800 W.regs, 0, ⟨.and, 0, 0, 0, 0⟩, 1, 0x02080000, ⟨7, tagInt⟩, 5, tagInt, by decide +kernel⟩

theorem witness_CoreArithmetic_8 : ∃ (s : State) (p : Pair) (i : Kn) (n ea : Nat) (c : Cell) (v : BitVec 40) (g : BitVec
4), (s.issues p i = true) ∧ (i.op = .or) ∧ ((s.issue p).operand p i = some (n, ea)) ∧ (s.canLoad p n ea c = true) ∧
(noValue (s.rs p).atag = false) ∧ (kLogic (· ||| ·) (s.rs p).a (s.rs p).atag c = .val v g) :=
  ⟨W.kn 0x1900 W.regs, 0, ⟨.or, 0, 0, 0, 0⟩, 1, 0x02080000, ⟨7, tagInt⟩, 7, tagInt, by decide +kernel⟩

theorem witness_CoreArithmetic_9 : ∃ (s : State) (p : Pair) (i : Kn) (n ea : Nat) (c : Cell) (v : BitVec 40) (g : BitVec
4), (s.issues p i = true) ∧ (i.op = .xor) ∧ ((s.issue p).operand p i = some (n, ea)) ∧ (s.canLoad p n ea c = true) ∧
(noValue (s.rs p).atag = false) ∧ (kLogic (· ^^^ ·) (s.rs p).a (s.rs p).atag c = .val v g) :=
  ⟨W.kn 0x1A00 W.regs, 0, ⟨.xor, 0, 0, 0, 0⟩, 1, 0x02080000, ⟨7, tagInt⟩, 2, tagInt, by decide +kernel⟩

theorem witness_CoreArithmetic_10 : ∃ (s : State) (p : Pair) (i : Kn) (n ea : Nat) (c : Cell) (g : BitVec 4), (s.issues p i
= true) ∧ (i.op = .add) ∧ ((s.issue p).operand p i = some (n, ea)) ∧ (s.canLoad p n ea c = true) ∧ (kAdd false false (s.rs
p).a (s.rs p).atag c = .open_ g) :=
  ⟨(W.kn 0x1200 { W.regs with a := 0x7FFFFFFFFF, atag := tagQ31 }).setCell 0x02080000 ⟨7, tagQ31⟩, 0, ⟨.add, 0, 0, 0, 0⟩,
  1, 0x02080000, ⟨7, tagQ31⟩, tagQ31, by decide +kernel⟩

theorem witness_CoreArithmetic_11 : ∃ (s : State) (p : Pair) (i : Kn) (n ea : Nat) (c : Cell) (g : BitVec 4), (s.issues p i
= true) ∧ (i.op = .sub) ∧ ((s.issue p).operand p i = some (n, ea)) ∧ (s.canLoad p n ea c = true) ∧ (kAdd true false (s.rs
p).a (s.rs p).atag c = .open_ g) :=
  ⟨(W.kn 0x1300 { W.regs with a := 0x8000000000, atag := tagQ31 }).setCell 0x02080000 ⟨7, tagQ31⟩, 0, ⟨.sub, 0, 0, 0, 0⟩,
  1, 0x02080000, ⟨7, tagQ31⟩, tagQ31, by decide +kernel⟩

theorem witness_CoreArithmetic_12 : ∃ (s : State) (p : Pair) (i : Kn) (n ea : Nat) (c : Cell) (g : BitVec 4), (s.issues p i
= true) ∧ (i.op = .macx) ∧ ((s.issue p).operand p i = some (n, ea)) ∧ (s.canLoad p n ea c = true) ∧ (noValue (s.rs p).x.tag
= false) ∧ (kMacx (s.rs p).a (s.rs p).atag (s.rs p).x c = .open_ g) :=
  ⟨(W.kn 0x1700 { W.regs with a := 0x7FFFFFFFFF, atag := tagQ31, x := ⟨0x40000000, tagQ31⟩ }).setCell 0x02080000
  ⟨0x40000000, tagQ31⟩, 0, ⟨.macx, 0, 0, 0, 0⟩, 1, 0x02080000, ⟨0x40000000, tagQ31⟩, tagQ31, by decide +kernel⟩

theorem witness_CoreArithmetic_13 : ∃ (s : State) (p : Pair) (i : Kn) (n ea : Nat) (c : Cell), (s.issues p i = true) ∧
(i.op = .add) ∧ ((s.issue p).operand p i = some (n, ea)) ∧ (s.canLoad p n ea c = true) ∧ (s.sbClear p ea 4 = true) ∧ (kAdd
false false (s.rs p).a (s.rs p).atag c = .bad) :=
  ⟨W.kn 0x1200 { W.regs with atag := tagUint }, 0, ⟨.add, 0, 0, 0, 0⟩, 1, 0x02080000, ⟨7, tagInt⟩, by decide +kernel⟩

theorem witness_CoreArithmetic_14 : ∃ (s : State) (p : Pair) (i : Kn) (n ea : Nat) (c : Cell), (s.issues p i = true) ∧
(i.op = .sub) ∧ ((s.issue p).operand p i = some (n, ea)) ∧ (s.canLoad p n ea c = true) ∧ (s.sbClear p ea 4 = true) ∧ (kAdd
true false (s.rs p).a (s.rs p).atag c = .bad) :=
  ⟨W.kn 0x1300 { W.regs with atag := tagUint }, 0, ⟨.sub, 0, 0, 0, 0⟩, 1, 0x02080000, ⟨7, tagInt⟩, by decide +kernel⟩

theorem witness_CoreArithmetic_15 : ∃ (s : State) (p : Pair) (i : Kn) (n ea : Nat) (c : Cell), (s.issues p i = true) ∧
(i.op = .adds) ∧ ((s.issue p).operand p i = some (n, ea)) ∧ (s.canLoad p n ea c = true) ∧ (s.sbClear p ea 4 = true) ∧ (kAdd
false true (s.rs p).a (s.rs p).atag c = .bad) :=
  ⟨W.kn 0x1400 { W.regs with atag := tagUint }, 0, ⟨.adds, 0, 0, 0, 0⟩, 1, 0x02080000, ⟨7, tagInt⟩, by decide +kernel⟩

theorem witness_CoreArithmetic_16 : ∃ (s : State) (p : Pair) (i : Kn) (n ea : Nat) (c : Cell), (s.issues p i = true) ∧
(i.op = .subs) ∧ ((s.issue p).operand p i = some (n, ea)) ∧ (s.canLoad p n ea c = true) ∧ (s.sbClear p ea 4 = true) ∧ (kAdd
true true (s.rs p).a (s.rs p).atag c = .bad) :=
  ⟨W.kn 0x1500 { W.regs with atag := tagUint }, 0, ⟨.subs, 0, 0, 0, 0⟩, 1, 0x02080000, ⟨7, tagInt⟩, by decide +kernel⟩

theorem witness_CoreArithmetic_17 : ∃ (s : State) (p : Pair) (i : Kn) (n ea : Nat) (c : Cell), (s.issues p i = true) ∧
(i.op = .mul) ∧ ((s.issue p).operand p i = some (n, ea)) ∧ (s.canLoad p n ea c = true) ∧ (s.sbClear p ea 4 = true) ∧ (kMul
(s.rs p).a (s.rs p).atag c = .bad) :=
  ⟨W.kn 0x1600 { W.regs with atag := tagUint }, 0, ⟨.mul, 0, 0, 0, 0⟩, 1, 0x02080000, ⟨7, tagInt⟩, by decide +kernel⟩

theorem witness_CoreArithmetic_18 : ∃ (s : State) (p : Pair) (i : Kn) (n ea : Nat) (c : Cell), (s.issues p i = true) ∧
(i.op = .macx) ∧ ((s.issue p).operand p i = some (n, ea)) ∧ (s.canLoad p n ea c = true) ∧ (s.sbClear p ea 4 = true) ∧
(kMacx (s.rs p).a (s.rs p).atag (s.rs p).x c = .bad) :=
  ⟨W.kn 0x1700 { W.regs with atag := tagUint }, 0, ⟨.macx, 0, 0, 0, 0⟩, 1, 0x02080000, ⟨7, tagInt⟩, by decide +kernel⟩

theorem witness_CoreArithmetic_19 : ∃ (s : State) (p : Pair) (i : Kn) (n ea : Nat) (c : Cell), (s.issues p i = true) ∧
(i.op = .and) ∧ ((s.issue p).operand p i = some (n, ea)) ∧ (s.canLoad p n ea c = true) ∧ (s.sbClear p ea 4 = true) ∧
(kLogic (· &&& ·) (s.rs p).a (s.rs p).atag c = .bad) :=
  ⟨W.kn 0x1800 { W.regs with atag := tagUint }, 0, ⟨.and, 0, 0, 0, 0⟩, 1, 0x02080000, ⟨7, tagInt⟩, by decide +kernel⟩

theorem witness_CoreArithmetic_20 : ∃ (s : State) (p : Pair) (i : Kn) (n ea : Nat) (c : Cell), (s.issues p i = true) ∧
(i.op = .or) ∧ ((s.issue p).operand p i = some (n, ea)) ∧ (s.canLoad p n ea c = true) ∧ (s.sbClear p ea 4 = true) ∧ (kLogic
(· ||| ·) (s.rs p).a (s.rs p).atag c = .bad) :=
  ⟨W.kn 0x1900 { W.regs with atag := tagUint }, 0, ⟨.or, 0, 0, 0, 0⟩, 1, 0x02080000, ⟨7, tagInt⟩, by decide +kernel⟩

theorem witness_CoreArithmetic_21 : ∃ (s : State) (p : Pair) (i : Kn) (n ea : Nat) (c : Cell), (s.issues p i = true) ∧
(i.op = .xor) ∧ ((s.issue p).operand p i = some (n, ea)) ∧ (s.canLoad p n ea c = true) ∧ (s.sbClear p ea 4 = true) ∧
(kLogic (· ^^^ ·) (s.rs p).a (s.rs p).atag c = .bad) :=
  ⟨W.kn 0x1A00 { W.regs with atag := tagUint }, 0, ⟨.xor, 0, 0, 0, 0⟩, 1, 0x02080000, ⟨7, tagInt⟩, by decide +kernel⟩

theorem witness_CoreStores_1 : ∃ (s : State) (p : Pair) (i : Kn) (n ea : Nat) (c : Cell), (s.issues p i = true) ∧ (i.op =
.sta) ∧ ((s.issue p).operand p i = some (n, ea)) ∧ (c = (s.rs p).acell) ∧ (s.canStore p n ea c = true) :=
  ⟨W.kn 0x1100 W.regs, 0, ⟨.sta, 0, 0, 0, 0⟩, 1, 0x02080000, ⟨5, tagInt⟩, by decide +kernel⟩

theorem witness_CoreStores_2 : ∃ (s : State) (p : Pair) (i : Kn) (n ea : Nat) (c : Cell), (s.issues p i = true) ∧ (i.op =
.stx) ∧ ((s.issue p).operand p i = some (n, ea)) ∧ (c = (s.rs p).x) ∧ (s.canStore p n ea c = true) :=
  ⟨W.kn 0x1C00 W.regs, 0, ⟨.stx, 0, 0, 0, 0⟩, 1, 0x02080000, ⟨0x02080010, tagAddr⟩, by decide +kernel⟩

theorem witness_CoreStores_3 : ∃ (s : State) (p : Pair) (i : Kn) (n ea : Nat) (c : Cell), (s.issues p i = true) ∧ (i.op =
.sty) ∧ ((s.issue p).operand p i = some (n, ea)) ∧ (c = (s.rs p).y) ∧ (s.canStore p n ea c = true) :=
  ⟨W.kn 0x1E00 W.regs, 0, ⟨.sty, 0, 0, 0, 0⟩, 1, 0x02080000, ⟨3, tagUint⟩, by decide +kernel⟩

theorem witness_CoreStores_4 : ∃ (s : State) (p : Pair) (i : Kn) (n ea : Nat) (c : Cell) (a : Cell), (s.issues p i = true)
∧ (i.op = .xch) ∧ ((s.issue p).operand p i = some (n, ea)) ∧ (a = (s.rs p).acell) ∧ (noValue a.tag = false) ∧ ((s.issue
p).eaFault p ((s.issue p).quadAt p n) ea 4 4 [pRead, pWrite] = none) ∧ ((s.issue p).pairBars p (pairAccess p ((s.issue
p).quadAt p n)) ea true a.v = none) ∧ (s.cellsOk ea 1 = true) ∧ (s.sbClear p ea 4 = true) ∧ (c = s.cell ea) ∧ (operandTag
((s.issue p).quadAt p n) c.tag = none) ∧ (a.tag ≠ tagRaw) :=
  ⟨W.kn 0x1F00 W.regs, 0, ⟨.xch, 0, 0, 0, 0⟩, 1, 0x02080000, ⟨7, tagInt⟩, ⟨5, tagInt⟩, by decide +kernel⟩

theorem witness_CoreStores_5 : ∃ (s : State) (p : Pair) (i : Kn) (c : Cell) (d : Nat), (s.issues p i = true) ∧ (i.op =
.pusha) ∧ (c = (s.rs p).acell) ∧ (s.dspNow p = d + 4) ∧ (s.canStore p 2 d c = true) :=
  ⟨W.kn 0x3008 W.regs, 0, ⟨.pusha, 0, 0, 0, 0⟩, ⟨5, tagInt⟩, 0x020907FC, by decide +kernel⟩

theorem witness_CoreStores_6 : ∃ (s : State) (p : Pair) (i : Kn) (c : Cell) (d : Nat), (s.issues p i = true) ∧ (i.op =
.pushx) ∧ (c = (s.rs p).x) ∧ (s.dspNow p = d + 4) ∧ (s.canStore p 2 d c = true) :=
  ⟨W.kn 0x300A W.regs, 0, ⟨.pushx, 0, 0, 0, 0⟩, ⟨0x02080010, tagAddr⟩, 0x020907FC, by decide +kernel⟩

theorem witness_CoreStores_7 : ∃ (s : State) (p : Pair) (i : Kn) (c : Cell) (d : Nat), (s.issues p i = true) ∧ (i.op =
.pushy) ∧ (c = (s.rs p).y) ∧ (s.dspNow p = d + 4) ∧ (s.canStore p 2 d c = true) :=
  ⟨W.kn 0x300C W.regs, 0, ⟨.pushy, 0, 0, 0, 0⟩, ⟨3, tagUint⟩, 0x020907FC, by decide +kernel⟩

theorem witness_CoreStores_8 : ∃ (s : State) (p : Pair) (i : Kn) (c : Cell), (s.issues p i = true) ∧ (i.op = .popa) ∧
(s.canLoad p 2 (s.dspNow p) c = true) :=
  ⟨W.kn 0x3009 W.regs, 0, ⟨.popa, 0, 0, 0, 0⟩, ⟨6, tagInt⟩, by decide +kernel⟩

theorem witness_CoreStores_9 : ∃ (s : State) (p : Pair) (i : Kn) (c : Cell), (s.issues p i = true) ∧ (i.op = .popx) ∧
(s.canLoad p 2 (s.dspNow p) c = true) :=
  ⟨W.kn 0x300B W.regs, 0, ⟨.popx, 0, 0, 0, 0⟩, ⟨6, tagInt⟩, by decide +kernel⟩

theorem witness_CoreStores_10 : ∃ (s : State) (p : Pair) (i : Kn) (c : Cell), (s.issues p i = true) ∧ (i.op = .popy) ∧
(s.canLoad p 2 (s.dspNow p) c = true) :=
  ⟨W.kn 0x300D W.regs, 0, ⟨.popy, 0, 0, 0, 0⟩, ⟨6, tagInt⟩, by decide +kernel⟩

theorem witness_CoreStores_11 : ∃ (s : State) (p : Pair) (a : Nat) (c : Cell) (l : List SbEntry), (p.val < 12 → s.slState p
≠ slRecovering) ∧ ((s.kr p).sb = .cell a c :: l) ∧ (a % 4 = 0) ∧ (inCopy a = false) ∧ (s.memStalls a = false) ∧
(s.absentSlice a = false) ∧ (s.absentMain a = false) ∧ (s.mark a = none) :=
  ⟨W.kn 0x0 { W.regs with sb := [.cell 0x02080000 ⟨1, tagInt⟩, .byte 0x02080005 3] }, 0, 0x02080000, ⟨1, tagInt⟩, [.byte
  0x02080005 3], by decide +kernel⟩

theorem witness_CoreStores_12 : ∃ (s : State) (p : Pair) (a : Nat) (b : BitVec 8) (l : List SbEntry), (p.val < 12 →
s.slState p ≠ slRecovering) ∧ ((s.kr p).sb = .byte a b :: l) ∧ (inCopy a = false) ∧ (s.memStalls a = false) ∧
(s.absentSlice a = false) ∧ (s.absentMain a = false) ∧ (s.mark (a / 4 * 4) = none) ∧ (s.mark a = none) ∧ ((s.cell (a / 4 *
4)).tag = tagInt) ∧ (isCells a = true) :=
  ⟨W.kn 0x0 { W.regs with sb := [.byte 0x02080001 3] }, 0, 0x02080001, 3, [], by decide +kernel⟩

theorem witness_CoreNarrowAccess_1 : ∃ (s : State) (p : Pair) (i : Kn) (ea : Nat) (c : Cell), (s.issues p i = true) ∧ (i.op
= .ldb) ∧ ((s.issue p).narrowEa p i = some ea) ∧ ((s.issue p).narrowFault p ((s.issue p).quadAt p 1) ea 1 [pRead] false =
none) ∧ (s.cellsOk (ea / 4 * 4) 1 = true) ∧ (s.sbClear p ea 1 = true) ∧ (c = s.cell (ea / 4 * 4)) ∧ (c.tag = tagInt) :=
  ⟨(W.kn 0x3E01 W.regs).setCell 0x02080010 ⟨0x80818081, tagInt⟩, 0, ⟨.ldb, 0, 1, 0, 0⟩, 0x2080011, ⟨0x80818081, tagInt⟩, by
  decide +kernel⟩

theorem witness_CoreNarrowAccess_2 : ∃ (s : State) (p : Pair) (i : Kn) (ea : Nat) (c : Cell), (s.issues p i = true) ∧ (i.op
= .ldb) ∧ ((s.issue p).narrowEa p i = some ea) ∧ ((s.issue p).narrowFault p ((s.issue p).quadAt p 1) ea 1 [pRead] false =
none) ∧ (s.cellsOk (ea / 4 * 4) 1 = true) ∧ (s.sbClear p ea 1 = true) ∧ (c = s.cell (ea / 4 * 4)) ∧ (c.tag = tagUint) :=
  ⟨(W.kn 0x3E01 W.regs).setCell 0x02080010 ⟨0x80818081, tagUint⟩, 0, ⟨.ldb, 0, 1, 0, 0⟩, 0x2080011, ⟨0x80818081, tagUint⟩,
  by decide +kernel⟩

theorem witness_CoreNarrowAccess_3 : ∃ (s : State) (p : Pair) (i : Kn) (ea : Nat) (c : Cell), (s.issues p i = true) ∧ (i.op
= .ldh) ∧ ((s.issue p).narrowEa p i = some ea) ∧ ((s.issue p).narrowFault p ((s.issue p).quadAt p 1) ea 2 [pRead] false =
none) ∧ (s.cellsOk (ea / 4 * 4) 1 = true) ∧ (s.sbClear p ea 2 = true) ∧ (c = s.cell (ea / 4 * 4)) ∧ (c.tag = tagInt) :=
  ⟨(W.kn 0x3E22 W.regs).setCell 0x02080010 ⟨0x80818081, tagInt⟩, 0, ⟨.ldh, 0, 2, 0, 0⟩, 0x2080012, ⟨0x80818081, tagInt⟩, by
  decide +kernel⟩

theorem witness_CoreNarrowAccess_4 : ∃ (s : State) (p : Pair) (i : Kn) (ea : Nat) (c : Cell), (s.issues p i = true) ∧ (i.op
= .ldh) ∧ ((s.issue p).narrowEa p i = some ea) ∧ ((s.issue p).narrowFault p ((s.issue p).quadAt p 1) ea 2 [pRead] false =
none) ∧ (s.cellsOk (ea / 4 * 4) 1 = true) ∧ (s.sbClear p ea 2 = true) ∧ (c = s.cell (ea / 4 * 4)) ∧ (c.tag = tagUint) :=
  ⟨(W.kn 0x3E22 W.regs).setCell 0x02080010 ⟨0x80818081, tagUint⟩, 0, ⟨.ldh, 0, 2, 0, 0⟩, 0x2080012, ⟨0x80818081, tagUint⟩,
  by decide +kernel⟩

theorem witness_CoreNarrowAccess_5 : ∃ (s : State) (p : Pair) (i : Kn) (ea : Nat) (lo hi : Cell) (w : Word), (s.issues p i
= true) ∧ (i.op = .ldu) ∧ (w = (lo.v >>> (8 * (ea % 4))) ||| (hi.v <<< (32 - 8 * (ea % 4)))) ∧ ((s.issue p).narrowEa p i =
some ea) ∧ (ea % 4 ≠ 0) ∧ ((s.issue p).narrowFault p ((s.issue p).quadAt p 1) ea 1 [pRead] false = none) ∧ ((s.issue
p).pairBars p (pairAccess p ((s.issue p).quadAt p 1)) (ea / 4 * 4 + 4) false 0 = none) ∧ (s.cellsOk (ea / 4 * 4) 2 = true)
∧ (s.sbClear p ea 4 = true) ∧ (lo = s.cell (ea / 4 * 4)) ∧ (hi = s.cell (ea / 4 * 4 + 4)) ∧ (lo.tag = hi.tag) ∧ (lo.tag =
tagInt ∨ lo.tag = tagUint ∨ lo.tag = tagQ31 ∨ lo.tag = tagFrac2) :=
  ⟨((W.kn 0x3E81 W.regs).setCell 0x02080010 ⟨0x11223344, tagUint⟩).setCell 0x02080014 ⟨0x55667788, tagUint⟩, 0, ⟨.ldu, 0,
  1, 0, 0⟩, 0x02080011, ⟨0x11223344, tagUint⟩, ⟨0x55667788, tagUint⟩, 0x88112233, by decide +kernel⟩

theorem witness_CoreNarrowAccess_6 : ∃ (s : State) (p : Pair) (i : Kn) (ea : Nat) (c : Cell), (s.issues p i = true) ∧ (i.op
= .ldu) ∧ ((s.issue p).narrowEa p i = some ea) ∧ (ea % 4 = 0) ∧ (s.canLoad p 1 ea c = true) :=
  ⟨W.kn 0x3E80 W.regs, 0, ⟨.ldu, 0, 0, 0, 0⟩, 0x02080010, ⟨9, tagInt⟩, by decide +kernel⟩

theorem witness_CoreNarrowAccess_7 : ∃ (s : State) (p : Pair) (i : Kn) (ea : Nat), (s.issues p i = true) ∧ (i.op = .stb) ∧
((s.issue p).narrowEa p i = some ea) ∧ ((s.issue p).narrowFault p ((s.issue p).quadAt p 1) ea 1 [pWrite] true = none) ∧
(isCells ea = true) ∧ (narrowOk (s.rs p).atag true = true) ∧ (narrowTag ((s.issue p).quadAt p 1) ((s.issue p).standing p
(ea / 4 * 4)).tag = none) ∧ ((s.rs p).sb.length < 4) :=
  ⟨W.kn 0x3E41 W.regs, 0, ⟨.stb, 0, 1, 0, 0⟩, 0x02080011, by decide +kernel⟩

theorem witness_CoreNarrowAccess_8 : ∃ (s : State) (p : Pair) (i : Kn) (ea : Nat), (s.issues p i = true) ∧ (i.op = .sth) ∧
((s.issue p).narrowEa p i = some ea) ∧ ((s.issue p).narrowFault p ((s.issue p).quadAt p 1) ea 2 [pWrite] true = none) ∧
(isCells ea = true) ∧ (narrowOk (s.rs p).atag true = true) ∧ (narrowTag ((s.issue p).quadAt p 1) ((s.issue p).standing p
(ea / 4 * 4)).tag = none) ∧ ((s.rs p).sb.length < 4) :=
  ⟨W.kn 0x3E62 W.regs, 0, ⟨.sth, 0, 2, 0, 0⟩, 0x02080012, by decide +kernel⟩

theorem witness_CoreRegisterMoves_1 : ∃ (s : State) (p : Pair) (i : Kn), (s.issues p i = true) ∧ (i.op = .nop) :=
  ⟨W.kn 0x3000 W.regs, 0, ⟨.nop, 0, 0, 0, 0⟩, by decide +kernel⟩

theorem witness_CoreRegisterMoves_2 : ∃ (s : State) (p : Pair) (i : Kn), (s.issues p i = true) ∧ (i.op = .tax) ∧ (noValue
(s.rs p).atag = false) :=
  ⟨W.kn 0x3010 W.regs, 0, ⟨.tax, 0, 0, 0, 0⟩, by decide +kernel⟩

theorem witness_CoreRegisterMoves_3 : ∃ (s : State) (p : Pair) (i : Kn), (s.issues p i = true) ∧ (i.op = .txa) ∧ (noValue
(s.rs p).x.tag = false) :=
  ⟨W.kn 0x3011 W.regs, 0, ⟨.txa, 0, 0, 0, 0⟩, by decide +kernel⟩

theorem witness_CoreRegisterMoves_4 : ∃ (s : State) (p : Pair) (i : Kn), (s.issues p i = true) ∧ (i.op = .tay) ∧ (noValue
(s.rs p).atag = false) :=
  ⟨W.kn 0x3012 W.regs, 0, ⟨.tay, 0, 0, 0, 0⟩, by decide +kernel⟩

theorem witness_CoreRegisterMoves_5 : ∃ (s : State) (p : Pair) (i : Kn), (s.issues p i = true) ∧ (i.op = .tya) ∧ (noValue
(s.rs p).y.tag = false) :=
  ⟨W.kn 0x3013 W.regs, 0, ⟨.tya, 0, 0, 0, 0⟩, by decide +kernel⟩

theorem witness_CoreRegisterMoves_6 : ∃ (s : State) (p : Pair) (i : Kn), (s.issues p i = true) ∧ (i.op = .swxy) ∧ (noValue
(s.rs p).x.tag = false) ∧ (noValue (s.rs p).y.tag = false) :=
  ⟨W.kn 0x3014 W.regs, 0, ⟨.swxy, 0, 0, 0, 0⟩, by decide +kernel⟩

theorem witness_CoreRegisterMoves_7 : ∃ (s : State) (p : Pair) (i : Kn), (s.issues p i = true) ∧ (i.op = .rdsp) :=
  ⟨W.kn 0x3018 W.regs, 0, ⟨.rdsp, 0, 0, 0, 0⟩, by decide +kernel⟩

theorem witness_CoreRegisterMoves_8 : ∃ (s : State) (p : Pair) (i : Kn), (s.issues p i = true) ∧ (i.op = .wdsp) ∧ ((s.rs
p).x.tag = tagAddr) ∧ ((s.capNow p 2).unusable false = none) ∧ ((s.capNow p 2).lo ≤ (s.rs p).x.v.toNat) ∧ ((s.rs
p).x.v.toNat ≤ (s.capNow p 2).hi) :=
  ⟨W.kn 0x3019 { W.regs with x := ⟨0x02090100, tagAddr⟩ }, 0, ⟨.wdsp, 0, 0, 0, 0⟩, by decide +kernel⟩

theorem witness_CoreRegisterMoves_9 : ∃ (s : State) (p : Pair) (i : Kn), (s.issues p i = true) ∧ (i.op = .rpg) :=
  ⟨W.kn 0x301A W.regs, 0, ⟨.rpg, 0, 0, 0, 0⟩, by decide +kernel⟩

theorem witness_CoreRegisterMoves_10 : ∃ (s : State) (p : Pair) (i : Kn), (s.issues p i = true) ∧ (i.op = .wpg) ∧ ((s.rs
p).x.tag = tagUint) ∧ ((s.rs p).x.v.toNat < 65536) :=
  ⟨W.kn 0x301B { W.regs with x := ⟨77, tagUint⟩ }, 0, ⟨.wpg, 0, 0, 0, 0⟩, by decide +kernel⟩

theorem witness_CoreRegisterMoves_11 : ∃ (s : State) (p : Pair) (i : Kn), (s.issues p i = true) ∧ (i.op = .rdtag) :=
  ⟨W.kn 0x301C W.regs, 0, ⟨.rdtag, 0, 0, 0, 0⟩, by decide +kernel⟩

theorem witness_CoreRegisterMoves_12 : ∃ (s : State) (p : Pair) (i : Kn), (s.issues p i = true) ∧ (i.op = .rdtime) :=
  ⟨W.kn 0x3020 W.regs, 0, ⟨.rdtime, 0, 0, 0, 0⟩, by decide +kernel⟩

theorem witness_CoreRegisterMoves_13 : ∃ (s : State) (p : Pair) (i : Kn), (s.issues p i = true) ∧ (i.op = .ldia) :=
  ⟨W.kn 0x323F W.regs, 0, ⟨.ldia, 0, -1, 0, 0⟩, by decide +kernel⟩

theorem witness_CoreRegisterMoves_14 : ∃ (s : State) (p : Pair) (i : Kn), (s.issues p i = true) ∧ (i.op = .ldix) :=
  ⟨W.kn 0x3241 W.regs, 0, ⟨.ldix, 0, 1, 0, 0⟩, by decide +kernel⟩

theorem witness_CoreRegisterMoves_15 : ∃ (s : State) (p : Pair) (i : Kn), (s.issues p i = true) ∧ (i.op = .ldiy) :=
  ⟨W.kn 0x3281 W.regs, 0, ⟨.ldiy, 0, 1, 0, 0⟩, by decide +kernel⟩

theorem witness_CoreRegisterMoves_16 : ∃ (s : State) (p : Pair) (i : Kn), (s.issues p i = true) ∧ (i.op = .addia) ∧ ((s.rs
p).atag = tagInt) :=
  ⟨W.kn 0x32FF W.regs, 0, ⟨.addia, 0, -1, 0, 0⟩, by decide +kernel⟩

theorem witness_CoreRegisterMoves_17 : ∃ (s : State) (p : Pair) (i : Kn) (v : BitVec 40) (g : BitVec 4), (s.issues p i =
true) ∧ (i.op = .addia) ∧ (kAddImm (s.rs p).a (s.rs p).atag i.v = .val v g) :=
  ⟨W.kn 0x32FF { W.regs with atag := tagAddr }, 0, ⟨.addia, 0, -1, 0, 0⟩, 4, tagAddr, by decide +kernel⟩

theorem witness_CoreRegisterMoves_18 : ∃ (s : State) (p : Pair) (i : Kn) (d : Int), (s.issues p i = true) ∧ (i.op = .dsadj)
∧ ((s.capNow p 2).unusable false = none) ∧ (d = (s.dspNow p : Int) + 4 * i.v) ∧ (((s.capNow p 2).lo : Int) ≤ d) ∧ (d ≤
(s.capNow p 2).hi) :=
  ⟨W.kn 0x3D7F W.regs, 0, ⟨.dsadj, 0, -1, 0, 0⟩, 0x020907FC, by decide +kernel⟩

theorem witness_CoreRegisterMoves_19 : ∃ (s : State) (p : Pair) (i : Kn) (n ea : Nat), (s.issues p i = true) ∧ (i.op =
.lea) ∧ ((s.issue p).operand p i = some (n, ea)) ∧ (((s.issue p).quadAt p n).unusable false = none) ∧ (((s.issue p).quadAt
p n).lo ≤ ea) ∧ (ea + 4 ≤ ((s.issue p).quadAt p n).hi) :=
  ⟨W.kn 0x3402 W.regs, 0, ⟨.lea, 0, 2, 0, 0⟩, 1, 0x02080008, by decide +kernel⟩

theorem witness_CoreRegisterMoves_20 : ∃ (s : State) (p : Pair) (i : Kn) (c : Cell), (s.issues p i = true) ∧ (i.op =
.retag) ∧ (i.m = 0) ∧ (noValue (s.rs p).atag = false ∨ BitVec.ofNat 4 i.n = tagEmpty) ∧ ((s.issue p).rawFault p (s.rs
p).atag (BitVec.ofNat 4 i.n) = none) ∧ (c = ⟨(s.rs p).acell.v, BitVec.ofNat 4 i.n⟩) :=
  ⟨W.kn 0x3D01 W.regs, 0, ⟨.retag, 0, 0, 1, 0⟩, ⟨5, 1⟩, by decide +kernel⟩

theorem witness_CoreRegisterMoves_21 : ∃ (s : State) (p : Pair) (i : Kn), (s.issues p i = true) ∧ (i.op = .retag) ∧ (i.m =
1) ∧ (noValue (s.rs p).x.tag = false ∨ BitVec.ofNat 4 i.n = tagEmpty) ∧ ((s.issue p).rawFault p (s.rs p).x.tag
(BitVec.ofNat 4 i.n) = none) :=
  ⟨W.kn 0x3D12 W.regs, 0, ⟨.retag, 1, 0, 2, 0⟩, by decide +kernel⟩

theorem witness_CoreRegisterMoves_22 : ∃ (s : State) (p : Pair) (i : Kn), (s.issues p i = true) ∧ (i.op = .retag) ∧ (i.m =
2) ∧ (noValue (s.rs p).y.tag = false ∨ BitVec.ofNat 4 i.n = tagEmpty) ∧ ((s.issue p).rawFault p (s.rs p).y.tag
(BitVec.ofNat 4 i.n) = none) :=
  ⟨W.kn 0x3D20 W.regs, 0, ⟨.retag, 2, 0, 0, 0⟩, by decide +kernel⟩

theorem witness_CoreRegisterMoves_23 : ∃ (s : State) (p : Pair) (i : Kn), (s.issues p i = true) ∧ (i.op = .pfx) :=
  ⟨W.kn 0x3112 W.regs, 0, ⟨.pfx, 0, 18, 0, 0⟩, by decide +kernel⟩

theorem witness_BranchesAndJumps_1 : ∃ (s : State) (p : Pair) (i : Kn) (g : Bool), (s.issues p i = true) ∧ (i.op = .eq) ∧
(branchTaken (s.rs p) i = some g) :=
  ⟨W.kn 0x2105 { W.regs with y := ⟨3, tagInt⟩, lcount := 3, lstart := 7, lend := 12 }, 0, ⟨.eq, 2, 5, 0, 0⟩, false, by
  decide +kernel⟩

theorem witness_BranchesAndJumps_2 : ∃ (s : State) (p : Pair) (i : Kn) (g : Bool), (s.issues p i = true) ∧ (i.op = .ne) ∧
(branchTaken (s.rs p) i = some g) :=
  ⟨W.kn 0x2305 { W.regs with y := ⟨3, tagInt⟩, lcount := 3, lstart := 7, lend := 12 }, 0, ⟨.ne, 2, 5, 0, 0⟩, true, by
  decide +kernel⟩

theorem witness_BranchesAndJumps_3 : ∃ (s : State) (p : Pair) (i : Kn) (g : Bool), (s.issues p i = true) ∧ (i.op = .lt) ∧
(branchTaken (s.rs p) i = some g) :=
  ⟨W.kn 0x2505 { W.regs with y := ⟨3, tagInt⟩, lcount := 3, lstart := 7, lend := 12 }, 0, ⟨.lt, 2, 5, 0, 0⟩, false, by
  decide +kernel⟩

theorem witness_BranchesAndJumps_4 : ∃ (s : State) (p : Pair) (i : Kn) (g : Bool), (s.issues p i = true) ∧ (i.op = .ge) ∧
(branchTaken (s.rs p) i = some g) :=
  ⟨W.kn 0x2705 { W.regs with y := ⟨3, tagInt⟩, lcount := 3, lstart := 7, lend := 12 }, 0, ⟨.ge, 2, 5, 0, 0⟩, true, by
  decide +kernel⟩

theorem witness_BranchesAndJumps_5 : ∃ (s : State) (p : Pair) (i : Kn) (g : Bool), (s.issues p i = true) ∧ (i.op = .gt) ∧
(branchTaken (s.rs p) i = some g) :=
  ⟨W.kn 0x2905 { W.regs with y := ⟨3, tagInt⟩, lcount := 3, lstart := 7, lend := 12 }, 0, ⟨.gt, 2, 5, 0, 0⟩, true, by
  decide +kernel⟩

theorem witness_BranchesAndJumps_6 : ∃ (s : State) (p : Pair) (i : Kn) (g : Bool), (s.issues p i = true) ∧ (i.op = .le) ∧
(branchTaken (s.rs p) i = some g) :=
  ⟨W.kn 0x2B05 { W.regs with y := ⟨3, tagInt⟩, lcount := 3, lstart := 7, lend := 12 }, 0, ⟨.le, 2, 5, 0, 0⟩, false, by
  decide +kernel⟩

theorem witness_BranchesAndJumps_7 : ∃ (s : State) (p : Pair) (i : Kn) (g : Bool), (s.issues p i = true) ∧ (i.op = .teq) ∧
(branchTaken (s.rs p) i = some g) :=
  ⟨W.kn 0x2D05 { W.regs with y := ⟨3, tagInt⟩, lcount := 3, lstart := 7, lend := 12 }, 0, ⟨.teq, 2, 5, 0, 0⟩, true, by
  decide +kernel⟩

theorem witness_BranchesAndJumps_8 : ∃ (s : State) (p : Pair) (i : Kn) (g : Bool), (s.issues p i = true) ∧ (i.op = .tne) ∧
(branchTaken (s.rs p) i = some g) :=
  ⟨W.kn 0x2F05 { W.regs with y := ⟨3, tagInt⟩, lcount := 3, lstart := 7, lend := 12 }, 0, ⟨.tne, 2, 5, 0, 0⟩, false, by
  decide +kernel⟩

theorem witness_BranchesAndJumps_9 : ∃ (s : State) (p : Pair) (i : Kn) (d : Nat), (s.issues p i = true) ∧ (i.op = .jump) ∧
(((s.rs p).pc.toNat : Int) + i.v = d) ∧ ((s.issue p).execFault p ((s.issue p).actSet p) d = none) :=
  ⟨W.kn 0x3705 W.regs, 0, ⟨.jump, 0, 5, 0, 0⟩, 13, by decide +kernel⟩

theorem witness_BranchesAndJumps_10 : ∃ (s : State) (p : Pair) (i : Kn) (d : Nat), (s.issues p i = true) ∧ (i.op = .jumpx)
∧ ((s.rs p).x.tag = tagCode) ∧ ((s.rs p).x.v.toNat = d) ∧ ((s.issue p).execFault p ((s.issue p).actSet p) d = none) :=
  ⟨W.kn 0x3780 { W.regs with x := ⟨13, tagCode⟩ }, 0, ⟨.jumpx, 0, 0, 0, 0⟩, 13, by decide +kernel⟩

theorem witness_BranchesAndJumps_11 : ∃ (s : State) (p : Pair) (i : Kn) (b d : Nat), (s.issues p i = true) ∧ (i.op = .nop)
∧ (((s.issue p).coreOf p).slot = some (b, some d)) :=
  ⟨let s0 := W.kn 0x3000 W.regs; s0.setCore 0 { s0.coreOf 0 with slot := some (7, some 99) }, 0, ⟨.nop, 0, 0, 0, 0⟩, 7, 99,
  by decide +kernel⟩

theorem witness_BranchesAndJumps_12 : ∃ (s : State) (p : Pair) (i : Kn) (n : Int), (s.issues p i = true) ∧ (i.op = .loop) ∧
(loopCount (s.rs p) i = some n) ∧ (0 < n) :=
  ⟨W.kn 0x3323 { W.regs with y := ⟨9, tagUint⟩ }, 0, ⟨.loop, 1, 0, 4, 0⟩, 9, by decide +kernel⟩

theorem witness_BranchesAndJumps_13 : ∃ (s : State) (p : Pair) (i : Kn) (n : Int), (s.issues p i = true) ∧ (i.op = .loop) ∧
(loopCount (s.rs p) i = some n) ∧ (n ≤ 0) :=
  ⟨W.kn 0x3323 { W.regs with y := ⟨0xFFFFFFFF, tagInt⟩ }, 0, ⟨.loop, 1, 0, 4, 0⟩, -1, by decide +kernel⟩

theorem witness_BranchesAndJumps_14 : ∃ (s : State) (p : Pair) (i : Kn), (s.issues p i = true) ∧ (i.op = .nop) ∧ (((s.issue
p).coreOf p).slot = none) ∧ (1 < (s.rs p).lcount.toNat) ∧ ((s.rs p).lstart.toNat ≤ (s.rs p).pc.toNat) ∧ ((s.rs p).pc =
(s.rs p).lend) :=
  ⟨W.kn 0x3000 { W.regs with lcount := 3, lstart := 7, lend := 8 }, 0, ⟨.nop, 0, 0, 0, 0⟩, by decide +kernel⟩

theorem witness_BranchesAndJumps_15 : ∃ (s : State) (p : Pair) (i : Kn), (s.issues p i = true) ∧ (i.op = .nop) ∧ (((s.issue
p).coreOf p).slot = none) ∧ ((s.rs p).lcount = 1) ∧ ((s.rs p).lstart.toNat ≤ (s.rs p).pc.toNat) ∧ ((s.rs p).pc = (s.rs
p).lend) :=
  ⟨W.kn 0x3000 { W.regs with lcount := 1, lstart := 7, lend := 8 }, 0, ⟨.nop, 0, 0, 0, 0⟩, by decide +kernel⟩

theorem witness_CoreCallsAndReturns_1 : ∃ (s : State) (p : Pair) (i : Kn) (d r : Nat), (s.issues p i = true) ∧ (i.op =
.call) ∧ (((s.rs p).pc.toNat : Int) + i.v = d) ∧ ((s.issue p).execFault p ((s.issue p).actSet p) d = none) ∧ (s.rspNow p =
r + 4) ∧ ((s.capNow p 3).roomFault (r + 4) 4 = none) ∧ (s.cellsOk r 1 = true) ∧ (s.sbClear p r 4 = true) :=
  ⟨W.kn 0x3745 W.regs, 0, ⟨.call, 0, 5, 0, 0⟩, 13, 0x020917FC, by decide +kernel⟩

theorem witness_CoreCallsAndReturns_2 : ∃ (s : State) (p : Pair) (i : Kn) (d r : Nat), (s.issues p i = true) ∧ (i.op =
.callx) ∧ ((s.rs p).x.tag = tagCode) ∧ ((s.rs p).x.v.toNat = d) ∧ ((s.issue p).execFault p ((s.issue p).actSet p) d = none)
∧ (s.rspNow p = r + 4) ∧ ((s.capNow p 3).roomFault (r + 4) 4 = none) ∧ (s.cellsOk r 1 = true) ∧ (s.sbClear p r 4 = true) :=
  ⟨W.kn 0x37C0 { W.regs with x := ⟨13, tagCode⟩ }, 0, ⟨.callx, 0, 0, 0, 0⟩, 13, 0x020917FC, by decide +kernel⟩

theorem witness_CoreCallsAndReturns_3 : ∃ (s : State) (p : Pair) (i : Kn) (c : Cell), (s.issues p i = true) ∧ (i.op = .ret)
∧ (s.canTop p 1 = true) ∧ (c = s.cell (s.rspNow p)) ∧ (c.tag = tagCode) :=
  ⟨W.kn 0x3001 W.regs, 0, ⟨.ret, 0, 0, 0, 0⟩, ⟨20, tagCode⟩, by decide +kernel⟩

theorem witness_CoreCallsAndReturns_4 : ∃ (s : State) (p : Pair) (i : Kn) (a : Nat), (s.issues p i = true) ∧ (i.op =
.fcall) ∧ (a = R.KC_FPE p i.n) ∧ (s.isSet a F.KC_FPE_VALID = true) ∧ (natBit (s.getF a F.KC_FPE_CALLERS) ((s.issue
p).actSet p) = true) ∧ ((s.rs p).link.length < 4) :=
  ⟨(((W.kn 0x3802 W.regs).setF (R.KC_FPE 0 2) F.KC_FPE_VALID 1).setF (R.KC_FPE 0 2) F.KC_FPE_CALLERS 1).setF (R.KC_FPE 0 2)
  F.KC_FPE_ENTRY 40, 0, ⟨.fcall, 0, 0, 2, 0⟩, R.KC_FPE 0 2, by decide +kernel⟩

theorem witness_CoreCallsAndReturns_5 : ∃ (s : State) (p : Pair) (i : Kn) (a k : Nat) (l : List (Nat × Nat)), (s.issues p i
= true) ∧ (i.op = .fret) ∧ ((s.rs p).link = (a, k) :: l) ∧ (k < 8) ∧ (l.length < 4) :=
  ⟨W.kn 0x3002 { W.regs with link := [(40, 3)] }, 0, ⟨.fret, 0, 0, 0, 0⟩, 40, 3, [], by decide +kernel⟩

theorem witness_CoreCallsAndReturns_6 : ∃ (s : State) (p : Pair) (i : Kn) (a k : Nat), (s.issues p i = true) ∧ (i.op =
.fret) ∧ ((s.rs p).link = []) ∧ (s.canTop p 1 = true) ∧ (a < 2 ^ 17) ∧ (k < 8) ∧ (s.cell (s.rspNow p) = ⟨BitVec.ofNat 32 (3
* 2 ^ 28 + k * 2 ^ 20 + a), tagUint⟩) :=
  ⟨(W.kn 0x3002 W.regs).setCell 0x02091800 ⟨0x30300028, tagUint⟩, 0, ⟨.fret, 0, 0, 0, 0⟩, 40, 3, by decide +kernel⟩

theorem witness_CoreCallsAndReturns_7 : ∃ (s : State) (p : Pair) (i : Kn) (g : Quad) (k w rsp : Nat) (d1 : Cell), (s.issues
p i = true) ∧ (i.op = .gate) ∧ (g = s.capNow p i.n) ∧ (g.gateFault = none) ∧ ((s.issue p).pairBars p (pairAccess p g) g.lo
false 0 = none) ∧ (s.cellsOk g.lo 3 = true) ∧ (s.sbClear p g.lo 12 = true) ∧ (s.cell g.lo = ⟨BitVec.ofNat 32 w, tagUint⟩) ∧
(s.cell (g.lo + 4) = d1) ∧ (d1.tag = tagCode) ∧ (s.cell (g.lo + 8) = ⟨BitVec.ofNat 32 k, tagUint⟩) ∧ (w < 2 ^ 32) ∧ (w / 2
^ 29 ≤ 3) ∧ (w / 2 ^ 24 % 32 = 0) ∧ (k < 8) ∧ (gateArg w ((s.rs p).args.take (w / 2 ^ 29)) = none) ∧ ((s.issue
p).calleeFault p k d1.v.toNat 0 = none) ∧ (((s.rs p).set k).rsp.toNat = rsp + 12) ∧ (s.cellsOk rsp 3 = true) ∧ (s.sbClear p
rsp 12 = true) :=
  ⟨(((W.kn 0x3905 W.regs).setCell 0x02080100 ⟨0, tagUint⟩).setCell 0x02080104 ⟨50, tagCode⟩).setCell 0x02080108 ⟨3,
  tagUint⟩, 0, ⟨.gate, 0, 0, 5, 0⟩, W.quad 0x02080100 16 0x0080 0x80000000, 3, 0, 0x020917F4, ⟨50, tagCode⟩, by
  decide +kernel⟩

theorem witness_CoreCallsAndReturns_8 : ∃ (s : State) (p : Pair) (i : Kn) (k n r d : Nat), (s.issues p i = true) ∧ (i.op =
.gret) ∧ (s.canTop p 3 = true) ∧ (r = s.rspNow p) ∧ (k < 8) ∧ (n < 8) ∧ (s.cell r = ⟨BitVec.ofNat 32 (2 * 2 ^ 28 + k * 2 ^
20 + n), tagUint⟩) ∧ ((s.cell (r + 4)).tag = tagCode) ∧ (s.cell (r + 8) = ⟨BitVec.ofNat 32 d, tagAddr⟩) :=
  ⟨(((W.kn 0x3003 W.regs).setCell 0x02091800 ⟨0x20300001, tagUint⟩).setCell 0x02091804 ⟨50, tagCode⟩).setCell 0x02091808
  ⟨0x02090700, tagAddr⟩, 0, ⟨.gret, 0, 0, 0, 0⟩, 3, 1, 0x02091800, 0x02090700, by decide +kernel⟩

theorem witness_CoreCallsAndReturns_9 : ∃ (s : State) (p : Pair) (i : Kn) (st r : Nat), (s.issues p i = true) ∧ (i.op =
.rfe) ∧ ((s.rs p).efr = 0) ∧ (s.canTop p 8 = true) ∧ (r = s.rspNow p) ∧ (s.cell r = ⟨BitVec.ofNat 32 st, tagUint⟩) ∧ (st /
2 ^ 28 = 1) ∧ (st / 2 ^ 10 % 64 ≠ 0) ∧ ((s.issue p).ready p (st / 2 ^ 23 % 32) = none) :=
  ⟨((W.kn 0x3004 W.regs).setCell 0x02091800 ⟨0x11200400, tagUint⟩).setCell 0x02091804 ⟨50, tagCode⟩, 0, ⟨.rfe, 0, 0, 0, 0⟩,
  0x11200400, 0x02091800, by decide +kernel⟩

theorem witness_LockedSequences_1 : ∃ (s : State) (p : Pair) (i : Kn), (s.issues p i = true) ∧ (i.op = .lock) :=
  ⟨W.kn 0x3005 W.regs, 0, ⟨.lock, 0, 0, 0, 0⟩, by decide +kernel⟩

theorem witness_LockedSequences_2 : ∃ (s : State) (p : Pair) (i : Kn) (n ea : Nat) (c : Cell) (l : LockSt), (s.issues p i =
true) ∧ (i.op = .lda) ∧ ((s.issue p).operand p i = some (n, ea)) ∧ (s.canLoad p n ea c = true) ∧ (((s.issue p).coreOf
p).lock = some l) ∧ (l.resv = none) :=
  ⟨let s0 := W.kn 0x1000 W.regs; s0.setCore 0 { s0.coreOf 0 with lock := some ⟨1, none, true⟩ }, 0, ⟨.lda, 0, 0, 0, 0⟩, 1,
  0x02080000, ⟨7, tagInt⟩, ⟨1, none, true⟩, by decide +kernel⟩

theorem witness_LockedSequences_3 : ∃ (s : State) (p : Pair) (i : Kn) (n ea : Nat) (c : Cell), (s.issues p i = true) ∧
(i.op = .sc) ∧ ((s.issue p).operand p i = some (n, ea)) ∧ (c = (s.rs p).acell) ∧ (noValue c.tag = false) ∧ ((s.issue
p).storeFault p ((s.issue p).quadAt p n) ea [pWrite] c = none) ∧ (((s.issue p).coreOf p).holds ea = true) ∧ (s.cellsOk ea 1
= true) ∧ (s.sbClear p ea 4 = true) :=
  ⟨let s0 := W.kn 0x3500 W.regs; s0.setCore 0 { s0.coreOf 0 with lock := some ⟨3, some 0x02080000, true⟩ }, 0, ⟨.sc, 0, 0,
  0, 0⟩, 1, 0x02080000, ⟨5, tagInt⟩, by decide +kernel⟩

theorem witness_LockedSequences_4 : ∃ (s : State) (p : Pair) (i : Kn) (n ea : Nat) (c : Cell), (s.issues p i = true) ∧
(i.op = .sc) ∧ ((s.issue p).operand p i = some (n, ea)) ∧ (c = (s.rs p).acell) ∧ (noValue c.tag = false) ∧ ((s.issue
p).storeFault p ((s.issue p).quadAt p n) ea [pWrite] c = none) ∧ (((s.issue p).coreOf p).holds ea = false) ∧ (spaceOf ea ≠
.reg) ∧ (s.sbClear p ea 4 = true) :=
  ⟨let s0 := W.kn 0x3500 W.regs; s0.setCore 0 { s0.coreOf 0 with lock := some ⟨3, some 0x02080000, false⟩ }, 0, ⟨.sc, 0, 0,
  0, 0⟩, 1, 0x02080000, ⟨5, tagInt⟩, by decide +kernel⟩

theorem witness_LockedSequences_5 : ∃ (s : State) (p : Pair) (l : LockSt), ((s.coreOf p).lock = some l) ∧ (16 ≤ l.n) :=
  ⟨let s0 := W.kn 0x3500 W.regs; s0.setCore 0 { s0.coreOf 0 with lock := some ⟨16, some 0x02080000, false⟩ }, 0, ⟨16, some
  0x02080000, false⟩, by decide +kernel⟩

theorem witness_LockedSequences_6 : ∃ (s : State) (p : Pair) (i : Kn), (s.issues p i = true) ∧ (i.op = .fence) ∧ (∀ e ∈
(s.rs p).sb, s.memStalls e.addr = false ∧ s.mark e.addr = none ∧ inCopy e.addr = false) ∧ ((s.rs p).sb.length ≤ 4) :=
  ⟨W.kn 0x3006 { W.regs with sb := [.cell 0x02080000 ⟨1, tagInt⟩, .byte 0x02080013 3] }, 0, ⟨.fence, 0, 0, 0, 0⟩, by
  decide +kernel⟩

theorem witness_LockedSequences_7 : ∃ (s : State) (p : Pair) (i : Kn) (e : Nat) (c : Cell), (s.issues p i = true) ∧ (i.op =
.fence) ∧ ((s.rs p).sb = [.cell e c]) ∧ (inCopy e = false) ∧ (s.memStalls e = false) ∧ (s.mark e = none) ∧ (s.absentSlice e
= false) ∧ (s.absentMain e = false) :=
  ⟨W.kn 0x3006 { W.regs with sb := [.cell 0x02080000 ⟨1, tagInt⟩] }, 0, ⟨.fence, 0, 0, 0, 0⟩, 0x02080000, ⟨1, tagInt⟩, by
  decide +kernel⟩

theorem witness_LockedSequences_8 : ∃ (s : State) (p : Pair) (i : Kn), (s.issues p i = true) ∧ (i.op = .wfe) :=
  ⟨W.kn 0x3007 W.regs, 0, ⟨.wfe, 0, 0, 0, 0⟩, by decide +kernel⟩

theorem witness_LockedSequences_9 : ∃ (s : State) (p : Pair) (i : Kn) (a : Nat), (s.issues p i = true) ∧ (i.op = .pstore) ∧
((s.rs p).atag = tagUint ∨ (s.rs p).atag = tagInt) ∧ ((s.rs p).a.toNat < 2 ^ 14) ∧ ((s.rs p).x.tag = tagCode) ∧ (a = (s.rs
p).x.v.toNat) ∧ (a < 2 ^ 17) ∧ ((s.capNow p 0).unusable true = none) ∧ ((s.capNow p 0).lo ≤ a) ∧ (a < (s.capNow p 0).hi) ∧
((s.capNow p 0).perm pWrite = true) :=
  ⟨W.kn 0x3600 { W.regs with x := ⟨13, tagCode⟩ }, 0, ⟨.pstore, 0, 0, 0, 0⟩, 13, by decide +kernel⟩

theorem witness_LegacyWords_1 : ∃ (s : State) (p : Pair) (i : Kn) (n ea : Nat) (c : Cell), (s.issues p i = true) ∧ (i.op =
.llda) ∧ (legacyCond (s.rs p) i.m = some true) ∧ ((s.issue p).operand p { i with m := 0 } = some (n, ea)) ∧ (s.canLoad p n
ea c = true) :=
  ⟨W.kn 0xA00 W.regs, 0, ⟨.llda, 5, 0, 0, 0⟩, 1, 0x02080000, ⟨7, tagInt⟩, by decide +kernel⟩

theorem witness_LegacyWords_2 : ∃ (s : State) (p : Pair) (i : Kn) (n ea : Nat) (c : Cell), (s.issues p i = true) ∧ (i.op =
.lsta) ∧ (legacyCond (s.rs p) i.m = some true) ∧ ((s.issue p).operand p { i with m := 0 } = some (n, ea)) ∧ (c = (s.rs
p).acell) ∧ (s.canStore p n ea c = true) :=
  ⟨W.kn 0xA40 W.regs, 0, ⟨.lsta, 5, 0, 0, 0⟩, 1, 0x02080000, ⟨5, tagInt⟩, by decide +kernel⟩

theorem witness_LegacyWords_3 : ∃ (s : State) (p : Pair) (i : Kn) (n ea : Nat) (c : Cell) (v : BitVec 40) (g : BitVec 4),
(s.issues p i = true) ∧ (i.op = .ladd) ∧ (legacyCond (s.rs p) i.m = some true) ∧ ((s.issue p).operand p { i with m := 0 } =
some (n, ea)) ∧ (s.canLoad p n ea c = true) ∧ (noValue (s.rs p).atag = false) ∧ (kAdd false false (s.rs p).a (s.rs p).atag
c = .val v g) :=
  ⟨W.kn 0xA80 W.regs, 0, ⟨.ladd, 5, 0, 0, 0⟩, 1, 0x02080000, ⟨7, tagInt⟩, 12, tagInt, by decide +kernel⟩

theorem witness_LegacyWords_4 : ∃ (s : State) (p : Pair) (i : Kn) (n ea : Nat) (c : Cell) (v : BitVec 40) (g : BitVec 4),
(s.issues p i = true) ∧ (i.op = .lsub) ∧ (legacyCond (s.rs p) i.m = some true) ∧ ((s.issue p).operand p { i with m := 0 } =
some (n, ea)) ∧ (s.canLoad p n ea c = true) ∧ (noValue (s.rs p).atag = false) ∧ (kAdd true false (s.rs p).a (s.rs p).atag c
= .val v g) :=
  ⟨W.kn 0xAC0 W.regs, 0, ⟨.lsub, 5, 0, 0, 0⟩, 1, 0x02080000, ⟨7, tagInt⟩, BitVec.ofInt 40 (-2), tagInt, by decide +kernel⟩

theorem witness_LegacyWords_5 : ∃ (s : State) (p : Pair) (i : Kn) (n ea : Nat) (c : Cell) (v : BitVec 40) (g : BitVec 4),
(s.issues p i = true) ∧ (i.op = .land) ∧ (legacyCond (s.rs p) i.m = some true) ∧ ((s.issue p).operand p { i with m := 0 } =
some (n, ea)) ∧ (s.canLoad p n ea c = true) ∧ (noValue (s.rs p).atag = false) ∧ (kLogic (· &&& ·) (s.rs p).a (s.rs p).atag
c = .val v g) :=
  ⟨W.kn 0xB00 W.regs, 0, ⟨.land, 5, 0, 0, 0⟩, 1, 0x02080000, ⟨7, tagInt⟩, 5, tagInt, by decide +kernel⟩

theorem witness_LegacyWords_6 : ∃ (s : State) (p : Pair) (i : Kn) (n ea : Nat) (c : Cell) (v : BitVec 40) (g : BitVec 4),
(s.issues p i = true) ∧ (i.op = .lor) ∧ (legacyCond (s.rs p) i.m = some true) ∧ ((s.issue p).operand p { i with m := 0 } =
some (n, ea)) ∧ (s.canLoad p n ea c = true) ∧ (noValue (s.rs p).atag = false) ∧ (kLogic (· ||| ·) (s.rs p).a (s.rs p).atag
c = .val v g) :=
  ⟨W.kn 0xB40 W.regs, 0, ⟨.lor, 5, 0, 0, 0⟩, 1, 0x02080000, ⟨7, tagInt⟩, 7, tagInt, by decide +kernel⟩

theorem witness_LegacyWords_7 : ∃ (s : State) (p : Pair) (i : Kn) (n ea : Nat) (c : Cell) (v : BitVec 40) (g : BitVec 4),
(s.issues p i = true) ∧ (i.op = .lxor) ∧ (legacyCond (s.rs p) i.m = some true) ∧ ((s.issue p).operand p { i with m := 0 } =
some (n, ea)) ∧ (s.canLoad p n ea c = true) ∧ (noValue (s.rs p).atag = false) ∧ (kLogic (· ^^^ ·) (s.rs p).a (s.rs p).atag
c = .val v g) :=
  ⟨W.kn 0xB80 W.regs, 0, ⟨.lxor, 5, 0, 0, 0⟩, 1, 0x02080000, ⟨7, tagInt⟩, 2, tagInt, by decide +kernel⟩

theorem witness_LegacyWords_8 : ∃ (s : State) (p : Pair) (i : Kn), (s.issues p i = true) ∧ (i.op = .jmpp) ∧ (legacyCond
(s.rs p) i.m = some true) :=
  ⟨W.kn 0x1C9 W.regs, 0, ⟨.jmpp, 0, 9, 0, 0⟩, by decide +kernel⟩

theorem witness_LegacyWords_9 : ∃ (s : State) (p : Pair) (i : Kn), (s.issues p i = true) ∧ (i.op = .llda) ∧ (legacyCond
(s.rs p) i.m = some false) :=
  ⟨W.kn 0x600 W.regs, 0, ⟨.llda, 3, 0, 0, 0⟩, by decide +kernel⟩

theorem witness_LegacyWords_10 : ∃ (s : State) (p : Pair) (i : Kn), (s.issues p i = true) ∧ (i.op = .lsta) ∧ (legacyCond
(s.rs p) i.m = some false) :=
  ⟨W.kn 0x640 W.regs, 0, ⟨.lsta, 3, 0, 0, 0⟩, by decide +kernel⟩

theorem witness_LegacyWords_11 : ∃ (s : State) (p : Pair) (i : Kn), (s.issues p i = true) ∧ (i.op = .ladd) ∧ (legacyCond
(s.rs p) i.m = some false) :=
  ⟨W.kn 0x680 W.regs, 0, ⟨.ladd, 3, 0, 0, 0⟩, by decide +kernel⟩

theorem witness_LegacyWords_12 : ∃ (s : State) (p : Pair) (i : Kn), (s.issues p i = true) ∧ (i.op = .lsub) ∧ (legacyCond
(s.rs p) i.m = some false) :=
  ⟨W.kn 0x6C0 W.regs, 0, ⟨.lsub, 3, 0, 0, 0⟩, by decide +kernel⟩

theorem witness_LegacyWords_13 : ∃ (s : State) (p : Pair) (i : Kn), (s.issues p i = true) ∧ (i.op = .land) ∧ (legacyCond
(s.rs p) i.m = some false) :=
  ⟨W.kn 0x700 W.regs, 0, ⟨.land, 3, 0, 0, 0⟩, by decide +kernel⟩

theorem witness_LegacyWords_14 : ∃ (s : State) (p : Pair) (i : Kn), (s.issues p i = true) ∧ (i.op = .lor) ∧ (legacyCond
(s.rs p) i.m = some false) :=
  ⟨W.kn 0x740 W.regs, 0, ⟨.lor, 3, 0, 0, 0⟩, by decide +kernel⟩

theorem witness_LegacyWords_15 : ∃ (s : State) (p : Pair) (i : Kn), (s.issues p i = true) ∧ (i.op = .lxor) ∧ (legacyCond
(s.rs p) i.m = some false) :=
  ⟨W.kn 0x780 W.regs, 0, ⟨.lxor, 3, 0, 0, 0⟩, by decide +kernel⟩

theorem witness_LegacyWords_16 : ∃ (s : State) (p : Pair) (i : Kn), (s.issues p i = true) ∧ (i.op = .jmpp) ∧ (legacyCond
(s.rs p) i.m = some false) :=
  ⟨W.kn 0x7C0 W.regs, 0, ⟨.jmpp, 3, 0, 0, 0⟩, by decide +kernel⟩

theorem witness_CapabilityInstructions_1 : ∃ (s : State) (p : Pair) (i : Kn) (ea : Nat) (q : Quad), (s.issues p i = true) ∧
(i.op = .cld) ∧ ((s.rs p).x.tag = tagAddr) ∧ (ea = (s.rs p).x.v.toNat) ∧ ((s.issue p).quadFault p ea [pRead, pQread] false
= none) ∧ (s.cellsOk ea 4 = true) ∧ (s.sbClear p ea 16 = true) ∧ (q = ⟨s.cell ea, s.cell (ea + 4), s.cell (ea + 8), s.cell
(ea + 12)⟩) ∧ (q.tags tagCap = true ∨ q.tags tagEmpty = true) :=
  ⟨(((W.kn 0x3A04 W.regs).setCell 0x02080010 ⟨0, tagEmpty⟩).setCell 0x02080014 ⟨9, tagEmpty⟩), 0, ⟨.cld, 0, 0, 4, 0⟩,
  0x02080010, ⟨⟨0, tagEmpty⟩, ⟨9, tagEmpty⟩, emptyCell, emptyCell⟩, by decide +kernel⟩

theorem witness_CapabilityInstructions_2 : ∃ (s : State) (p : Pair) (i : Kn) (ea : Nat) (q : Quad), (s.issues p i = true) ∧
(i.op = .cst) ∧ ((s.rs p).x.tag = tagAddr) ∧ (ea = (s.rs p).x.v.toNat) ∧ ((s.issue p).quadFault p ea [pWrite, pQwrite] true
= none) ∧ ((s.issue p).quadTags p ea = true) ∧ (s.cellsOk ea 4 = true) ∧ (s.sbClear p ea 16 = true) ∧ (q = s.capNow p i.n)
:=
  ⟨((W.kn 0x3A22 W.regs).setCell 0x02080010 ⟨0, tagEmpty⟩), 0, ⟨.cst, 0, 0, 2, 0⟩, 0x02080010, W.quad 0x02090000 0x1000
  0x07FF 0, by decide +kernel⟩

theorem witness_CapabilityInstructions_3 : ∃ (s : State) (p : Pair) (i : Kn) (q : Quad), (s.issues p i = true) ∧ (i.op =
.crange) ∧ (q = s.capNow p i.n) ∧ (q.valid = true) ∧ (q.closed = false) ∧ ((s.rs p).x.tag = (if q.program then tagCode else
tagAddr)) ∧ ((s.rs p).y.tag = tagUint) ∧ (q.lo ≤ (s.rs p).x.v.toNat) ∧ ((s.rs p).x.v.toNat + (s.rs p).y.v.toNat ≤ q.hi) :=
  ⟨W.kn 0x3A41 W.regs, 0, ⟨.crange, 0, 0, 1, 0⟩, W.quad 0x02080000 0x10000 0x07FF 0, by decide +kernel⟩

theorem witness_CapabilityInstructions_4 : ∃ (s : State) (p : Pair) (i : Kn) (q : Quad), (s.issues p i = true) ∧ (i.op =
.cmask) ∧ (q = s.capNow p i.n) ∧ (q.valid = true) ∧ (q.closed = false) ∧ ((s.rs p).atag = tagUint) :=
  ⟨W.kn 0x3A61 { W.regs with atag := tagUint }, 0, ⟨.cmask, 0, 0, 1, 0⟩, W.quad 0x02080000 0x10000 0x07FF 0, by
  decide +kernel⟩

theorem witness_CapabilityInstructions_5 : ∃ (s : State) (p : Pair) (i : Kn) (q : Quad) (k : Nat), (s.issues p i = true) ∧
(i.op = .cclose) ∧ (q = s.capNow p i.n) ∧ (q.valid = true) ∧ (q.closed = false) ∧ ((s.rs p).atag = tagUint) ∧ (k = (s.rs
p).a.toNat) ∧ (k < 65536) ∧ (q.perm pBind = true) ∧ ((s.issue p).keyOk p k = true) :=
  ⟨(W.kn 0x3A81 { W.regs with a := 0, atag := tagUint }), 0, ⟨.cclose, 0, 0, 1, 0⟩, W.quad 0x02080000 0x10000 0x07FF 0, 0,
  by decide +kernel⟩

theorem witness_CapabilityInstructions_6 : ∃ (s : State) (p : Pair) (i : Kn) (q : Quad) (k : Nat), (s.issues p i = true) ∧
(i.op = .copen) ∧ (q = s.capNow p i.n) ∧ (q.valid = true) ∧ (q.closed = true) ∧ ((s.rs p).atag = tagUint) ∧ (k = (s.rs
p).a.toNat) ∧ (q.key = k) ∧ ((s.issue p).keyOk p k = true) :=
  ⟨((W.kn 0x3AA6 { W.regs with a := 7, atag := tagUint }).setF (R.KC_KEYS 0 0) F.KC_KEYS_LAST 20), 0, ⟨.copen, 0, 0, 6, 0⟩,
  W.quad 0x02080000 256 0x000707FF 0x80000000, 7, by decide +kernel⟩

theorem witness_CapabilityInstructions_7 : ∃ (s : State) (p : Pair) (i : Kn), (s.issues p i = true) ∧ (i.op = .cclr) :=
  ⟨W.kn 0x3AC1 W.regs, 0, ⟨.cclr, 0, 0, 1, 0⟩, by decide +kernel⟩

theorem witness_CapabilityInstructions_8 : ∃ (s : State) (p : Pair) (i : Kn), (s.issues p i = true) ∧ (i.op = .cinfo) ∧
((s.rs p).x = ⟨0, tagUint⟩) ∧ ((s.capNow p i.n).valid = true) :=
  ⟨W.kn 0x3AE1 { W.regs with x := ⟨0, tagUint⟩ }, 0, ⟨.cinfo, 0, 0, 1, 0⟩, by decide +kernel⟩

theorem witness_CapabilityInstructions_9 : ∃ (s : State) (p : Pair) (i : Kn), (s.issues p i = true) ∧ (i.op = .cinfo) ∧
((s.rs p).x = ⟨2, tagUint⟩) ∧ ((s.capNow p i.n).valid = true) :=
  ⟨W.kn 0x3AE1 { W.regs with x := ⟨2, tagUint⟩ }, 0, ⟨.cinfo, 0, 0, 1, 0⟩, by decide +kernel⟩

theorem witness_CapabilityInstructions_10 : ∃ (s : State) (p : Pair) (i : Kn), (s.issues p i = true) ∧ (i.op = .cinfo) ∧
((s.rs p).x = ⟨1, tagUint⟩) ∧ ((s.capNow p i.n).valid = true) :=
  ⟨W.kn 0x3AE1 { W.regs with x := ⟨1, tagUint⟩ }, 0, ⟨.cinfo, 0, 0, 1, 0⟩, by decide +kernel⟩

theorem witness_CapabilityInstructions_11 : ∃ (s : State) (p : Pair) (i : Kn), (s.issues p i = true) ∧ (i.op = .cinfo) ∧
((s.rs p).x = ⟨3, tagUint⟩) ∧ ((s.capNow p i.n).valid = true) :=
  ⟨W.kn 0x3AE1 { W.regs with x := ⟨3, tagUint⟩ }, 0, ⟨.cinfo, 0, 0, 1, 0⟩, by decide +kernel⟩

theorem witness_CapabilityInstructions_12 : ∃ (s : State) (p : Pair) (i : Kn), (s.issues p i = true) ∧ (i.op = .cmov) ∧
((s.capNow p i.n).valid = true ∨ (s.capNow p i.n).isEmpty = true) :=
  ⟨W.kn 0x3B21 W.regs, 0, ⟨.cmov, 0, 0, 1, 4⟩, by decide +kernel⟩

theorem witness_CapabilityInstructions_13 : ∃ (s : State) (p : Pair) (i : Kn), (s.issues p i = true) ∧ (i.op = .ctst) :=
  ⟨W.kn 0x3B81 W.regs, 0, ⟨.ctst, 0, 0, 1, 0⟩, by decide +kernel⟩

theorem witness_CapabilityInstructions_14 : ∃ (s : State) (p : Pair) (i : Kn) (c0 : Quad), (s.issues p i = true) ∧ (i.op =
.capsw) ∧ (natBit (s.getF (R.KC_CSET p ((s.issue p).actSet p)) F.KC_CSET_ALLOW) i.n = true) ∧ (c0 = (s.rs p).cap i.n 0) ∧
(c0.valid = true) ∧ (c0.program = true) ∧ (c0.closed = false) ∧ (c0.perm pExec = true) :=
  ⟨(W.kn 0x3B43 W.regs).setF (R.KC_CSET 0 0) F.KC_CSET_ALLOW 8, 0, ⟨.capsw, 0, 0, 3, 0⟩, W.quad 0 0x20000 0x07FF
  0x40000000, by decide +kernel⟩

theorem witness_CapabilityInstructions_15 : ∃ (s : State) (p : Pair) (i : Kn) (b k : Nat), (s.issues p i = true) ∧ (i.op =
.nop) ∧ (((s.issue p).coreOf p).shadow = some (b, k)) ∧ (k < 8) :=
  ⟨let s0 := W.kn 0x3000 W.regs; s0.setCore 0 { s0.coreOf 0 with shadow := some (7, 3) }, 0, ⟨.nop, 0, 0, 0, 0⟩, 7, 3, by
  decide +kernel⟩

theorem witness_LongOperationsAndCalls_1 : ∃ (s : State) (p : Pair) (i : Kn) (d : Int), (s.issues p i = true) ∧ (i.op =
.div) ∧ ((s.rs p).atag = tagInt) ∧ ((s.rs p).x.tag = tagInt) ∧ (d = (s.rs p).x.v.toInt) ∧ (d ≠ 0) ∧ (d ≠ -1 ∨ -(2 ^ 39) <
(s.rs p).a.toInt) :=
  ⟨W.kn 0x3C00 { W.regs with a := 17, x := ⟨0xFFFFFFFB, tagInt⟩ }, 0, ⟨.div, 0, 0, 0, 0⟩, -5, by decide +kernel⟩

theorem witness_LongOperationsAndCalls_2 : ∃ (s : State) (p : Pair) (i : Kn), (s.issues p i = true) ∧ (i.op = .div) ∧
((s.rs p).atag = tagUint) ∧ ((s.rs p).x.tag = tagUint) ∧ ((s.rs p).x.v ≠ 0) :=
  ⟨W.kn 0x3C00 { W.regs with a := 17, atag := tagUint, x := ⟨5, tagUint⟩ }, 0, ⟨.div, 0, 0, 0, 0⟩, by decide +kernel⟩

theorem witness_LongOperationsAndCalls_3 : ∃ (s : State) (p : Pair) (i : Kn), (s.issues p i = true) ∧ (i.op = .div) ∧
((s.rs p).atag = tagInt ∨ (s.rs p).atag = tagUint) ∧ ((s.rs p).x.tag = (s.rs p).atag) ∧ ((s.rs p).x.v = 0) :=
  ⟨W.kn 0x3C00 { W.regs with a := 17, x := ⟨0, tagInt⟩ }, 0, ⟨.div, 0, 0, 0, 0⟩, by decide +kernel⟩

theorem witness_LongOperationsAndCalls_4 : ∃ (s : State) (p : Pair) (i : Kn) (r : Nat), (s.issues p i = true) ∧ (i.op =
.sqrt) ∧ ((s.rs p).atag = tagInt ∨ (s.rs p).atag = tagUint) ∧ ((s.rs p).atag = tagInt → 0 ≤ (s.rs p).a.toInt) ∧ (r * r ≤
(s.rs p).a.toNat) ∧ ((s.rs p).a.toNat < (r + 1) * (r + 1)) :=
  ⟨W.kn 0x3C10 { W.regs with a := 27 }, 0, ⟨.sqrt, 0, 0, 0, 0⟩, 5, by decide +kernel⟩

theorem witness_LongOperationsAndCalls_5 : ∃ (s : State) (p : Pair) (i : Kn), (s.issues p i = true) ∧ (i.op = .div) ∧
(noValue (s.rs p).atag = false) ∧ (noValue (s.rs p).x.tag = false) ∧ ((s.rs p).atag = tagRaw ∨ (s.rs p).x.tag = tagRaw) ∧
((s.rs p).x.v ≠ 0) :=
  ⟨W.kn 0x3C00 { W.regs with a := 17, atag := tagRaw, x := ⟨5, tagUint⟩ }, 0, ⟨.div, 0, 0, 0, 0⟩, by decide +kernel⟩

theorem witness_LongOperationsAndCalls_6 : ∃ (s : State) (p : Pair) (i : Kn), (s.issues p i = true) ∧ (i.op = .div) ∧
((s.rs p).atag = tagQ31) ∧ ((s.rs p).x.tag = tagQ31) ∧ ((s.rs p).x.v = 0) :=
  ⟨W.kn 0x3C00 { W.regs with a := 17, atag := tagQ31, x := ⟨0, tagQ31⟩ }, 0, ⟨.div, 0, 0, 0, 0⟩, by decide +kernel⟩

theorem witness_LongOperationsAndCalls_7 : ∃ (s : State) (p : Pair) (i : Kn) (d q : Int), (s.issues p i = true) ∧ (i.op =
.div) ∧ ((s.rs p).atag = tagQ31) ∧ ((s.rs p).x.tag = tagQ31) ∧ (d = (s.rs p).x.v.toInt) ∧ (d ≠ 0) ∧ (q * d = (s.rs
p).a.toInt * 2 ^ 31) :=
  ⟨W.kn 0x3C00 { W.regs with a := 17, atag := tagQ31, x := ⟨0xC0000000, tagQ31⟩ }, 0, ⟨.div, 0, 0, 0, 0⟩, -(2 ^ 30), -34,
  by decide +kernel⟩

theorem witness_LongOperationsAndCalls_8 : ∃ (s : State) (p : Pair) (i : Kn) (d q : Int), (s.issues p i = true) ∧ (i.op =
.div) ∧ ((s.rs p).atag = tagQ31) ∧ ((s.rs p).x.tag = tagQ31) ∧ (d = (s.rs p).x.v.toInt) ∧ (d ≠ 0) ∧ ((0 < d ∧ q * d < (s.rs
p).a.toInt * 2 ^ 31 ∧ (s.rs p).a.toInt * 2 ^ 31 < (q + 1) * d) ∨ (d < 0 ∧ (q + 1) * d < (s.rs p).a.toInt * 2 ^ 31 ∧ (s.rs
p).a.toInt * 2 ^ 31 < q * d)) :=
  ⟨W.kn 0x3C00 { W.regs with a := 17, atag := tagQ31, x := ⟨0xFFFFFFFD, tagQ31⟩ }, 0, ⟨.div, 0, 0, 0, 0⟩, -3, -12169074006,
  by decide +kernel⟩

theorem witness_LongOperationsAndCalls_9 : ∃ (s : State) (p : Pair) (i : Kn) (r : Nat), (s.issues p i = true) ∧ (i.op =
.sqrt) ∧ ((s.rs p).atag = tagQ31) ∧ (0 ≤ (s.rs p).a.toInt) ∧ (r * r ≤ (s.rs p).a.toNat * 2 ^ 31) ∧ ((s.rs p).a.toNat * 2 ^
31 < (r + 1) * (r + 1)) :=
  ⟨W.kn 0x3C10 { W.regs with a := 8, atag := tagQ31 }, 0, ⟨.sqrt, 0, 0, 0, 0⟩, 131072, by decide +kernel⟩

theorem witness_LongOperationsAndCalls_10 : ∃ (s : State) (p : Pair) (i : Kn), (s.issues p i = true) ∧ (i.op = .sqrt) ∧
((s.rs p).atag = tagInt ∨ (s.rs p).atag = tagQ31) ∧ ((s.rs p).a.toInt < 0) :=
  ⟨W.kn 0x3C10 { W.regs with a := BitVec.ofInt 40 (-1) }, 0, ⟨.sqrt, 0, 0, 0, 0⟩, by decide +kernel⟩

theorem witness_LongOperationsAndCalls_11 : ∃ (s : State) (p : Pair) (i : Kn), (s.issues p i = true) ∧ (i.op = .sincos) ∧
((s.rs p).atag = tagQ31) :=
  ⟨W.kn 0x3C20 { W.regs with atag := tagQ31 }, 0, ⟨.sincos, 0, 0, 0, 0⟩, by decide +kernel⟩

theorem witness_LongOperationsAndCalls_12 : ∃ (s : State) (p : Pair) (i : Kn), (s.issues p i = true) ∧ (i.op = .atan2) ∧
((s.rs p).x = ⟨0, tagFrac2⟩) :=
  ⟨W.kn 0x3C30 { W.regs with x := ⟨0, tagFrac2⟩ }, 0, ⟨.atan2, 0, 0, 0, 0⟩, by decide +kernel⟩

theorem witness_LongOperationsAndCalls_13 : ∃ (s : State) (p : Pair) (i : Kn), (s.issues p i = true) ∧ (i.op = .atan2) ∧
((s.rs p).x.tag = tagFrac2) :=
  ⟨W.kn 0x3C30 { W.regs with x := ⟨0x40003000, tagFrac2⟩ }, 0, ⟨.atan2, 0, 0, 0, 0⟩, by decide +kernel⟩

theorem witness_LongOperationsAndCalls_14 : ∃ (s : State) (p : Pair) (l : LongRes) (a : BitVec 40) (g : BitVec 4),
((s.coreOf p).long = some l) ∧ (l.a = some (a, g)) :=
  ⟨let s0 := W.kn 0x3000 W.regs; s0.setCore 0 { s0.coreOf 0 with long := some ⟨some (9, tagInt), none, some emptyCell⟩ },
  0, ⟨some (9, tagInt), none, some emptyCell⟩, 9, tagInt, by decide +kernel⟩

theorem witness_LongOperationsAndCalls_15 : ∃ (s : State) (p : Pair) (i : Kn) (m : Slice), (s.issues p i = true) ∧ (i.op =
.att) ∧ (p.val = m.val) ∧ (i.n < 128 ∨ (s.part.full = true ∧ s.isSet (R.MCS_XT m (i.n - 128)) F.MCS_XT_VALID = true)) ∧
(attTags (s.rs p) i.n = true) :=
  ⟨W.kn 0x3F00 { W.regs with atag := tagFrac2 }, 0, ⟨.att, 0, 0, 0, 0⟩, 0, by decide +kernel⟩

theorem witness_FaultsAndInterrupts_1 : ∃ (s : State) (p : Pair) (hs sp : Nat), (s.pairRuns p false = true) ∧ (s.awake p =
true) ∧ ((s.issue p).execFault p ((s.issue p).actSet p) (s.rs p).pc.toNat = none) ∧ (s.mem.pecc = []) ∧ (knDecode
(s.progWord p (s.rs p).pc.toNat).toNat (s.coreOf p).pfx = none) ∧ ((s.coreOf p).att = false) ∧ (s.isSet (R.KC_CSEL p)
F.KC_CSEL_EMERG = false) ∧ (hs = s.getF (R.KC_VEC p) F.KC_VEC_HSET) ∧ (takesFrame (s.rs p) hs = true) ∧ (((s.rs p).set
hs).rsp.toNat = sp + 32) ∧ (s.cellsOk sp 8 = true) :=
  ⟨(W.kn 0x3021 W.regs), 0, 0, 0x020917E0, by decide +kernel⟩

theorem witness_FaultsAndInterrupts_2 : ∃ (s : State) (p : Pair), (s.pairRuns p false = true) ∧ (s.awake p = true) ∧
((s.issue p).execFault p ((s.issue p).actSet p) (s.rs p).pc.toNat = none) ∧ (s.mem.pecc = []) ∧ (knDecode (s.progWord p
(s.rs p).pc.toNat).toNat (s.coreOf p).pfx = none) ∧ ((s.coreOf p).att = false) ∧ ((List.range 8).all (fun j =>
!s.accessWaits (emergencyBase p + 1024 - 32 * ((s.rs p).efr + 1) + 4 * j)) = true) ∧ (s.isSet (R.KC_CSEL p) F.KC_CSEL_EMERG
= true ∨ takesFrame (s.rs p) (s.getF (R.KC_VEC p) F.KC_VEC_HSET) = false) ∧ ((s.rs p).efr < 32) :=
  ⟨(W.kn 0x3021 W.regs).setF (R.KC_CSEL 0) F.KC_CSEL_EMERG 1, 0, by decide +kernel⟩

theorem witness_FaultsAndInterrupts_3 : ∃ (s : State) (p : Pair) (r hs sp : Nat), (s.pairRuns p false = true) ∧
(s.interruptible p = true) ∧ ((s.issue p).ready p (s.getF (R.KC_CSEL p) F.KC_CSEL_LEVEL) = some r) ∧ (r < 1024) ∧ (hs =
s.getF (R.KC_VEC p) F.KC_VEC_HSET) ∧ (takesFrame (s.rs p) hs = true) ∧ (((s.rs p).set hs).rsp.toNat = sp + 32) ∧ (s.cellsOk
sp 8 = true) ∧ ((s.routeTgt r).prio < 32) :=
  ⟨W.irq, 0, 64, 0, 0x020917E0, by decide +kernel⟩

theorem witness_LockstepAndRecovery_1 : ∃ (s : State) (p : Pair) (d : CoreSt), (s.coreOf p = d) ∧ (d.deferred = false) ∧
(d.halted = false) ∧ (p.val < 12 → s.slState p ≠ slRecovering) :=
  ⟨W.kn 0x0200 W.regs, 0, State.coreOf (W.kn 0x0200 W.regs) 0, by decide +kernel⟩

theorem witness_LockstepAndRecovery_2 : ∃ (s : State) (p : Pair), ((s.coreOf p).deferred = true ∨ (s.coreOf p).halted =
true ∨ (p.val < 12 ∧ s.slState p = slRecovering)) :=
  ⟨W.up.setSl 0 slRecovering, 0, by decide +kernel⟩

theorem witness_LockstepAndRecovery_3 : ∃ (s : State) (n : Slice) (d : DivRec) (rw ea : Option DivRec) (mism : Bool),
(d.differs 1 = true) ∧ (s.isSet (R.KC_LS_STAT n) F.KC_LS_STAT_SUSPENDED = false) ∧ (s.fitted n = true) ∧ (s.slState n =
slRunning) ∧ ((s.ctlOf n).fencing = false) :=
  ⟨W.up, 0, ⟨0x02080000, 5, 3, 0, false⟩, some ⟨0x02001000, 0, 0, 6, true⟩, none, true, by decide +kernel⟩

theorem witness_LockstepAndRecovery_4 : ∃ (s : State) (n : Slice) (d : DivRec) (mw ea : Option DivRec) (mism : Bool),
(mw.filter (fun r => r.differs 1) = none) ∧ (d.differs 2 = true) ∧ (s.isSet (R.KC_LS_STAT n) F.KC_LS_STAT_SUSPENDED =
false) ∧ (s.fitted n = true) ∧ (s.slState n = slRunning) ∧ ((s.ctlOf n).fencing = false) :=
  ⟨W.up, 0, ⟨0x02001000, 0, 0, 6, true⟩, some ⟨4, 0, 0, 0, false⟩, some ⟨0x0102, 0x21, 0, 0, false⟩, false, by
  decide +kernel⟩

theorem witness_LockstepAndRecovery_5 : ∃ (s : State) (n : Slice) (d : DivRec) (mw rw : Option DivRec) (mism : Bool),
(mw.filter (fun r => r.differs 1) = none) ∧ (rw.filter (fun r => r.differs 2) = none) ∧ (d.differs 3 = true) ∧ (s.isSet
(R.KC_LS_STAT n) F.KC_LS_STAT_SUSPENDED = false) ∧ (s.fitted n = true) ∧ (s.slState n = slRunning) ∧ ((s.ctlOf n).fencing =
false) :=
  ⟨W.up, 0, ⟨0x0102, 0x21, 0, 0, false⟩, none, none, false, by decide +kernel⟩

theorem witness_LockstepAndRecovery_6 : ∃ (s : State) (n : Slice) (mw rw ea : Option DivRec) (mism : Bool), (firstDiv mw rw
ea ≠ none) ∧ (mism = true) ∧ (s.isSet (R.KC_LS_STAT n) F.KC_LS_STAT_SUSPENDED = false) ∧ (s.fitted n = true) ∧ (s.slState n
= slRunning ∨ s.slState n = slReady ∨ s.slState n = slRecovering) :=
  ⟨W.up, 0, none, none, some ⟨0x0102, 0x21, 0, 0, false⟩, true, by decide +kernel⟩

theorem witness_LockstepAndRecovery_7 : ∃ (s : State) (n : Slice) (mw rw ea : Option DivRec) (mism : Bool), (firstDiv mw rw
ea ≠ none) ∧ (s.isSet (R.KC_LS_STAT n) F.KC_LS_STAT_SUSPENDED = false) ∧ (s.fitted n = true) ∧ (s.slState n = slReady) ∧
((s.ctlOf n).fencing = false) :=
  ⟨W.up.setSl 0 slReady, 0, none, some ⟨0x02001000, 0, 0, 6, true⟩, none, false, by decide +kernel⟩

theorem witness_LockstepAndRecovery_8 : ∃ (s : State) (n : Slice) (mw rw ea : Option DivRec) (mism : Bool), (firstDiv mw rw
ea ≠ none) ∧ (s.isSet (R.KC_LS_STAT n) F.KC_LS_STAT_SUSPENDED = false) ∧ (s.fitted n = true) ∧ (s.slState n = slRecovering)
∧ ((s.ctlOf n).fencing = false) :=
  ⟨W.up.setSl 0 slRecovering, 0, some ⟨0x02080000, 5, 3, 0, false⟩, none, none, false, by decide +kernel⟩

theorem witness_LockstepAndRecovery_9 : ∃ (s : State) (n : Slice) (mw rw ea : Option DivRec) (mism : Bool), (firstDiv mw rw
ea ≠ none) ∧ (s.isSet (R.KC_LS_STAT n) F.KC_LS_STAT_SUSPENDED = false) ∧ (s.fitted n = true) ∧ (s.slState n = slFenced) ∧
((s.ctlOf n).restarting = true) ∧ ((s.ctlOf n).fencing = false) :=
  ⟨(W.up.setSl 0 slFenced).setCtl 0 { resetCtl with restarting := true }, 0, some ⟨0x02080000, 5, 3, 0, false⟩, none, none,
  false, by decide +kernel⟩

theorem witness_LockstepAndRecovery_10 : ∃ (s : State) (n : Slice) (mw rw ea : Option DivRec) (mism : Bool), (firstDiv mw
rw ea ≠ none) ∧ (s.isSet (R.KC_LS_STAT n) F.KC_LS_STAT_SUSPENDED = false) ∧ (s.fitted n = true) ∧ (s.slState n = slRunning
∨ s.slState n = slReady ∨ s.slState n = slRecovering) ∧ ((s.ctlOf n).fencing = true) :=
  ⟨W.up.setCtl 0 { resetCtl with fencing := true }, 0, some ⟨0x02080000, 5, 3, 0, false⟩, none, none, false, by
  decide +kernel⟩

theorem witness_LockstepAndRecovery_11 : ∃ (s : State) (n : Slice) (mw rw ea : Option DivRec) (mism : Bool), (firstDiv mw
rw ea = none ∨ s.isSet (R.KC_LS_STAT n) F.KC_LS_STAT_SUSPENDED = true ∨ s.fitted n = false ∨ s.slState n = slOff ∨
s.slState n = slSafe ∨ (s.slState n = slFenced ∧ (s.ctlOf n).restarting = false)) :=
  ⟨W.up.setSl 0 slSafe, 0, some ⟨0x02080000, 5, 3, 0, false⟩, none, none, true, by decide +kernel⟩

theorem witness_LockstepAndRecovery_12 : ∃ (s : State) (mw rw ea : Option DivRec) (mism : Bool), (firstDiv mw rw ea ≠ none)
∧ (s.isSet (R.KC_LS_STAT 12) F.KC_LS_STAT_SUSPENDED = false) ∧ ((s.coreOf 12).halted = false) :=
  ⟨W.up.setCore 12 { resetCore with halted := false }, none, some ⟨0x02001000, 0, 0, 6, true⟩, none, false, by
  decide +kernel⟩

theorem witness_LockstepAndRecovery_13 : ∃ (s : State) (n : Slice), (s.slState n = slRecovering) ∧ ((s.ctlOf n).takeover =
false) ∧ ((s.ctlOf n).badWord = none) ∧ (s.isSet (R.SLC_CMD_STAT n) F.SLC_CMD_STAT_HELD = false) :=
  ⟨W.up.setSl 0 slRecovering, 0, by decide +kernel⟩

theorem witness_LockstepAndRecovery_14 : ∃ (s : State) (n : Slice), (s.slState n = slRecovering) ∧ ((s.ctlOf n).takeover =
false) ∧ ((s.ctlOf n).badWord = none) ∧ (s.isSet (R.SLC_CMD_STAT n) F.SLC_CMD_STAT_HELD = true) :=
  ⟨(W.up.setSl 0 slRecovering).setF (R.SLC_CMD_STAT 0) F.SLC_CMD_STAT_HELD 1, 0, by decide +kernel⟩

theorem witness_LockstepAndRecovery_15 : ∃ (s : State) (n : Slice) (w : Nat) (v : MWord), (s.slState n = slRecovering) ∧
((s.ctlOf n).takeover = false) ∧ ((s.ctlOf n).badWord = some w) ∧ ((s.readCopy n w).2 = some v) ∧ (parityOk v = true) :=
  ⟨(W.up.setSl 0 slRecovering).setCtl 0 { resetCtl with badWord := some 0x810 }, 0, 0x810, 0, by decide +kernel⟩

theorem witness_LockstepAndRecovery_16 : ∃ (s : State) (n : Slice) (w : Nat) (stuck differs : Bool), (s.slState n =
slRecovering) ∧ ((s.ctlOf n).takeover = false) ∧ ((s.ctlOf n).fencing = false) ∧ ((s.ctlOf n).badWord = some w) ∧ (stuck =
true ∨ (s.readCopy n w).2 = none) :=
  ⟨(W.up.setSl 0 slRecovering).setCtl 0 { resetCtl with badWord := some 0x810 }, 0, 0x810, true, false, by decide +kernel⟩

theorem witness_LockstepAndRecovery_17 : ∃ (s : State) (n : Slice), (s.slState n = slRecovering) ∧ ((s.ctlOf n).takeover =
false) ∧ ((s.ctlOf n).badWord = none) ∧ ((s.ctlOf n).fencing = false) :=
  ⟨W.up.setSl 0 slRecovering, 0, by decide +kernel⟩

theorem witness_LockstepAndRecovery_18 : ∃ (s : State) (n : Slice) (stuck differs : Bool), (s.slState n ≠ slRecovering ∨
(s.ctlOf n).takeover = true) :=
  ⟨W.up, 0, true, true, by decide +kernel⟩

theorem witness_MemoriesAndErrors_1 : ∃ (s : State) (a : Nat), (s.mem.wb.contains (eccKey a) = true) :=
  ⟨{ W.up with mem := { W.up.mem with ecc := [(0x02080000, false)], wb := [0x02080000] } }, 0x02080000, by decide +kernel⟩

theorem witness_MemoriesAndErrors_2 : ∃ (s : State) (a : Nat), (s.mem.wb.contains (eccKey a) = false) :=
  ⟨W.up, 0x02080000, by decide +kernel⟩

theorem witness_MemoriesAndErrors_3 : ∃ (s : State) (x : Access) (v : Word) (n : Slice), (s.reaches x R.MEM_MARCH = true) ∧
(F.MEM_MARCH_KEY.get v = 0x3A2C) ∧ (F.MEM_MARCH_TARGET.get v = n.val) ∧ (s.fitted n = true) ∧ (s.mem.march = none) ∧
(s.slState n = slFenced ∨ (s.slState n = slReady ∧ F.MEM_MARCH_FORM.get v = 0)) :=
  ⟨W.up.setSl 0 slReady, W.sys, F.MEM_MARCH_KEY.word 0x3A2C, 0, by decide +kernel⟩

theorem witness_MemoriesAndErrors_4 : ∃ (s : State) (x : Access) (v : Word), (s.reaches x R.MEM_MARCH = true) ∧
(F.MEM_MARCH_KEY.get v = 0x3A2C) ∧ (F.MEM_MARCH_TARGET.get v = 0x10) ∧ (F.MEM_MARCH_FORM.get v = 0) ∧ (s.mem.march = none)
:=
  ⟨W.up, W.sys, F.MEM_MARCH_KEY.word 0x3A2C ||| F.MEM_MARCH_TARGET.word 0x10, by decide +kernel⟩

theorem witness_MemoriesAndErrors_5 : ∃ (s : State) (x : Access) (v : Word), (s.reaches x R.MEM_MARCH = true) ∧
(F.MEM_MARCH_KEY.get v = 0x3A2C) ∧ (F.MEM_MARCH_TARGET.get v = 0x12 ∨ (F.MEM_MARCH_TARGET.get v = 0x13 ∧ s.chFitted 1 =
true)) ∧ (F.MEM_MARCH_FORM.get v = 1) ∧ (s.mode = mdService) ∧ (∀ n : Slice, s.armed n = false) ∧ (s.mem.march = none) :=
  ⟨W.service, W.sys, F.MEM_MARCH_KEY.word 0x3A2C ||| F.MEM_MARCH_TARGET.word 0x13 ||| F.MEM_MARCH_FORM.word 1, by
  decide +kernel⟩

theorem witness_MemoriesAndErrors_6 : ∃ (s : State) (x : Access) (v : Word), (s.reaches x R.MEM_MARCH = true) ∧
(F.MEM_MARCH_KEY.get v ≠ 0x3A2C ∨ (12 ≤ F.MEM_MARCH_TARGET.get v ∧ F.MEM_MARCH_TARGET.get v ≠ 0x10 ∧ F.MEM_MARCH_TARGET.get
v ≠ 0x12 ∧ F.MEM_MARCH_TARGET.get v ≠ 0x13)) :=
  ⟨W.up, W.sys, 0, by decide +kernel⟩

theorem witness_MemoriesAndErrors_7 : ∃ (s : State) (x : Access) (v : Word), (s.reaches x R.MEM_MARCH = true) ∧
(F.MEM_MARCH_KEY.get v = 0x3A2C) ∧ ((F.MEM_MARCH_TARGET.get v < 12 ∧ s.fitted (F.MEM_MARCH_TARGET.get v) = false) ∨
(F.MEM_MARCH_TARGET.get v = 0x13 ∧ s.chFitted 1 = false)) :=
  ⟨{ W.up with part := .esk7208 }, W.sys, F.MEM_MARCH_KEY.word 0x3A2C ||| F.MEM_MARCH_TARGET.word 0x13, by decide +kernel⟩

theorem witness_MemoriesAndErrors_8 : ∃ (s : State) (x : Access) (v : Word) (n : Slice), (s.reaches x R.MEM_MARCH = true) ∧
(F.MEM_MARCH_KEY.get v = 0x3A2C) ∧ (F.MEM_MARCH_TARGET.get v = n.val) ∧ (s.fitted n = true) ∧ (s.mem.march ≠ none) :=
  ⟨{ W.up with mem := { W.up.mem with march := some (1, true) } }, W.sys, F.MEM_MARCH_KEY.word 0x3A2C, 0, by
  decide +kernel⟩

theorem witness_MemoriesAndErrors_9 : ∃ (s : State) (x : Access) (v : Word) (n : Slice), (s.reaches x R.MEM_MARCH = true) ∧
(F.MEM_MARCH_KEY.get v = 0x3A2C) ∧ (F.MEM_MARCH_TARGET.get v = n.val) ∧ (s.fitted n = true) ∧ (s.mem.march = none) ∧
(s.slState n ≠ slFenced) ∧ (s.slState n ≠ slReady ∨ F.MEM_MARCH_FORM.get v = 1) :=
  ⟨W.up, W.sys, F.MEM_MARCH_KEY.word 0x3A2C, 0, by decide +kernel⟩

theorem witness_MemoriesAndErrors_10 : ∃ (s : State) (x : Access) (v : Word), (s.reaches x R.MEM_MARCH = true) ∧
(F.MEM_MARCH_KEY.get v = 0x3A2C) ∧ (s.mem.march = none) ∧ ((F.MEM_MARCH_TARGET.get v = 0x10 ∧ F.MEM_MARCH_FORM.get v = 1) ∨
(F.MEM_MARCH_TARGET.get v = 0x12 ∧ (F.MEM_MARCH_FORM.get v = 0 ∨ s.mode ≠ mdService))) :=
  ⟨W.up, W.sys, F.MEM_MARCH_KEY.word 0x3A2C ||| F.MEM_MARCH_TARGET.word 0x12 ||| F.MEM_MARCH_FORM.word 1, by
  decide +kernel⟩

theorem witness_MemoriesAndErrors_11 : ∃ (s : State) (fails : Nat) (bank : Fin 16) (addr : Word) (t0 : Nat), (s.mem.march =
some (t0, false)) ∧ (fails = 0) :=
  ⟨{ W.up with mem := { W.up.mem with march := some (0x10, false) } }, 0, 2, 0x40, 0x10, by decide +kernel⟩

theorem witness_MemoriesAndErrors_12 : ∃ (s : State) (fails : Nat) (bank : Fin 16) (addr : Word) (n : Slice), (s.mem.march
= some (n.val, true)) ∧ (fails = 0) :=
  ⟨{ (W.up.setSl 0 slFenced).setCell (smem 0 0) ⟨4, tagInt⟩ with mem := { W.up.mem with march := some (0, true) } }, 0, 2,
  0x40, 0, by decide +kernel⟩

theorem witness_MemoriesAndErrors_13 : ∃ (s : State) (fails : Nat) (bank : Fin 16) (addr : Word) (c : Fin 2), (s.mem.march
= some (0x12 + c.val, true)) ∧ (fails = 0) :=
  ⟨{ W.service.setCell 0x18000000 ⟨4, tagUint⟩ with mem := { W.service.mem with march := some (0x13, true) } }, 0, 2, 0x40,
  1, by decide +kernel⟩

theorem witness_MemoriesAndErrors_14 : ∃ (s : State) (fails : Nat) (bank : Fin 16) (addr : Word) (n : Slice), (s.mem.march
= some (n.val, true)) ∧ (s.slState n = slFenced) ∧ (fails ≠ 0) :=
  ⟨{ (W.up.setSl 0 slFenced).setCell (smem 0 0) ⟨4, tagInt⟩ with mem := { W.up.mem with march := some (0, true) } }, 3, 2,
  0x40, 0, by decide +kernel⟩

theorem witness_MemoriesAndErrors_15 : ∃ (s : State) (fails : Nat) (bank : Fin 16) (addr : Word) (n : Slice), (s.mem.march
= some (n.val, false)) ∧ (s.slState n ≠ slFenced) ∧ (fails ≠ 0) :=
  ⟨{ W.up.setSl 0 slReady with mem := { W.up.mem with march := some (0, false) } }, 70000, 2, 0x40, 0, by decide +kernel⟩

theorem witness_MemoriesAndErrors_16 : ∃ (s : State) (fails : Nat) (bank : Fin 16) (addr : Word) (c : Fin 2), (s.mem.march
= some (0x12 + c.val, true)) ∧ (fails ≠ 0) ∧ (s.chFitted c = true) :=
  ⟨{ W.service with mem := { W.service.mem with march := some (0x12, true) } }, 1, 2, 0x40, 0, by decide +kernel⟩

theorem witness_MemoriesAndErrors_17 : ∃ (s : State) (fails : Nat) (bank : Fin 16) (addr : Word), (s.mem.march = some
(0x10, false)) ∧ (fails ≠ 0) :=
  ⟨{ W.up with mem := { W.up.mem with march := some (0x10, false) } }, 1, 2, 0x40, by decide +kernel⟩

theorem witness_MemoriesAndErrors_18 : ∃ (s : State) (fails : Nat) (bank : Fin 16) (addr : Word), (s.mem.march = none) :=
  ⟨W.up, 1, 2, 0x40, by decide +kernel⟩

theorem witness_MemoriesAndErrors_20 : ∃ (s : State), (s.isSet R.MEM_STAT F.MEM_STAT_SEC_WIPING = true) :=
  ⟨(W.up.setF R.MEM_STAT F.MEM_STAT_SEC_WIPING 1).setCell 0x01C00000 ⟨3, tagInt⟩, by decide +kernel⟩

theorem witness_MemoriesAndErrors_21 : ∃ (s : State), (s.isSet R.MEM_STAT F.MEM_STAT_SEC_WIPING = false) :=
  ⟨W.up, by decide +kernel⟩

theorem witness_MemoriesAndErrors_23 : ∃ (s : State), (s.mem.ecc = []) :=
  ⟨W.up.setF R.MMC_STAT F.MMC_STAT_CH_UP 1, by decide +kernel⟩

theorem witness_MemoriesAndErrors_24 : ∃ (s : State) (c : Fin 2) (i : Fin 8) (a : Nat), (natBit (s.getF R.MMC_STAT
F.MMC_STAT_CH_UP) c = true) ∧ (s.chFitted c = true) ∧ (s.chDown c = false) ∧ (a = 0x10000000 + c.val * 0x8000000 + 64 *
s.getF (R.MMC_SCRUB_POS c) F.MMC_SCRUB_POS_BURST + 8 * i.val) ∧ (s.mem.ecc = [(a, false)]) ∧ (s.pageSet a = true) :=
  ⟨{ W.up.setF R.MMC_STAT F.MMC_STAT_CH_UP 1 with mem := { W.up.mem with ecc := [(0x10000008, false)], filled := .replicate 2 true } },
  0, 1, 0x10000008, by decide +kernel⟩

theorem witness_MemoriesAndErrors_25 : ∃ (s : State) (c : Fin 2), (natBit (s.getF R.MMC_STAT F.MMC_STAT_CLEAR_BUSY) c =
true) :=
  ⟨W.up.setF R.MMC_STAT F.MMC_STAT_CLEAR_BUSY 1, 0, by decide +kernel⟩

theorem witness_MemoriesAndErrors_26 : ∃ (s : State) (c : Fin 2), (natBit (s.getF R.MMC_STAT F.MMC_STAT_CLEAR_BUSY) c =
false) :=
  ⟨W.up, 0, by decide +kernel⟩

theorem witness_MemoriesAndErrors_27 : ∃ (s : State) (c : Fin 2) (a : Nat), (s.chFitted c = true) ∧ (s.chDown c = false) ∧
(inMain a = true) ∧ (mainCh a = c) :=
  ⟨W.up, 0, 0x10000000, by decide +kernel⟩

theorem witness_MemoriesAndErrors_28 : ∃ (s : State) (c : Fin 2), (s.chFitted c = false ∨ s.chDown c = true) :=
  ⟨{ W.up with part := .esk7208 }, 1, by decide +kernel⟩

theorem witness_EventRouting_1 : ∃ (s : State) (src : Fin 1024), (isLine src = true) ∧ (s.fastRuns = true) ∧ (s.lineStands
src ≠ some false) ∧ (s.srcPresent src = true) ∧ (s.evr.filt.contains src.val = false) ∧ (s.getF (srcAddr src)
F.EVR_SRC_SENSE = 3) ∧ (s.route src = idleRoute) ∧ ((s.routeTgt src).kind ≠ 0) ∧ (s.isSet (srcAddr src) F.EVR_SRC_GRP_EN =
false) ∧ (s.evtDelay src = 0) :=
  ⟨(((W.up.setF (srcAddr 46) F.EVR_SRC_SENSE 3).setF (tgtAddr 46) F.EVR_TGT_KIND 1).setF (tgtAddr 46) F.EVR_TGT_INDEX 16),
  46, by decide +kernel⟩

theorem witness_EventRouting_2 : ∃ (s : State) (src : Fin 1024), (isLine src = true) ∧ (s.fastRuns = true) ∧ (s.lineStands
src ≠ some false) ∧ (s.srcPresent src = true) ∧ (s.evr.filt.contains src.val = false) ∧ (s.getF (srcAddr src)
F.EVR_SRC_SENSE = 0 ∨ s.getF (srcAddr src) F.EVR_SRC_SENSE = 2) ∧ (s.route src = idleRoute) ∧ ((s.routeTgt src).kind ≠ 0) ∧
(s.isSet (srcAddr src) F.EVR_SRC_GRP_EN = false) ∧ (s.evtDelay src = 0) :=
  ⟨(((W.up.setF (srcAddr 46) F.EVR_SRC_SENSE 0).setF (tgtAddr 46) F.EVR_TGT_KIND 1).setF (tgtAddr 46) F.EVR_TGT_INDEX 16),
  46, by decide +kernel⟩

theorem witness_EventRouting_3 : ∃ (s : State) (src : Fin 1024), (isLine src = true) ∧ (s.fastRuns = true) ∧ (s.lineStands
src ≠ some true) ∧ (s.srcPresent src = true) ∧ (s.evr.filt.contains src.val = true) ∧ (s.getF (srcAddr src) F.EVR_SRC_SENSE
= 1 ∨ s.getF (srcAddr src) F.EVR_SRC_SENSE = 2) ∧ (s.route src = idleRoute) ∧ ((s.routeTgt src).kind ≠ 0) ∧ (s.isSet
(srcAddr src) F.EVR_SRC_GRP_EN = false) ∧ (s.evtDelay src = 0) :=
  ⟨((({ W.up with evr := { W.up.evr with filt := [46] } }.setF (srcAddr 46) F.EVR_SRC_SENSE 1).setF (tgtAddr 46)
  F.EVR_TGT_KIND 1).setF (tgtAddr 46) F.EVR_TGT_INDEX 16), 46, by decide +kernel⟩

theorem witness_EventRouting_4 : ∃ (s : State) (src : Fin 1024), (isLine src = true) ∧ (s.fastRuns = true) ∧ (s.lineStands
src ≠ some true) ∧ (s.srcPresent src = true) ∧ (s.evr.filt.contains src.val = true) ∧ (s.getF (srcAddr src) F.EVR_SRC_SENSE
= 3) ∧ ((s.route src).st = .pending) :=
  ⟨((({ W.up with evr := { W.up.evr with filt := [46] } }.setF (srcAddr 46) F.EVR_SRC_SENSE 3).setF (tgtAddr 46)
  F.EVR_TGT_KIND 1).setF (tgtAddr 46) F.EVR_TGT_INDEX 16).setRoute 46 ⟨.pending, false, 46, 1, 0, 0, 0⟩, 46, by
  decide +kernel⟩

theorem witness_EventRouting_5 : ∃ (s : State) (src : Fin 1024), (isLine src = true) ∧ (s.fastRuns = true) ∧ (s.lineStands
src ≠ some false) ∧ (s.srcPresent src = true) ∧ (s.evr.filt.contains src.val = false) ∧ (s.getF (srcAddr src)
F.EVR_SRC_SENSE = 1) :=
  ⟨(((W.up.setF (srcAddr 46) F.EVR_SRC_SENSE 1).setF (tgtAddr 46) F.EVR_TGT_KIND 1).setF (tgtAddr 46) F.EVR_TGT_INDEX 16),
  46, by decide +kernel⟩

theorem witness_EventRouting_6 : ∃ (s : State) (src : Fin 1024), (isLine src = true) ∧ (s.fastRuns = true) ∧ (s.lineStands
src ≠ some true) ∧ (s.srcPresent src = true) ∧ (s.evr.filt.contains src.val = true) ∧ (s.getF (srcAddr src) F.EVR_SRC_SENSE
= 0) :=
  ⟨((({ W.up with evr := { W.up.evr with filt := [46] } }.setF (srcAddr 46) F.EVR_SRC_SENSE 0).setF (tgtAddr 46)
  F.EVR_TGT_KIND 1).setF (tgtAddr 46) F.EVR_TGT_INDEX 16), 46, by decide +kernel⟩

theorem witness_EventRouting_7 : ∃ (s : State) (src : Fin 1024) (d : Nat), (isLine src = true) ∧ (s.fastRuns = true) ∧
(s.lineStands src ≠ some false) ∧ (s.srcPresent src = true) ∧ (s.evr.filt.contains src.val = false) ∧ (s.getF (srcAddr src)
F.EVR_SRC_SENSE = 0) ∧ (s.evtDelay src = d + 1) :=
  ⟨W.later 1 <| (((W.up.setF (R.PTB_CTRL 12) F.PTB_CTRL_EN 1).setReg (R.PTB_ACTIVE 12) 0xFFFFFFFF).setF (R.PTB_EVT 12)
  F.PTB_EVT_ALL 1).setF (R.PTB_EVT 12) F.PTB_EVT_DELAY 5, 46, 4, by decide +kernel⟩

theorem witness_EventRouting_8 : ∃ (s : State) (src : Fin 1024) (level : Bool), (isLine src = false ∨ s.fastRuns = false ∨
s.lineStands src = some (!level) ∨ s.srcPresent src = false ∨ s.evr.filt.contains src.val = level) :=
  ⟨W.up, 46, false, by decide +kernel⟩

theorem witness_EventRouting_9 : ∃ (s : State) (r : Fin 1088) (rt : Route), (rt = s.route r) ∧ (rt.st = .pending) ∧
(rt.latched = false) ∧ ((s.routeTgt r).kind = 1) ∧ (s.rejected (s.routeTgt r) = false) ∧ (s.pairTakes (s.routeTgt r).index
= true) :=
  ⟨((W.up.setF (tgtAddr 46) F.EVR_TGT_KIND 1).setF (tgtAddr 46) F.EVR_TGT_INDEX 16).setRoute 46 ⟨.pending, false, 46, 1, 0,
  0, 0⟩, 46, ⟨.pending, false, 46, 1, 0, 0, 0⟩, by decide +kernel⟩

theorem witness_EventRouting_10 : ∃ (s : State) (r : Fin 1088) (rt : Route), (rt = s.route r) ∧ (rt.st = .pending) ∧
(rt.latched = false) ∧ ((s.routeTgt r).kind = 1) ∧ (s.rejected (s.routeTgt r) = false) ∧ (s.pairTakes (s.routeTgt r).index
= false) :=
  ⟨((W.up.setSl 0 slSafe).setF (tgtAddr 46) F.EVR_TGT_KIND 1).setRoute 46 ⟨.pending, false, 46, 1, 0, 0, 0⟩, 46, ⟨.pending,
  false, 46, 1, 0, 0, 0⟩, by decide +kernel⟩

theorem witness_EventRouting_11 : ∃ (s : State) (r : Fin 1088) (rt : Route), (rt = s.route r) ∧ (rt.st = .pending) ∧
(rt.latched = false) ∧ ((s.routeTgt r).kind = 1) ∧ (s.rejected (s.routeTgt r) = true) ∧ (s.evr.orphans.length < 64) ∧
(isLine r = false) ∧ ((s.route r).src ≠ 63) ∧ (r.val ≠ 63) ∧ ((s.routeTgt 63).kind = 0) ∧ (s.isSet (srcAddr 63)
F.EVR_SRC_GRP_EN = false) :=
  ⟨(((W.up.setF (tgtAddr 46) F.EVR_TGT_KIND 1).setF (tgtAddr 46) F.EVR_TGT_INDEX 16).setF (tgtAddr 46) F.EVR_TGT_STALE
  1).setRoute 64 ⟨.pending, false, 64, 1, 0, 0, 0⟩ |>.setF (tgtAddr 64) F.EVR_TGT_KIND 1 |>.setF (tgtAddr 64)
  F.EVR_TGT_STALE 1, 64, ⟨.pending, false, 64, 1, 0, 0, 0⟩, by decide +kernel⟩

theorem witness_EventRouting_12 : ∃ (s : State) (r : Fin 1088), ((s.route r).st ≠ .pending ∨ (s.route r).latched = true ∨
(s.routeTgt r).kind = 0 ∨ (s.routeTgt r).kind = 2) ∧ ((s.routeTgt r).kind ≠ 3) :=
  ⟨W.up, 46, by decide +kernel⟩

theorem witness_EventRouting_13 : ∃ (s : State) (r : Fin 1088) (f : Fin 16), ((s.route r).st = .pending) ∧ ((s.routeTgt
r).kind = 2) ∧ (f = msixFn (s.routeTgt r).index) ∧ (s.rejected (s.routeTgt r) = false) ∧ (s.fnEn f = true) ∧ ((s.fnOf
f).msixEn = true) ∧ ((s.fnOf f).fmask = false) ∧ (s.fnReach f = true) ∧ (s.goesFirst 2 (fun t => !s.msixHeld t) r = true) ∧
((s.fnOf f).vopen.contains ((s.routeTgt r).index % 128) = true) ∧ (isLine r = false) :=
  ⟨W.msix.setRoute 46 idleRoute |>.setF (tgtAddr 8) F.EVR_TGT_KIND 2 |>.setRoute 8 ⟨.pending, false, 8, 1, 0, 0, 0⟩, 8, 0,
  by decide +kernel⟩

theorem witness_EventRouting_14 : ∃ (s : State) (r : Fin 1088) (f : Fin 16), ((s.route r).st = .pending) ∧ ((s.routeTgt
r).kind = 2) ∧ (f = msixFn (s.routeTgt r).index) ∧ (s.rejected (s.routeTgt r) = false) ∧ (s.fnEn f = true) ∧ ((s.fnOf
f).msixEn = true) ∧ ((s.fnOf f).fmask = false) ∧ (s.fnReach f = true) ∧ (s.goesFirst 2 (fun t => !s.msixHeld t) r = true) ∧
((s.fnOf f).vopen.contains ((s.routeTgt r).index % 128) = false) ∧ (isLine r = false) :=
  ⟨(W.msix.setRoute 46 idleRoute |>.setF (tgtAddr 8) F.EVR_TGT_KIND 2 |>.setRoute 8 ⟨.pending, false, 8, 1, 0, 0, 0⟩).setFn
  0 { W.msix.fnOf 0 with vopen := [] }, 8, 0, by decide +kernel⟩

theorem witness_EventRouting_15 : ∃ (s : State) (r : Fin 1088) (f : Fin 16), ((s.route r).st = .pending) ∧ ((s.routeTgt
r).kind = 2) ∧ (f = msixFn (s.routeTgt r).index) ∧ (s.rejected (s.routeTgt r) = true ∨ s.fnEn f = false) ∧ (s.goesFirst 2
(fun t => !s.msixHeld t) r = true) ∧ (s.evr.orphans.length < 64) ∧ ((s.route r).src ≠ 63) ∧ (r.val ≠ 63) ∧ ((s.routeTgt
63).kind = 0) ∧ (s.isSet (srcAddr 63) F.EVR_SRC_GRP_EN = false) :=
  ⟨W.msix.setF (R.HIF_FN_STAT 0) F.HIF_FN_STAT_EN 0, 46, 0, by decide +kernel⟩

theorem witness_EventRouting_16 : ∃ (s : State) (r : Fin 1088) (f : Fin 16), ((s.route r).st = .pending) ∧ ((s.routeTgt
r).kind = 2) ∧ (f = msixFn (s.routeTgt r).index) ∧ (s.rejected (s.routeTgt r) = false) ∧ (s.fnEn f = true) ∧ ((s.fnOf
f).msixEn = false ∨ (s.fnOf f).fmask = true ∨ s.fnReach f = false) :=
  ⟨W.msix.setFn 0 { W.msix.fnOf 0 with fmask := true }, 46, 0, by decide +kernel⟩

theorem witness_EventRouting_17 : ∃ (s : State) (r : Fin 1088), ((s.route r).st ≠ .pending ∨ (s.routeTgt r).kind ≠ 2 ∨
s.goesFirst 2 (fun t => !s.msixHeld t) r = false) :=
  ⟨W.up, 46, by decide +kernel⟩

theorem witness_EventRouting_18 : ∃ (s : State) (x : Access) (n : Slice) (src : BitVec 10), (s.reaches x (R.EVR_ACK n) =
true) ∧ (x.m = .core n) ∧ ((s.route src.toNat).st.served = true) ∧ ((s.route src.toNat).cur = src.toNat) ∧ ((s.route
src.toNat).by_ = n.val) ∧ (s.isSet (srcAddr src.toNat) F.EVR_SRC_GRP_EN = false) ∧ (isLine src.toNat = false ∨ s.getF
(srcAddr src.toNat) F.EVR_SRC_SENSE ≠ 3) ∧ ((s.route src.toNat).st = .active) :=
  ⟨((W.up.setF (tgtAddr 64) F.EVR_TGT_KIND 1).setF (tgtAddr 64) F.EVR_TGT_INDEX 0).setRoute 64 ⟨.active, false, 64, 1, 64,
  0, 0⟩, W.own, 0, 64, by decide +kernel⟩

theorem witness_EventRouting_19 : ∃ (s : State) (x : Access) (n : Slice) (src : BitVec 10), (s.reaches x (R.EVR_ACK n) =
true) ∧ (x.m = .core n) ∧ ((s.route src.toNat).st.served = true) ∧ ((s.route src.toNat).cur = src.toNat) ∧ ((s.route
src.toNat).by_ = n.val) ∧ (s.isSet (srcAddr src.toNat) F.EVR_SRC_GRP_EN = false) ∧ (isLine src.toNat = false ∨ s.getF
(srcAddr src.toNat) F.EVR_SRC_SENSE ≠ 3) ∧ ((s.route src.toNat).st = .activePending) :=
  ⟨((W.up.setF (tgtAddr 64) F.EVR_TGT_KIND 1).setF (tgtAddr 64) F.EVR_TGT_INDEX 0).setRoute 64 ⟨.activePending, false, 64,
  1, 64, 0, 0⟩, W.own, 0, 64, by decide +kernel⟩

theorem witness_EventRouting_20 : ∃ (s : State) (x : Access) (n : Slice) (src : BitVec 10), (s.reaches x (R.EVR_ACK n) =
true) ∧ (x.m = .core n) ∧ ((s.route src.toNat).st.served = true) ∧ ((s.route src.toNat).cur = src.toNat) ∧ ((s.route
src.toNat).by_ = n.val) ∧ (s.isSet (srcAddr src.toNat) F.EVR_SRC_GRP_EN = false) ∧ (isLine src.toNat = true) ∧ (s.getF
(srcAddr src.toNat) F.EVR_SRC_SENSE = 3) :=
  ⟨(({ W.up with evr := { W.up.evr with filt := [88] } }.setF (srcAddr 88) F.EVR_SRC_SENSE 3).setF (tgtAddr 88)
  F.EVR_TGT_KIND 1).setRoute 88 ⟨.active, false, 88, 1, 88, 0, 0⟩, W.own, 0, 88, by decide +kernel⟩

theorem witness_EventRouting_21 : ∃ (s : State) (x : Access) (n : Slice) (src : BitVec 10) (g : Nat), (s.reaches x
(R.EVR_ACK n) = true) ∧ (x.m = .core n) ∧ (s.isSet (srcAddr src.toNat) F.EVR_SRC_GRP_EN = true) ∧ (g = 1024 + s.getF
(srcAddr src.toNat) F.EVR_SRC_GRP) ∧ ((s.route g).st = .active) ∧ ((s.route g).cur = src.toNat) ∧ ((s.route g).by_ = n.val)
:=
  ⟨(W.up.setF (srcAddr 64) F.EVR_SRC_GRP_EN 1).setRoute 1024 ⟨.active, false, 64, 1, 64, 0, 0⟩, W.own, 0, 64, 1024, by
  decide +kernel⟩

theorem witness_EventRouting_22 : ∃ (s : State) (x : Access) (n : Slice) (src : BitVec 10), (s.reaches x (R.EVR_ACK n) =
true) ∧ (s.activeRoute n src.toNat = none) :=
  ⟨W.up, W.own, 0, 64, by decide +kernel⟩

theorem witness_EventRouting_23 : ∃ (s : State) (x : Access) (n : Slice) (src : BitVec 10), (s.reaches x (R.EVR_ACK n) =
true) ∧ (x.m ≠ .core n) ∧ (s.activeRoute n src.toNat ≠ none) :=
  ⟨((W.up.setF (tgtAddr 64) F.EVR_TGT_KIND 1).setF (R.HIF_FN_STAT 1) F.HIF_FN_STAT_EN 1).setRoute 64 ⟨.active, false, 64,
  1, 64, 0, 0⟩, ⟨.fn 1, false, false⟩, 0, 64, by decide +kernel⟩

theorem witness_EventRouting_24 : ∃ (s : State) (x : Access) (src : BitVec 10), (s.reaches x R.EVR_SYS_ACK = true) ∧ (x.m =
.sys) ∧ ((s.route src.toNat).st.served = true) ∧ ((s.route src.toNat).cur = src.toNat) ∧ ((s.route src.toNat).by_ = 12) ∧
(s.isSet (srcAddr src.toNat) F.EVR_SRC_GRP_EN = false) ∧ (isLine src.toNat = false ∨ s.getF (srcAddr src.toNat)
F.EVR_SRC_SENSE ≠ 3) ∧ ((s.route src.toNat).st = .active) :=
  ⟨((W.up.setF (tgtAddr 64) F.EVR_TGT_KIND 1).setF (tgtAddr 64) F.EVR_TGT_INDEX 16).setRoute 64 ⟨.active, false, 64, 1, 64,
  12, 0⟩, W.sys, 64, by decide +kernel⟩

theorem witness_EventRouting_25 : ∃ (s : State) (x : Access) (src : BitVec 10), (s.reaches x R.EVR_SYS_ACK = true) ∧ (x.m =
.sys) ∧ ((s.route src.toNat).st.served = true) ∧ ((s.route src.toNat).cur = src.toNat) ∧ ((s.route src.toNat).by_ = 12) ∧
(s.isSet (srcAddr src.toNat) F.EVR_SRC_GRP_EN = false) ∧ (isLine src.toNat = false ∨ s.getF (srcAddr src.toNat)
F.EVR_SRC_SENSE ≠ 3) ∧ ((s.route src.toNat).st = .activePending) :=
  ⟨((W.up.setF (tgtAddr 64) F.EVR_TGT_KIND 1).setF (tgtAddr 64) F.EVR_TGT_INDEX 16).setRoute 64 ⟨.activePending, false, 64,
  1, 64, 12, 0⟩, W.sys, 64, by decide +kernel⟩

theorem witness_EventRouting_26 : ∃ (s : State) (x : Access) (src : BitVec 10), (s.reaches x R.EVR_SYS_ACK = true) ∧ (x.m =
.sys) ∧ ((s.route src.toNat).st.served = true) ∧ ((s.route src.toNat).cur = src.toNat) ∧ ((s.route src.toNat).by_ = 12) ∧
(s.isSet (srcAddr src.toNat) F.EVR_SRC_GRP_EN = false) ∧ (isLine src.toNat = true) ∧ (s.getF (srcAddr src.toNat)
F.EVR_SRC_SENSE = 3) :=
  ⟨({ W.up with evr := { W.up.evr with filt := [46] } }.setF (srcAddr 46) F.EVR_SRC_SENSE 3).setRoute 46 ⟨.active, false,
  46, 1, 46, 12, 0⟩, W.sys, 46, by decide +kernel⟩

theorem witness_EventRouting_27 : ∃ (s : State) (x : Access) (src : BitVec 10), (s.reaches x R.EVR_SYS_ACK = true) ∧
(s.activeRoute 12 src.toNat = none) :=
  ⟨W.up, W.sys, 64, by decide +kernel⟩

theorem witness_EventRouting_28 : ∃ (s : State) (x : Access) (src : BitVec 10), (s.reaches x R.EVR_SYS_ACK = true) ∧ (x.m ≠
.sys) ∧ (s.activeRoute 12 src.toNat ≠ none) :=
  ⟨(W.up.setF (R.HIF_FN_STAT 0) F.HIF_FN_STAT_EN 1).setRoute 64 ⟨.active, false, 64, 1, 64, 12, 0⟩, ⟨.fn 0, false, false⟩,
  64, by decide +kernel⟩

theorem witness_EventRouting_29 : ∃ (s : State) (g : Fin 64) (b : Batch), (b = SMap.get (fun _ => noBatch) s.evr.batches g)
∧ (b.count ≠ 0) ∧ (s.getF (R.EVR_GCFG g) F.EVR_GCFG_TIME ≠ 0) ∧ (b.start + s.getF (R.EVR_GCFG g) F.EVR_GCFG_TIME ≤
s.mtime.toNat / 1500) ∧ ((s.routeTgt (1024 + g)).kind ≠ 0) ∧ (s.route (1024 + g) = idleRoute) :=
  ⟨W.batch, 2, ⟨3, 70, 0⟩, by decide +kernel⟩

theorem witness_EventRouting_30 : ∃ (s : State) (g : Fin 64) (b : Batch), (b = SMap.get (fun _ => noBatch) s.evr.batches g)
∧ (b.count = 0 ∨ s.getF (R.EVR_GCFG g) F.EVR_GCFG_TIME = 0 ∨ s.mtime.toNat / 1500 < b.start + s.getF (R.EVR_GCFG g)
F.EVR_GCFG_TIME) :=
  ⟨{ W.batch with mtime := 0 }, 2, ⟨3, 70, 0⟩, by decide +kernel⟩

theorem witness_EventRouting_31 : ∃ (s : State) (x : Access) (j : Fin 1024) (v : Word), (s.reaches x (R.EVR_TGT j) = true)
∧ (localOf j = none) ∧ (s.absentSource j = false) ∧ (x.m.isSys = true) ∧ (v &&& 0x3E00F800 = 0) ∧ (s.indexOk
(F.EVR_TGT_KIND.get v) (F.EVR_TGT_INDEX.get v) = true) ∧ (isLine j = false) :=
  ⟨W.up, W.sys, 8, F.EVR_TGT_KIND.word 1 ||| F.EVR_TGT_INDEX.word 16, by decide +kernel⟩

theorem witness_EventRouting_32 : ∃ (s : State) (x : Access) (n : Slice) (i : Fin 72) (v : Word), (s.reaches x (R.EVR_LTGT
n i) = true) ∧ (s.ownerIs n x.m = true) ∧ (s.slState n = slFenced) ∧ (v &&& 0x3E00F800 = 0) ∧ (s.indexOk
(F.EVR_TGT_KIND.get v) (F.EVR_TGT_INDEX.get v) = true) ∧ (s.mayName (localSrc n i) (F.EVR_TGT_KIND.get v)
(F.EVR_TGT_INDEX.get v) = true) ∧ (isLine (localSrc n i) = false) :=
  ⟨(W.up.setSl 0 slFenced).setF (R.HIF_FN_STAT 1) F.HIF_FN_STAT_EN 1, ⟨.fn 1, false, false⟩, 0, 4, F.EVR_TGT_KIND.word 1,
  by decide +kernel⟩

theorem witness_EventRouting_33 : ∃ (s : State) (x : Access) (g : Fin 64) (v : Word), (s.reaches x (R.EVR_GTGT g) = true) ∧
(x.m.isSys = true) ∧ (v &&& 0x2000F800 = 0) ∧ (s.indexOk (F.EVR_GTGT_KIND.get v) (F.EVR_GTGT_INDEX.get v) = true) ∧
(s.members g = []) :=
  ⟨W.up, W.sys, 3, F.EVR_GTGT_KIND.word 1 ||| F.EVR_GTGT_INDEX.word 16 ||| F.EVR_GTGT_PRIO.word 9, by decide +kernel⟩

theorem witness_EventRouting_34 : ∃ (s : State) (x : Access) (j : Fin 1024) (v : Word), (s.reaches x (R.EVR_TGT j) = true)
∧ (s.absentSource j = false) ∧ (localOf j ≠ none ∨ x.m.isSys = false ∨ v &&& 0x3E00F800 ≠ 0 ∨ s.indexOk (F.EVR_TGT_KIND.get
v) (F.EVR_TGT_INDEX.get v) = false) :=
  ⟨W.up, W.sys, 46, F.EVR_TGT_KIND.word 1 ||| F.EVR_TGT_INDEX.word 15, by decide +kernel⟩

theorem witness_EventRouting_35 : ∃ (s : State) (x : Access) (n : Slice) (i : Fin 72) (v : Word), (s.reaches x (R.EVR_LTGT
n i) = true) ∧ (s.slState n ≠ slFenced ∨ s.mayName (localSrc n i) (F.EVR_TGT_KIND.get v) (F.EVR_TGT_INDEX.get v) = false)
:=
  ⟨W.up.setF (R.HIF_FN_STAT 1) F.HIF_FN_STAT_EN 1, ⟨.fn 1, false, false⟩, 0, 4, F.EVR_TGT_KIND.word 1, by decide +kernel⟩

theorem witness_EventRouting_36 : ∃ (s : State) (x : Access) (g : Fin 64) (v : Word), (s.reaches x (R.EVR_GTGT g) = true) ∧
(v &&& 0x2000F800 ≠ 0 ∨ s.indexOk (F.EVR_GTGT_KIND.get v) (F.EVR_GTGT_INDEX.get v) = false) :=
  ⟨W.up, W.sys, 3, F.EVR_GTGT_KIND.word 1 ||| F.EVR_GTGT_INDEX.word 15, by decide +kernel⟩

theorem witness_EventRouting_37 : ∃ (s : State) (src at_ : Nat) (mt : BitVec 64) (l : List (Nat × Nat × BitVec 64)),
(s.evr.taps = (src, at_, mt) :: l) :=
  ⟨{ W.up with evr := { W.up.evr with taps := [(46, 0, 0), (70, 0, 0)] } }, 46, 0, 0, [(70, 0, 0)], by decide +kernel⟩

theorem witness_EventRouting_38 : ∃ (s : State), (s.evr.taps = []) :=
  ⟨W.up, by decide +kernel⟩

theorem witness_EventRouting_39 : ∃ (s : State) (x : Access) (o : Orphan) (l : List Orphan), (s.answers x R.EVR_ORPH1 =
true) ∧ (s.evr.orphans = o :: l) :=
  ⟨{ W.up with evr := { W.up.evr with orphans := [⟨1, 2⟩, ⟨3, 4⟩] } }, W.sys, ⟨1, 2⟩, [⟨3, 4⟩], by decide +kernel⟩

theorem witness_EventRouting_40 : ∃ (s : State) (x : Access), (s.answers x R.EVR_ORPH1 = true) ∧ (s.evr.orphans = []) :=
  ⟨W.up, W.sys, by decide +kernel⟩

theorem witness_DmaPrograms_1 : ∃ (s : State) (x : Access) (e : Engine) (c : Fin 16), (s.reaches x (R.DMA_CTRL e c) = true)
∧ (c.val < dmaChannels e) ∧ (s.dmaMayStart e c = true) :=
  ⟨W.up.setReg (R.DMA_PROG 0 1) 0x02080100, W.own, 0, 1, by decide +kernel⟩

theorem witness_DmaPrograms_2 : ∃ (s : State) (x : Access) (e : Engine) (c : Fin 16), (s.reaches x (R.DMA_CTRL e c) = true)
∧ (c.val < dmaChannels e) ∧ (s.dmaMayStart e c = false) :=
  ⟨W.dma [] resetDma, W.own, 0, 1, by decide +kernel⟩

theorem witness_DmaPrograms_3 : ∃ (s : State) (x : Access) (e : Engine) (c : Fin 16), (s.reaches x (R.DMA_CTRL e c) = true)
∧ (c.val < dmaChannels e) ∧ (s.dmaState e c = 1 ∨ s.dmaState e c = 2 ∨ s.dmaState e c = 4) ∧ (s.outst e c = 0) :=
  ⟨W.dma [] resetDma, W.own, 0, 1, by decide +kernel⟩

theorem witness_DmaPrograms_4 : ∃ (s : State) (e : Engine) (c : Fin 16) (l : List Nat) (src dst : Nat) (v : Cell), (s.dmaAt
e c l = true) ∧ (l.length = 3) ∧ ((s.dmaOf e c).loops = []) ∧ (wordAt l 0 = 1 * 2 ^ 28 + 1) ∧ (src = wordAt l 1) ∧ (dst =
wordAt l 2) ∧ (src % 4 = 0) ∧ (dst % 4 = 0) ∧ (s.dmaCellOk e src false = true) ∧ (s.dmaCellOk e dst true = true) ∧ (v =
s.cell src) ∧ (s.outst e c < 64) :=
  ⟨(W.dma [0x10000001, 0x02080010, 0x02080020] resetDma).setCell 0x02080010 ⟨9, tagQ31⟩, 0, 1, [0x10000001, 0x02080010,
  0x02080020], 0x02080010, 0x02080020, ⟨9, tagQ31⟩, by decide +kernel⟩

theorem witness_DmaPrograms_5 : ∃ (s : State) (e : Engine) (c : Fin 16) (l : List Nat), (s.dmaAt e c l = true) ∧ (wordAt l
0 / 2 ^ 28 = 2) ∧ (wordAt l 0 / 2 ^ 24 % 16 = 0) ∧ ((s.dmaOf e c).loops.length < 4) :=
  ⟨W.dma [0x20000003, 0x00040004] resetDma, 0, 1, [0x20000003, 0x00040004], by decide +kernel⟩

theorem witness_DmaPrograms_6 : ∃ (s : State) (e : Engine) (c : Fin 16) (l : List Nat) (y : DmaLoop) (q : List DmaLoop),
(s.dmaAt e c l = true) ∧ (wordAt l 0 = 3 * 2 ^ 28) ∧ ((s.dmaOf e c).loops = y :: q) ∧ (y.left ≠ 1) ∧ (y.start < 2 ^ 32) :=
  ⟨W.dma [0x30000000] { resetDma with loops := [⟨0x02080108, 3, 0, 4, 4⟩] }, 0, 1, [0x30000000], ⟨0x02080108, 3, 0, 4, 4⟩,
  [], by decide +kernel⟩

theorem witness_DmaPrograms_7 : ∃ (s : State) (e : Engine) (c : Fin 16) (l : List Nat) (y : DmaLoop) (q : List DmaLoop),
(s.dmaAt e c l = true) ∧ (wordAt l 0 = 3 * 2 ^ 28) ∧ ((s.dmaOf e c).loops = y :: q) ∧ (y.left = 1) ∧ (q.length < 4) :=
  ⟨W.dma [0x30000000] { resetDma with loops := [⟨0x02080108, 1, 0, 4, 4⟩] }, 0, 1, [0x30000000], ⟨0x02080108, 1, 0, 4, 4⟩,
  [], by decide +kernel⟩

theorem witness_DmaPrograms_8 : ∃ (s : State) (e : Engine) (c : Fin 16) (l : List Nat), (s.dmaAt e c l = true) ∧ (wordAt l
0 / 2 ^ 28 = 4) ∧ (wordAt l 0 / 1024 % 2 ^ 18 = 0) ∧ (wordAt l 1 < 2 ^ 24) ∧ (waitOk e (wordAt l 0 % 1024) = true) ∧
(pwmSource (wordAt l 0 % 1024) ≠ some e.val ∨ s.evr.taps.any (fun x => x.1 == wordAt l 0 % 1024 && x.2.1 == s.clock) =
false) :=
  ⟨W.dma [0x40000040, 5] resetDma, 0, 1, [0x40000040, 5], by decide +kernel⟩

theorem witness_DmaPrograms_9 : ∃ (s : State) (e : Engine) (c : Fin 16) (w : DmaWait), ((s.dmaOf e c).wait = some w) ∧
(s.dmaState e c = 2) ∧ (w.us ≠ 0) ∧ (w.since + 1500 * w.us ≤ s.mtime.toNat) ∧ (s.outst e c = 0) :=
  ⟨({ W.dma [] { resetDma with wait := some ⟨64, 5, 0, 0⟩ } with mtime := 30000 } : State).setDmaState 0 1 2, 0, 1, ⟨64, 5,
  0, 0⟩, by decide +kernel⟩

theorem witness_DmaPrograms_10 : ∃ (s : State) (e : Engine) (c : Fin 16) (l : List Nat), (s.dmaAt e c l = true) ∧ (wordAt l
0 = 5 * 2 ^ 28) ∧ (s.outst e c = 0) :=
  ⟨W.dma [0x50000000] resetDma, 0, 1, [0x50000000], by decide +kernel⟩

theorem witness_DmaPrograms_11 : ∃ (s : State) (e : Engine) (c : Fin 16) (l : List Nat), (s.dmaAt e c l = true) ∧ (wordAt l
0 = 7 * 2 ^ 28) ∧ (s.outst e c = 0) :=
  ⟨W.dma [0x70000000] resetDma, 0, 1, [0x70000000], by decide +kernel⟩

theorem witness_DmaPrograms_12 : ∃ (s : State) (e : Engine) (c : Fin 16) (l : List Nat), (s.dmaAt e c l = true) ∧ (wordAt l
0 = 7 * 2 ^ 28) ∧ (s.outst e c ≠ 0) :=
  ⟨(W.dma [0x70000000] resetDma).setF (R.DMA_STAT 0 1) F.DMA_STAT_OUTST 2, 0, 1, [0x70000000], by decide +kernel⟩

theorem witness_DmaPrograms_13 : ∃ (s : State) (e : Engine) (c : Fin 16) (l : List Nat), (s.dmaAt e c l = true) ∧ (wordAt l
0 = 0) ∧ (s.outst e c = 0) :=
  ⟨W.dma [0] resetDma, 0, 1, [0], by decide +kernel⟩

theorem witness_DmaPrograms_14 : ∃ (s : State) (e : Engine) (c : Fin 16) (l : List Nat) (src dst : Nat), (s.dmaAt e c l =
true) ∧ ((s.dmaOf e c).loops = []) ∧ (wordAt l 0 = 6 * 2 ^ 28 + 3 * 2 ^ 24 + 1 * 2 ^ 20 + 1) ∧ (src = wordAt l 1) ∧ (dst =
wordAt l 2) ∧ (wordAt l 3 % 4 = 0) ∧ (src % 4 = 0) ∧ (dst % 4 = 0) ∧ (dst + wordAt l 3 < 2 ^ 32) ∧ (src + 4 < 2 ^ 32) ∧ (4
≤ wordAt l 3) ∧ (s.dmaCellOk e src false = true) ∧ (s.dmaCellOk e (src + 4) false = true) ∧ (s.dmaCellOk e dst true = true)
∧ (s.dmaCellOk e (dst + wordAt l 3) true = true) ∧ (dst ≠ src + 4) ∧ (s.outst e c < 63) :=
  ⟨((W.dma [0x63100001, 0x02080010, 0x02080020, 16] resetDma).setCell 0x02080010 ⟨9, tagQ31⟩).setCell 0x02080014 ⟨8,
  tagInt⟩, 0, 1, [0x63100001, 0x02080010, 0x02080020, 16], 0x02080010, 0x02080020, by decide +kernel⟩

theorem witness_DmaPrograms_15 : ∃ (s : State) (e : Engine) (c : Fin 16), (1 < s.outst e c) :=
  ⟨(W.dma [] resetDma).setF (R.DMA_STAT 0 1) F.DMA_STAT_OUTST 2, 0, 1, by decide +kernel⟩

theorem witness_DmaPrograms_16 : ∃ (s : State) (e : Engine) (c : Fin 16), (s.outst e c = 1) ∧ ((s.dmaOf e c).after =
.fence) ∧ ((s.dmaOf e c).was = 0) ∧ (s.dmaState e c = 3) :=
  ⟨((W.dma [] { resetDma with after := .fence }).setF (R.DMA_STAT 0 1) F.DMA_STAT_OUTST 1).setDmaState 0 1 3, 0, 1, by
  decide +kernel⟩

theorem witness_DescriptorsOfSlices_1 : ∃ (s : State) (f : Func) (k : Nat) (x : Flight) (n : Slice) (a : Nat) (v : Word),
(s.canBegin f k 0x02 x = true) ∧ (s.descCheck f x .slice (x.d.unit == 0) false false = none) ∧ (x.d.slice = n) ∧ (x.d.unit
= 1) ∧ (x.d.op32 0 = a - sliceBase n) ∧ (v = x.d.p.get 1) ∧ (s.accessWaits a = false) ∧ (smem n 0 ≤ a) ∧ (a < smem n 0 +
0x80000) ∧ (a % 4 = 0) ∧ (s.mark a = none) ∧ ((s.cell a).tag = tagInt) :=
  ⟨(W.fn [W.flight 2 0 1 0 #v[0x80010, 77, 0, 0, 0, 0, 0, 0, 0, 0, 0, 0]]).setCell 0x02080010 ⟨9, tagInt⟩, 1, 0, (W.flight
  2 0 1 0 #v[0x80010, 77, 0, 0, 0, 0, 0, 0, 0, 0, 0, 0]), 0, 0x02080010, 77, by decide +kernel⟩

theorem witness_DescriptorsOfSlices_2 : ∃ (s : State) (f : Func) (k : Nat) (x : Flight), (s.canBegin f k 0x02 x = true) ∧
(x.d.bad = true ∨ x.d.unit = 0 ∨ 6 < x.d.unit) :=
  ⟨W.fn [W.flight 2 0 0 0 W.zeros], 1, 0, (W.flight 2 0 0 0 W.zeros), by decide +kernel⟩

theorem witness_DescriptorsOfSlices_3 : ∃ (s : State) (f : Func) (k : Nat) (x : Flight) (n : Slice), (s.canBegin f k 0x02 x
= true) ∧ (x.d.slice = n) ∧ (x.d.bad = false) ∧ (x.d.unit = 1) ∧ (x.d.op32 0 < 0x100000) ∧ (s.fitted n = true) ∧ (s.owner n
≠ f.val) :=
  ⟨(W.fn [W.flight 2 0 1 0 W.zeros]).setF (R.DEV_SLC_ASSIGN 0) F.DEV_SLC_ASSIGN_OWNER 2, 1, 0, (W.flight 2 0 1 0 W.zeros),
  0, by decide +kernel⟩

theorem witness_DescriptorsOfSlices_4 : ∃ (s : State) (f : Func) (k : Nat) (x : Flight) (n : Slice), (s.canBegin f k 0x03 x
= true) ∧ (s.descCheck f x .slice false false false = none) ∧ (x.d.slice = n) ∧ (x.d.unit < 16) ∧ (s.standby n = false) ∧
(s.busUp (.fn f) = true) ∧ (s.isSet R.DEV_BOOT_STAT F.DEV_BOOT_STAT_DONE = true) :=
  ⟨W.fn [W.flight 3 0 3 0 (W.zeros.set 0 0x1234)], 1, 0, (W.flight 3 0 3 0 (W.zeros.set 0 0x1234)), 0, by decide +kernel⟩

theorem witness_DescriptorsOfSlices_5 : ∃ (s : State) (f : Func) (k : Nat) (x : Flight) (n : Slice), (s.canBegin f k 0x03 x
= true) ∧ (s.descCheck f x .slice false false false = none) ∧ (x.d.slice = n) ∧ (x.d.unit < 16) ∧ (s.standby n = false) :=
  ⟨W.fn [W.flight 3 0 3 0 (W.zeros.set 0 0x1234)], 1, 0, (W.flight 3 0 3 0 (W.zeros.set 0 0x1234)), 0, by decide +kernel⟩

theorem witness_DescriptorsOfSlices_6 : ∃ (s : State) (f : Func) (k : Nat) (x : Flight) (n : Slice) (b : Nat), (s.canBegin
f k 0x04 x = true) ∧ (s.descCheck f x .slice false false false = none) ∧ (x.d.slice = n) ∧ (x.d.unit < 16) ∧ (b = x.d.op32
0) ∧ (b ≤ 1) ∧ (b ≠ s.getF (R.CLE_LCTRL n x.d.unit) F.CLE_LCTRL_BANK) ∧ (s.standby n = false) ∧ (s.busUp (.fn f) = true) ∧
(s.slState n = slRunning) ∧ (s.isSet (R.CLE_LSTAT n x.d.unit) F.CLE_LSTAT_SWAP_PEND = false) ∧ (F.CLE_CB3_SHIFT.get
(x.d.p.get 4) ≤ 8) :=
  ⟨W.fn [W.flight 4 0 3 0 #v[1, 5, 6, 0, 0, 0, 0, 0, 0, 0, 0, 0]], 1, 0, (W.flight 4 0 3 0 #v[1, 5, 6, 0, 0, 0, 0, 0, 0, 0,
  0, 0]), 0, 1, by decide +kernel⟩

theorem witness_DescriptorsOfSlices_7 : ∃ (s : State) (f : Func) (k : Nat) (x : Flight) (n : Slice), (s.canBegin f k 0x05 x
= true) ∧ (s.descCheck f x .slice false false false = none) ∧ (x.d.slice = n) ∧ (x.d.unit < 16) ∧ (s.standby n = false) ∧
(s.busUp (.fn f) = true) ∧ (s.slState n = slRunning) ∧ (s.isSet (R.CLE_LCTRL n x.d.unit) F.CLE_LCTRL_EN = true) ∧ (s.isSet
(R.CLE_LSTAT n x.d.unit) F.CLE_LSTAT_SWAP_PEND = false) ∧ ((s.ctlOf n).fencing = false) :=
  ⟨W.fn [W.flight 5 0 3 0 W.zeros], 1, 0, (W.flight 5 0 3 0 W.zeros), 0, by decide +kernel⟩

theorem witness_DescriptorsOfSlices_8 : ∃ (s : State) (f : Func) (k : Nat) (x : Flight) (n : Slice), (s.canBegin f k 0x06 x
= true) ∧ (s.descCheck f x .slice false false false = none) ∧ (x.d.slice = n) ∧ (x.d.unit < 16) ∧ (bit (x.d.p.get 0) 16 =
false) ∧ (s.isSet (R.CLE_LCTRL n x.d.unit) F.CLE_LCTRL_MODE = !bit (x.d.p.get 0) 0) ∧ (s.standby n = false) ∧ (s.busUp (.fn
f) = true) ∧ (s.slState n = slRunning) ∧ (s.isSet (R.CLE_LCTRL n x.d.unit) F.CLE_LCTRL_EN = true) ∧ (s.isSet (R.CLE_LSTAT n
x.d.unit) F.CLE_LSTAT_MODE_PEND = false) ∧ ((s.ctlOf n).fencing = false) :=
  ⟨(W.fn [W.flight 6 0 3 0 (W.zeros.set 0 1)]), 1, 0, (W.flight 6 0 3 0 (W.zeros.set 0 1)), 0, by decide +kernel⟩

theorem witness_DescriptorsOfSlices_9 : ∃ (s : State) (f : Func) (k : Nat) (x : Flight) (n : Slice) (a : Nat), (s.canBegin
f k 0x07 x = true) ∧ (s.descCheck f x .slice false false false = none) ∧ (x.d.slice = n) ∧ (x.d.unit = 0) ∧ (x.d.op32 1 =
4) ∧ (a = sliceBase n + x.d.op32 0) ∧ (s.accessWaits a = false) ∧ (smem n 0 ≤ a) ∧ (a < smem n 0 + 0x80000) ∧ (a % 4 = 0) ∧
(s.mark a = none) ∧ ((s.cell a).tag ≠ tagCap) ∧ (s.fnReach f = true) :=
  ⟨(W.fn [W.flight 7 0 0 0x1000 #v[0x80010, 4, 0, 0, 0, 0, 0, 0, 0, 0, 0, 0]]).setCell 0x02080010 ⟨9, tagInt⟩, 1, 0,
  (W.flight 7 0 0 0x1000 #v[0x80010, 4, 0, 0, 0, 0, 0, 0, 0, 0, 0, 0]), 0, 0x02080010, by decide +kernel⟩

theorem witness_DescriptorsOfSlices_10 : ∃ (s : State) (f : Func) (k : Nat) (x : Flight) (n : Slice), (s.canBegin f k 0x08
x = true) ∧ (s.descCheck f x .slice (F.INJ_CTRL_START.get (x.d.p.get 0) == 0) false false = none) ∧ (x.d.slice = n) ∧
(x.d.unit = 0) ∧ (s.busUp (.fn f) = true) ∧ (s.mode = mdService) ∧ (s.slState n = slReady ∨ s.slState n = slRunning) ∧
(s.isSet (R.INJ_STAT n) F.INJ_STAT_RUN = false) ∧ (F.INJ_CTRL_LOOP.get (x.d.p.get 0) = 3) ∧ (s.isSet (R.CLE_LCTRL n 3)
F.CLE_LCTRL_EN = true) ∧ (s.getF (R.INJ_LIM n 3) F.INJ_LIM_LIM = 0) ∧ (x.d.p.get 0 = F.INJ_CTRL_START.word 1 |||
F.INJ_CTRL_LOOP.word 3) ∧ (x.d.p.get 1 = 0 ∧ x.d.p.get 2 = 0 ∧ x.d.p.get 3 = 0 ∧ x.d.p.get 4 = 0) ∧ (x.d.p.get 5 =
F.INJ_CAP_LOG2LEN.word 4) ∧ (x.d.p.get 6 = F.INJ_CORR_N.word 16) :=
  ⟨(W.fn [W.flight 8 0 0 0 W.capArgs]).setF R.DEV_MODE F.DEV_MODE_MODE mdService, 1, 0, (W.flight 8 0 0 0 W.capArgs), 0, by
  decide +kernel⟩

theorem witness_DescriptorsOfSlices_11 : ∃ (s : State) (f : Func) (k : Nat) (x : Flight) (n : Slice), (s.canBegin f k 0x0B
x = true) ∧ (s.descCheck f x .slice false false false = none) ∧ (x.d.slice = n) ∧ (x.d.unit = 0) ∧ (s.part.full = true) ∧
(0x800 ≤ x.d.op32 0) ∧ (1 ≤ x.d.op32 1) ∧ (x.d.op32 0 + x.d.op32 1 ≤ 0x1000) ∧ (s.slState n = slFenced) ∧ (s.mayRequest f =
true) :=
  ⟨(W.fn [W.flight 11 0 0 0x1000 #v[0x800, 1, 0, 0, 0, 0, 0, 0, 0, 0, 0, 0]]).setSl 0 slFenced, 1, 0, (W.flight 11 0 0
  0x1000 #v[0x800, 1, 0, 0, 0, 0, 0, 0, 0, 0, 0, 0]), 0, by decide +kernel⟩

theorem witness_DescriptorsOfSlices_12 : ∃ (s : State) (f : Func) (k : Nat) (x : Flight) (n : Slice), (s.canBegin f k 0x0E
x = true) ∧ (s.descCheck f x .slice false false false = none) ∧ (x.d.slice = n) ∧ (x.d.unit = 0) ∧ (bit (x.d.p.get 0) 8 =
false) ∧ (s.busUp (.fn f) = true) ∧ (s.slState n = slRunning) ∧ ((s.ctlOf n).fencing = false) ∧ (s.isSet (R.SLC_CMD_STAT n)
F.SLC_CMD_STAT_HELD = false) :=
  ⟨W.fn [W.flight 14 0 0 0 W.zeros], 1, 0, (W.flight 14 0 0 0 W.zeros), 0, by decide +kernel⟩

theorem witness_DescriptorsOfSlices_13 : ∃ (s : State) (f : Func) (k : Nat) (x : Flight) (n : Slice), (s.canBegin f k 0x0F
x = true) ∧ (s.descCheck f x .slice false false false = none) ∧ (x.d.slice = n) ∧ (x.d.unit = 0) ∧ (x.d.p.get 0 = 0) ∧
(s.busUp (.fn f) = true) ∧ (s.slState n = slFenced) ∧ (s.cmdBusy n = false) ∧ ((s.ctlOf n).image = true) ∧ ((s.ctlOf
n).diverged = false) :=
  ⟨((W.fn [W.flight 15 0 0 0 W.zeros]).setSl 0 slFenced).setCtl 0 { resetCtl with image := true }, 1, 0, (W.flight 15 0 0 0
  W.zeros), 0, by decide +kernel⟩

theorem witness_DescriptorsOfSlices_14 : ∃ (s : State) (f : Func) (k : Nat) (x : Flight) (n i : Slice) (w0 w1 : Word),
(s.canBegin f k 0x10 x = true) ∧ (s.descCheck f x .slice false false false = none) ∧ (x.d.slice = n) ∧ (x.d.unit = 0) ∧
(s.part.full = true) ∧ (x.d.op32 0 = 1) ∧ (x.d.addr = 0) ∧ (x.d.p.get 2 = w0) ∧ (x.d.p.get 3 = w1) ∧ (w1.toNat / 65536 = i)
∧ (s.mode = mdHil) ∧ ((s.hilOf n i).feed.length < 16) :=
  ⟨(W.fn [W.flight 16 0 0 0 #v[1, 0, 55, 0x20007, 0, 0, 0, 0, 0, 0, 0, 0]]).setF R.DEV_MODE F.DEV_MODE_MODE mdHil, 1, 0,
  (W.flight 16 0 0 0 #v[1, 0, 55, 0x20007, 0, 0, 0, 0, 0, 0, 0, 0]), 0, 2, 55, 0x20007, by decide +kernel⟩

theorem witness_DescriptorsOfTheModule_1 : ∃ (s : State) (f : Func) (k : Nat) (x : Flight), (s.canBegin f k 0x00 x = true)
∧ (s.descCheck f x .none false false false = none) ∧ (x.d.unit = 0) :=
  ⟨W.fn [W.flight 0 255 0 0 W.zeros], 1, 0, (W.flight 0 255 0 0 W.zeros), by decide +kernel⟩

theorem witness_DescriptorsOfTheModule_2 : ∃ (s : State) (f : Func) (k : Nat) (x : Flight), (s.canBegin f k 0x00 x = true)
∧ (x.d.bad = true ∨ x.d.slice ≠ 255 ∨ x.d.unit ≠ 0) :=
  ⟨W.fn [W.flight 0 0 0 0 W.zeros], 1, 0, (W.flight 0 0 0 0 W.zeros), by decide +kernel⟩

theorem witness_DescriptorsOfTheModule_3 : ∃ (s : State) (f : Func) (k : Nat) (x : Flight), (s.canBegin f k 0x00 x = true)
∧ (x.d.bad = false) ∧ (x.d.slice = 255) ∧ (x.d.unit = 0) ∧ (x.lost = true) :=
  ⟨W.fn [{ W.flight 0 255 0 0 W.zeros with lost := true }], 1, 0, { W.flight 0 255 0 0 W.zeros with lost := true }, by
  decide +kernel⟩

theorem witness_DescriptorsOfTheModule_4 : ∃ (s : State) (f : Func) (k : Nat) (x : Flight), (s.canBegin f k 0x01 x = true)
∧ (s.descCheck f x .none false false false = none) ∧ (x.d.unit = 0) ∧ (∀ c ∈ (s.fnOf f).done, c.sq ≠ x.sq ∨ x.pos < c.pos)
:=
  ⟨W.fn [W.flight 1 255 0 0 W.zeros], 1, 0, (W.flight 1 255 0 0 W.zeros), by decide +kernel⟩

theorem witness_DescriptorsOfTheModule_5 : ∃ (s : State) (f : Func) (k : Nat) (x : Flight), (s.canBegin f k 0x01 x = true)
∧ (x.d.bad = true ∨ x.d.slice ≠ 255 ∨ x.d.unit ≠ 0) ∧ (∀ c ∈ (s.fnOf f).done, c.sq ≠ x.sq ∨ x.pos < c.pos) :=
  ⟨W.fn [W.flight 1 0 0 0 W.zeros], 1, 0, (W.flight 1 0 0 0 W.zeros), by decide +kernel⟩

theorem witness_DescriptorsOfTheModule_6 : ∃ (s : State) (f : Func) (k : Nat) (x : Flight) (c : Compl), (s.canBegin f k
0x01 x = true) ∧ (c ∈ (s.fnOf f).done) ∧ (c.sq = x.sq) ∧ (c.pos ≤ x.pos) :=
  ⟨let s0 := W.fn [{ W.flight 1 255 0 0 W.zeros with pos := 5 }]; s0.setFn 1
  { s0.fnOf 1 with done := [⟨0, 2, 255, 1, 0, 0, false, false, false⟩] }, 1, 0,
  { W.flight 1 255 0 0 W.zeros with pos := 5 }, ⟨0, 2, 255, 1, 0, 0, false, false, false⟩, by decide +kernel⟩

theorem witness_DescriptorsOfTheModule_7 : ∃ (s : State) (f : Func) (k : Nat) (x : Flight), (s.canBegin f k 0x09 x = true)
∧ (s.descCheck f x .none false false false = none) ∧ (x.d.unit = 0) ∧ (bit (x.d.p.get 0) 0 = true) ∧ (12 ≤ x.d.op32 1 % 32)
∧ (x.d.op32 1 % 32 ≤ 24) ∧ (x.d.addr % 4096 = 0) :=
  ⟨W.fn [W.flight 9 255 0 0x1000 #v[1, 12, 0, 0, 0, 0, 0, 0, 0, 0, 0, 0]], 1, 0, (W.flight 9 255 0 0x1000 #v[1, 12, 0, 0,
  0, 0, 0, 0, 0, 0, 0, 0]), by decide +kernel⟩

theorem witness_DescriptorsOfTheModule_8 : ∃ (s : State) (f : Func) (k : Nat) (x : Flight), (s.canBegin f k 0x09 x = true)
∧ (s.descCheck f x .none false false false = none) ∧ (x.d.unit = 0) ∧ (bit (x.d.p.get 0) 0 = false) :=
  ⟨W.fn [W.flight 9 255 0 0x1000 W.zeros], 1, 0, (W.flight 9 255 0 0x1000 W.zeros), by decide +kernel⟩

theorem witness_DescriptorsOfTheModule_9 : ∃ (s : State) (f : Func) (k : Nat) (x : Flight), (s.canBegin f k 0x09 x = true)
∧ (x.d.bad = true ∨ x.d.slice ≠ 255 ∨ x.d.unit ≠ 0 ∨ (bit (x.d.p.get 0) 0 = true ∧ (x.d.op32 1 % 32 < 12 ∨ 24 < x.d.op32 1
% 32 ∨ x.d.addr % 4096 ≠ 0))) :=
  ⟨W.fn [W.flight 9 255 0 0x1004 #v[1, 12, 0, 0, 0, 0, 0, 0, 0, 0, 0, 0]], 1, 0, (W.flight 9 255 0 0x1004 #v[1, 12, 0, 0,
  0, 0, 0, 0, 0, 0, 0, 0]), by decide +kernel⟩

theorem witness_DescriptorsOfTheModule_10 : ∃ (s : State) (f : Func) (k : Nat) (x : Flight) (n : Slice) (c : Fin 16),
(s.canBegin f k 0x0A x = true) ∧ (s.descCheck f x .either false false false = none) ∧ (x.d.slice = n) ∧ (x.d.unit = c.val)
∧ (c.val < 8) ∧ (s.dmaMayStart n.castSucc c = true) :=
  ⟨W.fn [W.flight 10 0 1 0 W.zeros], 1, 0, (W.flight 10 0 1 0 W.zeros), 0, 1, by decide +kernel⟩

theorem witness_DescriptorsOfTheModule_11 : ∃ (s : State) (f : Func) (k : Nat) (x : Flight) (n : Slice) (c : Fin 16),
(s.canBegin f k 0x0A x = true) ∧ (s.descCheck f x .either false false false = none) ∧ (x.d.slice = n) ∧ (x.d.unit = c.val)
∧ (c.val < 8) ∧ (s.dmaMayStart n.castSucc c = false) :=
  ⟨(W.fn [W.flight 10 0 1 0 W.zeros]).setDmaState 0 1 1, 1, 0, (W.flight 10 0 1 0 W.zeros), 0, 1, by decide +kernel⟩

theorem witness_DescriptorsOfTheModule_12 : ∃ (s : State) (k : Nat) (x : Flight) (c : Fin 16), (s.canBegin 0 k 0x0A x =
true) ∧ (s.descCheck 0 x .either false false false = none) ∧ (x.d.slice = 255) ∧ (x.d.unit = c.val) ∧ (s.dmaMayStart 12 c =
true) :=
  ⟨W.pf0 [W.flight 10 255 9 0 W.zeros], 0, (W.flight 10 255 9 0 W.zeros), 9, by decide +kernel⟩

theorem witness_DescriptorsOfTheModule_13 : ∃ (s : State) (f : Func) (k : Nat) (x : Flight), (s.canBegin f k 0x0A x = true)
∧ (x.d.bad = false) ∧ (x.d.slice = 255) ∧ (x.d.unit < 16) ∧ (f ≠ 0) :=
  ⟨W.fn [W.flight 10 255 9 0 W.zeros], 1, 0, (W.flight 10 255 9 0 W.zeros), by decide +kernel⟩

theorem witness_DescriptorsOfTheModule_14 : ∃ (s : State) (f : Func) (k : Nat) (x : Flight) (n : Slice), (s.canBegin f k
0x0A x = true) ∧ (x.d.bad = false) ∧ (x.d.slice = n) ∧ (x.d.unit < 8) ∧ (s.fitted n = true) ∧ (x.lost = true ∨ s.owner n ≠
f.val) :=
  ⟨W.fn [W.flight 10 1 3 0 W.zeros], 1, 0, (W.flight 10 1 3 0 W.zeros), 1, by decide +kernel⟩

theorem witness_DescriptorsOfTheModule_15 : ∃ (s : State) (f : Func) (k : Nat) (x : Flight) (n : Slice), (s.canBegin f k
0x0A x = true) ∧ (x.d.bad = false) ∧ (x.d.slice = n) ∧ (x.d.unit < 8) ∧ (s.fitted n = false) :=
  ⟨{ W.fn [W.flight 10 11 3 0 W.zeros] with part := .esk7208 }, 1, 0, (W.flight 10 11 3 0 W.zeros), 11, by decide +kernel⟩

theorem witness_DescriptorsOfTheModule_16 : ∃ (s : State) (f : Func) (k : Nat) (x : Flight), (s.canBegin f k 0x0A x = true)
∧ (x.d.bad = true ∨ (12 ≤ x.d.slice ∧ x.d.slice ≠ 255) ∨ 16 ≤ x.d.unit ∨ (x.d.slice < 12 ∧ 8 ≤ x.d.unit)) :=
  ⟨W.fn [W.flight 10 0 8 0 W.zeros], 1, 0, (W.flight 10 0 8 0 W.zeros), by decide +kernel⟩

theorem witness_DescriptorsOfTheModule_17 : ∃ (s : State) (k : Nat) (x : Flight), (s.canBegin 0 k 0x0C x = true) ∧ (x.d.bad
= false) ∧ (x.d.slice = 255) ∧ (x.d.unit = 0) ∧ (flashBad x.d = false) ∧ (x.d.op32 0 % 16 = 2) ∧ (s.flashWaits x.d = false)
∧ (x.lost = false) ∧ (x.await = .nothing) ∧ (s.mayRequest 0 = true) :=
  ⟨W.pf0 [W.flight 12 255 0 0x1000 (W.zeros.set 0 2)], 0, (W.flight 12 255 0 0x1000 (W.zeros.set 0 2)), by decide +kernel⟩

theorem witness_DescriptorsOfTheModule_18 : ∃ (s : State) (k : Nat) (x : Flight) (arr blk : Nat), (s.canBegin 0 k 0x0C x =
true) ∧ (x.d.bad = false) ∧ (x.d.slice = 255) ∧ (x.d.unit = 0) ∧ (x.lost = false) ∧ (x.d.op32 0 % 16 = 1) ∧ (arr =
F.FLC_BSEL_ARRAY.get (x.d.p.get 1)) ∧ (blk = F.FLC_BSEL_BLOCK.get (x.d.p.get 1)) ∧ (blkOk arr blk = true) ∧ (s.flc.run =
none) ∧ (s.flcBars arr blk none = 0) :=
  ⟨W.pf0 [W.flight 12 255 0 0 (#v[1, F.FLC_BSEL_ARRAY.word 1 ||| F.FLC_BSEL_BLOCK.word 3, 0, 0, 0, 0, 0, 0, 0, 0, 0, 0])],
  0, (W.flight 12 255 0 0 #v[1, F.FLC_BSEL_ARRAY.word 1 ||| F.FLC_BSEL_BLOCK.word 3, 0, 0, 0, 0, 0, 0, 0, 0, 0, 0]), 1, 3,
  by decide +kernel⟩

theorem witness_DescriptorsOfTheModule_19 : ∃ (s : State) (k : Nat) (x : Flight) (r : Nat), (s.canBegin 0 k 0x0C x = true)
∧ (x.d.bad = false) ∧ (x.d.slice = 255) ∧ (x.d.unit = 0) ∧ (x.lost = false) ∧ (x.d.op32 0 % 16 = 8) ∧ (r =
F.FLC_BSEL_REGION.get (x.d.p.get 1)) ∧ (s.flc.run = none) :=
  ⟨W.pf0 [W.flight 12 255 0 0 (W.zeros.set 0 8)], 0, (W.flight 12 255 0 0 (W.zeros.set 0 8)), 0, by decide +kernel⟩

theorem witness_DescriptorsOfTheModule_20 : ∃ (s : State) (k : Nat) (x : Flight), (s.canBegin 0 k 0x0C x = true) ∧ (x.d.bad
= false) ∧ (x.d.slice = 255) ∧ (x.d.unit = 0) ∧ (x.lost = false) ∧ (flashBad x.d = false) ∧ (x.d.op32 0 % 16 = 3) ∧
(s.flc.run = none) :=
  ⟨W.pf0 [W.flight 12 255 0 0 (W.zeros.set 0 3)], 0, (W.flight 12 255 0 0 (W.zeros.set 0 3)), by decide +kernel⟩

theorem witness_DescriptorsOfTheModule_21 : ∃ (s : State) (f : Func) (k : Nat) (x : Flight), (s.canBegin f k 0x0C x = true)
∧ (s.flashWaits x.d = true) :=
  ⟨(W.fn [W.flight 12 255 0 0 (W.zeros.set 0 1)]).setFlc { resetFlc with run := some ⟨.erase, 0, 3, false, none⟩ }, 1, 0,
  (W.flight 12 255 0 0 (W.zeros.set 0 1)), by decide +kernel⟩

theorem witness_DescriptorsOfTheModule_22 : ∃ (s : State) (f : Func) (k : Nat) (x : Flight), (s.canBegin f k 0x0C x = true)
∧ (s.flashWaits x.d = false) ∧ (x.d.bad = true ∨ x.d.slice ≠ 255 ∨ x.d.unit ≠ 0 ∨ flashBad x.d = true) :=
  ⟨W.fn [W.flight 12 255 0 0 W.zeros], 1, 0, (W.flight 12 255 0 0 W.zeros), by decide +kernel⟩

theorem witness_DescriptorsOfTheModule_23 : ∃ (s : State) (f : Func) (k : Nat) (x : Flight), (s.canBegin f k 0x0C x = true)
∧ (s.flashWaits x.d = false) ∧ (x.d.bad = false) ∧ (x.d.slice = 255) ∧ (x.d.unit = 0) ∧ (flashBad x.d = false) ∧ (f ≠ 0) :=
  ⟨W.fn [W.flight 12 255 0 0 (W.zeros.set 0 1)], 1, 0, (W.flight 12 255 0 0 (W.zeros.set 0 1)), by decide +kernel⟩

theorem witness_DescriptorsOfTheModule_24 : ∃ (s : State) (f : Func) (k : Nat) (x : Flight) (n : Slice), (s.canBegin f k
0x0D x = true) ∧ (x.d.bad = false) ∧ (x.lost = false) ∧ (x.d.unit = 0) ∧ (x.d.slice = n) ∧ (x.d.op32 0 % 32 = n.val) ∧
(s.fitted n = true) ∧ (s.owner n = f.val) ∧ (s.mem.march = none) ∧ (s.slState n = slFenced ∨ (s.slState n = slReady ∧ bit
(x.d.p.get 0) 8 = false)) :=
  ⟨(W.fn [W.flight 13 0 0 0 W.zeros]).setSl 0 slFenced, 1, 0, (W.flight 13 0 0 0 W.zeros), 0, by decide +kernel⟩

theorem witness_DescriptorsOfTheModule_25 : ∃ (s : State) (k : Nat) (x : Flight), (s.canBegin 0 k 0x0D x = true) ∧ (x.d.bad
= false) ∧ (x.lost = false) ∧ (x.d.unit = 0) ∧ (x.d.slice = 255) ∧ (x.d.op32 0 % 32 = 0x10) ∧ (bit (x.d.p.get 0) 8 = false)
∧ (s.mem.march = none) :=
  ⟨W.pf0 [W.flight 13 255 0 0 (W.zeros.set 0 16)], 0, (W.flight 13 255 0 0 (W.zeros.set 0 16)), by decide +kernel⟩

theorem witness_DescriptorsOfTheModule_26 : ∃ (s : State) (f : Func) (k : Nat) (x : Flight) (n : Slice), (s.canBegin f k
0x0D x = true) ∧ (x.d.bad = false) ∧ (x.lost = false) ∧ (x.d.unit = 0) ∧ (x.d.slice = n) ∧ (x.d.op32 0 % 32 = n.val) ∧
(s.fitted n = true) ∧ (s.owner n = f.val) ∧ (s.mem.march ≠ none) :=
  ⟨{ W.fn [W.flight 13 0 0 0 W.zeros] with mem := { W.up.mem with march := some (3, false) } }, 1, 0, (W.flight 13 0 0 0
  W.zeros), 0, by decide +kernel⟩

theorem witness_DescriptorsOfTheModule_27 : ∃ (s : State) (f : Func) (k : Nat) (x : Flight) (n : Slice), (s.canBegin f k
0x0D x = true) ∧ (x.d.bad = false) ∧ (x.lost = false) ∧ (x.d.unit = 0) ∧ (x.d.slice = n) ∧ (x.d.op32 0 % 32 = n.val) ∧
(s.fitted n = true) ∧ (s.owner n = f.val) ∧ (s.mem.march = none) ∧ (s.slState n ≠ slFenced) ∧ (s.slState n ≠ slReady ∨ bit
(x.d.p.get 0) 8 = true) :=
  ⟨W.fn [W.flight 13 0 0 0 W.zeros], 1, 0, (W.flight 13 0 0 0 W.zeros), 0, by decide +kernel⟩

theorem witness_DescriptorsOfTheModule_28 : ∃ (s : State) (f : Func) (k : Nat) (x : Flight), (s.canBegin f k 0x0D x = true)
∧ (x.d.bad = false) ∧ (x.d.unit = 0) ∧ (x.d.slice = 255) ∧ (x.d.op32 0 % 32 = 0x10) ∧ (f ≠ 0) :=
  ⟨W.fn [W.flight 13 255 0 0 (W.zeros.set 0 16)], 1, 0, (W.flight 13 255 0 0 (W.zeros.set 0 16)), by decide +kernel⟩

theorem witness_DescriptorsOfTheModule_29 : ∃ (s : State) (f : Func) (k : Nat) (x : Flight) (n : Slice), (s.canBegin f k
0x0D x = true) ∧ (x.d.bad = false) ∧ (x.d.unit = 0) ∧ (x.d.slice = n) ∧ (x.d.op32 0 % 32 = n.val) ∧ (s.fitted n = false) :=
  ⟨{ W.fn [W.flight 13 11 0 0 (W.zeros.set 0 11)] with part := .esk7208 }, 1, 0, (W.flight 13 11 0 0 (W.zeros.set 0 11)),
  11, by decide +kernel⟩

theorem witness_DescriptorsOfTheModule_30 : ∃ (s : State) (f : Func) (k : Nat) (x : Flight), (s.canBegin f k 0x0D x = true)
∧ (x.d.bad = true ∨ x.d.unit ≠ 0 ∨ (x.d.slice ≠ 255 ∧ x.d.slice ≠ x.d.op32 0 % 32)) :=
  ⟨W.fn [W.flight 13 1 0 0 W.zeros], 1, 0, (W.flight 13 1 0 0 W.zeros), by decide +kernel⟩

theorem witness_DescriptorsOfTheModule_31 : ∃ (s : State) (f : Func) (k : Nat) (x : Flight), (s.canBegin f k 0x11 x = true)
∧ (s.descCheck f x .none false false false = none) ∧ (x.d.unit = 0) ∧ (s.waitable f (x.d.op32 0 % 1024) = true) :=
  ⟨W.fn [W.flight 17 255 0 0 (W.zeros.set 0 46)], 1, 0, (W.flight 17 255 0 0 (W.zeros.set 0 46)), by decide +kernel⟩

theorem witness_DescriptorsOfTheModule_32 : ∃ (s : State) (f : Func) (k : Nat) (x : Flight), (s.canBegin f k 0x11 x = true)
∧ (x.d.bad = true ∨ x.d.slice ≠ 255 ∨ x.d.unit ≠ 0 ∨ s.waitable f (x.d.op32 0 % 1024) = false) :=
  ⟨W.fn [W.flight 17 255 0 0 (W.zeros.set 0 993)] |>.setF (R.DEV_SLC_ASSIGN 0) F.DEV_SLC_ASSIGN_OWNER 1 |>.setFn 1
  { (W.fn [W.flight 17 255 0 0 (W.zeros.set 0 994)]).fnOf 1 with cause := 0 }, 1, 0, (W.flight 17 255 0 0 (W.zeros.set 0
  994)), by decide +kernel⟩

theorem witness_DescriptorsOfTheModule_33 : ∃ (s : State) (f : Func) (k : Nat) (x : Flight) (src at_ a : Nat) (mt : BitVec
64), (s.evr.taps = [(src, at_, mt)]) ∧ (x.since = some a) ∧ (a ≤ at_) ∧ ((s.fnOf f).flights[k]? = some x) ∧ ((s.fnOf
f).flights.filter (fun y => y.begun && y.await == Await.event src) = [x]) ∧ (∀ n : Slice, s.slState n = slOff) :=
  ⟨{ (W.fn [{ W.flight 17 255 0 0 (W.zeros.set 1 5) with begun := true, await := .event 46, since := some 7 }]).setSl 0 slOff with evr := { W.up.evr with taps := [(46, 7, 900)] } },
  1, 0, { W.flight 17 255 0 0 (W.zeros.set 1 5) with begun := true, await := .event 46, since := some 7 }, 46, 7, 7, 900,
  by decide +kernel⟩

theorem witness_DescriptorsOfTheModule_34 : ∃ (s : State) (f : Func) (k : Nat) (x : Flight) (src a : Nat), ((s.fnOf
f).flights[k]? = some x) ∧ (x.await = .event src) ∧ (x.begun = true) ∧ (x.d.op32 1 ≠ 0) ∧ (x.since = some a) ∧ (a + 1500 *
x.d.op32 1 ≤ s.clock) :=
  ⟨W.later 7500 (W.fn [{ W.flight 17 255 0 0 (W.zeros.set 1 5) with begun := true, await := .event 46, since := some 0 }]),
  1, 0, { W.flight 17 255 0 0 (W.zeros.set 1 5) with begun := true, await := .event 46, since := some 0 }, 46, 0, by
  decide +kernel⟩

theorem witness_DescriptorsOfTheModule_35 : ∃ (s : State) (f : Func) (k : Nat) (x : Flight) (a : Nat), ((s.fnOf
f).flights[k]? = some x) ∧ (x.since = some a) ∧ (x.begun = false ∨ x.d.op32 1 = 0 ∨ s.clock < a + 1500 * x.d.op32 1) :=
  ⟨W.later 7499 (W.fn [{ W.flight 17 255 0 0 (W.zeros.set 1 5) with begun := true, await := .event 46, since := some 0 }]),
  1, 0, { W.flight 17 255 0 0 (W.zeros.set 1 5) with begun := true, await := .event 46, since := some 0 }, 0, by
  decide +kernel⟩

theorem witness_DescriptorsOfTheModule_36 : ∃ (s : State) (f : Func) (k : Nat) (x : Flight) (sent : Nat) (n i : Slice) (w0
w1 : Word), ((s.fnOf f).flights[k]? = some x) ∧ ((s.fnOf f).flights.findIdx? (fun y => y.pos == x.pos) = some k) ∧ (x.begun
= true) ∧ (x.await = .read [] sent) ∧ (8 ≤ sent) ∧ (x.d.op = 0x10) ∧ (x.d.slice = n) ∧ (x.d.op32 0 = 1) ∧ (s.mode = mdHil)
∧ (w1.toNat / 65536 = i) ∧ ((s.hilOf n i).feed.length < 16) :=
  ⟨(W.fn [{ W.flight 16 0 0 0x1000 (W.zeros.set 0 1) with begun := true, await := .read [] 8 }]).setF R.DEV_MODE
  F.DEV_MODE_MODE mdHil, 1, 0, { W.flight 16 0 0 0x1000 (W.zeros.set 0 1) with begun := true, await := .read [] 8 }, 8, 0,
  2, 55, 0x20007, by decide +kernel⟩

theorem witness_DescriptorsOfTheModule_37 : ∃ (s : State) (f : Func) (k : Nat) (x : Flight) (sent : Nat) (n i : Slice) (w0
w1 : Word), ((s.fnOf f).flights[k]? = some x) ∧ ((s.fnOf f).flights.findIdx? (fun y => y.pos == x.pos) = some k) ∧ (x.begun
= true) ∧ (x.await = .read [] sent) ∧ (8 ≤ sent) ∧ (x.d.op = 0x10) ∧ (x.d.slice = n) ∧ (x.d.op32 0 = 1) ∧ (s.mode = mdHil)
∧ (w1.toNat / 65536 = i) ∧ (16 ≤ (s.hilOf n i).feed.length) :=
  ⟨((W.fn [{ W.flight 16 0 0 0x1000 (W.zeros.set 0 1) with begun := true, await := .read [] 8 }]).setF R.DEV_MODE
  F.DEV_MODE_MODE mdHil).setHil 0 2 { (W.up.hilOf 0 2) with feed := List.replicate 16 ⟨0, 0, 0⟩ }, 1, 0,
  { W.flight 16 0 0 0x1000 (W.zeros.set 0 1) with begun := true, await := .read [] 8 }, 8, 0, 2, 55, 0x20007, by
  decide +kernel⟩

theorem witness_DescriptorsOfTheModule_38 : ∃ (s : State) (f : Func) (k : Nat) (x : Flight) (sent : Nat) (n : Slice) (w0 w1
: Word), ((s.fnOf f).flights[k]? = some x) ∧ ((s.fnOf f).flights.findIdx? (fun y => y.pos == x.pos) = some k) ∧ (x.begun =
true) ∧ (x.await = .read [] sent) ∧ (8 ≤ sent) ∧ (x.d.op = 0x10) ∧ (x.d.slice = n) ∧ (x.d.op32 0 = 1) ∧ (s.mode ≠ mdHil ∨
12 ≤ w1.toNat / 65536) :=
  ⟨(W.fn [{ W.flight 16 0 0 0x1000 (W.zeros.set 0 1) with begun := true, await := .read [] 8 }]).setF R.DEV_MODE
  F.DEV_MODE_MODE mdHil, 1, 0, { W.flight 16 0 0 0x1000 (W.zeros.set 0 1) with begun := true, await := .read [] 8 }, 8, 0,
  55, 0xC0007, by decide +kernel⟩

theorem witness_DescriptorsOfTheModule_39 : ∃ (s : State) (f : Func) (k : Nat) (x : Flight) (sent : Nat) (n : Slice) (ws :
List Word) (v : MWord), ((s.fnOf f).flights[k]? = some x) ∧ ((s.fnOf f).flights.findIdx? (fun y => y.pos == x.pos) = some
k) ∧ (x.begun = true) ∧ (x.await = .read [] sent) ∧ (32 ≤ sent) ∧ (x.d.op = 0x0B) ∧ (x.d.slice = n) ∧ (x.d.op32 1 = 1) ∧
(x.d.op32 0 < 0x1000) ∧ (ws.length = 8) ∧ (mwordsOf ws = [v]) ∧ (s.slState n = slFenced) ∧ ((s.setLdOpen n true).loadCheck
n (x.d.op32 0) v = 0) :=
  ⟨(W.fn
  [{ W.flight 11 0 0 0x1000 #v[0x800, 1, 0, 0, 0, 0, 0, 0, 0, 0, 0, 0] with begun := true, await := .read [] 32 }]).setSl 0
  slFenced, 1, 0,
  { W.flight 11 0 0 0x1000 #v[0x800, 1, 0, 0, 0, 0, 0, 0, 0, 0, 0, 0] with begun := true, await := .read [] 32 }, 32, 0,
  [0, 0, 0, 0, 0, 0, 0, 0], 0, by decide +kernel⟩

theorem witness_DescriptorsOfTheModule_40 : ∃ (s : State) (f : Func) (k : Nat) (x : Flight) (got ws : List Word) (sent :
Nat), ((s.fnOf f).flights[k]? = some x) ∧ ((s.fnOf f).flights.findIdx? (fun y => y.pos == x.pos) = some k) ∧ (x.begun =
true) ∧ (x.await = .read got sent) ∧ (ws ≠ []) ∧ (4 * (got ++ ws).length ≤ sent) ∧ (4 * (got ++ ws).length < descBytes x.d)
:=
  ⟨W.fn [{ W.flight 16 0 0 0x1000 (W.zeros.set 0 1) with begun := true, await := .read [] 8 }], 1, 0,
  { W.flight 16 0 0 0x1000 (W.zeros.set 0 1) with begun := true, await := .read [] 8 }, [], [5], 8, by decide +kernel⟩

theorem witness_DescriptorsOfTheModule_41 : ∃ (s : State) (f : Func) (k : Nat) (x : Flight) (ws : List Word), ((s.fnOf
f).flights[k]? = some x) ∧ ((s.fnOf f).cause = 0) ∧ (x.awaits ws = false) :=
  ⟨W.fn [{ W.flight 16 0 0 0x1000 (W.zeros.set 0 1) with begun := true, await := .read [] 8 }], 1, 0,
  { W.flight 16 0 0 0x1000 (W.zeros.set 0 1) with begun := true, await := .read [] 8 }, [5, 6, 7], by decide +kernel⟩

theorem witness_DescriptorsOfTheModule_42 : ∃ (s : State) (f : Func) (k : Nat) (x : Flight) (ws : List Word), ((s.fnOf
f).flights[k]? = some x) ∧ ((s.fnOf f).cause ≠ 0) ∧ (x.await = .nothing) ∧ ((s.fnOf f).late ≠ 0) :=
  ⟨let s0 := W.fn [{ W.flight 16 0 0 0x1000 (W.zeros.set 0 1) with begun := true }]; s0.setFn 1
  { s0.fnOf 1 with late := 2, cause := 1 }, 1, 0, { W.flight 16 0 0 0x1000 (W.zeros.set 0 1) with begun := true }, [5], by
  decide +kernel⟩

theorem witness_DescriptorsOfTheModule_43 : ∃ (s : State) (k : Nat) (x : Flight) (ws : List Word), ((s.fnOf 0).flights[k]?
= some x) ∧ (x.d.op = 0x0C) ∧ (x.begun = true) ∧ (x.await = .page ws) ∧ (s.flashWaits x.d = true) :=
  ⟨(W.pf0 [{ W.flight 12 255 0 0x1000 (W.zeros.set 0 2) with begun := true, await := .page [] }]).setFlc
  { resetFlc with run := some ⟨.erase, 0, 3, false, none⟩ }, 0,
  { W.flight 12 255 0 0x1000 (W.zeros.set 0 2) with begun := true, await := .page [] }, [], by decide +kernel⟩

theorem witness_DescriptorsOfTheModule_44 : ∃ (s : State) (k : Nat) (x : Flight) (ws : List Word) (arr blk : Nat), ((s.fnOf
0).flights[k]? = some x) ∧ ((s.fnOf 0).flights.findIdx? (fun y => y.pos == x.pos) = some k) ∧ (x.d.op = 0x0C) ∧ (x.d.op32 0
% 16 = 2) ∧ (x.begun = true) ∧ (x.await = .page ws) ∧ (arr = F.FLC_BSEL_ARRAY.get (x.d.p.get 1)) ∧ (blk =
F.FLC_BSEL_BLOCK.get (x.d.p.get 1)) ∧ (s.flc.run = none) ∧ (s.flcBars arr blk (some (selOf (x.d.p.get 1)).page) = 0) :=
  ⟨W.pf0
  [{ W.flight 12 255 0 0x1000 (#v[2, F.FLC_BSEL_ARRAY.word 1 ||| F.FLC_BSEL_BLOCK.word 3, 0, 0, 0, 0, 0, 0, 0, 0, 0, 0]) with begun := true, await := .page [1] }],
  0,
  { W.flight 12 255 0 0x1000 #v[2, F.FLC_BSEL_ARRAY.word 1 ||| F.FLC_BSEL_BLOCK.word 3, 0, 0, 0, 0, 0, 0, 0, 0, 0, 0] with begun := true, await := .page [1] },
  [1], 1, 3, by decide +kernel⟩

theorem witness_DescriptorsOfTheModule_45 : ∃ (s : State) (f : Func) (k : Nat) (x : Flight) (why : ReqFail), ((s.fnOf
f).flights[k]? = some x) ∧ (x.requests (s.maxRead f) ≠ 0) :=
  ⟨W.fn [{ W.flight 16 0 0 0x1000 (W.zeros.set 0 1) with begun := true, await := .read [] 8 }], 1, 0,
  { W.flight 16 0 0 0x1000 (W.zeros.set 0 1) with begun := true, await := .read [] 8 }, .abort, by decide +kernel⟩

theorem witness_DescriptorsOfTheModule_46 : ∃ (s : State) (f : Func) (r : Fin 8) (why : ReqFail), ((s.fnOf f).asked.get r =
true) ∧ (s.quiescing f = false) :=
  ⟨let s0 := W.fn []; s0.setFn 1 { s0.fnOf 1 with asked := (s0.fnOf 1).asked.set 2 true }, 1, 2, .unsupported, by
  decide +kernel⟩

theorem witness_DescriptorsOfTheModule_47 : ∃ (s : State) (f : Func) (why : ReqFail), ((s.fnOf f).late ≠ 0) :=
  ⟨let s0 := W.fn []; s0.setFn 1 { s0.fnOf 1 with late := 2 }, 1, .timeout, by decide +kernel⟩

theorem witness_LinkAndFunctions_1 : ∃ (s : State) (width : Fin 4) (speed : Fin 5) (w m : Nat), (s.isSet R.HIF_LINK
F.HIF_LINK_UP = false) ∧ (s.mode ≠ mdStart) ∧ (s.mode ≠ mdStabled) ∧ (s.clockOn 3 = true) ∧ (w = (if width = 0 then 1 else
if width = 1 then 4 else if width = 2 then 8 else 16)) ∧ (m = (if s.part = .esk7208 then 8 else 16)) ∧ (w ≤ m) ∧
(s.evtDelay 1008 = 0) ∧ (s.evtDelay 1010 = 0) :=
  ⟨W.up.setReg R.HIF_LINK 0, 2, 4, 8, 16, by decide +kernel⟩

theorem witness_LinkAndFunctions_2 : ∃ (s : State) (width : Fin 4) (speed : Fin 5), (s.isSet R.HIF_LINK F.HIF_LINK_UP =
true ∨ s.mode = mdStart ∨ s.mode = mdStabled ∨ (width = 3 ∧ s.part = .esk7208) ∨ s.clockOn 3 = false) :=
  ⟨W.up, 3, 4, by decide +kernel⟩

theorem witness_LinkAndFunctions_3 : ∃ (s : State) (g : Func), (s.isSet R.HIF_LINK F.HIF_LINK_UP = true) ∧ ((s.fnEn g =
true ∧ s.quiescing g = false) ∨ (s.quiescing g = true ∧ (s.fnOf g).cause = 0)) ∧ (s.fnEn g = true) :=
  ⟨(W.fn []), 1, by decide +kernel⟩

theorem witness_LinkAndFunctions_4 : ∃ (s : State) (g : Func), (s.isSet R.HIF_LINK F.HIF_LINK_UP = true) ∧ (s.fnEn g =
false) ∧ (s.quiescing g = false) :=
  ⟨W.up, 1, by decide +kernel⟩

theorem witness_LinkAndFunctions_5 : ∃ (s : State), (s.isSet R.HIF_LINK F.HIF_LINK_UP = false) :=
  ⟨W.up.setReg R.HIF_LINK 0, by decide +kernel⟩

theorem witness_LinkAndFunctions_6 : ∃ (s : State) (g : Func), ((s.fnEn g = true ∧ s.quiescing g = false) ∨ (s.quiescing g
= true ∧ (s.fnOf g).cause = 0)) ∧ (s.cfgUp g = true) :=
  ⟨(W.fn []), 1, by decide +kernel⟩

theorem witness_LinkAndFunctions_7 : ∃ (s : State) (g : Func), (s.cfgUp g = true) ∧ (g.val ≠ 0) ∧ (s.quiescing g = true) ∧
((s.fnOf g).cause ≠ 0) :=
  ⟨((W.abt []).setF (R.HIF_FN_STAT 1) F.HIF_FN_STAT_EN 1), 1, by decide +kernel⟩

theorem witness_LinkAndFunctions_8 : ∃ (s : State) (g : Func), (s.cfgUp g = true) ∧ (s.fnEn g = false) ∧ (s.quiescing g =
false) :=
  ⟨({ W.up with vfEnable := true, numVfs := 3 } : State), 1, by decide +kernel⟩

theorem witness_LinkAndFunctions_9 : ∃ (s : State) (g : Func), ((s.fnEn g = true ∧ s.quiescing g = false) ∨ (s.quiescing g
= true ∧ (s.fnOf g).cause = 0)) ∧ (s.cfgUp g = true) ∧ ((s.fnOf g).bme = true) :=
  ⟨(W.fn []), 1, by decide +kernel⟩

theorem witness_LinkAndFunctions_10 : ∃ (s : State) (g : Func), (s.cfgUp g = true) ∧ ((s.fnOf g).bme = true) ∧ (s.quiescing
g = true) ∧ ((s.fnOf g).cause ≠ 0) :=
  ⟨((W.abt []).setF (R.HIF_FN_STAT 1) F.HIF_FN_STAT_EN 1), 1, by decide +kernel⟩

theorem witness_LinkAndFunctions_11 : ∃ (s : State) (g : Func), (s.cfgUp g = true) ∧ ((s.fnOf g).bme = true) ∧ (s.fnEn g =
false) ∧ (s.quiescing g = false) :=
  ⟨({ W.up with vfEnable := true, numVfs := 3 } : State).setFn 1 { (W.up.fnOf 1) with bme := true }, 1, by decide +kernel⟩

theorem witness_LinkAndFunctions_12 : ∃ (s : State) (g : Func), (s.cfgUp g = false ∨ (s.fnOf g).bme = false) :=
  ⟨({ W.up with vfEnable := true, numVfs := 3 } : State), 1, by decide +kernel⟩

theorem witness_LinkAndFunctions_13 : ∃ (s : State) (g : Func), ((s.fnEn g = true ∧ s.quiescing g = false) ∨ (s.quiescing g
= true ∧ (s.fnOf g).cause = 0)) ∧ (s.cfgUp g = true) ∧ ((s.fnOf g).d3hot = false) :=
  ⟨(W.fn []), 1, by decide +kernel⟩

theorem witness_LinkAndFunctions_14 : ∃ (s : State) (g : Func), (s.cfgUp g = true) ∧ ((s.fnOf g).d3hot = false) ∧
(s.quiescing g = true) ∧ ((s.fnOf g).cause ≠ 0) :=
  ⟨((W.abt []).setF (R.HIF_FN_STAT 1) F.HIF_FN_STAT_EN 1), 1, by decide +kernel⟩

theorem witness_LinkAndFunctions_15 : ∃ (s : State) (g : Func), (s.cfgUp g = true) ∧ ((s.fnOf g).d3hot = false) ∧ (s.fnEn g
= false) ∧ (s.quiescing g = false) :=
  ⟨({ W.up with vfEnable := true, numVfs := 3 } : State), 1, by decide +kernel⟩

theorem witness_LinkAndFunctions_16 : ∃ (s : State) (g : Func), (s.cfgUp g = false ∨ (s.fnOf g).d3hot = true) :=
  ⟨W.up.setReg R.HIF_LINK 0, 1, by decide +kernel⟩

theorem witness_LinkAndFunctions_17 : ∃ (s : State) (en : Bool) (g num : Func), ((s.fnEn g = true ∧ s.quiescing g = false)
∨ (s.quiescing g = true ∧ (s.fnOf g).cause = 0)) ∧ (s.isSet R.HIF_LINK F.HIF_LINK_UP = true) ∧ (g.val ≠ 0) ∧ (s.vfExists g
= true) ∧ (en = false ∨ num.val < g.val) :=
  ⟨(W.fn []), false, 1, 0, by decide +kernel⟩

theorem witness_LinkAndFunctions_18 : ∃ (s : State) (en : Bool) (g num : Func), (s.isSet R.HIF_LINK F.HIF_LINK_UP = true) ∧
(g.val ≠ 0) ∧ (s.vfExists g = true) ∧ (en = false ∨ num.val < g.val) ∧ (s.fnEn g = false) ∧ (s.quiescing g = false) :=
  ⟨({ W.up with vfEnable := true, numVfs := 3 } : State), true, 3, 2, by decide +kernel⟩

theorem witness_LinkAndFunctions_19 : ∃ (s : State) (en : Bool) (g num : Func), (s.isSet R.HIF_LINK F.HIF_LINK_UP = true) ∧
(g.val = 0 ∨ s.vfExists g = false ∨ (en = true ∧ g.val ≤ num.val)) :=
  ⟨W.fn [], true, 1, 2, by decide +kernel⟩

theorem witness_LinkAndFunctions_20 : ∃ (s : State) (f : Func), (s.isSet R.HIF_LINK F.HIF_LINK_UP = true) ∧ (s.fnExists f =
true) ∧ (∀ r : Fin 1088, (s.route r).st ≠ .pending) :=
  ⟨(W.fn []), 2, by decide +kernel⟩

theorem witness_LinkAndFunctions_21 : ∃ (s : State) (num : Func), (s.isSet R.HIF_LINK F.HIF_LINK_UP = true) ∧ (s.vfEnable =
false) :=
  ⟨{ W.up with vfEnable := false, numVfs := 0 }, 4, by decide +kernel⟩

theorem witness_LinkAndFunctions_22 : ∃ (s : State) (f : Func) (en mask : Bool), (s.isSet R.HIF_LINK F.HIF_LINK_UP = true)
∧ (s.fnExists f = true) ∧ ((s.fnOf f).vpend = []) ∧ (∀ r : Fin 1088, (s.route r).st ≠ .pending) :=
  ⟨(W.fn []), 2, true, false, by decide +kernel⟩

theorem witness_LinkAndFunctions_23 : ∃ (s : State) (f : Func) (v : Fin 128), (s.fnReach f = true) ∧ (s.fnExists f = true)
∧ ((s.fnOf f).vpend = [v.val]) ∧ ((s.fnOf f).vopen.contains v.val = true) ∧ (∀ r : Fin 1088, (s.route r).st ≠ .pending) :=
  ⟨(W.fn []).setFn 1 { (W.fn []).fnOf 1 with fmask := true, vopen := [5], vpend := [5] }, 1, 5, by decide +kernel⟩

theorem witness_LinkAndFunctions_24 : ∃ (s : State) (f : Func), (s.isSet R.HIF_LINK F.HIF_LINK_UP = true) ∧ (s.fnExists f =
true) :=
  ⟨(W.fn []), 2, by decide +kernel⟩

theorem witness_LinkAndFunctions_25 : ∃ (s : State) (f : Func) (k : Fin 6) (v : Word), (s.isSet R.HIF_LINK F.HIF_LINK_UP =
true) ∧ (s.fnExists f = true) :=
  ⟨(W.fn []), 2, 0, 0x12345678, by decide +kernel⟩

theorem witness_LinkAndFunctions_26 : ∃ (s : State) (f : Func) (mps mrrs : Fin 6) (tag : Bool), (s.isSet R.HIF_LINK
F.HIF_LINK_UP = true) ∧ (s.fnExists f = true) :=
  ⟨(W.fn []), 2, 2, 5, true, by decide +kernel⟩

theorem witness_LinkAndFunctions_27 : ∃ (s : State) (f : Func) (v : Word), (s.isSet R.HIF_LINK F.HIF_LINK_UP = true) ∧
(s.fnExists f = true) :=
  ⟨(W.fn []), 2, 0x4000, by decide +kernel⟩

theorem witness_LinkAndFunctions_28 : ∃ (s : State) (f : Func), (s.isSet R.HIF_LINK F.HIF_LINK_UP = true) ∧ (s.fnExists f =
true) :=
  ⟨(W.fn []), 2, by decide +kernel⟩

theorem witness_LinkAndFunctions_29 : ∃ (s : State) (f : Func), (s.isSet R.HIF_LINK F.HIF_LINK_UP = true) ∧ (s.fnExists f =
true) :=
  ⟨(W.fn []), 2, by decide +kernel⟩

theorem witness_LinkAndFunctions_30 : ∃ (s : State) (f : Func) (c : CfgSet), (s.cfgUp f = false) :=
  ⟨W.up.setReg R.HIF_LINK 0, 2, .busMaster, by decide +kernel⟩

theorem witness_LinkAndFunctions_31 : ∃ (s : State) (x : Access) (f : Func) (tw : Bool), (s.reaches x (R.RNG_CTRL f) =
true) ∧ (s.enableOk f = true) ∧ (s.quiescing f = false) ∧ (s.fnEn f = false) :=
  ⟨let s1 := { W.up with vfEnable := true, numVfs := 3 }; s1.setFn 1 { s1.fnOf 1 with bme := true }, ⟨.fn 1, false, false⟩,
  1, false, by decide +kernel⟩

theorem witness_LinkAndFunctions_32 : ∃ (s : State) (x : Access) (f : Func) (tw : Bool), (s.reaches x (R.RNG_CTRL f) =
true) ∧ (s.enableOk f = true) ∧ (s.quiescing f = true) :=
  ⟨(W.fn []).setF (R.RNG_CTRL 1) F.RNG_CTRL_QUIESCING 1, ⟨.fn 1, false, false⟩, 1, false, by decide +kernel⟩

theorem witness_LinkAndFunctions_33 : ∃ (s : State) (x : Access) (f : Func) (tw : Bool), (s.reaches x (R.RNG_CTRL f) =
true) ∧ (s.enableOk f = false) :=
  ⟨{ W.up with vfEnable := true, numVfs := 3 }, ⟨.fn 1, false, false⟩, 1, false, by decide +kernel⟩

theorem witness_LinkAndFunctions_34 : ∃ (s : State) (x : Access) (f : Func) (tw : Bool), (s.reaches x (R.RNG_CTRL f) =
true) ∧ (s.fnEn f = true) ∧ (s.quiescing f = false) ∧ ((s.fnOf f).inflight ≠ 0) :=
  ⟨W.fn [W.flight 0 255 0 0 W.zeros], ⟨.fn 1, false, false⟩, 1, false, by decide +kernel⟩

theorem witness_LinkAndFunctions_35 : ∃ (s : State) (x : Access) (f : Func) (tw : Bool) (n : Slice), (s.reaches x
(R.RNG_CTRL f) = true) ∧ (s.fnEn f = true) ∧ (s.quiescing f = false) ∧ ((s.fnOf f).inflight = 0) ∧ ((s.fnOf f).cause = 0) ∧
(s.fitted n = true) ∧ (s.owner n = f.val) ∧ (s.slState n = slFenced ∨ (s.slState n = slOff ∧ (s.ctlOf n).fencing = false))
:=
  ⟨(W.fn []).setSl 0 slFenced, ⟨.fn 1, false, false⟩, 1, false, 0, by decide +kernel⟩

theorem witness_LinkAndFunctions_36 : ∃ (s : State) (x : Access) (f : Func) (n : Slice), (s.reaches x (R.RNG_CTRL f) =
true) ∧ (s.fnEn f = true) ∧ (s.quiescing f = false) ∧ ((s.fnOf f).inflight = 0) ∧ ((s.fnOf f).cause = 0) ∧ (s.fitted n =
true) ∧ (s.owner n = f.val) ∧ (s.slState n = slRunning ∨ s.slState n = slReady) ∧ (s.fencePending n = false) :=
  ⟨W.fn [], ⟨.fn 1, false, false⟩, 1, 0, by decide +kernel⟩

theorem witness_LinkAndFunctions_37 : ∃ (s : State) (x : Access) (f : Func) (tw : Bool), (s.reaches x (R.RNG_CTRL f) =
true) ∧ (s.fnEn f = false ∨ s.quiescing f = true) :=
  ⟨{ W.up with vfEnable := true, numVfs := 3 }, ⟨.fn 1, false, false⟩, 1, true, by decide +kernel⟩

theorem witness_LinkAndFunctions_38 : ∃ (s : State) (g : Func), (s.quiescing g = true) ∧ ((s.fnOf g).cause = 0) ∧ ((s.fnOf
g).flights ≠ [] ∨ (s.fnOf g).done ≠ []) ∧ ((s.fnOf g).disAt + 1500000 ≤ s.clock) :=
  ⟨W.later 1500000 <| (W.fn [W.flight 0 255 0 0 W.zeros]).setF (R.RNG_CTRL 1) F.RNG_CTRL_QUIESCING 1, 1, by decide +kernel⟩

theorem witness_LinkAndFunctions_39 : ∃ (s : State) (g : Func), (s.quiescing g = false ∨ (s.fnOf g).cause ≠ 0 ∨ ((s.fnOf
g).flights = [] ∧ (s.fnOf g).done = []) ∨ s.clock < (s.fnOf g).disAt + 1500000) :=
  ⟨W.later 1499999 <| (W.fn [W.flight 0 255 0 0 W.zeros]).setF (R.RNG_CTRL 1) F.RNG_CTRL_QUIESCING 1, 1, by decide +kernel⟩

theorem witness_RingsAndDoorbells_1 : ∃ (s : State) (b g : Func) (r : Fin 8) (v : Word), (s.ptbActs 12 = false) ∧ (s.busUp
(.fn b) = true) ∧ (s.isSet R.DEV_BOOT_STAT F.DEV_BOOT_STAT_DONE = true) ∧ (s.fnExists b = true) ∧ (s.fnExists g = true) ∧
(b = g ∨ b = 0) ∧ (s.fnEn g = true) ∧ (s.enPending g = false) ∧ (s.sqOn g r = true) ∧ (v.toNat < s.sqDepth g r) :=
  ⟨((W.fn []).setF (R.RNG_SQ_CFG 1 2) F.RNG_SQ_CFG_EN 1).setF (R.RNG_SQ_CFG 1 2) F.RNG_SQ_CFG_LOG2DEPTH 4, 1, 1, 2, 3, by
  decide +kernel⟩

theorem witness_RingsAndDoorbells_2 : ∃ (s : State) (b g : Func) (r : Fin 8) (v : Word), (s.ptbActs 12 = false) ∧ (s.busUp
(.fn b) = true) ∧ (s.isSet R.DEV_BOOT_STAT F.DEV_BOOT_STAT_DONE = true) ∧ (s.fnExists b = true) ∧ (s.fnExists g = true) ∧
(b = g ∨ b = 0) ∧ ((s.fnOf b).stopped = false) ∧ (s.fnEn g = true) ∧ (s.enPending g = false) ∧ (s.sqOn g r = true) ∧
(s.sqDepth g r ≤ v.toNat) :=
  ⟨((W.fn []).setF (R.RNG_SQ_CFG 1 2) F.RNG_SQ_CFG_EN 1).setF (R.RNG_SQ_CFG 1 2) F.RNG_SQ_CFG_LOG2DEPTH 4, 0, 1, 2, 16, by
  decide +kernel⟩

theorem witness_RingsAndDoorbells_3 : ∃ (s : State) (b g : Func) (r : Fin 8) (v : Word), (s.ptbActs 12 = false) ∧ (s.busUp
(.fn b) = true) ∧ (s.isSet R.DEV_BOOT_STAT F.DEV_BOOT_STAT_DONE = true) ∧ (s.fnExists b = true) ∧ (s.fnExists g = true) ∧
(b = g ∨ b = 0) ∧ (s.fnEn g = false) :=
  ⟨({ W.up with vfEnable := true, numVfs := 3 } : State), 1, 1, 2, 3, by decide +kernel⟩

theorem witness_RingsAndDoorbells_4 : ∃ (s : State) (b g : Func) (r : Fin 8) (v : Word), (s.ptbActs 12 = false) ∧ (s.busUp
(.fn b) = true) ∧ (s.isSet R.DEV_BOOT_STAT F.DEV_BOOT_STAT_DONE = true) ∧ (s.fnExists b = true) ∧ (s.fnExists g = true) ∧
(b ≠ g) ∧ (b ≠ 0) ∧ ((s.fnOf b).stopped = false) :=
  ⟨((W.fn []).setF (R.RNG_SQ_CFG 1 2) F.RNG_SQ_CFG_EN 1).setF (R.RNG_SQ_CFG 1 2) F.RNG_SQ_CFG_LOG2DEPTH 4, 2, 1, 2, 3, by
  decide +kernel⟩

theorem witness_RingsAndDoorbells_5 : ∃ (s : State) (b g : Func) (q : Fin 8) (v : Word) (d h : Nat), (s.ptbActs 12 = false)
∧ (s.busUp (.fn b) = true) ∧ (s.isSet R.DEV_BOOT_STAT F.DEV_BOOT_STAT_DONE = true) ∧ (s.fnExists b = true) ∧ (s.fnExists g
= true) ∧ (b = g ∨ b = 0) ∧ (s.fnEn g = true) ∧ (s.enPending g = false) ∧ (s.cqOn g q = true) ∧ (d = s.cqDepth g q) ∧
(v.toNat < d) ∧ (h = s.getF (R.RNG_CQ_TAIL g q) F.RNG_CQ_TAIL_HEAD) :=
  ⟨(((W.fn []).setF (R.RNG_CQ_CFG 1 2) F.RNG_CQ_CFG_EN 1).setF (R.RNG_CQ_CFG 1 2) F.RNG_CQ_CFG_LOG2DEPTH 4), 1, 1, 2, 3,
  16, 0, by decide +kernel⟩

theorem witness_RingsAndDoorbells_6 : ∃ (s : State) (b g : Func) (v : Word), (s.ptbActs 12 = false) ∧ (s.busUp (.fn b) =
true) ∧ (s.isSet R.DEV_BOOT_STAT F.DEV_BOOT_STAT_DONE = true) ∧ (s.fnExists b = true) ∧ (s.fnExists g = true) ∧ (b = g ∨ b
= 0) ∧ (s.fnEn g = true) ∧ (s.enPending g = false) ∧ (s.isSet (R.RNG_EDGE_CFG g) F.RNG_EDGE_CFG_EN = true) ∧ (v.toNat < 2 ^
s.getF (R.RNG_EDGE_CFG g) F.RNG_EDGE_CFG_LOG2LEN) :=
  ⟨((W.fn []).setF (R.RNG_EDGE_CFG 1) F.RNG_EDGE_CFG_EN 1).setF (R.RNG_EDGE_CFG 1) F.RNG_EDGE_CFG_LOG2LEN 8, 1, 1, 200, by
  decide +kernel⟩

theorem witness_RingsAndDoorbells_7 : ∃ (s : State) (b g : Func) (v : Word), (s.ptbActs 12 = false) ∧ (s.busUp (.fn b) =
true) ∧ (s.isSet R.DEV_BOOT_STAT F.DEV_BOOT_STAT_DONE = true) ∧ (s.fnExists b = true) ∧ (s.fnExists g = true) ∧ (b = g ∨ b
= 0) ∧ (s.fnEn g = true) ∧ (s.enPending g = false) ∧ (s.quiescing g = false) ∧ (v.toNat / 65536 = 0xAB07) :=
  ⟨(W.fn []), 1, 1, 0xAB070000, by decide +kernel⟩

theorem witness_RingsAndDoorbells_8 : ∃ (s : State) (b g : Func) (v : Word), (s.ptbActs 12 = false) ∧ (s.busUp (.fn b) =
true) ∧ (s.isSet R.DEV_BOOT_STAT F.DEV_BOOT_STAT_DONE = true) ∧ (s.fnExists b = true) ∧ (s.fnExists g = true) ∧ (b = g ∨ b
= 0) ∧ (s.fnEn g = true) ∧ (v.toNat / 65536 ≠ 0xAB07) :=
  ⟨(W.fn []), 1, 1, 0, by decide +kernel⟩

theorem witness_RingsAndDoorbells_9 : ∃ (s : State) (g : Func), (s.quiescing g = true) ∧ (s.ownedBy g = 0) ∧ ((s.fnOf
g).cause ≠ 0) ∧ ((s.fnOf g).cause < 8) ∧ ((s.fnOf g).cause ≠ 2) ∧ ((s.fnOf g).flights = []) ∧ ((s.fnOf g).done = []) ∧
(s.enPending g = false) :=
  ⟨W.abt [], 1, by decide +kernel⟩

theorem witness_RingsAndDoorbells_10 : ∃ (s : State) (g : Func) (x : Flight), (s.quiescing g = true) ∧ (s.ownedBy g = 0) ∧
((s.fnOf g).cause ≠ 0) ∧ ((s.fnOf g).cause ≠ 2) ∧ ((s.fnOf g).flights = [x]) ∧ ((s.fnOf g).done = []) ∧ (s.enPending g =
false) ∧ (s.cqTakes g (s.cqOf g x.sq) = false) :=
  ⟨W.abt [W.flight 0 255 0 0 W.zeros], 1, (W.flight 0 255 0 0 W.zeros), by decide +kernel⟩

theorem witness_RingsAndDoorbells_11 : ∃ (s : State) (g : Func), ((s.fnOf g).late ≠ 0) :=
  ⟨let s0 := W.fn []; s0.setFn 1 { s0.fnOf 1 with late := 2 }, 1, by decide +kernel⟩

theorem witness_RingsAndDoorbells_12 : ∃ (s : State) (g : Func) (r : Fin 8) (w : Vector Word 16) (h : Nat), ((s.fnOf
g).asked.get r = true) ∧ (h = s.getF (R.RNG_SQ_HEAD g r) F.RNG_SQ_HEAD_HEAD) ∧ ((descOf w).op < 0x12) ∧ (∀ y ∈ (s.fnOf
g).flights, y.d.op < 0x12) :=
  ⟨let s0 := ((((W.fn []).setF (R.RNG_SQ_CFG 1 2) F.RNG_SQ_CFG_EN 1).setF (R.RNG_SQ_CFG 1 2) F.RNG_SQ_CFG_LOG2DEPTH 4).setF
  (R.RNG_SQ_HEAD 1 2) F.RNG_SQ_HEAD_TAIL 3); s0.setFn 1 { s0.fnOf 1 with asked := (s0.fnOf 1).asked.set 2 true }, 1, 2,
  Vector.replicate 16 0, 0, by decide +kernel⟩

theorem witness_RingsAndDoorbells_13 : ∃ (s : State) (g : Func) (r : Fin 8) (w : Vector Word 16), ((s.fnOf g).asked.get r =
false) :=
  ⟨((W.fn []).setF (R.RNG_SQ_CFG 1 2) F.RNG_SQ_CFG_EN 1).setF (R.RNG_SQ_CFG 1 2) F.RNG_SQ_CFG_LOG2DEPTH 4, 1, 2,
  Vector.replicate 16 0, by decide +kernel⟩

theorem witness_RingsAndDoorbells_15 : ∃ (s : State) (g : Func) (q : Fin 8) (c : Compl) (l : List Compl) (n ph : Nat),
((s.fnOf g).done = c :: l) ∧ (s.cqOf g c.sq = q) ∧ (s.cqTakes g q = true) ∧ ((s.fnOf g).cause = 0) ∧ (s.quiescing g =
false) ∧ ((s.fnOf g).flights = []) ∧ (n = s.getF (R.RNG_CQ_TAIL g q) F.RNG_CQ_TAIL_TAIL) ∧ (ph = s.getF (R.RNG_CQ_TAIL g q)
F.RNG_CQ_TAIL_PHASE) ∧ (n + 1 < s.cqDepth g q) ∧ (c.sq < 8) ∧ (c.ptb = false) ∧ ((if c.slice < 12 then s.ptbFlag c.slice
else s.ptbActive 12) = false) ∧ (c.notify = false ∨ s.isSet (R.RNG_CQ_CFG g q) F.RNG_CQ_CFG_IRQ_EN = false) :=
  ⟨W.compl 0 ⟨0, 2, 255, 1, 0, 0, false, false, false⟩, 1, 2, ⟨0, 2, 255, 1, 0, 0, false, false, false⟩, [], 0, 0, by
  decide +kernel⟩

theorem witness_RingsAndDoorbells_16 : ∃ (s : State) (g : Func) (q : Fin 8) (c : Compl) (l : List Compl) (n ph : Nat),
((s.fnOf g).done = c :: l) ∧ (s.cqOf g c.sq = q) ∧ (s.cqTakes g q = true) ∧ ((s.fnOf g).cause = 0) ∧ (s.quiescing g =
false) ∧ ((s.fnOf g).flights = []) ∧ (n = s.getF (R.RNG_CQ_TAIL g q) F.RNG_CQ_TAIL_TAIL) ∧ (ph = s.getF (R.RNG_CQ_TAIL g q)
F.RNG_CQ_TAIL_PHASE) ∧ (n + 1 = s.cqDepth g q) ∧ (c.sq < 8) ∧ (c.ptb = false) ∧ ((if c.slice < 12 then s.ptbFlag c.slice
else s.ptbActive 12) = false) ∧ (c.notify = false ∨ s.isSet (R.RNG_CQ_CFG g q) F.RNG_CQ_CFG_IRQ_EN = false) :=
  ⟨W.compl 15 ⟨0, 2, 255, 1, 0, 0, false, false, false⟩, 1, 2, ⟨0, 2, 255, 1, 0, 0, false, false, false⟩, [], 15, 0, by
  decide +kernel⟩

theorem witness_RingsAndDoorbells_17 : ∃ (s : State) (g : Func) (q : Fin 8) (c : Compl) (l : List Compl) (n ph : Nat) (v :
Nat), ((s.fnOf g).done = c :: l) ∧ (s.cqOf g c.sq = q) ∧ (s.cqTakes g q = true) ∧ ((s.fnOf g).cause = 0) ∧ (s.quiescing g =
false) ∧ ((s.fnOf g).flights = []) ∧ (n = s.getF (R.RNG_CQ_TAIL g q) F.RNG_CQ_TAIL_TAIL) ∧ (ph = s.getF (R.RNG_CQ_TAIL g q)
F.RNG_CQ_TAIL_PHASE) ∧ (n + 1 < s.cqDepth g q) ∧ (c.sq < 8) ∧ (c.ptb = false) ∧ ((if c.slice < 12 then s.ptbFlag c.slice
else s.ptbActive 12) = false) ∧ (c.notify = true) ∧ (s.isSet (R.RNG_CQ_CFG g q) F.RNG_CQ_CFG_IRQ_EN = true) ∧ (v = s.getF
(R.RNG_CQ_CFG g q) F.RNG_CQ_CFG_VECTOR) ∧ ((s.fnOf g).msixEn = true) ∧ ((s.fnOf g).fmask = false) ∧ ((s.fnOf
g).vopen.contains v = true) :=
  ⟨W.compl 0 ⟨0, 2, 255, 1, 0, 0, true, false, false⟩, 1, 2, ⟨0, 2, 255, 1, 0, 0, true, false, false⟩, [], 0, 0, 0, by
  decide +kernel⟩

theorem witness_RingsAndDoorbells_18 : ∃ (s : State) (f : Func) (w : HostWindow) (off : BitVec 28) (v : Word) (a : Nat), (a
= windowAddr w off) ∧ (s.busUp (.fn f) = true) ∧ (s.early (.fn f) a true = false) ∧ ((s.fnOf f).stopped = false ∨ inMain a
= true) ∧ (s.memStalls a = false) ∧ (s.hostReaches f a = true) ∧ (s.absentSlice a = false) ∧ (s.absentMain a = false) ∧
(inMain a = true → s.pageSet a = true) ∧ (s.mark a = none) ∧ ((s.cell a).tag ≠ tagCap) ∧ ((s.cell a).tag ≠ tagEmpty) :=
  ⟨(W.fn []).setCell 0x02080010 ⟨9, tagInt⟩, 1, .slice 0, 0x10, 0x11223377, 0x02080010, by decide +kernel⟩

theorem witness_RingsAndDoorbells_19 : ∃ (s : State) (f : Func) (w : HostWindow) (off : BitVec 28) (v : Word) (a : Nat), (a
= windowAddr w off) ∧ (s.busUp (.fn f) = true) ∧ (s.early (.fn f) a true = false) ∧ ((s.fnOf f).stopped = false ∨ inMain a
= true) ∧ (s.memStalls a = false) ∧ (s.hostReaches f a = true) ∧ (s.absentSlice a = false) ∧ (s.absentMain a = false) ∧
(inMain a = true → s.pageSet a = true) ∧ (s.mark a = none) ∧ ((s.cell a).tag = tagEmpty) :=
  ⟨W.fn [], 1, .slice 0, 0x10, 0x11223377, 0x02080010, by decide +kernel⟩

theorem witness_RingsAndDoorbells_20 : ∃ (s : State) (f : Func) (w : HostWindow) (off : BitVec 28) (v : Word) (a : Nat), (a
= windowAddr w off) ∧ (s.busUp (.fn f) = true) ∧ (s.early (.fn f) a true = false) ∧ ((s.fnOf f).stopped = false ∨ inMain a
= true) ∧ (s.memStalls a = false) ∧ (s.hostReaches f a = true) ∧ (s.absentSlice a = false) ∧ (s.absentMain a = false) ∧
(inMain a = true → s.pageSet a = true) ∧ (s.mark a = none) ∧ ((s.cell a).tag = tagCap) :=
  ⟨(W.fn []).setCell 0x02080010 ⟨9, tagCap⟩, 1, .slice 0, 0x10, 0x11223377, 0x02080010, by decide +kernel⟩

theorem witness_RingsAndDoorbells_21 : ∃ (s : State) (f : Func) (w : HostWindow) (off : BitVec 28) (be : BitVec 4) (v :
Word) (a : Nat), (a = windowAddr w off) ∧ (s.busUp (.fn f) = true) ∧ (s.early (.fn f) a true = false) ∧ ((s.fnOf f).stopped
= false ∨ inMain a = true) ∧ (s.memStalls a = false) ∧ (s.hostReaches f a = true) ∧ (s.absentSlice a = false) ∧
(s.absentMain a = false) ∧ (inMain a = true → s.pageSet a = true) ∧ (s.mark a = none) ∧ (be ≠ 0) ∧ (be ≠ 15) ∧ ((s.cell
a).tag = tagInt ∨ (s.cell a).tag = tagUint) :=
  ⟨(W.fn []).setCell 0x02080010 ⟨9, tagInt⟩, 1, .slice 0, 0x10, 3, 0x11223377, 0x02080010, by decide +kernel⟩

theorem witness_RingsAndDoorbells_22 : ∃ (s : State) (f : Func) (w : HostWindow) (off : BitVec 28) (be : BitVec 4) (v :
Word) (a : Nat), (a = windowAddr w off) ∧ (s.busUp (.fn f) = true) ∧ (s.early (.fn f) a true = false) ∧ ((s.fnOf f).stopped
= false ∨ inMain a = true) ∧ (s.memStalls a = false) ∧ (s.hostReaches f a = true) ∧ (s.absentSlice a = false) ∧
(s.absentMain a = false) ∧ (inMain a = true → s.pageSet a = true) ∧ (s.mark a = none) ∧ (be ≠ 0) ∧ (be ≠ 15) ∧ ((s.cell
a).tag ≠ tagInt) ∧ ((s.cell a).tag ≠ tagUint) :=
  ⟨(W.fn []).setCell 0x02080010 ⟨9, tagQ31⟩, 1, .slice 0, 0x10, 3, 0x11223377, 0x02080010, by decide +kernel⟩

theorem witness_RingsAndDoorbells_23 : ∃ (s : State) (f : Func) (w : HostWindow) (off : BitVec 28) (be : BitVec 4) (v :
Word) (a : Nat), (a = windowAddr w off) ∧ (s.busUp (.fn f) = true) ∧ (s.early (.fn f) a true = false) ∧ ((s.fnOf f).stopped
= false ∨ inMain a = true) ∧ (s.memStalls a = false) ∧ (s.hostReaches f a = false) :=
  ⟨W.fn [], 1, .main, 0x10, 15, 77, 0x10000010, by decide +kernel⟩

theorem witness_PasswayFrames_1 : ∃ (s : State) (x : RawFrame), (x.port.val < 2) ∧ (s.portUp x.port = true) ∧ (frameBad
x.bytes = true) :=
  ⟨W.pwy, ⟨1, [0x30, 4, 5, 1]⟩, by decide +kernel⟩

theorem witness_PasswayFrames_2 : ∃ (s : State) (x : RawFrame), (2 ≤ x.port.val) ∧ (natBit (s.getF R.TWN_STAT
F.TWN_STAT_LANES) (x.port.val - 2) = true) ∧ (recordBad x.bytes = true) :=
  ⟨W.twin 1 0, ⟨2, [1, 2]⟩, by decide +kernel⟩

theorem witness_PasswayFrames_3 : ∃ (s : State) (x : RawFrame), ((x.port.val < 2 ∧ (s.portUp x.port = false ∨ frameBad
x.bytes = false)) ∨ (2 ≤ x.port.val ∧ (natBit (s.getF R.TWN_STAT F.TWN_STAT_LANES) (x.port.val - 2) = false ∨ recordBad
x.bytes = false))) :=
  ⟨W.up, ⟨3, []⟩, by decide +kernel⟩

theorem witness_PasswayFrames_4 : ∃ (s : State) (x : RawFrame) (b : List (BitVec 8)) (fr : PwyFrame), (x.port.val < 2) ∧
(b.length = framePayload fr) ∧ (framePayload fr ≤ 128) ∧ (x.bytes = frameHeader fr ++ b ++ [BitVec.ofNat 8 (crc32
(frameHeader fr ++ b)), BitVec.ofNat 8 (crc32 (frameHeader fr ++ b) / 256), BitVec.ofNat 8 (crc32 (frameHeader fr ++ b) /
65536), BitVec.ofNat 8 (crc32 (frameHeader fr ++ b) / 16777216)]) ∧ (framePayload fr ≠ 0) :=
  ⟨W.pwy, ⟨1, [0x40, 2, 2, 7, 1, 2, 3, 4, 5, 6, 7, 8, 0x06, 0x22, 0xA6, 0x29]⟩, [1, 2, 3, 4, 5, 6, 7, 8], .dlyReq 2 7 0, by
  decide +kernel⟩

theorem witness_PasswayFrames_5 : ∃ (s : State) (p : Fin 2) (t0 : BitVec 64) (st : Word) (fr : Fin 16) (off : Int),
(s.groupPort p = true) ∧ (s.isSet (R.PWY_PORT p) F.PWY_PORT_UPSTREAM = true) ∧ (s.pwyMaster = false) ∧ (s.pwyLocked =
false) ∧ (s.pwy.steady = 7) ∧ (off = ((s.mtime.toNat : Int) * 16 + fr.val - (t0.toNat : Int) * 16) * 2000 / 48 - (s.getF
(R.PWY_PORT p) F.PWY_PORT_DELAY : Int)) ∧ (off - s.pwy.first ≤ 1000) ∧ (s.pwy.first - off ≤ 1000) ∧ (s.mode ≠ mdTwin) :=
  ⟨{ (W.pwy.setF (R.PWY_PORT 0) F.PWY_PORT_UPSTREAM 1).setF R.PWY_STAT F.PWY_STAT_LOCKED 0 with pwy := { W.pwy.pwy with steady := 7, first := 100 } },
  0, 0, 7, 3, 125, by decide +kernel⟩

theorem witness_PasswayFrames_6 : ∃ (s : State) (p : Fin 2) (t0 ta : BitVec 64) (st : Word) (fr : Fin 16), (s.groupPort p =
false ∨ s.isSet (R.PWY_PORT p) F.PWY_PORT_UPSTREAM = false ∨ s.pwyMaster = true) :=
  ⟨W.pwy, 0, 0, 5, 7, 3, by decide +kernel⟩

theorem witness_PasswayFrames_7 : ∃ (s : State) (p : Fin 2) (t0 ta : BitVec 64) (st : Word) (fr : Fin 16) (off : Int),
(s.groupPort p = true) ∧ (s.isSet (R.PWY_PORT p) F.PWY_PORT_UPSTREAM = true) ∧ (s.pwyMaster = false) ∧ (s.pwyLocked = true)
∧ (ta ≠ 0) ∧ (s.mtime.toNat ≤ ta.toNat) ∧ (s.pwy.applied ≠ some ta.toNat) ∧ (off = ((s.mtime.toNat : Int) * 16 + fr.val -
(t0.toNat : Int) * 16) * 2000 / 48 - (s.getF (R.PWY_PORT p) F.PWY_PORT_DELAY : Int)) ∧ (-(2 ^ 31) < off) ∧ (off < 2 ^ 31)
:=
  ⟨W.pwy.setF (R.PWY_PORT 0) F.PWY_PORT_UPSTREAM 1, 0, 0, 500, 7, 3, 125, by decide +kernel⟩

theorem witness_PasswayFrames_8 : ∃ (s : State) (p : Fin 2) (pos : Fin 32) (seq : BitVec 8) (r : PwyRec) (j : Fin 32) (im :
ImpSt), (s.groupPort p = true) ∧ (s.seenBefore pos seq = false) ∧ (s.groupPort (otherPort p) = false) ∧ (r.id.toNat / 32 =
s.pwyGroup) ∧ (∀ q : Fin 32, (s.isSet (R.PWY_IMP q) F.PWY_IMP_EN && s.getF (R.PWY_IMP q) F.PWY_IMP_POS == r.id.toNat % 32
&& s.getF (R.PWY_IMP q) F.PWY_IMP_SLOT == r.slot.val) = decide (q = j)) ∧ (s.pwy.imps = [(r.id.toNat % 32 * 32 +
r.slot.val, im)]) ∧ (im.epoch = r.epoch.toNat) ∧ (s.evtDelay (928 + j.val) = 0) :=
  ⟨({ W.pwy with pwy := { W.pwy.pwy with boundary := #v[false, true], imps := [(163, ⟨9, none⟩)] } } : State).setReg
  (R.PWY_IMP 4) (F.PWY_IMP_EN.word 1 ||| F.PWY_IMP_POS.word 5 ||| F.PWY_IMP_SLOT.word 3), 0, 5, 1, ⟨37, 3, 9, 0⟩, 4, ⟨9,
  none⟩, by decide +kernel⟩

theorem witness_PasswayFrames_9 : ∃ (s : State) (p : Fin 2) (pos : Fin 32) (seq : BitVec 8) (recs : List PwyRec),
(s.seenBefore pos seq = true) :=
  ⟨{ W.pwy with pwy := { W.pwy.pwy with seen := W.pwy.pwy.seen.set 5 [1] } }, 0, 5, 1, [], by decide +kernel⟩

theorem witness_PasswayFrames_10 : ∃ (s : State) (p : Fin 2) (seq : BitVec 8) (q : PwyTopo), (s.pwyEn = true) ∧ (s.portUp p
= true) ∧ (q.group.val ≠ s.pwyGroup) :=
  ⟨W.pwy, 0, 1, W.topo 7, by decide +kernel⟩

theorem witness_PasswayFrames_11 : ∃ (s : State) (p : Fin 2) (seq : BitVec 8) (q : PwyTopo), (s.pwyEn = true) ∧ (s.portUp p
= true) ∧ (q.group.val = s.pwyGroup) ∧ (q.pos.val ≠ s.pwyPos) ∧ (s.seenBefore q.pos seq = false) ∧ (s.groupPort (otherPort
p) = false) ∧ (s.pwy.dup = false) :=
  ⟨{ W.pwy with pwy := { W.pwy.pwy with boundary := #v[false, true] } }, 0, 1, W.topo 1, by decide +kernel⟩

theorem witness_PasswayFrames_12 : ∃ (s : State) (p : Fin 2) (t2 t3 : Nat), (s.pwyEn = true) ∧ (s.portUp p = true) ∧
(s.ptbActs 12 = false) :=
  ⟨W.pwy, 1, 100, 200, by decide +kernel⟩

theorem witness_PasswayFrames_13 : ∃ (s : State) (p : Fin 2) (t1 t2 t3 t4 : Nat) (d : Int), (s.pwyEn = true) ∧ (s.portUp p
= true) ∧ (d = (((t4 : Int) - t1) - ((t3 : Int) - t2)) * 2000 / 48 / 2 + toSigned 16 (s.getF (R.PWY_ASYM p) F.PWY_ASYM_PS))
∧ (0 ≤ d) ∧ (d < 2 ^ 20) :=
  ⟨W.pwy, 1, 0, 100, 200, 340, 5000, by decide +kernel⟩

theorem witness_PasswayFrames_14 : ∃ (s : State) (ge : BitVec 8) (m : Fin 32), (s.pwyEn = true) ∧ (s.pwyLocked = true) ∧
(s.portUp 0 = true) ∧ (s.portUp 1 = false) ∧ (s.pwy.boundary.get 0 = false) ∧ (s.isSet (R.PWY_PORT 0) F.PWY_PORT_UPSTREAM =
false) ∧ (s.pwy.step = none) ∧ (ge.toNat = s.getF R.PWY_GSTAT F.PWY_GSTAT_GEPOCH) ∧ (m.val = s.getF R.PWY_GSTAT
F.PWY_GSTAT_MASTER_POS) ∧ (s.ptbActs 12 = false) :=
  ⟨W.pwy.setF R.PWY_STAT F.PWY_STAT_PORT_UP 1, 0, 0, by decide +kernel⟩

theorem witness_PasswayFrames_15 : ∃ (s : State), (s.inGroup = true) ∧ (s.groupPort 0 = true) ∧ (s.groupPort 1 = false) ∧
(s.ptbActs 12 = false) :=
  ⟨W.pwy.setF R.PWY_STAT F.PWY_STAT_PORT_UP 1, by decide +kernel⟩

theorem witness_PasswayFrames_16 : ∃ (s : State) (pos : Fin 32), (pos.val ≠ s.pwyPos) ∧ (s.pwyEn = true) ∧ (s.pwy.dup =
false) ∧ (∀ k : Fin 32, ((s.pwy.members.get k).map (fun q => q.1.pos)).getD k = k) :=
  ⟨({ W.pwy with pwy := { W.pwy.pwy with members := W.pwy.pwy.members.set 5 (some (W.topo 1, 0)) } } : State).setReg
  R.PWY_MEMBERS 0x24, 5, by decide +kernel⟩

theorem witness_PasswayFrames_17 : ∃ (s : State), (s.pwyMaster = false) ∧ (s.pwyLocked = true) :=
  ⟨W.pwy, by decide +kernel⟩

theorem witness_GroupTimeAndPorts_1 : ∃ (s : State) (st : Int), (s.pwyLocked = true) ∧ (s.pwy.step = some (s.mtime.toNat,
st)) :=
  ⟨{ W.pwy with pwy := { W.pwy.pwy with step := some (0, 70) } }, 70, by decide +kernel⟩

theorem witness_GroupTimeAndPorts_2 : ∃ (s : State), (s.pwyLocked = false ∨ s.pwy.step.map (·.1) ≠ some s.mtime.toNat) :=
  ⟨{ W.pwy with pwy := { W.pwy.pwy with step := some (5, 70) } }, by decide +kernel⟩

theorem witness_GroupTimeAndPorts_3 : ∃ (s : State), (s.mode = mdStabled) :=
  ⟨W.up.setF R.DEV_MODE F.DEV_MODE_MODE mdStabled, by decide +kernel⟩

theorem witness_GroupTimeAndPorts_4 : ∃ (s : State), (s.mode ≠ mdStabled) :=
  ⟨W.pwy.setReg (R.PWY_SYS 3) 5, by decide +kernel⟩

theorem witness_GroupTimeAndPorts_5 : ∃ (s : State) (d : BitVec 64), (s.pwyMaster = true) ∧ (s.ttCapable = true) :=
  ⟨({ W.pwy with pwy := { W.pwy.pwy with ecn := #v[true, false] } } : State).setF R.PWY_STAT F.PWY_STAT_MASTER 1 |>.setF
  R.PWY_CFG F.PWY_CFG_TT_EN 1, 500, by decide +kernel⟩

theorem witness_GroupTimeAndPorts_6 : ∃ (s : State) (d : BitVec 64), ((s.pwyMaster = true ∧ s.ttCapable = false) ∨
(s.pwyMaster = false ∧ s.elected = none)) :=
  ⟨W.up, 500, by decide +kernel⟩

theorem witness_GroupTimeAndPorts_7 : ∃ (s : State) (d : BitVec 64), (s.pwyMaster = false) ∧ (s.elected ≠ none) :=
  ⟨W.pwy, 500, by decide +kernel⟩

theorem witness_GroupTimeAndPorts_8 : ∃ (s : State) (ahead : Nat), (s.pwyMaster = true) ∧ (s.ttOfs ≠ 0) ∧ (s.pwy.step =
none) ∧ (s.memberTopos.any (·.armed) = false) ∧ (s.mtime.toNat + max 30000 ahead < 2 ^ 64) :=
  ⟨((W.pwy.setF R.PWY_STAT F.PWY_STAT_MASTER 1).setReg R.PWY_TT_OFS_LO 500).setF R.PWY_TT_STAT F.PWY_TT_STAT_TT_VALID 1, 0,
  by decide +kernel⟩

theorem witness_GroupTimeAndPorts_9 : ∃ (s : State) (ahead c0 : Nat), (s.pwyMaster = false ∨ s.ttOfs = 0 ∨ s.pwy.step ≠
none ∨ (s.memberTopos.any (·.armed) = true ∧ s.pwy.lastStep = some c0 ∧ s.clock + max 30000 ahead < c0 + 1500000)) :=
  ⟨W.pwy, 0, 0, by decide +kernel⟩

theorem witness_GroupTimeAndPorts_10 : ∃ (s : State) (ahead : Nat), (s.pwyMaster = true) ∧ (s.ttOfs ≠ 0) ∧ (s.pwy.step =
none) ∧ (s.memberTopos.any (·.armed) = true) ∧ (s.pwy.lastStep = none) ∧ (s.mtime.toNat + max 30000 ahead < 2 ^ 64) :=
  ⟨(((W.pwy.setF R.PWY_STAT F.PWY_STAT_MASTER 1).setReg R.PWY_TT_OFS_LO 500).setF R.PWY_TT_STAT F.PWY_TT_STAT_TT_VALID
  1).setF R.DEV_ARM F.DEV_ARM_ARM 1, 0, by decide +kernel⟩

theorem witness_GroupTimeAndPorts_11 : ∃ (s : State), (s.pwyMaster = true) ∧ (s.pwy.ecn.get 0 = true ∨ s.pwy.ecn.get 1 =
true) :=
  ⟨({ W.pwy with pwy := { W.pwy.pwy with ecn := #v[true, false] } } : State).setF R.PWY_STAT F.PWY_STAT_MASTER 1, by
  decide +kernel⟩

theorem witness_GroupTimeAndPorts_12 : ∃ (s : State) (g : Fin 64) (sender q c0 : Nat) (mask : Word), (s.mode ≠ mdStabled) ∧
(s.pwy.sysFrom.get g = some (q, c0)) ∧ (q ≠ sender) ∧ (s.clock < c0 + 15000000) :=
  ⟨{ W.pwy with pwy := { W.pwy.pwy with sysFrom := W.pwy.pwy.sysFrom.set 9 (some (3, 0)) } }, 9, 4, 3, 0, 0xFF, by
  decide +kernel⟩

theorem witness_GroupTimeAndPorts_13 : ∃ (s : State) (g : Fin 64) (sender : Nat) (mask : Word), (s.mode ≠ mdStabled) ∧
(s.pwy.sysFrom.get g = none) ∧ (s.pwyMaster = false) :=
  ⟨W.pwy, 9, 4, 0xFF, by decide +kernel⟩

theorem witness_GroupTimeAndPorts_14 : ∃ (s : State) (g : Fin 64) (sender : Nat) (mask : Word), (s.mode ≠ mdStabled) ∧
(s.pwyMaster = true) ∧ (g.val = s.pwyGroup) :=
  ⟨W.pwy.setF R.PWY_STAT F.PWY_STAT_MASTER 1, 1, 4, 0xFF, by decide +kernel⟩

theorem witness_GroupTimeAndPorts_15 : ∃ (s : State), (s.mode ≠ mdStabled) ∧ (s.mtime + BitVec.ofInt 64 s.ttOfs =
BitVec.ofNat 64 ((s.reg R.PWY_TEV_LO).toNat + 2 ^ 32 * (s.reg R.PWY_TEV_HI).toNat)) :=
  ⟨W.pwy, by decide +kernel⟩

theorem witness_GroupTimeAndPorts_16 : ∃ (s : State), (s.mode = mdStabled ∨ s.mtime + BitVec.ofInt 64 s.ttOfs ≠
BitVec.ofNat 64 ((s.reg R.PWY_TEV_LO).toNat + 2 ^ 32 * (s.reg R.PWY_TEV_HI).toNat)) :=
  ⟨W.later 5 W.pwy, by decide +kernel⟩

theorem witness_GroupTimeAndPorts_17 : ∃ (s : State) (p : Fin 4), (s.portFitted p = true) ∧ (s.mode ≠ mdStabled) ∧
(s.clockOn 2 = true) ∧ (if p.val < 2 then s.pwyEn = true else s.isSet R.TWN_CFG F.TWN_CFG_EN = true) :=
  ⟨W.pwy.setF R.PWY_STAT F.PWY_STAT_PORT_UP 0, 0, by decide +kernel⟩

theorem witness_GroupTimeAndPorts_18 : ∃ (s : State) (p : Fin 4), (s.portFitted p = false ∨ s.mode = mdStabled ∨ s.clockOn
2 = false ∨ (p.val < 2 ∧ s.pwyEn = false) ∨ (2 ≤ p.val ∧ s.isSet R.TWN_CFG F.TWN_CFG_EN = false)) :=
  ⟨W.pwy, 2, by decide +kernel⟩

theorem witness_GroupTimeAndPorts_19 : ∃ (s : State) (p : Fin 4), (s.portUp p = false) ∧ (p.val < 2) :=
  ⟨W.up, 0, by decide +kernel⟩

theorem witness_GroupTimeAndPorts_20 : ∃ (s : State), (s.pwyMaster = false ∨ (s.pwy.ecn.get 0 = false ∧ s.pwy.ecn.get 1 =
false)) :=
  ⟨W.pwy, by decide +kernel⟩

theorem witness_GroupTimeAndPorts_21 : ∃ (s : State) (p : Fin 4), (s.portUp p = true) :=
  ⟨W.pwy, 0, by decide +kernel⟩

theorem witness_TwinRecordsAndHandover_1 : ∃ (s : State) (n : Slice) (j : Fin 16) (x : LoopImage) (k : Nat) (st : BitVec
16), (s.inTurn st = true) ∧ (s.standby n = true) ∧ (F.CLE_TGT_KIND.get x.tgt = 0) :=
  ⟨W.twin 0 1, 0, 3, W.image, 0, 7, by decide +kernel⟩

theorem witness_TwinRecordsAndHandover_2 : ∃ (s : State) (n : Slice) (j : Fin 16) (x : LoopImage) (k : Nat) (st : BitVec
16), (s.inTurn st = true) ∧ (s.standby n = true) ∧ (F.CLE_TGT_KIND.get x.tgt = 0) :=
  ⟨W.twin 0 1, 0, 3, W.image, 0, 7, by decide +kernel⟩

theorem witness_TwinRecordsAndHandover_3 : ∃ (s : State) (n : Slice) (j : Fin 16) (x : LoopImage) (k : Nat) (st : BitVec
16), (s.inTurn st = true) ∧ (s.standby n = false) :=
  ⟨W.twin 1 0, 0, 3, W.image, 0, 7, by decide +kernel⟩

theorem witness_TwinRecordsAndHandover_4 : ∃ (s : State) (n : Slice) (off : Nat) (v : Word) (k : Nat) (st : BitVec 16),
(s.inTurn st = true) ∧ (s.standby n = true) ∧ (cfgOffset n off = true) ∧ (off ≠ 0x4008) :=
  ⟨W.twin 0 1, 0, R.CLE_MAN 0 3 - sliceBase 0, 5, 1, 7, by decide +kernel⟩

theorem witness_TwinRecordsAndHandover_5 : ∃ (s : State) (m : BitVec 12) (ca : Fin 16) (st : BitVec 16) (n : Slice),
(s.inTurn st = true) ∧ (m = maskBit n) ∧ (s.canTake n = true) ∧ (s.fitted n = true) ∧ (s.twn.queue.length < 50) :=
  ⟨W.ready, 1, 3, 7, 0, by decide +kernel⟩

theorem witness_TwinRecordsAndHandover_6 : ∃ (s : State) (m : BitVec 12) (ca : Fin 16) (st : BitVec 16), (s.inTurn st =
true) ∧ (∀ n : Slice, s.canTake n = false) ∧ (m ≠ 0) ∧ (s.twn.queue.length < 50) :=
  ⟨W.twin 1 0, 1, 3, 7, by decide +kernel⟩

theorem witness_TwinRecordsAndHandover_7 : ∃ (s : State) (g m : BitVec 12) (st : BitVec 16) (n : Slice), (s.inTurn st =
true) ∧ (s.twn.await = maskBit n) ∧ (m.getLsbD n = true) ∧ (s.standby n = true) :=
  ⟨{ W.twin 0 1 with twn := { (W.twin 0 1).twn with await := 1 } }, 0, 1, 7, 0, by decide +kernel⟩

theorem witness_TwinRecordsAndHandover_8 : ∃ (s : State) (g : BitVec 12) (st : BitVec 16), (s.inTurn st = true) :=
  ⟨{ W.twin 0 1 with twn := { (W.twin 0 1).twn with await := 3 } }, 1, 7, by decide +kernel⟩

theorem witness_TwinRecordsAndHandover_9 : ∃ (s : State) (n : Slice), (s.twn.await = maskBit n) ∧ (s.standby n = true) ∧
(s.twn.sentAt + 3000 ≤ s.clock) :=
  ⟨W.later 3000 { W.twin 0 1 with twn := { (W.twin 0 1).twn with await := 1 } }, 0, by decide +kernel⟩

theorem witness_TwinRecordsAndHandover_10 : ∃ (s : State), (s.twn.await = 0 ∨ s.clock < s.twn.sentAt + 3000) :=
  ⟨W.later 2999 { W.twin 0 1 with twn := { (W.twin 0 1).twn with await := 1 } }, by decide +kernel⟩

theorem witness_TwinRecordsAndHandover_11 : ∃ (s : State) (sy ar sb : BitVec 12) (st : BitVec 16), (s.inTurn st = true) ∧
(sb = s.twn.peerStandby) :=
  ⟨W.twin 1 0, 3, 1, 0, 7, by decide +kernel⟩

theorem witness_TwinRecordsAndHandover_12 : ∃ (s : State) (sy ar sb : BitVec 12) (st : BitVec 16), (s.twnOn = false ∨
s.clockOn 2 = false) :=
  ⟨W.up, 3, 1, 0, 7, by decide +kernel⟩

theorem witness_TwinRecordsAndHandover_13 : ∃ (s : State) (sy ar sb : BitVec 12) (st : BitVec 16) (k : Nat), (s.twnOn =
true) ∧ (s.clockOn 2 = true) ∧ (s.getF R.TWN_STAT F.TWN_STAT_LANES = 3) ∧ (s.twn.rx = some k) ∧ (st.toNat ≠ k) ∧ ((st.toNat
+ 65536 - k) % 65536 < 32768) ∧ (s.twn.ahead = []) :=
  ⟨(W.twin 1 0).setTwn { (W.twin 1 0).twn with rx := some 6 }, 3, 1, 0, 7, 6, by decide +kernel⟩

theorem witness_TwinRecordsAndHandover_14 : ∃ (s : State), (s.twnOn = true) ∧ (s.twn.queue.length < 64) :=
  ⟨W.twin 1 0, by decide +kernel⟩

theorem witness_TwinRecordsAndHandover_15 : ∃ (s : State), (s.isSet R.TWN_CFG F.TWN_CFG_EN = true) ∧ (s.twn.lost = false)
:=
  ⟨W.twin 1 0, by decide +kernel⟩

theorem witness_TwinRecordsAndHandover_16 : ∃ (s : State) (q : TwinPeer), (s.mode ≠ mdStabled) ∧ (s.clockOn 2 = true) ∧
(s.isSet R.TWN_CFG F.TWN_CFG_EN = true) ∧ (s.getF R.TWN_STAT F.TWN_STAT_LANES ≠ s.lanesFitted) :=
  ⟨(W.twin 0 0).setF R.TWN_STAT F.TWN_STAT_LANES 0, ⟨true, true, 0⟩, by decide +kernel⟩

theorem witness_TwinRecordsAndHandover_17 : ∃ (s : State) (n : Slice), (s.twnOn = true) ∧ (s.twn.lost = true) ∧ (s.canTake
n = true) ∧ (s.fitted n = true) ∧ (s.isSet R.TWN_STAT F.TWN_STAT_HO_IN = false) ∧ (s.isSet R.TWN_STAT F.TWN_STAT_HO_OUT =
false) ∧ (s.side = true ∨ s.twn.lostAt + 3000 ≤ s.clock) :=
  ⟨W.later 3000 { W.ready with twn := { W.ready.twn with lost := true } }, 0, by decide +kernel⟩

theorem witness_TwinRecordsAndHandover_18 : ∃ (s : State), (s.twnOn = false ∨ s.twn.lost = false ∨ s.getF R.TWN_ROLE
F.TWN_ROLE_STANDBY = 0 ∨ s.isSet R.TWN_STAT F.TWN_STAT_HO_IN = true ∨ s.isSet R.TWN_STAT F.TWN_STAT_HO_OUT = true ∨ (s.side
= false ∧ s.clock < s.twn.lostAt + 3000)) :=
  ⟨W.later 2999 { W.ready with twn := { W.ready.twn with lost := true } }, by decide +kernel⟩

theorem witness_TwinRecordsAndHandover_19 : ∃ (s : State) (n : Slice), (s.twnOn = true) ∧ (s.isSet R.TWN_STAT
F.TWN_STAT_HO_IN = false) ∧ (s.slState n = slRunning) ∧ (s.fitted n = true) ∧ ((s.ctlOf n).fencing = false) :=
  ⟨W.twin 1 0, 0, by decide +kernel⟩

theorem witness_TwinRecordsAndHandover_21 : ∃ (s : State) (n : Slice), (s.fitted n = true) ∧ (s.slState n = slRecovering) ∧
((s.ctlOf n).takeover = true) ∧ (s.isSet (R.SLC_CMD_STAT n) F.SLC_CMD_STAT_HELD = false) :=
  ⟨let s0 := (W.twin 1 0).setSl 0 slRecovering; s0.setCtl 0 { s0.ctlOf 0 with takeover := true }, 0, by decide +kernel⟩

theorem witness_TwinRecordsAndHandover_22 : ∃ (s : State) (x : Access) (key : BitVec 16), (s.reaches x R.TWN_CMD = true) ∧
(key = 0x7E1A) ∧ (s.getF R.TWN_STAT F.TWN_STAT_LANES = s.lanesFitted) :=
  ⟨(W.twin 1 0).setF R.TWN_STAT F.TWN_STAT_HO_OUT 1, W.sys, 0x7E1A, by decide +kernel⟩

theorem witness_TwinRecordsAndHandover_23 : ∃ (s : State), (s.twn.dropAt + 1500000 ≤ s.clock) :=
  ⟨W.later 1500000 (W.twin 1 0), by decide +kernel⟩

theorem witness_TwinRecordsAndHandover_24 : ∃ (s : State), (s.clock < s.twn.dropAt + 1500000) :=
  ⟨W.twin 1 0, by decide +kernel⟩

theorem witness_FlashOperations_1 : ∃ (s : State) (x : Access) (key : BitVec 16) (b : BlkSel), (s.reaches x R.FLC_CMD =
true) ∧ (key = 0xF1A5) ∧ (b = selOf (s.reg R.FLC_BSEL)) ∧ (s.flc.run = none) ∧ (blkOk b.arr b.blk = true) ∧ (s.flcBars
b.arr b.blk none = 0) :=
  ⟨W.flash 1 3, W.sys, 0xF1A5, ⟨0, 0, 1, 3, 0⟩, by decide +kernel⟩

theorem witness_FlashOperations_2 : ∃ (s : State) (x : Access) (key : BitVec 16) (b : BlkSel), (s.reaches x R.FLC_CMD =
true) ∧ (key = 0xF1A5) ∧ (b = selOf (s.reg R.FLC_BSEL)) ∧ (s.flc.run = none) ∧ (blkOk b.arr b.blk = true) ∧ (b.arr = s.getF
R.FLC_BANK F.FLC_BANK_ACTIVE) ∧ (s.mode ≠ mdService) :=
  ⟨W.flash 0 3, W.sys, 0xF1A5, ⟨0, 0, 0, 3, 0⟩, by decide +kernel⟩

theorem witness_FlashOperations_3 : ∃ (s : State) (x : Access) (key : BitVec 16) (b : BlkSel) (r : Nat), (s.reaches x
R.FLC_CMD = true) ∧ (key = 0xF1A5) ∧ (b = selOf (s.reg R.FLC_BSEL)) ∧ (s.flc.run = none) ∧ (blkOk b.arr b.blk = true) ∧
(s.rewriting b.arr b.blk = false) ∧ (b.arr ≠ s.getF R.FLC_BANK F.FLC_BANK_ACTIVE) ∧ (r < 8) ∧ (s.inRegion r b.arr b.blk =
true) ∧ (s.regionOpen r = false) :=
  ⟨((W.flash 1 3).setF (R.FLC_REGION 2) F.FLC_REGION_PROT 1).setF (R.FLC_REGION 2) F.FLC_REGION_ARRAY 1 |>.setF
  (R.FLC_REGION 2) F.FLC_REGION_COUNT 9, W.sys, 0xF1A5, ⟨0, 0, 1, 3, 0⟩, 2, by decide +kernel⟩

theorem witness_FlashOperations_4 : ∃ (s : State) (x : Access) (key : BitVec 16) (b : BlkSel), (s.reaches x R.FLC_CMD =
true) ∧ (key = 0xF1A5) ∧ (b = selOf (s.reg R.FLC_BSEL)) ∧ (s.flc.run = none) ∧ (blkOk b.arr b.blk = false) :=
  ⟨W.flash 1 255, W.sys, 0xF1A5, ⟨0, 0, 1, 255, 0⟩, by decide +kernel⟩

theorem witness_FlashOperations_5 : ∃ (s : State) (x : Access) (key : BitVec 16), (s.reaches x R.FLC_CMD = true) ∧ (key ≠
0xF1A5) :=
  ⟨W.flash 1 3, W.sys, 0xF1A4, by decide +kernel⟩

theorem witness_FlashOperations_6 : ∃ (s : State) (e : EraseEnd) (r : FlcRun), (s.flc.run = some r) ∧ (r.op = .erase) ∧
(r.paused = false) ∧ (r.loader = none) ∧ (e.pass = true) :=
  ⟨W.erasing 2 3, ⟨true, 20⟩, ⟨.erase, 2, 3, false, none⟩, by decide +kernel⟩

theorem witness_FlashOperations_7 : ∃ (s : State) (e : EraseEnd) (r : FlcRun), (s.flc.run = some r) ∧ (r.op = .erase) ∧
(r.paused = false) ∧ (r.loader = none) ∧ (e.pass = false) :=
  ⟨W.erasing 1 3, ⟨false, 20⟩, ⟨.erase, 1, 3, false, none⟩, by decide +kernel⟩

theorem witness_FlashOperations_8 : ∃ (s : State) (x : Access) (key : BitVec 16) (b : BlkSel), (s.reaches x R.FLC_CMD =
true) ∧ (key = 0xF1A5) ∧ (b = selOf (s.reg R.FLC_BSEL)) ∧ (s.flc.run = none) ∧ (blkOk b.arr b.blk = true) ∧ (b.page <
arrPages b.arr) ∧ (s.flcBars b.arr b.blk (some b.page) = 0) :=
  ⟨W.flash 1 3, W.sys, 0xF1A5, ⟨0, 0, 1, 3, 0⟩, by decide +kernel⟩

theorem witness_FlashOperations_9 : ∃ (s : State) (x : Access) (key : BitVec 16) (b : BlkSel), (s.reaches x R.FLC_CMD =
true) ∧ (key = 0xF1A5) ∧ (b = selOf (s.reg R.FLC_BSEL)) ∧ (s.flc.run = none) ∧ (blkOk b.arr b.blk = true) ∧ (b.page <
arrPages b.arr) ∧ (natBit (s.blk b.arr b.blk).prog b.page = true) ∧ (s.isProtected b.arr b.blk = false) ∧ (b.arr ≠ s.getF
R.FLC_BANK F.FLC_BANK_ACTIVE) :=
  ⟨(W.flash 1 3).setBlk 1 3 { resetBlk with prog := 1 }, W.sys, 0xF1A5, ⟨0, 0, 1, 3, 0⟩, by decide +kernel⟩

theorem witness_FlashOperations_10 : ∃ (s : State) (n : Fin 9) (r : FlcRun) (p : Nat) (data : List Word), (s.flc.run = some
r) ∧ (r.op = .program p data) ∧ (r.loader = none) ∧ ((arrBase r.arr + r.blk * blkSize r.arr + 256 * p) % 4 = 0) :=
  ⟨W.flcRun ⟨.program 2 [5, 6], 1, 3, false, none⟩, 2, ⟨.program 2 [5, 6], 1, 3, false, none⟩, 2, [5, 6], by
  decide +kernel⟩

theorem witness_FlashOperations_11 : ∃ (s : State) (x : Access) (key : BitVec 16) (b : BlkSel) (r : FlcRun), (s.reaches x
R.FLC_CMD = true) ∧ (key = 0xF1A5) ∧ (b = selOf (s.reg R.FLC_BSEL)) ∧ (blkOk b.arr b.blk = true) ∧ (s.flc.run = some r) ∧
(r.op = .erase) ∧ (r.arr = b.arr) :=
  ⟨W.erasing 1 3, W.sys, 0xF1A5, ⟨0, 0, 1, 3, 0⟩, ⟨.erase, 1, 3, false, none⟩, by decide +kernel⟩

theorem witness_FlashOperations_12 : ∃ (s : State) (x : Access) (key : BitVec 16) (b : BlkSel), (s.reaches x R.FLC_CMD =
true) ∧ (key = 0xF1A5) ∧ (b = selOf (s.reg R.FLC_BSEL)) ∧ (blkOk b.arr b.blk = true) ∧ (s.flc.run = none) :=
  ⟨W.flash 1 3, W.sys, 0xF1A5, ⟨0, 0, 1, 3, 0⟩, by decide +kernel⟩

theorem witness_FlashOperations_13 : ∃ (s : State) (x : Access) (key : BitVec 16) (b : BlkSel), (s.reaches x R.FLC_CMD =
true) ∧ (key = 0xF1A5) ∧ (b = selOf (s.reg R.FLC_BSEL)) ∧ (blkOk b.arr b.blk = false) :=
  ⟨W.flash 1 255, W.sys, 0xF1A5, ⟨0, 0, 1, 255, 0⟩, by decide +kernel⟩

theorem witness_FlashOperations_14 : ∃ (s : State) (x : Access) (key : BitVec 16) (b : BlkSel) (k : Nat), (s.reaches x
R.FLC_CMD = true) ∧ (key = 0xF1A5) ∧ (b = selOf (s.reg R.FLC_BSEL)) ∧ (blkOk b.arr b.blk = true) ∧ (s.flc.run = none) ∧
(s.flc.susp.toList[b.arr]? = some (some k)) :=
  ⟨let s0 := W.flash 1 3; { s0 with flc := { s0.flc with susp := #v[none, some 3, none] } }, W.sys, 0xF1A5, ⟨0, 0, 1, 3,
  0⟩, 3, by decide +kernel⟩

theorem witness_FlashOperations_15 : ∃ (s : State) (x : Access) (key : BitVec 16) (b : BlkSel), (s.reaches x R.FLC_CMD =
true) ∧ (key = 0xF1A5) ∧ (b = selOf (s.reg R.FLC_BSEL)) ∧ (s.flc.run = none) ∧ (blkOk b.arr b.blk = true) ∧ (b.mode ≠ 3) ∧
((s.blk b.arr b.blk).suspended = false) :=
  ⟨W.flash 1 3, W.sys, 0xF1A5, ⟨0, 0, 1, 3, 0⟩, by decide +kernel⟩

theorem witness_FlashOperations_16 : ∃ (s : State) (m : BitVec 16) (r : FlcRun), (s.flc.run = some r) ∧ (r.op = .margin) :=
  ⟨W.flcRun ⟨.margin, 1, 3, false, none⟩, 5, ⟨.margin, 1, 3, false, none⟩, by decide +kernel⟩

theorem witness_FlashOperations_17 : ∃ (s : State) (a : Fin 3) (r : FlcRun), (s.flc.run = some r) ∧ (r.op = .erase) ∧
(r.arr = a.val) ∧ (r.paused = false) ∧ (s.isSet R.FLC_CTRL F.FLC_CTRL_AUTO_SUSP = true) :=
  ⟨W.erasing 1 3, 1, ⟨.erase, 1, 3, false, none⟩, by decide +kernel⟩

theorem witness_FlashOperations_18 : ∃ (s : State) (a : Fin 3) (r : FlcRun), (s.flc.run = some r) ∧ (r.arr = a.val) ∧
(r.paused = true) :=
  ⟨W.flcRun ⟨.erase, 1, 3, true, none⟩, 1, ⟨.erase, 1, 3, true, none⟩, by decide +kernel⟩

theorem witness_FlashOperations_19 : ∃ (s : State) (d : Bool) (a k : Nat), (s.isSet R.FLC_SCRUB F.FLC_SCRUB_EN = true) ∧
(s.mode ≠ mdStabled) ∧ (s.flc.rewrite = none) ∧ (s.scrubArr = some a) ∧ (a < 3) ∧ ((s.flc.scrub.toList[a]?).getD 0 = k) ∧
(d = true) ∧ (s.readsWell a k = true) ∧ ((s.blk a 255).worn = false) :=
  ⟨W.up.setF R.FLC_SCRUB F.FLC_SCRUB_EN 1, true, 0, 0, by decide +kernel⟩

theorem witness_FlashOperations_20 : ∃ (s : State) (d : Bool), (s.isSet R.FLC_SCRUB F.FLC_SCRUB_EN = false ∨ s.mode =
mdStabled ∨ s.flc.rewrite ≠ none ∨ s.scrubArr = none) :=
  ⟨W.up.setF R.DEV_MODE F.DEV_MODE_MODE mdStabled, true, by decide +kernel⟩

theorem witness_FlashOperations_21 : ∃ (s : State) (d : Bool) (a k : Nat), (s.isSet R.FLC_SCRUB F.FLC_SCRUB_EN = true) ∧
(s.mode ≠ mdStabled) ∧ (s.flc.rewrite = none) ∧ (s.scrubArr = some a) ∧ (a < 3) ∧ ((s.flc.scrub.toList[a]?).getD 0 = k) ∧
((d = false ∧ (s.blk a k).decay = false) ∨ s.readsWell a k = false ∨ (s.blk a 255).worn = true) :=
  ⟨W.up.setF R.FLC_SCRUB F.FLC_SCRUB_EN 1, false, 0, 0, by decide +kernel⟩

theorem witness_FlashOperations_22 : ∃ (s : State) (e : StepEnd) (w : Rewrite), (s.flc.rewrite = some w) ∧ (w.paused =
false) ∧ (w.arr < 3) ∧ (∀ r, s.flc.run = some r → r.arr ≠ w.arr) ∧ (s.flc.susp.toList[w.arr]? = some none) ∧ (s.mode ≠
mdStabled) ∧ (w.stage = 1) ∧ (e.erase.pass = true) :=
  ⟨W.up.setFlc { W.up.flc with rewrite := some ⟨1, 3, 1, false⟩ }, ⟨⟨true, 20⟩, 0⟩, ⟨1, 3, 1, false⟩, by decide +kernel⟩

theorem witness_FlashOperations_23 : ∃ (s : State) (e : StepEnd) (w : Rewrite), (s.flc.rewrite = some w) ∧ (w.paused =
false) ∧ (w.arr < 3) ∧ (∀ r, s.flc.run = some r → r.arr ≠ w.arr) ∧ (s.flc.susp.toList[w.arr]? = some none) ∧ (s.mode ≠
mdStabled) ∧ (w.stage = 1) ∧ (e.erase.pass = false) :=
  ⟨W.up.setFlc { W.up.flc with rewrite := some ⟨1, 3, 1, false⟩ }, ⟨⟨false, 20⟩, 0⟩, ⟨1, 3, 1, false⟩, by decide +kernel⟩

theorem witness_FlashOperations_24 : ∃ (s : State) (e : StepEnd) (w : Rewrite), (s.flc.rewrite = some w) ∧ (w.paused =
false) ∧ (w.arr < 3) ∧ (∀ r, s.flc.run = some r → r.arr ≠ w.arr) ∧ (s.flc.susp.toList[w.arr]? = some none) ∧ (s.mode ≠
mdStabled) ∧ (w.stage = 2) ∧ (w.blk < 255) :=
  ⟨W.up.setFlc { W.up.flc with rewrite := some ⟨1, 3, 2, false⟩ }, ⟨⟨true, 20⟩, 0⟩, ⟨1, 3, 2, false⟩, by decide +kernel⟩

theorem witness_FlashOperations_25 : ∃ (s : State) (e : StepEnd) (w : Rewrite), (s.flc.rewrite = some w) ∧ (w.paused =
false) ∧ (w.arr < 3) ∧ (∀ r, s.flc.run = some r → r.arr ≠ w.arr) ∧ (s.flc.susp.toList[w.arr]? = some none) ∧ (s.mode ≠
mdStabled) ∧ (w.stage = 3) ∧ (w.blk < 255) ∧ (e.erase.pass = true) :=
  ⟨W.up.setFlc { W.up.flc with rewrite := some ⟨2, 3, 3, false⟩ }, ⟨⟨true, 20⟩, 0⟩, ⟨2, 3, 3, false⟩, by decide +kernel⟩

theorem witness_FlashOperations_26 : ∃ (s : State) (e : StepEnd) (w : Rewrite), (s.flc.rewrite = some w) ∧ (w.paused =
false) ∧ (w.arr < 3) ∧ (∀ r, s.flc.run = some r → r.arr ≠ w.arr) ∧ (s.flc.susp.toList[w.arr]? = some none) ∧ (s.mode ≠
mdStabled) ∧ (w.stage = 4) :=
  ⟨W.up.setFlc { W.up.flc with rewrite := some ⟨1, 3, 4, false⟩ }, ⟨⟨true, 20⟩, 0⟩, ⟨1, 3, 4, false⟩, by decide +kernel⟩

theorem witness_FlashOperations_27 : ∃ (s : State) (k : Fin 4) (e : StepEnd) (w : Rewrite), (s.flc.rewrite = some w) ∧
(w.stage ≠ k.val + 1 ∨ w.paused = true ∨ s.mode = mdStabled ∨ s.flc.run.map (·.arr) = some w.arr) :=
  ⟨W.up.setFlc { W.up.flc with rewrite := some ⟨1, 3, 2, false⟩ }, 0, ⟨⟨true, 20⟩, 0⟩, ⟨1, 3, 2, false⟩, by decide +kernel⟩

theorem witness_FlashOperations_28 : ∃ (s : State) (can : Bool) (a : Fin 4) (k : BitVec 8), (s.bootStopped = true) ∧
(s.retired = false) ∧ (s.flc.run = none) ∧ (blkOk a k.toNat = true) ∧ (s.flcBars a k.toNat none = 0) :=
  ⟨W.stopped, true, 1, 3, by decide +kernel⟩

theorem witness_FlashOperations_29 : ∃ (s : State) (can : Bool) (a : Fin 4) (k p : BitVec 8) (data : Vector Word 64),
(s.bootStopped = true) ∧ (s.retired = false) ∧ (s.flc.run = none) ∧ (blkOk a k.toNat = true) ∧ (p.toNat < arrPages a) ∧
(s.flcBars a k.toNat (some p.toNat) = 0) :=
  ⟨W.stopped, true, 1, 3, 2, Vector.replicate 64 7, by decide +kernel⟩

theorem witness_FlashOperations_30 : ∃ (s : State) (can : Bool) (k : Fin 2) (id : BitVec 11), (s.bootStopped = true) ∧
(s.retired = false) ∧ (can = true → id = 0x6B0) ∧ (s.arrBusy k = false) :=
  ⟨W.stopped, true, 1, 0x6B0, by decide +kernel⟩

theorem witness_FlashOperations_31 : ∃ (s : State) (can : Bool) (k : Fin 2) (id : BitVec 11), (s.bootStopped = false ∨ (can
= true ∧ id ≠ 0x6B0)) :=
  ⟨W.stopped, true, 1, 0x6B1, by decide +kernel⟩

theorem witness_FlashOperations_32 : ∃ (s : State) (can : Bool) (k : Fin 2) (id : BitVec 11), (s.bootStopped = true) ∧
(s.retired = false) ∧ (can = true → id = 0x6B0) ∧ (s.arrBusy k = true) :=
  ⟨W.stopped.setFlc { resetFlc with run := some ⟨.erase, 1, 3, false, none⟩ }, false, 1, 0, by decide +kernel⟩

theorem witness_FlashOperations_33 : ∃ (s : State) (can : Bool) (b : BootTests), (s.bootStopped = true) ∧ (s.retired =
true) :=
  ⟨W.stopped.setF R.SEC_LC F.SEC_LC_STATE 4, true, W.tests, by decide +kernel⟩

theorem witness_FlashOperations_34 : ∃ (s : State) (can : Bool) (b : BootTests), (s.bootStopped = true) ∧ (s.retired =
false) :=
  ⟨W.stopped, true, W.tests, by decide +kernel⟩

theorem witness_FlashProtection_1 : ∃ (s : State) (x : Access) (v : Word), (s.reaches x R.FLC_PW_LO = true) :=
  ⟨W.flash 1 3, W.sys, 5, by decide +kernel⟩

theorem witness_FlashProtection_2 : ∃ (s : State) (x : Access) (v lo : Word), (s.reaches x R.FLC_PW_HI = true) ∧
(s.flc.stage = .low lo) :=
  ⟨(W.flash 1 3).setFlc { resetFlc with stage := .low 4 }, W.sys, 5, 4, by decide +kernel⟩

theorem witness_FlashProtection_3 : ∃ (s : State) (x : Access) (v : Word), (s.reaches x R.FLC_PW_HI = true) ∧ (s.flc.stage
= .none) :=
  ⟨W.flash 1 3, W.sys, 5, by decide +kernel⟩

theorem witness_FlashProtection_4 : ∃ (s : State) (x : Access) (key : BitVec 16) (b : BlkSel) (lo hi : Word), (s.reaches x
R.FLC_CMD = true) ∧ (key = 0xF1A5) ∧ (b = selOf (s.reg R.FLC_BSEL)) ∧ (s.flc.run = none) ∧ (s.flc.stage = .full lo hi) ∧
(s.regionOpen b.region = true) ∧ (b.region < 8) ∧ (lo ≠ 0xFFFFFFFF) :=
  ⟨W.region 0 (.full 4 5), W.sys, 0xF1A5, ⟨2, 0, 1, 3, 0⟩, 4, 5, by decide +kernel⟩

theorem witness_FlashProtection_5 : ∃ (s : State) (x : Access) (key : BitVec 16) (b : BlkSel) (lo hi : Word), (s.reaches x
R.FLC_CMD = true) ∧ (key = 0xF1A5) ∧ (b = selOf (s.reg R.FLC_BSEL)) ∧ (s.flc.run = none) ∧ (s.flc.stage = .full lo hi) ∧
(s.regionOpen b.region = false) :=
  ⟨W.region 1 (.full 4 5), W.sys, 0xF1A5, ⟨2, 0, 1, 3, 0⟩, 4, 5, by decide +kernel⟩

theorem witness_FlashProtection_6 : ∃ (s : State) (x : Access) (key : BitVec 16) (b : BlkSel) (lo hi : Word), (s.reaches x
R.FLC_CMD = true) ∧ (key = 0xF1A5) ∧ (b = selOf (s.reg R.FLC_BSEL)) ∧ (s.flc.run = none) ∧ (b.region < 8) ∧ (s.isSet
(R.FLC_REGION b.region) F.FLC_REGION_PROT = true) ∧ (s.flc.stage = .full lo hi) ∧ (s.isSet (R.FLC_REGION b.region)
F.FLC_REGION_LOCKED_OUT = false) ∧ (s.flc.pw.toList[b.region]? = some (hi ++ lo)) :=
  ⟨W.region 1 (.full 0 0), W.sys, 0xF1A5, ⟨2, 0, 1, 3, 0⟩, 0, 0, by decide +kernel⟩

theorem witness_FlashProtection_7 : ∃ (s : State) (x : Access) (key : BitVec 16) (b : BlkSel) (lo hi : Word), (s.reaches x
R.FLC_CMD = true) ∧ (key = 0xF1A5) ∧ (b = selOf (s.reg R.FLC_BSEL)) ∧ (s.flc.run = none) ∧ (b.region < 8) ∧ (s.isSet
(R.FLC_REGION b.region) F.FLC_REGION_PROT = true) ∧ (s.flc.stage = .full lo hi) ∧ (s.isSet (R.FLC_REGION b.region)
F.FLC_REGION_LOCKED_OUT = false) ∧ (s.flc.pw.toList[b.region]? ≠ some (hi ++ lo)) ∧ (s.getF (R.FLC_REGION b.region)
F.FLC_REGION_FAILS = 2) :=
  ⟨(W.region 1 (.full 7 0)).setF (R.FLC_REGION 2) F.FLC_REGION_FAILS 2, W.sys, 0xF1A5, ⟨2, 0, 1, 3, 0⟩, 7, 0, by
  decide +kernel⟩

theorem witness_FlashProtection_8 : ∃ (s : State) (x : Access) (key : BitVec 16) (b : BlkSel), (s.reaches x R.FLC_CMD =
true) ∧ (key = 0xF1A5) ∧ (b = selOf (s.reg R.FLC_BSEL)) ∧ (s.flc.run = none) ∧ (b.region < 8) :=
  ⟨(W.region 1 .none).setF (R.FLC_REGION 2) F.FLC_REGION_UNLOCKED 1, W.sys, 0xF1A5, ⟨2, 0, 1, 3, 0⟩, by decide +kernel⟩

theorem witness_FlashProtection_9 : ∃ (s : State) (x : Access) (key : BitVec 16) (b : BlkSel), (s.reaches x R.FLC_CMD =
true) ∧ (key = 0xF1A5) ∧ (b = selOf (s.reg R.FLC_BSEL)) ∧ (s.flc.run = none) ∧ (1 < b.arr) :=
  ⟨W.flash 2 3, W.sys, 0xF1A5, ⟨0, 0, 2, 3, 0⟩, by decide +kernel⟩

theorem witness_FlashProtection_10 : ∃ (s : State) (x : Access) (key : BitVec 16) (b : BlkSel), (s.reaches x R.FLC_CMD =
true) ∧ (key = 0xF1A5) ∧ (b = selOf (s.reg R.FLC_BSEL)) ∧ (s.flc.run = none) ∧ (b.arr ≤ 1) ∧ (s.imageFail b.arr ≠ 0) :=
  ⟨W.flash 1 3, W.sys, 0xF1A5, ⟨0, 0, 1, 3, 0⟩, by decide +kernel⟩

theorem witness_FlashProtection_11 : ∃ (s : State) (x : Access) (key : BitVec 16) (b : BlkSel), (s.reaches x R.FLC_CMD =
true) ∧ (key = 0xF1A5) ∧ (b = selOf (s.reg R.FLC_BSEL)) ∧ (s.flc.run = none) ∧ (b.arr ≤ 1) ∧ (s.imageFail b.arr = 0) :=
  ⟨W.next, W.sys, 0xF1A5, ⟨0, 0, 1, 3, 0⟩, by decide +kernel⟩

theorem witness_SupplyAndClocks_1 : ∃ (s : State) (vin : BitVec 16), (s.isSet R.PWR_STAT F.PWR_STAT_INPUT_OK = true) ∧
(s.isSet R.TWN_CFG F.TWN_CFG_PF_HO = false) ∧ (vin.toNat < 2300) :=
  ⟨W.up.setF R.PWR_STAT F.PWR_STAT_INPUT_OK 1, 800, by decide +kernel⟩

theorem witness_SupplyAndClocks_2 : ∃ (s : State) (vin : BitVec 16), (s.isSet R.PWR_STAT F.PWR_STAT_INPUT_OK = false ∨ 2300
≤ vin.toNat) :=
  ⟨W.up, 800, by decide +kernel⟩

theorem witness_SupplyAndClocks_3 : ∃ (s : State), (s.isSet R.PWR_STAT F.PWR_STAT_ON_HOLDUP = true) ∧ (s.isSet R.PWR_STAT
F.PWR_STAT_HOLDUP_LOW = false) :=
  ⟨(W.up.setF R.PWR_STAT F.PWR_STAT_ON_HOLDUP 1).setF R.DEV_ARM F.DEV_ARM_ARM 1, by decide +kernel⟩

theorem witness_SupplyAndClocks_4 : ∃ (s : State), (s.isSet R.PWR_STAT F.PWR_STAT_ON_HOLDUP = false ∨ s.isSet R.PWR_STAT
F.PWR_STAT_HOLDUP_LOW = true) :=
  ⟨W.up, by decide +kernel⟩

theorem witness_SupplyAndClocks_5 : ∃ (s : State), (s.isSet R.PWR_STAT F.PWR_STAT_HOLDUP_LOW = true) :=
  ⟨W.up.setF R.PWR_STAT F.PWR_STAT_HOLDUP_LOW 1, by decide +kernel⟩

theorem witness_SupplyAndClocks_6 : ∃ (s : State), (s.isSet R.PWR_STAT F.PWR_STAT_HOLDUP_LOW = false) :=
  ⟨W.up, by decide +kernel⟩

theorem witness_SupplyAndClocks_7 : ∃ (s : State) (vin : BitVec 16), (s.isSet R.PWR_STAT F.PWR_STAT_INPUT_OK = false) ∧
(s.isSet R.PWR_STAT F.PWR_STAT_ON_HOLDUP = true) ∧ (s.isSet R.PWR_STAT F.PWR_STAT_HOLDUP_LOW = false) ∧ (2500 < vin.toNat)
:=
  ⟨W.up.setF R.PWR_STAT F.PWR_STAT_ON_HOLDUP 1, 2600, by decide +kernel⟩

theorem witness_SupplyAndClocks_8 : ∃ (s : State) (vin : BitVec 16), (s.isSet R.PWR_STAT F.PWR_STAT_INPUT_OK = true ∨
vin.toNat ≤ 2500) :=
  ⟨W.up, 2400, by decide +kernel⟩

theorem witness_SupplyAndClocks_9 : ∃ (s : State), (s.isSet R.PWR_STAT F.PWR_STAT_INPUT_OK = false ∨ s.isSet R.PWR_STAT
F.PWR_STAT_HOLDUP_LOW = true) :=
  ⟨W.up, by decide +kernel⟩

theorem witness_SupplyAndClocks_10 : ∃ (s : State), (s.isSet R.PWR_STAT F.PWR_STAT_INPUT_OK = true) ∧ (s.isSet R.PWR_STAT
F.PWR_STAT_HOLDUP_LOW = false) ∧ (∀ n : Slice, s.armPend n = false) :=
  ⟨W.up.setF R.PWR_STAT F.PWR_STAT_INPUT_OK 1, by decide +kernel⟩

theorem witness_SupplyAndClocks_12 : ∃ (s : State) (j : Fin 6) (pin : Fin 512), (s.elDriven j.val pin.val = true) ∧
(s.pwr.fold.contains (j.val, pin.val) = false) :=
  ⟨W.up, 3, 3, by decide +kernel⟩

theorem witness_SupplyAndClocks_13 : ∃ (s : State) (j : Fin 6) (pin : Fin 512), (s.elDriven j.val pin.val = false ∨
s.pwr.fold.contains (j.val, pin.val) = true) :=
  ⟨W.up, 0, 3, by decide +kernel⟩

theorem witness_SupplyAndClocks_15 : ∃ (s : State) (k : Fin 7), (s.clockAsked k = true) :=
  ⟨W.up, 3, by decide +kernel⟩

theorem witness_SupplyAndClocks_16 : ∃ (s : State) (k : Fin 7), (s.clockAsked k = false) :=
  ⟨W.up, 2, by decide +kernel⟩

theorem witness_SupplyAndClocks_17 : ∃ (s : State), (s.mode ≠ mdStabled) ∧ (natBit s.tamperEn 3 = false) :=
  ⟨(W.up.setF R.DEV_ARM F.DEV_ARM_ARM 1).setReg R.SEC_TAMPER_CFG 0, by decide +kernel⟩

theorem witness_SupplyAndClocks_18 : ∃ (s : State), (s.mode = mdStabled) :=
  ⟨W.up.setF R.DEV_MODE F.DEV_MODE_MODE mdStabled, by decide +kernel⟩

theorem witness_SupplyAndClocks_19 : ∃ (s : State), (s.mode ≠ mdStabled) ∧ (s.evtDelay 36 = 0) ∧ (s.alarmLevel = true) ∧
(s.evr.filt.contains 36 = false) ∧ (s.getF (srcAddr 36) F.EVR_SRC_SENSE = 0) :=
  ⟨(W.up.setReg R.AON_ALARM 5).setReg R.AON_RTC_SEC 5, by decide +kernel⟩

theorem witness_SupplyAndClocks_20 : ∃ (s : State), (s.alarmLevel = s.evr.filt.contains 36 ∨ s.mode = mdStabled) :=
  ⟨W.up, by decide +kernel⟩

theorem witness_Watchdogs_1 : ∃ (s : State) (x : Access) (e : Fin 13) (key : BitVec 16), (s.reaches x (R.WDG_SVC e) = true)
∧ ((wdgSlice e).elim (x.m == .sys) (fun n => x.m == .core n) = true) ∧ (s.wdgRuns e = true) ∧ (key.toNat = (if s.isSet
(R.WDG_STAT e) F.WDG_STAT_EXPECT then 0xC369 else 0x3C96)) ∧ (s.wdgFirst.get e = true ∨ s.getF (R.WDG_LOWER e)
F.WDG_LOWER_US ≤ s.getF (R.WDG_CNT e) F.WDG_CNT_US) ∧ (s.getF (R.WDG_CNT e) F.WDG_CNT_US < s.getF (R.WDG_PERIOD e)
F.WDG_PERIOD_US) :=
  ⟨W.wdg, W.own, 0, 0x3C96, by decide +kernel⟩

theorem witness_Watchdogs_2 : ∃ (s : State) (x : Access) (e : Fin 13) (key : BitVec 16), (s.reaches x (R.WDG_SVC e) = true)
∧ ((wdgSlice e).elim (x.m == .sys) (fun n => x.m == .core n) = true) ∧ (s.wdgRuns e = true) ∧ (e.val < 12) ∧ (s.isSet
(R.WDG_CTRL e) F.WDG_CTRL_ACT = false) ∧ (key.toNat ≠ (if s.isSet (R.WDG_STAT e) F.WDG_STAT_EXPECT then 0xC369 else
0x3C96)) ∧ (key ≠ 0x5E7A) :=
  ⟨W.wdg, W.own, 0, 0xC369, by decide +kernel⟩

theorem witness_Watchdogs_3 : ∃ (s : State) (x : Access) (e : Fin 13) (key : BitVec 16), (s.reaches x (R.WDG_SVC e) = true)
∧ ((wdgSlice e).elim (x.m == .sys) (fun n => x.m == .core n) = true) ∧ (s.wdgRuns e = true) ∧ (e.val < 12) ∧ (s.isSet
(R.WDG_CTRL e) F.WDG_CTRL_ACT = false) ∧ (key.toNat = (if s.isSet (R.WDG_STAT e) F.WDG_STAT_EXPECT then 0xC369 else
0x3C96)) ∧ (s.wdgFirst.get e = false) ∧ (s.getF (R.WDG_CNT e) F.WDG_CNT_US < s.getF (R.WDG_LOWER e) F.WDG_LOWER_US) :=
  ⟨{ W.wdg.setReg (R.WDG_LOWER 0) 500 with wdgFirst := .replicate 13 false }, W.own, 0, 0x3C96, by decide +kernel⟩

theorem witness_Watchdogs_4 : ∃ (s : State) (x : Access) (e : Fin 13) (coll : Bool), (s.reaches x (R.WDG_SVC e) = true) ∧
((wdgSlice e).elim (x.m == .sys) (fun n => x.m == .core n) = true ∨ (wdgSlice e).elim x.m.isSys (fun n => s.ownerIs n x.m)
= true) ∧ (s.isSet (R.WDG_CTRL e) F.WDG_CTRL_EN = true) ∧ (s.wdgMayRun e = true) :=
  ⟨W.wdg.setF (R.WDG_STAT 0) F.WDG_STAT_EXPIRED 1, W.own, 0, true, by decide +kernel⟩

theorem witness_Watchdogs_5 : ∃ (s : State) (x : Access) (e : Fin 13) (key : BitVec 16), (s.reaches x (R.WDG_SVC e) = true)
∧ ((wdgSlice e).elim (x.m == .sys) (fun n => x.m == .core n) = false) ∧ (key ≠ 0x5E7A) :=
  ⟨W.wdg, ⟨.fn 1, false, false⟩, 0, 0x3C96, by decide +kernel⟩

theorem witness_Watchdogs_6 : ∃ (s : State) (n : Slice) (e : Fin 13), (e.val = n.val) ∧ (s.wdgRuns e = true) ∧ (s.fitted n
= true) ∧ (s.slState n = slReady ∨ s.slState n = slRunning) ∧ (s.isSet (R.WDG_CTRL e) F.WDG_CTRL_ACT = true) ∧ ((s.ctlOf
n).fencing = false) :=
  ⟨W.wdg.setF (R.WDG_CTRL 0) F.WDG_CTRL_ACT 1, 0, 0, by decide +kernel⟩

theorem witness_Watchdogs_7 : ∃ (s : State) (n : Slice) (e : Fin 13) (x : Access) (key : BitVec 16), (e.val = n.val) ∧
(s.wdgRuns e = true) ∧ (s.fitted n = true) ∧ (s.slState n = slReady ∨ s.slState n = slRunning) ∧ (s.isSet (R.WDG_CTRL e)
F.WDG_CTRL_ACT = true) ∧ ((s.ctlOf n).fencing = false) ∧ (s.reaches x (R.WDG_SVC e) = true) ∧ ((wdgSlice e).elim (x.m ==
.sys) (fun n => x.m == .core n) = true) ∧ (key.toNat ≠ (if s.isSet (R.WDG_STAT e) F.WDG_STAT_EXPECT then 0xC369 else
0x3C96)) ∧ (key ≠ 0x5E7A) :=
  ⟨W.wdg.setF (R.WDG_CTRL 0) F.WDG_CTRL_ACT 1, 0, 0, W.own, 0xC369, by decide +kernel⟩

theorem witness_Watchdogs_8 : ∃ (s : State) (e : Fin 13), (s.wdgRuns e = true) ∧ (e.val < 12) ∧ (s.isSet (R.WDG_CTRL e)
F.WDG_CTRL_ACT = false) :=
  ⟨W.wdg, 0, by decide +kernel⟩

theorem witness_SecurityAndLifeCycle_1 : ∃ (s : State) (x : Access) (key : BitVec 16), (s.reaches x R.SEC_CMD = true) ∧
(secMaster x = true) ∧ (key = 0x5EC0) ∧ ((s.reg R.SEC_MINVER).toNat < s.sec.version.toNat) :=
  ⟨{ W.up with sec := { W.up.sec with version := 7 } }, ⟨.sys, true, false⟩, 0x5EC0, by decide +kernel⟩

theorem witness_SecurityAndLifeCycle_2 : ∃ (s : State) (x : Access) (key : BitVec 16), (s.reaches x R.SEC_CMD = true) ∧
(secMaster x = true) ∧ (key = 0x5EC0) ∧ (s.sec.version.toNat ≤ (s.reg R.SEC_MINVER).toNat) :=
  ⟨W.up, ⟨.sys, true, false⟩, 0x5EC0, by decide +kernel⟩

theorem witness_SecurityAndLifeCycle_3 : ∃ (s : State) (x : Access) (key : BitVec 16), (s.reaches x R.SEC_CMD = true) ∧
(key ≠ 0x5EC0 ∨ secMaster x = false) :=
  ⟨W.up, W.sys, 0x5EC0, by decide +kernel⟩

theorem witness_SecurityAndLifeCycle_4 : ∃ (s : State) (x : Access) (key : BitVec 16) (k : Fin 4), (s.reaches x R.SEC_CMD =
true) ∧ (secMaster x = true) ∧ (key = 0x5EC0) ∧ (k ≠ 0) ∧ (s.lc ≤ 1) ∧ (natBit (s.getF R.SEC_KEYSTAT F.SEC_KEYSTAT_WRITTEN)
k = false) :=
  ⟨W.up.setReg (R.SEC_KEY_DATA 0) 9, ⟨.sys, true, false⟩, 0x5EC0, 2, by decide +kernel⟩

theorem witness_SecurityAndLifeCycle_5 : ∃ (s : State) (x : Access) (key : BitVec 16) (k : Fin 4), (s.reaches x R.SEC_CMD =
true) ∧ (secMaster x = true) ∧ (key = 0x5EC0) ∧ (k = 0 ∨ 1 < s.lc ∨ natBit (s.getF R.SEC_KEYSTAT F.SEC_KEYSTAT_WRITTEN) k =
true) :=
  ⟨W.up, ⟨.sys, true, false⟩, 0x5EC0, 0, by decide +kernel⟩

theorem witness_SecurityAndLifeCycle_6 : ∃ (s : State) (x : Access) (key : BitVec 16) (k : Fin 4), (s.reaches x R.SEC_CMD =
true) ∧ (secMaster x = true) ∧ (key = 0x5EC0) ∧ (k ≠ 0) ∧ (s.lc ≤ 2) :=
  ⟨W.up, ⟨.sys, true, false⟩, 0x5EC0, 2, by decide +kernel⟩

theorem witness_SecurityAndLifeCycle_7 : ∃ (s : State) (x : Access) (v : Word), (s.reaches x R.SEC_LC_REQ = true) ∧ (x.m =
.sys) ∧ (F.SEC_LC_REQ_KEY.get v = 0x1C5E) ∧ (s.mode = mdService) ∧ (s.noneArmed = true) ∧ (s.getF R.SEC_TAMPER
F.SEC_TAMPER_FLAGS = 0 ∨ F.SEC_LC_REQ_TARGET.get v = 4) ∧ (s.sec.hitAt ≠ some s.clock) ∧ (s.lcAllowed
(F.SEC_LC_REQ_TARGET.get v) = true) ∧ (s.sec.req = none) :=
  ⟨W.service, W.sys, F.SEC_LC_REQ_KEY.word 0x1C5E ||| F.SEC_LC_REQ_TARGET.word 4, by decide +kernel⟩

theorem witness_SecurityAndLifeCycle_8 : ∃ (s : State) (x : Access) (v : Word), (s.reaches x R.SEC_LC_REQ = true) ∧ (x.m =
.sys) ∧ (F.SEC_LC_REQ_KEY.get v = 0x1C5E) ∧ (s.mode ≠ mdService ∨ s.noneArmed = false ∨ s.lcAllowed
(F.SEC_LC_REQ_TARGET.get v) = false ∨ s.sec.hitAt = some s.clock ∨ s.sec.req ≠ none ∨ (s.getF R.SEC_TAMPER
F.SEC_TAMPER_FLAGS ≠ 0 ∧ F.SEC_LC_REQ_TARGET.get v ≠ 4)) :=
  ⟨W.up, W.sys, F.SEC_LC_REQ_KEY.word 0x1C5E ||| F.SEC_LC_REQ_TARGET.word 4, by decide +kernel⟩

theorem witness_SecurityAndLifeCycle_9 : ∃ (s : State) (g : Nat), (s.sec.req = some g) ∧ (g ≤ 4) :=
  ⟨{ W.service with sec := { W.service.sec with req := some 3 } }, 3, by decide +kernel⟩

theorem witness_SecurityAndLifeCycle_10 : ∃ (s : State) (b : Fin 5), (natBit s.tamperEn b = true) ∧ (s.getF
R.SEC_TAMPER_CFG F.SEC_TAMPER_CFG_ACT = 0) :=
  ⟨W.up.setReg R.SEC_TAMPER_CFG 0x1F, 2, by decide +kernel⟩

theorem witness_SecurityAndLifeCycle_11 : ∃ (s : State) (b : Fin 5), (natBit s.tamperEn b = true) ∧ (s.getF
R.SEC_TAMPER_CFG F.SEC_TAMPER_CFG_ACT = 1) :=
  ⟨(W.up.setReg R.SEC_TAMPER_CFG (F.SEC_TAMPER_CFG_ACT.word 1 ||| 0x1F)).setF R.DEV_ARM F.DEV_ARM_ARM 1, 2, by
  decide +kernel⟩

theorem witness_SecurityAndLifeCycle_12 : ∃ (s : State) (b : Fin 5), (natBit s.tamperEn b = true) ∧ (s.getF
R.SEC_TAMPER_CFG F.SEC_TAMPER_CFG_ACT = 2) :=
  ⟨W.up.setReg R.SEC_TAMPER_CFG (F.SEC_TAMPER_CFG_ACT.word 2 ||| 0x1F), 2, by decide +kernel⟩

theorem witness_SecurityAndLifeCycle_13 : ∃ (s : State), (s.sec.req = none) :=
  ⟨W.up, by decide +kernel⟩

theorem witness_SecurityAndLifeCycle_14 : ∃ (s : State) (b : Fin 5), (natBit s.tamperEn b = false) :=
  ⟨W.up.setReg R.SEC_TAMPER_CFG 0, 2, by decide +kernel⟩

theorem witness_ColbelSessions_1 : ∃ (s : State) (by_ : Func) (v : Word), (s.reaches (descAccess by_) mbxBase = true) ∧
(s.bootStopped = false) ∧ (12 ≤ v.toNat % 2048) ∧ (v.toNat % 2048 ≤ 1920) ∧ (bit (s.reg (mbxBase + 4)) 31 = false) :=
  ⟨W.up, 0, 100, by decide +kernel⟩

theorem witness_ColbelSessions_2 : ∃ (s : State) (len : Nat), (s.bootStopped = false) ∧ (s.clockOn 5 = true) ∧ (12 ≤ len) ∧
(len ≤ 1920) :=
  ⟨W.up, 100, by decide +kernel⟩

theorem witness_ColbelSessions_3 : ∃ (s : State) (k : Fin 2) (h : SegHead) (i : BitVec 6), (s.bootStopped = false) ∧
(s.fastRuns = true) ∧ (h.dir = false) ∧ (i.toNat = 0 ∨ (s.dbg.segAt.get k + 150000000 > s.clock ∧ i.toNat = (s.dbg.seg.get
k).getD 0)) ∧ (i.toNat ≤ 30) ∧ (h.last = false) :=
  ⟨W.up, 1, ⟨false, false, 0⟩, 0, by decide +kernel⟩

theorem witness_ColbelSessions_4 : ∃ (s : State) (k : Fin 2) (h : SegHead) (i : BitVec 6), (s.bootStopped = false) ∧
(s.fastRuns = true) ∧ (h.dir = false) ∧ (i.toNat = 0 ∨ (s.dbg.segAt.get k + 150000000 > s.clock ∧ i.toNat = (s.dbg.seg.get
k).getD 0)) ∧ (i.toNat ≤ 30) ∧ (h.last = true) ∧ (segEnds h.length.toNat i.toNat = true) :=
  ⟨W.up, 1, ⟨false, true, 40⟩, 0, by decide +kernel⟩

theorem witness_ColbelSessions_5 : ∃ (s : State) (k : Fin 2) (h : SegHead) (i : BitVec 6), (s.bootStopped = false) ∧
(s.fastRuns = true) ∧ (h.dir = false) ∧ (i ≠ 0 ∧ (s.dbg.segAt.get k + 150000000 ≤ s.clock ∨ i.toNat ≠ (s.dbg.seg.get
k).getD 0 ∨ 30 < i.toNat) ∨ (h.last = true ∧ segEnds h.length.toNat i.toNat = false)) :=
  ⟨W.up, 1, ⟨false, true, 40⟩, 3, by decide +kernel⟩

theorem witness_ColbelSessions_6 : ∃ (s : State) (k : Fin 2) (h : SegHead) (i : BitVec 6), (h.dir = true) :=
  ⟨W.up, 1, ⟨true, true, 40⟩, 0, by decide +kernel⟩

theorem witness_ColbelSessions_7 : ∃ (s : State) (k : Fin 2), (s.dbg.segAt.get k + 150000000 ≤ s.clock) :=
  ⟨{ W.up with clock := 150000000 }, 1, by decide +kernel⟩

theorem witness_ColbelSessions_8 : ∃ (s : State) (k : Fin 2), (s.clock < s.dbg.segAt.get k + 150000000) :=
  ⟨W.up, 1, by decide +kernel⟩

theorem witness_ColbelSessions_9 : ∃ (s : State) (m : HelloMsg) (k : Fin 4), (s.waits m.tr = true) ∧ (s.colbelAvail = true)
∧ (s.dbg.locked.get m.tr = false) ∧ (s.isSet R.DEV_BOOT_STAT F.DEV_BOOT_STAT_DONE = true) ∧ ((List.finRange 4).find? (fun
(j : Fin 4) => (s.dbg.sess.get j).isNone) = some k) :=
  ⟨W.mon 0, ⟨1, 5, 6⟩, 1, by decide +kernel⟩

theorem witness_ColbelSessions_10 : ∃ (s : State) (m : HelloMsg), (s.waits m.tr = true) ∧ (s.colbelAvail = true) ∧ (s.isSet
R.DEV_BOOT_STAT F.DEV_BOOT_STAT_DONE = true) ∧ (s.dbg.locked.get m.tr = true) :=
  ⟨{ W.mon 0 with dbg := { (W.mon 0).dbg with locked := .replicate 3 true } }, ⟨1, 5, 6⟩, by decide +kernel⟩

theorem witness_ColbelSessions_11 : ∃ (s : State) (m : HelloMsg), (s.waits m.tr = true) ∧ (s.colbelAvail = true) ∧ (s.isSet
R.DEV_BOOT_STAT F.DEV_BOOT_STAT_DONE = true) ∧ (s.dbg.locked.get m.tr = false) ∧ (∀ j : Fin 4, (s.dbg.sess.get j).isSome =
true) :=
  ⟨{ W.mon 0 with dbg := { (W.mon 0).dbg with sess := .replicate 4 (some (W.sess 0)) } }, ⟨1, 5, 6⟩, by decide +kernel⟩

theorem witness_ColbelSessions_12 : ∃ (s : State) (q : ColbelReq) (x : Session) (b : Bool), (s.serves q x 0 = true) :=
  ⟨W.mon 0, ⟨0, 5, true, 1⟩, W.sess 0, true, by decide +kernel⟩

theorem witness_ColbelSessions_13 : ∃ (s : State) (q : ColbelReq) (x : Session) (k : Fin 4) (want : Nat), (s.serves q x 0 =
true) ∧ (x.asked = some want) ∧ (natBit (s.getF R.SEC_KEYSTAT F.SEC_KEYSTAT_WRITTEN) k = true) ∧ (natBit (s.getF
R.SEC_KEYSTAT F.SEC_KEYSTAT_REVOKED) k = false) ∧ (bootKey s.lc k = true) ∧ (s.authAllowed want = true) :=
  ⟨W.asked, ⟨0, 5, true, 1⟩, { W.sess 0 with asked := some 1 }, 0, 1, by decide +kernel⟩

theorem witness_ColbelSessions_14 : ∃ (s : State) (q : ColbelReq) (x : Session) (k : Option (Fin 4)) (want : Nat),
(s.serves q x 0 = true) ∧ (x.asked = some want) ∧ (s.dbg.refused.get q.tr = 2) :=
  ⟨{ W.asked with dbg := { W.asked.dbg with refused := .replicate 3 2 } }, ⟨0, 5, true, 1⟩,
  { W.sess 0 with asked := some 1 }, none, 1, by decide +kernel⟩

theorem witness_ColbelSessions_15 : ∃ (s : State) (tr : Fin 3), (s.dbg.lockAt.get tr + 15000000000 ≤ s.clock) :=
  ⟨{ W.mon 0 with clock := 15000000000, dbg := { (W.mon 0).dbg with locked := .replicate 3 true } }, 1, by decide +kernel⟩

theorem witness_ColbelSessions_16 : ∃ (s : State) (tr : Fin 3), (s.clock < s.dbg.lockAt.get tr + 15000000000) :=
  ⟨W.mon 0, 1, by decide +kernel⟩

theorem witness_ColbelSessions_17 : ∃ (s : State) (tr : Fin 3) (k : Fin 4) (x : Session), (s.dbg.sess.get k = some x) ∧
(s.colbelAvail = true) ∧ (s.waits tr = true) :=
  ⟨W.att, 1, 0, W.sess 1, by decide +kernel⟩

theorem witness_ColbelSessions_18 : ∃ (s : State) (k : Fin 4) (x : Session), (s.dbg.sess.get k = some x) ∧ (x.at_ +
15000000000 ≤ s.clock) :=
  ⟨{ W.att with clock := 15000000000 }, 0, W.sess 1, by decide +kernel⟩

theorem witness_ColbelSessions_19 : ∃ (s : State) (k : Fin 4), (s.dbg.sess.get k = none ∨ (∃ x, s.dbg.sess.get k = some x ∧
s.clock < x.at_ + 15000000000)) :=
  ⟨W.att, 3, by decide +kernel⟩

theorem witness_ColbelSessions_20 : ∃ (s : State) (q : ColbelReq) (x : Session), (s.serves q x 0 = true) :=
  ⟨W.mon 0, ⟨0, 5, true, 1⟩, W.sess 0, by decide +kernel⟩

theorem witness_ColbelSessions_21 : ∃ (s : State) (q : ColbelReq) (x : Session) (b : Bool), (s.serves q x 3 = true) :=
  ⟨W.mon 1, ⟨0, 5, true, 1⟩, W.sess 1, true, by decide +kernel⟩

theorem witness_ColbelSessions_22 : ∃ (s : State) (q : ColbelReq) (x : Session), (s.serves q x 0 = true) :=
  ⟨W.mon 0, ⟨0, 5, true, 1⟩, W.sess 0, by decide +kernel⟩

theorem witness_ColbelSessions_23 : ∃ (s : State) (q : ColbelReq) (x : Session), (s.dbg.sess.get q.sess = some x) ∧
(s.colbelAvail = true) ∧ (s.waits q.tr = true) ∧ (q.tagOk = false) :=
  ⟨W.mon 0, ⟨0, 5, false, 1⟩, W.sess 0, by decide +kernel⟩

theorem witness_ColbelSessions_24 : ∃ (s : State) (q : ColbelReq) (x : Session) (r : Resp), (s.dbg.sess.get q.sess = some
x) ∧ (s.colbelAvail = true) ∧ (s.waits q.tr = true) ∧ (q.tagOk = true) ∧ (x.last = some q.seq.toNat) ∧ (x.resp = some r) :=
  ⟨{ W.mon 0 with dbg := { (W.mon 0).dbg with sess := .replicate 4 (some W.again) } }, ⟨0, 5, true, 1⟩, W.again, ⟨16, 0,
  []⟩, by decide +kernel⟩

theorem witness_ColbelDebugging_1 : ∃ (s : State) (q : ColbelReq) (x : Session) (n : Slice), (s.serves q x 1 = true) ∧
(s.fitted n = true) ∧ ((s.coreOf (pairOf n)).attached = none) ∧ ((s.ctlOf n).attachHeld = none) ∧ (s.slState n ≠ slOff) ∧
(s.slState n ≠ slRecovering) :=
  ⟨W.mon 1, ⟨0, 5, true, 1⟩, W.sess 1, 0, by decide +kernel⟩

theorem witness_ColbelDebugging_2 : ∃ (s : State) (q : ColbelReq) (x : Session) (n : Pair), (s.serves q x 0 = true) ∧
(x.auth ≠ 1) :=
  ⟨W.mon 0, ⟨0, 5, true, 1⟩, W.sess 0, 0, by decide +kernel⟩

theorem witness_ColbelDebugging_3 : ∃ (s : State) (q : ColbelReq) (x : Session) (n : Slice), (s.serves q x 1 = true) ∧
(s.fitted n = true) ∧ (s.attachedTo n q.sess = true) :=
  ⟨W.att, ⟨0, 5, true, 1⟩, W.sess 1, 0, by decide +kernel⟩

theorem witness_ColbelDebugging_4 : ∃ (s : State) (q : ColbelReq) (x : Session) (n : Slice), (s.serves q x 1 = true) ∧
(s.fitted n = true) ∧ (s.attachedTo n q.sess = true) ∧ ((s.coreOf (pairOf n)).dbgHalt = false) ∧ ((s.coreOf (pairOf
n)).halted = false) ∧ ((s.coreOf (pairOf n)).wfe = false) :=
  ⟨W.att, ⟨0, 5, true, 1⟩, W.sess 1, 0, by decide +kernel⟩

theorem witness_ColbelDebugging_5 : ∃ (s : State) (n : Slice) (k : Fin 4) (q : Nat) (x : Session), (s.dbg.haltReq.get n =
some (k.val, q)) ∧ (s.dbg.sess.get k = some x) ∧ (s.colbelAvail = true) ∧ (s.atBoundary (pairOf n) = true) ∧ (s.slState n ≠
slRecovering) :=
  ⟨{ W.att with dbg := { W.att.dbg with haltReq := W.att.dbg.haltReq.set 0 (some (0, 5)) } }, 0, 0, 5, W.sess 1, by
  decide +kernel⟩

theorem witness_ColbelDebugging_6 : ∃ (s : State) (q : ColbelReq) (x : Session) (n : Slice), (s.serves q x 1 = true) ∧
(s.fitted n = true) ∧ (s.dbg.steps.get n = none) ∧ ((s.coreOf (pairOf n)).dbgHalt = true) ∧ ((s.coreOf (pairOf n)).halted =
false) ∧ (s.slState n ≠ slFenced) :=
  ⟨W.held, ⟨0, 5, true, 1⟩, W.sess 1, 0, by decide +kernel⟩

theorem witness_ColbelDebugging_7 : ∃ (s : State) (q : ColbelReq) (x : Session) (n : Slice), (s.serves q x 1 = true) ∧
(s.fitted n = true) ∧ ((s.coreOf (pairOf n)).dbgHalt = false ∨ (s.coreOf (pairOf n)).halted = true ∨ s.slState n =
slFenced) :=
  ⟨W.att, ⟨0, 5, true, 1⟩, W.sess 1, 0, by decide +kernel⟩

theorem witness_ColbelDebugging_8 : ∃ (s : State) (q : ColbelReq) (x : Session) (n : Slice) (i : Kn), (s.serves q x 1 =
true) ∧ (s.fitted n = true) ∧ (s.dbg.steps.get n = none) ∧ ((s.coreOf (pairOf n)).dbgHalt = true) ∧ (s.pairRuns (pairOf n)
true = true) ∧ (s.atBoundary (pairOf n) = true) ∧ ((s.setCore (pairOf n)
{ s.coreOf (pairOf n) with dbgHalt := false }).issues (pairOf n) i = true) ∧ (i.op = .nop) :=
  ⟨W.held, ⟨0, 5, true, 1⟩, W.sess 1, 0, ⟨.nop, 0, 0, 0, 0⟩, by decide +kernel⟩

theorem witness_ColbelDebugging_9 : ∃ (s : State) (q : ColbelReq) (x : Session) (n : Slice) (k : BitVec 16) (b : Bool),
(s.serves q x 1 = true) ∧ (s.fitted n = true) ∧ (k = 0 ∨ (s.coreOf (pairOf n)).dbgHalt = false ∨ s.pairRuns (pairOf n) true
= false) :=
  ⟨W.att, ⟨0, 5, true, 1⟩, W.sess 1, 0, 1, false, by decide +kernel⟩

theorem witness_ColbelDebugging_10 : ∃ (s : State) (q : ColbelReq) (x : Session) (n : Slice) (g : CoreReg), (s.serves q x 1
= true) ∧ (s.fitted n = true) ∧ (g = .x ∨ g = .pc ∨ g = .a ∨ g = .cap 2 5) :=
  ⟨W.mon 1, ⟨0, 5, true, 1⟩, W.sess 1, 0, .pc, by decide +kernel⟩

theorem witness_ColbelDebugging_11 : ∃ (s : State) (q : ColbelReq) (x : Session) (n : Slice) (v : BitVec 40) (g : BitVec
4), (s.serves q x 1 = true) ∧ (s.fitted n = true) ∧ (s.stopped n = true) ∧ (g ≠ tagCap) :=
  ⟨W.held, ⟨0, 5, true, 1⟩, W.sess 1, 0, 5, tagInt, by decide +kernel⟩

theorem witness_ColbelDebugging_12 : ∃ (s : State) (q : ColbelReq) (x : Session) (n : Slice) (g : CoreReg) (v : BitVec 40)
(u : BitVec 4), (s.serves q x 1 = true) ∧ (s.fitted n = true) ∧ (s.stopped n = false ∨ u = tagCap) :=
  ⟨W.att, ⟨0, 5, true, 1⟩, W.sess 1, 0, .x, 5, tagInt, by decide +kernel⟩

theorem witness_ColbelDebugging_13 : ∃ (s : State) (q : ColbelReq) (x : Session) (n : Slice) (i : Fin 4) (pc : BitVec 17)
(m : BitVec 8), (s.serves q x 1 = true) ∧ (s.fitted n = true) :=
  ⟨W.mon 1, ⟨0, 5, true, 1⟩, W.sess 1, 0, 2, 8, 1, by decide +kernel⟩

theorem witness_ColbelDebugging_14 : ∃ (s : State) (q : ColbelReq) (x : Session) (n : Slice) (i : Fin 2) (base : Word) (len
: Nat) (rd wr : Bool) (v : Option Word), (s.serves q x 1 = true) ∧ (s.fitted n = true) ∧ (4 ≤ len) ∧ (len ≤ 65536) :=
  ⟨W.mon 1, ⟨0, 5, true, 1⟩, W.sess 1, 0, 1, 0x02080000, 4, true, false, none, by decide +kernel⟩

theorem witness_ColbelDebugging_15 : ∃ (s : State) (q : ColbelReq) (x : Session) (n : Slice) (i : Fin 2) (base : Word) (len
: Nat) (rd wr : Bool) (v : Option Word), (s.serves q x 1 = true) ∧ (s.fitted n = true) ∧ (len < 4 ∨ 65536 < len) :=
  ⟨W.mon 1, ⟨0, 5, true, 1⟩, W.sess 1, 0, 1, 0x02080000, 3, true, false, none, by decide +kernel⟩

theorem witness_ColbelDebugging_16 : ∃ (s : State) (n : Slice) (b : Bp), (s.bpMatch n = some b) ∧ ((s.coreOf (pairOf
n)).dbgHalt = false) :=
  ⟨W.bp, 0, ⟨8, 255, 0⟩, by decide +kernel⟩

theorem witness_ColbelDebugging_17 : ∃ (s : State) (n : Slice), (s.bpMatch n = none) :=
  ⟨W.up, 0, by decide +kernel⟩

theorem witness_ColbelDebugging_18 : ∃ (s : State) (n : Slice), (s.dbg.wpHit.get n = none) :=
  ⟨W.up, 0, by decide +kernel⟩

theorem witness_ColbelDebugging_19 : ∃ (s : State) (n : Slice) (k : Nat), (s.dbg.wpHit.get n = some k) ∧ (s.atGroup (pairOf
n) = true) :=
  ⟨{ W.att with dbg := { W.att.dbg with wpHit := .replicate 12 (some 0) } }, 0, 0, by decide +kernel⟩

theorem witness_ColbelDebugging_20 : ∃ (s : State) (q : ColbelReq) (x : Session) (a : Word), (s.serves q x 3 = true) ∧
(s.cellsOk a.toNat 1 = true) ∧ (sessCovers a.toNat = true) ∧ ((s.cell a.toNat).tag ≠ tagCap) ∧ (x.auth = 1 ∨ (s.cell
a.toNat).tag ≠ tagRaw) :=
  ⟨W.mon 2, ⟨0, 5, true, 1⟩, W.sess 2, 0x02080000, by decide +kernel⟩

theorem witness_ColbelDebugging_21 : ∃ (s : State) (q : ColbelReq) (x : Session) (a : Word), (s.serves q x 3 = true) ∧
(s.cellsOk a.toNat 1 = true) ∧ (sessCovers a.toNat = true) ∧ (x.auth = 2) ∧ ((s.cell a.toNat).tag = tagRaw) :=
  ⟨(W.mon 2).setCell 0x02080000 ⟨5, tagRaw⟩, ⟨0, 5, true, 1⟩, W.sess 2, 0x02080000, by decide +kernel⟩

theorem witness_ColbelDebugging_22 : ∃ (s : State) (q : ColbelReq) (x : Session) (a : Word) (k : Nat), (s.serves q x 3 =
true) ∧ (s.sessWaits (cellAddrs a k) = false) ∧ (k = 0 ∨ 256 < k) :=
  ⟨W.mon 2, ⟨0, 5, true, 1⟩, W.sess 2, 0x02080000, 0, by decide +kernel⟩

theorem witness_ColbelDebugging_23 : ∃ (s : State) (q : ColbelReq) (x : Session) (a : Word) (d : Cell), (s.serves q x 3 =
true) ∧ (x.auth = 1) ∧ (s.cellsOk a.toNat 1 = true) ∧ (sessCovers a.toNat = true) ∧ ((s.cell a.toNat).tag ≠ tagCap) ∧
(d.tag ≠ tagCap) :=
  ⟨W.mon 1, ⟨0, 5, true, 1⟩, W.sess 1, 0x02080000, ⟨6, tagInt⟩, by decide +kernel⟩

theorem witness_ColbelDebugging_24 : ∃ (s : State) (q : ColbelReq) (x : Session) (a : Word) (d : Cell), (s.serves q x 3 =
true) ∧ (x.auth = 2) ∧ (isCells a.toNat = true) ∧ (s.accessWaits a.toNat = false) :=
  ⟨W.mon 2, ⟨0, 5, true, 1⟩, W.sess 2, 0x02080000, ⟨6, tagInt⟩, by decide +kernel⟩

theorem witness_ColbelDebugging_25 : ∃ (s : State) (q : ColbelReq) (x : Session) (n : Slice) (m : BitVec 8), (s.serves q x
2 = true) ∧ (s.fitted n = true) ∧ (s.mode = mdService) :=
  ⟨(W.mon 2).setF R.DEV_MODE F.DEV_MODE_MODE mdService, ⟨0, 5, true, 1⟩, W.sess 2, 0, 5, by decide +kernel⟩

theorem witness_ColbelDebugging_26 : ∃ (s : State) (q : ColbelReq) (x : Session) (n : Slice) (m : BitVec 8), (s.serves q x
2 = true) ∧ (s.fitted n = true) ∧ (s.mode ≠ mdService) :=
  ⟨W.mon 2, ⟨0, 5, true, 1⟩, W.sess 2, 0, 5, by decide +kernel⟩

theorem witness_ColbelDebugging_27 : ∃ (s : State) (q : ColbelReq) (x : Session) (n : Slice) (v e : Word), (s.serves q x 3
= true) ∧ (s.fitted n = true) ∧ (F.STP_CTRL_LEVEL.get v ≠ 3) :=
  ⟨W.mon 1, ⟨0, 5, true, 1⟩, W.sess 1, 0, 0x123, 0xFF, by decide +kernel⟩

theorem witness_TraceAndPerturbation_1 : ∃ (s : State) (x : Access) (e : Engine) (p : Fin 24) (c : Cell), ((x.m == .sys ||
(List.finRange 12).any (fun n => x.m == .core n)) = true) ∧ (s.busUp x.m = true) ∧ (s.reach x (postAddr e p) true = true) ∧
(s.absentSlice (postAddr e p) = false) ∧ (c.tag ≠ tagEmpty) ∧ (c.tag ≠ tagCap) ∧ (e.val < 12) ∧ (s.postOn e p = true) ∧
((s.trcOf e).queue.length < 12) :=
  ⟨W.trace 0 [], W.own, 0, 3, ⟨9, tagInt⟩, by decide +kernel⟩

theorem witness_TraceAndPerturbation_2 : ∃ (s : State) (x : Access) (e : Engine) (p : Fin 24) (c : Cell), ((x.m == .sys ||
(List.finRange 12).any (fun n => x.m == .core n)) = true) ∧ (s.busUp x.m = true) ∧ (s.reach x (postAddr e p) true = true) ∧
(s.absentSlice (postAddr e p) = false) ∧ (c.tag ≠ tagEmpty) ∧ (c.tag ≠ tagCap) ∧ (e.val < 12) ∧ (s.postOn e p = false) :=
  ⟨W.up, W.own, 0, 3, ⟨9, tagInt⟩, by decide +kernel⟩

theorem witness_TraceAndPerturbation_3 : ∃ (s : State) (x : Access) (e : Engine) (p : Fin 24) (c : Cell), ((x.m == .sys ||
(List.finRange 12).any (fun n => x.m == .core n)) = true) ∧ (s.busUp x.m = true) ∧ (s.reach x (postAddr e p) true = true) ∧
(s.absentSlice (postAddr e p) = false) ∧ (c.tag ≠ tagEmpty) ∧ (c.tag ≠ tagCap) ∧ (e.val < 12) ∧ (s.postOn e p = true) ∧ (12
≤ (s.trcOf e).queue.length) ∧ (postLevel p ≠ 0) :=
  ⟨W.trace 0 (List.replicate 12 W.packet), W.own, 0, 9, ⟨9, tagInt⟩, by decide +kernel⟩

theorem witness_TraceAndPerturbation_4 : ∃ (s : State) (e : Fin 13) (p : Packet) (l : List Packet) (k : Nat) (y : Session),
(s.mergeFrom ≤ s.clock) ∧ (s.mergePick = some e) ∧ ((s.trcOf e).queue = p :: l) ∧ (e.val < 12) ∧ (s.getF (R.STP_CTRL e)
F.STP_CTRL_DEST = 3) ∧ (s.getF (R.STP_CTRL e) F.STP_CTRL_SESSION = k) ∧ (s.dbg.sess.toList[k]? = some (some y)) :=
  ⟨W.trace 3 [W.packet], 0, W.packet, [], 0, W.sess 1, by decide +kernel⟩

theorem witness_TraceAndPerturbation_5 : ∃ (s : State) (e : Fin 13) (p : Packet) (l : List Packet), (s.mergeFrom ≤ s.clock)
∧ (s.mergePick = some e) ∧ ((s.trcOf e).queue = p :: l) ∧ (e.val < 12) ∧ (s.getF (R.STP_CTRL e) F.STP_CTRL_DEST = 0) :=
  ⟨(W.trace 0 [W.packet]).setReg (R.STP_CTRL 0) 0, 0, W.packet, [], by decide +kernel⟩

theorem witness_TraceAndPerturbation_6 : ∃ (s : State), (∀ e : Fin 13, (s.trcOf e).queue = []) :=
  ⟨W.up, by decide +kernel⟩

theorem witness_TraceAndPerturbation_7 : ∃ (s : State) (k : Fin 4) (y : Session), (s.dbg.sess.get k = some y) ∧ (y.trace ≠
[]) ∧ (s.colbelAvail = true) :=
  ⟨let s0 := W.mon 1; { s0 with dbg := { s0.dbg with sess := .replicate 4 (some W.tracing) } }, 2, W.tracing, by
  decide +kernel⟩

theorem witness_TraceAndPerturbation_8 : ∃ (s : State) (k : Fin 4), (s.colbelAvail = false ∨ s.dbg.sess.get k = none) :=
  ⟨W.up, 2, by decide +kernel⟩

theorem witness_TraceAndPerturbation_9 : ∃ (s : State) (x : Access) (e : Engine) (v : Word), (s.reaches x (R.PTB_CTRL e) =
true) ∧ (s.ptbMay x = true) ∧ (v = 0x80000000) ∧ (s.isSet (R.PTB_CTRL e) F.PTB_CTRL_EN = false) ∧ ((s.ptbCause.get e).map
(·.1) ≠ some s.clock) :=
  ⟨W.up.setF (R.PTB_BANK 0) F.PTB_BANK_CYCLES 3, ⟨.core 0, false, true⟩, 0, 0x80000000, by decide +kernel⟩

theorem witness_TraceAndPerturbation_10 : ∃ (s : State) (x : Access) (e : Engine) (v : Word), (s.reaches x (R.PTB_CTRL e) =
true) ∧ (s.ptbMay x = true) ∧ (v = 0) ∧ (s.isSet (R.PTB_CTRL e) F.PTB_CTRL_EN = true) :=
  ⟨W.up.setF (R.PTB_CTRL 0) F.PTB_CTRL_EN 1, ⟨.core 0, false, true⟩, 0, 0, by decide +kernel⟩

theorem witness_TraceAndPerturbation_11 : ∃ (s : State) (x : Access) (e : Engine) (v : Word) (k : Nat), (s.reaches x
(R.PTB_CTRL e) = true) ∧ (s.ptbMay x = true) ∧ (v = 0x80000000) ∧ (s.isSet (R.PTB_CTRL e) F.PTB_CTRL_EN = false) ∧
(s.ptbCause.get e = some (s.clock, k)) ∧ (k < 8) :=
  ⟨{ W.up with ptbCause := W.up.ptbCause.set 0 (some (W.up.clock, 3)) }, ⟨.core 0, false, true⟩, 0, 0x80000000, 3, by
  decide +kernel⟩

theorem witness_TraceAndPerturbation_12 : ∃ (s : State) (x : Access) (e : Engine) (v : Word), (s.reaches x (R.PTB_CTRL e) =
true) ∧ (s.ptbMay x = false) :=
  ⟨W.up, W.own, 0, 0x80000000, by decide +kernel⟩

theorem witness_RegisterAccess_1 : ∃ (s : State) (x : Access) (a : Nat) (v ev : Word), (s.reaches x a = true) ∧ (a =
R.AON_ALARM ∨ a = R.AON_RTC_SEC ∨ a = R.FLC_PBUF 5) :=
  ⟨W.up, W.sys, R.AON_ALARM, 9, 3, by decide +kernel⟩

theorem witness_RegisterAccess_2 : ∃ (s : State) (x : Access) (a : Nat) (v : Word), (s.reaches x a = true) ∧ (a =
R.PWR_STAT) :=
  ⟨W.up.setReg R.PWR_STAT 0xF000000F, W.sys, R.PWR_STAT, 0x5000000F, by decide +kernel⟩

theorem witness_RegisterAccess_3 : ∃ (s : State) (x : Access) (a : Nat) (v ev : Word), (s.reaches x a = true) ∧ (a =
R.PWR_STAT) ∧ (s.reg a &&& (v &&& 0xF0000000) ≠ 0) :=
  ⟨W.up.setReg R.PWR_STAT 0xF000000F, W.sys, R.PWR_STAT, 0x5000000F, 0x40000000, by decide +kernel⟩

theorem witness_RegisterAccess_5 : ∃ (s : State) (x : Access) (a : Nat) (v : Word), (x.m = .sys ∨ x.m = .fn 0) ∧ (s.busUp
x.m = true) ∧ (s.early x.m a true = false) ∧ (s.discards x.m a = false) ∧ (0x01100000 ≤ a) ∧ (a < 0x01110000) ∧ (a % 4 = 0)
∧ ((rowAt a).isNone = true) ∧ (s.unreserved x a = true) :=
  ⟨W.up, W.sys, 0x01100030, 9, by decide +kernel⟩

theorem witness_RegisterAccess_6 : ∃ (s : State) (x : Access) (a : Nat) (v ev : Word), (s.reaches x a = true) ∧ (a =
R.PWR_VIN ∨ a = R.PWR_HOLDUP ∨ a = R.PWR_CLK) :=
  ⟨W.up, W.sys, R.PWR_VIN, 9, 3, by decide +kernel⟩

theorem witness_RegisterAccess_7 : ∃ (s : State) (x : Access) (a : Nat) (v : Word) (n : Slice), (x.m = .core n) ∧ (s.busUp
x.m = true) ∧ (a % 4 ≠ 0 ∨ s.reach x a true = false) :=
  ⟨W.up, W.own, R.PWR_STAT, 9, 0, by decide +kernel⟩

theorem witness_RegisterAccess_8 : ∃ (s : State) (x : Access) (a : Nat) (be : BitVec 4) (v : Word) (n : Slice), (x.m =
.core n) ∧ (s.busUp x.m = true) ∧ (be ≠ 15) :=
  ⟨W.up, W.own, R.GRG_TRANS 0 3, 3, 9, 0, by decide +kernel⟩

theorem witness_RegisterAccess_9 : ∃ (s : State) (x : Access) (a : Nat) (be : BitVec 4) (n : Slice), (x.m = .core n) ∧
(s.busUp x.m = true) ∧ (be ≠ 15) :=
  ⟨W.up, W.own, R.GRG_TRANS 0 3, 3, 0, by decide +kernel⟩

theorem witness_RegisterAccess_10 : ∃ (s : State) (x : Access) (a : Nat) (ev : Word), (s.answers x a = true) ∧ (x.m ≠ .mon)
∧ (a = R.DEV_ARM_REJ ∨ a = R.HIF_BADACC) ∧ (s.reg a ≠ 0) :=
  ⟨W.up.setReg R.DEV_ARM_REJ 7, W.sys, R.DEV_ARM_REJ, 1, by decide +kernel⟩

theorem witness_RegisterAccess_11 : ∃ (s : State) (x : Access) (a : Nat), (s.answers x a = true) ∧ (x.m ≠ .mon) ∧ (a =
R.DEV_ARM_REJ ∨ a = R.HIF_BADACC) :=
  ⟨W.up.setReg R.DEV_ARM_REJ 7, W.sys, R.DEV_ARM_REJ, by decide +kernel⟩

theorem witness_RegisterAccess_12 : ∃ (s : State) (x : Access) (n i : Slice) (a : Nat), (a = R.GRG_TRANS n i) ∧ (s.answers
x a = true) ∧ (x.m ≠ .mon) :=
  ⟨W.up.setReg (R.GRG_TRANS 0 3) 7, W.own, 0, 3, R.GRG_TRANS 0 3, by decide +kernel⟩

theorem witness_RegisterAccess_13 : ∃ (s : State) (x : Access) (a : Nat), (s.answers x a = true) ∧ (x.m = .mon) :=
  ⟨W.up.setReg R.DEV_ARM_REJ 7, ⟨.mon, true, false⟩, R.DEV_ARM_REJ, by decide +kernel⟩

theorem witness_ModeRequestRefusals_1 : ∃ (s : State) (x : Access) (v : Word), (s.reaches x R.DEV_MODE_REQ = true) ∧
(F.DEV_MODE_REQ_KEY.get v = 0x4D0D) ∧ (F.DEV_MODE_REQ_TARGET.get v ≤ 5) ∧ (s.isSet R.DEV_MODE F.DEV_MODE_CHANGING = true ∨
s.mode = mdStart) :=
  ⟨W.up.setF R.DEV_MODE F.DEV_MODE_CHANGING 1, W.sys, F.DEV_MODE_REQ_KEY.word 0x4D0D ||| F.DEV_MODE_REQ_TARGET.word 2, by
  decide +kernel⟩

theorem witness_ModeRequestRefusals_2 : ∃ (s : State) (x : Access) (v : Word), (s.reaches x R.DEV_MODE_REQ = true) ∧
(F.DEV_MODE_REQ_KEY.get v = 0x4D0D) ∧ (F.DEV_MODE_REQ_TARGET.get v ≤ 5) ∧ (s.isSet R.DEV_MODE F.DEV_MODE_CHANGING = false)
∧ (s.mode ≠ mdStart) ∧ (F.DEV_MODE_REQ_TARGET.get v = mdHil) ∧ (s.part = .esk7208) :=
  ⟨{ W.up with part := .esk7208 }, W.sys, F.DEV_MODE_REQ_KEY.word 0x4D0D ||| F.DEV_MODE_REQ_TARGET.word 5, by
  decide +kernel⟩

theorem witness_RingRegistersLocked_1 : ∃ (s : State) (x : Access) (a : Nat) (v : Word) (f : Func) (r : Fin 8), (s.reaches
x a = true) ∧ (a ∈ ringRegs f r) ∧ (s.fnEn f = true ∨ s.enPending f = true) :=
  ⟨W.fn [], ⟨.fn 1, false, false⟩, R.RNG_SQ_LO 1 2, 0x1000, 1, 2, by decide +kernel⟩

theorem witness_RingRegistersLocked_2 : ∃ (s : State) (x : Access) (a : Nat) (v : Word) (f : Func) (r : Fin 8), (s.reaches
x a = true) ∧ (a = R.RNG_SQ_LO f r ∨ a = R.RNG_CQ_LO f r ∨ a = R.RNG_SQ_HI f r ∨ a = R.RNG_EDGE_LO f) ∧ (v &&& 0xFFF = 0) ∧
(s.fnEn f = false) ∧ (s.enPending f = false) :=
  ⟨W.up, ⟨.fn 1, false, false⟩, R.RNG_SQ_LO 1 2, 0x1000, 1, 2, by decide +kernel⟩

theorem witness_SecWriteAuthority_1 : ∃ (s : State) (x : Access) (a : Nat) (v : Word), (0x01100000 ≤ a) ∧ (a < 0x01110000)
∧ (a % 4 = 0) ∧ ((rowAt a).isSome = true) ∧ (a ≠ R.SEC_TAMPER) ∧ (a ≠ R.SEC_LC_REQ) ∧ (s.busUp x.m = true) ∧ (s.isSet
R.DEV_BOOT_STAT F.DEV_BOOT_STAT_DONE = true) ∧ (secMaster x = false) :=
  ⟨W.up, W.own, R.SEC_CMD, 5, by decide +kernel⟩

theorem witness_SecWriteAuthority_2 : ∃ (s : State) (a : Nat), (0x01100000 ≤ a) ∧ (a < 0x01110000) ∧ (a % 4 = 0) ∧ (s.busUp
(.fn 0) = true) ∧ (s.isSet R.DEV_BOOT_STAT F.DEV_BOOT_STAT_DONE = true) :=
  ⟨W.up, R.SEC_KEYSTAT, by decide +kernel⟩

theorem witness_SealedRequestsRunOnce_1 : ∃ (s : State) (c : Instr) (q : ColbelReq) (y : Session) (l : Nat) (r : Resp),
(sealedReq c = some q) ∧ (s.sealedWaits c = false) ∧ (s.dbg.sess.get q.sess = some y) ∧ (s.colbelAvail = true) ∧ (s.waits
q.tr = true) ∧ (q.tagOk = true) ∧ (y.last = some l) ∧ (l = q.seq.toNat) ∧ (y.resp = some r) :=
  ⟨W.replay, .keepalive ⟨0, 5, true, 1⟩, ⟨0, 5, true, 1⟩, W.again, 5, ⟨16, 0, []⟩, by decide +kernel⟩

theorem witness_SealedRequestsRunOnce_2 : ∃ (s : State) (c : Instr) (q : ColbelReq) (y : Session) (l : Nat), (sealedReq c =
some q) ∧ (s.sealedWaits c = false) ∧ (s.dbg.sess.get q.sess = some y) ∧ (s.colbelAvail = true) ∧ (s.waits q.tr = true) ∧
(q.tagOk = true) ∧ (y.last = some l) ∧ (q.seq.toNat < l) :=
  ⟨W.replay, .keepalive ⟨0, 4, true, 1⟩, ⟨0, 4, true, 1⟩, W.again, 5, by decide +kernel⟩

end Machine
end Sys2Proof
end

section
/-! PROOFS. The module right after reset. -/

namespace Sys2Proof
namespace Machine

/-- Every SLC_STATE holds the code of OFF after reset. -/
theorem resetOf_SLC_STATE (n : Slice) : F.SLC_STATE_STATE.get (resetOf (R.SLC_STATE n)) = slOff := by
  revert n
  decide +kernel

theorem State.reset_reg (a : Nat) : State.reset.reg a = resetOf a := rfl

theorem State.reset_cell (a : Nat) (h : inCopy a = false) : State.reset.cell a = cellDefault a := by
  simp only [State.cell, h, Bool.false_eq_true, if_false, State.reset, SMap.get, cellDefault, inMain_cell]

theorem State.reset_slState (n : Slice) : State.reset.slState n = slOff := by
  rw [State.slState, State.getF, State.reset_reg, resetOf_SLC_STATE]

theorem State.reset_armed (n : Nat) : State.reset.armed n = false := by
  have h : State.reset.getF R.DEV_ARM F.DEV_ARM_ARM = 0 := by decide +kernel
  simp only [State.armed, h, natBit, Nat.zero_testBit]

theorem State.reset_pw (n : Slice) (k : Fin 8) : State.reset.pw n k = resetPwm := by
  simp only [State.pw, State.reset, vget_replicate]

theorem State.reset_pinsLow (n : Slice) (k : Fin 8) : State.reset.PinsLow n k := by
  rw [State.PinsLow, State.reset_pw]
  exact ⟨rfl, rfl⟩

/-- Nothing is listed in any sparse map after reset. -/
theorem State.reset_canonical : State.reset.Canonical where
  regs := SMap.wf_nil _
  cells := SMap.wf_nil _
  prog := SMap.wf_nil _
  mstore := SMap.wf_nil _
  mcopy := SMap.wf_nil _
  words := SMap.wf_nil _
  info := SMap.wf_nil _
  routes := SMap.wf_nil _
  batches := SMap.wf_nil _

theorem State.reset_cellsPlaced : State.reset.CellsPlaced := fun _ h => nomatch h

/-- Settles O57: nothing is listed after reset, so that every register and cell reads its default. -/
theorem resetState : Obligations.ResetState := by
  have hmode : State.reset.mode = mdStart := by decide +kernel
  exact ⟨⟨rfl, hmode, rfl, State.reset_reg, State.reset_cell⟩,
    fun n => ⟨State.reset_slState n, State.reset_armed n, State.reset_pinsLow n⟩,
    State.reset_canonical, State.reset_cellsPlaced⟩

end Machine
end Sys2Proof
end

section
/-! PROOFS. Register accesses: what a served, a refused and an inspecting access come down to (R8, R9, R10, R227, R467). -/

namespace Sys2Proof
namespace Machine

/-! What an update of one register comes to. -/

/-- `t` is `s` with the word `w` in the register at `a`. -/
structure State.Rewrites (s t : State) (a : Nat) (w : Word) : Prop where
  word : t.reg a = w
  rest : t = { s with regs := t.regs }
  kept : s.RegsKept t (· == a)

theorem State.rewrites_setReg (s : State) (a : Nat) (w : Word) : s.Rewrites (s.setReg a w) a w where
  word := s.reg_setReg_self a w
  rest := rfl
  kept b hb := s.reg_setReg_ne a w b (by simpa using hb)

theorem State.Rewrites.setReg {s t : State} {a : Nat} {w : Word} (h : s.Rewrites t a w) (w' : Word) :
    s.Rewrites (t.setReg a w') a w' where
  word := t.reg_setReg_self a w'
  rest := congrArg (fun u : State => u.setReg a w') h.rest
  kept b hb := (t.reg_setReg_ne a w' b (by simpa using hb)).trans (h.kept b hb)

/-- Setting a field of all 32 bits sets the word. -/
theorem Fld.put_whole (w : Word) (v : Nat) : Fld.put ⟨0, 32⟩ w v = BitVec.ofNat 32 v := by
  apply BitVec.eq_of_getLsbD_eq
  intro i hi
  rw [Fld.put_getLsbD _ (by decide), if_pos (by simpa using hi), BitVec.getLsbD_ofNat]
  simp [hi]

theorem Fld.get_whole (w : Word) : Fld.get ⟨0, 32⟩ w = w.toNat := by
  simpa [Fld.get] using w.isLt

/-- What HIF_BADACC holds after one more refused access. -/
def State.badAccNext (s : State) : Word := BitVec.ofNat 32 (min 4294967295 ((s.reg R.HIF_BADACC).toNat + 1))

/-- A refused access adds one to HIF_BADACC, which stays at its largest value (R8). -/
theorem State.badAcc_eq (s : State) : s.badAcc = s.setReg R.HIF_BADACC s.badAccNext := by
  have hsat : satInc 4294967295 (s.reg R.HIF_BADACC).toNat = min 4294967295 ((s.reg R.HIF_BADACC).toNat + 1) := by
    have := (s.reg R.HIF_BADACC).isLt
    unfold satInc
    split <;> omega
  simp only [State.badAcc, State.count, State.setF, State.getF, F.HIF_BADACC_COUNT, Fld.put_whole, Fld.get_whole]
  exact congrArg (fun k => s.setReg R.HIF_BADACC (BitVec.ofNat 32 k)) hsat

/-! An event in the cycle of an access (R10). -/

theorem clearedBy_zero (a : Nat) : clearedBy a 0 = 0 := by
  unfold clearedBy
  split <;> simp

/-- What an event sets or adds in the bits that a clear of the row's register takes. -/
theorem clearedBy_of_row {a : Nat} {d : RegDesc} (h : rowAt a = some d) (ev : Word) :
    clearedBy a ev = ev &&& (d.rc ||| d.w1c) := by
  simp only [clearedBy, h]

/-- An event sets and adds nothing in a register with no bits that a read or a 1 clears. -/
theorem clearedBy_of_noClear {a : Nat} (h : (rowAt a).all (fun d => d.rc ||| d.w1c == 0) = true) (ev : Word) :
    clearedBy a ev = 0 := by
  cases hrow : rowAt a with
  | none => simp only [clearedBy, hrow]
  | some d =>
    have hd : d.rc ||| d.w1c = 0 := by simpa only [hrow, Option.all_some, beq_iff_eq] using h
    rw [clearedBy_of_row hrow, hd]
    exact BitVec.and_zero

theorem State.keepWritten_of_clearedBy (t s : State) {a : Nat} {ev : Word} (h : clearedBy a ev = 0) :
    t.keepWritten s a ev = t := by
  simp [State.keepWritten, h]

theorem State.keepWritten_zero (t s : State) (a : Nat) : t.keepWritten s a 0 = t :=
  t.keepWritten_of_clearedBy s (clearedBy_zero a)

theorem State.keepWritten_self (s : State) (a : Nat) (ev : Word) : s.keepWritten s a ev = s := by
  simp [State.keepWritten]

/-- A write that has changed the word leaves in it what an event of its cycle set. -/
theorem State.Rewrites.keepWritten {s t : State} {a : Nat} {w : Word} (h : s.Rewrites t a w) (hne : w ≠ s.reg a)
    (ev : Word) : s.Rewrites (t.keepWritten s a ev) a (w ||| clearedBy a ev) := by
  by_cases hc : clearedBy a ev = 0
  · rw [t.keepWritten_of_clearedBy s hc, hc]
    simpa using h
  · have hk : t.keepWritten s a ev = t.setReg a (w ||| clearedBy a ev) := by
      rw [State.keepWritten, h.word]
      exact if_neg (by simp only [Bool.or_eq_true, beq_iff_eq, hne, hc, or_self, not_false_eq_true])
    rw [hk]
    exact h.setReg _

theorem State.keepRead_of_clearedBy (t s : State) {a : Nat} {ev : Word} (h : clearedBy a ev = 0) :
    t.keepRead s a ev = t := by
  simp [State.keepRead, h]

theorem State.keepRead_zero (t s : State) (a : Nat) : t.keepRead s a 0 = t :=
  t.keepRead_of_clearedBy s (clearedBy_zero a)

/-- `t` is `s` with the word `w` in the register at `a`, and `r` returned. -/
structure State.Returns (s t : State) (a : Nat) (r w : Word) : Prop where
  out : t.busOut = r
  word : t.reg a = w
  rest : t = { s with regs := t.regs, busOut := t.busOut }
  kept : s.RegsKept t (· == a)

theorem State.returns_setReg (s : State) (a : Nat) (r w : Word) : s.Returns { s.setReg a w with busOut := r } a r w where
  out := rfl
  word := s.reg_setReg_self a w
  rest := rfl
  kept := (s.rewrites_setReg a w).kept

/-- A read that has changed the word leaves in it what an event of its cycle added, and does not return that. -/
theorem State.Returns.keepRead {s t : State} {a : Nat} {r w : Word} (h : s.Returns t a r w) (hne : w ≠ s.reg a)
    (ev : Word) : s.Returns (t.keepRead s a ev) a (r - clearedBy a ev) (w ||| clearedBy a ev) := by
  by_cases hc : clearedBy a ev = 0
  · rw [t.keepRead_of_clearedBy s hc, hc]
    simpa using h
  · have hk : t.keepRead s a ev = { t.setReg a (w ||| clearedBy a ev) with busOut := r - clearedBy a ev } := by
      rw [State.keepRead, h.word, h.out]
      exact if_neg (by simp only [Bool.or_eq_true, beq_iff_eq, hne, hc, or_self, not_false_eq_true])
    rw [hk]
    exact {
      out := rfl
      word := t.reg_setReg_self a _
      rest := congrArg
        (fun u : State => { u.setReg a (w ||| clearedBy a ev) with busOut := r - clearedBy a ev }) h.rest
      kept := fun b hb => (t.reg_setReg_ne a _ b (by simpa using hb)).trans (h.kept b hb) }

/-! Reservations that a write breaks (R227). -/

/-- `t` differs from `s` in what the core pairs hold alone, and in no pair's halt. -/
structure State.HaltsKept (s t : State) : Prop where
  rest : t = { s with core := t.core }
  halted : ∀ p, (t.coreOf p).halted = (s.coreOf p).halted

theorem State.HaltsKept.refl (s : State) : s.HaltsKept s := ⟨rfl, fun _ => rfl⟩

theorem State.loseResv_coreOf (s : State) (p q : Fin 13) : (s.loseResv p).coreOf q =
    if q = p then { s.coreOf p with lock := (s.coreOf p).lock.map (fun l => { l with good := false }) }
    else s.coreOf q := State.coreOf_setCore s p q _

theorem State.HaltsKept.loseResv {s t : State} (h : s.HaltsKept t) (p : Fin 13) : s.HaltsKept (t.loseResv p) where
  rest := congrArg (fun u : State => { u with core := (t.loseResv p).core }) h.rest
  halted q := by
    rw [State.loseResv_coreOf]
    split
    · next hq => exact hq ▸ h.halted q
    · exact h.halted q

theorem State.breakResv_haltsKept (s : State) (w : Option (Fin 13)) (a : Nat) : s.HaltsKept (s.breakResv w a) := by
  unfold State.breakResv
  refine foldl_keeps (State.HaltsKept s) _ _ s (State.HaltsKept.refl s) ?_
  intro t p ht
  split
  · exact ht
  · exact ht.loseResv p

/-- A pair whose reservation is broken reserves nothing, and the others' reservations stay. -/
theorem State.reserves_loseResv (s : State) (a : Nat) (p q : Fin 13) :
    (s.loseResv p).reserves a q = (q != p && s.reserves a q) := by
  unfold State.reserves
  rw [State.loseResv_coreOf]
  by_cases hq : q = p
  · simp only [hq, if_true, bne_self_eq_false, Bool.false_and]
    cases (s.coreOf p).lock <;> simp
  · simp [hq]

/-- A write of `w` to `a` breaks no reservation of pair p: p is `w`, or reserves something else. -/
def State.spares (w : Option (Fin 13)) (a : Nat) (s : State) (p : Fin 13) : Bool := w == some p || !s.reserves a p

theorem State.spares_loseResv_self (w : Option (Fin 13)) (a : Nat) (s : State) (p : Fin 13) :
    (s.loseResv p).spares w a p = true := by
  simp [State.spares, State.reserves_loseResv]

theorem State.spares_loseResv (w : Option (Fin 13)) (a : Nat) (s : State) (p q : Fin 13) (h : s.spares w a q = true) :
    (s.loseResv p).spares w a q = true := by
  simp only [State.spares, State.reserves_loseResv, Bool.not_and, Bool.or_eq_true] at h ⊢
  rcases h with h | h
  · exact .inl h
  · exact .inr (.inr h)

/-- After the reservations of the pairs in `l` are broken where they must be, a write spares each of them. -/
theorem State.spares_breakAll (w : Option (Fin 13)) (a : Nat) (l : List (Fin 13)) (s : State) (p : Fin 13)
    (h : p ∈ l ∨ s.spares w a p = true) :
    (l.foldl (fun (t : State) (q : Fin 13) => if w == some q || !t.reserves a q then t else t.loseResv q) s).spares w a p
      = true := by
  induction l generalizing s with
  | nil => simpa using h
  | cons q l ih =>
    rw [List.foldl_cons]
    apply ih
    rw [List.mem_cons, or_assoc, or_left_comm] at h
    refine h.imp_right (fun h => ?_)
    split
    · next hq => exact h.elim (fun e => e ▸ hq) id
    · exact h.elim (fun e => e ▸ s.spares_loseResv_self w a q) (s.spares_loseResv w a q p)

theorem State.unreserved_breakResv (s : State) (x : Access) (a : Nat) :
    (s.breakResv (pairBy x.m) a).unreserved x a = true :=
  List.all_eq_true.mpr (fun p _ => State.spares_breakAll (pairBy x.m) a _ s p (.inl (List.mem_finRange p)))

/-- Whether the bus answers, and what a master reaches, rest on nothing that a broken reservation changes. -/
theorem State.HaltsKept.takesWrite {s t : State} (h : s.HaltsKept t) (x : Access) (a : Nat) :
    t.takesWrite x a = s.takesWrite x a := by
  obtain ⟨hr, hh⟩ := h
  generalize t.core = c at hr
  subst hr
  have hup : State.busUp { s with core := c } x.m = s.busUp x.m := by
    unfold State.busUp
    cases x.m with
    | core n => simp only [hh]; rfl
    | fn | sys | mon | dma => rfl
  simp only [State.takesWrite, hup]
  rfl

theorem State.takesWrite_breakResv (s : State) (x : Access) (a : Nat) :
    (s.breakResv (pairBy x.m) a).takesWrite x a = s.takesWrite x a :=
  (s.breakResv_haltsKept (pairBy x.m) a).takesWrite x a

theorem State.reaches_breakResv (s : State) (x : Access) (a : Nat) :
    (s.breakResv (pairBy x.m) a).reaches x a = s.takesWrite x a := by
  rw [State.reaches, s.takesWrite_breakResv, s.unreserved_breakResv, Bool.and_true]

/-- A served write, of a reserved register too, is the effect of the register's unit. -/
theorem State.write_of_takesWrite (s : State) (x : Access) (a : Nat) (v : Word) (h : s.takesWrite x a = true) :
    s.write x a v = s.regWrite x a v := by
  simp only [State.takesWrite, Bool.and_eq_true, Bool.not_eq_true', beq_iff_eq] at h
  obtain ⟨⟨⟨⟨⟨⟨⟨hb, he⟩, ho⟩, hd⟩, h4⟩, hr⟩, -⟩, -⟩ := h
  simp only [State.write, State.busWrite, hb, he, hd, h4, hr, beq_self_eq_true, Bool.and_self, Bool.not_true,
    Bool.false_eq_true, if_false, if_true]
  cases hm : x.m with
  | fn f =>
    rw [hostOutside, hm] at ho
    simp only [show outsideBars a = false from ho, Bool.false_eq_true, if_false]
  | sys | core | dma | mon => rfl

/-- The reservations that a write breaks are broken before it takes effect: breaking them first changes nothing. -/
theorem State.regWrite_breakResv (s : State) (x : Access) (a : Nat) (v : Word) :
    (s.breakResv (pairBy x.m) a).regWrite x a v = s.regWrite x a v := by
  unfold State.regWrite
  rw [State.breakResv_unreserved _ x a (s.unreserved_breakResv x a)]

/-- A served write of a register that another pair has reserved breaks the reservation, and is then that write. -/
theorem State.write_breaks_resv (s : State) (x : Access) (a : Nat) (v : Word) (h : s.takesWrite x a = true) :
    s.write x a v = (s.breakResv (pairBy x.m) a).write x a v := by
  rw [s.write_of_takesWrite x a v h, State.write_of_takesWrite _ x a v (s.takesWrite_breakResv x a ▸ h),
    s.regWrite_breakResv]

/-! How REGISTER_WRITE and READ_CLEARS begin. -/

theorem exec_registerWrite (x : Access) (a : Nat) (be : BitVec 4) (ev v : Word) (s : State) :
    exec (.registerWrite x ⟨a, be, ev⟩ v) s = .next ((s.writeAt x a be v).keepWritten s a ev) := rfl

theorem exec_readClears (x : Access) (a : Nat) (be : BitVec 4) (ev : Word) (s : State) :
    exec (.readClears x ⟨a, be, ev⟩) s = .next ((s.readAt x a be).keepRead s a ev) := rfl

/-- All four bytes of a register are written as a word. -/
theorem State.writeAt_reg (s : State) (x : Access) (a : Nat) (v : Word) (h : isCells a = false) :
    s.writeAt x a 15 v = s.write x a v := by
  cases hm : x.m <;> simp [State.writeAt, hm, h]

theorem State.readAt_reg (s : State) (x : Access) (a : Nat) (h : spaceOf a = .reg) : s.readAt x a 15 = s.read x a := by
  cases hm : x.m <;> simp [State.readAt, hm, h, isCells]

theorem State.writeAt_core (s : State) (x : Access) (a : Nat) (v : Word) (n : Slice) (hm : x.m = .core n) :
    s.writeAt x a 15 v = s.write x a v := by
  simp [State.writeAt, hm]

/-- A core's write of a part of a word is refused, and so is its read (R8). -/
theorem State.writeAt_part (s : State) (x : Access) (a : Nat) (be : BitVec 4) (v : Word) (n : Slice) (hm : x.m = .core n)
    (hup : s.busUp x.m = true) (hbe : be ≠ 15) : s.writeAt x a be v = s.badAcc := by
  rw [hm] at hup
  simp only [State.writeAt, hm, hup, bne_iff_ne.mpr hbe, Bool.and_self, if_true, State.refuse]

theorem State.readAt_part (s : State) (x : Access) (a : Nat) (be : BitVec 4) (n : Slice) (hm : x.m = .core n)
    (hup : s.busUp x.m = true) (hbe : be ≠ 15) : s.readAt x a be = { s.badAcc with busOut := 0xFFFFFFFF } := by
  rw [hm] at hup
  simp only [State.readAt, hm, hup, bne_iff_ne.mpr hbe, Bool.and_self, if_true, State.readOut, State.refuse]

/-- A core's write to an address that is misaligned or out of its reach is refused. -/
theorem State.write_refused_core (s : State) (x : Access) (a : Nat) (v : Word) (n : Slice) (hm : x.m = .core n)
    (hup : s.busUp x.m = true) (h : a % 4 ≠ 0 ∨ s.reach x a true = false) : s.write x a v = s.badAcc := by
  have hbus : s.busWrite x a v = none := by
    unfold State.busWrite
    refine if_neg (fun hserved => ?_)
    obtain ⟨haligned, hreach⟩ := Bool.and_eq_true_iff.mp hserved
    exact h.elim (fun hmis => hmis (beq_iff_eq.mp haligned)) (fun hout => Bool.false_ne_true (hout.symm.trans hreach))
  rw [hm] at hup
  simp [State.write, hm, hup, State.early, hbus, State.refuse]

/-! Writes of the device-wide registers. -/

/-- The device-wide range holds registers alone, and no core's KC block. -/
theorem spaceOf_device (a : Nat) (h : 0x01000000 ≤ a) (h' : a < 0x01800000) : spaceOf a = .reg := by
  have hrom : ¬ a < 0x20000 := by omega
  simp only [spaceOf, hrom, h, h', and_self, if_true, if_false]

theorem isCells_reg {a : Nat} (h : spaceOf a = .reg) : isCells a = false := by
  simp only [isCells, h]

/-- REGISTER_WRITE of a device-wide register that is served: the effect of its unit, and what an event of its cycle set. -/
theorem exec_registerWrite_device (s : State) (x : Access) (a : Nat) (v ev : Word) (h : 0x01000000 ≤ a)
    (h' : a < 0x01800000) (hr : s.reaches x a = true) :
    exec (.registerWrite x ⟨a, 15, ev⟩ v) s = .next ((s.deviceWrite x a v).keepWritten s a ev) := by
  have hu : s.unreserved x a = true := (Bool.and_eq_true_iff.mp hr).2
  rw [exec_registerWrite, s.writeAt_reg x a v (isCells_reg (spaceOf_device a h h')), s.write_of_reaches x a v hr,
    s.regWrite_device x a v h h' hu]

theorem State.deviceWrite_AON_ALARM (s : State) (x : Access) (v : Word) :
    s.deviceWrite x R.AON_ALARM v = s.setReg R.AON_ALARM v := rfl

theorem State.deviceWrite_AON_RTC_SEC (s : State) (x : Access) (v : Word) :
    s.deviceWrite x R.AON_RTC_SEC v = s.setReg R.AON_RTC_SEC v := rfl

theorem State.deviceWrite_FLC_PBUF (s : State) (x : Access) (i : Fin 64) (v : Word) :
    s.deviceWrite x (R.FLC_PBUF i) v = s.setReg (R.FLC_PBUF i) v := by
  have hunit : (R.FLC_PBUF i - 0x01000000) / 0x10000 = 0xC := by
    unfold R.FLC_PBUF
    omega
  have hoff : R.FLC_PBUF i - 0x010C0000 = 0x100 + i * 4 := by
    unfold R.FLC_PBUF
    omega
  have hbelow : ∀ k < 0x100, 0x100 + i.val * 4 ≠ k := by omega
  have hregion : ¬ 0x100 + i.val * 4 < 0x60 := by omega
  have hbuf : 0x100 + i.val * 4 < 0x200 := by omega
  simp only [State.deviceWrite, hunit, State.flcWrite, hoff]
  simp [hbelow, hregion, hbuf]

theorem State.deviceWrite_PWR_STAT (s : State) (x : Access) (v : Word) :
    s.deviceWrite x R.PWR_STAT v = s.setReg R.PWR_STAT (s.reg R.PWR_STAT &&& ~~~ (v &&& 0xF0000000)) := rfl

theorem State.deviceWrite_PWR_VIN (s : State) (x : Access) (v : Word) : s.deviceWrite x R.PWR_VIN v = s := rfl

theorem State.deviceWrite_PWR_HOLDUP (s : State) (x : Access) (v : Word) : s.deviceWrite x R.PWR_HOLDUP v = s := rfl

theorem State.deviceWrite_PWR_CLK (s : State) (x : Access) (v : Word) : s.deviceWrite x R.PWR_CLK v = s := rfl

/-- The SEC block takes no write at an offset that it does not list (R43). -/
theorem State.deviceWrite_sec_unlisted (s : State) (x : Access) (a : Nat) (v : Word) (h : 0x01100000 ≤ a)
    (h' : a < 0x01110000) (hrow : (rowAt a).isNone = true) : s.deviceWrite x a v = s := by
  have hunit : (a - 0x01000000) / 0x10000 = 0x10 := by omega
  simp only [State.deviceWrite, hunit, State.secWrite, hrow, if_true]

/-- The system pair and PF0 reach the SEC block. -/
theorem State.takesWrite_sec (s : State) (x : Access) (a : Nat) (hm : x.m = .sys ∨ x.m = .fn 0) (hup : s.busUp x.m = true)
    (he : s.early x.m a true = false) (hd : s.discards x.m a = false) (h : 0x01100000 ≤ a) (h' : a < 0x01110000)
    (h4 : a % 4 = 0) : s.takesWrite x a = true := by
  have hdev : ¬(0x02000000 ≤ a ∧ a < 0x02C00000) := by omega
  have hsys : ¬(sysKcBase ≤ a ∧ a < sysKcBase + 0x1000) := by
    simp only [sysKcBase]
    omega
  have hout : hostOutside x a = false := by
    have : outsideBars a = false := by
      simp only [outsideBars, Bool.or_eq_false_iff, Bool.and_eq_false_iff, decide_eq_false_iff_not]
      omega
    cases hx : x.m <;> simp only [hostOutside, hx, this]
  have hreach : s.reach x a true = true := by
    simp only [State.reach, show 0x01000000 ≤ a ∧ a < 0x01800000 by omega, and_self, if_true]
    rcases hm with hm | hm <;> rw [reachDevice, hm]; rfl
  have habs : s.absentSlice a = false := by
    simp only [State.absentSlice, Bool.and_eq_false_iff, decide_eq_false_iff_not]
    omega
  have hkc : kcBars x a = false := by
    simp only [kcBars, kcPair, if_neg hdev, if_neg hsys]
  simp only [State.takesWrite, hup, he, hout, hd, h4, hreach, habs, hkc, beq_self_eq_true, Bool.not_false, Bool.and_self]

/-! Reads of counts (R9). -/

/-- A read clears every bit of the register at `a`, no bit of which is write-only. -/
def IsCount (a : Nat) : Prop := ∃ d, rowAt a = some d ∧ d.rc = 0xFFFFFFFF ∧ d.wo = 0

/-- A read of a count, which is no FIFO, sets it to 0. -/
theorem State.readEffect_count (s : State) {a : Nat} (h : IsCount a) (horph : a ≠ R.EVR_ORPH1)
    (hcap : a < 0x02000000 ∨ 0x184 ≤ (a - 0x02000000) % 0x100000) : s.readEffect a = s.setReg a 0 := by
  obtain ⟨d, hrow, hrc, -⟩ := h
  unfold State.readEffect
  split
  · omega
  · rw [if_neg (by simpa using horph), hrow]
    simp [hrc]

theorem isCount_DEV_ARM_REJ : IsCount R.DEV_ARM_REJ :=
  ⟨⟨0x18, 4, 1, 4, 1, 0, 0, 0, 0xFFFFFFFF, 0, 0⟩, by decide +kernel⟩

theorem isCount_HIF_BADACC : IsCount R.HIF_BADACC :=
  ⟨⟨0, 4, 1, 4, 1, 0, 0, 0, 0xFFFFFFFF, 0, 0⟩, by decide +kernel⟩

theorem isCount_GRG_TRANS (n i : Slice) : IsCount (R.GRG_TRANS n i) :=
  have h : ∀ n i : Slice, rowAt (R.GRG_TRANS n i) = some ⟨0x114, 0x20, 12, 4, 1, 0, 0, 0, 0xFFFFFFFF, 0, 0⟩ := by
    decide +kernel
  ⟨_, h n i, rfl, rfl⟩

theorem and_allBits (w : Word) : w &&& 4294967295#32 = w := BitVec.and_allOnes

theorem State.view_DEV_ARM_REJ (s : State) : s.view R.DEV_ARM_REJ = s.reg R.DEV_ARM_REJ := by
  obtain ⟨d, hrow, -, hwo⟩ := isCount_DEV_ARM_REJ
  unfold State.view
  rw [hrow]
  simp [hwo, and_allBits, R.DEV_ARM_REJ, State.devView, R.DEV_ID, R.DEV_VARIANT, R.DEV_SLC_FITTED]

theorem State.view_HIF_BADACC (s : State) : s.view R.HIF_BADACC = s.reg R.HIF_BADACC := by
  obtain ⟨d, hrow, -, hwo⟩ := isCount_HIF_BADACC
  unfold State.view
  rw [hrow]
  simp [hwo, and_allBits, R.HIF_BADACC, mbxBase, msixBase, R.FLC_BINFO, R.FLC_BFLAGS, R.PWR_CLK, R.SEC_TAMPER_CFG]

/-- A count among the registers of a present slice's units, above its SLC and PWM blocks, shows the word that it holds. -/
theorem State.view_sliceCount (s : State) {a : Nat} (h : IsCount a) (hr : 0x02000000 ≤ a ∧ a < 0x02C00000)
    (ho : 0x1800 ≤ (a - 0x02000000) % 0x100000) (ho' : (a - 0x02000000) % 0x100000 < 0x20000)
    (hp : s.absentSlice a = false) : s.view a = s.reg a := by
  obtain ⟨d, hrow, -, hwo⟩ := h
  have hslc : ¬ (a - 0x02000000) % 0x100000 < 0x1000 := by omega
  have hpwm : ¬ (a - 0x02000000) % 0x100000 < 0x1800 := by omega
  have hwin : ¬ 0x20000 ≤ (a - 0x02000000) % 0x100000 := by omega
  unfold State.view
  rw [hrow]
  simp [hr, hp, hwo, hslc, hpwm, hwin, and_allBits]

/-- The first 0x20000 bytes of a slice's block are registers. -/
theorem spaceOf_sliceReg {a : Nat} (hr : 0x02000000 ≤ a ∧ a < 0x02C00000) (ho : (a - 0x02000000) % 0x100000 < 0x20000) :
    spaceOf a = .reg := by
  unfold spaceOf
  rw [if_neg (by omega), if_neg (by omega), if_neg (by omega), if_neg (by omega), if_pos hr]
  exact if_pos ho

theorem GRG_TRANS_offset (n i : Slice) :
    (0x02000000 ≤ R.GRG_TRANS n i ∧ R.GRG_TRANS n i < 0x02C00000) ∧
      (R.GRG_TRANS n i - 0x02000000) % 0x100000 = 0x3114 + i * 0x20 := by
  unfold R.GRG_TRANS sliceBase
  omega

/-- READ_CLEARS of a count that shows its word: it returns the word from before, and leaves what an event of its cycle added. -/
theorem State.returns_count (s : State) (x : Access) (a : Nat) (ev : Word) (hs : spaceOf a = .reg)
    (hview : s.view a = s.reg a) (heff : s.readEffect a = s.setReg a 0) (ha : s.answers x a = true) (hm : x.m ≠ .mon)
    (hev : s.reg a ≠ 0 ∨ clearedBy a ev = 0) :
    s.Returns ((s.readAt x a 15).keepRead s a ev) a (s.reg a - clearedBy a ev) (clearedBy a ev) := by
  have hread : s.readAt x a 15 = { s.setReg a 0 with busOut := s.reg a } := by
    rw [s.readAt_reg x a hs, s.read_of_answers x a ha, State.regRead, if_neg (by simpa using hm), heff, hview]
  have h : s.Returns (s.readAt x a 15) a (s.reg a) 0 := hread ▸ s.returns_setReg a (s.reg a) 0
  rcases hev with hne | hc
  · simpa using h.keepRead hne.symm ev
  · rw [State.keepRead_of_clearedBy _ s hc, hc]
    simpa using h

/-- The counts DEV_ARM_REJ and HIF_BADACC, as READ_CLEARS returns and leaves them. -/
theorem State.returns_deviceCount (s : State) (x : Access) (a : Nat) (ev : Word) (h : a = R.DEV_ARM_REJ ∨ a = R.HIF_BADACC)
    (ha : s.answers x a = true) (hm : x.m ≠ .mon) (hev : s.reg a ≠ 0 ∨ clearedBy a ev = 0) :
    s.Returns ((s.readAt x a 15).keepRead s a ev) a (s.reg a - clearedBy a ev) (clearedBy a ev) := by
  rcases h with rfl | rfl
  · exact s.returns_count x _ ev rfl s.view_DEV_ARM_REJ
      (s.readEffect_count isCount_DEV_ARM_REJ (by decide) (.inl (by decide))) ha hm hev
  · exact s.returns_count x _ ev rfl s.view_HIF_BADACC
      (s.readEffect_count isCount_HIF_BADACC (by decide) (.inl (by decide))) ha hm hev

/-- The count of a Gorge window's transitions, as READ_CLEARS returns and leaves it. -/
theorem State.returns_GRG_TRANS (s : State) (x : Access) (n i : Slice) (ha : s.answers x (R.GRG_TRANS n i) = true)
    (hm : x.m ≠ .mon) :
    s.Returns ((s.readAt x (R.GRG_TRANS n i) 15).keepRead s (R.GRG_TRANS n i) 0) (R.GRG_TRANS n i)
      (s.reg (R.GRG_TRANS n i)) 0 := by
  obtain ⟨hr, ho⟩ := GRG_TRANS_offset n i
  have hi := i.isLt
  have hp : s.absentSlice (R.GRG_TRANS n i) = false := by
    simp only [State.answers, Bool.and_eq_true, Bool.not_eq_true'] at ha
    exact ha.2
  have hcount := isCount_GRG_TRANS n i
  have h := s.returns_count x (R.GRG_TRANS n i) 0 (spaceOf_sliceReg hr (by omega))
    (s.view_sliceCount hcount hr (by omega) (by omega) hp)
    (s.readEffect_count hcount (by unfold R.EVR_ORPH1; omega) (.inr (by omega))) ha hm (.inr (clearedBy_zero _))
  rw [clearedBy_zero] at h
  simpa using h

/-- The monitor's inspect read changes nothing and returns what the register shows (R467). -/
theorem State.readAt_mon (s : State) (x : Access) (a : Nat) (ha : s.answers x a = true) (hm : x.m = .mon) :
    s.readAt x a 15 = { s with busOut := s.view a } := by
  have hread : s.readAt x a 15 = s.read x a := by simp [State.readAt, hm]
  rw [hread, s.read_of_answers x a ha, State.regRead, hm]
  rfl

/-! What a served write does, by the access code of its register (R9). -/

/-- A served write of an RW register of the device-wide range replaces its word. -/
theorem gives_write_rw (s : State) (x : Access) (a : Nat) (v ev : Word) (hr : s.reaches x a = true)
    (ha : a = R.AON_ALARM ∨ a = R.AON_RTC_SEC ∨ a = R.FLC_PBUF 5) :
    Gives (.registerWrite x ⟨a, 15, ev⟩ v) s (s.Rewrites · a v) := by
  have hdev : 0x01000000 ≤ a ∧ a < 0x01800000 := by rcases ha with rfl | rfl | rfl <;> decide
  have hrow : (rowAt a).all (fun d => d.rc ||| d.w1c == 0) = true := by rcases ha with rfl | rfl | rfl <;> decide +kernel
  have hunit : s.deviceWrite x a v = s.setReg a v := by
    rcases ha with rfl | rfl | rfl
    · exact s.deviceWrite_AON_ALARM x v
    · exact s.deviceWrite_AON_RTC_SEC x v
    · exact s.deviceWrite_FLC_PBUF x 5 v
  refine ⟨_, exec_registerWrite_device s x a v ev hdev.1 hdev.2 hr, ?_⟩
  rw [hunit, State.keepWritten_of_clearedBy _ s (clearedBy_of_noClear hrow ev)]
  exact s.rewrites_setReg a v

/-- Clearing bits of which one is set changes the word. -/
theorem and_not_ne {w m : Word} (h : w &&& m ≠ 0) : w &&& ~~~m ≠ w := by
  intro e
  apply h
  rw [← e, BitVec.and_assoc, BitVec.and_comm (~~~m), BitVec.and_not_self]
  exact BitVec.and_zero

theorem row_PWR_STAT : rowAt R.PWR_STAT = some ⟨0, 4, 1, 4, 1, 0, 0, 0xF0000000, 0, 0, 0⟩ := by decide +kernel

/-- A served write of PWR_STAT clears the flags at which it has ones, but for those that an event of its cycle sets. -/
theorem gives_write_PWR_STAT (s : State) (x : Access) (v ev : Word) (hr : s.reaches x R.PWR_STAT = true)
    (h : ev = 0 ∨ s.reg R.PWR_STAT &&& (v &&& 0xF0000000) ≠ 0) :
    Gives (.registerWrite x ⟨R.PWR_STAT, 15, ev⟩ v) s
      (s.Rewrites · R.PWR_STAT ((s.reg R.PWR_STAT &&& ~~~ (v &&& 0xF0000000)) ||| (ev &&& 0xF0000000))) := by
  have hset := s.rewrites_setReg R.PWR_STAT (s.reg R.PWR_STAT &&& ~~~ (v &&& 0xF0000000))
  have hc : clearedBy R.PWR_STAT ev = ev &&& 0xF0000000 := clearedBy_of_row row_PWR_STAT ev
  refine ⟨_, exec_registerWrite_device s x _ v ev (by decide) (by decide) hr, ?_⟩
  rw [s.deviceWrite_PWR_STAT]
  rcases h with rfl | h
  · rw [State.keepWritten_zero]
    simpa using hset
  · rw [← hc]
    exact hset.keepWritten (and_not_ne h) ev

/-- A served write of a read-only register of the PWR block changes nothing. -/
theorem gives_write_ro (s : State) (x : Access) (a : Nat) (v ev : Word) (hr : s.reaches x a = true)
    (ha : a = R.PWR_VIN ∨ a = R.PWR_HOLDUP ∨ a = R.PWR_CLK) :
    Gives (.registerWrite x ⟨a, 15, ev⟩ v) s (fun t => t = s) := by
  have hdev : 0x01000000 ≤ a ∧ a < 0x01800000 := by rcases ha with rfl | rfl | rfl <;> decide
  have hunit : s.deviceWrite x a v = s := by
    rcases ha with rfl | rfl | rfl
    · exact s.deviceWrite_PWR_VIN x v
    · exact s.deviceWrite_PWR_HOLDUP x v
    · exact s.deviceWrite_PWR_CLK x v
  exact ⟨_, exec_registerWrite_device s x a v ev hdev.1 hdev.2 hr, by rw [hunit, s.keepWritten_self]⟩

/-- The state after a refused access of a core. -/
theorem State.rewrites_badAcc (s : State) : s.Rewrites s.badAcc R.HIF_BADACC s.badAccNext :=
  s.badAcc_eq ▸ s.rewrites_setReg R.HIF_BADACC s.badAccNext

/-- Settles O50, clause by clause: each access comes down to the effect of its unit, and then to the update of one register. -/
theorem registerAccess : Obligations.RegisterAccess := by
  unfold Obligations.RegisterAccess
  refine ⟨?rw, ?w1c, ?w1cEvent, ?reserved, ?secUnlisted, ?ro, ?outOfReach, ?partWrite, ?partRead, ?rcEvent, ?rc, ?trans,
    ?inspect⟩
  case rw =>
    intro s x a v ev hr ha
    obtain ⟨t, he, hword, hrest, hkept⟩ := gives_write_rw s x a v ev hr ha
    exact ⟨t, he, hword, hrest, hkept⟩
  case w1c =>
    rintro s x _ v hr rfl
    obtain ⟨t, he, hword, hrest, hkept⟩ := gives_write_PWR_STAT s x v 0 hr (.inl rfl)
    exact ⟨t, he, by simpa using hword, hrest, hkept⟩
  case w1cEvent =>
    rintro s x _ v ev hr rfl h
    obtain ⟨t, he, hword, hrest, hkept⟩ := gives_write_PWR_STAT s x v ev hr (.inr h)
    exact ⟨t, he, hword, hrest, hkept⟩
  case reserved =>
    intro s x a v h
    exact ⟨s.write_breaks_resv x a v h, (s.reaches_breakResv x a).trans h⟩
  case secUnlisted =>
    intro s x a v hm hup he hd h h' h4 hrow hu
    have hr : s.reaches x a = true := by
      rw [State.reaches, s.takesWrite_sec x a hm hup he hd h h' h4, hu, Bool.and_self]
    refine ⟨_, exec_registerWrite_device s x a v 0 (by omega) (by omega) hr, ?_⟩
    rw [s.deviceWrite_sec_unlisted x a v h h' hrow, s.keepWritten_self]
  case ro => exact gives_write_ro
  case outOfReach =>
    intro s x a v n hm hup h
    obtain ⟨hword, hrest, hkept⟩ := s.rewrites_badAcc
    refine ⟨s.badAcc, ?_, hword, hrest, hkept⟩
    rw [exec_registerWrite, s.writeAt_core x a v n hm, s.write_refused_core x a v n hm hup h, State.keepWritten_zero]
  case partWrite =>
    intro s x a be v n hm hup hbe
    obtain ⟨hword, hrest, hkept⟩ := s.rewrites_badAcc
    refine ⟨s.badAcc, ?_, hword, hrest, hkept⟩
    rw [exec_registerWrite, s.writeAt_part x a be v n hm hup hbe, State.keepWritten_zero]
  case partRead =>
    intro s x a be n hm hup hbe
    refine ⟨{ s.badAcc with busOut := 0xFFFFFFFF }, ?_, s.rewrites_badAcc.word, ?_⟩
    · rw [exec_readClears, s.readAt_part x a be n hm hup hbe, State.keepRead_zero]
    · change s.badAcc.regs = (s.setReg R.HIF_BADACC (s.badAcc.reg R.HIF_BADACC)).regs
      rw [s.rewrites_badAcc.word, s.badAcc_eq]
  case rcEvent =>
    intro s x a ev ha hm h hne
    obtain ⟨hout, hword, hrest, hkept⟩ := s.returns_deviceCount x a ev h ha hm (.inl hne)
    exact ⟨_, exec_readClears x a 15 ev s, hout, hword, hrest, hkept⟩
  case rc =>
    intro s x a ha hm h
    obtain ⟨hout, hword, hrest, hkept⟩ := s.returns_deviceCount x a 0 h ha hm (.inr (clearedBy_zero a))
    rw [clearedBy_zero] at hout hword
    exact ⟨_, exec_readClears x a 15 0 s, hout.trans (BitVec.sub_zero _), hword, hrest, hkept⟩
  case trans =>
    rintro s x n i _ rfl ha hm
    obtain ⟨hout, hword, hrest, hkept⟩ := s.returns_GRG_TRANS x n i ha hm
    exact ⟨_, exec_readClears x _ 15 0 s, hout, hword, hrest, hkept⟩
  case inspect =>
    intro s x a ha hm
    refine ⟨_, exec_readClears x a 15 0 s, ?_⟩
    rw [State.keepRead_zero, s.readAt_mon x a ha hm]
    exact ⟨rfl, rfl⟩

end Machine
end Sys2Proof
end

section
/-! PROOFS. What events, descriptors, pins, windows, the CLE and the DMA leave of a slice's control (R50 to R54). -/

namespace Sys2Proof
namespace Machine

/-! The registers that tell what a slice is and does. -/

/-- A register of the DEV block, or one of the first 0x20 bytes of a slice's SLC block: SLC_STATE, SLC_CMD_STAT, SLC_FAULT. -/
def SlcReg (a : Nat) : Prop :=
  (0x01000000 ≤ a ∧ a < 0x01010000) ∨ (0x02000000 ≤ a ∧ a < 0x02C00000 ∧ (a - 0x02000000) % 0x100000 < 0x20)

/-- The same, and PWM_CTRL of every channel. -/
def CtlReg (a : Nat) : Prop :=
  SlcReg a ∨ (0x02000000 ≤ a ∧ a < 0x02C00000 ∧ 0x1000 ≤ (a - 0x02000000) % 0x100000 ∧
    (a - 0x02000000) % 0x100000 < 0x1800 ∧ a % 0x100 = 0)

/-- Every one of those registers but the one at `b`. -/
def CtlRegBut (b a : Nat) : Prop := CtlReg a ∧ a ≠ b

theorem slcReg_SLC_STATE (n : Slice) : SlcReg (R.SLC_STATE n) := by
  simp only [SlcReg, R.SLC_STATE, sliceBase]
  omega

theorem ctlReg_SLC_STATE (n : Slice) : CtlReg (R.SLC_STATE n) := .inl (slcReg_SLC_STATE n)

theorem ctlReg_SLC_CMD_STAT (n : Slice) : CtlReg (R.SLC_CMD_STAT n) := by
  simp only [CtlReg, SlcReg, R.SLC_CMD_STAT, sliceBase]
  omega

theorem ctlReg_SLC_FAULT (n : Slice) : CtlReg (R.SLC_FAULT n) := by
  simp only [CtlReg, SlcReg, R.SLC_FAULT, sliceBase]
  omega

theorem ctlReg_DEV_SLC_ASSIGN (n : Slice) : CtlReg (R.DEV_SLC_ASSIGN n) := by
  simp only [CtlReg, SlcReg, R.DEV_SLC_ASSIGN]
  omega

theorem ctlReg_DEV_ARM : CtlReg R.DEV_ARM := .inl (.inl ⟨by decide, by decide⟩)

theorem ctlReg_PWM_CTRL (n : Slice) (k : Fin 8) : CtlReg (R.PWM_CTRL n k) := by
  simp only [CtlReg, SlcReg, R.PWM_CTRL, pwmBase]
  omega

theorem routerReg_of_ctlReg {a : Nat} (h : CtlReg a) : routerReg a = false := by
  simp only [routerReg, Bool.or_eq_false_iff, Bool.and_eq_false_iff, decide_eq_false_iff_not]
  simp only [CtlReg, SlcReg] at h
  omega

theorem wdgBase_slice (n : Slice) : wdgBase n = sliceBase n + 0xD000 := if_pos n.isLt

theorem dmaBase_slice (n : Slice) : dmaBase n = sliceBase n + 0x8000 := if_pos n.isLt

theorem ptbBase_slice (n : Slice) : ptbBase n = sliceBase n + 0xC000 := if_pos n.isLt

theorem kcBase_slice (n : Slice) : kcBase n = sliceBase n + 0xA000 := if_pos n.isLt

/-! Routes that a slice's entry into a state, or its change of owner, ends (R310, R312). -/

theorem State.showOrphans_only (s : State) : RouterOnly s s.showOrphans :=
  (((RouterOnly.refl s).setReg _ _ (by decide)).setReg _ _ (by decide)).setF _ _ _ (by decide)

theorem State.orphan_only (s : State) (src : Nat) (t : RouteTgt) : RouterOnly s (s.orphan src t) := by
  have hreg (n o : Nat) (h : o < 0x1000) : routerReg (sliceBase n + 0x9000 + o) = true := by
    rw [Nat.add_assoc]
    exact routerReg_slice n _ (by omega) (by omega)
  have h1 : RouterOnly s (match localOf src with
      | some (n, _) => (s.setF (R.EVR_LSTAT n) F.EVR_LSTAT_ORPHAN_F 1).count (R.EVR_LORPH n) F.EVR_LORPH_COUNT
      | none => s) := by
    split
    · exact ((RouterOnly.refl s).setF _ _ _ (hreg _ _ (by decide))).count _ _ (hreg _ _ (by decide))
    · exact RouterOnly.refl s
  exact RouterOnly.ite ((h1.count _ _ (by decide)).setF _ _ _ (by decide))
    ((((h1.evr _).trans (State.showOrphans_only _)).setF _ _ _ (by decide)).trans (State.fire_only _ _))

theorem State.levelCheck_only (s : State) (src : Nat) : RouterOnly s (s.levelCheck src) :=
  (s.fireRoute_only _ _ _ _).ite (RouterOnly.refl s)

theorem State.orphanRoute_only (s : State) (r : Nat) (t : RouteTgt) : RouterOnly s (s.orphanRoute r t) :=
  ((s.setRoute_only r idleRoute).trans (State.orphan_only _ _ _)).trans (State.levelCheck_only _ _)

/-- Router numbers that a register can hold the target of: 1024 sources and 64 groups. -/
theorem routeOfTgtAddr_lt {a r : Nat} (h : routeOfTgtAddr a = some r) : r < 1088 := by
  unfold routeOfTgtAddr at h
  split at h
  · cases h
    omega
  · split at h
    · dsimp only at h
      split at h
      · cases h
      · cases h
        omega
    · split at h
      · cases h
        unfold localSrc
        omega
      · cases h

theorem State.lt_of_mem_routesTo {s : State} {p : Nat → Nat → Nat → Bool} {r : Nat} (h : r ∈ s.routesTo p) :
    r < 1088 := by
  obtain ⟨e, -, he⟩ := List.mem_filterMap.mp h
  split at he
  · next hr =>
    split at he
    · cases he
      exact routeOfTgtAddr_lt hr
    · cases he
  · cases he

theorem State.routeTgt_addr_router (s : State) {r : Nat} (h : r < 1088) : routerReg (s.routeTgt r).addr = true := by
  unfold State.routeTgt
  split
  · dsimp only
    unfold tgtAddr localOf
    split
    · next hl =>
      split at hl
      · cases hl
        have := routerReg_slice ((r - 64) / 72) (0x9000 + 0x4 + (r - 64) % 72 * 8) (by omega) (by omega)
        simpa only [R.EVR_LTGT, Nat.add_assoc] using this
      · cases hl
    · exact routerReg_dev _ (by unfold R.EVR_TGT; omega) (by unfold R.EVR_TGT; omega)
  · exact routerReg_dev _ (by simp only [R.EVR_GTGT]; omega) (by simp only [R.EVR_GTGT]; omega)

theorem State.staleRoute_only (s : State) {r : Nat} (h : r < 1088) : RouterOnly s (s.staleRoute r) := by
  have h1 := (RouterOnly.refl s).setF _ (if r < 1024 then F.EVR_TGT_STALE else F.EVR_GTGT_STALE) 1 (s.routeTgt_addr_router h)
  exact (h1.trans (State.orphanRoute_only _ _ _)).ite h1

/-- Every step of a fold over routes of targets changes the router alone. -/
theorem State.foldRoutes_only (s : State) (p : Nat → Nat → Nat → Bool) (f : State → Nat → State)
    (hf : ∀ t r, r < 1088 → RouterOnly t (f t r)) : RouterOnly s ((s.routesTo p).foldl f s) :=
  List.foldlRecOn (motive := RouterOnly s) _ _ (RouterOnly.refl s)
    (fun t ht r hr => ht.trans (hf t r (State.lt_of_mem_routesTo hr)))

theorem State.staleTarget_only (s : State) (kind : Nat) (hit : Nat → Bool) : RouterOnly s (s.staleTarget kind hit) :=
  s.foldRoutes_only _ _ (fun t _ hr => t.staleRoute_only hr)

theorem State.staleVectorsOf_only (s : State) (n : Nat) : RouterOnly s (s.staleVectorsOf n) :=
  s.foldRoutes_only _ _ (fun t _ hr => t.staleRoute_only hr)

theorem State.dropRoutesTo_only (s : State) (n : Nat) : RouterOnly s (s.dropRoutesTo n) :=
  s.foldRoutes_only _ _ (fun t r _ => t.setRoute_only r idleRoute)

theorem State.levelTo_only (s : State) (n : Nat) : RouterOnly s (s.levelTo n) :=
  s.foldRoutes_only _ _ (fun t r _ => t.levelCheck_only r)

/-! A change that leaves them, and the memories, pairs and control of the slices, as they were. -/

/-- `t` holds what `s` does in the registers of `P`, in memory, in the core pairs and in the control of the slices; and a
function without a descriptor in flight has got none. -/
structure State.Kept (P : Nat → Prop) (s t : State) : Prop where
  cells : t.cells = s.cells
  core : t.core = s.core
  ctl : t.ctl = s.ctl
  regs : ∀ a, P a → t.reg a = s.reg a
  idle : (∀ f, (s.fnOf f).flights = []) → ∀ f, (t.fnOf f).flights = []

namespace State.Kept

variable {P Q : Nat → Prop} {s t u : State}

theorem refl (P : Nat → Prop) (s : State) : s.Kept P s := ⟨rfl, rfl, rfl, fun _ _ => rfl, id⟩

theorem trans (h : s.Kept P t) (k : t.Kept P u) : s.Kept P u where
  cells := k.cells.trans h.cells
  core := k.core.trans h.core
  ctl := k.ctl.trans h.ctl
  regs a ha := (k.regs a ha).trans (h.regs a ha)
  idle hs := k.idle (h.idle hs)

theorem mono (h : s.Kept P t) (hPQ : ∀ a, Q a → P a) : s.Kept Q t := { h with regs := fun a ha => h.regs a (hPQ a ha) }

theorem but (h : s.Kept CtlReg t) (b : Nat) : s.Kept (CtlRegBut b) t := h.mono (fun _ => And.left)

theorem ctlOf (h : s.Kept P t) (n : Fin 12) : t.ctlOf n = s.ctlOf n := congrArg (fun c => c.get n) h.ctl

theorem coreOf (h : s.Kept P t) (p : Fin 13) : t.coreOf p = s.coreOf p := congrArg (fun c => c.get p) h.core

theorem getF (h : s.Kept P t) {a : Nat} (ha : P a) (f : Fld) : t.getF a f = s.getF a f := congrArg f.get (h.regs a ha)

theorem isSet (h : s.Kept P t) {a : Nat} (ha : P a) (f : Fld) : t.isSet a f = s.isSet a f :=
  congrArg (· == 1) (h.getF ha f)

theorem slState (h : s.Kept CtlReg t) (n : Slice) : t.slState n = s.slState n := h.getF (ctlReg_SLC_STATE n) _

/-- A change of what no field of `Kept` speaks of. -/
theorem elsewhere (h : s.Kept P t) (hcells : u.cells = t.cells := by rfl) (hcore : u.core = t.core := by rfl)
    (hctl : u.ctl = t.ctl := by rfl) (hregs : u.regs = t.regs := by rfl) (hfns : u.fns = t.fns := by rfl) : s.Kept P u :=
  h.trans ⟨hcells, hcore, hctl, fun a _ => congrArg (SMap.get resetOf · a) hregs,
    fun hi f => (congrArg (fun v => (v.get f).flights) hfns).trans (hi f)⟩

/-- A write of a register outside `P`, and with it every update that comes to one: `setF`, `setB`, `count`, `countWrap`. -/
theorem setReg (h : s.Kept P t) (a : Nat) (v : Word)
    (ha : ¬ P a := by
      simp +zetaDelta only [CtlReg, SlcReg, sliceBase, pwmBase, fnBase, R.RNG_STAT, R.RNG_EDGE_STAT, R.PWM_TRIP_STAT,
        R.PWM_TRIP_SRC, R.PWM_TRIP_TIME, R.PWM_TRIP_CNT, R.PWM_STAT, R.PWM_CNT, R.PWM_ACT_PER, R.PWM_ACT_CMP, R.PWM_ACT_DT, R.PWM_SYNCCORR,
        R.GRG_STATE, R.GRG_RAW, R.GRG_TEST, R.GRG_WSTAT, R.GRG_TRANS, R.DBG_TESTOUT, R.TWN_ROLE, R.TWN_SYNC, R.CLE_STAT,
        R.CLE_LSTAT, R.MCS_CTRL, R.MCS_STAT, R.MCS_XSTAT, R.INJ_CTRL, R.INJ_STAT, R.SAR_STAT, R.SAR_OVR, R.SLC_TRIPIN,
        R.WDG_CNT, R.WDG_STAT, R.DMA_STAT, R.DMA_CTRL, R.PTB_CTRL, R.PTB_ACTIVE, R.KC_LS_STAT, R.KC_LS_INJ, Fin.val_castSucc,
        wdgBase_slice, dmaBase_slice, ptbBase_slice, kcBase_slice]
      omega) : s.Kept P (t.setReg a v) :=
  h.trans ⟨rfl, rfl, rfl, fun b hb => t.reg_setReg_ne a v b (fun e => ha (e ▸ hb)), id⟩

theorem resetRegs (h : s.Kept P t) (lo hi : Nat) (hP : ∀ a, P a → a < lo ∨ hi ≤ a) : s.Kept P (t.resetRegs lo hi) := by
  refine h.trans ⟨rfl, rfl, rfl, fun a ha => ?_, id⟩
  have hout := hP a ha
  change SMap.get resetOf (SMap.clear (fun b => decide (lo ≤ b) && decide (b < hi)) t.regs) a = t.reg a
  rw [SMap.get_clear, if_neg, State.reg]
  simp only [Bool.and_eq_true, decide_eq_true_eq]
  omega

theorem ite {c : Prop} [Decidable c] (h : s.Kept P t) (k : s.Kept P u) : s.Kept P (if c then t else u) := by
  split <;> assumption

/-! The event router. -/

theorem router (h : s.Kept CtlReg t) (k : RouterOnly t u) : s.Kept CtlReg u :=
  h.trans ⟨by rw [k.rest], by rw [k.rest], by rw [k.rest], fun a ha => k.regs a (routerReg_of_ctlReg ha),
    fun hi f => by rw [k.rest]; exact hi f⟩

theorem fire (h : s.Kept CtlReg t) (src : Nat) : s.Kept CtlReg (t.fire src) := h.router (t.fire_only src)

theorem fireLocal (h : s.Kept CtlReg t) (n x : Nat) : s.Kept CtlReg (t.fireLocal n x) := h.fire _

end State.Kept

end Machine
end Sys2Proof
end

section
/-! PROOFS. What descriptors, pins, windows, roles, the CLE and the DMA leave of a slice's control. -/

namespace Sys2Proof
namespace Machine

namespace State.Kept

variable {P : Nat → Prop} {s t : State}

theorem foldl {α : Type} {P : Nat → Prop} (h : s.Kept P t) (l : List α) (f : State → α → State)
    (hf : ∀ u a, s.Kept P u → s.Kept P (f u a)) : s.Kept P (l.foldl f t) := foldl_keeps _ f l t h hf

/-! Descriptors. -/

theorem setFn (h : s.Kept CtlReg t) (f : Fin 16) (x : FnSt) (hx : (t.fnOf f).flights = [] → x.flights = []) :
    s.Kept CtlReg (t.setFn f x) := by
  have hu : t.Kept CtlReg { t with fns := t.fns.set f x } := {
    cells := rfl
    core := rfl
    ctl := rfl
    regs := fun _ _ => rfl
    idle := fun hi g => by
      change ((t.fns.set f.val x f.isLt).get g).flights = []
      rw [vget_set]
      split
      · exact hx (hi f)
      · exact hi g }
  exact (h.trans hu).setReg _ _

theorem descEndWith (h : s.Kept CtlReg t) (g : Flight → Option (Nat × BitVec 64)) : s.Kept CtlReg (t.descEndWith g) := by
  unfold State.descEndWith
  refine h.foldl _ _ (fun u f hu => ?_)
  dsimp only
  split
  · exact hu
  · exact hu.setFn f _ (fun hx => by simp only [hx, List.filter_nil])

theorem descDone (h : s.Kept CtlReg t) (a : Await) (status result : Nat) : s.Kept CtlReg (t.descDone a status result) := by
  unfold State.descDone State.descFinishAll
  exact h.descEndWith _

theorem descDisown (h : s.Kept CtlReg t) (n o : Nat) : s.Kept CtlReg (t.descDisown n o) := by
  unfold State.descDisown
  refine h.foldl _ _ (fun u f hu => ?_)
  dsimp only
  split
  · exact hu
  · exact hu.setFn f _ (fun hx => by simp only [hx, List.filter_nil, List.map_nil])

/-! Pins. -/

theorem edgeRecord (h : s.Kept CtlReg t) (n : Fin 12) (k : Fin 8) (out : Nat) (level : Bool) (now : Nat) :
    s.Kept CtlReg (t.edgeRecord n k out level now) := by
  unfold State.edgeRecord
  extract_lets f st len w seq s1 base
  split
  · exact h
  · have h1 : s.Kept CtlReg s1 := h.elsewhere
    exact (h1.setReg _ _).ite (h1.elsewhere.setReg _ _)

theorem drive (h : s.Kept CtlReg t) (n : Fin 12) (k : Fin 8) (line now : Nat) : s.Kept CtlReg (t.drive n k line now) := by
  unfold State.drive
  dsimp only
  have h1 (p : PwmSt) : s.Kept CtlReg (t.setPw n k p) := h.elsewhere
  exact ((((h1 _).edgeRecord _ _ _ _ _).ite (h1 _)).edgeRecord _ _ _ _ _).ite (((h1 _).edgeRecord _ _ _ _ _).ite (h1 _))

theorem pins (h : s.Kept CtlReg t) (n : Fin 12) (k : Fin 8) : s.Kept CtlReg (t.pins n k) := by
  have h1 := h.setReg (R.PWM_TRIP_STAT n k) (F.PWM_TRIP_STAT_PINS.put (t.reg (R.PWM_TRIP_STAT n k))
    (if t.mode == mdHil then 0 else t.pinLine n k))
  exact (h1.elsewhere.ite h1).drive n k _ _

theorem pinsSlice (h : s.Kept CtlReg t) (n : Fin 12) : s.Kept CtlReg (t.pinsSlice n) := h.foldl _ _ (fun _ k hu => hu.pins n k)

/-! Gorge windows and watchdogs. -/

theorem showWin (h : s.Kept CtlReg t) (n i : Fin 12) : s.Kept CtlReg (t.showWin n i) := by
  unfold State.showWin
  extract_lets a old st s1 s2 s3 s4 s5 s6 s7
  have h2 : s.Kept CtlReg s2 := ((h.setReg _ _).setReg _ _).setReg _ _
  have h6 : s.Kept CtlReg s6 := (((h2.setReg _ _).setReg _ _).setReg _ _).setReg _ _
  have h7 : s.Kept CtlReg s7 := (h6.setReg _ _).ite h6
  exact h7.ite h7.elsewhere

theorem showWins (h : s.Kept CtlReg t) (n : Fin 12) : s.Kept CtlReg (t.showWins n) :=
  h.foldl _ _ (fun _ i hu => hu.showWin n i)

theorem checkThr (h : s.Kept CtlReg t) (n i : Fin 12) : s.Kept CtlReg (t.checkThr n i) := h.ite (h.setReg _ _)

theorem unsettle (h : s.Kept CtlReg t) (n i : Fin 12) : s.Kept CtlReg (t.unsettle n i) := by
  unfold State.unsettle
  exact h.elsewhere.showWin n i

theorem endTests (h : s.Kept CtlReg t) (n : Fin 12) : s.Kept CtlReg (t.endTests n) :=
  h.foldl _ _ (fun _ i hu => (((hu.setReg _ _).checkThr n i).unsettle n i).ite hu)

theorem wdgStart (h : s.Kept CtlReg t) (n : Fin 12) : s.Kept CtlReg (t.wdgStart n.castSucc) := by
  have h1 : s.Kept CtlReg (((t.setReg (R.WDG_CNT n.castSucc) 0).setF (R.WDG_STAT n.castSucc) F.WDG_STAT_RUN 1).setF
    (R.WDG_STAT n.castSucc) F.WDG_STAT_EXPECT 0) := ((h.setReg _ _).setReg _ _).setReg _ _
  exact h1.elsewhere.ite h

theorem wdgStop (h : s.Kept CtlReg t) (n : Fin 12) : s.Kept CtlReg (t.wdgStop n.castSucc) := (h.setReg _ _).setReg _ _

/-! Roles of a twin pair. -/

theorem reportRoles (h : s.Kept CtlReg t) (u : State) : s.Kept CtlReg (u.reportRoles t) := by
  have h1 : s.Kept CtlReg t.syncRegs := by
    unfold State.syncRegs
    extract_lets f sy ar
    have h2 : s.Kept CtlReg (t.setF R.TWN_SYNC F.TWN_SYNC_SYNCED sy) := h.setReg _ _
    have h3 : s.Kept CtlReg ((t.setF R.TWN_SYNC F.TWN_SYNC_SYNCED sy).setF R.TWN_SYNC F.TWN_SYNC_ARMED ar) := h2.setReg _ _
    exact h.ite ((h3.ite (h3.elsewhere.fire 982)).ite h)
  exact h1.elsewhere.ite h1

theorem showSync (h : s.Kept CtlReg t) : s.Kept CtlReg t.showSync := h.reportRoles t

/-! The CLE (R52, R393). -/

theorem setCle (h : s.Kept P t) (n : Fin 12) (c : CleSt) : s.Kept P (t.setCle n c) := h.elsewhere

theorem showCall (h : s.Kept CtlReg t) (n : Fin 12) : s.Kept CtlReg (t.showCall n) := (h.setReg _ _).setReg _ _

theorem setQ (h : s.Kept CtlReg t) (n : Fin 12) (j : Fin 16) (q : Nat) : s.Kept CtlReg (t.setQ n j q) :=
  (h.setReg _ _).setReg _ _

theorem dropLoop (h : s.Kept CtlReg t) (n : Fin 12) (j : Fin 16) : s.Kept CtlReg (t.dropLoop n j false) := by
  unfold State.dropLoop
  simp only [Bool.false_eq_true, if_false]
  have h1 : s.Kept CtlReg (if t.isSet (R.CLE_LSTAT n j) F.CLE_LSTAT_LATE_PEND then
      t.setF (R.CLE_LSTAT n j) F.CLE_LSTAT_LATE_PEND 0 else t) := (h.setReg _ _).ite h
  exact ((h1.setQ n j 0).setCle n _).ite (h1.ite (((h1.setQ n j 0).setReg _ _).setCle n _))

theorem dropCle (h : s.Kept CtlReg t) (n : Fin 12) : s.Kept CtlReg (t.dropCle n false) := by
  unfold State.dropCle
  extract_lets s1 c call
  have h1 : s.Kept CtlReg s1 := h.foldl _ _ (fun _ j hu => hu.dropLoop n j)
  exact ((h1.setCle n _).setReg _ _).showCall n

theorem dropCmds (h : s.Kept CtlReg t) (n : Fin 12) : s.Kept CtlReg (t.dropCmds n) := by
  refine List.foldlRecOn (motive := s.Kept CtlReg) _ _ h (fun u hu j hj => ?_)
  have hj := List.mem_range.mp hj
  exact ((((hu.setReg _ _).setReg _ _).setReg _ _).descDone _ _ _).descDone _ _ _

theorem dropRole (h : s.Kept CtlReg t) (n : Fin 12) : s.Kept CtlReg (t.dropRole n) := by
  unfold State.dropRole
  exact (h.setCle n _).dropCle n

theorem putRole (h : s.Kept CtlReg t) (n : Fin 12) (role : Nat) : s.Kept CtlReg (t.putRole n role) := by
  have h1 : s.Kept CtlReg ((t.setF R.TWN_ROLE ⟨n.val, 1⟩ (b2n (role == 1))).setF R.TWN_ROLE ⟨16 + n.val, 1⟩
    (b2n (role == 2))) := (h.setReg _ _).setReg _ _
  unfold State.putRole
  by_cases hr : role = 2
  · subst hr
    exact (h1.elsewhere.dropRole n).pinsSlice n
  · simp only [beq_iff_eq, hr, if_false]
    exact h1.pinsSlice n

theorem takeRole (h : s.Kept CtlReg t) (n : Fin 12) : s.Kept CtlReg (t.takeRole n) := by
  unfold State.takeRole State.setRole
  exact ((h.putRole n _).reportRoles t).ite h

/-! DMA (R52, R325). -/

theorem setDma (h : s.Kept P t) (e : Fin 13) (c : Fin 16) (d : DmaCh) : s.Kept P (t.setDma e c d) := h.elsewhere

theorem dmaStop (h : s.Kept CtlReg t) (n : Fin 12) (c : Fin 16) : s.Kept CtlReg (t.dmaStop n.castSucc c false) := by
  have hset (st : Nat) : s.Kept CtlReg (t.setDmaState n.castSucc c st) := (h.setReg _ _).setReg _ _
  have hstopped (cause : Nat) : s.Kept CtlReg (t.dmaStopped n.castSucc c cause) := by
    unfold State.dmaStopped State.xferDone
    exact ((((hset 0).setReg _ _).setReg _ _).setDma _ _ _).descDone _ _ _
  exact h.ite ((hstopped _).ite ((hset 3).setDma _ _ _))

theorem stopDma (h : s.Kept CtlReg t) (n : Fin 12) : s.Kept CtlReg (t.stopDma n) := by
  unfold State.stopDma
  exact h.foldl _ _ (fun _ c hu => hu.dmaStop n _)

end State.Kept

end Machine
end Sys2Proof
end

section
/-! PROOFS. What each operation on a slice's control sets, and what it leaves (R33, R46, R50, R54). -/

namespace Sys2Proof
namespace Machine

/-! Fields that fit. -/

theorem State.getF_setF_of_lt (s : State) (a : Nat) (f : Fld) (v : Nat) (h : f.lo + f.width ≤ 32) (hv : v < 2 ^ f.width) :
    (s.setF a f v).getF a f = v := (s.getF_setF a f v h).trans (Nat.mod_eq_of_lt hv)

namespace State.Kept

variable {b : Nat} {s t : State}

/-- A write of the one control register that may change. -/
theorem setOwn (h : s.Kept (CtlRegBut b) t) (v : Word) : s.Kept (CtlRegBut b) (t.setReg b v) :=
  h.setReg b v (fun hb => hb.2 rfl)

end State.Kept

/-! SLC_STATE (R50). -/

/-- A change of SLC_STATE is the write of STATE and the count of SEQ, among changes that leave the slices' control. -/
theorem State.setSl_steps (s : State) (n : Fin 12) (st : Nat) : ∃ u, s.Kept CtlReg u ∧
    ((u.setF (R.SLC_STATE n) F.SLC_STATE_STATE st).countWrap (R.SLC_STATE n) F.SLC_STATE_SEQ).Kept CtlReg (s.setSl n st) := by
  unfold State.setSl
  extract_lets was s0 s1 s2 s3
  have h0 : s.Kept CtlReg s0 := ((State.Kept.refl _ s).endTests n).ite (.refl _ s)
  refine ⟨s0, h0, ?_⟩
  have h1 : State.Kept CtlReg _ s1 := (State.Kept.refl _ _).fireLocal n 0
  have h2 : State.Kept CtlReg _ s2 := (h1.ite ((h1.wdgStart n).router (State.levelTo_only _ n))).ite (h1.wdgStop n)
  have h3 : State.Kept CtlReg _ s3 := h2.ite ((h2.setReg _ _).pinsSlice n)
  exact (h3.showWins n).ite h3

theorem State.kept_setSl (s : State) (n : Fin 12) (st : Nat) : s.Kept (CtlRegBut (R.SLC_STATE n)) (s.setSl n st) := by
  obtain ⟨u, hu, h⟩ := s.setSl_steps n st
  exact (((hu.but _).setOwn _).setOwn _).trans (h.but _)

theorem State.slState_setSl (s : State) (n : Fin 12) {st : Nat} (hst : st < 8) : (s.setSl n st).slState n = st := by
  obtain ⟨u, -, h⟩ := s.setSl_steps n st
  rw [h.slState, State.slState, State.countWrap, State.getF_setF_fld _ _ _ _ _ (by decide) (by decide),
    State.getF_setF_of_lt _ _ _ _ (by decide) hst]

theorem State.seq_setSl (s : State) (n : Fin 12) (st : Nat) : (s.setSl n st).getF (R.SLC_STATE n) F.SLC_STATE_SEQ =
    (s.getF (R.SLC_STATE n) F.SLC_STATE_SEQ + 1) % 2 ^ F.SLC_STATE_SEQ.width := by
  obtain ⟨u, hu, h⟩ := s.setSl_steps n st
  rw [h.getF (ctlReg_SLC_STATE n), State.getF_countWrap _ _ _ (by decide),
    State.getF_setF_fld _ _ _ _ _ (by decide) (by decide), hu.getF (ctlReg_SLC_STATE n)]

theorem State.bankPending_setSl (s : State) (n : Fin 12) (st : Nat) :
    (s.setSl n st).isSet (R.SLC_STATE n) F.SLC_STATE_BANK_PENDING = s.isSet (R.SLC_STATE n) F.SLC_STATE_BANK_PENDING := by
  obtain ⟨u, hu, h⟩ := s.setSl_steps n st
  rw [h.isSet (ctlReg_SLC_STATE n), State.isSet, State.countWrap, State.getF_setF_fld _ _ _ _ _ (by decide) (by decide),
    State.getF_setF_fld _ _ _ _ _ (by decide) (by decide), hu.getF (ctlReg_SLC_STATE n), State.isSet]

/-! SLC_CMD_STAT and SLC_FAULT (R54). -/

theorem State.kept_cmdReply (s : State) (n : Fin 12) (cmd status : Nat) :
    s.Kept (CtlRegBut (R.SLC_CMD_STAT n)) (s.cmdReply n cmd status) := by
  have h1 : s.Kept (CtlRegBut (R.SLC_CMD_STAT n)) ((s.setF (R.SLC_CMD_STAT n) F.SLC_CMD_STAT_LAST_CMD cmd).setF
    (R.SLC_CMD_STAT n) F.SLC_CMD_STAT_STATUS status) := ((State.Kept.refl _ s).setOwn _).setOwn _
  exact h1.ite (h1.setOwn _)

/-- A reply shows the command, its status, and the HELD of before. -/
theorem State.cmdReply_shows (s : State) (n : Fin 12) {cmd status : Nat} (hc : cmd < 16) (hs : status < 16) :
    (s.cmdReply n cmd status).getF (R.SLC_CMD_STAT n) F.SLC_CMD_STAT_LAST_CMD = cmd ∧
    (s.cmdReply n cmd status).getF (R.SLC_CMD_STAT n) F.SLC_CMD_STAT_STATUS = status ∧
    (s.cmdReply n cmd status).isSet (R.SLC_CMD_STAT n) F.SLC_CMD_STAT_HELD =
      s.isSet (R.SLC_CMD_STAT n) F.SLC_CMD_STAT_HELD := by
  have h1 (u : State) (v : Nat) (f : Fld) (hf : f.lo + f.width ≤ 16) :
      (u.setF (R.SLC_CMD_STAT n) F.SLC_CMD_STAT_REJ v).getF (R.SLC_CMD_STAT n) f = u.getF (R.SLC_CMD_STAT n) f :=
    State.getF_setF_fld _ _ _ _ _ (by decide) (.inr hf)
  have hrej (f : Fld) (hf : f.lo + f.width ≤ 16) : (s.cmdReply n cmd status).getF (R.SLC_CMD_STAT n) f =
      ((s.setF (R.SLC_CMD_STAT n) F.SLC_CMD_STAT_LAST_CMD cmd).setF (R.SLC_CMD_STAT n) F.SLC_CMD_STAT_STATUS status).getF
        (R.SLC_CMD_STAT n) f := by
    unfold State.cmdReply
    dsimp only
    split
    · rfl
    · exact h1 _ _ f hf
  refine ⟨?_, ?_, congrArg (· == 1) ?_⟩
  · rw [hrej _ (by decide), State.getF_setF_fld _ _ _ _ _ (by decide) (by decide),
      State.getF_setF_of_lt _ _ _ _ (by decide) hc]
  · rw [hrej _ (by decide), State.getF_setF_of_lt _ _ _ _ (by decide) hs]
  · rw [hrej _ (by decide), State.getF_setF_fld _ _ _ _ _ (by decide) (by decide),
      State.getF_setF_fld _ _ _ _ _ (by decide) (by decide)]

theorem State.kept_noteCmd (s : State) (n : Fin 12) (cmd : Nat) :
    s.Kept (CtlRegBut (R.SLC_CMD_STAT n)) (s.noteCmd n cmd) := (State.Kept.refl _ s).setOwn _

theorem State.noteCmd_shows (s : State) (n : Fin 12) {cmd : Nat} (hc : cmd < 16) :
    (s.noteCmd n cmd).getF (R.SLC_CMD_STAT n) F.SLC_CMD_STAT_LAST_CMD = cmd :=
  State.getF_setF_of_lt _ _ _ _ (by decide) hc

theorem State.kept_slFault (s : State) (n : Fin 12) (cause : Nat) :
    s.Kept (CtlRegBut (R.SLC_FAULT n)) (s.slFault n cause) := ((State.Kept.refl _ s).setOwn _).setOwn _

theorem State.slFault_shows (s : State) (n : Fin 12) {cause : Nat} (hc : cause < 256) :
    (s.slFault n cause).isSet (R.SLC_FAULT n) F.SLC_FAULT_VALID = true ∧
    (s.slFault n cause).getF (R.SLC_FAULT n) F.SLC_FAULT_CAUSE = cause := by
  refine ⟨?_, State.getF_setF_of_lt _ _ _ _ (by decide) hc⟩
  rw [State.isSet, State.slFault, State.getF_setF_fld _ _ _ _ _ (by decide) (by decide),
    State.getF_setF_of_lt _ _ _ _ (by decide) (by decide), beq_self_eq_true]

/-! DEV_ARM (R33). -/

theorem State.kept_setArmed (s : State) (n : Fin 12) (b : Bool) : s.Kept (CtlRegBut R.DEV_ARM) (s.setArmed n b) :=
  ((State.Kept.refl _ s).setOwn _).trans ((State.Kept.refl CtlReg _).showSync.but _)

theorem State.kept_setArmPend (s : State) (n : Fin 12) (b : Bool) : s.Kept (CtlRegBut R.DEV_ARM) (s.setArmPend n b) :=
  (State.Kept.refl _ s).setOwn _

theorem State.armed_setArmed_false (s : State) (n : Fin 12) : (s.setArmed n false).armed n = false := by
  have hk : (s.setF R.DEV_ARM ⟨n, 1⟩ (b2n false)).Kept CtlReg (s.setArmed n false) := (State.Kept.refl _ _).showSync
  rw [State.armed, hk.getF ctlReg_DEV_ARM, natBit, State.getF, State.setF, State.reg_setReg_self, Fld.get_testBit,
    Fld.put_getLsbD _ (by simp only; omega)]
  simp [F.DEV_ARM_ARM, b2n]

theorem State.armed_setArmPend (s : State) (n : Fin 12) (b : Bool) : (s.setArmPend n b).armed n = s.armed n :=
  congrArg (natBit · n) (State.getF_setF_fld _ _ _ _ _ (by simp only; omega)
    (by simp only [F.DEV_ARM_ARM]; omega))

/-- A pending arm request that takes effect or is dropped changes DEV_ARM alone of the control registers (R31). -/
theorem State.kept_armPending (s : State) (n : Fin 12) : s.Kept (CtlRegBut R.DEV_ARM) (s.armPending n) := by
  have hdrop := s.kept_setArmPend n false
  have harm : s.Kept (CtlRegBut R.DEV_ARM) (s.armNow n) := by
    have h1 := (s.kept_setArmed n true).trans ((s.setArmed n true).kept_setArmPend n false)
    have h2 := h1.foldl (List.finRange 8) (fun u k => u.setPw n k { u.pw n k with armWait := true })
      (fun u k hu => hu.elsewhere)
    exact h2.trans (((State.Kept.refl CtlReg _).pinsSlice n).but _)
  exact (State.Kept.refl _ s).ite (hdrop.ite ((State.Kept.refl _ s).ite (hdrop.ite harm)))

/-! Pairs. -/

theorem State.haltPair_ctlOf (s : State) (p : Fin 13) (n : Fin 12) : (s.haltPair p).ctlOf n = s.ctlOf n := rfl

theorem State.haltPair_armed (s : State) (p : Fin 13) (n : Nat) : (s.haltPair p).armed n = s.armed n := rfl

theorem State.haltPair_slState (s : State) (p : Fin 13) (n : Nat) : (s.haltPair p).slState n = s.slState n := rfl

theorem State.haltPair_cells (s : State) (p : Fin 13) : (s.haltPair p).cells = s.cells := rfl

theorem State.halted_haltPair (s : State) (p : Fin 13) : ((s.haltPair p).coreOf p).halted = true :=
  congrArg CoreSt.halted (State.coreOf_setCore_self s p _)

/-! Injection runs and captures (R192). -/

theorem State.Kept.sendWords {s t : State} (h : s.Kept CtlReg t) (f m addr : Nat) (ws : List Word) (k : Nat) :
    s.Kept CtlReg (t.sendWords f m addr ws k) := by
  induction k generalizing t addr ws with
  | zero => exact h
  | succ k ih =>
    unfold State.sendWords
    split
    · exact h.elsewhere
    · exact ih h.elsewhere _ _

theorem State.Kept.injEnd {s t : State} (h : s.Kept CtlReg t) (n : Fin 12) (cause : Nat) :
    s.Kept CtlReg (t.injEnd n cause) := by
  have htoHost (u : State) (f : Fin 16) (addr : Nat) (ws : List Word) (hu : s.Kept CtlReg u) :
      s.Kept CtlReg (u.toHost f addr ws) := (hu.sendWords _ _ _ _ _).ite hu
  have hcapture (u : State) (hu : s.Kept CtlReg u) : s.Kept CtlReg (u.captureDone n cause) := by
    unfold State.captureDone
    extract_lets mine ws s1
    have h1 : s.Kept CtlReg s1 := hu.foldl _ _ (fun v f hv => hv.foldl _ _ (fun w y hw => (htoHost w f _ _ hw).ite hw))
    exact h1.descDone _ _ _
  unfold State.injEnd
  extract_lets a
  split
  · exact h
  · exact hcapture _ ((((h.setReg _ _).setReg _ _).setReg _ _).setReg _ _)

end Machine
end Sys2Proof
end

section
/-! PROOFS. How the commands of a slice begin, the change of its owner, and FENCE with its completion (R46, R47, R51 to R53). -/

namespace Sys2Proof
namespace Machine

/-! The writes of DEV_SLC_ASSIGN and SLC_CMD. -/

theorem State.write_DEV_SLC_ASSIGN (s : State) (x : Access) (n : Slice) (v : Word)
    (hr : s.reaches x (R.DEV_SLC_ASSIGN n) = true) : s.write x (R.DEV_SLC_ASSIGN n) v = s.assign x.m n v := by
  have hlo : 0x01000000 ≤ R.DEV_SLC_ASSIGN n := by unfold R.DEV_SLC_ASSIGN; omega
  have hhi : R.DEV_SLC_ASSIGN n < 0x01800000 := by unfold R.DEV_SLC_ASSIGN; omega
  have hunit : (R.DEV_SLC_ASSIGN n - 0x01000000) / 0x10000 = 0 := by unfold R.DEV_SLC_ASSIGN; omega
  have hoff : R.DEV_SLC_ASSIGN n - 0x01000000 = 0x40 + n * 4 := by unfold R.DEV_SLC_ASSIGN; omega
  have hbelow : ∀ k < 0x40, 0x40 + n.val * 4 ≠ k := by omega
  have hin : 0x40 + n.val * 4 < 0x70 ∧ (0x40 + n.val * 4) % 4 = 0 := by omega
  have hu : s.unreserved x (R.DEV_SLC_ASSIGN n) = true := (Bool.and_eq_true_iff.mp hr).2
  have hdev : s.deviceWrite x (R.DEV_SLC_ASSIGN n) v = s.devWrite x.m (R.DEV_SLC_ASSIGN n) v := by
    simp only [State.deviceWrite, hunit]
  rw [s.write_of_reaches x _ v hr, s.regWrite_device x _ v hlo hhi hu, hdev]
  simp [State.devWrite, hoff, hbelow, hin]

/-- What SLC_CMD holds of a command that carries the right key. -/
theorem slcCmdWord_fields {cmd : Nat} (hc : cmd < 6) (toTwin : Bool) :
    F.SLC_CMD_KEY.get (slcCmdWord 0x5C1E cmd toTwin) = 0x5C1E ∧ F.SLC_CMD_CMD.get (slcCmdWord 0x5C1E cmd toTwin) = cmd ∧
    F.SLC_CMD_TO_TWIN.get (slcCmdWord 0x5C1E cmd toTwin) = b2n toTwin := by
  have h : ∀ c : Fin 6, ∀ b : Bool, F.SLC_CMD_KEY.get (slcCmdWord 0x5C1E c b) = 0x5C1E ∧
      F.SLC_CMD_CMD.get (slcCmdWord 0x5C1E c b) = c ∧ F.SLC_CMD_TO_TWIN.get (slcCmdWord 0x5C1E c b) = b2n b := by decide
  exact h ⟨cmd, hc⟩ toTwin

theorem State.write_SLC_CMD (s : State) (x : Access) (n : Slice) (v : Word) (hr : s.reaches x (R.SLC_CMD n) = true)
    (hf : s.fitted n = true) : s.write x (R.SLC_CMD n) v = s.slcCmd x.m n v := by
  have hu : s.unreserved x (R.SLC_CMD n) = true := (Bool.and_eq_true_iff.mp hr).2
  have hk : kcBars x (R.SLC_CMD n) = false := by
    simp only [State.reaches, State.takesWrite, Bool.and_eq_true, Bool.not_eq_true'] at hr
    exact hr.1.2
  rw [s.write_of_reaches x _ v hr, R.SLC_CMD, s.regWrite_slice x n 0xC v (by decide) hk hf hu]
  rfl

/-- What a command of SLC_CMD does for a master that may give it (R54): FENCE, RESUME, GO, RESTART and STOP. -/
def State.obey (s : State) (n : Slice) (toTwin : Bool) : Nat → State
  | 1 => s.fenceCmd n 1 toTwin
  | 2 => s.resumeCmd n
  | 3 => s.goCmd n
  | 4 => s.restartCmd n
  | _ => s.stopCmd n

theorem State.write_slcCmdWord {s : State} {x : Access} {n : Slice} {cmd : Nat} (toTwin : Bool)
    (hr : s.reaches x (R.SLC_CMD n) = true) (hf : s.fitted n = true) (hc : 0 < cmd ∧ cmd < 6)
    (hm : s.mayCmd x.m n cmd = true) : s.write x (R.SLC_CMD n) (slcCmdWord 0x5C1E cmd toTwin) = s.obey n toTwin cmd := by
  obtain ⟨hkey, hcmd, htw⟩ := slcCmdWord_fields hc.2 toTwin
  have hb : (b2n toTwin == 1) = toTwin := by cases toTwin <;> rfl
  have hcode : (cmd == 0 || decide (5 < cmd)) = false := by simp; omega
  rw [s.write_SLC_CMD x n _ hr hf, State.slcCmd]
  simp only [hf, hkey, hcmd, htw, hm, hb, hcode, bne_self_eq_false, Bool.false_or, Bool.not_true, Bool.false_eq_true, if_false]
  rfl

/-- The owner may give every command (R45). -/
theorem State.mayCmd_of_ownerIs {s : State} {n : Slice} {m : Master} (cmd : Nat) (h : s.ownerIs n m = true) :
    s.mayCmd m n cmd = true := by
  rw [State.mayCmd, h, Bool.true_or]

/-! A change of one control register. -/

namespace State.Kept

variable {a b : Nat} {s t : State}

theorem getF_but (h : s.Kept (CtlRegBut b) t) (ha : CtlReg a) (f : Fld)
    (hne : a ≠ b := by
      simp only [R.SLC_STATE, R.SLC_CMD_STAT, R.SLC_FAULT, R.DEV_ARM, R.DEV_SLC_ASSIGN, sliceBase]
      omega) : t.getF a f = s.getF a f := h.getF ⟨ha, hne⟩ f

theorem isSet_but (h : s.Kept (CtlRegBut b) t) (ha : CtlReg a) (f : Fld)
    (hne : a ≠ b := by
      simp only [R.SLC_STATE, R.SLC_CMD_STAT, R.SLC_FAULT, R.DEV_ARM, R.DEV_SLC_ASSIGN, sliceBase]
      omega) : t.isSet a f = s.isSet a f := h.isSet ⟨ha, hne⟩ f

theorem slState_but (h : s.Kept (CtlRegBut b) t) (n : Slice)
    (hne : R.SLC_STATE n ≠ b := by
      simp only [R.SLC_STATE, R.SLC_CMD_STAT, R.SLC_FAULT, R.DEV_ARM, R.DEV_SLC_ASSIGN, sliceBase]
      omega) : t.slState n = s.slState n := h.getF ⟨ctlReg_SLC_STATE n, hne⟩ _

theorem armed_but (h : s.Kept (CtlRegBut b) t) (n : Slice)
    (hne : R.DEV_ARM ≠ b := by
      simp only [R.SLC_STATE, R.SLC_CMD_STAT, R.SLC_FAULT, R.DEV_ARM, R.DEV_SLC_ASSIGN, sliceBase]
      omega) : t.armed n = s.armed n := congrArg (natBit · n) (h.getF ⟨ctlReg_DEV_ARM, hne⟩ _)

theorem armed (h : s.Kept CtlReg t) (n : Slice) : t.armed n = s.armed n := congrArg (natBit · n) (h.getF ctlReg_DEV_ARM _)

end State.Kept

/-! The change of owner (R47). -/

/-- A change of owner is the write of OWNER and the count of EPOCH, before what ends with the former owner. -/
theorem State.kept_setOwner_of_ne (s : State) (n : Fin 12) {o : Nat} (h : s.owner n ≠ o) :
    ((s.setF (R.DEV_SLC_ASSIGN n) F.DEV_SLC_ASSIGN_OWNER o).countWrap (R.DEV_SLC_ASSIGN n) F.DEV_SLC_ASSIGN_EPOCH).Kept CtlReg
      (s.setOwner n o) := by
  unfold State.setOwner
  rw [if_neg (by simpa using h)]
  exact (((State.Kept.refl _ _).router (State.staleTarget_only _ _ _)).router (State.staleVectorsOf_only _ _)).descDisown n o

theorem State.kept_setOwner (s : State) (n : Fin 12) (o : Nat) :
    s.Kept (CtlRegBut (R.DEV_SLC_ASSIGN n)) (s.setOwner n o) := by
  by_cases h : s.owner n = o
  · rw [State.setOwner, if_pos (by simpa using h)]
    exact .refl _ s
  · exact (((State.Kept.refl _ s).setOwn _).setOwn _).trans ((s.kept_setOwner_of_ne n h).but _)

theorem State.owner_setOwner (s : State) (n : Fin 12) {o : Nat} (ho : o < 32) : (s.setOwner n o).owner n = o := by
  by_cases h : s.owner n = o
  · rw [State.setOwner, if_pos (by simpa using h), h]
  · rw [State.owner, (s.kept_setOwner_of_ne n h).getF (ctlReg_DEV_SLC_ASSIGN n), State.countWrap,
      State.getF_setF_fld _ _ _ _ _ (by decide) (by decide), State.getF_setF_of_lt _ _ _ _ (by decide) ho]

theorem State.sliceEpoch_setOwner (s : State) (n : Fin 12) (o : Nat) : (s.setOwner n o).sliceEpoch n =
    if s.owner n = o then s.sliceEpoch n else (s.sliceEpoch n + 1) % 2 ^ F.DEV_SLC_ASSIGN_EPOCH.width := by
  split
  · next h => rw [State.setOwner, if_pos (by simpa using h)]
  · next h =>
    rw [State.sliceEpoch, (s.kept_setOwner_of_ne n h).getF (ctlReg_DEV_SLC_ASSIGN n), State.getF_countWrap _ _ _ (by decide),
      State.getF_setF_fld _ _ _ _ _ (by decide) (by decide), State.sliceEpoch]

theorem State.pwm_descDisown (s : State) (n o : Nat) : (s.descDisown n o).pwm = s.pwm := by
  unfold State.descDisown
  refine foldl_keeps (fun t : State => t.pwm = s.pwm) _ _ s rfl (fun t f ht => ?_)
  dsimp only
  split
  · exact ht
  · exact ht

theorem State.pwm_setOwner (s : State) (n : Fin 12) (o : Nat) : (s.setOwner n o).pwm = s.pwm := by
  unfold State.setOwner
  extract_lets a s1
  split
  · rfl
  · have h := (s1.staleTarget_only 1 (fun i => i == n.val)).trans (State.staleVectorsOf_only _ n)
    rw [State.pwm_descDisown, h.rest]
    rfl

/-- An assignment that R46 accepts sets the owner, and tells OK. -/
theorem State.assign_accepted {s : State} {m : Master} {n : Slice} {v : Word} (hm : m.isSys = true) (hf : s.fitted n = true)
    (ho : F.DEV_SLC_ASSIGN_OWNER.get v = 0 ∨ F.DEV_SLC_ASSIGN_OWNER.get v = 0x1F ∨
      (F.DEV_SLC_ASSIGN_OWNER.get v < 16 ∧ s.vfExists (F.DEV_SLC_ASSIGN_OWNER.get v) = true))
    (hst : s.slState n = slOff ∨ s.slState n = slFenced) :
    s.assign m n v = (s.setOwner n (F.DEV_SLC_ASSIGN_OWNER.get v)).setF
      (R.DEV_SLC_ASSIGN n) F.DEV_SLC_ASSIGN_ASSIGN_STATUS 0 := by
  have hstate : (s.slState n == slOff || s.slState n == slFenced) = true := by simpa using hst
  have hcode : (decide (F.DEV_SLC_ASSIGN_OWNER.get v < 16) || F.DEV_SLC_ASSIGN_OWNER.get v == 0x1F) = true := by
    simp only [Bool.or_eq_true, decide_eq_true_eq, beq_iff_eq]
    omega
  have hexists : (decide (1 ≤ F.DEV_SLC_ASSIGN_OWNER.get v) && decide (F.DEV_SLC_ASSIGN_OWNER.get v < 16) &&
      !s.vfExists (F.DEV_SLC_ASSIGN_OWNER.get v)) = false := by
    rcases ho with ho | ho | ⟨-, ho⟩ <;> simp [ho]
  simp only [State.assign, hm, hf, hstate, hcode, hexists, Bool.not_true, Bool.or_self, Bool.false_eq_true, if_false]

/-! FENCE (R51 to R53). -/

/-- What a FENCE that takes effect at once makes of slice n (R52). -/
structure State.FenceTakesEffect (s t : State) (n : Slice) : Prop where
  fencing : (t.ctlOf n).fencing = true
  unmasked : (t.ctlOf n).unmasked = false
  safeHold : (t.ctlOf n).safeHold = ((s.ctlOf n).safeHold || s.armed n)
  disarmed : t.armed n = false
  halted : (t.coreOf (pairOf n)).halted = true
  slState : t.slState n = s.slState n
  cells : t.cells = s.cells

theorem State.fenceNow_takesEffect (s : State) (n : Slice) (cause : Nat) (h : (s.ctlOf n).toTwin = false) :
    s.FenceTakesEffect (s.fenceNow n cause) n := by
  unfold State.fenceNow
  extract_lets c0 s0 u c hold s1 s2 s3 s4
  have hu : u = s0 := if_neg (by simp only [c0, h, Bool.false_eq_true, not_false_eq_true])
  have hhold : hold = ((s.ctlOf n).safeHold || s.armed n) := by
    simp only [hold, c, hu, s0, c0, State.ctlOf_setCtl_self, State.armed, State.setCtl_getF]
  have h2 : s1.Kept (CtlRegBut R.DEV_ARM) s2 := (s1.kept_setArmed n false).trans (State.kept_setArmPend _ n false)
  have hdrop : s2.Kept CtlReg ((s2.dropCle n false).dropCmds n) := ((State.Kept.refl _ s2).dropCle n).dropCmds n
  have h4 : s3.Kept (CtlRegBut (R.SLC_CMD_STAT n))
      (((s4.setF (R.SLC_CMD_STAT n) F.SLC_CMD_STAT_HELD 0).descDone (.running n) 2 0).pinsSlice n) :=
    ((((State.Kept.refl _ s3).stopDma n).but _).setOwn _).trans
      ((((State.Kept.refl CtlReg _).descDone (.running n) 2 0).pinsSlice n).but _)
  have hctl := h4.ctlOf n
  rw [State.haltPair_ctlOf, hdrop.ctlOf, h2.ctlOf, State.ctlOf_setCtl_self] at hctl
  exact {
    fencing := congrArg CtlSt.fencing hctl
    unmasked := congrArg CtlSt.unmasked hctl
    safeHold := (congrArg CtlSt.safeHold hctl).trans hhold
    disarmed := by
      have harmed : s2.armed n = false := (State.armed_setArmPend _ n false).trans (s1.armed_setArmed_false n)
      rw [h4.armed_but n, State.haltPair_armed, hdrop.armed n, harmed]
    halted := by
      rw [h4.coreOf]
      exact State.halted_haltPair _ _
    slState := by
      rw [h4.slState_but n, State.haltPair_slState, hdrop.slState n, h2.slState_but n, State.slState, State.setCtl_getF, hu,
        State.setCtl_getF, State.slState]
    cells := by
      rw [h4.cells, State.haltPair_cells, hdrop.cells, h2.cells, State.setCtl_cells, hu, State.setCtl_cells] }

/-- A FENCE of a slice in READY, RUNNING or SAFE, with none in progress or held, takes effect at once and is told OK. -/
theorem State.fenceCmd_live {s : State} {n : Slice}
    (hst : s.slState n = slReady ∨ s.slState n = slRunning ∨ s.slState n = slSafe)
    (hf : (s.ctlOf n).fencing = false) (hh : s.isSet (R.SLC_CMD_STAT n) F.SLC_CMD_STAT_HELD = false) :
    ∃ u, s.FenceTakesEffect u n ∧ s.fenceCmd n 1 false = u.cmdReply n 1 0 := by
  have hp : s.fencePending n = false := by rw [State.fencePending, hf, hh, Bool.or_self]
  have hne : (s.slState n == slFenced) = false ∧ (s.slState n == slRecovering) = false ∧
      (s.slState n == slOff) = false := by
    rcases hst with h | h | h <;> rw [h] <;> decide
  obtain ⟨hfenced, hrec, hoff⟩ := hne
  simp only [State.fenceCmd, State.fenceStart, hp, hfenced, hrec, hoff, Bool.false_and, Bool.or_self,
    Bool.false_eq_true, if_false]
  refine ⟨_, ?_, rfl⟩
  obtain ⟨hfencing, hunmasked, hhold, hdisarmed, hhalted, hstate, hcells⟩ :=
    (s.setCtl n { s.ctlOf n with toTwin := false, fenceCause := 1 }).fenceNow_takesEffect n 1 (by rw [State.ctlOf_setCtl_self])
  exact ⟨hfencing, hunmasked, hhold.trans (by rw [State.ctlOf_setCtl_self]; rfl), hdisarmed, hhalted, hstate, hcells⟩

/-- A FENCE of a RECOVERING slice shows HELD, and takes no effect yet (R53). -/
theorem State.fenceCmd_recovering {s : State} {n : Slice} {tw : Bool} (hst : s.slState n = slRecovering)
    (hf : (s.ctlOf n).fencing = false) (hh : s.isSet (R.SLC_CMD_STAT n) F.SLC_CMD_STAT_HELD = false)
    (htw : tw = true → s.twinReady n = true) :
    ∃ u : State, (u.ctlOf n).fencing = false ∧ u.regs = s.regs ∧ s.fenceCmd n 1 tw =
      ((u.setF (R.SLC_CMD_STAT n) F.SLC_CMD_STAT_HELD 1).pinsSlice n).cmdReply n 1 0 := by
  have hp : s.fencePending n = false := by rw [State.fencePending, hf, hh, Bool.or_self]
  have hready : (tw && !s.twinReady n) = false := by
    cases tw with
    | false => rfl
    | true => rw [htw rfl]; rfl
  have hfenced : (s.slState n == slFenced) = false := by rw [hst]; rfl
  have hrec : (s.slState n == slRecovering) = true := by rw [hst]; rfl
  simp only [State.fenceCmd, State.fenceStart, hp, hready, hfenced, hrec, Bool.or_self, Bool.false_eq_true, if_false, if_true]
  refine ⟨_, ?_, ?_, rfl⟩
  · rw [State.ctlOf_setCtl_self, State.ctlOf_setCtl_self]
    exact hf
  · rw [State.setCtl_regs, State.setCtl_regs]

/-! The completion of a FENCE (R52). -/

/-- With no bank pending, the slice keeps its program and microcode. -/
theorem State.takeBank_of_notPending {s : State} {n : Fin 12} (h : s.isSet (R.SLC_STATE n) F.SLC_STATE_BANK_PENDING = false) :
    s.takeBank n = s := by
  simp only [State.takeBank, h, Bool.false_and, Bool.false_eq_true, if_false]

/-- What the completion of a FENCE makes of slice n. -/
structure State.FenceCompletes (s t : State) (n : Slice) (cause : Nat) : Prop where
  slState : t.slState n = slFenced
  fencing : (t.ctlOf n).fencing = false
  valid : t.isSet (R.SLC_FAULT n) F.SLC_FAULT_VALID = true
  cause : t.getF (R.SLC_FAULT n) F.SLC_FAULT_CAUSE = if (s.ctlOf n).fenceFault then 9 else cause
  seq : t.getF (R.SLC_STATE n) F.SLC_STATE_SEQ =
    (s.getF (R.SLC_STATE n) F.SLC_STATE_SEQ + 1) % 2 ^ F.SLC_STATE_SEQ.width
  cells : t.cells = s.cells

theorem State.nowFenced_completes (s : State) (n : Slice) {cause : Nat} (hc : cause < 256)
    (hb : s.isSet (R.SLC_STATE n) F.SLC_STATE_BANK_PENDING = false) : s.FenceCompletes (s.nowFenced n cause) n cause := by
  unfold State.nowFenced
  extract_lets c s1 s2 s3
  have hcause : (if c.fenceFault then 9 else cause) < 256 := by split <;> omega
  obtain ⟨hvalid, hshown⟩ := (s.setCtl n { c with fencing := false }).slFault_shows n hcause
  have hv := (s.setCtl n { c with fencing := false }).kept_slFault n (if c.fenceFault then 9 else cause)
  have hdrop := (State.Kept.refl CtlReg _).router
    (((s.setCtl n { c with fencing := false }).slFault n (if c.fenceFault then 9 else cause)).dropRoutesTo_only n)
  have h1 : State.Kept (CtlRegBut (R.SLC_STATE n)) _ s1 := State.kept_setSl _ n slFenced
  have hinj : s1.Kept CtlReg (s1.injEnd n 3) := (State.Kept.refl _ s1).injEnd n 3
  have hbank : (s1.injEnd n 3).isSet (R.SLC_STATE n) F.SLC_STATE_BANK_PENDING = false := by
    rw [hinj.isSet (ctlReg_SLC_STATE n), State.bankPending_setSl, hdrop.isSet (ctlReg_SLC_STATE n),
      hv.isSet_but (ctlReg_SLC_STATE n), State.setCtl_isSet, hb]
  have h3 : s1.Kept CtlReg s3 := by
    simp only [s3, s2, State.takeBank_of_notPending hbank]
    exact (hinj.pinsSlice n).descDone _ _ _
  have hr : s1.Kept (CtlRegBut (R.DEV_SLC_ASSIGN n)) (if c.fenceCause == 8 then s3.setOwner n 0x1F else s3) :=
    ((h3.but _).trans (s3.kept_setOwner n 0x1F)).ite (h3.but _)
  exact {
    slState := by rw [hr.slState_but n, State.slState_setSl _ n (by decide)]
    fencing := by rw [hr.ctlOf, h1.ctlOf, hdrop.ctlOf, hv.ctlOf, State.ctlOf_setCtl_self]
    valid := by
      rw [hr.isSet_but (ctlReg_SLC_FAULT n), h1.isSet_but (ctlReg_SLC_FAULT n), hdrop.isSet (ctlReg_SLC_FAULT n), hvalid]
    cause := by
      rw [hr.getF_but (ctlReg_SLC_FAULT n), h1.getF_but (ctlReg_SLC_FAULT n), hdrop.getF (ctlReg_SLC_FAULT n), hshown]
    seq := by
      rw [hr.getF_but (ctlReg_SLC_STATE n), State.seq_setSl, hdrop.getF (ctlReg_SLC_STATE n),
        hv.getF_but (ctlReg_SLC_STATE n), State.setCtl_getF]
    cells := by rw [hr.cells, h1.cells, hdrop.cells, hv.cells, State.setCtl_cells] }

/-- A FENCE accepted in READY, RUNNING or SAFE completes once the units of the slice are at rest. -/
theorem State.fenceEnd_live {s : State} {n : Slice} (hf : (s.ctlOf n).fencing = true)
    (hst : s.slState n = slReady ∨ s.slState n = slRunning ∨ s.slState n = slSafe) (hrest : s.atRest n = true) :
    s.fenceEnd n = s.nowFenced n (s.ctlOf n).fenceCause := by
  have hoff : (s.slState n == slOff) = false := by
    rcases hst with h | h | h <;> rw [h] <;> rfl
  simp only [State.fenceEnd, hf, hoff, hrest, Bool.not_true, Bool.false_eq_true, if_false, if_true]

/-- Settles O3: each clause by what its command comes to, an assignment, a FENCE at once or held, and its completion. -/
theorem sliceOwnershipAndFence : Obligations.SliceOwnershipAndFence := by
  refine ⟨?assign, ?fence, ?held, ?complete⟩
  case assign =>
    intro s x n v hr hm hf ho hst _
    refine ⟨_, rfl, ?_⟩
    rw [s.write_DEV_SLC_ASSIGN x n v hr, State.assign_accepted hm hf ho hst]
    have ho' : F.DEV_SLC_ASSIGN_OWNER.get v < 32 := Fld.get_lt _ v
    have hk := s.kept_setOwner n (F.DEV_SLC_ASSIGN_OWNER.get v)
    refine ⟨?_, ?_, ?_, hk.cells, hk.core, s.pwm_setOwner n _⟩
    · rw [State.owner, State.getF_setF_fld _ _ _ _ _ (by decide) (by decide), ← State.owner, s.owner_setOwner n ho']
    · rw [State.getF_setF_of_lt _ _ _ _ (by decide) (by decide)]
    · rw [State.sliceEpoch, State.getF_setF_fld _ _ _ _ _ (by decide) (by decide), ← State.sliceEpoch,
        s.sliceEpoch_setOwner]
  case fence =>
    rintro s x n _ hr hf rfl hm hst hfen hheld
    refine ⟨_, rfl, ?_⟩
    obtain ⟨u, he, hcmd⟩ := State.fenceCmd_live hst hfen hheld
    rw [State.write_slcCmdWord false hr hf (by decide) hm, State.obey, hcmd]
    have hk := u.kept_cmdReply n 1 0
    obtain ⟨hlast, hstatus, -⟩ := u.cmdReply_shows n (cmd := 1) (status := 0) (by decide) (by decide)
    refine ⟨hlast, hstatus, ?_⟩
    rw [hk.ctlOf, hk.coreOf, hk.armed_but n, hk.slState_but n, hk.cells]
    exact ⟨he.fencing, he.unmasked, he.safeHold, he.disarmed, he.halted, he.slState, he.cells⟩
  case held =>
    rintro s x n _ tw hr hf rfl hm hst hfen hheld htw
    refine ⟨_, rfl, ?_⟩
    obtain ⟨u, hu, huregs, hcmd⟩ := State.fenceCmd_recovering hst hfen hheld htw
    rw [State.write_slcCmdWord tw hr hf (by decide) hm, State.obey, hcmd]
    have hp : State.Kept CtlReg _ ((u.setF (R.SLC_CMD_STAT n) F.SLC_CMD_STAT_HELD 1).pinsSlice n) :=
      (State.Kept.refl _ _).pinsSlice n
    have hset : u.Kept (CtlRegBut (R.SLC_CMD_STAT n)) (u.setF (R.SLC_CMD_STAT n) F.SLC_CMD_STAT_HELD 1) :=
      (State.Kept.refl _ u).setOwn _
    have hk := ((u.setF (R.SLC_CMD_STAT n) F.SLC_CMD_STAT_HELD 1).pinsSlice n).kept_cmdReply n 1 0
    obtain ⟨-, hstatus, hshown⟩ := State.cmdReply_shows
      ((u.setF (R.SLC_CMD_STAT n) F.SLC_CMD_STAT_HELD 1).pinsSlice n) n (cmd := 1) (status := 0) (by decide) (by decide)
    refine ⟨?_, hstatus, ?_, ?_⟩
    · rw [hshown, hp.isSet (ctlReg_SLC_CMD_STAT n), State.isSet, State.getF_setF_of_lt _ _ _ _ (by decide) (by decide),
        beq_self_eq_true]
    · rw [hk.slState_but n, hp.slState, hset.slState_but n, ← hst, State.slState, State.slState, State.getF, State.getF,
        State.reg, State.reg, huregs]
    · rw [hk.ctlOf, hp.ctlOf, hset.ctlOf, hu]
  case complete =>
    intro s n _ hfen hst hrest hbank hc
    refine ⟨_, rfl, ?_⟩
    rw [State.fenceEnd_live hfen hst hrest]
    obtain ⟨hstate, hfencing, hvalid, hcause, hseq, hcells⟩ :=
      s.nowFenced_completes n (cause := (s.ctlOf n).fenceCause) (by omega) hbank
    exact ⟨hstate, hfencing, hvalid, hcause, hseq, hcells⟩

end Machine
end Sys2Proof
end

section
/-! PROOFS. What a VALLEY of a PWM channel, the reset of a core and STOP's reset of the units leave of a slice's control. -/

namespace Sys2Proof
namespace Machine

namespace State.Kept

variable {P : Nat → Prop} {s t : State}

/-! A valley (R147, R158, R163, R171). -/

theorem setPw (h : s.Kept P t) (n : Fin 12) (k : Fin 8) (p : PwmSt) : s.Kept P (t.setPw n k p) := h.elsewhere

theorem setPos (h : s.Kept CtlReg t) (n : Fin 12) (k : Fin 8) (u : Nat) (fall : Bool) : s.Kept CtlReg (t.setPos n k u fall) :=
  (h.setPw n k _).setReg _ _

theorem loadCmp (h : s.Kept CtlReg t) (n : Fin 12) (k : Fin 8) (c : Nat) : s.Kept CtlReg (t.loadCmp n k c) :=
  ((h.setReg _ _).setReg _ _).ite (h.setReg _ _)

theorem reload (h : s.Kept CtlReg t) (n : Fin 12) (k : Fin 8) (valley : Bool) : s.Kept CtlReg (t.reload n k valley) := by
  unfold State.reload
  extract_lets m cmp dt s1 s2
  have h1 : s.Kept CtlReg s1 := State.Kept.ite (h.setReg _ _) h
  have hreclamp : s.Kept CtlReg (s1.reclamp n k) := (h1.loadCmp n k _).ite h1
  have h2 : s.Kept CtlReg s2 := (h1.loadCmp n k _).ite (hreclamp.ite h1)
  exact State.Kept.ite (h2.setReg _ _) h2

theorem syncCheck (h : s.Kept CtlReg t) (n : Fin 12) : s.Kept CtlReg (t.syncCheck n) :=
  h.foldl _ _ (fun _ _ hu => (hu.setReg _ _).ite hu)

theorem syncCorrect (h : s.Kept CtlReg t) (n : Fin 12) (k : Fin 8) : s.Kept CtlReg (t.syncCorrect n k) := by
  unfold State.syncCorrect
  extract_lets st per cm
  split
  · exact h
  · extract_lets d s1 s2 u s2'
    have h1 : s.Kept CtlReg s1 := h.setReg _ _
    have h2 : s.Kept CtlReg s2 := (h1.setReg _ _).setReg _ _
    have h2' : s.Kept CtlReg s2' := h2.setPos n k _ _
    exact State.Kept.ite (h1.setReg _ _) ((h2.ite (h2'.setPw n k _)).ite (h2.setPw n k _))

theorem latchTrip (h : s.Kept CtlReg t) (n : Fin 12) (k : Fin 8) (req : Word) : s.Kept CtlReg (t.latchTrip n k req) := by
  unfold State.latchTrip
  extract_lets st src s1 s2 s3 s4
  have h2 : s.Kept CtlReg s2 := ((h.setReg _ _).setReg _ _).setReg _ _
  have h4 : s.Kept CtlReg s4 := ((h2.setReg _ _).setReg _ _).setReg _ _
  exact h.ite (State.Kept.ite (h.setReg _ _) ((h4.fireLocal n 23).pins n k))

theorem rearm (h : s.Kept CtlReg t) (n : Fin 12) (k : Fin 8) : s.Kept CtlReg (t.rearm n k) := by
  unfold State.rearm
  extract_lets p s1
  have h1 : s.Kept CtlReg s1 := h.setPw n k _
  exact ((h1.latchTrip n k _).pins n k).ite ((h1.pins n k).ite ((h1.setReg _ _).pins n k))

/-- A trigger reaches a converter of a slice that is not RECOVERING: no sample is missed. -/
theorem sarTrig (h : s.Kept CtlReg t) (n : Fin 12) (k : Fin 4) (hn : s.slState n ≠ slRecovering) :
    s.Kept CtlReg (t.sarTrig n k false 0) := by
  have hsr {u : State} (hu : s.Kept CtlReg u) (x : SarSt) : s.Kept CtlReg (u.setSr n k x) := hu.elsewhere
  have hignored : s.Kept CtlReg (t.sarIgnored n k) := by
    rw [State.sarIgnored, if_neg (by rw [h.slState, beq_iff_eq]; exact hn)]
    exact h
  have hstart : s.Kept CtlReg (t.sarStart n k) := (hsr h _).setReg _ _
  have hpend {u : State} (hu : s.Kept CtlReg u) (m : Nat) : s.Kept CtlReg (u.sarPend n k m) := by
    unfold State.sarPend
    extract_lets st dropped s1
    have h1 : s.Kept CtlReg s1 := hu.ite (hu.setReg _ _)
    have h2 : s.Kept CtlReg (s1.countBy (R.SAR_OVR n k) F.SAR_OVR_TRIG dropped) := h1.setReg _ _
    exact h1.ite (h2.ite (State.Kept.fireLocal (h2.setReg _ _) n 19))
  unfold State.sarTrig
  extract_lets x ovr s1
  have h1 : s.Kept CtlReg s1 := hstart
  exact hignored.ite (((hpend hstart 0).ite ((hsr h1 _).setReg _ _)).ite (State.Kept.ite (h.setReg _ _) (hpend h _)))

theorem pwmEvent (h : s.Kept CtlReg t) (n : Fin 12) (k : Fin 8) (e : Fin 4) (hn : s.slState n ≠ slRecovering) :
    s.Kept CtlReg (t.pwmEvent n k e) := by
  have hsar {u : State} (hu : s.Kept CtlReg u) : s.Kept CtlReg (u.sarEvent n k e) :=
    hu.foldl _ _ (fun _ i hv => (hv.sarTrig n i hn).ite hv)
  exact (hsar ((h.setPw n k _).fireLocal n _)).ite (h.setPw n k _)

theorem pwmValley (h : s.Kept CtlReg t) (n : Fin 12) (k : Fin 8) (hn : s.slState n ≠ slRecovering) :
    s.Kept CtlReg (t.pwmValley n k) := by
  unfold State.pwmValley State.valley
  extract_lets s1 s2 s3 s4 s5
  have h1 : s.Kept CtlReg s1 := h.setPos n k 0 false
  have h2 : s.Kept CtlReg s2 := h1.setReg _ _
  have h4 : s.Kept CtlReg s4 := ((h2.reload n k true).syncCheck n).syncCorrect n k
  exact ((h4.rearm n k).pwmEvent n k 0 hn).ite h

end State.Kept

end Machine
end Sys2Proof
end

section
/-! PROOFS. RESUME, GO, RESTART and STOP, and how each ends (R50, R54, R56, R150). -/

namespace Sys2Proof
namespace Machine

namespace State.Kept

variable {P : Nat → Prop} {s t : State}

/-! Core reset and the reset of a slice's units (R50, R250). -/

theorem slc (h : s.Kept CtlReg t) : s.Kept SlcReg t := h.mono (fun _ => .inl)

theorem dropCall (h : s.Kept CtlReg t) (n : Fin 12) : s.Kept CtlReg (t.dropCall n) := by
  unfold State.dropCall
  extract_lets u
  have hu : s.Kept CtlReg u := by
    simp only [u]
    split
    · exact State.Kept.ite ((h.setCle n _).setReg _ _) h
    · exact h
  exact (hu.setCle n _).showCall n

/-- A reset of registers in the block of slice n, above its first 0x20 bytes. -/
theorem resetUnit (h : s.Kept SlcReg t) (n : Slice) (lo hi : Nat) (hlo : 0x20 ≤ lo := by decide)
    (hhi : hi ≤ 0x100000 := by decide) : s.Kept SlcReg (t.resetRegs (sliceBase n + lo) (sliceBase n + hi)) := by
  refine h.resetRegs _ _ (fun a ha => ?_)
  simp only [SlcReg, sliceBase] at ha ⊢
  omega

theorem analogReset (h : s.Kept SlcReg t) (n : Slice) :
    s.Kept SlcReg (((((t.grgReset n).sarReset n).pwmReset n).cleReset n).injReset n) := by
  have hgrg : s.Kept SlcReg (t.grgReset n) := (h.resetUnit n 0x3000 0x4000).elsewhere
  have hsar : s.Kept SlcReg ((t.grgReset n).sarReset n) := (hgrg.resetUnit n 0x2000 0x3000).elsewhere
  have hpwm : s.Kept SlcReg (((t.grgReset n).sarReset n).pwmReset n) := (hsar.resetUnit n 0x1000 0x1800).elsewhere
  have hcle : s.Kept SlcReg ((((t.grgReset n).sarReset n).pwmReset n).cleReset n) := (hpwm.resetUnit n 0x4000 0x5000).setCle n _
  exact (hcle.resetUnit n 0xB000 0xC000).elsewhere

theorem ptbEnd (h : s.Kept SlcReg t) (n : Slice) (cause : Nat) : s.Kept SlcReg (t.ptbEnd n cause) := by
  unfold State.ptbEnd
  extract_lets s1
  have h1 : s.Kept SlcReg s1 := h.elsewhere
  exact h1.ite (((h1.setReg _ _).setReg _ _).setReg _ _)

theorem evlReset (h : s.Kept SlcReg t) (n : Slice) : s.Kept SlcReg (t.evlReset n) :=
  (h.resetUnit n 0x9000 0xA000).foldl _ _ (fun u _ hu =>
    hu.ite (hu.trans ((State.Kept.refl CtlReg u).router (State.setRoute_only u _ _)).slc))

theorem dmaReset (h : s.Kept SlcReg t) (n : Slice) : s.Kept SlcReg (t.dmaReset n.castSucc) := by
  have hbase : dmaBase n.castSucc = sliceBase n + 0x8000 := dmaBase_slice n
  unfold State.dmaReset
  rw [hbase, Nat.add_assoc]
  exact (h.resetUnit n 0x8000 0x9000).elsewhere

theorem stpReset (h : s.Kept SlcReg t) (n : Slice) : s.Kept SlcReg (t.stpReset n) :=
  (h.resetUnit n 0xE000 0xF000).elsewhere

theorem slcReset (h : s.Kept SlcReg t) (n : Slice) : s.Kept SlcReg (t.slcReset n) := by
  have hsample {u : State} (hu : s.Kept SlcReg u) : s.Kept SlcReg (u.tripSample n) := hu.foldl _ _ (fun _ i hv => hv.setReg _ _)
  have hcap {u : State} (hu : s.Kept SlcReg u) (c : Vector (Vector CapSt 4) 12) : s.Kept SlcReg { u with cap := c } :=
    hu.elsewhere
  exact hsample (hcap ((h.resetUnit n 0x20 0x28).resetUnit n 0x100 0x1D0) _)

theorem unitReset (h : s.Kept SlcReg t) (n : Slice) : s.Kept SlcReg (t.unitReset n) := by
  unfold State.unitReset
  extract_lets s1 s2 s3
  have h1 : s.Kept SlcReg s1 := h.analogReset n
  have h2 : s.Kept SlcReg s2 := ((((h1.ptbEnd n 3).evlReset n).dmaReset n).stpReset n).slcReset n
  have h3 : s.Kept SlcReg s3 := by
    simp only [s3, wdgBase_slice, ptbBase_slice, Nat.add_assoc]
    exact (h2.resetUnit n 0xD000 0xE000).resetUnit n 0xC000 0xD000
  exact State.Kept.ite (h3.setReg _ _) h3

end State.Kept

/-- A core reset changes the control of its slice by what the pair holds alone. -/
theorem State.coreReset_eq (s : State) (n : Slice) :
    ∃ u c, s.Kept CtlReg u ∧ s.coreReset (pairOf n) = u.setCore (pairOf n) c := by
  have hn : (pairOf n).val < 12 := n.isLt
  have hbase : kcBase (pairOf n) = sliceBase n + 0xA000 := kcBase_slice n
  unfold State.coreReset
  rw [dif_pos hn, hbase]
  extract_lets c t
  refine ⟨_, _, State.Kept.resetRegs ?_ _ _ (fun a ha => ?_), rfl⟩
  · exact ((State.Kept.refl _ s).dropCall n).elsewhere
  · simp only [CtlReg, SlcReg, sliceBase] at ha ⊢
    omega

theorem State.Kept.setLdOpen {s t : State} (h : s.Kept CtlReg t) (n : Fin 12) (b : Bool) : s.Kept CtlReg (t.setLdOpen n b) := by
  unfold State.setLdOpen
  extract_lets a was c s1
  have h1 : s.Kept CtlReg s1 := State.Kept.setCle (h.setReg _ _) n _
  exact h.ite (State.Kept.ite (h1.setReg _ _) h1)

theorem State.Kept.noteInj {s t : State} (h : s.Kept CtlReg t) (n : Slice) (r : InjRun) : s.Kept CtlReg (t.noteInj n r) :=
  h.setReg _ _

/-! What ends with each command. -/

/-- No descriptor waits where none is in flight. -/
theorem State.noneWaits {s : State} (h : ∀ f, (s.fnOf f).flights = []) (p : Flight → Bool) :
    s.fns.toList.any (fun x => x.flights.any p) = false := by
  rw [List.any_eq_false]
  intro x hx
  obtain ⟨i, hi, rfl⟩ := List.getElem_of_mem hx
  have hf : (s.fns.toList[i]).flights = [] := h ⟨i, by simpa using hi⟩
  simp only [hf, List.any_nil, Bool.false_eq_true, not_false_eq_true]

/-- A GO ends: the slice runs with its triggers unmasked (R50, R150). -/
theorem State.goEnd_spec (s : State) (n : Slice) : (s.goEnd n).slState n = slRunning ∧
    ((s.goEnd n).ctlOf n).unmasked = true ∧ ((s.goEnd n).ctlOf n).goPending = false := by
  unfold State.goEnd
  extract_lets c s1
  have hset := (s.setCtl n { s.ctlOf n with goPending := false, unmasked := true }).kept_setSl n slRunning
  have hrole : s1.Kept CtlReg (s1.takeRole n) := (State.Kept.refl _ s1).takeRole n
  have hk : (s1.takeRole n).Kept (CtlRegBut R.DEV_ARM)
      ((((s1.takeRole n).armPending n).showSync).descDone (.running n) 0 (s1.reg (R.SLC_STATE n)).toNat) :=
    (State.kept_armPending _ n).trans (((State.Kept.refl CtlReg _).showSync.descDone _ _ _).but _)
  have hctl := hk.ctlOf n
  rw [hrole.ctlOf, hset.ctlOf, State.ctlOf_setCtl_self] at hctl
  refine ⟨?_, congrArg CtlSt.unmasked hctl, congrArg CtlSt.goPending hctl⟩
  rw [hk.slState_but n, hrole.slState, State.slState_setSl _ n (by decide)]

/-- A VALLEY of channel 0 of a READY slice with a GO in progress ends it. -/
theorem State.valley_ends_go {s : State} {n : Slice} (hgo : (s.ctlOf n).goPending = true) (hst : s.slState n = slReady)
    (hv : s.atValley n 0 = true) : (s.pwmValley n 0).goValley n 0 = (s.pwmValley n 0).goEnd n := by
  have hk : s.Kept CtlReg (s.pwmValley n 0) := (State.Kept.refl _ s).pwmValley n 0 (by rw [hst]; decide)
  have hen : s.isSet (R.PWM_CTRL n 0) F.PWM_CTRL_EN = true := by
    simp only [State.atValley, State.pwmRuns, Bool.and_eq_true] at hv
    exact hv.1.1.1.1
  have hen' : (s.pwmValley n 0).isSet (R.PWM_CTRL n 0) F.PWM_CTRL_EN = true := (hk.isSet (ctlReg_PWM_CTRL n 0) _).trans hen
  simp only [State.goValley, hk.ctlOf, hgo, hk.slState, hst, hen', beq_self_eq_true]
  rfl

theorem State.setF_ctlOf (s : State) (a : Nat) (f : Fld) (v : Nat) (n : Fin 12) : (s.setF a f v).ctlOf n = s.ctlOf n := rfl

theorem State.releasePair_ctlOf (s : State) (p : Fin 13) (n : Fin 12) : (s.releasePair p).ctlOf n = s.ctlOf n := rfl

theorem State.releasePair_cells (s : State) (p : Fin 13) : (s.releasePair p).cells = s.cells := rfl

/-- The flights that go on after a RESUME: none, where no descriptor is in flight. -/
theorem State.kept_resumed {s : State} (n : Slice) (h : ∀ f, (s.fnOf f).flights = []) : s.Kept CtlReg (s.resumed n) := by
  unfold State.resumed
  extract_lets s1 waits
  have h1 : s.Kept CtlReg s1 := (State.Kept.refl _ s).descDone _ _ _
  have hwaits : waits = false := State.noneWaits (h1.idle h) _
  rw [hwaits, if_neg Bool.false_ne_true]
  exact h1

/-- The RESUME check finds the store good: the slice is READY, and OK is told (R54). -/
theorem State.resumeEnd_ok {s : State} {n : Slice} (hres : (s.ctlOf n).resuming = true) (hok : s.storeOk n = true)
    (hidle : ∀ f, (s.fnOf f).flights = []) :
    ∃ u : State, u.slState n = slReady ∧ (u.ctlOf n).resuming = false ∧ u.cells = s.cells ∧
      (u.cmdReply n 2 0).Kept CtlReg (s.resumeEnd n) := by
  unfold State.resumeEnd
  extract_lets c loops s1 e d s2 s3
  rw [if_neg (by simp only [c, hres, Bool.not_true, Bool.false_eq_true, not_false_eq_true]), if_pos hok]
  have hs2 : (s2.ctlOf n).resuming = false := by simp only [s2, d, s1, State.ctlOf_setCtl_self]
  have hld : s2.Kept CtlReg (s2.setLdOpen n false) := (State.Kept.refl _ s2).setLdOpen n false
  have hset := ((s2.setLdOpen n false).releasePair (pairOf n)).kept_setSl n slReady
  have h3 : State.Kept CtlReg _ s3 := (State.Kept.refl _ _).pinsSlice n
  have hidle3 : ∀ f, (s3.fnOf f).flights = [] := h3.idle (hset.idle (hld.idle hidle))
  refine ⟨s3, ?_, ?_, ?_, State.kept_resumed n ((s3.kept_cmdReply n 2 0).idle hidle3)⟩
  · rw [h3.slState, State.slState_setSl _ n (by decide)]
  · rw [h3.ctlOf, hset.ctlOf, State.releasePair_ctlOf, hld.ctlOf, hs2]
  · rw [h3.cells, hset.cells, State.releasePair_cells, hld.cells]
    rfl

/-- A command that ends with a fault: SLC_FAULT shows the cause, SLC_CMD_STAT the status, and the slice stays as it was. -/
theorem State.Kept.faultReply_shows {u t : State} {n : Slice} {cause cmd status : Nat} (hc : cause < 256) (hcmd : cmd < 16)
    (hs : status < 16) (h : ((u.slFault n cause).cmdReply n cmd status).Kept CtlReg t) :
    t.getF (R.SLC_CMD_STAT n) F.SLC_CMD_STAT_STATUS = status ∧ t.getF (R.SLC_FAULT n) F.SLC_FAULT_CAUSE = cause ∧
    t.slState n = u.slState n ∧ t.ctlOf n = u.ctlOf n := by
  have hfault := u.kept_slFault n cause
  have hk := (u.slFault n cause).kept_cmdReply n cmd status
  obtain ⟨-, hstatus, -⟩ := (u.slFault n cause).cmdReply_shows n hcmd hs
  obtain ⟨-, hcause⟩ := u.slFault_shows n hc
  refine ⟨?_, ?_, ?_, ?_⟩
  · rw [h.getF (ctlReg_SLC_CMD_STAT n), hstatus]
  · rw [h.getF (ctlReg_SLC_FAULT n), hk.getF_but (ctlReg_SLC_FAULT n), hcause]
  · rw [h.slState, hk.slState_but n, hfault.slState_but n]
  · rw [h.ctlOf, hk.ctlOf, hfault.ctlOf]

/-- The RESUME check finds a fault: the slice stays as it was, and REFUSED is told with its cause (R54). -/
theorem State.resumeEnd_bad {s : State} {n : Slice} (hres : (s.ctlOf n).resuming = true) (hbad : s.storeOk n = false) :
    (((s.setCtl n { s.ctlOf n with resuming := false }).slFault n 4).cmdReply n 2 2).Kept CtlReg (s.resumeEnd n) := by
  unfold State.resumeEnd
  simp only [hres, hbad, Bool.not_true, Bool.false_eq_true, if_false]
  exact ((State.Kept.refl _ _).descDone _ _ _).descDone _ _ _

/-- The tests of a RESTART pass: the pair is whole again, and OK is told (R56). -/
theorem State.restartEnd_pass {s : State} {n : Slice} {r : InjRun} (hrun : (s.ctlOf n).restarting = true)
    (hdiv : (s.ctlOf n).testDiv = false) (hr : r.pass = true) (hidle : ∀ f, (s.fnOf f).flights = []) :
    ∃ u : State, (u.ctlOf n).restarting = false ∧ (u.ctlOf n).diverged = false ∧
      u.isSet (R.SLC_STATE n) F.SLC_STATE_LOCKSTEP_BROKEN = false ∧ u.slState n = s.slState n ∧
      s.restartEnd n r true = u.cmdReply n 4 0 := by
  unfold State.restartEnd
  extract_lets c s1 a s2 d s3 waits
  have hpass : (r.pass && true && !c.testDiv) = true := by
    rw [hr, show c.testDiv = false from hdiv]
    rfl
  have hinj : (s.setCtl n { c with restarting := false }).Kept CtlReg s1 := (State.Kept.refl _ _).noteInj n r
  have hls : s1.Kept CtlReg ((s1.setF a F.KC_LS_STAT_BROKEN 0).setF a F.KC_LS_STAT_SUSPENDED 0) :=
    ((State.Kept.refl _ s1).setReg _ _).setReg _ _
  have hk := (s2.setCtl n { d with diverged := false }).kept_cmdReply n 4 0
  have hidle3 : ∀ f, (s3.fnOf f).flights = [] := hk.idle (hls.idle (hinj.idle hidle))
  have hwaits : waits = false := State.noneWaits hidle3 _
  rw [if_neg (by simp only [c, hrun, Bool.not_true, Bool.false_eq_true, not_false_eq_true]), if_pos hpass, hwaits,
    if_neg Bool.false_ne_true]
  refine ⟨_, ?_, ?_, ?_, ?_, rfl⟩
  · simp only [State.ctlOf_setCtl_self, d, s2, State.setF_ctlOf, hls.ctlOf, hinj.ctlOf]
  · rw [State.ctlOf_setCtl_self]
  · rw [State.setCtl_isSet, State.isSet, State.getF_setF_of_lt _ _ _ _ (by decide) (by decide)]
    rfl
  · rw [State.slState, State.setCtl_getF, State.getF_setF_fld _ _ _ _ _ (by decide) (by decide),
      hls.getF (ctlReg_SLC_STATE n), hinj.getF (ctlReg_SLC_STATE n), State.setCtl_getF, State.slState]

/-- The self-tests of a RESTART fail: the slice stays as it was, and FAULT is told with SELFTEST (R56). -/
theorem State.restartEnd_fail {s : State} {n : Slice} {r : InjRun} (hrun : (s.ctlOf n).restarting = true)
    (hr : r.pass = true) :
    ((((s.setCtl n { s.ctlOf n with restarting := false }).noteInj n r).slFault n 2).cmdReply n 4 6).Kept CtlReg
      (s.restartEnd n r false) := by
  unfold State.restartEnd
  simp only [hrun, hr, Bool.not_true, Bool.and_false, Bool.false_and, Bool.false_eq_true, if_false, if_true]
  exact ((State.Kept.refl _ _).descDone _ _ _).descDone _ _ _

/-! The commands themselves. -/

/-- A RESTART of a FENCED slice resets its pair and starts the tests (R56). -/
theorem State.restartCmd_fenced {s : State} {n : Slice} (hb : s.cmdBusy n = false) (hst : s.slState n = slFenced) :
    ∃ u : State, (u.ctlOf n).restarting = true ∧ u.slState n = slFenced ∧ u.cells = s.cells ∧
      s.restartCmd n = u.noteCmd n 4 := by
  obtain ⟨v, c, hv, hreset⟩ := (s.setCtl n { s.ctlOf n with restarting := true, testDiv := false }).coreReset_eq n
  refine ⟨v.setCore (pairOf n) c, ?_, ?_, ?_, ?_⟩
  · have hctl : (v.setCore (pairOf n) c).ctlOf n = v.ctlOf n := rfl
    rw [hctl, hv.ctlOf, State.ctlOf_setCtl_self]
  · rw [State.slState, State.setCore_getF, hv.getF (ctlReg_SLC_STATE n), State.setCtl_getF]
    exact hst
  · rw [State.setCore_cells, hv.cells, State.setCtl_cells]
  · simp only [State.restartCmd, hb, hst, hreset, bne_self_eq_false, Bool.false_eq_true, if_false]

/-- A STOP of a FENCED slice makes it OFF, with its pair halted and its units reset (R50). -/
theorem State.stopCmd_fenced {s : State} {n : Slice} (hb : s.cmdBusy n = false) (hst : s.slState n = slFenced) :
    ∃ u : State, u.slState n = slOff ∧ (u.coreOf (pairOf n)).halted = true ∧ (u.ctlOf n).safeHold = false ∧
      u.cells = s.cells ∧ s.stopCmd n = u.cmdReply n 5 0 := by
  unfold State.stopCmd
  extract_lets c s1
  have hdrop := (State.Kept.refl CtlReg _).router ((s1.haltPair (pairOf n)).dropRoutesTo_only n)
  have hset := ((s1.haltPair (pairOf n)).dropRoutesTo n).kept_setSl n slOff
  have hunits := (State.Kept.refl SlcReg (((s1.haltPair (pairOf n)).dropRoutesTo n).setSl n slOff)).unitReset n
  rw [if_neg (by rw [hb]; decide), if_neg (by rw [hst]; decide)]
  refine ⟨_, ?_, ?_, ?_, ?_, rfl⟩
  · rw [State.slState, hunits.getF (slcReg_SLC_STATE n), ← State.slState, State.slState_setSl _ n (by decide)]
  · rw [hunits.coreOf, hset.coreOf, hdrop.coreOf, State.halted_haltPair]
  · rw [hunits.ctlOf, hset.ctlOf, hdrop.ctlOf, State.haltPair_ctlOf, State.ctlOf_setCtl_self]
  · rw [hunits.cells, hset.cells, hdrop.cells, State.haltPair_cells, State.setCtl_cells]

/-- Settles O4: each command by what it does in its state, and each completion by how the command ends. -/
theorem sliceCommandsToRunAndStop : Obligations.SliceCommandsToRunAndStop := by
  refine ⟨?resume, ?resumeRefused, ?checkOk, ?checkBad, ?go, ?valley, ?restart, ?testsPass, ?testsFail, ?stop⟩
  case resume =>
    rintro s x n _ hr hf rfl ho hst hb himg hdiv
    refine ⟨_, rfl, ?_⟩
    have hcmd : s.resumeCmd n = (s.setCtl n { s.ctlOf n with resuming := true }).noteCmd n 2 := by
      simp only [State.resumeCmd, hb, hst, himg, hdiv, bne_self_eq_false, Bool.not_true, Bool.or_self, Bool.false_eq_true,
        if_false]
    rw [State.write_slcCmdWord false hr hf (by decide) (State.mayCmd_of_ownerIs 2 ho), State.obey, hcmd]
    have hk := (s.setCtl n { s.ctlOf n with resuming := true }).kept_noteCmd n 2
    refine ⟨?_, State.noteCmd_shows _ n (by decide), ?_, hk.cells, hk.core, rfl⟩
    · rw [hk.ctlOf, State.ctlOf_setCtl_self]
    · exact (hk.slState_but n).trans hst
  case resumeRefused =>
    rintro s x n _ hr hf rfl ho hst hb himg
    refine ⟨_, rfl, ?_⟩
    have hcmd : s.resumeCmd n = s.cmdReply n 2 2 := by
      simp only [State.resumeCmd, hb, himg, Bool.not_false, Bool.or_true, Bool.true_or, Bool.false_eq_true, if_false, if_true]
    rw [State.write_slcCmdWord false hr hf (by decide) (State.mayCmd_of_ownerIs 2 ho), State.obey, hcmd]
    obtain ⟨-, hstatus, -⟩ := s.cmdReply_shows n (cmd := 2) (status := 2) (by decide) (by decide)
    have hk := s.kept_cmdReply n 2 2
    exact ⟨hstatus, hk.ctl, (hk.slState_but n).trans hst⟩
  case checkOk =>
    intro s n _ hres hok hidle
    refine ⟨_, rfl, ?_⟩
    obtain ⟨u, hst, hdone, hcells, hend⟩ := State.resumeEnd_ok hres hok hidle
    obtain ⟨hlast, hstatus, -⟩ := u.cmdReply_shows n (cmd := 2) (status := 0) (by decide) (by decide)
    have hk := u.kept_cmdReply n 2 0
    rw [hend.slState, hend.ctlOf, hend.getF (ctlReg_SLC_CMD_STAT n), hend.getF (ctlReg_SLC_CMD_STAT n), hend.cells,
      hk.slState_but n, hk.ctlOf, hk.cells]
    exact ⟨hst, hdone, hlast, hstatus, hcells⟩
  case checkBad =>
    intro s n _ hres hbad
    refine ⟨_, rfl, ?_⟩
    obtain ⟨hstatus, hcause, hst, hctl⟩ :=
      (State.resumeEnd_bad hres hbad).faultReply_shows (by decide) (by decide) (by decide)
    exact ⟨hst, (congrArg CtlSt.resuming hctl).trans (by rw [State.ctlOf_setCtl_self]), hstatus, hcause⟩
  case go =>
    rintro s x n _ hr hf rfl ho hst hb
    refine ⟨_, rfl, ?_⟩
    have hcmd : s.goCmd n = (s.setCtl n { s.ctlOf n with goPending := true }).cmdReply n 3 0 := by
      simp only [State.goCmd, hb, hst, bne_self_eq_false, Bool.false_eq_true, if_false]
    rw [State.write_slcCmdWord false hr hf (by decide) (State.mayCmd_of_ownerIs 3 ho), State.obey, hcmd]
    have hk := (s.setCtl n { s.ctlOf n with goPending := true }).kept_cmdReply n 3 0
    obtain ⟨-, hstatus, -⟩ := State.cmdReply_shows (s.setCtl n { s.ctlOf n with goPending := true }) n
      (cmd := 3) (status := 0) (by decide) (by decide)
    refine ⟨?_, (hk.slState_but n).trans hst, hstatus, hk.cells, hk.core⟩
    rw [hk.ctlOf, State.ctlOf_setCtl_self]
  case valley =>
    intro s n _ hgo hst hv
    refine ⟨_, rfl, ?_⟩
    rw [if_pos hv, State.valley_ends_go hgo hst hv]
    exact (s.pwmValley n 0).goEnd_spec n
  case restart =>
    rintro s x n _ hr hf rfl ho hst hb
    refine ⟨_, rfl, ?_⟩
    obtain ⟨u, hrun, hfenced, hcells, hcmd⟩ := State.restartCmd_fenced hb hst
    rw [State.write_slcCmdWord false hr hf (by decide) (State.mayCmd_of_ownerIs 4 ho), State.obey, hcmd]
    have hk := u.kept_noteCmd n 4
    rw [hk.ctlOf, hk.slState_but n, hk.cells]
    exact ⟨hrun, u.noteCmd_shows n (by decide), hfenced, hcells⟩
  case testsPass =>
    intro s n r _ hrun hdiv hr hidle
    refine ⟨_, rfl, ?_⟩
    obtain ⟨u, hdone, hwhole, hbroken, hst, hend⟩ := State.restartEnd_pass hrun hdiv hr hidle
    obtain ⟨-, hstatus, -⟩ := u.cmdReply_shows n (cmd := 4) (status := 0) (by decide) (by decide)
    have hk := u.kept_cmdReply n 4 0
    rw [hend, hk.ctlOf, hk.isSet_but (ctlReg_SLC_STATE n), hk.slState_but n]
    exact ⟨hdone, hwhole, hbroken, hstatus, hst⟩
  case testsFail =>
    intro s n r _ hrun hr
    refine ⟨_, rfl, ?_⟩
    obtain ⟨hstatus, hcause, hst, hctl⟩ :=
      (State.restartEnd_fail hrun hr).faultReply_shows (by decide) (by decide) (by decide)
    have hinj := (State.Kept.refl CtlReg (s.setCtl n { s.ctlOf n with restarting := false })).noteInj n r
    refine ⟨?_, hcause, hstatus, hst.trans (hinj.slState n)⟩
    rw [hctl, hinj.ctlOf, State.ctlOf_setCtl_self]
  case stop =>
    rintro s x n _ hr hf rfl ho hst hb
    refine ⟨_, rfl, ?_⟩
    obtain ⟨u, hoff, hhalted, hhold, hcells, hcmd⟩ := State.stopCmd_fenced hb hst
    rw [State.write_slcCmdWord false hr hf (by decide) (State.mayCmd_of_ownerIs 5 ho),
      show s.obey n false 5 = s.stopCmd n from rfl, hcmd]
    obtain ⟨-, hstatus, -⟩ := u.cmdReply_shows n (cmd := 5) (status := 0) (by decide) (by decide)
    have hk := u.kept_cmdReply n 5 0
    rw [hk.slState_but n, hk.coreOf, hk.ctlOf, hk.cells]
    exact ⟨hoff, hhalted, hhold, hstatus, hcells⟩

end Machine
end Sys2Proof
end

section
/-! PROOFS. Gorge windows: what showing one and each operation on it changes, and what they leave (R61 to R69, R74 to R76). -/

namespace Sys2Proof
namespace Machine

/-! Changes of one window. -/

@[simp] theorem State.win_setWin_self (s : State) (n i : Fin 12) (w : WinSt) : (s.setWin n i w).win n i = w := by
  simp only [State.win, State.setWin, vget_set_self]

theorem State.win_setWin_ne (s : State) (n i j : Fin 12) (w : WinSt) (h : j ≠ i) :
    (s.setWin n i w).win n j = s.win n j := by
  simp only [State.win, State.setWin, vget_set_self, vget_set_ne _ _ _ _ h]

/-- `t` is `s` but for the registers of `own`, window i of slice n and the free values drawn. -/
structure State.WinOnly (own : Nat → Bool) (n i : Slice) (s t : State) : Prop where
  wins : ∀ j, j ≠ i → t.win n j = s.win n j
  rest : t = { s with regs := t.regs, grg := t.grg, free := t.free }
  kept : s.RegsKept t own

/-- The registers of slice n's GRG block but GRG_IN, GRG_THR, GRG_WCFG and GRG_TEST of window i. -/
def shownRegs (n i : Slice) (a : Nat) : Bool :=
  block n 0x3000 0x4000 a && (decide (a < R.GRG_IN n i) || decide (R.GRG_TEST n i < a))

theorem shownRegs_iff (n i : Slice) (a : Nat) : shownRegs n i a = true ↔
    (sliceBase n + 0x3000 ≤ a ∧ a < sliceBase n + 0x4000) ∧
      (a < sliceBase n + (0x3100 + i * 0x20) ∨ sliceBase n + (0x310C + i * 0x20) < a) := by
  simp only [shownRegs, block, Bool.and_eq_true, Bool.or_eq_true, decide_eq_true_eq]
  unfold R.GRG_IN R.GRG_TEST
  omega

theorem shownRegs_GRG_WSTAT (n i : Slice) : shownRegs n i (R.GRG_WSTAT n i) = true :=
  (shownRegs_iff n i _).mpr (by unfold R.GRG_WSTAT; omega)

theorem shownRegs_GRG_TRANS (n i : Slice) : shownRegs n i (R.GRG_TRANS n i) = true :=
  (shownRegs_iff n i _).mpr (by unfold R.GRG_TRANS; omega)

theorem shownRegs_GRG_STATE (n i : Slice) : shownRegs n i (R.GRG_STATE n) = true :=
  (shownRegs_iff n i _).mpr (by unfold R.GRG_STATE; omega)

theorem shownRegs_GRG_RAW (n i : Slice) : shownRegs n i (R.GRG_RAW n) = true :=
  (shownRegs_iff n i _).mpr (by unfold R.GRG_RAW; omega)

/-- The settings of a window, GRG_IN to GRG_TEST, lie in its slice's GRG block. -/
theorem block_of_setting {n i : Slice} {a : Nat} (h : R.GRG_IN n i ≤ a) (h' : a ≤ R.GRG_TEST n i) :
    block n 0x3000 0x4000 a = true := by
  simp only [R.GRG_IN, R.GRG_TEST, block, Bool.and_eq_true, decide_eq_true_eq] at *
  omega

namespace State.WinOnly

variable {own : Nat → Bool} {n i : Slice} {s t u : State}

theorem refl (own : Nat → Bool) (n i : Slice) (s : State) : s.WinOnly own n i s := ⟨fun _ _ => rfl, rfl, fun _ _ => rfl⟩

theorem trans (h : s.WinOnly own n i t) (k : t.WinOnly own n i u) : s.WinOnly own n i u where
  wins j hj := (k.wins j hj).trans (h.wins j hj)
  rest := by
    have hk := k.rest
    rw [h.rest] at hk
    exact hk
  kept a ha := (k.kept a ha).trans (h.kept a ha)

theorem setReg (h : s.WinOnly own n i t) (a : Nat) (v : Word) (ha : own a = true) : s.WinOnly own n i (t.setReg a v) :=
  h.trans ⟨fun _ _ => rfl, rfl, fun b hb => t.reg_setReg_ne a v b (fun e => by simp [e, ha] at hb)⟩

theorem setWin (h : s.WinOnly own n i t) (w : WinSt) : s.WinOnly own n i (t.setWin n i w) :=
  h.trans ⟨fun j hj => t.win_setWin_ne n i j w hj, rfl, fun _ _ => rfl⟩

theorem draw (h : s.WinOnly own n i t) (k : Nat) : s.WinOnly own n i { t with free := k } :=
  h.trans ⟨fun _ _ => rfl, rfl, fun _ _ => rfl⟩

/-- What shows a window lies in its slice's GRG block. -/
theorem inBlock (h : s.WinOnly (shownRegs n i) n i t) : s.WinOnly (block n 0x3000 0x4000) n i t :=
  { h with kept := fun a ha => h.kept a (by rw [shownRegs, ha, Bool.false_and]) }

/-- What shows a window leaves its settings, GRG_IN to GRG_TEST. -/
theorem setting (h : s.WinOnly (shownRegs n i) n i t) {a : Nat} (ha : R.GRG_IN n i ≤ a) (ha' : a ≤ R.GRG_TEST n i) :
    t.reg a = s.reg a := by
  refine h.kept a ?_
  simp [shownRegs, Nat.not_lt.mpr ha, Nat.not_lt.mpr ha']

end State.WinOnly

/-! Showing a window, checking its thresholds, and the outputs of its test. -/

/-- `t` is `s` but for what shows window i of slice n, the outputs of its test and what its wake logic has seen. -/
structure State.Shows (n i : Slice) (s t : State) : Prop where
  only : s.WinOnly (shownRegs n i) n i t
  win : t.win n i = { s.win n i with
    testHi := (t.win n i).testHi, testLo := (t.win n i).testLo, waking := (t.win n i).waking }

namespace State.Shows

variable {n i : Slice} {s t u : State}

theorem refl (n i : Slice) (s : State) : s.Shows n i s := ⟨.refl _ n i s, rfl⟩

theorem trans (h : s.Shows n i t) (k : t.Shows n i u) : s.Shows n i u where
  only := h.only.trans k.only
  win := by
    have hk := k.win
    rw [h.win] at hk
    exact hk

theorem setReg (h : s.Shows n i t) {a : Nat} (ha : shownRegs n i a = true) (v : Word) : s.Shows n i (t.setReg a v) :=
  h.trans ⟨(WinOnly.refl _ n i t).setReg a v ha, rfl⟩

theorem setWin (h : s.Shows n i t) (w : WinSt)
    (hw : w = { t.win n i with testHi := w.testHi, testLo := w.testLo, waking := w.waking }) :
    s.Shows n i (t.setWin n i w) :=
  h.trans ⟨(WinOnly.refl _ n i t).setWin w, by rw [State.win_setWin_self]; exact hw⟩

theorem draw (h : s.Shows n i t) (k : Nat) : s.Shows n i { t with free := k } :=
  h.trans ⟨(WinOnly.refl _ n i t).draw k, rfl⟩

theorem ite {c : Prop} [Decidable c] (h : s.Shows n i t) (k : s.Shows n i u) : s.Shows n i (if c then t else u) := by
  split <;> assumption

theorem showWin (h : s.Shows n i t) : s.Shows n i (t.showWin n i) := by
  unfold State.showWin
  extract_lets a old st s1 s2 s3 s4 s5 s6 s7
  have h3 : s.Shows n i s3 :=
    (((h.setReg (shownRegs_GRG_WSTAT n i) _).setReg (shownRegs_GRG_WSTAT n i) _).setReg
      (shownRegs_GRG_WSTAT n i) _).setReg (shownRegs_GRG_WSTAT n i) _
  have h6 : s.Shows n i s6 :=
    ((h3.setReg (shownRegs_GRG_STATE n i) _).setReg (shownRegs_GRG_RAW n i) _).setReg (shownRegs_GRG_RAW n i) _
  have h7 : s.Shows n i s7 := (h6.setReg (shownRegs_GRG_TRANS n i) _).ite h6
  exact h7.ite (h7.setWin _ rfl)

theorem checkThr (h : s.Shows n i t) : s.Shows n i (t.checkThr n i) := h.ite (h.setReg (shownRegs_GRG_WSTAT n i) _)

theorem testMoved (h : s.Shows n i t) : s.Shows n i (t.testMoved n i) := h.ite (h.setWin _ rfl)

theorem testStart (h : s.Shows n i t) : s.Shows n i (t.testStart n i) := (h.draw _).setWin _ rfl

end State.Shows

theorem State.winState_lt (s : State) (n i : Slice) : s.winState n i < 4 := by
  unfold State.winState
  repeat' split
  all_goals decide

/-- GRG_WSTAT shows the window's state and its trip request. -/
theorem State.showWin_GRG_WSTAT (s : State) (n i : Slice) :
    (s.showWin n i).getF (R.GRG_WSTAT n i) F.GRG_WSTAT_STATE = s.winState n i ∧
      (s.showWin n i).isSet (R.GRG_WSTAT n i) F.GRG_WSTAT_TRIP_REQ = s.winTrip n i := by
  unfold State.showWin
  extract_lets a old st s1 s2 s3 s4 s5 s6 s7
  have hstate : s3.getF a F.GRG_WSTAT_STATE = st := by
    have hlt : st < 2 ^ F.GRG_WSTAT_STATE.width := s.winState_lt n i
    simp only [s3, s2, s1, State.setB]
    rw [State.getF_setF_fld _ _ _ _ _ (by decide) (by decide), State.getF_setF_fld _ _ _ _ _ (by decide) (by decide),
      State.getF_setF_fld _ _ _ _ _ (by decide) (by decide), State.getF_setF_of_lt _ _ _ _ (by decide) hlt]
  have htrip : s3.isSet a F.GRG_WSTAT_TRIP_REQ = s.winTrip n i := State.isSet_setB _ _ _ _ (by decide) (by decide)
  have hne : a ≠ R.GRG_STATE n ∧ a ≠ R.GRG_RAW n ∧ a ≠ R.GRG_TRANS n i := by
    simp only [a, R.GRG_WSTAT, R.GRG_STATE, R.GRG_RAW, R.GRG_TRANS]
    omega
  obtain ⟨hneState, hneRaw, hneTrans⟩ := hne
  have h6 : s6.reg a = s3.reg a := by
    rw [State.reg_setF_ne _ _ _ _ _ hneRaw, State.reg_setF_ne _ _ _ _ _ hneRaw, State.reg_setF_ne _ _ _ _ _ hneState]
  have h7 : s7.reg a = s3.reg a := by
    rw [← h6, apply_ite (State.reg · a), State.reg_count_ne _ _ _ _ hneTrans, ite_self]
  have hend : State.reg (if s7.winLine n i then s7 else s7.setWin n i { s7.win n i with waking := false }) a = s3.reg a := by
    rw [apply_ite (State.reg · a), State.setWin_reg, ite_self, h7]
  exact ⟨(congrArg F.GRG_WSTAT_STATE.get hend).trans hstate,
    (congrArg (fun w => F.GRG_WSTAT_TRIP_REQ.get w == 1) hend).trans htrip⟩

/-- A window under test shows UNSETTLED, and no trip request under TRIP_MASK (R76). -/
theorem State.showWin_underTest {s : State} {n i : Slice} (ht : s.testSel n i ≠ 0)
    (hm : s.isSet (R.GRG_TEST n i) F.GRG_TEST_TRIP_MASK = true) :
    (s.showWin n i).getF (R.GRG_WSTAT n i) F.GRG_WSTAT_STATE = 0 ∧
      (s.showWin n i).isSet (R.GRG_WSTAT n i) F.GRG_WSTAT_TRIP_REQ = false := by
  obtain ⟨hstate, htrip⟩ := s.showWin_GRG_WSTAT n i
  refine ⟨hstate.trans ?_, htrip.trans ?_⟩
  · simp [State.winState, ht]
  · simp [State.winTrip, hm]

/-! A window changed and shown. -/

theorem State.win_showWin_setWin (s : State) (n i : Slice) (w : WinSt) : ∃ hi lo wk,
    ((s.setWin n i w).showWin n i).win n i = { w with testHi := hi, testLo := lo, waking := wk } := by
  have h := (State.Shows.refl n i (s.setWin n i w)).showWin.win
  rw [State.win_setWin_self] at h
  exact ⟨_, _, _, h⟩

theorem State.showWin_setWin_only (s : State) (n i : Slice) (w : WinSt) :
    s.WinOnly (shownRegs n i) n i ((s.setWin n i w).showWin n i) :=
  ((State.WinOnly.refl _ n i s).setWin w).trans (State.Shows.refl n i _).showWin.only

/-- Window i of slice n is held undecided for the 2 µs (R69). -/
structure State.Unsettled (n i : Slice) (t : State) : Prop where
  settling : (t.win n i).settling = true
  hiDone : (t.win n i).hiDone = false
  loDone : (t.win n i).loDone = false

theorem State.unsettle_unsettled (s : State) (n i : Slice) : (s.unsettle n i).Unsettled n i := by
  obtain ⟨_, _, _, hw⟩ :=
    s.win_showWin_setWin n i { s.win n i with hiDone := false, loDone := false, settling := true }
  exact ⟨congrArg WinSt.settling hw, congrArg WinSt.hiDone hw, congrArg WinSt.loDone hw⟩

theorem State.unsettle_only (s : State) (n i : Slice) : s.WinOnly (shownRegs n i) n i (s.unsettle n i) :=
  s.showWin_setWin_only n i _

/-! Half switches and the end of the settling interval (R64, R67, R69). -/

theorem State.winOn_of_powered {s : State} {n : Slice} (i : Slice) (h : s.powered n = true) : s.winOn n i = true := by
  rw [State.winOn, h, Bool.true_or]

theorem State.halfSwitch_high {s : State} {n i : Slice} (b : Bool) (hp : s.powered n = true)
    (hen : s.isSet (R.GRG_WCFG n i) F.GRG_WCFG_EN = true) (hhi : s.isSet (R.GRG_WCFG n i) F.GRG_WCFG_HIGH_EN = true)
    (ht : s.testSel n i = 0) (hs : (s.win n i).settling = false) :
    s.halfSwitch n i true b = (s.setWin n i { s.win n i with hi := b, hiDone := true }).showWin n i := by
  simp [State.halfSwitch, State.winOn_of_powered i hp, hen, hhi, ht, hs]

theorem State.halfSwitch_low {s : State} {n i : Slice} (b : Bool) (hp : s.powered n = true)
    (hen : s.isSet (R.GRG_WCFG n i) F.GRG_WCFG_EN = true) (hlo : s.isSet (R.GRG_WCFG n i) F.GRG_WCFG_LOW_EN = true)
    (ht : s.testSel n i = 0) (hs : (s.win n i).settling = false) :
    s.halfSwitch n i false b = (s.setWin n i { s.win n i with lo := b, loDone := true }).showWin n i := by
  simp [State.halfSwitch, State.winOn_of_powered i hp, hen, hlo, ht, hs]

/-- A settled window whose HIGH half is set, under no test, is HIGH. -/
theorem State.winState_high {s : State} {n i : Slice} (hp : s.powered n = true) (ht : s.testSel n i = 0)
    (hen : s.isSet (R.GRG_WCFG n i) F.GRG_WCFG_EN = true) (hhi : s.isSet (R.GRG_WCFG n i) F.GRG_WCFG_HIGH_EN = true)
    (hd : (s.win n i).hiDone = true) (hw : (s.win n i).hi = true) (hl : s.loSettled n i = true)
    (he : s.isSet (R.GRG_WSTAT n i) F.GRG_WSTAT_CFG_ERR = false) : s.winState n i = 3 := by
  simp [State.winState, State.winOn_of_powered i hp, State.hiSettled, ht, hen, hhi, hd, hw, hl, he]

/-- The end of the settling interval settles the HIGH half at the level of its comparator. -/
theorem State.settlingEnd_high {s : State} {n i : Slice} (b : Bool) (lo : Option Bool) (hp : s.powered n = true)
    (hs : (s.win n i).settling = true) (hen : s.isSet (R.GRG_WCFG n i) F.GRG_WCFG_EN = true)
    (hhi : s.isSet (R.GRG_WCFG n i) F.GRG_WCFG_HIGH_EN = true) (ht : s.testSel n i = 0) :
    ∃ w : WinSt, (w.settling = false ∧ w.hi = b ∧ w.hiDone = true) ∧
      s.settlingEnd n i (some b) lo = (s.setWin n i w).showWin n i := by
  simp only [State.settlingEnd, hs, hen, hhi, ht, State.winOn_of_powered i hp, Bool.not_true, Bool.or_self, bne_self_eq_false,
    Bool.false_eq_true, if_false, if_true]
  refine ⟨_, ?_, rfl⟩
  cases lo with
  | none => exact ⟨rfl, rfl, rfl⟩
  | some c => dsimp only; split <;> exact ⟨rfl, rfl, rfl⟩

/-! Over-range (R61). -/

theorem State.overrange_beyond {s : State} {n : Slice} (i : Slice) (hp : s.powered n = true) :
    s.overrange n i true = (s.setWin n i { s.win n i with beyond := true }).setF (R.GRG_IN n i) F.GRG_IN_OVR 1 := by
  simp [State.overrange, State.winOn_of_powered i hp]

/-! Thresholds (R68). -/

/-- A staged threshold of the HIGH half, once switched, is compared against. -/
theorem State.thrSwitch_high {s : State} {n i : Slice} (h : (s.win n i).hiStaged = true) :
    s.thrSwitch n i true = (((s.setWin n i { s.win n i with hiCode := s.getF (R.GRG_THR n i) F.GRG_THR_HIGH_CODE,
                                                            hiStaged := false }).checkThr n i).testMoved n i).showWin n i := by
  simp [State.thrSwitch, h]

/-! The writes of a window's settings. -/

/-- What a write of a window's settings does: of GRG_IN, GRG_THR, GRG_WCFG and GRG_TEST. -/
def State.windowSet (s : State) (n i : Slice) (v : Word) : Fin 4 → State
  | 0 => s.grgIn n i v
  | 1 => s.grgThr n i v
  | 2 => s.grgWcfg n i v
  | 3 => s.grgTest n i v

/-- A served write of a window's setting is that. -/
theorem State.write_setting {s : State} {x : Access} {n i : Slice} {a : Nat} (k : Fin 4)
    (ha : a = sliceBase n + (0x3100 + i * 0x20 + 4 * k)) (hr : s.reaches x a = true) (hf : s.fitted n = true) (v : Word) :
    s.write x a v = s.windowSet n i v k := by
  subst ha
  have hu : s.unreserved x (sliceBase n + (0x3100 + i * 0x20 + 4 * k)) = true := (Bool.and_eq_true_iff.mp hr).2
  have hkc : kcBars x (sliceBase n + (0x3100 + i * 0x20 + 4 * k)) = false := by
    simp only [State.reaches, State.takesWrite, Bool.and_eq_true, Bool.not_eq_true'] at hr
    exact hr.1.2
  have hunit : s.sliceWrite x n (0x3100 + i * 0x20 + 4 * k) (sliceBase n + (0x3100 + i * 0x20 + 4 * k)) v =
      s.grgWrite n (sliceBase n + (0x3100 + i * 0x20 + 4 * k)) v := by
    unfold State.sliceWrite
    rw [if_neg (by omega), dif_neg (by omega), if_neg (by omega), if_neg (by omega), if_pos (by omega)]
  have hoff : sliceBase n + (0x3100 + i * 0x20 + 4 * k) - (sliceBase n + 0x3000) = 0x100 + i * 0x20 + 4 * k := by omega
  have hwin : (0x100 + i.val * 0x20 + 4 * k.val - 0x100) / 0x20 = i := by omega
  have hsel : (0x100 + i.val * 0x20 + 4 * k.val - 0x100) % 0x20 = 4 * k := by omega
  rw [s.write_of_reaches x _ v hr, s.regWrite_slice x n _ v (by omega) hkc hf hu, hunit]
  simp only [State.grgWrite, hoff, hwin, hsel]
  rw [if_neg (by simp only [beq_iff_eq]; omega), dif_pos (by omega)]
  have hk : k = 0 ∨ k = 1 ∨ k = 2 ∨ k = 3 := by omega
  rcases hk with rfl | rfl | rfl | rfl <;> rfl

theorem State.write_GRG_IN {s : State} {x : Access} {n i : Slice} (v : Word) (hr : s.reaches x (R.GRG_IN n i) = true)
    (hf : s.fitted n = true) : s.write x (R.GRG_IN n i) v = s.grgIn n i v :=
  State.write_setting 0 (by simp only [R.GRG_IN]; omega) hr hf v

theorem State.write_GRG_THR {s : State} {x : Access} {n i : Slice} (v : Word) (hr : s.reaches x (R.GRG_THR n i) = true)
    (hf : s.fitted n = true) : s.write x (R.GRG_THR n i) v = s.grgThr n i v :=
  State.write_setting 1 (by simp only [R.GRG_THR]; omega) hr hf v

theorem State.write_GRG_WCFG {s : State} {x : Access} {n i : Slice} (v : Word) (hr : s.reaches x (R.GRG_WCFG n i) = true)
    (hf : s.fitted n = true) : s.write x (R.GRG_WCFG n i) v = s.grgWcfg n i v :=
  State.write_setting 2 (by simp only [R.GRG_WCFG]; omega) hr hf v

theorem State.write_GRG_TEST {s : State} {x : Access} {n i : Slice} (v : Word) (hr : s.reaches x (R.GRG_TEST n i) = true)
    (hf : s.fitted n = true) : s.write x (R.GRG_TEST n i) v = s.grgTest n i v :=
  State.write_setting 3 (by simp only [R.GRG_TEST]; omega) hr hf v

/-- `t` is `s` with the word `w` in setting `a` of window i of slice n, and what follows from that in what shows the window
and in the window itself. -/
structure State.Configures (n i : Slice) (a : Nat) (w : Word) (s t : State) : Prop where
  word : t.reg a = w
  only : s.WinOnly (block n 0x3000 0x4000) n i t

/-- A setting written, and then changes that the settings are not among. -/
theorem State.WinOnly.configures {s t : State} {n i : Slice} {a : Nat} {w : Word}
    (h : (s.setReg a w).WinOnly (shownRegs n i) n i t) (ha : R.GRG_IN n i ≤ a ∧ a ≤ R.GRG_TEST n i) :
    s.Configures n i a w t where
  word := (h.setting ha.1 ha.2).trans (s.reg_setReg_self a w)
  only := ((State.WinOnly.refl _ n i s).setReg a w (block_of_setting ha.1 ha.2)).trans h.inBlock

/-- A write of GRG_WCFG in FENCED that enables a window enters UNSETTLED (R69). -/
theorem State.grgWcfg_enables {s : State} {n i : Slice} {v : Word} (hst : s.slState n = slFenced)
    (ho : hasOutside v 0x0000FE77 = false) (hen : F.GRG_WCFG_EN.get v = 1)
    (hwas : s.isSet (R.GRG_WCFG n i) F.GRG_WCFG_EN = false) :
    s.Configures n i (R.GRG_WCFG n i) v (s.grgWcfg n i v) ∧ (s.grgWcfg n i v).Unsettled n i := by
  have hset : ∃ w, s.grgWcfg n i v =
      ((((s.setReg (R.GRG_WCFG n i) v).checkThr n i).setWin n i w).testMoved n i).unsettle n i := by
    simp only [State.grgWcfg, hst, ho, hen, hwas, bne_self_eq_false, beq_self_eq_true, Bool.or_self, Bool.not_false,
      Bool.true_or, Bool.and_self, Bool.false_eq_true, if_false, if_true]
    exact ⟨_, rfl⟩
  obtain ⟨w, hset⟩ := hset
  rw [hset]
  have hcheck := (State.Shows.refl n i (s.setReg (R.GRG_WCFG n i) v)).checkThr.only.setWin w
  have honly := (hcheck.trans (State.Shows.refl n i _).testMoved.only).trans (State.unsettle_only _ n i)
  exact ⟨honly.configures (by unfold R.GRG_IN R.GRG_WCFG R.GRG_TEST; omega), State.unsettle_unsettled _ n i⟩

/-- Outside FENCED a write of GRG_WCFG is refused and counted (R69, R495). -/
theorem State.grgWcfg_refused {s : State} {n : Slice} (i : Slice) (v : Word) (hst : s.slState n ≠ slFenced) :
    s.grgWcfg n i v = s.grgRefuse n := by
  simp [State.grgWcfg, hst]

/-- A change of MODE in FENCED enters UNSETTLED (R62). -/
theorem State.grgIn_changes {s : State} {n i : Slice} {v : Word} (hst : s.slState n = slFenced)
    (ho : hasOutside v 0x80000001 = false) (hmode : F.GRG_IN_MODE.get v ≠ s.getF (R.GRG_IN n i) F.GRG_IN_MODE) :
    (s.grgIn n i v).getF (R.GRG_IN n i) F.GRG_IN_MODE = F.GRG_IN_MODE.get v ∧
      s.WinOnly (block n 0x3000 0x4000) n i (s.grgIn n i v) ∧ (s.grgIn n i v).Unsettled n i := by
  have hin : block n 0x3000 0x4000 (R.GRG_IN n i) = true :=
    block_of_setting (Nat.le_refl _) (by unfold R.GRG_IN R.GRG_TEST; omega)
  have hset : ∃ u, s.WinOnly (block n 0x3000 0x4000) n i u ∧ s.grgIn n i v =
      ((u.setF (R.GRG_IN n i) F.GRG_IN_MODE (F.GRG_IN_MODE.get v)).testMoved n i).unsettle n i := by
    simp only [State.grgIn, hst, ho, bne_iff_ne.mpr hmode, bne_self_eq_false, Bool.and_false, Bool.or_self,
      Bool.false_eq_true, if_false, if_true]
    refine ⟨_, ?_, rfl⟩
    split
    · exact (State.WinOnly.refl _ n i s).setReg _ _ hin
    · exact .refl _ n i s
  obtain ⟨u, hu, hset⟩ := hset
  rw [hset]
  have honly := (State.Shows.refl n i (u.setF (R.GRG_IN n i) F.GRG_IN_MODE (F.GRG_IN_MODE.get v))).testMoved.only.trans
    (State.unsettle_only _ n i)
  obtain ⟨hword, hrest⟩ := honly.configures ⟨Nat.le_refl _, by unfold R.GRG_IN R.GRG_TEST; omega⟩
  refine ⟨?_, hu.trans hrest, State.unsettle_unsettled _ n i⟩
  rw [State.getF, hword, Fld.get_put _ (by decide), Nat.mod_eq_of_lt (Fld.get_lt _ v)]

/-- A write of GRG_THR stages both thresholds (R68). -/
theorem State.grgThr_stages {s : State} {n : Slice} (i : Slice) {v : Word}
    (hst : s.slState n = slFenced ∨ s.slState n = slReady ∨ s.slState n = slRunning)
    (ho : hasOutside v 0x0FFF0FFF = false) : s.grgThr n i v =
      (s.setReg (R.GRG_THR n i) v).setWin n i { s.win n i with hiStaged := true, loStaged := true } := by
  have hlive : (s.slState n == slFenced || s.slState n == slReady || s.slState n == slRunning) = true := by
    simpa [or_assoc] using hst
  simp only [State.grgThr, hlive, ho, Bool.not_true, Bool.or_self, Bool.false_eq_true, if_false]

/-- What GRG_TEST holds of test `sel` under TRIP_MASK. -/
def testWord (sel : Nat) : Word := F.GRG_TEST_TRIP_MASK.word 1 ||| F.GRG_TEST_TEST_SEL.word sel

theorem testWord_fields {sel : Nat} (h : sel < 8) :
    F.GRG_TEST_TEST_SEL.get (testWord sel) = sel ∧ F.GRG_TEST_TRIP_MASK.get (testWord sel) = 1 := by
  have hall : ∀ k : Fin 8, F.GRG_TEST_TEST_SEL.get (testWord k) = k ∧ F.GRG_TEST_TRIP_MASK.get (testWord k) = 1 := by decide
  exact hall ⟨sel, h⟩

theorem State.underTest_of_testWord {s : State} {n i : Slice} {sel : Nat} (h : sel < 8)
    (hw : s.reg (R.GRG_TEST n i) = testWord sel) :
    s.testSel n i = sel ∧ s.isSet (R.GRG_TEST n i) F.GRG_TEST_TRIP_MASK = true := by
  obtain ⟨hsel, hmask⟩ := testWord_fields h
  rw [State.testSel, State.isSet, State.getF, State.getF, hw, hsel, hmask]
  exact ⟨rfl, rfl⟩

/-- A test selected under TRIP_MASK starts (R75). -/
theorem State.grgTest_starts {s : State} {n : Slice} (i : Slice) {v : Word} (hsel : 1 ≤ F.GRG_TEST_TEST_SEL.get v)
    (hmax : F.GRG_TEST_TEST_SEL.get v ≤ 4) (hmask : F.GRG_TEST_TRIP_MASK.get v = 1) : s.grgTest n i v =
      (((s.setReg (R.GRG_TEST n i) (testWord (F.GRG_TEST_TEST_SEL.get v))).checkThr n i).testStart n i).showWin n i := by
  have hne : (F.GRG_TEST_TEST_SEL.get v != 0) = true := bne_iff_ne.mpr (by omega)
  have hle : ¬ 4 < F.GRG_TEST_TEST_SEL.get v := by omega
  simp only [State.grgTest, hne, hle, hmask, beq_self_eq_true, decide_false, Bool.or_true, Bool.not_true, Bool.and_false,
    Bool.or_self, Bool.false_eq_true, if_false, if_true]
  rfl

/-- Whether the test is SWAP or not, what follows its start ends with the window shown. -/
theorem State.swapSides_showWin (s : State) (n i : Slice) (hi lo : Option Bool) : ∃ u, s.Shows n i u ∧
    (s.showWin n i).swapSides n i hi lo = u.showWin n i := by
  unfold State.swapSides
  split
  · exact ⟨s, .refl n i s, rfl⟩
  · exact ⟨_, (State.Shows.refl n i s).showWin.setWin _ rfl, rfl⟩

/-- A test selected under TRIP_MASK runs, and its window shows UNSETTLED and no trip request (R75, R76). -/
theorem State.grgTest_swapSides (s : State) {n : Slice} (i : Slice) {v : Word} (hi lo : Option Bool)
    (hsel : 1 ≤ F.GRG_TEST_TEST_SEL.get v) (hmax : F.GRG_TEST_TEST_SEL.get v ≤ 4)
    (hmask : F.GRG_TEST_TRIP_MASK.get v = 1) :
    s.Configures n i (R.GRG_TEST n i) (testWord (F.GRG_TEST_TEST_SEL.get v)) ((s.grgTest n i v).swapSides n i hi lo) ∧
      ((s.grgTest n i v).swapSides n i hi lo).getF (R.GRG_WSTAT n i) F.GRG_WSTAT_STATE = 0 ∧
      ((s.grgTest n i v).swapSides n i hi lo).isSet (R.GRG_WSTAT n i) F.GRG_WSTAT_TRIP_REQ = false := by
  rw [State.grgTest_starts i hsel hmax hmask]
  have hstart := (State.Shows.refl n i
    (s.setReg (R.GRG_TEST n i) (testWord (F.GRG_TEST_TEST_SEL.get v)))).checkThr.testStart
  obtain ⟨u, hu, hend⟩ := State.swapSides_showWin _ n i hi lo
  rw [hend]
  have hset : R.GRG_IN n i ≤ R.GRG_TEST n i ∧ R.GRG_TEST n i ≤ R.GRG_TEST n i := by unfold R.GRG_IN R.GRG_TEST; omega
  have hshown := hstart.trans hu
  obtain ⟨hselected, hmasked⟩ := State.underTest_of_testWord (by omega) (hshown.only.configures hset).word
  exact ⟨hshown.showWin.only.configures hset, State.showWin_underTest (by omega) hmasked⟩

end Machine
end Sys2Proof
end

section
/-! PROOFS. Gorge windows: the statement of chapter 04. -/

namespace Sys2Proof
namespace Machine

/-- Settles O5: each clause by what its operation does to the window, shown or unsettled after it, and its frame. -/
theorem gorgeWindows : Obligations.GorgeWindows := by
  refine ⟨?highSwitch, ?lowSwitch, ?settlingEnd, ?overrange, ?enable, ?refused, ?mode, ?stage, ?thrSwitch, ?test⟩
  case highSwitch =>
    intro s n i hp hen hhi ht hs hl he
    refine ⟨_, rfl, ?_⟩
    rw [State.halfSwitch_high true hp hen hhi ht hs]
    obtain ⟨_, _, _, hw⟩ := s.win_showWin_setWin n i { s.win n i with hi := true, hiDone := true }
    obtain ⟨hwins, hrest, hkept⟩ := (s.showWin_setWin_only n i { s.win n i with hi := true, hiDone := true }).inBlock
    refine ⟨congrArg WinSt.hi hw, congrArg WinSt.hiDone hw, ?_, hwins, hrest, hkept⟩
    refine (State.showWin_GRG_WSTAT _ n i).1.trans (State.winState_high hp ht hen hhi ?_ ?_ ?_ he)
    · rw [State.win_setWin_self]
    · rw [State.win_setWin_self]
    · simpa only [State.loSettled, State.win_setWin_self, State.setWin_isSet] using hl
  case lowSwitch =>
    intro s n i b hp hen hlo ht hs
    refine ⟨_, rfl, ?_⟩
    rw [State.halfSwitch_low b hp hen hlo ht hs]
    obtain ⟨_, _, _, hw⟩ := s.win_showWin_setWin n i { s.win n i with lo := b, loDone := true }
    obtain ⟨hwins, hrest, hkept⟩ := (s.showWin_setWin_only n i { s.win n i with lo := b, loDone := true }).inBlock
    exact ⟨congrArg WinSt.lo hw, congrArg WinSt.loDone hw, (congrArg WinSt.hi hw :), hwins, hrest, hkept⟩
  case settlingEnd =>
    intro s n i b lo hp hs hen hhi ht
    refine ⟨_, rfl, ?_⟩
    obtain ⟨w, ⟨hsettled, hlevel, hdone⟩, hend⟩ := State.settlingEnd_high b lo hp hs hen hhi ht
    rw [hend]
    obtain ⟨_, _, _, hw⟩ := s.win_showWin_setWin n i w
    obtain ⟨hwins, hrest, hkept⟩ := (s.showWin_setWin_only n i w).inBlock
    exact ⟨(congrArg WinSt.settling hw).trans hsettled, (congrArg WinSt.hi hw).trans hlevel,
      (congrArg WinSt.hiDone hw).trans hdone, hwins, hrest, hkept⟩
  case overrange =>
    intro s n i hp
    refine ⟨_, rfl, ?_⟩
    rw [State.overrange_beyond i hp]
    obtain ⟨hwins, hrest, hkept⟩ := ((State.WinOnly.refl _ n i s).setWin { s.win n i with beyond := true }).setReg _
      (F.GRG_IN_OVR.put (s.reg (R.GRG_IN n i)) 1)
      (block_of_setting (Nat.le_refl (R.GRG_IN n i)) (by unfold R.GRG_IN R.GRG_TEST; omega))
    refine ⟨?_, congrArg WinSt.beyond (s.win_setWin_self n i _), ?_, hwins, hrest, hkept⟩
    · rw [State.isSet, State.getF_setF_of_lt _ _ _ _ (by decide) (by decide), beq_self_eq_true]
    · exact State.getF_setF_fld _ _ _ _ _ (by decide) (by decide)
  case enable =>
    intro s x n i v hr hf hst ho hen hwas
    refine ⟨_, rfl, ?_⟩
    rw [State.write_GRG_WCFG v hr hf]
    obtain ⟨⟨hword, hwins, hrest, hkept⟩, hsettling, hhi, hlo⟩ := State.grgWcfg_enables hst ho hen hwas
    exact ⟨hword, hsettling, hhi, hlo, hwins, hrest, hkept⟩
  case refused =>
    intro s x n i v hr hf hst
    refine ⟨_, rfl, ?_⟩
    rw [State.write_GRG_WCFG v hr hf, State.grgWcfg_refused i v hst]
    refine ⟨State.reg_count_ne _ _ _ _ ?_, State.getF_count _ _ _ (by decide), rfl⟩
    unfold R.GRG_WCFG R.GRG_CFG_REJ
    omega
  case mode =>
    intro s x n i v hr hf hst ho hmode
    refine ⟨_, rfl, ?_⟩
    rw [State.write_GRG_IN v hr hf]
    obtain ⟨hfield, ⟨hwins, hrest, hkept⟩, hsettling, hhi, hlo⟩ := State.grgIn_changes hst ho hmode
    exact ⟨hfield, hsettling, hhi, hlo, hwins, hrest, hkept⟩
  case stage =>
    intro s x n i v hr hf hst ho
    refine ⟨_, rfl, ?_⟩
    rw [State.write_GRG_THR v hr hf, State.grgThr_stages i hst ho]
    have hw := (s.setReg (R.GRG_THR n i) v).win_setWin_self n i { s.win n i with hiStaged := true, loStaged := true }
    obtain ⟨hword, hwins, hrest, hkept⟩ := ((State.WinOnly.refl _ n i (s.setReg (R.GRG_THR n i) v)).setWin
      { s.win n i with hiStaged := true, loStaged := true }).configures
      (by unfold R.GRG_IN R.GRG_THR R.GRG_TEST; omega)
    exact ⟨hword, congrArg WinSt.hiStaged hw, congrArg WinSt.loStaged hw, (congrArg WinSt.hiCode hw :), hwins, hrest, hkept⟩
  case thrSwitch =>
    intro s n i hstaged
    refine ⟨_, rfl, ?_⟩
    rw [State.thrSwitch_high hstaged]
    have hshown := (State.Shows.refl n i (s.setWin n i { s.win n i with
      hiCode := s.getF (R.GRG_THR n i) F.GRG_THR_HIGH_CODE, hiStaged := false })).checkThr.testMoved.showWin
    have hw := hshown.win
    rw [State.win_setWin_self] at hw
    obtain ⟨hwins, hrest, hkept⟩ := (((State.WinOnly.refl _ n i s).setWin _).trans hshown.only).inBlock
    exact ⟨congrArg WinSt.hiCode hw, congrArg WinSt.hiStaged hw, (congrArg WinSt.loCode hw :), (congrArg WinSt.loStaged hw :),
      hwins, hrest, hkept⟩
  case test =>
    intro s x n i v hi lo hr hf hsel hmax hmask
    refine ⟨_, rfl, ?_⟩
    rw [State.write_GRG_TEST v hr hf]
    obtain ⟨⟨hword, hwins, hrest, hkept⟩, hstate, htrip⟩ := s.grgTest_swapSides i hi lo hsel hmax hmask
    obtain ⟨hselected, hmasked⟩ := State.underTest_of_testWord (by omega) hword
    exact ⟨hselected, hmasked, hstate, htrip, hwins, hrest, hkept⟩

end Machine
end Sys2Proof
end

section
/-! PROOFS. SAR converters: what a trigger does to an idle and to a busy converter (R79, R82 to R84). -/

namespace Sys2Proof
namespace Machine

/-! One converter. -/

@[simp] theorem State.sr_setSr_self (s : State) (n : Fin 12) (k : Fin 4) (x : SarSt) : (s.setSr n k x).sr n k = x := by
  simp only [State.sr, State.setSr, vget_set_self]

theorem State.getF_countBy (s : State) (a : Nat) (f : Fld) (m : Nat) (h : f.lo + f.width ≤ 32) :
    (s.countBy a f m).getF a f = min f.top (s.getF a f + m) := by
  have hp := Nat.two_pow_pos f.width
  rw [State.countBy, State.getF_setF_of_lt _ _ _ _ h]
  unfold Fld.top
  omega

/-- No register of a slice's units below its DMA block is one of the event router. -/
theorem routerReg_below (n : Slice) {a : Nat} (h : sliceBase n ≤ a) (h' : a < sliceBase n + 0x8000) :
    routerReg a = false := by
  have hn := n.isLt
  simp only [routerReg, Bool.or_eq_false_iff, Bool.and_eq_false_iff, decide_eq_false_iff_not]
  unfold sliceBase at h h'
  omega

theorem routerReg_SAR_STAT (n : Slice) (k : Fin 4) : routerReg (R.SAR_STAT n k) = false :=
  routerReg_below n (by unfold R.SAR_STAT; omega) (by unfold R.SAR_STAT; omega)

theorem routerReg_SAR_OVR (n : Slice) (k : Fin 4) : routerReg (R.SAR_OVR n k) = false :=
  routerReg_below n (by unfold R.SAR_OVR; omega) (by unfold R.SAR_OVR; omega)

theorem SAR_OVR_ne_SAR_STAT (n k : Nat) : R.SAR_OVR n k ≠ R.SAR_STAT n k := by
  unfold R.SAR_OVR R.SAR_STAT
  omega

/-! Which triggers reach a converter (R82, R84). -/

theorem State.sarGate_of_live {s : State} {n : Slice} (sw : Bool) (hf : s.fitted n = true)
    (hst : s.slState n = slReady ∨ s.slState n = slRunning) : s.sarGate n sw = true := by
  rcases hst with hst | hst <;> simp [State.sarGate, hf, hst]

/-- A software trigger, and a result, get through in FENCED too. -/
theorem State.sarGate_software {s : State} {n : Slice} (hf : s.fitted n = true)
    (hst : s.slState n = slReady ∨ s.slState n = slRunning ∨ s.slState n = slFenced) : s.sarGate n true = true := by
  rw [← or_assoc] at hst
  rcases hst with hst | hst
  · exact State.sarGate_of_live true hf hst
  · simp [State.sarGate, hf, hst]

/-- SAR_TRIGGER at the phase point is a hardware trigger. -/
theorem State.sarPhase_atPoint {s : State} {n : Slice} {k : Fin 4} (extra : Nat)
    (hsrc : s.getF (R.SAR_TRIG n k) F.SAR_TRIG_SRC = 2) (hpt : s.atPhasePoint n k = true) :
    s.sarPhase n k extra = s.sarTrig n k false extra := by
  simp [State.sarPhase, hsrc, hpt]

/-! Triggers of an idle converter (R79, R83). -/

/-- In `t` converter k of slice n has begun a burst, and nothing but converters and registers has changed. -/
structure State.StartsBurst (n : Slice) (k : Fin 4) (s t : State) : Prop where
  phase : (t.sr n k).phase = .acq 0 (s.sarInput n k 0)
  busy : t.isSet (R.SAR_STAT n k) F.SAR_STAT_BUSY = true
  rest : t = { s with regs := t.regs, sar := t.sar }

theorem State.sarStart_startsBurst (s : State) (n : Slice) (k : Fin 4) : s.StartsBurst n k (s.sarStart n k) where
  phase := congrArg SarSt.phase (s.sr_setSr_self n k _)
  busy := State.isSet_setB _ _ _ true (by decide) (by decide)
  rest := rfl

/-- Triggers merged into the burst that has begun are counted. -/
theorem State.StartsBurst.merge {s t : State} {n : Slice} {k : Fin 4} (h : s.StartsBurst n k t) (at_ : Option Nat)
    (extra : Nat) : s.StartsBurst n k
      ((t.setSr n k { t.sr n k with idleAt := at_ }).countBy (R.SAR_OVR n k) F.SAR_OVR_TRIG extra) where
  phase := (congrArg SarSt.phase (t.sr_setSr_self n k _)).trans h.phase
  busy := (congrArg (· == 1) (State.getF_setF_reg _ _ _ _ _ _ (SAR_OVR_ne_SAR_STAT n k).symm)).trans h.busy
  rest := by
    rw [h.rest]
    rfl

theorem State.sarPend_zero (s : State) (n : Slice) (k : Fin 4) : s.sarPend n k 0 = s := by
  simp [State.sarPend]

/-- A trigger that finds the converter idle starts a burst; with others only if no burst has ended in its cycle. -/
theorem State.sarTrig_startsBurst {s : State} {n : Slice} {k : Fin 4} {sw : Bool} {extra : Nat}
    (hg : s.sarGate n sw = true) (hlen : s.sarLen n k ≠ 0) (hidle : (s.sr n k).phase = .idle)
    (h : (s.sr n k).endAt ≠ some s.clock ∨ extra = 0) : s.StartsBurst n k (s.sarTrig n k sw extra) := by
  have hstart := s.sarStart_startsBurst n k
  by_cases hend : (s.sr n k).endAt = some s.clock
  · obtain rfl := h.resolve_left (absurd hend)
    have he : s.sarTrig n k sw 0 = s.sarStart n k := by
      simp [State.sarTrig, hg, hlen, hidle, hend, State.sarPend_zero]
    exact he ▸ hstart
  · have he : s.sarTrig n k sw extra = ((s.sarStart n k).setSr n k { (s.sarStart n k).sr n k with
        idleAt := some s.clock }).countBy (R.SAR_OVR n k) F.SAR_OVR_TRIG extra := by
      simp [State.sarTrig, hg, hlen, hidle, hend]
    exact he ▸ hstart.merge _ extra

/-! Triggers of a busy converter (R83). -/

theorem State.sarTrig_busy {s : State} {n : Slice} {k : Fin 4} {sw : Bool} (extra : Nat) (hg : s.sarGate n sw = true)
    (hlen : s.sarLen n k ≠ 0) (hbusy : (s.sr n k).phase ≠ .idle) (hat : (s.sr n k).idleAt ≠ some s.clock) :
    s.sarTrig n k sw extra = s.sarPend n k (extra + 1) := by
  simp [State.sarTrig, hg, hlen, hbusy, hat]

/-- In the cycle in which another trigger found the converter idle, triggers are merged and counted. -/
theorem State.sarTrig_merged {s : State} {n : Slice} {k : Fin 4} {sw : Bool} (extra : Nat) (hg : s.sarGate n sw = true)
    (hlen : s.sarLen n k ≠ 0) (hbusy : (s.sr n k).phase ≠ .idle) (hat : (s.sr n k).idleAt = some s.clock) :
    s.sarTrig n k sw extra = s.countBy (R.SAR_OVR n k) F.SAR_OVR_TRIG (extra + 1) := by
  simp [State.sarTrig, hg, hlen, hbusy, hat]

/-- A trigger that finds a burst running waits, and is not counted. -/
theorem State.sarPend_waits {s : State} {n : Slice} {k : Fin 4}
    (hp : s.isSet (R.SAR_STAT n k) F.SAR_STAT_PEND = false) :
    (s.sarPend n k 1).isSet (R.SAR_STAT n k) F.SAR_STAT_PEND = true ∧
      (s.sarPend n k 1).getF (R.SAR_OVR n k) F.SAR_OVR_TRIG = s.getF (R.SAR_OVR n k) F.SAR_OVR_TRIG ∧
      (s.sarPend n k 1).sar = s.sar := by
  have he : s.sarPend n k 1 = s.setF (R.SAR_STAT n k) F.SAR_STAT_PEND 1 := by simp [State.sarPend, hp]
  rw [he]
  exact ⟨State.isSet_setB s _ _ true (by decide) (by decide), State.getF_setF_reg _ _ _ _ _ _ (SAR_OVR_ne_SAR_STAT n k), rfl⟩

/-- A flag of SAR_STAT is set, and the converters and every other field outside the event router stay (R304). -/
theorem State.sarFlag_sets (s : State) (n : Slice) (k : Fin 4) (f : Fld) (hf : f.lo + f.width ≤ 32) (hw : 0 < f.width) :
    (s.sarFlag n k f).isSet (R.SAR_STAT n k) f = true ∧ (s.sarFlag n k f).sar = s.sar ∧
      ∀ b g, routerReg b = false → (b ≠ R.SAR_STAT n k ∨ f.lo + f.width ≤ g.lo ∨ g.lo + g.width ≤ f.lo) →
        (s.sarFlag n k f).getF b g = s.getF b g := by
  unfold State.sarFlag
  dsimp only
  split
  · next hset => exact ⟨hset, rfl, fun _ _ _ _ => rfl⟩
  · have hfire := State.fire_only (s.setF (R.SAR_STAT n k) f 1) (localSrc n 19)
    refine ⟨?_, ?_, fun b g hb hd => ?_⟩
    · exact (congrArg (fun w => f.get w == 1) (hfire.regs _ (routerReg_SAR_STAT n k))).trans
        (State.isSet_setB s _ f true hf hw)
    · exact (congrArg State.sar hfire.rest :)
    · exact (congrArg g.get (hfire.regs b hb)).trans (s.getF_setF_ne _ f 1 b g hf hd)

/-- A trigger beyond the one that waits is counted and flagged. -/
theorem State.sarPend_counts {s : State} {n : Slice} {k : Fin 4}
    (hp : s.isSet (R.SAR_STAT n k) F.SAR_STAT_PEND = true) :
    (s.sarPend n k 1).isSet (R.SAR_STAT n k) F.SAR_STAT_PEND = true ∧
      (s.sarPend n k 1).getF (R.SAR_OVR n k) F.SAR_OVR_TRIG =
        min F.SAR_OVR_TRIG.top (s.getF (R.SAR_OVR n k) F.SAR_OVR_TRIG + 1) ∧
      (s.sarPend n k 1).isSet (R.SAR_STAT n k) F.SAR_STAT_TRIG_OVR_F = true ∧ (s.sarPend n k 1).sar = s.sar := by
  have he : s.sarPend n k 1 = ((s.setF (R.SAR_STAT n k) F.SAR_STAT_PEND 1).countBy (R.SAR_OVR n k) F.SAR_OVR_TRIG 1).sarFlag
      n k F.SAR_STAT_TRIG_OVR_F := by simp [State.sarPend, hp]
  rw [he]
  obtain ⟨hflag, hsar, hkept⟩ := State.sarFlag_sets ((s.setF (R.SAR_STAT n k) F.SAR_STAT_PEND 1).countBy (R.SAR_OVR n k)
    F.SAR_OVR_TRIG 1) n k F.SAR_STAT_TRIG_OVR_F (by decide) (by decide)
  refine ⟨?_, ?_, hflag, hsar⟩
  · rw [State.isSet, hkept _ _ (routerReg_SAR_STAT n k) (.inr (by decide)), State.countBy,
      State.getF_setF_reg _ _ _ _ _ _ (SAR_OVR_ne_SAR_STAT n k).symm]
    exact State.isSet_setB s _ _ true (by decide) (by decide)
  · rw [hkept _ _ (routerReg_SAR_OVR n k) (.inl (SAR_OVR_ne_SAR_STAT n k)), State.getF_countBy _ _ _ _ (by decide),
      State.getF_setF_reg _ _ _ _ _ _ (SAR_OVR_ne_SAR_STAT n k)]

end Machine
end Sys2Proof
end

section
/-! PROOFS. SAR converters: hold, result and hand-off (R79, R85 to R88, R107). -/

namespace Sys2Proof
namespace Machine

/-! Hold and result (R79, R85, R86). -/

theorem formatCode_eq (fmt b code : Nat) : formatCode fmt b code =
    if fmt = 0 then ((code * 2 ^ 15 / 2 ^ b : Nat) : Int) else ((code : Int) - 2 ^ (b - 1)) * 2 ^ (16 - b) := by
  simp only [formatCode, beq_iff_eq]

/-- Outside HIL a hold keeps the formatted code, the trims of the input and the time. -/
theorem State.sarHold_acq {s : State} {n : Slice} {k : Fin 4} {e i : Nat} (code : BitVec 16)
    (hacq : (s.sr n k).phase = .acq e i) (hm : s.mode ≠ mdHil) :
    s.sarHold n k code = s.setSr n k { s.sr n k with
      phase := .conv e (formatCode (s.getF (R.SAR_ENT n k e) F.SAR_ENT_FMT) (s.sarBits n k e)
        (code.toNat % 2 ^ s.sarBits n k e)) false (s.reg (R.SAR_CAL n i)) s.mtimeLo } := by
  simp [State.sarHold, hacq, hm]

/-- The last result of a burst, with no trigger waiting, ends it. -/
theorem State.sarReady_last {s : State} {n : Slice} {k : Fin 4} {e : Nat} {x : Int} {cal time : Word}
    (hconv : (s.sr n k).phase = .conv e x false cal time) (hlast : s.sarLen n k ≤ e + 1)
    (hp : s.isSet (R.SAR_STAT n k) F.SAR_STAT_PEND = false) :
    s.sarReady n k = ((s.fireLocal n (12 + k)).setSr n k { s.sr n k with
      phase := .idle, endAt := some s.clock, results := (s.sr n k).results ++ [⟨e, x, correct x cal, time⟩] }).setF
      (R.SAR_STAT n k) F.SAR_STAT_BUSY 0 := by
  simp [State.sarReady, hconv, Nat.not_lt.mpr hlast, hp]

/-! Hand-off (R87, R88). -/

/-- The oldest result r of converter k has landed in SAR_RES and in the input register of loop j, and `l` wait. -/
def State.landed (s : State) (n : Slice) (k : Fin 4) (r : SarRes) (l : List SarRes) (j : Fin 16) : State :=
  ((s.setSr n k { s.sr n k with results := l }).setReg (R.SAR_RES n k r.e) (pack16 r.y r.x)).setReg (R.CLE_IN n j)
    (pack16 r.y 0)

theorem State.sarLoop_untriggered {s : State} {n k e : Nat}
    (h : s.isSet (R.SAR_ENT n k e) F.SAR_ENT_TRIG_LOOP = false) : s.sarLoop n k e = none := by
  simp [State.sarLoop, h]

theorem CLE_IN_ne_SAR_RES (n : Slice) (k : Fin 4) (j : Fin 16) {e : Nat} (he : e < 6) :
    R.CLE_IN n j ≠ R.SAR_RES n k e := by
  unfold R.CLE_IN R.SAR_RES
  omega

/-- A result that has landed leaves its entry as it was configured. -/
theorem State.landed_SAR_ENT (s : State) (n : Slice) (k : Fin 4) {r : SarRes} (l : List SarRes) (j : Fin 16)
    (he : r.e < 6) : (s.landed n k r l j).reg (R.SAR_ENT n k r.e) = s.reg (R.SAR_ENT n k r.e) := by
  have hres : R.SAR_ENT n k r.e ≠ R.SAR_RES n k r.e := by unfold R.SAR_ENT R.SAR_RES; omega
  have hin : R.SAR_ENT n k r.e ≠ R.CLE_IN n j := by unfold R.SAR_ENT R.CLE_IN; omega
  rw [State.landed, State.reg_setReg_ne _ _ _ _ hin, State.reg_setReg_ne _ _ _ _ hres, State.setSr_reg]

theorem State.landed_SAR_RES (s : State) (n : Slice) (k : Fin 4) {r : SarRes} (l : List SarRes) (j : Fin 16)
    (he : r.e < 6) : (s.landed n k r l j).reg (R.SAR_RES n k r.e) = pack16 r.y r.x := by
  rw [State.landed, State.reg_setReg_ne _ _ _ _ (CLE_IN_ne_SAR_RES n k j he).symm, State.reg_setReg_self]

theorem State.landed_CLE_IN (s : State) (n : Slice) (k : Fin 4) (r : SarRes) (l : List SarRes) (j : Fin 16) :
    (s.landed n k r l j).reg (R.CLE_IN n j) = pack16 r.y 0 := State.reg_setReg_self _ _ _

theorem State.landed_results (s : State) (n : Slice) (k : Fin 4) (r : SarRes) (l : List SarRes) (j : Fin 16) :
    ((s.landed n k r l j).sr n k).results = l := congrArg SarSt.results (s.sr_setSr_self n k _)

theorem State.landed_regsKept (s : State) (n : Slice) (k : Fin 4) (r : SarRes) (l : List SarRes) (j : Fin 16) :
    s.RegsKept (s.landed n k r l j) (fun a => a == R.SAR_RES n k r.e || a == R.CLE_IN n j) := by
  intro a ha
  simp only [Bool.or_eq_false_iff, beq_eq_false_iff_ne] at ha
  rw [State.landed, State.reg_setReg_ne _ _ _ _ ha.2, State.reg_setReg_ne _ _ _ _ ha.1, State.setSr_reg]

/-- A write of the input register in the cycle of a hand-off is lost, and the collision counted (R107). -/
def State.collided (s : State) (n : Slice) (j : Fin 16) : State :=
  (s.count (R.CLE_WRCOLL n) F.CLE_WRCOLL_COUNT).setF (R.CLE_LSTAT n j) F.CLE_LSTAT_WRCOLL_F 1

theorem State.collided_reg {s : State} {n : Slice} {j : Fin 16} {a : Nat} (h : a ≠ R.CLE_WRCOLL n)
    (h' : a ≠ R.CLE_LSTAT n j) : (s.collided n j).reg a = s.reg a := by
  rw [State.collided, State.reg_setF_ne _ _ _ _ _ h', State.reg_count_ne _ _ _ _ h]

/-- A collision changes registers alone. -/
theorem State.collided_rest (s : State) (n : Slice) (j : Fin 16) :
    s.collided n j = { s with regs := (s.collided n j).regs } := rfl

/-- A collision leaves every register below the CLE's block. -/
theorem State.collided_reg_below {s : State} {n : Slice} {j : Fin 16} {a : Nat} (h : a < sliceBase n + 0x4000) :
    (s.collided n j).reg a = s.reg a :=
  State.collided_reg (by unfold R.CLE_WRCOLL; omega) (by unfold R.CLE_LSTAT; omega)

theorem State.collided_CLE_IN (s : State) (n : Slice) (j : Fin 16) :
    (s.collided n j).reg (R.CLE_IN n j) = s.reg (R.CLE_IN n j) :=
  State.collided_reg (by unfold R.CLE_IN R.CLE_WRCOLL; omega) (by unfold R.CLE_IN R.CLE_LSTAT; omega)

theorem State.collided_flag (s : State) (n : Slice) (j : Fin 16) :
    (s.collided n j).isSet (R.CLE_LSTAT n j) F.CLE_LSTAT_WRCOLL_F = true :=
  State.isSet_setB _ _ _ true (by decide) (by decide)

theorem State.collided_count (s : State) (n : Slice) (j : Fin 16) :
    (s.collided n j).getF (R.CLE_WRCOLL n) F.CLE_WRCOLL_COUNT =
      min F.CLE_WRCOLL_COUNT.top (s.getF (R.CLE_WRCOLL n) F.CLE_WRCOLL_COUNT + 1) := by
  rw [State.collided, State.getF_setF_reg _ _ _ _ _ _ (by unfold R.CLE_WRCOLL R.CLE_LSTAT; omega),
    State.getF_count _ _ _ (by decide)]

/-- A result that has landed, with a collision where one is. -/
def State.handedOver (s : State) (n : Slice) (k : Fin 4) (r : SarRes) (l : List SarRes) (j : Fin 16) (coll : Bool) : State :=
  if coll then (s.landed n k r l j).collided n j else s.landed n k r l j

theorem State.handedOver_SAR_ENT (s : State) (n : Slice) (k : Fin 4) {r : SarRes} (l : List SarRes) (j : Fin 16)
    (coll : Bool) (he : r.e < 6) :
    (s.handedOver n k r l j coll).reg (R.SAR_ENT n k r.e) = s.reg (R.SAR_ENT n k r.e) := by
  rw [State.handedOver, apply_ite (State.reg · (R.SAR_ENT n k r.e)), State.collided_reg_below (by unfold R.SAR_ENT; omega),
    ite_self, s.landed_SAR_ENT n k l j he]

/-- A result that gets through to a loop, which its entry does not trigger, is handed over. -/
theorem State.sarHandoff_gives {s : State} {n : Slice} {k : Fin 4} {r : SarRes} {l : List SarRes} {j : Fin 16} (coll : Bool)
    (hg : s.sarGate n true = true) (hres : (s.sr n k).results = r :: l) (he : r.e < 6)
    (hdest : s.getF (R.SAR_ENT n k r.e) F.SAR_ENT_DEST = 1) (hloop : s.getF (R.SAR_ENT n k r.e) F.SAR_ENT_LOOP = j)
    (htrig : s.isSet (R.SAR_ENT n k r.e) F.SAR_ENT_TRIG_LOOP = false) :
    s.sarHandoff n k coll = s.handedOver n k r l j coll := by
  have hj : s.getF (R.SAR_ENT n k r.e) F.SAR_ENT_LOOP % 16 = j := by rw [hloop]; exact Nat.mod_eq_of_lt j.isLt
  have hnone : (s.handedOver n k r l j coll).sarLoop n k r.e = none := State.sarLoop_untriggered
    ((congrArg (fun w => F.SAR_ENT_TRIG_LOOP.get w == 1) (s.handedOver_SAR_ENT n k l j coll he)).trans htrig)
  have hdests : ((1 : Nat) == 1 || (1 : Nat) == 3) = true ∧ ((1 : Nat) == 2 || (1 : Nat) == 3) = false := by decide
  simp only [State.handedOver, State.landed, State.collided] at hnone ⊢
  simp only [State.sarHandoff, hres, hg, hdest, hj, hdests, hnone, Bool.not_true, Bool.false_eq_true, if_false, if_true]

end Machine
end Sys2Proof
end

section
/-! PROOFS. SAR converters: records in slice memory, register writes and self-calibration (R82, R89, R91, R92). -/

namespace Sys2Proof
namespace Machine

/-! Records (R89). -/

@[simp] theorem State.cell_breakResv (s : State) (w : Option (Fin 13)) (a b : Nat) : (s.breakResv w a).cell b = s.cell b := by
  rw [(s.breakResv_haltsKept w a).rest]
  rfl

@[simp] theorem State.cell_setSr (s : State) (n : Fin 12) (k : Fin 4) (x : SarSt) (b : Nat) :
    (s.setSr n k x).cell b = s.cell b := rfl

/-- A cell outside the copies is written alone, whatever else is read. -/
theorem State.cell_setCell_other (s : State) {a b : Nat} (c : Cell) (ha : inCopy a = false) (h : b / 4 ≠ a / 4) :
    (s.setCell a c).cell b = s.cell b := by
  cases hb : inCopy b with
  | false => exact s.cell_setCell_ne a b c ha hb h
  | true =>
    rw [s.setCell_only a c ha]
    simp only [State.cell, hb, if_true]
    rfl

/-- On-chip memory outside the copies is written whatever the cell's error mark says. -/
theorem State.wr_onChip (s : State) (w : Option (Fin 13)) {a : Nat} (c : Cell) (hm : inMain a = false) :
    s.wr w a c = ((s.clearMark a).breakResv w a).setCell a c := by
  have habs (u : State) : u.absentMain a = false := by rw [State.absentMain, hm, Bool.false_and]
  have htouch : s.touchPage a = s := by simp [State.touchPage, hm]
  simp only [State.wr, habs, htouch, hm, Bool.not_false, Bool.false_eq_true, if_false, if_true]
  cases s.mark a <;> rfl

/-- After a write on chip outside the copies the cell reads what was written, and every other as before. -/
theorem State.cell_wr (s : State) (w : Option (Fin 13)) {a : Nat} (c : Cell) (hm : inMain a = false)
    (hc : inCopy a = false) : (s.wr w a c).cell a = c ∧ ∀ b, b / 4 ≠ a / 4 → (s.wr w a c).cell b = s.cell b := by
  rw [s.wr_onChip w c hm]
  refine ⟨?_, fun b hb => ?_⟩
  · rw [State.cell_setCell_self _ _ _ hc, stored, hm]
    rfl
  · rw [State.cell_setCell_other _ c hc hb, State.cell_breakResv, State.cell_clearMark]

/-- Nothing of a slice's block is main memory or a microcode copy. -/
theorem sliceBlock_onChip (n : Slice) {a : Nat} (h : sliceBase n ≤ a) (h' : a < sliceBase n + 0x100000) :
    inMain a = false ∧ inCopy a = false := by
  have hn := n.isLt
  simp only [inMain, inCopy, Bool.and_eq_false_iff, decide_eq_false_iff_not]
  unfold sliceBase at h h'
  omega

/-- Two cells of a slice's block written one after the other: each reads what was written, and no other cell changes. -/
theorem State.cell_wr_pair (s : State) (w : Option (Fin 13)) (n : Slice) {a : Nat} (c c' : Cell) (h4 : a % 4 = 0)
    (h : sliceBase n ≤ a) (h' : a + 4 < sliceBase n + 0x100000) :
    ((s.wr w a c).wr w (a + 4) c').cell a = c ∧ ((s.wr w a c).wr w (a + 4) c').cell (a + 4) = c' ∧
      s.CellsKept ((s.wr w a c).wr w (a + 4) c') (fun b => b == a || b == a + 4) := by
  obtain ⟨hm, hc⟩ := sliceBlock_onChip n h (by omega)
  obtain ⟨hm', hc'⟩ := sliceBlock_onChip n (Nat.le_add_right_of_le h) h'
  obtain ⟨hfirst, hkept⟩ := s.cell_wr w c hm hc
  obtain ⟨hsecond, hkept'⟩ := (s.wr w a c).cell_wr w c' hm' hc'
  refine ⟨(hkept' a (by omega)).trans hfirst, hsecond, fun b hb hne => ?_⟩
  simp only [Bool.or_eq_false_iff, beq_eq_false_iff_ne] at hne
  rw [hkept' b (by omega), hkept b (by omega)]

/-- The oldest queued record goes to its place, and INDEX advances within the buffer (R89, R91). -/
theorem State.sarRecord_queued {s : State} {n : Slice} {k : Fin 4} {r : Rec} {q : List Rec} {a : Nat}
    (hq : (s.sr n k).queue = r :: q) (ha : a = smem n (8 * s.getF (R.SAR_MBUF n k) F.SAR_MBUF_BASE +
      8 * s.getF (R.SAR_MIDX n k) F.SAR_MIDX_INDEX)) :
    s.sarRecord n k = (((s.wr none a r.c0).wr none (a + 4) r.c1).setSr n k { s.sr n k with queue := q }).setF
      (R.SAR_MIDX n k) F.SAR_MIDX_INDEX
      ((s.getF (R.SAR_MIDX n k) F.SAR_MIDX_INDEX + 1) % 2 ^ s.getF (R.SAR_MBUF n k) F.SAR_MBUF_LOG2LEN) := by
  simp only [State.sarRecord, hq, ha]

/-! Register writes and self-calibration (R82, R92). -/

/-- A served write of a register of slice n's SAR block is that of its unit. -/
theorem State.write_sarBlock {s : State} {x : Access} {n : Slice} {o : Nat} (v : Word) (ho : 0x2000 ≤ o) (ho' : o < 0x3000)
    (hr : s.reaches x (sliceBase n + o) = true) (hf : s.fitted n = true) :
    s.write x (sliceBase n + o) v = s.sarWrite n (sliceBase n + o) v := by
  have hu : s.unreserved x (sliceBase n + o) = true := (Bool.and_eq_true_iff.mp hr).2
  have hkc : kcBars x (sliceBase n + o) = false := by
    simp only [State.reaches, State.takesWrite, Bool.and_eq_true, Bool.not_eq_true'] at hr
    exact hr.1.2
  rw [s.write_of_reaches x _ v hr, s.regWrite_slice x n _ v (by omega) hkc hf hu, State.sliceWrite, if_neg (by omega),
    dif_neg (by omega), if_neg (by omega), if_pos ho']

theorem State.write_SAR_CTRL {s : State} {x : Access} {n : Slice} (v : Word) (hr : s.reaches x (R.SAR_CTRL n) = true)
    (hf : s.fitted n = true) : s.write x (R.SAR_CTRL n) v = s.selfcal n v := by
  rw [show R.SAR_CTRL n = sliceBase n + 0x2000 from rfl] at hr ⊢
  rw [State.write_sarBlock v (by decide) (by decide) hr hf]
  simp [State.sarWrite]

theorem State.write_SAR_SWTRIG {s : State} {x : Access} {n : Slice} {k : Fin 4} (v : Word)
    (hr : s.reaches x (R.SAR_SWTRIG n k) = true) (hf : s.fitted n = true) :
    s.write x (R.SAR_SWTRIG n k) v = s.sarSw n k v := by
  have ha : R.SAR_SWTRIG n k = sliceBase n + (0x211C + k * 0x40) := by unfold R.SAR_SWTRIG; omega
  have hoff : sliceBase n + (0x211C + k * 0x40) - (sliceBase n + 0x2000) = 0x11C + k * 0x40 := by omega
  have hconv : (0x11C + k.val * 0x40 - 0x100) / 0x40 = k := by omega
  have hreg : (0x11C + k.val * 0x40 - 0x100) % 0x40 = 0x1C := by omega
  rw [ha] at hr ⊢
  rw [State.write_sarBlock v (by omega) (by omega) hr hf]
  simp only [State.sarWrite, hoff, hconv, hreg]
  rw [if_neg (by simp), dif_pos (by omega)]

/-- SAR_SWTRIG with a 1 is a software trigger. -/
theorem State.sarSw_one (s : State) (n : Slice) (k : Fin 4) :
    s.sarSw n k (F.SAR_SWTRIG_TRIG.word 1) = s.sarTrig n k true 0 := by
  have h : F.SAR_SWTRIG_TRIG.get (F.SAR_SWTRIG_TRIG.word 1) = 1 := by decide
  simp [State.sarSw, h]

theorem State.selfcal_fenced {s : State} {n : Slice} (hst : s.slState n = slFenced) :
    s.selfcal n (F.SAR_CTRL_SELFCAL.word 1) = s.setF (R.SAR_CTRL n) F.SAR_CTRL_SELFCAL 1 := by
  have h : F.SAR_CTRL_SELFCAL.get (F.SAR_CTRL_SELFCAL.word 1) = 1 := by decide
  simp [State.selfcal, h, hst]

/-- Converter k is marked if its self-calibration failed. -/
def State.noteCalFail (n : Slice) (failed : BitVec 4) (s : State) (k : Fin 4) : State :=
  if failed.getLsbD k then s.setF (R.SAR_STAT n k) F.SAR_STAT_CAL_FAIL 1 else s

theorem State.selfcalEnd_running {s : State} {n : Slice} (failed : BitVec 4)
    (hrun : s.isSet (R.SAR_CTRL n) F.SAR_CTRL_SELFCAL = true) : s.selfcalEnd n failed =
      (List.finRange 4).foldl (State.noteCalFail n failed) (s.setF (R.SAR_CTRL n) F.SAR_CTRL_SELFCAL 0) := by
  rw [State.selfcalEnd, hrun]
  rfl

/-- Marking one converter leaves the others' marks, and a mark that is set. -/
theorem State.noteCalFail_isSet (n : Slice) (failed : BitVec 4) (s : State) (j k : Fin 4) :
    (State.noteCalFail n failed s j).isSet (R.SAR_STAT n k) F.SAR_STAT_CAL_FAIL =
      (decide (k = j) && failed.getLsbD k || s.isSet (R.SAR_STAT n k) F.SAR_STAT_CAL_FAIL) := by
  unfold State.noteCalFail
  by_cases hkj : k = j
  · subst hkj
    split
    · next hfail =>
      rw [hfail, decide_eq_true rfl, Bool.and_self, Bool.true_or]
      exact State.isSet_setB s _ _ true (by decide) (by decide)
    · next hfail => rw [(Bool.not_eq_true _).mp hfail, Bool.and_false, Bool.false_or]
  · have hne : R.SAR_STAT n k ≠ R.SAR_STAT n j := by
      have := Fin.val_ne_of_ne hkj
      unfold R.SAR_STAT
      omega
    rw [decide_eq_false hkj, Bool.false_and, Bool.false_or]
    split
    · rw [State.isSet, State.getF_setF_reg _ _ _ _ _ _ hne, State.isSet]
    · rfl

theorem State.foldl_noteCalFail_isSet (n : Slice) (failed : BitVec 4) (l : List (Fin 4)) (s : State) (k : Fin 4) :
    (l.foldl (State.noteCalFail n failed) s).isSet (R.SAR_STAT n k) F.SAR_STAT_CAL_FAIL =
      (decide (k ∈ l) && failed.getLsbD k || s.isSet (R.SAR_STAT n k) F.SAR_STAT_CAL_FAIL) := by
  induction l generalizing s with
  | nil => simp
  | cons j l ih =>
    rw [List.foldl_cons, ih, State.noteCalFail_isSet, ← Bool.or_assoc, ← Bool.and_or_distrib_right]
    simp [List.mem_cons, Bool.or_comm]

/-- Marking converters changes registers alone, SAR_CTRL not among them. -/
theorem State.foldl_noteCalFail_rest (n : Slice) (failed : BitVec 4) (l : List (Fin 4)) (s : State) :
    l.foldl (State.noteCalFail n failed) s = { s with regs := (l.foldl (State.noteCalFail n failed) s).regs } ∧
      (l.foldl (State.noteCalFail n failed) s).reg (R.SAR_CTRL n) = s.reg (R.SAR_CTRL n) := by
  refine foldl_keeps (fun t => t = { s with regs := t.regs } ∧ t.reg (R.SAR_CTRL n) = s.reg (R.SAR_CTRL n)) _ l s
    ⟨rfl, rfl⟩ (fun t k ht => ?_)
  obtain ⟨hrest, hctrl⟩ := ht
  unfold State.noteCalFail
  split
  · refine ⟨by rw [hrest]; rfl, (State.reg_setF_ne _ _ _ _ _ ?_).trans hctrl⟩
    unfold R.SAR_CTRL R.SAR_STAT
    omega
  · exact ⟨hrest, hctrl⟩

end Machine
end Sys2Proof
end

section
/-! PROOFS. SAR converters: the statement of chapter 05. -/

namespace Sys2Proof
namespace Machine

/-- Settles O6: each clause by what its command does to the converter, and its frame. -/
theorem sarConverters : Obligations.SarConverters := by
  refine ⟨?starts, ?waits, ?drops, ?merges, ?software, ?hold, ?ready, ?lands, ?collides, ?record, ?selfcal, ?selfcalEnd⟩
  case starts =>
    intro s n k extra hsrc hpt hf hst hlen hidle hend
    refine ⟨_, rfl, ?_⟩
    rw [State.sarPhase_atPoint _ hsrc hpt]
    obtain ⟨hphase, hbusy, hrest⟩ := State.sarTrig_startsBurst (extra := extra) (State.sarGate_of_live false hf hst) hlen
      hidle (.inl hend)
    exact ⟨hphase, hbusy, hrest⟩
  case waits =>
    intro s n k hsrc hpt hf hst hlen hbusy hat hp
    refine ⟨_, rfl, ?_⟩
    rw [State.sarPhase_atPoint _ hsrc hpt, State.sarTrig_busy _ (State.sarGate_of_live false hf hst) hlen hbusy hat]
    exact State.sarPend_waits hp
  case drops =>
    intro s n k hsrc hpt hf hst hlen hbusy hat hp
    refine ⟨_, rfl, ?_⟩
    rw [State.sarPhase_atPoint _ hsrc hpt, State.sarTrig_busy _ (State.sarGate_of_live false hf hst) hlen hbusy hat]
    exact State.sarPend_counts hp
  case merges =>
    intro s n k extra hsrc hpt hf hst hlen hbusy hat
    refine ⟨_, rfl, ?_⟩
    rw [State.sarPhase_atPoint _ hsrc hpt, State.sarTrig_merged _ (State.sarGate_of_live false hf hst) hlen hbusy hat]
    exact ⟨State.getF_countBy _ _ _ _ (by decide), rfl, rfl⟩
  case software =>
    intro s x n k hr hf hst hlen hidle
    refine ⟨_, rfl, ?_⟩
    rw [State.write_SAR_SWTRIG _ hr hf, State.sarSw_one]
    obtain ⟨hphase, hbusy, hrest⟩ := State.sarTrig_startsBurst (State.sarGate_software hf hst) hlen hidle (.inr rfl)
    exact ⟨hphase, hbusy, hrest⟩
  case hold =>
    rintro s n k code e i _ hacq hm rfl
    refine ⟨_, rfl, ?_⟩
    rw [State.sarHold_acq code hacq hm, formatCode_eq]
    exact ⟨congrArg SarSt.phase (s.sr_setSr_self n k _), rfl⟩
  case ready =>
    intro s n k e x cal time hconv hlast hp
    refine ⟨_, rfl, ?_⟩
    rw [State.sarReady_last hconv hlast hp]
    have hsr := (s.fireLocal n (12 + k)).sr_setSr_self n k { s.sr n k with
      phase := .idle, endAt := some s.clock, results := (s.sr n k).results ++ [⟨e, x, correct x cal, time⟩] }
    refine ⟨congrArg SarSt.phase hsr, congrArg SarSt.results hsr, ?_, ?_⟩
    · exact State.isSet_setB _ _ _ false (by decide) (by decide)
    · exact (congrArg State.cells (s.fire_only (localSrc n (12 + k))).rest :)
  case lands =>
    intro s n k r l j hf hst hres he hdest hloop htrig
    refine ⟨_, rfl, ?_⟩
    rw [State.sarHandoff_gives false (State.sarGate_software hf (or_rotate.mp hst)) hres he hdest hloop htrig,
      State.handedOver, if_neg Bool.false_ne_true]
    exact ⟨s.landed_results n k r l j, s.landed_SAR_RES n k l j he, s.landed_CLE_IN n k r l j, rfl,
      s.landed_regsKept n k r l j⟩
  case collides =>
    intro s n k r l j hf hst hres he hdest hloop htrig
    refine ⟨_, rfl, ?_⟩
    rw [State.sarHandoff_gives true (State.sarGate_software hf (or_rotate.mp hst)) hres he hdest hloop htrig,
      State.handedOver, if_pos rfl]
    have hword : R.SAR_RES n k r.e < sliceBase n + 0x4000 := by unfold R.SAR_RES; omega
    refine ⟨s.landed_results n k r l j, ?_, ?_, State.collided_flag _ n j, ?_, State.collided_rest _ n j⟩
    · exact (State.collided_reg_below hword).trans (s.landed_SAR_RES n k l j he)
    · exact (State.collided_CLE_IN _ n j).trans (s.landed_CLE_IN n k r l j)
    · rw [State.collided_count]
      have hkept := s.landed_regsKept n k r l j (R.CLE_WRCOLL n) (by
        simp only [Bool.or_eq_false_iff, beq_eq_false_iff_ne]
        unfold R.CLE_WRCOLL R.SAR_RES R.CLE_IN
        omega)
      rw [State.getF, hkept, State.getF]
  case record =>
    intro s n k r q a hq ha
    refine ⟨_, rfl, ?_⟩
    rw [State.sarRecord_queued hq ha]
    have hplace : a % 4 = 0 ∧ sliceBase n ≤ a ∧ a + 4 < sliceBase n + 0x100000 := by
      unfold smem sliceBase at *
      omega
    obtain ⟨h4, hlo, hhi⟩ := hplace
    obtain ⟨hfirst, hsecond, hkept⟩ := s.cell_wr_pair none n r.c0 r.c1 h4 hlo hhi
    simp only [State.CellsKept, State.cell_setF, State.cell_setSr]
    exact ⟨hfirst, hsecond, congrArg SarSt.queue (State.sr_setSr_self _ n k _), State.getF_setF _ _ _ _ (by decide), hkept⟩
  case selfcal =>
    intro s x n hr hf hst
    refine ⟨_, rfl, ?_⟩
    rw [State.write_SAR_CTRL _ hr hf, State.selfcal_fenced hst]
    exact ⟨State.isSet_setB _ _ _ true (by decide) (by decide), rfl⟩
  case selfcalEnd =>
    intro s n failed hrun
    refine ⟨_, rfl, ?_⟩
    rw [State.selfcalEnd_running failed hrun]
    obtain ⟨hrest, hctrl⟩ := State.foldl_noteCalFail_rest n failed (List.finRange 4)
      (s.setF (R.SAR_CTRL n) F.SAR_CTRL_SELFCAL 0)
    refine ⟨?_, fun k => ?_, hrest⟩
    · exact (congrArg (fun w => F.SAR_CTRL_SELFCAL.get w == 1) hctrl).trans
        (State.isSet_setB s _ _ false (by decide) (by decide))
    · rw [State.foldl_noteCalFail_isSet, decide_eq_true (List.mem_finRange k), Bool.true_and, State.isSet,
        State.getF_setF_reg _ _ _ _ _ _ (by unfold R.SAR_CTRL R.SAR_STAT; omega), State.isSet]

end Machine
end Sys2Proof
end

section
/-! PROOFS. Core pairs: what the issue, the fetch and the retirement of an instruction leave as it was, and how an instruction that
does not jump goes on (R217, R222, R224, R236, R237). -/

namespace Sys2Proof
namespace Machine

/-! Changes of one pair, with its KC_CSEL and the debugger's records. -/

theorem State.setCore_coreOf (s : State) (p : Fin 13) : s.setCore p (s.coreOf p) = s := by
  have : s.core.set p.val (s.core.get p) p.isLt = s.core := Vector.set_getElem_self p.isLt
  simp only [State.setCore, State.coreOf, this]

theorem State.setCore_setCore (s : State) (p : Fin 13) (c d : CoreSt) : (s.setCore p c).setCore p d = s.setCore p d := by
  simp only [State.setCore, Vector.set_set]

namespace State.KnOnly

variable {s t u : State} {p : Fin 13}

theorem refl (s : State) (p : Fin 13) : s.KnOnly s p :=
  ⟨congrArg (fun c : Vector CoreSt 13 => { s with core := c }) (congrArg State.core (s.setCore_coreOf p)).symm, fun _ _ => rfl⟩

theorem trans (h : s.KnOnly t p) (k : t.KnOnly u p) : s.KnOnly u p := by
  refine ⟨?_, fun a ha => (k.2 a ha).trans (h.2 a ha)⟩
  have hu := k.1
  rw [h.1] at hu
  simpa only [Vector.set_set] using hu

theorem setCore (h : s.KnOnly t p) (c : CoreSt) : s.KnOnly (t.setCore p c) p :=
  h.trans ⟨by rw [State.coreOf_setCore_self]; rfl, fun _ _ => rfl⟩

theorem setCsel (h : s.KnOnly t p) (f : Fld) (v : Nat) : s.KnOnly (t.setF (R.KC_CSEL p) f v) p :=
  h.trans ⟨by
    have := congrArg (fun u : State => { u with regs := (t.setF (R.KC_CSEL p) f v).regs }) (refl t p).1
    exact this, fun a ha => t.reg_setF_ne _ f v a (by simpa using ha)⟩

theorem setActive (h : s.KnOnly t p) (k : Nat) : s.KnOnly (t.setActive p k) p := (h.setCsel _ _).setCsel _ _

theorem setDbg (h : s.KnOnly t p) (d : DbgSt) : s.KnOnly (t.setDbg d) p :=
  h.trans ⟨congrArg (fun u : State => { u with dbg := d }) (refl t p).1, fun _ _ => rfl⟩

theorem ite {c : Prop} [Decidable c] (h : s.KnOnly t p) (k : s.KnOnly u p) : s.KnOnly (if c then t else u) p := by
  split <;> assumption

theorem cells (h : s.KnOnly t p) : t.cells = s.cells := by rw [h.1]

theorem cle (h : s.KnOnly t p) : t.cle = s.cle := by rw [h.1]

theorem part (h : s.KnOnly t p) : t.part = s.part := by rw [h.1]

theorem reg (h : s.KnOnly t p) {a : Nat} (ha : a ≠ R.KC_CSEL p) : t.reg a = s.reg a := h.2 a (by simpa using ha)

theorem isSet (h : s.KnOnly t p) {a : Nat} (ha : a ≠ R.KC_CSEL p) (f : Fld) : t.isSet a f = s.isSet a f := by
  rw [State.isSet, State.getF, h.reg ha, ← State.getF, ← State.isSet]

end State.KnOnly

/-! Issue and fetch. -/

/-- `t` differs from `s` in what pair p holds alone. -/
def State.PairOnly (s t : State) (p : Fin 13) : Prop := ∃ c, t = s.setCore p c

namespace State.PairOnly

variable {s t u : State} {p : Fin 13}

theorem refl (s : State) (p : Fin 13) : s.PairOnly s p := ⟨s.coreOf p, (s.setCore_coreOf p).symm⟩

theorem setCore (h : s.PairOnly t p) (c : CoreSt) : s.PairOnly (t.setCore p c) p := by
  obtain ⟨d, rfl⟩ := h
  exact ⟨c, s.setCore_setCore p d c⟩

theorem trans (h : s.PairOnly t p) (k : t.PairOnly u p) : s.PairOnly u p := by
  obtain ⟨c, rfl⟩ := k
  exact h.setCore c

theorem knOnly (h : s.PairOnly t p) : s.KnOnly t p := by
  obtain ⟨c, rfl⟩ := h
  exact (State.KnOnly.refl s p).setCore c

theorem isSet (h : s.PairOnly t p) (a : Nat) (f : Fld) : t.isSet a f = s.isSet a f := by
  obtain ⟨c, rfl⟩ := h
  exact s.setCore_isSet p c a f

end State.PairOnly

theorem State.longResult_pairOnly (s : State) (p : Fin 13) : s.PairOnly (s.longResult p) p := by
  unfold State.longResult
  dsimp only
  split
  · exact .refl s p
  · exact ⟨_, rfl⟩

theorem State.lockBroken_pairOnly (s : State) (p : Fin 13) : s.PairOnly (s.lockBroken p) p := by
  unfold State.lockBroken
  split
  · split
    · exact ⟨_, rfl⟩
    · exact .refl s p
  · exact .refl s p

theorem State.issue_pairOnly (s : State) (p : Fin 13) : s.PairOnly (s.issue p) p :=
  ((s.longResult_pairOnly p).trans (State.lockBroken_pairOnly _ p)).setCore _

/-- `t` differs from `s` in the loop buffer and the fetch queue of pair p alone. -/
def State.FetchOnly (s t : State) (p : Fin 13) : Prop :=
  ∃ b q, t = s.setCore p { s.coreOf p with lbuf := b, fq := q }

namespace State.FetchOnly

variable {s t u : State} {p : Fin 13}

theorem refl (s : State) (p : Fin 13) : s.FetchOnly s p :=
  ⟨(s.coreOf p).lbuf, (s.coreOf p).fq, (s.setCore_coreOf p).symm⟩

theorem trans (h : s.FetchOnly t p) (k : t.FetchOnly u p) : s.FetchOnly u p := by
  obtain ⟨b, q, rfl⟩ := h
  obtain ⟨b', q', rfl⟩ := k
  exact ⟨b', q', by rw [State.coreOf_setCore_self, State.setCore_setCore]⟩

theorem pairOnly (h : s.FetchOnly t p) : s.PairOnly t p := by
  obtain ⟨b, q, rfl⟩ := h
  exact ⟨_, rfl⟩

theorem kr (h : s.FetchOnly t p) : t.kr p = s.kr p := by
  obtain ⟨b, q, rfl⟩ := h
  rw [State.kr, State.coreOf_setCore_self, State.kr]

theorem after (h : s.FetchOnly t p) : (t.coreOf p).after = (s.coreOf p).after := by
  obtain ⟨b, q, rfl⟩ := h
  rw [State.coreOf_setCore_self]
  rfl

end State.FetchOnly

theorem State.queueGroup_fetchOnly (s : State) (p : Fin 13) (a : Nat) : s.FetchOnly (s.queueGroup p a) p := ⟨_, _, rfl⟩

theorem State.bufferWord_fetchOnly (s : State) (p : Fin 13) (a : Nat) (w : PWord) : s.FetchOnly (s.bufferWord p a w) p := by
  unfold State.bufferWord
  dsimp only
  split
  · exact ⟨_, _, rfl⟩
  · exact .refl s p

/-- A fetch that gives a word changes the loop buffer and the fetch queue of its pair alone (R236, R237). -/
theorem State.fetchWord_fetchOnly {s t : State} {p : Fin 13} {w : PWord} (h : s.fetchWord p = .ok t w) : s.FetchOnly t p := by
  simp only [State.fetchWord, check] at h
  split at h
  case h_2 => cases h
  split at h
  case h_1 =>
    cases h
    exact .refl s p
  split at h
  · cases h
  · cases h
    exact (s.queueGroup_fetchOnly p _).trans (State.bufferWord_fetchOnly _ p _ _)

theorem State.fetched_fetchOnly (s : State) (p : Fin 13) : (s.issue p).FetchOnly (s.fetched p) p := by
  unfold State.fetched
  split
  · next t w h => exact State.fetchWord_fetchOnly h
  · exact .refl _ p

theorem State.fetched_pairOnly (s : State) (p : Fin 13) : s.PairOnly (s.fetched p) p :=
  (s.issue_pairOnly p).trans (s.fetched_fetchOnly p).pairOnly

theorem State.fetched_knOnly (s : State) (p : Fin 13) : s.KnOnly (s.fetched p) p := (s.fetched_pairOnly p).knOnly

/-- An instruction finds the registers of its issue, and goes on from there. -/
theorem State.fetched_kr (s : State) (p : Fin 13) : (s.fetched p).kr p = s.rs p := (s.fetched_fetchOnly p).kr

theorem State.fetched_after (s : State) (p : Fin 13) : ((s.fetched p).coreOf p).after = ((s.issue p).coreOf p).after :=
  (s.fetched_fetchOnly p).after

/-! Retirement. -/

theorem State.checkpoint_knOnly (s : State) (p : Fin 13) : s.KnOnly (s.checkpoint p) p := by
  unfold State.checkpoint
  exact (State.KnOnly.refl s p).ite ((State.KnOnly.refl s p).setCore _)

theorem State.lockCount_knOnly (s : State) (p : Fin 13) (was : Bool) : s.KnOnly (s.lockCount p was) p := by
  unfold State.lockCount
  dsimp only
  split
  · exact ((State.KnOnly.refl s p).setCore _).ite (.refl s p)
  · exact .refl s p

theorem State.countRetired_knOnly (s : State) (p : Fin 13) : s.KnOnly (s.countRetired p) p := (State.KnOnly.refl s p).setCore _

theorem State.logFull_knOnly (s : State) (p : Fin 13) : s.KnOnly (s.logFull p) p := by
  unfold State.logFull
  exact (s.checkpoint_knOnly p).ite (.refl s p)

theorem State.flow_seq_knOnly (s : State) (p : Fin 13) : s.KnOnly (s.flow p .seq) p := by
  unfold State.flow
  dsimp only
  split
  · exact ((State.KnOnly.refl s p).setCore _).setActive _
  · exact (State.KnOnly.refl s p).setCore _

/-- An instruction that does not jump retires by its flow, the counts of R227 and R387, and the debugger's record. -/
theorem State.retire_seq (s : State) (p : Fin 13) (was : Bool) :
    ∃ d, s.retire p .seq was = ((((s.flow p .seq).lockCount p was).countRetired p).logFull p).setDbg d := by
  have hskip (u : State) : ∃ d, (if h : p.val < 12 then u.setDbg { u.dbg with skip := u.dbg.skip.set p.val false } else u)
      = u.setDbg d := by
    split
    · exact ⟨_, rfl⟩
    · exact ⟨u.dbg, rfl⟩
  exact hskip _

theorem State.retire_seq_knOnly (s : State) (p : Fin 13) (was : Bool) : s.KnOnly (s.retire p .seq was) p := by
  obtain ⟨d, hd⟩ := s.retire_seq p was
  rw [hd]
  have hlock := (s.flow_seq_knOnly p).trans (State.lockCount_knOnly _ p was)
  exact ((hlock.trans (State.countRetired_knOnly _ p)).trans (State.logFull_knOnly _ p)).setDbg d

/-- The registers, the pending long result and the attached call that pair p holds. -/
def State.holds (s : State) (p : Fin 13) : CoreRegs × Option LongRes × Bool :=
  (s.kr p, (s.coreOf p).long, (s.coreOf p).att)

theorem State.holds_setCore (s : State) (p : Fin 13) (c : CoreSt) : (s.setCore p c).holds p = (c.r, c.long, c.att) := by
  simp only [State.holds, State.kr, State.coreOf_setCore_self]

theorem State.holds_setDbg (s : State) (p : Fin 13) (d : DbgSt) : (s.setDbg d).holds p = s.holds p := rfl

theorem State.holds_checkpoint (s : State) (p : Fin 13) : (s.checkpoint p).holds p = s.holds p := by
  unfold State.checkpoint
  dsimp only
  split
  · rfl
  · exact s.holds_setCore p _

theorem State.holds_logFull (s : State) (p : Fin 13) : (s.logFull p).holds p = s.holds p := by
  unfold State.logFull
  split
  · exact s.holds_checkpoint p
  · rfl

theorem State.holds_lockCount (s : State) (p : Fin 13) (was : Bool) : (s.lockCount p was).holds p = s.holds p := by
  unfold State.lockCount
  dsimp only
  split
  · split
    · exact s.holds_setCore p _
    · rfl
  · rfl

theorem State.holds_countRetired (s : State) (p : Fin 13) : (s.countRetired p).holds p = s.holds p := s.holds_setCore p _

theorem State.holds_flow_seq (s : State) (p : Fin 13) : (s.flow p .seq).holds p =
    ({ s.kr p with pc := BitVec.ofNat 17 (s.coreOf p).after.1, lcount := (s.coreOf p).after.2 }, (s.coreOf p).long,
      (s.coreOf p).att) := by
  unfold State.flow
  dsimp only
  split
  · exact s.holds_setCore p _
  · exact s.holds_setCore p _

/-- What a pair holds when an instruction that does not jump has retired: PC and LOOP_COUNT have gone on (R217, R222). -/
theorem State.retire_seq_holds (s : State) (p : Fin 13) (was : Bool) : (s.retire p .seq was).holds p =
    ({ s.kr p with pc := BitVec.ofNat 17 (s.coreOf p).after.1, lcount := (s.coreOf p).after.2 }, (s.coreOf p).long,
      (s.coreOf p).att) := by
  obtain ⟨d, hd⟩ := s.retire_seq p was
  calc (s.retire p .seq was).holds p
      = ((((s.flow p .seq).lockCount p was).countRetired p).logFull p).holds p := by rw [hd, State.holds_setDbg]
    _ = (s.flow p .seq).holds p := by rw [State.holds_logFull, State.holds_countRetired, State.holds_lockCount]
    _ = _ := s.holds_flow_seq p

/-! Execution. -/

/-- The instruction that pair p issues next, where it goes through, retires. -/
theorem State.instr_of_ok {s u : State} {p : Fin 13} {i : Kn} {f : Flow} (h : s.issues p i = true)
    (hx : (s.fetched p).knExec p i = .ok u f) :
    s.instr p i.op = u.retire p f ((s.issue p).coreOf p).lock.isSome := by
  have hplaced : ((s.fetched p).coreOf p).misplaced i = false ∧ (((s.fetched p).coreOf p).att && waitsForA i) = false := by
    unfold State.issues at h
    unfold State.fetched
    cases hw : (s.issue p).fetchWord p with
    | ok t w =>
      simp only [hw, Bool.and_eq_true, Bool.not_eq_true'] at h
      obtain ⟨-, ⟨-, hmisplaced⟩, hwaits⟩ := h
      exact ⟨hmisplaced, hwaits⟩
    | fault t c a => simp only [hw, Bool.and_false, Bool.false_eq_true] at h
    | stall t => simp only [hw, Bool.and_false, Bool.false_eq_true] at h
  obtain ⟨hm, hw⟩ := hplaced
  rw [s.instr_of_issues p i h, State.run_placed _ p i hm hw, hx]
  rfl

/-- An instruction that leaves the registers as they were and does not jump: the next one follows, and what the instruction has set
pending stands. -/
theorem State.instr_seq {s u : State} {p : Fin 13} {i : Kn} (h : s.issues p i = true)
    (hx : (s.fetched p).knExec p i = .ok u .seq) (hr : u.kr p = s.rs p)
    (hafter : (u.coreOf p).after = ((s.issue p).coreOf p).after) :
    (s.instr p i.op).kr p = s.onward p ∧ ((s.instr p i.op).coreOf p).long = (u.coreOf p).long ∧
      ((s.instr p i.op).coreOf p).att = (u.coreOf p).att ∧ u.KnOnly (s.instr p i.op) p := by
  rw [State.instr_of_ok h hx]
  have hholds := u.retire_seq_holds p ((s.issue p).coreOf p).lock.isSome
  rw [hr, hafter] at hholds
  obtain ⟨hkr, hpending⟩ := Prod.mk.inj hholds
  obtain ⟨hlong, hatt⟩ := Prod.mk.inj hpending
  exact ⟨hkr, hlong, hatt, u.retire_seq_knOnly p _⟩

end Machine
end Sys2Proof
end

section
/-! PROOFS. The long operations of a core pair: DIV, SQRT, SINCOS and ATAN2 by the tags of their operands (R223). -/

namespace Sys2Proof
namespace Machine

/-! The square root. -/

/-- With n bits of the root R to come, the bits found so far are those of R above them. -/
theorem sqrtBits_eq {v root : Nat} (hlo : root * root ≤ v) (hhi : v < (root + 1) * (root + 1)) (n r : Nat) (hr : r ≤ root)
    (hn : root < r + 2 ^ n) : sqrtBits v n r = root := by
  induction n generalizing r with
  | zero =>
    rw [Nat.pow_zero] at hn
    exact Nat.le_antisymm hr (Nat.le_of_lt_succ hn)
  | succ n ih =>
    rw [Nat.pow_succ] at hn
    unfold sqrtBits
    dsimp only
    split
    · next hc =>
      have hroot : r + 2 ^ n ≤ root :=
        Nat.le_of_not_lt (fun h => Nat.not_le_of_lt hhi (Nat.le_trans (Nat.mul_le_mul h h) hc))
      exact ih _ hroot (by omega)
    · next hc =>
      have hroot : root < r + 2 ^ n := Nat.lt_of_not_le (fun h => hc (Nat.le_trans (Nat.mul_le_mul h h) hlo))
      exact ih _ hr hroot

theorem isqrt_eq {v r : Nat} (hv : v < 2 ^ 80) (hlo : r * r ≤ v) (hhi : v < (r + 1) * (r + 1)) : isqrt v = r := by
  have hr : r < 0 + 2 ^ 40 := by
    refine Nat.lt_of_not_le (fun h => ?_)
    have hsquare := Nat.mul_le_mul h h
    omega
  exact sqrtBits_eq hlo hhi 40 0 (Nat.zero_le r) hr

theorem squareRoot_int {a : BitVec 40} {r : Nat} (hr : isqrt a.toNat = r) : squareRoot a tagInt =
    some ⟨if a.toInt < 0 then some (0, tagEmpty) else some (BitVec.ofNat 40 r, tagInt), none, none⟩ := by
  unfold squareRoot
  rw [if_pos (by decide)]
  dsimp only
  rw [hr]
  simp only [longA, BitVec.ofInt_natCast, decide_eq_true_eq]

theorem squareRoot_uint {a : BitVec 40} {r : Nat} (hr : isqrt a.toNat = r) : squareRoot a tagUint =
    some ⟨some (BitVec.ofNat 40 r, tagUint), none, none⟩ := by
  unfold squareRoot
  rw [if_neg (by decide), if_pos (by decide)]
  dsimp only
  rw [hr]
  simp only [longA, BitVec.ofInt_natCast, Bool.false_eq_true, if_false]

theorem squareRoot_q31 {a : BitVec 40} {r : Nat} (hr : isqrt (a.toNat * 2 ^ 31) = r) : squareRoot a tagQ31 =
    some ⟨if a.toInt < 0 then some (0, tagEmpty) else some (BitVec.ofNat 40 r, tagQ31), none, none⟩ := by
  unfold squareRoot
  rw [if_neg (by decide), if_neg (by decide), if_pos (by decide)]
  dsimp only
  rw [hr]
  simp only [longA, BitVec.ofInt_natCast, decide_eq_true_eq]

/-! Division. -/

/-- How the tests of a tag come out for the tags of numbers. -/
theorem number_tags : (noValue tagInt = false ∧ noValue tagUint = false ∧ noValue tagQ31 = false) ∧
    ((tagInt == tagRaw) = false ∧ (tagUint == tagRaw) = false ∧ (tagQ31 == tagRaw) = false) ∧
    ((tagInt == tagUint) = false ∧ (tagQ31 == tagUint) = false ∧ (tagQ31 == tagInt) = false) := by
  decide

theorem satS_32 (x : Int) : satS 32 x = max (-(2 ^ 31)) (min (2 ^ 31 - 1) x) := by
  simp only [satS]
  split
  · omega
  · split <;> omega

/-- The unsigned quotient and remainder, of UINT operands or where either is RAW. -/
theorem State.divide_unsigned (s : State) (a : BitVec 40) {ta t : BitVec 4} {x : Cell}
    (ht : (ta = tagUint ∧ x.tag = tagUint ∧ t = tagUint) ∨
      (noValue ta = false ∧ noValue x.tag = false ∧ (ta = tagRaw ∨ x.tag = tagRaw) ∧ t = tagRaw)) :
    s.divide a ta x = some (s, if x.v = 0 then ⟨some (0, tagEmpty), none, some emptyCell⟩
      else ⟨some (BitVec.ofNat 40 (a.toNat / x.v.toNat), t), none, some ⟨BitVec.ofNat 32 (a.toNat % x.v.toNat), t⟩⟩) := by
  have hpair (l m : LongRes) : (if x.v = 0 then (s, l) else (s, m)) = (s, if x.v = 0 then l else m) := by
    split <;> rfl
  obtain ⟨rfl, hx, rfl⟩ | ⟨hva, hvx, hraw, rfl⟩ := ht
  · simp only [State.divide, longA, hx, BitVec.ofInt_natCast, number_tags, bne_self_eq_false, beq_self_eq_true,
      Bool.or_self, Bool.false_eq_true, if_false, if_true, hpair]
  · have hraw' : (ta == tagRaw || x.tag == tagRaw) = true := by simpa using hraw
    simp only [State.divide, longA, hva, hvx, hraw', BitVec.ofInt_natCast, Bool.or_self, Bool.false_eq_true, if_false, if_true,
      hpair]

theorem State.divide_int_zero (s : State) (a : BitVec 40) {x : Cell} (hx : x.tag = tagInt) (hz : x.v = 0) :
    s.divide a tagInt x = some (s, ⟨some (0, tagEmpty), none, some emptyCell⟩) := by
  simp only [State.divide, hx, hz, number_tags, bne_self_eq_false, beq_self_eq_true, Bool.or_self, Bool.false_eq_true,
    if_false, if_true]

/-- Only -2^39 by -1 leaves the 40 bits of A. -/
theorem fits40_tdiv (a : BitVec 40) {d : Int} (hd : d ≠ -1 ∨ -(2 ^ 39) < a.toInt) : fits40 (a.toInt.tdiv d) = true := by
  have hlo := BitVec.le_toInt a
  have hhi := BitVec.toInt_lt (x := a)
  have habs : (a.toInt.tdiv d).natAbs = a.toInt.natAbs / d.natAbs := Int.natAbs_tdiv ..
  simp only [fits40, Bool.and_eq_true, decide_eq_true_eq]
  by_cases h1 : d.natAbs = 1
  · obtain rfl | rfl : d = 1 ∨ d = -1 := by omega
    · rw [Int.tdiv_one]
      omega
    · rw [Int.tdiv_neg, Int.tdiv_one]
      omega
  · have hhalf : a.toInt.natAbs / d.natAbs ≤ a.toInt.natAbs / 2 := by
      obtain h0 | h2 : d.natAbs = 0 ∨ 2 ≤ d.natAbs := by omega
      · rw [h0, Nat.div_zero]
        exact Nat.zero_le _
      · exact Nat.div_le_div_left h2 (by decide)
    omega

theorem State.divide_int (s : State) (a : BitVec 40) {x : Cell} (hx : x.tag = tagInt) (hz : x.v.toInt ≠ 0)
    (hd : x.v.toInt ≠ -1 ∨ -(2 ^ 39) < a.toInt) : s.divide a tagInt x =
      some (s, ⟨some (BitVec.ofInt 40 (a.toInt.tdiv x.v.toInt), tagInt), none,
        some ⟨BitVec.ofInt 32 (a.toInt.tmod x.v.toInt), tagInt⟩⟩) := by
  have hv : ¬ x.v = 0 := fun h => hz (by rw [h]; rfl)
  simp only [State.divide, longA, hx, hv, fits40_tdiv a hd, number_tags, bne_self_eq_false, beq_self_eq_true, Bool.or_self,
    Bool.false_eq_true, if_false, if_true]

theorem State.divide_q31_zero (s : State) (a : BitVec 40) {x : Cell} (hx : x.tag = tagQ31) (hz : x.v = 0) :
    s.divide a tagQ31 x = some (s, ⟨some (0, tagEmpty), none, none⟩) := by
  simp only [State.divide, hx, hz, number_tags, bne_self_eq_false, beq_self_eq_true, Bool.or_self,
    Bool.false_eq_true, if_false, if_true]

/-- The quotient of a Q31 division is its floor `q`, and where it is not exact the floor or the next above it, saturated. -/
theorem State.divide_q31 (s : State) (a : BitVec 40) {x : Cell} {q : Int} (hx : x.tag = tagQ31) (hz : x.v.toInt ≠ 0)
    (hq : (if 0 < x.v.toInt then a.toInt * 2 ^ 31 / x.v.toInt else (-(a.toInt * 2 ^ 31)) / (-x.v.toInt)) = q) :
    s.divide a tagQ31 x =
      if a.toInt * 2 ^ 31 % x.v.toInt = 0 then some (s, ⟨some (BitVec.ofInt 40 (satS 32 q), tagQ31), none, none⟩)
      else some (s.fresh, ⟨some (BitVec.ofInt 40 (satS 32 (q + if Config.freeBit s.free then 1 else 0)), tagQ31), none, none⟩) := by
  have hv : ¬ x.v = 0 := fun h => hz (by rw [h]; rfl)
  simp only [State.divide, longA, hx, hv, hq, number_tags, bne_self_eq_false, beq_self_eq_true, Bool.or_self,
    Bool.false_eq_true, if_false, if_true]

/-- The floor of a quotient, by a divisor of either sign. -/
theorem q31_floor_exact {n d q : Int} (hd : d ≠ 0) (hq : q * d = n) :
    (if 0 < d then n / d else (-n) / (-d)) = q ∧ n % d = 0 := by
  subst hq
  refine ⟨?_, Int.mul_emod_left q d⟩
  split
  · exact Int.mul_ediv_cancel q hd
  · rw [← Int.mul_neg]
    exact Int.mul_ediv_cancel q (Int.neg_ne_zero.mpr hd)

theorem q31_floor_inexact {n d q : Int} (h : (0 < d ∧ q * d < n ∧ n < (q + 1) * d) ∨ (d < 0 ∧ (q + 1) * d < n ∧ n < q * d)) :
    (if 0 < d then n / d else (-n) / (-d)) = q ∧ n % d ≠ 0 := by
  have hfloor {m e : Int} (he : 0 < e) (hlo : q * e < m) (hhi : m < (q + 1) * e) : m / e = q ∧ m % e ≠ 0 := by
    rw [Int.add_mul, Int.one_mul] at hhi
    have hq : m / e = q := (Int.ediv_eq_iff_of_pos he).mpr ⟨Int.le_of_lt hlo, hhi⟩
    refine ⟨hq, fun h0 => ?_⟩
    have := Int.emod_add_mul_ediv m e
    rw [h0, hq, Int.mul_comm] at this
    omega
  obtain ⟨hd, hlo, hhi⟩ | ⟨hd, hlo, hhi⟩ := h
  · rw [if_pos hd]
    exact hfloor hd hlo hhi
  · rw [if_neg (by omega)]
    obtain ⟨hq, hm⟩ := hfloor (m := -n) (e := -d) (by omega) (by rw [Int.mul_neg]; omega) (by rw [Int.mul_neg]; omega)
    refine ⟨hq, fun h0 => hm ?_⟩
    exact Int.emod_eq_zero_of_dvd (Int.neg_dvd.mpr (Int.dvd_neg.mpr (Int.dvd_of_emod_eq_zero h0)))

end Machine
end Sys2Proof
end

section
/-! PROOFS. LONG operations and attached calls of a core pair: how each begins, and what its result writes (R144, R145, R223, R224,
R225). -/

namespace Sys2Proof
namespace Machine

/-! Results that rest on free values (logs 13 and 14). -/

/-- `s` with the model's index of free values at `k`. -/
def State.withFree (s : State) (k : Nat) : State := { s with free := k }

theorem State.withFree_core (s : State) (k : Nat) : (s.withFree k).core = s.core := rfl

theorem State.withFree_cells (s : State) (k : Nat) : (s.withFree k).cells = s.cells := rfl

theorem State.fresh_withFree (s : State) : s.fresh = s.withFree (s.free + 1) := rfl

/-- Sine and cosine are a FRAC2. -/
theorem State.sincos_q31 (s : State) (a : BitVec 40) :
    ∃ k w, s.sincos a tagQ31 = some (s.withFree k, ⟨none, some ⟨w, tagFrac2⟩, none⟩) := by
  unfold State.sincos
  dsimp only
  rw [if_pos (by decide)]
  exact ⟨_, _, rfl⟩

theorem State.arctan_origin (s : State) : s.arctan ⟨0, tagFrac2⟩ = some (s, ⟨some (0, tagQ31), none, none⟩) := by
  rw [State.arctan, if_neg (by decide), if_pos (by decide)]
  rfl

/-- The arctangent of a FRAC2 is a Q31; a rounded one takes a free value. -/
theorem State.arctan_frac2 (s : State) {c : Cell} (hc : c.tag = tagFrac2) :
    ∃ k v, s.arctan c = some (s.withFree k, ⟨some (v, tagQ31), none, none⟩) := by
  unfold State.arctan
  rw [if_neg (by simp [hc])]
  dsimp only
  split
  · exact ⟨s.free, _, rfl⟩
  split
  · exact ⟨s.free, _, rfl⟩
  split
  · exact ⟨s.free, _, rfl⟩
  split
  · exact ⟨s.free, _, rfl⟩
  · exact ⟨_, _, rfl⟩

/-! How a long operation begins. -/

/-- `s` with the result `l` of a long operation of pair p pending. -/
def State.pend (s : State) (p : Pair) (l : LongRes) : State := s.setCore p { s.coreOf p with long := some l }

theorem State.pend_kr (s : State) (p : Pair) (l : LongRes) : (s.pend p l).kr p = s.kr p := by
  rw [State.kr, State.pend, State.coreOf_setCore_self, State.kr]

theorem State.pend_long (s : State) (p : Pair) (l : LongRes) : ((s.pend p l).coreOf p).long = some l := by
  rw [State.pend, State.coreOf_setCore_self]

theorem State.pend_after (s : State) (p : Pair) (l : LongRes) : ((s.pend p l).coreOf p).after = (s.coreOf p).after := by
  rw [State.pend, State.coreOf_setCore_self]
  rfl

theorem State.pend_knOnly (s : State) (p : Pair) (l : LongRes) : s.KnOnly (s.pend p l) p := (State.KnOnly.refl s p).setCore _

section

variable {s u : State} {p : Pair} {i : Kn} {l : LongRes}

theorem State.doLong_div (h : s.divide (s.kr p).a (s.kr p).atag (s.kr p).x = some (u, l)) :
    s.doLong p .div = .ok (u.pend p l) .seq := by
  simp only [State.doLong, State.pend, h]

theorem State.doLong_sqrt (h : squareRoot (s.kr p).a (s.kr p).atag = some l) :
    s.doLong p .sqrt = .ok (s.pend p l) .seq := by
  simp only [State.doLong, State.pend, h, Option.map_some]

theorem State.doLong_sincos (h : s.sincos (s.kr p).a (s.kr p).atag = some (u, l)) :
    s.doLong p .sincos = .ok (u.pend p l) .seq := by
  simp only [State.doLong, State.pend, h]

theorem State.doLong_atan2 (h : s.arctan (s.kr p).x = some (u, l)) :
    s.doLong p .atan2 = .ok (u.pend p l) .seq := by
  simp only [State.doLong, State.pend, h]

theorem State.knExec_long (s : State) (p : Pair) (h : i.op ∈ [KOp.div, .sqrt, .sincos, .atan2]) :
    s.knExec p i = s.doLong p i.op := by
  simp only [List.mem_cons, List.not_mem_nil, or_false] at h
  obtain h | h | h | h := h <;> simp only [State.knExec, h]

/-- A long operation that takes free values alone retires with its result pending, and the next instruction follows. -/
theorem State.instr_long (h : s.issues p i = true) (hop : i.op ∈ [KOp.div, .sqrt, .sincos, .atan2])
    (hx : (s.fetched p).doLong p i.op = .ok (u.pend p l) .seq) (hu : u.core = (s.fetched p).core) :
    (s.instr p i.op).kr p = s.onward p ∧ ((s.instr p i.op).coreOf p).long = some l ∧ u.KnOnly (s.instr p i.op) p := by
  have hcore : u.coreOf p = (s.fetched p).coreOf p := congrArg (fun c => c.get p) hu
  have hr : (u.pend p l).kr p = s.rs p := by rw [u.pend_kr, State.kr, hcore, ← State.kr, s.fetched_kr]
  have hafter : ((u.pend p l).coreOf p).after = ((s.issue p).coreOf p).after := by rw [u.pend_after, hcore, s.fetched_after]
  obtain ⟨hkr, hlong, -, honly⟩ := State.instr_seq h ((State.knExec_long _ p hop).trans hx) hr hafter
  exact ⟨hkr, hlong.trans (u.pend_long p l), (u.pend_knOnly p l).trans honly⟩

end

/-- A long operation whose result is settled changes nothing but its pair. -/
theorem gives_long {s : State} {p : Pair} {i : Kn} {l : LongRes} {c : Instr} {op : KOp} (h : s.issues p i = true)
    (hop : i.op = op) (hlong : op ∈ [KOp.div, .sqrt, .sincos, .atan2]) (hc : exec c s = .next (s.instr p op))
    (hx : (s.fetched p).doLong p op = .ok ((s.fetched p).pend p l) .seq) :
    Gives c s (fun t => t.kr p = s.onward p ∧ (t.coreOf p).long = some l ∧ s.KnOnly t p) := by
  subst hop
  obtain ⟨hkr, hl, honly⟩ := State.instr_long h hlong hx rfl
  exact ⟨_, hc, hkr, hl, (s.fetched_knOnly p).trans honly⟩

/-- One whose result rests on free values leaves the cells. -/
theorem gives_long_free {s u : State} {p : Pair} {i : Kn} {l : LongRes} {c : Instr} {op : KOp} (h : s.issues p i = true)
    (hop : i.op = op) (hlong : op ∈ [KOp.div, .sqrt, .sincos, .atan2]) (hc : exec c s = .next (s.instr p op))
    (hx : (s.fetched p).doLong p op = .ok (u.pend p l) .seq) (hu : ∃ k, u = (s.fetched p).withFree k) :
    Gives c s (fun t => t.kr p = s.onward p ∧ (t.coreOf p).long = some l ∧ t.cells = s.cells) := by
  subst hop
  obtain ⟨k, rfl⟩ := hu
  obtain ⟨hkr, hl, honly⟩ := State.instr_long h hlong hx (State.withFree_core _ k)
  have hcells := (State.withFree_cells _ k).trans (s.fetched_knOnly p).cells
  exact ⟨_, hc, hkr, hl, honly.cells.trans hcells⟩

/-! Attached calls. -/

theorem MCS_XSTAT_ne_KC_CSEL (m : Slice) (p : Pair) : R.MCS_XSTAT m ≠ R.KC_CSEL p := by
  unfold R.MCS_XSTAT R.KC_CSEL kcBase sysKcBase sliceBase
  split <;> omega

/-- The call of entry k as it is queued, with the payloads of the registers (R145). -/
def queuedCall (r : CoreRegs) (k : Nat) : CallSt :=
  ⟨k, attWord (r.a.setWidth 32) r.atag, attWord r.x.v r.x.tag, attWord r.y.v r.y.tag, false, none⟩

theorem State.showCall_core (s : State) (n : Slice) : (s.showCall n).core = s.core := rfl

/-- A call that waits shows in MCS_XSTAT.PEND. -/
theorem State.showCall_pend {s : State} {n : Slice} {k : CallSt} (hcall : (s.cleOf n).call = some k) (hi : k.issuing = false)
    (hr : k.result = none) : (s.showCall n).isSet (R.MCS_XSTAT n) F.MCS_XSTAT_PEND = true := by
  unfold State.showCall
  simp only [hcall, hi, hr, Option.isNone_none, Bool.not_false, Bool.and_self]
  rw [State.setB, State.isSet_setF_ne _ _ _ _ _ _ (by decide) (.inr (by decide)),
    State.isSet_setB _ _ _ _ (by decide) (by decide)]

/-- `s` with a call of entry k by pair p queued in the CLE of slice m, shown in MCS_XSTAT and noted in the replay log. -/
def State.withCall (s : State) (p : Pair) (m : Slice) (k : Nat) : State :=
  (((s.setCle m { s.cleOf m with call := some (queuedCall (s.kr p) k) }).setCore p
    { s.coreOf p with att := true }).showCall m).logged p (.call k)

theorem State.withCall_coreOf (s : State) (p : Pair) (m : Slice) (k : Nat) :
    (s.withCall p m k).coreOf p = { s.coreOf p with att := true, log := .call k :: (s.coreOf p).log } := by
  rw [State.withCall, State.logged, State.coreOf_setCore_self]
  rw [State.coreOf, State.showCall_core, ← State.coreOf, State.coreOf_setCore_self]

theorem State.withCall_call (s : State) (p : Pair) (m : Slice) (k : Nat) :
    ((s.withCall p m k).cleOf m).call = some (queuedCall (s.kr p) k) := by
  have hcle : (s.withCall p m k).cleOf m = (s.setCle m { s.cleOf m with call := some (queuedCall (s.kr p) k) }).cleOf m := rfl
  rw [hcle, State.cleOf_setCle_self]

theorem State.withCall_pend (s : State) (p : Pair) (m : Slice) (k : Nat) :
    (s.withCall p m k).isSet (R.MCS_XSTAT m) F.MCS_XSTAT_PEND = true := by
  rw [State.withCall, State.logged, State.setCore_isSet]
  exact State.showCall_pend (s.withCall_call p m k) rfl rfl

theorem State.withCall_cells (s : State) (p : Pair) (m : Slice) (k : Nat) : (s.withCall p m k).cells = s.cells := rfl

theorem State.doAtt_queues {s : State} {p : Pair} {m : Slice} {k : Nat} (hp : p.val = m.val)
    (hentry : k < 128 ∨ (s.part.full = true ∧ s.isSet (R.MCS_XT m (k - 128)) F.MCS_XT_VALID = true))
    (htags : attTags (s.kr p) k = true) :
    s.doAtt p k = .ok (s.withCall p m k) .seq := by
  obtain rfl : p = m.castSucc := Fin.ext hp
  have hpresent : (decide (128 ≤ k) && (!s.part.full || !s.isSet (R.MCS_XT m (k - 128)) F.MCS_XT_VALID)) = false := by
    obtain hk | ⟨hfull, hvalid⟩ := hentry
    · simp only [decide_eq_false (Nat.not_le_of_lt hk), Bool.false_and]
    · simp only [hfull, hvalid, Bool.not_true, Bool.or_self, Bool.and_false]
  unfold State.doAtt
  rw [dif_pos (show m.castSucc.val < 12 from m.isLt)]
  simp only [Fin.val_castSucc, Fin.eta, hpresent, htags, need, Bool.not_false, if_true]
  rfl

theorem CoreSt.after_called (c : CoreSt) (b : Bool) (log : List LogItem) :
    ({ c with att := b, log := log } : CoreSt).after = c.after := rfl

/-- An attached call retires with the call queued, and the next instruction follows. -/
theorem State.instr_att {s : State} {p : Pair} {m : Slice} {i : Kn} (h : s.issues p i = true) (hop : i.op = .att)
    (hx : (s.fetched p).doAtt p i.n = .ok ((s.fetched p).withCall p m i.n) .seq) :
    (s.instr p .att).kr p = s.onward p ∧ ((s.instr p .att).coreOf p).att = true ∧
      ((s.fetched p).withCall p m i.n).KnOnly (s.instr p .att) p := by
  have hexec : (s.fetched p).knExec p i = .ok ((s.fetched p).withCall p m i.n) .seq := by simp only [State.knExec, hop, hx]
  have hpair := (s.fetched p).withCall_coreOf p m i.n
  have hr : ((s.fetched p).withCall p m i.n).kr p = s.rs p := by rw [State.kr, hpair, ← s.fetched_kr, State.kr]
  have hafter : (((s.fetched p).withCall p m i.n).coreOf p).after = ((s.issue p).coreOf p).after := by
    rw [hpair, ← s.fetched_after, CoreSt.after_called]
  obtain ⟨hkr, -, hatt, honly⟩ := State.instr_seq h hexec hr hafter
  rw [hop] at hkr hatt honly
  exact ⟨hkr, hatt.trans (by rw [hpair]), honly⟩

end Machine
end Sys2Proof
end

section
/-! PROOFS. Long operations and attached calls of the core pairs: the statement. -/

namespace Sys2Proof
namespace Machine

/-! DIV, SQRT, SINCOS and ATAN2 as commands. -/

section

variable {s : State} {p : Pair} {i : Kn} {l : LongRes}

theorem gives_div (h : s.issues p i = true) (hop : i.op = .div)
    (hd : (s.fetched p).divide (s.rs p).a (s.rs p).atag (s.rs p).x = some (s.fetched p, l)) :
    Gives (.div p) s (fun t => t.kr p = s.onward p ∧ (t.coreOf p).long = some l ∧ s.KnOnly t p) :=
  gives_long h hop (by decide) rfl (State.doLong_div (by rw [s.fetched_kr, hd]))

theorem gives_sqrt (h : s.issues p i = true) (hop : i.op = .sqrt) (hd : squareRoot (s.rs p).a (s.rs p).atag = some l) :
    Gives (.sqrt p) s (fun t => t.kr p = s.onward p ∧ (t.coreOf p).long = some l ∧ s.KnOnly t p) :=
  gives_long h hop (by decide) rfl (State.doLong_sqrt (by rw [s.fetched_kr, hd]))

end

/-- Settles O29. A long operation retires with the result of `divide`, `squareRoot`, `sincos` or `arctan` pending; an attached call
retires queued. -/
theorem longOperationsAndCalls : Obligations.LongOperationsAndCalls := by
  unfold Obligations.LongOperationsAndCalls
  refine ⟨?divInt, ?divUint, ?divZero, ?sqrtInt, ?divRaw, ?divQ31Zero, ?divQ31Exact, ?divQ31Inexact, ?sqrtQ31, ?sqrtNegative,
    ?sincos, ?atan2Origin, ?atan2, ?result, ?attached⟩
  case divInt =>
    intro s p i d h hop ha hx hd hz hfit
    subst hd
    refine gives_div h hop ?_
    rw [ha, State.divide_int _ _ hx hz hfit]
  case divUint =>
    intro s p i h hop ha hx hz
    refine gives_div h hop ?_
    rw [State.divide_unsigned _ _ (.inl ⟨ha, hx, rfl⟩), if_neg hz]
  case divZero =>
    intro s p i h hop ha hx hz
    refine gives_div h hop ?_
    obtain ha | ha := ha
    · rw [ha, State.divide_int_zero _ _ (hx.trans ha) hz]
    · rw [State.divide_unsigned _ _ (.inl ⟨ha, hx.trans ha, rfl⟩), if_pos hz]
  case sqrtInt =>
    intro s p i r h hop ha hpos hlo hhi
    have hroot := isqrt_eq (Nat.lt_trans (s.rs p).a.isLt (by decide)) hlo hhi
    refine gives_sqrt h hop ?_
    obtain ha | ha := ha
    · rw [ha, squareRoot_int hroot, if_neg (Int.not_lt.mpr (hpos ha))]
    · rw [ha, squareRoot_uint hroot]
  case divRaw =>
    intro s p i h hop ha hx hraw hz
    refine gives_div h hop ?_
    rw [State.divide_unsigned _ _ (.inr ⟨ha, hx, hraw, rfl⟩), if_neg hz]
  case divQ31Zero =>
    intro s p i h hop ha hx hz
    refine gives_div h hop ?_
    rw [ha, State.divide_q31_zero _ _ hx hz]
  case divQ31Exact =>
    intro s p i d q h hop ha hx hd hz hq
    subst hd
    obtain ⟨hfloor, hexact⟩ := q31_floor_exact hz hq
    refine gives_div h hop ?_
    rw [ha, State.divide_q31 _ _ hx hz hfloor, if_pos hexact, satS_32]
  case divQ31Inexact =>
    intro s p i d q h hop ha hx hd hz hq
    subst hd
    obtain ⟨hfloor, hinexact⟩ := q31_floor_inexact hq
    have hdiv := (s.fetched p).divide_q31 (s.rs p).a hx hz hfloor
    rw [if_neg hinexact, ← ha, ← s.fetched_kr] at hdiv
    obtain ⟨t, ht, hkr, hlong, hcells⟩ :=
      gives_long_free (c := .div p) h hop (by decide) rfl (State.doLong_div hdiv) ⟨_, State.fresh_withFree _⟩
    refine ⟨t, ht, hkr, ?_, hcells⟩
    cases hfree : Config.freeBit (s.fetched p).free with
    | false => exact .inl (hlong.trans (by rw [hfree, satS_32, if_neg Bool.false_ne_true, Int.add_zero, s.fetched_kr, ha]))
    | true => exact .inr (hlong.trans (by rw [hfree, satS_32, if_pos rfl, s.fetched_kr, ha]))
  case sqrtQ31 =>
    intro s p i r h hop ha hpos hlo hhi
    have hroot := isqrt_eq (Nat.lt_trans (Nat.mul_lt_mul_of_pos_right (s.rs p).a.isLt (by decide)) (by decide)) hlo hhi
    refine gives_sqrt h hop ?_
    rw [ha, squareRoot_q31 hroot, if_neg (Int.not_lt.mpr hpos)]
  case sqrtNegative =>
    intro s p i h hop ha hneg
    refine gives_sqrt h hop ?_
    obtain ha | ha := ha
    · rw [ha, squareRoot_int rfl, if_pos hneg]
    · rw [ha, squareRoot_q31 rfl, if_pos hneg]
  case sincos =>
    intro s p i h hop ha
    obtain ⟨k, w, hres⟩ := (s.fetched p).sincos_q31 (s.rs p).a
    rw [← ha, ← s.fetched_kr] at hres
    obtain ⟨t, ht, hkr, hlong, hcells⟩ :=
      gives_long_free (c := .sincos p) h hop (by decide) rfl (State.doLong_sincos hres) ⟨k, rfl⟩
    exact ⟨t, ht, by rw [hkr], by rw [hlong]; rfl, hcells⟩
  case atan2Origin =>
    intro s p i h hop hx
    refine gives_long h hop (by decide) rfl (State.doLong_atan2 ?_)
    rw [s.fetched_kr, hx, State.arctan_origin]
  case atan2 =>
    intro s p i h hop hx
    obtain ⟨k, v, hres⟩ := (s.fetched p).arctan_frac2 hx
    rw [← s.fetched_kr] at hres
    obtain ⟨t, ht, hkr, hlong, hcells⟩ :=
      gives_long_free (c := .atan2 p) h hop (by decide) rfl (State.doLong_atan2 hres) ⟨k, rfl⟩
    exact ⟨t, ht, hkr, by rw [hlong]; rfl, hcells⟩
  case result =>
    intro s p l a g hl ha
    refine ⟨_, rfl, ?_⟩
    simp only [State.longResult, hl, ha, Option.getD_some, State.kr]
  case attached =>
    intro s p i m h hop hp hentry htags
    have hfetched := s.fetched_knOnly p
    have hpart : (s.fetched p).part = s.part := hfetched.part
    rw [← hpart, ← (s.fetched_pairOnly p).isSet] at hentry
    rw [← s.fetched_kr] at htags
    obtain ⟨hkr, hatt, honly⟩ := State.instr_att h hop (State.doAtt_queues hp hentry htags)
    refine ⟨_, rfl, ?_, hatt, ?_, hkr, ?_⟩
    · rw [State.cleOf, honly.cle, ← State.cleOf, State.withCall_call, s.fetched_kr]
      rfl
    · rw [honly.isSet (MCS_XSTAT_ne_KC_CSEL m p), State.withCall_pend]
    · rw [honly.cells, State.withCall_cells, hfetched.cells]

end Machine
end Sys2Proof
end

section
/-! PROOFS. Attached calls: the issue of a vendor entry whose word in the store fails its parity (R137, R144, R146). -/

namespace Sys2Proof
namespace Machine

/-- A parity failure at the fetch is a CLE machine check of the slice (R137), which stands where a FENCE that has been accepted takes
the place of the recovery. -/
theorem State.machineCheck_mcheck {s : State} {n : Fin 12} (w : Nat) (hf : (s.ctlOf n).fencing = true) :
    ((s.machineCheck n w).ctlOf n).mcheck = true := by
  have hf' (c : CtlSt) (u : State) (h : c.fencing = true) (hm : c.mcheck = true) :
      (((u.setCtl n c).recoverable n 3).ctlOf n).mcheck = true := by
    unfold State.recoverable
    simp only [State.ctlOf_setCtl_self, h, if_true]
    split
    · simpa using hm
    · simpa using hm
  exact hf' _ _ hf rfl

/-- So a vendor call that may issue comes to a machine check where its entry's word fails its parity. -/
theorem State.callIssue_mcheck {s : State} {n : Fin 12} {k : CallSt} (hcall : (s.cleOf n).call = some k)
    (hissuing : k.issuing = false) (hresult : k.result = none) (hvendor : k.k < 128) (hblocked : (s.cleOf n).blocked = false)
    (hidle : (s.cleOf n).seqr.who = .none) (hqueue : s.lowestQueued n = none)
    (hstate : s.slState n = slReady ∨ s.slState n = slRunning) (hf : (s.ctlOf n).fencing = true)
    (hspoiled : parityOk (s.uword n (Config.vendorEntryOf k.k % 0x800)) = false) :
    ((s.callIssue n).ctlOf n).mcheck = true := by
  have hst : (s.slState n == slReady || s.slState n == slRunning) = true := by simpa using hstate
  have hword (c : CleSt) : parityOk (((s.setCle n c).showCall n).uword n (Config.vendorEntryOf k.k % 0x800)) = false := hspoiled
  simp only [State.callIssue, hcall, hissuing, hresult, hblocked, hidle, hqueue, hst, hvendor, Option.isSome_none,
    bne_self_eq_false, Bool.or_self, Bool.not_true, Bool.false_eq_true, if_false, if_true, hword, Bool.not_false]
  exact State.machineCheck_mcheck _ hf

/-- Vendor entry 0 called by the pair of slice 0, and not yet issued. -/
def waitingCall : CallSt := ⟨0, 0, 0, 0, false, none⟩

/-- Slice 0 runs until a FENCE takes effect, its pair's vendor call waits, and the store word of the entry has odd parity. -/
def spoiledEntry : State :=
  (((State.reset.setF (R.SLC_STATE 0) F.SLC_STATE_STATE slRunning).setCle 0 { resetCle with call := some waitingCall }).setCtl 0
    { resetCtl with fencing := true }).setUword 0 (Config.vendorEntryOf 0 % 0x800) 1

theorem spoiledEntry_word : parityOk (spoiledEntry.uword 0 (Config.vendorEntryOf 0 % 0x800)) = false := by
  rw [State.uword, spoiledEntry, State.setUword, SMap.get_put_self]
  decide

/-- Refutes O10, by the clause of the attached call's issue: it does not ask that the entry's word pass its parity. A vendor word
that fails it is a machine check (R137), which the slice's control records, where the clause lets registers and the CLE alone
change. -/
theorem not_microcodeStoreAndCalls : ¬ Obligations.MicrocodeStoreAndCalls := by
  unfold Obligations.MicrocodeStoreAndCalls
  rintro ⟨-, -, -, -, -, -, hissue, -⟩
  have hcall : (spoiledEntry.cleOf 0).call = some waitingCall := rfl
  have hqueue : spoiledEntry.lowestQueued 0 = none := by decide
  have hstate : spoiledEntry.slState 0 = slReady ∨ spoiledEntry.slState 0 = slRunning := .inr (by decide)
  obtain ⟨t, ht, -, -, -, hframe⟩ := hissue spoiledEntry 0 waitingCall hcall rfl rfl (by decide) rfl rfl hqueue hstate
  have hchecked : ((spoiledEntry.callIssue 0).ctlOf 0).mcheck = true :=
    State.callIssue_mcheck hcall rfl rfl (by decide) rfl rfl hqueue hstate rfl spoiledEntry_word
  have hkept : t.ctlOf 0 = spoiledEntry.ctlOf 0 := by rw [hframe]; rfl
  rw [show spoiledEntry.callIssue 0 = t from Host.Outcome.next.inj ht, hkept] at hchecked
  exact Bool.false_ne_true hchecked

end Machine
end Sys2Proof
end

section
/-! PROOFS. Writes of the injection unit's registers (R191, R194). -/

namespace Sys2Proof
namespace Machine

/-! Words built from a register word and a constant one. -/

theorem Fld.get_or (f : Fld) (v w : Word) : f.get (v ||| w) = f.get v ||| f.get w := by
  apply Nat.eq_of_testBit_eq
  intro i
  simp only [Nat.testBit_or, Fld.get_testBit, BitVec.getLsbD_or, Bool.and_or_distrib_left]

theorem Fld.get_and (f : Fld) (v w : Word) : f.get (v &&& w) = f.get v &&& f.get w := by
  apply Nat.eq_of_testBit_eq
  intro i
  simp only [Nat.testBit_and, Fld.get_testBit, BitVec.getLsbD_and]
  cases decide (i < f.width) <;> rfl

/-- A mask with every bit of a field keeps the field. -/
theorem Fld.get_and_mask {f : Fld} {m : Word} (v : Word) (h : f.get m = 2 ^ f.width - 1) : f.get (v &&& m) = f.get v := by
  rw [Fld.get_and, h, Nat.and_two_pow_sub_one_of_lt_two_pow (Fld.get_lt f v)]

/-- A write of INJ_CTRL with START set. -/
def withStart (v : Word) : Word := v ||| F.INJ_CTRL_START.word 1

theorem withStart_start (v : Word) : F.INJ_CTRL_START.get (withStart v) = 1 := by
  have hbit : ∀ b : Fin 2, b.val ||| 1 = 1 := by decide
  rw [withStart, Fld.get_or]
  exact hbit ⟨_, Fld.get_lt F.INJ_CTRL_START v⟩

theorem withStart_get {f : Fld} (v : Word) (h : f.get (F.INJ_CTRL_START.word 1) = 0) : f.get (withStart v) = f.get v := by
  rw [withStart, Fld.get_or, h, Nat.or_zero]

/-! Writes reach the unit. -/

/-- A served write of a register of a present slice is that of its unit. -/
theorem State.write_sliceReg {s : State} {x : Access} {n : Slice} {o : Nat} (v : Word) (ho : o < 0x20000)
    (hr : s.reaches x (sliceBase n + o) = true) (hf : s.fitted n = true) :
    s.write x (sliceBase n + o) v = s.sliceWrite x n o (sliceBase n + o) v := by
  rw [s.write_of_reaches x _ v hr]
  simp only [State.reaches, State.takesWrite, Bool.and_eq_true, Bool.not_eq_true'] at hr
  obtain ⟨⟨-, hkc⟩, hu⟩ := hr
  exact s.regWrite_slice x n o v ho hkc hf hu

theorem State.sliceWrite_inj (s : State) (x : Access) (n : Slice) {o : Nat} (a : Nat) (v : Word) (hlo : 0xB000 ≤ o)
    (hhi : o < 0xC000) : s.sliceWrite x n o a v = s.injWrite x n a v := by
  rw [State.sliceWrite, if_neg (by omega), dif_neg (by omega)]
  iterate 9 rw [if_neg (by omega)]
  rw [if_pos hhi]

theorem State.write_INJ_CTRL {s : State} {x : Access} {n : Slice} (v : Word) (hr : s.reaches x (R.INJ_CTRL n) = true)
    (hf : s.fitted n = true) : s.write x (R.INJ_CTRL n) v = s.injCtrlWrite x n v := by
  have ha : R.INJ_CTRL n = sliceBase n + 0xB000 := rfl
  rw [ha] at hr ⊢
  rw [State.write_sliceReg v (by decide) hr hf, s.sliceWrite_inj x n _ v (by decide) (by decide), State.injWrite,
    Nat.sub_self]
  rfl

/-- A limit is written in FENCED or in SERVICE, which ends a run on its loop, and refused elsewhere (R194). -/
theorem State.write_INJ_LIM {s : State} {x : Access} {n : Slice} {j : Fin 16} (v : Word)
    (hr : s.reaches x (R.INJ_LIM n j) = true) (hf : s.fitted n = true) : s.write x (R.INJ_LIM n j) v =
      if s.slState n == slFenced || s.mode == mdService then
        let s1 := s.setReg (R.INJ_LIM n j) (v &&& 0x0000FFFF)
        if s1.injOn n j then s1.injEnd n 5 else s1
      else s.injRefuse n := by
  have ha : R.INJ_LIM n j = sliceBase n + (0xB080 + 4 * j) := by unfold R.INJ_LIM; omega
  have hoff : sliceBase n + (0xB080 + 4 * j.val) - (sliceBase n + 0xB000) = 0x80 + 4 * j := by omega
  have hfirst : (0x80 + 4 * j.val == 0) = false ∧ (0x80 + 4 * j.val == 0x1C) = false := by
    simp only [beq_eq_false_iff_ne]
    omega
  have hlim : 0x80 ≤ 0x80 + 4 * j.val ∧ 0x80 + 4 * j.val < 0xC0 ∧ (0x80 + 4 * j.val) % 4 = 0 := by omega
  have hj : (0x80 + 4 * j.val - 0x80) / 4 = j := by omega
  rw [ha] at hr ⊢
  rw [State.write_sliceReg v (by omega) hr hf, s.sliceWrite_inj x n _ v (by omega) (by omega), State.injWrite]
  simp only [hoff, hfirst, hj, Bool.false_eq_true, if_false, if_pos hlim]

end Machine
end Sys2Proof
end

section
/-! PROOFS. Injection: the start of a run, its end, and capture records (R191 to R193). -/

namespace Sys2Proof
namespace Machine

/-! A start and its refusal (R191). -/

theorem INJ_STAT_ne_INJ_CTRL (n : Slice) : R.INJ_STAT n ≠ R.INJ_CTRL n := by
  unfold R.INJ_STAT R.INJ_CTRL
  omega

theorem State.injOf_setInj_self (s : State) (n : Slice) (x : InjSt) : (s.setInj n x).injOf n = x :=
  vget_set_self s.inj n x

/-- A refused write sets REJ_F and is counted; it leaves the rest of the unit. -/
theorem State.injRefuse_shows (s : State) (n : Slice) :
    (s.injRefuse n).getF (R.INJ_REJ n) F.INJ_REJ_COUNT =
      min F.INJ_REJ_COUNT.top (s.getF (R.INJ_REJ n) F.INJ_REJ_COUNT + 1) ∧
    (s.injRefuse n).isSet (R.INJ_STAT n) F.INJ_STAT_REJ_F = true ∧
    (∀ a, a ≠ R.INJ_STAT n → a ≠ R.INJ_REJ n → (s.injRefuse n).reg a = s.reg a) ∧
    s.injRefuse n = { s with regs := (s.injRefuse n).regs } := by
  have hne : R.INJ_REJ n ≠ R.INJ_STAT n := by unfold R.INJ_REJ R.INJ_STAT; omega
  refine ⟨?_, ?_, fun a hstat hrej => ?_, rfl⟩
  · rw [State.injRefuse, State.getF_count _ _ _ (by decide), State.getF_setF_reg _ _ _ _ _ _ hne]
  · rw [State.injRefuse, State.count, State.isSet_setF_ne _ _ _ _ _ _ (by decide) (.inl hne.symm)]
    exact State.isSet_setB s _ _ true (by decide) (by decide)
  · rw [State.injRefuse, State.reg_count_ne _ _ _ _ hrej, State.reg_setF_ne _ _ _ _ _ hstat]

/-- The registers of a start: RUN and START, and CORR_BUSY where INJ_CTRL asks for a correlation. -/
def State.injMarked (s : State) (n : Slice) : State :=
  ((s.setF (R.INJ_CTRL n) F.INJ_CTRL_START 1).setF (R.INJ_STAT n) F.INJ_STAT_RUN 1).setB (R.INJ_STAT n)
    F.INJ_STAT_CORR_BUSY (s.isSet (R.INJ_CTRL n) F.INJ_CTRL_CORR_EN)

theorem State.injMarked_shows (s : State) (n : Slice) :
    (s.injMarked n).isSet (R.INJ_STAT n) F.INJ_STAT_RUN = true ∧
    (s.injMarked n).isSet (R.INJ_STAT n) F.INJ_STAT_CORR_BUSY = s.isSet (R.INJ_CTRL n) F.INJ_CTRL_CORR_EN ∧
    (s.injMarked n).getF (R.INJ_CTRL n) F.INJ_CTRL_LOOP = s.getF (R.INJ_CTRL n) F.INJ_CTRL_LOOP := by
  have hne := (INJ_STAT_ne_INJ_CTRL n).symm
  refine ⟨?_, State.isSet_setB _ _ _ _ (by decide) (by decide), ?_⟩
  · rw [State.injMarked, State.setB, State.isSet_setF_ne _ _ _ _ _ _ (by decide) (.inr (by decide))]
    exact State.isSet_setB _ _ _ true (by decide) (by decide)
  · rw [State.injMarked, State.setB, State.getF_setF_reg _ _ _ _ _ _ hne, State.getF_setF_reg _ _ _ _ _ _ hne,
      State.getF_setF_fld _ _ _ _ _ (by decide) (by decide)]

theorem State.injStart_marked (s : State) (n : Slice) :
    ∃ c : InjSt, c.phi = 0 ∧ c.samples = 0 ∧ s.injStart n = (s.injMarked n).setInj n c := ⟨_, rfl, rfl, rfl⟩

/-- What a start sets, from INJ_CTRL as it has been written. -/
theorem State.injStart_shows (s : State) (n : Slice) :
    (s.injStart n).isSet (R.INJ_STAT n) F.INJ_STAT_RUN = true ∧
    (s.injStart n).isSet (R.INJ_STAT n) F.INJ_STAT_CORR_BUSY = s.isSet (R.INJ_CTRL n) F.INJ_CTRL_CORR_EN ∧
    (s.injStart n).getF (R.INJ_CTRL n) F.INJ_CTRL_LOOP = s.getF (R.INJ_CTRL n) F.INJ_CTRL_LOOP ∧
    ((s.injStart n).injOf n).phi = 0 ∧ ((s.injStart n).injOf n).samples = 0 := by
  obtain ⟨c, hphi, hsamples, hstart⟩ := s.injStart_marked n
  obtain ⟨hrun, hbusy, hloop⟩ := s.injMarked_shows n
  rw [hstart, State.setInj_isSet, State.setInj_isSet, State.setInj_getF, State.injOf_setInj_self]
  exact ⟨hrun, hbusy, hloop, hphi, hsamples⟩

/-- A start while a run is on is refused. -/
theorem State.injCtrlWrite_running {s : State} {x : Access} {n : Slice} {v : Word}
    (hrun : s.isSet (R.INJ_STAT n) F.INJ_STAT_RUN = true) (hstop : F.INJ_CTRL_STOP.get v = 0) :
    s.injCtrlWrite x n v = s.injRefuse n := by
  have hno : ((0 : Nat) == 1) = false := rfl
  simp only [State.injCtrlWrite, hrun, hstop, hno, Bool.false_eq_true, if_false, if_true]

/-- STOP ends a run. -/
theorem State.injCtrlWrite_stop {s : State} {x : Access} {n : Slice} {v : Word}
    (hrun : s.isSet (R.INJ_STAT n) F.INJ_STAT_RUN = true) (hstop : F.INJ_CTRL_STOP.get v = 1) :
    s.injCtrlWrite x n v = s.injEnd n 2 := by
  simp only [State.injCtrlWrite, hrun, hstop, beq_self_eq_true, if_true]

/-- A start that R191 allows, of a configuration without a chirp. -/
theorem State.injCtrlWrite_starts {s : State} {x : Access} {n : Slice} {v : Word}
    (hrun : s.isSet (R.INJ_STAT n) F.INJ_STAT_RUN = false) (hmay : s.injMay x n v = true)
    (hshape : F.INJ_CTRL_SHAPE.get v = 0 ∨ (F.INJ_CTRL_SHAPE.get v = 1 ∧ F.INJ_CTRL_CORR_EN.get v = 0))
    (hnode : F.INJ_CTRL_NODE.get v ≠ 3) (hstop : F.INJ_CTRL_STOP.get v = 0) (hstart : F.INJ_CTRL_START.get v = 1) :
    s.injCtrlWrite x n v = (s.setReg (R.INJ_CTRL n) (v &&& 0x03CF0C00)).injStart n := by
  have hcorr : (F.INJ_CTRL_CORR_EN.get v == 1 && F.INJ_CTRL_SHAPE.get v != 0) = false := by
    rcases hshape with h | ⟨-, h⟩ <;> simp [h]
  have hreserved : (F.INJ_CTRL_SHAPE.get v == 3) = false ∧ (F.INJ_CTRL_SHAPE.get v == 2) = false := by
    rcases hshape with h | ⟨h, -⟩ <;> simp [h]
  simp [State.injCtrlWrite, hrun, hmay, hcorr, hreserved, hnode, hstop, hstart]

/-! The end of a run, which completes the descriptors that waited for it (R192, R354). -/

/-- `t` is `s` but for the descriptors of the host's functions, what goes to the host, and registers of the functions' pages. -/
def State.FnOnly (s t : State) : Prop :=
  t = { s with regs := t.regs, fns := t.fns, outs := t.outs } ∧ ∀ a, a < fnBase 0 → t.reg a = s.reg a

namespace State.FnOnly

variable {s t u : State}

theorem refl (s : State) : s.FnOnly s := ⟨rfl, fun _ _ => rfl⟩

theorem trans (h : s.FnOnly t) (k : t.FnOnly u) : s.FnOnly u := by
  obtain ⟨ht, hreg⟩ := h
  obtain ⟨hu, hreg'⟩ := k
  refine ⟨?_, fun a ha => (hreg' a ha).trans (hreg a ha)⟩
  rw [ht] at hu
  exact hu

theorem emit (h : s.FnOnly t) (o : Out) : s.FnOnly (t.emit o) := h.trans ⟨rfl, fun _ _ => rfl⟩

theorem sendWords (h : s.FnOnly t) (f m addr : Nat) (ws : List Word) (k : Nat) : s.FnOnly (t.sendWords f m addr ws k) := by
  induction k generalizing t addr ws with
  | zero => exact h
  | succ k ih =>
    unfold State.sendWords
    split
    · exact h.emit _
    · exact ih (h.emit _) _ _

theorem toHost (h : s.FnOnly t) (f : Fin 16) (addr : Nat) (ws : List Word) : s.FnOnly (t.toHost f addr ws) := by
  unfold State.toHost
  split
  · exact h.sendWords _ _ _ _ _
  · exact h

theorem setFn (h : s.FnOnly t) (f : Fin 16) (x : FnSt) : s.FnOnly (t.setFn f x) := by
  refine h.trans ⟨rfl, fun a ha => State.reg_setF_ne _ _ _ _ a ?_⟩
  unfold R.RNG_STAT
  unfold fnBase at ha ⊢
  omega

theorem descDone (h : s.FnOnly t) (w : Await) (status result : Nat) : s.FnOnly (t.descDone w status result) := by
  unfold State.descDone State.descFinishAll State.descEndWith
  refine foldl_keeps _ _ _ t h (fun u f hu => ?_)
  dsimp only
  split
  · exact hu
  · exact hu.setFn f _

theorem captureDone (h : s.FnOnly t) (n cause : Nat) : s.FnOnly (t.captureDone n cause) := by
  unfold State.captureDone
  dsimp only
  refine (foldl_keeps _ _ _ t h (fun u f hu => foldl_keeps _ _ _ u hu (fun v y hv => ?_))).descDone _ _ _
  split
  · exact hv.toHost f _ _
  · exact hv

end State.FnOnly

/-- INJ_STAT and INJ_CTRL at the end of a run, before its descriptors are completed. -/
def State.injStopped (s : State) (n : Slice) (cause : Nat) : State :=
  (((s.setF (R.INJ_STAT n) F.INJ_STAT_RUN 0).setF (R.INJ_STAT n) F.INJ_STAT_CORR_BUSY 0).setF (R.INJ_STAT n)
    F.INJ_STAT_STOP_CAUSE cause).setF (R.INJ_CTRL n) F.INJ_CTRL_START 0

theorem State.injEnd_running {s : State} {n : Slice} (cause : Nat)
    (hrun : s.isSet (R.INJ_STAT n) F.INJ_STAT_RUN = true) : (s.injStopped n cause).FnOnly (s.injEnd n cause) := by
  have hend : s.injEnd n cause = (s.injStopped n cause).captureDone n cause := by
    simp only [State.injEnd, hrun, Bool.not_true, Bool.false_eq_true, if_false, State.injStopped]
  rw [hend]
  exact (State.FnOnly.refl _).captureDone n cause

theorem State.injStopped_shows (s : State) (n : Slice) {cause : Nat} (hc : cause < 8) :
    (s.injStopped n cause).isSet (R.INJ_STAT n) F.INJ_STAT_RUN = false ∧
    (s.injStopped n cause).isSet (R.INJ_STAT n) F.INJ_STAT_CORR_BUSY = false ∧
    (s.injStopped n cause).getF (R.INJ_STAT n) F.INJ_STAT_STOP_CAUSE = cause ∧
    (s.injStopped n cause).isSet (R.INJ_CTRL n) F.INJ_CTRL_START = false := by
  have hne := INJ_STAT_ne_INJ_CTRL n
  have hstat (f : Fld) : (s.injStopped n cause).getF (R.INJ_STAT n) f =
      (((s.setF (R.INJ_STAT n) F.INJ_STAT_RUN 0).setF (R.INJ_STAT n) F.INJ_STAT_CORR_BUSY 0).setF (R.INJ_STAT n)
        F.INJ_STAT_STOP_CAUSE cause).getF (R.INJ_STAT n) f := State.getF_setF_reg _ _ _ _ _ f hne
  refine ⟨?_, ?_, ?_, State.isSet_setB _ _ _ false (by decide) (by decide)⟩
  · rw [State.isSet, hstat, State.getF_setF_fld _ _ _ _ _ (by decide) (by decide),
      State.getF_setF_fld _ _ _ _ _ (by decide) (by decide), State.getF_setF _ _ _ _ (by decide)]
    rfl
  · rw [State.isSet, hstat, State.getF_setF_fld _ _ _ _ _ (by decide) (by decide), State.getF_setF _ _ _ _ (by decide)]
    rfl
  · rw [hstat, State.getF_setF_of_lt _ _ _ _ (by decide) hc]

/-- A run that ends shows its cause in INJ_STAT, START reads 0, and memory, pairs and PWM stay as they were (R192). -/
theorem State.injEnd_shows {s : State} {n : Slice} {cause : Nat} (hc : cause < 8)
    (hrun : s.isSet (R.INJ_STAT n) F.INJ_STAT_RUN = true) :
    (s.injEnd n cause).isSet (R.INJ_STAT n) F.INJ_STAT_RUN = false ∧
    (s.injEnd n cause).isSet (R.INJ_STAT n) F.INJ_STAT_CORR_BUSY = false ∧
    (s.injEnd n cause).getF (R.INJ_STAT n) F.INJ_STAT_STOP_CAUSE = cause ∧
    (s.injEnd n cause).isSet (R.INJ_CTRL n) F.INJ_CTRL_START = false ∧
    (s.injEnd n cause).cells = s.cells ∧ (s.injEnd n cause).core = s.core ∧ (s.injEnd n cause).pwm = s.pwm := by
  obtain ⟨hrest, hregs⟩ := State.injEnd_running cause hrun
  obtain ⟨hoff, hbusy, hcause, hstart⟩ := s.injStopped_shows n hc
  have hstat := hregs (R.INJ_STAT n) (by unfold R.INJ_STAT sliceBase fnBase; omega)
  have hctrl := hregs (R.INJ_CTRL n) (by unfold R.INJ_CTRL sliceBase fnBase; omega)
  simp only [State.isSet, State.getF, hstat, hctrl] at hoff hbusy hcause hstart ⊢
  refine ⟨hoff, hbusy, hcause, hstart, ?_, ?_, ?_⟩ <;>
  · rw [hrest]
    rfl

/-! Capture records (R193). -/

theorem State.captureWrite_queued {s : State} {n : Slice} {r : Rec} {q : List Rec} (hq : (s.injOf n).queue = r :: q) :
    s.captureWrite n = ((s.wr none (smem n (4 * s.getF (R.INJ_CAP n) F.INJ_CAP_BASE +
      4 * s.getF (R.INJ_CIDX n) F.INJ_CIDX_INDEX)) r.c0).setInj n { s.injOf n with queue := q }).setF (R.INJ_CIDX n)
        F.INJ_CIDX_INDEX ((s.getF (R.INJ_CIDX n) F.INJ_CIDX_INDEX + 1) % 2 ^ s.getF (R.INJ_CAP n) F.INJ_CAP_LOG2LEN) := by
  simp only [State.captureWrite, hq]

/-- An aligned offset of slice memory is an aligned address of the slice's block. -/
theorem smem_placed (n k : Nat) : smem n (4 * k) % 4 = 0 ∧ sliceBase n ≤ smem n (4 * k) ∧
    smem n (4 * k) < sliceBase n + 0x100000 := by
  unfold smem sliceBase
  omega

end Machine
end Sys2Proof
end

section
/-! PROOFS. Injection: the statement of chapter 11. -/

namespace Sys2Proof
namespace Machine

/-- Settles O15: each clause by what its command does to the injection unit, and its frame. -/
theorem injectionRuns : Obligations.InjectionRuns := by
  refine ⟨?start, ?again, ?stop, ?record, ?limit, ?refused⟩
  case start =>
    rintro s x n v j hr hf rfl hrun hst hen hmode hamp hshape hnode hstop
    have hget (f : Fld) (h : f.get (F.INJ_CTRL_START.word 1) = 0) : f.get (withStart v) = f.get v := withStart_get v h
    refine ⟨(s.setReg (R.INJ_CTRL n) (withStart v &&& 0x03CF0C00)).injStart n, ?_, ?_⟩
    · have hmay : s.injMay x n (withStart v) = true := by
        simp only [State.injMay, hget F.INJ_CTRL_LOOP (by decide)]
        simp [hst, hen, hmode, hamp]
      have hwrite : s.injCtrlWrite x n (withStart v) = _ := State.injCtrlWrite_starts hrun hmay
        (by rwa [hget _ (by decide), hget _ (by decide)]) (by rwa [hget _ (by decide)]) (by rwa [hget _ (by decide)])
        (withStart_start v)
      exact congrArg Host.Outcome.next ((State.write_INJ_CTRL _ hr hf).trans hwrite)
    · have hctrl (f : Fld) (hm : f.get 0x03CF0C00 = 2 ^ f.width - 1) (h : f.get (F.INJ_CTRL_START.word 1) = 0) :
          (s.setReg (R.INJ_CTRL n) (withStart v &&& 0x03CF0C00)).getF (R.INJ_CTRL n) f = f.get v := by
        rw [State.getF, State.reg_setReg_self, Fld.get_and_mask _ hm, hget f h]
      obtain ⟨hon, hbusy, hloop, hphi, hsamples⟩ := (s.setReg (R.INJ_CTRL n) (withStart v &&& 0x03CF0C00)).injStart_shows n
      refine ⟨hon, ?_, hloop.trans (hctrl _ (by decide) (by decide)), hphi, hsamples, rfl⟩
      rw [hbusy, State.isSet, hctrl _ (by decide) (by decide)]
      rfl
  case again =>
    intro s x n v hr hf hrun hstop
    obtain ⟨hcount, hflag, hkept, hrest⟩ := s.injRefuse_shows n
    have hwrite : s.injCtrlWrite x n (withStart v) = s.injRefuse n :=
      State.injCtrlWrite_running hrun (by rwa [withStart_get v (by decide)])
    refine ⟨s.injRefuse n, congrArg Host.Outcome.next ((State.write_INJ_CTRL _ hr hf).trans hwrite), hcount, hflag, ?_, hrest⟩
    exact hkept _ (INJ_STAT_ne_INJ_CTRL n).symm (by unfold R.INJ_CTRL R.INJ_REJ; omega)
  case stop =>
    intro s x n hr hf hrun
    refine ⟨_, rfl, ?_⟩
    rw [State.write_INJ_CTRL _ hr hf, State.injCtrlWrite_stop hrun (by decide)]
    exact State.injEnd_shows (by decide) hrun
  case record =>
    intro s n r q a hq ha
    refine ⟨_, rfl, ?_⟩
    obtain ⟨h4, hlo, hhi⟩ := smem_placed n (s.getF (R.INJ_CAP n) F.INJ_CAP_BASE + s.getF (R.INJ_CIDX n) F.INJ_CIDX_INDEX)
    rw [Nat.mul_add, ← ha] at h4 hlo hhi
    obtain ⟨hmain, hcopy⟩ := sliceBlock_onChip n hlo hhi
    obtain ⟨hcell, hkept⟩ := s.cell_wr none r.c0 hmain hcopy
    rw [State.captureWrite_queued hq, ← ha]
    refine ⟨hcell, congrArg InjSt.queue (State.injOf_setInj_self _ n _), State.getF_setF _ _ _ _ (by decide), ?_⟩
    intro b hb hne
    exact hkept b (by simp only [beq_eq_false_iff_ne] at hne; omega)
  case limit =>
    intro s x n j v hr hf hmay hrun
    have hallowed : (s.slState n == slFenced || s.mode == mdService) = true := by simpa using hmay
    have hidle : (s.setReg (R.INJ_LIM n j) (v &&& 0x0000FFFF)).injOn n j = false := by
      have hne : R.INJ_STAT n ≠ R.INJ_LIM n j := by unfold R.INJ_STAT R.INJ_LIM; omega
      rw [State.isSet, State.getF] at hrun
      rw [State.injOn, State.isSet, State.getF, State.reg_setReg_ne _ _ _ _ hne, hrun, Bool.false_and]
    refine ⟨_, rfl, ?_⟩
    rw [State.write_INJ_LIM v hr hf]
    simp only [hallowed, hidle, Bool.false_eq_true, if_false, if_true]
    exact ⟨State.reg_setReg_self _ _ _, rfl⟩
  case refused =>
    intro s x n j v hr hf hst hmode
    have hbarred : (s.slState n == slFenced || s.mode == mdService) = false := by simp [hst, hmode]
    obtain ⟨-, hflag, hkept, hrest⟩ := s.injRefuse_shows n
    refine ⟨_, rfl, ?_⟩
    rw [State.write_INJ_LIM v hr hf, hbarred, if_neg Bool.false_ne_true]
    exact ⟨hkept _ (by unfold R.INJ_STAT R.INJ_LIM; omega) (by unfold R.INJ_REJ R.INJ_LIM; omega), hflag, hrest⟩

end Machine
end Sys2Proof
end

section
/-! PROOFS. The metering converter: what its writes, its crossings and its reference do (R196, R198, R202 to R204). -/

namespace Sys2Proof
namespace Machine

/-! Writes reach the converter. -/

theorem State.write_madReg {s : State} {x : Access} {a : Nat} (v : Word) (hlo : 0x01040000 ≤ a) (hhi : a < 0x01050000)
    (hr : s.reaches x a = true) : s.write x a v = s.madWrite a v := by
  have hunit : (a - 0x01000000) / 0x10000 = 4 := by omega
  have hu : s.unreserved x a = true := (Bool.and_eq_true_iff.mp hr).2
  rw [s.write_of_reaches x a v hr, s.regWrite_device x a v (by omega) (by omega) hu]
  simp only [State.deviceWrite, hunit]

theorem State.write_MAD_URG {s : State} {x : Access} (v : Word) (hr : s.reaches x R.MAD_URG = true) :
    s.write x R.MAD_URG v = s.madUrgent v := State.write_madReg v (by decide) (by decide) hr

theorem State.write_MAD_CTRL {s : State} {x : Access} (v : Word) (hr : s.reaches x R.MAD_CTRL = true) :
    s.write x R.MAD_CTRL v = s.madCtrlWrite v := State.write_madReg v (by decide) (by decide) hr

theorem State.write_MAD_SCAN {s : State} {x : Access} (v : Word) (hr : s.reaches x R.MAD_SCAN = true) :
    s.write x R.MAD_SCAN v = s.madScanWrite v := State.write_madReg v (by decide) (by decide) hr

/-! Flags of MAD_STAT. -/

/-- A flag just set. -/
theorem State.isSet_setF_one (s : State) (a : Nat) (f : Fld) (h : f.lo + f.width ≤ 32 := by decide)
    (hw : 0 < f.width := by decide) : (s.setF a f 1).isSet a f = true := s.isSet_setB a f true h hw

/-- A flag just cleared. -/
theorem State.isSet_setF_zero (s : State) (a : Nat) (f : Fld) (h : f.lo + f.width ≤ 32 := by decide)
    (hw : 0 < f.width := by decide) : (s.setF a f 0).isSet a f = false := s.isSet_setB a f false h hw

/-- A flag that shares no bit with what is written to its register. -/
theorem State.isSet_setF_keeps {s : State} {a v : Nat} {f g : Fld} {b : Bool} (hb : s.isSet a g = b)
    (h : f.lo + f.width ≤ 32 := by decide) (hd : f.lo + f.width ≤ g.lo ∨ g.lo + g.width ≤ f.lo := by decide) :
    (s.setF a f v).isSet a g = b := (s.isSet_setF_ne a f v a g h (.inr hd)).trans hb

/-! Crossings (R196). -/

/-- A crossing within the bounds of the line makes a boundary due and shows LOCKED. -/
theorem State.zeroCrossing_accepted {s : State} {a : Nat} (hline : s.madLine = true) (hmode : s.mode ≠ mdStabled)
    (hc : s.mad.crossed = some a) (hlo : 21429000 ≤ s.clock - a) (hhi : s.clock - a ≤ 100000500) :
    s.zeroCrossing = ((s.setMad { s.mad with
      crossed := some s.clock, due := true, dueAt := s.clock, relock := s.madLost }).setF R.MAD_STAT F.MAD_STAT_LOCKED
        1).setF R.MAD_STAT F.MAD_STAT_LINE_LOST 0 := by
  have hmode' : (s.mode == mdStabled) = false := beq_eq_false_iff_ne.mpr hmode
  simp only [State.zeroCrossing, hline, hmode', hc, if_neg (Nat.not_lt.mpr hlo), if_neg (Nat.not_lt.mpr hhi),
    Bool.not_true, Bool.or_self, Bool.false_eq_true, if_false]

/-- A crossing too early after the last accepted one is ignored. -/
theorem State.zeroCrossing_early {s : State} {a : Nat} (hc : s.mad.crossed = some a) (h : s.clock - a < 21429000) :
    s.zeroCrossing = s := by
  simp only [State.zeroCrossing, hc, if_pos h, ite_self]

/-! Urgent requests (R202). -/

/-- A request that is accepted pends, with status OK. -/
theorem State.madUrgent_accepted {s : State} {v : Word} (hreq : F.MAD_URG_REQ.get v = 1)
    (hch : F.MAD_URG_CH.get v < s.madChannels) (hpend : s.isSet R.MAD_URG_STAT F.MAD_URG_STAT_PEND = false)
    (hen : s.madEn (F.MAD_URG_CH.get v / 4) = true) (hline : (s.madLine && !s.madLocked) = false) :
    s.madUrgent v = (((s.setF R.MAD_URG_STAT F.MAD_URG_STAT_CH (F.MAD_URG_CH.get v)).setF R.MAD_URG_STAT
      F.MAD_URG_STAT_STATUS 0).setMad { s.mad with urg := some (F.MAD_URG_CH.get v) }).setF R.MAD_URG_STAT
        F.MAD_URG_STAT_PEND 1 := by
  have hno : ((1 : Nat) == 0) = false := rfl
  simp only [State.madUrgent, hreq, hno, if_neg (Nat.not_le.mpr hch), hpend, hen, hline, Bool.false_and, Bool.not_true,
    Bool.or_self, Bool.false_eq_true, if_false, beq_self_eq_true, if_true, State.setF_mad]

/-! The reference (R203). -/

theorem State.refSettled_powered {s : State} (hmode : s.mode ≠ mdStabled) : s.refSettled =
    (s.setF R.MAD_STAT F.MAD_STAT_REF_SETTLED 1).setF R.MAD_STAT F.MAD_STAT_REF_FAULT 0 := by
  simp only [State.refSettled, beq_eq_false_iff_ne.mpr hmode, Bool.false_eq_true, if_false]

/-- The EXT reference has a fault outside STABLED. -/
theorem State.refFault_ext {s : State} (hmode : s.mode ≠ mdStabled) (hext : s.getF R.MAD_CTRL F.MAD_CTRL_REF_SEL = 1) :
    s.refFault = ((s.setF R.MAD_STAT F.MAD_STAT_REF_SETTLED 0).setF R.MAD_STAT F.MAD_STAT_REF_FAULT 1).setF R.MAD_STAT
      F.MAD_STAT_REF_FAULT_F 1 := by
  simp only [State.refFault, hext, bne_iff_ne.mpr hmode, beq_self_eq_true, Bool.and_self, if_true]

/-! Writes of MAD_CTRL (R203, R204). -/

/-- Settling begins anew with the first unit, or with another reference, which also clears REF_FAULT. -/
def State.madUnsettle (s : State) (first newRef : Bool) : State :=
  let t := if first || newRef then s.setF R.MAD_STAT F.MAD_STAT_REF_SETTLED 0 else s
  if newRef then t.setF R.MAD_STAT F.MAD_STAT_REF_FAULT 0 else t

/-- Settling is told in MAD_STAT alone. -/
theorem State.madUnsettle_rest (s : State) (first newRef : Bool) :
    s.madUnsettle first newRef = { s with regs := (s.madUnsettle first newRef).regs } := by
  cases first <;> cases newRef <;> rfl

theorem State.madUnsettle_reg (s : State) (first newRef : Bool) {a : Nat} (ha : a ≠ R.MAD_STAT) :
    (s.madUnsettle first newRef).reg a = s.reg a := by
  cases first <;> cases newRef <;> simp [State.madUnsettle, State.reg_setF_ne _ _ _ _ _ ha]

theorem State.madUnsettle_settled (s : State) (newRef : Bool) :
    (s.madUnsettle true newRef).isSet R.MAD_STAT F.MAD_STAT_REF_SETTLED = false := by
  have hoff := s.isSet_setF_zero R.MAD_STAT F.MAD_STAT_REF_SETTLED
  cases newRef with
  | false => exact hoff
  | true => exact State.isSet_setF_keeps hoff

/-- A write of MAD_CTRL while no unit runs takes every field and starts the settling of the reference. -/
theorem State.madCtrlWrite_idle {s : State} {v : Word} (hp : s.part ≠ .esk7208)
    (hen : s.getF R.MAD_CTRL F.MAD_CTRL_EN = 0) (href : F.MAD_CTRL_REF_SEL.get v ≠ 3) :
    ∃ (s0 : State) (m : MadSt) (newRef : Bool), s0 = { s with regs := s0.regs } ∧ s.madCtrlWrite v =
      (((s0.setReg R.MAD_CTRL (v &&& 0x0F310F0F)).setMad m).madUnsettle (F.MAD_CTRL_EN.get v != 0) newRef).madShow := by
  have hget (f : Fld) (h : f.get 0x0F310F0F = 2 ^ f.width - 1) : f.get (v &&& 0x0F310F0F) = f.get v := Fld.get_and_mask v h
  have hidle : s.madAny = false := by simp [State.madAny, hen]
  have hch : decide (s.madChannels ≤ F.MAD_CTRL_ZC_CH.get v) = false := by
    rw [State.madChannels, if_neg hp]
    exact decide_eq_false (Nat.not_le.mpr (Fld.get_lt F.MAD_CTRL_ZC_CH v))
  have href' : (F.MAD_CTRL_REF_SEL.get v == 3) = false := beq_eq_false_iff_ne.mpr href
  simp only [State.madCtrlWrite, if_neg hp, hidle, hget F.MAD_CTRL_REF_SEL (by decide), hget F.MAD_CTRL_ZC_CH (by decide),
    hget F.MAD_CTRL_EN (by decide), hch, href', Bool.and_false, Bool.or_self, Bool.false_eq_true, if_false, Bool.not_false,
    Bool.true_and]
  refine ⟨_, _, _, ?_, rfl⟩
  split <;> rfl

end Machine
end Sys2Proof
end

section
/-! PROOFS. The metering converter: what a boundary does, and its results (R196, R197, R199). -/

namespace Sys2Proof
namespace Machine

/-! Changes of the converter alone. -/

/-- The fields of MAD_STAT that tell of the line (R197). -/
def lineFlds : List Fld := [F.MAD_STAT_LINE_LOST_F, F.MAD_STAT_LINE_LOST, F.MAD_STAT_LOCKED]

/-- `t` is `s` but for the converter, whose results and whose view of the line are kept. -/
structure State.MadKept (s t : State) : Prop where
  rest : t = { s with regs := t.regs, mad := t.mad }
  last : ∀ ch, t.reg (R.MAD_LAST ch) = s.reg (R.MAD_LAST ch)
  line : ∀ f ∈ lineFlds, t.isSet R.MAD_STAT f = s.isSet R.MAD_STAT f

namespace State.MadKept

variable {s t u : State}

theorem refl (s : State) : s.MadKept s := ⟨rfl, fun _ => rfl, fun _ _ => rfl⟩

theorem trans (h : s.MadKept t) (k : t.MadKept u) : s.MadKept u where
  rest := by
    have hu := k.rest
    rw [h.rest] at hu
    exact hu
  last ch := (k.last ch).trans (h.last ch)
  line f hf := (k.line f hf).trans (h.line f hf)

theorem setMad (h : s.MadKept t) (m : MadSt) : s.MadKept (t.setMad m) := h.trans ⟨rfl, fun _ => rfl, fun _ _ => rfl⟩

theorem setReg (h : s.MadKept t) {a : Nat} (v : Word) (ha : a < R.MAD_LAST 0 := by decide)
    (hne : a ≠ R.MAD_STAT := by decide) : s.MadKept (t.setReg a v) := by
  refine h.trans ⟨rfl, fun ch => State.reg_setReg_ne _ _ _ _ ?_, fun f _ => ?_⟩
  · unfold R.MAD_LAST at ha ⊢
    omega
  · rw [State.isSet, State.getF, State.reg_setReg_ne _ _ _ _ hne.symm]
    rfl

theorem setF (h : s.MadKept t) {a : Nat} (f : Fld) (v : Nat) (ha : a < R.MAD_LAST 0 := by decide)
    (hne : a ≠ R.MAD_STAT := by decide) : s.MadKept (t.setF a f v) := h.setReg _ ha hne

/-- A field of MAD_STAT that does not tell of the line. -/
theorem setStat (h : s.MadKept t) (f : Fld) (v : Nat) (hf : f.lo + f.width ≤ 32 := by decide)
    (hd : ∀ g ∈ lineFlds, f.lo + f.width ≤ g.lo ∨ g.lo + g.width ≤ f.lo := by decide) :
    s.MadKept (t.setF R.MAD_STAT f v) := by
  refine h.trans ⟨rfl, fun ch => State.reg_setF_ne _ _ _ _ _ ?_, fun g hg => ?_⟩
  · unfold R.MAD_LAST R.MAD_STAT
    omega
  · exact State.isSet_setF_ne _ _ _ _ _ _ hf (.inr (hd g hg))

theorem ite {c : Prop} [Decidable c] (h : s.MadKept t) (k : s.MadKept u) : s.MadKept (if c then t else u) := by
  split <;> assumption

theorem madDrop (h : s.MadKept t) : s.MadKept t.madDrop := (h.setF _ _).setStat _ _

theorem madShow (h : s.MadKept t) : s.MadKept t.madShow := h.setStat _ _

end State.MadKept

/-! The result of one unit (R199 to R202). -/

theorem ofSigned_lt (w : Nat) (x : Int) : ofSigned w x < 2 ^ w := by
  have hpos : (0 : Int) < ((2 ^ w : Nat) : Int) := Int.natCast_pos.mpr (Nat.two_pow_pos w)
  have hnonneg := Int.emod_nonneg x (Int.ne_of_gt hpos)
  have hlt := Int.emod_lt_of_pos x hpos
  unfold ofSigned
  omega

/-- VALUE of a result below its flags. -/
theorem MAD_LAST_VALUE_of (k : Nat) {x : Nat} (hx : x < 2 ^ 24) :
    F.MAD_LAST_VALUE.get (BitVec.ofNat 32 (k * 2 ^ 24 + x)) = x := by
  simp only [Fld.get, F.MAD_LAST_VALUE, BitVec.toNat_ofNat]
  omega

/-- VALUE of a channel's result by its trims (R199). -/
def State.madValue (s : State) (ch : Nat) (r : RawResult) : Nat :=
  ofSigned 24 (correct24 (satS 24 r.raw) (toSigned 24 (s.getF (R.MAD_OFFS ch) F.MAD_OFFS_OFFS))
    (s.reg (R.MAD_GAIN ch)).toInt)

/-- A unit without a conversion gives no result. -/
theorem State.madResult_idle {s : State} {u : Fin 4} (r : RawResult) (len : Nat) (lost : Bool)
    (h : s.mad.conv.get u = none) : s.madResult u r len lost = s := by
  simp only [State.madResult, h]

/-- What follows a result in MAD_LAST: INPUT_OVR_F, the end of the conversion, and its record queued or dropped. -/
def State.madStored (s : State) (u : Fin 4) (ovr : Bool) (recd : Vector Cell 4) : State :=
  let t := if ovr then s.setF R.MAD_STAT F.MAD_STAT_INPUT_OVR_F 1 else s
  let m : MadSt := { t.mad with conv := t.mad.conv.set u none }
  if m.queue.length < 8 then t.setMad { m with queue := m.queue ++ [recd] } else (t.setMad m).madDrop

/-- The completion of an urgent request (R202), before its event. -/
def State.madUrgentDone (s : State) (res : Word) : State :=
  ((s.setReg R.MAD_URG_RES res).setF R.MAD_URG_STAT F.MAD_URG_STAT_DONE_F 1).setF R.MAD_URG_STAT F.MAD_URG_STAT_PEND 0

theorem State.madStored_kept (s : State) (u : Fin 4) (ovr : Bool) (recd : Vector Cell 4) :
    s.MadKept (s.madStored u ovr recd) := by
  have hflag : s.MadKept (if ovr then s.setF R.MAD_STAT F.MAD_STAT_INPUT_OVR_F 1 else s) :=
    ((State.MadKept.refl s).setStat _ _).ite (.refl s)
  exact (hflag.setMad _).ite (hflag.setMad _).madDrop

theorem State.madStored_conv (s : State) (u : Fin 4) (ovr : Bool) (recd : Vector Cell 4) :
    (s.madStored u ovr recd).mad.conv = s.mad.conv.set u none := by
  unfold State.madStored
  cases ovr <;> simp only [Bool.false_eq_true, if_false, if_true] <;> split <;> rfl

theorem State.madUrgentDone_kept (s : State) (res : Word) : s.MadKept (s.madUrgentDone res) :=
  (((State.MadKept.refl s).setReg _).setF _ _).setF _ _

/-- The end of a unit's conversion: the corrected result goes to MAD_LAST of its channel, its record to the queue, and an
urgent one is told. -/
theorem State.madResult_ends {s : State} {u : Fin 4} {c : MadConv} (r : RawResult) (len : Nat) (lost : Bool)
    (h : s.mad.conv.get u = some c) : ∃ (w res : Word) (recd : Vector Cell 4),
      F.MAD_LAST_VALUE.get w = s.madValue c.ch r ∧
      s.madResult u r len lost =
        if c.urgent then (((s.setReg (R.MAD_LAST c.ch) w).madStored u r.ovr recd).madUrgentDone res).fire 45
        else (s.setReg (R.MAD_LAST c.ch) w).madStored u r.ovr recd := by
  unfold State.madResult
  rw [h]
  refine ⟨_, _, _, ?_, rfl⟩
  exact MAD_LAST_VALUE_of _ (ofSigned_lt 24 _)

/-- A scanned conversion that ends, beside its result, changes the converter alone. -/
theorem State.madResult_scanned {s : State} {u : Fin 4} {c : MadConv} (r : RawResult) (len : Nat) (lost : Bool)
    (h : s.mad.conv.get u = some c) (hc : c.urgent = false) : ∃ w : Word,
      F.MAD_LAST_VALUE.get w = s.madValue c.ch r ∧
      (s.setReg (R.MAD_LAST c.ch) w).MadKept (s.madResult u r len lost) ∧
      (s.madResult u r len lost).mad.conv = s.mad.conv.set u none := by
  obtain ⟨w, res, recd, hvalue, hends⟩ := State.madResult_ends r len lost h
  rw [hc, if_neg Bool.false_ne_true] at hends
  rw [hends]
  exact ⟨w, hvalue, State.madStored_kept _ u _ _, State.madStored_conv _ u _ _⟩

/-! The results of all units. -/

/-- The conversions that end at a boundary, unit by unit. -/
def State.madResults (s : State) (rs : Vector RawResult 4) (len : Nat) (lost : Bool) (l : List (Fin 4)) : State :=
  l.foldl (fun (t : State) (u : Fin 4) => t.madResult u (rs.get u) len lost) s

theorem State.madResults_idle {s : State} (rs : Vector RawResult 4) (len : Nat) (lost : Bool) {l : List (Fin 4)}
    (h : ∀ w ∈ l, s.mad.conv.get w = none) : s.madResults rs len lost l = s := by
  induction l with
  | nil => rfl
  | cons w l ih =>
    obtain ⟨hw, hl⟩ := List.forall_mem_cons.mp h
    rw [State.madResults, List.foldl_cons, State.madResult_idle _ _ _ hw]
    exact ih hl

/-- Where one unit converts, and no urgent request, its result is the boundary's only one. -/
theorem State.madResults_one {s : State} {u : Fin 4} {c : MadConv} (rs : Vector RawResult 4) (len : Nat) (lost : Bool)
    (h : s.mad.conv.get u = some c) (hidle : ∀ w, w ≠ u → s.mad.conv.get w = none) (hc : c.urgent = false) :
    s.madResults rs len lost (List.finRange 4) = s.madResult u (rs.get u) len lost := by
  obtain ⟨before, after, hl⟩ := List.append_of_mem (List.mem_finRange u)
  have hnodup := List.nodup_finRange 4
  rw [hl, List.nodup_append] at hnodup
  obtain ⟨-, hafter, hbefore⟩ := hnodup
  obtain ⟨-, -, -, hconv⟩ := State.madResult_scanned (rs.get u) len lost h hc
  have hfirst := State.madResults_idle rs len lost (l := before)
    (fun w hw => hidle w (hbefore w hw u List.mem_cons_self))
  have hrest := State.madResults_idle (s := s.madResult u (rs.get u) len lost) rs len lost (l := after) (fun w hw => by
    have hne : w ≠ u := fun e => (List.nodup_cons.mp hafter).1 (e ▸ hw)
    rw [hconv, vget_set_ne _ _ _ _ hne, hidle w hne])
  rw [State.madResults, hl, List.foldl_append, List.foldl_cons]
  exact (congrArg (fun t => (t.madResult u (rs.get u) len lost).madResults rs len lost after) hfirst).trans hrest

/-! The boundary (R196, R202). -/

/-- Nothing of memory has changed, nor what MAD_STAT tells of the line. -/
structure State.LineKept (s t : State) : Prop where
  cells : t.cells = s.cells
  line : ∀ f ∈ lineFlds, t.isSet R.MAD_STAT f = s.isSet R.MAD_STAT f

namespace State.LineKept

variable {s t u : State}

theorem refl (s : State) : s.LineKept s := ⟨rfl, fun _ _ => rfl⟩

theorem trans (h : s.LineKept t) (k : t.LineKept u) : s.LineKept u where
  cells := k.cells.trans h.cells
  line f hf := (k.line f hf).trans (h.line f hf)

theorem madKept (h : s.LineKept t) (k : t.MadKept u) : s.LineKept u :=
  h.trans ⟨by rw [k.rest], k.line⟩

theorem setLast (h : s.LineKept t) (ch : Nat) (w : Word) : s.LineKept (t.setReg (R.MAD_LAST ch) w) := by
  have hne : R.MAD_STAT ≠ R.MAD_LAST ch := by unfold R.MAD_STAT R.MAD_LAST; omega
  exact h.trans ⟨rfl, fun f _ => congrArg (fun v => f.get v == 1) (State.reg_setReg_ne _ _ _ _ hne)⟩

theorem fire (h : s.LineKept t) (src : Nat) : s.LineKept (t.fire src) :=
  h.trans ⟨by rw [(t.fire_only src).rest], fun f _ =>
    congrArg (fun v => f.get v == 1) (t.fire_reg src R.MAD_STAT (by decide))⟩

theorem madResult (h : s.LineKept t) (w : Fin 4) (r : RawResult) (len : Nat) (lost : Bool) :
    s.LineKept (t.madResult w r len lost) := by
  cases hw : t.mad.conv.get w with
  | none => rwa [State.madResult_idle r len lost hw]
  | some c =>
    obtain ⟨v, res, recd, -, hends⟩ := State.madResult_ends r len lost hw
    have hstored := (h.setLast c.ch v).madKept (State.madStored_kept _ w r.ovr recd)
    rw [hends]
    split
    · exact (hstored.madKept (State.madUrgentDone_kept _ res)).fire 45
    · exact hstored

theorem madResults (h : s.LineKept t) (rs : Vector RawResult 4) (len : Nat) (lost : Bool) (l : List (Fin 4)) :
    s.LineKept (t.madResults rs len lost l) :=
  foldl_keeps _ _ _ t h (fun _ w hu => hu.madResult w (rs.get w) len lost)

end State.LineKept

/-- The length of the integration that a boundary ends. -/
def State.madLen (s : State) : Nat := match s.mad.last with | some t => (s.clock - t) / 1500 | none => 0

/-- MAD_PERIOD takes the length of an integration that has ended. -/
def State.madTimed (s : State) (last : Option Nat) (len : Nat) : State :=
  match last with
  | some _ => s.setReg R.MAD_PERIOD (BitVec.ofNat 32 (len % 2 ^ 17))
  | none => s

theorem State.madTimed_kept (s : State) (last : Option Nat) (len : Nat) : s.MadKept (s.madTimed last len) := by
  cases last with
  | none => exact .refl s
  | some t => exact (State.MadKept.refl s).setReg _

/-- After its results a boundary changes the converter alone: it is counted from the present time, and none is due. -/
theorem State.madBoundary_after (s : State) (rs : Vector RawResult 4) (lost : Bool) :
    (s.madResults rs s.madLen lost (List.finRange 4)).MadKept (s.madBoundary rs lost) ∧
    (s.madBoundary rs lost).mad.last = some s.clock ∧ (s.madBoundary rs lost).mad.due = false := by
  have htimed := (s.madResults rs s.madLen lost (List.finRange 4)).madTimed_kept s.mad.last s.madLen
  exact ⟨(((htimed.setMad _).setF _ _).ite htimed |>.setMad _).madShow, rfl, rfl⟩

/-- A boundary at which one scanned conversion ends: its corrected result is in MAD_LAST, and the converter alone changes. -/
theorem State.madBoundary_one {s : State} {u : Fin 4} {c : MadConv} (rs : Vector RawResult 4) (lost : Bool)
    (h : s.mad.conv.get u = some c) (hidle : ∀ w, w ≠ u → s.mad.conv.get w = none) (hc : c.urgent = false) :
    F.MAD_LAST_VALUE.get ((s.madBoundary rs lost).reg (R.MAD_LAST c.ch)) = s.madValue c.ch (rs.get u) ∧
    s.madBoundary rs lost = { s with regs := (s.madBoundary rs lost).regs, mad := (s.madBoundary rs lost).mad } := by
  obtain ⟨w, hvalue, hstored, -⟩ := State.madResult_scanned (rs.get u) s.madLen lost h hc
  have hafter := (s.madBoundary_after rs lost).1
  rw [State.madResults_one rs s.madLen lost h hidle hc] at hafter
  have hkept := hstored.trans hafter
  refine ⟨?_, hkept.rest⟩
  rw [hkept.last, State.reg_setReg_self, hvalue]

/-- A boundary that is due where a unit is enabled (R196). -/
theorem State.madTick_due {s : State} (rs : Vector RawResult 4) (hmode : s.mode ≠ mdStabled) (hdue : s.madDue = true)
    (hen : s.getF R.MAD_CTRL F.MAD_CTRL_EN ≠ 0) : s.madTick rs = s.madBoundary rs (s.madLost || s.mad.relock) := by
  have hany : s.madAny = true := bne_iff_ne.mpr hen
  simp only [State.madTick, beq_eq_false_iff_ne.mpr hmode, hdue, hany, Bool.not_true, Bool.or_self, Bool.false_eq_true,
    if_false, if_true]

/-! A lost line (R197). -/

/-- What MAD_STAT tells once the line is lost. -/
def State.madLose (s : State) : State :=
  ((s.setF R.MAD_STAT F.MAD_STAT_LINE_LOST 1).setF R.MAD_STAT F.MAD_STAT_LINE_LOST_F 1).setF R.MAD_STAT
    F.MAD_STAT_LOCKED 0

theorem State.madLose_shows (s : State) : s.madLose.isSet R.MAD_STAT F.MAD_STAT_LINE_LOST = true ∧
    s.madLose.isSet R.MAD_STAT F.MAD_STAT_LINE_LOST_F = true ∧ s.madLose.isSet R.MAD_STAT F.MAD_STAT_LOCKED = false :=
  ⟨State.isSet_setF_keeps (State.isSet_setF_keeps (s.isSet_setF_one _ _)),
    State.isSet_setF_keeps (State.isSet_setF_one _ _ _), State.isSet_setF_zero _ _ _⟩

/-- No crossing in time after the last boundary: the line is lost, which is a boundary. -/
theorem State.lineLost_late {s : State} {a : Nat} (rs : Vector RawResult 4) (hmode : s.mode ≠ mdStabled)
    (hmark : s.mad.mark = some a) (hlate : a + 100000500 ≤ s.clock) (hdue : s.mad.due = false) (hline : s.madLine = true)
    (hlocked : s.madLocked = true) (hen : s.getF R.MAD_CTRL F.MAD_CTRL_EN ≠ 0) :
    s.lineLost rs = s.madLose.madBoundary rs true := by
  have hany : s.madAny = true := bne_iff_ne.mpr hen
  simp only [State.lineLost, hline, hlocked, hany, beq_eq_false_iff_ne.mpr hmode, hdue, hmark, decide_eq_true hlate,
    Bool.not_true, Bool.or_self, Bool.false_eq_true, if_false, State.madLose]

end Machine
end Sys2Proof
end

section
/-! PROOFS. The metering converter: records in Plain (R201). -/

namespace Sys2Proof
namespace Machine

/-- A write on chip outside the copies leaves the converter as it was. -/
theorem State.mad_wr (s : State) (w : Option (Fin 13)) {a : Nat} (c : Cell) (hm : inMain a = false)
    (hc : inCopy a = false) : (s.wr w a c).mad = s.mad := by
  rw [s.wr_onChip w c hm, State.setCell_only _ a c hc, ((s.clearMark a).breakResv_haltsKept w a).rest]
  rfl

/-- The cells of a record are written from address `a`, those that `l` names. -/
def State.wrRecord (s : State) (a : Nat) (r : Vector Cell 4) (l : List (Fin 4)) : State :=
  l.foldl (fun (u : State) (i : Fin 4) => u.wr none (a + 4 * i.val) (r.get i)) s

/-- A record written on chip outside the copies: each of its cells reads what was written, and no other cell changes. -/
theorem State.wrRecord_shows (s : State) {a : Nat} (r : Vector Cell 4) (l : List (Fin 4)) (h4 : a % 4 = 0)
    (hplace : ∀ i : Fin 4, inMain (a + 4 * i) = false ∧ inCopy (a + 4 * i) = false) :
    (∀ i ∈ l, (s.wrRecord a r l).cell (a + 4 * i) = r.get i) ∧
    (∀ b, (∀ i ∈ l, b / 4 ≠ (a + 4 * i.val) / 4) → (s.wrRecord a r l).cell b = s.cell b) ∧
    (s.wrRecord a r l).mad = s.mad := by
  induction l generalizing s with
  | nil => exact ⟨fun _ hi => absurd hi List.not_mem_nil, fun _ _ => rfl, rfl⟩
  | cons j l ih =>
    obtain ⟨hm, hc⟩ := hplace j
    obtain ⟨hcell, hother⟩ := s.cell_wr none (r.get j) hm hc
    obtain ⟨hcells, hkept, hmad⟩ := ih (s.wr none (a + 4 * j) (r.get j))
    refine ⟨fun i hi => ?_, fun b hb => ?_, hmad.trans (s.mad_wr none _ hm hc)⟩
    · by_cases hil : i ∈ l
      · exact hcells i hil
      · obtain rfl : i = j := (List.mem_cons.mp hi).resolve_right hil
        refine (hkept _ fun k hk => ?_).trans hcell
        have hne : i.val ≠ k.val := fun e => hil (Fin.ext e ▸ hk)
        omega
    · obtain ⟨hj, hl⟩ := List.forall_mem_cons.mp hb
      exact (hkept b hl).trans (hother b hj)

/-- The watermark's event changes no cell, nothing of the converter, and no register outside the router. -/
theorem State.wmark_only (s t : State) : RouterOnly t (s.wmark t) := .ite (t.fire_only 44) (.refl t)

/-- The oldest queued record goes to its place in a buffer that is not full, and WIDX advances. -/
theorem State.madRecord_queued {s : State} {r : Vector Cell 4} {q : List (Vector Cell 4)} {a : Nat}
    (hq : s.mad.queue = r :: q)
    (ha : a = 0x0E000000 + 16 * s.getF R.MAD_BUF F.MAD_BUF_BASE + 16 * s.getF R.MAD_WIDX F.MAD_WIDX_INDEX)
    (hfull : (s.getF R.MAD_WIDX F.MAD_WIDX_INDEX + 1) % 2 ^ s.getF R.MAD_BUF F.MAD_BUF_LOG2LEN ≠
      s.getF R.MAD_RIDX F.MAD_RIDX_INDEX) :
    s.madRecord = s.wmark (((s.setMad { s.mad with queue := q }).wrRecord a r (List.finRange 4)).setF R.MAD_WIDX
      F.MAD_WIDX_INDEX ((s.getF R.MAD_WIDX F.MAD_WIDX_INDEX + 1) % 2 ^ s.getF R.MAD_BUF F.MAD_BUF_LOG2LEN)) := by
  simp only [State.madRecord, hq, beq_eq_false_iff_ne.mpr hfull, Bool.false_eq_true, if_false, ha, State.wrRecord]

end Machine
end Sys2Proof
end

section
/-! PROOFS. The metering converter: the statement of chapter 12. -/

namespace Sys2Proof
namespace Machine

/-- Settles O16: each clause by what its command does to the converter, and its frame. -/
theorem meteringConverter : Obligations.MeteringConverter := by
  refine ⟨?crossing, ?early, ?boundary, ?lost, ?record, ?urgent, ?settled, ?fault, ?enable, ?scan⟩
  case crossing =>
    intro s a hmode hline hc hlo hhi
    refine ⟨_, rfl, ?_⟩
    rw [State.zeroCrossing_accepted (beq_iff_eq.mpr hline) hmode hc hlo hhi]
    exact ⟨State.isSet_setF_keeps (State.isSet_setF_one _ _ _), State.isSet_setF_zero _ _ _, rfl, rfl, rfl, rfl⟩
  case early =>
    intro s a hc h
    exact ⟨_, rfl, State.zeroCrossing_early hc h⟩
  case boundary =>
    intro s rs u cv hmode hen hdue hconv hidle _ hurgent
    refine ⟨_, rfl, ?_⟩
    rw [State.madTick_due rs hmode hdue hen]
    obtain ⟨hvalue, hrest⟩ := State.madBoundary_one rs (s.madLost || s.mad.relock) hconv hidle hurgent
    exact ⟨hvalue, rfl, rfl, hrest⟩
  case lost =>
    intro s rs a hmode hmark hlate hdue hline hlocked hen
    refine ⟨_, rfl, ?_⟩
    rw [State.lineLost_late rs hmode hmark hlate hdue (beq_iff_eq.mpr hline) hlocked hen]
    obtain ⟨hkept, hlast, -⟩ := s.madLose.madBoundary_after rs true
    obtain ⟨hcells, hflds⟩ := ((State.LineKept.refl _).madResults rs _ true (List.finRange 4)).madKept hkept
    obtain ⟨hlost, hflag, hunlocked⟩ := s.madLose_shows
    exact ⟨(hflds _ (by decide)).trans hlost, (hflds _ (by decide)).trans hflag, (hflds _ (by decide)).trans hunlocked,
      hlast, hcells⟩
  case record =>
    intro s r q a hq ha hend hfull hlen
    refine ⟨_, rfl, ?_⟩
    rw [State.madRecord_queued hq ha hfull]
    have hplace (i : Fin 4) : inMain (a + 4 * i) = false ∧ inCopy (a + 4 * i) = false := by
      simp only [inMain, inCopy, Bool.and_eq_false_iff, decide_eq_false_iff_not]
      omega
    obtain ⟨hcells, hkept, hmad⟩ :=
      (s.setMad { s.mad with queue := q }).wrRecord_shows r (List.finRange 4) (by omega) hplace
    have hindex : (s.getF R.MAD_WIDX F.MAD_WIDX_INDEX + 1) % 2 ^ s.getF R.MAD_BUF F.MAD_BUF_LOG2LEN < 2 ^ 16 :=
      Nat.lt_of_lt_of_le (Nat.mod_lt _ (Nat.two_pow_pos _)) (Nat.pow_le_pow_right (by decide) (by omega))
    generalize hw : State.setF _ R.MAD_WIDX _ _ = t
    have honly := s.wmark_only t
    have hcell (b : Nat) : (s.wmark t).cell b = t.cell b := by rw [honly.rest]; rfl
    refine ⟨fun i => ?_, ?_, ?_, fun b hb => ?_⟩
    · rw [hcell, ← hw]
      exact hcells i (List.mem_finRange i)
    · rw [honly.rest, ← hw]
      exact congrArg MadSt.queue hmad
    · rw [State.getF, honly.regs _ (by decide), ← hw]
      exact State.getF_setF_of_lt _ _ _ _ (by decide) hindex
    · rw [hcell, ← hw]
      exact hkept b (fun i _ => by omega)
  case urgent =>
    rintro s x v ch hr hreq rfl hch hpend hen hline
    have hmay : (s.madLine && !s.madLocked) = false := by
      rcases hline with h | h
      · rw [State.madLine, beq_eq_false_iff_ne.mpr h, Bool.false_and]
      · rw [State.madLocked, h, Bool.not_true, Bool.and_false]
    have hwidth : F.MAD_URG_CH.get v < 2 ^ F.MAD_URG_STAT_CH.width := Fld.get_lt F.MAD_URG_CH v
    refine ⟨_, rfl, ?_⟩
    rw [State.write_MAD_URG v hr, State.madUrgent_accepted hreq hch hpend hen hmay]
    refine ⟨State.isSet_setF_one _ _ _, ?_, ?_, rfl, rfl⟩
    · rw [State.getF_setF_fld _ _ _ _ _ (by decide) (by decide), State.setMad_getF, State.getF_setF _ _ _ _ (by decide)]
      rfl
    · rw [State.getF_setF_fld _ _ _ _ _ (by decide) (by decide), State.setMad_getF,
        State.getF_setF_fld _ _ _ _ _ (by decide) (by decide),
        State.getF_setF_of_lt _ _ _ _ (by decide) hwidth]
  case settled =>
    intro s hmode
    refine ⟨_, rfl, ?_⟩
    rw [State.refSettled_powered hmode]
    exact ⟨State.isSet_setF_keeps (s.isSet_setF_one _ _), State.isSet_setF_zero _ _ _, rfl⟩
  case fault =>
    intro s hmode hext
    refine ⟨_, rfl, ?_⟩
    rw [State.refFault_ext hmode hext]
    exact ⟨State.isSet_setF_keeps (State.isSet_setF_keeps (s.isSet_setF_zero _ _)),
      State.isSet_setF_keeps (State.isSet_setF_one _ _ _), State.isSet_setF_one _ _ _, rfl⟩
  case enable =>
    intro s x v hr hp hen href
    obtain ⟨s0, m, newRef, hs0, hwrite⟩ := State.madCtrlWrite_idle hp hen href
    refine ⟨_, rfl, ?_⟩
    rw [State.write_MAD_CTRL v hr, hwrite]
    refine ⟨?_, fun hfirst => ?_, ?_⟩
    · rw [State.madShow, State.reg_setB_ne _ _ _ _ _ (by decide), State.madUnsettle_reg _ _ _ (by decide),
        State.setMad_reg, State.reg_setReg_self]
    · rw [bne_iff_ne.mpr hfirst]
      exact State.isSet_setF_keeps (State.madUnsettle_settled _ newRef)
    · have hrest := ((s0.setReg R.MAD_CTRL (v &&& 0x0F310F0F)).setMad m).madUnsettle_rest (F.MAD_CTRL_EN.get v != 0) newRef
      rw [hrest, hs0]
      rfl
  case scan =>
    intro s x v hr hp
    refine ⟨_, rfl, ?_⟩
    rw [State.write_MAD_SCAN v hr, State.madScanWrite, if_neg hp]
    exact ⟨State.reg_setReg_self _ _ _, rfl, rfl⟩

end Machine
end Sys2Proof
end

section
-- One proof after the other from here on: many proofs at once take more memory than the check grants.
set_option Elab.async false

section
/-! PROOFS. The decoder of the core drops no bit of a word: the word can be written again from the instruction (R208, R218, R220). -/

namespace Sys2Proof
namespace Machine

/-- The low w bits of an offset, displacement or immediate: those of the word, since prefixes come before them (R220). -/
def Kn.low (i : Kn) (w : Nat) : Nat := (i.v % ((2 ^ w : Nat) : Int)).toNat

/-- The word of a control instruction whose operation stands in none of the tables of operations (R218, R219). -/
def Kn.ctlWord (i : Kn) : Nat :=
  match i.op with
  | .nop => 0x3000 | .ret => 0x3001 | .fret => 0x3002 | .gret => 0x3003 | .rfe => 0x3004 | .lock => 0x3005 | .fence => 0x3006
  | .wfe => 0x3007 | .pusha => 0x3008 | .popa => 0x3009 | .pushx => 0x300A | .popx => 0x300B | .pushy => 0x300C
  | .popy => 0x300D | .tax => 0x3010 | .txa => 0x3011 | .tay => 0x3012 | .tya => 0x3013 | .swxy => 0x3014 | .rdsp => 0x3018
  | .wdsp => 0x3019 | .rpg => 0x301A | .wpg => 0x301B | .rdtag => 0x301C | .rdtime => 0x3020
  | .pfx => 0x3100 + i.low 8
  | .ldia => 0x3200 + i.low 6 | .ldix => 0x3240 + i.low 6 | .ldiy => 0x3280 + i.low 6 | .addia => 0x32C0 + i.low 6
  | .loop => 0x3300 + 32 * i.m + (i.n - 1)
  | .lea => 0x3400 + 64 * i.m + i.low 6
  | .sc => 0x3500 + 64 * i.m + i.low 6
  | .pstore => 0x3600
  | .jump => 0x3700 + i.low 6 | .call => 0x3740 + i.low 6 | .jumpx => 0x3780 | .callx => 0x37C0
  | .fcall => 0x3800 + i.n | .gate => 0x3900 + i.n
  | .cmov => 0x3B00 + 8 * i.d + i.n | .capsw => 0x3B40 + i.n | .ctst => 0x3B80 + i.n
  | .retag => 0x3D00 + 16 * i.m + i.n | .dsadj => 0x3D40 + i.low 6
  | .att => 0x3F00 + i.n
  | _ => 0

/-- The word of an instruction (R208): of one in a table of operations by its place there, of any other by `ctlWord`. -/
def Kn.word (i : Kn) : Nat :=
  if i.op ∈ legacyOps then 512 * i.m + 64 * legacyOps.idxOf i.op + i.low 6
  else if i.op ∈ memOps then 0x1000 + 256 * memOps.idxOf i.op + 64 * i.m + i.low 6
  else if i.op ∈ branchOps then 0x2000 + 512 * branchOps.idxOf i.op + 128 * i.m + i.low 7
  else if i.op ∈ capOps then 0x3A00 + 32 * capOps.idxOf i.op + i.n
  else if i.op ∈ longOps then 0x3C00 + 16 * longOps.idxOf i.op
  else if i.op ∈ narrowOps then 0x3E00 + 32 * narrowOps.idxOf i.op + i.low 5
  else i.ctlWord

/-! Fields. -/

theorem toNat_natCast_emod (a b : Nat) : ((a : Int) % (b : Int)).toNat = a % b := by
  rw [← Int.natCast_emod, Int.toNat_natCast]

theorem low_natCast {i : Kn} {x w : Nat} (h : i.v = (x : Int)) : i.low w = x % 2 ^ w := by
  rw [Kn.low, h, toNat_natCast_emod]

/-- Prefixes stand above the bits of the word, which an unsigned field keeps. -/
theorem low_ufield {i : Kn} {ps : List Nat} {w f : Nat} (h : i.v = ufield ps w f) (hw : w ≤ 32) (hf : f < 2 ^ w) :
    i.low w = f := by
  rw [low_natCast h, Nat.mod_mod_of_dvd _ (Nat.pow_dvd_pow 2 hw), Nat.mul_add_mod_self_right, Nat.mod_eq_of_lt hf]

/-- The value of a signed number agrees with its bits modulo any lower power of two. -/
theorem toSigned_emod {w k : Nat} (x : Nat) (hw : w ≤ k) : (toSigned k x % ((2 ^ w : Nat) : Int)).toNat = x % 2 ^ w := by
  have hdvd : 2 ^ w ∣ 2 ^ k := Nat.pow_dvd_pow 2 hw
  have hlow : (((x % 2 ^ k : Nat) : Int) % ((2 ^ w : Nat) : Int)).toNat = x % 2 ^ w := by
    rw [toNat_natCast_emod, Nat.mod_mod_of_dvd _ hdvd]
  unfold toSigned
  dsimp only
  split
  · exact hlow
  · rw [Int.sub_emod, Int.emod_eq_zero_of_dvd (Int.natCast_dvd_natCast.mpr hdvd), Int.sub_zero, Int.emod_emod, hlow]

theorem low_sfield {i : Kn} {ps : List Nat} {w f : Nat} (h : i.v = sfield ps w f) (hw : w ≤ 32) (hf : f < 2 ^ w) :
    i.low w = f := by
  rw [Kn.low, h, sfield, toSigned_emod _ (by omega), Nat.mul_add_mod_self_right, Nat.mod_eq_of_lt hf]

theorem bare_eq_some {ps : List Nat} {k i : Kn} (h : bare ps k = some i) : i = k := by
  unfold bare at h
  split at h
  · exact (Option.some.inj h).symm
  · cases h

/-- The place of an operation that a table of distinct operations gives. -/
theorem idxOf_of_getElem? {l : List KOp} (hl : l.Nodup) {k : Nat} {op : KOp} (h : l[k]? = some op) : l.idxOf op = k := by
  obtain ⟨hk, rfl⟩ := List.getElem?_eq_some_iff.mp h
  exact hl.idxOf_getElem k hk

/-! The words of the tables of operations. -/

/-- Two tables of operations have no operation in common. -/
theorem not_mem_of_table {l l' : List KOp} {k : Nat} {op : KOp} (h : l[k]? = some op) (hl : ∀ x ∈ l, x ∉ l') : op ∉ l' :=
  hl op (List.mem_of_getElem? h)

section

variable {i : Kn} {k : Nat}

theorem word_legacyOp (h : legacyOps[k]? = some i.op) : i.word = 512 * i.m + 64 * k + i.low 6 := by
  rw [Kn.word, if_pos (List.mem_of_getElem? h), idxOf_of_getElem? (by decide) h]

theorem word_memOp (h : memOps[k]? = some i.op) : i.word = 0x1000 + 256 * k + 64 * i.m + i.low 6 := by
  rw [Kn.word, if_neg (not_mem_of_table h (by decide)), if_pos (List.mem_of_getElem? h), idxOf_of_getElem? (by decide) h]

theorem word_branchOp (h : branchOps[k]? = some i.op) : i.word = 0x2000 + 512 * k + 128 * i.m + i.low 7 := by
  rw [Kn.word, if_neg (not_mem_of_table h (by decide)), if_neg (not_mem_of_table h (by decide)),
    if_pos (List.mem_of_getElem? h), idxOf_of_getElem? (by decide) h]

theorem word_capOp (h : capOps[k]? = some i.op) : i.word = 0x3A00 + 32 * k + i.n := by
  rw [Kn.word, if_neg (not_mem_of_table h (by decide)), if_neg (not_mem_of_table h (by decide)),
    if_neg (not_mem_of_table h (by decide)), if_pos (List.mem_of_getElem? h), idxOf_of_getElem? (by decide) h]

theorem word_longOp (h : longOps[k]? = some i.op) : i.word = 0x3C00 + 16 * k := by
  rw [Kn.word, if_neg (not_mem_of_table h (by decide)), if_neg (not_mem_of_table h (by decide)),
    if_neg (not_mem_of_table h (by decide)), if_neg (not_mem_of_table h (by decide)), if_pos (List.mem_of_getElem? h),
    idxOf_of_getElem? (by decide) h]

theorem word_narrowOp (h : narrowOps[k]? = some i.op) : i.word = 0x3E00 + 32 * k + i.low 5 := by
  rw [Kn.word, if_neg (not_mem_of_table h (by decide)), if_neg (not_mem_of_table h (by decide)),
    if_neg (not_mem_of_table h (by decide)), if_neg (not_mem_of_table h (by decide)),
    if_neg (not_mem_of_table h (by decide)), if_pos (List.mem_of_getElem? h), idxOf_of_getElem? (by decide) h]

end

/-! The word of what a word decodes to. -/

theorem word_ctlOp {o : Nat} {i : Kn} (h : ctlOp o = some i.op) : i.word = 0x3000 + o := by
  obtain ⟨op, m, v, n, d⟩ := i
  unfold ctlOp at h
  split at h <;> cases h <;> rfl

theorem word_immediate {o b : Nat} {ps : List Nat} {i : Kn} (hi : i.word = b + i.low 6) (hv : i.v = sfield ps 6 (o % 64)) :
    i.word = b + o % 64 := by
  rw [hi, low_sfield hv (by decide) (Nat.mod_lt _ (by decide))]

theorem word_offset {o b w : Nat} {ps : List Nat} {i : Kn} (hw : w ≤ 32) (hi : i.word = b + i.low w)
    (hv : i.v = ufield ps w (o % 2 ^ w)) : i.word = b + o % 2 ^ w := by
  rw [hi, low_ufield hv hw (Nat.mod_lt _ (Nat.two_pow_pos w))]

theorem topQuarter {o : Nat} (ho : o < 256) (h0 : o / 64 ≠ 0) (h1 : o / 64 ≠ 1) (h2 : o / 64 ≠ 2) : o / 64 = 3 := by omega

/-- A control word is the word of its instruction, group by group (R218). -/
theorem word_decodeCtl {g o : Nat} {ps : List Nat} {i : Kn} (ho : o < 256) (h : decodeCtl g o ps = some i) :
    i.word = 0x3000 + 256 * g + o := by
  unfold decodeCtl at h
  split at h
  case h_1 =>
    obtain ⟨k, hk, h⟩ := Option.bind_eq_some_iff.mp h
    cases bare_eq_some h
    rw [word_ctlOp hk]
  case h_2 =>
    cases h
    exact congrArg (0x3100 + ·) ((low_natCast rfl).trans (Nat.mod_eq_of_lt ho))
  case h_3 =>
    dsimp only at h
    split at h
    case h_4 h0 h1 h2 =>
      have hquarter := topQuarter ho h0 h1 h2
      cases h
      rw [word_immediate rfl rfl]
      omega
    all_goals
      cases h
      rw [word_immediate rfl rfl]
      omega
  case h_4 =>
    dsimp only at h
    split at h
    · cases bare_eq_some h
      change 0x3300 + 32 * 0 + (o % 32 + 1 - 1) = _
      omega
    · cases bare_eq_some h
      change 0x3300 + 32 * 1 + (o % 32 + 1 - 1) = _
      omega
    · split at h <;> cases h
      change 0x3300 + 32 * 2 + (o % 32 + 1 - 1) = _
      omega
    · cases h
  case h_5 | h_6 =>
    cases h
    rw [word_offset (w := 6) (by decide) rfl rfl]
    dsimp only
    omega
  case h_7 =>
    split at h
    · cases bare_eq_some h
      change 0x3600 = _
      omega
    · cases h
  case h_8 =>
    split at h
    case h_1 | h_2 =>
      cases h
      rw [word_immediate rfl rfl]
      omega
    case h_3 =>
      split at h
      · cases bare_eq_some h
        change 0x3780 = _
        omega
      · cases h
    case h_4 h0 h1 h2 =>
      have hquarter := topQuarter ho h0 h1 h2
      split at h
      · cases bare_eq_some h
        change 0x37C0 = _
        omega
      · cases h
  case h_9 | h_10 =>
    split at h
    · cases bare_eq_some h
      rfl
    · cases h
  case h_11 =>
    split at h
    · obtain ⟨k, hk, h⟩ := Option.bind_eq_some_iff.mp h
      cases bare_eq_some h
      rw [word_capOp hk]
      dsimp only
      omega
    · cases h
  case h_12 =>
    split at h
    · cases bare_eq_some h
      change 0x3B00 + 8 * (o / 8 % 8) + o % 8 = _
      omega
    · split at h
      · cases bare_eq_some h
        change 0x3B40 + o % 8 = _
        omega
      · cases h
    · split at h
      · cases bare_eq_some h
        change 0x3B80 + o % 8 = _
        omega
      · cases h
    · cases h
  case h_13 =>
    split at h
    · obtain ⟨k, hk, h⟩ := Option.bind_eq_some_iff.mp h
      cases bare_eq_some h
      rw [word_longOp hk]
      omega
    · cases h
  case h_14 =>
    split at h
    · dsimp only at h
      split at h
      · cases h
      · cases bare_eq_some h
        change 0x3D00 + 16 * (o / 16) + o % 16 = _
        omega
    · cases h
      rw [word_immediate rfl rfl]
      omega
    · cases h
  case h_15 =>
    obtain ⟨k, hk, rfl⟩ := Option.map_eq_some_iff.mp h
    rw [word_narrowOp hk, low_ufield rfl (by decide) (Nat.mod_lt _ (by decide))]
    omega
  case h_16 =>
    split at h
    · cases h
    · cases bare_eq_some h
      rfl
  case h_17 => cases h

/-- No bit of an encoding is dropped: the instruction gives its word back (R208). -/
theorem word_knDecode {w : Nat} {ps : List Nat} {i : Kn} (h : knDecode w ps = some i) : i.word = w := by
  unfold knDecode at h
  split at h
  case h_1 =>
    obtain ⟨k, hk, h⟩ := Option.bind_eq_some_iff.mp h
    cases bare_eq_some h
    rw [word_legacyOp hk, low_natCast rfl]
    dsimp only
    omega
  case h_2 =>
    obtain ⟨k, hk, rfl⟩ := Option.map_eq_some_iff.mp h
    rw [word_memOp hk, low_ufield rfl (by decide) (Nat.mod_lt _ (by decide))]
    dsimp only
    omega
  case h_3 =>
    obtain ⟨k, hk, rfl⟩ := Option.map_eq_some_iff.mp h
    rw [word_branchOp hk, low_sfield rfl (by decide) (Nat.mod_lt _ (by decide))]
    dsimp only
    omega
  case h_4 =>
    rw [word_decodeCtl (Nat.mod_lt _ (by decide)) h]
    omega
  case h_5 => cases h

/-- Settles O60: the word can be written again from the instruction that it decodes to. -/
theorem coreDecodeInjective : Obligations.CoreDecodeInjective := by
  unfold Obligations.CoreDecodeInjective
  intro ps w w' i _ _ h h'
  rw [← word_knDecode h, word_knDecode h']

end Machine
end Sys2Proof
end

section
/-! PROOFS. A load whose capability is no valid quad (R232, R247): KC_FADDR holds the operand's address for ALIGN, BOUNDS, PERM and
TAG, and 0 otherwise (chapter 15). -/

namespace Sys2Proof
namespace Machine

/-- All of program memory, with EXEC. -/
def wholeProgram : Quad := ⟨⟨0, tagCap⟩, ⟨0x20000, tagCap⟩, ⟨4, tagCap⟩, ⟨0x40000000, tagCap⟩⟩

/-- The system pair of a started module before word `w` at program address 0, C0 of every set being all of program memory and every
other capability register EMPTY. -/
def bareSystem (w : PWord) : State :=
  let s := (State.reset.setF R.DEV_MODE F.DEV_MODE_MODE mdHosted).setF R.DEV_BOOT_STAT F.DEV_BOOT_STAT_DONE 1
  let r := { resetRegsK with sets := .replicate 8 { emptySet with c := emptySet.c.set 0 wholeProgram } }
  (s.setCore 12 { resetCore with halted := false, r := r }).setProgWord 12 0 w

/-- Refutes O17, by the clause of an LDA that a check of its operand refuses: it claims KC_FADDR = EA for every code. With C1 EMPTY
the code is CAP_INVALID, for which KC_FADDR is 0, and LDA under mode 0 and OFF 1 has EA 4, in the boot ROM. -/
theorem not_coreLoads : ¬ Obligations.CoreLoads := by
  unfold Obligations.CoreLoads
  rintro ⟨-, -, -, -, -, hfault, -⟩
  obtain ⟨t, ht, hentry⟩ := hfault (bareSystem 0x1001) 12 ⟨.lda, 0, 1, 0, 0⟩ 1 4 fCapInvalid (by decide +kernel) rfl
    (by decide +kernel) (by decide +kernel) (by decide)
  have hclaimed : (((bareSystem 0x1001).fetched 12).faultEntry 12 fCapInvalid 4).reg (R.KC_FADDR 12) = 4 := by decide +kernel
  have hshown : ((bareSystem 0x1001).instr 12 .lda).reg (R.KC_FADDR 12) = 0 := by decide +kernel
  rw [← hentry, ← Host.Outcome.next.inj ht, hshown] at hclaimed
  exact absurd hclaimed (by decide)

end Machine
end Sys2Proof
end

section
/-! PROOFS. The arithmetic of each pair of tags, the load rule and the store rule (R211, R213, R214), and how the values of a
compare-and-branch are compared (R216). -/

namespace Sys2Proof
namespace Machine

/-! Saturation, halves of words, and integers as bit vectors. -/

theorem satS_eq (w : Nat) (x : Int) : satS w x = max (-((2 ^ (w - 1) : Nat) : Int)) (min (((2 ^ (w - 1) : Nat) : Int) - 1) x) := by
  have hpos := Nat.two_pow_pos (w - 1)
  simp only [satS]
  split
  · omega
  · split <;> omega

theorem satS_40 (x : Int) : satS 40 x = max (-(2 ^ 39)) (min (2 ^ 39 - 1) x) := satS_eq 40 x

theorem satS_16 (x : Int) : satS 16 x = max (-(2 ^ 15)) (min (2 ^ 15 - 1) x) := satS_eq 16 x

theorem clampI_eq {lo hi : Int} (h : lo ≤ hi) (x : Int) : clampI lo hi x = max lo (min hi x) := by
  unfold clampI
  split
  · omega
  · split <;> omega

/-- The value of a signed field of a word is that of the bit vector. -/
theorem toSigned_toNat {w : Nat} (x : BitVec w) : toSigned w x.toNat = x.toInt := by
  simp only [toSigned, Nat.mod_eq_of_lt x.isLt]
  cases w with
  | zero => simp [BitVec.of_length_zero]
  | succ n =>
    rw [BitVec.toInt_eq_toNat_cond, Nat.add_sub_cancel, Nat.pow_succ]
    split <;> split <;> omega

theorem toSigned_ofNat (w v : Nat) : toSigned w v = (BitVec.ofNat w v).toInt := by
  rw [← toSigned_toNat, BitVec.toNat_ofNat]
  simp only [toSigned, Nat.mod_mod]

/-- The low half of a word. -/
abbrev lowHalf (w : Word) : BitVec 16 := w.setWidth 16

/-- The high half of a word. -/
abbrev highHalf (w : Word) : BitVec 16 := (w >>> 16).setWidth 16

theorem q15lo_eq (w : Word) : q15lo w = (lowHalf w).toInt := by
  rw [q15lo, toSigned_ofNat, BitVec.ofNat_toNat]

theorem q15hi_eq (w : Word) : q15hi w = (highHalf w).toInt := by
  rw [q15hi, toSigned_ofNat]
  congr 1
  apply BitVec.eq_of_toNat_eq
  simp [Nat.shiftRight_eq_div_pow]

theorem ofSigned_toNat (w : Nat) (x : Int) : ofSigned w x = (BitVec.ofInt w x).toNat := by
  rw [ofSigned, BitVec.toNat_ofInt]

theorem pack16_eq (x y : Int) : pack16 x y = BitVec.ofInt 16 y ++ BitVec.ofInt 16 x := by
  apply BitVec.eq_of_toNat_eq
  have hx := (BitVec.ofInt 16 x).isLt
  have hy := (BitVec.ofInt 16 y).isLt
  rw [pack16, ofSigned_toNat, ofSigned_toNat, BitVec.toNat_ofNat, BitVec.toNat_append, ← Nat.shiftLeft_add_eq_or_of_lt hx,
    Nat.shiftLeft_eq]
  omega

theorem lowHalf_setWidth (a : BitVec 40) : lowHalf (a.setWidth 32) = a.setWidth 16 := BitVec.setWidth_setWidth_of_le _ (by decide)

theorem highHalf_setWidth (a : BitVec 40) : highHalf (a.setWidth 32) = (a >>> 16).setWidth 16 := by
  apply BitVec.eq_of_toNat_eq
  simp only [highHalf, BitVec.toNat_setWidth, BitVec.toNat_ushiftRight, Nat.shiftRight_eq_div_pow]
  omega

theorem ofInt_sub_eq {w : Nat} (x y : Int) : BitVec.ofInt w (x - y) = BitVec.ofInt w x - BitVec.ofInt w y := by
  rw [Int.sub_eq_add_neg, BitVec.ofInt_add, BitVec.ofInt_neg, ← BitVec.sub_eq_add_neg]

/-- A sum or a difference, modulo 2^w. -/
theorem ofInt_sum {w : Nat} (sub : Bool) (x y : Int) : BitVec.ofInt w (if sub then x - y else x + y) =
    if sub then BitVec.ofInt w x - BitVec.ofInt w y else BitVec.ofInt w x + BitVec.ofInt w y := by
  cases sub
  · exact BitVec.ofInt_add x y
  · exact ofInt_sub_eq x y

theorem ofInt_word (m : Word) : BitVec.ofInt 40 m.toInt = m.signExtend 40 := by
  rw [← BitVec.toInt_signExtend_of_le (by decide : 32 ≤ 40), BitVec.ofInt_toInt]

theorem ofInt_toNat {v w : Nat} (x : BitVec w) : BitVec.ofInt v (x.toNat : Int) = x.setWidth v := by
  rw [BitVec.ofInt_natCast, BitVec.ofNat_toNat]

/-! Sums. -/

theorem q31Sum_fits {x : Int} (hhi : x < 2 ^ 39) (hlo : -(2 ^ 39) ≤ x) : q31Sum x = .val (BitVec.ofInt 40 x) tagQ31 := by
  have hfits : fits40 x = true := by simp only [fits40, decide_eq_true hlo, decide_eq_true hhi, Bool.and_self]
  rw [q31Sum, if_pos hfits, aVal]

/-- Lane by lane, the lanes as 16-bit vectors. -/
theorem lanes_eq (f : Int → Int → Int) (a : BitVec 40) (m : Word) : lanes f a m =
    .val ((BitVec.ofInt 16 (f ((a >>> 16).setWidth 16 : BitVec 16).toInt ((m >>> 16).setWidth 16 : BitVec 16).toInt) ++
      BitVec.ofInt 16 (f (a.setWidth 16 : BitVec 16).toInt (m.setWidth 16 : BitVec 16).toInt) : BitVec 32).setWidth 40) tagFrac2 := by
  simp only [lanes, pack16_eq, q15lo_eq, q15hi_eq, lowHalf_setWidth, highHalf_setWidth]

section

variable (sub : Bool) (a : BitVec 40) (m : Word)

theorem kAdd_int : kAdd sub false a tagInt ⟨m, tagInt⟩ =
    .val (if sub then a - m.signExtend 40 else a + m.signExtend 40) tagInt := by
  change aVal (if sub then a.toInt - m.toInt else a.toInt + m.toInt) tagInt = _
  rw [aVal, ofInt_sum, BitVec.ofInt_toInt, ofInt_word]

theorem kAdd_uint : kAdd sub false a tagUint ⟨m, tagUint⟩ =
    .val (if sub then a - m.setWidth 40 else a + m.setWidth 40) tagUint := by
  change aVal (if sub then (a.toNat : Int) - m.toNat else (a.toNat : Int) + m.toNat) tagUint = _
  rw [aVal, ofInt_sum, ofInt_toNat, ofInt_toNat, BitVec.setWidth_eq]

theorem kAdd_raw {t u : BitVec 4} (ht : noValue t = false) (hu : noValue u = false) (hraw : t = tagRaw ∨ u = tagRaw) :
    kAdd sub false a t ⟨m, u⟩ = .val (if sub then a - m.setWidth 40 else a + m.setWidth 40) tagRaw ∧
      kAdd sub true a t ⟨m, u⟩ = .val (BitVec.ofInt 40 (max 0 (min (2 ^ 32 - 1)
        (if sub then (a.toNat : Int) - m.toNat else (a.toNat : Int) + m.toNat)))) tagRaw := by
  have hraw' : (t == tagRaw || u == tagRaw) = true := by simpa using hraw
  simp only [kAdd, ht, hu, hraw', Bool.or_self, Bool.false_eq_true, if_false, if_true, aVal, ofInt_sum, ofInt_toNat,
    BitVec.setWidth_eq, clampI_eq (show (0 : Int) ≤ 2 ^ 32 - 1 by decide), and_self]

end

/-! Products and the logic operations. -/

section

variable (a : BitVec 40) (x m : Word)

theorem kMul_raw {t u : BitVec 4} (ht : noValue t = false) (hu : noValue u = false) (hraw : t = tagRaw ∨ u = tagRaw) :
    kMul a t ⟨m, u⟩ = .val (BitVec.ofNat 40 (min (a.toNat * m.toNat) (2 ^ 40 - 1))) tagRaw := by
  have hraw' : (t == tagRaw || u == tagRaw) = true := by simpa using hraw
  simp only [kMul, ht, hu, hraw', Bool.or_self, Bool.false_eq_true, if_false, if_true, aVal, BitVec.ofInt_natCast]

theorem kMacx_raw {t u : BitVec 4} (ht : noValue t = false) (hu : noValue u = false) (hraw : t = tagRaw ∨ u = tagRaw) :
    kMacx a t ⟨x, u⟩ ⟨m, u⟩ = .val (BitVec.ofNat 40 (a.toNat + min (x.toNat * m.toNat) (2 ^ 40 - 1))) tagRaw := by
  have hraw' : (t == tagRaw || u == tagRaw || u == tagRaw) = true := by simpa using hraw
  simp only [kMacx, ht, hu, hraw', Bool.or_self, Bool.false_eq_true, if_false, if_true, aVal, BitVec.ofInt_natCast]

theorem kLogic_raw (f : BitVec 40 → BitVec 40 → BitVec 40) {t u : BitVec 4} (ht : noValue t = false) (hu : noValue u = false)
    (hraw : t = tagRaw ∨ u = tagRaw) : kLogic f a t ⟨m, u⟩ = .val (f a (m.setWidth 40)) tagRaw := by
  have hraw' : (t == tagRaw || u == tagRaw) = true := by simpa using hraw
  simp only [kLogic, ht, hu, hraw', Bool.or_self, Bool.false_eq_true, if_false, if_true]

end

/-! Which tags do not combine. -/

theorem aVal_ne_bad (x : Int) (t : BitVec 4) : aVal x t ≠ .bad := nofun

theorem lanes_ne_bad (f : Int → Int → Int) (a : BitVec 40) (m : Word) : lanes f a m ≠ .bad := nofun

theorem q31Sum_ne_bad (x : Int) : q31Sum x ≠ .bad := by
  unfold q31Sum
  split <;> nofun

theorem val_ne_bad (x : BitVec 40) (t : BitVec 4) : ARes.val x t ≠ .bad := nofun

/-- Whether a result chosen by a condition is bad is chosen by it. -/
theorem ite_eq_bad (c : Prop) [Decidable c] (x y : ARes) : ((if c then x else y) = .bad) = if c then x = .bad else y = .bad :=
  apply_ite (· = ARes.bad) c x y

theorem kAdd_eq_bad (sub sat : Bool) (a : BitVec 40) (m : Word) (t u : BitVec 4) : kAdd sub sat a t ⟨m, u⟩ = .bad ↔
    noValue t = true ∨ noValue u = true ∨ ¬ (t = tagRaw ∨ u = tagRaw ∨
      (t = u ∧ (t = tagInt ∨ t = tagUint ∨ t = tagQ31 ∨ t = tagFrac2)) ∨
      (sat = false ∧ u = tagInt ∧ (t = tagAddr ∨ t = tagCode ∨ t = tagTime)) ∨
      (sat = false ∧ sub = true ∧ t = u ∧ (t = tagAddr ∨ t = tagTime))) := by
  simp only [kAdd, ite_eq_bad, aVal_ne_bad, lanes_ne_bad, q31Sum_ne_bad, val_ne_bad, ite_self]
  revert t u
  cases sub <;> cases sat <;> decide +kernel

theorem kMul_eq_bad (a : BitVec 40) (m : Word) (t u : BitVec 4) : kMul a t ⟨m, u⟩ = .bad ↔
    noValue t = true ∨ noValue u = true ∨ ¬ (t = tagRaw ∨ u = tagRaw ∨
      (t = u ∧ (t = tagInt ∨ t = tagUint ∨ t = tagQ31 ∨ t = tagFrac2))) := by
  simp only [kMul, ite_eq_bad, aVal_ne_bad, lanes_ne_bad]
  revert t u
  decide +kernel

theorem kLogic_eq_bad (f : BitVec 40 → BitVec 40 → BitVec 40) (a : BitVec 40) (m : Word) (t u : BitVec 4) :
    kLogic f a t ⟨m, u⟩ = .bad ↔
      noValue t = true ∨ noValue u = true ∨ ¬ (t = tagRaw ∨ u = tagRaw ∨ (t = u ∧ (t = tagInt ∨ t = tagUint))) := by
  simp only [kLogic, ite_eq_bad, val_ne_bad]
  revert t u
  decide +kernel

theorem kMacx_eq_bad (a : BitVec 40) (x m : Word) (t v u : BitVec 4) : kMacx a t ⟨x, v⟩ ⟨m, u⟩ = .bad ↔
    noValue t = true ∨ noValue v = true ∨ noValue u = true ∨ ¬ (t = tagRaw ∨ v = tagRaw ∨ u = tagRaw ∨
      (t = tagInt ∧ v = tagInt ∧ u = tagInt) ∨ (t = tagQ31 ∧ v = u ∧ (u = tagQ31 ∨ u = tagFrac2))) := by
  simp only [kMacx, ite_eq_bad, aVal_ne_bad, q31Sum_ne_bad, Bool.or_eq_true, Bool.and_eq_true, beq_iff_eq]
  split_ifs <;> grind

theorem noValue_iff (t : BitVec 4) : noValue t = true ↔ t = tagEmpty ∨ (11 ≤ t.toNat ∧ t.toNat ≤ 14) := by
  revert t
  decide

theorem operandTag_eq_tag (q : Quad) (t : BitVec 4) : operandTag q t = some fTag ↔ noValue t = true ∨ t = tagCap := by
  unfold operandTag
  generalize q.perm pRaw = b
  revert b t
  decide

theorem operandTag_eq_perm (q : Quad) (t : BitVec 4) : operandTag q t = some fPerm ↔ t = tagRaw ∧ q.perm pRaw = false := by
  unfold operandTag
  generalize q.perm pRaw = b
  revert b t
  decide

/-! The load rule and the store rule. -/

theorem signedTag_eq (t : BitVec 4) : signedTag t = decide (t = tagInt ∨ t = tagQ31) := by
  revert t
  decide

theorem extendCell_eq (m : Word) (t : BitVec 4) :
    extendCell ⟨m, t⟩ = if t = tagInt ∨ t = tagQ31 then m.signExtend 40 else m.setWidth 40 := by
  simp only [extendCell, signedTag_eq, decide_eq_true_eq]

theorem storeWord_eq (a : BitVec 40) (t : BitVec 4) : storeWord a t =
    if t = tagInt ∨ t = tagQ31 then BitVec.ofInt 32 (max (-(2 ^ 31)) (min (2 ^ 31 - 1) a.toInt))
    else if t = tagUint then BitVec.ofNat 32 (min a.toNat (2 ^ 32 - 1)) else a.setWidth 32 := by
  simp only [storeWord, signedTag_eq, decide_eq_true_eq, satS_32, beq_iff_eq]

/-- Settles O19: each pair of tags chooses one branch of the operation, and its integers are read as bit vectors. -/
theorem tagArithmetic : Obligations.TagArithmetic := by
  unfold Obligations.TagArithmetic
  refine ⟨?sums, ?lanes, ?offsets, ?differences, ?products, ?macx, ?logic, ?raw, ?bad, ?macxBad, noValue_iff, ?operand, ?rules⟩
  case sums =>
    intro sub a m
    refine ⟨kAdd_int sub a m, kAdd_uint sub a m, fun hhi hlo => q31Sum_fits hhi hlo, ?_, ?_, ?_⟩
    · rw [← satS_32]
      rfl
    · rw [← satS_32]
      rfl
    · rw [← clampI_eq (show (0 : Int) ≤ 2 ^ 32 - 1 by decide)]
      rfl
  case lanes =>
    intro sub a m
    constructor
    · change lanes (fun x y => if sub then x - y else x + y) a m = _
      simp only [lanes_eq, ofInt_sum, BitVec.ofInt_toInt]
    · change lanes (fun x y => satS 16 (if sub then x - y else x + y)) a m = _
      simp only [lanes_eq, satS_16]
  case offsets =>
    intro sub a m t ht
    obtain rfl | rfl | rfl := ht <;> exact ⟨rfl, rfl, rfl, rfl⟩
  case differences => exact fun a m => ⟨rfl, rfl, rfl⟩
  case products =>
    intro a m
    refine ⟨?_, ?_, ?_, ?_⟩
    · rw [← satS_40]
      rfl
    · change aVal ((min (a.toNat * m.toNat) (2 ^ 40 - 1) : Nat) : Int) tagUint = _
      rw [aVal, BitVec.ofInt_natCast]
    · rw [← satS_40]
      rfl
    · change lanes (fun x y => satS 16 ((x * y + 2 ^ 14) / 2 ^ 15)) a m = _
      simp only [lanes_eq, satS_16]
  case macx =>
    intro a x m
    refine ⟨?_, fun hhi hlo => ?_, ?_⟩
    · rw [← satS_40]
      rfl
    · rw [← satS_40] at hhi hlo ⊢
      exact q31Sum_fits hhi hlo
    · rw [← satS_40, ← q15lo_eq, ← q15lo_eq, ← q15hi_eq, ← q15hi_eq]
      rfl
  case logic => exact fun a m => ⟨rfl, rfl, rfl, rfl, rfl, rfl⟩
  case raw =>
    intro sub a m x t u ht hu hraw
    obtain ⟨hadd, hsat⟩ := kAdd_raw sub a m ht hu hraw
    exact ⟨hadd, hsat, kMul_raw a m ht hu hraw, kMacx_raw a x m ht hu hraw, kLogic_raw a m _ ht hu hraw,
      kLogic_raw a m _ ht hu hraw, kLogic_raw a m _ ht hu hraw⟩
  case bad => exact fun sub sat f a m t u => ⟨kAdd_eq_bad sub sat a m t u, kMul_eq_bad a m t u, kLogic_eq_bad f a m t u⟩
  case macxBad => exact fun a x m t v u => kMacx_eq_bad a x m t v u
  case operand => exact fun q t => ⟨operandTag_eq_tag q t, operandTag_eq_perm q t⟩
  case rules => exact fun a m t => ⟨extendCell_eq m t, storeWord_eq a t⟩

/-! Comparisons. -/

section

variable {a b : Opnd} (op : KOp)

theorem compares_signed (h : a.tag = b.tag) (ht : a.tag = tagInt ∨ a.tag = tagQ31) :
    compares op a b = some (relation op (decide (a.x.toInt < b.x.toInt)) (a.x == b.x)) := by
  unfold compares
  rw [← h]
  obtain ht | ht := ht <;> rw [ht] <;> rfl

theorem compares_unsigned (h : a.tag = b.tag) (ht : a.tag = tagUint ∨ a.tag = tagAddr ∨ a.tag = tagCode) :
    compares op a b = some (relation op (decide (a.x.toNat < b.x.toNat)) (a.x == b.x)) := by
  unfold compares
  rw [← h]
  obtain ht | ht | ht := ht <;> rw [ht] <;> rfl

theorem compares_raw (ha : noValue a.tag = false) (hb : noValue b.tag = false) (hraw : a.tag = tagRaw ∨ b.tag = tagRaw) :
    compares op a b = some (relation op (decide (a.raw < b.raw)) (a.raw == b.raw)) := by
  have hraw' : (a.tag == tagRaw || b.tag == tagRaw) = true := by simpa using hraw
  simp only [compares, ha, hb, hraw', Bool.or_self, Bool.false_eq_true, if_false, if_true]

theorem compares_time (ha : a.tag = tagTime) (hb : b.tag = tagTime) : compares op a b =
    some (relation op (decide (2 ^ 31 ≤ (a.x.setWidth 32 - b.x.setWidth 32 : Word).toNat)) (a.x == b.x)) := by
  unfold compares
  rw [ha, hb]
  rfl

end

/-- The serial difference of two times, modulo 2^32. -/
theorem toNat_sub_words (x y : BitVec 40) :
    ((x.setWidth 32 - y.setWidth 32 : Word).toNat : Int) = ((x.toNat : Int) - y.toNat) % 2 ^ 32 := by
  rw [BitVec.toNat_sub, BitVec.toNat_setWidth, BitVec.toNat_setWidth]
  omega

/-- The relations that "less" and "equal" of one order come to. -/
theorem relation_total {α : Type} [LinearOrder α] {x y : α} {e : Prop} [Decidable e] (he : e ↔ x = y) :
    relation .lt (decide (x < y)) (decide e) = decide (x < y) ∧ relation .ge (decide (x < y)) (decide e) = decide (y ≤ x) ∧
      relation .gt (decide (x < y)) (decide e) = decide (y < x) ∧ relation .le (decide (x < y)) (decide e) = decide (x ≤ y) ∧
      relation .eq (decide (x < y)) (decide e) = decide e ∧ relation .ne (decide (x < y)) (decide e) = decide ¬ e := by
  obtain h | h | h := lt_trichotomy x y
  · simp [relation, he, h, h.le, h.ne, h.not_gt]
  · simp [relation, he, h]
  · simp [relation, he, h, h.le, h.ne', h.not_gt]

/-- Settles O20: the tags choose the order, and an order's "less" and "equal" give its six relations. -/
theorem valuesCompare : Obligations.ValuesCompare := by
  unfold Obligations.ValuesCompare
  refine ⟨?operands, ?signed, ?unsigned, ?raw, ?time⟩
  case operands =>
    intro r o
    refine ⟨?_, ?_, ?_, ?_⟩ <;> rintro rfl <;> rfl
  case signed =>
    intro a b h ht
    simp only [compares_signed _ h ht, Option.some.injEq]
    exact relation_total BitVec.toInt_inj.symm
  case unsigned =>
    intro a b h ht
    simp only [compares_unsigned _ h ht, Option.some.injEq]
    exact relation_total BitVec.toNat_inj.symm
  case raw =>
    intro a b ha hb hraw
    simp only [compares_raw _ ha hb hraw, Option.some.injEq]
    exact relation_total Iff.rfl
  case time =>
    intro a b ha hb
    simp only [compares_time _ ha hb, Option.some.injEq]
    refine ⟨?_, rfl⟩
    rw [← toNat_sub_words]
    exact decide_eq_decide.mpr (by omega)

end Machine
end Sys2Proof
end

section
/-! PROOFS. Steps, commands, and words of the core's encoding tables (R208, R209, R215, R218 to R220; logs 1, 131). -/

namespace Sys2Proof
namespace Machine

/-- Settles O59, each word by its class, its fields and its prefixes. -/
theorem coreWordsDecode : Obligations.CoreWordsDecode := by
  unfold Obligations.CoreWordsDecode
  decide

/-- Settles O55. -/
theorem stepRunsFrontCommand : Obligations.StepRunsFrontCommand := by
  unfold Obligations.StepRunsFrontCommand
  refine ⟨?front, ?tick, ?words⟩
  case front =>
    intro s c r h
    rw [step, h]
  case tick =>
    intro s h
    rw [step, h]
  case words => exact fun s n w => ⟨rfl, rfl⟩

/-- Every command answers a next state, in its own arm. -/
theorem exec_completes (c : Instr) (s : State) : ∃ t, exec c s = .next t := by
  cases c <;> exact ⟨_, rfl⟩

theorem step_completes (s : State) : Safe s := by
  unfold Safe step
  split
  · exact ⟨_, rfl⟩
  · exact exec_completes _ _

/-- Settles O56. -/
theorem everyCommandCompletes : Obligations.EveryCommandCompletes := ⟨exec_completes, step_completes⟩

end Machine
end Sys2Proof
end

section
/-! PROOFS. Two statements on stores and loads of a core pair that fail: the drain of a byte into a main-memory page that is not
read in the DRAM (R300), and an unaligned LDU whose cell reaches into the return stack (R210, R287). -/

namespace Sys2Proof
namespace Machine

/-- The oldest entry of the system pair's store buffer is a byte of 0 at 0x1000_0001, in a page whose bit is 0; the cell is listed
with the payload 0x0505_0505 and the tag INT. -/
def unsetPage : State :=
  { State.reset.setCore 12 { resetCore with r := { resetRegsK with sb := [.byte 0x10000001 0] } } with
    cells := [(0x10000000, ⟨0x05050505, tagInt⟩)] }

/-- Refutes O21, by the clause of the drain of a byte: it does not ask that the page's bit be set. A page whose bit is 0 is not read
in the DRAM (R300), so that the other bytes of the cell become 0. -/
theorem not_coreStores : ¬ Obligations.CoreStores := by
  unfold Obligations.CoreStores
  rintro ⟨-, -, -, -, -, -, -, -, -, -, -, hbyte⟩
  obtain ⟨t, ht, hcell, -⟩ := hbyte unsetPage 12 0x10000001 0 [] (by decide) rfl (by decide) (by decide +kernel) (by decide +kernel)
    (by decide +kernel) (by decide +kernel) (by decide +kernel) (by decide +kernel) (by decide)
  have hdrained : (unsetPage.storeDrain 12).cell 0x10000000 = ⟨0, tagUint⟩ := by decide +kernel
  rw [← Host.Outcome.next.inj ht] at hcell
  exact absurd (hcell.symm.trans hdrained) (by decide)

/-- The system pair before LDU of displacement 0, with X = ADDR 0x0E00_0001, C1 the first 256 bytes of Plain, and C3 the bytes from
0x0E00_0003 up; the two cells at 0x0E00_0000 are INT. -/
def overReturnStack : State :=
  let s := bareSystem 0x3E80
  let c := ((emptySet.c.set 0 wholeProgram).set 1 ⟨⟨0x0E000000, tagCap⟩, ⟨0x100, tagCap⟩, ⟨1, tagCap⟩, ⟨0, tagCap⟩⟩).set 3
    ⟨⟨0x0E000003, tagCap⟩, ⟨0x100, tagCap⟩, ⟨0, tagCap⟩, ⟨0, tagCap⟩⟩
  let r := { (s.kr 12) with x := ⟨0x0E000001, tagAddr⟩, sets := .replicate 8 { emptySet with c := c } }
  ((s.setKr 12 r).setCell 0x0E000000 ⟨1, tagInt⟩).setCell 0x0E000004 ⟨2, tagInt⟩

/-- Refutes O22, by the clause of the unaligned LDU: it asks that one byte at EA lie outside C3, where no byte of the access may lie
within it (R210). With C3 from EA + 2 up the access of four bytes is BOUNDS, and A stays EMPTY. -/
theorem not_coreNarrowAccess : ¬ Obligations.CoreNarrowAccess := by
  unfold Obligations.CoreNarrowAccess
  rintro ⟨-, -, -, -, hldu, -⟩
  obtain ⟨t, ht, hkr, -⟩ := hldu overReturnStack 12 ⟨.ldu, 0, 0, 0, 0⟩ 0x0E000001 ⟨1, tagInt⟩ ⟨2, tagInt⟩ _ (by decide +kernel) rfl rfl
    (by decide +kernel) (by decide) (by decide +kernel) (by decide +kernel) (by decide +kernel) (by decide +kernel)
    (by decide +kernel) (by decide +kernel) rfl (.inl rfl)
  have hfaulted : ((overReturnStack.instr 12 .ldu).kr 12).atag = tagEmpty := by decide +kernel
  rw [← Host.Outcome.next.inj ht] at hkr
  exact absurd ((congrArg CoreRegs.atag hkr).symm.trans hfaulted) (by decide)

end Machine
end Sys2Proof
end

section
/-! PROOFS. Stacks of a core pair in memory that the pair does not reach: a capability alone does not open secure SRAM to a slice's
pair (R232, R291, R293), and a frame leaves the cells that it may not write (log 172). -/

namespace Sys2Proof
namespace Machine

/-- The pair of slice 0, which runs, before word `w` at program address 0, C0 being all of program memory and C3 the first 64 bytes of
secure SRAM with READ and WRITE, whose end is RSP. -/
def secureStack (w : PWord) : State :=
  let c := (emptySet.c.set 0 wholeProgram).set 3 ⟨⟨0x01C00000, tagCap⟩, ⟨0x40, tagCap⟩, ⟨3, tagCap⟩, ⟨0, tagCap⟩⟩
  let r := { resetRegsK with sets := .replicate 8 { emptySet with c := c, rsp := 0x01C00040 } }
  ((State.reset.setF (R.SLC_STATE 0) F.SLC_STATE_STATE slRunning).setCore 0 { resetCore with halted := false, r := r }).setProgWord
    0 0 w

/-- Refutes O25, by the clause of CALL: it does not ask that the pair reach the cell below RSP. In secure SRAM the push is PERM, and
RSP stays. -/
theorem not_coreCallsAndReturns : ¬ Obligations.CoreCallsAndReturns := by
  unfold Obligations.CoreCallsAndReturns
  rintro ⟨hcall, -⟩
  obtain ⟨t, ht, -, hcell, -⟩ := hcall (secureStack 0x3741) 0 ⟨.call, 0, 1, 0, 0⟩ 1 0x01C0003C (by decide +kernel) rfl
    (by decide +kernel) (by decide +kernel) (by decide +kernel) (by decide +kernel) (by decide +kernel) (by decide +kernel)
  have hempty : ((secureStack 0x3741).instr 0 .call).cell 0x01C0003C = emptyCell := by decide +kernel
  rw [← Host.Outcome.next.inj ht, hempty] at hcell
  exact absurd hcell (by decide +kernel)

/-- Refutes O30, by the clause of the illegal word: it does not ask that the pair reach the handler's stack. In secure SRAM no cell of
the frame is written. -/
theorem not_faultsAndInterrupts : ¬ Obligations.FaultsAndInterrupts := by
  unfold Obligations.FaultsAndInterrupts
  rintro ⟨hillegal, -⟩
  obtain ⟨t, ht, hshown⟩ := hillegal (secureStack 0x300E) 0 0 0x01C00020 (by decide +kernel) (by decide +kernel) (by decide +kernel)
    (by decide +kernel) (by decide +kernel) (by decide +kernel) (by decide +kernel) (by decide +kernel) (by decide +kernel)
    (by decide +kernel) (by decide +kernel)
  obtain ⟨-, -, -, -, -, -, -, hcell, -⟩ := hshown
  have hempty : ((secureStack 0x300E).faultCommand 0).cell 0x01C00024 = emptyCell := by decide +kernel
  rw [← Host.Outcome.next.inj ht, hempty] at hcell
  exact absurd hcell (by decide +kernel)

end Machine
end Sys2Proof
end

section
/-! PROOFS. Core pairs: what an instruction reads of its pair does not depend on its fetch, the replay log or the debugger's records,
and how an instruction that has run goes on (R209, R217, R222, R238, R239, R387). -/

namespace Sys2Proof
namespace Machine

/-- A check against the watchpoints changes the debugger's records alone. -/
theorem State.watch_records (s : State) (p : Pair) (a len : Nat) (wr : Bool) (v : Word) :
    ∃ d, s.watch p a len wr v = s.setDbg d := by
  unfold State.watch
  split
  · unfold State.noteAccess
    extract_lets
    split
    · exact ⟨_, rfl⟩
    · exact ⟨s.dbg, rfl⟩
  · exact ⟨s.dbg, rfl⟩

/-! States that differ in the fetch, the replay log and the debugger's records alone. -/

/-- `u` is `s` with other fetch buffers and another replay log of pair p, and other records of the debugger. -/
def State.Traced (s u : State) (p : Pair) : Prop :=
  ∃ b q l d, u = (s.setCore p { s.coreOf p with lbuf := b, fq := q, log := l }).setDbg d

namespace State.Traced

variable {s t u : State} {p : Pair}

theorem refl (s : State) (p : Pair) : s.Traced s p :=
  ⟨_, _, _, s.dbg, congrArg (fun u : State => u.setDbg s.dbg) (s.setCore_coreOf p).symm⟩

theorem setDbg (h : s.Traced t p) (d : DbgSt) : s.Traced (t.setDbg d) p := by
  obtain ⟨b, q, l, e, rfl⟩ := h
  exact ⟨b, q, l, d, rfl⟩

theorem coreOf (h : s.Traced t p) : ∃ b q l, t.coreOf p = { s.coreOf p with lbuf := b, fq := q, log := l } := by
  obtain ⟨b, q, l, d, rfl⟩ := h
  exact ⟨b, q, l, s.coreOf_setCore_self p _⟩

theorem trace (h : s.Traced t p) (b : List (Nat × PWord)) (q : Option Nat) (l : List LogItem) :
    s.Traced (t.setCore p { t.coreOf p with lbuf := b, fq := q, log := l }) p := by
  obtain ⟨b', q', l', hc⟩ := h.coreOf
  rw [hc]
  obtain ⟨b'', q'', l'', d, rfl⟩ := h
  exact ⟨b, q, l, d, congrArg (fun u : State => u.setDbg d) (s.setCore_setCore p _ _)⟩

theorem logged (h : s.Traced t p) (i : LogItem) : s.Traced (t.logged p i) p := h.trace _ _ _

theorem watch (h : s.Traced t p) (a len : Nat) (wr : Bool) (v : Word) : s.Traced (t.watch p a len wr v) p := by
  obtain ⟨d, hd⟩ := t.watch_records p a len wr v
  rw [hd]
  exact h.setDbg d

theorem trans (h : s.Traced t p) (k : t.Traced u p) : s.Traced u p := by
  obtain ⟨b, q, l, d, rfl⟩ := k
  exact (h.trace b q l).setDbg d

theorem knOnly (h : s.Traced t p) : s.KnOnly t p := by
  obtain ⟨b, q, l, d, rfl⟩ := h
  exact ((State.KnOnly.refl s p).setCore _).setDbg d

theorem kr (h : s.Traced t p) : t.kr p = s.kr p := by
  obtain ⟨b, q, l, hc⟩ := h.coreOf
  rw [State.kr, hc, State.kr]

theorem slot (h : s.Traced t p) : (t.coreOf p).slot = (s.coreOf p).slot := by
  obtain ⟨b, q, l, hc⟩ := h.coreOf
  rw [hc]

theorem lock (h : s.Traced t p) : (t.coreOf p).lock = (s.coreOf p).lock := by
  obtain ⟨b, q, l, hc⟩ := h.coreOf
  rw [hc]

/-! What an instruction reads. -/

theorem cells (h : s.Traced t p) : t.cells = s.cells := h.knOnly.cells

theorem cell (h : s.Traced t p) (a : Nat) : t.cell a = s.cell a := by
  obtain ⟨b, q, l, d, rfl⟩ := h
  rfl

theorem reg (h : s.Traced t p) (a : Nat) : t.reg a = s.reg a := by
  obtain ⟨b, q, l, d, rfl⟩ := h
  rfl

theorem actSet (h : s.Traced t p) : t.actSet p = s.actSet p := by
  obtain ⟨b, q, l, d, rfl⟩ := h
  rfl

theorem wset (h : s.Traced t p) : t.wset p = s.wset p := by
  obtain ⟨b, q, l, d, rfl⟩ := h
  rfl

theorem mark (h : s.Traced t p) (a : Nat) : t.mark a = s.mark a := by
  obtain ⟨b, q, l, d, rfl⟩ := h
  rfl

theorem pageSet (h : s.Traced t p) (a : Nat) : t.pageSet a = s.pageSet a := by
  obtain ⟨b, q, l, d, rfl⟩ := h
  rfl

theorem absentSlice (h : s.Traced t p) (a : Nat) : t.absentSlice a = s.absentSlice a := by
  obtain ⟨b, q, l, d, rfl⟩ := h
  rfl

theorem absentMain (h : s.Traced t p) (a : Nat) : t.absentMain a = s.absentMain a := by
  obtain ⟨b, q, l, d, rfl⟩ := h
  rfl

theorem accessWaits (h : s.Traced t p) (a : Nat) : t.accessWaits a = s.accessWaits a := by
  obtain ⟨b, q, l, d, rfl⟩ := h
  rfl

theorem pairBars (h : s.Traced t p) (r : Pair) (x : Access) (a : Nat) (wr : Bool) (v : Word) :
    t.pairBars r x a wr v = s.pairBars r x a wr v := by
  obtain ⟨b, q, l, d, rfl⟩ := h
  rfl

theorem quadAt (h : s.Traced t p) (n : Nat) : t.quadAt p n = s.quadAt p n := by
  rw [State.quadAt, h.kr, h.actSet, State.quadAt]

theorem dspOf (h : s.Traced t p) : t.dspOf p = s.dspOf p := by rw [State.dspOf, h.kr, h.actSet, State.dspOf]

theorem operand (h : s.Traced t p) (i : Kn) : t.operand p i = s.operand p i := by
  unfold State.operand
  rw [h.kr, h.actSet]

theorem narrowEa (h : s.Traced t p) (i : Kn) : t.narrowEa p i = s.narrowEa p i := by
  unfold State.narrowEa
  rw [h.kr]

theorem inStack3 (h : s.Traced t p) (ea len : Nat) : t.inStack3 p ea len = s.inStack3 p ea len := by
  unfold State.inStack3
  rw [h.kr, h.actSet]

theorem eaFault (h : s.Traced t p) (q : Quad) (ea al len : Nat) (perms : List Nat) :
    t.eaFault p q ea al len perms = s.eaFault p q ea al len perms := by
  unfold State.eaFault State.inBounds
  rw [h.inStack3]

theorem execFault (h : s.Traced t p) (k a : Nat) : t.execFault p k a = s.execFault p k a := by
  unfold State.execFault
  rw [h.kr]

theorem standing (h : s.Traced t p) (a : Nat) : t.standing p a = s.standing p a := by
  unfold State.standing
  rw [h.kr, h.cell]

theorem storeFault (h : s.Traced t p) (q : Quad) (ea : Nat) (perms : List Nat) (c : Cell) :
    t.storeFault p q ea perms c = s.storeFault p q ea perms c := by
  unfold State.storeFault State.storeTag
  rw [h.eaFault, h.pairBars, h.standing]

theorem forwarded (h : s.Traced t p) (a : Nat) : t.forwarded p a = s.forwarded p a := by
  unfold State.forwarded
  rw [h.kr]

end State.Traced

theorem State.FetchOnly.traced {s t : State} {p : Pair} (h : s.FetchOnly t p) : s.Traced t p := by
  obtain ⟨b, q, rfl⟩ := h
  exact (State.Traced.refl s p).trace b q _

theorem State.fetched_traced (s : State) (p : Pair) : (s.issue p).Traced (s.fetched p) p := (s.fetched_fetchOnly p).traced

/-- What traces the fetched state changes pair p alone. -/
theorem State.Traced.knOnly_fetched {s u : State} {p : Pair} (h : (s.fetched p).Traced u p) : s.KnOnly u p :=
  (s.fetched_knOnly p).trans h.knOnly

/-! The registers of an instruction that has run. -/

/-- In `u` pair p has run the instruction that it issues in `s`, and holds `r`: PC, LOOP_COUNT and the bounds of the loop stand as it
found them, and so does its delay slot. -/
structure State.HasRun (s u : State) (p : Pair) (r : CoreRegs) : Prop where
  kr : u.kr p = r
  slot : (u.coreOf p).slot = ((s.issue p).coreOf p).slot
  loop : (r.pc, r.lcount, r.lstart, r.lend) = ((s.rs p).pc, (s.rs p).lcount, (s.rs p).lstart, (s.rs p).lend)

theorem CoreSt.after_congr {c d : CoreSt} (hs : c.slot = d.slot)
    (hl : (c.r.pc, c.r.lcount, c.r.lstart, c.r.lend) = (d.r.pc, d.r.lcount, d.r.lstart, d.r.lend)) : c.after = d.after := by
  simp only [Prod.mk.injEq] at hl
  obtain ⟨hpc, hcount, hstart, hend⟩ := hl
  simp only [CoreSt.after, CoreRegs.inBody, hs, hpc, hcount, hstart, hend] <;> rfl

theorem State.HasRun.after {s u : State} {p : Pair} {r : CoreRegs} (h : s.HasRun u p r) :
    (u.coreOf p).after = ((s.issue p).coreOf p).after := by
  have hloop := h.loop
  rw [← h.kr] at hloop
  exact CoreSt.after_congr h.slot hloop

/-- Registers `r` with PC and LOOP_COUNT as they go on after an instruction that does not jump. -/
def State.onwardFrom (s : State) (p : Pair) (r : CoreRegs) : CoreRegs :=
  { r with pc := (s.onward p).pc, lcount := (s.onward p).lcount }

/-- Registers written over what an instruction traces. -/
theorem State.Traced.ran {s u : State} {p : Pair} (h : (s.fetched p).Traced u p) (r : CoreRegs)
    (hl : (r.pc, r.lcount, r.lstart, r.lend) = ((s.rs p).pc, (s.rs p).lcount, (s.rs p).lstart, (s.rs p).lend)) :
    s.HasRun (u.setKr p r) p r where
  kr := by rw [State.kr, State.setKr, State.coreOf_setCore_self]
  slot := by rw [State.setKr, State.coreOf_setCore_self, h.slot, (s.fetched_traced p).slot]
  loop := hl

theorem State.Traced.ran_self {s u : State} {p : Pair} (h : (s.fetched p).Traced u p) : s.HasRun u p (s.rs p) where
  kr := by rw [h.kr, s.fetched_kr]
  slot := by rw [h.slot, (s.fetched_traced p).slot]
  loop := rfl

theorem State.KnOnly.setKr {s t : State} {p : Pair} (h : s.KnOnly t p) (r : CoreRegs) : s.KnOnly (t.setKr p r) p := h.setCore _

section

variable {s u : State} {p : Pair} {i : Kn} {c : Instr} {op : KOp} {r : CoreRegs}

/-- An instruction that has run and does not jump: the next one follows. -/
theorem gives_seq (h : s.issues p i = true) (hop : i.op = op) (hc : exec c s = .next (s.instr p op))
    (hx : (s.fetched p).knExec p i = .ok u .seq) (hr : s.HasRun u p r) {P : State → Prop}
    (hP : ∀ t, t.kr p = s.onwardFrom p r → u.KnOnly t p → P t) : Gives c s P := by
  subst hop
  refine ⟨_, hc, ?_⟩
  rw [State.instr_of_ok h hx]
  have hholds := u.retire_seq_holds p ((s.issue p).coreOf p).lock.isSome
  rw [hr.kr, hr.after] at hholds
  exact hP _ (Prod.mk.inj hholds).1 (u.retire_seq_knOnly p _)

/-- One that has changed nothing but its pair. -/
theorem gives_kept (h : s.issues p i = true) (hop : i.op = op) (hc : exec c s = .next (s.instr p op))
    (hx : (s.fetched p).knExec p i = .ok u .seq) (hr : s.HasRun u p r) (hu : s.KnOnly u p) :
    Gives c s (fun t => t.kr p = s.onwardFrom p r ∧ s.KnOnly t p) :=
  gives_seq h hop hc hx hr (fun _ hk ht => ⟨hk, hu.trans ht⟩)

/-- One that writes registers alone. -/
theorem gives_regs (h : s.issues p i = true) (hop : i.op = op) (hc : exec c s = .next (s.instr p op))
    (hx : (s.fetched p).knExec p i = .ok ((s.fetched p).setKr p r) .seq)
    (hl : (r.pc, r.lcount, r.lstart, r.lend) = ((s.rs p).pc, (s.rs p).lcount, (s.rs p).lstart, (s.rs p).lend)) :
    Gives c s (fun t => t.kr p = s.onwardFrom p r ∧ s.KnOnly t p) :=
  gives_kept h hop hc hx ((State.Traced.refl _ p).ran r hl) ((s.fetched_knOnly p).setKr r)

end

end Machine
end Sys2Proof
end

section
/-! PROOFS. Moves between the registers of a core pair, immediates, tags, PG, DSP and time (R211, R218, R219, R220, R249). -/

namespace Sys2Proof
namespace Machine

theorem State.fetched_r (s : State) (p : Pair) : ((s.fetched p).coreOf p).r = s.rs p := s.fetched_kr p

theorem State.fetched_actSet (s : State) (p : Pair) : (s.fetched p).actSet p = (s.issue p).actSet p := (s.fetched_traced p).actSet

theorem State.fetched_quadAt (s : State) (p : Pair) (n : Nat) : (s.fetched p).quadAt p n = (s.issue p).quadAt p n :=
  (s.fetched_traced p).quadAt n

theorem State.fetched_operand (s : State) (p : Pair) (i : Kn) : (s.fetched p).operand p i = (s.issue p).operand p i :=
  (s.fetched_traced p).operand i

theorem State.issue_mtime (s : State) (p : Pair) : (s.issue p).mtime = s.mtime := by
  obtain ⟨c, hc⟩ := s.issue_pairOnly p
  rw [hc, State.setCore_mtime]

theorem State.fetched_mtimeLo (s : State) (p : Pair) : (s.fetched p).mtimeLo = s.mtimeLo := by
  obtain ⟨c, hc⟩ := s.fetched_pairOnly p
  rw [hc, State.mtimeLo, State.setCore_mtime, State.mtimeLo]

/-! What each kind of instruction comes to where its checks pass. -/

theorem State.move_ok (s u : State) {t : BitVec 4} (h : noValue t = false) : s.move t u = .ok u .seq := by
  rw [State.move, need, h]
  rfl

theorem State.newDsp_ok {s : State} {p : Pair} {v : Int} (hq : (s.quadAt p 2).unusable false = none)
    (hlo : ((s.quadAt p 2).lo : Int) ≤ v) (hhi : v ≤ (s.quadAt p 2).hi) :
    s.newDsp p v = .ok (s.setDsp p (s.actSet p) v.toNat) .seq := by
  simp only [State.newDsp, hq, check, need, decide_eq_true hlo, decide_eq_true hhi, Bool.and_self, if_true]

theorem State.aResult_val (s : State) (p : Pair) (v : BitVec 40) (g : BitVec 4) (ea : Nat) :
    s.aResult p (.val v g) ea = .ok (s.setA p v g) .seq := rfl

theorem State.withEa_some {s : State} {p : Pair} {i : Kn} {n ea : Nat} (h : s.operand p i = some (n, ea))
    (k : Quad → Nat → Kr Flow) : s.withEa p i k = k (s.quadAt p n) ea := by
  rw [State.withEa, h]

/-- An effective address has 32 bits. -/
theorem State.operand_lt {s : State} {p : Pair} {i : Kn} {n ea : Nat} (h : s.operand p i = some (n, ea)) : ea < 2 ^ 32 := by
  have hlt (x : Nat) : x % 2 ^ 32 < 2 ^ 32 := Nat.mod_lt _ (by decide)
  unfold State.operand at h
  dsimp only at h
  split at h
  · cases h
    exact hlt _
  · split at h
    · cases h
      exact hlt _
    · cases h
  · split at h
    · cases h
      exact hlt _
    · cases h
  · cases h
    exact hlt _

theorem State.doRetag_ok {s : State} {p : Pair} {i : Kn} (hv : noValue ((s.kr p).reg i.m).tag = false ∨ BitVec.ofNat 4 i.n = tagEmpty)
    (hr : s.rawFault p ((s.kr p).reg i.m).tag (BitVec.ofNat 4 i.n) = none) :
    s.doRetag p i = .ok (s.putReg p i.m ⟨((s.kr p).reg i.m).v, BitVec.ofNat 4 i.n⟩) .seq := by
  have hv' : (!noValue ((s.kr p).reg i.m).tag || BitVec.ofNat 4 i.n == tagEmpty) = true := by simpa using hv
  simp only [State.doRetag, need, hv', if_true, hr, check]

theorem State.Traced.rawFault {s t : State} {p : Pair} (h : s.Traced t p) (old new : BitVec 4) :
    t.rawFault p old new = s.rawFault p old new := by
  unfold State.rawFault
  rw [h.quadAt]

theorem kAddImm_bad_of_noValue {a : BitVec 40} {t : BitVec 4} (h : noValue t = true) (v : Int) : kAddImm a t v = .bad := by
  have hne : (t == tagUint) = false := by
    revert t
    decide
  rw [kAddImm, hne, if_neg Bool.false_ne_true]
  exact (kAdd_eq_bad _ _ _ _ _ _).mpr (.inl h)

section

variable {s : State} {p : Pair} {i : Kn} {c : Instr}

/-- ADDIA, by what its sum comes to. -/
theorem gives_addia {v : BitVec 40} {g : BitVec 4} (h : s.issues p i = true) (hop : i.op = .addia)
    (hsum : kAddImm (s.rs p).a (s.rs p).atag i.v = .val v g) :
    Gives (.addia p) s (fun t => t.kr p = { s.onward p with a := v, atag := g } ∧ s.KnOnly t p) := by
  have hvalue : noValue (s.rs p).atag = false := by
    by_contra hno
    rw [Bool.not_eq_false] at hno
    rw [kAddImm_bad_of_noValue hno] at hsum
    cases hsum
  refine gives_regs h hop rfl (r := { s.rs p with a := v, atag := g }) ?_ rfl
  simp only [State.knExec, hop, s.fetched_r, hvalue, need, Bool.not_false, if_true, hsum, State.aResult_val, State.setA, s.fetched_kr]

/-- RETAG of register k. -/
theorem gives_retag (h : s.issues p i = true) (hop : i.op = .retag)
    (hv : noValue ((s.rs p).reg i.m).tag = false ∨ BitVec.ofNat 4 i.n = tagEmpty)
    (hr : (s.issue p).rawFault p ((s.rs p).reg i.m).tag (BitVec.ofNat 4 i.n) = none) {r : CoreRegs}
    (hput : (s.fetched p).putReg p i.m ⟨((s.rs p).reg i.m).v, BitVec.ofNat 4 i.n⟩ = (s.fetched p).setKr p r)
    (hl : (r.pc, r.lcount, r.lstart, r.lend) = ((s.rs p).pc, (s.rs p).lcount, (s.rs p).lstart, (s.rs p).lend)) :
    Gives (.retag p) s (fun t => t.kr p = s.onwardFrom p r ∧ s.KnOnly t p) := by
  rw [← (s.fetched_traced p).rawFault] at hr
  rw [← s.fetched_kr] at hv hr hput
  refine gives_regs h hop rfl ?_ hl
  simp only [State.knExec, hop]
  rw [State.doRetag_ok hv hr, hput]

end

theorem extendCell_int (v : Int) : extendCell ⟨BitVec.ofInt 32 v, tagInt⟩ = BitVec.ofInt 40 (BitVec.ofInt 32 v).toInt := by
  rw [extendCell_eq, if_pos (.inl rfl), ofInt_word]

theorem uintCell_setWidth {w : Nat} (x : BitVec w) : uintCell x.toNat = ⟨x.setWidth 32, tagUint⟩ := by
  rw [uintCell, BitVec.ofNat_toNat]

theorem setWidth_ofNat_of_lt {n : Nat} (h : n < 2 ^ 32) : (BitVec.ofNat 32 n).setWidth 40 = BitVec.ofNat 40 n := by
  apply BitVec.eq_of_toNat_eq
  simp only [BitVec.toNat_setWidth, BitVec.toNat_ofNat, Nat.mod_eq_of_lt h]

/-! Prefixes (R220). -/

/-- What an issue leaves of its pair: the prefixes before the word, and where it stands. -/
theorem State.issue_pfx (s : State) (p : Pair) : ((s.issue p).coreOf p).pfx = (s.coreOf p).pfx := by
  have hlong : ((s.longResult p).coreOf p).pfx = (s.coreOf p).pfx := by
    unfold State.longResult
    dsimp only
    split
    · rfl
    · rw [State.coreOf_setCore_self]
  have hbroken (u : State) : ((u.lockBroken p).coreOf p).pfx = (u.coreOf p).pfx := by
    unfold State.lockBroken State.endLock
    split
    · split
      · rw [State.coreOf_setCore_self]
      · rfl
    · rfl
  rw [State.issue, State.coreOf_setCore_self, hbroken, hlong]

theorem State.fetched_pfx (s : State) (p : Pair) : ((s.fetched p).coreOf p).pfx = (s.coreOf p).pfx := by
  obtain ⟨b, q, hfetched⟩ := s.fetched_fetchOnly p
  rw [hfetched, State.coreOf_setCore_self, s.issue_pfx]

theorem State.knExec_pfx (s : State) (p : Pair) {i : Kn} (h : i.op = .pfx) : s.knExec p i = .ok (s.setCore p { s.coreOf p with
    pfx := (s.coreOf p).pfx ++ [i.v.toNat]
    pfxPc := if (s.coreOf p).pfx.isEmpty then (s.coreOf p).r.pc.toNat else (s.coreOf p).pfxPc }) .pfx := by
  simp only [State.knExec, h]

/-- A PFX counts for nothing, and the PC goes on. -/
theorem State.retire_pfx (s : State) (p : Pair) (was : Bool) : s.retire p .pfx was = s.setCore p { s.coreOf p with
    r := { (s.coreOf p).r with pc := BitVec.ofNat 17 ((s.coreOf p).r.pc.toNat + 1) } } := rfl

/-- Settles O23: each instruction writes its register over what it finds, and a PFX keeps its bits. -/
theorem coreRegisterMoves : Obligations.CoreRegisterMoves := by
  unfold Obligations.CoreRegisterMoves
  refine ⟨?nop, ?tax, ?txa, ?tay, ?tya, ?swxy, ?rdsp, ?wdsp, ?rpg, ?wpg, ?rdtag, ?rdtime, ?ldia, ?ldix, ?ldiy, ?addInt, ?addia, ?dsadj,
    ?lea, ?retagA, ?retagX, ?retagY, ?pfx⟩
  case nop =>
    intro s p i h hop
    refine gives_kept h hop rfl (r := s.rs p) ?_ (State.Traced.refl _ p).ran_self (s.fetched_knOnly p)
    simp only [State.knExec, hop]
  case tax =>
    intro s p i h hop hv
    refine gives_regs h hop rfl (r := { s.rs p with x := (s.rs p).acell }) ?_ rfl
    simp only [State.knExec, hop, s.fetched_r, State.move_ok _ _ hv, State.setX, s.fetched_kr]
  case txa =>
    intro s p i h hop hv
    refine gives_regs h hop rfl (r := { s.rs p with a := extendCell (s.rs p).x, atag := (s.rs p).x.tag }) ?_ rfl
    simp only [State.knExec, hop, s.fetched_r, State.move_ok _ _ hv, State.loadA, State.setA, s.fetched_kr]
  case tay =>
    intro s p i h hop hv
    refine gives_regs h hop rfl (r := { s.rs p with y := (s.rs p).acell }) ?_ rfl
    simp only [State.knExec, hop, s.fetched_r, State.move_ok _ _ hv, State.setY, s.fetched_kr]
  case tya =>
    intro s p i h hop hv
    refine gives_regs h hop rfl (r := { s.rs p with a := extendCell (s.rs p).y, atag := (s.rs p).y.tag }) ?_ rfl
    simp only [State.knExec, hop, s.fetched_r, State.move_ok _ _ hv, State.loadA, State.setA, s.fetched_kr]
  case swxy =>
    intro s p i h hop hx hy
    refine gives_regs h hop rfl (r := { s.rs p with x := (s.rs p).y, y := (s.rs p).x }) ?_ rfl
    simp only [State.knExec, hop, State.doSwxy, s.fetched_kr, hx, hy, need, Bool.not_false, Bool.and_self, if_true]
  case rdsp =>
    intro s p i h hop
    refine gives_regs h hop rfl (r := { s.rs p with x := ⟨BitVec.ofNat 32 (s.dspNow p), tagAddr⟩ }) ?_ rfl
    simp only [State.knExec, hop, s.fetched_r, s.fetched_actSet, State.setX, s.fetched_kr, State.dspNow, BitVec.ofNat_toNat,
      BitVec.setWidth_eq]
  case wdsp =>
    intro s p i h hop hx hq hlo hhi
    refine gives_regs h hop rfl (r := s.atDsp p (s.rs p) (s.rs p).x.v.toNat) ?_ rfl
    have hquad : (s.fetched p).quadAt p 2 = s.capNow p 2 := s.fetched_quadAt p 2
    rw [← hquad] at hq hlo hhi
    simp only [State.knExec, hop, State.doWdsp, s.fetched_kr, hx, need, beq_self_eq_true, if_true,
      State.newDsp_ok hq (Int.ofNat_le.mpr hlo) (Int.ofNat_le.mpr hhi), State.setDsp, s.fetched_actSet, Int.toNat_natCast, State.atDsp]
  case rpg =>
    intro s p i h hop
    refine gives_regs h hop rfl (r := { s.rs p with x := ⟨(s.rs p).pg.setWidth 32, tagUint⟩ }) ?_ rfl
    simp only [State.knExec, hop, s.fetched_r, State.setX, s.fetched_kr, uintCell_setWidth]
  case wpg =>
    intro s p i h hop hx hv
    refine gives_regs h hop rfl (r := { s.rs p with pg := (s.rs p).x.v.setWidth 16 }) ?_ rfl
    simp only [State.knExec, hop, State.doWpg, s.fetched_kr, hx, need, beq_self_eq_true, decide_eq_true hv, if_true]
  case rdtag =>
    intro s p i h hop
    refine gives_regs h hop rfl (r := { s.rs p with x := ⟨(s.rs p).atag.setWidth 32, tagUint⟩ }) ?_ rfl
    simp only [State.knExec, hop, s.fetched_r, State.setX, s.fetched_kr, uintCell_setWidth]
  case rdtime =>
    intro s p i h hop
    have htraced := (State.Traced.refl (s.fetched p) p).logged (.time s.mtimeLo)
    refine gives_kept h hop rfl ?_ (htraced.ran { s.rs p with a := (s.mtime.setWidth 32).setWidth 40, atag := tagTime } rfl)
      (htraced.knOnly_fetched.setKr _)
    simp only [State.knExec, hop, s.fetched_mtimeLo, State.loadA, State.setA, htraced.kr, s.fetched_kr]
    rfl
  case ldia =>
    intro s p i h hop
    refine gives_regs h hop rfl
      (r := { s.rs p with a := BitVec.ofInt 40 (BitVec.ofInt 32 i.v).toInt, atag := tagInt }) ?_ rfl
    simp only [State.knExec, hop, State.putReg, State.loadA, State.setA, s.fetched_kr, intCell, extendCell_int]
  case ldix =>
    intro s p i h hop
    refine gives_regs h hop rfl (r := { s.rs p with x := ⟨BitVec.ofInt 32 i.v, tagInt⟩ }) ?_ rfl
    simp only [State.knExec, hop, State.putReg, State.setX, s.fetched_kr, intCell]
  case ldiy =>
    intro s p i h hop
    refine gives_regs h hop rfl (r := { s.rs p with y := ⟨BitVec.ofInt 32 i.v, tagInt⟩ }) ?_ rfl
    simp only [State.knExec, hop, State.putReg, State.setY, s.fetched_kr, intCell]
  case addInt =>
    intro s p i h hop ha
    have hsum : kAddImm (s.rs p).a (s.rs p).atag i.v = .val (BitVec.ofInt 40 ((s.rs p).a.toInt + (BitVec.ofInt 32 i.v).toInt)) tagInt := by
      rw [ha]
      rfl
    have htag : s.onward p = { s.onward p with atag := tagInt } := by rw [← ha]; rfl
    rw [htag]
    exact gives_addia h hop hsum
  case addia => exact fun s p i v g h hop hsum => gives_addia h hop hsum
  case dsadj =>
    intro s p i d h hop hq hd hlo hhi
    refine gives_regs h hop rfl (r := s.atDsp p (s.rs p) d.toNat) ?_ rfl
    have hquad : (s.fetched p).quadAt p 2 = s.capNow p 2 := s.fetched_quadAt p 2
    have hdsp : (s.fetched p).dspOf p = s.dspNow p := (s.fetched_traced p).dspOf
    rw [← hquad] at hq hlo hhi
    simp only [State.knExec, hop, hdsp, ← hd, State.newDsp_ok hq hlo hhi, State.setDsp, s.fetched_actSet, s.fetched_kr, State.atDsp]
  case lea =>
    intro s p i n ea h hop hea hq hlo hhi
    refine gives_regs h hop rfl (r := { s.rs p with a := BitVec.ofNat 40 ea, atag := tagAddr }) ?_ rfl
    have hlt := State.operand_lt hea
    rw [← s.fetched_operand] at hea
    simp only [State.knExec, hop, State.doLea, State.withEa_some hea, s.fetched_quadAt, hq, check, need, decide_eq_true hlo,
      decide_eq_true hhi, Bool.and_self, if_true, State.loadA, State.setA, s.fetched_kr]
    rw [extendCell_eq, if_neg (by decide), setWidth_ofNat_of_lt hlt]
  case retagA =>
    intro s p i c h hop hm hv hr hc
    subst hc
    refine gives_retag h hop (by rw [hm]; exact hv) (by rw [hm]; exact hr) (r := { s.rs p with
      a := extendCell ⟨(s.rs p).acell.v, BitVec.ofNat 4 i.n⟩, atag := BitVec.ofNat 4 i.n }) ?_ rfl
    simp only [hm, State.putReg, CoreRegs.reg, State.loadA, State.setA, s.fetched_kr]
  case retagX =>
    intro s p i h hop hm hv hr
    refine gives_retag h hop (by rw [hm]; exact hv) (by rw [hm]; exact hr)
      (r := { s.rs p with x := ⟨(s.rs p).x.v, BitVec.ofNat 4 i.n⟩ }) ?_ rfl
    simp only [hm, State.putReg, CoreRegs.reg, State.setX, s.fetched_kr]
  case retagY =>
    intro s p i h hop hm hv hr
    refine gives_retag h hop (by rw [hm]; exact hv) (by rw [hm]; exact hr)
      (r := { s.rs p with y := ⟨(s.rs p).y.v, BitVec.ofNat 4 i.n⟩ }) ?_ rfl
    simp only [hm, State.putReg, CoreRegs.reg, State.setY, s.fetched_kr]
  case pfx =>
    intro s p i h hop
    refine ⟨_, rfl, ?_⟩
    rw [← hop, State.instr_of_ok h (State.knExec_pfx _ p hop)]
    refine ⟨?_, ?_, ?_⟩
    · rw [State.retire_pfx, State.kr, State.coreOf_setCore_self, State.coreOf_setCore_self, s.fetched_r]
    · rw [State.retire_pfx, State.coreOf_setCore_self, State.coreOf_setCore_self, s.fetched_pfx]
    · rw [State.retire_pfx]
      exact ((s.fetched_knOnly p).setCore _).setCore _

end Machine
end Sys2Proof
end

section
/-! PROOFS. Branches, jumps, their delay slot, and LOOP (R215, R217, R221, R222). -/

namespace Sys2Proof
namespace Machine

/-! Retirement of an instruction of any flow. -/

/-- Where pair p goes on: its registers, its delay slot, the shadow of a CAPSW, and WFE. -/
def State.place (s : State) (p : Pair) : CoreRegs × Option (Nat × Option Nat) × Option (Nat × Nat) × Bool :=
  (s.kr p, (s.coreOf p).slot, (s.coreOf p).shadow, (s.coreOf p).wfe)

theorem State.place_setCore (s : State) (p : Pair) (c : CoreSt) : (s.setCore p c).place p = (c.r, c.slot, c.shadow, c.wfe) := by
  simp only [State.place, State.kr, State.coreOf_setCore_self]

theorem State.place_lockCount (s : State) (p : Pair) (was : Bool) : (s.lockCount p was).place p = s.place p := by
  unfold State.lockCount
  dsimp only
  split
  · split
    · exact s.place_setCore p _
    · rfl
  · rfl

theorem State.place_logFull (s : State) (p : Pair) : (s.logFull p).place p = s.place p := by
  unfold State.logFull
  split
  · unfold State.checkpoint
    dsimp only
    split
    · rfl
    · exact s.place_setCore p _
  · rfl

/-- An instruction other than PFX retires by its flow, the counts of R227 and R387, and the debugger's record. -/
theorem State.retire_eq (s : State) (p : Pair) {f : Flow} (was : Bool) (hf : (f == .pfx) = false) :
    ∃ d, s.retire p f was = ((((s.flow p f).lockCount p was).countRetired p).logFull p).setDbg d := by
  have hskip (u : State) : ∃ d, (if h : p.val < 12 then u.setDbg { u.dbg with skip := u.dbg.skip.set p.val false } else u)
      = u.setDbg d := by
    split
    · exact ⟨_, rfl⟩
    · exact ⟨u.dbg, rfl⟩
  unfold State.retire
  dsimp only
  rw [hf]
  exact hskip _

theorem State.retire_place (s : State) (p : Pair) {f : Flow} (was : Bool) (hf : (f == .pfx) = false) :
    (s.retire p f was).place p = (s.flow p f).place p := by
  obtain ⟨d, hd⟩ := s.retire_eq p was hf
  calc (s.retire p f was).place p
      = ((((s.flow p f).lockCount p was).countRetired p).logFull p).place p := by rw [hd]; rfl
    _ = (((s.flow p f).lockCount p was).countRetired p).place p := State.place_logFull _ p
    _ = ((s.flow p f).lockCount p was).place p := State.place_setCore _ p _
    _ = (s.flow p f).place p := State.place_lockCount _ p was

theorem State.flow_knOnly (s : State) (p : Pair) (f : Flow) : s.KnOnly (s.flow p f) p := by
  cases f with
  | seq => exact s.flow_seq_knOnly p
  | _ => exact (State.KnOnly.refl s p).setCore _

theorem State.retire_knOnly (s : State) (p : Pair) {f : Flow} (was : Bool) (hf : (f == .pfx) = false) :
    s.KnOnly (s.retire p f was) p := by
  obtain ⟨d, hd⟩ := s.retire_eq p was hf
  rw [hd]
  have hlock := (s.flow_knOnly p f).trans (State.lockCount_knOnly _ p was)
  exact ((hlock.trans (State.countRetired_knOnly _ p)).trans (State.logFull_knOnly _ p)).setDbg d

/-- What an issue leaves of its pair, and a fetch with it: the delay slot, the shadow and the saved PC. -/
theorem State.fetched_place (s : State) (p : Pair) : (s.fetched p).place p = (s.issue p).place p ∧
    ((s.fetched p).coreOf p).savedPc = ((s.issue p).coreOf p).savedPc := by
  obtain ⟨b, q, hfetched⟩ := s.fetched_fetchOnly p
  rw [hfetched, State.place_setCore, State.coreOf_setCore_self]
  exact ⟨rfl, rfl⟩

section

variable {s u : State} {p : Pair} {i : Kn} {c : Instr} {op : KOp}

/-- An instruction that goes through retires by its flow, where the pair then stands. -/
theorem gives_flow {f : Flow} (h : s.issues p i = true) (hop : i.op = op) (hc : exec c s = .next (s.instr p op))
    (hx : (s.fetched p).knExec p i = .ok u f) (hf : (f == .pfx) = false) {P : State → Prop}
    (hP : ∀ t, t.place p = (u.flow p f).place p → u.KnOnly t p → P t) : Gives c s P := by
  subst hop
  refine ⟨_, hc, ?_⟩
  rw [State.instr_of_ok h hx]
  exact hP _ (u.retire_place p _ hf) (u.retire_knOnly p _ hf)

/-- A branch goes on in its delay slot, with its target kept for after it. -/
theorem gives_slot (h : s.issues p i = true) (hop : i.op = op) (hc : exec c s = .next (s.instr p op)) {target : Option Nat}
    (hx : (s.fetched p).knExec p i = .ok (s.fetched p) (.slot target)) : Gives c s (fun t => t.kr p = s.inSlot p target ∧
      (t.coreOf p).slot = some (((s.issue p).coreOf p).savedPc, target) ∧ s.KnOnly t p) := by
  refine gives_flow h hop hc hx rfl (fun t ht hkn => ?_)
  obtain ⟨b, q, hfetched⟩ := s.fetched_fetchOnly p
  have hflow : ((s.fetched p).flow p (.slot target)).place p =
      (s.inSlot p target, some (((s.issue p).coreOf p).savedPc, target), ((s.issue p).coreOf p).shadow, ((s.issue p).coreOf p).wfe) := by
    simp only [State.flow, State.place_setCore, hfetched, State.coreOf_setCore_self]
    have hleaves : ({ (s.issue p).coreOf p with lbuf := b, fq := q } : CoreSt).leaves target = ((s.issue p).coreOf p).leaves target :=
      rfl
    rw [hleaves, State.inSlot]
    cases ((s.issue p).coreOf p).leaves target <;> rfl
  rw [hflow] at ht
  obtain ⟨hkr, hrest⟩ := Prod.mk.inj ht
  exact ⟨hkr, (Prod.mk.inj hrest).1, (s.fetched_knOnly p).trans hkn⟩

end

/-! Branches and jumps. -/

theorem State.doBranch_some {s : State} {p : Pair} {i : Kn} {g : Bool} (h : branchTaken (s.kr p) i = some g) :
    s.doBranch p i = .ok s (.slot (if g then some (ofSigned 17 (((s.kr p).pc.toNat : Int) + i.v)) else none)) := by
  simp only [State.doBranch, h]

theorem State.knExec_branch (s : State) (p : Pair) {i : Kn} (h : i.op ∈ branchOps) : s.knExec p i = s.doBranch p i := by
  simp only [branchOps, List.mem_cons, List.not_mem_nil, or_false] at h
  obtain h | h | h | h | h | h | h | h := h <;> simp only [State.knExec, h]

theorem gives_branch {s : State} {p : Pair} {i : Kn} {g : Bool} {c : Instr} {op : KOp} (hc : exec c s = .next (s.instr p op))
    (hmem : op ∈ branchOps) (h : s.issues p i = true) (hop : i.op = op) (hg : branchTaken (s.rs p) i = some g) :
    Gives c s (fun t => t.kr p = s.inSlot p (if g then some (ofSigned 17 (((s.rs p).pc.toNat : Int) + i.v)) else none) ∧
      (t.coreOf p).slot = some (((s.issue p).coreOf p).savedPc,
        if g then some (ofSigned 17 (((s.rs p).pc.toNat : Int) + i.v)) else none) ∧ s.KnOnly t p) := by
  refine gives_slot h hop hc ?_
  rw [← s.fetched_kr] at hg ⊢
  rw [State.knExec_branch _ p (hop ▸ hmem), State.doBranch_some hg]

/-- A jump to an address that may be executed. -/
theorem State.doJump_ok {s : State} {p : Pair} {d : Nat} (h : s.execFault p (s.actSet p) d = none) :
    s.doJump p d = .ok s (.slot (some d)) := by
  have hpos : ¬ (d : Int) < 0 := by omega
  simp only [State.doJump, State.target, Int.toNat_natCast, h, if_neg hpos]

theorem State.fetched_execFault (s : State) (p : Pair) (k a : Nat) : (s.fetched p).execFault p k a = (s.issue p).execFault p k a :=
  (s.fetched_traced p).execFault k a

/-! Where an instruction may stand. -/

/-- An instruction that issues stands where it may. -/
theorem State.issues_placed {s : State} {p : Pair} {i : Kn} (h : s.issues p i = true) :
    ((s.issue p).coreOf p).misplaced i = false ∧ ∃ w ps, w < 2 ^ 14 ∧ knDecode w ps = some i := by
  unfold State.issues at h
  cases hw : (s.issue p).fetchWord p with
  | ok t w =>
    simp only [hw, Bool.and_eq_true, Bool.not_eq_true', beq_iff_eq] at h
    obtain ⟨-, ⟨hdecode, hplaced⟩, -⟩ := h
    obtain ⟨b, q, ht⟩ := State.fetchWord_fetchOnly hw
    rw [ht, State.coreOf_setCore_self] at hplaced
    exact ⟨hplaced, _, _, w.isLt, hdecode⟩
  | fault t c a => simp only [hw, Bool.and_false, Bool.false_eq_true] at h
  | stall t => simp only [hw, Bool.and_false, Bool.false_eq_true] at h

theorem CoreSt.slot_of_placed {c : CoreSt} {i : Kn} (h : c.misplaced i = false) (hop : i.op ∈ barredInSlot) : c.slot = none := by
  have hin : barredInSlot.contains i.op = true := List.contains_iff_mem.mpr hop
  simp only [CoreSt.misplaced, hin, Bool.and_true, Bool.or_eq_false_iff, Option.isSome_eq_false_iff, Option.isNone_iff_eq_none] at h
  obtain ⟨⟨⟨⟨⟨hslot, -⟩, -⟩, -⟩, -⟩, -⟩ := h
  exact hslot

/-! Loops. -/

/-- A LOOP has a body (R222). -/
theorem loop_of_decodeCtl {g o : Nat} {ps : List Nat} {i : Kn} (h : decodeCtl g o ps = some i) (hop : i.op = .loop) : 1 ≤ i.n := by
  unfold decodeCtl at h
  split at h
  case h_1 =>
    obtain ⟨k, hk, h⟩ := Option.bind_eq_some_iff.mp h
    cases bare_eq_some h
    cases hop
    unfold ctlOp at hk
    split at hk <;> cases hk
  case h_4 =>
    dsimp only at h
    split at h
    · cases bare_eq_some h
      exact Nat.le_add_left 1 _
    · cases bare_eq_some h
      exact Nat.le_add_left 1 _
    · split at h
      · cases h
      · cases h
        exact Nat.le_add_left 1 _
    · cases h
  case h_11 =>
    split at h
    · obtain ⟨k, hk, h⟩ := Option.bind_eq_some_iff.mp h
      cases bare_eq_some h
      cases hop
      exact absurd (List.mem_of_getElem? hk) (by decide)
    · cases h
  case h_13 =>
    split at h
    · obtain ⟨k, hk, h⟩ := Option.bind_eq_some_iff.mp h
      cases bare_eq_some h
      cases hop
      exact absurd (List.mem_of_getElem? hk) (by decide)
    · cases h
  case h_15 =>
    obtain ⟨k, hk, rfl⟩ := Option.map_eq_some_iff.mp h
    cases hop
    exact absurd (List.mem_of_getElem? hk) (by decide)
  all_goals
    grind [bare]

theorem knDecode_loop {w : Nat} {ps : List Nat} {i : Kn} (h : knDecode w ps = some i) (hop : i.op = .loop) : 1 ≤ i.n := by
  unfold knDecode at h
  split at h
  case h_1 =>
    obtain ⟨k, hk, h⟩ := Option.bind_eq_some_iff.mp h
    cases bare_eq_some h
    cases hop
    exact absurd (List.mem_of_getElem? hk) (by decide)
  case h_4 => exact loop_of_decodeCtl h hop
  case h_5 => cases h
  all_goals
    obtain ⟨k, hk, rfl⟩ := Option.map_eq_some_iff.mp h
    cases hop
    exact absurd (List.mem_of_getElem? hk) (by decide)
/-- The body of a LOOP is shorter than program memory, since its length stands in a word of 14 bits. -/
theorem loop_length {w : Nat} {ps : List Nat} {i : Kn} (hw : w < 2 ^ 14) (h : knDecode w ps = some i) (hop : i.op = .loop) :
    i.n < 2 ^ 17 := by
  have hword := word_knDecode h
  simp only [Kn.word, hop] at hword
  rw [if_neg (by decide), if_neg (by decide), if_neg (by decide), if_neg (by decide), if_neg (by decide), if_neg (by decide)] at hword
  simp only [Kn.ctlWord, hop] at hword
  omega

/-- Where no branch is under way and the PC is in no active body, the next word follows. -/
theorem CoreSt.after_outside {c : CoreSt} (hs : c.slot = none) (hb : c.r.inBody = false) :
    c.after = ((c.r.pc.toNat + 1) % 2 ^ 17, c.r.lcount) := by
  simp only [CoreSt.after, hs, hb, Bool.false_and, Bool.false_eq_true, if_false]

/-- At the last word of an active body the loop turns back, or ends at a count of 1 (R222). -/
theorem CoreSt.after_loopEnd {c : CoreSt} (hs : c.slot = none) (hcount : c.r.lcount ≠ 0) (hstart : c.r.lstart.toNat ≤ c.r.pc.toNat)
    (hend : c.r.pc = c.r.lend) : c.after =
      if c.r.lcount == 1 then ((c.r.pc.toNat + 1) % 2 ^ 17, 0) else (c.r.lstart.toNat, c.r.lcount - 1) := by
  have hbody : (c.r.inBody && c.r.pc == c.r.lend) = true := by
    rw [CoreRegs.inBody, bne_iff_ne.mpr hcount, decide_eq_true hstart, hend, decide_eq_true (Nat.le_refl _), beq_self_eq_true]
    rfl
  simp only [CoreSt.after, hs, hbody, if_true]

/-- A program address wraps at 17 bits. -/
theorem ofNat_mod (n : Nat) : BitVec.ofNat 17 (n % 2 ^ 17) = BitVec.ofNat 17 n :=
  BitVec.eq_of_toNat_eq (by rw [BitVec.toNat_ofNat, BitVec.toNat_ofNat, Nat.mod_mod])

/-- The registers `r` as a LOOP of k turns over n words leaves them. -/
def CoreRegs.looped (r : CoreRegs) (n : Nat) (k : Int) : CoreRegs :=
  { r with lstart := BitVec.ofNat 17 (r.pc.toNat + 1), lend := BitVec.ofNat 17 (r.pc.toNat + 1 + n - 1), lcount := BitVec.ofNat 32 k.toNat }

/-- The body of a LOOP begins after it. -/
theorem CoreRegs.inBody_looped (r : CoreRegs) {n : Nat} (hpos : 1 ≤ n) (hn : n < 2 ^ 17) (k : Int) : (r.looped n k).inBody = false := by
  have hpc := r.pc.isLt
  have houtside : ¬ ((r.pc.toNat + 1) % 2 ^ 17 ≤ r.pc.toNat ∧ r.pc.toNat ≤ (r.pc.toNat + 1 + n - 1) % 2 ^ 17) := by omega
  rw [CoreRegs.inBody, Bool.and_assoc, ← Bool.decide_and, CoreRegs.looped, BitVec.toNat_ofNat, BitVec.toNat_ofNat,
    decide_eq_false houtside, Bool.and_false]

/-- Where a pair stands after an instruction that does not jump. -/
theorem State.flow_seq_place (s : State) (p : Pair) : (s.flow p .seq).place p =
    ({ s.kr p with pc := BitVec.ofNat 17 (s.coreOf p).after.1, lcount := (s.coreOf p).after.2 }, none, none, (s.coreOf p).wfe) := by
  unfold State.flow
  dsimp only
  split
  · exact s.place_setCore p _
  · exact s.place_setCore p _

theorem State.knExec_loop {s : State} {p : Pair} {i : Kn} {n : Int} (hop : i.op = .loop) (hn : loopCount (s.kr p) i = some n) :
    s.knExec p i = .ok ((s.setKr p ((s.kr p).looped i.n n)).emptyLoop p)
      (if n ≤ 0 then .goto (((s.kr p).pc.toNat + 1 + i.n) % 2 ^ 17) else .seq) := by
  simp only [State.knExec, hop, State.doLoop, hn]
  rfl

theorem State.coreOf_looped (s : State) (p : Pair) (r : CoreRegs) :
    ((s.setKr p r).emptyLoop p).coreOf p = { s.coreOf p with r := r, lbuf := [] } := by
  rw [State.emptyLoop, State.coreOf_setCore_self, State.setKr, State.coreOf_setCore_self]

/-- LOOP writes the pair alone. -/
theorem State.looped_knOnly (s : State) (p : Pair) (r : CoreRegs) : s.KnOnly (((s.fetched p).setKr p r).emptyLoop p) p :=
  ((s.fetched_knOnly p).setKr r).setCore _

section

variable {s : State} {p : Pair} {i : Kn}

/-- A NOP that is followed as `after` says. -/
theorem gives_nop (h : s.issues p i = true) (hop : i.op = .nop) :
    Gives (.nop p) s (fun t => t.kr p = s.onward p ∧ (t.coreOf p).slot = none ∧ s.KnOnly t p) := by
  have hx : (s.fetched p).knExec p i = .ok (s.fetched p) .seq := by simp only [State.knExec, hop]
  refine gives_flow h hop rfl hx rfl (fun t ht hkn => ?_)
  rw [State.flow_seq_place] at ht
  obtain ⟨hkr, hrest⟩ := Prod.mk.inj ht
  have hran : s.HasRun (s.fetched p) p (s.rs p) := (State.Traced.refl _ p).ran_self
  rw [hran.after, s.fetched_kr] at hkr
  exact ⟨hkr, (Prod.mk.inj hrest).1, (s.fetched_knOnly p).trans hkn⟩

/-- A LOOP over a body. -/
theorem gives_loop {n : Int} (h : s.issues p i = true) (hop : i.op = .loop) (hn : loopCount (s.rs p) i = some n) (hpos : 0 < n) :
    Gives (.loop p) s (fun t => t.kr p = { (s.rs p).looped i.n n with pc := BitVec.ofNat 17 ((s.rs p).pc.toNat + 1) } ∧ s.KnOnly t p) := by
  obtain ⟨hplaced, w, ps, hw, hdecode⟩ := State.issues_placed h
  have hfetched : ((s.fetched p).coreOf p).slot = none := by
    rw [(s.fetched_traced p).slot]
    exact CoreSt.slot_of_placed hplaced (by rw [hop]; decide)
  rw [← s.fetched_kr] at hn
  have hx := State.knExec_loop hop hn
  rw [if_neg (by omega), s.fetched_kr] at hx
  refine gives_flow h hop rfl hx rfl (fun t ht hkn => ⟨?_, (s.looped_knOnly p _).trans hkn⟩)
  have hafter := CoreSt.after_outside (c := (((s.fetched p).setKr p ((s.rs p).looped i.n n)).emptyLoop p).coreOf p)
    (by rw [State.coreOf_looped]; exact hfetched)
    (by rw [State.coreOf_looped]; exact (s.rs p).inBody_looped (knDecode_loop hdecode hop) (loop_length hw hdecode hop) n)
  rw [State.flow_seq_place] at ht
  rw [(Prod.mk.inj ht).1, hafter, State.kr, State.coreOf_looped]
  dsimp only [CoreRegs.looped]
  rw [ofNat_mod]

/-- A LOOP that skips its body. -/
theorem gives_loop_skipped {n : Int} (h : s.issues p i = true) (hop : i.op = .loop) (hn : loopCount (s.rs p) i = some n) (hneg : n ≤ 0) :
    Gives (.loop p) s (fun t => (t.kr p).lcount = 0 ∧ (t.kr p).pc = BitVec.ofNat 17 ((s.rs p).pc.toNat + 1 + i.n) ∧ s.KnOnly t p) := by
  rw [← s.fetched_kr] at hn
  have hx := State.knExec_loop hop hn
  rw [if_pos hneg, s.fetched_kr] at hx
  refine gives_flow h hop rfl hx rfl (fun t ht hkn => ?_)
  rw [State.flow, State.place_setCore] at ht
  rw [(Prod.mk.inj ht).1, State.coreOf_looped]
  refine ⟨?_, ?_, (s.looped_knOnly p _).trans hkn⟩
  · dsimp only [CoreRegs.looped]
    rw [Int.toNat_of_nonpos hneg]
    rfl
  · dsimp only
    rw [ofNat_mod]

end

/-- Settles O24: a branch keeps its target for after its delay slot, and the word after an instruction is the one `after` gives. -/
theorem branchesAndJumps : Obligations.BranchesAndJumps := by
  unfold Obligations.BranchesAndJumps
  refine ⟨?eq, ?ne, ?lt, ?ge, ?gt, ?le, ?teq, ?tne, ?jump, ?jumpx, ?inSlot, ?loop, ?skipped, ?turns, ?ends⟩
  case jump =>
    intro s p i d h hop hd hx
    refine gives_slot h hop rfl ?_
    rw [← s.fetched_execFault, ← s.fetched_actSet] at hx
    simp only [State.knExec, hop, s.fetched_r, hd, State.doJump_ok hx]
  case jumpx =>
    intro s p i d h hop htag hd hx
    refine gives_slot h hop rfl ?_
    rw [← s.fetched_execFault, ← s.fetched_actSet] at hx
    simp only [State.knExec, hop, State.viaX, s.fetched_kr, htag, need, beq_self_eq_true, if_true, hd, State.doJump_ok hx]
  case inSlot =>
    intro s p i b d h hop hslot
    have hnext : s.onward p = { s.rs p with pc := BitVec.ofNat 17 d } := by
      simp only [State.onward, CoreSt.after, hslot]
      rfl
    rw [← hnext]
    exact gives_nop h hop
  case loop =>
    intro s p i n h hop hn hpos
    obtain ⟨t, ht, hkr, hkn⟩ := gives_loop h hop hn hpos
    refine ⟨t, ht, ?_⟩
    beta_reduce
    have hend : (s.rs p).pc.toNat + 1 + i.n - 1 = (s.rs p).pc.toNat + i.n := by omega
    rw [hkr, CoreRegs.looped, hend]
    exact ⟨rfl, rfl, rfl, rfl, rfl, hkn⟩
  case skipped => exact fun s p i n h hop hn hneg => gives_loop_skipped h hop hn hneg
  case turns =>
    intro s p i h hop hslot hcount hstart hend
    obtain ⟨t, ht, hkr, -, -⟩ := gives_nop h hop
    refine ⟨t, ht, ?_⟩
    have hne : (s.rs p).lcount ≠ 0 := by
      intro h0
      rw [h0] at hcount
      exact absurd hcount (by decide)
    have hne1 : ((s.rs p).lcount == 1) = false := beq_eq_false_iff_ne.mpr (by
      intro h1
      rw [h1] at hcount
      exact absurd hcount (by decide))
    have hafter : ((s.issue p).coreOf p).after =
        if (s.rs p).lcount == 1 then (((s.rs p).pc.toNat + 1) % 2 ^ 17, 0) else ((s.rs p).lstart.toNat, (s.rs p).lcount - 1) :=
      CoreSt.after_loopEnd hslot hne hstart hend
    beta_reduce
    rw [hkr, State.onward, hafter, hne1]
    dsimp only
    rw [if_neg (by decide), BitVec.ofNat_toNat, BitVec.setWidth_eq]
  case ends =>
    intro s p i h hop hslot hcount hstart hend
    obtain ⟨t, ht, hkr, -, -⟩ := gives_nop h hop
    refine ⟨t, ht, ?_⟩
    have hafter : ((s.issue p).coreOf p).after =
        if (s.rs p).lcount == 1 then (((s.rs p).pc.toNat + 1) % 2 ^ 17, 0) else ((s.rs p).lstart.toNat, (s.rs p).lcount - 1) :=
      CoreSt.after_loopEnd hslot (by change (s.rs p).lcount ≠ 0; rw [hcount]; decide) hstart hend
    beta_reduce
    rw [hkr, State.onward, hafter, hcount]
    dsimp only
    rw [if_pos (by decide), ofNat_mod, hend]
  all_goals exact fun s p i g h hop hg => gives_branch rfl (by decide) h hop hg

end Machine
end Sys2Proof
end

section
/-! PROOFS. A LEVEL source whose MSI-X message is orphaned (R309, R312): its route is pending again at once while its line stands. -/

namespace Sys2Proof
namespace Machine

/-- A LEVEL source on the CAN FD line of source 46, which stands: its message waits for vector 0 of PF0, which is not enabled. -/
def standingLine : State :=
  let s := (State.reset.setF (R.EVR_SRC 46) F.EVR_SRC_SENSE 3).setF (R.EVR_TGT 46) F.EVR_TGT_KIND 2
  { s with evr := { s.evr with filt := [46], routes := [(46, { idleRoute with st := .pending, src := 46, cnt := 1 })] } }

/-- Refutes O33, by the clause of an MSI-X message that becomes an orphan: it claims that the route is IDLE then, of a LEVEL source
too, whose standing line makes the route pending again. -/
theorem not_eventRouting : ¬ Obligations.EventRouting := by
  unfold Obligations.EventRouting
  rintro ⟨-, -, -, -, -, -, -, -, -, -, -, -, -, -, horphaned, -⟩
  obtain ⟨t, ht, hidle, -⟩ := horphaned standingLine 46 0 (by decide +kernel) (by decide +kernel) (by decide +kernel)
    (.inr (by decide +kernel)) (by decide +kernel) (by decide +kernel) (by decide +kernel) (by decide) (by decide +kernel)
    (by decide +kernel)
  have hpending : ((standingLine.msixIssue 46).route 46).st = .pending := by decide +kernel
  have hnext : standingLine.msixIssue 46 = t := Host.Outcome.next.inj ht
  rw [← hnext] at hidle
  exact absurd (hpending.symm.trans hidle) (by decide)

end Machine
end Sys2Proof
end

section
/-! PROOFS. A doorbell that PF0, stopped, rings for another function (R341, R350): it is discarded outside PF0's own pages. -/

namespace Sys2Proof
namespace Machine

/-- VF1 is enabled with its submission ring 0 of 16 entries, and PF0, which has been disabled, is stopped. -/
def stoppedPf0 : State :=
  let s0 := { State.reset with vfEnable := true, numVfs := 15 }.setF R.DEV_MODE F.DEV_MODE_MODE mdHosted
  let s1 := (s0.setF R.DEV_BOOT_STAT F.DEV_BOOT_STAT_DONE 1).setF R.HIF_LINK F.HIF_LINK_UP 1
  let s2 := (s1.setF (R.HIF_FN_STAT 1) F.HIF_FN_STAT_EN 1).setF (R.RNG_SQ_CFG 1 0) F.RNG_SQ_CFG_EN 1
  (s2.setF (R.RNG_SQ_CFG 1 0) F.RNG_SQ_CFG_LOG2DEPTH 4).setFn 0 { s2.fnOf 0 with stopped := true }

/-- Refutes O38, by the clause of a tail within its ring: it does not ask that the function that writes is not stopped. A write of
a stopped PF0 to the doorbell page of VF1 is discarded. -/
theorem not_ringsAndDoorbells : ¬ Obligations.RingsAndDoorbells := by
  unfold Obligations.RingsAndDoorbells
  rintro ⟨htail, -⟩
  obtain ⟨t, ht, htaken, -⟩ := htail stoppedPf0 0 1 0 5 (by decide +kernel) (by decide +kernel) (by decide +kernel)
    (by decide +kernel) (by decide +kernel) (.inr rfl) (by decide +kernel) (by decide +kernel) (by decide +kernel) (by decide +kernel)
  have hdropped : (stoppedPf0.write (descAccess 0) (fnBase 1 + 0x8000) 5).getF (R.RNG_SQ_HEAD 1 0) F.RNG_SQ_HEAD_TAIL = 0 := by
    decide +kernel
  have hnext : stoppedPf0.write (descAccess 0) (fnBase 1 + 0x8000) 5 = t := Host.Outcome.next.inj ht
  rw [← hnext] at htaken
  exact absurd (hdropped.symm.trans htaken) (by decide)

end Machine
end Sys2Proof
end

section
/-! PROOFS. A FLASH_OP descriptor that holds its page although it has not begun (R353, R425). -/

namespace Sys2Proof
namespace Machine

/-- A FLASH_OP whose word 0 has a reserved bit set, in the state of one whose page has been read, though it has not begun. -/
def pagedFlash : Flight :=
  { newFlight 0 0 { descOf (Vector.replicate 16 0) with op := 0x0C, bad := true } with await := .page [] }

/-- PF0 is enabled, and that descriptor is its only one. -/
def pagedPf0 : State :=
  let s := State.reset.setF (R.HIF_FN_STAT 0) F.HIF_FN_STAT_EN 1
  s.setFn 0 { s.fnOf 0 with flights := [pagedFlash] }

/-- Refutes O36, by the clause of a FLASH_OP with a field out of range: it claims that every one that may begin completes, and the
model leaves one that already holds a page and has not begun as it is. -/
theorem not_descriptorsOfTheModule : ¬ Obligations.DescriptorsOfTheModule := by
  unfold Obligations.DescriptorsOfTheModule
  rintro ⟨-, -, -, -, -, -, -, -, -, -, -, -, -, -, -, -, -, -, -, -, -, hparam, -⟩
  obtain ⟨t, ht, ⟨hgone, -⟩, -⟩ := hparam pagedPf0 0 0 pagedFlash (by decide +kernel) (by decide +kernel) (.inl rfl)
  have hkept : ((pagedPf0.descFlashOp 0 0).fnOf 0).flights.map (·.pos) = [0] := by decide +kernel
  have hnext : pagedPf0.descFlashOp 0 0 = t := Host.Outcome.next.inj ht
  have hclaimed : ((pagedPf0.fnOf 0).flights.eraseIdx 0).map (·.pos) = [] := by decide +kernel
  rw [← hnext, hkept, hclaimed] at hgone
  cases hgone

end Machine
end Sys2Proof
end

section
/-! PROOFS. A MCODE_LOAD whose flight holds the progress of a read although it has not begun (R342, R354). -/

namespace Sys2Proof
namespace Machine

/-- A MCODE_LOAD of one word at 0x800 of slice 0, with the progress of a read of 5000 requests, though it has not begun. -/
def readingLoad : Flight :=
  let d := descOf (Vector.replicate 16 0)
  { newFlight 0 0 { d with op := 0x0B, p := (d.p.set 0 0x800).set 1 1 } with await := .read [] (5000 * 512) }

/-- PF0 owns slice 0, which is FENCED, and has that descriptor in flight. -/
def fencedWithLoad : State :=
  let s0 := (State.reset.setF (R.SLC_STATE 0) F.SLC_STATE_STATE slFenced).setF (R.DEV_SLC_ASSIGN 0) F.DEV_SLC_ASSIGN_OWNER 0
  let s1 := s0.setF (R.HIF_FN_STAT 0) F.HIF_FN_STAT_EN 1
  s1.setFn 0 { s1.fnOf 0 with flights := [readingLoad], mrrs := 2 }

/-- Refutes O35, by the clause of MCODE_LOAD: it asks that a further request may be issued before the descriptor begins. Once this
one has begun, what its flight holds of a read counts among the requests that wait, and no further one may be issued. -/
theorem not_descriptorsOfSlices : ¬ Obligations.DescriptorsOfSlices := by
  unfold Obligations.DescriptorsOfSlices
  rintro ⟨-, -, -, -, -, -, -, -, -, -, hload, -⟩
  obtain ⟨t, ht, -, hasked, -⟩ := hload fencedWithLoad 0 0 readingLoad 0 (by decide +kernel) (by decide +kernel)
    (by decide +kernel) (by decide +kernel) (by decide +kernel) (by decide +kernel) (by decide +kernel) (by decide +kernel)
    (by decide +kernel) (by decide +kernel)
  have hsilent : (fencedWithLoad.descMcodeLoad 0 0).outs.length = 0 := by decide +kernel
  have hnext : fencedWithLoad.descMcodeLoad 0 0 = t := Host.Outcome.next.inj ht
  rw [← hnext] at hasked
  rw [hasked, List.length_append] at hsilent
  exact absurd hsilent (Nat.succ_ne_zero _)

end Machine
end Sys2Proof
end

section
/-! PROOFS. The time-out of a DISABLE while the entry of a ring is being fetched (R346, R359). -/

namespace Sys2Proof
namespace Machine

/-- PF0 has been disabled 1 ms ago, and the read of an entry of its ring 0 has not been answered. -/
def fetchingWhenDisabled : State :=
  let s := { State.reset with clock := 1500000 }.setF (R.RNG_CTRL 0) F.RNG_CTRL_QUIESCING 1
  s.setFn 0 { s.fnOf 0 with asked := (Vector.replicate 8 false).set 0 true }

/-- Refutes O37, by the clause of a time-out that changes nothing: it names a function without flights and completions, but an entry
that is being fetched counts as in flight too, and the time-out then aborts with cause 7. -/
theorem not_linkAndFunctions : ¬ Obligations.LinkAndFunctions := by
  unfold Obligations.LinkAndFunctions
  rintro ⟨-, -, -, -, -, -, -, -, -, -, -, -, -, -, -, -, -, -, -, -, -, -, -, -, -, -, -, -, -, -, -, -, -, -, -, -, -, -, htimeout⟩
  obtain ⟨t, ht, hsame⟩ := htimeout fetchingWhenDisabled 0 (.inr (.inr (.inl ⟨by decide +kernel, by decide +kernel⟩)))
  have haborted : ((fetchingWhenDisabled.disableTimeout 0).fnOf 0).cause = 7 := by decide +kernel
  have hnext : fetchingWhenDisabled.disableTimeout 0 = t := Host.Outcome.next.inj ht
  rw [hnext, hsame] at haborted
  exact absurd haborted (by decide +kernel)

end Machine
end Sys2Proof
end

section
/-! PROOFS. The write of a stopped function to a SEC register (R459, R363): it is discarded in the function's own count. -/

namespace Sys2Proof
namespace Machine

/-- The module is up and hosted with its link, and PF0, which has been disabled, is stopped. -/
def stoppedFunction : State :=
  let s := (State.reset.setF R.DEV_MODE F.DEV_MODE_MODE mdHosted).setF R.DEV_BOOT_STAT F.DEV_BOOT_STAT_DONE 1
  (s.setF R.HIF_LINK F.HIF_LINK_UP 1).setFn 0 { s.fnOf 0 with stopped := true }

/-- Refutes O53, by the clause of unauthorised writes: it does not ask that the function that writes is not stopped. The write of
a stopped function is discarded and counted in its HIF_FN_ERR, and HIF_BADACC stays at 0. -/
theorem not_secWriteAuthority : ¬ Obligations.SecWriteAuthority := by
  unfold Obligations.SecWriteAuthority
  rintro ⟨hclause, -⟩
  obtain ⟨t, ht, hcounted, -⟩ := hclause stoppedFunction ⟨.fn 0, false, false⟩ R.SEC_CMD 0 (by decide +kernel)
    (by decide +kernel) (by decide +kernel) (by decide +kernel) (by decide +kernel) (by decide +kernel) (by decide +kernel)
    (by decide +kernel) (by decide +kernel)
  have huncounted : ((stoppedFunction.writeAt ⟨.fn 0, false, false⟩ R.SEC_CMD 15 0).keepWritten stoppedFunction R.SEC_CMD 0).reg
      R.HIF_BADACC ≠ BitVec.ofNat 32 (min 4294967295 ((stoppedFunction.reg R.HIF_BADACC).toNat + 1)) := by decide +kernel
  have hnext := Host.Outcome.next.inj ((exec_registerWrite _ _ _ _ _ _).symm.trans ht)
  rw [← hnext] at hcounted
  exact huncounted hcounted

end Machine
end Sys2Proof
end

section
/-! PROOFS. A sealed request is executed once (R461, R464): an old SEQ is answered again or discarded, whatever the request would do. -/

namespace Sys2Proof
namespace Machine

/-- What the statement compares of a session: all but its transport, its time and its keys. -/
@[reducible] def Session.holds (z : Session) : Nat × Option Nat × Option Nat × Option Resp × List Packet :=
  (z.auth, z.asked, z.last, z.resp, z.trace)

/-- No session, pair, slice control or cell differs. -/
def State.HoldsStill (s t : State) : Prop :=
  (∀ k : Fin 4, (t.dbg.sess.get k).map Session.holds = (s.dbg.sess.get k).map Session.holds) ∧ t.core = s.core ∧ t.ctl = s.ctl ∧
    t.cells = s.cells

theorem State.holdsStill_of_sess {s t : State} (hd : t.dbg.sess = s.dbg.sess) (hcore : t.core = s.core) (hctl : t.ctl = s.ctl)
    (hcells : t.cells = s.cells) : s.HoldsStill t :=
  ⟨fun _ => by rw [hd], hcore, hctl, hcells⟩

theorem State.HoldsStill.trans {s t u : State} (h : s.HoldsStill t) (h' : t.HoldsStill u) : s.HoldsStill u := by
  obtain ⟨hsess, hcore, hctl, hcells⟩ := h
  obtain ⟨hsess', hcore', hctl', hcells'⟩ := h'
  exact ⟨fun k => (hsess' k).trans (hsess k), hcore'.trans hcore, hctl'.trans hctl, hcells'.trans hcells⟩

/-! Taking a message and sending one. -/

@[simp] theorem State.taken_outs (s : State) (t : Nat) : (s.taken t).outs = s.outs := by
  unfold State.taken; split <;> rfl

theorem State.taken_holdsStill (s : State) (t : Nat) : s.HoldsStill (s.taken t) := by
  unfold State.taken
  split <;> exact State.holdsStill_of_sess rfl rfl rfl rfl

@[simp] theorem State.send_outs (s : State) (t ty : Nat) (sess seq : Option Nat) (o : Out) :
    (s.send t ty sess seq o).outs = s.outs ++ [o] := by
  unfold State.send; split <;> rfl

/-- A message that leaves changes no session, pair, slice control or cell. -/
theorem State.send_same (s : State) (t ty : Nat) (sess seq : Option Nat) (o : Out) :
    (s.send t ty sess seq o).dbg.sess = s.dbg.sess ∧ (s.send t ty sess seq o).core = s.core ∧ (s.send t ty sess seq o).ctl = s.ctl ∧
      (s.send t ty sess seq o).cells = s.cells := by
  unfold State.send
  split <;> exact ⟨rfl, rfl, rfl, rfl⟩

theorem State.send_holdsStill (s : State) (t ty : Nat) (sess seq : Option Nat) (o : Out) :
    s.HoldsStill (s.send t ty sess seq o) := by
  obtain ⟨hsess, hcore, hctl, hcells⟩ := s.send_same t ty sess seq o
  exact State.holdsStill_of_sess hsess hcore hctl hcells

/-- A session's transport and time may change. -/
theorem State.setSess_holdsStill (s : State) (k : Fin 4) (x y : Session) (hx : s.dbg.sess.get k = some x) (hy : y.holds = x.holds) :
    s.HoldsStill (s.setDbg { s.dbg with sess := s.dbg.sess.set k (some y) }) := by
  refine ⟨fun j => ?_, rfl, rfl, rfl⟩
  show ((s.dbg.sess.set k (some y)).get j).map _ = _
  rw [vget_set]
  split
  next h => rw [h, hx]; exact congrArg some hy
  next => rfl

/-! An old request. -/

/-- The request of the last SEQ is answered again. -/
theorem State.request_again {s : State} {q : ColbelReq} {y : Session} {r : Resp} (run : State → Session → Ran)
    (hy : s.dbg.sess.get q.sess = some y) (hav : s.colbelAvail = true) (hw : s.waits q.tr = true) (htag : q.tagOk = true)
    (hlast : y.last = some q.seq.toNat) (hresp : y.resp = some r) :
    (s.request q run).outs = s.outs ++ [.colbel q.tr q.sess q.seq.toNat r] ∧ s.HoldsStill (s.request q run) := by
  have htaken := s.taken_holdsStill q.tr
  have hy' : (s.taken q.tr).dbg.sess.get q.sess = some y := by
    have h : (s.taken q.tr).dbg.sess = s.dbg.sess := by unfold State.taken; split <;> rfl
    rw [h, hy]
  have hset := (s.taken q.tr).setSess_holdsStill q.sess y { y with tr := q.tr.val, at_ := s.clock } hy' rfl
  have hrun : s.request q run = (((s.taken q.tr).setDbg { (s.taken q.tr).dbg with
      sess := (s.taken q.tr).dbg.sess.set q.sess (some { y with tr := q.tr.val, at_ := s.clock }) }).send q.tr tySealed
        (some q.sess.val) (some q.seq.toNat) (.colbel q.tr q.sess q.seq.toNat r)) := by
    simp [State.request, hav, hw, hy, htag, hlast, hresp]
  rw [hrun]
  exact ⟨by rw [State.send_outs]; exact congrArg (· ++ _) (s.taken_outs q.tr),
    htaken.trans (hset.trans (State.send_holdsStill ..))⟩

/-- A request of a lower SEQ is taken and discarded. -/
theorem State.request_older {s : State} {q : ColbelReq} {y : Session} {l : Nat} (run : State → Session → Ran)
    (hy : s.dbg.sess.get q.sess = some y) (hav : s.colbelAvail = true) (hw : s.waits q.tr = true) (htag : q.tagOk = true)
    (hlast : y.last = some l) (hold : q.seq.toNat < l) : s.request q run = s.taken q.tr := by
  have hne : l ≠ q.seq.toNat := by omega
  simp [State.request, hav, hw, hy, htag, hlast, hne, hold]

/-- If c is the sealed request q, and no memory that it names is stalled, it is a request with some effect. -/
def SealedRuns (s : State) (q : ColbelReq) (c : Instr) : Prop :=
  sealedReq c = some q → s.sealedWaits c = false → ∃ run, exec c s = .next (s.request q run)

theorem sealedRuns_of_none {s : State} {q : ColbelReq} {c : Instr} (h : sealedReq c = none) : SealedRuns s q c :=
  fun hc => nomatch h.symm.trans hc

theorem sealedRuns_of_exec {s : State} {q r : ColbelReq} {c : Instr} {run : State → Session → Ran} (hr : sealedReq c = some r)
    (h : exec c s = .next (s.request r run)) : SealedRuns s q c :=
  fun hc _ => ⟨run, Option.some.inj (hr.symm.trans hc) ▸ h⟩

/-- Each of the eighteen sealed requests, unless a memory that it names is stalled, is a request with some effect. -/
theorem exec_of_sealedReq (s : State) (q : ColbelReq) (c : Instr) : SealedRuns s q c := by
  have hmem : ∀ {b : Bool} {t : State}, b = false → (if b = true then s else t) = t := fun h => by simp [h]
  cases c
  case readMem | writeMem =>
    intro hc hw
    cases hc
    exact ⟨_, congrArg Host.Outcome.next (hmem hw)⟩
  case auth | authSignature | info | attach | detach | halt | colbelResume | step | readCore | writeCore | setBp | setWp | testOut |
      traceCfg | token | keepalive =>
    exact sealedRuns_of_exec rfl rfl
  all_goals exact sealedRuns_of_none rfl

/-- Settles O54: the command is a request, and one of an old SEQ does not run. -/
theorem sealedRequestsRunOnce : Obligations.SealedRequestsRunOnce := by
  unfold Obligations.SealedRequestsRunOnce
  constructor
  · intro s c q y l r hc hwait hy hav hw htag hlast hl hresp
    obtain ⟨run, hrun⟩ := exec_of_sealedReq s q c hc hwait
    exact ⟨_, hrun, State.request_again run hy hav hw htag (hl ▸ hlast) hresp⟩
  · intro s c q y l hc hwait hy hav hw htag hlast hold
    obtain ⟨run, hrun⟩ := exec_of_sealedReq s q c hc hwait
    refine ⟨_, hrun, ?_⟩
    rw [State.request_older run hy hav hw htag hlast hold]
    exact ⟨s.taken_outs q.tr, s.taken_holdsStill q.tr⟩

end Machine
end Sys2Proof
end

section
/-! PROOFS. The ring registers of a function page (R345): what a served write of one does while its function is disabled, and
otherwise. -/

namespace Sys2Proof
namespace Machine

/-- Above the map of R12 stand the model's keys of registers. -/
theorem spaceOf_above {a : Nat} (h : 0x100000000 ≤ a) : spaceOf a = .reg := by
  have hplain : inPlain a = false := by simp only [inPlain, Bool.and_eq_false_imp, decide_eq_true_eq, decide_eq_false_iff_not]; omega
  have hmain : inMain a = false := by simp only [inMain, Bool.and_eq_false_imp, decide_eq_true_eq, decide_eq_false_iff_not]; omega
  unfold spaceOf sysKcBase
  rw [if_neg (by omega), if_neg (by omega), if_neg (by omega), if_neg (by omega), if_neg (by omega), if_neg (by omega), hplain,
    if_neg Bool.false_ne_true, hmain, if_neg Bool.false_ne_true, if_neg (by omega), if_pos h]

/-- A served write of a function page is one by that function. -/
theorem State.regWrite_page (s : State) (x : Access) (f : Fin 16) (off : Nat) (v : Word) (hoff : off < 0x8000)
    (h : s.reaches x (fnBase f + off) = true) :
    s.regWrite x (fnBase f + off) v = s.pageWrite f off (fnBase f + off) v := by
  simp only [State.reaches, State.takesWrite, Bool.and_eq_true, Bool.not_eq_true'] at h
  obtain ⟨⟨⟨⟨-, hreach⟩, -⟩, hkc⟩, hfree⟩ := h
  have hf := f.isLt
  have hdev : ¬(0x01000000 ≤ fnBase f + off ∧ fnBase f + off < 0x01800000) := by unfold fnBase; omega
  have hslice : ¬(0x02000000 ≤ fnBase f + off ∧ fnBase f + off < 0x02C00000) := by unfold fnBase; omega
  have hpage : 0x100000000 ≤ fnBase f + off ∧ fnBase f + off < 0x100100000 := by unfold fnBase; omega
  have hnum : (fnBase f + off - 0x100000000) / 0x10000 = f.val := by unfold fnBase; omega
  have hin : (fnBase f + off) % 0x10000 = off := by unfold fnBase; omega
  cases hm : x.m with
  | fn g =>
    have hkept := s.breakResv_unreserved x _ hfree
    rw [hm] at hkept
    simp only [State.regWrite, hkept, hkc, Bool.false_eq_true, if_false, hdev, hslice, hpage, and_self,
      dite_true, dite_false, hnum, hin, hm, hoff, if_true]
  | sys | core n | dma e | mon =>
    simp [State.reach, hdev, hslice, hpage, hm] at hreach

/-- A served REGISTER_WRITE of a word to a function page. -/
theorem exec_registerWrite_page {s : State} {x : Access} {f : Fin 16} {off : Nat} (v : Word) (hoff : off < 0x8000)
    (h : s.reaches x (fnBase f + off) = true) :
    exec (.registerWrite x ⟨fnBase f + off, 15, 0⟩ v) s = .next (s.pageWrite f off (fnBase f + off) v) := by
  have hcells : isCells (fnBase f + off) = false := isCells_reg (spaceOf_above (by unfold fnBase; omega))
  have htakes : s.takesWrite x (fnBase f + off) = true := by
    simp only [State.reaches, Bool.and_eq_true] at h
    exact h.1
  rw [exec_registerWrite, State.keepWritten_zero, s.writeAt_reg x _ v hcells, s.write_of_takesWrite x _ v htakes,
    s.regWrite_page x f off v hoff h]

/-! What a write of a ring register does. -/

theorem State.fnErr_rest (s : State) (f : Nat) : s.fnErr f = { s with regs := (s.fnErr f).regs } := rfl

/-- The offsets of the registers of R345: those of the edge ring, and those of the rings. -/
def ringOffset (off : Nat) : Bool :=
  off == 0x110 || off == 0x114 || off == 0x118 || (decide (0x200 ≤ off) && decide (off < 0x300) && off % 4 == 0)

theorem ringOffset_ring {r k : Nat} (hr : r < 8) (hk : k < 0x20) (h4 : k % 4 = 0) : ringOffset (0x200 + k + r * 0x20) = true := by
  simp only [ringOffset, Bool.or_eq_true, Bool.and_eq_true, beq_iff_eq, decide_eq_true_eq]
  exact .inr ⟨⟨by omega, by omega⟩, by omega⟩

/-- The register at offset k of the block of ring r. -/
theorem ring_offset {f r k : Nat} (hr : r < 8) (hk : k < 0x20 ∧ k % 4 = 0) :
    ∃ off, fnBase f + (0x200 + k) + r * 0x20 = fnBase f + off ∧ ringOffset off = true :=
  ⟨0x200 + k + r * 0x20, Nat.add_assoc .., ringOffset_ring hr hk.1 hk.2⟩

theorem ringRegs_offset {f r a : Nat} (hr : r < 8) (ha : a ∈ ringRegs f r) : ∃ off, a = fnBase f + off ∧ ringOffset off = true := by
  simp only [ringRegs, List.mem_cons, List.not_mem_nil, or_false] at ha
  rcases ha with rfl | rfl | rfl | rfl | rfl | rfl | rfl | rfl | rfl | rfl | rfl
  · exact ring_offset (k := 0) hr (by decide)
  · exact ring_offset (k := 4) hr (by decide)
  · exact ring_offset (k := 8) hr (by decide)
  · exact ring_offset (k := 0xC) hr (by decide)
  · exact ring_offset (k := 0x10) hr (by decide)
  · exact ring_offset (k := 0x14) hr (by decide)
  · exact ring_offset (k := 0x18) hr (by decide)
  · exact ring_offset (k := 0x1C) hr (by decide)
  · exact ⟨0x110, rfl, rfl⟩
  · exact ⟨0x114, rfl, rfl⟩
  · exact ⟨0x118, rfl, rfl⟩

theorem ringOffset_lt {off : Nat} (h : ringOffset off = true) : off < 0x300 ∧ off ≠ 0x14 := by
  simp only [ringOffset, Bool.or_eq_true, Bool.and_eq_true, beq_iff_eq, decide_eq_true_eq] at h
  omega

/-- While the function is enabled, or its enable waits, a write of any of them counts an error. -/
theorem State.pageWrite_locked {s : State} {f : Fin 16} {off : Nat} (a : Nat) (v : Word) (hoff : ringOffset off = true)
    (h : (s.fnEn f || s.enPending f) = true) : s.pageWrite f off a v = s.fnErr f := by
  simp only [ringOffset, Bool.or_eq_true, Bool.and_eq_true, beq_iff_eq, decide_eq_true_eq] at hoff
  rcases hoff with ((rfl | rfl) | rfl) | ⟨⟨hlo, hhi⟩, h4⟩
  · simp [State.pageWrite, h]
  · simp [State.pageWrite, h]
  · simp [State.pageWrite, h]
  · have hr : off % 0x20 = 0x0 ∨ off % 0x20 = 0x10 ∨ off % 0x20 = 0x4 ∨ off % 0x20 = 0x14 ∨ off % 0x20 = 0x8 ∨ off % 0x20 = 0x18 ∨
        off % 0x20 = 0xC ∨ off % 0x20 = 0x1C := by omega
    have hedge : off ≠ 0x100 ∧ off ≠ 0x104 ∧ off ≠ 0x110 ∧ off ≠ 0x114 ∧ off ≠ 0x118 := by omega
    obtain ⟨h100, h104, h110, h114, h118⟩ := hedge
    rcases hr with hr | hr | hr | hr | hr | hr | hr | hr <;>
      simp [State.pageWrite, h, hlo, hhi, hr, h100, h104, h110, h114, h118]

/-- Of a disabled function a base register of a ring, or of the edge ring, takes the word. -/
theorem State.pageWrite_base {s : State} {f : Fin 16} {off : Nat} (a : Nat) {v : Word}
    (hoff : off = 0x110 ∨ (0x200 ≤ off ∧ off < 0x300 ∧ (off % 0x20 = 0 ∨ off % 0x20 = 0x10 ∨ off % 0x20 = 4))) (hv : v &&& 0xFFF = 0)
    (h : (s.fnEn f || s.enPending f) = false) : s.pageWrite f off a v = s.setReg a v := by
  have hall : v &&& 4294967295#32 = v := BitVec.and_allOnes
  have haligned : v &&& 4095#32 = 0#32 := hv
  rcases hoff with rfl | ⟨hlo, hhi, hr⟩
  · simp [State.pageWrite, h, hall]
  · have hedge : off ≠ 0x100 ∧ off ≠ 0x104 ∧ off ≠ 0x110 ∧ off ≠ 0x114 ∧ off ≠ 0x118 := by omega
    obtain ⟨h100, h104, h110, h114, h118⟩ := hedge
    rcases hr with hr | hr | hr <;> simp [State.pageWrite, h, hlo, hhi, hr, h100, h104, h110, h114, h118, hall, haligned]

/-- Settles O52: a served write of a ring register is one of its function's page, and the page counts it or takes it. -/
theorem ringRegistersLocked : Obligations.RingRegistersLocked := by
  unfold Obligations.RingRegistersLocked
  constructor
  · intro s x a v f r hx ha hlocked
    obtain ⟨off, rfl, hoff⟩ := ringRegs_offset r.isLt ha
    obtain ⟨hlt, hne⟩ := ringOffset_lt hoff
    have hwrite := State.pageWrite_locked (fnBase f + off) v hoff (by simpa using hlocked)
    refine ⟨_, exec_registerWrite_page v (by omega) hx, ?_⟩
    rw [hwrite]
    have hother : fnBase f + off ≠ R.HIF_FN_ERR f := by unfold R.HIF_FN_ERR; omega
    exact ⟨s.reg_count_ne _ _ _ hother, s.getF_count _ _ (by decide), s.fnErr_rest f,
      fun b hb => s.reg_count_ne _ _ b (by simpa using hb)⟩
  · intro s x a v f r hx ha hv hen hpend
    have hr := r.isLt
    obtain ⟨off, rfl, hoff⟩ : ∃ off, a = fnBase f + off ∧
        (off = 0x110 ∨ (0x200 ≤ off ∧ off < 0x300 ∧ (off % 0x20 = 0 ∨ off % 0x20 = 0x10 ∨ off % 0x20 = 4))) := by
      rcases ha with rfl | rfl | rfl | rfl
      · exact ⟨0x200 + r * 0x20, Nat.add_assoc .., .inr ⟨by omega, by omega, .inl (by omega)⟩⟩
      · exact ⟨0x210 + r * 0x20, Nat.add_assoc .., .inr ⟨by omega, by omega, .inr (.inl (by omega))⟩⟩
      · exact ⟨0x204 + r * 0x20, Nat.add_assoc .., .inr ⟨by omega, by omega, .inr (.inr (by omega))⟩⟩
      · exact ⟨0x110, rfl, .inl rfl⟩
    have hwrite := State.pageWrite_base (fnBase f + off) hoff hv (s := s) (f := f) (by simp [hen, hpend])
    refine ⟨_, exec_registerWrite_page v (by omega) hx, ?_⟩
    rw [hwrite]
    obtain ⟨hword, hrest, hkept⟩ := s.rewrites_setReg (fnBase f + off) v
    exact ⟨hword, hrest, hkept⟩

end Machine
end Sys2Proof
end

section
/-! PROOFS. Records of the twin link that wait for their turn (R395, R397, R402): they are applied when their lane is lost, and one
of a loop whose target is a cell writes the cell. -/

namespace Sys2Proof
namespace Machine

/-- The image of a loop whose target is the cell at offset 0 of slice memory. -/
def cellImage : LoopImage :=
  ⟨false, false, false, false, 0, 0, 0, 0, 0, 0, 0, 0, 0, 0, 0, 0, 0, false, false, 1, F.CLE_TGT_KIND.word 3⟩

/-- A module in TWIN mode, standby for slice 0, with a link on lane 2 and a COMMIT ahead of its turn. -/
def recordAhead : State :=
  let s := (State.reset.setF R.DEV_MODE F.DEV_MODE_MODE mdTwin).setF R.TWN_CFG F.TWN_CFG_EN 1
  let s1 := (s.setF R.TWN_ROLE F.TWN_ROLE_STANDBY 1).setF R.PWY_STAT F.PWY_STAT_PORT_UP 4
  { s1 with twn := { s1.twn with ahead := [(0, .loopRec false 0 0 cellImage 0)] } }

/-- The cells of the state stay as they were: none is listed. -/
theorem recordAhead_cells : recordAhead.cells = [] := by decide +kernel

/-- Refutes O40, by the clause of a port that loses its link: it does not ask that no record of the twin link is ahead of its turn.
The loss of a lane applies such a record, whose loop's target is a cell. -/
theorem not_groupTimeAndPorts : ¬ Obligations.GroupTimeAndPorts := by
  unfold Obligations.GroupTimeAndPorts
  rintro ⟨-, -, -, -, -, -, -, -, -, -, -, -, -, -, -, -, -, -, -, -, hdown, -⟩
  obtain ⟨t, ht, -, -, hcells⟩ := hdown recordAhead 2 (by decide +kernel)
  have hwritten : (recordAhead.lockedNow ((recordAhead.portLose 2).laneLose 2)).cells ≠ [] := by decide +kernel
  have hnext : recordAhead.lockedNow ((recordAhead.portLose 2).laneLose 2) = t := Host.Outcome.next.inj ht
  rw [← hnext, recordAhead_cells] at hcells
  exact hwritten hcells

/-- Refutes O41, by the clause of the loss of the link: it does not ask that no record is ahead of its turn. The loss applies such
a record, whose loop's target is a cell. -/
theorem not_twinRecordsAndHandover : ¬ Obligations.TwinRecordsAndHandover := by
  unfold Obligations.TwinRecordsAndHandover
  rintro ⟨-, -, -, -, -, -, -, -, -, -, -, -, -, -, hloss, -⟩
  obtain ⟨t, ht, -, -, -, -, hcells⟩ := hloss recordAhead (by decide +kernel) (by decide +kernel)
  have hwritten : recordAhead.twinLoss.cells ≠ [] := by decide +kernel
  have hnext : recordAhead.twinLoss = t := Host.Outcome.next.inj ht
  rw [← hnext, recordAhead_cells] at hcells
  exact hwritten hcells

end Machine
end Sys2Proof
end

section
/-! PROOFS. An ERASE of the block that the scrub is rewriting (R411, R418, log 197): it is BUSY, and no erase begins. -/

namespace Sys2Proof
namespace Machine

/-- The scrub has erased block 0 of bank 1 for its rewrite, and FLC_BSEL names that block. -/
def scrubbedBlock : State :=
  let s := State.reset.setF R.FLC_BSEL F.FLC_BSEL_ARRAY 1
  s.setFlc { s.flc with rewrite := some ⟨1, 0, 3, false⟩ }

/-- Refutes O42, by the clause of an ERASE that nothing bars: it does not ask that the scrub has not erased the block for its
rewrite. Such a block is busy to a command. -/
theorem not_flashOperations : ¬ Obligations.FlashOperations := by
  unfold Obligations.FlashOperations
  rintro ⟨herase, -⟩
  obtain ⟨t, ht, hrun, -⟩ := herase scrubbedBlock ⟨.sys, false, false⟩ 0xF1A5 (selOf (scrubbedBlock.reg R.FLC_BSEL))
    (by decide +kernel) rfl rfl (by decide +kernel) (by decide +kernel) (by decide +kernel)
  have hbusy : (scrubbedBlock.write ⟨.sys, false, false⟩ R.FLC_CMD (flcWord 0xF1A5 1)).flc.run = none := by decide +kernel
  have hnext : scrubbedBlock.write ⟨.sys, false, false⟩ R.FLC_CMD (flcWord 0xF1A5 1) = t := Host.Outcome.next.inj ht
  rw [← hnext, hbusy] at hrun
  exact absurd hrun (by decide)

end Machine
end Sys2Proof
end

section
/-! PROOFS. Trace packets (R472 to R475): what a store to a post, the merger and a session's message do to a queue. -/

namespace Sys2Proof
namespace Machine

/-- A register of a slice's block above those of its router sources is none of the router's. -/
theorem routerReg_above (n : Nat) {a : Nat} (h : sliceBase n + 0xA000 ≤ a) (h' : a < sliceBase n + 0x100000) :
    routerReg a = false := by
  unfold sliceBase at h h'
  simp only [routerReg, Bool.or_eq_false_iff, Bool.and_eq_false_iff, decide_eq_false_iff_not]
  omega

/-! A queue and what shows it. -/

theorem State.trcOf_setTrc (s : State) (e : Fin 13) (t : TrcSt) : (s.setTrc e t).trcOf e = t := by
  unfold State.setTrc State.trcOf
  split <;> exact vget_set_self ..

theorem State.setTrc_rest (s : State) (e : Fin 13) (t : TrcSt) :
    s.setTrc e t = { s with regs := (s.setTrc e t).regs, trc := (s.setTrc e t).trc } := by
  unfold State.setTrc
  split <;> rfl

theorem State.setTrc_reg (s : State) (e : Fin 13) (t : TrcSt) {a : Nat} (h : a ≠ R.STP_STAT e) : (s.setTrc e t).reg a = s.reg a := by
  unfold State.setTrc
  split
  · exact (State.reg_setF_ne _ _ _ _ _ h).trans (State.reg_setF_ne _ _ _ _ _ h)
  · rfl

/-- The registers of the post's unit stand outside what a queue shows. -/
theorem STP_DROPS_ne_STP_STAT (e : Nat) : R.STP_DROPS e ≠ R.STP_STAT e := by unfold R.STP_DROPS R.STP_STAT; omega
theorem STP_CTRL_ne_STP_STAT (e : Nat) : R.STP_CTRL e ≠ R.STP_STAT e := by unfold R.STP_CTRL R.STP_STAT; omega

/-- A firing changes no queue. -/
theorem State.fire_trcOf (s : State) (src : Nat) (e : Fin 13) : (s.fire src).trcOf e = s.trcOf e := by
  rw [(s.fire_only src).rest]; rfl

/-! Posts (R472, R474). -/

/-- A core pair's store to a post that it reaches. -/
theorem State.tracePost_of_pair {s : State} {x : Access} {e : Fin 13} {p : Fin 24} {c : Cell}
    (hx : (x.m == .sys || (List.finRange 12).any (fun n => x.m == .core n)) = true) (hup : s.busUp x.m = true)
    (hreach : s.reach x (postAddr e p) true = true) (hthere : s.absentSlice (postAddr e p) = false) (hempty : c.tag ≠ tagEmpty)
    (hcap : c.tag ≠ tagCap) : s.tracePost x e p c = s.postStore e p c := by
  cases hm : x.m with
  | sys | core n =>
    rw [hm] at hup
    simp [State.tracePost, hm, hup, hreach, hthere, hempty, hcap]
  | fn f | mon | dma d => simp [hm] at hx

/-- The packet that a store to a post of a slice makes. -/
def State.postPacket (s : State) (e : Fin 13) (p : Nat) (c : Cell) : Packet :=
  ⟨c.v, s.mtime.setWidth 48, e.val, c.tag, p, s.ptbActive e, (s.trcOf e).seq, false⟩

theorem State.postStore_queued {s : State} {e : Fin 13} {p : Nat} {c : Cell} (he : e.val < 12) (hon : s.postOn e p = true)
    (hroom : (s.trcOf e).queue.length < 12) : s.postStore e p c = s.setTrc e ⟨(s.trcOf e).queue ++ [s.postPacket e p c], (s.trcOf e).lost,
      ((s.trcOf e).seq + 1) % 65536⟩ := by
  simp [State.postStore, hon, hroom, he, State.postPacket]

theorem State.postStore_filtered {s : State} {e : Fin 13} {p : Nat} {c : Cell} (he : e.val < 12) (hon : s.postOn e p = false) :
    s.postStore e p c = s.count (R.STP_FILTERED e) F.STP_FILTERED_COUNT := by
  simp [State.postStore, hon, he]

theorem State.postStore_dropped {s : State} {e : Fin 13} {p : Nat} {c : Cell} (hon : s.postOn e p = true)
    (hfull : 12 ≤ (s.trcOf e).queue.length) (hlevel : postLevel p ≠ 0) :
    s.postStore e p c = (s.setTrc e { s.trcOf e with seq := ((s.trcOf e).seq + 1) % 65536 }).traceDrop e := by
  have hfull' : ¬ (s.trcOf e).queue.length < 12 := by omega
  simp [State.postStore, hon, hfull', hlevel]

/-- What a drop of a slice's packet does (R474). -/
structure State.Dropped (s t : State) (e : Fin 13) : Prop where
  queue : t.trcOf e = { s.trcOf e with lost := true }
  count : t.getF (R.STP_DROPS e) F.STP_DROPS_COUNT =
    min F.STP_DROPS_COUNT.top (s.getF (R.STP_DROPS e) F.STP_DROPS_COUNT + 1)
  flag : t.isSet (R.STP_STAT e) F.STP_STAT_DROP_F = true
  dbg : t.dbg = s.dbg
  cells : t.cells = s.cells

theorem State.traceDrop_dropped (s : State) {e : Fin 13} (he : e.val < 12) : s.Dropped (s.traceDrop e) e := by
  have hdrop : s.traceDrop e = ((((s.setTrc e { s.trcOf e with lost := true }).count (R.STP_DROPS e) F.STP_DROPS_COUNT).setF (R.STP_STAT e)
      F.STP_STAT_DROP_F 1).fireLocal e 21) := by simp [State.traceDrop, he]
  have hdrops := STP_DROPS_ne_STP_STAT e
  have hown : routerReg (R.STP_DROPS e) = false ∧ routerReg (R.STP_STAT e) = false := by
    constructor <;> apply routerReg_above e <;> simp only [R.STP_DROPS, R.STP_STAT] <;> omega
  rw [hdrop]
  refine ⟨?_, ?_, ?_, ?_, ?_⟩
  · exact (State.fire_trcOf ..).trans (s.trcOf_setTrc e _)
  · unfold State.getF
    rw [State.fireLocal_reg _ _ _ _ hown.1, State.reg_setF_ne _ _ _ _ _ hdrops]
    exact (State.getF_count _ _ _ (by decide)).trans (by
      unfold State.getF
      rw [State.setTrc_reg _ _ _ hdrops])
  · unfold State.isSet State.getF
    rw [State.fireLocal_reg _ _ _ _ hown.2]
    exact State.isSet_setF_one _ _ _
  · rw [State.fireLocal, (State.fire_only ..).rest, State.setF_dbg, State.count_dbg, State.setTrc_rest]
  · rw [State.fireLocal, (State.fire_only ..).rest, State.setF_cells, State.count_cells, State.setTrc_rest]

/-! The merger (R474) and what a session is sent (R475). -/

/-- The state in which the merger delivers the oldest packet of a source's queue. -/
def State.mergeTaken (s : State) (e : Fin 13) (rest : List Packet) : State :=
  { s.setTrc e { s.trcOf e with queue := rest } with mergeNext := (e.val + 1) % 13, mergeFrom := s.clock + 6 }

theorem State.traceMerge_taken {s : State} {e : Fin 13} {p : Packet} {l : List Packet} (hdue : s.mergeFrom ≤ s.clock)
    (hpick : s.mergePick = some e) (hq : (s.trcOf e).queue = p :: l) :
    s.traceMerge = match (s.mergeTaken e l).deliverPacket e { p with lost := (s.trcOf e).lost } with
      | some t => t.setTrc e { t.trcOf e with lost := false }
      | none => (s.mergeTaken e l).traceDrop e := by
  simp only [State.traceMerge, hdue, if_true, hpick, hq]
  rfl

/-- The registers but what shows the queue stand as they were. -/
theorem State.mergeTaken_getF (s : State) (e : Fin 13) (l : List Packet) {a : Nat} (h : a ≠ R.STP_STAT e) (f : Fld) :
    (s.mergeTaken e l).getF a f = s.getF a f := congrArg f.get (s.setTrc_reg e _ h)

theorem State.mergeTaken_trcOf (s : State) (e : Fin 13) (l : List Packet) : (s.mergeTaken e l).trcOf e = { s.trcOf e with queue := l } :=
  s.trcOf_setTrc e _

theorem State.mergeTaken_dbg (s : State) (e : Fin 13) (l : List Packet) : (s.mergeTaken e l).dbg = s.dbg := by
  rw [State.mergeTaken, State.setTrc_rest]

theorem State.mergeTaken_cells (s : State) (e : Fin 13) (l : List Packet) : (s.mergeTaken e l).cells = s.cells := by
  rw [State.mergeTaken, State.setTrc_rest]

/-- No queue holds a packet: the merger serves none. -/
theorem State.mergePick_none {s : State} (h : ∀ e : Fin 13, (s.trcOf e).queue = []) : s.mergePick = none := by
  have hnone : (List.range 13).find? (fun _ => false) = none := List.find?_eq_none.mpr (by simp)
  simp [State.mergePick, h, hnone]

/-- A packet waits to be sent to the session named. -/
theorem State.sessionPut_some {s : State} {k : Nat} {y : Session} (p : Packet) (hy : s.dbg.sess.toList[k]? = some (some y)) :
    ∃ t, s.sessionPut k p = some t ∧ t = { s with dbg := t.dbg } ∧
      t.dbg.sess.toList[k]? = some (some { y with trace := y.trace ++ [p] }) := by
  refine ⟨{ s with dbg := { s.dbg with sess := s.dbg.sess.setIfInBounds k (some { y with trace := y.trace ++ [p] }) } }, ?_, rfl, ?_⟩
  · simp only [State.sessionPut, hy]
  · have hk : k < 4 := by simpa using List.getElem?_eq_some_iff.mp hy |>.1
    simp [hk]

theorem State.traceSend_sent {s : State} {k : Fin 4} {y : Session} (hy : s.dbg.sess.get k = some y) (hl : y.trace ≠ [])
    (hav : s.colbelAvail = true) : s.traceSend k =
      ({ s with dbg := { s.dbg with sess := s.dbg.sess.set k (some { y with trace := y.trace.drop 112 }) } }.send y.tr tySealed
        (some k.val) none (.colbelTrace y.tr k (y.trace.take 112))) := by
  simp [State.traceSend, hy, hl, hav]

end Machine
end Sys2Proof
end

section
/-! PROOFS. The control register of a perturbation unit (R476 to R478). -/

namespace Sys2Proof
namespace Machine

/-! Writes reach the unit. -/

theorem State.sliceWrite_ptb (s : State) (x : Access) (n : Slice) {o : Nat} (a : Nat) (v : Word) (hlo : 0xC000 ≤ o)
    (hhi : o < 0xD000) : s.sliceWrite x n o a v = s.ptbWrite x n.castSucc a v := by
  rw [State.sliceWrite, if_neg (by omega), dif_neg (by omega)]
  iterate 10 rw [if_neg (by omega)]
  rw [if_pos hhi]

/-- A served write of a device-wide register is that of its unit. -/
theorem State.write_deviceReg {s : State} {x : Access} {a : Nat} (v : Word) (hlo : 0x01000000 ≤ a) (hhi : a < 0x01140000)
    (h : s.reaches x a = true) : s.write x a v = s.deviceWrite x a v :=
  (s.write_of_reaches x a v h).trans (s.regWrite_device x a v hlo (by omega) (Bool.and_eq_true_iff.mp h).2)

/-- An address in the block of an absent slice is not reached. -/
theorem State.fitted_of_reaches {s : State} {x : Access} {n : Slice} {o : Nat} (ho : o < 0x100000)
    (h : s.reaches x (sliceBase n + o) = true) : s.fitted n = true := by
  have hn := n.isLt
  have hin : 0x02000000 ≤ sliceBase n + o ∧ sliceBase n + o < 0x02C00000 := by unfold sliceBase; omega
  have hnum : (sliceBase n + o - 0x02000000) / 0x100000 = n.val := by unfold sliceBase; omega
  simp only [State.reaches, State.takesWrite, Bool.and_eq_true, Bool.not_eq_true'] at h
  obtain ⟨⟨⟨-, hthere⟩, -⟩, -⟩ := h
  simpa [State.absentSlice, hin, hnum] using hthere

/-- A served write of a register of a perturbation unit is that of the unit. -/
theorem State.write_ptbReg {s : State} {x : Access} {e : Fin 13} {o : Nat} (v : Word) (ho : o < 0x1000)
    (h : s.reaches x (ptbBase e + o) = true) : s.write x (ptbBase e + o) v = s.ptbWrite x e (ptbBase e + o) v := by
  by_cases he : e.val < 12
  · have hbase : ptbBase e + o = sliceBase e.val + (0xC000 + o) := by simp only [ptbBase, he, if_true]; omega
    rw [hbase] at h ⊢
    exact (State.write_sliceReg (n := ⟨e.val, he⟩) v (by omega) h (State.fitted_of_reaches (n := ⟨e.val, he⟩) (by omega) h)).trans
      (s.sliceWrite_ptb x ⟨e.val, he⟩ _ v (by omega) (by omega))
  · have hbase : ptbBase e = 0x01130000 := if_neg he
    have hlast : e = 12 := Fin.ext (by omega)
    have hunit : (ptbBase e + o - 0x01000000) / 0x10000 = 0x13 := by omega
    rw [State.write_deviceReg v (by omega) (by omega) h]
    simp only [State.deviceWrite, hunit]
    rw [hlast]

theorem State.write_PTB_CTRL {s : State} {x : Access} {e : Fin 13} (v : Word) (h : s.reaches x (R.PTB_CTRL e) = true) :
    s.write x (R.PTB_CTRL e) v = if s.ptbMay x then s.ptbCtrl e v else s.ptbRefuse e := by
  have hwrite : s.write x (R.PTB_CTRL e) v = s.ptbWrite x e (R.PTB_CTRL e) v := State.write_ptbReg (o := 0) v (by decide) h
  rw [hwrite]
  cases hm : s.ptbMay x <;> simp [State.ptbWrite, R.PTB_CTRL, hm]

/-! What EN does. -/

/-- EN 1 at rest starts the unit, but not in the cycle of a cause that ends it. -/
theorem State.ptbCtrl_starts {s : State} {e : Fin 13} (hoff : s.isSet (R.PTB_CTRL e) F.PTB_CTRL_EN = false)
    (hcause : (s.ptbCause.get e).map (·.1) ≠ some s.clock) : s.ptbCtrl e 0x80000000 = State.ptbCtrl.begin_ s e := by
  have hon : F.PTB_CTRL_EN.get 0x80000000#32 = 1 := by decide
  cases hc : s.ptbCause.get e with
  | none => simp [State.ptbCtrl, hon, hoff, hc]
  | some q =>
    have hq : q.1 ≠ s.clock := by simpa [hc] using hcause
    simp [State.ptbCtrl, hon, hoff, hc, hq]

theorem State.ptbCtrl_collides {s : State} {e : Fin 13} {k : Nat} (hoff : s.isSet (R.PTB_CTRL e) F.PTB_CTRL_EN = false)
    (hcause : s.ptbCause.get e = some (s.clock, k)) :
    s.ptbCtrl e 0x80000000 = s.setF (R.PTB_CTRL e) F.PTB_CTRL_END k := by
  have hon : F.PTB_CTRL_EN.get 0x80000000#32 = 1 := by decide
  simp [State.ptbCtrl, hon, hoff, hcause]

theorem State.ptbCtrl_ends {s : State} {e : Fin 13} (hrun : s.isSet (R.PTB_CTRL e) F.PTB_CTRL_EN = true) :
    s.ptbCtrl e 0 = s.ptbEnd e 1 := by
  have hoff : F.PTB_CTRL_EN.get 0#32 = 0 := by decide
  simp [State.ptbCtrl, hoff, hrun]

/-- The kinds of R479 fill seven bits. -/
theorem State.ptbKinds_lt (s : State) (e : Nat) : s.ptbKinds e < 2 ^ 7 := by
  have hbit : ∀ b : Bool, b2n b ≤ 1 := by decide
  unfold State.ptbKinds
  have h0 := hbit (s.getF (R.PTB_BANK e) F.PTB_BANK_CYCLES != 0)
  have h1 := hbit (s.getF (R.PTB_SAR e) F.PTB_SAR_STRETCH != 0 && s.getF (R.PTB_SAR e) F.PTB_SAR_MASK != 0)
  have h2 := hbit (s.getF (R.PTB_CLE e) F.PTB_CLE_DELAY != 0)
  have h3 := hbit (s.getF (R.PTB_DMA e) F.PTB_DMA_DELAY != 0 && s.getF (R.PTB_DMA e) F.PTB_DMA_CH != 0)
  have h4 := hbit (s.getF (R.PTB_DB e) F.PTB_DB_DELAY != 0 && s.getF (R.PTB_DB e) F.PTB_DB_FN != 0)
  have h5 := hbit (s.getF (R.PTB_EVT e) F.PTB_EVT_DELAY != 0)
  have h6 := hbit (s.getF (R.PTB_PWY e) F.PTB_PWY_EVERY != 0 && s.getF (R.PTB_PWY e) F.PTB_PWY_FAULT != 0 &&
    s.getF (R.PTB_PWY e) F.PTB_PWY_PORTS != 0)
  omega

/-- What a start shows. -/
theorem State.ptbBegin_shows (s : State) (e : Fin 13) :
    (State.ptbCtrl.begin_ s e).isSet (R.PTB_CTRL e) F.PTB_CTRL_EN = true ∧
      (State.ptbCtrl.begin_ s e).getF (R.PTB_CTRL e) F.PTB_CTRL_END = 0 ∧
      (State.ptbCtrl.begin_ s e).getF (R.PTB_ACTIVE e) F.PTB_ACTIVE_KINDS = s.ptbKinds e := by
  have hne : R.PTB_CTRL e ≠ R.PTB_ACTIVE e := by unfold R.PTB_CTRL R.PTB_ACTIVE; omega
  let s1 := ((s.setF (R.PTB_CTRL e) F.PTB_CTRL_EN 1).setF (R.PTB_CTRL e) F.PTB_CTRL_END 0).setF (R.PTB_ACTIVE e) F.PTB_ACTIVE_KINDS
    (s.ptbKinds e)
  have hen : s1.isSet (R.PTB_CTRL e) F.PTB_CTRL_EN = true :=
    (State.isSet_setF_ne _ _ _ _ _ _ (by decide) (.inl hne)).trans (State.isSet_setF_keeps (s.isSet_setF_one _ _))
  have hend : s1.getF (R.PTB_CTRL e) F.PTB_CTRL_END = 0 :=
    (State.getF_setF_reg _ _ _ _ _ _ hne).trans (State.getF_setF _ _ _ _ (by decide))
  have hkinds : s1.getF (R.PTB_ACTIVE e) F.PTB_ACTIVE_KINDS = s.ptbKinds e :=
    (State.getF_setF _ _ _ _ (by decide)).trans (Nat.mod_eq_of_lt (s.ptbKinds_lt e))
  exact ⟨hen, hend, hkinds⟩

/-- What an end shows. -/
theorem State.ptbEnd_shows {s : State} {e : Fin 13} {k : Nat} (hrun : s.isSet (R.PTB_CTRL e) F.PTB_CTRL_EN = true) (hk : k < 8) :
    (s.ptbEnd e k).isSet (R.PTB_CTRL e) F.PTB_CTRL_EN = false ∧ (s.ptbEnd e k).getF (R.PTB_CTRL e) F.PTB_CTRL_END = k ∧
      (s.ptbEnd e k).reg (R.PTB_ACTIVE e) = 0 ∧
      s.ptbEnd e k = { s with regs := (s.ptbEnd e k).regs, ptbCause := (s.ptbEnd e k).ptbCause } := by
  have hne : R.PTB_CTRL e ≠ R.PTB_ACTIVE e := by unfold R.PTB_CTRL R.PTB_ACTIVE; omega
  let s1 : State := { s with ptbCause := s.ptbCause.setIfInBounds e (some (s.clock, k)) }
  have hend : s.ptbEnd e k = (((s1.setF (R.PTB_CTRL e) F.PTB_CTRL_EN 0).setF (R.PTB_CTRL e) F.PTB_CTRL_END k).setReg (R.PTB_ACTIVE e) 0) := by
    simp [State.ptbEnd, hrun, s1]
  rw [hend]
  refine ⟨?_, ?_, State.reg_setReg_self .., rfl⟩
  · unfold State.isSet State.getF
    rw [State.reg_setReg_ne _ _ _ _ hne]
    exact State.isSet_setF_keeps (s1.isSet_setF_zero _ _)
  · unfold State.getF
    rw [State.reg_setReg_ne _ _ _ _ hne]
    exact (State.getF_setF _ _ _ _ (by decide)).trans (Nat.mod_eq_of_lt hk)

/-- Settles O49: each clause by what its command does to the queue or the unit, and its frame. -/
theorem traceAndPerturbation : Obligations.TraceAndPerturbation := by
  unfold Obligations.TraceAndPerturbation
  refine ⟨?_, ?_, ?_, ?_, ?_, ?_, ?_, ?_, ?_, ?_, ?_, ?_⟩
  · intro s x e p c hx hup hreach hthere hempty hcap he hon hroom
    refine ⟨_, rfl, ?_⟩
    rw [State.tracePost_of_pair hx hup hreach hthere hempty hcap, State.postStore_queued he hon hroom]
    exact ⟨s.trcOf_setTrc e _, s.setTrc_rest e _⟩
  · intro s x e p c hx hup hreach hthere hempty hcap he hoff
    refine ⟨_, rfl, ?_⟩
    rw [State.tracePost_of_pair hx hup hreach hthere hempty hcap, State.postStore_filtered he hoff]
    exact ⟨s.getF_count _ _ (by decide), rfl⟩
  · intro s x e p c hx hup hreach hthere hempty hcap he hon hfull hlevel
    refine ⟨_, rfl, ?_⟩
    rw [State.tracePost_of_pair hx hup hreach hthere hempty hcap, State.postStore_dropped hon hfull hlevel]
    obtain ⟨hqueue, hcount, hflag, -, hcells⟩ := State.traceDrop_dropped
      (s.setTrc e { s.trcOf e with seq := ((s.trcOf e).seq + 1) % 65536 }) he
    rw [State.trcOf_setTrc] at hqueue
    have hwas : (s.setTrc e { s.trcOf e with seq := ((s.trcOf e).seq + 1) % 65536 }).getF (R.STP_DROPS e) F.STP_DROPS_COUNT =
        s.getF (R.STP_DROPS e) F.STP_DROPS_COUNT := congrArg F.STP_DROPS_COUNT.get (s.setTrc_reg e _ (STP_DROPS_ne_STP_STAT e))
    exact ⟨hqueue, hwas ▸ hcount, hflag, hcells.trans (by rw [State.setTrc_rest])⟩
  · intro s e p l k y hdue hpick hq he hdest hsess hy
    refine ⟨_, rfl, ?_⟩
    obtain ⟨t, hput, hrest, hwaits⟩ := State.sessionPut_some { p with lost := (s.trcOf e).lost }
      ((s.mergeTaken_dbg e l).symm ▸ hy : (s.mergeTaken e l).dbg.sess.toList[k]? = some (some y))
    have hdeliver : (s.mergeTaken e l).deliverPacket e { p with lost := (s.trcOf e).lost } =
        (s.mergeTaken e l).sessionPut k { p with lost := (s.trcOf e).lost } := by
      simp [State.deliverPacket, he, s.mergeTaken_getF e l (STP_CTRL_ne_STP_STAT e), hdest, hsess]
    have hqueue : t.trcOf e = { s.trcOf e with queue := l } := by rw [hrest]; exact s.mergeTaken_trcOf e l
    have hnext : t.mergeNext = (e.val + 1) % 13 := by rw [hrest]; rfl
    have hcells : t.cells = s.cells := by rw [hrest]; exact s.mergeTaken_cells e l
    have hmerge : s.traceMerge = t.setTrc e { t.trcOf e with lost := false } := by
      rw [State.traceMerge_taken hdue hpick hq, hdeliver, hput]
    rw [hmerge]
    refine ⟨?_, ?_, ?_, ?_⟩
    · exact (t.trcOf_setTrc e _).trans (by rw [hqueue])
    · rw [State.setTrc_rest]; exact hwaits
    · rw [State.setTrc_rest]; exact hnext
    · rw [State.setTrc_rest]; exact hcells
  · intro s e p l hdue hpick hq he hdest
    refine ⟨_, rfl, ?_⟩
    have hdeliver : (s.mergeTaken e l).deliverPacket e { p with lost := (s.trcOf e).lost } = none := by
      simp [State.deliverPacket, he, s.mergeTaken_getF e l (STP_CTRL_ne_STP_STAT e), hdest]
    rw [State.traceMerge_taken hdue hpick hq, hdeliver]
    obtain ⟨hqueue, hcount, -, hdbg, hcells⟩ := State.traceDrop_dropped (s.mergeTaken e l) he
    rw [s.mergeTaken_trcOf] at hqueue
    rw [s.mergeTaken_getF e l (STP_DROPS_ne_STP_STAT e)] at hcount
    exact ⟨hqueue, hcount, hdbg.trans (s.mergeTaken_dbg e l), hcells.trans (s.mergeTaken_cells e l)⟩
  · intro s hempty
    have hmerge : s.traceMerge = s := by simp [State.traceMerge, State.mergePick_none hempty]
    exact ⟨_, rfl, hmerge⟩
  · intro s k y hy hl hav
    refine ⟨_, rfl, ?_⟩
    rw [State.traceSend_sent hy hl hav]
    obtain ⟨hsess, hcore, -, hcells⟩ := State.send_same
      { s with dbg := { s.dbg with sess := s.dbg.sess.set k (some { y with trace := y.trace.drop 112 }) } } y.tr tySealed (some k.val)
      none (.colbelTrace y.tr k (y.trace.take 112))
    refine ⟨State.send_outs .., ?_, ?_, hcore, hcells⟩
    · rw [hsess]; exact vget_set_self ..
    · unfold State.send; split <;> rfl
  · intro s k hnone
    have hsend : s.traceSend k = s := by
      unfold State.traceSend
      rcases hnone with hav | hk
      · cases s.dbg.sess.get k <;> simp [hav]
      · rw [hk]
    exact ⟨_, rfl, hsend⟩
  · intro s x e v hx hmay hv hoff hcause
    subst hv
    refine ⟨_, rfl, ?_⟩
    rw [State.write_PTB_CTRL _ hx, if_pos hmay, State.ptbCtrl_starts hoff hcause]
    obtain ⟨hen, hend, hkinds⟩ := s.ptbBegin_shows e
    exact ⟨hen, hend, hkinds, rfl, rfl⟩
  · intro s x e v hx hmay hv hrun
    subst hv
    refine ⟨_, rfl, ?_⟩
    rw [State.write_PTB_CTRL _ hx, if_pos hmay, State.ptbCtrl_ends hrun]
    exact State.ptbEnd_shows hrun (by decide)
  · intro s x e v k hx hmay hv hoff hcause hk
    subst hv
    refine ⟨_, rfl, ?_⟩
    rw [State.write_PTB_CTRL _ hx, if_pos hmay, State.ptbCtrl_collides hoff hcause]
    exact ⟨State.isSet_setF_keeps hoff, (State.getF_setF _ _ _ _ (by decide)).trans (Nat.mod_eq_of_lt hk), rfl⟩
  · intro s x e v hx hmay
    refine ⟨_, rfl, ?_⟩
    rw [State.write_PTB_CTRL _ hx, if_neg (by simp [hmay])]
    have hne : R.PTB_CTRL e ≠ R.PTB_REJ e := by unfold R.PTB_CTRL R.PTB_REJ; omega
    exact ⟨s.reg_count_ne _ _ _ hne, s.getF_count _ _ (by decide), rfl⟩

end Machine
end Sys2Proof
end

section
/-! PROOFS. Commands of the flash controller (R420 to R422, R426): how one completes, and what each does to the locks. -/

namespace Sys2Proof
namespace Machine

/-! Words of one field each. -/

theorem Fld.word_eq_put (f : Fld) (v : Nat) : f.word v = f.put 0 v := by
  simp [Fld.word, Fld.put]

theorem Fld.get_word (f : Fld) (v : Nat) (h : f.lo + f.width ≤ 32) : f.get (f.word v) = v % 2 ^ f.width := by
  rw [f.word_eq_put, f.get_put h]

theorem Fld.get_word_ne (f g : Fld) (v : Nat) (h : f.lo + f.width ≤ 32)
    (hd : f.lo + f.width ≤ g.lo ∨ g.lo + g.width ≤ f.lo) : g.get (f.word v) = 0 := by
  rw [f.word_eq_put, f.get_put_ne g h _ _ hd, Fld.get_zero]

theorem flcWord_key (key : BitVec 16) (op : Nat) : F.FLC_CMD_KEY.get (flcWord key op) = key.toNat := by
  rw [flcWord, Fld.get_or, F.FLC_CMD_KEY.get_word _ (by decide), F.FLC_CMD_OP.get_word_ne _ _ (by decide) (by decide), Nat.or_zero]
  exact Nat.mod_eq_of_lt key.isLt

theorem flcWord_op (key : BitVec 16) {op : Nat} (h : op < 16) : F.FLC_CMD_OP.get (flcWord key op) = op := by
  rw [flcWord, Fld.get_or, F.FLC_CMD_KEY.get_word_ne _ _ (by decide) (by decide), F.FLC_CMD_OP.get_word _ (by decide), Nat.zero_or]
  exact Nat.mod_eq_of_lt h

/-! What a firing leaves, field by field. -/

@[simp] theorem State.fire_cells (s : State) (src : Nat) : (s.fire src).cells = s.cells := by rw [(s.fire_only src).rest]
@[simp] theorem State.fire_flc (s : State) (src : Nat) : (s.fire src).flc = s.flc := by rw [(s.fire_only src).rest]
@[simp] theorem State.fire_sec (s : State) (src : Nat) : (s.fire src).sec = s.sec := by rw [(s.fire_only src).rest]
@[simp] theorem State.fire_pwr (s : State) (src : Nat) : (s.fire src).pwr = s.pwr := by rw [(s.fire_only src).rest]
@[simp] theorem State.fire_part (s : State) (src : Nat) : (s.fire src).part = s.part := by rw [(s.fire_only src).rest]
@[simp] theorem State.fire_clock (s : State) (src : Nat) : (s.fire src).clock = s.clock := by rw [(s.fire_only src).rest]
@[simp] theorem State.fire_mtime (s : State) (src : Nat) : (s.fire src).mtime = s.mtime := by rw [(s.fire_only src).rest]
@[simp] theorem State.fire_core (s : State) (src : Nat) : (s.fire src).core = s.core := by rw [(s.fire_only src).rest]
@[simp] theorem State.fire_ctl (s : State) (src : Nat) : (s.fire src).ctl = s.ctl := by rw [(s.fire_only src).rest]
@[simp] theorem State.fire_dbg (s : State) (src : Nat) : (s.fire src).dbg = s.dbg := by rw [(s.fire_only src).rest]
@[simp] theorem State.fire_twn (s : State) (src : Nat) : (s.fire src).twn = s.twn := by rw [(s.fire_only src).rest]
@[simp] theorem State.fire_pwy (s : State) (src : Nat) : (s.fire src).pwy = s.pwy := by rw [(s.fire_only src).rest]
@[simp] theorem State.fire_mem (s : State) (src : Nat) : (s.fire src).mem = s.mem := by rw [(s.fire_only src).rest]
@[simp] theorem State.fire_outs (s : State) (src : Nat) : (s.fire src).outs = s.outs := by rw [(s.fire_only src).rest]
@[simp] theorem State.fire_trc (s : State) (src : Nat) : (s.fire src).trc = s.trc := by rw [(s.fire_only src).rest]
@[simp] theorem State.fire_fns (s : State) (src : Nat) : (s.fire src).fns = s.fns := by rw [(s.fire_only src).rest]

/-! The completion of a command (R426). -/

/-- A register that no completion writes. -/
def flcOwn (a : Nat) : Bool := a == R.FLC_STAT || a == R.FLC_REJ || routerReg a

/-- What the completion of a command with a status and a reason leaves. -/
structure State.FlcEnded (s t : State) (st re : Nat) : Prop where
  status : t.getF R.FLC_STAT F.FLC_STAT_STATUS = st
  reason : t.getF R.FLC_STAT F.FLC_STAT_REASON = re
  done : t.isSet R.FLC_STAT F.FLC_STAT_DONE_F = true
  err : st ≠ 0 → t.isSet R.FLC_STAT F.FLC_STAT_ERR_F = true
  regs : ∀ a, flcOwn a = false → t.reg a = s.reg a
  rest : t = { s with regs := t.regs, evr := t.evr, dma := t.dma, flc := { s.flc with stage := .none } }

/-- STATUS, REASON and DONE_F as a completion writes them, before its event. -/
def State.flcShown (s : State) (status reason : Nat) : State :=
  (((if status == 2 then s.flcRej else s).setF R.FLC_STAT F.FLC_STAT_STATUS status).setF R.FLC_STAT F.FLC_STAT_REASON reason).setF
    R.FLC_STAT F.FLC_STAT_DONE_F 1

theorem State.flcShown_status (s : State) {status : Nat} (reason : Nat) (h : status < 16) :
    (s.flcShown status reason).getF R.FLC_STAT F.FLC_STAT_STATUS = status :=
  (State.getF_setF_fld _ _ _ _ _ (by decide) (by decide)).trans ((State.getF_setF_fld _ _ _ _ _ (by decide) (by decide)).trans
    ((State.getF_setF _ _ _ _ (by decide)).trans (Nat.mod_eq_of_lt h)))

theorem State.flcShown_reason (s : State) (status : Nat) {reason : Nat} (h : reason < 16) :
    (s.flcShown status reason).getF R.FLC_STAT F.FLC_STAT_REASON = reason :=
  (State.getF_setF_fld _ _ _ _ _ (by decide) (by decide)).trans
    ((State.getF_setF _ _ _ _ (by decide)).trans (Nat.mod_eq_of_lt h))

theorem State.flcShown_done (s : State) (status reason : Nat) :
    (s.flcShown status reason).isSet R.FLC_STAT F.FLC_STAT_DONE_F = true := State.isSet_setF_one _ _ _

theorem State.flcRej_reg (s : State) {a : Nat} (h : a ≠ R.FLC_REJ) : s.flcRej.reg a = s.reg a := State.reg_count_ne _ _ _ _ h

theorem State.flcShown_reg (s : State) (status reason : Nat) {a : Nat} (h : flcOwn a = false) :
    (s.flcShown status reason).reg a = s.reg a := by
  have hstat : a ≠ R.FLC_STAT := fun e => by subst e; revert h; decide
  have hrej : a ≠ R.FLC_REJ := fun e => by subst e; revert h; decide
  rw [State.flcShown, State.reg_setF_ne _ _ _ _ _ hstat, State.reg_setF_ne _ _ _ _ _ hstat, State.reg_setF_ne _ _ _ _ _ hstat]
  split
  · exact s.flcRej_reg hrej
  · rfl

theorem State.flcShown_rest (s : State) (status reason : Nat) :
    s.flcShown status reason = { s with regs := (s.flcShown status reason).regs } := by
  unfold State.flcShown State.flcRej
  split <;> rfl

/-- The completion, with its event. -/
def State.flcFired (s : State) (status reason : Nat) : State :=
  ((s.flcShown status reason).setFlc { (s.flcShown status reason).flc with stage := .none }).fire 24

theorem State.flcEnd_eq (s : State) (status reason : Nat) : s.flcEnd status reason =
    if status == 0 then s.flcFired status reason
    else ((s.flcFired status reason).setF R.FLC_STAT F.FLC_STAT_ERR_F 1).fire 25 := rfl

theorem State.flcFired_reg (s : State) (status reason : Nat) {a : Nat} (h : routerReg a = false) :
    (s.flcFired status reason).reg a = (s.flcShown status reason).reg a := State.fire_reg _ _ _ h

theorem State.flcFired_rest (s : State) (status reason : Nat) : s.flcFired status reason = { s with
    regs := (s.flcFired status reason).regs, evr := (s.flcFired status reason).evr, dma := (s.flcFired status reason).dma,
    flc := { s.flc with stage := .none } } := by
  rw [State.flcFired, (State.fire_only ..).rest, State.flcShown_rest]
  rfl

theorem State.flcEnd_ended (s : State) {status reason : Nat} (hs : status < 16) (hr : reason < 16) :
    s.FlcEnded (s.flcEnd status reason) status reason := by
  have hown : routerReg R.FLC_STAT = false := by decide
  have hfired : ∀ f : Fld, (s.flcFired status reason).getF R.FLC_STAT f = (s.flcShown status reason).getF R.FLC_STAT f :=
    fun f => congrArg f.get (s.flcFired_reg status reason hown)
  have hregs : ∀ a, flcOwn a = false → (s.flcFired status reason).reg a = s.reg a := fun a ha =>
    (s.flcFired_reg status reason (by simpa using (Bool.or_eq_false_iff.mp ha).2)).trans (s.flcShown_reg status reason ha)
  rw [State.flcEnd_eq]
  by_cases h0 : status = 0
  · rw [if_pos (by simpa using h0)]
    exact ⟨(hfired _).trans (s.flcShown_status reason hs), (hfired _).trans (s.flcShown_reason status hr),
      by unfold State.isSet; rw [hfired]; exact s.flcShown_done status reason, fun h => absurd h0 h, hregs, s.flcFired_rest status reason⟩
  · rw [if_neg (by simpa using h0)]
    have herr : ∀ f : Fld, F.FLC_STAT_ERR_F.lo + F.FLC_STAT_ERR_F.width ≤ f.lo ∨ f.lo + f.width ≤ F.FLC_STAT_ERR_F.lo →
        (((s.flcFired status reason).setF R.FLC_STAT F.FLC_STAT_ERR_F 1).fire 25).getF R.FLC_STAT f =
          (s.flcShown status reason).getF R.FLC_STAT f := fun f hd =>
      (congrArg f.get (State.fire_reg _ _ _ hown)).trans ((State.getF_setF_fld _ _ _ _ _ (by decide) hd).trans (hfired f))
    refine ⟨(herr _ (by decide)).trans (s.flcShown_status reason hs), (herr _ (by decide)).trans (s.flcShown_reason status hr), ?_, ?_,
      ?_, ?_⟩
    · unfold State.isSet
      rw [herr _ (by decide)]
      exact s.flcShown_done status reason
    · intro _
      unfold State.isSet State.getF
      rw [State.fire_reg _ _ _ hown]
      exact State.isSet_setF_one _ _ _
    · intro a ha
      have hstat : a ≠ R.FLC_STAT := fun e => by subst e; revert ha; decide
      rw [State.fire_reg _ _ _ (by simpa using (Bool.or_eq_false_iff.mp ha).2), State.reg_setF_ne _ _ _ _ _ hstat]
      exact hregs a ha
    · rw [(State.fire_only ..).rest]
      have hrest := s.flcFired_rest status reason
      generalize (s.flcFired status reason) = t at hrest
      rw [hrest]
      rfl

/-! Writes of the FLC block. -/

theorem State.write_flcReg {s : State} {x : Access} {a : Nat} (v : Word) (hlo : 0x010C0000 ≤ a) (hhi : a < 0x010D0000)
    (h : s.reaches x a = true) : s.write x a v = s.flcWrite a v := by
  have hunit : (a - 0x01000000) / 0x10000 = 0xC := by omega
  rw [State.write_deviceReg v (by omega) (by omega) h]
  simp only [State.deviceWrite, hunit]

theorem State.write_FLC_PW_LO {s : State} {x : Access} (v : Word) (h : s.reaches x R.FLC_PW_LO = true) :
    s.write x R.FLC_PW_LO v = s.setFlc { s.flc with stage := .low v } := State.write_flcReg v (by decide) (by decide) h

theorem State.write_FLC_PW_HI {s : State} {x : Access} (v : Word) (h : s.reaches x R.FLC_PW_HI = true) :
    s.write x R.FLC_PW_HI v = match s.flc.stage with
      | .none => s.flcRej
      | .low lo => s.setFlc { s.flc with stage := .full lo v }
      | .full lo _ => s.setFlc { s.flc with stage := .full lo v } := State.write_flcReg v (by decide) (by decide) h

/-- A command with its key that no check of its own lets begin an operation completes. -/
theorem State.write_FLC_CMD {s : State} {x : Access} {op : Nat} (hop : op < 16) (h : s.reaches x R.FLC_CMD = true) :
    s.write x R.FLC_CMD (flcWord 0xF1A5 op) =
      (let r := s.flcRun op (selOf (s.reg R.FLC_BSEL)) s.pageBuf
       if r.begun then r.st else r.st.flcEnd r.status r.reason) := by
  have hcmd : s.write x R.FLC_CMD (flcWord 0xF1A5 op) = s.flcCmd (flcWord 0xF1A5 op) :=
    State.write_flcReg _ (by decide) (by decide) h
  have hkey : (F.FLC_CMD_KEY.get (flcWord 0xF1A5 op) != 0xF1A5) = false := by rw [flcWord_key]; rfl
  rw [hcmd, State.flcCmd, hkey, flcWord_op _ hop]
  rfl

theorem State.FlcEnded.of_run {s r : State} {x : Access} {op status reason : Nat} (hop : op < 16) (hs : status < 16) (hr : reason < 16)
    (h : s.reaches x R.FLC_CMD = true) (hrun : s.flcRun op (selOf (s.reg R.FLC_BSEL)) s.pageBuf = ⟨r, status, reason, false⟩) :
    r.FlcEnded (s.write x R.FLC_CMD (flcWord 0xF1A5 op)) status reason := by
  rw [State.write_FLC_CMD hop h, hrun]
  exact r.flcEnd_ended hs hr

end Machine
end Sys2Proof
end

section
/-! PROOFS. Flash passwords, locks and the next bank (R420 to R422). -/

namespace Sys2Proof
namespace Machine

/-! What the passwords and locks do. -/

theorem flcOwn_region : ∀ r < 8, flcOwn (R.FLC_REGION r) = false := by decide

theorem selOf_region_lt (v : Word) : (selOf v).region < 8 := Fld.get_lt F.FLC_BSEL_REGION v

/-- A command of FLC_CMD but SUSPEND, RESUME and those of a block goes on to its own rule while no operation runs. -/
theorem State.flcRun_setPw {s : State} (b : BlkSel) (data : List Word) (h : s.flc.run = none) :
    s.flcRun 6 b data = s.setPassword b.region := by simp [State.flcRun, h]
theorem State.flcRun_setNext {s t : State} {status : Nat} {b : BlkSel} (data : List Word) (h : s.flc.run = none)
    (hset : s.setNext b.arr = (t, status)) : s.flcRun 7 b data = ⟨t, status, 0, false⟩ := by simp [State.flcRun, h, hset]
theorem State.flcRun_lock {s : State} (b : BlkSel) (data : List Word) (h : s.flc.run = none) :
    s.flcRun 8 b data = ⟨s.setF (R.FLC_REGION b.region) F.FLC_REGION_UNLOCKED 0, 0, 0, false⟩ := by simp [State.flcRun, h]
theorem State.flcRun_unlock {s : State} (b : BlkSel) (data : List Word) (h : s.flc.run = none) :
    s.flcRun 9 b data = s.unlock b.region := by simp [State.flcRun, h]

/-- A password for region r is stored, and protects it. -/
def State.withPassword (s : State) (r : Nat) (lo hi : Word) : State :=
  (s.setF (R.FLC_REGION r) F.FLC_REGION_PROT 1).setFlc { s.flc with pw := s.flc.pw.setIfInBounds r (hi ++ lo) }

theorem State.setPassword_open {s : State} {r : Nat} {lo hi : Word} (hstage : s.flc.stage = .full lo hi) (hopen : s.regionOpen r = true)
    (hlo : lo ≠ 0xFFFFFFFF) : s.setPassword r = ⟨s.withPassword r lo hi, 0, 0, false⟩ := by
  have hlo' : (lo == 0xFFFFFFFF) = false := beq_eq_false_iff_ne.mpr hlo
  have hsome : (!(lo == 0xFFFFFFFF && hi == 0xFFFFFFFF)) = true := by rw [hlo']; rfl
  simp only [State.setPassword, hstage, hopen, hsome]
  rfl

theorem State.setPassword_closed {s : State} {r : Nat} {lo hi : Word} (hstage : s.flc.stage = .full lo hi)
    (hclosed : s.regionOpen r = false) : s.setPassword r = ⟨s, 2, 2, false⟩ := by
  simp [State.setPassword, hstage, hclosed]

theorem State.unlock_right {s : State} {r : Nat} {lo hi : Word} (hprot : s.isSet (R.FLC_REGION r) F.FLC_REGION_PROT = true)
    (hstage : s.flc.stage = .full lo hi) (hin : s.isSet (R.FLC_REGION r) F.FLC_REGION_LOCKED_OUT = false)
    (hpw : s.flc.pw.toList[r]? = some (hi ++ lo)) :
    s.unlock r = ⟨s.setF (R.FLC_REGION r) F.FLC_REGION_UNLOCKED 1, 0, 0, false⟩ := by
  simp [State.unlock, hprot, hstage, hin, hpw]

/-- The third wrong password locks the region out. -/
theorem State.unlock_third {s : State} {r : Nat} {lo hi : Word} (hprot : s.isSet (R.FLC_REGION r) F.FLC_REGION_PROT = true)
    (hstage : s.flc.stage = .full lo hi) (hin : s.isSet (R.FLC_REGION r) F.FLC_REGION_LOCKED_OUT = false)
    (hpw : s.flc.pw.toList[r]? ≠ some (hi ++ lo)) (hfails : s.getF (R.FLC_REGION r) F.FLC_REGION_FAILS = 2) :
    s.unlock r = ⟨((s.count (R.FLC_REGION r) F.FLC_REGION_FAILS).setF (R.FLC_REGION r) F.FLC_REGION_LOCKED_OUT 1).fire 29, 2, 2, false⟩ := by
  have hthird : (s.count (R.FLC_REGION r) F.FLC_REGION_FAILS).getF (R.FLC_REGION r) F.FLC_REGION_FAILS = 3 := by
    rw [s.getF_count _ _ (by decide), hfails]
    decide
  have hwrong : (s.flc.pw.toList[r]? == some (hi ++ lo)) = false := beq_eq_false_iff_ne.mpr hpw
  simp only [State.unlock, hprot, hstage, hin, hwrong, hthird]
  rfl

/-! Images and the next bank. -/

/-- `t` differs from `s` in the information of flash blocks alone. -/
def State.InfoOnly (s t : State) : Prop := t = { s with flc := { s.flc with info := t.flc.info } }

theorem State.InfoOnly.noteCorr {s t : State} (h : s.InfoOnly t) (arr b : Nat) : s.InfoOnly (t.noteCorr arr b) := by
  unfold State.InfoOnly at h ⊢
  generalize t.flc.info = i at h
  subst h
  rfl

theorem State.InfoOnly.sec {s t : State} (h : s.InfoOnly t) : t.sec = s.sec := by
  unfold State.InfoOnly at h
  rw [h]
theorem State.InfoOnly.part {s t : State} (h : s.InfoOnly t) : t.part = s.part := by
  unfold State.InfoOnly at h
  rw [h]
theorem State.InfoOnly.cells {s t : State} (h : s.InfoOnly t) : t.cells = s.cells := by
  unfold State.InfoOnly at h
  rw [h]
theorem State.InfoOnly.words {s t : State} (h : s.InfoOnly t) : t.flc.words = s.flc.words := by
  unfold State.InfoOnly at h
  rw [h]
theorem State.InfoOnly.run {s t : State} (h : s.InfoOnly t) : t.flc.run = s.flc.run := by
  unfold State.InfoOnly at h
  rw [h]
theorem State.InfoOnly.regs {s t : State} (h : s.InfoOnly t) : t.regs = s.regs := by
  unfold State.InfoOnly at h
  rw [h]

/-- Reads of lines note their corrected errors alone. -/
theorem State.readLines_rest (s : State) (lo hi : Nat) : s.InfoOnly (s.readLines lo hi) :=
  foldl_keeps s.InfoOnly _ _ s rfl fun _ _ h => h.noteCorr _ _

/-- The state in which the image of a bank has been read. -/
def State.imageRead (s : State) (bank : Nat) : State :=
  s.readLines (arrBase bank) (arrBase bank + (if s.imgForm bank then s.imgWord bank 3 else 32))

theorem State.imageCheck_fails {s : State} {bank : Nat} (h : s.imageFail bank ≠ 0) :
    s.imageCheck bank = (((s.imageRead bank).setF R.SEC_BOOT F.SEC_BOOT_FAIL (s.imageFail bank)).fire 39, false) := by
  obtain ⟨k, hk⟩ := Nat.exists_eq_succ_of_ne_zero h
  delta State.imageCheck
  simp only [hk]
  rfl

/-- The digest of a good image is kept. -/
def SecSt.withImage (c : SecSt) (bank : Nat) (d : BitVec 256) : SecSt := { c with images := c.images.setIfInBounds bank (some d) }

/-- The state after the check of a good image. -/
def State.imageKept (s : State) (bank : Nat) : State :=
  { s.imageRead bank with sec := s.sec.withImage bank (sha256 (s.imgBytes bank 0 (s.imgWord bank 4))) }

theorem State.imageCheck_passes {s : State} {bank : Nat} (h : s.imageFail bank = 0) :
    s.imageCheck bank = (s.imageKept bank, true) := by
  have hsec : (s.imageRead bank).sec = s.sec := (s.readLines_rest _ _).sec
  rw [State.imageKept, ← hsec]
  delta State.imageCheck
  simp only [h]
  rfl

theorem ite_lt_of_lt {c : Prop} [Decidable c] {a b k : Nat} (ha : a < k) (hb : b < k) : (if c then a else b) < k := by
  split <;> assumption

theorem State.imageFail_lt (s : State) (bank : Nat) : s.imageFail bank < 8 :=
  ite_lt_of_lt (by decide) (ite_lt_of_lt (by decide) (ite_lt_of_lt (by decide) (ite_lt_of_lt (by decide) (ite_lt_of_lt (by decide)
    (ite_lt_of_lt (by decide) (ite_lt_of_lt (by decide) (by decide)))))))

/-- BANK_PENDING of a slice. -/
def State.pendBank (s : State) (n : Nat) : State := s.setF (R.SLC_STATE n) F.SLC_STATE_BANK_PENDING 1

/-- BANK_PENDING of every slice fitted. -/
def State.bankPending (s : State) : State := (List.range s.part.slices).foldl State.pendBank s

/-- The next bank as SET_NEXT shows it. -/
def State.nextShown (s : State) (bank : Nat) : State :=
  (s.setF R.FLC_BANK F.FLC_BANK_NEXT bank).setB R.FLC_BANK F.FLC_BANK_PEND (bank != s.getF R.FLC_BANK F.FLC_BANK_ACTIVE)

theorem State.setNext_none {s : State} {bank : Nat} (h : 1 < bank) : s.setNext bank = (s, 5) := by
  simp [State.setNext, h]

theorem State.setNext_fails {s : State} {bank : Nat} (h : bank ≤ 1) (hf : s.imageFail bank ≠ 0) :
    s.setNext bank = (((s.imageRead bank).setF R.SEC_BOOT F.SEC_BOOT_FAIL (s.imageFail bank)).fire 39, 6) := by
  simp only [State.setNext, decide_eq_false (Nat.not_lt.mpr h), State.imageCheck_fails hf]
  rfl

theorem State.setNext_passes {s : State} {bank : Nat} (h : bank ≤ 1) (hf : s.imageFail bank = 0) :
    s.setNext bank = (((s.imageKept bank).nextShown bank).bankPending, 0) := by
  simp only [State.setNext, decide_eq_false (Nat.not_lt.mpr h), State.imageCheck_passes hf]
  rfl

/-- `t` differs from `s` in registers alone. -/
def State.RegsOnly (s t : State) : Prop := t = { s with regs := t.regs }

theorem State.RegsOnly.refl (s : State) : s.RegsOnly s := rfl

theorem State.RegsOnly.trans {s t u : State} (h : s.RegsOnly t) (k : t.RegsOnly u) : s.RegsOnly u := by
  unfold State.RegsOnly at h k ⊢
  rw [h] at k
  exact k

theorem State.RegsOnly.setF {s t : State} (h : s.RegsOnly t) (a : Nat) (f : Fld) (v : Nat) : s.RegsOnly (t.setF a f v) := by
  unfold State.RegsOnly at h ⊢
  generalize t.regs = r at h
  subst h
  rfl

theorem State.RegsOnly.sec {s t : State} (h : s.RegsOnly t) : t.sec = s.sec := by
  unfold State.RegsOnly at h
  rw [h]
theorem State.RegsOnly.flc {s t : State} (h : s.RegsOnly t) : t.flc = s.flc := by
  unfold State.RegsOnly at h
  rw [h]
theorem State.RegsOnly.cells {s t : State} (h : s.RegsOnly t) : t.cells = s.cells := by
  unfold State.RegsOnly at h
  rw [h]

theorem State.bankPending_rest (s : State) : s.RegsOnly s.bankPending :=
  foldl_keeps s.RegsOnly _ _ s rfl fun _ _ h => h.setF _ _ _

theorem State.bankPending_getF (s : State) (a : Nat) (f : Fld)
    (h : ∀ n, a ≠ R.SLC_STATE n ∨ F.SLC_STATE_BANK_PENDING.lo + F.SLC_STATE_BANK_PENDING.width ≤ f.lo ∨
      f.lo + f.width ≤ F.SLC_STATE_BANK_PENDING.lo) : s.bankPending.getF a f = s.getF a f :=
  foldl_keeps (fun t => t.getF a f = s.getF a f) _ _ s rfl fun t n ht => (State.getF_setF_ne _ _ _ _ _ _ (by decide) (h n)).trans ht

/-- A flag once set by such a fold stays set. -/
theorem State.isSet_setF_one_of {s : State} {a b : Nat} {f : Fld} (hs : s.isSet b f = true) (h : f.lo + f.width ≤ 32)
    (hw : 0 < f.width) : (s.setF a f 1).isSet b f = true := by
  by_cases hab : b = a
  · rw [hab]; exact State.isSet_setF_one _ _ _ h hw
  · exact (State.isSet_setF_ne _ _ _ _ _ _ h (.inl hab)).trans hs

theorem State.pendBank_set (s : State) (n : Nat) : (s.pendBank n).isSet (R.SLC_STATE n) F.SLC_STATE_BANK_PENDING = true :=
  State.isSet_setF_one _ _ _

theorem State.foldl_pendBank {l : List Nat} {n : Nat} (hn : n ∈ l) (s : State) :
    (l.foldl State.pendBank s).isSet (R.SLC_STATE n) F.SLC_STATE_BANK_PENDING = true := by
  induction l generalizing s with
  | nil => cases hn
  | cons m l ih =>
    rcases List.mem_cons.mp hn with rfl | hl
    · exact foldl_keeps (fun t : State => t.isSet (R.SLC_STATE n) F.SLC_STATE_BANK_PENDING = true) State.pendBank l (s.pendBank n)
        (s.pendBank_set n) fun t k ht => State.isSet_setF_one_of ht (by decide) (by decide)
    · exact ih hl (s.pendBank m)

theorem State.bankPending_set {s : State} {n : Nat} (h : s.fitted n = true) :
    s.bankPending.isSet (R.SLC_STATE n) F.SLC_STATE_BANK_PENDING = true :=
  State.foldl_pendBank (List.mem_range.mpr (by simpa [State.fitted] using h)) s

/-- A register of the slices is none of the flash controller's. -/
theorem flcOwn_SLC_STATE (n : Slice) : flcOwn (R.SLC_STATE n) = false := by revert n; decide

/-- SET_NEXT of a bank that passes leaves the other registers but what it shows. -/
theorem State.nextShown_getF (s : State) (bank a : Nat) (f : Fld) (h : a ≠ R.FLC_BANK) : (s.nextShown bank).getF a f = s.getF a f :=
  (State.getF_setF_reg _ _ _ _ _ _ h).trans (State.getF_setF_reg _ _ _ _ _ _ h)

theorem SLC_STATE_ne_FLC_BANK (n : Nat) : R.SLC_STATE n ≠ R.FLC_BANK := by unfold R.SLC_STATE R.FLC_BANK sliceBase; omega

theorem State.imageKept_getF (s : State) (bank a : Nat) (f : Fld) : (s.imageKept bank).getF a f = s.getF a f := by
  have hregs : (s.imageKept bank).regs = s.regs := (s.readLines_rest _ _).regs
  simp only [State.getF, State.reg, hregs]

/-- What SET_NEXT of a bank that passes shows. -/
theorem State.setNext_shows {s : State} {bank : Nat} (h : bank ≤ 1) :
    let t := ((s.imageKept bank).nextShown bank).bankPending
    t.getF R.FLC_BANK F.FLC_BANK_NEXT = bank ∧
      t.isSet R.FLC_BANK F.FLC_BANK_PEND = decide (bank ≠ s.getF R.FLC_BANK F.FLC_BANK_ACTIVE) ∧
      t.getF R.FLC_BANK F.FLC_BANK_ACTIVE = s.getF R.FLC_BANK F.FLC_BANK_ACTIVE ∧
      ∀ n : Slice, t.slState n = s.slState n := by
  have hkept : ∀ f, ((s.imageKept bank).nextShown bank).bankPending.getF R.FLC_BANK f =
      ((s.imageKept bank).nextShown bank).getF R.FLC_BANK f := fun f =>
    State.bankPending_getF _ _ _ fun n => .inl (SLC_STATE_ne_FLC_BANK n).symm
  refine ⟨?_, ?_, ?_, fun n => ?_⟩
  · exact (hkept _).trans ((State.getF_setF_fld _ _ _ _ _ (by decide) (by decide)).trans
      ((State.getF_setF _ _ _ _ (by decide)).trans (Nat.mod_eq_of_lt (Nat.lt_succ_of_le h))))
  · unfold State.isSet
    rw [hkept]
    refine (State.isSet_setB _ _ _ _ (by decide) (by decide)).trans ?_
    rw [State.imageKept_getF]
    by_cases hb : bank = s.getF R.FLC_BANK F.FLC_BANK_ACTIVE
    · rw [bne_eq_false_iff_eq.mpr hb, decide_eq_false (not_not_intro hb)]
    · rw [bne_iff_ne.mpr hb, decide_eq_true hb]
  · exact (hkept _).trans ((State.getF_setF_fld _ _ _ _ _ (by decide) (by decide)).trans
      ((State.getF_setF_fld _ _ _ _ _ (by decide) (by decide)).trans (s.imageKept_getF _ _ _)))
  · exact (State.bankPending_getF _ _ _ fun m => .inr (by decide)).trans
      ((State.nextShown_getF _ _ _ _ (SLC_STATE_ne_FLC_BANK n)).trans (s.imageKept_getF _ _ _))

/-- SET_NEXT of a bank that passes keeps memory, the words of flash and what runs. -/
theorem State.setNext_keeps (s : State) (bank : Nat) :
    let t := ((s.imageKept bank).nextShown bank).bankPending
    t.sec = s.sec.withImage bank (sha256 (s.imgBytes bank 0 (s.imgWord bank 4))) ∧ t.flc.words = s.flc.words ∧
      t.flc.run = s.flc.run ∧ t.cells = s.cells := by
  have hpend := ((s.imageKept bank).nextShown bank).bankPending_rest
  have hread : s.InfoOnly (s.imageRead bank) := s.readLines_rest _ _
  exact ⟨hpend.sec, (congrArg FlcSt.words hpend.flc).trans hread.words, (congrArg FlcSt.run hpend.flc).trans hread.run,
    hpend.cells.trans hread.cells⟩

/-- A bank that fails its checks: the check that failed shows, and flash and memory stay. -/
theorem State.imageFailed_keeps (s : State) (bank : Nat) :
    let t := ((s.imageRead bank).setF R.SEC_BOOT F.SEC_BOOT_FAIL (s.imageFail bank)).fire 39
    t.getF R.SEC_BOOT F.SEC_BOOT_FAIL = s.imageFail bank ∧ t.reg R.FLC_BANK = s.reg R.FLC_BANK ∧ t.flc.words = s.flc.words ∧
      t.cells = s.cells := by
  have hread : s.InfoOnly (s.imageRead bank) := s.readLines_rest _ _
  refine ⟨?_, ?_, ?_, ?_⟩
  · unfold State.getF
    rw [State.fire_reg _ _ _ (by decide)]
    exact (State.getF_setF _ _ _ _ (by decide)).trans (Nat.mod_eq_of_lt (Nat.lt_trans (s.imageFail_lt bank) (by decide)))
  · rw [State.fire_reg _ _ _ (by decide), State.reg_setF_ne _ _ _ _ _ (by decide), State.reg, State.reg, hread.regs]
  · rw [State.fire_flc, State.setF_flc, hread.words]
  · rw [State.fire_cells, State.setF_cells, hread.cells]

/-- The registers that a command does not show its end in, field by field. -/
theorem State.FlcEnded.getF {s t : State} {st re : Nat} (h : s.FlcEnded t st re) {a : Nat} (ha : flcOwn a = false) (f : Fld) :
    t.getF a f = s.getF a f := congrArg f.get (h.regs a ha)

theorem State.FlcEnded.isSet {s t : State} {st re : Nat} (h : s.FlcEnded t st re) {a : Nat} (ha : flcOwn a = false) (f : Fld) :
    t.isSet a f = s.isSet a f := by unfold State.isSet; rw [h.getF ha]

theorem State.FlcEnded.flc {s t : State} {st re : Nat} (h : s.FlcEnded t st re) : t.flc = { s.flc with stage := .none } := by
  rw [h.rest]
theorem State.FlcEnded.cells {s t : State} {st re : Nat} (h : s.FlcEnded t st re) : t.cells = s.cells := by rw [h.rest]
theorem State.FlcEnded.sec {s t : State} {st re : Nat} (h : s.FlcEnded t st re) : t.sec = s.sec := by rw [h.rest]

/-- The third wrong password, field by field. -/
theorem State.lockedOut_shows {s : State} {r : Nat} (hr : r < 8) (hfails : s.getF (R.FLC_REGION r) F.FLC_REGION_FAILS = 2) :
    let t := ((s.count (R.FLC_REGION r) F.FLC_REGION_FAILS).setF (R.FLC_REGION r) F.FLC_REGION_LOCKED_OUT 1).fire 29
    t.isSet (R.FLC_REGION r) F.FLC_REGION_LOCKED_OUT = true ∧ t.getF (R.FLC_REGION r) F.FLC_REGION_FAILS = 3 ∧
      t.isSet (R.FLC_REGION r) F.FLC_REGION_UNLOCKED = s.isSet (R.FLC_REGION r) F.FLC_REGION_UNLOCKED := by
  have hown : routerReg (R.FLC_REGION r) = false := (Bool.or_eq_false_iff.mp (flcOwn_region r hr)).2
  have hfire : ∀ (u : State) (f : Fld), (u.fire 29).getF (R.FLC_REGION r) f = u.getF (R.FLC_REGION r) f := fun u f =>
    congrArg f.get (u.fire_reg 29 _ hown)
  unfold State.isSet
  simp only [hfire]
  refine ⟨State.isSet_setF_one _ _ _, ?_, State.isSet_setF_keeps (State.isSet_setF_keeps rfl)⟩
  rw [State.getF_setF_fld _ _ _ _ _ (by decide) (by decide), State.getF_count _ _ _ (by decide), hfails]
  decide

/-- A counter that fills its register, after its count. -/
theorem State.reg_countWhole (s : State) (a : Nat) :
    (s.count a ⟨0, 32⟩).reg a = BitVec.ofNat 32 (min 4294967295 ((s.reg a).toNat + 1)) := by
  have hword := s.getF_count a ⟨0, 32⟩ (by decide)
  simp only [State.getF, Fld.get_whole] at hword
  exact BitVec.eq_of_toNat_eq (hword.trans (by
    rw [BitVec.toNat_ofNat]
    exact (Nat.mod_eq_of_lt (by omega)).symm))

/-- Settles O43: each clause by what its command does, and how a command completes. -/
theorem flashProtection : Obligations.FlashProtection := by
  unfold Obligations.FlashProtection
  refine ⟨?_, ?_, ?_, ?_, ?_, ?_, ?_, ?_, ?_, ?_, ?_⟩
  · intro s x v hx
    exact ⟨_, rfl, State.write_FLC_PW_LO v hx⟩
  · intro s x v lo hx hstage
    refine ⟨_, rfl, ?_⟩
    rw [State.write_FLC_PW_HI v hx, hstage]
  · intro s x v hx hstage
    refine ⟨_, rfl, ?_⟩
    have hrej : s.write x R.FLC_PW_HI v = s.flcRej := by rw [State.write_FLC_PW_HI v hx, hstage]
    rw [hrej]
    exact ⟨rfl, s.reg_countWhole R.FLC_REJ, rfl⟩
  · rintro s x key b lo hi hx rfl rfl hrun hstage hopen hr hlo
    refine ⟨_, rfl, ?_⟩
    have hend := State.FlcEnded.of_run (op := 6) (by decide) (by decide) (by decide) hx
      ((State.flcRun_setPw _ s.pageBuf hrun).trans (State.setPassword_open hstage hopen hlo))
    have hprot : (s.withPassword (selOf (s.reg R.FLC_BSEL)).region lo hi).isSet (R.FLC_REGION (selOf (s.reg R.FLC_BSEL)).region)
        F.FLC_REGION_PROT = true := State.isSet_setF_one s _ _
    refine ⟨hend.status, hend.reason, hend.done, (hend.isSet (flcOwn_region _ hr) _).trans hprot, ?_, ?_, ?_, hend.cells⟩
    · rw [hend.flc]
      simp [State.withPassword, State.setFlc, hr]
    · rw [hend.flc]
    · rw [hend.flc]; rfl
  · rintro s x key b lo hi hx rfl rfl hrun hstage hclosed
    refine ⟨_, rfl, ?_⟩
    have hend := State.FlcEnded.of_run (op := 6) (by decide) (by decide) (by decide) hx
      ((State.flcRun_setPw _ s.pageBuf hrun).trans (State.setPassword_closed hstage hclosed))
    refine ⟨hend.status, hend.reason, hend.done, hend.err (by decide), ?_, hend.regs _ (flcOwn_region _ (selOf_region_lt _))⟩
    rw [hend.flc]
  · rintro s x key b lo hi hx rfl rfl hrun hr hprot hstage hin hpw
    refine ⟨_, rfl, ?_⟩
    have hend := State.FlcEnded.of_run (op := 9) (by decide) (by decide) (by decide) hx
      ((State.flcRun_unlock _ s.pageBuf hrun).trans (State.unlock_right hprot hstage hin hpw))
    refine ⟨hend.status, hend.reason, hend.done, (hend.isSet (flcOwn_region _ hr) _).trans (State.isSet_setF_one s _ _), ?_, ?_⟩
    · rw [hend.flc]
    · rw [hend.flc]; rfl
  · rintro s x key b lo hi hx rfl rfl hrun hr hprot hstage hin hpw hfails
    refine ⟨_, rfl, ?_⟩
    have hend := State.FlcEnded.of_run (op := 9) (by decide) (by decide) (by decide) hx
      ((State.flcRun_unlock _ s.pageBuf hrun).trans (State.unlock_third hprot hstage hin hpw hfails))
    obtain ⟨hout, hthree, hkept⟩ := State.lockedOut_shows hr hfails
    have hown := flcOwn_region _ hr
    exact ⟨hend.status, hend.reason, hend.done, hend.err (by decide), (hend.isSet hown _).trans hout, (hend.getF hown _).trans hthree,
      (hend.isSet hown _).trans hkept⟩
  · rintro s x key b hx rfl rfl hrun hr
    refine ⟨_, rfl, ?_⟩
    have hend := State.FlcEnded.of_run (op := 8) (by decide) (by decide) (by decide) hx (State.flcRun_lock _ s.pageBuf hrun)
    have hown := flcOwn_region _ hr
    refine ⟨hend.status, hend.reason, hend.done, (hend.isSet hown _).trans (State.isSet_setF_zero s _ _),
      (hend.isSet hown _).trans (State.isSet_setF_keeps rfl), ?_⟩
    rw [hend.flc]; rfl
  · rintro s x key b hx rfl rfl hrun harr
    refine ⟨_, rfl, ?_⟩
    have hend := State.FlcEnded.of_run (op := 7) (by decide) (by decide) (by decide) hx
      (State.flcRun_setNext s.pageBuf hrun (State.setNext_none harr))
    refine ⟨hend.status, hend.reason, hend.done, hend.err (by decide), hend.regs _ (by decide), ?_, hend.cells⟩
    rw [hend.flc]
  · rintro s x key b hx rfl rfl hrun harr hfail
    refine ⟨_, rfl, ?_⟩
    have hend := State.FlcEnded.of_run (op := 7) (by decide) (by decide) (by decide) hx
      (State.flcRun_setNext s.pageBuf hrun (State.setNext_fails harr hfail))
    obtain ⟨hshown, hbank, hwords, hcells⟩ := s.imageFailed_keeps (selOf (s.reg R.FLC_BSEL)).arr
    refine ⟨hend.status, hend.reason, hend.done, hend.err (by decide), (hend.regs _ (by decide)).trans hbank,
      (hend.getF (by decide) _).trans hshown, ?_, hend.cells.trans hcells⟩
    rw [hend.flc]
    exact hwords
  · rintro s x key b hx rfl rfl hrun harr hpass
    refine ⟨_, rfl, ?_⟩
    have hend := State.FlcEnded.of_run (op := 7) (by decide) (by decide) (by decide) hx
      (State.flcRun_setNext s.pageBuf hrun (State.setNext_passes harr hpass))
    obtain ⟨hnext, hpend, hactive, hstate⟩ := State.setNext_shows (s := s) harr
    obtain ⟨hsec, hwords, hrunning, hcells⟩ := s.setNext_keeps (selOf (s.reg R.FLC_BSEL)).arr
    refine ⟨hend.status, hend.reason, hend.done, (hend.getF (by decide) _).trans hnext, (hend.isSet (by decide) _).trans hpend,
      (hend.getF (by decide) _).trans hactive, fun n hn => ?_, fun n => (hend.getF (flcOwn_SLC_STATE n) _).trans (hstate n), ?_, ?_, ?_,
      hend.cells.trans hcells⟩
    · have hread : s.InfoOnly (s.imageRead (selOf (s.reg R.FLC_BSEL)).arr) := s.readLines_rest _ _
      refine (hend.isSet (flcOwn_SLC_STATE n) _).trans (State.bankPending_set ?_)
      exact (congrArg (fun p : Part => decide (n.val < p.slices)) hread.part).trans hn
    · rw [hend.sec, hsec]
      have hlt : (selOf (s.reg R.FLC_BSEL)).arr < 2 := Nat.lt_succ_of_le harr
      simp [SecSt.withImage, hlt]
    · rw [hend.flc]; exact hwords
    · rw [hend.flc]; exact hrunning.trans hrun

end Machine
end Sys2Proof
end

section
/-! PROOFS. What a firing tells the taps and the lines, and what a disarm leaves of the module's own units (R33, R308, R476). -/

namespace Sys2Proof
namespace Machine

/-! Taps and lines of the router. -/

/-- `t` shows the firings at the taps that `s` does, and the levels of its lines. -/
structure State.TapsKept (s t : State) : Prop where
  taps : t.evr.taps = s.evr.taps
  filt : t.evr.filt = s.evr.filt

namespace State.TapsKept

variable {s t u : State}

theorem refl (s : State) : s.TapsKept s := ⟨rfl, rfl⟩

theorem trans (h : s.TapsKept t) (k : t.TapsKept u) : s.TapsKept u := ⟨k.taps.trans h.taps, k.filt.trans h.filt⟩

theorem ite {c : Prop} [Decidable c] (h : s.TapsKept t) (k : s.TapsKept u) : s.TapsKept (if c then t else u) := by
  split <;> assumption

/-- A change of neither. -/
theorem elsewhere (h : s.TapsKept t) (hu : (u.evr.taps, u.evr.filt) = (t.evr.taps, t.evr.filt)) : s.TapsKept u :=
  h.trans ⟨(Prod.ext_iff.mp hu).1, (Prod.ext_iff.mp hu).2⟩

theorem setRoute (h : s.TapsKept t) (r : Nat) (rt : Route) : s.TapsKept (t.setRoute r rt) := by
  unfold State.setRoute
  exact (h.elsewhere (by rfl)).ite (h.elsewhere (by rfl))

theorem fireRoute (h : s.TapsKept t) (r c k : Nat) (w : Word) : s.TapsKept (t.fireRoute r c k w) := by
  unfold State.fireRoute
  dsimp only
  split
  · exact h
  · split
    · exact h.setRoute _ _
    · exact h.setRoute _ _
    · exact State.TapsKept.setRoute (h.elsewhere (by rfl)) _ _

theorem closeBatch (h : s.TapsKept t) (g : Nat) : s.TapsKept (t.closeBatch g) := by
  unfold State.closeBatch
  dsimp only
  exact h.ite (State.TapsKept.fireRoute (h.elsewhere (by rfl)) _ _ _ _)

theorem joinBatch (h : s.TapsKept t) (g src : Nat) : s.TapsKept (t.joinBatch g src) := by
  unfold State.joinBatch
  extract_lets b b' e s1 s2 c
  have h2 : s.TapsKept s2 := h.elsewhere (by rfl)
  exact (h2.closeBatch g).ite h2

theorem waitsEnd (h : s.TapsKept t) (src at_ : Nat) (on : Nat → Bool) : s.TapsKept (t.waitsEnd src at_ on) := by
  unfold State.waitsEnd
  refine foldl_keeps (State.TapsKept s) _ _ t h (fun u e hu => ?_)
  dsimp only
  split
  · exact hu
  · refine foldl_keeps (State.TapsKept s) _ _ u hu (fun v c hv => ?_)
    split
    · next w _ =>
      split
      · split <;> exact hv.elsewhere (by rfl)
      · exact hv
    · exact hv

end State.TapsKept

theorem State.fireReach_taps (s : State) (src at_ : Nat) (mt : BitVec 64) :
    (s.fireReach src at_ mt).evr.taps = s.evr.taps ++ [(src, at_, mt)] ∧ (s.fireReach src at_ mt).evr.filt = s.evr.filt := by
  unfold State.fireReach
  extract_lets e s1
  have h : s1.TapsKept s1 := .refl s1
  have hend : s1.TapsKept (if s1.isSet (srcAddr src) F.EVR_SRC_GRP_EN = true then s1.joinBatch (s1.getF (srcAddr src) F.EVR_SRC_GRP) src
      else if (s1.senseLevel src && ((s1.route src).st != .idle || !s1.evr.filt.contains src)) = true then s1
      else s1.fireRoute src src 1 (mt.setWidth 32)) := (h.joinBatch _ _).ite (h.ite (h.fireRoute _ _ _ _))
  exact ⟨hend.taps, hend.filt⟩

/-- A firing adds at most itself to the taps, and changes no line. -/
theorem State.fire_lines (s : State) (src : Nat) : s.evr.taps <+: (s.fire src).evr.taps ∧ (s.fire src).evr.filt = s.evr.filt := by
  unfold State.fire
  split
  · have h0 : s.TapsKept (match pwmSource src with
        | some n => s.waitsEnd src s.clock (fun e => e == n)
        | none => s) := by
      split
      · exact (State.TapsKept.refl s).waitsEnd _ _ _
      · exact .refl s
    extract_lets s1
    split
    · obtain ⟨htaps, hfilt⟩ := s1.fireReach_taps src s.clock s.mtime
      exact ⟨⟨_, (htaps.trans (congrArg (· ++ _) h0.taps)).symm⟩, hfilt.trans h0.filt⟩
    · exact ⟨⟨[], by rw [List.append_nil]; exact h0.taps.symm⟩, h0.filt⟩
  · exact ⟨List.prefix_rfl, rfl⟩

/-- A firing that no perturbation delays reaches the taps at once. -/
theorem State.fire_taps {s : State} {src : Nat} (hp : s.srcPresent src = true) (hn : pwmSource src = none) (hd : s.evtDelay src = 0) :
    (s.fire src).evr.taps = s.evr.taps ++ [(src, s.clock, s.mtime)] := by
  have hfire : s.fire src = s.fireReach src s.clock s.mtime := by simp [State.fire, hp, hn, hd]
  rw [hfire]
  exact (s.fireReach_taps src s.clock s.mtime).1

/-- The delay of a firing by one perturbation unit. -/
def State.evtDelayBy (s : State) (e : Fin 13) (src : Nat) : Nat :=
  if s.ptbActs e && (s.isSet (R.PTB_EVT e) F.PTB_EVT_ALL || s.getF (R.PTB_EVT e) F.PTB_EVT_SRC == src) then
    s.getF (R.PTB_EVT e) F.PTB_EVT_DELAY
  else 0

theorem State.evtDelay_eq (s : State) (src : Nat) : s.evtDelay src =
    (match localOf src with
      | some (n, _) => if h : n < 12 then s.evtDelayBy ⟨n, by omega⟩ src else 0
      | none => 0) + s.evtDelayBy 12 src := rfl

/-- The delay of a firing rests on the perturbation units and the clock alone. -/
theorem State.evtDelay_congr {s t : State} (hctrl : ∀ e : Fin 13, t.reg (R.PTB_CTRL e) = s.reg (R.PTB_CTRL e))
    (hevt : ∀ e : Fin 13, t.reg (R.PTB_EVT e) = s.reg (R.PTB_EVT e)) (hat : t.ptbAt = s.ptbAt) (hclock : t.clock = s.clock) (src : Nat) :
    t.evtDelay src = s.evtDelay src := by
  have hby : ∀ e : Fin 13, t.evtDelayBy e src = s.evtDelayBy e src := fun e => by
    unfold State.evtDelayBy State.ptbActs State.isSet State.getF
    rw [hctrl, hevt, hat, hclock]
  simp only [State.evtDelay_eq, hby]

/-! What a disarm does not reach. -/

/-- A register of the metering converter, the memories, the flash controller, the supply, always-on power, the system watchdog or
the security block. -/
def ModReg (a : Nat) : Prop := (0x01040000 ≤ a ∧ a < 0x01070000) ∨ (0x010C0000 ≤ a ∧ a < 0x01110000)

theorem routerReg_of_modReg {a : Nat} (h : ModReg a) : routerReg a = false := by
  simp only [routerReg, Bool.or_eq_false_iff, Bool.and_eq_false_iff, decide_eq_false_iff_not]
  simp only [ModReg] at h
  omega

/-- `t` holds what `s` does in those registers, in memory, in security and in the supply, and its taps have lost none. -/
structure State.ModKept (s t : State) : Prop where
  part : t.part = s.part
  clock : t.clock = s.clock
  mtime : t.mtime = s.mtime
  cells : t.cells = s.cells
  sec : t.sec = s.sec
  pwr : t.pwr = s.pwr
  flc : t.flc = s.flc
  filt : t.evr.filt = s.evr.filt
  taps : s.evr.taps <+: t.evr.taps
  regs : ∀ a, ModReg a → t.reg a = s.reg a

namespace State.ModKept

variable {s t u : State}

theorem refl (s : State) : s.ModKept s := ⟨rfl, rfl, rfl, rfl, rfl, rfl, rfl, rfl, List.prefix_rfl, fun _ _ => rfl⟩

theorem trans (h : s.ModKept t) (k : t.ModKept u) : s.ModKept u where
  part := k.part.trans h.part
  clock := k.clock.trans h.clock
  mtime := k.mtime.trans h.mtime
  cells := k.cells.trans h.cells
  sec := k.sec.trans h.sec
  pwr := k.pwr.trans h.pwr
  flc := k.flc.trans h.flc
  filt := k.filt.trans h.filt
  taps := h.taps.trans k.taps
  regs a ha := (k.regs a ha).trans (h.regs a ha)

theorem getF (h : s.ModKept t) {a : Nat} (ha : ModReg a) (f : Fld) : t.getF a f = s.getF a f := congrArg f.get (h.regs a ha)

theorem isSet (h : s.ModKept t) {a : Nat} (ha : ModReg a) (f : Fld) : t.isSet a f = s.isSet a f := congrArg (· == 1) (h.getF ha f)

/-- A change of what no field of `ModKept` speaks of. -/
theorem elsewhere (h : s.ModKept t) (hu : (u.part, u.clock, u.mtime, u.cells, u.sec, u.pwr, u.flc, u.evr, u.regs) =
    (t.part, t.clock, t.mtime, t.cells, t.sec, t.pwr, t.flc, t.evr, t.regs)) : s.ModKept u := by
  simp only [Prod.mk.injEq] at hu
  obtain ⟨hpart, hclock, hmtime, hcells, hsec, hpwr, hflc, hevr, hregs⟩ := hu
  exact h.trans ⟨hpart, hclock, hmtime, hcells, hsec, hpwr, hflc, by rw [hevr], by rw [hevr], fun a _ => congrArg (SMap.get resetOf · a) hregs⟩

theorem setReg (h : s.ModKept t) (a : Nat) (v : Word) (ha : ¬ ModReg a) : s.ModKept (t.setReg a v) :=
  h.trans { State.ModKept.refl t with regs := fun b hb => t.reg_setReg_ne a v b (fun e => ha (e ▸ hb)) }

theorem ite {c : Prop} [Decidable c] (h : s.ModKept t) (k : s.ModKept u) : s.ModKept (if c then t else u) := by
  split <;> assumption

theorem foldl {α : Type} (h : s.ModKept t) (l : List α) (f : State → α → State)
    (hf : ∀ u a, s.ModKept u → s.ModKept (f u a)) : s.ModKept (l.foldl f t) := foldl_keeps _ f l t h hf

theorem fire (h : s.ModKept t) (src : Nat) : s.ModKept (t.fire src) := by
  have hrest := (t.fire_only src).rest
  exact h.trans ⟨by rw [hrest], by rw [hrest], by rw [hrest], by rw [hrest], by rw [hrest], by rw [hrest], by rw [hrest],
    (t.fire_lines src).2, (t.fire_lines src).1, fun a ha => t.fire_reg src a (routerReg_of_modReg ha)⟩

/-! Pins and roles. -/

theorem edgeRecord (h : s.ModKept t) (n : Fin 12) (k : Fin 8) (out : Nat) (level : Bool) (now : Nat) :
    s.ModKept (t.edgeRecord n k out level now) := by
  unfold State.edgeRecord
  extract_lets f st len w seq s1 base
  split
  · exact h
  · have h1 : s.ModKept s1 := h.elsewhere (by rfl)
    have hst : ¬ ModReg st := by
      simp only [st, ModReg, fnBase, R.RNG_EDGE_STAT]
      omega
    exact (h1.setReg _ _ hst).ite ((h1.elsewhere (by rfl)).setReg _ _ hst)

theorem drive (h : s.ModKept t) (n : Fin 12) (k : Fin 8) (line now : Nat) : s.ModKept (t.drive n k line now) := by
  unfold State.drive
  dsimp only
  have h1 (p : PwmSt) : s.ModKept (t.setPw n k p) := h.elsewhere (by rfl)
  exact ((((h1 _).edgeRecord _ _ _ _ _).ite (h1 _)).edgeRecord _ _ _ _ _).ite (((h1 _).edgeRecord _ _ _ _ _).ite (h1 _))

theorem pins (h : s.ModKept t) (n : Fin 12) (k : Fin 8) : s.ModKept (t.pins n k) := by
  have htrip : ¬ ModReg (R.PWM_TRIP_STAT n k) := by
    simp only [ModReg, R.PWM_TRIP_STAT, pwmBase]
    omega
  have h1 := h.setReg (R.PWM_TRIP_STAT n k) (F.PWM_TRIP_STAT_PINS.put (t.reg (R.PWM_TRIP_STAT n k))
    (if t.mode == mdHil then 0 else t.pinLine n k)) htrip
  exact ((h1.elsewhere (by rfl)).ite h1).drive n k _ _

theorem pinsSlice (h : s.ModKept t) (n : Fin 12) : s.ModKept (t.pinsSlice n) := h.foldl _ _ (fun _ k hu => hu.pins n k)

theorem showSync (h : s.ModKept t) : s.ModKept t.showSync := by
  have h1 : s.ModKept t.syncRegs := by
    unfold State.syncRegs
    extract_lets f sy ar
    have hsync : ¬ ModReg R.TWN_SYNC := by
      simp only [ModReg, R.TWN_SYNC]
      omega
    have h2 : s.ModKept (t.setF R.TWN_SYNC F.TWN_SYNC_SYNCED sy) := h.setReg _ _ hsync
    have h3 : s.ModKept ((t.setF R.TWN_SYNC F.TWN_SYNC_SYNCED sy).setF R.TWN_SYNC F.TWN_SYNC_ARMED ar) := h2.setReg _ _ hsync
    exact h.ite ((h3.ite ((h3.elsewhere (by rfl)).fire 982)).ite h)
  exact (h1.elsewhere (by rfl)).ite h1

theorem setCtl (h : s.ModKept t) (n : Fin 12) (c : CtlSt) : s.ModKept (t.setCtl n c) := h.elsewhere (by rfl)

/-! The disarm (R33, R51). -/

theorem armUndo (h : s.ModKept t) (n : Fin 12) : s.ModKept (t.armUndo n) := by
  have hrej : ¬ ModReg R.DEV_ARM_REJ := by unfold ModReg R.DEV_ARM_REJ; omega
  have harm : ¬ ModReg R.DEV_ARM := by unfold ModReg R.DEV_ARM; omega
  unfold State.armUndo
  split
  next p k _ =>
    have h1 : s.ModKept (if k == 0 then t else t.setF R.DEV_ARM_REJ F.DEV_ARM_REJ_COUNT
        (t.getF R.DEV_ARM_REJ F.DEV_ARM_REJ_COUNT - k)) := h.ite (h.setReg _ _ hrej)
    extract_lets c u
    have h2 : s.ModKept (if p == t.armPend n then u else u.setArmPend n p) := h1.ite (h1.setReg _ _ harm)
    exact h2.setCtl n _

theorem setArmed (h : s.ModKept t) (n : Fin 12) (b : Bool) : s.ModKept (t.setArmed n b) := by
  have harm : ¬ ModReg R.DEV_ARM := by unfold ModReg R.DEV_ARM; omega
  exact (h.setReg _ _ harm).showSync

theorem disarm (h : s.ModKept t) (n : Fin 12) : s.ModKept (t.disarm n) := by
  unfold State.disarm
  have h1 := h.armUndo n
  exact h1.ite (((h1.setArmed n false).setCtl n _).pinsSlice n)

theorem disarmAll (h : s.ModKept t) : s.ModKept t.disarmAll := h.foldl _ _ (fun _ n hu => hu.disarm n)

end State.ModKept

end Machine
end Sys2Proof
end

section
/-! PROOFS. What a disarm of every slice does, and what a power-on reset keeps (R11, R33, R429, R455, R457). -/

namespace Sys2Proof
namespace Machine

/-! The disarm of every slice. -/

theorem State.armed_setArmed_of {s : State} {n : Nat} (h : s.armed n = false) (m : Fin 12) : (s.setArmed m false).armed n = false := by
  have hk : (s.setF R.DEV_ARM ⟨m, 1⟩ (b2n false)).Kept CtlReg (s.setArmed m false) := (State.Kept.refl _ _).showSync
  rw [State.armed, natBit, State.getF, Fld.get_testBit] at h
  rw [State.armed, hk.getF ctlReg_DEV_ARM, natBit, State.getF, State.setF, State.reg_setReg_self, Fld.get_testBit,
    Fld.put_getLsbD _ (by simp only; omega)]
  split
  · simp [b2n]
  · exact h

theorem State.armed_armUndo (s : State) (m : Fin 12) (n : Nat) : (s.armUndo m).armed n = s.armed n := by
  unfold State.armUndo
  split
  next p k _ =>
    extract_lets c t
    have ht : t.armed n = s.armed n := by
      unfold t
      split
      · rfl
      · exact congrArg (natBit · n) (State.getF_setF_reg _ _ _ _ _ _ (by decide))
    have hu : (if p == s.armPend m then t else t.setArmPend m p).armed n = s.armed n := by
      split
      · exact ht
      · rw [← ht]
        exact congrArg (natBit · n) (State.getF_setF_fld _ _ _ _ _ (by simp only; omega) (by simp only [F.DEV_ARM_ARM]; omega))
    exact hu

theorem State.armed_pinsSlice (s : State) (m : Fin 12) (n : Nat) : (s.pinsSlice m).armed n = s.armed n :=
  congrArg (natBit · n) (((State.Kept.refl CtlReg s).pinsSlice m).getF ctlReg_DEV_ARM _)

theorem State.armed_setCtl (s : State) (m : Fin 12) (c : CtlSt) (n : Nat) : (s.setCtl m c).armed n = s.armed n := rfl

/-- A slice that is not armed stays so. -/
theorem State.armed_disarm_of {s : State} {n : Nat} (h : s.armed n = false) (m : Fin 12) : (s.disarm m).armed n = false := by
  have hundo : (s.armUndo m).armed n = false := (s.armed_armUndo m n).trans h
  unfold State.disarm
  split
  · exact hundo
  · rw [State.armed_pinsSlice, State.armed_setCtl]
    exact State.armed_setArmed_of hundo m

theorem State.armed_disarm {s : State} {n : Fin 12} (h : s.fitted n = true) : (s.disarm n).armed n = false := by
  unfold State.disarm
  rw [if_neg (by simp [h]), State.armed_pinsSlice, State.armed_setCtl]
  exact State.armed_setArmed_false _ n

theorem State.armed_foldl_disarm {l : List (Fin 12)} {n : Fin 12} (hn : n ∈ l) {s : State} (h : s.fitted n = true) :
    (l.foldl (fun (t : State) m => t.disarm m) s).armed n = false := by
  induction l generalizing s with
  | nil => cases hn
  | cons m l ih =>
    rcases List.mem_cons.mp hn with rfl | hl
    · exact foldl_keeps (fun t : State => t.armed n = false) (fun t m => t.disarm m) l (s.disarm n) (State.armed_disarm h)
        fun t k ht => State.armed_disarm_of ht k
    · have hpart : (s.disarm m).part = s.part := ((State.ModKept.refl s).disarm m).part
      exact ih hl (by rw [State.fitted, hpart]; exact h)

theorem State.armed_disarmAll {s : State} {n : Slice} (h : s.fitted n = true) : s.disarmAll.armed n = false :=
  State.armed_foldl_disarm (List.mem_finRange n) h

/-! Registers set in turn. -/

/-- The registers of a list take its words. -/
def State.setRegs (s : State) (l : List (Nat × Word)) : State := l.foldl (fun (u : State) e => u.setReg e.1 e.2) s

theorem State.setRegs_cons (s : State) (e : Nat × Word) (l : List (Nat × Word)) :
    s.setRegs (e :: l) = (s.setReg e.1 e.2).setRegs l := rfl

theorem State.setRegs_reg_ne (s : State) (l : List (Nat × Word)) {a : Nat} (h : a ∉ l.map Prod.fst) : (s.setRegs l).reg a = s.reg a := by
  induction l generalizing s with
  | nil => rfl
  | cons e l ih =>
    rw [List.map_cons, List.mem_cons, not_or] at h
    rw [State.setRegs_cons, ih _ h.2, State.reg_setReg_ne _ _ _ _ h.1]

theorem State.setRegs_reg (s : State) {l : List (Nat × Word)} {a : Nat} {v : Word} (h : (a, v) ∈ l) (hd : (l.map Prod.fst).Nodup) :
    (s.setRegs l).reg a = v := by
  induction l generalizing s with
  | nil => cases h
  | cons e l ih =>
    obtain ⟨hnot, hd'⟩ := List.nodup_cons.mp hd
    rw [State.setRegs_cons]
    rcases List.mem_cons.mp h with rfl | hl
    · rw [State.setRegs_reg_ne _ l hnot, State.reg_setReg_self]
    · exact ih _ hl hd'

/-- Nothing but registers changes. -/
theorem State.setRegs_rest (s : State) (l : List (Nat × Word)) : s.RegsOnly (s.setRegs l) :=
  foldl_keeps s.RegsOnly _ _ s rfl fun _ e h => by
    unfold State.RegsOnly at h ⊢
    rw [h]
    rfl

/-! Power-on reset. -/

/-- The registers that a power-on reset keeps. -/
def State.onKept (s : State) (aon : Bool) : List (Nat × Word) := s.lasting ++ (if aon then s.alwaysOn else [])

/-- What a power-on reset sets but for those registers. -/
def State.onBase (s : State) (aon : Bool) : State := { State.reset with
  part := s.part, clock := s.clock, free := s.free, outs := s.outs, pending := s.pending, cap := s.capLevels,
  flc := s.flashCut.flc, pwr := if aon then s.pwr else resetPwr
  sec := { resetSec with
    keys := s.sec.keys, due := s.sec.due, req := if aon then s.sec.req else none
    images := if aon then s.sec.images else resetSec.images }
  ctl := State.reset.ctl.mapFinIdx (fun i c _ => { c with tripPin := (s.ctl.toList[i]?.getD resetCtl).tripPin }) }

theorem State.powerOn_eq (s : State) (aon : Bool) : s.powerOn aon = (s.onBase aon).setRegs (s.onKept aon) := rfl

theorem State.powerOn_rest (s : State) (aon : Bool) : (s.onBase aon).RegsOnly (s.powerOn aon) := State.setRegs_rest _ _

/-- The addresses kept do not depend on the state, and stand once each. -/
theorem State.onKept_nodup (s : State) (aon : Bool) : ((s.onKept aon).map Prod.fst).Nodup := by
  have hkeys : (s.onKept aon).map Prod.fst = (State.reset.onKept aon).map Prod.fst := by cases aon <;> rfl
  rw [hkeys]
  cases aon <;> decide +kernel

theorem State.powerOn_reg {s : State} {aon : Bool} {a : Nat} {v : Word} (h : (a, v) ∈ s.onKept aon) : (s.powerOn aon).reg a = v :=
  State.setRegs_reg _ h (s.onKept_nodup aon)

theorem State.powerOn_reg_reset (s : State) {aon : Bool} {a : Nat} (h : a ∉ (State.reset.onKept aon).map Prod.fst) :
    (s.powerOn aon).reg a = resetOf a := by
  have hkeys : (s.onKept aon).map Prod.fst = (State.reset.onKept aon).map Prod.fst := by cases aon <;> rfl
  exact (State.setRegs_reg_ne _ _ (hkeys ▸ h)).trans rfl

/-- The module starts over (R11). -/
theorem State.powerOn_mode (s : State) (aon : Bool) : (s.powerOn aon).mode = mdStart := by
  have hreg : (s.powerOn aon).reg R.DEV_MODE = resetOf R.DEV_MODE := s.powerOn_reg_reset (by cases aon <;> decide +kernel)
  rw [State.mode, State.getF, hreg]
  decide +kernel

theorem State.powerOn_armed (s : State) (aon : Bool) (n : Slice) : (s.powerOn aon).armed n = false := by
  have hreg : (s.powerOn aon).reg R.DEV_ARM = resetOf R.DEV_ARM := s.powerOn_reg_reset (by cases aon <;> decide +kernel)
  rw [State.armed, State.getF, hreg]
  revert n
  decide +kernel

theorem State.powerOn_KEYSTAT (s : State) (aon : Bool) : (s.powerOn aon).reg R.SEC_KEYSTAT = s.reg R.SEC_KEYSTAT :=
  State.powerOn_reg (by simp [State.onKept, State.lasting])

theorem State.powerOn_MINVER (s : State) (aon : Bool) : (s.powerOn aon).reg R.SEC_MINVER = s.reg R.SEC_MINVER :=
  State.powerOn_reg (by simp [State.onKept, State.lasting])

theorem State.powerOn_lc (s : State) (aon : Bool) : (s.powerOn aon).lc = s.lc := by
  have hreg : (s.powerOn aon).reg R.SEC_LC = F.SEC_LC_STATE.word (s.getF R.SEC_LC F.SEC_LC_STATE) :=
    State.powerOn_reg (by simp [State.onKept, State.lasting])
  rw [State.lc, State.getF, hreg, F.SEC_LC_STATE.get_word _ (by decide), State.lc]
  exact Nat.mod_eq_of_lt (State.getF_lt s R.SEC_LC F.SEC_LC_STATE)

/-- What always-on power keeps. -/
theorem State.powerOn_TAMPER (s : State) : (s.powerOn true).reg R.SEC_TAMPER = s.reg R.SEC_TAMPER :=
  State.powerOn_reg (by simp [State.onKept, State.alwaysOn])

theorem State.powerOn_keys (s : State) (aon : Bool) : (s.powerOn aon).sec.keys = s.sec.keys := by rw [(s.powerOn_rest aon).sec]; rfl

theorem State.powerOn_due (s : State) (aon : Bool) : (s.powerOn aon).sec.due = s.sec.due := by rw [(s.powerOn_rest aon).sec]; rfl

end Machine
end Sys2Proof
end

section
/-! PROOFS. Versions, keys, life cycle and tamper (R449 to R458). -/

namespace Sys2Proof
namespace Machine

/-! Writes of the SEC block. -/

theorem secWord_key (key : BitVec 16) (op : Nat) (k : Fin 4) : F.SEC_CMD_KEY.get (secWord key op k) = key.toNat := by
  rw [secWord, Fld.get_or, Fld.get_or, F.SEC_CMD_KEY.get_word _ (by decide), F.SEC_CMD_OP.get_word_ne _ _ (by decide) (by decide),
    F.SEC_CMD_SLOT.get_word_ne _ _ (by decide) (by decide), Nat.or_zero, Nat.or_zero]
  exact Nat.mod_eq_of_lt key.isLt

theorem secWord_op (key : BitVec 16) {op : Nat} (k : Fin 4) (h : op < 16) : F.SEC_CMD_OP.get (secWord key op k) = op := by
  rw [secWord, Fld.get_or, Fld.get_or, F.SEC_CMD_KEY.get_word_ne _ _ (by decide) (by decide), F.SEC_CMD_OP.get_word _ (by decide),
    F.SEC_CMD_SLOT.get_word_ne _ _ (by decide) (by decide), Nat.zero_or, Nat.or_zero]
  exact Nat.mod_eq_of_lt h

theorem secWord_slot (key : BitVec 16) (op : Nat) (k : Fin 4) : F.SEC_CMD_SLOT.get (secWord key op k) = k := by
  rw [secWord, Fld.get_or, Fld.get_or, F.SEC_CMD_KEY.get_word_ne _ _ (by decide) (by decide),
    F.SEC_CMD_OP.get_word_ne _ _ (by decide) (by decide), F.SEC_CMD_SLOT.get_word _ (by decide), Nat.zero_or, Nat.zero_or]
  exact Nat.mod_eq_of_lt k.isLt

theorem State.write_secReg {s : State} {x : Access} {a : Nat} (v : Word) (hlo : 0x01100000 ≤ a) (hhi : a < 0x01110000)
    (h : s.reaches x a = true) : s.write x a v = s.secWrite x a v := by
  have hunit : (a - 0x01000000) / 0x10000 = 0x10 := by omega
  rw [State.write_deviceReg v (by omega) (by omega) h]
  simp only [State.deviceWrite, hunit]

theorem State.write_SEC_CMD {s : State} {x : Access} (v : Word) (h : s.reaches x R.SEC_CMD = true) :
    s.write x R.SEC_CMD v = if secMaster x then s.secCmd v else s.refuse x.m := by
  have hrow : (rowAt R.SEC_CMD).isNone = false := by decide +kernel
  have hoff : R.SEC_CMD - 0x01100000 = 0x10 := by decide
  rw [State.write_secReg v (by decide) (by decide) h, State.secWrite, hrow, hoff]
  cases hm : secMaster x <;> rfl

theorem State.write_SEC_LC_REQ {s : State} {x : Access} (v : Word) (h : s.reaches x R.SEC_LC_REQ = true) (hm : x.m = .sys) :
    s.write x R.SEC_LC_REQ v = s.lcRequest v := by
  have hrow : (rowAt R.SEC_LC_REQ).isNone = false := by decide +kernel
  have hoff : R.SEC_LC_REQ - 0x01100000 = 0x04 := by decide
  rw [State.write_secReg v (by decide) (by decide) h, State.secWrite, hrow, hoff, hm]
  rfl

/-- A command with its key goes on to its operation. -/
theorem State.secCmd_keyed {s : State} {op : Nat} {k : Fin 4} {t : State} (hrun : (match op with
    | 1 => s.setMinver
    | 2 => s.writeKey k
    | 3 => s.revoke k
    | _ => s.badAcc) = t) (h : op < 16) : s.secCmd (secWord 0x5EC0 op k) = t := by
  have hkey : (F.SEC_CMD_KEY.get (secWord 0x5EC0 op k) != 0x5EC0) = false := by rw [secWord_key]; rfl
  rw [State.secCmd, hkey, secWord_op _ k h, secWord_slot]
  exact hrun

theorem State.secCmd_unkeyed (s : State) {key : BitVec 16} (op : Nat) (k : Fin 4) (h : key ≠ 0x5EC0) :
    s.secCmd (secWord key op k) = s.badAcc := by
  have hkey : (F.SEC_CMD_KEY.get (secWord key op k) != 0x5EC0) = true := by
    rw [secWord_key, bne_iff_ne]
    exact fun e => h (BitVec.eq_of_toNat_eq e)
  rw [State.secCmd, hkey]
  rfl

/-! Refused accesses. -/

theorem State.badAcc_counted (s : State) : s.badAcc.reg R.HIF_BADACC = s.badAccNext := by
  rw [s.badAcc_eq, State.reg_setReg_self]

theorem State.badAcc_reg (s : State) {a : Nat} (h : a ≠ R.HIF_BADACC) : s.badAcc.reg a = s.reg a := by
  rw [s.badAcc_eq, State.reg_setReg_ne _ _ _ _ h]

/-- Any refused access counts in HIF_BADACC, and changes no register of the device's own units. -/
theorem State.refuse_counts (s : State) (m : Master) : (s.refuse m).reg R.HIF_BADACC = s.badAccNext ∧
    (∀ a, ModReg a → (s.refuse m).reg a = s.reg a) ∧ (s.refuse m).sec = s.sec ∧ (s.refuse m).cells = s.cells := by
  have hmod : ∀ a, ModReg a → a ≠ R.HIF_BADACC := fun a ha e => by
    unfold ModReg R.HIF_BADACC at *
    omega
  have hother : s.badAcc.reg R.HIF_BADACC = s.badAccNext ∧ (∀ a, ModReg a → s.badAcc.reg a = s.reg a) ∧ s.badAcc.sec = s.sec ∧
      s.badAcc.cells = s.cells := ⟨s.badAcc_counted, fun a ha => s.badAcc_reg (hmod a ha), rfl, rfl⟩
  cases m with
  | fn f =>
    have hfn : R.HIF_BADACC ≠ R.HIF_FN_ERR f := by unfold R.HIF_BADACC R.HIF_FN_ERR fnBase; omega
    refine ⟨?_, fun a ha => ?_, ?_, ?_⟩
    · exact ((s.badAcc.fnErr f).fire_reg 1015 _ (by decide)).trans ((State.reg_count_ne _ _ _ _ hfn).trans s.badAcc_counted)
    · have hne : a ≠ R.HIF_FN_ERR f := by unfold ModReg at ha; unfold R.HIF_FN_ERR fnBase; omega
      exact ((s.badAcc.fnErr f).fire_reg 1015 _ (routerReg_of_modReg ha)).trans ((State.reg_count_ne _ _ _ _ hne).trans
        (s.badAcc_reg (hmod a ha)))
    · exact State.fire_sec _ _
    · exact State.fire_cells _ _
  | sys | core n | mon | dma e => exact hother

/-! Keys. -/

/-- The staged digest stands in slot k, before KEYSTAT shows it. -/
def State.keyStored (s : State) (k : Fin 4) : State :=
  { s with sec := { s.sec with keys := s.sec.keys.setIfInBounds (k.val - 1) s.keyData } }

theorem State.writeKey_writes {s : State} {k : Fin 4} (hk : k ≠ 0) (hlc : s.lc ≤ 1)
    (hw : natBit (s.getF R.SEC_KEYSTAT F.SEC_KEYSTAT_WRITTEN) k = false) : s.writeKey k =
      ({ s with sec := { s.sec with keys := s.sec.keys.setIfInBounds (k.val - 1) s.keyData } }).setF R.SEC_KEYSTAT ⟨k.val, 1⟩ 1 := by
  have hk' : (k.val == 0) = false := by simpa using hk
  have hlc' : decide (1 < s.lc) = false := by simpa using hlc
  simp [State.writeKey, hk', hlc', hw]

theorem State.writeKey_refused {s : State} {k : Fin 4} (h : k = 0 ∨ 1 < s.lc ∨
    natBit (s.getF R.SEC_KEYSTAT F.SEC_KEYSTAT_WRITTEN) k = true) : s.writeKey k = s.badAcc := by
  rcases h with rfl | hlc | hw
  · simp [State.writeKey]
  · simp [State.writeKey, hlc]
  · simp [State.writeKey, hw]

theorem State.revoke_sets {s : State} {k : Fin 4} (hk : k ≠ 0) (hlc : s.lc ≤ 2) :
    s.revoke k = s.setF R.SEC_KEYSTAT ⟨4 + k.val, 1⟩ 1 := by
  have hk' : (k.val == 0) = false := by simpa using hk
  simp [State.revoke, hk', hlc]

/-- A bit of a field, set by itself. -/
theorem State.natBit_setF_one (s : State) (a : Nat) (f : Fld) {i : Nat} (hi : i < f.width) (hf : f.lo + f.width ≤ 32) :
    natBit ((s.setF a ⟨f.lo + i, 1⟩ 1).getF a f) i = true := by
  rw [natBit, State.getF, State.setF, State.reg_setReg_self, Fld.get_testBit, Fld.put_getLsbD _ (by simp only; omega)]
  simp [hi]

/-! Transitions of the life cycle. -/

theorem State.lcRequest_keyed {s : State} {v : Word} (hkey : F.SEC_LC_REQ_KEY.get v = 0x1C5E) : s.lcRequest v =
    if s.sec.hitAt != some s.clock && s.mode == mdService && s.noneArmed &&
        (s.getF R.SEC_TAMPER F.SEC_TAMPER_FLAGS == 0 || F.SEC_LC_REQ_TARGET.get v == 4) && s.lcAllowed (F.SEC_LC_REQ_TARGET.get v) &&
        s.sec.req.isNone then
      ((({ s with sec := { s.sec with req := some (F.SEC_LC_REQ_TARGET.get v), reqAt := s.clock } } : State).setF R.SEC_LC
        F.SEC_LC_REQ_STATUS 0).wipeBegin)
    else s.setF R.SEC_LC F.SEC_LC_REQ_STATUS 2 := by
  simp [State.lcRequest, hkey]

theorem State.wipeBegin_reg (s : State) {a : Nat} (h : a ≠ R.MEM_STAT) : s.wipeBegin.reg a = s.reg a :=
  State.reg_setF_ne _ _ _ _ _ h

theorem State.wipeBegin_wiping (s : State) : s.wipeBegin.isSet R.MEM_STAT F.MEM_STAT_SEC_WIPING = true := State.isSet_setF_one _ _ _

/-! Tamper detections. -/

/-- What a detection records before its event. -/
def State.tamperNoted (s : State) (b : Fin 5) : State :=
  ((s.tamperWins.wipeBegin.setF R.SEC_TAMPER ⟨b.val, 1⟩ 1).setReg R.SEC_TAMPER_TIME (s.reg R.AON_RTC_SEC)).count
    R.SEC_WIPE_CNT F.SEC_WIPE_CNT_COUNT

/-- The same, with the event. -/
def State.tamperShown (s : State) (b : Fin 5) : State :=
  ({ s.tamperNoted b with sec := { (s.tamperNoted b).sec with event := true } }).fireIf (s.tamperNoted b).fastRuns 37

theorem State.tamper_eq {s : State} {b : Fin 5} (h : natBit s.tamperEn b = true) : s.tamper b =
    match (s.tamperShown b).getF R.SEC_TAMPER_CFG F.SEC_TAMPER_CFG_ACT with
    | 0 => if b.val == 3 then (s.tamperShown b).disarmAll else s.tamperShown b
    | 1 => (s.tamperShown b).disarmAll
    | _ => (s.tamperShown b).disarmAll.powerOn true := by
  rw [State.tamper, h]
  rfl

/-- What the win over a request of the same cycle leaves. -/
theorem State.tamperWins_reg (s : State) {a : Nat} (h : a ≠ R.SEC_LC) : s.tamperWins.reg a = s.reg a := by
  unfold State.tamperWins
  extract_lets t
  split
  · exact State.reg_setF_ne _ _ _ _ _ h
  · rfl

theorem State.tamperWins_rest (s : State) : s.tamperWins = { s with regs := s.tamperWins.regs, sec := s.tamperWins.sec } := by
  unfold State.tamperWins
  extract_lets t
  split <;> rfl

theorem State.tamperWins_sec (s : State) : s.tamperWins.sec.hitAt = some s.clock ∧
    (s.sec.req ≠ none → s.sec.reqAt = s.clock → s.tamperWins.sec.req = none) ∧ s.tamperWins.sec.keys = s.sec.keys := by
  unfold State.tamperWins
  extract_lets t
  split
  · exact ⟨rfl, fun _ _ => rfl, rfl⟩
  · next h =>
    refine ⟨rfl, fun hreq hat => absurd ?_ h, rfl⟩
    simp [Option.isSome_iff_ne_none, hreq, hat]

/-- Registers that a detection does not write. -/
theorem State.tamperNoted_reg (s : State) (b : Fin 5) {a : Nat} (h : a ∉ [R.SEC_LC, R.MEM_STAT, R.SEC_TAMPER, R.SEC_TAMPER_TIME,
    R.SEC_WIPE_CNT]) : (s.tamperNoted b).reg a = s.reg a := by
  simp only [List.mem_cons, List.not_mem_nil, or_false, not_or] at h
  obtain ⟨hlc, hmem, htamper, htime, hcnt⟩ := h
  rw [State.tamperNoted, State.reg_count_ne _ _ _ _ hcnt, State.reg_setReg_ne _ _ _ _ htime, State.reg_setF_ne _ _ _ _ _ htamper,
    State.wipeBegin_reg _ hmem, State.tamperWins_reg _ hlc]

/-- A detection reaches neither memory nor the router before its event. -/
structure State.TamperKept (s t : State) : Prop where
  part : t.part = s.part
  clock : t.clock = s.clock
  mtime : t.mtime = s.mtime
  cells : t.cells = s.cells
  evr : t.evr = s.evr
  ptbAt : t.ptbAt = s.ptbAt
  sec : t.sec = s.tamperWins.sec

theorem State.tamperWins_kept (s : State) : s.TamperKept s.tamperWins := by
  have h := s.tamperWins_rest
  exact ⟨by rw [h], by rw [h], by rw [h], by rw [h], by rw [h], by rw [h], rfl⟩

/-- A change of what no field of `TamperKept` speaks of. -/
theorem State.TamperKept.elsewhere {s t u : State} (h : s.TamperKept t) (hu : (u.part, u.clock, u.mtime, u.cells, u.evr, u.ptbAt, u.sec) =
    (t.part, t.clock, t.mtime, t.cells, t.evr, t.ptbAt, t.sec)) : s.TamperKept u := by
  simp only [Prod.mk.injEq] at hu
  obtain ⟨hpart, hclock, hmtime, hcells, hevr, hptb, hsec⟩ := hu
  exact ⟨hpart.trans h.part, hclock.trans h.clock, hmtime.trans h.mtime, hcells.trans h.cells, hevr.trans h.evr, hptb.trans h.ptbAt,
    hsec.trans h.sec⟩

theorem State.TamperKept.setReg {s t : State} (h : s.TamperKept t) (a : Nat) (v : Word) : s.TamperKept (t.setReg a v) := h.elsewhere (by rfl)

theorem State.tamperNoted_kept (s : State) (b : Fin 5) : s.TamperKept (s.tamperNoted b) := by
  have hwipe : s.TamperKept s.tamperWins.wipeBegin := s.tamperWins_kept.elsewhere (by rfl)
  exact ((hwipe.setReg _ _).setReg _ _).setReg _ _

end Machine
end Sys2Proof
end

section
/-! PROOFS. The life cycle and the tamper monitor: what each clause of chapter 26 shows. -/

namespace Sys2Proof
namespace Machine

/-! A detection, field by field. -/

theorem PTB_off_tamper (e : Fin 13) : R.PTB_CTRL e ∉ [R.SEC_LC, R.MEM_STAT, R.SEC_TAMPER, R.SEC_TAMPER_TIME, R.SEC_WIPE_CNT] ∧
    R.PTB_EVT e ∉ [R.SEC_LC, R.MEM_STAT, R.SEC_TAMPER, R.SEC_TAMPER_TIME, R.SEC_WIPE_CNT] := by
  revert e
  decide

/-- The registers that show a detection. -/
theorem State.tamperNoted_shows (s : State) (b : Fin 5) :
    (s.tamperNoted b).isSet R.SEC_TAMPER ⟨b.val, 1⟩ = true ∧ (s.tamperNoted b).reg R.SEC_TAMPER_TIME = s.reg R.AON_RTC_SEC ∧
      (s.tamperNoted b).isSet R.MEM_STAT F.MEM_STAT_SEC_WIPING = true ∧
      (s.tamperNoted b).getF R.SEC_WIPE_CNT F.SEC_WIPE_CNT_COUNT =
        min F.SEC_WIPE_CNT_COUNT.top (s.getF R.SEC_WIPE_CNT F.SEC_WIPE_CNT_COUNT + 1) := by
  have hcount : ∀ a, a ≠ R.SEC_WIPE_CNT → (s.tamperNoted b).reg a =
      ((s.tamperWins.wipeBegin.setF R.SEC_TAMPER ⟨b.val, 1⟩ 1).setReg R.SEC_TAMPER_TIME (s.reg R.AON_RTC_SEC)).reg a := fun a ha =>
    State.reg_count_ne _ _ _ _ ha
  refine ⟨?_, ?_, ?_, ?_⟩
  · unfold State.isSet State.getF
    rw [hcount _ (by decide), State.reg_setReg_ne _ _ _ _ (by decide)]
    exact State.isSet_setF_one _ _ _ (by simp only; omega) (Nat.zero_lt_one)
  · rw [hcount _ (by decide), State.reg_setReg_self]
  · unfold State.isSet State.getF
    rw [hcount _ (by decide), State.reg_setReg_ne _ _ _ _ (by decide), State.reg_setF_ne _ _ _ _ _ (by decide)]
    exact State.wipeBegin_wiping _
  · refine (State.getF_count _ _ _ (by decide)).trans ?_
    unfold State.getF
    rw [State.reg_setReg_ne _ _ _ _ (by decide), State.reg_setF_ne _ _ _ _ _ (by decide), State.wipeBegin_reg _ (by decide),
      s.tamperWins_reg (by decide)]

/-- The event adds to the taps at most. -/
theorem State.tamperShown_kept (s : State) (b : Fin 5) :
    ({ s.tamperNoted b with sec := { (s.tamperNoted b).sec with event := true } } : State).ModKept (s.tamperShown b) := by
  unfold State.tamperShown State.fireIf
  exact ((State.ModKept.refl _).fire 37).ite (.refl _)

/-- What a detection shows with its event. -/
structure State.TamperTold (s t : State) (b : Fin 5) : Prop where
  flag : t.isSet R.SEC_TAMPER ⟨b.val, 1⟩ = true
  time : t.reg R.SEC_TAMPER_TIME = s.reg R.AON_RTC_SEC
  wiping : t.isSet R.MEM_STAT F.MEM_STAT_SEC_WIPING = true
  count : t.getF R.SEC_WIPE_CNT F.SEC_WIPE_CNT_COUNT = min F.SEC_WIPE_CNT_COUNT.top (s.getF R.SEC_WIPE_CNT F.SEC_WIPE_CNT_COUNT + 1)
  sec : t.sec = { s.tamperWins.sec with event := true }
  part : t.part = s.part
  cells : t.cells = s.cells
  tap : s.mode ≠ mdStabled → s.evtDelay 37 = 0 → (37, s.clock, s.mtime) ∈ t.evr.taps

/-- The registers of the device's own units stand through what keeps them. -/
theorem State.TamperTold.keep {s t u : State} {b : Fin 5} (h : s.TamperTold t b) (k : t.ModKept u) : s.TamperTold u b where
  flag := (k.isSet (.inr (by decide)) _).trans h.flag
  time := (k.regs _ (.inr (by decide))).trans h.time
  wiping := (k.isSet (.inl (by decide)) _).trans h.wiping
  count := (k.getF (.inr (by decide)) _).trans h.count
  sec := k.sec.trans h.sec
  part := k.part.trans h.part
  cells := k.cells.trans h.cells
  tap hm hd := k.taps.subset (h.tap hm hd)

theorem State.tamperShown_told (s : State) (b : Fin 5) : s.TamperTold (s.tamperShown b) b := by
  obtain ⟨hflag, htime, hwiping, hcount⟩ := s.tamperNoted_shows b
  have hk := s.tamperNoted_kept b
  have hm := s.tamperShown_kept b
  have hsec : (s.tamperShown b).sec = { s.tamperWins.sec with event := true } :=
    hm.sec.trans (congrArg (fun c : SecSt => { c with event := true }) hk.sec)
  refine ⟨(hm.isSet (.inr (by decide)) _).trans hflag, (hm.regs _ (.inr (by decide))).trans htime,
    (hm.isSet (.inl (by decide)) _).trans hwiping, (hm.getF (.inr (by decide)) _).trans hcount, hsec, hm.part.trans hk.part,
    hm.cells.trans hk.cells, fun hmode hd => ?_⟩
  have hreg : ∀ a, a ∉ [R.SEC_LC, R.MEM_STAT, R.SEC_TAMPER, R.SEC_TAMPER_TIME, R.SEC_WIPE_CNT] → (s.tamperNoted b).reg a = s.reg a :=
    fun a => s.tamperNoted_reg b
  let u : State := { s.tamperNoted b with sec := { (s.tamperNoted b).sec with event := true } }
  have hfast : (s.tamperNoted b).fastRuns = true := by
    rw [State.fastRuns, State.mode, State.getF, hreg _ (by decide)]
    exact bne_iff_ne.mpr hmode
  have hshown : s.tamperShown b = u.fire 37 := by rw [State.tamperShown, hfast]; rfl
  have hpresent : u.srcPresent 37 = true := by
    cases hp : u.part <;> simp [State.srcPresent, State.absentSource, localOf, hp]
  have hdelay : u.evtDelay 37 = 0 := (State.evtDelay_congr (fun e => hreg _ (PTB_off_tamper e).1) (fun e => hreg _ (PTB_off_tamper e).2)
    hk.ptbAt hk.clock 37).trans hd
  have htaps : (u.fire 37).evr.taps = (s.tamperNoted b).evr.taps ++ [(37, (s.tamperNoted b).clock, (s.tamperNoted b).mtime)] :=
    State.fire_taps hpresent (by decide) hdelay
  rw [hshown, htaps, hk.clock, hk.mtime]
  exact List.mem_append_right _ (List.mem_singleton_self _)

theorem State.tamperShown_ACT (s : State) (b : Fin 5) :
    (s.tamperShown b).getF R.SEC_TAMPER_CFG F.SEC_TAMPER_CFG_ACT = s.getF R.SEC_TAMPER_CFG F.SEC_TAMPER_CFG_ACT :=
  ((s.tamperShown_kept b).getF (.inr (by decide)) _).trans (congrArg F.SEC_TAMPER_CFG_ACT.get (s.tamperNoted_reg b (by decide)))

/-! The new state of the life cycle. -/

theorem State.lcWrite_some {s : State} {g : Nat} (h : s.sec.req = some g) : s.lcWrite =
    ({ s.setReg R.SEC_LC (F.SEC_LC_STATE.word g) with sec := { s.sec with due := if 3 ≤ g then g else 0, req := none } } : State).powerOn
      true := by
  simp [State.lcWrite, h]

/-- Settles O46: each clause by what its command or its detection does. -/
theorem securityAndLifeCycle : Obligations.SecurityAndLifeCycle := by
  unfold Obligations.SecurityAndLifeCycle
  refine ⟨?_, ?_, ?_, ?_, ?_, ?_, ?_, ?_, ?_, ?_, ?_, ?_, ?_, ?_⟩
  · rintro s x key hx hm rfl hlt
    refine ⟨_, rfl, ?_⟩
    have hset : s.write x R.SEC_CMD (secWord 0x5EC0 1 0) = s.setReg R.SEC_MINVER s.sec.version := by
      rw [State.write_SEC_CMD _ hx, hm]
      exact State.secCmd_keyed (op := 1) (k := 0) (if_pos hlt) (by decide)
    rw [hset]
    exact ⟨State.reg_setReg_self .., rfl, fun a ha => State.reg_setReg_ne _ _ _ _ (beq_eq_false_iff_ne.mp ha)⟩
  · rintro s x key hx hm rfl hle
    refine ⟨_, rfl, ?_⟩
    have hbad : s.write x R.SEC_CMD (secWord 0x5EC0 1 0) = s.badAcc := by
      rw [State.write_SEC_CMD _ hx, hm]
      exact State.secCmd_keyed (op := 1) (k := 0) (if_neg (Nat.not_lt.mpr hle)) (by decide)
    rw [hbad]
    exact ⟨s.badAcc_reg (by decide), s.badAcc_counted, rfl⟩
  · intro s x key hx hwrong
    refine ⟨_, rfl, ?_⟩
    rw [State.write_SEC_CMD _ hx]
    cases hm : secMaster x with
    | false =>
      obtain ⟨hcount, hregs, hsec, hcells⟩ := s.refuse_counts x.m
      exact ⟨hregs _ (.inr (by decide)), hcount, hsec, hcells⟩
    | true =>
      have hkey : key ≠ 0x5EC0 := hwrong.resolve_right (by simp [hm])
      have hbad : (if true = true then s.secCmd (secWord key 1 0) else s.refuse x.m) = s.badAcc := s.secCmd_unkeyed 1 0 hkey
      rw [hbad]
      exact ⟨s.badAcc_reg (by decide), s.badAcc_counted, rfl, rfl⟩
  · rintro s x key k hx hm rfl hk hlc hw
    refine ⟨_, rfl, ?_⟩
    have hset : s.write x R.SEC_CMD (secWord 0x5EC0 2 k) = (s.keyStored k).setF R.SEC_KEYSTAT ⟨k.val, 1⟩ 1 := by
      rw [State.write_SEC_CMD _ hx, hm]
      exact State.secCmd_keyed (op := 2) (State.writeKey_writes hk hlc hw) (by decide)
    rw [hset]
    have hlt : k.val - 1 < 3 := by omega
    refine ⟨by simp [State.keyStored, hlt], ?_, ?_, rfl⟩
    · have hbit := (s.keyStored k).natBit_setF_one R.SEC_KEYSTAT F.SEC_KEYSTAT_WRITTEN k.isLt (by decide)
      rwa [show F.SEC_KEYSTAT_WRITTEN.lo + k.val = k.val from Nat.zero_add _] at hbit
    · exact State.getF_setF_fld _ _ _ _ _ (by simp only; omega) (.inl (by simp only [F.SEC_KEYSTAT_REVOKED]; omega))
  · rintro s x key k hx hm rfl hno
    refine ⟨_, rfl, ?_⟩
    have hbad : s.write x R.SEC_CMD (secWord 0x5EC0 2 k) = s.badAcc := by
      rw [State.write_SEC_CMD _ hx, hm]
      exact State.secCmd_keyed (op := 2) (State.writeKey_refused hno) (by decide)
    rw [hbad]
    exact ⟨rfl, s.badAcc_reg (by decide), s.badAcc_counted⟩
  · rintro s x key k hx hm rfl hk hlc
    refine ⟨_, rfl, ?_⟩
    have hset : s.write x R.SEC_CMD (secWord 0x5EC0 3 k) = s.setF R.SEC_KEYSTAT ⟨4 + k.val, 1⟩ 1 := by
      rw [State.write_SEC_CMD _ hx, hm]
      exact State.secCmd_keyed (op := 3) (State.revoke_sets hk hlc) (by decide)
    rw [hset]
    exact ⟨State.natBit_setF_one s R.SEC_KEYSTAT F.SEC_KEYSTAT_REVOKED k.isLt (by decide),
      State.getF_setF_fld _ _ _ _ _ (by simp only; omega) (.inr (by simp only [F.SEC_KEYSTAT_WRITTEN]; omega)), rfl⟩
  · intro s x v hx hm hkey hmode hnone hflags hhit hallowed hreq
    refine ⟨_, rfl, ?_⟩
    have htaken : (s.sec.hitAt != some s.clock && s.mode == mdService && s.noneArmed &&
        (s.getF R.SEC_TAMPER F.SEC_TAMPER_FLAGS == 0 || F.SEC_LC_REQ_TARGET.get v == 4) && s.lcAllowed (F.SEC_LC_REQ_TARGET.get v) &&
        s.sec.req.isNone) = true := by simp [hmode, hnone, hflags, hhit, hallowed, hreq]
    rw [State.write_SEC_LC_REQ v hx hm, State.lcRequest_keyed hkey, if_pos htaken]
    refine ⟨rfl, rfl, ?_, State.wipeBegin_wiping _, ?_, rfl⟩
    · unfold State.getF
      rw [State.wipeBegin_reg _ (by decide)]
      exact State.getF_setF _ _ _ _ (by decide)
    · unfold State.lc State.getF
      rw [State.wipeBegin_reg _ (by decide)]
      exact State.getF_setF_fld _ _ _ _ _ (by decide) (by decide)
  · intro s x v hx hm hkey hno
    refine ⟨_, rfl, ?_⟩
    have hrefused : ¬ (s.sec.hitAt != some s.clock && s.mode == mdService && s.noneArmed &&
        (s.getF R.SEC_TAMPER F.SEC_TAMPER_FLAGS == 0 || F.SEC_LC_REQ_TARGET.get v == 4) && s.lcAllowed (F.SEC_LC_REQ_TARGET.get v) &&
        s.sec.req.isNone) = true := by
      rcases hno with h | h | h | h | h | ⟨h, h'⟩
      · simp [h]
      · simp [h]
      · simp [h]
      · simp [h]
      · simp [h]
      · simp [h, h']
    rw [State.write_SEC_LC_REQ v hx hm, State.lcRequest_keyed hkey, if_neg hrefused]
    exact ⟨State.getF_setF _ _ _ _ (by decide), State.getF_setF_fld _ _ _ _ _ (by decide) (by decide), rfl, rfl⟩
  · intro s g hreq hg
    refine ⟨_, rfl, ?_⟩
    rw [State.lcWrite_some hreq]
    refine ⟨(State.powerOn_lc _ _).trans ?_, State.powerOn_mode _ _, State.powerOn_due _ _,
      State.powerOn_keys _ _, (State.powerOn_KEYSTAT _ _).trans (State.reg_setReg_ne _ _ _ _ (by decide)),
      (State.powerOn_MINVER _ _).trans (State.reg_setReg_ne _ _ _ _ (by decide))⟩
    refine (congrArg F.SEC_LC_STATE.get (State.reg_setReg_self s R.SEC_LC (F.SEC_LC_STATE.word g))).trans ?_
    rw [F.SEC_LC_STATE.get_word _ (by decide)]
    exact Nat.mod_eq_of_lt (Nat.lt_of_le_of_lt hg (by decide))
  · intro s b hen hact
    refine ⟨_, rfl, ?_⟩
    have htold : s.TamperTold (s.tamper b) b := by
      rw [State.tamper_eq hen, s.tamperShown_ACT b, hact]
      show s.TamperTold (if b.val == 3 then _ else _) b
      split
      · exact (s.tamperShown_told b).keep (State.ModKept.refl _).disarmAll
      · exact s.tamperShown_told b
    obtain ⟨hhit, hreq, -⟩ := s.tamperWins_sec
    exact ⟨htold.flag, htold.time, htold.wiping, htold.count, by rw [htold.sec], by rw [htold.sec]; exact hhit,
      fun h h' => by rw [htold.sec]; exact hreq h h', htold.tap, htold.cells⟩
  · intro s b hen hact
    refine ⟨_, rfl, ?_⟩
    have hall : s.tamper b = (s.tamperShown b).disarmAll := by
      rw [State.tamper_eq hen, s.tamperShown_ACT b, hact]
      rfl
    have htold := s.tamperShown_told b
    rw [hall]
    exact ⟨(htold.keep (State.ModKept.refl _).disarmAll).flag, fun n hn => State.armed_disarmAll
      (by rw [State.fitted, htold.part]; exact hn)⟩
  · intro s b hen hact
    refine ⟨_, rfl, ?_⟩
    have hover : s.tamper b = (s.tamperShown b).disarmAll.powerOn true := by
      rw [State.tamper_eq hen, s.tamperShown_ACT b, hact]
      rfl
    have htold := (s.tamperShown_told b).keep (State.ModKept.refl _).disarmAll
    rw [hover]
    refine ⟨?_, State.powerOn_mode _ _, ?_, fun n => State.powerOn_armed _ _ n⟩
    · unfold State.isSet State.getF
      rw [State.powerOn_TAMPER]
      exact htold.flag
    · obtain ⟨-, -, hkeys⟩ := s.tamperWins_sec
      rw [State.powerOn_keys, htold.sec]
      exact hkeys
  · intro s hreq
    exact ⟨_, rfl, by simp [State.lcWrite, hreq]⟩
  · intro s b hen
    exact ⟨_, rfl, by simp [State.tamper, hen]⟩

end Machine
end Sys2Proof
end

section
/-! PROOFS. Supply, fold-back, clocks, alarm and temperature (chapter 25). -/

namespace Sys2Proof
namespace Machine

/-! Events of the module's own sources. -/

/-- The sources of the supply and of the alarm stand in every part. -/
theorem State.srcPresent_module (s : State) {src : Nat} (hlo : 32 ≤ src) (hhi : src < 51) : s.srcPresent src = true := by
  have hlocal : localOf src = none := if_neg (by omega)
  simp only [State.srcPresent, hlocal, State.absentSource, Bool.and_eq_true, decide_eq_true_eq, Bool.not_eq_true', Bool.or_eq_false_iff,
    Bool.and_eq_false_iff, decide_eq_false_iff_not, beq_eq_false_iff_ne]
  omega

theorem pwmSource_module {src : Nat} (h : src < 64) : pwmSource src = none := by
  have hlocal : localOf src = none := if_neg (by omega)
  simp only [pwmSource, hlocal]

/-- A change of the supply's registers alone leaves the delays of firings, the mode and the twin configuration. -/
theorem State.evtDelay_regs {s t : State} (hrest : s.RegsOnly t) (hregs : ∀ a, ¬ ModReg a → t.reg a = s.reg a) (src : Nat) :
    t.evtDelay src = s.evtDelay src := by
  have hctrl : ∀ e : Fin 13, ¬ ModReg (R.PTB_CTRL e) := fun e => by
    simp only [ModReg, R.PTB_CTRL, ptbBase, sliceBase]
    split <;> omega
  have hevt : ∀ e : Fin 13, ¬ ModReg (R.PTB_EVT e) := fun e => by
    simp only [ModReg, R.PTB_EVT, ptbBase, sliceBase]
    split <;> omega
  unfold State.RegsOnly at hrest
  exact State.evtDelay_congr (fun e => hregs _ (hctrl e)) (fun e => hregs _ (hevt e)) (by rw [hrest]) (by rw [hrest]) src

/-! The input (R427 to R430). -/

/-- PWR_STAT and its company as a loss of the input writes them. -/
def State.lossShown (s : State) (vin : BitVec 16) : State :=
  ((((((s.setVin vin).setF R.PWR_STAT F.PWR_STAT_INPUT_OK 0).setF R.PWR_STAT F.PWR_STAT_HOLDUP_READY 0).setF R.PWR_STAT F.PWR_STAT_OV
    0).setF R.PWR_STAT F.PWR_STAT_ON_HOLDUP 1).setF R.PWR_STAT F.PWR_STAT_FAIL_F 1).count R.PWR_FAIL_CNT F.PWR_FAIL_CNT_COUNT

/-- The loss, noted for the twin. -/
def State.lossNoted (s : State) (vin : BitVec 16) : State :=
  { s.lossShown vin with sec := { (s.lossShown vin).sec with event := true } }

theorem State.lossShown_stat (s : State) (vin : BitVec 16) (f : Fld) : (s.lossShown vin).isSet R.PWR_STAT f =
    ((((((s.setVin vin).setF R.PWR_STAT F.PWR_STAT_INPUT_OK 0).setF R.PWR_STAT F.PWR_STAT_HOLDUP_READY 0).setF R.PWR_STAT F.PWR_STAT_OV
      0).setF R.PWR_STAT F.PWR_STAT_ON_HOLDUP 1).setF R.PWR_STAT F.PWR_STAT_FAIL_F 1).isSet R.PWR_STAT f :=
  congrArg (fun w => f.get w == 1) (State.reg_count_ne _ _ _ _ (by decide))

theorem State.lossShown_reg (s : State) (vin : BitVec 16) {a : Nat} (h : a ∉ [R.PWR_VIN, R.PWR_STAT, R.PWR_FAIL_CNT]) :
    (s.lossShown vin).reg a = s.reg a := by
  simp only [List.mem_cons, List.not_mem_nil, or_false, not_or] at h
  obtain ⟨hvin, hstat, hcnt⟩ := h
  rw [State.lossShown, State.reg_count_ne _ _ _ _ hcnt, State.reg_setF_ne _ _ _ _ _ hstat, State.reg_setF_ne _ _ _ _ _ hstat,
    State.reg_setF_ne _ _ _ _ _ hstat, State.reg_setF_ne _ _ _ _ _ hstat, State.reg_setF_ne _ _ _ _ _ hstat, State.setVin,
    State.reg_setF_ne _ _ _ _ _ hvin]

theorem State.lossShown_rest (s : State) (vin : BitVec 16) : s.RegsOnly (s.lossShown vin) :=
  ((((((((State.RegsOnly.refl s).setF _ _ _).setF _ _ _).setF _ _ _).setF _ _ _).setF _ _ _).setF _ _ _).setF _ _ _)

/-- What the loss shows. -/
theorem State.lossShown_shows (s : State) (vin : BitVec 16) :
    (s.lossShown vin).getF R.PWR_VIN F.PWR_VIN_VIN = vin.toNat ∧ (s.lossShown vin).isSet R.PWR_STAT F.PWR_STAT_INPUT_OK = false ∧
      (s.lossShown vin).isSet R.PWR_STAT F.PWR_STAT_HOLDUP_READY = false ∧
      (s.lossShown vin).isSet R.PWR_STAT F.PWR_STAT_ON_HOLDUP = true ∧ (s.lossShown vin).isSet R.PWR_STAT F.PWR_STAT_FAIL_F = true ∧
      (s.lossShown vin).reg R.PWR_FAIL_CNT = BitVec.ofNat 32 (min 4294967295 ((s.reg R.PWR_FAIL_CNT).toNat + 1)) := by
  simp only [State.lossShown_stat]
  refine ⟨?_, ?_, ?_, ?_, ?_, ?_⟩
  · refine (State.getF_setF_reg _ _ _ _ _ _ (by decide)).trans ?_
    iterate 5 rw [State.getF_setF_reg _ _ _ _ _ _ (by decide)]
    exact (State.getF_setF _ _ _ _ (by decide)).trans (Nat.mod_eq_of_lt vin.isLt)
  · exact State.isSet_setF_keeps (State.isSet_setF_keeps (State.isSet_setF_keeps (State.isSet_setF_keeps (State.isSet_setF_zero _ _ _))))
  · exact State.isSet_setF_keeps (State.isSet_setF_keeps (State.isSet_setF_keeps (State.isSet_setF_zero _ _ _)))
  · exact State.isSet_setF_keeps (State.isSet_setF_one _ _ _)
  · exact State.isSet_setF_one _ _ _
  · refine (State.reg_countWhole _ _).trans ?_
    iterate 5 rw [State.reg_setF_ne _ _ _ _ _ (by decide)]
    rw [State.setVin, State.reg_setF_ne _ _ _ _ _ (by decide)]

theorem State.inputLoss_eq {s : State} {vin : BitVec 16} (hok : s.isSet R.PWR_STAT F.PWR_STAT_INPUT_OK = true)
    (hho : s.isSet R.TWN_CFG F.TWN_CFG_PF_HO = false) (hv : vin.toNat < 2300) :
    s.inputLoss vin = (s.lossNoted vin).fireIf s.fastRuns 32 := by
  have hfast : (s.lossShown vin).fastRuns = s.fastRuns := by
    unfold State.fastRuns State.mode State.getF
    rw [s.lossShown_reg vin (by decide)]
  have hcfg : ((s.lossNoted vin).fireIf s.fastRuns 32).isSet R.TWN_CFG F.TWN_CFG_PF_HO = false := by
    have hnoted : (s.lossNoted vin).isSet R.TWN_CFG F.TWN_CFG_PF_HO = false := by
      have hreg : (s.lossNoted vin).reg R.TWN_CFG = s.reg R.TWN_CFG := s.lossShown_reg vin (by decide)
      unfold State.isSet State.getF
      rw [hreg]
      exact hho
    unfold State.fireIf
    split
    · unfold State.isSet State.getF
      rw [State.fire_reg _ _ _ (by decide)]
      exact hnoted
    · exact hnoted
  have hloss : s.inputLoss vin = if ((s.lossNoted vin).fireIf (s.lossShown vin).fastRuns 32).isSet R.TWN_CFG F.TWN_CFG_PF_HO then
      ((s.lossNoted vin).fireIf (s.lossShown vin).fastRuns 32).handOver (BitVec.ofNat 12 4095) 4
      else (s.lossNoted vin).fireIf (s.lossShown vin).fastRuns 32 := by
    unfold State.inputLoss
    rw [if_neg (by simp [hok, hv])]
    rfl
  rw [hloss, hfast, if_neg (by rw [hcfg]; exact Bool.false_ne_true)]

/-- The taps after an event of the module that no perturbation delays. -/
theorem State.fireIf_taps {s : State} {src : Nat} {b : Bool} (hb : b = true) (hlo : 32 ≤ src) (hhi : src < 51) (hd : s.evtDelay src = 0) :
    (s.fireIf b src).evr.taps = s.evr.taps ++ [(src, s.clock, s.mtime)] := by
  rw [hb]
  exact State.fire_taps (s.srcPresent_module hlo hhi) (pwmSource_module (by omega)) hd

theorem State.fireIf_kept (s : State) (b : Bool) (src : Nat) : s.ModKept (s.fireIf b src) := ((State.ModKept.refl s).fire src).ite (.refl s)

theorem State.fastRuns_of {s : State} (h : s.mode ≠ mdStabled) : s.fastRuns = true := bne_iff_ne.mpr h

/-! OV, and the restored input. -/

theorem State.showOv_shows (s : State) (vin : BitVec 16) :
    (s.showOv vin).isSet R.PWR_STAT F.PWR_STAT_OV = decide (15400 < vin.toNat) ∧
      (15400 < vin.toNat → (s.showOv vin).isSet R.PWR_STAT F.PWR_STAT_OV_F = true) ∧ s.RegsOnly (s.showOv vin) ∧
      (∀ a, a ≠ R.PWR_STAT → (s.showOv vin).reg a = s.reg a) ∧
      (∀ f : Fld, (f = F.PWR_STAT_INPUT_OK ∨ f = F.PWR_STAT_ON_HOLDUP) → (s.showOv vin).isSet R.PWR_STAT f = s.isSet R.PWR_STAT f) := by
  have hov : (s.setB R.PWR_STAT F.PWR_STAT_OV (decide (15400 < vin.toNat))).isSet R.PWR_STAT F.PWR_STAT_OV = decide (15400 < vin.toNat) :=
    State.isSet_setB _ _ _ _ (by decide) (by decide)
  have hkeep : ∀ f : Fld, (f = F.PWR_STAT_INPUT_OK ∨ f = F.PWR_STAT_ON_HOLDUP) →
      (s.setB R.PWR_STAT F.PWR_STAT_OV (decide (15400 < vin.toNat))).isSet R.PWR_STAT f = s.isSet R.PWR_STAT f := by
    rintro f (rfl | rfl)
    · exact State.isSet_setF_keeps rfl
    · exact State.isSet_setF_keeps rfl
  by_cases hhigh : 15400 < vin.toNat
  · have hshow : s.showOv vin = (s.setB R.PWR_STAT F.PWR_STAT_OV (decide (15400 < vin.toNat))).setF R.PWR_STAT F.PWR_STAT_OV_F 1 :=
      if_pos (decide_eq_true hhigh)
    rw [hshow]
    refine ⟨State.isSet_setF_keeps hov, fun _ => State.isSet_setF_one _ _ _, ((State.RegsOnly.refl s).setF _ _ _).setF _ _ _, fun a ha => ?_, ?_⟩
    · exact (State.reg_setF_ne _ _ _ _ _ ha).trans (State.reg_setF_ne _ _ _ _ _ ha)
    · rintro f (rfl | rfl)
      · exact State.isSet_setF_keeps (hkeep _ (.inl rfl))
      · exact State.isSet_setF_keeps (hkeep _ (.inr rfl))
  · have hshow : s.showOv vin = s.setB R.PWR_STAT F.PWR_STAT_OV (decide (15400 < vin.toNat)) :=
      if_neg (by simpa using hhigh)
    rw [hshow]
    exact ⟨hov, fun h => absurd h hhigh, (State.RegsOnly.refl s).setF _ _ _, fun a ha => State.reg_setF_ne _ _ _ _ _ ha, hkeep⟩

/-- The supply's registers as the restored input shows them. -/
def State.inputBack (s : State) (vin : BitVec 16) : State :=
  (((s.setVin vin).setF R.PWR_STAT F.PWR_STAT_INPUT_OK 1).showOv vin).setF R.PWR_STAT F.PWR_STAT_ON_HOLDUP 0

theorem State.inputBack_reg (s : State) (vin : BitVec 16) {a : Nat} (h : a ∉ [R.PWR_VIN, R.PWR_STAT]) :
    (s.inputBack vin).reg a = s.reg a := by
  simp only [List.mem_cons, List.not_mem_nil, or_false, not_or] at h
  obtain ⟨hvin, hstat⟩ := h
  obtain ⟨-, -, -, hregs, -⟩ := ((s.setVin vin).setF R.PWR_STAT F.PWR_STAT_INPUT_OK 1).showOv_shows vin
  rw [State.inputBack, State.reg_setF_ne _ _ _ _ _ hstat, hregs a hstat, State.reg_setF_ne _ _ _ _ _ hstat, State.setVin,
    State.reg_setF_ne _ _ _ _ _ hvin]

theorem State.inputBack_rest (s : State) (vin : BitVec 16) : s.RegsOnly (s.inputBack vin) := by
  obtain ⟨-, -, hrest, -⟩ := ((s.setVin vin).setF R.PWR_STAT F.PWR_STAT_INPUT_OK 1).showOv_shows vin
  exact ((((State.RegsOnly.refl s).setF _ _ _).setF _ _ _).trans hrest).setF _ _ _

theorem State.inputBack_shows (s : State) (vin : BitVec 16) :
    (s.inputBack vin).isSet R.PWR_STAT F.PWR_STAT_INPUT_OK = true ∧ (s.inputBack vin).isSet R.PWR_STAT F.PWR_STAT_ON_HOLDUP = false ∧
      (s.inputBack vin).getF R.PWR_VIN F.PWR_VIN_VIN = vin.toNat ∧
      (s.inputBack vin).isSet R.PWR_STAT F.PWR_STAT_OV = decide (15400 < vin.toNat) := by
  obtain ⟨hov, -, -, hregs, hkeep⟩ := ((s.setVin vin).setF R.PWR_STAT F.PWR_STAT_INPUT_OK 1).showOv_shows vin
  refine ⟨State.isSet_setF_keeps ((hkeep _ (.inl rfl)).trans (State.isSet_setF_one _ _ _)), State.isSet_setF_zero _ _ _, ?_,
    State.isSet_setF_keeps hov⟩
  refine (State.getF_setF_reg _ _ _ _ _ _ (by decide)).trans ((congrArg F.PWR_VIN_VIN.get (hregs _ (by decide))).trans ?_)
  exact (State.getF_setF_reg _ _ _ _ _ _ (by decide)).trans ((State.getF_setF _ _ _ _ (by decide)).trans (Nat.mod_eq_of_lt vin.isLt))

theorem State.inputRestored_eq {s : State} {vin : BitVec 16} (hok : s.isSet R.PWR_STAT F.PWR_STAT_INPUT_OK = false)
    (hon : s.isSet R.PWR_STAT F.PWR_STAT_ON_HOLDUP = true) (hlow : s.isSet R.PWR_STAT F.PWR_STAT_HOLDUP_LOW = false)
    (hv : 2500 < vin.toNat) : s.inputRestored vin = (s.inputBack vin).fireIf s.fastRuns 34 := by
  obtain ⟨-, -, -, hregs, -⟩ := ((s.setVin vin).setF R.PWR_STAT F.PWR_STAT_INPUT_OK 1).showOv_shows vin
  have hfast : (((s.setVin vin).setF R.PWR_STAT F.PWR_STAT_INPUT_OK 1).showOv vin).fastRuns = s.fastRuns := by
    unfold State.fastRuns State.mode State.getF
    rw [hregs _ (by decide), State.reg_setF_ne _ _ _ _ _ (by decide), State.setVin, State.reg_setF_ne _ _ _ _ _ (by decide)]
  rw [← hfast]
  simp only [State.inputRestored, hok, hon, hlow, decide_eq_false (Nat.not_le.mpr hv)]
  rfl

end Machine
end Sys2Proof
end

section
/-! PROOFS. Fold-back of pins, clocks, the alarm, and the settlement of chapter 25's supply. -/

namespace Sys2Proof
namespace Machine

/-- The registers that the input's rules write. -/
theorem supply_regs : ∀ a ∈ [R.PWR_VIN, R.PWR_STAT, R.PWR_FAIL_CNT], 0x010C0000 ≤ a ∧ a < 0x01110000 := by decide

/-! The store (R428, R429). -/

theorem State.holdupLow_eq {s : State} (hon : s.isSet R.PWR_STAT F.PWR_STAT_ON_HOLDUP = true)
    (hlow : s.isSet R.PWR_STAT F.PWR_STAT_HOLDUP_LOW = false) : s.holdupLow =
      ((((s.setF R.PWR_STAT F.PWR_STAT_HOLDUP_LOW 1).setF R.PWR_STAT F.PWR_STAT_LOW_F 1).fireIf s.fastRuns 33).disarmAll) :=
  if_neg (by simp [hon, hlow])

theorem State.armPending_none {s : State} {n : Fin 12} (h : s.armPend n = false) : s.armPending n = s := if_pos (by simp [h])

/-- With no arm request pending, the store's readiness shows in PWR_STAT alone. -/
theorem State.holdupReady_eq {s : State} (hok : s.isSet R.PWR_STAT F.PWR_STAT_INPUT_OK = true)
    (hlow : s.isSet R.PWR_STAT F.PWR_STAT_HOLDUP_LOW = false) (hpend : ∀ n : Slice, s.armPend n = false) :
    s.holdupReady = s.setF R.PWR_STAT F.PWR_STAT_HOLDUP_READY 1 := by
  have hready : s.holdupReady = (List.finRange 12).foldl (fun (t : State) n => t.armPending n)
      (s.setF R.PWR_STAT F.PWR_STAT_HOLDUP_READY 1) := if_pos (by simp [hok, hlow])
  have hnone : ∀ n : Fin 12, (s.setF R.PWR_STAT F.PWR_STAT_HOLDUP_READY 1).armPend n = false := fun n =>
    (congrArg (natBit · n) (State.getF_setF_reg s _ _ _ _ _ (by decide))).trans (hpend n)
  rw [hready]
  exact foldl_keeps (fun t => t = s.setF R.PWR_STAT F.PWR_STAT_HOLDUP_READY 1) (fun (t : State) n => t.armPending n) (List.finRange 12) _
    rfl fun t n ht => by
      subst ht
      exact State.armPending_none (hnone n)

/-- A flash array that a reset cuts off keeps its words and passwords. -/
theorem State.flashCut_keeps (s : State) : s.flashCut.flc.words = s.flc.words ∧ s.flashCut.flc.pw = s.flc.pw := by
  unfold State.flashCut
  split
  · split <;> exact ⟨rfl, rfl⟩
  · exact ⟨rfl, rfl⟩

theorem State.RegsOnly.part {s t : State} (h : s.RegsOnly t) : t.part = s.part := by
  unfold State.RegsOnly at h
  rw [h]

theorem State.RegsOnly.core {s t : State} (h : s.RegsOnly t) : t.core = s.core := by
  unfold State.RegsOnly at h
  rw [h]

/-! Fold-back (R433). -/

/-- The record of a pin in fold-back. -/
def State.foldNoted (s : State) (j pin : Nat) : State :=
  ((((s.count R.PWR_EL_STAT F.PWR_EL_STAT_COUNT).setF R.PWR_EL_STAT F.PWR_EL_STAT_CONN (connCode j)).setF R.PWR_EL_STAT
    F.PWR_EL_STAT_PIN pin).setF R.PWR_STAT F.PWR_STAT_EL_F 1)

theorem State.foldback_eq {s : State} {j pin : Nat} (hd : s.elDriven j pin = true) (hf : s.pwr.fold.contains (j, pin) = false) :
    s.foldback j pin = ({ s.foldNoted j pin with pwr := { s.pwr with fold := s.pwr.fold ++ [(j, pin)] } } : State).fireIf s.fastRuns 35 := by
  unfold State.foldback
  rw [if_neg (by rw [hf, hd]; decide)]
  rfl

theorem connCode_lt (j : Nat) : connCode j < 4 := ite_lt_of_lt (by decide) (ite_lt_of_lt (by decide) (by decide))

theorem State.foldNoted_shows (s : State) (j : Nat) {pin : Nat} (hpin : pin < 512) :
    (s.foldNoted j pin).getF R.PWR_EL_STAT F.PWR_EL_STAT_COUNT = min 65535 (s.getF R.PWR_EL_STAT F.PWR_EL_STAT_COUNT + 1) ∧
      (s.foldNoted j pin).getF R.PWR_EL_STAT F.PWR_EL_STAT_CONN = connCode j ∧
      (s.foldNoted j pin).getF R.PWR_EL_STAT F.PWR_EL_STAT_PIN = pin ∧
      (s.foldNoted j pin).isSet R.PWR_STAT F.PWR_STAT_EL_F = true := by
  refine ⟨?_, ?_, ?_, State.isSet_setF_one _ _ _⟩
  · refine (State.getF_setF_reg _ _ _ _ _ _ (by decide)).trans ((State.getF_setF_fld _ _ _ _ _ (by decide) (by decide)).trans ?_)
    exact (State.getF_setF_fld _ _ _ _ _ (by decide) (by decide)).trans (State.getF_count _ _ _ (by decide))
  · refine (State.getF_setF_reg _ _ _ _ _ _ (by decide)).trans ((State.getF_setF_fld _ _ _ _ _ (by decide) (by decide)).trans ?_)
    exact (State.getF_setF _ _ _ _ (by decide)).trans (Nat.mod_eq_of_lt (connCode_lt j))
  · refine (State.getF_setF_reg _ _ _ _ _ _ (by decide)).trans ?_
    exact (State.getF_setF _ _ _ _ (by decide)).trans (Nat.mod_eq_of_lt hpin)

/-- A pin in fold-back is at high impedance. -/
theorem State.padLevel_folded {s : State} {n : Fin 12} {k : Fin 8} {b : Bool} (h : s.pwr.fold.contains (pwmPin n k b) = true) :
    s.padLevel n k b = none := if_pos (by rw [h, Bool.or_true])

theorem State.foldbackEnd_not (s : State) (j pin : Nat) : (s.foldbackEnd j pin).pwr.fold.contains (j, pin) = false := by
  simp [State.foldbackEnd]

/-! Clocks (R435, R436). -/

/-- The mask of the clocks that a predicate names. -/
def clockMask (p : Fin 7 → Bool) : Nat := (List.finRange 7).foldl (fun acc (c : Fin 7) => if p c then acc + 2 ^ c.val else acc) 0

theorem clockMask_bit : ∀ p : Fin 7 → Bool, p 6 = false → natBit (clockMask p % 2 ^ 7) 6 = false := by decide +kernel

theorem State.dropClocks_eq (s : State) :
    s.dropClocks = s.setF R.PWR_CLK F.PWR_CLK_CLOCKS (clockMask fun c => s.clockOn c && s.clockAsked c) := rfl

/-- A clock that nothing asks for stops. -/
theorem State.dropClocks_off {s : State} (h : s.clockAsked 6 = false) : s.dropClocks.clockOn 6 = false := by
  have hbits : s.dropClocks.getF R.PWR_CLK F.PWR_CLK_CLOCKS = clockMask (fun c => s.clockOn c && s.clockAsked c) % 2 ^ 7 :=
    State.getF_setF _ _ _ _ (by decide)
  rw [State.clockOn, hbits]
  exact clockMask_bit _ (by rw [h, Bool.and_false])

/-! The alarm (R447). -/

/-- The state with the alarm line's filter up. -/
def State.alarmUp (s : State) : State := { s with evr := { s.evr with filt := s.evr.filt ++ [36] } }

theorem State.lineStands_alarm (s : State) (b : Bool) : (s.lineStands 36 != some (!b)) = (s.alarmLevel == b) := by
  have h : s.lineStands 36 = some s.alarmLevel := rfl
  rw [h]
  cases s.alarmLevel <;> cases b <;> rfl

theorem State.rtcAlarm_rises {s : State} (hm : s.mode ≠ mdStabled) (hl : s.alarmLevel = true) (hf : s.evr.filt.contains 36 = false)
    (hs : s.getF (srcAddr 36) F.EVR_SRC_SENSE = 0) : s.rtcAlarm = s.alarmUp.fire 36 := by
  have hline : s.rtcAlarm = s.lineLevel 36 true := by
    rw [State.rtcAlarm, State.lineChange, s.lineStands_alarm, State.fastRuns_of hm, hl]
    rfl
  have hgo : (isLine 36 && s.srcPresent 36 && s.evr.filt.contains 36 != true) = true := by
    rw [s.srcPresent_module (by decide) (by decide), hf]
    decide
  have hsense : s.alarmUp.getF (srcAddr 36) F.EVR_SRC_SENSE = 0 := hs
  rw [hline, State.lineLevel, if_pos hgo]
  show (match s.alarmUp.getF (srcAddr 36) F.EVR_SRC_SENSE with
    | 0 => s.alarmUp.fireIf true 36
    | 1 => s.alarmUp.fireIf (!true) 36
    | 2 => s.alarmUp.fire 36
    | _ => _) = _
  rw [hsense]
  rfl

theorem State.rtcAlarm_same {s : State} (h : s.alarmLevel = s.evr.filt.contains 36 ∨ s.mode = mdStabled) : s.rtcAlarm = s := by
  rcases h with h | h
  · have hsame : s.lineLevel 36 s.alarmLevel = s := if_neg (by rw [h]; simp)
    rw [State.rtcAlarm, State.lineChange, hsame, ite_self]
  · have hslow : s.fastRuns = false := by rw [State.fastRuns, h]; rfl
    rw [State.rtcAlarm, State.lineChange, hslow]
    rfl

/-! Temperatures (R493). -/

/-- BASE, DIE and HOT, before the flag. -/
def State.tempShown (s : State) (base die : BitVec 8) : State :=
  ((s.setF R.PWR_TEMP F.PWR_TEMP_BASE base.toNat).setF R.PWR_TEMP F.PWR_TEMP_DIE die.toNat).setB R.PWR_TEMP F.PWR_TEMP_HOT
    (decide (90 < base.toInt))

theorem State.temperature_eq (s : State) (base die : BitVec 8) : s.temperature base die =
    if decide (90 < base.toInt) then (s.tempShown base die).setF R.PWR_TEMP F.PWR_TEMP_HOT_F 1 else s.tempShown base die := rfl

theorem State.tempShown_shows (s : State) (base die : BitVec 8) :
    (s.tempShown base die).getF R.PWR_TEMP F.PWR_TEMP_BASE = base.toNat ∧ (s.tempShown base die).getF R.PWR_TEMP F.PWR_TEMP_DIE = die.toNat ∧
      (s.tempShown base die).isSet R.PWR_TEMP F.PWR_TEMP_HOT = decide (90 < base.toInt) ∧ s.RegsOnly (s.tempShown base die) ∧
      s.RegsKept (s.tempShown base die) (· == R.PWR_TEMP) := by
  refine ⟨?_, ?_, State.isSet_setB _ _ _ _ (by decide) (by decide),
    (((State.RegsOnly.refl s).setF _ _ _).setF _ _ _).setF _ _ _, fun a ha => ?_⟩
  · refine (State.getF_setF_fld _ _ _ _ _ (by decide) (by decide)).trans ((State.getF_setF_fld _ _ _ _ _ (by decide) (by decide)).trans ?_)
    exact (State.getF_setF _ _ _ _ (by decide)).trans (Nat.mod_eq_of_lt base.isLt)
  · refine (State.getF_setF_fld _ _ _ _ _ (by decide) (by decide)).trans ?_
    exact (State.getF_setF _ _ _ _ (by decide)).trans (Nat.mod_eq_of_lt die.isLt)
  · have hne := beq_eq_false_iff_ne.mp ha
    rw [State.tempShown, State.setB, State.reg_setF_ne _ _ _ _ _ hne, State.reg_setF_ne _ _ _ _ _ hne, State.reg_setF_ne _ _ _ _ _ hne]

theorem State.temperature_shows (s : State) (base die : BitVec 8) :
    (s.temperature base die).getF R.PWR_TEMP F.PWR_TEMP_BASE = base.toNat ∧
      (s.temperature base die).getF R.PWR_TEMP F.PWR_TEMP_DIE = die.toNat ∧
      (s.temperature base die).isSet R.PWR_TEMP F.PWR_TEMP_HOT = decide (90 < base.toInt) ∧
      (90 < base.toInt → (s.temperature base die).isSet R.PWR_TEMP F.PWR_TEMP_HOT_F = true) ∧
      s.RegsOnly (s.temperature base die) ∧ s.RegsKept (s.temperature base die) (· == R.PWR_TEMP) := by
  obtain ⟨hbase, hdie, hhot, hrest, hregs⟩ := s.tempShown_shows base die
  rw [State.temperature_eq]
  by_cases h : 90 < base.toInt
  · rw [if_pos (decide_eq_true h)]
    exact ⟨(State.getF_setF_fld _ _ _ _ _ (by decide) (by decide)).trans hbase,
      (State.getF_setF_fld _ _ _ _ _ (by decide) (by decide)).trans hdie, State.isSet_setF_keeps hhot, fun _ => State.isSet_setF_one _ _ _,
      hrest.setF _ _ _, fun a ha => (State.reg_setF_ne _ _ _ _ _ (beq_eq_false_iff_ne.mp ha)).trans (hregs a ha)⟩
  · rw [if_neg (by rw [decide_eq_false h]; exact Bool.false_ne_true)]
    exact ⟨hbase, hdie, hhot, fun h' => absurd h' h, hrest, hregs⟩

/-- Settles O44: each clause by what its event writes, fires and disarms. -/
theorem supplyAndClocks : Obligations.SupplyAndClocks := by
  unfold Obligations.SupplyAndClocks
  refine ⟨?_, ?_, ?_, ?_, ?_, ?_, ?_, ?_, ?_, ?_, ?_, ?_, ?_, ?_, ?_, ?_, ?_, ?_, ?_, ?_, ?_, ?_⟩
  · intro s vin hok hho hv
    refine ⟨_, rfl, ?_⟩
    obtain ⟨hvin, hnotok, hready, hon, hfail, hcnt⟩ := s.lossShown_shows vin
    have hrest := s.lossShown_rest vin
    have hm := (s.lossNoted vin).fireIf_kept s.fastRuns 32
    have hstat : ∀ f, ((s.lossNoted vin).fireIf s.fastRuns 32).isSet R.PWR_STAT f = (s.lossShown vin).isSet R.PWR_STAT f := fun f =>
      hm.isSet (.inr (by decide)) f
    rw [State.inputLoss_eq hok hho hv]
    refine ⟨(hm.getF (.inr (by decide)) _).trans hvin, (hstat _).trans hnotok, (hstat _).trans hready, (hstat _).trans hon,
      (hstat _).trans hfail, (hm.regs _ (.inr (by decide))).trans hcnt, congrArg SecSt.event hm.sec, fun hmode hd => ?_,
      hm.cells.trans hrest.cells⟩
    have hdelay : (s.lossNoted vin).evtDelay 32 = 0 :=
      (State.evtDelay_regs hrest (fun a ha => s.lossShown_reg vin (fun hin => ha (.inr (supply_regs a hin)))) 32).trans hd
    rw [State.fireIf_taps (State.fastRuns_of hmode) (by decide) (by decide) hdelay]
    unfold State.RegsOnly at hrest
    rw [State.lossNoted, hrest]
  · intro s vin h
    refine ⟨_, rfl, if_pos ?_⟩
    rcases h with h | h
    · simp [h]
    · simp [h]
  · intro s hon hlow
    refine ⟨_, rfl, ?_⟩
    have hm := (((s.setF R.PWR_STAT F.PWR_STAT_HOLDUP_LOW 1).setF R.PWR_STAT F.PWR_STAT_LOW_F 1).fireIf_kept s.fastRuns 33)
    rw [State.holdupLow_eq hon hlow]
    exact ⟨(hm.disarmAll.isSet (.inr (by decide)) _).trans (State.isSet_setF_keeps (State.isSet_setF_one _ _ _)),
      (hm.disarmAll.isSet (.inr (by decide)) _).trans (State.isSet_setF_one _ _ _),
      fun n hn => State.armed_disarmAll (by rw [State.fitted, hm.part]; exact hn), hm.disarmAll.cells⟩
  · intro s h
    refine ⟨_, rfl, if_pos ?_⟩
    rcases h with h | h
    · simp [h]
    · simp [h]
  · intro s hlow
    have hoff : s.shutdown = s.powerOn false := if_pos hlow
    obtain ⟨hwords, hpw⟩ := s.flashCut_keeps
    have hrest := s.powerOn_rest false
    refine ⟨_, rfl, ?_⟩
    rw [hoff]
    exact ⟨s.powerOn_mode false, hrest.part, (congrArg FlcSt.words hrest.flc).trans hwords, (congrArg FlcSt.pw hrest.flc).trans hpw,
      s.powerOn_keys false, s.powerOn_MINVER false, s.powerOn_KEYSTAT false, hrest.cells, hrest.core⟩
  · intro s hlow
    exact ⟨_, rfl, if_neg (by simp [hlow])⟩
  · intro s vin hok hon hlow hv
    refine ⟨_, rfl, ?_⟩
    obtain ⟨hback, hoff, hvin, hov⟩ := s.inputBack_shows vin
    have hrest := s.inputBack_rest vin
    have hm := (s.inputBack vin).fireIf_kept s.fastRuns 34
    rw [State.inputRestored_eq hok hon hlow hv]
    refine ⟨(hm.isSet (.inr (by decide)) _).trans hback, (hm.isSet (.inr (by decide)) _).trans hoff,
      (hm.getF (.inr (by decide)) _).trans hvin, (hm.isSet (.inr (by decide)) _).trans hov, fun hmode hd => ?_,
      hm.cells.trans hrest.cells⟩
    have hdelay : (s.inputBack vin).evtDelay 34 = 0 :=
      (State.evtDelay_regs hrest (fun a ha => s.inputBack_reg vin (fun hin => ha (.inr (supply_regs a (List.mem_cons.mpr
        ((List.mem_cons.mp hin).imp id (fun h => List.mem_cons.mpr (.inl (List.mem_singleton.mp h))))))))) 34).trans hd
    rw [State.fireIf_taps (State.fastRuns_of hmode) (by decide) (by decide) hdelay]
    unfold State.RegsOnly at hrest
    rw [hrest]
  · intro s vin h
    refine ⟨_, rfl, if_pos ?_⟩
    rcases h with h | h
    · simp [h]
    · simp [h]
  · intro s h
    refine ⟨_, rfl, if_neg ?_⟩
    rcases h with h | h
    · simp [h]
    · simp [h]
  · intro s hok hlow hpend
    refine ⟨_, rfl, ?_⟩
    rw [State.holdupReady_eq hok hlow hpend]
    exact ⟨State.isSet_setF_one _ _ _, rfl, fun a ha => State.reg_setF_ne _ _ _ _ _ (beq_eq_false_iff_ne.mp ha)⟩
  · intro s vin
    refine ⟨_, rfl, ?_⟩
    obtain ⟨hov, hflag, hrest, hregs, -⟩ := (s.setVin vin).showOv_shows vin
    refine ⟨?_, hov, hflag, ((State.RegsOnly.refl s).setF _ _ _).trans hrest, fun a ha => ?_⟩
    · exact (congrArg F.PWR_VIN_VIN.get (hregs _ (by decide))).trans
        ((State.getF_setF _ _ _ _ (by decide)).trans (Nat.mod_eq_of_lt vin.isLt))
    · obtain ⟨hstat, hvin⟩ := Bool.or_eq_false_iff.mp ha
      exact (hregs a (beq_eq_false_iff_ne.mp hstat)).trans (State.reg_setF_ne _ _ _ _ _ (beq_eq_false_iff_ne.mp hvin))
  · intro s j pin hd hf
    refine ⟨_, rfl, ?_⟩
    obtain ⟨hcount, hconn, hpin, hflag⟩ := s.foldNoted_shows j.val pin.isLt
    have hm := ({ s.foldNoted j pin with pwr := { s.pwr with fold := s.pwr.fold ++ [(j.val, pin.val)] } } : State).fireIf_kept s.fastRuns 35
    rw [State.foldback_eq hd hf]
    refine ⟨(hm.getF (.inr (by decide)) _).trans hcount, (hm.getF (.inr (by decide)) _).trans hconn,
      (hm.getF (.inr (by decide)) _).trans hpin, (hm.isSet (.inr (by decide)) _).trans hflag, congrArg PwrSt.fold hm.pwr, ?_, hm.cells⟩
    intro n k b hb
    refine State.padLevel_folded ?_
    rw [hm.pwr, hb]
    simp
  · intro s j pin h
    refine ⟨_, rfl, if_pos ?_⟩
    rcases h with h | h
    · simp [h]
    · simp only [h, Bool.true_or]
  · intro s j pin
    refine ⟨_, rfl, s.foldbackEnd_not j pin, fun n k b hb => ?_, rfl⟩
    have hno := s.foldbackEnd_not j pin
    rw [← hb] at hno
    rw [State.padLevel, hno, Bool.or_false]
    show (if !s.pwr.rails || !s.fitted n then none else some (if b then s.pinB n k else s.pinA n k)) = _
    cases s.pwr.rails <;> cases s.fitted n <;> rfl
  · intro s k hk
    refine ⟨_, rfl, ?_⟩
    have hlock : s.clockLock k = s.setF R.PWR_CLK ⟨k.val, 1⟩ 1 := if_pos hk
    rw [hlock]
    exact ⟨State.isSet_setF_one _ _ _ (by simp only; omega) Nat.zero_lt_one, rfl,
      fun a ha => State.reg_setF_ne _ _ _ _ _ (beq_eq_false_iff_ne.mp ha)⟩
  · intro s k hk
    exact ⟨_, rfl, if_neg (by simp [hk])⟩
  · intro s hm hen
    refine ⟨_, rfl, ?_⟩
    have hk := (State.ModKept.refl s).disarmAll
    have hsame : s.disarmAll.tamperEn = s.tamperEn := by
      unfold State.tamperEn State.lc
      rw [hk.getF (.inr (by decide) : ModReg R.SEC_TAMPER_CFG), hk.getF (.inr (by decide) : ModReg R.SEC_LC)]
    have hglitch : s.clockGlitch = s.disarmAll := by
      rw [State.clockGlitch, State.fastRuns_of hm, if_pos rfl, State.tamper, hsame]
      exact if_pos (by rw [show ((3 : Fin 5) : Nat) = 3 from rfl, hen]; rfl)
    rw [hglitch]
    exact ⟨fun n hn => State.armed_disarmAll hn, hk.cells⟩
  · intro s hm
    exact ⟨_, rfl, if_neg (by simp [State.fastRuns, hm])⟩
  · intro s hm hd hl hf hs
    refine ⟨_, rfl, ?_⟩
    have hdelay : s.alarmUp.evtDelay 36 = 0 := hd
    rw [State.rtcAlarm_rises hm hl hf hs]
    exact ⟨(s.alarmUp.fire_lines 36).2, State.fire_taps (s.alarmUp.srcPresent_module (by decide) (by decide)) (pwmSource_module (by decide))
      hdelay, State.fire_cells _ _⟩
  · intro s h
    exact ⟨_, rfl, State.rtcAlarm_same h⟩
  · intro s ok
    refine ⟨_, rfl, ?_, fun _ hoff => ?_, rfl, fun a ha => ?_⟩
    · refine (State.isSet_setF_ne _ _ _ _ _ _ (by decide) (.inl (by decide))).trans (State.isSet_setB _ _ _ _ (by decide) (by decide))
    · subst hoff
      refine State.dropClocks_off (s := s.setB R.AON_CLK F.AON_CLK_XTAL_OK false) ?_
      have hxtal : (s.setB R.AON_CLK F.AON_CLK_XTAL_OK false).isSet R.AON_CLK F.AON_CLK_XTAL_OK = false :=
        State.isSet_setB _ _ _ _ (by decide) (by decide)
      exact (congrArg (_ && ·) hxtal).trans (Bool.and_false _)
    · obtain ⟨haon, hpwr⟩ := Bool.or_eq_false_iff.mp ha
      exact (State.reg_setF_ne _ _ _ _ _ (beq_eq_false_iff_ne.mp hpwr)).trans
        (State.reg_setF_ne _ _ _ _ _ (beq_eq_false_iff_ne.mp haon))
  · exact fun s base die => ⟨_, rfl, s.temperature_shows base die⟩

end Machine
end Sys2Proof
end

section
/-! PROOFS. What a change of a slice's state leaves of its records: lockstep, watchdog, recovery and fault (R50 to R53, R386 to R389). -/

namespace Sys2Proof
namespace Machine

/-! The fields that record what befell a pair and its slice. -/

/-- Offsets in a slice's block of registers that hold such a field. -/
def RecOff (o : Nat) : Prop :=
  o = 0x4 ∨ o = 0x18 ∨ o = 0x1C0 ∨ o = 0x1C4 ∨ o = 0x4018 ∨ (0xA000 ≤ o ∧ o < 0xA014) ∨ o = 0xD010

/-- A register that holds such a field, of a slice or of the system pair; or DEV_ARM. -/
def RecAddr (a : Nat) : Prop :=
  a = 0x01000010 ∨ (0x02000000 ≤ a ∧ a < 0x02D00000 ∧ RecOff ((a - 0x02000000) % 0x100000))

/-- The fields themselves: the whole register, but STATE of SLC_STATE, DIV_F of KC_LS_STAT, and EXPIRED with its causes of WDG_STAT. -/
def RecFld (a : Nat) (f : Fld) : Prop :=
  0x02000000 ≤ a ∧ a < 0x02D00000 ∧ RecOff ((a - 0x02000000) % 0x100000) ∧
    ((a - 0x02000000) % 0x100000 = 0x4 → f = F.SLC_STATE_STATE) ∧
    ((a - 0x02000000) % 0x100000 = 0xA000 → f = F.KC_LS_STAT_DIV_F) ∧
    ((a - 0x02000000) % 0x100000 = 0xD010 →
      f = F.WDG_STAT_EXPIRED ∨ f = F.WDG_STAT_EXP_F ∨ f = F.WDG_STAT_KEY_F ∨ f = F.WDG_STAT_EARLY_F)

/-- Those fields but the ones of the register at `b`. -/
def RecFldBut (b a : Nat) (f : Fld) : Prop := RecFld a f ∧ a ≠ b

theorem recAddr_of_recFld {a : Nat} {f : Fld} (h : RecFld a f) : RecAddr a := .inr ⟨h.1, h.2.1, h.2.2.1⟩

theorem routerReg_of_recAddr {a : Nat} (h : RecAddr a) : routerReg a = false := by
  rcases h with rfl | ⟨hlo, -, hoff⟩
  · rfl
  · have hengine : (a - 0x02000000) % 0x100000 < 0x8000 ∨ 0xA000 ≤ (a - 0x02000000) % 0x100000 := by
      unfold RecOff at hoff
      omega
    simp only [routerReg, Bool.or_eq_false_iff, Bool.and_eq_false_iff, decide_eq_false_iff_not]
    exact ⟨.inr (by omega), by omega⟩

/-! Registers that hold none of them. -/

/-- Below the slices, and above the system pair's block, stands none but DEV_ARM. -/
theorem recFree_outside {a : Nat} (ha : a ≠ 0x01000010) (h : a < 0x02000000 ∨ 0x02D00000 ≤ a) : ¬ RecAddr a := by
  simp only [RecAddr]
  omega

theorem slice_offset {n o : Nat} (ho : o < 0x100000) : (sliceBase n + o - 0x02000000) % 0x100000 = o := by
  unfold sliceBase
  omega

/-- Where the offsets of a slice's records leave room. -/
def RecGap (o : Nat) : Prop :=
  (8 ≤ o ∧ o < 0x18) ∨ (0x1C8 ≤ o ∧ o < 0x4018) ∨ (0x401C ≤ o ∧ o < 0xA000) ∨ (0xA014 ≤ o ∧ o < 0xD010) ∨ (0xD014 ≤ o ∧ o < 0x100000)

theorem not_recOff_of_gap {o : Nat} (h : RecGap o) : o < 0x100000 ∧ ¬ RecOff o := by
  refine ⟨by unfold RecGap at h; omega, ?_⟩
  rintro (rfl | rfl | rfl | rfl | rfl | ⟨hlo, hhi⟩ | rfl)
  case inr.inr.inr.inr.inr.inl => unfold RecGap at h; omega
  all_goals exact absurd h (by unfold RecGap; decide)

theorem recFree_slice {n o a : Nat} (ha : a = sliceBase n + o) (h : RecGap o) : ¬ RecAddr a := by
  obtain ⟨hlt, hnot⟩ := not_recOff_of_gap h
  subst ha
  rintro (hdev | ⟨-, -, hoff⟩)
  · unfold sliceBase at hdev
    omega
  · exact hnot (slice_offset hlt ▸ hoff)

/-- A gate register of a slice. -/
theorem recFree_gorge {n o : Nat} (h : o < 0x1000) : ¬ RecAddr (sliceBase n + 0x3000 + o) :=
  recFree_slice (Nat.add_assoc ..) (.inr (.inl ⟨by omega, by omega⟩))

/-- A register of a slice's control-law engine but its mismatch record. -/
theorem recFree_cle {n o : Nat} (h : 0x1C ≤ o ∧ o < 0x4000) : ¬ RecAddr (sliceBase n + 0x4000 + o) :=
  recFree_slice (Nat.add_assoc ..) (.inr (.inr (.inl ⟨by omega, by omega⟩)))

/-- A register of a slice's injection unit. -/
theorem recFree_inj {n o : Nat} (h : o < 0x1000) : ¬ RecAddr (sliceBase n + 0xB000 + o) :=
  recFree_slice (Nat.add_assoc ..) (.inr (.inr (.inr (.inl ⟨by omega, by omega⟩))))

theorem recFree_RNG_STAT (f : Nat) : ¬ RecAddr (R.RNG_STAT f) := by
  have ha : 0x100000000 ≤ R.RNG_STAT f := by unfold R.RNG_STAT fnBase; omega
  exact recFree_outside (by omega) (by omega)

theorem recFree_RNG_EDGE_STAT (f : Nat) : ¬ RecAddr (R.RNG_EDGE_STAT f) := by
  have ha : 0x100000000 ≤ R.RNG_EDGE_STAT f := by unfold R.RNG_EDGE_STAT fnBase; omega
  exact recFree_outside (by omega) (by omega)

theorem recFree_PWM_TRIP_STAT (n : Fin 12) (k : Fin 8) : ¬ RecAddr (R.PWM_TRIP_STAT n k) :=
  recFree_slice (n := n) (o := 0x1000 + k * 0x100 + 0x8C) (by unfold R.PWM_TRIP_STAT pwmBase sliceBase; omega) (.inr (.inl ⟨by omega, by omega⟩))

theorem recFree_GRG_STATE (n : Fin 12) : ¬ RecAddr (R.GRG_STATE n) := recFree_gorge (by decide)

theorem recFree_GRG_RAW (n : Fin 12) : ¬ RecAddr (R.GRG_RAW n) := recFree_gorge (by decide)

theorem recFree_GRG_TEST (n i : Fin 12) : ¬ RecAddr (R.GRG_TEST n i) := by
  rw [R.GRG_TEST, Nat.add_assoc (_ + 0x3000)]
  exact recFree_gorge (by omega)

theorem recFree_GRG_WSTAT (n i : Fin 12) : ¬ RecAddr (R.GRG_WSTAT n i) := by
  rw [R.GRG_WSTAT, Nat.add_assoc (_ + 0x3000)]
  exact recFree_gorge (by omega)

theorem recFree_GRG_TRANS (n i : Fin 12) : ¬ RecAddr (R.GRG_TRANS n i) := by
  rw [R.GRG_TRANS, Nat.add_assoc (_ + 0x3000)]
  exact recFree_gorge (by omega)

theorem recFree_DBG_TESTOUT (n : Fin 12) : ¬ RecAddr (R.DBG_TESTOUT n) :=
  recFree_outside (by unfold R.DBG_TESTOUT; omega) (.inl (by unfold R.DBG_TESTOUT; omega))

theorem recFree_CLE_STAT (n : Fin 12) : ¬ RecAddr (R.CLE_STAT n) :=
  recFree_slice (Nat.add_assoc ..) (.inr (.inl (by decide)))

theorem recFree_CLE_LSTAT (n : Fin 12) (j : Fin 16) : ¬ RecAddr (R.CLE_LSTAT n j) := by
  rw [R.CLE_LSTAT, Nat.add_assoc (_ + 0x4000)]
  exact recFree_cle (by omega)

theorem recFree_CLE_OVR (n : Fin 12) (j : Fin 16) : ¬ RecAddr (R.CLE_OVR n j) := by
  rw [R.CLE_OVR, Nat.add_assoc (_ + 0x4000)]
  exact recFree_cle (by omega)

theorem recFree_MCS_XSTAT (n : Fin 12) : ¬ RecAddr (R.MCS_XSTAT n) :=
  recFree_slice (Nat.add_assoc ..) (.inr (.inr (.inl (by decide))))

theorem recFree_INJ_CTRL (n : Fin 12) : ¬ RecAddr (R.INJ_CTRL n) := recFree_inj (by decide)

theorem recFree_INJ_STAT (n : Fin 12) : ¬ RecAddr (R.INJ_STAT n) := recFree_inj (by decide)

theorem recFree_SLC_CMD_STAT (n : Fin 12) : ¬ RecAddr (R.SLC_CMD_STAT n) := recFree_slice rfl (.inl (by decide))

theorem recFree_WDG_CNT (n : Fin 12) : ¬ RecAddr (R.WDG_CNT n.castSucc) := by
  rw [R.WDG_CNT, Fin.val_castSucc, wdgBase_slice, Nat.add_assoc]
  exact recFree_slice rfl (.inr (.inr (.inr (.inr (by decide)))))

theorem recFree_DMA_STAT (n : Fin 12) (c : Fin 16) : ¬ RecAddr (R.DMA_STAT n.castSucc c) := by
  rw [R.DMA_STAT, Fin.val_castSucc, dmaBase_slice, Nat.add_assoc, Nat.add_assoc]
  exact recFree_slice rfl (.inr (.inr (.inl ⟨by omega, by omega⟩)))

theorem recFree_DMA_CTRL (n : Fin 12) (c : Fin 16) : ¬ RecAddr (R.DMA_CTRL n.castSucc c) := by
  rw [R.DMA_CTRL, Fin.val_castSucc, dmaBase_slice, Nat.add_assoc, Nat.add_assoc]
  exact recFree_slice rfl (.inr (.inr (.inl ⟨by omega, by omega⟩)))

theorem recFree_PTB_CTRL (n : Fin 12) : ¬ RecAddr (R.PTB_CTRL n) := by
  rw [R.PTB_CTRL, ptbBase_slice, Nat.add_assoc]
  exact recFree_slice rfl (.inr (.inr (.inr (.inl (by decide)))))

theorem recFree_PTB_ACTIVE (n : Fin 12) : ¬ RecAddr (R.PTB_ACTIVE n) := by
  rw [R.PTB_ACTIVE, ptbBase_slice, Nat.add_assoc]
  exact recFree_slice rfl (.inr (.inr (.inr (.inl (by decide)))))

theorem recFree_KC_CSEL (n : Fin 12) : ¬ RecAddr (R.KC_CSEL (pairOf n)) := by
  rw [R.KC_CSEL, pairOf, Fin.val_castSucc, kcBase_slice, Nat.add_assoc]
  exact recFree_slice rfl (.inr (.inr (.inr (.inl (by decide)))))

theorem recFree_twin {a : Nat} (h : 0x010B0000 ≤ a ∧ a < 0x010C0000) : ¬ RecAddr a := recFree_outside (by omega) (by omega)

/-- `t` holds what `s` does in the fields of `P`, in memory and in the microcode store; a slice that is disarmed stays so, and a pair
that is halted. -/
structure State.RecKept (P : Nat → Fld → Prop) (s t : State) : Prop where
  flds : ∀ a f, P a f → t.getF a f = s.getF a f
  cells : t.cells = s.cells
  mstore : t.mstore = s.mstore
  disarmed : ∀ n, s.armed n = false → t.armed n = false
  halted : ∀ p, (s.coreOf p).halted = true → (t.coreOf p).halted = true

namespace State.RecKept

variable {P Q : Nat → Fld → Prop} {s t u : State}

theorem refl (P : Nat → Fld → Prop) (s : State) : s.RecKept P s := ⟨fun _ _ _ => rfl, rfl, rfl, fun _ => id, fun _ => id⟩

theorem trans (h : s.RecKept P t) (k : t.RecKept P u) : s.RecKept P u where
  flds a f ha := (k.flds a f ha).trans (h.flds a f ha)
  cells := k.cells.trans h.cells
  mstore := k.mstore.trans h.mstore
  disarmed n hn := k.disarmed n (h.disarmed n hn)
  halted p hp := k.halted p (h.halted p hp)

theorem mono (h : s.RecKept P t) (hPQ : ∀ a f, Q a f → P a f) : s.RecKept Q t :=
  { h with flds := fun a f ha => h.flds a f (hPQ a f ha) }

theorem but (h : s.RecKept RecFld t) (b : Nat) : s.RecKept (RecFldBut b) t := h.mono (fun _ _ => And.left)

theorem isSet (h : s.RecKept P t) {a : Nat} {f : Fld} (ha : P a f) : t.isSet a f = s.isSet a f :=
  congrArg (· == 1) (h.flds a f ha)

theorem ite {c : Prop} [Decidable c] (h : s.RecKept P t) (k : s.RecKept P u) : s.RecKept P (if c then t else u) := by
  split <;> assumption

theorem foldl {α : Type} (h : s.RecKept P t) (l : List α) (f : State → α → State)
    (hf : ∀ u a, s.RecKept P u → s.RecKept P (f u a)) : s.RecKept P (l.foldl f t) := foldl_keeps _ f l t h hf

/-- A change of what no field of `RecKept` speaks of. -/
theorem elsewhere (h : s.RecKept P t) (hu : (u.cells, u.core, u.mstore, u.regs) = (t.cells, t.core, t.mstore, t.regs)) :
    s.RecKept P u := by
  obtain ⟨hcells, hcore, hmstore, hregs⟩ : u.cells = t.cells ∧ u.core = t.core ∧ u.mstore = t.mstore ∧ u.regs = t.regs := by
    simpa only [Prod.mk.injEq] using hu
  have hreg : ∀ a, u.reg a = t.reg a := fun a => congrArg (SMap.get resetOf · a) hregs
  refine h.trans ⟨fun a f _ => congrArg f.get (hreg a), hcells, hmstore, fun n hn => ?_, fun p hp => ?_⟩
  · rw [State.armed, State.getF, hreg]
    exact hn
  · rw [State.coreOf, hcore]
    exact hp

/-- A write of a register that holds none of the fields. -/
theorem setReg (h : s.RecKept RecFld t) {a : Nat} (ha : ¬ RecAddr a) (v : Word) : s.RecKept RecFld (t.setReg a v) := by
  have hne : ∀ b, RecAddr b → b ≠ a := fun b hb e => ha (e ▸ hb)
  refine h.trans ⟨fun b f hb => congrArg f.get (t.reg_setReg_ne a v b (hne b (recAddr_of_recFld hb))), rfl, rfl, fun n hn => ?_, fun _ => id⟩
  rw [State.armed, State.getF, t.reg_setReg_ne a v R.DEV_ARM (hne R.DEV_ARM (.inl rfl))]
  exact hn

/-- A write of a register's field that shares no bit with the fields. -/
theorem setFld (h : s.RecKept RecFld t) {a : Nat} {f : Fld} {v : Nat} (ha : a ≠ R.DEV_ARM) (hw : f.lo + f.width ≤ 32)
    (hd : ∀ g, RecFld a g → f.lo + f.width ≤ g.lo ∨ g.lo + g.width ≤ f.lo) : s.RecKept RecFld (t.setF a f v) := by
  refine h.trans ⟨fun b g hb => t.getF_setF_ne a f v b g hw ?_, rfl, rfl, fun n hn => ?_, fun _ => id⟩
  · exact (em (b = a)).elim (fun e => .inr (hd g (e ▸ hb))) .inl
  · rw [State.armed, State.getF_setF_reg _ _ _ _ _ _ (Ne.symm ha)]
    exact hn

/-- A write of the one register that may change. -/
theorem setOwn {b : Nat} (h : s.RecKept (RecFldBut b) t) (v : Word) (hb : b ≠ R.DEV_ARM) : s.RecKept (RecFldBut b) (t.setReg b v) := by
  refine h.trans ⟨fun a f ha => congrArg f.get (t.reg_setReg_ne b v a ha.2), rfl, rfl, fun n hn => ?_, fun _ => id⟩
  rw [State.armed, State.getF, t.reg_setReg_ne b v _ (Ne.symm hb)]
  exact hn

theorem setCore (h : s.RecKept P t) (p : Fin 13) (c : CoreSt) (hc : (t.coreOf p).halted = true → c.halted = true) :
    s.RecKept P (t.setCore p c) := by
  refine h.trans ⟨fun _ _ _ => rfl, rfl, rfl, fun _ => id, fun q hq => ?_⟩
  change ((t.core.set p.val c p.isLt).get q).halted = true
  rw [vget_set]
  split
  · next hpq => exact hc (hpq ▸ hq)
  · exact hq

theorem setCtl (h : s.RecKept P t) (n : Fin 12) (c : CtlSt) : s.RecKept P (t.setCtl n c) := h.elsewhere (by rfl)

theorem haltPair (h : s.RecKept P t) (p : Fin 13) : s.RecKept P (t.haltPair p) := h.setCore p _ (fun _ => rfl)

/-! The event router. -/

theorem router (h : s.RecKept RecFld t) (k : RouterOnly t u) : s.RecKept RecFld u := by
  have hreg : ∀ a, RecAddr a → u.reg a = t.reg a := fun a ha => k.regs a (routerReg_of_recAddr ha)
  refine h.trans ⟨fun a f ha => congrArg f.get (hreg a (recAddr_of_recFld ha)), by rw [k.rest], by rw [k.rest], fun n hn => ?_, fun p hp => ?_⟩
  · rw [State.armed, State.getF, hreg R.DEV_ARM (.inl rfl)]
    exact hn
  · rw [k.rest]
    exact hp

theorem fire (h : s.RecKept RecFld t) (src : Nat) : s.RecKept RecFld (t.fire src) := h.router (t.fire_only src)

theorem fireLocal (h : s.RecKept RecFld t) (n x : Nat) : s.RecKept RecFld (t.fireLocal n x) := h.fire _

/-! Descriptors. -/

theorem setFn (h : s.RecKept RecFld t) (f : Fin 16) (x : FnSt) : s.RecKept RecFld (t.setFn f x) := by
  have h1 : s.RecKept RecFld { t with fns := t.fns.set f x } := h.elsewhere (by rfl)
  exact h1.setReg (recFree_RNG_STAT f) _

theorem descEndWith (h : s.RecKept RecFld t) (g : Flight → Option (Nat × BitVec 64)) : s.RecKept RecFld (t.descEndWith g) := by
  unfold State.descEndWith
  exact h.foldl _ _ (fun u f hu => State.RecKept.ite hu (hu.setFn f _))

theorem descDone (h : s.RecKept RecFld t) (a : Await) (status result : Nat) : s.RecKept RecFld (t.descDone a status result) := by
  unfold State.descDone State.descFinishAll
  exact h.descEndWith _

theorem descFail (h : s.RecKept RecFld t) (n : Nat) : s.RecKept RecFld (t.descFail n) := by
  unfold State.descFail State.descFinishAll
  exact h.descEndWith _

theorem descHanded (h : s.RecKept RecFld t) (m : BitVec 12) : s.RecKept RecFld (t.descHanded m) := by
  unfold State.descHanded
  exact h.foldl _ _ (fun u f hu => State.RecKept.ite hu (hu.setFn f _))

theorem descHold (h : s.RecKept P t) (n : Nat) : s.RecKept P (t.descHold n) := h.elsewhere (by rfl)

theorem descReplay (h : s.RecKept P t) (n : Nat) : s.RecKept P (t.descReplay n) := h.elsewhere (by rfl)

/-! Pins, windows and watchdogs. -/

theorem edgeRecord (h : s.RecKept RecFld t) (n : Fin 12) (k : Fin 8) (out : Nat) (level : Bool) (now : Nat) :
    s.RecKept RecFld (t.edgeRecord n k out level now) := by
  unfold State.edgeRecord
  extract_lets f st len w seq s1 base
  have h1 : s.RecKept RecFld s1 := h.elsewhere (by rfl)
  exact h.ite ((h1.setReg (recFree_RNG_EDGE_STAT f) _).ite (State.RecKept.setReg (h1.elsewhere (by rfl)) (recFree_RNG_EDGE_STAT f) _))

theorem drive (h : s.RecKept RecFld t) (n : Fin 12) (k : Fin 8) (line now : Nat) : s.RecKept RecFld (t.drive n k line now) := by
  unfold State.drive
  dsimp only
  have h1 (p : PwmSt) : s.RecKept RecFld (t.setPw n k p) := h.elsewhere (by rfl)
  exact ((((h1 _).edgeRecord _ _ _ _ _).ite (h1 _)).edgeRecord _ _ _ _ _).ite (((h1 _).edgeRecord _ _ _ _ _).ite (h1 _))

theorem pins (h : s.RecKept RecFld t) (n : Fin 12) (k : Fin 8) : s.RecKept RecFld (t.pins n k) := by
  have h1 := h.setReg (recFree_PWM_TRIP_STAT n k) (F.PWM_TRIP_STAT_PINS.put (t.reg (R.PWM_TRIP_STAT n k))
    (if t.mode == mdHil then 0 else t.pinLine n k))
  exact (State.RecKept.ite (h1.elsewhere (by rfl)) h1).drive n k _ _

theorem pinsSlice (h : s.RecKept RecFld t) (n : Fin 12) : s.RecKept RecFld (t.pinsSlice n) := h.foldl _ _ (fun _ k hu => hu.pins n k)

theorem showWin (h : s.RecKept RecFld t) (n i : Fin 12) : s.RecKept RecFld (t.showWin n i) := by
  unfold State.showWin
  extract_lets a old st s1 s2 s3 s4 s5 s6 s7
  have h2 : s.RecKept RecFld s2 := ((h.setReg (recFree_GRG_WSTAT n i) _).setReg (recFree_GRG_WSTAT n i) _).setReg (recFree_GRG_WSTAT n i) _
  have h6 : s.RecKept RecFld s6 := (((h2.setReg (recFree_GRG_WSTAT n i) _).setReg (recFree_GRG_STATE n) _).setReg (recFree_GRG_RAW n) _).setReg
    (recFree_GRG_RAW n) _
  have h7 : s.RecKept RecFld s7 := (h6.setReg (recFree_GRG_TRANS n i) _).ite h6
  exact h7.ite (h7.elsewhere (by rfl))

theorem showWins (h : s.RecKept RecFld t) (n : Fin 12) : s.RecKept RecFld (t.showWins n) := h.foldl _ _ (fun _ i hu => hu.showWin n i)

theorem endTests (h : s.RecKept RecFld t) (n : Fin 12) : s.RecKept RecFld (t.endTests n) := by
  have hcheck {u : State} (hu : s.RecKept RecFld u) (i : Fin 12) : s.RecKept RecFld (u.checkThr n i) := hu.ite (hu.setReg (recFree_GRG_WSTAT n i) _)
  have hunsettle {u : State} (hu : s.RecKept RecFld u) (i : Fin 12) : s.RecKept RecFld (u.unsettle n i) := by
    unfold State.unsettle
    exact State.RecKept.showWin (hu.elsewhere (by rfl)) n i
  exact h.foldl _ _ (fun _ i hu => (hunsettle (hcheck (hu.setReg (recFree_GRG_TEST n i) _) i) i).ite hu)

/-- RUN and EXPECT of WDG_STAT are none of the fields. -/
theorem setWdg (h : s.RecKept RecFld t) (n : Fin 12) {f : Fld} {v : Nat} (hf : f = F.WDG_STAT_RUN ∨ f = F.WDG_STAT_EXPECT) :
    s.RecKept RecFld (t.setF (R.WDG_STAT n.castSucc) f v) := by
  have hoff : (R.WDG_STAT n.castSucc - 0x02000000) % 0x100000 = 0xD010 := by
    simp only [R.WDG_STAT, Fin.val_castSucc, wdgBase_slice, sliceBase]
    omega
  have hne : R.WDG_STAT n.castSucc ≠ R.DEV_ARM := by
    simp only [R.WDG_STAT, R.DEV_ARM, Fin.val_castSucc, wdgBase_slice, sliceBase]
    omega
  refine h.setFld hne (by rcases hf with rfl | rfl <;> decide) (fun g hg => ?_)
  obtain ⟨-, -, -, -, -, hwdg⟩ := hg
  rcases hf with rfl | rfl <;> rcases hwdg hoff with rfl | rfl | rfl | rfl <;> decide

theorem wdgStart (h : s.RecKept RecFld t) (n : Fin 12) : s.RecKept RecFld (t.wdgStart n.castSucc) := by
  have h1 := ((h.setReg (recFree_WDG_CNT n) 0).setWdg n (v := 1) (.inl rfl)).setWdg n (v := 0) (.inr rfl)
  exact State.RecKept.ite (h1.elsewhere (by rfl)) h

theorem wdgStop (h : s.RecKept RecFld t) (n : Fin 12) : s.RecKept RecFld (t.wdgStop n.castSucc) :=
  (h.setReg (recFree_WDG_CNT n) 0).setWdg n (.inl rfl)

end State.RecKept

end Machine
end Sys2Proof
end

section
/-! PROOFS. What the CLE, the DMA, the twin link and the pair leave of a slice's records when its state changes. -/

namespace Sys2Proof
namespace Machine

namespace State.RecKept

variable {P : Nat → Fld → Prop} {s t : State}

/-! Roles of a twin pair and the CLE (R52, R388, R393). -/

theorem reportRoles (h : s.RecKept RecFld t) (u : State) : s.RecKept RecFld (u.reportRoles t) := by
  have h1 : s.RecKept RecFld t.syncRegs := by
    unfold State.syncRegs
    extract_lets f sy ar
    have h3 : s.RecKept RecFld ((t.setF R.TWN_SYNC F.TWN_SYNC_SYNCED sy).setF R.TWN_SYNC F.TWN_SYNC_ARMED ar) :=
      (h.setReg (recFree_twin (by decide)) _).setReg (recFree_twin (by decide)) _
    exact h.ite ((h3.ite (State.RecKept.fire (h3.elsewhere (by rfl)) 982)).ite h)
  exact State.RecKept.ite (h1.elsewhere (by rfl)) h1

theorem showSync (h : s.RecKept RecFld t) : s.RecKept RecFld t.showSync := h.reportRoles t

theorem setCle (h : s.RecKept P t) (n : Fin 12) (c : CleSt) : s.RecKept P (t.setCle n c) := h.elsewhere (by rfl)

theorem showCall (h : s.RecKept RecFld t) (n : Fin 12) : s.RecKept RecFld (t.showCall n) :=
  (h.setReg (recFree_MCS_XSTAT n) _).setReg (recFree_MCS_XSTAT n) _

theorem setQ (h : s.RecKept RecFld t) (n : Fin 12) (j : Fin 16) (q : Nat) : s.RecKept RecFld (t.setQ n j q) :=
  (h.setReg (recFree_CLE_LSTAT n j) _).setReg (recFree_CLE_STAT n) _

theorem noteSkip (h : s.RecKept P t) (n : Fin 12) (j : Fin 16) : s.RecKept P (t.noteSkip n j) := h.setCtl n _

theorem cleSkip (h : s.RecKept RecFld t) (n : Fin 12) (j : Fin 16) : s.RecKept RecFld (t.cleSkip n j) := by
  unfold State.cleSkip State.cleFlag
  extract_lets a s1
  have h0 : s.RecKept RecFld (t.count (R.CLE_OVR n j) F.CLE_OVR_SKIP) := h.setReg (recFree_CLE_OVR n j) _
  have h1 : s.RecKept RecFld s1 := h0.ite ((h0.setReg (recFree_CLE_LSTAT n j) _).fireLocal n 17)
  exact (h1.setReg (recFree_INJ_STAT n) _).ite h1

theorem dropLoop (h : s.RecKept RecFld t) (n : Fin 12) (j : Fin 16) (rec : Bool) : s.RecKept RecFld (t.dropLoop n j rec) := by
  unfold State.dropLoop
  extract_lets c l q kept owed t1 s1 t2 t3
  have ht1 : s.RecKept RecFld t1 := h.setReg (recFree_CLE_LSTAT n j) _
  have h1 : s.RecKept RecFld s1 := (((ht1.cleSkip n j).noteSkip n j).ite ht1).ite h
  have ht2 : s.RecKept RecFld t2 := (h1.setQ n j 0).setCle n _
  have ht3 : s.RecKept RecFld t3 := ((h1.setQ n j 0).setReg (recFree_CLE_LSTAT n j) _).setCle n _
  exact (((ht2.cleSkip n j).noteSkip n j).ite ht2).ite (h1.ite ((ht3.noteSkip n j).ite ht3))

theorem dropCle (h : s.RecKept RecFld t) (n : Fin 12) (rec : Bool) : s.RecKept RecFld (t.dropCle n rec) := by
  unfold State.dropCle
  extract_lets s1 c call
  have h1 : s.RecKept RecFld s1 := h.foldl _ _ (fun _ j hu => hu.dropLoop n j rec)
  exact ((h1.setCle n _).setReg (recFree_CLE_STAT n) _).showCall n

theorem dropCmds (h : s.RecKept RecFld t) (n : Fin 12) : s.RecKept RecFld (t.dropCmds n) := by
  refine List.foldlRecOn (motive := s.RecKept RecFld) _ _ h (fun u hu j hj => ?_)
  have hstat : ¬ RecAddr (R.CLE_LSTAT n j) := recFree_CLE_LSTAT n ⟨j, List.mem_range.mp hj⟩
  exact ((((hu.setReg hstat _).setReg hstat _).setReg hstat _).descDone _ _ _).descDone _ _ _

theorem putRole (h : s.RecKept RecFld t) (n : Fin 12) (role : Nat) : s.RecKept RecFld (t.putRole n role) := by
  unfold State.putRole State.dropRole
  extract_lets s1 tw s2 c
  have h1 : s.RecKept RecFld s1 := (h.setReg (recFree_twin (by decide)) _).setReg (recFree_twin (by decide)) _
  have h2 : s.RecKept RecFld s2 := State.RecKept.ite (h1.elsewhere (by rfl)) h1
  exact (((h2.setCle n _).dropCle n false).ite h2).pinsSlice n

theorem setRoles (h : s.RecKept RecFld t) (m : BitVec 12) (role : Nat) : s.RecKept RecFld (t.setRoles m role) := by
  have hfold := h.foldl (List.finRange 12) (fun (u : State) (n : Fin 12) => if m.getLsbD n then u.putRole n role else u)
    (fun u n hu => (hu.putRole n role).ite hu)
  exact hfold.reportRoles t

theorem showHealth (h : s.RecKept RecFld t) : s.RecKept RecFld t.showHealth :=
  ((h.setReg (recFree_twin (by decide)) _).fire 978).ite h

theorem twinSend (h : s.RecKept RecFld t) (r : TwinRec) : s.RecKept RecFld (t.twinSend r) := by
  have hdrop {u : State} (hu : s.RecKept RecFld u) : s.RecKept RecFld u.twinDrop := by
    have h1 : s.RecKept RecFld (u.count R.TWN_DROP F.TWN_DROP_COUNT) := hu.setReg (recFree_twin (by decide)) _
    exact State.RecKept.showHealth (h1.elsewhere (by rfl))
  exact h.ite (State.RecKept.ite (h.elsewhere (by rfl)) (hdrop (h.setReg (recFree_twin (by decide)) _)))

theorem fireIf (h : s.RecKept RecFld t) (b : Bool) (src : Nat) : s.RecKept RecFld (t.fireIf b src) := (h.fire src).ite h

theorem setLastHo (h : s.RecKept RecFld t) (f : Fld) (v : Nat) : s.RecKept RecFld (t.setF R.TWN_LAST_HO f v) :=
  h.setReg (recFree_twin (by decide)) _

theorem handOver (h : s.RecKept RecFld t) (m : BitVec 12) (cause : Nat) : s.RecKept RecFld (t.handOver m cause) := by
  unfold State.handOver
  extract_lets m1 s1 a s2 handed tw s3 s4
  have h1 : s.RecKept RecFld s1 := h.setRoles _ _
  have h2 : s.RecKept RecFld s2 := ((((h1.setLastHo _ _).setLastHo _ _).setLastHo _ _).setLastHo _ _).setLastHo _ _
  have hhanded : s.RecKept RecFld handed := h2.descHanded _
  clear_value handed
  have h3 : s.RecKept RecFld s3 := hhanded.elsewhere (by rfl)
  exact h.ite ((h3.twinSend _).fireIf _ _)

/-! DMA, injection runs and perturbation (R192, R325, R478). -/

theorem setDma (h : s.RecKept P t) (e : Fin 13) (c : Fin 16) (d : DmaCh) : s.RecKept P (t.setDma e c d) := h.elsewhere (by rfl)

theorem setDmaState (h : s.RecKept RecFld t) (n : Fin 12) (c : Fin 16) (st : Nat) :
    s.RecKept RecFld (t.setDmaState n.castSucc c st) :=
  (h.setReg (recFree_DMA_STAT n c) _).setReg (recFree_DMA_CTRL n c) _

theorem dmaStop (h : s.RecKept RecFld t) (n : Fin 12) (c : Fin 16) : s.RecKept RecFld (t.dmaStop n.castSucc c false) := by
  have hstopped (cause : Nat) : s.RecKept RecFld (t.dmaStopped n.castSucc c cause) := by
    unfold State.dmaStopped State.xferDone
    exact ((((h.setDmaState n c 0).setReg (recFree_DMA_STAT n c) _).setReg (recFree_DMA_STAT n c) _).setDma _ _ _).descDone _ _ _
  exact h.ite ((hstopped _).ite ((h.setDmaState n c 3).setDma _ _ _))

theorem stopDma (h : s.RecKept RecFld t) (n : Fin 12) : s.RecKept RecFld (t.stopDma n) := by
  unfold State.stopDma
  exact h.foldl _ _ (fun _ c hu => hu.dmaStop n _)

theorem pauseDma (h : s.RecKept RecFld t) (n : Fin 12) : s.RecKept RecFld (t.pauseDma n) := by
  unfold State.pauseDma
  exact h.foldl _ _ (fun u c hu => ((hu.setDma n.castSucc _ _).setDmaState n _ _).ite hu)

theorem resumeDma (h : s.RecKept RecFld t) (n : Fin 12) : s.RecKept RecFld (t.resumeDma n) := by
  unfold State.resumeDma
  exact h.foldl _ _ (fun u c hu => ((hu.setDma n.castSucc _ _).setDmaState n _ _).ite hu)

theorem sendWords (h : s.RecKept P t) (f m addr : Nat) (ws : List Word) (k : Nat) : s.RecKept P (t.sendWords f m addr ws k) := by
  induction k generalizing t addr ws with
  | zero => exact h
  | succ k ih =>
    unfold State.sendWords
    split
    · exact h.elsewhere (by rfl)
    · exact ih (h.elsewhere (by rfl)) _ _

theorem captureDone (h : s.RecKept RecFld t) (n cause : Nat) : s.RecKept RecFld (t.captureDone n cause) := by
  have htoHost {u : State} (hu : s.RecKept RecFld u) (f : Fin 16) (addr : Nat) (ws : List Word) : s.RecKept RecFld (u.toHost f addr ws) :=
    (hu.sendWords _ _ _ _ _).ite hu
  unfold State.captureDone
  extract_lets mine ws s1
  have h1 : s.RecKept RecFld s1 := h.foldl _ _ (fun v f hv => hv.foldl _ _ (fun w y hw => (htoHost hw f _ _).ite hw))
  exact h1.descDone _ _ _

theorem injEnd (h : s.RecKept RecFld t) (n : Fin 12) (cause : Nat) : s.RecKept RecFld (t.injEnd n cause) := by
  unfold State.injEnd
  extract_lets a
  exact h.ite (((((h.setReg (recFree_INJ_STAT n) _).setReg (recFree_INJ_STAT n) _).setReg (recFree_INJ_STAT n) _).setReg
    (recFree_INJ_CTRL n) _).captureDone n cause)

theorem ptbEnd (h : s.RecKept RecFld t) (n : Fin 12) (cause : Nat) : s.RecKept RecFld (t.ptbEnd n cause) := by
  unfold State.ptbEnd
  extract_lets s1
  have h1 : s.RecKept RecFld s1 := h.elsewhere (by rfl)
  exact h1.ite (((h1.setReg (recFree_PTB_CTRL n) _).setReg (recFree_PTB_CTRL n) _).setReg (recFree_PTB_ACTIVE n) _)

/-! Arming (R33). -/

theorem setArmPend (h : s.RecKept RecFld t) (n : Fin 12) (b : Bool) : s.RecKept RecFld (t.setArmPend n b) := by
  refine h.trans ⟨fun a f ha => t.getF_setF_reg _ _ _ a f (fun e => ?_), rfl, rfl, fun m hm => ?_, fun _ => id⟩
  · subst e
    exact absurd ha.1 (by decide)
  · rw [State.armed, State.setArmPend, State.getF_setF_fld _ _ _ _ _ (by simp only; omega) (by simp only [F.DEV_ARM_ARM]; omega)]
    exact hm

/-- A slice that is disarmed leaves the bits of the others. -/
theorem armed_clear (t : State) (n : Fin 12) (m : Nat) (hm : t.armed m = false) : (t.setF R.DEV_ARM ⟨n.val, 1⟩ 0).armed m = false := by
  rw [State.armed, natBit, State.getF, Fld.get_testBit] at hm ⊢
  rw [State.setF, State.reg_setReg_self, Fld.put_getLsbD _ (by simp only; omega)]
  simp only [Nat.zero_testBit]
  split
  · exact Bool.and_false _
  · exact hm

theorem setArmed (h : s.RecKept RecFld t) (n : Fin 12) : s.RecKept RecFld (t.setArmed n false) := by
  have h1 : s.RecKept RecFld (t.setF R.DEV_ARM ⟨n.val, 1⟩ (b2n false)) := by
    refine h.trans ⟨fun a f ha => t.getF_setF_reg _ _ _ a f (fun e => ?_), rfl, rfl, armed_clear t n, fun _ => id⟩
    subst e
    exact absurd ha.1 (by decide)
  exact h1.showSync

/-! The pair (R278, R386, R389). -/

theorem unCheckpoint (h : s.RecKept P t) (p : Fin 13) : s.RecKept P (t.unCheckpoint p) := State.RecKept.ite (h.setCore p _ (fun hp => hp)) h

theorem setCsel (h : s.RecKept RecFld t) (n : Fin 12) (v : Word) : s.RecKept RecFld (t.setReg (R.KC_CSEL (pairOf n)) v) :=
  h.setReg (recFree_KC_CSEL n) _

theorem rollBack (h : s.RecKept RecFld t) (n : Fin 12) : s.RecKept RecFld (t.rollBack n) := by
  unfold State.rollBack
  extract_lets p c s1
  have h1 : s.RecKept RecFld s1 := h.elsewhere (by rfl)
  split
  · exact h1
  · next r csel _ =>
    have hcore : s.RecKept RecFld (s1.setCore p { c with
        r := r, pfx := [], slot := none, shadow := none, lock := none, long := none, att := false, wfe := false
        lbuf := [], fq := none }) := h1.setCore p _ (fun hp => hp)
    exact hcore.setCsel n _

theorem runLive (h : s.RecKept RecFld t) (n : Fin 12) : s.RecKept RecFld (t.runLive n) := by
  unfold State.runLive
  extract_lets p c
  split
  · exact h
  · next b =>
    extract_lets live s1 call c1 shown
    have hcore : s.RecKept RecFld (t.setCore p { live with halted := c.halted, dbgHalt := c.dbgHalt, attached := c.attached }) :=
      h.setCore p _ (fun hp => hp)
    have h1 : s.RecKept RecFld s1 := hcore.setCsel n _
    have hshown : s.RecKept RecFld shown := (h1.setCle n _).showCall n
    exact hshown.elsewhere (by rfl)

/-- BROKEN, SUSPENDED and ATTACH_HELD of KC_LS_STAT are none of the fields. -/
theorem setLs (h : s.RecKept RecFld t) (n : Fin 12) {f : Fld} {v : Nat}
    (hf : f = F.KC_LS_STAT_BROKEN ∨ f = F.KC_LS_STAT_SUSPENDED ∨ f = F.KC_LS_STAT_ATTACH_HELD) :
    s.RecKept RecFld (t.setF (R.KC_LS_STAT (pairOf n)) f v) := by
  have hoff : (R.KC_LS_STAT (pairOf n) - 0x02000000) % 0x100000 = 0xA000 := by
    simp only [R.KC_LS_STAT, pairOf, Fin.val_castSucc, kcBase_slice, sliceBase]
    omega
  have hne : R.KC_LS_STAT (pairOf n) ≠ R.DEV_ARM := by
    simp only [R.KC_LS_STAT, R.DEV_ARM, pairOf, Fin.val_castSucc, kcBase_slice, sliceBase]
    omega
  refine h.setFld hne (by rcases hf with rfl | rfl | rfl <;> decide) (fun g hg => ?_)
  obtain ⟨-, -, -, -, hls, -⟩ := hg
  cases hls hoff
  rcases hf with rfl | rfl | rfl <;> decide

/-- Nor is a field of SLC_STATE but STATE. -/
theorem setState (h : s.RecKept RecFld t) (n : Fin 12) {f : Fld} {v : Nat} (hw : f.lo + f.width ≤ 32) (hf : 3 ≤ f.lo) :
    s.RecKept RecFld (t.setF (R.SLC_STATE n) f v) := by
  have hoff : (R.SLC_STATE n - 0x02000000) % 0x100000 = 0x4 := by
    simp only [R.SLC_STATE, sliceBase]
    omega
  refine h.setFld (by simp only [R.SLC_STATE, R.DEV_ARM, sliceBase]; omega) hw (fun g hg => ?_)
  obtain ⟨-, -, -, hst, -, -⟩ := hg
  cases hst hoff
  exact .inr hf

theorem attachNow (h : s.RecKept RecFld t) (n : Fin 12) (sess : Nat) : s.RecKept RecFld (t.attachNow (pairOf n) sess) := by
  unfold State.attachNow
  extract_lets a s1 c s2
  have h1 : s.RecKept RecFld s1 := ((h.setLs n (.inl rfl)).setLs n (.inr (.inl rfl))).setLs n (.inr (.inr rfl))
  have h2 : s.RecKept RecFld s2 := h1.setCore _ _ (fun hp => hp)
  exact (h2.setState n (f := F.SLC_STATE_LOCKSTEP_BROKEN) (by decide) (by decide)).ite h2

theorem heldAttach (h : s.RecKept RecFld t) (n : Fin 12) : s.RecKept RecFld (t.heldAttach n) := by
  unfold State.heldAttach
  split
  · exact (h.setCtl n _).attachNow n _
  · exact h

/-! FENCE (R52, R53). -/

theorem fenceNow (h : s.RecKept RecFld t) (n : Fin 12) (cause : Nat) : s.RecKept RecFld (t.fenceNow n cause) := by
  unfold State.fenceNow
  extract_lets c0 s0 u c hold s1 s2 s3 s4
  have hu : s.RecKept RecFld u := State.RecKept.ite ((h.setCtl n _).handOver _ _) (h.setCtl n _)
  have h2 : s.RecKept RecFld s2 := ((hu.setCtl n _).setArmed n).setArmPend n false
  have h4 : s.RecKept RecFld s4 := (((h2.dropCle n false).dropCmds n).haltPair _).stopDma n
  exact ((h4.setReg (recFree_SLC_CMD_STAT n) _).descDone _ _ _).pinsSlice n

end State.RecKept

/-! The writes of the fields themselves. -/

theorem State.rec_setSl (s : State) (n : Fin 12) (st : Nat) : s.RecKept (RecFldBut (R.SLC_STATE n)) (s.setSl n st) := by
  have hne : R.SLC_STATE n ≠ R.DEV_ARM := by
    simp only [R.SLC_STATE, R.DEV_ARM, sliceBase]
    omega
  unfold State.setSl
  extract_lets was s0 s1 s2 s3
  have h0 : s.RecKept RecFld s0 := ((State.RecKept.refl _ s).endTests n).ite (.refl _ s)
  have hset := (((h0.but (R.SLC_STATE n)).setOwn (F.SLC_STATE_STATE.put (s0.reg (R.SLC_STATE n)) st) hne).setOwn
    (F.SLC_STATE_SEQ.put ((s0.setF (R.SLC_STATE n) F.SLC_STATE_STATE st).reg (R.SLC_STATE n))
      ((s0.setF (R.SLC_STATE n) F.SLC_STATE_STATE st).getF (R.SLC_STATE n) F.SLC_STATE_SEQ + 1)) hne)
  have h1 : State.RecKept RecFld _ s1 := (State.RecKept.refl _ _).fireLocal n 0
  have h2 : State.RecKept RecFld _ s2 := (h1.ite ((h1.wdgStart n).router (State.levelTo_only _ n))).ite (h1.wdgStop n)
  have h3 : State.RecKept RecFld _ s3 := h2.ite ((h2.setReg (recFree_DBG_TESTOUT n) _).pinsSlice n)
  exact hset.trans (((h3.showWins n).ite h3).but _)

theorem State.rec_slFault (s : State) (n : Fin 12) (cause : Nat) : s.RecKept (RecFldBut (R.SLC_FAULT n)) (s.slFault n cause) := by
  have hne : R.SLC_FAULT n ≠ R.DEV_ARM := by
    simp only [R.SLC_FAULT, R.DEV_ARM, sliceBase]
    omega
  exact ((State.RecKept.refl _ s).setOwn _ hne).setOwn _ hne

theorem State.rec_recStat (s : State) (n : Fin 12) : s.RecKept (RecFldBut (R.SLC_REC_STAT n)) (s.recStat n) :=
  (State.RecKept.refl _ s).setOwn _ (by
    simp only [R.SLC_REC_STAT, R.DEV_ARM, sliceBase]
    omega)

end Machine
end Sys2Proof
end

section
/-! PROOFS. A handover leaves a slice's control, and what an entry into SAFE shows (R50, R51, R388, R400). -/

namespace Sys2Proof
namespace Machine

/-! A handover (R400). -/

namespace State.Kept

variable {s t : State}

theorem setRoles (h : s.Kept CtlReg t) (m : BitVec 12) (role : Nat) : s.Kept CtlReg (t.setRoles m role) := by
  have hfold := h.foldl (List.finRange 12) (fun (u : State) (n : Fin 12) => if m.getLsbD n then u.putRole n role else u)
    (fun u n hu => (hu.putRole n role).ite hu)
  exact hfold.reportRoles t

/-- A write of a register of the twin link. -/
theorem setTwnReg (h : s.Kept CtlReg t) {a : Nat} (ha : 0x010B0000 ≤ a ∧ a < 0x010C0000) (v : Word) : s.Kept CtlReg (t.setReg a v) :=
  h.setReg a v (by
    simp only [CtlReg, SlcReg]
    omega)

theorem twinSend (h : s.Kept CtlReg t) (r : TwinRec) : s.Kept CtlReg (t.twinSend r) := by
  have hhealth {u : State} (hu : s.Kept CtlReg u) : s.Kept CtlReg u.showHealth := ((hu.setTwnReg (by decide) _).fire 978).ite hu
  have hdrop {u : State} (hu : s.Kept CtlReg u) : s.Kept CtlReg u.twinDrop := by
    have h1 : s.Kept CtlReg (u.count R.TWN_DROP F.TWN_DROP_COUNT) := hu.setTwnReg (by decide) _
    exact hhealth h1.elsewhere
  exact h.ite (State.Kept.ite h.elsewhere (hdrop (h.setTwnReg (by decide) _)))

theorem descHanded (h : s.Kept CtlReg t) (m : BitVec 12) : s.Kept CtlReg (t.descHanded m) := by
  unfold State.descHanded
  refine h.foldl _ _ (fun u f hu => ?_)
  exact State.Kept.ite hu (hu.setFn f _ (fun hx => by simp only [hx, List.filter_nil]))

theorem setLastHo (h : s.Kept CtlReg t) (f : Fld) (v : Nat) : s.Kept CtlReg (t.setF R.TWN_LAST_HO f v) := h.setTwnReg (by decide) _

theorem handOver (h : s.Kept CtlReg t) (m : BitVec 12) (cause : Nat) : s.Kept CtlReg (t.handOver m cause) := by
  unfold State.handOver
  extract_lets m1 s1 a s2 handed tw s3 s4
  have h1 : s.Kept CtlReg s1 := h.setRoles _ _
  have h2 : s.Kept CtlReg s2 := ((((h1.setLastHo _ _).setLastHo _ _).setLastHo _ _).setLastHo _ _).setLastHo _ _
  have hhanded : s.Kept CtlReg handed := h2.descHanded _
  clear_value handed
  have h3 : s.Kept CtlReg s3 := hhanded.elsewhere
  exact h.ite (((h3.twinSend _).fire 980).ite (h3.twinSend _))

end State.Kept

/-! Registers of a slice's records. -/

theorem recOff_lt {o : Nat} (h : RecOff o) : o < 0x100000 := by
  rcases h with rfl | rfl | rfl | rfl | rfl | ⟨-, h⟩ | rfl
  case inr.inr.inr.inr.inr.inl => omega
  all_goals decide

/-- A register of a slice's block, or of the system pair's as that of a slice 12, is a record by its offset. -/
theorem recFld_slice {n o : Nat} (hn : n < 13) (ho : RecOff o) {f : Fld} (hstate : o = 0x4 → f = F.SLC_STATE_STATE)
    (hls : o = 0xA000 → f = F.KC_LS_STAT_DIV_F)
    (hwdg : o = 0xD010 → f = F.WDG_STAT_EXPIRED ∨ f = F.WDG_STAT_EXP_F ∨ f = F.WDG_STAT_KEY_F ∨ f = F.WDG_STAT_EARLY_F) :
    RecFld (sliceBase n + o) f := by
  have hlt := recOff_lt ho
  refine ⟨by unfold sliceBase; omega, by unfold sliceBase; omega, ?_⟩
  rw [slice_offset hlt]
  exact ⟨ho, hstate, hls, hwdg⟩

/-- Of most records every field. -/
theorem recFld_whole {n o : Nat} (hn : n < 13) (ho : o = 0x18 ∨ o = 0x1C0 ∨ o = 0x1C4 ∨ o = 0x4018 ∨ (0xA000 < o ∧ o < 0xA014)) (f : Fld) :
    RecFld (sliceBase n + o) f := by
  have hoff : RecOff o := by
    rcases ho with rfl | rfl | rfl | rfl | ⟨h, h'⟩
    case inr.inr.inr.inr => exact .inr (.inr (.inr (.inr (.inr (.inl ⟨h.le, h'⟩)))))
    all_goals simp [RecOff]
  exact recFld_slice hn hoff (by omega) (by omega) (by omega)

theorem recFld_SLC_STATE (n : Slice) : RecFld (R.SLC_STATE n) F.SLC_STATE_STATE :=
  recFld_slice (by omega) (.inl rfl) (fun _ => rfl) (by decide) (by decide)

theorem recFld_SLC_FAULT (n : Slice) (f : Fld) : RecFld (R.SLC_FAULT n) f := recFld_whole (by omega) (by decide) f

theorem recFld_SLC_REC_STAT (n : Slice) (f : Fld) : RecFld (R.SLC_REC_STAT n) f := recFld_whole (by omega) (by decide) f

theorem recFld_WDG_STAT (n : Slice) {f : Fld} (hf : f = F.WDG_STAT_EXPIRED ∨ f = F.WDG_STAT_EXP_F ∨ f = F.WDG_STAT_KEY_F ∨ f = F.WDG_STAT_EARLY_F) :
    RecFld (R.WDG_STAT n) f := by
  rw [R.WDG_STAT, wdgBase_slice, Nat.add_assoc]
  exact recFld_slice (by omega) (by simp [RecOff]) (by omega) (by omega) (fun _ => hf)

theorem State.RecKept.slState {s t : State} (h : s.RecKept RecFld t) (n : Slice) : t.slState n = s.slState n := h.flds _ _ (recFld_SLC_STATE n)

/-- The fields but SLC_STATE, SLC_FAULT and SLC_REC_STAT of slice n. -/
def RecFldSafe (n : Slice) (a : Nat) (f : Fld) : Prop :=
  RecFld a f ∧ a ≠ R.SLC_STATE n ∧ a ≠ R.SLC_FAULT n ∧ a ≠ R.SLC_REC_STAT n

/-- What slice n shows when it has gone to SAFE with a cause. -/
structure State.GoneSafe (s t : State) (n : Slice) (cause : Nat) : Prop where
  slState : t.slState n = slSafe
  valid : t.isSet (R.SLC_FAULT n) F.SLC_FAULT_VALID = true
  cause : t.getF (R.SLC_FAULT n) F.SLC_FAULT_CAUSE = cause
  disarmed : t.armed n = false
  halted : (t.coreOf (pairOf n)).halted = true
  recs : s.RecKept (RecFldSafe n) t
  recStat : s.slState n = slRecovering → ∃ u : State, u.ctlOf n = s.ctlOf n ∧
    ∀ f, t.getF (R.SLC_REC_STAT n) f = (u.recStat n).getF (R.SLC_REC_STAT n) f

theorem State.armed_of_dropped (s : State) (n : Fin 12) : ((s.setArmed n false).setArmPend n false).armed n = false :=
  (State.armed_setArmPend _ n false).trans (s.armed_setArmed_false n)

/-- A live slice that no FENCE is leaving goes to SAFE (R50, R51). -/
theorem State.enterSafe_goes {s : State} {n : Slice} {cause : Nat} (hc : cause < 256)
    (hst : s.slState n = slRunning ∨ s.slState n = slReady ∨ s.slState n = slRecovering) (hf : (s.ctlOf n).fencing = false) :
    s.GoneSafe (s.enterSafe n cause) n cause := by
  have hneSF : R.SLC_FAULT n ≠ R.SLC_STATE n := by
    simp only [R.SLC_FAULT, R.SLC_STATE]
    omega
  have hneRF : R.SLC_REC_STAT n ≠ R.SLC_FAULT n := by
    simp only [R.SLC_FAULT, R.SLC_REC_STAT]
    omega
  have hneRS : R.SLC_REC_STAT n ≠ R.SLC_STATE n := by
    simp only [R.SLC_STATE, R.SLC_REC_STAT]
    omega
  have hlive : (!(s.slState n == slRunning || s.slState n == slReady || s.slState n == slRecovering) || (s.ctlOf n).fencing) = false := by
    rw [hf]
    rcases hst with h | h | h <;> rw [h] <;> rfl
  unfold State.enterSafe
  extract_lets st s0 s1 c hold s2 s3 s4 s5 s6 s7
  rw [if_neg (by simp only [st, hlive, Bool.false_eq_true, not_false_eq_true])]
  have h0 : s.RecKept RecFld s0 := ((State.RecKept.refl _ s).handOver _ _).ite (.refl _ s)
  have hctl0 : s0.ctlOf n = s.ctlOf n :=
    (show s.Kept CtlReg s0 from ((State.Kept.refl _ s).handOver _ _).ite (.refl _ s)).ctlOf n
  have h01 : s0.RecKept (RecFldBut (R.SLC_REC_STAT n)) s1 :=
    ((s0.rec_recStat n).trans (((State.RecKept.refl RecFld _).descFail n).but _)).ite (.refl _ s0)
  have h13 : s1.RecKept RecFld s3 := (((State.RecKept.refl _ s1).setCtl n _).setArmed n).setArmPend n false
  have h34 : s3.RecKept RecFld s4 := ((((State.RecKept.refl _ s3).dropCle n false).haltPair _).stopDma n)
  have h45 : s4.RecKept RecFld s5 := ((((State.RecKept.refl _ s4).injEnd n 3).ptbEnd n 3).router (State.dropRoutesTo_only _ n))
  have hfault := s5.rec_slFault n cause
  have hset := (s5.slFault n cause).rec_setSl n slSafe
  have h6 : ((s5.slFault n cause).setSl n slSafe).RecKept RecFld s6 := (State.RecKept.refl _ _).heldAttach n
  have h7 : s6.RecKept RecFld s7 := ((State.RecKept.refl _ s6).fenceNow n _).ite (.refl _ s6)
  have hend : ((s5.slFault n cause).setSl n slSafe).RecKept RecFld (s7.pinsSlice n).showSync := ((h6.trans h7).pinsSlice n).showSync
  have hfaultend : (s5.slFault n cause).RecKept (RecFldBut (R.SLC_STATE n)) (s7.pinsSlice n).showSync := hset.trans (hend.but _)
  obtain ⟨hvalid, hcause⟩ := s5.slFault_shows n hc
  refine ⟨?_, ?_, ?_, ?_, ?_, ?_, fun hrec => ⟨s0, hctl0, fun f => ?_⟩⟩
  · rw [hend.slState n, State.slState_setSl _ n (by decide)]
  · rw [hfaultend.isSet ⟨recFld_SLC_FAULT n _, hneSF⟩, hvalid]
  · rw [hfaultend.flds _ _ ⟨recFld_SLC_FAULT n _, hneSF⟩, hcause]
  · exact hfaultend.disarmed _ (hfault.disarmed _ (h45.disarmed _ (h34.disarmed _ (State.armed_of_dropped s2 n))))
  · have hhalt : ((s3.dropCle n false).haltPair (pairOf n)).RecKept RecFld s4 := (State.RecKept.refl _ _).stopDma n
    exact hfaultend.halted _ (hfault.halted _ (h45.halted _ (hhalt.halted _ (State.halted_haltPair _ _))))
  · have hall : ∀ a f, RecFldSafe n a f → RecFld a f := fun _ _ => And.left
    exact (h0.mono hall).trans ((h01.mono fun a f h => ⟨h.1, h.2.2.2⟩).trans
      ((((h13.trans h34).trans h45).mono hall).trans
        ((hfault.mono fun a f h => ⟨h.1, h.2.2.1⟩).trans (hfaultend.mono fun a f h => ⟨h.1, h.2.1⟩))))
  · have hs1 : s1 = (s0.recStat n).descFail n := if_pos (by rw [show st = slRecovering from hrec]; rfl)
    have h1 : (s0.recStat n).RecKept RecFld s1 := by
      rw [hs1]
      exact (State.RecKept.refl _ _).descFail n
    rw [hfaultend.flds _ _ ⟨recFld_SLC_REC_STAT n f, hneRS⟩, hfault.flds _ _ ⟨recFld_SLC_REC_STAT n f, hneRF⟩,
      (((h1.trans h13).trans h34).trans h45).flds _ _ (recFld_SLC_REC_STAT n f)]

end Machine
end Sys2Proof
end

section
/-! PROOFS. The registers of a watchdog, and what a service, a restart and a violation do (R441 to R443). -/

namespace Sys2Proof
namespace Machine

/-! Writes of WDG_SVC. -/

theorem State.sliceWrite_wdg (s : State) (x : Access) (n : Slice) {o : Nat} (a : Nat) (v : Word) (hlo : 0xD000 ≤ o)
    (hhi : o < 0xE000) : s.sliceWrite x n o a v = s.wdgWrite x.m n.castSucc a v := by
  rw [State.sliceWrite, if_neg (by omega), dif_neg (by omega)]
  iterate 11 rw [if_neg (by omega)]
  rw [if_pos hhi]

/-- A served write of WDG_SVC is a service, a restart or a refusal. -/
theorem State.write_WDG_SVC {s : State} {x : Access} {e : Fin 13} (v : Word) (h : s.reaches x (R.WDG_SVC e) = true) :
    s.write x (R.WDG_SVC e) v = s.wdgSvc x.m e (F.WDG_SVC_KEY.get v) false := by
  have hoff : R.WDG_SVC e - wdgBase e = 0xC := by simp only [R.WDG_SVC, Nat.add_sub_cancel_left]
  have hwrite : s.write x (R.WDG_SVC e) v = s.wdgWrite x.m e (R.WDG_SVC e) v := by
    by_cases he : e.val < 12
    · have hbase : R.WDG_SVC e = sliceBase e.val + 0xD00C := by simp only [R.WDG_SVC, wdgBase, he, if_true]
      rw [hbase] at h ⊢
      exact (State.write_sliceReg (n := ⟨e.val, he⟩) v (by decide) h (State.fitted_of_reaches (n := ⟨e.val, he⟩) (by decide) h)).trans
        (s.sliceWrite_wdg x ⟨e.val, he⟩ _ v (by decide) (by decide))
    · have hbase : R.WDG_SVC e = 0x010F000C := by simp only [R.WDG_SVC, wdgBase, he, if_false]
      have hlast : e = 12 := Fin.ext (by omega)
      rw [State.write_deviceReg v (by omega) (by omega) h]
      simp only [hbase, State.deviceWrite]
      rw [hlast]
  rw [hwrite, State.wdgWrite, hoff]
  rfl

theorem wdgKey_get (key : BitVec 16) : F.WDG_SVC_KEY.get (key.setWidth 32) = key.toNat := by
  have hkey := key.isLt
  simp only [Fld.get, F.WDG_SVC_KEY, BitVec.toNat_setWidth]
  omega

/-- The pair that watchdog e watches. -/
def wdgOwn (m : Master) (e : Fin 13) : Bool := (wdgSlice e).elim (m == .sys) (fun n => m == .core n)

/-- The owner of its slice, or the system pair for its own watchdog. -/
def State.wdgOwner (s : State) (m : Master) (e : Fin 13) : Bool := (wdgSlice e).elim m.isSys (fun n => s.ownerIs n m)

theorem State.wdgSvc_eq (s : State) (m : Master) (e : Fin 13) (key : Nat) (coll : Bool) : s.wdgSvc m e key coll =
    if key == 0x5E7A && (wdgOwn m e || s.wdgOwner m e) then s.wdgRestart e coll
    else if wdgOwn m e then s.wdgService e key else s.wdgReject e := by
  unfold State.wdgSvc wdgOwn State.wdgOwner
  cases wdgSlice e <;> rfl

/-- A key that is not the restart key is a service of the pair itself, and is refused to others. -/
theorem State.write_wdgService {s : State} {x : Access} {e : Fin 13} {key : BitVec 16} (h : s.reaches x (R.WDG_SVC e) = true)
    (hkey : key.toNat ≠ 0x5E7A) : s.write x (R.WDG_SVC e) (key.setWidth 32) =
      if wdgOwn x.m e then s.wdgService e key.toNat else s.wdgReject e := by
  rw [State.write_WDG_SVC _ h, State.wdgSvc_eq, wdgKey_get, beq_false_of_ne hkey, Bool.false_and, if_neg Bool.false_ne_true]

/-! A service (R442). -/

/-- The key that the next service is to carry. -/
def State.wdgKey (s : State) (e : Fin 13) : Nat := if s.isSet (R.WDG_STAT e) F.WDG_STAT_EXPECT then 0xC369 else 0x3C96

/-- Neither key is the restart key. -/
theorem State.wdgKey_ne (s : State) (e : Fin 13) : s.wdgKey e ≠ 0x5E7A := by
  unfold State.wdgKey
  split <;> decide

theorem State.wdgService_early {s : State} {e : Fin 13} (hrun : s.wdgRuns e = true) (hfirst : s.wdgFirst.get e = false)
    (hlow : s.getF (R.WDG_CNT e) F.WDG_CNT_US < s.getF (R.WDG_LOWER e) F.WDG_LOWER_US) :
    s.wdgService e (s.wdgKey e) = s.wdgViolate e F.WDG_STAT_EARLY_F := by
  simp [State.wdgService, State.wdgKey, hrun, hfirst, hlow]

theorem State.wdgService_wrong {s : State} {e : Fin 13} {key : Nat} (hrun : s.wdgRuns e = true) (hkey : key ≠ s.wdgKey e) :
    s.wdgService e key = s.wdgViolate e F.WDG_STAT_KEY_F := by
  have hne : (key != (if s.isSet (R.WDG_STAT e) F.WDG_STAT_EXPECT then 0xC369 else 0x3C96)) = true := bne_iff_ne.mpr hkey
  simp only [State.wdgService, hrun, hne, Bool.not_true, Bool.false_eq_true, if_false, if_true]

/-- The count starts again at 0 and the other key is expected. -/
def State.wdgServed (s : State) (e : Fin 13) : State :=
  { (s.setReg (R.WDG_CNT e) 0).setB (R.WDG_STAT e) F.WDG_STAT_EXPECT (!s.isSet (R.WDG_STAT e) F.WDG_STAT_EXPECT) with
    wdgFirst := s.wdgFirst.set e false }

theorem State.wdgService_good {s : State} {e : Fin 13} (hrun : s.wdgRuns e = true)
    (hlow : s.wdgFirst.get e = true ∨ s.getF (R.WDG_LOWER e) F.WDG_LOWER_US ≤ s.getF (R.WDG_CNT e) F.WDG_CNT_US)
    (hper : s.getF (R.WDG_CNT e) F.WDG_CNT_US < s.getF (R.WDG_PERIOD e) F.WDG_PERIOD_US) :
    s.wdgService e (s.wdgKey e) = s.wdgServed e := by
  have hearly : (!s.wdgFirst.get e && decide (s.getF (R.WDG_CNT e) F.WDG_CNT_US < s.getF (R.WDG_LOWER e) F.WDG_LOWER_US)) = false := by
    rcases hlow with h | h
    · rw [h]
      rfl
    · rw [decide_eq_false (by omega), Bool.and_false]
  have hkey : (s.wdgKey e != (if s.isSet (R.WDG_STAT e) F.WDG_STAT_EXPECT then 0xC369 else 0x3C96)) = false := bne_self_eq_false _
  simp only [State.wdgService, hrun, hkey, hearly, Nat.not_le.mpr hper, Bool.not_true, Bool.false_eq_true, if_false]
  rfl

theorem WDG_CNT_ne_STAT (e : Nat) : R.WDG_CNT e ≠ R.WDG_STAT e := by simp [R.WDG_CNT, R.WDG_STAT]

theorem WDG_REJ_ne_STAT (e : Nat) : R.WDG_REJ e ≠ R.WDG_STAT e := by simp [R.WDG_REJ, R.WDG_STAT]

theorem WDG_REJ_ne_CNT (e : Nat) : R.WDG_REJ e ≠ R.WDG_CNT e := by simp [R.WDG_REJ, R.WDG_CNT]

theorem WDG_CTRL_ne_STAT (e : Nat) : R.WDG_CTRL e ≠ R.WDG_STAT e := by simp [R.WDG_CTRL, R.WDG_STAT]

theorem WDG_CTRL_ne_CNT (e : Nat) : R.WDG_CTRL e ≠ R.WDG_CNT e := by simp [R.WDG_CTRL, R.WDG_CNT]

theorem State.wdgServed_regs (s : State) (e : Fin 13) :
    s.RegsKept (s.wdgServed e) (fun a => a == R.WDG_CNT e || a == R.WDG_STAT e) := fun a ha => by
  simp only [Bool.or_eq_false_iff, beq_eq_false_iff_ne] at ha
  exact (State.reg_setF_ne _ _ _ _ _ ha.2).trans (State.reg_setReg_ne _ _ _ _ ha.1)

theorem State.wdgServed_cnt (s : State) (e : Fin 13) : (s.wdgServed e).getF (R.WDG_CNT e) F.WDG_CNT_US = 0 := by
  have h : (s.wdgServed e).reg (R.WDG_CNT e) = 0 := (State.reg_setF_ne _ _ _ _ _ (WDG_CNT_ne_STAT e)).trans (State.reg_setReg_self _ _ _)
  rw [State.getF, h]
  decide

theorem State.wdgServed_stat (s : State) (e : Fin 13) {f : Fld} (hf : F.WDG_STAT_EXPECT.lo + F.WDG_STAT_EXPECT.width ≤ f.lo ∨ f.lo + f.width ≤ F.WDG_STAT_EXPECT.lo) :
    (s.wdgServed e).isSet (R.WDG_STAT e) f = s.isSet (R.WDG_STAT e) f := by
  have h : (s.wdgServed e).getF (R.WDG_STAT e) f = s.getF (R.WDG_STAT e) f :=
    (State.getF_setF_fld _ _ _ _ _ (by decide) hf).trans (congrArg f.get (State.reg_setReg_ne _ _ _ _ (WDG_CNT_ne_STAT e).symm))
  rw [State.isSet, h, State.isSet]

theorem State.wdgServed_expect (s : State) (e : Fin 13) :
    (s.wdgServed e).isSet (R.WDG_STAT e) F.WDG_STAT_EXPECT = !s.isSet (R.WDG_STAT e) F.WDG_STAT_EXPECT :=
  State.isSet_setB _ _ _ _ (by decide) (by decide)

theorem State.wdgServed_first (s : State) (e : Fin 13) : (s.wdgServed e).wdgFirst.get e = false := by
  change (s.wdgFirst.set e.val false e.isLt).get e = false
  rw [vget_set, if_pos rfl]

/-! A restart (R443). -/

theorem State.wdgStart_shows {s : State} {e : Fin 13} (hen : s.isSet (R.WDG_CTRL e) F.WDG_CTRL_EN = true) :
    (s.wdgStart e).wdgRuns e = true ∧ (s.wdgStart e).getF (R.WDG_CNT e) F.WDG_CNT_US = 0 ∧
    (s.wdgStart e).isSet (R.WDG_STAT e) F.WDG_STAT_EXPECT = false ∧ (s.wdgStart e).wdgFirst.get e = true ∧
    (s.wdgStart e).isSet (R.WDG_STAT e) F.WDG_STAT_EXPIRED = s.isSet (R.WDG_STAT e) F.WDG_STAT_EXPIRED ∧
    (∀ a, a ≠ R.WDG_CNT e → a ≠ R.WDG_STAT e → (s.wdgStart e).reg a = s.reg a) ∧
    s.wdgStart e = { s with regs := (s.wdgStart e).regs, wdgFirst := (s.wdgStart e).wdgFirst } := by
  have heq : s.wdgStart e = { (((s.setReg (R.WDG_CNT e) 0).setF (R.WDG_STAT e) F.WDG_STAT_RUN 1).setF (R.WDG_STAT e)
      F.WDG_STAT_EXPECT 0) with wdgFirst := s.wdgFirst.set e true } := if_pos hen
  have hreg : ∀ a, (s.wdgStart e).reg a = (((s.setReg (R.WDG_CNT e) 0).setF (R.WDG_STAT e) F.WDG_STAT_RUN 1).setF (R.WDG_STAT e)
      F.WDG_STAT_EXPECT 0).reg a := fun a => by
    rw [heq]
    rfl
  have hother : ∀ a, a ≠ R.WDG_CNT e → a ≠ R.WDG_STAT e → (s.wdgStart e).reg a = s.reg a := fun a hc hs => by
    rw [hreg, State.reg_setF_ne _ _ _ _ _ hs, State.reg_setF_ne _ _ _ _ _ hs, State.reg_setReg_ne _ _ _ _ hc]
  refine ⟨?_, ?_, ?_, ?_, ?_, hother, ?_⟩
  · rw [State.wdgRuns, State.isSet, State.getF, hreg, ← State.getF, State.getF_setF_fld _ _ _ _ _ (by decide) (by decide),
      State.getF_setF_of_lt _ _ _ _ (by decide) (by decide)]
    rfl
  · rw [State.getF, hreg, State.reg_setF_ne _ _ _ _ _ (WDG_CNT_ne_STAT e), State.reg_setF_ne _ _ _ _ _ (WDG_CNT_ne_STAT e),
      State.reg_setReg_self]
    decide
  · rw [State.isSet, State.getF, hreg, ← State.getF, State.getF_setF_of_lt _ _ _ _ (by decide) (by decide)]
    rfl
  · rw [heq]
    change (s.wdgFirst.set e.val true e.isLt).get e = true
    rw [vget_set, if_pos rfl]
  · rw [State.isSet, State.getF, hreg, ← State.getF, State.getF_setF_fld _ _ _ _ _ (by decide) (by decide),
      State.getF_setF_fld _ _ _ _ _ (by decide) (by decide), State.getF, State.reg_setReg_ne _ _ _ _ (WDG_CNT_ne_STAT e).symm]
    rfl
  · rw [heq]
    rfl

end Machine
end Sys2Proof
end

section
/-! PROOFS. Watchdogs: the settling theorem (R441 to R443). -/

namespace Sys2Proof
namespace Machine

theorem wdgSlice_of_lt {e : Fin 13} {n : Slice} (h : e.val = n.val) : wdgSlice e = some n := by
  unfold wdgSlice
  rw [dif_pos (h ▸ n.isLt)]
  simp only [h]

theorem routerReg_wdg (e : Fin 13) {o : Nat} (ho : o < 0x1000) : routerReg (wdgBase e + o) = false := by
  simp only [routerReg, Bool.or_eq_false_iff, Bool.and_eq_false_iff, decide_eq_false_iff_not]
  by_cases he : e.val < 12
  · simp only [wdgBase, if_pos he, sliceBase]
    omega
  · simp only [wdgBase, if_neg he]
    omega

theorem routerReg_WDG_STAT (e : Fin 13) : routerReg (R.WDG_STAT e) = false := routerReg_wdg e (by decide)

theorem routerReg_WDG_CTRL (e : Fin 13) : routerReg (R.WDG_CTRL e) = false := routerReg_wdg e (by decide)

theorem routerReg_WDG_CNT (e : Fin 13) : routerReg (R.WDG_CNT e) = false := routerReg_wdg e (by decide)

/-! A violation (R443). -/

/-- EXPIRED and the flag of a violation, with its event. -/
def State.wdgFlagged (s : State) (e : Fin 13) (n : Slice) (flag : Fld) : State :=
  ((s.setF (R.WDG_STAT e) F.WDG_STAT_EXPIRED 1).setF (R.WDG_STAT e) flag 1).fireLocal n 16

/-- A flag of a violation is one of the three causes. -/
def WdgCause (flag : Fld) : Prop := flag = F.WDG_STAT_EXP_F ∨ flag = F.WDG_STAT_KEY_F ∨ flag = F.WDG_STAT_EARLY_F

theorem State.wdgFlagged_reg (s : State) (e : Fin 13) (n : Slice) (flag : Fld) {a : Nat} (ha : routerReg a = false)
    (hne : a ≠ R.WDG_STAT e) : (s.wdgFlagged e n flag).reg a = s.reg a := by
  rw [State.wdgFlagged, State.fireLocal_reg _ _ _ _ ha, State.reg_setF_ne _ _ _ _ _ hne, State.reg_setF_ne _ _ _ _ _ hne]

theorem State.wdgFlagged_shows (s : State) (e : Fin 13) (n : Slice) {flag : Fld} (hflag : WdgCause flag) :
    (s.wdgFlagged e n flag).isSet (R.WDG_STAT e) F.WDG_STAT_EXPIRED = true ∧ (s.wdgFlagged e n flag).isSet (R.WDG_STAT e) flag = true := by
  have hreg : ∀ f, (s.wdgFlagged e n flag).isSet (R.WDG_STAT e) f =
      ((s.setF (R.WDG_STAT e) F.WDG_STAT_EXPIRED 1).setF (R.WDG_STAT e) flag 1).isSet (R.WDG_STAT e) f := fun f => by
    rw [State.wdgFlagged, State.isSet, State.getF, State.fireLocal_reg _ _ _ _ (routerReg_WDG_STAT e)]
    rfl
  have hw : flag.lo + flag.width ≤ 32 ∧ 1 < 2 ^ flag.width ∧ F.WDG_STAT_EXPIRED.lo + F.WDG_STAT_EXPIRED.width ≤ flag.lo := by
    rcases hflag with rfl | rfl | rfl <;> decide
  obtain ⟨hfit, hpow, hbelow⟩ := hw
  refine ⟨?_, ?_⟩
  · rw [hreg, State.isSet, State.getF_setF_fld _ _ _ _ _ hfit (.inr hbelow), State.getF_setF_of_lt _ _ _ _ (by decide) (by decide)]
    rfl
  · rw [hreg, State.isSet, State.getF_setF_of_lt _ _ _ _ hfit hpow]
    rfl

theorem State.wdgViolate_eq {s : State} {e : Fin 13} {n : Slice} (hn : e.val = n.val) (flag : Fld) : s.wdgViolate e flag =
    if s.isSet (R.WDG_CTRL e) F.WDG_CTRL_ACT then (s.wdgFlagged e n flag).enterSafe n 0x0B else s.wdgFlagged e n flag := by
  have hact : (s.wdgFlagged e n flag).isSet (R.WDG_CTRL e) F.WDG_CTRL_ACT = s.isSet (R.WDG_CTRL e) F.WDG_CTRL_ACT := by
    rw [State.isSet, State.getF, s.wdgFlagged_reg e n flag (routerReg_WDG_CTRL e) (WDG_CTRL_ne_STAT e)]
    rfl
  unfold State.wdgViolate
  extract_lets a s1
  rw [wdgSlice_of_lt hn, ← hact]
  rfl

/-- Without ACT a violation is told, and nothing else (R443). -/
theorem State.wdgViolate_quiet {s : State} {e : Fin 13} (he : e.val < 12) (hact : s.isSet (R.WDG_CTRL e) F.WDG_CTRL_ACT = false)
    (flag : Fld) : ∃ n : Slice, s.wdgViolate e flag = s.wdgFlagged e n flag := by
  refine ⟨⟨e.val, he⟩, ?_⟩
  rw [State.wdgViolate_eq (n := ⟨e.val, he⟩) rfl, hact]
  rfl

theorem State.wdgFlagged_slState (s : State) (e : Fin 13) (k : Slice) (flag : Fld) (n : Slice) :
    (s.wdgFlagged e k flag).slState n = s.slState n := by
  have hne : R.SLC_STATE n ≠ R.WDG_STAT e := by
    simp only [R.SLC_STATE, R.WDG_STAT, wdgBase, sliceBase]
    by_cases he : e.val < 12
    · rw [if_pos he]
      omega
    · rw [if_neg he]
      omega
  rw [State.slState, State.getF, s.wdgFlagged_reg e k flag (routerReg_of_ctlReg (ctlReg_SLC_STATE n)) hne]
  rfl

theorem State.wdgFlagged_cells (s : State) (e : Fin 13) (n : Slice) (flag : Fld) : (s.wdgFlagged e n flag).cells = s.cells := by
  rw [State.wdgFlagged, State.fireLocal, State.fire_cells]
  rfl

theorem State.wdgFlagged_ctlOf (s : State) (e : Fin 13) (k : Slice) (flag : Fld) (n : Slice) :
    (s.wdgFlagged e k flag).ctlOf n = s.ctlOf n := by
  rw [State.wdgFlagged, State.fireLocal, State.ctlOf, State.fire_ctl]
  rfl

theorem State.wdgFlagged_cnt (s : State) (e : Fin 13) (n : Slice) (flag : Fld) :
    (s.wdgFlagged e n flag).getF (R.WDG_CNT e) F.WDG_CNT_US = s.getF (R.WDG_CNT e) F.WDG_CNT_US := by
  rw [State.getF, s.wdgFlagged_reg e n flag (routerReg_WDG_CNT e) (WDG_CNT_ne_STAT e)]
  rfl

/-- With ACT it takes a READY or RUNNING slice to SAFE with cause 0x0B (R443). -/
theorem State.wdgViolate_acts {s : State} {e : Fin 13} {n : Slice} {flag : Fld} (hn : e.val = n.val) (hflag : WdgCause flag)
    (hst : s.slState n = slReady ∨ s.slState n = slRunning) (hact : s.isSet (R.WDG_CTRL e) F.WDG_CTRL_ACT = true)
    (hf : (s.ctlOf n).fencing = false) :
    (s.wdgViolate e flag).isSet (R.WDG_STAT e) F.WDG_STAT_EXPIRED = true ∧ (s.wdgViolate e flag).isSet (R.WDG_STAT e) flag = true ∧
    (s.wdgViolate e flag).slState n = slSafe ∧ (s.wdgViolate e flag).isSet (R.SLC_FAULT n) F.SLC_FAULT_VALID = true ∧
    (s.wdgViolate e flag).getF (R.SLC_FAULT n) F.SLC_FAULT_CAUSE = 0x0B ∧ (s.wdgViolate e flag).armed n = false := by
  have hviolate : s.wdgViolate e flag = (s.wdgFlagged e n flag).enterSafe n 0x0B := by rw [State.wdgViolate_eq hn, if_pos hact]
  obtain ⟨hexpired, hset⟩ := s.wdgFlagged_shows e n hflag
  have hgone : State.GoneSafe _ ((s.wdgFlagged e n flag).enterSafe n 0x0B) n 0x0B := State.enterSafe_goes (by decide)
    (by rw [State.wdgFlagged_slState]; exact hst.elim (fun h => .inr (.inl h)) .inl) (by rw [State.wdgFlagged_ctlOf]; exact hf)
  have hkept : ∀ f, (f = F.WDG_STAT_EXPIRED ∨ WdgCause f) → (s.wdgViolate e flag).isSet (R.WDG_STAT e) f =
      (s.wdgFlagged e n flag).isSet (R.WDG_STAT e) f := fun f hf => by
    rw [hviolate, show R.WDG_STAT e = R.WDG_STAT n from congrArg R.WDG_STAT hn]
    refine hgone.recs.isSet ⟨recFld_WDG_STAT n hf, ?_, ?_, ?_⟩ <;>
      simp only [R.WDG_STAT, R.SLC_STATE, R.SLC_FAULT, R.SLC_REC_STAT, wdgBase_slice] <;> omega
  refine ⟨(hkept _ (.inl rfl)).trans hexpired, (hkept _ (.inr hflag)).trans hset, ?_, ?_, ?_, ?_⟩ <;> rw [hviolate]
  · exact hgone.slState
  · exact hgone.valid
  · exact hgone.cause
  · exact hgone.disarmed

/-! A restart and its counts (R443). -/

theorem State.wdgReject_counts (s : State) (e : Fin 13) : (s.wdgReject e).getF (R.WDG_REJ e) F.WDG_REJ_COUNT =
    min F.WDG_REJ_COUNT.top (s.getF (R.WDG_REJ e) F.WDG_REJ_COUNT + 1) :=
  State.getF_count _ _ _ (by decide)

theorem State.wdgReject_reg (s : State) (e : Fin 13) {a : Nat} (h : a ≠ R.WDG_REJ e) : (s.wdgReject e).reg a = s.reg a :=
  State.reg_setF_ne _ _ _ _ _ h

end Machine
end Sys2Proof
end

section
/-! PROOFS. Watchdogs: the settling theorem (R441 to R443). -/

namespace Sys2Proof
namespace Machine

/-- A restart that falls in the microsecond of a violation reaches the watchdog as another write does. -/
theorem State.wdgRestartWrite_eq {s : State} {x : Access} {e : Fin 13} (h : s.reaches x (R.WDG_SVC e) = true) (coll : Bool) :
    s.wdgRestartWrite x e coll = s.wdgSvc x.m e 0x5E7A coll := by
  have hkey : F.WDG_SVC_KEY.get 0x5E7A#32 = 0x5E7A := by decide
  cases coll with
  | false => exact (State.write_WDG_SVC 0x5E7A h).trans (congrArg (s.wdgSvc x.m e · false) hkey)
  | true =>
    have hmbx : ¬ mbxBase ≤ R.WDG_SVC e := by
      have he := e.isLt
      simp only [mbxBase, R.WDG_SVC, wdgBase, sliceBase]
      by_cases h : e.val < 12
      · rw [if_pos h]
        omega
      · rw [if_neg h]
        omega
    have htakes := (Bool.and_eq_true_iff.mp h).1
    simp only [State.takesWrite, Bool.and_eq_true, Bool.not_eq_true'] at htakes
    obtain ⟨⟨⟨⟨⟨⟨⟨hbus, hearly⟩, -⟩, -⟩, -⟩, hreach⟩, habsent⟩, -⟩ := htakes
    have hup : (match x.m with
        | .fn _ => s.isSet R.DEV_BOOT_STAT F.DEV_BOOT_STAT_DONE
        | _ => true) = true := by
      cases hm : x.m with
      | fn f => simpa [State.early, hm, hmbx] using hearly
      | _ => rfl
    unfold State.wdgRestartWrite
    extract_lets up
    rw [if_pos (by simp only [show up = true from hup, hbus, hreach, habsent, Bool.not_false, Bool.and_self])]

/-- The pair's own violation by a wrong key, whatever the key. -/
theorem State.write_wdgWrong {s : State} {x : Access} {e : Fin 13} {key : BitVec 16} (hr : s.reaches x (R.WDG_SVC e) = true)
    (hown : wdgOwn x.m e = true) (hrun : s.wdgRuns e = true) (hkey : key.toNat ≠ s.wdgKey e) (hne : key ≠ 0x5E7A) :
    s.write x (R.WDG_SVC e) (key.setWidth 32) = s.wdgViolate e F.WDG_STAT_KEY_F := by
  have hnat : key.toNat ≠ 0x5E7A := fun h => hne (BitVec.eq_of_toNat_eq h)
  rw [State.write_wdgService hr hnat, if_pos hown, State.wdgService_wrong hrun hkey]

/-- The pair's service with the expected key. -/
theorem State.write_wdgKey {s : State} {x : Access} {e : Fin 13} {key : BitVec 16} (hr : s.reaches x (R.WDG_SVC e) = true)
    (hown : wdgOwn x.m e = true) (hkey : key.toNat = s.wdgKey e) :
    s.write x (R.WDG_SVC e) (key.setWidth 32) = s.wdgService e (s.wdgKey e) := by
  rw [State.write_wdgService hr (hkey ▸ s.wdgKey_ne e), if_pos hown, hkey]

/-- The state in which a restart starts the count: EXPIRED is clear. -/
def State.wdgCleared (s : State) (e : Fin 13) : State := s.setF (R.WDG_STAT e) F.WDG_STAT_EXPIRED 0

theorem State.wdgRestart_eq {s : State} {e : Fin 13} (hmay : s.wdgMayRun e = true) (coll : Bool) :
    s.wdgRestart e coll = if coll then ((s.wdgCleared e).wdgStart e).wdgReject e else (s.wdgCleared e).wdgStart e := by
  have hst : ∀ n : Slice, (s.wdgCleared e).slState n = s.slState n := fun n =>
    State.getF_setF_reg _ _ _ _ _ _ (by
      simp only [R.SLC_STATE, R.WDG_STAT, wdgBase, sliceBase]
      by_cases he : e.val < 12
      · rw [if_pos he]
        omega
      · rw [if_neg he]
        omega)
  have hmay' : (s.wdgCleared e).wdgMayRun e = true := by
    rw [← hmay]
    unfold State.wdgMayRun
    split
    · rw [hst]
    · rfl
  unfold State.wdgRestart
  extract_lets s1 s2
  have h2 : s2 = (s.wdgCleared e).wdgStart e := if_pos hmay'
  rw [h2]

theorem State.wdgCleared_reg (s : State) (e : Fin 13) {a : Nat} (h : a ≠ R.WDG_STAT e) : (s.wdgCleared e).reg a = s.reg a :=
  State.reg_setF_ne _ _ _ _ _ h

/-- The count before its violation: it stands at PERIOD. -/
def State.wdgFull (s : State) (e : Fin 13) : State := s.setF (R.WDG_CNT e) F.WDG_CNT_US (s.getF (R.WDG_PERIOD e) F.WDG_PERIOD_US)

theorem State.wdgFull_reg (s : State) (e : Fin 13) {a : Nat} (h : a ≠ R.WDG_CNT e) : (s.wdgFull e).reg a = s.reg a :=
  State.reg_setF_ne _ _ _ _ _ h

theorem State.wdgFull_isSet (s : State) (e : Fin 13) (f : Fld) : (s.wdgFull e).isSet (R.WDG_CTRL e) f = s.isSet (R.WDG_CTRL e) f := by
  rw [State.isSet, State.getF, s.wdgFull_reg e (WDG_CTRL_ne_CNT e)]
  rfl

theorem State.wdgFull_slState (s : State) (e : Fin 13) (n : Slice) : (s.wdgFull e).slState n = s.slState n :=
  State.getF_setF_reg _ _ _ _ _ _ (by
    simp only [R.SLC_STATE, R.WDG_CNT, wdgBase, sliceBase]
    by_cases he : e.val < 12
    · rw [if_pos he]
      omega
    · rw [if_neg he]
      omega)

theorem State.wdgExpire_eq {s : State} {e : Fin 13} (hrun : s.wdgRuns e = true) :
    s.wdgExpire e = (s.wdgFull e).wdgViolate e F.WDG_STAT_EXP_F := if_pos hrun

/-- What a restart shows, whether or not it is counted for a collision. -/
theorem State.wdgRestart_shows {s : State} {e : Fin 13} (hen : s.isSet (R.WDG_CTRL e) F.WDG_CTRL_EN = true)
    (hmay : s.wdgMayRun e = true) (coll : Bool) :
    (s.wdgRestart e coll).isSet (R.WDG_STAT e) F.WDG_STAT_EXPIRED = false ∧ (s.wdgRestart e coll).wdgRuns e = true ∧
    (s.wdgRestart e coll).getF (R.WDG_CNT e) F.WDG_CNT_US = 0 ∧
    (s.wdgRestart e coll).isSet (R.WDG_STAT e) F.WDG_STAT_EXPECT = false ∧ (s.wdgRestart e coll).wdgFirst.get e = true ∧
    ((s.wdgRestart e coll).getF (R.WDG_REJ e) F.WDG_REJ_COUNT = if coll then
      min F.WDG_REJ_COUNT.top (s.getF (R.WDG_REJ e) F.WDG_REJ_COUNT + 1) else s.getF (R.WDG_REJ e) F.WDG_REJ_COUNT) ∧
    s.wdgRestart e coll = { s with regs := (s.wdgRestart e coll).regs, wdgFirst := (s.wdgRestart e coll).wdgFirst } := by
  have hen' : (s.wdgCleared e).isSet (R.WDG_CTRL e) F.WDG_CTRL_EN = true := by
    rw [State.isSet, State.getF, s.wdgCleared_reg e (WDG_CTRL_ne_STAT e)]
    exact hen
  obtain ⟨hrun, hcnt, hexp, hfirst, hexpired, hregs, hrest⟩ := State.wdgStart_shows hen'
  have hclear : (s.wdgCleared e).isSet (R.WDG_STAT e) F.WDG_STAT_EXPIRED = false := by
    rw [State.isSet, State.wdgCleared, State.getF_setF_of_lt _ _ _ _ (by decide) (by decide)]
    rfl
  have hrej : ((s.wdgCleared e).wdgStart e).getF (R.WDG_REJ e) F.WDG_REJ_COUNT = s.getF (R.WDG_REJ e) F.WDG_REJ_COUNT := by
    rw [State.getF, hregs _ (WDG_REJ_ne_CNT e) (WDG_REJ_ne_STAT e), s.wdgCleared_reg e (WDG_REJ_ne_STAT e)]
    rfl
  have heq : (s.wdgCleared e).wdgStart e = { s with regs := ((s.wdgCleared e).wdgStart e).regs, wdgFirst := ((s.wdgCleared e).wdgStart e).wdgFirst } := hrest
  rw [State.wdgRestart_eq hmay]
  cases coll with
  | false => exact ⟨hexpired.trans hclear, hrun, hcnt, hexp, hfirst, hrej, heq⟩
  | true =>
    have hstat : ∀ f, (((s.wdgCleared e).wdgStart e).wdgReject e).isSet (R.WDG_STAT e) f = ((s.wdgCleared e).wdgStart e).isSet (R.WDG_STAT e) f :=
      fun f => by
        rw [State.isSet, State.getF, State.wdgReject_reg _ _ (WDG_REJ_ne_STAT e).symm]
        rfl
    have hcnt' : (((s.wdgCleared e).wdgStart e).wdgReject e).getF (R.WDG_CNT e) F.WDG_CNT_US = 0 := by
      rw [State.getF, State.wdgReject_reg _ _ (WDG_REJ_ne_CNT e).symm]
      exact hcnt
    refine ⟨(hstat _).trans (hexpired.trans hclear), (hstat _).trans hrun, hcnt', (hstat _).trans hexp, hfirst, ?_, ?_⟩
    · rw [if_pos rfl, if_pos rfl, State.wdgReject_counts, hrej]
    · rw [if_pos rfl, State.wdgReject, State.count, State.setF, State.setReg, heq]

/-- Settles O45: each write of WDG_SVC is a service, a restart or a refusal by who writes which key; a violation sets EXPIRED with its
flag, and with ACT the slice goes to SAFE. -/
theorem watchdogs : Obligations.Watchdogs := by
  unfold Obligations.Watchdogs
  refine ⟨fun s x e key hr hown hrun hkey hlow hper => ?_, fun s x e key hr hown hrun he hact hkey hne => ?_,
    fun s x e key hr hown hrun he hact hkey hfirst hlow => ?_, fun s x e coll hr hmaster hen hmay => ?_,
    fun s x e key hr hown hne => ?_, fun s n e hn hrun hfit hst hact hf => ?_,
    fun s n e x key hn hrun hfit hst hact hf hr hown hkey hne => ?_, fun s e hrun he hact => ?_⟩
  · refine ⟨s.wdgServed e, congrArg Host.Outcome.next ?_, s.wdgServed_cnt e, s.wdgServed_expect e, s.wdgServed_stat e (by decide),
      (s.wdgServed_stat e (by decide)).trans hrun, s.wdgServed_first e, rfl, s.wdgServed_regs e⟩
    rw [State.write_wdgKey hr hown hkey, State.wdgService_good hrun hlow hper]
  · obtain ⟨n, hquiet⟩ := State.wdgViolate_quiet he hact F.WDG_STAT_KEY_F
    obtain ⟨hexpired, hset⟩ := s.wdgFlagged_shows e n (.inr (.inl rfl))
    refine ⟨_, congrArg Host.Outcome.next ((State.write_wdgWrong hr hown hrun hkey hne).trans hquiet), hexpired, hset,
      s.wdgFlagged_cnt e n _, s.wdgFlagged_slState e n _, s.wdgFlagged_cells e n _⟩
  · obtain ⟨n, hquiet⟩ := State.wdgViolate_quiet he hact F.WDG_STAT_EARLY_F
    obtain ⟨hexpired, hset⟩ := s.wdgFlagged_shows e n (.inr (.inr rfl))
    exact ⟨_, congrArg Host.Outcome.next ((State.write_wdgKey hr hown hkey).trans ((State.wdgService_early hrun hfirst hlow).trans hquiet)),
      hexpired, hset, s.wdgFlagged_cells e n _⟩
  · refine ⟨s.wdgRestart e coll, congrArg Host.Outcome.next ?_, State.wdgRestart_shows hen hmay coll⟩
    have hmay' : (wdgOwn x.m e || s.wdgOwner x.m e) = true := Bool.or_eq_true_iff.mpr hmaster
    rw [State.wdgRestartWrite_eq hr, State.wdgSvc_eq, hmay']
    rfl
  · refine ⟨s.wdgReject e, congrArg Host.Outcome.next ?_, s.wdgReject_reg e (WDG_REJ_ne_STAT e).symm,
      s.wdgReject_reg e (WDG_REJ_ne_CNT e).symm, s.wdgReject_counts e, rfl⟩
    have hnat : key.toNat ≠ 0x5E7A := fun h => hne (BitVec.eq_of_toNat_eq h)
    rw [State.write_wdgService hr hnat, show wdgOwn x.m e = false from hown]
    rfl
  · refine ⟨_, congrArg Host.Outcome.next (State.wdgExpire_eq hrun), State.wdgViolate_acts hn (.inl rfl) ?_ ?_ hf⟩
    · rw [State.wdgFull_slState]
      exact hst
    · rw [State.wdgFull_isSet]
      exact hact
  · exact ⟨_, congrArg Host.Outcome.next (State.write_wdgWrong hr hown hrun hkey hne),
      State.wdgViolate_acts hn (.inr (.inl rfl)) hst hact hf⟩
  · obtain ⟨n, hquiet⟩ := State.wdgViolate_quiet (s := s.wdgFull e) he ((s.wdgFull_isSet e _).trans hact) F.WDG_STAT_EXP_F
    obtain ⟨hexpired, hset⟩ := (s.wdgFull e).wdgFlagged_shows e n (.inl rfl)
    refine ⟨_, congrArg Host.Outcome.next ((State.wdgExpire_eq hrun).trans hquiet), hexpired, hset, ?_, (s.wdgFull e).wdgFlagged_cells e n _⟩
    rw [State.wdgFlagged_cnt]
    exact State.getF_setF_of_lt _ _ _ _ (by decide) (State.getF_lt _ _ _)

end Machine
end Sys2Proof
end

section
/-! PROOFS. How a slice enters RECOVERING and leaves it: the control of the slice and its records (R387 to R389). -/

namespace Sys2Proof
namespace Machine

/-! A change that leaves the control of the slices and its registers. -/

/-- `t` holds the control of the slices as `s` does, and the registers that show it. -/
structure State.CtlKept (s t : State) : Prop where
  ctl : t.ctl = s.ctl
  regs : ∀ a, CtlReg a → t.reg a = s.reg a

namespace State.CtlKept

variable {s t u : State}

theorem refl (s : State) : s.CtlKept s := ⟨rfl, fun _ _ => rfl⟩

theorem trans (h : s.CtlKept t) (k : t.CtlKept u) : s.CtlKept u := ⟨k.ctl.trans h.ctl, fun a ha => (k.regs a ha).trans (h.regs a ha)⟩

theorem ite {c : Prop} [Decidable c] (h : s.CtlKept t) (k : s.CtlKept u) : s.CtlKept (if c then t else u) := by
  split <;> assumption

theorem ctlOf (h : s.CtlKept t) (n : Fin 12) : t.ctlOf n = s.ctlOf n := congrArg (fun c => c.get n) h.ctl

theorem isSet (h : s.CtlKept t) {a : Nat} (ha : CtlReg a) (f : Fld) : t.isSet a f = s.isSet a f :=
  congrArg (fun w => f.get w == 1) (h.regs a ha)

theorem slState (h : s.CtlKept t) (n : Slice) : t.slState n = s.slState n := congrArg F.SLC_STATE_STATE.get (h.regs _ (ctlReg_SLC_STATE n))

theorem elsewhere (h : s.CtlKept t) (hu : (u.ctl, u.regs) = (t.ctl, t.regs)) : s.CtlKept u :=
  h.trans ⟨(Prod.ext_iff.mp hu).1, fun a _ => congrArg (SMap.get resetOf · a) (Prod.ext_iff.mp hu).2⟩

theorem setReg (h : s.CtlKept t) {a : Nat} (v : Word) (ha : ¬ CtlReg a) : s.CtlKept (t.setReg a v) :=
  h.trans ⟨rfl, fun b hb => t.reg_setReg_ne a v b (fun e => ha (e ▸ hb))⟩

theorem kept (h : s.CtlKept t) (k : t.Kept CtlReg u) : s.CtlKept u := h.trans ⟨k.ctl, k.regs⟩

theorem fire (h : s.CtlKept t) (src : Nat) : s.CtlKept (t.fire src) := h.kept ((State.Kept.refl _ t).fire src)

/-- A register of the device below the slices and above DEV. -/
theorem setDevReg (h : s.CtlKept t) {a : Nat} (v : Word) (ha : 0x01010000 ≤ a ∧ a < 0x02000000) : s.CtlKept (t.setReg a v) :=
  h.setReg v (by
    simp only [CtlReg, SlcReg]
    omega)

theorem setCell (h : s.CtlKept t) (a : Nat) (c : Cell) : s.CtlKept (t.setCell a c) := by
  have hcopy : s.CtlKept (t.setCopyCell a c) := by
    unfold State.setCopyCell
    extract_lets a4 b s1
    exact State.CtlKept.ite (h.elsewhere (by rfl)) (foldl_keeps (State.CtlKept s) (fun (t : State) i => t.setCopyByte (b + i) (c.v.toNat / 256 ^ i)) _ s1
      (h.elsewhere (by rfl)) (fun u i hu => hu.elsewhere (by rfl)))
  exact hcopy.ite (h.elsewhere (by rfl))

theorem setDevF (h : s.CtlKept t) {a : Nat} (f : Fld) (v : Nat) (ha : 0x01010000 ≤ a ∧ a < 0x02000000) : s.CtlKept (t.setF a f v) :=
  h.setDevReg _ ha

theorem countDev (h : s.CtlKept t) {a : Nat} (f : Fld) (ha : 0x01010000 ≤ a ∧ a < 0x02000000) : s.CtlKept (t.count a f) :=
  h.setDevReg _ ha

theorem noteUe (h : s.CtlKept t) (c : Fin 2) : s.CtlKept (t.noteUe c) := by
  unfold State.noteUe
  extract_lets l m s1 lim
  have h1 : s.CtlKept s1 := h.elsewhere (by rfl)
  have hdown : s.CtlKept (((s1.setF R.MMC_STAT ⟨2 + c.val, 1⟩ 1).setF R.MMC_STAT ⟨c.val, 1⟩ 0).setF R.MMC_STAT F.MMC_STAT_DOWN_F 1) :=
    ((h1.setDevF _ _ (by decide)).setDevF _ _ (by decide)).setDevF _ _ (by decide)
  exact (h1.ite (hdown.fire 42)).ite h1

end State.CtlKept

/-- Above the slices no address is a slice's memory, and main memory has two channels. -/
theorem spaceOf_aboveSlices {a : Nat} (ha : 0x0E000000 ≤ a) : (∀ n, spaceOf a ≠ .slice n) ∧ ∀ c, spaceOf a = .main c → c ≤ 1 := by
  have h : spaceOf a = .plain ∨ (∃ c, c ≤ 1 ∧ spaceOf a = .main c) ∨ spaceOf a = .flash ∨ spaceOf a = .reg ∨ spaceOf a = .none := by
    have hch : mainCh a ≤ 1 := by
      unfold mainCh
      split <;> decide
    unfold spaceOf
    rw [if_neg (by omega), if_neg (by omega), if_neg (by omega), if_neg (by omega), if_neg (by omega),
      if_neg (by simp only [sysKcBase]; omega)]
    repeat' split
    · exact .inl rfl
    · exact .inr (.inl ⟨_, hch, rfl⟩)
    · exact .inr (.inr (.inl rfl))
    · exact .inr (.inr (.inr (.inl rfl)))
    · exact .inr (.inr (.inr (.inr rfl)))
  refine ⟨fun n hn => ?_, fun c hc => ?_⟩
  · rcases h with h | ⟨c, -, h⟩ | h | h | h <;> rw [h] at hn <;> cases hn
  · rcases h with h | ⟨c', hle, h⟩ | h | h | h <;> rw [h] at hc <;> cases hc
    exact hle

namespace State.CtlKept

variable {s t : State}

theorem corrected (h : s.CtlKept t) {a : Nat} (ha : 0x0E000000 ≤ a) : s.CtlKept (t.corrected a) := by
  obtain ⟨hslice, hmain⟩ := spaceOf_aboveSlices ha
  unfold State.corrected
  split
  · next c hc =>
    have hle := hmain c hc
    have h1 : s.CtlKept (t.count (R.MMC_ECC c) F.MMC_ECC_CE) := h.countDev _ (by simp only [R.MMC_ECC]; omega)
    exact h1.elsewhere (by rfl)
  · split
    · next n hn => exact absurd hn (hslice n)
    · have h2 : s.CtlKept ((t.count R.MEM_ECC_CNT F.MEM_ECC_CNT_CE).setF R.MEM_STAT F.MEM_STAT_CE_F 1) :=
        (h.countDev _ (by decide)).setDevF _ _ (by decide)
      exact State.CtlKept.ite h2 (h2.elsewhere (by rfl))

theorem uncorrectable (h : s.CtlKept t) {a : Nat} (ha : 0x0E000000 ≤ a) : s.CtlKept (t.uncorrectable a) := by
  obtain ⟨hslice, hmain⟩ := spaceOf_aboveSlices ha
  have hclear : s.CtlKept (t.clearMark a) := h.elsewhere (by rfl)
  unfold State.uncorrectable
  extract_lets k m1 s1 s2
  split
  · next c hc =>
    have hle := hmain c hc
    have h1 : s.CtlKept m1 := (hclear.setCell _ _).setCell _ _
    have h2 : s.CtlKept (m1.count (R.MMC_ECC c) F.MMC_ECC_UE) := h1.countDev _ (by simp only [R.MMC_ECC]; omega)
    have h3 := h2.setDevReg (a := R.MMC_UE_ADDR c) (BitVec.ofNat 32 k) (by simp only [R.MMC_UE_ADDR]; omega)
    exact ((h3.setDevF F.MMC_STAT_UE_F 1 (by decide)).fire 41).noteUe _
  · have h2 : s.CtlKept s2 := ((hclear.setCell _ _).setDevReg _ (by decide)).setDevF _ _ (by decide)
    split
    · next n hn => exact absurd hn (hslice n)
    · exact (h2.countDev _ (by decide)).fire 40

/-- A read above the slices' memories leaves the control of the slices, whatever ECC finds. -/
theorem rd (h : s.CtlKept t) {a : Nat} (ha : 0x0E000000 ≤ a) : s.CtlKept (t.rd a).st := by
  unfold State.rd
  split
  · exact h
  · split
    · exact h
    · exact h.corrected ha
    · exact h.uncorrectable ha

/-- So does a read of a microword from its copy. -/
theorem readCopy (h : s.CtlKept t) (n w : Nat) : s.CtlKept (t.readCopy n w).1 := by
  have hall : s.CtlKept ((copyCells n w).foldl (fun (t : State) a => (t.rd a).st) t) := by
    refine List.foldlRecOn (motive := s.CtlKept) _ _ h (fun u hu a ha => hu.rd ?_)
    simp only [copyCells, copyAddr, List.mem_map] at ha
    obtain ⟨i, -, rfl⟩ := ha
    omega
  have hfst : (t.readCopy n w).1 = (copyCells n w).foldl (fun (t : State) a => (t.rd a).st) t := by
    rw [State.readCopy, apply_ite Prod.fst]
    exact ite_self _
  rw [hfst]
  exact hall

end State.CtlKept

end Machine
end Sys2Proof
end

section
/-! PROOFS. How a slice enters RECOVERING and leaves it (R387 to R389). -/

namespace Sys2Proof
namespace Machine

/-! What is held open over a recovery. -/

namespace State.Kept

variable {s t : State}

theorem setDmaState (h : s.Kept CtlReg t) (n : Fin 12) (c : Fin 16) (st : Nat) : s.Kept CtlReg (t.setDmaState n.castSucc c st) :=
  (h.setReg _ _).setReg _ _

theorem pauseDma (h : s.Kept CtlReg t) (n : Fin 12) : s.Kept CtlReg (t.pauseDma n) := by
  unfold State.pauseDma
  exact h.foldl _ _ (fun u c hu => ((hu.setDma n.castSucc _ _).setDmaState n _ _).ite hu)

theorem resumeDma (h : s.Kept CtlReg t) (n : Fin 12) : s.Kept CtlReg (t.resumeDma n) := by
  unfold State.resumeDma
  exact h.foldl _ _ (fun u c hu => ((hu.setDma n.castSucc _ _).setDmaState n _ _).ite hu)

end State.Kept

theorem State.ctlKept_runLive (s : State) (n : Fin 12) : s.CtlKept (s.runLive n) := by
  unfold State.runLive
  extract_lets p c
  split
  · exact .refl s
  · next b =>
    extract_lets live s1 call c1 shown
    have hcore : s.CtlKept (s.setCore p { live with halted := c.halted, dbgHalt := c.dbgHalt, attached := c.attached }) :=
      (State.CtlKept.refl s).elsewhere (by rfl)
    have h1 : s.CtlKept s1 := hcore.setReg _ (by
      simp only [CtlReg, SlcReg, R.KC_CSEL, p, pairOf, Fin.val_castSucc, kcBase_slice, sliceBase]
      omega)
    have hshown : s.CtlKept shown := (h1.kept ((State.Kept.refl _ s1).setCle n _)).kept ((State.Kept.refl _ _).showCall n)
    exact hshown.elsewhere (by rfl)

/-- A held attach that takes effect is held no more; SLC_CMD_STAT is as it was (R279). -/
theorem State.heldAttach_shows (s : State) (n : Fin 12) : (s.heldAttach n).ctlOf n = { s.ctlOf n with attachHeld := none } ∧
    (s.heldAttach n).reg (R.SLC_CMD_STAT n) = s.reg (R.SLC_CMD_STAT n) := by
  have hls : R.SLC_CMD_STAT n ≠ R.KC_LS_STAT (pairOf n) := by
    simp only [R.SLC_CMD_STAT, R.KC_LS_STAT, pairOf, Fin.val_castSucc, kcBase_slice]
    omega
  have hst : R.SLC_CMD_STAT n ≠ R.SLC_STATE (pairOf n) := by
    simp only [R.SLC_CMD_STAT, R.SLC_STATE, pairOf, Fin.val_castSucc]
    omega
  unfold State.heldAttach
  split
  · next sess _ =>
    unfold State.attachNow
    extract_lets c0 a s1 c1 s2
    have hreg : s2.reg (R.SLC_CMD_STAT n) = s.reg (R.SLC_CMD_STAT n) := by
      rw [State.setCore_reg, State.reg_setF_ne _ _ _ _ _ hls, State.reg_setF_ne _ _ _ _ _ hls, State.reg_setF_ne _ _ _ _ _ hls,
        State.setCtl_reg]
    have hctl : s2.ctlOf n = { s.ctlOf n with attachHeld := none } := State.ctlOf_setCtl_self s n _
    split
    · exact ⟨hctl, (State.reg_setF_ne _ _ _ _ _ hst).trans hreg⟩
    · exact ⟨hctl, hreg⟩
  · next hnone => exact ⟨by rw [← hnone], rfl⟩

/-- What a FENCE that takes effect leaves of the control of its slice, and shows (R52). -/
structure State.Fencing (s t : State) (n : Slice) (cause : Nat) : Prop where
  fencing : (t.ctlOf n).fencing = true
  fenceCause : (t.ctlOf n).fenceCause = cause
  diverged : (t.ctlOf n).diverged = (s.ctlOf n).diverged
  badWord : (t.ctlOf n).badWord = (s.ctlOf n).badWord
  held : t.isSet (R.SLC_CMD_STAT n) F.SLC_CMD_STAT_HELD = false
  disarmed : t.armed n = false
  halted : (t.coreOf (pairOf n)).halted = true

theorem State.fenceNow_fencing (s : State) (n : Slice) (cause : Nat) : s.Fencing (s.fenceNow n cause) n cause := by
  unfold State.fenceNow
  extract_lets c0 s0 u c hold s1 s2 s3 s4
  have hu : s0.Kept CtlReg u := ((State.Kept.refl _ s0).handOver _ _).ite (.refl _ s0)
  have hc : c = { s.ctlOf n with toTwin := false } := (hu.ctlOf n).trans (State.ctlOf_setCtl_self s n _)
  have h2 : s1.Kept (CtlRegBut R.DEV_ARM) s2 := (s1.kept_setArmed n false).trans (State.kept_setArmPend _ n false)
  have hdrop : s2.Kept CtlReg ((s2.dropCle n false).dropCmds n) := ((State.Kept.refl _ s2).dropCle n).dropCmds n
  have hstop : s3.Kept CtlReg s4 := (State.Kept.refl _ s3).stopDma n
  have hend : (s4.setF (R.SLC_CMD_STAT n) F.SLC_CMD_STAT_HELD 0).Kept CtlReg
      (((s4.setF (R.SLC_CMD_STAT n) F.SLC_CMD_STAT_HELD 0).descDone (.running n) 2 0).pinsSlice n) :=
    ((State.Kept.refl CtlReg _).descDone (.running n) 2 0).pinsSlice n
  have hctl := hend.ctlOf n
  rw [State.setF_ctlOf, hstop.ctlOf, State.haltPair_ctlOf, hdrop.ctlOf, h2.ctlOf, State.ctlOf_setCtl_self, hc] at hctl
  have hrec : s3.RecKept RecFld (((s4.setF (R.SLC_CMD_STAT n) F.SLC_CMD_STAT_HELD 0).descDone (.running n) 2 0).pinsSlice n) :=
    ((((State.RecKept.refl _ s3).stopDma n).setReg (recFree_SLC_CMD_STAT n) _).descDone _ _ _).pinsSlice n
  have hdown : s3.armed n = false := (State.haltPair_armed _ _ n).trans
    ((((State.RecKept.refl RecFld s2).dropCle n false).dropCmds n).disarmed _ (State.armed_of_dropped s1 n))
  have hhalt : (s3.coreOf (pairOf n)).halted = true := State.halted_haltPair _ _
  clear_value s4 s3
  exact {
    fencing := congrArg CtlSt.fencing hctl
    fenceCause := congrArg CtlSt.fenceCause hctl
    diverged := by rw [hctl]
    badWord := by rw [hctl]
    held := by
      rw [hend.isSet (ctlReg_SLC_CMD_STAT n), State.isSet, State.getF_setF_of_lt _ _ _ _ (by decide) (by decide)]
      rfl
    disarmed := hrec.disarmed _ hdown
    halted := hrec.halted _ hhalt }

/-- A pending arm request leaves the records of the slices and the microcode store (R31). -/
theorem State.armPending_recs (s : State) (n : Fin 12) :
    (∀ a f, RecFld a f → (s.armPending n).getF a f = s.getF a f) ∧ (s.armPending n).mstore = s.mstore := by
  have hdrop : s.RecKept RecFld (s.setArmPend n false) := (State.RecKept.refl _ s).setArmPend n false
  have harm : (∀ a f, RecFld a f → (s.armNow n).getF a f = s.getF a f) ∧ (s.armNow n).mstore = s.mstore := by
    have hpend : (s.setF R.DEV_ARM ⟨n.val, 1⟩ (b2n true)).RecKept RecFld ((s.setArmed n true).setArmPend n false) :=
      (State.RecKept.refl RecFld _).showSync.setArmPend n false
    have hnow : (s.setF R.DEV_ARM ⟨n.val, 1⟩ (b2n true)).RecKept RecFld (s.armNow n) :=
      (hpend.foldl (List.finRange 8) (fun u k => u.setPw n k { u.pw n k with armWait := true }) (fun u k hu => hu.elsewhere (by rfl))).pinsSlice n
    refine ⟨fun a f ha => (hnow.flds a f ha).trans (State.getF_setF_reg _ _ _ _ _ _ (fun e => ?_)), hnow.mstore⟩
    subst e
    exact absurd ha.1 (by decide)
  unfold State.armPending
  split
  · exact ⟨fun _ _ _ => rfl, rfl⟩
  · split
    · exact ⟨hdrop.flds, hdrop.mstore⟩
    · split
      · exact ⟨fun _ _ _ => rfl, rfl⟩
      · split
        · exact ⟨hdrop.flds, hdrop.mstore⟩
        · exact harm

/-! Entry into RECOVERING (R388). -/

/-- The control of slice n but the samples that its loops have skipped. -/
def State.SkipKept (s t : State) (n : Fin 12) : Prop := ∃ k, t.ctlOf n = { s.ctlOf n with skipped := k }

namespace State.SkipKept

variable {s t u : State} {n : Fin 12}

theorem refl (s : State) (n : Fin 12) : s.SkipKept s n := ⟨_, rfl⟩

theorem kept {P : Nat → Prop} (h : s.SkipKept t n) (k : t.Kept P u) : s.SkipKept u n := by
  obtain ⟨l, hl⟩ := h
  exact ⟨l, (k.ctlOf n).trans hl⟩

theorem same (h : s.SkipKept t n) (hu : u.ctlOf n = t.ctlOf n) : s.SkipKept u n := by
  obtain ⟨l, hl⟩ := h
  exact ⟨l, hu.trans hl⟩

theorem ite {c : Prop} [Decidable c] (h : s.SkipKept t n) (k : s.SkipKept u n) : s.SkipKept (if c then t else u) n := by
  split <;> assumption

theorem noteSkip (h : s.SkipKept t n) (j : Fin 16) : s.SkipKept (t.noteSkip n j) n := by
  obtain ⟨l, hl⟩ := h
  exact ⟨_, (State.ctlOf_setCtl_self _ _ _).trans (by rw [hl])⟩

theorem cleSkip (h : s.SkipKept t n) (j : Fin 16) : s.SkipKept (t.cleSkip n j) n := by
  unfold State.cleSkip State.cleFlag
  extract_lets a s1
  have h0 : s.SkipKept (t.count (R.CLE_OVR n j) F.CLE_OVR_SKIP) n := h.same (by rfl)
  have hflag : s.SkipKept (((t.count (R.CLE_OVR n j) F.CLE_OVR_SKIP).setF a F.CLE_LSTAT_SKIP_F 1).fireLocal n 17) n := by
    have hf : ((t.count (R.CLE_OVR n j) F.CLE_OVR_SKIP).setF a F.CLE_LSTAT_SKIP_F 1).Kept CtlReg
        (((t.count (R.CLE_OVR n j) F.CLE_OVR_SKIP).setF a F.CLE_LSTAT_SKIP_F 1).fireLocal n 17) := (State.Kept.refl _ _).fireLocal n 17
    exact State.SkipKept.kept (h0.same (by rfl)) hf
  have h1 : s.SkipKept s1 n := h0.ite hflag
  exact State.SkipKept.ite (h1.same (by rfl)) h1

theorem dropLoop (h : s.SkipKept t n) (j : Fin 16) : s.SkipKept (t.dropLoop n j true) n := by
  unfold State.dropLoop
  extract_lets c l q kept owed t1 s1 t2 t3
  have ht1 : s.SkipKept t1 n := h.same (by rfl)
  have h1 : s.SkipKept s1 n := (((ht1.cleSkip j).noteSkip j).ite ht1).ite h
  have ht2 : s.SkipKept t2 n := h1.same (by rfl)
  have ht3 : s.SkipKept t3 n := h1.same (by rfl)
  exact (((ht2.cleSkip j).noteSkip j).ite ht2).ite (h1.ite ((ht3.noteSkip j).ite ht3))

theorem dropCle (h : s.SkipKept t n) : s.SkipKept (t.dropCle n true) n := by
  unfold State.dropCle
  extract_lets s1 c call
  have h1 : s.SkipKept s1 n := foldl_keeps (fun u => s.SkipKept u n) _ _ t h (fun u j hu => hu.dropLoop j)
  have h2 := h1.kept ((State.Kept.refl CtlReg s1).setCle n { c with seqr := resetSeq, blocked := false, keeps := false, call := call })
  exact (h2.same (State.setF_ctlOf _ (R.CLE_STAT n) F.CLE_STAT_BUSY 0 n)).kept ((State.Kept.refl CtlReg _).showCall n)

end State.SkipKept

theorem State.rollBack_ctlOf (s : State) (n m : Fin 12) : (s.rollBack n).ctlOf m = s.ctlOf m := by
  unfold State.rollBack
  extract_lets p c s1
  split <;> rfl

theorem State.descHold_ctlOf (s : State) (n : Nat) (m : Fin 12) : (s.descHold n).ctlOf m = s.ctlOf m := rfl

theorem State.unCheckpoint_ctlOf (s : State) (p : Fin 13) (m : Fin 12) : (s.unCheckpoint p).ctlOf m = s.ctlOf m := by
  unfold State.unCheckpoint
  extract_lets c
  split <;> rfl

/-- The fields but SLC_STATE and SLC_REC_CNT of slice n. -/
def RecFldRec (n : Slice) (a : Nat) (f : Fld) : Prop := RecFld a f ∧ a ≠ R.SLC_STATE n ∧ a ≠ R.SLC_REC_CNT n

theorem satInc_lt {f : Fld} {v : Nat} (h : v < 2 ^ f.width) : satInc f.top v < 2 ^ f.width := by
  unfold satInc Fld.top
  split <;> omega

theorem State.getF_count_satInc (s : State) (a : Nat) (f : Fld) (h : f.lo + f.width ≤ 32) :
    (s.count a f).getF a f = satInc f.top (s.getF a f) := State.getF_setF_of_lt _ _ _ _ h (satInc_lt (s.getF_lt a f))

theorem recFld_SLC_REC_CNT (n : Slice) (f : Fld) : RecFld (R.SLC_REC_CNT n) f := recFld_whole (by omega) (by decide) f

/-- What slice n shows when it has entered RECOVERING. -/
structure State.Recovers (s t : State) (n : Slice) : Prop where
  slState : t.slState n = slRecovering
  recStart : (t.ctlOf n).recStart = s.clock
  diverged : (t.ctlOf n).diverged = (s.ctlOf n).diverged
  mcheck : (t.ctlOf n).mcheck = (s.ctlOf n).mcheck
  recCnt : t.getF (R.SLC_REC_CNT n) F.SLC_REC_CNT_COUNT = satInc F.SLC_REC_CNT_COUNT.top (s.getF (R.SLC_REC_CNT n) F.SLC_REC_CNT_COUNT)
  recs : s.RecKept (RecFldRec n) t

theorem State.enterRecovering_recovers (s : State) (n : Slice) (cause : Nat) : s.Recovers (s.enterRecovering n cause) n := by
  have hne : R.SLC_REC_CNT n ≠ R.SLC_STATE n := by
    simp only [R.SLC_REC_CNT, R.SLC_STATE]
    omega
  have hnarm : R.SLC_REC_CNT n ≠ R.DEV_ARM := by
    simp only [R.SLC_REC_CNT, R.DEV_ARM, sliceBase]
    omega
  unfold State.enterRecovering
  extract_lets c s1 s2 s3
  have h1 : s.RecKept RecFld s1 := ((State.RecKept.refl _ s).unCheckpoint _).setCtl n _
  have h2 : s.RecKept RecFld s2 := (((h1.rollBack n).dropCle n true).pauseDma n).descHold n
  have hinj : s.RecKept RecFld (s2.injEnd n 4) := h2.injEnd n 4
  have hcnt : (s2.injEnd n 4).RecKept (RecFldBut (R.SLC_REC_CNT n)) s3 := (State.RecKept.refl _ _).setOwn _ hnarm
  have hset := s3.rec_setSl n slRecovering
  have hend : (s3.setSl n slRecovering).RecKept RecFld ((s3.setSl n slRecovering).pinsSlice n) := (State.RecKept.refl _ _).pinsSlice n
  have hset' : s3.RecKept (RecFldBut (R.SLC_STATE n)) ((s3.setSl n slRecovering).pinsSlice n) := hset.trans (hend.but _)
  have hctl : ∃ k, ((s3.setSl n slRecovering).pinsSlice n).ctlOf n = { s1.ctlOf n with skipped := k } := by
    have hroll : s1.SkipKept (s1.rollBack n) n := (State.SkipKept.refl s1 n).same (State.rollBack_ctlOf s1 n n)
    have hpause : s1.SkipKept (((s1.rollBack n).dropCle n true).pauseDma n) n := hroll.dropCle.kept ((State.Kept.refl CtlReg _).pauseDma n)
    have hs2 : s1.SkipKept s2 n := hpause.same (State.descHold_ctlOf _ n n)
    have hs3 : s1.SkipKept s3 n := State.SkipKept.same (hs2.kept ((State.Kept.refl CtlReg _).injEnd n 4)) (State.setF_ctlOf _ _ _ _ _)
    exact (hs3.kept (s3.kept_setSl n slRecovering)).kept ((State.Kept.refl CtlReg _).pinsSlice n)
  obtain ⟨k, hk⟩ := hctl
  rw [State.ctlOf_setCtl_self] at hk
  refine ⟨?_, congrArg CtlSt.recStart hk, by rw [hk], by rw [hk], ?_, ?_⟩
  · rw [hend.slState n, State.slState_setSl _ n (by decide)]
  · rw [hset'.flds _ _ ⟨recFld_SLC_REC_CNT n _, hne⟩, State.getF_count_satInc _ _ _ (by decide), hinj.flds _ _ (recFld_SLC_REC_CNT n _)]
  · exact (hinj.mono fun _ _ => And.left).trans
      ((hcnt.mono fun a f h => ⟨h.1, h.2.2⟩).trans (hset'.mono fun a f h => ⟨h.1, h.2.1⟩))

end Machine
end Sys2Proof
end

section
/-! PROOFS. A divergence: what is recorded, and where the slice goes (R272 to R275). -/

namespace Sys2Proof
namespace Machine

/-! The record (R272). -/

/-- KC_LS_LAST of a divergence. -/
def divWord (point : Nat) (d : DivRec) : Word :=
  F.KC_LS_LAST_POINT.word point ||| F.KC_LS_LAST_TAG_XOR.word (if point == 1 then d.tagXor.toNat else 0) |||
    F.KC_LS_LAST_BE_XOR.word (if point == 3 then 0 else d.beXor.toNat) ||| F.KC_LS_LAST_ADDR_DIFF.word (b2n d.addrDiff)

theorem divWord_fields {point : Nat} (hp : point < 16) (d : DivRec) :
    F.KC_LS_LAST_POINT.get (divWord point d) = point ∧
    F.KC_LS_LAST_TAG_XOR.get (divWord point d) = (if point == 1 then d.tagXor.toNat else 0) ∧
    F.KC_LS_LAST_BE_XOR.get (divWord point d) = (if point == 3 then 0 else d.beXor.toNat) ∧
    F.KC_LS_LAST_ADDR_DIFF.get (divWord point d) = b2n d.addrDiff := by
  have htag : (if point == 1 then d.tagXor.toNat else 0) < 16 := by
    have := d.tagXor.isLt
    split <;> omega
  have hbe : (if point == 3 then 0 else d.beXor.toNat) < 16 := by
    have := d.beXor.isLt
    split <;> omega
  have hdiff : b2n d.addrDiff < 2 := by cases d.addrDiff <;> decide
  unfold divWord
  refine ⟨?_, ?_, ?_, ?_⟩ <;> simp only [Fld.get_or]
  · rw [F.KC_LS_LAST_POINT.get_word _ (by decide), F.KC_LS_LAST_TAG_XOR.get_word_ne _ _ (by decide) (by decide),
      F.KC_LS_LAST_BE_XOR.get_word_ne _ _ (by decide) (by decide), F.KC_LS_LAST_ADDR_DIFF.get_word_ne _ _ (by decide) (by decide),
      Nat.or_zero, Nat.or_zero, Nat.or_zero]
    exact Nat.mod_eq_of_lt hp
  · rw [F.KC_LS_LAST_POINT.get_word_ne _ _ (by decide) (by decide), F.KC_LS_LAST_TAG_XOR.get_word _ (by decide),
      F.KC_LS_LAST_BE_XOR.get_word_ne _ _ (by decide) (by decide), F.KC_LS_LAST_ADDR_DIFF.get_word_ne _ _ (by decide) (by decide),
      Nat.or_zero, Nat.or_zero, Nat.zero_or]
    exact Nat.mod_eq_of_lt htag
  · rw [F.KC_LS_LAST_POINT.get_word_ne _ _ (by decide) (by decide), F.KC_LS_LAST_TAG_XOR.get_word_ne _ _ (by decide) (by decide),
      F.KC_LS_LAST_BE_XOR.get_word _ (by decide), F.KC_LS_LAST_ADDR_DIFF.get_word_ne _ _ (by decide) (by decide),
      Nat.or_zero, Nat.zero_or, Nat.zero_or]
    exact Nat.mod_eq_of_lt hbe
  · rw [F.KC_LS_LAST_POINT.get_word_ne _ _ (by decide) (by decide), F.KC_LS_LAST_TAG_XOR.get_word_ne _ _ (by decide) (by decide),
      F.KC_LS_LAST_BE_XOR.get_word_ne _ _ (by decide) (by decide), F.KC_LS_LAST_ADDR_DIFF.get_word _ (by decide),
      Nat.zero_or, Nat.zero_or, Nat.zero_or]
    exact Nat.mod_eq_of_lt hdiff

/-- The registers of a pair that record a divergence. -/
def lsRecord (p a : Nat) : Prop := kcBase p ≤ a ∧ a < kcBase p + 0x14

theorem State.noteDiv_reg (s : State) (p point : Nat) (d : DivRec) {a : Nat} (ha : ¬ lsRecord p a) : (s.noteDiv p point d).reg a = s.reg a := by
  simp only [lsRecord] at ha
  unfold State.noteDiv
  extract_lets w s1
  rw [State.count, State.reg_setF_ne _ _ _ _ _ (by simp only [R.KC_LS_DIV]; omega), State.reg_setF_ne _ _ _ _ _ (by simp only [R.KC_LS_STAT]; omega),
    State.reg_setReg_ne _ _ _ _ (by simp only [R.KC_LS_XOR]; omega), State.reg_setReg_ne _ _ _ _ (by simp only [R.KC_LS_ADDR]; omega),
    State.reg_setReg_ne _ _ _ _ (by simp only [R.KC_LS_LAST]; omega)]

theorem State.noteDiv_cells (s : State) (p point : Nat) (d : DivRec) : (s.noteDiv p point d).cells = s.cells := by
  simp [State.noteDiv]

theorem State.noteDiv_clock (s : State) (p point : Nat) (d : DivRec) : (s.noteDiv p point d).clock = s.clock := by
  simp [State.noteDiv]

/-- What the registers of pair p show of a divergence. -/
structure State.DivShown (s t : State) (p point : Nat) (d : DivRec) : Prop where
  flag : t.isSet (R.KC_LS_STAT p) F.KC_LS_STAT_DIV_F = true
  count : t.getF (R.KC_LS_DIV p) F.KC_LS_DIV_COUNT = satInc F.KC_LS_DIV_COUNT.top (s.getF (R.KC_LS_DIV p) F.KC_LS_DIV_COUNT)
  addr : t.reg (R.KC_LS_ADDR p) = if point == 3 then d.addr &&& 0x3FF else d.addr
  xor : t.reg (R.KC_LS_XOR p) = if point == 3 then d.xor &&& 0x1F else d.xor
  last : t.reg (R.KC_LS_LAST p) = divWord point d

theorem State.noteDiv_shown (s : State) (p point : Nat) (d : DivRec) : s.DivShown (s.noteDiv p point d) p point d := by
  have hsd : R.KC_LS_STAT p ≠ R.KC_LS_DIV p := by simp [R.KC_LS_STAT, R.KC_LS_DIV]
  have hsx : R.KC_LS_XOR p ≠ R.KC_LS_STAT p := by simp [R.KC_LS_STAT, R.KC_LS_XOR]
  have hdx : R.KC_LS_XOR p ≠ R.KC_LS_DIV p := by simp [R.KC_LS_DIV, R.KC_LS_XOR]
  have hsa : R.KC_LS_ADDR p ≠ R.KC_LS_STAT p := by simp [R.KC_LS_STAT, R.KC_LS_ADDR]
  have hda : R.KC_LS_ADDR p ≠ R.KC_LS_DIV p := by simp [R.KC_LS_DIV, R.KC_LS_ADDR]
  have hxa : R.KC_LS_ADDR p ≠ R.KC_LS_XOR p := by simp [R.KC_LS_XOR, R.KC_LS_ADDR]
  have hsl : R.KC_LS_LAST p ≠ R.KC_LS_STAT p := by simp [R.KC_LS_STAT, R.KC_LS_LAST]
  have hdl : R.KC_LS_LAST p ≠ R.KC_LS_DIV p := by simp [R.KC_LS_DIV, R.KC_LS_LAST]
  have hxl : R.KC_LS_LAST p ≠ R.KC_LS_XOR p := by simp [R.KC_LS_XOR, R.KC_LS_LAST]
  have hal : R.KC_LS_LAST p ≠ R.KC_LS_ADDR p := by simp [R.KC_LS_ADDR, R.KC_LS_LAST]
  unfold State.noteDiv
  extract_lets w s1
  refine ⟨?_, ?_, ?_, ?_, ?_⟩
  · rw [State.isSet, State.count, State.getF_setF_reg _ _ _ _ _ _ hsd, State.getF_setF_of_lt _ _ _ _ (by decide) (by decide)]
    rfl
  · rw [State.getF_count_satInc _ _ _ (by decide), State.getF_setF_reg _ _ _ _ _ _ hsd.symm, State.getF, State.reg_setReg_ne _ _ _ _ hdx.symm,
      State.reg_setReg_ne _ _ _ _ hda.symm, State.reg_setReg_ne _ _ _ _ hdl.symm]
    rfl
  · rw [State.count, State.reg_setF_ne _ _ _ _ _ hda, State.reg_setF_ne _ _ _ _ _ hsa, State.reg_setReg_ne _ _ _ _ hxa, State.reg_setReg_self]
  · rw [State.count, State.reg_setF_ne _ _ _ _ _ hdx, State.reg_setF_ne _ _ _ _ _ hsx, State.reg_setReg_self]
  · rw [State.count, State.reg_setF_ne _ _ _ _ _ hdl, State.reg_setF_ne _ _ _ _ _ hsl, State.reg_setReg_ne _ _ _ _ hxl,
      State.reg_setReg_ne _ _ _ _ hal, State.reg_setReg_self]
    rfl

/-- The system pair's block stands as that of a slice 12. -/
theorem kcBase_pair (p : Fin 13) : kcBase p = sliceBase p + 0xA000 := by
  have hp := p.isLt
  unfold kcBase sysKcBase sliceBase
  split <;> omega

/-- The fields that show a divergence of a pair are records. -/
theorem recFld_ls (p : Fin 13) {o : Nat} (ho : 4 ≤ o ∧ o < 0x14) (f : Fld) : RecFld (kcBase p + o) f := by
  rw [kcBase_pair, Nat.add_assoc]
  exact recFld_whole p.isLt (by omega) f

theorem recFld_KC_LS_STAT (p : Fin 13) : RecFld (R.KC_LS_STAT p) F.KC_LS_STAT_DIV_F := by
  rw [R.KC_LS_STAT, kcBase_pair, Nat.add_assoc]
  exact recFld_slice p.isLt (by simp [RecOff]) (by omega) (fun _ => rfl) (by omega)

/-- A whole register is its one field. -/
theorem State.reg_of_getF_whole {s t : State} {a : Nat} (h : t.getF a ⟨0, 32⟩ = s.getF a ⟨0, 32⟩) : t.reg a = s.reg a := by
  rw [State.getF, State.getF, Fld.get_whole, Fld.get_whole] at h
  exact BitVec.eq_of_toNat_eq h

/-- The fields of a pair's lockstep registers are kept with the records of `P`. -/
theorem State.DivShown.kept {P : Nat → Fld → Prop} {s u t : State} {p : Fin 13} {point : Nat} {d : DivRec} (h : s.DivShown u p point d)
    (k : u.RecKept P t) (hP : ∀ a f, RecFld a f → lsRecord p a → P a f) : s.DivShown t p point d := by
  have hin : ∀ {o f}, 4 ≤ o ∧ o < 0x14 → t.getF (kcBase p + o) f = u.getF (kcBase p + o) f := fun {o f} ho =>
    k.flds _ _ (hP _ _ (recFld_ls p ho f) (by simp only [lsRecord]; omega))
  have hreg : ∀ {o}, 4 ≤ o ∧ o < 0x14 → t.reg (kcBase p + o) = u.reg (kcBase p + o) := fun ho => State.reg_of_getF_whole (hin ho)
  exact {
    flag := (k.isSet (hP _ _ (recFld_KC_LS_STAT p) (by simp only [lsRecord, R.KC_LS_STAT]; omega))).trans h.flag
    count := (hin (by decide)).trans h.count
    addr := (hreg (by decide)).trans h.addr
    xor := (hreg (by decide)).trans h.xor
    last := (hreg (by decide)).trans h.last }

/-! Where the slice goes (R273, R275). -/

/-- The control of a slice that has diverged. -/
def divCtl (c : CtlSt) (mism : Bool) : CtlSt := { c with diverged := true, mcheck := c.mcheck || mism, testDiv := c.testDiv || c.restarting }

/-- The state in which a divergence of slice n has been recorded and told. -/
def State.divNoted (s : State) (n : Slice) (point : Nat) (d : DivRec) (mism : Bool) : State :=
  let s1 := s.noteDiv (pairOf n) point d
  let s2 := if mism then s1.count (R.CLE_MISMATCH n) F.CLE_MISMATCH_COUNT else s1
  (s2.setCtl n (divCtl (s.ctlOf n) mism)).fireLocal n 2

theorem State.divergence_slice {s : State} {n : Slice} {mw rw ea : Option DivRec} {point : Nat} {d : DivRec} (mism : Bool)
    (hd : firstDiv mw rw ea = some (point, d)) (hcmp : s.isSet (R.KC_LS_STAT n) F.KC_LS_STAT_SUSPENDED = false) (hf : s.fitted n = true)
    (hst : s.slState n ≠ slOff ∧ s.slState n ≠ slSafe ∧ (s.slState n = slFenced → (s.ctlOf n).restarting = true)) :
    s.divergence (pairOf n) mw rw ea mism = (s.divNoted n point d mism).recoverable n 1 := by
  obtain ⟨hoff, hsafe, hfenced⟩ := hst
  have hp : (pairOf n).val < 12 := n.isLt
  have hcompares : s.compares (pairOf n) = true := by
    rw [State.compares, show R.KC_LS_STAT (pairOf n) = R.KC_LS_STAT n from rfl, hcmp]
    rfl
  have hcond : (!s.fitted n || s.slState n == slOff || s.slState n == slSafe || (s.slState n == slFenced && !(s.ctlOf n).restarting)) = false := by
    rw [hf, beq_false_of_ne hoff, beq_false_of_ne hsafe]
    by_cases h : s.slState n = slFenced
    · rw [hfenced h]
      simp
    · rw [beq_false_of_ne h]
      rfl
  unfold State.divergence
  rw [hd]
  simp only [hcompares, Bool.not_true, Bool.false_eq_true, if_false]
  rw [dif_pos hp]
  exact if_neg (fun h => Bool.false_ne_true (hcond.symm.trans h))

/-- What holds of the state in which a divergence has been told. -/
structure State.DivTold (s t : State) (n : Slice) (point : Nat) (d : DivRec) (mism : Bool) : Prop where
  shown : s.DivShown t (pairOf n) point d
  mismatch : t.getF (R.CLE_MISMATCH n) F.CLE_MISMATCH_COUNT = if mism then
    satInc F.CLE_MISMATCH_COUNT.top (s.getF (R.CLE_MISMATCH n) F.CLE_MISMATCH_COUNT) else s.getF (R.CLE_MISMATCH n) F.CLE_MISMATCH_COUNT
  regs : ∀ a, routerReg a = false → ¬ lsRecord (pairOf n) a → a ≠ R.CLE_MISMATCH n → t.reg a = s.reg a
  ctl : t.ctlOf n = divCtl (s.ctlOf n) mism
  clock : t.clock = s.clock
  cells : t.cells = s.cells

theorem routerReg_of_recFld {a : Nat} {f : Fld} (h : RecFld a f) : routerReg a = false := routerReg_of_recAddr (recAddr_of_recFld h)

theorem recFld_CLE_MISMATCH (n : Slice) (f : Fld) : RecFld (R.CLE_MISMATCH n) f := by
  rw [R.CLE_MISMATCH, Nat.add_assoc]
  exact recFld_whole (by omega) (by decide) f

theorem lsRecord_pairOf {n : Slice} {a : Nat} (h : lsRecord (pairOf n) a) : sliceBase n + 0xA000 ≤ a ∧ a < sliceBase n + 0xA014 := by
  simp only [lsRecord, pairOf, Fin.val_castSucc, kcBase_slice] at h
  omega

theorem State.divNoted_told (s : State) (n : Slice) (point : Nat) (d : DivRec) (mism : Bool) :
    s.DivTold (s.divNoted n point d mism) n point d mism := by
  have hmis : ∀ a, lsRecord (pairOf n) a → a ≠ R.CLE_MISMATCH n := fun a ha e => by
    have := lsRecord_pairOf ha
    simp only [e, R.CLE_MISMATCH] at this
    omega
  unfold State.divNoted
  extract_lets s1 s2
  have hs1 : s.DivShown s1 (pairOf n) point d := s.noteDiv_shown _ _ _
  have hfire : ∀ a, routerReg a = false → ((s2.setCtl n (divCtl (s.ctlOf n) mism)).fireLocal n 2).reg a =
      s2.reg a := fun a ha => State.fireLocal_reg _ _ _ _ ha
  have hs2 : ∀ a, a ≠ R.CLE_MISMATCH n → s2.reg a = s1.reg a := fun a ha => by
    simp only [s2]
    split
    · exact State.reg_setF_ne _ _ _ _ _ ha
    · rfl
  have hclock : s2.clock = s.clock := by
    simp only [s2]
    split <;> exact s.noteDiv_clock (pairOf n) point d
  have h12 : s1.RecKept (RecFldBut (R.CLE_MISMATCH n)) s2 := (show s1.RecKept (RecFldBut (R.CLE_MISMATCH n)) (s1.count (R.CLE_MISMATCH n) F.CLE_MISMATCH_COUNT) from
    (State.RecKept.refl _ s1).setOwn _ (by simp only [R.CLE_MISMATCH, R.DEV_ARM, sliceBase]; omega)).ite (.refl _ s1)
  have h2 : s2.RecKept RecFld ((s2.setCtl n (divCtl (s.ctlOf n) mism)).fireLocal n 2) :=
    ((State.RecKept.refl _ s2).setCtl n _).fireLocal n 2
  have hbase : s1.getF (R.CLE_MISMATCH n) F.CLE_MISMATCH_COUNT = s.getF (R.CLE_MISMATCH n) F.CLE_MISMATCH_COUNT :=
    congrArg F.CLE_MISMATCH_COUNT.get (s.noteDiv_reg _ _ _ (fun h => hmis _ h rfl))
  exact {
    shown := hs1.kept (h12.trans (h2.but _)) (fun a f hf hls => ⟨hf, hmis a hls⟩)
    mismatch := by
      rw [h2.flds _ _ (recFld_CLE_MISMATCH n _), ← hbase]
      cases mism with
      | true => exact State.getF_count_satInc _ _ _ (by decide)
      | false => rfl
    regs := fun a hr hls hne => (hfire a hr).trans ((hs2 a hne).trans (s.noteDiv_reg _ _ _ hls))
    ctl := by
      rw [State.fireLocal, State.ctlOf, State.fire_ctl]
      exact State.ctlOf_setCtl_self s2 n _
    clock := by
      rw [State.fireLocal, State.fire_clock]
      exact hclock
    cells := (h12.trans (h2.but _)).cells.trans (s.noteDiv_cells (pairOf n) point d) }

end Machine
end Sys2Proof
end

section
/-! PROOFS. Where a diverged slice goes, and what it keeps (R273 to R275). -/

namespace Sys2Proof
namespace Machine

/-! A recoverable fault (R50, R57, R273). -/

/-- The fields but SLC_STATE, SLC_FAULT, SLC_REC_STAT and SLC_REC_CNT of slice n. -/
def RecFldFault (n : Slice) (a : Nat) (f : Fld) : Prop := RecFldSafe n a f ∧ a ≠ R.SLC_REC_CNT n

theorem State.recoverable_recs (s : State) (n : Slice) : s.RecKept (RecFldFault n) (s.recoverable n 1) := by
  unfold State.recoverable
  extract_lets st c
  by_cases hf : (s.ctlOf n).fencing = true
  · rw [if_pos hf]
    exact (State.RecKept.refl _ s).ite ((State.RecKept.refl _ s).setCtl n _)
  · rw [if_neg hf]
    have hgone : ∀ cause, cause < 256 → (s.slState n = slRunning ∨ s.slState n = slReady ∨ s.slState n = slRecovering) →
        s.RecKept (RecFldFault n) (s.enterSafe n cause) := fun cause hc hst =>
      (State.enterSafe_goes hc hst (Bool.eq_false_iff.mpr hf)).recs.mono (fun a f h => h.1)
    split
    · exact (s.enterRecovering_recovers n 1).recs.mono (fun a f h => ⟨h.1.1, h.1.2.1, h.2⟩)
    · split
      · next h => exact hgone 6 (by decide) (.inr (.inr (beq_iff_eq.mp h)))
      · split
        · next h => exact hgone 9 (by decide) (.inr (.inl (beq_iff_eq.mp h)))
        · split
          · exact (s.rec_slFault n 9).mono (fun a f h => ⟨h.1.1, h.1.2.2.1⟩)
          · exact .refl _ s

theorem State.recoverable_running {s : State} {n : Slice} (hf : (s.ctlOf n).fencing = false) (hst : s.slState n = slRunning) :
    s.recoverable n 1 = s.enterRecovering n 1 := by
  simp [State.recoverable, hf, hst]

theorem State.recoverable_ready {s : State} {n : Slice} (hf : (s.ctlOf n).fencing = false) (hst : s.slState n = slReady) :
    s.recoverable n 1 = s.enterSafe n 9 := by
  simp [State.recoverable, hf, hst, show (slReady == slRunning) = false from rfl, show (slReady == slRecovering) = false from rfl]

theorem State.recoverable_recovering {s : State} {n : Slice} (hf : (s.ctlOf n).fencing = false) (hst : s.slState n = slRecovering) :
    s.recoverable n 1 = s.enterSafe n 6 := by
  simp [State.recoverable, hf, hst, show (slRecovering == slRunning) = false from rfl]

theorem State.recoverable_fenced {s : State} {n : Slice} (hf : (s.ctlOf n).fencing = false) (hst : s.slState n = slFenced) :
    s.recoverable n 1 = s.slFault n 9 := by
  simp [State.recoverable, hf, hst, show (slFenced == slRunning) = false from rfl, show (slFenced == slRecovering) = false from rfl,
    show (slFenced == slReady) = false from rfl]

theorem State.recoverable_fencing {s : State} {n : Slice} (hf : (s.ctlOf n).fencing = true) (hst : s.slState n ≠ slOff) :
    s.recoverable n 1 = if (s.ctlOf n).fenceAt == s.clock then s else s.setCtl n { s.ctlOf n with fenceFault := true } := by
  simp only [State.recoverable, hf, beq_false_of_ne hst, Bool.false_or, if_true]

/-! The divergence of a slice as a whole (R272 to R275). -/

theorem recFldFault_of_lsRecord {n : Slice} {a : Nat} {f : Fld} (hf : RecFld a f) (hls : lsRecord (pairOf n) a) : RecFldFault n a f := by
  have hin := lsRecord_pairOf hls
  refine ⟨⟨hf, ?_, ?_, ?_⟩, ?_⟩ <;> simp only [R.SLC_STATE, R.SLC_FAULT, R.SLC_REC_STAT, R.SLC_REC_CNT] <;> omega

/-- A register of slice n that a divergence has not changed when it is told. -/
theorem State.DivTold.reg_slc {s t : State} {n : Slice} {point : Nat} {d : DivRec} {mism : Bool} (h : s.DivTold t n point d mism) {o : Nat}
    (ho : o < 0x1000) : t.reg (sliceBase n + o) = s.reg (sliceBase n + o) := by
  refine h.regs _ ?_ (fun hls => ?_) ?_
  · exact routerReg_below n (by omega) (by omega)
  · have := lsRecord_pairOf hls
    omega
  · simp only [R.CLE_MISMATCH]
    omega

theorem State.DivTold.slState {s t : State} {n : Slice} {point : Nat} {d : DivRec} {mism : Bool} (h : s.DivTold t n point d mism) :
    t.slState n = s.slState n := congrArg F.SLC_STATE_STATE.get (h.reg_slc (o := 0x4) (by decide))

theorem State.DivTold.slFault {s t : State} {n : Slice} {point : Nat} {d : DivRec} {mism : Bool} (h : s.DivTold t n point d mism) :
    t.getF (R.SLC_FAULT n) F.SLC_FAULT_CAUSE = s.getF (R.SLC_FAULT n) F.SLC_FAULT_CAUSE :=
  congrArg F.SLC_FAULT_CAUSE.get (h.reg_slc (o := 0x18) (by decide))

theorem State.DivTold.recCnt {s t : State} {n : Slice} {point : Nat} {d : DivRec} {mism : Bool} (h : s.DivTold t n point d mism) :
    t.getF (R.SLC_REC_CNT n) F.SLC_REC_CNT_COUNT = s.getF (R.SLC_REC_CNT n) F.SLC_REC_CNT_COUNT :=
  congrArg F.SLC_REC_CNT_COUNT.get (h.reg_slc (o := 0x1C4) (by decide))

/-- A live slice is neither OFF nor SAFE nor FENCED. -/
theorem State.live_not_resting {s : State} {n : Slice} (h : s.slState n = slRunning ∨ s.slState n = slReady ∨ s.slState n = slRecovering) :
    s.slState n ≠ slOff ∧ s.slState n ≠ slSafe ∧ (s.slState n = slFenced → (s.ctlOf n).restarting = true) := by
  rcases h with h | h | h <;> rw [h] <;> exact ⟨by decide, by decide, fun hf => absurd hf (by decide)⟩

section Slice

variable {s : State} {n : Slice} {mw rw ea : Option DivRec} {point : Nat} {d : DivRec}

/-- Whatever the slice then does, the divergence shows, and the memory is as it was. -/
theorem State.recoverable_shown (s : State) (n : Slice) (point : Nat) (d : DivRec) (mism : Bool) :
    s.DivShown ((s.divNoted n point d mism).recoverable n 1) (pairOf n) point d ∧
    ((s.divNoted n point d mism).recoverable n 1).cells = s.cells :=
  ⟨(s.divNoted_told n point d mism).shown.kept (State.recoverable_recs _ n) (fun _ _ => recFldFault_of_lsRecord),
    (State.recoverable_recs _ n).cells.trans (s.divNoted_told n point d mism).cells⟩

/-- What a RUNNING slice shows that has diverged. -/
structure State.DivRecovers (s t : State) (n : Slice) (point : Nat) (d : DivRec) (mism : Bool) : Prop where
  shown : s.DivShown t (pairOf n) point d
  cells : t.cells = s.cells
  slState : t.slState n = slRecovering
  diverged : (t.ctlOf n).diverged = true
  recStart : (t.ctlOf n).recStart = s.clock
  mcheck : (t.ctlOf n).mcheck = ((s.ctlOf n).mcheck || mism)
  recCnt : t.getF (R.SLC_REC_CNT n) F.SLC_REC_CNT_COUNT = satInc F.SLC_REC_CNT_COUNT.top (s.getF (R.SLC_REC_CNT n) F.SLC_REC_CNT_COUNT)

theorem State.divergence_recovers (mism : Bool) (hd : firstDiv mw rw ea = some (point, d))
    (hcmp : s.isSet (R.KC_LS_STAT n) F.KC_LS_STAT_SUSPENDED = false) (hfit : s.fitted n = true) (hst : s.slState n = slRunning)
    (hf : (s.ctlOf n).fencing = false) : s.DivRecovers (s.divergence (pairOf n) mw rw ea mism) n point d mism := by
  have told := s.divNoted_told n point d mism
  obtain ⟨hshown, hcells⟩ := s.recoverable_shown n point d mism
  have hgo : (s.divNoted n point d mism).recoverable n 1 = (s.divNoted n point d mism).enterRecovering n 1 :=
    State.recoverable_running (by rw [told.ctl]; exact hf) (told.slState.trans hst)
  have hrec := (s.divNoted n point d mism).enterRecovering_recovers n 1
  rw [State.divergence_slice mism hd hcmp hfit (State.live_not_resting (.inl hst))]
  rw [hgo] at hshown hcells ⊢
  exact {
    shown := hshown
    cells := hcells
    slState := hrec.slState
    diverged := hrec.diverged.trans (by rw [told.ctl]; rfl)
    recStart := hrec.recStart.trans told.clock
    mcheck := hrec.mcheck.trans (by rw [told.ctl]; rfl)
    recCnt := hrec.recCnt.trans (by rw [told.recCnt]) }

/-- A READY or RECOVERING slice that has diverged goes to SAFE. -/
theorem State.divergence_safe (mism : Bool) (hd : firstDiv mw rw ea = some (point, d))
    (hcmp : s.isSet (R.KC_LS_STAT n) F.KC_LS_STAT_SUSPENDED = false) (hfit : s.fitted n = true)
    (hst : s.slState n = slReady ∨ s.slState n = slRecovering) (hf : (s.ctlOf n).fencing = false) :
    (s.divNoted n point d mism).GoneSafe (s.divergence (pairOf n) mw rw ea mism) n (if s.slState n = slReady then 9 else 6) ∧
    s.DivShown (s.divergence (pairOf n) mw rw ea mism) (pairOf n) point d := by
  have told := s.divNoted_told n point d mism
  obtain ⟨hshown, -⟩ := s.recoverable_shown n point d mism
  have hf' : ((s.divNoted n point d mism).ctlOf n).fencing = false := by
    rw [told.ctl]
    exact hf
  have hst' := told.slState
  rw [State.divergence_slice mism hd hcmp hfit (State.live_not_resting (.inr hst))]
  refine ⟨?_, hshown⟩
  rcases hst with h | h
  · rw [State.recoverable_ready hf' (hst'.trans h), if_pos h]
    exact State.enterSafe_goes (by decide) (.inr (.inl (hst'.trans h))) hf'
  · rw [State.recoverable_recovering hf' (hst'.trans h), if_neg (by rw [h]; decide)]
    exact State.enterSafe_goes (by decide) (.inr (.inr (hst'.trans h))) hf'

/-- A slice under RESTART that has diverged stays FENCED, with a recoverable fault noted. -/
theorem State.divergence_fenced (mism : Bool) (hd : firstDiv mw rw ea = some (point, d))
    (hcmp : s.isSet (R.KC_LS_STAT n) F.KC_LS_STAT_SUSPENDED = false) (hfit : s.fitted n = true) (hst : s.slState n = slFenced)
    (hrun : (s.ctlOf n).restarting = true) (hf : (s.ctlOf n).fencing = false) :
    (s.divergence (pairOf n) mw rw ea mism).slState n = slFenced ∧
    (s.divergence (pairOf n) mw rw ea mism).getF (R.SLC_FAULT n) F.SLC_FAULT_CAUSE = 9 ∧
    ((s.divergence (pairOf n) mw rw ea mism).ctlOf n).testDiv = true ∧
    s.DivShown (s.divergence (pairOf n) mw rw ea mism) (pairOf n) point d ∧ (s.divergence (pairOf n) mw rw ea mism).cells = s.cells := by
  have told := s.divNoted_told n point d mism
  obtain ⟨hshown, hcells⟩ := s.recoverable_shown n point d mism
  have hgo : (s.divNoted n point d mism).recoverable n 1 = (s.divNoted n point d mism).slFault n 9 :=
    State.recoverable_fenced (by rw [told.ctl]; exact hf) (told.slState.trans hst)
  have hk := (s.divNoted n point d mism).kept_slFault n 9
  rw [State.divergence_slice mism hd hcmp hfit (by rw [hst]; exact ⟨by decide, by decide, fun _ => hrun⟩)]
  rw [hgo] at hshown hcells ⊢
  refine ⟨(hk.slState_but n).trans (told.slState.trans hst), (State.slFault_shows _ n (by decide)).2, ?_, hshown, hcells⟩
  rw [hk.ctlOf, told.ctl]
  exact Bool.or_eq_true_iff.mpr (.inr hrun)

/-- A slice that a FENCE is leaving notes the fault, but for the cycle of its acceptance. -/
theorem State.divergence_fencing (mism : Bool) (hd : firstDiv mw rw ea = some (point, d))
    (hcmp : s.isSet (R.KC_LS_STAT n) F.KC_LS_STAT_SUSPENDED = false) (hfit : s.fitted n = true)
    (hst : s.slState n = slRunning ∨ s.slState n = slReady ∨ s.slState n = slRecovering) (hf : (s.ctlOf n).fencing = true) :
    (s.divergence (pairOf n) mw rw ea mism).slState n = s.slState n ∧
    (s.divergence (pairOf n) mw rw ea mism).getF (R.SLC_FAULT n) F.SLC_FAULT_CAUSE = s.getF (R.SLC_FAULT n) F.SLC_FAULT_CAUSE ∧
    ((s.divergence (pairOf n) mw rw ea mism).ctlOf n).fenceFault = ((s.ctlOf n).fenceFault || decide ((s.ctlOf n).fenceAt ≠ s.clock)) ∧
    s.DivShown (s.divergence (pairOf n) mw rw ea mism) (pairOf n) point d ∧ (s.divergence (pairOf n) mw rw ea mism).cells = s.cells := by
  have told := s.divNoted_told n point d mism
  obtain ⟨hshown, hcells⟩ := s.recoverable_shown n point d mism
  have hoff : s.slState n ≠ slOff := by rcases hst with h | h | h <;> rw [h] <;> decide
  have hgo := State.recoverable_fencing (s := s.divNoted n point d mism) (n := n) (by rw [told.ctl]; exact hf)
    (by rw [told.slState]; exact hoff)
  have hat : ((s.divNoted n point d mism).ctlOf n).fenceAt = (s.ctlOf n).fenceAt := by
    rw [told.ctl]
    rfl
  have hfault : ((s.divNoted n point d mism).ctlOf n).fenceFault = (s.ctlOf n).fenceFault := by
    rw [told.ctl]
    rfl
  rw [hat, told.clock] at hgo
  rw [State.divergence_slice mism hd hcmp hfit (State.live_not_resting hst)]
  by_cases heq : (s.ctlOf n).fenceAt = s.clock
  · rw [if_pos (beq_iff_eq.mpr heq)] at hgo
    rw [hgo] at hshown hcells ⊢
    exact ⟨told.slState, told.slFault, by rw [hfault, decide_eq_false (not_not.mpr heq), Bool.or_false], hshown, hcells⟩
  · rw [if_neg (fun h => heq (beq_iff_eq.mp h))] at hgo
    rw [hgo] at hshown hcells ⊢
    exact ⟨told.slState, told.slFault, by rw [State.ctlOf_setCtl_self, decide_eq_true heq, Bool.or_true], hshown, hcells⟩

/-- Nothing diverges: no difference, no comparison, or a slice that cannot. -/
theorem State.divergence_none (mism : Bool) (h : firstDiv mw rw ea = none ∨ s.isSet (R.KC_LS_STAT n) F.KC_LS_STAT_SUSPENDED = true ∨
    s.fitted n = false ∨ s.slState n = slOff ∨ s.slState n = slSafe ∨ (s.slState n = slFenced ∧ (s.ctlOf n).restarting = false)) :
    s.divergence (pairOf n) mw rw ea mism = s := by
  have hp : (pairOf n).val < 12 := n.isLt
  unfold State.divergence
  split
  · rfl
  · next pt e heq =>
    have hcases : s.compares (pairOf n) = true → (!s.fitted n || s.slState n == slOff || s.slState n == slSafe ||
        (s.slState n == slFenced && !(s.ctlOf n).restarting)) = true := fun hcmp => by
      rcases h with h | h | h | h | h | ⟨h, hrun⟩
      · rw [h] at heq
        cases heq
      · rw [State.compares, show R.KC_LS_STAT (pairOf n) = R.KC_LS_STAT n from rfl, h] at hcmp
        cases hcmp
      · simp [h]
      · simp [h]
      · simp [h]
      · simp [h, hrun]
    cases hcmp : s.compares (pairOf n) with
    | false => rfl
    | true =>
      rw [if_neg (by decide), dif_pos hp]
      exact if_pos (hcases hcmp)

end Slice

/-! The system pair (R274). -/

/-- The system pair that diverges halts, and Colbel is unavailable. -/
theorem State.divergence_system {s : State} {mw rw ea : Option DivRec} {point : Nat} {d : DivRec} (mism : Bool)
    (hd : firstDiv mw rw ea = some (point, d)) (hcmp : s.isSet (R.KC_LS_STAT 12) F.KC_LS_STAT_SUSPENDED = false)
    (hrun : (s.coreOf 12).halted = false) :
    s.DivShown (s.divergence 12 mw rw ea mism) 12 point d ∧ ((s.divergence 12 mw rw ea mism).coreOf 12).halted = true ∧
    (s.divergence 12 mw rw ea mism).isSet R.DBG_STAT F.DBG_STAT_AVAIL = false ∧ (s.divergence 12 mw rw ea mism).sysDown = true ∧
    (s.divergence 12 mw rw ea mism).cells = s.cells := by
  have hcompares : s.compares ((12 : Fin 13) : Nat) = true := by
    rw [State.compares, show (((12 : Fin 13) : Nat)) = 12 from rfl, hcmp]
    rfl
  have hhalt : ((s.noteDiv 12 point d).coreOf 12).halted = false := hrun
  have heq : s.divergence 12 mw rw ea mism = (s.noteDiv 12 point d).sysHalt := by
    unfold State.divergence
    rw [hd]
    simp only [hcompares, Bool.not_true, Bool.false_eq_true, if_false]
    rw [dif_neg (by decide), if_neg (by rw [hrun]; decide)]
    rfl
  have hshown : s.DivShown (s.noteDiv 12 point d) ((12 : Fin 13) : Nat) point d := s.noteDiv_shown 12 point d
  have hcells := s.noteDiv_cells 12 point d
  rw [heq]
  generalize s.noteDiv 12 point d = u at hhalt hshown hcells ⊢
  unfold State.sysHalt
  rw [if_neg (by rw [hhalt]; decide)]
  extract_lets s0 s1
  have h0 : u.RecKept RecFld s0 := ((State.RecKept.refl _ u).handOver _ _).ite (.refl _ u)
  have hhalted : u.RecKept RecFld s1 := (h0.unCheckpoint 12).haltPair 12
  have hdone : (s1.coreOf 12).halted = true := State.halted_haltPair _ _
  clear_value s1
  have hdown : s1.RecKept RecFld { s1 with sysDown := true } := (State.RecKept.refl _ s1).elsewhere (by rfl)
  have hoff : ({ s1 with sysDown := true } : State).RecKept RecFld
      ((({ s1 with sysDown := true } : State).setF R.DBG_STAT F.DBG_STAT_AVAIL 0).fire 1) :=
    ((State.RecKept.refl _ _).setReg (by simp only [RecAddr, R.DBG_STAT]; omega) _).fire 1
  have hend := (hhalted.trans hdown).trans hoff
  refine ⟨hshown.kept hend (fun _ _ h _ => h), (hdown.trans hoff).halted _ hdone, ?_, ?_, hend.cells.trans hcells⟩
  · rw [State.isSet, State.getF, State.fire_reg _ _ _ (by decide), ← State.getF, State.getF_setF_of_lt _ _ _ _ (by decide) (by decide)]
    rfl
  · rw [(State.fire_only _ 1).rest]
    rfl

end Machine
end Sys2Proof
end

section
/-! PROOFS. The end of a recovery (R137, R386 to R389). -/

namespace Sys2Proof
namespace Machine

/-! SLC_REC_STAT (R383). -/

theorem State.recStat_ctlOf (s : State) (n m : Fin 12) : (s.recStat n).ctlOf m = s.ctlOf m := rfl

theorem State.recStat_fields (s : State) (n : Fin 12) : (s.recStat n).isSet (R.SLC_REC_STAT n) F.SLC_REC_STAT_REC_F = true ∧
    (s.recStat n).getF (R.SLC_REC_STAT n) F.SLC_REC_STAT_CAUSE = (s.ctlOf n).recCause % 2 ^ F.SLC_REC_STAT_CAUSE.width := by
  unfold State.recStat
  extract_lets c k a ns
  refine ⟨?_, ?_⟩
  · rw [State.isSet, State.getF, State.reg_setReg_self]
    simp only [Fld.get_or]
    rw [F.SLC_REC_STAT_REC_F.get_word _ (by decide), F.SLC_REC_STAT_TAKEOVER.get_word_ne _ _ (by decide) (by decide),
      F.SLC_REC_STAT_CAUSE.get_word_ne _ _ (by decide) (by decide), F.SLC_REC_STAT_K.get_word_ne _ _ (by decide) (by decide),
      F.SLC_REC_STAT_DURATION.get_word_ne _ _ (by decide) (by decide)]
    rfl
  · rw [State.getF, State.reg_setReg_self]
    simp only [Fld.get_or]
    rw [F.SLC_REC_STAT_REC_F.get_word_ne _ _ (by decide) (by decide), F.SLC_REC_STAT_TAKEOVER.get_word_ne _ _ (by decide) (by decide),
      F.SLC_REC_STAT_CAUSE.get_word _ (by decide), F.SLC_REC_STAT_K.get_word_ne _ _ (by decide) (by decide),
      F.SLC_REC_STAT_DURATION.get_word_ne _ _ (by decide) (by decide)]
    simp only [Nat.zero_or, Nat.or_zero]
    rfl

theorem State.recStat_kept (s : State) (n : Fin 12) : s.CtlKept (s.recStat n) :=
  (State.CtlKept.refl s).setReg _ (by
    simp only [CtlReg, SlcReg, R.SLC_REC_STAT, sliceBase]
    omega)

/-! Back to RUNNING (R389). -/

theorem State.descReplay_ctlOf (s : State) (k : Nat) (n : Fin 12) : (s.descReplay k).ctlOf n = s.ctlOf n := rfl

theorem State.descReplay_isSet (s : State) (k a : Nat) (f : Fld) : (s.descReplay k).isSet a f = s.isSet a f := rfl

/-- What slice n shows when its recovery has ended in RUNNING. -/
structure State.RunsAgain (s t : State) (n : Slice) : Prop where
  slState : t.slState n = slRunning
  diverged : (t.ctlOf n).diverged = false
  badWord : (t.ctlOf n).badWord = none
  recF : t.isSet (R.SLC_REC_STAT n) F.SLC_REC_STAT_REC_F = true
  recCause : t.getF (R.SLC_REC_STAT n) F.SLC_REC_STAT_CAUSE = (s.ctlOf n).recCause % 2 ^ F.SLC_REC_STAT_CAUSE.width
  mstore : t.mstore = s.mstore
  open_ : s.isSet (R.SLC_CMD_STAT n) F.SLC_CMD_STAT_HELD = false → (t.ctlOf n).fencing = (s.ctlOf n).fencing ∧ (t.ctlOf n).mcheck = false
  fenced : s.isSet (R.SLC_CMD_STAT n) F.SLC_CMD_STAT_HELD = true → (t.ctlOf n).fencing = true ∧
    (t.ctlOf n).fenceCause = (s.ctlOf n).fenceCause ∧ t.isSet (R.SLC_CMD_STAT n) F.SLC_CMD_STAT_HELD = false ∧ t.armed n = false ∧
    (t.coreOf (pairOf n)).halted = true

/-- The control of a slice whose recovery has ended. -/
def endCtl (c : CtlSt) : CtlSt := { c with diverged := false, mcheck := false, badWord := none, takeover := false, attachHeld := none }

/-- The state in which the slice runs again, before what was held takes effect. -/
def State.running (s : State) (n : Fin 12) : State :=
  let s1 := s.recStat n
  let s2 := s1.setCtl n { s1.ctlOf n with diverged := false, mcheck := false, badWord := none, takeover := false }
  (((s2.setSl n slRunning).resumeDma n).descReplay n).heldAttach n

theorem State.backToRunning_eq (s : State) (n : Fin 12) : s.backToRunning n =
    ((if (s.running n).isSet (R.SLC_CMD_STAT n) F.SLC_CMD_STAT_HELD then (s.running n).fenceNow n ((s.running n).ctlOf n).fenceCause
      else (s.running n).armPending n).pinsSlice n).showSync := rfl

/-- What holds before a fence or an arm request that was held takes effect. -/
structure State.RunsNow (s t : State) (n : Slice) : Prop where
  slState : t.slState n = slRunning
  ctl : t.ctlOf n = endCtl (s.ctlOf n)
  held : t.isSet (R.SLC_CMD_STAT n) F.SLC_CMD_STAT_HELD = s.isSet (R.SLC_CMD_STAT n) F.SLC_CMD_STAT_HELD
  recStat : ∀ f, t.getF (R.SLC_REC_STAT n) f = (s.recStat n).getF (R.SLC_REC_STAT n) f
  mstore : t.mstore = s.mstore

theorem State.running_now (s : State) (n : Slice) : s.RunsNow (s.running n) n := by
  have hne : R.SLC_REC_STAT n ≠ R.SLC_STATE n := by
    simp only [R.SLC_REC_STAT, R.SLC_STATE]
    omega
  unfold State.running
  extract_lets s1 c s2
  have h12 : s1.RecKept RecFld s2 := (State.RecKept.refl _ s1).setCtl n _
  have hctl2 : s2.ctlOf n = { s.ctlOf n with diverged := false, mcheck := false, badWord := none, takeover := false } :=
    State.ctlOf_setCtl_self s1 n _
  have hheld2 : s2.isSet (R.SLC_CMD_STAT n) F.SLC_CMD_STAT_HELD = s.isSet (R.SLC_CMD_STAT n) F.SLC_CMD_STAT_HELD :=
    (s.recStat_kept n).isSet (ctlReg_SLC_CMD_STAT n) _
  clear_value s2
  have hset := s2.rec_setSl n slRunning
  have hsetK := s2.kept_setSl n slRunning
  have hdma : (s2.setSl n slRunning).Kept CtlReg ((s2.setSl n slRunning).resumeDma n) := (State.Kept.refl _ _).resumeDma n
  have hctl4 : (((s2.setSl n slRunning).resumeDma n).descReplay n).ctlOf n = s2.ctlOf n :=
    (State.descReplay_ctlOf _ n n).trans ((hdma.ctlOf n).trans (hsetK.ctlOf n))
  have hheld4 : (((s2.setSl n slRunning).resumeDma n).descReplay n).isSet (R.SLC_CMD_STAT n) F.SLC_CMD_STAT_HELD =
      s2.isSet (R.SLC_CMD_STAT n) F.SLC_CMD_STAT_HELD :=
    (State.descReplay_isSet _ n _ _).trans ((hdma.isSet (ctlReg_SLC_CMD_STAT n) _).trans (hsetK.isSet_but (ctlReg_SLC_CMD_STAT n) _))
  obtain ⟨hattach, hcmd⟩ := (((s2.setSl n slRunning).resumeDma n).descReplay n).heldAttach_shows n
  have hend : (s2.setSl n slRunning).RecKept RecFld ((((s2.setSl n slRunning).resumeDma n).descReplay n).heldAttach n) :=
    (((State.RecKept.refl _ _).resumeDma n).descReplay n).heldAttach n
  exact {
    slState := (hend.slState n).trans (State.slState_setSl _ n (by decide))
    ctl := by
      rw [hattach, hctl4, hctl2]
      rfl
    held := (congrArg (fun w => F.SLC_CMD_STAT_HELD.get w == 1) hcmd).trans (hheld4.trans hheld2)
    recStat := fun f => ((hset.trans (hend.but _)).flds _ _ ⟨recFld_SLC_REC_STAT n f, hne⟩).trans (h12.flds _ _ (recFld_SLC_REC_STAT n f))
    mstore := (hset.trans (hend.but _)).mstore.trans h12.mstore }

theorem State.backToRunning_runs (s : State) (n : Slice) : s.RunsAgain (s.backToRunning n) n := by
  have hnow := s.running_now n
  obtain ⟨hrecF, hcause⟩ := s.recStat_fields n
  rw [State.backToRunning_eq, hnow.held]
  generalize s.running n = u at hnow ⊢
  cases hheld : s.isSet (R.SLC_CMD_STAT n) F.SLC_CMD_STAT_HELD with
  | false =>
    rw [if_neg Bool.false_ne_true]
    have hend : (u.armPending n).RecKept RecFld ((u.armPending n).pinsSlice n).showSync := ((State.RecKept.refl _ _).pinsSlice n).showSync
    have hendK : (u.armPending n).Kept CtlReg ((u.armPending n).pinsSlice n).showSync := ((State.Kept.refl _ _).pinsSlice n).showSync
    obtain ⟨hflds, hmstore⟩ := u.armPending_recs n
    have hctl := (hendK.ctlOf n).trans (((u.kept_armPending n).ctlOf n).trans hnow.ctl)
    have hstat : ∀ f, ((u.armPending n).pinsSlice n).showSync.getF (R.SLC_REC_STAT n) f = (s.recStat n).getF (R.SLC_REC_STAT n) f := fun f =>
      (hend.flds _ _ (recFld_SLC_REC_STAT n f)).trans ((hflds _ _ (recFld_SLC_REC_STAT n f)).trans (hnow.recStat f))
    exact {
      slState := (hend.slState n).trans ((hflds _ _ (recFld_SLC_STATE n)).trans hnow.slState)
      diverged := by rw [hctl]; rfl
      badWord := by rw [hctl]; rfl
      recF := (congrArg (· == 1) (hstat _)).trans hrecF
      recCause := (hstat _).trans hcause
      mstore := hend.mstore.trans (hmstore.trans hnow.mstore)
      open_ := fun _ => ⟨by rw [hctl]; rfl, by rw [hctl]; rfl⟩
      fenced := fun h => absurd (hheld.symm.trans h) Bool.false_ne_true }
  | true =>
    rw [if_pos rfl]
    have hfence := u.fenceNow_fencing n (u.ctlOf n).fenceCause
    have hrec : u.RecKept RecFld (u.fenceNow n (u.ctlOf n).fenceCause) := (State.RecKept.refl _ u).fenceNow n _
    generalize u.fenceNow n (u.ctlOf n).fenceCause = v at hfence hrec ⊢
    have hendR : v.RecKept RecFld (v.pinsSlice n).showSync := ((State.RecKept.refl _ v).pinsSlice n).showSync
    have hendK : v.Kept CtlReg (v.pinsSlice n).showSync := ((State.Kept.refl _ v).pinsSlice n).showSync
    have hend : u.RecKept RecFld (v.pinsSlice n).showSync := hrec.trans hendR
    have hctl := hendK.ctlOf n
    exact {
      slState := (hend.slState n).trans hnow.slState
      diverged := by
        rw [hctl, hfence.diverged, hnow.ctl]
        rfl
      badWord := by
        rw [hctl, hfence.badWord, hnow.ctl]
        rfl
      recF := (congrArg (· == 1) ((hend.flds _ _ (recFld_SLC_REC_STAT n _)).trans (hnow.recStat _))).trans hrecF
      recCause := (hend.flds _ _ (recFld_SLC_REC_STAT n _)).trans ((hnow.recStat _).trans hcause)
      mstore := hend.mstore.trans hnow.mstore
      open_ := fun h => absurd (hheld.symm.trans h).symm Bool.false_ne_true
      fenced := fun _ => ⟨by rw [hctl, hfence.fencing], by
          rw [hctl, hfence.fenceCause, hnow.ctl]
          rfl, (hendK.isSet (ctlReg_SLC_CMD_STAT n) _).trans hfence.held, hendR.disarmed _ hfence.disarmed, hendR.halted _ hfence.halted⟩ }

/-! RECOVERY_COMPLETE (R137, R387, R389). -/

theorem State.recoveryEnd_noWord {s : State} {n : Slice} (hst : s.slState n = slRecovering) (htk : (s.ctlOf n).takeover = false)
    (hbad : (s.ctlOf n).badWord = none) (stuck differs : Bool) :
    s.recoveryEnd n stuck differs = if differs then s.enterSafe n 6 else (s.runLive n).backToRunning n := by
  unfold State.recoveryEnd
  extract_lets c
  rw [if_neg (by simp [hst, htk, c])]
  simp only [c, hbad, Bool.not_true, Bool.false_eq_true, if_false]

theorem State.recoveryEnd_word {s : State} {n : Slice} {w : Nat} (hst : s.slState n = slRecovering) (htk : (s.ctlOf n).takeover = false)
    (hbad : (s.ctlOf n).badWord = some w) (stuck differs : Bool) :
    s.recoveryEnd n stuck differs = if (s.mendWord n w stuck).2 = false then (s.mendWord n w stuck).1.enterSafe n 4
      else if differs then (s.mendWord n w stuck).1.enterSafe n 6 else ((s.mendWord n w stuck).1.runLive n).backToRunning n := by
  unfold State.recoveryEnd
  extract_lets c
  rw [if_neg (by simp [hst, htk, c])]
  simp only [c, hbad]
  cases (s.mendWord n w stuck).2 <;> rfl

/-- An equation of functions: the kernel then compares the two without reading a copy. -/
theorem State.mendWord_fun : State.mendWord = fun s n w stuck =>
    match s.readCopy n w with
    | (t, some v) => if stuck then (t, false) else (t.setUword n w v, parityOk v)
    | (t, none) => (t, false) := rfl

theorem State.mendWord_kept (s : State) (n w : Nat) (stuck : Bool) : s.CtlKept (s.mendWord n w stuck).1 := by
  have hread : s.CtlKept (s.readCopy n w).1 := (State.CtlKept.refl s).readCopy n w
  rw [State.mendWord_fun]
  beta_reduce
  generalize s.readCopy n w = r at hread ⊢
  obtain ⟨t, _ | v⟩ := r
  · exact hread
  · cases stuck with
    | true => exact hread
    | false => exact hread.elsewhere (by rfl)

/-- A word whose copy reads good is mended. -/
theorem State.mendWord_good {s : State} {n w : Nat} {v : MWord} (hv : (s.readCopy n w).2 = some v) (hp : parityOk v = true) :
    (s.mendWord n w false).2 = true ∧ (s.mendWord n w false).1.uword n w = v := by
  rcases hread : s.readCopy n w with ⟨t, c⟩
  rw [hread] at hv
  cases hv
  rw [State.mendWord_fun]
  simp only [hread, Bool.false_eq_true, if_false]
  exact ⟨hp, SMap.get_put_self _ _ _ _⟩

/-- A word that stays wrong, or has no copy, is not mended. -/
theorem State.mendWord_bad {s : State} {n w : Nat} {stuck : Bool} (h : stuck = true ∨ (s.readCopy n w).2 = none) :
    (s.mendWord n w stuck).2 = false := by
  rw [State.mendWord_fun]
  beta_reduce
  generalize s.readCopy n w = r at h ⊢
  obtain ⟨t, _ | v⟩ := r
  · rfl
  · rcases h with h | h
    · subst h
      rfl
    · cases h

end Machine
end Sys2Proof
end

section
/-! PROOFS. Lockstep and recovery: the settling theorem (R271 to R278, R386 to R389). -/

namespace Sys2Proof
namespace Machine

/-! The first point at which records differ (R275). -/

theorem firstDiv_mem {d : DivRec} (h : d.differs 1 = true) (rw ea : Option DivRec) : firstDiv (some d) rw ea = some (1, d) := by
  simp [firstDiv, Option.filter, h]

theorem firstDiv_reg {mw : Option DivRec} {d : DivRec} (hm : mw.filter (fun r => r.differs 1) = none) (h : d.differs 2 = true)
    (ea : Option DivRec) : firstDiv mw (some d) ea = some (2, d) := by
  have hd : (some d).filter (fun r => r.differs 2) = some d := by simp [Option.filter, h]
  simp only [firstDiv, hm, hd]

theorem firstDiv_event {mw rw : Option DivRec} {d : DivRec} (hm : mw.filter (fun r => r.differs 1) = none)
    (hr : rw.filter (fun r => r.differs 2) = none) (h : d.differs 3 = true) : firstDiv mw rw (some d) = some (3, d) := by
  have hd : (some d).filter (fun r => r.differs 3) = some d := by simp [Option.filter, h]
  simp only [firstDiv, hm, hr, hd]

/-- Records that differ do so at a point. -/
theorem firstDiv_some {mw rw ea : Option DivRec} (h : firstDiv mw rw ea ≠ none) : ∃ point d, firstDiv mw rw ea = some (point, d) := by
  obtain ⟨⟨point, d⟩, hd⟩ := Option.ne_none_iff_exists'.mp h
  exact ⟨point, d, hd⟩

/-! What KC_LS_LAST shows. -/

namespace State.DivShown

variable {s t : State} {p point : Nat} {d : DivRec}

theorem getF_last (h : s.DivShown t p point d) (f : Fld) : t.getF (R.KC_LS_LAST p) f = f.get (divWord point d) := congrArg f.get h.last

theorem isSet_diff (h : s.DivShown t p point d) (hp : point < 16) : t.isSet (R.KC_LS_LAST p) F.KC_LS_LAST_ADDR_DIFF = d.addrDiff := by
  obtain ⟨-, -, -, hdiff⟩ := divWord_fields hp d
  rw [State.isSet, h.getF_last, hdiff]
  cases d.addrDiff <;> rfl

end State.DivShown

/-! Checkpoints (R386). -/

theorem State.checkpoint_taken {s : State} {p : Pair} (hdef : (s.coreOf p).deferred = false) (hrun : (s.coreOf p).halted = false)
    (hrec : p.val < 12 → s.slState p ≠ slRecovering) : s.checkpoint p = s.setCore p { s.coreOf p with
      ck := some (s.kr p, s.reg (R.KC_CSEL p)), log := [], retired := 0, ckAt := s.clock, ckWas := (s.coreOf p).ck, logWas := (s.coreOf p).log } := by
  have hfree : (decide (p.val < 12) && s.slState p == slRecovering) = false := by
    by_cases h : p.val < 12
    · rw [beq_false_of_ne (hrec h), Bool.and_false]
    · rw [decide_eq_false h, Bool.false_and]
  unfold State.checkpoint
  extract_lets c
  rw [if_neg (by simp only [c, hdef, hrun, hfree, Bool.or_self, Bool.false_eq_true, not_false_eq_true])]
  rfl

theorem State.checkpoint_barred {s : State} {p : Pair}
    (h : (s.coreOf p).deferred = true ∨ (s.coreOf p).halted = true ∨ (p.val < 12 ∧ s.slState p = slRecovering)) : s.checkpoint p = s := by
  unfold State.checkpoint
  extract_lets c
  refine if_pos ?_
  rcases h with h | h | ⟨hp, h⟩
  · simp only [c, h, Bool.true_or]
  · simp only [c, h, Bool.or_true, Bool.true_or]
  · simp [hp, h]

/-! CLE_MISMATCH of the same cycle (R275). -/

theorem State.divergence_mismatch {s : State} {n : Slice} {mw rw ea : Option DivRec} {point : Nat} {d : DivRec}
    (hd : firstDiv mw rw ea = some (point, d)) (hcmp : s.isSet (R.KC_LS_STAT n) F.KC_LS_STAT_SUSPENDED = false) (hfit : s.fitted n = true)
    (hst : s.slState n = slRunning ∨ s.slState n = slReady ∨ s.slState n = slRecovering) :
    (s.divergence (pairOf n) mw rw ea true).getF (R.CLE_MISMATCH n) F.CLE_MISMATCH_COUNT =
      satInc F.CLE_MISMATCH_COUNT.top (s.getF (R.CLE_MISMATCH n) F.CLE_MISMATCH_COUNT) ∧
    s.DivShown (s.divergence (pairOf n) mw rw ea true) (pairOf n) point d := by
  rw [State.divergence_slice true hd hcmp hfit (State.live_not_resting hst)]
  refine ⟨?_, (s.recoverable_shown n point d true).1⟩
  have hP : RecFldFault n (R.CLE_MISMATCH n) F.CLE_MISMATCH_COUNT := by
    refine ⟨⟨recFld_CLE_MISMATCH n _, ?_, ?_, ?_⟩, ?_⟩ <;>
      simp only [R.CLE_MISMATCH, R.SLC_STATE, R.SLC_FAULT, R.SLC_REC_STAT, R.SLC_REC_CNT] <;> omega
  exact ((State.recoverable_recs _ n).flds _ _ hP).trans (s.divNoted_told n point d true).mismatch

/-- Settles O31: a divergence is recorded, and the slice then goes where its state sends it; a recovery ends in RUNNING, where what was
held takes effect, or in SAFE. -/
theorem lockstepAndRecovery : Obligations.LockstepAndRecovery := by
  unfold Obligations.LockstepAndRecovery
  refine ⟨fun s p d hd hdef hrun hrec => ?_, fun s p h => ?_, fun s n d rw ea mism hd hcmp hfit hst hf => ?_,
    fun s n d mw ea mism hm hd hcmp hfit hst hf => ?_, fun s n d mw rw mism hm hr hd hcmp hfit hst hf => ?_,
    fun s n mw rw ea mism hd hmis hcmp hfit hst => ?_, fun s n mw rw ea mism hd hcmp hfit hst hf => ?_,
    fun s n mw rw ea mism hd hcmp hfit hst hf => ?_, fun s n mw rw ea mism hd hcmp hfit hst hrun hf => ?_,
    fun s n mw rw ea mism hd hcmp hfit hst hf => ?_, fun s n mw rw ea mism h => ?_, fun s mw rw ea mism hd hcmp hrun => ?_,
    fun s n hst htk hbad hheld => ?_, fun s n hst htk hbad hheld => ?_, fun s n w v hst htk hbad hv hp => ?_,
    fun s n w stuck differs hst htk hf hbad h => ?_, fun s n hst htk hbad hf => ?_, fun s n stuck differs h => ?_⟩
  · subst hd
    exact ⟨s.checkpoint p, rfl, State.checkpoint_taken hdef hrun hrec⟩
  · exact ⟨s.checkpoint p, rfl, State.checkpoint_barred h⟩
  · have hgo := State.divergence_recovers mism (firstDiv_mem hd rw ea) hcmp hfit hst hf
    obtain ⟨hpoint, htag, hbe, -⟩ := divWord_fields (by decide : 1 < 16) d
    exact ⟨s.divergence _ _ _ _ mism, rfl, hgo.shown.flag, hgo.shown.count, hgo.slState, hgo.diverged, hgo.recStart, hgo.mcheck, hgo.recCnt, hgo.cells,
      hgo.shown.addr, hgo.shown.xor, (hgo.shown.getF_last _).trans hpoint, (hgo.shown.getF_last _).trans htag,
      (hgo.shown.getF_last _).trans hbe, hgo.shown.isSet_diff (by decide)⟩
  · have hgo := State.divergence_recovers mism (firstDiv_reg hm hd ea) hcmp hfit hst hf
    obtain ⟨hpoint, htag, hbe, -⟩ := divWord_fields (by decide : 2 < 16) d
    exact ⟨s.divergence _ _ _ _ mism, rfl, hgo.shown.flag, hgo.shown.count, hgo.slState, hgo.diverged, hgo.recStart, hgo.mcheck, hgo.recCnt, hgo.cells,
      hgo.shown.addr, hgo.shown.xor, (hgo.shown.getF_last _).trans hpoint, (hgo.shown.getF_last _).trans htag,
      (hgo.shown.getF_last _).trans hbe, hgo.shown.isSet_diff (by decide)⟩
  · have hgo := State.divergence_recovers mism (firstDiv_event hm hr hd) hcmp hfit hst hf
    obtain ⟨hpoint, htag, hbe, -⟩ := divWord_fields (by decide : 3 < 16) d
    exact ⟨s.divergence _ _ _ _ mism, rfl, hgo.shown.flag, hgo.shown.count, hgo.slState, hgo.diverged, hgo.recStart, hgo.mcheck, hgo.recCnt, hgo.cells,
      hgo.shown.addr, hgo.shown.xor, (hgo.shown.getF_last _).trans hpoint, (hgo.shown.getF_last _).trans htag,
      (hgo.shown.getF_last _).trans hbe, hgo.shown.isSet_diff (by decide)⟩
  · subst hmis
    obtain ⟨point, d, hd⟩ := firstDiv_some hd
    obtain ⟨hmis, hshown⟩ := State.divergence_mismatch hd hcmp hfit hst
    exact ⟨s.divergence _ _ _ _ true, rfl, hmis, hshown.flag, hshown.count⟩
  · obtain ⟨point, d, hd⟩ := firstDiv_some hd
    obtain ⟨hgone, hshown⟩ := State.divergence_safe mism hd hcmp hfit (.inl hst) hf
    exact ⟨s.divergence _ _ _ _ mism, rfl, hgone.slState, hgone.cause.trans (if_pos hst), hgone.valid, hshown.flag, hshown.count, hgone.disarmed, hgone.halted⟩
  · obtain ⟨point, d, hd⟩ := firstDiv_some hd
    obtain ⟨hgone, hshown⟩ := State.divergence_safe mism hd hcmp hfit (.inr hst) hf
    exact ⟨s.divergence _ _ _ _ mism, rfl, hgone.slState, hgone.cause.trans (if_neg (by rw [hst]; decide)), hgone.valid, hshown.flag, hshown.count,
      hgone.disarmed, hgone.halted⟩
  · obtain ⟨point, d, hd⟩ := firstDiv_some hd
    obtain ⟨hfenced, hcause, htest, hshown, hcells⟩ := State.divergence_fenced mism hd hcmp hfit hst hrun hf
    exact ⟨s.divergence _ _ _ _ mism, rfl, hfenced, hcause, htest, hshown.flag, hshown.count, hcells⟩
  · obtain ⟨point, d, hd⟩ := firstDiv_some hd
    obtain ⟨hslState, hcause, hfault, hshown, hcells⟩ := State.divergence_fencing mism hd hcmp hfit hst hf
    exact ⟨s.divergence _ _ _ _ mism, rfl, hslState, hcause, hfault, hshown.flag, hshown.count, hcells⟩
  · exact ⟨s.divergence _ _ _ _ mism, rfl, State.divergence_none mism h⟩
  · obtain ⟨point, d, hd⟩ := firstDiv_some hd
    obtain ⟨hshown, hhalted, havail, hdown, hcells⟩ := State.divergence_system mism hd hcmp hrun
    exact ⟨s.divergence _ _ _ _ mism, rfl, hshown.flag, hshown.count, hhalted, havail, hdown, hcells⟩
  · have heq : s.recoveryEnd n false false = (s.runLive n).backToRunning n := by
      rw [State.recoveryEnd_noWord hst htk hbad, if_neg Bool.false_ne_true]
    have hlive := s.ctlKept_runLive n
    have hruns := (s.runLive n).backToRunning_runs n
    obtain ⟨hfencing, hmcheck⟩ := hruns.open_ ((hlive.isSet (ctlReg_SLC_CMD_STAT n) _).trans hheld)
    rw [hlive.ctlOf] at hfencing
    exact ⟨_, congrArg Host.Outcome.next heq, hruns.slState, hruns.diverged, hmcheck, hfencing, hruns.recF,
      hruns.recCause.trans (by rw [hlive.ctlOf])⟩
  · have heq : s.recoveryEnd n false false = (s.runLive n).backToRunning n := by
      rw [State.recoveryEnd_noWord hst htk hbad, if_neg Bool.false_ne_true]
    have hlive := s.ctlKept_runLive n
    have hruns := (s.runLive n).backToRunning_runs n
    obtain ⟨hfencing, hcause, hdone, harmed, hhalted⟩ := hruns.fenced ((hlive.isSet (ctlReg_SLC_CMD_STAT n) _).trans hheld)
    rw [hlive.ctlOf] at hcause
    exact ⟨_, congrArg Host.Outcome.next heq, hruns.slState, hruns.diverged, hfencing, hcause, hdone, harmed, hhalted⟩
  · obtain ⟨hok, hword⟩ := State.mendWord_good hv hp
    have heq : s.recoveryEnd n false false = ((s.mendWord n w false).1.runLive n).backToRunning n := by
      rw [State.recoveryEnd_word hst htk hbad, if_neg (by rw [hok]; decide), if_neg Bool.false_ne_true]
    have hruns := ((s.mendWord n w false).1.runLive n).backToRunning_runs n
    have hlive : (s.mendWord n w false).1.RecKept RecFld ((s.mendWord n w false).1.runLive n) := (State.RecKept.refl _ _).runLive n
    refine ⟨_, congrArg Host.Outcome.next heq, hruns.slState, ?_, hruns.badWord, hruns.recF⟩
    rw [State.uword, hruns.mstore, hlive.mstore]
    exact hword
  · have heq : s.recoveryEnd n stuck differs = (s.mendWord n w stuck).1.enterSafe n 4 := by
      rw [State.recoveryEnd_word hst htk hbad, if_pos (State.mendWord_bad h)]
    have hk := s.mendWord_kept n w stuck
    have hgone := State.enterSafe_goes (s := (s.mendWord n w stuck).1) (n := n) (cause := 4) (by decide)
      (.inr (.inr ((hk.slState n).trans hst))) (by rw [hk.ctlOf]; exact hf)
    exact ⟨_, congrArg Host.Outcome.next heq, hgone.slState, hgone.cause, hgone.valid, hgone.disarmed⟩
  · have heq : s.recoveryEnd n false true = s.enterSafe n 6 := by
      rw [State.recoveryEnd_noWord hst htk hbad, if_pos rfl]
    have hgone := State.enterSafe_goes (s := s) (n := n) (cause := 6) (by decide) (.inr (.inr hst)) hf
    obtain ⟨u, hctl, hstat⟩ := hgone.recStat hst
    obtain ⟨hrecF, hcause⟩ := u.recStat_fields n
    rw [hctl] at hcause
    exact ⟨_, congrArg Host.Outcome.next heq, hgone.slState, hgone.cause, hgone.valid, hgone.disarmed,
      (congrArg (· == 1) (hstat _)).trans hrecF, (hstat _).trans hcause⟩
  · have heq : s.recoveryEnd n stuck differs = s := by
      unfold State.recoveryEnd
      extract_lets c
      refine if_pos ?_
      rcases h with h | h
      · rw [bne_iff_ne.mpr h, Bool.true_or]
      · rw [show c.takeover = true from h, Bool.or_true]
    exact ⟨s.recoveryEnd n stuck differs, rfl, heq⟩

end Machine
end Sys2Proof
end

section
/-! PROOFS. Loads and stores of a core pair: an operand that may be loaded, and a store that joins the store buffer (R209, R212, R214,
R227, R238, R239). -/

namespace Sys2Proof
namespace Machine

theorem State.Traced.memStalls {s t : State} {p : Pair} (h : s.Traced t p) (a : Nat) : t.memStalls a = s.memStalls a := by
  obtain ⟨b, q, l, d, rfl⟩ := h
  rfl

theorem State.Traced.slState {s t : State} {p : Pair} (h : s.Traced t p) (n : Nat) : t.slState n = s.slState n := by
  obtain ⟨b, q, l, d, rfl⟩ := h
  rfl

/-! Reads of memory without an error. -/

theorem State.rd_unmarked {s : State} {a : Nat} (h : s.mark a = none) : ∃ c, s.rd a = ⟨s, c, false⟩ := by
  unfold State.rd
  split
  · exact ⟨_, rfl⟩
  · rw [h]
    exact ⟨_, rfl⟩

theorem State.Traced.rd_c {s t : State} {p : Pair} (h : s.Traced t p) {a : Nat} (hm : s.mark a = none) :
    (t.rd a).c = (s.rd a).c := by
  unfold State.rd
  rw [h.absentMain, h.pageSet, h.mark, hm, h.cell]
  split <;> rfl

theorem State.pairCell_unmarked {s : State} (p : Pair) {a : Nat} (h : s.mark a = none) : s.pairCell p a = .ok s (s.rd a).c := by
  obtain ⟨c, hc⟩ := State.rd_unmarked h
  simp only [State.pairCell, hc, Bool.not_false, if_true]

/-- A pair that may read a memory cell which answers reads it, and logs it (R387). -/
theorem State.pairRead_cell {s : State} {p : Pair} {x : Access} {a : Nat} (hw : s.accessWaits a = false) (hc : isCells a = true)
    (hs : s.absentSlice a = false) (hm : s.mark a = none) :
    s.pairRead p x a = .ok (s.logged p (.read (s.rd a).c)) (s.rd a).c := by
  simp only [State.pairRead, hw, Bool.false_eq_true, if_false]
  unfold isCells at hc
  split at hc
  case h_5 => cases hc
  all_goals
    next h => simp only [h, hs, State.pairCell_unmarked p hm, Bool.false_eq_true, if_false, Kr.andThen]

/-- A span that no entry of the store buffer overlaps needs no drain. -/
theorem State.drainSpan_clear {s : State} {p : Pair} {a len : Nat} (h : (s.kr p).sb.any (fun e => e.overlaps a len) = false) :
    s.drainSpan p a len = .ok s () := by
  simp only [State.drainSpan, State.drainWhile, h, Bool.false_eq_true, if_false]

/-- Where a load is permitted and answered, the pair loads the cell that it meets. -/
theorem State.pairLoad_of_canLoad {s : State} {p : Pair} {n ea : Nat} {c : Cell} (h : s.canLoad p n ea c = true) (x : Access) :
    ∃ u l, (s.fetched p).pairLoad p x ea = .ok u ⟨c, l⟩ ∧ (s.fetched p).Traced u p := by
  have htrace := s.fetched_traced p
  simp only [State.canLoad, Bool.and_eq_true, beq_iff_eq, Bool.not_eq_true'] at h
  obtain ⟨⟨⟨-, hcells⟩, hslice⟩, hfound⟩ := h
  unfold State.pairLoad
  rw [htrace.forwarded]
  cases hforward : (s.issue p).forwarded p ea with
  | some d =>
    simp only [hforward, beq_iff_eq] at hfound
    exact ⟨_, _, by rw [hfound], .refl _ p⟩
  | none =>
    simp only [hforward, Bool.and_eq_true, beq_iff_eq, Bool.not_eq_true'] at hfound
    obtain ⟨⟨⟨hclear, hwaits⟩, hmark⟩, hcell⟩ := hfound
    have hdrain : ((s.fetched p).kr p).sb.any (fun e => e.overlaps ea 4) = false := by
      rw [s.fetched_kr]
      rw [State.sbClear, List.all_eq_true] at hclear
      rw [List.any_eq_false]
      intro e he
      have := hclear e he
      simpa using this
    rw [← htrace.rd_c hmark] at hcell
    rw [← htrace.accessWaits] at hwaits
    rw [← htrace.absentSlice] at hslice
    rw [← htrace.mark] at hmark
    simp only [State.drainSpan_clear hdrain, Kr.andThen, State.pairFetch, State.pairRead_cell hwaits hcells hslice hmark, hcell]
    exact ⟨_, _, rfl, (State.Traced.refl _ p).logged _⟩

/-- Where a load is permitted and answered, an instruction that loads an operand or a register takes the cell. -/
theorem State.load_of_canLoad {s : State} {p : Pair} {n ea : Nat} {c : Cell} (h : s.canLoad p n ea c = true) :
    ∃ u, (s.fetched p).loadOp p ((s.fetched p).quadAt p n) ea = .ok u c ∧
      (s.fetched p).loadReg p ((s.fetched p).quadAt p n) ea = .ok u c ∧ (s.fetched p).Traced u p := by
  obtain ⟨u, l, hload, hu⟩ := State.pairLoad_of_canLoad h (pairAccess p ((s.fetched p).quadAt p n))
  have htrace := s.fetched_traced p
  simp only [State.canLoad, Bool.and_eq_true, beq_iff_eq, Bool.not_eq_true'] at h
  obtain ⟨⟨⟨⟨⟨hfault, hbars⟩, htag⟩, -⟩, -⟩, -⟩ := h
  rw [← htrace.quadAt, ← htrace.eaFault] at hfault
  rw [← htrace.quadAt, ← htrace.pairBars] at hbars
  rw [← htrace.quadAt] at htag
  have hany : (s.fetched p).loadAny p ((s.fetched p).quadAt p n) ea [pRead] = .ok u ⟨c, l⟩ := by
    simp only [State.loadAny, hfault, hbars, guardEa, hload]
  refine ⟨u.watch p ea 4 false c.v, ?_, ?_, hu.watch ea 4 false c.v⟩
  · simp only [State.loadOp, hany, Kr.andThen, htag, check]
  · simp only [State.loadReg, hany, Kr.andThen, htag, ite_self, check]

/-! What an instruction with a memory operand comes to. -/

theorem State.reserve_lock (s : State) (p : Pair) (ea : Nat) : ∃ l, s.reserve p ea = s.setCore p { s.coreOf p with lock := l } := by
  unfold State.reserve
  dsimp only
  split
  · split
    · exact ⟨_, rfl⟩
    · exact ⟨_, (s.setCore_coreOf p).symm⟩
  · exact ⟨_, (s.setCore_coreOf p).symm⟩

theorem State.HasRun.reserve {s u : State} {p : Pair} {r : CoreRegs} (h : s.HasRun u p r) (ea : Nat) :
    s.HasRun (u.reserve p ea) p r := by
  obtain ⟨l, hl⟩ := u.reserve_lock p ea
  rw [hl]
  exact ⟨by rw [State.kr, State.coreOf_setCore_self, ← h.kr]; rfl, by rw [State.coreOf_setCore_self]; exact h.slot, h.loop⟩

theorem State.KnOnly.reserve {s u : State} {p : Pair} (h : s.KnOnly u p) (ea : Nat) : s.KnOnly (u.reserve p ea) p := by
  obtain ⟨l, hl⟩ := u.reserve_lock p ea
  rw [hl]
  exact h.setCore _

section

variable {s : State} {p : Pair} {i : Kn} {n ea : Nat} {c : Cell} {v : BitVec 40} {g : BitVec 4}

/-- A load of A that is permitted and answered. -/
theorem State.doLoad_a (ho : (s.issue p).operand p i = some (n, ea)) (hl : s.canLoad p n ea c = true) :
    ∃ u, (s.fetched p).doLoad p i (fun t c => t.loadA p c) = .ok u .seq ∧
      s.HasRun u p { s.rs p with a := extendCell c, atag := c.tag } ∧ s.KnOnly u p := by
  obtain ⟨u, -, hload, hu⟩ := State.load_of_canLoad hl
  rw [← s.fetched_operand] at ho
  refine ⟨(u.loadA p c).reserve p ea, ?_, ?_, ?_⟩
  · simp only [State.doLoad, State.withEa_some ho, hload, Kr.andThen]
  · rw [State.loadA, State.setA, hu.kr, s.fetched_kr]
    exact (hu.ran { s.rs p with a := extendCell c, atag := c.tag } rfl).reserve ea
  · exact (hu.knOnly_fetched.setKr _).reserve ea

/-- An operation of A with an operand that is permitted and answered. -/
theorem State.doArith_load {f : CoreRegs → Cell → ARes} (ho : (s.issue p).operand p i = some (n, ea))
    (hl : s.canLoad p n ea c = true) (hv : noValue (s.rs p).atag = false) :
    ∃ u, (s.fetched p).Traced u p ∧ (s.fetched p).doArith p i f = u.aResult p (f (s.rs p) c) ea := by
  obtain ⟨u, hload, -, hu⟩ := State.load_of_canLoad hl
  rw [← s.fetched_operand] at ho
  refine ⟨u, hu, ?_⟩
  simp only [State.doArith, s.fetched_kr, hv, need, Bool.not_false, if_true, State.withEa_some ho, hload, Kr.andThen, hu.kr]

theorem State.doArith_val {f : CoreRegs → Cell → ARes} (ho : (s.issue p).operand p i = some (n, ea))
    (hl : s.canLoad p n ea c = true) (hv : noValue (s.rs p).atag = false) (hf : f (s.rs p) c = .val v g) :
    ∃ u, (s.fetched p).doArith p i f = .ok u .seq ∧ s.HasRun u p { s.rs p with a := v, atag := g } ∧ s.KnOnly u p := by
  obtain ⟨u, hu, hx⟩ := State.doArith_load (f := f) ho hl hv
  refine ⟨u.setA p v g, by rw [hx, hf, State.aResult_val], ?_, hu.knOnly_fetched.setKr _⟩
  rw [State.setA, hu.kr, s.fetched_kr]
  exact hu.ran { s.rs p with a := v, atag := g } rfl

end

end Machine
end Sys2Proof
end

section
/-! PROOFS. The store buffer of a core pair: a store joins it, and a full buffer drains its oldest entry first (R238, R286, R387). -/

namespace Sys2Proof
namespace Machine

/-! A write of a cell without an error mark. -/

theorem eccKey_cellStart (a : Nat) : eccKey (a / 4 * 4) = eccKey a := by
  simp only [eccKey, inMain, Bool.and_eq_true, decide_eq_true_eq]
  split <;> split <;> omega

theorem inCopy_cellStart (a : Nat) : inCopy (a / 4 * 4) = inCopy a := by
  have hlo : (0x0E728000 ≤ a / 4 * 4) = (0x0E728000 ≤ a) := by
    apply propext
    omega
  have hhi : (a / 4 * 4 < 0x0E800000) = (a < 0x0E800000) := by
    apply propext
    omega
  simp only [inCopy, hlo, hhi]

theorem State.mark_cellStart (s : State) (a : Nat) : s.mark (a / 4 * 4) = s.mark a := by rw [State.mark, eccKey_cellStart, State.mark]

/-- `t` holds pair p as `s` does, and every cell but the one at `a`. -/
structure State.CellWritten (s t : State) (p : Pair) (a : Nat) : Prop where
  core : t.coreOf p = s.coreOf p
  cells : ∀ b, b / 4 ≠ a / 4 → t.cell b = s.cell b

namespace State.CellWritten

variable {s t : State} {p : Pair} {a : Nat}

theorem refl (s : State) (p : Pair) (a : Nat) : s.CellWritten s p a := ⟨rfl, fun _ _ => rfl⟩

theorem touchPage (h : s.CellWritten t p a) (b : Nat) : s.CellWritten (t.touchPage b) p a := by
  unfold State.touchPage
  split
  · exact ⟨h.core, h.cells⟩
  · exact h

theorem breakResv (h : s.CellWritten t p a) (b : Nat) : s.CellWritten (t.breakResv (some p) b) p a := by
  refine ⟨?_, fun d hd => by rw [State.cell_breakResv, h.cells d hd]⟩
  unfold State.breakResv
  refine foldl_keeps (fun u : State => u.coreOf p = s.coreOf p) _ _ t h.core (fun u q hu => ?_)
  split
  · exact hu
  · next hne =>
    have hq : p ≠ q := fun e => hne (by rw [e, beq_self_eq_true, Bool.true_or])
    rw [State.loseResv_coreOf, if_neg hq, hu]

theorem setCell (h : s.CellWritten t p a) (c : Cell) (ha : inCopy a = false) : s.CellWritten (t.setCell a c) p a where
  core := by
    rw [State.setCell_only t a c ha]
    exact h.core
  cells b hb := by rw [State.cell_setCell_other t c ha hb, h.cells b hb]

end State.CellWritten

theorem State.mark_touchPage {s : State} {a : Nat} (b : Nat) (h : s.mark a = none) : (s.touchPage b).mark a = none := by
  unfold State.touchPage
  split
  · simp only [State.mark, State.freshBits, Option.map_eq_none_iff, List.find?_eq_none, List.mem_filter] at h ⊢
    exact fun e he => h e he.1
  · exact h

theorem State.wr_unmarked (s : State) (p : Pair) {a : Nat} (c : Cell) (hm : s.mark a = none) (hc : inCopy a = false) :
    s.CellWritten (s.wr (some p) a c) p a := by
  have htouched := (State.CellWritten.refl s p a).touchPage a
  have hcleared : s.CellWritten ((s.touchPage a).clearMark a) p a := ⟨htouched.core, htouched.cells⟩
  unfold State.wr
  split
  · exact .refl s p a
  · simp only [State.mark_touchPage a hm]
    split
    · exact hcleared
    · exact (hcleared.breakResv a).setCell c hc

/-! The oldest entry drains. -/

/-- A narrow entry changes its cell alone. -/
theorem State.drainNarrow_written (s : State) (p : Pair) {a : Nat} (k v : Nat) (hm : s.mark a = none) (hc : inCopy a = false) :
    s.CellWritten (s.drainNarrow p a k v) p a := by
  unfold State.drainNarrow
  split
  · exact .refl s p a
  · simp only [State.pairCell_unmarked p hm]
    split
    · have hwr := s.wr_unmarked p (a := a / 4 * 4) ⟨putBytes (s.rd a).c.v (a % 4) k v, (s.rd a).c.tag⟩
        (by rw [State.mark_cellStart, hm]) (by rw [inCopy_cellStart, hc])
      exact ⟨hwr.core, fun b hb => hwr.cells b (by omega)⟩
    · exact .refl s p a

theorem SbEntry.overlaps_own (e : SbEntry) {a : Nat} (h4 : a % 4 = 0) (h : a / 4 = e.addr / 4) : e.overlaps a 4 = true := by
  have hsize : 0 < e.size := by cases e <;> simp only [SbEntry.size, Nat.succ_pos]
  simp only [SbEntry.overlaps, Bool.and_eq_true, decide_eq_true_eq]
  omega

/-- Where the memory answers and its cell has no error mark, the oldest entry of a pair that is not rolled back drains. -/
theorem State.storeDrain_oldest {s : State} {p : Pair} {e : SbEntry} {l : List SbEntry} (hsb : (s.kr p).sb = e :: l)
    (hstalls : s.memStalls e.addr = false) (hrun : (decide (p.val < 12) && s.slState p == slRecovering) = false)
    (hm : s.mark e.addr = none) (hc : inCopy e.addr = false) :
    (s.storeDrain p).coreOf p = { s.coreOf p with r := { s.kr p with sb := l } } ∧
      s.CellsKept (s.storeDrain p) (fun a => e.overlaps a 4) := by
  have hwritten : (s.setSb p l).CellWritten (s.storeDrain p) p e.addr := by
    unfold State.storeDrain
    simp only [hsb, hstalls, hrun, Bool.or_self, Bool.false_eq_true, if_false]
    cases e with
    | cell a c =>
      dsimp only
      split
      · exact .refl _ p a
      · exact State.wr_unmarked _ p c hm hc
    | byte a b => exact State.drainNarrow_written _ p 1 _ hm hc
    | half a b => exact State.drainNarrow_written _ p 2 _ hm hc
  refine ⟨by rw [hwritten.core, State.setSb, State.setKr, State.coreOf_setCore_self], fun a h4 ha => ?_⟩
  refine hwritten.cells a (fun h => ?_)
  beta_reduce at ha
  rw [e.overlaps_own h4 h] at ha
  cases ha

/-! A store joins the buffer. -/

theorem State.issues_runs {s : State} {p : Pair} {i : Kn} (h : s.issues p i = true) : s.pairRuns p false = true := by
  simp only [State.issues, Bool.and_eq_true] at h
  exact h.1.1

/-- A pair that runs is not rolled back. -/
theorem State.notRecovering_of_runs {s : State} {p : Pair} (h : s.pairRuns p false = true) :
    (decide (p.val < 12) && s.slState p == slRecovering) = false := by
  by_cases hp : p.val < 12
  · simp only [State.pairRuns, dif_pos hp, Bool.and_eq_true, Bool.or_eq_true, beq_iff_eq] at h
    obtain ⟨-, ⟨-, hstate⟩, -⟩ := h
    rw [decide_eq_true hp, Bool.true_and, beq_eq_false_iff_ne]
    obtain hs | hs := hstate <;> rw [hs] <;> decide
  · rw [decide_eq_false hp, Bool.false_and]

theorem State.issue_slState (s : State) (p : Pair) (n : Nat) : (s.issue p).slState n = s.slState n := by
  obtain ⟨c, hc⟩ := s.issue_pairOnly p
  rw [hc]
  rfl

/-- An entry that joins the buffer of pair p. -/
def State.joined (s : State) (p : Pair) (e : SbEntry) : State := (s.setSb p ((s.kr p).sb ++ [e])).logged p (.store e)

/-- A store of cell c, when the buffer has made room for it. -/
def State.stored (s : State) (p : Pair) (ea : Nat) (c : Cell) : State := (s.joined p (.cell ea c)).watch p ea 4 true c.v

theorem State.stored_knOnly (s : State) (p : Pair) (ea : Nat) (c : Cell) : s.KnOnly (s.stored p ea c) p := by
  have h := ((State.KnOnly.refl s p).setKr { s.kr p with sb := (s.kr p).sb ++ [.cell ea c] }).setCore
    { (s.setSb p ((s.kr p).sb ++ [.cell ea c])).coreOf p with
      log := .store (.cell ea c) :: ((s.setSb p ((s.kr p).sb ++ [.cell ea c])).coreOf p).log }
  obtain ⟨d, hd⟩ := (s.joined p (.cell ea c)).watch_records p ea 4 true c.v
  rw [State.stored, hd]
  exact h.setDbg d

theorem State.stored_core (s : State) (p : Pair) (ea : Nat) (c : Cell) : (s.stored p ea c).kr p =
    { s.kr p with sb := (s.kr p).sb ++ [.cell ea c] } ∧ ((s.stored p ea c).coreOf p).slot = (s.coreOf p).slot := by
  obtain ⟨d, hd⟩ := (s.joined p (.cell ea c)).watch_records p ea 4 true c.v
  have hcore : (s.stored p ea c).coreOf p = (s.joined p (.cell ea c)).coreOf p := by
    rw [State.stored, hd]
    rfl
  rw [State.kr, hcore, State.joined, State.logged, State.coreOf_setCore_self, State.setSb, State.setKr, State.coreOf_setCore_self]
  exact ⟨rfl, rfl⟩

theorem buffered_short {b : List SbEntry} (h : b.length < 4) (e : SbEntry) : buffered b e = b ++ [e] := by
  rw [buffered, Nat.sub_eq_zero_of_le (Nat.le_of_lt_succ h), List.drop_zero]

theorem buffered_full {l : List SbEntry} (h : l.length = 3) (d e : SbEntry) : buffered (d :: l) e = l ++ [e] := by
  rw [buffered, List.length_cons, h, List.drop_one, List.tail_cons]

theorem State.KnOnly.cell_eq {s t : State} {p : Pair} (h : s.KnOnly t p) (a : Nat) : t.cell a = s.cell a :=
  (congrArg (fun u : State => u.cell a) h.1 :)

theorem State.pairStore_short {s : State} {p : Pair} {e : SbEntry} (h : (s.kr p).sb.length < 4) :
    s.pairStore p e = .ok (s.joined p e) () := by
  simp only [State.pairStore, h, if_true, State.joined]

theorem State.pairStore_full {s : State} {p : Pair} {e : SbEntry} (h : (s.kr p).sb.length = 4)
    (hd : ((s.storeDrain p).kr p).sb.length = 3) : s.pairStore p e = .ok ((s.storeDrain p).joined p e) () := by
  simp only [State.pairStore, h, Nat.lt_irrefl, if_false, hd, (by decide : (3 : Nat) < 4), if_true, State.joined]

section

variable {s : State} {p : Pair} {i : Kn} {n ea : Nat} {c : Cell}

/-- A store that is permitted goes to the buffer. -/
theorem State.storeOp_buffers (hst : s.canStore p n ea c = true) {u : State}
    (hpush : (s.fetched p).pairStore p (.cell ea c) = .ok u ()) :
    (s.fetched p).storeOp p ((s.fetched p).quadAt p n) ea c = .ok (u.watch p ea 4 true c.v) () := by
  simp only [State.canStore, Bool.and_eq_true, beq_iff_eq] at hst
  obtain ⟨⟨⟨-, hfault⟩, hcells⟩, -⟩ := hst
  have htrace := s.fetched_traced p
  rw [← htrace.quadAt, ← htrace.storeFault] at hfault
  simp only [State.storeOp, hfault, guardEa, hcells, if_true, hpush, Kr.andThen]

/-- The buffer of a pair that may store is short, or full with an oldest entry that drains. -/
theorem State.canStore_room (hst : s.canStore p n ea c = true) : (s.rs p).sb.length < 4 ∨ ∃ e l, (s.rs p).sb = e :: l ∧ l.length = 3 ∧
    (s.issue p).memStalls e.addr = false ∧ (s.issue p).mark e.addr = none ∧ inCopy e.addr = false := by
  simp only [State.canStore, Bool.and_eq_true] at hst
  obtain ⟨-, hroom⟩ := hst
  cases hsb : (s.rs p).sb with
  | nil => exact .inl (by decide)
  | cons e l =>
    simp only [hsb, Bool.or_eq_true, Bool.and_eq_true, decide_eq_true_eq, beq_iff_eq, Bool.not_eq_true'] at hroom
    obtain hshort | ⟨⟨⟨hlen, hstalls⟩, hmark⟩, hcopy⟩ := hroom
    · exact .inl (by rw [List.length_cons]; omega)
    · exact .inr ⟨e, l, rfl, hlen, hstalls, hmark, hcopy⟩

/-- A store that is permitted runs: the buffer takes its entry, and only a full one writes a cell. -/
theorem State.storeOp_runs (h : s.issues p i = true) (hst : s.canStore p n ea c = true) :
    ∃ u, (s.fetched p).storeOp p ((s.fetched p).quadAt p n) ea c = .ok u () ∧
      s.HasRun u p { s.rs p with sb := buffered (s.rs p).sb (.cell ea c) } ∧ s.StoreOnly u p := by
  have hkr := s.fetched_kr p
  have htrace := s.fetched_traced p
  have hknOnly := s.fetched_knOnly p
  have hbuffers := fun u => State.storeOp_buffers (u := u) hst
  have hrun := State.notRecovering_of_runs (State.issues_runs h)
  rw [← State.issue_slState, ← htrace.slState] at hrun
  obtain hshort | ⟨e, l, hsb, hlen, hstalls, hmark, hcopy⟩ := State.canStore_room hst
  · generalize s.fetched p = t at hkr htrace hknOnly hbuffers hrun ⊢
    have honly := hknOnly.trans (t.stored_knOnly p ea c)
    obtain ⟨hregs, hslot⟩ := t.stored_core p ea c
    refine ⟨t.stored p ea c, hbuffers _ (State.pairStore_short (hkr ▸ hshort)), ⟨?_, hslot.trans htrace.slot, rfl⟩, fun _ => honly,
      fun a _ _ => honly.cell_eq a⟩
    rw [buffered_short hshort, ← hkr]
    exact hregs
  · rw [← htrace.memStalls] at hstalls
    rw [← htrace.mark] at hmark
    have hlong : (s.rs p).sb.length = 4 := by rw [hsb, List.length_cons, hlen]
    generalize s.fetched p = t at hkr htrace hknOnly hbuffers hrun hstalls hmark ⊢
    have hsb' : (t.kr p).sb = e :: l := by rw [hkr, hsb]
    obtain ⟨hcore, hcells⟩ := State.storeDrain_oldest hsb' hstalls hrun hmark hcopy
    have hregs : (t.storeDrain p).kr p = { s.rs p with sb := l } := by rw [State.kr, hcore, hkr]
    obtain ⟨hstored, hslot⟩ := (t.storeDrain p).stored_core p ea c
    refine ⟨(t.storeDrain p).stored p ea c, hbuffers _ (State.pairStore_full (by rw [hkr, hlong]) (by rw [hregs, hlen])),
      ⟨?_, ?_, rfl⟩, fun hlt => by omega, fun a h4 ha => ?_⟩
    · rw [hstored, hregs, hsb, buffered_full hlen]
    · rw [hslot, hcore]
      exact htrace.slot
    · rw [((t.storeDrain p).stored_knOnly p ea c).cell_eq, hcells a h4, hknOnly.cell_eq]
      simpa only [hsb, List.head?_cons, Option.any_some] using ha

end

end Machine
end Sys2Proof
end

section
/-! PROOFS. Class 0b00 words (R230, R231). -/

namespace Sys2Proof
namespace Machine

theorem State.knExec_legacy (s : State) (p : Pair) {i : Kn} (h : i.op ∈ legacyOps) : s.knExec p i = s.doLegacy p i := by
  simp only [legacyOps, List.mem_cons, List.not_mem_nil, or_false] at h
  obtain h | h | h | h | h | h | h | h := h <;> simp only [State.knExec, h]

/-- The memory-operand instruction that a legacy word executes. -/
def Kn.form (i : Kn) : Kn := ⟨legacyForm i.op, 0, i.v, 0, 0⟩

theorem State.operand_form (s : State) (p : Pair) (i : Kn) : s.operand p i.form = s.operand p { i with m := 0 } := rfl

section

variable {s : State} {p : Pair} {i : Kn} {n ea : Nat} {c : Cell} {ins : Instr} {op : KOp}

/-- A word whose condition fails is a NOP. -/
theorem gives_legacy_nop (hc : exec ins s = .next (s.instr p op)) (hmem : op ∈ legacyOps) (h : s.issues p i = true) (hop : i.op = op)
    (hcond : legacyCond (s.rs p) i.m = some false) : Gives ins s (fun t => t.kr p = s.onward p ∧ s.KnOnly t p) := by
  refine gives_kept h hop hc ?_ (State.Traced.refl _ p).ran_self (s.fetched_knOnly p)
  rw [← s.fetched_kr] at hcond
  simp only [State.knExec_legacy _ p (hop ▸ hmem), State.doLegacy, hcond]

/-- A word whose condition holds does its operation. -/
theorem State.knExec_legacy_holds (hmem : i.op ∈ legacyOps) (hne : (i.op == .jmpp) = false)
    (hcond : legacyCond (s.rs p) i.m = some true) : (s.fetched p).knExec p i = (s.fetched p).doMem p i.form := by
  rw [← s.fetched_kr] at hcond
  simp only [State.knExec_legacy _ p hmem, State.doLegacy, hcond, hne, Bool.false_eq_true, if_false, Kn.form]

/-- An operation of A with its page-direct operand. -/
theorem gives_legacy_arith {f : CoreRegs → Cell → ARes} {v : BitVec 40} {g : BitVec 4} (hc : exec ins s = .next (s.instr p op))
    (hmem : op ∈ legacyOps) (hne : (op == .jmpp) = false)
    (hform : ∀ t : State, t.doMem p i.form = t.doArith p i.form f) (h : s.issues p i = true) (hop : i.op = op)
    (hcond : legacyCond (s.rs p) i.m = some true) (ho : (s.issue p).operand p { i with m := 0 } = some (n, ea))
    (hl : s.canLoad p n ea c = true) (hv : noValue (s.rs p).atag = false) (hf : f (s.rs p) c = .val v g) :
    Gives ins s (fun t => t.kr p = { s.onward p with a := v, atag := g } ∧ s.KnOnly t p) := by
  obtain ⟨u, hx, hrun, honly⟩ := State.doArith_val (f := f) (i := i.form) ho hl hv hf
  refine gives_kept h hop hc ?_ hrun honly
  rw [State.knExec_legacy_holds (hop ▸ hmem) (hop ▸ hne) hcond, hform, hx]

end

/-- Settles O27: a legacy word whose condition holds executes as its memory-operand form under mode 0, and as a NOP where it fails. -/
theorem legacyWords : Obligations.LegacyWords := by
  unfold Obligations.LegacyWords
  refine ⟨?lda, ?sta, ?add, ?sub, ?and, ?or, ?xor, ?jmpp, ?_, ?_, ?_, ?_, ?_, ?_, ?_, ?_⟩
  case lda =>
    intro s p i n ea c h hop hcond ho hl
    obtain ⟨u, hx, hrun, honly⟩ := State.doLoad_a (i := i.form) ho hl
    refine gives_kept h hop rfl ?_ hrun honly
    rw [State.knExec_legacy_holds (by rw [hop]; decide) (by rw [hop]; rfl) hcond, ← hx]
    simp only [State.doMem, Kn.form, legacyForm, hop]
  case sta =>
    intro s p i n ea c h hop hcond ho hcell hst
    have hvalue : noValue c.tag = false := by
      simp only [State.canStore, Bool.and_eq_true, Bool.not_eq_true'] at hst
      exact hst.1.1.1
    obtain ⟨u, hx, hrun, hfree, hcells⟩ := State.storeOp_runs h hst
    rw [← State.operand_form, ← s.fetched_operand] at ho
    have hexec : (s.fetched p).knExec p i = .ok u .seq := by
      rw [State.knExec_legacy_holds (by rw [hop]; decide) (by rw [hop]; rfl) hcond]
      have hstore : (s.fetched p).doMem p i.form = (s.fetched p).doStore p i.form c := by
        simp only [State.doMem, Kn.form, legacyForm, hop, s.fetched_kr, hcell]
      rw [hstore]
      simp only [State.doStore, hvalue, need, Bool.not_false, if_true, State.withEa_some ho, hx, Kr.andThen]
    exact gives_seq h hop rfl hexec hrun (fun t hkr hkn =>
      ⟨hkr, fun hlt => (hfree hlt).trans hkn, fun a h4 ha => (hkn.cell_eq a).trans (hcells a h4 ha)⟩)
  case add =>
    exact fun s p i n ea c v g h hop => gives_legacy_arith (f := fun r c => kAdd false false r.a r.atag c) rfl (by decide) rfl
      (fun t => by simp only [State.doMem, Kn.form, legacyForm, hop]) h hop
  case sub =>
    exact fun s p i n ea c v g h hop => gives_legacy_arith (f := fun r c => kAdd true false r.a r.atag c) rfl (by decide) rfl
      (fun t => by simp only [State.doMem, Kn.form, legacyForm, hop]) h hop
  case and =>
    exact fun s p i n ea c v g h hop => gives_legacy_arith (f := fun r c => kLogic (· &&& ·) r.a r.atag c) rfl (by decide) rfl
      (fun t => by simp only [State.doMem, Kn.form, legacyForm, hop]) h hop
  case or =>
    exact fun s p i n ea c v g h hop => gives_legacy_arith (f := fun r c => kLogic (· ||| ·) r.a r.atag c) rfl (by decide) rfl
      (fun t => by simp only [State.doMem, Kn.form, legacyForm, hop]) h hop
  case xor =>
    exact fun s p i n ea c v g h hop => gives_legacy_arith (f := fun r c => kLogic (· ^^^ ·) r.a r.atag c) rfl (by decide) rfl
      (fun t => by simp only [State.doMem, Kn.form, legacyForm, hop]) h hop
  case jmpp =>
    intro s p i h hop hcond
    refine gives_slot h hop rfl ?_
    rw [State.knExec_legacy _ p (by rw [hop]; decide)]
    simp only [State.doLegacy, s.fetched_kr, hcond, hop, beq_self_eq_true, if_true]
  all_goals exact fun s p i h hop hcond => gives_legacy_nop rfl (by decide) h hop hcond

end Machine
end Sys2Proof
end

section
/-! PROOFS. Instructions on capability registers that touch no memory, and the shadow of CAPSW (R248, R249, R251, R252). -/

namespace Sys2Proof
namespace Machine

theorem State.Traced.getF {s t : State} {p : Pair} (h : s.Traced t p) (a : Nat) (f : Fld) : t.getF a f = s.getF a f := by
  rw [State.getF, h.reg, State.getF]

theorem State.fetched_wset (s : State) (p : Pair) : (s.fetched p).wset p = (s.issue p).wset p := (s.fetched_traced p).wset

theorem State.fetched_capNow (s : State) (p : Pair) (n : Nat) : (s.fetched p).quadAt p n = s.capNow p n := by
  rw [State.quadAt, s.fetched_kr, s.fetched_actSet, State.capNow]

theorem State.fetched_keyOk (s : State) (p : Pair) (k : Nat) : (s.fetched p).keyOk p k = (s.issue p).keyOk p k := by
  simp only [State.keyOk, (s.fetched_traced p).getF, s.fetched_actSet]

/-! A write of a capability register. -/

theorem State.HasRun.serialise {s u : State} {p : Pair} {r : CoreRegs} (h : s.HasRun u p r) : s.HasRun (u.serialise p) p r := by
  obtain ⟨hkr, hslot, hloop⟩ := h
  exact ⟨by rw [State.serialise, State.kr, State.coreOf_setCore_self]; exact hkr,
    by rw [State.serialise, State.coreOf_setCore_self]; exact hslot, hloop⟩

theorem State.Traced.putQuad_ran {s u : State} {p : Pair} (h : (s.fetched p).Traced u p) (k n : Nat) (q : Quad) :
    s.HasRun (u.putQuad p k n q) p ((s.rs p).putCap k n q) := by
  have hran := h.ran ((s.rs p).putCap k n q) rfl
  have hkr : u.kr p = s.rs p := h.kr.trans (s.fetched_kr p)
  unfold State.putQuad
  dsimp only
  rw [hkr]
  split
  · exact hran.serialise
  · exact hran

theorem State.KnOnly.putQuad {s u : State} {p : Pair} (h : s.KnOnly u p) (k n : Nat) (q : Quad) : s.KnOnly (u.putQuad p k n q) p := by
  unfold State.putQuad
  exact ((h.setKr _).setCore _).ite (h.setKr _)

/-- A payload that extends by zeros. -/
theorem extendCell_zeros {v : Word} {t : BitVec 4} (h : t = tagUint ∨ t = tagCode ∨ t = tagAddr) : extendCell ⟨v, t⟩ = v.setWidth 40 := by
  rw [extendCell_eq, if_neg]
  obtain rfl | rfl | rfl := h <;> decide

/-- What CINFO reads of a quad for each value of X. -/
def Quad.info (q : Quad) (k : Nat) : Cell :=
  match k with
  | 0 => ⟨q.base.v, if q.program then tagCode else tagAddr⟩
  | 1 => ⟨q.len.v, tagUint⟩
  | 2 => ⟨q.perms.v, tagUint⟩
  | _ => ⟨q.st.v, tagUint⟩

section

variable {s : State} {p : Pair} {i : Kn} {c : Instr} {op : KOp} {q : Quad}

/-- An instruction that writes a capability register alone. -/
theorem gives_putQuad {k n : Nat} (h : s.issues p i = true) (hop : i.op = op) (hc : exec c s = .next (s.instr p op))
    (hx : (s.fetched p).knExec p i = .ok ((s.fetched p).putQuad p k n q) .seq) :
    Gives c s (fun t => t.kr p = (s.onward p).putCap k n q ∧ s.KnOnly t p) :=
  gives_kept h hop hc hx ((State.Traced.refl _ p).putQuad_ran k n q) ((s.fetched_knOnly p).putQuad k n q)

/-- CINFO of a valid quad, by what X asks for. -/
theorem gives_cinfo {k : Nat} {v : Word} {g : BitVec 4} (hk : k < 4) (h : s.issues p i = true) (hop : i.op = .cinfo)
    (hinfo : (s.capNow p i.n).info k = ⟨v, g⟩) (hg : g = tagUint ∨ g = tagCode ∨ g = tagAddr)
    (hx : (s.rs p).x = ⟨BitVec.ofNat 32 k, tagUint⟩) (hv : (s.capNow p i.n).valid = true) :
    Gives (.cinfo p) s (fun t => t.kr p = { s.onward p with a := v.setWidth 40, atag := g } ∧ s.KnOnly t p) := by
  refine gives_regs h hop rfl (r := { s.rs p with a := v.setWidth 40, atag := g }) ?_ rfl
  have hnat : (BitVec.ofNat 32 k).toNat = k := by
    rw [BitVec.toNat_ofNat]
    omega
  have hload : (s.fetched p).knExec p i = .ok ((s.fetched p).loadA p ((s.capNow p i.n).info k)) .seq := by
    simp only [State.knExec, hop, State.doCinfo, s.fetched_kr, hx, hnat, hk, s.fetched_capNow, hv, need, decide_true, beq_self_eq_true,
      Bool.and_self, if_true]
    rfl
  rw [hload, hinfo, State.loadA, State.setA, s.fetched_kr, extendCell_zeros hg]

end

/-- A valid quad holds no permission in bits 15:11, so that a mask of it clears none there (R247, R248). -/
theorem maskPerms {w m : Word} (h : w &&& 0x0000F800 = 0) :
    w &&& (0xFFFF0000 ||| (m &&& 0x7FF)) = w &&& (0xFFFF0000 ||| m) := by
  refine BitVec.eq_of_getLsbD_eq (fun j hj => ?_)
  have hbit : (w &&& 0x0000F800).getLsbD j = false := by rw [h]; exact BitVec.getLsbD_zero
  simp only [BitVec.getLsbD_and, BitVec.getLsbD_or] at hbit ⊢
  have hcover : ∀ k < 32, (0xFFFF0000 : Word).getLsbD k = true ∨ (0x0000F800 : Word).getLsbD k = true ∨
      (0x7FF : Word).getLsbD k = true := by
    decide
  obtain hj' | hj' | hj' := hcover j hj
  · rw [hj', Bool.true_or, Bool.true_or]
  · rw [hj', Bool.and_true] at hbit
    rw [hbit, Bool.false_and, Bool.false_and]
  · rw [hj', Bool.and_true]

/-! CCLOSE (R252). -/

theorem CoreRegs.cap_putCap (r : CoreRegs) (k n : Nat) (q : Quad) : (r.putCap k n q).cap k n = q := by
  simp only [CoreRegs.cap, CoreRegs.putCap, CoreRegs.putSet, CoreRegs.set, vget_set_self]

/-- The quad sealed under key k. -/
def Quad.sealed (q : Quad) (k : Nat) : Quad :=
  { q with perms := ⟨BitVec.ofNat 32 (k * 65536 + q.perms.v.toNat % 65536), tagCap⟩, st := ⟨q.st.v ||| 0x80000000, tagCap⟩ }

theorem Quad.sealed_closed (q : Quad) (k : Nat) : (q.sealed k).closed = true := by
  simp only [Quad.sealed, Quad.closed, bit, BitVec.getLsbD_or]
  exact Bool.or_true _

theorem Quad.sealed_key (q : Quad) {k : Nat} (hk : k < 65536) : (q.sealed k).key = k := by
  simp only [Quad.sealed, Quad.key, BitVec.toNat_ofNat]
  omega

/-! CAPSW and its shadow (R251). -/

theorem State.regs_setCore (s : State) (p : Pair) (c : CoreSt) : (s.setCore p c).regs = s.regs := rfl

theorem State.regs_setDbg (s : State) (d : DbgSt) : (s.setDbg d).regs = s.regs := rfl

/-- What follows the flow of an instruction at its retirement writes no register. -/
theorem State.retire_regs (s : State) (p : Pair) {f : Flow} (was : Bool) (hf : (f == .pfx) = false) :
    (s.retire p f was).regs = (s.flow p f).regs := by
  have hlock (u : State) : (u.lockCount p was).regs = u.regs := by
    unfold State.lockCount
    dsimp only
    split
    · split
      · exact u.regs_setCore p _
      · rfl
    · rfl
  have hlog (u : State) : (u.logFull p).regs = u.regs := by
    unfold State.logFull State.checkpoint
    dsimp only
    split
    · split
      · rfl
      · exact u.regs_setCore p _
    · rfl
  obtain ⟨d, hd⟩ := s.retire_eq p was hf
  rw [hd, State.regs_setDbg, hlog, State.countRetired, State.regs_setCore, hlock]

theorem State.regs_flow_shadow (s : State) (p : Pair) (k : Nat) : (s.flow p (.shadow k)).regs = s.regs := s.regs_setCore p _

/-- An instruction that goes through leaves pair p, and the registers, as its flow does. -/
theorem gives_flow_regs {s u : State} {p : Pair} {i : Kn} {c : Instr} {op : KOp} {f : Flow} (h : s.issues p i = true) (hop : i.op = op)
    (hc : exec c s = .next (s.instr p op)) (hx : (s.fetched p).knExec p i = .ok u f) (hf : (f == .pfx) = false) {P : State → Prop}
    (hP : ∀ t, t.place p = (u.flow p f).place p → t.regs = (u.flow p f).regs → u.KnOnly t p → P t) : Gives c s P := by
  subst hop
  refine ⟨_, hc, ?_⟩
  rw [State.instr_of_ok h hx]
  exact hP _ (u.retire_place p _ hf) (u.retire_regs p _ hf) (u.retire_knOnly p _ hf)

theorem State.fetched_regs (s : State) (p : Pair) : (s.fetched p).regs = s.regs := by
  obtain ⟨c, hc⟩ := s.fetched_pairOnly p
  rw [hc]
  rfl

theorem State.actSet_of_regs {s t : State} (p : Pair) (h : t.regs = s.regs) : t.actSet p = s.actSet p :=
  congrArg (fun m => F.KC_CSEL_ACTIVE.get (SMap.get resetOf m (R.KC_CSEL p))) h

/-- At the end of a CAPSW's shadow its set becomes active, and WSET with it (R249). -/
theorem State.flow_seq_shadow {s : State} {p : Pair} {b k : Nat} (h : (s.coreOf p).shadow = some (b, k)) (hk : k < 8) :
    (s.flow p .seq).actSet p = k ∧ (s.flow p .seq).getF (R.KC_CSEL p) F.KC_CSEL_WSET = k := by
  unfold State.flow
  dsimp only
  rw [h]
  dsimp only
  generalize s.setCore p _ = t
  unfold State.setActive State.actSet
  exact ⟨by rw [State.getF_setF_fld _ _ _ _ _ (by decide) (by decide), State.getF_setF_of_lt _ _ _ _ (by decide) hk],
    State.getF_setF_of_lt _ _ _ _ (by decide) hk⟩

theorem State.flow_shadow_place (s : State) (p : Pair) (k : Nat) : (s.flow p (.shadow k)).place p =
    ({ s.kr p with pc := BitVec.ofNat 17 ((s.kr p).pc.toNat + 1) }, (s.coreOf p).slot, some ((s.coreOf p).savedPc, k),
      (s.coreOf p).wfe) := s.place_setCore p _

end Machine
end Sys2Proof
end

section
/-! PROOFS. CLD and CST: four cells that answer are read, or written, one after the other (R248, R252). -/

namespace Sys2Proof
namespace Machine

/-! A cell that answers. -/

/-- The cell at `a` lies in memory that is present and answers, outside the microcode copies, without an error mark and in a page
whose bit is set. -/
structure State.CellOk (s : State) (a : Nat) : Prop where
  aligned : a % 4 = 0
  cells : isCells a = true
  noCopy : inCopy a = false
  slice : s.absentSlice a = false
  main : s.absentMain a = false
  page : (!inMain a || s.pageSet a) = true
  answers : s.accessWaits a = false
  unmarked : s.mark a = none

theorem State.cellOk_of_cellsOk {s : State} {a n : Nat} (h : s.cellsOk a n = true) {j : Nat} (hj : j < n) : s.CellOk (a + 4 * j) := by
  simp only [State.cellsOk, List.all_eq_true, List.mem_range, Bool.and_eq_true, beq_iff_eq, Bool.not_eq_true'] at h
  obtain ⟨⟨⟨⟨⟨⟨⟨h4, hcells⟩, hcopy⟩, hslice⟩, hmain⟩, hpage⟩, hwaits⟩, hmark⟩ := h j hj
  exact ⟨h4, hcells, hcopy, hslice, hmain, hpage, hwaits, hmark⟩

theorem State.CellOk.rd {s : State} {a : Nat} (h : s.CellOk a) : (s.rd a).c = s.cell a := by
  have hread : (s.absentMain a || (inMain a && !s.pageSet a)) = false := by
    have hpage := h.page
    rw [h.main, Bool.false_or]
    revert hpage
    cases inMain a <;> cases s.pageSet a <;> decide
  rw [State.rd, hread, h.unmarked]
  rfl

theorem State.PairOnly.cellOk {s t : State} {p : Pair} (h : s.PairOnly t p) {a : Nat} (k : s.CellOk a) : t.CellOk a := by
  obtain ⟨c, rfl⟩ := h
  exact ⟨k.aligned, k.cells, k.noCopy, k.slice, k.main, k.page, k.answers, k.unmarked⟩

theorem State.logged_pairOnly (s : State) (p : Pair) (i : LogItem) : s.PairOnly (s.logged p i) p := ⟨_, rfl⟩

/-! The cells of a block of 16 bytes lie in one memory. -/

section

variable {a j : Nat}

theorem spaceOf_block (h : a % 16 = 0) (hj : j < 4) : spaceOf (a + 4 * j) = spaceOf a := by
  have hlt (k : Nat) (hk : k % 16 = 0) : (a + 4 * j < k) = (a < k) := by
    apply propext
    omega
  have hle (k : Nat) (hk : k % 16 = 0) : (k ≤ a + 4 * j) = (k ≤ a) := by
    apply propext
    omega
  have hdiv : 0x02000000 ≤ a → (a + 4 * j - 0x02000000) / 0x100000 = (a - 0x02000000) / 0x100000 := by omega
  have hmod (k : Nat) (hk : k % 16 = 0) : 0x02000000 ≤ a →
      ((a + 4 * j - 0x02000000) % 0x100000 < k) = ((a - 0x02000000) % 0x100000 < k) := by
    intro
    apply propext
    omega
  unfold spaceOf
  simp only [inPlain, inMain, mainCh, sysKcBase, hlt 0x20000 (by decide), hle 0x01000000 (by decide), hlt 0x01800000 (by decide),
    hle 0x01800000 (by decide), hlt 0x01A00000 (by decide), hle 0x01C00000 (by decide), hlt 0x01C40000 (by decide),
    hle 0x02000000 (by decide), hlt 0x02C00000 (by decide), hle 0x02C0A000 (by decide), hlt (0x02C0A000 + 0x1000) (by decide),
    hle 0x0E000000 (by decide), hlt 0x0E800000 (by decide), hle 0x10000000 (by decide), hlt 0x20000000 (by decide),
    hlt 0x18000000 (by decide), hle 0x20000000 (by decide), hlt 0x22000000 (by decide), hle 0x100000000 (by decide)]
  by_cases hs : 0x02000000 ≤ a
  · simp only [hdiv hs, hmod 0x20000 (by decide) hs, hmod 0x40000 (by decide) hs, hmod 0x80000 (by decide) hs]
    congr
  · simp only [hs, false_and, if_false]
    congr

theorem State.absentSlice_block (s : State) (h : a % 16 = 0) (hj : j < 4) : s.absentSlice (a + 4 * j) = s.absentSlice a := by
  have hlt : (a + 4 * j < 0x02C00000) = (a < 0x02C00000) := by
    apply propext
    omega
  have hle : (0x02000000 ≤ a + 4 * j) = (0x02000000 ≤ a) := by
    apply propext
    omega
  simp only [State.absentSlice, hlt, hle]
  by_cases hs : 0x02000000 ≤ a
  · rw [(by omega : (a + 4 * j - 0x02000000) / 0x100000 = (a - 0x02000000) / 0x100000)]
  · simp only [hs, decide_false, Bool.false_and]

theorem inSysArea_block (h : a % 16 = 0) (hj : j < 4) : inSysArea (a + 4 * j) = inSysArea a := by
  have hlt : (a + 4 * j < 0x0E800000) = (a < 0x0E800000) := by
    apply propext
    omega
  have hle : (0x0E727C00 ≤ a + 4 * j) = (0x0E727C00 ≤ a) := by
    apply propext
    omega
  simp only [inSysArea, hlt, hle]

/-- A pair that may make an access to a memory cell may make it to the others of its block. -/
theorem State.pairBars_block (s : State) (p : Pair) (x : Access) (wr : Bool) (v : Word) (h : a % 16 = 0) (hj : j < 4)
    (hc : isCells (a + 4 * j) = true) : s.pairBars p x (a + 4 * j) wr v = s.pairBars p x a wr 0 := by
  rw [isCells, spaceOf_block h hj] at hc
  simp only [State.pairBars, s.absentSlice_block h hj, spaceOf_block h hj, inSysArea_block h hj]
  split at hc
  case h_5 => cases hc
  all_goals
    next hspace => simp only [hspace]

end

/-! Reads of several cells. -/

theorem SbEntry.overlaps_within {e : SbEntry} {a len b : Nat} (h : e.overlaps a len = false) (hlo : a ≤ b) (hhi : b + 4 ≤ a + len) :
    e.overlaps b 4 = false := by
  simp only [SbEntry.overlaps, Bool.and_eq_false_iff, decide_eq_false_iff_not] at h ⊢
  omega

/-- No entry of the store buffer of pair p overlaps `len` bytes at `a`. -/
def State.NoEntry (s : State) (p : Pair) (a len : Nat) : Prop := ∀ e ∈ (s.kr p).sb, e.overlaps a len = false

theorem State.NoEntry.within {s : State} {p : Pair} {a len b : Nat} (h : s.NoEntry p a len) (hlo : a ≤ b) (hhi : b + 4 ≤ a + len) :
    s.NoEntry p b 4 := fun e he => SbEntry.overlaps_within (h e he) hlo hhi

theorem State.NoEntry.any {s : State} {p : Pair} {a len : Nat} (h : s.NoEntry p a len) :
    (s.kr p).sb.any (fun e => e.overlaps a len) = false := by
  rw [List.any_eq_false]
  exact fun e he => by rw [h e he]; exact Bool.false_ne_true

theorem State.noEntry_of_sbClear {s : State} {p : Pair} {a len : Nat} (h : s.sbClear p a len = true) : (s.fetched p).NoEntry p a len := by
  intro e he
  rw [s.fetched_kr] at he
  rw [State.sbClear, List.all_eq_true] at h
  simpa using h e he

theorem State.pairLoad_cell {s : State} {p : Pair} {a : Nat} (x : Access) (h : s.CellOk a) (hb : s.NoEntry p a 4) :
    ∃ l, s.pairLoad p x a = .ok (s.logged p (.read (s.cell a))) ⟨s.cell a, l⟩ := by
  have hnone : s.forwarded p a = none := by
    have hfind : ((s.kr p).sb.reverse).find? (fun e => e.overlaps a 4) = none := by
      rw [List.find?_eq_none]
      exact fun e he => by rw [hb e (List.mem_reverse.mp he)]; exact Bool.false_ne_true
    simp only [State.forwarded, hfind]
  refine ⟨s.lostAt p a, ?_⟩
  simp only [State.pairLoad, hnone, State.drainSpan_clear hb.any, Kr.andThen, State.pairFetch,
    State.pairRead_cell h.answers h.cells h.slice h.unmarked, h.rd]

/-- Cells that answer are read one after the other, and change the replay log alone. -/
theorem State.getCells_ok {s : State} {p : Pair} (x : Access) (k : Nat) : ∀ {a : Nat}, (∀ j < k, s.CellOk (a + 4 * j)) →
    s.NoEntry p a (4 * k) → ∃ u, s.getCells p x a k = .ok u ((List.range k).map (fun j => s.cell (a + 4 * j))) ∧ s.Traced u p := by
  induction k generalizing s with
  | zero => exact fun _ _ => ⟨s, rfl, .refl s p⟩
  | succ k ih =>
    intro a hok hb
    obtain ⟨l, hload⟩ := State.pairLoad_cell (a := a) x (hok 0 (Nat.succ_pos k)) (hb.within (Nat.le_refl a) (by omega))
    have htrace := (State.Traced.refl s p).logged (.read (s.cell a))
    have hshift (j : Nat) : a + 4 + 4 * j = a + 4 * (j + 1) := by omega
    obtain ⟨u, hrest, hu⟩ := ih (s := s.logged p (.read (s.cell a))) (a := a + 4)
      (fun j hj => hshift j ▸ (s.logged_pairOnly p _).cellOk (hok (j + 1) (by omega)))
      (fun e he => by
        rw [htrace.kr] at he
        have := hb e he
        simp only [SbEntry.overlaps, Bool.and_eq_false_iff, decide_eq_false_iff_not] at this ⊢
        omega)
    refine ⟨u, ?_, htrace.trans hu⟩
    simp only [State.getCells, hload, Kr.andThen, hrest, List.range_succ_eq_map, List.map_cons, List.map_map, htrace.cell, hshift]
    rfl

/-! Writes of several cells. -/

/-- After a write of a cell that answers: no other cell has changed, nothing but the cell's bits and what the pairs hold, and the
cell reads what it keeps. -/
structure State.Wrote (s t : State) (a : Nat) (c : Cell) : Prop where
  only : t = { s.clearMark a with core := t.core, cells := t.cells }
  written : t.cell a = Machine.stored a c
  kept : ∀ b, b / 4 ≠ a / 4 → t.cell b = s.cell b

theorem State.mark_clearMark {s : State} {b : Nat} (a : Nat) (h : s.mark b = none) : (s.clearMark a).mark b = none := by
  simp only [State.mark, State.clearMark, Option.map_eq_none_iff, List.find?_eq_none, List.mem_filter] at h ⊢
  exact fun e he => h e he.1

/-- What answers still does. -/
theorem State.Wrote.answers {s t : State} {a b : Nat} {c : Cell} (h : s.Wrote t a c) (hb : s.CellOk b) : t.CellOk b := by
  rw [h.only]
  exact ⟨hb.aligned, hb.cells, hb.noCopy, hb.slice, hb.main, hb.page, hb.answers, State.mark_clearMark a hb.unmarked⟩

theorem State.wr_cellOk {s : State} {a : Nat} (w : Option Pair) (c : Cell) (h : s.CellOk a) :
    s.wr w a c = ((s.clearMark a).breakResv w a).setCell a c := by
  have htouch : s.touchPage a = s := by
    rw [State.touchPage, if_neg]
    have hpage := h.page
    revert hpage
    cases inMain a <;> cases s.pageSet a <;> decide
  have hclear : (s.clearMark a).absentMain a = false := h.main
  simp only [State.wr, h.main, htouch, h.unmarked, hclear, Bool.false_eq_true, if_false]

theorem State.wr_wrote {s : State} {a : Nat} (w : Option Pair) (c : Cell) (h : s.CellOk a) : s.Wrote (s.wr w a c) a c := by
  rw [State.wr_cellOk w c h]
  refine ⟨?_, State.cell_setCell_self _ _ _ h.noCopy, fun b hb => ?_⟩
  · have hbreak := ((s.clearMark a).breakResv_haltsKept w a).rest
    rw [State.setCell_only _ _ _ h.noCopy]
    exact congrArg (fun u : State => { u with cells := (((s.clearMark a).breakResv w a).setCell a c).cells }) hbreak
  · rw [State.cell_setCell_other _ c h.noCopy hb, State.cell_breakResv, State.cell_clearMark]

/-- After such a write by pair p, which but for its log is as before. -/
structure State.Put (s t : State) (p : Pair) (a : Nat) (c : Cell) : Prop where
  kr : t.kr p = s.kr p
  slot : (t.coreOf p).slot = (s.coreOf p).slot
  written : t.cell a = Machine.stored a c
  kept : ∀ b, b / 4 ≠ a / 4 → t.cell b = s.cell b
  answers : ∀ b, s.CellOk b → t.CellOk b

theorem State.pairWrite_cell {s : State} {p : Pair} {a : Nat} (x : Access) (c : Cell) (h : s.CellOk a) :
    ∃ u, s.pairWrite p x a c = .ok u () ∧ s.Put u p a c := by
  have hpair := s.logged_pairOnly p (.write a c)
  have hlog := hpair.cellOk h
  have htrace := (State.Traced.refl s p).logged (.write a c)
  have hwrote := State.wr_wrote (some p) c hlog
  have hcore := ((s.logged p (.write a c)).wr_unmarked p c hlog.unmarked hlog.noCopy).core
  refine ⟨(s.logged p (.write a c)).wr (some p) a c, ?_, ?_, ?_, hwrote.written, hwrote.kept,
    fun b hb => hwrote.answers (hpair.cellOk hb)⟩
  · simp only [State.pairWrite, h.answers, h.cells, hlog.slice, Bool.false_eq_true, if_false, if_true]
  · rw [State.kr, hcore, ← State.kr, htrace.kr]
  · rw [hcore, htrace.slot]

/-- After cells that answer were written from `a` upward. -/
structure State.PutAll (s t : State) (p : Pair) (a : Nat) (cs : List Cell) : Prop where
  kr : t.kr p = s.kr p
  slot : (t.coreOf p).slot = (s.coreOf p).slot
  written : ∀ j (hj : j < cs.length), t.cell (a + 4 * j) = Machine.stored (a + 4 * j) cs[j]
  kept : ∀ b, b % 4 = 0 → ¬ (a ≤ b ∧ b < a + 4 * cs.length) → t.cell b = s.cell b

/-- Cells that answer are written one after the other. -/
theorem State.putCells_ok {p : Pair} (x : Access) (cs : List Cell) : ∀ {s : State} {a : Nat}, a % 4 = 0 →
    (∀ j < cs.length, s.CellOk (a + 4 * j)) → ∃ u, s.putCells p x a cs = .ok u () ∧ s.PutAll u p a cs := by
  induction cs with
  | nil => exact fun _ _ => ⟨_, rfl, rfl, rfl, fun j hj => absurd hj (Nat.not_lt_zero j), fun _ _ _ => rfl⟩
  | cons c cs ih =>
    intro s a h4 hok
    have hshift (j : Nat) : a + 4 + 4 * j = a + 4 * (j + 1) := by omega
    obtain ⟨u, hwrite, hput⟩ := State.pairWrite_cell (p := p) (a := a) x c (hok 0 (Nat.succ_pos _))
    obtain ⟨v, hrest, hall⟩ := ih (s := u) (a := a + 4) (by omega)
      (fun j hj => hshift j ▸ hput.answers _ (hok (j + 1) (by rw [List.length_cons]; omega)))
    refine ⟨v, ?_, hall.kr.trans hput.kr, hall.slot.trans hput.slot, fun j hj => ?_, fun b hb hout => ?_⟩
    · simp only [State.putCells, hwrite, Kr.andThen, hrest]
    · cases j with
      | zero =>
        rw [hall.kept _ (by omega) (by omega)]
        exact hput.written
      | succ j =>
        have h := hall.written j (by rw [List.length_cons] at hj; omega)
        rw [hshift] at h
        exact h
    · rw [List.length_cons] at hout
      rw [hall.kept b hb (by omega), hput.kept b (by omega)]

end Machine
end Sys2Proof
end

section
/-! PROOFS. Instructions on capability registers (R229, R245, R247 to R249, R251, R252). -/

namespace Sys2Proof
namespace Machine

theorem State.Traced.quadFault {s t : State} {p : Pair} (h : s.Traced t p) (ea : Nat) (perms : List Nat) (wr : Bool) :
    t.quadFault p ea perms wr = s.quadFault p ea perms wr := by
  unfold State.quadFault
  rw [h.quadAt]
  dsimp only
  rw [h.inStack3, h.pairBars]

theorem State.Traced.quadTags {s t : State} {p : Pair} (h : s.Traced t p) (ea : Nat) : t.quadTags p ea = s.quadTags p ea := by
  unfold State.quadTags
  simp only [h.standing]

/-- What CLD and CST check of their quad's address (R248). -/
theorem State.quadFault_none {s : State} {p : Pair} {ea : Nat} {perms : List Nat} {wr : Bool} (h : s.quadFault p ea perms wr = none) :
    ea % 16 = 0 ∧ s.pairBars p (pairAccess p (s.quadAt p 1)) ea wr 0 = none := by
  unfold State.quadFault at h
  dsimp only at h
  split at h
  · cases h
  split at h
  · cases h
  next halign =>
    split at h
    · cases h
    · split at h
      · cases h
      · exact ⟨by simpa using halign, h⟩

section

variable {s : State} {p : Pair} {i : Kn} {ea : Nat} {q : Quad}

/-- The cells of a quad that answer, as the fetched state finds them. -/
theorem State.fetched_cellOk (h : s.cellsOk ea 4 = true) (j : Nat) (hj : j < 4) : (s.fetched p).CellOk (ea + 4 * j) :=
  (s.fetched_pairOnly p).cellOk (State.cellOk_of_cellsOk h hj)

theorem State.readBars_none {t : State} {x : Access} {k : Nat} (h : ∀ j < k, t.pairBars p x (ea + 4 * j) false 0 = none) :
    t.readBars p x ea k = none := by
  simp only [State.readBars, List.findSome?_eq_none_iff, List.mem_range, Option.map_eq_none_iff]
  exact h

theorem State.writeBars_none {t : State} {x : Access} {cs : List Cell}
    (h : ∀ j < cs.length, ∀ v, t.pairBars p x (ea + 4 * j) true v = none) : t.writeBars p x ea cs = none := by
  simp only [State.writeBars, List.findSome?_eq_none_iff, Option.map_eq_none_iff]
  intro e he
  have hlt := List.snd_lt_of_mem_zipIdx he
  exact h e.2 (by omega) _

/-- CLD of a quad that may be read. -/
theorem State.doCld_ok (htag : (s.rs p).x.tag = tagAddr) (hea : ea = (s.rs p).x.v.toNat)
    (hf : (s.issue p).quadFault p ea [pRead, pQread] false = none) (hc : s.cellsOk ea 4 = true) (hb : s.sbClear p ea 16 = true)
    (hq : q = ⟨s.cell ea, s.cell (ea + 4), s.cell (ea + 8), s.cell (ea + 12)⟩) (ht : q.tags tagCap = true ∨ q.tags tagEmpty = true)
    (n : Nat) : ∃ u, (s.fetched p).Traced u p ∧
      (s.fetched p).doCld p n = .ok (u.putQuad p ((s.issue p).wset p) n q) .seq := by
  have hcell := s.fetched_knOnly p
  rw [← (s.fetched_traced p).quadFault] at hf
  obtain ⟨halign, hbars⟩ := State.quadFault_none hf
  have hok := State.fetched_cellOk (p := p) hc
  obtain ⟨u, hget, hu⟩ := State.getCells_ok (pairAccess p ((s.fetched p).quadAt p 1)) 4 hok (State.noEntry_of_sbClear hb)
  have hread := State.readBars_none (p := p) (ea := ea) (k := 4) (t := s.fetched p) (x := pairAccess p ((s.fetched p).quadAt p 1))
    (fun j hj => by rw [State.pairBars_block _ _ _ _ _ halign hj (hok j hj).cells, hbars])
  have hcells : quadOfCells ((List.range 4).map (fun j => (s.fetched p).cell (ea + 4 * j))) = q := by
    rw [hq, ← hcell.cell_eq ea, ← hcell.cell_eq (ea + 4), ← hcell.cell_eq (ea + 8), ← hcell.cell_eq (ea + 12)]
    rfl
  have htags : (q.tags tagCap || q.tags tagEmpty) = true := by
    rw [Bool.or_eq_true]
    exact ht
  refine ⟨u, hu, ?_⟩
  simp only [State.doCld, s.fetched_kr, htag, beq_self_eq_true, need, if_true, ← hea, hf, guardEa, State.readCells, hread, guardSpan, hget,
    Kr.andThen, hcells, htags, hu.wset, s.fetched_wset]

/-- CST of a quad that may be written. -/
theorem State.doCst_ok (htag : (s.rs p).x.tag = tagAddr) (hea : ea = (s.rs p).x.v.toNat)
    (hf : (s.issue p).quadFault p ea [pWrite, pQwrite] true = none) (ht : (s.issue p).quadTags p ea = true)
    (hc : s.cellsOk ea 4 = true) (hb : s.sbClear p ea 16 = true) (n : Nat) :
    ∃ u, (s.fetched p).doCst p n = .ok u .seq ∧ (s.fetched p).PutAll u p ea (s.capNow p n).cells := by
  rw [← (s.fetched_traced p).quadFault] at hf
  rw [← (s.fetched_traced p).quadTags] at ht
  obtain ⟨halign, hbars⟩ := State.quadFault_none hf
  rw [s.fetched_capNow] at hbars
  have hok := State.fetched_cellOk (p := p) hc
  have hwrite := State.writeBars_none (p := p) (ea := ea) (cs := (s.capNow p n).cells) (t := s.fetched p)
    (x := pairAccess p (s.capNow p 1))
    (fun j hj v => by rw [State.pairBars_block _ _ _ _ _ halign hj (hok j hj).cells, hbars])
  obtain ⟨u, hput, hall⟩ := State.putCells_ok (p := p) (pairAccess p (s.capNow p 1)) (s.capNow p n).cells (by omega) hok
  refine ⟨u, ?_, hall⟩
  simp only [State.doCst, s.fetched_kr, htag, beq_self_eq_true, need, if_true, ← hea, hf, ht, guardEa,
    State.drainSpan_clear (State.noEntry_of_sbClear hb).any, Kr.andThen, State.writeCells, s.fetched_capNow, hwrite, guardSpan, hput]

end

theorem Quad.sealed_base (q : Quad) (k : Nat) : (q.sealed k).base = q.base := by
  cases q
  rfl

theorem Quad.sealed_len (q : Quad) (k : Nat) : (q.sealed k).len = q.len := by
  cases q
  rfl

/-- Settles O28: each instruction, where its checks pass, writes the quad or the register that its rule names, and CST the four cells. -/
theorem capabilityInstructions : Obligations.CapabilityInstructions := by
  unfold Obligations.CapabilityInstructions
  refine ⟨?cld, ?cst, ?crange, ?cmask, ?cclose, ?copen, ?cclr, ?cinfo0, ?cinfo2, ?cinfo1, ?cinfo3, ?cmov, ?ctst, ?capsw, ?shadow⟩
  case cld =>
    intro s p i ea q h hop htag hea hf hc hb hq ht
    obtain ⟨u, hu, hx⟩ := State.doCld_ok htag hea hf hc hb hq ht i.n
    refine gives_kept h hop rfl ?_ (hu.putQuad_ran _ i.n q) (hu.knOnly_fetched.putQuad _ _ _)
    simp only [State.knExec, hop]
    exact hx
  case cst =>
    intro s p i ea q h hop htag hea hf ht hc hb hq
    obtain ⟨u, hx, hall⟩ := State.doCst_ok htag hea hf ht hc hb i.n
    have hran : s.HasRun u p (s.rs p) := ⟨hall.kr.trans (s.fetched_kr p), hall.slot.trans (s.fetched_traced p).slot, rfl⟩
    refine gives_seq h hop rfl (by simp only [State.knExec, hop]; exact hx) hran (fun t hkr hkn => ?_)
    rw [← hq] at hall
    have hwritten (j : Nat) (hj : j < q.cells.length) := (hkn.cell_eq _).trans (hall.written j hj)
    have hfour : q.cells.length = 4 := rfl
    refine ⟨hkr, hwritten 0 (by omega), hwritten 1 (by omega), hwritten 2 (by omega), hwritten 3 (by omega), fun a h4 ha => ?_⟩
    · rw [hkn.cell_eq, hall.kept a h4 (of_decide_eq_false ha), (s.fetched_knOnly p).cell_eq]
  case crange =>
    intro s p i q h hop hq hv hcl htag hy hlo hhi
    refine gives_putQuad h hop rfl ?_
    simp only [State.knExec, hop, State.doCrange, s.fetched_kr, s.fetched_capNow, ← hq, htag, hy, openFault, hv, hcl, check, need, hlo, hhi,
      beq_self_eq_true, Bool.and_self, decide_true, if_true, Bool.not_true, Bool.false_eq_true, if_false, s.fetched_actSet]
  case cmask =>
    intro s p i q h hop hq hv hcl htag
    refine gives_putQuad h hop rfl ?_
    have hreserved : q.perms.v &&& 0x0000F800 = 0 := by
      simp only [Quad.valid, Bool.and_eq_true, beq_iff_eq] at hv
      exact hv.1.1.2
    simp only [State.knExec, hop, State.doCmask, s.fetched_kr, s.fetched_capNow, ← hq, htag, openFault, hv, hcl, check, need,
      beq_self_eq_true, if_true, Bool.not_true, Bool.false_eq_true, if_false, s.fetched_actSet, maskPerms hreserved]
  case cclose =>
    intro s p i q k h hop hq hv hcl htag hk hlt hbind hkey
    obtain ⟨t, ht, hkr, hkn⟩ := gives_putQuad (c := .cclose p) (q := q.sealed k) (k := (s.issue p).actSet p) (n := i.n) h hop rfl (by
      rw [← s.fetched_keyOk] at hkey
      simp only [State.knExec, hop, State.doCclose, s.fetched_kr, s.fetched_capNow, ← hq, htag, ← hk, hlt, openFault, hv, hcl, check, need,
        hbind, hkey, beq_self_eq_true, Bool.and_self, decide_true, if_true, Bool.not_true, Bool.false_eq_true, if_false,
        s.fetched_actSet, Quad.sealed])
    refine ⟨t, ht, ?_⟩
    beta_reduce
    rw [hkr, CoreRegs.cap_putCap]
    exact ⟨q.sealed_closed k, q.sealed_key hlt, q.sealed_base k, q.sealed_len k, rfl, hkn⟩
  case copen =>
    intro s p i q k h hop hq hv hcl htag hk hqk hkey
    refine gives_putQuad h hop rfl ?_
    rw [← s.fetched_keyOk] at hkey
    simp only [State.knExec, hop, State.doCopen, s.fetched_kr, s.fetched_capNow, ← hq, htag, ← hk, hv, hcl, need, hqk, hkey,
      beq_self_eq_true, Bool.and_self, if_true, s.fetched_actSet]
  case cclr =>
    intro s p i h hop
    refine gives_putQuad h hop rfl ?_
    simp only [State.knExec, hop, s.fetched_wset]
  case cinfo0 =>
    intro s p i h hop
    refine gives_cinfo (k := 0) (by decide) h hop rfl ?_
    cases (s.capNow p i.n).program
    · exact .inr (.inr rfl)
    · exact .inr (.inl rfl)
  case cinfo2 => exact fun s p i h hop => gives_cinfo (k := 2) (by decide) h hop rfl (.inl rfl)
  case cinfo1 => exact fun s p i h hop => gives_cinfo (k := 1) (by decide) h hop rfl (.inl rfl)
  case cinfo3 => exact fun s p i h hop => gives_cinfo (k := 3) (by decide) h hop rfl (.inl rfl)
  case cmov =>
    intro s p i h hop hv
    refine gives_putQuad h hop rfl ?_
    have hmoves : ((s.capNow p i.n).valid || (s.capNow p i.n).isEmpty) = true := by
      rw [Bool.or_eq_true]
      exact hv
    simp only [State.knExec, hop, State.doCmov, s.fetched_capNow, hmoves, need, if_true, s.fetched_wset]
  case ctst =>
    intro s p i h hop
    refine gives_regs h hop rfl (r := { s.rs p with x := ⟨if (s.capNow p i.n).valid then 1 else 0, tagUint⟩ }) ?_ rfl
    have hcap : ((s.rs p).cap ((s.fetched p).actSet p) i.n) = s.capNow p i.n := by rw [s.fetched_actSet, State.capNow]
    simp only [State.knExec, hop, s.fetched_r, hcap, State.setX, s.fetched_kr, uintCell]
    cases (s.capNow p i.n).valid <;> rfl
  case capsw =>
    intro s p i c0 h hop hallow hc0 hv hprog hcl hexec
    have hx : (s.fetched p).knExec p i = .ok (s.fetched p) (.shadow i.n) := by
      have hget (a : Nat) (f : Fld) : (s.fetched p).getF a f = s.getF a f :=
        congrArg (fun m => f.get (SMap.get resetOf m a)) (s.fetched_regs p)
      rw [← s.fetched_actSet, ← hget] at hallow
      simp only [State.knExec, hop, State.doCapsw, s.fetched_kr, hallow, ← hc0, hv, hprog, hcl, hexec, need, Bool.not_false,
        Bool.and_self, if_true]
    refine gives_flow_regs h hop rfl hx rfl (fun t ht hregs hkn => ?_)
    rw [State.flow_shadow_place, s.fetched_kr, (s.fetched_place p).2] at ht
    obtain ⟨hkr, hrest⟩ := Prod.mk.inj ht
    refine ⟨hkr, (Prod.mk.inj (Prod.mk.inj hrest).2).1, ?_, (s.fetched_knOnly p).trans hkn⟩
    exact State.actSet_of_regs p (hregs.trans (((s.fetched p).regs_flow_shadow p i.n).trans (s.fetched_regs p)))
  case shadow =>
    intro s p i b k h hop hsh hk
    have hx : (s.fetched p).knExec p i = .ok (s.fetched p) .seq := by simp only [State.knExec, hop]
    have hran : s.HasRun (s.fetched p) p (s.rs p) := (State.Traced.refl _ p).ran_self
    have hplace := (s.fetched_place p).1
    simp only [State.place, Prod.mk.injEq] at hplace
    obtain ⟨-, -, hshadow, -⟩ := hplace
    rw [hsh] at hshadow
    refine gives_flow_regs h hop rfl hx rfl (fun t ht hregs hkn => ?_)
    obtain ⟨hact, hwset⟩ := State.flow_seq_shadow hshadow hk
    rw [State.flow_seq_place, hran.after, s.fetched_kr] at ht
    obtain ⟨hkr, hrest⟩ := Prod.mk.inj ht
    refine ⟨hkr, (State.actSet_of_regs p hregs).trans hact, ?_, (Prod.mk.inj (Prod.mk.inj hrest).2).1, (s.fetched_knOnly p).trans hkn⟩
    exact (congrArg (fun m => F.KC_CSEL_WSET.get (SMap.get resetOf m (R.KC_CSEL p))) hregs).trans hwset

end Machine
end Sys2Proof
end

section
/-! PROOFS. Locked sequences, FENCE, WFE and PSTORE (R219, R226, R227, R238). -/

namespace Sys2Proof
namespace Machine

/-! A drain leaves the registers, the stalls and what has no error mark. -/

/-- `t` has the registers of `s`, stalls where `s` does, and holds no error mark that `s` does not. -/
structure State.Quiet (s t : State) : Prop where
  regs : t.regs = s.regs
  clearing : t.mem.clearing = s.mem.clearing
  marks : ∀ a, s.mark a = none → t.mark a = none

namespace State.Quiet

variable {s t u : State}

theorem refl (s : State) : s.Quiet s := ⟨rfl, rfl, fun _ h => h⟩

theorem trans (h : s.Quiet t) (k : t.Quiet u) : s.Quiet u :=
  ⟨k.regs.trans h.regs, k.clearing.trans h.clearing, fun a ha => k.marks a (h.marks a ha)⟩

theorem ite {c : Prop} [Decidable c] (h : s.Quiet t) (k : s.Quiet u) : s.Quiet (if c then t else u) := by
  split <;> assumption

/-- A change of the cells and of what the pairs hold. -/
theorem but (h : s.Quiet t) (hu : u = { t with core := u.core, cells := u.cells }) : s.Quiet u := by
  refine h.trans ⟨?_, ?_, fun a ha => ?_⟩ <;> rw [hu]
  exact ha

theorem memStalls (h : s.Quiet t) (a : Nat) : t.memStalls a = s.memStalls a := by
  have hwipe : t.isSet R.MEM_STAT F.MEM_STAT_SEC_WIPING = s.isSet R.MEM_STAT F.MEM_STAT_SEC_WIPING :=
    congrArg (fun m => F.MEM_STAT_SEC_WIPING.get (SMap.get resetOf m R.MEM_STAT) == 1) h.regs
  rw [State.memStalls, h.clearing, hwipe, State.memStalls]

theorem slState (h : s.Quiet t) (n : Nat) : t.slState n = s.slState n :=
  congrArg (fun m => F.SLC_STATE_STATE.get (SMap.get resetOf m (R.SLC_STATE n))) h.regs

theorem touchPage (h : s.Quiet t) (a : Nat) : s.Quiet (t.touchPage a) := by
  refine h.trans ⟨?_, ?_, fun b hb => State.mark_touchPage a hb⟩
  · unfold State.touchPage
    split <;> rfl
  · unfold State.touchPage
    split <;> rfl

theorem clearMark (h : s.Quiet t) (a : Nat) : s.Quiet (t.clearMark a) := h.trans ⟨rfl, rfl, fun _ hb => State.mark_clearMark a hb⟩

theorem breakResv (h : s.Quiet t) (w : Option Pair) (a : Nat) : s.Quiet (t.breakResv w a) := by
  refine h.but ?_
  have hrest := (t.breakResv_haltsKept w a).rest
  exact hrest.trans (by rw [hrest])

theorem setCell (h : s.Quiet t) {a : Nat} (c : Cell) (ha : inCopy a = false) : s.Quiet (t.setCell a c) := by
  refine h.but ?_
  have honly := t.setCell_only a c ha
  exact honly.trans (by rw [honly])

theorem setCore (h : s.Quiet t) (p : Pair) (c : CoreSt) : s.Quiet (t.setCore p c) := h.trans ⟨rfl, rfl, fun _ hb => hb⟩

end State.Quiet

theorem State.wr_quiet (s : State) (w : Option Pair) {a : Nat} (c : Cell) (hm : s.mark a = none) (hc : inCopy a = false) :
    s.Quiet (s.wr w a c) := by
  have htouched := (State.Quiet.refl s).touchPage a
  unfold State.wr
  split
  · exact .refl s
  · simp only [State.mark_touchPage a hm]
    exact (htouched.clearMark a).ite (((htouched.clearMark a).breakResv w a).setCell c hc)

theorem State.drainNarrow_quiet (s : State) (p : Pair) {a : Nat} (k v : Nat) (hm : s.mark a = none) (hc : inCopy a = false) :
    s.Quiet (s.drainNarrow p a k v) := by
  unfold State.drainNarrow
  split
  · exact .refl s
  · simp only [State.pairCell_unmarked p hm]
    exact (s.wr_quiet _ _ (by rw [State.mark_cellStart, hm]) (by rw [inCopy_cellStart, hc])).ite (.refl s)

theorem State.storeDrain_quiet {s : State} {p : Pair} {e : SbEntry} {l : List SbEntry} (hsb : (s.kr p).sb = e :: l)
    (hm : s.mark e.addr = none) (hc : inCopy e.addr = false) : s.Quiet (s.storeDrain p) := by
  have hpopped : s.Quiet (s.setSb p l) := (State.Quiet.refl s).setCore p _
  unfold State.storeDrain
  simp only [hsb]
  refine State.Quiet.ite (.refl s) (hpopped.trans ?_)
  cases e with
  | cell a c => exact State.Quiet.ite (.refl _) (State.wr_quiet _ _ c hm hc)
  | byte a b => exact State.drainNarrow_quiet _ p 1 _ hm hc
  | half a b => exact State.drainNarrow_quiet _ p 2 _ hm hc

theorem State.fetched_quiet (s : State) (p : Pair) : s.Quiet (s.fetched p) := by
  obtain ⟨c, hc⟩ := s.fetched_pairOnly p
  rw [hc]
  exact (State.Quiet.refl s).setCore p c

/-! FENCE. -/

/-- The entry drains to memory that answers, without an error mark and outside the copies. -/
def State.Drains (s : State) (e : SbEntry) : Prop := s.memStalls e.addr = false ∧ s.mark e.addr = none ∧ inCopy e.addr = false

theorem State.Quiet.drains {s t : State} (h : s.Quiet t) {e : SbEntry} (k : s.Drains e) : t.Drains e :=
  ⟨(h.memStalls _).trans k.1, h.marks _ k.2.1, k.2.2⟩

/-- Every entry of the buffer drains in turn, each to its cell. -/
theorem State.drainWhile_all {p : Pair} (k : Nat) : ∀ {s : State}, (s.kr p).sb.length ≤ k → (∀ e ∈ (s.kr p).sb, s.Drains e) →
    (decide (p.val < 12) && s.slState p == slRecovering) = false →
    (s.drainWhile p (fun b => !b.isEmpty) k).coreOf p = { s.coreOf p with r := { s.kr p with sb := [] } } ∧
      s.CellsKept (s.drainWhile p (fun b => !b.isEmpty) k) (fun a => (s.kr p).sb.any (fun e => e.overlaps a 4)) ∧
      (s.drainWhile p (fun b => !b.isEmpty) k).regs = s.regs := by
  induction k with
  | zero =>
    intro s hlen _ _
    have hnil : (s.kr p).sb = [] := List.length_eq_zero_iff.mp (Nat.le_zero.mp hlen)
    refine ⟨?_, fun _ _ _ => rfl, rfl⟩
    rw [← hnil]
    rfl
  | succ k ih =>
    intro s hlen hdrains hrun
    cases hsb : (s.kr p).sb with
    | nil =>
      have hstop : s.drainWhile p (fun b => !b.isEmpty) (k + 1) = s := by
        simp only [State.drainWhile, hsb, List.isEmpty_nil, Bool.not_true, Bool.false_eq_true, if_false]
      rw [hstop, ← hsb]
      exact ⟨rfl, fun _ _ _ => rfl, rfl⟩
    | cons e l =>
      have hgo : s.drainWhile p (fun b => !b.isEmpty) (k + 1) = (s.storeDrain p).drainWhile p (fun b => !b.isEmpty) k := by
        simp only [State.drainWhile, hsb, List.isEmpty_cons, Bool.not_false, if_true]
      rw [hsb] at hlen hdrains
      obtain ⟨hstalls, hmark, hcopy⟩ := hdrains e (List.mem_cons_self ..)
      obtain ⟨hcore, hcells⟩ := State.storeDrain_oldest hsb hstalls hrun hmark hcopy
      have hquiet := State.storeDrain_quiet hsb hmark hcopy
      have hkr : (s.storeDrain p).kr p = { s.kr p with sb := l } := by rw [State.kr, hcore]
      rw [hgo]
      generalize s.storeDrain p = t at hcore hcells hquiet hkr ⊢
      obtain ⟨hcore', hcells', hregs'⟩ := ih (s := t) (by rw [hkr]; exact Nat.le_of_succ_le_succ hlen)
        (fun d hd => hquiet.drains (hdrains d (List.mem_cons_of_mem e (by rw [hkr] at hd; exact hd))))
        (by rw [hquiet.slState, hrun])
      refine ⟨by rw [hcore', hkr, hcore], fun a h4 ha => ?_, hregs'.trans hquiet.regs⟩
      beta_reduce at ha
      rw [List.any_cons, Bool.or_eq_false_iff] at ha
      exact (hcells' a h4 (by rw [hkr]; exact ha.2)).trans (hcells a h4 ha.1)

section

variable {s : State} {p : Pair} {i : Kn}

/-- A FENCE whose entries drain goes on with an empty buffer. -/
theorem State.fence_runs {u : State} (h : s.issues p i = true) (hop : i.op = .fence) (hdrains : ∀ e ∈ (s.rs p).sb, s.Drains e)
    (hlen : (s.rs p).sb.length ≤ 4) (hu : (s.fetched p).drainWhile p (fun b => !b.isEmpty) 4 = u) :
    (s.fetched p).knExec p i = .ok u .seq ∧ s.HasRun u p { s.rs p with sb := [] } ∧
      s.CellsKept u (fun a => (s.rs p).sb.any (fun e => e.overlaps a 4)) ∧ u.regs = s.regs := by
  have hkr := s.fetched_kr p
  have hquiet := s.fetched_quiet p
  have hrun := State.notRecovering_of_runs (State.issues_runs h)
  rw [← hquiet.slState] at hrun
  obtain ⟨hcore, hcells, hregs⟩ := State.drainWhile_all (p := p) 4 (s := s.fetched p) (by rw [hkr]; exact hlen)
    (fun e he => hquiet.drains (hdrains e (by rw [hkr] at he; exact he))) hrun
  rw [hu] at hcore hcells hregs
  have hregisters : u.kr p = { s.rs p with sb := [] } := by rw [State.kr, hcore, hkr]
  have hsb : (u.kr p).sb.isEmpty = true := by
    rw [hregisters]
    rfl
  refine ⟨?_, ⟨hregisters, ?_, rfl⟩, fun a h4 ha => ?_, hregs.trans hquiet.regs⟩
  · simp only [State.knExec, hop, State.doFence, hu, hsb, if_true]
  · rw [hcore]
    dsimp only
    rw [(s.fetched_traced p).slot]
  · rw [hcells a h4 (by rw [hkr]; exact ha), (s.fetched_knOnly p).cell_eq]

end

end Machine
end Sys2Proof
end

section
/-! PROOFS. The reservation of a locked sequence, SC and PSTORE (R226, R227). -/

namespace Sys2Proof
namespace Machine

/-! The sequence after an instruction. -/

/-- A sequence as it counts one more instruction. -/
def LockSt.counted (l : LockSt) : LockSt := { l with n := l.n + 1 }

theorem State.lock_flow_seq (s : State) (p : Pair) : ((s.flow p .seq).coreOf p).lock = (s.coreOf p).lock := by
  have hset (c : CoreSt) (k : Nat) : ((s.setCore p c).setActive p k).coreOf p = c := s.coreOf_setCore_self p c
  unfold State.flow
  dsimp only
  split
  · rw [hset]
  · rw [State.coreOf_setCore_self]

/-- At retirement a sequence that was open before the instruction counts it (R227). -/
theorem State.retire_lock (s : State) (p : Pair) (was : Bool) : ((s.retire p .seq was).coreOf p).lock =
    if was then (s.coreOf p).lock.map LockSt.counted else (s.coreOf p).lock := by
  have hlog (u : State) : ((u.logFull p).coreOf p).lock = (u.coreOf p).lock := by
    unfold State.logFull State.checkpoint
    dsimp only
    split
    · split
      · rfl
      · rw [State.coreOf_setCore_self]
    · rfl
  have hretired (u : State) : ((u.countRetired p).coreOf p).lock = (u.coreOf p).lock := by
    rw [State.countRetired, State.coreOf_setCore_self]
  have hcount (u : State) : ((u.lockCount p was).coreOf p).lock = if was then (u.coreOf p).lock.map LockSt.counted else (u.coreOf p).lock := by
    unfold State.lockCount
    dsimp only
    cases hl : (u.coreOf p).lock with
    | none => cases was <;> exact hl
    | some l =>
      cases was
      · exact hl
      · dsimp only
        rw [if_pos rfl, if_pos rfl, State.coreOf_setCore_self]
        rfl
  obtain ⟨d, hd⟩ := s.retire_seq p was
  have hdbg (u : State) : (u.setDbg d).coreOf p = u.coreOf p := rfl
  rw [hd, hdbg, hlog, hretired, hcount, s.lock_flow_seq]

section

variable {s u : State} {p : Pair} {i : Kn} {c : Instr} {op : KOp} {r : CoreRegs}

/-- An instruction that has run and does not jump, with the sequence that it leaves. -/
theorem gives_seq_lock (h : s.issues p i = true) (hop : i.op = op) (hc : exec c s = .next (s.instr p op))
    (hx : (s.fetched p).knExec p i = .ok u .seq) (hr : s.HasRun u p r) {P : State → Prop}
    (hP : ∀ t, t.kr p = s.onwardFrom p r → u.KnOnly t p → (t.coreOf p).wfe = (u.coreOf p).wfe → (t.coreOf p).lock =
      (if ((s.issue p).coreOf p).lock.isSome then (u.coreOf p).lock.map LockSt.counted else (u.coreOf p).lock) → P t) : Gives c s P := by
  subst hop
  refine ⟨_, hc, ?_⟩
  rw [State.instr_of_ok h hx]
  have hholds := u.retire_seq_holds p ((s.issue p).coreOf p).lock.isSome
  rw [hr.kr, hr.after] at hholds
  have hplace := u.retire_place p (f := .seq) ((s.issue p).coreOf p).lock.isSome rfl
  rw [State.flow_seq_place] at hplace
  simp only [State.place, Prod.mk.injEq] at hplace
  obtain ⟨-, -, -, hwfe⟩ := hplace
  exact hP _ (Prod.mk.inj hholds).1 (u.retire_seq_knOnly p _) hwfe (u.retire_lock p _)

end

/-! What LOCK, WFE and SC leave of their pair. -/

/-- A change of pair p beside its registers and its delay slot. -/
theorem State.Traced.ran_setCore {s u : State} {p : Pair} (h : (s.fetched p).Traced u p) (c : CoreSt) (hr : c.r = (u.coreOf p).r)
    (hs : c.slot = (u.coreOf p).slot) : s.HasRun (u.setCore p c) p (s.rs p) where
  kr := by rw [State.kr, State.coreOf_setCore_self, hr, ← h.ran_self.kr, State.kr]
  slot := by rw [State.coreOf_setCore_self, hs, h.ran_self.slot]
  loop := rfl

theorem State.Traced.ran_lock {s u : State} {p : Pair} (h : (s.fetched p).Traced u p) (l : Option LockSt) :
    s.HasRun (u.setCore p { u.coreOf p with lock := l }) p (s.rs p) := h.ran_setCore _ rfl rfl

theorem State.Traced.ran_wfe {s u : State} {p : Pair} (h : (s.fetched p).Traced u p) (w : Bool) :
    s.HasRun (u.setCore p { u.coreOf p with wfe := w }) p (s.rs p) := h.ran_setCore _ rfl rfl

theorem State.endLock_core (s : State) (p : Pair) : (s.endLock p).coreOf p = { s.coreOf p with lock := none } :=
  s.coreOf_setCore_self p _

/-- X as SC leaves it, at the end of the sequence. -/
def State.scEnd (s : State) (p : Pair) (k : Nat) : State := (s.endLock p).setX p (uintCell k)

theorem State.scEnd_core (s : State) (p : Pair) (k : Nat) :
    (s.scEnd p k).coreOf p = { s.coreOf p with lock := none, r := { s.kr p with x := uintCell k } } := by
  rw [State.scEnd, State.setX, State.setKr, State.coreOf_setCore_self, State.kr, State.endLock_core]
  rfl

theorem State.scEnd_pairOnly (s : State) (p : Pair) (k : Nat) : s.PairOnly (s.scEnd p k) p := by
  have h := ((State.PairOnly.refl s p).setCore { s.coreOf p with lock := none }).setCore
    { (s.endLock p).coreOf p with r := { (s.endLock p).kr p with x := uintCell k } }
  exact h

/-- SC has run where its pair, but for the sequence and the log, stands as it found it. -/
theorem State.scEnd_ran {s u : State} {p : Pair} (hkr : u.kr p = s.rs p) (hslot : (u.coreOf p).slot = ((s.issue p).coreOf p).slot)
    (k : Nat) : s.HasRun (u.scEnd p k) p { s.rs p with x := uintCell k } where
  kr := by rw [State.kr, State.scEnd_core, hkr]
  slot := by rw [State.scEnd_core, ← hslot]
  loop := rfl

theorem State.Traced.holds {s t : State} {p : Pair} (h : s.Traced t p) (ea : Nat) : (t.coreOf p).holds ea = (s.coreOf p).holds ea := by
  unfold CoreSt.holds
  rw [h.lock]

theorem State.watch_core (s : State) (p : Pair) (a len : Nat) (wr : Bool) (v : Word) : (s.watch p a len wr v).coreOf p = s.coreOf p := by
  obtain ⟨d, hd⟩ := s.watch_records p a len wr v
  rw [hd]
  rfl

theorem State.pairWrite_regs {s u : State} {p : Pair} {x : Access} {a : Nat} {c : Cell} (h : s.CellOk a)
    (hw : s.pairWrite p x a c = .ok u ()) : u.regs = s.regs := by
  have hlog := (s.logged_pairOnly p (.write a c)).cellOk h
  simp only [State.pairWrite, h.answers, h.cells, hlog.slice, Bool.false_eq_true, if_false, if_true, Kr.ok.injEq, and_true] at hw
  rw [← hw, (State.wr_quiet _ _ c hlog.unmarked hlog.noCopy).regs, State.logged, State.regs_setCore]

/-- A store of a permitted cell that answers, at once. -/
theorem State.storeNow_ok {s : State} {p : Pair} {n ea : Nat} {c : Cell}
    (hf : (s.issue p).storeFault p ((s.issue p).quadAt p n) ea [pWrite] c = none) (hok : s.cellsOk ea 1 = true)
    (hb : s.sbClear p ea 4 = true) : ∃ u, (s.fetched p).storeNow p ((s.fetched p).quadAt p n) ea c =
      .ok (u.watch p ea 4 true c.v) () ∧ (s.fetched p).Put u p ea c ∧ u.regs = s.regs := by
  rw [← (s.fetched_traced p).quadAt, ← (s.fetched_traced p).storeFault] at hf
  have hcell := (s.fetched_pairOnly p).cellOk (State.cellOk_of_cellsOk hok (j := 0) (by decide))
  obtain ⟨u, hwrite, hput⟩ := State.pairWrite_cell (p := p) (a := ea) (pairAccess p ((s.fetched p).quadAt p n)) c hcell
  refine ⟨u, ?_, hput, ?_⟩
  · simp only [State.storeNow, hf, guardEa, State.drainSpan_clear (State.noEntry_of_sbClear hb).any, Kr.andThen, hwrite]
  · rw [State.pairWrite_regs hcell hwrite, s.fetched_regs]

/-! FENCE with one entry. -/

theorem State.wr_cell_self (s : State) (p : Pair) {a : Nat} (c : Cell) (hm : s.mark a = none) (hc : inCopy a = false)
    (hmain : s.absentMain a = false) : (s.wr (some p) a c).cell a = Machine.stored a c := by
  have htouched : ((s.touchPage a).clearMark a).absentMain a = false := by
    rw [← hmain]
    unfold State.touchPage
    split <;> rfl
  simp only [State.wr, hmain, State.mark_touchPage a hm, htouched, Bool.false_eq_true, if_false]
  exact State.cell_setCell_self _ a c hc

/-- A whole cell alone in the buffer drains to its place. -/
theorem State.drainWhile_one {s : State} {p : Pair} {e : Nat} {c : Cell} (hsb : (s.kr p).sb = [.cell e c])
    (hd : s.Drains (.cell e c)) (hrun : (decide (p.val < 12) && s.slState p == slRecovering) = false)
    (hslice : s.absentSlice e = false) (hmain : s.absentMain e = false) :
    (s.drainWhile p (fun b => !b.isEmpty) 4).cell e = Machine.stored e c := by
  obtain ⟨hstalls, hmark, hcopy⟩ := hd
  obtain ⟨hcore, -⟩ := State.storeDrain_oldest hsb hstalls hrun hmark hcopy
  have hempty : ((s.storeDrain p).kr p).sb = [] := by rw [State.kr, hcore]
  have hdrain : s.storeDrain p = (s.setSb p []).wr (some p) e c := by
    have hstalls' : s.memStalls e = false := hstalls
    have hslice' : (s.setSb p []).absentSlice e = false := hslice
    simp only [State.storeDrain, hsb, SbEntry.addr, hstalls', hrun, Bool.or_self, Bool.false_eq_true, if_false, hslice']
  have hone : s.drainWhile p (fun b => !b.isEmpty) 4 = s.storeDrain p := by
    simp only [State.drainWhile, hsb, List.isEmpty_cons, Bool.not_false, if_true, hempty, List.isEmpty_nil, Bool.not_true,
      Bool.false_eq_true, if_false]
  rw [hone, hdrain]
  exact State.wr_cell_self _ p c hmark hcopy hmain

theorem State.fetched_drains_one {s : State} {p : Pair} {i : Kn} {e : Nat} {c : Cell} (h : s.issues p i = true)
    (hsb : (s.rs p).sb = [.cell e c]) (hd : s.Drains (.cell e c)) (hslice : s.absentSlice e = false) (hmain : s.absentMain e = false) :
    ((s.fetched p).drainWhile p (fun b => !b.isEmpty) 4).cell e = Machine.stored e c := by
  have hrun := State.notRecovering_of_runs (State.issues_runs h)
  rw [← (s.fetched_quiet p).slState] at hrun
  obtain ⟨d, hfetched⟩ := s.fetched_pairOnly p
  exact State.drainWhile_one (by rw [s.fetched_kr, hsb]) ((s.fetched_quiet p).drains hd) hrun (by rw [hfetched]; exact hslice)
    (by rw [hfetched]; exact hmain)

/-! PSTORE (R226). -/

theorem State.progWord_setProgWord (s : State) (p a : Nat) (w : PWord) : (s.setProgWord p a w).progWord p a = w := by
  rw [State.progWord, State.setProgWord]
  exact SMap.get_put_self ..

/-- The word and the log entry that PSTORE leaves. -/
def State.programmed (s : State) (p : Pair) (a : Nat) (w : PWord) : State :=
  ((s.setProgWord p a w).serialise p).logged p (.program a w)

theorem State.programmed_core (s : State) (p : Pair) (a : Nat) (w : PWord) : (s.programmed p a w).kr p = s.kr p ∧
    ((s.programmed p a w).coreOf p).slot = (s.coreOf p).slot := by
  rw [State.kr, State.programmed, State.logged, State.coreOf_setCore_self, State.serialise, State.coreOf_setCore_self]
  exact ⟨rfl, rfl⟩

theorem State.programmed_cells (s : State) (p : Pair) (a : Nat) (w : PWord) : (s.programmed p a w).cells = s.cells := rfl

theorem State.programmed_reg (s : State) (p : Pair) (a : Nat) (w : PWord) (b : Nat) : (s.programmed p a w).reg b = s.reg b := rfl

theorem State.programmed_word (s : State) (p : Pair) (a : Nat) (w : PWord) : (s.programmed p a w).progWord p a = w :=
  s.progWord_setProgWord p a w

/-- An A of 14 bits is its own payload, signed or not. -/
theorem payload_small {a : BitVec 40} {t : BitVec 4} (ha : a.toNat < 2 ^ 14) :
    (if t == tagInt then a.toInt else (a.toNat : Int)) = a.toNat := by
  split
  · rw [BitVec.toInt_eq_toNat_of_lt (by omega)]
  · rfl

/-- Settles O26: a sequence opens, reserves, counts and ends as R227 says; FENCE drains entry by entry. -/
theorem lockedSequences : Obligations.LockedSequences := by
  unfold Obligations.LockedSequences
  refine ⟨?lock, ?reserve, ?stored, ?notStored, ?broken, ?fence, ?drained, ?wfe, ?pstore⟩
  case lock =>
    intro s p i h hop
    have hclosed : ((s.issue p).coreOf p).lock.isSome = false := by
      obtain ⟨hplaced, -⟩ := State.issues_placed h
      simp only [CoreSt.misplaced, hop, Bool.or_eq_false_iff, beq_self_eq_true, Bool.true_and] at hplaced
      exact hplaced.1.2
    have hx : (s.fetched p).knExec p i =
        .ok ((s.fetched p).setCore p { (s.fetched p).coreOf p with lock := some ⟨1, none, true⟩ }) .seq := by
      simp only [State.knExec, hop, State.doLock]
    have hran := (State.Traced.refl (s.fetched p) p).ran_lock (some ⟨1, none, true⟩)
    refine gives_seq_lock h hop rfl hx hran (fun t hkr hkn _ hlock => ⟨hkr, ?_, ?_⟩)
    · rw [hlock, hclosed, if_neg Bool.false_ne_true, State.coreOf_setCore_self]
    · exact ((s.fetched_knOnly p).setCore _).trans hkn
  case reserve =>
    intro s p i n ea c l h hop ho hl hlock hnone
    obtain ⟨u, -, hload, hu⟩ := State.load_of_canLoad hl
    rw [← s.fetched_operand] at ho
    have hran := hu.ran { s.rs p with a := extendCell c, atag := c.tag } rfl
    rw [← s.fetched_kr p, ← hu.kr] at hran
    have hx : (s.fetched p).knExec p i = .ok ((u.loadA p c).reserve p ea) .seq := by
      simp only [State.knExec, hop, State.doMem, State.doLoad, State.withEa_some ho, hload, Kr.andThen]
    refine gives_seq_lock h hop rfl hx (hran.reserve ea) (fun t _ hkn _ hafter => ⟨?_, ?_⟩)
    · have hopen : ((u.loadA p c).coreOf p).lock = some l := by
        rw [State.loadA, State.setA, State.setKr, State.coreOf_setCore_self, ← hlock, ← (s.fetched_traced p).lock, ← hu.lock]
      have hreserved : (((u.loadA p c).reserve p ea).coreOf p).lock = some { l with resv := some ea, good := true } := by
        unfold State.reserve
        simp only [hopen, hnone, Option.isNone_none, if_true, State.coreOf_setCore_self]
      rw [hafter, hlock, hreserved]
      rfl
    · exact ((hu.knOnly_fetched.setKr _).reserve ea).trans hkn
  case stored =>
    intro s p i n ea c h hop ho hc hv hf hholds hok hb
    rw [← s.fetched_operand] at ho
    obtain ⟨u, hstore, hput, hregs⟩ := State.storeNow_ok hf hok hb
    have hx : (s.fetched p).knExec p i = .ok ((u.watch p ea 4 true c.v).scEnd p 1) .seq := by
      rw [← (s.fetched_traced p).quadAt, ← (s.fetched_traced p).storeFault] at hf
      rw [← (s.fetched_traced p).holds] at hholds
      simp only [State.knExec, hop, State.doSc, s.fetched_kr, ← hc, hv, need, Bool.not_false, if_true, State.withEa_some ho, hf, guardEa,
        hholds, hstore, Kr.andThen, State.scEnd]
    have hcore := u.watch_core p ea 4 true c.v
    have hran := State.scEnd_ran (s := s) (u := u.watch p ea 4 true c.v) (p := p)
      (by rw [State.kr, hcore, ← s.fetched_kr, ← hput.kr, State.kr]) (by rw [hcore, hput.slot, (s.fetched_traced p).slot]) 1
    obtain ⟨d, hd⟩ := u.watch_records p ea 4 true c.v
    have honly := ((State.KnOnly.refl u p).setDbg d).trans (State.scEnd_pairOnly _ p 1).knOnly
    rw [← hd] at honly
    refine gives_seq_lock h hop rfl hx hran (fun t hkr hkn _ hlock => ?_)
    have hcells (a : Nat) : t.cell a = u.cell a := (honly.trans hkn).cell_eq a
    refine ⟨hkr, (hcells ea).trans hput.written, ?_, fun a h4 ha => ?_, fun a ha => ?_⟩
    · rw [hlock, State.scEnd_core]
      split <;> rfl
    · have hne : a / 4 ≠ ea / 4 := fun e => by
        have haligned : ea % 4 = 0 := (State.cellOk_of_cellsOk hok (j := 0) (by decide)).aligned
        exact absurd (by omega : a = ea) (by simpa using ha)
      rw [hcells, hput.kept a hne, (s.fetched_knOnly p).cell_eq]
    · rw [(honly.trans hkn).reg (by simpa using ha)]
      exact congrArg (fun m => SMap.get resetOf m a) hregs
  case notStored =>
    intro s p i n ea c h hop ho hc hv hf hholds hreg hb
    rw [← s.fetched_operand] at ho
    rw [← (s.fetched_traced p).quadAt, ← (s.fetched_traced p).storeFault] at hf
    rw [← (s.fetched_traced p).holds] at hholds
    have hx : (s.fetched p).knExec p i = .ok ((s.fetched p).scEnd p 0) .seq := by
      simp only [State.knExec, hop, State.doSc, s.fetched_kr, ← hc, hv, need, Bool.not_false, if_true, State.withEa_some ho, hf, guardEa,
        hholds, Bool.false_eq_true, if_false, State.drainSpan_clear (State.noEntry_of_sbClear hb).any, Kr.andThen, State.scEnd]
    have hran := State.scEnd_ran (s.fetched_kr p) (s.fetched_traced p).slot 0
    refine gives_seq_lock h hop rfl hx hran (fun t hkr hkn _ hlock => ⟨hkr, ?_, ?_⟩)
    · rw [hlock, State.scEnd_core]
      split <;> rfl
    · exact ((s.fetched_pairOnly p).trans (State.scEnd_pairOnly _ p 0)).knOnly.trans hkn
  case broken =>
    intro s p l hl hn
    refine ⟨s.lockBroken p, rfl, ?_⟩
    simp only [State.lockBroken, hl, hn, if_true, State.endLock]
  case fence =>
    intro s p i h hop hdrains hlen
    obtain ⟨hx, hran, hcells, hregs⟩ := State.fence_runs h hop hdrains hlen rfl
    refine gives_seq h hop rfl hx hran (fun t hkr hkn => ⟨hkr, fun a h4 ha => (hkn.cell_eq a).trans (hcells a h4 ha), fun a ha => ?_⟩)
    rw [hkn.reg (by simpa using ha)]
    exact congrArg (fun m => SMap.get resetOf m a) hregs
  case drained =>
    intro s p i e c h hop hsb hcopy hstalls hmark hslice hmain
    obtain ⟨hx, hran, -, -⟩ := State.fence_runs h hop
      (fun d hd => by rw [hsb, List.mem_singleton] at hd; rw [hd]; exact ⟨hstalls, hmark, hcopy⟩) (by rw [hsb, List.length_singleton]; decide) rfl
    have hcell := State.fetched_drains_one h hsb ⟨hstalls, hmark, hcopy⟩ hslice hmain
    refine gives_seq h hop rfl hx hran (fun t hkr hkn => ⟨(hkn.cell_eq e).trans hcell, ?_⟩)
    rw [hkr]
    rfl
  case wfe =>
    intro s p i h hop
    have hx : (s.fetched p).knExec p i = .ok ((s.fetched p).setCore p { (s.fetched p).coreOf p with wfe := true }) .seq := by
      simp only [State.knExec, hop]
    have hran := (State.Traced.refl (s.fetched p) p).ran_wfe true
    refine gives_seq_lock h hop rfl hx hran (fun t hkr hkn hwfe _ => ⟨hkr, ?_, ?_⟩)
    · rw [hwfe, State.coreOf_setCore_self]
    · exact ((s.fetched_knOnly p).setCore _).trans hkn
  case pstore =>
    intro s p i a h hop htag ha hxtag hax hlt hq hlo hhi hperm
    have hnat : (0 : Int) ≤ ((s.rs p).a.toNat : Int) ∧ ((s.rs p).a.toNat : Int) < 2 ^ 14 := by omega
    have htags : ((s.rs p).atag == tagInt || (s.rs p).atag == tagUint) = true := by
      obtain ht | ht := htag <;> rw [ht] <;> decide
    have hx : (s.fetched p).knExec p i = .ok ((s.fetched p).programmed p a ((s.rs p).a.setWidth 14)) .seq := by
      simp only [State.knExec, hop, State.doPstore, s.fetched_kr, payload_small ha, htags, hxtag, beq_self_eq_true, Bool.and_self,
        need, if_true, hnat.1, hnat.2, decide_true, s.fetched_capNow, hq, check, ← hax, hlo, hhi, hperm, Int.toNat_natCast]
      rw [BitVec.ofNat_toNat, State.programmed]
    obtain ⟨hkr, hslot⟩ := (s.fetched p).programmed_core p a ((s.rs p).a.setWidth 14)
    have hran : s.HasRun ((s.fetched p).programmed p a ((s.rs p).a.setWidth 14)) p (s.rs p) :=
      ⟨hkr.trans (s.fetched_kr p), hslot.trans (s.fetched_traced p).slot, rfl⟩
    refine gives_seq h hop rfl hx hran (fun t hkr' hkn => ⟨hkr', ?_, ?_, fun b hb => ?_⟩)
    · have hprog : t.progWord p a = ((s.fetched p).programmed p a ((s.rs p).a.setWidth 14)).progWord p a := by
        rw [State.progWord, State.progWord, hkn.1]
      rw [hprog, State.programmed_word]
    · rw [hkn.cells, State.programmed_cells, (s.fetched_knOnly p).cells]
    · rw [hkn.reg (by simpa using hb), State.programmed_reg, (s.fetched_knOnly p).reg (by simpa using hb)]

end Machine
end Sys2Proof
end

section
/-! PROOFS. DMA channels: registers, start and halt, and the fetch of an instruction (R315, R316, R325). -/

namespace Sys2Proof
namespace Machine

/-! Registers of a channel. -/

theorem State.dmaOf_setDma_self (s : State) (e : Engine) (c : Fin 16) (d : DmaCh) : (s.setDma e c d).dmaOf e c = d := by
  simp only [State.dmaOf, State.setDma, vget_set_self]

theorem State.reg_setDma (s : State) (e : Engine) (c : Fin 16) (d : DmaCh) (a : Nat) : (s.setDma e c d).reg a = s.reg a := rfl

/-- A write of one register and a field write of another leave a channel's register. -/
theorem State.reg_setDmaState {s : State} {e c a : Nat} (st : Nat) (hstat : a ≠ R.DMA_STAT e c) (hctrl : a ≠ R.DMA_CTRL e c) :
    (s.setDmaState e c st).reg a = s.reg a := by
  rw [State.setDmaState, State.reg_setB_ne _ _ _ _ _ hctrl, State.reg_setF_ne _ _ _ _ _ hstat]

theorem DMA_STAT_ne_CTRL (e c : Nat) : R.DMA_STAT e c ≠ R.DMA_CTRL e c := by
  simp only [R.DMA_STAT, R.DMA_CTRL]
  omega

theorem DMA_PC_ne (e c : Nat) : R.DMA_PC e c ≠ R.DMA_STAT e c ∧ R.DMA_PC e c ≠ R.DMA_CTRL e c ∧ R.DMA_PC e c ≠ R.DMA_BYTES e c := by
  simp only [R.DMA_STAT, R.DMA_CTRL, R.DMA_PC, R.DMA_BYTES]
  omega

theorem DMA_STAT_ne (e c : Nat) : R.DMA_STAT e c ≠ R.DMA_PC e c ∧ R.DMA_STAT e c ≠ R.DMA_BYTES e c ∧
    R.DMA_STAT e c ≠ R.DMA_ERR_ADDR e c ∧ R.DMA_STAT e c ≠ R.DMA_CFG_REJ e := by
  simp only [R.DMA_STAT, R.DMA_PC, R.DMA_BYTES, R.DMA_ERR_ADDR, R.DMA_CFG_REJ]
  omega

/-- Any field of DMA_STAT but STATE stays where the state of the channel is set. -/
theorem State.getF_setDmaState {s : State} {e c : Nat} (st : Nat) {f : Fld} (hf : 3 ≤ f.lo) :
    (s.setDmaState e c st).getF (R.DMA_STAT e c) f = s.getF (R.DMA_STAT e c) f := by
  rw [State.setDmaState, State.setB, State.getF_setF_reg _ _ _ _ _ _ (DMA_STAT_ne_CTRL e c),
    State.getF_setF_fld _ _ F.DMA_STAT_STATE _ _ (by decide) (.inl hf)]

theorem State.dmaState_setDmaState {s : State} {e c : Nat} {st : Nat} (h : st < 8) : (s.setDmaState e c st).dmaState e c = st := by
  rw [State.dmaState, State.setDmaState, State.setB, State.getF_setF_reg _ _ _ _ _ _ (DMA_STAT_ne_CTRL e c),
    State.getF_setF_of_lt _ _ _ _ (by decide) h]

/-- The next instruction `k` bytes on: addresses wrap at 32 bits. -/
theorem State.reg_setDmaPc_add (s : State) (e c k : Nat) :
    (s.setDmaPc e c (s.dmaPc e c + k)).reg (R.DMA_PC e c) = s.reg (R.DMA_PC e c) + BitVec.ofNat 32 k := by
  rw [State.setDmaPc, State.reg_setReg_self, State.dmaPc, BitVec.ofNat_add, BitVec.ofNat_toNat, BitVec.setWidth_eq]

theorem State.dmaPc_setDmaPc (s : State) (e c : Nat) {a : Nat} (h : a < 2 ^ 32) : (s.setDmaPc e c a).dmaPc e c = a := by
  rw [State.dmaPc, State.setDmaPc, State.reg_setReg_self, BitVec.toNat_ofNat, Nat.mod_eq_of_lt h]

/-- DEPTH shows the open loops, of which there are at most 7. -/
theorem State.getF_setLoops (s : State) (e : Engine) (c : Fin 16) {l : List DmaLoop} (h : l.length < 8) :
    (s.setLoops e c l).getF (R.DMA_STAT e c) F.DMA_STAT_DEPTH = l.length := State.getF_setF_of_lt _ _ _ _ (by decide) h

theorem State.dmaOf_setLoops (s : State) (e : Engine) (c : Fin 16) (l : List DmaLoop) :
    (s.setLoops e c l).dmaOf e c = { s.dmaOf e c with loops := l } := s.dmaOf_setDma_self e c _

theorem State.reg_setLoops {s : State} {e : Engine} {c : Fin 16} (l : List DmaLoop) {a : Nat} (h : a ≠ R.DMA_STAT e c) :
    (s.setLoops e c l).reg a = s.reg a := State.reg_setF_ne _ _ _ _ _ h

/-! What stays of the module. -/

namespace State.DmaOnly

variable {s t : State} {e : Engine} {c : Fin 16}

theorem refl (s : State) (e c : Nat) : s.DmaOnly s e c := ⟨rfl, fun _ _ => rfl⟩

theorem setDma (h : s.DmaOnly t e c) (g : Engine) (k : Fin 16) (d : DmaCh) : s.DmaOnly (t.setDma g k d) e c :=
  ⟨congrArg (fun u : State => { u with dma := (t.setDma g k d).dma }) h.1, h.2⟩

theorem setReg (h : s.DmaOnly t e c) {a : Nat} (v : Word)
    (ha : a ∈ [R.DMA_CTRL e c, R.DMA_STAT e c, R.DMA_PC e c, R.DMA_ERR_ADDR e c]) : s.DmaOnly (t.setReg a v) e c :=
  ⟨congrArg (fun u : State => { u with regs := (t.setReg a v).regs }) h.1, fun b hb => by
    rw [State.reg_setReg_ne _ _ _ _ (fun hba => ?_), h.2 b hb]
    beta_reduce at hb
    rw [hba, List.contains_iff_mem.mpr ha] at hb
    cases hb⟩

theorem setStat (h : s.DmaOnly t e c) (f : Fld) (v : Nat) : s.DmaOnly (t.setF (R.DMA_STAT e c) f v) e c :=
  h.setReg _ (by simp only [List.mem_cons, true_or, or_true])

theorem setPc (h : s.DmaOnly t e c) (v : Word) : s.DmaOnly (t.setReg (R.DMA_PC e c) v) e c :=
  h.setReg _ (by simp only [List.mem_cons, true_or, or_true])

theorem setDmaState (h : s.DmaOnly t e c) (st : Nat) : s.DmaOnly (t.setDmaState e c st) e c :=
  (h.setStat _ _).setReg _ (by simp only [List.mem_cons, true_or])

theorem setLoops (h : s.DmaOnly t e c) (l : List DmaLoop) : s.DmaOnly (t.setLoops e c l) e c := (h.setDma e c _).setStat _ _

theorem cells (h : s.DmaOnly t e c) : t.cells = s.cells := by rw [h.1]

end State.DmaOnly

/-! The end of a DMA_XFER changes what the functions hold alone. -/

theorem State.xferDone_fnOnly (s : State) (e c status : Nat) : s.FnOnly (s.xferDone e c status) :=
  State.FnOnly.descDone ⟨rfl, fun _ _ => rfl⟩ _ _ _

theorem dmaReg_below (e : Engine) (c : Fin 16) {o : Nat} (h : o < 0x40) : dmaBase e + 0x100 + o + c * 0x40 < fnBase 0 := by
  have he := e.isLt
  have hc := c.isLt
  unfold dmaBase fnBase
  split
  · unfold sliceBase
    omega
  · omega

theorem State.FnOnly.dmaStat {s t : State} (h : s.FnOnly t) (e : Engine) (c : Fin 16) (f : Fld) :
    t.getF (R.DMA_STAT e c) f = s.getF (R.DMA_STAT e c) f := by
  rw [State.getF, h.2 _ ?_, State.getF]
  have hbelow := dmaReg_below e c (o := 8) (by decide)
  simp only [R.DMA_STAT]
  omega

theorem State.FnOnly.dmaOf {s t : State} (h : s.FnOnly t) (e : Engine) (c : Fin 16) : t.dmaOf e c = s.dmaOf e c := by
  rw [h.1]
  rfl

theorem State.FnOnly.cells {s t : State} (h : s.FnOnly t) : t.cells = s.cells := by rw [h.1]

/-! START and HALT (R325). -/

/-- A served write of DMA_CTRL. -/
theorem State.write_DMA_CTRL {s : State} {x : Access} {e : Engine} {c : Fin 16} (v : Word) (h : s.reaches x (R.DMA_CTRL e c) = true)
    (hc : c.val < dmaChannels e) : s.write x (R.DMA_CTRL e c) v = s.dmaCtrl e c v := by
  have hclt := c.isLt
  have hblock : s.dmaWrite e (R.DMA_CTRL e c) v = s.dmaCtrl e c v := by
    have ho : R.DMA_CTRL e c - dmaBase e = 0x100 + c.val * 0x40 := by
      unfold R.DMA_CTRL
      omega
    have hk : (0x100 + c.val * 0x40 - 0x100) / 0x40 = c.val := by omega
    have hr : (0x100 + c.val * 0x40 - 0x100) % 0x40 = 0 := by omega
    have hin : (decide (0x100 + c.val * 0x40 < 0x100) || decide (dmaChannels e ≤ c.val)) = false := by
      rw [Bool.or_eq_false_iff, decide_eq_false_iff_not, decide_eq_false_iff_not]
      omega
    simp only [State.dmaWrite, ho, hk, hr, hclt, hin, dite_true, Bool.false_eq_true, if_false, Fin.eta]
  rw [← hblock]
  by_cases he : e.val < 12
  · have haddr : R.DMA_CTRL e c = sliceBase e + (0x8100 + c.val * 0x40) := by
      rw [R.DMA_CTRL, dmaBase, if_pos he]
      omega
    have hch : c.val < 8 := by
      unfold dmaChannels at hc
      rw [if_pos he] at hc
      exact hc
    rw [haddr] at h ⊢
    have hu : s.unreserved x (sliceBase e + (0x8100 + c.val * 0x40)) = true := (Bool.and_eq_true_iff.mp h).2
    have hf : s.fitted e = true := State.fitted_of_reaches (n := ⟨e.val, he⟩) (by omega) h
    have hkc : kcBars x (sliceBase e + (0x8100 + c.val * 0x40)) = false := by
      simp only [State.reaches, State.takesWrite, Bool.and_eq_true, Bool.not_eq_true'] at h
      exact h.1.2
    rw [s.write_of_reaches x _ v h]
    refine (s.regWrite_slice x ⟨e.val, he⟩ _ v (by omega) hkc hf hu).trans ?_
    rw [State.sliceWrite, if_neg (by omega), dif_neg (by omega), if_neg (by omega), if_neg (by omega), if_neg (by omega),
      if_neg (by omega), if_neg (by omega), if_neg (by omega), if_pos (by omega)]
    rfl
  · have he12 : e = 12 := Fin.ext (by have := e.isLt; omega)
    subst he12
    have haddr : R.DMA_CTRL (12 : Engine).val c = 0x01080100 + c.val * 0x40 := rfl
    rw [State.write_deviceReg v (by rw [haddr]; omega) (by rw [haddr]; omega) h]
    have hpage : (R.DMA_CTRL (12 : Engine).val c - 0x01000000) / 0x10000 = 8 := by
      rw [haddr]
      omega
    simp only [State.deviceWrite, hpage]

section

variable {s : State} {e : Engine} {c : Fin 16}

theorem State.dmaStart_starts (s : State) (e : Engine) (c : Fin 16) : s.reg (R.DMA_PROG e c) = (s.dmaStart e c).reg (R.DMA_PC e c) ∧
    (s.dmaStart e c).dmaState e c = 1 ∧ (s.dmaStart e c).dmaOf e c = resetDma ∧ s.DmaOnly (s.dmaStart e c) e c := by
  obtain ⟨hstat, hctrl, -⟩ := DMA_PC_ne e c
  unfold State.dmaStart
  extract_lets a s1
  have hpc : s1.reg (R.DMA_PC e c) = s.reg (R.DMA_PROG e c) := State.reg_setReg_self _ _ _
  have hstate : ((s1.setDmaState e c 1).setDma e c resetDma).dmaState e c = (s1.setDmaState e c 1).dmaState e c := rfl
  refine ⟨?_, hstate.trans (State.dmaState_setDmaState (by decide)), State.dmaOf_setDma_self _ e c _, ?_⟩
  · rw [State.reg_setDma, State.reg_setDmaState _ hstat hctrl, hpc]
  · exact (((((State.DmaOnly.refl s e c).setStat _ _).setStat _ _).setStat _ _).setPc _ |>.setDmaState 1).setDma e c _

/-- A channel that has stopped, with its writes answered. -/
theorem State.dmaStopped_shown (s : State) (e : Engine) (c : Fin 16) {cause : Nat} (h : cause < 4) :
    (s.dmaStopped e c cause).dmaState e c = 0 ∧ (s.dmaStopped e c cause).isSet (R.DMA_STAT e c) F.DMA_STAT_STOP_F = true ∧
      (s.dmaStopped e c cause).getF (R.DMA_STAT e c) F.DMA_STAT_STOP_CAUSE = cause ∧ (s.dmaStopped e c cause).cells = s.cells := by
  unfold State.dmaStopped
  generalize hu : ((s.setDmaState e c 0).setF (R.DMA_STAT e c) F.DMA_STAT_STOP_F 1).setF (R.DMA_STAT e c) F.DMA_STAT_STOP_CAUSE cause = u
  generalize { s.dmaOf e c with wait := none, after := .nothing } = d
  have honly := (u.setDma e c d).xferDone_fnOnly e c 2
  have hstat (f : Fld) : ((u.setDma e c d).xferDone e c 2).getF (R.DMA_STAT e c) f = u.getF (R.DMA_STAT e c) f := honly.dmaStat e c f
  refine ⟨?_, ?_, ?_, ?_⟩
  · rw [State.dmaState, hstat, ← hu, State.getF_setF_fld _ _ _ _ _ (by decide) (by decide),
      State.getF_setF_fld _ _ _ _ _ (by decide) (by decide)]
    exact State.dmaState_setDmaState (by decide)
  · rw [State.isSet, hstat, ← hu, State.getF_setF_fld _ _ _ _ _ (by decide) (by decide), State.getF_setF_of_lt _ _ _ _ (by decide) (by decide)]
    rfl
  · rw [hstat, ← hu, State.getF_setF_of_lt _ _ _ _ (by decide) h]
  · rw [honly.cells, ← hu]
    rfl

end

end Machine
end Sys2Proof
end

section
/-! PROOFS. DMA programs: the instruction at DMA_PC, loops, waits, and what goes on once no write is outstanding (R316, R318, R322,
R323, R326). -/

namespace Sys2Proof
namespace Machine

/-! The fetch (R316). -/

/-- The cell at `a`, in the memory that holds the programs of engine e, is the program word w, without error. -/
structure State.ProgramCell (s : State) (e : Engine) (a w : Nat) : Prop where
  held : spaceOf a = .slice e.val ∨ (spaceOf a = .plain ∧ e.val = 12)
  answers : s.memStalls a = false
  unmarked : s.mark a = none
  cell : s.cell a = ⟨BitVec.ofNat 32 w, tagUint⟩
  small : w < 2 ^ 32

/-- Memory of slices and Plain lies below main memory. -/
theorem below_main {a n : Nat} (h : spaceOf a = .slice n ∨ spaceOf a = .plain) : a < 2 ^ 28 := by
  by_contra hge
  have hspace : (∃ k, spaceOf a = .main k) ∨ spaceOf a = .flash ∨ spaceOf a = .reg ∨ spaceOf a = .none := by
    unfold spaceOf inPlain sysKcBase
    rw [if_neg (by omega), if_neg (by omega), if_neg (by omega), if_neg (by omega), if_neg (by omega), if_neg (by omega),
      if_neg (by rw [Bool.and_eq_true, decide_eq_true_eq, decide_eq_true_eq]; omega)]
    split
    · exact .inl ⟨_, rfl⟩
    · split
      · exact .inr (.inl rfl)
      · split
        · exact .inr (.inr (.inl rfl))
        · exact .inr (.inr (.inr rfl))
  obtain ⟨k, hk⟩ | hk | hk | hk := hspace <;> rw [hk] at h <;> obtain h | h := h <;> cases h

theorem State.ProgramCell.rd {s : State} {e : Engine} {a w : Nat} (h : s.ProgramCell e a w) :
    s.rd a = ⟨s, ⟨BitVec.ofNat 32 w, tagUint⟩, false⟩ := by
  have hbelow := below_main (h.held.imp id And.left)
  have hmain : inMain a = false := by
    rw [inMain, Bool.and_eq_false_iff, decide_eq_false_iff_not]
    exact .inl (by omega)
  rw [State.rd, State.absentMain, hmain, h.unmarked, h.cell]
  rfl

theorem State.dmaFetch_ok {s : State} {e : Engine} (l : List Nat) : ∀ {a : Nat}, (∀ j (hj : j < l.length), s.ProgramCell e (a + 4 * j) l[j]) →
    s.dmaFetch e a l.length = ⟨s, none, l⟩ := by
  induction l with
  | nil => exact fun _ => rfl
  | cons w l ih =>
    intro a h
    have hcell := h 0 (Nat.succ_pos _)
    rw [Nat.mul_zero, Nat.add_zero, List.getElem_cons_zero] at hcell
    have hmod : a % 2 ^ 32 = a := Nat.mod_eq_of_lt (Nat.lt_of_lt_of_le (below_main (hcell.held.imp id And.left)) (by decide))
    have hrest := ih (a := a + 4) (fun j hj => by
      have hnext := h (j + 1) (by rw [List.length_cons]; omega)
      rw [List.getElem_cons_succ] at hnext
      have haddr : a + 4 * (j + 1) = a + 4 + 4 * j := by omega
      exact haddr ▸ hnext)
    have hnat : (BitVec.ofNat 32 w).toNat = w := by
      rw [BitVec.toNat_ofNat, Nat.mod_eq_of_lt hcell.small]
    obtain hspace | ⟨hspace, he⟩ := hcell.held
    · simp only [List.length_cons, State.dmaFetch, hmod, hspace, hcell.rd, beq_self_eq_true, Bool.not_true, Bool.false_eq_true, if_false,
        bne_self_eq_false, hrest, hnat]
    · simp only [List.length_cons, State.dmaFetch, hmod, hspace, he, hcell.rd, beq_self_eq_true, Bool.not_true, Bool.false_eq_true,
        if_false, bne_self_eq_false, hrest, hnat]

/-- What `dmaAt` says of the channel and of the words at DMA_PC. -/
theorem State.dmaAt_iff {s : State} {e : Engine} {c : Fin 16} {l : List Nat} (h : s.dmaAt e c l = true) :
    (s.dmaState e c = 1 ∧ (s.dmaOf e c).after = .nothing ∧ (s.dmaOf e c).block = none ∧ c.val < dmaChannels e) ∧
      l.length = dmaCells (l.headD 0 / 2 ^ 28) ∧ l.length ≠ 0 ∧
      ∀ j (hj : j < l.length), s.ProgramCell e (s.dmaPc e c + 4 * j) l[j] := by
  simp only [State.dmaAt, Bool.and_eq_true, beq_iff_eq, decide_eq_true_eq, bne_iff_ne, List.all_eq_true] at h
  obtain ⟨⟨⟨⟨⟨⟨⟨hstate, hafter⟩, hblock⟩, hc⟩, hlen⟩, hne⟩, -⟩, hcells⟩ := h
  refine ⟨⟨hstate, hafter, hblock, hc⟩, hlen, hne, fun j hj => ?_⟩
  have hcell := hcells (l[j], j) (List.mk_mem_zipIdx_iff_getElem?.mpr (List.getElem?_eq_getElem hj))
  simp only [Bool.not_eq_true'] at hcell
  obtain ⟨⟨⟨⟨hheld, hstalls⟩, hmark⟩, hword⟩, hsmall⟩ := hcell
  refine ⟨?_, hstalls, hmark, hword, hsmall⟩
  split at hheld
  · next n hspace => exact .inl (by rw [hspace, beq_iff_eq.mp hheld])
  · next hspace => exact .inr ⟨hspace, beq_iff_eq.mp hheld⟩
  · cases hheld

/-- A RUNNING channel executes the instruction that it finds. -/
theorem State.dmaRun_at {s : State} {e : Engine} {c : Fin 16} {l : List Nat} {op : Nat} (h : s.dmaAt e c l = true)
    (hop : wordAt l 0 / 2 ^ 28 = op) (f : State → List Nat → State) : s.dmaRun e c op f = f s l := by
  obtain ⟨⟨hstate, hafter, hblock, hc⟩, hlen, hne, hcells⟩ := State.dmaAt_iff h
  cases l with
  | nil => exact absurd rfl hne
  | cons w l =>
    have hfirst : s.dmaFetch e (s.dmaPc e c) 1 = ⟨s, none, [w]⟩ := State.dmaFetch_ok [w] (fun j hj => by
      rw [List.length_singleton] at hj
      have hj0 : j = 0 := by omega
      subst hj0
      exact hcells 0 (Nat.succ_pos _))
    have hrest : s.dmaFetch e (s.dmaPc e c + 4) l.length = ⟨s, none, l⟩ := State.dmaFetch_ok l (fun j hj => by
      have hnext := hcells (j + 1) (by rw [List.length_cons]; omega)
      rw [List.getElem_cons_succ] at hnext
      have haddr : s.dmaPc e c + 4 * (j + 1) = s.dmaPc e c + 4 + 4 * j := by omega
      exact haddr ▸ hnext)
    have hcount : dmaCells (w / 2 ^ 28) = l.length + 1 := hlen.symm
    have hstalls : s.dmaStalls e c = false := (hcells 0 (Nat.succ_pos _)).answers
    have hop' : w / 2 ^ 28 = op := hop
    have hinstr : s.dmaInstr e c = ⟨s, none, w :: l⟩ := by
      simp only [State.dmaInstr, hfirst, List.headD_cons, hcount, Nat.add_sub_cancel, hrest, Nat.succ_ne_zero, beq_iff_eq, if_false]
    have hopen : (s.dmaState e c != 1 || (s.dmaOf e c).after != .nothing || decide (dmaChannels e ≤ c.val)) = false := by
      rw [hstate, hafter, decide_eq_false (by omega)]
      rfl
    simp only [State.dmaRun, hopen, hblock, hstalls, hinstr, Bool.false_eq_true, if_false]
    simp only [wordAt, List.getElem?_cons_zero, Option.getD_some, hop', beq_self_eq_true, if_true]

end Machine
end Sys2Proof
end

section
/-! PROOFS. DMA programs: what waits for outstanding writes, and the instructions that move no data (R318, R322, R323, R326). -/

namespace Sys2Proof
namespace Machine

section

variable {s : State} {e : Engine} {c : Fin 16}

theorem State.setDma_setDma (s : State) (e : Engine) (c : Fin 16) (d d' : DmaCh) : (s.setDma e c d).setDma e c d' = s.setDma e c d' := by
  have hset : ((s.dma.set e ((s.dma.get e).set c d)).get e).set c d' = (s.dma.get e).set c d' := by
    rw [vget_set_self, Vector.set_set]
  unfold State.setDma
  dsimp only
  rw [hset, Vector.set_set]

/-- DMA_STAT stays where the channel's next instruction is set. -/
theorem State.getF_setDmaPc (s : State) (e c a : Nat) (f : Fld) :
    (s.setDmaPc e c a).getF (R.DMA_STAT e c) f = s.getF (R.DMA_STAT e c) f :=
  congrArg f.get (State.reg_setReg_ne _ _ _ _ (DMA_STAT_ne e c).1)

/-- The channel goes on after an instruction of one cell. -/
def State.dmaGoesOn (s : State) (e c : Nat) : State := (s.setDmaPc e c (s.dmaPc e c + 4)).setDmaState e c 1

/-- The channel after END, with its writes answered. -/
def State.dmaFinished (s : State) (e : Engine) (c : Fin 16) : State :=
  (((s.setLoops e c []).setF (R.DMA_STAT e c) F.DMA_STAT_DONE_F 1).setDmaState e c 0).xferDone e c 0

/-! What waits for outstanding writes happens at once where there are none (R323). -/

/-- The channel with nothing left to wait for. -/
def State.awaitsNothing (s : State) (e : Engine) (c : Fin 16) : State := s.setDma e c { s.dmaOf e c with after := .nothing }

theorem State.dmaSettle_fence (h : (s.dmaOf e c).after = .fence) : s.dmaSettle e c = (s.awaitsNothing e c).dmaGoesOn e c := by
  unfold State.dmaSettle
  dsimp only
  rw [h]
  rfl

theorem State.dmaSettle_signal (h : (s.dmaOf e c).after = .signal) :
    s.dmaSettle e c = ((s.awaitsNothing e c).dmaGoesOn e c).fire (signalSource e c) := by
  unfold State.dmaSettle
  dsimp only
  rw [h]
  rfl

theorem State.dmaSettle_finish (h : (s.dmaOf e c).after = .finish) : s.dmaSettle e c = (s.awaitsNothing e c).dmaFinished e c := by
  unfold State.dmaSettle
  dsimp only
  rw [h]
  rfl

theorem State.dmaSettle_error {code addr : Nat} (h : (s.dmaOf e c).after = .error code addr) :
    s.dmaSettle e c = (s.awaitsNothing e c).dmaErrored e c code addr := by
  unfold State.dmaSettle
  dsimp only
  rw [h]
  rfl

theorem State.dmaAwait_settles (a : DmaAfter) (h : s.outst e c = 0) :
    s.dmaAwait e c a = (s.setDma e c { s.dmaOf e c with after := a }).dmaSettle e c := by
  rw [State.dmaAwait, if_pos (beq_iff_eq.mpr h)]

theorem State.dmaAwait_drains (a : DmaAfter) (h : s.outst e c ≠ 0) :
    s.dmaAwait e c a = (s.setDma e c { s.dmaOf e c with after := a }).setDmaState e c 3 := by
  rw [State.dmaAwait, if_neg (fun hk => h (beq_iff_eq.mp hk))]

theorem State.awaitsNothing_setDma (s : State) (e : Engine) (c : Fin 16) (a : DmaAfter) :
    (s.setDma e c { s.dmaOf e c with after := a }).awaitsNothing e c = s.awaitsNothing e c := by
  rw [State.awaitsNothing, State.dmaOf_setDma_self, State.setDma_setDma]
  rfl

theorem State.dmaAwait_fence (h : s.outst e c = 0) : s.dmaAwait e c .fence = (s.awaitsNothing e c).dmaGoesOn e c := by
  rw [State.dmaAwait_settles _ h, State.dmaSettle_fence (by rw [State.dmaOf_setDma_self]), State.awaitsNothing_setDma]

theorem State.dmaAwait_signal (h : s.outst e c = 0) :
    s.dmaAwait e c .signal = ((s.awaitsNothing e c).dmaGoesOn e c).fire (signalSource e c) := by
  rw [State.dmaAwait_settles _ h, State.dmaSettle_signal (by rw [State.dmaOf_setDma_self]), State.awaitsNothing_setDma]

theorem State.dmaAwait_finish (h : s.outst e c = 0) : s.dmaAwait e c .finish = (s.awaitsNothing e c).dmaFinished e c := by
  rw [State.dmaAwait_settles _ h, State.dmaSettle_finish (by rw [State.dmaOf_setDma_self]), State.awaitsNothing_setDma]

theorem State.dmaFail_errored (code addr : Nat) (h : s.outst e c = 0) :
    s.dmaFail e c code addr = (s.awaitsNothing e c).dmaErrored e c code addr := by
  rw [State.dmaFail, State.dmaAwait_settles _ h, State.dmaSettle_error (by rw [State.dmaOf_setDma_self]), State.awaitsNothing_setDma]

theorem State.dmaBarrier_awaits {l : List Nat} (a : DmaAfter) (h : wordAt l 0 % 2 ^ 28 = 0) : s.dmaBarrier e c a l = s.dmaAwait e c a := by
  rw [State.dmaBarrier, h]
  rfl

/-! The channel afterwards. -/

theorem State.dmaGoesOn_shown (s : State) (e : Engine) (c : Fin 16) :
    (s.dmaGoesOn e c).reg (R.DMA_PC e c) = s.reg (R.DMA_PC e c) + 4 ∧ (s.dmaGoesOn e c).dmaState e c = 1 ∧
      s.DmaOnly (s.dmaGoesOn e c) e c := by
  obtain ⟨hstat, hctrl, -⟩ := DMA_PC_ne e c
  refine ⟨?_, State.dmaState_setDmaState (by decide), ((State.DmaOnly.refl s e c).setPc _).setDmaState _⟩
  rw [State.dmaGoesOn, State.reg_setDmaState _ hstat hctrl, State.reg_setDmaPc_add]
  rfl

/-- A channel in ERROR (R326). -/
theorem State.dmaErrored_shown (s : State) (e : Engine) (c : Fin 16) {code : Nat} (addr : Nat) (h : code < 16) :
    (s.dmaErrored e c code addr).dmaState e c = 5 ∧ (s.dmaErrored e c code addr).getF (R.DMA_STAT e c) F.DMA_STAT_ERR = code ∧
      (s.dmaErrored e c code addr).isSet (R.DMA_STAT e c) F.DMA_STAT_ERR_F = true ∧ ((s.dmaErrored e c code addr).dmaOf e c).wait = none ∧
      (s.dmaErrored e c code addr).cells = s.cells := by
  unfold State.dmaErrored
  extract_lets a s1 s2 d0
  obtain ⟨hflds, hcells⟩ : (∀ f, s2.getF a f = s1.getF a f) ∧ s2.cells = s.cells := by
    unfold s2
    split
    · exact ⟨fun f => congrArg f.get (State.reg_setReg_ne _ _ _ _ (DMA_STAT_ne e c).2.2.1), rfl⟩
    · exact ⟨fun _ => rfl, rfl⟩
  generalize hd : ({ s2.dmaOf e c with wait := none, after := .nothing } : DmaCh) = d
  generalize hu : (s2.setDma e c d).setDmaState e c 5 = u
  have honly := u.xferDone_fnOnly e c 6
  have hstat {f : Fld} (hf : 3 ≤ f.lo) : u.getF a f = s1.getF a f := by
    rw [← hflds, ← hu]
    exact State.getF_setDmaState (s := s2.setDma e c d) 5 hf
  refine ⟨?_, ?_, ?_, ?_, ?_⟩
  · rw [State.dmaState, honly.dmaStat, ← hu]
    exact State.dmaState_setDmaState (by decide)
  · rw [honly.dmaStat, hstat (by decide), State.getF_setF_of_lt _ _ _ _ (by decide) h]
  · rw [State.isSet, honly.dmaStat, hstat (by decide), State.getF_setF_fld _ _ F.DMA_STAT_ERR _ _ (by decide) (by decide),
      State.getF_setF_of_lt _ _ _ _ (by decide) (by decide)]
    rfl
  · have hself : u.dmaOf e c = d := by
      rw [← hu]
      exact s2.dmaOf_setDma_self e c d
    rw [honly.dmaOf, hself, ← hd]
  · rw [honly.cells, ← hu, ← hcells]
    rfl

/-- A channel whose program has ended. -/
theorem State.dmaFinished_shown (s : State) (e : Engine) (c : Fin 16) :
    (s.dmaFinished e c).dmaState e c = 0 ∧ (s.dmaFinished e c).isSet (R.DMA_STAT e c) F.DMA_STAT_DONE_F = true ∧
      ((s.dmaFinished e c).dmaOf e c).loops = [] ∧ (s.dmaFinished e c).cells = s.cells := by
  unfold State.dmaFinished
  generalize hv : (s.setLoops e c []).setF (R.DMA_STAT e c) F.DMA_STAT_DONE_F 1 = v
  have honly := (v.setDmaState e c 0).xferDone_fnOnly e c 0
  have hdma : (v.setDmaState e c 0).dmaOf e c = { s.dmaOf e c with loops := [] } := by
    rw [← hv]
    exact s.dmaOf_setLoops e c []
  refine ⟨?_, ?_, ?_, ?_⟩
  · rw [State.dmaState, honly.dmaStat]
    exact State.dmaState_setDmaState (by decide)
  · rw [State.isSet, honly.dmaStat, State.getF_setDmaState 0 (by decide), ← hv, State.getF_setF_of_lt _ _ _ _ (by decide) (by decide)]
    rfl
  · rw [honly.dmaOf, hdma]
  · rw [honly.cells, ← hv]
    rfl

/-! A refused START, and HALT (R325). -/

theorem State.dmaReject_shown (s : State) (e : Engine) (c : Fin 16) : (s.dmaReject e).dmaState e c = s.dmaState e c ∧
    (s.dmaReject e).getF (R.DMA_CFG_REJ e) F.DMA_CFG_REJ_COUNT =
      satInc F.DMA_CFG_REJ_COUNT.top (s.getF (R.DMA_CFG_REJ e) F.DMA_CFG_REJ_COUNT) ∧
    s.dmaReject e = { s with regs := (s.dmaReject e).regs } :=
  ⟨State.getF_setF_reg _ _ _ _ _ _ (DMA_STAT_ne e c).2.2.2, State.getF_count_satInc _ _ _ (by decide), rfl⟩

theorem State.dmaStop_stops (h : s.dmaState e c = 1 ∨ s.dmaState e c = 2 ∨ s.dmaState e c = 4) (hout : s.outst e c = 0) :
    s.dmaStop e c true = s.dmaStopped e c 1 := by
  have hopen : (s.dmaState e c == 0 || s.dmaState e c == 5) = false := by
    obtain h | h | h := h <;> rw [h] <;> rfl
  have hnone : (s.getF (R.DMA_STAT e c) F.DMA_STAT_OUTST == 0) = true := beq_iff_eq.mpr hout
  simp only [State.dmaStop, hopen, hnone, Bool.false_eq_true, if_false, if_true]

/-! LOOP and ENDLOOP (R318). -/

theorem State.dmaLoop_opens {l : List Nat} (hz : wordAt l 0 / 2 ^ 24 % 16 = 0) (hn : (s.dmaOf e c).loops.length < 4) :
    s.dmaLoop e c l = (s.setLoops e c (⟨s.dmaPc e c + 8, wordAt l 0 % 2 ^ 24, 0, toSigned 16 (wordAt l 1 / 65536),
      toSigned 16 (wordAt l 1)⟩ :: (s.dmaOf e c).loops)).dmaNext e c 2 := by
  simp only [State.dmaLoop, hz, bne_self_eq_false, Bool.false_eq_true, if_false, Nat.not_le.mpr hn]

theorem State.setLoops_next (s : State) (e : Engine) (c : Fin 16) (k : Nat) {q : List DmaLoop} (h : q.length < 8) :
    (((s.setLoops e c q).dmaNext e c k).dmaOf e c).loops = q ∧
      ((s.setLoops e c q).dmaNext e c k).getF (R.DMA_STAT e c) F.DMA_STAT_DEPTH = q.length ∧
      ((s.setLoops e c q).dmaNext e c k).reg (R.DMA_PC e c) = s.reg (R.DMA_PC e c) + BitVec.ofNat 32 (4 * k) ∧
      s.DmaOnly ((s.setLoops e c q).dmaNext e c k) e c := by
  refine ⟨congrArg DmaCh.loops (s.dmaOf_setLoops e c q), ?_, ?_, ((State.DmaOnly.refl s e c).setLoops q).setPc _⟩
  · rw [State.dmaNext, State.getF_setDmaPc, State.getF_setLoops s e c h]
  · rw [State.dmaNext, State.reg_setDmaPc_add, State.reg_setLoops q (DMA_PC_ne e c).1]

theorem State.dmaEndloop_turns {l : List Nat} {y : DmaLoop} {q : List DmaLoop} (hz : wordAt l 0 % 2 ^ 28 = 0)
    (hq : (s.dmaOf e c).loops = y :: q) (hleft : y.left ≠ 1) :
    s.dmaEndloop e c l = (s.setLoops e c ({ y with left := y.left - 1, i := (y.i + 1) % 2 ^ 32 } :: q)).setDmaPc e c y.start := by
  have hone : (y.left == 1) = false := beq_eq_false_iff_ne.mpr hleft
  simp only [State.dmaEndloop, hz, hq, hone, bne_self_eq_false, Bool.false_eq_true, if_false]

theorem State.dmaEndloop_ends {l : List Nat} {y : DmaLoop} {q : List DmaLoop} (hz : wordAt l 0 % 2 ^ 28 = 0)
    (hq : (s.dmaOf e c).loops = y :: q) (hleft : y.left = 1) : s.dmaEndloop e c l = (s.setLoops e c q).dmaNext e c 1 := by
  simp only [State.dmaEndloop, hz, hq, hleft, bne_self_eq_false, beq_self_eq_true, Bool.false_eq_true, if_false, if_true]

/-! WAIT (R322). -/

theorem State.dmaWait_waits {l : List Nat} (hz : wordAt l 0 / 1024 % 2 ^ 18 = 0) (hus : wordAt l 1 < 2 ^ 24)
    (hsrc : waitOk e (wordAt l 0 % 1024) = true)
    (hnow : pwmSource (wordAt l 0 % 1024) ≠ some e.val ∨
      s.evr.taps.any (fun x => x.1 == wordAt l 0 % 1024 && x.2.1 == s.clock) = false) :
    s.dmaWait e c l = (s.setDma e c { s.dmaOf e c with
      wait := some ⟨wordAt l 0 % 1024, wordAt l 1, s.mtime.toNat, s.clock⟩ }).setDmaState e c 2 := by
  have hfires : (pwmSource (wordAt l 0 % 1024) == some e.val &&
      s.evr.taps.any (fun x => x.1 == wordAt l 0 % 1024 && x.2.1 == s.clock)) = false := by
    rw [Bool.and_eq_false_iff, beq_eq_false_iff_ne]
    exact hnow
  have hbits : wordAt l 1 / 2 ^ 24 = 0 := Nat.div_eq_of_lt hus
  simp only [State.dmaWait, hz, hbits, hsrc, hfires, bne_self_eq_false, Bool.or_false, Bool.not_true, Bool.false_eq_true, if_false]

theorem State.dmaWait_shown (s : State) (e : Engine) (c : Fin 16) (w : DmaWait) :
    ((s.setDma e c { s.dmaOf e c with wait := some w }).setDmaState e c 2).dmaState e c = 2 ∧
      (((s.setDma e c { s.dmaOf e c with wait := some w }).setDmaState e c 2).dmaOf e c).wait = some w ∧
      s.DmaOnly ((s.setDma e c { s.dmaOf e c with wait := some w }).setDmaState e c 2) e c :=
  ⟨State.dmaState_setDmaState (by decide), congrArg DmaCh.wait (s.dmaOf_setDma_self e c _),
    ((State.DmaOnly.refl s e c).setDma e c _).setDmaState 2⟩

theorem State.dmaTimeout_errored {w : DmaWait} (hw : (s.dmaOf e c).wait = some w) (hstate : s.dmaState e c = 2) (hus : w.us ≠ 0)
    (hover : w.since + 1500 * w.us ≤ s.mtime.toNat) (hout : s.outst e c = 0) :
    s.dmaTimeout e c = ((s.setDma e c { s.dmaOf e c with wait := none }).awaitsNothing e c).dmaErrored e c dTimeout 0 := by
  rw [← State.dmaFail_errored (s := s.setDma e c { s.dmaOf e c with wait := none }) dTimeout 0 hout]
  have hzero : (w.us == 0) = false := beq_eq_false_iff_ne.mpr hus
  have hless : decide (s.mtime.toNat < w.since + 1500 * w.us) = false := decide_eq_false (by omega)
  simp only [State.dmaTimeout, hw, hstate, hzero, hless, bne_self_eq_false, Bool.or_false, Bool.false_eq_true, if_false]

/-! The channel drains. -/

theorem State.dmaAwait_draining {a : DmaAfter} (h : s.outst e c ≠ 0) : (s.dmaAwait e c a).dmaState e c = 3 ∧
    ((s.dmaAwait e c a).dmaOf e c).after = a ∧ (s.dmaAwait e c a).dmaPc e c = s.dmaPc e c ∧ s.DmaOnly (s.dmaAwait e c a) e c := by
  obtain ⟨hstat, hctrl, -⟩ := DMA_PC_ne e c
  rw [State.dmaAwait_drains a h]
  refine ⟨State.dmaState_setDmaState (by decide), congrArg DmaCh.after (s.dmaOf_setDma_self e c _), ?_,
    ((State.DmaOnly.refl s e c).setDma e c _).setDmaState 3⟩
  rw [State.dmaPc, State.reg_setDmaState _ hstat hctrl]
  rfl

/-! A response (R323). -/

theorem State.dmaResponse_counts (h : 1 < s.outst e c) :
    s.dmaResponse e c = s.setF (R.DMA_STAT e c) F.DMA_STAT_OUTST (s.outst e c - 1) := by
  have h0 : (s.outst e c == 0) = false := beq_eq_false_iff_ne.mpr (by omega)
  have h1 : (s.outst e c == 1) = false := beq_eq_false_iff_ne.mpr (by omega)
  simp only [State.dmaResponse, h0, h1, Bool.false_eq_true, if_false]

theorem State.outst_setF (s : State) (e c : Nat) {k : Nat} (h : k < 128) :
    (s.setF (R.DMA_STAT e c) F.DMA_STAT_OUTST k).outst e c = k := State.getF_setF_of_lt _ _ _ _ (by decide) h

/-- The response of the last write of a channel that waits for it with a FENCE, and that is not to pause. -/
theorem State.dmaResponse_fence (h : s.outst e c = 1) (ha : (s.dmaOf e c).after = .fence) (hw : (s.dmaOf e c).was = 0) :
    s.dmaResponse e c = ((s.setF (R.DMA_STAT e c) F.DMA_STAT_OUTST 0).awaitsNothing e c).dmaGoesOn e c := by
  have hwas : (((((s.setF (R.DMA_STAT e c) F.DMA_STAT_OUTST 0).awaitsNothing e c).dmaGoesOn e c).dmaOf e c).was == 0) = true := by
    have hself : (((s.setF (R.DMA_STAT e c) F.DMA_STAT_OUTST 0).awaitsNothing e c).dmaGoesOn e c).dmaOf e c =
        { s.dmaOf e c with after := .nothing } := s.dmaOf_setDma_self e c _
    rw [hself]
    exact beq_iff_eq.mpr hw
  have hsettle : (s.setF (R.DMA_STAT e c) F.DMA_STAT_OUTST 0).dmaSettle e c = _ := State.dmaSettle_fence ha
  have hlast : s.dmaResponse e c = ((s.setF (R.DMA_STAT e c) F.DMA_STAT_OUTST 0).dmaSettle e c).dmaDrained e c := by
    simp only [State.dmaResponse, h]
    rfl
  rw [hlast, hsettle, State.dmaDrained]
  dsimp only
  rw [hwas]
  rfl

theorem State.dmaGoesOn_outst (s : State) (e c : Nat) : (s.dmaGoesOn e c).outst e c = s.outst e c := by
  rw [State.outst, State.dmaGoesOn, State.getF_setDmaState 1 (by decide), State.getF_setDmaPc]
  rfl

end

end Machine
end Sys2Proof
end

section
/-! PROOFS. DMA programs: what the firing of SIGNAL leaves of the channels' registers (R308, R311, R323). -/

namespace Sys2Proof
namespace Machine

/-- Registers outside the router's device block read as before. -/
def State.RouterBlockOnly (s t : State) : Prop := ∀ a, a < 0x01070000 ∨ 0x01080000 ≤ a → t.reg a = s.reg a

namespace State.RouterBlockOnly

variable {s t : State}

theorem refl (s : State) : s.RouterBlockOnly s := fun _ _ => rfl

theorem setReg (h : s.RouterBlockOnly t) {a : Nat} (v : Word) (ha : 0x01070000 ≤ a ∧ a < 0x01080000) :
    s.RouterBlockOnly (t.setReg a v) := fun b hb => by
  rw [State.reg_setReg_ne _ _ _ _ (by omega), h b hb]

theorem evr (h : s.RouterBlockOnly t) (r : EvrSt) : s.RouterBlockOnly { t with evr := r } := h

theorem setRoute (h : s.RouterBlockOnly t) (r : Nat) (rt : Route) : s.RouterBlockOnly (t.setRoute r rt) := by
  unfold State.setRoute
  extract_lets e s1 p a
  have h1 : s.RouterBlockOnly s1 := h
  split
  · next hr => exact (h1.setReg _ (by simp only [p, R.EVR_PEND]; omega)).setReg _ (by simp only [a, R.EVR_ACT]; omega)
  · exact h1

theorem fireRoute (h : s.RouterBlockOnly t) (r c k : Nat) (w : Word) : s.RouterBlockOnly (t.fireRoute r c k w) := by
  unfold State.fireRoute
  dsimp only
  split
  · exact h
  · split
    · exact h.setRoute _ _
    · exact h.setRoute _ _
    · exact State.RouterBlockOnly.setRoute (h.setReg _ (by decide)) _ _

theorem setGstat (h : s.RouterBlockOnly t) {g : Nat} (f : Fld) (v : Nat) (hg : g < 1024) :
    s.RouterBlockOnly (t.setF (R.EVR_GSTAT g) f v) := h.setReg _ (by simp only [R.EVR_GSTAT]; omega)

theorem closeBatch (h : s.RouterBlockOnly t) {g : Nat} (hg : g < 1024) : s.RouterBlockOnly (t.closeBatch g) := by
  unfold State.closeBatch
  extract_lets b e s1
  split
  · exact h
  · exact State.RouterBlockOnly.fireRoute ((show s.RouterBlockOnly s1 from h).setGstat _ _ hg) _ _ _ _

theorem joinBatch (h : s.RouterBlockOnly t) {g : Nat} (src : Nat) (hg : g < 1024) : s.RouterBlockOnly (t.joinBatch g src) := by
  unfold State.joinBatch
  extract_lets b b' e s1 s2 c
  have h2 : s.RouterBlockOnly s2 := (show s.RouterBlockOnly s1 from h).setGstat _ _ hg
  split
  · exact h2.closeBatch hg
  · exact h2

end State.RouterBlockOnly

theorem State.fireReach_routerBlock (s : State) (src at_ : Nat) (mt : BitVec 64) : s.RouterBlockOnly (s.fireReach src at_ mt) := by
  unfold State.fireReach
  extract_lets e s1
  have h1 : s.RouterBlockOnly s1 := State.RouterBlockOnly.refl s
  split
  · exact h1.joinBatch _ (s1.grp_lt _)
  · split
    · exact h1
    · exact h1.fireRoute _ _ _ _

/-- A firing that is no PWM event changes registers of the router's device block alone. -/
theorem State.fire_routerBlock (s : State) {src : Nat} (h : pwmSource src = none) : s.RouterBlockOnly (s.fire src) := by
  unfold State.fire
  dsimp only
  rw [h]
  split
  · split
    · exact s.fireReach_routerBlock _ _ _
    · exact State.RouterBlockOnly.refl s
  · exact State.RouterBlockOnly.refl s

theorem dmaReg_off_routerBlock (e : Engine) (c : Fin 16) (o : Nat) : dmaBase e + 0x100 + o + c * 0x40 < 0x01070000 ∨
    0x01080000 ≤ dmaBase e + 0x100 + o + c * 0x40 := by
  unfold dmaBase
  split
  · unfold sliceBase
    omega
  · omega

/-- SIGNAL fires no PWM event: its source is a local source from 4 to 11, or a source of the device. -/
theorem pwmSource_signal {e : Engine} {c : Fin 16} (h : c.val < dmaChannels e) : pwmSource (signalSource e c) = none := by
  have hc := c.isLt
  unfold signalSource
  split
  · next he =>
    have hch : c.val < 8 := by
      unfold dmaChannels at h
      rwa [if_pos he] at h
    have hlocal : localOf (localSrc e (4 + c)) = some (e.val, 4 + c.val) := by
      unfold localOf localSrc
      rw [if_pos (by omega), show (64 + 72 * e.val + (4 + c.val) - 64) / 72 = e.val by omega,
        show (64 + 72 * e.val + (4 + c.val) - 64) % 72 = 4 + c.val by omega]
    simp only [pwmSource, hlocal]
    rw [if_neg (by omega)]
  · have hlocal : localOf (8 + c) = none := if_neg (by omega)
    simp only [pwmSource, hlocal]

/-- A perturbation unit's registers are none of a DMA channel's. -/
theorem PTB_off_dma (g e : Engine) (c : Fin 16) {a : Nat} (ha : a = R.PTB_CTRL g ∨ a = R.PTB_EVT g) :
    [R.DMA_CTRL e c, R.DMA_STAT e c, R.DMA_PC e c, R.DMA_ERR_ADDR e c].contains a = false := by
  have hg := g.isLt
  have he := e.isLt
  have hc := c.isLt
  have hptb : (∃ k < 12, a = sliceBase k + 0xC000 ∨ a = sliceBase k + 0xC01C) ∨ a = 0x01130000 ∨ a = 0x0113001C := by
    by_cases hs : g.val < 12
    · refine .inl ⟨g, hs, ?_⟩
      simp only [R.PTB_CTRL, R.PTB_EVT, ptbBase, hs, if_true] at ha
      omega
    · simp only [R.PTB_CTRL, R.PTB_EVT, ptbBase, hs, if_false] at ha
      omega
  have hdma : ∀ o < 0x40, a ≠ dmaBase e + 0x100 + o + c * 0x40 := fun o ho => by
    unfold dmaBase
    unfold sliceBase at *
    split
    · obtain ⟨k, hk, h⟩ | h := hptb <;> omega
    · obtain ⟨k, hk, h⟩ | h := hptb <;> omega
  rw [← Bool.not_eq_true, List.contains_iff_mem]
  simp only [List.mem_cons, List.not_mem_nil, or_false, R.DMA_CTRL, R.DMA_STAT, R.DMA_PC, R.DMA_ERR_ADDR]
  have hctrl := hdma 0x0 (by decide)
  have hstat := hdma 0x8 (by decide)
  have hpc := hdma 0xC (by decide)
  have herr := hdma 0x10 (by decide)
  omega

theorem State.DmaOnly.evtDelay {s t : State} {e : Engine} {c : Fin 16} (h : s.DmaOnly t e c) (src : Nat) :
    t.evtDelay src = s.evtDelay src :=
  State.evtDelay_congr (fun g => h.2 _ (PTB_off_dma g e c (.inl rfl))) (fun g => h.2 _ (PTB_off_dma g e c (.inr rfl)))
    (by rw [h.1]) (by rw [h.1]) src

/-- The channel after SIGNAL, with its writes answered. -/
theorem State.dmaSignal_shown {s : State} {e : Engine} {c : Fin 16} (hc : c.val < dmaChannels e) :
    ((s.dmaGoesOn e c).fire (signalSource e c)).reg (R.DMA_PC e c) = s.reg (R.DMA_PC e c) + 4 ∧
      ((s.dmaGoesOn e c).fire (signalSource e c)).dmaState e c = 1 ∧
      (s.srcPresent (signalSource e c) = true → s.evtDelay (signalSource e c) = 0 →
        ((s.dmaGoesOn e c).fire (signalSource e c)).evr.taps = s.evr.taps ++ [(signalSource e c, s.clock, s.mtime)]) ∧
      ((s.dmaGoesOn e c).fire (signalSource e c)).cells = s.cells := by
  obtain ⟨hpc, hstate, honly⟩ := s.dmaGoesOn_shown e c
  generalize s.dmaGoesOn e c = t at hpc hstate honly
  have hblock := t.fire_routerBlock (pwmSource_signal hc)
  have hstat : (t.fire (signalSource e c)).reg (R.DMA_STAT e c) = t.reg (R.DMA_STAT e c) := hblock _ (by
    have hoff := dmaReg_off_routerBlock e c 8
    simp only [R.DMA_STAT]
    omega)
  have hpcs : (t.fire (signalSource e c)).reg (R.DMA_PC e c) = t.reg (R.DMA_PC e c) := hblock _ (by
    have hoff := dmaReg_off_routerBlock e c 12
    simp only [R.DMA_PC]
    omega)
  refine ⟨hpcs.trans hpc, (congrArg F.DMA_STAT_STATE.get hstat).trans hstate, fun hp hd => ?_, ?_⟩
  · have hpt : t.srcPresent (signalSource e c) = true := by
      rw [honly.1]
      exact hp
    have hdt := (honly.evtDelay (signalSource e c)).trans hd
    rw [State.fire_taps hpt (pwmSource_signal hc) hdt, honly.1]
  · rw [State.fire_cells, honly.cells]

end Machine
end Sys2Proof
end

section
/-! PROOFS. DMA programs: MOVE of one cell and SHUFFLE of two (R317, R320, R321, R323). -/

namespace Sys2Proof
namespace Machine

section

variable {s t : State} {e : Engine} {c : Fin 16}

/-! A cell that a channel reaches. -/

/-- Engine e reaches the cell at `a`, which answers and holds no CAP. -/
structure State.DmaCell (s : State) (e a : Nat) (wr : Bool) : Prop where
  ok : s.CellOk a
  reach : s.dmaReach e a wr = true
  tag : ((s.cell a).tag == tagCap) = false

theorem State.accessWaits_of_isCells {a : Nat} (h : isCells a = true) : s.accessWaits a = s.memStalls a := by
  have hflash : (spaceOf a == .flash || spaceOf a == .dataFlash) = false := by
    unfold isCells at h
    split at h <;> simp_all
  rw [State.accessWaits, hflash, Bool.false_and, Bool.or_false]

theorem State.dmaCell_of_ok {a : Nat} {wr : Bool} (h : s.dmaCellOk e a wr = true) (h4 : a % 4 = 0) : s.DmaCell e a wr := by
  simp only [State.dmaCellOk, Bool.and_eq_true, beq_iff_eq, bne, Bool.not_eq_eq_eq_not, Bool.not_true] at h
  obtain ⟨⟨⟨⟨⟨⟨⟨⟨hreach, hcells⟩, hcopy⟩, hslice⟩, hmain⟩, hpage⟩, hstalls⟩, hmark⟩, htag⟩ := h
  exact ⟨⟨h4, hcells, hcopy, hslice, hmain, hpage, (State.accessWaits_of_isCells hcells).trans hstalls, hmark⟩, hreach, htag⟩

theorem State.CellOk.rd_eq {a : Nat} (h : s.CellOk a) : s.rd a = ⟨s, s.cell a, false⟩ := by
  have hread : (s.absentMain a || (inMain a && !s.pageSet a)) = false := by
    have hpage := h.page
    rw [h.main, Bool.false_or]
    revert hpage
    cases inMain a <;> cases s.pageSet a <;> decide
  rw [State.rd, hread, h.unmarked]
  rfl

theorem State.dmaRead_cell {a : Nat} (h : s.DmaCell e a false) : s.dmaRead e a = ⟨s, none, s.cell a⟩ := by
  simp only [State.dmaRead, h.reach, h.ok.cells, h.ok.slice, h.ok.rd_eq, Bool.not_true, Bool.false_eq_true, if_false, if_true]

theorem State.dmaWriteCell_cell {a : Nat} (x : Cell) (h : s.DmaCell e a true) : s.dmaWriteCell e a x = ⟨s.wr none a x, none, ()⟩ := by
  simp only [State.dmaWriteCell, h.reach, h.ok.cells, h.ok.slice, h.tag, Bool.not_true, Bool.false_eq_true, if_false, if_true]

theorem State.moveCell_moves {src dst : Nat} (hsrc : s.DmaCell e src false) (hdst : s.DmaCell e dst true) :
    s.moveCell e c src dst = ⟨(s.wr none dst (s.cell src)).dmaWrote e c 4, none, ()⟩ := by
  simp only [State.moveCell, hsrc.ok.aligned, hdst.ok.aligned, State.dmaRead_cell hsrc, hsrc.tag, State.dmaWriteCell_cell _ hdst,
    bne_self_eq_false, Bool.false_eq_true, if_false]

/-! The state after such a move. -/

theorem State.dmaWrote_only (s : State) (e c k : Nat) : s.dmaWrote e c k = { s with regs := (s.dmaWrote e c k).regs } := rfl

theorem DMA_BYTES_ne (e c : Nat) : R.DMA_BYTES e c ≠ R.DMA_STAT e c := (DMA_STAT_ne e c).2.1.symm

theorem State.dmaWrote_outst {k : Nat} (h : s.outst e c < 127) : (s.dmaWrote e c k).outst e c = s.outst e c + 1 := by
  rw [State.outst, State.dmaWrote, State.countBy, State.getF_setF_reg _ _ _ _ _ _ (DMA_STAT_ne e c).2.1]
  exact State.outst_setF s e c (by omega)

theorem State.dmaWrote_bytes (s : State) (e c k : Nat) : (s.dmaWrote e c k).getF (R.DMA_BYTES e c) F.DMA_BYTES_VALUE =
    min F.DMA_BYTES_VALUE.top (s.getF (R.DMA_BYTES e c) F.DMA_BYTES_VALUE + k) := by
  rw [State.dmaWrote, State.countBy, State.getF_setF_of_lt _ _ _ _ (by decide) (Nat.lt_of_le_of_lt (Nat.min_le_left _ _) (by decide)),
    State.getF_setF_reg _ _ _ _ _ _ (DMA_BYTES_ne e c)]

theorem State.dmaWrote_pc (s : State) (e c k : Nat) : (s.dmaWrote e c k).reg (R.DMA_PC e c) = s.reg (R.DMA_PC e c) := by
  obtain ⟨hstat, -, hbytes⟩ := DMA_PC_ne e c
  rw [State.dmaWrote, State.countBy, State.reg_setF_ne _ _ _ _ _ hbytes, State.reg_setF_ne _ _ _ _ _ hstat]

theorem State.dmaWrote_getF (s : State) (e : Engine) (c : Fin 16) (k : Nat) {a : Nat} (f : Fld) (h : a < 0x01080000) :
    (s.dmaWrote e c k).getF a f = s.getF a f := by
  have hoff : a ≠ R.DMA_STAT e c ∧ a ≠ R.DMA_BYTES e c := by
    simp only [R.DMA_STAT, R.DMA_BYTES, dmaBase, sliceBase]
    constructor <;> split <;> omega
  rw [State.dmaWrote, State.countBy, State.getF_setF_reg _ _ _ _ _ _ hoff.2, State.getF_setF_reg _ _ _ _ _ _ hoff.1]

theorem State.dmaWrote_memStalls (s : State) (e : Engine) (c : Fin 16) (k a : Nat) : (s.dmaWrote e c k).memStalls a = s.memStalls a := by
  rw [State.memStalls, State.isSet, State.dmaWrote_getF _ _ _ _ _ (by decide)]
  rfl

theorem State.dmaWrote_absentMain (s : State) (e : Engine) (c : Fin 16) (k a : Nat) :
    (s.dmaWrote e c k).absentMain a = s.absentMain a := by
  rw [State.absentMain, State.chDown, State.dmaWrote_getF _ _ _ _ _ (by decide)]
  rfl

/-- Engine e's channel c has moved cell v to `dst`: no other cell, and no DMA channel beside its registers, has changed; the write
and its bytes are counted, and what the engine reaches elsewhere it still does. -/
structure State.Moved (s t : State) (e : Engine) (c : Fin 16) (dst : Nat) (v : Cell) : Prop where
  written : t.cell dst = Machine.stored dst v
  kept : ∀ b, b / 4 ≠ dst / 4 → t.cell b = s.cell b
  outst : t.outst e c = s.outst e c + 1
  bytes : t.getF (R.DMA_BYTES e c) F.DMA_BYTES_VALUE =
    min F.DMA_BYTES_VALUE.top (s.getF (R.DMA_BYTES e c) F.DMA_BYTES_VALUE + 4)
  pc : t.reg (R.DMA_PC e c) = s.reg (R.DMA_PC e c)
  dma : t.dmaOf e c = s.dmaOf e c
  reaches : ∀ a wr, a / 4 ≠ dst / 4 → s.DmaCell e a wr → t.DmaCell e a wr

theorem State.Wrote.moved {u : State} {dst : Nat} {v : Cell} (h : s.Wrote u dst v) (hregs : u.regs = s.regs) (hout : s.outst e c < 127) :
    s.Moved (u.dmaWrote e c 4) e c dst v := by
  have hreg (a : Nat) : u.reg a = s.reg a := congrArg (SMap.get resetOf · a) hregs
  have houtst : u.outst e c = s.outst e c := congrArg F.DMA_STAT_OUTST.get (hreg _)
  have hbytes : u.getF (R.DMA_BYTES e c) F.DMA_BYTES_VALUE = s.getF (R.DMA_BYTES e c) F.DMA_BYTES_VALUE :=
    congrArg F.DMA_BYTES_VALUE.get (hreg _)
  refine ⟨h.written, h.kept, ?_, ?_, ?_, ?_, fun a wr ha k => ?_⟩
  · rw [State.dmaWrote_outst (by rw [houtst]; exact hout), houtst]
  · rw [State.dmaWrote_bytes, hbytes]
  · rw [State.dmaWrote_pc, hreg]
  · have honly := h.only
    rw [State.dmaOf, State.dmaOf, show (u.dmaWrote e c 4).dma = u.dma from rfl, honly]
    rfl
  · have hu := h.answers k.ok
    have hreach : u.dmaReach e a wr = s.dmaReach e a wr := by
      rw [h.only]
      rfl
    refine ⟨⟨hu.aligned, hu.cells, hu.noCopy, hu.slice, (State.dmaWrote_absentMain u e c 4 a).trans hu.main, hu.page, ?_, hu.unmarked⟩, hreach.trans k.reach, ?_⟩
    · rw [State.accessWaits_of_isCells hu.cells, State.dmaWrote_memStalls, ← State.accessWaits_of_isCells hu.cells, hu.answers]
    · rw [show (u.dmaWrote e c 4).cell a = u.cell a from rfl, h.kept a ha]
      exact k.tag

/-- A piece of one cell that need not wait is moved. -/
theorem State.moveCell_moved {src dst : Nat} (hsrc : s.DmaCell e src false) (hdst : s.DmaCell e dst true) (hout : s.outst e c < 127) :
    ∃ u, s.moveCell e c src dst = ⟨u, none, ()⟩ ∧ s.Moved u e c dst (s.cell src) :=
  ⟨_, State.moveCell_moves hsrc hdst, (State.wr_wrote none _ hdst.ok).moved
    (s.wr_quiet none _ hdst.ok.unmarked hdst.ok.noCopy).regs hout⟩

theorem State.itemWaits_not {src dst : Nat} (hsrc : s.DmaCell e src false) (hdst : s.DmaCell e dst true) (hout : s.outst e c < 64) :
    s.itemWaits e c ⟨[src], dst⟩ = false := by
  simp only [State.itemWaits, Nat.not_le.mpr hout, hdst.ok.answers, hsrc.ok.answers, decide_false, Bool.or_false, List.any_cons,
    List.any_nil]

theorem State.dmaEach_cons {src dst : Nat} (l : List DmaItem) (hsrc : s.DmaCell e src false) (hdst : s.DmaCell e dst true)
    (hout : s.outst e c < 64) : ∃ u, s.Moved u e c dst (s.cell src) ∧ ∀ v k, u.dmaEach e c true l = ⟨v, none, k⟩ →
      s.dmaEach e c true (⟨[src], dst⟩ :: l) = ⟨v, none, k + 1⟩ := by
  obtain ⟨u, hmove, hmoved⟩ := State.moveCell_moved (c := c) hsrc hdst (Nat.lt_trans hout (by decide))
  refine ⟨u, hmoved, fun v k hrest => ?_⟩
  simp only [State.dmaEach, State.itemWaits_not hsrc hdst hout, List.headD_cons, hmove, hrest, Bool.false_eq_true, if_false, if_true]

/-- A block instruction whose pieces have all been moved. -/
theorem State.dmaBlock_ends {u : State} {l : List Nat} {items : List DmaItem} (hblock : (s.dmaOf e c).block = none)
    (h : s.dmaEach e c true items = ⟨u, none, items.length⟩) :
    s.dmaBlock e c l true items = (u.setDma e c { u.dmaOf e c with block := none }).dmaNext e c l.length := by
  simp only [State.dmaBlock, hblock, Option.map_none, Option.getD_none, List.drop_zero, h, Nat.zero_add, Nat.le_refl, if_true]

/-- The channel goes on after the block instruction. -/
theorem State.dmaBlock_next_pc (u : State) (e : Engine) (c : Fin 16) (d : DmaCh) (k : Nat) :
    ((u.setDma e c d).dmaNext e c k).reg (R.DMA_PC e c) = u.reg (R.DMA_PC e c) + BitVec.ofNat 32 (4 * k) := by
  rw [State.dmaNext, State.reg_setDmaPc_add, State.reg_setDma]

/-! The pieces of the instructions. -/

theorem wrap32_add_nil (a : Nat) (f : DmaLoop → Int) (h : a < 2 ^ 32) : wrap32 ((a : Int) + loopOffset [] f) = a := by
  have hsum : ((a : Int) + loopOffset [] f) = (a : Int) := Int.add_zero _
  rw [hsum, wrap32, ofSigned, ← Int.natCast_emod, Int.toNat_natCast]
  exact Nat.mod_eq_of_lt h

/-- The words of an instruction are words. -/
theorem State.wordAt_lt {l : List Nat} (h : s.dmaAt e c l = true) (j : Nat) : wordAt l j < 2 ^ 32 := by
  obtain ⟨-, -, -, hcells⟩ := State.dmaAt_iff h
  unfold wordAt
  by_cases hj : j < l.length
  · rw [List.getElem?_eq_getElem hj]
    exact (hcells j hj).small
  · rw [List.getElem?_eq_none (by omega)]
    decide

theorem State.dmaMove_one {l : List Nat} (hloops : (s.dmaOf e c).loops = []) (hw : wordAt l 0 = 1 * 2 ^ 28 + 1)
    (hs : wordAt l 1 < 2 ^ 32) (hd : wordAt l 2 < 2 ^ 32) (hs4 : wordAt l 1 % 4 = 0) (hd4 : wordAt l 2 % 4 = 0) :
    s.dmaMove e c l = s.dmaBlock e c l true [⟨[wordAt l 1], wordAt l 2⟩] := by
  have h27 : natBit (1 * 2 ^ 28 + 1) 27 = false := by decide
  have h26 : natBit (1 * 2 ^ 28 + 1) 26 = false := by decide
  have h25 : natBit (1 * 2 ^ 28 + 1) 25 = false := by decide
  have h24 : natBit (1 * 2 ^ 28 + 1) 24 = false := by decide
  have hn : (1 * 2 ^ 28 + 1) % 2 ^ 24 = 1 := by decide
  simp only [State.dmaMove, hloops, wrap32_add_nil _ _ hs, wrap32_add_nil _ _ hd, hw, h27, h26, h25, h24, hn, hs4, hd4, List.any_nil,
    bne_self_eq_false, Bool.or_false, Bool.and_false, Bool.false_eq_true, if_false, List.range_one, List.map_cons, List.map_nil,
    Nat.mul_zero, Nat.add_zero, Nat.mod_eq_of_lt hs, Nat.mod_eq_of_lt hd]
  rfl

theorem State.dmaShuffle_two {l : List Nat} (hloops : (s.dmaOf e c).loops = [])
    (hw : wordAt l 0 = 6 * 2 ^ 28 + 3 * 2 ^ 24 + 1 * 2 ^ 20 + 1) (hs : wordAt l 1 + 4 < 2 ^ 32) (hd : wordAt l 2 + wordAt l 3 < 2 ^ 32)
    (hs4 : wordAt l 1 % 4 = 0) (hd4 : wordAt l 2 % 4 = 0) (hp4 : wordAt l 3 % 4 = 0) :
    s.dmaShuffle e c l =
      s.dmaBlock e c l true [⟨[wordAt l 1], wordAt l 2⟩, ⟨[wordAt l 1 + 4], wordAt l 2 + wordAt l 3⟩] := by
  have h27 : natBit (6 * 2 ^ 28 + 3 * 2 ^ 24 + 1 * 2 ^ 20 + 1) 27 = false := by decide
  have hesize : (6 * 2 ^ 28 + 3 * 2 ^ 24 + 1 * 2 ^ 20 + 1) / 2 ^ 24 % 8 = 3 := by decide
  have hplanes : (6 * 2 ^ 28 + 3 * 2 ^ 24 + 1 * 2 ^ 20 + 1) / 2 ^ 20 % 16 = 1 := by decide
  have hframes : (6 * 2 ^ 28 + 3 * 2 ^ 24 + 1 * 2 ^ 20 + 1) % 2 ^ 16 = 1 := by decide
  have hzero : (6 * 2 ^ 28 + 3 * 2 ^ 24 + 1 * 2 ^ 20 + 1) / 2 ^ 16 % 16 = 0 := by decide
  have hs' : wordAt l 1 < 2 ^ 32 := by omega
  have hd' : wordAt l 2 < 2 ^ 32 := by omega
  simp only [State.dmaShuffle, hloops, wrap32_add_nil _ _ hs', wrap32_add_nil _ _ hd', hw, h27, hesize, hplanes, hframes, hzero,
    hs4, hd4, hp4, List.any_nil, bne_self_eq_false, Bool.or_false, Bool.and_false, Bool.false_eq_true, if_false, packedAt, planeAt]
  generalize wordAt l 1 = src at hs hs' ⊢
  generalize wordAt l 2 = dst at hd hd' ⊢
  generalize wordAt l 3 = ps at hd ⊢
  simp only [Nat.reduceAdd, Nat.one_mul, show List.range 2 = [0, 1] from rfl, show List.range (4 / 4) = [0] from rfl, List.flatMap_cons,
    List.flatMap_nil, List.map_cons, List.map_nil, Nat.mul_zero, Nat.add_zero, Nat.zero_mul, Nat.reduceDiv, Nat.reduceMod, Nat.zero_add,
    Nat.mod_mod, Nat.mod_eq_of_lt hs, Nat.mod_eq_of_lt hs', Nat.mod_eq_of_lt hd, Nat.mod_eq_of_lt hd',
    List.append_nil, List.cons_append, List.nil_append, Nat.reduceBEq, Bool.and_true, if_true,
    beq_self_eq_true, Bool.or_false]
  exact if_neg Bool.false_ne_true

end

end Machine
end Sys2Proof
end

section
/-! PROOFS. DMA programs settled (chapter 19). -/

namespace Sys2Proof
namespace Machine

section

variable {s : State} {e : Engine} {c : Fin 16} {l : List Nat}

/-- MOVE of one cell. -/
theorem State.dmaMove_shown (h : s.dmaAt e c l = true) (hlen : l.length = 3) (hloops : (s.dmaOf e c).loops = [])
    (hw : wordAt l 0 = 1 * 2 ^ 28 + 1) (hsrc : s.DmaCell e (wordAt l 1) false) (hdst : s.DmaCell e (wordAt l 2) true)
    (hout : s.outst e c < 64) : ∃ u, s.Moved u e c (wordAt l 2) (s.cell (wordAt l 1)) ∧
      s.dmaMove e c l = (u.setDma e c { u.dmaOf e c with block := none }).dmaNext e c 3 := by
  obtain ⟨⟨-, -, hblock, -⟩, -⟩ := State.dmaAt_iff h
  obtain ⟨u, hmoved, heach⟩ := State.dmaEach_cons (c := c) [] hsrc hdst hout
  refine ⟨u, hmoved, ?_⟩
  rw [State.dmaMove_one hloops hw (State.wordAt_lt h 1) (State.wordAt_lt h 2) hsrc.ok.aligned hdst.ok.aligned,
    State.dmaBlock_ends hblock (heach u 0 rfl), hlen]

/-- SHUFFLE of two cells: the second is moved from the state that the first leaves. -/
theorem State.dmaShuffle_shown (h : s.dmaAt e c l = true) (hloops : (s.dmaOf e c).loops = [])
    (hw : wordAt l 0 = 6 * 2 ^ 28 + 3 * 2 ^ 24 + 1 * 2 ^ 20 + 1) (hs : wordAt l 1 + 4 < 2 ^ 32) (hd : wordAt l 2 + wordAt l 3 < 2 ^ 32)
    (hp4 : wordAt l 3 % 4 = 0) (hp : 4 ≤ wordAt l 3) (hne : wordAt l 2 ≠ wordAt l 1 + 4)
    (hsrc : s.DmaCell e (wordAt l 1) false) (hsrc' : s.DmaCell e (wordAt l 1 + 4) false)
    (hdst : s.DmaCell e (wordAt l 2) true) (hdst' : s.DmaCell e (wordAt l 2 + wordAt l 3) true) (hout : s.outst e c < 63) :
    ∃ u v, s.Moved u e c (wordAt l 2) (s.cell (wordAt l 1)) ∧
      u.Moved v e c (wordAt l 2 + wordAt l 3) (s.cell (wordAt l 1 + 4)) ∧
      s.dmaShuffle e c l = (v.setDma e c { v.dmaOf e c with block := none }).dmaNext e c 4 := by
  obtain ⟨⟨-, -, hblock, -⟩, hlen, hl0, -⟩ := State.dmaAt_iff h
  have hs4 := hsrc.ok.aligned
  have hd4 := hdst.ok.aligned
  obtain ⟨u, hmoved, heach⟩ := State.dmaEach_cons (c := c) [⟨[wordAt l 1 + 4], wordAt l 2 + wordAt l 3⟩] hsrc hdst
    (Nat.lt_trans hout (by decide))
  have hcell : u.cell (wordAt l 1 + 4) = s.cell (wordAt l 1 + 4) := hmoved.kept _ (by omega)
  obtain ⟨v, hmoved', heach'⟩ := State.dmaEach_cons (c := c) [] (hmoved.reaches (wordAt l 1 + 4) false (by omega) hsrc')
    (hmoved.reaches (wordAt l 2 + wordAt l 3) true (by omega) hdst') (by rw [hmoved.outst]; omega)
  rw [hcell] at hmoved'
  have hcount : l.length = 4 := by
    have hhead : l.headD 0 = wordAt l 0 := by
      cases l with
      | nil => exact absurd rfl hl0
      | cons w q => rfl
    rw [hlen, hhead, hw]
    decide
  refine ⟨u, v, hmoved, hmoved', ?_⟩
  rw [State.dmaShuffle_two hloops hw hs hd hs4 hd4 hp4, State.dmaBlock_ends hblock (heach v 1 (heach' v 0 rfl)), hcount]

end

theorem DMA_CTRL_command : F.DMA_CTRL_HALT.get (F.DMA_CTRL_START.word 1) = 0 ∧ F.DMA_CTRL_START.get (F.DMA_CTRL_START.word 1) = 1 ∧
    F.DMA_CTRL_HALT.get (F.DMA_CTRL_HALT.word 1) = 1 := by decide

section

variable {s : State} {x : Access} {e : Engine} {c : Fin 16}

theorem gives_dmaStart (h : s.reaches x (R.DMA_CTRL e c) = true) (hc : c.val < dmaChannels e) (P : State → Prop)
    (hP : P (if s.dmaMayStart e c = true then s.dmaStart e c else s.dmaReject e)) : Gives (.dmaStart x e c) s P := by
  refine ⟨_, rfl, ?_⟩
  obtain ⟨hhalt, hstart, -⟩ := DMA_CTRL_command
  rw [State.write_DMA_CTRL _ h hc, State.dmaCtrl, hhalt, hstart]
  exact hP

theorem gives_dmaHalt (h : s.reaches x (R.DMA_CTRL e c) = true) (hc : c.val < dmaChannels e) (P : State → Prop)
    (hP : P (s.dmaStop e c true)) : Gives (.dmaHalt x e c) s P := by
  refine ⟨_, rfl, ?_⟩
  obtain ⟨-, -, hhalt⟩ := DMA_CTRL_command
  rw [State.write_DMA_CTRL _ h hc, State.dmaCtrl, hhalt]
  exact hP

end

/-- A command whose instruction stands at DMA_PC. -/
theorem gives_dmaRun {s : State} {e : Engine} {c : Fin 16} {l : List Nat} {i : Instr} {op : Nat} {f : State → List Nat → State}
    {P : State → Prop} (hi : exec i s = .next (s.dmaRun e c op f)) (h : s.dmaAt e c l = true) (hop : wordAt l 0 / 2 ^ 28 = op)
    (hP : P (f s l)) : Gives i s P :=
  ⟨_, hi, by rw [State.dmaRun_at h hop f]; exact hP⟩

/-- Settles O34: each command is one operation of the channel, whose result is stated once beside its definition. -/
theorem dmaPrograms : Obligations.DmaPrograms := by
  refine ⟨?start, ?refused, ?halt, ?move, ?loop, ?turns, ?ends, ?wait, ?timeout, ?signal, ?fence, ?drains, ?finish, ?shuffle, ?counts,
    ?response⟩
  case start =>
    intro s x e c h hc hmay
    refine gives_dmaStart h hc _ ?_
    rw [if_pos hmay]
    exact s.dmaStart_starts e c
  case refused =>
    intro s x e c h hc hmay
    refine gives_dmaStart h hc _ ?_
    rw [if_neg (by rw [hmay]; decide)]
    exact s.dmaReject_shown e c
  case halt =>
    intro s x e c h hc hstate hout
    refine gives_dmaHalt h hc _ ?_
    rw [State.dmaStop_stops hstate hout]
    exact s.dmaStopped_shown e c (by decide)
  case move =>
    intro s e c l src dst v h hlen hloops hw hsrc hdst hs4 hd4 hsok hdok hv hout
    subst hsrc hdst hv
    refine gives_dmaRun rfl h (by omega) ?_
    obtain ⟨u, hmoved, heq⟩ := State.dmaMove_shown h hlen hloops hw (State.dmaCell_of_ok hsok hs4) (State.dmaCell_of_ok hdok hd4) hout
    rw [heq]
    refine ⟨hmoved.written, ?_, ?_, ?_, fun b hb hne => hmoved.kept b ?_⟩
    · rw [State.dmaBlock_next_pc, hmoved.pc]
      rfl
    · rw [State.outst, State.dmaNext, State.getF_setDmaPc]
      exact hmoved.outst
    · rw [State.dmaNext, State.setDmaPc]
      exact (congrArg F.DMA_BYTES_VALUE.get (State.reg_setReg_ne _ _ _ _ (DMA_PC_ne e c).2.2.symm)).trans hmoved.bytes
    · have hne' : b ≠ wordAt l 2 := beq_eq_false_iff_ne.mp hne
      omega
  case loop =>
    intro s e c l h hop hz hn
    refine gives_dmaRun rfl h hop ?_
    rw [State.dmaLoop_opens hz hn]
    exact s.setLoops_next e c 2 (by rw [List.length_cons]; omega)
  case turns =>
    intro s e c l y q h hw hq hleft hstart
    refine gives_dmaRun rfl h (by omega) ?_
    rw [State.dmaEndloop_turns (by omega) hq hleft]
    exact ⟨congrArg DmaCh.loops (s.dmaOf_setLoops e c _), State.dmaPc_setDmaPc _ _ _ hstart,
      ((State.DmaOnly.refl s e c).setLoops _).setPc _⟩
  case ends =>
    intro s e c l y q h hw hq hleft hn
    refine gives_dmaRun rfl h (by omega) ?_
    rw [State.dmaEndloop_ends (by omega) hq hleft]
    obtain ⟨hloops, -, hpc, honly⟩ := s.setLoops_next e c 1 (q := q) (by omega)
    exact ⟨hloops, hpc, honly⟩
  case wait =>
    intro s e c l h hop hz hus hsrc hnow
    refine gives_dmaRun rfl h hop ?_
    rw [State.dmaWait_waits hz hus hsrc hnow]
    exact s.dmaWait_shown e c _
  case timeout =>
    intro s e c w hw hstate hus hover hout
    refine ⟨_, rfl, ?_⟩
    rw [State.dmaTimeout_errored hw hstate hus hover hout]
    obtain ⟨h5, herr, hflag, hwait, hcells⟩ := ((s.setDma e c { s.dmaOf e c with wait := none }).awaitsNothing e c).dmaErrored_shown e c
      (code := dTimeout) 0 (by decide)
    exact ⟨h5, herr, hflag, hwait, hcells⟩
  case signal =>
    intro s e c l h hw hout
    obtain ⟨⟨-, -, -, hc⟩, -⟩ := State.dmaAt_iff h
    refine gives_dmaRun rfl h (by omega) ?_
    rw [State.dmaBarrier_awaits _ (by omega), State.dmaAwait_signal hout]
    exact State.dmaSignal_shown (s := s.awaitsNothing e c) hc
  case fence =>
    intro s e c l h hw hout
    refine gives_dmaRun rfl h (by omega) ?_
    rw [State.dmaBarrier_awaits _ (by omega), State.dmaAwait_fence hout]
    obtain ⟨hpc, hstate, honly⟩ := (s.awaitsNothing e c).dmaGoesOn_shown e c
    exact ⟨hpc, hstate, (((State.DmaOnly.refl s e c).setDma e c _).setPc _).setDmaState 1⟩
  case drains =>
    intro s e c l h hw hout
    refine gives_dmaRun rfl h (by omega) ?_
    rw [State.dmaBarrier_awaits _ (by omega)]
    exact State.dmaAwait_draining hout
  case finish =>
    intro s e c l h hw hout
    refine gives_dmaRun rfl h (by omega) ?_
    rw [State.dmaBarrier_awaits _ (by omega), State.dmaAwait_finish hout]
    exact (s.awaitsNothing e c).dmaFinished_shown e c
  case shuffle =>
    intro s e c l src dst h hloops hw hsrc hdst hp4 hs4 hd4 hd hs hp hsok hsok' hdok hdok' hne hout
    subst hsrc hdst
    refine gives_dmaRun rfl h (by omega) ?_
    obtain ⟨u, v, hmoved, hmoved', heq⟩ := State.dmaShuffle_shown h hloops hw hs hd hp4 hp hne (State.dmaCell_of_ok hsok hs4)
      (State.dmaCell_of_ok hsok' (by omega)) (State.dmaCell_of_ok hdok hd4) (State.dmaCell_of_ok hdok' (by omega)) hout
    rw [heq]
    refine ⟨?_, hmoved'.written, ?_, fun b hb hne' => ?_⟩
    · exact (hmoved'.kept _ (by omega)).trans hmoved.written
    · rw [State.dmaBlock_next_pc, hmoved'.pc, hmoved.pc]
      rfl
    · simp only [Bool.or_eq_false_iff, beq_eq_false_iff_ne] at hne'
      exact (hmoved'.kept b (by omega)).trans (hmoved.kept b (by omega))
  case counts =>
    intro s e c h
    have hlt : s.outst e c < 128 := s.getF_lt _ _
    refine ⟨_, rfl, ?_⟩
    rw [State.dmaResponse_counts h]
    exact ⟨State.outst_setF s e c (by omega), rfl⟩
  case response =>
    intro s e c h ha hwas _
    refine ⟨_, rfl, ?_⟩
    rw [State.dmaResponse_fence h ha hwas]
    obtain ⟨hpc, hstate, -⟩ := ((s.setF (R.DMA_STAT e c) F.DMA_STAT_OUTST 0).awaitsNothing e c).dmaGoesOn_shown e c
    have hout : ((s.setF (R.DMA_STAT e c) F.DMA_STAT_OUTST 0).awaitsNothing e c).outst e c = 0 := State.outst_setF s e c (by decide)
    have hafter : ((((s.setF (R.DMA_STAT e c) F.DMA_STAT_OUTST 0).awaitsNothing e c).dmaGoesOn e c).dmaOf e c).after = .nothing :=
      congrArg DmaCh.after (s.dmaOf_setDma_self e c _)
    refine ⟨(State.dmaGoesOn_outst _ _ _).trans hout, hstate, hafter, hpc.trans ?_⟩
    rw [show ((s.setF (R.DMA_STAT e c) F.DMA_STAT_OUTST 0).awaitsNothing e c).reg (R.DMA_PC e c) = s.reg (R.DMA_PC e c) from
      State.reg_setF_ne _ _ _ _ _ (DMA_PC_ne e c).1]

end Machine
end Sys2Proof
end

section
/-! PROOFS. What pairing of a twin module leaves of Passway (R391, R399): its registers, its state, what was sent, and memory. -/

namespace Sys2Proof
namespace Machine

/-- A register of the Passway block, or DEV_MODE. -/
def PwyReg (a : Nat) : Prop := a = 0x01000008 ∨ (0x010A0000 ≤ a ∧ a < 0x010B0000)

theorem routerReg_of_pwyReg {a : Nat} (h : PwyReg a) : routerReg a = false := by
  simp only [routerReg, Bool.or_eq_false_iff, Bool.and_eq_false_iff, decide_eq_false_iff_not]
  simp only [PwyReg] at h
  omega

/-- `t` holds what `s` does of Passway and in memory, and has sent no more. -/
structure State.OffPwy (s t : State) : Prop where
  regs : ∀ a, PwyReg a → t.reg a = s.reg a
  cells : t.cells = s.cells
  outs : t.outs = s.outs
  pwy : t.pwy = s.pwy

namespace State.OffPwy

variable {s t u : State}

theorem refl (s : State) : s.OffPwy s := ⟨fun _ _ => rfl, rfl, rfl, rfl⟩

theorem trans (h : s.OffPwy t) (k : t.OffPwy u) : s.OffPwy u :=
  ⟨fun a ha => (k.regs a ha).trans (h.regs a ha), k.cells.trans h.cells, k.outs.trans h.outs, k.pwy.trans h.pwy⟩

theorem mode (h : s.OffPwy t) : t.mode = s.mode := congrArg F.DEV_MODE_MODE.get (h.regs _ (.inl rfl))

theorem ite {c : Prop} [Decidable c] (h : s.OffPwy t) (k : s.OffPwy u) : s.OffPwy (if c then t else u) := by
  split <;> assumption

theorem foldl {α : Type} (h : s.OffPwy t) (l : List α) (f : State → α → State)
    (hf : ∀ v a, s.OffPwy v → s.OffPwy (f v a)) : s.OffPwy (l.foldl f t) := foldl_keeps _ f l t h hf

/-- A change of what `OffPwy` does not speak of. -/
theorem elsewhere (h : s.OffPwy t) (hu : (u.regs, u.cells, u.outs, u.pwy) = (t.regs, t.cells, t.outs, t.pwy)) : s.OffPwy u := by
  obtain ⟨hregs, hcells, houts, hpwy⟩ : u.regs = t.regs ∧ u.cells = t.cells ∧ u.outs = t.outs ∧ u.pwy = t.pwy := by
    simpa only [Prod.mk.injEq] using hu
  exact h.trans ⟨fun a _ => congrArg (SMap.get resetOf · a) hregs, hcells, houts, hpwy⟩

theorem setReg (h : s.OffPwy t) {a : Nat} (ha : ¬ PwyReg a) (v : Word) : s.OffPwy (t.setReg a v) :=
  h.trans ⟨fun b hb => t.reg_setReg_ne a v b (fun e => ha (e ▸ hb)), rfl, rfl, rfl⟩

theorem router (h : s.OffPwy t) (k : RouterOnly t u) : s.OffPwy u :=
  h.trans ⟨fun a ha => k.regs a (routerReg_of_pwyReg ha), by rw [k.rest], by rw [k.rest], by rw [k.rest]⟩

theorem fire (h : s.OffPwy t) (src : Nat) : s.OffPwy (t.fire src) := h.router (t.fire_only src)

/-! The registers of the twin link. -/

theorem setTwin (h : s.OffPwy t) {a : Nat} (ha : 0x010B0000 ≤ a) (v : Word) : s.OffPwy (t.setReg a v) :=
  h.setReg (by simp only [PwyReg]; omega) v

theorem reportRoles (h : s.OffPwy t) (u : State) : s.OffPwy (u.reportRoles t) := by
  have h1 : s.OffPwy t.syncRegs := by
    unfold State.syncRegs
    extract_lets f sy ar
    have h3 : s.OffPwy ((t.setF R.TWN_SYNC F.TWN_SYNC_SYNCED sy).setF R.TWN_SYNC F.TWN_SYNC_ARMED ar) :=
      (h.setTwin (by decide) _).setTwin (by decide) _
    exact h.ite ((h3.ite (State.OffPwy.fire (h3.elsewhere (by rfl)) 982)).ite h)
  exact State.OffPwy.ite (h1.elsewhere (by rfl)) h1

theorem showHealth (h : s.OffPwy t) : s.OffPwy t.showHealth := ((h.setTwin (by decide) _).fire 978).ite h

theorem twinDrop (h : s.OffPwy t) : s.OffPwy t.twinDrop := by
  have h1 : s.OffPwy (t.count R.TWN_DROP F.TWN_DROP_COUNT) := h.setTwin (by decide) _
  exact State.OffPwy.showHealth (h1.elsewhere (by rfl))

/-! Pins: edge records are made in HIL mode alone (R357). -/

theorem setSlice (h : s.OffPwy t) {a : Nat} (ha : 0x02000000 ≤ a) (v : Word) : s.OffPwy (t.setReg a v) :=
  h.setReg (by simp only [PwyReg]; omega) v

theorem edgeRecord (h : s.OffPwy t) (hm : s.mode = mdTwin) (n : Fin 12) (k : Fin 8) (out : Nat) (level : Bool) (now : Nat) :
    s.OffPwy (t.edgeRecord n k out level now) := by
  have htwin : (t.mode != mdHil) = true := by
    rw [h.mode, hm]
    decide
  rw [State.edgeRecord, htwin]
  exact h

theorem drive (h : s.OffPwy t) (hm : s.mode = mdTwin) (n : Fin 12) (k : Fin 8) (line now : Nat) : s.OffPwy (t.drive n k line now) := by
  unfold State.drive
  dsimp only
  have h1 (p : PwmSt) : s.OffPwy (t.setPw n k p) := h.elsewhere (by rfl)
  exact ((((h1 _).edgeRecord hm _ _ _ _ _).ite (h1 _)).edgeRecord hm _ _ _ _ _).ite (((h1 _).edgeRecord hm _ _ _ _ _).ite (h1 _))

theorem pins (h : s.OffPwy t) (hm : s.mode = mdTwin) (n : Fin 12) (k : Fin 8) : s.OffPwy (t.pins n k) := by
  have h1 : s.OffPwy (t.setF (R.PWM_TRIP_STAT n k) F.PWM_TRIP_STAT_PINS (if t.mode == mdHil then 0 else t.pinLine n k)) :=
    h.setSlice (by simp only [R.PWM_TRIP_STAT, pwmBase]; omega) _
  exact (State.OffPwy.ite (h1.elsewhere (by rfl)) h1).drive hm n k _ _

theorem pinsSlice (h : s.OffPwy t) (hm : s.mode = mdTwin) (n : Fin 12) : s.OffPwy (t.pinsSlice n) :=
  h.foldl _ _ (fun _ k hu => hu.pins hm n k)

/-! The CLE of a standby slice (R393). -/

theorem setLstat (h : s.OffPwy t) (n : Fin 12) (j : Nat) (v : Word) : s.OffPwy (t.setReg (R.CLE_LSTAT n j) v) :=
  h.setSlice (by simp only [R.CLE_LSTAT, sliceBase]; omega) v

theorem setCleStat (h : s.OffPwy t) (n : Fin 12) (v : Word) : s.OffPwy (t.setReg (R.CLE_STAT n) v) :=
  h.setSlice (by simp only [R.CLE_STAT, sliceBase]; omega) v

theorem setQ (h : s.OffPwy t) (n : Fin 12) (j q : Nat) : s.OffPwy (t.setQ n j q) := (h.setLstat n j _).setCleStat n _

theorem dropLoop (h : s.OffPwy t) (n : Fin 12) (j : Fin 16) : s.OffPwy (t.dropLoop n j false) := by
  unfold State.dropLoop
  simp only [Bool.false_eq_true, if_false]
  have h1 : s.OffPwy (if t.isSet (R.CLE_LSTAT n j) F.CLE_LSTAT_LATE_PEND then t.setF (R.CLE_LSTAT n j) F.CLE_LSTAT_LATE_PEND 0 else t) :=
    (h.setLstat n j _).ite h
  have h2 := h1.setQ n j 0
  exact State.OffPwy.ite (h2.elsewhere (by rfl)) (h1.ite (State.OffPwy.elsewhere (h2.setLstat n j _) (by rfl)))

theorem showCall (h : s.OffPwy t) (n : Fin 12) : s.OffPwy (t.showCall n) :=
  (h.setSlice (by simp only [R.MCS_XSTAT, sliceBase]; omega) _).setSlice (by simp only [R.MCS_XSTAT, sliceBase]; omega) _

theorem dropCle (h : s.OffPwy t) (n : Fin 12) : s.OffPwy (t.dropCle n false) := by
  unfold State.dropCle
  extract_lets s1 c call
  have h1 : s.OffPwy s1 := h.foldl _ _ (fun _ j hu => hu.dropLoop n j)
  exact (State.OffPwy.setCleStat (h1.elsewhere (by rfl)) n _).showCall n

/-! Roles (R392). -/

theorem putRole (h : s.OffPwy t) (hm : s.mode = mdTwin) (n : Fin 12) (role : Nat) : s.OffPwy (t.putRole n role) := by
  unfold State.putRole State.dropRole
  extract_lets s1 tw s2 c
  have h1 : s.OffPwy s1 := (h.setTwin (by decide) _).setTwin (by decide) _
  have h2 : s.OffPwy s2 := State.OffPwy.ite (h1.elsewhere (by rfl)) h1
  exact ((State.OffPwy.dropCle (h2.elsewhere (by rfl)) n).ite h2).pinsSlice hm n

theorem pairUp (h : s.OffPwy t) (hm : s.mode = mdTwin) : s.OffPwy t.pairUp := by
  unfold State.pairUp
  extract_lets conflict s0 running tw s1
  have h0 : s.OffPwy s0 := ((h.setTwin (by decide) _).fire 983).ite h
  have h1 : s.OffPwy s1 := h0.elsewhere (by rfl)
  refine State.OffPwy.ite (State.OffPwy.showHealth (State.OffPwy.reportRoles ?_ s1)) h0.showHealth
  exact h1.foldl _ _ (fun _ n hu => hu.ite (hu.putRole hm n _))

end State.OffPwy

/-- LOCKED may have changed: Passway and memory are those of `t`. -/
theorem State.lockedNow_offPwy (s t : State) (h : t.mode = s.mode) : t.OffPwy (s.lockedNow t) := by
  unfold State.lockedNow
  split
  · next hc =>
    have hm : s.mode = mdTwin := beq_iff_eq.mp (Bool.and_eq_true_iff.mp hc).1
    exact (State.OffPwy.refl t).pairUp (h.trans hm)
  · exact .refl t

end Machine
end Sys2Proof
end

section
/-! PROOFS. Passway membership: what showing the group leaves, what it shows, and what a lost lock sets (R371, R372, R377). -/

namespace Sys2Proof
namespace Machine

/-! What a change of the group leaves. -/

/-- Fields that showing the group leaves: GRP_MISMATCH_F, and DEV_MODE. -/
def GrpFld (a : Nat) (f : Fld) : Prop := (a = R.PWY_STAT ∧ f = F.PWY_STAT_GRP_MISMATCH_F) ∨ a = R.DEV_MODE

/-- The same with PWY_MEMBERS, which is left once it has been shown. -/
def GrpShownFld (a : Nat) (f : Fld) : Prop := GrpFld a f ∨ a = R.PWY_MEMBERS

/-- `t` holds what `s` does in the fields of `P`, in memory and of the members, and has sent no more. -/
structure State.GrpKept (P : Nat → Fld → Prop) (s t : State) : Prop where
  flds : ∀ a f, P a f → t.getF a f = s.getF a f
  cells : t.cells = s.cells
  outs : t.outs = s.outs
  members : t.pwy.members = s.pwy.members
  boundary : t.pwy.boundary = s.pwy.boundary

namespace State.GrpKept

variable {P Q : Nat → Fld → Prop} {s t u : State}

theorem refl (P : Nat → Fld → Prop) (s : State) : s.GrpKept P s := ⟨fun _ _ _ => rfl, rfl, rfl, rfl, rfl⟩

theorem trans (h : s.GrpKept P t) (k : t.GrpKept P u) : s.GrpKept P u :=
  ⟨fun a f ha => (k.flds a f ha).trans (h.flds a f ha), k.cells.trans h.cells, k.outs.trans h.outs, k.members.trans h.members,
    k.boundary.trans h.boundary⟩

theorem mono (h : s.GrpKept P t) (hPQ : ∀ a f, Q a f → P a f) : s.GrpKept Q t := { h with flds := fun a f ha => h.flds a f (hPQ a f ha) }

theorem ite {c : Prop} [Decidable c] (h : s.GrpKept P t) (k : s.GrpKept P u) : s.GrpKept P (if c then t else u) := by
  split <;> assumption

theorem pwyReg {a : Nat} {f : Fld} (h : GrpShownFld a f) : PwyReg a := by
  obtain (⟨rfl, -⟩ | rfl) | rfl := h
  · exact .inr (by decide)
  · exact .inl rfl
  · exact .inr (by decide)

/-- What leaves Passway as it was leaves the group. -/
theorem offPwy (h : s.GrpKept P t) (hP : ∀ a f, P a f → GrpShownFld a f) (k : t.OffPwy u) : s.GrpKept P u :=
  h.trans ⟨fun a f ha => congrArg f.get (k.regs a (pwyReg (hP a f ha))), k.cells, k.outs, by rw [k.pwy], by rw [k.pwy]⟩

theorem router (h : s.GrpKept GrpShownFld t) (k : RouterOnly t u) : s.GrpKept GrpShownFld u :=
  h.offPwy (fun _ _ => id) ((State.OffPwy.refl t).router k)

theorem fire (h : s.GrpKept GrpShownFld t) (src : Nat) : s.GrpKept GrpShownFld (t.fire src) := h.router (t.fire_only src)

/-- A write of another register of the block. -/
theorem setReg (h : s.GrpKept GrpShownFld t) {a : Nat} (v : Word)
    (ha : a ≠ R.PWY_STAT ∧ a ≠ R.DEV_MODE ∧ a ≠ R.PWY_MEMBERS) : s.GrpKept GrpShownFld (t.setReg a v) := by
  refine h.trans ⟨fun b f hb => congrArg f.get (t.reg_setReg_ne a v b ?_), rfl, rfl, rfl, rfl⟩
  obtain ⟨hstat, hmode, hmem⟩ := ha
  obtain (⟨rfl, -⟩ | rfl) | rfl := hb
  · exact hstat.symm
  · exact hmode.symm
  · exact hmem.symm

/-- A write of another field of PWY_STAT. -/
theorem setStat (h : s.GrpKept GrpShownFld t) {f : Fld} (v : Nat)
    (hf : f.lo + f.width ≤ 32 ∧ (f.lo + f.width ≤ 28 ∨ 29 ≤ f.lo)) : s.GrpKept GrpShownFld (t.setF R.PWY_STAT f v) := by
  refine h.trans ⟨fun b g hb => t.getF_setF_ne _ _ _ _ _ hf.1 ?_, rfl, rfl, rfl, rfl⟩
  obtain (⟨-, rfl⟩ | rfl) | rfl := hb
  · exact .inr hf.2
  · exact .inl (by decide)
  · exact .inl (by decide)

/-- A change of what the module knows beside its members. -/
theorem elsewhere (h : s.GrpKept P t) (hu : (u.regs, u.cells, u.outs, u.pwy.members, u.pwy.boundary) =
    (t.regs, t.cells, t.outs, t.pwy.members, t.pwy.boundary)) : s.GrpKept P u := by
  obtain ⟨hregs, hcells, houts, hmem, hb⟩ : u.regs = t.regs ∧ u.cells = t.cells ∧ u.outs = t.outs ∧ u.pwy.members = t.pwy.members ∧
      u.pwy.boundary = t.pwy.boundary := by
    simpa only [Prod.mk.injEq] using hu
  exact h.trans ⟨fun a f _ => congrArg (fun m => f.get (SMap.get resetOf m a)) hregs, hcells, houts, hmem, hb⟩

theorem stepsShown (h : s.GrpKept GrpShownFld t) : s.GrpKept GrpShownFld t.stepsShown := h.setReg _ (by decide)

theorem elect (h : s.GrpKept GrpShownFld t) : s.GrpKept GrpShownFld t.elect := by
  unfold State.elect
  split
  · exact (((h.setStat _ (by decide)).setReg _ (by decide)).setReg _ (by decide)).stepsShown
  · extract_lets own up s1 s2
    have h1 : s.GrpKept GrpShownFld s1 := (h.setStat _ (by decide)).setReg _ (by decide)
    have h2 : s.GrpKept GrpShownFld s2 := (h1.setReg _ (by decide)).setReg _ (by decide)
    exact ((h2.setStat _ (by decide)).ite h2).stepsShown

theorem lockLost (h : s.GrpKept GrpShownFld t) : s.GrpKept GrpShownFld t.lockLost := by
  unfold State.lockLost
  extract_lets s1 s2 pw s3
  have h1 : s.GrpKept GrpShownFld s1 := (h.setStat _ (by decide)).setStat _ (by decide)
  have h2 : s.GrpKept GrpShownFld s2 := foldl_keeps (State.GrpKept GrpShownFld s) _ _ s1 h1 (fun u i hu => hu.setReg _ (by
    simp only [R.PWY_EXP, R.PWY_STAT, R.DEV_MODE, R.PWY_MEMBERS]
    omega))
  clear_value s2
  have h3 : s.GrpKept GrpShownFld s3 := h2.elsewhere (by rfl)
  exact ((h3.router (State.staleTarget_only _ _ _)).fire 961).ite h

theorem meets (h : s.GrpKept GrpShownFld t) : s.GrpKept GrpShownFld t.meets := by
  unfold State.meets
  split
  · exact h.ite h.lockLost
  · exact h

end State.GrpKept

/-- The members as PWY_MEMBERS shows them. -/
def State.memberMap (s : State) : Word := s.memberTopos.foldl (fun w t => setBitW w t.pos.val true) 0

/-- The bitmap and what follows a change of it. -/
def State.mapShown (s : State) (map : Word) (n : Nat) : State :=
  if map != s.reg R.PWY_MEMBERS then
    ((((s.setReg R.PWY_MEMBERS map).setF R.PWY_GSTAT F.PWY_GSTAT_MEMBERS n).countWrap R.PWY_GSTAT F.PWY_GSTAT_GEPOCH).setF R.PWY_STAT
      F.PWY_STAT_GRP_CHG_F 1).fire 960
  else s

theorem State.mapShown_shows (s : State) (map : Word) (n : Nat) :
    s.GrpKept GrpFld (s.mapShown map n) ∧ (s.mapShown map n).reg R.PWY_MEMBERS = map := by
  unfold State.mapShown
  split
  · have hset : s.GrpKept GrpFld (s.setReg R.PWY_MEMBERS map) :=
      ⟨fun a f ha => congrArg f.get (s.reg_setReg_ne _ _ _ (by obtain ⟨rfl, -⟩ | rfl := ha <;> decide)), rfl, rfl, rfl, rfl⟩
    have hself : (s.setReg R.PWY_MEMBERS map).reg R.PWY_MEMBERS = map := s.reg_setReg_self _ _
    generalize s.setReg R.PWY_MEMBERS map = u at hset hself ⊢
    have hrest : u.GrpKept GrpShownFld ((((u.setF R.PWY_GSTAT F.PWY_GSTAT_MEMBERS n).countWrap R.PWY_GSTAT
        F.PWY_GSTAT_GEPOCH).setF R.PWY_STAT F.PWY_STAT_GRP_CHG_F 1).fire 960) :=
      (((State.GrpKept.setReg (.refl _ u) _ (by decide)).setReg _ (by decide)).setStat _ (by decide)).fire 960
    exact ⟨hset.trans (hrest.mono fun _ _ => .inl), (State.reg_of_getF_whole (hrest.flds _ _ (.inr rfl))).trans hself⟩
  · next hsame =>
    rw [bne_iff_ne, not_not] at hsame
    exact ⟨.refl _ s, hsame.symm⟩

/-- TOPO, and what follows a change of it. -/
def State.topoShown (s : State) : State :=
  let t := s.topoOf
  let was := s.getF R.PWY_STAT F.PWY_STAT_TOPO
  let s2 := if t != was then (s.setF R.PWY_STAT F.PWY_STAT_TOPO t).fire 962 else s
  if was == 0 && t != 0 then { s2 with pwy := { s2.pwy with joined := s2.clock } }.meets else s2

theorem State.topoShown_kept (s : State) : s.GrpKept GrpShownFld s.topoShown := by
  unfold State.topoShown
  extract_lets t was s2 pw
  have h2 : s.GrpKept GrpShownFld s2 := ((State.GrpKept.setStat (.refl _ s) _ (by decide)).fire 962).ite (.refl _ s)
  clear_value s2
  exact State.GrpKept.ite (State.GrpKept.meets (h2.elsewhere (by rfl))) h2

theorem State.showGroup_eq (s : State) : s.showGroup = (s.mapShown s.memberMap s.memberTopos.length).topoShown.elect := rfl

/-- Showing the group writes the map of its members, and else leaves members, memory and what was sent. -/
theorem State.showGroup_shows (s : State) : s.GrpKept GrpFld s.showGroup ∧ s.showGroup.reg R.PWY_MEMBERS = s.memberMap := by
  obtain ⟨h1, hmap⟩ := s.mapShown_shows s.memberMap s.memberTopos.length
  rw [State.showGroup_eq]
  generalize s.mapShown s.memberMap s.memberTopos.length = s1 at h1 hmap ⊢
  have h3 := s1.topoShown_kept.elect
  exact ⟨h1.trans (h3.mono fun _ _ => .inl), (State.reg_of_getF_whole (h3.flds _ _ (.inr rfl))).trans hmap⟩

theorem State.GrpKept.mode {P : Nat → Fld → Prop} {s t : State} (h : s.GrpKept P t) (hP : P R.DEV_MODE F.DEV_MODE_MODE) :
    t.mode = s.mode := h.flds _ _ hP

/-- The same where LOCKED has changed with it (R391). -/
theorem State.lockedNow_showGroup (s t : State) (h : t.mode = s.mode) : t.GrpKept GrpFld (s.lockedNow t.showGroup) ∧
    (s.lockedNow t.showGroup).reg R.PWY_MEMBERS = t.memberMap := by
  obtain ⟨hkept, hmap⟩ := t.showGroup_shows
  have hoff := s.lockedNow_offPwy t.showGroup ((hkept.mode (.inr rfl)).trans h)
  exact ⟨hkept.offPwy (fun _ _ => .inl) hoff, (hoff.regs _ (.inr (by decide))).trans hmap⟩

/-! The map of the members. -/

theorem getLsbD_setBitW {w : Word} {b k : Nat} (hk : k < 32) : (setBitW w b true).getLsbD k = (w.getLsbD k || decide (b = k)) := by
  rw [setBitW, if_pos rfl, BitVec.getLsbD_or, BitVec.getLsbD_ofNat, decide_eq_true hk, Bool.true_and, Nat.testBit_two_pow]

theorem getLsbD_foldl_setBitW {k : Nat} (hk : k < 32) (l : List PwyTopo) : ∀ w : Word,
    (l.foldl (fun w t => setBitW w t.pos.val true) w).getLsbD k = (w.getLsbD k || l.any (fun t => decide (t.pos.val = k))) := by
  induction l with
  | nil => intro w; simp only [List.foldl_nil, List.any_nil, Bool.or_false]
  | cons t l ih => intro w; rw [List.foldl_cons, ih, getLsbD_setBitW hk, List.any_cons, Bool.or_assoc]

theorem State.memberMap_iff {s : State} {k : Fin 32} : s.memberMap.getLsbD k = true ↔ ∃ t ∈ s.memberTopos, t.pos = k := by
  rw [State.memberMap, getLsbD_foldl_setBitW k.isLt]
  simp only [BitVec.ofNat_eq_ofNat, BitVec.getLsbD_zero, Bool.false_or, List.any_eq_true, decide_eq_true_eq, Fin.val_inj]

theorem State.mem_memberTopos {s : State} (h : s.inGroup = true) {t : PwyTopo} : t ∈ s.memberTopos ↔
    ∃ k : Fin 32, (if k.val = s.pwyPos then some s.ownTopo else (s.pwy.members.get k).map (·.1)) = some t := by
  simp only [State.memberTopos, h, if_true, List.mem_filterMap, List.mem_finRange, true_and, beq_iff_eq]

/-- A member that the module knows is shown. -/
theorem State.memberMap_of_member {s : State} {k : Fin 32} {q : PwyTopo} {p : Nat} (h : s.inGroup = true) (hk : k.val ≠ s.pwyPos)
    (hq : s.pwy.members.get k = some (q, p)) (hpos : q.pos = k) : s.memberMap.getLsbD k = true := by
  refine State.memberMap_iff.mpr ⟨q, (State.mem_memberTopos h).mpr ⟨k, ?_⟩, hpos⟩
  rw [if_neg hk, hq, Option.map_some]

/-- A position that the module knows no member of, and is not its own, is not shown. -/
theorem State.memberMap_of_none {s : State} {k : Fin 32} (hk : k.val ≠ s.pwyPos) (hnone : s.pwy.members.get k = none)
    (hpos : ∀ j : Fin 32, ((s.pwy.members.get j).map (fun q => q.1.pos)).getD j = j) : s.memberMap.getLsbD k = false := by
  rw [← Bool.not_eq_true, State.memberMap_iff]
  rintro ⟨t, ht, rfl⟩
  by_cases h : s.inGroup = true
  · obtain ⟨j, hj⟩ := (State.mem_memberTopos h).mp ht
    split at hj
    · next hown =>
      refine hk ?_
      rw [← Option.some.inj hj, ← hown]
      exact (Nat.mod_eq_of_lt (hown ▸ j.isLt)).trans hown.symm
    · obtain ⟨q, hq, rfl⟩ := Option.map_eq_some_iff.mp hj
      have hjpos : q.1.pos = j := by
        have hj' := hpos j
        rwa [hq, Option.map_some, Option.getD_some] at hj'
      rw [hjpos, hq] at hnone
      cases hnone
  · rw [State.memberTopos, if_neg h] at ht
    cases ht

/-! A lost lock (R372, R377). -/

theorem PWY_EXP_ne {i j : Nat} (h : i ≠ j) : R.PWY_EXP i ≠ R.PWY_EXP j := by
  simp only [R.PWY_EXP]
  omega

theorem PWY_STAT_ne_EXP (i : Nat) : R.PWY_STAT ≠ R.PWY_EXP i := by
  simp only [R.PWY_STAT, R.PWY_EXP]
  omega

/-- The epochs of exported events count one by one. -/
theorem State.epochs_count (s : State) (j : Nat) : ∀ k, j < k →
    ((List.range k).foldl (fun (t : State) i => t.countWrap (R.PWY_EXP i) F.PWY_EXP_EPOCH) s).getF (R.PWY_EXP j) F.PWY_EXP_EPOCH =
      (s.getF (R.PWY_EXP j) F.PWY_EXP_EPOCH + 1) % 2 ^ F.PWY_EXP_EPOCH.width := by
  have hbefore : ∀ k ≤ j, ((List.range k).foldl (fun (t : State) i => t.countWrap (R.PWY_EXP i) F.PWY_EXP_EPOCH) s).getF (R.PWY_EXP j)
      F.PWY_EXP_EPOCH = s.getF (R.PWY_EXP j) F.PWY_EXP_EPOCH := by
    intro k hk
    induction k with
    | zero => rfl
    | succ k ih =>
      rw [List.range_succ, List.foldl_append, List.foldl_cons, List.foldl_nil, State.countWrap,
        State.getF_setF_reg _ _ _ _ _ _ (PWY_EXP_ne (by omega)), ih (by omega)]
  intro k hk
  induction k with
  | zero => omega
  | succ k ih =>
    rw [List.range_succ, List.foldl_append, List.foldl_cons, List.foldl_nil]
    by_cases hkj : j = k
    · subst hkj
      rw [State.getF_countWrap _ _ _ (by decide), hbefore _ (Nat.le_refl _)]
    · rw [State.countWrap, State.getF_setF_reg _ _ _ _ _ _ (PWY_EXP_ne hkj), ih (by omega)]

theorem State.epochs_stat (s : State) (f : Fld) (l : List Nat) :
    (l.foldl (fun (t : State) i => t.countWrap (R.PWY_EXP i) F.PWY_EXP_EPOCH) s).getF R.PWY_STAT f = s.getF R.PWY_STAT f :=
  foldl_keeps (fun t => t.getF R.PWY_STAT f = s.getF R.PWY_STAT f) _ _ s rfl (fun t i ht => by
    rw [State.countWrap, State.getF_setF_reg _ _ _ _ _ _ (PWY_STAT_ne_EXP i), ht])

/-- LOCKED falls with its flag, exported event 3 has a new epoch, and no step stands. -/
theorem State.lockLost_shown {s : State} (h : s.pwyLocked = true) : s.lockLost.pwyLocked = false ∧
    s.lockLost.isSet R.PWY_STAT F.PWY_STAT_LOCK_LOST_F = true ∧
    s.lockLost.getF (R.PWY_EXP 3) F.PWY_EXP_EPOCH = (s.getF (R.PWY_EXP 3) F.PWY_EXP_EPOCH + 1) % 2 ^ F.PWY_EXP_EPOCH.width ∧
    s.lockLost.pwy.step = none := by
  unfold State.lockLost
  extract_lets s1 s2 pw s3
  rw [if_pos h]
  have hoff : s3.OffPwy ((s3.staleTarget 3 (fun _ => true)).fire 961) :=
    ((State.OffPwy.refl s3).router (State.staleTarget_only _ _ _)).fire 961
  generalize (s3.staleTarget 3 (fun _ => true)).fire 961 = t at hoff ⊢
  have hs2 (f : Fld) : s2.getF R.PWY_STAT f = s1.getF R.PWY_STAT f := s1.epochs_stat f _
  have hexps : s2.getF (R.PWY_EXP 3) F.PWY_EXP_EPOCH = (s1.getF (R.PWY_EXP 3) F.PWY_EXP_EPOCH + 1) % 2 ^ F.PWY_EXP_EPOCH.width :=
    s1.epochs_count 3 32 (by decide)
  clear_value s2
  have hstat (f : Fld) : t.getF R.PWY_STAT f = s1.getF R.PWY_STAT f :=
    (congrArg f.get (hoff.regs R.PWY_STAT (.inr (by decide)))).trans (hs2 f)
  refine ⟨?_, ?_, ?_, by rw [hoff.pwy]⟩
  · rw [State.pwyLocked, State.isSet, hstat, State.getF_setF_fld _ _ _ _ _ (by decide) (by decide),
      State.getF_setF_of_lt _ _ _ _ (by decide) (by decide)]
    rfl
  · rw [State.isSet, hstat, State.getF_setF_of_lt _ _ _ _ (by decide) (by decide)]
    rfl
  · have hexp : R.PWY_EXP 3 ≠ R.PWY_STAT := by decide
    refine (congrArg F.PWY_EXP_EPOCH.get (hoff.regs (R.PWY_EXP 3) (.inr (by decide)))).trans (hexps.trans ?_)
    rw [State.getF_setF_reg _ _ _ _ _ _ hexp, State.getF_setF_reg _ _ _ _ _ _ hexp]

end Machine
end Sys2Proof
end

section
/-! PROOFS. Passway frames: those that are no good, and those that are; the time, the events and the delays they bring (R367 to R377). -/

namespace Sys2Proof
namespace Machine

/-! A good frame (R367). -/

theorem crcBit_lt {c : Nat} (h : c < 2 ^ 32) : crcBit c < 2 ^ 32 := by
  unfold crcBit
  split
  · exact Nat.xor_lt_two_pow (by omega) (by decide)
  · omega

theorem crcByte_lt {c b : Nat} (hc : c < 2 ^ 32) (hb : b < 2 ^ 32) : crcByte c b < 2 ^ 32 := by
  unfold crcByte
  exact crcBit_lt (crcBit_lt (crcBit_lt (crcBit_lt (crcBit_lt (crcBit_lt (crcBit_lt (crcBit_lt (Nat.xor_lt_two_pow hc hb))))))))

theorem crc32_lt (l : List (BitVec 8)) : crc32 l < 2 ^ 32 := by
  have hfold : l.foldl (fun c b => crcByte c b.toNat) 0xFFFFFFFF < 2 ^ 32 :=
    List.foldlRecOn (motive := fun c => c < 2 ^ 32) l _ (by decide) (fun c hc b _ => crcByte_lt hc (Nat.lt_of_lt_of_le b.isLt (by decide)))
  exact Nat.xor_lt_two_pow hfold (by decide)

/-- Four bytes, the lowest first, give the number they were taken from. -/
theorem leNat_bytes {n : Nat} (h : n < 2 ^ 32) :
    leNat [BitVec.ofNat 8 n, BitVec.ofNat 8 (n / 256), BitVec.ofNat 8 (n / 65536), BitVec.ofNat 8 (n / 16777216)] = n := by
  simp only [leNat, List.foldr_cons, List.foldr_nil, BitVec.toNat_ofNat]
  omega

theorem frameHeader_length (f : PwyFrame) : (frameHeader f).length = 4 := rfl

theorem kindLength_frame (f : PwyFrame) (h : framePayload f ≤ 128) (hne : framePayload f ≠ 0) :
    kindLength (frameKind f) (framePayload f) = true ∧ framePayload f % 4 = 0 := by
  cases f with
  | event pos seq recs =>
    simp only [framePayload] at h hne ⊢
    simp only [frameKind, kindLength, Bool.and_eq_true, decide_eq_true_eq, beq_iff_eq]
    omega
  | sync => exact ⟨rfl, by simp only [framePayload, Nat.reduceMod]⟩
  | topo => exact ⟨rfl, by simp only [framePayload, Nat.reduceMod]⟩
  | dlyReq => exact ⟨rfl, by simp only [framePayload, Nat.reduceMod]⟩
  | dlyResp => exact ⟨rfl, by simp only [framePayload, Nat.reduceMod]⟩

theorem frameKind_lt (f : PwyFrame) : frameKind f < 8 := by
  cases f <;> simp only [frameKind, Nat.reduceLT]

/-- Header, payload and CRC as R367 writes them are no frame to discard. -/
theorem frameBad_good {f : PwyFrame} {b : List (BitVec 8)} (hlen : b.length = framePayload f) (hle : framePayload f ≤ 128)
    (hne : framePayload f ≠ 0) :
    frameBad (frameHeader f ++ b ++ [BitVec.ofNat 8 (crc32 (frameHeader f ++ b)), BitVec.ofNat 8 (crc32 (frameHeader f ++ b) / 256),
      BitVec.ofNat 8 (crc32 (frameHeader f ++ b) / 65536), BitVec.ofNat 8 (crc32 (frameHeader f ++ b) / 16777216)]) = false := by
  obtain ⟨hkind, hmod⟩ := kindLength_frame f hle hne
  have hk := frameKind_lt f
  have hhead : (frameHeader f ++ b).length = 4 + framePayload f := by rw [List.length_append, frameHeader_length, hlen]
  have hcrc := leNat_bytes (crc32_lt (frameHeader f ++ b))
  have hbyte0 (l : List (BitVec 8)) : byteAt (frameHeader f ++ b ++ l) 0 = 16 * frameKind f := by
    change (BitVec.ofNat 8 (16 * frameKind f)).toNat = _
    rw [BitVec.toNat_ofNat]
    omega
  have hbyte1 (l : List (BitVec 8)) : byteAt (frameHeader f ++ b ++ l) 1 = framePayload f / 4 := by
    change (BitVec.ofNat 8 (framePayload f / 4)).toNat = _
    rw [BitVec.toNat_ofNat]
    omega
  have hn : 4 * (framePayload f / 4) = framePayload f := by omega
  have hop : 16 * frameKind f / 16 = frameKind f := by omega
  unfold frameBad
  dsimp only
  rw [hbyte1, hbyte0, hn, hop, hkind, ← hhead, List.take_left, List.drop_left, hcrc, List.length_append, hhead]
  simp only [List.length_cons, List.length_nil, bne_self_eq_false, Bool.not_true, Bool.or_false]
  rw [bne_eq_false_iff_eq]
  omega

/-! What is discarded (R367, R395). -/

theorem State.frameDiscard_shown (s : State) :
    s.frameDiscard.getF R.PWY_CRC_ERR F.PWY_CRC_ERR_COUNT = satInc F.PWY_CRC_ERR_COUNT.top (s.getF R.PWY_CRC_ERR F.PWY_CRC_ERR_COUNT) ∧
      s.frameDiscard.isSet R.PWY_STAT F.PWY_STAT_CRC_F = true ∧ s.frameDiscard = { s with regs := s.frameDiscard.regs } := by
  refine ⟨?_, ?_, rfl⟩
  · rw [State.frameDiscard, State.getF_setF_reg _ _ _ _ _ _ (by decide), State.getF_count_satInc _ _ _ (by decide)]
  · rw [State.frameDiscard, State.isSet, State.getF_setF_of_lt _ _ _ _ (by decide) (by decide)]
    rfl

theorem State.discardOn_port {s : State} {x : RawFrame} (hp : x.port.val < 2) :
    s.discardOn x = if s.portUp x.port && frameBad x.bytes then s.frameDiscard else s := by
  rw [State.discardOn, if_pos hp]
  rfl

theorem State.discardOn_lane {s : State} {x : RawFrame} (hp : 2 ≤ x.port.val) : s.discardOn x =
    if natBit (s.getF R.TWN_STAT F.TWN_STAT_LANES) (x.port.val - 2) && recordBad x.bytes then s.twinDrop else s := by
  rw [State.discardOn, if_neg (by omega)]

theorem State.showHealth_dropped {s : State} (h : s.twn.dropRecent = true) : s.showHealth.isSet R.TWN_STAT F.TWN_STAT_HEALTHY = false ∧
    s.showHealth.twn = s.twn ∧ s.showHealth.reg R.TWN_DROP = s.reg R.TWN_DROP := by
  have hoff : (s.twinPair && !s.twn.dropRecent) = false := by rw [h, Bool.not_true, Bool.and_false]
  unfold State.showHealth
  rw [hoff]
  dsimp only
  split
  · generalize hu : s.setB R.TWN_STAT F.TWN_STAT_HEALTHY false = u
    have hfire := u.fire_only 978
    have hreg {a : Nat} (ha : routerReg a = false) : (u.fire 978).reg a = u.reg a := hfire.regs a ha
    refine ⟨?_, ?_, ?_⟩
    · rw [State.isSet, State.getF, hreg (by decide), ← hu]
      exact congrArg (· == 1) (State.getF_setF_of_lt _ _ _ _ (by decide) (by decide))
    · rw [hfire.rest, ← hu]
      rfl
    · rw [hreg (by decide), ← hu]
      exact State.reg_setF_ne _ _ _ _ _ (by decide)
  · next hsame =>
    rw [bne_iff_ne, not_not] at hsame
    exact ⟨hsame.symm, rfl, rfl⟩

/-- The drop is counted and noted; HEALTHY follows. -/
def State.dropNoted (s : State) : State :=
  let s1 := s.count R.TWN_DROP F.TWN_DROP_COUNT
  { s1 with twn := { s1.twn with dropRecent := true, dropAt := s1.clock } }

theorem State.twinDrop_eq (s : State) : s.twinDrop = s.dropNoted.showHealth := rfl

theorem State.twinDrop_shown (s : State) :
    s.twinDrop.getF R.TWN_DROP F.TWN_DROP_COUNT = satInc F.TWN_DROP_COUNT.top (s.getF R.TWN_DROP F.TWN_DROP_COUNT) ∧
      s.twinDrop.twn.dropRecent = true ∧ s.twinDrop.isSet R.TWN_STAT F.TWN_STAT_HEALTHY = false ∧ s.twinDrop.twn.dropAt = s.clock := by
  have hcount : s.dropNoted.getF R.TWN_DROP F.TWN_DROP_COUNT = satInc F.TWN_DROP_COUNT.top (s.getF R.TWN_DROP F.TWN_DROP_COUNT) :=
    s.getF_count_satInc _ _ (by decide)
  have hrecent : s.dropNoted.twn.dropRecent = true := rfl
  have hat : s.dropNoted.twn.dropAt = s.clock := rfl
  rw [State.twinDrop_eq]
  generalize s.dropNoted = u at hcount hrecent hat ⊢
  obtain ⟨hhealthy, htwn, hdrop⟩ := State.showHealth_dropped hrecent
  exact ⟨(congrArg F.TWN_DROP_COUNT.get hdrop).trans hcount, htwn ▸ hrecent, hhealthy, htwn ▸ hat⟩

/-! SYNC (R374, R375). -/

/-- The offset to upstream that a SYNC shows. -/
def State.syncOffset (s : State) (p : Fin 2) (t : BitVec 64) (frac : Fin 16) : Int :=
  ((s.mtime.toNat : Int) * 16 + frac.val - (t.toNat : Int) * 16) * 2000 / 48 - (s.getF (R.PWY_PORT p) F.PWY_PORT_DELAY : Int)

theorem State.syncIn_else {s : State} {p : Fin 2} (t ta : BitVec 64) (st : Word) (fr : Fin 16)
    (h : s.groupPort p = false ∨ s.isSet (R.PWY_PORT p) F.PWY_PORT_UPSTREAM = false ∨ s.pwyMaster = true) :
    s.syncIn p t ta st fr = s := by
  have hcond : (!s.groupPort p || !s.isSet (R.PWY_PORT p) F.PWY_PORT_UPSTREAM || s.pwyMaster) = true := by
    obtain h | h | h := h <;> rw [h] <;> simp only [Bool.not_false, Bool.true_or, Bool.or_true]
  rw [State.syncIn, if_pos hcond]

section

variable {s : State} {p : Fin 2}

/-- The eighth SYNC within 1 ns locks MTIME to the group's. -/
theorem State.syncIn_locks {t : BitVec 64} {st : Word} {fr : Fin 16} {off : Int} (hport : s.groupPort p = true)
    (hup : s.isSet (R.PWY_PORT p) F.PWY_PORT_UPSTREAM = true) (hmaster : s.pwyMaster = false) (hlock : s.pwyLocked = false)
    (hsteady : s.pwy.steady = 7) (hoff : off = s.syncOffset p t fr) (hlo : off - s.pwy.first ≤ 1000) (hhi : s.pwy.first - off ≤ 1000) :
    (s.syncIn p t 0 st fr).pwyLocked = true ∧
      (s.syncIn p t 0 st fr).mtime = BitVec.ofInt 64 ((s.mtime.toNat : Int) - (off * 3 + 1000) / 2000) ∧
      (s.syncIn p t 0 st fr).pwy.step = none ∧ (s.syncIn p t 0 st fr).cells = s.cells := by
  have hcond : (!s.groupPort p || !s.isSet (R.PWY_PORT p) F.PWY_PORT_UPSTREAM || s.pwyMaster) = false := by
    rw [hport, hup, hmaster]
    rfl
  unfold State.syncIn
  rw [hcond]
  extract_lets off' s1 near k pw s2 s3
  have hoff' : off' = off := hoff.symm
  have hnear : near = true := by
    simp only [near, hsteady, hoff', decide_eq_true hlo, decide_eq_true hhi]
    rfl
  have hk : k = 8 := by
    simp only [k, hnear, hsteady, if_true]
  have hlocked : s2.pwyLocked = false := by
    have hstat : s2.reg R.PWY_STAT = s.reg R.PWY_STAT := s.reg_setReg_ne _ _ _ (by decide)
    exact (congrArg (fun w => F.PWY_STAT_LOCKED.get w == 1) hstat).trans hlock
  have hs3 : s3 = { s2 with mtime := BitVec.ofInt 64 ((s.mtime.toNat : Int) - (off * 3 + 1000) / 2000) }.setF R.PWY_STAT
      F.PWY_STAT_LOCKED 1 := by
    simp only [s3, hlocked, hk, hoff']
    rfl
  have h3 : s3.pwyLocked = true := by
    rw [State.pwyLocked, hs3, State.isSet, State.getF_setF_of_lt _ _ _ _ (by decide) (by decide)]
    rfl
  have hcells : s3.cells = s.cells := by
    rw [hs3]
    rfl
  have hmtime : s3.mtime = BitVec.ofInt 64 ((s.mtime.toNat : Int) - (off * 3 + 1000) / 2000) := by
    rw [hs3]
    rfl
  clear_value s3
  rw [if_neg Bool.false_ne_true, h3, if_pos rfl]
  exact ⟨h3, hmtime, rfl, hcells⟩

/-- A SYNC of a locked module shows the offset and takes the step announced. -/
theorem State.syncIn_locked {t ta : BitVec 64} {st : Word} {fr : Fin 16} {off : Int} (hport : s.groupPort p = true)
    (hup : s.isSet (R.PWY_PORT p) F.PWY_PORT_UPSTREAM = true) (hmaster : s.pwyMaster = false) (hlock : s.pwyLocked = true)
    (hta : ta ≠ 0) (hahead : s.mtime.toNat ≤ ta.toNat) (happlied : s.pwy.applied ≠ some ta.toNat)
    (hoff : off = s.syncOffset p t fr) (hlo : -(2 ^ 31) < off) (hhi : off < 2 ^ 31) :
    (s.syncIn p t ta st fr).reg R.PWY_OFFSET = BitVec.ofInt 32 off ∧ (s.syncIn p t ta st fr).pwy.step = some (ta.toNat, st.toInt) ∧
      (s.syncIn p t ta st fr).mtime = s.mtime ∧ (s.syncIn p t ta st fr).cells = s.cells ∧
      (s.syncIn p t ta st fr).pwyLocked = true := by
  have hcond : (!s.groupPort p || !s.isSet (R.PWY_PORT p) F.PWY_PORT_UPSTREAM || s.pwyMaster) = false := by
    rw [hport, hup, hmaster]
    rfl
  unfold State.syncIn
  rw [hcond]
  extract_lets off' s1 near k pw s2 s3
  have hoff' : off' = off := hoff.symm
  have hclamp : clampI (-(2 ^ 31 - 1)) (2 ^ 31 - 1) off' = off := by
    rw [hoff', clampI, if_neg (by omega), if_neg (by omega)]
  have hstat : s2.reg R.PWY_STAT = s.reg R.PWY_STAT := s.reg_setReg_ne _ _ _ (by decide)
  have hlocked : s2.pwyLocked = true := (congrArg (fun w => F.PWY_STAT_LOCKED.get w == 1) hstat).trans hlock
  have hs3 : s3 = s2 := by
    simp only [s3, hlocked, Bool.true_or, if_true]
  have hann : s3.announced ta st = some (ta.toNat, st.toInt) := by
    have hnone : (ta == 0 || decide (ta.toNat < s3.mtime.toNat) || s3.pwy.applied == some ta.toNat) = false := by
      rw [Bool.or_eq_false_iff, Bool.or_eq_false_iff, beq_eq_false_iff_ne, decide_eq_false_iff_not, beq_eq_false_iff_ne, hs3]
      exact ⟨⟨hta, Nat.not_lt.mpr hahead⟩, happlied⟩
    rw [State.announced, hnone]
    rfl
  have hoffset : s3.reg R.PWY_OFFSET = BitVec.ofInt 32 off := by
    rw [hs3, ← hclamp]
    exact s.reg_setReg_self _ _
  have hcells : s3.cells = s.cells := by rw [hs3]; rfl
  have hmtime : s3.mtime = s.mtime := by rw [hs3]; rfl
  have h3 : s3.pwyLocked = true := by rw [hs3]; exact hlocked
  clear_value s3
  rw [if_neg Bool.false_ne_true, h3, if_pos rfl, hann]
  exact ⟨hoffset, rfl, hmtime, hcells, h3⟩

theorem State.lockedNow_same {t : State} (h : t.pwyLocked = s.pwyLocked) : s.lockedNow t = t := by
  rw [State.lockedNow, h, bne_self_eq_false, Bool.and_false]
  rfl

theorem State.lockedNow_single {t : State} (h : s.mode ≠ mdTwin) : s.lockedNow t = t := by
  rw [State.lockedNow, beq_eq_false_iff_ne.mpr h, Bool.false_and]
  rfl

/-! EVENT (R377). -/

theorem localOf_import (j : Nat) (h : j < 32) : localOf (928 + j) = none := if_neg (by omega)

theorem State.srcPresent_import (s : State) {j : Nat} (h : j < 32) : s.srcPresent (928 + j) = true := by
  have h961 : (928 + j == 965 || 928 + j == 967) = false := by
    rw [Bool.or_eq_false_iff, beq_eq_false_iff_ne, beq_eq_false_iff_ne]
    omega
  have h31 : (928 + j == 31) = false := beq_eq_false_iff_ne.mpr (by omega)
  simp only [State.srcPresent, localOf_import j h, State.absentSource, h961, h31, Bool.and_false, Bool.or_false, Bool.and_eq_true,
    Bool.not_eq_true', Bool.or_eq_false_iff, Bool.and_eq_false_iff, decide_eq_true_eq, decide_eq_false_iff_not]
  omega

theorem filter_range_single {f : Nat → Bool} {j : Fin 32} (h : ∀ q : Fin 32, f q = decide (q = j)) : (List.range 32).filter f = [j.val] := by
  have hrange : List.range 32 = (List.finRange 32).map Fin.val := by decide
  rw [hrange, List.filter_map]
  have hf : (f ∘ Fin.val) = (fun q : Fin 32 => decide (q = j)) := funext h
  rw [hf]
  have hj : ∀ j : Fin 32, (List.finRange 32).filter (fun q => decide (q = j)) = [j] := by decide
  rw [hj]
  rfl

/-- A record for one enabled import, of the epoch it knows, fires its source. -/
theorem State.eventRec_fires {r : PwyRec} {j : Fin 32} {im : ImpSt} (hgroup : r.id.toNat / 32 = s.pwyGroup)
    (hhit : ∀ q : Fin 32, (s.isSet (R.PWY_IMP q) F.PWY_IMP_EN && s.getF (R.PWY_IMP q) F.PWY_IMP_POS == r.id.toNat % 32 &&
      s.getF (R.PWY_IMP q) F.PWY_IMP_SLOT == r.slot.val) = decide (q = j))
    (himps : s.pwy.imps = [(r.id.toNat % 32 * 32 + r.slot.val, im)]) (hepoch : im.epoch = r.epoch.toNat) :
    s.eventRec r = { s with pwy := { s.pwy with imps := [(r.id.toNat % 32 * 32 + r.slot.val, ⟨r.epoch.toNat, none⟩)] } }.fire
      (928 + j.val) := by
  have hhits := filter_range_single (f := fun i => s.isSet (R.PWY_IMP i) F.PWY_IMP_EN && s.getF (R.PWY_IMP i) F.PWY_IMP_POS ==
    r.id.toNat % 32 && s.getF (R.PWY_IMP i) F.PWY_IMP_SLOT == r.slot.val) hhit
  have hget : SMap.get (fun _ => (none : Option ImpSt)) [(r.id.toNat % 32 * 32 + r.slot.val, some im)]
      (r.id.toNat % 32 * 32 + r.slot.val) = some im := by
    simp [SMap.get]
  have hpass : impPass (some im) r.epoch.toNat = (⟨r.epoch.toNat, none⟩, true) := by
    simp only [impPass, hepoch, beq_self_eq_true, if_true]
  unfold State.eventRec
  simp only [hhits, hgroup, bne_self_eq_false, List.isEmpty_cons, Bool.or_false, Bool.false_eq_true, if_false, himps, List.map_cons,
    List.map_nil, hget, hpass, if_true, List.filter_cons, List.filter_nil, List.foldl_cons, List.foldl_nil]

theorem State.eventIn_seen {pos : Fin 32} {seq : BitVec 8} (recs : List PwyRec) (h : s.seenBefore pos seq = true) :
    s.eventIn p pos seq recs = s := by
  rw [State.eventIn, h, Bool.or_true, if_pos rfl]

theorem State.forward_none {t : State} (fr : PwyFrame) (h : t.groupPort (otherPort p) = false) : t.forward p fr = t := by
  rw [State.forward, h]
  rfl

theorem State.eventIn_new {pos : Fin 32} {seq : BitVec 8} {r : PwyRec} (hport : s.groupPort p = true) (hnew : s.seenBefore pos seq = false)
    (hother : s.groupPort (otherPort p) = false) : s.eventIn p pos seq [r] = (s.remember pos seq).eventRec r := by
  have hgo : (!s.groupPort p || s.seenBefore pos seq) = false := by
    rw [hport, hnew]
    rfl
  have hother' : (s.remember pos seq).groupPort (otherPort p) = false := hother
  rw [State.eventIn, hgo, if_neg Bool.false_ne_true, State.forward_none _ hother', List.foldl_cons, List.foldl_nil]

theorem State.seen_remember (s : State) (pos : Fin 32) (seq : BitVec 8) :
    ((s.remember pos seq).pwy.seen.get pos).head? = some seq.toNat := by
  have hself : (s.remember pos seq).pwy.seen.get pos = (seq.toNat :: s.pwy.seen.get pos).take 128 := vget_set_self _ _ _
  rw [hself]
  rfl

end

end Machine
end Sys2Proof
end

section
/-! PROOFS. Passway: TOPO frames, delays, what a module sends, and the frames settled (R368 to R373). -/

namespace Sys2Proof
namespace Machine

theorem otherPort_ne : ∀ p : Fin 2, otherPort p ≠ p := by decide

section

variable {s : State} {p : Fin 2}

/-! TOPO (R369, R371). -/

/-- Port p is known to lead out of the group, or not to. -/
def State.bounded (s : State) (p : Fin 2) (b : Bool) : State := { s with pwy := { s.pwy with boundary := s.pwy.boundary.set p b } }

/-- GRP_MISMATCH_F is set in t, and told where it was not set in s. -/
def State.mismatchTold (s t : State) : State :=
  if s.isSet R.PWY_STAT F.PWY_STAT_GRP_MISMATCH_F then t else (t.setF R.PWY_STAT F.PWY_STAT_GRP_MISMATCH_F 1).fire 963

theorem State.mismatchTold_shown {t : State} (hreg : t.reg R.PWY_STAT = s.reg R.PWY_STAT) :
    (s.mismatchTold t).isSet R.PWY_STAT F.PWY_STAT_GRP_MISMATCH_F = true ∧ (s.mismatchTold t).pwy = t.pwy ∧
      (s.mismatchTold t).outs = t.outs ∧ (s.mismatchTold t).cells = t.cells ∧ (s.mismatchTold t).mode = t.mode := by
  unfold State.mismatchTold
  split
  · next hflag => exact ⟨(congrArg (fun w => F.PWY_STAT_GRP_MISMATCH_F.get w == 1) hreg).trans hflag, rfl, rfl, rfl, rfl⟩
  · generalize hu : t.setF R.PWY_STAT F.PWY_STAT_GRP_MISMATCH_F 1 = u
    have hoff : u.OffPwy (u.fire 963) := (State.OffPwy.refl _).fire 963
    refine ⟨?_, ?_, ?_, ?_, ?_⟩
    · rw [State.isSet, State.getF, hoff.regs _ (.inr (by decide)), ← hu]
      exact congrArg (· == 1) (State.getF_setF_of_lt _ _ _ _ (by decide) (by decide))
    · rw [hoff.pwy, ← hu]
      rfl
    · rw [hoff.outs, ← hu]
      rfl
    · rw [hoff.cells, ← hu]
      rfl
    · rw [hoff.mode, State.mode, ← hu, State.getF_setF_reg _ _ _ _ _ _ (by decide)]
      rfl

theorem State.topoIn_other {seq : BitVec 8} {q : PwyTopo} (hen : s.pwyEn = true) (hup : s.portUp p = true) (hg : q.group.val ≠ s.pwyGroup) :
    s.topoIn p seq q = (s.mismatchTold (s.bounded p true)).showGroup := by
  have hgo : (!s.pwyEn || !s.portUp p) = false := by rw [hen, hup]; rfl
  have hother : (q.group.val != s.pwyGroup) = true := bne_iff_ne.mpr hg
  rw [State.topoIn, hgo, if_neg Bool.false_ne_true, if_pos hother]
  rfl

/-- The module has noted what member q reports on port p. -/
def State.memberNoted (s : State) (p : Fin 2) (seq : BitVec 8) (q : PwyTopo) : State :=
  { s with pwy := { s.pwy with
    boundary := s.pwy.boundary.set p false
    seen := s.pwy.seen.set q.pos ((seq.toNat :: s.pwy.seen.get q.pos).take 128)
    members := s.pwy.members.set q.pos (some (q, p.val)) } }

theorem State.topoIn_member {seq : BitVec 8} {q : PwyTopo} (hen : s.pwyEn = true) (hup : s.portUp p = true)
    (hg : q.group.val = s.pwyGroup) (hpos : q.pos.val ≠ s.pwyPos) (hnew : s.seenBefore q.pos seq = false)
    (hother : s.groupPort (otherPort p) = false) : s.topoIn p seq q = (s.memberNoted p seq q).showGroup := by
  have hgo : (!s.pwyEn || !s.portUp p) = false := by rw [hen, hup]; rfl
  have hown : (q.pos.val == s.pwyPos) = false := beq_eq_false_iff_ne.mpr hpos
  have hport : ((s.bounded p false).remember q.pos seq).groupPort (otherPort p) = false := by
    have hbound : (s.pwy.boundary.set p false).get (otherPort p) = s.pwy.boundary.get (otherPort p) := by
      rw [vget_set, if_neg (otherPort_ne p)]
    have hsame : ((s.bounded p false).remember q.pos seq).groupPort (otherPort p) =
        (s.pwyEn && s.portUp (otherPort p) && !(s.pwy.boundary.set p false).get (otherPort p)) := rfl
    rw [hsame, hbound]
    exact hother
  have hgroup : (q.group.val != s.pwyGroup) = false := bne_eq_false_iff_eq.mpr hg
  have hnew' : (s.bounded p false).seenBefore q.pos seq = false := hnew
  rw [State.topoIn, hgo, if_neg Bool.false_ne_true, if_neg (by rw [hgroup]; decide), ← State.bounded]
  dsimp only
  rw [if_neg (by rw [hnew']; decide), State.forward_none _ hport, if_neg (by rw [hown]; decide)]
  rfl

theorem State.memberNoted_shown (seq : BitVec 8) {q : PwyTopo} (hen : s.pwyEn = true) (hpos : q.pos.val ≠ s.pwyPos)
    (hdup : s.pwy.dup = false) : (s.memberNoted p seq q).pwy.members.get q.pos = some (q, p.val) ∧
      (s.memberNoted p seq q).pwy.boundary.get p = false ∧ (s.memberNoted p seq q).memberMap.getLsbD q.pos = true := by
  have hself : (s.memberNoted p seq q).pwy.members.get q.pos = some (q, p.val) := vget_set_self _ _ _
  refine ⟨hself, vget_set_self _ _ _, State.memberMap_of_member ?_ hpos hself rfl⟩
  have hin : (s.memberNoted p seq q).inGroup = (s.pwyEn && !s.pwy.dup) := rfl
  rw [hin, hen, hdup]
  rfl

/-! A member that is silent (R371). -/

theorem State.memberTimeout_forgets {pos : Fin 32} (hpos : pos.val ≠ s.pwyPos)
    (hall : ∀ k : Fin 32, ((s.pwy.members.get k).map (fun q => q.1.pos)).getD k = k) : ∃ u : State, s.memberTimeout pos = u.showGroup ∧
      u.pwy.members.get pos = none ∧ u.memberMap.getLsbD pos = false ∧ u.cells = s.cells ∧ u.mode = s.mode := by
  have hself : ({ s with pwy := { s.pwy with members := s.pwy.members.set pos none } } : State).pwy.members.get pos = none :=
    vget_set_self _ _ _
  refine ⟨_, rfl, hself, State.memberMap_of_none hpos hself (fun j => ?_), rfl, rfl⟩
  have hget : ({ s with pwy := { s.pwy with members := s.pwy.members.set pos none } } : State).pwy.members.get j =
      if j = pos then none else s.pwy.members.get j := vget_set _ _ _ _
  rw [hget]
  split
  · rfl
  · exact hall j

/-! What a module sends while no frame fault acts (R368, R373, R476). -/

theorem State.sendFrame_sent {q : Fin 4} (fr : PwyFrame) (h : s.ptbActs 12 = false) :
    s.sendFrame q fr = { s with outs := s.outs ++ [.frame q false fr] } := by
  have hfault : s.portFault q = (s, some false) := by
    rw [State.portFault]
    simp only [h, Bool.false_and, Bool.false_eq_true, if_false]
  rw [State.sendFrame, hfault]
  rfl

theorem State.sendOwn_sent (fr : BitVec 8 → PwyFrame) (h : s.ptbActs 12 = false) : s.sendOwn p fr =
    { s with
      pwy := { s.pwy with seq := (s.pwy.seq + 1) % 256 }
      outs := s.outs ++ [.frame p.castSucc.castSucc false (fr (BitVec.ofNat 8 s.pwy.seq))] } := by
  have htook : (s.takeSeq.1).ptbActs 12 = false := h
  rw [State.sendOwn]
  dsimp only [State.takeSeq] at htook ⊢
  rw [State.sendFrame_sent _ htook]

theorem State.dlyReq_answers {t2 t3 : Nat} (hen : s.pwyEn = true) (hup : s.portUp p = true) (h : s.ptbActs 12 = false) :
    s.dlyReq p t2 t3 = { s with
      pwy := { s.pwy with seq := (s.pwy.seq + 1) % 256 }
      outs := s.outs ++ [.frame p.castSucc.castSucc false (.dlyResp s.ownPos (BitVec.ofNat 8 s.pwy.seq) t2 t3)] } := by
  have hgo : (s.pwyEn && s.portUp p) = true := by rw [hen, hup]; rfl
  rw [State.dlyReq, if_pos hgo, State.sendOwn_sent _ h]

theorem State.dlyResp_shown {t1 t2 t3 t4 : Nat} {d : Int} (hen : s.pwyEn = true) (hup : s.portUp p = true)
    (hd : d = (((t4 : Int) - t1) - ((t3 : Int) - t2)) * 2000 / 48 / 2 + toSigned 16 (s.getF (R.PWY_ASYM p) F.PWY_ASYM_PS)) (h0 : 0 ≤ d)
    (hlt : d < 2 ^ 20) : (s.dlyResp p t1 t2 t3 t4).getF (R.PWY_PORT p) F.PWY_PORT_DELAY = d.toNat ∧
      s.dlyResp p t1 t2 t3 t4 = { s with regs := (s.dlyResp p t1 t2 t3 t4).regs } := by
  have hgo : (s.pwyEn && s.portUp p) = true := by rw [hen, hup]; rfl
  have hclamp : (clampI 0 1048575 d).toNat = d.toNat := by
    rw [clampI, if_neg (by omega), if_neg (by omega)]
  have heq : s.dlyResp p t1 t2 t3 t4 = s.setF (R.PWY_PORT p) F.PWY_PORT_DELAY (clampI 0 1048575 d).toNat := by
    rw [State.dlyResp, if_pos hgo, hd]
    rfl
  rw [heq, hclamp]
  exact ⟨State.getF_setF_of_lt _ _ _ _ (by decide) (by show d.toNat < 2 ^ 20; omega), rfl⟩

end

/-- What one port carries in a SYNC period: SYNC downstream, with the step (ta, st), and a delay request. -/
def State.syncPort (ta : BitVec 64) (st : Word) (ge : BitVec 8) (m : Fin 32) (t : State) (p : Fin 2) : State :=
  let t1 := if t.groupPort p && t.pwyLocked && !t.isSet (R.PWY_PORT p) F.PWY_PORT_UPSTREAM then
      t.sendOwn p (fun q => .sync t.ownPos q t.mtime ta st ge m)
    else t
  if t1.pwyEn && t1.portUp p then t1.sendOwn p (fun q => .dlyReq t1.ownPos q (t1.mtime.toNat * 16)) else t1

theorem State.syncPort_down {t : State} {p : Fin 2} (ta : BitVec 64) (st : Word) (ge : BitVec 8) (m : Fin 32) (h : t.portUp p = false) :
    t.syncPort ta st ge m p = t := by
  have hgroup : t.groupPort p = false := by
    rw [State.groupPort, h, Bool.and_false, Bool.false_and]
  unfold State.syncPort
  simp only [hgroup, Bool.false_and, Bool.false_eq_true, if_false, h, Bool.and_false]

theorem State.syncPort_sends {t : State} {p : Fin 2} (ta : BitVec 64) (st : Word) (ge : BitVec 8) (m : Fin 32)
    (hgroup : t.groupPort p = true) (hlock : t.pwyLocked = true) (hdir : t.isSet (R.PWY_PORT p) F.PWY_PORT_UPSTREAM = false)
    (h : t.ptbActs 12 = false) : t.syncPort ta st ge m p = { t with
      pwy := { t.pwy with seq := ((t.pwy.seq + 1) % 256 + 1) % 256 }
      outs := t.outs ++ [.frame p.castSucc.castSucc false (.sync t.ownPos (BitVec.ofNat 8 t.pwy.seq) t.mtime ta st ge m),
        .frame p.castSucc.castSucc false (.dlyReq t.ownPos (BitVec.ofNat 8 ((t.pwy.seq + 1) % 256)) (t.mtime.toNat * 16))] } := by
  have hsync : (t.groupPort p && t.pwyLocked && !t.isSet (R.PWY_PORT p) F.PWY_PORT_UPSTREAM) = true := by
    rw [hgroup, hlock, hdir]
    rfl
  have hreq : (t.pwyEn && t.portUp p) = true := by
    rw [State.groupPort, Bool.and_eq_true] at hgroup
    exact hgroup.1
  unfold State.syncPort
  rw [if_pos hsync]
  have hsent := State.sendOwn_sent (s := t) (p := p) (fun q => .sync t.ownPos q t.mtime ta st ge m) h
  generalize t.sendOwn p (fun q => .sync t.ownPos q t.mtime ta st ge m) = u at hsent ⊢
  dsimp only
  have hreq' : (u.pwyEn && u.portUp p) = true := by
    rw [hsent]
    exact hreq
  have hu : u.ptbActs 12 = false := by
    rw [hsent]
    exact h
  have hpos : u.ownPos = t.ownPos := by rw [hsent]; rfl
  rw [if_pos hreq', State.sendOwn_sent _ hu, hpos]
  rw [hsent]
  dsimp only
  rw [List.append_assoc]
  rfl

theorem State.syncTransmit_eq {s : State} (h : s.pwy.step = none) : s.syncTransmit =
    (List.finRange 2).foldl (State.syncPort 0 0 (BitVec.ofNat 8 (s.getF R.PWY_GSTAT F.PWY_GSTAT_GEPOCH))
      ⟨s.getF R.PWY_GSTAT F.PWY_GSTAT_MASTER_POS % 32, Nat.mod_lt _ (by decide)⟩) s := by
  unfold State.syncTransmit
  rw [h]
  rfl

/-- SYNC leaves on port 0 alone, and the delay request with it. -/
theorem State.syncTransmit_sent {s : State} {ge : BitVec 8} {m : Fin 32} (hen : s.pwyEn = true) (hlock : s.pwyLocked = true)
    (hup : s.portUp 0 = true) (hdown : s.portUp 1 = false) (hbound : s.pwy.boundary.get 0 = false)
    (hdir : s.isSet (R.PWY_PORT 0) F.PWY_PORT_UPSTREAM = false) (hstep : s.pwy.step = none)
    (hge : ge.toNat = s.getF R.PWY_GSTAT F.PWY_GSTAT_GEPOCH) (hm : m.val = s.getF R.PWY_GSTAT F.PWY_GSTAT_MASTER_POS)
    (h : s.ptbActs 12 = false) : s.syncTransmit = { s with
      pwy := { s.pwy with seq := ((s.pwy.seq + 1) % 256 + 1) % 256 }
      outs := s.outs ++ [.frame 0 false (.sync s.ownPos (BitVec.ofNat 8 s.pwy.seq) s.mtime 0 0 ge m),
        .frame 0 false (.dlyReq s.ownPos (BitVec.ofNat 8 ((s.pwy.seq + 1) % 256)) (s.mtime.toNat * 16))] } := by
  have hge' : BitVec.ofNat 8 (s.getF R.PWY_GSTAT F.PWY_GSTAT_GEPOCH) = ge := by
    rw [← hge, BitVec.ofNat_toNat, BitVec.setWidth_eq]
  have hm' : (⟨s.getF R.PWY_GSTAT F.PWY_GSTAT_MASTER_POS % 32, Nat.mod_lt _ (by decide)⟩ : Fin 32) = m :=
    Fin.ext (by rw [← hm]; exact Nat.mod_eq_of_lt m.isLt)
  have hports : List.finRange 2 = [0, 1] := by decide
  have hgroup : s.groupPort 0 = true := by
    have hup' : s.portUp (0 : Fin 2).val = true := hup
    rw [State.groupPort, hen, hup', hbound]
    rfl
  rw [State.syncTransmit_eq hstep, hge', hm', hports, List.foldl_cons, List.foldl_cons, List.foldl_nil,
    State.syncPort_sends 0 0 ge m hgroup hlock hdir h]
  exact State.syncPort_down 0 0 ge m hdown

/-- TOPO leaves on the one group port. -/
theorem State.topoTransmit_sent {s : State} (hin : s.inGroup = true) (h0 : s.groupPort 0 = true) (h1 : s.groupPort 1 = false)
    (h : s.ptbActs 12 = false) : ∃ u : State, s.topoTransmit = u ∧
      u.outs = s.outs ++ [.frame 0 false (.topo (BitVec.ofNat 8 s.pwy.seq) s.ownTopo)] ∧ u.pwy.seq = (s.pwy.seq + 1) % 256 ∧
      u.regs = s.regs ∧ u.cells = s.cells := by
  have htook : ((s.takeSeq.1).remember s.ownPos s.takeSeq.2).ptbActs 12 = false := h
  have hg0 : ((s.takeSeq.1).remember s.ownPos s.takeSeq.2).groupPort 0 = true := h0
  have hg1 : ((s.takeSeq.1).remember s.ownPos s.takeSeq.2).groupPort 1 = false := h1
  refine ⟨_, rfl, ?_⟩
  rw [State.topoTransmit, if_pos hin, State.originate]
  dsimp only
  have hpwy : ((s.takeSeq.1).remember s.ownPos s.takeSeq.2).pwy.seq = (s.pwy.seq + 1) % 256 := rfl
  have houts : ((s.takeSeq.1).remember s.ownPos s.takeSeq.2).outs = s.outs := rfl
  have hregs : ((s.takeSeq.1).remember s.ownPos s.takeSeq.2).regs = s.regs := rfl
  have hcells : ((s.takeSeq.1).remember s.ownPos s.takeSeq.2).cells = s.cells := rfl
  have hseq : s.takeSeq.2 = BitVec.ofNat 8 s.pwy.seq := rfl
  generalize (s.takeSeq.1).remember s.ownPos s.takeSeq.2 = u at *
  have hsent := State.sendFrame_sent (q := 0) (.topo s.takeSeq.2 s.ownTopo) htook
  rw [if_pos hg0]
  generalize u.sendFrame 0 (.topo s.takeSeq.2 s.ownTopo) = v at hsent ⊢
  have hv1 : v.groupPort 1 = false := by rw [hsent]; exact hg1
  rw [if_neg (by rw [hv1]; decide), hsent]
  exact ⟨by rw [houts, hseq]; rfl, hpwy, hregs, hcells⟩

/-- Settles O39: every frame is one operation, whose result is stated once; where LOCKED may change with it, pairing leaves Passway. -/
theorem passwayFrames : Obligations.PasswayFrames := by
  refine ⟨?bad, ?lane, ?nothing, ?good, ?locks, ?ignored, ?step, ?event, ?seen, ?other, ?member, ?dlyReq, ?dlyResp, ?sync, ?topo, ?silent,
    ?loss⟩
  case bad =>
    intro s x hp hup hbad
    refine ⟨_, rfl, ?_⟩
    rw [State.discardOn_port hp, hup, hbad]
    exact s.frameDiscard_shown
  case lane =>
    intro s x hp hlane hbad
    refine ⟨_, rfl, ?_⟩
    rw [State.discardOn_lane hp, hlane, hbad]
    have hoff := (State.OffPwy.refl s).twinDrop
    obtain ⟨hcount, hrecent, hhealthy, hat⟩ := s.twinDrop_shown
    exact ⟨hcount, hrecent, hhealthy, hoff.regs _ (.inr (by decide)), hat, hoff.pwy, hoff.cells⟩
  case nothing =>
    intro s x h
    refine ⟨_, rfl, ?_⟩
    obtain ⟨hp, h⟩ | ⟨hp, h⟩ := h
    · rw [State.discardOn_port hp, if_neg (by obtain h | h := h <;> rw [h] <;> simp only [Bool.false_and, Bool.and_false] <;> decide)]
    · rw [State.discardOn_lane hp, if_neg (by obtain h | h := h <;> rw [h] <;> simp only [Bool.false_and, Bool.and_false] <;> decide)]
  case good =>
    intro s x b fr hp hlen hle hx hne
    refine ⟨_, rfl, ?_⟩
    rw [State.discardOn_port hp, hx, frameBad_good hlen hle hne, Bool.and_false]
    rfl
  case locks =>
    intro s p t0 st fr off hport hup hmaster hlock hsteady hoff hlo hhi hmode
    refine ⟨_, rfl, ?_⟩
    rw [State.lockedNow_single hmode]
    exact State.syncIn_locks hport hup hmaster hlock hsteady hoff hlo hhi
  case ignored =>
    intro s p t0 ta st fr h
    refine ⟨_, rfl, ?_⟩
    rw [State.syncIn_else _ _ _ _ h, State.lockedNow_same rfl]
  case step =>
    intro s p t0 ta st fr off hport hup hmaster hlock hta hahead happlied hoff hlo hhi
    refine ⟨_, rfl, ?_⟩
    obtain ⟨hoffset, hstep, hmtime, hcells, hlocked⟩ := State.syncIn_locked (st := st) hport hup hmaster hlock hta hahead happlied hoff hlo hhi
    rw [State.lockedNow_same (hlocked.trans hlock.symm)]
    exact ⟨hoffset, hstep, hmtime, hcells⟩
  case event =>
    intro s p pos seq r j im hport hnew hother hgroup hhit himps hepoch hdelay
    refine ⟨_, rfl, ?_⟩
    have hrec := State.eventRec_fires (s := s.remember pos seq) hgroup hhit himps hepoch
    have hseen := s.seen_remember pos seq
    have hloc : pwmSource (928 + j.val) = none := by rw [pwmSource, localOf_import j.val j.isLt]
    rw [State.eventIn_new hport hnew hother, hrec]
    refine ⟨State.fire_taps (State.srcPresent_import _ j.isLt) hloc hdelay, ?_, ?_⟩
    · rw [(State.fire_only _ _).rest]
      exact hseen
    · rw [State.fire_cells]
      rfl
  case seen =>
    intro s p pos seq recs h
    exact ⟨_, rfl, State.eventIn_seen recs h⟩
  case other =>
    intro s p seq q hen hup hg
    refine ⟨_, rfl, ?_⟩
    rw [State.topoIn_other hen hup hg]
    obtain ⟨hflag, hpwy, houts, hcells, hmode⟩ := State.mismatchTold_shown (s := s) (t := s.bounded p true) rfl
    have hbound : (s.bounded p true).pwy.boundary.get p = true := vget_set_self _ _ _
    generalize s.mismatchTold (s.bounded p true) = u at hflag hpwy houts hcells hmode ⊢
    obtain ⟨hkept, -⟩ := s.lockedNow_showGroup u hmode
    exact ⟨by rw [hkept.boundary, hpwy, hbound], (congrArg (· == 1) (hkept.flds _ _ (.inl ⟨rfl, rfl⟩))).trans hflag,
      by rw [hkept.members, hpwy]; rfl, hkept.outs.trans houts, hkept.cells.trans hcells⟩
  case member =>
    intro s p seq q hen hup hg hpos hnew hother hdup
    refine ⟨_, rfl, ?_⟩
    rw [State.topoIn_member hen hup hg hpos hnew hother]
    obtain ⟨hmember, hbound, hmap⟩ := State.memberNoted_shown (p := p) seq hen hpos hdup
    obtain ⟨hkept, hshown⟩ := s.lockedNow_showGroup (s.memberNoted p seq q) rfl
    exact ⟨by rw [hkept.members, hmember], by rw [hshown]; exact hmap, by rw [hkept.boundary, hbound], hkept.cells⟩
  case dlyReq =>
    intro s p t2 t3 hen hup h
    refine ⟨_, rfl, ?_⟩
    rw [State.dlyReq_answers hen hup h]
    exact ⟨rfl, rfl, rfl⟩
  case dlyResp =>
    intro s p t1 t2 t3 t4 d hen hup hd h0 hlt
    exact ⟨_, rfl, State.dlyResp_shown hen hup hd h0 hlt⟩
  case sync =>
    intro s ge m hen hlock hup hdown hbound hdir hstep hge hm h
    refine ⟨_, rfl, ?_⟩
    rw [State.syncTransmit_sent hen hlock hup hdown hbound hdir hstep hge hm h]
    exact ⟨rfl, rfl, rfl, rfl⟩
  case topo =>
    intro s hin h0 h1 h
    obtain ⟨u, hu, hshown⟩ := State.topoTransmit_sent hin h0 h1 h
    exact ⟨u, congrArg Host.Outcome.next hu, hshown⟩
  case silent =>
    intro s pos hpos hen hdup hall
    refine ⟨_, rfl, ?_⟩
    obtain ⟨u, hu, hnone, hmap, hcells, hmode⟩ := State.memberTimeout_forgets hpos hall
    obtain ⟨hkept, hshown⟩ := s.lockedNow_showGroup u hmode
    rw [hu]
    exact ⟨by rw [hkept.members, hnone], by rw [hshown]; exact hmap, hkept.cells.trans hcells⟩
  case loss =>
    intro s hmaster hlock
    refine ⟨_, rfl, ?_⟩
    have hsync : s.syncLoss = s.lockLost := by rw [State.syncLoss, hmaster]; rfl
    obtain ⟨hlocked, hflag, hepoch, hstep⟩ := State.lockLost_shown hlock
    have hkept := (State.GrpKept.refl GrpShownFld s).lockLost
    have hoff := s.lockedNow_offPwy s.lockLost (hkept.flds _ _ (.inl (.inr rfl)))
    rw [hsync]
    have hstat := hoff.regs R.PWY_STAT (.inr (by decide))
    have hexp := hoff.regs (R.PWY_EXP 3) (.inr (by decide))
    exact ⟨(congrArg (fun w => F.PWY_STAT_LOCKED.get w == 1) hstat).trans hlocked,
      (congrArg (fun w => F.PWY_STAT_LOCK_LOST_F.get w == 1) hstat).trans hflag,
      (congrArg F.PWY_EXP_EPOCH.get hexp).trans hepoch, by rw [hoff.pwy, hstep], hoff.cells.trans hkept.cells⟩

end Machine
end Sys2Proof
end

section
/-! PROOFS. Colbel: transports, and how a sealed request that is served runs and is answered (R460, R461, R464). -/

namespace Sys2Proof
namespace Machine

/-! Messages arrive (R460). -/

theorem vget_toList {α : Type} {m : Nat} (v : Vector α m) (i : Fin m) : v.toList[i.val]? = some (v.get i) := by
  rw [List.getElem?_eq_getElem (by rw [Vector.length_toList]; exact i.isLt)]
  rfl

theorem vsetIfInBounds {α : Type} {m : Nat} {v : Vector α m} {i : Nat} {x : α} (h : i < m) : v.setIfInBounds i x = v.set i x h := by
  ext j hj
  rw [Vector.getElem_setIfInBounds, Vector.getElem_set]

theorem State.arrived_inbox (s : State) (t : Fin 3) : (s.arrived t).dbg.inbox.get t = s.dbg.inbox.get t + 1 := vget_set_self _ _ _

theorem State.arrived_only (s : State) (t : Fin 3) : s.arrived t = { s with dbg := (s.arrived t).dbg } := rfl

/-- A write of MBX_GO breaks no reservation of what a mailbox holds. -/
theorem State.regWrite_mbxGo {s : State} {x : Access} (v : Word) : s.regWrite x mbxBase v = (s.breakResv (pairBy x.m) mbxBase).mbxGo v := by
  have hbars : kcBars x mbxBase = false := by
    have hkc : kcPair mbxBase = none := by decide
    rw [kcBars, hkc]
  rw [State.regWrite]
  dsimp only
  rw [hbars, if_neg Bool.false_ne_true, if_neg (by decide), dif_neg (by decide), dif_neg (by decide), if_pos (by decide),
    if_pos (beq_self_eq_true _)]

theorem State.mbxGo_takes {s : State} {v : Word} (hboot : s.bootStopped = false) (hlo : 12 ≤ v.toNat % 2048) (hhi : v.toNat % 2048 ≤ 1920)
    (hfree : bit (s.reg (mbxBase + 4)) 31 = false) : s.mbxGo v = (s.setReg (mbxBase + 4) 0x80000000).arrived 0 := by
  have hno : (s.bootStopped || decide (v.toNat % 2048 < 12) || decide (1920 < v.toNat % 2048) || bit (s.reg (mbxBase + 4)) 31) = false := by
    rw [hboot, hfree, decide_eq_false (by omega), decide_eq_false (by omega)]
    rfl
  rw [State.mbxGo, hno]
  rfl

theorem State.udpDatagram_arrives {s : State} {len : Nat} (hboot : s.bootStopped = false) (hclk : s.clockOn 5 = true) (hlo : 12 ≤ len)
    (hhi : len ≤ 1920) : s.udpDatagram len = s.arrived 1 := by
  have hno : (s.bootStopped || !s.clockOn 5 || decide (len < 12) || decide (1920 < len)) = false := by
    rw [hboot, hclk, decide_eq_false (by omega), decide_eq_false (by omega)]
    rfl
  rw [State.udpDatagram, hno]
  rfl

section

variable {s : State} {k : Fin 2} {h : SegHead} {i : Nat}

/-- The message that was being received on a controller is discarded. -/
def State.segDropped (s : State) (k : Fin 2) : State := s.setDbg { s.dbg with seg := s.dbg.seg.set k none }

theorem State.segDropped_shown (s : State) (k : Fin 2) : (s.segDropped k).dbg.seg.get k = none ∧ (s.segDropped k).dbg.inbox = s.dbg.inbox ∧
    s.segDropped k = { s with dbg := (s.segDropped k).dbg } := ⟨vget_set_self _ _ _, rfl, rfl⟩

/-- The index at which the message on controller k goes on. -/
def State.segWant (s : State) (k : Fin 2) : Nat := if s.canLate k then 0 else (s.dbg.seg.get k).getD 0

theorem State.canLate_iff (s : State) (k : Fin 2) : s.canLate k = true ↔ s.dbg.segAt.get k + 150000000 ≤ s.clock := decide_eq_true_iff

/-- The segment is the first, or the next of a message in time. -/
theorem State.segWant_of_next (hn : i = 0 ∨ (s.dbg.segAt.get k + 150000000 > s.clock ∧ i = (s.dbg.seg.get k).getD 0)) (h30 : i ≤ 30) :
    ((i != s.segWant k && i != 0) || decide (30 < i)) = false := by
  rw [decide_eq_false (by omega), Bool.or_false, Bool.and_eq_false_iff, bne_eq_false_iff_eq, bne_eq_false_iff_eq]
  obtain h0 | ⟨htime, hi⟩ := hn
  · exact .inr h0
  · left
    rw [State.segWant, if_neg (fun hl => by have := (s.canLate_iff k).mp hl; omega), hi]

theorem State.canSegment_other (hd : h.dir = true) : s.canSegment k h i = s := by
  rw [State.canSegment, hd, Bool.or_true]
  rfl

/-- A segment for this module while the transport runs. -/
theorem State.canSegment_eq (hboot : s.bootStopped = false) (hrun : s.fastRuns = true) (hd : h.dir = false) : s.canSegment k h i =
    if (i != s.segWant k && i != 0) || decide (30 < i) then s.segDropped k
    else if h.last then if segEnds h.length.toNat i then (s.segDropped k).arrived 2 else s.segDropped k
    else s.setDbg { s.dbg with
      seg := s.dbg.seg.set k (some (i + 1)), segAt := if i == 0 then s.dbg.segAt.set k s.clock else s.dbg.segAt } := by
  have hno : (s.bootStopped || !s.fastRuns || h.dir) = false := by rw [hboot, hrun, hd]; rfl
  rw [State.canSegment, hno]
  rfl

/-- A segment out of order, late or with a LENGTH that does not fit discards the message. -/
theorem State.canSegment_drops (hboot : s.bootStopped = false) (hrun : s.fastRuns = true) (hd : h.dir = false)
    (hbad : (i ≠ 0 ∧ (s.dbg.segAt.get k + 150000000 ≤ s.clock ∨ i ≠ (s.dbg.seg.get k).getD 0 ∨ 30 < i)) ∨
      (h.last = true ∧ segEnds h.length.toNat i = false)) : s.canSegment k h i = s.segDropped k := by
  rw [State.canSegment_eq hboot hrun hd]
  split
  · rfl
  · next hgo =>
    obtain ⟨h0, hwhy⟩ | ⟨hlast, hends⟩ := hbad
    · refine absurd ?_ hgo
      rw [Bool.or_eq_true, Bool.and_eq_true, bne_iff_ne, bne_iff_ne, decide_eq_true_eq, State.segWant]
      by_cases hl : s.canLate k = true
      · rw [if_pos hl]
        exact .inl ⟨h0, h0⟩
      · rw [if_neg hl]
        obtain hlate | hne | h30 := hwhy
        · exact absurd ((s.canLate_iff k).mpr hlate) hl
        · exact .inl ⟨hne, h0⟩
        · exact .inr h30
    · rw [if_pos hlast, if_neg (by rw [hends]; decide)]

end

/-! A message is taken and a response sent (R460, R464). -/

/-- `t` differs from `s` in the mailbox, in what the monitor keeps of sessions and transports, in what is sent and in free values. -/
structure State.MailOnly (s t : State) : Prop where
  rest : t = { s with regs := t.regs, dbg := t.dbg, outs := t.outs, free := t.free }
  dbg : t.dbg = { s.dbg with sess := t.dbg.sess, inbox := t.dbg.inbox, mbxRsp := t.dbg.mbxRsp }
  regs : ∀ a < mbxBase, t.reg a = s.reg a

namespace State.MailOnly

variable {s t u : State}

theorem refl (s : State) : s.MailOnly s := ⟨rfl, rfl, fun _ _ => rfl⟩

theorem trans (h : s.MailOnly t) (k : t.MailOnly u) : s.MailOnly u where
  rest := by
    have h1 := k.rest
    rw [h.rest] at h1
    exact h1
  dbg := by
    have h1 := k.dbg
    rw [h.dbg] at h1
    exact h1
  regs a ha := (k.regs a ha).trans (h.regs a ha)

theorem getF (h : s.MailOnly t) {a : Nat} (ha : a < mbxBase) (f : Fld) : t.getF a f = s.getF a f := congrArg f.get (h.regs a ha)

theorem isSet (h : s.MailOnly t) {a : Nat} (ha : a < mbxBase) (f : Fld) : t.isSet a f = s.isSet a f :=
  congrArg (· == 1) (h.getF ha f)

theorem setMbx (h : s.MailOnly t) {a : Nat} (v : Word) (ha : mbxBase ≤ a) : s.MailOnly (t.setReg a v) :=
  h.trans ⟨rfl, rfl, fun b hb => t.reg_setReg_ne a v b (by omega)⟩

theorem cells (h : s.MailOnly t) : t.cells = s.cells := by rw [h.rest]
theorem core (h : s.MailOnly t) : t.core = s.core := by rw [h.rest]
theorem ctl (h : s.MailOnly t) : t.ctl = s.ctl := by rw [h.rest]
theorem clock (h : s.MailOnly t) : t.clock = s.clock := by rw [h.rest]

theorem colbelAvail (h : s.MailOnly t) : t.colbelAvail = s.colbelAvail := h.isSet (by decide) _

theorem authAllowed (h : s.MailOnly t) (want : Nat) : t.authAllowed want = s.authAllowed want := by
  have hlc : t.lc = s.lc := h.getF (by decide) _
  have hpol : t.isSet R.SEC_POLICY F.SEC_POLICY_FIELD_DBG = s.isSet R.SEC_POLICY F.SEC_POLICY_FIELD_DBG := h.isSet (by decide) _
  rw [State.authAllowed, hlc, hpol]
  rfl

end State.MailOnly

theorem State.taken_shown (s : State) (t : Fin 3) : s.MailOnly (s.taken t) ∧ (s.taken t).dbg.sess = s.dbg.sess ∧
    (s.taken t).outs = s.outs ∧ (s.taken t).dbg.inbox.get t = s.dbg.inbox.get t - 1 := by
  have hin : (s.dbg.inbox.setIfInBounds t.val ((s.dbg.inbox.toList[t.val]?.getD 0) - 1)).get t = s.dbg.inbox.get t - 1 := by
    rw [vget_toList, Option.getD_some, vsetIfInBounds t.isLt]
    exact vget_set_self _ _ _
  unfold State.taken
  extract_lets d s1
  have h1 : s.MailOnly s1 := ⟨rfl, rfl, fun _ _ => rfl⟩
  split
  · exact ⟨h1.setMbx _ (by decide), rfl, rfl, hin⟩
  · exact ⟨h1, rfl, rfl, hin⟩

theorem State.mbxPut_mail (s : State) (ty : Nat) (sess seq : Option Nat) : s.MailOnly (s.mbxPut ty sess seq) := by
  unfold State.mbxPut
  extract_lets len k q s1 s2
  have h2 : s.MailOnly (s2.setReg (mbxBase + 0x888) (BitVec.ofNat 32 (q / 2 ^ 32))) :=
    ((((State.MailOnly.refl s).setMbx _ (by decide)).setMbx _ (by decide)).setMbx _ (by decide)).setMbx _ (by decide)
  exact h2.trans ⟨rfl, rfl, fun _ _ => rfl⟩

theorem State.send_shown (s : State) (t ty : Nat) (sess seq : Option Nat) (o : Out) : s.MailOnly (s.send t ty sess seq o) ∧
    (s.send t ty sess seq o).dbg.sess = s.dbg.sess ∧ (s.send t ty sess seq o).dbg.inbox = s.dbg.inbox ∧
    (s.send t ty sess seq o).outs = s.outs ++ [o] := by
  have hemit (u : State) : u.MailOnly (u.emit o) := ⟨rfl, rfl, fun _ _ => rfl⟩
  unfold State.send
  split
  · exact ⟨(s.mbxPut_mail ty sess seq).trans (hemit _), rfl, rfl, rfl⟩
  · exact ⟨hemit s, rfl, rfl, rfl⟩

/-! A served request. -/

/-- Session k is open with record x. -/
def State.putSession (s : State) (k : Fin 4) (x : Session) : State := s.setDbg { s.dbg with sess := s.dbg.sess.set k (some x) }

theorem State.putSession_mail (s : State) (k : Fin 4) (x : Session) : s.MailOnly (s.putSession k x) := ⟨rfl, rfl, fun _ _ => rfl⟩

theorem State.sess_putSession (s : State) (k : Fin 4) (x : Session) : (s.putSession k x).dbg.sess.get k = some x := vget_set_self _ _ _

/-- The session record as the request finds it. -/
def Session.begins (x : Session) (s : State) (q : ColbelReq) : Session :=
  { x with tr := q.tr.val, last := some q.seq.toNat, resp := none, at_ := s.clock }

/-- The state in which the request runs. -/
def State.begun (s : State) (q : ColbelReq) (x : Session) : State :=
  (s.taken q.tr).putSession q.sess (x.begins s q)

theorem State.begun_shown (s : State) (q : ColbelReq) (x : Session) : s.MailOnly (s.begun q x) ∧
    (s.begun q x).dbg.sess.get q.sess = some (x.begins s q) ∧ (s.begun q x).outs = s.outs := by
  obtain ⟨hmail, -, houts, -⟩ := s.taken_shown q.tr
  exact ⟨hmail.trans (State.putSession_mail _ _ _), State.sess_putSession _ _ _, houts⟩

theorem State.execute_eq (s : State) (q : ColbelReq) (x : Session) (run : State → Session → Ran) : s.execute q x run =
    match (run (s.begun q x) (x.begins s q)).resp with
    | some a => (run (s.begun q x) (x.begins s q)).st.answer q.sess q.seq.toNat a
    | none => (run (s.begun q x) (x.begins s q)).st := rfl

/-- The state with a response stored and sent. -/
structure State.AnswersIn (u t : State) (q : ColbelReq) (z : Session) (r : Resp) : Prop where
  mail : u.MailOnly t
  sess : t.dbg.sess = u.dbg.sess.set q.sess (some { z with resp := some r })
  outs : t.outs = u.outs ++ [.colbel q.tr q.sess q.seq.toNat r]

theorem State.answer_shown {u : State} {q : ColbelReq} {z : Session} (r : Resp) (hz : u.dbg.sess.get q.sess = some z)
    (hav : u.colbelAvail = true) (hlast : z.last = some q.seq.toNat) (htr : z.tr = q.tr) :
    u.AnswersIn (u.answer q.sess q.seq.toNat r) q z r := by
  have hget : (u.dbg.sess.toList[q.sess.val]?).join = some z := by
    rw [vget_toList, hz]
    rfl
  have hset : u.setDbg { u.dbg with sess := u.dbg.sess.setIfInBounds q.sess.val (some { z with resp := some r }) } =
      u.putSession q.sess { z with resp := some r } := by
    rw [vsetIfInBounds q.sess.isLt]
    rfl
  unfold State.answer
  rw [hget]
  dsimp only
  rw [hav, Bool.not_true, if_neg Bool.false_ne_true, if_pos (beq_iff_eq.mpr hlast), hset]
  obtain ⟨hmail, hsess, -, houts⟩ := (u.putSession q.sess { z with resp := some r }).send_shown z.tr tySealed (some q.sess.val)
    (some q.seq.toNat) (.colbel z.tr q.sess q.seq.toNat r)
  exact ⟨(u.putSession_mail _ _).trans hmail, hsess, by rw [houts, htr]; rfl⟩

theorem State.AnswersIn.sess_self {u t : State} {q : ColbelReq} {z : Session} {r : Resp} (h : u.AnswersIn t q z r) :
    t.dbg.sess.get q.sess = some { z with resp := some r } := by
  rw [h.sess]
  exact vget_set_self _ _ _

theorem State.AnswersIn.answered {u t : State} {q : ColbelReq} {z : Session} {code status : Nat} {data : List Cell}
    (h : u.AnswersIn t q z ⟨code, status, data⟩) (hlast : z.last = some q.seq.toNat) : t.Answered q code status data := by
  refine ⟨by rw [h.outs, List.getLast?_append]; rfl, ?_⟩
  rw [h.sess_self, Option.map_some, hlast]

theorem State.serves_iff {s : State} {q : ColbelReq} {x : Session} {need : Nat} (h : s.serves q x need = true) :
    s.dbg.sess.get q.sess = some x ∧ s.colbelAvail = true ∧
      (need = 0 ∨ ((x.auth == need || (need == 3 && x.auth != 0)) && s.authAllowed x.auth) = true) := by
  rw [State.serves, Bool.and_eq_true, Bool.and_eq_true, Bool.and_eq_true, Bool.and_eq_true, Bool.and_eq_true, Bool.or_eq_true, beq_iff_eq,
    beq_iff_eq] at h
  obtain ⟨⟨⟨⟨⟨hx, hav⟩, -⟩, -⟩, -⟩, hauth⟩ := h
  exact ⟨hx, hav, hauth⟩

/-- A request that the module serves, whose effect answers: the effect on the state in which it runs, and the answer. -/
theorem State.request_answers {s : State} {q : ColbelReq} {x z : Session} {need : Nat} {run : State → Session → Ran} {u : State} {r : Resp}
    (h : s.serves q x need = true) (hrun : run (s.begun q x) (x.begins s q) = ⟨u, some r⟩) (hz : u.dbg.sess.get q.sess = some z)
    (hav : u.colbelAvail = true) (hlast : z.last = some q.seq.toNat) (htr : z.tr = q.tr) : u.AnswersIn (s.request q run) q z r := by
  rw [s.request_of_serves q x need run h, State.execute_eq, hrun]
  exact State.answer_shown r hz hav hlast htr

/-- The same for an effect that needs an authority, which the session has. -/
theorem State.withAuth_answers {s : State} {q : ColbelReq} {x z : Session} {code need : Nat} {run : State → Session → Ran} {u : State}
    {r : Resp} (h : s.serves q x need = true) (hneed : need ≠ 0) (hrun : run (s.begun q x) (x.begins s q) = ⟨u, some r⟩)
    (hz : u.dbg.sess.get q.sess = some z) (hav : u.colbelAvail = true) (hlast : z.last = some q.seq.toNat) (htr : z.tr = q.tr) :
    u.AnswersIn (s.withAuth q code need run) q z r := by
  obtain ⟨-, -, h0 | hauth⟩ := State.serves_iff h
  · exact absurd h0 hneed
  · refine State.request_answers h ?_ hz hav hlast htr
    have hallow : (s.begun q x).authAllowed x.auth = s.authAllowed x.auth := (s.begun_shown q x).1.authAllowed x.auth
    have hgo : (((x.begins s q).auth == need || (need == 3 && (x.begins s q).auth != 0)) && (s.begun q x).authAllowed (x.begins s q).auth) =
        true := by
      rw [← hauth, ← hallow]
      rfl
    rw [if_pos hgo, hrun]

/-- An effect that leaves the session's record and the service is answered in it. -/
theorem State.begun_serves {s : State} {q : ColbelReq} {x : Session} {need : Nat} (h : s.serves q x need = true) :
    (s.begun q x).dbg.sess.get q.sess = some (x.begins s q) ∧ (s.begun q x).colbelAvail = true ∧ s.MailOnly (s.begun q x) ∧
      (s.begun q x).outs = s.outs := by
  obtain ⟨hmail, hsess, houts⟩ := s.begun_shown q x
  exact ⟨hsess, hmail.colbelAvail.trans (State.serves_iff h).2.1, hmail, houts⟩

end Machine
end Sys2Proof
end

section
/-! PROOFS. Colbel: HELLO, the authorities, and the requests that need no pair (R454, R462 to R466). -/

namespace Sys2Proof
namespace Machine

/-! HELLO (R462, R463). -/

section

variable {s : State} {m : HelloMsg}

/-- An ERROR answers the message. -/
def State.helloError (s : State) (t : Fin 3) (c : Nat) : State := (s.taken t).send t tyError none none (.colbelError t c)

theorem State.helloError_shown (s : State) (t : Fin 3) (c : Nat) : (s.helloError t c).outs = s.outs ++ [.colbelError t c] ∧
    (s.helloError t c).dbg.sess = s.dbg.sess ∧ (s.helloError t c).cells = s.cells := by
  obtain ⟨hmail, hsess, houts, -⟩ := s.taken_shown t
  obtain ⟨hmail', hsess', -, houts'⟩ := (s.taken t).send_shown t tyError none none (.colbelError t c)
  exact ⟨houts'.trans (by rw [houts]), hsess'.trans hsess, (hmail.trans hmail').cells⟩

/-- Session k is opened for the message: the session, the values and the response. -/
def State.helloOpens (s : State) (m : HelloMsg) (k : Fin 4) : State :=
  let s1 := s.taken m.tr
  let i := s1.free
  let nonce := BitVec.ofNat 256 (freeNat i 8)
  let keys := Config.sessionKeys m.nonce m.key nonce (i + 24)
  { (s1.putSession k ⟨m.tr, 0, none, none, none, [], s.clock, keys⟩).showSessions with free := i + 41 }.send m.tr tyHelloRsp (some k.val) none
    (.hello m.tr k nonce (BitVec.ofNat 512 (freeNat (i + 8) 16)) Config.certificate (BitVec.ofNat 512 (freeNat (i + 25) 16)))

section

variable (hw : s.waits m.tr = true) (hav : s.colbelAvail = true) (hboot : s.isSet R.DEV_BOOT_STAT F.DEV_BOOT_STAT_DONE = true)
include hw hav hboot

theorem State.helloMsg_eq : s.helloMsg m = if s.dbg.locked.get m.tr then s.helloError m.tr 2
    else match (List.finRange 4).find? (fun (k : Fin 4) => (s.dbg.sess.get k).isNone) with
      | none => s.helloError m.tr 1
      | some k => s.helloOpens m k := by
  unfold State.helloMsg
  simp only [hw, hav, hboot, Bool.not_true, Bool.false_and, Bool.false_eq_true, if_false]
  rfl

theorem State.helloMsg_locked (hl : s.dbg.locked.get m.tr = true) : s.helloMsg m = s.helloError m.tr 2 := by
  rw [State.helloMsg_eq hw hav hboot, if_pos hl]

theorem State.helloMsg_full (hl : s.dbg.locked.get m.tr = false) (hfull : ∀ j : Fin 4, (s.dbg.sess.get j).isSome = true) :
    s.helloMsg m = s.helloError m.tr 1 := by
  have hnone : (List.finRange 4).find? (fun (k : Fin 4) => (s.dbg.sess.get k).isNone) = none := by
    refine List.find?_eq_none.mpr (fun j _ => ?_)
    rw [Option.isNone_iff_eq_none]
    exact Option.isSome_iff_ne_none.mp (hfull j)
  rw [State.helloMsg_eq hw hav hboot, if_neg (by rw [hl]; decide), hnone]

theorem State.helloMsg_opens {k : Fin 4} (hl : s.dbg.locked.get m.tr = false)
    (hk : (List.finRange 4).find? (fun (j : Fin 4) => (s.dbg.sess.get j).isNone) = some k) : s.helloMsg m = s.helloOpens m k := by
  rw [State.helloMsg_eq hw hav hboot, if_neg (by rw [hl]; decide), hk]

end

theorem State.helloOpens_shown (s : State) (m : HelloMsg) (k : Fin 4) : ∃ (nonce : BitVec 256) (key sig : BitVec 512) (i : Nat),
    (s.helloOpens m k).dbg.sess.get k = some ⟨m.tr, 0, none, none, none, [], s.clock, Config.sessionKeys m.nonce m.key nonce i⟩ ∧
      (s.helloOpens m k).outs = s.outs ++ [.hello m.tr k nonce key Config.certificate sig] ∧
      (s.helloOpens m k).dbg.inbox.get m.tr = s.dbg.inbox.get m.tr - 1 ∧ (s.helloOpens m k).cells = s.cells := by
  obtain ⟨hmail, -, houts, hin⟩ := s.taken_shown m.tr
  unfold State.helloOpens
  extract_lets s1 i nonce keys
  refine ⟨nonce, BitVec.ofNat 512 (freeNat (i + 8) 16), BitVec.ofNat 512 (freeNat (i + 25) 16), i + 24, ?_⟩
  have hopen := s1.sess_putSession k ⟨m.tr, 0, none, none, none, [], s.clock, keys⟩
  generalize hu : ({ (s1.putSession k ⟨m.tr, 0, none, none, none, [], s.clock, keys⟩).showSessions with free := i + 41 } : State) = u
  obtain ⟨husess, huin, huouts, hucells⟩ : u.dbg.sess.get k = some ⟨m.tr, 0, none, none, none, [], s.clock, keys⟩ ∧
      u.dbg.inbox.get m.tr = s.dbg.inbox.get m.tr - 1 ∧ u.outs = s.outs ∧ u.cells = s.cells := by
    rw [← hu]
    exact ⟨hopen, hin, houts, hmail.cells⟩
  obtain ⟨hsent, hsess, hinbox, hout⟩ := u.send_shown m.tr tyHelloRsp (some k.val) none (.hello m.tr k nonce
    (BitVec.ofNat 512 (freeNat (i + 8) 16)) Config.certificate (BitVec.ofNat 512 (freeNat (i + 25) 16)))
  exact ⟨by rw [hsess, husess], hout.trans (by rw [huouts]), by rw [hinbox, huin], hsent.cells.trans hucells⟩

end

/-! What an effect of a request leaves, and the answer to it. -/

/-- An effect that leaves the service, what is sent and every cell. -/
structure State.EffectOf (t u : State) : Prop where
  avail : u.colbelAvail = t.colbelAvail
  outs : u.outs = t.outs
  cells : u.cells = t.cells

/-- A request has been answered in t: the record with the response stored, one message sent, no cell changed. -/
structure State.AnsweredBy (s t : State) (q : ColbelReq) (z : Session) (r : Resp) : Prop where
  sess : t.dbg.sess.get q.sess = some { z with resp := some r }
  outs : t.outs = s.outs ++ [.colbel q.tr q.sess q.seq.toNat r]
  cells : t.cells = s.cells

theorem State.AnswersIn.answeredBy {s u t : State} {q : ColbelReq} {x z : Session} {need : Nat} {r : Resp} (h : s.serves q x need = true)
    (he : (s.begun q x).EffectOf u) (ha : u.AnswersIn t q z r) : s.AnsweredBy t q z r := by
  obtain ⟨-, -, hmail, houts⟩ := State.begun_serves h
  exact ⟨ha.sess_self, ha.outs.trans (by rw [he.outs, houts]), ha.mail.cells.trans (he.cells.trans hmail.cells)⟩

theorem State.AnsweredBy.answered {s t : State} {q : ColbelReq} {z : Session} {code status : Nat} {data : List Cell}
    (h : s.AnsweredBy t q z ⟨code, status, data⟩) (hlast : z.last = some q.seq.toNat) : t.Answered q code status data := by
  refine ⟨by rw [h.outs, List.getLast?_append]; rfl, ?_⟩
  rw [h.sess, Option.map_some, hlast]

/-- A served request whose effect answers. -/
theorem State.request_effect {s u : State} {q : ColbelReq} {x z : Session} {need : Nat} {run : State → Session → Ran} {r : Resp}
    (h : s.serves q x need = true) (hrun : run (s.begun q x) (x.begins s q) = ⟨u, some r⟩) (he : (s.begun q x).EffectOf u)
    (hz : u.dbg.sess.get q.sess = some z) (hlast : z.last = some q.seq.toNat) (htr : z.tr = q.tr) :
    u.AnswersIn (s.request q run) q z r ∧ s.AnsweredBy (s.request q run) q z r := by
  have hin := State.request_answers h hrun hz (he.avail.trans (State.begun_serves h).2.1) hlast htr
  exact ⟨hin, hin.answeredBy h he⟩

/-! AUTH and AUTH_SIGNATURE (R463). -/

/-- The record of session k is changed. -/
def State.updSession (t : State) (k : Fin 4) (f : Session → Session) : State :=
  t.setDbg { t.dbg with sess := t.dbg.sess.set k ((t.dbg.sess.get k).map f) }

theorem State.sess_updSession {t : State} {k : Fin 4} {y : Session} (f : Session → Session) (h : t.dbg.sess.get k = some y) :
    (t.updSession k f).dbg.sess.get k = some (f y) := by
  have hset : (t.updSession k f).dbg.sess.get k = (t.dbg.sess.get k).map f := vget_set_self _ _ _
  rw [hset, h, Option.map_some]

/-- The record of a session that has asked for an authority. -/
def Session.asks (y : Session) (b : Bool) (auth : Nat) : Session := { y with asked := some (if b then 2 else 1), auth := auth }

/-- The challenge: eight free words. -/
def challenge (i : Nat) : List Cell := (List.range 8).map (fun j => (⟨Config.freeWord (i + j), tagRaw⟩ : Cell))

/-- The authority is asked for. -/
def State.authAsked (t : State) (k : Fin 4) (auth : Nat) (b : Bool) : State :=
  { t.updSession k (Session.asks · b auth) with free := t.free + 8 }

theorem State.sess_authAsked {t : State} {k : Fin 4} {y : Session} (b : Bool) (auth : Nat) (h : t.dbg.sess.get k = some y) :
    (t.authAsked k auth b).dbg.sess.get k = some (y.asks b auth) := State.sess_updSession (Session.asks · b auth) h

theorem State.effect_authAsked (t : State) (k : Fin 4) (auth : Nat) (b : Bool) : t.EffectOf (t.authAsked k auth b) := ⟨rfl, rfl, rfl⟩

theorem State.authMsg_eq (s : State) (q : ColbelReq) (b : Bool) : s.authMsg q b =
    s.request q (fun t x => done (t.authAsked q.sess x.auth b) 0 0 (challenge t.free)) := rfl

section

variable {s : State} {q : ColbelReq} {x : Session}

theorem State.authMsg_shown (b : Bool) (h : s.serves q x 0 = true) : s.AnsweredBy (s.authMsg q b) q ((x.begins s q).asks b x.auth)
    ⟨0, 0, challenge (s.begun q x).free⟩ := by
  rw [State.authMsg_eq]
  exact (State.request_effect h rfl (State.effect_authAsked _ _ _ _) (State.sess_authAsked b x.auth (State.begun_serves h).1) rfl rfl).2

end

/-- A signature that verifies under a live key grants the authority that the session asked for, where R453 permits it. -/
def State.authGrants (t : State) (x : Session) (sig : Bool) (slot : Option (Fin 4)) : Bool :=
  x.asked.isSome && sig && (match slot with
    | some k => natBit (t.getF R.SEC_KEYSTAT F.SEC_KEYSTAT_WRITTEN) k && !natBit (t.getF R.SEC_KEYSTAT F.SEC_KEYSTAT_REVOKED) k && bootKey t.lc k
    | none => false) && t.authAllowed (x.asked.getD 0)

/-- The authority is granted. -/
def State.authGranted (t : State) (q : ColbelReq) (want : Nat) : State :=
  (t.setDbg { t.dbg with refused := t.dbg.refused.set q.tr 0 }).updSession q.sess (fun y => { y with auth := want, asked := none })

/-- It is refused: the refusals of the transport count, and the third locks it. -/
def State.authRefused (t : State) (q : ColbelReq) : State :=
  let n := t.dbg.refused.get q.tr + 1
  ((t.setDbg { t.dbg with
    refused := t.dbg.refused.set q.tr (if n == 3 then 0 else n)
    locked := if n == 3 then t.dbg.locked.set q.tr true else t.dbg.locked
    lockAt := if n == 3 then t.dbg.lockAt.set q.tr t.clock else t.dbg.lockAt }).count R.DBG_AUTH_FAIL
      F.DBG_AUTH_FAIL_COUNT).updSession q.sess (fun y => { y with asked := none })

theorem State.authSign_eq (s : State) (q : ColbelReq) (sig : Bool) (slot : Option (Fin 4)) : s.authSign q sig slot =
    s.request q (fun t x => if t.authGrants x sig slot then done (t.authGranted q (x.asked.getD 0)) 0 0 [] else done (t.authRefused q) 0 2 []) :=
  rfl

theorem State.effect_authGranted (t : State) (q : ColbelReq) (want : Nat) : t.EffectOf (t.authGranted q want) := ⟨rfl, rfl, rfl⟩

theorem State.authRefused_isSet (t : State) (q : ColbelReq) {a : Nat} (h : a ≠ R.DBG_AUTH_FAIL) (f : Fld) :
    (t.authRefused q).isSet a f = t.isSet a f := by
  unfold State.authRefused
  extract_lets n
  exact congrArg (f.get · == 1) (State.reg_count_ne _ _ _ _ h)

theorem State.effect_authRefused (t : State) (q : ColbelReq) : t.EffectOf (t.authRefused q) :=
  ⟨t.authRefused_isSet q (by decide) _, rfl, rfl⟩

theorem State.authRefused_counts (t : State) (q : ColbelReq) : (t.authRefused q).getF R.DBG_AUTH_FAIL F.DBG_AUTH_FAIL_COUNT =
    min F.DBG_AUTH_FAIL_COUNT.top (t.getF R.DBG_AUTH_FAIL F.DBG_AUTH_FAIL_COUNT + 1) := by
  unfold State.authRefused
  extract_lets n
  exact State.getF_count _ _ _ (by decide)

theorem State.authRefused_locks {t : State} {q : ColbelReq} (h : t.dbg.refused.get q.tr = 2) :
    (t.authRefused q).dbg.locked.get q.tr = true := by
  unfold State.authRefused
  rw [h]
  exact vget_set_self _ _ _

section

variable {s : State} {q : ColbelReq} {x : Session}

theorem State.authGrants_begun {k : Fin 4} {want : Nat} (hask : x.asked = some want)
    (hwr : natBit (s.getF R.SEC_KEYSTAT F.SEC_KEYSTAT_WRITTEN) k = true)
    (hrev : natBit (s.getF R.SEC_KEYSTAT F.SEC_KEYSTAT_REVOKED) k = false) (hkey : bootKey s.lc k = true)
    (hallow : s.authAllowed want = true) : (s.begun q x).authGrants (x.begins s q) true (some k) = true := by
  obtain ⟨hmail, -, -⟩ := s.begun_shown q x
  have hlc : (s.begun q x).lc = s.lc := hmail.getF (by decide) _
  have hasks : (x.begins s q).asked = some want := hask
  rw [State.authGrants, hasks, hmail.getF (by decide), hmail.getF (by decide), hlc, hmail.authAllowed, hwr, hrev, hkey, Option.getD_some, hallow]
  rfl

/-- A signature under a live key grants. -/
theorem State.authSign_grants {k : Fin 4} {want : Nat} (h : s.serves q x 0 = true) (hask : x.asked = some want)
    (hwr : natBit (s.getF R.SEC_KEYSTAT F.SEC_KEYSTAT_WRITTEN) k = true)
    (hrev : natBit (s.getF R.SEC_KEYSTAT F.SEC_KEYSTAT_REVOKED) k = false) (hkey : bootKey s.lc k = true)
    (hallow : s.authAllowed want = true) :
    s.AnsweredBy (s.authSign q true (some k)) q { x.begins s q with auth := want, asked := none } ⟨0, 0, []⟩ ∧
      (s.authSign q true (some k)).dbg.refused.get q.tr = 0 := by
  have hyes := State.authGrants_begun (q := q) hask hwr hrev hkey hallow
  have hwant : (x.begins s q).asked.getD 0 = want := congrArg (Option.getD · 0) hask
  obtain ⟨hsess, -, -, -⟩ := State.begun_serves h
  have hz : ((s.begun q x).authGranted q want).dbg.sess.get q.sess = some { x.begins s q with auth := want, asked := none } :=
    State.sess_updSession _ hsess
  rw [State.authSign_eq]
  obtain ⟨hin, hans⟩ := State.request_effect (u := (s.begun q x).authGranted q want) (r := ⟨0, 0, []⟩)
    (run := fun t x => if t.authGrants x true (some k) then done (t.authGranted q (x.asked.getD 0)) 0 0 [] else done (t.authRefused q) 0 2 [])
    h (by rw [if_pos hyes, hwant]; rfl) (State.effect_authGranted _ _ _) hz rfl rfl
  refine ⟨hans, ?_⟩
  rw [hin.mail.dbg]
  exact vget_set_self _ _ _

/-- A signature that does not verify is the third refusal of its transport. -/
theorem State.authSign_refuses (slot : Option (Fin 4)) (h : s.serves q x 0 = true) (hthird : s.dbg.refused.get q.tr = 2) :
    s.AnsweredBy (s.authSign q false slot) q { x.begins s q with asked := none } ⟨0, 2, []⟩ ∧
      (s.authSign q false slot).dbg.locked.get q.tr = true ∧
      (s.authSign q false slot).getF R.DBG_AUTH_FAIL F.DBG_AUTH_FAIL_COUNT =
        min F.DBG_AUTH_FAIL_COUNT.top (s.getF R.DBG_AUTH_FAIL F.DBG_AUTH_FAIL_COUNT + 1) := by
  have hno : (s.begun q x).authGrants (x.begins s q) false slot = false := by
    unfold State.authGrants
    rw [Bool.and_false, Bool.false_and, Bool.false_and]
  obtain ⟨hsess, -, hmail, -⟩ := State.begun_serves h
  have hz : ((s.begun q x).authRefused q).dbg.sess.get q.sess = some { x.begins s q with asked := none } :=
    State.sess_updSession _ hsess
  have htwo : (s.begun q x).dbg.refused.get q.tr = 2 := by rw [hmail.dbg]; exact hthird
  rw [State.authSign_eq]
  obtain ⟨hin, hans⟩ := State.request_effect (u := (s.begun q x).authRefused q) (r := ⟨0, 2, []⟩)
    (run := fun t x => if t.authGrants x false slot then done (t.authGranted q (x.asked.getD 0)) 0 0 [] else done (t.authRefused q) 0 2 [])
    h (by rw [hno, if_neg Bool.false_ne_true]; rfl) (State.effect_authRefused _ _) hz rfl rfl
  refine ⟨hans, ?_, ?_⟩
  · rw [hin.mail.dbg]
    exact State.authRefused_locks htwo
  · rw [hin.mail.getF (by decide), State.authRefused_counts, hmail.getF (by decide)]

end

/-! The requests that need no pair (R454, R465, R466). -/

/-- A register of the DEV block shows its view, less the bits that do not read. -/
theorem State.view_dev {a : Nat} (hlo : 0x01000000 ≤ a) (hhi : a < 0x01010000) {d : RegDesc} (hrow : rowAt a = some d) (s : State) :
    s.view a = s.devView a &&& ~~~ d.wo := by
  have hno : ¬(0x02000000 ≤ a ∧ a < 0x02C00000) := by omega
  unfold State.view
  rw [hrow]
  exact congrArg (· &&& ~~~ d.wo) ((dif_neg hno).trans (if_pos ⟨hlo, hhi⟩))

/-- Two states with one view of a DEV register show it alike. -/
theorem State.view_eq_of_devView {s t : State} {a : Nat} (hlo : 0x01000000 ≤ a) (hhi : a < 0x01010000) (hrow : (rowAt a).isSome = true)
    (hdev : t.devView a = s.devView a) : t.view a = s.view a := by
  obtain ⟨d, hd⟩ := Option.isSome_iff_exists.mp hrow
  rw [State.view_dev hlo hhi hd, State.view_dev hlo hhi hd, hdev]

theorem State.devView_DEV_ID (s : State) : s.devView R.DEV_ID = 0x0E5C2100 := by
  unfold State.devView
  exact if_pos rfl

theorem State.view_DEV_ID (s t : State) : t.view R.DEV_ID = s.view R.DEV_ID :=
  State.view_eq_of_devView (by decide) (by decide) (by decide) (by rw [State.devView_DEV_ID, State.devView_DEV_ID])

theorem State.view_DEV_VARIANT {s t : State} (h : t.part = s.part) : t.view R.DEV_VARIANT = s.view R.DEV_VARIANT := by
  refine State.view_eq_of_devView (by decide) (by decide) (by decide) ?_
  have hne : (R.DEV_VARIANT == R.DEV_ID) = false := by decide
  unfold State.devView
  simp only [hne, h, beq_self_eq_true, Bool.false_eq_true, if_false, if_true]

/-- What INFO answers. -/
def State.infoData (t : State) : List Cell :=
  [Config.serial.setWidth 32, (Config.serial >>> 32).setWidth 32, t.view R.DEV_ID, t.view R.DEV_VARIANT,
    BitVec.ofNat 32 t.lc, BitVec.ofNat 32 (t.getF R.DBG_STAT F.DBG_STAT_SESSIONS)].map (fun v => (⟨v, tagUint⟩ : Cell))

theorem State.MailOnly.infoData {s t : State} (h : s.MailOnly t) : t.infoData = s.infoData := by
  have hpart : t.part = s.part := by rw [h.rest]
  have hlc : t.lc = s.lc := h.getF (by decide) _
  rw [State.infoData, State.infoData, State.view_DEV_ID s t, State.view_DEV_VARIANT hpart, hlc, h.getF (by decide)]

/-- TOKEN: the token is held, and the nonce is a new one. -/
def State.tokened (t : State) (valid : Bool) : State :=
  ({ t with sec := { t.sec with token := t.sec.token || valid } }.setReg R.SEC_NONCE (Config.freeWord t.free)).fresh

theorem State.tokenMsg_eq (s : State) (q : ColbelReq) (valid : Bool) : s.tokenMsg q valid =
    s.withAuth q 15 3 (fun t _ => done (t.tokened valid) 15 (if valid then 0 else 2) []) := rfl

theorem State.effect_tokened (t : State) (valid : Bool) : t.EffectOf (t.tokened valid) :=
  ⟨congrArg (F.DBG_STAT_AVAIL.get · == 1) (State.reg_setReg_ne _ _ _ _ (by decide)), rfl, rfl⟩

theorem State.tokened_token (t : State) (valid : Bool) : (t.tokened valid).sec.token = (t.sec.token || valid) := rfl

theorem State.EffectOf.refl (t : State) : t.EffectOf t := ⟨rfl, rfl, rfl⟩

section

variable {s : State} {q : ColbelReq} {x : Session}

theorem State.infoMsg_shown (h : s.serves q x 0 = true) : s.AnsweredBy (s.infoMsg q) q (x.begins s q) ⟨1, 0, s.infoData⟩ := by
  have hrun : s.infoMsg q = s.request q (fun t _ => done t 1 0 t.infoData) := rfl
  have hdata := (s.begun_shown q x).1.infoData
  rw [hrun]
  exact (State.request_effect h (by rw [hdata]; rfl) (State.EffectOf.refl _) (State.begun_serves h).1 rfl rfl).2

theorem State.keepAliveMsg_shown (h : s.serves q x 0 = true) : s.AnsweredBy (s.keepAliveMsg q) q (x.begins s q) ⟨16, 0, []⟩ :=
  (State.request_effect h rfl (State.EffectOf.refl _) (State.begun_serves h).1 rfl rfl).2

/-- A served request that needs an authority, whose effect answers. -/
theorem State.withAuth_effect {u : State} {z : Session} {code need : Nat} {run : State → Session → Ran} {r : Resp}
    (h : s.serves q x need = true) (hneed : need ≠ 0) (hrun : run (s.begun q x) (x.begins s q) = ⟨u, some r⟩)
    (he : (s.begun q x).EffectOf u) (hz : u.dbg.sess.get q.sess = some z) (hlast : z.last = some q.seq.toNat) (htr : z.tr = q.tr) :
    u.AnswersIn (s.withAuth q code need run) q z r ∧ s.AnsweredBy (s.withAuth q code need run) q z r := by
  have hin := State.withAuth_answers (code := code) h hneed hrun hz (he.avail.trans (State.begun_serves h).2.1) hlast htr
  exact ⟨hin, hin.answeredBy h he⟩

theorem State.tokenMsg_shown (valid : Bool) (h : s.serves q x 3 = true) :
    s.AnsweredBy (s.tokenMsg q valid) q (x.begins s q) ⟨15, if valid then 0 else 2, []⟩ ∧
      (s.tokenMsg q valid).sec.token = (s.sec.token || valid) := by
  obtain ⟨hsess, -, hmail, -⟩ := State.begun_serves h
  have hz : ((s.begun q x).tokened valid).dbg.sess.get q.sess = some (x.begins s q) := hsess
  rw [State.tokenMsg_eq]
  obtain ⟨hin, hans⟩ := State.withAuth_effect (code := 15) (run := fun t _ => done (t.tokened valid) 15 (if valid then 0 else 2) []) h
    (by decide) rfl (State.effect_tokened _ _) hz rfl rfl
  refine ⟨hans, ?_⟩
  rw [hin.mail.rest]
  refine (State.tokened_token _ _).trans ?_
  rw [hmail.rest]

/-- A request whose tag fails is taken from its transport and discarded. -/
theorem State.request_badTag {run : State → Session → Ran} (hx : s.dbg.sess.get q.sess = some x) (hav : s.colbelAvail = true)
    (hw : s.waits q.tr = true) (htag : q.tagOk = false) : s.request q run = s.taken q.tr := by
  rw [State.request, hav, hw, hx]
  dsimp only
  rw [htag]
  rfl

/-- The record of a session whose last request is answered again. -/
def Session.repeats (x : Session) (s : State) (q : ColbelReq) : Session := { x with tr := q.tr.val, at_ := s.clock }

/-- A request with the SEQ of the last one is answered with the stored response. -/
theorem State.request_repeats {run : State → Session → Ran} {r : Resp} (hx : s.dbg.sess.get q.sess = some x)
    (hav : s.colbelAvail = true) (hw : s.waits q.tr = true) (htag : q.tagOk = true) (hlast : x.last = some q.seq.toNat)
    (hr : x.resp = some r) : s.request q run = ((s.taken q.tr).putSession q.sess (x.repeats s q)).send q.tr tySealed (some q.sess.val)
      (some q.seq.toNat) (.colbel q.tr q.sess q.seq.toNat r) := by
  obtain ⟨tr, auth, asked, last, resp, trace, at_, keys⟩ := x
  dsimp only at hlast hr
  subst hlast hr
  rw [State.request, hav, hw, hx]
  dsimp only
  rw [htag, beq_self_eq_true]
  rfl

theorem State.request_repeats_shown {run : State → Session → Ran} {r : Resp} (hx : s.dbg.sess.get q.sess = some x)
    (hav : s.colbelAvail = true) (hw : s.waits q.tr = true) (htag : q.tagOk = true) (hlast : x.last = some q.seq.toNat)
    (hr : x.resp = some r) : (s.request q run).outs = s.outs ++ [.colbel q.tr q.sess q.seq.toNat r] ∧
      (s.request q run).dbg.sess.get q.sess = some (x.repeats s q) ∧ s.MailOnly (s.request q run) := by
  rw [State.request_repeats hx hav hw htag hlast hr]
  obtain ⟨hmail, -, houts, -⟩ := s.taken_shown q.tr
  have hput := (s.taken q.tr).putSession_mail q.sess (x.repeats s q)
  obtain ⟨hsent, hsess, -, hout⟩ := ((s.taken q.tr).putSession q.sess (x.repeats s q)).send_shown q.tr tySealed (some q.sess.val)
    (some q.seq.toNat) (.colbel q.tr q.sess q.seq.toNat r)
  have houts' : ((s.taken q.tr).putSession q.sess (x.repeats s q)).outs = (s.taken q.tr).outs := rfl
  exact ⟨hout.trans (by rw [houts', houts]), by rw [hsess, State.sess_putSession], (hmail.trans hput).trans hsent⟩

end

/-! The end of a lock-out, and of a CAN FD message that does not come (R460, R463). -/

theorem State.lockoutEnd_unlocks {s : State} {t : Fin 3} (h : s.dbg.lockAt.get t + 15000000000 ≤ s.clock) :
    (s.lockoutEnd t).dbg.locked.get t = false ∧ s.lockoutEnd t = { s with dbg := (s.lockoutEnd t).dbg } := by
  unfold State.lockoutEnd tenSeconds
  rw [if_pos h]
  exact ⟨vget_set_self _ _ _, rfl⟩

theorem State.lockoutEnd_early {s : State} {t : Fin 3} (h : s.clock < s.dbg.lockAt.get t + 15000000000) : s.lockoutEnd t = s := by
  unfold State.lockoutEnd tenSeconds
  rw [if_neg (by omega)]

theorem State.canTimeout_late {s : State} {k : Fin 2} (h : s.dbg.segAt.get k + 150000000 ≤ s.clock) : s.canTimeout k = s.segDropped k := by
  rw [State.canTimeout, if_pos ((s.canLate_iff k).mpr h)]
  rfl

theorem State.canTimeout_early {s : State} {k : Fin 2} (h : s.clock < s.dbg.segAt.get k + 150000000) : s.canTimeout k = s := by
  rw [State.canTimeout, if_neg (fun hl => by have := (s.canLate_iff k).mp hl; omega)]

end Machine
end Sys2Proof
end

section
/-! PROOFS. Colbel: the end of a session, and the statement about transports and sessions (R465). -/

namespace Sys2Proof
namespace Machine

/-- No breakpoint of slice n is of session k. -/
def State.bpFree (s : State) (n : Slice) (k : Fin 4) : Bool := (s.dbg.bp.get n).toList.all (fun b => b.all (·.sess != k.val))

/-- No watchpoint of slice n is of session k. -/
def State.wpFree (s : State) (n : Slice) (k : Fin 4) : Bool := (s.dbg.wp.get n).toList.all (fun b => b.all (·.sess != k.val))

/-- Session k has no more pairs, break- and watchpoints in `t` than in `s`, and the cells are the same. -/
structure State.Releases (k : Fin 4) (s t : State) : Prop where
  attached : ∀ n, s.attachedTo n k = false → t.attachedTo n k = false
  bp : ∀ n, s.bpFree n k = true → t.bpFree n k = true
  wp : ∀ n, s.wpFree n k = true → t.wpFree n k = true
  cells : t.cells = s.cells

namespace State.Releases

variable {k : Fin 4} {s t u : State}

theorem refl (k : Fin 4) (s : State) : s.Releases k s := ⟨fun _ => id, fun _ => id, fun _ => id, rfl⟩

theorem trans (h : s.Releases k t) (g : t.Releases k u) : s.Releases k u where
  attached n := g.attached n ∘ h.attached n
  bp n := g.bp n ∘ h.bp n
  wp n := g.wp n ∘ h.wp n
  cells := g.cells.trans h.cells

/-- A change of what no field of `Releases` speaks of. -/
theorem elsewhere (h : s.Releases k t) (hu : (u.core, u.ctl, u.dbg.bp, u.dbg.wp, u.cells) = (t.core, t.ctl, t.dbg.bp, t.dbg.wp, t.cells)) :
    s.Releases k u := by
  simp only [Prod.mk.injEq] at hu
  obtain ⟨hcore, hctl, hbp, hwp, hcells⟩ := hu
  refine h.trans ⟨fun n => ?_, fun n => ?_, fun n => ?_, hcells⟩
  · unfold State.attachedTo State.coreOf State.ctlOf
    rw [hcore, hctl]
    exact id
  · unfold State.bpFree
    rw [hbp]
    exact id
  · unfold State.wpFree
    rw [hwp]
    exact id

theorem ite {c : Prop} [Decidable c] (h : s.Releases k t) (g : s.Releases k u) : s.Releases k (if c then t else u) := by
  split <;> assumption

theorem foldl {α : Type} (h : s.Releases k t) (l : List α) (f : State → α → State)
    (hf : ∀ u a, s.Releases k u → s.Releases k (f u a)) : s.Releases k (l.foldl f t) := foldl_keeps _ f l t h hf

/-! Cores and the control of slices. -/

theorem setCore (h : s.Releases k t) (p : Fin 13) (c : CoreSt) (hc : c.attached = (t.coreOf p).attached ∨ c.attached = none) :
    s.Releases k (t.setCore p c) := by
  refine h.trans ⟨fun n hn => ?_, fun _ => id, fun _ => id, rfl⟩
  rw [State.attachedTo, Bool.or_eq_false_iff] at hn ⊢
  obtain ⟨hatt, hheld⟩ := hn
  refine ⟨?_, hheld⟩
  rw [State.coreOf_setCore]
  split
  · next hp =>
    subst hp
    obtain hc | hc := hc
    · rw [hc]
      exact hatt
    · rw [hc]
      rfl
  · exact hatt

theorem unholds (h : s.Releases k t) (n : Fin 12) : s.Releases k (t.setCtl n { t.ctlOf n with attachHeld := none }) := by
  refine h.trans ⟨fun m hm => ?_, fun _ => id, fun _ => id, rfl⟩
  rw [State.attachedTo, Bool.or_eq_false_iff] at hm ⊢
  obtain ⟨hatt, hheld⟩ := hm
  refine ⟨hatt, ?_⟩
  rw [State.ctlOf_setCtl]
  split
  · rfl
  · exact hheld

theorem unattach (h : s.Releases k t) (n : Fin 12) : s.Releases k (t.unattach n) := by
  unfold State.unattach
  extract_lets d s1 c s2
  have h1 : s.Releases k s1 := h.elsewhere (by rfl)
  have h2 : s.Releases k s2 := h1.setCore _ _ (.inr rfl)
  exact (h2.unholds n).elsewhere (by rfl)

/-! Responses, watchdogs and halts. -/

theorem mbxPut (h : s.Releases k t) (ty : Nat) (sess seq : Option Nat) : s.Releases k (t.mbxPut ty sess seq) := by
  unfold State.mbxPut
  exact h.elsewhere (by rfl)

theorem send (h : s.Releases k t) (tr ty : Nat) (sess seq : Option Nat) (o : Out) : s.Releases k (t.send tr ty sess seq o) := by
  unfold State.send
  split
  · exact (h.mbxPut ty sess seq).elsewhere (by rfl)
  · exact h.elsewhere (by rfl)

theorem answer (h : s.Releases k t) (j seq : Nat) (r : Resp) : s.Releases k (t.answer j seq r) := by
  unfold State.answer
  split
  · refine h.ite (State.Releases.send ?_ _ _ _ _ _)
    exact h.elsewhere (by rfl)
  · exact h

theorem wdgResume (h : s.Releases k t) (e : Fin 13) : s.Releases k (t.wdgResume e) := by
  have hstart : s.Releases k (t.wdgStart e) := by
    unfold State.wdgStart
    split
    · exact h.elsewhere (by rfl)
    · exact h
  unfold State.wdgResume
  exact (hstart.elsewhere (by rfl)).ite h

theorem stepStop (h : s.Releases k t) (n : Fin 12) : s.Releases k (t.stepStop n) := by
  unfold State.stepStop
  split
  · exact State.Releases.answer (h.elsewhere (by rfl)) _ _ _
  · exact h

theorem dbgResume (h : s.Releases k t) (n : Fin 12) : s.Releases k (t.dbgResume n) := by
  unfold State.dbgResume
  extract_lets p s1
  have h1 : s.Releases k s1 := h.stepStop n
  clear_value s1
  have h2 : s.Releases k (s1.setCore p { s1.coreOf p with dbgHalt := false }) := h1.setCore _ _ (.inl rfl)
  exact (State.Releases.wdgResume (h2.elsewhere (by rfl)) _).ite (h.elsewhere (by rfl))

/-! Pins. -/

theorem edgeRecord (h : s.Releases k t) (n : Fin 12) (j : Fin 8) (out : Nat) (level : Bool) (now : Nat) :
    s.Releases k (t.edgeRecord n j out level now) := by
  unfold State.edgeRecord
  extract_lets f st len w seq s1 base
  exact h.ite ((h.elsewhere (by rfl)).ite (h.elsewhere (by rfl)))

theorem drive (h : s.Releases k t) (n : Fin 12) (j : Fin 8) (line now : Nat) : s.Releases k (t.drive n j line now) := by
  unfold State.drive
  dsimp only
  have h1 (p : PwmSt) : s.Releases k (t.setPw n j p) := h.elsewhere (by rfl)
  exact ((((h1 _).edgeRecord _ _ _ _ _).ite (h1 _)).edgeRecord _ _ _ _ _).ite (((h1 _).edgeRecord _ _ _ _ _).ite (h1 _))

theorem pins (h : s.Releases k t) (n : Fin 12) (j : Fin 8) : s.Releases k (t.pins n j) := by
  unfold State.pins State.pinsAt
  extract_lets line p s1 s2
  have h1 : s.Releases k s1 := h.elsewhere (by rfl)
  have h2 : s.Releases k s2 := (h1.elsewhere (by rfl)).ite h1
  exact h2.drive n j _ _

theorem pinsSlice (h : s.Releases k t) (n : Fin 12) : s.Releases k (t.pinsSlice n) := h.foldl _ _ (fun _ j hu => hu.pins n j)

/-! The perturbation units of the session. -/

theorem ptbEnd (h : s.Releases k t) (e cause : Nat) : s.Releases k (t.ptbEnd e cause) := by
  unfold State.ptbEnd
  extract_lets s1
  have h1 : s.Releases k s1 := h.elsewhere (by rfl)
  exact h1.ite (h1.elsewhere (by rfl))

theorem ptbSession (h : s.Releases k t) (j : Nat) : s.Releases k (t.ptbSession j) :=
  h.foldl _ _ (fun _ _ hu => (hu.ptbEnd _ _).ite hu)

end State.Releases

/-! The end of a session on one slice. -/

/-- What session k has halted on slice n goes on, and is detached. -/
def State.releaseAttached (t : State) (k : Fin 4) (n : Fin 12) : State :=
  let t0 := if t.haltedBy n k then t.dbgResume n else t
  if t0.attachedTo n k then t0.unattach n else t0

/-- Its break- and watchpoints on slice n are dropped. -/
def State.dropPoints (t : State) (k : Fin 4) (n : Fin 12) : State :=
  t.setDbg { t.dbg with
    bp := t.dbg.bp.set n ((t.dbg.bp.get n).map (fun (b : Option Bp) => b.filter (fun x => x.sess != k.val)))
    wp := t.dbg.wp.set n ((t.dbg.wp.get n).map (fun (b : Option Wp) => b.filter (fun x => x.sess != k.val))) }

/-- Its test outputs and its trace on slice n end. -/
def State.releaseOutputs (t2 : State) (k : Fin 4) (n : Fin 12) : State :=
  let t3 := if t2.dbg.outBy.get n == some k.val then
      ((t2.setReg (R.DBG_TESTOUT n) 0).setDbg { t2.dbg with outBy := t2.dbg.outBy.set n none }).pinsSlice n
    else t2
  if t3.getF (R.STP_CTRL n) F.STP_CTRL_DEST == 3 && t3.getF (R.STP_CTRL n) F.STP_CTRL_SESSION == k.val then
    t3.setF (R.STP_CTRL n) F.STP_CTRL_DEST 0
  else t3

/-- All three. -/
def State.leaveSlice (k : Fin 4) (t : State) (n : Fin 12) : State := ((t.releaseAttached k n).dropPoints k n).releaseOutputs k n

/-- What session k leaves on every slice. -/
def State.leaveSlices (s : State) (k : Fin 4) : State := (List.finRange 12).foldl (State.leaveSlice k) (s.ptbSession k)

/-- The record of session k is closed. -/
def State.closeSession (t : State) (k : Fin 4) : State := (t.setDbg { t.dbg with sess := t.dbg.sess.set k none }).showSessions

theorem State.endSession_eq {s : State} {k : Fin 4} {x : Session} (h : s.dbg.sess.get k = some x) :
    s.endSession k = (s.leaveSlices k).closeSession k := by
  unfold State.endSession
  split
  · next hnone => exact absurd (h.symm.trans hnone) (by simp)
  · extract_lets s1
    have hs1 : s1 = s.leaveSlices k := by
      refine congrArg (fun f => List.foldl f (s.ptbSession k) (List.finRange 12)) (funext fun t => funext fun n => ?_)
      extract_lets t0 t1 d2 t2 d3 t3
      have h1 : t.releaseAttached k n = t1 := rfl
      have h2 : t1.dropPoints k n = t2 := rfl
      rw [State.leaveSlice, h1, h2]
      rfl
    rw [← hs1]
    rfl

namespace State.Releases

variable {k : Fin 4} {s t : State}

theorem releaseAttached (h : s.Releases k t) (n : Fin 12) : s.Releases k (t.releaseAttached k n) := by
  unfold State.releaseAttached
  extract_lets t0
  have h0 : s.Releases k t0 := (h.dbgResume n).ite h
  exact (h0.unattach n).ite h0

end State.Releases

theorem State.attachedTo_unattach (s : State) (n : Fin 12) (k : Fin 4) : (s.unattach n).attachedTo n k = false := by
  unfold State.unattach
  extract_lets d s1 c s2
  have hcore : (s2.coreOf (pairOf n)).attached = none := congrArg CoreSt.attached (s1.coreOf_setCore_self _ _)
  have hctl : ((s2.setCtl n { s2.ctlOf n with attachHeld := none }).ctlOf n).attachHeld = none :=
    congrArg CtlSt.attachHeld (s2.ctlOf_setCtl_self _ _)
  rw [State.attachedTo, Bool.or_eq_false_iff]
  constructor
  · change ((s2.coreOf (pairOf n)).attached == some k.val) = false
    rw [hcore]
    rfl
  · change (((s2.setCtl n { s2.ctlOf n with attachHeld := none }).ctlOf n).attachHeld == some k.val) = false
    rw [hctl]
    rfl

theorem State.attachedTo_releaseAttached (t : State) (k : Fin 4) (n : Fin 12) : (t.releaseAttached k n).attachedTo n k = false := by
  unfold State.releaseAttached
  extract_lets t0
  split
  · exact t0.attachedTo_unattach n k
  · next hno => exact Bool.eq_false_iff.mpr hno

/-- Of the points that a filter leaves, none is of the session. -/
theorem all_filter_points {α : Type} {m : Nat} (v : Vector (Option α) m) (own : α → Bool) :
    ((v.map (fun b => b.filter own)).toList.all (fun b => b.all own)) = true := by
  rw [Vector.toList_map, List.all_map, List.all_eq_true]
  intro b _
  cases b with
  | none => rfl
  | some x =>
    rw [Function.comp_apply, Option.filter_some]
    split
    · next hx => exact hx
    · rfl

theorem State.dropPoints_free (t : State) (k : Fin 4) (n : Fin 12) : (t.dropPoints k n).bpFree n k = true ∧ (t.dropPoints k n).wpFree n k = true := by
  have hbp : (t.dropPoints k n).dbg.bp.get n = (t.dbg.bp.get n).map (fun b => b.filter (fun x => x.sess != k.val)) := vget_set_self _ _ _
  have hwp : (t.dropPoints k n).dbg.wp.get n = (t.dbg.wp.get n).map (fun b => b.filter (fun x => x.sess != k.val)) := vget_set_self _ _ _
  rw [State.bpFree, State.wpFree, hbp, hwp]
  exact ⟨all_filter_points _ _, all_filter_points _ _⟩

namespace State.Releases

variable {k : Fin 4} {s t : State}

theorem dropPoints (h : s.Releases k t) (n : Fin 12) : s.Releases k (t.dropPoints k n) := by
  obtain ⟨hbp, hwp⟩ := t.dropPoints_free k n
  refine h.trans ⟨fun _ => id, fun m hm => ?_, fun m hm => ?_, rfl⟩
  · by_cases hmn : m = n
    · rw [hmn]
      exact hbp
    · have hget : (t.dropPoints k n).dbg.bp.get m = t.dbg.bp.get m := vget_set_ne _ _ _ _ hmn
      rw [State.bpFree, hget]
      exact hm
  · by_cases hmn : m = n
    · rw [hmn]
      exact hwp
    · have hget : (t.dropPoints k n).dbg.wp.get m = t.dbg.wp.get m := vget_set_ne _ _ _ _ hmn
      rw [State.wpFree, hget]
      exact hm

theorem releaseOutputs (h : s.Releases k t) (n : Fin 12) : s.Releases k (t.releaseOutputs k n) := by
  unfold State.releaseOutputs
  extract_lets d t3
  have h3 : s.Releases k t3 := (State.Releases.pinsSlice (h.elsewhere (by rfl)) n).ite h
  exact (h3.elsewhere (by rfl)).ite h3

theorem leaveSlice (h : s.Releases k t) (n : Fin 12) : s.Releases k (State.leaveSlice k t n) :=
  ((h.releaseAttached n).dropPoints n).releaseOutputs n

end State.Releases

/-- Session k has nothing on slice n. -/
def State.FreeOf (s : State) (k : Fin 4) (n : Slice) : Prop := s.attachedTo n k = false ∧ s.bpFree n k = true ∧ s.wpFree n k = true

theorem State.FreeOf.of_releases {s t : State} {k : Fin 4} {n : Slice} (h : s.FreeOf k n) (hr : s.Releases k t) : t.FreeOf k n := by
  obtain ⟨hatt, hbp, hwp⟩ := h
  exact ⟨hr.attached n hatt, hr.bp n hbp, hr.wp n hwp⟩

theorem State.leaveSlice_free (t : State) (k : Fin 4) (n : Fin 12) : (State.leaveSlice k t n).FreeOf k n := by
  have hatt := t.attachedTo_releaseAttached k n
  obtain ⟨hbp, hwp⟩ := (t.releaseAttached k n).dropPoints_free k n
  have hfree : ((t.releaseAttached k n).dropPoints k n).FreeOf k n := ⟨((State.Releases.refl k _).dropPoints n).attached n hatt, hbp, hwp⟩
  exact hfree.of_releases ((State.Releases.refl k _).releaseOutputs n)

/-- After its end on each slice of a list, the session has nothing on any of them. -/
theorem State.leaveSlices_free (k : Fin 4) (n : Fin 12) (l : List (Fin 12)) (t : State) (hn : n ∈ l) :
    (l.foldl (State.leaveSlice k) t).FreeOf k n := by
  induction l generalizing t with
  | nil => exact absurd hn (List.not_mem_nil)
  | cons m l ih =>
    rw [List.foldl_cons]
    by_cases hl : n ∈ l
    · exact ih _ hl
    · obtain rfl : n = m := (List.mem_cons.mp hn).resolve_right hl
      exact (t.leaveSlice_free k n).of_releases ((State.Releases.refl k _).foldl l _ (fun _ _ hu => hu.leaveSlice _))

theorem State.endSession_shown {s : State} {k : Fin 4} {x : Session} (h : s.dbg.sess.get k = some x) :
    (s.endSession k).dbg.sess.get k = none ∧ (∀ n, (s.endSession k).FreeOf k n) ∧ (s.endSession k).cells = s.cells := by
  rw [State.endSession_eq h]
  have hrel : s.Releases k (s.leaveSlices k) := ((State.Releases.refl k s).ptbSession k).foldl _ _ (fun _ _ hu => hu.leaveSlice _)
  have hfree (n : Slice) : (s.leaveSlices k).FreeOf k n := State.leaveSlices_free k n (List.finRange 12) (s.ptbSession k) (List.mem_finRange n)
  generalize s.leaveSlices k = u at hrel hfree
  exact ⟨vget_set_self _ _ _, fun n => (hfree n).of_releases ((State.Releases.refl k u).elsewhere (by rfl)), hrel.cells⟩

/-! The statement. -/

/-- MBX_GO by a master that reaches it. -/
theorem State.write_mbxGo {s : State} {x : Access} {v : Word} (hr : s.reaches x mbxBase = true) (hboot : s.bootStopped = false)
    (hlo : 12 ≤ v.toNat % 2048) (hhi : v.toNat % 2048 ≤ 1920) (hfree : bit (s.reg (mbxBase + 4)) 31 = false) :
    (s.write x mbxBase v).reg (mbxBase + 4) = 0x80000000 ∧ (s.write x mbxBase v).dbg.inbox.get 0 = s.dbg.inbox.get 0 + 1 ∧
      (s.write x mbxBase v).cells = s.cells := by
  rw [s.write_of_reaches x mbxBase v hr, State.regWrite_mbxGo]
  have hrest := (s.breakResv_haltsKept (pairBy x.m) mbxBase).rest
  generalize s.breakResv (pairBy x.m) mbxBase = u at hrest ⊢
  have hboot' : u.bootStopped = false := by rw [hrest]; exact hboot
  have hfree' : bit (u.reg (mbxBase + 4)) 31 = false := by rw [hrest]; exact hfree
  have hinbox : u.dbg.inbox.get 0 = s.dbg.inbox.get 0 := by rw [hrest]
  have hcells : u.cells = s.cells := by rw [hrest]
  rw [State.mbxGo_takes hboot' hlo hhi hfree']
  exact ⟨u.reg_setReg_self _ _, ((u.setReg _ _).arrived_inbox 0).trans (congrArg (· + 1) hinbox), hcells⟩

theorem State.closeMsg_ends {s : State} {tr : Fin 3} {k : Fin 4} {x : Session} (h : s.dbg.sess.get k = some x) (hav : s.colbelAvail = true)
    (hw : s.waits tr = true) : (s.closeMsg tr k).dbg.sess.get k = none ∧ (∀ n, (s.closeMsg tr k).FreeOf k n) ∧
      (s.closeMsg tr k).cells = s.cells := by
  obtain ⟨hmail, hsess, -, -⟩ := s.taken_shown tr
  have hget : (s.taken tr).dbg.sess.get k = some x := by rw [hsess, h]
  rw [State.closeMsg, hav, hw, Bool.and_self, if_pos rfl]
  obtain ⟨hnone, hfree, hcells⟩ := State.endSession_shown hget
  exact ⟨hnone, hfree, hcells.trans hmail.cells⟩

theorem State.sessionTimeout_ends {s : State} {k : Fin 4} {x : Session} (h : s.dbg.sess.get k = some x) (hold : x.at_ + 15000000000 ≤ s.clock) :
    s.sessionTimeout k = s.endSession k := by
  rw [State.sessionTimeout, h]
  exact if_pos hold

theorem State.sessionTimeout_keeps {s : State} {k : Fin 4}
    (h : s.dbg.sess.get k = none ∨ (∃ x, s.dbg.sess.get k = some x ∧ s.clock < x.at_ + 15000000000)) : s.sessionTimeout k = s := by
  obtain h | ⟨x, hx, hnew⟩ := h
  · rw [State.sessionTimeout, h]
  · rw [State.sessionTimeout, hx]
    exact if_neg (by rw [tenSeconds]; omega)

/-- A segment that goes on with its message. -/
theorem State.canSegment_next {s : State} {k : Fin 2} {h : SegHead} {i : Nat} (hboot : s.bootStopped = false) (hrun : s.fastRuns = true)
    (hd : h.dir = false) (hn : i = 0 ∨ (s.dbg.segAt.get k + 150000000 > s.clock ∧ i = (s.dbg.seg.get k).getD 0)) (h30 : i ≤ 30)
    (hlast : h.last = false) : (s.canSegment k h i).dbg.seg.get k = some (i + 1) ∧ (s.canSegment k h i).dbg.inbox = s.dbg.inbox ∧
      (i = 0 → (s.canSegment k h i).dbg.segAt.get k = s.clock) ∧ s.canSegment k h i = { s with dbg := (s.canSegment k h i).dbg } := by
  rw [State.canSegment_eq hboot hrun hd, State.segWant_of_next hn h30, if_neg Bool.false_ne_true, hlast, if_neg Bool.false_ne_true]
  refine ⟨vget_set_self _ _ _, rfl, ?_, rfl⟩
  intro h0
  subst h0
  exact vget_set_self _ _ _

/-- A segment that ends its message. -/
theorem State.canSegment_last {s : State} {k : Fin 2} {h : SegHead} {i : Nat} (hboot : s.bootStopped = false) (hrun : s.fastRuns = true)
    (hd : h.dir = false) (hn : i = 0 ∨ (s.dbg.segAt.get k + 150000000 > s.clock ∧ i = (s.dbg.seg.get k).getD 0)) (h30 : i ≤ 30)
    (hlast : h.last = true) (hends : segEnds h.length.toNat i = true) : s.canSegment k h i = (s.segDropped k).arrived 2 := by
  rw [State.canSegment_eq hboot hrun hd, State.segWant_of_next hn h30, if_neg Bool.false_ne_true, if_pos hlast, if_pos hends]

/-- Settles O47: the mailbox and the other transports, HELLO and the authorities, the requests that need no pair, and the end of a
session, which leaves it nothing on any slice. -/
theorem colbelSessions : Obligations.ColbelSessions := by
  unfold Obligations.ColbelSessions
  refine ⟨?mbx, ?udp, ?next, ?last, ?drops, ?other, ?late, ?early, ?hello, ?locked, ?full, ?auth, ?sign, ?third, ?unlock, ?stillLocked,
    ?close, ?timeout, ?noTimeout, ?info, ?token, ?keep, ?badTag, ?again⟩
  case mbx =>
    intro s by_ v hr hboot hlo hhi hfree
    exact ⟨_, rfl, State.write_mbxGo hr hboot hlo hhi hfree⟩
  case udp =>
    intro s len hboot hclk hlo hhi
    refine ⟨_, rfl, ?_⟩
    rw [State.udpDatagram_arrives hboot hclk hlo hhi]
    exact ⟨s.arrived_inbox 1, s.arrived_only 1⟩
  case next =>
    intro s k h i hboot hrun hd hn h30 hlast
    obtain ⟨hseg, hinbox, hat, honly⟩ := State.canSegment_next hboot hrun hd hn h30 hlast
    exact ⟨_, rfl, hseg, hinbox, fun h0 => hat (by rw [h0]; rfl), honly⟩
  case last =>
    intro s k h i hboot hrun hd hn h30 hlast hends
    refine ⟨_, rfl, ?_⟩
    rw [State.canSegment_last hboot hrun hd hn h30 hlast hends]
    exact ⟨(s.segDropped_shown k).1, (s.segDropped k).arrived_inbox 2, rfl⟩
  case drops =>
    intro s k h i hboot hrun hd hbad
    refine ⟨_, rfl, ?_⟩
    rw [State.canSegment_drops hboot hrun hd (hbad.imp_left (fun hb => ⟨fun h0 => hb.1 (BitVec.eq_of_toNat_eq h0), hb.2⟩))]
    exact s.segDropped_shown k
  case other =>
    intro s k h i hd
    exact ⟨_, rfl, State.canSegment_other hd⟩
  case late =>
    intro s k h
    refine ⟨_, rfl, ?_⟩
    rw [State.canTimeout_late h]
    exact s.segDropped_shown k
  case early =>
    intro s k h
    exact ⟨_, rfl, State.canTimeout_early h⟩
  case hello =>
    intro s m k hw hav hl hboot hk
    refine ⟨_, rfl, ?_⟩
    rw [State.helloMsg_opens hw hav hboot hl hk]
    obtain ⟨nonce, key, sig, i, hsess, houts, hinbox, hcells⟩ := s.helloOpens_shown m k
    rw [hsess]
    exact ⟨rfl, rfl, ⟨nonce, key, sig, i, houts, rfl⟩, hinbox, hcells⟩
  case locked =>
    intro s m hw hav hboot hl
    refine ⟨_, rfl, ?_⟩
    rw [State.helloMsg_locked hw hav hboot hl]
    exact s.helloError_shown m.tr 2
  case full =>
    intro s m hw hav hboot hl hfull
    refine ⟨_, rfl, ?_⟩
    rw [State.helloMsg_full hw hav hboot hl hfull]
    exact s.helloError_shown m.tr 1
  case auth =>
    intro s q x b h
    obtain ⟨hsess, houts, hcells⟩ := State.authMsg_shown b h
    refine ⟨_, rfl, ?_, ?_, ?_, ?_, hcells⟩
    · rw [hsess]
      rfl
    · rw [hsess]
      rfl
    · rw [hsess]
      rfl
    · rw [houts, List.length_append]
      rfl
  case sign =>
    intro s q x k want h hask hwr hrev hkey hallow
    obtain ⟨hans, hrefused⟩ := State.authSign_grants h hask hwr hrev hkey hallow
    exact ⟨_, rfl, by rw [hans.sess]; rfl, hans.answered rfl, hrefused, hans.cells⟩
  case third =>
    intro s q x k want h _ hthird
    obtain ⟨hans, hlock, hcount⟩ := State.authSign_refuses k h hthird
    exact ⟨_, rfl, by rw [hans.sess]; rfl, hans.answered rfl, hlock, hcount, hans.cells⟩
  case unlock =>
    intro s tr h
    exact ⟨_, rfl, State.lockoutEnd_unlocks h⟩
  case stillLocked =>
    intro s tr h
    exact ⟨_, rfl, State.lockoutEnd_early h⟩
  case close =>
    intro s tr k x h hav hw
    obtain ⟨hnone, hfree, hcells⟩ := State.closeMsg_ends h hav hw
    exact ⟨_, rfl, hnone, fun n => (hfree n).1, fun n => (hfree n).2.1, hcells⟩
  case timeout =>
    intro s k x h hold
    obtain ⟨hnone, hfree, hcells⟩ := State.endSession_shown h
    refine ⟨_, rfl, ?_⟩
    rw [State.sessionTimeout_ends h hold]
    exact ⟨hnone, fun n => (hfree n).1, fun n => (hfree n).2.2, hcells⟩
  case noTimeout =>
    intro s k h
    exact ⟨_, rfl, State.sessionTimeout_keeps h⟩
  case info =>
    intro s q x h
    have hans := State.infoMsg_shown h
    exact ⟨_, rfl, hans.answered rfl, hans.cells⟩
  case token =>
    intro s q x b h
    obtain ⟨hans, htoken⟩ := State.tokenMsg_shown b h
    exact ⟨_, rfl, htoken, hans.answered rfl, hans.cells⟩
  case keep =>
    intro s q x h
    have hans := State.keepAliveMsg_shown h
    exact ⟨_, rfl, hans.answered rfl, hans.cells⟩
  case badTag =>
    intro s q x hx hav hw htag
    obtain ⟨hmail, hsess, houts, -⟩ := s.taken_shown q.tr
    refine ⟨_, rfl, ?_⟩
    rw [State.keepAliveMsg, State.request_badTag hx hav hw htag]
    exact ⟨houts, hsess, hmail.cells⟩
  case again =>
    intro s q x r hx hav hw htag hlast hr
    obtain ⟨houts, hsess, hmail⟩ := State.request_repeats_shown hx hav hw htag hlast hr
    exact ⟨_, rfl, houts, hsess, hmail.core, hmail.cells⟩

end Machine
end Sys2Proof
end

section
/-! PROOFS. A STEP of a pair in WFE whose one latched message has its target where MBX_STAT stands (R219, R469). -/

namespace Sys2Proof
namespace Machine

/-- The route whose target register would be MBX_STAT. -/
def mailboxRoute : Nat := 1024 + (mbxBase + 4 - R.EVR_GTGT 0) / 0x10

/-- The pair of slice 1 halted by the debugger in WFE before a NOP; session 0 of authority DEBUG open, and a message waiting in the
mailbox. One route is latched, whose target is read from MBX_STAT and is pair 1. -/
def waitingBeforeNop : State :=
  let s0 := (W.mon 1).setCore 1 { resetCore with r := W.regs, halted := false, dbgHalt := true, wfe := true, attached := some 0 }
  let s1 := (s0.setProgWord 1 8 0x3000).setF (R.SLC_STATE 1) F.SLC_STATE_STATE slRunning
  let s2 := (s1.setReg (mbxBase + 4) 0x40000001).setRoute mailboxRoute ⟨.pending, true, mailboxRoute, 1, 0, 0, 0⟩
  s2.setDbg { s2.dbg with inbox := #v[1, 0, 0] }

theorem waitingBeforeNop_meets : waitingBeforeNop.serves ⟨0, 5, true, 0⟩ (W.sess 1) 1 = true ∧
    waitingBeforeNop.fitted 1 = true ∧ waitingBeforeNop.dbg.steps.get 1 = none ∧ (waitingBeforeNop.coreOf (pairOf 1)).dbgHalt = true ∧
    waitingBeforeNop.pairRuns (pairOf 1) true = true ∧ waitingBeforeNop.atBoundary (pairOf 1) = true ∧
    (waitingBeforeNop.setCore (pairOf 1) { waitingBeforeNop.coreOf (pairOf 1) with dbgHalt := false }).issues (pairOf 1)
      ⟨.nop, 0, 0, 0, 0⟩ = true := by
  decide +kernel

/-- The request is taken from the mailbox, which shows DONE: the pair waits for its message again, and nothing is answered. -/
theorem waitingBeforeNop_silent : (waitingBeforeNop.stepMsg ⟨0, 5, true, 0⟩ (pairOf 1) 1 false).outs = [] := by
  decide +kernel

/-- Refutes O48, by the clause of STEP: it asks that the pair in WFE is awake before the request is taken. A route beyond the last
has its target register in the mailbox, and taking the request through the mailbox changes it. -/
theorem not_colbelDebugging : ¬ Obligations.ColbelDebugging := by
  unfold Obligations.ColbelDebugging
  rintro ⟨-, -, -, -, -, -, -, hstep, -⟩
  obtain ⟨hserves, hfitted, hsteps, hhalt, hruns, hat, hissues⟩ := waitingBeforeNop_meets
  obtain ⟨t, ht, -, hanswered, -⟩ := hstep waitingBeforeNop ⟨0, 5, true, 0⟩ (W.sess 1) 1 ⟨.nop, 0, 0, 0, 0⟩ hserves hfitted hsteps hhalt
    hruns hat hissues rfl
  have hnext : waitingBeforeNop.stepMsg ⟨0, 5, true, 0⟩ (pairOf 1) 1 false = t := Host.Outcome.next.inj ht
  obtain ⟨hlast, -⟩ := hanswered
  rw [← hnext, waitingBeforeNop_silent] at hlast
  exact absurd hlast (by simp)

end Machine
end Sys2Proof
end

section
/-! PROOFS. The canonical form: sparse maps, outcomes, choices and folds (R298). -/

namespace Sys2Proof
namespace Machine

/-- A change of what the canonical form does not speak of. -/
theorem State.Canonical.elsewhere {s t : State} (h : s.Canonical) (e : (t.regs, t.cells, t.prog, t.mstore, t.mcopy, t.flc.words, t.flc.info,
    t.evr.routes, t.evr.batches) = (s.regs, s.cells, s.prog, s.mstore, s.mcopy, s.flc.words, s.flc.info, s.evr.routes, s.evr.batches)) :
    t.Canonical := by
  simp only [Prod.mk.injEq] at e
  obtain ⟨hregs, hcells, hprog, hmstore, hmcopy, hwords, hinfo, hroutes, hbatches⟩ := e
  exact ⟨hregs ▸ h.regs, hcells ▸ h.cells, hprog ▸ h.prog, hmstore ▸ h.mstore, hmcopy ▸ h.mcopy, hwords ▸ h.words, hinfo ▸ h.info,
    hroutes ▸ h.routes, hbatches ▸ h.batches⟩

theorem State.Canonical.ite {s t : State} {c : Prop} [Decidable c] (h : s.Canonical) (k : t.Canonical) : (if c then s else t).Canonical := by
  split <;> assumption

theorem State.Canonical.dite {c : Prop} [Decidable c] {s : c → State} {t : ¬c → State} (h : ∀ hc, (s hc).Canonical)
    (k : ∀ hc, (t hc).Canonical) : (if hc : c then s hc else t hc).Canonical := by
  split
  · exact h _
  · exact k _

theorem State.Canonical.foldl {α : Type} {s : State} (h : s.Canonical) (l : List α) (f : State → α → State)
    (hf : ∀ u a, u.Canonical → (f u a).Canonical) : (l.foldl f s).Canonical := foldl_keeps State.Canonical f l s h hf

/-- Whatever an instruction of a pair comes to, its state is canonical. -/
def Kr.Canonical {α : Type} : Kr α → Prop
  | .ok t _ => t.Canonical
  | .fault t _ _ => t.Canonical
  | .stall t => t.Canonical

namespace Kr.Canonical

variable {α β : Type} {s : State}

theorem ok (h : s.Canonical) (v : α) : (Kr.ok s v).Canonical := h
theorem fault (h : s.Canonical) (c e : Nat) : (Kr.fault (α := α) s c e).Canonical := h
theorem stall (h : s.Canonical) : (Kr.stall (α := α) s).Canonical := h

theorem andThen {x : Kr α} (h : x.Canonical) {f : State → α → Kr β} (hf : ∀ t v, t.Canonical → (f t v).Canonical) : (x.andThen f).Canonical := by
  cases x with
  | ok t v => exact hf t v h
  | fault t c e => exact h
  | stall t => exact h

theorem ite {x y : Kr α} {c : Prop} [Decidable c] (h : x.Canonical) (k : y.Canonical) : (if c then x else y).Canonical := by
  split <;> assumption

theorem dite {c : Prop} [Decidable c] {x : c → Kr α} {y : ¬c → Kr α} (h : ∀ hc, (x hc).Canonical) (k : ∀ hc, (y hc).Canonical) :
    (if hc : c then x hc else y hc).Canonical := by
  split
  · exact h _
  · exact k _

end Kr.Canonical

/-! Outcomes with a state in them. -/

theorem State.Canonical.of_fst {α : Type} {x : State × α} (h : x.1.Canonical) {t : State} {v : α} (e : x = (t, v)) : t.Canonical := by
  subst e; exact h

theorem Kr.Canonical.of_snd {α β : Type} {x : α × Kr β} (h : x.2.Canonical) {a : α} {r : Kr β} (e : x = (a, r)) : r.Canonical := by
  subst e; exact h

theorem Kr.Canonical.of_eq {α : Type} {x : Kr α} (h : x.Canonical) {r : Kr α} (e : x = r) : r.Canonical := e ▸ h

theorem State.Canonical.iteFst {α : Type} {c : Prop} [Decidable c] {x y : State × α} (h : x.1.Canonical) (k : y.1.Canonical) :
    (if c then x else y).1.Canonical := by
  split <;> assumption

theorem State.Canonical.iteRan {c : Prop} [Decidable c] {x y : Ran} (h : x.st.Canonical) (k : y.st.Canonical) :
    (if c then x else y).st.Canonical := by
  split <;> assumption

theorem State.Canonical.iteCell {c : Prop} [Decidable c] {x y : CellRead} (h : x.st.Canonical) (k : y.st.Canonical) :
    (if c then x else y).st.Canonical := by
  split <;> assumption

theorem State.Canonical.iteDesc {c : Prop} [Decidable c] {x y : DescOut} (h : x.st.Canonical) (k : y.st.Canonical) :
    (if c then x else y).st.Canonical := by
  split <;> assumption

theorem State.Canonical.iteEnd {c : Prop} [Decidable c] {x y : CmdEnd} (h : x.st.Canonical) (k : y.st.Canonical) :
    (if c then x else y).st.Canonical := by
  split <;> assumption

theorem State.Canonical.iteDma {α : Type} {c : Prop} [Decidable c] {x y : DmaStep α} (h : x.st.Canonical) (k : y.st.Canonical) :
    (if c then x else y).st.Canonical := by
  split <;> assumption

/-! Sparse maps put together from lists (R298). -/

section

variable {α : Type}

theorem SMap.risingFrom_iff (m : List (Nat × α)) (lo : Nat) :
    SMap.risingFrom lo m = true ↔ (∀ e ∈ m, lo ≤ e.1) ∧ m.Pairwise (fun x y => x.1 < y.1) := by
  induction m generalizing lo with
  | nil => simp [SMap.risingFrom]
  | cons e t ih =>
    simp only [SMap.risingFrom, Bool.and_eq_true, decide_eq_true_eq, ih, List.forall_mem_cons, List.pairwise_cons]
    constructor
    · rintro ⟨hlo, habove, ht⟩
      exact ⟨⟨hlo, fun x hx => by have := habove x hx; omega⟩, habove, ht⟩
    · rintro ⟨⟨hlo, -⟩, habove, ht⟩
      exact ⟨hlo, habove, ht⟩

theorem SMap.wf_iff [DecidableEq α] (d : Nat → α) (m : List (Nat × α)) :
    SMap.wf d m = true ↔ m.Pairwise (fun x y => x.1 < y.1) ∧ ∀ e ∈ m, e.2 ≠ d e.1 := by
  simp [SMap.wf, SMap.risingFrom_iff]

/-- Entries put in the place of those whose key lies in block `n` of `u` keys. -/
theorem SMap.wf_splice [DecidableEq α] (d : Nat → α) (u n : Nat) {m new : List (Nat × α)} (h : SMap.wf d m = true)
    (hnew : SMap.wf d new = true) (hn : ∀ e ∈ new, e.1 / u = n) :
    SMap.wf d (m.filter (fun e => decide (e.1 / u < n)) ++ new ++ m.filter (fun e => decide (n < e.1 / u))) = true := by
  have lt_of_div {x y : Nat} (hxy : x / u < y / u) : x < y := Nat.lt_of_not_le fun hle => Nat.not_lt.mpr (Nat.div_le_div_right hle) hxy
  rw [SMap.wf_iff] at *
  obtain ⟨hm, hd⟩ := h
  obtain ⟨hr, hv⟩ := hnew
  simp only [List.pairwise_append, List.mem_append, List.mem_filter, decide_eq_true_eq]
  refine ⟨⟨⟨hm.filter _, hr, ?_⟩, hm.filter _, ?_⟩, ?_⟩
  · rintro x ⟨-, hx⟩ y hy
    exact lt_of_div ((hn y hy).symm ▸ hx)
  · rintro x (⟨-, hx⟩ | hx) y ⟨-, hy⟩
    · exact lt_of_div (hx.trans hy)
    · exact lt_of_div ((hn x hx).symm ▸ hy)
  · rintro e ((⟨he, -⟩ | he) | ⟨he, -⟩)
    · exact hd e he
    · exact hv e he
    · exact hd e he

/-- A list of consecutive keys without the zeros. -/
theorem SMap.wf_listed {w : Nat} (base k : Nat) (f : Nat → BitVec w) :
    SMap.wf (fun _ => (0 : BitVec w)) ((List.range k).filterMap (fun i => if f i = 0 then none else some (base + i, f i))) = true := by
  rw [SMap.wf_iff]
  constructor
  · refine List.Pairwise.filterMap _ (fun i j hij x hx y hy => ?_) (List.pairwise_lt_range)
    simp only [Option.ite_none_left_eq_some, Option.some.injEq] at hx hy
    obtain ⟨-, rfl⟩ := hx
    obtain ⟨-, rfl⟩ := hy
    exact Nat.add_lt_add_left hij base
  · intro e he
    obtain ⟨i, -, hi⟩ := List.mem_filterMap.mp he
    simp only [Option.ite_none_left_eq_some, Option.some.injEq] at hi
    obtain ⟨hz, rfl⟩ := hi
    exact hz

theorem SMap.mem_listed {w : Nat} {base k : Nat} {f : Nat → BitVec w} {e : Nat × BitVec w}
    (he : e ∈ (List.range k).filterMap (fun i => if f i = 0 then none else some (base + i, f i))) : base ≤ e.1 ∧ e.1 < base + k := by
  obtain ⟨i, hk, hi⟩ := List.mem_filterMap.mp he
  simp only [Option.ite_none_left_eq_some, Option.some.injEq] at hi
  obtain ⟨-, rfl⟩ := hi
  have := List.mem_range.mp hk
  dsimp only
  omega

theorem putProg_wf {p : Nat} {new m : List (Nat × PWord)} (h : SMap.wf (fun _ => (0 : PWord)) m = true)
    (hnew : SMap.wf (fun _ => (0 : PWord)) new = true) (hn : ∀ e ∈ new, e.1 / 2 ^ 17 = p) :
    SMap.wf (fun _ => (0 : PWord)) (putProg p new m) = true := SMap.wf_splice _ _ _ h hnew hn

theorem putSlice_wf {n : Nat} {new m : List (Nat × MWord)} (h : SMap.wf (fun _ => (0 : MWord)) m = true)
    (hnew : SMap.wf (fun _ => (0 : MWord)) new = true) (hn : ∀ e ∈ new, e.1 / 4096 = n) :
    SMap.wf (fun _ => (0 : MWord)) (putSlice n new m) = true := SMap.wf_splice _ _ _ h hnew hn

theorem mem_ofSlice {n lim : Nat} {m : List (Nat × MWord)} {e : Nat × MWord} (he : e ∈ ofSlice n lim m) :
    e.1 / 4096 = n ∧ e.1 % 4096 < lim := by
  simpa using (List.mem_filter.mp he).2

theorem ofSlice_wf {m : List (Nat × MWord)} (h : SMap.wf (fun _ => (0 : MWord)) m = true) (n lim : Nat) :
    SMap.wf (fun _ => (0 : MWord)) (ofSlice n lim m) = true := SMap.wf_filter _ _ m h

theorem putPage_wf (a : Nat) (ws : List Word) {m : List (Nat × Word)} (h : SMap.wf (fun _ => (0xFFFFFFFF : Word)) m = true) :
    SMap.wf (fun _ => (0xFFFFFFFF : Word)) (putPage a ws m) = true := by
  induction ws generalizing a m with
  | nil => exact h
  | cons w ws ih => exact ih _ (SMap.wf_put _ m a w h)

theorem State.mcodeOf_wf (s : State) (bank n : Nat) (c : Section) (skip k at_ : Nat) :
    SMap.wf (fun _ => (0 : MWord)) (s.mcodeOf bank n c skip k at_) = true := SMap.wf_listed (4096 * n + at_) k _

theorem State.mem_mcodeOf {s : State} {bank n : Nat} {c : Section} {skip k at_ : Nat} {e : Nat × MWord}
    (he : e ∈ s.mcodeOf bank n c skip k at_) : 4096 * n + at_ ≤ e.1 ∧ e.1 < 4096 * n + at_ + k := SMap.mem_listed he

theorem State.progOf_wf (s : State) (bank p : Nat) (c : Section) : SMap.wf (fun _ => (0 : PWord)) (s.progOf bank p c) = true :=
  SMap.wf_listed (2 ^ 17 * p) _ _

theorem State.mem_progOf {s : State} {bank p : Nat} {c : Section} {e : Nat × PWord} (he : e ∈ s.progOf bank p c) :
    2 ^ 17 * p ≤ e.1 ∧ e.1 < 2 ^ 17 * p + min (progLen p) (c.len / 2) := SMap.mem_listed he

end

/-- The vendor's microcode as it stands, and the customer's behind it. -/
theorem vendorThen_wf {s : State} {bank n : Nat} {c : Section} {skip k : Nat} {m : List (Nat × MWord)}
    (h : SMap.wf (fun _ => (0 : MWord)) m = true) :
    SMap.wf (fun _ => (0 : MWord)) (ofSlice n 0x800 m ++ s.mcodeOf bank n c skip k 0x800) = true := by
  have hv := ofSlice_wf h n 0x800
  have hc := s.mcodeOf_wf bank n c skip k 0x800
  rw [SMap.wf_iff] at *
  obtain ⟨hm, hd⟩ := hv
  obtain ⟨hr, hw⟩ := hc
  refine ⟨List.pairwise_append.mpr ⟨hm, hr, fun x hx y hy => ?_⟩, fun e he => (List.mem_append.mp he).elim (hd e) (hw e)⟩
  have := mem_ofSlice hx
  have := State.mem_mcodeOf hy
  omega

theorem mem_vendorThen {s : State} {bank n : Nat} {c : Section} {skip l : Nat} {m : List (Nat × MWord)} {e : Nat × MWord}
    (he : e ∈ ofSlice n 0x800 m ++ s.mcodeOf bank n c skip (min 0x800 l) 0x800) : e.1 / 4096 = n := by
  rcases List.mem_append.mp he with h | h
  · exact (mem_ofSlice h).1
  · have := State.mem_mcodeOf h
    omega

theorem State.Canonical.setBatch {s : State} (h : s.Canonical) (g : Nat) (b : Batch) :
    State.Canonical { s with evr := { s.evr with batches := SMap.put (fun _ => noBatch) s.evr.batches g b } } :=
  { h with routes := h.routes, batches := SMap.wf_put _ s.evr.batches g b h.batches }

theorem State.Canonical.setWords {s : State} (h : s.Canonical) {ws : List (Nat × Word)}
    (hw : SMap.wf (fun _ => (0xFFFFFFFF : Word)) ws = true) : (s.setFlc { s.flc with words := ws }).Canonical :=
  { h with words := hw, info := h.info }

theorem State.Canonical.setInfo {s : State} (h : s.Canonical) (k : Nat) (b : BlkInfo) :
    (s.setFlc { s.flc with info := SMap.put (fun _ => resetBlk) s.flc.info k b }).Canonical :=
  { h with words := h.words, info := SMap.wf_put _ s.flc.info k b h.info }

theorem State.Canonical.withStores {s : State} (h : s.Canonical) {store copy : List (Nat × MWord)}
    (hs : SMap.wf (fun _ => (0 : MWord)) store = true) (hc : SMap.wf (fun _ => (0 : MWord)) copy = true) :
    State.Canonical { s with mstore := store, mcopy := copy } := { h with mstore := hs, mcopy := hc }

end Machine
end Sys2Proof
end

section
/-! PROOFS. The canonical form: the router, the gorge, converters and PWM. -/

namespace Sys2Proof
namespace Machine

/-! Counters, outputs and random words. -/

theorem State.Canonical.countWrap {s : State} (h : s.Canonical) (a : Nat) (f : Fld) : (s.countWrap a f).Canonical :=
  h.setF _ _ _

theorem State.Canonical.countBy {s : State} (h : s.Canonical) (a : Nat) (f : Fld) (k : Nat) : (s.countBy a f k).Canonical :=
  h.setF _ _ _

theorem State.Canonical.emit {s : State} (h : s.Canonical) (o : Out) : (s.emit o).Canonical :=
  h.elsewhere (by rfl)

theorem State.Canonical.portFault {s : State} (h : s.Canonical) (p : Fin 4) : (s.portFault p).1.Canonical := by
  unfold State.portFault
  extract_lets e f c old
  exact ((h.elsewhere (by rfl)).iteFst (h.elsewhere (by rfl))).iteFst h

theorem State.Canonical.sendFrame {s : State} (h : s.Canonical) (p : Fin 4) (fr : PwyFrame) : (s.sendFrame p fr).Canonical := by
  unfold State.sendFrame
  split
  next t _ e =>
    have ht : t.Canonical := State.Canonical.of_fst (h.portFault _) e
    exact ht.emit _
  next t e =>
    have ht : t.Canonical := State.Canonical.of_fst (h.portFault _) e
    exact ht

theorem State.Canonical.fresh {s : State} (h : s.Canonical) : (s.fresh).Canonical :=
  h.elsewhere (by rfl)

/-! The event router. -/

theorem State.Canonical.fireRoute {s : State} (h : s.Canonical) (r carried k : Nat) (fired : Word) :
    (s.fireRoute r carried k fired).Canonical := by
  unfold State.fireRoute
  refine .ite h ?_
  extract_lets rt
  split
  · exact h.setRoute _ _
  · exact h.setRoute _ _
  · exact (h.count _ _).setRoute _ _

theorem State.Canonical.closeBatch {s : State} (h : s.Canonical) (g : Nat) : (s.closeBatch g).Canonical := by
  unfold State.closeBatch
  exact .ite h (((h.setBatch g noBatch).setF _ _ _).fireRoute _ _ _ _)

theorem State.Canonical.batchTimeout {s : State} (h : s.Canonical) (g : Nat) : (s.batchTimeout g).Canonical := by
  unfold State.batchTimeout
  extract_lets t b
  exact (h.closeBatch _).ite h

theorem State.Canonical.joinBatch {s : State} (h : s.Canonical) (g src : Nat) : (s.joinBatch g src).Canonical := by
  unfold State.joinBatch
  extract_lets b b' old s1 s2 c
  have h2 : s2.Canonical := (h.setBatch g b').setF _ _ _
  exact (h2.closeBatch _).ite h2

theorem State.Canonical.waitsEnd {s : State} (h : s.Canonical) (src fired : Nat) (on : Nat → Bool) :
    (s.waitsEnd src fired on).Canonical := by
  unfold State.waitsEnd
  refine h.foldl _ _ (fun t e h1 => ?_)
  refine .ite h1 ?_
  refine h1.foldl _ _ (fun u c h1' => ?_)
  extract_lets d a u1
  have hu1 : u1.Canonical := (h1'.setF _ _ _).ite h1'
  split
  · exact ((hu1.elsewhere (by rfl)).setReg _ _).ite h1'
  · exact h1'

theorem State.Canonical.fireReach {s : State} (h : s.Canonical) (src at_ : Nat) (mt : BitVec 64) : (s.fireReach src at_ mt).Canonical := by
  unfold State.fireReach
  extract_lets old s1
  have h1 : s1.Canonical := h.elsewhere (by rfl)
  exact (h1.joinBatch _ _).ite (h1.ite (h1.fireRoute _ _ _ _))

theorem State.Canonical.fire {s : State} (h : s.Canonical) (src : Nat) : (s.fire src).Canonical := by
  unfold State.fire
  refine .ite ?_ h
  extract_lets s1 old
  have h1 : s1.Canonical := by
    unfold s1
    split
    · exact h.waitsEnd _ _ _
    · exact h
  split
  · exact h1.fireReach _ _ _
  · exact h1.elsewhere (by rfl)

theorem State.Canonical.lateFires {s : State} (h : s.Canonical) : (s.lateFires).Canonical := by
  unfold State.lateFires
  split
  · exact h
  · exact (h.elsewhere (by rfl)).foldl _ _ (fun _ _ h1 => h1.fireReach _ _ _)

theorem State.Canonical.fireLocal {s : State} (h : s.Canonical) (n x : Nat) : (s.fireLocal n x).Canonical :=
  h.fire _

theorem State.Canonical.fireIf {s : State} (h : s.Canonical) (b : Bool) (src : Nat) : (s.fireIf b src).Canonical :=
  (h.fire _).ite h

theorem State.Canonical.showOrphans {s : State} (h : s.Canonical) : (s.showOrphans).Canonical := by
  unfold State.showOrphans
  extract_lets h'
  exact ((h.setReg _ _).setReg _ _).setF _ _ _

theorem State.Canonical.orphan {s : State} (h : s.Canonical) (src : Nat) (t : RouteTgt) : (s.orphan src t).Canonical := by
  unfold State.orphan
  extract_lets w0 w1 s1 old s2
  have h1 : s1.Canonical := by
    unfold s1
    split
    · exact (h.setF _ _ _).count _ _
    · exact h
  have h2 : s2.Canonical := h1.elsewhere (by rfl)
  exact ((h1.count _ _).setF _ _ _).ite ((h2.showOrphans.setF _ _ _).fire _)

theorem State.Canonical.levelCheck {s : State} (h : s.Canonical) (src : Nat) : (s.levelCheck src).Canonical :=
  (h.fireRoute _ _ _ _).ite h

theorem State.Canonical.orphanRoute {s : State} (h : s.Canonical) (r : Nat) (t : RouteTgt) : (s.orphanRoute r t).Canonical :=
  ((h.setRoute _ _).orphan _ _).levelCheck _

theorem State.Canonical.staleRoute {s : State} (h : s.Canonical) (r : Nat) : (s.staleRoute r).Canonical := by
  unfold State.staleRoute
  extract_lets t s1
  have h1 : s1.Canonical := h.setF _ _ _
  exact (h1.orphanRoute _ _).ite h1

theorem State.Canonical.staleTarget {s : State} (h : s.Canonical) (kind : Nat) (hit : Nat → Bool) : (s.staleTarget kind hit).Canonical :=
  h.foldl _ _ (fun _ _ h1 => h1.staleRoute _)

theorem State.Canonical.staleVectorsOf {s : State} (h : s.Canonical) (n : Nat) : (s.staleVectorsOf n).Canonical :=
  h.foldl _ _ (fun _ _ h1 => h1.staleRoute _)

theorem State.Canonical.dropRoutesTo {s : State} (h : s.Canonical) (n : Nat) : (s.dropRoutesTo n).Canonical :=
  h.foldl _ _ (fun _ _ h1 => h1.setRoute _ _)

theorem State.Canonical.latch {s : State} (h : s.Canonical) (r : Nat) : (s.latch r).Canonical := by
  unfold State.latch
  extract_lets rt t
  exact ((h.orphanRoute _ _).ite ((h.setRoute _ _).ite (h.setRoute _ _))).ite h

theorem State.Canonical.deliver {s : State} (h : s.Canonical) (r : Nat) : (s.deliver r).Canonical := by
  unfold State.deliver
  extract_lets rt i s1
  have h1 : s1.Canonical := h.setRoute _ _
  exact h1.ite ((h1.setF _ _ _).setF _ _ _)

theorem State.Canonical.sendOff {s : State} (h : s.Canonical) (r : Nat) : (s.sendOff r).Canonical := by
  unfold State.sendOff
  extract_lets rt s1
  have h1 : s1.Canonical := h.setRoute _ _
  exact (h1.levelCheck _).ite ((h1.setF _ _ _).setF _ _ _)

theorem State.Canonical.complete {s : State} (h : s.Canonical) (r : Nat) : (s.complete r).Canonical := by
  unfold State.complete
  extract_lets rt level old
  exact (h.setRoute _ _).ite ((h.setRoute _ _).ite (h.setRoute _ _))

theorem State.Canonical.ack {s : State} (h : s.Canonical) (p src : Nat) : (s.ack p src).Canonical := by
  unfold State.ack
  split
  · exact h.complete _
  · exact h.count _ _

theorem State.Canonical.lineLevel {s : State} (h : s.Canonical) (src : Nat) (level : Bool) : (s.lineLevel src level).Canonical := by
  unfold State.lineLevel
  refine .ite ?_ h
  extract_lets old s1
  have h1 : s1.Canonical := h.elsewhere (by rfl)
  split
  · exact h1.fireIf _ _
  · exact h1.fireIf _ _
  · exact h1.fire _
  · exact (h1.fire _).ite ((h1.setRoute _ _).ite h1)

theorem State.Canonical.levelTo {s : State} (h : s.Canonical) (n : Nat) : (s.levelTo n).Canonical :=
  h.foldl _ _ (fun _ _ h1 => h1.levelCheck _)

theorem State.Canonical.evrRefuse {s : State} (h : s.Canonical) : (s.evrRefuse).Canonical :=
  h.count _ _

theorem State.Canonical.writeSrc {s : State} (h : s.Canonical) (m : Master) (src : Nat) (v : Word) : (s.writeSrc m src v).Canonical := by
  unfold State.writeSrc
  extract_lets g used nameOk
  exact ((h.setReg _ _).levelCheck _).ite h.evrRefuse

theorem State.Canonical.unlatch {s : State} (h : s.Canonical) (r : Nat) : (s.unlatch r).Canonical :=
  (h.setRoute _ _).ite h

theorem State.Canonical.writeTgt {s : State} (h : s.Canonical) (m : Master) (src : Nat) (v : Word) : (s.writeTgt m src v).Canonical := by
  unfold State.writeTgt
  extract_lets k i
  exact (((h.setReg _ _).unlatch _).levelCheck _).ite h.evrRefuse

theorem State.Canonical.writeGTgt {s : State} (h : s.Canonical) (m : Master) (g : Nat) (v : Word) : (s.writeGTgt m g v).Canonical := by
  unfold State.writeGTgt
  extract_lets k i
  exact ((h.setReg _ _).unlatch _).ite h.evrRefuse

theorem State.Canonical.writeGCfg {s : State} (h : s.Canonical) (m : Master) (g : Nat) (v : Word) : (s.writeGCfg m g v).Canonical :=
  (h.setReg _ _).ite h.evrRefuse

theorem State.Canonical.ackWrite {s : State} (h : s.Canonical) (m : Master) (p src : Nat) : (s.ackWrite m p src).Canonical :=
  (h.ack _ _).ite h

theorem State.Canonical.evrDevWrite {s : State} (h : s.Canonical) (m : Master) (a : Nat) (v : Word) : (s.evrDevWrite m a v).Canonical := by
  unfold State.evrDevWrite
  extract_lets o
  refine .ite (h.setReg _ _) ?_
  refine .ite (h.ackWrite _ _ _) ?_
  refine .ite ?_ (((h.writeGCfg _ _ _).ite ((h.writeGTgt _ _ _).ite h)).ite h)
  split
  · exact h.evrRefuse
  · exact h.ite ((h.writeSrc _ _ _).ite (h.writeTgt _ _ _))

theorem State.Canonical.evrLocalWrite {s : State} (h : s.Canonical) (m : Master) (n : Nat) (a : Nat) (v : Word) :
    (s.evrLocalWrite m n a v).Canonical := by
  unfold State.evrLocalWrite
  extract_lets o
  exact ((h.writeSrc _ _ _).ite (h.writeTgt _ _ _)).ite ((h.ackWrite _ _ _).ite ((h.setReg _ _).ite h))

theorem State.Canonical.orphanPop {s : State} (h : s.Canonical) : (s.orphanPop).Canonical :=
  (h.elsewhere (by rfl)).showOrphans

/-! Descriptors in flight. -/

theorem State.Canonical.setFn {s : State} (h : s.Canonical) (f : Fin 16) (x : FnSt) : (s.setFn f x).Canonical :=
  (h.elsewhere (by rfl)).setF _ _ _

theorem State.Canonical.sendWords {s : State} (h : s.Canonical) (f : Nat) (m addr : Nat) (ws : List Word) (k : Nat) :
    (s.sendWords f m addr ws k).Canonical := by
  induction k generalizing s addr ws with
  | zero => exact h
  | succ k ih =>
    unfold State.sendWords
    exact (h.emit _).ite (ih (h.emit _) _ _)

theorem State.Canonical.toHost {s : State} (h : s.Canonical) (f : Fin 16) (addr : Nat) (ws : List Word) : (s.toHost f addr ws).Canonical :=
  (h.sendWords _ _ _ _ _).ite h

theorem State.Canonical.notePtb {s : State} (h : s.Canonical) : (s.notePtb).Canonical :=
  h.elsewhere (by rfl)

theorem State.Canonical.descFinish {s : State} (h : s.Canonical) (f : Fin 16) (k status : Nat) (result : BitVec 64) :
    (s.descFinish f k status result).Canonical := by
  unfold State.descFinish
  extract_lets x
  split
  · exact h.setFn _ _
  · exact h

theorem State.Canonical.descEndWith {s : State} (h : s.Canonical) (g : Flight → Option (Nat × BitVec 64)) : (s.descEndWith g).Canonical :=
  h.foldl _ _ (fun _ _ h1 => h1.ite (h1.setFn _ _))

theorem State.Canonical.descFinishAll {s : State} (h : s.Canonical) (p : Flight → Bool) (status : Nat) (result : BitVec 64) :
    (s.descFinishAll p status result).Canonical :=
  h.descEndWith _

theorem State.Canonical.descDone {s : State} (h : s.Canonical) (a : Await) (status : Nat) (result : Nat) :
    (s.descDone a status result).Canonical :=
  h.descFinishAll _ _ _

theorem State.Canonical.descEvent {s : State} (h : s.Canonical) (src at_ : Nat) (time : BitVec 64) : (s.descEvent src at_ time).Canonical :=
  h.descFinishAll _ _ _

theorem State.Canonical.descNext {s : State} (h : s.Canonical) (a b : Await) : (s.descNext a b).Canonical :=
  h.elsewhere (by rfl)

theorem State.Canonical.captureDone {s : State} (h : s.Canonical) (n cause : Nat) : (s.captureDone n cause).Canonical := by
  unfold State.captureDone
  extract_lets mine ws s1
  have h1 : s1.Canonical := h.foldl _ _ (fun _ _ h1 => h1.foldl _ _ (fun _ _ h2 => (h2.toHost _ _ _).ite h2))
  exact h1.descDone _ _ _

theorem State.Canonical.crcDone {s : State} (h : s.Canonical) (n : Nat) (crc : Word) : (s.crcDone n crc).Canonical :=
  h.descEndWith _

theorem State.Canonical.xferDone {s : State} (h : s.Canonical) (e c status : Nat) : (s.xferDone e c status).Canonical :=
  h.descDone _ _ _

theorem State.Canonical.descHold {s : State} (h : s.Canonical) (n : Nat) : (s.descHold n).Canonical := by
  unfold State.descHold
  extract_lets stop
  exact h.elsewhere (by rfl)

theorem State.Canonical.descReplay {s : State} (h : s.Canonical) (n : Nat) : (s.descReplay n).Canonical :=
  h.elsewhere (by rfl)

theorem State.Canonical.descFail {s : State} (h : s.Canonical) (n : Nat) : (s.descFail n).Canonical :=
  h.descFinishAll _ _ _

theorem State.Canonical.descDisown {s : State} (h : s.Canonical) (n o : Nat) : (s.descDisown n o).Canonical :=
  h.foldl _ _ (fun _ _ h1 => h1.ite (h1.setFn _ _))

theorem State.Canonical.descHanded {s : State} (h : s.Canonical) (mask : BitVec 12) : (s.descHanded mask).Canonical :=
  h.foldl _ _ (fun _ _ h1 => h1.ite (h1.setFn _ _))

/-! Gorge windows. -/

theorem State.Canonical.setWin {s : State} (h : s.Canonical) (n i : Fin 12) (w : WinSt) : (s.setWin n i w).Canonical :=
  h.elsewhere (by rfl)

theorem State.Canonical.showWin {s : State} (h : s.Canonical) (n i : Fin 12) : (s.showWin n i).Canonical := by
  unfold State.showWin
  extract_lets a old st s1 s2 s3 s4 s5 s6 s7 old'
  have h1 : s1.Canonical := h.setF _ _ _
  have h2 : s2.Canonical := (h1.setB _ _ _).setB _ _ _
  have h3 : s3.Canonical := h2.setB _ _ _
  have h4 : s4.Canonical := h3.setF _ _ _
  have h5 : s5.Canonical := h4.setF _ _ _
  have h6 : s6.Canonical := h5.setF _ _ _
  have h7 : s7.Canonical := (h6.count _ _).ite h6
  exact h7.ite (h7.setWin _ _ _)

theorem State.Canonical.showWins {s : State} (h : s.Canonical) (n : Fin 12) : (s.showWins n).Canonical :=
  h.foldl _ _ (fun _ _ h1 => h1.showWin _ _)

theorem State.Canonical.checkThr {s : State} (h : s.Canonical) (n i : Fin 12) : (s.checkThr n i).Canonical :=
  h.ite (h.setB _ _ _)

theorem State.Canonical.unsettle {s : State} (h : s.Canonical) (n i : Fin 12) : (s.unsettle n i).Canonical :=
  (h.setWin _ _ _).showWin _ _

theorem State.Canonical.testStart {s : State} (h : s.Canonical) (n i : Fin 12) : (s.testStart n i).Canonical := by
  unfold State.testStart
  split
  · exact (h.elsewhere (by rfl)).setWin _ _ _

theorem State.Canonical.testMoved {s : State} (h : s.Canonical) (n i : Fin 12) : (s.testMoved n i).Canonical := by
  unfold State.testMoved
  refine .ite h ?_
  split
  · extract_lets w
    exact h.setWin _ _ _

theorem State.Canonical.halfSwitch {s : State} (h : s.Canonical) (n i : Fin 12) (high set : Bool) :
    (s.halfSwitch n i high set).Canonical := by
  unfold State.halfSwitch
  extract_lets c w
  refine .ite h ?_
  exact .ite (h.ite ((h.setWin _ _ _).showWin _ _)) (h.ite ((((h.setWin _ _ _).showWin _ _).ite h).ite
    (((h.setWin _ _ _).showWin _ _).ite h)))

theorem State.Canonical.settlingEnd {s : State} (h : s.Canonical) (n i : Fin 12) (hi lo : Option Bool) :
    (s.settlingEnd n i hi lo).Canonical := by
  unfold State.settlingEnd
  extract_lets c w w1 w2 w3
  exact h.ite ((h.setWin _ _ _).showWin _ _)

theorem State.Canonical.overrange {s : State} (h : s.Canonical) (n i : Fin 12) (beyond : Bool) : (s.overrange n i beyond).Canonical :=
  h.ite (((h.setWin _ _ _).setF _ _ _).ite (h.setWin _ _ _))

theorem State.Canonical.thrSwitch {s : State} (h : s.Canonical) (n i : Fin 12) (high : Bool) : (s.thrSwitch n i high).Canonical := by
  unfold State.thrSwitch
  extract_lets w
  exact .ite (((((h.setWin _ _ _).checkThr _ _).testMoved _ _).showWin _ _).ite h)
    (((((h.setWin _ _ _).checkThr _ _).testMoved _ _).showWin _ _).ite h)

theorem State.Canonical.grgRefuse {s : State} (h : s.Canonical) (n : Nat) : (s.grgRefuse n).Canonical :=
  h.count _ _

theorem State.Canonical.grgWcfg {s : State} (h : s.Canonical) (n i : Fin 12) (v : Word) : (s.grgWcfg n i v).Canonical := by
  unfold State.grgWcfg
  extract_lets a en was halves w hiOn loOn s1
  have h1 : s1.Canonical := (((h.setReg _ _).checkThr _ _).setWin _ _ _).testMoved _ _
  exact (h.grgRefuse _).ite ((h1.unsettle _ _).ite (h1.showWin _ _))

theorem State.Canonical.grgIn {s : State} (h : s.Canonical) (n i : Fin 12) (v : Word) : (s.grgIn n i v).Canonical := by
  unfold State.grgIn
  extract_lets a chg s1
  have h1 : s1.Canonical := (h.setF _ _ _).ite h
  exact (h.grgRefuse _).ite ((((h1.setF _ _ _).testMoved _ _).unsettle _ _).ite h1)

theorem State.Canonical.grgThr {s : State} (h : s.Canonical) (n i : Fin 12) (v : Word) : (s.grgThr n i v).Canonical := by
  unfold State.grgThr
  extract_lets st old
  exact (h.grgRefuse _).ite ((h.setReg _ _).setWin _ _ _)

theorem State.Canonical.grgTest {s : State} (h : s.Canonical) (n i : Fin 12) (v : Word) : (s.grgTest n i v).Canonical := by
  unfold State.grgTest
  extract_lets a sel msk cur curMsk s1
  have h1 : s1.Canonical := h.setReg _ _
  refine .ite ((h.setF _ _ _).count _ _) ?_
  exact .ite (((h1.checkThr _ _).testStart _ _).showWin _ _) (((h1.checkThr _ _).unsettle _ _).ite (h1.showWin _ _))

theorem State.Canonical.swapSides {s : State} (h : s.Canonical) (n i : Fin 12) (hi lo : Option Bool) : (s.swapSides n i hi lo).Canonical :=
  h.ite ((h.setWin _ _ _).showWin _ _)

theorem State.Canonical.capAim {s : State} (h : s.Canonical) (n : Fin 12) (c : Fin 4) : (s.capAim n c).Canonical := by
  unfold State.capAim
  extract_lets x l
  exact h.elsewhere (by rfl)

theorem State.Canonical.grgCapsel {s : State} (h : s.Canonical) (n : Fin 12) (v : Word) : (s.grgCapsel n v).Canonical :=
  (h.grgRefuse _).ite ((h.setReg _ _).foldl _ _ (fun _ _ h1 => h1.ite (h1.capAim _ _)))

theorem State.Canonical.endTests {s : State} (h : s.Canonical) (n : Fin 12) : (s.endTests n).Canonical :=
  h.foldl _ _ (fun _ _ h1 => (((h1.setF _ _ _).checkThr _ _).unsettle _ _).ite h1)

theorem State.Canonical.grgWrite {s : State} (h : s.Canonical) (n : Fin 12) (a : Nat) (v : Word) : (s.grgWrite n a v).Canonical := by
  unfold State.grgWrite
  extract_lets o
  refine .ite (h.grgCapsel _ _) ?_
  refine .dite (fun hc => ?_) (fun hc => ?_)
  · extract_lets i
    split
    · exact h.grgIn _ _ _
    · exact h.grgThr _ _ _
    · exact h.grgWcfg _ _ _
    · exact h.grgTest _ _ _
    · exact h.setReg _ _
    · exact h
  · exact h

theorem State.Canonical.grgReset {s : State} (h : s.Canonical) (n : Fin 12) : (s.grgReset n).Canonical := by
  unfold State.grgReset
  extract_lets old
  have hold : old.Canonical := h.resetRegs _ _
  exact hold.elsewhere (by rfl)

/-! Converter triggers. -/

theorem State.Canonical.setCtl {s : State} (h : s.Canonical) (n : Fin 12) (c : CtlSt) : (s.setCtl n c).Canonical :=
  h.elsewhere (by rfl)

theorem State.Canonical.noteSkip {s : State} (h : s.Canonical) (n : Fin 12) (j : Fin 16) : (s.noteSkip n j).Canonical := by
  unfold State.noteSkip
  extract_lets c
  exact h.setCtl _ _

theorem State.Canonical.setSr {s : State} (h : s.Canonical) (n : Fin 12) (k : Fin 4) (x : SarSt) : (s.setSr n k x).Canonical :=
  h.elsewhere (by rfl)

theorem State.Canonical.sarFlag {s : State} (h : s.Canonical) (n k : Nat) (f : Fld) : (s.sarFlag n k f).Canonical := by
  unfold State.sarFlag
  extract_lets a
  exact h.ite ((h.setF _ _ _).fireLocal _ _)

theorem State.Canonical.sarStart {s : State} (h : s.Canonical) (n : Fin 12) (k : Fin 4) : (s.sarStart n k).Canonical :=
  (h.setSr _ _ _).setF _ _ _

theorem State.Canonical.sarMissed {s : State} (h : s.Canonical) (n : Fin 12) (k e : Nat) : (s.sarMissed n k e).Canonical := by
  unfold State.sarMissed
  split
  · exact (h.noteSkip _ _).ite h
  · exact h

theorem State.Canonical.sarIgnored {s : State} (h : s.Canonical) (n : Fin 12) (k : Nat) : (s.sarIgnored n k).Canonical :=
  (h.foldl _ _ (fun _ _ h1 => h1.sarMissed _ _ _)).ite h

theorem State.Canonical.sarPend {s : State} (h : s.Canonical) (n : Fin 12) (k : Fin 4) (m : Nat) : (s.sarPend n k m).Canonical := by
  unfold State.sarPend
  extract_lets st dropped s1
  have h1 : s1.Canonical := h.ite (h.setF _ _ _)
  exact h1.ite ((h1.countBy _ _ _).sarFlag _ _ _)

theorem State.Canonical.sarTrig {s : State} (h : s.Canonical) (n : Fin 12) (k : Fin 4) (sw : Bool) (extra : Nat) :
    (s.sarTrig n k sw extra).Canonical := by
  unfold State.sarTrig
  extract_lets x ovr s1 old
  have h1 : s1.Canonical := h.sarStart _ _
  refine .ite (h.sarIgnored _ _) ?_
  exact .ite (((h.sarStart _ _).sarPend _ _ _).ite ((h1.setSr _ _ _).countBy _ _ _)) ((h.countBy _ _ _).ite (h.sarPend _ _ _))

theorem State.Canonical.sarEvent {s : State} (h : s.Canonical) (n : Fin 12) (k e : Nat) : (s.sarEvent n k e).Canonical :=
  h.foldl _ _ (fun _ _ h1 => (h1.sarTrig _ _ _ _).ite h1)

/-! PWM channels. -/

theorem State.Canonical.setPw {s : State} (h : s.Canonical) (n : Fin 12) (k : Fin 8) (p : PwmSt) : (s.setPw n k p).Canonical :=
  h.elsewhere (by rfl)

theorem State.Canonical.loadCmp {s : State} (h : s.Canonical) (n k c : Nat) : (s.loadCmp n k c).Canonical := by
  unfold State.loadCmp
  extract_lets c' s1
  have h1 : s1.Canonical := h.setReg _ _
  exact (h1.setF _ _ _).ite h1

theorem State.Canonical.loadPer {s : State} (h : s.Canonical) (n k : Nat) : (s.loadPer n k).Canonical :=
  h.setReg _ _

theorem State.Canonical.reclamp {s : State} (h : s.Canonical) (n k : Nat) : (s.reclamp n k).Canonical := by
  unfold State.reclamp
  extract_lets c
  exact (h.loadCmp _ _ _).ite h

theorem State.Canonical.loadDt {s : State} (h : s.Canonical) (n k : Nat) : (s.loadDt n k).Canonical :=
  h.setReg _ _

theorem State.Canonical.setPos {s : State} (h : s.Canonical) (n : Fin 12) (k : Fin 8) (u : Nat) (fall : Bool) :
    (s.setPos n k u fall).Canonical := by
  unfold State.setPos
  extract_lets old s1
  have h1 : s1.Canonical := h.setPw _ _ _
  exact h1.setReg _ _

theorem State.Canonical.pwmEvent {s : State} (h : s.Canonical) (n : Fin 12) (k : Fin 8) (e : Fin 4) : (s.pwmEvent n k e).Canonical := by
  unfold State.pwmEvent
  extract_lets p o x
  exact (((h.setPw _ _ _).fireLocal _ _).sarEvent _ _ _).ite (h.setPw _ _ _)

theorem State.Canonical.edgeRecord {s : State} (h : s.Canonical) (n : Fin 12) (k : Fin 8) (out : Nat) (level : Bool) (now : Nat) :
    (s.edgeRecord n k out level now).Canonical := by
  unfold State.edgeRecord
  extract_lets f st len w seq s1 base t ptb
  have h1 : s1.Canonical := h.elsewhere (by rfl)
  exact h.ite ((h1.count _ _).ite ((h1.emit _).setF _ _ _))

theorem State.Canonical.drive {s : State} (h : s.Canonical) (n : Fin 12) (k : Fin 8) (line now : Nat) :
    (s.drive n k line now).Canonical := by
  unfold State.drive
  extract_lets p
  split
  · extract_lets offA offB a b s1 s2
    have h1 : s1.Canonical := h.setPw _ _ _
    have h2 : s2.Canonical := (h1.edgeRecord _ _ _ _ _).ite h1
    exact (h2.edgeRecord _ _ _ _ _).ite h2

theorem State.Canonical.pinsAt {s : State} (h : s.Canonical) (n : Fin 12) (k : Fin 8) (now : Nat) : (s.pinsAt n k now).Canonical := by
  unfold State.pinsAt
  extract_lets line p s1 s2
  have h1 : s1.Canonical := h.setF _ _ _
  have h2 : s2.Canonical := (h1.setPw _ _ _).ite h1
  exact h2.drive _ _ _ _

theorem State.Canonical.pins {s : State} (h : s.Canonical) (n : Fin 12) (k : Fin 8) : (s.pins n k).Canonical :=
  h.pinsAt _ _ _

theorem State.Canonical.pinsSlice {s : State} (h : s.Canonical) (n : Fin 12) : (s.pinsSlice n).Canonical :=
  h.foldl _ _ (fun _ _ h1 => h1.pins _ _)

theorem State.Canonical.pinsAll {s : State} (h : s.Canonical) : (s.pinsAll).Canonical :=
  h.foldl _ _ (fun _ _ h1 => h1.pinsSlice _)

theorem State.Canonical.setOuts {s : State} (h : s.Canonical) (n : Fin 12) (k : Fin 8) (a b : Bool) (now : Nat) :
    (s.setOuts n k a b now).Canonical :=
  ((h.setB _ _ _).setB _ _ _).pinsAt _ _ _

theorem State.Canonical.changePhase {s : State} (h : s.Canonical) (n : Fin 12) (k : Fin 8) (late : Option Nat) :
    (s.changePhase n k late).Canonical := by
  unfold State.changePhase
  extract_lets st toB s1 s2 ev swallowed p s3 now offA offB wait s4 s5
  have h1 : s1.Canonical := h.setF _ _ _
  have h2 : s2.Canonical := (h1.setF _ _ _).ite h1
  have h3 : s3.Canonical := h2.setB _ _ _
  have h4 : s4.Canonical := h3.setPw _ _ _
  have h5 : s5.Canonical := h4.setB _ _ _
  exact (((h2.setF _ _ _).count _ _).pwmEvent _ _ _).ite ((h5.setOuts _ _ _ _ _).pwmEvent _ _ _)

theorem State.Canonical.phaseChange {s : State} (h : s.Canonical) (n : Fin 12) (k : Fin 8) : (s.phaseChange n k).Canonical :=
  (h.changePhase _ _ _).ite h

theorem State.Canonical.deadTimeEnd {s : State} (h : s.Canonical) (n : Fin 12) (k : Fin 8) : (s.deadTimeEnd n k).Canonical := by
  unfold State.deadTimeEnd
  extract_lets p b t
  exact h.ite (((h.setPw _ _ _).setF _ _ _).setOuts _ _ _ _ _)

theorem State.Canonical.stageTurnOn {s : State} (h : s.Canonical) (n : Fin 12) (k : Fin 8) : (s.stageTurnOn n k).Canonical :=
  h.drive _ _ _ _

theorem State.Canonical.latchTrip {s : State} (h : s.Canonical) (n : Fin 12) (k : Fin 8) (req : Word) :
    (s.latchTrip n k req).Canonical := by
  unfold State.latchTrip
  extract_lets st src s1 s2 s3 s4
  have h1 : s1.Canonical := (h.setF _ _ _).setF _ _ _
  have h2 : s2.Canonical := h1.setF _ _ _
  have h3 : s3.Canonical := (h2.setReg _ _).setReg _ _
  have h4 : s4.Canonical := h3.count _ _
  exact h.ite ((h.setReg _ _).ite ((h4.fireLocal _ _).pins _ _))

theorem State.Canonical.tripLatch {s : State} (h : s.Canonical) (n : Fin 12) (k : Fin 8) : (s.tripLatch n k).Canonical :=
  h.latchTrip _ _ _

theorem State.Canonical.rearm {s : State} (h : s.Canonical) (n : Fin 12) (k : Fin 8) : (s.rearm n k).Canonical := by
  unfold State.rearm
  extract_lets p s1
  have h1 : s1.Canonical := h.setPw _ _ _
  exact ((h1.latchTrip _ _ _).pins _ _).ite ((h1.pins _ _).ite ((h1.setF _ _ _).pins _ _))

theorem State.Canonical.reload {s : State} (h : s.Canonical) (n k : Nat) (valley : Bool) : (s.reload n k valley).Canonical := by
  unfold State.reload
  extract_lets m cmp dt s1 s2
  have h1 : s1.Canonical := (h.loadPer _ _).ite h
  have h2 : s2.Canonical := (h1.loadCmp _ _ _).ite ((h1.reclamp _ _).ite h1)
  exact (h2.loadDt _ _).ite h2

theorem State.Canonical.syncCheck {s : State} (h : s.Canonical) (n : Fin 12) : (s.syncCheck n).Canonical :=
  h.foldl _ _ (fun _ _ h1 => (h1.setF _ _ _).ite h1)

theorem State.Canonical.syncCorrect {s : State} (h : s.Canonical) (n : Fin 12) (k : Fin 8) : (s.syncCorrect n k).Canonical := by
  unfold State.syncCorrect
  extract_lets st per cm
  split
  · exact h
  · extract_lets d s1 s2 u s2' old hold p
    have h1 : s1.Canonical := h.setF _ _ _
    have h2 : s2.Canonical := (h1.setF _ _ _).count _ _
    have h2' : s2'.Canonical := h2.setPos _ _ _ _
    exact (h1.setF _ _ _).ite ((h2.ite (h2'.setPw _ _ _)).ite (h2.setPw _ _ _))

theorem State.Canonical.valley {s : State} (h : s.Canonical) (n : Fin 12) (k : Fin 8) (correct : Bool) :
    (s.valley n k correct).Canonical := by
  unfold State.valley
  extract_lets s1 s2 s3 s4 s5
  have h1 : s1.Canonical := h.setPos _ _ _ _
  have h2 : s2.Canonical := h1.setF _ _ _
  have h3 : s3.Canonical := (h2.reload _ _ _).syncCheck _
  have h4 : s4.Canonical := (h3.syncCorrect _ _).ite h3
  have h5 : s5.Canonical := h4.rearm _ _
  exact h5.pwmEvent _ _ _

theorem State.Canonical.pwmValley {s : State} (h : s.Canonical) (n : Fin 12) (k : Fin 8) : (s.pwmValley n k).Canonical :=
  (h.valley _ _ _).ite h

theorem State.Canonical.pwmPeriod {s : State} (h : s.Canonical) (n : Fin 12) (k : Fin 8) : (s.pwmPeriod n k).Canonical :=
  ((((h.setPos _ _ _ _).setF _ _ _).reload _ _ _).pwmEvent _ _ _).ite h

theorem State.Canonical.immediate {s : State} (h : s.Canonical) (n : Fin 12) (k : Fin 8) : (s.immediate n k).Canonical := by
  unfold State.immediate
  extract_lets p
  split
  · exact h
  · refine .ite h ?_
    extract_lets s1 fall tgtA
    have h1 : s1.Canonical := (h.setPw _ _ _).loadCmp _ _ _
    exact h1.ite ((h1.changePhase _ _ _).ite ((h1.setF _ _ _).ite h1))

theorem State.Canonical.counterRestart {s : State} (h : s.Canonical) (n : Fin 12) (k : Fin 8) : (s.counterRestart n k).Canonical := by
  unfold State.counterRestart
  extract_lets p st s1 s2 s3 s4 d per s5 s6 q s7 s8
  have h1 : s1.Canonical := h.loadPer _ _
  have h2 : s2.Canonical := (h1.loadCmp _ _ _).loadDt _ _
  have h3 : s3.Canonical := h2.setPw _ _ _
  have h4 : s4.Canonical := h3.syncCheck _
  have h5 : s5.Canonical := h4.setPos _ _ _ _
  have h6 : s6.Canonical := h5.setF _ _ _
  have h7 : s7.Canonical := ((((h6.setPw _ _ _).setF _ _ _).setB _ _ _).setOuts _ _ _ _ _).ite h6
  have h8 : s8.Canonical := h7.setB _ _ _
  exact h.ite ((((h8.syncCorrect _ _).rearm _ _).pwmEvent _ _ _).ite ((h8.pwmEvent _ _ _).ite h8))

theorem State.Canonical.tripCmd {s : State} (h : s.Canonical) (n : Fin 12) (k : Fin 8) : (s.tripCmd n k).Canonical :=
  (h.latchTrip _ _ _).ite h

theorem State.Canonical.tripClear {s : State} (h : s.Canonical) (n : Fin 12) (k : Fin 8) : (s.tripClear n k).Canonical := by
  unfold State.tripClear
  extract_lets st req old s1
  have h1 : s1.Canonical := h.setPw _ _ _
  refine .ite h ?_
  exact .ite (((h.latchTrip _ _ _).setF _ _ _).count _ _) ((((h1.setF _ _ _).setReg _ _).setF _ _ _).pins _ _)

theorem State.Canonical.pwmRefuse {s : State} (h : s.Canonical) (n k : Nat) : (s.pwmRefuse n k).Canonical :=
  h.count _ _

theorem State.Canonical.showArmed {s : State} (h : s.Canonical) (n : Nat) : (s.showArmed n).Canonical :=
  h.foldl _ _ (fun _ _ h1 => h1.setB _ _ _)

theorem State.Canonical.tripEnWrite {s : State} (h : s.Canonical) (n : Fin 12) (k : Fin 8) (v : Word) :
    (s.tripEnWrite n k v).Canonical := by
  unfold State.tripEnWrite
  extract_lets a old refused w s1
  have h1 : s1.Canonical := h.foldl _ _ (fun _ _ h1 => (h1.setF _ _ _).count _ _)
  exact (h.pwmRefuse _ _).ite ((h1.setReg _ _).showArmed _)

theorem State.Canonical.tripCfgWrite {s : State} (h : s.Canonical) (n : Fin 12) (k : Fin 8) (v : Word) : (s.tripCfgWrite n k v).Canonical :=
  (h.pwmRefuse _ _).ite ((((h.setReg _ _).setPw _ _ _).ite (h.setReg _ _)).pins _ _)

theorem State.Canonical.tripCmdWrite {s : State} (h : s.Canonical) (n : Fin 12) (k : Fin 8) (v : Word) :
    (s.tripCmdWrite n k v).Canonical := by
  unfold State.tripCmdWrite
  refine .ite (h.pwmRefuse _ _) ?_
  extract_lets force s1
  have h1 : s1.Canonical := (h.tripCmd _ _).ite h
  exact (((h1.setF _ _ _).count _ _).ite (h1.tripClear _ _)).ite h1

theorem State.Canonical.stageCmp {s : State} (h : s.Canonical) (n : Fin 12) (k : Fin 8) (v : Nat) (half : Bool) :
    (s.stageCmp n k v half).Canonical := by
  unfold State.stageCmp
  extract_lets p
  exact (h.setPw _ _ _).ite h

theorem State.Canonical.shadowWrite {s : State} (h : s.Canonical) (n : Fin 12) (k : Fin 8) (a : Nat) (v : Word) :
    (s.shadowWrite n k a v).Canonical :=
  .ite ((h.pwmRefuse _ _).ite (h.setReg _ _)) (((h.pwmRefuse _ _).ite ((h.setReg _ _).stageCmp _ _ _ _)).ite
    ((h.pwmRefuse _ _).ite (h.setReg _ _)))

theorem State.Canonical.ctrlWrite {s : State} (h : s.Canonical) (n : Fin 12) (k : Fin 8) (v : Word) : (s.ctrlWrite n k v).Canonical := by
  unfold State.ctrlWrite
  extract_lets a bad was en chg s1 old p s2 st s3
  have h1 : s1.Canonical := (h.setReg _ _).syncCheck _
  have h2 : s2.Canonical := (h1.setPw _ _ _).setPos _ _ _ _
  have h3 : s3.Canonical := (((h2.setF _ _ _).setF _ _ _).setF _ _ _).setF _ _ _
  exact .ite (h.pwmRefuse _ _) ((h1.setPw _ _ _).ite ((h1.setPw _ _ _).ite ((h3.setOuts _ _ _ _ _).ite (h1.setPw _ _ _))))

theorem State.Canonical.phaseWrite {s : State} (h : s.Canonical) (n : Fin 12) (k : Fin 8) (v : Word) : (s.phaseWrite n k v).Canonical := by
  unfold State.phaseWrite
  extract_lets a s1 old
  have h1 : s1.Canonical := (h.setReg _ _).syncCheck _
  exact (h.pwmRefuse _ _).ite ((h1.setPw _ _ _).ite h1)

theorem State.Canonical.evcfgWrite {s : State} (h : s.Canonical) (n : Fin 12) (k : Fin 8) (v : Word) : (s.evcfgWrite n k v).Canonical :=
  (h.pwmRefuse _ _).ite ((h.setReg _ _).setPw _ _ _)

theorem State.Canonical.pwmFlags {s : State} (h : s.Canonical) (n : Fin 12) (k : Fin 8) (a : Nat) (m f v : Word) :
    (s.pwmFlags n k a m f v).Canonical :=
  (h.pwmRefuse _ _).ite (h.setReg _ _)

theorem State.Canonical.pwmWrite {s : State} (h : s.Canonical) (n : Fin 12) (k : Fin 8) (a : Nat) (v : Word) :
    (s.pwmWrite n k a v).Canonical := by
  unfold State.pwmWrite
  split
  · exact h.ctrlWrite _ _ _
  · exact h.shadowWrite _ _ _ _
  · exact h.shadowWrite _ _ _ _
  · exact h.shadowWrite _ _ _ _
  · exact h.phaseWrite _ _ _
  · exact h.evcfgWrite _ _ _
  · exact (h.pwmFlags _ _ _ _ _ _).syncCheck _
  · exact h.tripEnWrite _ _ _
  · exact h.tripCfgWrite _ _ _
  · exact h.tripCmdWrite _ _ _
  · exact h.pwmFlags _ _ _ _ _ _
  · exact h

theorem State.Canonical.commitCmp {s : State} (h : s.Canonical) (n : Fin 12) (k : Fin 8) (cmp : Nat) (coll half : Bool) :
    (s.commitCmp n k cmp coll half).Canonical := by
  unfold State.commitCmp
  extract_lets s1 s2 c
  have h1 : s1.Canonical := (h.setReg _ _).stageCmp _ _ _ _
  have h2 : s2.Canonical := ((h1.setF _ _ _).count _ _).ite h1
  exact ((h2.elsewhere (by rfl)).pins _ _).ite h2

theorem State.Canonical.pwmReset {s : State} (h : s.Canonical) (n : Fin 12) : (s.pwmReset n).Canonical := by
  unfold State.pwmReset
  extract_lets old
  have hold : old.Canonical := h.resetRegs _ _
  exact hold.elsewhere (by rfl)

theorem State.Canonical.slcRefuse {s : State} (h : s.Canonical) (n : Nat) : (s.slcRefuse n).Canonical :=
  h.count _ _

theorem State.Canonical.tripPass {s : State} (h : s.Canonical) (n : Fin 12) (t : Fin 4) (pin : Bool) : (s.tripPass n t pin).Canonical :=
  h.ite ((h.elsewhere (by rfl)).setB _ _ _)

theorem State.Canonical.tripSample {s : State} (h : s.Canonical) (n : Fin 12) : (s.tripSample n).Canonical :=
  h.foldl _ _ (fun _ _ h1 => h1.setB _ _ _)

theorem State.Canonical.tripinWrite {s : State} (h : s.Canonical) (n : Fin 12) (t : Fin 4) (v : Word) :
    (s.tripinWrite n t v).Canonical := by
  unfold State.tripinWrite
  extract_lets a chg s1
  have h1 : s1.Canonical := (h.setF _ _ _).setF _ _ _
  exact (h.slcRefuse _).ite ((h1.setB _ _ _).ite h)

theorem State.Canonical.tripResample {s : State} (h : s.Canonical) (old : State) (n : Fin 12) (t : Fin 4) (pin : Bool) :
    (s.tripResample old n t pin).Canonical := by
  unfold State.tripResample
  extract_lets a conf
  exact h.ite (h.tripPass _ _ _)

theorem State.Canonical.setCap {s : State} (h : s.Canonical) (n : Fin 12) (c : Fin 4) (x : CapSt) : (s.setCap n c x).Canonical :=
  ((h.elsewhere (by rfl)).setF _ _ _).setReg _ _

theorem State.Canonical.captureTo {s : State} (h : s.Canonical) (n : Fin 12) (c : Fin 4) (l : Bool) : (s.captureTo n c l).Canonical := by
  unfold State.captureTo
  extract_lets e y pin x
  exact (((h.setCap _ _ _).fireLocal _ _).ite ((h.setCap _ _ _).count _ _)).ite (h.setCap _ _ _)

theorem State.Canonical.trackStep {s : State} (h : s.Canonical) (n : Fin 12) (c : Fin 4) : (s.trackStep n c).Canonical := by
  unfold State.trackStep
  extract_lets pos differ
  exact h.ite (h.setReg _ _)

theorem State.Canonical.captureEdge {s : State} (h : s.Canonical) (n : Fin 12) (c : Fin 4) (rise : Bool) :
    (s.captureEdge n c rise).Canonical := by
  unfold State.captureEdge
  extract_lets l s1
  have h1 : s1.Canonical := (h.captureTo _ _ _).trackStep _ _
  exact h.ite ((h1.setReg _ _).ite h1)

theorem State.Canonical.captureRead {s : State} (h : s.Canonical) (n : Fin 12) (c : Fin 4) : (s.captureRead n c).Canonical := by
  unfold State.captureRead
  extract_lets x old
  have hold : old.Canonical := h.setCap _ _ _
  exact hold.elsewhere (by rfl)

theorem State.Canonical.encoderStep {s : State} (h : s.Canonical) (n : Fin 12) (a b : Bool) : (s.encoderStep n a b).Canonical := by
  unfold State.encoderStep
  extract_lets ca cb
  refine .ite h ?_
  exact .ite (((h.captureTo _ _ _).captureTo _ _ _).count _ _) (((h.captureTo _ _ _).trackStep _ _).ite
    (((h.captureTo _ _ _).trackStep _ _).ite h))

theorem State.Canonical.capcfgWrite {s : State} (h : s.Canonical) (n : Fin 12) (c : Fin 4) (v : Word) :
    (s.capcfgWrite n c v).Canonical := by
  unfold State.capcfgWrite
  extract_lets a
  exact (h.slcRefuse _).ite ((h.setReg _ _).ite ((h.setReg _ _).capAim _ _))

theorem State.Canonical.encWrite {s : State} (h : s.Canonical) (n : Fin 12) (v : Word) : (s.encWrite n v).Canonical := by
  unfold State.encWrite
  extract_lets a chg
  exact (h.slcRefuse _).ite ((h.setF _ _ _).setF _ _ _)

theorem State.Canonical.slcTrip {s : State} (h : s.Canonical) (n : Fin 12) (v : Word) : (s.slcTrip n v).Canonical :=
  h.foldl _ _ (fun _ _ h1 => (h1.tripCmd _ _).ite h1)

/-! Converters. -/

theorem State.Canonical.setHil {s : State} (h : s.Canonical) (n i : Fin 12) (x : HilSt) : (s.setHil n i x).Canonical :=
  (h.elsewhere (by rfl)).setF _ _ _

theorem State.Canonical.sarHold {s : State} (h : s.Canonical) (n : Fin 12) (k : Fin 4) (code : BitVec 16) :
    (s.sarHold n k code).Canonical := by
  unfold State.sarHold
  split
  next i _ =>
    extract_lets hold ii h' old b x'
    refine .ite ?_ (h.setSr _ _ _)
    split
    · exact (h.setHil _ _ _).setSr _ _ _
    · exact ((h.count _ _).setF _ _ _).setSr _ _ _
  · exact h

theorem State.Canonical.sarReady {s : State} (h : s.Canonical) (n : Fin 12) (k : Fin 4) : (s.sarReady n k).Canonical := by
  unfold State.sarReady
  split
  · extract_lets y q r st s1
    have h1 : s1.Canonical := h.fireLocal _ _
    exact (h.setSr _ _ _).ite (((h1.setSr _ _ _).setF _ _ _).ite ((h1.setSr _ _ _).setF _ _ _))
  · exact h

theorem State.Canonical.sarQueue {s : State} (h : s.Canonical) (n : Fin 12) (k : Fin 4) (r : SarRes) : (s.sarQueue n k r).Canonical := by
  unfold State.sarQueue
  extract_lets q
  exact (h.setSr _ _ _).ite ((h.count _ _).sarFlag _ _ _)

theorem State.Canonical.sarRefuse {s : State} (h : s.Canonical) (n : Nat) : (s.sarRefuse n).Canonical :=
  h.count _ _

theorem State.Canonical.sarTrigWrite {s : State} (h : s.Canonical) (n : Fin 12) (k : Nat) (v : Word) :
    (s.sarTrigWrite n k v).Canonical := by
  unfold State.sarTrigWrite
  extract_lets src
  exact (h.sarRefuse _).ite (h.setReg _ _)

theorem State.Canonical.sarPpWrite {s : State} (h : s.Canonical) (n : Fin 12) (k : Nat) (v : Word) : (s.sarPpWrite n k v).Canonical :=
  (h.sarRefuse _).ite (h.setReg _ _)

theorem State.Canonical.sarMbufWrite {s : State} (h : s.Canonical) (n : Fin 12) (k : Nat) (v : Word) :
    (s.sarMbufWrite n k v).Canonical := by
  unfold State.sarMbufWrite
  extract_lets l
  exact (h.sarRefuse _).ite ((h.setReg _ _).setF _ _ _)

theorem State.Canonical.sarEntWrite {s : State} (h : s.Canonical) (n : Fin 12) (k e : Nat) (v : Word) :
    (s.sarEntWrite n k e v).Canonical := by
  unfold State.sarEntWrite
  extract_lets acq d
  exact (h.sarRefuse _).ite (h.setReg _ _)

theorem State.Canonical.selfcal {s : State} (h : s.Canonical) (n : Fin 12) (v : Word) : (s.selfcal n v).Canonical :=
  h.ite ((h.setF _ _ _).ite (h.sarRefuse _))

theorem State.Canonical.selfcalEnd {s : State} (h : s.Canonical) (n : Fin 12) (failed : BitVec 4) : (s.selfcalEnd n failed).Canonical :=
  h.ite ((h.setF _ _ _).foldl _ _ (fun _ _ h1 => (h1.setF _ _ _).ite h1))

theorem State.Canonical.sarPhase {s : State} (h : s.Canonical) (n : Fin 12) (k : Fin 4) (extra : Nat) : (s.sarPhase n k extra).Canonical :=
  (h.sarTrig _ _ _ _).ite h

theorem State.Canonical.sarSw {s : State} (h : s.Canonical) (n : Fin 12) (k : Fin 4) (v : Word) : (s.sarSw n k v).Canonical :=
  (h.sarTrig _ _ _ _).ite h

theorem State.Canonical.sarWrite {s : State} (h : s.Canonical) (n : Fin 12) (a : Nat) (v : Word) : (s.sarWrite n a v).Canonical := by
  unfold State.sarWrite
  extract_lets o
  refine .ite (h.selfcal _ _) ?_
  refine .dite (fun hc => ?_) (fun hc => ?_)
  · extract_lets k
    split
    · exact h.sarTrigWrite _ _ _
    · exact h.sarPpWrite _ _ _
    · exact h.sarMbufWrite _ _ _
    · exact h.sarEntWrite _ _ _ _
    · exact h.sarEntWrite _ _ _ _
    · exact h.sarEntWrite _ _ _ _
    · exact h.sarSw _ _ _
    · exact h.setReg _ _
    · exact h
  · exact (h.setReg _ _).ite h

theorem State.Canonical.sarReset {s : State} (h : s.Canonical) (n : Fin 12) : (s.sarReset n).Canonical := by
  unfold State.sarReset
  extract_lets old
  have hold : old.Canonical := h.resetRegs _ _
  exact hold.elsewhere (by rfl)

theorem State.Canonical.hilClear {s : State} (h : s.Canonical) (enter : Bool) : (s.hilClear enter).Canonical :=
  h.foldl _ _ (fun _ _ h1 => h1.foldl _ _ (fun _ _ h2 => h2.setHil _ _ _))

end Machine
end Sys2Proof
end

section
/-! PROOFS. The canonical form: passway, twin roles and the states of a slice. -/

namespace Sys2Proof
namespace Machine

/-! The passway. -/

theorem State.Canonical.lockLost {s : State} (h : s.Canonical) : (s.lockLost).Canonical := by
  unfold State.lockLost
  refine .ite ?_ h
  extract_lets s1 s2 old s3
  have h1 : s1.Canonical := (h.setF _ _ _).setF _ _ _
  have h2 : s2.Canonical := h1.foldl _ _ (fun _ _ hu => hu.countWrap _ _)
  clear_value s2
  have h3 : s3.Canonical := h2.elsewhere (by rfl)
  exact (h3.staleTarget _ _).fire _

theorem State.Canonical.stepsShown {s : State} (h : s.Canonical) : (s.stepsShown).Canonical :=
  h.setB _ _ _

theorem State.Canonical.setTtOfs {s : State} (h : s.Canonical) (x : Int) : (s.setTtOfs x).Canonical := by
  unfold State.setTtOfs
  extract_lets w
  exact (((h.setReg _ _).setReg _ _).setB _ _ _).stepsShown

theorem State.Canonical.elect {s : State} (h : s.Canonical) : (s.elect).Canonical := by
  unfold State.elect
  split
  · exact (((h.setF _ _ _).setF _ _ _).setF _ _ _).stepsShown
  · extract_lets own up s1 s2
    have h1 : s1.Canonical := (h.setB _ _ _).setF _ _ _
    have h2 : s2.Canonical := (h1.setB _ _ _).setB _ _ _
    exact ((h2.setF _ _ _).ite h2).stepsShown

theorem State.Canonical.meets {s : State} (h : s.Canonical) : (s.meets).Canonical := by
  unfold State.meets
  split
  · exact h.ite h.lockLost
  · exact h

theorem State.Canonical.showGroup {s : State} (h : s.Canonical) : (s.showGroup).Canonical := by
  unfold State.showGroup
  extract_lets m map s1 t was s2 old s3
  have h1 : s1.Canonical := (((((h.setReg _ _).setF _ _ _).countWrap _ _).setF _ _ _).fire _).ite h
  have h2 : s2.Canonical := ((h1.setF _ _ _).fire _).ite h1
  have h3 : s3.Canonical := ((h2.elsewhere (by rfl)).meets).ite h2
  exact h3.elect

theorem State.Canonical.remember {s : State} (h : s.Canonical) (pos : Fin 32) (seq : BitVec 8) : (s.remember pos seq).Canonical :=
  h.elsewhere (by rfl)

theorem State.Canonical.forward {s : State} (h : s.Canonical) (p : Fin 2) (fr : PwyFrame) : (s.forward p fr).Canonical :=
  (h.sendFrame _ _).ite h

theorem State.Canonical.takeSeq {s : State} (h : s.Canonical) : (s.takeSeq).1.Canonical := by
  unfold State.takeSeq
  exact h.elsewhere (by rfl)

theorem State.Canonical.originate {s : State} (h : s.Canonical) (fr : BitVec 8 → PwyFrame) : (s.originate fr).Canonical := by
  unfold State.originate
  split
  next t _ e =>
    have ht : t.Canonical := State.Canonical.of_fst h.takeSeq e
    extract_lets s1 s2
    have h1 : s1.Canonical := ht.remember _ _
    have h2 : s2.Canonical := (h1.sendFrame _ _).ite h1
    exact (h2.sendFrame _ _).ite h2

theorem State.Canonical.sendOwn {s : State} (h : s.Canonical) (p : Fin 2) (fr : BitVec 8 → PwyFrame) : (s.sendOwn p fr).Canonical := by
  unfold State.sendOwn
  split
  next t _ e =>
    have ht : t.Canonical := State.Canonical.of_fst h.takeSeq e
    exact ht.sendFrame _ _

theorem State.Canonical.frameDiscard {s : State} (h : s.Canonical) : (s.frameDiscard).Canonical :=
  (h.count _ _).setF _ _ _

theorem State.Canonical.ownSeen {s : State} (h : s.Canonical) : (s.ownSeen).Canonical :=
  h.ite (((((h.elsewhere (by rfl)).lockLost).setF _ _ _).fire _).showGroup)

theorem State.Canonical.topoIn {s : State} (h : s.Canonical) (p : Fin 2) (seq : BitVec 8) (t : PwyTopo) : (s.topoIn p seq t).Canonical := by
  unfold State.topoIn
  refine .ite h ?_
  refine .ite (((h.elsewhere (by rfl)).ite (((h.elsewhere (by rfl)).setF _ _ _).fire _)).showGroup) ?_
  extract_lets old s0 s1 old' s2
  have h0 : s0.Canonical := h.elsewhere (by rfl)
  have h1 : s1.Canonical := (h0.remember _ _).forward _ _
  have h2 : s2.Canonical := h1.elsewhere (by rfl)
  exact h0.ite (h1.ownSeen.ite h2.showGroup)

theorem State.Canonical.memberTimeout {s : State} (h : s.Canonical) (pos : Fin 32) : (s.memberTimeout pos).Canonical :=
  (h.elsewhere (by rfl)).showGroup

theorem State.Canonical.eventRec {s : State} (h : s.Canonical) (r : PwyRec) : (s.eventRec r).Canonical := by
  unfold State.eventRec
  extract_lets pos hits key old
  refine .ite h ?_
  split
  · extract_lets s1
    have h1 : s1.Canonical := h.elsewhere (by rfl)
    exact (h1.foldl _ _ (fun _ _ h2 => h2.fire _)).ite h1

theorem State.Canonical.eventIn {s : State} (h : s.Canonical) (p : Fin 2) (pos : Fin 32) (seq : BitVec 8) (recs : List PwyRec) :
    (s.eventIn p pos seq recs).Canonical :=
  h.ite (((h.remember _ _).forward _ _).foldl _ _ (fun _ _ h1 => h1.eventRec _))

theorem State.Canonical.dlyReq {s : State} (h : s.Canonical) (p : Fin 2) (t2 t3 : Nat) : (s.dlyReq p t2 t3).Canonical :=
  (h.sendOwn _ _).ite h

theorem State.Canonical.dlyResp {s : State} (h : s.Canonical) (p : Fin 2) (t1 t2 t3 t4 : Nat) : (s.dlyResp p t1 t2 t3 t4).Canonical :=
  (h.setF _ _ _).ite h

theorem State.Canonical.syncIn {s : State} (h : s.Canonical) (p : Fin 2) (t tApply : BitVec 64) (step : Word) (frac : Fin 16) :
    (s.syncIn p t tApply step frac).Canonical := by
  unfold State.syncIn
  refine .ite h ?_
  extract_lets off s1 near k old s2 s3 old'
  have h1 : s1.Canonical := h.setReg _ _
  have h2 : s2.Canonical := h1.elsewhere (by rfl)
  have h3 : s3.Canonical := h2.ite ((h2.elsewhere (by rfl)).setF _ _ _)
  exact (h3.elsewhere (by rfl)).ite h3

theorem State.Canonical.syncLoss {s : State} (h : s.Canonical) : (s.syncLoss).Canonical :=
  h.ite h.lockLost

theorem State.Canonical.syncTransmit {s : State} (h : s.Canonical) : (s.syncTransmit).Canonical := by
  unfold State.syncTransmit
  split
  · extract_lets m ge
    exact h.foldl _ _ (fun _ _ h1 => (((h1.sendOwn _ _).ite h1).sendOwn _ _).ite ((h1.sendOwn _ _).ite h1))

theorem State.Canonical.topoTransmit {s : State} (h : s.Canonical) : (s.topoTransmit).Canonical :=
  (h.originate _).ite h

theorem State.Canonical.exportMsg {s : State} (h : s.Canonical) (i : Nat) (fired : Word) : (s.exportMsg i fired).Canonical :=
  (h.originate _).ite (h.count _ _)

theorem State.Canonical.accept {s : State} (h : s.Canonical) (r : Nat) : (s.accept r).Canonical := by
  unfold State.accept
  extract_lets rt t
  exact (h.latch _).ite (h.ite ((h.orphanRoute _ _).ite ((h.sendOff _).exportMsg _ _)))

theorem State.Canonical.portGain {s : State} (h : s.Canonical) (p : Fin 4) : (s.portGain p).Canonical := by
  unfold State.portGain
  extract_lets on
  exact h.ite (((h.setF _ _ _).setF _ _ _).showGroup)

theorem State.Canonical.portLose {s : State} (h : s.Canonical) (p : Fin 4) : (s.portLose p).Canonical := by
  unfold State.portLose
  refine .ite h ?_
  extract_lets s1 old s2
  have h1 : s1.Canonical := ((h.setF _ _ _).setF _ _ _).setF _ _ _
  have h2 : s2.Canonical := State.Canonical.dite (fun _ => h1.elsewhere (by rfl)) (fun _ => h1)
  exact (h2.fire _).showGroup

theorem State.Canonical.groupStep {s : State} (h : s.Canonical) : (s.groupStep).Canonical := by
  unfold State.groupStep
  split
  · exact ((((h.elsewhere (by rfl)).setTtOfs _).ite (h.elsewhere (by rfl))).fire _).ite h
  · exact h

theorem State.Canonical.inauguration {s : State} (h : s.Canonical) : (s.inauguration).Canonical := by
  unfold State.inauguration
  refine .ite h ?_
  extract_lets s1 s2 s3 old
  have h1 : s1.Canonical := (h.countWrap _ _).setF _ _ _
  have h2 : s2.Canonical := (h1.setF _ _ _).setF _ _ _
  have h3 : s3.Canonical := h2.stepsShown.resetRegs _ _
  exact (h3.elsewhere (by rfl)).fire _

theorem State.Canonical.ptpLock {s : State} (h : s.Canonical) (delta : BitVec 64) : (s.ptpLock delta).Canonical := by
  unfold State.ptpLock
  extract_lets was s1
  have h1 : s1.Canonical := (h.setF _ _ _).setTtOfs _
  exact (((h.setF _ _ _).fireIf _ _).ite h).ite (h.ite ((h1.setF _ _ _).fireIf _ _))

theorem State.Canonical.ttAnnounce {s : State} (h : s.Canonical) (ahead : Nat) : (s.ttAnnounce ahead).Canonical := by
  unfold State.ttAnnounce
  extract_lets armed due soon at_ old
  exact h.ite (h.elsewhere (by rfl))

theorem State.Canonical.announceGroup {s : State} (h : s.Canonical) : (s.announceGroup).Canonical :=
  (h.emit _).ite h

theorem State.Canonical.announceIn {s : State} (h : s.Canonical) (g : Fin 64) (sender : Nat) (mask : Word) :
    (s.announceIn g sender mask).Canonical := by
  unfold State.announceIn
  extract_lets dup mine old s1 s2
  have h1 : s1.Canonical := h.elsewhere (by rfl)
  have h2 : s2.Canonical := h1.setReg _ _
  exact h.ite ((h2.setF _ _ _).ite h2)

theorem State.Canonical.ptpTime {s : State} (h : s.Canonical) : (s.ptpTime).Canonical := by
  unfold State.ptpTime
  extract_lets tev
  exact h.fireIf _ _

theorem State.Canonical.ecnChange {s : State} (h : s.Canonical) (l : Fin 2) (up : Bool) : (s.ecnChange l up).Canonical :=
  (h.elsewhere (by rfl)).showGroup

theorem State.Canonical.badAcc {s : State} (h : s.Canonical) : (s.badAcc).Canonical :=
  h.count _ _

theorem State.Canonical.pwyCfgWrite {s : State} (h : s.Canonical) (v : Word) : (s.pwyCfgWrite v).Canonical := by
  unfold State.pwyCfgWrite
  extract_lets per was s1 old s2
  have h1 : s1.Canonical := h.setReg _ _
  have h2 : s2.Canonical := h1.elsewhere (by rfl)
  refine .ite h.badAcc ?_
  exact .ite ((h1.ite (h1.elsewhere (by rfl))).showGroup) (((((h2.portLose _).portLose _).lockLost).showGroup).ite h1.showGroup)

theorem State.Canonical.pwyIdWrite {s : State} (h : s.Canonical) (v : Word) : (s.pwyIdWrite v).Canonical :=
  h.badAcc.ite (h.setReg _ _)

theorem State.Canonical.pwyExpWrite {s : State} (h : s.Canonical) (i : Nat) (v : Word) : (s.pwyExpWrite i v).Canonical := by
  unfold State.pwyExpWrite
  extract_lets a s1
  have h1 : s1.Canonical := ((h.setF _ _ _).countWrap _ _).setF _ _ _
  exact h1.staleTarget _ _

theorem State.Canonical.pwyWrite {s : State} (h : s.Canonical) (a : Nat) (v : Word) : (s.pwyWrite a v).Canonical := by
  unfold State.pwyWrite
  extract_lets o
  refine .ite (h.pwyCfgWrite _) ?_
  refine .ite (h.pwyIdWrite _) ?_
  refine .ite (h.setReg _ _) ?_
  refine .ite (h.setReg _ _) ?_
  refine .ite (h.setReg _ _) ?_
  refine .ite (h.badAcc.ite (h.setReg _ _)) ?_
  exact .ite (h.badAcc.ite ((h.setReg _ _).ite h)) ((h.pwyExpWrite _ _).ite ((h.badAcc.ite (h.setReg _ _)).ite h))

/-! Loops that are dropped. -/

theorem State.Canonical.setCle {s : State} (h : s.Canonical) (n : Fin 12) (c : CleSt) : (s.setCle n c).Canonical :=
  h.elsewhere (by rfl)

theorem State.Canonical.cleFlag {s : State} (h : s.Canonical) (n : Fin 12) (j : Nat) (f : Fld) : (s.cleFlag n j f).Canonical := by
  unfold State.cleFlag
  extract_lets a
  exact h.ite ((h.setF _ _ _).fireLocal _ _)

theorem State.Canonical.cleSkip {s : State} (h : s.Canonical) (n : Fin 12) (j : Nat) : (s.cleSkip n j).Canonical := by
  unfold State.cleSkip
  extract_lets s1
  have h1 : s1.Canonical := (h.count _ _).cleFlag _ _ _
  exact (h1.setF _ _ _).ite h1

theorem State.Canonical.setQ {s : State} (h : s.Canonical) (n : Fin 12) (j : Nat) (q : Nat) : (s.setQ n j q).Canonical :=
  (h.setF _ _ _).setF _ _ _

theorem State.Canonical.dropLoop {s : State} (h : s.Canonical) (n : Fin 12) (j : Fin 16) (rec : Bool) : (s.dropLoop n j rec).Canonical := by
  unfold State.dropLoop
  extract_lets c l q kept owed t s1 t' t''
  have ht : t.Canonical := h.setF _ _ _
  have h1 : s1.Canonical := (((ht.cleSkip _ _).noteSkip _ _).ite ht).ite h
  have ht' : t'.Canonical := (h1.setQ _ _ _).setCle _ _
  have ht'' : t''.Canonical := ((h1.setQ _ _ _).setF _ _ _).setCle _ _
  exact (((ht'.cleSkip _ _).noteSkip _ _).ite ht').ite (h1.ite ((ht''.noteSkip _ _).ite ht''))

theorem State.Canonical.showCall {s : State} (h : s.Canonical) (n : Fin 12) : (s.showCall n).Canonical := by
  unfold State.showCall
  split
  · exact (h.setB _ _ _).setB _ _ _

theorem State.Canonical.dropCle {s : State} (h : s.Canonical) (n : Fin 12) (rec : Bool) : (s.dropCle n rec).Canonical := by
  unfold State.dropCle
  extract_lets s1 c call
  have h1 : s1.Canonical := h.foldl _ _ (fun _ _ h1 => h1.dropLoop _ _ _)
  exact ((h1.setCle _ _).setF _ _ _).showCall _

theorem State.Canonical.dropRole {s : State} (h : s.Canonical) (n : Fin 12) : (s.dropRole n).Canonical := by
  unfold State.dropRole
  extract_lets c
  exact (h.setCle _ _).dropCle _ _

/-! Twin operation: roles and records. -/

theorem State.Canonical.showHealth {s : State} (h : s.Canonical) : (s.showHealth).Canonical := by
  unfold State.showHealth
  extract_lets h'
  exact ((h.setB _ _ _).fire _).ite h

theorem State.Canonical.twinDrop {s : State} (h : s.Canonical) : (s.twinDrop).Canonical := by
  unfold State.twinDrop
  extract_lets s1 old
  have h1 : s1.Canonical := h.count _ _
  exact (h1.elsewhere (by rfl)).showHealth

theorem State.Canonical.twinSend {s : State} (h : s.Canonical) (r : TwinRec) : (s.twinSend r).Canonical :=
  h.ite ((h.elsewhere (by rfl)).ite ((h.setF _ _ _).twinDrop))

theorem State.Canonical.discardOn {s : State} (h : s.Canonical) (x : RawFrame) : (s.discardOn x).Canonical :=
  (h.frameDiscard.ite h).ite (h.twinDrop.ite h)

theorem State.Canonical.twinTransmit {s : State} (h : s.Canonical) : (s.twinTransmit).Canonical := by
  unfold State.twinTransmit
  extract_lets lanes p k old
  split
  · exact h
  · refine .ite h ?_
    extract_lets s1
    have h1 : s1.Canonical := (h.elsewhere (by rfl)).count _ _
    split
    next t' _ e' =>
      have ht' : t'.Canonical := State.Canonical.of_fst (h1.portFault _) e'
      exact ht'.emit _
    next t' e' =>
      have ht' : t'.Canonical := State.Canonical.of_fst (h1.portFault _) e'
      exact ht'

theorem State.Canonical.syncChanged {s : State} (h : s.Canonical) : (s.syncChanged).Canonical :=
  h.ite ((h.elsewhere (by rfl)).fire _)

theorem State.Canonical.syncRegs {s : State} (h : s.Canonical) : (s.syncRegs).Canonical :=
  h.ite ((((h.setF _ _ _).setF _ _ _).syncChanged).ite h)

theorem State.Canonical.reportRoles (s : State) {t : State} (h : t.Canonical) : (s.reportRoles t).Canonical := by
  unfold State.reportRoles
  extract_lets u old
  have hu : u.Canonical := h.syncRegs
  exact (hu.elsewhere (by rfl)).ite hu

theorem State.Canonical.statusNext {s : State} (h : s.Canonical) : (s.statusNext).Canonical :=
  ((h.elsewhere (by rfl)).twinSend _).ite h

theorem State.Canonical.showSync {s : State} (h : s.Canonical) : (s.showSync).Canonical :=
  State.Canonical.reportRoles _ h

theorem State.Canonical.putRole {s : State} (h : s.Canonical) (n : Fin 12) (role : Nat) : (s.putRole n role).Canonical := by
  unfold State.putRole
  extract_lets s1 old s2
  have h1 : s1.Canonical := (h.setF _ _ _).setF _ _ _
  have h2 : s2.Canonical := (h1.elsewhere (by rfl)).ite h1
  exact ((h2.dropRole _).ite h2).pinsSlice _

theorem State.Canonical.setRole {s : State} (h : s.Canonical) (n : Fin 12) (role : Nat) : (s.setRole n role).Canonical :=
  State.Canonical.reportRoles _ (h.putRole _ _)

theorem State.Canonical.setRoles {s : State} (h : s.Canonical) (m : BitVec 12) (role : Nat) : (s.setRoles m role).Canonical :=
  State.Canonical.reportRoles _ (h.foldl _ _ (fun _ _ h1 => (h1.putRole _ _).ite h1))

theorem State.Canonical.pairUp {s : State} (h : s.Canonical) : (s.pairUp).Canonical := by
  unfold State.pairUp
  extract_lets conflict s0 running old s1
  have h0 : s0.Canonical := ((h.setF _ _ _).fire _).ite h
  have h1 : s1.Canonical := h0.elsewhere (by rfl)
  exact .ite ((State.Canonical.reportRoles _ (h1.foldl _ _ (fun _ _ h3 => h3.ite (h3.putRole _ _)))).showHealth) h0.showHealth

theorem State.Canonical.lockedNow (s : State) {t : State} (h : t.Canonical) : (s.lockedNow t).Canonical :=
  h.pairUp.ite h

theorem State.Canonical.handOver {s : State} (h : s.Canonical) (mask : BitVec 12) (cause : Nat) : (s.handOver mask cause).Canonical := by
  unfold State.handOver
  extract_lets m s1 a s2 old old' s3 s4
  refine .ite h ?_
  have h1 : s1.Canonical := h.setRoles _ _
  have h2 : s2.Canonical := ((((h1.setF _ _ _).setF _ _ _).setF _ _ _).countWrap _ _).setF _ _ _
  have hold : old.Canonical := h2.descHanded _
  clear_value old s2
  have h3 : s3.Canonical := hold.elsewhere (by rfl)
  exact (h3.twinSend _).fireIf _ _

theorem State.Canonical.twinConfig {s : State} (h : s.Canonical) (n : Fin 12) (off : Nat) (v : Word) : (s.twinConfig n off v).Canonical :=
  ((h.elsewhere (by rfl)).twinSend _).ite h

/-! States of a slice. -/

theorem State.Canonical.setCore {s : State} (h : s.Canonical) (p : Fin 13) (c : CoreSt) : (s.setCore p c).Canonical :=
  h.elsewhere (by rfl)

theorem State.Canonical.wdgStart {s : State} (h : s.Canonical) (e : Fin 13) : (s.wdgStart e).Canonical :=
  ((((h.setReg _ _).setF _ _ _).setF _ _ _).elsewhere (by rfl)).ite h

theorem State.Canonical.wdgStop {s : State} (h : s.Canonical) (e : Fin 13) : (s.wdgStop e).Canonical :=
  (h.setReg _ _).setF _ _ _

theorem State.Canonical.setSl {s : State} (h : s.Canonical) (n : Fin 12) (st : Nat) : (s.setSl n st).Canonical := by
  unfold State.setSl
  extract_lets was s0 s1 s2 s3
  have h0 : s0.Canonical := (h.endTests _).ite h
  have h1 : s1.Canonical := ((h0.setF _ _ _).countWrap _ _).fireLocal _ _
  have h2 : s2.Canonical := (h1.ite ((h1.wdgStart _).levelTo _)).ite (h1.wdgStop _)
  have h3 : s3.Canonical := h2.ite ((h2.setReg _ _).pinsSlice _)
  exact (h3.showWins _).ite h3

theorem State.Canonical.slFault {s : State} (h : s.Canonical) (n : Nat) (cause : Nat) : (s.slFault n cause).Canonical :=
  (h.setF _ _ _).setF _ _ _

theorem State.Canonical.setArmed {s : State} (h : s.Canonical) (n : Fin 12) (b : Bool) : (s.setArmed n b).Canonical :=
  (h.setF _ _ _).showSync

theorem State.Canonical.setArmPend {s : State} (h : s.Canonical) (n : Fin 12) (b : Bool) : (s.setArmPend n b).Canonical :=
  h.setF _ _ _

theorem State.Canonical.armNow {s : State} (h : s.Canonical) (n : Fin 12) : (s.armNow n).Canonical := by
  unfold State.armNow
  extract_lets s1
  have h1 : s1.Canonical := (h.setArmed _ _).setArmPend _ _
  exact (h1.foldl _ _ (fun _ _ h2 => h2.setPw _ _ _)).pinsSlice _

theorem State.Canonical.armTaken {s : State} (h : s.Canonical) (n : Fin 12) : (s.armTaken n).Canonical :=
  (h.count _ _).ite ((h.setArmPend _ _).ite (h.ite (h.armNow _)))

theorem State.Canonical.armReq {s : State} (h : s.Canonical) (n : Fin 12) : (s.armReq n).Canonical := by
  unfold State.armReq
  refine .ite h ?_
  split
  · extract_lets t add old
    have ht : t.Canonical := h.armTaken _
    exact ht.setCtl _ _

theorem State.Canonical.armPending {s : State} (h : s.Canonical) (n : Fin 12) : (s.armPending n).Canonical :=
  h.ite ((h.setArmPend _ _).ite (h.ite ((h.setArmPend _ _).ite (h.armNow _))))

theorem State.Canonical.armUndo {s : State} (h : s.Canonical) (n : Fin 12) : (s.armUndo n).Canonical := by
  unfold State.armUndo
  split
  · extract_lets c t old
    have ht : t.Canonical := h.ite (h.setF _ _ _)
    exact (ht.ite (ht.setArmPend _ _)).setCtl _ _

theorem State.Canonical.disarm {s : State} (h : s.Canonical) (n : Fin 12) : (s.disarm n).Canonical :=
  (h.armUndo _).ite ((((h.armUndo _).setArmed _ _).setCtl _ _).pinsSlice _)

theorem State.Canonical.dropCmds {s : State} (h : s.Canonical) (n : Fin 12) : (s.dropCmds n).Canonical :=
  h.foldl _ _ (fun _ _ h1 => ((((h1.setF _ _ _).setF _ _ _).setF _ _ _).descDone _ _ _).descDone _ _ _)

theorem State.Canonical.setDma {s : State} (h : s.Canonical) (e : Fin 13) (c : Fin 16) (d : DmaCh) : (s.setDma e c d).Canonical :=
  h.elsewhere (by rfl)

theorem State.Canonical.setDmaState {s : State} (h : s.Canonical) (e : Nat) (c : Nat) (st : Nat) : (s.setDmaState e c st).Canonical :=
  (h.setF _ _ _).setB _ _ _

theorem State.Canonical.dmaStopped {s : State} (h : s.Canonical) (e : Fin 13) (c : Fin 16) (cause : Nat) :
    (s.dmaStopped e c cause).Canonical :=
  ((((h.setDmaState _ _ _).setF _ _ _).setF _ _ _).setDma _ _ _).xferDone _ _ _

theorem State.Canonical.dmaStop {s : State} (h : s.Canonical) (e : Fin 13) (c : Fin 16) (halt : Bool) : (s.dmaStop e c halt).Canonical := by
  unfold State.dmaStop
  extract_lets st old
  exact h.ite ((h.dmaStopped _ _ _).ite ((h.setDmaState _ _ _).setDma _ _ _))

theorem State.Canonical.stopDma {s : State} (h : s.Canonical) (n : Fin 12) : (s.stopDma n).Canonical :=
  h.foldl _ _ (fun _ _ h1 => h1.dmaStop _ _ _)

theorem State.Canonical.dmaPause {s : State} (h : s.Canonical) (e : Fin 13) (c : Fin 16) : (s.dmaPause e c).Canonical := by
  unfold State.dmaPause
  extract_lets st old
  exact ((h.setDma _ _ _).setDmaState _ _ _).ite h

theorem State.Canonical.pauseDma {s : State} (h : s.Canonical) (n : Fin 12) : (s.pauseDma n).Canonical :=
  h.foldl _ _ (fun _ _ h1 => h1.dmaPause _ _)

theorem State.Canonical.dmaDrained {s : State} (h : s.Canonical) (e : Fin 13) (c : Fin 16) : (s.dmaDrained e c).Canonical := by
  unfold State.dmaDrained
  extract_lets st old
  exact h.ite ((h.ite (h.setDma _ _ _)).setDmaState _ _ _)

theorem State.Canonical.dmaResume {s : State} (h : s.Canonical) (e : Fin 13) (c : Fin 16) : (s.dmaResume e c).Canonical := by
  unfold State.dmaResume
  extract_lets d st
  exact ((h.setDma _ _ _).setDmaState _ _ _).ite h

theorem State.Canonical.resumeDma {s : State} (h : s.Canonical) (n : Fin 12) : (s.resumeDma n).Canonical :=
  h.foldl _ _ (fun _ _ h1 => h1.dmaResume _ _)

theorem State.Canonical.injEnd {s : State} (h : s.Canonical) (n : Nat) (cause : Nat) : (s.injEnd n cause).Canonical := by
  unfold State.injEnd
  extract_lets a
  exact h.ite (((((h.setF _ _ _).setF _ _ _).setF _ _ _).setF _ _ _).captureDone _ _)

theorem State.Canonical.ptbEnd {s : State} (h : s.Canonical) (e : Nat) (cause : Nat) : (s.ptbEnd e cause).Canonical := by
  unfold State.ptbEnd
  extract_lets s1
  have h1 : s1.Canonical := h.elsewhere (by rfl)
  exact h1.ite (((h1.setF _ _ _).setF _ _ _).setReg _ _)

theorem State.Canonical.haltPair {s : State} (h : s.Canonical) (p : Fin 13) : (s.haltPair p).Canonical :=
  h.setCore _ _

theorem State.Canonical.attachNow {s : State} (h : s.Canonical) (p : Fin 13) (sess : Nat) : (s.attachNow p sess).Canonical := by
  unfold State.attachNow
  extract_lets a s1 old s2
  have h1 : s1.Canonical := ((h.setF _ _ _).setF _ _ _).setF _ _ _
  have h2 : s2.Canonical := h1.setCore _ _
  exact (h2.setF _ _ _).ite h2

theorem State.Canonical.heldAttach {s : State} (h : s.Canonical) (n : Fin 12) : (s.heldAttach n).Canonical := by
  unfold State.heldAttach
  split
  · exact (h.setCtl _ _).attachNow _ _
  · exact h

theorem State.Canonical.fenceNow {s : State} (h : s.Canonical) (n : Fin 12) (cause : Nat) : (s.fenceNow n cause).Canonical := by
  unfold State.fenceNow
  extract_lets c0 s0 s' c hold s1 s2 s3 s4
  have h0 : s0.Canonical := h.setCtl _ _
  have h' : s'.Canonical := (h0.handOver _ _).ite h0
  have h1 : s1.Canonical := h'.setCtl _ _
  have h2 : s2.Canonical := (h1.setArmed _ _).setArmPend _ _
  have h3 : s3.Canonical := ((h2.dropCle _ _).dropCmds _).haltPair _
  have h4 : s4.Canonical := h3.stopDma _
  exact ((h4.setF _ _ _).descDone _ _ _).pinsSlice _

theorem State.Canonical.recStat {s : State} (h : s.Canonical) (n : Fin 12) : (s.recStat n).Canonical := by
  unfold State.recStat
  extract_lets c k a ns
  exact h.setReg _ _

theorem State.Canonical.enterSafe {s : State} (h : s.Canonical) (n : Fin 12) (cause : Nat) : (s.enterSafe n cause).Canonical := by
  unfold State.enterSafe
  extract_lets st s0 s1 c hold s2 s3 s4 s5 s6 s7
  have h0 : s0.Canonical := (h.handOver _ _).ite h
  have h1 : s1.Canonical := ((h0.recStat _).descFail _).ite h0
  have h2 : s2.Canonical := h1.setCtl _ _
  have h3 : s3.Canonical := (h2.setArmed _ _).setArmPend _ _
  have h4 : s4.Canonical := ((h3.dropCle _ _).haltPair _).stopDma _
  have h5 : s5.Canonical := ((h4.injEnd _ _).ptbEnd _ _).dropRoutesTo _
  have h6 : s6.Canonical := ((h5.slFault _ _).setSl _ _).heldAttach _
  have h7 : s7.Canonical := (h6.fenceNow _ _).ite h6
  exact h.ite ((h7.pinsSlice _).showSync)

theorem State.Canonical.unCheckpoint {s : State} (h : s.Canonical) (p : Fin 13) : (s.unCheckpoint p).Canonical := by
  unfold State.unCheckpoint
  extract_lets c
  exact (h.setCore _ _).ite h

theorem State.Canonical.rollBack {s : State} (h : s.Canonical) (n : Fin 12) : (s.rollBack n).Canonical := by
  unfold State.rollBack
  extract_lets p c s1
  have h1 : s1.Canonical := h.elsewhere (by rfl)
  split
  · exact h1
  · exact (h1.setCore _ _).setReg _ _

theorem State.Canonical.runLive {s : State} (h : s.Canonical) (n : Fin 12) : (s.runLive n).Canonical := by
  unfold State.runLive
  extract_lets p c
  split
  · exact h
  · extract_lets old s1 call old' old''
    have h1 : s1.Canonical := (h.setCore _ _).setReg _ _
    have hold'' : old''.Canonical := (h1.setCle _ _).showCall _
    exact hold''.elsewhere (by rfl)

theorem State.Canonical.enterRecovering {s : State} (h : s.Canonical) (n : Fin 12) (cause : Nat) :
    (s.enterRecovering n cause).Canonical := by
  unfold State.enterRecovering
  extract_lets c s1 s2 s3
  have h1 : s1.Canonical := (h.unCheckpoint _).setCtl _ _
  have h2 : s2.Canonical := (((h1.rollBack _).dropCle _ _).pauseDma _).descHold _
  have h3 : s3.Canonical := (h2.injEnd _ _).count _ _
  exact (h3.setSl _ _).pinsSlice _

theorem State.Canonical.recoverable {s : State} (h : s.Canonical) (n : Fin 12) (cause : Nat) : (s.recoverable n cause).Canonical := by
  unfold State.recoverable
  extract_lets st c
  exact .ite (h.ite (h.setCtl _ _)) ((h.enterRecovering _ _).ite ((h.enterSafe _ _).ite ((h.enterSafe _ _).ite ((h.slFault _ _).ite h))))

end Machine
end Sys2Proof
end

section
/-! PROOFS. The canonical form: memory, control loops and microcode. -/

namespace Sys2Proof
namespace Machine

/-! Memory with its check bits. -/

theorem State.Canonical.corrected {s : State} (h : s.Canonical) (a : Nat) : (s.corrected a).Canonical := by
  unfold State.corrected
  split
  · exact (h.count _ _).clearMark _
  · extract_lets s1 s2 old
    have h1 : s1.Canonical := by
      unfold s1
      split
      · exact h.count _ _
      · exact h.count _ _
    have h2 : s2.Canonical := h1.setF _ _ _
    exact h2.ite (h2.elsewhere (by rfl))

theorem State.Canonical.channelDown {s : State} (h : s.Canonical) (c : Fin 2) : (s.channelDown c).Canonical :=
  h.ite ((((h.setF _ _ _).setF _ _ _).setF _ _ _).fire _)

theorem State.Canonical.noteUe {s : State} (h : s.Canonical) (c : Fin 2) : (s.noteUe c).Canonical := by
  unfold State.noteUe
  extract_lets l old s1 lim
  have h1 : s1.Canonical := h.elsewhere (by rfl)
  exact (h1.channelDown _).ite h1

theorem State.Canonical.uncorrectable {s : State} (h : s.Canonical) (a : Nat) : (s.uncorrectable a).Canonical := by
  unfold State.uncorrectable
  extract_lets k s1 s1' s2
  have h1 : s1.Canonical := ((h.clearMark _).setCell _ _).setCell _ _
  have h1' : s1'.Canonical := (h.clearMark _).setCell _ _
  have h2 : s2.Canonical := (h1'.setReg _ _).setF _ _ _
  split
  · exact ((((h1.count _ _).setReg _ _).setF _ _ _).fire _).noteUe _
  · split
    · exact (h2.count _ _).fireLocal _ _
    · exact (h2.count _ _).fire _

theorem State.Canonical.rd {s : State} (h : s.Canonical) (a : Nat) : (s.rd a).st.Canonical := by
  unfold State.rd
  refine .iteCell h ?_
  split
  · exact h
  · exact h.corrected _
  · exact h.uncorrectable _

theorem State.Canonical.freshBits {s : State} (h : s.Canonical) (p : Nat → Bool) : (s.freshBits p).Canonical :=
  h.elsewhere (by rfl)

theorem State.Canonical.wr {s : State} (h : s.Canonical) (by_ : Option (Fin 13)) (a : Nat) (c : Cell) : (s.wr by_ a c).Canonical := by
  unfold State.wr
  refine .ite h ?_
  extract_lets t s0
  have ht : t.Canonical := h.touchPage _
  have h0 : s0.Canonical := by
    unfold s0
    split
    · exact (ht.clearMark _).ite ((ht.uncorrectable _).ite (ht.corrected _))
    · exact ht.clearMark _
  exact h0.ite ((h0.breakResv _ _).setCell _ _)

theorem State.Canonical.writeBack {s : State} (h : s.Canonical) (a : Nat) : (s.writeBack a).Canonical :=
  (h.clearMark _).ite h

theorem State.Canonical.rawWrite {s : State} (h : s.Canonical) (a : Nat) (w : Word) : (s.rawWrite a w).Canonical := by
  unfold State.rawWrite
  extract_lets r
  have hr : r.st.Canonical := h.rd _
  exact hr.badAcc.ite (hr.wr _ _ _)

theorem State.Canonical.rawRead {s : State} (h : s.Canonical) (a : Nat) : (s.rawRead a).1.Canonical := by
  unfold State.rawRead
  extract_lets r
  have hr : r.st.Canonical := h.rd _
  exact hr.badAcc.iteFst hr

theorem State.Canonical.setClearing {s : State} (h : s.Canonical) (c : BitVec 14) : (s.setClearing c).Canonical :=
  (h.elsewhere (by rfl)).setB _ _ _

theorem State.Canonical.clearCopies {s : State} (h : s.Canonical) : (s.clearCopies).Canonical := { h with mcopy := rfl }

theorem State.Canonical.clearOnChip {s : State} (h : s.Canonical) : (s.clearOnChip).Canonical :=
  { h with cells := SMap.wf_clear cellDefault (fun a => !inMain a) s.cells h.cells, prog := rfl, mstore := rfl, mcopy := rfl }

theorem State.Canonical.clearBegin {s : State} (h : s.Canonical) (t : Nat) : (s.clearBegin t).Canonical := by
  unfold State.clearBegin
  extract_lets s1
  have h1 : s1.Canonical := ((h.clearCells _ _).clearProg _).ite (((h.clearCells _ _).clearCopies).ite (h.clearCells _ _))
  exact h1.setClearing _

theorem State.Canonical.clearEnd {s : State} (h : s.Canonical) (t : Fin 14) : (s.clearEnd t).Canonical :=
  h.setClearing _

theorem State.Canonical.clearMain {s : State} (h : s.Canonical) : (s.clearMain).Canonical := by
  unfold State.clearMain
  extract_lets s1 old
  have h1 : s1.Canonical := h.clearCells _ _
  exact (h1.elsewhere (by rfl)).setF _ _ _

theorem State.Canonical.fillEnd {s : State} (h : s.Canonical) (c : Fin 2) : (s.fillEnd c).Canonical := by
  unfold State.fillEnd
  refine .ite ?_ h
  extract_lets s1 old
  have h1 : s1.Canonical := h.freshBits _
  exact (h1.elsewhere (by rfl)).setF _ _ _

theorem State.Canonical.wipeBegin {s : State} (h : s.Canonical) : (s.wipeBegin).Canonical := by
  unfold State.wipeBegin
  extract_lets c old
  exact (h.setCore _ _).setF _ _ _

theorem State.Canonical.wiped {s : State} (h : s.Canonical) : (s.wiped).Canonical :=
  (((h.clearCells _ _).setF _ _ _).fire _).ite h

theorem State.Canonical.scrubBurst {s : State} (h : s.Canonical) (c : Nat) : (s.scrubBurst c).Canonical := by
  unfold State.scrubBurst
  refine .ite h ?_
  extract_lets a b base s1 s2
  have h1 : s1.Canonical := h.foldl _ _ (fun _ _ h1 => h1.rd _)
  have h2 : s2.Canonical := h1.countWrap _ _
  exact (h2.countWrap _ _).ite h2

theorem State.Canonical.scrub {s : State} (h : s.Canonical) : (s.scrub).Canonical :=
  (h.scrubBurst _).scrubBurst _

theorem State.Canonical.marchReq {s : State} (h : s.Canonical) (key t : Nat) (destr : Bool) : (s.marchReq key t destr).Canonical := by
  unfold State.marchReq
  extract_lets st a old
  exact (h.setF _ _ _).ite (((h.elsewhere (by rfl)).setReg _ _).setF _ _ _)

theorem State.Canonical.marchClear {s : State} (h : s.Canonical) (t : Nat) : (s.marchClear t).Canonical := by
  unfold State.marchClear
  refine .ite ?_ ((h.clearCells _ _).ite (h.clearCells _ _))
  extract_lets s1
  have h1 : s1.Canonical := (h.clearCells _ _).clearProg _
  split
  · extract_lets n old
    exact h1.setCtl _ _
  · exact h1

theorem State.Canonical.marchRecord {s : State} (h : s.Canonical) (r : MarchRes) : (s.marchRecord r).Canonical := by
  unfold State.marchRecord
  extract_lets a bad s1
  have h1 : s1.Canonical := (((h.setF _ _ _).setB _ _ _).setF _ _ _).setF _ _ _
  exact (h1.setReg _ _).fire _

theorem State.Canonical.bootMarch {s : State} (h : s.Canonical) (t : Nat) (r : MarchRes) : (s.bootMarch t r).Canonical :=
  (h.setReg _ _).marchRecord _

theorem State.Canonical.marchEnd {s : State} (h : s.Canonical) (r : MarchRes) : (s.marchEnd r).Canonical := by
  unfold State.marchEnd
  split
  · exact h
  · extract_lets old s1 bad s3 s4
    have h1 : s1.Canonical := (h.elsewhere (by rfl)).setF _ _ _
    have h3 : s3.Canonical := ((h1.marchClear _).ite h1).marchRecord _
    have h4 : s4.Canonical := h3.descDone _ _ _
    refine .ite h4 ?_
    exact State.Canonical.dite (fun _ => (h4.slFault _ _).ite (h4.fenceNow _ _))
      (fun _ => (h4.channelDown _).ite ((h4.channelDown _).ite h4))

theorem State.Canonical.memWrite {s : State} (h : s.Canonical) (a : Nat) (v : Word) : (s.memWrite a v).Canonical :=
  (h.setReg _ _).ite ((h.setReg _ _).ite ((h.marchReq _ _ _).ite h))

theorem State.Canonical.mmcWrite {s : State} (h : s.Canonical) (a : Nat) (v : Word) : (s.mmcWrite a v).Canonical :=
  (h.setReg _ _).ite (((h.setReg _ _).ite h).ite ((h.setReg _ _).ite h))

/-! Injection. -/

theorem State.Canonical.setInj {s : State} (h : s.Canonical) (n : Fin 12) (x : InjSt) : (s.setInj n x).Canonical :=
  h.elsewhere (by rfl)

theorem State.Canonical.genValue {s : State} (h : s.Canonical) (n : Fin 12) : (s.genValue n).1.Canonical := by
  unfold State.genValue
  extract_lets x amp
  exact h.iteFst h.fresh

theorem State.Canonical.genAdvance {s : State} (h : s.Canonical) (n : Fin 12) : (s.genAdvance n).Canonical := by
  unfold State.genAdvance
  extract_lets x freq rate fend f s1
  have h1 : s1.Canonical := h.setInj _ _
  split
  · exact h.setInj _ _
  · exact (h.setInj _ _).ite (h.setInj _ _)
  · exact (h1.injEnd _ _).ite h1

theorem State.Canonical.capture {s : State} (h : s.Canonical) (n : Fin 12) (c : CommitRec) : (s.capture n c).Canonical := by
  unfold State.capture
  extract_lets x a b
  exact (h.setInj _ _).ite ((h.setF _ _ _).count _ _)

theorem State.Canonical.putSum {s : State} (h : s.Canonical) (n m : Nat) (v : Int) : (s.putSum n m v).Canonical := by
  unfold State.putSum
  extract_lets u
  exact (h.setReg _ _).setReg _ _

theorem State.Canonical.correlate {s : State} (h : s.Canonical) (n : Fin 12) (c : CommitRec) : (s.correlate n c).Canonical := by
  unfold State.correlate
  extract_lets x settle len k s1 a b sn cs v s2 s3
  have h1 : s1.Canonical := h.setInj _ _
  have h2 : s2.Canonical := h1.setInj _ _
  have h3 : s3.Canonical := (((h2.putSum _ _ _).putSum _ _ _).putSum _ _ _).putSum _ _ _
  exact h1.ite (h2.ite (((h3.setF _ _ _).injEnd _ _).fireLocal _ _))

theorem State.Canonical.injCommit {s : State} (h : s.Canonical) (n : Fin 12) (j : Nat) (c : CommitRec) : (s.injCommit n j c).Canonical := by
  unfold State.injCommit
  refine .ite h ?_
  extract_lets s1 s2
  have h1 : s1.Canonical := (h.capture _ _).ite h
  have h2 : s2.Canonical := (h1.correlate _ _).ite h1
  exact h1.ite ((h2.genAdvance _).ite h2)

theorem State.Canonical.captureWrite {s : State} (h : s.Canonical) (n : Fin 12) : (s.captureWrite n).Canonical := by
  unfold State.captureWrite
  extract_lets x i a
  split
  · exact h
  · exact ((h.wr _ _ _).setInj _ _).setF _ _ _

theorem State.Canonical.injRefuse {s : State} (h : s.Canonical) (n : Nat) : (s.injRefuse n).Canonical :=
  (h.setF _ _ _).count _ _

theorem State.Canonical.injStart {s : State} (h : s.Canonical) (n : Fin 12) : (s.injStart n).Canonical := by
  unfold State.injStart
  extract_lets corr a old
  exact (((h.setF _ _ _).setF _ _ _).setB _ _ _).setInj _ _

theorem State.Canonical.injCtrlWrite {s : State} (h : s.Canonical) (x : Access) (n : Fin 12) (v : Word) :
    (s.injCtrlWrite x n v).Canonical := by
  unfold State.injCtrlWrite
  extract_lets stop start s1
  have h1 : s1.Canonical := h.setReg _ _
  exact ((h.injEnd _ _).ite (h.injRefuse _)).ite ((h.injRefuse _).ite ((h1.injStart _).ite h1))

theorem State.Canonical.injWrite {s : State} (h : s.Canonical) (x : Access) (n : Fin 12) (a : Nat) (v : Word) :
    (s.injWrite x n a v).Canonical := by
  unfold State.injWrite
  extract_lets o run s1 breaks l
  have h1 : s1.Canonical := h.setReg _ _
  refine .ite (h.injCtrlWrite _ _ _) ?_
  refine .ite (h.setReg _ _) ?_
  refine .ite (((h1.injEnd _ _).ite h1).ite (h.injRefuse _)) ?_
  refine .ite ((h.injRefuse _).ite (h.setReg _ _)) ?_
  exact .ite ((h.injRefuse _).ite (h.setReg _ _)) (((h.injRefuse _).ite ((h.setReg _ _).setF _ _ _)).ite
    (((h.injRefuse _).ite (h.setReg _ _)).ite h))

theorem State.Canonical.injMode {s : State} (h : s.Canonical) : (s.injMode).Canonical :=
  h.foldl _ _ (fun _ _ h1 => (h1.injEnd _ _).ite h1)

theorem State.Canonical.injReset {s : State} (h : s.Canonical) (n : Fin 12) : (s.injReset n).Canonical :=
  (h.resetRegs _ _).setInj _ _

theorem State.Canonical.sarRecord {s : State} (h : s.Canonical) (n : Fin 12) (k : Fin 4) : (s.sarRecord n k).Canonical := by
  unfold State.sarRecord
  extract_lets q mb idx a
  split
  · exact h
  · extract_lets s1
    have h1 : s1.Canonical := (h.wr _ _ _).wr _ _ _
    exact (h1.setSr _ _ _).setF _ _ _

/-! The control loop engine. -/

theorem State.Canonical.setUword {s : State} (h : s.Canonical) (n w : Nat) (v : MWord) : (s.setUword n w v).Canonical :=
  { h with mstore := SMap.wf_put _ s.mstore _ v h.mstore }

theorem State.Canonical.showL {s : State} (h : s.Canonical) (n j : Nat) : (s.showL n j).Canonical :=
  h.setF _ _ _

theorem State.Canonical.showLs {s : State} (h : s.Canonical) (n : Nat) : (s.showLs n).Canonical :=
  h.foldl _ _ (fun _ _ h1 => h1.showL _ _)

theorem State.Canonical.seqFree {s : State} (h : s.Canonical) (n : Fin 12) : (s.seqFree n).Canonical := by
  unfold State.seqFree
  extract_lets c
  exact (h.setCle _ _).setF _ _ _

theorem State.Canonical.abandonCall {s : State} (h : s.Canonical) (n : Fin 12) : (s.abandonCall n).Canonical := by
  unfold State.abandonCall
  extract_lets c
  refine .ite (h.seqFree _) ?_
  split
  · exact (((h.setCle _ _).count _ _).showCall _).ite h
  · exact h

theorem State.Canonical.loopTrig {s : State} (h : s.Canonical) (n : Fin 12) (j : Fin 16) : (s.loopTrig n j).Canonical := by
  unfold State.loopTrig
  refine .ite h ?_
  refine .ite (h.noteSkip _ _) ?_
  refine .ite h ?_
  split
  · exact (h.setQ _ _ _).abandonCall _
  · exact h.cleSkip _ _
  · exact (h.setF _ _ _).ite (h.cleSkip _ _)

theorem State.Canonical.swtrig {s : State} (h : s.Canonical) (n : Fin 12) (v : Word) : (s.swtrig n v).Canonical :=
  h.foldl _ _ (fun _ _ h1 => (h1.loopTrig _ _).ite h1)

theorem State.Canonical.injectSnap {s : State} (h : s.Canonical) (n : Fin 12) (j : Fin 16) (p : Snap) :
    (s.injectSnap n j p).1.Canonical := by
  unfold State.injectSnap
  refine .iteFst ?_ h
  extract_lets phi run
  split
  next t _ e =>
    have ht : t.Canonical := State.Canonical.of_fst (h.genValue _) e
    refine .iteFst ht ?_
    extract_lets q
    split
    · exact ht
    · exact ht
    · exact ht

theorem State.Canonical.routineError {s : State} (h : s.Canonical) (n : Fin 12) (loop : Option (Fin 16)) (addr cause : Nat) :
    (s.routineError n loop addr cause).Canonical := by
  unfold State.routineError
  extract_lets r s1 s2
  have h1 : s1.Canonical := (h.setReg _ _).count _ _
  have h2 : s2.Canonical := (h1.setF _ _ _).fireLocal _ _
  split
  · exact h2.cleSkip _ _
  · exact h2

theorem State.Canonical.callResult {s : State} (h : s.Canonical) (n : Fin 12) (c : Cell) : (s.callResult n c).Canonical := by
  unfold State.callResult
  extract_lets k old s1 old'
  have h1 : s1.Canonical := h.setCore _ _
  exact (h1.setCle _ _).showCall _

theorem State.Canonical.dropCall {s : State} (h : s.Canonical) (n : Fin 12) : (s.dropCall n).Canonical := by
  unfold State.dropCall
  extract_lets t old
  have ht : t.Canonical := by
    unfold t
    split
    next e =>
      exact (h.seqFree _).ite h
    · exact h
  exact (ht.setCle _ _).showCall _

theorem State.Canonical.sampleError {s : State} (h : s.Canonical) (n : Fin 12) (j : Fin 16) (addr cause : Nat) :
    (s.sampleError n j addr cause).Canonical := by
  unfold State.sampleError
  extract_lets s1 c l q c1
  have h1 : s1.Canonical := (h.routineError _ _ _ _).setF _ _ _
  exact (((h1.setCle _ _).seqFree _).setQ _ _ _).ite (h1.setCle _ _)

theorem State.Canonical.callError {s : State} (h : s.Canonical) (n : Fin 12) (addr cause : Nat) : (s.callError n addr cause).Canonical := by
  unfold State.callError
  extract_lets s1 c q
  have h1 : s1.Canonical := (h.routineError _ _ _ _).callResult _ _
  exact (h1.seqFree _).ite (h1.setCle _ _)

theorem State.Canonical.machineCheck {s : State} (h : s.Canonical) (n : Fin 12) (w : Nat) : (s.machineCheck n w).Canonical := by
  unfold State.machineCheck
  extract_lets a s1 old
  have h1 : s1.Canonical := ((h.count _ _).setF _ _ _).setF _ _ _
  exact (h1.setCtl _ _).recoverable _ _

theorem State.Canonical.toCommit {s : State} (h : s.Canonical) (n : Fin 12) (j : Fin 16) (r : CommitRec) :
    (s.toCommit n j r).Canonical := by
  unfold State.toCommit
  extract_lets c old s1
  have h1 : s1.Canonical := h.setCle _ _
  exact (h1.seqFree _).setQ _ _ _

theorem State.Canonical.memField {s : State} (h : s.Canonical) (n : Fin 12) (w : MWord) (q : SeqSt) (loop : Option (Fin 16)) :
    (s.memField n w q loop).1.Canonical := by
  have hr := h.rd (smem n (4 * mbits w 107 91))
  obtain ⟨r, e⟩ : ∃ r, s.rd (smem n (4 * mbits w 107 91)) = r := ⟨_, rfl⟩
  unfold State.memField
  simp only [e] at hr ⊢
  split
  · exact .iteFst hr (.iteFst hr hr)
  · exact State.Canonical.setReg (h.wr _ _ _) _ _
  · exact h

theorem State.Canonical.issueWord {s : State} (h : s.Canonical) (n : Fin 12) (loop : Option (Fin 16)) (p : Snap) (eff : Effects) :
    (s.issueWord n loop p eff).Canonical := by
  unfold State.issueWord
  extract_lets q w att fail
  have hfail : ∀ t cause, t.Canonical → (fail t cause).Canonical := by
    intro t cause ht
    unfold fail
    split
    · exact ht.sampleError _ _ _ _
    · exact ht.callError _ _ _
  refine .ite (h.machineCheck _ _) ?_
  split
  · exact hfail _ _ h
  · have ht := h.memField n w q loop
    generalize s.memField n w q loop = r at ht ⊢
    obtain ⟨t, rd, ue, bad⟩ := r
    refine .ite (State.Canonical.recoverable ht _ _) (.ite (hfail _ _ ht) (.ite ?_ (State.Canonical.setCle ht _ _)))
    split
    · exact State.Canonical.toCommit ht _ _ _
    · exact ((State.Canonical.setCle ht _ _).seqFree _).showCall _

theorem State.Canonical.vendorWord {s : State} (h : s.Canonical) (n : Fin 12) (j : Fin 16) (p : Snap) (eff : Effects) :
    (s.vendorWord n j p eff).Canonical := by
  unfold State.vendorWord
  extract_lets c q
  exact (h.machineCheck _ _).ite ((h.setCle _ _).ite (h.toCommit _ _ _))

theorem State.Canonical.loopIssue {s : State} (h : s.Canonical) (n : Fin 12) (at_ : IssueAt) : (s.loopIssue n at_).Canonical := by
  unfold State.loopIssue
  extract_lets c old
  split
  · exact h
  · refine .ite h ?_
    extract_lets l s1 loops
    have h1 : s1.Canonical := ((h.count _ _).cleFlag _ _ _).ite h
    split
    · extract_lets s2
      have h2 : s2.Canonical := ((h1.count _ _).setF _ _ _).ite h1
      split
      next s3 _ e'' =>
        have h3 : s3.Canonical := State.Canonical.of_fst (h2.injectSnap _ _ _) e''
        extract_lets s4 s5 entry seq old' s6
        have h4 : s4.Canonical := (h3.setQ _ _ _).setB _ _ _
        have h5 : s5.Canonical := (h4.setF _ _ _).setF _ _ _
        have h6 : s6.Canonical := h5.setCle _ _
        split
        · exact h6.vendorWord _ _ _ _
        · refine .ite (h6.machineCheck _ _) ?_
          split
          · exact h6.sampleError _ _ _ _
          · exact h6.issueWord _ _ _ _

theorem State.Canonical.lane {s : State} (h : s.Canonical) (x d : Int) : (s.lane x d).1.Canonical := by
  unfold State.lane
  exact h.iteFst h.fresh

theorem State.Canonical.vendorCall {s : State} (h : s.Canonical) (k : Nat) (a x : Word) : (s.vendorCall k a x).1.Canonical := by
  unfold State.vendorCall
  extract_lets a0 a1 x0 x1 two
  have htwo : ∀ r0 r1, (two r0 r1).1.Canonical := fun r0 r1 => (h.lane r0 32768).lane r1 32768
  split
  · exact .iteFst h h.fresh
  · exact htwo _ _
  · exact htwo _ _
  · exact h
  · exact h

theorem State.Canonical.microword {s : State} (h : s.Canonical) (n : Fin 12) : (s.microword n).Canonical := by
  unfold State.microword
  extract_lets c q s1
  have h1 : s1.Canonical := h.seqFree _
  refine .ite h ?_
  refine .ite ?_ ?_
  · refine .ite (h.setCle _ _) ?_
    split
    · exact h1.setQ _ _ _
    · exact h1
  · split
    · exact h
    · split
      · exact h.vendorWord _ _ _ _
      · exact h.issueWord _ _ _ _
    next e =>
      split
      · refine .ite ?_ (h.issueWord _ _ _ _)
        refine .ite (h.machineCheck _ _) ?_
        refine .ite (h.setCle _ _) ?_
        split
        next t _ e'' =>
          have ht : t.Canonical := State.Canonical.of_fst (h.vendorCall _ _ _) e''
          exact ((ht.setCle _ _).seqFree _).showCall _
      · exact h.seqFree _

theorem State.Canonical.commitCompare {s : State} (h : s.Canonical) (n : Fin 12) (j : Fin 16) (agree : Bool) :
    (s.commitCompare n j agree).Canonical := by
  unfold State.commitCompare
  extract_lets c l per d held s1 old
  have h1 : s1.Canonical := h.count _ _
  split
  · exact h
  · exact h.ite ((h.setCle _ _).ite ((h1.setCtl _ _).recoverable _ _))

theorem State.Canonical.writeTarget {s : State} (h : s.Canonical) (n : Fin 12) (j : Fin 16) (r : CommitRec) (coll : Bool) :
    (s.writeTarget n j r coll).Canonical := by
  unfold State.writeTarget
  extract_lets a i s1
  have h1 : s1.Canonical := h.setReg _ _
  split
  · exact h.commitCmp _ _ _ _ _
  · exact ((h1.count _ _).setF _ _ _).ite h1
  · exact h.wr _ _ _
  · exact h

theorem State.Canonical.setHist {s : State} (h : s.Canonical) (n : Fin 12) (j : Fin 16) (e y : Int × Int × Int) :
    (s.setHist n j e y).Canonical :=
  ((h.setReg _ _).setReg _ _).setReg _ _

theorem State.Canonical.cmdDone {s : State} (h : s.Canonical) (n : Fin 12) (j : Fin 16) (pend : Fld) (code : Nat) :
    (s.cmdDone n j pend code).Canonical :=
  (h.setF _ _ _).twinConfig _ _ _

theorem State.Canonical.applyEffects {s : State} (h : s.Canonical) (n : Fin 12) (j : Fin 16) (r : CommitRec) :
    (s.applyEffects n j r).Canonical := by
  unfold State.applyEffects
  extract_lets lc s1 t s2
  have h1 : s1.Canonical := (((h.setB _ _ _).cmdDone _ _ _ _).descDone _ _ _).ite h
  have ht : t.Canonical := ((h1.setB _ _ _).cmdDone _ _ _ _).descDone _ _ _
  have h2 : s2.Canonical := ((ht.setReg _ _).ite ht).ite h1
  exact (h2.cmdDone _ _ _ _).ite h2

theorem State.Canonical.loopIdle {s : State} (h : s.Canonical) (n : Fin 12) (j : Fin 16) : (s.loopIdle n j).Canonical := by
  unfold State.loopIdle
  extract_lets ls c l owed s1
  have h1 : s1.Canonical := (h.setF _ _ _).setCle _ _
  exact (((h1.setF _ _ _).setQ _ _ _).abandonCall _).ite (h1.setQ _ _ _)

theorem State.Canonical.commitComplete {s : State} (h : s.Canonical) (n : Fin 12) (j : Fin 16) (coll : Bool) :
    (s.commitComplete n j coll).Canonical := by
  unfold State.commitComplete
  extract_lets l ls
  split
  · refine .ite h ?_
    extract_lets s1
    have h1 : s1.Canonical := h.writeTarget _ _ _ _
    split
    · extract_lets s2 s3 s4 c4 l4 s5 s6 s7 s8
      have h2 : s2.Canonical := ((h1.setHist _ _ _ _).setReg _ _).applyEffects _ _ _
      have h3 : s3.Canonical := (h2.setF _ _ _).ite h2
      have h4 : s4.Canonical := ((h3.setF _ _ _).ite h3).countWrap _ _
      have h5 : s5.Canonical := h4.setCle _ _
      have h6 : s6.Canonical := h5.injCommit _ _ _
      have h7 : s7.Canonical := (h6.twinSend _).ite h6
      have h8 : s8.Canonical := h7.loopIdle _ _
      exact h8.foldl _ _ (fun _ _ h9 => h9.loopTrig _ _)
  · exact (h.loopIdle _ _).ite h

theorem State.Canonical.cleCmd {s : State} (h : s.Canonical) (n : Fin 12) (v : Word) : (s.cleCmd n v).Canonical := by
  unfold State.cleCmd
  extract_lets j code st a s1
  have h1 : s1.Canonical := ((h.setF _ _ _).setF _ _ _).setF _ _ _
  refine .ite (h1.count _ _) ?_
  split
  · exact h1.setF _ _ _
  · exact h1

theorem State.Canonical.cleRefuse {s : State} (h : s.Canonical) (n : Nat) : (s.cleRefuse n).Canonical :=
  h.count _ _

theorem State.Canonical.lctrlWrite {s : State} (h : s.Canonical) (n : Fin 12) (j : Nat) (v : Word) : (s.lctrlWrite n j v).Canonical := by
  unfold State.lctrlWrite
  extract_lets trig arg
  exact (h.cleRefuse _).ite (((h.setReg _ _).showL _ _).showSync)

theorem State.Canonical.tgtWrite {s : State} (h : s.Canonical) (n : Fin 12) (j : Nat) (v : Word) : (s.tgtWrite n j v).Canonical := by
  unfold State.tgtWrite
  extract_lets k i
  exact (h.cleRefuse _).ite (h.setReg _ _)

theorem State.Canonical.bankWrite {s : State} (h : s.Canonical) (n : Fin 12) (j k r : Nat) (a : Nat) (v : Word) :
    (s.bankWrite n j k r a v).Canonical := by
  unfold State.bankWrite
  extract_lets activeBank w
  exact (h.cleRefuse _).ite ((h.setReg _ _).twinConfig _ _ _)

theorem State.Canonical.manWrite {s : State} (h : s.Canonical) (n : Fin 12) (j a : Nat) (v : Word) : (s.manWrite n j a v).Canonical := by
  unfold State.manWrite
  extract_lets c i old s1
  have h1 : s1.Canonical := h.setCle _ _
  exact (h1.setReg _ _).twinConfig _ _ _

theorem State.Canonical.loopWrite {s : State} (h : s.Canonical) (n : Fin 12) (j o : Nat) (a : Nat) (v : Word) :
    (s.loopWrite n j o a v).Canonical := by
  unfold State.loopWrite
  refine .ite (h.cleRefuse _) ?_
  refine .ite (h.lctrlWrite _ _ _) ?_
  refine .ite (h.setReg _ _) ?_
  refine .ite (h.tgtWrite _ _ _) ?_
  refine .ite (h.setReg _ _) ?_
  exact .ite ((h.cleRefuse _).ite ((h.setReg _ _).twinConfig _ _ _)) ((h.manWrite _ _ _ _).ite ((h.bankWrite _ _ _ _ _ _).ite h))

theorem State.Canonical.cleWrite {s : State} (h : s.Canonical) (n : Fin 12) (a : Nat) (v : Word) : (s.cleWrite n a v).Canonical := by
  unfold State.cleWrite
  extract_lets o
  exact .ite (h.swtrig _ _) ((h.cleCmd _ _).ite ((h.loopWrite _ _ _ _ _).ite (((h.setReg _ _).ite (h.cleRefuse _)).ite h)))

theorem State.Canonical.sarHandoff {s : State} (h : s.Canonical) (n : Fin 12) (k : Fin 4) (coll : Bool) :
    (s.sarHandoff n k coll).Canonical := by
  unfold State.sarHandoff
  extract_lets q
  split
  · exact h
  · refine .ite (((h.setSr _ _ _).sarMissed _ _ _).ite (h.setSr _ _ _)) ?_
    extract_lets ent dest j s1 s2 s3 s4
    have h1 : s1.Canonical := (h.setSr _ _ _).setReg _ _
    have h2 : s2.Canonical := (h1.sarQueue _ _ _).ite h1
    have h3 : s3.Canonical := h2.setReg _ _
    have h4 : s4.Canonical := ((h3.count _ _).setF _ _ _).ite h3
    refine .ite ?_ h2
    split
    · exact h4.loopTrig _ _
    · exact h4

theorem State.Canonical.cleReset {s : State} (h : s.Canonical) (n : Fin 12) : (s.cleReset n).Canonical :=
  (h.resetRegs _ _).setCle _ _

/-! The microcode store. -/

theorem State.Canonical.freshCopies {s : State} (h : s.Canonical) (lo hi : Nat) : (s.freshCopies lo hi).Canonical := by
  unfold State.freshCopies
  extract_lets inside n first new whole
  exact (h.elsewhere (by rfl)).freshBits _

theorem State.Canonical.readCopy {s : State} (h : s.Canonical) (n w : Nat) : (s.readCopy n w).1.Canonical := by
  unfold State.readCopy
  extract_lets t
  have ht : t.Canonical := h.foldl _ _ (fun _ _ h1 => h1.rd _)
  exact ht.iteFst ht

theorem State.Canonical.loadVendor {s : State} (h : s.Canonical) (n : Nat) : (s.loadVendor n).1.Canonical := by
  unfold State.loadVendor
  extract_lets here s1 v s2 bad s3
  have h1 : s1.Canonical := h.foldl _ _ (fun _ _ hu => hu.rd _)
  have hv : ∀ e ∈ v, e.1 / 4096 = n := fun e he => (mem_ofSlice he).1
  have h2 : s2.Canonical := (h1.withStores (putSlice_wf h1.mstore (ofSlice_wf h1.mcopy _ _) hv)
    (putSlice_wf h1.mcopy (ofSlice_wf h1.mcopy _ _) hv)).freshCopies _ _
  have h3 : s3.Canonical := h2.foldl _ _ (fun _ _ hu => hu.setUword _ _ _)
  exact (h3.setReg _ _).showLs _

theorem State.Canonical.loadRefuse {s : State} (h : s.Canonical) (n reason addr : Nat) : (s.loadRefuse n reason addr).Canonical :=
  (h.count _ _).setReg _ _

theorem State.Canonical.setCopyWord {s : State} (h : s.Canonical) (a : Nat) (v : MWord) :
    State.Canonical { s with mcopy := SMap.put (fun _ => (0 : MWord)) s.mcopy a v } :=
  { h with mcopy := SMap.wf_put _ s.mcopy a v h.mcopy }

theorem State.Canonical.loadWord {s : State} (h : s.Canonical) (n w : Nat) (v : MWord) : (s.loadWord n w v).Canonical := by
  unfold State.loadWord
  extract_lets lo t s1
  have ht : t.Canonical := h.foldl _ _ (fun _ _ hu => (hu.rd _).clearMark _)
  have h1 : s1.Canonical := (ht.setUword _ _ _).freshCopies _ _
  exact h1.setCopyWord _ _

theorem State.Canonical.commitWord {s : State} (h : s.Canonical) (n : Fin 12) (w : Nat) (v : MWord) : (s.commitWord n w v).Canonical := by
  unfold State.commitWord
  split
  · exact ((h.loadWord _ _ _).showLs _).setCle _ _
  · exact (h.loadRefuse _ _ _).setF _ _ _

theorem State.Canonical.windowWrite {s : State} (h : s.Canonical) (n : Fin 12) (off : Nat) (v : Word) :
    (s.windowWrite n off v).Canonical := by
  unfold State.windowWrite
  extract_lets w o c m
  exact h.ite ((h.setCle _ _).ite ((h.commitWord _ _ _).ite h))

theorem State.Canonical.setLdOpen {s : State} (h : s.Canonical) (n : Fin 12) (b : Bool) : (s.setLdOpen n b).Canonical := by
  unfold State.setLdOpen
  extract_lets a was old s1
  have h1 : s1.Canonical := (h.setB _ _ _).setCle _ _
  exact h.ite ((h1.setF _ _ _).ite h1)

theorem State.Canonical.crcEnd {s : State} (h : s.Canonical) (n : Fin 12) : (s.crcEnd n).Canonical :=
  (((h.setReg _ _).setF _ _ _).crcDone _ _).ite h

theorem State.Canonical.mendWord {s : State} (h : s.Canonical) (n : Nat) (w : Nat) (stuck : Bool) : (s.mendWord n w stuck).1.Canonical := by
  have hr := h.readCopy n w
  rw [State.mendWord_fun]
  beta_reduce
  generalize s.readCopy n w = r at hr ⊢
  obtain ⟨t, _ | v⟩ := r
  · exact hr
  · exact .iteFst hr (State.Canonical.setUword hr _ _ _)

theorem State.Canonical.scanTick {s : State} (h : s.Canonical) (n : Fin 12) : (s.scanTick n).Canonical :=
  (h.countWrap _ _).ite h

theorem State.Canonical.scanRepair {s : State} (h : s.Canonical) (n : Fin 12) (w : BitVec 12) (stuck : Bool) :
    (s.scanRepair n w stuck).Canonical := by
  unfold State.scanRepair
  refine .ite h ?_
  extract_lets a
  split
  next t _ e =>
    have ht : t.Canonical := State.Canonical.of_fst (h.mendWord _ _ _) e
    extract_lets t1 t2
    have ht1 : t1.Canonical := (ht.setF _ _ _).setF _ _ _
    have ht2 : t2.Canonical := by
      unfold t2
      split
      · exact (ht1.count _ _).setF _ _ _
      · exact ht1
    exact (ht2.ite (ht2.setF _ _ _)).showLs _

theorem State.Canonical.mcsCtrlWrite {s : State} (h : s.Canonical) (n : Fin 12) (v : Word) : (s.mcsCtrlWrite n v).Canonical := by
  unfold State.mcsCtrlWrite
  extract_lets a s1
  have h1 : s1.Canonical := h.setF _ _ _
  exact ((h1.setF _ _ _).setLdOpen _ _).ite h1

theorem State.Canonical.xtWrite {s : State} (h : s.Canonical) (n : Fin 12) (k : Nat) (v : Word) : (s.xtWrite n k v).Canonical :=
  h.ite ((h.loadRefuse _ _ _).ite (h.setReg _ _))

theorem State.Canonical.mcsWrite {s : State} (h : s.Canonical) (n : Fin 12) (a : Nat) (v : Word) : (s.mcsWrite n a v).Canonical := by
  unfold State.mcsWrite
  extract_lets o
  refine .ite (h.mcsCtrlWrite _ _) ?_
  exact .ite (h.setReg _ _) ((h.setReg _ _).ite ((h.setReg _ _).ite ((h.setReg _ _).ite ((h.xtWrite _ _ _).ite h))))

theorem State.Canonical.callIssue {s : State} (h : s.Canonical) (n : Fin 12) : (s.callIssue n).Canonical := by
  unfold State.callIssue
  extract_lets c st old
  split
  · exact h
  · refine .ite h ?_
    extract_lets entry len seq s1 old'
    have h1 : s1.Canonical := (h.setCle _ _).showCall _
    refine .ite (h1.machineCheck _ _) ?_
    refine .ite (h1.setCle _ _) ?_
    split
    · exact h1.callError _ _ _
    · exact h1.issueWord _ _ _ _

theorem State.Canonical.callComplete {s : State} (h : s.Canonical) (n : Fin 12) (agree : Bool) : (s.callComplete n agree).Canonical := by
  unfold State.callComplete
  split
  · split
    · exact (h.callResult _ _).ite (((h.count _ _).setCtl _ _).recoverable _ _)
    · exact h
  · exact h

theorem State.Canonical.callTimeout {s : State} (h : s.Canonical) (n : Fin 12) : (s.callTimeout n).Canonical := by
  unfold State.callTimeout
  split
  · exact h.ite ((((h.setCle _ _).ite h).callResult _ _).count _ _)
  · exact h

/-! Arithmetic units. -/

theorem State.Canonical.setMad {s : State} (h : s.Canonical) (m : MadSt) : (s.setMad m).Canonical :=
  h.elsewhere (by rfl)

theorem State.Canonical.madDrop {s : State} (h : s.Canonical) : (s.madDrop).Canonical :=
  (h.count _ _).setF _ _ _

theorem State.Canonical.madResult {s : State} (h : s.Canonical) (u : Fin 4) (r : RawResult) (len : Nat) (lost : Bool) :
    (s.madResult u r len lost).Canonical := by
  unfold State.madResult
  split
  · exact h
  · extract_lets raw offs gain v flags i32 recd s1 s2 old m s3
    have h1 : s1.Canonical := h.setReg _ _
    have h2 : s2.Canonical := (h1.setF _ _ _).ite h1
    have h3 : s3.Canonical := (h2.setMad _).ite ((h2.setMad _).madDrop)
    exact ((((h3.setReg _ _).setF _ _ _).setF _ _ _).fire _).ite h3

theorem State.Canonical.madShow {s : State} (h : s.Canonical) : (s.madShow).Canonical :=
  h.setB _ _ _

theorem State.Canonical.madBoundary {s : State} (h : s.Canonical) (rs : Vector RawResult 4) (lost : Bool) :
    (s.madBoundary rs lost).Canonical := by
  unfold State.madBoundary
  extract_lets len s1 s2 gone old s2' m p mask settled conv
  have h1 : s1.Canonical := h.foldl _ _ (fun _ _ h1 => h1.madResult _ _ _ _)
  have h2 : s2.Canonical := by
    unfold s2
    split
    · exact h1.setReg _ _
    · exact h1
  have h2' : s2'.Canonical := ((h2.setMad _).setF _ _ _).ite h2
  exact (h2'.setMad _).madShow

theorem State.Canonical.madTick {s : State} (h : s.Canonical) (rs : Vector RawResult 4) : (s.madTick rs).Canonical :=
  h.ite ((h.madBoundary _ _).ite ((h.setMad _).ite h))

theorem State.Canonical.zeroCrossing {s : State} (h : s.Canonical) : (s.zeroCrossing).Canonical := by
  unfold State.zeroCrossing
  refine .ite h ?_
  extract_lets now m s1
  have h1 : s1.Canonical := h.setMad _
  split
  · exact h.setMad _
  · exact h.ite ((h.setMad _).ite ((h1.setF _ _ _).setF _ _ _))

theorem State.Canonical.lineLost {s : State} (h : s.Canonical) (rs : Vector RawResult 4) : (s.lineLost rs).Canonical := by
  unfold State.lineLost
  extract_lets late s1
  have h1 : s1.Canonical := ((h.setF _ _ _).setF _ _ _).setF _ _ _
  exact h.ite (h1.madBoundary _ _)

theorem State.Canonical.wmark (s : State) {t : State} (h : t.Canonical) : (s.wmark t).Canonical := by
  unfold State.wmark
  extract_lets mark
  exact h.fireIf _ _

theorem State.Canonical.madRecord {s : State} (h : s.Canonical) : (s.madRecord).Canonical := by
  unfold State.madRecord
  split
  · exact h
  · extract_lets old s0 len w rd a s1
    have h0 : s0.Canonical := h.setMad _
    have h1 : s1.Canonical := h0.foldl _ _ (fun _ _ h2 => h2.wr _ _ _)
    exact h0.madDrop.ite (State.Canonical.wmark _ (h1.setF _ _ _))

theorem State.Canonical.madUrgent {s : State} (h : s.Canonical) (v : Word) : (s.madUrgent v).Canonical :=
  h.ite (((((h.setF _ _ _).setF _ _ _).setMad _).setF _ _ _).ite ((h.setF _ _ _).setF _ _ _))

theorem State.Canonical.refSettled {s : State} (h : s.Canonical) : (s.refSettled).Canonical :=
  h.ite ((h.setF _ _ _).setF _ _ _)

theorem State.Canonical.refFault {s : State} (h : s.Canonical) : (s.refFault).Canonical :=
  (((h.setF _ _ _).setF _ _ _).setF _ _ _).ite h

theorem State.Canonical.madRefuse {s : State} (h : s.Canonical) : (s.madRefuse).Canonical :=
  h.count _ _

theorem State.Canonical.madCtrlWrite {s : State} (h : s.Canonical) (v0 : Word) : (s.madCtrlWrite v0).Canonical := by
  unfold State.madCtrlWrite
  extract_lets v a others en first newRef conv cut s0 old s1 s2
  have h0 : s0.Canonical := (h.setF _ _ _).ite h
  have h1 : s1.Canonical := (h0.setReg _ _).setMad _
  have h2 : s2.Canonical := (h1.setF _ _ _).ite h1
  exact h.madRefuse.ite (((h2.setF _ _ _).ite h2).madShow)

theorem State.Canonical.madScanWrite {s : State} (h : s.Canonical) (v : Word) : (s.madScanWrite v).Canonical :=
  (h.setReg _ _).setMad _

theorem State.Canonical.madWrite {s : State} (h : s.Canonical) (a : Nat) (v : Word) : (s.madWrite a v).Canonical := by
  unfold State.madWrite
  extract_lets o l
  refine .ite (h.madCtrlWrite _) ?_
  refine .ite (h.setReg _ _) ?_
  refine .ite (h.madScanWrite _) ?_
  refine .ite (h.madRefuse.ite (State.Canonical.wmark _ ((h.setReg _ _).setF _ _ _))) ?_
  exact .ite (State.Canonical.wmark _ (h.setReg _ _)) ((h.madUrgent _).ite ((h.setReg _ _).ite ((h.setReg _ _).ite h)))

end Machine
end Sys2Proof
end

section
/-! PROOFS. The canonical form: slices, recovery, twin records and rings. -/

namespace Sys2Proof
namespace Machine

/-! Commands to a slice. -/

theorem State.Canonical.coreReset {s : State} (h : s.Canonical) (p : Fin 13) : (s.coreReset p).Canonical := by
  unfold State.coreReset
  extract_lets c s' old
  have h' : s'.Canonical := State.Canonical.dite (fun _ => (h.dropCall _).elsewhere (by rfl)) (fun _ => h)
  exact (h'.resetRegs _ _).setCore _ _

theorem State.Canonical.releasePair {s : State} (h : s.Canonical) (p : Fin 13) : (s.releasePair p).Canonical :=
  h.setCore _ _

theorem State.Canonical.stpReset {s : State} (h : s.Canonical) (n : Fin 12) : (s.stpReset n).Canonical := by
  unfold State.stpReset
  extract_lets old
  have hold : old.Canonical := h.resetRegs _ _
  exact hold.elsewhere (by rfl)

theorem State.Canonical.dmaReset {s : State} (h : s.Canonical) (e : Fin 13) : (s.dmaReset e).Canonical := by
  unfold State.dmaReset
  extract_lets old
  have hold : old.Canonical := h.resetRegs _ _
  exact hold.elsewhere (by rfl)

theorem State.Canonical.evlReset {s : State} (h : s.Canonical) (n : Fin 12) : (s.evlReset n).Canonical :=
  (h.resetRegs _ _).foldl _ _ (fun _ _ h1 => h1.ite (h1.setRoute _ _))

theorem State.Canonical.slcReset {s : State} (h : s.Canonical) (n : Fin 12) : (s.slcReset n).Canonical := by
  unfold State.slcReset
  extract_lets b old
  have hold : old.Canonical := (h.resetRegs _ _).resetRegs _ _
  exact (hold.elsewhere (by rfl)).tripSample _

theorem State.Canonical.unitReset {s : State} (h : s.Canonical) (n : Fin 12) : (s.unitReset n).Canonical := by
  unfold State.unitReset
  extract_lets s1 s2 s3
  have h1 : s1.Canonical := ((((h.grgReset _).sarReset _).pwmReset _).cleReset _).injReset _
  have h2 : s2.Canonical := ((((h1.ptbEnd _ _).evlReset _).dmaReset _).stpReset _).slcReset _
  have h3 : s3.Canonical := (h2.resetRegs _ _).resetRegs _ _
  exact (h3.setF _ _ _).ite h3

theorem State.Canonical.setOwner {s : State} (h : s.Canonical) (n : Fin 12) (o : Nat) : (s.setOwner n o).Canonical :=
  h.ite (((((h.setF _ _ _).countWrap _ _).staleTarget _ _).staleVectorsOf _).descDisown _ _)

theorem State.Canonical.assign {s : State} (h : s.Canonical) (m : Master) (n : Fin 12) (v : Word) : (s.assign m n v).Canonical :=
  h.ite ((h.setF _ _ _).ite ((h.setF _ _ _).ite ((h.setF _ _ _).ite ((h.setOwner _ _).setF _ _ _))))

theorem State.Canonical.cmdReply {s : State} (h : s.Canonical) (n : Nat) (cmd status : Nat) : (s.cmdReply n cmd status).Canonical := by
  unfold State.cmdReply
  extract_lets a s1
  have h1 : s1.Canonical := (h.setF _ _ _).setF _ _ _
  exact h1.ite (h1.count _ _)

theorem State.Canonical.fenceStart {s : State} (h : s.Canonical) (n : Fin 12) (cause : Nat) (toTwin : Bool) :
    (s.fenceStart n cause toTwin).Canonical := by
  unfold State.fenceStart
  extract_lets st old s0 c
  have h0 : s0.Canonical := h.setCtl _ _
  refine .ite h ?_
  exact .ite (((h0.setCtl _ _).setF _ _ _).pinsSlice _) (((h0.setCtl _ _).clearBegin _).ite (h0.fenceNow _ _))

theorem State.Canonical.fenceCmd {s : State} (h : s.Canonical) (n : Fin 12) (cause : Nat) (toTwin : Bool) :
    (s.fenceCmd n cause toTwin).Canonical :=
  (h.cmdReply _ _ _).ite ((h.cmdReply _ _ _).ite ((h.fenceStart _ _ _).cmdReply _ _ _))

theorem State.Canonical.noteCmd {s : State} (h : s.Canonical) (n : Nat) (cmd : Nat) : (s.noteCmd n cmd).Canonical :=
  h.setF _ _ _

theorem State.Canonical.resumeCmd {s : State} (h : s.Canonical) (n : Fin 12) : (s.resumeCmd n).Canonical := by
  unfold State.resumeCmd
  extract_lets c
  exact (h.cmdReply _ _ _).ite ((h.cmdReply _ _ _).ite ((h.setCtl _ _).noteCmd _ _))

theorem State.Canonical.goCmd {s : State} (h : s.Canonical) (n : Fin 12) : (s.goCmd n).Canonical :=
  (h.cmdReply _ _ _).ite ((h.cmdReply _ _ _).ite ((h.setCtl _ _).cmdReply _ _ _))

theorem State.Canonical.restartCmd {s : State} (h : s.Canonical) (n : Fin 12) : (s.restartCmd n).Canonical :=
  (h.cmdReply _ _ _).ite ((h.cmdReply _ _ _).ite (((h.setCtl _ _).coreReset _).noteCmd _ _))

theorem State.Canonical.stopCmd {s : State} (h : s.Canonical) (n : Fin 12) : (s.stopCmd n).Canonical := by
  unfold State.stopCmd
  refine .ite (h.cmdReply _ _ _) ?_
  exact .ite (h.cmdReply _ _ _) ((((((h.setCtl _ _).haltPair _).dropRoutesTo _).setSl _ _).unitReset _).cmdReply _ _ _)

theorem State.Canonical.slcCmd {s : State} (h : s.Canonical) (m : Master) (n : Fin 12) (v : Word) : (s.slcCmd m n v).Canonical := by
  unfold State.slcCmd
  refine .ite h (.ite (h.cmdReply _ _ _) (.ite (h.cmdReply _ _ _) ?_))
  split
  · exact h.fenceCmd _ _ _
  · exact h.resumeCmd _
  · exact h.goCmd _
  · exact h.restartCmd _
  · exact h.stopCmd _

theorem State.Canonical.resumeFails {s : State} (h : s.Canonical) (n : Nat) (a : Await) : (s.resumeFails n a).Canonical :=
  h.descDone _ _ _

theorem State.Canonical.takeRole {s : State} (h : s.Canonical) (n : Fin 12) : (s.takeRole n).Canonical := by
  unfold State.takeRole
  extract_lets ran
  exact (h.setRole _ _).ite h

theorem State.Canonical.goEnd {s : State} (h : s.Canonical) (n : Fin 12) : (s.goEnd n).Canonical := by
  unfold State.goEnd
  extract_lets old s1
  have h1 : s1.Canonical := (h.setCtl _ _).setSl _ _
  exact (((h1.takeRole _).armPending _).showSync).descDone _ _ _

theorem State.Canonical.goValley {s : State} (h : s.Canonical) (n : Fin 12) (k : Fin 8) : (s.goValley n k).Canonical :=
  (h.goEnd _).ite h

theorem State.Canonical.restartValley {s : State} (h : s.Canonical) (n : Fin 12) (k : Fin 8) : (s.restartValley n k).Canonical := by
  unfold State.restartValley
  extract_lets t
  have ht : t.Canonical := h.counterRestart _ _
  exact (ht.goValley _ _).ite ht

theorem State.Canonical.goTick {s : State} (h : s.Canonical) (n : Fin 12) : (s.goTick n).Canonical :=
  (h.goEnd _).ite h

theorem State.Canonical.resumed {s : State} (h : s.Canonical) (n : Fin 12) : (s.resumed n).Canonical := by
  unfold State.resumed
  extract_lets s1 waits
  have h1 : s1.Canonical := h.descDone _ _ _
  exact ((h1.goCmd _).descNext _ _).ite h1

theorem State.Canonical.resumeEnd {s : State} (h : s.Canonical) (n : Fin 12) : (s.resumeEnd n).Canonical := by
  unfold State.resumeEnd
  extract_lets c loops s1 old old' s2 s3 s2'
  have h1 : s1.Canonical := h.setCtl _ _
  have h2 : s2.Canonical := (h1.setCle _ _).setCtl _ _
  have h3 : s3.Canonical := (((h2.setLdOpen _ _).releasePair _).setSl _ _).pinsSlice _
  have h2' : s2'.Canonical := (h1.slFault _ _).cmdReply _ _ _
  exact h.ite (((h3.cmdReply _ _ _).resumed _).ite ((h2'.resumeFails _ _).resumeFails _ _))

theorem State.Canonical.noteInj {s : State} (h : s.Canonical) (p : Nat) (r : InjRun) : (s.noteInj p r).Canonical := by
  unfold State.noteInj
  extract_lets a runs
  exact h.setReg _ _

theorem State.Canonical.restartEnd {s : State} (h : s.Canonical) (n : Fin 12) (r : InjRun) (selftest : Bool) :
    (s.restartEnd n r selftest).Canonical := by
  unfold State.restartEnd
  extract_lets c s1 a s2 old s3 waits s4 s5 s2'
  have h1 : s1.Canonical := (h.setCtl _ _).noteInj _ _
  have h2 : s2.Canonical := ((h1.setF _ _ _).setF _ _ _).setF _ _ _
  have h3 : s3.Canonical := (h2.setCtl _ _).cmdReply _ _ _
  have h4 : s4.Canonical := (h3.resumeCmd _).descNext _ _
  have h5 : s5.Canonical := h4.descNext _ _
  have h2' : s2'.Canonical := (h1.slFault _ _).cmdReply _ _ _
  exact .ite h (((h5.ite ((h5.resumeFails _ _).resumeFails _ _)).ite h3).ite ((h2'.resumeFails _ _).resumeFails _ _))

/-! Watchdogs. -/

theorem State.Canonical.sysHalt {s : State} (h : s.Canonical) : (s.sysHalt).Canonical := by
  unfold State.sysHalt
  refine .ite h ?_
  extract_lets s0 old
  have h0 : s0.Canonical := (h.handOver _ _).ite h
  have hold : old.Canonical := (h0.unCheckpoint _).haltPair _
  exact ((hold.elsewhere (by rfl)).setF _ _ _).fire _

theorem State.Canonical.wdgViolate {s : State} (h : s.Canonical) (e : Fin 13) (flag : Fld) : (s.wdgViolate e flag).Canonical := by
  unfold State.wdgViolate
  extract_lets a s1
  have h1 : s1.Canonical := (h.setF _ _ _).setF _ _ _
  split
  · extract_lets s2
    have h2 : s2.Canonical := h1.fireLocal _ _
    exact (h2.enterSafe _ _).ite h2
  · exact h1.sysHalt

theorem State.Canonical.wdgReject {s : State} (h : s.Canonical) (e : Fin 13) : (s.wdgReject e).Canonical :=
  h.count _ _

theorem State.Canonical.wdgService {s : State} (h : s.Canonical) (e : Fin 13) (key : Nat) : (s.wdgService e key).Canonical := by
  unfold State.wdgService
  refine .ite h ?_
  extract_lets a expect early s1
  have h1 : s1.Canonical := (h.setReg _ _).setB _ _ _
  exact (h.wdgViolate _ _).ite ((h.wdgViolate _ _).ite (h.ite (h1.elsewhere (by rfl))))

theorem State.Canonical.wdgRestart {s : State} (h : s.Canonical) (e : Fin 13) (coll : Bool) : (s.wdgRestart e coll).Canonical := by
  unfold State.wdgRestart
  extract_lets s1 s2
  have h1 : s1.Canonical := h.setF _ _ _
  have h2 : s2.Canonical := (h1.wdgStart _).ite h1
  exact (h2.wdgReject _).ite h2

theorem State.Canonical.wdgSvc {s : State} (h : s.Canonical) (m : Master) (e : Fin 13) (key : Nat) (coll : Bool) :
    (s.wdgSvc m e key coll).Canonical := by
  unfold State.wdgSvc
  extract_lets own owner
  exact (h.wdgRestart _ _).ite ((h.wdgService _ _).ite (h.wdgReject _))

theorem State.Canonical.wdgExpire {s : State} (h : s.Canonical) (e : Fin 13) : (s.wdgExpire e).Canonical :=
  ((h.setF _ _ _).wdgViolate _ _).ite h

theorem State.Canonical.wdgTick {s : State} (h : s.Canonical) : (s.wdgTick).Canonical :=
  h.foldl _ _ (fun _ _ h1 => h1.ite (((h1.setF _ _ _).wdgViolate _ _).ite (h1.setF _ _ _)))

theorem State.Canonical.wdgHalt {s : State} (h : s.Canonical) (e : Fin 13) : (s.wdgHalt e).Canonical :=
  (h.setF _ _ _).ite h

theorem State.Canonical.wdgResume {s : State} (h : s.Canonical) (e : Fin 13) : (s.wdgResume e).Canonical :=
  ((h.wdgStart _).setF _ _ _).ite h

theorem State.Canonical.wdgWrite {s : State} (h : s.Canonical) (m : Master) (e : Fin 13) (a : Nat) (v : Word) :
    (s.wdgWrite m e a v).Canonical := by
  unfold State.wdgWrite
  extract_lets open_ per was s1 us us'
  have h1 : s1.Canonical := h.setReg _ _
  split
  · exact (h.wdgReject _).ite ((h1.wdgStart _).ite (h1.ite (h1.wdgStop _)))
  · exact (h.setF _ _ _).ite (h.wdgReject _)
  · exact (h.setF _ _ _).ite (h.wdgReject _)
  · exact h.wdgSvc _ _ _ _
  · exact h.setReg _ _
  · exact h

/-! Perturbation units. -/

theorem State.Canonical.ptbRefuse {s : State} (h : s.Canonical) (e : Nat) : (s.ptbRefuse e).Canonical :=
  h.count _ _

theorem State.Canonical.ptbBegin {s : State} (h : s.Canonical) (e : Fin 13) : (State.ptbCtrl.begin_ s e).Canonical := by
  unfold State.ptbCtrl.begin_
  extract_lets s1 old
  have h1 : s1.Canonical := ((h.setF _ _ _).setF _ _ _).setF _ _ _
  exact (h1.elsewhere (by rfl)).notePtb

theorem State.Canonical.ptbCtrl {s : State} (h : s.Canonical) (e : Fin 13) (v : Word) : (s.ptbCtrl e v).Canonical := by
  unfold State.ptbCtrl
  extract_lets on was
  refine .ite ?_ ((h.ptbEnd _ _).ite h)
  split
  · exact (h.setF _ _ _).ite (h.ptbBegin _)
  · exact h.ptbBegin _

theorem State.Canonical.ptbWrite {s : State} (h : s.Canonical) (x : Access) (e : Fin 13) (a : Nat) (v : Word) :
    (s.ptbWrite x e a v).Canonical := by
  unfold State.ptbWrite
  extract_lets off w
  exact h.ite ((h.ptbRefuse _).ite (h.ite ((h.ptbCtrl _ _).ite ((h.ptbRefuse _).ite (h.setReg _ _)))))

theorem State.Canonical.ptbMode {s : State} (h : s.Canonical) : (s.ptbMode).Canonical :=
  h.foldl _ _ (fun _ _ h1 => h1.ptbEnd _ _)

theorem State.Canonical.ptbSession {s : State} (h : s.Canonical) (sess : Nat) : (s.ptbSession sess).Canonical :=
  h.foldl _ _ (fun _ _ h1 => (h1.ptbEnd _ _).ite h1)

/-! Recovery. -/

theorem State.Canonical.noteDiv {s : State} (h : s.Canonical) (p : Nat) (point : Nat) (d : DivRec) : (s.noteDiv p point d).Canonical := by
  unfold State.noteDiv
  extract_lets w s1
  have h1 : s1.Canonical := ((h.setReg _ _).setReg _ _).setReg _ _
  exact (h1.setF _ _ _).count _ _

theorem State.Canonical.divergence {s : State} (h : s.Canonical) (p : Fin 13) (mw rw ea : Option DivRec) (mism : Bool) :
    (s.divergence p mw rw ea mism).Canonical := by
  unfold State.divergence
  split
  · exact h
  · refine .ite h ?_
    exact State.Canonical.dite (fun _ => h.ite ((((((h.noteDiv _ _ _).count _ _).ite (h.noteDiv _ _ _)).setCtl _ _).fireLocal _
      _).recoverable _ _)) (fun _ => h.ite ((h.noteDiv _ _ _).sysHalt))

theorem State.Canonical.checkpoint {s : State} (h : s.Canonical) (p : Fin 13) : (s.checkpoint p).Canonical := by
  unfold State.checkpoint
  extract_lets c
  exact h.ite (h.setCore _ _)

theorem State.Canonical.backToRunning {s : State} (h : s.Canonical) (n : Fin 12) : (s.backToRunning n).Canonical := by
  unfold State.backToRunning
  extract_lets s1 old s2 s3 s4 s5
  have h1 : s1.Canonical := h.recStat _
  have h2 : s2.Canonical := h1.setCtl _ _
  have h3 : s3.Canonical := ((h2.setSl _ _).resumeDma _).descReplay _
  have h4 : s4.Canonical := h3.heldAttach _
  have h5 : s5.Canonical := (h4.fenceNow _ _).ite (h4.armPending _)
  exact (h5.pinsSlice _).showSync

theorem State.Canonical.recoveryEnd {s : State} (h : s.Canonical) (n : Fin 12) (stuck differs : Bool) :
    (s.recoveryEnd n stuck differs).Canonical := by
  unfold State.recoveryEnd
  extract_lets c
  refine .ite h ?_
  have ht : ∀ w : Option Nat, (match w with
      | some w => s.mendWord n w stuck
      | none => (s, true)).1.Canonical := by
    rintro (- | w)
    · exact h
    · exact h.mendWord _ _ _
  split
  next t _ e =>
    have ht : t.Canonical := State.Canonical.of_fst (ht c.badWord) e
    exact (ht.enterSafe _ _).ite ((ht.enterSafe _ _).ite ((ht.runLive _).backToRunning _))

/-! Twin records and handover. -/

theorem State.Canonical.setTwn {s : State} (h : s.Canonical) (t : TwnSt) : (s.setTwn t).Canonical :=
  h.elsewhere (by rfl)

theorem State.Canonical.applied {s : State} (h : s.Canonical) : (s.applied).Canonical :=
  h.count _ _

theorem State.Canonical.noteCfgSeq {s : State} (h : s.Canonical) (n : Fin 12) (k : Nat) : (s.noteCfgSeq n k).Canonical :=
  h.setTwn _

theorem State.Canonical.imageTarget {s : State} (h : s.Canonical) (n : Fin 12) (tgt value : Word) :
    (s.imageTarget n tgt value).Canonical := by
  unfold State.imageTarget
  extract_lets i
  split
  · exact h.commitCmp _ _ _ _ _
  · exact h.setReg _ _
  · exact h.wr _ _ _
  · exact h

theorem State.Canonical.applyImage {s : State} (h : s.Canonical) (n : Fin 12) (j : Fin 16) (x : LoopImage) :
    (s.applyImage n j x).Canonical := by
  unfold State.applyImage
  extract_lets i ls s1 s2 s3 s4 c l s5
  have h1 : s1.Canonical := ((h.setB _ _ _).setB _ _ _).setB _ _ _
  have h2 : s2.Canonical := ((h1.setF _ _ _).setB _ _ _).setB _ _ _
  have h3 : s3.Canonical := ((h2.setReg _ _).setReg _ _).setReg _ _
  have h4 : s4.Canonical := (h3.setHist _ _ _ _).setReg _ _
  have h5 : s5.Canonical := h4.setCle _ _
  exact h5.imageTarget _ _ _

theorem State.Canonical.loopIn {s : State} (h : s.Canonical) (snap : Bool) (n : Fin 12) (j : Fin 16) (x : LoopImage) (cfgseq : Nat) :
    (s.loopIn snap n j x cfgseq).Canonical := by
  unfold State.loopIn
  refine .ite ?_ ((((h.ite ((h.setF _ _ _).fire _)).setRole _ _).ite (h.ite ((h.setF _ _ _).fire _))).ite h)
  extract_lets s1 old s2
  have h1 : s1.Canonical := (h.applied.noteCfgSeq _ _).applyImage _ _ _
  have h2 : s2.Canonical := (h1.setTwn _).ite h1
  exact h2.showSync

theorem State.Canonical.applyCmd {s : State} (h : s.Canonical) (n : Fin 12) (v : Word) : (s.applyCmd n v).Canonical := by
  unfold State.applyCmd
  extract_lets j lc
  split
  · exact h.setB _ _ _
  · exact h.setF _ _ _
  · exact h.setF _ _ _
  · exact h.setHist _ _ _ _
  · exact h

theorem State.Canonical.configIn {s : State} (h : s.Canonical) (n : Fin 12) (off : Nat) (v : Word) (cfgseq : Nat) :
    (s.configIn n off v cfgseq).Canonical :=
  h.ite ((((((h.applyCmd _ _).ite ((h.setReg _ _).ite h)).applied).setTwn _).noteCfgSeq _ _).showSync)

theorem State.Canonical.takeSlice {s : State} (h : s.Canonical) (n : Fin 12) : (s.takeSlice n).Canonical :=
  ((h.setCtl _ _).putRole _ _).enterRecovering _ _

theorem State.Canonical.noteTaken {s : State} (h : s.Canonical) (mask : BitVec 12) (cause : Nat) : (s.noteTaken mask cause).Canonical := by
  unfold State.noteTaken
  extract_lets a
  exact ((((h.setF _ _ _).setF _ _ _).setF _ _ _).countWrap _ _).setF _ _ _

theorem State.Canonical.takeAll {s : State} (h : s.Canonical) (mask : BitVec 12) : (s.takeAll mask).Canonical :=
  (State.Canonical.reportRoles _ (h.foldl _ _ (fun _ _ h1 => (h1.takeSlice _).ite h1))).fireIf _ _

theorem State.Canonical.handoverIn {s : State} (h : s.Canonical) (mask : BitVec 12) (cause : Nat) :
    (s.handoverIn mask cause).Canonical := by
  unfold State.handoverIn
  extract_lets taken refused s1 s2 s3
  have h1 : s1.Canonical := h.applied.takeAll _
  have h2 : s2.Canonical := (h1.noteTaken _ _).ite h1
  have h3 : s3.Canonical := ((h2.setF _ _ _).fire _).ite h2
  exact h3.twinSend _

theorem State.Canonical.takeBack {s : State} (h : s.Canonical) (mask : BitVec 12) : (s.takeBack mask).Canonical :=
  h.ite (((h.foldl _ _ (fun _ _ h1 => (h1.setCtl _ _).ite h1)).setRoles _ _).setF _ _ _)

theorem State.Canonical.takeAckIn {s : State} (h : s.Canonical) (taken refused : BitVec 12) : (s.takeAckIn taken refused).Canonical :=
  (h.applied.setTwn _).takeBack _

theorem State.Canonical.takeAckTimeout {s : State} (h : s.Canonical) : (s.takeAckTimeout).Canonical :=
  h.ite ((h.setTwn _).takeBack _)

theorem State.Canonical.snapLoop {s : State} (h : s.Canonical) (n : Fin 12) (j : Fin 16) : (s.snapLoop n j).Canonical := by
  unfold State.snapLoop
  extract_lets regs s1 value
  have h1 : s1.Canonical := h.foldl _ _ (fun _ _ h1 => (h1.setTwn _).twinSend _)
  exact h1.twinSend _

theorem State.Canonical.snapNext {s : State} (h : s.Canonical) : (s.snapNext).Canonical := by
  unfold State.snapNext
  split
  · exact h
  · exact h.ite (((h.setTwn _).snapLoop _ _).ite (h.setTwn _))

theorem State.Canonical.statusIn {s : State} (h : s.Canonical) (synced armed standby : BitVec 12) :
    (s.statusIn synced armed standby).Canonical := by
  unfold State.statusIn
  extract_lets a news s1 old s2
  have h1 : s1.Canonical := ((h.applied.setF _ _ _).setF _ _ _).setF _ _ _
  have h2 : s2.Canonical := h1.setTwn _
  exact (h2.foldl _ _ (fun _ _ h3 => (h3.setTwn _).ite h3)).snapNext

theorem State.Canonical.applyRec {s : State} (h : s.Canonical) (r : TwinRec) : (s.applyRec r).Canonical := by
  unfold State.applyRec
  split
  · exact h.loopIn _ _ _ _ _
  · exact h.configIn _ _ _ _
  · exact h.handoverIn _ _
  · exact h.takeAckIn _ _
  · exact h.statusIn _ _ _

theorem State.Canonical.applyInTurn {s : State} (h : s.Canonical) (l : List (Nat × TwinRec)) : (s.applyInTurn l).Canonical := by
  induction l generalizing s with
  | nil => exact h.setTwn _
  | cons a l ih =>
    unfold State.applyInTurn
    exact (ih ((h.setTwn _).applyRec _)).ite (h.setTwn _)

theorem State.Canonical.received {s : State} (h : s.Canonical) (stream : BitVec 16) (r : TwinRec) : (s.received stream r).Canonical := by
  unfold State.received
  extract_lets k old
  refine .ite h ?_
  split
  · exact (h.applyInTurn _).ite ((h.setTwn _).applyRec _)
  · exact (h.setTwn _).applyRec _

theorem State.Canonical.applyAhead {s : State} (h : s.Canonical) : (s.applyAhead).Canonical :=
  (h.setTwn _).foldl _ _ (fun _ _ h1 => h1.applyRec _)

theorem State.Canonical.statusOut {s : State} (h : s.Canonical) : (s.statusOut).Canonical :=
  h.twinSend _

theorem State.Canonical.statusAge {s : State} (h : s.Canonical) : (s.statusAge).Canonical :=
  (h.setF _ _ _).ite h

theorem State.Canonical.twinUp {s : State} (h : s.Canonical) (p : TwinPeer) : (s.twinUp p).Canonical :=
  h.ite (((h.setTwn _).pairUp).ite ((((h.setF _ _ _).fire _).setTwn _).pairUp))

theorem State.Canonical.twinLoss {s : State} (h : s.Canonical) : (s.twinLoss).Canonical :=
  h.ite ((((((h.setF _ _ _).setF _ _ _).fire _).applyAhead).setTwn _).showHealth)

theorem State.Canonical.laneLose {s : State} (h : s.Canonical) (p : Fin 4) : (s.laneLose p).Canonical :=
  ((h.applyAhead.setF _ _ _).showHealth).ite (((h.applyAhead.setF _ _ _).showHealth).ite h)

theorem State.Canonical.lineAssert {s : State} (h : s.Canonical) : (s.lineAssert).Canonical :=
  h.ite (((h.setF _ _ _).takeAll _).ite (((h.setF _ _ _).takeAll _).noteTaken _ _))

theorem State.Canonical.lineIn {s : State} (h : s.Canonical) : (s.lineIn).Canonical := by
  unfold State.lineIn
  refine .ite h ?_
  extract_lets s1 s2 m old s3
  have h1 : s1.Canonical := (h.setF _ _ _).pinsAll
  have h2 : s2.Canonical := (h1.setF _ _ _).fire _
  have h3 : s3.Canonical := (h2.descHanded _).setTwn _
  exact h1.ite ((h3.setRoles _ _).foldl _ _ (fun _ _ h4 => (h4.fenceNow _ _).ite h4))

theorem State.Canonical.lineOut {s : State} (h : s.Canonical) : (s.lineOut).Canonical :=
  ((h.setF _ _ _).setF _ _ _).pinsAll

theorem State.Canonical.takeoverEnd {s : State} (h : s.Canonical) (n : Fin 12) : (s.takeoverEnd n).Canonical := by
  unfold State.takeoverEnd
  extract_lets c wait now s1
  have h1 : s1.Canonical := h.foldl _ _ (fun _ _ h1 => h1.setPw _ _ _)
  exact h.ite ((h1.setCtl _ _).backToRunning _)

theorem State.Canonical.healthy {s : State} (h : s.Canonical) : (s.healthy).Canonical :=
  h.ite ((h.setTwn _).showHealth)

theorem State.Canonical.twnCmd {s : State} (h : s.Canonical) (v : Word) : (s.twnCmd v).Canonical :=
  h.badAcc.ite ((h.setF _ _ _).ite h)

theorem State.Canonical.twnWrite {s : State} (h : s.Canonical) (a : Nat) (v : Word) : (s.twnWrite a v).Canonical := by
  unfold State.twnWrite
  split
  · exact .ite h.badAcc ((h.setReg _ _).ite (((((h.setReg _ _).portLose _).portLose _).setF _ _ _).elsewhere (by rfl)))
  · exact h.twnCmd _
  · exact h.setReg _ _
  · exact h

/-! Rings and functions. -/

theorem State.Canonical.fnErr {s : State} (h : s.Canonical) (f : Nat) : (s.fnErr f).Canonical :=
  h.count _ _

theorem State.Canonical.hostRefuse {s : State} (h : s.Canonical) (f : Nat) : (s.hostRefuse f).Canonical :=
  (h.badAcc.fnErr _).fire _

theorem State.Canonical.refuse {s : State} (h : s.Canonical) (m : Master) : (s.refuse m).Canonical := by
  unfold State.refuse
  split
  · exact h.hostRefuse _
  · exact h.badAcc

theorem State.Canonical.msixSend {s : State} (h : s.Canonical) (f : Fin 16) (v : Nat) : (s.msixSend f v).Canonical := by
  unfold State.msixSend
  extract_lets x
  exact h.ite ((h.ite (h.setFn _ _)).ite (h.emit _))

theorem State.Canonical.msixGo {s : State} (h : s.Canonical) (r : Nat) : (s.msixGo r).Canonical := by
  unfold State.msixGo
  extract_lets rt t f
  exact h.ite ((h.orphanRoute _ _).ite (h.ite ((h.sendOff _).msixSend _ _)))

theorem State.Canonical.msixIssue {s : State} (h : s.Canonical) (r : Nat) : (s.msixIssue r).Canonical :=
  (h.msixGo _).ite h

theorem State.Canonical.msixOfferMany {s : State} (h : s.Canonical) (f : Fin 16) (k : Nat) : (s.msixOfferMany f k).Canonical := by
  induction k generalizing s with
  | zero => exact h
  | succ k ih =>
    unfold State.msixOfferMany
    split
    · exact h
    · exact h.ite (ih (h.msixGo _))

theorem State.Canonical.msixOffer {s : State} (h : s.Canonical) (f : Fin 16) : (s.msixOffer f).Canonical :=
  h.msixOfferMany _ _

theorem State.Canonical.msixUnmask {s : State} (h : s.Canonical) (f : Fin 16) : (s.msixUnmask f).Canonical := by
  unfold State.msixUnmask
  extract_lets x go
  exact h.ite ((h.setFn _ _).foldl _ _ (fun _ _ h1 => h1.emit _))

theorem State.Canonical.enableNow {s : State} (h : s.Canonical) (f : Fin 16) : (s.enableNow f).Canonical := by
  unfold State.enableNow
  extract_lets s1 old s2
  have h1 : s1.Canonical := h.foldl _ _ (fun _ _ h1 => ((((h1.setReg _ _).ite h1).setReg _ _).ite ((h1.setReg _ _).ite h1)).setF _ _ _)
  have h2 : s2.Canonical := h1.setFn _ _
  exact (((h2.setF _ _ _).setF _ _ _).setF _ _ _).fire _

theorem State.Canonical.fnEnable {s : State} (h : s.Canonical) (f : Fin 16) : (s.fnEnable f).Canonical := by
  unfold State.fnEnable
  extract_lets a s1
  have h1 : s1.Canonical := h.setF _ _ _
  exact (h.setF _ _ _).ite ((h1.setF _ _ _).ite (h1.ite (h1.enableNow _)))

theorem State.Canonical.writeCompl {s : State} (h : s.Canonical) (f : Fin 16) (c : Compl) : (s.writeCompl f c).Canonical := by
  unfold State.writeCompl
  extract_lets q a tail phase ptb w0 w1 base s1 wrap s2 x s3
  have h1 : s1.Canonical := h.toHost _ _ _
  have h2 : s2.Canonical := (h1.setF _ _ _).setF _ _ _
  have h3 : s3.Canonical := h2.setFn _ _
  exact (h3.msixSend _ _).ite h3

theorem State.Canonical.quiesceSlices {s : State} (h : s.Canonical) (f : Fin 16) : (s.quiesceSlices f).Canonical := by
  unfold State.quiesceSlices
  extract_lets twin
  exact h.foldl _ _ (fun _ _ h1 => h1.ite ((h1.setOwner _ _).ite (((h1.setFn _ _).setCtl _ _).ite ((h1.setFn _ _).fenceStart _ _ _))))

theorem State.Canonical.stopXfers {s : State} (h : s.Canonical) (f : Fin 16) : (s.stopXfers f).Canonical :=
  h.foldl _ _ (fun _ _ h1 => (h1.dmaStop _ _ _).ite h1)

theorem State.Canonical.abortBegin {s : State} (h : s.Canonical) (f : Fin 16) (cause : Nat) : (s.abortBegin f cause).Canonical := by
  unfold State.abortBegin
  extract_lets x s1
  have h1 : s1.Canonical := (h.setF _ _ _).setFn _ _
  exact (h1.quiesceSlices _).stopXfers _

theorem State.Canonical.abortRecord {s : State} (h : s.Canonical) (f : Nat) (cause count unrep : Nat) (fenced twin : BitVec 12) :
    (s.abortRecord f cause count unrep fenced twin).Canonical := by
  unfold State.abortRecord
  extract_lets a seq s1 s2
  have h1 : s1.Canonical := h.setReg _ _
  have h2 : s2.Canonical := (h1.setReg _ _).setReg _ _
  exact (h2.setReg _ _).setReg _ _

theorem State.Canonical.fnOff {s : State} (h : s.Canonical) (f : Fin 16) : (s.fnOff f).Canonical := by
  unfold State.fnOff
  extract_lets old s0 s1
  have h0 : s0.Canonical := h.setFn _ _
  have h1 : s1.Canonical := ((h0.setF _ _ _).setF _ _ _).setF _ _ _
  exact ((h1.countWrap _ _).staleTarget _ _).fire _

theorem State.Canonical.abort {s : State} (h : s.Canonical) (f : Fin 16) (cause : Nat) : (s.abort f cause).Canonical :=
  .ite ((h.abortBegin _ _).ite h) ((h.abortBegin _ _).ite ((((h.quiesceSlices _).abortRecord _ _ _ _ _ _).fnOff _).setFn _ _))

theorem State.Canonical.drained {s : State} (h : s.Canonical) (f : Fin 16) : (s.drained f).Canonical := by
  unfold State.drained
  extract_lets x
  exact (h.quiesceSlices _).ite h

theorem State.Canonical.fnDisable {s : State} (h : s.Canonical) (f : Fin 16) : (s.fnDisable f).Canonical :=
  h.ite (((h.setFn _ _).setF _ _ _).drained _)

theorem State.Canonical.disableTimeout {s : State} (h : s.Canonical) (f : Fin 16) : (s.disableTimeout f).Canonical := by
  unfold State.disableTimeout
  extract_lets x
  exact (h.abortBegin _ _).ite h

theorem State.Canonical.abortEnd {s : State} (h : s.Canonical) (f : Fin 16) : (s.abortEnd f).Canonical := by
  unfold State.abortEnd
  extract_lets x all
  refine .ite h ?_
  split
  next s1 unrep e =>
    have h1 : s1.Canonical := by
      refine State.Canonical.of_fst ?_ e
      exact foldl_keeps (fun acc : State × Nat => acc.1.Canonical) _ all (s, x.cut) h (fun acc c hacc => .iteFst (hacc.writeCompl _ _) hacc)
    extract_lets s2 old s3 pend s4
    have h2 : s2.Canonical := h1.ite (h1.abortRecord _ _ _ _ _ _)
    have h3 : s3.Canonical := h2.setFn _ _
    have h4 : s4.Canonical := h3.fnOff _
    exact (h4.enableNow _).ite h4

theorem State.Canonical.lateCompletion {s : State} (h : s.Canonical) (f : Fin 16) : (s.lateCompletion f).Canonical := by
  unfold State.lateCompletion
  extract_lets x
  exact h.ite ((h.setFn _ _).count _ _)

theorem State.Canonical.dbDrop {s : State} (h : s.Canonical) (g : Nat) : (s.dbDrop g).Canonical :=
  h.count _ _

theorem State.Canonical.badValue {s : State} (h : s.Canonical) (g : Nat) (bad : Bool) : (s.badValue g bad).Canonical :=
  (h.setF _ _ _).ite h

theorem State.Canonical.doorbell {s : State} (h : s.Canonical) (by_ g : Fin 16) (on bad : Bool) (act : State → State)
    (hact : ∀ u, u.Canonical → (act u).Canonical) :
    (s.doorbell by_ g on bad act).Canonical :=
  .ite (h.hostRefuse _) ((((h.dbDrop _).fnErr _).badValue _ _).ite (((h.dbDrop _).badValue _ _).ite (hact _ h)))

theorem State.Canonical.sqTail {s : State} (h : s.Canonical) (by_ g : Fin 16) (r : Fin 8) (v : Word) : (s.sqTail by_ g r v).Canonical :=
  h.doorbell _ _ _ _ _ (fun _ h1 => h1.setF _ _ _)

theorem State.Canonical.cqHead {s : State} (h : s.Canonical) (by_ g : Fin 16) (q : Fin 8) (v : Word) : (s.cqHead by_ g q v).Canonical :=
  h.doorbell _ _ _ _ _ (fun _ h1 => (h1.setFn _ _).setF _ _ _)

theorem State.Canonical.edgeIndex {s : State} (h : s.Canonical) (by_ g : Fin 16) (v : Word) : (s.edgeIndex by_ g v).Canonical :=
  h.doorbell _ _ _ _ _ (fun _ h1 => h1.elsewhere (by rfl))

theorem State.Canonical.abortDb {s : State} (h : s.Canonical) (by_ g : Fin 16) (v : Word) : (s.abortDb by_ g v).Canonical :=
  h.doorbell _ _ _ _ _ (fun _ h1 => (h1.abort _ _).ite (h1.dbDrop _))

theorem State.Canonical.dbNow {s : State} (h : s.Canonical) (by_ g : Fin 16) (off : Nat) (v : Word) : (s.dbNow by_ g off v).Canonical :=
  State.Canonical.dite (fun _ => (h.sqTail _ _ _ _).ite (h.cqHead _ _ _ _)) (fun _ => (h.edgeIndex _ _ _).ite ((h.abortDb _ _ _).ite h))

theorem State.Canonical.dbWrite {s : State} (h : s.Canonical) (by_ g : Fin 16) (off : Nat) (v : Word) :
    (s.dbWrite by_ g off v).Canonical := by
  unfold State.dbWrite
  extract_lets d
  exact (h.elsewhere (by rfl)).ite (h.dbNow _ _ _ _)

theorem State.Canonical.lateDoorbells {s : State} (h : s.Canonical) : (s.lateDoorbells).Canonical := by
  unfold State.lateDoorbells
  split
  · exact h
  · exact (h.elsewhere (by rfl)).foldl _ _ (fun _ _ h1 => h1.dbNow _ _ _ _)

theorem State.Canonical.sweepReserved {s : State} (h : s.Canonical) (f : Fin 16) : (s.sweepReserved f).Canonical := by
  unfold State.sweepReserved
  refine h.foldl _ _ (fun t x h1 => ?_)
  refine .ite ?_ h1
  split
  · exact h1.descFinish _ _ _ _
  · exact h1

theorem State.Canonical.fetchIssue {s : State} (h : s.Canonical) : (s.fetchIssue).Canonical := by
  unfold State.fetchIssue
  split
  · exact h
  · extract_lets x' base s1
    have h1 : s1.Canonical := h.emit _
    exact (h1.elsewhere (by rfl)).setFn _ _

theorem State.Canonical.fetch {s : State} (h : s.Canonical) (f : Fin 16) (r : Fin 8) (w : Vector Word 16) : (s.fetch f r w).Canonical := by
  unfold State.fetch
  extract_lets a x
  exact h.ite (((h.setF _ _ _).setFn _ _).sweepReserved _)

theorem State.Canonical.completionWrite {s : State} (h : s.Canonical) (f : Fin 16) (q : Fin 8) : (s.completionWrite f q).Canonical := by
  unfold State.completionWrite
  extract_lets x
  split
  · exact h
  · exact ((((h.setFn _ _).writeCompl _ _).sweepReserved _).drained _).ite h

theorem State.Canonical.cfgDefault {s : State} (h : s.Canonical) (f : Fin 16) : (s.cfgDefault f).Canonical :=
  h.setFn _ _

theorem State.Canonical.setVfs {s : State} (h : s.Canonical) (en : Bool) (num : Nat) : (s.setVfs en num).Canonical := by
  unfold State.setVfs
  extract_lets gone s1
  have h1 : s1.Canonical := h.elsewhere (by rfl)
  exact h1.foldl _ _ (fun _ _ h2 => (h2.abort _ _).cfgDefault _)

theorem State.Canonical.vfClear {s : State} (h : s.Canonical) (en : Bool) (num : Nat) : (s.vfClear en num).Canonical :=
  (h.setVfs _ _).ite h

theorem State.Canonical.flrRings {s : State} (h : s.Canonical) (f : Fin 16) : (s.flrRings f).Canonical := by
  unfold State.flrRings
  extract_lets a t
  have ht : t.Canonical := (h.elsewhere (by rfl)).resetRegs _ _
  exact ((ht.setF _ _ _).setF _ _ _).setF _ _ _

theorem State.Canonical.flr {s : State} (h : s.Canonical) (f : Fin 16) : (s.flr f).Canonical :=
  .ite h (((((h.abort _ _).cfgDefault _).flrRings _).setVfs _ _).ite (((h.abort _ _).cfgDefault _).flrRings _))

theorem State.Canonical.bmeClear {s : State} (h : s.Canonical) (f : Fin 16) : (s.bmeClear f).Canonical :=
  h.ite ((h.setFn _ _).abort _ _)

theorem State.Canonical.d3hot {s : State} (h : s.Canonical) (f : Fin 16) : (s.d3hot f).Canonical :=
  h.ite ((h.setFn _ _).abort _ _)

theorem State.Canonical.linkDown {s : State} (h : s.Canonical) : (s.linkDown).Canonical :=
  .ite h (((h.setReg _ _).fire _).foldl _ _ (fun _ _ h1 => ((h1.setF _ _ _).abort _ _).ite (h1.setF _ _ _)))

theorem State.Canonical.linkUp {s : State} (h : s.Canonical) (width : Fin 4) (speed : Fin 5) : (s.linkUp width speed).Canonical := by
  unfold State.linkUp
  extract_lets w max deg s1
  have h1 : s1.Canonical := h.setReg _ _
  exact h.ite (((h1.elsewhere (by rfl)).fire _).fireIf _ _)

theorem State.Canonical.configRequest {s : State} (h : s.Canonical) (f : Fin 16) (c : CfgSet) : (s.configRequest f c).Canonical := by
  unfold State.configRequest
  refine .ite h ?_
  split
  · exact h.setFn _ _
  · exact h.setFn _ _
  · exact h.setFn _ _
  · exact h.elsewhere (by rfl)
  · exact (h.setFn _ _).msixOffer _
  · exact (h.setVfs _ _).ite h
  · exact ((h.setFn _ _).msixUnmask _).msixOffer _
  · exact h.setFn _ _

theorem State.Canonical.freeLate {s : State} (h : s.Canonical) (f : Fin 16) (why : ReqFail) : (s.freeLate f why).Canonical := by
  unfold State.freeLate
  extract_lets x t
  have ht : t.Canonical := h.setFn _ _
  exact h.ite (ht.ite (ht.count _ _))

theorem State.Canonical.readFails {s : State} (h : s.Canonical) (f : Fin 16) (what : ReadOf) (why : ReqFail) :
    (s.readFails f what why).Canonical := by
  unfold State.readFails
  extract_lets old s0 s1 old'
  have h0 : s0.Canonical := h.setFn _ _
  have h1 : s1.Canonical := h0.count _ _
  split
  · exact h1.freeLate _ _
  · exact ((h1.setFn _ _).drained _).ite (h1.freeLate _ _)
  · split
    · exact ((h1.setFn _ _).descFinish _ _ _ _).ite (h1.freeLate _ _)
    · exact h1.freeLate _ _

theorem State.Canonical.rngCtrl {s : State} (h : s.Canonical) (f : Fin 16) (v : Word) : (s.rngCtrl f v).Canonical := by
  unfold State.rngCtrl
  extract_lets s1 s2
  have h1 : s1.Canonical := h.setF _ _ _
  have h2 : s2.Canonical := (h1.fnDisable _).ite h1
  exact (h2.fnEnable _).ite h2

theorem State.Canonical.pageWrite {s : State} (h : s.Canonical) (f : Fin 16) (off : Nat) (a : Nat) (v : Word) :
    (s.pageWrite f off a v).Canonical := by
  unfold State.pageWrite
  extract_lets locked put r
  refine .ite (h.rngCtrl _ _) ?_
  refine .ite (h.setReg _ _) ?_
  refine .ite ((h.fnErr _).ite (h.setReg _ _)) ?_
  refine .ite ((h.fnErr _).ite (h.setReg _ _)) ?_
  refine .ite ((h.fnErr _).ite (h.setReg _ _)) ?_
  exact .ite ((h.fnErr _).ite (h.setReg _ _)) (((h.fnErr _).ite (h.setReg _ _)).ite
    (((h.fnErr _).ite (h.setReg _ _)).ite ((h.fnErr _).ite h)))

theorem State.Canonical.hifWrite {s : State} (h : s.Canonical) (a : Nat) (v : Word) : (s.hifWrite a v).Canonical := by
  unfold State.hifWrite
  extract_lets o f base len
  exact (h.badAcc.ite (h.setReg _ _)).ite h

end Machine
end Sys2Proof
end

section
/-! PROOFS. The canonical form: flash, security, power, debug and start-up. -/

namespace Sys2Proof
namespace Machine

/-! Flash. -/

theorem State.Canonical.setFlc {s : State} (h : s.Canonical) (x : FlcSt) (e : (x.words, x.info) = (s.flc.words, s.flc.info)) :
    (s.setFlc x).Canonical := by
  obtain ⟨hw, hi⟩ := Prod.mk.inj e
  exact { h with words := (congrArg (SMap.wf _) hw).trans h.words, info := (congrArg (SMap.wf _) hi).trans h.info }

theorem State.Canonical.noteCorr {s : State} (h : s.Canonical) (arr b : Nat) : (s.noteCorr arr b).Canonical := by
  unfold State.noteCorr
  extract_lets x
  exact h.setBlk _ _ _

theorem State.Canonical.readLines {s : State} (h : s.Canonical) (lo hi : Nat) : (s.readLines lo hi).Canonical :=
  h.foldl _ _ (fun _ _ h1 => h1.noteCorr _ _)

theorem State.Canonical.flashGet {s : State} (h : s.Canonical) (a : Nat) : (s.flashGet a).1.Canonical := by
  unfold State.flashGet
  refine .iteFst h ?_
  split
  · exact (h.noteCorr _ _).ite h

theorem State.Canonical.flcRej {s : State} (h : s.Canonical) : (s.flcRej).Canonical :=
  h.count _ _

theorem State.Canonical.flcEnd {s : State} (h : s.Canonical) (status reason : Nat) : (s.flcEnd status reason).Canonical := by
  unfold State.flcEnd
  extract_lets a s0 s1 old s2
  have h0 : s0.Canonical := h.flcRej.ite h
  have h1 : s1.Canonical := ((h0.setF _ _ _).setF _ _ _).setF _ _ _
  have h2 : s2.Canonical := (h1.setFlc _ (by rfl)).fire _
  exact h2.ite ((h2.setF _ _ _).fire _)

theorem State.Canonical.wearWarn {s : State} (h : s.Canonical) : (s.wearWarn).Canonical :=
  (h.setF _ _ _).fire _

theorem State.Canonical.eraseBegin {s : State} (h : s.Canonical) (arr blk : Nat) : (s.eraseBegin arr blk).Canonical := by
  unfold State.eraseBegin
  extract_lets x s1
  have h1 : s1.Canonical := h.setBlk _ _ _
  exact h1.wearWarn.ite h1

theorem State.Canonical.freshLines {s : State} (h : s.Canonical) (lo hi : Nat) : (s.freshLines lo hi).Canonical :=
  h.setFlc _ (by rfl)

theorem State.Canonical.eraseFinish {s : State} (h : s.Canonical) (arr blk : Nat) (e : EraseEnd) : (s.eraseFinish arr blk e).Canonical := by
  unfold State.eraseFinish
  extract_lets x ms long y lo s1
  have h1 : s1.Canonical := (((h.freshLines _ _).setBlk _ _ _).blank _ _).ite ((h.setBlk _ _ _).fire _)
  exact h1.wearWarn.ite h1

theorem State.Canonical.noteRetries {s : State} (h : s.Canonical) (arr blk retries : Nat) : (s.noteRetries arr blk retries).Canonical := by
  unfold State.noteRetries
  extract_lets x w s1
  have h1 : s1.Canonical := h.setBlk _ _ _
  exact h1.wearWarn.ite h1

theorem State.Canonical.runEnd {s : State} (h : s.Canonical) : (s.runEnd).Canonical :=
  h.setFlc _ (by rfl)

theorem State.Canonical.eraseComplete {s : State} (h : s.Canonical) (e : EraseEnd) : (s.eraseComplete e).Canonical := by
  unfold State.eraseComplete
  split
  · refine .ite ?_ h
    extract_lets st s1
    have h1 : s1.Canonical := (h.runEnd.eraseFinish _ _ _).flcEnd _ _
    split
    · exact h1.emit _
    · exact h1.descDone _ _ _
  · exact h

theorem State.Canonical.programComplete {s : State} (h : s.Canonical) (retries : Fin 9) : (s.programComplete retries).Canonical := by
  unfold State.programComplete
  split
  · split
    · extract_lets a s1 old s2
      have h1 : s1.Canonical := h.runEnd.freshLines _ _
      have h2 : s2.Canonical := ((h1.setWords (putPage_wf _ _ h1.words)).noteRetries _ _ _).flcEnd _ _
      split
      · exact h2.emit _
      · exact h2.descDone _ _ _
    · exact h
  · exact h

theorem State.Canonical.marginComplete {s : State} (h : s.Canonical) (failing : BitVec 16) : (s.marginComplete failing).Canonical := by
  unfold State.marginComplete
  split
  · exact (((h.runEnd.setF _ _ _).flcEnd _ _).descDone _ _ _).ite h
  · exact h

theorem State.Canonical.setSuspended {s : State} (h : s.Canonical) (arr blk : Nat) (on : Bool) : (s.setSuspended arr blk on).Canonical :=
  h.setBlk _ _ _

theorem State.Canonical.pauseRewrite {s : State} (h : s.Canonical) (arr : Nat) (on : Bool) : (s.pauseRewrite arr on).Canonical := by
  unfold State.pauseRewrite
  split
  · exact ((h.setSuspended _ _ _).setFlc _ (by rfl)).ite h
  · exact h

theorem State.Canonical.autoSuspend {s : State} (h : s.Canonical) (arr : Fin 3) : (s.autoSuspend arr).Canonical := by
  unfold State.autoSuspend
  refine .ite h ?_
  split
  · exact ((h.setSuspended _ _ _).setFlc _ (by rfl)).ite h
  · exact h.pauseRewrite _ _

theorem State.Canonical.autoResume {s : State} (h : s.Canonical) (arr : Fin 3) : (s.autoResume arr).Canonical := by
  unfold State.autoResume
  split
  · exact ((h.setSuspended _ _ _).setFlc _ (by rfl)).ite h
  · exact h.pauseRewrite _ _

theorem State.Canonical.imageCheck {s : State} (h : s.Canonical) (bank : Nat) : (s.imageCheck bank).1.Canonical := by
  unfold State.imageCheck
  extract_lets a t d old
  have ht : t.Canonical := h.readLines _ _
  split
  · exact ht.elsewhere (by rfl)
  · exact (ht.setF _ _ _).fire _

theorem State.Canonical.setNext {s : State} (h : s.Canonical) (bank : Nat) : (s.setNext bank).1.Canonical := by
  unfold State.setNext
  refine .iteFst h ?_
  split
  next t e =>
    have ht : t.Canonical := State.Canonical.of_fst (h.imageCheck _) e
    exact ht
  next t e =>
    have ht : t.Canonical := State.Canonical.of_fst (h.imageCheck _) e
    extract_lets t1
    have ht1 : t1.Canonical := (ht.setF _ _ _).setB _ _ _
    exact ht1.foldl _ _ (fun _ _ h3 => h3.setF _ _ _)

theorem State.Canonical.flcBegin {s : State} (h : s.Canonical) (op : FlcOp) (b : BlkSel) (loader : Option Bool) :
    (s.flcBegin op b loader).st.Canonical := by
  unfold State.flcBegin
  extract_lets page tooFar run put x
  refine .iteEnd h ?_
  refine .iteEnd h ?_
  split
  · exact h.iteEnd (h.setFlc _ (by rfl))
  · split
    · exact (h.eraseBegin _ _).setFlc _ (by rfl)
    · exact h
  · split
    · exact (h.setBlk _ _ _).setFlc _ (by rfl)
    · exact h

theorem State.Canonical.flcSuspend {s : State} (h : s.Canonical) (arr : Nat) : (s.flcSuspend arr).st.Canonical := by
  unfold State.flcSuspend
  split
  · exact ((h.runEnd.setSuspended _ _ _).setFlc _ (by rfl)).iteEnd h
  · exact h

theorem State.Canonical.flcResume {s : State} (h : s.Canonical) (b : BlkSel) : (s.flcResume b).st.Canonical := by
  unfold State.flcResume
  split
  · extract_lets s1 old
    have h1 : s1.Canonical := h.setSuspended _ _ _
    exact h1.setFlc _ (by rfl)
  · exact h

theorem State.Canonical.setPassword {s : State} (h : s.Canonical) (r : Nat) : (s.setPassword r).st.Canonical := by
  unfold State.setPassword
  split
  · exact h.iteEnd ((h.setB _ _ _).setFlc _ (by rfl))
  · exact h

theorem State.Canonical.unlock {s : State} (h : s.Canonical) (r : Nat) : (s.unlock r).st.Canonical := by
  unfold State.unlock
  extract_lets a s1 s2
  have h1 : s1.Canonical := h.count _ _
  have h2 : s2.Canonical := ((h1.setF _ _ _).fire _).ite h1
  refine .iteEnd h ?_
  split
  · exact h.iteEnd ((h.setF _ _ _).iteEnd h2)
  · exact h

theorem State.Canonical.flcRun {s : State} (h : s.Canonical) (op : Nat) (b : BlkSel) (data : List Word) :
    (s.flcRun op b data).st.Canonical := by
  unfold State.flcRun
  refine .iteEnd h ?_
  refine .iteEnd (h.flcSuspend _) ?_
  refine .iteEnd h ?_
  split
  · exact h.flcBegin _ _ _
  · exact h.flcBegin _ _ _
  · exact h.flcResume _
  · exact h.flcBegin _ _ _
  · exact h.setPassword _
  · split
    next s1 _ e =>
      have h1 : s1.Canonical := State.Canonical.of_fst (h.setNext _) e
      exact h1
  · exact h.setF _ _ _
  · exact h.unlock _
  · exact h

theorem State.Canonical.flcCmd {s : State} (h : s.Canonical) (v : Word) : (s.flcCmd v).Canonical :=
  (h.flcEnd _ _).ite ((h.flcRun _ _ _).ite ((h.flcRun _ _ _).flcEnd _ _))

theorem State.Canonical.flcWrite {s : State} (h : s.Canonical) (a : Nat) (v : Word) : (s.flcWrite a v).Canonical := by
  unfold State.flcWrite
  extract_lets o old
  refine .ite (h.flcCmd _) ?_
  refine .ite (h.setReg _ _) ?_
  refine .ite (h.setReg _ _) ?_
  refine .ite (h.flcRej.ite (h.setReg _ _)) ?_
  refine .ite (h.setReg _ _) ?_
  refine .ite (h.setReg _ _) ?_
  refine .ite (h.setFlc _ (by rfl)) ?_
  refine .ite ?_ (((h.setReg _ _).ite h.flcRej).ite ((h.setReg _ _).ite h))
  split
  · exact h.flcRej
  · exact h.setFlc _ (by rfl)
  · exact h.setFlc _ (by rfl)

theorem State.Canonical.flashScrub {s : State} (h : s.Canonical) (decays : Bool) : (s.flashScrub decays).Canonical := by
  unfold State.flashScrub
  refine .ite h ?_
  split
  · exact h
  · extract_lets b' old s1 x old'
    have h1 : s1.Canonical := h.setFlc _ (by rfl)
    exact ((h1.setFlc _ (by rfl)).eraseBegin _ _).ite h1

theorem State.Canonical.copyBlock {s : State} (h : s.Canonical) (arr src dst : Nat) : (s.copyBlock arr src dst).Canonical := by
  unfold State.copyBlock
  extract_lets lo at_ ws old s1
  have h1 : s1.Canonical := h.setBlk _ _ _
  exact h1.setWords (foldl_keeps (fun m => SMap.wf (fun _ => (0xFFFFFFFF : Word)) m = true) _ ws _ h1.words
    (fun m e hm => SMap.wf_put _ m _ _ hm))

theorem State.Canonical.rewriteAt {s : State} (h : s.Canonical) (w : Rewrite) (k : Nat) : (s.rewriteAt w k).Canonical :=
  h.setFlc _ (by rfl)

theorem State.Canonical.rewritten {s : State} (h : s.Canonical) : (s.rewritten).Canonical :=
  (h.setF _ _ _).fire _

theorem State.Canonical.rewriteStep {s : State} (h : s.Canonical) (w : Rewrite) (e : StepEnd) : (s.rewriteStep w e).Canonical := by
  unfold State.rewriteStep
  split
  · exact (h.rewriteAt _ _).eraseFinish _ _ _
  · exact (((h.rewriteAt _ _).copyBlock _ _ _).noteRetries _ _ _).eraseBegin _ _
  · exact (h.rewriteAt _ _).eraseFinish _ _ _
  · exact (((h.rewriteAt _ _).copyBlock _ _ _).noteRetries _ _ _).rewritten

theorem State.Canonical.scrubStep {s : State} (h : s.Canonical) (k : Fin 4) (e : StepEnd) : (s.scrubStep k e).Canonical := by
  unfold State.scrubStep
  split
  · extract_lets taken
    exact h.ite (h.rewriteStep _ _)
  · exact h

theorem State.Canonical.rewriteEnd {s : State} (h : s.Canonical) (e : EraseEnd) : (s.rewriteEnd e).Canonical := by
  unfold State.rewriteEnd
  split
  · extract_lets old s1 s2
    have h1 : s1.Canonical := h.setFlc _ (by rfl)
    have h2 : s2.Canonical := (h1.eraseBegin _ _).eraseFinish _ _ _
    exact h1.ite (((h2.copyBlock _ _ _).rewritten).ite h2)
  · exact h

theorem State.Canonical.flashCut {s : State} (h : s.Canonical) : (s.flashCut).Canonical := by
  unfold State.flashCut
  extract_lets s1 old
  have h1 : s1.Canonical := by
    unfold s1
    split
    · split
      · exact h.setBlk _ _ _
      · exact h
    · exact h
  exact h1.setFlc _ (by rfl)

theorem State.Canonical.markIncomplete {s : State} (h : s.Canonical) : (s.markIncomplete).Canonical :=
  h.foldl _ _ (fun _ _ hu => .ite ((hu.setInfo _ _).fire _) hu)

theorem State.Canonical.loaderRun {s : State} (h : s.Canonical) (can : Bool) (code : Nat) (op : FlcOp) (b : BlkSel) :
    (s.loaderRun can code op b).Canonical :=
  .ite h ((h.emit _).ite ((h.emit _).ite ((h.flcBegin _ _ _).ite (((h.flcBegin _ _ _).flcEnd _ _).emit _))))

theorem State.Canonical.loaderErase {s : State} (h : s.Canonical) (can : Bool) (arr : Fin 4) (blk : BitVec 8) :
    (s.loaderErase can arr blk).Canonical :=
  h.loaderRun _ _ _ _

theorem State.Canonical.loaderWrite {s : State} (h : s.Canonical) (can : Bool) (arr : Fin 4) (blk page : BitVec 8) (data : Vector Word 64) :
    (s.loaderWrite can arr blk page data).Canonical :=
  h.loaderRun _ _ _ _

theorem State.Canonical.loaderCheck {s : State} (h : s.Canonical) (can : Bool) (bank : Fin 2) (id : BitVec 11) :
    (s.loaderCheck can bank id).Canonical := by
  unfold State.loaderCheck
  refine .ite h ?_
  refine .ite (h.emit _) ?_
  refine .ite (h.emit _) ?_
  split
  next t _ e =>
    have ht : t.Canonical := State.Canonical.of_fst (h.imageCheck _) e
    exact ht.emit _

/-! Security and life cycle. -/

theorem State.Canonical.powerOn {s : State} (h : s.Canonical) (aon : Bool) : (s.powerOn aon).Canonical := by
  have ht := h.flashCut
  refine State.Canonical.foldl ?_ _ _ (fun _ _ hu => hu.setReg _ _)
  exact { State.reset_canonical with words := ht.words, info := ht.info }

theorem State.Canonical.setMinver {s : State} (h : s.Canonical) : (s.setMinver).Canonical :=
  (h.setReg _ _).ite h.badAcc

theorem State.Canonical.writeKey {s : State} (h : s.Canonical) (slot : Nat) : (s.writeKey slot).Canonical :=
  h.badAcc.ite ((h.elsewhere (by rfl)).setF _ _ _)

theorem State.Canonical.revoke {s : State} (h : s.Canonical) (slot : Nat) : (s.revoke slot).Canonical :=
  h.badAcc.ite (h.setF _ _ _)

theorem State.Canonical.secCmd {s : State} (h : s.Canonical) (v : Word) : (s.secCmd v).Canonical := by
  unfold State.secCmd
  extract_lets slot
  refine .ite h.badAcc ?_
  split
  · exact h.setMinver
  · exact h.writeKey _
  · exact h.revoke _
  · exact h.badAcc

theorem State.Canonical.lcRequest {s : State} (h : s.Canonical) (v : Word) : (s.lcRequest v).Canonical := by
  unfold State.lcRequest
  extract_lets goal reply old
  exact (h.setF _ _ _).ite ((((h.elsewhere (by rfl)).setF _ _ _).wipeBegin).ite (h.setF _ _ _))

theorem State.Canonical.lcWrite {s : State} (h : s.Canonical) : (s.lcWrite).Canonical := by
  unfold State.lcWrite
  split
  · exact h
  · extract_lets s1 old
    have h1 : s1.Canonical := h.setReg _ _
    exact (h1.elsewhere (by rfl)).powerOn _

theorem State.Canonical.disarmAll {s : State} (h : s.Canonical) : (s.disarmAll).Canonical :=
  h.foldl _ _ (fun _ _ h1 => h1.disarm _)

theorem State.Canonical.tamperWins {s : State} (h : s.Canonical) : (s.tamperWins).Canonical := by
  unfold State.tamperWins
  extract_lets old t old'
  have ht : t.Canonical := h.elsewhere (by rfl)
  exact ((ht.elsewhere (by rfl)).setF _ _ _).ite ht

theorem State.Canonical.tamper {s : State} (h : s.Canonical) (b : Fin 5) : (s.tamper b).Canonical := by
  unfold State.tamper
  refine .ite h ?_
  extract_lets s1 old s2
  have h1 : s1.Canonical := ((h.tamperWins.wipeBegin.setF _ _ _).setReg _ _).count _ _
  have h2 : s2.Canonical := (h1.elsewhere (by rfl)).fireIf _ _
  split
  · exact h2.disarmAll.ite h2
  · exact h2.disarmAll
  · exact h2.disarmAll.powerOn _

theorem State.Canonical.secWrite {s : State} (h : s.Canonical) (x : Access) (a : Nat) (v : Word) : (s.secWrite x a v).Canonical := by
  unfold State.secWrite
  extract_lets o en
  refine .ite h ?_
  refine .ite ((h.setReg _ _).ite (h.refuse _)) ?_
  refine .ite ((h.lcRequest _).ite (h.refuse _)) ?_
  refine .ite (h.refuse _) ?_
  exact .ite (h.secCmd _) ((h.ite ((h.setReg _ _).ite h.badAcc)).ite ((h.badAcc.ite (h.setReg _ _)).ite ((h.setReg _ _).ite h)))

/-! Supply and clocks. -/

theorem State.Canonical.setVin {s : State} (h : s.Canonical) (vin : BitVec 16) : (s.setVin vin).Canonical :=
  h.setF _ _ _

theorem State.Canonical.inputLoss {s : State} (h : s.Canonical) (vin : BitVec 16) : (s.inputLoss vin).Canonical := by
  unfold State.inputLoss
  extract_lets a s1 s2 old s3
  have h1 : s1.Canonical := (((h.setVin _).setF _ _ _).setF _ _ _).setF _ _ _
  have h2 : s2.Canonical := ((h1.setF _ _ _).setF _ _ _).count _ _
  have h3 : s3.Canonical := (h2.elsewhere (by rfl)).fireIf _ _
  exact h.ite ((h3.handOver _ _).ite h3)

theorem State.Canonical.holdupLow {s : State} (h : s.Canonical) : (s.holdupLow).Canonical := by
  unfold State.holdupLow
  extract_lets a
  exact h.ite ((((h.setF _ _ _).setF _ _ _).fireIf _ _).disarmAll)

theorem State.Canonical.shutdown {s : State} (h : s.Canonical) : (s.shutdown).Canonical :=
  (h.powerOn _).ite h

theorem State.Canonical.showOv {s : State} (h : s.Canonical) (vin : BitVec 16) : (s.showOv vin).Canonical := by
  unfold State.showOv
  extract_lets high s1
  have h1 : s1.Canonical := h.setB _ _ _
  exact (h1.setF _ _ _).ite h1

theorem State.Canonical.inputRestored {s : State} (h : s.Canonical) (vin : BitVec 16) : (s.inputRestored vin).Canonical := by
  unfold State.inputRestored
  extract_lets a s1
  have h1 : s1.Canonical := ((h.setVin _).setF _ _ _).showOv _
  exact h.ite (((h1.setF _ _ _).fireIf _ _).ite h1)

theorem State.Canonical.holdupReady {s : State} (h : s.Canonical) : (s.holdupReady).Canonical :=
  ((h.setF _ _ _).foldl _ _ (fun _ _ h1 => h1.armPending _)).ite h

theorem State.Canonical.overvoltage {s : State} (h : s.Canonical) (vin : BitVec 16) : (s.overvoltage vin).Canonical :=
  (h.setVin _).showOv _

theorem State.Canonical.foldback {s : State} (h : s.Canonical) (j : Nat) (pin : Nat) : (s.foldback j pin).Canonical :=
  h.ite ((((((h.count _ _).setF _ _ _).setF _ _ _).setF _ _ _).elsewhere (by rfl)).fireIf _ _)

theorem State.Canonical.foldbackEnd {s : State} (h : s.Canonical) (j : Nat) (pin : Nat) : (s.foldbackEnd j pin).Canonical :=
  h.elsewhere (by rfl)

theorem State.Canonical.dropClocks {s : State} (h : s.Canonical) : (s.dropClocks).Canonical :=
  h.setF _ _ _

theorem State.Canonical.clockLock {s : State} (h : s.Canonical) (c : Fin 7) : (s.clockLock c).Canonical :=
  (h.setF _ _ _).ite h

theorem State.Canonical.clockGlitch {s : State} (h : s.Canonical) : (s.clockGlitch).Canonical :=
  (h.disarmAll.tamper _).ite h

theorem State.Canonical.lineChange {s : State} (h : s.Canonical) (src : Nat) (level : Bool) : (s.lineChange src level).Canonical :=
  (h.lineLevel _ _).ite h

theorem State.Canonical.rtcAlarm {s : State} (h : s.Canonical) : (s.rtcAlarm).Canonical :=
  h.lineChange _ _

theorem State.Canonical.rtcTick {s : State} (h : s.Canonical) : (s.rtcTick).Canonical := by
  unfold State.rtcTick
  extract_lets s1
  have h1 : s1.Canonical := h.countWrap _ _
  exact (h1.countWrap _ _).ite h1

theorem State.Canonical.xtalOk {s : State} (h : s.Canonical) (ok : Bool) : (s.xtalOk ok).Canonical :=
  (h.setB _ _ _).dropClocks

theorem State.Canonical.temperature {s : State} (h : s.Canonical) (base die : BitVec 8) : (s.temperature base die).Canonical := by
  unfold State.temperature
  extract_lets a hot s1
  have h1 : s1.Canonical := ((h.setF _ _ _).setF _ _ _).setB _ _ _
  exact (h1.setF _ _ _).ite h1

theorem State.Canonical.pwrWrite {s : State} (h : s.Canonical) (a : Nat) (v : Word) : (s.pwrWrite a v).Canonical :=
  (h.setReg _ _).ite ((((h.setReg _ _).setF _ _ _).ite (h.setReg _ _)).ite h)

theorem State.Canonical.aonWrite {s : State} (h : s.Canonical) (a : Nat) (v : Word) : (s.aonWrite a v).Canonical :=
  .ite ((h.setReg _ _).dropClocks) ((h.setReg _ _).ite ((h.setReg _ _).ite (((h.setF _ _ _).dropClocks).ite h)))

/-! Trace. -/

theorem State.Canonical.mbxPut {s : State} (h : s.Canonical) (ty : Nat) (sess seq : Option Nat) : (s.mbxPut ty sess seq).Canonical := by
  unfold State.mbxPut
  extract_lets len k q s1 s2 old old'
  have h1 : s1.Canonical := h.setReg _ _
  have h2 : s2.Canonical := (h1.setReg _ _).setReg _ _
  have hold : old.Canonical := h2.setReg _ _
  exact hold.elsewhere (by rfl)

theorem State.Canonical.send {s : State} (h : s.Canonical) (t ty : Nat) (sess seq : Option Nat) (o : Out) :
    (s.send t ty sess seq o).Canonical :=
  ((h.mbxPut _ _ _).ite h).emit _

theorem State.Canonical.setTrc {s : State} (h : s.Canonical) (e : Fin 13) (t : TrcSt) : (s.setTrc e t).Canonical := by
  unfold State.setTrc
  extract_lets s1
  have h1 : s1.Canonical := h.elsewhere (by rfl)
  exact ((h1.setF _ _ _).setF _ _ _).ite h1

theorem State.Canonical.traceDrop {s : State} (h : s.Canonical) (e : Fin 13) : (s.traceDrop e).Canonical := by
  unfold State.traceDrop
  extract_lets old s1
  have h1 : s1.Canonical := h.setTrc _ _
  exact (((h1.count _ _).setF _ _ _).fireLocal _ _).ite (h1.count _ _)

theorem State.Canonical.postStore {s : State} (h : s.Canonical) (e : Fin 13) (p : Nat) (c : Cell) : (s.postStore e p c).Canonical :=
  .ite ((h.count _ _).ite (h.count _ _)) ((h.setTrc _ _).ite (((h.setTrc _ _).traceDrop _).ite ((h.setTrc _ _).traceDrop _)))

theorem State.Canonical.storeWords {s : State} (h : s.Canonical) (a : Nat) (ws : List Word) : (s.storeWords a ws).Canonical :=
  foldl_keeps (fun acc : State × Nat => acc.1.Canonical) _ ws (s, a) h (fun _ _ hacc => hacc.wr _ _ _)

theorem State.Canonical.ringPut {s : State} (h : s.Canonical) (p : Packet) {t : State} (ht : s.ringPut p = some t) : t.Canonical := by
  unfold State.ringPut at ht
  dsimp only at ht
  split at ht
  · cases ht
  · cases ht
    exact (h.storeWords _ _).setF _ _ _

theorem State.Canonical.hostRingPut {s : State} (h : s.Canonical) (n : Nat) (p : Packet) {t : State} (ht : s.hostRingPut n p = some t) :
    t.Canonical := by
  unfold State.hostRingPut at ht
  dsimp only at ht
  split at ht
  · split at ht
    · cases ht
      exact (h.toHost _ _ _).setFn _ _
    · cases ht
  · cases ht

theorem State.Canonical.sessionPut {s : State} (h : s.Canonical) (k : Nat) (p : Packet) {t : State} (ht : s.sessionPut k p = some t) :
    t.Canonical := by
  unfold State.sessionPut at ht
  split at ht
  · cases ht
    exact h.elsewhere (by rfl)
  · cases ht

theorem State.Canonical.deliverPacket {s : State} (h : s.Canonical) (e : Fin 13) (p : Packet) {t : State}
    (ht : s.deliverPacket e p = some t) :
    t.Canonical := by
  unfold State.deliverPacket at ht
  split at ht
  · split at ht
    · exact h.ringPut p ht
    · exact h.hostRingPut _ p ht
    · exact h.sessionPut _ p ht
    · cases ht
  · exact h.ringPut p ht

theorem State.Canonical.traceMerge {s : State} (h : s.Canonical) : (s.traceMerge).Canonical := by
  unfold State.traceMerge
  split
  · exact h
  · extract_lets q
    split
    · exact h
    · extract_lets old s1
      have hold : old.Canonical := h.setTrc _ _
      have h1 : s1.Canonical := hold.elsewhere (by rfl)
      split
      next t e''' =>
        have ht : t.Canonical := h1.deliverPacket _ _ e'''
        exact ht.setTrc _ _
      · exact h1.traceDrop _

theorem State.Canonical.traceSend {s : State} (h : s.Canonical) (k : Fin 4) : (s.traceSend k).Canonical := by
  unfold State.traceSend
  split
  · exact h.ite ((h.elsewhere (by rfl)).send _ _ _ _ _)
  · exact h

theorem State.Canonical.stpWrite {s : State} (h : s.Canonical) (n : Fin 12) (a : Nat) (v : Word) : (s.stpWrite n a v).Canonical := by
  unfold State.stpWrite
  extract_lets o
  exact .ite ((h.setReg _ _).ite h.badAcc) ((h.setReg _ _).ite ((h.setReg _ _).ite ((h.postStore _ _ _).ite h)))

theorem State.Canonical.ringCfg {s : State} (h : s.Canonical) (v : Word) : (s.ringCfg v).Canonical := by
  unfold State.ringCfg
  extract_lets a lg zero
  exact .ite (h.badAcc.ite (((h.setF _ _ _).setReg _ _).setReg _ _)) (h.badAcc.ite (((h.setReg _ _).setReg _ _).setReg _ _))

theorem State.Canonical.stpDevWrite {s : State} (h : s.Canonical) (a : Nat) (v : Word) : (s.stpDevWrite a v).Canonical := by
  unfold State.stpDevWrite
  extract_lets o
  refine .ite (h.ringCfg _) ?_
  exact .ite ((h.setReg _ _).ite h.badAcc) ((h.setReg _ _).ite ((h.badAcc.ite (h.setReg _ _)).ite ((h.postStore _ _ _).ite h)))

/-! Debug sessions. -/

theorem State.Canonical.setDbg {s : State} (h : s.Canonical) (d : DbgSt) : (s.setDbg d).Canonical :=
  h.elsewhere (by rfl)

theorem State.Canonical.showSessions {s : State} (h : s.Canonical) : (s.showSessions).Canonical :=
  h.setF _ _ _

theorem State.Canonical.arrived {s : State} (h : s.Canonical) (t : Fin 3) : (s.arrived t).Canonical :=
  h.setDbg _

theorem State.Canonical.mbxGo {s : State} (h : s.Canonical) (v : Word) : (s.mbxGo v).Canonical := by
  unfold State.mbxGo
  extract_lets len
  exact h.ite ((h.setReg _ _).arrived _)

theorem State.Canonical.udpDatagram {s : State} (h : s.Canonical) (len : Nat) : (s.udpDatagram len).Canonical :=
  h.ite (h.arrived _)

theorem State.Canonical.canSegment {s : State} (hs : s.Canonical) (c : Fin 2) (h : SegHead) (i : Nat) : (s.canSegment c h i).Canonical := by
  unfold State.canSegment
  extract_lets want old drop
  have hdrop : drop.Canonical := hs.setDbg _
  exact hs.ite (hdrop.ite (((hdrop.arrived _).ite hdrop).ite (hs.setDbg _)))

theorem State.Canonical.canTimeout {s : State} (h : s.Canonical) (c : Fin 2) : (s.canTimeout c).Canonical :=
  (h.setDbg _).ite h

theorem State.Canonical.taken {s : State} (h : s.Canonical) (t : Nat) : (s.taken t).Canonical := by
  unfold State.taken
  extract_lets old s1
  have h1 : s1.Canonical := h.setDbg _
  exact (h1.setReg _ _).ite h1

theorem State.Canonical.answer {s : State} (h : s.Canonical) (k : Nat) (seq : Nat) (r : Resp) : (s.answer k seq r).Canonical := by
  unfold State.answer
  split
  · exact h.ite ((h.setDbg _).send _ _ _ _ _)
  · exact h

theorem State.Canonical.done {s : State} (h : s.Canonical) (code status : Nat) (data : List Cell) :
    (Machine.done s code status data).st.Canonical := by
  unfold Machine.done
  exact h

theorem State.Canonical.execute {s : State} (h : s.Canonical) (q : ColbelReq) (x : Session) (run : State → Session → Ran)
    (hrun : ∀ u v, u.Canonical → (run u v).st.Canonical) :
    (s.execute q x run).Canonical := by
  unfold State.execute
  extract_lets s1 y old s2 r
  have h1 : s1.Canonical := h.taken _
  have h2 : s2.Canonical := h1.setDbg _
  have hr : r.st.Canonical := hrun _ _ h2
  split
  · exact hr.answer _ _ _
  · exact hr

theorem State.Canonical.request {s : State} (h : s.Canonical) (q : ColbelReq) (run : State → Session → Ran)
    (hrun : ∀ u v, u.Canonical → (run u v).st.Canonical) :
    (s.request q run).Canonical := by
  unfold State.request
  refine .ite h ?_
  split
  · exact h.taken _
  · extract_lets seq t old
    have ht : t.Canonical := h.taken _
    refine .ite (h.taken _) ?_
    refine .ite ?_ ((h.taken _).ite (h.execute _ _ _ (fun _ _ h2 => hrun _ _ h2)))
    split
    · exact (ht.setDbg _).send _ _ _ _ _
    · exact h.taken _

theorem State.Canonical.withAuth {s : State} (h : s.Canonical) (q : ColbelReq) (code need : Nat) (run : State → Session → Ran)
    (hrun : ∀ u v, u.Canonical → (run u v).st.Canonical) :
    (s.withAuth q code need run).Canonical :=
  h.request _ _ (fun _ _ h1 => (hrun _ _ h1).iteRan (h1.done _ _ _))

theorem State.Canonical.dbgHalt {s : State} (h : s.Canonical) (n : Fin 12) (by_ : Option Nat) : (s.dbgHalt n by_).Canonical := by
  unfold State.dbgHalt
  extract_lets p old s1 old' s2
  have h1 : s1.Canonical := (h.setCore _ _).wdgHalt _
  have h2 : s2.Canonical := h1.setDbg _
  split
  · exact h2.answer _ _ _
  · exact h2

theorem State.Canonical.haltEffect {s : State} (h : s.Canonical) (n : Fin 12) : (s.haltEffect n).Canonical := by
  unfold State.haltEffect
  split
  · exact (h.dbgHalt _ _).ite h
  · exact h

theorem State.Canonical.stepStop {s : State} (h : s.Canonical) (n : Fin 12) : (s.stepStop n).Canonical := by
  unfold State.stepStop
  split
  · exact (h.setDbg _).answer _ _ _
  · exact h

theorem State.Canonical.dbgResume {s : State} (h : s.Canonical) (n : Fin 12) : (s.dbgResume n).Canonical := by
  unfold State.dbgResume
  extract_lets p s1 old old' old''
  have h1 : s1.Canonical := h.stepStop _
  exact (((h1.setCore _ _).setDbg _).wdgResume _).ite (h.setDbg _)

theorem State.Canonical.unattach {s : State} (h : s.Canonical) (n : Fin 12) : (s.unattach n).Canonical := by
  unfold State.unattach
  extract_lets old s1 old' s2 old''
  have h1 : s1.Canonical := h.setDbg _
  have h2 : s2.Canonical := h1.setCore _ _
  exact (h2.setCtl _ _).setF _ _ _

theorem State.Canonical.detach {s : State} (h : s.Canonical) (n : Fin 12) : (s.detach n).Canonical :=
  (h.dbgResume _).unattach _

theorem State.Canonical.helloMsg {s : State} (h : s.Canonical) (m : HelloMsg) : (s.helloMsg m).Canonical := by
  unfold State.helloMsg
  extract_lets t error s1 i nonce keys old
  have h1 : s1.Canonical := h.taken _
  refine .ite h ?_
  refine .ite ((h.taken _).send _ _ _ _ _) ?_
  refine .ite h ?_
  refine .ite ((h.taken _).send _ _ _ _ _) ?_
  split
  · exact (h.taken _).send _ _ _ _ _
  · extract_lets s2
    have h2 : s2.Canonical := (h1.setDbg _).showSessions
    exact (h2.elsewhere (by rfl)).send _ _ _ _ _

theorem State.Canonical.endSession {s : State} (h : s.Canonical) (k : Fin 4) : (s.endSession k).Canonical := by
  unfold State.endSession
  split
  · exact h
  · extract_lets s1 old
    have h1 : s1.Canonical := (h.ptbSession _).foldl _ _ (fun _ _ h1 =>
      ((((((((((h1.dbgResume _).ite h1).unattach _).ite ((h1.dbgResume _).ite h1)).setDbg _).setReg _ _).setDbg _).pinsSlice _).ite
        (((((h1.dbgResume _).ite h1).unattach _).ite ((h1.dbgResume _).ite h1)).setDbg _)).setF _ _ _).ite
          (((((((((h1.dbgResume _).ite h1).unattach _).ite ((h1.dbgResume _).ite h1)).setDbg _).setReg _ _).setDbg _).pinsSlice _).ite
            (((((h1.dbgResume _).ite h1).unattach _).ite ((h1.dbgResume _).ite h1)).setDbg _)))
    exact (h1.setDbg _).showSessions

theorem State.Canonical.endSessions {s : State} (h : s.Canonical) : (s.endSessions).Canonical :=
  h.foldl _ _ (fun _ _ h1 => h1.endSession _)

theorem State.Canonical.secWiped {s : State} (h : s.Canonical) : (s.secWiped).Canonical :=
  h.wiped.endSessions.ite h

theorem State.Canonical.closeMsg {s : State} (h : s.Canonical) (t : Fin 3) (k : Fin 4) : (s.closeMsg t k).Canonical :=
  ((h.taken _).endSession _).ite h

theorem State.Canonical.sessionTimeout {s : State} (h : s.Canonical) (k : Fin 4) : (s.sessionTimeout k).Canonical := by
  unfold State.sessionTimeout
  split
  · exact (h.endSession _).ite h
  · exact h

theorem State.Canonical.authMsg {s : State} (h : s.Canonical) (q : ColbelReq) (test : Bool) : (s.authMsg q test).Canonical := by
  unfold State.authMsg
  refine h.request q _ (fun t x ht => ?_)
  extract_lets want asks old t1 free
  have h1 : t1.Canonical := ht.setDbg _
  exact State.Canonical.done (h1.elsewhere (by rfl)) _ _ _

theorem State.Canonical.authSign {s : State} (h : s.Canonical) (q : ColbelReq) (sig : Bool) (slot : Option (Fin 4)) :
    (s.authSign q sig slot).Canonical :=
  h.request _ _ (fun _ _ h1 => (((h1.setDbg _).setDbg _).done _ _ _).iteRan ((((h1.setDbg _).count _ _).setDbg _).done _ _ _))

theorem State.Canonical.lockoutEnd {s : State} (h : s.Canonical) (t : Fin 3) : (s.lockoutEnd t).Canonical :=
  (h.setDbg _).ite h

theorem State.Canonical.onSlice {s : State} (h : s.Canonical) (code : Nat) (n : Fin 13) (run : Fin 12 → Ran)
    (hrun : ∀ u, (run u).st.Canonical) :
    (s.onSlice code n run).st.Canonical := by
  unfold State.onSlice
  split
  · exact (hrun _).iteRan (h.done _ _ _)
  · exact h.done _ _ _

theorem State.Canonical.attachMsg {s : State} (h : s.Canonical) (q : ColbelReq) (n : Fin 13) : (s.attachMsg q n).Canonical :=
  h.withAuth _ _ _ _ (fun _ _ h1 => h1.onSlice _ _ _ (fun _ => (h1.done _ _ _).iteRan
    ((h1.done _ _ _).iteRan ((((h1.setCtl _ _).setF _ _ _).done _ _ _).iteRan ((h1.attachNow _ _).done _ _ _)))))

theorem State.Canonical.detachMsg {s : State} (h : s.Canonical) (q : ColbelReq) (n : Fin 13) : (s.detachMsg q n).Canonical :=
  h.withAuth _ _ _ _ (fun _ _ h1 => h1.onSlice _ _ _ (fun _ => ((h1.detach _).done _ _ _).iteRan (h1.done _ _ _)))

theorem State.Canonical.haltMsg {s : State} (h : s.Canonical) (q : ColbelReq) (n : Fin 13) : (s.haltMsg q n).Canonical :=
  h.withAuth _ _ _ _ (fun _ _ h1 => h1.onSlice _ _ _ (fun _ => (h1.done _ _ _).iteRan
    ((h1.done _ _ _).iteRan (((h1.setDbg _).dbgHalt _ _).ite (h1.setDbg _)))))

theorem State.Canonical.resumeMsg {s : State} (h : s.Canonical) (q : ColbelReq) (n : Fin 13) : (s.resumeMsg q n).Canonical :=
  h.withAuth _ _ _ _ (fun _ _ h1 => h1.onSlice _ _ _ (fun _ => (h1.done _ _ _).iteRan
    ((h1.done _ _ _).iteRan ((h1.dbgResume _).done _ _ _))))

theorem State.Canonical.setBpMsg {s : State} (h : s.Canonical) (q : ColbelReq) (n : Fin 13) (i : Fin 4) (pc : BitVec 17)
    (sets : BitVec 8) (en : Bool) :
    (s.setBpMsg q n i pc sets en).Canonical :=
  h.withAuth _ _ _ _ (fun _ _ h1 => h1.onSlice _ _ _ (fun _ => (h1.setDbg _).done _ _ _))

theorem State.Canonical.setWpMsg {s : State} (h : s.Canonical) (q : ColbelReq) (n : Fin 13) (i : Fin 2) (base : Word) (len : Nat)
    (rd wr : Bool) (value : Option Word) :
    (s.setWpMsg q n i base len rd wr value).Canonical :=
  h.withAuth _ _ _ _ (fun _ _ h1 => h1.onSlice _ _ _ (fun _ => (h1.done _ _ _).iteRan ((h1.setDbg _).done _ _ _)))

theorem State.Canonical.noteAccess {s : State} (h : s.Canonical) (n : Fin 12) (a len : Nat) (wr : Bool) (v : Word) :
    (s.noteAccess n a len wr v).Canonical := by
  unfold State.noteAccess
  extract_lets hit old
  split
  · exact h.setDbg _
  · exact h

theorem State.Canonical.wpUndo {s : State} (h : s.Canonical) (was : State) : (s.wpUndo was).Canonical :=
  h.setDbg _

theorem State.Canonical.wpStop {s : State} (h : s.Canonical) (n : Fin 12) : (s.wpStop n).Canonical := by
  unfold State.wpStop
  split
  · exact ((h.setDbg _).dbgHalt _ _).ite h
  · exact h

theorem State.Canonical.testOutMsg {s : State} (h : s.Canonical) (q : ColbelReq) (n : Fin 13) (mask : BitVec 8) :
    (s.testOutMsg q n mask).Canonical :=
  h.withAuth _ _ _ _ (fun _ _ h1 => h1.onSlice _ _ _ (fun _ => (h1.done _ _ _).iteRan
    ((((h1.setReg _ _).setDbg _).pinsSlice _).done _ _ _)))

theorem State.Canonical.traceCfgMsg {s : State} (h : s.Canonical) (q : ColbelReq) (n : Fin 13) (ctrl en : Word) :
    (s.traceCfgMsg q n ctrl en).Canonical :=
  h.withAuth _ _ _ _ (fun _ _ h1 => h1.onSlice _ _ _ (fun _ => (h1.done _ _ _).iteRan (((h1.stpWrite _ _ _).stpWrite _ _ _).done _ _ _)))

theorem State.Canonical.tokenMsg {s : State} (h : s.Canonical) (q : ColbelReq) (valid : Bool) : (s.tokenMsg q valid).Canonical :=
  h.withAuth _ _ _ _ (fun _ _ h1 => (((h1.elsewhere (by rfl)).setReg _ _).fresh).done _ _ _)

theorem State.Canonical.keepAliveMsg {s : State} (h : s.Canonical) (q : ColbelReq) : (s.keepAliveMsg q).Canonical :=
  h.request _ _ (fun _ _ h1 => h1.done _ _ _)

/-! Taps of the router. -/

theorem State.Canonical.tapSar {s : State} (h : s.Canonical) (src : Nat) : (s.tapSar src).Canonical :=
  h.foldl _ _ (fun _ _ h1 => h1.foldl _ _ (fun _ _ h2 => (h2.sarTrig _ _ _ _).ite h2))

theorem State.Canonical.tapCle {s : State} (h : s.Canonical) (src : Nat) : (s.tapCle src).Canonical :=
  h.foldl _ _ (fun _ _ h1 => h1.foldl _ _ (fun _ _ h2 => h2.loopTrig _ _))

theorem State.Canonical.eventTap {s : State} (h : s.Canonical) : (s.eventTap).Canonical := by
  unfold State.eventTap
  split
  · exact h
  · extract_lets old s1 own
    have h1 : s1.Canonical := h.elsewhere (by rfl)
    exact (((h1.tapSar _).tapCle _).waitsEnd _ _ _).descEvent _ _ _

/-! Start-up and sleep. -/

theorem State.Canonical.readSection {s : State} (h : s.Canonical) (bank : Nat) (c : Section) : (s.readSection bank c).Canonical :=
  h.readLines _ _

theorem State.Canonical.loadProgram {s : State} (h : s.Canonical) (bank : Nat) (p : Fin 13) : (s.loadProgram bank p).1.Canonical := by
  unfold State.loadProgram
  split
  · exact h
  next c _ =>
    extract_lets s1
    have h1 : s1.Canonical := (h.clearProg _).readSection _ _
    have hlen : min (progLen p) (c.len / 2) ≤ 2 ^ 17 := (Nat.min_le_left _ _).trans (by unfold progLen; split <;> decide)
    refine { h1 with prog := putProg_wf h1.prog (State.progOf_wf _ _ _ _) (fun e he => ?_) }
    have := State.mem_progOf he
    omega

theorem State.Canonical.loadMcode {s : State} (h : s.Canonical) (bank n : Nat) : (s.loadMcode bank n).Canonical := by
  unfold State.loadMcode
  split
  · exact h
  next c _ =>
    extract_lets ws ver old s1
    have hold : old.Canonical := h.readSection _ _
    have hws : ∀ e ∈ ws, e.1 / 4096 = n := fun e he => by
      have := State.mem_mcodeOf he
      omega
    have hst := hold.withStores (putSlice_wf h.mstore (State.mcodeOf_wf _ _ _ _ _ _ _) hws)
      (putSlice_wf h.mcopy (State.mcodeOf_wf _ _ _ _ _ _ _) hws)
    have h1 : s1.Canonical := (hst.elsewhere (by rfl)).freshCopies _ _
    exact (h1.setReg _ _).showLs _

theorem State.Canonical.loadCustomer {s : State} (h : s.Canonical) (bank n : Nat) : (s.loadCustomer bank n).Canonical := by
  unfold State.loadCustomer
  split
  · exact h
  next c _ =>
    refine .ite h ?_
    extract_lets ws old
    have hold : old.Canonical := h.readSection _ _
    have hput : ∀ m, SMap.wf (fun _ => (0 : MWord)) m = true →
        SMap.wf (fun _ => (0 : MWord)) (putSlice n (ofSlice n 0x800 m ++ ws) m) = true :=
      fun m hm => putSlice_wf hm (vendorThen_wf hm) (fun e he => mem_vendorThen he)
    have hst := hold.withStores (hput _ h.mstore) (hput _ h.mcopy)
    exact (hst.freshCopies _ _).showLs _

theorem State.Canonical.takeBank {s : State} (h : s.Canonical) (n : Fin 12) : (s.takeBank n).Canonical := by
  unfold State.takeBank
  extract_lets bank old s'
  have h' : s'.Canonical := h.setCtl _ _
  refine .ite ?_ h
  refine .ite (h.setCtl _ _) ?_
  split
  next t _ e =>
    have ht : t.Canonical := State.Canonical.of_fst (h'.loadProgram _ _) e
    extract_lets old' s2
    have h2 : s2.Canonical := (ht.setCtl _ _).ite ht
    exact (h2.loadCustomer _ _).setF _ _ _

theorem State.Canonical.bankTick {s : State} (h : s.Canonical) (n : Fin 12) : (s.bankTick n).Canonical :=
  h.ite ((h.takeBank _).ite (h.setCtl _ _))

theorem State.Canonical.nowFenced {s : State} (h : s.Canonical) (n : Fin 12) (cause : Nat) : (s.nowFenced n cause).Canonical := by
  unfold State.nowFenced
  extract_lets c s1 s2 s3
  have h1 : s1.Canonical := (((h.setCtl _ _).slFault _ _).dropRoutesTo _).setSl _ _
  have h2 : s2.Canonical := ((h1.injEnd _ _).takeBank _).pinsSlice _
  have h3 : s3.Canonical := h2.descDone _ _ _
  exact (h3.setOwner _ _).ite h3

theorem State.Canonical.fenceEnd {s : State} (h : s.Canonical) (n : Fin 12) : (s.fenceEnd n).Canonical := by
  unfold State.fenceEnd
  extract_lets c
  refine .ite h ?_
  refine .ite ?_ ((h.nowFenced _ _).ite h)
  refine .ite h ?_
  split
  next t _ e =>
    have ht : t.Canonical := State.Canonical.of_fst (((h.grgReset _).coreReset _).loadVendor _) e
    exact ht.nowFenced _ _

theorem State.Canonical.stopAllDma {s : State} (h : s.Canonical) : (s.stopAllDma).Canonical :=
  h.foldl _ _ (fun _ _ h1 => h1.foldl _ _ (fun _ _ h2 => h2.dmaStop _ _ _))

theorem State.Canonical.modeRequest {s : State} (h : s.Canonical) (v : Word) : (s.modeRequest v).Canonical := by
  unfold State.modeRequest
  split
  · extract_lets goal s1
    have h1 : s1.Canonical := (h.elsewhere (by rfl)).setF _ _ _
    exact h1.disarmAll.stopAllDma.ite (h1.disarmAll.ite h1)
  · exact h.setF _ _ _

theorem State.Canonical.setMode {s : State} (h : s.Canonical) (m : Nat) : (s.setMode m).Canonical := by
  unfold State.setMode
  extract_lets a s1 old
  have h1 : s1.Canonical := (h.setF _ _ _).countWrap _ _
  have hold : old.Canonical := ((h1.setF _ _ _).setF _ _ _).setF _ _ _
  exact hold.elsewhere (by rfl)

theorem State.Canonical.leaveTwin {s : State} (h : s.Canonical) : (s.leaveTwin).Canonical :=
  (((h.elsewhere (by rfl)).setReg _ _).showSync).showHealth

theorem State.Canonical.modeEffects {s : State} (h : s.Canonical) (m0 : Nat) : (s.modeEffects m0).Canonical := by
  unfold State.modeEffects
  extract_lets s1 s2 s3 s4
  have h1 : s1.Canonical := h.injMode.ptbMode
  have h2 : s2.Canonical := h1.foldl _ _ (fun _ _ h2 => h2.setReg _ _)
  have h3 : s3.Canonical := (h2.hilClear _).ite h2
  have h4 : s4.Canonical := h3.leaveTwin.ite h3
  exact (h4.pairUp.ite h4).pinsAll

theorem State.Canonical.modeComplete {s : State} (h : s.Canonical) : (s.modeComplete).Canonical := by
  unfold State.modeComplete
  split
  · exact h.ite (((h.setMode _).modeEffects _).fire _)
  · exact h

theorem State.Canonical.keepWins {s : State} (h : s.Canonical) (kept : Nat → Nat → Bool) : (s.keepWins kept).Canonical :=
  h.foldl _ _ (fun _ _ h1 => h1.foldl _ _ (fun _ _ h2 => (((h2.setB _ _ _).showWin _ _).setReg _ _).ite h2))

theorem State.Canonical.sleep {s : State} (h : s.Canonical) : (s.sleep).Canonical := by
  have ht := h.flashCut
  refine State.Canonical.setClearing (State.Canonical.foldl ?_ _ _ (fun _ _ hu => hu.setF _ _ _)) _
  refine { State.reset_canonical with
    regs := SMap.wf_filter _ _ _ h.regs, cells := SMap.wf_filter _ _ _ h.cells, words := ht.words, info := ht.info, mcopy := ?_ }
  dsimp only
  split
  · exact h.mcopy
  · rfl

theorem State.Canonical.stabledEntry {s : State} (h : s.Canonical) : (s.stabledEntry).Canonical :=
  (((h.endSessions.sleep.setMode _).keepWins _).dropClocks).ite h

theorem State.Canonical.bootStop {s : State} (h : s.Canonical) (step code : Nat) : (s.bootStop step code).Canonical := by
  unfold State.bootStop
  extract_lets a
  exact (((h.setF _ _ _).setF _ _ _).setF _ _ _).setF _ _ _

theorem State.Canonical.stepPower {s : State} (h : s.Canonical) (t : BootTests) : (s.stepPower t).Canonical := by
  unfold State.stepPower
  extract_lets p old old' s0 s1
  have hold : old.Canonical := ((h.setVin _).setF _ _ _).showOv _
  have h0 : s0.Canonical := h.ite (hold.elsewhere (by rfl))
  have h1 : s1.Canonical := (h0.setF _ _ _).setB _ _ _
  exact (h1.setF _ _ _).setF _ _ _

theorem State.Canonical.stepClocks {s : State} (h : s.Canonical) : (s.stepClocks).Canonical :=
  h.setF _ _ _

theorem State.Canonical.lcErase {s : State} (h : s.Canonical) : (s.lcErase).Canonical := by
  unfold State.lcErase
  extract_lets wipe blocks due s1 s2 old
  have h1 : s1.Canonical := h.foldl _ _ (fun _ _ h1 => ((h1.eraseBegin _ _).eraseFinish _ _ _).ite h1)
  have h2 : s2.Canonical := (h1.setF _ _ _).ite h1
  exact h2.elsewhere (by rfl)

theorem State.Canonical.stepFlash {s : State} (h : s.Canonical) (e : EraseEnd) (slept : Bool) : (s.stepFlash e slept).1.Canonical := by
  unfold State.stepFlash
  extract_lets s1 r
  have h1 : s1.Canonical := ((h.lcErase.rewriteEnd _).markIncomplete).readLines _ _
  split
  · extract_lets s2 s3
    have h2 : s2.Canonical := (h1.setF _ _ _).setB _ _ _
    have h3 : s3.Canonical := (h2.setReg _ _).fresh
    exact h3.setB _ _ _

theorem State.Canonical.stepImages {s : State} (h : s.Canonical) : (s.stepImages).1.Canonical := by
  unfold State.stepImages
  extract_lets first s0
  have h0 : s0.Canonical := (h.setF _ _ _).setF _ _ _
  split
  next s1 ok1 e1 =>
    have h1 : s1.Canonical := State.Canonical.of_fst (h0.imageCheck _) e1
    split
    next s2 bank e2 =>
      have h2 : s2.Canonical := by
        refine State.Canonical.of_fst ?_ e2
        exact .iteFst h1 (h1.imageCheck _)
      split
      · exact h2
      · extract_lets s3 s4
        have h3 : s3.Canonical := ((h2.setF _ _ _).setF _ _ _).setF _ _ _
        have h4 : s4.Canonical := (h3.setF _ _ _).setB _ _ _
        exact h4.elsewhere (by rfl)

theorem State.Canonical.stepMemories {s : State} (h : s.Canonical) : (s.stepMemories).Canonical := by
  unfold State.stepMemories
  extract_lets up
  exact (h.setF _ _ _).clearMain

theorem State.Canonical.sliceFail {s : State} (h : s.Canonical) (n : Fin 12) (bad : Bool) (cause : Nat) :
    (s.sliceFail n bad cause).Canonical :=
  ((h.slFault _ _).setSl _ _).ite h

theorem State.Canonical.eachFitted {s : State} (h : s.Canonical) (g : State → Fin 12 → State)
    (hg : ∀ u v, u.Canonical → (g u v).Canonical) :
    (s.eachFitted g).Canonical :=
  h.foldl _ _ (fun _ _ h1 => (hg _ _ h1).ite h1)

theorem State.Canonical.stepMarch {s : State} (h : s.Canonical) (t : BootTests) : (s.stepMarch t).Canonical :=
  (h.eachFitted _ (fun _ _ h1 => (h1.bootMarch _ _).sliceFail _ _ _)).bootMarch _ _

theorem State.Canonical.stepSlices {s : State} (h : s.Canonical) (t : BootTests) (bank : Nat) : (s.stepSlices t bank).Canonical := by
  unfold State.stepSlices
  extract_lets s1 s2
  have h1 : s1.Canonical := h.eachFitted _ (fun _ _ h1 => (h1.noteInj _ _).sliceFail _ _ _)
  have h2 : s2.Canonical := h1.eachFitted _ (fun _ _ h2 => (h2.loadMcode _ _).sliceFail _ _ _)
  exact h2.eachFitted _ (fun _ _ h3 => h3.sliceFail _ _ _)

theorem State.Canonical.applyRecord {s : State} (h : s.Canonical) (r : Option ConfRec) : (s.applyRecord r).Canonical := by
  unfold State.applyRecord
  split
  · exact h
  · extract_lets id s1
    have h1 : s1.Canonical := h.setReg _ _
    exact (h1.setF _ _ _).setB _ _ _

theorem State.Canonical.startSlice {s : State} (h : s.Canonical) (bank m : Nat) (n : Fin 12) : (s.startSlice bank m n).Canonical := by
  unfold State.startSlice
  refine .ite h ?_
  split
  · exact h
  next t e =>
    have ht : t.Canonical := State.Canonical.of_fst (h.loadProgram _ _) e
    extract_lets isl s2 old
    have h2 : s2.Canonical := ((ht.loadCustomer _ _).coreReset _).releasePair _
    exact (h2.setCtl _ _).setSl _ _

theorem State.Canonical.stepEnter {s : State} (h : s.Canonical) (bank m : Nat) (r : Option ConfRec) : (s.stepEnter bank m r).Canonical := by
  unfold State.stepEnter
  extract_lets b s0 s1 s2 s3 s4 s5 arm s6
  have h0 : s0.Canonical := (h.loadProgram _ _).coreReset _
  have h1 : s1.Canonical := h0.ite (h0.releasePair _)
  have h2 : s2.Canonical := ((h1.applyRecord _).eachFitted _ (fun _ _ h3 => h3.tripSample _)).eachFitted _
    (fun _ _ h3 => h3.startSlice _ _ _)
  have h3 : s3.Canonical := ((h2.setMode _).setF _ _ _).setF _ _ _
  have h4 : s4.Canonical := (h3.setB _ _ _).fire _
  have h5 : s5.Canonical := h4.pairUp.ite h4
  have h6 : s6.Canonical := h5.eachFitted _ (fun _ _ h7 => (h7.showWins _).ite h7)
  exact (h6.foldl _ _ (fun _ _ h8 => (h8.armReq _).ite h8)).pinsAll

theorem State.Canonical.coldSteps {s : State} (h : s.Canonical) (t : BootTests) (slept : Bool) : (s.coldSteps t slept).Canonical := by
  unfold State.coldSteps
  split
  next s1 _ _ e =>
    have h1 : s1.Canonical := State.Canonical.of_fst (h.stepClocks.stepFlash _ _) e
    split
    next s2 e' =>
      have h2 : s2.Canonical := State.Canonical.of_fst h1.stepImages e'
      exact h2.bootStop _ _
    next s2 _ e' =>
      have h2 : s2.Canonical := State.Canonical.of_fst h1.stepImages e'
      extract_lets march s2a s3 s4
      have h2a : s2a.Canonical := h2.clearOnChip.stepMemories
      have h3 : s3.Canonical := (h2a.stepMarch _).ite h2a
      have h4 : s4.Canonical := h3.noteInj _ _
      exact (h3.bootStop _ _).ite ((h4.bootStop _ _).ite ((h4.stepSlices _ _).stepEnter _ _ _))

theorem State.Canonical.coldStart {s : State} (h : s.Canonical) (t : BootTests) : (s.coldStart t).Canonical :=
  h.ite (((h.stepPower _).setMode _).ite ((h.stepPower _).coldSteps _ _))

theorem State.Canonical.loaderRestart {s : State} (h : s.Canonical) (can : Bool) (t : BootTests) : (s.loaderRestart can t).Canonical :=
  h.ite ((h.emit _).ite (((h.emit _).powerOn _).coldStart _))

theorem State.Canonical.warmSteps {s : State} (h : s.Canonical) (t : BootTests) : (s.warmSteps t).Canonical := by
  unfold State.warmSteps
  extract_lets b m bank s1
  have h1 : s1.Canonical := ((((h.setF _ _ _).setF _ _ _).stepClocks).stepMemories).noteInj _ _
  exact (h1.bootStop _ _).ite ((h1.stepSlices _ _).stepEnter _ _ _)

theorem State.Canonical.wake {s : State} (h : s.Canonical) (k : Fin 10) (also : BitVec 10) (t : BootTests) :
    (s.wake k also t).Canonical := by
  unfold State.wake
  extract_lets a en old more s1
  have hold : old.Canonical := (h.setF _ _ _).setF _ _ _
  have h1 : s1.Canonical := h.setF _ _ _
  refine .ite h ?_
  exact .ite (hold.elsewhere (by rfl)) (h.ite ((h1.coldSteps _ _).ite (((h1.powerOn _).coldStart _).ite (h1.warmSteps _))))

end Machine
end Sys2Proof
end

section
/-! PROOFS. The canonical form: register space and the instructions of a pair. -/

namespace Sys2Proof
namespace Machine

/-! Register space. -/

theorem State.Canonical.dmaReject {s : State} (h : s.Canonical) (e : Nat) : (s.dmaReject e).Canonical :=
  h.count _ _

theorem State.Canonical.dmaStart {s : State} (h : s.Canonical) (e : Fin 13) (c : Fin 16) : (s.dmaStart e c).Canonical := by
  unfold State.dmaStart
  extract_lets a s1
  have h1 : s1.Canonical := (((h.setF _ _ _).setF _ _ _).setF _ _ _).setReg _ _
  exact (h1.setDmaState _ _ _).setDma _ _ _

theorem State.Canonical.dmaCtrl {s : State} (h : s.Canonical) (e : Fin 13) (c : Fin 16) (v : Word) : (s.dmaCtrl e c v).Canonical :=
  (h.dmaStop _ _ _).ite (((h.dmaStart _ _).ite (h.dmaReject _)).ite h)

theorem State.Canonical.dmaWrite {s : State} (h : s.Canonical) (e : Fin 13) (a : Nat) (v : Word) : (s.dmaWrite e a v).Canonical := by
  unfold State.dmaWrite
  extract_lets o k closed
  refine .dite (fun hc => ?_) (fun hc => ?_)
  · refine .ite h ?_
    split
    · exact h.dmaCtrl _ _ _
    · exact (h.dmaReject _).ite (h.setReg _ _)
    · exact h.setReg _ _
    · exact h
  · exact h

theorem State.Canonical.kcWrite {s : State} (h : s.Canonical) (a o : Nat) (v : Word) : (s.kcWrite a o v).Canonical := by
  unfold State.kcWrite
  refine .ite ((h.setReg _ _).ite h) ?_
  refine .ite (h.setReg _ _) ?_
  exact .ite (h.setReg _ _) ((h.setReg _ _).ite ((h.setReg _ _).ite ((h.setReg _ _).ite ((h.setReg _ _).ite h))))

theorem State.Canonical.plainWrite {s : State} (h : s.Canonical) (a : Nat) (v : Word) : (s.plainWrite a v).Canonical := by
  unfold State.plainWrite
  split
  · exact h.setReg _ _
  · exact h

theorem State.Canonical.devWrite {s : State} (h : s.Canonical) (m : Master) (a : Nat) (v : Word) : (s.devWrite m a v).Canonical := by
  unfold State.devWrite
  extract_lets o
  refine .ite (h.modeRequest _) ?_
  refine .ite (h.foldl _ _ (fun _ _ h1 => (h1.armReq _).ite h1)) ?_
  exact .ite (h.foldl _ _ (fun _ _ h1 => (h1.disarm _).ite h1)) (State.Canonical.dite (fun _ => h.assign _ _ _) (fun _ => h))

theorem State.Canonical.slcWrite {s : State} (h : s.Canonical) (m : Master) (n : Fin 12) (o a : Nat) (v : Word) :
    (s.slcWrite m n o a v).Canonical := by
  unfold State.slcWrite
  refine .ite (h.slcCmd _ _ _) ?_
  refine .ite ((h.disarm _).ite ((h.armReq _).ite h)) ?_
  refine .ite (h.setReg _ _) ?_
  refine .ite (h.slcTrip _ _) ?_
  exact State.Canonical.dite (fun _ => h.tripinWrite _ _ _) (fun _ => State.Canonical.dite (fun _ => h.capcfgWrite _ _ _)
    (fun _ => (h.encWrite _ _).ite (h.plainWrite _ _)))

theorem State.Canonical.sliceWrite {s : State} (h : s.Canonical) (x : Access) (n : Fin 12) (o a : Nat) (v : Word) :
    (s.sliceWrite x n o a v).Canonical := by
  unfold State.sliceWrite
  refine .ite (h.slcWrite _ _ _ _ _) ?_
  exact State.Canonical.dite (fun _ => h.pwmWrite _ _ _ _) (fun _ => h.ite
    ((h.sarWrite _ _ _).ite ((h.grgWrite _ _ _).ite ((h.cleWrite _ _ _).ite
      ((h.mcsWrite _ _ _).ite (h.ite ((h.dmaWrite _ _ _).ite ((h.evrLocalWrite _ _ _ _).ite
        ((h.kcWrite _ _ _).ite ((h.injWrite _ _ _ _).ite ((h.ptbWrite _ _ _ _).ite
          ((h.wdgWrite _ _ _ _).ite ((h.stpWrite _ _ _).ite h)))))))))))))

theorem State.Canonical.deviceWrite {s : State} (h : s.Canonical) (x : Access) (a : Nat) (v : Word) : (s.deviceWrite x a v).Canonical := by
  unfold State.deviceWrite
  split
  · exact h.devWrite _ _ _
  · exact h.madWrite _ _
  · exact h.memWrite _ _
  · exact h.mmcWrite _ _
  · exact h.evrDevWrite _ _ _
  · exact h.dmaWrite _ _ _
  · exact h.hifWrite _ _
  · exact (State.Canonical.lockedNow _ (h.pwyWrite _ _)).dropClocks
  · exact (h.twnWrite _ _).dropClocks
  · exact h.flcWrite _ _
  · exact h.pwrWrite _ _
  · exact h.aonWrite _ _
  · exact h.wdgWrite _ _ _ _
  · exact h.secWrite _ _ _
  · exact h.stpDevWrite _ _
  · exact h.ptbWrite _ _ _ _
  · exact h

theorem State.Canonical.msixTableWrite {s : State} (h : s.Canonical) (f : Fin 16) (o : Nat) (v : Word) :
    (s.msixTableWrite f o v).Canonical :=
  ((h.setFn _ _).ite (h.ite ((h.setFn _ _).msixUnmask _))).ite ((h.setReg _ _).ite h)

theorem State.Canonical.progWrite {s : State} (h : s.Canonical) (n : Fin 12) (w : Nat) (v : Word) : (s.progWrite n w v).Canonical :=
  h.ite (h.ite ((h.setProgWord _ _ _).setCtl _ _))

theorem State.Canonical.regWrite {s : State} (h : s.Canonical) (x : Access) (a : Nat) (v : Word) : (s.regWrite x a v).Canonical := by
  unfold State.regWrite
  extract_lets s' o o'
  have h' : s'.Canonical := h.breakResv _ _
  refine .ite h' ?_
  refine .ite (h'.deviceWrite _ _ _) ?_
  refine .dite (fun hc => ?_) (fun hc => ?_)
  · extract_lets n
    exact h'.ite ((h'.sliceWrite _ _ _ _ _).ite ((h'.windowWrite _ _ _).ite h'))
  · refine .dite (fun hc => ?_) (fun hc => ?_)
    · extract_lets f
      split
      · exact (h'.pageWrite _ _ _ _).ite (h'.dbWrite _ _ _ _)
      · exact h'
    · refine .ite ((h'.mbxGo _).ite ((h'.setReg _ _).ite h')) ?_
      exact State.Canonical.dite (fun _ => h'.msixTableWrite _ _ _) (fun _ => (h'.kcWrite _ _ _).ite
        (State.Canonical.dite (fun _ => h'.progWrite _ _ _) (fun _ => h')))

theorem State.Canonical.busWrite {s : State} (h : s.Canonical) (x : Access) (a : Nat) (v : Word) {t : State}
    (ht : s.busWrite x a v = some t) :
    t.Canonical := by
  unfold State.busWrite at ht
  split at ht
  · cases ht
    exact h.regWrite _ _ _
  · cases ht

theorem State.Canonical.readEffect {s : State} (h : s.Canonical) (a : Nat) : (s.readEffect a).Canonical := by
  unfold State.readEffect
  refine .dite (fun hc => ?_) (fun hc => ?_)
  · exact h.captureRead _ _
  · refine .ite h.orphanPop ?_
    split
    · exact h.ite (h.setReg _ _)
    · exact h

theorem State.Canonical.regRead {s : State} (h : s.Canonical) (x : Access) (a : Nat) : (s.regRead x a).1.Canonical := by
  unfold State.regRead
  exact h.iteFst (h.readEffect _)

theorem State.Canonical.busRead {s : State} (h : s.Canonical) (x : Access) (a : Nat) {r : State × Word} (hr : s.busRead x a = some r) :
    r.1.Canonical := by
  unfold State.busRead at hr
  split at hr
  · cases hr
    exact h.regRead _ _
  · cases hr

theorem State.Canonical.write {s : State} (h : s.Canonical) (x : Access) (a : Nat) (v : Word) : (s.write x a v).Canonical := by
  unfold State.write
  refine .ite h ?_
  refine .ite (h.refuse _) ?_
  split
  · refine .ite (h.emit _) ?_
    refine .ite (h.fnErr _) ?_
    split
    next t e' =>
      have ht : t.Canonical := h.busWrite _ _ _ e'
      exact ht
    · exact h.refuse _
  · split
    next t e =>
      have ht : t.Canonical := h.busWrite _ _ _ e
      exact ht
    · exact h.refuse _

theorem State.Canonical.readOut {s : State} (h : s.Canonical) (m : Master) {r : Option (State × Word)}
    (hr : ∀ x, r = some x → x.1.Canonical) :
    (s.readOut m r).Canonical := by
  unfold State.readOut
  split
  · exact State.Canonical.elsewhere (hr _ rfl) (by rfl)
  · exact (h.refuse _).elsewhere (by rfl)

theorem State.Canonical.readRefused {s : State} (h : s.Canonical) (m : Master) : (s.readOut m none).Canonical :=
  (h.refuse m).elsewhere (by rfl)

theorem State.Canonical.read {s : State} (h : s.Canonical) (x : Access) (a : Nat) : (s.read x a).Canonical := by
  have hr := h.readOut x.m (fun _ e => h.busRead x a e)
  unfold State.read
  refine .ite h (.ite (h.readRefused _) ?_)
  split
  · exact .ite (h.emit _) hr
  · exact hr

theorem State.Canonical.hostCell {s : State} (h : s.Canonical) (a : Nat) (be : BitVec 4) (v : Word) : (s.hostCell a be v).Canonical :=
  h.ite ((h.rawWrite _ _).ite (((h.rd _).wr _ _ _).ite ((h.rd _).badAcc)))

theorem State.Canonical.hostPut {s : State} (h : s.Canonical) (f : Fin 16) (a : Nat) (be : BitVec 4) (v : Word) :
    (s.hostPut f a be v).Canonical :=
  h.ite ((h.hostRefuse _).ite ((h.fnErr _).ite ((h.hostRefuse _).ite (h.ite (h.hostCell _ _ _)))))

theorem State.Canonical.hostGet {s : State} (h : s.Canonical) (f : Fin 16) (a : Nat) : (s.hostGet f a).Canonical := by
  have hr := h.rawRead a
  unfold State.hostGet
  exact .ite h (.ite (h.readRefused _) (.ite (h.elsewhere (by rfl)) (hr.elsewhere (by rfl))))

theorem State.Canonical.hostFlash {s : State} (h : s.Canonical) (f : Fin 16) (a : Nat) : (s.hostFlash f a).Canonical := by
  unfold State.hostFlash
  refine .ite h (.ite (h.readRefused _) ?_)
  split
  next t _ e =>
    have ht : t.Canonical := State.Canonical.of_fst (h.flashGet _) e
    exact ht.elsewhere (by rfl)
  next t e =>
    have ht : t.Canonical := State.Canonical.of_fst (h.flashGet _) e
    exact ht.badAcc.elsewhere (by rfl)

theorem State.Canonical.writeAt {s : State} (h : s.Canonical) (x : Access) (a : Nat) (be : BitVec 4) (v : Word) :
    (s.writeAt x a be v).Canonical := by
  unfold State.writeAt
  split
  · exact (h.hostPut _ _ _ _).ite ((h.refuse _).ite (h.write _ _ _))
  · exact (h.refuse _).ite (h.write _ _ _)

theorem State.Canonical.readAt {s : State} (h : s.Canonical) (x : Access) (a : Nat) (be : BitVec 4) : (s.readAt x a be).Canonical := by
  unfold State.readAt
  split
  · exact .ite (h.hostGet _ _) (.ite (h.readRefused _) (.ite (h.hostFlash _ _) (h.read _ _)))
  · exact .ite (h.readRefused _) (h.read _ _)

theorem State.Canonical.keepWritten {t : State} (h : t.Canonical) (s : State) (a : Nat) (ev : Word) : (t.keepWritten s a ev).Canonical :=
  h.ite (h.setReg _ _)

theorem State.Canonical.keepRead {t : State} (h : t.Canonical) (s : State) (a : Nat) (ev : Word) : (t.keepRead s a ev).Canonical :=
  h.ite ((h.setReg _ _).elsewhere (by rfl))

/-! Commands on memory. -/

theorem State.Canonical.armWrite {s : State} (h : s.Canonical) (x : Access) (w : ArmBy) (arm : Bool) (off : BitVec 12) :
    (s.armWrite x w arm off).Canonical := by
  unfold State.armWrite
  split
  · exact h.write _ _ _
  · exact h.write _ _ _

theorem State.Canonical.wdgRestartWrite {s : State} (h : s.Canonical) (x : Access) (e : Fin 13) (coll : Bool) :
    (s.wdgRestartWrite x e coll).Canonical := by
  unfold State.wdgRestartWrite
  extract_lets up
  exact (h.wdgSvc _ _ _ _).ite (h.write _ _ _)

theorem State.Canonical.tracePost {s : State} (h : s.Canonical) (x : Access) (e : Fin 13) (p : Fin 24) (c : Cell) :
    (s.tracePost x e p c).Canonical := by
  unfold State.tracePost
  split
  · exact h.ite ((h.refuse _).ite (h.ite (h.postStore _ _ _)))
  · exact h.ite ((h.refuse _).ite (h.ite (h.postStore _ _ _)))
  · exact h.write _ _ _

/-! Operands of a pair. -/

theorem State.Canonical.check {α : Type} {s : State} (h : s.Canonical) (code : Option Nat) (ea : Nat) {k : Kr α} (hk : k.Canonical) :
    (Machine.check s code ea k).Canonical := by
  cases code with
  | none => exact hk
  | some c => exact h

theorem State.Canonical.need {α : Type} {s : State} (h : s.Canonical) (b : Bool) (code ea : Nat) {k : Kr α} (hk : k.Canonical) :
    (Machine.need s b code ea k).Canonical :=
  hk.ite (Kr.Canonical.fault h _ _)

theorem State.Canonical.setKr {s : State} (h : s.Canonical) (p : Fin 13) (r : CoreRegs) : (s.setKr p r).Canonical :=
  h.setCore _ _

theorem State.Canonical.setActive {s : State} (h : s.Canonical) (p : Fin 13) (k : Nat) : (s.setActive p k).Canonical :=
  (h.setF _ _ _).setF _ _ _

theorem State.Canonical.refusedAt {s : State} (h : s.Canonical) (code ea : Nat) (wr : Bool) : (s.refusedAt code ea wr).Canonical :=
  h.badAcc.ite h

theorem State.Canonical.guardEa {α : Type} {s : State} (h : s.Canonical) (code : Option Nat) (ea : Nat) (wr : Bool) {k : Kr α}
    (hk : k.Canonical) :
    (Machine.guardEa s code ea wr k).Canonical := by
  cases code with
  | none => exact hk
  | some c => exact h.refusedAt _ _ _

theorem State.Canonical.guardSpan {α : Type} {s : State} (h : s.Canonical) (bar : Option (Nat × Nat)) (wr : Bool) {k : Kr α}
    (hk : k.Canonical) :
    (Machine.guardSpan s bar wr k).Canonical := by
  unfold Machine.guardSpan
  split
  · exact hk
  · exact h.guardEa _ _ _ hk

theorem State.Canonical.pairCell {s : State} (h : s.Canonical) (p : Fin 13) (a : Nat) : (s.pairCell p a).Canonical := by
  unfold State.pairCell
  extract_lets r
  have hr : r.st.Canonical := h.rd _
  refine .ite (Kr.Canonical.ok hr _) ?_
  exact Kr.Canonical.dite (fun _ => (Kr.Canonical.ok hr _).ite (Kr.Canonical.stall (hr.recoverable _ _))) (fun _ => Kr.Canonical.ok hr _)

theorem State.Canonical.logged {s : State} (h : s.Canonical) (p : Fin 13) (i : LogItem) : (s.logged p i).Canonical :=
  h.setCore _ _

theorem State.Canonical.pairReg {s : State} (h : s.Canonical) (a : Nat) {r : Option (State × Word)} (hr : ∀ x, r = some x → x.1.Canonical) :
    (State.pairRead.regCell s a r).Canonical := by
  unfold State.pairRead.regCell
  split
  · exact hr _ rfl
  · exact h

theorem State.Canonical.pairRead {s : State} (h : s.Canonical) (p : Fin 13) (x : Access) (a : Nat) : (s.pairRead p x a).Canonical := by
  unfold State.pairRead
  have hreg := h.pairReg a (fun _ e => h.busRead x a e)
  refine .ite h (Kr.Canonical.andThen ?_ (fun _ _ hu => hu.logged _ _))
  split
  · exact hreg
  · exact hreg
  · exact h
  · exact h.flashGet _
  · exact h.flashGet _
  · exact h.badAcc
  · exact .ite h (h.pairCell _ _)

theorem State.Canonical.pairWrite {s : State} (h : s.Canonical) (p : Fin 13) (x : Access) (a : Nat) (c : Cell) :
    (s.pairWrite p x a c).Canonical := by
  unfold State.pairWrite
  refine .ite (Kr.Canonical.stall h) ?_
  extract_lets s1
  have h1 : s1.Canonical := h.logged _ _
  refine .ite ((Kr.Canonical.ok h1 _).ite (Kr.Canonical.ok (h1.wr _ _ _) _)) ?_
  split
  · exact (Kr.Canonical.ok h1 _).ite (Kr.Canonical.ok (h1.postStore _ _ _) _)
  · split
    next t e' =>
      have ht : t.Canonical := h1.busWrite _ _ _ e'
      exact Kr.Canonical.ok ht _
    · exact Kr.Canonical.fault h1 _ _

theorem State.Canonical.setSb {s : State} (h : s.Canonical) (p : Fin 13) (b : List SbEntry) : (s.setSb p b).Canonical :=
  h.setKr _ _

theorem State.Canonical.drainNarrow {s : State} (h : s.Canonical) (p : Fin 13) (a k v : Nat) : (s.drainNarrow p a k v).Canonical := by
  unfold State.drainNarrow
  refine .ite h ?_
  split
  next t _ e =>
    have ht : t.Canonical := Kr.Canonical.of_eq (h.pairCell _ _) e
    exact (ht.wr _ _ _).ite ht
  next t _ _ e =>
    have ht : t.Canonical := Kr.Canonical.of_eq (h.pairCell _ _) e
    exact ht
  next t e =>
    have ht : t.Canonical := Kr.Canonical.of_eq (h.pairCell _ _) e
    exact ht

theorem State.Canonical.storeDrain {s : State} (h : s.Canonical) (p : Fin 13) : (s.storeDrain p).Canonical := by
  unfold State.storeDrain
  split
  · exact h
  · refine .ite h ?_
    extract_lets s1
    have h1 : s1.Canonical := h.setSb _ _
    split
    · exact h1.ite (h1.wr _ _ _)
    · exact h1.drainNarrow _ _ _ _
    · exact h1.drainNarrow _ _ _ _

theorem State.Canonical.drainWhile {s : State} (h : s.Canonical) (p : Fin 13) (more : List SbEntry → Bool) (k : Nat) :
    (s.drainWhile p more k).Canonical := by
  induction k generalizing s with
  | zero => exact h
  | succ k ih =>
    unfold State.drainWhile
    exact (ih (h.storeDrain _)).ite h

theorem State.Canonical.drainSpan {s : State} (h : s.Canonical) (p : Fin 13) (a len : Nat) : (s.drainSpan p a len).Canonical := by
  unfold State.drainSpan
  extract_lets hit t
  have ht : t.Canonical := h.drainWhile _ _ _
  exact (Kr.Canonical.stall ht).ite (Kr.Canonical.ok ht _)

theorem State.Canonical.pairFetch {s : State} (h : s.Canonical) (p : Fin 13) (x : Access) (a : Nat) : (s.pairFetch p x a).Canonical :=
  (h.pairRead _ _ _).andThen (fun _ _ h1 => Kr.Canonical.ok h1 _)

theorem State.Canonical.pairLoad {s : State} (h : s.Canonical) (p : Fin 13) (x : Access) (a : Nat) : (s.pairLoad p x a).Canonical := by
  unfold State.pairLoad
  split
  · exact Kr.Canonical.ok h _
  · exact (h.drainSpan _ _ _).andThen (fun _ _ h1 => h1.pairFetch _ _ _)

theorem State.Canonical.pairStore {s : State} (h : s.Canonical) (p : Fin 13) (e : SbEntry) : (s.pairStore p e).Canonical := by
  unfold State.pairStore
  extract_lets t
  have ht : t.Canonical := h.ite (h.storeDrain _)
  exact (Kr.Canonical.ok ((ht.setSb _ _).logged _ _) _).ite (Kr.Canonical.stall ht)

theorem State.Canonical.watch {s : State} (h : s.Canonical) (p : Fin 13) (a len : Nat) (wr : Bool) (v : Word) :
    (s.watch p a len wr v).Canonical :=
  State.Canonical.dite (fun _ => h.noteAccess _ _ _ _ _) (fun _ => h)

theorem State.Canonical.loadAny {s : State} (h : s.Canonical) (p : Fin 13) (q : Quad) (ea : Nat) (perms : List Nat) :
    (s.loadAny p q ea perms).Canonical := by
  unfold State.loadAny
  extract_lets x
  exact h.guardEa _ _ _ (h.guardEa _ _ _ (h.pairLoad _ _ _))

theorem State.Canonical.loadOp {s : State} (h : s.Canonical) (p : Fin 13) (q : Quad) (ea : Nat) : (s.loadOp p q ea).Canonical :=
  (h.loadAny _ _ _ _).andThen (fun _ _ h1 => h1.check _ _ (Kr.Canonical.ok (h1.watch _ _ _ _ _) _))

theorem State.Canonical.loadReg {s : State} (h : s.Canonical) (p : Fin 13) (q : Quad) (ea : Nat) : (s.loadReg p q ea).Canonical :=
  (h.loadAny _ _ _ _).andThen (fun _ _ h1 => h1.check _ _ (Kr.Canonical.ok (h1.watch _ _ _ _ _) _))

theorem State.Canonical.storeOp {s : State} (h : s.Canonical) (p : Fin 13) (q : Quad) (ea : Nat) (c : Cell) :
    (s.storeOp p q ea c).Canonical :=
  h.guardEa _ _ _ (((h.pairStore _ _).ite (h.pairWrite _ _ _ _)).andThen (fun _ _ h1 => Kr.Canonical.ok (h1.watch _ _ _ _ _) _))

theorem State.Canonical.storeNow {s : State} (h : s.Canonical) (p : Fin 13) (q : Quad) (ea : Nat) (c : Cell) :
    (s.storeNow p q ea c).Canonical :=
  h.guardEa _ _ _ ((h.drainSpan _ _ _).andThen (fun _ _ h1 => (h1.pairWrite _ _ _ _).andThen
    (fun _ _ h2 => Kr.Canonical.ok (h2.watch _ _ _ _ _) _)))

theorem State.Canonical.putCells {s : State} (h : s.Canonical) (p : Fin 13) (x : Access) (a : Nat) (l : List Cell) :
    (s.putCells p x a l).Canonical := by
  induction l generalizing s a with
  | nil => exact h
  | cons c l ih =>
    unfold State.putCells
    exact (h.pairWrite _ _ _ _).andThen (fun _ _ hu => ih hu _)

theorem State.Canonical.writeCells {s : State} (h : s.Canonical) (p : Fin 13) (x : Access) (a : Nat) (cs : List Cell) :
    (s.writeCells p x a cs).Canonical :=
  h.guardSpan _ _ (h.putCells _ _ _ _)

theorem State.Canonical.getCells {s : State} (h : s.Canonical) (p : Fin 13) (x : Access) (a : Nat) (k : Nat) :
    (s.getCells p x a k).Canonical := by
  induction k generalizing s a with
  | zero => exact h
  | succ k ih =>
    unfold State.getCells
    exact (h.pairLoad _ _ _).andThen (fun _ _ ht => (ih ht _).andThen (fun _ _ hu => Kr.Canonical.ok hu _))

theorem State.Canonical.readCells {s : State} (h : s.Canonical) (p : Fin 13) (x : Access) (a k : Nat) : (s.readCells p x a k).Canonical :=
  h.guardSpan _ _ (h.getCells _ _ _ _)

theorem State.Canonical.Kr.undoing {α : Type} {r : Kr α} (hr : r.Canonical) {s : State} (h : s.Canonical) (a k : Nat) :
    (r.undoing s a k).Canonical := by
  cases r with
  | ok t v => exact hr
  | fault t c e => exact h.ite hr
  | stall t => exact hr

theorem State.Canonical.fetchLost {s : State} (h : s.Canonical) (p : Fin 13) : (s.fetchLost p).Canonical := by
  unfold State.fetchLost
  extract_lets s1
  have h1 : s1.Canonical := ((h.setReg _ _).fresh).setF _ _ _
  exact State.Canonical.dite (fun _ => ((h1.count _ _).fireLocal _ _).enterSafe _ _) (fun _ => ((h1.count _ _).fire _).sysHalt)

theorem State.Canonical.emptyLoop {s : State} (h : s.Canonical) (p : Fin 13) : (s.emptyLoop p).Canonical :=
  h.setCore _ _

theorem State.Canonical.serialise {s : State} (h : s.Canonical) (p : Fin 13) : (s.serialise p).Canonical :=
  h.setCore _ _

theorem State.Canonical.bufferWord {s : State} (h : s.Canonical) (p : Fin 13) (a : Nat) (w : PWord) : (s.bufferWord p a w).Canonical := by
  unfold State.bufferWord
  extract_lets c
  exact (h.setCore _ _).ite h

theorem State.Canonical.queueGroup {s : State} (h : s.Canonical) (p : Fin 13) (a : Nat) : (s.queueGroup p a).Canonical :=
  h.setCore _ _

theorem State.Canonical.fetchWord {s : State} (h : s.Canonical) (p : Fin 13) : (s.fetchWord p).Canonical := by
  unfold State.fetchWord
  extract_lets c a
  refine h.check _ _ ?_
  split
  · exact Kr.Canonical.ok h _
  · exact (Kr.Canonical.stall (h.fetchLost _)).ite (Kr.Canonical.ok ((h.queueGroup _ _).bufferWord _ _ _) _)

/-! Interrupts and fault entry. -/

theorem State.Canonical.pushRet {s : State} (h : s.Canonical) (p : Fin 13) (k : Nat) (cs : List Cell) : (s.pushRet p k cs).Canonical := by
  unfold State.pushRet
  extract_lets r q sp n
  exact h.guardEa _ _ _ ((h.drainSpan _ _ _).andThen (fun _ _ h1 => (h1.writeCells _ _ _ _).andThen
    (fun _ _ h2 => Kr.Canonical.ok (h2.setKr _ _) _)))

theorem State.Canonical.topRet {s : State} (h : s.Canonical) (p : Fin 13) (k : Nat) : (s.topRet p k).Canonical := by
  unfold State.topRet
  extract_lets r q sp bad
  exact h.guardEa _ _ _ (h.readCells _ _ _ _)

theorem State.Canonical.undoTop {α : Type} {s : State} (h : s.Canonical) (p : Fin 13) (k : Nat) {r : Kr α} (hr : r.Canonical) :
    (s.undoTop p k r).Canonical :=
  State.Canonical.Kr.undoing hr h _ _

theorem State.Canonical.dropRet {s : State} (h : s.Canonical) (p : Fin 13) (k : Nat) : (s.dropRet p k).Canonical := by
  unfold State.dropRet
  extract_lets r a old
  exact h.setKr _ _

theorem State.Canonical.setDsp {s : State} (h : s.Canonical) (p : Fin 13) (k : Nat) (v : Nat) : (s.setDsp p k v).Canonical := by
  unfold State.setDsp
  extract_lets r old
  exact h.setKr _ _

theorem State.Canonical.target {s : State} (h : s.Canonical) (p : Fin 13) (t : Int) {k : Kr Flow} (hk : k.Canonical) :
    (s.target p t k).Canonical := by
  unfold State.target
  split
  · exact Kr.Canonical.fault h _ _
  · exact (Kr.Canonical.fault h _ _).ite hk

theorem State.Canonical.doCall {s : State} (h : s.Canonical) (p : Fin 13) (t : Int) : (s.doCall p t).Canonical :=
  h.target _ _ ((h.pushRet _ _ _).andThen (fun _ _ h1 => Kr.Canonical.ok h1 _))

theorem State.Canonical.doRet {s : State} (h : s.Canonical) (p : Fin 13) : (s.doRet p).Canonical :=
  h.undoTop _ _ ((h.topRet _ _).andThen (fun _ _ h1 => h1.need _ _ _ (Kr.Canonical.ok (h1.dropRet _ _) _)))

theorem State.Canonical.setLink {s : State} (h : s.Canonical) (p : Fin 13) (l : List (Nat × Nat)) : (s.setLink p l).Canonical :=
  (h.setKr _ _).setF _ _ _

theorem State.Canonical.spill {s : State} (h : s.Canonical) (p : Fin 13) : (s.spill p).Canonical := by
  unfold State.spill
  extract_lets l
  split
  · exact (h.pushRet _ _ _).andThen (fun _ _ h1 => Kr.Canonical.ok ((h1.setLink _ _).count _ _) _)
  · exact Kr.Canonical.ok h _

theorem State.Canonical.doFcall {s : State} (h : s.Canonical) (p : Fin 13) (k : Nat) : (s.doFcall p k).Canonical := by
  unfold State.doFcall
  extract_lets a
  exact h.need _ _ _ (h.need _ _ _ ((h.spill _).andThen (fun _ _ h1 => Kr.Canonical.ok ((h1.setLink _ _).setActive _ _) _)))

theorem State.Canonical.doFret {s : State} (h : s.Canonical) (p : Fin 13) : (s.doFret p).Canonical := by
  unfold State.doFret
  split
  · exact Kr.Canonical.ok ((h.setLink _ _).setActive _ _) _
  · exact h.undoTop _ _ ((h.topRet _ _).andThen (fun _ _ h1 => h1.need _ _ _ (Kr.Canonical.ok ((h1.dropRet _ _).setActive _ _) _)))

theorem State.Canonical.stackArgs {s : State} (h : s.Canonical) (p : Fin 13) (n : Nat) : (s.stackArgs p n).Canonical :=
  (Kr.Canonical.ok h _).ite (h.guardEa _ _ _ (h.readCells _ _ _ _))

theorem State.Canonical.gateEnter {s : State} (h : s.Canonical) (p : Fin 13) (k argc entry : Nat) (stacked : List Cell) :
    (s.gateEnter p k argc entry stacked).Canonical := by
  unfold State.gateEnter
  extract_lets caller r n dsp q frame
  exact (h.drainSpan _ _ _).andThen (fun _ _ h1 => (h1.writeCells _ _ _ _).andThen
    (fun _ _ h2 => ((h2.setDsp _ _ _).pushRet _ _ _).andThen (fun _ _ h3 => Kr.Canonical.ok (((h3.setDsp _ _ _).setKr _ _).setActive _ _)
      _)))

theorem State.Canonical.gateCall {s : State} (h : s.Canonical) (p : Fin 13) (at_ : Nat) (ds : List Cell) :
    (s.gateCall p at_ ds).Canonical := by
  unfold State.gateCall
  extract_lets d0 d1 d2 w k argc shape sp
  refine h.need _ _ _ (State.Canonical.Kr.undoing ((h.stackArgs _ _).andThen (fun t st h1 => ?_)) h _ _)
  split
  · exact Kr.Canonical.fault h1 _ _
  · split
    · exact Kr.Canonical.fault h1 _ _
    · exact h1.gateEnter _ _ _ _ _

theorem State.Canonical.doGate {s : State} (h : s.Canonical) (p : Fin 13) (n : Nat) : (s.doGate p n).Canonical := by
  unfold State.doGate
  extract_lets g x ea
  exact h.guardEa _ _ _ (State.Canonical.Kr.undoing ((h.readCells _ _ _ _).andThen (fun _ _ h1 => h1.gateCall _ _ _)) h _ _)

theorem State.Canonical.doGret {s : State} (h : s.Canonical) (p : Fin 13) : (s.doGret p).Canonical :=
  h.undoTop _ _ ((h.topRet _ _).andThen (fun _ _ h1 => h1.need _ _ _ ((h1.topRet _ _).andThen
    (fun _ _ h2 => h2.need _ _ _ (Kr.Canonical.ok (((h2.dropRet _ _).setDsp _ _ _).setActive _ _) _)))))

theorem State.Canonical.emergencyFault {s : State} (h : s.Canonical) (p : Fin 13) : (s.emergencyFault p).Canonical :=
  State.Canonical.dite (fun _ => ((h.haltPair _).fireLocal _ _).enterSafe _ _) (fun _ => h.sysHalt)

theorem State.Canonical.atVector {s : State} (h : s.Canonical) (p : Fin 13) (v : Nat) : (s.atVector p v).Canonical := by
  unfold State.atVector
  extract_lets c pc old
  exact (h.setCore _ _).count _ _

theorem State.Canonical.noteFault {s : State} (h : s.Canonical) (p : Fin 13) (code cause2 ea set pc : Nat) (ds shadow : Bool) :
    (s.noteFault p code cause2 ea set pc ds shadow).Canonical := by
  unfold State.noteFault
  extract_lets a s1
  have h1 : s1.Canonical := ((h.setF _ _ _).setF _ _ _).setF _ _ _
  exact (h1.setReg _ _).setReg _ _

theorem State.Canonical.frameCellsAt {s : State} (h : s.Canonical) (p : Fin 13) (x : Access) (a : Nat) (l : List Cell) {t : State}
    (ht : s.frameCellsAt p x a l = some t) :
    t.Canonical := by
  induction l generalizing s a with
  | nil =>
    cases ht
    exact h
  | cons c l ih =>
    have hw : (if (s.pairBars p x a true c.v).isSome then Kr.ok s () else s.pairWrite p x a c).Canonical := .ite h (h.pairWrite p x a c)
    unfold State.frameCellsAt at ht
    split at ht
    next u _ e => exact ih (Kr.Canonical.of_eq hw e) _ ht
    next u _ _ e => exact ih (Kr.Canonical.of_eq hw e) _ ht
    · cases ht

theorem State.Canonical.frameWrite {s : State} (h : s.Canonical) (p : Fin 13) (q : Quad) (a : Nat) (cs : List Cell)
    (next : State → State) (hnext : ∀ u, u.Canonical → (next u).Canonical) :
    (s.frameWrite p q a cs next).Canonical := by
  unfold State.frameWrite
  split
  next t e =>
    have ht : t.Canonical := h.frameCellsAt _ _ _ _ e
    exact hnext _ ht
  · exact h

theorem State.Canonical.enterEmergency {s : State} (h : s.Canonical) (p : Fin 13) (code ea : Nat) :
    (s.enterEmergency p code ea).Canonical := by
  unfold State.enterEmergency
  extract_lets c set ds sh st
  refine .ite (h.emergencyFault _) ?_
  exact h.frameWrite _ _ _ _ _ (fun _ h1 => ((((h1.setActive _ _).setKr _ _).setF _ _ _).noteFault _ _ _ _ _ _ _ _).atVector _ _)

theorem State.Canonical.enterFrame {s : State} (h : s.Canonical) (p : Fin 13) (code ea : Nat) (int : Option (Nat × Nat)) :
    (s.enterFrame p code ea int).Canonical := by
  unfold State.enterFrame
  extract_lets c set hs ds sh src st q sp
  refine h.frameWrite _ _ _ _ _ (fun t h1 => ?_)
  extract_lets s1 r old s2
  have h1' : s1.Canonical := h1.setActive _ _
  have h2 : s2.Canonical := h1'.setKr _ _
  split
  · exact (((h2.deliver _).setF _ _ _).atVector _ _).logged _ _
  · exact (h2.noteFault _ _ _ _ _ _ _ _).atVector _ _

theorem State.Canonical.faultEntry {s : State} (h : s.Canonical) (p : Fin 13) (code ea : Nat) : (s.faultEntry p code ea).Canonical := by
  unfold State.faultEntry
  extract_lets c
  exact h.ite ((h.enterEmergency _ _ _).ite (h.enterFrame _ _ _ _))

theorem State.Canonical.interruptEntry {s : State} (h : s.Canonical) (p : Fin 13) (r : Nat) : (s.interruptEntry p r).Canonical := by
  unfold State.interruptEntry
  extract_lets c
  exact (h.enterEmergency _ _ _).ite (h.enterFrame _ _ _ _)

theorem State.Canonical.restore {s : State} (h : s.Canonical) (p : Fin 13) (f : List Cell) : (s.restore p f).Canonical := by
  unfold State.restore
  extract_lets st a w3 w7 lend old r s1 n s2
  have h1 : s1.Canonical := ((h.setKr _ _).setF _ _ _).setActive _ _
  have h2 : s2.Canonical := h1.setF _ _ _
  refine .ite ?_ h2
  split
  · exact h2.complete _
  · exact h2

theorem State.Canonical.chain {s : State} (h : s.Canonical) (p : Fin 13) (r : Nat) : (s.chain p r).Canonical := by
  unfold State.chain
  extract_lets prio s1 c old
  have h1 : s1.Canonical := ((h.deliver _).setActive _ _).setF _ _ _
  exact (h1.setCore _ _).logged _ _

theorem State.Canonical.rfeEmergency {s : State} (h : s.Canonical) (p : Fin 13) : (s.rfeEmergency p).Canonical := by
  unfold State.rfeEmergency
  extract_lets k
  exact (h.readCells _ _ _ _).andThen (fun _ _ h1 => h1.need _ _ _ (Kr.Canonical.ok
    ((((h1.restore _ _).setKr _ _).setF _ _ _).ite ((h1.restore _ _).setKr _ _)) _))

theorem State.Canonical.doRfe {s : State} (h : s.Canonical) (p : Fin 13) : (s.doRfe p).Canonical := by
  unfold State.doRfe
  refine .ite (h.rfeEmergency _) ?_
  split
  · exact Kr.Canonical.ok (h.chain _ _) _
  · exact h.undoTop _ _ ((h.topRet _ _).andThen (fun _ _ h1 => h1.need _ _ _
      ((h1.topRet _ _).andThen (fun _ _ h2 => Kr.Canonical.ok ((h2.dropRet _ _).restore _ _) _))))

/-! Memory access of a pair. -/

theorem State.Canonical.setA {s : State} (h : s.Canonical) (p : Fin 13) (a : BitVec 40) (t : BitVec 4) : (s.setA p a t).Canonical :=
  h.setKr _ _

theorem State.Canonical.setX {s : State} (h : s.Canonical) (p : Fin 13) (c : Cell) : (s.setX p c).Canonical :=
  h.setKr _ _

theorem State.Canonical.setY {s : State} (h : s.Canonical) (p : Fin 13) (c : Cell) : (s.setY p c).Canonical :=
  h.setKr _ _

theorem State.Canonical.loadA {s : State} (h : s.Canonical) (p : Fin 13) (c : Cell) : (s.loadA p c).Canonical :=
  h.setA _ _ _

theorem State.Canonical.aResult {s : State} (h : s.Canonical) (p : Fin 13) (r : ARes) (ea : Nat) : (s.aResult p r ea).Canonical := by
  unfold State.aResult
  split
  · exact Kr.Canonical.fault h _ _
  · exact Kr.Canonical.ok (h.setA _ _ _) _
  · exact Kr.Canonical.ok (h.fresh.fresh.setA _ _ _) _

theorem State.Canonical.withEa {s : State} (h : s.Canonical) (p : Fin 13) (i : Kn) (k : Quad → Nat → Kr Flow)
    (hk : ∀ u v, (k u v).Canonical) :
    (s.withEa p i k).Canonical := by
  unfold State.withEa
  split
  · exact Kr.Canonical.fault h _ _
  · exact hk _ _

theorem State.Canonical.reserve {s : State} (h : s.Canonical) (p : Fin 13) (ea : Nat) : (s.reserve p ea).Canonical := by
  unfold State.reserve
  extract_lets c
  split
  · exact (h.setCore _ _).ite h
  · exact h

theorem State.Canonical.doLoad {s : State} (h : s.Canonical) (p : Fin 13) (i : Kn) (put : State → Cell → State)
    (hput : ∀ u v, u.Canonical → (put u v).Canonical) :
    (s.doLoad p i put).Canonical :=
  h.withEa _ _ _ (fun _ _ => (h.loadReg _ _ _).andThen (fun _ _ h1 => Kr.Canonical.ok ((hput _ _ h1).reserve _ _) _))

theorem State.Canonical.doStore {s : State} (h : s.Canonical) (p : Fin 13) (i : Kn) (c : Cell) : (s.doStore p i c).Canonical :=
  h.need _ _ _ (h.withEa _ _ _ (fun _ _ => (h.storeOp _ _ _ _).andThen (fun _ _ h1 => Kr.Canonical.ok h1 _)))

theorem State.Canonical.doArith {s : State} (h : s.Canonical) (p : Fin 13) (i : Kn) (f : CoreRegs → Cell → ARes) :
    (s.doArith p i f).Canonical :=
  h.need _ _ _ (h.withEa _ _ _ (fun _ _ => (h.loadOp _ _ _).andThen (fun _ _ h1 => h1.aResult _ _ _)))

theorem State.Canonical.doMacx {s : State} (h : s.Canonical) (p : Fin 13) (i : Kn) : (s.doMacx p i).Canonical :=
  h.need _ _ _ (h.doArith _ _ _)

theorem State.Canonical.doXch {s : State} (h : s.Canonical) (p : Fin 13) (i : Kn) : (s.doXch p i).Canonical := by
  unfold State.doXch
  extract_lets a
  exact h.need _ _ _ (h.withEa _ _ _ (fun _ _ => h.guardEa _ _ _ (h.guardEa _ _ _
    ((h.drainSpan _ _ _).andThen (fun _ _ h1 => (h1.pairRead _ _ _).andThen
      (fun _ _ h2 => h2.check _ _ (h2.check _ _ ((h2.pairWrite _ _ _ _).andThen
        (fun _ _ h3 => Kr.Canonical.ok (((h3.watch _ _ _ _ _).watch _ _ _ _ _).loadA _ _) _)))))))))

theorem State.Canonical.doMem {s : State} (h : s.Canonical) (p : Fin 13) (i : Kn) : (s.doMem p i).Canonical := by
  unfold State.doMem
  extract_lets r
  split
  · exact h.doLoad _ _ _ (fun _ _ h1 => h1.loadA _ _)
  · exact h.doStore _ _ _
  · exact h.doArith _ _ _
  · exact h.doArith _ _ _
  · exact h.doArith _ _ _
  · exact h.doArith _ _ _
  · exact h.doArith _ _ _
  · exact h.doMacx _ _
  · exact h.doArith _ _ _
  · exact h.doArith _ _ _
  · exact h.doArith _ _ _
  · exact h.doLoad _ _ _ (fun _ _ h1 => h1.setX _ _)
  · exact h.doStore _ _ _
  · exact h.doLoad _ _ _ (fun _ _ h1 => h1.setY _ _)
  · exact h.doStore _ _ _
  · exact h.doXch _ _

theorem State.Canonical.doLegacy {s : State} (h : s.Canonical) (p : Fin 13) (i : Kn) : (s.doLegacy p i).Canonical := by
  unfold State.doLegacy
  split
  · exact Kr.Canonical.fault h _ _
  · exact Kr.Canonical.ok h _
  · exact (Kr.Canonical.ok h _).ite (h.doMem _ _)

theorem State.Canonical.doPush {s : State} (h : s.Canonical) (p : Fin 13) (c : Cell) : (s.doPush p c).Canonical := by
  unfold State.doPush
  extract_lets d
  exact h.need _ _ _ (h.need _ _ _ ((h.storeOp _ _ _ _).andThen (fun _ _ h1 => Kr.Canonical.ok (h1.setDsp _ _ _) _)))

theorem State.Canonical.doPop {s : State} (h : s.Canonical) (p : Fin 13) (put : State → Cell → State)
    (hput : ∀ u v, u.Canonical → (put u v).Canonical) :
    (s.doPop p put).Canonical := by
  unfold State.doPop
  extract_lets d
  exact (h.loadReg _ _ _).andThen (fun _ _ h1 => Kr.Canonical.ok (hput _ _ (h1.setDsp _ _ _)) _)

theorem State.Canonical.endLock {s : State} (h : s.Canonical) (p : Fin 13) : (s.endLock p).Canonical :=
  h.setCore _ _

theorem State.Canonical.doSc {s : State} (h : s.Canonical) (p : Fin 13) (i : Kn) : (s.doSc p i).Canonical := by
  unfold State.doSc
  extract_lets a
  exact h.need _ _ _ (h.withEa _ _ _ (fun _ _ => h.guardEa _ _ _ (((h.storeNow _ _ _ _).andThen
    (fun _ _ h1 => Kr.Canonical.ok ((h1.endLock _).setX _ _) _)).ite ((h.drainSpan _ _ _).andThen
      (fun _ _ h1 => Kr.Canonical.ok ((h1.endLock _).setX _ _) _)))))

theorem State.Canonical.doLdNarrow {s : State} (h : s.Canonical) (p : Fin 13) (i : Kn) (k : Nat) : (s.doLdNarrow p i k).Canonical := by
  unfold State.doLdNarrow
  split
  · exact Kr.Canonical.fault h _ _
  · extract_lets q'
    exact h.guardEa _ _ _ ((h.drainSpan _ _ _).andThen (fun _ _ h1 => (h1.pairFetch _ _ _).andThen
      (fun _ _ h2 => (Kr.Canonical.ok ((h2.watch _ _ _ _ _).loadA _ _) _).ite
        ((Kr.Canonical.fault h2 _ _).ite (h2.need _ _ _ (Kr.Canonical.ok ((h2.watch _ _ _ _ _).setA _ _ _) _))))))

theorem State.Canonical.doStNarrow {s : State} (h : s.Canonical) (p : Fin 13) (i : Kn) (k : Nat) : (s.doStNarrow p i k).Canonical := by
  unfold State.doStNarrow
  extract_lets r q
  split
  · exact Kr.Canonical.fault h _ _
  · extract_lets e'
    exact h.need _ _ _ (h.guardEa _ _ _ (h.check _ _ ((h.pairStore _ _).andThen (fun _ _ h1 => Kr.Canonical.ok (h1.watch _ _ _ _ _) _))))

theorem State.Canonical.lduSplit {s : State} (h : s.Canonical) (p : Fin 13) (q : Quad) (ea : Nat) : (s.lduSplit p q ea).Canonical := by
  unfold State.lduSplit
  extract_lets x a sh
  exact (h.drainSpan _ _ _).andThen (fun _ _ h1 => (h1.pairFetch _ _ _).andThen
    (fun _ _ h2 => (h2.pairFetch _ _ _).andThen (fun _ _ h3 => (Kr.Canonical.ok ((h3.watch _ _ _ _ _).loadA _ _) _).ite
      (h3.check _ _ (Kr.Canonical.ok ((h3.watch _ _ _ _ _).loadA _ _) _)))))

theorem State.Canonical.lduChecked {s : State} (h : s.Canonical) (p : Fin 13) (q : Quad) (ea : Nat) : (s.lduChecked p q ea).Canonical := by
  unfold State.lduChecked
  split
  · exact h.lduSplit _ _ _
  · exact Kr.Canonical.fault (h.refusedAt _ _ _) _ _

theorem State.Canonical.doLdu {s : State} (h : s.Canonical) (p : Fin 13) (i : Kn) : (s.doLdu p i).Canonical := by
  unfold State.doLdu
  split
  · exact Kr.Canonical.fault h _ _
  · extract_lets q'
    exact .ite ((h.loadReg _ _ _).andThen (fun _ _ h1 => Kr.Canonical.ok ((h1.loadA _ _).reserve _ _) _)) (h.lduChecked _ _ _)

/-! Calls, gates and control of a pair. -/

theorem State.Canonical.move {s : State} (h : s.Canonical) (t : BitVec 4) {u : State} (hu : u.Canonical) : (s.move t u).Canonical :=
  h.need _ _ _ (Kr.Canonical.ok hu _)

theorem State.Canonical.doSwxy {s : State} (h : s.Canonical) (p : Fin 13) : (s.doSwxy p).Canonical := by
  unfold State.doSwxy
  extract_lets r
  exact h.need _ _ _ (Kr.Canonical.ok (h.setKr _ _) _)

theorem State.Canonical.newDsp {s : State} (h : s.Canonical) (p : Fin 13) (v : Int) : (s.newDsp p v).Canonical := by
  unfold State.newDsp
  extract_lets q
  exact h.check _ _ (h.need _ _ _ (Kr.Canonical.ok (h.setDsp _ _ _) _))

theorem State.Canonical.doWdsp {s : State} (h : s.Canonical) (p : Fin 13) : (s.doWdsp p).Canonical := by
  unfold State.doWdsp
  extract_lets x
  exact h.need _ _ _ (h.newDsp _ _)

theorem State.Canonical.doWpg {s : State} (h : s.Canonical) (p : Fin 13) : (s.doWpg p).Canonical := by
  unfold State.doWpg
  extract_lets r
  exact h.need _ _ _ (h.need _ _ _ (Kr.Canonical.ok (h.setKr _ _) _))

theorem State.Canonical.putReg {s : State} (h : s.Canonical) (p : Fin 13) (k : Nat) (c : Cell) : (s.putReg p k c).Canonical := by
  unfold State.putReg
  split
  · exact h.loadA _ _
  · exact h.setX _ _
  · exact h.setY _ _

theorem State.Canonical.doRetag {s : State} (h : s.Canonical) (p : Fin 13) (i : Kn) : (s.doRetag p i).Canonical := by
  unfold State.doRetag
  extract_lets c t
  exact h.need _ _ _ (h.check _ _ (Kr.Canonical.ok (h.putReg _ _ _) _))

theorem State.Canonical.doLea {s : State} (h : s.Canonical) (p : Fin 13) (i : Kn) : (s.doLea p i).Canonical :=
  h.withEa _ _ _ (fun _ _ => h.check _ _ (h.need _ _ _ (Kr.Canonical.ok (h.loadA _ _) _)))

theorem State.Canonical.doBranch {s : State} (h : s.Canonical) (p : Fin 13) (i : Kn) : (s.doBranch p i).Canonical := by
  unfold State.doBranch
  extract_lets r
  split
  · exact Kr.Canonical.fault h _ _
  · exact Kr.Canonical.ok h _

theorem State.Canonical.doJump {s : State} (h : s.Canonical) (p : Fin 13) (t : Int) : (s.doJump p t).Canonical :=
  h.target _ _ (Kr.Canonical.ok h _)

theorem State.Canonical.viaX {s : State} (h : s.Canonical) (p : Fin 13) (k : Int → Kr Flow) (hk : ∀ u, (k u).Canonical) :
    (s.viaX p k).Canonical := by
  unfold State.viaX
  extract_lets x
  exact h.need _ _ _ (hk _)

theorem State.Canonical.doLoop {s : State} (h : s.Canonical) (p : Fin 13) (i : Kn) : (s.doLoop p i).Canonical := by
  unfold State.doLoop
  extract_lets r start
  split
  · exact Kr.Canonical.fault h _ _
  · extract_lets r1
    exact Kr.Canonical.ok ((h.setKr _ _).emptyLoop _) _

theorem State.Canonical.doPstore {s : State} (h : s.Canonical) (p : Fin 13) : (s.doPstore p).Canonical := by
  unfold State.doPstore
  extract_lets r q a
  exact h.need _ _ _ (h.need _ _ _ (h.check _ _ (h.need _ _ _ (h.need _ _ _
    (Kr.Canonical.ok (((h.setProgWord _ _ _).serialise _).logged _ _) _)))))

theorem State.Canonical.doLock {s : State} (h : s.Canonical) (p : Fin 13) : (s.doLock p).Canonical :=
  Kr.Canonical.ok (h.setCore _ _) _

theorem State.Canonical.doFence {s : State} (h : s.Canonical) (p : Fin 13) : (s.doFence p).Canonical := by
  unfold State.doFence
  extract_lets t
  have ht : t.Canonical := h.drainWhile _ _ _
  exact (Kr.Canonical.ok ht _).ite (Kr.Canonical.stall ht)

theorem State.Canonical.putQuad {s : State} (h : s.Canonical) (p : Fin 13) (k n : Nat) (q : Quad) : (s.putQuad p k n q).Canonical := by
  unfold State.putQuad
  extract_lets t
  have ht : t.Canonical := h.setKr _ _
  exact (ht.serialise _).ite ht

theorem State.Canonical.doCld {s : State} (h : s.Canonical) (p : Fin 13) (n : Nat) : (s.doCld p n).Canonical := by
  unfold State.doCld
  extract_lets x ea
  exact h.need _ _ _ (h.guardEa _ _ _ ((h.readCells _ _ _ _).andThen (fun _ _ h1 => h1.need _ _ _
    (Kr.Canonical.ok (h1.putQuad _ _ _ _) _))))

theorem State.Canonical.doCst {s : State} (h : s.Canonical) (p : Fin 13) (n : Nat) : (s.doCst p n).Canonical := by
  unfold State.doCst
  extract_lets x ea
  exact h.need _ _ _ (h.guardEa _ _ _ (h.need _ _ _ ((h.drainSpan _ _ _).andThen
    (fun _ _ h1 => (h1.writeCells _ _ _ _).andThen (fun _ _ h2 => Kr.Canonical.ok h2 _)))))

theorem State.Canonical.doCrange {s : State} (h : s.Canonical) (p : Fin 13) (n : Nat) : (s.doCrange p n).Canonical := by
  unfold State.doCrange
  extract_lets r q
  exact h.need _ _ _ (h.check _ _ (h.need _ _ _ (Kr.Canonical.ok (h.putQuad _ _ _ _) _)))

theorem State.Canonical.doCmask {s : State} (h : s.Canonical) (p : Fin 13) (n : Nat) : (s.doCmask p n).Canonical := by
  unfold State.doCmask
  extract_lets r q
  exact h.need _ _ _ (h.check _ _ (Kr.Canonical.ok (h.putQuad _ _ _ _) _))

theorem State.Canonical.doCclose {s : State} (h : s.Canonical) (p : Fin 13) (n : Nat) : (s.doCclose p n).Canonical := by
  unfold State.doCclose
  extract_lets r q k
  exact h.need _ _ _ (h.check _ _ (h.need _ _ _ (Kr.Canonical.ok (h.putQuad _ _ _ _) _)))

theorem State.Canonical.doCopen {s : State} (h : s.Canonical) (p : Fin 13) (n : Nat) : (s.doCopen p n).Canonical := by
  unfold State.doCopen
  extract_lets r q k
  exact h.need _ _ _ (h.need _ _ _ (h.need _ _ _ (Kr.Canonical.ok (h.putQuad _ _ _ _) _)))

theorem State.Canonical.doCinfo {s : State} (h : s.Canonical) (p : Fin 13) (n : Nat) : (s.doCinfo p n).Canonical := by
  unfold State.doCinfo
  extract_lets x q
  exact h.need _ _ _ (h.need _ _ _ (Kr.Canonical.ok (h.loadA _ _) _))

theorem State.Canonical.doCmov {s : State} (h : s.Canonical) (p : Fin 13) (d n : Nat) : (s.doCmov p d n).Canonical := by
  unfold State.doCmov
  extract_lets q
  exact h.need _ _ _ (Kr.Canonical.ok (h.putQuad _ _ _ _) _)

theorem State.Canonical.doCapsw {s : State} (h : s.Canonical) (p : Fin 13) (k : Nat) : (s.doCapsw p k).Canonical := by
  unfold State.doCapsw
  extract_lets c0
  exact h.need _ _ _ (h.need _ _ _ (Kr.Canonical.ok h _))

theorem State.Canonical.divide {s : State} (h : s.Canonical) (a : BitVec 40) (ta : BitVec 4) (x : Cell) {r : State × LongRes}
    (hr : s.divide a ta x = some r) :
    r.1.Canonical := by
  unfold State.divide at hr
  extract_lets uns q y n d q' at hr
  have huns : ∀ t r, some (uns t) = some r → r.1.Canonical := by
    intro t r e
    cases e
    exact .iteFst h h
  clear_value uns
  rw [Option.ite_none_left_eq_some] at hr
  obtain ⟨-, hr⟩ := hr
  split at hr
  · exact huns _ _ hr
  · rw [Option.ite_none_left_eq_some] at hr
    obtain ⟨-, hr⟩ := hr
    split at hr
    · exact huns _ _ hr
    · split at hr
      · split at hr
        · cases hr
          exact h
        · split at hr
          · cases hr
            exact h
          · cases hr
            exact h.fresh.fresh
      · rw [Option.ite_none_right_eq_some] at hr
        obtain ⟨-, hr⟩ := hr
        split at hr
        · cases hr
          exact h
        · split at hr
          · cases hr
            exact h
          · cases hr
            exact h.fresh

theorem State.Canonical.sincos {s : State} (h : s.Canonical) (a : BitVec 40) (t : BitVec 4) {r : State × LongRes}
    (hr : s.sincos a t = some r) :
    r.1.Canonical := by
  unfold State.sincos at hr
  dsimp only at hr
  split at hr
  · cases hr
    exact h.fresh.fresh
  · cases hr

theorem State.Canonical.arctan {s : State} (h : s.Canonical) (c : Cell) {r : State × LongRes} (hr : s.arctan c = some r) :
    r.1.Canonical := by
  unfold State.arctan at hr
  rw [Option.ite_none_left_eq_some] at hr
  obtain ⟨-, hr⟩ := hr
  split at hr
  · cases hr
    exact h
  · split at hr
    · cases hr
      exact h
    · split at hr
      · cases hr
        exact h
      · split at hr
        · cases hr
          exact h
        · cases hr
          exact h.fresh

theorem State.Canonical.doLong {s : State} (h : s.Canonical) (p : Fin 13) (op : KOp) : (s.doLong p op).Canonical := by
  unfold State.doLong
  extract_lets r res
  have hres : ∀ x, res = some x → x.1.Canonical := by
    intro x e
    unfold res at e
    split at e
    · exact h.divide _ _ _ e
    · obtain ⟨l, -, rfl⟩ := Option.map_eq_some_iff.mp e
      exact h
    · exact h.sincos _ _ e
    · exact h.arctan _ e
  clear_value res
  cases res with
  | none => exact h
  | some x => exact State.Canonical.setCore (hres x rfl) _ _

theorem State.Canonical.longResult {s : State} (h : s.Canonical) (p : Fin 13) : (s.longResult p).Canonical := by
  unfold State.longResult
  extract_lets c old
  split
  · exact h
  · split
    · exact h.setCore _ _

theorem State.Canonical.doAtt {s : State} (h : s.Canonical) (p : Fin 13) (k : Nat) : (s.doAtt p k).Canonical :=
  Kr.Canonical.dite (fun _ => h.need _ _ _ (h.need _ _ _ (Kr.Canonical.ok ((((h.setCle _ _).setCore _ _).showCall _).logged _ _) _)))
    (fun _ => Kr.Canonical.fault h _ _)

/-! One instruction of a pair. -/

theorem State.Canonical.knExec {s : State} (h : s.Canonical) (p : Fin 13) (i : Kn) : (s.knExec p i).Canonical := by
  unfold State.knExec
  obtain ⟨op, _, _, _, _⟩ := i
  cases op with
  | eq | ne | lt | ge | gt | le | teq | tne => exact h.doBranch _ _
  | nop => exact Kr.Canonical.ok h _
  | ret => exact h.doRet _
  | fret => exact h.doFret _
  | gret => exact h.doGret _
  | rfe => exact h.doRfe _
  | lock => exact h.doLock _
  | fence => exact h.doFence _
  | wfe | pfx => exact Kr.Canonical.ok (h.setCore _ _) _
  | pusha | pushx | pushy => exact h.doPush _ _
  | popa | popx | popy => exact h.doPop _ _ (fun _ _ h1 => h1.putReg _ _ _)
  | tax => exact h.move _ (h.setX _ _)
  | txa | tya => exact h.move _ (h.loadA _ _)
  | tay => exact h.move _ (h.setY _ _)
  | swxy => exact h.doSwxy _
  | rdsp | rpg | rdtag | ctst => exact Kr.Canonical.ok (h.setX _ _) _
  | wdsp => exact h.doWdsp _
  | wpg => exact h.doWpg _
  | rdtime => exact Kr.Canonical.ok ((h.logged _ _).loadA _ _) _
  | ldia | ldix | ldiy => exact Kr.Canonical.ok (h.putReg _ _ _) _
  | addia => exact h.need _ _ _ (h.aResult _ _ _)
  | loop => exact h.doLoop _ _
  | lea => exact h.doLea _ _
  | sc => exact h.doSc _ _
  | pstore => exact h.doPstore _
  | jump => exact h.doJump _ _
  | call => exact h.doCall _ _
  | jumpx => exact h.viaX _ _ (fun _ => h.doJump _ _)
  | callx => exact h.viaX _ _ (fun _ => h.doCall _ _)
  | fcall => exact h.doFcall _ _
  | gate => exact h.doGate _ _
  | cld => exact h.doCld _ _
  | cst => exact h.doCst _ _
  | crange => exact h.doCrange _ _
  | cmask => exact h.doCmask _ _
  | cclose => exact h.doCclose _ _
  | copen => exact h.doCopen _ _
  | cclr => exact Kr.Canonical.ok (h.putQuad _ _ _ _) _
  | cinfo => exact h.doCinfo _ _
  | cmov => exact h.doCmov _ _ _
  | capsw => exact h.doCapsw _ _
  | div | sqrt | sincos | atan2 => exact h.doLong _ _
  | retag => exact h.doRetag _ _
  | dsadj => exact h.newDsp _ _
  | ldb | ldh => exact h.doLdNarrow _ _ _
  | stb | sth => exact h.doStNarrow _ _ _
  | ldu => exact h.doLdu _ _
  | llda | lsta | ladd | lsub | land | lor | lxor | jmpp => exact h.doLegacy _ _
  | att => exact h.doAtt _ _
  | _ => exact h.doMem _ _

theorem State.Canonical.flow {s : State} (h : s.Canonical) (p : Fin 13) (f : Flow) : (s.flow p f).Canonical := by
  unfold State.flow
  extract_lets c r next
  split
  · exact h.setCore _ _
  · exact h.setCore _ _
  · exact h.setCore _ _
  · split
    · exact h.setCore _ _
  · exact h.setCore _ _
  · split
    · extract_lets s1
      have h1 : s1.Canonical := h.setCore _ _
      split
      · exact h1.setActive _ _
      · exact h1

theorem State.Canonical.lockCount {s : State} (h : s.Canonical) (p : Fin 13) (was : Bool) : (s.lockCount p was).Canonical := by
  unfold State.lockCount
  extract_lets c
  split
  · exact (h.setCore _ _).ite h
  · exact h

theorem State.Canonical.logFull {s : State} (h : s.Canonical) (p : Fin 13) : (s.logFull p).Canonical :=
  (h.checkpoint _).ite h

theorem State.Canonical.countRetired {s : State} (h : s.Canonical) (p : Fin 13) : (s.countRetired p).Canonical :=
  h.setCore _ _

theorem State.Canonical.retire {s : State} (h : s.Canonical) (p : Fin 13) (f : Flow) (locked : Bool) : (s.retire p f locked).Canonical := by
  unfold State.retire
  extract_lets s1 s2 old
  have h1 : s1.Canonical := h.flow _ _
  have h2 : s2.Canonical := ((h1.lockCount _ _).countRetired _).logFull _
  exact h1.ite (State.Canonical.dite (fun _ => h2.setDbg _) (fun _ => h2))

theorem State.Canonical.lockBroken {s : State} (h : s.Canonical) (p : Fin 13) : (s.lockBroken p).Canonical := by
  unfold State.lockBroken
  split
  · exact (h.endLock _).ite h
  · exact h

theorem State.Canonical.bpHit {s : State} (h : s.Canonical) (n : Fin 12) : (s.bpHit n).Canonical := by
  unfold State.bpHit
  split
  · exact h.ite (h.dbgHalt _ _)
  · exact h

theorem State.Canonical.issue {s : State} (h : s.Canonical) (p : Fin 13) : (s.issue p).Canonical := by
  unfold State.issue
  extract_lets t old
  have ht : t.Canonical := (h.longResult _).lockBroken _
  exact ht.setCore _ _

theorem State.Canonical.run {s : State} (h : s.Canonical) (p : Fin 13) (i : Kn) : (s.run p i).Canonical := by
  unfold State.run
  extract_lets c
  refine .ite (Kr.Canonical.fault h _ _) ?_
  refine .ite (Kr.Canonical.stall h) ?_
  split
  next t _ _ e =>
    have ht : t.Canonical := Kr.Canonical.of_eq (h.knExec _ _) e
    exact Kr.Canonical.fault (h.ite ht) _ _
  · exact h.knExec _ _

theorem State.Canonical.attempt {s : State} (h : s.Canonical) (p : Fin 13) : (s.attempt p).2.Canonical := by
  unfold State.attempt
  split
  next t _ _ e =>
    have ht : t.Canonical := Kr.Canonical.of_eq (h.fetchWord _) e
    exact Kr.Canonical.fault ht _ _
  next t e =>
    have ht : t.Canonical := Kr.Canonical.of_eq (h.fetchWord _) e
    exact Kr.Canonical.stall ht
  next t _ e =>
    have ht : t.Canonical := Kr.Canonical.of_eq (h.fetchWord _) e
    split
    · exact Kr.Canonical.fault ht _ _
    · exact ht.run _ _

theorem State.Canonical.conclude (s0 : State) (p : Fin 13) {o : Kr Flow} (ho : o.Canonical) : (s0.conclude p o).Canonical := by
  unfold State.conclude
  split
  · exact ho.retire _ _ _
  · exact (ho.wpUndo _).faultEntry _ _ _
  · exact ho

theorem State.Canonical.instr {s : State} (h : s.Canonical) (p : Fin 13) (op : KOp) : (s.instr p op).Canonical := by
  unfold State.instr
  refine .ite h ?_
  extract_lets s1
  have ho : (s1.attempt p).2.Canonical := (h.issue p).attempt p
  generalize s1.attempt p = r at ho ⊢
  obtain ⟨_ | i, o⟩ := r
  · exact h
  · exact (State.Canonical.conclude _ _ ho).ite h

theorem State.Canonical.faultCommand {s : State} (h : s.Canonical) (p : Fin 13) : (s.faultCommand p).Canonical := by
  unfold State.faultCommand
  refine .ite h ?_
  extract_lets s1
  have ho : (s1.attempt p).2.Canonical := (h.issue p).attempt p
  generalize s1.attempt p = r at ho ⊢
  obtain ⟨i, t | t | t⟩ := r
  · exact h
  · exact (State.Canonical.wpUndo ho _).faultEntry _ _ _
  · exact State.Canonical.ite ho h

theorem State.Canonical.takeInterrupt {s : State} (h : s.Canonical) (p : Fin 13) (force : Bool) : (s.takeInterrupt p force).Canonical := by
  unfold State.takeInterrupt
  refine .ite h ?_
  extract_lets t
  have ht : t.Canonical := h.issue _
  split
  · exact ht.interruptEntry _ _
  · exact h

end Machine
end Sys2Proof
end

section
/-! PROOFS. The canonical form: DMA, descriptors and sessions. -/

namespace Sys2Proof
namespace Machine

/-! DMA programs. -/

theorem State.Canonical.setDmaPc {s : State} (h : s.Canonical) (e c : Nat) (a : Nat) : (s.setDmaPc e c a).Canonical :=
  h.setReg _ _

theorem State.Canonical.setLoops {s : State} (h : s.Canonical) (e : Fin 13) (c : Fin 16) (l : List DmaLoop) :
    (s.setLoops e c l).Canonical :=
  (h.setDma _ _ _).setF _ _ _

theorem State.Canonical.dmaErrored {s : State} (h : s.Canonical) (e : Fin 13) (c : Fin 16) (code addr : Nat) :
    (s.dmaErrored e c code addr).Canonical := by
  unfold State.dmaErrored
  extract_lets a s1 s2 old
  have h1 : s1.Canonical := (h.setF _ _ _).setF _ _ _
  have h2 : s2.Canonical := (h1.setReg _ _).ite h1
  exact ((h2.setDma _ _ _).setDmaState _ _ _).xferDone _ _ _

theorem State.Canonical.dmaSettle {s : State} (h : s.Canonical) (e : Fin 13) (c : Fin 16) : (s.dmaSettle e c).Canonical := by
  unfold State.dmaSettle
  extract_lets d s0 next
  have h0 : s0.Canonical := h.setDma _ _ _
  split
  · exact h
  · exact (h0.setDmaPc _ _ _).setDmaState _ _ _
  · exact ((h0.setDmaPc _ _ _).setDmaState _ _ _).fire _
  · exact (((h0.setLoops _ _ _).setF _ _ _).setDmaState _ _ _).xferDone _ _ _
  · exact h0.dmaStopped _ _ _
  · exact h0.dmaStopped _ _ _
  · exact h0.dmaErrored _ _ _ _

theorem State.Canonical.dmaAwait {s : State} (h : s.Canonical) (e : Fin 13) (c : Fin 16) (a : DmaAfter) : (s.dmaAwait e c a).Canonical := by
  unfold State.dmaAwait
  extract_lets old s1
  have h1 : s1.Canonical := h.setDma _ _ _
  exact (h1.dmaSettle _ _).ite (h1.setDmaState _ _ _)

theorem State.Canonical.dmaResponse {s : State} (h : s.Canonical) (e : Fin 13) (c : Fin 16) : (s.dmaResponse e c).Canonical := by
  unfold State.dmaResponse
  extract_lets k s1
  have h1 : s1.Canonical := h.setF _ _ _
  exact h.ite (((h1.dmaSettle _ _).dmaDrained _ _).ite h1)

theorem State.Canonical.dmaWrote {s : State} (h : s.Canonical) (e c : Nat) (bytes : Nat) : (s.dmaWrote e c bytes).Canonical :=
  (h.setF _ _ _).countBy _ _ _

theorem State.Canonical.dmaRead {s : State} (h : s.Canonical) (e : Fin 13) (a : Nat) : (s.dmaRead e a).st.Canonical := by
  unfold State.dmaRead
  extract_lets bad r
  have hbad : ∀ t code, t.Canonical → (bad t code).st.Canonical := fun _ _ h1 => h1
  have hr : r.st.Canonical := h.rd _
  refine .iteDma (hbad _ _ h) ?_
  refine .iteDma (h.iteDma ((hbad _ _ hr).iteDma hr)) ?_
  split
  · split
    next t _ e'' =>
      have ht : t.Canonical := State.Canonical.of_fst (h.flashGet _) e''
      exact ht
    next t e'' =>
      have ht : t.Canonical := State.Canonical.of_fst (h.flashGet _) e''
      exact hbad _ _ ht
  · split
    next t _ e' =>
      have ht : t.Canonical := h.busRead _ _ e'
      exact ht
    · exact hbad _ _ h

theorem State.Canonical.dmaWriteCell {s : State} (h : s.Canonical) (e : Fin 13) (a : Nat) (x : Cell) :
    (s.dmaWriteCell e a x).st.Canonical := by
  unfold State.dmaWriteCell
  refine .iteDma h ?_
  refine .iteDma (h.iteDma (h.iteDma (h.wr _ _ _))) ?_
  split
  next t e' =>
    have ht : t.Canonical := h.busWrite _ _ _ e'
    exact ht
  · exact h

theorem State.Canonical.moveCell {s : State} (h : s.Canonical) (e : Fin 13) (c : Fin 16) (src dst : Nat) :
    (s.moveCell e c src dst).st.Canonical := by
  unfold State.moveCell
  refine .iteDma h ?_
  refine .iteDma h ?_
  extract_lets r w
  have hr : r.st.Canonical := h.dmaRead _ _
  have hw : w.st.Canonical := hr.dmaWriteCell _ _ _
  split
  · exact hr
  · refine .iteDma hr ?_
    split
    · exact hw
    · exact hw.dmaWrote _ _ _

theorem State.Canonical.dmaReadByte {s : State} (h : s.Canonical) (e : Fin 13) (a : Nat) : (s.dmaReadByte e a).st.Canonical := by
  unfold State.dmaReadByte
  exact h.iteDma (h.dmaRead _ _)

theorem State.Canonical.dmaReadBytes {s : State} (h : s.Canonical) (e : Fin 13) (l : List Nat) : (s.dmaReadBytes e l).st.Canonical := by
  induction l generalizing s with
  | nil => exact h
  | cons a l ih =>
    unfold State.dmaReadBytes
    extract_lets r q
    have hr : r.st.Canonical := h.dmaReadByte e a
    split
    · exact hr
    · exact ih hr

theorem State.Canonical.dmaWriteBytes {s : State} (h : s.Canonical) (e : Fin 13) (c : Fin 16) (a k v : Nat) :
    (s.dmaWriteBytes e c a k v).st.Canonical := by
  unfold State.dmaWriteBytes
  refine .iteDma h ?_
  refine .iteDma (h.dmaWrote _ _ _) ?_
  extract_lets r t
  have hr : r.st.Canonical := h.rd _
  exact .iteDma (hr.badAcc.iteDma ((hr.wr _ _ _).dmaWrote _ _ _)) (((hr.wr _ _ _).dmaWrote _ _ _).iteDma hr.badAcc)

theorem State.Canonical.moveBytes {s : State} (h : s.Canonical) (e : Fin 13) (c : Fin 16) (srcs : List Nat) (dst : Nat) :
    (s.moveBytes e c srcs dst).st.Canonical := by
  unfold State.moveBytes
  extract_lets r
  have hr : r.st.Canonical := h.dmaReadBytes _ _
  split
  · exact hr
  · exact hr.dmaWriteBytes _ _ _ _ _

theorem State.Canonical.dmaEach {s : State} (h : s.Canonical) (e : Fin 13) (c : Fin 16) (cells : Bool) (l : List DmaItem) :
    (s.dmaEach e c cells l).st.Canonical := by
  induction l generalizing s with
  | nil => exact h
  | cons x l ih =>
    unfold State.dmaEach
    refine .iteDma h ?_
    extract_lets r q
    have hr : r.st.Canonical := (h.moveCell _ _ _ _).iteDma (h.moveBytes _ _ _ _)
    split
    · exact hr
    · exact ih hr

theorem State.Canonical.dmaFetch {s : State} (h : s.Canonical) (e : Fin 13) (a : Nat) (k : Nat) : (s.dmaFetch e a k).st.Canonical := by
  induction k generalizing s a with
  | zero => exact h
  | succ k ih =>
    unfold State.dmaFetch
    extract_lets a' ok r q
    have hr : r.st.Canonical := h.rd _
    exact h.iteDma (hr.iteDma (hr.iteDma (ih hr _)))

theorem State.Canonical.dmaInstr {s : State} (h : s.Canonical) (e : Fin 13) (c : Fin 16) : (s.dmaInstr e c).st.Canonical := by
  unfold State.dmaInstr
  extract_lets pc r w n q
  have hr : r.st.Canonical := h.dmaFetch _ _ _
  have hq : q.st.Canonical := hr.dmaFetch _ _ _
  split
  · exact hr
  · exact .iteDma hr hq

theorem State.Canonical.dmaNext {s : State} (h : s.Canonical) (e c : Nat) (n : Nat) : (s.dmaNext e c n).Canonical :=
  h.setDmaPc _ _ _

theorem State.Canonical.dmaFail {s : State} (h : s.Canonical) (e : Fin 13) (c : Fin 16) (code addr : Nat) :
    (s.dmaFail e c code addr).Canonical :=
  h.dmaAwait _ _ _

theorem State.Canonical.dmaBlock {s : State} (h : s.Canonical) (e : Fin 13) (c : Fin 16) (l : List Nat) (cells : Bool)
    (items : List DmaItem) :
    (s.dmaBlock e c l cells items).Canonical := by
  unfold State.dmaBlock
  extract_lets k r old with_
  have hr : r.st.Canonical := h.dmaEach _ _ _ _
  split
  · exact (hr.setDma _ _ _).dmaFail _ _ _ _
  · exact ((hr.setDma _ _ _).dmaNext _ _ _).ite (hr.setDma _ _ _)

theorem State.Canonical.dmaMove {s : State} (h : s.Canonical) (e : Fin 13) (c : Fin 16) (l : List Nat) : (s.dmaMove e c l).Canonical := by
  unfold State.dmaMove
  extract_lets w n loops src dst sfix dfix at_
  refine .ite (h.dmaFail _ _ _ _) ?_
  exact .ite (h.dmaFail _ _ _ _) ((h.dmaFail _ _ _ _).ite ((h.dmaBlock _ _ _ _ _).ite (h.dmaBlock _ _ _ _ _)))

theorem State.Canonical.dmaShuffle {s : State} (h : s.Canonical) (e : Fin 13) (c : Fin 16) (l : List Nat) :
    (s.dmaShuffle e c l).Canonical := by
  unfold State.dmaShuffle
  extract_lets w inter esize planes frames loops src dst ps from_ to_ cells pieces
  exact (h.dmaFail _ _ _ _).ite ((h.dmaFail _ _ _ _).ite ((h.dmaFail _ _ _ _).ite (h.dmaBlock _ _ _ _ _)))

theorem State.Canonical.dmaLoop {s : State} (h : s.Canonical) (e : Fin 13) (c : Fin 16) (l : List Nat) : (s.dmaLoop e c l).Canonical := by
  unfold State.dmaLoop
  extract_lets w loops x
  exact (h.dmaFail _ _ _ _).ite ((h.dmaFail _ _ _ _).ite ((h.setLoops _ _ _).dmaNext _ _ _))

theorem State.Canonical.dmaEndloop {s : State} (h : s.Canonical) (e : Fin 13) (c : Fin 16) (l : List Nat) :
    (s.dmaEndloop e c l).Canonical := by
  unfold State.dmaEndloop
  refine .ite (h.dmaFail _ _ _ _) ?_
  split
  · exact h.dmaFail _ _ _ _
  · exact ((h.setLoops _ _ _).dmaNext _ _ _).ite ((h.setLoops _ _ _).setDmaPc _ _ _)

theorem State.Canonical.dmaWait {s : State} (h : s.Canonical) (e : Fin 13) (c : Fin 16) (l : List Nat) : (s.dmaWait e c l).Canonical := by
  unfold State.dmaWait
  extract_lets w src old w'
  have hw' : w'.Canonical := (h.setDma _ _ _).setDmaState _ _ _
  exact (h.dmaFail _ _ _ _).ite ((h.dmaFail _ _ _ _).ite ((hw'.waitsEnd _ _ _).ite hw'))

theorem State.Canonical.dmaTimeout {s : State} (h : s.Canonical) (e : Fin 13) (c : Fin 16) : (s.dmaTimeout e c).Canonical := by
  unfold State.dmaTimeout
  split
  · exact h.ite ((h.setDma _ _ _).dmaFail _ _ _ _)
  · exact h

theorem State.Canonical.dmaBarrier {s : State} (h : s.Canonical) (e : Fin 13) (c : Fin 16) (a : DmaAfter) (l : List Nat) :
    (s.dmaBarrier e c a l).Canonical :=
  (h.dmaFail _ _ _ _).ite (h.dmaAwait _ _ _)

theorem State.Canonical.dmaRun {s : State} (h : s.Canonical) (e : Fin 13) (c : Fin 16) (op : Nat) (f : State → List Nat → State)
    (hf : ∀ u v, u.Canonical → (f u v).Canonical) :
    (s.dmaRun e c op f).Canonical := by
  unfold State.dmaRun
  extract_lets run r
  have hr : r.st.Canonical := h.dmaInstr _ _
  refine .ite h ?_
  split
  · exact (hf _ _ h).ite h
  · refine .ite h ?_
    split
    · exact hr.dmaFail _ _ _ _
    · exact (hf _ _ hr).ite h

/-! Descriptors. -/

theorem State.Canonical.descSettle {s : State} (h : s.Canonical) (f : Fin 16) (pos : Nat) (e : DescEnd) :
    (s.descSettle f pos e).Canonical := by
  unfold State.descSettle
  split
  · exact h
  · split
    · exact h.descFinish _ _ _ _
    · exact h.setFn _ _
    · exact h

theorem State.Canonical.descBegin {s : State} (h : s.Canonical) (f : Fin 16) (k op : Nat) (check : Flight → Option Nat)
    (run : State → Desc → DescOut) (hrun : ∀ u v, u.Canonical → (run u v).st.Canonical) :
    (s.descBegin f k op check run).Canonical := by
  unfold State.descBegin
  split
  · exact h
  · refine .ite h ?_
    split
    · exact h.descFinish _ _ _ _
    · extract_lets old s1 o
      have h1 : s1.Canonical := h.setFn _ _
      have ho : o.st.Canonical := hrun _ _ h1
      split
      · exact h
      · exact ho.descSettle _ _ _

theorem State.Canonical.descSlice {s : State} (h : s.Canonical) (f : Fin 16) (k op : Nat) (bad : Desc → Bool) (gone : Bool)
    (run : State → Fin 12 → Desc → DescOut) (hrun : ∀ u v w, u.Canonical → (run u v w).st.Canonical) :
    (s.descSlice f k op bad gone run).Canonical :=
  h.descBegin _ _ _ _ _ (fun _ _ h1 => (by split; exacts [hrun _ _ _ h1, h1]))

/-- The same, with the outcome of the run under a name: the kernel then compares no outcomes through their states. -/
theorem State.Canonical.descSliceOf {s : State} (h : s.Canonical) (f : Fin 16) (k op : Nat) (bad : Desc → Bool) (gone : Bool)
    (run : State → Fin 12 → Desc → DescOut) (hrun : ∀ t n d x, t.Canonical → run t n d = x → x.st.Canonical) :
    (s.descSlice f k op bad gone run).Canonical :=
  h.descSlice f k op bad gone run (fun t n d ht => hrun t n d _ ht rfl)

theorem State.Canonical.descPut {s : State} (h : s.Canonical) (f : Fin 16) (n : Fin 12) (off : Nat) (v : Word) :
    (s.descPut f n off v).Canonical := by
  unfold State.descPut
  extract_lets a
  refine .ite (h.rawWrite _ _) ?_
  split
  next t e =>
    have ht : t.Canonical := h.busWrite _ _ _ e
    exact ht
  · exact h.hostRefuse _

theorem State.Canonical.descPuts {s : State} (h : s.Canonical) (f : Fin 16) (n : Fin 12) (l : List (Nat × Word)) :
    (s.descPuts f n l).1.Canonical := by
  induction l generalizing s with
  | nil => exact h
  | cons a l ih =>
    unfold State.descPuts
    exact (h.descPut _ _ _ _).iteFst (ih (h.descPut _ _ _ _))

theorem State.Canonical.descPutThen {s : State} (h : s.Canonical) (f : Fin 16) (n : Fin 12) (off : Nat) (v : Word)
    (next : State → DescOut) (hnext : ∀ u, u.Canonical → (next u).st.Canonical) :
    (s.descPutThen f n off v next).st.Canonical := by
  unfold State.descPutThen
  split
  next t _ e =>
    have ht : t.Canonical := State.Canonical.of_fst (h.descPuts _ _ _) e
    exact hnext _ ht
  next t _ e =>
    have ht : t.Canonical := State.Canonical.of_fst (h.descPuts _ _ _) e
    exact ht

theorem State.Canonical.descGet {s : State} (h : s.Canonical) (f : Fin 16) (n : Fin 12) (off : Nat) : (s.descGet f n off).1.Canonical := by
  unfold State.descGet
  extract_lets a
  refine .iteFst (h.rawRead _) ?_
  split
  next r e =>
    have hr : r.1.Canonical := h.busRead _ _ e
    exact hr
  · exact h.hostRefuse _

theorem State.Canonical.descGets {s : State} (h : s.Canonical) (f : Fin 16) (n : Fin 12) (off : Nat) (k : Nat) :
    (s.descGets f n off k).1.Canonical := by
  induction k generalizing s off with
  | zero => exact h
  | succ k ih =>
    exact ih (h.descGet _ _ _) _

theorem State.Canonical.descNop {s : State} (h : s.Canonical) (f : Fin 16) (k : Nat) : (s.descNop f k).Canonical :=
  h.descBegin _ _ _ _ _ (fun _ _ h1 => h1)

theorem State.Canonical.descFence {s : State} (h : s.Canonical) (f : Fin 16) (k : Nat) : (s.descFence f k).Canonical := by
  unfold State.descFence
  extract_lets free
  split
  · exact h
  · exact (h.descBegin _ _ _ _ _ (fun _ _ h1 => h1)).ite h

theorem State.Canonical.descSetParam {s : State} (h : s.Canonical) (f : Fin 16) (k : Nat) : (s.descSetParam f k).Canonical := by
  unfold State.descSetParam
  extract_lets writes bad
  refine h.descSlice _ _ _ _ _ _ (fun t n d h1 => ?_)
  refine .iteDesc h1 ?_
  split
  next u _ _ e =>
    have hu : u.Canonical := State.Canonical.of_fst (h1.descPuts _ _ _) e
    exact hu

theorem State.Canonical.descSetRef {s : State} (h : s.Canonical) (f : Fin 16) (k : Nat) (coll : Bool) : (s.descSetRef f k coll).Canonical :=
  h.descSlice _ _ _ _ _ _ (fun _ _ _ h1 => h1.iteDesc (((h1.count _ _).setF _ _ _).iteDesc (h1.descPutThen _ _ _ _ _ (fun _ h2 => h2))))

theorem State.Canonical.descLoadCoeff {s : State} (h : s.Canonical) (f : Fin 16) (k : Nat) : (s.descLoadCoeff f k).Canonical := by
  unfold State.descLoadCoeff
  refine h.descSlice _ _ _ _ _ _ (fun t n d h1 => ?_)
  extract_lets b
  refine .iteDesc h1 ?_
  split
  next u _ _ e =>
    have hu : u.Canonical := State.Canonical.of_fst (h1.descPuts _ _ _) e
    exact hu

theorem State.Canonical.descLoopCmd {s : State} (h : s.Canonical) (f : Fin 16) (n : Fin 12) (j code : Nat) (a : Await) :
    (s.descLoopCmd f n j code a).st.Canonical := by
  unfold State.descLoopCmd
  extract_lets t
  have ht : t.Canonical := h.descPut _ _ _ _
  split
  · exact ht
  · exact ht

theorem State.Canonical.descSwapBank {s : State} (h : s.Canonical) (f : Fin 16) (k : Nat) : (s.descSwapBank f k).Canonical :=
  h.descSlice _ _ _ _ _ _ (fun _ _ _ h1 => h1.iteDesc (h1.descLoopCmd _ _ _ _ _))

theorem State.Canonical.descSetMode {s : State} (h : s.Canonical) (f : Fin 16) (k : Nat) : (s.descSetMode f k).Canonical := by
  unfold State.descSetMode
  refine h.descSliceOf f k _ _ _ _ (fun t n d x ht e => ?_)
  extract_lets cmd at e
  have hcmd : ∀ u, u.Canonical → (cmd u).st.Canonical := fun u hu => by
    rw [show cmd u = u.descLoopCmd f n d.unit _ _ from rfl]
    exact hu.descLoopCmd f n d.unit _ _
  clear_value cmd
  split at e
  · subst e
    exact ht
  · split at e
    · subst e
      exact ht.descPutThen _ _ _ _ _ hcmd
    · subst e
      exact hcmd t ht

theorem State.Canonical.descReadState {s : State} (h : s.Canonical) (f : Fin 16) (k : Nat) : (s.descReadState f k).Canonical :=
  h.descSlice _ _ _ _ _ _ (fun _ _ _ h1 => (h1.hostRefuse _).iteDesc (h1.iteDesc ((h1.descGets _ _ _ _).toHost _ _ _)))

theorem State.Canonical.descCapture {s : State} (h : s.Canonical) (f : Fin 16) (k : Nat) : (s.descCapture f k).Canonical := by
  unfold State.descCapture
  refine h.descSliceOf f k _ _ _ _ (fun t n d x ht e => ?_)
  extract_lets shape at e
  have hshape : ∀ u v, u.Canonical → (shape u v).Canonical := fun u v hu => hu.ite (hu.setF _ _ _)
  clear_value shape
  have hput := fun l => (hshape t 0 ht).descPuts f n l
  split at e
  next u _ eu =>
    subst e
    exact State.Canonical.of_fst (hput _) eu
  next u _ eu =>
    subst e
    exact hshape u _ (State.Canonical.of_fst (hput _) eu)

theorem State.Canonical.descTraceArm {s : State} (h : s.Canonical) (f : Fin 16) (k : Nat) : (s.descTraceArm f k).Canonical := by
  unfold State.descTraceArm
  extract_lets lg arm
  exact h.descBegin _ _ _ _ _ (fun _ _ h1 => h1.setFn _ _)

theorem State.Canonical.descDmaXfer {s : State} (h : s.Canonical) (f : Fin 16) (k : Nat) : (s.descDmaXfer f k).Canonical :=
  h.descBegin _ _ _ _ _ (fun _ _ h1 => (h1.dmaStart _ _).iteDesc (h1.dmaReject _))

theorem State.Canonical.askHost {s : State} (h : s.Canonical) (f : Fin 16) (d : Desc) (bytes sent : Nat) :
    (s.askHost f d bytes sent).Canonical :=
  h.emit _

theorem State.Canonical.descAsk {s : State} (h : s.Canonical) (f : Fin 16) (d : Desc) (bytes : Nat) :
    (s.descAsk f d bytes).st.Canonical := by
  unfold State.descAsk
  exact (h.askHost _ _ _ _).iteDesc h

theorem State.Canonical.descMcodeLoad {s : State} (h : s.Canonical) (f : Fin 16) (k : Nat) : (s.descMcodeLoad f k).Canonical :=
  h.descSlice _ _ _ _ _ _ (fun _ _ _ h1 => h1.iteDesc (h1.descAsk _ _ _))

theorem State.Canonical.loadWords {s : State} (h : s.Canonical) (n : Fin 12) (w : Nat) (l : List MWord) :
    (s.loadWords n w l).1.Canonical := by
  induction l generalizing s w with
  | nil => exact h
  | cons v l ih =>
    unfold State.loadWords
    exact (ih (h.commitWord _ _ _) _).iteFst (h.commitWord _ _ _)

theorem State.Canonical.mcodeData {s : State} (h : s.Canonical) (n : Fin 12) (d : Desc) (ws : List Word) :
    (s.mcodeData n d ws).st.Canonical := by
  unfold State.mcodeData
  exact h.iteDesc (((h.setLdOpen _ _).loadWords _ _ _).setLdOpen _ _)

theorem State.Canonical.flashDesc {s : State} (h : s.Canonical) (d : Desc) (data : List Word) : (s.flashDesc d data).st.Canonical := by
  unfold State.flashDesc
  extract_lets op b old s1 r
  have h1 : s1.Canonical := (h.setFlc _ (by rfl)).ite h
  have hr : r.st.Canonical := h1.flcRun _ _ _
  exact hr.iteDesc (hr.flcEnd _ _)

theorem State.Canonical.descFlashOp {s : State} (h : s.Canonical) (f : Fin 16) (k : Nat) : (s.descFlashOp f k).Canonical := by
  unfold State.descFlashOp
  split
  · exact h
  · refine .ite h ?_
    split
    · exact ((h.flashDesc _ _).descSettle _ _ _).ite h
    · exact h.descBegin _ _ _ _ _ (fun _ _ h1 => (h1.descAsk _ _ _).iteDesc (h1.flashDesc _ _))

theorem State.Canonical.descMarch {s : State} (h : s.Canonical) (f : Fin 16) (k : Nat) : (s.descMarch f k).Canonical := by
  unfold State.descMarch
  extract_lets tgt destr bad gone
  refine h.descBegin _ _ _ _ _ (fun t d h1 => ?_)
  extract_lets u
  have hu : u.Canonical := h1.marchReq _ _ _
  split
  · exact hu
  · exact hu

theorem State.Canonical.descSliceCmd {s : State} (h : s.Canonical) (f : Fin 16) (n : Fin 12) (v : Word) (a : Await) :
    (s.descSliceCmd f n v a).st.Canonical := by
  unfold State.descSliceCmd
  extract_lets put
  have hput : (put s).Canonical := h.descPut _ _ _ _
  clear_value put
  exact hput.iteDesc hput

theorem State.Canonical.descSliceFence {s : State} (h : s.Canonical) (f : Fin 16) (k : Nat) : (s.descSliceFence f k).Canonical :=
  h.descSliceOf f k _ _ _ _ (fun _ _ _ _ ht e => e ▸ ht.descSliceCmd _ _ _ _)

theorem State.Canonical.descSliceResume {s : State} (h : s.Canonical) (f : Fin 16) (k : Nat) : (s.descSliceResume f k).Canonical :=
  h.descSlice _ _ _ _ _ _ (fun _ _ _ h1 => (h1.descSliceCmd _ _ _ _).iteDesc (h1.descSliceCmd _ _ _ _))

theorem State.Canonical.hilOffer {s : State} (h : s.Canonical) (n : Fin 12) (l : List (Fin 12 × HilRec)) :
    (s.hilOffer n l).1.Canonical := by
  induction l generalizing s with
  | nil => exact h
  | cons a l ih =>
    unfold State.hilOffer
    extract_lets x q
    exact (ih (h.count _ _)).iteFst (ih (h.setHil _ _ _))

theorem State.Canonical.hilData {s : State} (h : s.Canonical) (n : Fin 12) (ws : List Word) : (s.hilData n ws).st.Canonical := by
  unfold State.hilData
  refine .iteDesc h ?_
  split
  · exact h
  · extract_lets r
    have hr : r.1.Canonical := h.hilOffer _ _
    exact hr

theorem State.Canonical.descHilFeed {s : State} (h : s.Canonical) (f : Fin 16) (k : Nat) : (s.descHilFeed f k).Canonical := by
  unfold State.descHilFeed
  extract_lets inline_ recs
  exact h.descSlice _ _ _ _ _ _ (fun _ _ _ h1 => h1.iteDesc ((h1.hilData _ _).iteDesc (h1.descAsk _ _ _)))

theorem State.Canonical.descEventWait {s : State} (h : s.Canonical) (f : Fin 16) (k : Nat) : (s.descEventWait f k).Canonical :=
  h.descBegin _ _ _ _ _ (fun _ _ h1 => h1)

theorem State.Canonical.descEventTimeout {s : State} (h : s.Canonical) (f : Fin 16) (k : Nat) : (s.descEventTimeout f k).Canonical := by
  unfold State.descEventTimeout
  split
  · exact h
  · split
    · exact (h.descFinish _ _ _ _).ite h
    · exact h

theorem State.Canonical.askNext {s : State} (h : s.Canonical) (f : Fin 16) (y : Flight) : (s.askNext f y).Canonical := by
  unfold State.askNext
  split
  · exact ((h.askHost _ _ _ _).descSettle _ _ _).ite h
  · exact h

theorem State.Canonical.askMore {s : State} (h : s.Canonical) : (s.askMore).Canonical :=
  h.foldl _ _ (fun _ _ h1 => h1.foldl _ _ (fun _ _ h2 => h2.askNext _ _))

theorem State.Canonical.descUse {s : State} (h : s.Canonical) (d : Desc) (ws : List Word) : (s.descUse d ws).st.Canonical := by
  unfold State.descUse
  split
  · extract_lets n
    exact (h.mcodeData _ _ _).iteDesc (h.hilData _ _)
  · exact h.iteDesc (h.flashDesc _ _)

theorem State.Canonical.descData {s : State} (h : s.Canonical) (f : Fin 16) (k : Nat) (ws : List Word) : (s.descData f k ws).Canonical := by
  unfold State.descData
  split
  · exact h
  · split
    · extract_lets all o
      have ho : o.st.Canonical := h.descUse _ _
      exact h.ite ((h.descSettle _ _ _).ite (ho.descSettle _ _ _))
    · exact (h.lateCompletion _).ite h

/-! The apertures. -/

theorem State.Canonical.hostWriteCell {s : State} (h : s.Canonical) (f : Fin 16) (w : HostWindow) (off : BitVec 28) (be : BitVec 4)
    (v : Word) :
    (s.hostWriteCell f w off be v).Canonical :=
  h.hostPut _ _ _ _

/-! Requests of a session. -/

theorem State.Canonical.infoMsg {s : State} (h : s.Canonical) (q : ColbelReq) : (s.infoMsg q).Canonical :=
  h.request _ _ (fun _ _ h1 => h1.done _ _ _)

theorem State.Canonical.stepOnce {s : State} (h : s.Canonical) (p : Fin 13) : (s.stepOnce p).1.Canonical := by
  unfold State.stepOnce
  refine .iteFst h ?_
  extract_lets s1
  have ho : (s1.attempt p).2.Canonical := (h.issue p).attempt p
  generalize s1.attempt p = r at ho ⊢
  obtain ⟨i, t | t | t⟩ := r
  · exact State.Canonical.conclude _ _ ho
  · exact State.Canonical.conclude _ _ ho
  · exact ho

theorem State.Canonical.stepGroup {s : State} (h : s.Canonical) (p : Fin 13) (k : Nat) : (s.stepGroup p k).1.Canonical := by
  induction k generalizing s with
  | zero => exact h
  | succ k ih =>
    unfold State.stepGroup
    have hr := h.stepOnce p
    exact (ih hr).iteFst hr

theorem State.Canonical.stepRun {s : State} (h : s.Canonical) (p : Fin 13) (irq : Bool) (k : Nat) : (s.stepRun p irq k).1.Canonical := by
  induction k generalizing s with
  | zero => exact h
  | succ k ih =>
    unfold State.stepRun
    have hr := h.stepGroup p groupFuel
    exact .iteFst (ih (h.takeInterrupt _ _)) ((ih hr).iteFst hr)

theorem State.Canonical.stepTick {s : State} (h : s.Canonical) (n : Fin 12) : (s.stepTick n).Canonical := by
  unfold State.stepTick
  split
  · exact h
  · exact (h.stepStop _).ite ((((h.stepRun _ _ _).setDbg _).answer _ _ _).ite ((h.stepRun _ _ _).setDbg _))

theorem State.Canonical.stepMsg {s : State} (h : s.Canonical) (q : ColbelReq) (n : Fin 13) (count : BitVec 16) (irq : Bool) :
    (s.stepMsg q n count irq).Canonical :=
  h.withAuth _ _ _ _ (fun _ _ h1 => h1.onSlice _ _ _ (fun _ => (h1.done _ _ _).iteRan
    ((h1.done _ _ _).iteRan ((h1.done _ _ _).iteRan ((h1.setDbg _).stepTick _)))))

theorem State.Canonical.readCoreMsg {s : State} (h : s.Canonical) (q : ColbelReq) (n : Fin 13) (g : CoreReg) :
    (s.readCoreMsg q n g).Canonical :=
  h.withAuth _ _ _ _ (fun _ _ h1 => h1.onSlice _ _ _ (fun _ => h1.done _ _ _))

theorem State.Canonical.coreWrite {s : State} (h : s.Canonical) (x : Access) (n : Fin 12) (g : CoreReg) (v : BitVec 40)
    (tag : BitVec 4) {t : State} (ht : s.coreWrite x n g v tag = some t) :
    t.Canonical := by
  unfold State.coreWrite at ht
  dsimp only at ht
  rw [Option.ite_none_left_eq_some] at ht
  obtain ⟨-, ht⟩ := ht
  cases g with
  | cap j m =>
    rw [Option.ite_none_right_eq_some] at ht
    cases ht.2
    exact h.setCore _ _
  | kc off => exact h.busWrite _ _ _ ht
  | _ =>
    cases ht
    exact h.setCore _ _

theorem State.Canonical.writeCoreMsg {s : State} (h : s.Canonical) (q : ColbelReq) (n : Fin 13) (g : CoreReg) (v : BitVec 40)
    (tag : BitVec 4) :
    (s.writeCoreMsg q n g v tag).Canonical := by
  unfold State.writeCoreMsg
  refine h.withAuth _ _ _ _ (fun t x h1 => ?_)
  refine h1.onSlice _ _ _ (fun n => ?_)
  refine .iteRan (h1.done _ _ _) ?_
  split
  next t' e =>
    have ht' : t'.Canonical := h1.coreWrite _ _ _ _ _ e
    exact ht'.done _ _ _
  · exact h1.done _ _ _

theorem State.Canonical.sessFlash {s : State} (h : s.Canonical) (a : Nat) : (State.sessRead.flashCell s a).1.Canonical := by
  unfold State.sessRead.flashCell
  split
  next t _ e =>
    have ht : t.Canonical := State.Canonical.of_fst (h.flashGet _) e
    exact ht
  next t e =>
    have ht : t.Canonical := State.Canonical.of_fst (h.flashGet _) e
    exact ht.badAcc

theorem State.Canonical.sessRead {s : State} (h : s.Canonical) (a : Nat) : (s.sessRead a).1.Canonical := by
  unfold State.sessRead
  refine .iteFst (h.iteFst (((h.rd _).badAcc).iteFst (h.rd _))) ?_
  split
  · exact h.sessFlash _
  · exact h.sessFlash _
  · exact h

theorem State.Canonical.sessReads {s : State} (h : s.Canonical) (l : List Nat) : (s.sessReads l).1.Canonical := by
  induction l generalizing s with
  | nil => exact h
  | cons a l ih =>
    exact ih (h.sessRead _)

theorem State.Canonical.readMemMsg {s : State} (h : s.Canonical) (q : ColbelReq) (a : Word) (k : Nat) : (s.readMemMsg q a k).Canonical := by
  unfold State.readMemMsg
  extract_lets l
  refine .ite h ?_
  exact h.withAuth _ _ _ _ (fun _ _ h1 => (h1.done _ _ _).iteRan ((h1.done _ _ _).iteRan
    (((h1.sessReads _).done _ _ _).iteRan ((h1.sessReads _).done _ _ _))))

theorem State.Canonical.sessWrite {s : State} (h : s.Canonical) (x : Access) (a : Nat) (c : Cell) : (s.sessWrite x a c).1.Canonical := by
  unfold State.sessWrite
  refine .iteFst (h.badAcc.ite h) ?_
  refine .iteFst (h.iteFst (((h.rd _).badAcc).iteFst (h.iteFst ((h.rd _).wr _ _ _)))) ?_
  split
  · exact h
  · exact h
  · split
    · exact h.ite (h.postStore _ _ _)
    · split
      next t e' =>
        have ht : t.Canonical := h.busWrite _ _ _ e'
        exact ht
      · exact h

theorem State.Canonical.sessWrites {s : State} (h : s.Canonical) (x : Access) (l : List (Nat × Cell)) : (s.sessWrites x l).1.Canonical := by
  induction l generalizing s with
  | nil => exact h
  | cons a l ih =>
    have hw := h.sessWrite x a.1 a.2
    unfold State.sessWrites
    split
    next t e => exact ih (hw.of_fst e)
    · exact hw

theorem State.Canonical.ptbOwned (s : State) {t : State} (h : t.Canonical) (k : Nat) : (s.ptbOwned t k).Canonical :=
  h.elsewhere (by rfl)

theorem State.Canonical.writeMemMsg {s : State} (h : s.Canonical) (q : ColbelReq) (a : Word) (cs : List Cell) :
    (s.writeMemMsg q a cs).Canonical := by
  unfold State.writeMemMsg
  extract_lets l
  refine .ite h ?_
  exact h.withAuth _ _ _ _ (fun _ _ h1 => (h1.done _ _ _).iteRan ((h1.done _ _ _).iteRan
    ((State.Canonical.ptbOwned _ (h1.sessWrites _ _) _).done _ _ _)))

/-! The tick. -/

theorem State.Canonical.advance {s : State} (h : s.Canonical) : (s.advance).Canonical :=
  h.elsewhere (by rfl)

theorem State.Canonical.tick {s : State} (h : s.Canonical) : (s.tick).Canonical := by
  unfold State.tick
  extract_lets s1 s2 s3
  have h1 : s1.Canonical := h.advance
  have h2 : s2.Canonical := h1.ite h1.rtcTick
  have h3 : s3.Canonical := h2.wdgTick.ite h2
  exact h3.lateFires.lateDoorbells.fetchIssue.askMore.statusNext.twinTransmit.snapNext.statusAge.foldl _ _
    (fun _ _ h4 => (((h4.goTick _).scanTick _).bankTick _).stepTick _)

end Machine
end Sys2Proof
end

section
/-! PROOFS. The canonical form: commands and steps. -/

namespace Sys2Proof
namespace Machine

theorem State.Canonical.of_next {s t : State} (h : s.Canonical) (e : Host.Outcome.next (φ := Fault) (ρ := Refusal) s = .next t) : t.Canonical := by
  cases e
  exact h

/-- Every command keeps the canonical form: each comes to one of the operations above. -/
theorem State.Canonical.exec {s t : State} (h : s.Canonical) (i : Instr) (e : Machine.exec i s = .next t) : t.Canonical := by
  cases i with
  | eq | ne | lt | ge | gt | le | teq | tne | ret | fret | gret | rfe | loop | jump | call | jumpx | callx | fcall | gate | jmpp
  | cld | cst | crange | cmask | cclose | copen | cclr | cinfo | cmov | capsw | ctst | nop | lock | ctlFence | wfe | pusha | popa
  | pushx | popx | pushy | popy | tax | txa | tay | tya | swxy | rdsp | wdsp | rpg | wpg | rdtag | rdtime | pfx | ldia | ldix
  | ldiy | addia | lea | sc | pstore | div | sqrt | sincos | atan2 | retag | dsadj | att | lda | sta | add | sub | adds | subs
  | mul | macx | and | or | xor | ldx | stx | ldy | sty | xch | ldb | ldh | stb | sth | ldu | legacyLda | legacySta | legacyAdd
  | legacySub | legacyAnd | legacyOr | legacyXor => exact (h.instr _ _).of_next e
  | longResult => exact (h.longResult _).of_next e
  | lockBroken => exact (h.lockBroken _).of_next e
  | storeDrain => exact (h.storeDrain _).of_next e
  | sarTrigger => exact (h.sarPhase _ _ _).of_next e
  | sarSwtrig | selfcal | modeChangeRequest | sliceAssign | fence | resume | go | restart | stop | evrAck | evrSysAck
  | evrTgtWrite | erase | program | suspend | flashResume | marginCheck | setPw | setNext | flashLock | unlock | flcPwLo
  | flcPwHi | grgWcfgWrite | grgInWrite | grgThrWrite | functionEnable | functionDisable | sqTail | cqHead | edgeRidx | abort
  | injectionStart | injectionStop | injLimWrite | cleSwtrig | swapBank | toAuto | toManual | clearHist | mcsStageWrite
  | mcsWordCommit | ldOpenWrite | memMarchRequest | urgentRequest | madUnitEnable | madScanWrite | mbxGo | ptbEnable
  | pwmShadowWrite | tripClear | tripForce | slcTrip | tripEnableWrite | setMinver | writeKey | revoke | lcTransitionRequest
  | wdgService | dmaStart | dmaHalt | release => exact (h.write _ _ _).of_next e
  | sarHold => exact (h.sarHold _ _ _).of_next e
  | sarResultReady => exact (h.sarReady _ _).of_next e
  | sarHandoff => exact (h.sarHandoff _ _ _).of_next e
  | sarRecordWrite => exact (h.sarRecord _ _).of_next e
  | selfcalComplete => exact (h.selfcalEnd _ _).of_next e
  | descNop => exact (h.descNop _ _).of_next e
  | descFence => exact (h.descFence _ _).of_next e
  | setParam => exact (h.descSetParam _ _).of_next e
  | setRef => exact (h.descSetRef _ _ _).of_next e
  | loadCoeff => exact (h.descLoadCoeff _ _).of_next e
  | descSwapBank => exact (h.descSwapBank _ _).of_next e
  | setModeLoop => exact (h.descSetMode _ _).of_next e
  | readState => exact (h.descReadState _ _).of_next e
  | capture => exact (h.descCapture _ _).of_next e
  | traceArm => exact (h.descTraceArm _ _).of_next e
  | dmaXfer => exact (h.descDmaXfer _ _).of_next e
  | mcodeLoad => exact (h.descMcodeLoad _ _).of_next e
  | flashOp => exact (h.descFlashOp _ _).of_next e
  | descMarch => exact (h.descMarch _ _).of_next e
  | sliceFence => exact (h.descSliceFence _ _).of_next e
  | sliceResume => exact (h.descSliceResume _ _).of_next e
  | hilFeed => exact (h.descHilFeed _ _).of_next e
  | eventWait => exact (h.descEventWait _ _).of_next e
  | eventWaitTimeout => exact (h.descEventTimeout _ _).of_next e
  | registerWrite => exact ((h.writeAt _ _ _ _).keepWritten _ _ _).of_next e
  | readClears => exact ((h.readAt _ _ _).keepRead _ _ _).of_next e
  | coldStart => exact (h.coldStart _).of_next e
  | arm | disarm => exact (h.armWrite _ _ _ _).of_next e
  | armPendingTakesEffect => exact (h.armPending _).of_next e
  | modeChangeComplete => exact h.modeComplete.of_next e
  | stabledEntryComplete => exact h.stabledEntry.of_next e
  | wake => exact (h.wake _ _ _).of_next e
  | fenceComplete => exact (h.fenceEnd _).of_next e
  | resumeCheckComplete => exact (h.resumeEnd _).of_next e
  | restartTestsComplete => exact (h.restartEnd _ _ _).of_next e
  | lineFilterChange => exact (h.lineChange _ _).of_next e
  | eventLatch => exact (h.accept _).of_next e
  | msixIssue => exact (h.msixIssue _).of_next e
  | groupBatchClose => exact (h.batchTimeout _).of_next e
  | eventTap => exact h.eventTap.of_next e
  | orphanRead | captureFifoRead => exact (h.read _ _).of_next e
  | eraseComplete => exact (h.eraseComplete _).of_next e
  | programComplete => exact (h.programComplete _).of_next e
  | marginCheckComplete => exact (h.marginComplete _).of_next e
  | autoSuspend => exact (h.autoSuspend _).of_next e
  | autoResume => exact (h.autoResume _).of_next e
  | flashScrub => exact (h.flashScrub _).of_next e
  | scrubRewriteComplete => exact (h.scrubStep _ _).of_next e
  | loaderErase => exact (h.loaderErase _ _ _).of_next e
  | loaderWrite => exact (h.loaderWrite _ _ _ _ _).of_next e
  | loaderCheck => exact (h.loaderCheck _ _ _).of_next e
  | loaderRestart => exact (h.loaderRestart _ _).of_next e
  | windowHalfSwitch => exact (h.halfSwitch _ _ _ _).of_next e
  | settlingIntervalEnd => exact (h.settlingEnd _ _ _ _).of_next e
  | inputOverrange => exact (h.overrange _ _ _).of_next e
  | thresholdSwitch => exact (h.thrSwitch _ _ _).of_next e
  | grgTestWrite => exact ((h.write _ _ _).swapSides _ _ _ _).of_next e
  | frameDiscard => exact (h.discardOn _).of_next e
  | sync => exact (State.Canonical.lockedNow _ (h.syncIn _ _ _ _ _)).of_next e
  | event => exact (h.eventIn _ _ _ _).of_next e
  | topo => exact (State.Canonical.lockedNow _ (h.topoIn _ _ _)).of_next e
  | dlyReq => exact (h.dlyReq _ _ _).of_next e
  | dlyResp => exact (h.dlyResp _ _ _ _ _).of_next e
  | syncTransmit => exact h.syncTransmit.of_next e
  | topoTransmit => exact h.topoTransmit.of_next e
  | memberTimeout => exact (State.Canonical.lockedNow _ (h.memberTimeout _)).of_next e
  | syncLoss => exact (State.Canonical.lockedNow _ h.syncLoss).of_next e
  | groupStepApply => exact h.groupStep.of_next e
  | inauguration => exact h.inauguration.of_next e
  | ptpLock => exact (h.ptpLock _).of_next e
  | ttStepAnnounce => exact (h.ttAnnounce _).of_next e
  | groupAnnouncement => exact h.announceGroup.of_next e
  | groupAnnouncementReceive => exact (h.announceIn _ _ _).of_next e
  | ptpTimeEvent => exact h.ptpTime.of_next e
  | portUp => exact (State.Canonical.lockedNow _ (h.portGain _)).of_next e
  | portDown => exact (State.Canonical.lockedNow _ ((h.portLose _).laneLose _)).of_next e
  | ecnLinkChange => exact (State.Canonical.lockedNow _ (h.ecnChange _ _)).of_next e
  | linkUp => exact (h.linkUp _ _).of_next e
  | linkDown => exact h.linkDown.of_next e
  | functionLevelReset => exact (h.flr _).of_next e
  | busMasterEnableClear => exact (h.bmeClear _).of_next e
  | d3hotEntry => exact (h.d3hot _).of_next e
  | vfEnableClear => exact (h.vfClear _ _).of_next e
  | configurationRequest => exact (h.configRequest _ _).of_next e
  | completionTimeout => exact (h.readFails _ _ _).of_next e
  | disableTimeout => exact (h.disableTimeout _).of_next e
  | abortComplete => exact (h.abortEnd _).of_next e
  | lateCompletion => exact (h.lateCompletion _).of_next e
  | descriptorFetch => exact (h.fetch _ _ _).of_next e
  | completionWrite => exact (h.completionWrite _ _).of_next e
  | apertureWrite => exact (h.hostWriteCell _ _ _ _ _).of_next e
  | hostReadCompletion => exact (h.descData _ _ _).of_next e
  | injCaptureRecordWrite => exact (h.captureWrite _).of_next e
  | interruptEntry => exact (h.takeInterrupt _ _).of_next e
  | faultEntry => exact (h.faultCommand _).of_next e
  | checkpoint => exact (h.checkpoint _).of_next e
  | lockstepDivergence => exact (h.divergence _ _ _ _ _).of_next e
  | recoveryComplete => exact (h.recoveryEnd _ _ _).of_next e
  | loopTrigger => exact (h.loopTrig _ _).of_next e
  | loopIssue => exact (h.loopIssue _ _).of_next e
  | microwordIssue => exact (h.microword _).of_next e
  | commitCompare => exact (h.commitCompare _ _ _).of_next e
  | commitComplete => exact (h.commitComplete _ _ _).of_next e
  | crcComplete => exact (h.crcEnd _).of_next e
  | scanRepair => exact (h.scanRepair _ _ _).of_next e
  | attachedCallIssue => exact (h.callIssue _).of_next e
  | attachedCallComplete => exact (h.callComplete _ _).of_next e
  | attachedCallTimeout => exact (h.callTimeout _).of_next e
  | eccWriteBack => exact (h.writeBack _).of_next e
  | marchComplete => exact (h.marchEnd _).of_next e
  | memoryClearComplete => exact (h.clearEnd _).of_next e
  | secWiped => exact h.secWiped.of_next e
  | mmcScrub => exact h.scrub.of_next e
  | pageMapFillComplete => exact (h.fillEnd _).of_next e
  | mmcChannelDown => exact (h.channelDown _).of_next e
  | zeroCrossing => exact h.zeroCrossing.of_next e
  | madBoundary => exact (h.madTick _).of_next e
  | lineLost => exact (h.lineLost _).of_next e
  | madRecordWrite => exact h.madRecord.of_next e
  | refSettled => exact h.refSettled.of_next e
  | refFault => exact h.refFault.of_next e
  | udpDatagram => exact (h.udpDatagram _).of_next e
  | canfdSegment => exact (h.canSegment _ _ _).of_next e
  | canfdMessageTimeout => exact (h.canTimeout _).of_next e
  | hello => exact (h.helloMsg _).of_next e
  | auth => exact (h.authMsg _ _).of_next e
  | authSignature => exact (h.authSign _ _ _).of_next e
  | authLockoutEnd => exact (h.lockoutEnd _).of_next e
  | close => exact (h.closeMsg _ _).of_next e
  | sessionTimeout => exact (h.sessionTimeout _).of_next e
  | info => exact (h.infoMsg _).of_next e
  | attach => exact (h.attachMsg _ _).of_next e
  | detach => exact (h.detachMsg _ _).of_next e
  | halt => exact (h.haltMsg _ _).of_next e
  | haltTakesEffect => exact (h.haltEffect _).of_next e
  | colbelResume => exact (h.resumeMsg _ _).of_next e
  | step => exact (h.stepMsg _ _ _ _).of_next e
  | readCore => exact (h.readCoreMsg _ _ _).of_next e
  | writeCore => exact (h.writeCoreMsg _ _ _ _ _).of_next e
  | setBp => exact (h.setBpMsg _ _ _ _ _ _).of_next e
  | setWp => exact (h.setWpMsg _ _ _ _ _ _ _ _).of_next e
  | breakpointHit => exact (h.bpHit _).of_next e
  | watchpointHit => exact (h.wpStop _).of_next e
  | readMem => exact (h.readMemMsg _ _ _).of_next e
  | writeMem => exact (h.writeMemMsg _ _ _).of_next e
  | testOut => exact (h.testOutMsg _ _ _).of_next e
  | traceCfg => exact (h.traceCfgMsg _ _ _ _).of_next e
  | token => exact (h.tokenMsg _ _).of_next e
  | keepalive => exact (h.keepAliveMsg _).of_next e
  | tracePostStore => exact (h.tracePost _ _ _ _).of_next e
  | traceMerge => exact h.traceMerge.of_next e
  | traceSessionSend => exact (h.traceSend _).of_next e
  | pwmValley => exact (((h.pwmValley _ _).goValley _ _).ite h).of_next e
  | pwmPeriodPoint => exact (h.pwmPeriod _ _).of_next e
  | phaseChange => exact (h.phaseChange _ _).of_next e
  | deadTimeEnd => exact (h.deadTimeEnd _ _).of_next e
  | immediateActivation => exact (h.immediate _ _).of_next e
  | counterRestart => exact (h.restartValley _ _).of_next e
  | tripLatch => exact (h.tripLatch _ _).of_next e
  | tripInputFilterPass => exact (h.tripPass _ _ _).of_next e
  | tripStageTurnOn => exact (h.stageTurnOn _ _).of_next e
  | tripinConfigWrite => exact ((h.write _ _ _).tripResample _ _ _ _).of_next e
  | captureEdge => exact (h.captureEdge _ _ _).of_next e
  | encoderStep => exact (h.encoderStep _ _ _).of_next e
  | lcStateWrite => exact h.lcWrite.of_next e
  | tamper => exact (h.tamper _).of_next e
  | inputLoss => exact (h.inputLoss _).of_next e
  | holdupLow => exact h.holdupLow.of_next e
  | holdupShutdown => exact h.shutdown.of_next e
  | inputRestored => exact (h.inputRestored _).of_next e
  | holdupReady => exact h.holdupReady.of_next e
  | overvoltage => exact (h.overvoltage _).of_next e
  | elFoldback => exact (h.foldback _ _).of_next e
  | elFoldbackRetry => exact (h.foldbackEnd _ _).of_next e
  | clockLock => exact (h.clockLock _).of_next e
  | clockGlitch => exact h.clockGlitch.of_next e
  | rtcAlarm => exact h.rtcAlarm.of_next e
  | xtalOkChange => exact (h.xtalOk _).of_next e
  | temperatureUpdate => exact (h.temperature _ _).of_next e
  | wdgRestart => exact (h.wdgRestartWrite _ _ _).of_next e
  | wdgExpire => exact (h.wdgExpire _).of_next e
  | dmaEnd | dmaSignal | dmaFence => exact (h.dmaRun _ _ _ _ (fun _ _ h1 => h1.dmaBarrier _ _ _ _)).of_next e
  | move => exact (h.dmaRun _ _ _ _ (fun _ _ h1 => h1.dmaMove _ _ _)).of_next e
  | dmaLoop => exact (h.dmaRun _ _ _ _ (fun _ _ h1 => h1.dmaLoop _ _ _)).of_next e
  | endloop => exact (h.dmaRun _ _ _ _ (fun _ _ h1 => h1.dmaEndloop _ _ _)).of_next e
  | dmaWait => exact (h.dmaRun _ _ _ _ (fun _ _ h1 => h1.dmaWait _ _ _)).of_next e
  | dmaWaitTimeout => exact (h.dmaTimeout _ _).of_next e
  | shuffle => exact (h.dmaRun _ _ _ _ (fun _ _ h1 => h1.dmaShuffle _ _ _)).of_next e
  | dmaWriteResponse => exact (h.dmaResponse _ _).of_next e
  | commit | config | snap | handover | takeAck | status => exact (h.received _ _).of_next e
  | statusTransmit => exact h.statusOut.of_next e
  | twinLinkLoss => exact h.twinLoss.of_next e
  | twinLinkUp => exact (h.twinUp _).of_next e
  | handoverLineAssert => exact h.lineAssert.of_next e
  | handoverLineIn => exact h.lineIn.of_next e
  | takeoverComplete => exact (h.takeoverEnd _).of_next e
  | takeAckTimeout => exact h.takeAckTimeout.of_next e
  | twnHoInDeasserted => exact h.lineOut.of_next e
  | healthyChg => exact h.healthy.of_next e

theorem State.Canonical.step {s t : State} (h : s.Canonical) (e : Machine.step s = .next t) : t.Canonical := by
  unfold Machine.step at e
  split at e
  · exact h.tick.of_next e
  next i rest _ =>
    have hs : State.Canonical { s with pending := rest } := h.elsewhere (by rfl)
    exact hs.exec i e

/-- Settles O58: every operation of the model keeps every map canonical, and a step is one of them. -/
theorem stepKeepsCanonical : Obligations.StepKeepsCanonical := fun _ _ h e => h.step e

end Machine
end Sys2Proof
end

end
